-- ==== Sys2Proof/Word.lean ====
section
/-! DEFINITION. The word types of the part: a register is 32 bits wide, memory is addressed by the byte, and a short
stamp is a count of nanoseconds (R11). -/

namespace Sys2Proof

/-- A register word (spec/00_scope.md, Registers: "Registers are 32 bits wide"). -/
abbrev Word := BitVec 32

/-- A byte of memory. -/
abbrev Byte := BitVec 8

/-- A short stamp: nanoseconds since the PTP epoch (R11). Kept as a plain count; `stampGap` reads a difference of two
of them modulo 2^64 as R14 says, and a record stores it modulo 2^64 (R12). -/
abbrev Stamp := Nat

end Sys2Proof
end

