-- ==== Sys2Proof/Syntax.lean ====
section
/-! DEFINITION. The commands that reach the part (spec/opcode_table.json) and the data they carry. -/

namespace Sys2Proof

/-- Who writes a register (R433, SOURCE 0 to 6). -/
inductive Source
  | user | base | peg | mgt | smbus | touch | policy
  deriving DecidableEq, Repr

/-- What the analogue die measures of one reference input in a millisecond (R92, R93): whether its clock is present, and
its frequency offset from the local oscillator in units of 2^-16 ppb. -/
structure RefObs where
  input : Nat
  present : Bool
  freq : Int
  deriving DecidableEq, Repr

/-- An Announce (R95): the sender, the grandmaster, the data set by which the default best master clock algorithm compares
masters (smaller is better, in order), the clockClass, and the UTC offset with its leap flags where the announce carries
one. -/
structure Announce where
  sender : Nat
  gm : Nat
  rank : List Nat
  clockClass : Nat
  utc : Option (Int × Bool × Bool)
  deriving DecidableEq, Repr

/-- A PTP message as the port's instance sees it (R95, R96). Stamps are in ns and correction fields in
units of 2^-16 ns; `t3` of a Delay_Resp is the send stamp the port kept of the Delay_Req it answers. `profile`
messages that R95 lists as unsupported or ignored are `other`. -/
inductive PtpMsg
  | announce (domain : Nat) (a : Announce)
  | sync (domain sender seq : Nat) (twoStep : Bool) (t1 : Nat) (t2 : Nat) (corr : Int)
  | followUp (domain sender seq : Nat) (t1 : Nat) (corr : Int)
  | delayResp (domain sender seq : Nat) (t3 : Nat) (t4 : Nat) (corr : Int)
  | other
  deriving DecidableEq, Repr

/-- A PTP message with the IP version that it came over and its source address (R95). -/
structure PtpFrame where
  ipv6 : Bool
  saddr : Nat
  msg : PtpMsg
  deriving DecidableEq, Repr

/-- A UDP datagram (R143): `vid` is its tag's VLAN ID; IPv4 addresses are 32-bit, IPv6 addresses 128-bit numbers. `ptp` is the PTP
message that its payload spells, where it spells one (R95). -/
structure Datagram where
  ipv6 : Bool
  vid : Option Nat
  daddr : Nat
  saddr : Nat
  dport : Nat
  payload : List Byte
  ptp : Option PtpMsg
  deriving DecidableEq, Repr

/-- A message of the protocols that base firmware answers (R139, R141, R144): an ARP request and an IPv6 neighbour solicitation with
the sender's addresses and the one asked for, an ICMP or ICMPv6 echo request, and an IGMP or MLD query, general or of a
group. -/
inductive BaseReq
  | arp (sip smac target : Nat)
  | neighbour (saddr smac target : Nat)
  | echo (ipv6 : Bool) (saddr daddr ident seq : Nat) (data : List Byte)
  | query (ipv6 : Bool) (group : Option Nat)
  deriving DecidableEq, Repr

/-- What a frame carries (R140): a UDP datagram, a message of a protocol that base firmware answers, or anything else. -/
inductive EthBody
  | udp (d : Datagram)
  | base (r : BaseReq)
  | other
  deriving DecidableEq, Repr

/-- A received Ethernet frame: its port (0 A, 1 B, 2 the MGT port) and sub-port, the length of its IP packet, whether FCS and FEC are
good, and its body. -/
structure EthFrame where
  port : Nat
  sub : Nat
  ipBytes : Nat
  good : Bool
  body : EthBody
  deriving DecidableEq, Repr

/-- A sequence parameter set as base firmware reads it (R170, R172): profile_idc, level_idc, size, picture buffering,
chroma_format_idc, bit depth, whether the scan is progressive, and whether it uses tools of its profile only. -/
structure StreamParams where
  profile : Nat
  level : Nat
  width : Nat
  height : Nat
  buffering : Nat
  chroma : Nat
  depth : Nat
  progressive : Bool
  tools : Bool
  deriving DecidableEq, Repr

/-- What base firmware reads from an access unit under the coding standards (R173): parameter sets that fail to parse, the
set it activates, whether its slice headers parse, the nal_unit_type of its slices, whether it is an I picture and the
recovery_frame_cnt of its recovery point SEI message (R188), its picture order count,
the pictures that its active lists and its reference picture set name, the pictures that stay marked after its marking
(picture order count, mark 1 or 2, long-term index), its own mark (0 when it is not used for reference) and index, and
whether it is displayed. -/
structure ParsedPicture where
  badParams : Nat
  params : Option StreamParams
  parses : Bool
  nalType : Nat
  intra : Bool
  recovery : Option Nat
  poc : Int
  lists : List Int
  rps : List Int
  keep : List (Int × Nat × Nat)
  mark : Nat
  ltIndex : Nat
  display : Bool
  deriving DecidableEq, Repr

/-- What a decode engine made of a job: the decode errors' cause bits (R187), the display copy and the reconstruction by offset in
their buffers, and the runs of samples in each, by offset and number, that were predicted from a missing entry or belong to the
rest of a slice that an error stopped (R185, R187). -/
structure JobResult where
  cause : Nat
  disp : List (Nat × List Byte)
  recon : List (Nat × List Byte)
  fillDisp : List (Nat × Nat)
  fillRecon : List (Nat × Nat)
  deriving DecidableEq, Repr

/-- An access of an initiator (R385, R393, R401): protection unit and SOURCE, user mode, kind (0 read, 1 write, 2 fetch),
memory group, priority class, address, length, the bytes of a write, and what the read of a read-modify-write finds: 0 nothing,
1 a single-bit error, 2 an uncorrectable one (R379). -/
structure Access where
  unit : Nat
  source : Nat
  user : Bool
  kind : Nat
  group : Nat
  cls : Nat
  addr : Nat
  len : Nat
  data : List Byte
  rmw : Nat
  deriving DecidableEq, Repr

/-- A long packet on a camera's link (R201, R204): virtual channel, data type, word count, whether its header decodes and its
payload CRC holds, the samples it carries; whether it was lost to the input buffer or an output write of it met a protection
fault, and the fill of the input buffer in percent (R387). -/
structure CsiLine where
  vc : Nat
  dt : Nat
  words : Nat
  headerOk : Bool
  crcOk : Bool
  lost : Bool
  fault : Bool
  samples : List Nat
  fill : Nat
  deriving DecidableEq, Repr

/-- A request on a capture port's AUX channel (R222): an EDID read over I²C, the read of the rate and lane capabilities that
R223 advertises, or another request with the answer that DisplayPort prescribes. -/
inductive AuxRequest
  | edid (ofs n : Nat)
  | capabilities
  | other (answer : List Byte)
  deriving DecidableEq, Repr

/-- What a touch channel's receivers measure in a scan frame (R316 to R319, R334): for each mutual slot the reading of each
sense electrode; raw self counts of drive and sense electrodes; the receivers' outputs in each idle slot; and the up to
eight measurements of a self-test that take the idle slots' place. -/
structure ScanData where
  slotsRead : List (List Int)
  selfDrive : List Nat
  selfSense : List Nat
  idle : List (List Int)
  test : List Nat
  deriving DecidableEq, Repr

/-- The one-time fuses (R416): the hashes of the integrator's keys, the revoked keys as a bit set, the SVN bits blown, the key of
encrypted sections, ALT_EN, DEBUG. -/
structure Fuses where
  keyHash : List (List Byte)
  revoke : Nat
  svn : Nat
  imgKey : List Byte
  altEn : Bool
  debug : Bool
  deriving DecidableEq, Repr

/-- A section of an image in flash (R418): its 128-byte table entry; its bytes, as stored until CHECK has ended and in plain from then
on; whether its digest still holds when LOAD reads it again. -/
structure FlashSection where
  entry : List Byte
  data : List Byte
  rereadOk : Bool
  deriving DecidableEq, Repr

/-- A flash slot as its reader finds it (R417, R425): header bytes 0 to 255, sections, signature; whether its reads succeed, and
whether Llynan's signature of base firmware holds (R419). -/
structure FlashImage where
  header : List Byte
  sections : List FlashSection
  sig : List Byte
  readOk : Bool
  fwOk : Bool
  deriving DecidableEq, Repr

/-- What an enumeration of an MST port's topology gives (R305 to R307): the streams whose allocation the topology refuses, and each
stream's EDID block 0. -/
structure Topology where
  denied : List Nat
  edid : List (Nat × List Byte)
  deriving DecidableEq, Repr


/-- The commands of the part, one constructor per row of the table of operations and events. Each carries the short
stamp `t` of the instant at which it happens, then the event's operands. -/
inductive Instr
  /-- WRITE_REGISTER (R15): A write to a register that has no row of its own is applied field by field according to the types of its fields. -/
  | writeRegister (t : Stamp) (src : Source) (hart : Nat) (addr : Nat) (data : List Byte)
  /-- SNAP (R20): A write of 1 to a block's SNAP bit latches all of the block's multi-word values together. -/
  | snap (t : Stamp) (src : Source) (addr : Nat)
  /-- CLEAR_REFUSAL_RECORD (R433): A write of 1 to PIT_REF.VALID empties the refusal record. -/
  | clearRefusalRecord (t : Stamp)
  /-- CLEAR_DROPPED_WRITE_RECORD (R434): A write of 1 to PIT_SWR.VALID clears it, so that the next dropped write fills ADDR. -/
  | clearDroppedWriteRecord (t : Stamp)
  /-- CLEAR_VIOLATION_RECORD (R405): A write of 1 to PRU_FREC.VALID clears the violation record, and this clear takes effect before a coinciding violation. -/
  | clearViolationRecord (t : Stamp) (u : Nat)
  /-- ACKNOWLEDGE (R450): A write to EVJ_ACK acknowledges records up to the sequence number written and may release ALERT_N. -/
  | acknowledge (t : Stamp) (seq : Nat)
  /-- POWER_ON_HOLD_END (R488): Once every monitored rail has been in tolerance for 10 ms, the power-on hold ends and T_R falls. -/
  | powerOnHoldEnd (t : Stamp) (side : Nat) (rails : List (Nat × Nat))
  /-- RESET_N_LOW (R414): RESET_N held low for at least 10 µs resets the part. -/
  | resetNLow (t : Stamp)
  /-- RESET_N_RELEASE (R415): The release of RESET_N is T_R: registers take their reset values, BOL_SIDE is read and the boot ROM starts. -/
  | resetNRelease (t : Stamp) (side : Nat)
  /-- BOOT_ROM_START (R425): The boot ROM trains the die-to-die link, reads the fuses, checks slot A and starts base firmware. -/
  | bootRomStart (t : Stamp) (link : Bool) (fuses : Fuses) (slotA : FlashImage) (slotB : FlashImage)
  /-- BASE_FIRMWARE_START (R426): Base firmware runs CHECK and then APPLY, enabling the protection units and the APPLY group of enables. -/
  | baseFirmwareStart (t : Stamp) (checked : Stamp) (slotB : FlashImage)
  /-- TRAIN_DONE (R381): DRAM training of all channels ends, and the LOAD step then runs. -/
  | trainDone (t : Stamp) (bad : List (Nat × Nat)) (trims : List (Nat × Nat × Word)) (loaded : Stamp)
  /-- TIME_SET (R106): At pitch, once an input is available or MUI_ACQ.WAIT has passed, base firmware loads the master counter and the timebase becomes ACQUIRING or FREE RUN. -/
  | timeSet (t : Stamp)
  /-- MASTER_COUNTER_RELOAD (R106): Before seal, base firmware loads the master counter again when a better time input becomes available; running heads restart on the new grid. -/
  | masterCounterReload (t : Stamp)
  /-- HEADS_START (R426): Once TIME and LOAD have ended, the held enables are written, layout 0 is committed, CAMINIT runs and the user programs start. -/
  | headsStart (t : Stamp) (harts : List Nat)
  /-- CAMINIT_DONE (R220): A pipeline's sensor initialisation sequence ends, or stops at a refused write with event 0x5003. -/
  | caminitDone (t : Stamp) (p : Nat) (done : Nat) (refused : Bool)
  /-- SEAL (R431): Once HEADS has ended and the timebase is tethered or SEAL_WAIT has passed, the part seals itself. -/
  | sealPart (t : Stamp)
  /-- D2D_LINK_DOWN (R24): The die-to-die link leaves its trained state and event 0x0001 is raised. -/
  | d2dLinkDown (t : Stamp)
  /-- D2D_LINK_RETRAINED (R24): The die-to-die link regains its trained state, and an event reports the messages dropped. -/
  | d2dLinkRetrained (t : Stamp)
  /-- D2D_FLIT_REPLAY (R24): A die-to-die flit that arrives with a CRC error is replayed and counted. -/
  | d2dFlitReplay (t : Stamp)
  /-- TIME_BUS_FULL_STAMP (R89): Every 4,096 ns each tap checks its reconstruction against the full stamp, corrects its rate or takes a load mark, and raises 0x0804 beyond its bound. -/
  | timeBusFullStamp (t : Stamp) (taps : List (Nat × Int × Nat))
  /-- WATCH_TAP_TIMEOUT (R36): With no change on the time bus for 1 µs, the watch tap runs on its own oscillator and journal records are marked NOTIME. -/
  | watchTapTimeout (t : Stamp) (diff : Int)
  /-- HEAD_FRAME_START (R40): At a head's frame start, pegs execute, the commit runs, frames are selected and element states are evaluated. -/
  | headFrameStart (t : Stamp) (h : Nat) (drift : Int) (bad : List Nat)
  /-- ELEMENT_STATE_MISS (R45): An element whose state is not ready by its scan time is drawn with the ABSENT pattern, FLY_MISS advances and event 0xA003 is raised. -/
  | elementStateMiss (t : Stamp) (h : Nat) (e : Nat)
  /-- HEAD_LINE_START (R304): At the start of a line, line pegs, comparator signals and GPO levels act, and the head updates its fetch lead. -/
  | headLineStart (t : Stamp) (h : Nat) (n : Nat)
  /-- TILE_FETCH_COMPLETE (R297): A tile fetch completes: its data is used when it arrives in time, and is discarded when it is late. -/
  | tileFetchComplete (t : Stamp) (h : Nat) (tx : Nat) (ty : Nat) (e : Option Nat) (fault : Bool)
  /-- HEAD_FRAME_DONE (R303): At frame done, SIG, LSIG, the region CRCs and the result block are written, and SIGX is sent. -/
  | headFrameDone (t : Stamp) (h : Nat) (dsc : List Byte) (wb : Nat)
  /-- HEAD_ENABLE_WRITE (R293): A write of HED_CTL.EN starts a stopped head toward its first grid frame start, or cancels a starting head. -/
  | headEnableWrite (t : Stamp) (h : Nat) (data : Word)
  /-- FRAME_BEGIN (R157): A slot takes a free buffer for a new frame, or discards the frame with DROP and event 0x3011. -/
  | frameBegin (t : Stamp) (n : Nat) (key : Nat)
  /-- FRAME_FINISH (R50): The finishing unit sets completeness, the signature and the change stamp, and makes the frame eligible on a single part or sends NOTICE in a pair. -/
  | frameFinish (t : Stamp) (n : Nat) (i : Nat) (code : Nat) (cause : Nat) (arrival : Stamp) (sup : Option Stamp) (missing : Nat) (content : List (Nat × List Byte))
  /-- REF_EVALUATION (R98): Every millisecond, input states are evaluated, a reference is selected and queued commands act. -/
  | refEvaluation (t : Stamp) (obs : List RefObs)
  /-- QUALIFICATION_COMPLETE (R93): An input's qualification time completes, and it becomes AVAILABLE or enters WTR. -/
  | qualificationComplete (t : Stamp) (k : Nat)
  /-- WTR_EXPIRE (R98): A WTR timer reaches 0 and the input becomes AVAILABLE. -/
  | wtrExpire (t : Stamp) (k : Nat)
  /-- LOCK_TIME_ELAPSED (R103): The lock condition has held for MUI_LOCK.TIME, and the timebase becomes TETHERED. -/
  | lockTimeElapsed (t : Stamp)
  /-- DWELL_END (R108): At the end of a dwell, the loop moves to the next bandwidth entry or dwells again. -/
  | dwellEnd (t : Stamp)
  /-- HOLDOVER_SECOND (R111): Each whole second in holdover, te is updated. -/
  | holdoverSecond (t : Stamp)
  /-- SERDES_LOOP_LOCK_LOSS (R112): The SerDes reference loop loses lock, and event 0x0805 is raised. -/
  | serdesLoopLockLoss (t : Stamp) (err : Int)
  /-- FORCE (R102): REF_CMD FORCE selects and keeps a priority entry from the next evaluation. -/
  | force (t : Stamp) (src : Source) (entry : Nat)
  /-- RELEASE (R102): REF_CMD RELEASE removes the force. -/
  | release (t : Stamp) (src : Source) (entry : Nat)
  /-- SKIP_WTR (R102): REF_CMD SKIP_WTR ends an input's wait-to-restore at once. -/
  | skipWtr (t : Stamp) (src : Source) (entry : Nat)
  /-- PPS_EDGE (R92): A PPS edge is measured as φ and passes through the PPS and jump tests. -/
  | ppsEdge (t : Stamp) (k : Nat) (edge : Nat)
  /-- PPS_TIMEOUT (R93): A PPS edge missing past 1 s + 1 µs fails the input with cause PPS. -/
  | ppsTimeout (t : Stamp) (k : Nat)
  /-- ACTIVITY_GAP (R93): A gap of more than 8 periods on a frequency input fails it with cause NOSIG. -/
  | activityGap (t : Stamp) (k : Nat)
  /-- GNSS_SENTENCE (R97): A ZDA sentence is received and labels the next PPS edge. -/
  | gnssSentence (t : Stamp) (utcSeconds : Nat) (valid : Bool)
  /-- PTP_MESSAGE_RECEIVE (R95): A PTP event or general message is stamped and handled by the port's slave-only instance. -/
  | ptpMessageReceive (t : Stamp) (p : Nat) (m : PtpFrame)
  /-- ANNOUNCE_TIMEOUT (R93): When no announce or exchange arrives within the receipt timeout, the PTP input fails with cause PROTO. -/
  | announceTimeout (t : Stamp) (p : Nat)
  /-- SUBMIT (R123): PEG_STG_CMD SUBMIT starts the check of a stager group and sets BUSY. -/
  | submit (t : Stamp) (src : Source) (sg : Nat)
  /-- GROUP_CHECK_DONE (R125): The group check ends: the group is accepted or refused with a cause, and the result is written. -/
  | groupCheckDone (t : Stamp)
  /-- PEG_CANCEL (R129): PEG_STG_CMD CANCEL cancels the unarmed pending pegs of a group and raises 0x0A04. -/
  | pegCancel (t : Stamp) (src : Source) (sg : Nat) (group : Nat)
  /-- PEG_ARM (R121): At T − 500 µs, a pending peg is delivered to its unit's arm stage. -/
  | pegArm (t : Stamp) (i : Nat)
  /-- PEG_IMMEDIATE_FIRE (R116): An immediate peg executes at the first edge of its block whose tap is at or past T. -/
  | pegImmediateFire (t : Stamp) (q : Nat) (block : Nat)
  /-- PEG_EXPIRE (R117): A peg that passes its deadline without a boundary expires, is freed and raises 0x0A02. -/
  | pegExpire (t : Stamp) (i : Nat)
  /-- ETH_FRAME_RECEIVE (R140): A received Ethernet frame is classified to PTP, a flow, a base protocol or discard. -/
  | ethFrameReceive (t : Stamp) (fr : EthFrame)
  /-- HELD_PACKET_EXPIRE (R152): A held packet's W expires, and it is delivered as FILLED or discarded as a duplicate. -/
  | heldPacketExpire (t : Stamp)
  /-- SENDER_AGE_OUT (R151): A sender stops being current after the claim hold, and the lead claim changes with 0x2002. -/
  | senderAgeOut (t : Stamp) (n : Nat)
  /-- FRAME_SKEW_TIMEOUT (R158): SKEW ms after the marker, a network frame finishes with the packets it has. -/
  | frameSkewTimeout (t : Stamp) (n : Nat) (ts : Nat)
  /-- FRAME_PACKET_TIMEOUT (R158): 100 ms after its last packet, a network frame finishes. -/
  | framePacketTimeout (t : Stamp) (n : Nat) (ts : Nat)
  /-- LEG_SILENCE_TIMEOUT (R148): A leg of a DUAL slot is silent for 1 s, and event 0x2005 is raised. -/
  | legSilenceTimeout (t : Stamp) (n : Nat) (leg : Nat)
  /-- SENDER_REPORT_LAPSE (R160): With no sender report for 10 s, the slot derives its capture stamps, and event 0x3013 is raised. -/
  | senderReportLapse (t : Stamp) (n : Nat)
  /-- SUBPORT_LINK_CHANGE (R144): A sub-port loses or regains link, and on regaining it base firmware rejoins its multicast groups. -/
  | subportLinkChange (t : Stamp) (p : Nat) (sub : Nat) (up : Bool)
  /-- PACKET_RELEASE (R164): A packet of an access unit is sent at its release time, or late with event 0x2006. -/
  | packetRelease (t : Stamp) (st : Nat)
  /-- CLAIM_HEARTBEAT_SEND (R164): At each whole millisecond, a claim heartbeat is sent on each leg. -/
  | claimHeartbeatSend (t : Stamp)
  /-- SENDER_REPORT_SEND (R164): At each whole second, a sender report is sent on each leg. -/
  | senderReportSend (t : Stamp)
  /-- PICTURE_JOB_BUILD (R173): Base firmware parses a complete access unit, handles its references and writes a picture job. -/
  | pictureJobBuild (t : Stamp) (ctx : Nat) (p : ParsedPicture)
  /-- ENGINE_JOB_START (R179): A free engine takes the next ready job and restores a virtual context's state. -/
  | engineJobStart (t : Stamp) (encode : Bool) (e : Nat)
  /-- ENGINE_JOB_END (R168): A job ends: the engine writes its result, finishes the frame and counts it when late. -/
  | engineJobEnd (t : Stamp) (encode : Bool) (e : Nat) (r : JobResult)
  /-- BUCKET_TAKE (R189): At a bucket's take time, the encode context takes a frame or skips, and applies an armed pending set. -/
  | bucketTake (t : Stamp) (ctx : Nat) (twinRuns : Bool)
  /-- ARM (R195): VEC_CTX CMD ARM arms the pending set for its apply stamp. -/
  | arm (t : Stamp) (src : Source) (ctx : Nat)
  /-- CAMERA_FRAME_START (R204): A CSI-2 frame start packet begins a camera frame, executes pegs and takes a changed bundle. -/
  | cameraFrameStart (t : Stamp) (p : Nat) (vc : Nat)
  /-- CCI_WRITES_DONE (R209): The bundle's sensor writes finish, or are refused with event 0x5003. -/
  | cciWritesDone (t : Stamp) (p : Nat) (done : Nat) (refused : Bool)
  /-- CCI_WINDOW_EXPIRE (R209): When the writes are not finished within CCI_WIN, they are stopped and LATEWR is set. -/
  | cciWindowExpire (t : Stamp) (p : Nat) (done : Nat)
  /-- EMBEDDED_DATA_RECEIVE (R211): Embedded data identifies the frame's bundle, and 0x5004 is raised on a mismatch. -/
  | embeddedDataReceive (t : Stamp) (p : Nat) (vc : Nat) (data : List Byte) (headerOk : Bool) (crcOk : Bool)
  /-- CSI_LINE_RECEIVE (R204): A long packet of pixel data enters the pipeline as a line. -/
  | csiLineReceive (t : Stamp) (p : Nat) (l : CsiLine)
  /-- CAMERA_FRAME_END (R204): A frame end packet, or the next frame start, ends the frame, sets its completeness and writes its statistics. -/
  | cameraFrameEnd (t : Stamp) (p : Nat) (vc : Nat)
  /-- CAMERA_FRAME_TIMEOUT (R204): 100 ms after its last packet, a camera frame ends. -/
  | cameraFrameTimeout (t : Stamp) (p : Nat)
  /-- CAMERA_OUTPUT_FINISH (R206): A pipeline output finishes its frame in its slot. -/
  | cameraOutputFinish (t : Stamp) (p : Nat) (o : Nat)
  /-- CAMERA_SILENCE_TIMEOUT (R206): With no frame start for 1 s, event 0x5005 is raised. -/
  | cameraSilenceTimeout (t : Stamp) (p : Nat)
  /-- FSYNC_PULSE (R202): FSYNC pulses at each k × PERIOD + PHASE. -/
  | fsyncPulse (t : Stamp) (p : Nat)
  /-- CAPTURE_FRAME_BEGIN (R224): The start of vertical blanking begins a capture frame with arrival stamp A. -/
  | captureFrameBegin (t : Stamp) (q : Nat) (w : Nat) (h : Nat) (enc : Nat) (bpc10 : Bool)
  /-- CAPTURE_FRAME_END (R224): The last active line, or a lost link, ends a capture frame with its completeness. -/
  | captureFrameEnd (t : Stamp) (q : Nat)
  /-- CAPTURE_LINK_CHANGE (R223): The capture link trains or is lost, and IRQ_HPD signals the change with event 0x5801. -/
  | captureLinkChange (t : Stamp) (q : Nat) (trained : Bool) (rate : Nat) (lanes : Nat) (video : Bool)
  /-- CAPTURE_AUX_REQUEST (R222): An AUX or I²C-over-AUX request is answered, including EDID reads. -/
  | captureAuxRequest (t : Stamp) (q : Nat) (r : AuxRequest)
  /-- POINT_FRAME_PROCESS (R231): The engine checks a queued point frame, judges its alive counter, mirrors it and applies its entries. -/
  | pointFrameProcess (t : Stamp) (bad : List Nat)
  /-- FEEDER_RESYNC_TIMEOUT (R233): With no accepted frame for RESYNC ms, the feeder loses SYNC and event 0x6005 is raised. -/
  | feederResyncTimeout (t : Stamp) (f : Nat)
  /-- SWEEP_START (R241): A sweep starts at its period, executes pegs and sets SILENT on points past their age class. -/
  | sweepStart (t : Stamp)
  /-- SWEEP_END (R242): A sweep finishes and writes PNT_SWRES; an overrun starts the next sweep at once with 0x6007. -/
  | sweepEnd (t : Stamp)
  /-- START (R245): CHK_CMD START opens a message and advances the alive counter in append mode. -/
  | start (t : Stamp) (src : Source) (u : Nat)
  /-- FINISH (R245): CHK_CMD FINISH closes the message and writes the check result. -/
  | finish (t : Stamp) (src : Source) (u : Nat)
  /-- RESET_ALIVE (R254): CHK_CMD RESET_ALIVE sets the alive counter to 0. -/
  | resetAlive (t : Stamp) (src : Source) (u : Nat)
  /-- FEED_BYTE (R244): CHK_FEED_B adds one byte to the open message. -/
  | feedByte (t : Stamp) (src : Source) (u : Nat) (data : Word)
  /-- FEED_HALF_WORD (R244): CHK_FEED_H adds a half-word, low byte first. -/
  | feedHalfWord (t : Stamp) (src : Source) (u : Nat) (data : Word)
  /-- FEED_WORD (R244): CHK_FEED_W adds a word, low byte first. -/
  | feedWord (t : Stamp) (src : Source) (u : Nat) (data : Word)
  /-- CHK_CFG_WRITE (R254): A write to CHK_CFG sets a user unit's configuration, and is refused for units 0 to 4. -/
  | chkCfgWrite (t : Stamp) (src : Source) (u : Nat) (data : Word)
  /-- GLYPH_MISS (R252): A field not rendered by its scan time is drawn ABSENT for the frame, and event 0x6006 is raised. -/
  | glyphMiss (t : Stamp) (h : Nat) (e : Nat)
  /-- COMMIT_REQUEST (R274): CMP_CMD REQUEST makes a commit due at the next frame start. -/
  | commitRequest (t : Stamp) (src : Source) (h : Nat)
  /-- COMMIT_CANCEL (R274): CMP_CMD CANCEL withdraws a pending commit request. -/
  | commitCancel (t : Stamp) (src : Source) (h : Nat)
  /-- HPD_HIGH_DEBOUNCE (R306): HPD high for 100 ms starts link training on a transmit port. -/
  | hpdHighDebounce (t : Stamp) (p : Nat) (rate : Nat) (lanes : Nat) (edid : List (Nat × List Byte))
  /-- DP_TRAINING_DONE (R306): Training succeeds and allocates the streams, or fails every fallback step with 0xB003. -/
  | dpTrainingDone (t : Stamp) (p : Nat) (good : List (Nat × Nat)) (denied : List Nat)
  /-- IRQ_HPD (R306): An HPD low pulse shorter than 2 ms reports a loss of lock, which retrains, or an MST change, which re-enumerates. -/
  | irqHpd (t : Stamp) (p : Nat) (lost : Bool) (mst : Option Topology)
  /-- HPD_LOW_TIMEOUT (R306): HPD low for 2 ms takes the port to NO_SINK and stops its streams. -/
  | hpdLowTimeout (t : Stamp) (p : Nat)
  /-- DP_RETRY_TIMEOUT (R306): After RETRY ms in WAIT with HPD high, training starts again. -/
  | dpRetryTimeout (t : Stamp) (p : Nat)
  /-- RETRAIN (R310): DPT_CMD RETRAIN trains the link again from the start of the fallback. -/
  | retrain (t : Stamp) (src : Source) (p : Nat)
  /-- SCAN_FRAME_START (R316): A touch scan frame starts on its grid and runs its mutual, self and idle slots. -/
  | scanFrameStart (t : Stamp) (h : Nat)
  /-- SCAN_FRAME_END (R330): At the end of the scan, noise, baselines, blobs and tracking are processed, and the report is sent. -/
  | scanFrameEnd (t : Stamp) (h : Nat) (d : ScanData)
  /-- FREQUENCY_HOP (R320): After HOLD qualifying frames, the channel switches to a quieter frequency with event 0xC003. -/
  | frequencyHop (t : Stamp) (h : Nat)
  /-- NOISE_TIMEOUT (R321): With every frequency above NOISE_MAX for 1 s, event 0xC006 is raised. -/
  | noiseTimeout (t : Stamp) (h : Nat)
  /-- LONG_TOUCH (R329): A touch's duration reaches TCH_LONG.TIME, LONG is set and event 0xC002 is raised. -/
  | longTouch (t : Stamp) (h : Nat) (id : Nat)
  /-- CALIBRATION_DONE (R322): Calibration over 8 frames per frequency ends, setting the baselines; at pitch a self-test follows. -/
  | calibrationDone (t : Stamp) (h : Nat)
  /-- SELFTEST (R334): TCH_CMD SELFTEST starts a self-test. -/
  | selftest (t : Stamp) (src : Source) (h : Nat)
  /-- SELFTEST_DONE (R334): The self-test ends, writes its verdicts and raises 0xC004. -/
  | selftestDone (t : Stamp) (h : Nat)
  /-- RECAL (R325): TCH_CMD RECAL re-calibrates every node over the next frames. -/
  | recal (t : Stamp) (src : Source) (h : Nat)
  /-- DRIVE_RAIL_CHANGE (R332): The drive rail falls below or recovers to DRV_V, and DRVLOW changes with 0xC007. -/
  | driveRailChange (t : Stamp) (h : Nat) (low : Bool)
  /-- TOUCH_REPORT_WRITE (R330): Base firmware writes a touch report into the ring and runs the pointer handler and the touch policy. -/
  | touchReportWrite (t : Stamp)
  /-- POINTER_HOLD_EXPIRE (R333): After HOLD ms with no touch, the pointer is switched off. -/
  | pointerHoldExpire (t : Stamp) (h : Nat)
  /-- BOL_LINK_CHANGE (R339): A Bolral lane loses block lock, and the link retrains, or trains, with 0x1101. -/
  | bolLinkChange (t : Stamp) (lock : Nat)
  /-- FLIT_RECEIVE (R341): A received flit is checked, and is delivered or discarded with a NAK. -/
  | flitReceive (t : Stamp) (flit : List Byte)
  /-- NAK_RECEIVE (R341): A NAK replays the held flits, or retrains the link with 0x1102. -/
  | nakReceive (t : Stamp) (counter : Nat)
  /-- TICK (R346): At every 100 µs tick, a HEARTBEAT is sent, the pair state is evaluated and a new claim takes effect. -/
  | tick (t : Stamp)
  /-- SPLIT_TIMEOUT (R346): In SOLO with the twin seen for TWN_NET.SPLIT ms, SPLIT is set and event 0x1002 is raised. -/
  | splitTimeout (t : Stamp)
  /-- HEARTBEAT_RECEIVE (R344): A twin HEARTBEAT refreshes the twin's presence and its claims. -/
  | heartbeatReceive (t : Stamp) (msg : List Byte)
  /-- NOTICE_RECEIVE (R353): A twin NOTICE completes the verdicts and sets E, C and K, or arrives late with 0x1007. -/
  | noticeReceive (t : Stamp) (msg : List Byte)
  /-- NOTICE_LOSTWAIT_EXPIRE (R352): LOSTWAIT after a twin's HOLD, the part establishes LOST and sends its NOTICE. -/
  | noticeLostwaitExpire (t : Stamp) (n : Nat) (key : Nat)
  /-- FRAME_ELIGIBLE (R353): At its agreed E, a frame of an agreed slot becomes eligible. -/
  | frameEligible (t : Stamp) (n : Nat) (i : Nat)
  /-- MIRROR_RECEIVE (R355): A MIRROR of a point frame is received for application at P. -/
  | mirrorReceive (t : Stamp) (msg : List Byte) (bad : List Nat)
  /-- MIRROR_APPLY (R355): At P = A_first + M, the point frame is applied on both twins. -/
  | mirrorApply (t : Stamp) (bad : List Nat)
  /-- RECORD_RECEIVE (R356): Resync records replace older records, and after both DONE flags event 0x100A is raised. -/
  | recordReceive (t : Stamp) (msg : List Byte)
  /-- SIGX_RECEIVE (R357): The twin's signatures are compared; SIGDIFF is counted and 0x1009 or 0x8003 raised. -/
  | sigxReceive (t : Stamp) (msg : List Byte)
  /-- SEQ_RECEIVE (R361): A twin's SEQ fixes or checks a stream's first sequence number, with 0x100B on disagreement. -/
  | seqReceive (t : Stamp) (msg : List Byte)
  /-- TIME_EXCHANGE_START (R360): At every whole millisecond, a TIME request is sent to the twin. -/
  | timeExchangeStart (t : Stamp) (depart : Stamp)
  /-- TIME_REQUEST_RECEIVE (R360): A TIME request is answered at once with a TIME reply. -/
  | timeRequestReceive (t : Stamp) (msg : List Byte) (depart : Stamp)
  /-- TIME_REPLY_RECEIVE (R360): A reply yields rt and φ, and is accepted as a BOLRAL sample or discarded. -/
  | timeReplyReceive (t : Stamp) (msg : List Byte)
  /-- YIELD (R350): TWN_CMD YIELD sets YIELD in the HEARTBEATs until the part's claim is exceeded. -/
  | yield (t : Stamp) (src : Source)
  /-- MEMORY_REQUEST (R386): A request entering the fabric is tagged by its regulator, checked by its protection unit and queued or held. -/
  | memoryRequest (t : Stamp) (a : Access)
  /-- MEMORY_READ_COMPLETE (R378): A read returns with ECC correction and write-back, or with an uncorrectable flag and 0xD002. -/
  | memoryReadComplete (t : Stamp) (n : Nat) (ecc : Nat)
  /-- REFRESH_DUE (R375): A per-bank refresh falls due, and may be postponed by up to 8 intervals. -/
  | refreshDue (t : Stamp) (n : Nat) (bank : Nat)
  /-- MR4_POLL (R375): Every 32 ms, MR4 is read and the refresh rate is adjusted with 0xD005. -/
  | mr4Poll (t : Stamp) (n : Nat) (code : Nat)
  /-- SCRUB_READ (R380): A scrub reads a data burst, and an overrun pass raises 0xD008. -/
  | scrubRead (t : Stamp) (n : Nat) (ofs : Nat) (ecc : Nat)
  /-- HOLD_TIMEOUT (R388): A hold of ranks 6 to 8 lasting more than 1 ms raises event 0xD004. -/
  | holdTimeout (t : Stamp)
  /-- BUDGET_OVERRUN (R386): A group out of budget in 1,000 consecutive ms raises 0xD003. -/
  | budgetOverrun (t : Stamp) (g : Nat)
  /-- OSC_TRACK_READ (R383): Every MS ms, the DQ oscillators are read and TRACK is adjusted, with 0xD006 at its bound. -/
  | oscTrackRead (t : Stamp) (n : Nat) (want : Int)
  /-- TRAINING_RUN (R382): DMC_TRN_CTL RUN starts the training helper. -/
  | trainingRun (t : Stamp) (src : Source) (n : Nat)
  /-- TRAINING_STOP (R382): DMC_TRN_CTL STOP ends the run and writes its result. -/
  | trainingStop (t : Stamp) (src : Source) (n : Nat) (errors : List Nat)
  /-- TRAINING_RUN_DONE (R382): A helper run finishes its COUNT bursts and writes its result. -/
  | trainingRunDone (t : Stamp) (n : Nat) (errors : List Nat)
  /-- TRIM_WRITE_APPLY (R384): A trim write takes effect once the channel has drained its issued transactions. -/
  | trimWriteApply (t : Stamp) (n : Nat)
  /-- APPLY (R406): PRU_CMD APPLY makes a unit's shadow rules current and advances its epoch. -/
  | apply (t : Stamp) (src : Source) (u : Nat)
  /-- APPLY_TAGS (R409): PRU_GCMD APPLY_TAGS makes the tag shadow current and starts the copy. -/
  | applyTags (t : Stamp) (src : Source)
  /-- ACCESS_DRAIN_COMPLETE (R407): The last access checked before an apply point completes, and DRAINED or TDRAINED becomes 1. -/
  | accessDrainComplete (t : Stamp) (u : Option Nat)
  /-- TAG_COPY_DONE (R409): The copy of the current tag table into the shadow ends, COPY clears and held writes land. -/
  | tagCopyDone (t : Stamp)
  /-- RECALL (R437): PIT_CMD RECALL writes a layout into the shadows and submits its commit pegs. -/
  | recallLayout (t : Stamp) (src : Source) (n : Nat)
  /-- PRESET (R437): PIT_CMD PRESET submits a preset's writes as immediate pegs. -/
  | preset (t : Stamp) (src : Source) (n : Nat)
  /-- POLICY_ACTION (R439): Base firmware performs the policy actions that match an event, after any hold ends. -/
  | policyAction (t : Stamp)
  /-- EVENT_RECORD_WRITE (R448): The watch cores write a queued event record into the ring, update ALERT_N and send syslog. -/
  | eventRecordWrite (t : Stamp)
  /-- RATE_LIMIT_WINDOW_END (R514): At the end of a rate-limit second with counted occurrences, the event is raised carrying their count. -/
  | rateLimitWindowEnd (t : Stamp) (code : Nat) (unit : Nat)
  /-- MGT_READ (R444): An authenticated management READ returns the register values in an authenticated response. -/
  | mgtRead (t : Stamp) (msg : List Byte) (saddr : Nat) (sport : Nat)
  /-- MGT_WRITE (R444): An authenticated management WRITE writes registers and reports the status of each item. -/
  | mgtWrite (t : Stamp) (msg : List Byte) (saddr : Nat) (sport : Nat)
  /-- MGT_RECALL (R444): A management RECALL acts as PIT_CMD RECALL. -/
  | mgtRecall (t : Stamp) (msg : List Byte) (saddr : Nat) (sport : Nat)
  /-- MGT_PRESET (R444): A management PRESET acts as PIT_CMD PRESET. -/
  | mgtPreset (t : Stamp) (msg : List Byte) (saddr : Nat) (sport : Nat)
  /-- SMB_BLOCK_WRITE (R445): SMBus command 0x01 writes a register. -/
  | smbBlockWrite (t : Stamp) (adr : Nat) (ofs : Nat) (data : Word) (pec : Bool)
  /-- SMB_SET_POINTER (R445): SMBus command 0x02 sets the read pointer. -/
  | smbSetPointer (t : Stamp) (adr : Nat) (ofs : Nat) (pec : Bool)
  /-- SMB_BLOCK_READ (R445): An SMBus block read returns a value and a status. -/
  | smbBlockRead (t : Stamp) (adr : Nat) (pec : Bool)
  /-- WATCHDOG_SIGNAL (R453): A hart signals the watchdog. -/
  | watchdogSignal (t : Stamp) (hart : Nat)
  /-- WATCHDOG_EXPIRE (R453): A hart silent for a whole period raises event 0x0103. -/
  | watchdogExpire (t : Stamp) (hart : Nat)
  /-- HEALTH_CHECK (R454): Every second after seal, the watch cores check the register CRCs and the supply and temperature limits. -/
  | healthCheck (t : Stamp) (limits : List (Nat × Int × Int))
  /-- MONITOR_REFRESH (R459): Every 100 ms, AGE_MON is refreshed. -/
  | monitorRefresh (t : Stamp) (slacks : List Nat) (temps : List Int) (rails : List (Nat × Nat))
  /-- RO_MEASURE (R460): Each second, the ring-oscillator pairs are measured, with 0x0407 above DLIM. -/
  | roMeasure (t : Stamp) (counts : List (Nat × Nat))
  /-- AVS_STEP (R461): Every 10 µs, the voltage loop reads the slack and steps VSET. -/
  | avsStep (t : Stamp) (slack : Nat)
  /-- AVS_FLOOR_TIMEOUT (R462): At 850 mV with the slack below FLOOR for 1 s, event 0x0406 is raised. -/
  | avsFloorTimeout (t : Stamp)
  /-- DRAM_MARGIN_SWEEP (R463): Base firmware sweeps a channel's eyes with the training helpers. -/
  | dramMarginSweep (t : Stamp) (n : Nat) (rd : List (List Nat)) (wr : List (List Nat)) (rv : List (List Nat)) (wv : List (List Nat))
  /-- EYE_MEASURE (R465): Once a minute, and at neighbour settings before a plan, the SerDes eyes are measured. -/
  | eyeMeasure (t : Stamp) (l : Nat) (height : Nat) (width : Nat) (near : Option (Nat × Nat))
  /-- PLAN (R467): The daily planner computes ballast, forecasts and proposals, submits changes and announces them. -/
  | plan (t : Stamp)
  /-- REMEASURE_DONE (R474): After a change, the re-measurement ends with 0x0402, and the change may be reversed. -/
  | remeasureDone (t : Stamp) (id : Nat) (margin : Int)
  /-- FLY_SHEET_PANIC (R387): When a head's evaluation, including its field reads, has not finished FLY_US µs after frame start, the fly-sheet panic is raised and all its requests become urgent. -/
  | flySheetPanic (t : Stamp) (h : Nat)
  /-- CAPTURE_LINE_RECEIVE (R224): An active line arrives on a capture port and is written from its four-line buffer, raising or clearing the capture panic as the fill crosses CAP_PCT. -/
  | captureLineReceive (t : Stamp) (q : Nat) (px : List (Nat × Nat × Nat)) (fill : Nat)
  deriving DecidableEq, Repr

end Sys2Proof
end

