-- ==== Sys2Proof/Machine/Maps.lean ====
section
/-! DEFINITION. Sparse maps from numbers to values, as sorted lists of (key, value) pairs with a default for every key
that is not listed. A list is in canonical form when its keys rise strictly and no listed value is its key's default, so
that equal maps are equal lists. The register file, both memories and the per-unit records of the state are such maps. -/

namespace Sys2Proof.Machine

/-- The value at key `k`: the first listed one, else the default `d k`. -/
def mapGet {α : Type} (d : Nat → α) : List (Nat × α) → Nat → α
  | [], k => d k
  | (a, v) :: rest, k => if k = a then v else mapGet d rest k

/-- The entry (k, v) before the first entry with a larger key. -/
def mapInsert {α : Type} (k : Nat) (v : α) : List (Nat × α) → List (Nat × α)
  | [] => [(k, v)]
  | (a, w) :: rest => if k < a then (k, v) :: (a, w) :: rest else (a, w) :: mapInsert k v rest

/-- `m` without key `k`. -/
def mapDrop {α : Type} (m : List (Nat × α)) (k : Nat) : List (Nat × α) := m.filter (fun e => e.1 != k)

/-- `m` with `v` at key `k`. Writing the default removes the entry. -/
def mapPut {α : Type} [DecidableEq α] (d : Nat → α) (m : List (Nat × α)) (k : Nat) (v : α) : List (Nat × α) :=
  if v = d k then mapDrop m k else mapInsert k v (mapDrop m k)

/-- `m` with `f` applied to the value at key `k`. -/
def mapMod {α : Type} [DecidableEq α] (d : Nat → α) (m : List (Nat × α)) (k : Nat) (f : α → α) : List (Nat × α) :=
  mapPut d m k (f (mapGet d m k))

/-- The canonical form above a bound: every key is at least `lo`, keys rise strictly, no value is its key's default. -/
def mapRises {α : Type} [DecidableEq α] (d : Nat → α) : Nat → List (Nat × α) → Bool
  | _, [] => true
  | lo, (a, v) :: rest => decide (lo ≤ a) && decide (v ≠ d a) && mapRises d (a + 1) rest

/-- The canonical form of a map. -/
abbrev mapWf {α : Type} [DecidableEq α] (d : Nat → α) (m : List (Nat × α)) : Prop := mapRises d 0 m = true

/-- The entries whose key satisfies `p` return to their default. -/
def mapErase {α : Type} (m : List (Nat × α)) (p : Nat → Bool) : List (Nat × α) := m.filter (fun e => !p e.1)

/-- Bytes at `a`, `a + 1`, … take the bytes of the list. -/
def memWrite (d : Nat → Byte) (m : List (Nat × Byte)) (a : Nat) : List Byte → List (Nat × Byte)
  | [] => m
  | b :: rest => memWrite d (mapPut d m a b) (a + 1) rest

/-- The `n` bytes from `a` on. -/
def memRead (d : Nat → Byte) (m : List (Nat × Byte)) (a n : Nat) : List Byte :=
  (List.range n).map (fun i => mapGet d m (a + i))

/-- A number as `n` little-endian bytes. -/
def leBytes : Nat → Nat → List Byte
  | 0, _ => []
  | n + 1, v => BitVec.ofNat 8 v :: leBytes n (v / 256)

/-- The number that little-endian bytes spell. -/
def leNat : List Byte → Nat
  | [] => 0
  | b :: rest => b.toNat + 256 * leNat rest

/-- A number as `n` bytes, most significant first. -/
def beBytes (n v : Nat) : List Byte := (leBytes n v).reverse

/-- Bytes padded with zeros to a length. -/
def padTo (n : Nat) (l : List Byte) : List Byte := (l ++ List.replicate n 0).take n

/-- A list cut into pieces of `n`; a rest shorter than `n` is left out. -/
def pieces {α : Type} (n : Nat) (l : List α) : List (List α) :=
  (List.range (l.length / n)).map (fun i => (l.drop (i * n)).take n)

end Sys2Proof.Machine
end

