-- ==== Sys2Proof/Machine/RegAddr.lean ====
section
/-! DEFINITION. The register map: the address of every register of R503 and R504's `TBW_SEL`, block by block, as the
chapters' register tables place them. One function of the instance numbers for each register. -/

namespace Sys2Proof.Machine.R

/-! ### SYS at 0x40000000 -/
/-- `SYS_ID` (R21). -/
def sysId : Nat := 0x40000000
/-- `SYS_ROLE` (R21). -/
def sysRole : Nat := 0x40000004
/-- `SYS_D2D_ERR` (R25). -/
def sysD2dErr : Nat := 0x40000040
/-- `SYS_D2D_STAT` (R25). -/
def sysD2dStat : Nat := 0x40000044
/-! ### PIT at 0x40010000 -/
/-- `PIT_STAT` (R455). -/
def pitStat : Nat := 0x40010000
/-- `PIT_SNAP` (R455). -/
def pitSnap : Nat := 0x4001000C
/-- `PIT_TIMES[8]` (R455). -/
def pitTimes (i : Nat) : Nat := 0x40010010 + i * 0x4
/-- `PIT_SWR` (R455). -/
def pitSwr : Nat := 0x40010040
/-- `PIT_SWR_COUNT` (R455). -/
def pitSwrCount : Nat := 0x40010044
/-- `PIT_REF` (R455). -/
def pitRef : Nat := 0x40010050
/-- `PIT_REF_ADDR` (R455). -/
def pitRefAddr : Nat := 0x40010054
/-- `PIT_REF_DATA` (R455). -/
def pitRefData : Nat := 0x40010058
/-- `PIT_REF_STAMP_LO` (R455). -/
def pitRefStampLo : Nat := 0x4001005C
/-- `PIT_REF_STAMP_HI` (R455). -/
def pitRefStampHi : Nat := 0x40010060
/-- `PIT_CMD` (R455). -/
def pitCmd : Nat := 0x40010070
/-- `PIT_T_LO` (R455). -/
def pitTLo : Nat := 0x40010074
/-- `PIT_T_HI` (R455). -/
def pitTHi : Nat := 0x40010078
/-- `PIT_RES` (R455). -/
def pitRes : Nat := 0x40010080
/-- `PIT_RES_GROUP` (R455). -/
def pitResGroup : Nat := 0x40010084
/-- `PIT_REFCNT[1024]` (R455). -/
def pitRefcnt (i : Nat) : Nat := 0x40011000 + i * 0x4
/-! ### MGT at 0x40020000 -/
/-- `MGT_CTL` (R457). -/
def mgtCtl : Nat := 0x40020000
/-- `MGT_IF_MAC_LO` (R457). -/
def mgtIfMacLo : Nat := 0x40020020
/-- `MGT_IF_MAC_HI` (R457). -/
def mgtIfMacHi : Nat := 0x40020024
/-- `MGT_IF_IPV4` (R457). -/
def mgtIfIpv4 : Nat := 0x40020028
/-- `MGT_IF_PREFIX` (R457). -/
def mgtIfPrefix : Nat := 0x4002002C
/-- `MGT_IF_IPV6[4]` (R457). -/
def mgtIfIpv6 (i : Nat) : Nat := 0x40020030 + i * 0x4
/-- `MGT_KEYS` (R457). -/
def mgtKeys : Nat := 0x40020040
/-- `MGT_SMB` (R457). -/
def mgtSmb : Nat := 0x40020044
/-- `MGT_CNT[7]` (R457). -/
def mgtCnt (i : Nat) : Nat := 0x40020100 + i * 0x4
/-! ### EVJ at 0x40030000 -/
/-- `EVJ_RING_LO` (R456). -/
def evjRingLo : Nat := 0x40030000
/-- `EVJ_RING_HI` (R456). -/
def evjRingHi : Nat := 0x40030004
/-- `EVJ_SIZE` (R456). -/
def evjSize : Nat := 0x40030008
/-- `EVJ_NEXT` (R456). -/
def evjNext : Nat := 0x40030010
/-- `EVJ_ALERT` (R456). -/
def evjAlert : Nat := 0x40030014
/-- `EVJ_ACK` (R456). -/
def evjAck : Nat := 0x40030018
/-- `EVJ_STAT` (R456). -/
def evjStat : Nat := 0x4003001C
/-- `EVJ_SYSLOG[2]` (R456). -/
def evjSyslog (i : Nat) : Nat := 0x40030040 + i * 0x20
/-- `EVJ_SYSLOG_ADDR[2][4]` (R456). -/
def evjSyslogAddr (i j : Nat) : Nat := 0x40030050 + i * 0x20 + j * 0x4
/-- `EVJ_SYSCFG` (R456). -/
def evjSyscfg : Nat := 0x40030080
/-- `EVJ_SYSCFG_PEN` (R456). -/
def evjSyscfgPen : Nat := 0x40030084
/-- `EVJ_CNT[4]` (R456). -/
def evjCnt (i : Nat) : Nat := 0x40030100 + i * 0x4
/-! ### AGE at 0x40040000 -/
/-- `AGE_CTL` (R477). -/
def ageCtl : Nat := 0x40040000
/-- `AGE_SNAP` (R477). -/
def ageSnap : Nat := 0x40040004
/-- `AGE_ANN` (R477). -/
def ageAnn : Nat := 0x40040008
/-- `AGE_AVS` (R477). -/
def ageAvs : Nat := 0x40040010
/-- `AGE_AVS_TGT` (R477). -/
def ageAvsTgt : Nat := 0x40040014
/-- `AGE_AVS_STAT` (R477). -/
def ageAvsStat : Nat := 0x40040018
/-- `AGE_RESV` (R477). -/
def ageResv : Nat := 0x40040020
/-- `AGE_FLOOR` (R477). -/
def ageFloor : Nat := 0x40040024
/-- `AGE_FCST` (R477). -/
def ageFcst : Nat := 0x40040028
/-- `AGE_ROLIM` (R477). -/
def ageRolim : Nat := 0x4004002C
/-- `AGE_RES` (R477). -/
def ageRes : Nat := 0x40040040
/-- `AGE_RES_DOM[3]` (R477). -/
def ageResDom (i : Nat) : Nat := 0x40040044 + i * 0x4
/-- `AGE_RES_PLAN_LO` (R477). -/
def ageResPlanLo : Nat := 0x40040050
/-- `AGE_RES_PLAN_HI` (R477). -/
def ageResPlanHi : Nat := 0x40040054
/-- `AGE_RES_DMAX` (R477). -/
def ageResDmax : Nat := 0x40040058
/-- `AGE_WIN[4]` (R477). -/
def ageWin (i : Nat) : Nat := 0x40040080 + i * 0x8
/-- `AGE_WIN_START[4]` (R477). -/
def ageWinStart (i : Nat) : Nat := 0x40040084 + i * 0x8
/-- `AGE_EQ[12]` (R477). -/
def ageEq (i : Nat) : Nat := 0x40040100 + i * 0x4
/-- `AGE_EYE[12]` (R477). -/
def ageEye (i : Nat) : Nat := 0x40040140 + i * 0x4
/-- `AGE_CNT[5]` (R477). -/
def ageCnt (i : Nat) : Nat := 0x40040200 + i * 0x4
/-- `AGE_MON[96]` (R477). -/
def ageMon (i : Nat) : Nat := 0x40041000 + i * 0x4
/-- `AGE_ROREF[44]` (R477). -/
def ageRoref (i : Nat) : Nat := 0x40041200 + i * 0x4
/-! ### MUI at 0x40080000 -/
/-- `MUI_STAT` (R104). -/
def muiStat : Nat := 0x40080000
/-- `MUI_SNAP` (R90). -/
def muiSnap : Nat := 0x40080004
/-- `MUI_NOW_SEC_LO` (R90). -/
def muiNowSecLo : Nat := 0x40080010
/-- `MUI_NOW_SEC_HI` (R90). -/
def muiNowSecHi : Nat := 0x40080014
/-- `MUI_NOW_NS` (R90). -/
def muiNowNs : Nat := 0x40080018
/-- `MUI_NOW_SHORT_LO` (R90). -/
def muiNowShortLo : Nat := 0x4008001C
/-- `MUI_NOW_SHORT_HI` (R90). -/
def muiNowShortHi : Nat := 0x40080020
/-- `MUI_MEAS` (R105). -/
def muiMeas : Nat := 0x40080030
/-- `MUI_MEAS_PHASE` (R105). -/
def muiMeasPhase : Nat := 0x40080034
/-- `MUI_MEAS_FREQ` (R105). -/
def muiMeasFreq : Nat := 0x40080038
/-- `MUI_MEAS_TE` (R105). -/
def muiMeasTe : Nat := 0x4008003C
/-- `MUI_ACQ` (R107). -/
def muiAcq : Nat := 0x40080040
/-- `MUI_LOCK` (R108). -/
def muiLock : Nat := 0x40080044
/-- `MUI_SLOPE` (R108). -/
def muiSlope : Nat := 0x40080048
/-- `MUI_TRACK` (R108). -/
def muiTrack : Nat := 0x4008004C
/-- `MUI_HOLD` (R111). -/
def muiHold : Nat := 0x40080050
/-- `MUI_HOLD2` (R111). -/
def muiHold2 : Nat := 0x40080054
/-- `MUI_FREE` (R111). -/
def muiFree : Nat := 0x40080058
/-- `MUI_BW[8]` (R108). -/
def muiBw (i : Nat) : Nat := 0x40080080 + i * 0x4
/-- `MUI_UTC` (R88). -/
def muiUtc : Nat := 0x400800A0
/-! ### REF at 0x40090000 -/
/-- `REF_PRIO[8]` (R100). -/
def refPrio (i : Nat) : Nat := 0x40090000 + i * 0x4
/-- `REF_STAT[8]` (R98). -/
def refStat (i : Nat) : Nat := 0x40090040 + i * 0x4
/-- `REF_DLY[3]` (R92). -/
def refDly (i : Nat) : Nat := 0x4009006C + i * 0x4
/-- `REF_QUAL_FREQ` (R97). -/
def refQualFreq : Nat := 0x40090080
/-- `REF_QUAL_PHASE` (R97). -/
def refQualPhase : Nat := 0x40090084
/-- `REF_CMD` (R102). -/
def refCmd : Nat := 0x400900C0
/-- `REF_MEAS` (R99). -/
def refMeas : Nat := 0x40090100
/-- `REF_MEAS_PHI[8]` (R99). -/
def refMeasPhi (i : Nat) : Nat := 0x40090104 + i * 0x4
/-- `REF_PTP[2]` (R96). -/
def refPtp (i : Nat) : Nat := 0x40090200 + i * 0x10
/-- `REF_PTP_ASYM[2]` (R96). -/
def refPtpAsym (i : Nat) : Nat := 0x40090204 + i * 0x10
/-- `REF_PTP_WIN[2]` (R96). -/
def refPtpWin (i : Nat) : Nat := 0x40090208 + i * 0x10
/-- `REF_GNSS` (R97). -/
def refGnss : Nat := 0x40090240
/-- `REF_SFREQ` (R97). -/
def refSfreq : Nat := 0x40090244
/-! ### PEG at 0x400A0000 -/
/-- `PEG_CTL` (R132). -/
def pegCtl : Nat := 0x400A0000
/-- `PEG_SNAP` (R132). -/
def pegSnap : Nat := 0x400A0004
/-- `PEG_STAT` (R132). -/
def pegStat : Nat := 0x400A0008
/-- `PEG_REFUSE` (R132). -/
def pegRefuse : Nat := 0x400A000C
/-- `PEG_CNT[4]` (R132). -/
def pegCnt (i : Nat) : Nat := 0x400A0010 + i * 0x4
/-- `PEG_Q[96]` (R132). -/
def pegQ (i : Nat) : Nat := 0x400A0100 + i * 0x4
/-- `PEG_STG_CMD[3]` (R127). -/
def pegStgCmd (i : Nat) : Nat := 0x400B0000 + i * 0x10000
/-- `PEG_STG_COUNT[3]` (R127). -/
def pegStgCount (i : Nat) : Nat := 0x400B0004 + i * 0x10000
/-- `PEG_STG_RES[3]` (R129). -/
def pegStgRes (i : Nat) : Nat := 0x400B0010 + i * 0x10000
/-- `PEG_STG_RES1[3]` (R129). -/
def pegStgRes1 (i : Nat) : Nat := 0x400B0014 + i * 0x10000
/-- `PEG_STG_RES_AT_LO[3]` (R129). -/
def pegStgResAtLo (i : Nat) : Nat := 0x400B0018 + i * 0x10000
/-- `PEG_STG_RES_AT_HI[3]` (R129). -/
def pegStgResAtHi (i : Nat) : Nat := 0x400B001C + i * 0x10000
/-- `PEG_BUF_W0[3][64]` (R122). -/
def pegBufW0 (i j : Nat) : Nat := 0x400B1000 + i * 0x10000 + j * 0x118
/-- `PEG_BUF_W1[3][64]` (R122). -/
def pegBufW1 (i j : Nat) : Nat := 0x400B1004 + i * 0x10000 + j * 0x118
/-- `PEG_BUF_W2[3][64]` (R122). -/
def pegBufW2 (i j : Nat) : Nat := 0x400B1008 + i * 0x10000 + j * 0x118
/-- `PEG_BUF_W3[3][64]` (R122). -/
def pegBufW3 (i j : Nat) : Nat := 0x400B100C + i * 0x10000 + j * 0x118
/-- `PEG_BUF_W4[3][64]` (R122). -/
def pegBufW4 (i j : Nat) : Nat := 0x400B1010 + i * 0x10000 + j * 0x118
/-- `PEG_BUF_ADDR[3][64][32]` (R122). -/
def pegBufAddr (i j k : Nat) : Nat := 0x400B1018 + i * 0x10000 + j * 0x118 + k * 0x8
/-- `PEG_BUF_DATA[3][64][32]` (R122). -/
def pegBufData (i j k : Nat) : Nat := 0x400B101C + i * 0x10000 + j * 0x118 + k * 0x8
/-! ### TWN at 0x40100000 -/
/-- `TWN_CFG` (R363). -/
def twnCfg : Nat := 0x40100000
/-- `TWN_TIMING` (R363). -/
def twnTiming : Nat := 0x40100004
/-- `TWN_NET` (R363). -/
def twnNet : Nat := 0x40100008
/-- `TWN_WATCH[4]` (R363). -/
def twnWatch (i : Nat) : Nat := 0x40100010 + i * 0x4
/-- `TWN_AGREE[8]` (R363). -/
def twnAgree (i : Nat) : Nat := 0x40100020 + i * 0x4
/-- `TWN_CMD` (R363). -/
def twnCmd : Nat := 0x40100040
/-- `TWN_STAT` (R363). -/
def twnStat : Nat := 0x40100044
/-- `TWN_CLAIM_OWN` (R363). -/
def twnClaimOwn : Nat := 0x40100048
/-- `TWN_CLAIM_TWIN` (R363). -/
def twnClaimTwin : Nat := 0x4010004C
/-- `TWN_CLAIM_HIGH` (R363). -/
def twnClaimHigh : Nat := 0x40100050
/-- `TWN_SNAP` (R363). -/
def twnSnap : Nat := 0x4010005C
/-- `TWN_RES` (R363). -/
def twnRes : Nat := 0x40100060
/-- `TWN_RES_SOLO_LO` (R363). -/
def twnResSoloLo : Nat := 0x40100064
/-- `TWN_RES_SOLO_HI` (R363). -/
def twnResSoloHi : Nat := 0x40100068
/-- `TWN_RES_CLAIM_LO` (R363). -/
def twnResClaimLo : Nat := 0x4010006C
/-- `TWN_RES_CLAIM_HI` (R363). -/
def twnResClaimHi : Nat := 0x40100070
/-- `TWN_CNT[9]` (R363). -/
def twnCnt (i : Nat) : Nat := 0x40100080 + i * 0x4
/-! ### BOL at 0x40110000 -/
/-- `BOL_CTL` (R364). -/
def bolCtl : Nat := 0x40110000
/-- `BOL_STAT` (R364). -/
def bolStat : Nat := 0x40110004
/-- `BOL_CAL` (R364). -/
def bolCal : Nat := 0x40110008
/-- `BOL_SNAP` (R364). -/
def bolSnap : Nat := 0x4011000C
/-- `BOL_RES` (R364). -/
def bolRes : Nat := 0x40110010
/-- `BOL_RES_RT` (R364). -/
def bolResRt : Nat := 0x40110014
/-- `BOL_CNT[7]` (R364). -/
def bolCnt (i : Nat) : Nat := 0x40110020 + i * 0x4
/-! ### NET at 0x40200000 -/
/-- `NET_PORT[2]` (R141). -/
def netPort (i : Nat) : Nat := 0x40200000 + i * 0x1000
/-- `NET_LINK[2]` (R141). -/
def netLink (i : Nat) : Nat := 0x40200004 + i * 0x1000
/-- `NET_IF_MAC_LO[2][4]` (R141). -/
def netIfMacLo (i j : Nat) : Nat := 0x40200100 + i * 0x1000 + j * 0x20
/-- `NET_IF_MAC_HI[2][4]` (R141). -/
def netIfMacHi (i j : Nat) : Nat := 0x40200104 + i * 0x1000 + j * 0x20
/-- `NET_IF_IPV4[2][4]` (R141). -/
def netIfIpv4 (i j : Nat) : Nat := 0x40200108 + i * 0x1000 + j * 0x20
/-- `NET_IF_PREFIX[2][4]` (R141). -/
def netIfPrefix (i j : Nat) : Nat := 0x4020010C + i * 0x1000 + j * 0x20
/-- `NET_IF_IPV6[2][4][4]` (R141). -/
def netIfIpv6 (i j k : Nat) : Nat := 0x40200110 + i * 0x1000 + j * 0x20 + k * 0x4
/-- `NET_CNT[2][4][4]` (R141). -/
def netCnt (i j k : Nat) : Nat := 0x40200400 + i * 0x1000 + j * 0x10 + k * 0x4
/-- `NET_FLOW[1024]` (R143). -/
def netFlow (i : Nat) : Nat := 0x40210000 + i * 0x40
/-- `NET_FLOW_VID[1024]` (R143). -/
def netFlowVid (i : Nat) : Nat := 0x40210004 + i * 0x40
/-- `NET_FLOW_DADDR[1024][4]` (R143). -/
def netFlowDaddr (i j : Nat) : Nat := 0x40210010 + i * 0x40 + j * 0x4
/-- `NET_FLOW_SADDR[1024][4]` (R143). -/
def netFlowSaddr (i j : Nat) : Nat := 0x40210020 + i * 0x40 + j * 0x4
/-- `NET_TX[32]` (R164). -/
def netTx (i : Nat) : Nat := 0x40220000 + i * 0x40
/-- `NET_TX_SSRC[32]` (R164). -/
def netTxSsrc (i : Nat) : Nat := 0x40220004 + i * 0x40
/-- `NET_TX_SEQ[32]` (R164). -/
def netTxSeq (i : Nat) : Nat := 0x40220008 + i * 0x40
/-- `NET_TX_DELAY[32]` (R164). -/
def netTxDelay (i : Nat) : Nat := 0x4022000C + i * 0x40
/-- `NET_TX_SPACING[32]` (R164). -/
def netTxSpacing (i : Nat) : Nat := 0x40220010 + i * 0x40
/-- `NET_TX_LEG[32][2]` (R164). -/
def netTxLeg (i j : Nat) : Nat := 0x40220014 + i * 0x40 + j * 0x4
/-- `NET_TX_DADDR[32][2][4]` (R164). -/
def netTxDaddr (i j k : Nat) : Nat := 0x40220020 + i * 0x40 + j * 0x10 + k * 0x4
/-- `NET_CLAIM` (R162). -/
def netClaim : Nat := 0x40230000
/-- `NET_HOLD` (R162). -/
def netHold : Nat := 0x40230004
/-! ### SRC at 0x40300000 -/
/-- `SRC_CFG[256]` (R162). -/
def srcCfg (i : Nat) : Nat := 0x40300000 + i * 0x100
/-- `SRC_RATE[256]` (R162). -/
def srcRate (i : Nat) : Nat := 0x40300004 + i * 0x100
/-- `SRC_GEOM[256]` (R162). -/
def srcGeom (i : Nat) : Nat := 0x40300008 + i * 0x100
/-- `SRC_POOL_LO[256]` (R162). -/
def srcPoolLo (i : Nat) : Nat := 0x40300010 + i * 0x100
/-- `SRC_POOL_HI[256]` (R162). -/
def srcPoolHi (i : Nat) : Nat := 0x40300014 + i * 0x100
/-- `SRC_STRIDE[256]` (R162). -/
def srcStride (i : Nat) : Nat := 0x40300018 + i * 0x100
/-- `SRC_REC_LO[256]` (R162). -/
def srcRecLo (i : Nat) : Nat := 0x4030001C + i * 0x100
/-- `SRC_REC_HI[256]` (R162). -/
def srcRecHi (i : Nat) : Nat := 0x40300020 + i * 0x100
/-- `SRC_NET[256]` (R162). -/
def srcNet (i : Nat) : Nat := 0x40300024 + i * 0x100
/-- `SRC_RTP_OFS[256]` (R162). -/
def srcRtpOfs (i : Nat) : Nat := 0x40300028 + i * 0x100
/-- `SRC_MERGE[256]` (R162). -/
def srcMerge (i : Nat) : Nat := 0x4030002C + i * 0x100
/-- `SRC_BS_LO[256]` (R162). -/
def srcBsLo (i : Nat) : Nat := 0x40300030 + i * 0x100
/-- `SRC_BS_HI[256]` (R162). -/
def srcBsHi (i : Nat) : Nat := 0x40300034 + i * 0x100
/-- `SRC_BS_SIZE[256]` (R162). -/
def srcBsSize (i : Nat) : Nat := 0x40300038 + i * 0x100
/-- `SRC_STAT[256]` (R162). -/
def srcStat (i : Nat) : Nat := 0x40300040 + i * 0x100
/-- `SRC_LEAD[256]` (R162). -/
def srcLead (i : Nat) : Nat := 0x40300044 + i * 0x100
/-- `SRC_TT_POS[256]` (R79). -/
def srcTtPos (i : Nat) : Nat := 0x40300080 + i * 0x100
/-- `SRC_TT_SIZE[256]` (R79). -/
def srcTtSize (i : Nat) : Nat := 0x40300084 + i * 0x100
/-- `SRC_FRESH[256]` (R79). -/
def srcFresh (i : Nat) : Nat := 0x40300088 + i * 0x100
/-- `SRC_LAT[256]` (R79). -/
def srcLat (i : Nat) : Nat := 0x4030008C + i * 0x100
/-- `SRC_CNT[256][8]` (R162). -/
def srcCnt (i j : Nat) : Nat := 0x40300090 + i * 0x100 + j * 0x4
/-- `SRC_SNAP` (R162). -/
def srcSnap : Nat := 0x40310000
/-! ### VDC at 0x40400000 -/
/-- `VDC_POOL_LO` (R197). -/
def vdcPoolLo : Nat := 0x40400000
/-- `VDC_POOL_HI` (R197). -/
def vdcPoolHi : Nat := 0x40400004
/-- `VDC_POOL_CFG` (R197). -/
def vdcPoolCfg : Nat := 0x40400008
/-- `VDC_MARK_LO` (R197). -/
def vdcMarkLo : Nat := 0x4040000C
/-- `VDC_MARK_HI` (R197). -/
def vdcMarkHi : Nat := 0x40400010
/-- `VDC_SNAP` (R197). -/
def vdcSnap : Nat := 0x40400014
/-- `VDC_ENG[8]` (R197). -/
def vdcEng (i : Nat) : Nat := 0x40400100 + i * 0x10
/-- `VDC_ENG_CNT[8][3]` (R197). -/
def vdcEngCnt (i j : Nat) : Nat := 0x40400104 + i * 0x10 + j * 0x4
/-- `VDC_CTX[256]` (R198). -/
def vdcCtx (i : Nat) : Nat := 0x40410000 + i * 0x40
/-- `VDC_CTX_MAX[256]` (R198). -/
def vdcCtxMax (i : Nat) : Nat := 0x40410004 + i * 0x40
/-- `VDC_CTX_REF[256]` (R198). -/
def vdcCtxRef (i : Nat) : Nat := 0x40410008 + i * 0x40
/-- `VDC_CTX_RES[256]` (R198). -/
def vdcCtxRes (i : Nat) : Nat := 0x40410010 + i * 0x40
/-- `VDC_CTX_STAT[256]` (R198). -/
def vdcCtxStat (i : Nat) : Nat := 0x40410014 + i * 0x40
/-- `VDC_CTX_LASTC_LO[256]` (R198). -/
def vdcCtxLastcLo (i : Nat) : Nat := 0x40410018 + i * 0x40
/-- `VDC_CTX_LASTC_HI[256]` (R198). -/
def vdcCtxLastcHi (i : Nat) : Nat := 0x4041001C + i * 0x40
/-- `VDC_CTX_CNT[256][6]` (R198). -/
def vdcCtxCnt (i j : Nat) : Nat := 0x40410020 + i * 0x40 + j * 0x4
/-! ### VEC at 0x40480000 -/
/-- `VEC_SNAP` (R197). -/
def vecSnap : Nat := 0x40480014
/-- `VEC_ENG[4]` (R197). -/
def vecEng (i : Nat) : Nat := 0x40480100 + i * 0x10
/-- `VEC_ENG_CNT[4][3]` (R197). -/
def vecEngCnt (i j : Nat) : Nat := 0x40480104 + i * 0x10 + j * 0x4
/-- `VEC_CTX[32]` (R199). -/
def vecCtx (i : Nat) : Nat := 0x40490000 + i * 0x80
/-- `VEC_CTX_PERIOD[32]` (R199). -/
def vecCtxPeriod (i : Nat) : Nat := 0x40490004 + i * 0x80
/-- `VEC_CTX_INWAIT[32]` (R199). -/
def vecCtxInwait (i : Nat) : Nat := 0x40490008 + i * 0x80
/-- `VEC_CTX_GOP[32]` (R199). -/
def vecCtxGop (i : Nat) : Nat := 0x4049000C + i * 0x80
/-- `VEC_CTX_RC[32]` (R199). -/
def vecCtxRc (i : Nat) : Nat := 0x40490010 + i * 0x80
/-- `VEC_CTX_RATE[32]` (R199). -/
def vecCtxRate (i : Nat) : Nat := 0x40490014 + i * 0x80
/-- `VEC_CTX_VBV[32]` (R199). -/
def vecCtxVbv (i : Nat) : Nat := 0x40490018 + i * 0x80
/-- `VEC_CTX_ME[32]` (R199). -/
def vecCtxMe (i : Nat) : Nat := 0x4049001C + i * 0x80
/-- `VEC_CTX_PEND[32]` (R199). -/
def vecCtxPend (i : Nat) : Nat := 0x40490020 + i * 0x80
/-- `VEC_CTX_PRATE[32]` (R199). -/
def vecCtxPrate (i : Nat) : Nat := 0x40490024 + i * 0x80
/-- `VEC_CTX_GV[32]` (R199). -/
def vecCtxGv (i : Nat) : Nat := 0x40490028 + i * 0x80
/-- `VEC_CTX_APPLY_LO[32]` (R199). -/
def vecCtxApplyLo (i : Nat) : Nat := 0x4049002C + i * 0x80
/-- `VEC_CTX_APPLY_HI[32]` (R199). -/
def vecCtxApplyHi (i : Nat) : Nat := 0x40490030 + i * 0x80
/-- `VEC_CTX_CMD[32]` (R199). -/
def vecCtxCmd (i : Nat) : Nat := 0x40490034 + i * 0x80
/-- `VEC_CTX_REFS[32]` (R199). -/
def vecCtxRefs (i : Nat) : Nat := 0x40490038 + i * 0x80
/-- `VEC_CTX_RES[32]` (R199). -/
def vecCtxRes (i : Nat) : Nat := 0x40490040 + i * 0x80
/-- `VEC_CTX_STAT[32]` (R199). -/
def vecCtxStat (i : Nat) : Nat := 0x40490044 + i * 0x80
/-- `VEC_CTX_BUCKET[32]` (R199). -/
def vecCtxBucket (i : Nat) : Nat := 0x40490048 + i * 0x80
/-- `VEC_CTX_APPLIED[32]` (R199). -/
def vecCtxApplied (i : Nat) : Nat := 0x4049004C + i * 0x80
/-- `VEC_CTX_CNT[32][3]` (R199). -/
def vecCtxCnt (i j : Nat) : Nat := 0x40490060 + i * 0x80 + j * 0x4
/-! ### CAM at 0x40500000 -/
/-- `CAM_CTL[8]` (R221). -/
def camCtl (i : Nat) : Nat := 0x40500000 + i * 0x10000
/-- `CAM_SIZE[8]` (R221). -/
def camSize (i : Nat) : Nat := 0x40500004 + i * 0x10000
/-- `CAM_PROF0[8]` (R221). -/
def camProf0 (i : Nat) : Nat := 0x40500008 + i * 0x10000
/-- `CAM_PROF1[8]` (R221). -/
def camProf1 (i : Nat) : Nat := 0x4050000C + i * 0x10000
/-- `CAM_PROF2[8]` (R221). -/
def camProf2 (i : Nat) : Nat := 0x40500010 + i * 0x10000
/-- `CAM_PROF3[8][3]` (R221). -/
def camProf3 (i j : Nat) : Nat := 0x40500014 + i * 0x10000 + j * 0x4
/-- `CAM_PROF6[8]` (R221). -/
def camProf6 (i : Nat) : Nat := 0x40500020 + i * 0x10000
/-- `CAM_PROF7[8]` (R221). -/
def camProf7 (i : Nat) : Nat := 0x40500024 + i * 0x10000
/-- `CAM_FSYNC[8]` (R221). -/
def camFsync (i : Nat) : Nat := 0x40500028 + i * 0x10000
/-- `CAM_FSYNC_PH[8]` (R221). -/
def camFsyncPh (i : Nat) : Nat := 0x4050002C + i * 0x10000
/-- `CAM_MCLK[8]` (R221). -/
def camMclk (i : Nat) : Nat := 0x40500030 + i * 0x10000
/-- `CAM_BL[8][2]` (R221). -/
def camBl (i j : Nat) : Nat := 0x40500040 + i * 0x10000 + j * 0x4
/-- `CAM_DPC[8]` (R221). -/
def camDpc (i : Nat) : Nat := 0x40500048 + i * 0x10000
/-- `CAM_LSC[8]` (R221). -/
def camLsc (i : Nat) : Nat := 0x4050004C + i * 0x10000
/-- `CAM_DMS[8]` (R221). -/
def camDms (i : Nat) : Nat := 0x40500050 + i * 0x10000
/-- `CAM_CCM[8][9]` (R221). -/
def camCcm (i j : Nat) : Nat := 0x40500060 + i * 0x10000 + j * 0x4
/-- `CAM_OUT[8][3]` (R221). -/
def camOut (i j : Nat) : Nat := 0x40500100 + i * 0x10000 + j * 0x20
/-- `CAM_OUT_ORG[8][3]` (R221). -/
def camOutOrg (i j : Nat) : Nat := 0x40500104 + i * 0x10000 + j * 0x20
/-- `CAM_OUT_CROP[8][3]` (R221). -/
def camOutCrop (i j : Nat) : Nat := 0x40500108 + i * 0x10000 + j * 0x20
/-- `CAM_OUT_SIZE[8][3]` (R221). -/
def camOutSize (i j : Nat) : Nat := 0x4050010C + i * 0x10000 + j * 0x20
/-- `CAM_STAT_LO[8]` (R221). -/
def camStatLo (i : Nat) : Nat := 0x40500180 + i * 0x10000
/-- `CAM_STAT_HI[8]` (R221). -/
def camStatHi (i : Nat) : Nat := 0x40500184 + i * 0x10000
/-- `CAM_STAT_N[8]` (R221). -/
def camStatN (i : Nat) : Nat := 0x40500188 + i * 0x10000
/-- `CAM_STAT_FOC_ORG[8]` (R221). -/
def camStatFocOrg (i : Nat) : Nat := 0x4050018C + i * 0x10000
/-- `CAM_STAT_FOC_SIZE[8]` (R221). -/
def camStatFocSize (i : Nat) : Nat := 0x40500190 + i * 0x10000
/-- `CAM_BND_EXP[8]` (R221). -/
def camBndExp (i : Nat) : Nat := 0x40500200 + i * 0x10000
/-- `CAM_BND_GAIN[8]` (R221). -/
def camBndGain (i : Nat) : Nat := 0x40500204 + i * 0x10000
/-- `CAM_BND_WB[8][2]` (R221). -/
def camBndWb (i j : Nat) : Nat := 0x40500208 + i * 0x10000 + j * 0x4
/-- `CAM_BND_NUM[8]` (R221). -/
def camBndNum (i : Nat) : Nat := 0x40500210 + i * 0x10000
/-- `CAM_RES[8]` (R221). -/
def camRes (i : Nat) : Nat := 0x40500300 + i * 0x10000
/-- `CAM_RES_FRAME[8]` (R221). -/
def camResFrame (i : Nat) : Nat := 0x40500304 + i * 0x10000
/-- `CAM_RES_BUNDLE[8]` (R221). -/
def camResBundle (i : Nat) : Nat := 0x40500308 + i * 0x10000
/-- `CAM_RES_LASTC_LO[8]` (R221). -/
def camResLastcLo (i : Nat) : Nat := 0x4050030C + i * 0x10000
/-- `CAM_RES_LASTC_HI[8]` (R221). -/
def camResLastcHi (i : Nat) : Nat := 0x40500310 + i * 0x10000
/-- `CAM_SNAP[8]` (R221). -/
def camSnap (i : Nat) : Nat := 0x40500314 + i * 0x10000
/-- `CAM_CNT[8][7]` (R221). -/
def camCnt (i j : Nat) : Nat := 0x40500380 + i * 0x10000 + j * 0x4
/-- `CAM_LSC_TAB[8][6144]` (R221). -/
def camLscTab (i j : Nat) : Nat := 0x40502000 + i * 0x10000 + j * 0x4
/-- `CAM_DPC_TAB[8][4096]` (R221). -/
def camDpcTab (i j : Nat) : Nat := 0x40508000 + i * 0x10000 + j * 0x4
/-- `CAM_TONE[8][129]` (R221). -/
def camTone (i j : Nat) : Nat := 0x4050C000 + i * 0x10000 + j * 0x4
/-! ### CAP at 0x40580000 -/
/-- `CAP_PORT[4]` (R227). -/
def capPort (i : Nat) : Nat := 0x40580000 + i * 0x1000
/-- `CAP_STAT[4]` (R227). -/
def capStat (i : Nat) : Nat := 0x40580004 + i * 0x1000
/-- `CAP_MSA[4]` (R227). -/
def capMsa (i : Nat) : Nat := 0x40580008 + i * 0x1000
/-- `CAP_PERIOD[4]` (R227). -/
def capPeriod (i : Nat) : Nat := 0x4058000C + i * 0x1000
/-- `CAP_CNT[4][4]` (R227). -/
def capCnt (i j : Nat) : Nat := 0x40580010 + i * 0x1000 + j * 0x4
/-- `CAP_EDID[4][64]` (R227). -/
def capEdid (i j : Nat) : Nat := 0x40580800 + i * 0x1000 + j * 0x4
/-! ### PNT at 0x40600000 -/
/-- `PNT_CTL` (R253). -/
def pntCtl : Nat := 0x40600000
/-- `PNT_TAB_LO` (R253). -/
def pntTabLo : Nat := 0x40600004
/-- `PNT_TAB_HI` (R253). -/
def pntTabHi : Nat := 0x40600008
/-- `PNT_JRN_LO` (R253). -/
def pntJrnLo : Nat := 0x4060000C
/-- `PNT_JRN_HI` (R253). -/
def pntJrnHi : Nat := 0x40600010
/-- `PNT_JRN_SIZE` (R253). -/
def pntJrnSize : Nat := 0x40600014
/-- `PNT_SWEEP` (R253). -/
def pntSweep : Nat := 0x40600018
/-- `PNT_SNAP` (R253). -/
def pntSnap : Nat := 0x4060001C
/-- `PNT_JCOUNT_LO` (R253). -/
def pntJcountLo : Nat := 0x40600020
/-- `PNT_JCOUNT_HI` (R253). -/
def pntJcountHi : Nat := 0x40600024
/-- `PNT_SWRES` (R253). -/
def pntSwres : Nat := 0x40600030
/-- `PNT_SWRES_ST_LO` (R253). -/
def pntSwresStLo : Nat := 0x40600034
/-- `PNT_SWRES_ST_HI` (R253). -/
def pntSwresStHi : Nat := 0x40600038
/-- `PNT_SWRES_SILENT` (R253). -/
def pntSwresSilent : Nat := 0x4060003C
/-- `PNT_CNT[16]` (R253). -/
def pntCnt (i : Nat) : Nat := 0x40600100 + i * 0x4
/-- `PNT_APPLIED` (R253). -/
def pntApplied : Nat := 0x40600140
/-- `PNT_OFF` (R253). -/
def pntOff : Nat := 0x40600144
/-- `PNT_FEED[256]` (R253). -/
def pntFeed (i : Nat) : Nat := 0x40601000 + i * 0x20
/-- `PNT_FEED_LAT[256]` (R253). -/
def pntFeedLat (i : Nat) : Nat := 0x40601004 + i * 0x20
/-- `PNT_FEED_RESYNC[256]` (R253). -/
def pntFeedResync (i : Nat) : Nat := 0x40601008 + i * 0x20
/-- `PNT_FEED_FIRST[256]` (R253). -/
def pntFeedFirst (i : Nat) : Nat := 0x4060100C + i * 0x20
/-- `PNT_FEED_COUNT[256]` (R253). -/
def pntFeedCount (i : Nat) : Nat := 0x40601010 + i * 0x20
/-- `PNT_FEED_STAT[256]` (R253). -/
def pntFeedStat (i : Nat) : Nat := 0x40601014 + i * 0x20
/-- `PNT_FEED_LASTA_LO[256]` (R253). -/
def pntFeedLastaLo (i : Nat) : Nat := 0x40601018 + i * 0x20
/-- `PNT_FEED_LASTA_HI[256]` (R253). -/
def pntFeedLastaHi (i : Nat) : Nat := 0x4060101C + i * 0x20
/-- `PNT_FCNT[256][4]` (R253). -/
def pntFcnt (i j : Nat) : Nat := 0x40603000 + i * 0x10 + j * 0x4
/-- `PNT_AGECL[64]` (R253). -/
def pntAgecl (i : Nat) : Nat := 0x40604000 + i * 0x4
/-- `PNT_LIMCL[15]` (R253). -/
def pntLimcl (i : Nat) : Nat := 0x40604240 + i * 0x40
/-- `PNT_LIMCL_V[15][8]` (R253). -/
def pntLimclV (i j : Nat) : Nat := 0x40604248 + i * 0x40 + j * 0x4
/-- `PNT_PAL[15]` (R253). -/
def pntPal (i : Nat) : Nat := 0x40604808 + i * 0x8
/-- `PNT_PAL_ALPHA[15]` (R253). -/
def pntPalAlpha (i : Nat) : Nat := 0x4060480C + i * 0x8
/-! ### CHK at 0x40680000 -/
/-- `CHK_CFG[16]` (R254). -/
def chkCfg (i : Nat) : Nat := 0x40680000 + i * 0x100
/-- `CHK_CMD[16]` (R254). -/
def chkCmd (i : Nat) : Nat := 0x40680004 + i * 0x100
/-- `CHK_FEED_B[16]` (R254). -/
def chkFeedB (i : Nat) : Nat := 0x40680008 + i * 0x100
/-- `CHK_FEED_H[16]` (R254). -/
def chkFeedH (i : Nat) : Nat := 0x4068000C + i * 0x100
/-- `CHK_FEED_W[16]` (R254). -/
def chkFeedW (i : Nat) : Nat := 0x40680010 + i * 0x100
/-- `CHK_RES[16]` (R254). -/
def chkRes (i : Nat) : Nat := 0x40680020 + i * 0x100
/-- `CHK_RES_ALIVE[16]` (R254). -/
def chkResAlive (i : Nat) : Nat := 0x40680024 + i * 0x100
/-- `CHK_RES_LENGTH[16]` (R254). -/
def chkResLength (i : Nat) : Nat := 0x40680028 + i * 0x100
/-- `CHK_RES_CHECK_LO[16]` (R254). -/
def chkResCheckLo (i : Nat) : Nat := 0x4068002C + i * 0x100
/-- `CHK_RES_CHECK_HI[16]` (R254). -/
def chkResCheckHi (i : Nat) : Nat := 0x40680030 + i * 0x100
/-- `CHK_CNT[16][3]` (R254). -/
def chkCnt (i j : Nat) : Nat := 0x40680040 + i * 0x100 + j * 0x4
/-- `CHK_SNAP` (R254). -/
def chkSnap : Nat := 0x40681000
/-! ### CMP at 0x40800000 -/
/-- `CMP_CTL[32]` (R286). -/
def cmpCtl (i : Nat) : Nat := 0x40800000 + i * 0x10000
/-- `CMP_BG[32]` (R286). -/
def cmpBg (i : Nat) : Nat := 0x40800004 + i * 0x10000
/-- `CMP_FIELD_LO[32]` (R286). -/
def cmpFieldLo (i : Nat) : Nat := 0x40800008 + i * 0x10000
/-- `CMP_FIELD_HI[32]` (R286). -/
def cmpFieldHi (i : Nat) : Nat := 0x4080000C + i * 0x10000
/-- `CMP_ALPHA[32][9]` (R286). -/
def cmpAlpha (i j : Nat) : Nat := 0x40800010 + i * 0x10000 + j * 0x4
/-- `CMP_WB[32]` (R286). -/
def cmpWb (i : Nat) : Nat := 0x40800040 + i * 0x10000
/-- `CMP_PTR[32]` (R286). -/
def cmpPtr (i : Nat) : Nat := 0x40800050 + i * 0x10000
/-- `CMP_PTR_XY[32]` (R286). -/
def cmpPtrXy (i : Nat) : Nat := 0x40800054 + i * 0x10000
/-- `CMP_CMD[32]` (R286). -/
def cmpCmd (i : Nat) : Nat := 0x40800060 + i * 0x10000
/-- `CMP_STAT[32]` (R286). -/
def cmpStat (i : Nat) : Nat := 0x40800064 + i * 0x10000
/-- `CMP_SNAP[32]` (R286). -/
def cmpSnap (i : Nat) : Nat := 0x40800068 + i * 0x10000
/-- `CMP_RES[32]` (R286). -/
def cmpRes (i : Nat) : Nat := 0x40800070 + i * 0x10000
/-- `CMP_RES_INDEX[32]` (R286). -/
def cmpResIndex (i : Nat) : Nat := 0x40800074 + i * 0x10000
/-- `CMP_RES_AT_LO[32]` (R286). -/
def cmpResAtLo (i : Nat) : Nat := 0x40800078 + i * 0x10000
/-- `CMP_RES_AT_HI[32]` (R286). -/
def cmpResAtHi (i : Nat) : Nat := 0x4080007C + i * 0x10000
/-- `CMP_CNT[32][6]` (R286). -/
def cmpCnt (i j : Nat) : Nat := 0x40800080 + i * 0x10000 + j * 0x4
/-- `CMP_BG_CUR[32]` (R286). -/
def cmpBgCur (i : Nat) : Nat := 0x40800804 + i * 0x10000
/-- `CMP_ALPHA_CUR[32][9]` (R286). -/
def cmpAlphaCur (i j : Nat) : Nat := 0x40800810 + i * 0x10000 + j * 0x4
/-! ### FLY at 0x40A00000 -/
/-- `FLY_CTL` (R75). -/
def flyCtl : Nat := 0x40A00000
/-- `FLY_SNAP` (R75). -/
def flySnap : Nat := 0x40A00004
/-- `FLY_MISS` (R75). -/
def flyMiss : Nat := 0x40A00008
/-- `FLY_CNT[32]` (R76). -/
def flyCnt (i : Nat) : Nat := 0x40A00100 + i * 0x20
/-- `FLY_CNT_FRAME[32]` (R76). -/
def flyCntFrame (i : Nat) : Nat := 0x40A00104 + i * 0x20
/-- `FLY_CNT_N[32][6]` (R76). -/
def flyCntN (i j : Nat) : Nat := 0x40A00108 + i * 0x20 + j * 0x4
/-- `FLY_STYLE_A[8][5]` (R74). -/
def flyStyleA (i j : Nat) : Nat := 0x40A01000 + i * 0x40 + j * 0xC
/-- `FLY_STYLE_B[8][5]` (R74). -/
def flyStyleB (i j : Nat) : Nat := 0x40A01004 + i * 0x40 + j * 0xC
/-- `FLY_STYLE_M[8][5]` (R74). -/
def flyStyleM (i j : Nat) : Nat := 0x40A01008 + i * 0x40 + j * 0xC
/-! ### HED at 0x40A80000 -/
/-- `HED_CTL[32]` (R311). -/
def hedCtl (i : Nat) : Nat := 0x40A80000 + i * 0x1000
/-- `HED_SNAP[32]` (R311). -/
def hedSnap (i : Nat) : Nat := 0x40A80004 + i * 0x1000
/-- `HED_HTIM[32]` (R311). -/
def hedHtim (i : Nat) : Nat := 0x40A80010 + i * 0x1000
/-- `HED_HSYNC[32]` (R311). -/
def hedHsync (i : Nat) : Nat := 0x40A80014 + i * 0x1000
/-- `HED_VTIM[32]` (R311). -/
def hedVtim (i : Nat) : Nat := 0x40A80018 + i * 0x1000
/-- `HED_VSYNC[32]` (R311). -/
def hedVsync (i : Nat) : Nat := 0x40A8001C + i * 0x1000
/-- `HED_PERIOD[32]` (R311). -/
def hedPeriod (i : Nat) : Nat := 0x40A80020 + i * 0x1000
/-- `HED_PERIOD_FRAC[32]` (R311). -/
def hedPeriodFrac (i : Nat) : Nat := 0x40A80024 + i * 0x1000
/-- `HED_PHASE[32]` (R311). -/
def hedPhase (i : Nat) : Nat := 0x40A80028 + i * 0x1000
/-- `HED_OUT[32]` (R311). -/
def hedOut (i : Nat) : Nat := 0x40A80030 + i * 0x1000
/-- `HED_PULSE[32]` (R311). -/
def hedPulse (i : Nat) : Nat := 0x40A80034 + i * 0x1000
/-- `HED_PULSE_LVL[32]` (R311). -/
def hedPulseLvl (i : Nat) : Nat := 0x40A80038 + i * 0x1000
/-- `HED_FETCH[32]` (R311). -/
def hedFetch (i : Nat) : Nat := 0x40A8003C + i * 0x1000
/-- `HED_FREEZE[32]` (R311). -/
def hedFreeze (i : Nat) : Nat := 0x40A80040 + i * 0x1000
/-- `HED_LCMP[32][2]` (R311). -/
def hedLcmp (i j : Nat) : Nat := 0x40A80044 + i * 0x1000 + j * 0x4
/-- `HED_GPO[32]` (R311). -/
def hedGpo (i : Nat) : Nat := 0x40A8004C + i * 0x1000
/-- `HED_IRQ[32]` (R311). -/
def hedIrq (i : Nat) : Nat := 0x40A80050 + i * 0x1000
/-- `HED_STAT[32]` (R311). -/
def hedStat (i : Nat) : Nat := 0x40A80060 + i * 0x1000
/-- `HED_RES[32]` (R311). -/
def hedRes (i : Nat) : Nat := 0x40A80070 + i * 0x1000
/-- `HED_RES_FRAME_LO[32]` (R311). -/
def hedResFrameLo (i : Nat) : Nat := 0x40A80074 + i * 0x1000
/-- `HED_RES_FRAME_HI[32]` (R311). -/
def hedResFrameHi (i : Nat) : Nat := 0x40A80078 + i * 0x1000
/-- `HED_RES_FS_LO[32]` (R311). -/
def hedResFsLo (i : Nat) : Nat := 0x40A8007C + i * 0x1000
/-- `HED_RES_FS_HI[32]` (R311). -/
def hedResFsHi (i : Nat) : Nat := 0x40A80080 + i * 0x1000
/-- `HED_RES_FRAC[32]` (R311). -/
def hedResFrac (i : Nat) : Nat := 0x40A80084 + i * 0x1000
/-- `HED_RES_SIG[32]` (R311). -/
def hedResSig (i : Nat) : Nat := 0x40A80088 + i * 0x1000
/-- `HED_RES_LSIG[32]` (R311). -/
def hedResLsig (i : Nat) : Nat := 0x40A8008C + i * 0x1000
/-- `HED_RES_FILL[32]` (R311). -/
def hedResFill (i : Nat) : Nat := 0x40A80090 + i * 0x1000
/-- `HED_CNT[32][8]` (R311). -/
def hedCnt (i j : Nat) : Nat := 0x40A800A0 + i * 0x1000 + j * 0x4
/-! ### DPT at 0x40B00000 -/
/-- `DPT_CTL[8]` (R312). -/
def dptCtl (i : Nat) : Nat := 0x40B00000 + i * 0x1000
/-- `DPT_STAT[8]` (R312). -/
def dptStat (i : Nat) : Nat := 0x40B00004 + i * 0x1000
/-- `DPT_CMD[8]` (R312). -/
def dptCmd (i : Nat) : Nat := 0x40B00008 + i * 0x1000
/-- `DPT_SNAP[8]` (R312). -/
def dptSnap (i : Nat) : Nat := 0x40B0000C + i * 0x1000
/-- `DPT_RAD[8][4]` (R312). -/
def dptRad (i j : Nat) : Nat := 0x40B00010 + i * 0x1000 + j * 0x4
/-- `DPT_CNT[8][4]` (R312). -/
def dptCnt (i j : Nat) : Nat := 0x40B00040 + i * 0x1000 + j * 0x4
/-- `DPT_EDID[8][4][32]` (R312). -/
def dptEdid (i j k : Nat) : Nat := 0x40B00800 + i * 0x1000 + j * 0x80 + k * 0x4
/-- `DPT_DSC_PPS[16][32]` (R313). -/
def dptDscPps (i j : Nat) : Nat := 0x40B10000 + i * 0x100 + j * 0x4
/-! ### TCH at 0x40C00000 -/
/-- `TCH_CTL[4]` (R335). -/
def tchCtl (i : Nat) : Nat := 0x40C00000 + i * 0x1000
/-- `TCH_PERIOD[4]` (R335). -/
def tchPeriod (i : Nat) : Nat := 0x40C00004 + i * 0x1000
/-- `TCH_XY[4]` (R335). -/
def tchXy (i : Nat) : Nat := 0x40C00008 + i * 0x1000
/-- `TCH_THR[4]` (R335). -/
def tchThr (i : Nat) : Nat := 0x40C0000C + i * 0x1000
/-- `TCH_THR2[4]` (R335). -/
def tchThr2 (i : Nat) : Nat := 0x40C00010 + i * 0x1000
/-- `TCH_PALM[4]` (R335). -/
def tchPalm (i : Nat) : Nat := 0x40C00014 + i * 0x1000
/-- `TCH_TRACK[4]` (R335). -/
def tchTrack (i : Nat) : Nat := 0x40C00018 + i * 0x1000
/-- `TCH_LONG[4]` (R335). -/
def tchLong (i : Nat) : Nat := 0x40C0001C + i * 0x1000
/-- `TCH_HOP[4]` (R335). -/
def tchHop (i : Nat) : Nat := 0x40C00020 + i * 0x1000
/-- `TCH_FREQ[4][8]` (R335). -/
def tchFreq (i j : Nat) : Nat := 0x40C00040 + i * 0x1000 + j * 0x4
/-- `TCH_TEST[4]` (R335). -/
def tchTest (i : Nat) : Nat := 0x40C00060 + i * 0x1000
/-- `TCH_RING_LO[4]` (R335). -/
def tchRingLo (i : Nat) : Nat := 0x40C00070 + i * 0x1000
/-- `TCH_RING_HI[4]` (R335). -/
def tchRingHi (i : Nat) : Nat := 0x40C00074 + i * 0x1000
/-- `TCH_RING_SIZE[4]` (R335). -/
def tchRingSize (i : Nat) : Nat := 0x40C00078 + i * 0x1000
/-- `TCH_PTR[4]` (R335). -/
def tchPtr (i : Nat) : Nat := 0x40C000A0 + i * 0x1000
/-- `TCH_PTR_ORG[4]` (R335). -/
def tchPtrOrg (i : Nat) : Nat := 0x40C000A4 + i * 0x1000
/-- `TCH_PTR_SIZE[4]` (R335). -/
def tchPtrSize (i : Nat) : Nat := 0x40C000A8 + i * 0x1000
/-- `TCH_PTR_HOLD[4]` (R335). -/
def tchPtrHold (i : Nat) : Nat := 0x40C000AC + i * 0x1000
/-- `TCH_CMD[4]` (R335). -/
def tchCmd (i : Nat) : Nat := 0x40C000C0 + i * 0x1000
/-- `TCH_SNAP[4]` (R335). -/
def tchSnap (i : Nat) : Nat := 0x40C000C4 + i * 0x1000
/-- `TCH_STAT[4]` (R335). -/
def tchStat (i : Nat) : Nat := 0x40C000D0 + i * 0x1000
/-- `TCH_RES[4]` (R335). -/
def tchRes (i : Nat) : Nat := 0x40C000E0 + i * 0x1000
/-- `TCH_RES_FRAME[4]` (R335). -/
def tchResFrame (i : Nat) : Nat := 0x40C000E4 + i * 0x1000
/-- `TCH_NOISE[4][8]` (R335). -/
def tchNoise (i j : Nat) : Nat := 0x40C000F0 + i * 0x1000 + j * 0x4
/-- `TCH_TRES[4]` (R335). -/
def tchTres (i : Nat) : Nat := 0x40C00110 + i * 0x1000
/-- `TCH_TRES_OPEN[4][4]` (R335). -/
def tchTresOpen (i j : Nat) : Nat := 0x40C00114 + i * 0x1000 + j * 0x4
/-- `TCH_TRES_SHORT[4][4]` (R335). -/
def tchTresShort (i j : Nat) : Nat := 0x40C00124 + i * 0x1000 + j * 0x4
/-- `TCH_CNT[4][7]` (R335). -/
def tchCnt (i j : Nat) : Nat := 0x40C00180 + i * 0x1000 + j * 0x4
/-- `TCH_REF[4][112]` (R335). -/
def tchRef (i j : Nat) : Nat := 0x40C00400 + i * 0x1000 + j * 0x4
/-! ### DMC at 0x41000000 -/
/-- `DMC_CH_STAT[16]` (R391). -/
def dmcChStat (i : Nat) : Nat := 0x41000000 + i * 0x10000
/-- `DMC_TIM[16][16]` (R391). -/
def dmcTim (i j : Nat) : Nat := 0x41000040 + i * 0x10000 + j * 0x4
/-- `DMC_CH_SNAP[16]` (R391). -/
def dmcChSnap (i : Nat) : Nat := 0x410000FC + i * 0x10000
/-- `DMC_TRN_CTL[16]` (R391). -/
def dmcTrnCtl (i : Nat) : Nat := 0x41000100 + i * 0x10000
/-- `DMC_TRN_ROW[16]` (R391). -/
def dmcTrnRow (i : Nat) : Nat := 0x41000104 + i * 0x10000
/-- `DMC_TRN_CNT[16]` (R391). -/
def dmcTrnCnt (i : Nat) : Nat := 0x41000108 + i * 0x10000
/-- `DMC_TRN_OFS[16]` (R464). -/
def dmcTrnOfs (i : Nat) : Nat := 0x4100010C + i * 0x10000
/-- `DMC_TRN_RES[16]` (R391). -/
def dmcTrnRes (i : Nat) : Nat := 0x41000110 + i * 0x10000
/-- `DMC_TRN_ERR[16][18]` (R391). -/
def dmcTrnErr (i j : Nat) : Nat := 0x41000120 + i * 0x10000 + j * 0x4
/-- `DMC_TRN_USER[16][16]` (R391). -/
def dmcTrnUser (i j : Nat) : Nat := 0x41000180 + i * 0x10000 + j * 0x4
/-- `DMC_TRIM[16][18]` (R391). -/
def dmcTrim (i j : Nat) : Nat := 0x41000200 + i * 0x10000 + j * 0x4
/-- `DMC_TRIM_VREF[16]` (R391). -/
def dmcTrimVref (i : Nat) : Nat := 0x41000250 + i * 0x10000
/-- `DMC_TRIM_CA[16]` (R391). -/
def dmcTrimCa (i : Nat) : Nat := 0x41000254 + i * 0x10000
/-- `DMC_OSC[16]` (R391). -/
def dmcOsc (i : Nat) : Nat := 0x41000260 + i * 0x10000
/-- `DMC_CH_CNT[16][5]` (R391). -/
def dmcChCnt (i j : Nat) : Nat := 0x41000300 + i * 0x10000 + j * 0x4
/-- `DMC_ECC_ADDR_LO[16]` (R391). -/
def dmcEccAddrLo (i : Nat) : Nat := 0x41000320 + i * 0x10000
/-- `DMC_ECC_ADDR_HI[16]` (R391). -/
def dmcEccAddrHi (i : Nat) : Nat := 0x41000324 + i * 0x10000
/-- `DMC_CFG` (R390). -/
def dmcCfg : Nat := 0x41100000
/-- `DMC_CHMASK[4]` (R390). -/
def dmcChmask (i : Nat) : Nat := 0x41100010 + i * 0x4
/-- `DMC_BGMASK[2]` (R390). -/
def dmcBgmask (i : Nat) : Nat := 0x41100020 + i * 0x4
/-- `DMC_BAMASK[2]` (R390). -/
def dmcBamask (i : Nat) : Nat := 0x41100028 + i * 0x4
/-- `DMC_PANIC` (R390). -/
def dmcPanic : Nat := 0x41100080
/-- `DMC_SCRUB` (R390). -/
def dmcScrub : Nat := 0x41100090
/-- `DMC_SWEEP` (R390). -/
def dmcSweep : Nat := 0x411000A0
/-- `DMC_SNAP` (R390). -/
def dmcSnap : Nat := 0x411000F0
/-- `DMC_GSTAT` (R390). -/
def dmcGstat : Nat := 0x411000F4
/-- `DMC_REG[10]` (R390). -/
def dmcReg (i : Nat) : Nat := 0x41100100 + i * 0x8
/-- `DMC_REG_BURST[10]` (R390). -/
def dmcRegBurst (i : Nat) : Nat := 0x41100104 + i * 0x8
/-- `DMC_GCNT[10][3]` (R390). -/
def dmcGcnt (i j : Nat) : Nat := 0x41100200 + i * 0x10 + j * 0x4
/-! ### PRU at 0x41200000 -/
/-- `PRU_CTL[24]` (R411). -/
def pruCtl (i : Nat) : Nat := 0x41200000 + i * 0x1000
/-- `PRU_CMD[24]` (R411). -/
def pruCmd (i : Nat) : Nat := 0x41200004 + i * 0x1000
/-- `PRU_STAT[24]` (R411). -/
def pruStat (i : Nat) : Nat := 0x41200008 + i * 0x1000
/-- `PRU_SNAP[24]` (R411). -/
def pruSnap (i : Nat) : Nat := 0x4120000C + i * 0x1000
/-- `PRU_FREC[24]` (R411). -/
def pruFrec (i : Nat) : Nat := 0x41200010 + i * 0x1000
/-- `PRU_FREC_ADDR_LO[24]` (R411). -/
def pruFrecAddrLo (i : Nat) : Nat := 0x41200014 + i * 0x1000
/-- `PRU_FREC_ADDR_HI[24]` (R411). -/
def pruFrecAddrHi (i : Nat) : Nat := 0x41200018 + i * 0x1000
/-- `PRU_FREC_STAMP_LO[24]` (R411). -/
def pruFrecStampLo (i : Nat) : Nat := 0x4120001C + i * 0x1000
/-- `PRU_FREC_STAMP_HI[24]` (R411). -/
def pruFrecStampHi (i : Nat) : Nat := 0x41200020 + i * 0x1000
/-- `PRU_FCNT[24]` (R411). -/
def pruFcnt (i : Nat) : Nat := 0x41200024 + i * 0x1000
/-- `PRU_HKEY` (R411). -/
def pruHkey : Nat := 0x41200040
/-- `PRU_RGN_BASE[24][64]` (R411). -/
def pruRgnBase (i j : Nat) : Nat := 0x41200100 + i * 0x1000 + j * 0x10
/-- `PRU_RGN_SIZE[24][64]` (R411). -/
def pruRgnSize (i j : Nat) : Nat := 0x41200104 + i * 0x1000 + j * 0x10
/-- `PRU_RGN_ATTR[24][64]` (R411). -/
def pruRgnAttr (i j : Nat) : Nat := 0x41200108 + i * 0x1000 + j * 0x10
/-- `PRU_RGN_BASE_CUR[24][64]` (R411). -/
def pruRgnBaseCur (i j : Nat) : Nat := 0x41200900 + i * 0x1000 + j * 0x10
/-- `PRU_RGN_SIZE_CUR[24][64]` (R411). -/
def pruRgnSizeCur (i j : Nat) : Nat := 0x41200904 + i * 0x1000 + j * 0x10
/-- `PRU_RGN_ATTR_CUR[24][64]` (R411). -/
def pruRgnAttrCur (i j : Nat) : Nat := 0x41200908 + i * 0x1000 + j * 0x10
/-- `PRU_GCMD` (R412). -/
def pruGcmd : Nat := 0x41218000
/-- `PRU_GSTAT` (R412). -/
def pruGstat : Nat := 0x41218004
/-! ### TBW at 0x43EAE000 -/
/-- `TBW_SEL` (R508). -/
def tbwSel : Nat := 0x43EAE000

end Sys2Proof.Machine.R
end

