-- ==== Sys2Proof/Config.lean ====
section
/-! DEFINITION. What the part's manual leaves to the individual part, as constants that no proof can look into. -/

namespace Sys2Proof.Config

/-- DESIGN CHOICE (log 9): `AGE_ROREF[i]`, the ring-oscillator reference of pair `i`, is written at manufacture, and
the spec gives no number for it (R460). -/
opaque roRef : Nat → Word

/-- DESIGN CHOICE (log 10): the correction, in 2^-16 ppb, that the main loop wants for a phase in 2^-8 ns at a bandwidth
in 0.01 Hz after its last correction. R109 bounds it by the slope limit; the spec gives no coefficients of the loop. -/
opaque loopSteer : Int → Nat → Int → Int

/-- DESIGN CHOICE (log 10): how far, in 2^-16 ppb, the main loop moves the Muith clock's frequency toward that of a frequency
input in an evaluation, for the difference and a bandwidth in 0.01 Hz. R108 gives the bandwidth and no coefficients. -/
opaque loopFollow : Int → Nat → Nat

/-- DESIGN CHOICE (log 10): how far, in 2^-16 ppb, the SerDes reference loop moves toward the Muith clock's frequency in an
evaluation, for the difference. R112 gives a bandwidth of 100 Hz and a limit, and no coefficients. -/
opaque serdesFollow : Int → Nat

/-- DESIGN CHOICE (log 16): the byte that a read with an uncorrectable error returns at a DRAM offset (R378). -/
opaque ueByte : Nat → Byte

/-- DESIGN CHOICE (log 109): the check word of 64 data bytes (R376). The spec names an 11-bit code and a fixed pattern and gives neither matrix nor pattern. -/
opaque checkCode : List Byte → Nat

/-- DESIGN CHOICE (log 109): the check word that always decodes as uncorrectable, stored with merged data (R379). -/
opaque deadCheck : List Byte → Nat

/-- DESIGN CHOICE (log 17): the sample at (x, y) of a sensor frame whose line has not arrived, by camera frame counter; the
outputs of such a frame are impaired, and the manual gives their pixels no value (R204). -/
opaque lostSample : Nat → Nat → Nat → Nat

/-- DESIGN CHOICE (log 18): the error count of a bit (0 to 17) of a channel's helper run that a write of STOP ends at a stamp,
when the write comes without the run's counts (R382). -/
opaque stopErrors : Nat → Nat → Nat → Nat

/-- DESIGN CHOICE (log 20): what a ring-oscillator pair reports when its unstressed oscillator counts nothing or its reference
is 0, by pair and stressed count. R460 divides by both and gives no value there. -/
opaque deadRing : Nat → Nat → Int

/-- DESIGN CHOICE (log 23): the deadline window in µs of a preset's peg, by its queue. R437 gives a recall's window and none for a
preset; the write into the peg buffer clamps it to 1 to 16,777,215 (R122). -/
opaque presetWindow : Nat → Nat

/-- DESIGN CHOICE (log 14): LIMIT and HIGH of a value in a limit class whose KIND is 0, for which R238 gives no comparison. -/
opaque noKindLimit : Nat → Nat × Nat

/-- DESIGN CHOICE (log 13): the number that the content of event `code` gives for the `n`-th thing that the event's table names
in words and no rule numbers: a cause, a comparison, a clock domain, the absence of an input (R515). -/
opaque eventCode : Nat → Nat → Nat

/-- What the parameter sets of an encode context say (R171): codec, PROFILE, level_idc, the coded size and its crop at the right and
at the bottom, BT.709 primaries, transfer and matrix, limited range, chroma_sample_loc_type, the coding tree unit, smallest coding
unit and largest transform, deblocking, SAO, tiles, WPP, CABAC and the 8 × 8 transform. -/
structure EncParams where
  h265 : Bool
  profile : Nat
  level : Nat
  width : Nat
  height : Nat
  cropRight : Nat
  cropBottom : Nat
  colour : Nat := 1
  fullRange : Bool := false
  chromaLoc : Nat := 1
  ctu : Nat := 64
  minCu : Nat := 16
  maxTu : Nat := 32
  deblocking : Bool := true
  sao : Bool := true
  tiles : Bool := false
  wpp : Bool := false
  cabac : Bool := true
  transform8 : Bool := true
  deriving DecidableEq, Repr

/-- All that a coded picture depends on (R196): its parameter sets, picture type, QP and slices, its converted samples row by row
(R191), the picture that it predicts from, each 16 × 16 block's vector and intra prediction, and the coding units: place in blocks,
size in samples, and skip (R193). -/
structure EncPicture where
  params : EncParams
  idr : Bool
  qp : Nat
  slices : Nat
  luma : List Nat
  chroma : List (Nat × Nat)
  previous : List Byte
  modes : List (Option (Int × Int) × Option Nat)
  units : List (Nat × Nat × Nat × Bool)
  deriving DecidableEq, Repr

/-- DESIGN CHOICE (log 105): the `i`-th parameter set of an encode context as a NAL unit: VPS (H.265), SPS, PPS. Its syntax is the coding
standard's, which the spec does not repeat. -/
opaque paramSet : EncParams → Nat → List Byte

/-- DESIGN CHOICE (log 105): the transform coefficients of a picture's unit, in sixths of a quantisation step. The transform of the
encoder is not in the spec; R193 gives the rounding. -/
opaque coefs : EncPicture → Nat → List Int

/-- DESIGN CHOICE (log 105): the NAL unit of a picture's `i`-th slice. The entropy coder is the coding standard's. -/
opaque slice : EncPicture → Nat → List Byte

/-- DESIGN CHOICE (log 105): the byte of a coded picture's reconstruction at an offset. -/
opaque reconByte : EncPicture → Nat → Byte

/-- DESIGN CHOICE (log 106): where base firmware keeps a job's parameter block, by operation (0 decode, 1 encode), context and the
job's number; R175 leaves its place to base firmware. -/
opaque paramBlock : Nat → Nat → Nat → Nat

/-- DESIGN CHOICE (log 106): where an encode job's output goes and the space there, by context and the job's number (R175). -/
opaque encodeSpace : Nat → Nat → Nat × Nat

end Sys2Proof.Config
end

