-- ==== Sys2Proof/Machine/RegTypes.lean ====
section
/-! DEFINITION. The types in which the register tables are written: field types (R15), reset values and legal values of a
field, register rows, blocks. -/

namespace Sys2Proof.Machine

/-- The field types of R15. -/
inductive FieldTy
  | ro | rw | lv | w1c | wo
  deriving DecidableEq, Repr

/-- A field's reset value: one number; one per innermost index; the rising tone curve of R215; or set at manufacture. -/
inductive ResetVal
  | const (n : Nat)
  | byIdx (l : List Nat)
  | tone
  | manufactured
  deriving DecidableEq, Repr

/-- The values a field of type LV may take: any its width holds; a range; a signed range; or a range that another
register bounds (`HED_LCMP.LINE`, R311). -/
inductive Legal
  | any
  | range (lo hi : Nat)
  | srange (lo : Int) (hi : Int)
  | dyn
  deriving DecidableEq, Repr

/-- One field row: bits `hi` to `lo`, type, reset value, legal values. -/
structure FieldDesc where
  name : String
  hi : Nat
  lo : Nat
  ty : FieldTy
  reset : ResetVal
  legal : Legal
  deriving DecidableEq, Repr

/-- One register row. `dims` are (count, stride) pairs, outermost first; `snap` marks a word of a value wider than 32
bits, read after SNAP (R20). -/
structure RegDesc where
  name : String
  ofs : Nat
  dims : List (Nat × Nat)
  snap : Bool
  fields : List FieldDesc
  deriving DecidableEq, Repr

/-- One block of R503. -/
structure BlockDesc where
  name : String
  base : Nat
  extent : Nat
  regs : List RegDesc
  deriving DecidableEq, Repr

/-- A field row in one line. -/
abbrev fd (name : String) (hi lo : Nat) (ty : FieldTy) (reset : ResetVal) (legal : Legal) : FieldDesc :=
  ⟨name, hi, lo, ty, reset, legal⟩

end Sys2Proof.Machine
end

