-- ==== Sys2Proof/Machine/RegTable.lean ====
section
/-! DEFINITION. The register tables of the chapters, row by row: for each register its offset in the block, its array
dimensions (count and stride, outermost first), whether its words are read after SNAP (R20), and its fields with their
bits, type, reset value and legal values. Bits that no row names are reserved (R16). -/

namespace Sys2Proof.Machine

/-- The registers of SYS (R21, R25). -/
def regsSys : List RegDesc := [
  ⟨"ID", 0x0, [], false, [fd "PART" 31 16 .ro (.const 2400) .any, fd "STEP_LETTER" 15 12 .ro (.const 2) .any, fd "STEP_DIGIT" 11 8 .ro (.const 0) .any]⟩,
  ⟨"ROLE", 0x4, [], false, [fd "FIELD" 2 2 .ro (.const 0) .any, fd "CONSOLE" 1 1 .ro (.const 0) .any, fd "WALL" 0 0 .ro (.const 0) .any]⟩,
  ⟨"D2D_ERR", 0x40, [], false, [fd "REPLAY" 31 16 .ro (.const 0) .any, fd "CRC" 15 0 .ro (.const 0) .any]⟩,
  ⟨"D2D_STAT", 0x44, [], false, [fd "UP" 31 31 .ro (.const 0) .any, fd "DOWNS" 23 16 .ro (.const 0) .any, fd "DROPPED" 15 0 .ro (.const 0) .any]⟩]

/-- The registers of PIT (R455). -/
def regsPit : List RegDesc := [
  ⟨"STAT", 0x0, [], false, [fd "SEALED" 31 31 .ro (.const 0) .any, fd "HALT" 30 30 .ro (.const 0) .any, fd "CAUSE" 29 29 .ro (.const 0) .any, fd "SLOTB" 28 28 .ro (.const 0) .any, fd "STEP" 23 20 .ro (.const 0) .any, fd "FAIL" 19 16 .ro (.const 0) .any, fd "FUSE_SVN" 13 8 .ro (.const 0) .any, fd "SVN" 5 0 .ro (.const 0) .any]⟩,
  ⟨"SNAP", 0xC, [], false, [fd "SNAP" 0 0 .wo (.const 0) .any]⟩,
  ⟨"TIMES", 0x10, [(8, 0x4)], false, [fd "MS" 31 0 .ro (.const 0) .any]⟩,
  ⟨"SWR", 0x40, [], false, [fd "VALID" 31 31 .w1c (.const 0) .any, fd "ADDR" 25 0 .ro (.const 0) .any]⟩,
  ⟨"SWR_COUNT", 0x44, [], false, [fd "COUNT" 31 0 .ro (.const 0) .any]⟩,
  ⟨"REF", 0x50, [], false, [fd "VALID" 31 31 .w1c (.const 0) .any, fd "SOURCE" 26 24 .ro (.const 0) .any, fd "CAUSE" 19 16 .ro (.const 0) .any]⟩,
  ⟨"REF_ADDR", 0x54, [], false, [fd "ADDR" 25 0 .ro (.const 0) .any]⟩,
  ⟨"REF_DATA", 0x58, [], false, [fd "DATA" 31 0 .ro (.const 0) .any]⟩,
  ⟨"REF_STAMP_LO", 0x5C, [], true, [fd "STAMP" 31 0 .ro (.const 0) .any]⟩,
  ⟨"REF_STAMP_HI", 0x60, [], true, [fd "STAMP" 31 0 .ro (.const 0) .any]⟩,
  ⟨"CMD", 0x70, [], false, [fd "CMD" 31 28 .wo (.const 0) .any, fd "ARG" 11 0 .wo (.const 0) .any]⟩,
  ⟨"T_LO", 0x74, [], false, [fd "T" 31 0 .lv (.const 0) .any]⟩,
  ⟨"T_HI", 0x78, [], false, [fd "T" 31 0 .lv (.const 0) .any]⟩,
  ⟨"RES", 0x80, [], false, [fd "VALID" 31 31 .ro (.const 0) .any, fd "OK" 30 30 .ro (.const 0) .any, fd "CAUSE" 27 24 .ro (.const 0) .any, fd "SEQ" 15 0 .ro (.const 0) .any]⟩,
  ⟨"RES_GROUP", 0x84, [], false, [fd "GROUP" 15 0 .ro (.const 0) .any]⟩,
  ⟨"REFCNT", 0x1000, [(1024, 0x4)], false, [fd "COUNT" 31 0 .ro (.const 0) .any]⟩]

/-- The registers of MGT (R457). -/
def regsMgt : List RegDesc := [
  ⟨"CTL", 0x0, [], false, [fd "EN" 31 31 .rw (.const 0) .any, fd "IPV6" 30 30 .rw (.const 0) .any, fd "PORT" 15 0 .rw (.const 4700) .any]⟩,
  ⟨"IF_MAC_LO", 0x20, [], false, [fd "MAC" 31 0 .rw (.const 0) .any]⟩,
  ⟨"IF_MAC_HI", 0x24, [], false, [fd "MAC" 15 0 .rw (.const 0) .any]⟩,
  ⟨"IF_IPV4", 0x28, [], false, [fd "IPV4" 31 0 .rw (.const 0) .any]⟩,
  ⟨"IF_PREFIX", 0x2C, [], false, [fd "PREFIX6" 15 8 .rw (.const 0) .any, fd "PREFIX4" 7 0 .rw (.const 0) .any]⟩,
  ⟨"IF_IPV6", 0x30, [(4, 0x4)], false, [fd "IPV6" 31 0 .rw (.const 0) .any]⟩,
  ⟨"KEYS", 0x40, [], false, [fd "LOADED" 7 0 .ro (.const 0) .any]⟩,
  ⟨"SMB", 0x44, [], false, [fd "SPEED" 9 8 .rw (.const 1) .any, fd "ADDR" 6 0 .rw (.const 90) .any]⟩,
  ⟨"CNT", 0x100, [(7, 0x4)], false, [fd "COUNT" 31 0 .ro (.const 0) .any]⟩]

/-- The registers of EVJ (R456). -/
def regsEvj : List RegDesc := [
  ⟨"RING_LO", 0x0, [], false, [fd "BASE" 31 12 .rw (.const 0) .any]⟩,
  ⟨"RING_HI", 0x4, [], false, [fd "BASE" 7 0 .rw (.const 0) .any]⟩,
  ⟨"SIZE", 0x8, [], false, [fd "LOG2" 4 0 .rw (.const 16) .any]⟩,
  ⟨"NEXT", 0x10, [], false, [fd "SEQ" 31 0 .ro (.const 1) .any]⟩,
  ⟨"ALERT", 0x14, [], false, [fd "SEV" 2 0 .lv (.const 3) .any]⟩,
  ⟨"ACK", 0x18, [], false, [fd "SEQ" 31 0 .lv (.const 0) .any]⟩,
  ⟨"STAT", 0x1C, [], false, [fd "ALERT" 31 31 .ro (.const 0) .any, fd "FAULT" 30 30 .ro (.const 0) .any, fd "RING" 29 29 .ro (.const 0) .any, fd "BACKLOG" 10 0 .ro (.const 0) .any]⟩,
  ⟨"SYSLOG", 0x40, [(2, 0x20)], false, [fd "EN" 31 31 .rw (.const 0) .any, fd "IPV6" 30 30 .rw (.const 0) .any, fd "PORT" 15 0 .rw (.const 514) .any]⟩,
  ⟨"SYSLOG_ADDR", 0x50, [(2, 0x20), (4, 0x4)], false, [fd "ADDR" 31 0 .rw (.const 0) .any]⟩,
  ⟨"SYSCFG", 0x80, [], false, [fd "FACILITY" 4 0 .rw (.const 16) .any]⟩,
  ⟨"SYSCFG_PEN", 0x84, [], false, [fd "PEN" 31 0 .rw (.const 0) .any]⟩,
  ⟨"CNT", 0x100, [(4, 0x4)], false, [fd "COUNT" 31 0 .ro (.const 0) .any]⟩]

/-- The registers of AGE (R477). -/
def regsAge : List RegDesc := [
  ⟨"CTL", 0x0, [], false, [fd "EN" 31 31 .rw (.const 1) .any, fd "PLAN_SEC" 16 0 .rw (.const 7200) .any]⟩,
  ⟨"SNAP", 0x4, [], false, [fd "SNAP" 0 0 .wo (.const 0) .any]⟩,
  ⟨"ANN", 0x8, [], false, [fd "SEC" 15 0 .rw (.const 60) .any]⟩,
  ⟨"AVS", 0x10, [], false, [fd "VMIN" 25 16 .rw (.const 650) .any, fd "FLOOR" 7 0 .rw (.const 8) .any]⟩,
  ⟨"AVS_TGT", 0x14, [], false, [fd "TGT" 7 0 .rw (.const 12) .any]⟩,
  ⟨"AVS_STAT", 0x18, [], false, [fd "VSET" 31 16 .ro (.const 8000) .any, fd "DROOP" 15 8 .ro (.const 0) .any, fd "SLACK" 7 0 .ro (.const 0) .any]⟩,
  ⟨"RESV", 0x20, [], false, [fd "CORE" 31 16 .rw (.const 250) .any, fd "DRAM" 15 8 .rw (.const 6) .any, fd "SER" 7 0 .rw (.const 15) .any]⟩,
  ⟨"FLOOR", 0x24, [], false, [fd "EYE_MIN" 15 8 .rw (.const 24) .any, fd "EH_MIN" 7 0 .rw (.const 40) .any]⟩,
  ⟨"FCST", 0x28, [], false, [fd "KT" 31 16 .rw (.const 0) .any, fd "HORIZON" 15 0 .rw (.const 730) .any]⟩,
  ⟨"ROLIM", 0x2C, [], false, [fd "DLIM" 19 0 .rw (.const 60000) .any]⟩,
  ⟨"RES", 0x40, [], false, [fd "VALID" 31 31 .ro (.const 0) .any, fd "SEQ" 15 0 .ro (.const 0) .any]⟩,
  ⟨"RES_DOM", 0x44, [(3, 0x4)], false, [fd "DAYS" 31 16 .ro (.const 65535) .any, fd "B" 15 0 .ro (.const 0) .any]⟩,
  ⟨"RES_PLAN_LO", 0x50, [], true, [fd "PLAN_AT" 31 0 .ro (.const 0) .any]⟩,
  ⟨"RES_PLAN_HI", 0x54, [], true, [fd "PLAN_AT" 31 0 .ro (.const 0) .any]⟩,
  ⟨"RES_DMAX", 0x58, [], false, [fd "DMAX" 19 0 .ro (.const 0) .any]⟩,
  ⟨"WIN", 0x80, [(4, 0x8)], false, [fd "EN" 31 31 .lv (.const 0) .any, fd "DOM" 18 16 .lv (.const 7) .any, fd "DUR" 15 0 .lv (.const 60) (.range 1 1440)]⟩,
  ⟨"WIN_START", 0x84, [(4, 0x8)], false, [fd "START" 16 0 .lv (.const 10800) (.range 0 86399)]⟩,
  ⟨"EQ", 0x100, [(12, 0x4)], false, [fd "CTLE" 3 0 .rw (.const 8) .any]⟩,
  ⟨"EYE", 0x140, [(12, 0x4)], false, [fd "WIDTH" 22 16 .ro (.const 0) .any, fd "HEIGHT" 9 0 .ro (.const 0) .any]⟩,
  ⟨"CNT", 0x200, [(5, 0x4)], false, [fd "COUNT" 31 0 .ro (.const 0) .any]⟩,
  ⟨"MON", 0x1000, [(96, 0x4)], false, [fd "VALUE" 31 0 .ro (.const 0) .any]⟩,
  ⟨"ROREF", 0x1200, [(44, 0x4)], false, [fd "REF" 31 0 .ro .manufactured .any]⟩]

/-- The registers of MUI (R88, R90, R104, R105, R107, R108, R111). -/
def regsMui : List RegDesc := [
  ⟨"STAT", 0x0, [], false, [fd "STEPS" 23 16 .ro (.const 0) .any, fd "ACT_VALID" 15 15 .ro (.const 0) .any, fd "ACTIVE" 14 12 .ro (.const 0) .any, fd "SEC_TRACE" 11 11 .ro (.const 0) .any, fd "SLOCK" 10 10 .ro (.const 0) .any, fd "LIVE" 8 8 .ro (.const 0) .any, fd "TRACE" 5 4 .ro (.const 0) .any, fd "STATE" 2 0 .ro (.const 0) .any]⟩,
  ⟨"SNAP", 0x4, [], false, [fd "SNAP" 0 0 .wo (.const 0) .any]⟩,
  ⟨"NOW_SEC_LO", 0x10, [], true, [fd "SEC_LO" 31 0 .ro (.const 0) .any]⟩,
  ⟨"NOW_SEC_HI", 0x14, [], true, [fd "FRAC" 31 16 .ro (.const 0) .any, fd "SEC_HI" 15 0 .ro (.const 0) .any]⟩,
  ⟨"NOW_NS", 0x18, [], true, [fd "NS" 29 0 .ro (.const 0) .any]⟩,
  ⟨"NOW_SHORT_LO", 0x1C, [], true, [fd "SHORT_LO" 31 0 .ro (.const 0) .any]⟩,
  ⟨"NOW_SHORT_HI", 0x20, [], true, [fd "SHORT_HI" 31 0 .ro (.const 0) .any]⟩,
  ⟨"MEAS", 0x30, [], true, [fd "VALID" 31 31 .ro (.const 0) .any, fd "SEQ" 15 0 .ro (.const 0) .any]⟩,
  ⟨"MEAS_PHASE", 0x34, [], true, [fd "PHASE" 31 0 .ro (.const 0) .any]⟩,
  ⟨"MEAS_FREQ", 0x38, [], true, [fd "FREQ" 31 0 .ro (.const 0) .any]⟩,
  ⟨"MEAS_TE", 0x3C, [], true, [fd "TE" 31 0 .ro (.const 0) .any]⟩,
  ⟨"ACQ", 0x40, [], false, [fd "WAIT" 15 0 .rw (.const 1500) .any]⟩,
  ⟨"LOCK", 0x44, [], false, [fd "THRESH" 31 16 .rw (.const 20) .any, fd "TIME" 7 0 .rw (.const 10) .any]⟩,
  ⟨"SLOPE", 0x48, [], false, [fd "SLOPE" 13 0 .rw (.const 50) .any]⟩,
  ⟨"TRACK", 0x4C, [], false, [fd "BW" 6 0 .rw (.const 10) .any]⟩,
  ⟨"HOLD", 0x50, [], false, [fd "AVG" 31 16 .rw (.const 300) .any, fd "Y_UNC" 15 0 .rw (.const 100) .any]⟩,
  ⟨"HOLD2", 0x54, [], false, [fd "D_AGE" 31 16 .rw (.const 50) .any, fd "TE_LIMIT" 15 0 .rw (.const 1000) .any]⟩,
  ⟨"FREE", 0x58, [], false, [fd "Y_FREE" 19 0 .rw (.const 4600) .any]⟩,
  ⟨"BW", 0x80, [(8, 0x4)], false, [fd "DWELL" 31 16 .rw (.byIdx [1, 4, 10]) .any, fd "BW" 9 0 .rw (.byIdx [1000, 100, 30]) .any]⟩,
  ⟨"UTC", 0xA0, [], false, [fd "VALID" 31 31 .ro (.const 0) .any, fd "LEAP61" 30 30 .ro (.const 0) .any, fd "LEAP59" 29 29 .ro (.const 0) .any, fd "OFFSET" 15 0 .ro (.const 0) .any]⟩]

/-- The registers of REF (R92, R96, R97, R98, R99, R100, R102). -/
def regsRef : List RegDesc := [
  ⟨"PRIO", 0x0, [(8, 0x4)], false, [fd "EN" 31 31 .rw (.const 0) .any, fd "REVERT" 30 30 .rw (.const 0) .any, fd "INPUT" 14 12 .rw (.const 0) .any, fd "WTR" 11 0 .rw (.const 0) .any]⟩,
  ⟨"STAT", 0x40, [(8, 0x4)], false, [fd "CAUSE" 31 28 .ro (.const 0) .any, fd "WTR_LEFT" 23 12 .ro (.const 0) .any, fd "STATE" 2 0 .ro (.const 0) .any]⟩,
  ⟨"DLY", 0x6C, [(3, 0x4)], false, [fd "DELAY" 31 0 .rw (.const 0) .any]⟩,
  ⟨"QUAL_FREQ", 0x80, [], false, [fd "WIN" 19 0 .rw (.const 4600) .any]⟩,
  ⟨"QUAL_PHASE", 0x84, [], false, [fd "FAR" 31 16 .rw (.const 1000) .any, fd "JUMP" 15 0 .rw (.const 1000) .any]⟩,
  ⟨"CMD", 0xC0, [], false, [fd "CMD" 31 28 .wo (.const 0) .any, fd "ENTRY" 2 0 .wo (.const 0) .any]⟩,
  ⟨"MEAS", 0x100, [], true, [fd "VALID" 31 31 .ro (.const 0) .any, fd "SEQ" 15 0 .ro (.const 0) .any]⟩,
  ⟨"MEAS_PHI", 0x104, [(8, 0x4)], true, [fd "PHI" 31 0 .ro (.const 0) .any]⟩,
  ⟨"PTP", 0x200, [(2, 0x10)], false, [fd "PROFILE" 31 31 .rw (.const 0) .any, fd "IPV6" 30 30 .rw (.const 0) .any, fd "DREQ_UNI" 29 29 .rw (.const 0) .any, fd "DOMAIN" 23 16 .rw (.const 0) .any, fd "CLASS_MAX" 7 0 .rw (.const 7) .any]⟩,
  ⟨"PTP_ASYM", 0x204, [(2, 0x10)], false, [fd "ASYM" 31 0 .rw (.const 0) .any]⟩,
  ⟨"PTP_WIN", 0x208, [(2, 0x10)], false, [fd "WIN" 5 0 .rw (.const 16) .any]⟩,
  ⟨"GNSS", 0x240, [], false, [fd "BAUD" 18 16 .rw (.const 2) .any, fd "UTC_OFS" 15 0 .lv (.const 37) .any]⟩,
  ⟨"SFREQ", 0x244, [], false, [fd "FREQ" 1 0 .rw (.const 2) .any]⟩]

/-- The registers of PEG (R122, R127, R129, R132). -/
def regsPeg : List RegDesc := [
  ⟨"CTL", 0x0, [], false, [fd "LEAD" 23 0 .rw (.const 1000) .any]⟩,
  ⟨"SNAP", 0x4, [], false, [fd "SNAP" 0 0 .wo (.const 0) .any]⟩,
  ⟨"STAT", 0x8, [], false, [fd "FREE" 28 16 .ro (.const 4096) .any, fd "PENDING" 12 0 .ro (.const 0) .any]⟩,
  ⟨"REFUSE", 0xC, [], false, [fd "COUNT" 31 0 .ro (.const 0) .any]⟩,
  ⟨"CNT", 0x10, [(4, 0x4)], false, [fd "COUNT" 31 0 .ro (.const 0) .any]⟩,
  ⟨"Q", 0x100, [(96, 0x4)], false, [fd "ARMED" 31 28 .ro (.const 0) .any, fd "PENDING" 12 0 .ro (.const 0) .any]⟩,
  ⟨"STG_CMD", 0x10000, [(3, 0x10000)], false, [fd "CMD" 31 28 .wo (.const 0) .any, fd "GROUP" 15 0 .wo (.const 0) .any]⟩,
  ⟨"STG_COUNT", 0x10004, [(3, 0x10000)], false, [fd "BUSY" 31 31 .ro (.const 0) .any, fd "COUNT" 6 0 .lv (.const 0) (.range 0 64)]⟩,
  ⟨"STG_RES", 0x10010, [(3, 0x10000)], false, [fd "VALID" 31 31 .ro (.const 0) .any, fd "OK" 30 30 .ro (.const 0) .any, fd "OP" 29 28 .ro (.const 0) .any, fd "CAUSE" 27 24 .ro (.const 0) .any, fd "SEQ" 15 0 .ro (.const 0) .any]⟩,
  ⟨"STG_RES1", 0x10014, [(3, 0x10000)], false, [fd "GROUP" 31 16 .ro (.const 0) .any, fd "COUNT" 12 6 .ro (.const 0) .any, fd "INDEX" 5 0 .ro (.const 0) .any]⟩,
  ⟨"STG_RES_AT_LO", 0x10018, [(3, 0x10000)], true, [fd "AT" 31 0 .ro (.const 0) .any]⟩,
  ⟨"STG_RES_AT_HI", 0x1001C, [(3, 0x10000)], true, [fd "AT" 31 0 .ro (.const 0) .any]⟩,
  ⟨"BUF_W0", 0x11000, [(3, 0x10000), (64, 0x118)], false, [fd "QUEUE" 31 25 .lv (.const 0) (.range 0 95), fd "KIND" 24 22 .lv (.const 0) (.range 0 5), fd "COMMIT" 21 21 .lv (.const 0) .any, fd "RPT" 20 20 .lv (.const 0) .any, fd "NWR" 19 14 .lv (.const 0) (.range 0 32), fd "ARG" 13 0 .lv (.const 0) .any]⟩,
  ⟨"BUF_W1", 0x11004, [(3, 0x10000), (64, 0x118)], false, [fd "GROUP" 31 16 .lv (.const 0) .any, fd "TAG" 15 0 .lv (.const 0) .any]⟩,
  ⟨"BUF_W2", 0x11008, [(3, 0x10000), (64, 0x118)], false, [fd "T_LO" 31 0 .lv (.const 0) .any]⟩,
  ⟨"BUF_W3", 0x1100C, [(3, 0x10000), (64, 0x118)], false, [fd "T_HI" 31 0 .lv (.const 0) .any]⟩,
  ⟨"BUF_W4", 0x11010, [(3, 0x10000), (64, 0x118)], false, [fd "WINDOW" 23 0 .lv (.const 0) (.range 1 16777215)]⟩,
  ⟨"BUF_ADDR", 0x11018, [(3, 0x10000), (64, 0x118), (32, 0x8)], false, [fd "ADDR" 25 2 .lv (.const 0) .any]⟩,
  ⟨"BUF_DATA", 0x1101C, [(3, 0x10000), (64, 0x118), (32, 0x8)], false, [fd "DATA" 31 0 .lv (.const 0) .any]⟩]

/-- The registers of TWN (R363). -/
def regsTwn : List RegDesc := [
  ⟨"CFG", 0x0, [], false, [fd "EN" 31 31 .rw (.const 0) .any, fd "MUTE_SPLIT" 30 30 .rw (.const 1) .any, fd "SIDE" 16 16 .ro (.const 0) .any, fd "TWIN_RANK" 15 8 .rw (.const 0) .any, fd "RANK" 7 0 .rw (.const 0) .any]⟩,
  ⟨"TIMING", 0x4, [], false, [fd "LOSTWAIT" 31 16 .rw (.const 100) .any, fd "MARGIN" 15 0 .rw (.const 500) .any]⟩,
  ⟨"NET", 0x8, [], false, [fd "SPLIT" 15 0 .rw (.const 20) .any]⟩,
  ⟨"WATCH", 0x10, [(4, 0x4)], false, [fd "EN" 31 31 .rw (.const 0) .any, fd "SLOT" 7 0 .rw (.const 0) .any]⟩,
  ⟨"AGREE", 0x20, [(8, 0x4)], false, [fd "AGREE" 31 0 .rw (.const 0) .any]⟩,
  ⟨"CMD", 0x40, [], false, [fd "CMD" 31 28 .wo (.const 0) .any]⟩,
  ⟨"STAT", 0x44, [], false, [fd "LINK" 8 8 .ro (.const 0) .any, fd "YIELDP" 7 7 .ro (.const 0) .any, fd "SPLIT" 6 6 .ro (.const 0) .any, fd "NETSEEN" 5 5 .ro (.const 0) .any, fd "ROLE" 4 4 .ro (.const 0) .any, fd "STATE" 2 0 .ro (.const 0) .any]⟩,
  ⟨"CLAIM_OWN", 0x48, [], false, [fd "OWN" 31 0 .ro (.const 0) .any]⟩,
  ⟨"CLAIM_TWIN", 0x4C, [], false, [fd "TWIN" 31 0 .ro (.const 0) .any]⟩,
  ⟨"CLAIM_HIGH", 0x50, [], false, [fd "HIGH" 31 0 .ro (.const 0) .any]⟩,
  ⟨"SNAP", 0x5C, [], false, [fd "SNAP" 0 0 .wo (.const 0) .any]⟩,
  ⟨"RES", 0x60, [], false, [fd "VALID" 31 31 .ro (.const 0) .any, fd "SEQ" 15 0 .ro (.const 0) .any]⟩,
  ⟨"RES_SOLO_LO", 0x64, [], true, [fd "SOLO_AT" 31 0 .ro (.const 0) .any]⟩,
  ⟨"RES_SOLO_HI", 0x68, [], true, [fd "SOLO_AT" 31 0 .ro (.const 0) .any]⟩,
  ⟨"RES_CLAIM_LO", 0x6C, [], true, [fd "CLAIM_AT" 31 0 .ro (.const 0) .any]⟩,
  ⟨"RES_CLAIM_HI", 0x70, [], true, [fd "CLAIM_AT" 31 0 .ro (.const 0) .any]⟩,
  ⟨"CNT", 0x80, [(9, 0x4)], false, [fd "COUNT" 31 0 .ro (.const 0) .any]⟩]

/-- The registers of BOL (R364). -/
def regsBol : List RegDesc := [
  ⟨"CTL", 0x0, [], false, [fd "EN" 31 31 .rw (.const 0) .any]⟩,
  ⟨"STAT", 0x4, [], false, [fd "UP" 31 31 .ro (.const 0) .any, fd "LOCK" 27 24 .ro (.const 0) .any, fd "DOWNS" 15 8 .ro (.const 0) .any]⟩,
  ⟨"CAL", 0x8, [], false, [fd "ASYM" 31 0 .rw (.const 0) .any]⟩,
  ⟨"SNAP", 0xC, [], false, [fd "SNAP" 0 0 .wo (.const 0) .any]⟩,
  ⟨"RES", 0x10, [], false, [fd "VALID" 31 31 .ro (.const 0) .any, fd "SEQ" 15 0 .ro (.const 0) .any]⟩,
  ⟨"RES_RT", 0x14, [], false, [fd "RT" 31 0 .ro (.const 0) .any]⟩,
  ⟨"CNT", 0x20, [(7, 0x4)], false, [fd "COUNT" 31 0 .ro (.const 0) .any]⟩]

/-- The registers of NET (R141, R143, R162, R164). -/
def regsNet : List RegDesc := [
  ⟨"PORT", 0x0, [(2, 0x1000)], false, [fd "EN" 31 31 .rw (.const 0) .any, fd "SPLIT" 30 30 .rw (.const 0) .any, fd "FEC" 29 28 .rw (.const 0) .any, fd "AN" 27 27 .rw (.const 1) .any, fd "MTU" 13 0 .rw (.const 1500) .any]⟩,
  ⟨"LINK", 0x4, [(2, 0x1000)], false, [fd "DOWNS" 23 16 .ro (.const 0) .any, fd "UP" 3 0 .ro (.const 0) .any]⟩,
  ⟨"IF_MAC_LO", 0x100, [(2, 0x1000), (4, 0x20)], false, [fd "MAC" 31 0 .rw (.const 0) .any]⟩,
  ⟨"IF_MAC_HI", 0x104, [(2, 0x1000), (4, 0x20)], false, [fd "MAC" 15 0 .rw (.const 0) .any]⟩,
  ⟨"IF_IPV4", 0x108, [(2, 0x1000), (4, 0x20)], false, [fd "IPV4" 31 0 .rw (.const 0) .any]⟩,
  ⟨"IF_PREFIX", 0x10C, [(2, 0x1000), (4, 0x20)], false, [fd "PREFIX6" 15 8 .rw (.const 0) .any, fd "PREFIX4" 7 0 .rw (.const 0) .any]⟩,
  ⟨"IF_IPV6", 0x110, [(2, 0x1000), (4, 0x20), (4, 0x4)], false, [fd "IPV6" 31 0 .rw (.const 0) .any]⟩,
  ⟨"CNT", 0x400, [(2, 0x1000), (4, 0x10), (4, 0x4)], false, [fd "COUNT" 31 0 .ro (.const 0) .any]⟩,
  ⟨"FLOW", 0x10000, [(1024, 0x40)], false, [fd "EN" 31 31 .rw (.const 0) .any, fd "IPV6" 30 30 .rw (.const 0) .any, fd "SRCF" 29 29 .rw (.const 0) .any, fd "PORT" 28 28 .rw (.const 0) .any, fd "SUB" 27 26 .rw (.const 0) .any, fd "TARGET" 25 24 .rw (.const 0) .any, fd "SLOT" 23 16 .rw (.const 0) .any, fd "DPORT" 15 0 .rw (.const 0) .any]⟩,
  ⟨"FLOW_VID", 0x10004, [(1024, 0x40)], false, [fd "VID" 11 0 .rw (.const 0) .any]⟩,
  ⟨"FLOW_DADDR", 0x10010, [(1024, 0x40), (4, 0x4)], false, [fd "DADDR" 31 0 .rw (.const 0) .any]⟩,
  ⟨"FLOW_SADDR", 0x10020, [(1024, 0x40), (4, 0x4)], false, [fd "SADDR" 31 0 .rw (.const 0) .any]⟩,
  ⟨"TX", 0x20000, [(32, 0x40)], false, [fd "EN" 31 31 .rw (.const 0) .any, fd "DUAL" 30 30 .rw (.const 0) .any, fd "CTX" 24 20 .rw (.const 0) .any, fd "PT" 15 9 .rw (.const 0) .any, fd "DSCP" 5 0 .rw (.const 0) .any]⟩,
  ⟨"TX_SSRC", 0x20004, [(32, 0x40)], false, [fd "SSRC" 31 0 .rw (.const 0) .any]⟩,
  ⟨"TX_SEQ", 0x20008, [(32, 0x40)], false, [fd "SEQ0" 31 16 .rw (.const 0) .any, fd "MAXPAY" 13 0 .rw (.const 0) .any]⟩,
  ⟨"TX_DELAY", 0x2000C, [(32, 0x40)], false, [fd "DELAY" 31 0 .rw (.const 20000) .any]⟩,
  ⟨"TX_SPACING", 0x20010, [(32, 0x40)], false, [fd "SPACING" 31 0 .rw (.const 0) .any]⟩,
  ⟨"TX_LEG", 0x20014, [(32, 0x40), (2, 0x4)], false, [fd "PORT" 31 31 .rw (.const 0) .any, fd "SUB" 30 29 .rw (.const 0) .any, fd "IPV6" 28 28 .rw (.const 0) .any, fd "VID" 27 16 .rw (.const 0) .any, fd "DPORT" 15 0 .rw (.const 0) .any]⟩,
  ⟨"TX_DADDR", 0x20020, [(32, 0x40), (2, 0x10), (4, 0x4)], false, [fd "DADDR" 31 0 .rw (.const 0) .any]⟩,
  ⟨"CLAIM", 0x30000, [], false, [fd "EXT_ID" 3 0 .rw (.const 1) .any]⟩,
  ⟨"HOLD", 0x30004, [], false, [fd "HIGH" 28 16 .ro (.const 0) .any, fd "NOW" 12 0 .ro (.const 0) .any]⟩]

/-- The registers of SRC (R79, R162). -/
def regsSrc : List RegDesc := [
  ⟨"CFG", 0x0, [(256, 0x100)], false, [fd "EN" 31 31 .rw (.const 0) .any, fd "KIND" 30 28 .rw (.const 0) .any, fd "UNIT" 23 16 .rw (.const 0) .any, fd "NBUF" 12 8 .rw (.const 3) .any, fd "FORMAT" 3 0 .rw (.const 0) .any]⟩,
  ⟨"RATE", 0x4, [(256, 0x100)], false, [fd "RATE" 12 0 .rw (.const 0) .any]⟩,
  ⟨"GEOM", 0x8, [(256, 0x100)], false, [fd "HEIGHT" 31 16 .rw (.const 0) .any, fd "WIDTH" 15 0 .rw (.const 0) .any]⟩,
  ⟨"POOL_LO", 0x10, [(256, 0x100)], false, [fd "POOL" 31 12 .rw (.const 0) .any]⟩,
  ⟨"POOL_HI", 0x14, [(256, 0x100)], false, [fd "POOL" 7 0 .rw (.const 0) .any]⟩,
  ⟨"STRIDE", 0x18, [(256, 0x100)], false, [fd "STRIDE" 15 0 .rw (.const 0) .any]⟩,
  ⟨"REC_LO", 0x1C, [(256, 0x100)], false, [fd "REC" 31 6 .rw (.const 0) .any]⟩,
  ⟨"REC_HI", 0x20, [(256, 0x100)], false, [fd "REC" 7 0 .rw (.const 0) .any]⟩,
  ⟨"NET", 0x24, [(256, 0x100)], false, [fd "TSMODE" 31 30 .rw (.const 0) .any, fd "DUAL" 29 29 .rw (.const 0) .any, fd "PT" 22 16 .rw (.const 96) .any]⟩,
  ⟨"RTP_OFS", 0x28, [(256, 0x100)], false, [fd "OFS" 31 0 .rw (.const 0) .any]⟩,
  ⟨"MERGE", 0x2C, [(256, 0x100)], false, [fd "SKEW" 21 16 .rw (.const 10) .any, fd "W" 15 0 .rw (.const 300) .any]⟩,
  ⟨"BS_LO", 0x30, [(256, 0x100)], false, [fd "BS" 31 16 .rw (.const 0) .any]⟩,
  ⟨"BS_HI", 0x34, [(256, 0x100)], false, [fd "BS" 7 0 .rw (.const 0) .any]⟩,
  ⟨"BS_SIZE", 0x38, [(256, 0x100)], false, [fd "SIZE" 15 0 .rw (.const 0) .any]⟩,
  ⟨"STAT", 0x40, [(256, 0x100)], false, [fd "RUN" 31 31 .ro (.const 0) .any, fd "SRMAP" 30 30 .ro (.const 0) .any, fd "LEGS" 29 28 .ro (.const 0) .any]⟩,
  ⟨"LEAD", 0x44, [(256, 0x100)], false, [fd "CLAIM" 31 0 .ro (.const 0) .any]⟩,
  ⟨"TT_POS", 0x80, [(256, 0x100)], false, [fd "Y" 31 16 .rw (.const 0) .any, fd "X" 15 0 .rw (.const 0) .any]⟩,
  ⟨"TT_SIZE", 0x84, [(256, 0x100)], false, [fd "H" 31 16 .rw (.const 0) .any, fd "W" 15 0 .rw (.const 0) .any]⟩,
  ⟨"FRESH", 0x88, [(256, 0x100)], false, [fd "DERIVE" 31 31 .rw (.const 0) .any, fd "IMP_RUN" 27 24 .rw (.const 2) .any, fd "IMP_HOLD" 15 0 .rw (.const 1000) .any]⟩,
  ⟨"LAT", 0x8C, [(256, 0x100)], false, [fd "BOUND" 31 0 .rw (.const 0) .any]⟩,
  ⟨"CNT", 0x90, [(256, 0x100), (8, 0x4)], false, [fd "COUNT" 31 0 .ro (.const 0) .any]⟩,
  ⟨"SNAP", 0x10000, [], false, [fd "SNAP" 0 0 .wo (.const 0) .any]⟩]

/-- The registers of VDC (R197, R198). -/
def regsVdc : List RegDesc := [
  ⟨"POOL_LO", 0x0, [], false, [fd "BASE" 31 12 .rw (.const 0) .any]⟩,
  ⟨"POOL_HI", 0x4, [], false, [fd "BASE" 7 0 .rw (.const 0) .any]⟩,
  ⟨"POOL_CFG", 0x8, [], false, [fd "STRIDE" 31 16 .rw (.const 0) .any, fd "COUNT" 11 0 .rw (.const 0) .any]⟩,
  ⟨"MARK_LO", 0xC, [], false, [fd "BASE" 31 6 .rw (.const 0) .any]⟩,
  ⟨"MARK_HI", 0x10, [], false, [fd "BASE" 7 0 .rw (.const 0) .any]⟩,
  ⟨"SNAP", 0x14, [], false, [fd "SNAP" 0 0 .wo (.const 0) .any]⟩,
  ⟨"ENG", 0x100, [(8, 0x10)], false, [fd "BUSY" 31 31 .ro (.const 0) .any, fd "SWAP" 30 30 .ro (.const 0) .any, fd "CTX" 7 0 .ro (.const 0) .any]⟩,
  ⟨"ENG_CNT", 0x104, [(8, 0x10), (3, 0x4)], false, [fd "COUNT" 31 0 .ro (.const 0) .any]⟩,
  ⟨"CTX", 0x10000, [(256, 0x40)], false, [fd "EN" 31 31 .rw (.const 0) .any, fd "CODEC" 30 30 .rw (.const 0) .any, fd "CLASS" 29 27 .lv (.const 7) .any, fd "SLOT" 23 16 .rw (.const 0) .any]⟩,
  ⟨"CTX_MAX", 0x10004, [(256, 0x40)], false, [fd "MAXH" 31 16 .rw (.const 0) .any, fd "MAXW" 15 0 .rw (.const 0) .any]⟩,
  ⟨"CTX_REF", 0x10008, [(256, 0x40)], false, [fd "FIRST" 26 16 .rw (.const 0) .any, fd "NREF" 5 0 .rw (.const 0) .any]⟩,
  ⟨"CTX_RES", 0x10010, [(256, 0x40)], false, [fd "VALID" 31 31 .ro (.const 0) .any, fd "SEQ" 15 0 .ro (.const 0) .any]⟩,
  ⟨"CTX_STAT", 0x10014, [(256, 0x40)], false, [fd "LEVEL" 31 24 .ro (.const 0) .any, fd "PROFILE" 23 16 .ro (.const 0) .any, fd "CAUSE" 15 8 .ro (.const 0) .any, fd "TAINT" 3 3 .ro (.const 0) .any, fd "STATE" 2 0 .ro (.const 0) .any]⟩,
  ⟨"CTX_LASTC_LO", 0x10018, [(256, 0x40)], true, [fd "LAST_C" 31 0 .ro (.const 0) .any]⟩,
  ⟨"CTX_LASTC_HI", 0x1001C, [(256, 0x40)], true, [fd "LAST_C" 31 0 .ro (.const 0) .any]⟩,
  ⟨"CTX_CNT", 0x10020, [(256, 0x40), (6, 0x4)], false, [fd "COUNT" 31 0 .ro (.const 0) .any]⟩]

/-- The registers of VEC (R197, R199). -/
def regsVec : List RegDesc := [
  ⟨"SNAP", 0x14, [], false, [fd "SNAP" 0 0 .wo (.const 0) .any]⟩,
  ⟨"ENG", 0x100, [(4, 0x10)], false, [fd "BUSY" 31 31 .ro (.const 0) .any, fd "SWAP" 30 30 .ro (.const 0) .any, fd "CTX" 7 0 .ro (.const 0) .any]⟩,
  ⟨"ENG_CNT", 0x104, [(4, 0x10), (3, 0x4)], false, [fd "COUNT" 31 0 .ro (.const 0) .any]⟩,
  ⟨"CTX", 0x10000, [(32, 0x80)], false, [fd "EN" 31 31 .rw (.const 0) .any, fd "CODEC" 30 30 .rw (.const 0) .any, fd "PROFILE" 29 28 .rw (.const 0) .any, fd "CLASS" 27 25 .rw (.const 3) .any, fd "LEVEL_IDC" 23 16 .rw (.const 0) .any, fd "SLOT" 15 8 .rw (.const 0) .any, fd "SLICE_ROWS" 0 0 .rw (.const 0) .any]⟩,
  ⟨"CTX_PERIOD", 0x10004, [(32, 0x80)], false, [fd "PERIOD" 19 0 .rw (.const 20000) .any]⟩,
  ⟨"CTX_INWAIT", 0x10008, [(32, 0x80)], false, [fd "INWAIT" 18 0 .rw (.const 10000) .any]⟩,
  ⟨"CTX_GOP", 0x1000C, [(32, 0x80)], false, [fd "GOP" 15 0 .rw (.const 50) .any]⟩,
  ⟨"CTX_RC", 0x10010, [(32, 0x80)], false, [fd "MODE" 31 31 .rw (.const 1) .any, fd "QP_MIN" 29 24 .rw (.const 10) .any, fd "QP_MAX" 21 16 .rw (.const 48) .any, fd "QP_BASE" 13 8 .rw (.const 30) .any, fd "I_DELTA" 3 0 .rw (.const 3) .any]⟩,
  ⟨"CTX_RATE", 0x10014, [(32, 0x80)], false, [fd "RATE" 18 0 .rw (.const 20000) .any]⟩,
  ⟨"CTX_VBV", 0x10018, [(32, 0x80)], false, [fd "VBV" 13 0 .rw (.const 500) .any]⟩,
  ⟨"CTX_ME", 0x1001C, [(32, 0x80)], false, [fd "RANGE" 25 16 .rw (.const 128) .any, fd "INTRA_BIAS" 15 8 .rw (.const 16) .any, fd "R" 3 0 .rw (.const 4) .any]⟩,
  ⟨"CTX_PEND", 0x10020, [(32, 0x80)], false, [fd "IDR" 31 31 .lv (.const 0) .any, fd "QP_EN" 30 30 .lv (.const 0) .any, fd "RATE_EN" 29 29 .lv (.const 0) .any, fd "GV_EN" 28 28 .lv (.const 0) .any, fd "P_QP" 5 0 .lv (.const 30) .any]⟩,
  ⟨"CTX_PRATE", 0x10024, [(32, 0x80)], false, [fd "P_RATE" 18 0 .lv (.const 20000) (.range 100 400000)]⟩,
  ⟨"CTX_GV", 0x10028, [(32, 0x80)], false, [fd "GV_Y" 31 16 .lv (.const 0) (.srange (-2048) 2047), fd "GV_X" 15 0 .lv (.const 0) (.srange (-2048) 2047)]⟩,
  ⟨"CTX_APPLY_LO", 0x1002C, [(32, 0x80)], false, [fd "APPLY" 31 0 .lv (.const 0) .any]⟩,
  ⟨"CTX_APPLY_HI", 0x10030, [(32, 0x80)], false, [fd "APPLY" 31 0 .lv (.const 0) .any]⟩,
  ⟨"CTX_CMD", 0x10034, [(32, 0x80)], false, [fd "CMD" 31 28 .wo (.const 0) .any]⟩,
  ⟨"CTX_REFS", 0x10038, [(32, 0x80)], false, [fd "REFS" 26 16 .rw (.const 0) .any]⟩,
  ⟨"CTX_RES", 0x10040, [(32, 0x80)], false, [fd "VALID" 31 31 .ro (.const 0) .any, fd "SEQ" 15 0 .ro (.const 0) .any]⟩,
  ⟨"CTX_STAT", 0x10044, [(32, 0x80)], false, [fd "ARMED" 8 8 .ro (.const 0) .any, fd "QP" 7 2 .ro (.const 0) .any, fd "STATE" 1 0 .ro (.const 0) .any]⟩,
  ⟨"CTX_BUCKET", 0x10048, [(32, 0x80)], false, [fd "BUCKET" 31 0 .ro (.const 0) .any]⟩,
  ⟨"CTX_APPLIED", 0x1004C, [(32, 0x80)], false, [fd "APPLIED" 31 0 .ro (.const 0) .any]⟩,
  ⟨"CTX_CNT", 0x10060, [(32, 0x80), (3, 0x4)], false, [fd "COUNT" 31 0 .ro (.const 0) .any]⟩]

/-- The registers of CAM (R221). -/
def regsCam : List RegDesc := [
  ⟨"CTL", 0x0, [(8, 0x10000)], false, [fd "EN" 31 31 .rw (.const 0) .any, fd "LANES" 30 29 .rw (.const 2) .any, fd "DEPTH" 28 27 .rw (.const 0) .any, fd "CFA" 26 25 .rw (.const 0) .any, fd "VC" 24 23 .rw (.const 0) .any, fd "CCI_I3C" 22 22 .rw (.const 0) .any, fd "CCI_FAST" 21 21 .rw (.const 1) .any, fd "CCI_ADDR" 20 14 .rw (.const 0) .any, fd "LANE_MBPS" 12 0 .rw (.const 1500) .any]⟩,
  ⟨"SIZE", 0x4, [(8, 0x10000)], false, [fd "HEIGHT" 31 16 .rw (.const 0) .any, fd "WIDTH" 15 0 .rw (.const 0) .any]⟩,
  ⟨"PROF0", 0x8, [(8, 0x10000)], false, [fd "L" 31 30 .rw (.const 1) .any, fd "ED" 29 29 .rw (.const 0) .any, fd "CCI_WIN" 15 0 .rw (.const 2000) .any]⟩,
  ⟨"PROF1", 0xC, [(8, 0x10000)], false, [fd "LINE_NS" 19 0 .rw (.const 10000) .any]⟩,
  ⟨"PROF2", 0x10, [(8, 0x10000)], false, [fd "FS_OFS" 23 0 .rw (.const 0) .any]⟩,
  ⟨"PROF3", 0x14, [(8, 0x10000), (3, 0x4)], false, [fd "REG" 31 16 .rw (.const 0) .any, fd "BYTES" 2 0 .rw (.const 0) .any]⟩,
  ⟨"PROF6", 0x20, [(8, 0x10000)], false, [fd "ED_EXP" 27 16 .rw (.const 4095) .any, fd "ED_AGAIN" 11 0 .rw (.const 4095) .any]⟩,
  ⟨"PROF7", 0x24, [(8, 0x10000)], false, [fd "ED_DGAIN" 11 0 .rw (.const 4095) .any]⟩,
  ⟨"FSYNC", 0x28, [(8, 0x10000)], false, [fd "EN" 31 31 .rw (.const 0) .any, fd "PERIOD" 23 0 .rw (.const 33333) .any]⟩,
  ⟨"FSYNC_PH", 0x2C, [(8, 0x10000)], false, [fd "PHASE" 23 0 .rw (.const 0) .any]⟩,
  ⟨"MCLK", 0x30, [(8, 0x10000)], false, [fd "EN" 31 31 .rw (.const 0) .any, fd "KHZ" 15 0 .rw (.const 24000) .any]⟩,
  ⟨"BL", 0x40, [(8, 0x10000), (2, 0x4)], false, [fd "BL_ODD" 27 16 .rw (.const 0) .any, fd "BL_EVEN" 11 0 .rw (.const 0) .any]⟩,
  ⟨"DPC", 0x48, [(8, 0x10000)], false, [fd "DYN_EN" 31 31 .rw (.const 1) .any, fd "COUNT" 28 16 .rw (.const 0) .any, fd "THR" 13 0 .rw (.const 1024) .any]⟩,
  ⟨"LSC", 0x4C, [(8, 0x10000)], false, [fd "EN" 31 31 .rw (.const 0) .any, fd "CH" 24 16 .rw (.const 64) .any, fd "CW" 8 0 .rw (.const 64) .any]⟩,
  ⟨"DMS", 0x50, [(8, 0x10000)], false, [fd "THR" 13 0 .rw (.const 256) .any]⟩,
  ⟨"CCM", 0x60, [(8, 0x10000), (9, 0x4)], false, [fd "COEF" 15 0 .rw (.byIdx [1024, 0, 0, 0, 1024, 0, 0, 0, 1024]) .any]⟩,
  ⟨"OUT", 0x100, [(8, 0x10000), (3, 0x20)], false, [fd "EN" 31 31 .rw (.const 0) .any, fd "YCC" 30 30 .rw (.const 0) .any, fd "SLOT" 7 0 .rw (.const 0) .any]⟩,
  ⟨"OUT_ORG", 0x104, [(8, 0x10000), (3, 0x20)], false, [fd "Y" 31 16 .rw (.const 0) .any, fd "X" 15 0 .rw (.const 0) .any]⟩,
  ⟨"OUT_CROP", 0x108, [(8, 0x10000), (3, 0x20)], false, [fd "CH" 31 16 .rw (.const 0) .any, fd "CW" 15 0 .rw (.const 0) .any]⟩,
  ⟨"OUT_SIZE", 0x10C, [(8, 0x10000), (3, 0x20)], false, [fd "OH" 31 16 .rw (.const 0) .any, fd "OW" 15 0 .rw (.const 0) .any]⟩,
  ⟨"STAT_LO", 0x180, [(8, 0x10000)], false, [fd "BASE" 31 6 .rw (.const 0) .any]⟩,
  ⟨"STAT_HI", 0x184, [(8, 0x10000)], false, [fd "BASE" 7 0 .rw (.const 0) .any]⟩,
  ⟨"STAT_N", 0x188, [(8, 0x10000)], false, [fd "NSTAT" 4 0 .rw (.const 2) .any]⟩,
  ⟨"STAT_FOC_ORG", 0x18C, [(8, 0x10000)], false, [fd "Y" 31 16 .rw (.const 0) .any, fd "X" 15 0 .rw (.const 0) .any]⟩,
  ⟨"STAT_FOC_SIZE", 0x190, [(8, 0x10000)], false, [fd "H" 31 16 .rw (.const 0) .any, fd "W" 15 0 .rw (.const 0) .any]⟩,
  ⟨"BND_EXP", 0x200, [(8, 0x10000)], false, [fd "EXP" 23 0 .lv (.const 0) .any]⟩,
  ⟨"BND_GAIN", 0x204, [(8, 0x10000)], false, [fd "AGAIN" 31 16 .lv (.const 0) .any, fd "DGAIN" 15 0 .lv (.const 0) .any]⟩,
  ⟨"BND_WB", 0x208, [(8, 0x10000), (2, 0x4)], false, [fd "WB_ODD" 31 16 .lv (.const 4096) .any, fd "WB_EVEN" 15 0 .lv (.const 4096) .any]⟩,
  ⟨"BND_NUM", 0x210, [(8, 0x10000)], false, [fd "NUM" 15 0 .lv (.const 0) (.range 0 65534)]⟩,
  ⟨"RES", 0x300, [(8, 0x10000)], false, [fd "VALID" 31 31 .ro (.const 0) .any, fd "SEQ" 15 0 .ro (.const 0) .any]⟩,
  ⟨"RES_FRAME", 0x304, [(8, 0x10000)], false, [fd "FRAME" 31 0 .ro (.const 0) .any]⟩,
  ⟨"RES_BUNDLE", 0x308, [(8, 0x10000)], false, [fd "BUNDLE" 31 16 .ro (.const 0) .any, fd "FLAGS" 15 0 .ro (.const 0) .any]⟩,
  ⟨"RES_LASTC_LO", 0x30C, [(8, 0x10000)], true, [fd "LAST_C" 31 0 .ro (.const 0) .any]⟩,
  ⟨"RES_LASTC_HI", 0x310, [(8, 0x10000)], true, [fd "LAST_C" 31 0 .ro (.const 0) .any]⟩,
  ⟨"SNAP", 0x314, [(8, 0x10000)], false, [fd "SNAP" 0 0 .wo (.const 0) .any]⟩,
  ⟨"CNT", 0x380, [(8, 0x10000), (7, 0x4)], false, [fd "COUNT" 31 0 .ro (.const 0) .any]⟩,
  ⟨"LSC_TAB", 0x2000, [(8, 0x10000), (6144, 0x4)], false, [fd "G_ODD" 31 16 .rw (.const 4096) .any, fd "G_EVEN" 15 0 .rw (.const 4096) .any]⟩,
  ⟨"DPC_TAB", 0x8000, [(8, 0x10000), (4096, 0x4)], false, [fd "Y" 31 16 .rw (.const 0) .any, fd "X" 15 0 .rw (.const 0) .any]⟩,
  ⟨"TONE", 0xC000, [(8, 0x10000), (129, 0x4)], false, [fd "T" 9 0 .rw .tone .any]⟩]

/-- The registers of CAP (R227). -/
def regsCap : List RegDesc := [
  ⟨"PORT", 0x0, [(4, 0x1000)], false, [fd "EN" 31 31 .rw (.const 0) .any, fd "MAXRATE" 30 28 .rw (.const 4) .any, fd "MAXLANES" 27 26 .rw (.const 2) .any, fd "ENC" 25 24 .rw (.const 0) .any, fd "BPC10" 23 23 .rw (.const 1) .any, fd "SLOT" 7 0 .rw (.const 0) .any]⟩,
  ⟨"STAT", 0x4, [(4, 0x1000)], false, [fd "HPD" 31 31 .ro (.const 0) .any, fd "TRAINED" 30 30 .ro (.const 0) .any, fd "RATE" 29 27 .ro (.const 0) .any, fd "LANES" 26 25 .ro (.const 0) .any, fd "VIDEO" 24 24 .ro (.const 0) .any, fd "DOWNS" 23 16 .ro (.const 0) .any]⟩,
  ⟨"MSA", 0x8, [(4, 0x1000)], false, [fd "HEIGHT" 31 16 .ro (.const 0) .any, fd "WIDTH" 15 0 .ro (.const 0) .any]⟩,
  ⟨"PERIOD", 0xC, [(4, 0x1000)], false, [fd "PERIOD" 31 0 .ro (.const 0) .any]⟩,
  ⟨"CNT", 0x10, [(4, 0x1000), (4, 0x4)], false, [fd "COUNT" 31 0 .ro (.const 0) .any]⟩,
  ⟨"EDID", 0x800, [(4, 0x1000), (64, 0x4)], false, [fd "BYTES" 31 0 .rw (.const 0) .any]⟩]

/-- The registers of PNT (R253). -/
def regsPnt : List RegDesc := [
  ⟨"CTL", 0x0, [], false, [fd "EN" 31 31 .rw (.const 0) .any, fd "NPTS" 23 0 .rw (.const 0) .any]⟩,
  ⟨"TAB_LO", 0x4, [], false, [fd "BASE" 31 12 .rw (.const 0) .any]⟩,
  ⟨"TAB_HI", 0x8, [], false, [fd "BASE" 7 0 .rw (.const 0) .any]⟩,
  ⟨"JRN_LO", 0xC, [], false, [fd "BASE" 31 12 .rw (.const 0) .any]⟩,
  ⟨"JRN_HI", 0x10, [], false, [fd "BASE" 7 0 .rw (.const 0) .any]⟩,
  ⟨"JRN_SIZE", 0x14, [], false, [fd "LOG2" 4 0 .rw (.const 16) .any]⟩,
  ⟨"SWEEP", 0x18, [], false, [fd "PERIOD" 15 0 .lv (.const 1000) (.range 100 60000)]⟩,
  ⟨"SNAP", 0x1C, [], false, [fd "SNAP" 0 0 .wo (.const 0) .any]⟩,
  ⟨"JCOUNT_LO", 0x20, [], true, [fd "COUNT" 31 0 .ro (.const 0) .any]⟩,
  ⟨"JCOUNT_HI", 0x24, [], true, [fd "COUNT" 31 0 .ro (.const 0) .any]⟩,
  ⟨"SWRES", 0x30, [], false, [fd "VALID" 31 31 .ro (.const 0) .any, fd "SEQ" 15 0 .ro (.const 0) .any]⟩,
  ⟨"SWRES_ST_LO", 0x34, [], true, [fd "STAMP" 31 0 .ro (.const 0) .any]⟩,
  ⟨"SWRES_ST_HI", 0x38, [], true, [fd "STAMP" 31 0 .ro (.const 0) .any]⟩,
  ⟨"SWRES_SILENT", 0x3C, [], false, [fd "SILENT" 23 0 .ro (.const 0) .any]⟩,
  ⟨"CNT", 0x100, [(16, 0x4)], false, [fd "COUNT" 31 0 .ro (.const 0) .any]⟩,
  ⟨"APPLIED", 0x140, [], false, [fd "COUNT" 31 0 .ro (.const 0) .any]⟩,
  ⟨"OFF", 0x144, [], false, [fd "COUNT" 31 0 .ro (.const 0) .any]⟩,
  ⟨"FEED", 0x1000, [(256, 0x20)], false, [fd "EN" 31 31 .rw (.const 0) .any, fd "NOSTAMP" 30 30 .rw (.const 0) .any, fd "FLOW1_EN" 29 29 .rw (.const 0) .any, fd "FLOW1" 25 16 .rw (.const 0) .any, fd "FLOW0" 9 0 .rw (.const 0) .any]⟩,
  ⟨"FEED_LAT", 0x1004, [(256, 0x20)], false, [fd "LAT" 23 0 .rw (.const 0) .any]⟩,
  ⟨"FEED_RESYNC", 0x1008, [(256, 0x20)], false, [fd "RESYNC" 15 0 .rw (.const 1000) .any]⟩,
  ⟨"FEED_FIRST", 0x100C, [(256, 0x20)], false, [fd "FIRST" 22 0 .rw (.const 0) .any]⟩,
  ⟨"FEED_COUNT", 0x1010, [(256, 0x20)], false, [fd "COUNT" 23 0 .rw (.const 0) .any]⟩,
  ⟨"FEED_STAT", 0x1014, [(256, 0x20)], false, [fd "SYNC" 31 31 .ro (.const 0) .any, fd "LAST" 15 0 .ro (.const 0) .any]⟩,
  ⟨"FEED_LASTA_LO", 0x1018, [(256, 0x20)], true, [fd "LAST_A" 31 0 .ro (.const 0) .any]⟩,
  ⟨"FEED_LASTA_HI", 0x101C, [(256, 0x20)], true, [fd "LAST_A" 31 0 .ro (.const 0) .any]⟩,
  ⟨"FCNT", 0x3000, [(256, 0x10), (4, 0x4)], false, [fd "COUNT" 31 0 .ro (.const 0) .any]⟩,
  ⟨"AGECL", 0x4000, [(64, 0x4)], false, [fd "LIMIT" 22 0 .lv (.const 0) .any]⟩,
  ⟨"LIMCL", 0x4240, [(15, 0x40)], false, [fd "KIND" 1 0 .rw (.const 0) .any]⟩,
  ⟨"LIMCL_V", 0x4248, [(15, 0x40), (8, 0x4)], false, [fd "V" 31 0 .rw (.const 0) .any]⟩,
  ⟨"PAL", 0x4808, [(15, 0x8)], false, [fd "R" 29 20 .rw (.const 0) .any, fd "G" 19 10 .rw (.const 0) .any, fd "B" 9 0 .rw (.const 0) .any]⟩,
  ⟨"PAL_ALPHA", 0x480C, [(15, 0x8)], false, [fd "ALPHA" 7 0 .rw (.const 0) .any]⟩]

/-- The registers of CHK (R254). -/
def regsChk : List RegDesc := [
  ⟨"CFG", 0x0, [(16, 0x100)], false, [fd "EN" 31 31 .lv (.byIdx [1, 1, 1, 1, 1]) .any, fd "MODE" 30 30 .lv (.byIdx [1, 1, 0, 1, 0]) .any, fd "ALIVE" 29 28 .lv (.byIdx [0, 0, 2, 2, 0]) (.range 0 2), fd "POLY" 2 0 .lv (.const 3) (.range 0 4)]⟩,
  ⟨"CMD", 0x4, [(16, 0x100)], false, [fd "CMD" 31 28 .wo (.const 0) .any]⟩,
  ⟨"FEED_B", 0x8, [(16, 0x100)], false, [fd "DATA" 7 0 .wo (.const 0) .any]⟩,
  ⟨"FEED_H", 0xC, [(16, 0x100)], false, [fd "DATA" 15 0 .wo (.const 0) .any]⟩,
  ⟨"FEED_W", 0x10, [(16, 0x100)], false, [fd "DATA" 31 0 .wo (.const 0) .any]⟩,
  ⟨"RES", 0x20, [(16, 0x100)], false, [fd "VALID" 31 31 .ro (.const 0) .any, fd "OK" 30 30 .ro (.const 0) .any, fd "REPEAT" 29 29 .ro (.const 0) .any, fd "GAP" 28 28 .ro (.const 0) .any, fd "OPEN" 27 27 .ro (.const 0) .any, fd "SEQ" 15 0 .ro (.const 0) .any]⟩,
  ⟨"RES_ALIVE", 0x24, [(16, 0x100)], false, [fd "ALIVE" 15 0 .ro (.const 0) .any]⟩,
  ⟨"RES_LENGTH", 0x28, [(16, 0x100)], false, [fd "LENGTH" 31 0 .ro (.const 0) .any]⟩,
  ⟨"RES_CHECK_LO", 0x2C, [(16, 0x100)], true, [fd "CHECK" 31 0 .ro (.const 0) .any]⟩,
  ⟨"RES_CHECK_HI", 0x30, [(16, 0x100)], true, [fd "CHECK" 31 0 .ro (.const 0) .any]⟩,
  ⟨"CNT", 0x40, [(16, 0x100), (3, 0x4)], false, [fd "COUNT" 31 0 .ro (.const 0) .any]⟩,
  ⟨"SNAP", 0x1000, [], false, [fd "SNAP" 0 0 .wo (.const 0) .any]⟩]

/-- The registers of CMP (R286). -/
def regsCmp : List RegDesc := [
  ⟨"CTL", 0x0, [(32, 0x10000)], false, [fd "AUDIT" 31 31 .lv (.const 0) .any]⟩,
  ⟨"BG", 0x4, [(32, 0x10000)], false, [fd "R" 29 20 .lv (.const 0) .any, fd "G" 19 10 .lv (.const 0) .any, fd "B" 9 0 .lv (.const 0) .any]⟩,
  ⟨"FIELD_LO", 0x8, [(32, 0x10000)], false, [fd "BASE" 31 12 .rw (.const 0) .any]⟩,
  ⟨"FIELD_HI", 0xC, [(32, 0x10000)], false, [fd "BASE_HI" 7 0 .rw (.const 0) .any]⟩,
  ⟨"ALPHA", 0x10, [(32, 0x10000), (9, 0x4)], false, [fd "ALPHA" 7 0 .lv (.const 255) .any]⟩,
  ⟨"WB", 0x40, [(32, 0x10000)], false, [fd "EN" 31 31 .rw (.const 0) .any, fd "PTR" 30 30 .rw (.const 0) .any, fd "SLOT" 7 0 .rw (.const 0) .any]⟩,
  ⟨"PTR", 0x50, [(32, 0x10000)], false, [fd "EN" 31 31 .lv (.const 0) .any, fd "IMG" 13 0 .lv (.const 0) .any]⟩,
  ⟨"PTR_XY", 0x54, [(32, 0x10000)], false, [fd "Y" 31 16 .lv (.const 0) .any, fd "X" 15 0 .lv (.const 0) .any]⟩,
  ⟨"CMD", 0x60, [(32, 0x10000)], false, [fd "CMD" 31 28 .wo (.const 0) .any]⟩,
  ⟨"STAT", 0x64, [(32, 0x10000)], false, [fd "PENDING" 31 31 .ro (.const 0) .any, fd "AUDIT" 30 30 .ro (.const 0) .any]⟩,
  ⟨"SNAP", 0x68, [(32, 0x10000)], false, [fd "SNAP" 0 0 .wo (.const 0) .any]⟩,
  ⟨"RES", 0x70, [(32, 0x10000)], false, [fd "VALID" 31 31 .ro (.const 0) .any, fd "OK" 30 30 .ro (.const 0) .any, fd "CAUSE" 27 24 .ro (.const 0) .any, fd "SEQ" 15 0 .ro (.const 0) .any]⟩,
  ⟨"RES_INDEX", 0x74, [(32, 0x10000)], false, [fd "INDEX" 18 0 .ro (.const 0) .any]⟩,
  ⟨"RES_AT_LO", 0x78, [(32, 0x10000)], true, [fd "AT" 31 0 .ro (.const 0) .any]⟩,
  ⟨"RES_AT_HI", 0x7C, [(32, 0x10000)], true, [fd "AT" 31 0 .ro (.const 0) .any]⟩,
  ⟨"CNT", 0x80, [(32, 0x10000), (6, 0x4)], false, [fd "COUNT" 31 0 .ro (.const 0) .any]⟩,
  ⟨"BG_CUR", 0x804, [(32, 0x10000)], false, [fd "R" 29 20 .ro (.const 0) .any, fd "G" 19 10 .ro (.const 0) .any, fd "B" 9 0 .ro (.const 0) .any]⟩,
  ⟨"ALPHA_CUR", 0x810, [(32, 0x10000), (9, 0x4)], false, [fd "ALPHA" 7 0 .ro (.const 255) .any]⟩]

/-- The registers of FLY (R74, R75, R76). -/
def regsFly : List RegDesc := [
  ⟨"CTL", 0x0, [], false, [fd "BADGE_X2" 16 16 .rw (.const 0) .any, fd "EVT_CAP" 9 0 .rw (.const 64) .any]⟩,
  ⟨"SNAP", 0x4, [], false, [fd "SNAP" 0 0 .wo (.const 0) .any]⟩,
  ⟨"MISS", 0x8, [], false, [fd "COUNT" 31 0 .ro (.const 0) .any]⟩,
  ⟨"CNT", 0x100, [(32, 0x20)], true, [fd "VALID" 31 31 .ro (.const 0) .any, fd "SEQ" 15 0 .ro (.const 0) .any]⟩,
  ⟨"CNT_FRAME", 0x104, [(32, 0x20)], true, [fd "FRAME" 31 0 .ro (.const 0) .any]⟩,
  ⟨"CNT_N", 0x108, [(32, 0x20), (6, 0x4)], true, [fd "N" 19 0 .ro (.const 0) .any]⟩,
  ⟨"STYLE_A", 0x1000, [(8, 0x40), (5, 0xC)], false, [fd "R" 29 20 .rw (.byIdx [1023, 1023, 0, 1023, 512]) .any, fd "G" 19 10 .rw (.byIdx [1023, 704, 1023, 0, 512]) .any, fd "B" 9 0 .rw (.byIdx [0, 0, 1023, 1023, 512]) .any]⟩,
  ⟨"STYLE_B", 0x1004, [(8, 0x40), (5, 0xC)], false, [fd "R" 29 20 .rw (.const 0) .any, fd "G" 19 10 .rw (.const 0) .any, fd "B" 9 0 .rw (.const 0) .any]⟩,
  ⟨"STYLE_M", 0x1008, [(8, 0x40), (5, 0xC)], false, [fd "ALPHA" 7 0 .rw (.byIdx [255, 192, 255, 255, 255]) .any]⟩]

/-- The registers of HED (R311). -/
def regsHed : List RegDesc := [
  ⟨"CTL", 0x0, [(32, 0x1000)], false, [fd "EN" 31 31 .lv (.const 0) .any]⟩,
  ⟨"SNAP", 0x4, [(32, 0x1000)], false, [fd "SNAP" 0 0 .wo (.const 0) .any]⟩,
  ⟨"HTIM", 0x10, [(32, 0x1000)], false, [fd "H_TOTAL" 31 16 .rw (.const 0) .any, fd "H_ACTIVE" 15 0 .rw (.const 0) .any]⟩,
  ⟨"HSYNC", 0x14, [(32, 0x1000)], false, [fd "HPOS" 31 31 .rw (.const 1) .any, fd "HFP" 29 16 .rw (.const 0) .any, fd "HSW" 13 0 .rw (.const 0) .any]⟩,
  ⟨"VTIM", 0x18, [(32, 0x1000)], false, [fd "V_TOTAL" 31 16 .rw (.const 0) .any, fd "V_ACTIVE" 15 0 .rw (.const 0) .any]⟩,
  ⟨"VSYNC", 0x1C, [(32, 0x1000)], false, [fd "VPOS" 31 31 .rw (.const 1) .any, fd "VFP" 29 16 .rw (.const 0) .any, fd "VSW" 13 0 .rw (.const 0) .any]⟩,
  ⟨"PERIOD", 0x20, [(32, 0x1000)], false, [fd "NS" 26 0 .rw (.const 0x1312D00) .any]⟩,
  ⟨"PERIOD_FRAC", 0x24, [(32, 0x1000)], false, [fd "FRAC" 15 0 .rw (.const 0) .any]⟩,
  ⟨"PHASE", 0x28, [(32, 0x1000)], false, [fd "NS" 26 0 .rw (.const 0) .any]⟩,
  ⟨"OUT", 0x30, [(32, 0x1000)], false, [fd "DEST" 31 30 .rw (.const 0) .any, fd "PORT" 29 27 .rw (.const 0) .any, fd "STREAM" 26 25 .rw (.const 0) .any, fd "DSC_EN" 24 24 .rw (.const 0) .any, fd "DSC" 23 20 .rw (.const 0) .any, fd "FMT" 19 18 .rw (.const 1) .any]⟩,
  ⟨"PULSE", 0x34, [(32, 0x1000)], false, [fd "Y" 31 16 .rw (.const 0) .any, fd "X" 15 0 .rw (.const 0) .any]⟩,
  ⟨"PULSE_LVL", 0x38, [(32, 0x1000)], false, [fd "HI" 9 0 .rw (.const 1023) .any]⟩,
  ⟨"FETCH", 0x3C, [(32, 0x1000)], false, [fd "PANIC" 5 0 .rw (.const 24) .any]⟩,
  ⟨"FREEZE", 0x40, [(32, 0x1000)], false, [fd "RUN" 7 0 .rw (.const 2) .any]⟩,
  ⟨"LCMP", 0x44, [(32, 0x1000), (2, 0x4)], false, [fd "EN" 31 31 .lv (.const 0) .any, fd "LINE" 15 0 .lv (.const 0) .dyn]⟩,
  ⟨"GPO", 0x4C, [(32, 0x1000)], false, [fd "EN" 31 31 .rw (.const 0) .any, fd "PIN" 28 24 .rw (.const 0) .any, fd "LEVEL" 0 0 .lv (.const 0) .any]⟩,
  ⟨"IRQ", 0x50, [(32, 0x1000)], false, [fd "MASK" 4 0 .lv (.const 0) .any]⟩,
  ⟨"STAT", 0x60, [(32, 0x1000)], false, [fd "RUN" 31 30 .ro (.const 0) .any, fd "PANIC" 29 29 .ro (.const 0) .any, fd "SFRZ" 28 28 .ro (.const 0) .any, fd "LFRZ" 27 27 .ro (.const 0) .any, fd "CARRIED" 26 26 .ro (.const 0) .any, fd "LEAD" 5 0 .ro (.const 0) .any]⟩,
  ⟨"RES", 0x70, [(32, 0x1000)], false, [fd "VALID" 31 31 .ro (.const 0) .any, fd "SEQ" 15 0 .ro (.const 0) .any]⟩,
  ⟨"RES_FRAME_LO", 0x74, [(32, 0x1000)], true, [fd "FRAME" 31 0 .ro (.const 0) .any]⟩,
  ⟨"RES_FRAME_HI", 0x78, [(32, 0x1000)], true, [fd "FRAME" 15 0 .ro (.const 0) .any]⟩,
  ⟨"RES_FS_LO", 0x7C, [(32, 0x1000)], true, [fd "FS" 31 0 .ro (.const 0) .any]⟩,
  ⟨"RES_FS_HI", 0x80, [(32, 0x1000)], true, [fd "FS" 31 0 .ro (.const 0) .any]⟩,
  ⟨"RES_FRAC", 0x84, [(32, 0x1000)], false, [fd "FS_FRAC" 31 16 .ro (.const 0) .any]⟩,
  ⟨"RES_SIG", 0x88, [(32, 0x1000)], false, [fd "SIG" 31 0 .ro (.const 0) .any]⟩,
  ⟨"RES_LSIG", 0x8C, [(32, 0x1000)], false, [fd "LSIG" 31 0 .ro (.const 0) .any]⟩,
  ⟨"RES_FILL", 0x90, [(32, 0x1000)], false, [fd "FILLED" 31 16 .ro (.const 0) .any, fd "MINLEAD" 5 0 .ro (.const 0) .any]⟩,
  ⟨"CNT", 0xA0, [(32, 0x1000), (8, 0x4)], false, [fd "COUNT" 31 0 .ro (.const 0) .any]⟩]

/-- The registers of DPT (R312, R313). -/
def regsDpt : List RegDesc := [
  ⟨"CTL", 0x0, [(8, 0x1000)], false, [fd "EN" 31 31 .rw (.const 0) .any, fd "MST" 30 30 .rw (.const 0) .any, fd "MAXRATE" 29 27 .rw (.const 6) .any, fd "MAXLANES" 26 25 .rw (.const 2) .any, fd "RETRY" 15 0 .rw (.const 1000) .any]⟩,
  ⟨"STAT", 0x4, [(8, 0x1000)], false, [fd "HPD" 31 31 .ro (.const 0) .any, fd "STATE" 30 28 .ro (.const 0) .any, fd "RATE" 27 25 .ro (.const 0) .any, fd "LANES" 24 23 .ro (.const 0) .any, fd "FEC" 22 22 .ro (.const 0) .any, fd "CARRIED" 19 16 .ro (.const 0) .any, fd "DOWNS" 15 8 .ro (.const 0) .any]⟩,
  ⟨"CMD", 0x8, [(8, 0x1000)], false, [fd "CMD" 31 28 .wo (.const 0) .any]⟩,
  ⟨"SNAP", 0xC, [(8, 0x1000)], false, [fd "SNAP" 0 0 .wo (.const 0) .any]⟩,
  ⟨"RAD", 0x10, [(8, 0x1000), (4, 0x4)], false, [fd "HOPS" 31 28 .rw (.const 0) .any, fd "PORTS" 15 0 .rw (.const 0) .any]⟩,
  ⟨"CNT", 0x40, [(8, 0x1000), (4, 0x4)], false, [fd "COUNT" 31 0 .ro (.const 0) .any]⟩,
  ⟨"EDID", 0x800, [(8, 0x1000), (4, 0x80), (32, 0x4)], false, [fd "BYTES" 31 0 .ro (.const 0) .any]⟩,
  ⟨"DSC_PPS", 0x10000, [(16, 0x100), (32, 0x4)], false, [fd "BYTES" 31 0 .rw (.const 0) .any]⟩]

/-- The registers of TCH (R335). -/
def regsTch : List RegDesc := [
  ⟨"CTL", 0x0, [(4, 0x1000)], false, [fd "EN" 31 31 .rw (.const 0) .any, fd "NDRV" 22 16 .rw (.const 64) .any, fd "NSNS" 13 8 .rw (.const 48) .any, fd "DRV_V" 7 0 .rw (.const 100) .any]⟩,
  ⟨"PERIOD", 0x4, [(4, 0x1000)], false, [fd "NS" 26 0 .rw (.const 0x3F940B) .any]⟩,
  ⟨"XY", 0x8, [(4, 0x1000)], false, [fd "YRES" 31 16 .rw (.const 4096) .any, fd "XRES" 15 0 .rw (.const 4096) .any]⟩,
  ⟨"THR", 0xC, [(4, 0x1000)], false, [fd "RELEASE" 31 16 .rw (.const 250) .any, fd "TOUCH" 15 0 .rw (.const 400) .any]⟩,
  ⟨"THR2", 0x10, [(4, 0x1000)], false, [fd "NOISE" 31 16 .rw (.const 60) .any, fd "NEG" 15 0 .rw (.const 200) .any]⟩,
  ⟨"PALM", 0x14, [(4, 0x1000)], false, [fd "SPAN" 15 8 .rw (.const 12) .any, fd "AREA" 7 0 .rw (.const 30) .any]⟩,
  ⟨"TRACK", 0x18, [(4, 0x1000)], false, [fd "DIST" 15 8 .rw (.const 32) .any, fd "SHIFT" 3 0 .rw (.const 12) .any]⟩,
  ⟨"LONG", 0x1C, [(4, 0x1000)], false, [fd "TIME" 15 0 .lv (.const 60) (.range 1 3600)]⟩,
  ⟨"HOP", 0x20, [(4, 0x1000)], false, [fd "NOISE_MAX" 31 16 .rw (.const 150) .any, fd "HOLD" 15 8 .rw (.const 8) .any, fd "HYST" 7 0 .rw (.const 25) .any]⟩,
  ⟨"FREQ", 0x40, [(4, 0x1000), (8, 0x4)], false, [fd "EN" 31 31 .rw (.const 1) .any, fd "KHZ" 8 0 .rw (.byIdx [80, 110, 150, 200, 250, 310, 400, 500]) .any]⟩,
  ⟨"TEST", 0x60, [(4, 0x1000)], false, [fd "SHORT" 31 16 .rw (.const 2000) .any, fd "OPEN_PCT" 7 0 .rw (.const 50) .any]⟩,
  ⟨"RING_LO", 0x70, [(4, 0x1000)], false, [fd "BASE" 31 9 .rw (.const 0) .any]⟩,
  ⟨"RING_HI", 0x74, [(4, 0x1000)], false, [fd "BASE" 7 0 .rw (.const 0) .any]⟩,
  ⟨"RING_SIZE", 0x78, [(4, 0x1000)], false, [fd "LOG2" 4 0 .rw (.const 8) .any]⟩,
  ⟨"PTR", 0xA0, [(4, 0x1000)], false, [fd "EN" 31 31 .lv (.const 0) .any, fd "HEAD" 28 24 .rw (.const 0) .any, fd "IMG" 13 0 .rw (.const 0) .any]⟩,
  ⟨"PTR_ORG", 0xA4, [(4, 0x1000)], false, [fd "Y0" 31 16 .rw (.const 0) .any, fd "X0" 15 0 .rw (.const 0) .any]⟩,
  ⟨"PTR_SIZE", 0xA8, [(4, 0x1000)], false, [fd "H" 31 16 .rw (.const 0) .any, fd "W" 15 0 .rw (.const 0) .any]⟩,
  ⟨"PTR_HOLD", 0xAC, [(4, 0x1000)], false, [fd "HOLD" 15 0 .lv (.const 500) (.range 0 60000)]⟩,
  ⟨"CMD", 0xC0, [(4, 0x1000)], false, [fd "CMD" 31 28 .wo (.const 0) .any]⟩,
  ⟨"SNAP", 0xC4, [(4, 0x1000)], false, [fd "SNAP" 0 0 .wo (.const 0) .any]⟩,
  ⟨"STAT", 0xD0, [(4, 0x1000)], false, [fd "RUN" 31 30 .ro (.const 0) .any, fd "TEST" 29 29 .ro (.const 0) .any, fd "DRVLOW" 28 28 .ro (.const 0) .any, fd "TOUCHES" 12 8 .ro (.const 0) .any, fd "FREQ" 2 0 .ro (.const 0) .any]⟩,
  ⟨"RES", 0xE0, [(4, 0x1000)], false, [fd "VALID" 31 31 .ro (.const 0) .any, fd "SEQ" 15 0 .ro (.const 0) .any]⟩,
  ⟨"RES_FRAME", 0xE4, [(4, 0x1000)], false, [fd "FRAME" 31 0 .ro (.const 0) .any]⟩,
  ⟨"NOISE", 0xF0, [(4, 0x1000), (8, 0x4)], false, [fd "F" 15 0 .ro (.const 0) .any]⟩,
  ⟨"TRES", 0x110, [(4, 0x1000)], false, [fd "VALID" 31 31 .ro (.const 0) .any, fd "SEQ" 15 0 .ro (.const 0) .any]⟩,
  ⟨"TRES_OPEN", 0x114, [(4, 0x1000), (4, 0x4)], true, [fd "OPEN" 31 0 .ro (.const 0) .any]⟩,
  ⟨"TRES_SHORT", 0x124, [(4, 0x1000), (4, 0x4)], true, [fd "SHORT" 31 0 .ro (.const 0) .any]⟩,
  ⟨"CNT", 0x180, [(4, 0x1000), (7, 0x4)], false, [fd "COUNT" 31 0 .ro (.const 0) .any]⟩,
  ⟨"REF", 0x400, [(4, 0x1000), (112, 0x4)], false, [fd "REF" 15 0 .rw (.const 0) .any]⟩]

/-- The registers of DMC (R390, R391, R464). -/
def regsDmc : List RegDesc := [
  ⟨"CH_STAT", 0x0, [(16, 0x10000)], false, [fd "TRAINED" 31 31 .ro (.const 0) .any, fd "MR4" 28 24 .ro (.const 0) .any, fd "OPEN" 20 16 .ro (.const 0) .any, fd "QUEUE" 4 0 .ro (.const 0) .any]⟩,
  ⟨"TIM", 0x40, [(16, 0x10000), (16, 0x4)], false, [fd "CYC" 15 0 .rw (.const 0) .any]⟩,
  ⟨"CH_SNAP", 0xFC, [(16, 0x10000)], false, [fd "SNAP" 0 0 .wo (.const 0) .any]⟩,
  ⟨"TRN_CTL", 0x100, [(16, 0x10000)], false, [fd "CMD" 31 28 .wo (.const 0) .any, fd "MODE" 25 24 .rw (.const 0) .any, fd "PAT" 18 16 .rw (.const 0) .any, fd "BANK" 3 0 .rw (.const 0) .any]⟩,
  ⟨"TRN_ROW", 0x104, [(16, 0x10000)], false, [fd "ROW" 16 0 .rw (.const 0) .any]⟩,
  ⟨"TRN_CNT", 0x108, [(16, 0x10000)], false, [fd "COUNT" 31 0 .rw (.const 32) .any]⟩,
  ⟨"TRN_OFS", 0x10C, [(16, 0x10000)], false, [fd "WVOFS" 29 25 .rw (.const 0) .any, fd "RVOFS" 24 20 .rw (.const 0) .any, fd "WROFS" 16 10 .rw (.const 0) .any, fd "RDOFS" 6 0 .rw (.const 0) .any]⟩,
  ⟨"TRN_RES", 0x110, [(16, 0x10000)], false, [fd "VALID" 31 31 .ro (.const 0) .any, fd "SEQ" 15 0 .ro (.const 0) .any]⟩,
  ⟨"TRN_ERR", 0x120, [(16, 0x10000), (18, 0x4)], true, [fd "ERRORS" 31 0 .ro (.const 0) .any]⟩,
  ⟨"TRN_USER", 0x180, [(16, 0x10000), (16, 0x4)], false, [fd "DATA" 31 0 .rw (.const 0) .any]⟩,
  ⟨"TRIM", 0x200, [(16, 0x10000), (18, 0x4)], false, [fd "WDLY" 24 16 .rw (.const 0) .any, fd "RDLY" 8 0 .rw (.const 0) .any]⟩,
  ⟨"TRIM_VREF", 0x250, [(16, 0x10000)], false, [fd "WRVREF" 14 8 .rw (.const 0) .any, fd "RDVREF" 6 0 .rw (.const 0) .any]⟩,
  ⟨"TRIM_CA", 0x254, [(16, 0x10000)], false, [fd "CAVREF" 22 16 .rw (.const 0) .any, fd "CADLY" 8 0 .rw (.const 0) .any]⟩,
  ⟨"OSC", 0x260, [(16, 0x10000)], false, [fd "MS" 31 16 .rw (.const 100) .any, fd "TRACK" 8 0 .ro (.const 0) .any]⟩,
  ⟨"CH_CNT", 0x300, [(16, 0x10000), (5, 0x4)], false, [fd "COUNT" 31 0 .ro (.const 0) .any]⟩,
  ⟨"ECC_ADDR_LO", 0x320, [(16, 0x10000)], true, [fd "ADDR" 31 6 .ro (.const 0) .any]⟩,
  ⟨"ECC_ADDR_HI", 0x324, [(16, 0x10000)], true, [fd "ADDR" 3 0 .ro (.const 0) .any]⟩,
  ⟨"CFG", 0x100000, [], false, [fd "EN" 31 31 .rw (.const 0) .any, fd "ECC" 30 30 .rw (.const 0) .any, fd "RATE" 18 16 .rw (.const 5) .any, fd "CAP" 1 0 .rw (.const 1) .any]⟩,
  ⟨"CHMASK", 0x100010, [(4, 0x4)], false, [fd "MASK" 29 0 .rw (.byIdx [2236420, 4472840, 8945680, 17891360]) .any]⟩,
  ⟨"BGMASK", 0x100020, [(2, 0x4)], false, [fd "MASK" 29 0 .rw (.byIdx [557568, 1115136]) .any]⟩,
  ⟨"BAMASK", 0x100028, [(2, 0x4)], false, [fd "MASK" 29 0 .rw (.byIdx [33564672, 67129344]) .any]⟩,
  ⟨"PANIC", 0x100080, [], false, [fd "CAP_PCT" 30 24 .rw (.const 50) .any, fd "CAM_PCT" 22 16 .rw (.const 50) .any, fd "FLY_US" 7 0 .rw (.const 60) .any]⟩,
  ⟨"SCRUB", 0x100090, [], false, [fd "HOURS" 15 0 .rw (.const 24) .any]⟩,
  ⟨"SWEEP", 0x1000A0, [], false, [fd "ROW" 16 0 .rw (.const 0) .any]⟩,
  ⟨"SNAP", 0x1000F0, [], false, [fd "SNAP" 0 0 .wo (.const 0) .any]⟩,
  ⟨"GSTAT", 0x1000F4, [], false, [fd "HOLD" 31 31 .ro (.const 0) .any, fd "FLYP" 30 30 .ro (.const 0) .any, fd "CAMP" 29 29 .ro (.const 0) .any, fd "CAPP" 28 28 .ro (.const 0) .any, fd "HEADP" 5 0 .ro (.const 0) .any]⟩,
  ⟨"REG", 0x100100, [(10, 0x8)], false, [fd "RATE" 19 0 .rw (.byIdx [64000, 6000, 2200, 2800, 42000, 15000, 15000, 16000, 10000, 3000]) .any]⟩,
  ⟨"REG_BURST", 0x100104, [(10, 0x8)], false, [fd "BURST" 15 0 .rw (.byIdx [1024, 256, 256, 64, 512, 128, 128, 128, 64, 64]) .any]⟩,
  ⟨"GCNT", 0x100200, [(10, 0x10), (3, 0x4)], false, [fd "COUNT" 31 0 .ro (.const 0) .any]⟩]

/-- The registers of PRU (R411, R412). -/
def regsPru : List RegDesc := [
  ⟨"CTL", 0x0, [(24, 0x1000)], false, [fd "EN" 31 31 .rw (.const 0) .any, fd "KEY" 3 0 .rw (.const 0) .any]⟩,
  ⟨"CMD", 0x4, [(24, 0x1000)], false, [fd "CMD" 31 28 .wo (.const 0) .any]⟩,
  ⟨"STAT", 0x8, [(24, 0x1000)], false, [fd "DRAINED" 31 31 .ro (.const 1) .any, fd "EPOCH" 15 8 .ro (.const 0) .any]⟩,
  ⟨"SNAP", 0xC, [(24, 0x1000)], false, [fd "SNAP" 0 0 .wo (.const 0) .any]⟩,
  ⟨"FREC", 0x10, [(24, 0x1000)], false, [fd "VALID" 31 31 .w1c (.const 0) .any, fd "CAUSE" 26 24 .ro (.const 0) .any, fd "KIND" 21 20 .ro (.const 0) .any, fd "USER" 19 19 .ro (.const 0) .any, fd "KEY" 15 12 .ro (.const 0) .any, fd "SOURCE" 7 0 .ro (.const 0) .any]⟩,
  ⟨"FREC_ADDR_LO", 0x14, [(24, 0x1000)], true, [fd "ADDR" 31 0 .ro (.const 0) .any]⟩,
  ⟨"FREC_ADDR_HI", 0x18, [(24, 0x1000)], true, [fd "ADDR" 7 0 .ro (.const 0) .any]⟩,
  ⟨"FREC_STAMP_LO", 0x1C, [(24, 0x1000)], true, [fd "STAMP" 31 0 .ro (.const 0) .any]⟩,
  ⟨"FREC_STAMP_HI", 0x20, [(24, 0x1000)], true, [fd "STAMP" 31 0 .ro (.const 0) .any]⟩,
  ⟨"FCNT", 0x24, [(24, 0x1000)], false, [fd "COUNT" 31 0 .ro (.const 0) .any]⟩,
  ⟨"HKEY", 0x40, [], false, [fd "KEY" 31 0 .lv (.const 0) .any]⟩,
  ⟨"RGN_BASE", 0x100, [(24, 0x1000), (64, 0x10)], false, [fd "BASE" 31 12 .rw (.const 0) .any]⟩,
  ⟨"RGN_SIZE", 0x104, [(24, 0x1000), (64, 0x10)], false, [fd "LOG2SIZE" 21 16 .rw (.const 0) .any, fd "BASE_HI" 7 0 .rw (.const 0) .any]⟩,
  ⟨"RGN_ATTR", 0x108, [(24, 0x1000), (64, 0x10)], false, [fd "EN" 31 31 .rw (.const 0) .any, fd "RD" 30 30 .rw (.const 0) .any, fd "WR" 29 29 .rw (.const 0) .any, fd "EX" 28 28 .rw (.const 0) .any, fd "UA" 27 27 .rw (.const 0) .any, fd "SRD" 23 16 .rw (.const 0) .any, fd "COLOUR" 3 0 .rw (.const 0) .any]⟩,
  ⟨"RGN_BASE_CUR", 0x900, [(24, 0x1000), (64, 0x10)], false, [fd "BASE" 31 12 .ro (.const 0) .any]⟩,
  ⟨"RGN_SIZE_CUR", 0x904, [(24, 0x1000), (64, 0x10)], false, [fd "LOG2SIZE" 21 16 .ro (.const 0) .any, fd "BASE_HI" 7 0 .ro (.const 0) .any]⟩,
  ⟨"RGN_ATTR_CUR", 0x908, [(24, 0x1000), (64, 0x10)], false, [fd "EN" 31 31 .ro (.const 0) .any, fd "RD" 30 30 .ro (.const 0) .any, fd "WR" 29 29 .ro (.const 0) .any, fd "EX" 28 28 .ro (.const 0) .any, fd "UA" 27 27 .ro (.const 0) .any, fd "SRD" 23 16 .ro (.const 0) .any, fd "COLOUR" 3 0 .ro (.const 0) .any]⟩,
  ⟨"GCMD", 0x18000, [], false, [fd "CMD" 31 28 .wo (.const 0) .any]⟩,
  ⟨"GSTAT", 0x18004, [], false, [fd "TDRAINED" 31 31 .ro (.const 1) .any, fd "COPY" 30 30 .ro (.const 0) .any, fd "TEPOCH" 15 8 .ro (.const 0) .any]⟩]

/-- The registers of TBW (R508). -/
def regsTbw : List RegDesc := [
  ⟨"SEL", 0x0, [], false, [fd "PHEAD" 28 24 .lv (.const 0) .any, fd "PPAGE" 1 0 .lv (.const 0) .any]⟩]

/-- The blocks with their bases and extents (R503), and the table window registers (R504, R508). -/
def blocks : List BlockDesc := [
  ⟨"SYS", 0x40000000, 0x10000, regsSys⟩,
  ⟨"PIT", 0x40010000, 0x10000, regsPit⟩,
  ⟨"MGT", 0x40020000, 0x10000, regsMgt⟩,
  ⟨"EVJ", 0x40030000, 0x10000, regsEvj⟩,
  ⟨"AGE", 0x40040000, 0x10000, regsAge⟩,
  ⟨"MUI", 0x40080000, 0x10000, regsMui⟩,
  ⟨"REF", 0x40090000, 0x10000, regsRef⟩,
  ⟨"PEG", 0x400A0000, 0x40000, regsPeg⟩,
  ⟨"TWN", 0x40100000, 0x10000, regsTwn⟩,
  ⟨"BOL", 0x40110000, 0x10000, regsBol⟩,
  ⟨"NET", 0x40200000, 0x40000, regsNet⟩,
  ⟨"SRC", 0x40300000, 0x20000, regsSrc⟩,
  ⟨"VDC", 0x40400000, 0x20000, regsVdc⟩,
  ⟨"VEC", 0x40480000, 0x20000, regsVec⟩,
  ⟨"CAM", 0x40500000, 0x80000, regsCam⟩,
  ⟨"CAP", 0x40580000, 0x4000, regsCap⟩,
  ⟨"PNT", 0x40600000, 0x10000, regsPnt⟩,
  ⟨"CHK", 0x40680000, 0x10000, regsChk⟩,
  ⟨"CMP", 0x40800000, 0x200000, regsCmp⟩,
  ⟨"FLY", 0x40A00000, 0x10000, regsFly⟩,
  ⟨"HED", 0x40A80000, 0x20000, regsHed⟩,
  ⟨"DPT", 0x40B00000, 0x20000, regsDpt⟩,
  ⟨"TCH", 0x40C00000, 0x4000, regsTch⟩,
  ⟨"DMC", 0x41000000, 0x110000, regsDmc⟩,
  ⟨"PRU", 0x41200000, 0x19000, regsPru⟩,
  ⟨"TBW", 0x43EAE000, 0x1000, regsTbw⟩]

end Sys2Proof.Machine
end

