-- ==== Sys2Proof/Machine/Operands.lean ====
section
/-! DEFINITION. Reading an address as a register, the fields of a register word, what a write does to each field type
(R15, R16, R511), stamps and their differences (R12, R14), and the manual's rounding (R10). -/

namespace Sys2Proof.Machine

/-! ### Numbers -/

/-- R10: round(x / d) = floor((x + floor(d / 2)) / d). -/
def roundDiv (x d : Nat) : Nat := (x + d / 2) / d

/-- floor((x + d - 1) / d). -/
def ceilDiv (x d : Nat) : Nat := (x + d - 1) / d

/-- A number of `w` bits read as two's complement. -/
def signedOf (w v : Nat) : Int := if v % 2 ^ w < 2 ^ (w - 1) then (v % 2 ^ w : Nat) else ((v % 2 ^ w : Nat) : Int) - (2 : Int) ^ w

/-- An integer as `w` bits of two's complement. -/
def twosOf (w : Nat) (i : Int) : Nat := (i % (2 : Int) ^ w).toNat

/-- Addition that stops at the largest number of `w` bits. -/
def satAdd (w a b : Nat) : Nat := min (a + b) (2 ^ w - 1)

/-- A stamp `n` ns earlier, modulo 2^64. -/
def stampSub (t n : Nat) : Nat := (t % 2 ^ 64 + 2 ^ 64 - n % 2 ^ 64) % 2 ^ 64

/-- The nearest bound of a range (R15). -/
def clampNat (lo hi v : Nat) : Nat := if v < lo then lo else if hi < v then hi else v

/-- The nearest bound of a range of integers (R15). -/
def clampInt (lo hi v : Int) : Int := if v < lo then lo else if hi < v then hi else v

/-! ### Stamps -/

/-- Nanoseconds in a second, a millisecond and a microsecond. -/
def nsPerS : Nat := 1000000000
/-- See `nsPerS`. -/
def nsPerMs : Nat := 1000000
/-- See `nsPerS`. -/
def nsPerUs : Nat := 1000

/-- R12: the short stamp of a count of nanoseconds. -/
def shortStamp (t : Stamp) : Nat := t % 2 ^ 64

/-- R14: (later − earlier) modulo 2^64, read as a signed 64-bit value. -/
def stampGap (later earlier : Stamp) : Int := signedOf 64 (later % 2 ^ 64 + 2 ^ 64 - earlier % 2 ^ 64)

/-- The later of two stamps (R14). -/
def stampMax (a b : Nat) : Nat := if decide (0 ≤ stampGap a b) then a else b

/-- The earlier of two stamps (R14). -/
def stampMin (a b : Nat) : Nat := if decide (0 ≤ stampGap a b) then b else a

/-- At least `n` ns have passed from `earlier` to `later`. -/
def elapsed (later earlier n : Nat) : Bool := decide ((n : Int) ≤ stampGap later earlier)

/-! ### Fields of a word -/

/-- Bits `hi` to `lo` of a number. -/
def bitsNat (v hi lo : Nat) : Nat := (v / 2 ^ lo) % 2 ^ (hi + 1 - lo)

/-- Bits `hi` to `lo` of a word. -/
def bitsOf (w : Word) (hi lo : Nat) : Nat := bitsNat w.toNat hi lo

/-- The word with ones in bits `hi` to `lo`. -/
def fieldMask (hi lo : Nat) : Word := BitVec.ofNat 32 ((2 ^ (hi + 1 - lo) - 1) * 2 ^ lo)

/-- `w` with `v` in bits `hi` to `lo`; higher bits of `v` are dropped. -/
def putBits (w : Word) (hi lo v : Nat) : Word :=
  (w &&& ~~~ fieldMask hi lo) ||| (BitVec.ofNat 32 (v * 2 ^ lo) &&& fieldMask hi lo)

/-! ### Which register an address names -/

/-- The indices that an offset inside an array of the given dimensions has, or none where it hits no element. -/
def dimsIndex : Nat → List (Nat × Nat) → Option (List Nat)
  | o, [] => if o = 0 then some [] else none
  | o, (n, s) :: rest => if o / s < n then (dimsIndex (o % s) rest).map (fun l => o / s :: l) else none

/-- The register at offset `o` of a block, with its indices. -/
def descIn (l : List RegDesc) (o : Nat) : Option (RegDesc × List Nat) :=
  match l with
  | [] => none
  | d :: rest =>
    if d.ofs ≤ o then
      match dimsIndex (o - d.ofs) d.dims with
      | some idx => some (d, idx)
      | none => descIn rest o
    else descIn rest o

/-- The block whose extent holds address `a` (R503). -/
def blockAt (a : Nat) : Option BlockDesc :=
  blocks.find? (fun b => decide (b.base ≤ a) && decide (a < b.base + b.extent))

/-- The register at address `a`, with its indices. -/
def descAt (a : Nat) : Option (RegDesc × List Nat) :=
  match blockAt a with
  | some b => descIn b.regs (a - b.base)
  | none => none

/-! ### Reset values -/

/-- A field's reset value, for the innermost index `i`. -/
def ResetVal.at (i : Nat) : ResetVal → Nat
  | .const n => n
  | .byIdx l => l.getD i 0
  | .tone => i * 1023 / 128
  | .manufactured => (Config.roRef i).toNat

/-- A register's word after reset, for the innermost index `i`; reserved bits are 0 (R16). -/
def RegDesc.resetWord (d : RegDesc) (i : Nat) : Word :=
  d.fields.foldl (fun w f => putBits w f.hi f.lo (f.reset.at i)) 0

/-- The word that the register at address `a` holds after reset; 0 where there is none (R501). -/
def resetWord (a : Nat) : Word :=
  match descAt a with
  | some (d, idx) => d.resetWord (idx.getLastD 0)
  | none => 0

/-! ### Writing a word by its fields -/

/-- R15: an illegal value is clamped, a range to its nearest bound. `dyn` is the bound that another register gives. -/
def Legal.clamp (l : Legal) (width dyn v : Nat) : Nat :=
  match l with
  | .any => v
  | .range lo hi => clampNat lo hi v
  | .srange lo hi => twosOf width (clampInt lo hi (signedOf width v))
  | .dyn => min v dyn

/-- R511: a register is live when it holds a field of type LV, or when every field of it that is not RO is WO (and there
is one). -/
def RegDesc.live (d : RegDesc) : Bool :=
  d.fields.any (fun f => f.ty == .lv) ||
    (d.fields.any (fun f => f.ty == .wo) && d.fields.all (fun f => f.ty == .wo || f.ty == .ro))

/-- What one field of a register holds after a write (R15, R511): `old` and `new` are the whole words. -/
def FieldDesc.after (f : FieldDesc) (isSealed : Bool) (dyn : Nat) (old new : Word) : Nat :=
  let v := bitsOf new f.hi f.lo
  match f.ty with
  | .ro => bitsOf old f.hi f.lo
  | .rw => if isSealed then bitsOf old f.hi f.lo else v
  | .lv => f.legal.clamp (f.hi + 1 - f.lo) dyn v
  | .w1c => bitsNat (bitsOf old f.hi f.lo - (bitsOf old f.hi f.lo &&& v)) (f.hi - f.lo) 0
  | .wo => 0

/-- The word a register holds after a write; reserved bits stay 0 (R16). -/
def RegDesc.after (d : RegDesc) (isSealed : Bool) (dyn : Nat) (old new : Word) : Word :=
  d.fields.foldl (fun w f => putBits w f.hi f.lo (f.after isSealed dyn old new)) 0

/-- R15, R511: after seal a write is dropped and counted: to a register of RW fields alone always, to one of several types
when an RW field carries a value other than the one held, or a nonzero WO field of a register that is not live. -/
def RegDesc.drops (d : RegDesc) (isSealed : Bool) (old new : Word) : Bool :=
  isSealed && ((!d.fields.isEmpty && d.fields.all (fun f => f.ty == .rw)) || d.fields.any (fun f =>
    (f.ty == .rw && bitsOf new f.hi f.lo != bitsOf old f.hi f.lo) ||
    (f.ty == .wo && !d.live && bitsOf new f.hi f.lo != 0)))

/-- The bits of a word that a read returns: WO fields read 0 (R15). -/
def RegDesc.readMask (d : RegDesc) (w : Word) : Word :=
  d.fields.foldl (fun w f => if f.ty == .wo then putBits w f.hi f.lo 0 else w) w

/-! ### SNAP -/

/-- A SNAP register: its one field is a WO bit 0 (R20). -/
def RegDesc.isSnap (d : RegDesc) : Bool :=
  match d.fields with
  | [f] => f.hi == 0 && f.ty == .wo
  | _ => false

/-- The addresses (from, up to) whose wide words a SNAP register latches: its instance's window, or its block (R20,
R503). -/
def snapScope (a : Nat) : Option (Nat × Nat) :=
  match blockAt a with
  | none => none
  | some b =>
    match descIn b.regs (a - b.base) with
    | none => none
    | some (d, idx) =>
      if d.isSnap then
        match d.dims, idx with
        | (_, s) :: _, i :: _ => some (b.base + i * s, b.base + i * s + s)
        | _, _ => some (if b.base == 0x41000000 then b.base + 0x100000 else b.base, b.base + b.extent)
      else none

/-- Address `a` names a word that is read after SNAP (R20). -/
def isSnapWord (a : Nat) : Bool :=
  match descAt a with
  | some (d, _) => d.snap
  | none => false

/-! ### The physical map -/

/-- What lies at a physical address (R500, R501, R503, R504). -/
inductive Place
  | register
  | table
  | dram
  | unmapped
  deriving DecidableEq, Repr

/-- The base of DRAM (R500). -/
def dramBase : Nat := 0x1000000000

/-- The base of the table windows (R504). -/
def tableBase : Nat := 0x42000000

/-- R504: an offset from the table base that lies in one of the windows. -/
def inTable (o : Nat) : Bool := decide (o < 0x1EAE000) || (decide (0x1F00000 ≤ o) && decide (o < 0x2000000))

/-- What lies at address `a`, for a DRAM of `cap` bytes. -/
def placeOf (cap a : Nat) : Place :=
  if (blockAt a).isSome then .register
  else if tableBase ≤ a && inTable (a - tableBase) then .table
  else if dramBase ≤ a && decide (a < dramBase + cap) then .dram
  else .unmapped

end Sys2Proof.Machine
end

