-- ==== Sys2Proof/Machine/Crc.lean ====
section
/-! DEFINITION. Cyclic redundancy checks: the five polynomials of the check units (R244), and the CRC-32C that
signatures, flits, records and frames use (R55, R277, R301, R340, R446). -/

namespace Sys2Proof.Machine

/-- A polynomial's parameters (R244). -/
structure CrcPoly where
  width : Nat
  poly : Nat
  init : Nat
  reflected : Bool
  xorOut : Nat
  deriving DecidableEq, Repr

/-- The low `w` bits of `v` in reverse order. -/
def bitRev : Nat → Nat → Nat
  | 0, _ => 0
  | w + 1, v => (v % 2) * 2 ^ w + bitRev w (v / 2)

/-- R244: the polynomial of a POLY code; codes above 4 are clamped before they reach here. -/
def crcPoly : Nat → CrcPoly
  | 0 => ⟨8, 0x2F, 0xFF, false, 0xFF⟩
  | 1 => ⟨16, 0x1021, 0xFFFF, false, 0⟩
  | 2 => ⟨32, 0x04C11DB7, 0xFFFFFFFF, true, 0xFFFFFFFF⟩
  | 3 => ⟨32, 0x1EDC6F41, 0xFFFFFFFF, true, 0xFFFFFFFF⟩
  | _ => ⟨64, 0x42F0E1EBA9EA3693, 0xFFFFFFFFFFFFFFFF, true, 0xFFFFFFFFFFFFFFFF⟩

/-- `n` shifts of a reflected register by the reversed polynomial. -/
def crcShiftR (rpoly : Nat) : Nat → Nat → Nat
  | 0, r => r
  | n + 1, r => crcShiftR rpoly n (if r % 2 == 1 then r / 2 ^^^ rpoly else r / 2)

/-- `n` shifts of an unreflected register of width `w`. -/
def crcShiftL (w poly : Nat) : Nat → Nat → Nat
  | 0, r => r
  | n + 1, r =>
    crcShiftL w poly n (if r / 2 ^ (w - 1) % 2 == 1 then (2 * r) % 2 ^ w ^^^ poly else (2 * r) % 2 ^ w)

/-- One byte enters the register. -/
def crcByte (p : CrcPoly) (r : Nat) (b : Byte) : Nat :=
  if p.reflected then crcShiftR (bitRev p.width p.poly) 8 (r ^^^ b.toNat)
  else crcShiftL p.width p.poly 8 (r ^^^ b.toNat * 2 ^ (p.width - 8))

/-- Bytes enter the register in order. -/
def crcFeed (p : CrcPoly) (r : Nat) (l : List Byte) : Nat := l.foldl (crcByte p) r

/-- The check value of a message. -/
def crcOf (p : CrcPoly) (l : List Byte) : Nat := crcFeed p p.init l ^^^ p.xorOut

/-- The check value's bytes in the order in which it is appended (R244). -/
def crcBytes (code : Nat) (v : Nat) : List Byte :=
  match code with
  | 0 => leBytes 1 v
  | 1 => beBytes 2 v
  | 2 => leBytes 4 v
  | 3 => leBytes 4 v
  | _ => leBytes 8 v

/-- CRC-32C (POLY code 3). -/
def crc32c (l : List Byte) : Nat := crcOf (crcPoly 3) l

/-- A running CRC-32C register and its value (R277, R301). -/
def crc32cInit : Nat := 0xFFFFFFFF

/-- Bytes added to a running CRC-32C. -/
def crc32cFeed (r : Nat) (l : List Byte) : Nat := crcFeed (crcPoly 3) r l

/-- The value of a running CRC-32C. -/
def crc32cValue (r : Nat) : Nat := r ^^^ 0xFFFFFFFF

end Sys2Proof.Machine
end

