-- ==== Sys2Proof/Machine/State.lean ====
section
/-! DEFINITION. The state of the part: its registers and memories, the state of each unit that has no register, the
event queue, what has left the part, and the queue of commands. -/

namespace Sys2Proof.Machine

/-! ### Events -/

/-- A fault address with its level (R5, R7). -/
inductive FaultAddr
  | pixel (head x y : Nat)
  | tile (head tx ty : Nat)
  | element (index : Nat)
  | surface (head : Nat)
  | wall (number : Nat)
  | room
  deriving DecidableEq, Repr

/-- One field of an event's further content (R515): a width in bytes and a value, or the number of occurrences that a
rate-limited event carries (R514). -/
inductive CField
  | val (width value : Nat)
  | occ
  deriving DecidableEq, Repr

/-- A raised event that waits for the watch cores (R446, R448). -/
structure Ev where
  code : Nat
  place : FaultAddr
  stamp : Stamp
  content : List CField
  deriving DecidableEq, Repr

/-- R514 for one event code and unit: the last event's stamp, the occurrences counted since, and the first of them. -/
structure RateWin where
  last : Option Stamp
  count : Nat
  first : Option Ev
  deriving DecidableEq, Repr

/-! ### Muith time and the reference inputs -/

/-- A command of `REF_CMD` that waits for the next evaluation (R102). -/
structure RefCmd where
  cmd : Nat
  entry : Nat
  src : Source
  deriving DecidableEq, Repr

/-- One reference input (R91, R93, R98): whether it has been seen at all, the causes of the tests that fail now, the
cause of the first failure since the last evaluation, qualification and wait, and the measurements. -/
structure RefInput where
  seen : Bool := false
  failing : List Nat := []
  firstFail : Nat := 0
  everAvail : Bool := false
  qualCount : Nat := 0
  qualStart : Stamp := 0
  wtrEnd : Stamp := 0
  phi : Option Int := none
  phiAt : Stamp := 0
  /-- The input has an accepted sample from which the jump test predicts (R93). -/
  predicted : Bool := false
  freq : Int := 0
  lastEdge : Option Nat := none
  /-- GNSS: the TAI seconds of the next edge and when its sentence ended (R97). -/
  label : Option (Nat × Stamp) := none
  utc : Option (Int × Bool × Bool) := none
  deriving DecidableEq, Repr

/-- One PTP port's instance (R95, R96). -/
structure PtpPort where
  heard : List Announce := []
  master : Option Announce := none
  qualGm : Option Nat := none
  sync : Option (Nat × Nat × Option Nat × Nat × Int) := none
  window : List (Int × Int) := []
  deriving DecidableEq, Repr

/-- The timebase and reference selection beyond their registers (R101 to R111). -/
structure Muith where
  /-- Inputs 0 to 7 that differ from `RefInput`'s initial value. -/
  inputs : List (Nat × RefInput) := []
  ports : List (Nat × PtpPort) := []
  activeEntry : Option Nat := none
  forced : Option Nat := none
  cmds : List RefCmd := []
  schedIndex : Nat := 0
  schedDone : Bool := false
  dwellEnd : Stamp := 0
  lockSince : Option Stamp := none
  /-- TETHERED time since the last entry to FREE FLIGHT or FREE RUN, and since when it now runs (R103). -/
  tetherNs : Nat := 0
  tetherSince : Option Stamp := none
  /-- Mean frequencies of past tethered seconds, newest first, with the stamp of their end (R111). -/
  freqLog : List (Stamp × Int) := []
  /-- The tethered second that runs: since when, the sum of the frequencies at its evaluations, and their number (R111). -/
  secFrom : Option Stamp := none
  secSum : Int := 0
  secCount : Nat := 0
  holdEntry : Stamp := 0
  te0 : Nat := 0
  tePassed : Bool := false
  /-- The last φ that the loop accepted from the active input, in 2^-8 ns (R111). -/
  loopPhi : Int := 0
  steer : Int := 0
  muiFreq : Int := 0
  /-- The entry that supplied the seconds at the last load (R106, step 4). -/
  secEntry : Option Nat := none
  loadMark : Bool := false
  /-- The entry whose input became AVAILABLE and for which base firmware loads the counter again (R106, step 4). -/
  reload : Option Nat := none
  /-- The frequency of the SerDes reference loop, in 2^-16 ppb against the local oscillator (R112). -/
  serdesFreq : Int := 0
  deriving DecidableEq, Repr

/-- A local time tap (R33, R89): how far it stands from the master counter, in ps, and what its rate has to take back. -/
structure Tap where
  offset : Int := 0
  trim : Int := 0
  deriving DecidableEq, Repr

/-! ### The watch cores -/

/-- The watch cores' time mark (R36): records are marked NOTIME, and since when the tap has been within its bound again. -/
structure Watch where
  noTime : Bool := false
  backSince : Option Stamp := none
  deriving DecidableEq, Repr

/-! ### Check units and points -/

/-- One check unit's message (R245): open or not, the bytes fed, the configuration in force since START, the counter sent
in append mode, and the last accepted counter in check mode. -/
structure ChkUnit where
  isOpen : Bool := false
  fed : List Byte := []
  append : Bool := false
  alive : Nat := 0
  poly : Nat := 0
  counter : Nat := 0
  lastGood : Option Nat := none
  deriving DecidableEq, Repr

/-- A point frame in the engine's queue: the flow entry it matched, its arrival stamp and its payload (R231). -/
structure PointFrame where
  flow : Nat
  arrival : Stamp
  bytes : List Byte
  deriving DecidableEq, Repr

/-- A feeder beyond its registers (R233): for each path the map of delivered counters, bit i for LAST − i, and the sync
stamp. -/
structure Feeder where
  map0 : Nat := 0
  map1 : Nat := 0
  syncStamp : Stamp := 0
  deriving DecidableEq, Repr

/-- A point frame that waits for its application instant P on both twins, or that has been applied there (R355): `arrival` is the
earlier of its copies' arrival stamps, and `own` and `twin` tell which part's copy has come. -/
structure MirrorFrame where
  feeder : Nat
  counter : Nat
  check : Nat
  path : Nat
  arrival : Stamp
  bytes : List Byte
  own : Bool
  twin : Bool
  deriving DecidableEq, Repr

/-- A sweep that runs (R241): its start stamp and the points it set SILENT. -/
structure Sweep where
  start : Stamp
  silent : Nat
  deriving DecidableEq, Repr

/-- What the glyph engine last drew of a field on a head (R252). -/
structure Drawn where
  head : Nat
  text : List Nat
  colours : List Nat
  desc : List Nat
  rect : Nat × Nat × Nat × Nat
  bind : Nat
  deriving DecidableEq, Repr

/-- The point engine beyond its registers and tables. -/
structure Points where
  queue : List PointFrame := []
  feeders : List (Nat × Feeder) := []
  mirror : List MirrorFrame := []
  /-- Frames applied in twin operation, newest first (R355). -/
  applied : List MirrorFrame := []
  sweep : Option Sweep := none
  drawn : List (Nat × Option Drawn) := []
  deriving DecidableEq, Repr

/-! ### The Bolral link and twin operation -/

/-- The link beyond its registers: the last flits sent, the message being received, the messages delivered, the counter
expected next and the one a NAK waits for, and the time exchange (R340 to R343, R360). `waiting`: the messages that wait together
(R342). -/
structure Bolral where
  waiting : List (Nat × List Byte) := []
  held : List (Nat × List Byte) := []
  rxPart : List Byte := []
  delivered : List (Nat × List Byte) := []
  rxNext : Option Nat := none
  nakWait : Option Nat := none
  timeSeq : Nat := 0
  timeOpen : Option (Nat × Stamp) := none
  rts : List Int := []
  deriving DecidableEq, Repr

/-- A part's verdict on a frame of an agreed slot (R352): HOLD or LOST with its NOTICE's fields. -/
structure Verdict where
  hold : Bool
  derived : Bool
  cap : Stamp
  stamp : Stamp
  sig : Nat
  deriving DecidableEq, Repr

/-- A frame of an agreed slot whose verdicts are not both known (R352): the key, the own frame's buffer and sequence
number, and the verdicts. -/
structure Agree where
  key : Nat
  frame : Option (Nat × Nat) := none
  own : Option Verdict := none
  twin : Option Verdict := none
  deriving DecidableEq, Repr

/-- A SEQ that has been received or computed for a stream: bucket and first sequence number (R361). -/
structure SeqEntry where
  stream : Nat
  bucket : Nat
  number : Nat
  deriving DecidableEq, Repr

/-- A SIGX that waits for its frame, or a frame that waits for its SIGX (R279, R357): head, frame start, LOSTSEL, SIG and
the region entries (region, AUDIT, CRC). -/
structure SigEntry where
  head : Nat
  start : Stamp
  lostSel : Bool
  sig : Nat
  regions : List (Nat × Bool × Nat)
  deriving DecidableEq, Repr

/-- Twin operation beyond its registers (R344 to R362). -/
structure Twin where
  /-- The arrival of the last HEARTBEAT and its byte 17. -/
  lastHb : Option Stamp := none
  hbFlags : Nat := 0
  /-- A HEARTBEAT with SEALED came since the last tick, and in how many consecutive intervals one did (R346). -/
  hbSince : Bool := false
  hbRun : Nat := 0
  /-- Since when the twin has been seen on the network without interruption, and its last sighting (R346, R365). -/
  seenSince : Option Stamp := none
  lastSight : Stamp := 0
  /-- The conditions of events 0x1003, 0x1004 and 0x1005 that have been reported and last (R348). -/
  lostTold : Bool := false
  highTold : Bool := false
  yieldTold : Bool := false
  /-- The claim that takes effect at the next tick (R348). -/
  nextClaim : Option Nat := none
  leftPaired : Option Stamp := none
  doneTx : Bool := false
  doneRx : Bool := false
  replaced : Nat := 0
  seqs : List SeqEntry := []
  /-- Own frames and received SIGX messages whose comparison is open. -/
  sigOwn : List SigEntry := []
  sigTwin : List SigEntry := []
  deriving DecidableEq, Repr

/-! ### Source slots and the network -/

/-- One frame buffer beyond its frame record: the configuration its frame was begun under (R512), the key of R351, and
the encode jobs that hold it (R58). -/
structure SlotBuf where
  gen : Nat := 0
  key : Nat := 0
  jobs : Nat := 0
  deriving DecidableEq, Repr

/-- A finished frame as R54 and R63 look back at it. -/
structure Finished where
  gen : Nat
  seq : Nat
  cap : Stamp
  complete : Bool
  /-- It became eligible, and with TWIN_LOST clear (R353). -/
  eligible : Bool
  twinLost : Bool
  sig : Nat
  change : Stamp
  stamp : Stamp
  deriving DecidableEq, Repr

/-- A source slot beyond its registers and records: the number of its configuration, the last frame sequence number given,
its buffers, its finished frames, newest first, and the frames that wait for the twin. -/
structure Slot where
  gen : Nat := 0
  seq : Nat := 0
  bufs : List (Nat × SlotBuf) := []
  done : List Finished := []
  agree : List Agree := []
  /-- Keys whose LOST the part has established without a frame (R352). -/
  lostKeys : List Nat := []
  /-- The place in the bitstream buffer that the next access unit takes, or is read from (R161). -/
  bsPos : Nat := 0
  deriving DecidableEq, Repr

/-- A sender tracker (R151). -/
structure Tracker where
  rank : Nat
  claim : Nat
  seen : Stamp
  deriving DecidableEq, Repr

/-- An RTP packet past the merge stage's tests (R149, R152): its extended sequence number, timestamp, marker, MAC stamp,
and payload. -/
structure Packet where
  seq : Nat
  ts : Nat
  marker : Bool
  arrival : Stamp
  payload : List Byte
  deriving DecidableEq, Repr

/-- A held packet (R152): its slot, claim and the end of its window. -/
structure HeldPacket where
  slot : Nat
  claim : Nat
  due : Stamp
  pkt : Packet
  deriving DecidableEq, Repr

/-- A network frame that has not finished (R158). -/
structure NetFrame where
  ts : Nat
  /-- The earliest MAC stamp of its packets, and when its last packet was delivered. -/
  arrival : Stamp
  last : Stamp
  marker : Option (Nat × Stamp)
  /-- When the first packet of a later timestamp was delivered. -/
  later : Option Stamp
  /-- Kind 2: the buffer it is written into. -/
  buf : Option Nat
  payloads : List (Nat × List Byte)
  deriving DecidableEq, Repr

/-- An RTP timestamp of a network slot (R158): the lowest and highest extended number delivered with it, when its first packet was
delivered, and whether its frame has finished. -/
structure TsLog where
  ts : Nat
  lo : Nat
  hi : Nat
  at_ : Stamp
  finished : Bool := false
  deriving DecidableEq, Repr

/-- The receive side of a network slot (R151 to R160). -/
structure NetSlot where
  trackers : List Tracker := []
  highest : Option Nat := none
  delivered : List Nat := []
  openFrames : List NetFrame := []
  /-- The timestamps within reach of the highest number, oldest first. -/
  stamps : List TsLog := []
  first : Option Stamp := none
  leg0 : Option Stamp := none
  leg1 : Option Stamp := none
  silent0 : Bool := false
  silent1 : Bool := false
  /-- The newest sender report: RTP timestamp, t_sr, arrival (R160). -/
  report : Option (Nat × Int × Stamp) := none
  deriving DecidableEq, Repr

/-- A complete or incomplete access unit that waits for decoding: its NAL units in order (R146, R158), and where they lie in the
bitstream buffer. -/
structure AccessUnit where
  slot : Nat
  ts : Nat
  arrival : Stamp
  whole : Bool
  missing : Nat
  nals : List (List Byte)
  addr : Nat
  len : Nat
  deriving DecidableEq, Repr

/-! ### Elements, composition and heads -/

/-- The frame that a window shows (R62): its slot, buffer and sequence number, and its capture and change stamps. -/
structure ShownFrame where
  slot : Nat
  buf : Nat
  seq : Nat
  cap : Stamp
  change : Stamp
  deriving DecidableEq, Repr

/-- An element beyond its table entry: the binding in force (R49), the slot configuration it last saw (R512), what has
qualified in it, a field's kept value and change stamp (R65), fetch faults (R64), and its state in the head's last frame
(R78). -/
structure ElemState where
  kind : Nat := 0
  bind : Nat := 0
  slotGen : Nat := 0
  fresh : Bool := true
  had : Bool := false
  kept : Option (Nat × Stamp) := none
  /-- The fetch-fault condition, and a fault in the present frame. -/
  fault : Bool := false
  faultNow : Bool := false
  /-- The frame a window showed last in the binding (R62). -/
  last : Option ShownFrame := none
  /-- The head and the frame of the last evaluation, and the state it gave. -/
  onIn : Option (Nat × Nat) := none
  state : Nat := 0
  deriving DecidableEq, Repr

/-- A pixel: three 10-bit components and the pixel alpha. -/
structure Px where
  r : Nat
  g : Nat
  b : Nat
  a : Nat
  deriving DecidableEq, Repr

/-- The pixel at four points: after the fly sheet (R277), with the pointer (R256), and what leaves (R300); `plain` is
without the pointer but with the pulse mark (R280). -/
structure Composed where
  region : Px
  full : Px
  sent : Px
  plain : Px
  deriving DecidableEq, Repr

/-- A head beyond its registers (R290 to R303): the frame it scans, its next line, and what it holds during a frame. -/
structure Head where
  k : Nat := 0
  /-- The first frame of a STARTING head. -/
  firstK : Nat := 0
  /-- The counter was loaded again: the head stops at its next frame start and starts on the new grid (R428). -/
  restart : Bool := false
  /-- A frame is being scanned; the next line of it; and whether its stream was carried at its start (R307). -/
  inFrame : Bool := false
  nextLine : Nat := 0
  /-- The last two frames' starts with their fraction in 2^-16 ns, their line period in 2^-16 ns and the lines begun in them,
  newest first (R134). -/
  history : List (Stamp × Nat × Nat × Nat) := []
  videoOn : Bool := false
  /-- The part was sealed at the frame's start: until then the frame shows the pitch screen (R429, R431). -/
  live : Bool := false
  /-- The arrival of the last REQUEST, and of the last one withdrawn with its CANCEL: a command acts from the first frame start
  whose edge follows it (R274). -/
  reqAt : Stamp := 0
  withdrawn : Option (Stamp × Stamp) := none
  /-- The pointer values taken at the frame start (R283): the two words of `CMP_PTR`. -/
  ptr : Nat := 0
  ptrXY : Nat := 0
  /-- Fetches of this frame that are complete: tile column, tile row, the element (none: the provenance record), and a
  fault. -/
  fetched : List (Nat × Nat × Option Nat × Bool) := []
  /-- Tile rows checked (R296), fills of the frame: tile column, row, element or the whole tile, and the lowest lead. -/
  checked : List Nat := []
  fills : List (Nat × Nat × Option Nat) := []
  filledSeen : Bool := false
  minLead : Nat := 63
  /-- Filled tiles that no event 0xA801 has carried yet (R298). -/
  underrun : Nat := 0
  /-- Elements not ready by their scan time (R45) and fields not rendered by theirs (R252), in this frame. -/
  missed : List Nat := []
  glyphMissed : List Nat := []
  /-- Rows composed and not yet sent, with the row that is composed next (R294). -/
  rows : List (Nat × List Composed) := []
  nextRow : Nat := 0
  /-- The raster's difference from its grid after the last trim, and that trim's effect on the frame, in 2^-16 ns (R292). -/
  raster : Int := 0
  trim : Int := 0
  /-- Fields whose point record read met a fault in this frame (R64). -/
  badElems : List Nat := []
  /-- The last frame in which the head's elements were evaluated (R78). -/
  evalK : Option Nat := none
  /-- Running surface, link and region signatures of the frame, and those of the frame before with their runs (R302). -/
  sig : Nat := 0
  lsig : Nat := 0
  regionCrc : List (Nat × Nat) := []
  lastSig : Option Nat := none
  lastLsig : Option Nat := none
  sigRun : Nat := 0
  lsigRun : Nat := 0
  /-- Region runs: region, frames mismatching EXPECT, frames mismatching the twin (R278). -/
  runs : List (Nat × Nat × Nat) := []
  /-- The writeback buffer of this frame (R281). -/
  wbBuf : Option Nat := none
  lostSel : Bool := false
  /-- The active row written back last, for the chroma rows of 4:2:0 (R191). -/
  lastRow : List (Nat × Nat × Nat) := []
  /-- Frames since layout 0 was committed at pitch, the PITCHSIG rectangles that mismatched in the first, and the running
  CRCs (R429). -/
  pitchFrame : Nat := 0
  pitchBad : List Nat := []
  pitchCrc : List (Nat × Nat) := []
  /-- Field-plane bytes that this frame's rendering replaced: element, address, old bytes (R252). -/
  undo : List (Nat × Nat × List Byte) := []
  deriving DecidableEq, Repr


/-! ### The codec -/

/-- A reference entry of a decode job (R175, R185): the pool buffer and the decode order of its picture, MISSING, TAINT and
the cause bits of the picture. -/
structure JobRef where
  index : Nat
  order : Nat
  poc : Int
  missing : Bool
  taint : Bool
  cause : Nat
  deriving DecidableEq, Repr

/-- A decode job (R175) until it ends: its number in its context, what its words carry, and its engine and start stamp once it
runs. -/
structure PicJob where
  slot : Nat
  key : Nat
  codec : Bool
  incomplete : Bool
  lost : Nat
  rap : Bool
  cls : Nat
  poc : Int
  order : Nat
  refs : List JobRef
  outRef : Option Nat
  display : Bool
  deadline : Stamp
  supplied : Option Stamp
  arrival : Stamp
  cause : Nat
  seq : Nat
  outBuf : Option Nat
  bsAddr : Nat
  bsLen : Nat
  depth : Nat
  running : Option (Nat × Stamp)
  deriving DecidableEq, Repr

/-- A decode context beyond its registers (R177, R182, R186): jobs not ended, oldest first, the parameter set in force, the
pictures decoded, the decode order of each pool buffer's picture, the pictures impaired since the taint began, and the job ring:
the words of the latest jobs, by number (R175). -/
structure DecCtx where
  jobs : List PicJob := []
  params : Option StreamParams := none
  order : Nat := 0
  orders : List (Nat × Nat) := []
  impaired : Nat := 0
  ring : List (Nat × List Nat) := []
  deriving DecidableEq, Repr

/-- An armed pending set (R195). -/
structure EncSet where
  idr : Bool
  qp : Option Nat
  rate : Option Nat
  gv : Option (Int × Int)
  apply : Stamp
  armedAt : Stamp
  deriving DecidableEq, Repr

/-- An encode job until it ends: bucket, input buffer, capture stamp, picture type, whether the IDR is periodic, the rate
settings and the global vector in force at its bucket, its QP once it is chosen, and its engine. -/
structure EncJob where
  bucket : Nat
  slot : Nat
  buf : Nat
  cap : Stamp
  idr : Bool
  periodic : Bool
  qpBase : Nat
  rate : Nat
  gv : Int × Int
  qp : Nat
  running : Option (Nat × Stamp)
  deriving DecidableEq, Repr

/-- What the search and the mode decision gave a 16 × 16 block (R192, R193): its vector in quarter samples, the second-best of the
refined results, and its intra prediction where it is coded intra: 0 DC, 1 horizontal, 2 vertical, 3 planar. A block of an IDR
picture has no vector. -/
structure BlockMode where
  mv : Option (Int × Int)
  second : Option (Int × Int)
  intra : Option Nat
  deriving DecidableEq, Repr

/-- An encode context beyond its registers (R189 to R195): jobs, the armed set, the settings that sets have applied, the
fullness f, whether a picture has been coded, the pictures coded, what the search gave each block of the picture coded last
(R192), and the job ring. -/
structure EncCtx where
  jobs : List EncJob := []
  armed : Option EncSet := none
  qpBase : Option Nat := none
  rate : Option Nat := none
  gv : Int × Int := (0, 0)
  fullness : Nat := 0
  started : Bool := false
  coded : Nat := 0
  field : List BlockMode := []
  ring : List (Nat × List Nat) := []
  deriving DecidableEq, Repr

/-- An access unit of a stream that waits for its release (R163, R164): its packets' RTP payloads, the number of its first
packet once it is known (R361), and the packets released. -/
structure TxAu where
  bucket : Nat
  idr : Bool
  cap : Stamp
  ready : Stamp
  payloads : List (List Byte)
  first : Option Nat
  sent : Nat
  deriving DecidableEq, Repr

/-- A stream beyond its registers: the number that follows its last numbered access unit, whether it waits for the twin's,
access units, the IDR buckets whose SEQ has not left, own numbers of IDR buckets, and packets and octets sent. -/
structure TxStream where
  next : Option Nat := none
  queue : List TxAu := []
  seqDue : List Nat := []
  own : List (Nat × Nat) := []
  packets : Nat := 0
  octets : Nat := 0
  deriving DecidableEq, Repr

/-! ### Memory and protection -/

/-- A violation (R404): its unit, the stamp of the check, and what a record holds of it. -/
structure Violation where
  unit : Nat
  stamp : Stamp
  cause : Nat
  kind : Nat
  user : Bool
  key : Nat
  source : Nat
  addr : Nat
  deriving DecidableEq, Repr

/-- A DRAM transaction in a channel controller, or that waits for a place in one (R371, R372): `oldRules` and `oldTags` tell
that it was checked before the last apply point (R407, R409), `carried` that an urgent write of its burst carries it (R373). -/
structure Txn where
  access : Access
  inBudget : Bool
  arrival : Stamp
  oldRules : Bool
  oldTags : Bool
  carried : Bool := false
  deriving DecidableEq, Repr

/-- A channel controller beyond its registers: transactions in the order of acceptance, open rows and postponed refreshes
by bank, the scrub pass, a helper run, and whether an uncorrectable error has been recorded. -/
structure Chan where
  queue : List Txn := []
  rows : List (Nat × Nat) := []
  postponed : List (Nat × Nat) := []
  scrubbed : Nat := 0
  scrubStart : Stamp := 0
  scrubTold : Bool := false
  running : Bool := false
  ueSeen : Bool := false
  deriving DecidableEq, Repr

/-- A group's regulator (R386): the bucket in thousandths of a byte below full when it was last looked at, and the run of
milliseconds with requests out of budget: the last of them, its length, its requests, and the last event. -/
structure Regulator where
  missing : Nat := 0
  seen : Stamp := 0
  lastMs : Nat := 0
  run : Nat := 0
  excess : Nat := 0
  told : Option Stamp := none
  deriving DecidableEq, Repr

/-- The memory system beyond its registers: the ports in panic as bit sets, the hold, requests held at the fabric entry with
their arrival (R388), transactions that wait for a place in a channel, and bursts stored as uncorrectable (R379). -/
structure Mem where
  headPanic : Nat := 0
  flyPanic : Nat := 0
  camPanic : Nat := 0
  capPanic : Nat := 0
  holdSince : Option Stamp := none
  heldReqs : List Txn := []
  waiting : List Txn := []
  chans : List (Nat × Chan) := []
  regs : List (Nat × Regulator) := []
  poison : List Nat := []
  deriving DecidableEq, Repr

/-! ### Cameras and capture -/

/-- A bundle that has been taken (R208, R210): its values, the first frame it is predicted for, and the fate of its sensor
writes: 0 none to tell, 1 late, 2 refused (R209). -/
structure Bundle where
  num : Nat
  exp : Nat
  again : Nat
  dgain : Nat
  wb : List Nat
  eff : Nat
  fate : Nat
  deriving DecidableEq, Repr

/-- A camera frame (R204 to R212): counter, arrival, last packet, lines received with their samples, what went wrong, the
bundle once it is decided, its statistics flags, its outputs (output, slot, buffer), and its completeness once it ended. -/
structure CamFrame where
  n : Nat
  arrival : Stamp
  last : Stamp
  rows : List (List Nat) := []
  linkBad : Bool := false
  fault : Bool := false
  lost : Bool := false
  decided : Bool := false
  num : Nat := 0
  exp : Nat := 0
  again : Nat := 0
  dgain : Nat := 0
  wb : List Nat := []
  flags : Nat := 0
  outs : List (Nat × Nat × Option Nat) := []
  code : Nat := 0
  cause : Nat := 0
  deriving DecidableEq, Repr

/-- A camera pipeline beyond its registers: the frame counter, the frame that arrives, ended frames whose outputs have not
finished, bundles taken, newest first, the bundles whose sensor writes run or wait with their take edges, oldest first (R209), and
silence (R206). -/
structure Cam where
  count : Nat := 0
  frame : Option CamFrame := none
  ended : List CamFrame := []
  bundles : List Bundle := []
  writes : List (Nat × Stamp) := []
  lastStart : Stamp := 0
  silent : Bool := false
  deriving DecidableEq, Repr

/-- A capture frame (R224): slot, buffer and sequence number, arrival, whether it differs from its slot, and its lines. -/
structure CapFrame where
  slot : Nat
  buf : Option Nat
  seq : Nat
  arrival : Stamp
  differs : Bool
  rows : List (List (Nat × Nat × Nat))
  deriving DecidableEq, Repr

/-- A capture port beyond its registers. -/
structure Cap where
  frame : Option CapFrame := none
  lastStart : Option Stamp := none
  deriving DecidableEq, Repr

/-! ### Touch -/

/-- A touch (R327 to R329): ID, peak position in 1/256 node and in panel units, peak signal, blob area, the start stamp of
its DOWN frame, and LONG. -/
structure TouchPt where
  id : Nat
  xc : Int
  yc : Int
  x : Nat
  y : Nat
  s : Nat
  area : Nat
  down : Stamp
  long : Bool
  deriving DecidableEq, Repr

/-- A report on its way to base firmware (R330): channel, scan frame counter, start stamp, and its 320 bytes. -/
structure TouchReport where
  channel : Nat
  k : Nat
  start : Stamp
  bytes : List Byte
  deriving DecidableEq, Repr

/-- A message on the die-to-die link (R23, R24). To the core die: a touch report, sensor readings as register words, the state of
the loop and the input measurements of an evaluation, a reference edge with its φ. To the analogue die: a register write. -/
inductive D2dMsg
  | report (r : TouchReport)
  | sensors (words : List (Nat × Word))
  | loop (words : List (Nat × Word))
  | edge (k : Nat) (phi : Int)
  | write (src : Source) (trim : Bool) (addr : Nat) (data : Word)
  deriving DecidableEq, Repr

/-- A touch as the touch policy follows it (R440): ID, DOWN position and stamp, and the gestures that have acted. -/
structure Gesture where
  id : Nat
  x : Nat
  y : Nat
  down : Stamp
  acted : List Nat
  deriving DecidableEq, Repr

/-- A touch channel beyond its registers: the scan frame in progress, baselines and calibration counts by frequency × 4096 +
node (node i + 64 j; self electrode 3072 + e), the calibration in progress, filtered noise, hopping, negative runs, frozen
nodes, touches and objects, the self-test, and base firmware's side of it. `skip`: the frame under way began before RECAL
(R325); `lastPtr`: the pointer words that the last touch gave (R333). -/
structure TouchCh where
  scan : Option (Nat × Stamp) := none
  active : Nat := 0
  hopped : Bool := false
  base : List (Nat × Int) := []
  cal : List (Nat × Nat) := []
  calSum : List (Nat × Nat) := []
  calFrames : Nat := 0
  initial : Bool := true
  noise : List (Nat × Option Nat) := []
  hopRun : Option (Nat × Nat) := none
  hopTo : Option Nat := none
  negRun : List Nat := []
  frozen : List Nat := []
  touches : List TouchPt := []
  objects : Nat := 0
  noisySince : Option Stamp := none
  noisyTold : Bool := false
  test : Option (List Nat) := none
  lastK : Option Nat := none
  lastTouch : Stamp := 0
  lastPtr : Nat × Nat := (0, 0)
  skip : Bool := false
  gestures : List Gesture := []
  deriving DecidableEq, Repr

/-! ### DisplayPort transmit ports -/

/-- A transmit port beyond its registers (R306, R307): what the sink can do, the streams whose allocation the topology refuses, and
since when the port is in WAIT. -/
structure DpPort where
  sinkRate : Nat := 0
  sinkLanes : Nat := 0
  denied : List Nat := []
  waitSince : Stamp := 0
  deriving DecidableEq, Repr

/-! ### Pegs -/

/-- A pending or armed peg (R114, R117, R121, R122): its slot of the pool, its entry's fields, and its writes as addresses and
values. -/
structure Peg where
  slot : Nat
  stager : Nat
  group : Nat
  tag : Nat
  queue : Nat
  arg : Nat
  commit : Bool
  rpt : Bool
  armed : Bool
  launch : Stamp
  deadline : Stamp
  writes : List (Nat × Word)
  deriving DecidableEq, Repr

/-- A peg that base firmware puts into a stager entry. -/
structure PegSpec where
  queue : Nat
  kind : Nat
  arg : Nat
  commit : Bool
  launch : Stamp
  window : Nat
  writes : List (Nat × Word)
  deriving DecidableEq, Repr

/-- What a group of base firmware is for (R437, R440, R473): a recall, a preset, or a change of the planner. -/
inductive FwUse
  | recall
  | preset
  | change (id : Nat)
  deriving DecidableEq, Repr

/-- A group that base firmware has ready for stager 0 (R513). -/
structure FwGroup where
  group : Nat
  use : FwUse
  pegs : List PegSpec
  deriving DecidableEq, Repr

/-- The peg engine beyond its registers: pegs in acceptance order, the stagers whose SUBMIT waits for its check, in order, the
last boundary of each queue and ARG (queue × 2^14 + ARG), base firmware's group in check and those that wait, and the groups
of recalls. -/
structure PegEngine where
  pegs : List Peg := []
  checks : List Nat := []
  last : List (Nat × Stamp) := []
  fwNow : Option FwGroup := none
  fwNext : List FwGroup := []
  recalls : List Nat := []
  /-- Changes of the planner whose group base firmware cancels once stager 0 is free (R475, R513). -/
  fwCancel : List Nat := []
  /-- What the pegs of the last boundary wrote: address, stamp and value (R118). -/
  wrote : List (Nat × Stamp × Word) := []
  deriving DecidableEq, Repr

/-! ### Journal and policy -/

/-- A policy action that base firmware has taken up (R439): action, argument, the event's address. -/
structure PolicyAct where
  action : Nat
  arg : Nat
  place : FaultAddr
  deriving DecidableEq, Repr

/-- The journal beyond its registers (R448, R450): records kept until the ring opens, the last sequence number of each
severity, and base firmware's actions that wait. -/
structure Journal where
  kept : List (List Byte) := []
  sevLast : List (Nat × Nat) := []
  acts : List PolicyAct := []
  deriving DecidableEq, Repr

/-! ### Ageing -/

/-- A change of the planner (R473, R474): its number, domain (0 core, 1 DRAM, 2 SerDes), channel or lane, register and its
values, peg group, launch time, the margin before, whether it is a reversal, and whether it has executed. -/
structure Change where
  id : Nat
  domain : Nat
  unit : Nat
  reg : Nat
  old : Word
  new : Word
  group : Nat
  launch : Stamp
  margin : Int
  reversal : Bool
  done : Bool
  deriving DecidableEq, Repr

/-- A channel's sweep (R463): when it ended, and for each of the 18 bits the read and write eyes and the two Vref windows as
(lo, hi); none where offset 0 shows errors. -/
structure MarginSweep where
  done : Stamp
  rd : List (Option (Int × Int))
  wr : List (Option (Int × Int))
  rv : List (Option (Int × Int))
  wv : List (Option (Int × Int))
  track : Nat
  deriving DecidableEq, Repr

/-- The ageing unit beyond its registers: the loop's last slack and the interval's lowest slack and largest droop, the floor
condition (R462), by second the highest voltage term and the largest droop (R468, R469), sweeps by channel, lanes whose eye has
been measured since the last plan, eye heights at the neighbour settings C − 1 and C + 1 by lane, the plans with the ballast of
each domain where it was measured, changes, and pairs reported above DLIM. -/
structure Ageing where
  prev : Option Nat := none
  lowSlack : Nat := 255
  droop : Nat := 0
  belowSince : Option Stamp := none
  aboveSince : Option Stamp := none
  floorTold : Bool := false
  seconds : List (Nat × Int × Nat) := []
  sweeps : List (Nat × MarginSweep) := []
  near : List (Nat × Nat × Nat) := []
  eyes : List Nat := []
  plans : List (Stamp × List (Option Int)) := []
  changes : List Change := []
  nextId : Nat := 0
  lastLaunch : Option Stamp := none
  dlimTold : List Nat := []
  deriving DecidableEq, Repr

/-! ### Pitch, management, watch cores -/

/-- Pitch beyond its registers: fuses as read and blown, the image in force, T_R on present Muith time, the power-on hold, the
RESET_N level, whether the reset in progress began with the power-on hold, the end of APPLY, which parallel steps have ended,
whether HEADS has begun, camera sequences that run, when HEADS ended and when the part sealed (R414 to R431). -/
structure Pitch where
  fuses : Fuses := ⟨[], 0, 0, [], false, false⟩
  image : Option FlashImage := none
  tr : Stamp := 0
  held : Bool := true
  resetLow : Bool := false
  fromPower : Bool := true
  applyAt : Option Stamp := none
  timeDone : Bool := false
  trainDone : Bool := false
  loadDone : Bool := false
  headsBegun : Bool := false
  initRun : List Nat := []
  headsEnd : Option Stamp := none
  sealAt : Option Stamp := none
  deriving DecidableEq, Repr

/-- Management and watch cores: keys by index and the last accepted sequence numbers (R441, R443), the SMBus read pointer
(R445), each hart's last watchdog signal and whether its silence has been reported (R453), the CRC of each 64 KiB window at
seal and the windows reported (R454), and monitors that stand beyond their limits. -/
structure Manage where
  keys : List (Nat × List Byte) := []
  seqs : List (Nat × Nat) := []
  pointer : Nat := 0
  harts : List (Nat × Stamp × Bool) := []
  sealCrc : List (Nat × Nat) := []
  crcTold : List (Nat × Nat) := []
  beyond : List Nat := []
  deriving DecidableEq, Repr

/-! ### The whole part -/

/-- What base firmware answers under R139: an ARP reply and a neighbour advertisement with the MAC address and the address asked
for, to the asker, and an echo reply. -/
inductive BaseAnswer
  | arp (mac ip toMac toIp : Nat)
  | neighbour (mac addr toMac toAddr : Nat)
  | echo (ipv6 : Bool) (saddr daddr ident seq : Nat) (data : List Byte)
  deriving DecidableEq, Repr

/-- MST sideband requests (R305). -/
inductive Sideband
  | linkAddress
  | enumPathResources
  /-- With the VC payload ID (R307). -/
  | allocatePayload (vc : Nat)
  | clearPayloadIdTable
  | remoteDpcdRead
  | remoteDpcdWrite
  | remoteI2cRead
  | powerUpPhy
  deriving DecidableEq, Repr

/-- What a transmit port does on its AUX channel (R305, R306). -/
inductive AuxOp
  /-- Reading the DPCD capabilities. -/
  | capabilities
  /-- Setting the repeaters of the sink path to non-transparent mode. -/
  | repeaters
  /-- Reading the EDID over I2C-over-AUX. -/
  | edid
  /-- Training at a rate and lane count, coded as in `DPT_CTL`. -/
  | train (rate lanes : Nat)
  /-- A sideband request to the place that a RAD names: hops and branch ports. -/
  | sideband (req : Sideband) (hops ports : Nat)
  deriving DecidableEq, Repr

/-- The part of a frame that a line belongs to (R288). -/
inductive LinePart
  | frontPorch
  | sync
  | backPorch
  | active
  deriving DecidableEq, Repr

/-- What a stream's main stream attributes and colorimetry declare (R288, R299): the raster, the polarity of both syncs, FMT,
and BT.709 for YCbCr where sRGB holds for RGB; the transfer is SDR. `vc` is the VC payload ID on an MST port. -/
structure StreamAttr where
  vc : Option Nat
  hTotal : Nat
  hActive : Nat
  hfp : Nat
  hsw : Nat
  hPos : Bool
  vTotal : Nat
  vActive : Nat
  vfp : Nat
  vsw : Nat
  vPos : Bool
  fmt : Nat
  bt709 : Bool
  deriving DecidableEq, Repr

/-- What has left the part, or a pin's change, in order (log 6). -/
inductive TxMsg
  /-- A Delay_Req of a port: over IPv6, its address where it is unicast, and its number (R95). -/
  | delayReq (port : Nat) (ipv6 : Bool) (dest : Option Nat) (seq : Nat)
  /-- A 64-byte Bolral flit (R340). -/
  | flit (bytes : List Byte)
  /-- A UDP datagram on a port's sub-port: VLAN ID (0 untagged), source and destination address, port, DSCP and payload. -/
  | udp (port sub vid : Nat) (ipv6 : Bool) (saddr daddr dport dscp : Nat) (payload : List Byte)
  /-- Base firmware's answer under R139. -/
  | answer (port sub : Nat) (a : BaseAnswer)
  /-- An IGMPv3 or MLDv2 report (R144): group, and the source where it is source-specific. -/
  | join (port sub : Nat) (ipv6 : Bool) (group : Nat) (source : Option Nat)
  /-- The answer to an initiator's access: protection unit, SOURCE, the data of a read, and the error flag (R378, R403). -/
  | reply (unit source : Nat) (data : List Byte) (error : Bool)
  /-- A write on a pipeline's camera control interface: pipeline, target address, register, bytes (R209). -/
  | cci (p target reg : Nat) (bytes : List Byte)
  /-- The clock on CSIn_MCLK changes: on or off, and its frequency in kHz (R202). -/
  | mclk (p : Nat) (on : Bool) (khz : Nat)
  /-- A 1 µs pulse on CSIn_FSYNC (R202). -/
  | fsync (p : Nat)
  /-- IRQ_HPD on a capture port (R223). -/
  | irqHpd (q : Nat)
  /-- The answer to a request on a capture port's AUX channel (R222). -/
  | aux (q : Nat) (bytes : List Byte)
  /-- A datagram on the MGT port: IPv6, address, port and payload (R442, R449). -/
  | mgt (ipv6 : Bool) (daddr dport : Nat) (payload : List Byte)
  /-- The answer of the SMBus target to a block read (R445). -/
  | smb (bytes : List Byte)
  /-- An interrupt of a head to the control cores: head and signal (R303). -/
  | irq (h signal : Nat)
  /-- A transmit port's transaction on its AUX channel (R305). -/
  | dpAux (p : Nat) (op : AuxOp)
  /-- The main stream attributes of a stream, before a frame of it (R299). -/
  | mainStream (p st : Nat) (m : StreamAttr)
  /-- The picture parameter set of a stream with DSC (R308). -/
  | parameterSet (p st : Nat) (bytes : List Byte)
  /-- A line of a stream that a transmit port carries: port, stream, its part of the frame, the components of its active pixels,
  and the pixels of front porch, sync and back porch that follow (R288, R299, R307). -/
  | video (p st : Nat) (part : LinePart) (line : List (Nat × Nat × Nat)) (hfp hsw hbp : Nat)
  /-- A frame's compressed bytes of a stream with DSC (R308). -/
  | compressed (p st : Nat) (bytes : List Byte)
  /-- A user program starts (R426). -/
  | program (index : Nat)
  /-- A set-point of the core rail on AVSBus, in units of 0.1 mV (R461, R486). -/
  | avs (vset : Nat)
  /-- ALERT_N or FAULT_N changes: 1 asserted (R450, R451). -/
  | alertN (level : Nat)
  | faultN (level : Nat)
  deriving DecidableEq, Repr

/-- The part without its command queue. Units whose state has no register have a field each. -/
structure Chip where
  /-- Muith time: the master counter as nanoseconds since the PTP epoch (R86). -/
  clk : Stamp := 0
  /-- The register file: words that differ from their reset value, by address. -/
  regs : List (Nat × Word) := []
  /-- The latched copies of words read after SNAP (R20). -/
  latch : List (Nat × Word) := []
  /-- The table windows, by offset from 0x4200_0000 (R504). -/
  tbw : List (Nat × Byte) := []
  /-- DRAM, by offset from 0x10_0000_0000 (R500). -/
  dram : List (Nat × Byte) := []
  /-- Events queued for the watch cores, oldest first (R448). -/
  evq : List Ev := []
  /-- Events dropped since the last record 0x0301: count, first and last code (R448). -/
  evDrop : Option (Nat × Nat × Nat) := none
  rate : List (Nat × RateWin) := []
  tx : List TxMsg := []
  mui : Muith := {}
  /-- The time taps of the clock domains that stand off the master counter, by their row in R30's table (R33, R89). -/
  taps : List (Nat × Tap) := []
  watch : Watch := {}
  chk : List (Nat × ChkUnit) := []
  pnt : Points := {}
  bol : Bolral := {}
  twn : Twin := {}
  slots : List (Nat × Slot) := []
  net : List (Nat × NetSlot) := []
  /-- The merge store, oldest packet first (R154). -/
  held : List HeldPacket := []
  aus : List AccessUnit := []
  /-- What each window shows in its head's current frame, by head × 524288 + element: slot, buffer, and whether the frame
  qualified (R58, R62). -/
  shown : List (Nat × Option (Nat × Nat × Bool)) := []
  /-- The part index and the SVN and key period of the image in force (R6, R417). -/
  partIndex : Nat := 0
  /-- The current copies of element entries, of each head's window descriptors (head × 4096 + descriptor) and of signature
  regions, that the compositors hold (R269, R507). -/
  curElem : List (Nat × List Byte) := []
  curDesc : List (Nat × List Byte) := []
  curRegion : List (Nat × List Byte) := []
  /-- Each head's current provenance map: the entries it was built from, in blend order (R66, R67). -/
  prov : List (Nat × List (Nat × List Byte)) := []
  elems : List (Nat × ElemState) := []
  heads : List (Nat × Head) := []
  roomNumber : Nat := 0
  dec : List (Nat × DecCtx) := []
  enc : List (Nat × EncCtx) := []
  txs : List (Nat × TxStream) := []
  /-- The end of the state save that follows an engine's job of a virtual context (R179). -/
  saving : List (Nat × Stamp) := []
  mem : Mem := {}
  /-- The current copy of each protection unit's `PRU_CTL` (R406). -/
  pruCur : List (Nat × Nat) := []
  violations : List Violation := []
  /-- Writes to the colour tag shadow that wait for the copy to end (R409). -/
  tagHeld : List (Nat × List Byte) := []
  /-- Trim words in effect, by address (R384). -/
  trims : List (Nat × Word) := []
  cams : List (Nat × Cam) := []
  caps : List (Nat × Cap) := []
  tch : List (Nat × TouchCh) := []
  /-- Messages that wait in the die-to-die link's queues while it is down (R24), to the core and to the analogue die, the
  messages discarded there, and touch reports that have reached the core die. -/
  d2dQueue : List D2dMsg := []
  d2dDown : List D2dMsg := []
  d2dLost : Nat := 0
  touchIn : List TouchReport := []
  ports : List (Nat × DpPort) := []
  /-- The GPIO pins that heads drive, as 2 × head + level (R304). -/
  gpo : List (Nat × Nat) := []
  peg : PegEngine := {}
  jrn : Journal := {}
  age : Ageing := {}
  pitch : Pitch := {}
  mgt : Manage := {}
  deriving DecidableEq, Repr

/-- The state: the part, and the commands that wait, first in, first out. -/
structure State where
  chip : Chip
  pending : List Instr
  deriving DecidableEq, Repr

/-- Why a command stops the block with a fault. -/
inductive Fault
  /-- Raised by every meaning whose operands name a unit, port or entry that the part does not have, or an access of a
  shape that no initiator issues (R401). Safe: no such event exists on the part. -/
  | noSuchUnit
  deriving DecidableEq, Repr

/-- Why a command has no meaning. -/
inductive Refusal
  /-- Raised by a dispatch arm whose command has no meaning yet. Safe: the block stops where the part goes on. -/
  | notModelled (mnemonic : String)
  deriving DecidableEq, Repr

/-- The part in the power-on hold that precedes T_R (R414, R415): every register at its reset value, nothing queued, DRAM
undefined (log 7). -/
def State.reset : State := { chip := {}, pending := [] }

end Sys2Proof.Machine
end

