-- ==== Sys2Proof/Machine/Ops.lean ====
section
/-! DEFINITION. The named operations over the register file, the table windows and DRAM, and the frame in which every
meaning runs. -/

namespace Sys2Proof.Machine

/-! ### The frame of a meaning -/

/-- A meaning's outcome: where the operands name parts of the hardware that exist (`ok`), the next state is the present
one with `f` applied to the part; the queue is not touched. -/
def runIf (ok : Bool) (f : Chip → Chip) (s : State) : Host.Outcome State Fault Refusal :=
  if ok then .next { s with chip := f s.chip } else .fault .noSuchUnit

/-- The command happens at stamp `t` of the tap of the domain it happens in (R34): `t` is the stamp of all it stamps, whatever
the commands before it carried (log 3). -/
def Chip.at (c : Chip) (t : Stamp) : Chip := { c with clk := t }

/-- One cycle of the Muith clock with no command (R86): the master counter advances by 1 ns. -/
def idleCycle (c : Chip) : Chip := { c with clk := c.clk + 1 }

/-- What left the part. -/
def Chip.send (c : Chip) (m : TxMsg) : Chip := { c with tx := c.tx ++ [m] }

/-- Several messages leave the part, in order. -/
def Chip.sendAll (c : Chip) (l : List TxMsg) : Chip := { c with tx := c.tx ++ l }

/-! ### Registers -/

/-- The word a register holds. -/
def Chip.reg (c : Chip) (a : Nat) : Word := mapGet resetWord c.regs a

/-- The register at `a` takes the word `w`. -/
def Chip.setReg (c : Chip) (a : Nat) (w : Word) : Chip := { c with regs := mapPut resetWord c.regs a w }

/-- Bits `hi` to `lo` of the register at `a`. -/
def Chip.fld (c : Chip) (a hi lo : Nat) : Nat := bitsOf (c.reg a) hi lo

/-- Bit `b` of the register at `a` is 1. -/
def Chip.bit (c : Chip) (a b : Nat) : Bool := c.fld a b b == 1

/-- Bits `hi` to `lo` of the register at `a` take `v`. -/
def Chip.setFld (c : Chip) (a hi lo v : Nat) : Chip := c.setReg a (putBits (c.reg a) hi lo v)

/-- The register at `a` takes the low 32 bits of a number. -/
def Chip.setNat (c : Chip) (a v : Nat) : Chip := c.setReg a (BitVec.ofNat 32 v)

/-- A field read as two's complement. -/
def Chip.sfld (c : Chip) (a hi lo : Nat) : Int := signedOf (hi + 1 - lo) (c.fld a hi lo)

/-- The 64-bit value whose low word lies at `lo` and high word at `hi`. -/
def Chip.wide (c : Chip) (lo hi : Nat) : Nat := (c.reg lo).toNat + (c.reg hi).toNat * 2 ^ 32

/-- Both words of a 64-bit value. -/
def Chip.setWide (c : Chip) (lo hi v : Nat) : Chip := (c.setNat lo (v % 2 ^ 32)).setNat hi (v / 2 ^ 32)

/-- What a read of a register address returns: the latched copy of a word read after SNAP, 0 in a WO field, 0 where the
extent holds no register (R15, R20, R501). A read changes nothing (R18). -/
def Chip.readReg (c : Chip) (a : Nat) : Word :=
  match descAt a with
  | some (d, _) => if d.snap then mapGet resetWord c.latch a else d.readMask (c.reg a)
  | none => 0

/-- `SEALED`: the part has sealed (R431). -/
def Chip.isSealed (c : Chip) : Bool := c.bit R.pitStat 31

/-! ### Memories -/

/-- What a byte of DRAM that nothing has written reads as (R415 leaves it undefined; DESIGN CHOICE, log 7). -/
def dramDefault : Nat → Byte := fun _ => 0

/-- What a byte of a table window that nothing has written reads as (DESIGN CHOICE, log 8). -/
def tbwDefault : Nat → Byte := fun _ => 0

/-- R367: the capacity that `DMC_CFG.CAP` selects. -/
def Chip.dramCap (c : Chip) : Nat := 2 ^ (34 + min (c.fld R.dmcCfg 1 0) 2)

/-- R376: the usable size; with inline ECC the lowest 31/32 of the capacity. -/
def Chip.dramUsable (c : Chip) : Nat := if c.bit R.dmcCfg 30 then c.dramCap / 32 * 31 else c.dramCap

/-- The `n` bytes from physical address `a` lie in the usable DRAM. -/
def Chip.inDram (c : Chip) (a n : Nat) : Bool := decide (dramBase ≤ a) && decide (a + n ≤ dramBase + c.dramUsable)

/-- `n` bytes of DRAM from physical address `a`. An access elsewhere is faulted and reads zeros (R377, R403). -/
def Chip.dramBytes (c : Chip) (a n : Nat) : List Byte :=
  if c.inDram a n then memRead dramDefault c.dram (a - dramBase) n else List.replicate n 0

/-- A little-endian number of `n` bytes in DRAM. -/
def Chip.dramNat (c : Chip) (a n : Nat) : Nat := leNat (c.dramBytes a n)

/-- Bytes written to DRAM from physical address `a`. A faulted write changes nothing (R403). -/
def Chip.dramWrite (c : Chip) (a : Nat) (l : List Byte) : Chip :=
  if c.inDram a l.length then { c with dram := memWrite dramDefault c.dram (a - dramBase) l } else c

/-- A number written to DRAM as `n` little-endian bytes. -/
def Chip.dramPut (c : Chip) (a n v : Nat) : Chip := c.dramWrite a (leBytes n v)

/-- `n` bytes of the table windows from offset `o`. -/
def Chip.tbwBytes (c : Chip) (o n : Nat) : List Byte := memRead tbwDefault c.tbw o n

/-- A little-endian number of `n` bytes in the table windows. -/
def Chip.tbwNat (c : Chip) (o n : Nat) : Nat := leNat (c.tbwBytes o n)

/-- Bytes written to the table windows from offset `o`. -/
def Chip.tbwWrite (c : Chip) (o : Nat) (l : List Byte) : Chip := { c with tbw := memWrite tbwDefault c.tbw o l }

/-- A number written to the table windows as `n` little-endian bytes. -/
def Chip.tbwPut (c : Chip) (o n v : Nat) : Chip := c.tbwWrite o (leBytes n v)

/-- The 40-bit physical address that a register pair holds: bits 31:0 and, in bits 7:0 of the second word, 39:32. -/
def Chip.base40 (c : Chip) (lo hi : Nat) : Nat := (c.reg lo).toNat + (c.reg hi).toNat % 256 * 2 ^ 32

/-! ### Folding over instances -/

/-- `f` applied for 0, 1, …, `n` − 1 in order. -/
def forN {α : Type} (n : Nat) (f : Nat → α → α) (a : α) : α := (List.range n).foldl (fun a i => f i a) a

/-- `f` applied for each element of a list in order. -/
def forL {α β : Type} (l : List β) (f : β → α → α) (a : α) : α := l.foldl (fun a x => f x a) a

end Sys2Proof.Machine
end

