-- ==== Sys2Proof/Machine/Flags.lean ====
section
/-! DEFINITION. The flags and counts that every unit shares: saturating counters, result registers (R19), events and
their rate limit (R448, R514), refused commands (R17, R433) and dropped writes (R434). -/

namespace Sys2Proof.Machine

/-! ### Counters and results -/

/-- A counting field advances by `n` and saturates. -/
def Chip.addFld (c : Chip) (a hi lo n : Nat) : Chip := c.setFld a hi lo (satAdd (hi + 1 - lo) (c.fld a hi lo) n)

/-- A 32-bit saturating counter advances by 1. -/
def Chip.bump (c : Chip) (a : Nat) : Chip := c.addFld a 31 0 1

/-- A 32-bit saturating counter advances by `n`. -/
def Chip.bumpBy (c : Chip) (a n : Nat) : Chip := c.addFld a 31 0 n

/-- A result register gets a new result (R19): VALID (bit 31) is set and SEQ (bits 15:0) advances modulo 2^16. -/
def Chip.publish (c : Chip) (a : Nat) : Chip := (c.setFld a 31 31 1).setFld a 15 0 (c.fld a 15 0 + 1)

/-- A result register whose next result is not ready yet shows VALID clear (R19). -/
def Chip.unpublish (c : Chip) (a : Nat) : Chip := c.setFld a 31 31 0

/-! ### Ethernet ports (R138) -/

/-- R138: the sub-port that a register's SUB names on port `p`: in 100 Gbit/s mode there is sub-port 0 alone. -/
def Chip.subOf (c : Chip) (p sub : Nat) : Nat := if c.bit (R.netPort p) 30 then sub else 0

/-- R138: the sub-port exists in the port's mode and the port is enabled. -/
def Chip.subportOn (c : Chip) (p sub : Nat) : Bool := c.bit (R.netPort p) 31 && (c.bit (R.netPort p) 30 || sub == 0)

/-- A frame leaves on a sub-port of an enabled port and is counted in TX_OK. -/
def Chip.netSend (c : Chip) (p sub : Nat) (m : TxMsg) : Chip :=
  if c.subportOn p sub then (c.bump (R.netCnt p sub 3)).send m else c

/-! ### Events -/

/-- The event queue holds 1,024 events (R448). -/
def evqCap : Nat := 1024

/-- `EVJ_STAT.BACKLOG` shows the events queued (R456). -/
def Chip.syncBacklog (c : Chip) : Chip := c.setFld R.evjStat 10 0 c.evq.length

/-- R448: a dropped event is counted in DROPPED and kept as count, first and last code for record 0x0301. -/
def Chip.dropEvent (c : Chip) (code : Nat) : Chip :=
  { c.bump (R.evjCnt 1) with
    evDrop := match c.evDrop with
      | none => some (1, code, code)
      | some (n, first, _) => some (n + 1, first, code) }

/-- An event is raised: it enters the queue of the watch cores, or is dropped and counted when the queue is full. -/
def Chip.raise (c : Chip) (e : Ev) : Chip :=
  if c.evq.length < evqCap then ({ c with evq := c.evq ++ [e] } : Chip).syncBacklog else c.dropEvent e.code

/-- An event addressed at `place`, stamped with the present time, with its further content. -/
def Chip.event (c : Chip) (code : Nat) (place : FaultAddr) (content : List CField) : Chip :=
  c.raise { code := code, place := place, stamp := c.clk, content := content }

/-- R377: `n` bytes of DRAM at `a` reach beyond the usable size. -/
def Chip.isBeyond (c : Chip) (a n : Nat) : Bool :=
  decide (dramBase ≤ a) && decide (a < dramBase + c.dramCap) && decide (dramBase + c.dramUsable < a + n)

/-- R377: an access of a memory group to `n` bytes of DRAM at `a` that reaches beyond the usable size raises 0xD007. -/
def Chip.refuseBeyond (c : Chip) (group a n : Nat) : Chip :=
  if c.isBeyond a n then c.event 0xD007 .room [.val 1 group, .val 8 (a - dramBase)] else c

/-- The number of occurrences put where a rate-limited event carries it. -/
def Ev.withCount (e : Ev) (n : Nat) : Ev :=
  { e with content := e.content.map (fun f => match f with | .occ => .val 4 n | f => f) }

/-- No event of the code and unit has been raised. -/
def rateDefault : Nat → RateWin := fun _ => { last := none, count := 0, first := none }

/-- The key of R514 for an event code and a unit. -/
def rateKey (code unit : Nat) : Nat := code * 2 ^ 20 + unit

/-- R514: `n` occurrences of an event raised at most once per second per unit. 1 s or more after the last one it is
raised at once with their number; within that second they are counted, the first one is kept, and nothing is raised at
once. -/
def Chip.raiseLimitedBy (c : Chip) (unit : Nat) (e : Ev) (n : Nat) : Chip :=
  let k := rateKey e.code unit
  let w := mapGet rateDefault c.rate k
  let free := match w.last with
    | none => true
    | some l => elapsed e.stamp l nsPerS && w.count == 0
  if free then
    ({ c with rate := mapPut rateDefault c.rate k { last := some e.stamp, count := 0, first := none } } : Chip).raise
      (e.withCount n)
  else
    let w' : RateWin := { w with count := w.count + n, first := some (w.first.getD e) }
    { c with rate := mapPut rateDefault c.rate k w' }

/-- One occurrence of a rate-limited event. -/
def Chip.raiseLimited (c : Chip) (unit : Nat) (e : Ev) : Chip := c.raiseLimitedBy unit e 1

/-- A rate-limited event at `place` with its further content. -/
def Chip.eventLimited (c : Chip) (unit code : Nat) (place : FaultAddr) (content : List CField) : Chip :=
  c.raiseLimited unit { code := code, place := place, stamp := c.clk, content := content }

/-- A rate-limited event whose fields, other than its stamp, describe the last occurrence (R514, R378). -/
def Chip.eventLimitedLast (c : Chip) (unit code : Nat) (place : FaultAddr) (content : List CField) : Chip :=
  let c := c.eventLimited unit code place content
  let w := mapGet rateDefault c.rate (rateKey code unit)
  let w' : RateWin := { w with first := w.first.map (fun e => { e with content := content }) }
  { c with rate := mapPut rateDefault c.rate (rateKey code unit) w' }

/-- R514: the second after an event of code and unit has ended; occurrences counted in it are raised at that instant, as
one event with the first occurrence's stamp and their number. -/
def Chip.rateWindowEnd (c : Chip) (code unit : Nat) : Chip :=
  let k := rateKey code unit
  let w := mapGet rateDefault c.rate k
  match w.last, w.first with
  | some l, some e =>
    if elapsed c.clk l nsPerS && decide (0 < w.count) then
      ({ c with rate := mapPut rateDefault c.rate k { last := some c.clk, count := 0, first := none } } : Chip).raise
        (e.withCount w.count)
    else c
  | _, _ => c

/-! ### Refusals and dropped writes -/

/-- SOURCE of R433. -/
def srcCode : Source → Nat
  | .user => 0
  | .base => 1
  | .peg => 2
  | .mgt => 3
  | .smbus => 4
  | .touch => 5
  | .policy => 6

/-- The word offset of a register address from 0x4000_0000. -/
def wordOfs (a : Nat) : Nat := (a - 0x40000000) / 4

/-- The 64 KiB window of a register address: its bits 25:16 (R433). -/
def windowOf (a : Nat) : Nat := bitsNat a 25 16

/-- R17, R433: a refused command has no effect of its own; its window's refusal count advances (and `PEG_REFUSE` for
PEG, R132), and an empty refusal record is filled, which raises event 0x0108. -/
def Chip.refuse (c : Chip) (src : Source) (a : Nat) (data : Word) (cause : Nat) : Chip :=
  let c := c.bump (R.pitRefcnt (windowOf a))
  let c := if decide (0x400A0000 ≤ a) && decide (a < 0x400E0000) then c.bump R.pegRefuse else c
  if c.bit R.pitRef 31 then c
  else
    let c := c.setFld R.pitRef 31 31 1
    let c := c.setFld R.pitRef 26 24 (srcCode src)
    let c := c.setFld R.pitRef 19 16 cause
    let c := c.setFld R.pitRefAddr 25 0 (wordOfs a)
    let c := c.setReg R.pitRefData data
    let c := c.setWide R.pitRefStampLo R.pitRefStampHi (shortStamp c.clk)
    c.event 0x0108 .room [.val 4 (wordOfs a), .val 4 data.toNat, .val 1 (srcCode src), .val 1 cause, .val 8 (shortStamp c.clk)]

/-- R434: a dropped write advances `PIT_SWR.COUNT`; the first after VALID was cleared fills ADDR; event 0x0109 under
its rate limit. -/
def Chip.dropWrite (c : Chip) (a : Nat) : Chip :=
  let c := c.bump R.pitSwrCount
  let c := if c.bit R.pitSwr 31 then c else (c.setFld R.pitSwr 31 31 1).setFld R.pitSwr 25 0 (wordOfs a)
  c.eventLimited 0 0x0109 .room [.occ, .val 4 (wordOfs a)]

/-- The bound that another register gives a field (`HED_LCMP.LINE` ≤ V_TOTAL − 1, R311; `EVJ_ACK` is clamped by its own
meaning). -/
def Chip.dynBound (c : Chip) (a : Nat) : Nat :=
  c.fld (R.hedVtim ((a - 0x40A80000) / 0x1000)) 31 16 - 1

/-- R15, R16, R511: a write to a register takes effect field by field, and is dropped and counted where R15 says. -/
def Chip.writeFields (c : Chip) (a : Nat) (w : Word) : Chip :=
  match descAt a with
  | none => c
  | some (d, _) =>
    let old := c.reg a
    let c' := c.setReg a (d.after c.isSealed (c.dynBound a) old w)
    if d.drops c.isSealed old w then c'.dropWrite a else c'

/-- The writes of a command's register: the value with `v` in bits `hi` to `lo`. -/
def cmdWord (code : Nat) : Word := BitVec.ofNat 32 (code * 2 ^ 28)

/-! ### The die-to-die link (R23, R24) -/

/-- The link is trained and carries traffic. -/
def Chip.d2dUp (c : Chip) : Bool := c.bit R.sysD2dStat 31

/-- R24, R25: a message finds the queue of its direction full: it is discarded and counted. -/
def Chip.d2dDrop (c : Chip) : Chip := { c.addFld R.sysD2dStat 15 0 1 with d2dLost := c.d2dLost + 1 }

/-- R24: a message to the core die waits for the link. -/
def Chip.queueUp (c : Chip) (m : D2dMsg) : Chip :=
  if c.d2dQueue.length < 256 then { c with d2dQueue := c.d2dQueue ++ [m] } else c.d2dDrop

/-- R24: a message to the analogue die waits for the link. -/
def Chip.queueDown (c : Chip) (m : D2dMsg) : Chip :=
  if c.d2dDown.length < 256 then { c with d2dDown := c.d2dDown ++ [m] } else c.d2dDrop

/-- R23, R24: a command to a unit on the analogue die acts, or waits for the link as the register write that it is. -/
def Chip.overLink (c : Chip) (src : Source) (a : Nat) (w : Word) (f : Chip → Chip) : Chip :=
  if c.d2dUp then f c else c.queueDown (.write src false a w)

/-! ### The end of HEADS (R426, R431) -/

/-- R426: milliseconds since T_R. -/
def Chip.sinceReset (c : Chip) : Nat := (c.clk - c.pitch.tr) / nsPerMs

/-- R431: HEADS has ended: every enabled head is RUNNING, every camera sequence has ended, and every touch channel has ended
calibration and self-test. -/
def Chip.headsOver (c : Chip) : Bool :=
  c.pitch.headsBegun && !c.bit R.pitStat 30 && c.pitch.headsEnd.isNone && c.pitch.initRun.isEmpty &&
    (List.range 32).all (fun h => !c.bit (R.hedCtl h) 31 || c.fld (R.hedStat h) 31 30 == 2) &&
    (List.range 4).all (fun h => !c.bit (R.tchCtl h) 31 || (c.fld (R.tchStat h) 31 30 == 2 && !c.bit (R.tchStat h) 29))

/-- R426, R431: the end of HEADS is noted when it comes. -/
def Chip.noteHeads (c : Chip) : Chip :=
  if c.headsOver then { c.setNat (R.pitTimes 6) c.sinceReset with pitch := { c.pitch with headsEnd := some c.clk } } else c

end Sys2Proof.Machine
end

