-- ==== Sys2Proof/Machine/Check.lean ====
section
/-! DEFINITION. The 16 check units (R244 to R246, R254). -/

namespace Sys2Proof.Machine

/-- Every unit starts with no message and no counter. -/
def chkDefault : Nat → ChkUnit := fun _ => {}

/-- Unit `u`. -/
def Chip.chkUnit (c : Chip) (u : Nat) : ChkUnit := mapGet chkDefault c.chk u

/-- Unit `u` changes. -/
def Chip.modChk (c : Chip) (u : Nat) (f : ChkUnit → ChkUnit) : Chip := { c with chk := mapMod chkDefault c.chk u f }

/-- Bytes of the alive counter: 0, 1 or 2 (R254, ALIVE). -/
def aliveBytes (alive : Nat) : Nat := if alive == 0 then 0 else if alive == 1 then 1 else 2

/-- R245: START opens a message under the configuration that stands now; in append mode it advances the counter. -/
def Chip.chkStart (c : Chip) (u : Nat) : Chip :=
  let alive := c.fld (R.chkCfg u) 29 28
  let append := !c.bit (R.chkCfg u) 30
  let w := 8 * aliveBytes alive
  let c := c.modChk u (fun x => { x with
    isOpen := true, fed := [], append := append, alive := alive, poly := c.fld (R.chkCfg u) 2 0,
    counter := if append && alive != 0 then (x.counter + 1) % 2 ^ w else x.counter })
  (c.setFld (R.chkRes u) 27 27 1).unpublish (R.chkRes u)

/-- R244: bytes added to the open message. -/
def Chip.chkFeed (c : Chip) (u : Nat) (l : List Byte) : Chip := c.modChk u (fun x => { x with fed := x.fed ++ l })

/-- What closing a unit's message finds (R245): OK, REPEAT, GAP, the counter, the payload length, the check value. -/
structure ChkVerdict where
  ok : Bool
  rep : Bool
  gap : Bool
  alive : Nat
  length : Nat
  check : Nat
  deriving DecidableEq, Repr

/-- R245: the verdict over the bytes fed. -/
def ChkUnit.verdict (x : ChkUnit) : ChkVerdict :=
  let p := crcPoly x.poly
  let n := aliveBytes x.alive
  if x.append then
    { ok := true, rep := false, gap := false, alive := x.counter, length := x.fed.length,
      check := crcOf p (leBytes n x.counter ++ x.fed) }
  else
    let m := p.width / 8
    let body := x.fed.take (x.fed.length - m)
    let v := crcOf p body
    let ok := decide (x.fed.drop (x.fed.length - m) = crcBytes x.poly v)
    let ctr := leNat (x.fed.take n)
    let (rep, gap) := match x.lastGood with
      | none => (false, false)
      | some l => if n == 0 then (false, false) else (ctr == l, ctr != l && ctr != (l + 1) % 2 ^ (8 * n))
    { ok := ok, rep := rep, gap := gap, alive := ctr, length := x.fed.length - m - n, check := v }

/-- R245, R254: FINISH closes the message and writes the result and the counts. After the first message of check mode the last accepted
counter is that message's, or the 0 of the reset where it was not accepted. -/
def Chip.chkFinish (c : Chip) (u : Nat) : Chip :=
  let x := c.chkUnit u
  let v := x.verdict
  let c := c.modChk u (fun x => { x with
    isOpen := false,
    lastGood := if x.append then x.lastGood else some (if v.ok && !v.rep then v.alive else x.lastGood.getD 0) })
  let c := ((((c.setFld (R.chkRes u) 30 30 (if v.ok then 1 else 0)).setFld (R.chkRes u) 29 29 (if v.rep then 1 else 0)).setFld
    (R.chkRes u) 28 28 (if v.gap then 1 else 0)).setFld (R.chkRes u) 27 27 0).publish (R.chkRes u)
  let c := (c.setFld (R.chkResAlive u) 15 0 v.alive).setNat (R.chkResLength u) v.length
  let c := c.setWide (R.chkResCheckLo u) (R.chkResCheckHi u) v.check
  let c := c.bump (R.chkCnt u 0)
  let c := if v.ok then c else c.bump (R.chkCnt u 1)
  if v.rep then c.bump (R.chkCnt u 2) else c

/-- A whole message through unit `u`, with its verdict: what the part's own users of units 0 to 4 do (R246). -/
def Chip.chkRun (c : Chip) (u : Nat) (l : List Byte) : Chip × ChkVerdict :=
  let c := (c.chkStart u).chkFeed u l
  (c.chkFinish u, (c.chkUnit u).verdict)

/-! ### The commands (R254) -/

/-- The first condition of R254's list that refuses a command of unit `u`; 0 for none. -/
def Chip.chkCause (c : Chip) (cmd u : Nat) : Nat :=
  let x := c.chkUnit u
  let need := aliveBytes x.alive + (crcPoly x.poly).width / 8
  if cmd == 1 then
    (if !c.bit (R.chkCfg u) 31 then 1 else if x.isOpen then 2 else if u ≤ 4 then 3 else 0)
  else if cmd == 2 then
    (if !x.isOpen then 1 else if !x.append && decide (x.fed.length < need) then 2 else if u ≤ 4 then 3 else 0)
  else if cmd == 3 then (if x.isOpen then 1 else if u ≤ 4 then 2 else 0)
  else 0

/-- R254: a write of CMD to `CHK_CMD[u]`. -/
def Chip.chkCommand (c : Chip) (src : Source) (u cmd : Nat) : Chip :=
  let cause := c.chkCause cmd u
  if cause != 0 then c.refuse src (R.chkCmd u) (cmdWord cmd) cause
  else if cmd == 1 then c.chkStart u
  else if cmd == 2 then c.chkFinish u
  else if cmd == 3 then c.modChk u (fun x => { x with counter := 0, lastGood := none })
  else c

/-- R254: a feed of `n` bytes, low byte first (R244). -/
def Chip.chkFeedWrite (c : Chip) (src : Source) (u a n : Nat) (data : Word) : Chip :=
  if !(c.chkUnit u).isOpen then c.refuse src a data 1
  else if u ≤ 4 then c.refuse src a data 2
  else c.chkFeed u (leBytes n data.toNat)

/-- R254, R246: a write of `CHK_CFG[u]`; units 0 to 4 refuse it. -/
def Chip.chkConfig (c : Chip) (src : Source) (u : Nat) (data : Word) : Chip :=
  if u ≤ 4 then c.refuse src (R.chkCfg u) data 1 else c.writeFields (R.chkCfg u) data

/-- START (R245). -/
def execStart (t : Stamp) (src : Source) (u : Nat) (s : State) : Host.Outcome State Fault Refusal :=
  runIf (decide (u < 16)) (fun c => (c.at t).chkCommand src u 1) s

/-- FINISH (R245). -/
def execFinish (t : Stamp) (src : Source) (u : Nat) (s : State) : Host.Outcome State Fault Refusal :=
  runIf (decide (u < 16)) (fun c => (c.at t).chkCommand src u 2) s

/-- RESET_ALIVE (R254). -/
def execResetAlive (t : Stamp) (src : Source) (u : Nat) (s : State) : Host.Outcome State Fault Refusal :=
  runIf (decide (u < 16)) (fun c => (c.at t).chkCommand src u 3) s

/-- FEED_BYTE (R244). -/
def execFeedByte (t : Stamp) (src : Source) (u : Nat) (data : Word) (s : State) : Host.Outcome State Fault Refusal :=
  runIf (decide (u < 16)) (fun c => (c.at t).chkFeedWrite src u (R.chkFeedB u) 1 data) s

/-- FEED_HALF_WORD (R244). -/
def execFeedHalfWord (t : Stamp) (src : Source) (u : Nat) (data : Word) (s : State) : Host.Outcome State Fault Refusal :=
  runIf (decide (u < 16)) (fun c => (c.at t).chkFeedWrite src u (R.chkFeedH u) 2 data) s

/-- FEED_WORD (R244). -/
def execFeedWord (t : Stamp) (src : Source) (u : Nat) (data : Word) (s : State) : Host.Outcome State Fault Refusal :=
  runIf (decide (u < 16)) (fun c => (c.at t).chkFeedWrite src u (R.chkFeedW u) 4 data) s

/-- CHK_CFG_WRITE (R254). -/
def execChkCfgWrite (t : Stamp) (src : Source) (u : Nat) (data : Word) (s : State) : Host.Outcome State Fault Refusal :=
  runIf (decide (u < 16)) (fun c => (c.at t).chkConfig src u data) s

end Sys2Proof.Machine
end

