-- ==== Sys2Proof/Machine/Muith.lean ====
section
/-! DEFINITION. Muith time and reference selection (spec/03_muith_time.md): the input tests, the evaluation of every
millisecond, the loop, holdover, and the time taps. -/

namespace Sys2Proof.Machine

/-! ### Events of the timebase -/

/-- R113: every event carries the state of the timebase and the active input, after its own fields; with no active input the
field holds what `MUI_STAT.ACTIVE` holds then, 0 (DESIGN CHOICE, log 28). -/
def Chip.muiEvent (c : Chip) (code : Nat) (content : List CField) : Chip :=
  c.event code .room (content ++ [.val 1 (c.fld R.muiStat 2 0), .val 1 (c.fld R.muiStat 14 12)])

/-- The states of R103. -/
def tbUnset : Nat := 0
/-- See `tbUnset`. -/
def tbAcquiring : Nat := 1
/-- See `tbUnset`. -/
def tbTethered : Nat := 2
/-- See `tbUnset`. -/
def tbPulling : Nat := 3
/-- See `tbUnset`. -/
def tbFreeFlight : Nat := 4
/-- See `tbUnset`. -/
def tbFreeRun : Nat := 5

/-- The timebase state (R103). -/
def Chip.tbState (c : Chip) : Nat := c.fld R.muiStat 2 0

/-- The φ of the active input as event fields carry it: 4 bytes in units of 2^-8 ns. -/
def phiField (p : Int) : CField := .val 4 (twosOf 32 (clampInt (-0x7FFFFFFF) 0x7FFFFFFF p))

/-- Keeping the account of tethered time at a change of state (R103). -/
def Muith.accountState (m : Muith) (now : Stamp) (new : Nat) : Muith :=
  let m := match m.tetherSince with
    | some s => if new == tbTethered then m else { m with tetherNs := m.tetherNs + (now - s), tetherSince := none }
    | none => if new == tbTethered then { m with tetherSince := some now } else m
  if new == tbFreeFlight || new == tbFreeRun then { m with tetherNs := 0, tetherSince := none } else m

/-- The timebase goes to a state; a change raises 0x0801 with old and new state, φ and TRACE (R103, R113). -/
def Chip.setTb (c : Chip) (new : Nat) : Chip :=
  let old := c.tbState
  let c := c.setFld R.muiStat 2 0 new
  let c := { c with mui := c.mui.accountState c.clk new }
  if new == old then c
  else c.muiEvent 0x0801 [.val 1 old, .val 1 new, phiField c.mui.loopPhi, .val 1 (c.fld R.muiStat 5 4)]

/-! ### Inputs -/

/-- The tests that an input fails before anything has been received on it (R93; DESIGN CHOICE, log 11). -/
def unseenFailing (k : Nat) : List Nat :=
  match k with
  | 0 => [5] | 1 => [5] | 2 => [8] | 3 => [1, 2] | 4 => [1, 2] | 5 => [2, 7] | 6 => [1] | _ => []

/-- Every input starts unseen. -/
def refDefault : Nat → RefInput := fun k => { failing := unseenFailing k }

/-- Input `k`. -/
def Chip.refIn (c : Chip) (k : Nat) : RefInput := mapGet refDefault c.mui.inputs k

/-- Input `k` changes. -/
def Chip.modRefIn (c : Chip) (k : Nat) (f : RefInput → RefInput) : Chip :=
  { c with mui := { c.mui with inputs := mapMod refDefault c.mui.inputs k f } }

/-- R91: inputs 0, 1, 2 and 5 give seconds and phase. -/
def timeBearing (k : Nat) : Bool := k == 0 || k == 1 || k == 2 || k == 5

/-- R91: inputs 3 and 4 give the phase of each second. -/
def phaseBearing (k : Nat) : Bool := k == 3 || k == 4

/-- The state of input `k` (R98). -/
def Chip.refState (c : Chip) (k : Nat) : Nat := c.fld (R.refStat k) 2 0

/-- The input of priority entry `e`, when the entry is enabled (R100). -/
def Chip.entryInput (c : Chip) (e : Nat) : Option Nat :=
  if c.bit (R.refPrio e) 31 then some (c.fld (R.refPrio e) 14 12) else none

/-- The enabled entry that names input `k`, the lowest-numbered one. -/
def Chip.entryOf (c : Chip) (k : Nat) : Option Nat := (List.range 8).find? (fun e => c.entryInput e == some k)

/-- The active input, where one is selected. -/
def Chip.activeInput (c : Chip) : Option Nat := if c.bit R.muiStat 15 then some (c.fld R.muiStat 14 12) else none

/-- R93: a test of input `k` fails; the first failure since the last evaluation names the cause, the prediction is
dropped and qualification starts again. -/
def Chip.failInput (c : Chip) (k cause : Nat) : Chip :=
  c.modRefIn k (fun i => { i with
    failing := if i.failing.contains cause then i.failing else i.failing ++ [cause],
    firstFail := if i.firstFail == 0 then cause else i.firstFail,
    predicted := false, qualCount := 0 })

/-- A test of input `k` passes again. -/
def Chip.passInput (c : Chip) (k cause : Nat) : Chip :=
  c.modRefIn k (fun i => { i with failing := i.failing.filter (fun x => x != cause) })

/-- R93: the φ that the jump test expects at `now`, in 2^-8 ns: the last accepted φ advanced by the frequency offset
between the Muith clock and the input since then. -/
def Chip.predictedPhi (c : Chip) (k : Nat) (now : Stamp) : Int :=
  let i := c.refIn k
  i.phi.getD 0 + (c.mui.muiFreq - i.freq) * stampGap now i.phiAt / (256 * 1000000000)

/-- R107: live, a time- or phase-bearing φ beyond the far limit fails the input with cause FAR and event 0x0903; a φ back
within it passes the test. -/
def Chip.farTest (c : Chip) (k : Nat) (phi : Int) : Chip :=
  let limit : Int := c.fld R.refQualPhase 31 16 * 1000 * 256
  if !c.bit R.muiStat 8 || c.refState k == 0 || !(timeBearing k || phaseBearing k) then c
  else if limit < phi.natAbs then
    if (c.refIn k).failing.contains 10 then c
    else (c.failInput k 10).muiEvent 0x0903 [.val 1 k, phiField phi]
  else c.passInput k 10

/-- A φ sample of input `k` in 2^-8 ns (R92, R93): it is measured against the prediction; a sample beyond the jump limit
is discarded and fails the input with cause JUMP; after a failure the first sample once all other tests pass starts the
prediction again. `credit` is what an accepted sample adds to the qualification. -/
def Chip.phiSample (c : Chip) (k : Nat) (phi : Int) (credit : Nat) : Chip :=
  let i := c.refIn k
  let jump : Int := c.fld R.refQualPhase 15 0 * 256
  let others := i.failing.filter (fun x => x != 4 && x != 10)
  let accept (c : Chip) : Chip :=
    let c := c.modRefIn k (fun i => { i with
      phi := some phi, phiAt := c.clk, predicted := i.predicted || others.isEmpty,
      failing := if others.isEmpty then i.failing.filter (fun x => x != 4) else i.failing })
    let c := c.farTest k phi
    if c.refState k == 2 && (c.refIn k).failing.isEmpty then
      c.modRefIn k (fun i => { i with qualCount := i.qualCount + credit })
    else c
  if i.predicted && decide (jump < (phi - c.predictedPhi k c.clk).natAbs) then c.failInput k 4
  else accept c

/-! ### Edges, sentences, PTP -/

/-- R92, R93, R97: a PPS edge of input `k` at Muith time `edge` in 2^-8 ns. -/
def Chip.ppsEdge (c : Chip) (k edge : Nat) : Chip :=
  let i := c.refIn k
  let sec : Int := 256 * 1000000000
  let gapOk := match i.lastEdge with
    | none => false
    | some e => decide (((edge : Int) - e - sec).natAbs ≤ 256 * 1000)
  let c := if gapOk then c.passInput k 2 else if i.lastEdge.isSome then c.failInput k 2 else c
  let c := c.modRefIn k (fun i => { i with lastEdge := some edge, seen := true })
  let e : Int := (edge : Int) - 256 * c.sfld (R.refDly (k - 3)) 31 0
  if k == 5 then
    let labelled := match i.label with
      | none => none
      | some (s, at_) =>
        let d : Int := (edge : Int) / 256 - at_
        if decide (100000000 ≤ d) && decide (d ≤ 900000000) then some s else none
    match labelled with
    | none => (c.failInput k 7).modRefIn k (fun i => { i with label := none })
    | some s =>
      let c := (c.passInput k 7).modRefIn k (fun i => { i with label := none })
      c.phiSample k (e - s * sec) (if gapOk then 1 else 0)
  else
    let s := (e + sec / 2) / sec
    c.phiSample k (e - s * sec) (if gapOk then 1 else 0)

/-- PPS_EDGE (R92): the analogue die measures the edge and judges it; the measurement is a message to the core die (R23). -/
def execPpsEdge (t : Stamp) (k edge : Nat) (s : State) : Host.Outcome State Fault Refusal :=
  runIf (decide (3 ≤ k) && decide (k ≤ 5)) (fun c =>
    let c := (c.at t).ppsEdge k edge
    if c.d2dUp then c else c.queueUp (.edge k ((c.refIn k).phi.getD 0))) s

/-- PPS_TIMEOUT (R93): an edge is missing past 1 s + 1 µs. -/
def execPpsTimeout (t : Stamp) (k : Nat) (s : State) : Host.Outcome State Fault Refusal :=
  runIf (decide (3 ≤ k) && decide (k ≤ 5)) (fun c =>
    let c := c.at t
    match (c.refIn k).lastEdge with
    | some e => if elapsed c.clk (e / 256) (nsPerS + nsPerUs) then c.failInput k 2 else c
    | none => c) s

/-- ACTIVITY_GAP (R93): a gap of more than 8 periods on the clock of input 3, 4 or 6. -/
def execActivityGap (t : Stamp) (k : Nat) (s : State) : Host.Outcome State Fault Refusal :=
  runIf (k == 3 || k == 4 || k == 6) (fun c => (c.at t).failInput k 1) s

/-- The offset that turns a sentence's UTC into TAI (R97): the one of R88 where a qualified input gives it, else
`REF_GNSS.UTC_OFS`. -/
def Chip.taiOffset (c : Chip) : Int :=
  if c.bit R.muiUtc 31 then c.sfld R.muiUtc 15 0 else c.sfld R.refGnss 15 0

/-- GNSS_SENTENCE (R97): a ZDA sentence whose last character arrives at `t`; a valid one labels the next edge with its
UTC seconds plus 1 s as TAI. -/
def execGnssSentence (t : Stamp) (utcSeconds : Nat) (valid : Bool) (s : State) : Host.Outcome State Fault Refusal :=
  runIf true (fun c =>
    let c := c.at t
    if valid then
      c.modRefIn 5 (fun i => { i with label := some (((utcSeconds : Int) + 1 + c.taiOffset).toNat, c.clk) })
    else c) s

/-- Every port starts without a master. -/
def ptpDefault : Nat → PtpPort := fun _ => {}

/-- The PTP state of port `p`. -/
def Chip.ptp (c : Chip) (p : Nat) : PtpPort := mapGet ptpDefault c.mui.ports p

/-- Port `p`'s PTP state changes. -/
def Chip.modPtp (c : Chip) (p : Nat) (f : PtpPort → PtpPort) : Chip :=
  { c with mui := { c.mui with ports := mapMod ptpDefault c.mui.ports p f } }

/-- The data-set comparison of the default best master clock algorithm: the first differing member decides, the smaller
is the better master. -/
def rankBetter : List Nat → List Nat → Bool
  | [], _ => false
  | _, [] => false
  | a :: as, b :: bs => if a < b then true else if b < a then false else rankBetter as bs

/-- The best master among the announces heard (R95). -/
def bestMaster : List Announce → Option Announce
  | [] => none
  | a :: rest =>
    match bestMaster rest with
    | none => some a
    | some b => if rankBetter b.rank a.rank then some b else some a

/-- R95, R93: an Announce: the senders heard, the best master, its grandmaster and clockClass. -/
def Chip.ptpAnnounce (c : Chip) (p : Nat) (a : Announce) : Chip :=
  let port := c.ptp p
  let heard := port.heard.filter (fun x => x.sender != a.sender) ++ [a]
  let best := bestMaster heard
  let c := c.modPtp p (fun q => { q with heard := heard, master := best })
  match best with
  | none => c
  | some m =>
    let c := c.modRefIn p (fun i => { i with seen := true, utc := m.utc })
    let c := if decide (c.fld (R.refPtp p) 7 0 < m.clockClass) then c.failInput p 5 else c
    match port.qualGm with
    | none => c.modPtp p (fun q => { q with qualGm := some m.gm })
    | some old =>
      if old == m.gm then c
      else
        -- R93: the input fails with cause GM and qualifies again from the start with the new grandmaster.
        let c := ((c.failInput p 6).passInput p 6).modPtp p (fun q => { q with qualGm := some m.gm, window := [] })
        c.muiEvent 0x0904 [.val 1 p, .val 8 old, .val 8 m.gm]

/-- R96: the exchange with the smallest round trip of a window, the earliest of equal ones. -/
def bestExchange : List (Int × Int) → Option (Int × Int)
  | [] => none
  | x :: rest =>
    match bestExchange rest with
    | none => some x
    | some y => if y.1 < x.1 then some y else some x

/-- R96: one completed exchange's round trip and φ in ns. -/
def ptpExchange (t1 t2 t3 t4 : Nat) (corrSync corrDreq asym : Int) : Int × Int :=
  let dms := (t2 : Int) - t1 - corrSync / 65536
  let dsm := (t4 : Int) - t3 - corrDreq / 65536
  (dms + dsm, (dms - dsm - asym) / 2)

/-- R96: the exchanges of a selection window of port `p`. WIN is 1 to 64 in a field of six bits: 0 stands for 64 (DESIGN CHOICE,
log 91). -/
def Chip.ptpWin (c : Chip) (p : Nat) : Nat :=
  let w := c.fld (R.refPtpWin p) 5 0
  if w == 0 then 64 else w

/-- R96: an exchange completes; a full window passes the φ of its smallest round trip. -/
def Chip.ptpComplete (c : Chip) (p : Nat) (x : Int × Int) : Chip :=
  let port := c.ptp p
  let classOk := match port.master with
    | some m => decide (m.clockClass ≤ c.fld (R.refPtp p) 7 0)
    | none => false
  let c := if classOk then c.passInput p 5 else c
  let c := if c.refState p == 2 && (c.refIn p).failing.isEmpty then
      c.modRefIn p (fun i => { i with qualCount := i.qualCount + 1 }) else c
  let window := port.window ++ [x]
  if decide (c.ptpWin p ≤ window.length) then
    let c := c.modPtp p (fun q => { q with window := [] })
    match bestExchange window with
    | some b => c.phiSample p (b.2 * 256) 0
    | none => c
  else c.modPtp p (fun q => { q with window := window })

/-- The message's domain and sender are those of port `p`'s master. -/
def Chip.ptpFromMaster (c : Chip) (p domain sender : Nat) : Bool :=
  domain == c.fld (R.refPtp p) 23 16 && ((c.ptp p).master.map (·.sender)) == some sender

/-- R95: the Delay_Req that answers a Sync from `saddr`: over the port's IP version, multicast or to the master's address. -/
def Chip.delayReq (c : Chip) (p saddr seq : Nat) : Chip :=
  c.netSend p 0 (.delayReq p (c.bit (R.refPtp p) 30) (if c.bit (R.refPtp p) 29 then some saddr else none) seq)

/-- R95, R96: one PTP message on port `p`, from the address `saddr`. -/
def Chip.ptpMessage (c : Chip) (p saddr : Nat) : PtpMsg → Chip
  | .announce domain a => if domain == c.fld (R.refPtp p) 23 16 then c.ptpAnnounce p a else c
  | .sync domain sender seq twoStep t1 t2 corr =>
    if c.ptpFromMaster p domain sender then
      let c := c.modPtp p (fun q => { q with sync := some (sender, seq, if twoStep then none else some t1, t2, corr) })
      if twoStep then c else c.delayReq p saddr seq
    else c
  | .followUp domain sender seq t1 corr =>
    match (c.ptp p).sync with
    | some (s, q, none, t2, corr0) =>
      if c.ptpFromMaster p domain sender && s == sender && q == seq then
        (c.modPtp p (fun q => { q with sync := some (sender, seq, some t1, t2, corr0 + corr) })).delayReq p saddr seq
      else c
    | _ => c
  | .delayResp domain sender seq t3 t4 corr =>
    match (c.ptp p).sync with
    | some (s, q, some t1, t2, corr0) =>
      if c.ptpFromMaster p domain sender && s == sender && q == seq then
        (c.modPtp p (fun q => { q with sync := none })).ptpComplete p
          (ptpExchange t1 t2 t3 t4 corr0 corr (c.sfld (R.refPtpAsym p) 31 0))
      else c
    | _ => c
  | .other => c

/-- The domain of a PTP message of the kinds that the instance takes. -/
def ptpDomain : PtpMsg → Option Nat
  | .announce d _ => some d
  | .sync d _ _ _ _ _ _ => some d
  | .followUp d _ _ _ _ => some d
  | .delayResp d _ _ _ _ _ => some d
  | .other => none

/-- R95, R140: a message is one of port `p`'s PTP instance: over its IP version and of its domain. -/
def Chip.ptpOwn (c : Chip) (p : Nat) (m : PtpFrame) : Bool :=
  m.ipv6 == c.bit (R.refPtp p) 30 && (match ptpDomain m.msg with
    | some d => d == c.fld (R.refPtp p) 23 16
    | none => true)

/-- R95: a PTP message reaches port `p`'s instance when it comes over the IP version that the port has selected. -/
def Chip.ptpReceive (c : Chip) (p : Nat) (m : PtpFrame) : Chip :=
  if m.ipv6 == c.bit (R.refPtp p) 30 then c.ptpMessage p m.saddr m.msg else c

/-- PTP_MESSAGE_RECEIVE (R95): a PTP message on port A or B, sub-port 0. -/
def execPtpMessageReceive (t : Stamp) (p : Nat) (m : PtpFrame) (s : State) : Host.Outcome State Fault Refusal :=
  runIf (decide (p < 2)) (fun c => (c.at t).ptpReceive p m) s

/-- ANNOUNCE_TIMEOUT (R93): no announce or exchange within the receipt timeout; the instance loses its master. -/
def execAnnounceTimeout (t : Stamp) (p : Nat) (s : State) : Host.Outcome State Fault Refusal :=
  runIf (decide (p < 2)) (fun c =>
    let c := c.at t
    (c.failInput p 5).modPtp p (fun q => { q with heard := [], master := none, sync := none, window := [] })) s

/-! ### Input states (R98) -/

/-- R106, step 4: input `k` has become AVAILABLE before seal: base firmware loads the counter again in FREE RUN, or when its entry
is below the one that supplied the seconds and |φ| is beyond FAR. -/
def Chip.noteReload (c : Chip) (k : Nat) : Chip :=
  let far := decide (c.fld R.refQualPhase 31 16 * nsPerUs * 256 < ((c.refIn k).phi.getD 0).natAbs)
  match c.entryOf k with
  | none => c
  | some e =>
    if c.pitch.timeDone && !c.isSealed && (c.tbState == tbFreeRun || (decide (e < c.mui.secEntry.getD 8) && far)) then
      { c with mui := { c.mui with reload := some e } }
    else c

/-- The state of an input changes with the event that R98's table gives the transition: `REF_STAT` and event 0x0901 with
input, old and new state and cause. The table gives OFF to FAILED, FAILED to QUALIFYING and ACTIVE to AVAILABLE none. -/
def Chip.setRefState (c : Chip) (k new cause : Nat) : Chip :=
  let old := c.refState k
  let c := c.setFld (R.refStat k) 2 0 new
  let c := if cause == 0 then c else c.setFld (R.refStat k) 31 28 cause
  let c := if new == 3 then c else c.setFld (R.refStat k) 23 12 0
  let c := if new == 4 || new == 5 then c.modRefIn k (fun i => { i with everAvail := true }) else c
  let c := if new == 4 && old != 5 then c.noteReload k else c
  if old == new then c else c.muiEvent 0x0901 [.val 1 k, .val 1 old, .val 1 new, .val 1 (c.fld (R.refStat k) 31 28)]

/-- R93: the qualification time of input `k` is complete. -/
def Chip.qualified (c : Chip) (k : Nat) : Bool :=
  let i := c.refIn k
  c.refState k == 2 && i.failing.isEmpty && i.firstFail == 0 &&
    (if k == 0 || k == 1 then decide (2 * c.ptpWin k ≤ i.qualCount)
     else if k == 2 then decide (16 ≤ i.qualCount)
     else if k == 6 then elapsed c.clk i.qualStart nsPerS
     else decide (4 ≤ i.qualCount))

/-- QUALIFICATION_COMPLETE (R93, R98): a first-time input, or one whose entry has WTR 0, becomes AVAILABLE; any other
enters WTR and loads its timer. -/
def execQualificationComplete (t : Stamp) (k : Nat) (s : State) : Host.Outcome State Fault Refusal :=
  runIf (decide (k < 7)) (fun c =>
    let c := c.at t
    if c.qualified k then
      let wtr := match c.entryOf k with
        | some e => c.fld (R.refPrio e) 11 0
        | none => 0
      if !(c.refIn k).everAvail || wtr == 0 then c.setRefState k 4 0
      else
        let c := c.modRefIn k (fun i => { i with wtrEnd := c.clk + wtr * nsPerS })
        (c.setRefState k 3 0).setFld (R.refStat k) 23 12 wtr
    else c) s

/-- WTR_EXPIRE (R98): the wait ends for an input whose tests all pass. -/
def execWtrExpire (t : Stamp) (k : Nat) (s : State) : Host.Outcome State Fault Refusal :=
  runIf (decide (k < 7)) (fun c =>
    let c := c.at t
    let i := c.refIn k
    if c.refState k == 3 && elapsed c.clk i.wtrEnd 0 && i.failing.isEmpty && i.firstFail == 0 then c.setRefState k 4 0 else c) s

/-- One input's part of an evaluation (R98): an input in no enabled entry is OFF, and one that an entry now enables FAILED; a failed
test takes it to FAILED with the cause and drops the wait; an input whose tests all pass again starts to qualify; the wait's
seconds left are shown. -/
def Chip.evalInput (c : Chip) (k : Nat) : Chip :=
  let st := c.refState k
  let i := c.refIn k
  let c :=
    if (c.entryOf k).isNone then c.setFld (R.refStat k) 2 0 0
    else if st == 0 then c.setFld (R.refStat k) 2 0 1
    else if !i.failing.isEmpty || i.firstFail != 0 then
      if st == 1 then c
      else c.setRefState k 1 (if i.firstFail != 0 then i.firstFail else i.failing.headD 0)
    else if st == 1 then
      (c.modRefIn k (fun i => { i with qualStart := c.clk, qualCount := 0 })).setFld (R.refStat k) 2 0 2
    else c
  let c := c.modRefIn k (fun i => { i with firstFail := 0 })
  if c.refState k == 3 then c.setFld (R.refStat k) 23 12 (((c.refIn k).wtrEnd - c.clk) / nsPerS) else c

/-- The frequency and activity tests on what was measured in the millisecond (R92, R93). -/
def Chip.observe (c : Chip) (o : RefObs) : Chip :=
  let k := o.input
  if 7 ≤ k then c
  else
    let c := c.modRefIn k (fun i => { i with freq := o.freq, seen := true })
    let c := if (k == 3 || k == 4 || k == 6) && o.present then c.passInput k 1 else c
    let c := if decide ((c.fld R.refQualFreq 19 0 * 65536 : Int) < o.freq.natAbs) then c.failInput k 3 else c.passInput k 3
    match (c.refIn k).phi with
    | some p => c.farTest k p
    | none => c

/-! ### Selection (R101, R102) -/

/-- The lowest-numbered enabled entry whose input is AVAILABLE. -/
def Chip.bestAvailable (c : Chip) : Option Nat :=
  (List.range 8).find? (fun e => match c.entryInput e with
    | some k => c.refState k == 4
    | none => false)

/-- The entry's input is AVAILABLE or ACTIVE. -/
def Chip.entryUsable (c : Chip) (e : Nat) : Bool :=
  match c.entryInput e with
  | some k => c.refState k == 4 || c.refState k == 5
  | none => false

/-- R101: the entry that an evaluation selects, or none for holdover. -/
def Chip.selectEntry (c : Chip) : Option Nat :=
  let pick := match c.mui.activeEntry with
    | some a =>
      if (c.entryInput a).map (fun k => c.refState k) == some 5 then
        match c.bestAvailable with
        | some b => if b < a && c.bit (R.refPrio b) 30 then some b else some a
        | none => some a
      else c.bestAvailable
    | none => c.bestAvailable
  match c.mui.forced with
  | some f => if c.entryUsable f then some f else pick
  | none => pick

/-- R104: TRACE of an input's kind. -/
def traceOf (k : Nat) : Nat := if timeBearing k then 3 else if phaseBearing k then 2 else if k == 6 then 1 else 0

/-- R103: the lock condition for the active input: |φ| within THRESH, or for a frequency input a frequency within
1 ppb. -/
def Chip.lockHolds (c : Chip) (k : Nat) : Bool :=
  if k == 6 then decide ((c.mui.muiFreq - (c.refIn k).freq).natAbs ≤ 65536)
  else match (c.refIn k).phi with
    | some p => decide (p.natAbs ≤ c.fld R.muiLock 31 16 * 256)
    | none => false

/-- The last φ of input `k` in 2^-8 ns, 0 for an input without one. -/
def Chip.phiOf (c : Chip) (k : Nat) : Int := (c.refIn k).phi.getD 0

/-- R98, R101, R104: entry `e` with input `k` becomes the active one, with event 0x0902. -/
def Chip.makeActive (c : Chip) (e k : Nat) : Chip :=
  let oldInput := c.activeInput
  let c := match oldInput with
    | some o => if c.refState o == 5 && o != k then c.setFld (R.refStat o) 2 0 4 else c
    | none => c
  let c := c.setFld (R.refStat k) 2 0 5
  let c := c.modRefIn k (fun i => { i with everAvail := true })
  let c := ((c.setFld R.muiStat 15 15 1).setFld R.muiStat 14 12 k).setFld R.muiStat 5 4 (traceOf k)
  let c := { c with mui := { c.mui with activeEntry := some e, loopPhi := c.phiOf k, steer := 0, lockSince := none } }
  c.muiEvent 0x0902 [.val 1 (oldInput.getD (Config.eventCode 0x0902 0)), .val 1 k, phiField (c.phiOf k)]

/-- Entry `e` is the active one, with its input `k` ACTIVE. -/
def Chip.isActive (c : Chip) (e k : Nat) : Bool := c.mui.activeEntry == some e && c.refState k == 5

/-- R101, R103: entry `e` is selected without a load of the counter. -/
def Chip.selectTo (c : Chip) (e k : Nat) : Chip :=
  if c.isActive e k then c
  else
    let c := c.makeActive e k
    let st := c.tbState
    if st == tbTethered then (if c.lockHolds k then c else c.setTb tbPulling)
    else if st == tbFreeFlight || st == tbFreeRun then c.setTb tbPulling
    else c

/-- R111: the mean of the last `n` logged seconds of tethered time. The final 2 s before `now` are left out and the `n` seconds end
there (DESIGN CHOICE, log 92: the rule does not say whether they shorten the average or move it back). -/
def meanFreq (log : List (Stamp × Int)) (n : Nat) (now : Stamp) : Int :=
  let l := (log.filter (fun e => elapsed now e.1 (2 * nsPerS))).take n
  if l.isEmpty then 0 else (l.map (·.2)).foldl (· + ·) 0 / l.length

/-- The tethered time counted so far, in whole seconds (R103). -/
def Muith.tetherSeconds (m : Muith) (now : Stamp) : Nat :=
  (m.tetherNs + (match m.tetherSince with | some s => now - s | none => 0)) / nsPerS

/-- R101, R103, R111: no entry can be selected. -/
def Chip.enterHoldover (c : Chip) : Chip :=
  let old := c.activeInput
  let c := ((c.setFld R.muiStat 15 15 0).setFld R.muiStat 14 12 0).setFld R.muiStat 5 4 0
  let st := c.tbState
  let c := { c with mui := { c.mui with activeEntry := none, steer := 0, lockSince := none } }
  if st == tbAcquiring || st == tbTethered || st == tbPulling then
    let avg := c.fld R.muiHold 31 16
    let flight := decide (avg ≤ c.mui.tetherSeconds c.clk)
    let te0 := if old == some 6 then 0 else c.mui.loopPhi.natAbs / 256
    let held := if flight then meanFreq c.mui.freqLog avg c.clk else 0
    let m := { c.mui with muiFreq := held, holdEntry := c.clk, te0 := te0, tePassed := false }
    { c with mui := m }.setTb (if flight then tbFreeFlight else tbFreeRun)
  else c

/-- The selection of an evaluation acts. Before the pitch setting nothing is selected (R103, R106). -/
def Chip.select (c : Chip) : Chip :=
  if c.tbState == tbUnset then c
  else match c.selectEntry with
    | some e => (match c.entryInput e with
      | some k => c.selectTo e k
      | none => c)
    | none => c.enterHoldover

/-- R102: the cause, counted from 1, for which a `REF_CMD` command is refused now; 0 for none. -/
def Chip.refCmdCause (c : Chip) (cmd entry : Nat) : Nat :=
  let state := (c.entryInput entry).map (fun k => c.refState k)
  if cmd == 1 then
    (if state == none then 1 else if state != some 4 then 2 else if c.mui.forced.isSome then 3 else 0)
  else if cmd == 2 then (if c.mui.forced.isNone then 1 else 0)
  else if cmd == 3 then (if state == some 3 then 0 else 1)
  else 0

/-- The word of a `REF_CMD` command. -/
def refCmdWord (cmd entry : Nat) : Word := BitVec.ofNat 32 (cmd * 2 ^ 28 + entry)

/-- R102: a queued command acts at the evaluation, or is refused there. -/
def Chip.actRefCmd (c : Chip) (q : RefCmd) : Chip :=
  let cause := c.refCmdCause q.cmd q.entry
  if cause != 0 then c.refuse q.src R.refCmd (refCmdWord q.cmd q.entry) cause
  else if q.cmd == 1 then { c with mui := { c.mui with forced := some q.entry } }
  else if q.cmd == 2 then { c with mui := { c.mui with forced := none } }
  else if q.cmd == 3 then
    match c.entryInput q.entry with
    | some k => c.setRefState k 4 0
    | none => c
  else c

/-- R102: a write of a command to `REF_CMD`: refused now, or queued for the next evaluation. -/
def Chip.refCommand (c : Chip) (src : Source) (cmd entry : Nat) : Chip :=
  if cmd == 1 || cmd == 2 || cmd == 3 then
    let cause := c.refCmdCause cmd entry
    if cause != 0 then c.refuse src R.refCmd (refCmdWord cmd entry) cause
    else { c with mui := { c.mui with cmds := c.mui.cmds ++ [{ cmd := cmd, entry := entry, src := src }] } }
  else c

/-- FORCE (R102). -/
def execForce (t : Stamp) (src : Source) (entry : Nat) (s : State) : Host.Outcome State Fault Refusal :=
  runIf (decide (entry < 8)) (fun c => (c.at t).overLink src R.refCmd (refCmdWord 1 entry) (fun c => c.refCommand src 1 entry)) s

/-- RELEASE (R102). -/
def execRelease (t : Stamp) (src : Source) (entry : Nat) (s : State) : Host.Outcome State Fault Refusal :=
  runIf (decide (entry < 8)) (fun c => (c.at t).overLink src R.refCmd (refCmdWord 2 entry) (fun c => c.refCommand src 2 entry)) s

/-- SKIP_WTR (R102). -/
def execSkipWtr (t : Stamp) (src : Source) (entry : Nat) (s : State) : Host.Outcome State Fault Refusal :=
  runIf (decide (entry < 8)) (fun c => (c.at t).overLink src R.refCmd (refCmdWord 3 entry) (fun c => c.refCommand src 3 entry)) s

/-! ### The loop (R108, R109) and the evaluation -/

/-- The bandwidth in force, in 0.01 Hz (R108). -/
def Chip.loopBw (c : Chip) : Nat :=
  if c.tbState == tbAcquiring && !c.mui.schedDone then c.fld (R.muiBw c.mui.schedIndex) 9 0 else c.fld R.muiTrack 6 0

/-- R109, R110: the correction for φ: against its sign, at most the slope limit, by a free value in between; 0 for no φ. -/
def loopCorrection (phi lim want : Int) : Int :=
  let size := clampInt 1 (max 1 lim) want.natAbs
  if phi == 0 then 0 else if 0 < phi then -size else size

/-- `from_` moved toward `to_` by at least 1 and at most `step`, and not beyond. -/
def toward (from_ to_ : Int) (step : Nat) : Int :=
  let d := to_ - from_
  from_ + clampInt (-(max 1 step : Nat)) (max 1 step : Nat) d

/-- R108 to R110: while an active input passes its tests the loop takes its φ, steers against it within the slope limit, and the
Muith clock's frequency follows the input's; for a frequency input the clock's frequency moves toward the input's with the
bandwidth in force, and stays within the limit of it. -/
def Chip.loopSample (c : Chip) : Chip :=
  match c.activeInput with
  | none => c
  | some k =>
    let i := c.refIn k
    let lim : Int := c.fld R.muiSlope 13 0 * 65536
    if !i.failing.isEmpty then c
    else if k == 6 then
      let f := toward c.mui.muiFreq i.freq (Config.loopFollow (i.freq - c.mui.muiFreq) c.loopBw)
      { c with mui := { c.mui with muiFreq := clampInt (i.freq - lim) (i.freq + lim) f, steer := 0, loopPhi := 0 } }
    else
      let phi := c.phiOf k
      let st := loopCorrection phi lim (Config.loopSteer phi c.loopBw c.mui.steer)
      { c with mui := { c.mui with loopPhi := phi, steer := st, muiFreq := i.freq + st } }

/-- R103: the lock condition's standing since when, and its loss while TETHERED. -/
def Chip.lockWatch (c : Chip) : Chip :=
  match c.activeInput with
  | none => { c with mui := { c.mui with lockSince := none } }
  | some k =>
    if c.lockHolds k then { c with mui := { c.mui with lockSince := some (c.mui.lockSince.getD c.clk) } }
    else
      let c := { c with mui := { c.mui with lockSince := none } }
      if c.tbState == tbTethered then c.setTb tbPulling else c

/-- R111: an evaluation's frequency enters the tethered second that runs; a whole second's mean enters the log, which is as long
as the longest averaging time and the 2 s before a failure need. -/
def Muith.logFreq (m : Muith) (tethered : Bool) (now : Stamp) : Muith :=
  if !tethered then { m with secFrom := none, secSum := 0, secCount := 0 }
  else
    let sum := m.secSum + m.muiFreq
    let n := m.secCount + 1
    match m.secFrom with
    | none => { m with secFrom := some now, secSum := sum, secCount := n }
    | some f =>
      if elapsed now f nsPerS then
        { m with freqLog := ((now, sum / n) :: m.freqLog).take 3603, secFrom := some now, secSum := 0, secCount := 0 }
      else { m with secSum := sum, secCount := n }

/-- See `Muith.logFreq`. -/
def Chip.logFreq (c : Chip) : Chip := { c with mui := c.mui.logFreq (c.tbState == tbTethered) c.clk }

/-- R111: te after `sec` whole seconds of holdover. -/
def Chip.teAfter (c : Chip) (sec : Nat) : Nat :=
  let y := if c.tbState == tbFreeFlight then c.fld R.muiHold 15 0 else c.fld R.muiFree 19 0 * 10
  let d := c.fld R.muiHold2 31 16
  c.mui.te0 + y * sec / 10 + d * sec * sec / 17280000

/-- Whole seconds since the entry to holdover. -/
def Chip.holdSeconds (c : Chip) : Nat := (stampGap c.clk c.mui.holdEntry).toNat / nsPerS

/-- R111: te is brought up to date; the first time it exceeds TE_LIMIT raises 0x0803. -/
def Chip.updateTe (c : Chip) : Chip :=
  if c.tbState == tbFreeFlight || c.tbState == tbFreeRun then
    let te := c.teAfter c.holdSeconds
    let c := c.setNat R.muiMeasTe (min te (2 ^ 32 - 1))
    if !c.mui.tePassed && decide (c.fld R.muiHold2 15 0 * 1000 < te) then
      { c with mui := { c.mui with tePassed := true } }.muiEvent 0x0803 [.val 4 (min te (2 ^ 32 - 1)), .val 4 c.holdSeconds]
    else c
  else c.setNat R.muiMeasTe 0

/-- R105: `MUI_MEAS`. -/
def Chip.refreshMeas (c : Chip) : Chip :=
  let phase := match c.activeInput with
    | some k => if k == 6 then 0 else c.phiOf k
    | none => 0
  let c := c.setNat R.muiMeasPhase (twosOf 32 (clampInt (-0x7FFFFFFF) 0x7FFFFFFF phase))
  let c := c.setNat R.muiMeasFreq (twosOf 32 c.mui.muiFreq)
  c.updateTe

/-- R99: `REF_MEAS`. -/
def Chip.refreshRefMeas (c : Chip) : Chip :=
  forN 8 (fun k c => c.setNat (R.refMeasPhi k)
    (twosOf 32 (clampInt (-0x7FFFFFFF) 0x7FFFFFFF (if k == 6 || k == 7 then 0 else c.phiOf k)))) c

/-- R88: OFFSET and the leap flags from the active reference, else from the highest-priority qualified input that carries
them, else from `REF_GNSS.UTC_OFS`. -/
def Chip.refreshUtc (c : Chip) : Chip :=
  let qualified := (List.range 8).filterMap (fun e => match c.entryInput e with
    | some k => if 3 ≤ c.refState k then (c.refIn k).utc else none
    | none => none)
  let active := match c.activeInput with
    | some k => (c.refIn k).utc
    | none => none
  match active.orElse (fun _ => qualified.head?) with
  | some (ofs, l61, l59) =>
    (((c.setFld R.muiUtc 31 31 1).setFld R.muiUtc 30 30 (if l61 then 1 else 0)).setFld R.muiUtc 29 29
      (if l59 then 1 else 0)).setFld R.muiUtc 15 0 (twosOf 16 ofs)
  | none => ((c.setFld R.muiUtc 31 29 0)).setFld R.muiUtc 15 0 (c.fld R.refGnss 15 0)

/-- R101: a forced entry whose input has failed loses its force. -/
def Chip.dropForce (c : Chip) : Chip :=
  match c.mui.forced with
  | some f => if c.entryUsable f then c else { c with mui := { c.mui with forced := none } }
  | none => c

/-- R112: the SerDes reference loop's frequency error against the Muith clock, in ppb. -/
def Chip.serdesErr (c : Chip) : Int := (c.mui.serdesFreq - c.mui.muiFreq) / 65536

/-- R112: SLOCK reads 1 while the frequency error is within 0.01 ppm; a loss of lock raises 0x0805 with the error in ppb. -/
def Chip.serdesLock (c : Chip) : Chip :=
  if c.serdesErr.natAbs ≤ 10 then c.setFld R.muiStat 10 10 1
  else if c.bit R.muiStat 10 then (c.setFld R.muiStat 10 10 0).muiEvent 0x0805 [.val 4 (twosOf 32 c.serdesErr)]
  else c

/-- R112: in a millisecond the loop follows the Muith clock's frequency by at most 0.1 ppb, which is 0.1 ppm per second. -/
def Chip.serdesStep (c : Chip) : Chip :=
  let d := c.mui.muiFreq - c.mui.serdesFreq
  { c with mui := { c.mui with serdesFreq := toward c.mui.serdesFreq c.mui.muiFreq (min 6553 (Config.serdesFollow d)) } }

/-- R24: the words of `REF_MEAS` and `MUI_MEAS` that an evaluation gives. -/
def measRegs : List Nat := [R.muiMeasPhase, R.muiMeasFreq, R.muiMeasTe] ++ (List.range 8).map R.refMeasPhi

/-- R23, R24: the results of an evaluation cross to the core die: at once, or as a message that waits for the link. -/
def Chip.crossMeas (c new : Chip) : Chip :=
  let words := measRegs.map (fun a => (a, new.reg a))
  if c.bit R.sysD2dStat 31 then (new.publish R.refMeas).publish R.muiMeas
  else (forL measRegs (fun a x => x.setReg a (c.reg a)) new).queueUp (.loop words)

/-- REF_EVALUATION (R98): all input changes together, then the queued commands, then the selection, then the loops. -/
def execRefEvaluation (t : Stamp) (obs : List RefObs) (s : State) : Host.Outcome State Fault Refusal :=
  runIf true (fun c =>
    let c := c.at t
    let c := forL obs (fun o c => c.observe o) c
    let c := forN 7 (fun k c => c.evalInput k) c
    let cmds := c.mui.cmds
    let c := { c with mui := { c.mui with cmds := [] } }
    let c := c.dropForce
    let c := forL cmds (fun q c => c.actRefCmd q) c
    let c := c.select
    let c := c.loopSample.lockWatch.logFreq
    let c := c.serdesStep.serdesLock.refreshUtc
    c.crossMeas c.refreshRefMeas.refreshMeas) s

/-- LOCK_TIME_ELAPSED (R103): the lock condition has held for LOCK.TIME, and an acquired or pulling timebase is
TETHERED. -/
def execLockTimeElapsed (t : Stamp) (s : State) : Host.Outcome State Fault Refusal :=
  runIf true (fun c =>
    let c := c.at t
    match c.mui.lockSince with
    | some l =>
      if elapsed c.clk l (c.fld R.muiLock 7 0 * 100 * nsPerMs) &&
          ((c.tbState == tbAcquiring && c.mui.schedDone) || c.tbState == tbPulling) then c.setTb tbTethered
      else c
    | none => c) s

/-- R108: entry `i` of the bandwidth schedule begins, or the schedule ends there. -/
def Chip.startDwell (c : Chip) (i : Nat) : Chip :=
  let d := if i < 8 then c.fld (R.muiBw i) 31 16 else 0
  let m := if d == 0 then { c.mui with schedIndex := i, schedDone := true }
    else { c.mui with schedIndex := i, schedDone := false, dwellEnd := c.clk + d * nsPerS }
  { c with mui := m }

/-- DWELL_END (R108): with the lock condition held now the loop moves to the next entry, otherwise it dwells again; a
schedule that ends with the lock already held for LOCK.TIME makes the timebase TETHERED (R103). -/
def execDwellEnd (t : Stamp) (s : State) : Host.Outcome State Fault Refusal :=
  runIf true (fun c =>
    let c := c.at t
    if c.tbState == tbAcquiring && !c.mui.schedDone && elapsed c.clk c.mui.dwellEnd 0 then
      let held := match c.activeInput with
        | some k => c.lockHolds k
        | none => false
      let c := c.startDwell (if held then c.mui.schedIndex + 1 else c.mui.schedIndex)
      match c.mui.lockSince with
      | some l =>
        if c.mui.schedDone && elapsed c.clk l (c.fld R.muiLock 7 0 * 100 * nsPerMs) then c.setTb tbTethered else c
      | none => c
    else c) s

/-- HOLDOVER_SECOND (R111). -/
def execHoldoverSecond (t : Stamp) (s : State) : Host.Outcome State Fault Refusal :=
  runIf true (fun c => (c.at t).updateTe) s

/-- SERDES_LOOP_LOCK_LOSS (R112): something outside the part puts the loop `err` ppb off the Muith clock's frequency; beyond 0.01
ppm a loop that was locked has lost lock: SLOCK reads 0 and event 0x0805 carries the error. -/
def execSerdesLoopLockLoss (t : Stamp) (err : Int) (s : State) : Host.Outcome State Fault Refusal :=
  runIf true (fun c =>
    let c := c.at t
    ({ c with mui := { c.mui with serdesFreq := c.mui.muiFreq + err * 65536 } } : Chip).serdesLock) s

/-! ### Loading the master counter (R33, R106) -/

/-- R92: the φ of a phase-bearing input in 2^-8 ns lies between −0.5 s and +0.5 s. -/
def wrapPhi (p : Int) : Int := Int.emod (p + 128 * nsPerS) (256 * nsPerS) - 128 * nsPerS

/-- R92: the φ of input `k` after the counter has moved by `d` ns. -/
def movedPhi (k : Nat) (d p : Int) : Int := if k == 3 || k == 4 then wrapPhi (p + d * 256) else p + d * 256

/-- The stamps that the timebase itself keeps move with the counter, so that every interval goes on as it stood: those of edges,
sentences, waits and of an exchange that is not complete, and the φ of a window's exchanges (DESIGN CHOICE, log 93). -/
def Muith.shift (m : Muith) (d : Int) : Muith :=
  let mv (x : Stamp) : Stamp := ((x : Int) + d).toNat
  { m with
    inputs := m.inputs.map (fun e => (e.1, { e.2 with
      phi := e.2.phi.map (movedPhi e.1 d), phiAt := mv e.2.phiAt, wtrEnd := mv e.2.wtrEnd,
      qualStart := mv e.2.qualStart, lastEdge := e.2.lastEdge.map (fun x => ((x : Int) + d * 256).toNat),
      label := e.2.label.map (fun l => (l.1, mv l.2)) })),
    ports := m.ports.map (fun e => (e.1, { e.2 with
      sync := e.2.sync.map (fun x => (x.1, x.2.1, x.2.2.1, mv x.2.2.2.1, x.2.2.2.2)),
      window := e.2.window.map (fun x => (x.1, x.2 + d)) })),
    secFrom := m.secFrom.map mv,
    dwellEnd := mv m.dwellEnd, lockSince := m.lockSince.map mv, tetherSince := m.tetherSince.map mv,
    freqLog := m.freqLog.map (fun e => (mv e.1, e.2)), holdEntry := mv m.holdEntry, loopPhi := m.loopPhi + d * 256 }

/-- A tap agrees with the counter. -/
def tapDefault : Nat → Tap := fun _ => {}

/-- R33: the master counter takes a new value at one clock edge, the next full stamp carries a load mark, and until then every tap
but that of the Muith domain counts on from its old value. -/
def Chip.loadCounter (c : Chip) (new : Stamp) : Chip :=
  let d : Int := (new : Int) - c.clk
  let taps := forN 71 (fun i (m : List (Nat × Tap)) =>
    if i == 0 then m else mapPut tapDefault m i { offset := (mapGet tapDefault c.taps i).offset - d * 1000, trim := 0 }) c.taps
  { c with clk := new, taps := taps, mui := { c.mui.shift d with loadMark := true } }

/-- R106, step 2: where the seconds come from: the selected input when it is time-bearing, else the lowest-numbered entry
whose input is time-bearing and AVAILABLE. -/
def Chip.secondsSource (c : Chip) (e k : Nat) : Option (Nat × Nat) :=
  if timeBearing k then some (e, k)
  else ((List.range 8).filterMap (fun e => match c.entryInput e with
    | some k => if timeBearing k && c.refState k == 4 then some (e, k) else none
    | none => none)).head?

/-- An input's own time at `c.clk` in ns: Muith time minus φ (R92). -/
def Chip.inputTime (c : Chip) (k : Nat) : Nat := ((c.clk : Int) - c.phiOf k / 256).toNat

/-- R106, step 2: the value loaded when entry `e` with input `k` is selected; `creation` is the image's creation stamp. -/
def Chip.loadValue (c : Chip) (creation : Stamp) (e k : Nat) : Stamp :=
  let base := match c.secondsSource e k with
    | some (_, j) => c.inputTime j
    | none => creation
  if timeBearing k then c.inputTime k
  else if phaseBearing k then base / nsPerS * nsPerS + c.inputTime k % nsPerS
  else base

/-- R103, R106: the counter is loaded for the selected entry: SEC_TRACE, STEPS, event 0x0802, ACQUIRING and the schedule from its
first entry. A load of step 4 also selects the entry that it is made for, whatever its REVERT and a force (DESIGN CHOICE, log 94:
the rule does not say whether it does). -/
def Chip.loadSelected (c : Chip) (creation : Stamp) (e k : Nat) : Chip :=
  let src := c.secondsSource e k
  let old := shortStamp c.clk
  let new := c.loadValue creation e k
  let c := if c.isActive e k then c else c.makeActive e k
  let c := c.loadCounter new
  let c := { c with mui := { c.mui with reload := none, secEntry := src.map Prod.fst, loopPhi := c.phiOf k } }
  let c := c.setFld R.muiStat 11 11 (if src.isSome then 1 else 0)
  let c := c.addFld R.muiStat 23 16 1
  let c := (c.startDwell 0)
  let c := { c with mui := { c.mui with lockSince := none } }
  let before := c.tbState
  let c := c.setFld R.muiStat 2 0 tbAcquiring
  let c := { c with mui := c.mui.accountState c.clk tbAcquiring }
  let c := c.muiEvent 0x0802 [.val 8 old, .val 8 (shortStamp c.clk), .val 1 ((src.map Prod.snd).getD (Config.eventCode 0x0802 0)),
    .val 1 (if timeBearing k || phaseBearing k then k else (src.map Prod.snd).getD (Config.eventCode 0x0802 1))]
  if before == tbUnset || before == tbAcquiring then c
  else c.muiEvent 0x0801 [.val 1 before, .val 1 tbAcquiring, phiField c.mui.loopPhi, .val 1 (c.fld R.muiStat 5 4)]

/-- R106, step 3: with no input available the creation stamp is loaded and the state is FREE RUN. -/
def Chip.loadCreation (c : Chip) (creation : Stamp) : Chip :=
  let old := shortStamp c.clk
  let c := c.loadCounter creation
  let c := ((c.setFld R.muiStat 11 11 0).setFld R.muiStat 5 4 0).addFld R.muiStat 23 16 1
  let c := { c with mui := { c.mui with holdEntry := c.clk, te0 := 0, tePassed := false, muiFreq := 0 } }
  let c := c.setFld R.muiStat 2 0 tbFreeRun
  c.muiEvent 0x0802 [.val 8 old, .val 8 (shortStamp c.clk), .val 1 (Config.eventCode 0x0802 0),
    .val 1 (Config.eventCode 0x0802 1)]

/-! ### Time taps (R33, R36, R89) -/

/-- The watch cores' clock domain, in the order of R30's table (log 13: in an operand a domain is its row there; what an
event carries for it is a free value). -/
def watchDomain : Nat := 3

/-- R30: the tap bound of a domain in ps, by its row: 0 Muith, 1 fabric, 2 control cores, 3 watch cores, 4 codec, 5 to 36 head
pixel, 37 to 52 DRAM controller, 53 and 54 Ethernet MAC, 55 Bolral, 56 to 63 CSI byte clock, 64 to 67 capture link, 68 touch, 69
die-to-die link, 70 xSPI. Where the clock is not the same on every part, `period` is its period in ps. -/
def tapBound (domain period : Nat) : Nat :=
  if domain == 0 then 0
  else if domain == 1 then 2625
  else if domain == 2 then 2500
  else if domain == 3 then 4500
  else if domain == 4 then 2909
  else if domain == 53 || domain == 54 then 4560
  else if domain == 55 then 4347
  else if domain == 68 then 22833
  else if domain == 69 then 2800
  else period + 2000

/-- TIME_BUS_FULL_STAMP (R89): each domain's tap compares itself with the full stamp. `taps` gives, for each domain, its
difference and its clock's period in ps. A tap beyond its bound raises 0x0804; each takes its difference back by its rate; at a load
mark every tap takes the stamp and raises nothing (R33). -/
def execTimeBusFullStamp (t : Stamp) (taps : List (Nat × Int × Nat)) (s : State) : Host.Outcome State Fault Refusal :=
  runIf (taps.all (fun e => decide (e.1 < 71))) (fun c =>
    let c := c.at t
    if c.mui.loadMark then
      { c with mui := { c.mui with loadMark := false }, taps := [] }
    else
      forL taps (fun e c =>
        let c := { c with taps := mapPut tapDefault c.taps e.1 { offset := e.2.1, trim := -e.2.1 } }
        let out := decide (tapBound e.1 e.2.2 < e.2.1.natAbs)
        let c := if e.1 == watchDomain then
            { c with watch := { c.watch with backSince := if out then none else some (c.watch.backSince.getD c.clk) } }
          else c
        if out then c.muiEvent 0x0804 [.val 4 (Config.eventCode 0x0804 e.1), .val 4 (twosOf 32 (e.2.1 / 1000))] else c) c) s

/-- WATCH_TAP_TIMEOUT (R36): with no change on the time bus for 1 µs the watch tap counts on its own oscillator, records
are marked NOTIME, and an event is raised; of R113's events 0x0804 is the one about a tap (DEDUCED, log 12). -/
def execWatchTapTimeout (t : Stamp) (diff : Int) (s : State) : Host.Outcome State Fault Refusal :=
  runIf true (fun c =>
    let c := c.at t
    let c := { c with watch := { c.watch with noTime := true, backSince := none } }
    c.muiEvent 0x0804 [.val 4 (Config.eventCode 0x0804 watchDomain), .val 4 (twosOf 32 diff)]) s

end Sys2Proof.Machine
end

