-- ==== Sys2Proof/Machine/Bolral.lean ====
section
/-! DEFINITION. The Bolral link (R339 to R343) and its time transfer (R359, R360). -/

namespace Sys2Proof.Machine

/-- The link is trained (R342). -/
def Chip.bolUp (c : Chip) : Bool := c.bit R.bolStat 31

/-- R340: the flits of a message of a type: up to 56 payload bytes each, FIRST and LAST marked, as bytes 2 to 59. -/
def flitBodies (type : Nat) (payload : List Byte) : List (List Byte) :=
  let n := max 1 (ceilDiv payload.length 56)
  (List.range n).map (fun i =>
    let part := (payload.drop (56 * i)).take 56
    let flags := (if i == 0 then 1 else 0) + (if i + 1 == n then 2 else 0) + 4 * (part.length - 1)
    BitVec.ofNat 8 type :: BitVec.ofNat 8 flags :: part ++ List.replicate (56 - part.length) 0)

/-- R341: a flit leaves: check unit 2 gives its counter and CRC; the last 1,024 flits are kept. -/
def Chip.sendFlit (c : Chip) (body : List Byte) : Chip :=
  let (c, v) := c.chkRun 2 body
  let flit := leBytes 2 v.alive ++ body ++ leBytes 4 v.check
  let held := c.bol.held ++ [(v.alive, flit)]
  let c := { c with bol := { c.bol with held := held.drop (held.length - 1024) } }
  (c.bump (R.bolCnt 0)).send (.flit flit)

/-- R338: twin operation is enabled; with it off nothing of the chapter on twins applies. -/
def Chip.twinOn (c : Chip) : Bool := c.bit R.twnCfg 31

/-- R342: a message leaves whole. -/
def Chip.sendMessage (c : Chip) (type : Nat) (payload : List Byte) : Chip :=
  forL (flitBodies type payload) (fun b c => c.sendFlit b) c

/-- R342: a message leaves; on a link that is down nothing leaves. -/
def Chip.bolSend (c : Chip) (type : Nat) (payload : List Byte) : Chip := if c.bolUp then c.sendMessage type payload else c

/-- R342: a message joins those that wait; on a link that is down none does. -/
def Chip.bolQueue (c : Chip) (type : Nat) (payload : List Byte) : Chip :=
  if c.bolUp then { c with bol := { c.bol with waiting := c.bol.waiting ++ [(type, payload)] } } else c

/-- R342: the messages that wait leave in the order of their types. -/
def Chip.sendWaiting (c : Chip) : Chip :=
  let l := c.bol.waiting
  forL ([0, 1, 2, 3, 7, 4, 5, 6].flatMap (fun type => l.filter (fun m => m.1 == type))) (fun m c => c.sendMessage m.1 m.2)
    { c with bol := { c.bol with waiting := [] } }

/-- R340: with no message waiting the link carries an idle flit. -/
def Chip.idleFlit (c : Chip) : Chip :=
  if c.bolUp then c.sendFlit (0x7F :: 3 :: List.replicate 56 0) else c

/-- What passes with no command waiting: one cycle of the Muith clock (R86) and an idle flit of a trained link (R340) (DESIGN CHOICE,
log 1). -/
def Chip.idle (c : Chip) : Chip := (idleCycle c).idleFlit

/-- R339: the link is lost: UP and LINK fall, DOWNS counts, event 0x1101; the BOLRAL input fails with cause TWIN. -/
def Chip.bolDown (c : Chip) : Chip :=
  let c := ((c.setFld R.bolStat 31 31 0).addFld R.bolStat 15 8 1).setFld R.twnStat 8 8 0
  let c := c.event 0x1101 .room [.val 1 0, .val 1 (c.fld R.bolStat 27 24)]
  c.failInput 2 8

/-- BOL_LINK_CHANGE (R338, R339): the block lock of the four lanes changes. Four locked lanes of an enabled link train it; a lane
lost takes it down, and it retrains without intervention. -/
def execBolLinkChange (t : Stamp) (lock : Nat) (s : State) : Host.Outcome State Fault Refusal :=
  runIf (decide (lock < 16)) (fun c =>
    let c := (c.at t).setFld R.bolStat 27 24 lock
    if lock == 15 && c.bit R.bolCtl 31 && c.twinOn then
      if c.bolUp then c
      else
        let c := (c.setFld R.bolStat 31 31 1).setFld R.twnStat 8 8 1
        c.event 0x1101 .room [.val 1 1, .val 1 lock]
    else if c.bolUp then c.bolDown
    else c) s

/-- R343: the message types; any other is discarded and counted. -/
def bolTypeKnown (type : Nat) : Bool := decide (type ≤ 7)

/-- R340, R343: a delivered flit joins its message; an idle flit carries nothing; a LAST flit completes the message. -/
def Chip.deliverFlit (c : Chip) (flit : List Byte) : Chip :=
  let type := leNat ((flit.drop 2).take 1)
  let flags := leNat ((flit.drop 3).take 1)
  let part := (flit.drop 4).take (flags / 4 + 1)
  if type == 0x7F then c
  else
    let before := if flags % 2 == 1 then [] else c.bol.rxPart
    let whole := before ++ part
    if flags / 2 % 2 == 1 then
      let c := { c with bol := { c.bol with rxPart := [] } }
      if bolTypeKnown type then { c with bol := { c.bol with delivered := c.bol.delivered ++ [(type, whole)] } }
      else c.bump (R.bolCnt 5)
    else { c with bol := { c.bol with rxPart := whole } }

/-- R341: a NAK names the counter expected. -/
def Chip.sendNak (c : Chip) (e : Nat) : Chip := (c.bump (R.bolCnt 4)).bolSend 0 (leBytes 2 e ++ [0, 0])

/-- FLIT_RECEIVE (R341): a received flit is checked by unit 3. OK = 0 or GAP = 1 discards it, sends a NAK for the counter
expected, and every further flit is discarded until that counter arrives, one with OK = 0 with a NAK again; REPEAT = 1 discards
it; any other is delivered. -/
def execFlitReceive (t : Stamp) (flit : List Byte) (s : State) : Host.Outcome State Fault Refusal :=
  runIf (decide (flit.length = 64)) (fun c =>
    let c := c.at t
    if !c.bolUp then c
    else
      let c := c.bump (R.bolCnt 1)
      let (c, v) := c.chkRun 3 flit
      let c := if v.ok then c else c.bump (R.bolCnt 2)
      match c.bol.nakWait with
      | some e =>
        if v.ok && v.alive == e then
          ({ c with bol := { c.bol with nakWait := none, rxNext := some ((e + 1) % 65536) } }).deliverFlit flit
        else if v.ok then c
        else c.sendNak e
      | none =>
        if !v.ok || v.gap then
          let e := c.bol.rxNext.getD 1
          ({ c with bol := { c.bol with nakWait := some e } } : Chip).sendNak e
        else if v.rep then c
        else ({ c with bol := { c.bol with rxNext := some ((v.alive + 1) % 65536) } }).deliverFlit flit) s

/-- NAK_RECEIVE (R341): the held flits are sent again from the counter named; when that flit is no longer held the link is
retrained, with event 0x1102. -/
def execNakReceive (t : Stamp) (counter : Nat) (s : State) : Host.Outcome State Fault Refusal :=
  runIf (decide (counter < 65536)) (fun c =>
    let c := c.at t
    if !c.bolUp then c
    else
      let again := c.bol.held.dropWhile (fun e => e.1 != counter)
      if again.isEmpty then (c.event 0x1102 .room [.val 2 counter]).bolDown
      else ((c.bump (R.bolCnt 3)).bumpBy (R.bolCnt 0) again.length).sendAll (again.map (fun e => .flit e.2))) s

/-! ### Time transfer -/

/-- TIME_EXCHANGE_START (R360): at a whole millisecond of Muith time a TIME request leaves at `depart`. -/
def execTimeExchangeStart (t : Stamp) (depart : Stamp) (s : State) : Host.Outcome State Fault Refusal :=
  runIf true (fun c =>
    let c := c.at t
    if c.clk % nsPerMs == 0 && c.bolUp then
      let q := c.bol.timeSeq
      let c := { c with bol := { c.bol with timeSeq := (q + 1) % 65536, timeOpen := some (q, depart) } }
      c.bolSend 2 (leBytes 2 q ++ List.replicate 6 0 ++ leBytes 8 depart ++ List.replicate 16 0)
    else c) s

/-- TIME_REQUEST_RECEIVE (R360): a request that arrived at `t` is answered at once; the reply leaves at `depart`. -/
def execTimeRequestReceive (t : Stamp) (msg : List Byte) (depart : Stamp) (s : State) : Host.Outcome State Fault Refusal :=
  runIf (decide (msg.length = 32)) (fun c =>
    let c := c.at t
    c.bolSend 2 (msg.take 2 ++ [1] ++ List.replicate 5 0 ++ leBytes 8 depart ++ leBytes 8 c.clk ++ List.replicate 8 0)) s

/-- R360: the exchange's round trip and φ in ns. -/
def timeExchange (a1 b2 b3 a4 : Stamp) (asym : Int) : Int × Int :=
  let x := stampGap b2 a1
  let y := stampGap a4 b3
  (x + y, (y - x + asym) / 2)

/-- R360: the exchange's rt exceeds the smallest of the last 64 by more than 40 ns. -/
def rtDiscard (rts : List Int) (rt : Int) : Bool :=
  match rts with
  | [] => false
  | r :: rest => decide (rest.foldl min r + 40 < rt)

/-- TIME_REPLY_RECEIVE (R360): a reply that arrived at `t` yields rt and φ; the exchange is discarded and counted, or is one
accepted transfer, one `BOL_RES` and one sample of the BOLRAL input. -/
def execTimeReplyReceive (t : Stamp) (msg : List Byte) (s : State) : Host.Outcome State Fault Refusal :=
  runIf (decide (msg.length = 32)) (fun c =>
    let c := c.at t
    let q := leNat (msg.take 2)
    match c.bol.timeOpen with
    | some (q0, a1) =>
      if q == q0 then
        let b3 := leNat ((msg.drop 8).take 8)
        let b2 := leNat ((msg.drop 16).take 8)
        let x := timeExchange a1 b2 b3 c.clk (c.sfld R.bolCal 31 0)
        let rts := c.bol.rts
        let c := { c with bol := { c.bol with timeOpen := none, rts := (rts ++ [x.1]).drop ((rts.length + 1) - 64) } }
        if rtDiscard rts x.1 then c.bump (R.bolCnt 6)
        else
          let c := (c.setNat R.bolResRt (twosOf 32 x.1)).publish R.bolRes
          let c := c.modRefIn 2 (fun i => { i with seen := true })
          c.phiSample 2 (x.2 * 256) 1
      else c
    | none => c) s

end Sys2Proof.Machine
end

