-- ==== Sys2Proof/Machine/Points.lean ====
section
/-! DEFINITION. The point engine (R229 to R243, R253, R255): point frames, feeders, the point table, the change journal,
sweeps, and the mirror between twins (R355, R356). -/

namespace Sys2Proof.Machine

/-! ### Frames -/

/-- The number in `n` little-endian bytes at offset `o` of a message. -/
def leAt (l : List Byte) (o n : Nat) : Nat := leNat ((l.drop o).take n)

/-- R230: bytes of an entry. -/
def entrySize (mode : Nat) : Nat := if mode == 2 then 24 else 16

/-- R231, FORMAT: the length, bytes 0 to 2, the stamp mode and COUNT are as R229 and R230 say. -/
def pointFormatOk (l : List Byte) : Bool :=
  let mode := leAt l 3 1 % 4
  let count := leAt l 8 2
  decide (28 ≤ l.length) && leAt l 0 3 == 0x014650 && mode != 3 && decide (1 ≤ count) && decide (count ≤ 1024) &&
    l.length == 24 + count * entrySize mode + 4

/-- One entry of a frame (R230). -/
structure PointEntry where
  index : Nat
  type : Nat
  quality : Nat
  value : Nat
  stamp : Stamp
  deriving DecidableEq, Repr

/-- R230: entry `i` of a frame. -/
def pointEntry (l : List Byte) (i : Nat) : PointEntry :=
  let mode := leAt l 3 1 % 4
  let o := 24 + i * entrySize mode
  let w := leAt l o 4
  { index := bitsNat w 22 0, type := bitsNat w 26 23, quality := leAt l (o + 4) 1, value := leAt l (o + 8) 8,
    stamp := if mode == 1 then leAt l 12 8 else if mode == 2 then leAt l (o + 16) 8 else 0 }

/-! ### The point record (R234) -/

/-- A point record's fields. -/
structure PointRec where
  value : Nat
  source : Stamp
  arrival : Stamp
  quality : Nat
  byte26 : Nat
  byte27 : Nat
  feeder : Nat
  counter : Nat
  deriving DecidableEq, Repr

/-- The address of the point table (R253). -/
def Chip.pntTab (c : Chip) : Nat := c.base40 R.pntTabLo R.pntTabHi

/-- Reading 32 bytes as a record. -/
def pointRecOf (l : List Byte) : PointRec :=
  { value := leAt l 0 8, source := leAt l 8 8, arrival := leAt l 16 8, quality := leAt l 24 2, byte26 := leAt l 26 1,
    byte27 := leAt l 27 1, feeder := leAt l 28 1, counter := leAt l 30 2 }

/-- A record's 32 bytes. -/
def PointRec.bytes (r : PointRec) : List Byte :=
  leBytes 8 r.value ++ leBytes 8 r.source ++ leBytes 8 r.arrival ++ leBytes 2 r.quality ++ leBytes 1 r.byte26 ++
    leBytes 1 r.byte27 ++ leBytes 1 r.feeder ++ [0] ++ leBytes 2 r.counter

/-- The record of point `i`, read whole (R243). -/
def Chip.pointRec (c : Chip) (i : Nat) : PointRec := pointRecOf (c.dramBytes (c.pntTab + 32 * i) 32)

/-- The record of point `i` written whole (R236, R243). -/
def Chip.putPointRec (c : Chip) (i : Nat) (r : PointRec) : Chip := c.dramWrite (c.pntTab + 32 * i) r.bytes

/-! ### The change journal (R240) -/

/-- R240: one journal record is appended to the ring. -/
def Chip.journal (c : Chip) (index cause : Nat) (r : PointRec) (arrival : Stamp) : Chip :=
  let j := c.wide R.pntJcountLo R.pntJcountHi
  let o := c.base40 R.pntJrnLo R.pntJrnHi + 32 * (j % 2 ^ c.fld R.pntJrnSize 4 0)
  let c := c.dramWrite o (leBytes 4 (index + cause) ++ leBytes 2 r.quality ++ leBytes 1 r.feeder ++ [0] ++
    leBytes 8 r.value ++ leBytes 8 r.source ++ leBytes 8 arrival)
  c.setWide R.pntJcountLo R.pntJcountHi ((j + 1) % 2 ^ 64)

/-! ### Limit classes (R238) -/

/-- A binary64's place in the order of the numbers; −0 and +0 have the same one. -/
def f64Key (v : Nat) : Int := if v / 2 ^ 63 % 2 == 1 then -((v % 2 ^ 63 : Nat) : Int) else ((v % 2 ^ 63 : Nat) : Int)

/-- A binary64 is a NaN. -/
def f64Nan (v : Nat) : Bool := decide (0x7FF0000000000000 < v % 2 ^ 63)

/-- R238: signed or IEEE comparison; a NaN is less than nothing. -/
def boundLess (kind a b : Nat) : Bool :=
  if kind == 1 then decide (signedOf 64 a < signedOf 64 b) else !f64Nan a && !f64Nan b && decide (f64Key a < f64Key b)

/-- R238: LIMIT and HIGH from the bounds. -/
def limitOf (kind loAlarm loWarn hiWarn hiAlarm v : Nat) : Nat × Nat :=
  if kind == 1 || kind == 2 then
    if kind == 2 && f64Nan v then (2, 1)
    else if boundLess kind hiAlarm v then (2, 1)
    else if boundLess kind hiWarn v then (1, 1)
    else if boundLess kind v loAlarm then (2, 0)
    else if boundLess kind v loWarn then (1, 0)
    else (0, 0)
  else if kind == 3 then
    if 64 ≤ v || hiAlarm / 2 ^ v % 2 == 1 then (2, 0)
    else if hiWarn / 2 ^ v % 2 == 1 then (1, 0)
    else (0, 0)
  else ((Config.noKindLimit v).1 % 3, (Config.noKindLimit v).2 % 2)

/-- R238: LIMIT and HIGH of a value in limit class `k`. A class with KIND 0 has no comparison: a free value (DESIGN CHOICE,
log 14). -/
def Chip.pointLimit (c : Chip) (k v : Nat) : Nat × Nat :=
  if k == 0 then (0, 0)
  else
    let q (j : Nat) := c.wide (R.pntLimclV (k - 1) (2 * j)) (R.pntLimclV (k - 1) (2 * j + 1))
    limitOf (c.fld (R.pntLimcl (k - 1)) 1 0) (q 0) (q 1) (q 2) (q 3) v

/-! ### Feeders (R232, R233) -/

/-- Every feeder starts with empty maps. -/
def feederDefault : Nat → Feeder := fun _ => {}

/-- Feeder `f`. -/
def Chip.feeder (c : Chip) (f : Nat) : Feeder := mapGet feederDefault c.pnt.feeders f

/-- Feeder `f` changes. -/
def Chip.modFeeder (c : Chip) (f : Nat) (g : Feeder → Feeder) : Chip :=
  { c with pnt := { c.pnt with feeders := mapMod feederDefault c.pnt.feeders f g } }

/-- SYNC of feeder `f`. -/
def Chip.feederSync (c : Chip) (f : Nat) : Bool := c.bit (R.pntFeedStat f) 31

/-- Event 0x6005: feeder, new state, counter. -/
def Chip.feederSyncEvent (c : Chip) (f state counter : Nat) : Chip :=
  c.event 0x6005 .room [.val 1 f, .val 1 state, .val 2 counter]

/-- R233: feeder `f` loses SYNC. -/
def Chip.loseSync (c : Chip) (f : Nat) : Chip :=
  (c.setFld (R.pntFeedStat f) 31 31 0).feederSyncEvent f 0 (c.fld (R.pntFeedStat f) 15 0)

/-- FEEDER_LOAD_RESYNC (R233): a load of the master counter resynchronises every feeder. -/
def Chip.resyncFeeders (c : Chip) : Chip := forN 256 (fun f c => if c.feederSync f then c.loseSync f else c) c

/-- What R233 decides of a frame. -/
inductive AliveVerdict
  | first | new | late | rep | dup | old
  deriving DecidableEq, Repr

/-- R233: the first row of its table that applies to counter `ctr` on a path. -/
def aliveVerdict (sync : Bool) (last ctr path : Nat) (x : Feeder) : AliveVerdict :=
  let d := (ctr + 65536 - last) % 65536
  let back := (65536 - d) % 65536
  let inWindow := d == 0 || decide (65473 ≤ d)
  let b0 := x.map0 / 2 ^ back % 2 == 1
  let b1 := x.map1 / 2 ^ back % 2 == 1
  if !sync then .first
  else if d == 0 || (inWindow && (b0 || b1)) then
    if (if path == 0 then b0 else b1) then .rep else .dup
  else if decide (d ≤ 32767) then .new
  else if inWindow then .late
  else .old

/-- R233: counters that fall below the window without their bit set when LAST advances by `d`. -/
def lostCounters (x : Feeder) (d : Nat) : Nat :=
  let inWindow := ((List.range 64).filter (fun i =>
    decide (64 ≤ i + d) && x.map0 / 2 ^ i % 2 == 0 && x.map1 / 2 ^ i % 2 == 0)).length
  inWindow + (d - 64)

/-- The maps after LAST has advanced by `d` and a path has delivered it. -/
def Feeder.advance (x : Feeder) (d path : Nat) : Feeder :=
  let m (v b : Nat) := (v * 2 ^ d + b) % 2 ^ 64
  { x with map0 := m x.map0 (if path == 0 then 1 else 0), map1 := m x.map1 (if path == 0 then 0 else 1) }

/-- Bit `i` set in a path's map. -/
def Feeder.mark (x : Feeder) (i path : Nat) : Feeder :=
  if path == 0 then { x with map0 := x.map0 ||| 2 ^ i } else { x with map1 := x.map1 ||| 2 ^ i }

/-! ### Applying entries (R235, R236) -/

/-- R235, R378, R403: why an entry is discarded: 1 RANGE, 2 TYPE, also where the read of its record was `bad`, 3 TWICE,
4 SUPERSEDED; 0 when it is applied. -/
def Chip.entryCause (c : Chip) (f ctr : Nat) (arrival : Stamp) (late bad : Bool) (e : PointEntry) : Nat :=
  let first := c.fld (R.pntFeedFirst f) 22 0
  let r := c.pointRec e.index
  if e.index < first || first + c.fld (R.pntFeedCount f) 23 0 ≤ e.index then 1
  else if bad || r.byte26 % 16 == 0 || r.byte26 % 16 != e.type then 2
  else if r.arrival == shortStamp arrival && r.counter == ctr then 3
  else
    let ahead := (ctr + 65536 - r.counter) % 65536
    if late && decide (0 ≤ stampGap r.arrival (c.feeder f).syncStamp) && !(decide (1 ≤ ahead) && decide (ahead ≤ 32767))
    then 4 else 0

/-- R236 to R238: the record as an application leaves it. -/
def Chip.appliedRec (c : Chip) (f ctr mode : Nat) (arrival : Stamp) (late : Bool) (e : PointEntry) (r : PointRec) :
    PointRec :=
  let source := if c.bit (R.pntFeed f) 30 || mode == 0 then 0 else e.stamp
  let lim := c.pointLimit (r.byte26 / 16) e.value
  let ahead := source != 0 && decide (0 < stampGap source arrival)
  { r with
    value := e.value, source := source, arrival := shortStamp arrival, feeder := f, counter := ctr,
    quality := e.quality + lim.1 * 2 ^ 8 + lim.2 * 2 ^ 10 + (if ahead then 2 ^ 12 else 0) + (if late then 2 ^ 13 else 0) }

/-- R240: the cause bits of a change from `r` to `r'`; 0 when nothing that the journal reports changed. -/
def changeCause (r r' : PointRec) : Nat :=
  (if r.value == r'.value then 0 else 2 ^ 24) +
  (if bitsNat r.quality 7 0 == bitsNat r'.quality 7 0 then 0 else 2 ^ 25) +
  (if bitsNat r.quality 10 8 == bitsNat r'.quality 10 8 then 0 else 2 ^ 26) +
  (if bitsNat r.quality 11 11 == bitsNat r'.quality 11 11 then 0
   else if bitsNat r'.quality 11 11 == 1 then 2 ^ 27 else 2 ^ 28)

/-- A counter of `PNT_CNT` (R253). -/
def Chip.pntBump (c : Chip) (i : Nat) : Chip := c.bump (R.pntCnt i)

/-- ENTRY_APPLY (R235, R236, R377): one entry of an accepted frame; `bad` tells that the read of its record was flagged. -/
def Chip.applyEntry (c : Chip) (f ctr mode : Nat) (arrival : Stamp) (late bad : Bool) (e : PointEntry) : Chip :=
  let rec_ := c.pntTab + 32 * e.index
  let cause := c.entryCause f ctr arrival late (bad || c.isBeyond rec_ 32) e
  let c := if cause == 2 then c.refuseBeyond 3 rec_ 32 else c
  if cause != 0 then
    (c.pntBump (8 + cause)).eventLimited f 0x6009 .room [.val 1 f, .val 4 e.index, .val 4 (Config.eventCode 0x6009 cause), .occ]
  else
    let r := c.pointRec e.index
    let r' := c.appliedRec f ctr mode arrival late e r
    let c := c.putPointRec e.index r'
    let c := c.setNat R.pntApplied ((c.reg R.pntApplied).toNat + 1)
    let ch := changeCause r r'
    if ch == 0 then c else c.journal e.index (ch + (if late then 2 ^ 29 else 0)) r' r'.arrival

/-- R235: the entries of an accepted frame, in frame order; the record reads of the entries `bad` were flagged (R378). -/
def Chip.applyEntries (c : Chip) (f ctr : Nat) (arrival : Stamp) (late : Bool) (bad : List Nat) (l : List Byte) : Chip :=
  forN (leAt l 8 2) (fun i c => c.applyEntry f ctr (leAt l 3 1 % 4) arrival late (bad.contains i) (pointEntry l i)) c

/-- R233, R253: a frame is accepted. -/
def Chip.feederAccepted (c : Chip) (f : Nat) (arrival : Stamp) : Chip :=
  (c.bump (R.pntFcnt f 0)).setWide (R.pntFeedLastaLo f) (R.pntFeedLastaHi f) (shortStamp arrival)

/-- R233 to R236: a frame that has passed causes 1 to 3, judged by its alive counter and applied. -/
def Chip.judgeFrame (c : Chip) (f path : Nat) (arrival : Stamp) (bad : List Nat) (l : List Byte) : Chip :=
  let ctr := leAt l 6 2
  let last := c.fld (R.pntFeedStat f) 15 0
  let x := c.feeder f
  let d := (ctr + 65536 - last) % 65536
  match aliveVerdict (c.feederSync f) last ctr path x with
  | .first =>
    let c := (c.setFld (R.pntFeedStat f) 31 31 1).setFld (R.pntFeedStat f) 15 0 ctr
    let c := c.modFeeder f (fun _ => ({ map0 := 0, map1 := 0, syncStamp := arrival } : Feeder).mark 0 path)
    let c := c.feederSyncEvent f 1 ctr
    (c.feederAccepted f arrival).applyEntries f ctr arrival false bad l
  | .rep =>
    ((c.pntBump 4).bump (R.pntFcnt f 2)).eventLimited f 0x6004 .room [.val 1 f, .val 1 path, .val 2 ctr, .occ]
  | .dup => (c.pntBump 5).bump (R.pntFcnt f 3)
  | .new =>
    let lost := lostCounters x d
    let c := c.setFld (R.pntFeedStat f) 15 0 ctr
    let c := c.modFeeder f (fun y => y.advance d path)
    let c := if lost == 0 then c
      else ((c.bumpBy (R.pntCnt 7) lost).bumpBy (R.pntFcnt f 1) lost).raiseLimitedBy f
        { code := 0x6003, place := .room, stamp := c.clk, content := [.val 1 f, .occ] } lost
    (c.feederAccepted f arrival).applyEntries f ctr arrival false bad l
  | .late =>
    let c := c.modFeeder f (fun y => y.mark ((65536 - d) % 65536) path)
    ((c.pntBump 8).feederAccepted f arrival).applyEntries f ctr arrival true bad l
  | .old => c.pntBump 6

/-! ### The input queue (R231) -/

/-- POINT_FRAME_ARRIVE (R231): a frame that a point-frame flow delivers enters the queue, or is counted in OFF or QFULL. -/
def Chip.pointArrive (c : Chip) (flow : Nat) (arrival : Stamp) (l : List Byte) : Chip :=
  let c := c.pntBump 0
  if !c.bit R.pntCtl 31 then c.bump R.pntOff
  else if 2048 ≤ c.pnt.queue.length then (c.pntBump 13).eventLimited 0 0x6008 .room [.occ]
  else { c with pnt := { c.pnt with queue := c.pnt.queue ++ [{ flow := flow, arrival := arrival, bytes := l }] } }

/-- The path of a frame that matched a flow entry of its feeder (R231); none for any other flow. -/
def Chip.feederPath (c : Chip) (f flow : Nat) : Option Nat :=
  if !c.bit (R.pntFeed f) 31 then none
  else if c.fld (R.pntFeed f) 9 0 == flow then some 0
  else if c.bit (R.pntFeed f) 29 && c.fld (R.pntFeed f) 25 16 == flow then some 1
  else none

/-- The pair state is PAIRED (R346). -/
def Chip.paired (c : Chip) : Bool := c.fld R.twnStat 2 0 == 2

/-- M of R353 and R355, in ns. -/
def Chip.twinMargin (c : Chip) : Nat := c.fld R.twnTiming 15 0 * nsPerUs

/-- R355: two copies of one frame, one from each twin: they carry the same feeder, counter and check value, and the entry `x` still
lacks a copy of `m`'s side. -/
def MirrorFrame.joins (x m : MirrorFrame) : Bool :=
  x.feeder == m.feeder && x.counter == m.counter && x.check == m.check && !(x.own && m.own) && !(x.twin && m.twin)

/-- R355: the entry of a list that a copy joins: one that came on its path, else any. -/
def mirrorMatch (l : List MirrorFrame) (m : MirrorFrame) : Option MirrorFrame :=
  match l.find? (fun x => x.joins m && x.path == m.path) with
  | some x => some x
  | none => l.find? (fun x => x.joins m)

/-- R355: one frame of two copies: A_first, and the path of the copy that has it. -/
def MirrorFrame.merge (x m : MirrorFrame) : MirrorFrame :=
  let first := decide (stampGap m.arrival x.arrival < 0) || (m.arrival == x.arrival && decide (m.path < x.path))
  { x with own := x.own || m.own, twin := x.twin || m.twin, arrival := if first then m.arrival else x.arrival,
           path := if first then m.path else x.path }

/-- One entry of a list takes the place of another. -/
def swapFrame (l : List MirrorFrame) (x y : MirrorFrame) : List MirrorFrame := l.map (fun z => if z == x then y else z)

/-- R355: a copy joins the frame that waits for P, or waits itself. -/
def mirrorAdd (l : List MirrorFrame) (m : MirrorFrame) : List MirrorFrame :=
  match mirrorMatch l m with
  | some x => swapFrame l x (x.merge m)
  | none => l ++ [m]

/-- The waiting form of a frame's copy of one side (R355). -/
def mirrorOf (own : Bool) (path : Nat) (arrival : Stamp) (l : List Byte) : MirrorFrame :=
  { feeder := leAt l 4 1, counter := leAt l 6 2, check := leNat (l.drop (l.length - 4)), path := path,
    arrival := arrival, bytes := l, own := own, twin := !own }

/-- R355: a frame is judged and applied with A = A_first; the last 4,096 are remembered for copies that come later. -/
def Chip.applyMirror (c : Chip) (m : MirrorFrame) (bad : List Nat) : Chip :=
  let c := { c with pnt := { c.pnt with applied := ({ m with bytes := [] } :: c.pnt.applied).take 4096 } }
  c.judgeFrame m.feeder m.path m.arrival bad m.bytes

/-- POINT_FRAME_PROCESS (R231): the frame at the head of the queue is checked in the order FORMAT, CHECK, FOREIGN, then
judged by its alive counter and applied; while PAIRED it is mirrored and waits for P (R355). The record reads of the entries `bad`
were flagged (R378, R403). -/
def execPointFrameProcess (t : Stamp) (bad : List Nat) (s : State) : Host.Outcome State Fault Refusal :=
  runIf true (fun c =>
    let c := c.at t
    match c.pnt.queue with
    | [] => c
    | q :: rest =>
      if !c.bit R.pntCtl 31 then c
      else
        let c := { c with pnt := { c.pnt with queue := rest } }
        let l := q.bytes
        let fb := leAt l 4 1
        if !pointFormatOk l then
          (c.pntBump 1).eventLimited 256 0x6001 .room [.val 2 q.flow, .val 4 (Config.eventCode 0x6001 1), .occ]
        else
          let (c, v) := c.chkRun 0 l
          if !v.ok then (c.pntBump 2).eventLimited 256 0x6001 .room [.val 2 q.flow, .val 4 (Config.eventCode 0x6001 2), .occ]
          else
            match c.feederPath fb q.flow with
            | none => (c.pntBump 3).eventLimited fb 0x6002 .room [.val 2 q.flow, .val 1 fb, .occ]
            | some path =>
              if c.paired then
                let c := (c.bump (R.twnCnt 6)).bolSend 5 (leBytes 1 fb ++ leBytes 1 path ++ leBytes 2 l.length ++
                  [0, 0, 0, 0] ++ leBytes 8 q.arrival ++ l)
                let m := mirrorOf true path q.arrival l
                match mirrorMatch c.pnt.applied m with
                | some x => { c with pnt := { c.pnt with applied := swapFrame c.pnt.applied x { x with own := true } } }
                | none => { c with pnt := { c.pnt with mirror := mirrorAdd c.pnt.mirror m } }
              else c.judgeFrame fb path q.arrival bad l) s

/-- FEEDER_RESYNC_TIMEOUT (R233): no frame of a feeder in SYNC has been accepted for RESYNC ms. -/
def execFeederResyncTimeout (t : Stamp) (f : Nat) (s : State) : Host.Outcome State Fault Refusal :=
  runIf (decide (f < 256)) (fun c =>
    let c := c.at t
    if c.feederSync f &&
        elapsed c.clk (c.wide (R.pntFeedLastaLo f) (R.pntFeedLastaHi f)) (c.fld (R.pntFeedResync f) 15 0 * nsPerMs)
    then c.loseSync f else c) s

/-! ### Mirror (R355) -/

/-- R355: event 0x1007 for a MIRROR of frame `x` that comes after its P. -/
def Chip.mirrorLate (c : Chip) (x : MirrorFrame) : Chip :=
  let p := x.arrival + c.twinMargin
  if decide (0 < stampGap c.clk p) then
    c.eventLimited (256 + x.feeder) 0x1007 .room
      [.val 1 x.feeder, .val 4 x.counter, .val 4 ((stampGap c.clk p).toNat / nsPerUs), .occ]
  else c

/-- MIRROR_RECEIVE (R338, R355): the twin's copy of a point frame. One that comes before its P waits for it with the own copy, whose
arrival stamp it may lower; one that comes after its P raises 0x1007 and is applied at once, unless the frame has been. The record
reads of the entries `bad` were flagged (R378, R403). -/
def execMirrorReceive (t : Stamp) (msg : List Byte) (bad : List Nat) (s : State) : Host.Outcome State Fault Refusal :=
  runIf (decide (44 ≤ msg.length)) (fun c =>
    let c := c.at t
    if !c.twinOn then c
    else
      let c := c.bump (R.twnCnt 7)
      let m := mirrorOf false (leAt msg 1 1 % 2) (leAt msg 8 8) ((msg.drop 16).take (leAt msg 2 2))
      match mirrorMatch c.pnt.applied m with
      | some x =>
        (({ c with pnt := { c.pnt with applied := swapFrame c.pnt.applied x { x with twin := true } } } : Chip)).mirrorLate
          { x with arrival := stampMin x.arrival m.arrival }
      | none =>
        let (y, rest) := match mirrorMatch c.pnt.mirror m with
          | some x => (x.merge m, c.pnt.mirror.filter (fun z => z != x))
          | none => (m, c.pnt.mirror)
        if decide (0 < stampGap c.clk (y.arrival + c.twinMargin)) then
          (({ c with pnt := { c.pnt with mirror := rest } } : Chip).mirrorLate y).applyMirror y bad
        else { c with pnt := { c.pnt with mirror := mirrorAdd c.pnt.mirror m } }) s

/-- R355: the order of application: ascending P (that is, arrival stamp), then feeder, then alive counter. -/
def mirrorBefore (a b : MirrorFrame) : Bool :=
  if a.arrival == b.arrival then
    (if a.feeder == b.feeder then decide (a.counter < b.counter) else decide (a.feeder < b.feeder))
  else decide (stampGap a.arrival b.arrival < 0)

/-- The first frame in the order of application, and the others. -/
def mirrorFirst : List MirrorFrame → Option (MirrorFrame × List MirrorFrame)
  | [] => none
  | x :: rest =>
    match mirrorFirst rest with
    | none => some (x, [])
    | some (y, others) => if mirrorBefore y x then some (y, x :: others) else some (x, rest)

/-- MIRROR_APPLY (R355): the first frame whose P = A_first + M has come is judged and applied with A = A_first. The record reads of
the entries `bad` were flagged (R378, R403). -/
def execMirrorApply (t : Stamp) (bad : List Nat) (s : State) : Host.Outcome State Fault Refusal :=
  runIf true (fun c =>
    let c := c.at t
    match mirrorFirst c.pnt.mirror with
    | none => c
    | some (m, rest) =>
      let p := m.arrival + c.twinMargin
      if decide (0 ≤ stampGap c.clk p) then
        ({ c with pnt := { c.pnt with mirror := rest } } : Chip).applyMirror m bad
      else c) s

/-! ### Sweeps (R241, R242) -/

/-- R241: one record's visit by the sweep that started at `start`; the number of points it set SILENT counts on. -/
def Chip.sweepRecord (start : Stamp) (i : Nat) (x : Chip × Nat) : Chip × Nat :=
  let (c, n) := x
  let r := c.pointRec i
  let lim := c.fld (R.pntAgecl (r.byte27 % 64)) 22 0
  if lim != 0 && r.arrival != 0 && bitsNat r.quality 11 11 == 0 &&
      decide ((lim * 100000 : Int) < stampGap start r.arrival) then
    let r' := { r with quality := r.quality + 2 ^ 11 }
    ((c.putPointRec i r').journal i (2 ^ 27) r' (shortStamp start), n + 1)
  else (c, n)

/-- R241: a sweep with start stamp `start` over every record; it runs until its end is reported. -/
def Chip.runSweep (c : Chip) (start : Stamp) : Chip :=
  let (c, n) := forN (c.fld R.pntCtl 23 0) (Chip.sweepRecord start) (c, 0)
  { c with pnt := { c.pnt with sweep := some { start := start, silent := n } } }

/-- R253: a finished sweep's result. -/
def Chip.sweepResult (c : Chip) (w : Sweep) : Chip :=
  let c := { c with pnt := { c.pnt with sweep := none } }
  let c := c.setWide R.pntSwresStLo R.pntSwresStHi (shortStamp w.start)
  (c.setFld R.pntSwresSilent 23 0 w.silent).publish R.pntSwres

end Sys2Proof.Machine
end

