-- ==== Sys2Proof/Machine/Formats.lean ====
section
/-! DEFINITION. Buffer formats (R258, R259), colour conversion (R191, R263), the scaler (R217, R264) and the tell-tale
signature (R55, R56). -/

namespace Sys2Proof.Machine

/-! ### Layout -/

/-- R258: bytes per pixel, or per luma sample, of the first plane. -/
def fmtBytes (fmt : Nat) : Nat :=
  match fmt with
  | 0 => 4 | 1 => 8 | 2 => 4 | 3 => 2 | 4 => 2 | 5 => 1 | 6 => 1 | 7 => 4 | _ => 0

/-- R258: a format with a chroma plane. -/
def fmtPlanar (fmt : Nat) : Bool := decide (3 ≤ fmt) && decide (fmt ≤ 6)

/-- R258: a 4:2:0 format. -/
def fmt420 (fmt : Nat) : Bool := fmt == 4 || fmt == 6

/-- R258: a YCbCr format. -/
def fmtYcc (fmt : Nat) : Bool := decide (2 ≤ fmt) && decide (fmt ≤ 6)

/-- R258: a format that carries a pixel alpha. -/
def fmtAlpha (fmt : Nat) : Bool := fmt == 1 || fmt == 7

/-- A number rounded up to a multiple. -/
def roundUp (n m : Nat) : Nat := ceilDiv n m * m

/-- R259: the line pitch of the first plane. -/
def linePitch (fmt w : Nat) : Nat := roundUp (w * fmtBytes fmt) 256

/-- R259: the line pitch of the chroma plane: one pair per two pixels. -/
def chromaPitch (fmt w : Nat) : Nat := roundUp (ceilDiv w 2 * 2 * fmtBytes fmt) 256

/-- R259: the offset of the chroma plane. -/
def chromaBase (fmt w h : Nat) : Nat := roundUp (linePitch fmt w * h) 4096

/-- Chroma rows of a frame (R258). -/
def chromaRows (fmt h : Nat) : Nat := if fmt420 fmt then ceilDiv h 2 else h

/-- R157, R259: the bytes that a frame needs. -/
def frameBytes (fmt w h : Nat) : Nat :=
  if fmtPlanar fmt then chromaBase fmt w h + chromaPitch fmt w * chromaRows fmt h else linePitch fmt w * h

/-- A picture in DRAM. -/
structure Pic where
  base : Nat
  fmt : Nat
  w : Nat
  h : Nat
  deriving DecidableEq, Repr

/-! ### Reading -/

/-- R262, step 2: an 8-bit sample as 10 bits. -/
def expand8 (v : Nat) : Nat := v * 4 + v / 64

/-- The stored luma sample, or the packed word of an unplanar format, at (x, y). -/
def Chip.picWord (c : Chip) (p : Pic) (x y : Nat) : Nat :=
  c.dramNat (p.base + y * linePitch p.fmt p.w + x * fmtBytes p.fmt) (fmtBytes p.fmt)

/-- R55: the sample that the tell-tale signature takes at (x, y): luma, or G. -/
def Chip.ttSample (c : Chip) (p : Pic) (x y : Nat) : Nat :=
  let w := c.picWord p x y
  match p.fmt with
  | 0 => bitsNat w 19 10 | 1 => bitsNat w 19 10 | 2 => bitsNat w 29 20 | 3 => bitsNat w 9 0 | 4 => bitsNat w 9 0
  | 7 => bitsNat w 15 8 | _ => w

/-- Chroma sample `k` of luma row `y` as 10-bit (Cb, Cr). -/
def Chip.chromaAt (c : Chip) (p : Pic) (k y : Nat) : Nat × Nat :=
  let row := if fmt420 p.fmt then y / 2 else y
  let n := fmtBytes p.fmt
  let a := p.base + chromaBase p.fmt p.w p.h + row * chromaPitch p.fmt p.w + k * 2 * n
  let v (o : Nat) := let x := c.dramNat (a + o) n; if n == 1 then expand8 x else bitsNat x 9 0
  (v 0, v n)

/-- R262, step 3: chroma at every pixel. -/
def Chip.chromaPx (c : Chip) (p : Pic) (x y : Nat) : Nat × Nat :=
  let c0 := c.chromaAt p (x / 2) y
  if x % 2 == 0 || x + 1 == p.w then c0
  else
    let c1 := c.chromaAt p (x / 2 + 1) y
    ((c0.1 + c1.1 + 1) / 2, (c0.2 + c1.2 + 1) / 2)

/-- R263: ky, kr, kgb, kgr, kb of a matrix. -/
def yccCoef (matrix : Nat) : Int × Int × Int × Int × Int :=
  if matrix == 0 then (76533, 117835, 14017, 35027, 138846) else (76533, 110337, 12313, 42752, 140776)

/-- R263: a YCbCr sample as RGB. -/
def yccToRgb (matrix y cb cr : Nat) : Px :=
  let k := yccCoef matrix
  let dy : Int := (y : Int) - 64
  let db : Int := (cb : Int) - 512
  let dr : Int := (cr : Int) - 512
  let f (v : Int) : Nat := (clampInt 0 1023 ((v + 32768) / 65536)).toNat
  { r := f (k.1 * dy + k.2.1 * dr), g := f (k.1 * dy - k.2.2.1 * db - k.2.2.2.1 * dr),
    b := f (k.1 * dy + k.2.2.2.2 * db), a := 255 }

/-- R262, steps 1 to 4: the pixel (x, y) of a picture as RGB with its alpha. -/
def Chip.picPx (c : Chip) (p : Pic) (matrix x y : Nat) : Px :=
  let w := c.picWord p x y
  match p.fmt with
  | 0 => ⟨bitsNat w 29 20, bitsNat w 19 10, bitsNat w 9 0, 255⟩
  | 1 => ⟨bitsNat w 29 20, bitsNat w 19 10, bitsNat w 9 0, bitsNat w 39 32⟩
  | 2 => yccToRgb matrix (bitsNat w 29 20) (bitsNat w 19 10) (bitsNat w 9 0)
  | 7 => ⟨expand8 (bitsNat w 7 0), expand8 (bitsNat w 15 8), expand8 (bitsNat w 23 16), bitsNat w 31 24⟩
  | _ =>
    let y10 := if fmtBytes p.fmt == 1 then expand8 w else bitsNat w 9 0
    let ch := c.chromaPx p x y
    yccToRgb matrix y10 ch.1 ch.2

/-! ### The tell-tale signature -/

/-- R56: the tell-tale rectangle of slot `n`, clipped to the frame: x, y, width, height. -/
def Chip.ttRect (c : Chip) (n w h : Nat) : Nat × Nat × Nat × Nat :=
  let th := c.fld (R.srcTtSize n) 31 16
  let tw := c.fld (R.srcTtSize n) 15 0
  if tw == 0 || th == 0 then (0, 0, w, h)
  else
    let y := c.fld (R.srcTtPos n) 31 16
    let x := c.fld (R.srcTtPos n) 15 0
    (x, y, min tw (w - x), min th (h - y))

/-- R55: the signature of a picture of slot `n`. -/
def Chip.ttSignature (c : Chip) (n : Nat) (p : Pic) : Nat :=
  let (x, y, w, h) := c.ttRect n p.w p.h
  crc32c ((List.range h).flatMap (fun j => (List.range w).flatMap (fun i => leBytes 2 (c.ttSample p (x + i) (y + j)))))

/-! ### Writing RGB pictures -/

/-- R191: RGB as 10-bit YCbCr. -/
def rgbToYcc (p : Px) : Nat × Nat × Nat :=
  let r : Int := p.r
  let g : Int := p.g
  let b : Int := p.b
  let y := 64 + (11931 * r + 40136 * g + 4052 * b + 32768) / 65536
  let cb := 512 + (-6576 * r - 22124 * g + 28700 * b + 32768) / 65536
  let cr := 512 + (28700 * r - 26068 * g - 2632 * b + 32768) / 65536
  ((clampInt 64 940 y).toNat, (clampInt 64 960 cb).toNat, (clampInt 64 960 cr).toNat)

/-- R191: a 10-bit sample as 8 bits. -/
def narrow8 (v : Nat) : Nat := min 255 ((v + 2) / 4)

/-- A 10-bit sample in a planar format's own width. -/
def fmtSample (fmt v : Nat) : List Byte := if fmtBytes fmt == 1 then leBytes 1 (narrow8 v) else leBytes 2 v

/-- A pixel whose components are Y, Cb and Cr already. -/
def sameYcc (p : Px) : Nat × Nat × Nat := (p.r, p.g, p.b)

/-- One row of the first plane; `ycc` turns a pixel into Y, Cb and Cr. -/
def fmtRow (fmt w : Nat) (ycc : Px → Nat × Nat × Nat) (px : Nat → Px) : List Byte :=
  (List.range w).flatMap (fun x =>
    let p := px x
    match fmt with
    | 0 => leBytes 4 (p.r * 2 ^ 20 + p.g * 2 ^ 10 + p.b)
    | 1 => leBytes 4 (p.r * 2 ^ 20 + p.g * 2 ^ 10 + p.b) ++ leBytes 4 p.a
    | 2 => let y := ycc p; leBytes 4 (y.1 * 2 ^ 20 + y.2.1 * 2 ^ 10 + y.2.2)
    | 7 => leBytes 1 (p.r / 4) ++ leBytes 1 (p.g / 4) ++ leBytes 1 (p.b / 4) ++ leBytes 1 p.a
    | _ => fmtSample fmt (ycc p).1)

/-- One chroma row, subsampled by R191 from luma rows `y` and, for 4:2:0, `y` + 1; the last column of an odd width pairs
with itself. -/
def fmtChromaRow (fmt w h y : Nat) (ycc : Px → Nat × Nat × Nat) (px : Nat → Nat → Px) : List Byte :=
  (List.range (ceilDiv w 2)).flatMap (fun k =>
    let x0 := 2 * k
    let x1 := min (2 * k + 1) (w - 1)
    let y1 := min (y + 1) (h - 1)
    let c00 := (ycc (px x0 y)).2
    let c01 := (ycc (px x1 y)).2
    if fmt420 fmt then
      let c10 := (ycc (px x0 y1)).2
      let c11 := (ycc (px x1 y1)).2
      fmtSample fmt ((c00.1 + c01.1 + c10.1 + c11.1 + 2) / 4) ++ fmtSample fmt ((c00.2 + c01.2 + c10.2 + c11.2 + 2) / 4)
    else fmtSample fmt ((c00.1 + c01.1 + 1) / 2) ++ fmtSample fmt ((c00.2 + c01.2 + 1) / 2))

/-- Row `y` of a picture is written in the picture's format; the row that completes a chroma row writes it too. -/
def Chip.putRow (c : Chip) (p : Pic) (ycc : Px → Nat × Nat × Nat) (y : Nat) (px : Nat → Nat → Px) : Chip :=
  let c := c.dramWrite (p.base + y * linePitch p.fmt p.w) (fmtRow p.fmt p.w ycc (fun x => px x y))
  if !fmtPlanar p.fmt then c
  else
    let cb := p.base + chromaBase p.fmt p.w p.h
    if fmt420 p.fmt then
      if y % 2 == 1 || y + 1 == p.h then
        c.dramWrite (cb + y / 2 * chromaPitch p.fmt p.w) (fmtChromaRow p.fmt p.w p.h (y / 2 * 2) ycc px)
      else c
    else c.dramWrite (cb + y * chromaPitch p.fmt p.w) (fmtChromaRow p.fmt p.w p.h y ycc px)

/-- A whole picture is written. -/
def Chip.putPic (c : Chip) (p : Pic) (ycc : Px → Nat × Nat × Nat) (px : Nat → Nat → Px) : Chip :=
  forN p.h (fun y c => c.putRow p ycc y px) c

/-! ### The scaler -/

/-- R217: nx of a ratio. -/
def boxN (cw ow : Nat) : Nat := max 1 (min 8 (cw / ow))

/-- R217: i0, i1 and f of output sample `j`. -/
def scalePos (cw ow j : Nat) : Nat × Nat × Nat :=
  let dw := cw / boxN cw ow
  let sx := dw * 65536 / ow
  let u := min (j * sx + sx / 2 - 32768) ((dw - 1) * 65536)
  (u / 65536, min (u / 65536 + 1) (dw - 1), u % 65536)

/-- R217: interpolation between two samples. -/
def lerp (a b f : Nat) : Nat := (a * (65536 - f) + b * f + 32768) / 65536

/-- R217: one pre-decimated sample of a component. -/
def boxSample (cw ch ow oh : Nat) (v : Nat → Nat → Nat) (i k : Nat) : Nat :=
  let nx := boxN cw ow
  let ny := boxN ch oh
  let sum := (List.range ny).foldl (fun s b => (List.range nx).foldl (fun s a => s + v (i * nx + a) (k * ny + b)) s) 0
  roundDiv sum (nx * ny)

/-- R217: output sample (j, i) of a component, horizontally first. `v` gives the crop's samples. -/
def scaleSample (cw ch ow oh : Nat) (v : Nat → Nat → Nat) (j i : Nat) : Nat :=
  let (x0, x1, fx) := scalePos cw ow j
  let (y0, y1, fy) := scalePos ch oh i
  let d := boxSample cw ch ow oh v
  lerp (lerp (d x0 y0) (d x1 y0) fx) (lerp (d x0 y1) (d x1 y1) fx) fy

/-- R217, R264: output pixel (j, i) of a picture; each component, and alpha as a fourth, is scaled by itself. -/
def scalePx (cw ch ow oh : Nat) (v : Nat → Nat → Px) (j i : Nat) : Px :=
  { r := scaleSample cw ch ow oh (fun x y => (v x y).r) j i, g := scaleSample cw ch ow oh (fun x y => (v x y).g) j i,
    b := scaleSample cw ch ow oh (fun x y => (v x y).b) j i, a := scaleSample cw ch ow oh (fun x y => (v x y).a) j i }

end Sys2Proof.Machine
end

