-- ==== Sys2Proof/Machine/Slots.lean ====
section
/-! DEFINITION. Source slots (R50 to R58, R63, R156, R157, R512): buffers, frame records, stamps, selection, and the
agreement of twins on a frame (R351 to R354). -/

namespace Sys2Proof.Machine

/-! ### Slots and buffers -/

/-- Every slot starts unused. -/
def slotDefault : Nat → Slot := fun _ => {}

/-- Slot `n`. -/
def Chip.slot (c : Chip) (n : Nat) : Slot := mapGet slotDefault c.slots n

/-- Slot `n` changes. -/
def Chip.modSlot (c : Chip) (n : Nat) (f : Slot → Slot) : Chip := { c with slots := mapMod slotDefault c.slots n f }

/-- Every buffer starts unused. -/
def bufDefault : Nat → SlotBuf := fun _ => {}

/-- Buffer `i` of slot `n`, beyond its record. -/
def Chip.buf (c : Chip) (n i : Nat) : SlotBuf := mapGet bufDefault (c.slot n).bufs i

/-- Buffer `i` of slot `n` changes. -/
def Chip.modBuf (c : Chip) (n i : Nat) (f : SlotBuf → SlotBuf) : Chip :=
  c.modSlot n (fun s => { s with bufs := mapMod bufDefault s.bufs i f })

/-- R156: the slot is enabled with a kind. -/
def Chip.slotKind (c : Chip) (n : Nat) : Nat := if c.bit (R.srcCfg n) 31 then c.fld (R.srcCfg n) 30 28 else 0

/-- R156: the slot is enabled with a kind and a unit. -/
def Chip.slotUnit (c : Chip) (n kind unit : Nat) : Bool := c.slotKind n == kind && c.fld (R.srcCfg n) 23 16 == unit

/-- R157: NBUF. -/
def Chip.slotNbuf (c : Chip) (n : Nat) : Nat := c.fld (R.srcCfg n) 12 8

/-- R157: the address of buffer `i`. -/
def Chip.bufAddr (c : Chip) (n i : Nat) : Nat :=
  c.base40 (R.srcPoolLo n) (R.srcPoolHi n) + i * (c.fld (R.srcStride n) 15 0 * 4096)

/-- The picture in buffer `i` of slot `n`. -/
def Chip.bufPic (c : Chip) (n i : Nat) : Pic :=
  { base := c.bufAddr n i, fmt := c.fld (R.srcCfg n) 3 0, w := c.fld (R.srcGeom n) 15 0, h := c.fld (R.srcGeom n) 31 16 }

/-- R157: the address of the frame record of buffer `i`. -/
def Chip.recAddr (c : Chip) (n i : Nat) : Nat := c.base40 (R.srcRecLo n) (R.srcRecHi n) + i * 64

/-! ### Frame records (R50) -/

/-- A frame record's fields. -/
structure FrameRec where
  cap : Stamp
  arrival : Stamp
  change : Stamp
  elig : Stamp
  sig : Nat
  seq : Nat
  code : Nat
  eligible : Bool
  twinLost : Bool
  derived : Bool
  cause : Nat
  deriving DecidableEq, Repr

/-- Reading 48 bytes as a frame record. -/
def frameRecOf (l : List Byte) : FrameRec :=
  let b := leAt l 40 1
  { cap := leAt l 0 8, arrival := leAt l 8 8, change := leAt l 16 8, elig := leAt l 24 8, sig := leAt l 32 4,
    seq := leAt l 36 4, code := b % 16, eligible := b / 16 % 2 == 1, twinLost := b / 32 % 2 == 1,
    derived := b / 64 % 2 == 1, cause := leAt l 41 1 }

/-- A record's 48 bytes. -/
def FrameRec.bytes (r : FrameRec) : List Byte :=
  leBytes 8 r.cap ++ leBytes 8 r.arrival ++ leBytes 8 r.change ++ leBytes 8 r.elig ++ leBytes 4 r.sig ++
    leBytes 4 r.seq ++
    leBytes 1 (r.code + (if r.eligible then 16 else 0) + (if r.twinLost then 32 else 0) + (if r.derived then 64 else 0)) ++
    leBytes 1 r.cause ++ leBytes 6 0

/-- The frame record of buffer `i` of slot `n`. -/
def Chip.frameRec (c : Chip) (n i : Nat) : FrameRec := frameRecOf (c.dramBytes (c.recAddr n i) 48)

/-- The frame record of buffer `i` of slot `n` is written. -/
def Chip.putFrameRec (c : Chip) (n i : Nat) (r : FrameRec) : Chip := c.dramWrite (c.recAddr n i) r.bytes

/-- R50: completeness 2 to 6. -/
def FrameRec.finished (r : FrameRec) : Bool := decide (2 ≤ r.code) && decide (r.code ≤ 6)

/-- R57: the order of frames: a later capture stamp, or an equal one and a higher sequence number. -/
def frameAfter (cap seq cap' seq' : Nat) : Bool :=
  decide (0 < stampGap cap cap') || (cap == cap' && decide (0 < signedOf 32 (seq + 2 ^ 32 - seq')))

/-- The buffer among `l` whose record comes last in the order of R57. -/
def Chip.newestBuf (c : Chip) (n : Nat) : List Nat → Option Nat
  | [] => none
  | i :: rest =>
    match c.newestBuf n rest with
    | none => some i
    | some j =>
      let a := c.frameRec n i
      let b := c.frameRec n j
      if frameAfter b.cap b.seq a.cap a.seq then some j else some i

/-- The frame of buffer `i` was begun under the slot's present configuration (R512). -/
def Chip.present (c : Chip) (n i : Nat) : Bool := (c.buf n i).gen == (c.slot n).gen

/-- R57: the buffer whose frame a window of slot `n` with presentation delay `d` ns shows at frame start `f`. -/
def Chip.selectFrame (c : Chip) (n : Nat) (f : Stamp) (d : Nat) : Option Nat :=
  c.newestBuf n ((List.range (c.slotNbuf n)).filter (fun i =>
    let r := c.frameRec n i
    r.code == 2 && r.elig != 0 && decide (0 < stampGap f r.elig) && decide (0 ≤ stampGap (stampSub f d) r.cap) &&
      c.present n i))

/-- R58: the buffer that holds the slot's newest eligible frame. -/
def Chip.newestEligible (c : Chip) (n : Nat) : Option Nat :=
  c.newestBuf n ((List.range (c.slotNbuf n)).filter (fun i => (c.frameRec n i).eligible && c.present n i))

/-- R58: the slot may not recycle buffer `i`: it is written, shown, newest eligible, or taken by an encode job. -/
def Chip.bufHeld (c : Chip) (n i : Nat) : Bool :=
  (c.frameRec n i).code == 1 || c.newestEligible n == some i || decide (0 < (c.buf n i).jobs) ||
    c.shown.any (fun e => match e.2 with | some (m, j, _) => m == n && j == i | none => false)

/-- R157: the buffer of `l` whose finished frame has the smallest capture stamp, then sequence number, then number. -/
def Chip.oldestBuf (c : Chip) (n : Nat) : List Nat → Option Nat
  | [] => none
  | i :: rest =>
    match c.oldestBuf n rest with
    | none => some i
    | some j =>
      let a := c.frameRec n i
      let b := c.frameRec n j
      if frameAfter a.cap a.seq b.cap b.seq then some j else some i

/-- R157: the free buffer that a new frame takes. -/
def Chip.freeBuf (c : Chip) (n : Nat) : Option Nat :=
  let free := (List.range (c.slotNbuf n)).filter (fun i => !c.bufHeld n i)
  match free.find? (fun i => (c.frameRec n i).code == 0) with
  | some i => some i
  | none =>
    match free.find? (fun i => !c.present n i) with
    | some i => some i
    | none => c.oldestBuf n (free.filter (fun i => (c.frameRec n i).finished))

/-! ### Agreement of twins (R351 to R354) -/

/-- R351: the slot's bit in `TWN_AGREE`. -/
def Chip.agreed (c : Chip) (n : Nat) : Bool := c.bit (R.twnAgree (n / 32)) (n % 32)

/-- R54, R353: the earlier-begun frame from which frame `seq` takes its change stamp. -/
def Chip.prevFrame (c : Chip) (n seq : Nat) : Option Finished :=
  let s := c.slot n
  let l := s.done.filter (fun d => d.gen == s.gen && d.seq != seq && decide (0 < signedOf 32 (seq + 2 ^ 32 - d.seq)) &&
    (if c.agreed n then d.eligible && !d.twinLost else d.complete))
  l.foldl (fun best d => match best with
    | none => some d
    | some b => if decide (0 < signedOf 32 (d.seq + 2 ^ 32 - b.seq)) then some d else some b) none

/-- R54: the change stamp of a frame. -/
def Chip.changeStamp (c : Chip) (n seq : Nat) (complete : Bool) (sig : Nat) (cap : Stamp) : Stamp :=
  if !complete then 0
  else match c.prevFrame n seq with
    | none => cap
    | some p => if sig != p.sig then cap else p.change

/-- A finished frame's history entry changes. -/
def Chip.modDone (c : Chip) (n seq : Nat) (f : Finished → Finished) : Chip :=
  c.modSlot n (fun s => { s with done := s.done.map (fun d => if d.gen == s.gen && d.seq == seq then f d else d) })

/-- R352: a NOTICE leaves for the twin. -/
def Chip.sendNotice (c : Chip) (n key : Nat) (v : Verdict) : Chip :=
  (c.bump (R.twnCnt 0)).bolSend 3 (leBytes 1 n ++ leBytes 1 ((if v.hold then 1 else 2) + (if v.derived then 4 else 0)) ++
    [0, 0] ++ leBytes 4 key ++ leBytes 8 v.cap ++ leBytes 8 v.stamp ++ leBytes 4 v.sig ++ leBytes 4 0)

/-- R353: an own frame of an agreed slot becomes eligible at E with an agreed capture stamp. -/
def Chip.agreeFrame (c : Chip) (n i seq : Nat) (e cap : Stamp) (derived lost : Bool) : Chip :=
  let r := c.frameRec n i
  if r.seq == seq && r.code == 2 then
    let k := c.changeStamp n seq true r.sig cap
    let c := c.putFrameRec n i { r with
      cap := cap, change := k, elig := e, derived := derived, twinLost := lost,
      eligible := r.eligible || decide (0 ≤ stampGap c.clk e) }
    let c := c.modDone n seq (fun d => { d with cap := cap, change := k, eligible := true, twinLost := lost })
    if lost then c.bump (R.twnCnt 3) else c
  else c

/-- R353: both verdicts are known; each twin decides the frame by the table. `late`: the twin's NOTICE is what completes
them, so R354 applies. -/
def Chip.decideFrame (c : Chip) (n : Nat) (g : Agree) (own twin : Verdict) (late : Bool) : Chip :=
  match g.frame with
  | some (i, seq) =>
    if own.hold then
      let e := (stampMax own.stamp twin.stamp + c.twinMargin) % 2 ^ 64
      let c :=
        if twin.hold && own.sig == twin.sig then
          c.agreeFrame n i seq e (stampMin own.cap twin.cap) (own.derived || twin.derived) false
        else if twin.hold then
          ((c.agreeFrame n i seq e own.cap own.derived true).bump (R.twnCnt 4)).eventLimited n 0x1008 .room
            [.val 1 n, .val 4 g.key, .val 4 own.sig, .val 4 twin.sig, .occ]
        else c.agreeFrame n i seq e own.cap own.derived true
      if late && decide (0 < stampGap c.clk e) then
        (c.bump (R.twnCnt 2)).eventLimited n 0x1007 .room
          [.val 1 n, .val 4 g.key, .val 4 ((stampGap c.clk e).toNat / nsPerUs), .occ]
      else c
    else c
  | none => c

/-- The first waiting frame of a key that lacks a verdict of the given side is changed, or a new one joins the end. -/
def agreePut (key : Nat) (ownSide : Bool) (f : Agree → Agree) : List Agree → List Agree
  | [] => [f { key := key }]
  | a :: rest =>
    if a.key == key && (if ownSide then a.own.isNone else a.twin.isNone) then f a :: rest
    else a :: agreePut key ownSide f rest

/-- R353: every waiting frame with both verdicts is decided and waits no longer. -/
def Chip.settle (c : Chip) (n : Nat) (late : Bool) : Chip :=
  let l := (c.slot n).agree
  let c := c.modSlot n (fun s => { s with agree := s.agree.filter (fun a => a.own.isNone || a.twin.isNone) })
  forL l (fun a c => match a.own, a.twin with
    | some o, some t => c.decideFrame n a o t late
    | _, _ => c) c

/-- R352: the part's own verdict on a frame: a NOTICE leaves, and the frame is decided when the twin's is known. -/
def Chip.ownVerdict (c : Chip) (n key : Nat) (frame : Option (Nat × Nat)) (v : Verdict) : Chip :=
  let c := c.modSlot n (fun s => { s with
    agree := agreePut key true (fun a => { a with frame := frame, own := some v }) s.agree })
  (c.sendNotice n key v).settle n false

/-- R352: the part's own verdict, unless it has established LOST for the key before its frame came. -/
def Chip.firstVerdict (c : Chip) (n key : Nat) (frame : Option (Nat × Nat)) (v : Verdict) : Chip :=
  if (c.slot n).lostKeys.contains key then c else c.ownVerdict n key frame v

/-- R354: at the entry to SOLO every waiting frame that the part holds becomes eligible, with TWIN_LOST clear. -/
def Chip.releaseWaiting (c : Chip) : Chip :=
  forN 256 (fun n c =>
    let l := (c.slot n).agree
    if l.isEmpty then c
    else
      let c := c.modSlot n (fun s => { s with agree := [] })
      forL l (fun a c => match a.own, a.frame with
        | some o, some (i, seq) => if o.hold then c.agreeFrame n i seq (shortStamp c.clk) o.cap o.derived false else c
        | _, _ => c) c) c

/-! ### Beginning and finishing a frame -/

/-- R50, R157: slot `n` begins a frame with the key of R351. It takes a free buffer, or discards the frame. -/
def Chip.frameBegin (c : Chip) (n key : Nat) : Chip × Option Nat :=
  let c := c.modSlot n (fun s => { s with seq := (s.seq + 1) % 2 ^ 32 })
  let seq := (c.slot n).seq
  match c.freeBuf n with
  | some i =>
    let r := c.frameRec n i
    let c := c.modBuf n i (fun b => { b with gen := (c.slot n).gen, key := key })
    (c.putFrameRec n i { r with
      elig := 0, seq := seq, code := 1, eligible := false, twinLost := false, derived := false, cause := 0 }, some i)
  | none =>
    let c := (c.bump (R.srcCnt n 1)).event 0x3011 .room [.val 1 n, .val 4 seq]
    let c := if c.agreed n && c.paired then
        c.firstVerdict n key none { hold := false, derived := false, cap := 0, stamp := shortStamp c.clk, sig := 0 }
      else c
    (c, none)

/-- R52, R53: L of slot `n` in ns. -/
def Chip.slotLatency (c : Chip) (n : Nat) : Nat := c.fld (R.srcLat n) 31 0 * nsPerUs

/-- R52, R53: the capture stamp from the supplied one, none where the source has none to trust, and DERIVED. -/
def Chip.captureStamp (c : Chip) (n : Nat) (arrival : Stamp) (sup : Option Stamp) : Chip × Stamp × Bool :=
  let own := stampSub arrival (c.slotLatency n)
  if c.bit (R.srcFresh n) 31 then (c, own, true)
  else match sup with
    | none => (c, own, true)
    | some s =>
      if decide (0 < stampGap s arrival) then
        (c.event 0x3010 .room [.val 1 n, .val 8 (shortStamp s), .val 8 (shortStamp arrival)], own, true)
      else (c, shortStamp s, false)

/-- R385: the memory group of the unit that writes the frames of slot `n`. -/
def Chip.slotGroup (c : Chip) (n : Nat) : Nat :=
  match c.slotKind n with
  | 1 => 4
  | 5 => 7
  | 6 => 9
  | _ => 5

/-- R26, R50 to R55: the frame in buffer `i` of slot `n`, which holds picture `p`, finishes with a completeness code, impairment cause
bits, arrival stamp and supplied capture stamp; `missing` packets are lost to it. A picture that reaches beyond the usable DRAM met a
fault (R377, R403). -/
def Chip.picFinish (c : Chip) (n i : Nat) (p : Pic) (code cause : Nat) (arrival : Stamp) (sup : Option Stamp) (missing : Nat) :
    Chip :=
  let r := c.frameRec n i
  if r.code != 1 then c
  else
    let size := frameBytes p.fmt p.w p.h
    let fault := c.isBeyond p.base size
    let code := if fault then 5 else code
    let cause := if fault then cause ||| 4 else cause
    let c := c.refuseBeyond (c.slotGroup n) p.base size
    let (c, cap, derived) := c.captureStamp n arrival sup
    let complete := code == 2
    let sig := c.ttSignature n p
    let k := c.changeStamp n r.seq complete sig cap
    let now := shortStamp c.clk
    let waits := c.agreed n && c.paired
    let elig := complete && !waits
    let c := c.putFrameRec n i {
      cap := cap, arrival := shortStamp arrival, change := k, elig := if elig then now else 0, sig := sig, seq := r.seq, code := code, eligible := elig, twinLost := false, derived := derived, cause := cause }
    let b := c.buf n i
    let c := c.modSlot n (fun s => { s with done := {
      gen := b.gen, seq := r.seq, cap := cap, complete := complete, eligible := elig, twinLost := false, sig := sig, change := k, stamp := c.clk } :: s.done })
    let c := (c.bump (R.srcCnt n 0)).setFld (R.srcStat n) 31 31 1
    let c := if complete then c else c.bump (R.srcCnt n 2)
    let c := if code == 6 then c.eventLimited n 0x3012 .room [.val 1 n, .val 4 r.seq, .val 4 missing, .occ] else c
    if waits then
      c.firstVerdict n b.key (some (i, r.seq))
        (if complete then { hold := true, derived := derived, cap := cap, stamp := now, sig := sig }
         else { hold := false, derived := false, cap := 0, stamp := now, sig := 0 })
    else c

/-- R26: a frame of the slot's own size finishes. -/
def Chip.frameFinish (c : Chip) (n i code cause : Nat) (arrival : Stamp) (sup : Option Stamp) (missing : Nat) : Chip :=
  c.picFinish n i (c.bufPic n i) code cause arrival sup missing

/-! ### The impairment test (R63) -/

/-- The finished frame of `l` that comes last in the order of R57. -/
def lastFinished (l : List Finished) : Option Finished :=
  l.foldl (fun best d => match best with
    | none => some d
    | some b => if frameAfter d.cap d.seq b.cap b.seq then some d else some b) none

/-- The `n` last frames of `l` in the order of R57, last one first. -/
def newestFinished : Nat → List Finished → List Finished
  | 0, _ => []
  | n + 1, l =>
    match lastFinished l with
    | none => []
    | some d => d :: newestFinished n (l.filter (fun x => x != d))

/-- Every gap between consecutive stamps of a list, newest first, is at most `h` ns. -/
def gapsWithin (h : Nat) : List Stamp → Bool
  | a :: b :: rest => decide (stampGap a b ≤ (h : Int)) && gapsWithin h (b :: rest)
  | _ => true

/-- R63: the impairment test of a window of slot `n` with delay `d` ns at frame start `f`. -/
def Chip.impairmentTest (c : Chip) (n : Nat) (f : Stamp) (d : Nat) : Bool :=
  let s := c.slot n
  let counted := s.done.filter (fun x => x.gen == s.gen && decide (0 < stampGap f x.stamp) &&
    decide (0 ≤ stampGap (stampSub f d) x.cap))
  let run := c.fld (R.srcFresh n) 27 24
  let newest := newestFinished run counted
  match newest.reverse with
  | [] => false
  | oldest :: _ =>
    newest.length == run && newest.all (fun x => !x.complete) &&
      gapsWithin (c.fld (R.srcFresh n) 15 0 * nsPerMs)
        (f :: (s.done.filter (fun x => decide (0 < stampGap f x.stamp) && decide (0 ≤ stampGap x.stamp oldest.stamp))).map
          (fun x => x.stamp))

/-- R512: a write changed slot `n`'s configuration, at which a slot that becomes enabled starts anew (R158, R165). The
network side is started anew by `reconfigure`. -/
def Chip.newConfig (c : Chip) (n : Nat) (enabled : Bool) : Chip :=
  let c := c.modSlot n (fun s => { s with gen := s.gen + 1 })
  let c := c.modSlot n (fun s => { s with bsPos := 0 })
  if enabled then
    -- R155: no sender is current any longer.
    let old := (c.reg (R.srcLead n)).toNat
    let c := if old == 0 then c else (c.setNat (R.srcLead n) 0).event 0x2002 .room [.val 1 n, .val 4 old, .val 4 0]
    { c.setFld (R.srcStat n) 31 28 0 with net := mapErase c.net (fun m => m == n) }
  else c

/-! ### The commands -/

/-- FRAME_BEGIN (R157): an enabled slot with a pool begins a frame whose first pixel, or whose decoding, has come. -/
def execFrameBegin (t : Stamp) (n key : Nat) (s : State) : Host.Outcome State Fault Refusal :=
  runIf (decide (n < 256)) (fun c =>
    let c := c.at t
    if c.slotKind n == 0 || c.slotKind n == 7 then c else (c.frameBegin n key).1) s

/-- FRAME_FINISH (R50): the finishing unit has written the frame's last pixel: the content it wrote, by offset in the
buffer, its completeness and cause, its arrival stamp and the capture stamp that the source supplies. -/
def execFrameFinish (t : Stamp) (n i code cause : Nat) (arrival : Stamp) (sup : Option Stamp) (missing : Nat)
    (content : List (Nat × List Byte)) (s : State) : Host.Outcome State Fault Refusal :=
  runIf (decide (n < 256) && decide (i < 32) && decide (2 ≤ code) && decide (code ≤ 6) && decide (cause < 16)) (fun c =>
    let c := c.at t
    if (c.frameRec n i).code != 1 then c
    else
      let base := c.bufAddr n i
      (forL content (fun e c => c.dramWrite (base + e.1) e.2) c).frameFinish n i code cause arrival sup missing) s

/-- FRAME_ELIGIBLE (R353): the agreed E of a frame has come. -/
def execFrameEligible (t : Stamp) (n i : Nat) (s : State) : Host.Outcome State Fault Refusal :=
  runIf (decide (n < 256) && decide (i < 32)) (fun c =>
    let c := c.at t
    let r := c.frameRec n i
    if r.code == 2 && r.elig != 0 && decide (0 ≤ stampGap c.clk r.elig) then
      c.putFrameRec n i { r with eligible := true }
    else c) s

/-- NOTICE_RECEIVE (R338, R353): the twin's verdict on a frame. -/
def execNoticeReceive (t : Stamp) (msg : List Byte) (s : State) : Host.Outcome State Fault Refusal :=
  runIf (decide (msg.length = 32)) (fun c =>
    let c := c.at t
    let c := if c.twinOn then c.bump (R.twnCnt 1) else c
    let n := leAt msg 0 1
    let b := leAt msg 1 1
    let v : Verdict := { hold := b % 4 == 1, derived := b / 4 % 2 == 1, cap := leAt msg 8 8, stamp := leAt msg 16 8,
                         sig := leAt msg 24 4 }
    if c.agreed n && c.paired then
      let c := c.modSlot n (fun s => { s with
        agree := agreePut (leAt msg 4 4) false (fun a => { a with twin := some v }) s.agree })
      c.settle n true
    else c) s

/-- NOTICE_LOSTWAIT_EXPIRE (R352): LOSTWAIT after a twin's HOLD with no own frame of that key, the part establishes LOST. -/
def execNoticeLostwaitExpire (t : Stamp) (n key : Nat) (s : State) : Host.Outcome State Fault Refusal :=
  runIf (decide (n < 256)) (fun c =>
    let c := c.at t
    let wait := c.fld R.twnTiming 31 16 * nsPerMs
    let due := (c.slot n).agree.any (fun a => a.key == key && a.own.isNone && (match a.twin with
      | some v => v.hold && elapsed c.clk v.stamp wait
      | none => false))
    if due && c.paired then
      (c.modSlot n (fun s => { s with lostKeys := (key :: s.lostKeys).take 256 })).ownVerdict n key none { hold := false, derived := false, cap := 0, stamp := shortStamp c.clk, sig := 0 }
    else c) s

end Sys2Proof.Machine
end

