-- ==== Sys2Proof/Machine/Encode.lean ====
section
/-! DEFINITION. What an encode engine makes of a picture (R171, R191 to R193, R196): the input conversion, motion search, mode
decision and coding units. -/

namespace Sys2Proof.Machine

/-! ### Input conversion (R191) -/

/-- The settings of an encode context that its pictures depend on: codec, PROFILE, LEVEL_IDC, SLICE_ROWS, RANGE, INTRA_BIAS and R. -/
structure EncSettings where
  h265 : Bool
  profile : Nat
  level : Nat
  sliceRows : Bool
  range : Nat
  intraBias : Nat
  reach : Nat
  deriving DecidableEq, Repr

/-- The settings of encode context `x` (R199). -/
def Chip.encSettings (c : Chip) (x : Nat) : EncSettings :=
  { h265 := c.bit (R.vecCtx x) 30, profile := c.fld (R.vecCtx x) 29 28, level := c.fld (R.vecCtx x) 23 16,
    sliceRows := c.bit (R.vecCtx x) 0, range := c.fld (R.vecCtxMe x) 25 16,
    intraBias := c.fld (R.vecCtxMe x) 15 8, reach := c.fld (R.vecCtxMe x) 3 0 }

/-- The bit depth of a profile. -/
def profileDepth (profile : Nat) : Nat := if profile == 0 then 8 else 10

/-- The format that a profile's samples have in a reference buffer (DESIGN CHOICE, log 104). -/
def profileFmt (profile : Nat) : Nat := match profile with | 0 => 6 | 1 => 4 | _ => 3

/-- R191: a component of 10 bits, or of 8 where `eight`, in a profile's depth. -/
def toDepth (profile : Nat) (eight : Bool) (v : Nat) : Nat :=
  if profile == 0 then (if eight then v else narrow8 v) else if eight then expand8 v else v

/-- A format whose YCbCr samples have 8 bits. -/
def fmtEight (fmt : Nat) : Bool := fmt == 5 || fmt == 6

/-- The 4:4:4 components of an input pixel: RGB is converted, YCC444 is as it is. -/
def Chip.fullYcc (c : Chip) (p : Pic) (x y : Nat) : Nat × Nat × Nat :=
  if p.fmt == 2 then
    let w := c.picWord p x y
    (bitsNat w 29 20, bitsNat w 19 10, bitsNat w 9 0)
  else rgbToYcc (c.picPx p 0 x y)

/-- The luma sample of the coded picture: the input repeated beyond its right and lower edges (DESIGN CHOICE, log 104). -/
def Chip.encLuma (c : Chip) (profile : Nat) (p : Pic) (x y : Nat) : Nat :=
  let x := min x (p.w - 1)
  let y := min y (p.h - 1)
  if fmtPlanar p.fmt then
    let w := c.picWord p x y
    toDepth profile (fmtEight p.fmt) (if fmtEight p.fmt then w else bitsNat w 9 0)
  else toDepth profile false (c.fullYcc p x y).1

/-- The stored chroma pair of a planar picture, in its own depth. -/
def Chip.rawChroma (c : Chip) (p : Pic) (k row : Nat) : Nat × Nat :=
  let n := fmtBytes p.fmt
  let a := p.base + chromaBase p.fmt p.w p.h + row * chromaPitch p.fmt p.w + k * 2 * n
  let v (o : Nat) : Nat := let x := c.dramNat (a + o) n; if n == 1 then x else bitsNat x 9 0
  (v 0, v n)

/-- R191: the rounded mean of pairs: of two, or of four. -/
def meanPairs (l : List (Nat × Nat)) : Nat × Nat :=
  let n := l.length
  (((l.map (fun v => v.1)).sum + n / 2) / n, ((l.map (fun v => v.2)).sum + n / 2) / n)

/-- R191: the chroma pair (k, j) of the coded picture. A 4:2:0 input of a 4:2:2 profile has each chroma row twice (DESIGN CHOICE,
log 104). -/
def Chip.encChroma (c : Chip) (profile : Nat) (p : Pic) (k j : Nat) : Nat × Nat :=
  let k := min k (ceilDiv p.w 2 - 1)
  let rows := if profile == 2 then [min j (p.h - 1)] else [min (2 * j) (p.h - 1), min (2 * j + 1) (p.h - 1)]
  let pair :=
    if fmtPlanar p.fmt then
      if fmt420 p.fmt then c.rawChroma p k (rows.headD 0 / 2) else meanPairs (rows.map (fun r => c.rawChroma p k r))
    else meanPairs (rows.flatMap (fun r => [min (2 * k) (p.w - 1), min (2 * k + 1) (p.w - 1)].map (fun x => (c.fullYcc p x r).2)))
  let eight := fmtPlanar p.fmt && fmtEight p.fmt
  (toDepth profile eight pair.1, toDepth profile eight pair.2)

/-! ### Interpolation -/

/-- Luma samples by place; places outside a picture of `w` × `h` read its nearest edge sample. -/
def edged (w h : Nat) (v : Nat → Nat → Nat) (x y : Int) : Int :=
  v (clampInt 0 ((w : Int) - 1) x).toNat (clampInt 0 ((h : Int) - 1) y).toNat

/-- The H.265 luma filter of a fraction in quarter samples, for the samples from −3 on (PRESUMED, log 104: the codec's own filters of
R192 are the coding standards'). -/
def hevcTaps (f : Nat) : List Int :=
  match f with
  | 1 => [-1, 4, -10, 58, 17, -5, 1, 0]
  | 2 => [-1, 4, -11, 40, 40, -11, 4, -1]
  | _ => [0, 1, -5, 17, 58, -10, 4, -1]

/-- A filter over samples from place `k0` on. -/
def tapSum (taps : List Int) (k0 : Int) (v : Int → Int) : Int :=
  ((taps.zipIdx).map (fun e => e.1 * v (k0 + e.2))).sum

/-- H.265: the predicted luma sample at (x, y) for a vector's fractions (PRESUMED, log 104). -/
def hevcSample (depth : Nat) (v : Int → Int → Int) (x y : Int) (fx fy : Nat) : Int :=
  let s1 : Int := 2 ^ (depth - 8)
  let row (j : Int) : Int := tapSum (hevcTaps fx) (x - 3) (fun i => v i j) / s1
  let p : Int :=
    if fx == 0 && fy == 0 then v x y * 2 ^ (14 - depth)
    else if fy == 0 then row y
    else if fx == 0 then tapSum (hevcTaps fy) (y - 3) (fun j => v x j) / s1
    else tapSum (hevcTaps fy) (y - 3) row / 64
  clampInt 0 (2 ^ depth - 1) ((p + 2 ^ (13 - depth)) / 2 ^ (14 - depth))

/-- The H.264 six-tap filter. -/
def avcTaps : List Int := [1, -5, 20, 20, -5, 1]

/-- H.264: the predicted luma sample at (x, y) for a vector's fractions: half samples by the six-tap filter, quarter samples as the mean
of two neighbours (PRESUMED, log 104). -/
def avcSample (depth : Nat) (v : Int → Int → Int) (x y : Int) (fx fy : Nat) : Int :=
  let clip (a : Int) : Int := clampInt 0 (2 ^ depth - 1) a
  let across (i j : Int) : Int := tapSum avcTaps (i - 2) (fun k => v k j)
  let b (j : Int) : Int := clip ((across x j + 16) / 32)
  let h (i : Int) : Int := clip ((tapSum avcTaps (y - 2) (fun k => v i k) + 16) / 32)
  let j : Int := clip ((tapSum avcTaps (y - 2) (fun k => across x k) + 512) / 1024)
  let mean (p q : Int) : Int := (p + q + 1) / 2
  match fx, fy with
  | 0, 0 => v x y
  | 2, 0 => b y
  | 0, 2 => h x
  | 2, 2 => j
  | 1, 0 => mean (v x y) (b y)
  | 3, 0 => mean (v (x + 1) y) (b y)
  | 0, 1 => mean (v x y) (h x)
  | 0, 3 => mean (v x (y + 1)) (h x)
  | 2, 1 => mean (b y) j
  | 2, 3 => mean j (b (y + 1))
  | 1, 2 => mean (h x) j
  | 3, 2 => mean j (h (x + 1))
  | 1, 1 => mean (b y) (h x)
  | 3, 1 => mean (b y) (h (x + 1))
  | 1, 3 => mean (h x) (b (y + 1))
  | _, _ => mean (h (x + 1)) (b (y + 1))

/-! ### Motion search (R192) -/

/-- A picture as the search sees it: its size, its luma, and the luma that a vector in quarter samples predicts at a place. -/
structure SearchView where
  w : Nat
  h : Nat
  cur : Nat → Nat → Nat
  ref : Int × Int → Nat → Nat → Int

/-- The places of block (bx, by) that lie in the picture. -/
def SearchView.block (v : SearchView) (bx by_ : Nat) : List (Nat × Nat) :=
  (List.range 16).flatMap (fun j => (List.range 16).filterMap (fun i =>
    if 16 * bx + i < v.w && 16 * by_ + j < v.h then some (16 * bx + i, 16 * by_ + j) else none))

/-- The sum of absolute differences of a block against a prediction. -/
def SearchView.sad (v : SearchView) (bx by_ : Nat) (pred : Nat → Nat → Int) : Nat :=
  ((v.block bx by_).map (fun a => ((v.cur a.1 a.2 : Int) - pred a.1 a.2).natAbs)).sum

/-- R192: lam. -/
def searchLam (qp : Nat) : Nat := max 1 (qp * qp / 64)

/-- R192: the bits of a vector whose prediction is `m`. -/
def vectorBits (m v : Int × Int) : Nat :=
  (2 * Nat.log2 ((v.1 - m.1).natAbs + 1) + 1) + (2 * Nat.log2 ((v.2 - m.2).natAbs + 1) + 1)

/-- R192: the cost of a vector. -/
def SearchView.cost (v : SearchView) (qp bx by_ : Nat) (m mv : Int × Int) : Nat :=
  v.sad bx by_ (v.ref mv) + searchLam qp * vectorBits m mv / 4

/-- The middle of three numbers. -/
def median3 (a b c : Int) : Int := max (min a b) (min (max a b) c)

/-- A vector clamped to ±`range` integer samples. -/
def clampVector (range : Nat) (v : Int × Int) : Int × Int :=
  let r : Int := 4 * (range : Int)
  (clampInt (-r) r v.1, clampInt (-r) r v.2)

/-- What the search found at a place: the origin's candidate index, the vector and its cost. -/
structure Found where
  origin : Nat
  mv : Int × Int
  cost : Nat
  deriving DecidableEq, Repr

/-- R192: the result that comes first: the lower cost, then the earlier one. -/
def bestFound (a : Found) (l : List Found) : Found := l.foldl (fun b x => if x.cost < b.cost then x else b) a

/-- R192: results in the order of cost, equal ones in the order that they have. -/
def insertFound (x : Found) : List Found → List Found
  | [] => [x]
  | a :: rest => if x.cost < a.cost then x :: a :: rest else a :: insertFound x rest

/-- R192: results sorted by cost, the lower candidate index first among equal ones. -/
def sortFound (l : List Found) : List Found := l.foldl (fun s x => insertFound x s) []

/-- The vectors of the blocks of a picture by place; none for a block that has none or lies outside. -/
def modeAt (bw bh : Nat) (l : List BlockMode) (bx by_ : Int) : Option BlockMode :=
  if 0 ≤ bx && bx < (bw : Int) && 0 ≤ by_ && by_ < (bh : Int) then (l.drop (by_.toNat * bw + bx.toNat)).head? else none

/-- R192: candidate 6, the vectors of unavailable blocks counting as zero (DESIGN CHOICE, log 104). -/
def medianVector (left above aboveRight : Option (Int × Int)) : Int × Int :=
  let a := left.getD (0, 0)
  let b := above.getD (0, 0)
  let c := aboveRight.getD (0, 0)
  (median3 a.1 b.1 c.1, median3 a.2 b.2 c.2)

/-- R192: the candidates of block (bx, by) in their order. `now` holds the blocks of this picture before it, `before` those of the
previous coded picture. -/
def candidates (bw bh : Nat) (gv : Int × Int) (now before : List BlockMode) (bx by_ : Nat) : List (Option (Int × Int)) :=
  let n (dx dy : Int) : Option (Int × Int) := (modeAt bw bh now (bx + dx) (by_ + dy)).bind (fun b => b.mv)
  let o (dx dy : Int) : Option (Int × Int) := (modeAt bw bh before (bx + dx) (by_ + dy)).bind (fun b => b.mv)
  [some (0, 0), some gv, n (-1) 0, n 0 (-1), n 1 (-1), n (-1) (-1),
   some (medianVector (n (-1) 0) (n 0 (-1)) (n 1 (-1))),
   o 0 0, o 1 0, o 0 1, o 1 1, o (-1) 0, o 0 (-1), n (-2) 0, n 0 (-2),
   (modeAt bw bh now ((bx : Int) - 1) by_).bind (fun b => b.second)]

/-- R192: the available candidates with their indices, clamped, the first of equal ones kept. -/
def keptCandidates (range : Nat) (l : List (Option (Int × Int))) : List (Nat × (Int × Int)) :=
  (l.zipIdx).foldl (fun (acc : List (Nat × (Int × Int))) (e : Option (Int × Int) × Nat) =>
    match e.1 with
    | none => acc
    | some v =>
      let v := clampVector range v
      if acc.any (fun a => a.2 == v) then acc else acc ++ [(e.2, v)]) []

/-- The offsets of a square of reach `r`, vertical first. -/
def squareOffsets (r : Nat) : List (Int × Int) :=
  (List.range (2 * r + 1)).flatMap (fun j => (List.range (2 * r + 1)).map (fun i => ((i : Int) - (r : Int), (j : Int) - (r : Int))))

/-- R192: one of the three origins is refined: to integer position, rounded to the nearest sample; the square of ±R around it, within
the vector limit; then the 8 half-sample and the 8 quarter-sample neighbours of the best so far (DESIGN CHOICE, log 104: rounding, and
that no position beyond the limit is tested). -/
def SearchView.refine (v : SearchView) (s : EncSettings) (qp bx by_ : Nat) (m : Int × Int) (f : Found) : Found :=
  let centre : Int × Int := ((f.mv.1 + 2) / 4 * 4, (f.mv.2 + 2) / 4 * 4)
  let at_ (b : Int × Int) (step : Int) (l : List (Int × Int)) : List Found :=
    (l.filterMap (fun d =>
      let mv := (b.1 + step * d.1, b.2 + step * d.2)
      if clampVector s.range mv == mv then some ⟨f.origin, mv, v.cost qp bx by_ m mv⟩ else none))
  let centre := clampVector s.range centre
  let whole := match at_ centre 4 (squareOffsets s.reach) with
    | [] => f
    | a :: rest => bestFound a rest
  let half := bestFound whole (at_ whole.mv 2 ((squareOffsets 1).filter (fun d => d != (0, 0))))
  bestFound half (at_ half.mv 1 ((squareOffsets 1).filter (fun d => d != (0, 0))))

/-- R192: the search of block (bx, by): its refined results, best first. -/
def SearchView.search (v : SearchView) (s : EncSettings) (qp : Nat) (gv : Int × Int) (bw bh : Nat) (now before : List BlockMode)
    (bx by_ : Nat) : List Found :=
  let l := candidates bw bh gv now before bx by_
  let m := (l.getD 6 none).getD (0, 0)
  let first := sortFound ((keptCandidates s.range l).map (fun e => ⟨e.1, e.2, v.cost qp bx by_ m e.2⟩))
  let three := (first.take 3).map (v.refine s qp bx by_ m)
  let byOrigin := three.foldl (fun (acc : List Found) x =>
    acc.takeWhile (fun a => decide (a.origin < x.origin)) ++ x :: acc.dropWhile (fun a => decide (a.origin < x.origin))) []
  sortFound byOrigin

/-! ### Mode decision (R193) -/

/-- A neighbour sample of an intra prediction: of the input picture, and mid-grey outside it (DESIGN CHOICE, log 104). -/
def SearchView.near (v : SearchView) (depth : Nat) (x y : Int) : Int :=
  if x < 0 || y < 0 then 2 ^ (depth - 1) else v.cur (min x.toNat (v.w - 1)) (min y.toNat (v.h - 1))

/-- R193: the prediction of an intra mode at a place of block (bx, by): 0 DC, 1 horizontal, 2 vertical, 3 planar. -/
def SearchView.intra (v : SearchView) (depth bx by_ mode x y : Nat) : Int :=
  let x0 : Int := 16 * (bx : Int)
  let y0 : Int := 16 * (by_ : Int)
  let i : Int := x - x0
  let j : Int := y - y0
  let n := v.near depth
  match mode with
  | 0 => (((List.range 16).map (fun (k : Nat) => n (x0 + k) (y0 - 1) + n (x0 - 1) (y0 + k))).sum + 16) / 32
  | 1 => n (x0 - 1) y
  | 2 => n x (y0 - 1)
  | _ => ((15 - i) * n (x0 - 1) y + (i + 1) * n (x0 + 16) (y0 - 1) + (15 - j) * n x (y0 - 1) + (j + 1) * n (x0 - 1) (y0 + 16) + 16) / 32

/-- R193: the intra mode with the lowest SAD, and that SAD. -/
def SearchView.bestIntra (v : SearchView) (depth bx by_ : Nat) : Nat × Nat :=
  let sad (mode : Nat) : Nat := v.sad bx by_ (v.intra depth bx by_ mode)
  [1, 2, 3].foldl (fun b m => if sad m < b.2 then (m, sad m) else b) (0, sad 0)

/-- R192, R193: block (bx, by) of a picture. -/
def SearchView.decide (v : SearchView) (s : EncSettings) (idr : Bool) (qp : Nat) (gv : Int × Int) (bw bh : Nat)
    (now before : List BlockMode) (bx by_ : Nat) : BlockMode :=
  let intra := v.bestIntra (profileDepth s.profile) bx by_
  if idr then { mv := none, second := none, intra := some intra.1 }
  else
    match v.search s qp gv bw bh now before bx by_ with
    | [] => { mv := none, second := none, intra := some intra.1 }
    | best :: rest =>
      { mv := some best.mv, second := rest.head?.map (fun f => f.mv),
        intra := if intra.2 + s.intraBias * 16 < best.cost then some intra.1 else none }

/-- R192, R193: every block of a picture, in raster order. -/
def SearchView.modes (v : SearchView) (s : EncSettings) (idr : Bool) (qp : Nat) (gv : Int × Int) (bw bh : Nat)
    (before : List BlockMode) : List BlockMode :=
  (List.range (bw * bh)).foldl (fun now k => now ++ [v.decide s idr qp gv bw bh now before (k % bw) (k / bw)]) []

/-! ### Coding units (R193) -/

/-- The vector and mode that blocks of one unit share. -/
def BlockMode.shares (a b : BlockMode) : Bool := a.intra == b.intra && (a.intra.isSome || a.mv == b.mv)

/-- The blocks of a square of `n` × `n` blocks all lie in the picture and share mode and vector. -/
def squareShares (bw bh : Nat) (l : List BlockMode) (bx by_ n : Nat) : Bool :=
  match modeAt bw bh l bx by_ with
  | none => false
  | some a => (List.range n).all (fun j => (List.range n).all (fun i =>
      match modeAt bw bh l ((bx + i : Nat) : Int) ((by_ + j : Nat) : Int) with
      | some b => a.shares b
      | none => false))

/-- R193: the coding units of an H.265 picture, CTU by CTU: place in blocks and size in samples. -/
def codingUnits (bw bh : Nat) (l : List BlockMode) : List (Nat × Nat × Nat) :=
  (List.range (ceilDiv bh 4)).flatMap (fun cy => (List.range (ceilDiv bw 4)).flatMap (fun cx =>
    if squareShares bw bh l (4 * cx) (4 * cy) 4 then [(4 * cx, 4 * cy, 64)]
    else (List.range 4).flatMap (fun q =>
      let x := 4 * cx + q % 2 * 2
      let y := 4 * cy + q / 2 * 2
      if squareShares bw bh l x y 2 then [(x, y, 32)]
      else (List.range 4).filterMap (fun k =>
        if x + k % 2 < bw && y + k / 2 < bh then some (x + k % 2, y + k / 2, 16) else none))))

/-- The place of a block in coding order: CTUs in raster order, blocks in them in Z order. -/
def zOrder (bw bx by_ : Nat) : Nat :=
  (by_ / 4 * ceilDiv bw 4 + bx / 4) * 16 + by_ / 2 % 2 * 8 + bx / 2 % 2 * 4 + by_ % 2 * 2 + bx % 2

/-- H.265: the first merge candidate of a unit: the first of its left, above, above-right, below-left and above-left neighbours that
is coded before it and inter, else the zero vector (PRESUMED, log 104). -/
def firstMerge (bw bh : Nat) (l : List BlockMode) (bx by_ n : Nat) : Int × Int :=
  let x : Int := bx
  let y : Int := by_
  let m : Int := n
  let vec (i j : Int) : Option (Int × Int) := (modeAt bw bh l i j).bind (fun b =>
    if b.intra.isNone && zOrder bw i.toNat j.toNat < zOrder bw bx by_ then b.mv else none)
  ([(x - 1, y + m - 1), (x + m - 1, y - 1), (x + m, y - 1), (x - 1, y + m), (x - 1, y - 1)].findSome? (fun a => vec a.1 a.2)).getD (0, 0)

/-- R193: a coefficient in sixths of a step, quantised: an offset of 1/3 of a step in intra units and 1/6 in inter units. -/
def quantise (intra : Bool) (v : Int) : Int :=
  let q : Int := ((v.natAbs + if intra then 2 else 1) / 6 : Nat)
  if v < 0 then -q else q

/-- R193: the units of an H.265 picture with their skip. -/
def unitsOf (bw bh : Nat) (l : List BlockMode) (p : Config.EncPicture) : List (Nat × Nat × Nat × Bool) :=
  ((codingUnits bw bh l).zipIdx).map (fun e =>
    let (bx, by_, size) := e.1
    let skip := match modeAt bw bh l bx by_ with
      | some b => b.intra.isNone && b.mv == some (firstMerge bw bh l bx by_ (size / 16)) &&
          (Config.coefs p e.2).all (fun v => quantise false v == 0)
      | none => false
    (bx, by_, size, skip))

/-! ### A coded picture (R171, R196) -/

/-- R171: the coded size of an input: multiples of 8, at least 128 × 64. -/
def codedSize (p : Pic) : Nat × Nat := (max 128 (roundUp p.w 8), max 64 (roundUp p.h 8))

/-- The 8-bit or 10-bit picture that a reference buffer holds. -/
def poolPic (base profile : Nat) (p : Pic) : Pic :=
  { base := base, fmt := profileFmt profile, w := (codedSize p).1, h := (codedSize p).2 }

/-- R171: the parameter sets of a context for an input. -/
def EncSettings.params (s : EncSettings) (p : Pic) : Config.EncParams :=
  let size := codedSize p
  { h265 := s.h265, profile := s.profile, level := s.level, width := size.1, height := size.2, cropRight := size.1 - p.w,
    cropBottom := size.2 - p.h }

/-- R192, R193: the blocks of the picture coded from `p`, which predicts from the picture `ref`. -/
def Chip.encModes (c : Chip) (s : EncSettings) (p ref : Pic) (idr : Bool) (qp : Nat) (gv : Int × Int) (before : List BlockMode) :
    List BlockMode :=
  let depth := profileDepth s.profile
  let old := edged ref.w ref.h (fun x y => c.picWord ref x y)
  let view : SearchView := {
    w := ref.w, h := ref.h, cur := c.encLuma s.profile p,
    ref := fun mv x y =>
      let ix : Int := x + mv.1 / 4
      let iy : Int := y + mv.2 / 4
      let fx := (mv.1 % 4).toNat
      let fy := (mv.2 % 4).toNat
      if s.h265 then hevcSample depth old ix iy fx fy else avcSample depth old ix iy fx fy }
  view.modes s idr qp gv (ceilDiv ref.w 16) (ceilDiv ref.h 16) before

/-- R196: all that the coded picture of `p` depends on. -/
def Chip.encPicture (c : Chip) (s : EncSettings) (p ref : Pic) (idr : Bool) (qp : Nat) (modes : List BlockMode) : Config.EncPicture :=
  let chromaRowsOf := if s.profile == 2 then ref.h else ref.h / 2
  let rows := if s.h265 then ceilDiv ref.h 64 else ceilDiv ref.h 16
  let pic : Config.EncPicture := {
    params := s.params p, idr := idr, qp := qp, slices := if s.sliceRows then rows else 1,
    luma := (List.range ref.h).flatMap (fun y => (List.range ref.w).map (fun x => c.encLuma s.profile p x y)),
    chroma := (List.range chromaRowsOf).flatMap (fun j => (List.range (ref.w / 2)).map (fun k => c.encChroma s.profile p k j)),
    previous := if idr then [] else c.dramBytes ref.base (frameBytes ref.fmt ref.w ref.h),
    modes := modes.map (fun b => (b.mv, b.intra)), units := [] }
  if s.h265 then { pic with units := unitsOf (ceilDiv ref.w 16) (ceilDiv ref.h 16) modes pic } else pic

/-- R171: the NAL units of a coded picture: the parameter sets in band before an IDR picture, then its slices. -/
def codedNals (p : Config.EncPicture) : List (List Byte) :=
  (if p.idr then (List.range (if p.params.h265 then 3 else 2)).map (Config.paramSet p.params) else []) ++
    (List.range p.slices).map (Config.slice p)

/-- The bytes of a coded picture's reconstruction. -/
def reconBytes (p : Config.EncPicture) (n : Nat) : List Byte := (List.range n).map (Config.reconByte p)

end Sys2Proof.Machine
end

