-- ==== Sys2Proof/Machine/Network.lean ====
section
/-! DEFINITION. Network reception (R138 to R160, R165): ports, flows, the claim-aware merge stage, network frames, sender
reports, and the twin's claims on the network (R345). -/

namespace Sys2Proof.Machine

/-! ### Bytes -/

/-- The number in `n` bytes at offset `o`, most significant first. -/
def beAt (l : List Byte) (o n : Nat) : Nat := leNat ((l.drop o).take n).reverse

/-! ### Network slots -/

/-- Every slot starts with nothing received. -/
def netDefault : Nat → NetSlot := fun _ => {}

/-- The receive side of slot `n`. -/
def Chip.netSlot (c : Chip) (n : Nat) : NetSlot := mapGet netDefault c.net n

/-- The receive side of slot `n` changes. -/
def Chip.modNet (c : Chip) (n : Nat) (f : NetSlot → NetSlot) : Chip := { c with net := mapMod netDefault c.net n f }

/-- The claim hold H (R151). -/
def claimHold : Nat := 3000 * nsPerUs

/-- R151: the sender is current. -/
def Tracker.current (t : Tracker) (now : Stamp) : Bool := !elapsed now t.seen claimHold

/-- R151: the lead claim of slot `n` now; 0 while no sender is current (R155). -/
def Chip.leadNow (c : Chip) (n : Nat) : Nat :=
  ((c.netSlot n).trackers.filter (fun t => t.current c.clk)).foldl (fun m t => max m t.claim) 0

/-- `NET_HOLD` shows the packets held (R154). -/
def Chip.syncHold (c : Chip) : Chip :=
  let n := c.held.length
  (c.setFld R.netHold 12 0 n).setFld R.netHold 28 16 (max n (c.fld R.netHold 28 16))

/-! ### The twin's claims (R345, R346, R348) -/

/-- Own claim and the highest claim seen. -/
def Chip.ownClaim (c : Chip) : Nat := (c.reg R.twnClaimOwn).toNat

/-- The role is LEADER. -/
def Chip.leader (c : Chip) : Bool := c.bit R.twnStat 4

/-- R348, R350: the highest claim seen is compared with the own one: 0x1004 when a LEADER comes to be exceeded, and a
pending YIELD ends. After a TAKEOVER the own claim is the raised one, which is sent from the next tick on (DEDUCED, log 43). -/
def Chip.checkHigher (c : Chip) : Chip :=
  let own := c.twn.nextClaim.getD c.ownClaim
  let high := (c.reg R.twnClaimHigh).toNat
  if decide (own < high) then
    let c := c.setFld R.twnStat 7 7 0
    if c.leader && !c.twn.highTold then
      ({ c with twn := { c.twn with highTold := true } } : Chip).event 0x1004 .room [.val 4 own, .val 4 high]
    else c
  else { c with twn := { c.twn with highTold := false } }

/-- R345: a claim has been seen. -/
def Chip.noteClaim (c : Chip) (claim : Nat) : Chip :=
  (c.setNat R.twnClaimHigh (max claim (c.reg R.twnClaimHigh).toNat)).checkHigher

/-- R338, R345: slot `n` is one of the watch slots in use. -/
def Chip.watchSlot (c : Chip) (n : Nat) : Bool :=
  c.twinOn && (List.range 4).any (fun i => c.bit (R.twnWatch i) 31 && c.fld (R.twnWatch i) 7 0 == n)

/-- The trackers that watch slots hold for the twin's rank. -/
def Chip.twinTrackers (c : Chip) : List Tracker :=
  (List.range 4).flatMap (fun i =>
    if c.bit (R.twnWatch i) 31 then
      (c.netSlot (c.fld (R.twnWatch i) 7 0)).trackers.filter (fun t => t.rank == c.fld R.twnCfg 15 8)
    else [])

/-- The claim of the twin seen on the network (R365). -/
def Chip.netTwinClaim (c : Chip) : Nat := c.twinTrackers.foldl (fun m t => max m t.claim) 0

/-- R346: SPLIT changes, with event 0x1002. -/
def Chip.setSplit (c : Chip) (on : Bool) : Chip :=
  if c.bit R.twnStat 6 == on then c
  else
    (c.setFld R.twnStat 6 6 (if on then 1 else 0)).event 0x1002 .room
      [.val 1 (if on then 1 else 0), .val 4 c.netTwinClaim]

/-- R345, R346: whether a watch slot holds a current tracker for the twin is taken anew. -/
def Chip.syncNetSeen (c : Chip) : Chip :=
  let l := c.twinTrackers
  let now := l.any (fun t => t.current c.clk)
  let sight := l.foldl (fun m t => max m t.seen) c.twn.lastSight
  let since := if now then some (c.twn.seenSince.getD c.clk) else none
  let c := { c with twn := { c.twn with lastSight := sight, seenSince := since } }
  let c := c.setFld R.twnStat 5 5 (if now then 1 else 0)
  if now then c else c.setSplit false

/-! ### Network frames (R158) -/

/-- Adding a number delivered at `now` to the timestamps' log. An extended number lies within 32,768 of the highest (R152), so a
timestamp further back than that from `top`, the highest now, is forgotten. -/
def stampLog (top ts seq : Nat) (now : Stamp) (l : List TsLog) : List TsLog :=
  let l := l.filter (fun e => decide (top ≤ e.hi + 32768))
  if l.any (fun e => e.ts == ts) then l.map (fun e => if e.ts == ts then { e with lo := min e.lo seq, hi := max e.hi seq } else e)
  else l ++ [{ ts := ts, lo := seq, hi := seq, at_ := now }]

/-- The log's entry of a timestamp. -/
def NetSlot.entry (x : NetSlot) (ts : Nat) : Option TsLog := x.stamps.find? (fun e => e.ts == ts)

/-- R158: the first number of the frame with timestamp `ts`: one above the highest of the timestamp before it in the
stream, or the lowest delivered with its own. -/
def NetSlot.firstSeq (x : NetSlot) (ts : Nat) : Nat :=
  match x.entry ts with
  | none => 0
  | some own =>
    let before := (x.stamps.filter (fun e => e.ts != ts && decide (e.lo < own.lo))).foldl
      (fun (best : Option TsLog) e => match best with
        | none => some e
        | some b => if b.lo < e.lo then some e else some b) none
    match before with
    | none => own.lo
    | some b => b.hi + 1

/-- R158: the numbers of a frame up to `last` that have not been delivered. -/
def NetSlot.missing (x : NetSlot) (ts last : Nat) : Nat :=
  let first := x.firstSeq ts
  ((List.range (last + 1 - first)).filter (fun i => !x.delivered.contains (first + i))).length

/-- R158, first case: every number from the first to the marker has been delivered. -/
def NetSlot.whole (x : NetSlot) (f : NetFrame) : Bool :=
  match f.marker with
  | some (m, _) => x.missing f.ts m == 0
  | none => false

/-- The number modulo 2^64 of an integer stamp. -/
def stampOfInt (i : Int) : Stamp := (i % (2 : Int) ^ 64).toNat

/-- R159, R160: the capture stamp that slot `n`'s stream supplies for a timestamp, none where it supplies none. An illegal TSMODE maps
through the sender report, and leaves SRMAP and event 0x3013 alone (DESIGN CHOICE, log 102). -/
def Chip.netCapture (c : Chip) (n ts : Nat) (arrival : Stamp) : Option Stamp :=
  let ofs := c.sfld (R.srcRtpOfs n) 31 0
  if c.fld (R.srcNet n) 31 30 == 0 then
    let a := arrival * 9 / 100000
    let delta := signedOf 32 (ts + 2 ^ 32 - a % 2 ^ 32)
    some (stampOfInt (((a : Int) + delta) * 100000 / 9 + ofs))
  else match (c.netSlot n).report with
    | some (rts, tsr, seen) =>
      if decide ((10 * nsPerS : Int) < stampGap c.clk seen) then none
      else some (stampOfInt (tsr + signedOf 32 (ts + 2 ^ 32 - rts % 2 ^ 32) * 100000 / 9 + ofs))
    | none => none

/-! ### Depacketization (R146) -/

/-- The NAL units of an aggregation packet's body, each after its length of two bytes. -/
def aggregated : Nat → List Byte → List (List Byte)
  | 0, _ => []
  | _, [] => []
  | fuel + 1, l =>
    let n := beAt l 0 2
    if n == 0 || decide (l.length < n + 2) then [] else (l.drop 2).take n :: aggregated fuel (l.drop (n + 2))

/-- A fragment of a NAL unit whose header is `hdr` joins what has been collected: NAL units, and the one that is incomplete. -/
def joinFragment (hdr : List Byte) (start last : Bool) (body : List Byte) (a : List (List Byte) × Option (List Byte)) :
    List (List Byte) × Option (List Byte) :=
  let open_ := if start then some (hdr ++ body) else a.2.map (fun x => x ++ body)
  if last then (a.1 ++ open_.toList, none) else (a.1, open_)

/-- R146: an RTP payload of H.264: single NAL unit packets, STAP-A and FU-A; the others are not supported. -/
def depacket264 (a : List (List Byte) × Option (List Byte)) (l : List Byte) : List (List Byte) × Option (List Byte) :=
  let b0 := leAt l 0 1
  let b1 := leAt l 1 1
  let type := b0 % 32
  if type == 24 then (a.1 ++ aggregated l.length (l.drop 1), none)
  else if type == 28 then
    joinFragment [BitVec.ofNat 8 (b0 / 32 * 32 + b1 % 32)] (b1 / 128 == 1) (b1 / 64 % 2 == 1) (l.drop 2) a
  else if type == 0 || decide (24 < type) then a
  else (a.1 ++ [l], none)

/-- R146: an RTP payload of H.265: single NAL unit packets, aggregation packets and fragmentation units; PACI packets are not
supported. -/
def depacket265 (a : List (List Byte) × Option (List Byte)) (l : List Byte) : List (List Byte) × Option (List Byte) :=
  let b0 := leAt l 0 1
  let b2 := leAt l 2 1
  let type := b0 / 2 % 64
  if type == 48 then (a.1 ++ aggregated l.length (l.drop 2), none)
  else if type == 49 then
    joinFragment [BitVec.ofNat 8 (b0 / 128 * 128 + b2 % 64 * 2 + b0 % 2), l.getD 1 0] (b2 / 128 == 1) (b2 / 64 % 2 == 1)
      (l.drop 3) a
  else if 50 ≤ type then a
  else (a.1 ++ [l], none)

/-- R170: NAL units that a decoder discards: of another layer, and in H.264 the types 14, 15 and 20. -/
def nalDropped (h265 : Bool) (l : List Byte) : Bool :=
  let b0 := leAt l 0 1
  if h265 then b0 % 2 * 32 + leAt l 1 1 / 8 != 0 else [14, 15, 20].contains (b0 % 32)

/-- R146, R170: the NAL units in the RTP payloads of an access unit. -/
def depacketize (h265 : Bool) (l : List (List Byte)) : List (List Byte) :=
  ((l.foldl (if h265 then depacket265 else depacket264) ([], none)).1).filter (fun n => !nalDropped h265 n)

/-- R146, R198: the codec of the context that decodes slot `n` is H.265. -/
def Chip.slotH265 (c : Chip) (n : Nat) : Bool :=
  (List.range 256).any (fun x => c.bit (R.vdcCtx x) 31 && c.fld (R.vdcCtx x) 23 16 == n && c.bit (R.vdcCtx x) 30)

/-- The bitstream buffer of slot `n` in bytes. -/
def Chip.bsSize (c : Chip) (n : Nat) : Nat := c.fld (R.srcBsSize n) 15 0 * 65536

/-- R161: an access unit's NAL units are laid into slot `n`'s bitstream buffer, each behind a start code and at the buffer's start again
where they do not fit (DESIGN CHOICE, log 103: the rules give the buffer and not its use). Their address and length. -/
def Chip.storeUnit (c : Chip) (n : Nat) (nals : List (List Byte)) : Chip × Nat × Nat :=
  let bytes := nals.flatMap (fun x => [0, 0, 0, 1] ++ x)
  let size := c.bsSize n
  let pos := if (c.slot n).bsPos + bytes.length ≤ size then (c.slot n).bsPos else 0
  let a := c.base40 (R.srcBsLo n) (R.srcBsHi n) + pos
  if size < bytes.length then (c, a, 0)
  else ((c.dramWrite a bytes).modSlot n (fun s => { s with bsPos := pos + bytes.length }), a, bytes.length)

/-! ### ST 2110-20 (R147) -/

/-- The bytes and pixels of a pixel group of the sampling and depth that a format holds; none for a format that R147 does not
list. -/
def pixelGroup (fmt : Nat) : Option (Nat × Nat) :=
  match fmt with
  | 0 => some (15, 4) | 1 => some (15, 4) | 2 => some (15, 4) | 3 => some (5, 2) | 5 => some (4, 2) | 7 => some (3, 1) | _ => none

/-- The samples of a pixel group, in their order: most significant bits first, of 10 bits or 8. -/
def groupSamples (fmt : Nat) (l : List Byte) : List Nat :=
  let (bits, n) := if fmt == 5 then (8, 4) else if fmt == 7 then (8, 3) else if fmt == 3 then (10, 4) else (10, 12)
  let v := beAt l 0 l.length
  (List.range n).map (fun i => v / 2 ^ (bits * (n - 1 - i)) % 2 ^ bits)

/-- The places in a frame of `w` × `h` pixels that a pixel group at (x, y) fills. 4:2:2 groups hold Cb, Y, Cr and Y; 4:4:4 groups hold R,
G and B, or Cb, Y and Cr. PRESUMED (ST 2110-20, log 104), as the layout of the headers. -/
def groupPlaces (fmt w h x y : Nat) (l : List Byte) : List (Nat × List Byte) :=
  let s := groupSamples fmt l
  let v (i : Nat) := s.getD i 0
  let at_ (i : Nat) := y * linePitch fmt w + (x + i) * fmtBytes fmt
  let n := fmtBytes fmt
  if fmtPlanar fmt then
    [(at_ 0, leBytes n (v 1) ++ leBytes n (v 3)),
     (chromaBase fmt w h + y * chromaPitch fmt w + x / 2 * 2 * n, leBytes n (v 0) ++ leBytes n (v 2))]
  else (List.range (s.length / 3)).map (fun i =>
    let a := v (3 * i)
    let b := v (3 * i + 1)
    let c := v (3 * i + 2)
    (at_ i, if fmt == 2 then leBytes 4 (b * 2 ^ 20 + a * 2 ^ 10 + c)
      else if fmt == 7 then leBytes 4 (a + b * 2 ^ 8 + c * 2 ^ 16 + 255 * 2 ^ 24)
      else leBytes 4 (a * 2 ^ 20 + b * 2 ^ 10 + c) ++ (if fmt == 1 then leBytes 4 255 else [])))

/-- A sample row data header: the segment's length, its row, the second field's flag, its offset, and whether another follows. -/
def rowHeader (l : List Byte) : Nat × Nat × Bool × Nat × Bool :=
  (beAt l 0 2, beAt l 2 2 % 2 ^ 15, beAt l 2 2 / 2 ^ 15 == 1, beAt l 4 2 % 2 ^ 15, beAt l 4 2 / 2 ^ 15 == 1)

/-- R147: the sample row data headers of a payload, at most three; none where there are more. -/
def rowHeaders : Nat → List Byte → Option (List (Nat × Nat × Bool × Nat × Bool))
  | 0, _ => none
  | n + 1, l =>
    let hd := rowHeader l
    if hd.2.2.2.2 then (rowHeaders n (l.drop 6)).map (fun r => hd :: r) else some [hd]

/-- The places that a segment's whole pixel groups fill; `g` is a group's bytes and pixels. -/
def segmentPlaces (fmt w h : Nat) (g : Nat × Nat) (x y : Nat) (l : List Byte) : List (Nat × List Byte) :=
  (List.range (l.length / g.1)).flatMap (fun i =>
    let px := x + i * g.2
    if px + g.2 ≤ w && decide (y < h) then groupPlaces fmt w h px y ((l.drop (i * g.1)).take g.1) else [])

/-- R147: the places in a frame of format `fmt` and `w` × `h` pixels that an RTP payload fills. Content beyond the limits of R147, which
the part does not support, fills none. -/
def rowSamples (fmt w h : Nat) (l : List Byte) : List (Nat × List Byte) :=
  match pixelGroup fmt, rowHeaders 3 (l.drop 2) with
  | some g, some hs =>
    if 4096 < w || decide (2160 < h) then []
    else
      (hs.foldl (fun (a : List (Nat × List Byte) × List Byte) s =>
        (a.1 ++ (if s.2.2.1 then [] else segmentPlaces fmt w h g s.2.2.2.1 s.2.1 (a.2.take s.1)), a.2.drop s.1))
        ([], l.drop (2 + 6 * hs.length))).1
  | _, _ => []

/-- R158: the frame with timestamp `ts` finishes, whole or with packets lost. Kind 2 finishes its buffer; kind 1 hands the
access unit to decoding. -/
def Chip.finishNet (c : Chip) (n ts : Nat) (whole : Bool) : Chip :=
  let x := c.netSlot n
  match x.openFrames.find? (fun f => f.ts == ts) with
  | none => c
  | some f =>
    let last := match f.marker with
      | some (m, _) => m
      | none => match x.entry ts with | some e => e.hi | none => 0
    let missing := x.missing ts last
    let c := c.modNet n (fun x => { x with
      openFrames := x.openFrames.filter (fun g => g.ts != ts),
      stamps := x.stamps.map (fun e => if e.ts == ts then { e with finished := true } else e) })
    let c := c.bumpBy (R.srcCnt n 3) missing
    if c.slotKind n == 2 then
      match f.buf with
      | some i => c.frameFinish n i (if whole then 2 else 6) 0 f.arrival (c.netCapture n ts f.arrival) missing
      | none => c
    else
      let nals := depacketize (c.slotH265 n) (f.payloads.map (fun e => e.2))
      let (c, addr, len) := c.storeUnit n nals
      { c with aus := c.aus ++ [{ slot := n, ts := ts, arrival := f.arrival, whole := whole, missing := missing, nals := nals,
                                  addr := addr, len := len }] }

/-- A payload placed by its number. -/
def insertSeq (seq : Nat) (v : List Byte) : List (Nat × List Byte) → List (Nat × List Byte)
  | [] => [(seq, v)]
  | (s, w) :: rest => if seq < s then (seq, v) :: (s, w) :: rest else (s, w) :: insertSeq seq v rest

/-- R158: a delivered packet joins its frame; the first of a kind-2 frame begins it. -/
def Chip.joinFrame (c : Chip) (n : Nat) (p : Packet) : Chip :=
  let x := c.netSlot n
  if x.openFrames.any (fun f => f.ts == p.ts) then c
  else
    let (c, b) := if c.slotKind n == 2 then c.frameBegin n p.ts else (c, none)
    let later := (x.stamps.filter (fun e => e.ts != p.ts && decide (p.seq < e.lo))).foldl
      (fun (best : Option Stamp) e => some (match best with | none => e.at_ | some b => stampMin b e.at_)) none
    c.modNet n (fun x => { x with openFrames := x.openFrames ++ [
      { ts := p.ts, arrival := p.arrival, last := c.clk, marker := none, later := later, buf := b, payloads := [] }] })

/-- R152, R158: slot `n`'s merge stage delivers a packet. -/
def Chip.deliver (c : Chip) (n : Nat) (p : Packet) : Chip :=
  let now := c.clk
  let c := c.modNet n (fun x =>
    let top := max p.seq (x.highest.getD p.seq)
    { x with highest := some top, delivered := p.seq :: x.delivered, stamps := stampLog top p.ts p.seq now x.stamps })
  let finished := match (c.netSlot n).entry p.ts with | some e => e.finished | none => false
  if finished then c.bump (R.srcCnt n 6)
  else
    let c := c.joinFrame n p
    let c := c.modNet n (fun x => { x with openFrames := x.openFrames.map (fun f =>
      if f.ts == p.ts then { f with
        arrival := stampMin f.arrival p.arrival, last := now,
        marker := if p.marker then some (p.seq, now) else f.marker,
        payloads := insertSeq p.seq p.payload f.payloads }
      else
        let lo := match x.entry f.ts with | some e => e.lo | none => 0
        if decide (lo < p.seq) && f.later.isNone then { f with later := some now } else f) })
    let c := match ((c.netSlot n).openFrames.find? (fun f => f.ts == p.ts)).bind (fun f => f.buf) with
      | some i =>
        let q := c.bufPic n i
        forL (rowSamples q.fmt q.w q.h p.payload) (fun e c => c.dramWrite (q.base + e.1) e.2) c
      | none => c
    forL (c.netSlot n).openFrames (fun f c =>
      let x := c.netSlot n
      match x.openFrames.find? (fun g => g.ts == f.ts) with
      | some g => if x.whole g then c.finishNet n f.ts true else c
      | none => c) c

/-! ### The merge stage -/

/-- R152: an RTP sequence number extended against the highest delivered. -/
def extendSeq (highest : Option Nat) (seq : Nat) : Nat :=
  match highest with
  | none => seq + 65536
  | some h => ((h : Int) + signedOf 16 (seq + 65536 - h % 65536)).toNat

/-- R152: an expired held packet is delivered as FILLED, or discarded as a duplicate. -/
def Chip.handleExpired (c : Chip) (h : HeldPacket) : Chip :=
  if (c.netSlot h.slot).delivered.contains h.pkt.seq then c.bump (R.srcCnt h.slot 5)
  else (c.bump (R.srcCnt h.slot 4)).deliver h.slot h.pkt

/-- R154, R152: a packet is held until its W ends; a full store first handles its oldest packet. -/
def Chip.holdPacket (c : Chip) (n claim : Nat) (p : Packet) : Chip :=
  let c := match c.held with
    | [] => c
    | h :: rest =>
      if 4096 ≤ c.held.length then
        ((({ c with held := rest } : Chip).handleExpired h).bump (R.srcCnt h.slot 7)).eventLimited h.slot 0x2003 .room
          [.val 1 h.slot, .occ]
      else c
  let due := p.arrival + c.fld (R.srcMerge n) 15 0 * nsPerUs
  ({ c with held := c.held ++ [{ slot := n, claim := claim, due := due, pkt := p }] } : Chip).syncHold

/-- R152, R155: the lead claim is taken anew; a change is reported and releases the held packets that reach it. -/
def Chip.refreshLead (c : Chip) (n : Nat) : Chip :=
  let old := (c.reg (R.srcLead n)).toNat
  let new := c.leadNow n
  if old == new then c
  else
    let c := (c.setNat (R.srcLead n) new).event 0x2002 .room [.val 1 n, .val 4 old, .val 4 new]
    (forL c.held (fun h c =>
      if h.slot == n && decide (new ≤ h.claim) && !(c.netSlot n).delivered.contains h.pkt.seq then
        ({ c with held := c.held.erase h } : Chip).deliver n h.pkt
      else c) c).syncHold

/-- R153: a rank takes a tracker: its own, one never used, or the one longest not current. -/
def takeTracker (now : Stamp) (rank claim : Nat) (l : List Tracker) : Option (List Tracker) :=
  let t : Tracker := { rank := rank, claim := claim, seen := now }
  if l.any (fun x => x.rank == rank) then some (l.map (fun x => if x.rank == rank then t else x))
  else if l.length < 4 then some (l ++ [t])
  else
    let idle := l.filter (fun x => !x.current now)
    match idle with
    | [] => none
    | x :: rest =>
      let old := rest.foldl (fun b y => if decide (stampGap y.seen b.seen < 0) then y else b) x
      some (l.map (fun y => if y.rank == old.rank then t else y))

/-- R151, R153: a sender is seen. None where all four trackers are current. -/
def Chip.seeSender (c : Chip) (n claim : Nat) : Option Chip :=
  match takeTracker c.clk (claim % 256) claim (c.netSlot n).trackers with
  | none => none
  | some l =>
    let c := c.modNet n (fun x => { x with trackers := l })
    let c := if c.watchSlot n && claim % 256 == c.fld R.twnCfg 15 8 then (c.noteClaim claim).syncNetSeen else c
    some (c.refreshLead n)

/-! ### RTP and RTCP -/

/-- R149: the claim in the elements of a one-byte-form extension. -/
def claimIn (id : Nat) : Nat → List Byte → Nat
  | 0, _ => 0
  | _, [] => 0
  | fuel + 1, b :: rest =>
    let v := b.toNat
    if v == 0 then claimIn id fuel rest
    else if v / 16 == 15 then 0
    else if v / 16 == id then (if v % 16 == 3 then beAt rest 0 4 else 0)
    else claimIn id fuel (rest.drop (v % 16 + 1))

/-- R149: the claim of an RTP packet. -/
def rtpClaim (id : Nat) (l : List Byte) : Nat :=
  let cc := leAt l 0 1 % 16
  let o := 12 + 4 * cc
  if leAt l 0 1 / 16 % 2 == 1 && beAt l o 2 == 0xBEDE then
    let ext := (l.drop (o + 4)).take (4 * beAt l (o + 2) 2)
    claimIn id ext.length ext
  else 0

/-- RFC 3550: the payload of an RTP packet, after its header and extension and without padding. -/
def rtpPayload (l : List Byte) : List Byte :=
  let b0 := leAt l 0 1
  let o := 12 + 4 * (b0 % 16)
  let o := if b0 / 16 % 2 == 1 then o + 4 + 4 * beAt l (o + 2) 2 else o
  let pad := if b0 / 32 % 2 == 1 then leNat (l.drop (l.length - 1)) else 0
  (l.drop o).take (l.length - o - pad)

/-- R148, R156: a leg of slot `n` has delivered a packet. -/
def Chip.legSeen (c : Chip) (n leg : Nat) : Chip :=
  let x := c.netSlot n
  let was := if leg == 0 then x.silent0 else x.silent1
  let now := c.clk
  let c := c.modNet n (fun x => { x with
    first := some (x.first.getD now),
    leg0 := if leg == 0 then some now else x.leg0, leg1 := if leg == 0 then x.leg1 else some now,
    silent0 := if leg == 0 then false else x.silent0, silent1 := if leg == 0 then x.silent1 else false })
  let c := c.setFld (R.srcStat n) (28 + leg) (28 + leg) 1
  if was && c.bit (R.srcNet n) 29 then c.event 0x2005 .room [.val 1 n, .val 1 leg, .val 1 1] else c

/-- RTP_PACKET_RECEIVE (R152): an RTP packet (R146: as in RFC 3550, version 2) of slot `n` on a leg passes the merge stage. -/
def Chip.rtpReceive (c : Chip) (n leg : Nat) (d : Datagram) : Chip :=
  let l := d.payload
  if l.length < 12 || leAt l 0 1 / 64 != 2 then c
  else if leAt l 1 1 % 128 != c.fld (R.srcNet n) 22 16 then c.bump (R.srcCnt n 6)
  else
    let c := c.legSeen n leg
    let claim := rtpClaim (c.fld R.netClaim 3 0) l
    match c.seeSender n claim with
    | none => (c.bump (R.srcCnt n 7)).event 0x2004 .room [.val 1 n, .val 4 claim]
    | some c =>
      let x := c.netSlot n
      let p : Packet := { seq := extendSeq x.highest (beAt l 2 2), ts := beAt l 4 4, marker := leAt l 1 1 / 128 == 1,
                          arrival := c.clk, payload := rtpPayload l }
      if x.delivered.contains p.seq then c.bump (R.srcCnt n 5)
      else if decide (p.seq + 16384 < x.highest.getD 0) then c.bump (R.srcCnt n 6)
      else if decide ((c.reg (R.srcLead n)).toNat ≤ claim) then c.deliver n p
      else c.holdPacket n claim p

/-- CLAIM_HEARTBEAT_RECEIVE (R150). -/
def Chip.heartbeatReceive (c : Chip) (n : Nat) (l : List Byte) : Chip := (c.seeSender n (beAt l 12 4)).getD c

/-- R160: OFFSET, the UTC offset in seconds. -/
def Chip.utcOffset (c : Chip) : Int := if c.bit R.muiUtc 31 then c.sfld R.muiUtc 15 0 else c.sfld R.refGnss 15 0

/-- SENDER_REPORT_RECEIVE (R160): a sender report maps RTP timestamps to Muith time. -/
def Chip.senderReport (c : Chip) (n : Nat) (l : List Byte) : Chip :=
  let sec : Int := beAt l 8 4
  let tsr := (sec - 2208988800 + c.utcOffset) * 1000000000 + (beAt l 12 4 * 1000000000 / 2 ^ 32 : Nat)
  let now := c.clk
  let c := c.modNet n (fun x => { x with report := some (beAt l 16 4, tsr, now) })
  if c.fld (R.srcNet n) 31 30 == 1 && !c.bit (R.srcStat n) 30 then
    (c.setFld (R.srcStat n) 30 30 1).event 0x3013 .room [.val 1 n, .val 1 1]
  else c

/-- RFC 3550, R150, R160: the packets of an RTCP datagram, in order. -/
def Chip.rtcpReceive (n : Nat) : Nat → List Byte → Chip → Chip
  | 0, _, c => c
  | fuel + 1, l, c =>
    if l.length < 8 then c
    else
      let size := 4 * (beAt l 2 2 + 1)
      let type := leAt l 1 1
      let c := if type == 200 && decide (28 ≤ size) then c.senderReport n l
        else if type == 204 && leAt l 0 1 == 0x80 && size == 28 && beAt l 8 4 == 0x5350434C then c.heartbeatReceive n l
        else c
      Chip.rtcpReceive n fuel (l.drop size) c

/-! ### Flows and classification -/

/-- R142: an address from its registers: IPv4 in the first word, IPv6 in four words. -/
def Chip.addrOf (c : Chip) (ipv6 : Bool) (a : Nat → Nat) : Nat :=
  let w (i : Nat) := (c.reg (a i)).toNat
  if ipv6 then ((w 0 * 2 ^ 32 + w 1) * 2 ^ 32 + w 2) * 2 ^ 32 + w 3 else w 0

/-- R143: flow entry `f` matches a datagram on a sub-port. -/
def Chip.flowMatches (c : Chip) (port sub : Nat) (d : Datagram) (f : Nat) : Bool :=
  let r := R.netFlow f
  let target := c.fld r 25 24
  c.bit r 31 && target != 3 && c.fld r 28 28 == port && c.subOf port (c.fld r 27 26) == sub && c.bit r 30 == d.ipv6 &&
    d.vid.getD 0 == c.fld (R.netFlowVid f) 11 0 && c.addrOf d.ipv6 (R.netFlowDaddr f) == d.daddr &&
    (!c.bit r 29 || c.addrOf d.ipv6 (R.netFlowSaddr f) == d.saddr) &&
    (d.dport == c.fld r 15 0 || (target != 2 && d.dport == c.fld r 15 0 + 1))

/-- R143: the lowest-numbered flow that matches. -/
def Chip.flowOf (c : Chip) (port sub : Nat) (d : Datagram) : Option Nat :=
  (List.range 1024).find? (c.flowMatches port sub d)

/-- R143: a datagram goes to its flow's target. -/
def Chip.flowReceive (c : Chip) (f : Nat) (d : Datagram) : Chip :=
  let r := R.netFlow f
  let target := c.fld r 25 24
  let n := c.fld r 23 16
  if target == 2 then c.pointArrive f c.clk d.payload
  else if c.slotKind n != 1 && c.slotKind n != 2 then c
  else if d.dport == c.fld r 15 0 then c.rtpReceive n target d
  else Chip.rtcpReceive n d.payload.length d.payload c

/-- R144: multicast. -/
def isMulticast (ipv6 : Bool) (a : Nat) : Bool := if ipv6 then a / 2 ^ 120 == 0xFF else a / 2 ^ 28 == 0xE

/-- R144: base firmware reports the multicast groups of the flows of a sub-port: all of them, or those of one IP version and, where a
query names one, that group. -/
def Chip.joinGroups (c : Chip) (p sub : Nat) (only : Option (Bool × Option Nat)) : Chip :=
  forN 1024 (fun f c =>
    let r := R.netFlow f
    let v6 := c.bit r 30
    let g := c.addrOf v6 (R.netFlowDaddr f)
    let asked := match only with
      | some (v, q) => v == v6 && (q == none || q == some g)
      | none => true
    if c.bit r 31 && c.fld r 28 28 == p && c.subOf p (c.fld r 27 26) == sub && isMulticast v6 g && asked then
      c.netSend p sub (.join p sub v6 g (if c.bit r 29 then some (c.addrOf v6 (R.netFlowSaddr f)) else none))
    else c) c

/-! ### Protocols that base firmware answers (R139, R141, R144) -/

/-- The addresses of an interface: `NET_IF` of a sub-port, `MGT_IF` for port 2. -/
structure NetIf where
  mac : Nat
  ipv4 : Nat
  ipv6 : Nat
  deriving DecidableEq, Repr

/-- R142: the interface of a sub-port, or of the MGT port. -/
def Chip.netIf (c : Chip) (p sub : Nat) : NetIf :=
  let w (a : Nat) := (c.reg a).toNat
  if p == 2 then
    { mac := w R.mgtIfMacHi % 2 ^ 16 * 2 ^ 32 + w R.mgtIfMacLo, ipv4 := w R.mgtIfIpv4, ipv6 := c.addrOf true R.mgtIfIpv6 }
  else
    { mac := w (R.netIfMacHi p sub) % 2 ^ 16 * 2 ^ 32 + w (R.netIfMacLo p sub), ipv4 := w (R.netIfIpv4 p sub),
      ipv6 := c.addrOf true (R.netIfIpv6 p sub) }

/-- R139: the answer of an interface to a request that is for its own address. -/
def NetIf.answer (f : NetIf) : BaseReq → Option BaseAnswer
  | .arp sip smac target => if target == f.ipv4 then some (.arp f.mac target smac sip) else none
  | .neighbour saddr smac target => if target == f.ipv6 then some (.neighbour f.mac target smac saddr) else none
  | .echo v6 saddr daddr ident seq data =>
    if daddr == (if v6 then f.ipv6 else f.ipv4) then some (.echo v6 daddr saddr ident seq data) else none
  | .query _ _ => none

/-- R139, R144: base firmware answers a message on a sub-port. -/
def Chip.baseReceive (c : Chip) (p sub : Nat) (r : BaseReq) : Chip :=
  match r with
  | .query v6 group => c.joinGroups p sub (some (v6, group))
  | _ => match (c.netIf p sub).answer r with
    | some a => c.netSend p sub (.answer p sub a)
    | none => c

/-- R141: what the MGT port answers of a frame: ARP, neighbour discovery and echo. -/
def Chip.mgtFrame (c : Chip) (fr : EthFrame) : Chip :=
  match fr.body with
  | .base r => match (c.netIf 2 0).answer r with
    | some a => if c.bit R.mgtCtl 31 && fr.good then c.send (.answer 2 0 a) else c
    | none => c
  | _ => c

/-- R140: a datagram is a message of the PTP instance of the port, on sub-port 0. -/
def Chip.ptpOf (c : Chip) (p sub : Nat) (d : Datagram) : Option PtpFrame :=
  match d.ptp with
  | some m =>
    let f : PtpFrame := { ipv6 := d.ipv6, saddr := d.saddr, msg := m }
    if sub == 0 && (d.dport == 319 || d.dport == 320) && c.ptpOwn p f then some f else none
  | none => none

/-! ### The commands -/

/-- ETH_FRAME_RECEIVE (R140): a received frame is counted and classified: PTP, flow, base protocol, or discard. The MGT port answers
under R141; its management messages have commands of their own. -/
def execEthFrameReceive (t : Stamp) (fr : EthFrame) (s : State) : Host.Outcome State Fault Refusal :=
  runIf (decide (fr.port < 3) && decide (fr.sub < 4)) (fun c =>
    let c := c.at t
    let cnt (i : Nat) := R.netCnt fr.port fr.sub i
    if fr.port == 2 then c.mgtFrame fr
    else if !c.subportOn fr.port fr.sub then c
    else if !fr.good || decide (c.fld (R.netPort fr.port) 13 0 < fr.ipBytes) then c.bump (cnt 1)
    else
      let c := c.bump (cnt 0)
      match fr.body with
      | .udp d =>
        match c.ptpOf fr.port fr.sub d with
        | some m => c.ptpReceive fr.port m
        | none =>
          match c.flowOf fr.port fr.sub d with
          | some f => c.flowReceive f d
          | none => c.bump (cnt 2)
      | .base r => c.baseReceive fr.port fr.sub r
      | .other => c.bump (cnt 2)) s

/-- HELD_PACKET_EXPIRE (R152): the held packet with the earliest end of its window, when that end has come. -/
def execHeldPacketExpire (t : Stamp) (s : State) : Host.Outcome State Fault Refusal :=
  runIf true (fun c =>
    let c := c.at t
    match c.held with
    | [] => c
    | h :: rest =>
      let g := rest.foldl (fun b x => if decide (stampGap x.due b.due < 0) then x else b) h
      if decide (0 ≤ stampGap c.clk g.due) then
        ((({ c with held := c.held.erase g } : Chip).handleExpired g).syncHold)
      else c) s

/-- SENDER_AGE_OUT (R151, R155): the lead claim of slot `n` is taken anew without the senders that are no longer current. -/
def execSenderAgeOut (t : Stamp) (n : Nat) (s : State) : Host.Outcome State Fault Refusal :=
  runIf (decide (n < 256)) (fun c =>
    let c := (c.at t).refreshLead n
    if c.watchSlot n then c.syncNetSeen else c) s

/-- FRAME_SKEW_TIMEOUT (R158): SKEW after the marker, or after a later timestamp began, the frame finishes. -/
def execFrameSkewTimeout (t : Stamp) (n ts : Nat) (s : State) : Host.Outcome State Fault Refusal :=
  runIf (decide (n < 256)) (fun c =>
    let c := c.at t
    let skew := c.fld (R.srcMerge n) 21 16 * nsPerMs
    match (c.netSlot n).openFrames.find? (fun f => f.ts == ts) with
    | none => c
    | some f =>
      let due := (match f.marker with | some (_, m) => elapsed c.clk m skew | none => false) ||
        (match f.later with | some l => elapsed c.clk l skew | none => false)
      if due then c.finishNet n ts false else c) s

/-- FRAME_PACKET_TIMEOUT (R158): 100 ms after its last delivered packet, the frame finishes. -/
def execFramePacketTimeout (t : Stamp) (n ts : Nat) (s : State) : Host.Outcome State Fault Refusal :=
  runIf (decide (n < 256)) (fun c =>
    let c := c.at t
    match (c.netSlot n).openFrames.find? (fun f => f.ts == ts) with
    | none => c
    | some f => if elapsed c.clk f.last (100 * nsPerMs) then c.finishNet n ts false else c) s

/-- LEG_SILENCE_TIMEOUT (R156): a leg has delivered no packet for 1 s; a leg that has delivered none counts from the slot's
first packet on either leg. -/
def execLegSilenceTimeout (t : Stamp) (n leg : Nat) (s : State) : Host.Outcome State Fault Refusal :=
  runIf (decide (n < 256) && decide (leg < 2)) (fun c =>
    let c := c.at t
    let x := c.netSlot n
    let last := if leg == 0 then x.leg0 else x.leg1
    let since := match last with | some l => some l | none => x.first
    let silent := if leg == 0 then x.silent0 else x.silent1
    match since with
    | none => c
    | some l =>
      if elapsed c.clk l nsPerS && !silent then
        let c := c.modNet n (fun x => { x with
          silent0 := if leg == 0 then true else x.silent0, silent1 := if leg == 0 then x.silent1 else true })
        let c := c.setFld (R.srcStat n) (28 + leg) (28 + leg) 0
        if c.bit (R.srcNet n) 29 then c.event 0x2005 .room [.val 1 n, .val 1 leg, .val 1 0] else c
      else c) s

/-- SENDER_REPORT_LAPSE (R160): the newest sender report is older than 10 s. -/
def execSenderReportLapse (t : Stamp) (n : Nat) (s : State) : Host.Outcome State Fault Refusal :=
  runIf (decide (n < 256)) (fun c =>
    let c := c.at t
    match (c.netSlot n).report with
    | some (_, _, seen) =>
      if c.bit (R.srcStat n) 30 && decide ((10 * nsPerS : Int) < stampGap c.clk seen) then
        (c.setFld (R.srcStat n) 30 30 0).event 0x3013 .room [.val 1 n, .val 1 0]
      else c
    | none => c) s

/-- SUBPORT_LINK_CHANGE (R144, R165): a sub-port loses or regains link; on regaining it base firmware joins again. -/
def execSubportLinkChange (t : Stamp) (p sub : Nat) (up : Bool) (s : State) : Host.Outcome State Fault Refusal :=
  runIf (decide (p < 2) && decide (sub < 4)) (fun c =>
    let c := c.at t
    if c.bit (R.netLink p) sub == up || (up && !c.subportOn p sub) then c
    else
      let c := c.setFld (R.netLink p) sub sub (if up then 1 else 0)
      let c := if up then c else c.addFld (R.netLink p) 23 16 1
      let c := c.event 0x2001 .room [.val 1 p, .val 1 sub, .val 1 (if up then 1 else 0)]
      if up then c.joinGroups p sub none else c) s

end Sys2Proof.Machine
end

