-- ==== Sys2Proof/Machine/Twin.lean ====
section
/-! DEFINITION. The pair (R344 to R350, R356): heartbeats, pair state, roles and claims, and the point resync. -/

namespace Sys2Proof.Machine

/-- The pair states of R346. -/
def pairWait : Nat := 1
/-- See `pairWait`. -/
def pairPaired : Nat := 2
/-- See `pairWait`. -/
def pairSolo : Nat := 3

/-- The pair state. -/
def Chip.pairState (c : Chip) : Nat := c.fld R.twnStat 2 0

/-- R344: the twin's heartbeat is current. -/
def Chip.hbCurrent (c : Chip) : Bool :=
  match c.twn.lastHb with
  | some t => !elapsed c.clk t (300 * nsPerUs)
  | none => false

/-- The last HEARTBEAT carries SEALED. -/
def Chip.hbSealed (c : Chip) : Bool := c.twn.hbFlags / 8 % 2 == 1

/-! ### Roles and claims (R347, R348) -/

/-- TAKEOVER (R338, R348): LEADER at once; the raised epoch takes effect at the next tick. No effect on a LEADER. -/
def Chip.takeover (c : Chip) : Chip :=
  if c.leader || !c.twinOn then c
  else
    let epoch := min (bitsNat (c.reg R.twnClaimHigh).toNat 31 8 + 1) 0xFFFFFF
    let claim := epoch * 256 + c.ownClaim % 256
    { c.setFld R.twnStat 4 4 1 with twn := { c.twn with nextClaim := some claim, yieldTold := false } }

/-- DEMOTE (R348): FOLLOWER, with event 0x1006. No effect on a FOLLOWER. -/
def Chip.demote (c : Chip) : Chip :=
  if !c.leader then c
  else
    let own := c.ownClaim
    ({ c.setFld R.twnStat 4 4 0 with twn := { c.twn with highTold := false } } : Chip).event 0x1006 .room
      [.val 4 own, .val 4 own, .val 1 0, .val 1 3]

/-- R348: a new claim takes effect at a tick, with event 0x1006 and a result. -/
def Chip.applyClaim (c : Chip) : Chip :=
  match c.twn.nextClaim with
  | none => c
  | some claim =>
    let own := c.ownClaim
    let c := { c with twn := { c.twn with nextClaim := none } }
    let c := (c.setNat R.twnClaimOwn claim).noteClaim claim
    let c := (c.setWide R.twnResClaimLo R.twnResClaimHi (shortStamp c.clk)).publish R.twnRes
    c.event 0x1006 .room [.val 4 own, .val 4 claim, .val 1 (if c.leader then 1 else 0), .val 1 2]

/-! ### Point resync (R356) -/

/-- Lists of at most `n` elements each, in order. -/
def chunks {α : Type} (n : Nat) : Nat → List α → List (List α)
  | 0, _ => []
  | fuel + 1, l => if l.length ≤ n then [l] else l.take n :: chunks n fuel (l.drop n)

/-- R356: RECORD messages for the resync set wait to leave; the last one carries DONE. `since` is the instant the part left
PAIRED, none after WAIT. -/
def Chip.sendResync (c : Chip) (since : Option Stamp) : Chip :=
  let set := (List.range (c.fld R.pntCtl 23 0)).filter (fun i =>
    let r := c.pointRec i
    match since with
    | none => r.arrival != 0
    | some s => r.arrival != 0 && decide (0 ≤ stampGap r.arrival s))
  let groups := chunks 32 (set.length + 1) set
  let last := groups.length - 1
  let c := (groups.zip (List.range groups.length)).foldl (fun c g =>
    c.bolQueue 6 (leBytes 2 g.1.length ++ leBytes 2 (if g.2 == last then 1 else 0) ++
      g.1.flatMap (fun i => leBytes 4 i ++ (c.pointRec i).bytes))) c
  { c with twn := { c.twn with doneTx := true } }

/-- R356: both DONE flags have passed: event 0x100A with the records replaced. -/
def Chip.resyncDone (c : Chip) : Chip :=
  if c.twn.doneTx && c.twn.doneRx then
    let n := c.twn.replaced
    ({ c with twn := { c.twn with doneTx := false, doneRx := false, replaced := 0 } } : Chip).event 0x100A .room [.val 4 n]
  else c

/-! ### The pair state (R346) -/

/-- R346: the pair state changes: `TWN_RES`, event 0x1001, and what the entry brings. -/
def Chip.setPair (c : Chip) (new : Nat) : Chip :=
  let old := c.pairState
  let now := c.clk
  let c := c.setFld R.twnStat 2 0 new
  let c := if new == pairSolo then
      { c.setWide R.twnResSoloLo R.twnResSoloHi (shortStamp now) with
        twn := { c.twn with
          leftPaired := some now, lostTold := false, seenSince := none, hbRun := 0,
          doneTx := false, doneRx := false, replaced := 0 } }
    else c
  let c := (c.publish R.twnRes).event 0x1001 .room
    [.val 1 old, .val 1 new, .val 4 c.ownClaim, .val 4 (c.reg R.twnClaimTwin).toNat]
  let c := if old == pairSolo then c.setSplit false else c
  if new == pairSolo then c.releaseWaiting
  else
    let since := if old == pairWait then none else c.twn.leftPaired
    c.sendResync since

/-- R346: the evaluation of a tick. -/
def Chip.evalPair (c : Chip) : Chip :=
  let c := { c with twn := { c.twn with hbRun := if c.twn.hbSince then c.twn.hbRun + 1 else 0, hbSince := false } }
  let st := c.pairState
  let cur := c.hbCurrent && c.hbSealed
  let c :=
    if st == pairWait then (if c.isSealed && cur then c.setPair pairPaired else c)
    else if st == pairPaired then (if cur then c else c.setPair pairSolo)
    else if st == pairSolo && decide (10 ≤ c.twn.hbRun) then c.setPair pairPaired
    else c
  let c := c.syncNetSeen
  if c.pairState == pairSolo && !c.bit R.twnStat 5 && !c.twn.lostTold then
    ({ c with twn := { c.twn with lostTold := true } } : Chip).event 0x1003 .room
      [.val 8 (shortStamp (c.twn.lastHb.getD 0)), .val 8 (shortStamp c.twn.lastSight)]
  else c

/-- R348: event 0x1005 when a current HEARTBEAT comes to carry YIELD while the part is FOLLOWER. -/
def Chip.checkYield (c : Chip) : Chip :=
  if c.hbCurrent && c.twn.hbFlags / 4 % 2 == 1 && !c.leader then
    if c.twn.yieldTold then c
    else ({ c with twn := { c.twn with yieldTold := true } } : Chip).event 0x1005 .room
      [.val 4 (c.reg R.twnClaimTwin).toNat]
  else { c with twn := { c.twn with yieldTold := false } }

/-- R344: the HEARTBEAT of a tick. -/
def Chip.heartbeatBytes (c : Chip) : List Byte :=
  let flag (b : Bool) (n : Nat) := if b then n else 0
  leBytes 4 c.ownClaim ++ leBytes 4 (c.reg R.twnClaimHigh).toNat ++ leBytes 8 c.clk ++ leBytes 1 c.partIndex ++
    leBytes 1 (c.fld R.twnCfg 16 16 + flag c.leader 2 + flag (c.bit R.twnStat 7) 4 + flag c.isSealed 8 +
      flag (c.pairState == pairPaired) 16) ++
    leBytes 1 (c.fld R.muiStat 14 12 + flag (c.bit R.muiStat 15) 8 + c.tbState * 16) ++ leBytes 5 0

/-! ### The commands -/

/-- TICK (R342, R344, R346, R348): at a multiple of 100 µs of Muith time. -/
def execTick (t : Stamp) (s : State) : Host.Outcome State Fault Refusal :=
  runIf true (fun c =>
    let c := c.at t
    if c.clk % (100 * nsPerUs) == 0 && c.pairState != 0 then
      let c := c.applyClaim.evalPair.checkHigher.checkYield
      (c.bolQueue 1 c.heartbeatBytes).sendWaiting.resyncDone
    else c) s

/-- SPLIT_TIMEOUT (R346): in SOLO, with the twin seen on the network without interruption for SPLIT ms. -/
def execSplitTimeout (t : Stamp) (s : State) : Host.Outcome State Fault Refusal :=
  runIf true (fun c =>
    let c := c.at t
    match c.twn.seenSince with
    | some since =>
      if c.pairState == pairSolo && c.twinTrackers.any (fun x => x.current c.clk) &&
          elapsed c.clk since (c.fld R.twnNet 15 0 * nsPerMs)
      then c.setSplit true else c
    | none => c) s

/-- HEARTBEAT_RECEIVE (R338, R344, R345, R94): the twin's presence, its claims, and its timebase as the BOLRAL input's test. -/
def execHeartbeatReceive (t : Stamp) (msg : List Byte) (s : State) : Host.Outcome State Fault Refusal :=
  runIf (decide (msg.length = 24)) (fun c =>
    let c := c.at t
    if !c.twinOn then c
    else
      let claim := leAt msg 0 4
      let flags := leAt msg 17 1
      let ref := leAt msg 18 1
      let c := { c with twn := { c.twn with
        lastHb := some c.clk, hbFlags := flags,
        hbSince := c.twn.hbSince || flags / 8 % 2 == 1 } }
      let c := c.setNat R.twnClaimTwin claim
      let c := (c.noteClaim claim).noteClaim (leAt msg 4 4)
      let c := if ref / 8 % 2 == 1 && ref % 8 == 2 then c.failInput 2 9 else c.passInput 2 9
      let c := if ref / 16 % 8 == tbTethered && c.bolUp then c.passInput 2 8 else c.failInput 2 8
      c.checkYield) s

/-- One entry of a RECORD message (R356). -/
def Chip.recordEntry (c : Chip) (e : List Byte) : Chip :=
  let i := leAt e 0 4
  let b := (e.drop 4).take 32
  if c.fld R.pntCtl 23 0 ≤ i then c
  else
    let r := c.pointRec i
    let r' := pointRecOf b
    let gap := stampGap r'.arrival r.arrival
    let own := leNat (c.dramBytes (c.pntTab + 32 * i) 32)
    if decide (0 < gap) || (gap == 0 && decide (own < leNat b)) then
      let c := (c.dramWrite (c.pntTab + 32 * i) b).bump (R.twnCnt 8)
      let c := { c with twn := { c.twn with replaced := c.twn.replaced + 1 } }
      c.journal i (changeCause r r') r' r'.arrival
    else c

/-- RECORD_RECEIVE (R338, R356): resync records of the twin replace older ones. -/
def execRecordReceive (t : Stamp) (msg : List Byte) (s : State) : Host.Outcome State Fault Refusal :=
  runIf (decide (msg.length = 4 + 36 * leAt msg 0 2) && decide (leAt msg 0 2 ≤ 32)) (fun c =>
    let c := c.at t
    if !c.twinOn then c
    else
    let c := forN (leAt msg 0 2) (fun k c => c.recordEntry ((msg.drop (4 + 36 * k)).take 36)) c
    if leAt msg 2 2 % 2 == 1 then ({ c with twn := { c.twn with doneRx := true } } : Chip).resyncDone else c) s

/-- R350: the cause that refuses YIELD; 0 for none. -/
def Chip.yieldCause (c : Chip) : Nat :=
  if !c.leader then 1 else if !c.paired then 2 else if c.bit R.twnStat 7 then 3 else 0

/-- R350: a write of CMD to `TWN_CMD`. -/
def Chip.twinCommand (c : Chip) (src : Source) (cmd : Nat) : Chip :=
  if cmd == 1 then
    let cause := c.yieldCause
    if cause != 0 then c.refuse src R.twnCmd (cmdWord cmd) cause else c.setFld R.twnStat 7 7 1
  else c

/-- YIELD (R350). -/
def execYield (t : Stamp) (src : Source) (s : State) : Host.Outcome State Fault Refusal :=
  runIf true (fun c => (c.at t).twinCommand src 1) s

end Sys2Proof.Machine
end

