-- ==== Sys2Proof/Machine/Compose.lean ====
section
/-! DEFINITION. Composition: element entries, descriptors and provenance (R46, R66 to R68, R256 to R268, R276, R283 to
R285), the fly sheet's markings (R69 to R72, R516), the pulse mark (R300) and the pixel that a head sends. -/

namespace Sys2Proof.Machine

/-! ### Table entries -/

/-- Places of the table windows (R504), as offsets from their base. -/
def twElem (e : Nat) : Nat := e * 32
/-- See `twElem`. -/
def twState (e : Nat) : Nat := 0x1000000 + e * 8
/-- See `twElem`. -/
def twField (i : Nat) : Nat := 0x1400000 + i * 16
/-- See `twElem`. -/
def twFont (f : Nat) : Nat := 0x1800000 + f * 0x42000
/-- See `twElem`. -/
def twEnum (i : Nat) : Nat := 0x1C20000 + i * 16
/-- See `twElem`. -/
def twTag : Nat := 0x1D20000
/-- See `twElem`. -/
def twTagCur : Nat := 0x1DA0000
/-- See `twElem`. -/
def twImage (i : Nat) : Nat := 0x1E20000 + i * 16
/-- See `twElem`. -/
def twWindow (i : Nat) : Nat := 0x1E60000 + i * 32
/-- See `twElem`. -/
def twPeg (i : Nat) : Nat := 0x1E80000 + i * 32
/-- See `twElem`. -/
def twRegion (i : Nat) : Nat := 0x1EA0000 + i * 32
/-- See `twElem`. -/
def twResult (i : Nat) : Nat := 0x1EA8000 + i * 16
/-- See `twElem`. -/
def twFormat (i : Nat) : Nat := 0x1EAC000 + i * 32

/-- An element table entry (R46); `words` are its eight words. -/
structure Elem where
  en : Bool
  opaque_ : Bool
  kind : Nat
  head : Nat
  plane : Nat
  style : Nat
  y : Nat
  x : Nat
  h : Nat
  w : Nat
  bind : Nat
  desc : Nat
  age : Nat
  warn : Nat
  delay : Nat
  change : Nat
  words : List Nat
  deriving DecidableEq, Repr

/-- The 32-bit words of a table entry. -/
def wordsOf (l : List Byte) : List Nat := (List.range (l.length / 4)).map (fun i => leAt l (4 * i) 4)

/-- Reading 32 bytes as an element entry (R46). -/
def elemOf (l : List Byte) : Elem :=
  let w (i : Nat) := leAt l (4 * i) 4
  { en := bitsNat (w 0) 31 31 == 1, opaque_ := bitsNat (w 0) 30 30 == 1, kind := bitsNat (w 0) 29 28,
    head := bitsNat (w 0) 27 23, plane := bitsNat (w 0) 22 19, style := bitsNat (w 0) 18 16,
    y := bitsNat (w 1) 31 16, x := bitsNat (w 1) 15 0, h := bitsNat (w 2) 31 16, w := bitsNat (w 2) 15 0,
    bind := bitsNat (w 3) 22 0, desc := bitsNat (w 4) 17 0, age := bitsNat (w 5) 22 0, warn := bitsNat (w 6) 22 0,
    delay := bitsNat (w 7) 31 21, change := bitsNat (w 7) 19 0, words := wordsOf l }

/-- A table entry of zeros. -/
def zeroEntry : Nat → List Byte := fun _ => List.replicate 32 0

/-- The current entry of element `e` (R507). -/
def Chip.elem (c : Chip) (e : Nat) : Elem := elemOf (mapGet zeroEntry c.curElem e)

/-- The enabled elements of head `h` in blend order: plane, then element number (R48, R66). -/
def Chip.headElems (c : Chip) (h : Nat) : List (Nat × Elem) :=
  let l := (c.curElem.map (fun e => (e.1, elemOf e.2))).filter (fun e => e.2.en && e.2.head == h)
  (List.range 16).flatMap (fun p => l.filter (fun e => e.2.plane == p))

/-- Every element starts with no binding. -/
def elemStateDefault : Nat → ElemState := fun _ => {}

/-- Element `e` beyond its entry. -/
def Chip.elemState (c : Chip) (e : Nat) : ElemState := mapGet elemStateDefault c.elems e

/-- Element `e` beyond its entry changes. -/
def Chip.modElemState (c : Chip) (e : Nat) (f : ElemState → ElemState) : Chip :=
  { c with elems := mapMod elemStateDefault c.elems e f }

/-- Every head starts idle. -/
def headDefault : Nat → Head := fun _ => {}

/-- Head `h` beyond its registers. -/
def Chip.head (c : Chip) (h : Nat) : Head := mapGet headDefault c.heads h

/-- Head `h` beyond its registers changes. -/
def Chip.modHead (c : Chip) (h : Nat) (f : Head → Head) : Chip := { c with heads := mapMod headDefault c.heads h f }

/-! ### The raster and provenance -/

/-- H_ACTIVE, V_ACTIVE, V_TOTAL and V_START of head `h`; V_START is the vertical blanking in lines. -/
def Chip.hActive (c : Chip) (h : Nat) : Nat := c.fld (R.hedHtim h) 15 0
/-- See `Chip.hActive`. -/
def Chip.vActive (c : Chip) (h : Nat) : Nat := c.fld (R.hedVtim h) 15 0
/-- See `Chip.hActive`. -/
def Chip.vTotal (c : Chip) (h : Nat) : Nat := c.fld (R.hedVtim h) 31 16
/-- See `Chip.hActive`. -/
def Chip.vStart (c : Chip) (h : Nat) : Nat := c.vTotal h - c.vActive h

/-- Tile columns and rows of head `h` (R5). -/
def Chip.tileCols (c : Chip) (h : Nat) : Nat := ceilDiv (c.hActive h) 32
/-- See `Chip.tileCols`. -/
def Chip.tileRows (c : Chip) (h : Nat) : Nat := ceilDiv (c.vActive h) 32

/-- The element's rectangle covers the pixel. -/
def Elem.covers (e : Elem) (x y : Nat) : Bool :=
  decide (e.x ≤ x) && decide (x < e.x + e.w) && decide (e.y ≤ y) && decide (y < e.y + e.h)

/-- The element's rectangle meets the tile. -/
def Elem.meetsTile (e : Elem) (tx ty : Nat) : Bool :=
  decide (e.x < 32 * tx + 32) && decide (32 * tx < e.x + e.w) && decide (e.y < 32 * ty + 32) &&
    decide (32 * ty < e.y + e.h)

/-- R66: the elements of a list, in blend order, that a tile's record names. -/
def tileList (l : List (Nat × Elem)) (tx ty : Nat) : List (Nat × Elem) := l.filter (fun e => e.2.meetsTile tx ty)

/-- R66: the entries that head `h`'s current provenance map was built from, in blend order. -/
def Chip.mapElems (c : Chip) (h : Nat) : List (Nat × Elem) :=
  (mapGet (fun _ => []) c.prov h).map (fun e => (e.1, elemOf e.2))

/-- R67: the map that a commit of head `h` built becomes current. -/
def Chip.buildMap (c : Chip) (h : Nat) : Chip :=
  { c with prov := mapPut (fun _ => []) c.prov h ((c.headElems h).map (fun e => (e.1, mapGet zeroEntry c.curElem e.1))) }

/-- R275: the elements that a tile's record lists and that are enabled on head `h`; `l` is the head's map. -/
def Chip.listed (c : Chip) (h : Nat) (l : List (Nat × Elem)) (tx ty : Nat) : List (Nat × Elem) :=
  (tileList l tx ty).filterMap (fun e =>
    let cur := c.elem e.1
    if cur.en && cur.head == h then some (e.1, cur) else none)

/-- R66: the 64-byte provenance record of a tile of head `h`, as words. -/
def Chip.provWords (c : Chip) (h tx ty : Nat) : List Nat :=
  let l := ((tileList (c.mapElems h) tx ty).take 16).map (fun e => 2 ^ 31 + e.2.plane * 2 ^ 19 + e.1)
  l ++ List.replicate (16 - l.length) 0

/-- R68: the elements that contribute to a pixel, bottom first: those that cover it from its topmost opaque one up. -/
def contributors (l : List (Nat × Elem)) (x y : Nat) : List (Nat × Elem) :=
  let cov := l.filter (fun e => e.2.covers x y)
  let up := cov.reverse.takeWhile (fun e => !e.2.opaque_)
  let opq := (cov.reverse.drop up.length).take 1
  (up ++ opq).reverse

/-! ### Blending -/

/-- A layer at a pixel (R257). -/
structure Layer where
  px : Px
  la : Nat
  premul : Bool
  deriving DecidableEq, Repr

/-- R265: one component through one layer in audit mode. -/
def auditStep (d cs pa la : Nat) (premul : Bool) : Nat :=
  let a := roundDiv (pa * la) 255
  if premul then min 1023 (roundDiv (cs * la) 255 + roundDiv (d * (255 - a)) 255)
  else roundDiv (cs * a + d * (255 - a)) 255

/-- R266: one component, times 16, through one layer in normal service. -/
def normalStep (e cs pa la : Nat) (premul : Bool) : Nat :=
  let a := roundDiv (pa * la) 255
  if premul then min 16368 (roundDiv (cs * 16 * la) 255 + roundDiv (e * (255 - a)) 255)
  else roundDiv (cs * 16 * a + e * (255 - a)) 255

/-- The running colour: three components at 10 bits (audit mode) or 14 bits (normal service). -/
structure Running where
  audit : Bool
  r : Nat
  g : Nat
  b : Nat
  deriving DecidableEq, Repr

/-- R265, R266: the blend starts at the background. -/
def Running.start (audit : Bool) (bg : Px) : Running :=
  if audit then ⟨true, bg.r, bg.g, bg.b⟩ else ⟨false, bg.r * 16, bg.g * 16, bg.b * 16⟩

/-- One layer is applied. -/
def Running.add (d : Running) (l : Layer) : Running :=
  let f := if d.audit then auditStep else normalStep
  { d with r := f d.r l.px.r l.px.a l.la l.premul, g := f d.g l.px.g l.px.a l.la l.premul,
           b := f d.b l.px.b l.px.a l.la l.premul }

/-- The 10-bit colour of the running value. -/
def Running.out (d : Running) : Px :=
  let f (v : Nat) := if d.audit then v else min 1023 ((v + 8) / 16)
  ⟨f d.r, f d.g, f d.b, 255⟩

/-! ### Source pixels -/

/-- A window descriptor (R260). -/
structure WinDesc where
  sy : Nat
  sx : Nat
  sh : Nat
  sw : Nat
  premul : Bool
  matrix : Nat
  alphaEn : Bool
  words : List Nat
  deriving DecidableEq, Repr

/-- Reading 32 bytes as a window descriptor (R260). -/
def winDescOf (l : List Byte) : WinDesc :=
  let w (i : Nat) := leAt l (4 * i) 4
  { sy := bitsNat (w 0) 31 16, sx := bitsNat (w 0) 15 0, sh := bitsNat (w 1) 31 16, sw := bitsNat (w 1) 15 0,
    premul := bitsNat (w 2) 31 31 == 1, matrix := bitsNat (w 2) 30 30, alphaEn := bitsNat (w 2) 29 29 == 1,
    words := wordsOf l }

/-- Head `h`'s current copy of window descriptor `d` (R269). -/
def Chip.winDesc (c : Chip) (h d : Nat) : WinDesc := winDescOf (mapGet zeroEntry c.curDesc (h * 4096 + d))

/-- R260: the crop's width and height in a frame of `w` × `h`. -/
def WinDesc.crop (d : WinDesc) (w h : Nat) : Nat × Nat :=
  (if d.sw == 0 then w - d.sx else d.sw, if d.sh == 0 then h - d.sy else d.sh)

/-- R285: the pattern pixel at source coordinates (x, y) of a `w`-wide frame at frame start `f`. -/
def patternPx (code w x y : Nat) (f : Stamp) : Px :=
  let grey (v : Nat) : Px := ⟨v, v, v, 255⟩
  if decide (y < 16) && decide (x < 64) then
    grey (if (f / 1000000 % 65536) / 2 ^ (15 - x / 4) % 2 == 1 then 1023 else 0)
  else match code with
    | 0 =>
      let bar := x * 8 / w
      let on (b : Bool) := if b then 767 else 0
      ⟨on (bar == 0 || bar == 1 || bar == 4 || bar == 5), on (decide (bar < 4)),
       on (bar == 0 || bar == 2 || bar == 4 || bar == 6), 255⟩
    | 1 => grey (if 2 ≤ w then x * 1023 / (w - 1) else 0)
    | 2 => grey (if (x / 32 + y / 32) % 2 == 0 then 1023 else 0)
    | _ => grey 512

/-- A static image descriptor (R261): the picture and PREMUL. -/
def Chip.imageDesc (c : Chip) (i : Nat) : Pic × Bool :=
  let w (k : Nat) := c.tbwNat (twImage i + 4 * k) 4
  ({ base := w 0 / 64 * 64 + w 1 % 256 * 2 ^ 32, fmt := w 3 % 16, w := w 2 % 65536, h := w 2 / 65536 },
   w 3 / 16 % 2 == 1)

/-- The field plane of head `h` (R259). -/
def Chip.fieldPlane (c : Chip) (h : Nat) : Pic :=
  { base := c.base40 (R.cmpFieldLo h) (R.cmpFieldHi h), fmt := 1, w := c.hActive h, h := c.vActive h }

/-- The frame start stamp of frame `k` of head `h` and its fraction (R290). -/
def Chip.frameStart (c : Chip) (h k : Nat) : Stamp × Nat :=
  let q := c.fld (R.hedPeriod h) 26 0 * 65536 + c.fld (R.hedPeriodFrac h) 15 0
  (c.fld (R.hedPhase h) 26 0 + k * q / 65536, k * q % 65536)

/-- What element `e` shows in head `h`'s current frame: slot, buffer, and whether the frame qualified (R58, R62). -/
def Chip.shownOf (c : Chip) (h e : Nat) : Option (Nat × Nat × Bool) := mapGet (fun _ => none) c.shown (h * 524288 + e)

/-- R58: what element `e` shows in head `h`'s current frame changes. -/
def Chip.putShown (c : Chip) (h e : Nat) (x : Option (Nat × Nat × Bool)) : Chip :=
  { c with shown := mapPut (fun _ => none) c.shown (h * 524288 + e) x }

/-- R262 to R264, R261, R250: what element `e` of head `h` shows at surface pixel (x, y), none where it has no frame. -/
def Chip.elemPx (c : Chip) (h : Nat) (e : Nat) (el : Elem) (x y : Nat) : Option Layer :=
  let j := x - el.x
  let i := y - el.y
  let la := if el.opaque_ then 255 else c.fld (R.cmpAlphaCur h el.plane) 7 0
  let pa (p : Px) (use : Bool) : Px := if el.opaque_ || !use then { p with a := 255 } else p
  match el.kind with
  | 1 =>
    let d := c.winDesc h el.desc
    let n := el.bind
    let gw := c.fld (R.srcGeom n) 15 0
    let gh := c.fld (R.srcGeom n) 31 16
    let crop := d.crop gw gh
    if c.slotKind n == 7 then
      let code := c.fld (R.srcCfg n) 3 0
      if 3 < code then none
      else
        let f := (c.frameStart h (c.head h).k).1
        some ⟨scalePx crop.1 crop.2 el.w el.h (fun x y => patternPx code gw (d.sx + x) (d.sy + y) f) j i, la, d.premul⟩
    else match c.shownOf h e with
      | some (m, b, _) =>
        let p := c.bufPic m b
        some ⟨pa (scalePx crop.1 crop.2 el.w el.h (fun x y => c.picPx p d.matrix (d.sx + x) (d.sy + y)) j i)
          (d.alphaEn && fmtAlpha p.fmt), la, d.premul⟩
      | none => none
  | 2 => some ⟨pa (c.picPx (c.fieldPlane h) 0 x y) true, la, false⟩
  | 3 =>
    let (p, premul) := c.imageDesc el.desc
    some ⟨pa (c.picPx p 0 j i) (fmtAlpha p.fmt), la, premul⟩
  | _ => none

/-! ### The fly sheet's markings -/

/-- R516: rows 3 to 12 of a character of the built-in font. -/
def fontRows (code : Nat) : List Nat :=
  match code with
  | 32 => [0x00, 0x00, 0x00, 0x00, 0x00, 0x00, 0x00, 0x00, 0x00, 0x00]
  | 46 => [0x00, 0x00, 0x00, 0x00, 0x00, 0x00, 0x00, 0x00, 0x18, 0x18]
  | 48 => [0x3C, 0x42, 0x42, 0x46, 0x4A, 0x52, 0x62, 0x42, 0x42, 0x3C]
  | 49 => [0x08, 0x18, 0x28, 0x08, 0x08, 0x08, 0x08, 0x08, 0x08, 0x3E]
  | 50 => [0x3C, 0x42, 0x02, 0x02, 0x04, 0x08, 0x10, 0x20, 0x40, 0x7E]
  | 51 => [0x3C, 0x42, 0x02, 0x02, 0x1C, 0x02, 0x02, 0x02, 0x42, 0x3C]
  | 52 => [0x04, 0x0C, 0x14, 0x24, 0x44, 0x7E, 0x04, 0x04, 0x04, 0x04]
  | 53 => [0x7E, 0x40, 0x40, 0x40, 0x7C, 0x02, 0x02, 0x02, 0x42, 0x3C]
  | 54 => [0x1C, 0x20, 0x40, 0x40, 0x7C, 0x42, 0x42, 0x42, 0x42, 0x3C]
  | 55 => [0x7E, 0x02, 0x02, 0x04, 0x04, 0x08, 0x08, 0x10, 0x10, 0x10]
  | 56 => [0x3C, 0x42, 0x42, 0x42, 0x3C, 0x42, 0x42, 0x42, 0x42, 0x3C]
  | 57 => [0x3C, 0x42, 0x42, 0x42, 0x42, 0x3E, 0x02, 0x02, 0x04, 0x38]
  | 62 => [0x40, 0x20, 0x10, 0x08, 0x04, 0x08, 0x10, 0x20, 0x40, 0x00]
  | 65 => [0x18, 0x24, 0x42, 0x42, 0x42, 0x7E, 0x42, 0x42, 0x42, 0x42]
  | 69 => [0x7E, 0x40, 0x40, 0x40, 0x7C, 0x40, 0x40, 0x40, 0x40, 0x7E]
  | 71 => [0x3C, 0x42, 0x40, 0x40, 0x40, 0x4E, 0x42, 0x42, 0x42, 0x3C]
  | 73 => [0x3E, 0x08, 0x08, 0x08, 0x08, 0x08, 0x08, 0x08, 0x08, 0x3E]
  | 76 => [0x40, 0x40, 0x40, 0x40, 0x40, 0x40, 0x40, 0x40, 0x40, 0x7E]
  | 78 => [0x42, 0x62, 0x62, 0x52, 0x52, 0x4A, 0x4A, 0x46, 0x46, 0x42]
  | 79 => [0x3C, 0x42, 0x42, 0x42, 0x42, 0x42, 0x42, 0x42, 0x42, 0x3C]
  | 83 => [0x3C, 0x42, 0x40, 0x40, 0x3C, 0x02, 0x02, 0x02, 0x42, 0x3C]
  | 84 => [0x7E, 0x18, 0x18, 0x18, 0x18, 0x18, 0x18, 0x18, 0x18, 0x18]
  | 86 => [0x42, 0x42, 0x42, 0x42, 0x42, 0x24, 0x24, 0x24, 0x18, 0x18]
  | 89 => [0x42, 0x42, 0x42, 0x24, 0x18, 0x18, 0x18, 0x18, 0x18, 0x18]
  | 115 => [0x00, 0x00, 0x00, 0x3C, 0x42, 0x40, 0x3C, 0x02, 0x42, 0x3C]
  | _ => []

/-- R516: the pixel (x, y) of a text in 8 × 16 cells is drawn. -/
def fontBit (text : List Nat) (x y : Nat) : Bool :=
  match text[x / 8]? with
  | none => false
  | some ch => decide (3 ≤ y) && decide (y < 13) && (fontRows ch).getD (y - 3) 0 / 2 ^ (7 - x % 8) % 2 == 1

/-- A text's character codes. -/
def codes (s : String) : List Nat := s.toList.map Char.toNat

/-- The decimal digits of a number, without leading zeros. -/
def decDigits (n : Nat) : List Nat := codes (toString n)

/-- R71: the badge's text for an age in units of 100 ms. -/
def badgeText (t : Nat) : List Nat :=
  if t ≤ 999999 then decDigits (t / 10) ++ codes "." ++ decDigits (t % 10) ++ codes " s" else codes ">99999 s"

/-- A colour register as a pixel (R74). -/
def colourOf (w : Word) (a : Nat) : Px := ⟨bitsOf w 29 20, bitsOf w 19 10, bitsOf w 9 0, a⟩

/-- R69: the pixel of the pattern of state `st` (1 to 5) in colours A and B at surface coordinates; none where transparent.
`edge` tells a LATE element's border. -/
def markPx (st : Nat) (a b : Px) (x y : Nat) (edge : Bool) : Option Px :=
  match st with
  | 5 => some { (if (x + y) % 16 < 8 then a else b) with a := 255 }
  | 4 => if x % 8 < 2 && y % 8 < 2 then some a else none
  | 3 => if (x + y) % 16 < 2 || decide (((x : Int) - y) % 16 < 2) then some a else none
  | 2 => some (if (x + y) % 8 < 4 then a else { b with a := a.a })
  | 1 => if edge then some a else none
  | _ => none

/-- R69: within 2 pixels of the element's edge. -/
def Elem.edge (e : Elem) (x y : Nat) : Bool :=
  decide (x < e.x + 2) || decide (e.x + e.w ≤ x + 2) || decide (y < e.y + 2) || decide (e.y + e.h ≤ y + 2)

/-- Colours A and B of a style set's entry for a state, A with its α (R74). An α of 0 leaves a pattern other than ABSENT without
effect on the pixels (DESIGN CHOICE, log 96: R73 forbids no α). -/
def Chip.styleA (c : Chip) (s st : Nat) : Px :=
  colourOf (c.reg (R.flyStyleA s (st - 1))) (c.fld (R.flyStyleM s (st - 1)) 7 0)
/-- See `Chip.styleA`. -/
def Chip.styleB (c : Chip) (s st : Nat) : Px := colourOf (c.reg (R.flyStyleB s (st - 1))) 255

/-- The state of element `e` in the frame last evaluated, from its state record (R77). -/
def Chip.shownState (c : Chip) (e : Nat) : Nat := c.tbwNat (twState e) 1 % 8

/-- A text in a box at (bx, by): the text's pixel scaled by `m` with `pad` pixels of padding; none outside the box. -/
def boxPx (text : List Nat) (m pad boxW boxH bx by_ x y : Nat) (fg bg : Px) : Option Px :=
  if decide (bx ≤ x) && decide (x < bx + boxW) && decide (by_ ≤ y) && decide (y < by_ + boxH) then
    if decide (bx + pad ≤ x) && decide (by_ + pad ≤ y) && fontBit text ((x - bx - pad) / m) ((y - by_ - pad) / m)
    then some fg else some bg
  else none

/-- White. -/
def white : Px := ⟨1023, 1023, 1023, 255⟩

/-- R70: the NO SIGNAL box of an element. -/
def Chip.noSignalPx (c : Chip) (h : Nat) (el : Elem) (x y : Nat) : Option Px :=
  let vw := min (el.x + el.w) (c.hActive h) - el.x
  let vh := min (el.y + el.h) (c.vActive h) - el.y
  if vw < 80 || vh < 24 then none
  else boxPx (codes "NO SIGNAL") 1 4 80 24 (el.x + (vw - 80) / 2) (el.y + (vh - 24) / 2) x y white (c.styleB el.style 5)

/-- R71: the age badge of an element. -/
def Chip.badgePx (c : Chip) (e : Nat) (el : Elem) (x y : Nat) : Option Px :=
  let text := badgeText (c.tbwNat (twState e + 4) 4 / 1000)
  let m := if c.bit R.flyCtl 16 then 2 else 1
  boxPx text m (2 * m) ((8 * text.length + 4) * m) (20 * m) (el.x + 4) (el.y + 4) x y
    { c.styleA el.style 2 with a := 255 } (c.styleB el.style 2)

/-- R68 to R71: the fly sheet's layer at a pixel, given the contributing elements and the state each draws with, and
whether it draws its text. The topmost contributing element in the pixel's state gives the style set (R68) and, where several
are LATE, the edge; where several draw a box or a badge, the topmost's is seen (DESIGN CHOICE, log 96). -/
def Chip.flyPx (c : Chip) (h : Nat) (l : List (Nat × Elem × Nat × Bool)) (x y : Nat) : Option Px :=
  let st := l.foldl (fun m e => max m e.2.2.1) 0
  let top := (l.filter (fun e => e.2.2.1 == st)).reverse
  match top with
  | [] => none
  | (_, el, _, _) :: _ =>
    let texts := top.filterMap (fun e =>
      if !e.2.2.2 then none
      else if st == 5 then c.noSignalPx h e.2.1 x y
      else if st == 2 then c.badgePx e.1 e.2.1 x y
      else none)
    match texts with
    | p :: _ => some p
    | [] => if st == 0 then none else markPx st (c.styleA el.style st) (c.styleB el.style st) x y (el.edge x y)

/-- R72: before seal, the ABSENT pattern of style set 0 with NOT YET LIVE. -/
def Chip.notLivePx (c : Chip) (h x y : Nat) : Px :=
  match boxPx (codes "NOT YET LIVE") 1 4 104 24 ((c.hActive h - 104) / 2) ((c.vActive h - 24) / 2) x y white
      (c.styleB 0 5) with
  | some p => p
  | none => (markPx 5 (c.styleA 0 5) (c.styleB 0 5) x y false).getD white

/-! ### Regions, audit mode, pointer and pulse mark -/

/-- A signature region (R276). -/
structure Region where
  en : Bool
  exp : Bool
  twin : Bool
  head : Nat
  tag : Nat
  ty : Nat
  tx : Nat
  th : Nat
  tw : Nat
  expect : Nat
  persist : Nat
  words : List Nat
  deriving DecidableEq, Repr

/-- Reading 32 bytes as a signature region (R276). -/
def regionOf (l : List Byte) : Region :=
  let w (i : Nat) := leAt l (4 * i) 4
  { en := bitsNat (w 0) 31 31 == 1, exp := bitsNat (w 0) 30 30 == 1, twin := bitsNat (w 0) 29 29 == 1,
    head := bitsNat (w 0) 28 24, tag := bitsNat (w 0) 15 0, ty := bitsNat (w 1) 31 16, tx := bitsNat (w 1) 15 0,
    th := bitsNat (w 2) 31 16, tw := bitsNat (w 2) 15 0, expect := w 3, persist := max 1 (bitsNat (w 4) 7 0),
    words := wordsOf l }

/-- The current entry of region `r`. -/
def Chip.region (c : Chip) (r : Nat) : Region := regionOf (mapGet zeroEntry c.curRegion r)

/-- The enabled regions of head `h`, with their numbers. -/
def Chip.headRegions (c : Chip) (h : Nat) : List (Nat × Region) :=
  (c.curRegion.map (fun e => (e.1, regionOf e.2))).filter (fun e => e.2.en && e.2.head == h)

/-- The region covers the pixel. -/
def Region.covers (r : Region) (x y : Nat) : Bool :=
  decide (32 * r.tx ≤ x) && decide (x < 32 * (r.tx + r.tw)) && decide (32 * r.ty ≤ y) && decide (y < 32 * (r.ty + r.th))

/-- R267: the whole head blends in audit mode. -/
def Chip.auditHead (c : Chip) (h : Nat) : Bool := !c.isSealed || c.bit (R.cmpCtl h) 31

/-- R267: `CMP_STAT[h].AUDIT` reports the mode in force for the whole head. -/
def Chip.syncAudit (c : Chip) (h : Nat) : Chip := c.setFld (R.cmpStat h) 30 30 (if c.auditHead h then 1 else 0)

/-- R267: the pixel is blended in audit mode. -/
def Chip.auditAt (c : Chip) (h x y : Nat) : Bool :=
  c.auditHead h || (c.headRegions h).any (fun r => r.2.exp && r.2.covers x y)

/-- R283, R284: the pointer plane's layer at a pixel, from the values taken at the frame start. -/
def Chip.pointerPx (c : Chip) (h x y : Nat) : Option Layer :=
  let hd := c.head h
  let px := hd.ptrXY % 65536
  let py := hd.ptrXY / 65536
  if hd.ptr / 2 ^ 31 % 2 == 0 then none
  else
    let (p, premul) := c.imageDesc (hd.ptr % 2 ^ 14)
    if fmtAlpha p.fmt && decide (px ≤ x) && decide (x < px + min p.w 128) && decide (py ≤ y) && decide (y < py + min p.h 128)
    then some ⟨c.picPx p 0 (x - px) (y - py), 255, premul⟩
    else none

/-- R300: the pulse mark's pixel, none outside its block. -/
def Chip.pulsePx (c : Chip) (h x y : Nat) : Option Px :=
  let px := c.fld (R.hedPulse h) 15 0
  let py := c.fld (R.hedPulse h) 31 16
  if decide (px ≤ x) && decide (x < px + 16) && decide (py ≤ y) && decide (y < py + 16) then
    let i := (y - py) / 4 * 4 + (x - px) / 4
    let m := (c.head h).k % 256
    let on := if i < 8 then m / 2 ^ i % 2 == 1 else m / 2 ^ (i - 8) % 2 == 0
    let v := if on then c.fld (R.hedPulseLvl h) 9 0 else 0
    some ⟨v, v, v, 255⟩
  else none

/-! ### The composed pixel -/

/-- R296, R64: what stands in an element's place in a tile: 1 the ABSENT fill, 2 the IMPAIRED fill; 0 the element. A field whose
record could not be read is replaced in all its tiles. -/
def Head.replaced (hd : Head) (e tx ty : Nat) : Nat :=
  if hd.fills.any (fun f => f == (tx, ty, some e)) then 1
  else if hd.badElems.contains e || hd.fetched.any (fun f => f == (tx, ty, some e, true)) then 2 else 0

/-- R256 to R268: the composed pixel (x, y) of head `h`'s present frame. `l` is the head's provenance map. -/
def Chip.composePx (c : Chip) (h : Nat) (l : List (Nat × Elem)) (x y : Nat) : Composed :=
  let hd := c.head h
  let tx := x / 32
  let ty := y / 32
  let audit := c.auditAt h x y
  let bg := colourOf (c.reg (R.cmpBgCur h)) 255
  let start := Running.start audit bg
  let after :=
    if hd.fills.any (fun f => f == (tx, ty, none)) then
      start.add ⟨(markPx 5 (c.styleA 0 5) (c.styleB 0 5) x y false).getD bg, 255, false⟩
    else if !hd.live then start.add ⟨c.notLivePx h x y, 255, false⟩
    else
      let con := contributors (c.listed h l tx ty) x y
      let d := con.foldl (fun d e =>
        match hd.replaced e.1 tx ty with
        | 1 => d.add ⟨(markPx 5 (c.styleA e.2.style 5) (c.styleB e.2.style 5) x y false).getD bg, 255, false⟩
        | 2 => d.add ⟨{ (if x % 8 < 2 && y % 8 < 2 then c.styleA e.2.style 4 else c.styleB e.2.style 4) with a := 255 },
            255, false⟩
        | _ => match c.elemPx h e.1 e.2 x y with | some lay => d.add lay | none => d) start
      let marks := con.map (fun e =>
        if hd.missed.contains e.1 || hd.glyphMissed.contains e.1 then (e.1, e.2, 5, false)
        else (e.1, e.2, c.shownState e.1, true))
      match c.flyPx h marks x y with
      | some p => d.add ⟨p, 255, false⟩
      | none => d
  let full := (match c.pointerPx h x y with | some lay => after.add lay | none => after).out
  { region := after.out, full := full, sent := (c.pulsePx h x y).getD full, plain := (c.pulsePx h x y).getD after.out }

/-- Active row `y` of head `h`, composed. -/
def Chip.composeRow (c : Chip) (h : Nat) (l : List (Nat × Elem)) (y : Nat) : List Composed :=
  (List.range (c.hActive h)).map (fun x => c.composePx h l x y)

/-- R294: head `h`'s active rows below `n` that are not composed yet are composed. -/
def Chip.composeRows (c : Chip) (h n : Nat) : Chip :=
  let from_ := (c.head h).nextRow
  let n := min n (c.vActive h)
  let l := c.mapElems h
  let new := (List.range (n - from_)).map (fun i => (from_ + i, c.composeRow h l (from_ + i)))
  c.modHead h (fun x => { x with rows := x.rows ++ new, nextRow := max from_ n })

/-- R45, R252: rows composed before their lines leave with the marking of an element that is not ready by its scan time. -/
def Chip.recompose (c : Chip) (h : Nat) : Chip :=
  let l := c.mapElems h
  let new := (c.head h).rows.map (fun r => (r.1, c.composeRow h l r.1))
  c.modHead h (fun x => { x with rows := new })

/-- R277: a pixel packed as a 32-bit word, low byte first. -/
def packPx (p : Px) : List Byte := leBytes 4 (p.r * 2 ^ 20 + p.g * 2 ^ 10 + p.b)

end Sys2Proof.Machine
end

