-- ==== Sys2Proof/Machine/Commit.lean ====
section
/-! DEFINITION. The commit of a head (R47, R49, R67, R269 to R274) and the commands of `CMP_CMD`. -/

namespace Sys2Proof.Machine

/-- The numbers below `count` of a table's entries that hold a listed byte: the table lies at offset `lo` with entries of
`size` bytes. Every other entry is zeros. -/
def Chip.listedEntries (c : Chip) (lo size count : Nat) : List (Nat × Bool) :=
  c.tbw.foldl (fun m e =>
    if lo ≤ e.1 && decide (e.1 < lo + size * count) then mapPut (fun _ => false) m ((e.1 - lo) / size) true else m) []

/-- The shadow entry of element `e` (R47). -/
def Chip.shadowElem (c : Chip) (e : Nat) : Elem := elemOf (c.tbwBytes (twElem e) 32)

/-- The shadow window descriptor `d`. -/
def Chip.shadowDesc (c : Chip) (d : Nat) : WinDesc := winDescOf (c.tbwBytes (twWindow d) 32)

/-- The shadow region `r`. -/
def Chip.shadowRegion (c : Chip) (r : Nat) : Region := regionOf (c.tbwBytes (twRegion r) 32)

/-- R269: the element entries whose shadow or current HEAD is `h`, ascending. An entry of zeros in both copies is not
listed: taking it changes nothing. -/
def Chip.takenElems (c : Chip) (h : Nat) : List Nat :=
  let m := c.curElem.foldl (fun m e => mapPut (fun _ => false) m e.1 true) (c.listedEntries 0 32 524288)
  (m.map (fun e => e.1)).filter (fun e => (c.shadowElem e).head == h || (c.elem e).head == h)

/-- R269: the signature regions whose shadow or current HEAD is `h`, ascending. -/
def Chip.takenRegions (c : Chip) (h : Nat) : List Nat :=
  let m := c.curRegion.foldl (fun m e => mapPut (fun _ => false) m e.1 true) (c.listedEntries 0x1EA0000 32 1024)
  (m.map (fun e => e.1)).filter (fun r => (c.shadowRegion r).head == h || (c.region r).head == h)

/-- R47: an enabled entry breaks a condition on its own fields. A static image ignores words 3 and 5 to 7, a field
PRES_DELAY. -/
def Elem.bad (e : Elem) : Bool :=
  let w (i : Nat) := e.words.getD i 0
  let static := e.kind == 3
  e.kind == 0 || decide (8 < e.plane) || bitsNat (w 0) 15 0 != 0 || bitsNat (w 4) 31 18 != 0 ||
    e.h == 0 || decide (16383 < e.h) || e.w == 0 || decide (16383 < e.w) ||
    (e.kind == 1 && (decide (255 < e.bind) || decide (4095 < e.desc) || decide (2000 < e.delay))) ||
    (static && decide (16383 < e.desc)) ||
    (!static && (bitsNat (w 3) 31 23 != 0 || bitsNat (w 5) 31 23 != 0 || bitsNat (w 6) 31 23 != 0 ||
      bitsNat (w 7) 20 20 != 0 || e.age < 10 || decide (6000000 < e.age) || e.warn < 10 || decide (e.age < e.warn) ||
      decide (600000 < e.change))) ||
    (e.kind == 2) != (e.plane == 8)

/-- The part-wide limit of each kind (R47). -/
def kindLimit (kind : Nat) : Nat := if kind == 1 then 4096 else if kind == 2 then 262144 else 16384

/-- R273: the first of the enabled entries, ascending, at which the part-wide count of its kind passes its limit; `n1`,
`n2` and `n3` count what stands. -/
def countFail (n1 n2 n3 : Nat) : List (Nat × Elem) → Option Nat
  | [] => none
  | (i, e) :: rest =>
    let n1 := if e.kind == 1 then n1 + 1 else n1
    let n2 := if e.kind == 2 then n2 + 1 else n2
    let n3 := if e.kind == 3 then n3 + 1 else n3
    if kindLimit 1 < n1 || decide (kindLimit 2 < n2) || decide (kindLimit 3 < n3) then some i else countFail n1 n2 n3 rest

/-- R264: a ratio of crop to element is out of its bounds. -/
def ratioBad (s o : Nat) : Bool := decide (16 * o < s) || decide (32 * s < o)

/-- R272, cause DESC: the descriptor of an enabled entry fails. -/
def Chip.descBad (c : Chip) (e : Elem) : Bool :=
  if e.kind == 1 then
    let d := c.shadowDesc e.desc
    let n := e.bind
    let gw := c.fld (R.srcGeom n) 15 0
    let gh := c.fld (R.srcGeom n) 31 16
    let fmt := c.fld (R.srcCfg n) 3 0
    let crop := d.crop gw gh
    let pattern := c.fld (R.srcCfg n) 30 28 == 7
    let w (i : Nat) := d.words.getD i 0
    crop.1 == 0 || crop.2 == 0 || decide (gw < d.sx + crop.1) || decide (gh < d.sy + crop.2) ||
      (!pattern && fmtPlanar fmt && d.sx % 2 == 1) || (!pattern && fmt420 fmt && d.sy % 2 == 1) ||
      ratioBad crop.1 e.w || ratioBad crop.2 e.h || bitsNat (w 2) 28 0 != 0 ||
      (List.range 5).any (fun i => w (3 + i) != 0)
  else if e.kind == 3 then
    let w (i : Nat) := c.tbwNat (twImage e.desc + 4 * i) 4
    let p := (c.imageDesc e.desc).1
    bitsNat (w 0) 5 0 != 0 || bitsNat (w 1) 31 8 != 0 || bitsNat (w 3) 31 5 != 0 || decide (p.w < e.w) || decide (p.h < e.h)
  else
    let w (i : Nat) := c.tbwNat (twField e.desc + 4 * i) 4
    bitsNat (w 0) 17 16 != 0 || bitsNat (w 1) 31 8 != 0 || w 2 != 0 || w 3 != 0

/-- R272, cause SIGREG: of every region taken, enabled or not. An entry of zeros holds no region (DEDUCED, log 45). -/
def Region.bad (r : Region) : Bool :=
  let w (i : Nat) := r.words.getD i 0
  r.words.any (fun v => v != 0) && (bitsNat (w 0) 23 16 != 0 || bitsNat (w 4) 31 8 != 0 || (List.range 3).any (fun i => w (5 + i) != 0) || r.tw == 0 || r.th == 0)

/-- R67: the first tile, row by row, that more than 16 of the elements meet: its number and the count. -/
def Chip.tileFail (c : Chip) (h : Nat) (l : List (Nat × Elem)) : Option (Nat × Nat) :=
  let cols := c.tileCols h
  (((List.range (cols * c.tileRows h)).map (fun i => (i, (tileList l (i % cols) (i / cols)).length))).find?
    (fun x => decide (16 < x.2)))

/-- R272: cause, INDEX and, for TILE, the count of the first failure; none when the commit succeeds. -/
def Chip.commitFail (c : Chip) (h : Nat) : Option (Nat × Nat × Nat) :=
  let taken := (c.takenElems h).map (fun e => (e, c.shadowElem e))
  let on := taken.filter (fun e => e.2.en && e.2.head == h)
  let others := (c.curElem.map (fun e => (e.1, elemOf e.2))).filter (fun e =>
    e.2.en && e.2.head != h && !taken.any (fun x => x.1 == e.1))
  let kindCount (k : Nat) := (others.filter (fun e => e.2.kind == k)).length
  let regs := (c.takenRegions h).map (fun r => (r, c.shadowRegion r))
  match on.find? (fun e => e.2.bad) with
  | some e => some (1, e.1, 0)
  | none =>
    match countFail (kindCount 1) (kindCount 2) (kindCount 3) on with
    | some i => some (2, i, 0)
    | none =>
      let moved (en : Bool) (hd : Nat) (curEn : Bool) (curHd : Nat) : Bool := en && curEn && hd != curHd
      match taken.find? (fun e => let cur := c.elem e.1; moved e.2.en e.2.head cur.en cur.head) with
      | some e => some (3, e.1, 0)
      | none =>
        match regs.find? (fun r => let cur := c.region r.1; moved r.2.en r.2.head cur.en cur.head) with
        | some r => some (3, r.1, 0)
        | none =>
          match on.find? (fun e => c.descBad e.2) with
          | some e => some (4, e.2.desc, 0)
          | none =>
            match regs.find? (fun r => r.2.bad) with
            | some r => some (5, r.1, 0)
            | none =>
              let order := (List.range 16).flatMap (fun p => on.filter (fun e => e.2.plane == p))
              match c.tileFail h order with
              | some (i, n) => some (6, i, n)
              | none => none

/-- An entry as a commit takes it from the shadow, given its bytes and whether its HEAD is the committing head: an entry that
names another head is taken with EN = 0, since a head's entries become current at that head's commit (R47, R271; DEDUCED,
log 95). EN is bit 31 of word 0 of elements and regions alike. -/
def takenEntry (own : Bool) (b : List Byte) : List Byte := if own then b else b.modify 3 (fun x => x &&& 0x7F)

/-- R49: a commit of head `h` takes element `e`: a change of KIND or BIND starts a new binding. -/
def Chip.takeElem (c : Chip) (h e : Nat) : Chip :=
  let sh := c.shadowElem e
  let c := { c with curElem := mapPut zeroEntry c.curElem e (takenEntry (sh.head == h) (c.tbwBytes (twElem e) 32)) }
  c.modElemState e (fun s =>
    if s.kind == sh.kind && s.bind == sh.bind then s
    else { s with kind := sh.kind, bind := sh.bind, fresh := true, had := false, kept := none })

/-- R269: a commit makes head `h`'s shadow state current, with the provenance map built from it (R66). -/
def Chip.takeShadow (c : Chip) (h : Nat) : Chip :=
  let elems := c.takenElems h
  let regs := c.takenRegions h
  let c := forL elems (fun e c => c.takeElem h e) c
  let c := forL elems (fun e c =>
    let el := c.elem e
    if el.en && el.head == h && el.kind == 1 then
      { c with curDesc := mapPut zeroEntry c.curDesc (h * 4096 + el.desc) (c.tbwBytes (twWindow el.desc) 32) }
    else c) c
  let c := forL regs (fun r c =>
    let b := takenEntry ((c.shadowRegion r).head == h) (c.tbwBytes (twRegion r) 32)
    { c with curRegion := mapPut zeroEntry c.curRegion r b }) c
  let c := c.setReg (R.cmpBgCur h) (c.reg (R.cmpBg h))
  let c := forN 9 (fun p c => c.setReg (R.cmpAlphaCur h p) (c.reg (R.cmpAlpha h p))) c
  c.buildMap h

/-- COMMIT (R269 to R273): the commit of head `h` at frame start `f`. -/
def Chip.commit (c : Chip) (h : Nat) (f : Stamp) : Chip :=
  let c := c.setWide (R.cmpResAtLo h) (R.cmpResAtHi h) (shortStamp f)
  let result (ok cause index : Nat) (c : Chip) : Chip :=
    (((c.setFld (R.cmpRes h) 30 30 ok).setFld (R.cmpRes h) 27 24 cause).setFld (R.cmpResIndex h) 18 0 index).publish
      (R.cmpRes h)
  match c.commitFail h with
  | none => (result 1 0 0 (c.takeShadow h)).bump (R.cmpCnt h 0)
  | some (cause, index, n) =>
    let c := (result 0 cause index c).bump (R.cmpCnt h 1)
    if cause == 6 then
      c.event 0xA005 (.tile h (index % c.tileCols h) (index / c.tileCols h)) [.val 4 n]
    else c.event 0x8001 (.surface h) [.val 1 cause, .val 4 index, .val 8 (shortStamp f)]

/-- R274: the cause that refuses a command of `CMP_CMD[h]`; 0 for none. -/
def Chip.commitCause (c : Chip) (h cmd : Nat) : Nat :=
  if cmd == 1 then (if !c.bit (R.hedCtl h) 31 then 1 else if c.bit (R.cmpStat h) 31 then 2 else 0)
  else if cmd == 2 then (if c.bit (R.cmpStat h) 31 then 0 else 1)
  else 0

/-- R274: a REQUEST makes a commit pending. -/
def Chip.pendCommit (c : Chip) (h : Nat) : Chip :=
  (c.setFld (R.cmpStat h) 31 31 1).modHead h (fun x => { x with reqAt := c.clk })

/-- R274: a CANCEL withdraws the pending request. -/
def Chip.withdrawCommit (c : Chip) (h : Nat) : Chip :=
  (c.setFld (R.cmpStat h) 31 31 0).modHead h (fun x => { x with withdrawn := some (x.reqAt, c.clk) })

/-- R274: a request makes a commit due at frame start `f`: it arrived before that edge, and a CANCEL did not. -/
def Chip.commitDue (c : Chip) (h : Nat) (f : Stamp) : Bool :=
  let x := c.head h
  (c.bit (R.cmpStat h) 31 && decide (x.reqAt < f)) ||
    (match x.withdrawn with
    | some (r, w) => decide (r < f) && decide (f ≤ w)
    | none => false)

/-- R270, R274: frame start `f` consumes the requests that arrived before it. -/
def Chip.takeRequest (c : Chip) (h : Nat) (f : Stamp) : Chip :=
  let c := if decide ((c.head h).reqAt < f) then c.setFld (R.cmpStat h) 31 31 0 else c
  c.modHead h (fun x => { x with withdrawn := none })

/-- R274: a write of CMD to `CMP_CMD[h]`. -/
def Chip.commitCommand (c : Chip) (src : Source) (h cmd : Nat) : Chip :=
  let cause := c.commitCause h cmd
  if cause != 0 then c.refuse src (R.cmpCmd h) (cmdWord cmd) cause
  else if cmd == 1 then c.pendCommit h
  else if cmd == 2 then c.withdrawCommit h
  else c

/-- COMMIT_REQUEST (R274). -/
def execCommitRequest (t : Stamp) (src : Source) (h : Nat) (s : State) : Host.Outcome State Fault Refusal :=
  runIf (decide (h < 32)) (fun c => (c.at t).commitCommand src h 1) s

/-- COMMIT_CANCEL (R274). -/
def execCommitCancel (t : Stamp) (src : Source) (h : Nat) (s : State) : Host.Outcome State Fault Refusal :=
  runIf (decide (h < 32)) (fun c => (c.at t).commitCommand src h 2) s

end Sys2Proof.Machine
end

