-- ==== Sys2Proof/Machine/Fly.lean ====
section
/-! DEFINITION. The fly sheet's evaluation at a frame start (R40 to R45, R57 to R65, R75 to R78) and the glyph engine
(R247 to R252). -/

namespace Sys2Proof.Machine

/-! ### Ages -/

/-- R41, R42: the scan time of an element whose top row is `y`, in a frame of head `h` that starts at (`f`, `frac`). -/
def Chip.scanTime (c : Chip) (h y : Nat) (f : Stamp) (frac : Nat) : Stamp :=
  let q := c.fld (R.hedPeriod h) 26 0 * 65536 + c.fld (R.hedPeriodFrac h) 15 0
  f + (frac + (c.vStart h + y) * (q / c.vTotal h)) / 65536

/-- R60: the age stamp t_f of a record. -/
def Chip.fieldStamp (c : Chip) (r : PointRec) : Stamp :=
  if c.bit (R.pntFeed r.feeder) 30 || r.source == 0 then stampSub r.arrival (c.fld (R.pntFeedLat r.feeder) 23 0 * nsPerUs)
  else stampMin r.source r.arrival

/-- What an element's conditions are computed from (R62). -/
structure Evaluated where
  absent : Bool
  impaired : Bool
  frozen : Bool
  age : Int
  dated : Bool
  deriving DecidableEq, Repr

/-- R62: the conditions held, as bits LATE, STALE, FROZEN, IMPAIRED, ABSENT from bit 0. -/
def Evaluated.conditions (v : Evaluated) (el : Elem) : Nat :=
  let past (lim : Nat) : Bool := v.dated && decide ((lim * 100000 : Int) < v.age)
  (if past el.warn then 1 else 0) + (if past el.age then 2 else 0) + (if v.frozen then 4 else 0) +
    (if v.impaired then 8 else 0) + (if v.absent then 16 else 0)

/-- R62: the state of a set of conditions: the highest code. -/
def stateOf (cond : Nat) : Nat :=
  if cond / 16 % 2 == 1 then 5 else if cond / 8 % 2 == 1 then 4 else if cond / 4 % 2 == 1 then 3
  else if cond / 2 % 2 == 1 then 2 else if cond % 2 == 1 then 1 else 0

/-- R77: an age in units of 100 µs, saturating. -/
def ageUnits (v : Evaluated) : Nat := if v.dated && !v.absent then min (v.age.toNat / 100000) 0xFFFFFFFF else 0

/-- R162: the tell-tale signature of a test-pattern frame: the CRC-32C of its capture stamp's bytes. -/
def patternSig (cap : Stamp) : Nat := crc32c (leBytes 8 cap)

/-- R54, R162: the frame of test-pattern slot `n` with capture stamp `cap`, after the window's last one. -/
def patternFrame (last : Option ShownFrame) (n : Nat) (cap : Stamp) : ShownFrame :=
  { slot := n, buf := 0, seq := 0, cap := cap,
    change := match last with
      | some x => if patternSig x.cap == patternSig cap then x.change else cap
      | none => cap }

/-- FRAME_SELECTION and the window row of R62, at frame start `f`, scan time `sc`. Where no frame qualifies, a window that has had
one in its binding shows the frame it showed last, also when it was disabled in between; where that frame's buffer has been
taken again meanwhile, it shows no pixels, and the frame's stamps still decide its state (DESIGN CHOICE, log 97). -/
def Chip.evalWindow (c : Chip) (h e : Nat) (el : Elem) (f sc : Stamp) : Chip × Evaluated :=
  let n := el.bind
  let d := el.delay * nsPerMs
  let es := c.elemState e
  if c.slotKind n == 7 then
    let c := c.putShown h e none
    if 3 < c.fld (R.srcCfg n) 3 0 then
      (c, { absent := !es.had, impaired := es.fault, frozen := false, age := 0, dated := false })
    else
      let fr := patternFrame es.last n (stampSub f d)
      let frozen := el.change != 0 && decide ((el.change * nsPerMs : Int) < stampGap fr.cap fr.change)
      let c := c.modElemState e (fun s => { s with had := true, last := some fr })
      (c, { absent := false, impaired := es.fault, frozen := frozen, age := stampGap sc fr.cap, dated := true })
  else
    let sel := if c.slotKind n == 0 then none else c.selectFrame n f d
    let fr : Option ShownFrame := match sel with
      | some i =>
        let r := c.frameRec n i
        some { slot := n, buf := i, seq := r.seq, cap := r.cap, change := r.change }
      | none => if es.had then es.last else none
    let stands := match fr with
      | some x => sel.isSome || ((c.frameRec n x.buf).seq == x.seq && (c.frameRec n x.buf).finished)
      | none => false
    let c := c.putShown h e (fr.bind (fun x => if stands then some (n, x.buf, sel.isSome) else none))
    let c := c.modElemState e (fun s => { s with had := s.had || sel.isSome, last := fr })
    let impaired := c.impairmentTest n f d || es.fault
    match fr with
    | none => (c, { absent := true, impaired := impaired, frozen := false, age := 0, dated := false })
    | some x =>
      let frozen := el.change != 0 && decide ((el.change * nsPerMs : Int) < stampGap x.cap x.change)
      (c, { absent := false, impaired := impaired, frozen := frozen, age := stampGap sc x.cap, dated := true })

/-- FIELD_RECORD_READ and the field row of R62 (R60, R65). `bad` tells that the record's read met a fault (R64): the field is
IMPAIRED at once and has age 0. An ABSENT field holds no LATE, STALE or FROZEN condition, and it keeps no change stamp (DESIGN
CHOICES on R62 and R77, log 98). -/
def Chip.evalField (c : Chip) (e : Nat) (el : Elem) (sc : Stamp) (bad : Bool) : Chip × Evaluated :=
  let es := c.elemState e
  let rec_ := c.pntTab + 32 * el.bind
  if bad || c.isBeyond rec_ 32 then
    ((c.refuseBeyond 2 rec_ 32).modElemState e (fun s => { s with faultNow := true }),
     { absent := false, impaired := true, frozen := false, age := 0, dated := false })
  else
    let r := c.pointRec el.bind
    if r.arrival == 0 then
      (c.modElemState e (fun s => { s with kept := none }),
        { absent := true, impaired := es.fault || r.quality % 2 == 1, frozen := false, age := 0, dated := false })
    else
      let tf := c.fieldStamp r
      let kept := match es.kept with
        | some (v, k) => if v == r.value then (v, k) else (r.value, tf)
        | none => (r.value, tf)
      let c := c.modElemState e (fun s => { s with kept := some kept })
      let frozen := el.change != 0 && decide ((el.change * nsPerMs : Int) < stampGap tf kept.2)
      (c, { absent := false, impaired := es.fault || r.quality % 2 == 1, frozen := frozen, age := stampGap sc tf, dated := true })

/-- The counts of an evaluation: elements in states 1 to 5, and events raised. -/
structure EvalSum where
  counts : List Nat := [0, 0, 0, 0, 0]
  total : Nat := 0
  raised : Nat := 0
  /-- Changes beyond the cap by new state 0 to 5. -/
  further : List Nat := [0, 0, 0, 0, 0, 0]
  deriving DecidableEq, Repr

/-- Element `i` of a list of counts advances. -/
def incAt (l : List Nat) (i : Nat) : List Nat := l.modify i (fun n => n + 1)

/-- ELEMENT_EVALUATION (R62, R77, R78): one enabled element of head `h` in frame `k`; `prev` is the head's previous frame. -/
def Chip.evalElem (h k : Nat) (prev : Option Nat) (f : Stamp) (frac : Nat) (bad : List Nat) (e : Nat × Elem) (x : Chip × EvalSum) :
    Chip × EvalSum :=
  let (c, sum) := x
  let (e, el) := e
  let es := c.elemState e
  let renewed := es.fresh || (el.kind == 1 && es.slotGen != (c.slot el.bind).gen)
  let c := if renewed then c.modElemState e (fun s => { s with had := false, last := none, kept := none }) else c
  let c := if el.kind == 1 then c.modElemState e (fun s => { s with slotGen := (c.slot el.bind).gen }) else c
  let sc := c.scanTime h el.y f frac
  let (c, v) := match el.kind with
    | 1 => c.evalWindow h e el f sc
    | 2 => c.evalField e el sc (bad.contains e)
    | _ => (c, { absent := false, impaired := es.fault, frozen := false, age := 0, dated := false })
  let cond := v.conditions el
  let st := stateOf cond
  let age := ageUnits v
  let wasOn := match prev with
    | some p => es.onIn == some (h, p)
    | none => false
  let old := if wasOn && !renewed then es.state else 0
  let c := c.tbwPut (twState e) 4 (st + cond * 256 + k % 65536 * 65536)
  let c := c.tbwPut (twState e + 4) 4 age
  let c := c.modElemState e (fun s => { s with fresh := false, onIn := some (h, k), state := st })
  let sum := { sum with counts := if st == 0 then sum.counts else incAt sum.counts (st - 1), total := sum.total + 1 }
  if old == st then (c, sum)
  else if sum.raised < c.fld R.flyCtl 9 0 then
    (c.event 0xA001 (.element e) [.val 1 old, .val 1 st, .val 1 cond, .val 4 age], { sum with raised := sum.raised + 1 })
  else (c, { sum with further := incAt sum.further st })

/-- R58: a new frame of head `h` begins: what is no enabled window of the head any longer holds no buffer for it. -/
def Chip.dropDisabled (c : Chip) (h : Nat) : Chip :=
  { c with shown := c.shown.filter (fun s => s.1 / 524288 != h ||
      (let el := c.elem (s.1 % 524288); el.en && el.head == h && el.kind == 1)) }

/-- The tiles of head `h` that the element's rectangle meets, row by row. -/
def Chip.tilesOf (c : Chip) (h : Nat) (el : Elem) : List (Nat × Nat) :=
  (List.range (c.tileRows h)).flatMap (fun ty =>
    ((List.range (c.tileCols h)).filter (fun tx => el.meetsTile tx ty)).map (fun tx => (tx, ty)))

/-- R64: in the frame that ends, every tile of the element was fetched without a fault. -/
def Chip.fetchedWhole (c : Chip) (h e : Nat) (el : Elem) : Bool :=
  (c.tilesOf h el).all (fun t => (c.head h).fetched.contains (t.1, t.2, some e, false))

/-- R64: at a frame start, the fetch faults of the frame before become the condition, which ends with a frame in which the
element was fetched whole. -/
def Chip.turnFaults (c : Chip) (h : Nat) (l : List (Nat × Elem)) : Chip :=
  forL l (fun e c =>
    let whole := c.fetchedWhole h e.1 e.2
    c.modElemState e.1 (fun s => { s with fault := s.faultNow || (s.fault && !whole), faultNow := false })) c

/-- R64: the point record of each field in `bad` met a fault: the field's tiles are replaced in this frame, with an event for each
tile (DESIGN CHOICE, log 98). -/
def Chip.recordFaults (c : Chip) (h : Nat) (bad : List Nat) : Chip :=
  let l := (c.headElems h).filter (fun e => e.2.kind == 2 && bad.contains e.1)
  let c := c.modHead h (fun x => { x with badElems := l.map (fun e => e.1) })
  forL l (fun e c => forL (c.tilesOf h e.2) (fun t c => c.event 0xA004 (.tile h t.1 t.2) [.val 2 t.1, .val 2 t.2]) c) c

/-- R40, step 4: the states of head `h`'s elements in frame `k` that starts at (`f`, `frac`), in ascending element order;
`FLY_CNT` and the events. Event 0xA002 carries six counts, of the states from 0 up (DESIGN CHOICE, log 99). -/
def Chip.evalHead (c : Chip) (h k : Nat) (f : Stamp) (frac : Nat) (bad : List Nat) : Chip :=
  let l := (c.curElem.map (fun e => (e.1, elemOf e.2))).filter (fun e => e.2.en && e.2.head == h)
  let (c, sum) := forL l (Chip.evalElem h k (c.head h).evalK f frac bad) (c, ({} : EvalSum))
  let c := c.modHead h (fun x => { x with evalK := some k })
  let c := c.setNat (R.flyCntFrame h) k
  let c := forN 5 (fun i c => c.setNat (R.flyCntN h i) (sum.counts.getD i 0)) c
  let c := (c.setNat (R.flyCntN h 5) sum.total).publish (R.flyCnt h)
  if sum.further.all (fun n => n == 0) then c
  else c.event 0xA002 (.surface h) (sum.further.map (fun n => .val 4 n))

/-! ### Text (R248) -/

/-- `n` digits of a number in a base, most significant first. -/
def digitsOf (base : Nat) : Nat → Nat → List Nat
  | 0, _ => []
  | n + 1, v => digitsOf base n (v / base) ++ [v % base]

/-- The digits of a number without leading zeros; 0 is one digit. -/
def trimDigits (l : List Nat) : List Nat :=
  match l.dropWhile (fun d => d == 0) with
  | [] => [0]
  | r => r

/-- A digit's character. -/
def digitChar (d : Nat) : Nat := if d < 10 then 48 + d else 55 + d

/-- A comma every three digits, counted from the right, when `on`. -/
def groupDigits (on : Bool) (l : List Nat) : List Nat :=
  if !on then l
  else
    let n := l.length
    (l.zip (List.range n)).flatMap (fun x => if x.2 != 0 && (n - x.2) % 3 == 0 then [44, x.1] else [x.1])

/-- The magnitude of a fixed-point number with `dec` decimals as characters. -/
def fixedChars (grp : Bool) (dec v : Nat) : List Nat :=
  let whole := (trimDigits (digitsOf 10 400 (v / 10 ^ dec))).map digitChar
  let frac := (digitsOf 10 dec (v % 10 ^ dec)).map digitChar
  groupDigits grp whole ++ (if dec == 0 then [] else 46 :: frac)

/-- R248, rule 5: sign and body padded to WIDTH, or WIDTH characters #. -/
def padNumber (zero : Bool) (width : Nat) (sign body : List Nat) : List Nat :=
  let n := sign.length + body.length
  if width < n then List.replicate width 35
  else if zero then sign ++ List.replicate (width - n) 48 ++ body
  else List.replicate (width - n) 32 ++ sign ++ body

/-- R248, rule 3: |value| × 10^dec of a finite binary64, rounded with ties away from zero. -/
def f64Scaled (v dec : Nat) : Nat :=
  let e := v / 2 ^ 52 % 2048
  let m := if e == 0 then v % 2 ^ 52 else 2 ^ 52 + v % 2 ^ 52
  let x := max e 1
  if 1075 ≤ x then m * 2 ^ (x - 1075) * 10 ^ dec
  else (2 * m * 10 ^ dec + 2 ^ (1075 - x)) / (2 * 2 ^ (1075 - x))

/-- Characters up to the first 0. -/
def cString (l : List Byte) : List Nat := (l.map (fun b => b.toNat)).takeWhile (fun ch => ch != 0)

/-- R248: the text of a field whose format entry lies at `o`, for a value; `uns` tells that its point's type is 3, whose value is
unsigned (R239). -/
def Chip.fieldText (c : Chip) (o v : Nat) (uns : Bool) : List Nat :=
  let kind := c.tbwNat o 1
  let dec := c.tbwNat (o + 1) 1
  let width := c.tbwNat (o + 2) 1
  let flags := c.tbwNat (o + 3) 1
  let plus := flags % 2 == 1
  let grp := flags / 2 % 2 == 1
  let zero := flags / 4 % 2 == 1
  let i : Int := if uns then (v : Int) else signedOf 64 v
  let sign (neg pos : Bool) : List Nat := if neg then [45] else if plus && pos then [43] else []
  let number := match kind with
    | 0 => padNumber zero width (sign (decide (i < 0)) (decide (0 < i))) (fixedChars grp 0 i.natAbs)
    | 1 => padNumber zero width (sign (decide (i < 0)) (decide (0 < i))) (fixedChars grp dec i.natAbs)
    | 2 =>
      let neg := v / 2 ^ 63 % 2 == 1
      if f64Nan v then padNumber zero width [] (codes "NaN")
      else if v % 2 ^ 63 == 0x7FF0000000000000 then padNumber zero width [if neg then 45 else 43] (codes "Inf")
      else
        let n := f64Scaled v dec
        padNumber zero width (if n == 0 then [] else sign neg (!neg)) (fixedChars grp dec n)
    | 3 =>
      if v < c.tbwNat (o + 6) 2 then cString (c.tbwBytes (twEnum (c.tbwNat (o + 4) 2 + v)) 16)
      else 63 :: (trimDigits (digitsOf 10 20 v)).map digitChar
    | 4 =>
      let d := trimDigits (digitsOf 16 16 v)
      let d := List.replicate (width - d.length) 0 ++ d
      padNumber zero width (sign false (decide (0 < i))) (groupDigits grp (d.map digitChar))
    | _ => []
  (number ++ cString (c.tbwBytes (o + 8) 8)).take 48

/-! ### Rendering (R249, R250, R252) -/

/-- Palette entry `i` (R253); entry 0 is transparent and reads 0. -/
def Chip.palette (c : Chip) (i : Nat) : Px :=
  if i == 0 then ⟨0, 0, 0, 0⟩ else colourOf (c.reg (R.pntPal (i - 1))) (c.fld (R.pntPalAlpha (i - 1)) 7 0)

/-- R249: the coverage of a text at element pixel (j, i). -/
def Chip.coverage (c : Chip) (font halign inset : Nat) (text : List Nat) (w h j i : Nat) : Nat :=
  let o := twFont font
  let cw := c.tbwNat o 1
  let ch := c.tbwNat (o + 2) 1
  let n := text.length
  let left : Int := if halign == 0 then inset else if halign == 1 then (w : Int) - inset - n * cw
    else ((w : Int) - n * cw) / 2
  let top : Int := ((h : Int) - ch) / 2
  let x : Int := (j : Int) - left
  let y : Int := (i : Int) - top
  if cw == 0 || decide (x < 0) || decide (y < 0) || decide ((ch : Int) ≤ y) then 0
  else
    match text[x.toNat / cw]? with
    | none => 0
    | some code => if 128 ≤ code then 0 else c.tbwNat (o + 4 + code * cw * ch + y.toNat * cw + x.toNat % cw) 1

/-- R250: the field-plane pixel of coverage `a`, foreground and background; `solid` tells that BG is not 0. -/
def fieldPx (a : Nat) (fg bg : Px) (solid : Bool) : Px :=
  let a' := roundDiv (a * fg.a) 255
  if solid then
    let mix (f g : Nat) := roundDiv (f * a' + g * (255 - a')) 255
    ⟨mix fg.r bg.r, mix fg.g bg.g, mix fg.b bg.b, max a' bg.a⟩
  else { fg with a := a' }

/-- What the glyph engine draws of a field (R252). -/
def Chip.drawnOf (c : Chip) (h : Nat) (el : Elem) (r : PointRec) : Drawn :=
  let w0 := c.tbwNat (twField el.desc) 4
  let w1 := c.tbwNat (twField el.desc + 4) 4
  let lim := r.quality / 256 % 4
  let fg := if lim == 0 then bitsNat w0 15 12 else if lim == 1 then bitsNat w0 11 8 else bitsNat w0 7 4
  let p (x : Px) : List Nat := [x.r, x.g, x.b, x.a]
  { head := h, text := c.fieldText (twFormat (bitsNat w0 31 24)) r.value (r.byte26 % 16 == 3),
    colours := p (c.palette fg) ++ p (c.palette (bitsNat w0 3 0)), desc := [w0, w1],
    rect := (el.x, el.y, el.w, el.h), bind := el.bind }

/-- R250: the row `i` of a drawn field, as format-1 bytes. -/
def Chip.drawnRow (c : Chip) (d : Drawn) (w h i : Nat) : List Byte :=
  let w0 := d.desc.getD 0 0
  let w1 := d.desc.getD 1 0
  let k (n : Nat) := d.colours.getD n 0
  let fg : Px := ⟨k 0, k 1, k 2, k 3⟩
  let bg : Px := ⟨k 4, k 5, k 6, k 7⟩
  fmtRow 1 w rgbToYcc (fun j => fieldPx
    (c.coverage (bitsNat w0 23 20) (bitsNat w0 19 18) (bitsNat w1 7 0) d.text d.rect.2.2.1 h j i) fg bg
    (bitsNat w0 3 0 != 0))

/-- Two rectangles, as left, top, width and height, share a pixel. -/
def rectsMeet (a b : Nat × Nat × Nat × Nat) : Bool :=
  decide (a.1 < b.1 + b.2.2.1) && decide (b.1 < a.1 + a.2.2.1) && decide (a.2.1 < b.2.1 + b.2.2.2) &&
    decide (b.2.1 < a.2.1 + a.2.2.2)

/-- R252: the glyph engine renders element `e` on head `h` when what it shows differs from what it last drew there. What it drew
of other fields under the rectangle no longer stands: the pixels never show a value other than the one read. -/
def Chip.renderField (c : Chip) (h e : Nat) (el : Elem) : Chip :=
  let key := h * 524288 + e
  let d := c.drawnOf h el (c.pointRec el.bind)
  if mapGet (fun _ => none) c.pnt.drawn key == some d then c
  else
    let p := c.fieldPlane h
    let vw := min (el.x + el.w) p.w - el.x
    let vh := min (el.y + el.h) p.h - el.y
    let kept := c.pnt.drawn.filter (fun x => match x.2 with
      | some o => x.1 == key || o.head != h || !rectsMeet o.rect d.rect
      | none => true)
    let c := { c with pnt := { c.pnt with drawn := mapPut (fun _ => none) kept key (some d) } }
    forN vh (fun i c =>
      let a := p.base + (el.y + i) * linePitch 1 p.w + el.x * 8
      let row := c.drawnRow d vw el.h i
      let c := c.modHead h (fun x => { x with undo := (e, a, c.dramBytes a row.length) :: x.undo })
      c.dramWrite a row) c

/-- R251, R252: the fields of head `h` are rendered in ascending order of scan time, then element number. -/
def Chip.renderHead (c : Chip) (h : Nat) (bad : List Nat) : Chip :=
  let l := (c.curElem.map (fun e => (e.1, elemOf e.2))).filter (fun e =>
    e.2.en && e.2.head == h && e.2.kind == 2 && !bad.contains e.1)
  let rows := l.foldl (fun m e => mapPut (fun _ => false) m e.2.y true) []
  forL rows (fun y c => forL (l.filter (fun e => e.2.y == y.1)) (fun e c => c.renderField h e.1 e.2) c) c

/-! ### The commands -/

/-- ELEMENT_STATE_MISS (R45): an element's state is not ready by its scan time. -/
def execElementStateMiss (t : Stamp) (h e : Nat) (s : State) : Host.Outcome State Fault Refusal :=
  runIf (decide (h < 32) && decide (e < 524288)) (fun c =>
    let c := c.at t
    let el := c.elem e
    if el.en && el.head == h && !(c.head h).missed.contains e then
      (((c.modHead h (fun x => { x with missed := e :: x.missed })).bump R.flyMiss).event 0xA003 (.element e) []).recompose h
    else c) s

/-- GLYPH_MISS (R252): a field is not rendered by its scan time: it keeps what it last drew, is drawn ABSENT in this frame,
and is rendered again at the next. -/
def execGlyphMiss (t : Stamp) (h e : Nat) (s : State) : Host.Outcome State Fault Refusal :=
  runIf (decide (h < 32) && decide (e < 524288)) (fun c =>
    let c := c.at t
    let el := c.elem e
    if el.en && el.head == h && el.kind == 2 && !(c.head h).glyphMissed.contains e then
      let c := forL (c.head h).undo (fun u c => if u.1 == e then c.dramWrite u.2.1 u.2.2 else c) c
      let c := c.modHead h (fun x => { x with
        glyphMissed := e :: x.glyphMissed, undo := x.undo.filter (fun u => u.1 != e) })
      let c := { c with pnt := { c.pnt with drawn := mapPut (fun _ => none) c.pnt.drawn (h * 524288 + e) none } }
      ((c.bump (R.pntCnt 15)).event 0x6006 (.element e) [.val 4 e, .val 1 h]).recompose h
    else c) s

end Sys2Proof.Machine
end

