-- ==== Sys2Proof/Machine/Codec.lean ====
section
/-! DEFINITION. Decoding and encoding (R167 to R200): decode contexts, the reference pool, the engines' job queues, encode
buckets and rate control, and the streams sent (R149, R150, R163, R164, R349, R361). -/

namespace Sys2Proof.Machine

/-! ### Decode contexts -/

/-- Every decode context starts with nothing decoded. -/
def decDefault : Nat → DecCtx := fun _ => {}

/-- Decode context `x`. -/
def Chip.decCtx (c : Chip) (x : Nat) : DecCtx := mapGet decDefault c.dec x

/-- Decode context `x` changes. -/
def Chip.modDec (c : Chip) (x : Nat) (f : DecCtx → DecCtx) : Chip := { c with dec := mapMod decDefault c.dec x f }

/-- R177: the state of context `x`. -/
def Chip.decState (c : Chip) (x : Nat) : Nat := c.fld (R.vdcCtxStat x) 2 0

/-- The slot bound to context `x` (R198). -/
def Chip.decSlot (c : Chip) (x : Nat) : Nat := c.fld (R.vdcCtx x) 23 16

/-- R170: the profiles that are decoded, by profile_idc, with their chroma formats and bit depths (PRESUMED, log 107: the numbers of the
coding standards). -/
def profileListed (h265 : Bool) (p : StreamParams) : Bool :=
  if h265 then
    (p.profile == 1 && p.chroma == 1 && p.depth == 8) ||
      (p.profile == 2 && p.chroma == 1 && decide (8 ≤ p.depth) && decide (p.depth ≤ 10)) ||
      (p.profile == 4 && (p.chroma == 1 || p.chroma == 2) && decide (8 ≤ p.depth) && decide (p.depth ≤ 10))
  else
    p.chroma == 1 && ((p.profile == 100 && p.depth == 8) || (p.profile == 110 && (p.depth == 8 || p.depth == 10)))

/-- R170, R172, R198: a parameter set lies within what context `x` decodes. -/
def Chip.paramsOk (c : Chip) (x : Nat) (p : StreamParams) : Bool :=
  let h265 := c.bit (R.vdcCtx x) 30
  let maxW := c.fld (R.vdcCtxMax x) 15 0
  let maxH := c.fld (R.vdcCtxMax x) 31 16
  profileListed h265 p && p.progressive && p.tools && decide (64 ≤ p.width) && decide (64 ≤ p.height) &&
    decide (p.width ≤ if h265 then 8192 else 4096) && decide (p.height ≤ if h265 then 4320 else 2304) &&
    decide (p.level ≤ if h265 then 183 else 52) && decide (p.buffering ≤ 16) &&
    (maxW == 0 || decide (p.width ≤ maxW)) && (maxH == 0 || decide (p.height ≤ maxH)) &&
    decide (p.buffering + 1 ≤ c.fld (R.vdcCtxRef x) 5 0)

/-! ### The reference pool (R182 to R184) -/

/-- A pool buffer's mark record (R183). -/
structure MarkRec where
  poc : Int
  ctx : Nat
  mark : Nat
  taint : Bool
  cause : Nat
  lt : Nat
  seq : Nat
  deriving DecidableEq, Repr

/-- Reading 16 bytes as a mark record. -/
def markRecOf (l : List Byte) : MarkRec :=
  let b := leAt l 5 1
  { poc := signedOf 32 (leAt l 0 4), ctx := leAt l 4 1, mark := b % 4, taint := b / 4 % 2 == 1, cause := leAt l 6 1,
    lt := leAt l 7 1, seq := leAt l 8 4 }

/-- A mark record's bytes. -/
def MarkRec.bytes (m : MarkRec) : List Byte :=
  leBytes 4 (twosOf 32 m.poc) ++ leBytes 1 m.ctx ++ leBytes 1 (m.mark + (if m.taint then 4 else 0)) ++ leBytes 1 m.cause ++
    leBytes 1 m.lt ++ leBytes 4 m.seq ++ leBytes 4 0

/-- The address of the mark record of pool buffer `i`. -/
def Chip.markAddr (c : Chip) (i : Nat) : Nat := c.base40 R.vdcMarkLo R.vdcMarkHi + 16 * i

/-- The mark record of pool buffer `i`. -/
def Chip.markRec (c : Chip) (i : Nat) : MarkRec := markRecOf (c.dramBytes (c.markAddr i) 16)

/-- The mark record of pool buffer `i` is written. -/
def Chip.putMark (c : Chip) (i : Nat) (m : MarkRec) : Chip := c.dramWrite (c.markAddr i) m.bytes

/-- The address of pool buffer `i` (R182). -/
def Chip.poolAddr (c : Chip) (i : Nat) : Nat :=
  c.base40 R.vdcPoolLo R.vdcPoolHi + i * (c.fld R.vdcPoolCfg 31 16 * 4096)

/-- The pool buffers of context `x` (R182). -/
def Chip.partition (c : Chip) (x : Nat) : List Nat :=
  (List.range (c.fld (R.vdcCtxRef x) 5 0)).map (fun i => c.fld (R.vdcCtxRef x) 26 16 + i)

/-- Pool buffer `i` holds a picture of context `x` that is marked for reference. -/
def Chip.marked (c : Chip) (x i : Nat) : Bool := (c.markRec i).mark != 0 && (c.markRec i).ctx == x

/-- The decode order of the picture in pool buffer `i`, as context `x` knows it. -/
def Chip.bufOrder (c : Chip) (x i : Nat) : Nat := mapGet (fun _ => 0) (c.decCtx x).orders i

/-- The marked buffer of context `x` that holds picture order count `poc`, the latest decoded where there are several. -/
def Chip.findRef (c : Chip) (x : Nat) (poc : Int) : Option Nat :=
  ((c.partition x).filter (fun i => c.marked x i && (c.markRec i).poc == poc)).foldl (fun best i => match best with
    | none => some i
    | some j => if c.bufOrder x j < c.bufOrder x i then some i else some j) none

/-- Every buffer of context `x` is marked unused (R177). -/
def Chip.unmarkAll (c : Chip) (x : Nat) : Chip :=
  forL (c.partition x) (fun i c => if c.marked x i then c.putMark i { c.markRec i with mark := 0 } else c) c

/-- R186: TAINT of context `x` follows the marked buffers; when it clears, event 0x4003. -/
def Chip.followTaint (c : Chip) (x : Nat) : Chip :=
  let now := (c.partition x).any (fun i => c.marked x i && (c.markRec i).taint)
  let was := c.bit (R.vdcCtxStat x) 3
  if now == was then c
  else
    let c := c.setFld (R.vdcCtxStat x) 3 3 (if now then 1 else 0)
    if now then c.modDec x (fun d => { d with impaired := 0 })
    else c.event 0x4003 .room [.val 1 x, .val 1 (c.decSlot x), .val 4 (c.decCtx x).impaired]

/-- R184: the buffer that a new reference picture takes: one that is not marked and that no unfinished job names, else any
that is not marked, else the one evicted, with its event. -/
def Chip.takeRef (c : Chip) (x seq : Nat) (refs : List JobRef) : Chip × Option Nat :=
  let all := c.partition x
  let busy := refs.map (fun r => r.index) ++
    (c.decCtx x).jobs.flatMap (fun j => j.refs.map (fun r => r.index) ++ j.outRef.toList)
  let unmarked := all.filter (fun i => !c.marked x i)
  match unmarked.find? (fun i => !busy.contains i) with
  | some i => (c, some i)
  | none =>
    match unmarked with
    | i :: _ => (c, some i)
    | [] =>
      let short := all.filter (fun i => (c.markRec i).mark == 1)
      let l := if short.isEmpty then all else short
      match l with
      | [] => (c, none)
      | i :: rest =>
        let v := rest.foldl (fun b j => if c.bufOrder x j < c.bufOrder x b then j else b) i
        let c := c.putMark v { c.markRec v with mark := 0 }
        ((c.bump (R.vdcCtxCnt x 5)).eventLimited x 0x4001 .room
          [.val 1 x, .val 1 (c.decSlot x), .val 4 seq, .val 1 0, .occ], some v)

/-- R173: the stream's marking of earlier pictures takes effect: those of `keep` stay with their marks, the others of the
context become unused. -/
def Chip.applyMarking (c : Chip) (x : Nat) (keep : List (Int × Nat × Nat)) : Chip :=
  forL (c.partition x) (fun i c =>
    if c.marked x i then
      match keep.find? (fun k => k.1 == (c.markRec i).poc) with
      | some k => c.putMark i { c.markRec i with mark := k.2.1, lt := if k.2.1 == 2 then k.2.2 else 0xFF }
      | none => c.putMark i { c.markRec i with mark := 0 }
    else c) c

/-! ### Building a picture job (R172, R173, R177, R178, R184, R185) -/

/-- R178: P_min in ns: the smallest presentation delay among the windows bound to slot `n` in the current layout. -/
def Chip.minDelay (c : Chip) (n : Nat) : Option Nat :=
  ((c.curElem.map (fun e => elemOf e.2)).filter (fun e => e.en && e.kind == 1 && e.bind == n)).foldl
    (fun best e => match best with
      | none => some (e.delay * nsPerMs)
      | some d => some (min d (e.delay * nsPerMs))) none

/-- R178: the deadline of a job. -/
def Chip.jobDeadline (c : Chip) (n : Nat) (cap : Stamp) : Stamp :=
  if c.slotKind n == 6 then (c.clk + 100 * nsPerMs) % 2 ^ 64
  else (cap + (c.minDelay n).getD (2 * nsPerS)) % 2 ^ 64

/-- An access unit as base firmware takes it up: slot, key of R351, arrival stamp, supplied capture stamp, whether it came
incomplete, the sequence numbers it lacks, and where its bytes lie. -/
structure UnitInfo where
  slot : Nat
  key : Nat
  arrival : Stamp
  supplied : Option Stamp
  incomplete : Bool
  lost : Nat
  addr : Nat
  len : Nat
  deriving DecidableEq, Repr

/-- R188: the unit is a random access point: H.265 IDR, CRA and BLA pictures (nal_unit_type 16 to 21), H.264 IDR pictures (5) and I
pictures with recovery_frame_cnt 0. -/
def isRap (h265 : Bool) (p : ParsedPicture) : Bool :=
  if h265 then decide (16 ≤ p.nalType) && decide (p.nalType ≤ 21) else p.nalType == 5 || (p.intra && p.recovery == some 0)

/-- R185: a reference entry; none of the context's buffers holding the picture makes it MISSING. -/
def Chip.refEntry (c : Chip) (x : Nat) (poc : Int) : JobRef :=
  match c.findRef x poc with
  | some i =>
    let m := c.markRec i
    { index := i, order := c.bufOrder x i, poc := poc, missing := false, taint := m.taint, cause := m.cause }
  | none => { index := 0, order := 0, poc := poc, missing := true, taint := false, cause := 0 }

/-- R175: a reference entry of a job. -/
def JobRef.entry (r : JobRef) : Nat := r.index % 2048 + (if r.taint then 16384 else 0) + (if r.missing then 32768 else 0)

/-- R175: the words of a job: word 0, the output buffers, deadline, capture and arrival stamp, sequence number, bitstream address and
length, parameter block, reference entries, and the result words where the job has ended: cause, completeness, start stamp, end
stamp and engine. -/
def jobWords (head out : Nat) (deadline cap arrival : Stamp) (seq addr len block : Nat) (refs : List Nat)
    (result : Option (Nat × Nat × Stamp × Stamp × Nat)) : List Nat :=
  let wide (v : Nat) : List Nat := [v % 2 ^ 32, v / 2 ^ 32 % 2 ^ 32]
  [head, out] ++ wide deadline ++ wide (shortStamp cap) ++ wide arrival ++ [seq] ++ wide (addr % 2 ^ 40) ++ [len % 2 ^ 32] ++
    wide block ++ [0] ++ (List.range 8).map (fun i => refs.getD (2 * i) 0 + refs.getD (2 * i + 1) 0 * 65536) ++
    (match result with
     | none => [0, 0, 0, 0, 0, 0]
     | some (cause, code, start, stop, engine) =>
       [2 ^ 31 + cause * 256 + code] ++ wide (shortStamp start) ++ wide (shortStamp stop) ++ [engine]) ++ [0, 0, 0]

/-- R175: the words of a decode job of context `x` with capture stamp `cap`. -/
def PicJob.words (j : PicJob) (x : Nat) (cap : Stamp) (result : Option (Nat × Nat × Stamp × Stamp × Nat)) : List Nat :=
  let flag (b : Bool) (i : Nat) : Nat := if b then 2 ^ i else 0
  jobWords
    (x * 2 ^ 24 + flag j.codec 22 + flag j.incomplete 21 + flag j.rap 20 + min 16 j.refs.length * 2 ^ 15 + j.cls * 2 ^ 12 +
      flag j.outRef.isSome 11 + flag j.outBuf.isSome 10)
    (j.outRef.getD 0 * 1024 + j.outBuf.getD 0) j.deadline cap j.arrival j.seq j.bsAddr j.bsLen (Config.paramBlock 0 x j.order)
    ((j.refs.take 16).map JobRef.entry) result

/-- A job ring keeps the words of the latest 16 jobs (DESIGN CHOICE, log 51: R175 gives neither its place nor its size). -/
def ringPut (l : List (Nat × List Nat)) (n : Nat) (w : List Nat) : List (Nat × List Nat) :=
  ((n, w) :: l.filter (fun e => e.1 != n)).take 16

/-- R175: the words of job `n` of context `x` stand in its job ring. -/
def Chip.putRing (c : Chip) (x n : Nat) (w : List Nat) : Chip := c.modDec x (fun d => { d with ring := ringPut d.ring n w })

/-- R173: base firmware writes the picture job of a unit that context `x` decodes. -/
def Chip.writeJob (c : Chip) (x : Nat) (u : UnitInfo) (p : ParsedPicture) : Chip :=
  let n := u.slot
  let rap := isRap (c.bit (R.vdcCtx x) 30) p
  let lists := if rap then [] else p.lists.map (fun q => c.refEntry x q)
  let lacking := if rap then []
    else ((p.rps.filter (fun q => !p.lists.contains q)).map (fun q => c.refEntry x q)).filter (fun r => r.missing)
  let refs := lists ++ lacking
  let c := forL (refs.filter (fun r => r.missing)) (fun r c =>
    (c.bump (R.vdcCtxCnt x 2)).event 0x4002 .room [.val 1 x, .val 1 n, .val 4 (twosOf 32 r.poc)]) c
  let c := c.applyMarking x p.keep
  let c := c.modDec x (fun d => { d with order := d.order + 1 })
  let order := (c.decCtx x).order
  let (c, out) := if p.mark == 0 then (c, none) else c.takeRef x ((c.slot n).seq + 1) refs
  let c := match out with
    | some i =>
      (c.putMark i { poc := p.poc, ctx := x, mark := p.mark, taint := false, cause := 0,
                     lt := if p.mark == 2 then p.ltIndex else 0xFF, seq := 0 }).modDec x (fun d => { d with
        orders := mapPut (fun _ => 0) d.orders i order })
    | none => c
  let cap := (c.captureStamp n u.arrival u.supplied).2.1
  let job : PicJob := {
    slot := n, key := u.key, codec := c.bit (R.vdcCtx x) 30, incomplete := u.incomplete, lost := u.lost, rap := rap,
    cls := c.fld (R.vdcCtx x) 29 27, poc := p.poc, order := order, refs := refs, outRef := out, display := p.display,
    deadline := c.jobDeadline n cap, supplied := u.supplied, arrival := u.arrival,
    cause := if p.parses then 0 else 1, seq := 0, outBuf := none, bsAddr := u.addr, bsLen := u.len,
    depth := match (c.decCtx x).params with | some s => s.depth | none => 8, running := none }
  (c.modDec x (fun d => { d with jobs := d.jobs ++ [job] })).putRing x order (job.words x cap none)

/-- R177: an access unit is discarded and counted in SKIPPED, with event 0x4006. -/
def Chip.skipUnit (c : Chip) (x : Nat) : Chip :=
  (c.bump (R.vdcCtxCnt x 3)).eventLimited x 0x4006 .room [.val 1 x, .occ]

/-- Event 0x4004 (R172). -/
def Chip.beyond (c : Chip) (x : Nat) (p : StreamParams) : Chip :=
  c.event 0x4004 .room [.val 1 x, .val 1 p.profile, .val 1 p.level, .val 2 p.width, .val 2 p.height]

/-- R172, R177: what context `x` does with an access unit. -/
def Chip.takeUnit (c : Chip) (x : Nat) (u : UnitInfo) (p : ParsedPicture) : Chip :=
  let c := forN p.badParams (fun _ c => (c.bump (R.vdcCtxCnt x 5)).eventLimited x 0x4001 .room
    [.val 1 x, .val 1 u.slot, .val 4 (Config.eventCode 0x4001 0), .val 1 (Config.eventCode 0x4001 1), .occ]) c
  let rap := isRap (c.bit (R.vdcCtx x) 30) p
  let c := match p.params with
    | some s => ((c.setFld (R.vdcCtxStat x) 31 24 s.level).setFld (R.vdcCtxStat x) 23 16 s.profile).modDec x
        (fun d => { d with params := some s })
    | none => c
  let inForce := (c.decCtx x).params
  let inside := match inForce with | some s => c.paramsOk x s | none => false
  let outside := match inForce with | some s => (p.params.isSome || rap) && !c.paramsOk x s | none => false
  let st := c.decState x
  if st == 3 then
    if rap && inside then (c.setFld (R.vdcCtxStat x) 2 0 2).writeJob x u p
    else if rap then
      let c := c.bump (R.vdcCtxCnt x 3)
      match inForce with | some s => c.beyond x s | none => c
    else c.skipUnit x
  else if outside then
    let c := c.setFld (R.vdcCtxStat x) 2 0 3
    let c := match inForce with | some s => c.beyond x s | none => c
    (c.unmarkAll x).followTaint x
  else if st == 1 then
    if rap && inside then (c.setFld (R.vdcCtxStat x) 2 0 2).writeJob x u p else c.skipUnit x
  else if st == 2 then c.writeJob x u p
  else c

/-- R161: the access unit that stands next in the bitstream buffer of playback slot `n`: a 16-byte header with its capture stamp and its
length, and its bytes. None where no whole unit with a length follows (DESIGN CHOICE, log 103: the walk goes once through the
buffer). -/
def Chip.playbackUnit (c : Chip) (n : Nat) : Option UnitInfo :=
  let pos := (c.slot n).bsPos
  let a := c.base40 (R.srcBsLo n) (R.srcBsHi n) + pos
  let cap := c.dramNat a 8
  let len := c.dramNat (a + 8) 4
  if len == 0 || decide (c.bsSize n < pos + 16 + len) then none
  else some { slot := n, key := cap % 2 ^ 32, arrival := shortStamp c.clk, supplied := some cap, incomplete := false, lost := 0,
              addr := a + 16, len := len }

/-- PICTURE_JOB_BUILD (R173): base firmware takes up context `x`'s next access unit: the oldest that its slot has handed to
decoding, or a playback slot's next one in its bitstream buffer (R161). -/
def execPictureJobBuild (t : Stamp) (ctx : Nat) (p : ParsedPicture) (s : State) : Host.Outcome State Fault Refusal :=
  runIf (decide (ctx < 256)) (fun c =>
    let c := c.at t
    let n := c.decSlot ctx
    if !c.bit (R.vdcCtx ctx) 31 then c
    else if c.slotKind n == 1 then
      match c.aus.find? (fun a => a.slot == n) with
      | none => c
      | some a =>
        let c := { c with aus := c.aus.erase a }
        c.takeUnit ctx { slot := n, key := a.ts, arrival := a.arrival, supplied := c.netCapture n a.ts a.arrival,
                         incomplete := !a.whole, lost := a.missing, addr := a.addr, len := a.len } p
    else if c.slotKind n == 6 then
      match c.playbackUnit n with
      | none => c
      | some u => (c.modSlot n (fun s => { s with bsPos := s.bsPos + 16 + u.len })).takeUnit ctx u p
    else c) s

/-! ### Encode contexts -/

/-- Every encode context starts with nothing coded. -/
def encDefault : Nat → EncCtx := fun _ => {}

/-- Encode context `x`. -/
def Chip.encCtx (c : Chip) (x : Nat) : EncCtx := mapGet encDefault c.enc x

/-- Encode context `x` changes. -/
def Chip.modEnc (c : Chip) (x : Nat) (f : EncCtx → EncCtx) : Chip := { c with enc := mapMod encDefault c.enc x f }

/-- PER in ns (R189). -/
def Chip.encPer (c : Chip) (x : Nat) : Nat := c.fld (R.vecCtxPeriod x) 19 0 * nsPerUs

/-- R194: a QP within [QP_MIN, QP_MAX]. -/
def Chip.clampQp (c : Chip) (x : Nat) (qp : Int) : Nat :=
  (clampInt (c.fld (R.vecCtxRc x) 29 24 : Nat) (c.fld (R.vecCtxRc x) 21 16 : Nat) qp).toNat

/-- R194: the fullness before a picture: it restarts at half of the buffer at each periodic IDR. -/
def Chip.encFullness (c : Chip) (x : Nat) (j : EncJob) : Nat :=
  if j.periodic then j.rate * c.fld (R.vecCtxVbv x) 13 0 / 2 else (c.encCtx x).fullness

/-- R194: the QP of a picture. -/
def Chip.encQp (c : Chip) (x : Nat) (j : EncJob) : Nat :=
  let delta : Int := if j.idr then (c.fld (R.vecCtxRc x) 3 0 : Nat) else 0
  if c.bit (R.vecCtxRc x) 31 then
    let vbv := j.rate * c.fld (R.vecCtxVbv x) 13 0
    c.clampQp x ((j.qpBase : Int) + (8 * c.encFullness x j / vbv : Nat) - 4 - delta)
  else c.clampQp x ((j.qpBase : Int) - delta)

/-- R194: the fullness after a picture of `bits` bits. -/
def Chip.encAfter (c : Chip) (x : Nat) (j : EncJob) (bits : Nat) : Nat :=
  c.encFullness x j + bits - j.rate * c.encPer x / 1000000

/-- R175: the words of an encode job of context `x` that codes its picture number `n`. It carries its capture stamp in place of the
deadline that the manual does not give it (log 15). -/
def Chip.encWords (c : Chip) (x n : Nat) (j : EncJob) (result : Option (Nat × Nat × Stamp × Stamp × Nat)) : List Nat :=
  let r := c.frameRec j.slot j.buf
  let first := c.fld (R.vecCtxRefs x) 26 16
  let out := Config.encodeSpace x n
  jobWords
    (x * 2 ^ 24 + 2 ^ 23 + (if c.bit (R.vecCtx x) 30 then 2 ^ 22 else 0) + (if j.idr then 2 ^ 20 else 2 ^ 15) +
      c.fld (R.vecCtx x) 27 25 * 2 ^ 12 + 2 ^ 11)
    ((first + n % 2) * 1024) j.cap j.cap r.arrival r.seq out.1 out.2 (Config.paramBlock 1 x n)
    (if j.idr then [] else [(first + (n + 1) % 2) % 2048]) result

/-! ### Engines (R179) -/

/-- A job of R179's order: virtual, class, deadline, context. -/
structure Ready where
  virt : Bool
  cls : Nat
  deadline : Stamp
  ctx : Nat
  deriving DecidableEq, Repr

/-- R179: job `a` is taken before job `b`. -/
def Ready.before (a b : Ready) : Bool :=
  if a.virt != b.virt then !a.virt
  else if !a.virt && a.cls != b.cls then decide (a.cls < b.cls)
  else if a.deadline != b.deadline then decide (stampGap a.deadline b.deadline < 0)
  else decide (a.ctx < b.ctx)

/-- The job of a list that R179 takes first. -/
def firstReady : List Ready → Option Ready
  | [] => none
  | a :: rest => match firstReady rest with
    | none => some a
    | some b => if b.before a then some b else some a

/-- The ready decode jobs: a context's oldest unfinished job that does not run. -/
def Chip.readyDec (c : Chip) : List Ready :=
  c.dec.filterMap (fun e => match e.2.jobs with
    | j :: _ => if j.running.isNone then
        some { virt := decide (128 ≤ e.1), cls := j.cls, deadline := j.deadline, ctx := e.1 } else none
    | [] => none)

/-- The ready encode jobs; the manual gives them no deadline, and their capture stamps order them (log 15). -/
def Chip.readyEnc (c : Chip) : List Ready :=
  c.enc.filterMap (fun e => match e.2.jobs with
    | j :: _ => if j.running.isNone then
        some { virt := false, cls := c.fld (R.vecCtx e.1) 27 25, deadline := j.cap, ctx := e.1 } else none
    | [] => none)

/-- The decode context whose job runs on engine `e`. -/
def Chip.decOn (c : Chip) (e : Nat) : Option Nat :=
  (c.dec.find? (fun d => match d.2.jobs with
    | j :: _ => (match j.running with | some (g, _) => g == e | none => false)
    | [] => false)).map (fun d => d.1)

/-- The encode context whose job runs on engine `e`. -/
def Chip.encOn (c : Chip) (e : Nat) : Option Nat :=
  (c.enc.find? (fun d => match d.2.jobs with
    | j :: _ => (match j.running with | some (g, _) => g == e | none => false)
    | [] => false)).map (fun d => d.1)

/-- R179: decode engine `e` is free: no job runs, and the save after a virtual job is done. -/
def Chip.decFree (c : Chip) (e : Nat) : Bool :=
  (c.decOn e).isNone && (match c.saving.find? (fun s => s.1 == e) with
    | some (_, u) => decide (0 ≤ stampGap c.clk u)
    | none => true)

/-- The front job of a list changes. -/
def onFront {α : Type} (f : α → α) : List α → List α
  | [] => []
  | a :: rest => f a :: rest

/-- R157, R179, R184: decode engine `e` starts context `x`'s job: the frame begins, and a frame without a free buffer is
decoded with DISPOUT 0. -/
def Chip.startDec (c : Chip) (e x : Nat) : Chip :=
  match (c.decCtx x).jobs with
  | [] => c
  | j :: _ =>
    let virt := decide (128 ≤ x)
    let now := c.clk
    let c := (((c.setFld (R.vdcEng e) 31 31 1).setFld (R.vdcEng e) 30 30 (if virt then 1 else 0)).setFld (R.vdcEng e) 7 0 x)
    let c := c.bump (R.vdcEngCnt e 0)
    let c := if virt then c.bump (R.vdcEngCnt e 1) else c
    let (c, b) := if j.display then c.frameBegin j.slot j.key else (c, none)
    let seq := (c.slot j.slot).seq
    let c := match j.outRef with
      | some i => if c.bufOrder x i == j.order then c.putMark i { c.markRec i with seq := seq } else c
      | none => c
    let arrival := if c.slotKind j.slot == 6 then shortStamp now else j.arrival
    c.modDec x (fun d => { d with jobs := onFront (fun j => { j with
      seq := seq, outBuf := b, arrival := arrival, running := some (e, now) }) d.jobs })

/-- R179, R194: encode engine `e` starts context `x`'s job, with the QP that the fullness gives. -/
def Chip.startEnc (c : Chip) (e x : Nat) : Chip :=
  let now := c.clk
  let c := ((c.setFld (R.vecEng e) 31 31 1).setFld (R.vecEng e) 7 0 x).bump (R.vecEngCnt e 0)
  c.modEnc x (fun d => { d with jobs := onFront (fun j => { j with
    qp := c.encQp x j, running := some (e, now) }) d.jobs })

/-! ### Streams sent -/

/-- Every stream starts with no number. -/
def txDefault : Nat → TxStream := fun _ => {}

/-- Stream `st`. -/
def Chip.txStream (c : Chip) (st : Nat) : TxStream := mapGet txDefault c.txs st

/-- Stream `st` changes. -/
def Chip.modTx (c : Chip) (st : Nat) (f : TxStream → TxStream) : Chip := { c with txs := mapMod txDefault c.txs st f }

/-- The enabled stream that carries encode context `x` (R164). -/
def Chip.streamOf (c : Chip) (x : Nat) : Option Nat :=
  (List.range 32).find? (fun st => c.bit (R.netTx st) 31 && c.fld (R.netTx st) 24 20 == x)

/-- The number that the twin has given for a stream's bucket (R361). -/
def Chip.twinNumber (c : Chip) (st bucket : Nat) : Option Nat :=
  (c.twn.seqs.find? (fun e => e.stream == st && e.bucket == bucket)).map (fun e => e.number)

/-- R361: numbers for access units in order: each starts where the one before ends; without a number, an IDR bucket takes
the twin's. -/
def numberUnits (twin : Nat → Option Nat) : Option Nat → List TxAu → List TxAu × Option Nat
  | next, [] => ([], next)
  | next, a :: rest =>
    let first := match a.first with
      | some n => some n
      | none => match next with
        | some n => some n
        | none => if a.idr then twin a.bucket else none
    let next' := match first with | some n => some ((n + a.payloads.length) % 65536) | none => none
    let (l, last) := numberUnits twin next' rest
    ({ a with first := first } :: l, last)

/-- Own numbers of IDR buckets that a queue holds. -/
def ownNumbers (l : List TxAu) : List (Nat × Nat) :=
  l.filterMap (fun a => if a.idr then a.first.map (fun n => (a.bucket, n)) else none)

/-- R361: event 0x100B where the twin's number and the own one for a bucket differ; the part with the lower claim then
sends nothing until the next IDR bucket, and takes its number from the twin. -/
def Chip.checkSeq (c : Chip) (st bucket : Nat) : Chip :=
  let x := c.txStream st
  match c.twinNumber st bucket, x.own.find? (fun o => o.1 == bucket) with
  | some n, some o =>
    if n == o.2 then c
    else
      let c := c.event 0x100B .room [.val 1 st, .val 8 bucket, .val 2 o.2, .val 2 n]
      if c.ownClaim < (c.reg R.twnClaimTwin).toNat then
        ({ c with twn := { c.twn with seqs := c.twn.seqs.filter (fun e => !(e.stream == st && decide (e.bucket ≤ bucket))) } } : Chip).modTx
          st (fun x => { x with next := none, queue := [], seqDue := [] })
      else c
  | _, _ => c

/-- R361: the queue of stream `st` is numbered anew. -/
def Chip.renumber (c : Chip) (st : Nat) : Chip :=
  let x := c.txStream st
  let r := numberUnits (c.twinNumber st) (match x.queue with | [] => x.next | a :: _ => match a.first with
    | some n => some n
    | none => x.next) x.queue
  let new := (ownNumbers r.1).filter (fun o => !x.own.any (fun p => p.1 == o.1))
  let c := c.modTx st (fun x => { x with queue := r.1, next := r.2, own := x.own ++ new })
  forL new (fun o c => c.checkSeq st o.1) c

/-- R361: a due SEQ leaves once the first number of its bucket is known: no earlier job of the context is unfinished. -/
def Chip.sendSeq (c : Chip) (st x : Nat) : Chip :=
  let s := c.txStream st
  match s.seqDue with
  | [] => c
  | k :: rest =>
    let early := (c.encCtx x).jobs.any (fun j => decide (j.bucket < k))
    if early then c
    else
      let c := c.modTx st (fun s => { s with seqDue := rest })
      match s.next with
      | some n =>
        let c := c.bolSend 7 (leBytes 1 st ++ [0, 0, 0] ++ leBytes 8 k ++ leBytes 2 n ++ [0, 0])
        (c.modTx st (fun s => { s with own := s.own ++ [(k, n)] })).checkSeq st k
      | none => c

/-- RFC 6184 (FU-A) and RFC 7798: the fragments of a NAL unit's body, each with its indication of start and end. -/
def fragments (hdr : List Byte) (type : Nat) : Bool → List (List Byte) → List (List Byte)
  | _, [] => []
  | start, [a] => [hdr ++ [BitVec.ofNat 8 ((if start then 128 else 0) + 64 + type)] ++ a]
  | start, a :: rest => (hdr ++ [BitVec.ofNat 8 ((if start then 128 else 0) + type)] ++ a) :: fragments hdr type false rest

/-- R163: the RTP payloads of a NAL unit, of at most `size` bytes: a single NAL unit packet, or fragmentation units. -/
def nalPayloads (h265 : Bool) (size : Nat) (nal : List Byte) : List (List Byte) :=
  if nal.length ≤ size then [nal]
  else
    let b0 := leAt nal 0 1
    if h265 then
      let hdr : List Byte := [BitVec.ofNat 8 (b0 / 128 * 128 + 49 * 2 + b0 % 2), nal.getD 1 0]
      let body := nal.drop 2
      fragments hdr (b0 / 2 % 64) true (chunks (size - 3) body.length body)
    else
      let hdr : List Byte := [BitVec.ofNat 8 (b0 / 32 * 32 + 28)]
      let body := nal.drop 1
      fragments hdr (b0 % 32) true (chunks (size - 2) body.length body)

/-- R163, R164: an access unit of context `x` is ready. -/
def Chip.unitReady (c : Chip) (x : Nat) (j : EncJob) (nals : List (List Byte)) : Chip :=
  match c.streamOf x with
  | none => c
  | some st =>
    let size := c.fld (R.netTxSeq st) 13 0
    let au : TxAu := {
      bucket := j.bucket, idr := j.idr, cap := j.cap, ready := shortStamp c.clk,
      payloads := nals.flatMap (nalPayloads (c.bit (R.vecCtx x) 30) size), first := none, sent := 0 }
    let known := (c.txStream st).next
    let c := c.modTx st (fun s => { s with queue := s.queue ++ [{ au with first := known }] })
    (c.renumber st).sendSeq st x

/-- R163: the RTP timestamp of a stamp. -/
def rtpStamp (t : Stamp) : Nat := t * 9 / 100000 % 2 ^ 32

/-- R149: the header extension with the part's claim. -/
def Chip.claimExt (c : Chip) : List Byte :=
  [0xBE, 0xDE, 0, 2, BitVec.ofNat 8 (c.fld R.netClaim 3 0 * 16 + 3)] ++ beBytes 4 c.ownClaim ++ [0, 0, 0]

/-- R138, R164: a message of stream `st` leaves on its legs, from the interface address of the leg's sub-port, to the data port or the
port above it. -/
def Chip.sendLegs (c : Chip) (st : Nat) (rtcp : Bool) (payload : Nat → List Byte) : Chip :=
  forN (if c.bit (R.netTx st) 30 then 2 else 1) (fun l c =>
    let r := R.netTxLeg st l
    let p := c.fld r 31 31
    let sub := c.subOf p (c.fld r 30 29)
    let own := c.netIf p sub
    c.netSend p sub (.udp p sub (c.fld r 27 16) (c.bit r 28) (if c.bit r 28 then own.ipv6 else own.ipv4)
      (c.addrOf (c.bit r 28) (fun i => R.netTxDaddr st l i)) (c.fld r 15 0 + if rtcp then 1 else 0)
      (c.fld (R.netTx st) 5 0) (payload l))) c

/-- R349: the part is muted. -/
def Chip.muted (c : Chip) : Bool := c.bit R.twnStat 6 && !c.leader && c.bit R.twnCfg 30

/-- R164: the release time of packet `i` of an access unit of stream `st`. -/
def Chip.releaseAt (c : Chip) (st : Nat) (a : TxAu) (i : Nat) : Stamp :=
  let due := (a.cap + (c.reg (R.netTxDelay st)).toNat * nsPerUs) % 2 ^ 64
  stampMax due a.ready + i * (c.reg (R.netTxSpacing st)).toNat

/-- R163, R164: the next packet of stream `st` leaves. -/
def Chip.releasePacket (c : Chip) (st : Nat) (a : TxAu) (first : Nat) : Chip :=
  let due := (a.cap + (c.reg (R.netTxDelay st)).toNat * nsPerUs) % 2 ^ 64
  let late := stampGap a.ready due
  let c := if a.sent == 0 && decide (0 < late) then
      c.eventLimited st 0x2006 .room [.val 1 st, .val 4 (rtpStamp a.cap), .val 4 (late.toNat / nsPerUs), .occ]
    else c
  let body := a.payloads.getD a.sent []
  let last := a.sent + 1 == a.payloads.length
  let pkt := [0x90, BitVec.ofNat 8 ((if last then 128 else 0) + c.fld (R.netTx st) 15 9)] ++
    beBytes 2 ((first + a.sent) % 65536) ++ beBytes 4 (rtpStamp a.cap) ++ beBytes 4 (c.reg (R.netTxSsrc st)).toNat ++
    c.claimExt ++ body
  let c := if c.muted then c
    else (c.sendLegs st false (fun _ => pkt)).modTx st (fun s => { s with
      packets := s.packets + 1, octets := s.octets + body.length })
  c.modTx st (fun s => { s with
    queue := if last then s.queue.drop 1 else onFront (fun b => { b with sent := b.sent + 1 }) s.queue })

/-- PACKET_RELEASE (R163, R164): the next packet of stream `st`, when its release time has come. -/
def execPacketRelease (t : Stamp) (st : Nat) (s : State) : Host.Outcome State Fault Refusal :=
  runIf (decide (st < 32)) (fun c =>
    let c := c.at t
    match (c.txStream st).queue with
    | [] => c
    | a :: _ =>
      if c.bit (R.netTx st) 31 && decide (0 ≤ stampGap c.clk (c.releaseAt st a a.sent)) then
        match a.first with
        | some n => c.releasePacket st a n
        | none => c.modTx st (fun s => { s with queue := s.queue.drop 1 })
      else c) s

/-- CLAIM_HEARTBEAT_SEND (R150, R164): at a whole millisecond of Muith time. -/
def execClaimHeartbeatSend (t : Stamp) (s : State) : Host.Outcome State Fault Refusal :=
  runIf true (fun c =>
    let c := c.at t
    if c.clk % nsPerMs == 0 && c.isSealed then
      forN 32 (fun st c =>
        if c.bit (R.netTx st) 31 then
          c.sendLegs st true (fun l => [0x80, 0xCC, 0, 6] ++ beBytes 4 (c.reg (R.netTxSsrc st)).toNat ++
            [0x53, 0x50, 0x43, 0x4C] ++ beBytes 4 c.ownClaim ++ beBytes 8 (shortStamp c.clk) ++
            leBytes 1 c.partIndex ++ leBytes 1 l ++ [0, 0])
        else c) c
    else c) s

/-- SENDER_REPORT_SEND (R164): at a whole second of Muith time. -/
def execSenderReportSend (t : Stamp) (s : State) : Host.Outcome State Fault Refusal :=
  runIf true (fun c =>
    let c := c.at t
    if c.clk % nsPerS == 0 && c.isSealed then
      let ntp : Int := (c.clk / nsPerS : Nat) - c.utcOffset + 2208988800
      forN 32 (fun st c =>
        if c.bit (R.netTx st) 31 then
          let x := c.txStream st
          c.sendLegs st true (fun _ => [0x80, 200, 0, 6] ++ beBytes 4 (c.reg (R.netTxSsrc st)).toNat ++
            beBytes 4 (twosOf 32 ntp) ++ beBytes 4 0 ++ beBytes 4 (rtpStamp c.clk) ++ beBytes 4 (x.packets % 2 ^ 32) ++
            beBytes 4 (x.octets % 2 ^ 32))
        else c) c
    else c) s

/-- SEQ_RECEIVE (R338, R361): the twin's first number of a bucket. -/
def execSeqReceive (t : Stamp) (msg : List Byte) (s : State) : Host.Outcome State Fault Refusal :=
  runIf (decide (msg.length = 16) && decide (leAt msg 0 1 < 32)) (fun c =>
    let c := c.at t
    let st := leAt msg 0 1
    let k := leAt msg 4 8
    let new : SeqEntry := { stream := st, bucket := k, number := leAt msg 12 2 }
    if !c.twinOn then c
    else (({ c with twn := { c.twn with seqs := c.twn.seqs ++ [new] } } : Chip).checkSeq st k).renumber st) s

/-! ### Buckets (R189, R190, R195) -/

/-- R189: the buffer of slot `n` that a bucket [`a`, `b`) takes. -/
def Chip.bucketFrame (c : Chip) (n : Nat) (a b : Stamp) : Option Nat :=
  c.newestBuf n ((List.range (c.slotNbuf n)).filter (fun i =>
    let r := c.frameRec n i
    r.code == 2 && r.elig != 0 && decide (0 < stampGap c.clk r.elig) && !r.twinLost && decide (a ≤ r.cap) &&
      decide (r.cap < b) && c.present n i))

/-- R195: the set that bucket `k` of context `x` takes. -/
def Chip.setFor (c : Chip) (x k : Nat) : Option EncSet :=
  match (c.encCtx x).armed with
  | some s => if decide (s.apply ≤ k * c.encPer x) && decide (0 < stampGap c.clk s.armedAt) then some s else none
  | none => none

/-- R195: bucket `k` takes set `s`: its event, APPLIED, and the settings it carries. -/
def Chip.applySet (c : Chip) (x k : Nat) (s : EncSet) : Chip :=
  let late := decide (0 < k) && decide (s.apply ≤ (k - 1) * c.encPer x)
  let c := (c.setFld (R.vecCtxStat x) 8 8 0).setNat (R.vecCtxApplied x) (k % 2 ^ 32)
  let c := c.modEnc x (fun d => { d with
    armed := none, qpBase := match s.qp with | some q => some q | none => d.qpBase,
    rate := match s.rate with | some r => some r | none => d.rate, gv := s.gv.getD d.gv })
  if late then (c.bump (R.vecCtxCnt x 2)).event 0x4802 .room [.val 1 x, .val 8 k]
  else c.event 0x4803 .room [.val 1 x, .val 8 k]

/-- R189, R190: bucket `k` of context `x` codes the frame in buffer `i`. -/
def Chip.codeBucket (c : Chip) (x k n i : Nat) (twinRuns : Bool) : Chip :=
  let set := c.setFor x k
  let c := match set with | some s => c.applySet x k s | none => c
  let periodic := k % c.fld (R.vecCtxGop x) 15 0 == 0
  let idr := periodic || (match set with | some s => s.idr | none => false)
  let d := c.encCtx x
  let job : EncJob := {
    bucket := k, slot := n, buf := i, cap := (c.frameRec n i).cap, idr := idr, periodic := periodic,
    qpBase := d.qpBase.getD (c.fld (R.vecCtxRc x) 13 8), rate := d.rate.getD (c.fld (R.vecCtxRate x) 18 0), gv := d.gv, qp := 0,
    running := none }
  let first := !d.started
  let c := (c.modBuf n i (fun b => { b with jobs := b.jobs + 1 })).modEnc x (fun d => { d with
    jobs := d.jobs ++ [job], started := true, ring := ringPut d.ring k (c.encWords x (d.coded + d.jobs.length) job none) })
  let c := c.setFld (R.vecCtxStat x) 1 0 2
  match c.streamOf x with
  | none => c
  | some st =>
    let c := if first && !(c.paired && twinRuns) then
        c.modTx st (fun s => { s with next := some (c.fld (R.netTxSeq st) 31 16) })
      else c
    if idr && c.paired then (c.modTx st (fun s => { s with seqDue := s.seqDue ++ [k] })).sendSeq st x else c

/-- BUCKET_TAKE (R189): the take time of a bucket of context `x`: the frame of the bucket is taken, or the bucket is
skipped. `twinRuns` tells whether the twin runs the context's stream (R361). -/
def execBucketTake (t : Stamp) (ctx : Nat) (twinRuns : Bool) (s : State) : Host.Outcome State Fault Refusal :=
  runIf (decide (ctx < 32)) (fun c =>
    let c := c.at t
    let per := c.encPer ctx
    let wait := c.fld (R.vecCtxInwait ctx) 18 0 * nsPerUs
    let k := (c.clk - wait) / per
    let takes := c.isSealed && c.bit (R.vecCtx ctx) 31 && decide (0 < per) && decide (k * per + wait = c.clk)
    if !takes || (!(c.encCtx ctx).started && k % c.fld (R.vecCtxGop ctx) 15 0 != 0) then c
    else
      let c := c.setNat (R.vecCtxBucket ctx) (k % 2 ^ 32)
      let n := c.fld (R.vecCtx ctx) 15 8
      match c.bucketFrame n (k * per) ((k + 1) * per) with
      | some i => c.codeBucket ctx k n i twinRuns
      | none => ((c.bump (R.vecCtxCnt ctx 1)).publish (R.vecCtxRes ctx)).eventLimited ctx 0x4801 .room
          [.val 1 ctx, .val 8 k, .occ]) s

/-- R195: the cause that refuses ARM; 0 for none. -/
def Chip.armCause (c : Chip) (x : Nat) : Nat :=
  if !c.bit (R.vecCtx x) 31 then 1 else if (c.encCtx x).armed.isSome then 2 else 0

/-- R195: a write of CMD to `VEC_CTX[x]`. -/
def Chip.encCommand (c : Chip) (src : Source) (x cmd : Nat) : Chip :=
  if cmd == 1 then
    let cause := c.armCause x
    if cause != 0 then c.refuse src (R.vecCtxCmd x) (cmdWord cmd) cause
    else
      let w := R.vecCtxPend x
      let set : EncSet := {
        idr := c.bit w 31,
        qp := if c.bit w 30 then some (c.fld w 5 0) else none,
        rate := if c.bit w 29 then some (c.fld (R.vecCtxPrate x) 18 0) else none,
        gv := if c.bit w 28 then some (c.sfld (R.vecCtxGv x) 15 0, c.sfld (R.vecCtxGv x) 31 16) else none,
        apply := c.wide (R.vecCtxApplyLo x) (R.vecCtxApplyHi x), armedAt := c.clk }
      (c.setFld (R.vecCtxStat x) 8 8 1).modEnc x (fun d => { d with armed := some set })
  else c

/-- ARM (R195). -/
def execArm (t : Stamp) (src : Source) (ctx : Nat) (s : State) : Host.Outcome State Fault Refusal :=
  runIf (decide (ctx < 32)) (fun c => (c.at t).encCommand src ctx 1) s

/-! ### The end of a job -/

/-- R185, R187: runs of samples of `n` bytes are written with 1 << (bit depth − 1), by offset and number of samples. -/
def Chip.fillRuns (c : Chip) (base n depth : Nat) (l : List (Nat × Nat)) : Chip :=
  forL l (fun (r : Nat × Nat) (c : Chip) => c.dramWrite (base + r.1) ((List.replicate r.2 (leBytes n (2 ^ (depth - 1)))).flatten)) c

/-- R181, R184 to R187: decode engine `e`'s job of context `x` ends. -/
def Chip.endDec (c : Chip) (e x : Nat) (j : PicJob) (r : JobResult) : Chip :=
  let bad := j.refs.filter (fun q => q.missing || q.taint)
  let own := j.cause ||| r.cause
  let cause := bad.foldl (fun a q => a ||| q.cause) (if bad.isEmpty then own else own ||| 2)
  let code := if j.incomplete then 6 else if cause != 0 then 5 else 2
  let c := match j.outRef with
    | some i =>
      (forL r.recon (fun (b : Nat × List Byte) (c : Chip) => c.dramWrite (c.poolAddr i + b.1) b.2) c).fillRuns (c.poolAddr i)
        (if 8 < j.depth then 2 else 1) j.depth r.fillRecon
    | none => c
  let c := match j.outBuf with
    | some i =>
      ((forL r.disp (fun (b : Nat × List Byte) (c : Chip) => c.dramWrite (c.bufAddr j.slot i + b.1) b.2) c).fillRuns
        (c.bufAddr j.slot i) (fmtBytes (c.bufPic j.slot i).fmt) j.depth r.fillDisp).frameFinish j.slot i code cause j.arrival
        j.supplied j.lost
    | none => c
  let cap := match j.outBuf with
    | some i => (c.frameRec j.slot i).cap
    | none => (c.captureStamp j.slot j.arrival j.supplied).2.1
  let tainted := code != 2
  let c := match j.outRef with
    | some i =>
      if c.bufOrder x i == j.order then c.putMark i { c.markRec i with taint := tainted, cause := cause } else c
    | none => c
  let told (q : JobRef) : JobRef :=
    if q.order == j.order && !q.missing then { q with taint := tainted, cause := cause } else q
  let c := c.modDec x (fun d => { d with jobs := (d.jobs.drop 1).map (fun k => { k with refs := k.refs.map told }) })
  let c := c.bump (R.vdcCtxCnt x 0)
  let c := c.followTaint x
  let c := if code == 2 then c
    else (c.bump (R.vdcCtxCnt x 1)).modDec x (fun d => { d with impaired := d.impaired + 1 })
  let c := if own == 0 then c
    else (c.bump (R.vdcCtxCnt x 5)).eventLimited x 0x4001 .room [.val 1 x, .val 1 j.slot, .val 4 j.seq, .val 1 cause, .occ]
  let c := ((c.setFld (R.vdcCtxStat x) 15 8 cause).setWide (R.vdcCtxLastcLo x) (R.vdcCtxLastcHi x) cap).publish
    (R.vdcCtxRes x)
  let late := stampGap c.clk j.deadline
  let c := if decide (0 < late) then
      ((c.bump (R.vdcCtxCnt x 4)).bump (R.vdcEngCnt e 2)).eventLimited x 0x4005 .room
        [.val 1 x, .val 4 (late.toNat / nsPerUs), .occ]
    else c
  let start := match j.running with | some (_, t) => t | none => c.clk
  let c := c.putRing x j.order (j.words x cap (some (cause, code, start, c.clk, e)))
  let c := ((c.setFld (R.vdcEng e) 31 30 0).setFld (R.vdcEng e) 7 0 0)
  if 128 ≤ x then
    { c with saving := (e, c.clk + 6 * nsPerUs) :: c.saving.filter (fun s => s.1 != e) }
  else c

/-- R171, R174, R190 to R193, R196: what an engine makes of job `j` of context `x`: the blocks of its picture, and the coded picture.
The previous coded picture lies in the other of the context's two reference buffers (R182). -/
def Chip.encodeJob (c : Chip) (x : Nat) (j : EncJob) : List BlockMode × Config.EncPicture :=
  let s := c.encSettings x
  let d := c.encCtx x
  let p := c.bufPic j.slot j.buf
  let ref := poolPic (c.poolAddr (c.fld (R.vecCtxRefs x) 26 16 + (d.coded + 1) % 2)) s.profile p
  let modes := c.encModes s p ref j.idr j.qp j.gv d.field
  (modes, c.encPicture s p ref j.idr j.qp modes)

/-- R182: the reference buffer of context `x` that takes the reconstruction of job `j`. -/
def Chip.reconPic (c : Chip) (x : Nat) (j : EncJob) : Pic :=
  poolPic (c.poolAddr (c.fld (R.vecCtxRefs x) 26 16 + (c.encCtx x).coded % 2)) (c.encSettings x).profile (c.bufPic j.slot j.buf)

/-- R189, R194: encode engine `e`'s job of context `x` ends: its reconstruction, its count, the fullness, and its access
unit. -/
def Chip.endEnc (c : Chip) (e x : Nat) (j : EncJob) : Chip :=
  let n := (c.encCtx x).coded
  let (modes, pic) := c.encodeJob x j
  let nals := codedNals pic
  let out := c.reconPic x j
  let c := c.dramWrite out.base (reconBytes pic (frameBytes out.fmt out.w out.h))
  let bits := 8 * (nals.map (fun n => n.length)).sum
  let after := c.encAfter x j bits
  let start := match j.running with | some (_, t) => t | none => c.clk
  let c := c.modEnc x (fun d => { d with
    jobs := d.jobs.drop 1, fullness := after, coded := d.coded + 1, field := modes,
    ring := ringPut d.ring j.bucket (c.encWords x n j (some (0, 2, start, c.clk, e))) })
  let c := c.modBuf j.slot j.buf (fun b => { b with jobs := b.jobs - 1 })
  let c := ((c.bump (R.vecCtxCnt x 0)).setFld (R.vecCtxStat x) 7 2 j.qp).publish (R.vecCtxRes x)
  let c := (c.setFld (R.vecEng e) 31 30 0).setFld (R.vecEng e) 7 0 0
  c.unitReady x j nals

/-- ENGINE_JOB_END (R168, R174, R175, R181): the job that runs on an engine ends with what the engine made of it. -/
def execEngineJobEnd (t : Stamp) (encode : Bool) (e : Nat) (r : JobResult) (s : State) :
    Host.Outcome State Fault Refusal :=
  runIf (decide (e < if encode then 4 else 8) && decide (r.cause < 16) && r.cause &&& 2 == 0) (fun c =>
    let c := c.at t
    if encode then
      match c.encOn e with
      | none => c
      | some x => match (c.encCtx x).jobs with
        | [] => c
        | j :: _ => c.endEnc e x j
    else
      match c.decOn e with
      | none => c
      | some x => match (c.decCtx x).jobs with
        | [] => c
        | j :: _ => c.endDec e x j r) s

end Sys2Proof.Machine
end

