-- ==== Sys2Proof/Machine/Protection.lean ====
section
/-! DEFINITION. Protection units (R393 to R413): the check of an access, the violation record, and the change of rules. -/

namespace Sys2Proof.Machine

/-! ### The check (R395 to R400) -/

/-- R393: protection units. -/
def pruUnits : Nat := 24

/-- The current copy of unit `u`'s `PRU_CTL`. -/
def Chip.pruCtlNow (c : Chip) (u : Nat) : Nat := mapGet (fun _ => 0) c.pruCur u

/-- R395, R396: current region `r` of unit `u` contains address `a`. -/
def Chip.regionHolds (c : Chip) (u r a : Nat) : Bool :=
  let log := clampNat 15 40 (c.fld (R.pruRgnSizeCur u r) 21 16)
  let base := c.fld (R.pruRgnBaseCur u r) 31 12 * 4096 + c.fld (R.pruRgnSizeCur u r) 7 0 * 2 ^ 32
  let sub := a % 2 ^ log / 2 ^ (log - 3)
  c.bit (R.pruRgnAttrCur u r) 31 && a / 2 ^ log == base / 2 ^ log && !c.bit (R.pruRgnAttrCur u r) (16 + sub)

/-- R396: the region that decides: the highest-numbered that contains the address. -/
def Chip.deciding (c : Chip) (u a : Nat) : Option Nat :=
  (List.range 64).reverse.find? (fun r => c.regionHolds u r a)

/-- R397: the key of an access. -/
def Chip.accessKey (c : Chip) (a : Access) : Nat :=
  if a.unit == 0 then c.fld R.pruHkey (4 * a.source + 3) (4 * a.source) else c.pruCtlNow a.unit % 16

/-- The offset of the current colour tag table in the table windows (R504). -/
def twTagNow : Nat := 0x1DA0000

/-- R398, R510: the current tag of the granule that holds a DRAM offset. -/
def Chip.tagOf (c : Chip) (ofs : Nat) : Nat :=
  let g := ofs / 65536
  c.tbwNat (twTagNow + g / 2) 1 / (if g % 2 == 0 then 1 else 16) % 16

/-- R502: the access has a shape that its window takes. -/
def Chip.shapeOk (c : Chip) (a len : Nat) : Bool :=
  match placeOf c.dramCap a with
  | .register => a % 4 == 0 && len == 4
  | .unmapped => false
  | _ => true

/-- R400: the cause at which an enabled unit faults an access; 0 for none. -/
def Chip.checkCause (c : Chip) (a : Access) : Nat :=
  let core := a.unit == 0 || a.unit == 1
  let user := a.unit == 0 && a.user
  let key := c.accessKey a
  let rgn := c.deciding a.unit a.addr
  let attr (b : Nat) : Bool := match rgn with | some r => c.bit (R.pruRgnAttrCur a.unit r) b | none => b == 30 || b == 29
  let colour := match rgn with | some r => c.fld (R.pruRgnAttrCur a.unit r) 3 0 | none => 0
  if !c.shapeOk a.addr a.len then 1
  else if user && key == 0 then 2
  else if rgn.isNone && (!core || user) then 3
  else if !attr (if a.kind == 0 then 30 else if a.kind == 1 then 29 else 28) || (user && !attr 27) then 4
  else if rgn.isSome && key != 0 && key != colour then 5
  else if decide (dramBase ≤ a.addr) && key != 0 && key != c.tagOf (a.addr - dramBase) then 6
  else 0

/-- R404: a violation fills its unit's record. -/
def Chip.fillRecord (c : Chip) (v : Violation) : Chip :=
  let u := v.unit
  let user := if v.user then 1 else 0
  let c := c.setNat (R.pruFrec u) (2 ^ 31 + v.cause * 2 ^ 24 + v.kind * 2 ^ 20 + user * 2 ^ 19 + v.key * 2 ^ 12 + v.source)
  let c := c.setWide (R.pruFrecAddrLo u) (R.pruFrecAddrHi u) v.addr
  let c := c.setWide (R.pruFrecStampLo u) (R.pruFrecStampHi u) (shortStamp v.stamp)
  c.event 0xE001 .room [.val 1 u, .val 1 v.cause, .val 1 v.kind, .val 1 user, .val 1 v.key, .val 1 v.source, .val 8 v.addr]

/-- The record of unit `u` holds a violation of the present edge. -/
def Chip.filledNow (c : Chip) (u : Nat) : Bool :=
  c.bit (R.pruFrec u) 31 && c.wide (R.pruFrecStampLo u) (R.pruFrecStampHi u) == shortStamp c.clk

/-- R405: of two violations, the one with the lower SOURCE, the first where they are equal. -/
def lowerSource (l : List Violation) : Option Violation :=
  l.foldl (fun best v => match best with
    | some b => if v.source < b.source then some v else some b
    | none => some v) none

/-- R404, R405: a violation is counted, and fills an empty record, or takes the place of one of the same edge with a higher SOURCE, whose
event it replaces. -/
def Chip.violation (c : Chip) (a : Access) (cause : Nat) : Chip :=
  let u := a.unit
  let v : Violation := { unit := u, stamp := c.clk, cause := cause, kind := a.kind, user := a.unit == 0 && a.user,
                         key := c.accessKey a, source := a.source, addr := a.addr }
  let c := (({ c with violations := c.violations.filter (fun x => x.unit != u || x.stamp == c.clk) ++ [v] } : Chip)).bump (R.pruFcnt u)
  let later (c : Chip) : Chip := c.eventLimited u 0xE002 .room [.val 1 u, .occ]
  if !c.bit (R.pruFrec u) 31 then c.fillRecord v
  else if c.filledNow u && decide (a.source < c.fld (R.pruFrec u) 7 0) then
    let old (e : Ev) : Bool := e.code == 0xE001 && e.stamp == c.clk && e.content.head? == some (.val 1 u)
    later ((({ c with evq := c.evq.filter (fun e => !old e) } : Chip).syncBacklog).fillRecord v)
  else later c

/-- R405: a write of 1 to VALID of `PRU_FREC[u]`: the clear takes effect before the violations of its edge, which fill the record. -/
def Chip.clearRecord (c : Chip) (u : Nat) : Chip :=
  if c.filledNow u then c
  else
    let c := c.setFld (R.pruFrec u) 31 31 0
    match lowerSource (c.violations.filter (fun v => v.unit == u && v.stamp == c.clk)) with
    | some v => c.fillRecord v
    | none => c

/-- R399, R400: an access is checked: the part with a violation's traces, and whether the access is performed. -/
def Chip.check (c : Chip) (a : Access) : Chip × Bool :=
  if c.pruCtlNow a.unit / 2 ^ 31 % 2 == 0 then (c, true)
  else
    let cause := c.checkCause a
    if cause == 0 then (c, true) else (c.violation a cause, false)

/-- R377, R394: an access to DRAM that its unit checks and the memory controller takes. -/
def Chip.checkDram (c : Chip) (a : Access) : Chip × Bool :=
  let (c, ok) := c.check a
  (if ok then c.refuseBeyond a.group a.addr a.len else c, ok && !c.isBeyond a.addr a.len)

/-! ### Changing rules (R406 to R409) -/

/-- The channel controllers' initial state. -/
def chanDefault : Nat → Chan := fun _ => {}

/-- Units 0 and 1 check as the core issues the access (R394). -/
def coreAccess (a : Access) : Bool := a.unit == 0 || a.unit == 1

/-- Every transaction that has been checked changes, in the controllers and before them. -/
def Chip.modTxns (c : Chip) (f : Txn → Txn) : Chip :=
  { c with mem := { c.mem with
      chans := c.mem.chans.map (fun e => (e.1, { e.2 with queue := e.2.queue.map f })), waiting := c.mem.waiting.map f,
      heldReqs := c.mem.heldReqs.map (fun x => if coreAccess x.access then f x else x) } }

/-- R407: some transaction that has not completed satisfies `p`; a write has completed once its channel controller has accepted it. -/
def Chip.anyTxn (c : Chip) (p : Txn → Bool) : Bool :=
  c.mem.waiting.any p || c.mem.heldReqs.any p || c.mem.chans.any (fun e => e.2.queue.any (fun x => x.access.kind != 1 && p x))

/-- R399, R406: the shadow of unit `u` becomes current; EN, once applied as 1, stays. -/
def Chip.applyRules (c : Chip) (u : Nat) : Chip :=
  let on := decide (2 ^ 31 ≤ c.pruCtlNow u) || c.bit (R.pruCtl u) 31
  let c := { c with pruCur := mapPut (fun _ => 0) c.pruCur u ((if on then 2 ^ 31 else 0) + c.fld (R.pruCtl u) 3 0) }
  let c := forN 64 (fun r c => ((c.setReg (R.pruRgnBaseCur u r) (c.reg (R.pruRgnBase u r))).setReg
    (R.pruRgnSizeCur u r) (c.reg (R.pruRgnSize u r))).setReg (R.pruRgnAttrCur u r) (c.reg (R.pruRgnAttr u r))) c
  let c := c.setFld (R.pruStat u) 15 8 (c.fld (R.pruStat u) 15 8 + 1)
  let c := c.modTxns (fun x => if x.access.unit == u then { x with oldRules := true } else x)
  c.setFld (R.pruStat u) 31 31 (if c.anyTxn (fun x => x.access.unit == u && x.oldRules) then 0 else 1)

/-- R408: a write of CMD to `PRU_CMD[u]`. -/
def Chip.pruCommand (c : Chip) (src : Source) (u cmd : Nat) : Chip :=
  if cmd == 1 then
    if !c.bit (R.pruStat u) 31 then c.refuse src (R.pruCmd u) (cmdWord cmd) 1 else c.applyRules u
  else c

/-- The offset of the shadow colour tag table, and the size of each copy (R504). -/
def twTagShadow : Nat := 0x1D20000
/-- See `twTagShadow`. -/
def twTagSize : Nat := 0x80000

/-- R409: the tag shadow becomes current. -/
def Chip.applyTagTable (c : Chip) : Chip :=
  let kept := c.tbw.filter (fun e => !(decide (twTagNow ≤ e.1) && decide (e.1 < twTagNow + twTagSize)))
  let new := (c.tbw.filter (fun e => decide (twTagShadow ≤ e.1) && decide (e.1 < twTagShadow + twTagSize))).map
    (fun e => (e.1 - twTagShadow + twTagNow, e.2))
  let c := { c with tbw := new.foldl (fun m (e : Nat × Byte) => mapPut tbwDefault m e.1 e.2) kept }
  let c := (c.setFld R.pruGstat 15 8 (c.fld R.pruGstat 15 8 + 1)).setFld R.pruGstat 30 30 1
  let c := c.modTxns (fun x => { x with oldTags := true })
  c.setFld R.pruGstat 31 31 (if c.anyTxn (fun x => x.oldTags) then 0 else 1)

/-- R408: a write of CMD to `PRU_GCMD`. -/
def Chip.tagCommand (c : Chip) (src : Source) (cmd : Nat) : Chip :=
  if cmd == 1 then
    let cause := if !c.bit R.pruGstat 31 then 1 else if c.bit R.pruGstat 30 then 2 else 0
    if cause != 0 then c.refuse src R.pruGcmd (cmdWord cmd) cause else c.applyTagTable
  else c

/-- R398, R510: bytes of the tag shadow at an offset of the window, without those of granules beyond the capacity. -/
def Chip.writeTags (c : Chip) (o : Nat) (l : List Byte) : Chip :=
  c.tbwWrite o (l.take (twTagShadow + c.dramCap / 131072 - o))

/-! ### The commands -/

/-- CLEAR_VIOLATION_RECORD (R405): a write of 1 to VALID of `PRU_FREC[u]`. -/
def execClearViolationRecord (t : Stamp) (u : Nat) (s : State) : Host.Outcome State Fault Refusal :=
  runIf (decide (u < pruUnits)) (fun c => (c.at t).clearRecord u) s

/-- APPLY (R406). -/
def execApply (t : Stamp) (src : Source) (u : Nat) (s : State) : Host.Outcome State Fault Refusal :=
  runIf (decide (u < pruUnits)) (fun c => (c.at t).pruCommand src u 1) s

/-- APPLY_TAGS (R409). -/
def execApplyTags (t : Stamp) (src : Source) (s : State) : Host.Outcome State Fault Refusal :=
  runIf true (fun c => (c.at t).tagCommand src 1) s

/-- ACCESS_DRAIN_COMPLETE (R407, R409): no access that was checked before the last apply point of unit `u`, or before the
last tag apply point, is left. -/
def execAccessDrainComplete (t : Stamp) (u : Option Nat) (s : State) : Host.Outcome State Fault Refusal :=
  runIf (match u with | some u => decide (u < pruUnits) | none => true) (fun c =>
    let c := c.at t
    match u with
    | some u => if c.anyTxn (fun x => x.access.unit == u && x.oldRules) then c else c.setFld (R.pruStat u) 31 31 1
    | none => if c.anyTxn (fun x => x.oldTags) then c else c.setFld R.pruGstat 31 31 1) s

/-- TAG_COPY_DONE (R409): the copy into the shadow ends, and the writes that waited land. -/
def execTagCopyDone (t : Stamp) (s : State) : Host.Outcome State Fault Refusal :=
  runIf true (fun c =>
    let c := c.at t
    if !c.bit R.pruGstat 30 then c
    else
      let l := c.tagHeld
      forL l (fun (e : Nat × List Byte) (c : Chip) => c.writeTags e.1 e.2)
        { c.setFld R.pruGstat 30 30 0 with tagHeld := [] }) s

end Sys2Proof.Machine
end

