-- ==== Sys2Proof/Machine/Memory.lean ====
section
/-! DEFINITION. The memory system (R366 to R392): the address map, regulators, panics and holds, the channel controllers'
queues, refresh, ECC, scrubbing, and the training helpers. -/

namespace Sys2Proof.Machine

/-! ### The address map (R369, R370) -/

/-- The parity of the bits of a number. -/
def parity : Nat → Nat → Nat
  | 0, _ => 0
  | n + 1, v => (v % 2 + parity n (v / 2)) % 2

/-- R370: the parity of the bits of offset `ofs` that a mask selects. -/
def hashBit (mask ofs : Nat) : Nat := parity 30 ((ofs / 64 % 2 ^ 30) &&& mask)

/-- R370: the channel of a DRAM offset. -/
def Chip.channelOf (c : Chip) (ofs : Nat) : Nat :=
  (List.range 4).foldl (fun n i => n + hashBit (c.fld (R.dmcChmask i) 29 0) ofs * 2 ^ i) 0

/-- R370: bank group × 4 + bank of a DRAM offset. -/
def Chip.bankOf (c : Chip) (ofs : Nat) : Nat :=
  (hashBit (c.fld (R.dmcBgmask 0) 29 0) ofs + hashBit (c.fld (R.dmcBgmask 1) 29 0) ofs * 2) * 4 +
    hashBit (c.fld (R.dmcBamask 0) 29 0) ofs + hashBit (c.fld (R.dmcBamask 1) 29 0) ofs * 2

/-- R369: the row of a DRAM offset. -/
def rowOf (ofs : Nat) : Nat := ofs / 2 ^ 19

/-- R369: the column of a DRAM offset. -/
def columnOf (ofs : Nat) : Nat := bitsNat ofs 14 12 * 4 + bitsNat ofs 7 6

/-- R370: the burst's offset with channel, bank, row and column, since each home bit follows from its own parity. -/
def Chip.burstOf (c : Chip) (n bank row col : Nat) : Nat :=
  let base := row * 2 ^ 19 + col / 4 * 2 ^ 12 + col % 4 * 2 ^ 6
  let home (want mask pos : Nat) : Nat := (want + hashBit mask base) % 2 * 2 ^ pos
  base + (List.range 4).foldl (fun s i => s + home (n / 2 ^ i % 2) (c.fld (R.dmcChmask i) 29 0) (8 + i)) 0 +
    (List.range 2).foldl (fun s i => s + home (bank / 4 / 2 ^ i % 2) (c.fld (R.dmcBgmask i) 29 0) (15 + i)) 0 +
    (List.range 2).foldl (fun s i => s + home (bank % 4 / 2 ^ i % 2) (c.fld (R.dmcBamask i) 29 0) (17 + i)) 0

/-! ### Panics and holds (R387, R388) -/

/-- The ports that can panic. -/
inductive PanicPort
  | head (h : Nat)
  | fly (h : Nat)
  | cam (p : Nat)
  | cap (q : Nat)
  deriving DecidableEq, Repr

/-- Bit `i` of a set set or cleared. -/
def putBit (v i : Nat) (on : Bool) : Nat :=
  if on == (v / 2 ^ i % 2 == 1) then v else if on then v + 2 ^ i else v - 2 ^ i

/-- The members of a bit set. -/
def bitCount (v : Nat) : Nat := ((List.range 32).filter (fun i => v / 2 ^ i % 2 == 1)).length

/-- R387: a port that panics. -/
def Mem.panics (m : Mem) : PanicPort → Bool
  | .head h => m.headPanic / 2 ^ h % 2 == 1
  | .fly h => m.flyPanic / 2 ^ h % 2 == 1
  | .cam p => m.camPanic / 2 ^ p % 2 == 1
  | .cap q => m.capPanic / 2 ^ q % 2 == 1

/-- A panic is raised. -/
def Mem.anyPanic (m : Mem) : Bool := m.headPanic != 0 || m.flyPanic != 0 || m.camPanic != 0 || m.capPanic != 0

/-- R385: the rank of a group. -/
def rankOf (group : Nat) : Nat := [1, 2, 2, 3, 4, 5, 6, 6, 7, 8].getD group 8

/-- R387: the access belongs to a port in panic. -/
def Chip.urgent (c : Chip) (a : Access) : Bool :=
  if 2 ≤ a.unit && decide (a.unit ≤ 5) then c.mem.panics (.head a.source)
  else if a.unit == 6 || a.unit == 7 then c.mem.panics (.fly a.source)
  else if a.unit == 13 || a.unit == 14 then c.mem.panics (.cam a.source)
  else if a.unit == 15 then c.mem.panics (.cap a.source)
  else false

/-! ### Regulators (R386) -/

/-- Every bucket is full at reset. -/
def regDefault : Nat → Regulator := fun _ => {}

/-- R386: a request of group `g` enters: its tag, and what it takes. -/
def Chip.regulate (c : Chip) (g : Nat) : Chip × Bool :=
  let r := mapGet regDefault c.mem.regs g
  let now := c.clk
  let missing := r.missing - c.fld (R.dmcReg g) 19 0 * (now - r.seen)
  let size := c.fld (R.dmcRegBurst g) 15 0 * 65536000
  let put (r : Regulator) (c : Chip) : Chip := { c with mem := { c.mem with regs := mapPut regDefault c.mem.regs g r } }
  if missing + 64000 ≤ size then
    ((put { r with missing := missing + 64000, seen := now } c).setNat (R.dmcGcnt g 0) ((c.reg (R.dmcGcnt g 0)).toNat + 1), true)
  else
    let ms := now / nsPerMs
    let r := { r with missing := missing, seen := now }
    let r := if ms == r.lastMs && r.run != 0 then { r with excess := r.excess + 1 }
      else if ms == r.lastMs + 1 then { r with lastMs := ms, run := r.run + 1, excess := r.excess + 1 }
      else { r with lastMs := ms, run := 1, excess := 1 }
    ((put r c).setNat (R.dmcGcnt g 1) ((c.reg (R.dmcGcnt g 1)).toNat + 1), false)

/-! ### Channel controllers (R371 to R374) -/

/-- Channel `n`'s controller. -/
def Chip.chan (c : Chip) (n : Nat) : Chan := mapGet chanDefault c.mem.chans n

/-- Channel `n`'s controller changes, and its status shows it. -/
def Chip.modChan (c : Chip) (n : Nat) (f : Chan → Chan) : Chip :=
  let c := { c with mem := { c.mem with chans := mapMod chanDefault c.mem.chans n f } }
  let h := c.chan n
  (c.setFld (R.dmcChStat n) 4 0 h.queue.length).setFld (R.dmcChStat n) 20 16 h.rows.length

/-- The DRAM offset of a transaction. -/
def Txn.ofs (x : Txn) : Nat := x.access.addr - dramBase

/-- The burst of a transaction. -/
def Txn.burst (x : Txn) : Nat := x.ofs / 64

/-- A transaction is urgent: its port panics (R387), or an urgent write to its burst carries it (R373). -/
def Chip.pressed (c : Chip) (x : Txn) : Bool := x.carried || c.urgent x.access

/-- A transaction takes any of the 16 places: urgent, or of ranks 1 to 3 (R371). -/
def Chip.anyPlace (c : Chip) (x : Txn) : Bool := c.pressed x || decide (rankOf x.access.group ≤ 3)

/-- R371: channel `n` has a place for a transaction. -/
def Chip.hasPlace (c : Chip) (n : Nat) (x : Txn) : Bool :=
  let q := (c.chan n).queue
  let free := (q.filter c.anyPlace).length
  decide (q.length < 16) && (c.anyPlace x || decide ((q.length - free) + (free - 4) < 12))

/-- R372: transaction `a` is chosen before `b`; where the rules separate them by nothing, the earlier accepted stays. -/
def Chip.chosenBefore (c : Chip) (n : Nat) (a b : Txn) : Bool :=
  let ra := rankOf a.access.group
  let rb := rankOf b.access.group
  let late (x : Txn) := decide ((2 * nsPerUs : Int) < stampGap c.clk x.arrival)
  let hit (x : Txn) := mapGet (fun _ => 0) (c.chan n).rows (c.bankOf x.ofs) == rowOf x.ofs + 1
  if c.pressed a != c.pressed b then c.pressed a
  else if a.inBudget != b.inBudget then a.inBudget
  else if ra != rb then decide (ra < rb)
  else if (ra == 4 || ra == 6) && a.access.cls != b.access.cls then decide (a.access.cls < b.access.cls)
  else if late a != late b then late a
  else if hit a != hit b then hit a
  else decide (stampGap a.arrival b.arrival < 0)

/-- The transaction of a list that R372 chooses. -/
def Chip.choose (c : Chip) (n : Nat) : List Txn → Option Txn
  | [] => none
  | a :: rest => match c.choose n rest with
    | none => some a
    | some b => if c.chosenBefore n b a then some b else some a

/-- R373: the transactions of a queue that are ready: the first to each burst, in the order of acceptance. -/
def readyTxns (seen : List Nat) : List Txn → List Txn
  | [] => []
  | x :: rest => if seen.contains x.burst then readyTxns seen rest else x :: readyTxns (x.burst :: seen) rest

/-- The ready reads (`write` false) or writes of channel `n`. -/
def Chip.readyOf (c : Chip) (n : Nat) (write : Bool) : List Txn :=
  (readyTxns [] (c.chan n).queue).filter (fun x => (x.access.kind == 1) == write)

/-- R374: the row of a served transaction stays open in its bank. -/
def Chip.openRow (c : Chip) (n : Nat) (x : Txn) : Chip :=
  c.modChan n (fun h => { h with rows := mapPut (fun _ => 0) h.rows (c.bankOf x.ofs) (rowOf x.ofs + 1) })

/-- R373: an urgent write of a queue carries the reads to its burst that are queued behind it. -/
def carryReads (x : Txn) (l : List Txn) : List Txn :=
  l.map (fun y => if y.access.kind != 1 && y.burst == x.burst then { y with carried := true } else y)

/-- R372 to R374: channel `n` serves the ready write that R372 chooses. -/
def Chip.serveWrite (c : Chip) (n : Nat) : Chip :=
  match c.choose n (c.readyOf n true) with
  | some x =>
    let urgent := c.pressed x
    (c.modChan n (fun h => { h with
      queue := let l := h.queue.erase x; if urgent then carryReads x l else l })).openRow n x
  | none => c

/-- R374: the bus turns and the gathered writes leave, in the order of R372, when 8 writes wait, no read is ready, or an urgent write
waits. -/
def Chip.turnBus (c : Chip) (n : Nat) : Chip :=
  let writes := (c.chan n).queue.filter (fun x => x.access.kind == 1)
  if decide (8 ≤ writes.length) || (c.readyOf n false).isEmpty || writes.any c.pressed then
    forN writes.length (fun _ c => c.serveWrite n) c
  else c

/-- R378: what a read of burst `ofs` of channel `n` finds: 0 nothing, 1 a single-bit error, 2 an uncorrectable one. -/
def Chip.eccRead (c : Chip) (n ofs ecc : Nat) : Chip :=
  if !c.bit R.dmcCfg 30 then c
  else if ecc == 2 || c.mem.poison.contains (ofs / 64) then
    let c := c.bump (R.dmcChCnt n 1)
    let c := if (c.chan n).ueSeen then c
      else (c.modChan n (fun h => { h with ueSeen := true })).setWide (R.dmcEccAddrLo n) (R.dmcEccAddrHi n) (ofs / 64 * 64)
    c.eventLimited n 0xD002 .room [.val 1 n, .occ, .val 8 (ofs / 64 * 64)]
  else if ecc == 1 then
    let c := c.bump (R.dmcChCnt n 0)
    let c := if (c.chan n).queue.any (fun x => x.access.kind == 1 && x.burst == ofs / 64) then c
      else c.bump (R.dmcChCnt n 3)
    c.eventLimitedLast n 0xD001 .room [.val 1 n, .occ, .val 8 (ofs / 64 * 64)]
  else c

/-- R373, R378, R379: channel `n` accepts a transaction: a write's bytes, after the read that a narrow one needs, or the data a
read will return. -/
def Chip.accept (c : Chip) (n : Nat) (x : Txn) : Chip :=
  let a := x.access
  if a.kind == 1 then
    let c := { c with dram := memWrite dramDefault c.dram x.ofs a.data }
    let narrow := c.bit R.dmcCfg 30 && decide (a.len < 64)
    let c := if narrow then c.bump (R.dmcChCnt n 2) else c
    let worn := narrow && (a.rmw == 2 || c.mem.poison.contains x.burst)
    let c := if narrow then c.eccRead n x.ofs a.rmw else c
    let bad := c.mem.poison.filter (fun b => b != x.burst) ++ (if worn then [x.burst] else [])
    let c := { c with mem := { c.mem with poison := bad } }
    (c.modChan n (fun h => { h with queue := h.queue ++ [x] })).turnBus n
  else
    let x := { x with access := { a with data := memRead dramDefault c.dram x.ofs a.len } }
    c.modChan n (fun h => { h with queue := h.queue ++ [x] })

/-- R371: the first waiting transaction whose channel has a place for it takes that place. -/
def Chip.admitOne (c : Chip) : Chip :=
  match c.mem.waiting.find? (fun x => c.hasPlace (c.channelOf x.ofs) x) with
  | some x => ({ c with mem := { c.mem with waiting := c.mem.waiting.erase x } } : Chip).accept (c.channelOf x.ofs) x
  | none => c

/-- R371: transactions that wait for a place take one, the one that has waited longest first. -/
def Chip.admitWaiting (c : Chip) : Chip := forN c.mem.waiting.length (fun _ c => c.admitOne) c

/-- R371, R374: urgency has changed: the buses whose writes have become urgent turn, and places are taken. -/
def Chip.reconsider (c : Chip) : Chip := (forN 16 (fun n c => c.turnBus n) c).admitWaiting

/-- A request as it reaches the fabric now. -/
def Chip.newTxn (c : Chip) (a : Access) : Txn :=
  { access := a, inBudget := false, arrival := c.clk, oldRules := false, oldTags := false }

/-- R180, R385: the group and the class of a request are those of its initiator: of the job that runs on a decode or encode engine;
a network path receives compressed streams (4) and samples (5) and reads what it transmits (6). -/
def Chip.groupOf (c : Chip) (a : Access) : Access :=
  let fixed (g : Nat) : Access := { a with group := g, cls := 0 }
  if a.unit ≤ 1 then fixed 8
  else if a.unit ≤ 5 then fixed 0
  else if a.unit ≤ 8 then fixed (a.unit - 5)
  else if a.unit ≤ 10 then
    match (c.decOn a.source).bind (fun x => (c.decCtx x).jobs.head?) with
    | some j => { a with group := if c.slotKind j.slot == 6 then 9 else 4, cls := j.cls }
    | none => fixed 4
  else if a.unit ≤ 12 then
    match c.encOn a.source with
    | some x => { a with group := 6, cls := c.fld (R.vecCtx x) 27 25 }
    | none => fixed 6
  else if a.unit ≤ 15 then fixed 5
  else if a.unit ≤ 17 then fixed (if a.kind != 1 then 6 else if a.group == 5 then 5 else 4)
  else if a.unit ≤ 19 then fixed 7
  else if a.unit == 20 then fixed 3
  else fixed 8

/-- R377, R385, R386: a checked request to DRAM is tagged and goes to its channel. -/
def Chip.enterDram (c : Chip) (x : Txn) : Chip :=
  let a := x.access
  let ofs := a.addr - dramBase
  if c.dramUsable ≤ ofs then
    (c.event 0xD007 .room [.val 1 a.group, .val 8 ofs]).send
      (.reply a.unit a.source (if a.kind == 1 then [] else List.replicate a.len 0) true)
  else
    let (c, inBudget) := c.regulate a.group
    let x : Txn := { x with inBudget := inBudget, arrival := c.clk }
    ({ c with mem := { c.mem with waiting := c.mem.waiting ++ [x] } } : Chip).admitWaiting

/-- R403: a faulted access reaches nothing; a read returns zeros with an error flag. -/
def Chip.faulted (c : Chip) (a : Access) : Chip :=
  c.send (.reply a.unit a.source (if a.kind == 1 then [] else List.replicate a.len 0) true)

/-- R394: an engine's request is checked as the fabric accepts it. -/
def Chip.enterEngine (c : Chip) (a : Access) : Chip :=
  let (c, ok) := c.check a
  if ok then c.enterDram (c.newTxn a) else c.faulted a

/-- R388: the hold ends: the time held is counted, and the held requests enter in order. -/
def Chip.endHold (c : Chip) : Chip :=
  let l := c.mem.heldReqs
  let now := c.clk
  let c := { c with mem := { c.mem with holdSince := none, heldReqs := [] } }
  let c := forN 10 (fun g c => match l.find? (fun e => e.access.group == g) with
    | some e => c.bumpBy (R.dmcGcnt g 2) ((stampGap now e.arrival).toNat / nsPerUs)
    | none => c) c
  forL l (fun e c => if coreAccess e.access then c.enterDram e else c.enterEngine e.access) c

/-- R387, R388, R390: a port's panic is raised or cleared. -/
def Chip.setPanic (c : Chip) (p : PanicPort) (on : Bool) : Chip :=
  let m := c.mem
  let m := match p with
    | .head h => { m with headPanic := putBit m.headPanic h on }
    | .fly h => { m with flyPanic := putBit m.flyPanic h on }
    | .cam p => { m with camPanic := putBit m.camPanic p on }
    | .cap q => { m with capPanic := putBit m.capPanic q on }
  let any := m.anyPanic
  let m := if any && m.holdSince.isNone then { m with holdSince := some c.clk } else m
  let bit (b : Bool) (k : Nat) := if b then 2 ^ k else 0
  let c := ({ c with mem := m } : Chip).setNat R.dmcGstat
    (bit any 31 + bit (m.flyPanic != 0) 30 + bit (m.camPanic != 0) 29 + bit (m.capPanic != 0) 28 + bitCount m.headPanic)
  let c := c.reconsider
  if !any && m.holdSince.isSome then c.endHold else c

/-- A fill level with hysteresis (R387): panic above `pct` %, calm at or below `pct` − 16 %. -/
def Chip.fillPanic (c : Chip) (p : PanicPort) (fill pct : Nat) : Chip :=
  if pct < fill then c.setPanic p true else if fill + 16 ≤ pct then c.setPanic p false else c

/-- MEMORY_REQUEST for DRAM (R386, R388): held at the entry, or entered. -/
def Chip.requestDram (c : Chip) (a : Access) : Chip :=
  let hold := decide (6 ≤ rankOf a.group) && c.mem.anyPanic
  let wait (c : Chip) : Chip := { c with mem := { c.mem with heldReqs := c.mem.heldReqs ++ [c.newTxn a] } }
  if coreAccess a then
    let (c, ok) := c.check a
    if !ok then c.faulted a else if hold then wait c else c.enterDram (c.newTxn a)
  else if hold then wait c else c.enterEngine a

/-! ### ECC (R376 to R380) -/

/-- The read of burst `ofs` is flagged uncorrectable. -/
def Chip.flagged (c : Chip) (ofs ecc : Nat) : Bool := c.bit R.dmcCfg 30 && (ecc == 2 || c.mem.poison.contains (ofs / 64))

/-- R369: the rows of a bank. -/
def Chip.bankRows (c : Chip) : Nat := c.dramCap / 2 ^ 19

/-- R376: the row and the byte of the page, in the same bank, of the check word of the burst at row `r` and column `col`. -/
def Chip.checkPlace (c : Chip) (r col : Nat) : Nat × Nat := (c.bankRows * 31 / 32 + r / 32, (r % 32 * 32 + col) * 2)

/-- R376: the offset of the check word of the burst at offset `ofs`. -/
def Chip.checkOfs (c : Chip) (ofs : Nat) : Nat :=
  let p := c.checkPlace (rowOf ofs) (columnOf ofs)
  c.burstOf (c.channelOf ofs) (c.bankOf ofs) p.1 (p.2 / 64) + p.2 % 64

/-- R376, R379: the check word of the burst at offset `ofs`: that of its data, or one that always decodes as uncorrectable. It follows
from the state, and no access reaches the rows that hold it (R377; log 109). -/
def Chip.checkWord (c : Chip) (ofs : Nat) : Nat :=
  let data := memRead dramDefault c.dram (ofs / 64 * 64) 64
  (if c.mem.poison.contains (ofs / 64) then Config.deadCheck data else Config.checkCode data) % 65536

/-! ### The commands -/

/-- MEMORY_READ_COMPLETE (R372, R378): channel `n` serves the read that R372 chooses; `ecc` tells what its check word
shows. -/
def execMemoryReadComplete (t : Stamp) (n ecc : Nat) (s : State) : Host.Outcome State Fault Refusal :=
  runIf (decide (n < 16) && decide (ecc < 3)) (fun c =>
    let c := c.at t
    match c.choose n (c.readyOf n false) with
    | none => c
    | some x =>
      let bad := c.flagged x.ofs ecc
      let c := (c.modChan n (fun h => { h with queue := h.queue.erase x })).openRow n x
      let c := c.eccRead n x.ofs ecc
      let data := if bad then (List.range x.access.len).map (fun i => Config.ueByte (x.ofs + i)) else x.access.data
      ((c.send (.reply x.access.unit x.access.source data bad)).turnBus n).admitWaiting) s

/-- REFRESH_DUE (R375): a per-bank refresh of channel `n` falls due: postponed, at most 8 times, while an urgent
transaction waits for the bank; else it closes the bank's row. -/
def execRefreshDue (t : Stamp) (n bank : Nat) (s : State) : Host.Outcome State Fault Refusal :=
  runIf (decide (n < 16) && decide (bank < 16)) (fun c =>
    let c := c.at t
    let h := c.chan n
    let late := mapGet (fun _ => 0) h.postponed bank
    if h.queue.any (fun x => c.pressed x && c.bankOf x.ofs == bank) && decide (late < 8) then
      c.modChan n (fun h => { h with postponed := mapPut (fun _ => 0) h.postponed bank (late + 1) })
    else
      c.modChan n (fun h => { h with
        postponed := mapPut (fun _ => 0) h.postponed bank 0, rows := mapPut (fun _ => 0) h.rows bank 0 })) s

/-- MR4_POLL (R375): the refresh rate code that the device reports, every 32 ms. -/
def execMr4Poll (t : Stamp) (n code : Nat) (s : State) : Host.Outcome State Fault Refusal :=
  runIf (decide (n < 16) && decide (code < 32)) (fun c =>
    let c := c.at t
    if c.fld (R.dmcChStat n) 28 24 == code then c
    else (c.setFld (R.dmcChStat n) 28 24 code).event 0xD005 .room [.val 1 n, .val 1 code]) s

/-- R380: the data bursts of a channel. -/
def Chip.channelBursts (c : Chip) : Nat := c.dramUsable / 64 / 16

/-- SCRUB_READ (R380): the scrubber of channel `n` reads the burst at `ofs`. -/
def execScrubRead (t : Stamp) (n ofs ecc : Nat) (s : State) : Host.Outcome State Fault Refusal :=
  runIf (decide (n < 16) && decide (ecc < 3)) (fun c =>
    let c := c.at t
    let hours := c.fld R.dmcScrub 15 0
    if !c.bit R.dmcCfg 30 || hours == 0 || c.channelOf ofs != n || decide (c.dramUsable ≤ ofs) then c
    else
      let c := c.setNat (R.dmcChCnt n 4) ((c.reg (R.dmcChCnt n 4)).toNat + 1)
      let c := c.eccRead n ofs ecc
      let h := c.chan n
      let start := if h.scrubbed == 0 then c.clk else h.scrubStart
      let spent := (stampGap c.clk start).toNat
      let late := decide (2 * hours * 3600 * nsPerS < spent) && !h.scrubTold
      let c := if late then c.event 0xD008 .room [.val 1 n, .val 4 (spent / (3600 * nsPerS))] else c
      let last := decide (c.channelBursts ≤ h.scrubbed + 1)
      c.modChan n (fun h => { h with
        scrubbed := if last then 0 else h.scrubbed + 1, scrubStart := start, scrubTold := !last && (h.scrubTold || late) })) s

/-- HOLD_TIMEOUT (R388): the hold has lasted more than 1 ms without a break. -/
def execHoldTimeout (t : Stamp) (s : State) : Host.Outcome State Fault Refusal :=
  runIf true (fun c =>
    let c := c.at t
    match c.mem.holdSince with
    | some since =>
      if decide ((nsPerMs : Int) < stampGap c.clk since) then
        c.eventLimited 0 0xD004 .room [.val 4 ((stampGap c.clk since).toNat / nsPerUs), .val 4 (c.reg R.dmcGstat).toNat]
      else c
    | none => c) s

/-- BUDGET_OVERRUN (R386): group `g` has issued out-of-budget requests in each of 1,000 consecutive milliseconds. -/
def execBudgetOverrun (t : Stamp) (g : Nat) (s : State) : Host.Outcome State Fault Refusal :=
  runIf (decide (g < 10)) (fun c =>
    let c := c.at t
    let r := mapGet regDefault c.mem.regs g
    let again := match r.told with | some l => elapsed c.clk l nsPerS | none => true
    if decide (1000 ≤ r.run) && decide (c.clk / nsPerMs ≤ r.lastMs + 1) && again then
      let now := c.clk
      let c := c.event 0xD003 .room [.val 1 g, .val 4 r.excess]
      { c with mem := { c.mem with regs := mapPut regDefault c.mem.regs g { r with told := some now } } }
    else c) s

/-- OSC_TRACK_READ (R383): the oscillators of channel `n` ask for a common correction `want`, which stays within ±32. -/
def execOscTrackRead (t : Stamp) (n : Nat) (want : Int) (s : State) : Host.Outcome State Fault Refusal :=
  runIf (decide (n < 16)) (fun c =>
    let c := c.at t
    let v := clampInt (-32) 32 want
    let c := c.setFld (R.dmcOsc n) 8 0 (twosOf 9 v)
    if v == want then c else c.event 0xD006 .room [.val 1 n, .val 2 (twosOf 16 v)]) s

/-! ### Training helpers (R382, R384) -/

/-- R382: the degree and the other tap of a PRBS: x²³ + x¹⁸ + 1, and for PRBS7 and PRBS15 the standard polynomials x⁷ + x⁶ + 1 and
x¹⁵ + x¹⁴ + 1 (PRESUMED, log 16). -/
def prbsTaps (pat : Nat) : Nat × Nat := if pat == 0 then (7, 6) else if pat == 1 then (15, 14) else (23, 18)

/-- A PRBS register, whose lowest bit is the newest, after `k` steps. -/
def prbsStep (taps : Nat × Nat) : Nat → Nat → Nat
  | 0, r => r
  | k + 1, r =>
    prbsStep taps k ((2 * r + (r / 2 ^ (taps.1 - 1) + r / 2 ^ (taps.2 - 1)) % 2) % 2 ^ taps.1)

/-- R382: the bit of a pattern on a lane in unit interval `ui` of a run: a PRBS seeded with ones, its generators offset by 8 bits a
lane, or a one or a zero that walks over the 16 lanes (PRESUMED, log 16). -/
def patternBit (pat lane ui : Nat) : Nat :=
  if pat == 4 then (if ui % 16 == lane then 1 else 0)
  else if pat == 5 then (if ui % 16 == lane then 0 else 1)
  else
    let taps := prbsTaps pat
    let k := (ui + 8 * lane) % (2 ^ taps.1 - 1)
    prbsStep taps k (2 ^ taps.1 - 1) / 2 ^ (taps.1 - 1) % 2

/-- R366, R382: the bytes of burst `j` of a run of channel `n`: two bytes a unit interval, DQ0 to DQ7 in the first (PRESUMED, log 16),
or the user burst. -/
def Chip.helperBurst (c : Chip) (n j : Nat) : List Byte :=
  let pat := c.fld (R.dmcTrnCtl n) 18 16
  if pat == 3 then (List.range 16).flatMap (fun i => leBytes 4 (c.reg (R.dmcTrnUser n i)).toNat)
  else (List.range 64).map (fun i =>
    BitVec.ofNat 8 ((List.range 8).foldl (fun v b => v + patternBit pat (i % 2 * 8 + b) (32 * j + i / 2) * 2 ^ b) 0))

/-- R382: a run writes its bursts in column order, wrapping within the row: what stays in a column is the last burst written to it. -/
def Chip.helperWrites (c : Chip) (n : Nat) : Chip :=
  let count := (c.reg (R.dmcTrnCnt n)).toNat
  if c.fld (R.dmcTrnCtl n) 25 24 == 1 then c
  else forN (min 32 count) (fun col c =>
    let ofs := c.burstOf n (c.fld (R.dmcTrnCtl n) 3 0) (c.fld (R.dmcTrnRow n) 16 0) col
    { c with dram := memWrite dramDefault c.dram ofs (c.helperBurst n (col + (count - 1 - col) / 32 * 32)),
             mem := { c.mem with poison := c.mem.poison.filter (fun b => b != ofs / 64) } }) c

/-- R382: a run's result. -/
def Chip.helperResult (c : Chip) (n : Nat) (errors : List Nat) : Chip :=
  let c := c.modChan n (fun h => { h with running := false })
  (forN 18 (fun b c => c.setNat (R.dmcTrnErr n b) (min (errors.getD b 0) 0xFFFFFFFF)) c).publish (R.dmcTrnRes n)

/-- R382: the cause that refuses a command; 0 for none. -/
def Chip.trainCause (c : Chip) (n cmd : Nat) : Nat :=
  let run := (c.chan n).running
  if cmd == 1 then
    (if run then 1 else if c.isSealed && c.fld (R.dmcTrnRow n) 16 0 != c.fld R.dmcSweep 16 0 then 2 else 0)
  else if cmd == 2 then (if run then 0 else 1)
  else 0

/-- R382: a write of CMD to `DMC_TRN_CTL[n]`; `errors` are the counts of a run that STOP ends. -/
def Chip.trainCommand (c : Chip) (src : Source) (n cmd : Nat) (data : Word) (errors : List Nat) : Chip :=
  let cause := c.trainCause n cmd
  if cause != 0 then c.refuse src (R.dmcTrnCtl n) data cause
  else if cmd == 1 then ((c.modChan n (fun h => { h with running := true })).helperWrites n).unpublish (R.dmcTrnRes n)
  else if cmd == 2 then c.helperResult n errors
  else c

/-- R384, R466: after seal the command acts only where a peg carries it; any other is a dropped write. -/
def Chip.trainByRow (c : Chip) (src : Source) (n cmd : Nat) (errors : List Nat) : Chip :=
  if c.isSealed && src != .peg then c.dropWrite (R.dmcTrnCtl n) else c.trainCommand src n cmd (cmdWord cmd) errors

/-- TRAINING_RUN (R382). -/
def execTrainingRun (t : Stamp) (src : Source) (n : Nat) (s : State) : Host.Outcome State Fault Refusal :=
  runIf (decide (n < 16)) (fun c => (c.at t).trainByRow src n 1 []) s

/-- TRAINING_STOP (R382), with the counts at the end of the run. -/
def execTrainingStop (t : Stamp) (src : Source) (n : Nat) (errors : List Nat) (s : State) :
    Host.Outcome State Fault Refusal :=
  runIf (decide (n < 16)) (fun c => (c.at t).trainByRow src n 2 errors) s

/-- TRAINING_RUN_DONE (R382): a run finishes its COUNT bursts. -/
def execTrainingRunDone (t : Stamp) (n : Nat) (errors : List Nat) (s : State) : Host.Outcome State Fault Refusal :=
  runIf (decide (n < 16)) (fun c =>
    let c := c.at t
    if (c.chan n).running then c.helperResult n errors else c) s

/-- TRIM_WRITE_APPLY (R384): channel `n` has finished the transactions issued to its devices, and its trims take effect. -/
def execTrimWriteApply (t : Stamp) (n : Nat) (s : State) : Host.Outcome State Fault Refusal :=
  runIf (decide (n < 16)) (fun c =>
    let take (a : Nat) (c : Chip) : Chip := { c with trims := mapPut resetWord c.trims a (c.reg a) }
    take (R.dmcTrimCa n) (take (R.dmcTrimVref n) (forN 18 (fun b c => take (R.dmcTrim n b) c) (c.at t)))) s

end Sys2Proof.Machine
end

