-- ==== Sys2Proof/Machine/Isp.lean ====
section
/-! DEFINITION. The camera pipeline's stages and statistics (R213 to R219). -/

namespace Sys2Proof.Machine

/-- R213: mirroring outside a range of `n` samples: −j reads j, n − 1 + j reads n − 1 − j. -/
def mirror (n : Nat) (i : Int) : Nat :=
  if i < 0 then (-i).toNat else if (n : Int) ≤ i then (2 * ((n : Int) - 1) - i).toNat else i.toNat

/-- R213: the colour at CFA position `k`: 0 red, 1 green, 2 blue. -/
def cfaColour (cfa k : Nat) : Nat :=
  ((match cfa with | 0 => [0, 1, 1, 2] | 1 => [1, 0, 2, 1] | 2 => [1, 2, 0, 1] | _ => [2, 1, 1, 0]) : List Nat).getD k 1

/-- R213: the CFA position of a sample. -/
def cfaPos (x y : Nat) : Nat := 2 * (y % 2) + x % 2

/-- Width of pipeline `p`'s sensor. -/
def Chip.camW (c : Chip) (p : Nat) : Nat := c.fld (R.camSize p) 15 0

/-- Height of pipeline `p`'s sensor. -/
def Chip.camH (c : Chip) (p : Nat) : Nat := c.fld (R.camSize p) 31 16

/-- The sample depth of pipeline `p`: 10, 12 or 14 bits. -/
def Chip.camDepth (c : Chip) (p : Nat) : Nat := 10 + 2 * min 2 (c.fld (R.camCtl p) 28 27)

/-- R213: the sample of a frame as 14 bits. A sample of a line that has not arrived is a free value (log 17). -/
def Chip.ispRaw (c : Chip) (p : Nat) (f : CamFrame) (x y : Nat) : Nat :=
  match (f.rows.getD y []).drop x with
  | v :: _ => v * 2 ^ (14 - c.camDepth p)
  | [] => Config.lostSample f.n x y % 16384

/-- Stage 1 (R213): the black level. -/
def Chip.ispBlack (c : Chip) (p : Nat) (f : CamFrame) (x y : Nat) : Nat :=
  let k := cfaPos x y
  let bl := c.fld (R.camBl p (k / 2)) (if k % 2 == 1 then 27 else 11) (if k % 2 == 1 then 16 else 0)
  min 16383 (roundDiv ((c.ispRaw p f x y - bl) * 16383) (16383 - bl))

/-- R214: (x, y) is listed in the static table. -/
def Chip.isDefect (c : Chip) (p x y : Nat) : Bool :=
  (List.range (c.fld (R.camDpc p) 28 16)).any (fun i => c.fld (R.camDpcTab p i) 31 16 == y && c.fld (R.camDpcTab p i) 15 0 == x)

/-- Stage 2 (R214): defective pixels. -/
def Chip.ispDefect (c : Chip) (p : Nat) (f : CamFrame) (x y : Nat) : Nat :=
  let n (dx dy : Int) : Nat := c.ispBlack p f (mirror (c.camW p) (x + dx)) (mirror (c.camH p) (y + dy))
  let v := c.ispBlack p f x y
  let orth := [n (-2) 0, n 2 0, n 0 (-2), n 0 2]
  let all := orth ++ [n (-2) (-2), n 2 (-2), n (-2) 2, n 2 2]
  let hi (l : List Nat) := l.foldl max 0
  let lo (l : List Nat) := l.foldl min 16383
  let thr := c.fld (R.camDpc p) 13 0
  if c.isDefect p x y || (c.bit (R.camDpc p) 31 && (decide (hi all + thr < v) || decide (v + thr < lo all))) then
    (orth.sum - hi orth - lo orth + 1) / 2
  else v

/-- R215: the entry of the lens-shading table. -/
def Chip.lscNode (c : Chip) (p k j i : Nat) : Nat :=
  let e := k * 3072 + j * 64 + i
  c.fld (R.camLscTab p (e / 2)) (e % 2 * 16 + 15) (e % 2 * 16)

/-- Stage 3 (R215): lens shading. -/
def Chip.ispShade (c : Chip) (p : Nat) (f : CamFrame) (x y : Nat) : Nat :=
  let v := c.ispDefect p f x y
  if !c.bit (R.camLsc p) 31 then v
  else
    let cw := c.fld (R.camLsc p) 8 0
    let ch := c.fld (R.camLsc p) 24 16
    let i := x / cw
    let fx := x - i * cw
    let j := y / ch
    let fy := y - j * ch
    let n (b a : Nat) := c.lscNode p (cfaPos x y) (j + b) (i + a)
    let g := (n 0 0 * (cw - fx) * (ch - fy) + n 0 1 * fx * (ch - fy) + n 1 0 * (cw - fx) * fy + n 1 1 * fx * fy +
      cw * ch / 2) / (cw * ch)
    min 16383 ((v * g + 2048) / 4096)

/-- Stage 4 (R213): white balance with the frame's bundle. -/
def Chip.ispWhite (c : Chip) (p : Nat) (f : CamFrame) (x y : Nat) : Nat :=
  min 16383 ((c.ispShade p f x y * f.wb.getD (cfaPos x y) 0x1000 + 2048) / 4096)

/-- The colour of a sample of pipeline `p`. -/
def Chip.ispColour (c : Chip) (p x y : Nat) : Nat := cfaColour (c.fld (R.camCtl p) 26 25) (cfaPos x y)

/-- The sample that demosaicing reads at a place that may lie outside (R213). -/
def Chip.ispAt (c : Chip) (p : Nat) (f : CamFrame) (x y : Int) : Int :=
  c.ispWhite p f (mirror (c.camW p) x) (mirror (c.camH p) y)

/-- R216: the filled green. -/
def Chip.ispGreen (c : Chip) (p : Nat) (f : CamFrame) (x y : Int) : Int :=
  let x : Int := mirror (c.camW p) x
  let y : Int := mirror (c.camH p) y
  let s (dx dy : Int) : Int := c.ispAt p f (x + dx) (y + dy)
  if c.ispColour p x.toNat y.toNat == 1 then s 0 0
  else
    let lh := 2 * s 0 0 - s (-2) 0 - s 2 0
    let lv := 2 * s 0 0 - s 0 (-2) - s 0 2
    let gh := (s (-1) 0 + s 1 0) / 2 + lh / 4
    let gv := (s 0 (-1) + s 0 1) / 2 + lv / 4
    let dh := (s (-1) 0 - s 1 0).natAbs + lh.natAbs
    let dv := (s 0 (-1) - s 0 1).natAbs + lv.natAbs
    let thr := c.fld (R.camDms p) 13 0
    clampInt 0 16383 (if dh + thr < dv then gh else if dv + thr < dh then gv else (gh + gv + 1) / 2)

/-- R216: red (0) or blue (2) at a place. -/
def Chip.ispChroma (c : Chip) (p : Nat) (f : CamFrame) (want x y : Nat) : Int :=
  let d (dx dy : Int) : Int := c.ispAt p f (x + dx) (y + dy) - c.ispGreen p f (x + dx) (y + dy)
  let g := c.ispGreen p f x y
  let here := c.ispColour p x y
  let v :=
    if here == want then c.ispAt p f x y
    else if here == 1 then
      if c.ispColour p (x + 1) y == want then g + (d (-1) 0 + d 1 0) / 2 else g + (d 0 (-1) + d 0 1) / 2
    else g + (d (-1) (-1) + d 1 (-1) + d (-1) 1 + d 1 1 + 2) / 4
  clampInt 0 16383 v

/-- Stages 5 to 8 (R213): the pixel at (x, y), as RGB or, with `ycc`, as Y, Cb and Cr. -/
def Chip.ispPx (c : Chip) (p : Nat) (f : CamFrame) (ycc : Bool) (x y : Nat) : Px :=
  let r := c.ispChroma p f 0 x y
  let g := c.ispGreen p f x y
  let b := c.ispChroma p f 2 x y
  let m (i : Nat) : Int := c.sfld (R.camCcm p i) 15 0
  let row (i : Nat) : Nat := (clampInt 0 16383 ((m i * r + m (i + 1) * g + m (i + 2) * b + 512) / 1024)).toNat
  let tone (v : Nat) : Nat :=
    let t (i : Nat) := c.fld (R.camTone p i) 9 0
    (t (v / 128) * (128 - v % 128) + t (v / 128 + 1) * (v % 128) + 64) / 128
  let px : Px := { r := tone (row 0), g := tone (row 3), b := tone (row 6), a := 255 }
  if ycc then let q := rgbToYcc px; { r := q.1, g := q.2.1, b := q.2.2, a := 255 } else px

/-- Stage 9 (R217): pixel (x, y) of output `o`. -/
def Chip.ispOut (c : Chip) (p o : Nat) (f : CamFrame) (x y : Nat) : Px :=
  let oy := c.fld (R.camOutOrg p o) 31 16
  let ox := c.fld (R.camOutOrg p o) 15 0
  scalePx (c.fld (R.camOutCrop p o) 15 0) (c.fld (R.camOutCrop p o) 31 16) (c.fld (R.camOutSize p o) 15 0)
    (c.fld (R.camOutSize p o) 31 16) (fun i j => c.ispPx p f (c.bit (R.camOut p o) 30) (ox + i) (oy + j)) x y

/-! ### Statistics (R218, R219) -/

/-- The places of a rectangle, row by row. -/
def places (x y w h : Nat) : List (Nat × Nat) := (List.range h).flatMap (fun j => (List.range w).map (fun i => (x + i, y + j)))

/-- R218: a bin of the histogram of position `k`. -/
def Chip.histBin (c : Chip) (p : Nat) (f : CamFrame) (k bin : Nat) : Nat :=
  ((places 0 0 (c.camW p) (c.camH p)).filter (fun a => cfaPos a.1 a.2 == k && c.ispWhite p f a.1 a.2 / 64 == bin)).length

/-- R218: a zone's sums and saturated count. -/
def Chip.zone (c : Chip) (p : Nat) (f : CamFrame) (zx zy : Nat) : List Nat :=
  let zw := c.camW p / 32 / 2 * 2
  let zh := c.camH p / 24 / 2 * 2
  let l := places (zx * zw) (zy * zh) zw zh
  let total (col : Nat) : Nat := ((l.filter (fun a => c.ispColour p a.1 a.2 == col)).map (fun a => c.ispWhite p f a.1 a.2)).sum
  [total 0, total 1, total 2, (l.filter (fun a => c.ispWhite p f a.1 a.2 == 16383)).length]

/-- R218: the focus measure. -/
def Chip.focus (c : Chip) (p : Nat) (f : CamFrame) : Nat :=
  let fw := c.fld (R.camStatFocSize p) 15 0
  let fh := c.fld (R.camStatFocSize p) 31 16
  let l := if fw == 0 || fh == 0 then places 0 0 (c.camW p) (c.camH p)
    else places (c.fld (R.camStatFocOrg p) 15 0) (c.fld (R.camStatFocOrg p) 31 16) fw fh
  ((l.filter (fun a => c.ispColour p a.1 a.2 == 1)).map (fun a =>
    (2 * c.ispAt p f a.1 a.2 - c.ispAt p f (a.1 - 2) a.2 - c.ispAt p f (a.1 + 2) a.2).natAbs)).sum

/-- R219: the statistics record of a frame with capture stamp `cap`. -/
def Chip.statRecord (c : Chip) (p : Nat) (f : CamFrame) (cap : Stamp) : List Byte :=
  leBytes 8 cap ++ leBytes 8 f.arrival ++ leBytes 4 f.n ++ leBytes 2 f.num ++ leBytes 2 f.flags ++ leBytes 4 f.exp ++
    leBytes 2 f.again ++ leBytes 2 f.dgain ++ leBytes 8 (c.focus p f) ++ leBytes 2 f.rows.length ++ List.replicate 22 0 ++
    (List.range 4).flatMap (fun k => (List.range 256).flatMap (fun b => leBytes 4 (c.histBin p f k b))) ++
    (List.range 24).flatMap (fun zy => (List.range 32).flatMap (fun zx => (c.zone p f zx zy).flatMap (leBytes 4)))

end Sys2Proof.Machine
end

