-- ==== Sys2Proof/Machine/Camera.lean ====
section
/-! DEFINITION. Camera pipelines and workstation capture (R201 to R228): frames, bundles, sensor writes, outputs, and the
capture ports. -/

namespace Sys2Proof.Machine

/-! ### Pipelines -/

/-- Every pipeline starts with nothing received. -/
def camDefault : Nat → Cam := fun _ => {}

/-- Pipeline `p`. -/
def Chip.cam (c : Chip) (p : Nat) : Cam := mapGet camDefault c.cams p

/-- Pipeline `p` changes. -/
def Chip.modCam (c : Chip) (p : Nat) (f : Cam → Cam) : Chip := { c with cams := mapMod camDefault c.cams p f }

/-- The frame that pipeline `p` receives changes. -/
def Chip.modFrame (c : Chip) (p : Nat) (f : CamFrame → CamFrame) : Chip :=
  c.modCam p (fun m => { m with frame := m.frame.map f })

/-- L of R210. -/
def Chip.camLatency (c : Chip) (p : Nat) : Nat := c.fld (R.camProf0 p) 31 30

/-! ### Bundles (R208 to R212) -/

/-- The bundle registers of pipeline `p`, predicted from frame `eff` on. -/
def Chip.bundleNow (c : Chip) (p eff : Nat) : Bundle :=
  { num := c.fld (R.camBndNum p) 15 0, exp := c.fld (R.camBndExp p) 23 0, again := c.fld (R.camBndGain p) 31 16,
    dgain := c.fld (R.camBndGain p) 15 0,
    wb := [c.fld (R.camBndWb p 0) 15 0, c.fld (R.camBndWb p 0) 31 16, c.fld (R.camBndWb p 1) 15 0,
           c.fld (R.camBndWb p 1) 31 16], eff := eff, fate := 0 }

/-- R210: the bundle registers present when the pipeline is enabled count as taken at the first frame. -/
def Chip.firstBundle (c : Chip) (p : Nat) : Chip :=
  c.modCam p (fun m => if m.bundles.isEmpty then { m with bundles := [c.bundleNow p (m.count + 1)] } else m)

/-- R208: at a frame start the pipeline takes a bundle whose number has changed, and its sensor writes start (R209). -/
def Chip.takeBundle (c : Chip) (p : Nat) : Chip :=
  let m := c.cam p
  let num := c.fld (R.camBndNum p) 15 0
  match m.bundles with
  | b :: _ =>
    if b.num == num then c
    else c.modCam p (fun m => { m with
      bundles := (c.bundleNow p (m.count + c.camLatency p) :: m.bundles).take 16, writes := m.writes ++ [(num, c.clk)] })
  | [] => c

/-- R210: the bundles of pipeline `p` from the one predicted for frame `i` on, newest first. -/
def Chip.predicted (c : Chip) (p i : Nat) : List Bundle :=
  let l := (c.cam p).bundles
  match l.dropWhile (fun b => decide (i < b.eff)) with
  | [] => l.drop (l.length - 1)
  | b :: rest => b :: rest

/-- The sensor registers of a bundle's writes, in order (R209): register, bytes, value. -/
def Chip.sensorWrites (c : Chip) (p : Nat) (b : Bundle) : List (Nat × List Byte) :=
  ((List.range 3).map (fun i => (c.fld (R.camProf3 p i) 31 16,
    beBytes (min 4 (c.fld (R.camProf3 p i) 2 0)) ([b.exp, b.again, b.dgain].getD i 0)))).filter (fun w => !w.2.isEmpty)

/-- R211: the embedded data agrees with a bundle's values in the fields that are compared. -/
def Chip.edMatches (c : Chip) (p : Nat) (data : List Byte) (b : Bundle) : Bool :=
  let same (ofs bytes v : Nat) : Bool := ofs == 0xFFF || bytes == 0 || beAt data ofs bytes == v % 256 ^ bytes
  let n (i : Nat) := min 4 (c.fld (R.camProf3 p i) 2 0)
  same (c.fld (R.camProf6 p) 27 16) (n 0) b.exp && same (c.fld (R.camProf6 p) 11 0) (n 1) b.again &&
    same (c.fld (R.camProf7 p) 11 0) (n 2) b.dgain

/-- R211, R212: the frame's bundle is decided, by its embedded data where it has some. -/
def Chip.decideBundle (c : Chip) (p : Nat) (data : Option (List Byte)) : Chip :=
  match (c.cam p).frame with
  | none => c
  | some f =>
    match c.predicted p f.n with
    | [] => c
    | b :: older =>
      let ed := c.bit (R.camProf0 p) 29
      let use (c : Chip) (u : Bundle) (num exp flags : Nat) : Chip := c.modFrame p (fun f => { f with
        decided := true, num := num, exp := exp, again := u.again, dgain := u.dgain, wb := u.wb, flags := flags })
      let disagree (c : Chip) (num : Nat) : Chip := (c.bump (R.camCnt p 5)).eventLimited p 0x5004 .room
        [.val 1 p, .val 4 f.n, .val 2 b.num, .val 2 num, .occ]
      match data with
      | none => use c b b.num b.exp (32 + if ed then 256 else 0)
      | some l =>
        if c.edMatches p l b then use c b b.num b.exp 0
        else match (older.take 4).find? (c.edMatches p l) with
          | some o => disagree (use c o o.num o.exp 64) o.num
          | none =>
            let ofs := c.fld (R.camProf6 p) 27 16
            let n := min 4 (c.fld (R.camProf3 p 0) 2 0)
            let exp := if ofs == 0xFFF || n == 0 then b.exp else beAt l ofs n
            disagree (use c b 0xFFFF exp (32 + 128)) 0xFFFF

/-- R209: the statistics flag of a bundle's fate: LATEWR or CCIFAIL. -/
def fateFlag (fate : Nat) : Nat := if fate == 1 then 512 else if fate == 2 then 1024 else 0

/-- R209: the flag that the bundle predicted first for frame `n` sets in that frame's statistics. -/
def Chip.fateOf (c : Chip) (p n : Nat) : Nat :=
  match (c.cam p).bundles.find? (fun b => b.eff == n) with
  | some b => fateFlag b.fate
  | none => 0

/-- R219: the address of the statistics record of frame `n`. -/
def Chip.statAddr (c : Chip) (p n : Nat) : Nat :=
  c.base40 (R.camStatLo p) (R.camStatHi p) + n % max 2 (c.fld (R.camStatN p) 4 0) * 16448

/-! ### Frames (R204 to R207) -/

/-- R207: the capture stamp of a frame. -/
def Chip.camCapture (c : Chip) (p : Nat) (f : CamFrame) : Stamp :=
  stampSub (stampSub f.arrival (c.fld (R.camProf2 p) 23 0)) (f.exp * c.fld (R.camProf1 p) 19 0 / 2)

/-- R204, R219: the frame that pipeline `p` receives ends; `fe` tells that its frame end packet came. -/
def Chip.endCamFrame (c : Chip) (p : Nat) (fe : Bool) : Chip :=
  match (c.cam p).frame with
  | none => c
  | some f =>
    let c := if f.decided then c else c.decideBundle p none
    let f := ((c.cam p).frame).getD f
    let lines := f.rows.length
    let height := c.camH p
    let cause := (if f.linkBad then 8 else 0) + (if f.fault then 4 else 0)
    let code := if cause != 0 then 5 else if f.lost then 6 else if lines < height then 3 else if height < lines then 4 else 2
    let flag := match code with | 2 => 1 | 3 => 2 | 4 => 4 | 5 => 8 | _ => 16
    let f := { f with code := code, cause := cause, flags := f.flags + flag + c.fateOf p f.n }
    let cap := c.camCapture p f
    let c := c.dramWrite (c.statAddr p f.n) (c.statRecord p f cap)
    let c := c.modCam p (fun m => { m with frame := none, ended := m.ended ++ [f] })
    let c := c.bump (R.camCnt p 0)
    let c := match code with
      | 3 => c.bump (R.camCnt p 1) | 4 => c.bump (R.camCnt p 2) | 5 => c.bump (R.camCnt p 3) | 6 => c.bump (R.camCnt p 4)
      | _ => if fe then c else c.bump (R.camCnt p 6)
    let c := ((c.setNat (R.camResFrame p) f.n).setNat (R.camResBundle p) (f.num * 65536 + f.flags)).setWide
      (R.camResLastcLo p) (R.camResLastcHi p) cap
    let c := c.publish (R.camRes p)
    if code == 3 || code == 4 then
      c.eventLimited p 0x5001 .room [.val 1 p, .val 4 f.n, .val 2 lines, .val 2 height, .occ]
    else if code == 5 || code == 6 then
      c.eventLimited p 0x5002 .room [.val 1 p, .val 4 f.n, .val 1 code, .val 1 cause, .occ]
    else c

/-- R204, R206: a frame start packet: the frame before ends, the counter advances, and a silent camera has resumed. -/
def Chip.beginCamFrame (c : Chip) (p : Nat) : Chip :=
  let c := c.endCamFrame p false
  let c := c.firstBundle p
  let now := c.clk
  let was := (c.cam p).silent
  let c := c.modCam p (fun m =>
    let n := (m.count + 1) % 2 ^ 32
    { m with count := n, frame := some { n := n, arrival := shortStamp now, last := now }, lastStart := now, silent := false })
  if was then c.event 0x5005 .room [.val 1 p, .val 4 (Config.eventCode 0x5005 1)] else c

/-- R50, R156, R157: with the first line every enabled output begins its frame in its slot, where that slot is the output's. -/
def Chip.beginOutputs (c : Chip) (p : Nat) : Chip :=
  forN 3 (fun o c =>
    if c.bit (R.camOut p o) 31 then
      let n := c.fld (R.camOut p o) 7 0
      let (c, b) := if c.slotUnit n 3 (3 * p + o) then c.frameBegin n 0 else (c, none)
      c.modFrame p (fun f => { f with outs := f.outs ++ [(o, n, b)] })
    else c) c

/-- CSI_LINE_RECEIVE (R204, R387): a long packet of the pixel data type. -/
def execCsiLineReceive (t : Stamp) (p : Nat) (l : CsiLine) (s : State) : Host.Outcome State Fault Refusal :=
  runIf (decide (p < 8)) (fun c =>
    let c := (c.at t).fillPanic (.cam p) l.fill (c.fld R.dmcPanic 22 16)
    let mine := l.vc == c.fld (R.camCtl p) 24 23
    let ours := mine && l.dt == 0x2B + (c.camDepth p - 10) / 2
    match (c.cam p).frame with
    | none => c
    | some f =>
      let now := c.clk
      if !c.bit (R.camCtl p) 31 then c
      else if !l.headerOk then c.modFrame p (fun f => { f with linkBad := true, last := now })
      else if !ours then
        if mine && l.dt == 0x12 && !l.crcOk then c.modFrame p (fun f => { f with linkBad := true, last := now }) else c
      else
        let c := if f.decided then c else c.decideBundle p none
        let c := if f.rows.isEmpty then c.beginOutputs p else c
        let bad := !l.crcOk || l.words != c.camW p * c.camDepth p / 8
        c.modFrame p (fun f => { f with
          rows := f.rows ++ [if l.lost then [] else l.samples], linkBad := f.linkBad || bad, fault := f.fault || l.fault,
          lost := f.lost || l.lost, last := now })) s

/-- EMBEDDED_DATA_RECEIVE (R204, R211): an embedded data packet, which decides the frame's bundle when it precedes the first
pixel line. `headerOk` is clear where its header is uncorrectable; it is then no packet of the virtual channel. -/
def execEmbeddedDataReceive (t : Stamp) (p vc : Nat) (data : List Byte) (headerOk crcOk : Bool) (s : State) :
    Host.Outcome State Fault Refusal :=
  runIf (decide (p < 8)) (fun c =>
    let c := c.at t
    match (c.cam p).frame with
    | none => c
    | some f =>
      let now := c.clk
      if !headerOk then c.modFrame p (fun f => { f with linkBad := true, last := now })
      else if vc != c.fld (R.camCtl p) 24 23 then c
      else
        let c := if c.bit (R.camProf0 p) 29 && f.rows.isEmpty && !f.decided then c.decideBundle p (some data) else c
        c.modFrame p (fun f => { f with linkBad := f.linkBad || !crcOk, last := now })) s

/-- CAMERA_FRAME_END (R204): a frame end packet on the configured virtual channel. -/
def execCameraFrameEnd (t : Stamp) (p vc : Nat) (s : State) : Host.Outcome State Fault Refusal :=
  runIf (decide (p < 8)) (fun c =>
    let c := c.at t
    if vc == c.fld (R.camCtl p) 24 23 then c.endCamFrame p true else c) s

/-- CAMERA_FRAME_TIMEOUT (R204): 100 ms after its last packet the frame ends. -/
def execCameraFrameTimeout (t : Stamp) (p : Nat) (s : State) : Host.Outcome State Fault Refusal :=
  runIf (decide (p < 8)) (fun c =>
    let c := c.at t
    match (c.cam p).frame with
    | some f => if elapsed c.clk f.last (100 * nsPerMs) then c.endCamFrame p false else c
    | none => c) s

/-- R205, R217: output `o` finishes its frame of ended frame `f`, OW × OH pixels, in buffer `i` of slot `n`. -/
def Chip.finishOutput (c : Chip) (p o n i : Nat) (f : CamFrame) : Chip :=
  let ycc := if c.bit (R.camOut p o) 30 then sameYcc else rgbToYcc
  let px (x y : Nat) : Px := c.ispOut p o f x y
  let pic : Pic := { c.bufPic n i with w := c.fld (R.camOutSize p o) 15 0, h := c.fld (R.camOutSize p o) 31 16 }
  (c.putPic pic ycc px).picFinish n i pic f.code f.cause f.arrival (some (c.camCapture p f)) 0

/-- CAMERA_OUTPUT_FINISH (R205, R206): output `o` of pipeline `p` finishes the oldest ended frame it has not finished. -/
def execCameraOutputFinish (t : Stamp) (p o : Nat) (s : State) : Host.Outcome State Fault Refusal :=
  runIf (decide (p < 8) && decide (o < 3)) (fun c =>
    let c := c.at t
    match (c.cam p).ended.find? (fun f => f.outs.any (fun u => u.1 == o)) with
    | none => c
    | some f =>
      let c := match f.outs.find? (fun u => u.1 == o) with
        | some (_, n, some i) => c.finishOutput p o n i f
        | _ => c
      c.modCam p (fun m => { m with ended := (m.ended.map (fun g =>
        if g.n == f.n then { g with outs := g.outs.filter (fun u => u.1 != o) } else g)).filter (fun g => !g.outs.isEmpty) })) s

/-- CAMERA_SILENCE_TIMEOUT (R206): no frame start for 1 s. -/
def execCameraSilenceTimeout (t : Stamp) (p : Nat) (s : State) : Host.Outcome State Fault Refusal :=
  runIf (decide (p < 8)) (fun c =>
    let c := c.at t
    let m := c.cam p
    if c.bit (R.camCtl p) 31 && !m.silent && elapsed c.clk m.lastStart nsPerS then
      (c.modCam p (fun m => { m with silent := true })).event 0x5005 .room [.val 1 p, .val 4 (Config.eventCode 0x5005 0)]
    else c) s

/-! ### Sensor writes (R209) -/

/-- R209: a fate that comes after its bundle's predicted frame has ended is set in that frame's record, while the record stands. -/
def Chip.lateFlag (c : Chip) (p n fate : Nat) : Chip :=
  let a := c.statAddr p n
  let running := match (c.cam p).frame with | some f => f.n == n | none => false
  if !running && decide (n ≤ (c.cam p).count) && c.dramNat (a + 16) 4 == n then
    c.dramWrite (a + 22) (leBytes 2 (c.dramNat (a + 22) 2 ||| fateFlag fate))
  else c

/-- R209: the running writes stop and their bundle meets its fate; event 0x5003 names the register at which they stopped. The
writes of the next bundle taken run then. -/
def Chip.stopWrites (c : Chip) (p num done fate : Nat) : Chip :=
  let c := c.modCam p (fun m => { m with
    writes := m.writes.drop 1,
    bundles := m.bundles.map (fun b => if b.num == num && b.fate == 0 then { b with fate := fate } else b) })
  match (c.cam p).bundles.find? (fun b => b.num == num) with
  | some b =>
    (c.lateFlag p b.eff fate).event 0x5003 .room [.val 1 p, .val 2 num, .val 2 (((c.sensorWrites p b).getD done (0, [])).1)]
  | none => c

/-- The first `done` writes of a bundle have left. -/
def Chip.sendWrites (c : Chip) (p num done : Nat) : Chip :=
  match (c.cam p).bundles.find? (fun b => b.num == num) with
  | some b => forL ((c.sensorWrites p b).take done)
      (fun (w : Nat × List Byte) (c : Chip) => c.send (.cci p (c.fld (R.camCtl p) 20 14) w.1 w.2)) c
  | none => c

/-- CCI_WRITES_DONE (R209): the sensor has taken `done` writes of the bundle, and refused the next one or not. -/
def execCciWritesDone (t : Stamp) (p done : Nat) (refused : Bool) (s : State) : Host.Outcome State Fault Refusal :=
  runIf (decide (p < 8)) (fun c =>
    let c := c.at t
    match (c.cam p).writes with
    | [] => c
    | (num, _) :: rest =>
      let c := c.sendWrites p num done
      if refused then c.stopWrites p num done 2 else c.modCam p (fun m => { m with writes := rest })) s

/-- CCI_WINDOW_EXPIRE (R209): CCI_WIN after the take edge, `done` writes are finished, and the rest are stopped. -/
def execCciWindowExpire (t : Stamp) (p done : Nat) (s : State) : Host.Outcome State Fault Refusal :=
  runIf (decide (p < 8)) (fun c =>
    let c := c.at t
    match (c.cam p).writes with
    | [] => c
    | (num, start) :: _ =>
      if elapsed c.clk start (c.fld (R.camProf0 p) 15 0 * nsPerUs) then (c.sendWrites p num done).stopWrites p num done 1
      else c) s

/-- FSYNC_PULSE (R202): at a Muith time k × PERIOD + PHASE. -/
def execFsyncPulse (t : Stamp) (p : Nat) (s : State) : Host.Outcome State Fault Refusal :=
  runIf (decide (p < 8)) (fun c =>
    let c := c.at t
    let per := c.fld (R.camFsync p) 23 0 * nsPerUs
    if c.bit (R.camFsync p) 31 && decide (0 < per) && c.clk % per == c.fld (R.camFsyncPh p) 23 0 * nsPerUs % per then
      c.send (.fsync p)
    else c) s

/-! ### Workstation capture (R222 to R227) -/

/-- Every capture port starts with nothing received. -/
def capDefault : Nat → Cap := fun _ => {}

/-- Capture port `q`. -/
def Chip.capPort (c : Chip) (q : Nat) : Cap := mapGet capDefault c.caps q

/-- Capture port `q` changes. -/
def Chip.modCap (c : Chip) (q : Nat) (f : Cap → Cap) : Chip := { c with caps := mapMod capDefault c.caps q f }

/-- R224, R225: the frame of port `q` ends with the lines that arrived. The source supplies no capture time. -/
def Chip.endCapture (c : Chip) (q : Nat) : Chip :=
  match (c.capPort q).frame with
  | none => c
  | some f =>
    let whole := !f.differs && decide (c.fld (R.srcGeom f.slot) 31 16 ≤ f.rows.length)
    let c := (c.modCap q (fun m => { m with frame := none })).bump (R.capCnt q 0)
    let c := match f.buf with
      | some i => c.frameFinish f.slot i (if whole then 2 else 6) 0 f.arrival none 0
      | none => c
    if whole then c
    else (c.bump (R.capCnt q 1)).eventLimited q 0x5803 .room [.val 1 q, .val 1 f.slot, .val 4 f.seq, .occ]

/-- CAPTURE_FRAME_BEGIN (R224): the vertical blanking before the first active line starts, of a stream with this active
size, encoding and depth (10 bits or 8). -/
def execCaptureFrameBegin (t : Stamp) (q w h enc : Nat) (bpc10 : Bool) (s : State) : Host.Outcome State Fault Refusal :=
  runIf (decide (q < 4) && decide (w < 65536) && decide (h < 65536) && decide (enc < 3)) (fun c =>
    let c := c.at t
    if !c.bit (R.capPort q) 31 || !c.bit (R.capStat q) 30 || !c.bit (R.capStat q) 24 then c
    else
      let c := c.endCapture q
      let now := c.clk
      let n := c.fld (R.capPort q) 7 0
      let differs := w != c.fld (R.srcGeom n) 15 0 || h != c.fld (R.srcGeom n) 31 16 || enc != c.fld (R.capPort q) 25 24 ||
        bpc10 != c.bit (R.capPort q) 23
      let c := c.setNat (R.capMsa q) (h * 65536 + w)
      let c := match (c.capPort q).lastStart with
        | some l => c.setNat (R.capPeriod q) ((stampGap now l).toNat / nsPerUs)
        | none => c
      let (c, b) := if c.slotUnit n 4 q then c.frameBegin n 0 else (c, none)
      let f : CapFrame := { slot := n, buf := b, seq := (c.slot n).seq, arrival := shortStamp now, differs := differs, rows := [] }
      let c := c.modCap q (fun m => { m with frame := some f, lastStart := some now })
      if differs then
        (c.bump (R.capCnt q 2)).eventLimited q 0x5802 .room
          [.val 1 q, .val 2 w, .val 2 h, .val 1 enc, .val 1 (if bpc10 then 1 else 0), .occ]
      else c) s

/-- CAPTURE_LINE_RECEIVE (R224, R387): an active line arrives and is written from the four-line buffer, whose fill is given
in percent. -/
def execCaptureLineReceive (t : Stamp) (q : Nat) (px : List (Nat × Nat × Nat)) (fill : Nat) (s : State) :
    Host.Outcome State Fault Refusal :=
  runIf (decide (q < 4)) (fun c =>
    let c := (c.at t).fillPanic (.cap q) fill (c.fld R.dmcPanic 30 24)
    match (c.capPort q).frame with
    | none => c
    | some f =>
      if f.differs || decide (c.fld (R.srcGeom f.slot) 31 16 ≤ f.rows.length) then c
      else
        let wide (v : Nat) : Nat := if c.bit (R.capPort q) 23 then v else expand8 v
        let row := px.map (fun v => (wide v.1, wide v.2.1, wide v.2.2))
        let rows := f.rows ++ [row]
        let at_ (x y : Nat) : Px := match (rows.getD y []).drop x with
          | v :: _ => { r := v.1, g := v.2.1, b := v.2.2, a := 255 }
          | [] => { r := 0, g := 0, b := 0, a := 255 }
        let c := c.modCap q (fun m => { m with frame := some { f with rows := rows } })
        let ycc := if c.fld (R.capPort q) 25 24 == 0 then rgbToYcc else sameYcc
        match f.buf with
        | some i => c.putRow (c.bufPic f.slot i) ycc f.rows.length at_
        | none => c) s

/-- CAPTURE_FRAME_END (R224): the last active line has arrived, or nothing more comes. -/
def execCaptureFrameEnd (t : Stamp) (q : Nat) (s : State) : Host.Outcome State Fault Refusal :=
  runIf (decide (q < 4)) (fun c => (c.at t).endCapture q) s

/-- CAPTURE_LINK_CHANGE (R223, R224): the link trains or is lost, or its video stream starts or stops. -/
def execCaptureLinkChange (t : Stamp) (q : Nat) (trained : Bool) (rate lanes : Nat) (video : Bool) (s : State) :
    Host.Outcome State Fault Refusal :=
  runIf (decide (q < 4) && decide (rate < 5) && decide (lanes < 3)) (fun c =>
    let c := c.at t
    if !c.bit (R.capPort q) 31 then c
    else
      let was := c.bit (R.capStat q) 30
      let c := if (c.capPort q).frame.isSome && (!trained || !video) then c.endCapture q else c
      let st := R.capStat q
      let c := (((c.setFld st 30 30 (if trained then 1 else 0)).setFld st 29 27 rate).setFld st 26 25 lanes).setFld st 24 24
        (if trained && video then 1 else 0)
      let c := if was && !trained then (c.addFld st 23 16 1).bump (R.capCnt q 3) else c
      if was == trained then c
      else (c.send (.irqHpd q)).event 0x5801 .room [.val 1 q, .val 1 rate, .val 1 lanes]) s

/-- CAPTURE_AUX_REQUEST (R222, R223): a request of the source is answered. -/
def execCaptureAuxRequest (t : Stamp) (q : Nat) (r : AuxRequest) (s : State) : Host.Outcome State Fault Refusal :=
  runIf (decide (q < 4)) (fun c =>
    let c := c.at t
    if !c.bit (R.capStat q) 31 then c
    else match r with
      | .edid ofs n => c.send (.aux q ((List.range n).map (fun i =>
          BitVec.ofNat 8 (c.fld (R.capEdid q ((ofs + i) % 256 / 4)) ((ofs + i) % 4 * 8 + 7) ((ofs + i) % 4 * 8)))))
      | .capabilities => c.send (.aux q [BitVec.ofNat 8 (c.fld (R.capPort q) 30 28), BitVec.ofNat 8 (c.fld (R.capPort q) 27 26)])
      | .other l => c.send (.aux q l)) s

end Sys2Proof.Machine
end

