-- ==== Sys2Proof/Machine/Touch.lean ====
section
/-! DEFINITION. Console touch sensing (R315 to R334): scan frames, noise and hopping, baselines, blobs, touches, reports,
calibration and self-tests. -/

namespace Sys2Proof.Machine

/-! ### Channels -/

/-- Every channel starts off. -/
def tchDefault : Nat → TouchCh := fun _ => {}

/-- Touch channel `h`. -/
def Chip.tchan (c : Chip) (h : Nat) : TouchCh := mapGet tchDefault c.tch h

/-- Touch channel `h` changes. -/
def Chip.modTch (c : Chip) (h : Nat) (f : TouchCh → TouchCh) : Chip := { c with tch := mapMod tchDefault c.tch h f }

/-- NDRV. -/
def Chip.ndrv (c : Chip) (h : Nat) : Nat := c.fld (R.tchCtl h) 22 16

/-- NSNS. -/
def Chip.nsns (c : Chip) (h : Nat) : Nat := c.fld (R.tchCtl h) 13 8

/-- The enabled hop frequencies, ascending (R319). -/
def Chip.hopFreqs (c : Chip) (h : Nat) : List Nat := (List.range 8).filter (fun i => c.bit (R.tchFreq h i) 31)

/-- RUN of `TCH_STAT`: 0 off, 1 calibrating, 2 scanning. -/
def Chip.tchRun (c : Chip) (h : Nat) : Nat := c.fld (R.tchStat h) 31 30

/-- The key of node (i, j), and of self electrode e (R334's numbering). -/
def nodeKey (i j : Nat) : Nat := j * 64 + i

/-- See `nodeKey`. -/
def selfKey (e : Nat) : Nat := 3072 + e

/-! ### Raw counts (R316, R317) -/

/-- R316: the polarity H[q][l]. -/
def polarity (q l : Nat) : Int :=
  let b (i : Nat) := q / 2 ^ i % 2 * (l / 2 ^ i % 2)
  if (b 0 + b 1 + b 2) % 2 == 0 then 1 else -1

/-- R317: the raw count of node (i, j). -/
def mutualRaw (d : ScanData) (i j : Nat) : Nat :=
  let g := i / 8
  let sum := (List.range 8).foldl (fun s q => s + polarity q (i % 8) * (d.slotsRead.getD (8 * g + q) []).getD j 0) 0
  (clampInt 0 65535 ((sum + 4) / 8)).toNat

/-- The raw counts of the nodes and self electrodes in use, by key. -/
def Chip.rawCounts (c : Chip) (h : Nat) (d : ScanData) : List (Nat × Nat) :=
  (List.range (c.nsns h)).flatMap (fun j => (List.range (c.ndrv h)).map (fun i => (nodeKey i j, mutualRaw d i j))) ++
    (List.range (c.ndrv h)).map (fun e => (selfKey e, min 65535 (d.selfDrive.getD e 0))) ++
    (List.range (c.nsns h)).map (fun e => (selfKey (64 + e), min 65535 (d.selfSense.getD e 0)))

/-- The keys of the nodes and self electrodes in use. -/
def Chip.nodeKeys (c : Chip) (h : Nat) : List Nat :=
  (c.rawCounts h { slotsRead := [], selfDrive := [], selfSense := [], idle := [], test := [] }).map (fun r => r.1)

/-- The baseline of a node or electrode at a frequency, with 8 fraction bits (R323). -/
def TouchCh.baseline (x : TouchCh) (f key : Nat) : Int := mapGet (fun _ => 0) x.base (f * 4096 + key)

/-- The baseline of a node or electrode at a frequency is set. -/
def TouchCh.setBase (x : TouchCh) (f key : Nat) (v : Int) : TouchCh :=
  { x with base := mapPut (fun _ => 0) x.base (f * 4096 + key) v }

/-- R323: the signal of a node or electrode. -/
def TouchCh.signal (x : TouchCh) (f key raw : Nat) : Int :=
  let b := x.baseline f key / 256
  if key < 3072 then b - raw else raw - b

/-! ### Noise (R319 to R321) -/

/-- R319: N_i: the mean of the absolute outputs of the receivers in use, rounded down. -/
def Chip.noiseOf (c : Chip) (h : Nat) (l : List Int) : Nat :=
  let n := c.nsns h
  ((l.take n).map Int.natAbs).sum / max 1 n

/-- F_i of channel `h`. -/
def Chip.noiseF (c : Chip) (h i : Nat) : Nat := (mapGet (fun _ => none) (c.tchan h).noise i).getD 0

/-- R319: the filter of each enabled frequency takes its N_i. -/
def Chip.filterNoise (c : Chip) (h : Nat) (d : ScanData) : Chip :=
  forL (c.hopFreqs h) (fun i c =>
    let n := c.noiseOf h (d.idle.getD i [])
    let f := match mapGet (fun _ => none) (c.tchan h).noise i with
      | none => n
      | some f => (((f : Int) + ((n : Int) - f) / 8)).toNat
    (c.modTch h (fun x => { x with noise := mapPut (fun _ => none) x.noise i (some f) })).setFld (R.tchNoise h i) 15 0 f) c

/-- The enabled frequency with the lowest F, the lower index on a tie. -/
def Chip.quietest (c : Chip) (h : Nat) : Option Nat :=
  (c.hopFreqs h).foldl (fun best i => match best with
    | none => some i
    | some b => if c.noiseF h i < c.noiseF h b then some i else some b) none

/-- R320: the run of scan frames in which a quieter frequency qualifies; after HOLD of them the switch is due. -/
def Chip.judgeHop (c : Chip) (h : Nat) : Chip :=
  let x := c.tchan h
  match c.quietest h with
  | none => c
  | some j =>
    let ok := j != x.active &&
      decide (c.noiseF h j * 100 < c.noiseF h x.active * (100 - c.fld (R.tchHop h) 7 0))
    let run := if !ok then none else match x.hopRun with
      | some (i, n) => if i == j then some (j, n + 1) else some (j, 1)
      | none => some (j, 1)
    let due := match run with | some (_, n) => decide (c.fld (R.tchHop h) 15 8 ≤ n) | none => false
    c.modTch h (fun x => { x with hopRun := run, hopTo := if due then some j else x.hopTo })

/-- R321: since when every enabled frequency exceeds NOISE_MAX. -/
def Chip.judgeNoise (c : Chip) (h : Nat) : Chip :=
  let all := (c.hopFreqs h).all (fun i => decide (c.fld (R.tchHop h) 31 16 < c.noiseF h i))
  let now := c.clk
  c.modTch h (fun x => if all then { x with noisySince := some (x.noisySince.getD now) }
    else { x with noisySince := none, noisyTold := false })

/-! ### Blobs and peaks (R326, R327) -/

/-- The signals of the nodes, by key; a place outside the panel reads far below any node. -/
def sigAt (sig : List (Nat × Int)) (i j : Int) : Int :=
  if i < 0 || j < 0 || 63 < i || 47 < j then -1000000 else mapGet (fun _ => -1000000) sig (nodeKey i.toNat j.toNat)

/-- Two nodes touch, corners included. -/
def adjacent (a b : Nat × Nat) : Bool :=
  decide (((a.1 : Int) - b.1).natAbs ≤ 1) && decide (((a.2 : Int) - b.2).natAbs ≤ 1)

/-- R326: nodes grouped into 8-connected blobs. -/
def blobsOf (l : List (Nat × Nat)) : List (List (Nat × Nat)) :=
  l.foldl (fun bs n =>
    let near := bs.filter (fun b => b.any (adjacent n))
    let rest := bs.filter (fun b => !b.any (adjacent n))
    rest ++ [near.flatten ++ [n]]) []

/-- The extent of a blob along an axis. -/
def extent (l : List Nat) : Nat := l.foldl max 0 + 1 - l.foldl min (l.headD 0)

/-- R326: 0 a finger blob, 1 or 2 the kind of a suppressed object. -/
def Chip.blobKind (c : Chip) (h : Nat) (b : List (Nat × Nat)) : Nat :=
  let span := max (extent (b.map (fun n => n.1))) (extent (b.map (fun n => n.2)))
  if c.fld (R.tchPalm h) 7 0 < b.length then 1 else if c.fld (R.tchPalm h) 15 8 < span then 2 else 0

/-- R327: node (i, j) is a peak: above each neighbour, or equal to one that comes later in raster order. -/
def isPeak (sig : List (Nat × Int)) (n : Nat × Nat) : Bool :=
  let s := sigAt sig n.1 n.2
  ([(-1, -1), (0, -1), (1, -1), (-1, 0)] : List (Int × Int)).all (fun d => decide (sigAt sig (n.1 + d.1) (n.2 + d.2) < s)) &&
    ([(1, 0), (-1, 1), (0, 1), (1, 1)] : List (Int × Int)).all (fun d => decide (sigAt sig (n.1 + d.1) (n.2 + d.2) ≤ s))

/-- A peak: position in 1/256 node, signal and blob area. -/
structure Peak where
  xc : Int
  yc : Int
  s : Nat
  area : Nat
  deriving DecidableEq, Repr

/-- R327: the position of a peak. -/
def peakOf (sig : List (Nat × Int)) (area : Nat) (n : Nat × Nat) : Peak :=
  let near := ([(-1, -1), (0, -1), (1, -1), (-1, 0), (0, 0), (1, 0), (-1, 1), (0, 1), (1, 1)] : List (Int × Int)).map
    (fun d => (d, max 0 (sigAt sig (n.1 + d.1) (n.2 + d.2))))
  let total := (near.map (fun a => a.2)).sum
  { xc := n.1 * 256 + 256 * (near.map (fun a => a.2 * a.1.1)).sum / total,
    yc := n.2 * 256 + 256 * (near.map (fun a => a.2 * a.1.2)).sum / total,
    s := (sigAt sig n.1 n.2).toNat, area := area }

/-- R327: a position in panel units. -/
def Chip.panelX (c : Chip) (h : Nat) (xc : Int) : Nat :=
  let res := c.fld (R.tchXy h) 15 0
  min (res - 1) (((xc + 128) * res / (c.ndrv h * 256 : Nat)).toNat)

/-- See `Chip.panelX`. -/
def Chip.panelY (c : Chip) (h : Nat) (yc : Int) : Nat :=
  let res := c.fld (R.tchXy h) 31 16
  min (res - 1) (((yc + 128) * res / (c.nsns h * 256 : Nat)).toNat)

/-! ### Tracking (R328) -/

/-- The distance of a touch and a peak. -/
def distance (t : TouchPt) (p : Peak) : Nat := max (t.xc - p.xc).natAbs (t.yc - p.yc).natAbs

/-- R328, step 1: the pair that is matched first: distance, ID, earlier peak. -/
def firstPair (ts : List TouchPt) (ps : List (Nat × Peak)) (reach : Nat) : Option (TouchPt × Nat × Peak) :=
  (ts.flatMap (fun t => ps.map (fun p => (t, p)))).foldl (fun best x =>
    let d := distance x.1 x.2.2
    if reach < d then best
    else match best with
      | none => some x
      | some b =>
        let e := distance b.1 b.2.2
        if d < e || (d == e && (decide (x.1.id < b.1.id) || (x.1.id == b.1.id && decide (x.2.1 < b.2.1)))) then some x
        else some b) none

/-- R328, step 1: the greedy matching: matched pairs, touches and peaks left over. -/
def matchAll (reach : Nat) : Nat → List TouchPt → List (Nat × Peak) →
    List (TouchPt × Peak) × List TouchPt × List (Nat × Peak)
  | 0, ts, ps => ([], ts, ps)
  | fuel + 1, ts, ps =>
    match firstPair ts ps reach with
    | none => ([], ts, ps)
    | some (t, n, p) =>
      let (m, ts, ps) := matchAll reach fuel (ts.filter (fun u => u.id != t.id)) (ps.filter (fun q => q.1 != n))
      ((t, p) :: m, ts, ps)

/-- R328, step 4: the strongest peak of a list, the earlier on a tie. -/
def strongest : List (Nat × Peak) → Option (Nat × Peak)
  | [] => none
  | p :: rest => match strongest rest with
    | none => some p
    | some q => if p.2.s < q.2.s then some q else some p

/-- R328, steps 4 and 5: new touches for peaks, in descending signal; `used` are the IDs not free. The result counts the
peaks that found no ID. -/
def Chip.newTouches (c : Chip) (h : Nat) (start : Stamp) : Nat → List Nat → List (Nat × Peak) → List TouchPt × Nat
  | 0, _, _ => ([], 0)
  | fuel + 1, used, ps =>
    match strongest ps with
    | none => ([], 0)
    | some (n, p) =>
      let rest := ps.filter (fun q => q.1 != n)
      match (List.range 20).find? (fun i => !used.contains i) with
      | none => ([], ps.length)
      | some id =>
        let t : TouchPt := { id := id, xc := p.xc, yc := p.yc, x := c.panelX h p.xc, y := c.panelY h p.yc, s := p.s,
                             area := p.area, down := start, long := false }
        let (l, over_) := c.newTouches h start fuel (id :: used) rest
        (t :: l, over_)

/-! ### Reports (R330) -/

/-- A touch entry with its flags. -/
def touchEntry (start : Stamp) (t : TouchPt) (flags : Nat) : List Byte :=
  leBytes 1 t.id ++ leBytes 1 (flags + if t.long then 4 else 0) ++ leBytes 2 t.x ++ leBytes 2 t.y ++
    leBytes 2 (min 65535 t.s) ++ leBytes 2 t.area ++ leBytes 2 (min 65535 ((stampGap start t.down).toNat / 100000000))

/-- A suppressed entry. -/
def Chip.objectEntry (c : Chip) (h : Nat) (sig : List (Nat × Int)) (b : List (Nat × Nat)) : List Byte :=
  let n := b.length
  let xc := 256 * (b.map (fun a => a.1)).sum / n
  let yc := 256 * (b.map (fun a => a.2)).sum / n
  let peak := (b.map (fun a => (sigAt sig a.1 a.2).toNat)).foldl max 0
  leBytes 1 (c.blobKind h b) ++ [0] ++ leBytes 2 (c.panelX h xc) ++ leBytes 2 (c.panelY h yc) ++ leBytes 2 (min 65535 peak) ++
    leBytes 2 n ++ leBytes 1 (extent (b.map (fun a => a.1))) ++ leBytes 1 (extent (b.map (fun a => a.2)))

/-- The lists of blobs, longest first, the earlier on a tie. -/
def byArea : Nat → List (List (Nat × Nat)) → List (List (Nat × Nat))
  | 0, _ => []
  | fuel + 1, l =>
    match l.foldl (fun (best : Option (List (Nat × Nat))) b => match best with
        | none => some b
        | some a => if a.length < b.length then some b else some a) none with
    | none => []
    | some a => a :: byArea fuel (l.erase a)

/-- R330: the report leaves for the core die, or waits for the link (R24, R331). -/
def Chip.sendReport (c : Chip) (r : TouchReport) : Chip :=
  if c.d2dUp then { c with touchIn := c.touchIn ++ [r] } else c.queueUp (.report r)

/-- R330: the report of scan frame `k` with its entries. -/
def Chip.report (c : Chip) (h k : Nat) (start : Stamp) (flags : Nat) (entries : List (List Byte)) (objects : List (List Byte))
    (further : Nat) : Chip :=
  let x := c.tchan h
  let body := leBytes 8 start ++ leBytes 4 k ++ leBytes 1 h ++ leBytes 1 entries.length ++ leBytes 1 objects.length ++
    leBytes 1 (min 255 further) ++ leBytes 1 flags ++ leBytes 1 x.active ++ leBytes 2 (min 65535 (c.noiseF h x.active)) ++
    List.replicate 12 0
  let c := c.setFld (R.tchStat h) 12 8 entries.length
  c.sendReport { channel := h, k := k % 2 ^ 32, start := shortStamp start,
                 bytes := body ++ padTo 240 entries.flatten ++ padTo 48 objects.flatten }

/-- The flags that hold whatever the frame finds: NOISY, TEST, DRVLOW. -/
def Chip.frameFlags (c : Chip) (h : Nat) : Nat :=
  let x := c.tchan h
  (if c.fld (R.tchHop h) 31 16 < c.noiseF h x.active then 1 else 0) + (if x.hopped then 2 else 0) +
    (if x.test.isSome then 4 else 0) + (if c.bit (R.tchStat h) 28 then 64 else 0)

/-! ### The end of a scan frame -/

/-- R322, R325: a calibration frame: the last four of each frequency's eight are summed. The frequency is the one being
calibrated. -/
def Chip.calibrateFrame (c : Chip) (h : Nat) (raw : List (Nat × Nat)) : Chip :=
  let x := c.tchan h
  let fs := c.hopFreqs h
  let f := fs.getD (x.calFrames / 8) 0
  let sum := if decide (4 ≤ x.calFrames % 8) && decide (x.calFrames / 8 < fs.length) then
      raw.foldl (fun m r => mapMod (fun _ => 0) m (f * 4096 + r.1) (fun v => v + r.2)) x.calSum
    else x.calSum
  c.modTch h (fun x => { x with calSum := sum, calFrames := x.calFrames + 1, active := f })

/-- R323: nodes that lie within 2 nodes of any node of a list, and the self electrodes that have one of them. -/
def Chip.frozenBy (c : Chip) (h : Nat) (l : List (Nat × Nat)) : List Nat :=
  let close (i j : Nat) : Bool := l.any (fun n => decide (((n.1 : Int) - i).natAbs ≤ 2) && decide (((n.2 : Int) - j).natAbs ≤ 2))
  if l.isEmpty then []
  else
    let is := List.range (c.ndrv h)
    let js := List.range (c.nsns h)
    js.flatMap (fun j => (is.filter (fun i => close i j)).map (fun i => nodeKey i j)) ++
      (is.filter (fun i => js.any (fun j => close i j))).map (fun i => selfKey i) ++
      (js.filter (fun j => is.any (fun i => close i j))).map (fun j => selfKey (64 + j))

/-- R323: baselines that are not frozen track. -/
def Chip.trackBases (c : Chip) (h : Nat) (raw : List (Nat × Nat)) : Chip :=
  let noise := c.fld (R.tchThr2 h) 31 16
  let shift := c.fld (R.tchTrack h) 3 0
  c.modTch h (fun x => raw.foldl (fun x r =>
    if x.frozen.contains r.1 || decide ((noise : Int) ≤ x.signal x.active r.1 r.2) then x
    else
      let b := x.baseline x.active r.1
      x.setBase x.active r.1 (b + ((r.2 : Int) * 256 - b) / (2 : Int) ^ shift)) x)

/-- R324: negative signals in two consecutive frames re-calibrate every negative node and electrode that is not frozen. The
result tells whether it happened. `sig` are the signals of the frame that started at `start`, whose stamp the event has (R316). -/
def Chip.fastRecal (c : Chip) (h : Nat) (start : Stamp) (raw : List (Nat × Nat)) (sig : List (Nat × Int)) : Chip × Bool :=
  let x := c.tchan h
  let neg : Int := c.fld (R.tchThr2 h) 15 0
  let now := (sig.filter (fun s => decide (s.2 < -neg) && !x.frozen.contains s.1)).map (fun s => s.1)
  match now.find? (fun k => x.negRun.contains k) with
  | none => (c.modTch h (fun x => { x with negRun := now }), false)
  | some trigger =>
    let l := (sig.filter (fun s => decide (s.2 < 0) && !x.frozen.contains s.1)).map (fun s => s.1)
    let c := c.modTch h (fun x => { (l.foldl (fun x k => x.setBase x.active k ((mapGet (fun _ => 0) raw k : Nat) * 256)) x) with
      negRun := [] })
    ((c.bump (R.tchCnt h 2)).raiseLimited h
      { code := 0xC001, place := .room, stamp := start, content := [.val 1 h, .val 4 l.length, .val 4 trigger, .occ] }, true)

/-- R326 to R330: a frame of a channel that scans. -/
def Chip.scanFrame (c : Chip) (h k : Nat) (start : Stamp) (raw : List (Nat × Nat)) : Chip :=
  let x := c.tchan h
  let sig := raw.map (fun r => (r.1, x.signal x.active r.1 r.2))
  let nodes := (List.range (c.nsns h)).flatMap (fun j => (List.range (c.ndrv h)).map (fun i => (i, j)))
  let release : Int := c.fld (R.tchThr h) 31 16
  let touch := c.fld (R.tchThr h) 15 0
  let blobs := blobsOf (nodes.filter (fun n => decide (release ≤ sigAt sig n.1 n.2)))
  let objects := blobs.filter (fun b => c.blobKind h b != 0)
  let fingers := blobs.filter (fun b => c.blobKind h b == 0)
  let found := nodes.flatMap (fun n => match fingers.find? (fun b => b.contains n) with
    | some b => if isPeak sig n then [(peakOf sig b.length n, b)] else []
    | none => [])
  let peaks := (List.range found.length).zip (found.map (fun f => f.1))
  let (pairs, lost, free) := matchAll (c.fld (R.tchTrack h) 15 8 * 16) x.touches.length x.touches peaks
  let kept := pairs.map (fun m => { m.1 with
    xc := m.2.xc, yc := m.2.yc, x := c.panelX h m.2.xc, y := c.panelY h m.2.yc, s := m.2.s, area := m.2.area })
  let cancelled (t : TouchPt) : Bool := objects.any (fun b => b.any (fun n =>
    (n.1 : Int) == (t.xc + 128) / 256 && (n.2 : Int) == (t.yc + 128) / 256))
  let (new, over_) := c.newTouches h start free.length (x.touches.map (fun t => t.id)) (free.filter (fun p => decide (touch ≤ p.2.s)))
  let all := (kept.map (fun t => (t, 0))) ++ (lost.map (fun t => (t, if cancelled t then 10 else 2))) ++
    new.map (fun t => (t, 1))
  let entries := (List.range 20).flatMap (fun id => (all.filter (fun e => e.1.id == id)).map (fun e => touchEntry start e.1 e.2))
  let live := kept ++ new
  let held := fingers.filter (fun b => found.any (fun f => f.2 == b && live.any (fun t => t.xc == f.1.xc && t.yc == f.1.yc)))
  let frozen := c.frozenBy h (objects ++ held).flatten
  let c := c.modTch h (fun x => { x with touches := live, objects := objects.length, frozen := frozen })
  let c := c.trackBases h raw
  let (c, recal) := c.fastRecal h start raw sig
  let c := if over_ == 0 then c
    else (c.bump (R.tchCnt h 4)).raiseLimited h
      { code := 0xC005, place := .room, stamp := start, content := [.val 1 h, .val 4 over_, .occ] }
  let listed := (byArea objects.length objects).take 4
  c.report h k start (c.frameFlags h + (if over_ == 0 then 0 else 8) + (if recal then 16 else 0)) entries
    (listed.map (c.objectEntry h sig)) (objects.length - listed.length)

/-! ### The commands -/

/-- SCAN_FRAME_START (R316): at k × NS of Muith time. -/
def execScanFrameStart (t : Stamp) (h : Nat) (s : State) : Host.Outcome State Fault Refusal :=
  runIf (decide (h < 4)) (fun c =>
    let c := c.at t
    let ns := c.fld (R.tchPeriod h) 26 0
    if c.tchRun h != 0 && decide (0 < ns) && c.clk % ns == 0 then
      let now := c.clk
      c.modTch h (fun x => { x with scan := some (now / ns, now) })
    else c) s

/-- SCAN_FRAME_END (R317 to R330): the scan frame's measurements are processed, and its report leaves. -/
def execScanFrameEnd (t : Stamp) (h : Nat) (d : ScanData) (s : State) : Host.Outcome State Fault Refusal :=
  runIf (decide (h < 4)) (fun c =>
    let c := c.at t
    match (c.tchan h).scan with
    | none => c
    | some (k, start) =>
      let c := (c.modTch h (fun x => { x with scan := none })).bump (R.tchCnt h 0)
      let raw := c.rawCounts h d
      let testing := (c.tchan h).test.isSome
      let c := if testing then c.modTch h (fun x => { x with test := x.test.map (fun l => l ++ d.test.take 8) })
        else c.filterNoise h d
      let c := c.judgeNoise h
      let c := if c.fld (R.tchHop h) 31 16 < c.noiseF h (c.tchan h).active then c.bump (R.tchCnt h 6) else c
      let c :=
        if c.tchRun h == 1 then
          let c := if (c.tchan h).skip then c else c.calibrateFrame h raw
          c.report h k start (c.frameFlags h + 32) [] [] 0
        else
          let c := c.scanFrame h k start raw
          if testing then c else c.judgeHop h
      (c.modTch h (fun x => { x with hopped := false, skip := false })).setFld (R.tchStat h) 2 0 (c.tchan h).active) s

/-- FREQUENCY_HOP (R320): at the start of the next scan frame the channel switches. -/
def execFrequencyHop (t : Stamp) (h : Nat) (s : State) : Host.Outcome State Fault Refusal :=
  runIf (decide (h < 4)) (fun c =>
    let c := c.at t
    let x := c.tchan h
    match x.hopTo with
    | none => c
    | some j =>
      if x.test.isSome || c.tchRun h != 2 then c
      else
        let a := x.active
        let keys := c.nodeKeys h
        let o (f k : Nat) : Int := (mapGet (fun _ => 0) x.cal (f * 4096 + k) : Nat)
        let c := c.modTch h (fun x => { (keys.foldl (fun x k =>
            x.setBase j k (x.baseline a k + (o j k - o a k) * 256)) x) with
          active := j, hopped := true, hopTo := none, hopRun := none, negRun := [] })
        ((c.bump (R.tchCnt h 1)).setFld (R.tchStat h) 2 0 j).event 0xC003 .room
          [.val 1 h, .val 1 a, .val 1 j, .val 2 (c.noiseF h a), .val 2 (c.noiseF h j)]) s

/-- NOISE_TIMEOUT (R321): every enabled frequency has exceeded NOISE_MAX for 1 s. -/
def execNoiseTimeout (t : Stamp) (h : Nat) (s : State) : Host.Outcome State Fault Refusal :=
  runIf (decide (h < 4)) (fun c =>
    let c := c.at t
    let x := c.tchan h
    match x.noisySince with
    | some since =>
      if elapsed c.clk since nsPerS && !x.noisyTold then
        (c.modTch h (fun x => { x with noisyTold := true })).event 0xC006 .room
          (.val 1 h :: (c.hopFreqs h).map (fun i => .val 2 (c.noiseF h i)))
      else c
    | none => c) s

/-- LONG_TOUCH (R329): the duration of touch `id` reaches TIME seconds. -/
def execLongTouch (t : Stamp) (h id : Nat) (s : State) : Host.Outcome State Fault Refusal :=
  runIf (decide (h < 4)) (fun c =>
    let c := c.at t
    match (c.tchan h).touches.find? (fun x => x.id == id) with
    | none => c
    | some x =>
      if !x.long && elapsed c.clk x.down (c.fld (R.tchLong h) 15 0 * nsPerS) then
        let c := c.modTch h (fun ch => { ch with
          touches := ch.touches.map (fun y => if y.id == id then { y with long := true } else y) })
        (c.bump (R.tchCnt h 3)).event 0xC002 .room [.val 1 h, .val 1 id, .val 2 x.x, .val 2 x.y]
      else c) s

/-- R322, R325: a calibration starts with the next scan frame. -/
def Chip.startCalibration (c : Chip) (h : Nat) (initial : Bool) : Chip :=
  (c.modTch h (fun x => { x with
    calSum := [], calFrames := 0, initial := initial, touches := [], objects := 0, frozen := [], negRun := [],
    hopRun := none, hopTo := none, skip := x.scan.isSome })).setFld (R.tchStat h) 31 30 1

/-- R334: a self-test starts. -/
def Chip.startTest (c : Chip) (h : Nat) : Chip :=
  ((c.modTch h (fun x => { x with test := some [] })).setFld (R.tchStat h) 29 29 1).unpublish (R.tchTres h)

/-- R322: the calibration counts O of every node and electrode at each enabled frequency, by key. -/
def Chip.calCounts (c : Chip) (h : Nat) : List (Nat × Nat) :=
  let sum := (c.tchan h).calSum
  (c.hopFreqs h).flatMap (fun f => (c.nodeKeys h).map (fun k => (f * 4096 + k, mapGet (fun _ => 0) sum (f * 4096 + k) / 4)))

/-- CALIBRATION_DONE (R322, R324): the last calibration frame has ended: baselines, the starting frequency, and the warning
of a resting finger. A self-test follows the calibration at pitch. -/
def execCalibrationDone (t : Stamp) (h : Nat) (s : State) : Host.Outcome State Fault Refusal :=
  runIf (decide (h < 4)) (fun c =>
    let c := c.at t
    let x := c.tchan h
    if c.tchRun h != 1 || decide (x.calFrames < 8 * (c.hopFreqs h).length) then c
    else
      let counts := c.calCounts h
      let cal := counts.foldl (fun m e => mapPut (fun _ => 0) m e.1 e.2) []
      let base := counts.foldl (fun m e => mapPut (fun _ => 0) m e.1 ((e.2 : Int) * 256)) x.base
      let first := (c.quietest h).getD 0
      let c := (c.modTch h (fun x => { x with cal := cal, base := base, active := first, calSum := [] })).setFld
        (R.tchStat h) 31 30 2
      let c := c.setFld (R.tchStat h) 2 0 first
      let used := List.range (c.ndrv h) ++ (List.range (c.nsns h)).map (fun e => 64 + e)
      let c := forL used (fun e c =>
        if c.fld (R.tchRef h e) 15 0 + c.fld (R.tchThr h) 15 0 < mapGet (fun _ => 0) cal (first * 4096 + selfKey e) then
          c.event 0xC008 .room [.val 1 h, .val 1 e]
        else c) c
      if x.initial then (c.modTch h (fun x => { x with initial := false })).startTest h else c) s

/-- R334: the cause that refuses a command; 0 for none. -/
def Chip.touchCause (c : Chip) (h cmd : Nat) : Nat :=
  let x := c.tchan h
  if cmd == 1 then
    (if !c.bit (R.tchCtl h) 31 then 1 else if c.tchRun h == 1 then 2 else if x.test.isSome then 3 else 0)
  else if cmd == 2 then
    (if !c.bit (R.tchCtl h) 31 then 1 else if c.tchRun h == 1 then 2
      else if !x.touches.isEmpty || x.objects != 0 then 3 else 0)
  else 0

/-- R325, R334: a write of CMD to `TCH_CMD[h]`. -/
def Chip.touchCommand (c : Chip) (src : Source) (h cmd : Nat) : Chip :=
  let cause := c.touchCause h cmd
  if cause != 0 then c.refuse src (R.tchCmd h) (cmdWord cmd) cause
  else if cmd == 1 then c.startTest h
  else if cmd == 2 then c.startCalibration h false
  else c

/-- SELFTEST (R334). -/
def execSelftest (t : Stamp) (src : Source) (h : Nat) (s : State) : Host.Outcome State Fault Refusal :=
  runIf (decide (h < 4)) (fun c => (c.at t).overLink src (R.tchCmd h) (cmdWord 1) (fun c => c.touchCommand src h 1)) s

/-- RECAL (R325). -/
def execRecal (t : Stamp) (src : Source) (h : Nat) (s : State) : Host.Outcome State Fault Refusal :=
  runIf (decide (h < 4)) (fun c => (c.at t).overLink src (R.tchCmd h) (cmdWord 2) (fun c => c.touchCommand src h 2)) s

/-- R334: the electrodes in use, and the measurements of a self-test: self counts, then couplings to the next neighbour on
the same axis. -/
def Chip.testPlan (c : Chip) (h : Nat) : List (Nat × Bool) :=
  let d := List.range (c.ndrv h)
  let e := (List.range (c.nsns h)).map (fun e => 64 + e)
  (d ++ e).map (fun x => (x, false)) ++ (d.dropLast ++ e.dropLast).map (fun x => (x, true))

/-- SELFTEST_DONE (R334): the self-test's verdicts. -/
def execSelftestDone (t : Stamp) (h : Nat) (s : State) : Host.Outcome State Fault Refusal :=
  runIf (decide (h < 4)) (fun c =>
    let c := c.at t
    match (c.tchan h).test with
    | none => c
    | some l =>
      let plan := c.testPlan h
      if l.length < plan.length then c
      else
        let m := plan.zip l
        let openOf (e : Nat) : Bool := m.any (fun x => x.1 == (e, false) && c.fld (R.tchRef h e) 15 0 != 0 &&
          decide (x.2 * 100 < c.fld (R.tchRef h e) 15 0 * c.fld (R.tchTest h) 7 0))
        let shortOf (e : Nat) : Bool := m.any (fun x =>
          (x.1 == (e, false) && (x.2 == 0 || x.2 == 65535)) ||
          ((x.1 == (e, true) || x.1 == (e - 1, true) && e != 0 && e != 64) && decide (c.fld (R.tchTest h) 31 16 ≤ x.2)))
        let opens := (List.range 112).filter openOf
        let shorts := (List.range 112).filter shortOf
        let word (l : List Nat) (i : Nat) : Nat := ((l.filter (fun e => e / 32 == i)).map (fun e => 2 ^ (e % 32))).sum
        let c := forN 4 (fun i c => (c.setNat (R.tchTresOpen h i) (word opens i)).setNat (R.tchTresShort h i) (word shorts i)) c
        let c := ((c.modTch h (fun x => { x with test := none })).setFld (R.tchStat h) 29 29 0).publish (R.tchTres h)
        (c.event 0xC004 .room [.val 1 h, .val 4 opens.length, .val 4 shorts.length]).noteHeads) s

/-- DRIVE_RAIL_CHANGE (R332): the touch drive rail cannot hold DRV_V, or holds it again. -/
def execDriveRailChange (t : Stamp) (h : Nat) (low : Bool) (s : State) : Host.Outcome State Fault Refusal :=
  runIf (decide (h < 4)) (fun c =>
    let c := c.at t
    if c.bit (R.tchStat h) 28 == low then c
    else (c.setFld (R.tchStat h) 28 28 (if low then 1 else 0)).event 0xC007 .room [.val 1 h, .val 1 (if low then 1 else 0)]) s

end Sys2Proof.Machine
end

