-- ==== Sys2Proof/Machine/Journal.lean ====
section
/-! DEFINITION. The event journal (R446 to R451, R515): records, the ring, severity and policy, syslog and ALERT_N. -/

namespace Sys2Proof.Machine

/-! ### The image in force (R417 to R419) -/

/-- Bytes of the header of the image in force; 0 where there is none. -/
def Chip.hdr (c : Chip) (o n : Nat) : Nat := match c.pitch.image with | some i => leAt i.header o n | none => 0

/-- Fields of a section table entry (R418): type, flags, offset in the slot, length, DRAM offset. -/
def secKind (x : FlashSection) : Nat := leAt x.entry 0 2
/-- See `secKind`. -/
def secFlags (x : FlashSection) : Nat := leAt x.entry 2 2
/-- See `secKind`. -/
def secOfs (x : FlashSection) : Nat := leAt x.entry 4 4
/-- See `secKind`. -/
def secLen (x : FlashSection) : Nat := leAt x.entry 8 4
/-- See `secKind`. -/
def secDram (x : FlashSection) : Nat := leAt x.entry 16 8

/-- R418: a section applies on a side: SIDE0 and SIDE1 restrict it. -/
def onSide (x : FlashSection) (side : Nat) : Bool :=
  let f := secFlags x
  (f / 2 % 2 == 0 && f / 4 % 2 == 0) || (if side == 0 then f / 2 % 2 == 1 else f / 4 % 2 == 1)

/-- The sections of a type that apply on this part's side, in table order. -/
def Chip.sections (c : Chip) (kind : Nat) : List FlashSection :=
  match c.pitch.image with
  | some i => i.sections.filter (fun x => secKind x == kind && onSide x (c.fld R.twnCfg 16 16))
  | none => []

/-- The content of the sections of a type, joined. -/
def Chip.sectionBytes (c : Chip) (kind : Nat) : List Byte := (c.sections kind).flatMap (fun x => x.data)

/-! ### Policy (R439) -/

/-- An entry of the policy table. -/
structure Policy where
  code : Nat
  mask : Nat
  level : Nat
  severity : Nat
  last : Bool
  action : Nat
  arg : Nat
  deriving DecidableEq, Repr

/-- Reading 16 bytes as a policy entry. -/
def policyOf (l : List Byte) : Policy :=
  { code := leAt l 0 2, mask := leAt l 2 2, level := leAt l 4 1, severity := leAt l 5 1 % 8, last := leAt l 5 1 / 128 % 2 == 1,
    action := leAt l 6 1, arg := leAt l 8 4 }

/-- R5: the level code of a fault address. -/
def FaultAddr.level : FaultAddr → Nat
  | .pixel _ _ _ => 1
  | .tile _ _ _ => 2
  | .element _ => 3
  | .surface _ => 4
  | .wall _ => 5
  | .room => 6

/-- R439: an entry matches an event. -/
def Policy.matches_ (p : Policy) (code level : Nat) : Bool :=
  (code &&& p.mask) == (p.code &&& p.mask) && (p.level == 0 || p.level == level)

/-- Entries in table order up to one with LAST set. -/
def upToLast : List Policy → List Policy
  | [] => []
  | p :: rest => if p.last then [p] else p :: upToLast rest

/-- R439: the entries that an event matches, in table order up to one with LAST set. -/
def Chip.policies (c : Chip) (code level : Nat) : List Policy :=
  upToLast (((pieces 16 (c.sectionBytes 6)).map policyOf).filter (fun p => p.matches_ code level))

/-! ### Records (R446, R447, R515) -/

/-- R447: bytes 26 to 31 of a record. -/
def placeBytes : FaultAddr → List Byte
  | .pixel h x y => leBytes 1 h ++ [0] ++ leBytes 2 x ++ leBytes 2 y
  | .tile h tx ty => leBytes 1 h ++ [0] ++ leBytes 2 tx ++ leBytes 2 ty
  | .element e => [0, 0] ++ leBytes 4 e
  | .surface h => leBytes 1 h ++ leBytes 5 0
  | .wall w => leBytes 1 w ++ leBytes 5 0
  | .room => leBytes 6 0

/-- R515: the content's bytes: each field at the next multiple of its width, saturated to it. -/
def contentBytes (l : List CField) : List Byte :=
  l.foldl (fun b f =>
    let (w, v) := match f with | .val w v => (w, v) | .occ => (4, 1)
    b ++ leBytes ((w - b.length % w) % w) 0 ++ leBytes w (min v (2 ^ (8 * w) - 1))) []

/-- A record's bytes 0 to 59 (R446). -/
def Chip.recordBody (c : Chip) (tap seq : Nat) (e : Ev) (code sev : Nat) (acted : Bool) (content : List Byte) : List Byte :=
  leBytes 8 (shortStamp tap) ++ leBytes 8 (shortStamp e.stamp) ++ leBytes 4 seq ++ leBytes 2 code ++
    leBytes 1 (e.place.level + (if c.watch.noTime then 8 else 0) + (if acted then 16 else 0) + sev * 32) ++
    leBytes 1 c.partIndex ++ leBytes 2 c.roomNumber ++ placeBytes e.place ++ padTo 28 content

/-! ### ALERT_N and FAULT_N (R450, R451) -/

/-- R450: sequence number `s` is above `ack`. -/
def seqAbove (s ack : Nat) : Bool := decide (0 < signedOf 32 (s + 2 ^ 32 - ack % 2 ^ 32))

/-- R450: ALERT_N as the halt and the records of alerting severity have it. -/
def Chip.syncAlert (c : Chip) : Chip :=
  let on := c.bit R.pitStat 30 ||
    c.jrn.sevLast.any (fun e => decide (e.1 ≤ c.fld R.evjAlert 2 0) && seqAbove e.2 (c.reg R.evjAck).toNat)
  if on == c.bit R.evjStat 31 then c
  else
    let v := if on then 1 else 0
    (c.setFld R.evjStat 31 31 v).send (.alertN v)

/-- R451: FAULT_N is asserted, until reset. -/
def Chip.assertFault (c : Chip) : Chip :=
  if c.bit R.evjStat 30 then c else (c.setFld R.evjStat 30 30 1).send (.faultN 1)

/-- R450: a write of `EVJ_ACK`; a value above the last record written is clamped to that record. -/
def Chip.ackWrite (c : Chip) (seq : Nat) : Chip :=
  let last := ((c.reg R.evjNext).toNat + 2 ^ 32 - 1) % 2 ^ 32
  (c.setNat R.evjAck (if seqAbove seq last then last else seq)).syncAlert

/-! ### Syslog (R449) -/

/-- The civil date of a day number from 1970-01-01: year, month, day. -/
def civilDate (days : Nat) : Nat × Nat × Nat :=
  let z := days + 719468
  let era := z / 146097
  let doe := z % 146097
  let yoe := (doe - doe / 1460 + doe / 36524 - doe / 146096) / 365
  let doy := doe - (365 * yoe + yoe / 4 - yoe / 100)
  let mp := (5 * doy + 2) / 153
  let m := if mp < 10 then mp + 3 else mp - 9
  (yoe + era * 400 + (if m ≤ 2 then 1 else 0), m, doy - (153 * mp + 2) / 5 + 1)

/-- `n` decimal digits of a number. -/
def decN (n v : Nat) : List Nat := (digitsOf 10 n v).map digitChar

/-- R449: a stamp in UTC to µs, as RFC 5424 writes it. -/
def Chip.utcText (c : Chip) (t : Stamp) : List Nat :=
  let s := ((t / nsPerS : Nat) : Int) - signedOf 16 (c.fld R.muiUtc 15 0)
  let s := s.toNat
  let (y, mo, d) := civilDate (s / 86400)
  decN 4 y ++ codes "-" ++ decN 2 mo ++ codes "-" ++ decN 2 d ++ codes "T" ++ decN 2 (s / 3600 % 24) ++ codes ":" ++
    decN 2 (s / 60 % 60) ++ codes ":" ++ decN 2 (s % 60) ++ codes "." ++ decN 6 (t % nsPerS / 1000) ++ codes "Z"

/-- R449: the message of a record. -/
def Chip.syslogText (c : Chip) (rec_ : List Byte) : List Byte :=
  let sev := leAt rec_ 22 1 / 32
  let hex (n v : Nat) : List Nat := (digitsOf 16 n v).map digitChar
  let name := match c.pitch.image with
    | some i => ((i.header.drop 160).take 32).map (fun b => b.toNat) |>.takeWhile (fun ch => ch != 0)
    | none => []
  let text := codes "<" ++ decDigits (c.fld R.evjSyscfg 4 0 * 8 + sev) ++ codes ">1 " ++ c.utcText (leAt rec_ 8 8) ++ codes " " ++
    name ++ codes "-p" ++ decDigits c.partIndex ++ codes " sp960 - " ++ hex 4 (leAt rec_ 20 2) ++ codes " [evj@" ++
    decDigits (c.reg R.evjSyscfgPen).toNat ++ codes " seq=\"" ++ decDigits (leAt rec_ 16 4) ++ codes "\" lvl=\"" ++
    decDigits (leAt rec_ 22 1 % 8) ++ codes "\" rec=\"" ++ rec_.flatMap (fun b => hex 2 b.toNat) ++ codes "\"]"
  text.map (fun n => BitVec.ofNat 8 n)

/-- R449: a record goes to every enabled collector; one that cannot be sent is counted, with event 0x0302. -/
def Chip.syslog (c : Chip) (rec_ : List Byte) : Chip :=
  forN 2 (fun i c =>
    if !c.bit (R.evjSyslog i) 31 then c
    else if c.bit R.mgtCtl 31 then
      let v6 := c.bit (R.evjSyslog i) 30
      (c.send (.mgt v6 (c.addrOf v6 (R.evjSyslogAddr i)) (c.fld (R.evjSyslog i) 15 0) (c.syslogText rec_))).bump (R.evjCnt 2)
    else (c.bump (R.evjCnt 3)).eventLimited i 0x0302 .room [.val 1 i, .occ]) c

/-! ### Writing records (R448) -/

/-- The records that the watch cores keep until the ring opens. -/
def keptCap : Nat := 64

/-- R448, R403: a record of 64 bytes enters the ring, or the watch cores' memory while the ring is closed. A ring write
that the protection unit of the journal faults is dropped. -/
def Chip.storeRecord (c : Chip) (seq : Nat) (rec_ : List Byte) : Chip :=
  if c.bit R.evjStat 29 then
    let a := c.base40 R.evjRingLo R.evjRingHi + seq % 2 ^ c.fld R.evjSize 4 0 * 64
    let (c, ok) := c.checkDram ⟨22, 0, false, 1, 8, 0, a, 64, rec_, 0⟩
    if ok then (c.dramWrite a rec_).bump (R.evjCnt 0) else c.bump (R.evjCnt 1)
  else { c with jrn := { c.jrn with kept := c.jrn.kept ++ [rec_] } }.bump (R.evjCnt 0)

/-- R36: the mark NOTIME clears on the first record written after the tap has been within its bound for 1 ms. -/
def Chip.clearNoTime (c : Chip) (tap : Stamp) : Chip :=
  match c.watch.backSince with
  | some b => if elapsed tap b nsPerMs then { c with watch := { c.watch with noTime := false, backSince := none } } else c
  | none => c

/-- One record with its CRC from check unit 4 (R446), its sequence number, and its syslog messages. -/
def Chip.writeRecord (c : Chip) (tap : Stamp) (e : Ev) (code sev : Nat) (acted : Bool) (content : List Byte) : Chip :=
  let c := c.clearNoTime tap
  let seq := (c.reg R.evjNext).toNat
  let body := c.recordBody tap seq e code sev acted content
  let (c, v) := c.chkRun 4 body
  let rec_ := body ++ crcBytes 3 v.check
  let c := (c.setNat R.evjNext (seq + 1)).storeRecord seq rec_
  let c := { c with jrn := { c.jrn with sevLast := mapPut (fun _ => 2 ^ 32) c.jrn.sevLast sev seq } }
  c.syslog rec_

/-- R515: the content beyond 28 bytes in continuation records; `n` bounds their number. -/
def Chip.writeRest (tap : Stamp) (e : Ev) (sev : Nat) : Nat → List Byte → Chip → Chip
  | 0, _, c => c
  | n + 1, l, c =>
    if l.isEmpty then c else Chip.writeRest tap e sev n (l.drop 28) (c.writeRecord tap e 0x0300 sev false (l.take 28))

/-- R448, R439, R515: the watch cores write the record of an event; FAULT acts at once, other actions go to base firmware. -/
def Chip.recordEvent (c : Chip) (tap : Stamp) (e : Ev) : Chip :=
  let pol := c.policies e.code e.place.level
  let sev := match pol with | p :: _ => p.severity | [] => 5
  let acts := pol.filter (fun p => p.action != 0)
  let content := contentBytes e.content
  let c := c.writeRecord tap e e.code sev (!acts.isEmpty) (content.take 28)
  let c := Chip.writeRest tap e sev content.length (content.drop 28) c
  let c := if c.pitch.loadDone && acts.any (fun p => p.action == 1) then c.assertFault else c
  let later := (acts.filter (fun p => p.action != 1)).map (fun p => (⟨p.action, p.arg, e.place⟩ : PolicyAct))
  ({ c with jrn := { c.jrn with acts := c.jrn.acts ++ later } } : Chip).syncAlert

/-- R448: the dropped events are told by one record of event 0x0301. -/
def Chip.tellDropped (c : Chip) : Chip :=
  match c.evDrop with
  | none => c
  | some (n, first, last) =>
    if c.evq.length < evqCap then
      ({ c with evDrop := none } : Chip).event 0x0301 .room [.val 4 n, .val 2 first, .val 2 last]
    else c

/-- EVENT_RECORD_WRITE (R448): the oldest queued event becomes a record; with the ring closed and the watch cores' memory
full it is dropped and counted. -/
def execEventRecordWrite (t : Stamp) (s : State) : Host.Outcome State Fault Refusal :=
  runIf true (fun c =>
    let c := c.at t
    match c.evq with
    | [] => c
    | e :: rest =>
      let c := ({ c with evq := rest } : Chip).syncBacklog
      if !c.bit R.evjStat 29 && decide (keptCap ≤ c.jrn.kept.length) then c.dropEvent e.code
      else (c.recordEvent t e).tellDropped) s

/-- RATE_LIMIT_WINDOW_END (R514). -/
def execRateLimitWindowEnd (t : Stamp) (code unit : Nat) (s : State) : Host.Outcome State Fault Refusal :=
  runIf true (fun c => (c.at t).rateWindowEnd code unit) s

/-- ACKNOWLEDGE (R450). -/
def execAcknowledge (t : Stamp) (seq : Nat) (s : State) : Host.Outcome State Fault Refusal :=
  runIf true (fun c => (c.at t).ackWrite (seq % 2 ^ 32)) s

/-- R426, R448: LOAD opens the ring, and the records kept are copied in. -/
def Chip.openRing (c : Chip) : Chip :=
  let l := c.jrn.kept
  let c := { c.setFld R.evjStat 29 29 1 with jrn := { c.jrn with kept := [] } }
  forL l (fun r c =>
    let a := c.base40 R.evjRingLo R.evjRingHi + leAt r 16 4 % 2 ^ c.fld R.evjSize 4 0 * 64
    let (c, ok) := c.checkDram ⟨22, 0, false, 1, 8, 0, a, 64, r, 0⟩
    if ok then c.dramWrite a r else c.bump (R.evjCnt 1)) c

end Sys2Proof.Machine
end

