-- ==== Sys2Proof/Machine/Ports.lean ====
section
/-! DEFINITION. Starting and stopping heads (R293) and the DisplayPort transmit ports (R305 to R310). -/

namespace Sys2Proof.Machine

/-! ### Streams (R307) -/

/-- Every port starts with nothing known of its sink. -/
def portDefault : Nat → DpPort := fun _ => {}

/-- Transmit port `p`. -/
def Chip.port (c : Chip) (p : Nat) : DpPort := mapGet portDefault c.ports p

/-- Transmit port `p` changes. -/
def Chip.modPort (c : Chip) (p : Nat) (f : DpPort → DpPort) : Chip := { c with ports := mapMod portDefault c.ports p f }

/-- The states of R306. -/
def dpOff : Nat := 0
/-- See `dpOff`. -/
def dpNoSink : Nat := 1
/-- See `dpOff`. -/
def dpTraining : Nat := 2
/-- See `dpOff`. -/
def dpUp : Nat := 3
/-- See `dpOff`. -/
def dpWait : Nat := 4

/-- The state of port `p`. -/
def Chip.dpState (c : Chip) (p : Nat) : Nat := c.fld (R.dptStat p) 30 28

/-- The port takes a state. -/
def Chip.setDp (c : Chip) (p st : Nat) : Chip := c.setFld (R.dptStat p) 30 28 st

/-- The run state of head `h` (R293). -/
def Chip.headRun (c : Chip) (h : Nat) : Nat := c.fld (R.hedStat h) 31 30

/-- The head whose stream is stream `st` of port `p`, while it runs (R307). -/
def Chip.streamHead (c : Chip) (p st : Nat) : Option Nat :=
  (List.range 32).find? (fun h => c.fld (R.hedOut h) 31 30 == 1 && c.fld (R.hedOut h) 29 27 == p &&
    (if c.bit (R.dptCtl p) 30 then c.fld (R.hedOut h) 26 25 else 0) == st && c.headRun h != 0)

/-- Stream `st` of port `p` becomes carried or not, with event 0xB004. One that is no longer carried stops at once (R306, R309);
a carried one begins its video at the head's next frame start (R307). -/
def Chip.setCarried (c : Chip) (p st h new cause : Nat) : Chip :=
  let c := if new == 0 then c.modHead h (fun x => { x with videoOn := false }) else c
  ((c.setFld (R.dptStat p) (16 + st) (16 + st) new).setFld (R.hedStat h) 26 26 new).event 0xB004 (.surface h)
    [.val 1 p, .val 1 st, .val 1 new, .val 4 (Config.eventCode 0xB004 cause)]

/-- R290: Q of head `h`, in 2^-16 ns. -/
def Chip.headQ (c : Chip) (h : Nat) : Nat := c.fld (R.hedPeriod h) 26 0 * 65536 + c.fld (R.hedPeriodFrac h) 15 0

/-- The rate of a lane, coded as MAXRATE, in kbit/s (R305). PRESUMED (DisplayPort 2.1, log 100), as the two below. -/
def laneRate (rate : Nat) : Nat := [1620000, 2700000, 5400000, 8100000, 10000000, 13500000].getD rate 20000000

/-- R307: the payload capacity of port `p`'s link in kbit/s: its lanes' rate less the coding, and less 2.4 % on 8b/10b with FEC. -/
def Chip.linkCapacity (c : Chip) (p : Nat) : Nat :=
  let rate := c.fld (R.dptStat p) 27 25
  let raw := laneRate rate * 2 ^ c.fld (R.dptStat p) 24 23
  if 4 ≤ rate then raw * 128 / 132 else if c.bit (R.dptStat p) 22 then raw * 8 / 10 * 976 / 1000 else raw * 8 / 10

/-- Bits of a pixel of head `h`'s stream: by FMT, or with DSC bits_per_pixel of its unit's parameter set, in sixteenths. -/
def Chip.pixelBits (c : Chip) (h : Nat) : Nat :=
  if c.bit (R.hedOut h) 24 then
    let w := c.fld (R.dptDscPps (c.fld (R.hedOut h) 23 20) 1) 15 0
    w % 4 * 256 + w / 256
  else 16 * (match c.fld (R.hedOut h) 19 18 with
    | 0 => 24
    | 3 => 20
    | _ => 30)

/-- R307: the bandwidth of head `h`'s stream in kbit/s, from the pixel rate of R289. -/
def Chip.streamNeed (c : Chip) (h : Nat) : Nat :=
  ceilDiv (c.fld (R.hedHtim h) 31 16 * c.fld (R.hedVtim h) 31 16 * 65536 * 10 ^ 6 * c.pixelBits h) (16 * c.headQ h)

/-- R307: the room of port `p`: its capacity, or with MST its time slots. -/
def Chip.portRoom (c : Chip) (p : Nat) : Nat :=
  if c.bit (R.dptCtl p) 30 then (if 4 ≤ c.fld (R.dptStat p) 27 25 then 64 else 63) else c.linkCapacity p

/-- R307: what head `h`'s stream takes of port `p`'s room: its bandwidth, or with MST whole time slots, 64ths of the capacity. -/
def Chip.streamCost (c : Chip) (p h : Nat) : Nat :=
  if c.bit (R.dptCtl p) 30 then ceilDiv (64 * c.streamNeed h) (c.linkCapacity p) else c.streamNeed h

/-- R305: a sideband request to the sink of stream `st`, as `DPT_RAD` routes it. -/
def Chip.sideband (c : Chip) (p st : Nat) (req : Sideband) : Chip :=
  c.send (.dpAux p (.sideband req (c.fld (R.dptRad p st) 31 28) (c.fld (R.dptRad p st) 15 0)))

/-- R307: the port that newly carries stream `st` allocates its payload, with VC payload ID stream + 1, on an MST link. -/
def Chip.payload (c : Chip) (p st : Nat) : Chip :=
  if c.bit (R.dptCtl p) 30 then (c.sideband p st .enumPathResources).sideband p st (.allocatePayload (st + 1)) else c

/-- R305, R306: the port reads its sink's capabilities and EDID, and on an MST link enumerates the topology to the sinks that
`DPT_RAD` names. The order of the requests is PRESUMED (DisplayPort 2.1, log 100). -/
def Chip.enumerate (c : Chip) (p : Nat) : Chip :=
  let c := (c.send (.dpAux p .capabilities)).send (.dpAux p .repeaters)
  if c.bit (R.dptCtl p) 30 then
    let c := (c.send (.dpAux p (.sideband .clearPayloadIdTable 0 0))).send (.dpAux p (.sideband .linkAddress 0 0))
    forN 4 (fun st c => ((((c.sideband p st .linkAddress).sideband p st .powerUpPhy).sideband p st .remoteDpcdRead).sideband p st
      .remoteDpcdWrite).sideband p st .remoteI2cRead) c
  else c.send (.dpAux p .edid)

/-- R307: the streams of a port that is UP are carried in ascending order while they fit; `cause` is 0 bandwidth, 1 allocation,
2 link. -/
def Chip.allocate (c : Chip) (p : Nat) : Chip :=
  let x := c.port p
  let step (st : Nat) (a : Chip × Nat) : Chip × Nat :=
    let (c, left) := a
    match c.streamHead p st with
    | none => (c.setFld (R.dptStat p) (16 + st) (16 + st) 0, left)
    | some h =>
      let need := c.streamCost p h
      if x.denied.contains st then (c.setCarried p st h 0 1, left)
      else if left < need then (c.setCarried p st h 0 0, left)
      else (if c.bit (R.dptStat p) (16 + st) then c else (c.setCarried p st h 1 2).payload p st, left - need)
  if c.dpState p == dpUp then (forN (if c.bit (R.dptCtl p) 30 then 4 else 1) step (c, c.portRoom p)).1 else c

/-- R306: the port's streams stop. -/
def Chip.stopStreams (c : Chip) (p : Nat) : Chip :=
  forN 4 (fun st c =>
    if !c.bit (R.dptStat p) (16 + st) then c
    else match c.streamHead p st with
      | some h => c.setCarried p st h 0 2
      | none => c.setFld (R.dptStat p) (16 + st) (16 + st) 0) c

/-! ### Heads (R290, R293) -/

/-- R290: the first frame count whose grid instant is at or after `t`. -/
def Chip.gridAfter (c : Chip) (h : Nat) (t : Stamp) : Nat := ceilDiv ((t - c.fld (R.hedPhase h) 26 0) * 65536) (c.headQ h)

/-- R293: a stopped head starts towards the first grid instant at least 2 ms away; its stream is set up. -/
def Chip.startHead (c : Chip) (h : Nat) : Chip :=
  let k := c.gridAfter h (c.clk + 2 * nsPerMs)
  let c := c.setFld (R.hedStat h) 31 30 1
  let c := c.modHead h (fun x => { x with k := k, firstK := k, raster := 0, trim := 0 })
  if c.fld (R.hedOut h) 31 30 == 1 then c.allocate (c.fld (R.hedOut h) 29 27) else c

/-- A head's stream ends with the head, and its port carries what fits now. -/
def Chip.dropStream (c : Chip) (h : Nat) : Chip :=
  if c.fld (R.hedOut h) 31 30 == 1 then (c.setFld (R.hedStat h) 26 26 0).allocate (c.fld (R.hedOut h) 29 27) else c

/-- R293: a write of `HED_CTL[h]`. -/
def Chip.headEnable (c : Chip) (h : Nat) (data : Word) : Chip :=
  let c := c.writeFields (R.hedCtl h) data
  let on := c.bit (R.hedCtl h) 31
  if on && c.headRun h == 0 then c.startHead h
  else if !on && c.headRun h == 1 then (c.setFld (R.hedStat h) 31 30 0).dropStream h
  else c

/-- HEAD_ENABLE_WRITE (R293). -/
def execHeadEnableWrite (t : Stamp) (h : Nat) (data : Word) (s : State) : Host.Outcome State Fault Refusal :=
  runIf (decide (h < 32)) (fun c => (c.at t).headEnable h data) s

/-! ### Links (R306, R310) -/

/-- R305, R306: the settings in the order of the fallback: from the lower of both ends' rates down to RBR, then half the
lanes and the highest rate again. Lanes are coded 0 one, 1 two, 2 four. -/
def fallback (rate lanes : Nat) : List (Nat × Nat) :=
  (List.range (lanes + 1)).reverse.flatMap (fun l => (List.range (rate + 1)).reverse.map (fun r => (r, l)))

/-- R306: EDID block 0 of a stream's sink. -/
def Chip.storeEdid (c : Chip) (p : Nat) (edid : List (Nat × List Byte)) : Chip :=
  forL edid (fun e c => forN 32 (fun i c => c.setNat (R.dptEdid p (e.1 % 4) i) (leAt e.2 (4 * i) 4)) c) c

/-- R305: FEC runs on 128b/132b links, and on others whenever a stream on the port uses DSC. -/
def Chip.fecOn (c : Chip) (p rate : Nat) : Bool :=
  decide (4 ≤ rate) || (List.range 32).any (fun h => c.fld (R.hedOut h) 31 30 == 1 && c.fld (R.hedOut h) 29 27 == p &&
    c.bit (R.hedOut h) 24)

/-- A link is lost: its streams stop, event 0xB002; `cause` is 0 HPD or 1 link status. -/
def Chip.dpLost (c : Chip) (p st cause : Nat) : Chip :=
  let c := ((c.stopStreams p).setDp p st).addFld (R.dptStat p) 15 8 1
  (c.bump (R.dptCnt p 2)).event 0xB002 .room [.val 1 p, .val 4 (Config.eventCode 0xB002 cause)]

/-- HPD_HIGH_DEBOUNCE (R306): HPD has been high for 100 ms; the sink's highest rate and lane count and the EDIDs are read. -/
def execHpdHighDebounce (t : Stamp) (p rate lanes : Nat) (edid : List (Nat × List Byte)) (s : State) :
    Host.Outcome State Fault Refusal :=
  runIf (decide (p < 8)) (fun c =>
    let c := (c.at t).setFld (R.dptStat p) 31 31 1
    if c.dpState p == dpNoSink then
      (((c.enumerate p).modPort p (fun x => { x with sinkRate := rate, sinkLanes := lanes })).storeEdid p edid).setDp p dpTraining
    else c) s

/-- DP_TRAINING_DONE (R306, R307): `good` are the settings (rate, lanes) at which training
succeeds, `denied` the streams whose allocation the topology refuses. -/
def execDpTrainingDone (t : Stamp) (p : Nat) (good : List (Nat × Nat)) (denied : List Nat) (s : State) :
    Host.Outcome State Fault Refusal :=
  runIf (decide (p < 8)) (fun c =>
    let c := c.at t
    if c.dpState p != dpTraining then c
    else
      let x := c.port p
      let steps := fallback (min (c.fld (R.dptCtl p) 29 27) x.sinkRate) (min (c.fld (R.dptCtl p) 26 25) x.sinkLanes)
      let tried := steps.takeWhile (fun st => !good.contains st)
      let c := forL tried (fun st c => c.send (.dpAux p (.train st.1 st.2))) c
      match steps.find? (fun st => good.contains st) with
      | some (rate, lanes) =>
        let fec := if c.fecOn p rate then 1 else 0
        let c := (((c.setDp p dpUp).setFld (R.dptStat p) 27 25 rate).setFld (R.dptStat p) 24 23 lanes).setFld (R.dptStat p) 22 22 fec
        let c := (c.send (.dpAux p (.train rate lanes))).modPort p (fun x => { x with denied := denied })
        let c := (c.bump (R.dptCnt p 0)).event 0xB001 .room [.val 1 p, .val 1 rate, .val 1 lanes, .val 1 fec]
        c.allocate p
      | none =>
        let c := (c.setDp p dpWait).modPort p (fun x => { x with waitSince := c.clk })
        (c.bump (R.dptCnt p 1)).eventLimited p 0xB003 .room [.val 1 p, .occ]) s

/-- IRQ_HPD (R306): `lost` tells a link status without lock or alignment, `mst` a topology change with what the new topology
gives. -/
def execIrqHpd (t : Stamp) (p : Nat) (lost : Bool) (mst : Option Topology) (s : State) : Host.Outcome State Fault Refusal :=
  runIf (decide (p < 8)) (fun c =>
    let c := (c.at t).bump (R.dptCnt p 3)
    if c.dpState p != dpUp then c
    else if lost then c.dpLost p dpTraining 1
    else match mst with
      | some top =>
        let c := (c.enumerate p).modPort p (fun x => { x with denied := top.denied })
        (c.storeEdid p top.edid).allocate p
      | none => c) s

/-- HPD_LOW_TIMEOUT (R306): HPD has been low for 2 ms. -/
def execHpdLowTimeout (t : Stamp) (p : Nat) (s : State) : Host.Outcome State Fault Refusal :=
  runIf (decide (p < 8)) (fun c =>
    let c := (c.at t).setFld (R.dptStat p) 31 31 0
    if c.dpState p == dpOff || c.dpState p == dpNoSink then c else c.dpLost p dpNoSink 0) s

/-- DP_RETRY_TIMEOUT (R306): RETRY ms have passed in WAIT with HPD high. -/
def execDpRetryTimeout (t : Stamp) (p : Nat) (s : State) : Host.Outcome State Fault Refusal :=
  runIf (decide (p < 8)) (fun c =>
    let c := c.at t
    if c.dpState p == dpWait && c.bit (R.dptStat p) 31 &&
      elapsed c.clk (c.port p).waitSince (c.fld (R.dptCtl p) 15 0 * nsPerMs) then c.setDp p dpTraining else c) s

/-- R310: the cause that refuses RETRAIN; 0 for none. -/
def Chip.retrainCause (c : Chip) (p : Nat) : Nat :=
  if !c.bit (R.dptCtl p) 31 then 1 else if !c.bit (R.dptStat p) 31 then 2 else if c.dpState p == dpTraining then 3 else 0

/-- R310: a write of CMD to `DPT_CMD[p]`. -/
def Chip.portCommand (c : Chip) (src : Source) (p cmd : Nat) : Chip :=
  if cmd == 1 then
    let cause := c.retrainCause p
    if cause != 0 then c.refuse src (R.dptCmd p) (cmdWord cmd) cause
    else if c.dpState p == dpUp then c.dpLost p dpTraining 1
    else if c.dpState p == dpWait then c.setDp p dpTraining
    else c
  else c

/-- RETRAIN (R310). -/
def execRetrain (t : Stamp) (src : Source) (p : Nat) (s : State) : Host.Outcome State Fault Refusal :=
  runIf (decide (p < 8)) (fun c => (c.at t).portCommand src p 1) s

end Sys2Proof.Machine
end

