-- ==== Sys2Proof/Machine/PegQueue.lean ====
section
/-! DEFINITION. The pool of pegs (R114 to R135): stagers, the acceptance check, cancelling, arming, expiry, the peg view; and
the groups that base firmware submits (R437, R473, R513). -/

namespace Sys2Proof.Machine

/-! ### What a peg may write (R114, R115, R466) -/

/-- R466: a trim register. -/
def isTrim (a : Nat) : Bool :=
  let n := (a - 0x41000000) / 0x10000
  let o := (a - 0x41000000) % 0x10000
  (decide (0x41000000 ≤ a) && decide (n < 16) &&
    (o == 0xFC || o == 0x100 || o == 0x104 || o == 0x108 || o == 0x10C || (decide (0x200 ≤ o) && decide (o < 0x248)) ||
      o == 0x250 || o == 0x254)) ||
    a == R.ageAvsTgt || (decide (0x40040100 ≤ a) && decide (a < 0x40040130))

/-- The block of an address by its base; 0 where there is none. -/
def baseOf (a : Nat) : Nat := match blockAt a with | some b => b.base | none => 0

/-- The address lies in `n` bytes from `lo` on. -/
def inSpan (lo n a : Nat) : Bool := decide (lo ≤ a) && decide (a < lo + n)

/-- R114, R115: what a peg of a queue with ARG may write: the span that holds `a` and that all its writes must share; none
where `a` is outside the queue's registers. -/
def pegSpan (q arg a : Nat) : Option Nat :=
  let b := baseOf a
  let pick (ok : Bool) : Option Nat := if ok then some b else none
  let oneOf (l : List Nat) : Option Nat := pick (l.contains b)
  if (descAt a).isNone then none
  else if q < 32 then
    pick ((inSpan (R.hedCtl q) 0x1000 a && a != R.hedCtl q) || inSpan (R.cmpCtl q) 0x10000 a)
  else if q < 64 then
    pick (a == R.hedLcmp (q - 32) 0 || a == R.hedLcmp (q - 32) 1 || a == R.hedGpo (q - 32))
  else if q < 72 then pick (inSpan (R.vdcCtx arg) 0x40 a)
  else if q < 76 then pick (inSpan (R.vecCtx arg) 0x80 a)
  else if q < 84 then pick (inSpan (R.camCtl (q - 76)) 0x10000 a)
  else if q == 84 then oneOf [0x40600000]
  else if q == 85 then oneOf [0x40000000, 0x40030000, 0x40020000]
  else if q == 86 then oneOf [0x40040000]
  else if q == 87 then oneOf [0x40080000, 0x40090000]
  else if q == 88 then oneOf [0x40100000, 0x40110000]
  else if q == 89 then oneOf [0x40200000]
  else if q == 90 then oneOf [0x40300000]
  else if q == 91 then pick ((b == 0x40400000 || b == 0x40480000) && decide (a - b < 0x10000))
  else if q == 92 then oneOf [0x40580000]
  else if q == 93 then oneOf [0x40600000, 0x40680000]
  else if q == 94 then
    if b == 0x40A80000 then (if (a - b) % 0x1000 == 0 then some a else none) else oneOf [0x40A00000, 0x40B00000]
  else if q == 95 then oneOf [0x40C00000, 0x41000000, 0x41200000]
  else none

/-- R114: the boundary kind of a queue. -/
def queueKind (q : Nat) : Nat :=
  if q < 32 then 0 else if q < 64 then 1 else if q < 76 then 2 else if q < 84 then 3 else if q == 84 then 4 else 5

/-- R114: the values that ARG may take on a queue. -/
def Chip.argOk (c : Chip) (q arg : Nat) : Bool :=
  if q < 32 then arg == 0
  else if q < 64 then decide (1 ≤ arg) && decide (arg + 1 ≤ c.vTotal (q - 32))
  else if q < 72 then arg / 16 == q - 64
  else if q < 76 then arg / 8 == q - 72
  else arg == 0

/-! ### Counts and the peg view (R132, R133) -/

/-- The pegs change. -/
def Chip.modPeg (c : Chip) (f : PegEngine → PegEngine) : Chip := { c with peg := f c.peg }

/-- `PEG_STAT` and `PEG_Q` of a queue show the pool. -/
def Chip.syncPegs (c : Chip) (q : Nat) : Chip :=
  let n := c.peg.pegs.length
  let mine := c.peg.pegs.filter (fun p => p.queue == q)
  let c := (c.setFld R.pegStat 28 16 (4096 - n)).setFld R.pegStat 12 0 n
  (c.setFld (R.pegQ q) 31 28 (mine.filter (fun p => p.armed)).length).setFld (R.pegQ q) 12 0 mine.length

/-- R133: the record of a peg in the peg view, in a state, with its boundary stamp. -/
def pegRecord (p : Peg) (st b : Nat) : List Byte :=
  leBytes 8 (shortStamp p.launch) ++ leBytes 8 (shortStamp p.deadline) ++ leBytes 8 (shortStamp b) ++ leBytes 2 p.group ++
    leBytes 2 p.tag ++ leBytes 1 p.queue ++ leBytes 1 (st + p.stager * 8) ++
    leBytes 1 (p.writes.length + (if p.commit then 64 else 0) + (if p.rpt then 128 else 0)) ++ [0]

/-- A peg's record shows a state. -/
def Chip.viewPeg (c : Chip) (p : Peg) (st b : Nat) : Chip := c.tbwWrite (twPeg p.slot) (pegRecord p st b)

/-- R134: the address of an event of a queue. -/
def pegPlace (q : Nat) : FaultAddr := if q < 64 then .surface (q % 32) else .room

/-- A peg leaves the pool in a final state (3 executed, 4 expired, 5 cancelled). -/
def Chip.freePeg (c : Chip) (p : Peg) (st b : Nat) : Chip :=
  let c := c.modPeg (fun e => { e with pegs := e.pegs.filter (fun x => x.slot != p.slot) })
  (c.viewPeg p st b).syncPegs p.queue

/-! ### The planner's changes (R473 to R475) -/

/-- R475: the change of a group does not take effect: event 0x0403; `cause` is 0 EXPIRED, 1 REFUSED,
2 CANCELLED, 3 WINDOW. -/
def Chip.changeLost (c : Chip) (x : Change) (cause : Nat) : Chip :=
  let c := { c with age := { c.age with changes := c.age.changes.filter (fun y => y.id != x.id) } }
  (c.bump (R.ageCnt 3)).event 0x0403 .room [.val 1 x.domain, .val 4 (wordOfs x.reg), .val 4 (Config.eventCode 0x0403 cause)]

/-- A peg of stager 0 expired or was cancelled: the change that it carried is lost. -/
def Chip.changeFate (c : Chip) (p : Peg) (cause : Nat) : Chip :=
  match c.age.changes.find? (fun x => p.stager == 0 && x.group == p.group && !x.done) with
  | some x => c.changeLost x cause
  | none => c

/-- A peg of stager 0 executed: the change whose register it wrote has taken effect. -/
def Chip.changeExecuted (c : Chip) (p : Peg) : Chip :=
  { c with age := { c.age with changes := c.age.changes.map (fun x =>
      if p.stager == 0 && x.group == p.group && p.writes.any (fun w => w.1 == x.reg) then { x with done := true } else x) } }

/-! ### Expiry (R117) -/

/-- The stamp of the last boundary of a peg's kind at its unit, 0 for none; for a line, of its line in the last frame that reached
it, whether or not the head still runs. -/
def Chip.lastBoundary (c : Chip) (p : Peg) : Stamp :=
  if 32 ≤ p.queue && decide (p.queue < 64) then
    match (c.head (p.queue - 32)).history.find? (fun f => decide (p.arg < f.2.2.2)) with
    | some (f, frac, line, _) => f + (frac + p.arg * line) / 65536
    | none => 0
  else mapGet (fun _ => 0) c.peg.last (p.queue * 2 ^ 14 + p.arg)

/-- R117: a peg expires. -/
def Chip.expirePeg (c : Chip) (p : Peg) : Chip :=
  let last := c.lastBoundary p
  let c := (c.freePeg p 4 0).bump (R.pegCnt 1)
  let c := c.event 0x0A02 (pegPlace p.queue) [.val 1 p.queue, .val 2 p.group, .val 2 p.tag, .val 8 (shortStamp p.launch),
    .val 8 (shortStamp p.deadline), .val 8 (shortStamp last)]
  c.changeFate p 0

/-- PEG_EXPIRE (R117): Muith time has passed the deadline of the peg in slot `i`. -/
def execPegExpire (t : Stamp) (i : Nat) (s : State) : Host.Outcome State Fault Refusal :=
  runIf (decide (i < 4096)) (fun c =>
    let c := c.at t
    match c.peg.pegs.find? (fun p => p.slot == i) with
    | some p => if decide (0 < stampGap c.clk p.deadline) then c.expirePeg p else c
    | none => c) s

/-! ### Arming (R121) -/

/-- The lead of the arm stage. -/
def armLead : Nat := 500 * nsPerUs

/-- PEG_ARM (R121): T − 500 µs of the peg in slot `i` has been reached. -/
def execPegArm (t : Stamp) (i : Nat) (s : State) : Host.Outcome State Fault Refusal :=
  runIf (decide (i < 4096)) (fun c =>
    let c := c.at t
    match c.peg.pegs.find? (fun p => p.slot == i) with
    | some p =>
      if !p.armed && decide (0 ≤ stampGap c.clk (stampSub p.launch armLead)) then
        let c := c.modPeg (fun e => { e with pegs := e.pegs.map (fun x => if x.slot == i then { x with armed := true } else x) })
        (c.viewPeg p 2 0).syncPegs p.queue
      else c
    | none => c) s

/-! ### The acceptance check (R123 to R126) -/

/-- Entry `i` of stager `sg` as a peg, without a slot. -/
def Chip.stagerEntry (c : Chip) (sg i : Nat) : Peg × Nat :=
  let w0 := c.reg (R.pegBufW0 sg i)
  let w1 := c.reg (R.pegBufW1 sg i)
  let launch := c.wide (R.pegBufW2 sg i) (R.pegBufW3 sg i)
  ({ slot := 0, stager := sg, group := bitsOf w1 31 16, tag := bitsOf w1 15 0, queue := bitsOf w0 31 25, arg := bitsOf w0 13 0,
     commit := bitsOf w0 21 21 == 1, rpt := bitsOf w0 20 20 == 1, armed := false, launch := launch,
     deadline := (launch + c.fld (R.pegBufW4 sg i) 23 0 * nsPerUs) % 2 ^ 64,
     writes := (List.range (bitsOf w0 19 14)).map (fun j =>
       (0x40000000 + c.fld (R.pegBufAddr sg i j) 25 2 * 4, c.reg (R.pegBufData sg i j))) },
   bitsOf w0 24 22)

/-- The registers that a peg's writes address all lie in one permitted span. -/
def targetsOk (p : Peg) : Bool :=
  match p.writes with
  | [] => true
  | (a, _) :: rest =>
    match pegSpan p.queue p.arg a with
    | none => false
    | some b => rest.all (fun w => pegSpan p.queue p.arg w.1 == some b)

/-- R511, R125: the register at `a` may be written after seal by a peg of the stager. -/
def sealedOk (sg a : Nat) : Bool :=
  if isTrim a then sg == 0
  else match descAt a with
    | some (d, _) => d.live
    | none => false

/-- R125: the cause for which an entry fails at acceptance stamp `now`; 0 for none. -/
def Chip.entryCause125 (c : Chip) (now : Stamp) (group : Nat) (e : Peg × Nat) : Nat :=
  let (p, kind) := e
  if kind != queueKind p.queue then 1
  else if !c.argOk p.queue p.arg then 2
  else if !targetsOk p || (p.commit && (decide (32 ≤ p.queue) || !p.writes.isEmpty)) || (!p.commit && p.writes.isEmpty) then 3
  else if c.isSealed && p.writes.any (fun w => !sealedOk p.stager w.1) then 4
  else if decide (stampGap p.launch now < (c.fld R.pegCtl 23 0 * nsPerUs : Nat)) then 5
  else if p.group != group then 9
  else 0

/-- R125, cause ARM: more than 8 pegs of the queue hold one instant. -/
def armOverflow (l : List Peg) (q : Nat) : Bool :=
  let mine := l.filter (fun p => p.queue == q)
  mine.any (fun p =>
    let s := stampSub p.launch armLead
    decide (8 < (mine.filter (fun x => decide (0 ≤ stampGap s (stampSub x.launch armLead)) &&
      decide (0 ≤ stampGap x.deadline s))).length))

/-- The first index at which a test holds. -/
def firstIdx {α : Type} (f : α → Bool) : Nat → List α → Option Nat
  | _, [] => none
  | i, x :: rest => if f x then some i else firstIdx f (i + 1) rest

/-- R125: cause and INDEX of a group's refusal, or none. -/
def Chip.groupFail (c : Chip) (sg : Nat) (l : List (Peg × Nat)) : Option (Nat × Nat) :=
  let group := match l with | e :: _ => e.1.group | [] => 0
  match firstIdx (fun e => c.entryCause125 c.clk group e != 0) 0 l with
  | some i => some (match l[i]? with | some e => c.entryCause125 c.clk group e | none => 0, i)
  | none =>
    if c.peg.pegs.any (fun p => p.stager == sg && p.group == group) then some (6, 0)
    else if 4096 < c.peg.pegs.length + l.length then some (7, 0)
    else
      let all := c.peg.pegs ++ l.map (fun e => e.1)
      (firstIdx (fun (e : Peg × Nat) => armOverflow all e.1.queue) 0 l).map (fun i => (8, i))

/-- The lowest free slot of the pool. -/
def Chip.freeSlot (c : Chip) : Nat :=
  ((List.range 4096).find? (fun i => !c.peg.pegs.any (fun p => p.slot == i))).getD 0

/-- R124: a peg of an accepted group enters the pool. -/
def Chip.addPeg (c : Chip) (p : Peg) : Chip :=
  let p := { p with slot := c.freeSlot }
  let c := c.modPeg (fun e => { e with pegs := e.pegs ++ [p] })
  (c.viewPeg p 1 0).syncPegs p.queue

/-- R129: the result block of stager `sg`. -/
def Chip.stagerResult (c : Chip) (sg op ok cause group count index : Nat) : Chip :=
  let c := ((c.setFld (R.pegStgRes sg) 30 30 ok).setFld (R.pegStgRes sg) 29 28 op).setFld (R.pegStgRes sg) 27 24 cause
  let c := ((c.setFld (R.pegStgRes1 sg) 31 16 group).setFld (R.pegStgRes1 sg) 12 6 count).setFld (R.pegStgRes1 sg) 5 0 index
  c.publish (R.pegStgRes sg)

/-- R129: the pending pegs of a group that are not armed are cancelled. -/
def Chip.cancelGroup (c : Chip) (sg group : Nat) : Chip :=
  let mine := c.peg.pegs.filter (fun p => p.stager == sg && p.group == group)
  let off := mine.filter (fun p => !p.armed)
  let c := forL off (fun p c => c.freePeg p 5 0) c
  let c := (c.bumpBy (R.pegCnt 3) off.length).stagerResult sg 2 1 0 group off.length 0
  c.event 0x0A04 .room [.val 1 sg, .val 2 group, .val 4 off.length, .val 4 (mine.length - off.length)]

/-! ### Windows of the planner's changes (R472, R475) -/

/-- R472: the stamp lies in an enabled window that permits the domain. -/
def Chip.inWindow (c : Chip) (dom : Nat) (t : Stamp) : Bool :=
  let s := t / nsPerS % 86400
  (List.range 4).any (fun i =>
    let start := c.fld (R.ageWinStart i) 16 0
    let len := c.fld (R.ageWin i) 15 0 * 60
    c.bit (R.ageWin i) 31 && c.bit (R.ageWin i) (16 + dom) && decide ((s + 86400 - start) % 86400 < len))

/-- The group of a change is pending and none of its pegs is armed. -/
def Chip.changeWaits (c : Chip) (x : Change) : Bool :=
  let mine := c.peg.pegs.filter (fun p => p.stager == 0 && p.group == x.group)
  !x.done && !mine.isEmpty && mine.all (fun p => !p.armed)

/-- R475, R513: while stager 0 is free, base firmware cancels the groups of changes that no permitted window holds any longer. -/
def Chip.fwCancels (c : Chip) : Chip :=
  if c.bit (R.pegStgCount 0) 31 then c
  else
    let l := c.age.changes.filter (fun x => c.peg.fwCancel.contains x.id && c.changeWaits x)
    forL l (fun x c => (c.cancelGroup 0 x.group).changeLost x 2) (c.modPeg (fun e => { e with fwCancel := [] }))

/-- R475: a write of `AGE_WIN` leaves the unarmed changes whose T no permitted window holds any longer to be cancelled. -/
def Chip.checkChanges (c : Chip) : Chip :=
  let l := c.age.changes.filter (fun x => c.changeWaits x && !c.inWindow x.domain x.launch)
  (c.modPeg (fun e => { e with fwCancel := e.fwCancel ++ l.map (fun x => x.id) })).fwCancels

/-! ### Groups of base firmware (R437, R513) -/

/-- R437: the result of a recall's or preset's group, and R473, R475 for a change. -/
def Chip.fwResult (c : Chip) (g : FwGroup) (ok cause : Nat) : Chip :=
  match g.use with
  | .change id =>
    match c.age.changes.find? (fun x => x.id == id) with
    | none => c
    | some x =>
      if ok == 1 then
        c.event 0x0401 .room [.val 1 x.domain, .val 4 (wordOfs x.reg), .val 4 x.old.toNat, .val 4 x.new.toNat,
          .val 8 (shortStamp x.launch)]
      else c.changeLost x 1
  | _ =>
    (((c.setFld R.pitRes 31 30 (2 + ok)).setFld R.pitRes 27 24 cause).setFld R.pitRes 15 0 g.group).setFld R.pitResGroup 15 0 g.group

/-- R127: a SUBMIT of stager `sg` that is not refused. -/
def Chip.beginCheck (c : Chip) (sg : Nat) : Chip :=
  ((c.setFld (R.pegStgCount sg) 31 31 1).unpublish (R.pegStgRes sg)).modPeg (fun e => { e with checks := e.checks ++ [sg] })

/-- Base firmware writes entry `i` of stager 0 (R122). -/
def Chip.stageEntry (c : Chip) (group i : Nat) (p : PegSpec) : Chip :=
  let c := c.setNat (R.pegBufW0 0 i) (p.queue * 2 ^ 25 + p.kind * 2 ^ 22 + (if p.commit then 2 ^ 21 else 0) +
    p.writes.length * 2 ^ 14 + p.arg)
  let c := (c.setNat (R.pegBufW1 0 i) (group * 2 ^ 16)).setWide (R.pegBufW2 0 i) (R.pegBufW3 0 i) (shortStamp p.launch)
  let c := c.setNat (R.pegBufW4 0 i) (clampNat 1 16777215 p.window)
  forL (p.writes.zip (List.range 32)) (fun (w : (Nat × Word) × Nat) (c : Chip) =>
    (c.setNat (R.pegBufAddr 0 i w.2) (w.1.1 - 0x40000000)).setReg (R.pegBufData 0 i w.2) w.1.2) c

/-- Base firmware puts a group into stager 0 and submits it; R127 refuses a group without pegs. -/
def Chip.stageGroup (c : Chip) (g : FwGroup) : Chip :=
  let c := forL (g.pegs.zip (List.range 64)) (fun (x : PegSpec × Nat) (c : Chip) => c.stageEntry g.group x.2 x.1) c
  let c := c.setFld (R.pegStgCount 0) 6 0 (min g.pegs.length 64)
  if g.pegs.isEmpty then (c.refuse .base (R.pegStgCmd 0) (cmdWord 1) 2).fwResult g 0 0
  else (c.modPeg (fun e => { e with fwNow := some g })).beginCheck 0

/-- R513: while stager 0 is free, base firmware submits its next group; `n` bounds the groups. -/
def Chip.startGroups : Nat → Chip → Chip
  | 0, c => c
  | n + 1, c =>
    match c.peg.fwNow, c.peg.fwNext with
    | none, g :: rest =>
      if c.bit (R.pegStgCount 0) 31 then c
      else Chip.startGroups n ((c.modPeg (fun e => { e with fwNext := rest })).stageGroup g)
    | _, _ => c

/-- R513: once stager 0 is free, base firmware makes the cancels that wait, puts its next group into the stager and submits it. -/
def Chip.fwStart (c : Chip) : Chip := Chip.startGroups c.peg.fwNext.length c.fwCancels

/-- Base firmware has a group to submit. -/
def Chip.fwSubmit (c : Chip) (g : FwGroup) : Chip :=
  let rec_ := if g.use == .recall then [g.group] else []
  (c.modPeg (fun e => { e with fwNext := e.fwNext ++ [g], recalls := e.recalls ++ rec_ })).fwStart

/-- GROUP_CHECK_DONE (R124 to R126): the check of the stager that has waited longest ends. -/
def execGroupCheckDone (t : Stamp) (s : State) : Host.Outcome State Fault Refusal :=
  runIf true (fun c =>
    let c := c.at t
    match c.peg.checks with
    | [] => c
    | sg :: rest =>
      let n := min (c.fld (R.pegStgCount sg) 6 0) 64
      let l := (List.range n).map (fun i => c.stagerEntry sg i)
      let group := match l with | e :: _ => e.1.group | [] => 0
      let fail := c.groupFail sg l
      let c := (c.setFld (R.pegStgCount sg) 31 31 0).modPeg (fun e => { e with checks := rest })
      let c := c.setWide (R.pegStgResAtLo sg) (R.pegStgResAtHi sg) (shortStamp c.clk)
      let c := match fail with
        | none => (forL l (fun (e : Peg × Nat) (c : Chip) => c.addPeg e.1) c).stagerResult sg 1 1 0 group n 0
        | some (cause, i) =>
          ((c.stagerResult sg 1 0 cause group 0 i).bump (R.pegCnt 2)).event 0x0A01 .room
            [.val 1 sg, .val 2 group, .val 1 cause, .val 1 i, .val 8 (shortStamp c.clk)]
      match sg, c.peg.fwNow with
      | 0, some g =>
        let c := c.modPeg (fun e => { e with fwNow := none })
        (c.fwResult g (if fail.isNone then 1 else 0) (match fail with | some (cause, _) => cause | none => 0)).fwStart
      | 0, none => c.fwStart
      | _, _ => c) s

/-! ### Stager commands (R127 to R129) -/

/-- The word of a stager command. -/
def stagerWord (cmd group : Nat) : Word := BitVec.ofNat 32 (cmd * 2 ^ 28 + group % 2 ^ 16)

/-- R127: the cause that refuses a command of stager `sg`; 0 for none. -/
def Chip.stagerCause (c : Chip) (sg cmd group : Nat) : Nat :=
  if c.bit (R.pegStgCount sg) 31 then 1
  else if cmd == 1 then (if c.fld (R.pegStgCount sg) 6 0 == 0 then 2 else 0)
  else if c.peg.pegs.any (fun p => p.stager == sg && p.group == group && !p.armed) then 0 else 2

/-- R127: a write of CMD to `PEG_STG_CMD[sg]`; other codes have no effect. -/
def Chip.stagerCommand (c : Chip) (src : Source) (sg cmd group : Nat) : Chip :=
  if cmd != 1 && cmd != 2 then c
  else
    let cause := c.stagerCause sg cmd group
    if cause != 0 then c.refuse src (R.pegStgCmd sg) (stagerWord cmd group) cause
    else if cmd == 1 then c.beginCheck sg
    else c.cancelGroup sg group

/-- SUBMIT (R123, R127). -/
def execSubmit (t : Stamp) (src : Source) (sg : Nat) (s : State) : Host.Outcome State Fault Refusal :=
  runIf (decide (sg < 3)) (fun c => (c.at t).stagerCommand src sg 1 0) s

/-- PEG_CANCEL (R129). -/
def execPegCancel (t : Stamp) (src : Source) (sg group : Nat) (s : State) : Host.Outcome State Fault Refusal :=
  runIf (decide (sg < 3) && decide (group < 65536)) (fun c => (c.at t).stagerCommand src sg 2 group) s

/-- R130: every peg is cancelled, armed ones too, with one event 0x0A03. -/
def Chip.cancelAll (c : Chip) : Chip :=
  let l := c.peg.pegs
  let c := forL l (fun p c => c.freePeg p 5 0) c
  (c.bumpBy (R.pegCnt 3) l.length).event 0x0A03 .room [.val 4 l.length]

end Sys2Proof.Machine
end

