-- ==== Sys2Proof/Machine/Layouts.lean ====
section
/-! DEFINITION. Layouts, presets and policy actions (R420, R421, R436 to R440), and base firmware's handling of touch
reports (R330, R331, R333). -/

namespace Sys2Proof.Machine

/-! ### The LAYOUT section (R420, R421) -/

/-- The LAYOUT section that applies. -/
def Chip.layoutSection (c : Chip) : List Byte := match c.sections 8 with | x :: _ => x.data | [] => []

/-- Body `i` of the directory at 16: layouts first, then presets. -/
def dirBody (l : List Byte) (i : Nat) : List Byte := (l.drop (leAt l (16 + 8 * i) 4)).take (leAt l (20 + 8 * i) 4)

/-- The body of layout `n`, or none. -/
def Chip.layoutBody (c : Chip) (n : Nat) : Option (List Byte) :=
  let l := c.layoutSection
  if n < leAt l 0 2 then some (dirBody l n) else none

/-- The body of preset `n`, or none. -/
def Chip.presetBody (c : Chip) (n : Nat) : Option (List Byte) :=
  let l := c.layoutSection
  if n < leAt l 2 2 then some (dirBody l (leAt l 0 2 + n)) else none

/-- The layout's records of one kind: `n` records of 36 bytes from offset `o`: number and 32 bytes. -/
def layoutRecs (b : List Byte) (o n bits : Nat) : List (Nat × List Byte) :=
  (List.range n).map (fun i => (leAt b (o + 36 * i) 4 % 2 ^ bits, (b.drop (o + 36 * i + 4)).take 32))

/-- `n` records of word offset and value from offset `o`. -/
def regRecs (b : List Byte) (o n : Nat) : List (Nat × Word) :=
  (List.range n).map (fun i => (0x40000000 + leAt b (o + 8 * i) 4 * 4, BitVec.ofNat 32 (leAt b (o + 8 * i + 4) 4)))

/-- The parts of a layout body: head mask, elements, window descriptors, regions, registers. -/
structure LayoutData where
  mask : Nat
  elems : List (Nat × List Byte)
  descs : List (Nat × List Byte)
  regions : List (Nat × List Byte)
  regs : List (Nat × Word)
  deriving DecidableEq, Repr

/-- Reading a layout body (R420). -/
def layoutOf (b : List Byte) : LayoutData :=
  let e := leAt b 4 4
  let d := leAt b 8 4
  let g := leAt b 12 2
  { mask := leAt b 0 4, elems := layoutRecs b 32 e 19, descs := layoutRecs b (32 + 36 * e) d 12,
    regions := layoutRecs b (32 + 36 * (e + d)) g 10, regs := regRecs b (32 + 36 * (e + d + g)) (leAt b 14 2) }

/-- Head `h` is in the mask. -/
def inMask (mask h : Nat) : Bool := mask / 2 ^ h % 2 == 1

/-! ### RECALL and PRESET (R437, R438) -/

/-- R437, step 1: a layout is written into the shadows; entries and regions that are enabled on a head of the mask and absent
from it get EN = 0. -/
def Chip.writeLayout (c : Chip) (y : LayoutData) : Chip :=
  let oldE := (c.listedEntries 0 32 524288).map (fun e => e.1)
  let oldR := (c.listedEntries 0x1EA0000 32 1024).map (fun e => e.1)
  let dropE := oldE.filter (fun e => let x := c.shadowElem e
    x.en && inMask y.mask x.head && !y.elems.any (fun r => r.1 == e))
  let dropR := oldR.filter (fun r => let x := c.shadowRegion r
    x.en && inMask y.mask x.head && !y.regions.any (fun q => q.1 == r))
  let c := forL dropE (fun e c => c.tbwPut (twElem e) 4 (c.tbwNat (twElem e) 4 % 2 ^ 31)) c
  let c := forL dropR (fun r c => c.tbwPut (twRegion r) 4 (c.tbwNat (twRegion r) 4 % 2 ^ 31)) c
  let c := forL y.elems (fun r c => c.tbwWrite (twElem r.1) r.2) c
  let c := forL y.descs (fun r c => c.tbwWrite (twWindow r.1) r.2) c
  let c := forL y.regions (fun r c => c.tbwWrite (twRegion r.1) r.2) c
  forL y.regs (fun r c => c.writeFields r.1 r.2) c

/-- `PEG_CTL.LEAD` plus 1 ms (R437, R438). -/
def Chip.leadMs (c : Chip) : Nat := c.fld R.pegCtl 23 0 * nsPerUs + nsPerMs

/-- R437, step 3: the launch time: T, or as soon as possible. -/
def Chip.launchTime (c : Chip) (t : Stamp) : Stamp := if t == 0 then c.clk + c.leadMs else t

/-- A command of `PIT_CMD` is accepted: SEQ advances, and the result is awaited. -/
def Chip.pitAccept (c : Chip) : Chip := c.unpublish R.pitRes

/-- R437: the number of the result that a recall or preset accepted now will have, after those that wait for theirs. -/
def Chip.pitNumber (c : Chip) : Nat :=
  let l := (match c.peg.fwNow with | some g => [g] | none => []) ++ c.peg.fwNext
  (c.fld R.pitRes 15 0 + 1 + (l.filter (fun g => g.use == .recall || g.use == .preset)).length) % 65536

/-- R437: the commit pegs of a layout's heads. -/
def Chip.commitPegs (c : Chip) (mask : Nat) (t : Stamp) : List PegSpec :=
  let heads := (List.range 32).filter (inMask mask)
  let q := (heads.map (fun h => ceilDiv (c.headQ h) (65536 * nsPerUs))).foldl max 0
  heads.map (fun h => ⟨h, 0, 0, true, t, q, []⟩)

/-- RECALL of layout `n` at `t` (R437). -/
def Chip.doRecall (c : Chip) (b : List Byte) (t : Stamp) : Chip :=
  let y := layoutOf b
  let c := (c.writeLayout y).pitAccept
  c.fwSubmit ⟨c.pitNumber, .recall, c.commitPegs y.mask (c.launchTime t)⟩

/-- The queue, ARG and span with which a preset's write travels: the immediate queue that reaches it, else the first that
does (R421, R437). -/
def presetQueue (a : Nat) : Option (Nat × Nat × Nat) :=
  let arg (q : Nat) : Nat :=
    if 64 ≤ q && decide (q < 72) then (a - R.vdcCtx 0) / 0x40
    else if 72 ≤ q && decide (q < 76) then (a - R.vecCtx 0) / 0x80 else 0
  ((((List.range 11).map (fun i => 85 + i)) ++ List.range 85).filterMap (fun q =>
    let fits := !(64 ≤ q && decide (q < 72)) || arg q / 16 == q - 64
    let fits := fits && (!(72 ≤ q && decide (q < 76)) || arg q / 8 == q - 72)
    if fits then (pegSpan q (arg q) a).map (fun b => (q, arg q, b)) else none)).head?

/-- Writes gathered by queue, ARG and span in order of first use, at most 32 to a peg. -/
def gather : List ((Nat × Nat × Nat) × Nat × Word) → List ((Nat × Nat × Nat) × List (Nat × Word)) →
    List ((Nat × Nat × Nat) × List (Nat × Word))
  | [], acc => acc
  | (k, w) :: rest, acc =>
    if acc.any (fun e => e.1 == k && decide (e.2.length < 32)) then
      gather rest (acc.map (fun e => if e.1 == k && decide (e.2.length < 32) then (e.1, e.2 ++ [w]) else e))
    else gather rest (acc ++ [(k, [w])])

/-- R437: the pegs of a preset that launches at `t`: its writes by queue. -/
def presetPegs (b : List Byte) (t : Stamp) : List PegSpec :=
  let ws := (regRecs b 8 (leAt b 0 2)).filterMap (fun w => (presetQueue w.1).map (fun k => (k, w)))
  (gather ws []).map (fun e => ⟨e.1.1, queueKind e.1.1, e.1.2.1, false, t, Config.presetWindow e.1.1, e.2⟩)

/-- PRESET of a body at `t` (R437). -/
def Chip.doPreset (c : Chip) (b : List Byte) (t : Stamp) : Chip :=
  let c := c.pitAccept
  c.fwSubmit ⟨c.pitNumber, .preset, presetPegs b (c.launchTime t)⟩

/-- R438: pegs of an earlier RECALL are in the pool. -/
def Chip.recallPegs (c : Chip) : Bool := c.peg.pegs.any (fun p => p.stager == 0 && c.peg.recalls.contains p.group)

/-- R438: the pegs of an earlier RECALL have not all executed or expired, or are still to be submitted. -/
def Chip.recallPending (c : Chip) : Bool :=
  c.recallPegs || (c.peg.fwNow.toList ++ c.peg.fwNext).any (fun g => g.use == .recall)

/-- R438: a launch time other than 0 that leaves less than `PEG_CTL.LEAD` + 1 ms from `now`. -/
def Chip.tooSoon (c : Chip) (now t : Stamp) : Bool := t != 0 && decide (stampGap t now < (c.leadMs : Nat))

/-- R438: the cause that refuses RECALL (cmd 1) or PRESET (cmd 2) of `n` at `t`; 0 for none. -/
def Chip.pitCause (c : Chip) (cmd n : Nat) (t : Stamp) : Nat :=
  if cmd == 1 then
    if (c.layoutBody n).isNone then 1 else if c.recallPending then 2 else if c.tooSoon c.clk t then 3 else 0
  else if (c.presetBody n).isNone then 1 else if c.tooSoon c.clk t then 2 else 0

/-- R438: RECALL or PRESET of `n` at `t`, from any of those who may ask for it. -/
def Chip.pitCommand (c : Chip) (src : Source) (cmd n : Nat) (t : Stamp) : Chip :=
  if cmd != 1 && cmd != 2 then c
  else
    let cause := c.pitCause cmd n t
    if cause != 0 then c.refuse src R.pitCmd (BitVec.ofNat 32 (cmd * 2 ^ 28 + n % 4096)) cause
    else if cmd == 1 then
      let c := if c.recallPegs then c else c.modPeg (fun e => { e with recalls := [] })
      match c.layoutBody n with | some b => c.doRecall b t | none => c
    else match c.presetBody n with | some b => c.doPreset b t | none => c

/-- `PIT_T`. -/
def Chip.pitT (c : Chip) : Stamp := c.wide R.pitTLo R.pitTHi

/-- RECALL (R437, R438). -/
def execRecallLayout (t : Stamp) (src : Source) (n : Nat) (s : State) : Host.Outcome State Fault Refusal :=
  runIf (decide (n < 4096)) (fun c => let c := c.at t; c.pitCommand src 1 n c.pitT) s

/-- PRESET (R437, R438). -/
def execPreset (t : Stamp) (src : Source) (n : Nat) (s : State) : Host.Outcome State Fault Refusal :=
  runIf (decide (n < 4096)) (fun c => let c := c.at t; c.pitCommand src 2 n c.pitT) s

/-! ### Policy actions (R439) -/

/-- The head that an event's address names; for an element, that of its current entry. -/
def Chip.placeHead (c : Chip) : FaultAddr → Option Nat
  | .pixel h _ _ => some h
  | .tile h _ _ => some h
  | .surface h => some h
  | .element e => some (c.elem e).head
  | _ => none

/-- R439: base firmware performs an action. -/
def Chip.doPolicy (c : Chip) (a : PolicyAct) : Chip :=
  match a.action with
  | 2 => c.takeover
  | 3 => c.demote
  | 4 =>
    match (if a.arg == 0xFF then c.placeHead a.place else some a.arg) with
    | some h => if h < 32 then (c.setFld (R.cmpCtl h) 31 31 1).syncAudit h else c
    | none => c
  | 5 => c.pitCommand .policy 1 a.arg 0
  | 6 => c.pitCommand .policy 2 a.arg 0
  | _ => c

/-- POLICY_ACTION (R439): the action that has waited longest; none while a hold lasts (R388). -/
def execPolicyAction (t : Stamp) (s : State) : Host.Outcome State Fault Refusal :=
  runIf true (fun c =>
    let c := c.at t
    match c.jrn.acts with
    | a :: rest => if c.bit R.dmcGstat 31 then c else ({ c with jrn := { c.jrn with acts := rest } } : Chip).doPolicy a
    | [] => c) s

/-! ### Touch reports (R330, R331, R333, R440) -/

/-- A store of base firmware: pieces of at most 64 bytes, each checked by unit 0 (R400, R401). -/
def Chip.fwStore (c : Chip) (a : Nat) (l : List Byte) : Chip :=
  forN (ceilDiv l.length 64) (fun i c =>
    let part := (l.drop (64 * i)).take 64
    let (c, ok) := c.checkDram ⟨0, 0, false, 1, 8, 0, a + 64 * i, part.length, part, 0⟩
    if ok then c.dramWrite (a + 64 * i) part else c) c

/-- An entry of the touch policy table (R440) matches a gesture at a DOWN position. -/
def touchEntryMatches (e : List Byte) (h gesture x y : Nat) : Bool :=
  let rx := leAt e 4 2
  let ry := leAt e 6 2
  leAt e 0 1 == h && leAt e 1 1 == gesture && decide (rx ≤ x) && decide (x < rx + leAt e 8 2) && decide (ry ≤ y) &&
    decide (y < ry + leAt e 10 2)

/-- R440: the first matching entry acts. -/
def Chip.gestureAct (c : Chip) (h gesture x y : Nat) : Chip :=
  match (pieces 16 (c.sectionBytes 7)).find? (fun e => touchEntryMatches e h gesture x y) with
  | some e =>
    let n := leAt e 14 2
    if leAt e 12 1 == 5 then c.pitCommand .touch 1 n 0
    else if leAt e 12 1 == 6 then c.pitCommand .touch 2 n 0
    else c
  | none => c

/-- R440: an UP at (x, y) lies within `TCH_TRACK.DIST`, in 1/16 node, of the DOWN position in panel units. -/
def Chip.nearDown (c : Chip) (h x y dx dy : Nat) : Bool :=
  let d := c.fld (R.tchTrack h) 15 8
  let gap (a b : Nat) := (a - b) + (b - a)
  decide (gap x dx * c.ndrv h * 16 ≤ d * c.fld (R.tchXy h) 15 0) && decide (gap y dy * c.nsns h * 16 ≤ d * c.fld (R.tchXy h) 31 16)

/-- R440: one touch entry of a report whose frame starts at `start`. -/
def Chip.gestureEntry (c : Chip) (h : Nat) (start : Stamp) (e : List Byte) : Chip :=
  let id := leAt e 0 1
  let fl := leAt e 1 1
  let x := leAt e 2 2
  let y := leAt e 4 2
  let set (g : Option Gesture) (c : Chip) : Chip := c.modTch h (fun ch =>
    { ch with gestures := (ch.gestures.filter (fun q => q.id != id)) ++ g.toList })
  let old := (c.tchan h).gestures.find? (fun q => q.id == id)
  let g : Gesture := if fl % 2 == 1 then ⟨id, x, y, start, []⟩ else old.getD ⟨id, x, y, start, []⟩
  let up := fl / 2 % 2 == 1
  let tap := up && fl / 8 % 2 == 0 && !elapsed start g.down (500 * nsPerMs + 1) && c.nearDown h x y g.x g.y
  let hold := !up && elapsed start g.down nsPerS
  let long := fl / 4 % 2 == 1
  let todo := ((if tap then [1] else []) ++ (if hold then [2] else []) ++ (if long then [3] else [])).filter (fun n =>
    !g.acted.contains n)
  let c := set (if up then none else some { g with acted := g.acted ++ todo }) c
  forL todo (fun n c => c.gestureAct h n g.x g.y) c

/-- R333: the pointer of channel `h`'s head after a report without a touch that is not UP: off once HOLD has passed, else as the last
touch left it (DESIGN CHOICE, log 108: the rule has each report overwrite other writers' values and gives this report's no value). -/
def Chip.pointerIdle (c : Chip) (h : Nat) : Chip :=
  let a := R.cmpPtr (c.fld (R.tchPtr h) 28 24)
  let ch := c.tchan h
  if elapsed c.clk ch.lastTouch (c.fld (R.tchPtrHold h) 15 0 * nsPerMs) then c.setFld a 31 31 0
  else (c.setNat a ch.lastPtr.1).setNat (R.cmpPtrXy (c.fld (R.tchPtr h) 28 24)) ch.lastPtr.2

/-- R333: the pointer handler after a report. -/
def Chip.pointerHandler (c : Chip) (h : Nat) (entries : List (List Byte)) : Chip :=
  if !c.bit (R.tchPtr h) 31 then c
  else match entries.find? (fun e => leAt e 1 1 / 2 % 2 == 0) with
    | none => c.pointerIdle h
    | some e =>
      let head := c.fld (R.tchPtr h) 28 24
      let x := c.fld (R.tchPtrOrg h) 15 0 + leAt e 2 2 * c.fld (R.tchPtrSize h) 15 0 / c.fld (R.tchXy h) 15 0
      let y := c.fld (R.tchPtrOrg h) 31 16 + leAt e 4 2 * c.fld (R.tchPtrSize h) 31 16 / c.fld (R.tchXy h) 31 16
      let words := (2 ^ 31 + c.fld (R.tchPtr h) 13 0, y % 65536 * 65536 + x % 65536)
      let now := c.clk
      ((c.setNat (R.cmpPtr head) words.1).setNat (R.cmpPtrXy head) words.2).modTch h (fun ch => { ch with
        lastTouch := now, lastPtr := words })

/-- TOUCH_REPORT_WRITE (R330): base firmware takes the oldest report: gaps, ring, result, pointer and policy. -/
def execTouchReportWrite (t : Stamp) (s : State) : Host.Outcome State Fault Refusal :=
  runIf true (fun c =>
    let c := c.at t
    match c.touchIn with
    | [] => c
    | r :: rest =>
      let h := r.channel
      let gap := match (c.tchan h).lastK with | some k => (r.k + 2 ^ 32 - 1 - k) % 2 ^ 32 | none => 0
      let c := { c with touchIn := rest }
      let c := c.modTch h (fun ch => { ch with lastK := some r.k })
      let c := if gap == 0 then c else
        (c.bumpBy (R.tchCnt h 5) gap).raiseLimitedBy h
          { code := 0xC009, place := .room, stamp := c.clk, content := [.val 1 h, .occ] } gap
      let c := c.fwStore (c.base40 (R.tchRingLo h) (R.tchRingHi h) + r.k % 2 ^ c.fld (R.tchRingSize h) 4 0 * 512) r.bytes
      let c := (c.setNat (R.tchResFrame h) r.k).publish (R.tchRes h)
      let entries := (pieces 12 ((r.bytes.drop 32).take 240)).take (leAt r.bytes 13 1)
      let c := c.pointerHandler h entries
      forL entries (fun e c => c.gestureEntry h r.start e) c) s

/-- POINTER_HOLD_EXPIRE (R333): HOLD ms have passed with no touch. -/
def execPointerHoldExpire (t : Stamp) (h : Nat) (s : State) : Host.Outcome State Fault Refusal :=
  runIf (decide (h < 4)) (fun c =>
    let c := c.at t
    if c.bit (R.tchPtr h) 31 && elapsed c.clk (c.tchan h).lastTouch (c.fld (R.tchPtrHold h) 15 0 * nsPerMs) then
      c.setFld (R.cmpPtr (c.fld (R.tchPtr h) 28 24)) 31 31 0
    else c) s

end Sys2Proof.Machine
end

