-- ==== Sys2Proof/Machine/Bus.lean ====
section
/-! DEFINITION. What a register write and a table window write do (R15 to R20, R433 to R435, R501 to R511): every register with
an effect of its own, and SNAP. -/

namespace Sys2Proof.Machine

/-! ### Which effect a register has -/

/-- The effect of a write to a register; `plain` only holds its fields. -/
inductive Role
  | plain
  | snapshot
  | pitCmd
  | refCmd
  | refDly (k : Nat)
  | stagerCmd (sg : Nat)
  | stagerBuf (sg : Nat)
  | twnCmd
  | twnCfg
  | slot (n : Nat)
  | vdcCtx (x : Nat)
  | vecCtx (x : Nat)
  | vecCmd (x : Nat)
  | camCtl (p : Nat)
  | camMclk (p : Nat)
  | capPort (q : Nat)
  | chkCfg (u : Nat)
  | chkCmd (u : Nat)
  | chkFeed (u n : Nat)
  | cmpCtl (h : Nat)
  | cmpCmd (h : Nat)
  | flyCtl
  | hedCtl (h : Nat)
  | hedGpo (h : Nat)
  | dptCtl (p : Nat)
  | dptCmd (p : Nat)
  | tchCtl (h : Nat)
  | tchCmd (h : Nat)
  | trnCtl (n : Nat)
  | trim
  | pruCtl (u : Nat)
  | pruCmd (u : Nat)
  | pruFrec (u : Nat)
  | pruGcmd
  | ageWin
  | evjAlert
  | evjAck
  deriving DecidableEq, Repr

/-- The element of an array of `n` registers from `base` at a stride whose register lies at `a`. -/
def nth (base stride n a : Nat) : Option Nat :=
  if base ≤ a && (a - base) % stride == 0 && decide ((a - base) / stride < n) then some ((a - base) / stride) else none

/-- The role of the register at `a`. -/
def roleOf (a : Nat) : Role :=
  let b := baseOf a
  let arr (base stride n : Nat) (f : Nat → Role) (other : Role) : Role :=
    match nth base stride n a with | some i => f i | none => other
  if (snapScope a).isSome then
    (if isTrim a then .trim else .snapshot)
  else if b == 0x40010000 then (if a == R.pitCmd then .pitCmd else .plain)
  else if b == 0x40030000 then (if a == R.evjAlert then .evjAlert else if a == R.evjAck then .evjAck else .plain)
  else if b == 0x40040000 then (if inSpan (R.ageWin 0) 32 a then .ageWin else if isTrim a then .trim else .plain)
  else if b == 0x40090000 then
    (if a == R.refCmd then .refCmd else arr (R.refDly 0) 4 3 (fun i => .refDly (3 + i)) .plain)
  else if b == 0x400A0000 then
    if a < R.pegStgCmd 0 then .plain
    else
      let sg := (a - R.pegStgCmd 0) / 0x10000
      let o := (a - R.pegStgCmd 0) % 0x10000
      if o == 0 then .stagerCmd sg else if o == 4 || (0x1000 ≤ o && (descAt a).isSome) then .stagerBuf sg else .plain
  else if b == 0x40100000 then (if a == R.twnCmd then .twnCmd else if a == R.twnCfg then .twnCfg else .plain)
  else if b == 0x40300000 then (if a < R.srcSnap then .slot ((a - R.srcCfg 0) / 0x100) else .plain)
  else if b == 0x40400000 then arr (R.vdcCtx 0) 0x40 256 .vdcCtx .plain
  else if b == 0x40480000 then arr (R.vecCtx 0) 0x80 32 .vecCtx (arr (R.vecCtxCmd 0) 0x80 32 .vecCmd .plain)
  else if b == 0x40500000 then arr (R.camCtl 0) 0x10000 8 .camCtl (arr (R.camMclk 0) 0x10000 8 .camMclk .plain)
  else if b == 0x40580000 then arr (R.capPort 0) 0x1000 4 .capPort .plain
  else if b == 0x40680000 then
    arr (R.chkCfg 0) 0x100 16 .chkCfg (arr (R.chkCmd 0) 0x100 16 .chkCmd (arr (R.chkFeedB 0) 0x100 16 (fun u => .chkFeed u 1)
      (arr (R.chkFeedH 0) 0x100 16 (fun u => .chkFeed u 2) (arr (R.chkFeedW 0) 0x100 16 (fun u => .chkFeed u 4) .plain))))
  else if b == 0x40800000 then arr (R.cmpCtl 0) 0x10000 32 .cmpCtl (arr (R.cmpCmd 0) 0x10000 32 .cmpCmd .plain)
  else if b == 0x40A00000 then (if a == R.flyCtl then .flyCtl else .plain)
  else if b == 0x40A80000 then arr (R.hedCtl 0) 0x1000 32 .hedCtl (arr (R.hedGpo 0) 0x1000 32 .hedGpo .plain)
  else if b == 0x40B00000 then arr (R.dptCtl 0) 0x1000 8 .dptCtl (arr (R.dptCmd 0) 0x1000 8 .dptCmd .plain)
  else if b == 0x40C00000 then arr (R.tchCtl 0) 0x1000 4 .tchCtl (arr (R.tchCmd 0) 0x1000 4 .tchCmd .plain)
  else if b == 0x41000000 then
    arr (R.dmcTrnCtl 0) 0x10000 16 .trnCtl (if isTrim a then .trim else .plain)
  else if b == 0x41200000 then
    if a == R.pruGcmd then .pruGcmd else arr (R.pruCtl 0) 0x1000 24 .pruCtl (arr (R.pruCmd 0) 0x1000 24 .pruCmd (arr (R.pruFrec 0) 0x1000 24 .pruFrec .plain))
  else .plain

/-! ### SNAP (R20, R90, R435) -/

/-- The latched copies of the words read after SNAP in a span are those that the registers hold now. -/
def Chip.latchSpan (c : Chip) (lo hi : Nat) : Chip :=
  let here (e : Nat × Word) : Bool := decide (lo ≤ e.1) && decide (e.1 < hi) && isSnapWord e.1
  let kept := c.latch.filter (fun e => !(decide (lo ≤ e.1) && decide (e.1 < hi)))
  { c with latch := (c.regs.filter here).foldl (fun m (e : Nat × Word) => mapPut resetWord m e.1 e.2) kept }

/-- R90: `MUI_NOW` holds the present Muith time. -/
def Chip.refreshNow (c : Chip) : Chip :=
  let sec := c.clk / nsPerS
  let c := (c.setNat R.muiNowSecLo (sec % 2 ^ 32)).setNat R.muiNowSecHi (sec / 2 ^ 32 % 2 ^ 16)
  (c.setNat R.muiNowNs (c.clk % nsPerS)).setWide R.muiNowShortLo R.muiNowShortHi (shortStamp c.clk)

/-- R20, R90: a write of 1 to the SNAP register at `a`. -/
def Chip.snapAt (c : Chip) (a : Nat) : Chip :=
  match snapScope a with
  | none => c
  | some (lo, hi) =>
    if a == R.muiSnap then (c.refreshNow.latchSpan lo hi).latchSpan 0x40090000 0x400A0000 else c.latchSpan lo hi

/-! ### Effects -/

/-- A plain write; `trim` marks a peg of stager 0, whose writes to trim registers take effect after seal (R384, R466). -/
def Chip.writeTrim (c : Chip) (trim : Bool) (a : Nat) (w : Word) : Chip :=
  match descAt a with
  | none => c
  | some (d, _) =>
    if trim then c.setReg a (d.after false 0 (c.reg a) w)
    else if c.isSealed then c.dropWrite a else c.writeFields a w

/-- A bit that a write turns on runs `f`. -/
def Chip.onRise (c : Chip) (a b : Nat) (w : Word) (f : Chip → Chip) (g : Chip → Chip) : Chip :=
  let was := c.bit a b
  let c := c.writeFields a w
  if !was && c.bit a b then f c else if was && !c.bit a b then g c else c

/-- R86, R92: a change of `REF_DLY[k]` moves the prediction of the jump test by the same amount. -/
def Chip.delayWrite (c : Chip) (k a : Nat) (w : Word) : Chip :=
  let old := c.sfld a 31 0
  let c := c.writeFields a w
  let d := c.sfld a 31 0 - old
  if d == 0 then c else c.modRefIn k (fun r => { r with phi := r.phi.map (fun p => p - d * 256) })

/-- R202: a write to `CAM_MCLK` of pipeline `p`: the sensor clock of its CSI group turns on or off, or changes its frequency. -/
def Chip.clockWrite (c : Chip) (p : Nat) (w : Word) : Chip :=
  let a := R.camMclk p
  let old := c.reg a
  let c := c.writeFields a w
  if c.reg a == old then c else c.send (.mclk p (c.bit a 31) (c.fld a 15 0))

/-- R512: a write to a register of slot `n`. -/
def Chip.slotWrite (c : Chip) (n a : Nat) (w : Word) : Chip :=
  let was := c.bit (R.srcCfg n) 31
  let old := c.reg a
  let c := c.writeFields a w
  if c.reg a == old then c else c.newConfig n (!was && c.bit (R.srcCfg n) 31)

/-- A pin that no head drives. -/
def gpoFree : Nat → Nat := fun _ => 64

/-- R304: while EN is 1 the level of `HED_GPO[h]` drives the pin that PIN names; any other pin is no longer driven. -/
def Chip.driveGpo (c : Chip) (h : Nat) : Chip :=
  let rest := c.gpo.filter (fun e => e.2 / 2 != h)
  if c.bit (R.hedGpo h) 31 then
    { c with gpo := mapPut gpoFree rest (c.fld (R.hedGpo h) 28 24) (2 * h + c.fld (R.hedGpo h) 0 0) }
  else { c with gpo := rest }

/-- R382, R466: a write to `DMC_TRN_CTL[n]`. -/
def Chip.trainWrite (c : Chip) (src : Source) (trim : Bool) (n a : Nat) (w : Word) : Chip :=
  if c.isSealed && !trim then c.dropWrite a
  else
    let c := c.writeTrim trim a w
    c.trainCommand src n (bitsOf w 31 28) w ((List.range 18).map (fun b => Config.stopErrors n b c.clk))

/-- R399: EN of `PRU_CTL[u]` stays 1 once applied as 1. -/
def Chip.pruCtlWrite (c : Chip) (u a : Nat) (w : Word) : Chip :=
  let c := c.writeFields a w
  if 2 ^ 31 ≤ c.pruCtlNow u then c.setFld a 31 31 1 else c

/-- A write to the register at `a` that has reached its unit: its fields and the effect of its role (R15 to R17). -/
def Chip.regWriteNow (c : Chip) (src : Source) (trim : Bool) (a : Nat) (w : Word) : Chip :=
  let cmd := bitsOf w 31 28
  match roleOf a with
  | .plain => c.writeFields a w
  | .snapshot => if bitsOf w 0 0 == 1 then c.snapAt a else c
  | .pitCmd => c.pitCommand src cmd (bitsOf w 11 0) c.pitT
  | .refCmd => c.refCommand src cmd (bitsOf w 2 0)
  | .refDly k => c.delayWrite k a w
  | .stagerCmd sg => c.stagerCommand src sg cmd (bitsOf w 15 0)
  | .stagerBuf sg => if c.bit (R.pegStgCount sg) 31 then c.bump R.pegRefuse else c.writeFields a w
  | .twnCmd => c.twinCommand src cmd
  | .twnCfg => c.onRise a 31 w (fun c => (c.setFld R.twnStat 2 0 pairWait).publish R.twnRes)
      (fun c => (c.setFld R.twnStat 2 0 0).publish R.twnRes)
  | .slot n => c.slotWrite n a w
  | .vdcCtx x => c.onRise a 31 w (fun c => c.setFld (R.vdcCtxStat x) 2 0 1) (fun c => c.setFld (R.vdcCtxStat x) 2 0 0)
  | .vecCtx x => c.onRise a 31 w (fun c => c.setFld (R.vecCtxStat x) 1 0 1) (fun c => c.setFld (R.vecCtxStat x) 1 0 0)
  | .vecCmd x => c.encCommand src x cmd
  | .camMclk p => c.clockWrite p w
  | .camCtl p => c.onRise a 31 w (fun c => c.firstBundle p) (fun c => c)
  | .capPort q => c.onRise a 31 w (fun c => c.setFld (R.capStat q) 31 31 1) (fun c => c.setFld (R.capStat q) 31 31 0)
  | .chkCfg u => c.chkConfig src u w
  | .chkCmd u => c.chkCommand src u cmd
  | .chkFeed u n => c.chkFeedWrite src u a n w
  | .cmpCtl h => (c.writeFields a w).syncAudit h
  | .cmpCmd h => c.commitCommand src h cmd
  | .flyCtl =>
    let c := c.writeFields a w
    if c.fld a 9 0 == 0 then c.setFld a 9 0 1 else c
  | .hedCtl h => c.headEnable h w
  | .hedGpo h =>
    let c := c.writeFields a w
    if c.headRun h == 2 then c else c.driveGpo h
  | .dptCtl p => c.onRise a 31 w (fun c => c.setDp p dpNoSink) (fun c => c.setDp p dpOff)
  | .dptCmd p => c.portCommand src p cmd
  | .tchCtl h => c.onRise a 31 w (fun c => c.startCalibration h true) (fun c => c.setFld (R.tchStat h) 31 30 0)
  | .tchCmd h => c.touchCommand src h cmd
  | .trnCtl n => c.trainWrite src trim n a w
  | .trim =>
    if (snapScope a).isSome then
      (if c.isSealed && !trim then c.dropWrite a else if bitsOf w 0 0 == 1 then c.snapAt a else c)
    else c.writeTrim trim a w
  | .pruCtl u => c.pruCtlWrite u a w
  | .pruCmd u => c.pruCommand src u cmd
  | .pruGcmd => c.tagCommand src cmd
  | .pruFrec u => if bitsOf w 31 31 == 1 then c.clearRecord u else c
  | .ageWin => (c.writeFields a w).checkChanges
  | .evjAlert => (c.writeFields a w).syncAlert
  | .evjAck => c.ackWrite w.toNat

/-- R23: the units whose registers lie on the analogue die: the reference inputs and the touch front ends. -/
def onAnalogue (a : Nat) : Bool := let b := baseOf a; b == 0x40090000 || b == 0x40C00000

/-- R24: a write to the register at `a`; one to the analogue die waits while the die-to-die link is down. -/
def Chip.regWrite (c : Chip) (src : Source) (trim : Bool) (a : Nat) (w : Word) : Chip :=
  if onAnalogue a && !c.d2dUp then c.queueDown (.write src trim a w) else c.regWriteNow src trim a w

/-! ### The die-to-die link (R24, R25) -/

/-- R24: a message arrives over the link. -/
def Chip.d2dDeliver (c : Chip) (m : D2dMsg) : Chip :=
  let put (words : List (Nat × Word)) (c : Chip) : Chip := forL words (fun w c => c.setReg w.1 w.2) c
  match m with
  | .report r => { c with touchIn := c.touchIn ++ [r] }
  | .sensors words => put words c
  | .loop words => ((put words c).publish R.refMeas).publish R.muiMeas
  | .edge _ _ => c
  | .write src trim a w => c.regWriteNow src trim a w

/-- D2D_LINK_DOWN (R24, R25): the link leaves its trained state. -/
def execD2dLinkDown (t : Stamp) (s : State) : Host.Outcome State Fault Refusal :=
  runIf true (fun c =>
    let c := c.at t
    if !c.d2dUp then c
    else
      let c := (c.setFld R.sysD2dStat 31 31 0).addFld R.sysD2dStat 23 16 1
      ({ c with d2dLost := 0 } : Chip).event 0x0001 .room [.val 1 0, .val 4 0]) s

/-- D2D_LINK_RETRAINED (R24): the link is trained again; the messages that waited pass in their order, and those discarded are
reported. -/
def execD2dLinkRetrained (t : Stamp) (s : State) : Host.Outcome State Fault Refusal :=
  runIf true (fun c =>
    let c := c.at t
    if c.d2dUp then c
    else
      let lost := c.d2dLost
      let msgs := c.d2dDown ++ c.d2dQueue
      let c : Chip := { c.setFld R.sysD2dStat 31 31 1 with d2dDown := [], d2dQueue := [], d2dLost := 0 }
      (forL msgs (fun m c => c.d2dDeliver m) c).event 0x0001 .room [.val 1 1, .val 4 lost]) s

/-- D2D_FLIT_REPLAY (R24, R25): a flit arrives with a CRC error and is replayed. -/
def execD2dFlitReplay (t : Stamp) (s : State) : Host.Outcome State Fault Refusal :=
  runIf true (fun c => ((c.at t).addFld R.sysD2dErr 15 0 1).addFld R.sysD2dErr 31 16 1) s

/-! ### Table windows (R504 to R506, R510) -/

/-- How a table window region takes writes: 0 read-only, 1 sealed, 2 base firmware only after seal, 3 the tag shadow. -/
def tableKind (o : Nat) : Nat :=
  if o < 0x1000000 then 2
  else if o < 0x1400000 then 0
  else if o < 0x1D20000 then 1
  else if o < 0x1DA0000 then 3
  else if o < 0x1E20000 then 0
  else if o < 0x1E60000 then 1
  else if o < 0x1E80000 then 2
  else if o < 0x1EA0000 then 0
  else if o < 0x1EA8000 then 2
  else if o < 0x1EAC000 then 0
  else if o < 0x1EAE000 then 1
  else 0

/-- R409, R510: a write to the tag shadow waits while the copy runs. -/
def Chip.tagWrite (c : Chip) (o : Nat) (l : List Byte) : Chip :=
  if c.bit R.pruGstat 30 then { c with tagHeld := c.tagHeld ++ [(o, l)] } else c.writeTags o l

/-- R505: a write of bytes at an offset of the table windows. -/
def Chip.tableWrite (c : Chip) (src : Source) (o : Nat) (l : List Byte) : Chip :=
  let kind := tableKind o
  if kind == 0 then c
  else if c.isSealed && (kind == 1 || kind == 3 || src != .base) then c.dropWrite (tableBase + o)
  else if kind == 3 then c.tagWrite o l
  else c.tbwWrite o l

end Sys2Proof.Machine
end

