-- ==== Sys2Proof/Machine/Boundary.lean ====
section
/-! DEFINITION. The boundaries at which pegs execute (R116 to R120): immediate edges, picture jobs, camera frames and point
sweeps, with what happens at each. -/

namespace Sys2Proof.Machine

/-! ### Executing a queue (R117, R118) -/

/-- A peg among others in ascending T; equal T keep their order. -/
def pegInsert (p : Peg) : List Peg → List Peg
  | [] => [p]
  | q :: rest => if decide (0 < stampGap q.launch p.launch) then p :: q :: rest else q :: pegInsert p rest

/-- R118: pegs in ascending T, equal T in acceptance order. -/
def pegSort (l : List Peg) : List Peg := l.foldl (fun acc p => pegInsert p acc) []

/-- R118, R119: a peg executes at boundary stamp `b`: its writes in buffer order. -/
def Chip.executePeg (c : Chip) (p : Peg) (b : Stamp) : Chip :=
  let c := forL p.writes (fun w c => c.regWrite .peg (p.stager == 0 && isTrim w.1) w.1 w.2) c
  let c := c.modPeg (fun e => { e with
    wrote := e.wrote.filter (fun w => w.2.1 == shortStamp b) ++ p.writes.map (fun w => (w.1, shortStamp b, w.2)) })
  let c := ((c.freePeg p 3 b).bump (R.pegCnt 0)).changeExecuted p
  if p.rpt then
    c.event 0x0A05 (pegPlace p.queue) [.val 1 p.queue, .val 2 p.group, .val 2 p.tag, .val 8 (shortStamp p.launch), .val 8 (shortStamp b)]
  else c

/-- R117: what the boundary at `b` makes of an armed peg: it executes, or expires past its deadline. The flag tells that a
commit peg executed (R120). -/
def Chip.meetBoundary (b : Stamp) (p : Peg) (x : Chip × Bool) : Chip × Bool :=
  let (c, due) := x
  if decide (0 ≤ stampGap p.deadline b) then (c.executePeg p b, due || p.commit) else (c.expirePeg p, due)

/-- R117, R118: the pegs that a boundary of queue `q` and ARG at stamp `b` meets, among those that `sel` takes: every armed one
with T ≤ b, in order. -/
def Chip.duePegs (c : Chip) (sel : Peg → Bool) (q arg : Nat) (b : Stamp) : List Peg :=
  pegSort (c.peg.pegs.filter (fun p =>
    p.queue == q && p.arg == arg && p.armed && decide (0 ≤ stampGap b p.launch) && sel p))

/-- R117, R118: the boundary of queue `q` and ARG at stamp `b` for the pegs that `sel` takes. -/
def Chip.boundaryOf (c : Chip) (sel : Peg → Bool) (q arg : Nat) (b : Stamp) : Chip × Bool :=
  let (c, due) := forL (c.duePegs sel q arg b) (Chip.meetBoundary b) (c, false)
  if q < 32 || (64 ≤ q && decide (q < 85)) then
    (c.modPeg (fun e => { e with last := mapPut (fun _ => 0) e.last (q * 2 ^ 14 + arg) (shortStamp b) }), due)
  else (c, due)

/-- The boundary of queue `q` and ARG at stamp `b` for all its pegs. -/
def Chip.boundary (c : Chip) (q arg : Nat) (b : Stamp) : Chip × Bool := c.boundaryOf (fun _ => true) q arg b

/-- R114, R116: a peg writes the block, or the `HED_CTL`, that has base address `block`. -/
def Peg.writesTo (p : Peg) (block : Nat) : Bool :=
  match p.writes with
  | [] => false
  | w :: _ => pegSpan p.queue p.arg w.1 == some block

/-- R118: a sweep starts at the edge at stamp `t`; its pegs come before those of queue 93. -/
def Chip.sweepDue (c : Chip) (t : Stamp) : Bool :=
  c.bit R.pntCtl 31 && c.pnt.sweep.isNone && t % (c.fld R.pntSweep 15 0 * nsPerMs) == 0

/-- PEG_IMMEDIATE_FIRE (R116, R118): an edge at tap value `t` of the domain of the block with base address `block`, which pegs of
queue `q` write. The pegs of a sweep that starts at the same edge of PNT come first. -/
def execPegImmediateFire (t : Stamp) (q block : Nat) (s : State) : Host.Outcome State Fault Refusal :=
  runIf (decide (85 ≤ q) && decide (q < 96)) (fun c =>
    let c := c.at t
    let c := if q == 93 && block == 0x40600000 && c.sweepDue t then (c.boundary 84 0 t).1 else c
    (c.boundaryOf (fun p => p.writesTo block) q 0 t).1) s

/-- ENGINE_JOB_START (R179): a free engine takes the next job; the pegs of its context execute at the start. -/
def execEngineJobStart (t : Stamp) (encode : Bool) (e : Nat) (s : State) : Host.Outcome State Fault Refusal :=
  runIf (decide (e < if encode then 4 else 8)) (fun c =>
    let c := c.at t
    if encode then
      match firstReady c.readyEnc with
      | some r => if (c.encOn e).isSome then c else ((c.boundary (72 + r.ctx / 8) r.ctx t).1).startEnc e r.ctx
      | none => c
    else
      match firstReady c.readyDec with
      | some r =>
        if !c.decFree e then c
        else (if r.ctx < 128 then (c.boundary (64 + r.ctx / 16) r.ctx t).1 else c).startDec e r.ctx
      | none => c) s

/-- CAMERA_FRAME_START (R204, R208): a frame start packet on virtual channel `vc`; pegs, then the bundle. -/
def execCameraFrameStart (t : Stamp) (p vc : Nat) (s : State) : Host.Outcome State Fault Refusal :=
  runIf (decide (p < 8)) (fun c =>
    let c := c.at t
    if c.bit (R.camCtl p) 31 && vc == c.fld (R.camCtl p) 24 23 then
      let c := c.beginCamFrame p
      (c.boundary (76 + p) 0 t).1.takeBundle p
    else c) s

/-- SWEEP_START (R241): the start of sweep k at k × PERIOD ms; pegs of queue 84 come first. While a sweep runs the next waits
for its end. -/
def execSweepStart (t : Stamp) (s : State) : Host.Outcome State Fault Refusal :=
  runIf true (fun c =>
    let c := c.at t
    if c.sweepDue t then
      (c.boundary 84 0 t).1.runSweep t
    else c) s

/-- The first sweep instant after a stamp (R241). -/
def Chip.nextSweep (c : Chip) (t : Stamp) : Stamp :=
  let per := c.fld R.pntSweep 15 0 * nsPerMs
  (t / per + 1) * per

/-- SWEEP_END (R241, R242): the sweep has written its last record; one that ran past the next start is an overrun, and the
next starts now. -/
def execSweepEnd (t : Stamp) (s : State) : Host.Outcome State Fault Refusal :=
  runIf true (fun c =>
    let c := c.at t
    match c.pnt.sweep with
    | none => c
    | some w =>
      let due := c.nextSweep w.start
      let c := c.sweepResult w
      if decide (t < due) then c
      else
        let c := (c.bump (R.pntCnt 14)).eventLimited 0 0x6007 .room [.val 8 (shortStamp t), .val 4 (t - due), .occ]
        if c.bit R.pntCtl 31 then (c.boundary 84 0 t).1.runSweep t else c) s

end Sys2Proof.Machine
end

