-- ==== Sys2Proof/Machine/Scan.lean ====
section
/-! DEFINITION. Scan-out (R40, R288 to R304): frame starts, lines, tile fetches and fills, output, signatures, writeback and
the comparison with the twin. -/

namespace Sys2Proof.Machine

/-! ### Counts and interrupts (R303) -/

/-- R303: a signal of head `h` counts and, when its bit is on, interrupts. -/
def Chip.headSignal (c : Chip) (h i : Nat) : Chip :=
  let c := c.setNat (R.hedCnt h i) ((c.reg (R.hedCnt h i)).toNat + 1)
  if c.bit (R.hedIrq h) i then c.send (.irq h i) else c

/-- A wrapping count of head `h` advances by `n`: 4 UNDERRUN, 5 FILLED, 6 PANIC, 7 FREEZE (R311). -/
def Chip.headCount (c : Chip) (h i n : Nat) : Chip := c.setNat (R.hedCnt h i) ((c.reg (R.hedCnt h i)).toNat + n)

/-! ### Frame starts (R40, R290, R293) -/

/-- R290: the last frame of head `h` that has started at `t`. -/
def Chip.gridLast (c : Chip) (h : Nat) (t : Stamp) : Nat :=
  ((t + 1 - c.fld (R.hedPhase h) 26 0) * 65536 - 1) / c.headQ h

/-- The next frame of a head that starts or runs. -/
def Chip.nextFrame (c : Chip) (h : Nat) : Nat := if c.headRun h == 1 then (c.head h).firstK else (c.head h).k + 1

/-- R280: the writeback slot of head `h`, where writeback is on. -/
def Chip.wbSlot (c : Chip) (h : Nat) : Option Nat :=
  let n := c.fld (R.cmpWb h) 7 0
  if c.bit (R.cmpWb h) 31 && c.slotKind n == 5 && c.fld (R.srcCfg n) 23 16 == h then some n else none

/-- A frame of head `h` begins: what it held of the frame before is cleared, and R283's values are taken. -/
def Chip.openFrame (c : Chip) (h k : Nat) : Chip :=
  c.modHead h (fun x => { x with
    k := k, inFrame := true, nextLine := 0,
    history := ((c.frameStart h k).1, (c.frameStart h k).2, c.headQ h / c.vTotal h, 0) :: x.history.take 1, videoOn := c.bit (R.hedStat h) 26, live := c.isSealed,
    ptr := (c.reg (R.cmpPtr h)).toNat, ptrXY := (c.reg (R.cmpPtrXy h)).toNat,
    fetched := [], checked := [], fills := [], filledSeen := false, minLead := 63, missed := [], glyphMissed := [], badElems := [],
    sig := crc32cInit, lsig := crc32cInit, regionCrc := [], wbBuf := none, lostSel := false,
    lastRow := [], undo := [], pitchCrc := [], rows := [], nextRow := 0 })

/-- R299, R308: the attributes that head `h`'s stream sends before a frame, and with DSC the parameter set before the first
compressed frame, also after a retraining (`resumed`: the frame before was not sent). -/
def Chip.openVideo (c : Chip) (h : Nat) (resumed : Bool) : Chip :=
  if !(c.head h).videoOn then c
  else
    let p := c.fld (R.hedOut h) 29 27
    let st := c.fld (R.hedOut h) 26 25
    let fmt := c.fld (R.hedOut h) 19 18
    let c := if resumed && c.bit (R.hedOut h) 24 then
        c.send (.parameterSet p st ((List.range 32).flatMap (fun i =>
          leBytes 4 (c.reg (R.dptDscPps (c.fld (R.hedOut h) 23 20) i)).toNat)))
      else c
    c.send (.mainStream p st {
      vc := if c.bit (R.dptCtl p) 30 then some (st + 1) else none,
      hTotal := c.fld (R.hedHtim h) 31 16, hActive := c.hActive h, hfp := c.fld (R.hedHsync h) 29 16,
      hsw := c.fld (R.hedHsync h) 13 0, hPos := c.bit (R.hedHsync h) 31, vTotal := c.vTotal h, vActive := c.vActive h,
      vfp := c.fld (R.hedVsync h) 29 16, vsw := c.fld (R.hedVsync h) 13 0, vPos := c.bit (R.hedVsync h) 31,
      fmt := fmt, bt709 := decide (2 ≤ fmt) })

/-- R357: a window of head `h` shows a frame with TWIN_LOST. -/
def Chip.showsLost (c : Chip) (h : Nat) : Bool :=
  (c.headElems h).any (fun e => e.2.kind == 1 && (match c.shownOf h e.1 with
    | some (n, i, _) => (c.frameRec n i).twinLost
    | none => false))

/-- R279: entries of head `h` whose second frame start has come are given up; each with regions counts as UNCOMPARED. -/
def Chip.dropSigs (c : Chip) (h k : Nat) : Chip :=
  let limit := (c.frameStart h (k - 2)).1
  let old (e : SigEntry) : Bool := e.head == h && decide (2 ≤ k) && decide (0 ≤ stampGap limit e.start)
  let c := forL (c.twn.sigOwn.filter old) (fun e c => if e.regions.isEmpty then c else c.bump (R.cmpCnt h 4)) c
  { c with twn := { c.twn with sigOwn := c.twn.sigOwn.filter (fun e => !old e), sigTwin := c.twn.sigTwin.filter (fun e => !old e) } }

/-- R40: the steps of frame `k` of head `h`. `bad` are the elements whose point record read met a fault. -/
def Chip.headFrame (c : Chip) (h k : Nat) (bad : List Nat) : Chip :=
  let (f, frac) := c.frameStart h k
  let l := c.headElems h
  let (c, peg) := c.boundary h 0 f
  let due := peg || c.commitDue h f
  let c := c.takeRequest h f
  let c := if due then c.commit h f else c
  let committed := due && c.bit (R.cmpRes h) 30
  let c := c.modHead h (fun x => { x with pitchFrame :=
    if c.isSealed then 3 else if x.pitchFrame == 0 then (if committed then 1 else 0) else min 3 (x.pitchFrame + 1) })
  let c := (c.turnFaults h l).dropDisabled h
  let resumed := !(c.head h).videoOn
  let c := ((c.openFrame h k).openVideo h resumed).recordFaults h bad
  let c := (c.evalHead h k f frac bad).renderHead h bad
  let c := c.modHead h (fun x => { x with lostSel := c.showsLost h })
  let c := (c.syncAudit h).dropSigs h k
  match c.wbSlot h with
  | some n =>
    let (c, b) := c.frameBegin n (k % 2 ^ 32)
    c.modHead h (fun x => { x with wbBuf := b })
  | none => c

/-- R293: a running head stops at a frame start. It shows nothing any longer (R58). -/
def Chip.stopHead (c : Chip) (h : Nat) : Chip :=
  let c := ((c.setFld (R.hedStat h) 31 30 0).dropStream h).event 0xA804 (.surface h) [.val 1 0, .val 8 (c.head h).k]
  let c := c.modHead h (fun x => { x with restart := false, inFrame := false })
  { c with shown := c.shown.filter (fun s => s.1 / 524288 != h) }

/-- R428: a running head stops at the frame start that follows a load of the counter, and starts on the new grid. -/
def Chip.restartHead (c : Chip) (h : Nat) : Chip :=
  let c := c.stopHead h
  if c.bit (R.hedCtl h) 31 then c.startHead h else c

/-- R292: at a frame start the raster of head `h` is measured against its grid, by `drift` (2^-16 ns) further off than the last trim
left it. The trim closes the difference, by at most 0.5 ppm of the frame period (DESIGN CHOICE, log 101: the rule gives no more
of the control). A difference above 50 ns raises event 0xA805. -/
def Chip.trimRaster (c : Chip) (h : Nat) (drift : Int) : Chip :=
  let d := (c.head h).raster + drift
  let lim : Int := (c.headQ h / 2000000 : Nat)
  let step := clampInt (-lim) lim d
  let c := c.modHead h (fun x => { x with raster := d - step, trim := -step })
  if 50 * 65536 < d.natAbs then c.eventLimited h 0xA805 (.surface h) [.val 4 (d.natAbs / 65536), .occ] else c

/-- HEAD_FRAME_START (R40, R292, R293): `drift` is what the raster has moved against its grid since the last trim, in 2^-16 ns. -/
def execHeadFrameStart (t : Stamp) (h : Nat) (drift : Int) (bad : List Nat) (s : State) :
    Host.Outcome State Fault Refusal :=
  runIf (decide (h < 32)) (fun c =>
    let c := c.at t
    let run := c.headRun h
    let k := max (c.nextFrame h) (c.gridLast h c.clk)
    if run == 2 && (c.head h).restart then c.restartHead h
    else if (run == 1 || run == 2) && decide ((c.frameStart h k).1 ≤ c.clk) then
      if !c.bit (R.hedCtl h) 31 then c.stopHead h
      else
        let c := if run == 1 then (c.setFld (R.hedStat h) 31 30 2).event 0xA804 (.surface h) [.val 1 2, .val 8 k] else c
        (((c.trimRaster h drift).headSignal h 0).headFrame h k bad).noteHeads
    else c) s

/-! ### Fetches (R294 to R298) -/

/-- R294: the fetches of tile (tx, ty): the provenance record, and each listed element that has pixels to fetch. -/
def Chip.needed (c : Chip) (h : Nat) (l : List (Nat × Elem)) (tx ty : Nat) : List (Option Nat) :=
  none :: ((c.listed h l tx ty).filter (fun e => match e.2.kind with
    | 1 => c.slotKind e.2.bind != 7 && (c.shownOf h e.1).isSome
    | _ => true)).map (fun e => some e.1)

/-- R294: the batch of tile row `ty` is issued: the first two at the frame start, each other once row `ty` - 2 is composed. -/
def Head.issued (hd : Head) (ty : Nat) : Bool := decide (32 * ty ≤ hd.nextRow + 32)

/-- The fetch is complete. -/
def Head.has (hd : Head) (tx ty : Nat) (e : Option Nat) : Bool :=
  hd.fetched.any (fun f => f.1 == tx && f.2.1 == ty && f.2.2.1 == e)

/-- The fetches of tile row `ty` that are not complete. -/
def Chip.lacking (c : Chip) (h : Nat) (l : List (Nat × Elem)) (ty : Nat) : List (Nat × Nat × Option Nat) :=
  (List.range (c.tileCols h)).flatMap (fun tx =>
    ((c.needed h l tx ty).filter (fun e => !(c.head h).has tx ty e)).map (fun e => (tx, ty, e)))

/-- R295: tile rows from row 0 without a gap whose batches are complete or whose check has passed, among `n` more. -/
def Chip.rowsReady (c : Chip) (h : Nat) (l : List (Nat × Elem)) (r : Nat) : Nat → Nat
  | 0 => r
  | n + 1 => if (c.head h).checked.contains r || (c.lacking h l r).isEmpty then c.rowsReady h l (r + 1) n else r

/-- R295: the fetch lead at the start of scan line `n`. -/
def Chip.leadAt (c : Chip) (h : Nat) (l : List (Nat × Elem)) (n : Nat) : Nat :=
  let rows := c.tileRows h
  let r := c.rowsReady h l 0 rows
  if r == rows then 63 else (clampInt 0 63 (((c.vStart h + 32 * r : Nat) : Int) - 1 - n)).toNat

/-- R295: the head-fetch panic follows the lead. -/
def Chip.headLead (c : Chip) (h lead : Nat) : Chip :=
  let c := c.setFld (R.hedStat h) 5 0 lead
  let c := c.modHead h (fun x => { x with minLead := min x.minLead lead })
  let mark := c.fld (R.hedFetch h) 5 0
  if lead < mark && !c.bit (R.hedStat h) 29 then ((c.setFld (R.hedStat h) 29 29 1).headCount h 6 1).setPanic (.head h) true
  else if mark + 8 ≤ lead && c.bit (R.hedStat h) 29 then (c.setFld (R.hedStat h) 29 29 0).setPanic (.head h) false
  else c

/-- R296: a tile whose provenance record is not complete is filled whole; otherwise each element that is not. -/
def fillsOf (l : List (Nat × Nat × Option Nat)) : List (Nat × Nat × Option Nat) :=
  l.filter (fun f => f.2.2 == none || !l.contains (f.1, f.2.1, none))

/-- The tiles that carry a fill. -/
def fillTiles (l : List (Nat × Nat × Option Nat)) : List (Nat × Nat) :=
  l.foldl (fun m f => if m.contains (f.1, f.2.1) then m else m ++ [(f.1, f.2.1)]) []

/-- R296: the check of tile row `r`. -/
def Chip.checkRow (c : Chip) (h : Nat) (l : List (Nat × Elem)) (r : Nat) : Chip :=
  let f := fillsOf (c.lacking h l r)
  let n := (fillTiles f).length
  let c := c.modHead h (fun x => { x with checked := r :: x.checked, fills := x.fills ++ f, underrun := x.underrun + n })
  c.headCount h 5 n

/-- R298, R514: what an event 0xA801 that waits carries besides its first tile: further tiles, and the lowest lead. -/
def Ev.moreTiles (e : Ev) (n lead : Nat) : Ev :=
  match e.content with
  | [x, y, o, .val _ t, .val _ low] => { e with content := [x, y, o, .val 4 (t + n), .val 1 (min low lead)] }
  | _ => e

/-- R298: tiles filled are put into the event that waits for the rate limit, if one does. -/
def Chip.joinUnderrun (c : Chip) (h : Nat) : Chip :=
  let k := rateKey 0xA801 h
  let w := mapGet rateDefault c.rate k
  match w.first with
  | some e =>
    let hd := c.head h
    let w' : RateWin := { w with first := some (e.moreTiles hd.underrun hd.minLead) }
    ({ c with rate := mapPut rateDefault c.rate k w' } : Chip).modHead h (fun x => { x with underrun := 0 })
  | none => c

/-- R298: event 0xA801 of an underrun frame, at the first line that carries a fill. -/
def Chip.underrunEvent (c : Chip) (h : Nat) : Chip :=
  let hd := c.head h
  match fillTiles hd.fills with
  | [] => c
  | (tx, ty) :: _ =>
    let waits := (mapGet rateDefault c.rate (rateKey 0xA801 h)).first.isSome
    let c := c.eventLimited h 0xA801 (.tile h tx ty)
      [.val 2 tx, .val 2 ty, .occ, .val 4 hd.underrun, .val 1 hd.minLead]
    if waits then c.joinUnderrun h else c.modHead h (fun x => { x with underrun := 0 })

/-- TILE_FETCH_COMPLETE (R64, R297): a fetch of element `e` (none: the provenance record) of a tile completes, with a fault or
without. Late data is discarded. -/
def execTileFetchComplete (t : Stamp) (h tx ty : Nat) (e : Option Nat) (fault : Bool) (s : State) :
    Host.Outcome State Fault Refusal :=
  runIf (decide (h < 32)) (fun c =>
    let c := c.at t
    let hd := c.head h
    if hd.inFrame && decide (tx < c.tileCols h) && decide (ty < c.tileRows h) && !hd.checked.contains ty && hd.issued ty &&
      (c.needed h (c.mapElems h) tx ty).contains e && !hd.has tx ty e then
      match e, fault with
      | none, true => c
      | some i, true =>
        let c := c.modHead h (fun x => { x with fetched := (tx, ty, e, true) :: x.fetched })
        (c.modElemState i (fun x => { x with faultNow := true })).event 0xA004 (.tile h tx ty) [.val 2 tx, .val 2 ty]
      | _, false => c.modHead h (fun x => { x with fetched := (tx, ty, e, false) :: x.fetched })
    else c) s

/-! ### Output (R280, R299, R301) -/

/-- R299: the components that leave for a row of composed pixels. -/
def outRow (fmt : Nat) (row : List Px) : List (Nat × Nat × Nat) :=
  match fmt with
  | 0 => row.map (fun p => (narrow8 p.r, narrow8 p.g, narrow8 p.b))
  | 1 => row.map (fun p => (p.r, p.g, p.b))
  | 2 => row.map rgbToYcc
  | _ =>
    let y := row.map rgbToYcc
    (y.zip (List.range y.length)).map (fun a =>
      let c0 := (y.getD (a.2 / 2 * 2) (0, 0, 0)).2
      let c1 := (y.getD (min (a.2 / 2 * 2 + 1) (y.length - 1)) (0, 0, 0)).2
      (a.1.1, if a.2 % 2 == 0 then (c0.1 + c1.1 + 1) / 2 else (c0.2 + c1.2 + 1) / 2, 0))

/-- R301: components packed as in R277. -/
def packTriple (p : Nat × Nat × Nat) : List Byte := leBytes 4 (p.1 * 2 ^ 20 + p.2.1 * 2 ^ 10 + p.2.2)

/-- A rectangle in tiles over which a CRC is taken: number, left and top tile, width and height in tiles. -/
structure TileRect where
  num : Nat
  tx : Nat
  ty : Nat
  tw : Nat
  th : Nat
  deriving DecidableEq, Repr

/-- R277: the running CRCs of rectangles after row `y` of the pixels between fly sheet and pointer. -/
def feedRects (l : List TileRect) (m : List (Nat × Nat)) (y : Nat) (row : List Px) : List (Nat × Nat) :=
  l.foldl (fun m r =>
    if 32 * r.ty ≤ y && decide (y < 32 * (r.ty + r.th)) then
      let bytes := ((row.drop (32 * r.tx)).take (32 * r.tw)).flatMap packPx
      mapPut (fun _ => crc32cInit) m r.num (crc32cFeed (mapGet (fun _ => crc32cInit) m r.num) bytes)
    else m) m

/-- The regions of head `h` as rectangles. -/
def Chip.regionRects (c : Chip) (h : Nat) : List TileRect :=
  (c.headRegions h).map (fun r => ⟨r.1, r.2.tx, r.2.ty, r.2.tw, r.2.th⟩)

/-- R423, R429: the PITCHSIG entries of head `h`, with their numbers and expected CRCs. -/
def Chip.pitchEntries (c : Chip) (h : Nat) : List (TileRect × Nat) :=
  let l := c.sectionBytes 11
  ((List.range (leAt l 0 4)).map (fun i =>
    let o := 8 + 16 * i
    (leAt l o 1, (⟨i, leAt l (o + 2) 2, leAt l (o + 4) 2, leAt l (o + 6) 2, leAt l (o + 8) 2⟩ : TileRect), leAt l (o + 12) 4))).filterMap
    (fun e => if e.1 == h then some e.2 else none)

/-- The pitch-screen check runs in this frame (R429). -/
def Chip.pitchCheck (c : Chip) (h : Nat) : Bool :=
  let n := (c.head h).pitchFrame
  !c.isSealed && (n == 1 || n == 2)

/-- R280: an active row is written back. -/
def Chip.writeBack (c : Chip) (h y : Nat) (row : List Px) : Chip :=
  let hd := c.head h
  match c.wbSlot h, hd.wbBuf with
  | some n, some b =>
    let p := c.bufPic n b
    let before := hd.lastRow
    let px (x yy : Nat) : Px :=
      if yy == y then row.getD x ⟨0, 0, 0, 255⟩
      else let q := before.getD x (0, 0, 0); ⟨q.1, q.2.1, q.2.2, 255⟩
    let c := c.putRow p rgbToYcc y px
    c.modHead h (fun x => { x with lastRow := row.map (fun q => (q.r, q.g, q.b)) })
  | _, _ => c

/-- R288: line `n` of head `h` leaves to its port, with the given active pixels. -/
def Chip.sendLine (c : Chip) (h n : Nat) (px : List (Nat × Nat × Nat)) : Chip :=
  let hfp := c.fld (R.hedHsync h) 29 16
  let hsw := c.fld (R.hedHsync h) 13 0
  let vfp := c.fld (R.hedVsync h) 29 16
  let part : LinePart := if n < vfp then .frontPorch else if n < vfp + c.fld (R.hedVsync h) 13 0 then .sync
    else if n < c.vStart h then .backPorch else .active
  if c.fld (R.hedOut h) 31 30 == 1 && !c.bit (R.hedOut h) 24 && (c.head h).videoOn then
    c.send (.video (c.fld (R.hedOut h) 29 27) (c.fld (R.hedOut h) 26 25) part px hfp hsw
      (c.fld (R.hedHtim h) 31 16 - c.hActive h - hfp - hsw))
  else c

/-- Active row `y` of head `h`, composed before, is signed, sent and written back. -/
def Chip.sendRow (c : Chip) (h y : Nat) : Chip :=
  let row := match (c.head h).rows.find? (fun r => r.1 == y) with
    | some r => r.2
    | none => c.composeRow h (c.mapElems h) y
  let sent := row.map (fun p => p.sent)
  let regions := row.map (fun p => p.region)
  let out := outRow (c.fld (R.hedOut h) 19 18) sent
  let dest := c.fld (R.hedOut h) 31 30 == 1
  let dsc := c.bit (R.hedOut h) 24
  let hd := c.head h
  let sig := crc32cFeed hd.sig (sent.flatMap packPx)
  let lsig := if dest && !dsc then crc32cFeed hd.lsig (out.flatMap packTriple) else hd.lsig
  let crcs := feedRects (c.regionRects h) hd.regionCrc y regions
  let pitch := if c.pitchCheck h then feedRects ((c.pitchEntries h).map (fun e => e.1)) hd.pitchCrc y regions else hd.pitchCrc
  let c := c.modHead h (fun x => { x with sig := sig, lsig := lsig, regionCrc := crcs, pitchCrc := pitch, rows := x.rows.filter (fun r => r.1 != y) })
  (c.sendLine h (c.vStart h + y) out).writeBack h y (row.map (fun p => if c.bit (R.cmpWb h) 30 then p.sent else p.plain))

/-! ### Lines (R304) -/

/-- R41: the scan time of line `n` of head `h`'s present frame. -/
def Chip.lineTime (c : Chip) (h n : Nat) : Stamp :=
  let (f, frac) := c.frameStart h (c.head h).k
  f + (frac + n * (c.headQ h / c.vTotal h)) / 65536

/-- R303: a comparator of head `h` matches line `n`. -/
def Chip.compareLine (c : Chip) (h n i : Nat) : Chip :=
  if c.bit (R.hedLcmp h i) 31 && c.fld (R.hedLcmp h i) 15 0 == n then c.headSignal h (1 + i) else c

/-- R44, R387: the fly sheet's panic ends with its evaluation, 150 µs after the frame start at the latest. -/
def Chip.endFlyPanic (c : Chip) (h : Nat) : Chip :=
  if c.mem.panics (.fly h) && elapsed c.clk (c.frameStart h (c.head h).k).1 (150 * nsPerUs) then c.setPanic (.fly h) false else c

/-- Line `n` of head `h` starts: pegs and direct writes act, comparators match, the pin is driven, the lead is taken, the check
of R296 runs, the active row two lines on is composed (R294), and the line leaves. -/
def Chip.headLine (h n : Nat) (c : Chip) : Chip :=
  let l := c.mapElems h
  let (c, _) := c.boundary (32 + h) n (c.lineTime h n)
  let c := ((c.compareLine h n 0).compareLine h n 1).driveGpo h
  let c := c.headLead h (c.leadAt h l n)
  let v := c.vStart h
  let r := (n + 2 - v) / 32
  let c := if v ≤ n + 2 && (n + 2 - v) % 32 == 0 && decide (r < c.tileRows h) then c.checkRow h l r else c
  let c := c.modHead h (fun x => { x with nextLine := n + 1, history := match x.history with
    | (f, frac, line, _) :: rest => (f, frac, line, n + 1) :: rest
    | [] => [] })
  let c := if v ≤ n + 2 then c.composeRows h (n + 3 - v) else c
  if n < v then c.sendLine h n []
  else
    let hd := c.head h
    let c := if !hd.filledSeen && hd.fills.any (fun f => f.2.1 == (n - v) / 32) then
        ((c.modHead h (fun x => { x with filledSeen := true })).headSignal h 4).underrunEvent h
      else c
    c.sendRow h (n - v)

/-- The lines of head `h` that have not started, up to and without line `n`, start in order. -/
def Chip.headLines (c : Chip) (h n : Nat) : Chip :=
  let from_ := (c.head h).nextLine
  forN (n - from_) (fun i c => Chip.headLine h (from_ + i) c) c

/-- HEAD_LINE_START (R304). Earlier lines of the frame that had no command of their own have started before it. -/
def execHeadLineStart (t : Stamp) (h n : Nat) (s : State) : Host.Outcome State Fault Refusal :=
  runIf (decide (h < 32)) (fun c =>
    let c := c.at t
    let hd := c.head h
    if hd.inFrame && decide (hd.nextLine ≤ n) && decide (n < c.vTotal h) then (c.headLines h (n + 1)).endFlyPanic h else c) s

/-- FLY_SHEET_PANIC (R387): the evaluation of head `h` has not finished FLY_US µs after its frame start. -/
def execFlySheetPanic (t : Stamp) (h : Nat) (s : State) : Host.Outcome State Fault Refusal :=
  runIf (decide (h < 32)) (fun c =>
    let c := c.at t
    let hd := c.head h
    if hd.inFrame && elapsed c.clk (c.frameStart h hd.k).1 (c.fld R.dmcPanic 7 0 * nsPerUs) then c.setPanic (.fly h) true
    else c) s

/-! ### Signature regions and the twin (R278, R279, R357) -/

/-- Runs of a region: frames mismatching EXPECT, frames mismatching the twin. -/
def runDefault : Nat → Nat × Nat := fun _ => (0, 0)

/-- R278: a comparison of region `r` (0 EXPECT, 1 the twin) ends: its run and its events. -/
def Chip.regionCompare (c : Chip) (h r which : Nat) (want got : Nat) : Chip :=
  let g := c.region r
  let (a, b) := mapGet runDefault (c.head h).runs r
  let old := if which == 0 then a else b
  let new := if want == got then 0 else old + 1
  let c := c.modHead h (fun x => { x with runs := mapPut runDefault x.runs r (if which == 0 then (new, b) else (a, new)) })
  if new == g.persist then
    c.event (0x8002 + which) (.tile h g.tx g.ty) [.val 2 r, .val 2 g.tag, .val 4 want, .val 4 got]
  else if new == 0 && decide (g.persist ≤ old) then
    c.event 0x8004 (.tile h g.tx g.ty) [.val 2 r, .val 2 g.tag, .val 4 (Config.eventCode 0x8004 which), .val 4 old]
  else c

/-- R267, R278: the region is blended in audit mode: in the whole head, or in each of its tiles that the raster has. -/
def Chip.regionAudit (c : Chip) (h : Nat) (g : Region) : Bool :=
  let exp := (c.headRegions h).filter (fun r => r.2.exp)
  c.auditHead h || g.exp ||
    (!exp.isEmpty && (List.range (c.tileRows h)).all (fun ty => (List.range (c.tileCols h)).all (fun tx =>
      !g.covers (32 * tx) (32 * ty) || exp.any (fun r => r.2.covers (32 * tx) (32 * ty)))))

/-- R278: the result record of region `r` after frame `k`, with no twin value compared yet. -/
def Chip.putResult (c : Chip) (h r k crc : Nat) : Chip :=
  let g := c.region r
  let (a, b) := mapGet runDefault (c.head h).runs r
  let bit (p : Bool) (n : Nat) := if p then 2 ^ n else 0
  let w0 := k % 65536 * 65536 + bit (c.regionAudit h g) 4 + bit (!g.twin) 2 + bit (!g.exp || g.expect == crc) 1
  c.tbwWrite (twResult r) (leBytes 4 w0 ++ leBytes 4 crc ++ leBytes 4 0 ++ leBytes 2 a ++ leBytes 2 b)

/-- R278: the result record of region `r` takes the twin's value, which was compared with the record's own CRC. -/
def Chip.putTwinResult (c : Chip) (h r crc twin : Nat) : Chip :=
  let (_, b) := mapGet runDefault (c.head h).runs r
  let low := c.tbwNat (twResult r) 1 / 16 * 16 + c.tbwNat (twResult r) 1 / 2 % 2 * 2 + 8 + (if twin == crc then 4 else 0)
  ((c.tbwWrite (twResult r) (leBytes 1 low)).tbwWrite (twResult r + 8) (leBytes 4 twin)).tbwWrite (twResult r + 14) (leBytes 2 b)

/-- R278: the results of a frame. EXP_MISS counts a frame in which any region mismatched EXPECT. -/
def Chip.regionResults (c : Chip) (h : Nat) : Chip :=
  let hd := c.head h
  let (c, miss) := forL (c.headRegions h) (fun r (x : Chip × Bool) =>
    let (c, miss) := x
    let crc := crc32cValue (mapGet (fun _ => crc32cInit) hd.regionCrc r.1)
    let c := if r.2.exp then c.regionCompare h r.1 0 r.2.expect crc else c
    (c.putResult h r.1 hd.k crc, miss || (r.2.exp && r.2.expect != crc))) (c, false)
  if miss then c.bump (R.cmpCnt h 2) else c

/-- R279, R357: the values of both twins for one frame start of head `h`. -/
def Chip.compareSigs (c : Chip) (h : Nat) (own twin : SigEntry) : Chip :=
  if own.lostSel || twin.lostSel then (if own.regions.isEmpty then c else c.bump (R.cmpCnt h 4))
  else
    let c := if own.sig == twin.sig then c
      else (c.bump (R.twnCnt 5)).eventLimited h 0x1009 (.surface h) [.val 1 h, .occ]
    let now := c.wide (R.hedResFsLo h) (R.hedResFsHi h) == shortStamp own.start
    let (c, open_, miss) := forL own.regions (fun e (x : Chip × Bool × Bool) =>
      let (c, open_, miss) := x
      match twin.regions.find? (fun f => f.1 == e.1) with
      | some f =>
        if f.2.1 != e.2.1 then (c, true, miss)
        else
          let c := c.regionCompare h e.1 1 f.2.2 e.2.2
          (if now then c.putTwinResult h e.1 e.2.2 f.2.2 else c, open_, miss || f.2.2 != e.2.2)
      | none => (c, true, miss)) (c, false, false)
    let c := if miss then c.bump (R.cmpCnt h 3) else c
    if open_ then c.bump (R.cmpCnt h 4) else c

/-- Two entries are of one frame. -/
def SigEntry.same (a b : SigEntry) : Bool := a.head == b.head && a.start == b.start

/-- R279: an own frame waits for the twin's value, or is compared with the one that came before it. -/
def Chip.ownSig (c : Chip) (e : SigEntry) : Chip :=
  match c.twn.sigTwin.find? (fun x => x.same e) with
  | some x => ({ c with twn := { c.twn with sigTwin := c.twn.sigTwin.filter (fun y => !y.same e) } } : Chip).compareSigs e.head e x
  | none => { c with twn := { c.twn with sigOwn := c.twn.sigOwn ++ [e] } }

/-- R279: the twin's value for a frame start arrives. -/
def Chip.twinSig (c : Chip) (e : SigEntry) : Chip :=
  match c.twn.sigOwn.find? (fun x => x.same e) with
  | some x => ({ c with twn := { c.twn with sigOwn := c.twn.sigOwn.filter (fun y => !y.same e) } } : Chip).compareSigs e.head x e
  | none => if c.headRun e.head == 2 then { c with twn := { c.twn with sigTwin := c.twn.sigTwin ++ [e] } } else c

/-- SIGX_RECEIVE (R338, R357). -/
def execSigxReceive (t : Stamp) (msg : List Byte) (s : State) : Host.Outcome State Fault Refusal :=
  runIf (decide (msg.length = 24 + 8 * leAt msg 2 2) && decide (leAt msg 0 1 < 32)) (fun c =>
    let regions := (List.range (leAt msg 2 2)).map (fun i =>
      let w := leAt msg (24 + 8 * i) 2
      (w % 1024, w / 2 ^ 15 == 1, leAt msg (28 + 8 * i) 4))
    let c := c.at t
    if !c.twinOn then c
    else c.twinSig { head := leAt msg 0 1, start := leAt msg 8 8, lostSel := leAt msg 1 1 % 2 == 1,
                     sig := leAt msg 16 4, regions := regions }) s

/-! ### Frame done (R278 to R282, R301 to R303, R357, R429) -/

/-- R302: the freeze detector of one signature: `which` 0 SIG, 1 LSIG; its bit of `HED_STAT`; its last value and run. Answers
the new run. -/
def Chip.freeze (c : Chip) (h which : Nat) (last : Option Nat) (run v : Nat) : Chip × Nat :=
  let b := 28 - which
  if last == some v then
    let c := if run + 1 == max 1 (c.fld (R.hedFreeze h) 7 0) then
        ((c.setFld (R.hedStat h) b b 1).headCount h 7 1).event 0xA802 (.surface h)
          [.val 4 (Config.eventCode 0xA802 which), .val 4 v, .val 4 (run + 1)]
      else c
    (c, run + 1)
  else if c.bit (R.hedStat h) b then
    ((c.setFld (R.hedStat h) b b 0).event 0xA803 (.surface h) [.val 4 (Config.eventCode 0xA803 which), .val 4 run], 0)
  else (c, 0)

/-- R281: the writeback frame finishes: COMPLETE; INCOMPLETE when its writes could not drain in time (`wb` 1); ERROR with
cause bit 2 on a protection fault (`wb` 2). -/
def Chip.finishWriteback (c : Chip) (h wb : Nat) : Chip :=
  match c.wbSlot h, (c.head h).wbBuf with
  | some n, some b =>
    let f := (c.frameStart h (c.head h).k).1
    let seq := (c.frameRec n b).seq
    let code := if wb == 0 then 2 else if wb == 1 then 6 else 5
    let c := c.frameFinish n b code (if wb == 2 then 4 else 0) f (some f) 0
    let c := if wb == 1 then c.bump (R.cmpCnt h 5) else c
    if wb == 0 then c else c.event 0x8005 (.surface h) [.val 1 n, .val 4 seq, .val 1 code]
  | _, _ => c

/-- R429: the pitch-screen check of a frame. -/
def Chip.pitchDone (c : Chip) (h : Nat) : Chip :=
  if !c.pitchCheck h then c
  else
    let hd := c.head h
    let crc (e : TileRect × Nat) : Nat := crc32cValue (mapGet (fun _ => crc32cInit) hd.pitchCrc e.1.num)
    let bad := (c.pitchEntries h).filter (fun e => crc e != e.2)
    let c := if hd.pitchFrame == 2 then
        forL (bad.filter (fun e => hd.pitchBad.contains e.1.num)) (fun e c =>
          c.event 0x0104 (.surface h) [.val 4 e.1.num, .val 4 e.2, .val 4 (crc e)]) c
      else c
    c.modHead h (fun x => { x with pitchBad := bad.map (fun e => e.1.num) })

/-- R357: the SIGX of a frame, and its own entry for the comparison. -/
def Chip.sendSigx (c : Chip) (h : Nat) (start : Stamp) (sig lsig : Nat) : Chip :=
  let hd := c.head h
  let regions := ((c.headRegions h).filter (fun r => r.2.twin)).map (fun r =>
    (r.1, c.regionAudit h r.2, crc32cValue (mapGet (fun _ => crc32cInit) hd.regionCrc r.1)))
  let c := c.bolSend 4 (leBytes 1 h ++ leBytes 1 (if hd.lostSel then 1 else 0) ++ leBytes 2 regions.length ++
    leBytes 4 (hd.k % 2 ^ 32) ++ leBytes 8 (shortStamp start) ++ leBytes 4 sig ++ leBytes 4 lsig ++
    regions.flatMap (fun e => leBytes 2 (e.1 + if e.2.1 then 2 ^ 15 else 0) ++ [0, 0] ++ leBytes 4 e.2.2))
  c.ownSig { head := h, start := shortStamp start, lostSel := hd.lostSel, sig := sig, regions := regions }

/-- R301, R311: the result block of a frame. -/
def Chip.headResult (c : Chip) (h : Nat) (f : Stamp) (frac sig lsig : Nat) : Chip :=
  let hd := c.head h
  let c := c.setWide (R.hedResFrameLo h) (R.hedResFrameHi h) (hd.k % 2 ^ 48)
  let c := c.setWide (R.hedResFsLo h) (R.hedResFsHi h) (shortStamp f)
  let c := ((c.setFld (R.hedResFrac h) 31 16 frac).setNat (R.hedResSig h) sig).setNat (R.hedResLsig h) lsig
  let c := (c.setFld (R.hedResFill h) 31 16 (min (fillTiles hd.fills).length 65535)).setFld (R.hedResFill h) 5 0 hd.minLead
  c.publish (R.hedRes h)

/-- HEAD_FRAME_DONE (R303): the last active pixel has left. `dsc` are the frame's compressed bytes where DSC is on; `wb` tells
what became of its writeback's writes. -/
def execHeadFrameDone (t : Stamp) (h : Nat) (dsc : List Byte) (wb : Nat) (s : State) : Host.Outcome State Fault Refusal :=
  runIf (decide (h < 32) && decide (wb < 3)) (fun c =>
    let c := c.at t
    if !(c.head h).inFrame then c
    else
      let c := (c.headLines h (c.vTotal h)).endFlyPanic h
      let hd := c.head h
      let (f, frac) := c.frameStart h hd.k
      let on := c.fld (R.hedOut h) 31 30 == 1
      let packed := c.bit (R.hedOut h) 24
      let sig := crc32cValue hd.sig
      let lsig := if !on then 0 else if packed then crc32c dsc else crc32cValue hd.lsig
      let c := if on && packed && hd.videoOn then
          c.send (.compressed (c.fld (R.hedOut h) 29 27) (c.fld (R.hedOut h) 26 25) dsc)
        else c
      let c := if hd.filledSeen then c.joinUnderrun h else c
      let c := (c.finishWriteback h wb).regionResults h
      let c := (c.headResult h f frac sig lsig).headSignal h 3
      let (c, run) := c.freeze h 0 hd.lastSig hd.sigRun sig
      let (c, lrun) := if on then c.freeze h 1 hd.lastLsig hd.lsigRun lsig else (c, 0)
      let c := c.modHead h (fun x => { x with
        lastSig := some sig, lastLsig := if on then some lsig else none, sigRun := run, lsigRun := lrun, inFrame := false })
      (c.sendSigx h f sig lsig).pitchDone h) s

end Sys2Proof.Machine
end

