-- ==== Sys2Proof/Machine/Access.lean ====
section
/-! DEFINITION. Accesses of initiators (R15 to R20, R385, R386, R393 to R403, R433, R434, R500 to R510): registers, table windows
and DRAM, and the provenance aperture. -/

namespace Sys2Proof.Machine

/-! ### Reading the table windows (R507, R508) -/

/-- R508: the bytes of the provenance aperture from offset `o`; a read stays in one record. -/
def Chip.apertureBytes (c : Chip) (o n : Nat) : List Byte :=
  let h := c.fld R.tbwSel 28 24
  let i := (c.fld R.tbwSel 1 0 * 2 ^ 20 + o) / 64
  let cols := c.tileCols h
  let rec_ := if i < cols * c.tileRows h then (c.provWords h (i % cols) (i / cols)).flatMap (leBytes 4) else List.replicate 64 0
  (rec_.drop (o % 64)).take n

/-- A read of `n` bytes at an offset of the table windows. -/
def Chip.tableRead (c : Chip) (o n : Nat) : List Byte :=
  if 0x1F00000 ≤ o then c.apertureBytes (o - 0x1F00000) n else c.tbwBytes o n

/-! ### An access (R394, R400 to R403, R502) -/

/-- R401: the shape of every access: 1 to 64 bytes inside one 64-byte block. -/
def accessOk (a : Access) : Bool :=
  decide (a.unit < pruUnits) && decide (a.kind < 3) && decide (0 < a.len) && decide (a.addr % 64 + a.len ≤ 64) &&
    decide (a.addr < 2 ^ 40) && decide (a.source < 32) && (a.unit != 0 || decide (a.source < 8)) && decide (a.group < 10) &&
    (a.kind != 1 || a.data.length == a.len) && decide (a.rmw < 3)

/-- An access that unit 0, 1 or an engine's unit has let pass reaches a register or a table window. -/
def Chip.performAccess (c : Chip) (src : Source) (a : Access) : Chip :=
  match placeOf c.dramCap a.addr with
  | .register =>
    if a.kind == 1 then c.regWrite src false a.addr (BitVec.ofNat 32 (leNat a.data))
    else c.send (.reply a.unit a.source (leBytes 4 (c.readReg a.addr).toNat) false)
  | .table =>
    let o := a.addr - tableBase
    if a.kind == 1 then c.tableWrite src o a.data else c.send (.reply a.unit a.source (c.tableRead o a.len) false)
  | _ => c.faulted a

/-- An access to DRAM goes to the memory system; any other is checked, and reaches its register or table window where its shape
is one that the window takes. -/
def Chip.doAccess (c : Chip) (src : Source) (a : Access) : Chip :=
  if placeOf c.dramCap a.addr == .dram then c.requestDram a
  else
    let (c, ok) := c.check a
    if ok && c.shapeOk a.addr a.len then c.performAccess src a else c.faulted a

/-- R433: the writer that an access of a unit counts as. -/
def accessSource (a : Access) : Source :=
  if a.unit == 0 then (if a.user then .user else .base) else if a.unit == 1 then .base
  else if a.unit == 21 then .mgt else .user

/-! ### The commands -/

/-- R118: a direct write at the edge on which pegs have executed is applied before them: the peg's value stands in a register that
only holds its fields. -/
def Chip.pegStands (c : Chip) (t : Stamp) (a : Nat) : Chip :=
  match c.peg.wrote.reverse.find? (fun w => w.1 == a && w.2.1 == shortStamp t) with
  | some (_, _, w) => if roleOf a == .plain then c.writeFields a w else c
  | none => c

/-- WRITE_REGISTER (R15 to R17, R118, R501, R502). Control cores write for every source but the peg engine, whose writes meet no
protection unit (R393). -/
def execWriteRegister (t : Stamp) (src : Source) (hart addr : Nat) (data : List Byte) (s : State) :
    Host.Outcome State Fault Refusal :=
  let a : Access := ⟨0, hart, src == .user, 1, 8, 0, addr, data.length, data, 0⟩
  runIf (accessOk a) (fun c =>
    let c := c.at t
    if src != .peg then (c.doAccess src a).pegStands t addr else if c.shapeOk addr data.length then c.performAccess .peg a else c) s

/-- SNAP (R20, R435): a write of 1 to the SNAP register at `addr`. -/
def execSnap (t : Stamp) (src : Source) (addr : Nat) (s : State) : Host.Outcome State Fault Refusal :=
  runIf (snapScope addr).isSome (fun c => (c.at t).regWrite src false addr 1) s

/-- CLEAR_REFUSAL_RECORD (R433). -/
def execClearRefusalRecord (t : Stamp) (s : State) : Host.Outcome State Fault Refusal :=
  runIf true (fun c => (c.at t).setFld R.pitRef 31 31 0) s

/-- CLEAR_DROPPED_WRITE_RECORD (R434). -/
def execClearDroppedWriteRecord (t : Stamp) (s : State) : Host.Outcome State Fault Refusal :=
  runIf true (fun c => (c.at t).setFld R.pitSwr 31 31 0) s

/-- MEMORY_REQUEST (R180, R385, R386, R388, R394): an access enters the fabric, in the group of its initiator. -/
def execMemoryRequest (t : Stamp) (a : Access) (s : State) : Host.Outcome State Fault Refusal :=
  runIf (accessOk a) (fun c => (c.at t).doAccess (accessSource a) ((c.at t).groupOf a)) s

end Sys2Proof.Machine
end

