-- ==== Sys2Proof/Machine/Crypto.lean ====
section
/-! DEFINITION. The algorithms that the manual names and leaves to their standards (PRESUMED, log 19): SHA-256, SHA-384 and HMAC
(R416 to R418, R442), ECDSA over P-384 (R417), and AES-256-GCM (R416, R418). -/

namespace Sys2Proof.Machine

/-! ### SHA-2 -/

/-- The largest number of at most `bits` bits whose power `k` is at most `v`. -/
def intRoot (bits k v : Nat) : Nat :=
  (List.range bits).foldr (fun i r => if (r + 2 ^ i) ^ k ≤ v then r + 2 ^ i else r) 0

/-- The primes below 410: the first 80. -/
def shaPrimes : List Nat :=
  (List.range 410).filter (fun n => decide (2 ≤ n) && (List.range 21).all (fun d => decide (d < 2) || d == n || n % d != 0))

/-- The first `w` bits of the fraction of the root `k` of a prime. -/
def rootWord (w k p : Nat) : BitVec w := BitVec.ofNat w (intRoot (w + 5) k (p * 2 ^ (w * k)))

/-- A variant of SHA-2 with words of `w` bits: the rounds; the distances of the round's two sums and of the schedule's two mixes, whose
third is a shift; and the initial state. -/
structure ShaKind (w : Nat) where
  rounds : Nat
  sumE : Nat × Nat × Nat
  sumA : Nat × Nat × Nat
  mixOld : Nat × Nat × Nat
  mixNew : Nat × Nat × Nat
  init : List (BitVec w)

/-- SHA-256: square roots of the first 8 primes. -/
def sha256Kind : ShaKind 32 :=
  { rounds := 64, sumE := (6, 11, 25), sumA := (2, 13, 22), mixOld := (7, 18, 3), mixNew := (17, 19, 10),
    init := (shaPrimes.take 8).map (rootWord 32 2) }

/-- SHA-384: square roots of the next 8 primes. -/
def sha384Kind : ShaKind 64 :=
  { rounds := 80, sumE := (14, 18, 41), sumA := (28, 34, 39), mixOld := (1, 8, 7), mixNew := (19, 61, 6),
    init := ((shaPrimes.drop 8).take 8).map (rootWord 64 2) }

/-- Three turns of a word, added without carry. -/
def turn3 {w : Nat} (x : BitVec w) (d : Nat × Nat × Nat) : BitVec w :=
  x.rotateRight d.1 ^^^ x.rotateRight d.2.1 ^^^ x.rotateRight d.2.2

/-- Two turns and a shift of a word, added without carry. -/
def mix3 {w : Nat} (x : BitVec w) (d : Nat × Nat × Nat) : BitVec w :=
  x.rotateRight d.1 ^^^ x.rotateRight d.2.1 ^^^ (x >>> d.2.2)

/-- The words of the schedule, newest first, with `n` more. -/
def ShaKind.extend {w : Nat} (k : ShaKind w) : Nat → List (BitVec w) → List (BitVec w)
  | 0, l => l
  | n + 1, l => k.extend n ((mix3 (l.getD 1 0) k.mixNew + l.getD 6 0 + mix3 (l.getD 14 0) k.mixOld + l.getD 15 0) :: l)

/-- One round on the eight words of the state, with a round constant and a word of the schedule. -/
def ShaKind.round {w : Nat} (k : ShaKind w) (s : List (BitVec w)) (c x : BitVec w) : List (BitVec w) :=
  let v (i : Nat) : BitVec w := s.getD i 0
  let choice := (v 4 &&& v 5) ^^^ (~~~v 4 &&& v 6)
  let most := (v 0 &&& v 1) ^^^ (v 0 &&& v 2) ^^^ (v 1 &&& v 2)
  let new := v 7 + turn3 (v 4) k.sumE + choice + c + x
  [new + turn3 (v 0) k.sumA + most] ++ s.take 3 ++ [v 3 + new] ++ (s.drop 4).take 3

/-- A block of 16 words enters the state. -/
def ShaKind.block {w : Nat} (k : ShaKind w) (consts s : List (BitVec w)) (b : List (BitVec w)) : List (BitVec w) :=
  let words := (k.extend (k.rounds - 16) b.reverse).reverse
  ((consts.zip words).foldl (fun s e => k.round s e.1 e.2) s).zipWith (fun x y => x + y) s

/-- The digest of a byte string: all eight words of the final state. The round constants are cube roots of primes. -/
def ShaKind.digest {w : Nat} (k : ShaKind w) (l : List Byte) : List Byte :=
  let size := 2 * w
  let pad := (size - (l.length + 1 + w / 4) % size) % size
  let words := (pieces (w / 8) (l ++ 0x80 :: (List.replicate pad 0 ++ beBytes (w / 4) (8 * l.length)))).map
    (fun p => BitVec.ofNat w (leNat p.reverse))
  let consts := (shaPrimes.take k.rounds).map (rootWord w 3)
  ((pieces 16 words).foldl (k.block consts) k.init).flatMap (fun x => beBytes (w / 8) x.toNat)

/-- SHA-256. -/
def sha256 (l : List Byte) : List Byte := sha256Kind.digest l

/-- SHA-384: the first 48 bytes of the final state. -/
def sha384 (l : List Byte) : List Byte := (sha384Kind.digest l).take 48

/-- HMAC-SHA-256 under a key of at most 64 bytes. -/
def hmac (key msg : List Byte) : List Byte :=
  let k := padTo 64 key
  sha256 (k.map (fun b => b ^^^ 0x5C) ++ sha256 (k.map (fun b => b ^^^ 0x36) ++ msg))

/-! ### ECDSA over P-384 -/

/-- The prime of P-384's field. -/
def p384 : Nat := 2 ^ 384 - 2 ^ 128 - 2 ^ 96 + 2 ^ 32 - 1

/-- The order of the base point. -/
def p384Order : Nat :=
  0xFFFFFFFFFFFFFFFFFFFFFFFFFFFFFFFFFFFFFFFFFFFFFFFFC7634D81F4372DDF581A0DB248B0A77AECEC196ACCC52973

/-- The curve's coefficient b; a is −3. -/
def p384B : Nat :=
  0xB3312FA7E23EE7E4988E056BE3F82D19181D9C6EFE8141120314088F5013875AC656398D8A2ED19D2A85C8EDD3EC2AEF

/-- A point in projective form: x / z², y / z³; z = 0 is the point at infinity. -/
structure CurvePoint where
  x : Nat
  y : Nat
  z : Nat
  deriving DecidableEq, Repr

/-- The base point. -/
def p384Base : CurvePoint :=
  { x := 0xAA87CA22BE8B05378EB1C71EF320AD746E1D3B628BA79B9859F741E082542A385502F25DBF55296C3A545E3872760AB7,
    y := 0x3617DE4A96262C6F5D9E98BF9292DC29F8F41DBD289A147CE9DA3113B5F0B8C00A60B1CE1D7E819D7A431D7C90EA0E5F, z := 1 }

/-- `a` − `b` in the field. -/
def fieldSub (a b : Nat) : Nat := (a + p384 - b % p384) % p384

/-- Twice a point. -/
def CurvePoint.double (q : CurvePoint) : CurvePoint :=
  let zz := q.z * q.z % p384
  let m := 3 * fieldSub q.x zz * (q.x + zz) % p384
  let yy := q.y * q.y % p384
  let s := 4 * q.x * yy % p384
  let x := fieldSub (m * m) (2 * s)
  { x := x, y := fieldSub (m * fieldSub s x) (8 * yy * yy), z := 2 * q.y * q.z % p384 }

/-- The sum of two points. -/
def CurvePoint.add (q r : CurvePoint) : CurvePoint :=
  if q.z == 0 then r
  else if r.z == 0 then q
  else
    let qq := q.z * q.z % p384
    let rr := r.z * r.z % p384
    let u := q.x * rr % p384
    let s := q.y * rr % p384 * r.z % p384
    let h := fieldSub (r.x * qq) u
    let k := fieldSub (r.y * qq % p384 * q.z) s
    if h == 0 then (if k == 0 then q.double else { x := 1, y := 1, z := 0 })
    else
      let hh := h * h % p384
      let x := fieldSub (fieldSub (k * k) (hh * h)) (2 * u * hh)
      { x := x, y := fieldSub (k * fieldSub (u * hh % p384) x) (s * hh % p384 * h), z := q.z * r.z % p384 * h % p384 }

/-- a·G + b·Q, from the top bits down. -/
def CurvePoint.combine (a b : Nat) (g q : CurvePoint) : CurvePoint :=
  let both := g.add q
  (List.range 384).foldr (fun i acc =>
    acc.double.add (match a / 2 ^ i % 2, b / 2 ^ i % 2 with
      | 1, 1 => both
      | 1, _ => g
      | _, 1 => q
      | _, _ => { x := 1, y := 1, z := 0 })) { x := 1, y := 1, z := 0 }

/-- A power modulo `m`, for exponents below 2^384. -/
def powMod (m a e : Nat) : Nat :=
  (List.range 384).foldr (fun i acc => (acc * acc % m) * (if e / 2 ^ i % 2 == 1 then a else 1) % m) 1

/-- A number of big-endian bytes. -/
def beNat (l : List Byte) : Nat := leNat l.reverse

/-- ECDSA over P-384 with SHA-384: the public key (x then y) and the signature (r then s) in 96 bytes each. -/
def ecdsaOk (key sig msg : List Byte) : Bool :=
  let q : CurvePoint := { x := beNat (key.take 48), y := beNat ((key.drop 48).take 48), z := 1 }
  let r := beNat (sig.take 48)
  let s := beNat ((sig.drop 48).take 48)
  let onCurve := decide (q.x < p384) && decide (q.y < p384) &&
    q.y * q.y % p384 == (q.x * q.x * q.x + p384B + 3 * (p384 - q.x)) % p384
  if !onCurve || r == 0 || s == 0 || decide (p384Order ≤ r) || decide (p384Order ≤ s) then false
  else
    let w := powMod p384Order s (p384Order - 2)
    let e := beNat (sha384 msg)
    let v := CurvePoint.combine (e * w % p384Order) (r * w % p384Order) p384Base q
    let zz := v.z * v.z % p384
    v.z != 0 && (r * zz % p384 == v.x || (decide (r + p384Order < p384) && (r + p384Order) * zz % p384 == v.x))

/-! ### AES-256-GCM -/

/-- The product of two polynomials over GF(2) modulo a polynomial of degree `n`, whose lower terms are `low`. -/
def gfMul (n low a b : Nat) : Nat :=
  (List.range n).foldr (fun i acc =>
    let d := 2 * acc
    let d := if d < 2 ^ n then d else (d - 2 ^ n) ^^^ low
    if b / 2 ^ i % 2 == 1 then d ^^^ a else d) 0

/-- The field of AES. -/
def aesMul (a b : Nat) : Nat := gfMul 8 0x1B a b

/-- AES's substitution of a byte: the inverse, a²⁵⁴, then the affine map. -/
def aesSub (a : Nat) : Nat :=
  let inv := (List.range 7).foldl (fun (acc : Nat × Nat) (_ : Nat) =>
    let sq := aesMul acc.1 acc.1
    (sq, aesMul acc.2 sq)) (a, 1)
  let turn (k : Nat) : Nat := (inv.2 * 2 ^ k) % 256 + inv.2 * 2 ^ k / 256
  inv.2 ^^^ turn 1 ^^^ turn 2 ^^^ turn 3 ^^^ turn 4 ^^^ 0x63

/-- Bytes added without carry. -/
def xorBytes (a b : List Nat) : List Nat := a.zipWith (fun x y => x ^^^ y) b

/-- The key schedule: 60 words of 4 bytes, newest first. -/
def aesExpand : Nat → Nat → List (List Nat) → List (List Nat)
  | 0, _, l => l
  | n + 1, rcon, l =>
    let i := l.length
    let last := l.getD 0 []
    let t := if i % 8 == 0 then xorBytes ((last.drop 1 ++ last.take 1).map aesSub) [rcon, 0, 0, 0]
      else if i % 8 == 4 then last.map aesSub else last
    aesExpand n (if i % 8 == 0 then aesMul rcon 2 else rcon) (xorBytes (l.getD 7 []) t :: l)

/-- The round keys of a key of 32 bytes: 15 of 16 bytes each. -/
def aesKeys (key : List Nat) : List (List Nat) :=
  let words := (aesExpand 52 1 ((List.range 8).map (fun i => (key.drop (4 * i)).take 4)).reverse).reverse
  (List.range 15).map (fun i => ((words.drop (4 * i)).take 4).flatten)

/-- A column's mixing. -/
def aesColumn (c : List Nat) : List Nat :=
  (List.range 4).map (fun i =>
    let v (k : Nat) := c.getD ((i + k) % 4) 0
    aesMul (v 0) 2 ^^^ aesMul (v 1) 3 ^^^ v 2 ^^^ v 3)

/-- One round: substitution, the rows turned, the columns mixed where `mix` says so, and the round key. -/
def aesRound (mix : Bool) (b key : List Nat) : List Nat :=
  let s := b.map aesSub
  let rows := (List.range 16).map (fun i => s.getD ((i + 4 * (i % 4)) % 16) 0)
  xorBytes (if mix then (List.range 4).flatMap (fun j => aesColumn ((rows.drop (4 * j)).take 4)) else rows) key

/-- AES-256 on one block, with the round keys. -/
def aesBlock (keys : List (List Nat)) (b : List Nat) : List Nat :=
  let b := xorBytes b (keys.getD 0 [])
  aesRound false (((keys.drop 1).take 13).foldl (aesRound true) b) (keys.getD 14 [])

/-- Numbers as big-endian lists of `n` bytes. -/
def beNums (n v : Nat) : List Nat := (beBytes n v).map (fun b => b.toNat)

/-- The number of a big-endian list of bytes. -/
def numOf (l : List Nat) : Nat := l.foldl (fun a b => a * 256 + b) 0

/-- GHASH's product: polynomials whose first bit is the term of degree 0. -/
def ghashMul (a b : Nat) : Nat := bitRev 128 (gfMul 128 0x87 (bitRev 128 a) (bitRev 128 b))

/-- A list filled up with zeros to a multiple of 16. -/
def fill16 (l : List Nat) : List Nat := l ++ List.replicate ((16 - l.length % 16) % 16) 0

/-- AES-256-GCM with an initialisation vector of 12 bytes: the tag of a ciphertext with its additional data, and the plain text. -/
def aesGcm (key iv aad text : List Byte) : List Byte × List Byte :=
  let nums (l : List Byte) : List Nat := l.map (fun b => b.toNat)
  let keys := aesKeys (nums key)
  let stream (i : Nat) : List Nat := aesBlock keys (nums iv ++ beNums 4 i)
  let h := numOf (aesBlock keys (List.replicate 16 0))
  let hashed := fill16 (nums aad) ++ fill16 (nums text) ++ beNums 8 (8 * aad.length) ++ beNums 8 (8 * text.length)
  let g := (pieces 16 hashed).foldl (fun y b => ghashMul (y ^^^ numOf b) h) 0
  let plain := (List.range ((text.length + 15) / 16)).flatMap (fun i =>
    xorBytes (nums ((text.drop (16 * i)).take 16)) (stream (i + 2)))
  let bytes (l : List Nat) : List Byte := l.map (fun v => BitVec.ofNat 8 v)
  (bytes (xorBytes (beNums 16 g) (stream 1)), bytes plain)

end Sys2Proof.Machine
end

