-- ==== Sys2Proof/Machine/Manage.lean ====
section
/-! DEFINITION. The management port and the SMBus target (R441 to R445), and the watch cores' watchdog and health checks (R452 to
R454). -/

namespace Sys2Proof.Machine

/-! ### Items (R444) -/

/-- The address that a word offset of a management message names. -/
def itemAddr (ofs : Nat) : Nat := 0x40000000 + 4 * ofs

/-- The store or load with which base firmware performs an item. -/
def itemAccess (kind a : Nat) (w : Word) : Access := ⟨0, 0, false, kind, 8, 0, a, 4, if kind == 1 then leBytes 4 w.toNat else [], 0⟩

/-- A register or a table window lies at an item's address. -/
def Chip.itemMapped (c : Chip) (a : Nat) : Bool :=
  match placeOf c.dramCap a with | .register => true | .table => true | _ => false

/-- R444: whether an effect drops a write (1) or refuses it (2), read off the counts of R433 and R434 from 0. -/
def Chip.effectStatus (c : Chip) (a : Nat) (f : Chip → Chip) : Nat :=
  let x := f (((c.setNat R.pitSwrCount 0).setNat (R.pitRefcnt (windowOf a)) 0).setNat R.pegRefuse 0)
  if x.reg R.pitSwrCount != 0 then 1
  else if x.reg (R.pitRefcnt (windowOf a)) != 0 || x.reg R.pegRefuse != 0 then 2 else 0

/-- R444: a WRITE item, with its status. -/
def Chip.itemWrite (c : Chip) (src : Source) (ofs : Nat) (w : Word) : Chip × Nat :=
  let a := itemAddr ofs
  if !c.itemMapped a then (c, 3)
  else
    let x := itemAccess 1 a w
    let (c, ok) := c.check x
    if ok then (c.performAccess src x, c.effectStatus a (fun c => c.performAccess src x)) else (c, 3)

/-- R444: a READ item: status and value. -/
def Chip.itemRead (c : Chip) (ofs : Nat) : Chip × Nat × Nat :=
  let a := itemAddr ofs
  if !c.itemMapped a then (c, 3, 0)
  else
    let (c, ok) := c.check (itemAccess 0 a 0)
    if !ok then (c, 3, 0)
    else
      match placeOf c.dramCap a with
      | .register => (c, 0, (c.readReg a).toNat)
      | _ => (c, 0, leNat (c.tableRead (a - tableBase) 4))

/-! ### Messages (R441 to R444) -/

/-- R442: bytes of the items of an operation with count `n`; none where they do not fit. -/
def mgtBody (op n : Nat) : Option Nat :=
  match op with
  | 1 => if n ≤ 64 then some (4 * n) else none
  | 2 => if n ≤ 32 then some (8 * n) else none
  | 3 => some 12
  | 4 => some 12
  | _ => none

/-- R443: the counter of the first test that a message fails (1 BADLEN to 5 STALE); 0 for none. -/
def Chip.mgtTest (c : Chip) (m : List Byte) : Nat :=
  let k := leAt m 3 1
  let fits := match mgtBody (leAt m 20 1) (leAt m 21 1) with | some n => m.length == 56 + n | none => false
  if !(fits && leAt m 0 2 == 0x4D4E && leAt m 2 1 == 1) then 1
  else match c.mgt.keys.find? (fun e => e.1 == k) with
    | none => 2
    | some (_, key) =>
      if hmac key (m.take (m.length - 32)) != m.drop (m.length - 32) then 3
      else if (match c.mgt.seqs.find? (fun e => e.1 == k) with | some (_, s) => decide (leAt m 4 8 ≤ s) | none => false) then 4
      else if c.tbState != 5 && 2 * nsPerS < (stampGap (leAt m 12 8) c.clk).natAbs then 5
      else 0

/-- R444: the items of an accepted message, in order, as status and value. -/
def Chip.mgtItems (c : Chip) (m : List Byte) : Chip × List (Nat × Nat) :=
  let op := leAt m 20 1
  let n := leAt m 21 1
  match op with
  | 1 => forN n (fun i (x : Chip × List (Nat × Nat)) =>
      let (c, st, v) := x.1.itemRead (leAt m (24 + 4 * i) 4)
      (c, x.2 ++ [(st, v)])) (c, [])
  | 2 => forN n (fun i (x : Chip × List (Nat × Nat)) =>
      let (c, st) := x.1.itemWrite .mgt (leAt m (24 + 8 * i) 4) (BitVec.ofNat 32 (leAt m (28 + 8 * i) 4))
      (c, x.2 ++ [(st, 0)])) (c, [])
  | _ =>
    let f (c : Chip) : Chip := c.pitCommand .mgt (op - 2) (leAt m 24 4) (leAt m 28 8)
    (f c, [(c.effectStatus R.pitCmd f, 0)])

/-- R444: the authenticated response. -/
def Chip.mgtResponse (c : Chip) (m : List Byte) (items : List (Nat × Nat)) : List Byte :=
  let body := m.take 12 ++ leBytes 8 (shortStamp c.clk) ++ leBytes 1 (leAt m 20 1 + 0x80) ++ leBytes 1 items.length ++ [0, 0] ++
    items.flatMap (fun e => leBytes 1 e.1 ++ [0, 0, 0] ++ leBytes 4 e.2)
  match c.mgt.keys.find? (fun e => e.1 == leAt m 3 1) with
  | some (_, key) => body ++ hmac key body
  | none => body

/-- R441 to R444: a message arrives from an address and port. `op` is the operation of the command that names it. -/
def Chip.mgtMessage (c : Chip) (op : Nat) (m : List Byte) (saddr sport : Nat) : Chip :=
  let k := leAt m 3 1
  if !c.bit R.mgtCtl 31 || (1 ≤ leAt m 20 1 && decide (leAt m 20 1 ≤ 4) && leAt m 20 1 != op) then c
  else
    let fail := c.mgtTest m
    if fail != 0 then (c.bump (R.mgtCnt fail)).eventLimited 0 0x0201 .room [.val 4 fail, .val 1 k, .occ]
    else if !c.isSealed && op != 1 then c
    else
      let c := { c with mgt := { c.mgt with seqs := (k, leAt m 4 8) :: c.mgt.seqs.filter (fun e => e.1 != k) } }
      let (c, items) := (c.bump (R.mgtCnt 0)).mgtItems m
      c.send (.mgt (c.bit R.mgtCtl 30) saddr sport (c.mgtResponse m items))

/-- MGT_READ (R444). -/
def execMgtRead (t : Stamp) (msg : List Byte) (saddr sport : Nat) (s : State) : Host.Outcome State Fault Refusal :=
  runIf true (fun c => (c.at t).mgtMessage 1 msg saddr sport) s

/-- MGT_WRITE (R444). -/
def execMgtWrite (t : Stamp) (msg : List Byte) (saddr sport : Nat) (s : State) : Host.Outcome State Fault Refusal :=
  runIf true (fun c => (c.at t).mgtMessage 2 msg saddr sport) s

/-- MGT_RECALL (R444). -/
def execMgtRecall (t : Stamp) (msg : List Byte) (saddr sport : Nat) (s : State) : Host.Outcome State Fault Refusal :=
  runIf true (fun c => (c.at t).mgtMessage 3 msg saddr sport) s

/-- MGT_PRESET (R444). -/
def execMgtPreset (t : Stamp) (msg : List Byte) (saddr sport : Nat) (s : State) : Host.Outcome State Fault Refusal :=
  runIf true (fun c => (c.at t).mgtMessage 4 msg saddr sport) s

/-! ### SMBus (R445) -/

/-- R427, R445: a transfer to the target's own address `MGT_SMB.ADDR`, which stands at 0x5A until APPLY has written it; one whose PEC is
wrong is counted and has no effect. -/
def Chip.smbus (c : Chip) (adr : Nat) (pec : Bool) (f : Chip → Chip) : Chip :=
  if c.fld R.mgtSmb 6 0 != adr then c else if pec then f c else c.bump (R.mgtCnt 6)

/-- SMB_BLOCK_WRITE (R445). -/
def execSmbBlockWrite (t : Stamp) (adr ofs : Nat) (data : Word) (pec : Bool) (s : State) : Host.Outcome State Fault Refusal :=
  runIf (decide (ofs < 2 ^ 32)) (fun c => (c.at t).smbus adr pec (fun c => (c.itemWrite .smbus ofs data).1)) s

/-- SMB_SET_POINTER (R445). -/
def execSmbSetPointer (t : Stamp) (adr ofs : Nat) (pec : Bool) (s : State) : Host.Outcome State Fault Refusal :=
  runIf (decide (ofs < 2 ^ 32)) (fun c => (c.at t).smbus adr pec (fun c => { c with mgt := { c.mgt with pointer := ofs } })) s

/-- SMB_BLOCK_READ (R445). -/
def execSmbBlockRead (t : Stamp) (adr : Nat) (pec : Bool) (s : State) : Host.Outcome State Fault Refusal :=
  runIf true (fun c => (c.at t).smbus adr pec (fun c =>
    let (c, st, v) := c.itemRead c.mgt.pointer
    c.send (.smb (leBytes 4 v ++ leBytes 1 st)))) s

/-! ### The watch cores (R452 to R454) -/

/-- WATCHDOG_SIGNAL (R453). -/
def execWatchdogSignal (t : Stamp) (hart : Nat) (s : State) : Host.Outcome State Fault Refusal :=
  runIf (decide (hart < 8)) (fun c =>
    let c := c.at t
    { c with mgt := { c.mgt with harts := (hart, c.clk, false) :: c.mgt.harts.filter (fun e => e.1 != hart) } }) s

/-- WATCHDOG_EXPIRE (R453): an active hart has been silent for a whole period. -/
def execWatchdogExpire (t : Stamp) (hart : Nat) (s : State) : Host.Outcome State Fault Refusal :=
  runIf (decide (hart < 8)) (fun c =>
    let c := c.at t
    match c.mgt.harts.find? (fun e => e.1 == hart) with
    | some (_, last, false) =>
      if elapsed c.clk last (c.hdr 36 4 * nsPerMs) then
        ({ c with mgt := { c.mgt with harts := (hart, last, true) :: c.mgt.harts.filter (fun e => e.1 != hart) } } : Chip).event
          0x0103 .room [.val 1 hart, .val 8 (shortStamp last)]
      else c
    | _ => c) s

/-- The offsets of a register's elements in its block. -/
def RegDesc.offsets (d : RegDesc) : List Nat :=
  d.dims.foldl (fun l (n : Nat × Nat) => l.flatMap (fun o => (List.range n.1).map (fun i => o + i * n.2))) [d.ofs]

/-- The bits of a register's RW fields. -/
def RegDesc.rwMask (d : RegDesc) : Word :=
  d.fields.foldl (fun m f => if f.ty == .rw then m ||| fieldMask f.hi f.lo else m) 0

/-- The RW registers of a 64 KiB window, with their masks, in the order of the tables of R503. -/
def rwWindow (w : Nat) : List (Nat × Word) :=
  blocks.flatMap (fun b => (b.regs.filter (fun d => d.rwMask != 0)).flatMap (fun d =>
    (d.offsets.map (fun o => (b.base + o, d.rwMask))).filter (fun e => windowOf e.1 == w)))

/-- R454: the CRC-32C over the RW registers of a window. -/
def Chip.windowCrc (c : Chip) (w : Nat) : Nat :=
  crc32c ((rwWindow w).flatMap (fun e => leBytes 4 (c.reg e.1 &&& e.2).toNat))

/-- R454: the windows in which registers lie. -/
def crcWindows : List Nat :=
  (List.range 1024).filter (fun w => blocks.any (fun b => decide (windowOf b.base ≤ w) && decide (w ≤ windowOf (b.base + b.extent - 1))))

/-- R454: the first window whose RW registers differ from what they were at seal, where that difference is not reported. -/
def Chip.crcCheck (c : Chip) : Chip :=
  match (c.mgt.sealCrc.map (fun e => (e.1, e.2, c.windowCrc e.1))).find? (fun e =>
      e.2.1 != e.2.2 && !c.mgt.crcTold.contains (e.1, e.2.2)) with
  | some (w, want, got) =>
    ({ c with mgt := { c.mgt with crcTold := (w, got) :: c.mgt.crcTold } } : Chip).event 0x0105 .room
      [.val 2 w, .val 4 want, .val 4 got]
  | none => c

/-- R454: a monitor against its limits: the reading that is beyond one, with that limit. -/
def Chip.overLimit (c : Chip) (m : Nat) (lo hi : Int) : Option (Int × Int) :=
  let low : Int := if m < 84 then c.sfld (R.ageMon m) 31 0 else c.fld (R.ageMon m) 31 16
  let now : Int := if m < 84 then low else c.fld (R.ageMon m) 15 0
  if low < lo then some (low, lo) else if hi < now then some (now, hi) else none

/-- R454: event 0x0106 on each crossing of a limit. -/
def Chip.limitCheck (l : Nat × Int × Int) (c : Chip) : Chip :=
  let (m, lo, hi) := l
  let was := c.mgt.beyond.contains m
  let say (v lim : Int) (c : Chip) : Chip :=
    c.event 0x0106 .room [.val 1 m, .val 4 (twosOf 32 v), .val 4 (twosOf 32 lim)]
  match c.overLimit m lo hi, was with
  | some (v, lim), false => say v lim { c with mgt := { c.mgt with beyond := m :: c.mgt.beyond } }
  | none, true =>
    let v : Int := if m < 84 then c.sfld (R.ageMon m) 31 0 else c.fld (R.ageMon m) 15 0
    say v (if v - lo < hi - v then lo else hi) { c with mgt := { c.mgt with beyond := c.mgt.beyond.filter (fun k => k != m) } }
  | _, _ => c

/-- HEALTH_CHECK (R454): `limits` are the image's limits of monitors 60 to 95. -/
def execHealthCheck (t : Stamp) (limits : List (Nat × Int × Int)) (s : State) : Host.Outcome State Fault Refusal :=
  runIf (limits.all (fun l => decide (60 ≤ l.1) && decide (l.1 < 96))) (fun c =>
    let c := c.at t
    if c.isSealed then forL limits Chip.limitCheck c.crcCheck else c) s

end Sys2Proof.Machine
end

