-- ==== Sys2Proof/Machine/Ageing.lean ====
section
/-! DEFINITION. Ageing measurement and margin planning (R459 to R478): monitors, the adaptive core voltage, margin sweeps, eye
monitors, the daily plan, and the changes it makes. -/

namespace Sys2Proof.Machine

/-! ### binary64 (R471) -/

/-- A finite binary64 number m × 2^e (no magnitude of R471 comes near its exponent's bounds). -/
structure F64 where
  m : Int
  e : Int
  deriving DecidableEq, Repr

/-- m × 2^e rounded to 53 significant bits, to the nearest, ties to even; `more` tells that the exact value lies a little
further from 0 than m × 2^e. -/
def f64Round (m : Int) (e : Int) (more : Bool) : F64 :=
  let a := m.natAbs
  let bits := if a == 0 then 0 else Nat.log2 a + 1
  if bits ≤ 53 then ⟨m, e⟩
  else
    let s := bits - 53
    let q := a / 2 ^ s
    let r := a % 2 ^ s
    let half := 2 ^ (s - 1)
    let q := if half < r || (r == half && (more || q % 2 == 1)) then q + 1 else q
    ⟨if m < 0 then -(q : Int) else q, e + s⟩

/-- An integer as binary64. -/
def f64Int (i : Int) : F64 := f64Round i 0 false

/-- Sum. -/
def F64.add (a b : F64) : F64 :=
  let e := min a.e b.e
  f64Round (a.m * 2 ^ (a.e - e).toNat + b.m * 2 ^ (b.e - e).toNat) e false

/-- Difference. -/
def F64.sub (a b : F64) : F64 := a.add ⟨-b.m, b.e⟩

/-- Product. -/
def F64.mul (a b : F64) : F64 := f64Round (a.m * b.m) (a.e + b.e) false

/-- Quotient; 0 for a divisor of 0, which R471 does not meet. -/
def F64.div (a b : F64) : F64 :=
  if b.m == 0 then ⟨0, 0⟩
  else
    let n := a.m.natAbs * 2 ^ 120
    let q := n / b.m.natAbs
    let neg := (a.m < 0) != (b.m < 0)
    f64Round (if neg then -(q : Int) else q) (a.e - b.e - 120) (n % b.m.natAbs != 0)

/-- The largest integer not above. -/
def F64.floor (a : F64) : Int := if 0 ≤ a.e then a.m * 2 ^ a.e.toNat else Int.fdiv a.m (2 ^ (-a.e).toNat)

/-- R471: the forecast in days from (x, y) pairs, oldest first; none for no forecast. -/
def forecast (reserve : Int) (l : List (F64 × F64)) : Option Nat :=
  if l.length < 14 then none
  else
    let n := f64Int l.length
    let sum (f : F64 × F64 → F64) : F64 := l.foldl (fun s p => s.add (f p)) ⟨0, 0⟩
    let sx := sum (fun p => p.1)
    let sy := sum (fun p => p.2)
    let sxx := sum (fun p => p.1.mul p.1)
    let sxy := sum (fun p => p.1.mul p.2)
    let b := ((n.mul sxy).sub (sx.mul sy)).div ((n.mul sxx).sub (sx.mul sx))
    let a := (sy.sub (b.mul sx)).div n
    let last := match l.getLast? with | some p => p.1 | none => ⟨0, 0⟩
    if 0 ≤ b.m then none else some ((((f64Int reserve).sub a).div b).sub last).floor.toNat

/-! ### Monitors (R459, R460) -/

/-- The ageing unit changes. -/
def Chip.modAge (c : Chip) (f : Ageing → Ageing) : Chip := { c with age := f c.age }

/-- MONITOR_REFRESH (R23, R459, R477): every 100 ms, the readings of the analogue die over the die-to-die link: the lowest slack of each replica, the highest reading of each temperature sensor
in 0.125 °C, and the lowest and the present reading of each rail in mV. -/
def execMonitorRefresh (t : Stamp) (slacks : List Nat) (temps : List Int) (rails : List (Nat × Nat)) (s : State) :
    Host.Outcome State Fault Refusal :=
  runIf (decide (slacks.length = 16) && decide (temps.length = 24) && decide (rails.length = 12)) (fun c =>
    let c := c.at t
    let c := forN 16 (fun i c => c.setNat (R.ageMon (44 + i)) (min 255 (slacks.getD i 0))) c
    let c := forN 20 (fun i c => c.setNat (R.ageMon (60 + i)) (twosOf 32 (temps.getD i 0))) c
    let far := (List.range 4).map (fun i => (R.ageMon (80 + i), BitVec.ofNat 32 (twosOf 32 (temps.getD (20 + i) 0)))) ++
      (List.range 12).map (fun i =>
        let r := rails.getD i (0, 0)
        (R.ageMon (84 + i), BitVec.ofNat 32 (r.1 % 65536 * 65536 + r.2 % 65536)))
    let c := if c.d2dUp then c.d2dDeliver (.sensors far) else c.queueUp (.sensors far)
    let c := (c.setFld R.ageAvsStat 15 8 (min 255 c.age.droop)).setFld R.ageAvsStat 7 0 c.age.lowSlack
    c.modAge (fun a => { a with lowSlack := 255, droop := 0 })) s

/-- R460: the degradation of pair `i` in ppm. -/
def Chip.degradation (c : Chip) (i ns nu : Nat) : Int :=
  let ref := (c.reg (R.ageRoref i)).toNat
  if nu == 0 || ref == 0 then Config.deadRing i ns
  else Int.fdiv (((ref : Int) - (ns * 2 ^ 24 / nu : Nat)) * 1000000) ref

/-- RO_MEASURE (R460): every second: the counts N_s and N_u of each pair. -/
def execRoMeasure (t : Stamp) (counts : List (Nat × Nat)) (s : State) : Host.Outcome State Fault Refusal :=
  runIf (decide (counts.length = 44)) (fun c =>
    let c := c.at t
    forN 44 (fun i c =>
      let n := counts.getD i (0, 0)
      let d := c.degradation i n.1 n.2
      let c := c.setNat (R.ageMon i) (twosOf 32 d)
      if decide ((c.fld R.ageRolim 19 0 : Int) < d) && !c.age.dlimTold.contains i then
        (c.modAge (fun a => { a with dlimTold := i :: a.dlimTold })).event 0x0407 .room [.val 1 i, .val 4 (twosOf 32 d)]
      else c) c) s

/-! ### Adaptive core voltage (R461, R462) -/

/-- R469: the highest core-die temperature in whole °C. -/
def Chip.coreTemp (c : Chip) : Int :=
  let l := (List.range 20).map (fun i => Int.fdiv (c.sfld (R.ageMon (60 + i)) 31 0) 8)
  l.foldl max (l.headD 0)

/-- R469: VSET + floor(KT × (105 − T) / 100) now. -/
def Chip.voltTerm (c : Chip) : Int :=
  c.fld R.ageAvsStat 31 16 + Int.fdiv (c.sfld R.ageFcst 31 16 * (105 - c.coreTemp)) 100

/-- The present second's highest voltage term and largest droop. -/
def Chip.noteSecond (c : Chip) (droop : Nat) : Chip :=
  let sec := c.clk / nsPerS
  let v := c.voltTerm
  c.modAge (fun a => { a with seconds := match a.seconds with
    | (s, w, d) :: rest => if s == sec then (s, max w v, max d droop) :: rest else (sec, v, droop) :: a.seconds
    | [] => [(sec, v, droop)] })

/-- AVS_STEP (R461, R462): every 10 µs the loop reads S, the lowest slack of the replicas. -/
def execAvsStep (t : Stamp) (slack : Nat) (s : State) : Host.Outcome State Fault Refusal :=
  runIf (decide (slack < 256)) (fun c =>
    let c := c.at t
    let v := c.fld R.ageAvsStat 31 16
    let tgt := c.fld R.ageAvsTgt 7 0
    let low := c.fld R.ageAvs 25 16 * 10
    let new := if slack < tgt && decide (v < 8500) then min 8500 (v + 25)
      else if tgt + 2 < slack && decide (low < v) then max low (v - 25) else v
    let c := if new == v then c else (c.setFld R.ageAvsStat 31 16 new).send (.avs new)
    let droop := (c.age.prev.getD slack) - slack
    let below := new == 8500 && decide (slack < c.fld R.ageAvs 7 0)
    let back := decide (c.fld R.ageAvs 7 0 ≤ slack)
    let now := c.clk
    let c := c.modAge (fun a =>
      let above := if back then some (a.aboveSince.getD now) else none
      { a with
        prev := some slack, lowSlack := min a.lowSlack slack, droop := max a.droop droop,
        belowSince := if below then some (a.belowSince.getD now) else none, aboveSince := above,
        floorTold := a.floorTold && !(match above with | some x => elapsed now x (60 * nsPerS) | none => false) })
    c.noteSecond droop) s

/-- Event 0x0406: domain, channel or lane, bit, value (R462, R469). -/
def Chip.belowFloor (c : Chip) (dom unit bit : Nat) (v : Int) : Chip :=
  c.event 0x0406 .room [.val 1 dom, .val 1 unit, .val 1 bit, .val 4 (twosOf 32 v)]

/-- AVS_FLOOR_TIMEOUT (R462): at VSET 8,500 the slack has stayed below FLOOR for 1 s. -/
def execAvsFloorTimeout (t : Stamp) (s : State) : Host.Outcome State Fault Refusal :=
  runIf true (fun c =>
    let c := c.at t
    match c.age.belowSince with
    | some b =>
      if !c.age.floorTold && elapsed c.clk b nsPerS then
        (c.modAge (fun a => { a with floorTold := true })).belowFloor 0 0 0 (c.age.prev.getD 0)
      else c
    | none => c) s

/-! ### Margin sweeps and eyes (R463, R465) -/

/-- R463, R464: the helper settings and the memory that a sweep of channel `n` leaves, with the result of its last run, that of write
Vref offset 15. -/
def Chip.sweepRuns (c : Chip) (n : Nat) (errors : List Nat) : Chip :=
  let c := (c.setFld (R.dmcTrnCtl n) 25 24 0).setFld (R.dmcTrnCtl n) 18 16 2
  let c := ((c.setFld (R.dmcTrnCtl n) 3 0 0).setFld (R.dmcTrnRow n) 16 0 (c.fld R.dmcSweep 16 0)).setNat (R.dmcTrnCnt n) 32
  let c := (c.setNat (R.dmcTrnOfs n) (15 * 2 ^ 25)).helperWrites n
  let c := c.setFld (R.dmcTrnRes n) 15 0 (c.fld (R.dmcTrnRes n) 15 0 + 319)
  c.helperResult n errors

/-- How many counts from the front of a list are 0. -/
def leadingZeros (l : List Nat) : Int := (l.takeWhile (fun e => e == 0)).length

/-- R463: the eye of a bit: the run of offsets around 0, which stands at place `half` of its error counts, without errors; none where
offset 0 shows errors. -/
def eyeOf (half : Nat) (errors : List Nat) : Option (Int × Int) :=
  if errors.getD half 0 == 0 then
    some (-leadingZeros (errors.take half).reverse, leadingZeros (errors.drop (half + 1)))
  else none

/-- DRAM_MARGIN_SWEEP (R463): the sweep of channel `n` ends: for each bit its error counts at the delay offsets −64 to 63 of the read and
the write eye, and at the offsets −16 to 15 of the read and the write Vref window. -/
def execDramMarginSweep (t : Stamp) (n : Nat) (rd wr rv wv : List (List Nat)) (s : State) :
    Host.Outcome State Fault Refusal :=
  runIf (decide (n < 16) && [rd, wr].all (fun l => decide (l.length = 18) && l.all (fun e => decide (e.length = 128))) &&
      [rv, wv].all (fun l => decide (l.length = 18) && l.all (fun e => decide (e.length = 32)))) (fun c =>
    let c := (c.at t).sweepRuns n (wv.map (fun e => e.getD 31 0))
    let m : MarginSweep := {
      done := c.clk, rd := rd.map (eyeOf 64), wr := wr.map (eyeOf 64), rv := rv.map (eyeOf 16), wv := wv.map (eyeOf 16),
      track := c.fld (R.dmcOsc n) 8 0 }
    c.modAge (fun a => { a with sweeps := (n, m) :: a.sweeps.filter (fun e => e.1 != n) })) s

/-- R465: `t` lies in the hour before plan time. -/
def Chip.beforePlan (c : Chip) : Bool :=
  let left := (c.fld R.ageCtl 16 0 + 86400 - c.clk / nsPerS % 86400) % 86400
  decide (1 ≤ left) && decide (left ≤ 3600)

/-- EYE_MEASURE (R465): every minute: the eye of lane `l`; in the hour before plan time also the heights at C − 1 and C + 1. -/
def execEyeMeasure (t : Stamp) (l height width : Nat) (near : Option (Nat × Nat)) (s : State) :
    Host.Outcome State Fault Refusal :=
  runIf (decide (l < 12) && decide (height < 1024) && decide (width < 128)) (fun c =>
    let c := c.at t
    let first := !c.age.eyes.contains l
    let h := if first then height else min height (c.fld (R.ageEye l) 9 0)
    let w := if first then width else min width (c.fld (R.ageEye l) 22 16)
    let c := (c.setFld (R.ageEye l) 9 0 h).setFld (R.ageEye l) 22 16 w
    let near := if c.beforePlan then near else none
    c.modAge (fun a => { a with
      eyes := if first then l :: a.eyes else a.eyes,
      near := match near with
        | some (p, q) =>
          let (p, q) := match a.near.find? (fun e => e.1 == l) with | some (_, x, y) => (min p x, min q y) | none => (p, q)
          (l, p, q) :: a.near.filter (fun e => e.1 != l)
        | none => a.near })) s

/-! ### Ballast (R469) -/

/-- A ballast and what sets it: the value, channel or lane, bit. -/
structure Ballast where
  value : Int
  unit : Nat
  bit : Nat
  deriving DecidableEq, Repr

/-- The lowest of a list of ballasts, the first of equals. -/
def lowest (l : List Ballast) : Option Ballast :=
  l.foldl (fun m b => match m with | none => some b | some a => if b.value < a.value then some b else some a) none

/-- The width of an eye. -/
def eyeWidth (e : Option (Int × Int)) : Int := match e with | some (lo, hi) => hi - lo + 1 | none => 0

/-- The entries of the last 24 h. -/
def Chip.lastDay (c : Chip) : List (Nat × Int × Nat) :=
  c.age.seconds.filter (fun e => decide (c.clk / nsPerS ≤ e.1 + 86400))

/-- R463: the sweeps of the 6 hours before plan time. -/
def Chip.freshSweeps (c : Chip) : List (Nat × MarginSweep) :=
  (List.range 16).filterMap (fun n => (c.age.sweeps.find? (fun e => e.1 == n && decide (stampGap c.clk e.2.done ≤ (21600 * nsPerS : Nat)))))

/-- R469: the core ballast. -/
def Chip.coreBallast (c : Chip) : Ballast :=
  ⟨8500 - (c.lastDay.foldl (fun m e => max m e.2.1) c.voltTerm), 0, 0⟩

/-- R469: the DRAM ballast of the channels swept. -/
def Chip.dramBallast (c : Chip) : Option Ballast :=
  let min_ : Int := c.fld R.ageFloor 15 8
  lowest (c.freshSweeps.flatMap (fun e => (List.range 18).flatMap (fun b =>
    [⟨eyeWidth (e.2.rd.getD b none) - min_, e.1, b⟩, ⟨eyeWidth (e.2.wr.getD b none) - min_, e.1, b⟩])))

/-- R469: the SerDes ballast of the lanes measured. -/
def Chip.serBallast (c : Chip) : Option Ballast :=
  lowest (((List.range 12).filter (fun l => c.age.eyes.contains l)).map (fun l =>
    ⟨(c.fld (R.ageEye l) 9 0 : Int) - c.fld R.ageFloor 7 0, l, 0⟩))

/-! ### Launch times (R472, R473) -/

/-- R472, R473: the earliest instant from `t` on inside an enabled window that permits a domain and begins no later than `lim`;
none where there is no such window. -/
def Chip.windowFrom (c : Chip) (dom : Nat) (t lim : Stamp) : Option Stamp :=
  let s := t / nsPerS
  let one (i : Nat) : Option Stamp :=
    if c.bit (R.ageWin i) 31 && c.bit (R.ageWin i) (16 + dom) then
      let off := (s % 86400 + 86400 - c.fld (R.ageWinStart i) 16 0 % 86400) % 86400
      if off < c.fld (R.ageWin i) 15 0 * 60 then (if decide ((s - off) * nsPerS ≤ lim) then some t else none)
      else
        let next := (s + 86400 - off) * nsPerS
        if decide (next ≤ lim) then some next else none
    else none
  ((List.range 4).filterMap one).foldl (fun m x => match m with | none => some x | some y => some (min x y)) none

/-- R473: the launch time of a change that is planned now. -/
def Chip.changeTime (c : Chip) (dom : Nat) : Option Stamp :=
  let lead := c.clk + c.fld R.ageAnn 15 0 * nsPerS
  c.windowFrom dom (match c.age.lastLaunch with | some l => max lead (l + nsPerS) | none => lead) (c.clk + 604800 * nsPerS)

/-- R473: a change is scheduled and submitted, or dropped with cause WINDOW. -/
def Chip.schedule (c : Chip) (x : Change) : Chip :=
  match c.changeTime x.domain with
  | none => c.changeLost x 3
  | some t =>
    let id := c.age.nextId
    let group := 0xE000 + id % 0x1000
    let x := { x with id := id, group := group, launch := t }
    let c := c.modAge (fun a => { a with changes := a.changes ++ [x], nextId := id + 1, lastLaunch := some t })
    let q := if x.domain == 1 then 95 else 86
    let peg (w : Nat × Word) : PegSpec := ⟨q, queueKind q, 0, false, t, 500, [w]⟩
    c.fwSubmit ⟨group, .change id, (if x.domain == 1 then [peg (R.dmcChSnap x.unit, 1)] else []) ++ [peg (x.reg, x.new)]⟩

/-! ### Proposals (R468, R470) -/

/-- A change that is proposed. -/
def proposal (dom unit reg : Nat) (old new : Word) (margin : Int) : Change :=
  ⟨0, dom, unit, reg, old, new, 0, 0, margin, false, false⟩

/-- R468, R470: the core's change. -/
def Chip.coreProposals (c : Chip) (b : Int) : List Change :=
  let w := c.reg R.ageAvsTgt
  let tgt := bitsOf w 7 0
  let droop := c.lastDay.foldl (fun m e => max m e.2.2) 0
  let g := min 128 (c.fld R.ageAvs 7 0 + max 2 (droop + 1))
  let room := (Int.fdiv (b - c.fld R.ageResv 31 16) 50).toNat
  let new := if tgt < g then tgt + min (min 2 (g - tgt)) room else tgt - min 2 (tgt - g)
  if new == tgt then [] else [proposal 0 0 R.ageAvsTgt w (putBits w 7 0 new) (c.fld R.ageAvsStat 7 0)]

/-- R468: how far an eye's or window's centre moves a setting: by at most `lim` when it is off by 2 or more. -/
def moveBy (lim : Int) (e : Option (Int × Int)) : Int :=
  match e with
  | some (lo, hi) => let k := Int.fdiv (lo + hi) 2; if 2 ≤ k.natAbs then clampInt (-lim) lim k else 0
  | none => 0

/-- A field of a trim word moved, within its width. -/
def moveField (w : Word) (hi lo : Nat) (d : Int) : Word :=
  putBits w hi lo (clampInt 0 (2 ^ (hi + 1 - lo) - 1 : Nat) ((bitsOf w hi lo : Int) + d)).toNat

/-- One setting of a trim word: no change, or one, with the word as it then stands. -/
def trimStep (n reg hi lo : Nat) (d margin : Int) (x : Word × List Change) : Word × List Change :=
  let (w, l) := x
  let w' := moveField w hi lo d
  if w' == w then (w, l) else (w', l ++ [proposal 1 n reg w w' margin])

/-- The bit with the lowest width of a list of eyes, the first of equals. -/
def lowBit (l : List (Option (Int × Int))) : Nat :=
  match lowest ((l.zip (List.range l.length)).map (fun e => ⟨eyeWidth e.1, 0, e.2⟩)) with | some b => b.bit | none => 0

/-- R468: the changes of channel `n`: each bit's delays, then the Vref codes. -/
def Chip.dramProposals (c : Chip) (n : Nat) (m : MarginSweep) : List Change :=
  let bits := (List.range 18).flatMap (fun b =>
    let r := m.rd.getD b none
    let w := m.wr.getD b none
    let a := R.dmcTrim n b
    (trimStep n a 24 16 (moveBy 4 w) (eyeWidth w) (trimStep n a 8 0 (moveBy 4 r) (eyeWidth r) (c.reg a, []))).2)
  let rv := m.rv.getD (lowBit m.rd) none
  let wv := m.wv.getD (lowBit m.wr) none
  let a := R.dmcTrimVref n
  bits ++ (trimStep n a 14 8 (moveBy 2 wv) (eyeWidth wv) (trimStep n a 6 0 (moveBy 2 rv) (eyeWidth rv) (c.reg a, []))).2

/-- R468: the change of lane `l`: the neighbour setting whose eye is higher by 5 mV or more. -/
def Chip.serProposals (c : Chip) (l : Nat) : List Change :=
  let w := c.reg (R.ageEq l)
  let k := bitsOf w 3 0
  let h := c.fld (R.ageEye l) 9 0
  match c.age.near.find? (fun e => e.1 == l) with
  | none => []
  | some (_, p, q) =>
    let down := 0 < k && h + 5 ≤ p
    let up := k < 15 && h + 5 ≤ q
    if down && (!up || decide (q ≤ p)) then [proposal 2 l (R.ageEq l) w (putBits w 3 0 (k - 1)) h]
    else if up then [proposal 2 l (R.ageEq l) w (putBits w 3 0 (k + 1)) h]
    else []

/-! ### The plan (R467 to R471) -/

/-- R467: adjustments of the domain from an earlier plan wait still. -/
def Chip.domainBusy (c : Chip) (dom : Nat) : Bool := c.age.changes.any (fun x => x.domain == dom && !x.done)

/-- A lane carries traffic: its port is enabled (R465). -/
def Chip.laneUsed (c : Chip) (l : Nat) : Bool :=
  if l < 8 then c.bit (R.netPort (l / 4)) 31 else c.bit R.bolCtl 31

/-- Event 0x0408: a sweep or measurement is not complete at plan time. -/
def Chip.incomplete (c : Chip) (dom unit : Nat) : Chip := (c.bump (R.ageCnt 4)).event 0x0408 .room [.val 1 dom, .val 1 unit]

/-- R471: the plans with a ballast of a domain, oldest first, as (x, y). -/
def fitPoints (dom : Nat) (plans : List (Stamp × List (Option Int))) : List (F64 × F64) :=
  let first := match plans with | p :: _ => p.1 | [] => 0
  plans.filterMap (fun p => match p.2.getD dom none with
    | some y => some ((f64Int ((p.1 : Int) - first)).div (f64Int (86400 * nsPerS : Nat)), f64Int y)
    | none => none)

/-- R469, R471: domain `dom` of a plan: its ballast and forecast are reported. -/
def Chip.reportDomain (c : Chip) (dom reserve : Nat) (b : Option Ballast) : Chip :=
  let c : Chip := match b with
    | some x => if x.value < 0 then c.belowFloor dom x.unit x.bit x.value else c
    | none => c
  let days : Nat := match forecast reserve (fitPoints dom c.age.plans) with | some d => min d 65534 | none => 0xFFFF
  let c : Chip := match b with | some x => c.setFld (R.ageResDom dom) 15 0 (twosOf 16 x.value) | none => c
  let c := c.setFld (R.ageResDom dom) 31 16 days
  if decide (days ≤ 65534) && decide (days ≤ c.fld R.ageFcst 15 0) then
    c.event 0x0405 .room [.val 1 dom, .val 2 days, .val 8 (shortStamp (c.clk + days * (86400 * nsPerS)))]
  else c

/-- R467: the plan's event 0x0404. -/
def Chip.planEvent (c : Chip) (scheduled : Nat) : Chip :=
  let dom (i : Nat) : List CField := [.val 2 (c.fld (R.ageResDom i) 15 0), .val 2 (c.fld (R.ageResDom i) 31 16)]
  let fitted := c.age.plans.flatMap (fun p => CField.val 8 (shortStamp p.1) ::
    (List.range 3).map (fun d => CField.val 2 (twosOf 16 ((p.2.getD d none).getD 0))))
  c.event 0x0404 .room (dom 0 ++ dom 1 ++ dom 2 ++ fitted ++ [.val 4 scheduled])

/-- R467: the highest d of any pair. -/
def Chip.highestD (c : Chip) : Nat :=
  ((List.range 44).map (fun i => (c.sfld (R.ageMon i) 31 0).toNat)).foldl max 0

/-- R467 to R473: the plan of the 24 h that end now. -/
def Chip.planNow (c : Chip) : Chip :=
  let core := c.coreBallast
  let dram := c.dramBallast
  let ser := c.serBallast
  let swept := c.freshSweeps.map (fun e => e.1)
  let unswept := (List.range 16).filter (fun n => !swept.contains n)
  let unseen := (List.range 12).filter (fun l => c.laneUsed l && !c.age.eyes.contains l)
  let c := forL unswept (fun n c => c.incomplete 1 n) c
  let c := forL unseen (fun l c => c.incomplete 2 l) c
  let l := (if c.domainBusy 0 then [] else c.coreProposals core.value) ++
    (if c.domainBusy 1 || !unswept.isEmpty then [] else c.freshSweeps.flatMap (fun e => c.dramProposals e.1 e.2)) ++
    (if c.domainBusy 2 then [] else ((List.range 12).filter (fun l => c.age.eyes.contains l)).flatMap (fun l => c.serProposals l))
  let now := c.clk
  let c := c.modAge (fun a => { a with
    plans := (a.plans ++ [(now, [some core.value, dram.map (fun b => b.value), ser.map (fun b => b.value)])]).drop (a.plans.length - 89),
    eyes := [], near := [], seconds := a.seconds.filter (fun e => decide (now / nsPerS ≤ e.1 + 86400)) })
  let c := c.reportDomain 0 (c.fld R.ageResv 31 16) (some core)
  let c := c.reportDomain 1 (c.fld R.ageResv 15 8) dram
  let c := c.reportDomain 2 (c.fld R.ageResv 7 0) ser
  let c := (c.setWide R.ageResPlanLo R.ageResPlanHi (shortStamp now)).setFld R.ageResDmax 19 0 (min c.highestD (2 ^ 20 - 1))
  let c := (c.publish R.ageRes).bump (R.ageCnt 0)
  let before := c.age.nextId
  let c := forL l (fun x c => c.schedule x) c
  c.planEvent (c.age.nextId - before)

/-- PLAN (R467): the second of the day is PLAN_SEC, at least 24 h after seal. -/
def execPlan (t : Stamp) (s : State) : Host.Outcome State Fault Refusal :=
  runIf true (fun c =>
    let c := c.at t
    let sec := c.clk / nsPerS
    let due := c.bit R.ageCtl 31 && sec % 86400 == c.fld R.ageCtl 16 0 &&
      (match c.pitch.sealAt with | some x => elapsed c.clk x (86400 * nsPerS) | none => false) &&
      !c.age.plans.any (fun p => p.1 / nsPerS == sec)
    if due then c.planNow else c) s

/-- REMEASURE_DONE (R474): the unit of an executed change has been measured again; a change that lost more than one step of
margin is reversed. -/
def execRemeasureDone (t : Stamp) (id : Nat) (margin : Int) (s : State) : Host.Outcome State Fault Refusal :=
  runIf true (fun c =>
    let c := c.at t
    match c.age.changes.find? (fun x => x.id == id && x.done) with
    | none => c
    | some x =>
      if x.domain != 1 && !elapsed c.clk x.launch (60 * nsPerS) then c
      else
        let c := c.modAge (fun a => { a with changes := a.changes.filter (fun y => y.id != id) })
        let c := (c.bump (R.ageCnt 1)).event 0x0402 .room
          [.val 1 x.domain, .val 4 (wordOfs x.reg), .val 4 (twosOf 32 x.margin), .val 4 (twosOf 32 margin)]
        if margin + 1 < x.margin && !x.reversal then
          let now := c.reg x.reg
          let moved := x.old ^^^ x.new
          let back := { x with old := now, new := (now &&& ~~~moved) ||| (x.old &&& moved), margin := margin, reversal := true, done := false }
          (c.bump (R.ageCnt 2)).schedule back
        else c) s

end Sys2Proof.Machine
end

