-- ==== Sys2Proof/Machine/Image.lean ====
section
/-! DEFINITION. The checks of an image at pitch (R417 to R426): those of the boot ROM, and every image check that the manual assigns
to pitch. A check answers the places at fault, as section and byte offset in it (R427). -/

namespace Sys2Proof.Machine

/-! ### The boot ROM's checks (R425) -/

/-- R417: the magic. -/
def hasMagic (i : FlashImage) : Bool := leAt i.header 0 4 == 0x4E55454E

/-- R425: the public key of the header has the hash that the fuses hold for its slot, and is not revoked. -/
def keyAccepted (f : Fuses) (i : FlashImage) : Bool :=
  let slot := leAt i.header 14 1 % 4
  f.revoke / 2 ^ slot % 2 == 0 && f.keyHash.getD slot [] == sha384 ((i.header.drop 64).take 96)

/-- R417: the signature over the header and the section table holds. -/
def imageSigned (i : FlashImage) : Bool :=
  ecdsaOk ((i.header.drop 64).take 96) i.sig (i.header.take 256 ++ i.sections.flatMap (fun s => s.entry.take 128))

/-- R418: the digest of a section as stored. -/
def digestHolds (s : FlashSection) : Bool := (s.entry.drop 64).take 48 == sha384 s.data

/-- R418: the tag and the plain text of an encrypted section. -/
def decryptSection (k : List Byte) (s : FlashSection) : List Byte × List Byte :=
  aesGcm k ((s.entry.drop 24).take 12) (s.entry.take 24) s.data

/-- R418: an encrypted section's tag holds; a section without ENC has none. -/
def tagHolds (k : List Byte) (s : FlashSection) : Bool :=
  secFlags s % 2 == 0 || (decryptSection k s).1 == (s.entry.drop 48).take 16

/-- R418: the image with its encrypted sections in plain. -/
def plainImage (k : List Byte) (i : FlashImage) : FlashImage :=
  { i with sections := i.sections.map (fun s => if secFlags s % 2 == 1 then { s with data := (decryptSection k s).2 } else s) }

/-- R425: what a slot's checks find: the number of the check that fails, 1 to 5, with its cause of R427; none when all pass. -/
def bootFail (f : Fuses) (i : FlashImage) : Option (Nat × Nat) :=
  let n := leAt i.header 6 2
  let fw := i.sections.find? (fun s => secKind s == 1)
  if !i.readOk then some (1, 10)
  else if !hasMagic i then some (1, 1)
  else if leAt i.header 4 2 != 1 || n == 0 || 1024 < n || n != i.sections.length || 2 ^ 26 < leAt i.header 8 4 then some (1, 8)
  else if leAt i.header 32 4 != 0x09602000 then some (1, 7)
  else if !keyAccepted f i then some (2, 2)
  else if !imageSigned i then some (3, 3)
  else if leAt i.header 13 1 < f.svn then some (4, 4)
  else match fw with
    | none => some (5, 5)
    | some s => if !digestHolds s then some (5, 6) else if !i.fwOk then some (5, 5) else none

/-! ### What the image sets (R419) -/

/-- A place in the image: section and byte offset in it. -/
abbrev ImgPlace := Nat × Nat

/-- The place at fault, where a condition holds. -/
def badAt (cond : Bool) (p : ImgPlace) : List ImgPlace := if cond then [p] else []

/-- The sections of a type that apply on this side, with their places in the section table. -/
def Chip.placedSections (c : Chip) (kind : Nat) : List (Nat × FlashSection) :=
  match c.pitch.image with
  | some i => ((List.range i.sections.length).zip i.sections).filter (fun s =>
      secKind s.2 == kind && onSide s.2 (c.fld R.twnCfg 16 16))
  | none => []

/-- The register writes of the REGS sections, in order: address, value and place. -/
def Chip.imageWrites (c : Chip) : List (Nat × Word × ImgPlace) :=
  (c.placedSections 2).flatMap (fun s => (List.range (s.2.data.length / 8)).map (fun i =>
    (0x40000000 + leAt s.2.data (8 * i) 4 * 4, BitVec.ofNat 32 (leAt s.2.data (8 * i + 4) 4), s.1, 8 * i)))

/-- The place of the last write of the register at `a`. -/
def Chip.regPlace (c : Chip) (a : Nat) : ImgPlace :=
  match c.imageWrites.reverse.find? (fun w => w.1 == a) with | some w => w.2.2 | none => (0, 0)

/-- The registers and tables that the image sets, every enable included. -/
def Chip.planned (c : Chip) : Chip :=
  let c := forL c.imageWrites (fun w c => c.writeFields w.1 w.2.1) c
  forL (c.sections 3) (fun s c => c.tbwWrite (leAt s.data 0 4) ((s.data.drop 8).take (leAt s.data 4 4))) c

/-- A fault that a register's value is. -/
def Chip.badReg (c : Chip) (cond : Bool) (a : Nat) : List ImgPlace := if cond then [c.regPlace a] else []

/-- The indices below `n` that satisfy `p`. -/
def those (n : Nat) (p : Nat → Bool) : List Nat := (List.range n).filter p

/-- Two spans (start, length) have an element in common. -/
def spansMeet (a b : Nat × Nat) : Bool := decide (max a.1 b.1 < min (a.1 + a.2) (b.1 + b.2))

/-- The elements of a list of (item, span) whose span meets that of an earlier one. -/
def overlapping {α : Type} : List (α × Nat × Nat) → List α
  | [] => []
  | x :: rest => ((rest.filter (fun y => spansMeet x.2 y.2)).map (fun y => y.1)) ++ overlapping rest

/-- The elements of a list of (item, key) whose key an earlier one has. -/
def repeated {α : Type} (l : List (α × Nat)) : List α := overlapping (l.map (fun x => (x.1, x.2, 1)))

/-! ### Sections (R3, R418, R419, R422 to R424, R504) -/

/-- R418, R419: the types and flags of the section table. -/
def sectionFaults (i : FlashImage) : List ImgPlace :=
  let l := (List.range i.sections.length).zip i.sections
  badAt (leAt i.header 12 1 % 8 == 0) (0, 12) ++
  badAt ((i.sections.filter (fun s => secKind s == 1)).length != 1) (0, 0) ++
  l.flatMap (fun s =>
    let f := secFlags s.2
    badAt (secKind s.2 == 0 || 12 < secKind s.2) (s.1, 0) ++ badAt (f / 2 % 2 == 1 && f / 4 % 2 == 1) (s.1, 2) ++
    badAt (secKind s.2 == 1 && f % 2 == 1) (s.1, 2) ++ badAt (secKind s.2 == 10 && f % 2 == 0) (s.1, 2))

/-- R504: the spans of the table windows that are writable before seal. -/
def writableSpans : List (Nat × Nat) :=
  [(0, 0x1000000), (0x1400000, 0x1DA0000), (0x1E20000, 0x1E80000), (0x1EA0000, 0x1EA8000), (0x1EAC000, 0x1EAE000)]

/-- R504: TABLE sections stay in what is writable. -/
def Chip.tableFaults (c : Chip) : List ImgPlace :=
  (c.placedSections 3).flatMap (fun s =>
    let o := leAt s.2.data 0 4
    let n := leAt s.2.data 4 4
    badAt (!writableSpans.any (fun w => decide (w.1 ≤ o) && decide (o + n ≤ w.2))) (s.1, 0))

/-- R422: the commands of pipeline `p`'s sequence: offset in the section and operation, up to END; none without one. -/
def initCommands (l : List Byte) (o : Nat) : Nat → List (Nat × Nat) → Option (List (Nat × Nat))
  | 0, _ => none
  | n + 1, acc =>
    let op := leAt l o 1
    if op == 3 then some (acc ++ [(o, op)]) else initCommands l (o + 8) n (acc ++ [(o, op)])

/-- R422: the offset and length of a pipeline's sequence. -/
def initEntry (l : List Byte) (p : Nat) : Nat × Nat := (leAt l (8 * p) 4, leAt l (8 * p + 4) 4)

/-- R422: sensor sequences. -/
def Chip.initFaults (c : Chip) : List ImgPlace :=
  (c.placedSections 9).flatMap (fun s => (List.range 8).flatMap (fun p =>
    let (o, n) := initEntry s.2.data p
    if n == 0 then []
    else match initCommands s.2.data o (n / 8) [] with
      | none => [(s.1, o)]
      | some l => badAt (decide (4096 < l.length)) (s.1, o) ++
        ((l.filter (fun x => x.2 == 0 || 3 < x.2)).map (fun x => (s.1, x.1)))))

/-- R423: expected signatures of the pitch screen. -/
def Chip.pitchSigFaults (c : Chip) : List ImgPlace :=
  (c.placedSections 11).flatMap (fun s => (List.range (leAt s.2.data 0 4)).flatMap (fun i =>
    let o := 8 + 16 * i
    let h := leAt s.2.data o 1
    let tw := leAt s.2.data (o + 6) 2
    let th := leAt s.2.data (o + 8) 2
    let cols := ceilDiv (c.fld (R.hedHtim h) 15 0) 32
    let rows := ceilDiv (c.fld (R.hedVtim h) 15 0) 32
    badAt (31 < h || !c.bit (R.hedCtl h) 31 || tw == 0 || th == 0 || cols < leAt s.2.data (o + 2) 2 + tw ||
      rows < leAt s.2.data (o + 4) 2 + th) (s.1, o)))

/-- R424: management keys. -/
def Chip.keyFaults (c : Chip) : List ImgPlace :=
  (c.placedSections 10).flatMap (fun s =>
    (repeated ((List.range (leAt s.2.data 0 1)).map (fun i => ((s.1, 4 + 36 * i), leAt s.2.data (4 + 36 * i) 1)))))

/-! ### Rates and heads (R28, R44, R289, R304, R308) -/

/-- The numbers of the enabled heads, slots, decode contexts, encode contexts and streams. -/
def Chip.onHeads (c : Chip) : List Nat := those 32 (fun h => c.bit (R.hedCtl h) 31)
/-- See `onHeads`. -/
def Chip.onSlots (c : Chip) : List Nat := those 256 (fun n => c.bit (R.srcCfg n) 31 && c.fld (R.srcCfg n) 30 28 != 0)
/-- See `onHeads`. -/
def Chip.onDec (c : Chip) : List Nat := those 256 (fun x => c.bit (R.vdcCtx x) 31)
/-- See `onHeads`. -/
def Chip.onEnc (c : Chip) : List Nat := those 32 (fun x => c.bit (R.vecCtx x) 31)
/-- See `onHeads`. -/
def Chip.onStreams (c : Chip) : List Nat := those 32 (fun x => c.bit (R.netTx x) 31)

/-- The kind of slot `n`. -/
def Chip.imgKind (c : Chip) (n : Nat) : Nat := c.fld (R.srcCfg n) 30 28

/-- A sum of fractions (numerator, denominator) is above a bound. -/
def sumAbove (l : List (Nat × Nat)) (bound : Nat) : Bool :=
  let (n, d) := l.foldl (fun a x => (a.1 * x.2 + x.1 * a.2, a.2 * x.2)) (0, 1)
  decide (bound * d < n)

/-- Pixels per frame of a head times 65,536 × 10^9, over Q (R289): pixels a second. -/
def Chip.pixelRate (c : Chip) (h px : Nat) : Nat × Nat := (px * 65536 * nsPerS, max 1 (c.headQ h))

/-- R28: peak rates of slots and active rates of heads. -/
def Chip.rateFaults (c : Chip) : List ImgPlace :=
  let slots := c.onSlots.filter (fun n => c.imgKind n != 7)
  let heads := c.onHeads
  c.badReg (decide (8000 < (slots.map (fun n => c.fld (R.srcRate n) 12 0)).sum)) (R.srcRate (slots.getLastD 0)) ++
  c.badReg (sumAbove (heads.map (fun h => c.pixelRate h (c.fld (R.hedHtim h) 15 0 * c.fld (R.hedVtim h) 15 0))) 8000000000)
    (R.hedPeriod (heads.getLastD 0))

/-- R44, R289: an enabled head's timing. -/
def Chip.timingFaults (c : Chip) : List ImgPlace :=
  c.onHeads.flatMap (fun h =>
    let ha := c.fld (R.hedHtim h) 15 0
    let ht := c.fld (R.hedHtim h) 31 16
    let va := c.fld (R.hedVtim h) 15 0
    let vt := c.fld (R.hedVtim h) 31 16
    let hfp := c.fld (R.hedHsync h) 29 16
    let hsw := c.fld (R.hedHsync h) 13 0
    let vfp := c.fld (R.hedVsync h) 29 16
    let vsw := c.fld (R.hedVsync h) 13 0
    let ns := c.fld (R.hedPeriod h) 26 0
    let q := c.headQ h
    let mul4 (n : Nat) : Bool := n % 4 == 0
    let rate := ht * vt * 65536 * 1000
    c.badReg (ha < 256 || 8192 < ha || !mul4 ha || !mul4 ht || ht < ha + hfp + hsw + 8) (R.hedHtim h) ++
    c.badReg (hfp < 4 || hsw < 4 || !mul4 hfp || !mul4 hsw) (R.hedHsync h) ++
    c.badReg (va < 128 || 8192 < va || vt < va + vfp + vsw + 1) (R.hedVtim h) ++
    c.badReg (vfp == 0 || vsw == 0) (R.hedVsync h) ++
    c.badReg (ns < 4166666 || 100000000 < ns || 100000000 * 65536 < q || rate < 100 * q || 2200 * q < rate) (R.hedPeriod h) ++
    c.badReg (ns ≤ c.fld (R.hedPhase h) 26 0) (R.hedPhase h) ++
    c.badReg ((vt - va) * q < 200 * nsPerUs * 65536 * vt) (R.hedVtim h) ++
    c.badReg (c.fld (R.hedPulse h) 15 0 % 4 != 0 || ha < c.fld (R.hedPulse h) 15 0 + 16 || va < c.fld (R.hedPulse h) 31 16 + 16)
      (R.hedPulse h))

/-- R304: two enabled heads do not claim one pin. -/
def Chip.pinFaults (c : Chip) : List ImgPlace :=
  (repeated ((c.onHeads.filter (fun h => c.bit (R.hedGpo h) 31)).map (fun h => (h, c.fld (R.hedGpo h) 28 24)))).map (fun h =>
    c.regPlace (R.hedGpo h))

/-- R308: byte `i` of a picture parameter set, in DSC 1.2a's layout (PRESUMED, log 21). -/
def Chip.pps (c : Chip) (d i : Nat) : Nat := c.fld (R.dptDscPps d (i / 4)) (i % 4 * 8 + 7) (i % 4 * 8)

/-- R308: DSC units. -/
def Chip.dscFaults (c : Chip) : List ImgPlace :=
  let heads := c.onHeads.filter (fun h => c.bit (R.hedOut h) 24)
  (repeated (heads.map (fun h => (h, c.fld (R.hedOut h) 23 20)))).map (fun h => c.regPlace (R.hedOut h)) ++
  heads.flatMap (fun h =>
    let d := c.fld (R.hedOut h) 23 20
    let b := c.pps d
    let be (i : Nat) : Nat := b i * 256 + b (i + 1)
    let bpc := b 3 / 16
    let fmt := c.fld (R.hedOut h) 19 18
    let rgb := b 4 / 16 % 2 == 1
    let bpp := b 4 % 4 * 256 + b 5
    c.badReg (3 ≤ fmt) (R.hedOut h) ++
    c.badReg (b 0 != 0x12) (R.dptDscPps d 0) ++
    c.badReg (bpc != (if fmt == 0 then 8 else 10)) (R.dptDscPps d 0) ++
    c.badReg (rgb != (fmt != 2) || bpp < 96 || 48 * bpc < bpp) (R.dptDscPps d 1) ++
    c.badReg (b 88 % 4 != 0) (R.dptDscPps d 22) ++
    c.badReg (be 8 != c.fld (R.hedHtim h) 15 0 || (be 8 != 4 * be 12 && be 8 != 8 * be 12)) (R.dptDscPps d 2) ++
    c.badReg (be 6 != c.fld (R.hedVtim h) 15 0 || be 10 == 0 || be 6 % be 10 != 0) (R.dptDscPps d 1))

/-! ### References and the network (R100, R145, R164, R337) -/

/-- R100: the priority table. -/
def Chip.prioFaults (c : Chip) : List ImgPlace :=
  let on := those 8 (fun i => c.bit (R.refPrio i) 31)
  c.badReg on.isEmpty (R.refPrio 0) ++
  (on.filter (fun i => c.fld (R.refPrio i) 14 12 == 7)).map (fun i => c.regPlace (R.refPrio i)) ++
  (repeated (on.map (fun i => (i, c.fld (R.refPrio i) 14 12)))).map (fun i => c.regPlace (R.refPrio i))

/-- R145: flow entries. -/
def Chip.flowFaults (c : Chip) : List ImgPlace :=
  let on := those 1024 (fun f => c.bit (R.netFlow f) 31)
  let media := on.filter (fun f => c.fld (R.netFlow f) 25 24 < 2)
  (repeated (media.map (fun f => (f, c.fld (R.netFlow f) 23 16 * 2 + c.fld (R.netFlow f) 25 24)))).map (fun f =>
    c.regPlace (R.netFlow f)) ++
  media.flatMap (fun f =>
    let k := c.imgKind (c.fld (R.netFlow f) 23 16)
    c.badReg (c.fld (R.netFlow f) 0 0 == 1 || (k != 1 && k != 2)) (R.netFlow f)) ++
  on.flatMap (fun f => c.badReg (c.fld (R.netFlow f) 25 24 == 3) (R.netFlow f))

/-- R164: transmit streams. -/
def Chip.streamFaults (c : Chip) : List ImgPlace :=
  (repeated (c.onStreams.map (fun t => (t, c.fld (R.netTx t) 24 20)))).map (fun t => c.regPlace (R.netTx t)) ++
  c.onStreams.flatMap (fun t =>
    let port (l : Nat) : Nat := c.fld (R.netTxLeg t l) 31 31
    let sub (l : Nat) : Nat := c.subOf (port l) (c.fld (R.netTxLeg t l) 30 29)
    let legs := if c.bit (R.netTx t) 30 then [0, 1] else [0]
    c.badReg (c.bit (R.netTx t) 30 && port 0 == port 1 && sub 0 == sub 1) (R.netTxLeg t 1) ++
    c.badReg (legs.any (fun l => decide (c.fld (R.netPort (port l)) 13 0 < c.fld (R.netTxSeq t) 13 0 + 60))) (R.netTxSeq t))

/-- R351: slot `n` is agreed. -/
def Chip.imgAgreed (c : Chip) (n : Nat) : Bool := c.bit (R.twnAgree (n / 32)) (n % 32)

/-- R337: a twin pair's ranks and agreed slots. -/
def Chip.twinFaults (c : Chip) : List ImgPlace :=
  if !c.bit R.twnCfg 31 then []
  else
    let own := c.fld R.twnCfg 7 0
    let twin := c.fld R.twnCfg 15 8
    c.badReg (own == twin || own == 0 || twin == 0) R.twnCfg ++
    c.onStreams.flatMap (fun t =>
      let x := c.fld (R.netTx t) 24 20
      c.badReg (!c.imgAgreed (c.fld (R.vecCtx x) 15 8)) (R.vecCtx x)) ++
    (those 256 c.imgAgreed).flatMap (fun n =>
      c.badReg (c.imgKind n == 3 || c.imgKind n == 4 || c.imgKind n == 7) (R.srcCfg n))

/-! ### Slots and the codec (R157, R169, R176, R182, R280, R285) -/

/-- The layouts of the image. -/
def Chip.layouts (c : Chip) : List LayoutData :=
  (List.range (leAt c.layoutSection 0 2)).filterMap (fun n => (c.layoutBody n).map layoutOf)

/-- R157: the heads on which any layout shows slot `n`. -/
def Chip.headsShowing (c : Chip) (n : Nat) : Nat :=
  (those 32 (fun h => c.layouts.any (fun y => y.elems.any (fun e =>
    let x := elemOf e.2
    x.en && x.kind == 1 && x.bind == n && x.head == h)))).length

/-- R157, R285: slots. -/
def Chip.slotFaults (c : Chip) : List ImgPlace :=
  let on := c.onSlots.filter (fun n => c.imgKind n != 7)
  let nbuf (n : Nat) : Nat := c.fld (R.srcCfg n) 12 8
  let size (n : Nat) : Nat := c.fld (R.srcStride n) 15 0 * 4096
  let place (n : Nat) : ImgPlace := c.regPlace (R.srcPoolLo n)
  on.flatMap (fun n =>
    c.badReg (size n < frameBytes (c.fld (R.srcCfg n) 3 0) (c.fld (R.srcGeom n) 15 0) (c.fld (R.srcGeom n) 31 16)) (R.srcStride n)) ++
  c.onSlots.flatMap (fun n => c.badReg (nbuf n < 3 + c.headsShowing n) (R.srcCfg n)) ++
  (overlapping (on.map (fun n => (n, c.base40 (R.srcPoolLo n) (R.srcPoolHi n), nbuf n * size n)))).map place ++
  (overlapping (on.map (fun n => (n, c.base40 (R.srcRecLo n) (R.srcRecHi n), nbuf n * 64)))).map (fun n =>
    c.regPlace (R.srcRecLo n)) ++
  on.flatMap (fun n => (on.filter (fun m => m != n && spansMeet (c.base40 (R.srcPoolLo m) (R.srcPoolHi m), nbuf m * size m)
    (c.base40 (R.srcRecLo n) (R.srcRecHi n), nbuf n * 64))).map (fun _ => c.regPlace (R.srcRecLo n))) ++
  c.onSlots.flatMap (fun n => c.badReg (c.imgKind n == 7 && 3 < c.fld (R.srcCfg n) 3 0) (R.srcCfg n))

/-- R169, R176: codec rates, and one context to a slot. -/
def Chip.codecFaults (c : Chip) : List ImgPlace :=
  let slotOf (x : Nat) : Nat := c.fld (R.vdcCtx x) 23 16
  let rate (x : Nat) : Nat := c.fld (R.srcRate (slotOf x)) 12 0
  let enc (x : Nat) : Nat × Nat :=
    let n := c.fld (R.vecCtx x) 15 8
    (c.fld (R.srcGeom n) 15 0 * c.fld (R.srcGeom n) 31 16 * 1000000, max 1 (c.fld (R.vecCtxPeriod x) 19 0))
  c.onDec.flatMap (fun x => c.badReg (1000 < rate x) (R.srcRate (slotOf x))) ++
  c.badReg (8000 < (c.onDec.map rate).sum) (R.srcRate (slotOf (c.onDec.getLastD 0))) ++
  c.onEnc.flatMap (fun x => c.badReg (sumAbove [enc x] 600000000) (R.vecCtxPeriod x)) ++
  c.badReg (sumAbove (c.onEnc.map enc) 2400000000) (R.vecCtxPeriod (c.onEnc.getLastD 0)) ++
  (repeated (c.onDec.map (fun x => (x, slotOf x)))).map (fun x => c.regPlace (R.vdcCtx x))

/-- R182: partitions of the reference pool. -/
def Chip.poolFaults (c : Chip) : List ImgPlace :=
  let first (x : Nat) : Nat := c.fld (R.vdcCtxRef x) 26 16
  let nref (x : Nat) : Nat := c.fld (R.vdcCtxRef x) 5 0
  let dec := c.onDec.map (fun x => (R.vdcCtxRef x, first x, nref x))
  let enc := c.onEnc.map (fun x => (R.vecCtxRefs x, c.fld (R.vecCtxRefs x) 26 16, 2))
  let count := c.fld R.vdcPoolCfg 11 0
  c.onDec.flatMap (fun x => c.badReg (nref x < 2 || 17 < nref x) (R.vdcCtxRef x)) ++
  (overlapping (dec ++ enc)).map c.regPlace ++
  (dec ++ enc).flatMap (fun e => c.badReg (count < e.2.1 + e.2.2) e.1)

/-- R280: writeback slots. -/
def Chip.wbFaults (c : Chip) : List ImgPlace :=
  (those 32 (fun h => c.bit (R.cmpWb h) 31)).flatMap (fun h =>
    let n := c.fld (R.cmpWb h) 7 0
    c.badReg (c.imgKind n != 5 || c.fld (R.srcCfg n) 23 16 != h || !([0, 2, 3, 4].contains (c.fld (R.srcCfg n) 3 0))) (R.cmpWb h))

/-! ### Cameras, points and touch (R203, R214, R232, R234, R238, R239, R318) -/

/-- R201, R203, R214: camera pipelines. -/
def Chip.cameraFaults (c : Chip) : List ImgPlace :=
  (List.range 8).flatMap (fun p =>
    let w := c.fld (R.camSize p) 15 0
    let h := c.fld (R.camSize p) 31 16
    let cw := c.fld (R.camLsc p) 8 0
    let ch := c.fld (R.camLsc p) 24 16
    let tab := (List.range (min 4096 (c.fld (R.camDpc p) 28 16))).map (fun i => (c.reg (R.camDpcTab p i)).toNat)
    let sorted := (tab.zip (tab.drop 1)).all (fun e => decide (e.1 ≤ e.2))
    c.badReg (!sorted) (R.camDpc p) ++
    (if !c.bit (R.camCtl p) 31 then []
    else
      c.badReg (w < 64 || 5120 < w || h < 64 || 4096 < h || w % 2 == 1 || h % 2 == 1 || 16777216 < w * h) (R.camSize p) ++
      c.badReg (c.fld (R.camProf1 p) 19 0 * 3 / 5 < w) (R.camProf1 p) ++
      c.badReg ((cw == 0 || ch == 0 || 62 < (w - 1) / cw || 46 < (h - 1) / ch)) (R.camLsc p) ++
      (those 3 (fun o => c.bit (R.camOut p o) 31)).flatMap (fun o =>
        let n := c.fld (R.camOut p o) 7 0
        let ow := c.fld (R.camOutSize p o) 15 0
        let oh := c.fld (R.camOutSize p o) 31 16
        let kw := c.fld (R.camOutCrop p o) 15 0
        let kh := c.fld (R.camOutCrop p o) 31 16
        c.badReg (c.imgKind n != 3 || c.fld (R.srcCfg n) 23 16 != 3 * p + o) (R.camOut p o) ++
        c.badReg (w < c.fld (R.camOutOrg p o) 15 0 + kw || h < c.fld (R.camOutOrg p o) 31 16 + kh) (R.camOutCrop p o) ++
        c.badReg (kw < ow || kh < oh || ow < 16 || oh < 16) (R.camOutSize p o))))

/-- The KIND of limit class `k` (R238, R253). -/
def Chip.limitKind (c : Chip) (k : Nat) : Nat := c.fld (R.pntLimcl (k - 1)) 1 0

/-- Byte 26 of the record of point `i` (R234). -/
def Chip.pointByte (c : Chip) (i : Nat) : Nat := leAt (c.sectionBytes 12) (2 * i) 1

/-- R234, R238, R239: the POINTS section. -/
def Chip.pointFaults (c : Chip) : List ImgPlace :=
  (c.placedSections 12).flatMap (fun s => ((pieces 2 s.2.data).zip (List.range (s.2.data.length / 2))).flatMap (fun e =>
    let kind := leAt e.1 0 1 % 16
    let cls := leAt e.1 0 1 / 16
    badAt (3 < kind || (cls != 0 && c.limitKind cls != kind)) (s.1, 2 * e.2) ++
    badAt (64 ≤ leAt e.1 1 1) (s.1, 2 * e.2 + 1)))

/-- R232: the ranges that feeders own. -/
def Chip.feederFaults (c : Chip) : List ImgPlace :=
  let on := (those 256 (fun f => c.bit (R.pntFeed f) 31)).map (fun f =>
    (f, c.fld (R.pntFeedFirst f) 22 0, c.fld (R.pntFeedCount f) 23 0))
  (overlapping on).map (fun f => c.regPlace (R.pntFeedFirst f)) ++
  on.flatMap (fun e => c.badReg (c.fld R.pntCtl 23 0 < e.2.1 + e.2.2) (R.pntFeedCount e.1))

/-- R318: touch channels. -/
def Chip.touchFaults (c : Chip) : List ImgPlace :=
  (those 4 (fun h => c.bit (R.tchCtl h) 31)).flatMap (fun h =>
    let ns := c.fld (R.tchPeriod h) 26 0
    let on := those 8 (fun i => c.bit (R.tchFreq h i) 31)
    let khz (i : Nat) : Nat := c.fld (R.tchFreq h i) 8 0
    c.badReg (ns < 4166667 || 16666667 < ns) (R.tchPeriod h) ++
    c.badReg on.isEmpty (R.tchFreq h 0) ++
    (repeated (on.map (fun i => (i, khz i)))).map (fun i => c.regPlace (R.tchFreq h i)) ++
    on.flatMap (fun i => c.badReg (khz i < 80 || 500 < khz i) (R.tchFreq h i)))

/-! ### Memory (R368, R370) -/

/-- R390: the data rates in MT/s. -/
def dataRates : List Nat := [3200, 4266, 5500, 6400, 7500, 8533]

/-- R370: the home bits of the masks, as bits of a mask: channel, bank group, bank. -/
def homeBits : List Nat := [2, 3, 4, 5, 9, 10, 11, 12]

/-- R368, R370: regulators and masks. -/
def Chip.memFaults (c : Chip) : List ImgPlace :=
  let sum := ((List.range 10).map (fun g => c.fld (R.dmcReg g) 19 0)).sum
  let peak := 32 * dataRates.getD (c.fld R.dmcCfg 18 16) 0
  let masks := (List.range 4).map R.dmcChmask ++ (List.range 2).map R.dmcBgmask ++ (List.range 2).map R.dmcBamask
  let top := 28 + min 2 (c.fld R.dmcCfg 1 0)
  c.badReg (peak * 2 / 3 < sum) (R.dmcReg 0) ++
  (masks.zip homeBits).flatMap (fun m =>
    let v := c.fld m.1 29 0
    c.badReg (homeBits.any (fun b => (v / 2 ^ b % 2 == 1) != (b == m.2)) || 2 ^ top ≤ v) m.1)

/-! ### Layouts and presets (R247, R420, R421, R436) -/

/-- R420: the bodies of a LAYOUT section: offset and length. -/
def bodySpans (l : List Byte) : List (Nat × Nat × Nat) :=
  (List.range (leAt l 0 2 + leAt l 2 2)).map (fun i => (leAt l (16 + 8 * i) 4, leAt l (16 + 8 * i) 4, leAt l (20 + 8 * i) 4))

/-- R420: a shadowed register of a head in the mask. -/
def shadowedIn (mask a : Nat) : Bool :=
  (List.range 32).any (fun h => inMask mask h && (a == R.cmpBg h || (List.range 9).any (fun p => a == R.cmpAlpha h p)))

/-- R247: a format's KIND fits a point's type. -/
def kindFits (kind ty : Nat) : Bool :=
  match kind with
  | 0 => ty == 1 || ty == 3
  | 1 => ty == 1 || ty == 3
  | 4 => ty == 1 || ty == 3
  | 2 => ty == 2
  | 3 => ty == 3
  | _ => false

/-- R247: the KIND of the format that field descriptor `d` names. -/
def Chip.fieldKind (c : Chip) (d : Nat) : Nat := c.tbwNat (twFormat (c.tbwNat (twField d) 4 / 2 ^ 24)) 1

/-- R247, R420: layout body `b` at offset `o` of section `n`. -/
def Chip.layoutFaults (c : Chip) (n o : Nat) (b : List Byte) : List ImgPlace :=
  let y := layoutOf b
  let want := 32 + 36 * (leAt b 4 4 + leAt b 8 4 + leAt b 12 2) + 8 * leAt b 14 2
  let twice (l : List Nat) : Bool := decide (l.eraseDups.length < l.length)
  if b.length != want then [(n, o)]
  else
    badAt (y.elems.any (fun e => !inMask y.mask (elemOf e.2).head)) (n, o) ++
    badAt (y.regions.any (fun r => !inMask y.mask (regionOf r.2).head)) (n, o) ++
    badAt (y.regs.any (fun r => !shadowedIn y.mask r.1)) (n, o) ++
    badAt (twice (y.elems.map (fun e => e.1)) || twice (y.descs.map (fun e => e.1)) || twice (y.regions.map (fun e => e.1)) ||
      twice (y.regs.map (fun e => e.1))) (n, o) ++
    badAt (y.elems.any (fun e => let x := elemOf e.2
      x.en && x.kind == 2 && !kindFits (c.fieldKind x.desc) (c.pointByte x.bind % 16))) (n, o)

/-- R436: a number that two layouts place on different heads. -/
def headsClash (l : List (Nat × Nat)) : Bool := l.any (fun a => l.any (fun b => a.1 == b.1 && a.2 != b.2))

/-- R420, R421, R436: the LAYOUT section. -/
def Chip.layoutSectionFaults (c : Chip) : List ImgPlace :=
  match c.placedSections 8 with
  | [] => []
  | (n, s) :: _ =>
    let l := s.data
    let spans := bodySpans l
    let nl := leAt l 0 2
    let ys := c.layouts
    (spans.filter (fun b => decide (l.length < b.2.1 + b.2.2))).map (fun b => (n, b.1)) ++
    (overlapping spans).map (fun o => (n, o)) ++
    (List.range nl).flatMap (fun i => c.layoutFaults n (leAt l (16 + 8 * i) 4) (dirBody l i)) ++
    badAt (headsClash (ys.flatMap (fun y => y.elems.map (fun e => (e.1, (elemOf e.2).head))))) (n, 0) ++
    badAt (headsClash (ys.flatMap (fun y => y.regions.map (fun e => (e.1, (regionOf e.2).head))))) (n, 0) ++
    (List.range (leAt l 2 2)).flatMap (fun i =>
      let b := dirBody l (nl + i)
      let o := leAt l (16 + 8 * (nl + i)) 4
      ((List.range (leAt b 0 2)).zip (regRecs b 8 (leAt b 0 2))).flatMap (fun w =>
        badAt (!(match descAt w.2.1 with | some (d, _) => d.live | none => false) || (presetQueue w.2.1).isNone) (n, o + 8 + 8 * w.1)))

/-- R426, CHECK: every image check of the manual on image `i`, read on a part whose registers stand at reset. -/
def Chip.imageFaults (c : Chip) (i : FlashImage) : List ImgPlace :=
  let x := c.planned
  sectionFaults i ++ x.tableFaults ++ x.rateFaults ++ x.timingFaults ++ x.prioFaults ++ x.flowFaults ++ x.slotFaults ++
    x.streamFaults ++ x.codecFaults ++ x.poolFaults ++ x.cameraFaults ++ x.feederFaults ++ x.pointFaults ++ x.wbFaults ++
    x.pinFaults ++ x.dscFaults ++ x.touchFaults ++ x.twinFaults ++ x.memFaults ++ x.layoutSectionFaults ++ x.initFaults ++
    x.pitchSigFaults ++ x.keyFaults

end Sys2Proof.Machine
end

