-- ==== Sys2Proof/Machine/Balls.lean ====
section
/-! DEFINITION. The package (R480 to R485, R487): the balls and where they lie, the states of the signal balls, and the rails that the
power-on hold watches. -/

namespace Sys2Proof.Machine

/-! ### Ball names (R480) -/

/-- R480: the letters of a name's last place. -/
def ballLetters : List Char :=
  ['A', 'B', 'C', 'D', 'E', 'F', 'G', 'H', 'J', 'K', 'L', 'M', 'N', 'P', 'T', 'U', 'V', 'W', 'Y']

/-- R480: the letters of row `r`, from 1. -/
def rowLetters (r : Nat) : List Char :=
  let last := ballLetters.getD ((r - 1) % 19) 'A'
  if r ≤ 19 then [last] else if r ≤ 38 then ['A', last] else ['B', last]

/-! ### The ball map (R481, R482) -/

/-- The kinds of block (R481). -/
inductive BallBlock
  | centre | lp | csi | misc | dpTx | dpRx | ctrl | eth | bol | gpio | tch | tvdd
  deriving DecidableEq, Repr

/-- A ball: its block's kind and number, its entry, and the entry's own number where it has one. -/
structure Ball where
  block : BallBlock
  inst : Nat
  pin : String
  number : Nat
  deriving DecidableEq, Repr

/-- R482: the balls of a memory channel's block. -/
def ballsLp : List String :=
  ["DQ0", "DQ1", "DQ2", "DQ3", "VSS", "DQ4", "DQ5", "DQ6", "DQ7", "VDDQ_LP", "RDQS0_T", "RDQS0_C", "DMI0", "WCK0_T",
   "WCK0_C", "VDDQ_LP", "CA0", "CA1", "CA2", "CA3", "VDD_LPPHY", "CK_T", "CK_C", "VDDQ_LP", "CS", "VSS", "WCK1_T",
   "WCK1_C", "VDDQ_LP", "CA4", "CA5", "CA6", "VDD_LPPHY", "VSS", "VDDQ_LP", "VSS", "VDD_LPPHY", "VSS", "VDDQ_LP",
   "DQ8", "DQ9", "DQ10", "DQ11", "VSS", "DQ12", "DQ13", "DQ14", "DQ15", "VSS", "RDQS1_T", "RDQS1_C", "DMI1"]

/-- R482: the balls of a camera group's block. -/
def ballsCsi : List String :=
  ["VSS", "CLK_P", "CLK_N", "VSS", "D0_P", "D0_N", "VSS", "D1_P", "D1_N", "VSS", "SCL", "SDA", "VSS", "VSS", "D2_P",
   "D2_N", "VSS", "D3_P", "D3_N", "VSS", "MCLK", "VSS", "FSYNC", "VSS", "VSS", "VSS"]

/-- R482: the balls of a DisplayPort output's or capture port's block. -/
def ballsDp : List String :=
  ["VDD_SER", "VDD_SER", "ML0_P", "ML0_N", "VSS", "VSS", "ML1_P", "ML1_N", "VSS", "VSS", "ML2_P", "ML2_N", "VSS",
   "VSS", "ML3_P", "ML3_N", "VSS", "VSS", "AUX_P", "AUX_N", "VSS", "VSS", "HPD", "VDDH_SER", "VDD_SER", "VSS"]

/-- R482: the balls of an Ethernet port's block. -/
def ballsEth : List String :=
  ["TX0_P", "TX0_N", "TX1_P", "TX1_N", "VSS", "TX2_P", "TX2_N", "TX3_P", "TX3_N", "VSS", "MOD_PRS_N", "MOD_INT_N",
   "VDD_SER", "VSS", "VDD_SER", "VDDH_SER", "VSS", "VDD_SER", "VDDH_SER", "VSS", "VDDH_SER", "VDD_SER", "VSS",
   "VDDH_SER", "VSS", "VSS", "RX0_P", "RX0_N", "RX1_P", "RX1_N", "VSS", "RX2_P", "RX2_N", "RX3_P", "RX3_N", "VSS",
   "MOD_SCL", "MOD_SDA", "VSS"]

/-- R482: the balls of the Bolral link's block. -/
def ballsBol : List String :=
  ["TX0_P", "TX0_N", "VSS", "TX1_P", "TX1_N", "VSS", "TX2_P", "TX2_N", "VSS", "TX3_P", "TX3_N", "VSS", "SIDE",
   "VDD_SER", "VSS", "VDDH_SER", "VDD_SER", "VSS", "VDDH_SER", "VDD_SER", "VSS", "VDDH_SER", "VDD_SER", "VSS",
   "VDDH_SER", "VSS", "RX0_P", "RX0_N", "VSS", "RX1_P", "RX1_N", "VSS", "RX2_P", "RX2_N", "VSS", "RX3_P", "RX3_N",
   "VSS", "VSS"]

/-- R482: the balls of block CTRL. -/
def ballsCtrl : List String :=
  ["MGT_TX_P", "MGT_TX_N", "VSS", "VDDIO18", "MGT_RX_P", "MGT_RX_N", "VSS", "VDDIO33", "VSS", "VSS", "MGT_MDC",
   "MGT_MDIO", "MGT_PHY_RESET_N", "VDDIO18", "XSPI_CLK", "VSS", "XSPI_CS_N", "XSPI_DQS", "XSPI_RESET_N", "VDDIO18",
   "XSPI_DQ0", "XSPI_DQ1", "XSPI_DQ2", "XSPI_DQ3", "XSPI_DQ4", "XSPI_DQ5", "XSPI_DQ6", "XSPI_DQ7", "VSS", "VDDIO18",
   "VSS", "VDDIO33", "SMB_SCL", "SMB_SDA", "ALERT_N", "FAULT_N", "RESET_N", "VDDIO33", "JTAG_TCK", "JTAG_TMS",
   "JTAG_TDI", "JTAG_TDO", "JTAG_TRST_N", "VDDIO18", "AVS_CLK", "AVS_MDATA", "AVS_SDATA", "VDDIO18", "VSS",
   "VDDIO33", "VDDIO18", "VDDIO18"]

/-- R482: the balls of block MISC. -/
def ballsMisc : List String :=
  ["LP_ZQ0", "LP_ZQ1", "LP_ZQ2", "LP_ZQ3", "VSS", "LP_RESET_N0", "LP_RESET_N1", "LP_RESET_N2", "LP_RESET_N3", "VSS",
   "VDDIO18", "VDDIO18", "VSS", "VSS", "VDDIO33", "VSS", "VDDIO33", "VSS", "VDDIO18", "VSS", "VDDIO18", "VSS",
   "VDDIO33", "VSS", "VDDIO33", "VSS", "OSC_P", "OSC_N", "VSS", "VDDA18", "VDDA18", "VSS", "VDDA075", "VDDA075",
   "VSS", "VDDA18", "VDDA18", "VSS", "VSS", "REFIN0_P", "REFIN0_N", "VSS", "REFIN1_P", "REFIN1_N", "VSS", "REFIN2_P",
   "REFIN2_N", "VSS", "VDDA075", "VDDA075", "VSS", "VSS", "PPS0", "VSS", "PPS1", "VSS", "GNSS_PPS", "VSS",
   "GNSS_RXD", "VSS", "VDDA18", "VDDA18", "VDDA075", "VDDA075", "VSS", "VSS", "VDDA18", "VDDA18", "VDDA075",
   "VDDA075", "VSS", "VSS", "VSS", "VSS", "VSS", "VSS", "VSS", "VSS"]

/-- A rectangle of the array: block, number, top row, left column, rows, columns (R481). -/
structure BallRect where
  block : BallBlock
  inst : Nat
  top : Nat
  left : Nat
  rows : Nat
  cols : Nat
  deriving DecidableEq, Repr

/-- R481: the blocks, which cover every ball once. -/
def ballRects : List BallRect :=
  [⟨.centre, 0, 14, 14, 28, 28⟩, ⟨.misc, 0, 49, 1, 6, 13⟩, ⟨.ctrl, 0, 1, 38, 13, 4⟩, ⟨.eth, 0, 33, 42, 3, 13⟩,
    ⟨.eth, 1, 36, 42, 3, 13⟩, ⟨.bol, 0, 39, 42, 3, 13⟩, ⟨.gpio, 0, 42, 42, 3, 13⟩, ⟨.tvdd, 0, 54, 14, 1, 28⟩,
    ⟨.tch, 3, 45, 42, 10, 13⟩] ++
  (List.range 16).map (fun n => ⟨.lp, n, 1 + 4 * (n % 8), if n < 8 then 1 else 42, 4, 13⟩) ++
  (List.range 8).map (fun n => ⟨.csi, n, 33 + 2 * n, 1, 2, 13⟩) ++
  (List.range 8).map (fun p => ⟨.dpTx, p, 1, 14 + 2 * p, 13, 2⟩) ++
  (List.range 4).map (fun q => ⟨.dpRx, q, 1, 30 + 2 * q, 13, 2⟩) ++
  (List.range 3).map (fun h => ⟨.tch, h, 42 + 4 * h, 14, 4, 28⟩)

/-- R482: entry `i` of a block, at row `r` and column `k` of the array. -/
def ballEntry (b : BallBlock) (inst i r k : Nat) : String × Nat :=
  match b with
  | .centre =>
    (if (r + k) % 2 == 0 then "VSS" else if k ≤ 16 || 39 ≤ k then "VDD_SRAM" else "VDD_CORE", 0)
  | .lp => (ballsLp.getD i "", 0)
  | .csi => (ballsCsi.getD i "", 0)
  | .misc => (ballsMisc.getD i "", 0)
  | .dpTx => (ballsDp.getD i "", 0)
  | .dpRx => (ballsDp.getD i "", 0)
  | .ctrl => (ballsCtrl.getD i "", 0)
  | .eth => (ballsEth.getD i "", 0)
  | .bol => (ballsBol.getD i "", 0)
  | .gpio =>
    if i == 12 || i == 25 || i == 34 || i == 35 then ("VDDIO18", 0) else if 36 ≤ i then ("VSS", 0)
    else ("GPIO", if i < 12 then i else if i < 25 then i - 1 else i - 2)
  | .tch =>
    if i < 64 then ("TDRV", i)
    else if inst < 3 then ("TSNS", i - 64)
    else if i < 66 then ("VTDRV", 0) else if i < 82 then ("VSS", 0) else ("TSNS", i - 82)
  | .tvdd => (if 18 ≤ k && k ≤ 38 && (k - 18) % 4 == 0 then "VTDRV" else "VSS", 0)

/-- R481, R482: the ball at row `r` and column `k` of the array. -/
def ballAt (r k : Nat) : Option Ball :=
  (ballRects.find? (fun b => decide (b.top ≤ r) && decide (r < b.top + b.rows) && decide (b.left ≤ k) &&
    decide (k < b.left + b.cols))).map (fun b =>
      let e := ballEntry b.block b.inst ((r - b.top) * b.cols + (k - b.left)) r k
      { block := b.block, inst := b.inst, pin := e.1, number := e.2 })

/-- R483: every ball of the array. -/
def allBalls : List Ball :=
  (List.range 54).flatMap (fun r => (List.range 54).filterMap (fun k => ballAt (r + 1) (k + 1)))

/-- R483: the balls of an entry's name. -/
def ballCount (pin : String) : Nat := (allBalls.filter (fun b => b.pin == pin)).length

/-- R482, R485: the supply rails. -/
def supplyPins : List String :=
  ["VDD_CORE", "VDD_SRAM", "VDD_SER", "VDDH_SER", "VDDQ_LP", "VDD_LPPHY", "VDDIO18", "VDDIO33", "VDDA18", "VDDA075", "VTDRV"]

/-! ### Ball states (R484) -/

/-- What R484 tells apart. -/
inductive BallClass
  | faultPin | lane | capHpd | touchDrive | camClock | gpio | xspi | tdo | memReset | other
  deriving DecidableEq, Repr

/-- The state of a signal ball: `unit` is driven as its unit does. -/
inductive BallState
  | released | asserted | idle | low | vss | pullDown | rom | highZ | unit
  deriving DecidableEq, Repr

/-- R484: the class of a signal ball. -/
def Ball.cls (b : Ball) : BallClass :=
  if b.pin == "ALERT_N" || b.pin == "FAULT_N" then .faultPin
  else if b.pin == "JTAG_TDO" then .tdo
  else match b.block with
    | .dpRx => if b.pin == "HPD" then .capHpd else if b.pin == "AUX_P" || b.pin == "AUX_N" then .other else .lane
    | .dpTx => if b.pin == "HPD" || b.pin == "AUX_P" || b.pin == "AUX_N" then .other else .lane
    | .tch => if b.pin == "TDRV" then .touchDrive else .other
    | .csi => if b.pin == "MCLK" || b.pin == "FSYNC" then .camClock else .other
    | .gpio => .gpio
    | .ctrl => if ["XSPI_CLK", "XSPI_CS_N", "XSPI_DQS", "XSPI_RESET_N", "XSPI_DQ0", "XSPI_DQ1", "XSPI_DQ2", "XSPI_DQ3", "XSPI_DQ4",
        "XSPI_DQ5", "XSPI_DQ6", "XSPI_DQ7"].contains b.pin then .xspi else .other
    | .misc => if ["LP_RESET_N0", "LP_RESET_N1", "LP_RESET_N2", "LP_RESET_N3"].contains b.pin then .memReset else .other
    | _ => .other

/-- R484: the state of a ball of a class; `enabled` tells that its unit has been enabled. -/
def Chip.ballState (c : Chip) (k : BallClass) (enabled : Bool) : BallState :=
  let halted := c.bit R.pitStat 30
  match k with
  | .tdo => if c.pitch.fuses.debug && !c.isSealed && enabled && !halted then .unit else .highZ
  | .faultPin => if halted then .asserted else if enabled then .unit else .released
  | .gpio => if enabled || (halted && c.pitch.applyAt.isSome) then .unit else .pullDown
  | .memReset => if c.pitch.applyAt.isSome then .unit else .low
  | .xspi => if c.isSealed then .highZ else .rom
  | .lane => if enabled && !halted then .unit else .idle
  | .capHpd => if enabled && !halted then .unit else .low
  | .camClock => if enabled && !halted then .unit else .low
  | .touchDrive => if enabled && !halted then .unit else .vss
  | .other => if enabled then .unit else .highZ

/-! ### Supplies (R485, R487, R488) -/

/-- R485 to R487: the rail that supply monitor 84 + i watches, and its tolerance at the balls in 0.1 mV; for VDD_CORE the regulator's
start-up band. -/
def watchedRails : List (String × Nat × Nat) :=
  [("VDD_CORE", 7750, 8250), ("VDD_CORE", 7750, 8250), ("VDD_CORE", 7750, 8250), ("VDD_SRAM", 7275, 7725),
    ("VDD_SER", 7275, 7725), ("VDDH_SER", 11640, 12360), ("VDD_LPPHY", 7275, 7725), ("VDDIO18", 17100, 18900),
    ("VDDIO33", 31350, 34650), ("VDDA18", 17460, 18540), ("VDDA075", 7275, 7725), ("VDDQ_LP", 4850, 5150)]

/-- R488: every monitored rail has lain within its tolerance: `rails` holds the lowest and the highest reading of each, in 0.1 mV. -/
def railsWithin (rails : List (Nat × Nat)) : Bool :=
  (watchedRails.zip rails).all (fun x => decide (x.1.2.1 ≤ x.2.1) && decide (x.2.2 ≤ x.1.2.2))

end Sys2Proof.Machine
end

