-- ==== Sys2Proof/Machine/Pitch.lean ====
section
/-! DEFINITION. Reset (R414 to R416), the pitch sequence (R425 to R430) and seal (R431). -/

namespace Sys2Proof.Machine

/-! ### Reset -/

/-- R415: no peg, counter, record or journal entry survives a reset; the fuses do. Both fault pins are released. The master
counter counts on from `t` (DESIGN CHOICE, log 22). -/
def Chip.fresh (c : Chip) (t : Stamp) (p : Pitch) : Chip :=
  let x : Chip := { clk := t, tx := c.tx, pitch := { p with fuses := c.pitch.fuses } }
  let x := if c.bit R.evjStat 31 then x.send (.alertN 0) else x
  if c.bit R.evjStat 30 then x.send (.faultN 0) else x

/-- T_R (R414, R415): the part comes out of reset for a cause, with its side from BOL_SIDE, and the boot ROM starts. -/
def Chip.release (c : Chip) (t : Stamp) (cause side : Nat) : Chip :=
  let c := c.fresh t { held := false, fromPower := false, tr := t }
  ((c.setFld R.pitStat 29 29 cause).setFld R.pitStat 23 20 1).setFld R.twnCfg 16 16 side

/-- POWER_ON_HOLD_END (R414, R488): T_R falls at the end of the hold, or at the release of RESET_N if that comes later. The hold lasts
while a rail leaves its tolerance: `rails` are the lowest and highest readings of the last 10 ms in 0.1 mV. -/
def execPowerOnHoldEnd (t : Stamp) (side : Nat) (rails : List (Nat × Nat)) (s : State) : Host.Outcome State Fault Refusal :=
  runIf (decide (side < 2) && decide (rails.length = 12)) (fun c =>
    if !c.pitch.held || !railsWithin rails then c.at t
    else if c.pitch.resetLow then { c.at t with pitch := { c.pitch with held := false } }
    else c.release t 0 side) s

/-- RESET_N_LOW (R414): RESET_N has been low for 10 µs: the part is in reset. -/
def execResetNLow (t : Stamp) (s : State) : Host.Outcome State Fault Refusal :=
  runIf true (fun c => c.fresh t { held := c.pitch.held, fromPower := c.pitch.fromPower, resetLow := true }) s

/-- RESET_N_RELEASE (R414, R415). -/
def execResetNRelease (t : Stamp) (side : Nat) (s : State) : Host.Outcome State Fault Refusal :=
  runIf (decide (side < 2)) (fun c =>
    if !c.pitch.resetLow then c.at t
    else if c.pitch.held then { c.at t with pitch := { c.pitch with resetLow := false } }
    else c.release t (if c.pitch.fromPower then 0 else 1) side) s

/-! ### Halt and steps (R426, R427) -/

/-- R426: step `i`, 1 to 8, has ended. -/
def Chip.stepEnd (c : Chip) (i : Nat) : Chip := c.setNat (R.pitTimes (i - 1)) c.sinceReset

/-- `PIT_STAT.STEP`. -/
def Chip.pitStep (c : Chip) : Nat := c.fld R.pitStat 23 20

/-- Pitch runs step `i`, and has not halted. -/
def Chip.atStep (c : Chip) (i : Nat) : Bool := c.pitStep == i && !c.bit R.pitStat 30

/-- R427: pitch halts at a step for a cause of R427, with the place in the image. -/
def Chip.halt (c : Chip) (step fail : Nat) (p : ImgPlace) : Chip :=
  let c := ((c.setFld R.pitStat 30 30 1).setFld R.pitStat 23 20 step).setFld R.pitStat 19 16 fail
  (c.assertFault.syncAlert).event 0x0102 .room [.val 1 step, .val 1 fail, .val 4 p.1, .val 4 p.2]

/-- R426: beside TIME, TRAIN and LOAD, STEP shows the lowest-numbered step that runs. -/
def Chip.showStep (c : Chip) : Chip :=
  c.setFld R.pitStat 23 20 (if !c.pitch.timeDone then 4 else if !c.pitch.trainDone then 5 else if !c.pitch.loadDone then 6 else 7)

/-! ### ROM (R425) -/

/-- R425: base firmware starts from an image. -/
def Chip.useImage (c : Chip) (i : FlashImage) : Chip :=
  let c := { c with pitch := { c.pitch with image := some i } }
  (c.setFld R.pitStat 5 0 (leAt i.header 13 1)).setFld R.pitStat 23 20 2

/-- R425: slot B comes into use, as check `k` failed on slot A. -/
def Chip.leaveSlotA (c : Chip) (k : Nat) : Chip := (c.setFld R.pitStat 28 28 1).event 0x0107 .room [.val 4 k]

/-- R425, R427: the boot ROM checks slot B; `cause` is what failed on slot A, and stands where slot B has no image. -/
def Chip.bootB (c : Chip) (b : FlashImage) (cause : Nat) : Chip :=
  match bootFail c.pitch.fuses b with
  | none => c.useImage b
  | some (_, k) => c.halt 1 (if k == 1 then cause else k) (0, 0)

/-- The fuses as the boot ROM reads them: those blown before stay blown (R416). -/
def Fuses.join (a b : Fuses) : Fuses :=
  { keyHash := if a.keyHash.isEmpty then b.keyHash else a.keyHash, revoke := a.revoke ||| b.revoke, svn := max a.svn b.svn,
    imgKey := if a.imgKey.isEmpty then b.imgKey else a.imgKey, altEn := a.altEn || b.altEn, debug := a.debug || b.debug }

/-- BOOT_ROM_START (R425): `t` is the end of step 1; `link` tells that the die-to-die link has trained. -/
def execBootRomStart (t : Stamp) (link : Bool) (fuses : Fuses) (slotA slotB : FlashImage) (s : State) :
    Host.Outcome State Fault Refusal :=
  runIf true (fun c =>
    let c := c.at t
    if !c.atStep 1 || c.pitch.image.isSome then c
    else
      let c := { c with pitch := { c.pitch with fuses := Fuses.join c.pitch.fuses fuses } }
      let f := c.pitch.fuses
      let c := (c.setFld R.pitStat 13 8 (min f.svn 63)).setFld R.sysD2dStat 31 31 (if link then 1 else 0)
      let c := match bootFail f slotA with
        | none => c.useImage slotA
        | some (k, cause) => if f.altEn then (c.leaveSlotA k).bootB slotB cause else c.halt 1 cause (0, 0)
      if c.atStep 2 then c.stepEnd 1 else c) s

/-! ### CHECK and APPLY (R426) -/

/-- R426, CHECK: what fails, with its place: the part's identity (R22), a section's digest or tag, or an image check. -/
def Chip.checkFail (c : Chip) (i : FlashImage) : Option (Nat × ImgPlace) :=
  let l := (List.range i.sections.length).zip i.sections
  if (c.reg R.sysId).toNat != 0x09602000 then some (7, 0, 0)
  else match l.find? (fun s => !digestHolds s.2 || !tagHolds c.pitch.fuses.imgKey s.2) with
    | some s => some (6, s.1, if digestHolds s.2 then 48 else 64)
    | none =>
      let i := plainImage c.pitch.fuses.imgKey i
      (({ c with pitch := { c.pitch with image := some i } } : Chip).imageFaults i).head?.map (fun p => (8, p))

/-- R425, R426: CHECK on the image in force; a digest or tag that fails on slot A leads to slot B. -/
def Chip.runCheck (c : Chip) (slotB : FlashImage) : Chip :=
  match c.pitch.image with
  | none => c
  | some i =>
    match c.checkFail i with
    | none => c
    | some (cause, p) =>
      if cause == 6 && c.pitch.fuses.altEn && !c.bit R.pitStat 28 then
        let c := (c.leaveSlotA (Config.eventCode 0x0107 0)).bootB slotB 6
        if c.atStep 2 then (match c.checkFail slotB with | some (k, q) => c.halt 2 k q | none => c) else c
      else c.halt 2 cause p

/-- R426: the group that holds back the enable, bit 31, of the register at `a`: 1 APPLY, 2 HEADS, 0 none. -/
def heldGroup (a : Nat) : Nat :=
  let arr (base stride n : Nat) : Bool := (nth base stride n a).isSome
  if a == R.mgtCtl || a == R.bolCtl || a == R.twnCfg || a == R.dmcCfg || arr (R.refPrio 0) 4 8 || arr (R.twnWatch 0) 4 4 ||
    arr (R.netPort 0) 0x1000 2 || arr (R.netFlow 0) 0x40 1024 || arr (R.dptCtl 0) 0x1000 8 then 1
  else if a == R.pntCtl || arr (R.hedCtl 0) 0x1000 32 || arr (R.capPort 0) 0x1000 4 || arr (R.camCtl 0) 0x10000 8 ||
    arr (R.tchCtl 0) 0x1000 4 || arr (R.srcCfg 0) 0x100 256 || arr (R.vdcCtx 0) 0x40 256 || arr (R.vecCtx 0) 0x80 32 ||
    arr (R.netTx 0) 0x40 32 then 2
  else 0

/-- The last write of each register, in order. -/
def lastWrites : List (Nat × Word × ImgPlace) → List (Nat × Word)
  | [] => []
  | w :: rest => if rest.any (fun x => x.1 == w.1) then lastWrites rest else (w.1, w.2.1) :: lastWrites rest

/-- R426: the held enables of a group are written. -/
def Chip.writeHeld (c : Chip) (g : Nat) : Chip :=
  let on := (lastWrites c.imageWrites).filter (fun w => heldGroup w.1 == g && bitsOf w.2 31 31 == 1)
  forL on (fun w c => c.regWrite .base false w.1 (putBits (c.reg w.1) 31 31 1)) c

/-- R441, R424: the management keys are loaded. -/
def Chip.loadKeys (c : Chip) : Chip :=
  let l := c.sectionBytes 10
  let keys := (List.range (leAt l 0 1)).map (fun i => (leAt l (4 + 36 * i) 1, (l.drop (8 + 36 * i)).take 32))
  let bits := keys.foldl (fun m e => m ||| 2 ^ e.1) 0
  ({ c with mgt := { c.mgt with keys := keys } } : Chip).setFld R.mgtKeys 7 0 bits

/-- R144: base firmware joins the groups of every sub-port that the image enables. -/
def Chip.joinAll (c : Chip) : Chip :=
  forN 2 (fun p c => forN 4 (fun sub c => if c.subportOn p sub then c.joinGroups p sub none else c) c) c

/-- R418, R426, APPLY: encrypted sections in plain, register writes with the enables held back, the side's values (R2, R5, R337), the protection units (R399), the enables
of the APPLY group, and the multicast groups (R144). -/
def Chip.runApply (c : Chip) : Chip :=
  let side := c.fld R.twnCfg 16 16
  let c := { c with pitch := { c.pitch with image := c.pitch.image.map (fun i => plainImage c.pitch.fuses.imgKey i) } }
  let c := { c with partIndex := c.hdr (20 + side) 1, roomNumber := c.hdr 18 2 }
  let c := (c.setFld R.sysRole 2 0 (c.hdr 12 1)).loadKeys
  let c := forL c.imageWrites (fun w c =>
    c.regWrite .base false w.1 (if heldGroup w.1 == 0 then w.2.1 else putBits w.2.1 31 31 0)) c
  let c := forN pruUnits (fun u c => (c.setFld (R.pruCtl u) 31 31 1).applyRules u) c
  (c.writeHeld 1).joinAll

/-- BASE_FIRMWARE_START (R426): CHECK ends at `checked` and APPLY at `t`; `slotB` is what slot B holds. -/
def execBaseFirmwareStart (t checked : Stamp) (slotB : FlashImage) (s : State) : Host.Outcome State Fault Refusal :=
  runIf true (fun c =>
    if !c.atStep 2 then c.at t
    else
      let c := (c.at checked).runCheck slotB
      if !c.atStep 2 then c.at t
      else
        let c := (((c.stepEnd 2).setFld R.pitStat 23 20 3).at t).runApply
        let c := c.stepEnd 3
        { c with pitch := { c.pitch with applyAt := some c.clk } }.showStep) s

/-! ### TRAIN and LOAD (R381, R426) -/

/-- R381: the results of training: trim words by channel and index, 0 to 17 bits, 18 Vref, 19 command bus. -/
def trimAddr (n i : Nat) : Nat := if i < 18 then R.dmcTrim n i else if i == 18 then R.dmcTrimVref n else R.dmcTrimCa n

/-- R381, R383: training leaves its results in the trim registers, and in effect. -/
def Chip.trained (c : Chip) (bad : List (Nat × Nat)) (trims : List (Nat × Nat × Word)) : Chip :=
  let c := forL trims (fun x c =>
    let a := trimAddr x.1 x.2.1
    let c := c.writeFields a x.2.2
    { c with trims := mapPut resetWord c.trims a (c.reg a) }) c
  let c := forN 16 (fun n c => c.setFld (R.dmcChStat n) 31 31 (if bad.any (fun b => b.1 == n) then 0 else 1)) c
  forL bad (fun b c => c.event 0xD009 .room [.val 1 b.1, .val 1 b.2]) c

/-- R403, R426: the image reader moves bytes to DRAM in pieces of at most 64 bytes; unit 23 checks each. -/
def Chip.readerStore (a : Nat) (l : List Byte) (x : Chip × Bool) : Chip × Bool :=
  forN (ceilDiv (a % 64 + l.length) 64) (fun i (x : Chip × Bool) =>
    let lo := max a (a / 64 * 64 + 64 * i)
    let part := (l.drop (lo - a)).take (a / 64 * 64 + 64 * i + 64 - lo)
    if !x.2 || part.isEmpty then x
    else
      let (c, ok) := x.1.checkDram ⟨23, 0, false, 1, 8, 0, lo, part.length, part, 0⟩
      if ok then (c.dramWrite lo part, true) else (c, false)) x

/-- R234, R239: the point records as the image gives them. -/
def Chip.pointRecords (c : Chip) : List Byte :=
  let l := c.sectionBytes 12
  (List.range (c.fld R.pntCtl 23 0)).flatMap (fun i =>
    List.replicate 26 0 ++ [l.getD (2 * i) 0, l.getD (2 * i + 1) 0] ++ List.replicate 4 0)

/-- R426, LOAD: sections into DRAM and the table windows, the point records, the shadows of layout 0; false where a store meets a
protection fault. -/
def Chip.runLoad (c : Chip) : Chip × Bool :=
  let inDramKinds := (c.sections 4) ++ (c.sections 8) ++ (c.sections 5)
  let (c, ok) := forL inDramKinds (fun s x => Chip.readerStore (dramBase + secDram s) s.data x) (c, true)
  let (c, ok) := if (c.sections 12).isEmpty then (c, ok) else Chip.readerStore c.pntTab c.pointRecords (c, ok)
  let c := forL (c.sections 3) (fun s c => c.tableWrite .base (leAt s.data 0 4) ((s.data.drop 8).take (leAt s.data 4 4))) c
  (match c.layoutBody 0 with | some b => c.writeLayout (layoutOf b) | none => c, ok)

/-- The first section that LOAD reads whose digest no longer holds. -/
def Chip.rereadFail (c : Chip) : Option Nat :=
  ([3, 4, 5, 8, 12].flatMap c.placedSections).find? (fun s => !s.2.rereadOk) |>.map (fun s => s.1)

/-- TRAIN_DONE (R381, R426): training ends at `t`, with the channels and steps that failed and the trim words found; LOAD ends at
`loaded`. -/
def execTrainDone (t : Stamp) (bad : List (Nat × Nat)) (trims : List (Nat × Nat × Word)) (loaded : Stamp) (s : State) :
    Host.Outcome State Fault Refusal :=
  runIf (bad.all (fun b => decide (b.1 < 16) && decide (1 ≤ b.2) && decide (b.2 ≤ 6)) &&
      trims.all (fun x => decide (x.1 < 16) && decide (x.2.1 < 20))) (fun c =>
    let c := c.at t
    if c.pitch.applyAt.isNone || c.pitch.trainDone || c.bit R.pitStat 30 then c
    else
      let c := c.trained bad trims
      if !bad.isEmpty then c.halt 5 9 (0, 0)
      else
        let c := { c.stepEnd 5 with pitch := { c.pitch with trainDone := true } }.showStep
        let c := c.at loaded
        match c.rereadFail with
        | some n => c.halt 6 6 (n, 64)
        | none =>
          let (c, ok) := c.runLoad
          if !ok then c.halt 6 10 (0, 0)
          else
            let c := c.openRing.stepEnd 6
            { c with pitch := { c.pitch with loadDone := true } }.showStep) s

/-! ### TIME (R106, R428) -/

/-- The image's creation stamp. -/
def Chip.creation (c : Chip) : Stamp := c.hdr 24 8

/-- R33: pitch's own stamps move with the counter. -/
def Chip.shiftPitch (c : Chip) (old : Stamp) : Chip :=
  let mv (x : Stamp) : Stamp := ((x : Int) + ((c.clk : Int) - (old : Int))).toNat
  { c with pitch := { c.pitch with tr := mv c.pitch.tr, applyAt := c.pitch.applyAt.map mv, headsEnd := c.pitch.headsEnd.map mv } }

/-- R106, steps 2 and 3, R233: the counter is loaded for entry `e`, or from the creation stamp, and every feeder resynchronises. -/
def Chip.loadTime (c : Chip) (e : Option Nat) : Chip :=
  let old := c.clk
  let c := match e with
    | some e => match c.entryInput e with
      | some k => c.loadSelected c.creation e k
      | none => c.loadCreation c.creation
    | none => c.loadCreation c.creation
  (c.shiftPitch old).resyncFeeders

/-- R106, step 1: the input of the lowest-numbered enabled entry is AVAILABLE, or `MUI_ACQ.WAIT` has passed since APPLY ended. -/
def Chip.timeReady (c : Chip) : Bool :=
  match c.pitch.applyAt with
  | none => false
  | some a =>
    elapsed c.clk a (c.fld R.muiAcq 15 0 * nsPerMs) ||
      (match ((List.range 8).filterMap c.entryInput).head? with | some k => c.refState k == 4 | none => false)

/-- TIME_SET (R106, steps 1 to 3). -/
def execTimeSet (t : Stamp) (s : State) : Host.Outcome State Fault Refusal :=
  runIf true (fun c =>
    let c := c.at t
    if c.pitch.timeDone || c.bit R.pitStat 30 || !c.timeReady then c
    else
      let c := (c.loadTime c.bestAvailable).stepEnd 4
      { c with pitch := { c.pitch with timeDone := true } }.showStep) s

/-- R106, step 4: the entry whose input became AVAILABLE and for which base firmware loads the counter again, while the input is
good; it may have been selected since. -/
def Chip.reloadEntry (c : Chip) : Option Nat :=
  match c.mui.reload with
  | some e => if c.entryUsable e then some e else none
  | none => none

/-- R428: heads that run stop at their next frame start and start on the new grid; those that start take it at once. -/
def Chip.restartHeads (c : Chip) : Chip :=
  forN 32 (fun h c =>
    if c.headRun h == 2 then c.modHead h (fun x => { x with restart := true })
    else if c.headRun h == 1 then c.startHead h else c) c

/-- MASTER_COUNTER_RELOAD (R106, step 4; R428). -/
def execMasterCounterReload (t : Stamp) (s : State) : Host.Outcome State Fault Refusal :=
  runIf true (fun c =>
    let c := c.at t
    if !c.pitch.timeDone || c.isSealed || c.bit R.pitStat 30 then c
    else match c.reloadEntry with
      | none => c
      | some e => (c.loadTime (some e)).restartHeads) s

/-! ### HEADS (R220, R426) -/

/-- The CAMINIT sequence of pipeline `p`: its writes as register and bytes. -/
def Chip.initWrites (c : Chip) (p : Nat) : List (Nat × List Byte) :=
  let l := c.sectionBytes 9
  let (o, n) := initEntry l p
  ((initCommands l o (n / 8) []).getD []).filterMap (fun x =>
    if x.2 == 1 then
      let b := l.drop x.1
      some (leAt b 2 2, beBytes (leAt b 1 1) (leAt b 4 4 % 2 ^ (8 * leAt b 1 1)))
    else none)

/-- HEADS_START (R426): once TIME and LOAD have ended; `harts` are the harts that are active. -/
def execHeadsStart (t : Stamp) (harts : List Nat) (s : State) : Host.Outcome State Fault Refusal :=
  runIf (harts.all (fun h => decide (h < 8))) (fun c =>
    let c := c.at t
    if !c.atStep 7 || c.pitch.headsBegun then c
    else
      let c := c.writeHeld 2
      let c := forN 32 (fun h c => if c.bit (R.hedCtl h) 31 then c.pendCommit h else c) c
      let init := c.sectionBytes 9
      let run := (List.range 8).filter (fun p => (initEntry init p).2 != 0)
      let c := { c with pitch := { c.pitch with headsBegun := true, initRun := run }, mgt := { c.mgt with harts := harts.map (fun h => (h, c.clk, false)) } }
      (c.sendAll ((List.range (c.sections 5).length).map .program)).noteHeads) s

/-- CAMINIT_DONE (R220): the sequence of pipeline `p` has ended, or its write after the first `done` was refused. -/
def execCaminitDone (t : Stamp) (p done : Nat) (refused : Bool) (s : State) : Host.Outcome State Fault Refusal :=
  runIf (decide (p < 8)) (fun c =>
    let c := c.at t
    if !c.pitch.initRun.contains p then c
    else
      let ws := c.initWrites p
      let sent := if refused then ws.take done else ws
      let c := c.sendAll (sent.map (fun w => .cci p (c.fld (R.camCtl p) 20 14) w.1 w.2))
      let c := { c with pitch := { c.pitch with initRun := c.pitch.initRun.filter (fun q => q != p) } }
      let c := if refused then c.event 0x5003 .room [.val 1 p, .val 2 0xFFFF, .val 2 ((ws.getD done (0, [])).1)] else c
      c.noteHeads) s

/-! ### SEAL (R431) -/

/-- R431: the part may seal: HEADS has ended, and the timebase is TETHERED or SEAL_WAIT has passed since. -/
def Chip.mayseal (c : Chip) : Bool :=
  match c.pitch.headsEnd with
  | none => false
  | some x => c.tbState == tbTethered || elapsed c.clk x (c.hdr 22 2 * nsPerS)

/-- R345, R347, R363: at seal the claim is epoch 1 and the rank, a change of claim with its result; of twins the one with the higher rank
becomes LEADER. -/
def Chip.firstClaim (c : Chip) : Chip :=
  let claim := 256 + c.fld R.twnCfg 7 0
  let c := (c.setNat R.twnClaimOwn claim).noteClaim claim
  let c := (c.setWide R.twnResClaimLo R.twnResClaimHi (shortStamp c.clk)).publish R.twnRes
  c.setFld R.twnStat 4 4 (if c.fld R.twnCfg 15 8 < c.fld R.twnCfg 7 0 then 1 else 0)

/-- R416, R431: JTAG is open: fused so, and before seal. -/
def Chip.jtagOpen (c : Chip) : Bool := c.pitch.fuses.debug && !c.isSealed

/-- R431: the xSPI interface reads flash: until seal. -/
def Chip.xspiOpen (c : Chip) : Bool := !c.isSealed

/-- R431: what sealing does, in order. -/
def Chip.doSeal (c : Chip) : Chip :=
  let c := c.cancelAll
  let c := (c.setFld R.pitStat 23 20 8).setFld R.pitStat 31 31 1
  let c := { c with mgt := { c.mgt with sealCrc := crcWindows.map (fun w => (w, c.windowCrc w)) } }
  let c := c.setFld R.muiStat 8 8 1
  let c := if c.twinOn then c.firstClaim else c
  let c := if c.hdr 14 1 / 128 == 1 then
      let svn := max c.pitch.fuses.svn (c.hdr 13 1)
      ({ c with pitch := { c.pitch with fuses := { c.pitch.fuses with svn := svn } } } : Chip).setFld R.pitStat 13 8 (min svn 63)
    else c
  let c := c.event 0x0101 .room ((List.range 7).map (fun i => .val 4 (c.reg (R.pitTimes i)).toNat) ++ [.val 1 c.tbState])
  let c := forN 32 (fun h c => c.syncAudit h) c
  { c.stepEnd 8 with pitch := { c.pitch with sealAt := some c.clk } }

/-- SEAL (R431). -/
def execSealPart (t : Stamp) (s : State) : Host.Outcome State Fault Refusal :=
  runIf true (fun c =>
    let c := (c.at t).noteHeads
    if c.atStep 7 && !c.isSealed && c.mayseal then c.doSeal else c) s

end Sys2Proof.Machine
end

