-- ==== Sys2Proof/Machine/Dispatch.lean ====
section
/-! DEFINITION. Each command and its meaning: one arm per constructor of `Instr`. -/

namespace Sys2Proof.Machine

/-- The effect of a command on everything but the queue. -/
def exec (i : Instr) (s : State) : Host.Outcome State Fault Refusal :=
  match i with
  | .writeRegister t src hart addr data => Sys2Proof.Machine.execWriteRegister t src hart addr data s
  | .snap t src addr => Sys2Proof.Machine.execSnap t src addr s
  | .clearRefusalRecord t => Sys2Proof.Machine.execClearRefusalRecord t s
  | .clearDroppedWriteRecord t => Sys2Proof.Machine.execClearDroppedWriteRecord t s
  | .clearViolationRecord t u => Sys2Proof.Machine.execClearViolationRecord t u s
  | .acknowledge t seq => Sys2Proof.Machine.execAcknowledge t seq s
  | .powerOnHoldEnd t side rails => Sys2Proof.Machine.execPowerOnHoldEnd t side rails s
  | .resetNLow t => Sys2Proof.Machine.execResetNLow t s
  | .resetNRelease t side => Sys2Proof.Machine.execResetNRelease t side s
  | .bootRomStart t link fuses slotA slotB => Sys2Proof.Machine.execBootRomStart t link fuses slotA slotB s
  | .baseFirmwareStart t checked slotB => Sys2Proof.Machine.execBaseFirmwareStart t checked slotB s
  | .trainDone t bad trims loaded => Sys2Proof.Machine.execTrainDone t bad trims loaded s
  | .timeSet t => Sys2Proof.Machine.execTimeSet t s
  | .masterCounterReload t => Sys2Proof.Machine.execMasterCounterReload t s
  | .headsStart t harts => Sys2Proof.Machine.execHeadsStart t harts s
  | .caminitDone t p done refused => Sys2Proof.Machine.execCaminitDone t p done refused s
  | .sealPart t => Sys2Proof.Machine.execSealPart t s
  | .d2dLinkDown t => Sys2Proof.Machine.execD2dLinkDown t s
  | .d2dLinkRetrained t => Sys2Proof.Machine.execD2dLinkRetrained t s
  | .d2dFlitReplay t => Sys2Proof.Machine.execD2dFlitReplay t s
  | .timeBusFullStamp t taps => Sys2Proof.Machine.execTimeBusFullStamp t taps s
  | .watchTapTimeout t diff => Sys2Proof.Machine.execWatchTapTimeout t diff s
  | .headFrameStart t h drift bad => Sys2Proof.Machine.execHeadFrameStart t h drift bad s
  | .elementStateMiss t h e => Sys2Proof.Machine.execElementStateMiss t h e s
  | .headLineStart t h n => Sys2Proof.Machine.execHeadLineStart t h n s
  | .tileFetchComplete t h tx ty e fault => Sys2Proof.Machine.execTileFetchComplete t h tx ty e fault s
  | .headFrameDone t h dsc wb => Sys2Proof.Machine.execHeadFrameDone t h dsc wb s
  | .headEnableWrite t h data => Sys2Proof.Machine.execHeadEnableWrite t h data s
  | .frameBegin t n key => Sys2Proof.Machine.execFrameBegin t n key s
  | .frameFinish t n buf code cause arrival sup missing content => Sys2Proof.Machine.execFrameFinish t n buf code cause arrival sup missing content s
  | .refEvaluation t obs => Sys2Proof.Machine.execRefEvaluation t obs s
  | .qualificationComplete t k => Sys2Proof.Machine.execQualificationComplete t k s
  | .wtrExpire t k => Sys2Proof.Machine.execWtrExpire t k s
  | .lockTimeElapsed t => Sys2Proof.Machine.execLockTimeElapsed t s
  | .dwellEnd t => Sys2Proof.Machine.execDwellEnd t s
  | .holdoverSecond t => Sys2Proof.Machine.execHoldoverSecond t s
  | .serdesLoopLockLoss t err => Sys2Proof.Machine.execSerdesLoopLockLoss t err s
  | .force t src entry => Sys2Proof.Machine.execForce t src entry s
  | .release t src entry => Sys2Proof.Machine.execRelease t src entry s
  | .skipWtr t src entry => Sys2Proof.Machine.execSkipWtr t src entry s
  | .ppsEdge t k edge => Sys2Proof.Machine.execPpsEdge t k edge s
  | .ppsTimeout t k => Sys2Proof.Machine.execPpsTimeout t k s
  | .activityGap t k => Sys2Proof.Machine.execActivityGap t k s
  | .gnssSentence t utcSeconds valid => Sys2Proof.Machine.execGnssSentence t utcSeconds valid s
  | .ptpMessageReceive t p m => Sys2Proof.Machine.execPtpMessageReceive t p m s
  | .announceTimeout t p => Sys2Proof.Machine.execAnnounceTimeout t p s
  | .submit t src sg => Sys2Proof.Machine.execSubmit t src sg s
  | .groupCheckDone t => Sys2Proof.Machine.execGroupCheckDone t s
  | .pegCancel t src sg group => Sys2Proof.Machine.execPegCancel t src sg group s
  | .pegArm t slot => Sys2Proof.Machine.execPegArm t slot s
  | .pegImmediateFire t q block => Sys2Proof.Machine.execPegImmediateFire t q block s
  | .pegExpire t slot => Sys2Proof.Machine.execPegExpire t slot s
  | .ethFrameReceive t fr => Sys2Proof.Machine.execEthFrameReceive t fr s
  | .heldPacketExpire t => Sys2Proof.Machine.execHeldPacketExpire t s
  | .senderAgeOut t n => Sys2Proof.Machine.execSenderAgeOut t n s
  | .frameSkewTimeout t n ts => Sys2Proof.Machine.execFrameSkewTimeout t n ts s
  | .framePacketTimeout t n ts => Sys2Proof.Machine.execFramePacketTimeout t n ts s
  | .legSilenceTimeout t n leg => Sys2Proof.Machine.execLegSilenceTimeout t n leg s
  | .senderReportLapse t n => Sys2Proof.Machine.execSenderReportLapse t n s
  | .subportLinkChange t p sub up => Sys2Proof.Machine.execSubportLinkChange t p sub up s
  | .packetRelease t st => Sys2Proof.Machine.execPacketRelease t st s
  | .claimHeartbeatSend t => Sys2Proof.Machine.execClaimHeartbeatSend t s
  | .senderReportSend t => Sys2Proof.Machine.execSenderReportSend t s
  | .pictureJobBuild t ctx p => Sys2Proof.Machine.execPictureJobBuild t ctx p s
  | .engineJobStart t encode e => Sys2Proof.Machine.execEngineJobStart t encode e s
  | .engineJobEnd t encode e r => Sys2Proof.Machine.execEngineJobEnd t encode e r s
  | .bucketTake t ctx twinRuns => Sys2Proof.Machine.execBucketTake t ctx twinRuns s
  | .arm t src ctx => Sys2Proof.Machine.execArm t src ctx s
  | .cameraFrameStart t p vc => Sys2Proof.Machine.execCameraFrameStart t p vc s
  | .cciWritesDone t p done refused => Sys2Proof.Machine.execCciWritesDone t p done refused s
  | .cciWindowExpire t p done => Sys2Proof.Machine.execCciWindowExpire t p done s
  | .embeddedDataReceive t p vc data headerOk crcOk => Sys2Proof.Machine.execEmbeddedDataReceive t p vc data headerOk crcOk s
  | .csiLineReceive t p l => Sys2Proof.Machine.execCsiLineReceive t p l s
  | .cameraFrameEnd t p vc => Sys2Proof.Machine.execCameraFrameEnd t p vc s
  | .cameraFrameTimeout t p => Sys2Proof.Machine.execCameraFrameTimeout t p s
  | .cameraOutputFinish t p o => Sys2Proof.Machine.execCameraOutputFinish t p o s
  | .cameraSilenceTimeout t p => Sys2Proof.Machine.execCameraSilenceTimeout t p s
  | .fsyncPulse t p => Sys2Proof.Machine.execFsyncPulse t p s
  | .captureFrameBegin t q w h enc bpc10 => Sys2Proof.Machine.execCaptureFrameBegin t q w h enc bpc10 s
  | .captureFrameEnd t q => Sys2Proof.Machine.execCaptureFrameEnd t q s
  | .captureLinkChange t q trained rate lanes video => Sys2Proof.Machine.execCaptureLinkChange t q trained rate lanes video s
  | .captureAuxRequest t q r => Sys2Proof.Machine.execCaptureAuxRequest t q r s
  | .pointFrameProcess t bad => Sys2Proof.Machine.execPointFrameProcess t bad s
  | .feederResyncTimeout t f => Sys2Proof.Machine.execFeederResyncTimeout t f s
  | .sweepStart t => Sys2Proof.Machine.execSweepStart t s
  | .sweepEnd t => Sys2Proof.Machine.execSweepEnd t s
  | .start t src u => Sys2Proof.Machine.execStart t src u s
  | .finish t src u => Sys2Proof.Machine.execFinish t src u s
  | .resetAlive t src u => Sys2Proof.Machine.execResetAlive t src u s
  | .feedByte t src u data => Sys2Proof.Machine.execFeedByte t src u data s
  | .feedHalfWord t src u data => Sys2Proof.Machine.execFeedHalfWord t src u data s
  | .feedWord t src u data => Sys2Proof.Machine.execFeedWord t src u data s
  | .chkCfgWrite t src u data => Sys2Proof.Machine.execChkCfgWrite t src u data s
  | .glyphMiss t h e => Sys2Proof.Machine.execGlyphMiss t h e s
  | .commitRequest t src h => Sys2Proof.Machine.execCommitRequest t src h s
  | .commitCancel t src h => Sys2Proof.Machine.execCommitCancel t src h s
  | .hpdHighDebounce t p rate lanes edid => Sys2Proof.Machine.execHpdHighDebounce t p rate lanes edid s
  | .dpTrainingDone t p good denied => Sys2Proof.Machine.execDpTrainingDone t p good denied s
  | .irqHpd t p lost mst => Sys2Proof.Machine.execIrqHpd t p lost mst s
  | .hpdLowTimeout t p => Sys2Proof.Machine.execHpdLowTimeout t p s
  | .dpRetryTimeout t p => Sys2Proof.Machine.execDpRetryTimeout t p s
  | .retrain t src p => Sys2Proof.Machine.execRetrain t src p s
  | .scanFrameStart t h => Sys2Proof.Machine.execScanFrameStart t h s
  | .scanFrameEnd t h d => Sys2Proof.Machine.execScanFrameEnd t h d s
  | .frequencyHop t h => Sys2Proof.Machine.execFrequencyHop t h s
  | .noiseTimeout t h => Sys2Proof.Machine.execNoiseTimeout t h s
  | .longTouch t h id => Sys2Proof.Machine.execLongTouch t h id s
  | .calibrationDone t h => Sys2Proof.Machine.execCalibrationDone t h s
  | .selftest t src h => Sys2Proof.Machine.execSelftest t src h s
  | .selftestDone t h => Sys2Proof.Machine.execSelftestDone t h s
  | .recal t src h => Sys2Proof.Machine.execRecal t src h s
  | .driveRailChange t h low => Sys2Proof.Machine.execDriveRailChange t h low s
  | .touchReportWrite t => Sys2Proof.Machine.execTouchReportWrite t s
  | .pointerHoldExpire t h => Sys2Proof.Machine.execPointerHoldExpire t h s
  | .bolLinkChange t lock => Sys2Proof.Machine.execBolLinkChange t lock s
  | .flitReceive t flit => Sys2Proof.Machine.execFlitReceive t flit s
  | .nakReceive t counter => Sys2Proof.Machine.execNakReceive t counter s
  | .tick t => Sys2Proof.Machine.execTick t s
  | .splitTimeout t => Sys2Proof.Machine.execSplitTimeout t s
  | .heartbeatReceive t msg => Sys2Proof.Machine.execHeartbeatReceive t msg s
  | .noticeReceive t msg => Sys2Proof.Machine.execNoticeReceive t msg s
  | .noticeLostwaitExpire t n key => Sys2Proof.Machine.execNoticeLostwaitExpire t n key s
  | .frameEligible t n buf => Sys2Proof.Machine.execFrameEligible t n buf s
  | .mirrorReceive t msg bad => Sys2Proof.Machine.execMirrorReceive t msg bad s
  | .mirrorApply t bad => Sys2Proof.Machine.execMirrorApply t bad s
  | .recordReceive t msg => Sys2Proof.Machine.execRecordReceive t msg s
  | .sigxReceive t msg => Sys2Proof.Machine.execSigxReceive t msg s
  | .seqReceive t msg => Sys2Proof.Machine.execSeqReceive t msg s
  | .timeExchangeStart t depart => Sys2Proof.Machine.execTimeExchangeStart t depart s
  | .timeRequestReceive t msg depart => Sys2Proof.Machine.execTimeRequestReceive t msg depart s
  | .timeReplyReceive t msg => Sys2Proof.Machine.execTimeReplyReceive t msg s
  | .yield t src => Sys2Proof.Machine.execYield t src s
  | .memoryRequest t a => Sys2Proof.Machine.execMemoryRequest t a s
  | .memoryReadComplete t n ecc => Sys2Proof.Machine.execMemoryReadComplete t n ecc s
  | .refreshDue t n bank => Sys2Proof.Machine.execRefreshDue t n bank s
  | .mr4Poll t n code => Sys2Proof.Machine.execMr4Poll t n code s
  | .scrubRead t n ofs ecc => Sys2Proof.Machine.execScrubRead t n ofs ecc s
  | .holdTimeout t => Sys2Proof.Machine.execHoldTimeout t s
  | .budgetOverrun t g => Sys2Proof.Machine.execBudgetOverrun t g s
  | .oscTrackRead t n want => Sys2Proof.Machine.execOscTrackRead t n want s
  | .trainingRun t src n => Sys2Proof.Machine.execTrainingRun t src n s
  | .trainingStop t src n errors => Sys2Proof.Machine.execTrainingStop t src n errors s
  | .trainingRunDone t n errors => Sys2Proof.Machine.execTrainingRunDone t n errors s
  | .trimWriteApply t n => Sys2Proof.Machine.execTrimWriteApply t n s
  | .apply t src u => Sys2Proof.Machine.execApply t src u s
  | .applyTags t src => Sys2Proof.Machine.execApplyTags t src s
  | .accessDrainComplete t u => Sys2Proof.Machine.execAccessDrainComplete t u s
  | .tagCopyDone t => Sys2Proof.Machine.execTagCopyDone t s
  | .recallLayout t src n => Sys2Proof.Machine.execRecallLayout t src n s
  | .preset t src n => Sys2Proof.Machine.execPreset t src n s
  | .policyAction t => Sys2Proof.Machine.execPolicyAction t s
  | .eventRecordWrite t => Sys2Proof.Machine.execEventRecordWrite t s
  | .rateLimitWindowEnd t code unit => Sys2Proof.Machine.execRateLimitWindowEnd t code unit s
  | .mgtRead t msg saddr sport => Sys2Proof.Machine.execMgtRead t msg saddr sport s
  | .mgtWrite t msg saddr sport => Sys2Proof.Machine.execMgtWrite t msg saddr sport s
  | .mgtRecall t msg saddr sport => Sys2Proof.Machine.execMgtRecall t msg saddr sport s
  | .mgtPreset t msg saddr sport => Sys2Proof.Machine.execMgtPreset t msg saddr sport s
  | .smbBlockWrite t adr ofs data pec => Sys2Proof.Machine.execSmbBlockWrite t adr ofs data pec s
  | .smbSetPointer t adr ofs pec => Sys2Proof.Machine.execSmbSetPointer t adr ofs pec s
  | .smbBlockRead t adr pec => Sys2Proof.Machine.execSmbBlockRead t adr pec s
  | .watchdogSignal t hart => Sys2Proof.Machine.execWatchdogSignal t hart s
  | .watchdogExpire t hart => Sys2Proof.Machine.execWatchdogExpire t hart s
  | .healthCheck t limits => Sys2Proof.Machine.execHealthCheck t limits s
  | .monitorRefresh t slacks temps rails => Sys2Proof.Machine.execMonitorRefresh t slacks temps rails s
  | .roMeasure t counts => Sys2Proof.Machine.execRoMeasure t counts s
  | .avsStep t slack => Sys2Proof.Machine.execAvsStep t slack s
  | .avsFloorTimeout t => Sys2Proof.Machine.execAvsFloorTimeout t s
  | .dramMarginSweep t n rd wr rv wv => Sys2Proof.Machine.execDramMarginSweep t n rd wr rv wv s
  | .eyeMeasure t l height width near => Sys2Proof.Machine.execEyeMeasure t l height width near s
  | .plan t => Sys2Proof.Machine.execPlan t s
  | .remeasureDone t id margin => Sys2Proof.Machine.execRemeasureDone t id margin s
  | .flySheetPanic t h => Sys2Proof.Machine.execFlySheetPanic t h s
  | .captureLineReceive t q px fill => Sys2Proof.Machine.execCaptureLineReceive t q px fill s

end Sys2Proof.Machine
end

