-- ==== Sys2Proof/Safety.lean ====
section
/-! DEFINITION. The terms in which claims about the block are stated: what a command answers, which registers and bytes it
writes, which events it raises, and the canonical form of the memories. -/

namespace Sys2Proof.Machine

/-- The command answers a next state: the queue is as before and what `P` says holds of the part. -/
def Answers (i : Instr) (s : State) (P : Chip → Prop) : Prop :=
  ∃ t : State, exec i s = .next t ∧ t.pending = s.pending ∧ P t.chip

/-- The command answers the state whose part is `c`, with the queue as before. -/
def Gives (i : Instr) (s : State) (c : Chip) : Prop := exec i s = .next { s with chip := c }

/-- From `c` to `c'` no register outside the list has changed, and no byte of DRAM or of the table windows. -/
def Chip.writesOnly (c c' : Chip) (written : List Nat) : Prop :=
  (∀ a : Nat, a ∉ written → c'.reg a = c.reg a) ∧
    (∀ o : Nat, mapGet dramDefault c'.dram o = mapGet dramDefault c.dram o) ∧
    (∀ o : Nat, mapGet tbwDefault c'.tbw o = mapGet tbwDefault c.tbw o)

/-- From `c` to `c'` no register outside the list has changed; memory may have. -/
def Chip.regsOnly (c c' : Chip) (written : List Nat) : Prop := ∀ a : Nat, a ∉ written → c'.reg a = c.reg a

/-- From `c` to `c'` no byte of DRAM outside the `len` bytes from physical address `start` on has changed. -/
def Chip.dramOnly (c c' : Chip) (start len : Nat) : Prop :=
  ∀ o : Nat, (o + dramBase < start ∨ start + len ≤ o + dramBase) → mapGet dramDefault c'.dram o = mapGet dramDefault c.dram o

/-- As `writesOnly`, but the `len` bytes of DRAM from physical address `start` on may have changed. -/
def Chip.storesOnly (c c' : Chip) (written : List Nat) (start len : Nat) : Prop :=
  (∀ a : Nat, a ∉ written → c'.reg a = c.reg a) ∧
    (∀ o : Nat, (o + dramBase < start ∨ start + len ≤ o + dramBase) → mapGet dramDefault c'.dram o = mapGet dramDefault c.dram o) ∧
    (∀ o : Nat, mapGet tbwDefault c'.tbw o = mapGet tbwDefault c.tbw o)

/-- The registers that raising an event writes: the backlog in `EVJ_STAT` and the count of dropped events (R448, R456). -/
def eventRegs : List Nat := [R.evjStat, R.evjCnt 1]

/-- The registers in which a refused command at register `a` is reported (R17, R132, R433). -/
def refusalRegs (a : Nat) : List Nat :=
  [R.pitRefcnt (windowOf a), R.pegRefuse, R.pitRef, R.pitRefAddr, R.pitRefData, R.pitRefStampLo, R.pitRefStampHi] ++ eventRegs

/-- The registers in which a dropped write is reported (R434). -/
def dropRegs : List Nat := [R.pitSwrCount, R.pitSwr] ++ eventRegs

/-- From `c` to `c'` exactly these events have been raised: they stand at the end of the watch cores' queue, in their order, as
far as the queue has room for them (R448: an event raised while the queue is full is dropped). -/
def Chip.raises (c c' : Chip) (l : List Ev) : Prop := c'.evq = c.evq ++ l.take (evqCap - c.evq.length)

/-- R17, R132, R433: from `c` to `c'` a command of `src`, the write of `data` to register `a`, has been refused at `t` for a cause: its
window's refusal count has advanced (and `PEG_REFUSE` with a command of the peg engine); an empty refusal record is filled, with event
0x0108, and a full one stays; nothing else is written. -/
def Chip.refused (c c' : Chip) (t : Stamp) (src : Source) (a : Nat) (data : Word) (cause : Nat) : Prop :=
  (c'.reg (R.pitRefcnt (windowOf a))).toNat = min ((c.reg (R.pitRefcnt (windowOf a))).toNat + 1) (2 ^ 32 - 1) ∧
    c'.bit R.pitRef 31 = true ∧
    (c.bit R.pitRef 31 = false → c'.fld R.pitRef 26 24 = srcCode src ∧ c'.fld R.pitRef 19 16 = cause % 16 ∧
      c'.reg R.pitRefData = data ∧ c.raises c' [⟨0x0108, .room, t, [.val 4 (wordOfs a), .val 4 data.toNat, .val 1 (srcCode src),
        .val 1 cause, .val 8 (shortStamp t)]⟩]) ∧
    (c.bit R.pitRef 31 = true → c'.fld R.pitRef 30 0 = c.fld R.pitRef 30 0 ∧ c.raises c' []) ∧ c.writesOnly c' (refusalRegs a)

/-- R138, R164: the legs of stream `st` whose sub-port exists, on each of which a message of the stream leaves. -/
def Chip.legsOn (c : Chip) (st : Nat) : Nat :=
  ((List.range (if c.bit (R.netTx st) 30 = true then 2 else 1)).filter (fun l => c.subportOn (c.fld (R.netTxLeg st l) 31 31)
    (c.subOf (c.fld (R.netTxLeg st l) 31 31) (c.fld (R.netTxLeg st l) 30 29)))).length

/-- R139: the TX_OK counters of the sub-ports of stream `st`'s legs. -/
def Chip.legCounts (c : Chip) (st : Nat) : List Nat :=
  (List.range 2).map (fun l => R.netCnt (c.fld (R.netTxLeg st l) 31 31)
    (c.subOf (c.fld (R.netTxLeg st l) 31 31) (c.fld (R.netTxLeg st l) 30 29)) 3)

/-- R307: the streams that port `p` carries are, in ascending order, those whose head runs, whose allocation the topology does not
refuse and whose bandwidth fits in what the streams before leave of the port's room. -/
def Chip.carriesWhatFits (c : Chip) (p : Nat) : Prop :=
  ∀ st, st < (if c.bit (R.dptCtl p) 30 then 4 else 1) →
    (c.bit (R.dptStat p) (16 + st) = true ↔ (c.streamHead p st).any (fun h => !(c.port p).denied.contains st &&
      decide ((((List.range st).filter (fun j => c.bit (R.dptStat p) (16 + j))).map
        (fun j => ((c.streamHead p j).map (c.streamCost p)).getD 0)).sum + c.streamCost p h ≤ c.portRoom p)) = true)

/-- The touch report that waits for the die-to-die link as this message, if it is one (R24, R331). -/
def D2dMsg.reports : D2dMsg → List TouchReport
  | .report r => [r]
  | _ => []

/-- R24: from `c` to `c'` a message has joined the queue of its direction (`q` before, `q'` now), which had room for it, or has been
discarded and counted. -/
def Chip.queued (c c' : Chip) (q q' : List D2dMsg) (m : D2dMsg) : Prop :=
  if q.length < 256 then q' = q ++ [m] ∧ c'.reg R.sysD2dStat = c.reg R.sysD2dStat ∧ c'.d2dLost = c.d2dLost
  else q' = q ∧ c'.fld R.sysD2dStat 15 0 = min 65535 (c.fld R.sysD2dStat 15 0 + 1) ∧ c'.d2dLost = c.d2dLost + 1

/-- The registers in which check unit `u` shows what closing a message found, and its counts (R254). -/
def checkRegs (u : Nat) : List Nat :=
  [R.chkRes u, R.chkResAlive u, R.chkResLength u, R.chkResCheckLo u, R.chkResCheckHi u, R.chkCnt u 0, R.chkCnt u 1, R.chkCnt u 2]

/-- R340, R341: the flit in which a flit body leaves next: check unit 2's counter, the body and the unit's CRC. -/
def Chip.flitOf (c : Chip) (body : List Byte) : List Byte :=
  leBytes 2 (c.chkRun 2 body).2.alive ++ body ++ leBytes 4 (c.chkRun 2 body).2.check

/-- Base firmware's stager is free, and no group or cancel of base firmware waits for it (R513). -/
def Chip.stagerIdle (c : Chip) : Prop :=
  c.bit (R.pegStgCount 0) 31 = false ∧ c.peg.fwNow = none ∧ c.peg.fwNext = [] ∧ c.peg.fwCancel = []

/-- The registers that submitting a group of base firmware writes: the result of `PIT_CMD`, and stager 0 (R122, R437). -/
def fwRegs : List Nat :=
  [R.pitRes, R.pegStgCount 0, R.pegStgRes 0] ++ (List.range 64).flatMap (fun i =>
    [R.pegBufW0 0 i, R.pegBufW1 0 i, R.pegBufW2 0 i, R.pegBufW3 0 i, R.pegBufW4 0 i] ++
      (List.range 32).flatMap (fun j => [R.pegBufAddr 0 i j, R.pegBufData 0 i j]))

/-- R437: the group with which RECALL of the layout body `b` at launch time `T` commits: a commit peg on the queue of each head of the
mask, from a part whose shadows hold the layout. -/
def Chip.recallGroup (c : Chip) (t : Stamp) (b : List Byte) (T : Stamp) : FwGroup :=
  let c := (c.at t).writeLayout (layoutOf b)
  { group := c.pitNumber, use := .recall, pegs := c.commitPegs (layoutOf b).mask (c.launchTime T) }

/-- R437: the group in which PRESET of the body `b` at launch time `T` submits its writes. -/
def Chip.presetGroup (c : Chip) (t : Stamp) (b : List Byte) (T : Stamp) : FwGroup :=
  { group := c.pitNumber, use := .preset, pegs := presetPegs b ((c.at t).launchTime T) }

/-- R19, R437: from `c` to `c'` a RECALL or PRESET has submitted its group, which is in check or waits for the stager, and its result is
awaited (a group without pegs that waited before it is refused at once when the stager is free, and shows its own result). -/
def Chip.submitted (c c' : Chip) (g : FwGroup) : Prop :=
  g ∈ c'.peg.fwNow.toList ++ c'.peg.fwNext ∧ (g.use = .recall → g.group ∈ c'.peg.recalls) ∧
    (c.peg.fwNext.all (fun g => !g.pegs.isEmpty) = true → c'.bit R.pitRes 31 = false)

/-- R437: entry `k` of a shadow table after RECALL: the layout's last record of that number, else the entry as it was, with EN = 0
where `off` says that the layout disables it. -/
def Chip.shadowAfter (c c' : Chip) (place : Nat → Nat) (recs : List (Nat × List Byte)) (off : Bool) (k : Nat) : Prop :=
  c'.tbwBytes (place k) 32 = match recs.reverse.find? (fun r => r.1 == k) with
    | some r => r.2
    | none => if off then leBytes 4 (c.tbwNat (place k) 4 % 2 ^ 31) ++ c.tbwBytes (place k + 4) 28 else c.tbwBytes (place k) 32

/-- R437: element, window descriptor and region number `k` of the shadows after RECALL of a layout: what the layout gives them; an
entry or region that is enabled on a head of the mask and absent from the layout has EN = 0; every other one is as before. -/
def Chip.layoutTaken (c c' : Chip) (y : LayoutData) (k : Nat) : Prop :=
  (k < 524288 → c.shadowAfter c' twElem y.elems ((c.shadowElem k).en && inMask y.mask (c.shadowElem k).head) k) ∧
    (k < 4096 → c.shadowAfter c' twWindow y.descs false k) ∧
    (k < 1024 → c.shadowAfter c' twRegion y.regions ((c.shadowRegion k).en && inMask y.mask (c.shadowRegion k).head) k)

/-- R442, R444: the response to a management message: its key, sequence number and operation + 0x80, the part's short stamp, 8 bytes
for each item, and the tag under the key, to the address and port that the message came from. -/
def Chip.mgtReply (c : Chip) (t : Stamp) (m key : List Byte) (a p : Nat) (items : List (Nat × Nat)) : TxMsg :=
  let body := m.take 12 ++ leBytes 8 (shortStamp t) ++ [BitVec.ofNat 8 (leAt m 20 1 + 0x80), BitVec.ofNat 8 items.length, 0, 0] ++
    items.flatMap (fun e => leBytes 1 e.1 ++ [0, 0, 0] ++ leBytes 4 e.2)
  .mgt (c.bit R.mgtCtl 30) a p (body ++ hmac key body)

/-- R442: IP version, address, port, first 12 bytes, operation and count of a management message that is sent. -/
def TxMsg.mgtHead : TxMsg → Option (Bool × Nat × Nat × List Byte × Nat × Nat)
  | .mgt v6 a p l => some (v6, a, p, l.take 12, leAt l 20 1, leAt l 21 1)
  | _ => none

/-- R443: from `c` to `c'` a management message has failed a test at `t`: it is counted by the test's counter, event 0x0201 is raised at
most once per second, and there is no response. -/
def Chip.mgtFailed (c c' : Chip) (t : Stamp) (m : List Byte) (fail : Nat) : Prop :=
  let last := (mapGet rateDefault c.rate (rateKey 0x0201 0)).last
  c'.mgt = c.mgt ∧ c'.tx = c.tx ∧ (c'.reg (R.mgtCnt fail)).toNat = min ((c.reg (R.mgtCnt fail)).toNat + 1) (2 ^ 32 - 1) ∧
    (last = none → c.raises c' [⟨0x0201, .room, t, [.val 4 fail, .val 1 (leAt m 3 1), .val 4 1]⟩]) ∧
    (last.any (fun l => !elapsed t l nsPerS) = true → c.raises c' []) ∧ c.writesOnly c' (R.mgtCnt fail :: eventRegs)

/-- R443, R444: from `c` to `c'` a management message has been accepted and answered with these items, the last message sent: it is
counted, and its sequence number is its key's last one. -/
def Chip.mgtServed (c c' : Chip) (t : Stamp) (m : List Byte) (a p : Nat) (items : List (Nat × Nat)) : Prop :=
  c'.mgt.seqs = (leAt m 3 1, leAt m 4 8) :: c.mgt.seqs.filter (fun e => e.1 != leAt m 3 1) ∧
    (c'.reg (R.mgtCnt 0)).toNat = min ((c.reg (R.mgtCnt 0)).toNat + 1) (2 ^ 32 - 1) ∧
    (c.mgt.keys.find? (fun e => e.1 == leAt m 3 1)).any (fun e => c'.tx.getLast? == some (c.mgtReply t m e.2 a p items)) = true

/-- R444, R445: from `c` to `c'` an item has written `w` to the plain register at `a`, field by field as R15 says. -/
def Chip.itemWritten (c c' : Chip) (t : Stamp) (a : Nat) (w : Word) : Prop := c'.reg a = ((c.at t).writeFields a w).reg a

/-- R15, R434: the register at `a` drops a write of `w`. -/
def Chip.dropsWrite (c : Chip) (a : Nat) (w : Word) : Bool := (descAt a).any (fun d => d.1.drops c.isSealed (c.reg a) w)

/-- R473, R474: the change that reverses `x`, whose register holds `now`: the bits that it moved go back to what they were. -/
def Change.reverse (x : Change) (now : Word) (id : Nat) (launch : Stamp) (margin : Int) : Change :=
  ⟨id, x.domain, x.unit, x.reg, now, (now &&& ~~~(x.old ^^^ x.new)) ||| (x.old &&& (x.old ^^^ x.new)), 0xE000 + id % 0x1000, launch,
    margin, true, false⟩

/-- R463: the eye of a bit among its error counts, of which the one of offset 0 stands at place `half`: none where offset 0 shows errors,
else the run of offsets around 0 that show none. -/
def isEye (half : Nat) (errors : List Nat) (eye : Option (Int × Int)) : Bool :=
  if errors.getD half 0 != 0 then eye.isNone
  else eye.any (fun e =>
    let lo := ((half : Int) + e.1).toNat
    let hi := ((half : Int) + e.2).toNat
    decide (e.1 ≤ 0) && decide (0 ≤ e.2) && decide (0 ≤ (half : Int) + e.1) && decide (hi < errors.length) &&
      (List.range (hi + 1)).all (fun k => decide (k < lo) || errors.getD k 0 == 0) &&
      (lo == 0 || errors.getD (lo - 1) 0 != 0) && (hi + 1 == errors.length || errors.getD (hi + 1) 0 != 0))

/-- The access's protection unit lets it pass: the unit is not enabled, or finds no cause (R399, R400). -/
def Chip.passes (c : Chip) (a : Access) : Prop := c.pruCtlNow a.unit / 2 ^ 31 % 2 = 0 ∨ c.checkCause a = 0

/-- The access of a control core's hart, through protection unit 0, by which a register is written. -/
def coreWrite (src : Source) (hart addr : Nat) (data : List Byte) : Access :=
  ⟨0, hart, src == .user, 1, 8, 0, addr, data.length, data, 0⟩

/-- The register file, the DRAM, the table windows and the current element table are in canonical form: addresses (and element
numbers) rising, and no entry that equals what an unlisted address reads as. -/
def Chip.canonical (c : Chip) : Prop :=
  mapWf resetWord c.regs ∧ mapWf dramDefault c.dram ∧ mapWf tbwDefault c.tbw ∧ mapWf zeroEntry c.curElem

/-- `n` steps of the block, none where one of them stops. -/
def runs : Nat → State → Option State
  | 0, s => some s
  | n + 1, s => match step s with
    | .next t => runs n t
    | _ => none

end Sys2Proof.Machine
end

