-- ==== Sys2Proof/WellFormed.lean ====
section
/-! DEFINITION. Which commands are well formed: their operands name units, ports, contexts, buffers and entries that the part
has, and their messages have the lengths that their formats give. -/

namespace Sys2Proof

open Sys2Proof.Machine

/-- The number in `n` little-endian bytes at offset `o` of a message. -/
def msgNat (l : List Byte) (o n : Nat) : Nat := leNat ((l.drop o).take n)

/-- An access of a shape that an initiator issues (R385, R393, R401): 24 protection units, reads, writes and fetches, up to
the end of a 64-byte line, a 40-bit address, a hart of unit 0 among 8, one of 10 memory groups, and a write's bytes. -/
def accessShape (a : Access) : Bool :=
  decide (a.unit < 24) && decide (a.kind < 3) && decide (0 < a.len) && decide (a.addr % 64 + a.len ≤ 64) &&
    decide (a.addr < 2 ^ 40) && decide (a.source < 32) && (a.unit != 0 || decide (a.source < 8)) && decide (a.group < 10) &&
    (a.kind != 1 || a.data.length == a.len) && decide (a.rmw < 3)

/-- A command is well formed where its operands name what the part has; a command that is not stops with the fault
`noSuchUnit`. -/
def Instr.wellFormed (i : Instr) : Bool :=
  match i with
  | .writeRegister _ src hart addr data => accessShape ⟨0, hart, src == .user, 1, 6, 0, addr, data.length, data, 0⟩
  | .snap _ _ addr => (snapScope addr).isSome
  | .clearRefusalRecord _ => true
  | .clearDroppedWriteRecord _ => true
  | .clearViolationRecord _ u => decide (u < 24)
  | .acknowledge _ _ => true
  | .powerOnHoldEnd _ side rails => decide (side < 2) && decide (rails.length = 12)
  | .resetNLow _ => true
  | .resetNRelease _ side => decide (side < 2)
  | .bootRomStart _ _ _ _ _ => true
  | .baseFirmwareStart _ _ _ => true
  | .trainDone _ bad trims _ => bad.all (fun b => decide (b.1 < 16) && decide (1 ≤ b.2) && decide (b.2 ≤ 6)) && trims.all (fun x => decide (x.1 < 16) && decide (x.2.1 < 20))
  | .timeSet _ => true
  | .masterCounterReload _ => true
  | .headsStart _ harts => harts.all (fun h => decide (h < 8))
  | .caminitDone _ p _ _ => decide (p < 8)
  | .sealPart _ => true
  | .d2dLinkDown _ => true
  | .d2dLinkRetrained _ => true
  | .d2dFlitReplay _ => true
  | .timeBusFullStamp _ taps => taps.all (fun e => decide (e.1 < 71))
  | .watchTapTimeout _ _ => true
  | .headFrameStart _ h _ _ => decide (h < 32)
  | .elementStateMiss _ h e => decide (h < 32) && decide (e < 524288)
  | .headLineStart _ h _ => decide (h < 32)
  | .tileFetchComplete _ h _ _ _ _ => decide (h < 32)
  | .headFrameDone _ h _ wb => decide (h < 32) && decide (wb < 3)
  | .headEnableWrite _ h _ => decide (h < 32)
  | .frameBegin _ n _ => decide (n < 256)
  | .frameFinish _ n i code cause _ _ _ _ => decide (n < 256) && decide (i < 32) && decide (2 ≤ code) && decide (code ≤ 6) && decide (cause < 16)
  | .refEvaluation _ _ => true
  | .qualificationComplete _ k => decide (k < 7)
  | .wtrExpire _ k => decide (k < 7)
  | .lockTimeElapsed _ => true
  | .dwellEnd _ => true
  | .holdoverSecond _ => true
  | .serdesLoopLockLoss _ _ => true
  | .force _ _ entry => decide (entry < 8)
  | .release _ _ entry => decide (entry < 8)
  | .skipWtr _ _ entry => decide (entry < 8)
  | .ppsEdge _ k _ => decide (3 ≤ k) && decide (k ≤ 5)
  | .ppsTimeout _ k => decide (3 ≤ k) && decide (k ≤ 5)
  | .activityGap _ k => k == 3 || k == 4 || k == 6
  | .gnssSentence _ _ _ => true
  | .ptpMessageReceive _ p _ => decide (p < 2)
  | .announceTimeout _ p => decide (p < 2)
  | .submit _ _ sg => decide (sg < 3)
  | .groupCheckDone _ => true
  | .pegCancel _ _ sg group => decide (sg < 3) && decide (group < 65536)
  | .pegArm _ i => decide (i < 4096)
  | .pegImmediateFire _ q _ => decide (85 ≤ q) && decide (q < 96)
  | .pegExpire _ i => decide (i < 4096)
  | .ethFrameReceive _ fr => decide (fr.port < 3) && decide (fr.sub < 4)
  | .heldPacketExpire _ => true
  | .senderAgeOut _ n => decide (n < 256)
  | .frameSkewTimeout _ n _ => decide (n < 256)
  | .framePacketTimeout _ n _ => decide (n < 256)
  | .legSilenceTimeout _ n leg => decide (n < 256) && decide (leg < 2)
  | .senderReportLapse _ n => decide (n < 256)
  | .subportLinkChange _ p sub _ => decide (p < 2) && decide (sub < 4)
  | .packetRelease _ st => decide (st < 32)
  | .claimHeartbeatSend _ => true
  | .senderReportSend _ => true
  | .pictureJobBuild _ ctx _ => decide (ctx < 256)
  | .engineJobStart _ encode e => decide (e < if encode then 4 else 8)
  | .engineJobEnd _ encode e r => decide (e < if encode then 4 else 8) && decide (r.cause < 16) && r.cause &&& 2 == 0
  | .bucketTake _ ctx _ => decide (ctx < 32)
  | .arm _ _ ctx => decide (ctx < 32)
  | .cameraFrameStart _ p _ => decide (p < 8)
  | .cciWritesDone _ p _ _ => decide (p < 8)
  | .cciWindowExpire _ p _ => decide (p < 8)
  | .embeddedDataReceive _ p _ _ _ _ => decide (p < 8)
  | .csiLineReceive _ p _ => decide (p < 8)
  | .cameraFrameEnd _ p _ => decide (p < 8)
  | .cameraFrameTimeout _ p => decide (p < 8)
  | .cameraOutputFinish _ p o => decide (p < 8) && decide (o < 3)
  | .cameraSilenceTimeout _ p => decide (p < 8)
  | .fsyncPulse _ p => decide (p < 8)
  | .captureFrameBegin _ q w h enc _ => decide (q < 4) && decide (w < 65536) && decide (h < 65536) && decide (enc < 3)
  | .captureFrameEnd _ q => decide (q < 4)
  | .captureLinkChange _ q _ rate lanes _ => decide (q < 4) && decide (rate < 5) && decide (lanes < 3)
  | .captureAuxRequest _ q _ => decide (q < 4)
  | .pointFrameProcess _ _ => true
  | .feederResyncTimeout _ f => decide (f < 256)
  | .sweepStart _ => true
  | .sweepEnd _ => true
  | .start _ _ u => decide (u < 16)
  | .finish _ _ u => decide (u < 16)
  | .resetAlive _ _ u => decide (u < 16)
  | .feedByte _ _ u _ => decide (u < 16)
  | .feedHalfWord _ _ u _ => decide (u < 16)
  | .feedWord _ _ u _ => decide (u < 16)
  | .chkCfgWrite _ _ u _ => decide (u < 16)
  | .glyphMiss _ h e => decide (h < 32) && decide (e < 524288)
  | .commitRequest _ _ h => decide (h < 32)
  | .commitCancel _ _ h => decide (h < 32)
  | .hpdHighDebounce _ p _ _ _ => decide (p < 8)
  | .dpTrainingDone _ p _ _ => decide (p < 8)
  | .irqHpd _ p _ _ => decide (p < 8)
  | .hpdLowTimeout _ p => decide (p < 8)
  | .dpRetryTimeout _ p => decide (p < 8)
  | .retrain _ _ p => decide (p < 8)
  | .scanFrameStart _ h => decide (h < 4)
  | .scanFrameEnd _ h _ => decide (h < 4)
  | .frequencyHop _ h => decide (h < 4)
  | .noiseTimeout _ h => decide (h < 4)
  | .longTouch _ h _ => decide (h < 4)
  | .calibrationDone _ h => decide (h < 4)
  | .selftest _ _ h => decide (h < 4)
  | .selftestDone _ h => decide (h < 4)
  | .recal _ _ h => decide (h < 4)
  | .driveRailChange _ h _ => decide (h < 4)
  | .touchReportWrite _ => true
  | .pointerHoldExpire _ h => decide (h < 4)
  | .bolLinkChange _ lock => decide (lock < 16)
  | .flitReceive _ flit => decide (flit.length = 64)
  | .nakReceive _ counter => decide (counter < 65536)
  | .tick _ => true
  | .splitTimeout _ => true
  | .heartbeatReceive _ msg => decide (msg.length = 24)
  | .noticeReceive _ msg => decide (msg.length = 32)
  | .noticeLostwaitExpire _ n _ => decide (n < 256)
  | .frameEligible _ n i => decide (n < 256) && decide (i < 32)
  | .mirrorReceive _ msg _ => decide (44 ≤ msg.length)
  | .mirrorApply _ _ => true
  | .recordReceive _ msg => decide (msg.length = 4 + 36 * msgNat msg 0 2) && decide (msgNat msg 0 2 ≤ 32)
  | .sigxReceive _ msg => decide (msg.length = 24 + 8 * msgNat msg 2 2) && decide (msgNat msg 0 1 < 32)
  | .seqReceive _ msg => decide (msg.length = 16) && decide (msgNat msg 0 1 < 32)
  | .timeExchangeStart _ _ => true
  | .timeRequestReceive _ msg _ => decide (msg.length = 32)
  | .timeReplyReceive _ msg => decide (msg.length = 32)
  | .yield _ _ => true
  | .memoryRequest _ a => accessShape a
  | .memoryReadComplete _ n ecc => decide (n < 16) && decide (ecc < 3)
  | .refreshDue _ n bank => decide (n < 16) && decide (bank < 16)
  | .mr4Poll _ n code => decide (n < 16) && decide (code < 32)
  | .scrubRead _ n _ ecc => decide (n < 16) && decide (ecc < 3)
  | .holdTimeout _ => true
  | .budgetOverrun _ g => decide (g < 10)
  | .oscTrackRead _ n _ => decide (n < 16)
  | .trainingRun _ _ n => decide (n < 16)
  | .trainingStop _ _ n _ => decide (n < 16)
  | .trainingRunDone _ n _ => decide (n < 16)
  | .trimWriteApply _ n => decide (n < 16)
  | .apply _ _ u => decide (u < 24)
  | .applyTags _ _ => true
  | .accessDrainComplete _ u => match u with | some u => decide (u < 24) | none => true
  | .tagCopyDone _ => true
  | .recallLayout _ _ n => decide (n < 4096)
  | .preset _ _ n => decide (n < 4096)
  | .policyAction _ => true
  | .eventRecordWrite _ => true
  | .rateLimitWindowEnd _ _ _ => true
  | .mgtRead _ _ _ _ => true
  | .mgtWrite _ _ _ _ => true
  | .mgtRecall _ _ _ _ => true
  | .mgtPreset _ _ _ _ => true
  | .smbBlockWrite _ _ ofs _ _ => decide (ofs < 2 ^ 32)
  | .smbSetPointer _ _ ofs _ => decide (ofs < 2 ^ 32)
  | .smbBlockRead _ _ _ => true
  | .watchdogSignal _ hart => decide (hart < 8)
  | .watchdogExpire _ hart => decide (hart < 8)
  | .healthCheck _ limits => limits.all (fun l => decide (60 ≤ l.1) && decide (l.1 < 96))
  | .monitorRefresh _ slacks temps rails => decide (slacks.length = 16) && decide (temps.length = 24) && decide (rails.length = 12)
  | .roMeasure _ counts => decide (counts.length = 44)
  | .avsStep _ slack => decide (slack < 256)
  | .avsFloorTimeout _ => true
  | .dramMarginSweep _ n rd wr rv wv => decide (n < 16) && [rd, wr].all (fun l => decide (l.length = 18) && l.all (fun e => decide (e.length = 128))) && [rv, wv].all (fun l => decide (l.length = 18) && l.all (fun e => decide (e.length = 32)))
  | .eyeMeasure _ l height width _ => decide (l < 12) && decide (height < 1024) && decide (width < 128)
  | .plan _ => true
  | .remeasureDone _ _ _ => true
  | .flySheetPanic _ h => decide (h < 32)
  | .captureLineReceive _ q _ _ => decide (q < 4)

/-- The stamp at which a command happens. -/
def Instr.time (i : Instr) : Stamp :=
  match i with
  | .writeRegister t _ _ _ _ => t
  | .snap t _ _ => t
  | .clearRefusalRecord t => t
  | .clearDroppedWriteRecord t => t
  | .clearViolationRecord t _ => t
  | .acknowledge t _ => t
  | .powerOnHoldEnd t _ _ => t
  | .resetNLow t => t
  | .resetNRelease t _ => t
  | .bootRomStart t _ _ _ _ => t
  | .baseFirmwareStart t _ _ => t
  | .trainDone t _ _ _ => t
  | .timeSet t => t
  | .masterCounterReload t => t
  | .headsStart t _ => t
  | .caminitDone t _ _ _ => t
  | .sealPart t => t
  | .d2dLinkDown t => t
  | .d2dLinkRetrained t => t
  | .d2dFlitReplay t => t
  | .timeBusFullStamp t _ => t
  | .watchTapTimeout t _ => t
  | .headFrameStart t _ _ _ => t
  | .elementStateMiss t _ _ => t
  | .headLineStart t _ _ => t
  | .tileFetchComplete t _ _ _ _ _ => t
  | .headFrameDone t _ _ _ => t
  | .headEnableWrite t _ _ => t
  | .frameBegin t _ _ => t
  | .frameFinish t _ _ _ _ _ _ _ _ => t
  | .refEvaluation t _ => t
  | .qualificationComplete t _ => t
  | .wtrExpire t _ => t
  | .lockTimeElapsed t => t
  | .dwellEnd t => t
  | .holdoverSecond t => t
  | .serdesLoopLockLoss t _ => t
  | .force t _ _ => t
  | .release t _ _ => t
  | .skipWtr t _ _ => t
  | .ppsEdge t _ _ => t
  | .ppsTimeout t _ => t
  | .activityGap t _ => t
  | .gnssSentence t _ _ => t
  | .ptpMessageReceive t _ _ => t
  | .announceTimeout t _ => t
  | .submit t _ _ => t
  | .groupCheckDone t => t
  | .pegCancel t _ _ _ => t
  | .pegArm t _ => t
  | .pegImmediateFire t _ _ => t
  | .pegExpire t _ => t
  | .ethFrameReceive t _ => t
  | .heldPacketExpire t => t
  | .senderAgeOut t _ => t
  | .frameSkewTimeout t _ _ => t
  | .framePacketTimeout t _ _ => t
  | .legSilenceTimeout t _ _ => t
  | .senderReportLapse t _ => t
  | .subportLinkChange t _ _ _ => t
  | .packetRelease t _ => t
  | .claimHeartbeatSend t => t
  | .senderReportSend t => t
  | .pictureJobBuild t _ _ => t
  | .engineJobStart t _ _ => t
  | .engineJobEnd t _ _ _ => t
  | .bucketTake t _ _ => t
  | .arm t _ _ => t
  | .cameraFrameStart t _ _ => t
  | .cciWritesDone t _ _ _ => t
  | .cciWindowExpire t _ _ => t
  | .embeddedDataReceive t _ _ _ _ _ => t
  | .csiLineReceive t _ _ => t
  | .cameraFrameEnd t _ _ => t
  | .cameraFrameTimeout t _ => t
  | .cameraOutputFinish t _ _ => t
  | .cameraSilenceTimeout t _ => t
  | .fsyncPulse t _ => t
  | .captureFrameBegin t _ _ _ _ _ => t
  | .captureFrameEnd t _ => t
  | .captureLinkChange t _ _ _ _ _ => t
  | .captureAuxRequest t _ _ => t
  | .pointFrameProcess t _ => t
  | .feederResyncTimeout t _ => t
  | .sweepStart t => t
  | .sweepEnd t => t
  | .start t _ _ => t
  | .finish t _ _ => t
  | .resetAlive t _ _ => t
  | .feedByte t _ _ _ => t
  | .feedHalfWord t _ _ _ => t
  | .feedWord t _ _ _ => t
  | .chkCfgWrite t _ _ _ => t
  | .glyphMiss t _ _ => t
  | .commitRequest t _ _ => t
  | .commitCancel t _ _ => t
  | .hpdHighDebounce t _ _ _ _ => t
  | .dpTrainingDone t _ _ _ => t
  | .irqHpd t _ _ _ => t
  | .hpdLowTimeout t _ => t
  | .dpRetryTimeout t _ => t
  | .retrain t _ _ => t
  | .scanFrameStart t _ => t
  | .scanFrameEnd t _ _ => t
  | .frequencyHop t _ => t
  | .noiseTimeout t _ => t
  | .longTouch t _ _ => t
  | .calibrationDone t _ => t
  | .selftest t _ _ => t
  | .selftestDone t _ => t
  | .recal t _ _ => t
  | .driveRailChange t _ _ => t
  | .touchReportWrite t => t
  | .pointerHoldExpire t _ => t
  | .bolLinkChange t _ => t
  | .flitReceive t _ => t
  | .nakReceive t _ => t
  | .tick t => t
  | .splitTimeout t => t
  | .heartbeatReceive t _ => t
  | .noticeReceive t _ => t
  | .noticeLostwaitExpire t _ _ => t
  | .frameEligible t _ _ => t
  | .mirrorReceive t _ _ => t
  | .mirrorApply t _ => t
  | .recordReceive t _ => t
  | .sigxReceive t _ => t
  | .seqReceive t _ => t
  | .timeExchangeStart t _ => t
  | .timeRequestReceive t _ _ => t
  | .timeReplyReceive t _ => t
  | .yield t _ => t
  | .memoryRequest t _ => t
  | .memoryReadComplete t _ _ => t
  | .refreshDue t _ _ => t
  | .mr4Poll t _ _ => t
  | .scrubRead t _ _ _ => t
  | .holdTimeout t => t
  | .budgetOverrun t _ => t
  | .oscTrackRead t _ _ => t
  | .trainingRun t _ _ => t
  | .trainingStop t _ _ _ => t
  | .trainingRunDone t _ _ => t
  | .trimWriteApply t _ => t
  | .apply t _ _ => t
  | .applyTags t _ => t
  | .accessDrainComplete t _ => t
  | .tagCopyDone t => t
  | .recallLayout t _ _ => t
  | .preset t _ _ => t
  | .policyAction t => t
  | .eventRecordWrite t => t
  | .rateLimitWindowEnd t _ _ => t
  | .mgtRead t _ _ _ => t
  | .mgtWrite t _ _ _ => t
  | .mgtRecall t _ _ _ => t
  | .mgtPreset t _ _ _ => t
  | .smbBlockWrite t _ _ _ _ => t
  | .smbSetPointer t _ _ _ => t
  | .smbBlockRead t _ _ => t
  | .watchdogSignal t _ => t
  | .watchdogExpire t _ => t
  | .healthCheck t _ => t
  | .monitorRefresh t _ _ _ => t
  | .roMeasure t _ => t
  | .avsStep t _ => t
  | .avsFloorTimeout t => t
  | .dramMarginSweep t _ _ _ _ _ => t
  | .eyeMeasure t _ _ _ _ => t
  | .plan t => t
  | .remeasureDone t _ _ => t
  | .flySheetPanic t _ => t
  | .captureLineReceive t _ _ _ => t

/-- The same command at another stamp. -/
def Instr.withTime (i : Instr) (u : Stamp) : Instr :=
  match i with
  | .writeRegister _ src hart addr data => .writeRegister u src hart addr data
  | .snap _ src addr => .snap u src addr
  | .clearRefusalRecord _ => .clearRefusalRecord u
  | .clearDroppedWriteRecord _ => .clearDroppedWriteRecord u
  | .clearViolationRecord _ q => .clearViolationRecord u q
  | .acknowledge _ seq => .acknowledge u seq
  | .powerOnHoldEnd _ side rails => .powerOnHoldEnd u side rails
  | .resetNLow _ => .resetNLow u
  | .resetNRelease _ side => .resetNRelease u side
  | .bootRomStart _ link fuses slotA slotB => .bootRomStart u link fuses slotA slotB
  | .baseFirmwareStart _ checked slotB => .baseFirmwareStart u checked slotB
  | .trainDone _ bad trims loaded => .trainDone u bad trims loaded
  | .timeSet _ => .timeSet u
  | .masterCounterReload _ => .masterCounterReload u
  | .headsStart _ harts => .headsStart u harts
  | .caminitDone _ p done refused => .caminitDone u p done refused
  | .sealPart _ => .sealPart u
  | .d2dLinkDown _ => .d2dLinkDown u
  | .d2dLinkRetrained _ => .d2dLinkRetrained u
  | .d2dFlitReplay _ => .d2dFlitReplay u
  | .timeBusFullStamp _ taps => .timeBusFullStamp u taps
  | .watchTapTimeout _ diff => .watchTapTimeout u diff
  | .headFrameStart _ h drift bad => .headFrameStart u h drift bad
  | .elementStateMiss _ h e => .elementStateMiss u h e
  | .headLineStart _ h n => .headLineStart u h n
  | .tileFetchComplete _ h tx ty e fault => .tileFetchComplete u h tx ty e fault
  | .headFrameDone _ h dsc wb => .headFrameDone u h dsc wb
  | .headEnableWrite _ h data => .headEnableWrite u h data
  | .frameBegin _ n key => .frameBegin u n key
  | .frameFinish _ n i code cause arrival sup missing content => .frameFinish u n i code cause arrival sup missing content
  | .refEvaluation _ obs => .refEvaluation u obs
  | .qualificationComplete _ k => .qualificationComplete u k
  | .wtrExpire _ k => .wtrExpire u k
  | .lockTimeElapsed _ => .lockTimeElapsed u
  | .dwellEnd _ => .dwellEnd u
  | .holdoverSecond _ => .holdoverSecond u
  | .serdesLoopLockLoss _ err => .serdesLoopLockLoss u err
  | .force _ src entry => .force u src entry
  | .release _ src entry => .release u src entry
  | .skipWtr _ src entry => .skipWtr u src entry
  | .ppsEdge _ k edge => .ppsEdge u k edge
  | .ppsTimeout _ k => .ppsTimeout u k
  | .activityGap _ k => .activityGap u k
  | .gnssSentence _ utcSeconds valid => .gnssSentence u utcSeconds valid
  | .ptpMessageReceive _ p m => .ptpMessageReceive u p m
  | .announceTimeout _ p => .announceTimeout u p
  | .submit _ src sg => .submit u src sg
  | .groupCheckDone _ => .groupCheckDone u
  | .pegCancel _ src sg group => .pegCancel u src sg group
  | .pegArm _ i => .pegArm u i
  | .pegImmediateFire _ q block => .pegImmediateFire u q block
  | .pegExpire _ i => .pegExpire u i
  | .ethFrameReceive _ fr => .ethFrameReceive u fr
  | .heldPacketExpire _ => .heldPacketExpire u
  | .senderAgeOut _ n => .senderAgeOut u n
  | .frameSkewTimeout _ n ts => .frameSkewTimeout u n ts
  | .framePacketTimeout _ n ts => .framePacketTimeout u n ts
  | .legSilenceTimeout _ n leg => .legSilenceTimeout u n leg
  | .senderReportLapse _ n => .senderReportLapse u n
  | .subportLinkChange _ p sub up => .subportLinkChange u p sub up
  | .packetRelease _ st => .packetRelease u st
  | .claimHeartbeatSend _ => .claimHeartbeatSend u
  | .senderReportSend _ => .senderReportSend u
  | .pictureJobBuild _ ctx p => .pictureJobBuild u ctx p
  | .engineJobStart _ encode e => .engineJobStart u encode e
  | .engineJobEnd _ encode e r => .engineJobEnd u encode e r
  | .bucketTake _ ctx twinRuns => .bucketTake u ctx twinRuns
  | .arm _ src ctx => .arm u src ctx
  | .cameraFrameStart _ p vc => .cameraFrameStart u p vc
  | .cciWritesDone _ p done refused => .cciWritesDone u p done refused
  | .cciWindowExpire _ p done => .cciWindowExpire u p done
  | .embeddedDataReceive _ p vc data headerOk crcOk => .embeddedDataReceive u p vc data headerOk crcOk
  | .csiLineReceive _ p l => .csiLineReceive u p l
  | .cameraFrameEnd _ p vc => .cameraFrameEnd u p vc
  | .cameraFrameTimeout _ p => .cameraFrameTimeout u p
  | .cameraOutputFinish _ p o => .cameraOutputFinish u p o
  | .cameraSilenceTimeout _ p => .cameraSilenceTimeout u p
  | .fsyncPulse _ p => .fsyncPulse u p
  | .captureFrameBegin _ q w h enc bpc10 => .captureFrameBegin u q w h enc bpc10
  | .captureFrameEnd _ q => .captureFrameEnd u q
  | .captureLinkChange _ q trained rate lanes video => .captureLinkChange u q trained rate lanes video
  | .captureAuxRequest _ q r => .captureAuxRequest u q r
  | .pointFrameProcess _ bad => .pointFrameProcess u bad
  | .feederResyncTimeout _ f => .feederResyncTimeout u f
  | .sweepStart _ => .sweepStart u
  | .sweepEnd _ => .sweepEnd u
  | .start _ src q => .start u src q
  | .finish _ src q => .finish u src q
  | .resetAlive _ src q => .resetAlive u src q
  | .feedByte _ src q data => .feedByte u src q data
  | .feedHalfWord _ src q data => .feedHalfWord u src q data
  | .feedWord _ src q data => .feedWord u src q data
  | .chkCfgWrite _ src q data => .chkCfgWrite u src q data
  | .glyphMiss _ h e => .glyphMiss u h e
  | .commitRequest _ src h => .commitRequest u src h
  | .commitCancel _ src h => .commitCancel u src h
  | .hpdHighDebounce _ p rate lanes edid => .hpdHighDebounce u p rate lanes edid
  | .dpTrainingDone _ p good denied => .dpTrainingDone u p good denied
  | .irqHpd _ p lost mst => .irqHpd u p lost mst
  | .hpdLowTimeout _ p => .hpdLowTimeout u p
  | .dpRetryTimeout _ p => .dpRetryTimeout u p
  | .retrain _ src p => .retrain u src p
  | .scanFrameStart _ h => .scanFrameStart u h
  | .scanFrameEnd _ h d => .scanFrameEnd u h d
  | .frequencyHop _ h => .frequencyHop u h
  | .noiseTimeout _ h => .noiseTimeout u h
  | .longTouch _ h id => .longTouch u h id
  | .calibrationDone _ h => .calibrationDone u h
  | .selftest _ src h => .selftest u src h
  | .selftestDone _ h => .selftestDone u h
  | .recal _ src h => .recal u src h
  | .driveRailChange _ h low => .driveRailChange u h low
  | .touchReportWrite _ => .touchReportWrite u
  | .pointerHoldExpire _ h => .pointerHoldExpire u h
  | .bolLinkChange _ lock => .bolLinkChange u lock
  | .flitReceive _ flit => .flitReceive u flit
  | .nakReceive _ counter => .nakReceive u counter
  | .tick _ => .tick u
  | .splitTimeout _ => .splitTimeout u
  | .heartbeatReceive _ msg => .heartbeatReceive u msg
  | .noticeReceive _ msg => .noticeReceive u msg
  | .noticeLostwaitExpire _ n key => .noticeLostwaitExpire u n key
  | .frameEligible _ n i => .frameEligible u n i
  | .mirrorReceive _ msg bad => .mirrorReceive u msg bad
  | .mirrorApply _ bad => .mirrorApply u bad
  | .recordReceive _ msg => .recordReceive u msg
  | .sigxReceive _ msg => .sigxReceive u msg
  | .seqReceive _ msg => .seqReceive u msg
  | .timeExchangeStart _ depart => .timeExchangeStart u depart
  | .timeRequestReceive _ msg depart => .timeRequestReceive u msg depart
  | .timeReplyReceive _ msg => .timeReplyReceive u msg
  | .yield _ src => .yield u src
  | .memoryRequest _ a => .memoryRequest u a
  | .memoryReadComplete _ n ecc => .memoryReadComplete u n ecc
  | .refreshDue _ n bank => .refreshDue u n bank
  | .mr4Poll _ n code => .mr4Poll u n code
  | .scrubRead _ n ofs ecc => .scrubRead u n ofs ecc
  | .holdTimeout _ => .holdTimeout u
  | .budgetOverrun _ g => .budgetOverrun u g
  | .oscTrackRead _ n want => .oscTrackRead u n want
  | .trainingRun _ src n => .trainingRun u src n
  | .trainingStop _ src n errors => .trainingStop u src n errors
  | .trainingRunDone _ n errors => .trainingRunDone u n errors
  | .trimWriteApply _ n => .trimWriteApply u n
  | .apply _ src q => .apply u src q
  | .applyTags _ src => .applyTags u src
  | .accessDrainComplete _ q => .accessDrainComplete u q
  | .tagCopyDone _ => .tagCopyDone u
  | .recallLayout _ src n => .recallLayout u src n
  | .preset _ src n => .preset u src n
  | .policyAction _ => .policyAction u
  | .eventRecordWrite _ => .eventRecordWrite u
  | .rateLimitWindowEnd _ code unit => .rateLimitWindowEnd u code unit
  | .mgtRead _ msg saddr sport => .mgtRead u msg saddr sport
  | .mgtWrite _ msg saddr sport => .mgtWrite u msg saddr sport
  | .mgtRecall _ msg saddr sport => .mgtRecall u msg saddr sport
  | .mgtPreset _ msg saddr sport => .mgtPreset u msg saddr sport
  | .smbBlockWrite _ adr ofs data pec => .smbBlockWrite u adr ofs data pec
  | .smbSetPointer _ adr ofs pec => .smbSetPointer u adr ofs pec
  | .smbBlockRead _ adr pec => .smbBlockRead u adr pec
  | .watchdogSignal _ hart => .watchdogSignal u hart
  | .watchdogExpire _ hart => .watchdogExpire u hart
  | .healthCheck _ limits => .healthCheck u limits
  | .monitorRefresh _ slacks temps rails => .monitorRefresh u slacks temps rails
  | .roMeasure _ counts => .roMeasure u counts
  | .avsStep _ slack => .avsStep u slack
  | .avsFloorTimeout _ => .avsFloorTimeout u
  | .dramMarginSweep _ n rd wr rv wv => .dramMarginSweep u n rd wr rv wv
  | .eyeMeasure _ l height width near => .eyeMeasure u l height width near
  | .plan _ => .plan u
  | .remeasureDone _ id margin => .remeasureDone u id margin
  | .flySheetPanic _ h => .flySheetPanic u h
  | .captureLineReceive _ q px fill => .captureLineReceive u q px fill

end Sys2Proof
end

