-- ==== Sys2Proof/Certificates/Slice0/Obligations.lean ====
section
/-! DEFINITION. The statements about the block, for the provers. -/

open Sys2Proof Sys2Proof.Machine

/-- One step takes the command at the front of the queue and runs it on the state with the rest of the queue. With no command
waiting one nanosecond of Muith time passes (R86) and a trained twin link carries one idle flit (R340), in which nothing
changes but the flit counter, the flits held for a replay, check unit 2 and `BOL_STAT`'s counts; this is the model's choice
for a block without commands (DESIGN CHOICE, log 1). -/
def Obligations.StepRunsTheFrontCommand : Prop :=
  (∀ (i : Instr) (s : State), step { s with pending := i :: s.pending } = exec i s) ∧
  (∀ (s : State), s.pending = [] → step s = .next { s with chip := s.chip.idle }) ∧
  (∀ (s : State), s.pending = [] → s.chip.bolUp = false → step s = .next { s with chip := { s.chip with clk := s.chip.clk + 1 } }) ∧
  (∀ (s : State), s.chip.bolUp = true → s.chip.idle.clk = s.chip.clk + 1 ∧
    s.chip.idle.tx = s.chip.tx ++ [.flit (s.chip.flitOf (0x7F :: 3 :: List.replicate 56 0))] ∧
    s.chip.writesOnly s.chip.idle (R.bolCnt 0 :: checkRegs 2) ∧ s.chip.raises s.chip.idle [])

/-- Every well-formed command answers a next state and leaves the queue as it is; every other command stops with the fault
`noSuchUnit`; no command is refused by the model. -/
def Obligations.WellFormedCommandsComplete : Prop :=
  (∀ (i : Instr) (s : State), i.wellFormed = true → Answers i s (fun _ => True)) ∧
  (∀ (i : Instr) (s : State), i.wellFormed = false → exec i s = .fault .noSuchUnit)

/-- From every state, a queue of well-formed commands runs to its end: as many steps as there are commands waiting answer a next
state each, and the queue is empty after them. -/
def Obligations.QueueOfWellFormedCommandsRunsToItsEnd : Prop :=
  ∀ (s : State), (∀ i ∈ s.pending, i.wellFormed = true) → ∃ t : State, runs s.pending.length s = some t ∧ t.pending = []

/-- Every step keeps the canonical form of the register file, the DRAM, the table windows and the current element table, so that
equal contents are equal data in every state that a canonical one leads to. -/
def Obligations.EveryStepKeepsTheCanonicalForm : Prop :=
  ∀ (s t : State), s.chip.canonical → step s = .next t → t.chip.canonical

/-- The state right after reset is canonical, holds no command, no event and no frame, and no part of it is sealed; `SYS_ID`
reads 0x0960_2000 (R22), `EVJ_NEXT` 1 (R446), and the pitch runs step 1 (R426). -/
def Obligations.ResetStateIsCanonical : Prop :=
  State.reset.chip.canonical ∧ State.reset.pending = [] ∧ State.reset.chip.evq = [] ∧ State.reset.chip.slots = [] ∧
    State.reset.chip.isSealed = false ∧ (State.reset.chip.readReg R.sysId).toNat = 0x09602000 ∧
    (State.reset.chip.readReg R.evjNext).toNat = 1

/-- R14: the interval between two short stamps is their difference modulo 2^64 read as a signed 64-bit value; it is negative
where the stamp named later precedes the other by up to 2^63 ns, whatever wraps between them. -/
def Obligations.IntervalsAreSignedDifferences : Prop :=
  (∀ (later earlier : Nat), -(2 : Int) ^ 63 ≤ stampGap later earlier ∧ stampGap later earlier < (2 : Int) ^ 63 ∧
    (stampGap later earlier - ((later : Int) - (earlier : Int))) % (2 : Int) ^ 64 = 0) ∧
  (∀ (a d : Nat), 0 < d → d ≤ 2 ^ 63 → stampGap (a % 2 ^ 64) ((a + d) % 2 ^ 64) = -(d : Int)) ∧
  (∀ (a d : Nat), d < 2 ^ 63 → stampGap ((a + d) % 2 ^ 64) (a % 2 ^ 64) = (d : Int))

/-- R52, R53: in a slot with DERIVE set every finished frame's capture stamp is its arrival stamp less BOUND microseconds, and
DERIVED is set, whatever the source supplied; in any other slot a supplied stamp later than the arrival is replaced in the
same way, and event 0x3010 carries the slot and both stamps. (On a pair, a frame of an agreed slot keeps this stamp until the
twin's verdict on it is known, from which R353 decides another.) -/
def Obligations.CaptureStampsAreDerivedWhereTheyMustBe : Prop :=
  (∀ (s : State) (t : Stamp) (n i code cause missing : Nat) (a : Stamp) (sup : Option Stamp) (l : List (Nat × List Byte)), n < 256 →
    i < 32 → 2 ≤ code → code ≤ 6 → cause < 16 → (s.chip.frameRec n i).code = 1 → s.chip.inDram (s.chip.recAddr n i) 48 = true →
    ((s.chip.agreed n && s.chip.paired) = false ∨ (s.chip.slot n).agree.all (fun e => e.twin.isNone) = true) →
    (∀ e ∈ l, s.chip.bufAddr n i + e.1 + e.2.length ≤ s.chip.recAddr n i ∨ s.chip.recAddr n i + 48 ≤ s.chip.bufAddr n i + e.1) →
    s.chip.bit (R.srcFresh n) 31 = true →
    Answers (.frameFinish t n i code cause a sup missing l) s (fun c =>
      (c.frameRec n i).cap = (a + 2 ^ 64 - s.chip.fld (R.srcLat n) 31 0 * 1000) % 2 ^ 64 ∧ (c.frameRec n i).derived = true)) ∧
  (∀ (s : State) (t : Stamp) (n i code cause missing : Nat) (a x : Stamp) (l : List (Nat × List Byte)), n < 256 →
    i < 32 → 2 ≤ code → code ≤ 6 → cause < 16 → (s.chip.frameRec n i).code = 1 → s.chip.inDram (s.chip.recAddr n i) 48 = true →
    ((s.chip.agreed n && s.chip.paired) = false ∨ (s.chip.slot n).agree.all (fun e => e.twin.isNone) = true) →
    (∀ e ∈ l, s.chip.bufAddr n i + e.1 + e.2.length ≤ s.chip.recAddr n i ∨ s.chip.recAddr n i + 48 ≤ s.chip.bufAddr n i + e.1) →
    s.chip.bit (R.srcFresh n) 31 = false → 0 < stampGap x a →
    Answers (.frameFinish t n i code cause a (some x) missing l) s (fun c =>
      (c.frameRec n i).cap = (a + 2 ^ 64 - s.chip.fld (R.srcLat n) 31 0 * 1000) % 2 ^ 64 ∧ (c.frameRec n i).derived = true ∧
      (c.evq.length < evqCap → ⟨0x3010, .room, t, [.val 1 n, .val 8 (x % 2 ^ 64), .val 8 (a % 2 ^ 64)]⟩ ∈ c.evq.drop s.chip.evq.length))) ∧
  (∀ (s : State) (t : Stamp) (n i code cause missing : Nat) (a x : Stamp) (l : List (Nat × List Byte)), n < 256 →
    i < 32 → 2 ≤ code → code ≤ 6 → cause < 16 → (s.chip.frameRec n i).code = 1 → s.chip.inDram (s.chip.recAddr n i) 48 = true →
    ((s.chip.agreed n && s.chip.paired) = false ∨ (s.chip.slot n).agree.all (fun e => e.twin.isNone) = true) →
    (∀ e ∈ l, s.chip.bufAddr n i + e.1 + e.2.length ≤ s.chip.recAddr n i ∨ s.chip.recAddr n i + 48 ≤ s.chip.bufAddr n i + e.1) →
    s.chip.bit (R.srcFresh n) 31 = false → stampGap x a ≤ 0 →
    Answers (.frameFinish t n i code cause a (some x) missing l) s (fun c =>
      (c.frameRec n i).cap = x % 2 ^ 64 ∧ (c.frameRec n i).derived = false))

/-- R48: the enabled elements of a head, in the order in which they are blended, rise in plane and, within one plane, in element
number: of two elements of a plane the one with the higher number is blended later, over the other. -/
def Obligations.HigherElementsLieAbove : Prop :=
  ∀ (s : State) (h : Nat), s.chip.canonical →
    (s.chip.headElems h).Pairwise (fun x y => x.2.plane < y.2.plane ∨ (x.2.plane = y.2.plane ∧ x.1 < y.1))

/-- R56: the tell-tale rectangle of a slot is the whole frame where either field of its size is 0; else a pixel lies in it
exactly when it lies in the register's rectangle and in the frame. -/
def Obligations.TellTaleRectangleIsClipped : Prop :=
  (∀ (c : Chip) (n w h : Nat), (c.fld (R.srcTtSize n) 31 16 = 0 ∨ c.fld (R.srcTtSize n) 15 0 = 0) → c.ttRect n w h = (0, 0, w, h)) ∧
  (∀ (c : Chip) (n w h x y : Nat), c.fld (R.srcTtSize n) 31 16 ≠ 0 → c.fld (R.srcTtSize n) 15 0 ≠ 0 →
    (((c.ttRect n w h).1 ≤ x ∧ x < (c.ttRect n w h).1 + (c.ttRect n w h).2.2.1 ∧ (c.ttRect n w h).2.1 ≤ y ∧
        y < (c.ttRect n w h).2.1 + (c.ttRect n w h).2.2.2) ↔
      (c.fld (R.srcTtPos n) 15 0 ≤ x ∧ x < c.fld (R.srcTtPos n) 15 0 + c.fld (R.srcTtSize n) 15 0 ∧
        c.fld (R.srcTtPos n) 31 16 ≤ y ∧ y < c.fld (R.srcTtPos n) 31 16 + c.fld (R.srcTtSize n) 31 16 ∧ x < w ∧ y < h)))

/-- R403, R502, R505: a block window takes aligned 32-bit accesses alone: any other access is answered with zeros and the error
flag, reaches no register, and where its protection unit is enabled is a violation of cause 1; an aligned one that its unit
lets pass is performed. A table window takes every read of 1 to 64 bytes inside a 64-byte block that its unit lets pass, and
a write where its region is writable then; a write to a read-only region is ignored, and one that the seal forbids is dropped
and counted. An access to an unmapped address, or to a window that its unit does not let pass, is answered with the error
flag and reaches nothing. -/
def Obligations.BlockWindowsTakeAlignedWordsAlone : Prop :=
  (∀ (s : State) (t : Stamp) (a : Access), accessShape a = true → placeOf s.chip.dramCap a.addr = .register →
    (a.addr % 4 ≠ 0 ∨ a.len ≠ 4) →
    Answers (.memoryRequest t a) s (fun c =>
      c.tx = s.chip.tx ++ [.reply a.unit a.source (if a.kind = 1 then [] else List.replicate a.len 0) true] ∧
      (s.chip.pruCtlNow a.unit / 2 ^ 31 % 2 = 1 →
        (c.reg (R.pruFcnt a.unit)).toNat = min ((s.chip.reg (R.pruFcnt a.unit)).toNat + 1) (2 ^ 32 - 1) ∧
        (s.chip.bit (R.pruFrec a.unit) 31 = false → c.bit (R.pruFrec a.unit) 31 = true ∧ c.fld (R.pruFrec a.unit) 26 24 = 1)) ∧
      s.chip.writesOnly c ([R.pruFcnt a.unit, R.pruFrec a.unit, R.pruFrecAddrLo a.unit, R.pruFrecAddrHi a.unit,
        R.pruFrecStampLo a.unit, R.pruFrecStampHi a.unit] ++ eventRegs))) ∧
  (∀ (s : State) (t : Stamp) (a : Access), accessShape a = true → placeOf s.chip.dramCap a.addr = .register → a.addr % 4 = 0 →
    a.len = 4 → a.kind ≠ 1 → s.chip.passes a →
    Answers (.memoryRequest t a) s (fun c =>
      c.tx = s.chip.tx ++ [.reply a.unit a.source (leBytes 4 (s.chip.readReg a.addr).toNat) false] ∧ s.chip.writesOnly c [] ∧
      s.chip.raises c [])) ∧
  (∀ (s : State) (t : Stamp) (a : Access), accessShape a = true → placeOf s.chip.dramCap a.addr = .register → a.addr % 4 = 0 →
    a.len = 4 → a.kind = 1 → s.chip.passes a → roleOf a.addr = .plain → (onAnalogue a.addr = false ∨ s.chip.d2dUp = true) →
    Gives (.memoryRequest t a) s ((s.chip.at t).writeFields a.addr (BitVec.ofNat 32 (leNat a.data)))) ∧
  (∀ (s : State) (t : Stamp) (a : Access), accessShape a = true → placeOf s.chip.dramCap a.addr = .table → a.kind ≠ 1 →
    s.chip.passes a →
    Answers (.memoryRequest t a) s (fun c =>
      c.tx = s.chip.tx ++ [.reply a.unit a.source (s.chip.tableRead (a.addr - tableBase) a.len) false] ∧ s.chip.writesOnly c [] ∧
      s.chip.raises c [])) ∧
  (∀ (s : State) (t : Stamp) (a : Access) (j : Nat), accessShape a = true → placeOf s.chip.dramCap a.addr = .table → a.kind = 1 →
    s.chip.passes a → s.chip.canonical →
    (s.chip.isSealed = false ∧ tableKind (a.addr - tableBase) ≠ 0 ∧ tableKind (a.addr - tableBase) ≠ 3 ∨
      tableKind (a.addr - tableBase) = 2 ∧ accessSource a = .base) →
    Answers (.memoryRequest t a) s (fun c => c.tx = s.chip.tx ∧
      mapGet tbwDefault c.tbw j = (if a.addr - tableBase ≤ j ∧ j < a.addr - tableBase + a.len
        then a.data.getD (j - (a.addr - tableBase)) 0 else mapGet tbwDefault s.chip.tbw j) ∧
      c.regs = s.chip.regs ∧ c.dram = s.chip.dram ∧ s.chip.raises c [])) ∧
  (∀ (s : State) (t : Stamp) (a : Access), accessShape a = true → placeOf s.chip.dramCap a.addr = .table → a.kind = 1 →
    s.chip.passes a → tableKind (a.addr - tableBase) = 0 → Gives (.memoryRequest t a) s (s.chip.at t)) ∧
  (∀ (s : State) (t : Stamp) (a : Access), accessShape a = true → placeOf s.chip.dramCap a.addr = .table → a.kind = 1 →
    s.chip.passes a → s.chip.isSealed = true → tableKind (a.addr - tableBase) ≠ 0 →
    (tableKind (a.addr - tableBase) ≠ 2 ∨ accessSource a ≠ .base) →
    Answers (.memoryRequest t a) s (fun c => c.tx = s.chip.tx ∧
      c.reg R.pitSwrCount = (s.chip.bump R.pitSwrCount).reg R.pitSwrCount ∧ s.chip.writesOnly c dropRegs)) ∧
  (∀ (s : State) (t : Stamp) (a : Access), accessShape a = true → placeOf s.chip.dramCap a.addr = .table → a.kind = 1 →
    s.chip.passes a → s.chip.isSealed = false → tableKind (a.addr - tableBase) = 3 → s.chip.bit R.pruGstat 30 = true →
    Gives (.memoryRequest t a) s { s.chip.at t with tagHeld := s.chip.tagHeld ++ [(a.addr - tableBase, a.data)] }) ∧
  (∀ (s : State) (t : Stamp) (a : Access), accessShape a = true → placeOf s.chip.dramCap a.addr = .table → a.kind = 1 →
    s.chip.passes a → s.chip.isSealed = false → tableKind (a.addr - tableBase) = 3 → s.chip.bit R.pruGstat 30 = false →
    Gives (.memoryRequest t a) s ((s.chip.at t).writeTags (a.addr - tableBase) a.data)) ∧
  (∀ (s : State) (t : Stamp) (a : Access), accessShape a = true → placeOf s.chip.dramCap a.addr ≠ .dram →
    (placeOf s.chip.dramCap a.addr = .unmapped ∨ ¬ s.chip.passes a) →
    Answers (.memoryRequest t a) s (fun c =>
      c.tx = s.chip.tx ++ [.reply a.unit a.source (if a.kind = 1 then [] else List.replicate a.len 0) true] ∧
      s.chip.writesOnly c ([R.pruFcnt a.unit, R.pruFrec a.unit, R.pruFrecAddrLo a.unit, R.pruFrecAddrHi a.unit,
        R.pruFrecStampLo a.unit, R.pruFrecStampHi a.unit] ++ eventRegs)))

/-- R246, R254: units 0 to 4 are not the programs'. A write of their `CHK_CFG` is refused, and so are a START, FINISH,
RESET_ALIVE or feed that no earlier condition of its list refuses, each with the cause of its place in R254's table; no check
unit and no configuration changes. A message of any unit opens under the configuration that its `CHK_CFG` reads, which after
reset is for units 0 and 1 check mode, for 2 and 3 append and check mode with a 16-bit counter, for 4 append mode, and
CRC-32C for each. -/
def Obligations.ServiceCheckUnitsCannotBeReconfigured : Prop :=
  (∀ (s : State) (t : Stamp) (src : Source) (u : Nat) (w : Word), u ≤ 4 →
    Answers (.chkCfgWrite t src u w) s (fun c => c.chk = s.chip.chk ∧ s.chip.refused c t src (R.chkCfg u) w 1)) ∧
  (∀ (s : State) (t : Stamp) (src : Source) (u : Nat), u ≤ 4 → s.chip.bit (R.chkCfg u) 31 = true →
    (s.chip.chkUnit u).isOpen = false →
    Answers (.start t src u) s (fun c => c.chk = s.chip.chk ∧ s.chip.refused c t src (R.chkCmd u) (cmdWord 1) 3)) ∧
  (∀ (s : State) (t : Stamp) (src : Source) (u : Nat), u ≤ 4 → (s.chip.chkUnit u).isOpen = true →
    ((s.chip.chkUnit u).append = true ∨
      aliveBytes (s.chip.chkUnit u).alive + (crcPoly (s.chip.chkUnit u).poly).width / 8 ≤ (s.chip.chkUnit u).fed.length) →
    Answers (.finish t src u) s (fun c => c.chk = s.chip.chk ∧ s.chip.refused c t src (R.chkCmd u) (cmdWord 2) 3)) ∧
  (∀ (s : State) (t : Stamp) (src : Source) (u : Nat), u ≤ 4 → (s.chip.chkUnit u).isOpen = false →
    Answers (.resetAlive t src u) s (fun c => c.chk = s.chip.chk ∧ s.chip.refused c t src (R.chkCmd u) (cmdWord 3) 2)) ∧
  (∀ (s : State) (t : Stamp) (src : Source) (u : Nat) (w : Word), u ≤ 4 → (s.chip.chkUnit u).isOpen = true →
    Answers (.feedByte t src u w) s (fun c => c.chk = s.chip.chk ∧ s.chip.refused c t src (R.chkFeedB u) w 2) ∧
    Answers (.feedHalfWord t src u w) s (fun c => c.chk = s.chip.chk ∧ s.chip.refused c t src (R.chkFeedH u) w 2) ∧
    Answers (.feedWord t src u w) s (fun c => c.chk = s.chip.chk ∧ s.chip.refused c t src (R.chkFeedW u) w 2)) ∧
  (∀ (c : Chip) (u : Nat), u < 16 →
    ((c.chkStart u).chkUnit u).poly = bitsOf (c.readReg (R.chkCfg u)) 2 0 ∧
    ((c.chkStart u).chkUnit u).alive = bitsOf (c.readReg (R.chkCfg u)) 29 28 ∧
    ((c.chkStart u).chkUnit u).append = (bitsOf (c.readReg (R.chkCfg u)) 30 30 == 0)) ∧
  (∀ (u : Nat), u < 5 → State.reset.chip.bit (R.chkCfg u) 31 = true ∧ State.reset.chip.fld (R.chkCfg u) 2 0 = 3 ∧
    State.reset.chip.bit (R.chkCfg u) 30 = (u != 2 && u != 4) ∧
    State.reset.chip.fld (R.chkCfg u) 29 28 = (if u = 2 ∨ u = 3 then 2 else 0))

/-- R434: a write that R15 drops, of a peg or of a control core that its protection unit lets pass, advances `PIT_SWR_COUNT`; the
first one after VALID was cleared fills ADDR and a later one leaves it; event 0x0109 is raised at most once in a second, and
the occurrences within the second are counted for the next one. No field of type RW changes, and nothing outside the register
and the registers that report the write. -/
def Obligations.DroppedWriteIsCountedAndChangesNoSealedField : Prop :=
  ∀ (s : State) (t : Stamp) (src : Source) (hart addr : Nat) (data : List Byte) (d : RegDesc) (idx : List Nat) (f : FieldDesc),
    (Instr.writeRegister t src hart addr data).wellFormed = true →
    placeOf s.chip.dramCap addr = .register → addr % 4 = 0 → data.length = 4 →
    roleOf addr = .plain → descAt addr = some (d, idx) →
    (src ≠ .peg → ∀ w ∈ s.chip.peg.wrote, w.1 = addr → w.2.1 ≠ shortStamp t) →
    (src ≠ .peg → s.chip.passes (coreWrite src hart addr data)) →
    d.drops s.chip.isSealed (s.chip.reg addr) (BitVec.ofNat 32 (leNat data)) = true →
    f ∈ d.fields → f.ty = .rw → addr ∉ dropRegs →
    Answers (.writeRegister t src hart addr data) s (fun c =>
      c.fld addr f.hi f.lo = s.chip.fld addr f.hi f.lo ∧
      (c.reg R.pitSwrCount).toNat = min ((s.chip.reg R.pitSwrCount).toNat + 1) (2 ^ 32 - 1) ∧
      c.bit R.pitSwr 31 = true ∧
      c.fld R.pitSwr 25 0 = (if s.chip.bit R.pitSwr 31 = true then s.chip.fld R.pitSwr 25 0 else wordOfs addr % 2 ^ 26) ∧
      ((mapGet rateDefault s.chip.rate (rateKey 0x0109 0)).last = none →
        s.chip.raises c [⟨0x0109, .room, t, [.val 4 1, .val 4 (wordOfs addr)]⟩]) ∧
      ((mapGet rateDefault s.chip.rate (rateKey 0x0109 0)).last.any (fun l => !elapsed t l nsPerS) = true →
        s.chip.raises c [] ∧ (mapGet rateDefault c.rate (rateKey 0x0109 0)).count =
          (mapGet rateDefault s.chip.rate (rateKey 0x0109 0)).count + 1) ∧
      s.chip.writesOnly c (addr :: dropRegs))

/-- R15, R16, R501, R511: a write of a word to a register with no effect of its own, by a peg or by a control core whose access
its protection unit lets pass, where no peg has written the register at the same edge (R118). Every field follows its type:
RO keeps its value, RW takes the value written before seal and keeps its own after, LV takes the value with an illegal one
clamped, W1C loses the bits written as 1. Where the write is not one that R15 drops and counts, no other register and no byte
changes. -/
def Obligations.RegisterWriteFollowsFieldTypes : Prop :=
  ∀ (s : State) (t : Stamp) (src : Source) (hart addr : Nat) (data : List Byte) (d : RegDesc) (idx : List Nat) (f : FieldDesc),
    (Instr.writeRegister t src hart addr data).wellFormed = true →
    placeOf s.chip.dramCap addr = .register → addr % 4 = 0 → data.length = 4 →
    roleOf addr = .plain → descAt addr = some (d, idx) →
    (src ≠ .peg → ∀ w ∈ s.chip.peg.wrote, w.1 = addr → w.2.1 ≠ shortStamp t) →
    (src ≠ .peg → s.chip.passes (coreWrite src hart addr data)) →
    d.drops s.chip.isSealed (s.chip.reg addr) (BitVec.ofNat 32 (leNat data)) = false →
    f ∈ d.fields →
    Answers (.writeRegister t src hart addr data) s (fun c =>
      (f.ty = .ro → c.fld addr f.hi f.lo = s.chip.fld addr f.hi f.lo) ∧
      (f.ty = .rw → s.chip.isSealed = false → c.fld addr f.hi f.lo = bitsOf (BitVec.ofNat 32 (leNat data)) f.hi f.lo) ∧
      (f.ty = .rw → s.chip.isSealed = true → c.fld addr f.hi f.lo = s.chip.fld addr f.hi f.lo) ∧
      (f.ty = .lv → f.legal = .any → c.fld addr f.hi f.lo = bitsOf (BitVec.ofNat 32 (leNat data)) f.hi f.lo) ∧
      (∀ lo hi : Nat, f.ty = .lv → f.legal = .range lo hi →
        c.fld addr f.hi f.lo = clampNat lo hi (bitsOf (BitVec.ofNat 32 (leNat data)) f.hi f.lo)) ∧
      (∀ i : Nat, f.ty = .w1c → i < 32 → f.lo ≤ i → i ≤ f.hi →
        (c.reg addr).getLsbD i = ((s.chip.reg addr).getLsbD i && !(BitVec.ofNat 32 (leNat data)).getLsbD i)) ∧
      (∀ lo hi : Int, f.ty = .lv → f.legal = .srange lo hi → c.fld addr f.hi f.lo = twosOf (f.hi + 1 - f.lo)
        (clampInt lo hi (signedOf (f.hi + 1 - f.lo) (bitsOf (BitVec.ofNat 32 (leNat data)) f.hi f.lo)))) ∧
      (f.ty = .lv → f.legal = .dyn →
        c.fld addr f.hi f.lo = min (bitsOf (BitVec.ofNat 32 (leNat data)) f.hi f.lo) (s.chip.dynBound addr)) ∧
      s.chip.writesOnly c [addr])

/-- R18, R403: a read of a register that the access's protection unit lets pass is answered with what the register reads as, and
changes no register and no byte; an access to no DRAM that the unit faults is answered with zeros and the error flag, and
counted by its unit. R20: a write of 1 to a SNAP register latches every wide word of its scope at once: the copy that a read
returns is the word the register holds at that moment; copies outside the scope stay, and no register and no byte changes.
R433, R434, R405: a write of 1 to VALID empties the refusal record, the dropped-write record or a unit's violation record:
VALID reads 0, the rest of the record and every other register and byte stay, and no event is raised. A violation record that
a violation of the same edge has filled stays; where violations of that edge found the record full, the one with the lowest
SOURCE fills it, and 0xE001 is raised. -/
def Obligations.ReadsSnapsAndRecordClearsKeepTheRest : Prop :=
  (∀ (s : State) (t : Stamp) (a : Access), accessShape a = true → placeOf s.chip.dramCap a.addr = .register →
    a.addr % 4 = 0 → a.len = 4 → a.kind ≠ 1 → s.chip.passes a →
    Answers (.memoryRequest t a) s (fun c =>
      c.tx = s.chip.tx ++ [.reply a.unit a.source (leBytes 4 (s.chip.readReg a.addr).toNat) false] ∧
      s.chip.writesOnly c [] ∧ s.chip.raises c [])) ∧
  (∀ (s : State) (t : Stamp) (a : Access), accessShape a = true → placeOf s.chip.dramCap a.addr ≠ .dram → ¬ s.chip.passes a →
    Answers (.memoryRequest t a) s (fun c =>
      c.tx = s.chip.tx ++ [.reply a.unit a.source (if a.kind = 1 then [] else List.replicate a.len 0) true] ∧
      (c.reg (R.pruFcnt a.unit)).toNat = min ((s.chip.reg (R.pruFcnt a.unit)).toNat + 1) (2 ^ 32 - 1) ∧
      c.bit (R.pruFrec a.unit) 31 = true ∧
      s.chip.writesOnly c ([R.pruFcnt a.unit, R.pruFrec a.unit, R.pruFrecAddrLo a.unit, R.pruFrecAddrHi a.unit,
        R.pruFrecStampLo a.unit, R.pruFrecStampHi a.unit] ++ eventRegs))) ∧
  (∀ (s : State) (t : Stamp) (src : Source) (addr lo hi a : Nat), snapScope addr = some (lo, hi) → addr ≠ R.muiSnap →
    (roleOf addr = .snapshot ∨ s.chip.isSealed = false) → s.chip.canonical →
    lo ≤ a → a < hi → isSnapWord a = true →
    Answers (.snap t src addr) s (fun c => mapGet resetWord c.latch a = s.chip.reg a ∧
      c.readReg a = s.chip.reg a ∧ s.chip.writesOnly c [] ∧ s.chip.raises c [])) ∧
  (∀ (s : State) (t : Stamp) (src : Source) (addr lo hi a : Nat), snapScope addr = some (lo, hi) → addr ≠ R.muiSnap →
    (roleOf addr = .snapshot ∨ s.chip.isSealed = false) → (a < lo ∨ hi ≤ a) →
    Answers (.snap t src addr) s (fun c => mapGet resetWord c.latch a = mapGet resetWord s.chip.latch a)) ∧
  (∀ (s : State) (t : Stamp) (src : Source), s.chip.canonical →
    Answers (.snap t src R.muiSnap) s (fun c =>
      c.readReg R.muiNowNs = BitVec.ofNat 32 (t % 1000000000) ∧
      c.readReg R.muiNowShortLo = BitVec.ofNat 32 (t % 2 ^ 32) ∧
      s.chip.writesOnly c [R.muiNowSecLo, R.muiNowSecHi, R.muiNowNs, R.muiNowShortLo, R.muiNowShortHi])) ∧
  (∀ (s : State) (t : Stamp), Answers (.clearRefusalRecord t) s (fun c =>
    c.bit R.pitRef 31 = false ∧ c.fld R.pitRef 30 0 = s.chip.fld R.pitRef 30 0 ∧ s.chip.writesOnly c [R.pitRef] ∧ s.chip.raises c [])) ∧
  (∀ (s : State) (t : Stamp), Answers (.clearDroppedWriteRecord t) s (fun c =>
    c.bit R.pitSwr 31 = false ∧ c.fld R.pitSwr 30 0 = s.chip.fld R.pitSwr 30 0 ∧ s.chip.writesOnly c [R.pitSwr] ∧ s.chip.raises c [])) ∧
  (∀ (s : State) (t : Stamp) (u : Nat), u < 24 → (∀ v ∈ s.chip.violations, v.unit = u → v.stamp ≠ t) →
    (s.chip.bit (R.pruFrec u) 31 = true → s.chip.wide (R.pruFrecStampLo u) (R.pruFrecStampHi u) ≠ shortStamp t) →
    Answers (.clearViolationRecord t u) s (fun c =>
      c.bit (R.pruFrec u) 31 = false ∧ c.fld (R.pruFrec u) 30 0 = s.chip.fld (R.pruFrec u) 30 0 ∧
        s.chip.writesOnly c [R.pruFrec u] ∧ s.chip.raises c [])) ∧
  (∀ (s : State) (t : Stamp) (u : Nat), u < 24 → s.chip.bit (R.pruFrec u) 31 = true →
    s.chip.wide (R.pruFrecStampLo u) (R.pruFrecStampHi u) = shortStamp t →
    Gives (.clearViolationRecord t u) s (s.chip.at t)) ∧
  (∀ (s : State) (t : Stamp) (u : Nat) (v : Violation), u < 24 →
    (s.chip.bit (R.pruFrec u) 31 = true → s.chip.wide (R.pruFrecStampLo u) (R.pruFrecStampHi u) ≠ shortStamp t) →
    v ∈ s.chip.violations → v.unit = u → v.stamp = t →
    (∀ x ∈ s.chip.violations, x.unit = u → x.stamp = t → x = v ∨ v.source < x.source) →
    Answers (.clearViolationRecord t u) s (fun c =>
      c.reg (R.pruFrec u) = BitVec.ofNat 32 (2 ^ 31 + v.cause * 2 ^ 24 + v.kind * 2 ^ 20 + (if v.user then 1 else 0) * 2 ^ 19 +
          v.key * 2 ^ 12 + v.source) ∧
        c.wide (R.pruFrecStampLo u) (R.pruFrecStampHi u) = shortStamp t ∧
        s.chip.raises c [⟨0xE001, .room, t, [.val 1 u, .val 1 v.cause, .val 1 v.kind, .val 1 (if v.user then 1 else 0), .val 1 v.key,
          .val 1 v.source, .val 8 v.addr]⟩] ∧
        s.chip.writesOnly c ([R.pruFrec u, R.pruFrecAddrLo u, R.pruFrecAddrHi u, R.pruFrecStampLo u, R.pruFrecStampHi u] ++ eventRegs)))

/-- R450: a write of `EVJ_ACK` holds the number written, or that of the last record written where the number is above it, and
ALERT_N then stands as the halt and the last record of each alerting severity above the acknowledged number have it. -/
def Obligations.AcknowledgementClampsAndSetsAlert : Prop :=
  ∀ (s : State) (t : Stamp) (seq last : Nat), last = ((s.chip.reg R.evjNext).toNat + 2 ^ 32 - 1) % 2 ^ 32 →
    Answers (.acknowledge t seq) s (fun c =>
      (seqAbove (seq % 2 ^ 32) last = true → (c.reg R.evjAck).toNat = last) ∧
      (seqAbove (seq % 2 ^ 32) last = false → (c.reg R.evjAck).toNat = seq % 2 ^ 32) ∧
      c.bit R.evjStat 31 = (s.chip.bit R.pitStat 30 || s.chip.jrn.sevLast.any (fun e =>
        decide (e.1 ≤ s.chip.fld R.evjAlert 2 0) && seqAbove e.2 (c.reg R.evjAck).toNat)) ∧
      c.fld R.evjStat 30 0 = s.chip.fld R.evjStat 30 0 ∧
      s.chip.writesOnly c [R.evjAck, R.evjStat] ∧ s.chip.raises c [])

/-- R446 to R448: the oldest queued event leaves the queue and becomes the next record, of which each 28 bytes of content beyond
the first 28 make a further one, and the number of the next record advances. The record holds the stamp, the event, the
severity and the mark of an action from the first matching policy, and the content; it goes to its place in the open ring, as
far as the journal's protection unit lets it pass, or to the watch cores' memory while the ring is closed. With the ring
closed and the watch cores' memory full the event is dropped and counted instead; with no event queued nothing happens. An
event that no policy matches has severity 5 (R439). R514: occurrences counted within the second after a rate-limited event
are raised once that second has ended, as one event with the first occurrence's stamp and fields and their number, and a new
second begins; before that, and where none has been counted, nothing happens. -/
def Obligations.QueuedEventsBecomeRecords : Prop :=
  (∀ (s : State) (t : Stamp) (e : Ev) (rest : List Ev), s.chip.evq = e :: rest →
    (s.chip.bit R.evjStat 29 = true ∨ s.chip.jrn.kept.length < keptCap) →
    Answers (.eventRecordWrite t) s (fun c => c.evq.take rest.length = rest ∧
      (c.reg R.evjNext).toNat = ((s.chip.reg R.evjNext).toNat + max 1 (((contentBytes e.content).length + 27) / 28)) % 2 ^ 32 ∧
      (s.chip.bit R.evjStat 29 = false → c.dram = s.chip.dram ∧ c.jrn.kept.take s.chip.jrn.kept.length = s.chip.jrn.kept ∧
        c.jrn.kept.length = s.chip.jrn.kept.length + max 1 (((contentBytes e.content).length + 27) / 28)) ∧
      c.tbw = s.chip.tbw)) ∧
  (∀ (s : State) (t : Stamp) (e : Ev) (rest : List Ev) (sev : Nat) (acted : Bool), s.chip.evq = e :: rest →
    s.chip.bit R.evjStat 29 = false → s.chip.jrn.kept.length < keptCap → (contentBytes e.content).length ≤ 28 →
    sev = (match s.chip.policies e.code e.place.level with | p :: _ => p.severity | [] => 5) →
    acted = (s.chip.policies e.code e.place.level).any (fun p => p.action != 0) →
    Answers (.eventRecordWrite t) s (fun c =>
      c.jrn.kept.getLast?.map (fun r => (r.length, r.take 60)) = some (64, (s.chip.clearNoTime t).recordBody t
        (s.chip.reg R.evjNext).toNat e e.code sev acted (contentBytes e.content)) ∧
      c.reg (R.evjCnt 0) = (s.chip.bump (R.evjCnt 0)).reg (R.evjCnt 0))) ∧
  (∀ (s : State) (t : Stamp) (e : Ev) (rest : List Ev) (sev : Nat) (acted : Bool) (a o : Nat), s.chip.evq = e :: rest →
    s.chip.bit R.evjStat 29 = true → (contentBytes e.content).length ≤ 28 →
    sev = (match s.chip.policies e.code e.place.level with | p :: _ => p.severity | [] => 5) →
    acted = (s.chip.policies e.code e.place.level).any (fun p => p.action != 0) →
    a = s.chip.base40 R.evjRingLo R.evjRingHi + (s.chip.reg R.evjNext).toNat % 2 ^ s.chip.fld R.evjSize 4 0 * 64 →
    s.chip.passes ⟨22, 0, false, 1, 8, 0, a, 64, [], 0⟩ → s.chip.inDram a 64 = true →
    (o + dramBase < a ∨ a + 64 ≤ o + dramBase) →
    Answers (.eventRecordWrite t) s (fun c =>
      c.dramBytes a 60 = (s.chip.clearNoTime t).recordBody t (s.chip.reg R.evjNext).toNat e e.code sev acted
        (contentBytes e.content) ∧
      mapGet dramDefault c.dram o = mapGet dramDefault s.chip.dram o ∧ c.jrn.kept = s.chip.jrn.kept)) ∧
  (∀ (s : State) (t : Stamp) (e : Ev) (rest : List Ev), s.chip.evq = e :: rest →
    s.chip.bit R.evjStat 29 = false → keptCap ≤ s.chip.jrn.kept.length →
    Answers (.eventRecordWrite t) s (fun c => c.evq = rest ∧
      (c.reg (R.evjCnt 1)).toNat = min ((s.chip.reg (R.evjCnt 1)).toNat + 1) (2 ^ 32 - 1) ∧
      c.jrn = s.chip.jrn ∧ s.chip.writesOnly c [R.evjStat, R.evjCnt 1])) ∧
  (∀ (s : State) (t : Stamp), s.chip.evq = [] → Gives (.eventRecordWrite t) s (s.chip.at t)) ∧
  (∀ (s : State) (t : Stamp) (code unit : Nat) (l : Stamp) (e : Ev) (n : Nat),
    mapGet rateDefault s.chip.rate (rateKey code unit) = { last := some l, count := n, first := some e } →
    elapsed t l nsPerS = true → 0 < n →
    Answers (.rateLimitWindowEnd t code unit) s (fun c =>
      s.chip.raises c [e.withCount n] ∧
      mapGet rateDefault c.rate (rateKey code unit) = { last := some t, count := 0, first := none } ∧
      (s.chip.evq.length < evqCap → c.fld R.evjStat 10 0 = s.chip.evq.length + 1) ∧ s.chip.writesOnly c eventRegs)) ∧
  (∀ (s : State) (t : Stamp) (code unit : Nat) (l : Stamp),
    (mapGet rateDefault s.chip.rate (rateKey code unit)).last = some l →
    (elapsed t l nsPerS = false ∨ (mapGet rateDefault s.chip.rate (rateKey code unit)).count = 0) →
    Gives (.rateLimitWindowEnd t code unit) s (s.chip.at t))

/-- R414, R415, R488: at T_R every register takes its reset value (`PIT_STAT.CAUSE`, the running step and the side pin apart),
the event queue, the pegs and the records are empty, and the fuses stay. T_R falls at the end of the power-on hold, while the
rails have been within their tolerances, or at the release of RESET_N when that comes later; a hold with a rail out of its
tolerance goes on. RESET_N low puts the part into reset at once, with both fault pins released. -/
def Obligations.ResetLeavesResetValuesAndFuses : Prop :=
  (∀ (s : State) (t : Stamp) (side a : Nat) (rails : List (Nat × Nat)), side < 2 → rails.length = 12 → railsWithin rails = true →
    s.chip.pitch.held = true → s.chip.pitch.resetLow = false →
    Answers (.powerOnHoldEnd t side rails) s (fun c =>
      c.bit R.pitStat 29 = false ∧ c.fld R.pitStat 23 20 = 1 ∧ c.fld R.twnCfg 16 16 = side ∧
      (a ≠ R.pitStat → a ≠ R.twnCfg → c.reg a = resetWord a) ∧
      c.evq = [] ∧ c.peg = {} ∧ c.jrn = {} ∧ c.slots = [] ∧ c.pitch.fuses = s.chip.pitch.fuses ∧ c.pitch.tr = t)) ∧
  (∀ (s : State) (t : Stamp) (side : Nat) (rails : List (Nat × Nat)), side < 2 → rails.length = 12 → railsWithin rails = true →
    s.chip.pitch.held = true → s.chip.pitch.resetLow = true →
    Answers (.powerOnHoldEnd t side rails) s (fun c => c.pitch.held = false ∧ c.pitch.resetLow = true ∧ c.evq = s.chip.evq ∧
      s.chip.writesOnly c [])) ∧
  (∀ (s : State) (t : Stamp) (side : Nat) (rails : List (Nat × Nat)), side < 2 → rails.length = 12 →
    (railsWithin rails = false ∨ s.chip.pitch.held = false) → Gives (.powerOnHoldEnd t side rails) s (s.chip.at t)) ∧
  (∀ (s : State) (t : Stamp) (a : Nat), Answers (.resetNLow t) s (fun c =>
      c.pitch.resetLow = true ∧ c.pitch.held = s.chip.pitch.held ∧ c.reg a = resetWord a ∧ c.evq = [] ∧ c.peg = {} ∧ c.jrn = {} ∧
      c.pitch.fuses = s.chip.pitch.fuses ∧
      c.tx = s.chip.tx ++ (if s.chip.bit R.evjStat 31 = true then [.alertN 0] else []) ++
        (if s.chip.bit R.evjStat 30 = true then [.faultN 0] else []))) ∧
  (∀ (s : State) (t : Stamp) (side a : Nat), side < 2 → s.chip.pitch.resetLow = true → s.chip.pitch.held = false →
    Answers (.resetNRelease t side) s (fun c =>
      (c.bit R.pitStat 29 = true ↔ s.chip.pitch.fromPower = false) ∧ c.fld R.pitStat 23 20 = 1 ∧ c.fld R.twnCfg 16 16 = side ∧
      (a ≠ R.pitStat → a ≠ R.twnCfg → c.reg a = resetWord a) ∧ c.evq = [] ∧ c.peg = {} ∧ c.jrn = {} ∧
      c.pitch.fuses = s.chip.pitch.fuses ∧ c.pitch.tr = t)) ∧
  (∀ (s : State) (t : Stamp) (side : Nat), side < 2 → s.chip.pitch.resetLow = true → s.chip.pitch.held = true →
    Answers (.resetNRelease t side) s (fun c => c.pitch.resetLow = false ∧ c.pitch.held = true ∧ s.chip.writesOnly c [])) ∧
  (∀ (s : State) (t : Stamp) (side : Nat), side < 2 → s.chip.pitch.resetLow = false →
    Gives (.resetNRelease t side) s (s.chip.at t))

/-- R425, R427: at step 1 the boot ROM starts base firmware from slot A when every check of slot A passes. When a check fails and
ALT_EN is blown it leaves slot A with event 0x0107 and starts from slot B where that passes. Where slot B does not pass
either, and where ALT_EN is unblown, pitch halts at step 1, with the cause of the check that failed (slot A's where slot B
has no image), FAULT_N asserted and event 0x0102. R426, R427: CHECK halts pitch at step 2 where the register of the part's
identity does not match (cause 7) or the image faults a check; where a digest or tag of slot A fails and ALT_EN is blown,
slot B comes into use. Where CHECK passes, APPLY sets what the image sets, every protection unit is enabled, and APPLY's end
is kept, with the times of both steps; pitch goes on to step 4. The end of training leaves its results in the trim registers
and in effect, and writes `PIT_TIMES[4]`; LOAD opens the ring of the journal and writes `PIT_TIMES[5]`. A channel that does
not train halts pitch with cause 9, a section whose digest no longer holds with cause 6, and a store of LOAD that meets a
protection fault with cause 10. -/
def Obligations.PitchBootsChecksAppliesAndTrains : Prop :=
  (∀ (s : State) (t : Stamp) (link : Bool) (f : Fuses) (a b : FlashImage), s.chip.atStep 1 = true →
    s.chip.pitch.image = none → bootFail (Fuses.join s.chip.pitch.fuses f) a = none →
    Answers (.bootRomStart t link f a b) s (fun c =>
      c.pitch.image = some a ∧ c.pitch.fuses = Fuses.join s.chip.pitch.fuses f ∧ c.fld R.pitStat 23 20 = 2 ∧
      c.fld R.pitStat 5 0 = leAt a.header 13 1 % 64 ∧ c.fld R.pitStat 13 8 = min (max s.chip.pitch.fuses.svn f.svn) 63 ∧
      c.bit R.pitStat 30 = false ∧ c.bit R.pitStat 28 = s.chip.bit R.pitStat 28 ∧ c.bit R.sysD2dStat 31 = link ∧
      c.reg (R.pitTimes 0) = BitVec.ofNat 32 c.sinceReset ∧
      s.chip.writesOnly c [R.pitStat, R.sysD2dStat, R.pitTimes 0] ∧ s.chip.raises c [])) ∧
  (∀ (s : State) (t : Stamp) (link : Bool) (f : Fuses) (a b : FlashImage) (k cause : Nat), s.chip.atStep 1 = true →
    s.chip.pitch.image = none → bootFail (Fuses.join s.chip.pitch.fuses f) a = some (k, cause) →
    (s.chip.pitch.fuses.altEn || f.altEn) = true → bootFail (Fuses.join s.chip.pitch.fuses f) b = none →
    Answers (.bootRomStart t link f a b) s (fun c =>
      c.pitch.image = some b ∧ c.fld R.pitStat 23 20 = 2 ∧ c.bit R.pitStat 28 = true ∧ c.bit R.pitStat 30 = false ∧
      s.chip.writesOnly c ([R.pitStat, R.sysD2dStat, R.pitTimes 0] ++ eventRegs) ∧
      s.chip.raises c [⟨0x0107, .room, t, [.val 4 k]⟩])) ∧
  (∀ (s : State) (t : Stamp) (link : Bool) (f : Fuses) (a b : FlashImage) (k cause j other halt : Nat), s.chip.atStep 1 = true →
    s.chip.pitch.image = none → bootFail (Fuses.join s.chip.pitch.fuses f) a = some (k, cause) →
    (s.chip.pitch.fuses.altEn || f.altEn) = true → bootFail (Fuses.join s.chip.pitch.fuses f) b = some (j, other) →
    halt = (if other = 1 then cause else other) →
    Answers (.bootRomStart t link f a b) s (fun c =>
      c.pitch.image = none ∧ c.fld R.pitStat 23 20 = 1 ∧ c.bit R.pitStat 30 = true ∧ c.fld R.pitStat 19 16 = halt ∧
      c.bit R.pitStat 28 = true ∧ c.bit R.evjStat 30 = true ∧ c.bit R.evjStat 31 = true ∧
      s.chip.writesOnly c ([R.pitStat, R.sysD2dStat] ++ eventRegs) ∧
      s.chip.raises c [⟨0x0107, .room, t, [.val 4 k]⟩, ⟨0x0102, .room, t, [.val 1 1, .val 1 halt, .val 4 0, .val 4 0]⟩])) ∧
  (∀ (s : State) (t : Stamp) (link : Bool) (f : Fuses) (a b : FlashImage) (k cause : Nat), s.chip.atStep 1 = true →
    s.chip.pitch.image = none → bootFail (Fuses.join s.chip.pitch.fuses f) a = some (k, cause) →
    (s.chip.pitch.fuses.altEn || f.altEn) = false →
    Answers (.bootRomStart t link f a b) s (fun c =>
      c.pitch.image = none ∧ c.fld R.pitStat 23 20 = 1 ∧ c.bit R.pitStat 30 = true ∧ c.fld R.pitStat 19 16 = cause ∧
      c.bit R.evjStat 30 = true ∧ c.bit R.evjStat 31 = true ∧
      s.chip.writesOnly c ([R.pitStat, R.sysD2dStat] ++ eventRegs) ∧
      s.chip.raises c [⟨0x0102, .room, t, [.val 1 1, .val 1 cause, .val 4 0, .val 4 0]⟩])) ∧
  (∀ (s : State) (t : Stamp) (link : Bool) (f : Fuses) (a b : FlashImage), (s.chip.atStep 1 = false ∨ s.chip.pitch.image ≠ none) →
    Gives (.bootRomStart t link f a b) s (s.chip.at t)) ∧
  (∀ (s : State) (t checked : Stamp) (b i : FlashImage) (cause : Nat) (p : Nat × Nat), s.chip.atStep 2 = true →
    s.chip.pitch.image = some i → (s.chip.at checked).checkFail i = some (cause, p) →
    (cause ≠ 6 ∨ s.chip.pitch.fuses.altEn = false ∨ s.chip.bit R.pitStat 28 = true) →
    Answers (.baseFirmwareStart t checked b) s (fun c =>
      c.bit R.pitStat 30 = true ∧ c.fld R.pitStat 23 20 = 2 ∧ c.fld R.pitStat 19 16 = cause % 16 ∧ c.bit R.evjStat 30 = true ∧
      c.pitch = s.chip.pitch ∧ s.chip.writesOnly c ([R.pitStat] ++ eventRegs) ∧
      s.chip.raises c [⟨0x0102, .room, checked, [.val 1 2, .val 1 cause, .val 4 p.1, .val 4 p.2]⟩])) ∧
  (∀ (s : State) (t checked : Stamp) (b i : FlashImage), s.chip.atStep 2 = true → s.chip.pitch.image = some i →
    (s.chip.at checked).checkFail i = none →
    Answers (.baseFirmwareStart t checked b) s (fun c =>
      c.pitch.applyAt = some t ∧ c.bit R.pitStat 30 = false ∧
      c.fld R.pitStat 23 20 = (if s.chip.pitch.timeDone = false then 4 else if s.chip.pitch.trainDone = false then 5
        else if s.chip.pitch.loadDone = false then 6 else 7) ∧
      c.reg (R.pitTimes 1) = BitVec.ofNat 32 ((checked - s.chip.pitch.tr) / nsPerMs) ∧
      c.reg (R.pitTimes 2) = BitVec.ofNat 32 ((t - s.chip.pitch.tr) / nsPerMs) ∧
      c.pitch.image = some (plainImage s.chip.pitch.fuses.imgKey i) ∧ (∀ u, u < 24 → c.bit (R.pruCtl u) 31 = true) ∧
      c.roomNumber = leAt i.header 18 2 ∧ c.partIndex = leAt i.header (20 + s.chip.fld R.twnCfg 16 16) 1)) ∧
  (∀ (s : State) (t checked : Stamp) (b i : FlashImage), s.chip.atStep 2 = true → s.chip.pitch.image = some i →
    (s.chip.at checked).checkFail i = none →
    Gives (.baseFirmwareStart t checked b) s
      (let c := ((((((s.chip.at checked).setNat (R.pitTimes 1) ((checked - s.chip.pitch.tr) / nsPerMs)).setFld
          R.pitStat 23 20 3).at t).runApply).stepEnd 3);
        { c with pitch := { c.pitch with applyAt := some c.clk } }.showStep)) ∧
  (∀ (s : State) (t checked : Stamp) (b i : FlashImage) (p : Nat × Nat), s.chip.atStep 2 = true → s.chip.pitch.image = some i →
    (s.chip.at checked).checkFail i = some (6, p) → s.chip.pitch.fuses.altEn = true → s.chip.bit R.pitStat 28 = false →
    bootFail s.chip.pitch.fuses b = none → (s.chip.at checked).checkFail b = none →
    Answers (.baseFirmwareStart t checked b) s (fun c =>
      c.pitch.applyAt = some t ∧ c.bit R.pitStat 28 = true ∧ c.bit R.pitStat 30 = false ∧
      c.pitch.image = some (plainImage s.chip.pitch.fuses.imgKey b) ∧
      (s.chip.evq.length < evqCap → (c.evq.drop s.chip.evq.length).head? =
        some ⟨0x0107, .room, checked, [.val 4 (Config.eventCode 0x0107 0)]⟩))) ∧
  (∀ (s : State) (t checked : Stamp) (b : FlashImage), s.chip.atStep 2 = false →
    Gives (.baseFirmwareStart t checked b) s (s.chip.at t)) ∧
  (∀ (s : State) (t loaded : Stamp) (trims : List (Nat × Nat × Word)), (Instr.trainDone t [] trims loaded).wellFormed = true →
    s.chip.pitch.applyAt ≠ none → s.chip.pitch.trainDone = false → s.chip.bit R.pitStat 30 = false →
    Answers (.trainDone t [] trims loaded) s (fun c =>
      c.pitch.trainDone = true ∧ (∀ n, n < 16 → c.bit (R.dmcChStat n) 31 = true) ∧
      c.reg (R.pitTimes 4) = BitVec.ofNat 32 ((t - s.chip.pitch.tr) / nsPerMs))) ∧
  (∀ (s : State) (t loaded : Stamp) (trims : List (Nat × Nat × Word)), (Instr.trainDone t [] trims loaded).wellFormed = true →
    s.chip.pitch.applyAt ≠ none → s.chip.pitch.trainDone = false → s.chip.bit R.pitStat 30 = false →
    s.chip.rereadFail = none → ((s.chip.at loaded).runLoad).2 = true →
    Answers (.trainDone t [] trims loaded) s (fun c =>
      c.pitch.trainDone = true ∧ c.pitch.loadDone = true ∧ c.bit R.evjStat 29 = true ∧ c.jrn.kept = [] ∧
      c.reg (R.pitTimes 4) = BitVec.ofNat 32 ((t - s.chip.pitch.tr) / nsPerMs) ∧
      c.reg (R.pitTimes 5) = BitVec.ofNat 32 ((loaded - s.chip.pitch.tr) / nsPerMs) ∧
      c.fld R.pitStat 23 20 = (if s.chip.pitch.timeDone = true then 7 else 4) ∧ c.bit R.pitStat 30 = false)) ∧
  (∀ (s : State) (t loaded : Stamp) (trims : List (Nat × Nat × Word)) (n i k : Nat) (v : Word),
    (Instr.trainDone t [] [(n, i, v)] loaded).wellFormed = true →
    s.chip.pitch.applyAt ≠ none → s.chip.pitch.trainDone = false → s.chip.bit R.pitStat 30 = false →
    s.chip.isSealed = false → s.chip.rereadFail = some k →
    Answers (.trainDone t [] [(n, i, v)] loaded) s (fun c =>
      c.bit R.pitStat 30 = true ∧ c.fld R.pitStat 19 16 = 6 ∧ c.fld R.pitStat 23 20 = 6 ∧ c.pitch.loadDone = s.chip.pitch.loadDone ∧
      mapGet resetWord c.trims (trimAddr n i) = c.reg (trimAddr n i) ∧
      s.chip.raises c [⟨0x0102, .room, loaded, [.val 1 6, .val 1 6, .val 4 k, .val 4 64]⟩])) ∧
  (∀ (s : State) (t loaded : Stamp) (trims : List (Nat × Nat × Word)), (Instr.trainDone t [] trims loaded).wellFormed = true →
    s.chip.pitch.applyAt ≠ none → s.chip.pitch.trainDone = false → s.chip.bit R.pitStat 30 = false →
    s.chip.rereadFail = none → ((s.chip.at loaded).runLoad).2 = false →
    Answers (.trainDone t [] trims loaded) s (fun c =>
      c.bit R.pitStat 30 = true ∧ c.fld R.pitStat 19 16 = 10 ∧ c.fld R.pitStat 23 20 = 6 ∧ c.pitch.loadDone = s.chip.pitch.loadDone)) ∧
  (∀ (s : State) (t loaded : Stamp) (bad : List (Nat × Nat)) (trims : List (Nat × Nat × Word)),
    (Instr.trainDone t bad trims loaded).wellFormed = true → bad ≠ [] → s.chip.isSealed = false →
    s.chip.pitch.applyAt ≠ none → s.chip.pitch.trainDone = false → s.chip.bit R.pitStat 30 = false →
    Answers (.trainDone t bad trims loaded) s (fun c =>
      c.bit R.pitStat 30 = true ∧ c.fld R.pitStat 19 16 = 9 ∧ c.fld R.pitStat 23 20 = 5 ∧ c.pitch.trainDone = false ∧
      (∀ n, n < 16 → (c.bit (R.dmcChStat n) 31 = false ↔ n ∈ bad.map Prod.fst)) ∧
      s.chip.raises c (bad.map (fun x => ⟨0xD009, .room, t, [.val 1 x.1, .val 1 x.2]⟩) ++
        [⟨0x0102, .room, t, [.val 1 5, .val 1 9, .val 4 0, .val 4 0]⟩]))) ∧
  (∀ (s : State) (t loaded : Stamp) (bad : List (Nat × Nat)) (trims : List (Nat × Nat × Word)),
    (Instr.trainDone t bad trims loaded).wellFormed = true →
    (s.chip.pitch.applyAt = none ∨ s.chip.pitch.trainDone = true ∨ s.chip.bit R.pitStat 30 = true) →
    Gives (.trainDone t bad trims loaded) s (s.chip.at t))

/-- R106, R33, R233, R428: TIME ends with the counter loaded for the best available entry, or from the creation stamp where none
is available: the count of loads advances, the timebase acquires (or runs free), 0x0802 tells the load, every feeder that was
in sync resynchronises, and step 4 has ended. A later load of the counter, for the entry that base firmware was to load it
for, does the same and makes the running heads restart; without such an entry nothing happens. R220, R426, R431, R347: HEADS
turns on the held enables, starts the camera sequences and each user program, and takes the part's active harts; a camera
sequence that ends puts its writes on the pipeline's camera control interface, and one that is refused raises 0x5003. The
part seals once HEADS has ended and the timebase is TETHERED or the seal wait is over: SEALED reads 1, step 8 ends, the first
claim of a twin is its rank, the fused version follows an image that says so, 0x0101 tells the steps' times, and JTAG and the
flash are closed; before that nothing seals. -/
def Obligations.TimeIsSetHeadsRunAndPartSeals : Prop :=
  (∀ (s : State) (t : Stamp), s.chip.pitch.timeDone = false → s.chip.bit R.pitStat 30 = false → (s.chip.at t).timeReady = true →
    (s.chip.at t).bestAvailable = none →
    Answers (.timeSet t) s (fun c =>
      c.clk = s.chip.creation ∧ c.fld R.muiStat 2 0 = 5 ∧ c.bit R.muiStat 11 = false ∧
      c.fld R.muiStat 23 16 = (s.chip.fld R.muiStat 23 16 + 1) % 256 ∧ c.pitch.timeDone = true ∧ c.mui.loadMark = true ∧
      (∀ f, f < 256 → c.feederSync f = false) ∧
      s.chip.writesOnly c ([R.muiStat, R.pitStat, R.pitTimes 3] ++ (List.range 256).map R.pntFeedStat ++ eventRegs) ∧
      (s.chip.evq.length < evqCap → (c.evq.drop s.chip.evq.length).head?.map (fun e => (e.code, e.content.take 2)) =
        some (0x0802, [.val 8 (shortStamp t), .val 8 (shortStamp s.chip.creation)])))) ∧
  (∀ (s : State) (t : Stamp) (e k : Nat), s.chip.pitch.timeDone = false → s.chip.bit R.pitStat 30 = false →
    (s.chip.at t).timeReady = true → (s.chip.at t).bestAvailable = some e → (s.chip.at t).entryInput e = some k →
    Answers (.timeSet t) s (fun c =>
      c.fld R.muiStat 2 0 = 1 ∧ c.fld R.muiStat 23 16 = (s.chip.fld R.muiStat 23 16 + 1) % 256 ∧ c.pitch.timeDone = true ∧
      c.clk = (s.chip.at t).loadValue s.chip.creation e k ∧ c.mui.loadMark = true ∧ (∀ f, f < 256 → c.feederSync f = false) ∧
      c.activeInput = some k)) ∧
  (∀ (s : State) (t : Stamp) (e k : Nat), s.chip.pitch.timeDone = true → s.chip.isSealed = false → s.chip.bit R.pitStat 30 = false →
    (s.chip.at t).reloadEntry = some e → (s.chip.at t).entryInput e = some k →
    Answers (.masterCounterReload t) s (fun c =>
      c.fld R.muiStat 2 0 = 1 ∧ c.fld R.muiStat 23 16 = (s.chip.fld R.muiStat 23 16 + 1) % 256 ∧ c.mui.reload = none ∧
      c.clk = (s.chip.at t).loadValue s.chip.creation e k ∧ c.mui.loadMark = true ∧ (∀ f, f < 256 → c.feederSync f = false) ∧
      (∀ h, h < 32 → s.chip.headRun h = 2 → c.headRun h = 2 ∧ (c.head h).restart = true))) ∧
  (∀ (s : State) (t : Stamp) (e : Nat), s.chip.pitch.timeDone = true → s.chip.isSealed = false → s.chip.bit R.pitStat 30 = false →
    (s.chip.at t).reloadEntry = some e →
    Gives (.masterCounterReload t) s (((s.chip.at t).loadTime (some e)).restartHeads)) ∧
  (∀ (s : State) (t : Stamp), ((s.chip.at t).reloadEntry = none ∨ s.chip.pitch.timeDone = false ∨ s.chip.isSealed = true ∨
      s.chip.bit R.pitStat 30 = true) →
    Gives (.masterCounterReload t) s (s.chip.at t)) ∧
  (∀ (s : State) (t : Stamp), (s.chip.pitch.timeDone = true ∨ s.chip.bit R.pitStat 30 = true ∨ (s.chip.at t).timeReady = false) →
    Gives (.timeSet t) s (s.chip.at t)) ∧
  (∀ (s : State) (t : Stamp) (harts : List Nat), s.chip.atStep 7 = true → s.chip.pitch.headsBegun = false →
    harts.all (fun h => decide (h < 8)) = true →
    Answers (.headsStart t harts) s (fun c =>
      c.pitch.headsBegun = true ∧
      c.pitch.initRun = (List.range 8).filter (fun p => (initEntry (s.chip.sectionBytes 9) p).2 != 0) ∧
      c.mgt.harts = harts.map (fun h => (h, t, false)) ∧
      (∀ n, n < (s.chip.sections 5).length → TxMsg.program n ∈ c.tx) ∧
      (∀ h, h < 32 → c.bit (R.hedCtl h) 31 = true → c.bit (R.cmpStat h) 31 = true))) ∧
  (∀ (s : State) (t : Stamp) (harts : List Nat), (s.chip.atStep 7 = false ∨ s.chip.pitch.headsBegun = true) →
    harts.all (fun h => decide (h < 8)) = true → Gives (.headsStart t harts) s (s.chip.at t)) ∧
  (∀ (s : State) (t : Stamp) (p done : Nat), p < 8 → p ∈ s.chip.pitch.initRun →
    Answers (.caminitDone t p done false) s (fun c =>
      c.pitch.initRun = s.chip.pitch.initRun.filter (fun q => q != p) ∧
      c.tx = s.chip.tx ++ (s.chip.initWrites p).map (fun w => .cci p (s.chip.fld (R.camCtl p) 20 14) w.1 w.2) ∧
      s.chip.writesOnly c [R.pitTimes 6] ∧ s.chip.raises c [])) ∧
  (∀ (s : State) (t : Stamp) (p done : Nat), p < 8 → p ∈ s.chip.pitch.initRun →
    Answers (.caminitDone t p done true) s (fun c =>
      c.tx = s.chip.tx ++ ((s.chip.initWrites p).take done).map (fun w => .cci p (s.chip.fld (R.camCtl p) 20 14) w.1 w.2) ∧
      s.chip.raises c [⟨0x5003, .room, t,
        [.val 1 p, .val 2 0xFFFF, .val 2 ((s.chip.initWrites p).getD done (0, [])).1]⟩])) ∧
  (∀ (s : State) (t : Stamp) (p done : Nat) (refused : Bool), p < 8 → p ∉ s.chip.pitch.initRun →
    Gives (.caminitDone t p done refused) s (s.chip.at t)) ∧
  (∀ (s : State) (t x : Stamp), s.chip.pitch.headsEnd = some x → s.chip.fld R.muiStat 2 0 ≠ 2 →
    elapsed t x (s.chip.hdr 22 2 * nsPerS) = false →
    Gives (.sealPart t) s (s.chip.at t)) ∧
  (∀ (s : State) (t x : Stamp), s.chip.pitch.headsEnd = some x →
    (s.chip.fld R.muiStat 2 0 = 2 ∨ elapsed t x (s.chip.hdr 22 2 * nsPerS) = true) → s.chip.atStep 7 = true →
    s.chip.isSealed = false →
    Answers (.sealPart t) s (fun c =>
      c.bit R.pitStat 31 = true ∧ c.fld R.pitStat 23 20 = 8 ∧ c.bit R.muiStat 8 = true ∧
      (s.chip.twinOn = true → c.reg R.twnClaimOwn = BitVec.ofNat 32 (256 + s.chip.fld R.twnCfg 7 0)) ∧
      c.pitch.sealAt = some t ∧ c.jtagOpen = false ∧ c.xspiOpen = false ∧
      (∀ f, f ∈ s.chip.peg.pegs → f ∉ c.peg.pegs) ∧
      (s.chip.hdr 14 1 < 128 → c.pitch.fuses = s.chip.pitch.fuses) ∧
      (128 ≤ s.chip.hdr 14 1 → c.pitch.fuses.svn = max s.chip.pitch.fuses.svn (s.chip.hdr 13 1)) ∧
      (s.chip.peg.pegs = [] → s.chip.evq.length < evqCap →
        (⟨0x0101, .room, t, (List.range 7).map (fun i => .val 4 (s.chip.reg (R.pitTimes i)).toNat) ++
          [.val 1 (s.chip.fld R.muiStat 2 0)]⟩ : Ev) ∈ c.evq)))

/-- R93: a test of a reference input that fails (an activity gap on inputs 3, 4 and 6, a PPS edge missing past 1 s + 1 µs on
inputs 3 to 5, no announce within the receipt timeout on inputs 0 and 1) marks the input with the failing test, keeps the
first cause since the last evaluation, drops the jump test's prediction and starts its qualification again. The other inputs,
every register and every byte stay, and no event is raised; a port whose announces time out also loses its master. R92, R93,
R97: a valid GNSS sentence labels the next PPS edge with the sentence's UTC seconds plus 1 s as TAI; another changes nothing.
A PPS edge is kept as the input's last edge, and the edge of input 5 uses the label up. An edge of input 3 or 4 one second
(to within 1 µs) after the last one, of an input that qualifies with no failing test, within the far limit, gives the input
its φ, starts the prediction, and counts for the qualification. The other inputs stay, no byte is written, and no register
but those of the event journal and, with the link between the dies down, `SYS_D2D_STAT`. -/
def Obligations.ReferenceInputsFailAndKeepTheirEdges : Prop :=
  (∀ (s : State) (t : Stamp) (k : Nat), k = 3 ∨ k = 4 ∨ k = 6 → Answers (.activityGap t k) s (fun c =>
    1 ∈ (c.refIn k).failing ∧ (c.refIn k).firstFail = (if (s.chip.refIn k).firstFail = 0 then 1 else (s.chip.refIn k).firstFail) ∧
      (c.refIn k).predicted = false ∧ (c.refIn k).qualCount = 0 ∧ (∀ j, j < 7 → j ≠ k → c.refIn j = s.chip.refIn j) ∧
      s.chip.writesOnly c [] ∧ s.chip.raises c [])) ∧
  (∀ (s : State) (t : Stamp) (k edge : Nat), 3 ≤ k → k ≤ 5 → (s.chip.refIn k).lastEdge = some edge →
    elapsed t (edge / 256) 1000001000 = true → Answers (.ppsTimeout t k) s (fun c =>
      2 ∈ (c.refIn k).failing ∧ (c.refIn k).firstFail = (if (s.chip.refIn k).firstFail = 0 then 2 else (s.chip.refIn k).firstFail) ∧
        (c.refIn k).predicted = false ∧ (c.refIn k).qualCount = 0 ∧ (∀ j, j < 7 → j ≠ k → c.refIn j = s.chip.refIn j) ∧
        s.chip.writesOnly c [] ∧ s.chip.raises c [])) ∧
  (∀ (s : State) (t : Stamp) (p : Nat), p < 2 → Answers (.announceTimeout t p) s (fun c =>
    5 ∈ (c.refIn p).failing ∧ (c.refIn p).firstFail = (if (s.chip.refIn p).firstFail = 0 then 5 else (s.chip.refIn p).firstFail) ∧
      (c.refIn p).predicted = false ∧ (c.refIn p).qualCount = 0 ∧ (∀ j, j < 7 → j ≠ p → c.refIn j = s.chip.refIn j) ∧
      (c.ptp p).master = none ∧ (c.ptp p).heard = [] ∧ (∀ q, q < 2 → q ≠ p → c.ptp q = s.chip.ptp q) ∧
      s.chip.writesOnly c [] ∧ s.chip.raises c [])) ∧
  (∀ (s : State) (t : Stamp) (utc : Nat), Answers (.gnssSentence t utc true) s (fun c =>
    (c.refIn 5).label = some (((utc : Int) + 1 + s.chip.taiOffset).toNat, t) ∧
      (∀ j, j < 7 → j ≠ 5 → c.refIn j = s.chip.refIn j) ∧ s.chip.writesOnly c [] ∧ s.chip.raises c [])) ∧
  (∀ (s : State) (t : Stamp) (utc : Nat), Gives (.gnssSentence t utc false) s (s.chip.at t)) ∧
  (∀ (s : State) (t : Stamp) (k edge : Nat), 3 ≤ k → k ≤ 5 → Answers (.ppsEdge t k edge) s (fun c =>
    (c.refIn k).lastEdge = some edge ∧ (c.refIn k).seen = true ∧ (k = 5 → (c.refIn k).label = none) ∧
      (∀ j, j < 7 → j ≠ k → c.refIn j = s.chip.refIn j) ∧
      s.chip.writesOnly c ((if s.chip.d2dUp = true then [] else [R.sysD2dStat]) ++ eventRegs))) ∧
  (∀ (s : State) (t : Stamp) (k edge last : Nat) (phi : Int), k = 3 ∨ k = 4 → (s.chip.refIn k).lastEdge = some last →
    ((edge : Int) - last - 256000000000).natAbs ≤ 256000 → (s.chip.refIn k).failing = [] → (s.chip.refIn k).predicted = false →
    s.chip.refState k = 2 →
    phi = (edge : Int) - 256 * s.chip.sfld (R.refDly (k - 3)) 31 0 -
      ((edge : Int) - 256 * s.chip.sfld (R.refDly (k - 3)) 31 0 + 128000000000) / 256000000000 * 256000000000 →
    (s.chip.bit R.muiStat 8 = false ∨ (phi.natAbs : Int) ≤ s.chip.fld R.refQualPhase 31 16 * 1000 * 256) →
    Answers (.ppsEdge t k edge) s (fun c =>
      (c.refIn k).phi = some phi ∧ (c.refIn k).phiAt = t ∧ (c.refIn k).predicted = true ∧ (c.refIn k).failing = [] ∧
      (c.refIn k).qualCount = (s.chip.refIn k).qualCount + 1 ∧ s.chip.raises c []))

/-- R95, R96: on a PTP port, over the IP version that the port has selected: an Announce in the port's domain makes its sender
heard, and the best of the senders heard is the port's master. A one-step Sync from the master in the domain is kept and
answered with a Delay_Req, multicast or to the sender's address as the port has it; a two-step Sync is kept, and its
Follow_Up answered so. The Delay_Resp to it ends the exchange, which joins the window, or fills it and empties it. A message
of another kind, IP version, domain or sender changes nothing. -/
def Obligations.PtpSyncFromMasterIsAnswered : Prop :=
  (∀ (s : State) (t : Stamp) (p sender seq t1 t2 saddr : Nat) (v6 : Bool) (corr : Int) (a : Announce), p < 2 →
    v6 = s.chip.bit (R.refPtp p) 30 → (s.chip.ptp p).master = some a → a.sender = sender → s.chip.subportOn p 0 = true →
    Answers (.ptpMessageReceive t p ⟨v6, saddr, .sync (s.chip.fld (R.refPtp p) 23 16) sender seq false t1 t2 corr⟩) s (fun c =>
      (c.ptp p).sync = some (sender, seq, some t1, t2, corr) ∧ (c.ptp p).master = some a ∧
        (∀ q, q < 2 → q ≠ p → c.ptp q = s.chip.ptp q) ∧
        c.tx = s.chip.tx ++ [.delayReq p v6 (if s.chip.bit (R.refPtp p) 29 = true then some saddr else none) seq] ∧
        s.chip.writesOnly c [R.netCnt p 0 3] ∧ s.chip.raises c [])) ∧
  (∀ (s : State) (t : Stamp) (p sender seq t1 t2 saddr : Nat) (v6 : Bool) (corr : Int) (a : Announce), p < 2 →
    v6 = s.chip.bit (R.refPtp p) 30 → (s.chip.ptp p).master = some a → a.sender = sender →
    Answers (.ptpMessageReceive t p ⟨v6, saddr, .sync (s.chip.fld (R.refPtp p) 23 16) sender seq true t1 t2 corr⟩) s (fun c =>
      (c.ptp p).sync = some (sender, seq, none, t2, corr) ∧ (∀ q, q < 2 → q ≠ p → c.ptp q = s.chip.ptp q) ∧ c.tx = s.chip.tx ∧
        s.chip.writesOnly c [] ∧ s.chip.raises c [])) ∧
  (∀ (s : State) (t : Stamp) (p sender seq t1 t2 saddr : Nat) (v6 : Bool) (corr0 corr : Int) (a : Announce), p < 2 →
    v6 = s.chip.bit (R.refPtp p) 30 → (s.chip.ptp p).master = some a → a.sender = sender → s.chip.subportOn p 0 = true →
    (s.chip.ptp p).sync = some (sender, seq, none, t2, corr0) →
    Answers (.ptpMessageReceive t p ⟨v6, saddr, .followUp (s.chip.fld (R.refPtp p) 23 16) sender seq t1 corr⟩) s (fun c =>
      (c.ptp p).sync = some (sender, seq, some t1, t2, corr0 + corr) ∧
        c.tx = s.chip.tx ++ [.delayReq p v6 (if s.chip.bit (R.refPtp p) 29 = true then some saddr else none) seq] ∧
        s.chip.writesOnly c [R.netCnt p 0 3] ∧ s.chip.raises c [])) ∧
  (∀ (s : State) (t : Stamp) (p sender seq t1 t2 t3 t4 saddr : Nat) (v6 : Bool) (corr0 corr : Int) (a : Announce), p < 2 →
    v6 = s.chip.bit (R.refPtp p) 30 → (s.chip.ptp p).master = some a → a.sender = sender →
    (s.chip.ptp p).sync = some (sender, seq, some t1, t2, corr0) →
    Answers (.ptpMessageReceive t p ⟨v6, saddr, .delayResp (s.chip.fld (R.refPtp p) 23 16) sender seq t3 t4 corr⟩) s (fun c =>
      (c.ptp p).sync = none ∧ (c.ptp p).master = some a ∧
        (c.ptp p).window = (if s.chip.ptpWin p ≤ (s.chip.ptp p).window.length + 1 then [] else (s.chip.ptp p).window ++
          [ptpExchange t1 t2 t3 t4 corr0 corr (s.chip.sfld (R.refPtpAsym p) 31 0)]) ∧
        c.tx = s.chip.tx ∧ s.chip.writesOnly c eventRegs)) ∧
  (∀ (s : State) (t : Stamp) (p saddr : Nat) (v6 : Bool) (a : Announce), p < 2 → v6 = s.chip.bit (R.refPtp p) 30 →
    Answers (.ptpMessageReceive t p ⟨v6, saddr, .announce (s.chip.fld (R.refPtp p) 23 16) a⟩) s (fun c =>
      (c.ptp p).heard = (s.chip.ptp p).heard.filter (fun x => x.sender != a.sender) ++ [a] ∧
        (c.ptp p).master = bestMaster (c.ptp p).heard ∧ (c.refIn p).seen = true ∧
        (∀ q, q < 2 → q ≠ p → c.ptp q = s.chip.ptp q) ∧ c.tx = s.chip.tx ∧ s.chip.writesOnly c eventRegs)) ∧
  (∀ (s : State) (t : Stamp) (p domain sender seq t1 t2 saddr : Nat) (corr : Int) (v6 two : Bool), p < 2 →
    (v6 ≠ s.chip.bit (R.refPtp p) 30 ∨ domain ≠ s.chip.fld (R.refPtp p) 23 16 ∨
      (s.chip.ptp p).master.map (·.sender) ≠ some sender) →
    Gives (.ptpMessageReceive t p ⟨v6, saddr, .sync domain sender seq two t1 t2 corr⟩) s (s.chip.at t)) ∧
  (∀ (s : State) (t : Stamp) (p saddr : Nat) (v6 : Bool), p < 2 → Gives (.ptpMessageReceive t p ⟨v6, saddr, .other⟩) s (s.chip.at t))

/-- R98: at the end of its qualification time an input that has never been AVAILABLE, or whose entry has WTR 0, becomes
AVAILABLE; any other enters WTR with its timer loaded; when the timer runs out a waiting input whose tests all pass becomes
AVAILABLE. Each change raises 0x0901 with the input, its old and new state, its cause, and the fields of R113. An input whose
qualification is not complete, and one that does not wait or whose test has failed, stays as it is. -/
def Obligations.QualifiedInputBecomesAvailable : Prop :=
  (∀ (s : State) (t : Stamp) (k : Nat), k < 7 → (s.chip.at t).qualified k = true →
    ((s.chip.refIn k).everAvail = false ∨ s.chip.entryOf k = none ∨ (∀ e, s.chip.entryOf k = some e → s.chip.fld (R.refPrio e) 11 0 = 0)) →
    Answers (.qualificationComplete t k) s (fun c =>
      c.refState k = 4 ∧ (c.refIn k).everAvail = true ∧ (∀ j, j < 7 → j ≠ k → c.refIn j = s.chip.refIn j) ∧
      s.chip.writesOnly c ([R.refStat k] ++ eventRegs) ∧
      s.chip.raises c [⟨0x0901, .room, t, [.val 1 k, .val 1 2, .val 1 4, .val 1 (s.chip.fld (R.refStat k) 31 28),
        .val 1 (s.chip.fld R.muiStat 2 0), .val 1 (s.chip.fld R.muiStat 14 12)]⟩])) ∧
  (∀ (s : State) (t : Stamp) (k e : Nat), k < 7 → (s.chip.at t).qualified k = true → (s.chip.refIn k).everAvail = true →
    s.chip.entryOf k = some e → 0 < s.chip.fld (R.refPrio e) 11 0 →
    Answers (.qualificationComplete t k) s (fun c =>
      c.refState k = 3 ∧ c.fld (R.refStat k) 23 12 = s.chip.fld (R.refPrio e) 11 0 ∧
      (c.refIn k).wtrEnd = t + s.chip.fld (R.refPrio e) 11 0 * 1000000000 ∧
      s.chip.writesOnly c ([R.refStat k] ++ eventRegs) ∧
      s.chip.raises c [⟨0x0901, .room, t, [.val 1 k, .val 1 2, .val 1 3, .val 1 (s.chip.fld (R.refStat k) 31 28),
        .val 1 (s.chip.fld R.muiStat 2 0), .val 1 (s.chip.fld R.muiStat 14 12)]⟩])) ∧
  (∀ (s : State) (t : Stamp) (k : Nat), k < 7 → (s.chip.at t).qualified k = false →
    Gives (.qualificationComplete t k) s (s.chip.at t)) ∧
  (∀ (s : State) (t : Stamp) (k : Nat), k < 7 → s.chip.refState k = 3 →
    elapsed t (s.chip.refIn k).wtrEnd 0 = true → (s.chip.refIn k).failing = [] → (s.chip.refIn k).firstFail = 0 →
    Answers (.wtrExpire t k) s (fun c =>
      c.refState k = 4 ∧ c.fld (R.refStat k) 23 12 = 0 ∧ s.chip.writesOnly c ([R.refStat k] ++ eventRegs) ∧
      s.chip.raises c [⟨0x0901, .room, t, [.val 1 k, .val 1 3, .val 1 4, .val 1 (s.chip.fld (R.refStat k) 31 28),
        .val 1 (s.chip.fld R.muiStat 2 0), .val 1 (s.chip.fld R.muiStat 14 12)]⟩])) ∧
  (∀ (s : State) (t : Stamp) (k : Nat), k < 7 → (s.chip.refState k ≠ 3 ∨ elapsed t (s.chip.refIn k).wtrEnd 0 = false ∨
      (s.chip.refIn k).failing ≠ [] ∨ (s.chip.refIn k).firstFail ≠ 0) →
    Gives (.wtrExpire t k) s (s.chip.at t))

/-- R102, R24: a FORCE, RELEASE or SKIP_WTR that its entry's state allows waits for the next evaluation and changes nothing else;
one that it does not allow is refused; with the link between the dies down the command waits for the link. R98, R99, R105,
R23, R24: an evaluation takes the waiting commands; an input that no enabled entry names is OFF, and one whose test fails is
FAILED, with the cause. With the link between the dies up it ends with the new measurements published: `MUI_MEAS` and
`REF_MEAS` are valid and `MUI_MEAS` shows the frequency of the loop; with the link down they wait for it as one message and
the registers keep the old ones. -/
def Obligations.ReferenceCommandsWaitAndEvaluationsPublish : Prop :=
  (∀ (s : State) (t : Stamp) (src : Source) (e : Nat), e < 8 → s.chip.d2dUp = true → s.chip.refCmdCause 1 e = 0 →
    Answers (.force t src e) s (fun c =>
      c.mui = { s.chip.mui with cmds := s.chip.mui.cmds ++ [{ cmd := 1, entry := e, src := src }] } ∧
        s.chip.writesOnly c [] ∧ s.chip.raises c [])) ∧
  (∀ (s : State) (t : Stamp) (src : Source) (e : Nat), e < 8 → s.chip.d2dUp = true → s.chip.refCmdCause 2 e = 0 →
    Answers (.release t src e) s (fun c =>
      c.mui = { s.chip.mui with cmds := s.chip.mui.cmds ++ [{ cmd := 2, entry := e, src := src }] } ∧
        s.chip.writesOnly c [] ∧ s.chip.raises c [])) ∧
  (∀ (s : State) (t : Stamp) (src : Source) (e : Nat), e < 8 → s.chip.d2dUp = true → s.chip.refCmdCause 3 e = 0 →
    Answers (.skipWtr t src e) s (fun c =>
      c.mui = { s.chip.mui with cmds := s.chip.mui.cmds ++ [{ cmd := 3, entry := e, src := src }] } ∧
        s.chip.writesOnly c [] ∧ s.chip.raises c [])) ∧
  (∀ (s : State) (t : Stamp) (src : Source) (e n : Nat) (i : Instr), e < 8 → s.chip.d2dUp = true →
    ((i = .force t src e ∧ n = 1) ∨ (i = .release t src e ∧ n = 2) ∨ (i = .skipWtr t src e ∧ n = 3)) →
    s.chip.refCmdCause n e ≠ 0 → Answers i s (fun c =>
      c.mui = s.chip.mui ∧ s.chip.refused c t src R.refCmd (BitVec.ofNat 32 (n * 2 ^ 28 + e)) (s.chip.refCmdCause n e))) ∧
  (∀ (s : State) (t : Stamp) (src : Source) (e n : Nat) (i : Instr), e < 8 → s.chip.d2dUp = false → s.chip.d2dDown.length < 256 →
    ((i = .force t src e ∧ n = 1) ∨ (i = .release t src e ∧ n = 2) ∨ (i = .skipWtr t src e ∧ n = 3)) →
    Answers i s (fun c => c.mui = s.chip.mui ∧
      c.d2dDown = s.chip.d2dDown ++ [.write src false R.refCmd (BitVec.ofNat 32 (n * 2 ^ 28 + e))] ∧
      s.chip.writesOnly c [] ∧ s.chip.raises c [])) ∧
  (∀ (s : State) (t : Stamp) (obs : List RefObs), s.chip.d2dUp = true →
    Answers (.refEvaluation t obs) s (fun c => c.bit R.muiMeas 31 = true ∧ c.bit R.refMeas 31 = true ∧
      c.reg R.muiMeasFreq = BitVec.ofNat 32 (twosOf 32 c.mui.muiFreq) ∧ c.mui.cmds = [] ∧
      (∀ k, k < 7 → s.chip.entryOf k = none → c.refState k = 0))) ∧
  (∀ (s : State) (t : Stamp) (obs : List RefObs), s.chip.d2dUp = false → s.chip.d2dQueue.length < 256 →
    Answers (.refEvaluation t obs) s (fun c => c.d2dQueue.length = s.chip.d2dQueue.length + 1 ∧ c.mui.cmds = [] ∧
      c.reg R.muiMeas = s.chip.reg R.muiMeas ∧ c.reg R.refMeas = s.chip.reg R.refMeas ∧
      c.reg R.muiMeasFreq = s.chip.reg R.muiMeasFreq ∧ c.reg R.muiMeasPhase = s.chip.reg R.muiMeasPhase)) ∧
  (∀ (s : State) (t : Stamp) (k : Nat), k < 7 → s.chip.entryOf k ≠ none → 2 ≤ s.chip.refState k → (s.chip.refIn k).firstFail ≠ 0 →
    Answers (.refEvaluation t []) s (fun c => c.refState k = 1 ∧
      c.fld (R.refStat k) 31 28 = (s.chip.refIn k).firstFail % 16 ∧ (c.refIn k).firstFail = 0))

/-- R103, R108: once the lock condition has held for LOCK.TIME, an acquiring timebase whose schedule has ended, or a pulling one,
is TETHERED, and 0x0801 tells old and new state; before that nothing happens. A dwell that ends with the lock held takes the
loop to the next entry of the bandwidth schedule, which ends at entry 8 and at an entry without a dwell; one that ends
without the lock begins again. R111: in free flight and free run `MUI_MEAS_TE` follows the time error, and the first time the
error is above TE_LIMIT 0x0803 is raised with it; in any other state it is 0. -/
def Obligations.LockAndHoldoverAreShownAndTold : Prop :=
  (∀ (s : State) (t l : Stamp), s.chip.mui.lockSince = some l →
    elapsed t l (s.chip.fld R.muiLock 7 0 * 100000000) = true →
    ((s.chip.tbState = tbAcquiring ∧ s.chip.mui.schedDone = true) ∨ s.chip.tbState = tbPulling) →
    Answers (.lockTimeElapsed t) s (fun c =>
      c.tbState = tbTethered ∧ s.chip.writesOnly c ([R.muiStat] ++ eventRegs) ∧ c.fld R.muiStat 31 3 = s.chip.fld R.muiStat 31 3 ∧
      c.mui.inputs = s.chip.mui.inputs ∧
      s.chip.raises c [⟨0x0801, .room, t, [.val 1 s.chip.tbState, .val 1 2, phiField s.chip.mui.loopPhi,
        .val 1 (s.chip.fld R.muiStat 5 4), .val 1 2, .val 1 (s.chip.fld R.muiStat 14 12)]⟩])) ∧
  (∀ (s : State) (t l : Stamp), s.chip.mui.lockSince = some l →
    elapsed t l (s.chip.fld R.muiLock 7 0 * 100000000) = false → Gives (.lockTimeElapsed t) s (s.chip.at t)) ∧
  (∀ (s : State) (t : Stamp) (k : Nat), s.chip.tbState = tbAcquiring → s.chip.mui.schedDone = false →
    elapsed t s.chip.mui.dwellEnd 0 = true → s.chip.activeInput = some k → s.chip.lockHolds k = true →
    s.chip.mui.schedIndex < 7 → 0 < s.chip.fld (R.muiBw (s.chip.mui.schedIndex + 1)) 31 16 →
    Answers (.dwellEnd t) s (fun c =>
      c.mui.schedIndex = s.chip.mui.schedIndex + 1 ∧ c.mui.schedDone = false ∧
      c.mui.dwellEnd = t + s.chip.fld (R.muiBw (s.chip.mui.schedIndex + 1)) 31 16 * 1000000000 ∧
      s.chip.writesOnly c [] ∧ s.chip.raises c [])) ∧
  (∀ (s : State) (t : Stamp) (k : Nat), s.chip.tbState = tbAcquiring → s.chip.mui.schedDone = false →
    elapsed t s.chip.mui.dwellEnd 0 = true → s.chip.activeInput = some k → s.chip.lockHolds k = true →
    (7 ≤ s.chip.mui.schedIndex ∨ s.chip.fld (R.muiBw (s.chip.mui.schedIndex + 1)) 31 16 = 0) →
    Answers (.dwellEnd t) s (fun c =>
      c.mui.schedIndex = s.chip.mui.schedIndex + 1 ∧ c.mui.schedDone = true ∧
      (c.tbState = tbTethered ↔ s.chip.mui.lockSince.any (fun l => elapsed t l (s.chip.fld R.muiLock 7 0 * 100000000)) = true) ∧
      s.chip.writesOnly c ([R.muiStat] ++ eventRegs))) ∧
  (∀ (s : State) (t : Stamp), s.chip.tbState = tbAcquiring → s.chip.mui.schedDone = false →
    elapsed t s.chip.mui.dwellEnd 0 = true → (∀ k, s.chip.activeInput = some k → s.chip.lockHolds k = false) →
    s.chip.mui.schedIndex < 8 → 0 < s.chip.fld (R.muiBw s.chip.mui.schedIndex) 31 16 →
    Answers (.dwellEnd t) s (fun c =>
      c.mui.schedIndex = s.chip.mui.schedIndex ∧ c.mui.schedDone = false ∧
      c.mui.dwellEnd = t + s.chip.fld (R.muiBw s.chip.mui.schedIndex) 31 16 * 1000000000 ∧
      s.chip.writesOnly c [] ∧ s.chip.raises c [])) ∧
  (∀ (s : State) (t : Stamp), (s.chip.tbState ≠ tbAcquiring ∨ s.chip.mui.schedDone = true ∨
      elapsed t s.chip.mui.dwellEnd 0 = false) → Gives (.dwellEnd t) s (s.chip.at t)) ∧
  (∀ (s : State) (t : Stamp) (te : Nat), s.chip.tbState = tbFreeFlight ∨ s.chip.tbState = tbFreeRun →
    te = (s.chip.at t).teAfter (s.chip.at t).holdSeconds → s.chip.mui.tePassed = false →
    s.chip.fld R.muiHold2 15 0 * 1000 < te →
    Answers (.holdoverSecond t) s (fun c =>
      (c.reg R.muiMeasTe).toNat = min te (2 ^ 32 - 1) ∧ c.mui = { s.chip.mui with tePassed := true } ∧
      s.chip.writesOnly c ([R.muiMeasTe] ++ eventRegs) ∧
      s.chip.raises c [⟨0x0803, .room, t, [.val 4 (min te (2 ^ 32 - 1)), .val 4 (s.chip.at t).holdSeconds,
        .val 1 (s.chip.fld R.muiStat 2 0), .val 1 (s.chip.fld R.muiStat 14 12)]⟩])) ∧
  (∀ (s : State) (t : Stamp) (te : Nat), s.chip.tbState = tbFreeFlight ∨ s.chip.tbState = tbFreeRun →
    te = (s.chip.at t).teAfter (s.chip.at t).holdSeconds →
    (s.chip.mui.tePassed = true ∨ te ≤ s.chip.fld R.muiHold2 15 0 * 1000) →
    Answers (.holdoverSecond t) s (fun c => (c.reg R.muiMeasTe).toNat = min te (2 ^ 32 - 1) ∧ c.mui = s.chip.mui ∧
      s.chip.writesOnly c [R.muiMeasTe] ∧ s.chip.raises c [])) ∧
  (∀ (s : State) (t : Stamp), s.chip.tbState ≠ tbFreeFlight → s.chip.tbState ≠ tbFreeRun →
    Answers (.holdoverSecond t) s (fun c => c.reg R.muiMeasTe = 0 ∧ c.mui = s.chip.mui ∧
      s.chip.writesOnly c [R.muiMeasTe] ∧ s.chip.raises c []))

/-- R112: with a frequency error above 0.01 ppm a SerDes loop that was locked has lost lock: SLOCK reads 0 and 0x0805 carries the
error; within 0.01 ppm SLOCK reads 1. R36: when the time bus is still for 1 µs, records are marked NOTIME and a tap event is
raised for the watch domain (0x0804: DEDUCED, log 12). R89, R30, R33: at a full stamp with a load mark every tap takes the
stamp and nothing is raised; without one every tap takes its difference back by its rate, and each one beyond its domain's
bound raises 0x0804. -/
def Obligations.TapsAndSerdesLoopReportTheirLoss : Prop :=
  (∀ (s : State) (t : Stamp) (err : Int), 10 < err.natAbs → s.chip.bit R.muiStat 10 = true →
    Answers (.serdesLoopLockLoss t err) s (fun c =>
      c.bit R.muiStat 10 = false ∧ c.fld R.muiStat 9 0 = s.chip.fld R.muiStat 9 0 ∧
      c.fld R.muiStat 31 11 = s.chip.fld R.muiStat 31 11 ∧ s.chip.writesOnly c ([R.muiStat] ++ eventRegs) ∧
      s.chip.raises c [⟨0x0805, .room, t, [.val 4 (twosOf 32 err), .val 1 (s.chip.fld R.muiStat 2 0),
        .val 1 (s.chip.fld R.muiStat 14 12)]⟩])) ∧
  (∀ (s : State) (t : Stamp) (err : Int), 10 < err.natAbs → s.chip.bit R.muiStat 10 = false →
    Answers (.serdesLoopLockLoss t err) s (fun c => s.chip.writesOnly c [] ∧ s.chip.raises c [])) ∧
  (∀ (s : State) (t : Stamp) (err : Int), err.natAbs ≤ 10 →
    Answers (.serdesLoopLockLoss t err) s (fun c => c.bit R.muiStat 10 = true ∧ s.chip.writesOnly c [R.muiStat] ∧
      s.chip.raises c [])) ∧
  (∀ (s : State) (t : Stamp) (diff : Int), Answers (.watchTapTimeout t diff) s (fun c =>
    c.watch.noTime = true ∧ c.watch.backSince = none ∧ s.chip.writesOnly c eventRegs ∧
      s.chip.raises c [⟨0x0804, .room, t, [.val 4 (Config.eventCode 0x0804 watchDomain), .val 4 (twosOf 32 diff),
        .val 1 (s.chip.fld R.muiStat 2 0), .val 1 (s.chip.fld R.muiStat 14 12)]⟩])) ∧
  (∀ (s : State) (t : Stamp) (taps : List (Nat × Int × Nat)), taps.all (fun e => decide (e.1 < 71)) = true →
    s.chip.mui.loadMark = true → Answers (.timeBusFullStamp t taps) s (fun c =>
      c.taps = [] ∧ c.mui.loadMark = false ∧ s.chip.writesOnly c [] ∧ s.chip.raises c [])) ∧
  (∀ (s : State) (t : Stamp) (taps : List (Nat × Int × Nat)), taps.all (fun e => decide (e.1 < 71)) = true →
    s.chip.mui.loadMark = false → (taps.map (fun e => e.1)).Nodup → mapWf tapDefault s.chip.taps →
    Answers (.timeBusFullStamp t taps) s (fun c =>
      (∀ e ∈ taps, mapGet tapDefault c.taps e.1 = { offset := e.2.1, trim := -e.2.1 }) ∧
      s.chip.writesOnly c eventRegs ∧
      s.chip.raises c ((taps.filter (fun e => decide (tapBound e.1 e.2.2 < e.2.1.natAbs))).map (fun e =>
        ⟨0x0804, .room, t, [.val 4 (Config.eventCode 0x0804 e.1), .val 4 (twosOf 32 (e.2.1 / 1000)),
          .val 1 (s.chip.fld R.muiStat 2 0), .val 1 (s.chip.fld R.muiStat 14 12)]⟩))))

/-- R40, R272, R273, R292, R293, R428: at its grid instant an enabled head that starts or runs begins its frame: RUNNING, the
frame count, nothing fetched or sent yet, `FLY_CNT` of that frame. A commit requested before the frame start is met there:
when no check fails the head's shadow entries become current and `CMP_RES` shows OK; when one fails nothing is taken and
`CMP_RES` shows cause and index. A raster more than 50 ns off its grid raises 0xA805, and the trim closes the difference. A
head that was disabled stops with event 0xA804, and a head that is to restart stops and, enabled, starts again; a stopped
head begins nothing, nor does one before its instant. -/
def Obligations.HeadFrameBeginsAndMeetsItsCommit : Prop :=
  (∀ (s : State) (t : Stamp) (h k : Nat) (drift : Int) (bad : List Nat), h < 32 →
    (s.chip.headRun h = 1 ∨ (s.chip.headRun h = 2 ∧ (s.chip.head h).restart = false)) → s.chip.bit (R.hedCtl h) 31 = true →
    k = max (s.chip.nextFrame h) (s.chip.gridLast h t) → (s.chip.frameStart h k).1 ≤ t →
    Answers (.headFrameStart t h drift bad) s (fun c => c.headRun h = 2 ∧ (c.head h).k = k ∧ (c.head h).inFrame = true ∧
      (c.head h).nextLine = 0 ∧ (c.head h).fetched = [] ∧ (bad = [] → (c.head h).fills = []) ∧ (c.head h).sig = crc32cInit ∧
      (c.reg (R.hedCnt h 0)).toNat = ((s.chip.reg (R.hedCnt h 0)).toNat + 1) % 2 ^ 32 ∧ (c.reg (R.flyCntFrame h)).toNat = k % 2 ^ 32 ∧
      c.bit (R.flyCnt h) 31 = true)) ∧
  (∀ (s : State) (t : Stamp) (h k : Nat) (drift : Int), h < 32 →
    (s.chip.headRun h = 1 ∨ (s.chip.headRun h = 2 ∧ (s.chip.head h).restart = false)) → s.chip.bit (R.hedCtl h) 31 = true →
    k = max (s.chip.nextFrame h) (s.chip.gridLast h t) → (s.chip.frameStart h k).1 ≤ t →
    s.chip.bit (R.cmpStat h) 31 = false → (s.chip.head h).withdrawn = none → (∀ p ∈ s.chip.peg.pegs, p.queue ≠ h) →
    s.chip.bit (R.cmpWb h) 31 = false → s.chip.headElems h = [] →
    Answers (.headFrameStart t h drift []) s (fun c => (c.reg (R.flyCntN h 5)).toNat = 0 ∧
      (∀ g, g < 32 → g ≠ h → c.head g = s.chip.head g) ∧ c.dram = s.chip.dram ∧ c.tbw = s.chip.tbw)) ∧
  (∀ (s : State) (t : Stamp) (h k e : Nat) (drift : Int) (bad : List Nat), h < 32 →
    (s.chip.headRun h = 1 ∨ (s.chip.headRun h = 2 ∧ (s.chip.head h).restart = false)) →
    s.chip.bit (R.hedCtl h) 31 = true → k = max (s.chip.nextFrame h) (s.chip.gridLast h t) →
    (s.chip.frameStart h k).1 ≤ t → (∀ p ∈ s.chip.peg.pegs, p.queue ≠ h) → s.chip.bit (R.cmpStat h) 31 = true →
    (s.chip.head h).reqAt < (s.chip.frameStart h k).1 →
    s.chip.commitFail h = none →
    Answers (.headFrameStart t h drift bad) s (fun c => c.bit (R.cmpStat h) 31 = false ∧ c.bit (R.cmpRes h) 31 = true ∧
      c.bit (R.cmpRes h) 30 = true ∧ c.fld (R.cmpRes h) 27 24 = 0 ∧
      c.wide (R.cmpResAtLo h) (R.cmpResAtHi h) = (s.chip.frameStart h k).1 % 2 ^ 64 ∧
      c.reg (R.cmpCnt h 0) = (s.chip.bump (R.cmpCnt h 0)).reg (R.cmpCnt h 0) ∧ c.reg (R.cmpBgCur h) = s.chip.reg (R.cmpBg h) ∧
      mapGet zeroEntry c.curElem e = (if (s.chip.takenElems h).contains e then takenEntry ((s.chip.shadowElem e).head == h)
        (s.chip.tbwBytes (twElem e) 32)
        else mapGet zeroEntry s.chip.curElem e))) ∧
  (∀ (s : State) (t : Stamp) (h k cause index n : Nat) (drift : Int) (bad : List Nat), h < 32 →
    (s.chip.headRun h = 1 ∨ (s.chip.headRun h = 2 ∧ (s.chip.head h).restart = false)) → s.chip.bit (R.hedCtl h) 31 = true →
    k = max (s.chip.nextFrame h) (s.chip.gridLast h t) → (s.chip.frameStart h k).1 ≤ t →
    (∀ p ∈ s.chip.peg.pegs, p.queue ≠ h) → s.chip.bit (R.cmpStat h) 31 = true →
    (s.chip.head h).reqAt < (s.chip.frameStart h k).1 → s.chip.commitFail h = some (cause, index, n) →
    Answers (.headFrameStart t h drift bad) s (fun c => c.bit (R.cmpStat h) 31 = false ∧ c.bit (R.cmpRes h) 31 = true ∧
      c.bit (R.cmpRes h) 30 = false ∧ c.fld (R.cmpRes h) 27 24 = cause % 16 ∧ c.fld (R.cmpResIndex h) 18 0 = index % 2 ^ 19 ∧
      c.reg (R.cmpCnt h 1) = (s.chip.bump (R.cmpCnt h 1)).reg (R.cmpCnt h 1) ∧ c.curElem = s.chip.curElem ∧
      c.curRegion = s.chip.curRegion ∧ c.reg (R.cmpBgCur h) = s.chip.reg (R.cmpBgCur h))) ∧
  (∀ (s : State) (t : Stamp) (h : Nat) (drift : Int), h < 32 → s.chip.headRun h = 2 → (s.chip.head h).restart = false →
    s.chip.bit (R.hedCtl h) 31 = true →
    (s.chip.frameStart h (max ((s.chip.head h).k + 1) (s.chip.gridLast h t))).1 ≤ t →
    Answers (.headFrameStart t h drift []) s (fun c =>
      (c.head h).trim = -clampInt (-((s.chip.headQ h / 2000000 : Nat) : Int)) ((s.chip.headQ h / 2000000 : Nat) : Int)
        ((s.chip.head h).raster + drift) ∧
      (c.head h).raster = (s.chip.head h).raster + drift + (c.head h).trim ∧
      (50 * 65536 < ((s.chip.head h).raster + drift).natAbs → s.chip.evq.length < evqCap →
        (mapGet rateDefault s.chip.rate (rateKey 0xA805 h)).last = none →
        (c.evq.drop s.chip.evq.length).head? = some ⟨0xA805, .surface h, t,
          [.val 4 (((s.chip.head h).raster + drift).natAbs / 65536), .val 4 1]⟩))) ∧
  (∀ (s : State) (t : Stamp) (h : Nat) (drift : Int) (bad : List Nat), h < 32 → (s.chip.headRun h = 1 ∨
      (s.chip.headRun h = 2 ∧ (s.chip.head h).restart = false)) →
    s.chip.bit (R.hedCtl h) 31 = false → (s.chip.frameStart h (max (s.chip.nextFrame h) (s.chip.gridLast h t))).1 ≤ t →
    Answers (.headFrameStart t h drift bad) s (fun c => c.headRun h = 0 ∧ (c.head h).inFrame = false ∧
      (s.chip.fld (R.hedOut h) 31 30 ≠ 1 → s.chip.writesOnly c ([R.hedStat h] ++ eventRegs) ∧
        s.chip.raises c [⟨0xA804, .surface h, t, [.val 1 0, .val 8 (s.chip.head h).k]⟩]))) ∧
  (∀ (s : State) (t : Stamp) (h : Nat) (drift : Int) (bad : List Nat), h < 32 → s.chip.headRun h = 2 →
    (s.chip.head h).restart = true →
    Answers (.headFrameStart t h drift bad) s (fun c => c.headRun h = (if s.chip.bit (R.hedCtl h) 31 = true then 1 else 0) ∧
      (c.head h).restart = false ∧ (c.head h).inFrame = false ∧
      (s.chip.bit (R.hedCtl h) 31 = false → s.chip.fld (R.hedOut h) 31 30 ≠ 1 → s.chip.writesOnly c ([R.hedStat h] ++ eventRegs) ∧
        s.chip.raises c [⟨0xA804, .surface h, t, [.val 1 0, .val 8 (s.chip.head h).k]⟩]))) ∧
  (∀ (s : State) (t : Stamp) (h : Nat) (drift : Int) (bad : List Nat), h < 32 → (s.chip.headRun h = 0 ∨
      ((s.chip.head h).restart = false ∧ t < (s.chip.frameStart h (max (s.chip.nextFrame h) (s.chip.gridLast h t))).1)) →
    Gives (.headFrameStart t h drift bad) s (s.chip.at t))

/-- R294 to R297, R303, R304, R64: the lines of a running frame start in order: the comparators that match count, an active
line's composed row is signed and leaves; a line of another frame or out of the raster starts nothing. A fetch of an issued
batch that completes in time is kept, one with a fault raises 0xA004 too, a late, unneeded or unissued one is discarded.
After the last active pixel the frame's count and signatures are published and the head waits for its next frame start. -/
def Obligations.LinesFetchesAndFrameEndAreKept : Prop :=
  (∀ (s : State) (t : Stamp) (h n : Nat), h < 32 → (s.chip.head h).inFrame = true → (s.chip.head h).nextLine ≤ n →
    n < s.chip.vTotal h →
    Answers (.headLineStart t h n) s (fun c => (c.head h).nextLine = n + 1 ∧ (c.head h).inFrame = true ∧
      (c.head h).k = (s.chip.head h).k)) ∧
  (∀ (s : State) (t : Stamp) (h n i : Nat), h < 32 → i < 2 → (s.chip.head h).inFrame = true → (s.chip.head h).nextLine = n →
    n < s.chip.vStart h → n < s.chip.vTotal h → (∀ p ∈ s.chip.peg.pegs, p.queue ≠ 32 + h) → s.chip.bit (R.hedLcmp h i) 31 = true →
    s.chip.fld (R.hedLcmp h i) 15 0 = n →
    Answers (.headLineStart t h n) s (fun c => (c.head h).nextLine = n + 1 ∧ (c.head h).inFrame = true ∧
      (c.head h).sig = (s.chip.head h).sig ∧
      (c.reg (R.hedCnt h (1 + i))).toNat = ((s.chip.reg (R.hedCnt h (1 + i))).toNat + 1) % 2 ^ 32 ∧
      (∀ g, g < 32 → g ≠ h → c.head g = s.chip.head g))) ∧
  (∀ (s : State) (t : Stamp) (h n : Nat) (row : List Composed), h < 32 → (s.chip.head h).inFrame = true →
    (s.chip.head h).nextLine = n → s.chip.vStart h ≤ n → n < s.chip.vTotal h → (∀ p ∈ s.chip.peg.pegs, p.queue ≠ 32 + h) →
    (s.chip.head h).rows.find? (fun r => r.1 == n - s.chip.vStart h) = some (n - s.chip.vStart h, row) →
    Answers (.headLineStart t h n) s (fun c => (c.head h).nextLine = n + 1 ∧
      (c.head h).sig = crc32cFeed (s.chip.head h).sig ((row.map (fun p => p.sent)).flatMap packPx))) ∧
  (∀ (s : State) (t : Stamp) (h n : Nat), h < 32 → ((s.chip.head h).inFrame = false ∨ n < (s.chip.head h).nextLine ∨
      s.chip.vTotal h ≤ n) → Gives (.headLineStart t h n) s (s.chip.at t)) ∧
  (∀ (s : State) (t : Stamp) (h tx ty : Nat) (e : Option Nat), h < 32 → (s.chip.head h).inFrame = true → tx < s.chip.tileCols h →
    ty < s.chip.tileRows h → ty ∉ (s.chip.head h).checked → (s.chip.head h).issued ty = true →
    e ∈ s.chip.needed h (s.chip.mapElems h) tx ty → (s.chip.head h).has tx ty e = false →
    Answers (.tileFetchComplete t h tx ty e false) s (fun c =>
      c.head h = { s.chip.head h with fetched := (tx, ty, e, false) :: (s.chip.head h).fetched } ∧
      s.chip.writesOnly c [] ∧ s.chip.raises c [])) ∧
  (∀ (s : State) (t : Stamp) (h tx ty e : Nat), h < 32 → (s.chip.head h).inFrame = true → tx < s.chip.tileCols h →
    ty < s.chip.tileRows h → ty ∉ (s.chip.head h).checked → (s.chip.head h).issued ty = true →
    some e ∈ s.chip.needed h (s.chip.mapElems h) tx ty → (s.chip.head h).has tx ty (some e) = false →
    Answers (.tileFetchComplete t h tx ty (some e) true) s (fun c =>
      c.head h = { s.chip.head h with fetched := (tx, ty, some e, true) :: (s.chip.head h).fetched } ∧
      (c.elemState e).faultNow = true ∧ s.chip.writesOnly c eventRegs ∧
      s.chip.raises c [⟨0xA004, .tile h tx ty, t, [.val 2 tx, .val 2 ty]⟩])) ∧
  (∀ (s : State) (t : Stamp) (h tx ty : Nat) (e : Option Nat) (f : Bool), h < 32 → ((s.chip.head h).inFrame = false ∨
      ty ∈ (s.chip.head h).checked ∨ (s.chip.head h).issued ty = false ∨ e ∉ s.chip.needed h (s.chip.mapElems h) tx ty ∨
      (s.chip.head h).has tx ty e = true ∨ (e = none ∧ f = true)) →
    Gives (.tileFetchComplete t h tx ty e f) s (s.chip.at t)) ∧
  (∀ (s : State) (t : Stamp) (h wb : Nat) (l : List Byte), h < 32 → wb < 3 → (s.chip.head h).inFrame = true →
    Answers (.headFrameDone t h l wb) s (fun c => (c.head h).inFrame = false ∧ c.bit (R.hedRes h) 31 = true ∧
      c.wide (R.hedResFrameLo h) (R.hedResFrameHi h) = (s.chip.head h).k % 2 ^ 48 ∧
      (c.reg (R.hedCnt h 3)).toNat = ((s.chip.reg (R.hedCnt h 3)).toNat + 1) % 2 ^ 32 ∧
      (c.head h).lastSig.map (· % 2 ^ 32) = some (c.reg (R.hedResSig h)).toNat)) ∧
  (∀ (s : State) (t : Stamp) (h wb : Nat) (l : List Byte), h < 32 → wb < 3 → (s.chip.head h).inFrame = true →
    (s.chip.head h).nextLine = s.chip.vTotal h →
    Answers (.headFrameDone t h l wb) s (fun c =>
      (c.reg (R.hedResSig h)).toNat = crc32cValue (s.chip.head h).sig % 2 ^ 32 ∧
      (c.reg (R.hedResLsig h)).toNat = (if s.chip.fld (R.hedOut h) 31 30 ≠ 1 then 0
        else if s.chip.bit (R.hedOut h) 24 = true then crc32c l % 2 ^ 32 else crc32cValue (s.chip.head h).lsig % 2 ^ 32) ∧
      c.wide (R.hedResFsLo h) (R.hedResFsHi h) = (s.chip.frameStart h (s.chip.head h).k).1 % 2 ^ 64 ∧
      (c.head h).lastSig = some (crc32cValue (s.chip.head h).sig))) ∧
  (∀ (s : State) (t : Stamp) (h wb : Nat) (l : List Byte), h < 32 → wb < 3 → (s.chip.head h).inFrame = false →
    Gives (.headFrameDone t h l wb) s (s.chip.at t))

/-- R45, R252, R387: an element whose state is not ready by its scan time is counted and raises 0xA003, once in a frame; a field
not rendered by its scan time is counted and raises 0x6006, and the field plane is given back what it last drew; an
evaluation that has not finished FLY_US after its frame start panics. An element that the head does not show does nothing.
R279, R338, R357: with the pair on, the twin's signatures of a frame are compared with the own ones that wait for them, which
then wait no longer: equal ones change no count, a surface signature that differs is counted, and a region that differs is
counted as a mismatch and adds to its run. Before the own frame is done a running head keeps the twin's value; a head that
does not run discards it, as does a part without its pair. -/
def Obligations.MissesAndTwinSignaturesAreCounted : Prop :=
  (∀ (s : State) (t : Stamp) (h e : Nat), h < 32 → e < 524288 → (s.chip.elem e).en = true → (s.chip.elem e).head = h →
    e ∉ (s.chip.head h).missed →
    Answers (.elementStateMiss t h e) s (fun c => (c.head h).missed = e :: (s.chip.head h).missed ∧
      (c.head h).k = (s.chip.head h).k ∧ (c.head h).sig = (s.chip.head h).sig ∧ (c.head h).nextLine = (s.chip.head h).nextLine ∧
      (∀ g, g < 32 → g ≠ h → c.head g = s.chip.head g) ∧
      c.reg R.flyMiss = (s.chip.bump R.flyMiss).reg R.flyMiss ∧ s.chip.writesOnly c ([R.flyMiss] ++ eventRegs) ∧
      s.chip.raises c [⟨0xA003, .element e, t, []⟩])) ∧
  (∀ (s : State) (t : Stamp) (h e : Nat), h < 32 → e < 524288 → ((s.chip.elem e).en = false ∨ (s.chip.elem e).head ≠ h ∨
      e ∈ (s.chip.head h).missed) → Gives (.elementStateMiss t h e) s (s.chip.at t)) ∧
  (∀ (s : State) (t : Stamp) (h e : Nat), h < 32 → e < 524288 → (s.chip.elem e).en = true → (s.chip.elem e).head = h →
    (s.chip.elem e).kind = 2 → e ∉ (s.chip.head h).glyphMissed →
    Answers (.glyphMiss t h e) s (fun c => (c.head h).glyphMissed = e :: (s.chip.head h).glyphMissed ∧
      (c.head h).undo = (s.chip.head h).undo.filter (fun u => u.1 != e) ∧
      mapGet (fun _ => none) c.pnt.drawn (h * 524288 + e) = none ∧
      c.reg (R.pntCnt 15) = (s.chip.bump (R.pntCnt 15)).reg (R.pntCnt 15) ∧
      s.chip.regsOnly c (R.pntCnt 15 :: eventRegs) ∧ c.tbw = s.chip.tbw ∧
      ((∀ u ∈ (s.chip.head h).undo, u.1 ≠ e) → c.dram = s.chip.dram) ∧
      s.chip.raises c [⟨0x6006, .element e, t, [.val 4 e, .val 1 h]⟩])) ∧
  (∀ (s : State) (t : Stamp) (h e a : Nat) (l : List Byte), h < 32 → e < 524288 → (s.chip.elem e).en = true →
    (s.chip.elem e).head = h → (s.chip.elem e).kind = 2 → e ∉ (s.chip.head h).glyphMissed → (s.chip.head h).undo = [(e, a, l)] →
    s.chip.inDram a l.length = true →
    Answers (.glyphMiss t h e) s (fun c => (c.head h).undo = [] ∧ c.dramBytes a l.length = l ∧
      s.chip.storesOnly c (R.pntCnt 15 :: eventRegs) a l.length)) ∧
  (∀ (s : State) (t : Stamp) (h e : Nat), h < 32 → e < 524288 → ((s.chip.elem e).en = false ∨ (s.chip.elem e).head ≠ h ∨
      (s.chip.elem e).kind ≠ 2 ∨ e ∈ (s.chip.head h).glyphMissed) → Gives (.glyphMiss t h e) s (s.chip.at t)) ∧
  (∀ (s : State) (t : Stamp) (h : Nat), h < 32 → (s.chip.head h).inFrame = true →
    elapsed t (s.chip.frameStart h (s.chip.head h).k).1 (s.chip.fld R.dmcPanic 7 0 * 1000) = true →
    Answers (.flySheetPanic t h) s (fun c => c.mem.panics (.fly h) = true ∧ c.bit R.dmcGstat 31 = true ∧
      c.bit R.dmcGstat 30 = true)) ∧
  (∀ (s : State) (t : Stamp) (h : Nat), h < 32 → (s.chip.head h).inFrame = true →
    elapsed t (s.chip.frameStart h (s.chip.head h).k).1 (s.chip.fld R.dmcPanic 7 0 * 1000) = true → s.chip.mem.chans = [] →
    s.chip.mem.waiting = [] →
    Answers (.flySheetPanic t h) s (fun c => s.chip.writesOnly c [R.dmcGstat] ∧ s.chip.raises c [])) ∧
  (∀ (s : State) (t : Stamp) (h : Nat), h < 32 → ((s.chip.head h).inFrame = false ∨
      elapsed t (s.chip.frameStart h (s.chip.head h).k).1 (s.chip.fld R.dmcPanic 7 0 * 1000) = false) →
    Gives (.flySheetPanic t h) s (s.chip.at t)) ∧
  (∀ (s : State) (t : Stamp) (msg : List Byte) (h : Nat) (start : Stamp), (Instr.sigxReceive t msg).wellFormed = true →
    s.chip.twinOn = true → h = leAt msg 0 1 → start = leAt msg 8 8 →
    (∃ x ∈ s.chip.twn.sigOwn, x.head = h ∧ x.start = start) →
    Answers (.sigxReceive t msg) s (fun c => c.twn.sigTwin = s.chip.twn.sigTwin ∧
      c.twn.sigOwn = s.chip.twn.sigOwn.filter (fun x => !(x.head == h && x.start == start)))) ∧
  (∀ (s : State) (t : Stamp) (msg : List Byte) (h : Nat) (start : Stamp), (Instr.sigxReceive t msg).wellFormed = true →
    s.chip.twinOn = true → h = leAt msg 0 1 → start = leAt msg 8 8 → s.chip.headRun h = 2 →
    (∀ x ∈ s.chip.twn.sigOwn, x.head = h → x.start ≠ start) →
    Answers (.sigxReceive t msg) s (fun c => c.twn.sigOwn = s.chip.twn.sigOwn ∧
      c.twn.sigTwin.map (fun x => (x.head, x.start, x.lostSel, x.sig)) = s.chip.twn.sigTwin.map (fun x =>
        (x.head, x.start, x.lostSel, x.sig)) ++ [(h, start, leAt msg 1 1 % 2 == 1, leAt msg 16 4)] ∧
      s.chip.writesOnly c [] ∧ s.chip.raises c [])) ∧
  (∀ (s : State) (t : Stamp) (h k sig : Nat) (start : Stamp) (e : SigEntry), h < 32 → start < 2 ^ 64 → sig < 2 ^ 32 →
    s.chip.twinOn = true → s.chip.twn.sigOwn = [e] → e.head = h → e.start = start → e.lostSel = false → e.sig = sig →
    e.regions = [] →
    Answers (.sigxReceive t ([BitVec.ofNat 8 h, 0, 0, 0] ++ leBytes 4 k ++ leBytes 8 start ++ leBytes 4 sig ++ leBytes 4 0)) s (fun c =>
      c.twn = { s.chip.twn with sigOwn := [] } ∧ s.chip.writesOnly c [] ∧ s.chip.raises c [])) ∧
  (∀ (s : State) (t : Stamp) (h k sig : Nat) (start : Stamp) (e : SigEntry), h < 32 → start < 2 ^ 64 → sig < 2 ^ 32 →
    s.chip.twinOn = true → s.chip.twn.sigOwn = [e] → e.head = h → e.start = start → e.lostSel = false → e.sig ≠ sig →
    e.regions = [] →
    Answers (.sigxReceive t ([BitVec.ofNat 8 h, 0, 0, 0] ++ leBytes 4 k ++ leBytes 8 start ++ leBytes 4 sig ++ leBytes 4 0)) s (fun c =>
      c.twn = { s.chip.twn with sigOwn := [] } ∧ c.reg (R.twnCnt 5) = (s.chip.bump (R.twnCnt 5)).reg (R.twnCnt 5) ∧
      s.chip.writesOnly c (R.twnCnt 5 :: eventRegs))) ∧
  (∀ (s : State) (t : Stamp) (h k sig r own crc : Nat) (start : Stamp) (e : SigEntry), h < 32 → start < 2 ^ 64 → sig < 2 ^ 32 →
    r < 1024 → crc < 2 ^ 32 → own ≠ crc → s.chip.twinOn = true → s.chip.twn.sigOwn = [e] → e.head = h → e.start = start →
    e.lostSel = false → e.sig = sig → e.regions = [(r, true, own)] →
    Answers (.sigxReceive t ([BitVec.ofNat 8 h, 0, 1, 0] ++ leBytes 4 k ++ leBytes 8 start ++ leBytes 4 sig ++ leBytes 4 0 ++
        leBytes 2 (r + 2 ^ 15) ++ [0, 0] ++ leBytes 4 crc)) s (fun c => c.twn = { s.chip.twn with sigOwn := [] } ∧
      c.reg (R.cmpCnt h 3) = (s.chip.bump (R.cmpCnt h 3)).reg (R.cmpCnt h 3) ∧
      mapGet runDefault (c.head h).runs r = ((mapGet runDefault (s.chip.head h).runs r).1, (mapGet runDefault (s.chip.head h).runs r).2 + 1))) ∧
  (∀ (s : State) (t : Stamp) (msg : List Byte), (Instr.sigxReceive t msg).wellFormed = true →
    (s.chip.twinOn = false ∨ (s.chip.headRun (leAt msg 0 1) ≠ 2 ∧
      ∀ x ∈ s.chip.twn.sigOwn, x.head = leAt msg 0 1 → x.start ≠ leAt msg 8 8)) →
    Gives (.sigxReceive t msg) s (s.chip.at t))

/-- R50, R157: an enabled slot with a pool that begins a frame advances its frame sequence number and takes a free buffer, whose
record then says FILLING with that number and no eligibility; with no free buffer the frame is discarded, counted, with event
0x3011. A slot that is not enabled, or shows a test pattern, begins nothing. R50 to R55, R353, R377: a FILLING frame finishes
with its completeness and cause: it is counted, its record says so, and an incomplete one is counted as IMPAIRED too. In a
slot whose frames the twins do not agree on a complete frame is eligible at once. A picture that reaches beyond the usable
DRAM makes its frame ERROR with cause bit 2. A frame that is not FILLING finishes nothing. At its agreed E a complete frame's
record becomes eligible, and not before. -/
def Obligations.FramesBeginFinishAndBecomeEligible : Prop :=
  (∀ (s : State) (t : Stamp) (n key i : Nat), n < 256 → s.chip.slotKind n ≠ 0 → s.chip.slotKind n ≠ 7 →
    s.chip.freeBuf n = some i →
    Answers (.frameBegin t n key) s (fun c => (c.slot n).seq = (s.chip.slot n).seq.succ % 2 ^ 32 ∧ (c.buf n i).key = key ∧
      (c.buf n i).gen = (s.chip.slot n).gen ∧ c.regs = s.chip.regs ∧ s.chip.raises c [] ∧ c.tbw = s.chip.tbw ∧
      (s.chip.inDram (s.chip.recAddr n i) 48 = true → c.frameRec n i = { s.chip.frameRec n i with
        elig := 0, seq := (s.chip.slot n).seq.succ % 2 ^ 32, code := 1, eligible := false, twinLost := false, derived := false, cause := 0 }) ∧
      (∀ m, m < 256 → m ≠ n → c.slot m = s.chip.slot m))) ∧
  (∀ (s : State) (t : Stamp) (n key : Nat), n < 256 → s.chip.slotKind n ≠ 0 → s.chip.slotKind n ≠ 7 → s.chip.freeBuf n = none →
    Answers (.frameBegin t n key) s (fun c => (c.slot n).seq = (s.chip.slot n).seq.succ % 2 ^ 32 ∧
      c.reg (R.srcCnt n 1) = (s.chip.bump (R.srcCnt n 1)).reg (R.srcCnt n 1) ∧
      ((s.chip.agreed n && s.chip.paired) = false → s.chip.writesOnly c ([R.srcCnt n 1] ++ eventRegs) ∧
        s.chip.raises c [⟨0x3011, .room, t, [.val 1 n, .val 4 ((s.chip.slot n).seq.succ % 2 ^ 32)]⟩]))) ∧
  (∀ (s : State) (t : Stamp) (n key : Nat), n < 256 → (s.chip.slotKind n = 0 ∨ s.chip.slotKind n = 7) →
    Gives (.frameBegin t n key) s (s.chip.at t)) ∧
  (∀ (s : State) (t : Stamp) (n i code cause missing : Nat) (a : Stamp) (sup : Option Stamp) (l : List (Nat × List Byte)), n < 256 →
    i < 32 → 2 ≤ code → code ≤ 6 → cause < 16 → (s.chip.frameRec n i).code = 1 →
    s.chip.isBeyond (s.chip.bufPic n i).base (frameBytes (s.chip.bufPic n i).fmt (s.chip.bufPic n i).w (s.chip.bufPic n i).h) = false →
    (∀ e ∈ l, s.chip.bufAddr n i + e.1 + e.2.length ≤ s.chip.recAddr n i ∨ s.chip.recAddr n i + 48 ≤ s.chip.bufAddr n i + e.1) →
    Answers (.frameFinish t n i code cause a sup missing l) s (fun c =>
      (c.frameRec n i).code = code ∧ (c.frameRec n i).cause = cause ∧ (c.frameRec n i).seq = (s.chip.frameRec n i).seq ∧
      (c.frameRec n i).arrival = shortStamp a ∧
      c.reg (R.srcCnt n 0) = (s.chip.bump (R.srcCnt n 0)).reg (R.srcCnt n 0) ∧ c.bit (R.srcStat n) 31 = true ∧
      (code ≠ 2 → c.reg (R.srcCnt n 2) = (s.chip.bump (R.srcCnt n 2)).reg (R.srcCnt n 2)) ∧
      (c.slot n).done.length = (s.chip.slot n).done.length + 1 ∧
      ((s.chip.agreed n && s.chip.paired) = false → ((c.frameRec n i).eligible = true ↔ code = 2) ∧
        (c.frameRec n i).elig = (if code = 2 then shortStamp t else 0)))) ∧
  (∀ (s : State) (t : Stamp) (n i code cause missing : Nat) (a : Stamp) (sup : Option Stamp), n < 256 →
    i < 32 → 2 ≤ code → code ≤ 6 → cause < 16 → (s.chip.frameRec n i).code = 1 →
    s.chip.isBeyond (s.chip.bufPic n i).base (frameBytes (s.chip.bufPic n i).fmt (s.chip.bufPic n i).w (s.chip.bufPic n i).h) = true →
    Answers (.frameFinish t n i code cause a sup missing []) s (fun c =>
      (c.frameRec n i).code = 5 ∧ (c.frameRec n i).cause = cause ||| 4 ∧
      (s.chip.evq.length < evqCap → (c.evq.drop s.chip.evq.length).head? = some ⟨0xD007, .room, t,
        [.val 1 (s.chip.slotGroup n), .val 8 ((s.chip.bufPic n i).base - dramBase)]⟩))) ∧
  (∀ (s : State) (t : Stamp) (n i code cause missing : Nat) (a : Stamp) (sup : Option Stamp) (l : List (Nat × List Byte)), n < 256 →
    i < 32 → 2 ≤ code → code ≤ 6 → cause < 16 → (s.chip.frameRec n i).code ≠ 1 →
    Gives (.frameFinish t n i code cause a sup missing l) s (s.chip.at t)) ∧
  (∀ (s : State) (t : Stamp) (n i : Nat), n < 256 → i < 32 → (s.chip.frameRec n i).code = 2 → (s.chip.frameRec n i).elig ≠ 0 →
    0 ≤ stampGap t (s.chip.frameRec n i).elig →
    Answers (.frameEligible t n i) s (fun c => c.frameRec n i = { s.chip.frameRec n i with eligible := true } ∧
      c.regs = s.chip.regs ∧ c.slots = s.chip.slots ∧ s.chip.raises c [])) ∧
  (∀ (s : State) (t : Stamp) (n i : Nat), n < 256 → i < 32 → ((s.chip.frameRec n i).code ≠ 2 ∨ (s.chip.frameRec n i).elig = 0 ∨
      stampGap t (s.chip.frameRec n i).elig < 0) →
    Gives (.frameEligible t n i) s (s.chip.at t))

/-- R338, R352, R353: the twin's NOTICE on a frame is counted. On a pair, one on a frame of an agreed slot waits for the part's
own verdict on the frame of its key; with the own verdict HOLD known, the frame's E is the later of the two verdicts' stamps
and the margin, and it waits no longer: its capture stamp is the earlier one where the signatures agree, else its own, with
TWIN_LOST. LOSTWAIT after the twin's HOLD with no own frame the part establishes LOST and sends its NOTICE, and the frame
waits no longer. A part that is not paired only counts the NOTICE, and one without its pair does nothing. -/
def Obligations.NoticesWaitForBothVerdicts : Prop :=
  (∀ (s : State) (t : Stamp) (l : List Byte), l.length = 32 → s.chip.twinOn = true →
    (s.chip.agreed (leAt l 0 1) && s.chip.paired) = false →
    Answers (.noticeReceive t l) s (fun c => c.slots = s.chip.slots ∧
      c.reg (R.twnCnt 1) = (s.chip.bump (R.twnCnt 1)).reg (R.twnCnt 1) ∧ s.chip.writesOnly c [R.twnCnt 1] ∧ s.chip.raises c [])) ∧
  (∀ (s : State) (t : Stamp) (l : List Byte), l.length = 32 → s.chip.twinOn = false →
    (s.chip.agreed (leAt l 0 1) && s.chip.paired) = false → Gives (.noticeReceive t l) s (s.chip.at t)) ∧
  (∀ (s : State) (t : Stamp) (l : List Byte), l.length = 32 → s.chip.twinOn = true →
    (s.chip.agreed (leAt l 0 1) && s.chip.paired) = true →
    (∀ a ∈ (s.chip.slot (leAt l 0 1)).agree, a.key ≠ leAt l 4 4) →
    (∀ a ∈ (s.chip.slot (leAt l 0 1)).agree, a.own = none ∨ a.twin = none) →
    Answers (.noticeReceive t l) s (fun c =>
      (c.slot (leAt l 0 1)).agree = (s.chip.slot (leAt l 0 1)).agree ++
        [{ key := leAt l 4 4, twin := some ⟨leAt l 1 1 % 4 == 1, leAt l 1 1 / 4 % 2 == 1, leAt l 8 8, leAt l 16 8, leAt l 24 4⟩ }] ∧
      c.reg (R.twnCnt 1) = (s.chip.bump (R.twnCnt 1)).reg (R.twnCnt 1) ∧ s.chip.writesOnly c [R.twnCnt 1] ∧ s.chip.raises c [])) ∧
  (∀ (s : State) (t : Stamp) (n i seq key sig : Nat) (cap stamp : Stamp) (own : Verdict), n < 256 → i < 32 → key < 2 ^ 32 →
    cap < 2 ^ 64 → stamp < 2 ^ 64 → sig < 2 ^ 32 → s.chip.twinOn = true → (s.chip.agreed n && s.chip.paired) = true →
    (s.chip.slot n).agree = [{ key := key, frame := some (i, seq), own := some own }] → own.hold = true →
    (s.chip.frameRec n i).code = 2 → (s.chip.frameRec n i).seq = seq →
    Answers (.noticeReceive t ([BitVec.ofNat 8 n, 1, 0, 0] ++ leBytes 4 key ++ leBytes 8 cap ++ leBytes 8 stamp ++ leBytes 4 sig ++
        leBytes 4 0)) s (fun c => (c.slot n).agree = [] ∧
      (c.frameRec n i).elig = (stampMax own.stamp stamp + s.chip.twinMargin) % 2 ^ 64 ∧
      (own.sig = sig → (c.frameRec n i).cap = stampMin own.cap cap % 2 ^ 64 ∧ (c.frameRec n i).twinLost = false) ∧
      (own.sig ≠ sig → (c.frameRec n i).cap = own.cap % 2 ^ 64 ∧ (c.frameRec n i).twinLost = true ∧
        c.reg (R.twnCnt 4) = (s.chip.bump (R.twnCnt 4)).reg (R.twnCnt 4)))) ∧
  (∀ (s : State) (t : Stamp) (n key : Nat) (v : Verdict), n < 256 → s.chip.paired = true →
    (s.chip.slot n).agree = [{ key := key, twin := some v }] → v.hold = true →
    elapsed t v.stamp (s.chip.fld R.twnTiming 31 16 * nsPerMs) = true →
    Answers (.noticeLostwaitExpire t n key) s (fun c => (c.slot n).agree = [] ∧ key ∈ (c.slot n).lostKeys ∧
      c.reg (R.twnCnt 0) = (s.chip.bump (R.twnCnt 0)).reg (R.twnCnt 0) ∧ c.dram = s.chip.dram ∧ s.chip.raises c [])) ∧
  (∀ (s : State) (t : Stamp) (n key : Nat), n < 256 → (s.chip.paired = false ∨
      ∀ a ∈ (s.chip.slot n).agree, a.key = key → a.own = none → ∀ v, a.twin = some v → v.hold = true →
        elapsed t v.stamp (s.chip.fld R.twnTiming 31 16 * nsPerMs) = false) →
    Gives (.noticeLostwaitExpire t n key) s (s.chip.at t))

/-- R123 to R129, R437, R513: SUBMIT of a stager that holds a group and has no check under way puts it into check, with its
result not ready; an empty stager or one in check refuses it. The check that has waited longest ends in a result: an accepted
group's pegs join the pool; of a refused one none does, the result and event 0x0A01 carry cause and index, and it is counted.
On stager 0 that holds while base firmware has no group and no cancel that waits; the check of a recall's group also ends in
`PIT_RES`. Without a check nothing ends. -/
def Obligations.GroupIsCheckedThenAcceptedWhole : Prop :=
  (∀ (s : State) (t : Stamp) (src : Source) (sg : Nat), sg < 3 → s.chip.bit (R.pegStgCount sg) 31 = false →
    s.chip.fld (R.pegStgCount sg) 6 0 ≠ 0 →
    Answers (.submit t src sg) s (fun c => c.bit (R.pegStgCount sg) 31 = true ∧
      c.fld (R.pegStgCount sg) 6 0 = s.chip.fld (R.pegStgCount sg) 6 0 ∧ c.bit (R.pegStgRes sg) 31 = false ∧
      c.peg = { s.chip.peg with checks := s.chip.peg.checks ++ [sg] } ∧
      s.chip.writesOnly c [R.pegStgCount sg, R.pegStgRes sg] ∧ s.chip.raises c [])) ∧
  (∀ (s : State) (t : Stamp) (src : Source) (sg : Nat), sg < 3 →
    (s.chip.bit (R.pegStgCount sg) 31 = true ∨ s.chip.fld (R.pegStgCount sg) 6 0 = 0) →
    Answers (.submit t src sg) s (fun c => c.peg = s.chip.peg ∧
      c.reg R.pegRefuse = (s.chip.bump R.pegRefuse).reg R.pegRefuse ∧
      s.chip.refused c t src (R.pegStgCmd sg) (stagerWord 1 0) (if s.chip.bit (R.pegStgCount sg) 31 = true then 1 else 2))) ∧
  (∀ (s : State) (t : Stamp) (sg : Nat) (rest : List Nat), sg < 3 → s.chip.peg.checks = sg :: rest →
    (sg = 0 → s.chip.peg.fwNow = none ∧ s.chip.peg.fwNext = [] ∧ s.chip.peg.fwCancel = []) →
    (s.chip.at t).groupFail sg ((List.range (min (s.chip.fld (R.pegStgCount sg) 6 0) 64)).map (fun i => s.chip.stagerEntry sg i)) = none →
    Answers (.groupCheckDone t) s (fun c => c.peg.checks = rest ∧ c.bit (R.pegStgCount sg) 31 = false ∧
      c.peg.pegs.map (fun p => { p with slot := 0 }) = s.chip.peg.pegs.map (fun p => { p with slot := 0 }) ++
        (List.range (min (s.chip.fld (R.pegStgCount sg) 6 0) 64)).map (fun i => (s.chip.stagerEntry sg i).1) ∧
      c.bit (R.pegStgRes sg) 31 = true ∧ c.bit (R.pegStgRes sg) 30 = true ∧ c.fld (R.pegStgRes sg) 27 24 = 0 ∧
      c.wide (R.pegStgResAtLo sg) (R.pegStgResAtHi sg) = shortStamp t ∧ s.chip.raises c [])) ∧
  (∀ (s : State) (t : Stamp) (sg cause i : Nat) (rest : List Nat), sg < 3 → s.chip.peg.checks = sg :: rest →
    (sg = 0 → s.chip.peg.fwNow = none ∧ s.chip.peg.fwNext = [] ∧ s.chip.peg.fwCancel = []) →
    (s.chip.at t).groupFail sg ((List.range (min (s.chip.fld (R.pegStgCount sg) 6 0) 64)).map (fun j => s.chip.stagerEntry sg j)) = some (cause, i) →
    Answers (.groupCheckDone t) s (fun c => c.peg = { s.chip.peg with checks := rest } ∧ c.bit (R.pegStgCount sg) 31 = false ∧
      c.bit (R.pegStgRes sg) 31 = true ∧ c.bit (R.pegStgRes sg) 30 = false ∧ c.fld (R.pegStgRes sg) 27 24 = cause % 16 ∧
      c.fld (R.pegStgRes1 sg) 5 0 = i % 64 ∧ c.reg (R.pegCnt 2) = (s.chip.bump (R.pegCnt 2)).reg (R.pegCnt 2) ∧
      s.chip.raises c [⟨0x0A01, .room, t, [.val 1 sg, .val 2 (if s.chip.fld (R.pegStgCount sg) 6 0 = 0 then 0 else
        s.chip.fld (R.pegBufW1 sg 0) 31 16), .val 1 cause, .val 1 i, .val 8 (shortStamp t)]⟩] ∧
      s.chip.writesOnly c ([R.pegStgCount sg, R.pegStgRes sg, R.pegStgRes1 sg, R.pegStgResAtLo sg, R.pegStgResAtHi sg, R.pegCnt 2] ++
        eventRegs))) ∧
  (∀ (s : State) (t : Stamp) (g : FwGroup) (rest : List Nat), s.chip.peg.checks = 0 :: rest → s.chip.peg.fwNow = some g →
    s.chip.peg.fwNext = [] → s.chip.peg.fwCancel = [] → g.use = .recall →
    Answers (.groupCheckDone t) s (fun c => c.peg.checks = rest ∧ c.peg.fwNow = none ∧ c.bit (R.pegStgCount 0) 31 = false ∧
      c.bit (R.pegStgRes 0) 31 = true ∧ c.bit R.pitRes 31 = true ∧
      c.bit R.pitRes 30 = (((s.chip.at t).groupFail 0 ((List.range (min (s.chip.fld (R.pegStgCount 0) 6 0) 64)).map
        (fun i => s.chip.stagerEntry 0 i))).isNone) ∧ c.fld R.pitRes 15 0 = g.group % 65536)) ∧
  (∀ (s : State) (t : Stamp), s.chip.peg.checks = [] → Gives (.groupCheckDone t) s (s.chip.at t))

/-- R116 to R118, R121, R129, R134: a peg is armed from 500 µs before its launch time on. At an edge of a block, the armed pegs
of the queue that write the block and are due leave the pool; each executes, its writes taking effect, counted in EXECUTED
and told by 0x0A05 where it asks for it, or past its deadline expires, counted in EXPIRED, with event 0x0A02. A peg that no
boundary met expires past its deadline. PEG_CANCEL takes the unarmed pegs of the group out of the pool and no other, with
event 0x0A04; where there is none, or the stager is in check, it is refused. -/
def Obligations.PegArmsExecutesExpiresOrIsCancelled : Prop :=
  (∀ (s : State) (t : Stamp) (p : Peg), p.slot < 4096 → s.chip.peg.pegs.find? (fun x => x.slot == p.slot) = some p → p.armed = false →
    0 ≤ stampGap t (stampSub p.launch 500000) →
    Answers (.pegArm t p.slot) s (fun c =>
      c.peg = { s.chip.peg with pegs := s.chip.peg.pegs.map (fun x => if x.slot = p.slot then { x with armed := true } else x) } ∧
      (∀ a, a < 4 → c.reg (R.pegCnt a) = s.chip.reg (R.pegCnt a)) ∧ s.chip.regsOnly c [R.pegStat, R.pegQ p.queue] ∧
      c.dram = s.chip.dram ∧ s.chip.raises c [])) ∧
  (∀ (s : State) (t : Stamp) (i : Nat), i < 4096 → (∀ p, s.chip.peg.pegs.find? (fun x => x.slot == i) = some p →
      p.armed = true ∨ stampGap t (stampSub p.launch 500000) < 0) →
    Gives (.pegArm t i) s (s.chip.at t)) ∧
  (∀ (s : State) (t : Stamp) (q block : Nat), 85 ≤ q → q < 96 →
    Answers (.pegImmediateFire t q block) s (fun c =>
      ∀ p ∈ s.chip.duePegs (fun p => p.writesTo block) q 0 t, ∀ x ∈ c.peg.pegs, x.slot ≠ p.slot)) ∧
  (∀ (s : State) (t : Stamp) (q block a : Nat) (p : Peg) (w : Word), 85 ≤ q → q < 96 →
    (q = 93 → block = 0x40600000 → s.chip.sweepDue t = false) →
    s.chip.duePegs (fun p => p.writesTo block) q 0 t = [p] → 0 ≤ stampGap p.deadline t → p.writes = [(a, w)] →
    pegSpan q 0 a ≠ none → roleOf a = .plain → p.stager ≠ 0 → (s.chip.d2dUp = true ∨ onAnalogue a = false) →
    Answers (.pegImmediateFire t q block) s (fun c =>
      c.peg.pegs = s.chip.peg.pegs.filter (fun x => x.slot != p.slot) ∧ c.reg a = ((s.chip.at t).writeFields a w).reg a ∧
      c.reg (R.pegCnt 0) = (s.chip.bump (R.pegCnt 0)).reg (R.pegCnt 0) ∧
      (p.rpt = true → s.chip.evq.length + 1 < evqCap → c.evq.getLast? = some ⟨0x0A05, .room, t, [.val 1 q, .val 2 p.group, .val 2 p.tag,
        .val 8 (shortStamp p.launch), .val 8 (shortStamp t)]⟩) ∧
      s.chip.regsOnly c ([a, R.pegStat, R.pegQ q, R.pegCnt 0] ++ dropRegs) ∧ c.dram = s.chip.dram)) ∧
  (∀ (s : State) (t : Stamp) (q block : Nat) (p : Peg), 85 ≤ q → q < 96 →
    (q = 93 → block = 0x40600000 → s.chip.sweepDue t = false) →
    s.chip.duePegs (fun p => p.writesTo block) q 0 t = [p] → stampGap p.deadline t < 0 → p.stager ≠ 0 →
    Answers (.pegImmediateFire t q block) s (fun c =>
      c.peg = { s.chip.peg with pegs := s.chip.peg.pegs.filter (fun x => x.slot != p.slot) } ∧
      c.reg (R.pegCnt 1) = (s.chip.bump (R.pegCnt 1)).reg (R.pegCnt 1) ∧
      s.chip.raises c [⟨0x0A02, .room, t, [.val 1 q, .val 2 p.group, .val 2 p.tag, .val 8 (shortStamp p.launch),
        .val 8 (shortStamp p.deadline), .val 8 (shortStamp (s.chip.lastBoundary p))]⟩] ∧
      s.chip.regsOnly c ([R.pegStat, R.pegQ q, R.pegCnt 1] ++ eventRegs) ∧ c.dram = s.chip.dram)) ∧
  (∀ (s : State) (t : Stamp) (q block : Nat), 85 ≤ q → q < 96 → (q = 93 → block = 0x40600000 → s.chip.sweepDue t = false) →
    s.chip.duePegs (fun p => p.writesTo block) q 0 t = [] →
    Gives (.pegImmediateFire t q block) s (s.chip.at t)) ∧
  (∀ (s : State) (t : Stamp) (p : Peg), p.slot < 4096 → s.chip.peg.pegs.find? (fun x => x.slot == p.slot) = some p →
    0 < stampGap t p.deadline →
    Answers (.pegExpire t p.slot) s (fun c => c.peg = { s.chip.peg with pegs := s.chip.peg.pegs.filter (fun x => x.slot != p.slot) } ∧
      c.reg (R.pegCnt 1) = (s.chip.bump (R.pegCnt 1)).reg (R.pegCnt 1) ∧ c.dram = s.chip.dram ∧
      (s.chip.evq.length < evqCap → (c.evq.drop s.chip.evq.length).head? = some ⟨0x0A02, pegPlace p.queue, t, [.val 1 p.queue,
        .val 2 p.group, .val 2 p.tag, .val 8 (shortStamp p.launch), .val 8 (shortStamp p.deadline),
        .val 8 (shortStamp (s.chip.lastBoundary p))]⟩))) ∧
  (∀ (s : State) (t : Stamp) (i : Nat), i < 4096 → (∀ p, s.chip.peg.pegs.find? (fun x => x.slot == i) = some p →
      stampGap t p.deadline ≤ 0) → Gives (.pegExpire t i) s (s.chip.at t)) ∧
  (∀ (s : State) (t : Stamp) (src : Source) (sg g : Nat), sg < 3 → g < 65536 → s.chip.bit (R.pegStgCount sg) 31 = false →
    s.chip.peg.pegs.any (fun p => p.stager == sg && p.group == g && !p.armed) = true →
    Answers (.pegCancel t src sg g) s (fun c =>
      c.peg = { s.chip.peg with pegs := s.chip.peg.pegs.filter (fun x => !(s.chip.peg.pegs.any (fun p =>
        p.stager == sg && p.group == g && !p.armed && p.slot == x.slot))) } ∧
      c.bit (R.pegStgRes sg) 31 = true ∧ c.bit (R.pegStgRes sg) 30 = true ∧ c.fld (R.pegStgRes sg) 29 28 = 2 ∧
      c.fld (R.pegStgRes1 sg) 31 16 = g ∧ c.dram = s.chip.dram ∧
      s.chip.raises c [⟨0x0A04, .room, t, [.val 1 sg, .val 2 g,
        .val 4 (s.chip.peg.pegs.filter (fun p => p.stager == sg && p.group == g && !p.armed)).length,
        .val 4 (s.chip.peg.pegs.filter (fun p => p.stager == sg && p.group == g && p.armed)).length]⟩])) ∧
  (∀ (s : State) (t : Stamp) (src : Source) (sg g : Nat), sg < 3 → g < 65536 → (s.chip.bit (R.pegStgCount sg) 31 = true ∨
    s.chip.peg.pegs.any (fun p => p.stager == sg && p.group == g && !p.armed) = false) →
    Answers (.pegCancel t src sg g) s (fun c => c.peg = s.chip.peg ∧
      c.reg R.pegRefuse = (s.chip.bump R.pegRefuse).reg R.pegRefuse ∧
      s.chip.refused c t src (R.pegStgCmd sg) (stagerWord 2 g) (if s.chip.bit (R.pegStgCount sg) 31 = true then 1 else 2)))

/-- R138 to R144, R231: a good frame that is not too long, on a sub-port that exists, is counted as received. A datagram that is
a PTP message of the port's instance goes there, one to a point flow joins the point engine's queue, and one that matches no
flow is counted as discarded, as a frame of another kind is; base firmware answers a request for the sub-port's own
addresses, and a query with the joins of its flows' groups. A bad or too long frame is counted as an error, and on a sub-port
that does not exist nothing happens. The MGT port, enabled, answers the same requests. -/
def Obligations.ReceivedFrameIsCountedAndClassified : Prop :=
  (∀ (s : State) (t : Stamp) (fr : EthFrame), fr.port < 2 → fr.sub < 4 → s.chip.subportOn fr.port fr.sub = true → fr.good = true →
    fr.ipBytes ≤ s.chip.fld (R.netPort fr.port) 13 0 →
    Answers (.ethFrameReceive t fr) s (fun c =>
      c.reg (R.netCnt fr.port fr.sub 0) = (s.chip.bump (R.netCnt fr.port fr.sub 0)).reg (R.netCnt fr.port fr.sub 0))) ∧
  (∀ (s : State) (t : Stamp) (fr : EthFrame), fr.port < 2 → fr.sub < 4 → s.chip.subportOn fr.port fr.sub = true → fr.good = true →
    fr.ipBytes ≤ s.chip.fld (R.netPort fr.port) 13 0 →
    (match fr.body with
      | .other => true
      | .udp d => (s.chip.ptpOf fr.port fr.sub d).isNone && (s.chip.flowOf fr.port fr.sub d).isNone
      | _ => false) = true →
    Answers (.ethFrameReceive t fr) s (fun c =>
      c.reg (R.netCnt fr.port fr.sub 0) = (s.chip.bump (R.netCnt fr.port fr.sub 0)).reg (R.netCnt fr.port fr.sub 0) ∧
      c.reg (R.netCnt fr.port fr.sub 2) = (s.chip.bump (R.netCnt fr.port fr.sub 2)).reg (R.netCnt fr.port fr.sub 2) ∧
      c.tx = s.chip.tx ∧ c.net = s.chip.net ∧ s.chip.writesOnly c [R.netCnt fr.port fr.sub 0, R.netCnt fr.port fr.sub 2] ∧
      s.chip.raises c [])) ∧
  (∀ (s : State) (t : Stamp) (fr : EthFrame) (r : BaseReq) (a : BaseAnswer), fr.port < 2 → fr.sub < 4 →
    s.chip.subportOn fr.port fr.sub = true → fr.good = true → fr.ipBytes ≤ s.chip.fld (R.netPort fr.port) 13 0 → fr.body = .base r →
    (s.chip.netIf fr.port fr.sub).answer r = some a →
    Answers (.ethFrameReceive t fr) s (fun c => c.tx = s.chip.tx ++ [.answer fr.port fr.sub a] ∧
      c.reg (R.netCnt fr.port fr.sub 3) = (s.chip.bump (R.netCnt fr.port fr.sub 3)).reg (R.netCnt fr.port fr.sub 3) ∧
      s.chip.writesOnly c [R.netCnt fr.port fr.sub 0, R.netCnt fr.port fr.sub 3] ∧ s.chip.raises c [])) ∧
  (∀ (s : State) (t : Stamp) (fr : EthFrame) (r : BaseReq), fr.port < 2 → fr.sub < 4 → s.chip.subportOn fr.port fr.sub = true →
    fr.good = true → fr.ipBytes ≤ s.chip.fld (R.netPort fr.port) 13 0 → fr.body = .base r →
    (s.chip.netIf fr.port fr.sub).answer r = none → (match r with | .query _ _ => false | _ => true) = true →
    Answers (.ethFrameReceive t fr) s (fun c => c.tx = s.chip.tx ∧ s.chip.writesOnly c [R.netCnt fr.port fr.sub 0] ∧
      s.chip.raises c [])) ∧
  (∀ (s : State) (t : Stamp) (fr : EthFrame) (v6 : Bool) (g : Option Nat) (f : Nat), fr.port < 2 → fr.sub < 4 →
    s.chip.subportOn fr.port fr.sub = true → fr.good = true → fr.ipBytes ≤ s.chip.fld (R.netPort fr.port) 13 0 →
    fr.body = .base (.query v6 g) → f < 1024 → s.chip.bit (R.netFlow f) 31 = true → s.chip.fld (R.netFlow f) 28 28 = fr.port →
    s.chip.subOf fr.port (s.chip.fld (R.netFlow f) 27 26) = fr.sub → s.chip.bit (R.netFlow f) 30 = v6 →
    isMulticast v6 (s.chip.addrOf v6 (R.netFlowDaddr f)) = true → (g = none ∨ g = some (s.chip.addrOf v6 (R.netFlowDaddr f))) →
    Answers (.ethFrameReceive t fr) s (fun c =>
      .join fr.port fr.sub v6 (s.chip.addrOf v6 (R.netFlowDaddr f)) (if s.chip.bit (R.netFlow f) 29 = true then
        some (s.chip.addrOf v6 (R.netFlowSaddr f)) else none) ∈ c.tx ∧
      s.chip.writesOnly c [R.netCnt fr.port fr.sub 0, R.netCnt fr.port fr.sub 3] ∧ s.chip.raises c [])) ∧
  (∀ (s : State) (t : Stamp) (fr : EthFrame), fr.port < 2 → fr.sub < 4 → s.chip.subportOn fr.port fr.sub = true →
    (fr.good = false ∨ s.chip.fld (R.netPort fr.port) 13 0 < fr.ipBytes) →
    Answers (.ethFrameReceive t fr) s (fun c =>
      c.reg (R.netCnt fr.port fr.sub 1) = (s.chip.bump (R.netCnt fr.port fr.sub 1)).reg (R.netCnt fr.port fr.sub 1) ∧
      c.net = s.chip.net ∧ c.tx = s.chip.tx ∧ s.chip.writesOnly c [R.netCnt fr.port fr.sub 1] ∧ s.chip.raises c [])) ∧
  (∀ (s : State) (t : Stamp) (fr : EthFrame) (d : Datagram) (m : PtpFrame), fr.port < 2 → fr.sub < 4 →
    s.chip.subportOn fr.port fr.sub = true → fr.good = true → fr.ipBytes ≤ s.chip.fld (R.netPort fr.port) 13 0 → fr.body = .udp d →
    s.chip.ptpOf fr.port fr.sub d = some m →
    Gives (.ethFrameReceive t fr) s (((s.chip.at t).bump (R.netCnt fr.port fr.sub 0)).ptpReceive fr.port m)) ∧
  (∀ (s : State) (t : Stamp) (fr : EthFrame) (d : Datagram) (f : Nat), fr.port < 2 → fr.sub < 4 → s.chip.subportOn fr.port fr.sub = true →
    fr.good = true → fr.ipBytes ≤ s.chip.fld (R.netPort fr.port) 13 0 → fr.body = .udp d → s.chip.ptpOf fr.port fr.sub d = none →
    s.chip.flowOf fr.port fr.sub d = some f → s.chip.fld (R.netFlow f) 25 24 = 2 → s.chip.bit R.pntCtl 31 = true →
    s.chip.pnt.queue.length < 2048 →
    Answers (.ethFrameReceive t fr) s (fun c => c.pnt.queue = s.chip.pnt.queue ++ [⟨f, t, d.payload⟩] ∧
      c.reg (R.pntCnt 0) = (s.chip.bump (R.pntCnt 0)).reg (R.pntCnt 0) ∧
      s.chip.writesOnly c [R.netCnt fr.port fr.sub 0, R.pntCnt 0] ∧ s.chip.raises c [])) ∧
  (∀ (s : State) (t : Stamp) (fr : EthFrame), fr.port < 2 → fr.sub < 4 → s.chip.subportOn fr.port fr.sub = false →
    Gives (.ethFrameReceive t fr) s (s.chip.at t)) ∧
  (∀ (s : State) (t : Stamp) (fr : EthFrame) (r : BaseReq) (a : BaseAnswer), fr.port = 2 → fr.sub < 4 → fr.good = true →
    s.chip.bit R.mgtCtl 31 = true → fr.body = .base r → (s.chip.netIf 2 0).answer r = some a →
    Gives (.ethFrameReceive t fr) s ((s.chip.at t).send (.answer 2 0 a))) ∧
  (∀ (s : State) (t : Stamp) (fr : EthFrame), fr.port = 2 → fr.sub < 4 → (fr.good = false ∨ s.chip.bit R.mgtCtl 31 = false ∨
      (match fr.body with | .base r => ((s.chip.netIf 2 0).answer r).isNone | _ => true) = true) →
    Gives (.ethFrameReceive t fr) s (s.chip.at t))

/-- R143, R149 to R155, R158: an RTP packet that comes by a flow of a network slot from a sender of the highest claim is
delivered where no packet of its slot is held. The held packet whose window ends first leaves the store at that end, and not
before: one that was delivered meanwhile is counted as a duplicate, another is delivered and counted as filled. When a sender
is no longer current the lead claim is taken anew, and a change raises 0x2002. A frame whose SKEW after its marker or after a
later frame's first packet has passed, or 100 ms after its last packet, is open no longer, and an access unit goes to its
decoder. -/
def Obligations.MergeStageReleasesAtItsWindows : Prop :=
  (∀ (s : State) (t : Stamp) (fr : EthFrame) (d : Datagram) (f n : Nat), fr.port < 2 → fr.sub < 4 →
    s.chip.subportOn fr.port fr.sub = true → fr.good = true → fr.ipBytes ≤ s.chip.fld (R.netPort fr.port) 13 0 → fr.body = .udp d →
    s.chip.ptpOf fr.port fr.sub d = none → s.chip.flowOf fr.port fr.sub d = some f → s.chip.fld (R.netFlow f) 25 24 ≠ 2 →
    s.chip.fld (R.netFlow f) 23 16 = n → (s.chip.slotKind n = 1 ∨ s.chip.slotKind n = 2) → d.dport = s.chip.fld (R.netFlow f) 15 0 →
    12 ≤ d.payload.length → leAt d.payload 0 1 / 64 = 2 → leAt d.payload 1 1 % 128 = s.chip.fld (R.srcNet n) 22 16 →
    (∀ x ∈ (s.chip.netSlot n).trackers, x.claim ≤ rtpClaim (s.chip.fld R.netClaim 3 0) d.payload) →
    ((s.chip.netSlot n).trackers.length < 4 ∨
      (s.chip.netSlot n).trackers.any (fun x => x.rank == rtpClaim (s.chip.fld R.netClaim 3 0) d.payload % 256) = true) →
    (∀ h ∈ s.chip.held, h.slot ≠ n) →
    (s.chip.netSlot n).highest.getD 0 ≤ extendSeq (s.chip.netSlot n).highest (beAt d.payload 2 2) + 16384 →
    Answers (.ethFrameReceive t fr) s (fun c =>
      extendSeq (s.chip.netSlot n).highest (beAt d.payload 2 2) ∈ (c.netSlot n).delivered ∧
      c.reg (R.netCnt fr.port fr.sub 0) = (s.chip.bump (R.netCnt fr.port fr.sub 0)).reg (R.netCnt fr.port fr.sub 0) ∧
      c.bit (R.srcStat n) (28 + s.chip.fld (R.netFlow f) 25 24) = true ∧ c.held = s.chip.held)) ∧
  (∀ (s : State) (t : Stamp) (h g : HeldPacket) (rest : List HeldPacket), s.chip.held = h :: rest →
    g = rest.foldl (fun b x => if stampGap x.due b.due < 0 then x else b) h → 0 ≤ stampGap t g.due →
    (s.chip.netSlot g.slot).delivered.contains g.pkt.seq = true →
    Answers (.heldPacketExpire t) s (fun c => c.held = s.chip.held.erase g ∧
      c.fld R.netHold 12 0 = (s.chip.held.length - 1) % 8192 ∧ c.net = s.chip.net ∧
      c.reg (R.srcCnt g.slot 5) = (s.chip.bump (R.srcCnt g.slot 5)).reg (R.srcCnt g.slot 5) ∧
      s.chip.writesOnly c [R.srcCnt g.slot 5, R.netHold] ∧ s.chip.raises c [])) ∧
  (∀ (s : State) (t : Stamp) (h g : HeldPacket) (rest : List HeldPacket), s.chip.held = h :: rest →
    g = rest.foldl (fun b x => if stampGap x.due b.due < 0 then x else b) h → 0 ≤ stampGap t g.due → g.slot < 256 →
    (s.chip.netSlot g.slot).delivered.contains g.pkt.seq = false →
    Answers (.heldPacketExpire t) s (fun c => c.held = s.chip.held.erase g ∧
      c.fld R.netHold 12 0 = (s.chip.held.length - 1) % 8192 ∧
      c.reg (R.srcCnt g.slot 4) = (s.chip.bump (R.srcCnt g.slot 4)).reg (R.srcCnt g.slot 4) ∧
      g.pkt.seq ∈ (c.netSlot g.slot).delivered)) ∧
  (∀ (s : State) (t : Stamp), (∀ h ∈ s.chip.held, stampGap t h.due < 0) → Gives (.heldPacketExpire t) s (s.chip.at t)) ∧
  (∀ (s : State) (t : Stamp) (n : Nat), n < 256 →
    Answers (.senderAgeOut t n) s (fun c => c.reg (R.srcLead n) = BitVec.ofNat 32 ((s.chip.at t).leadNow n) ∧
      (c.netSlot n).trackers = (s.chip.netSlot n).trackers)) ∧
  (∀ (s : State) (t : Stamp) (n : Nat), n < 256 → (∀ h ∈ s.chip.held, h.slot = n → h.claim < (s.chip.at t).leadNow n) →
    (s.chip.reg (R.srcLead n)).toNat ≠ (s.chip.at t).leadNow n → s.chip.watchSlot n = false →
    Answers (.senderAgeOut t n) s (fun c => c.reg (R.srcLead n) = BitVec.ofNat 32 ((s.chip.at t).leadNow n) ∧ c.net = s.chip.net ∧
      c.held = s.chip.held ∧ s.chip.writesOnly c ([R.srcLead n, R.netHold] ++ eventRegs) ∧
      s.chip.raises c [⟨0x2002, .room, t, [.val 1 n, .val 4 (s.chip.reg (R.srcLead n)).toNat,
        .val 4 ((s.chip.at t).leadNow n)]⟩])) ∧
  (∀ (s : State) (t : Stamp) (n : Nat), n < 256 → (s.chip.reg (R.srcLead n)).toNat = (s.chip.at t).leadNow n →
    s.chip.watchSlot n = false → Gives (.senderAgeOut t n) s (s.chip.at t)) ∧
  (∀ (s : State) (t : Stamp) (n ts : Nat) (f : NetFrame), n < 256 →
    (s.chip.netSlot n).openFrames.find? (fun g => g.ts == ts) = some f →
    (f.marker.any (fun m => elapsed t m.2 (s.chip.fld (R.srcMerge n) 21 16 * nsPerMs)) = true ∨
      f.later.any (fun l => elapsed t l (s.chip.fld (R.srcMerge n) 21 16 * nsPerMs)) = true) →
    Answers (.frameSkewTimeout t n ts) s (fun c => (c.netSlot n).openFrames = (s.chip.netSlot n).openFrames.filter (fun g => g.ts != ts) ∧
      (c.netSlot n).delivered = (s.chip.netSlot n).delivered ∧
      (s.chip.slotKind n ≠ 2 → c.aus.length = s.chip.aus.length + 1))) ∧
  (∀ (s : State) (t : Stamp) (n ts : Nat), n < 256 → (∀ f, (s.chip.netSlot n).openFrames.find? (fun g => g.ts == ts) = some f →
      f.marker.any (fun m => elapsed t m.2 (s.chip.fld (R.srcMerge n) 21 16 * nsPerMs)) = false ∧
      f.later.any (fun l => elapsed t l (s.chip.fld (R.srcMerge n) 21 16 * nsPerMs)) = false) →
    Gives (.frameSkewTimeout t n ts) s (s.chip.at t)) ∧
  (∀ (s : State) (t : Stamp) (n ts : Nat) (f : NetFrame), n < 256 →
    (s.chip.netSlot n).openFrames.find? (fun g => g.ts == ts) = some f → elapsed t f.last 100000000 = true →
    Answers (.framePacketTimeout t n ts) s (fun c => (c.netSlot n).openFrames = (s.chip.netSlot n).openFrames.filter (fun g => g.ts != ts) ∧
      (c.netSlot n).delivered = (s.chip.netSlot n).delivered ∧
      (s.chip.slotKind n ≠ 2 → c.aus.length = s.chip.aus.length + 1))) ∧
  (∀ (s : State) (t : Stamp) (n ts : Nat), n < 256 → (∀ f, (s.chip.netSlot n).openFrames.find? (fun g => g.ts == ts) = some f →
      elapsed t f.last 100000000 = false) →
    Gives (.framePacketTimeout t n ts) s (s.chip.at t))

/-- R138, R144, R156, R160, R165: a leg that has delivered nothing for 1 s (since the slot's first packet, where it has delivered
none) reads silent, and raises 0x2005 where the slot has two legs; a sender report older than 10 s counts no longer, with
0x3013; a sub-port's link is shown, a loss is counted, each change raises 0x2001, and on gaining link the sub-port joins its
flows' groups again. A leg or report that is not due, and a link that does not change, leave the part as it is. -/
def Obligations.LegsReportsAndLinksLapse : Prop :=
  (∀ (s : State) (t l : Stamp) (n : Nat), n < 256 → (s.chip.netSlot n).leg0.or (s.chip.netSlot n).first = some l →
    (s.chip.netSlot n).silent0 = false → elapsed t l nsPerS = true →
    Answers (.legSilenceTimeout t n 0) s (fun c => (c.netSlot n).silent0 = true ∧ (c.netSlot n).silent1 = (s.chip.netSlot n).silent1 ∧
      c.bit (R.srcStat n) 28 = false ∧ c.bit (R.srcStat n) 29 = s.chip.bit (R.srcStat n) 29 ∧
      s.chip.writesOnly c ([R.srcStat n] ++ eventRegs) ∧
      s.chip.raises c (if s.chip.bit (R.srcNet n) 29 = true then [⟨0x2005, .room, t, [.val 1 n, .val 1 0, .val 1 0]⟩] else []))) ∧
  (∀ (s : State) (t l : Stamp) (n : Nat), n < 256 → (s.chip.netSlot n).leg1.or (s.chip.netSlot n).first = some l →
    (s.chip.netSlot n).silent1 = false → elapsed t l nsPerS = true →
    Answers (.legSilenceTimeout t n 1) s (fun c => (c.netSlot n).silent1 = true ∧ (c.netSlot n).silent0 = (s.chip.netSlot n).silent0 ∧
      c.bit (R.srcStat n) 29 = false ∧ c.bit (R.srcStat n) 28 = s.chip.bit (R.srcStat n) 28 ∧
      s.chip.writesOnly c ([R.srcStat n] ++ eventRegs) ∧
      s.chip.raises c (if s.chip.bit (R.srcNet n) 29 = true then [⟨0x2005, .room, t, [.val 1 n, .val 1 1, .val 1 0]⟩] else []))) ∧
  (∀ (s : State) (t : Stamp) (n leg : Nat), n < 256 → leg < 2 →
    ((if leg = 0 then (s.chip.netSlot n).silent0 else (s.chip.netSlot n).silent1) = true ∨
      ((if leg = 0 then (s.chip.netSlot n).leg0 else (s.chip.netSlot n).leg1).or (s.chip.netSlot n).first).any
        (fun l => elapsed t l nsPerS) = false) → Gives (.legSilenceTimeout t n leg) s (s.chip.at t)) ∧
  (∀ (s : State) (t seen : Stamp) (n r : Nat) (i : Int), n < 256 → (s.chip.netSlot n).report = some (r, i, seen) →
    s.chip.bit (R.srcStat n) 30 = true → 10000000000 < stampGap t seen →
    Answers (.senderReportLapse t n) s (fun c => c.bit (R.srcStat n) 30 = false ∧ c.net = s.chip.net ∧
      s.chip.writesOnly c ([R.srcStat n] ++ eventRegs) ∧
      s.chip.raises c [⟨0x3013, .room, t, [.val 1 n, .val 1 0]⟩])) ∧
  (∀ (s : State) (t : Stamp) (n : Nat), n < 256 → (s.chip.bit (R.srcStat n) 30 = false ∨
      (s.chip.netSlot n).report.any (fun r => decide (10000000000 < stampGap t r.2.2)) = false) →
    Gives (.senderReportLapse t n) s (s.chip.at t)) ∧
  (∀ (s : State) (t : Stamp) (p sub : Nat), p < 2 → sub < 4 → s.chip.bit (R.netLink p) sub = true →
    Answers (.subportLinkChange t p sub false) s (fun c => c.bit (R.netLink p) sub = false ∧
      c.fld (R.netLink p) 23 16 = min 255 (s.chip.fld (R.netLink p) 23 16 + 1) ∧ c.tx = s.chip.tx ∧
      s.chip.writesOnly c ([R.netLink p] ++ eventRegs) ∧
      s.chip.raises c [⟨0x2001, .room, t, [.val 1 p, .val 1 sub, .val 1 0]⟩])) ∧
  (∀ (s : State) (t : Stamp) (p sub : Nat), p < 2 → sub < 4 → s.chip.bit (R.netLink p) sub = false → s.chip.subportOn p sub = true →
    Answers (.subportLinkChange t p sub true) s (fun c => c.bit (R.netLink p) sub = true ∧
      c.fld (R.netLink p) 23 16 = s.chip.fld (R.netLink p) 23 16 ∧
      s.chip.writesOnly c ([R.netLink p, R.netCnt p sub 3] ++ eventRegs) ∧
      s.chip.raises c [⟨0x2001, .room, t, [.val 1 p, .val 1 sub, .val 1 1]⟩] ∧
      (∀ f, f < 1024 → s.chip.bit (R.netFlow f) 31 = true → s.chip.fld (R.netFlow f) 28 28 = p →
        s.chip.subOf p (s.chip.fld (R.netFlow f) 27 26) = sub →
        isMulticast (s.chip.bit (R.netFlow f) 30) (s.chip.addrOf (s.chip.bit (R.netFlow f) 30) (R.netFlowDaddr f)) = true →
        .join p sub (s.chip.bit (R.netFlow f) 30) (s.chip.addrOf (s.chip.bit (R.netFlow f) 30) (R.netFlowDaddr f))
          (if s.chip.bit (R.netFlow f) 29 = true then some (s.chip.addrOf (s.chip.bit (R.netFlow f) 30) (R.netFlowSaddr f))
            else none) ∈ c.tx))) ∧
  (∀ (s : State) (t : Stamp) (p sub : Nat) (up : Bool), p < 2 → sub < 4 → (s.chip.bit (R.netLink p) sub = up ∨
      (up = true ∧ s.chip.subportOn p sub = false)) →
    Gives (.subportLinkChange t p sub up) s (s.chip.at t))

/-- R161, R172, R173, R177: base firmware takes up the oldest access unit that the slot of an enabled context has handed over, or
the next in a playback slot's bitstream buffer: a decoding context, or a waiting one at a random access point, with
parameters that it decodes, writes one picture job for it at the end of its jobs; a context that waits for a random access
point discards and counts any other unit, with no job; parameters beyond what it decodes leave it unable, with no job. A
disabled context, or one with no unit, does nothing. R174, R179, R181, R189, R194: a free engine takes the first ready job:
it reads busy with the job's context, the start is counted, and the context's oldest job runs on it. At its end the engine is
idle, the job leaves its context, and the context counts it and publishes its result; of a coded picture the reconstruction
alone is stored. An engine that is not free, or finds no ready job, starts none, and one on which no job runs ends none. -/
def Obligations.JobsAreBuiltTakenAndEnded : Prop :=
  (∀ (s : State) (t : Stamp) (x : Nat) (a : AccessUnit) (p : ParsedPicture), x < 256 → s.chip.bit (R.vdcCtx x) 31 = true →
    s.chip.slotKind (s.chip.decSlot x) = 1 → s.chip.aus.find? (fun u => u.slot == s.chip.decSlot x) = some a →
    (s.chip.decState x = 2 ∨ ((s.chip.decState x = 1 ∨ s.chip.decState x = 3) ∧ isRap (s.chip.bit (R.vdcCtx x) 30) p = true ∧
      (p.params.or (s.chip.decCtx x).params).isSome = true)) →
    (∀ q, p.params.or (s.chip.decCtx x).params = some q → s.chip.paramsOk x q = true) →
    Answers (.pictureJobBuild t x p) s (fun c => c.aus = s.chip.aus.erase a ∧
      (c.decCtx x).jobs.length = (s.chip.decCtx x).jobs.length + 1 ∧
      (c.decCtx x).jobs.take (s.chip.decCtx x).jobs.length = (s.chip.decCtx x).jobs ∧
      (c.decCtx x).jobs.getLast?.map (fun j => (j.slot, j.key, j.poc, j.incomplete, j.rap, j.bsAddr, j.bsLen, j.running)) =
        some (s.chip.decSlot x, a.ts, p.poc, !a.whole, isRap (s.chip.bit (R.vdcCtx x) 30) p, a.addr, a.len, none) ∧
      c.decState x = 2 ∧ (∀ y, y < 256 → y ≠ x → c.decCtx y = s.chip.decCtx y))) ∧
  (∀ (s : State) (t : Stamp) (x : Nat) (u : UnitInfo) (p : ParsedPicture), x < 256 → s.chip.bit (R.vdcCtx x) 31 = true →
    s.chip.slotKind (s.chip.decSlot x) = 6 → (s.chip.at t).playbackUnit (s.chip.decSlot x) = some u →
    (s.chip.decState x = 2 ∨ ((s.chip.decState x = 1 ∨ s.chip.decState x = 3) ∧ isRap (s.chip.bit (R.vdcCtx x) 30) p = true ∧
      (p.params.or (s.chip.decCtx x).params).isSome = true)) →
    (∀ q, p.params.or (s.chip.decCtx x).params = some q → s.chip.paramsOk x q = true) →
    Answers (.pictureJobBuild t x p) s (fun c => c.aus = s.chip.aus ∧
      (c.slot (s.chip.decSlot x)).bsPos = (s.chip.slot (s.chip.decSlot x)).bsPos + 16 + u.len ∧
      (c.decCtx x).jobs.length = (s.chip.decCtx x).jobs.length + 1 ∧
      (c.decCtx x).jobs.getLast?.map (fun j => (j.slot, j.key, j.supplied, j.bsAddr, j.bsLen)) =
        some (s.chip.decSlot x, u.key, u.supplied, u.addr, u.len) ∧ c.decState x = 2)) ∧
  (∀ (s : State) (t : Stamp) (x : Nat) (a : AccessUnit) (p : ParsedPicture), x < 256 → s.chip.bit (R.vdcCtx x) 31 = true →
    s.chip.slotKind (s.chip.decSlot x) = 1 → s.chip.aus.find? (fun u => u.slot == s.chip.decSlot x) = some a →
    (s.chip.decState x = 3 ∨ (s.chip.decState x = 1 ∧ ∀ q, p.params = some q → s.chip.paramsOk x q = true)) →
    isRap (s.chip.bit (R.vdcCtx x) 30) p = false →
    Answers (.pictureJobBuild t x p) s (fun c => c.aus = s.chip.aus.erase a ∧ (c.decCtx x).jobs = (s.chip.decCtx x).jobs ∧
      c.decState x = s.chip.decState x ∧ (∀ y, y < 256 → y ≠ x → c.decCtx y = s.chip.decCtx y) ∧
      c.reg (R.vdcCtxCnt x 3) = (s.chip.bump (R.vdcCtxCnt x 3)).reg (R.vdcCtxCnt x 3) ∧
      s.chip.writesOnly c ([R.vdcCtxStat x, R.vdcCtxCnt x 3, R.vdcCtxCnt x 5] ++ eventRegs))) ∧
  (∀ (s : State) (t : Stamp) (x : Nat) (a : AccessUnit) (p : ParsedPicture) (q : StreamParams), x < 256 →
    s.chip.bit (R.vdcCtx x) 31 = true → s.chip.slotKind (s.chip.decSlot x) = 1 →
    s.chip.aus.find? (fun u => u.slot == s.chip.decSlot x) = some a → (s.chip.decState x = 1 ∨ s.chip.decState x = 2) →
    p.params = some q → s.chip.paramsOk x q = false →
    Answers (.pictureJobBuild t x p) s (fun c => c.aus = s.chip.aus.erase a ∧ (c.decCtx x).jobs = (s.chip.decCtx x).jobs ∧
      (c.decCtx x).params = some q ∧ c.decState x = 3)) ∧
  (∀ (s : State) (t : Stamp) (x : Nat) (p : ParsedPicture), x < 256 → (s.chip.bit (R.vdcCtx x) 31 = false ∨
      (s.chip.slotKind (s.chip.decSlot x) = 1 ∧ s.chip.aus.find? (fun u => u.slot == s.chip.decSlot x) = none) ∨
      (s.chip.slotKind (s.chip.decSlot x) = 6 ∧ (s.chip.at t).playbackUnit (s.chip.decSlot x) = none) ∨
      (s.chip.slotKind (s.chip.decSlot x) ≠ 1 ∧ s.chip.slotKind (s.chip.decSlot x) ≠ 6)) →
    Gives (.pictureJobBuild t x p) s (s.chip.at t)) ∧
  (∀ (s : State) (t : Stamp) (e : Nat) (r : Ready) (j : PicJob) (rest : List PicJob), e < 8 → firstReady s.chip.readyDec = some r →
    (s.chip.at t).decFree e = true → r.ctx < 256 → (s.chip.decCtx r.ctx).jobs = j :: rest →
    Answers (.engineJobStart t false e) s (fun c => c.bit (R.vdcEng e) 31 = true ∧ c.fld (R.vdcEng e) 7 0 = r.ctx ∧
      (c.bit (R.vdcEng e) 30 = true ↔ 128 ≤ r.ctx) ∧
      c.reg (R.vdcEngCnt e 0) = (s.chip.bump (R.vdcEngCnt e 0)).reg (R.vdcEngCnt e 0) ∧
      (c.decCtx r.ctx).jobs.tail = rest ∧
      (c.decCtx r.ctx).jobs.head?.map (fun k => (k.poc, k.running)) = some (j.poc, some (e, t)))) ∧
  (∀ (s : State) (t : Stamp) (e : Nat) (r : Ready) (j : EncJob) (rest : List EncJob), e < 4 → firstReady s.chip.readyEnc = some r →
    s.chip.encOn e = none → r.ctx < 32 → (s.chip.encCtx r.ctx).jobs = j :: rest →
    Answers (.engineJobStart t true e) s (fun c => c.bit (R.vecEng e) 31 = true ∧ c.fld (R.vecEng e) 7 0 = r.ctx ∧
      c.reg (R.vecEngCnt e 0) = (s.chip.bump (R.vecEngCnt e 0)).reg (R.vecEngCnt e 0) ∧
      (c.encCtx r.ctx).jobs.tail = rest ∧
      (c.encCtx r.ctx).jobs.head?.map (fun k => (k.bucket, k.running)) = some (j.bucket, some (e, t)))) ∧
  (∀ (s : State) (t : Stamp) (e : Nat) (r : Ready) (j : EncJob) (rest : List EncJob), e < 4 → firstReady s.chip.readyEnc = some r →
    s.chip.encOn e = none → s.chip.duePegs (fun _ => true) (72 + r.ctx / 8) r.ctx t = [] → r.ctx < 32 →
    (s.chip.encCtx r.ctx).jobs = j :: rest →
    Answers (.engineJobStart t true e) s (fun c =>
      (c.encCtx r.ctx).jobs = { j with qp := s.chip.encQp r.ctx j, running := some (e, t) } :: rest ∧
      s.chip.writesOnly c [R.vecEng e, R.vecEngCnt e 0] ∧ s.chip.raises c [])) ∧
  (∀ (s : State) (t : Stamp) (enc : Bool) (e : Nat), e < (if enc = true then 4 else 8) →
    (if enc = true then (firstReady s.chip.readyEnc).isNone || (s.chip.encOn e).isSome
      else (firstReady s.chip.readyDec).isNone || !(s.chip.at t).decFree e) = true →
    Gives (.engineJobStart t enc e) s (s.chip.at t)) ∧
  (∀ (s : State) (t : Stamp) (e x : Nat) (r : JobResult) (j : PicJob) (rest : List PicJob), e < 8 → r.cause < 16 → r.cause &&& 2 = 0 →
    s.chip.decOn e = some x → x < 256 → (s.chip.decCtx x).jobs = j :: rest →
    Answers (.engineJobEnd t false e r) s (fun c => c.bit (R.vdcEng e) 31 = false ∧ c.fld (R.vdcEng e) 7 0 = 0 ∧
      (c.decCtx x).jobs.map (fun k => (k.poc, k.order, k.running)) = rest.map (fun k => (k.poc, k.order, k.running)) ∧
      (∀ y, y < 256 → y ≠ x → c.decCtx y = s.chip.decCtx y) ∧
      c.reg (R.vdcCtxCnt x 0) = (s.chip.bump (R.vdcCtxCnt x 0)).reg (R.vdcCtxCnt x 0) ∧
      c.bit (R.vdcCtxRes x) 31 = true ∧ c.fld (R.vdcCtxRes x) 15 0 = (s.chip.fld (R.vdcCtxRes x) 15 0 + 1) % 65536)) ∧
  (∀ (s : State) (t : Stamp) (e x : Nat) (r : JobResult) (j : EncJob) (rest : List EncJob), e < 4 → r.cause < 16 → r.cause &&& 2 = 0 →
    s.chip.encOn e = some x → x < 32 → (s.chip.encCtx x).jobs = j :: rest →
    Answers (.engineJobEnd t true e r) s (fun c => c.bit (R.vecEng e) 31 = false ∧ c.fld (R.vecEng e) 7 0 = 0 ∧
      (c.encCtx x).jobs = rest ∧ (c.encCtx x).coded = (s.chip.encCtx x).coded + 1 ∧
      (c.encCtx x).fullness = s.chip.encAfter x j (8 * ((codedNals ((s.chip.at t).encodeJob x j).2).map (fun n => n.length)).sum) ∧
      (∀ y, y < 32 → y ≠ x → c.encCtx y = s.chip.encCtx y) ∧
      c.reg (R.vecCtxCnt x 0) = (s.chip.bump (R.vecCtxCnt x 0)).reg (R.vecCtxCnt x 0) ∧
      c.bit (R.vecCtxRes x) 31 = true ∧ c.fld (R.vecCtxStat x) 7 2 = j.qp % 64 ∧
      s.chip.dramOnly c (s.chip.reconPic x j).base (reconBytes ((s.chip.at t).encodeJob x j).2
        (frameBytes (s.chip.reconPic x j).fmt (s.chip.reconPic x j).w (s.chip.reconPic x j).h)).length)) ∧
  (∀ (s : State) (t : Stamp) (enc : Bool) (e : Nat) (r : JobResult), e < (if enc = true then 4 else 8) → r.cause < 16 →
    r.cause &&& 2 = 0 → (if enc = true then (s.chip.encOn e).isNone else (s.chip.decOn e).isNone) = true →
    Gives (.engineJobEnd t enc e r) s (s.chip.at t))

/-- R189, R190, R195: at its take time a sealed part's enabled context that has started, or starts with an IDR bucket, takes the
bucket's frame as one job, with the set that waits for the bucket; or skips and counts a bucket without a frame. At no other
time does it take one. ARM keeps the pending set with its apply stamp until a bucket takes it, and is refused while one is
armed or the context is disabled. R138, R150, R163, R164, R349, R361: the next packet of an enabled stream leaves on each of
its legs whose sub-port exists at its release time, and not before; on a muted part it leaves nothing, and a unit whose first
number is not known is dropped. At each whole millisecond a sealed part sends a claim heartbeat, at each whole second a
sender report, on each such leg of each enabled stream. The twin's first number of a bucket is kept; where the part has given
the bucket another number, 0x100B is raised, and the part with the lower claim sends nothing until the next IDR bucket. -/
def Obligations.BucketsAndStreamsRunAtTheirTimes : Prop :=
  (∀ (s : State) (t k : Stamp) (x : Nat) (tw : Bool), x < 32 → s.chip.isSealed = true → s.chip.bit (R.vecCtx x) 31 = true →
    0 < s.chip.encPer x → t = k * s.chip.encPer x + s.chip.fld (R.vecCtxInwait x) 18 0 * nsPerUs →
    ((s.chip.encCtx x).started = true ∨ k % s.chip.fld (R.vecCtxGop x) 15 0 = 0) →
    (s.chip.at t).bucketFrame (s.chip.fld (R.vecCtx x) 15 8) (k * s.chip.encPer x) ((k + 1) * s.chip.encPer x) = none →
    Answers (.bucketTake t x tw) s (fun c => c.enc = s.chip.enc ∧ c.reg (R.vecCtxBucket x) = BitVec.ofNat 32 (k % 2 ^ 32) ∧
      c.reg (R.vecCtxCnt x 1) = (s.chip.bump (R.vecCtxCnt x 1)).reg (R.vecCtxCnt x 1) ∧ c.bit (R.vecCtxRes x) 31 = true ∧
      s.chip.writesOnly c ([R.vecCtxBucket x, R.vecCtxCnt x 1, R.vecCtxRes x] ++ eventRegs))) ∧
  (∀ (s : State) (t k : Stamp) (x i : Nat) (tw : Bool), x < 32 → s.chip.isSealed = true → s.chip.bit (R.vecCtx x) 31 = true →
    0 < s.chip.encPer x → t = k * s.chip.encPer x + s.chip.fld (R.vecCtxInwait x) 18 0 * nsPerUs →
    ((s.chip.encCtx x).started = true ∨ k % s.chip.fld (R.vecCtxGop x) 15 0 = 0) →
    (s.chip.at t).bucketFrame (s.chip.fld (R.vecCtx x) 15 8) (k * s.chip.encPer x) ((k + 1) * s.chip.encPer x) = some i →
    Answers (.bucketTake t x tw) s (fun c => (c.encCtx x).jobs.length = (s.chip.encCtx x).jobs.length + 1 ∧
      (c.encCtx x).jobs.take (s.chip.encCtx x).jobs.length = (s.chip.encCtx x).jobs ∧
      (c.encCtx x).jobs.getLast?.map (fun j => (j.bucket, j.slot, j.buf, j.cap, j.running)) =
        some (k, s.chip.fld (R.vecCtx x) 15 8, i, (s.chip.frameRec (s.chip.fld (R.vecCtx x) 15 8) i).cap, none) ∧
      (c.encCtx x).jobs.getLast?.map (fun j => j.idr) = some (k % s.chip.fld (R.vecCtxGop x) 15 0 == 0 ||
        ((s.chip.at t).setFor x k).any (fun a => a.idr)) ∧
      (((s.chip.at t).setFor x k).isSome = true → (c.encCtx x).armed = none ∧ c.bit (R.vecCtxStat x) 8 = false ∧
        c.reg (R.vecCtxApplied x) = BitVec.ofNat 32 (k % 2 ^ 32)) ∧
      (((s.chip.at t).setFor x k).isSome = false → (c.encCtx x).armed = (s.chip.encCtx x).armed) ∧
      (∀ y, y < 32 → y ≠ x → c.encCtx y = s.chip.encCtx y) ∧
      c.fld (R.vecCtxStat x) 1 0 = 2 ∧ c.reg (R.vecCtxBucket x) = BitVec.ofNat 32 (k % 2 ^ 32) ∧ c.dram = s.chip.dram)) ∧
  (∀ (s : State) (t : Stamp) (x : Nat) (tw : Bool), x < 32 → (s.chip.isSealed = false ∨ s.chip.bit (R.vecCtx x) 31 = false ∨
      s.chip.encPer x = 0 ∨ (t - s.chip.fld (R.vecCtxInwait x) 18 0 * nsPerUs) / s.chip.encPer x * s.chip.encPer x +
        s.chip.fld (R.vecCtxInwait x) 18 0 * nsPerUs ≠ t ∨
      ((s.chip.encCtx x).started = false ∧ (t - s.chip.fld (R.vecCtxInwait x) 18 0 * nsPerUs) / s.chip.encPer x %
        s.chip.fld (R.vecCtxGop x) 15 0 ≠ 0)) →
    Gives (.bucketTake t x tw) s (s.chip.at t)) ∧
  (∀ (s : State) (t : Stamp) (src : Source) (x : Nat), x < 32 → s.chip.bit (R.vecCtx x) 31 = true → (s.chip.encCtx x).armed = none →
    Answers (.arm t src x) s (fun c => c.bit (R.vecCtxStat x) 8 = true ∧
      (c.encCtx x).armed.map (fun a => (a.idr, a.apply, a.armedAt)) =
        some (s.chip.bit (R.vecCtxPend x) 31, s.chip.wide (R.vecCtxApplyLo x) (R.vecCtxApplyHi x), t) ∧
      (s.chip.bit (R.vecCtxPend x) 30 = true → (c.encCtx x).armed.map (fun a => a.qp) = some (some (s.chip.fld (R.vecCtxPend x) 5 0))) ∧
      (c.encCtx x).jobs = (s.chip.encCtx x).jobs ∧ s.chip.writesOnly c [R.vecCtxStat x] ∧ s.chip.raises c [])) ∧
  (∀ (s : State) (t : Stamp) (src : Source) (x : Nat), x < 32 →
    (s.chip.bit (R.vecCtx x) 31 = false ∨ (s.chip.encCtx x).armed ≠ none) →
    Answers (.arm t src x) s (fun c => c.enc = s.chip.enc ∧
      s.chip.refused c t src (R.vecCtxCmd x) (cmdWord 1) (if s.chip.bit (R.vecCtx x) 31 = false then 1 else 2))) ∧
  (∀ (s : State) (t : Stamp) (st n : Nat) (a : TxAu) (rest : List TxAu), st < 32 → (s.chip.txStream st).queue = a :: rest →
    s.chip.bit (R.netTx st) 31 = true → 0 ≤ stampGap t (s.chip.releaseAt st a a.sent) → a.first = some n →
    Answers (.packetRelease t st) s (fun c =>
      c.tx.length = s.chip.tx.length + (if s.chip.muted = true then 0 else s.chip.legsOn st) ∧ c.tx.take s.chip.tx.length = s.chip.tx ∧
      (c.txStream st).queue = (if a.sent + 1 = a.payloads.length then rest else { a with sent := a.sent + 1 } :: rest) ∧
      (s.chip.muted = false → (c.txStream st).packets = (s.chip.txStream st).packets + 1) ∧
      (∀ q, q < 32 → q ≠ st → c.txStream q = s.chip.txStream q) ∧
      s.chip.writesOnly c (s.chip.legCounts st ++ eventRegs))) ∧
  (∀ (s : State) (t : Stamp) (st : Nat) (a : TxAu) (rest : List TxAu), st < 32 → (s.chip.txStream st).queue = a :: rest →
    s.chip.bit (R.netTx st) 31 = true → 0 ≤ stampGap t (s.chip.releaseAt st a a.sent) → a.first = none →
    Answers (.packetRelease t st) s (fun c => (c.txStream st).queue = rest ∧ c.tx = s.chip.tx ∧ s.chip.writesOnly c [] ∧
      s.chip.raises c [])) ∧
  (∀ (s : State) (t : Stamp) (st : Nat), st < 32 → (s.chip.bit (R.netTx st) 31 = false ∨
      (s.chip.txStream st).queue.head?.all (fun a => decide (stampGap t (s.chip.releaseAt st a a.sent) < 0)) = true) →
    Gives (.packetRelease t st) s (s.chip.at t)) ∧
  (∀ (s : State) (t : Stamp), s.chip.isSealed = true → t % nsPerMs = 0 →
    Answers (.claimHeartbeatSend t) s (fun c => c.tx.take s.chip.tx.length = s.chip.tx ∧
      c.tx.length = s.chip.tx.length + ((List.range 32).map (fun st =>
        if s.chip.bit (R.netTx st) 31 = true then s.chip.legsOn st else 0)).sum ∧
      (c.tx.drop s.chip.tx.length).all (fun m => match m with
        | .udp _ _ _ _ _ _ _ _ l => l.take 4 == [0x80, 0xCC, 0, 6] && (l.drop 8).take 8 == [0x53, 0x50, 0x43, 0x4C] ++ beBytes 4 s.chip.ownClaim
        | _ => false) = true ∧ c.txs = s.chip.txs ∧
      s.chip.writesOnly c ((List.range 32).flatMap s.chip.legCounts) ∧ s.chip.raises c [])) ∧
  (∀ (s : State) (t : Stamp), s.chip.isSealed = true → t % nsPerS = 0 →
    Answers (.senderReportSend t) s (fun c => c.tx.take s.chip.tx.length = s.chip.tx ∧
      c.tx.length = s.chip.tx.length + ((List.range 32).map (fun st =>
        if s.chip.bit (R.netTx st) 31 = true then s.chip.legsOn st else 0)).sum ∧
      (c.tx.drop s.chip.tx.length).all (fun m => match m with
        | .udp _ _ _ _ _ _ _ _ l => l.take 4 == [0x80, 200, 0, 6] && l.length == 28
        | _ => false) = true ∧ c.txs = s.chip.txs ∧
      s.chip.writesOnly c ((List.range 32).flatMap s.chip.legCounts) ∧ s.chip.raises c [])) ∧
  (∀ (s : State) (t : Stamp), (s.chip.isSealed = false ∨ t % nsPerMs ≠ 0) → Gives (.claimHeartbeatSend t) s (s.chip.at t)) ∧
  (∀ (s : State) (t : Stamp), (s.chip.isSealed = false ∨ t % nsPerS ≠ 0) → Gives (.senderReportSend t) s (s.chip.at t)) ∧
  (∀ (s : State) (t : Stamp) (l : List Byte), l.length = 16 → leAt l 0 1 < 32 → s.chip.twinOn = true →
    (s.chip.txStream (leAt l 0 1)).own.find? (fun o => o.1 == leAt l 4 8) = none →
    (∀ a ∈ (s.chip.txStream (leAt l 0 1)).queue, a.idr = false) →
    Answers (.seqReceive t l) s (fun c => c.twn = { s.chip.twn with seqs := s.chip.twn.seqs ++ [⟨leAt l 0 1, leAt l 4 8, leAt l 12 2⟩] } ∧
      (c.txStream (leAt l 0 1)).own = (s.chip.txStream (leAt l 0 1)).own ∧
      (c.txStream (leAt l 0 1)).queue.length = (s.chip.txStream (leAt l 0 1)).queue.length ∧
      c.tx = s.chip.tx ∧ s.chip.writesOnly c [] ∧ s.chip.raises c [])) ∧
  (∀ (s : State) (t : Stamp) (l : List Byte) (n : Nat), l.length = 16 → leAt l 0 1 < 32 → s.chip.twinOn = true →
    (s.chip.txStream (leAt l 0 1)).own.find? (fun o => o.1 == leAt l 4 8) = some (leAt l 4 8, n) → n ≠ leAt l 12 2 →
    (∀ e ∈ s.chip.twn.seqs, e.stream = leAt l 0 1 → e.bucket ≠ leAt l 4 8) →
    (∀ a ∈ (s.chip.txStream (leAt l 0 1)).queue, a.idr = false) →
    Answers (.seqReceive t l) s (fun c =>
      (s.chip.ownClaim < (s.chip.reg R.twnClaimTwin).toNat → (c.txStream (leAt l 0 1)).queue = [] ∧
        (c.txStream (leAt l 0 1)).next = none) ∧
      ((s.chip.reg R.twnClaimTwin).toNat ≤ s.chip.ownClaim →
        (c.txStream (leAt l 0 1)).queue.length = (s.chip.txStream (leAt l 0 1)).queue.length) ∧
      c.tx = s.chip.tx ∧ s.chip.writesOnly c eventRegs ∧
      s.chip.raises c [⟨0x100B, .room, t, [.val 1 (leAt l 0 1), .val 8 (leAt l 4 8), .val 2 n, .val 2 (leAt l 12 2)]⟩])) ∧
  (∀ (s : State) (t : Stamp) (l : List Byte), l.length = 16 → leAt l 0 1 < 32 → s.chip.twinOn = false →
    Gives (.seqReceive t l) s (s.chip.at t))

/-- R204, R206, R208 to R210: a frame start packet on the configured virtual channel of an enabled pipeline advances its frame
counter and begins a frame with that packet's stamp; the frame under way ends, and a silent camera has resumed, with 0x5005.
Where no peg executes, a bundle whose number has changed is taken, from L frames later on, and its sensor writes join those
that run or wait; the bundle of a pipeline that has taken none counts as taken. A packet of a disabled pipeline, or on
another channel, does nothing. R202, R209: the writes of the oldest bundle that the sensor took leave, in order, and the next
bundle's follow; a refused write, or a window that ends with writes unfinished, stops the rest, marks the bundle and raises
0x5003; with no writes under way, or a window that still runs, nothing happens. FSYNC pulses at the Muith times of its period
and phase alone. -/
def Obligations.CameraFrameStartsAndSensorWrites : Prop :=
  (∀ (s : State) (t : Stamp) (p vc : Nat), p < 8 → s.chip.bit (R.camCtl p) 31 = true → vc = s.chip.fld (R.camCtl p) 24 23 →
    Answers (.cameraFrameStart t p vc) s (fun c =>
      (c.cam p).count = ((s.chip.cam p).count + 1) % 2 ^ 32 ∧ (c.cam p).lastStart = t ∧ (c.cam p).silent = false ∧
      (c.cam p).frame = some { n := ((s.chip.cam p).count + 1) % 2 ^ 32, arrival := shortStamp t, last := t } ∧
      (c.cam p).ended.length = (s.chip.cam p).ended.length + (if (s.chip.cam p).frame.isSome = true then 1 else 0) ∧
      (∀ q, q < 8 → q ≠ p → (c.cam q).frame = (s.chip.cam q).frame))) ∧
  (∀ (s : State) (t : Stamp) (p vc : Nat) (x : Bundle) (l : List Bundle), p < 8 → s.chip.bit (R.camCtl p) 31 = true →
    vc = s.chip.fld (R.camCtl p) 24 23 → s.chip.duePegs (fun _ => true) (76 + p) 0 t = [] → (s.chip.cam p).bundles = x :: l →
    Answers (.cameraFrameStart t p vc) s (fun c =>
      (c.cam p).bundles = (if x.num = s.chip.fld (R.camBndNum p) 15 0 then x :: l else
        (s.chip.bundleNow p (((s.chip.cam p).count + 1) % 2 ^ 32 + s.chip.fld (R.camProf0 p) 31 30) :: x :: l).take 16) ∧
      (c.cam p).writes = (s.chip.cam p).writes ++ (if x.num = s.chip.fld (R.camBndNum p) 15 0 then [] else
        [(s.chip.fld (R.camBndNum p) 15 0, t)]) ∧ (∀ q, q < 8 → q ≠ p → c.cam q = s.chip.cam q) ∧
      ((s.chip.cam p).frame = none → s.chip.writesOnly c eventRegs ∧ s.chip.raises c (if (s.chip.cam p).silent = true then
        [⟨0x5005, .room, t, [.val 1 p, .val 4 (Config.eventCode 0x5005 1)]⟩] else [])))) ∧
  (∀ (s : State) (t : Stamp) (p vc : Nat), p < 8 → s.chip.bit (R.camCtl p) 31 = true → vc = s.chip.fld (R.camCtl p) 24 23 →
    s.chip.duePegs (fun _ => true) (76 + p) 0 t = [] → (s.chip.cam p).bundles = [] →
    Answers (.cameraFrameStart t p vc) s (fun c =>
      (c.cam p).bundles = [s.chip.bundleNow p ((s.chip.cam p).count + 1)] ∧ (c.cam p).writes = (s.chip.cam p).writes)) ∧
  (∀ (s : State) (t : Stamp) (p vc : Nat), p < 8 → (s.chip.bit (R.camCtl p) 31 = false ∨ vc ≠ s.chip.fld (R.camCtl p) 24 23) →
    Gives (.cameraFrameStart t p vc) s (s.chip.at t)) ∧
  (∀ (s : State) (t st : Stamp) (p done num : Nat) (rest : List (Nat × Stamp)), p < 8 → (s.chip.cam p).writes = (num, st) :: rest →
    Answers (.cciWritesDone t p done false) s (fun c => c.cam p = { s.chip.cam p with writes := rest } ∧
      c.tx = s.chip.tx ++ (match (s.chip.cam p).bundles.find? (fun u => u.num == num) with
        | some x => ((s.chip.sensorWrites p x).take done).map (fun w => .cci p (s.chip.fld (R.camCtl p) 20 14) w.1 w.2)
        | none => []) ∧
      s.chip.writesOnly c [] ∧ s.chip.raises c [])) ∧
  (∀ (s : State) (t st : Stamp) (p done num : Nat) (rest : List (Nat × Stamp)) (x : Bundle), p < 8 →
    (s.chip.cam p).writes = (num, st) :: rest → (s.chip.cam p).bundles.find? (fun u => u.num == num) = some x →
    Answers (.cciWritesDone t p done true) s (fun c => (c.cam p).writes = rest ∧
      (c.cam p).bundles.find? (fun u => u.num == num) = some { x with fate := if x.fate = 0 then 2 else x.fate } ∧
      c.tx = s.chip.tx ++ ((s.chip.sensorWrites p x).take done).map (fun w => .cci p (s.chip.fld (R.camCtl p) 20 14) w.1 w.2) ∧
      s.chip.storesOnly c eventRegs (s.chip.statAddr p x.eff + 22) 2 ∧
      s.chip.raises c [⟨0x5003, .room, t, [.val 1 p, .val 2 num, .val 2 (((s.chip.sensorWrites p x).getD done (0, [])).1)]⟩])) ∧
  (∀ (s : State) (t st : Stamp) (p done num : Nat) (rest : List (Nat × Stamp)) (x : Bundle), p < 8 →
    (s.chip.cam p).writes = (num, st) :: rest → (s.chip.cam p).bundles.find? (fun u => u.num == num) = some x →
    elapsed t st (s.chip.fld (R.camProf0 p) 15 0 * 1000) = true →
    Answers (.cciWindowExpire t p done) s (fun c => (c.cam p).writes = rest ∧
      (c.cam p).bundles.find? (fun u => u.num == num) = some { x with fate := if x.fate = 0 then 1 else x.fate } ∧
      c.tx = s.chip.tx ++ ((s.chip.sensorWrites p x).take done).map (fun w => .cci p (s.chip.fld (R.camCtl p) 20 14) w.1 w.2) ∧
      s.chip.storesOnly c eventRegs (s.chip.statAddr p x.eff + 22) 2 ∧
      s.chip.raises c [⟨0x5003, .room, t, [.val 1 p, .val 2 num, .val 2 (((s.chip.sensorWrites p x).getD done (0, [])).1)]⟩])) ∧
  (∀ (s : State) (t : Stamp) (p done : Nat) (r : Bool), p < 8 → (s.chip.cam p).writes = [] →
    Gives (.cciWritesDone t p done r) s (s.chip.at t)) ∧
  (∀ (s : State) (t : Stamp) (p done : Nat), p < 8 → ((s.chip.cam p).writes.head?.any (fun w =>
      elapsed t w.2 (s.chip.fld (R.camProf0 p) 15 0 * 1000))) = false → Gives (.cciWindowExpire t p done) s (s.chip.at t)) ∧
  (∀ (s : State) (t : Stamp) (p : Nat), p < 8 → s.chip.bit (R.camFsync p) 31 = true → 0 < s.chip.fld (R.camFsync p) 23 0 →
    t % (s.chip.fld (R.camFsync p) 23 0 * 1000) =
      s.chip.fld (R.camFsyncPh p) 23 0 * 1000 % (s.chip.fld (R.camFsync p) 23 0 * 1000) →
    Gives (.fsyncPulse t p) s ((s.chip.at t).send (.fsync p))) ∧
  (∀ (s : State) (t : Stamp) (p : Nat), p < 8 → (s.chip.bit (R.camFsync p) 31 = false ∨ s.chip.fld (R.camFsync p) 23 0 = 0 ∨
      t % (s.chip.fld (R.camFsync p) 23 0 * 1000) ≠
        s.chip.fld (R.camFsyncPh p) 23 0 * 1000 % (s.chip.fld (R.camFsync p) 23 0 * 1000)) →
    Gives (.fsyncPulse t p) s (s.chip.at t))

/-- R156, R204, R205, R211, R387: a line of the pixel data type on the configured channel is added to the frame, with what went
wrong; with the first one every enabled output begins its frame. A packet with a bad header, and one of embedded data with a
bad CRC, mark the frame. Embedded data before the first line that agrees with the predicted bundle, or with one before it,
identifies the bundle, else it stays unknown. Outside a frame, on another channel or of another type nothing is added. The
line's fill level drives the panic request of its pipeline. -/
def Obligations.CameraLinesAndEmbeddedDataFillTheFrame : Prop :=
  (∀ (s : State) (t : Stamp) (p : Nat) (l : CsiLine) (f : CamFrame), p < 8 → s.chip.bit (R.camCtl p) 31 = true →
    (s.chip.cam p).frame = some f → l.headerOk = true → l.vc = s.chip.fld (R.camCtl p) 24 23 →
    l.dt = 0x2B + (s.chip.camDepth p - 10) / 2 →
    Answers (.csiLineReceive t p l) s (fun c =>
      (c.cam p).frame.map (fun g => (g.n, g.rows, g.last, g.linkBad, g.fault, g.lost)) = some (f.n,
        f.rows ++ [if l.lost = true then [] else l.samples], t,
        f.linkBad || (!l.crcOk || l.words != s.chip.camW p * s.chip.camDepth p / 8), f.fault || l.fault, f.lost || l.lost) ∧
      (∀ q, q < 8 → q ≠ p → c.cam q = s.chip.cam q))) ∧
  (∀ (s : State) (t : Stamp) (p : Nat) (l : CsiLine) (f : CamFrame), p < 8 → s.chip.bit (R.camCtl p) 31 = true →
    (s.chip.cam p).frame = some f → f.rows = [] → l.headerOk = true → l.vc = s.chip.fld (R.camCtl p) 24 23 →
    l.dt = 0x2B + (s.chip.camDepth p - 10) / 2 →
    Answers (.csiLineReceive t p l) s (fun c =>
      (c.cam p).frame.map (fun g => g.outs.map (fun u => (u.1, u.2.1))) = some (f.outs.map (fun u => (u.1, u.2.1)) ++
        ((List.range 3).filter (fun o => s.chip.bit (R.camOut p o) 31)).map (fun o => (o, s.chip.fld (R.camOut p o) 7 0))) ∧
      (∀ o, o < 3 → s.chip.bit (R.camOut p o) 31 = true → s.chip.slotUnit (s.chip.fld (R.camOut p o) 7 0) 3 (3 * p + o) = true →
        (c.slot (s.chip.fld (R.camOut p o) 7 0)).seq = ((s.chip.slot (s.chip.fld (R.camOut p o) 7 0)).seq + 1) % 2 ^ 32))) ∧
  (∀ (s : State) (t : Stamp) (p : Nat) (l : CsiLine) (f : CamFrame), p < 8 → s.chip.bit (R.camCtl p) 31 = true →
    (s.chip.cam p).frame = some f → (l.headerOk = false ∨ (l.vc = s.chip.fld (R.camCtl p) 24 23 ∧ l.dt = 0x12 ∧ l.crcOk = false)) →
    Answers (.csiLineReceive t p l) s (fun c =>
      c.cam p = { s.chip.cam p with frame := some { f with linkBad := true, last := t } })) ∧
  (∀ (s : State) (t : Stamp) (p : Nat) (l : CsiLine), p < 8 → (s.chip.bit (R.camCtl p) 31 = false ∨ (s.chip.cam p).frame = none ∨
      (l.headerOk = true ∧ (l.vc ≠ s.chip.fld (R.camCtl p) 24 23 ∨ (l.dt ≠ 0x2B + (s.chip.camDepth p - 10) / 2 ∧
        (l.dt ≠ 0x12 ∨ l.crcOk = true))))) →
    Answers (.csiLineReceive t p l) s (fun c => c.cams = s.chip.cams ∧ c.slots = s.chip.slots)) ∧
  (∀ (s : State) (t : Stamp) (p : Nat) (l : CsiLine), p < 8 →
    Answers (.csiLineReceive t p l) s (fun c =>
      c.mem.panics (.cam p) = (if s.chip.fld R.dmcPanic 22 16 < l.fill then true else if l.fill + 16 ≤ s.chip.fld R.dmcPanic 22 16 then
        false else s.chip.mem.panics (.cam p)) ∧
      (s.chip.fld R.dmcPanic 22 16 < l.fill → c.bit R.dmcGstat 31 = true))) ∧
  (∀ (s : State) (t : Stamp) (p vc : Nat) (l : List Byte) (ok : Bool) (f : CamFrame) (x : Bundle) (r : List Bundle), p < 8 →
    s.chip.bit (R.camProf0 p) 29 = true → vc = s.chip.fld (R.camCtl p) 24 23 → (s.chip.cam p).frame = some f → f.rows = [] →
    f.decided = false → s.chip.predicted p f.n = x :: r → s.chip.edMatches p l x = true →
    Answers (.embeddedDataReceive t p vc l true ok) s (fun c => c.cam p = { s.chip.cam p with frame := some { f with
        decided := true, num := x.num, exp := x.exp, again := x.again, dgain := x.dgain, wb := x.wb, flags := 0,
        linkBad := f.linkBad || !ok, last := t } } ∧
      s.chip.writesOnly c [] ∧ s.chip.raises c [])) ∧
  (∀ (s : State) (t : Stamp) (p vc : Nat) (l : List Byte) (ok : Bool) (f : CamFrame) (x : Bundle) (r : List Bundle), p < 8 →
    s.chip.bit (R.camProf0 p) 29 = true → vc = s.chip.fld (R.camCtl p) 24 23 → (s.chip.cam p).frame = some f → f.rows = [] →
    f.decided = false → s.chip.predicted p f.n = x :: r → s.chip.edMatches p l x = false →
    Answers (.embeddedDataReceive t p vc l true ok) s (fun c =>
      (c.cam p).frame.map (fun g => (g.decided, g.num, g.linkBad, g.last)) = some (true,
        (match (r.take 4).find? (s.chip.edMatches p l) with | some o => o.num | none => 0xFFFF), f.linkBad || !ok, t) ∧
      c.reg (R.camCnt p 5) = (s.chip.bump (R.camCnt p 5)).reg (R.camCnt p 5) ∧
      s.chip.writesOnly c ([R.camCnt p 5] ++ eventRegs))) ∧
  (∀ (s : State) (t : Stamp) (p vc : Nat) (l : List Byte) (ok : Bool) (f : CamFrame), p < 8 →
    (s.chip.bit (R.camProf0 p) 29 = false ∨ f.rows ≠ [] ∨ f.decided = true) →
    vc = s.chip.fld (R.camCtl p) 24 23 → (s.chip.cam p).frame = some f →
    Answers (.embeddedDataReceive t p vc l true ok) s (fun c =>
      c.cam p = { s.chip.cam p with frame := some { f with linkBad := f.linkBad || !ok, last := t } } ∧
      s.chip.writesOnly c [] ∧ s.chip.raises c [])) ∧
  (∀ (s : State) (t : Stamp) (p vc : Nat) (l : List Byte) (ok : Bool) (f : CamFrame), p < 8 → (s.chip.cam p).frame = some f →
    Answers (.embeddedDataReceive t p vc l false ok) s (fun c =>
      c.cam p = { s.chip.cam p with frame := some { f with linkBad := true, last := t } } ∧
      s.chip.writesOnly c [] ∧ s.chip.raises c [])) ∧
  (∀ (s : State) (t : Stamp) (p vc : Nat) (l : List Byte) (hd ok : Bool), p < 8 → ((s.chip.cam p).frame = none ∨
      (hd = true ∧ vc ≠ s.chip.fld (R.camCtl p) 24 23)) →
    Gives (.embeddedDataReceive t p vc l hd ok) s (s.chip.at t))

/-- R204 to R206, R209, R219: the frame ends at its frame end packet or 100 ms after its last packet: it is counted, with its
completeness, its statistics record is written in its place of the ring, and the result block shows its number. An output
finishes the oldest ended frame that it began. A camera with no frame start for 1 s raises 0x5005 once. A packet on another
channel, and a time that has not come, end nothing. -/
def Obligations.CameraFramesEndAndSilenceIsTold : Prop :=
  (∀ (s : State) (t : Stamp) (p vc : Nat) (f : CamFrame), p < 8 → vc = s.chip.fld (R.camCtl p) 24 23 →
    (s.chip.cam p).frame = some f →
    Answers (.cameraFrameEnd t p vc) s (fun c => (c.cam p).frame = none ∧
      (c.cam p).ended.take (s.chip.cam p).ended.length = (s.chip.cam p).ended ∧
      (c.cam p).ended.length = (s.chip.cam p).ended.length + 1 ∧
      (c.cam p).ended.getLast?.map (fun g => (g.n, g.arrival, g.rows, g.code)) = some (f.n, f.arrival, f.rows,
        if f.linkBad = true ∨ f.fault = true then 5 else if f.lost = true then 6 else if f.rows.length < s.chip.camH p then 3
        else if s.chip.camH p < f.rows.length then 4 else 2) ∧
      (∀ q, q < 8 → q ≠ p → c.cam q = s.chip.cam q) ∧
      c.reg (R.camCnt p 0) = (s.chip.bump (R.camCnt p 0)).reg (R.camCnt p 0) ∧
      (c.reg (R.camResFrame p)).toNat = f.n % 2 ^ 32 ∧ c.bit (R.camRes p) 31 = true ∧
      s.chip.dramOnly c (s.chip.statAddr p f.n) 16448)) ∧
  (∀ (s : State) (t : Stamp) (p vc : Nat) (f : CamFrame), p < 8 → vc = s.chip.fld (R.camCtl p) 24 23 →
    (s.chip.cam p).frame = some f → f.decided = true → f.linkBad = false → f.fault = false → f.lost = false →
    f.rows.length = s.chip.camH p →
    Answers (.cameraFrameEnd t p vc) s (fun c =>
      (c.cam p).ended = (s.chip.cam p).ended ++ [{ f with code := 2, cause := 0, flags := f.flags + 1 + s.chip.fateOf p f.n }] ∧
      c.wide (R.camResLastcLo p) (R.camResLastcHi p) = s.chip.camCapture p f % 2 ^ 64 ∧
      s.chip.storesOnly c [R.camCnt p 0, R.camResFrame p, R.camResBundle p, R.camResLastcLo p, R.camResLastcHi p, R.camRes p]
        (s.chip.statAddr p f.n) 16448 ∧
      s.chip.raises c [])) ∧
  (∀ (s : State) (t : Stamp) (p : Nat) (f : CamFrame), p < 8 → (s.chip.cam p).frame = some f → elapsed t f.last 100000000 = true →
    Answers (.cameraFrameTimeout t p) s (fun c => (c.cam p).frame = none ∧
      (c.cam p).ended.length = (s.chip.cam p).ended.length + 1 ∧
      (c.cam p).ended.getLast?.map (fun g => (g.n, g.arrival, g.rows, g.code)) = some (f.n, f.arrival, f.rows,
        if f.linkBad = true ∨ f.fault = true then 5 else if f.lost = true then 6 else if f.rows.length < s.chip.camH p then 3
        else if s.chip.camH p < f.rows.length then 4 else 2) ∧
      c.reg (R.camCnt p 0) = (s.chip.bump (R.camCnt p 0)).reg (R.camCnt p 0) ∧
      (f.linkBad = false → f.fault = false → f.lost = false → f.rows.length < s.chip.camH p →
        c.reg (R.camCnt p 1) = (s.chip.bump (R.camCnt p 1)).reg (R.camCnt p 1)) ∧
      s.chip.dramOnly c (s.chip.statAddr p f.n) 16448)) ∧
  (∀ (s : State) (t : Stamp) (p : Nat), p < 8 → ((s.chip.cam p).frame.any (fun f =>
      elapsed t f.last 100000000)) = false → Gives (.cameraFrameTimeout t p) s (s.chip.at t)) ∧
  (∀ (s : State) (t : Stamp) (p vc : Nat), p < 8 → (vc ≠ s.chip.fld (R.camCtl p) 24 23 ∨ (s.chip.cam p).frame = none) →
    Gives (.cameraFrameEnd t p vc) s (s.chip.at t)) ∧
  (∀ (s : State) (t : Stamp) (p o : Nat) (f : CamFrame), p < 8 → o < 3 →
    (s.chip.cam p).ended.find? (fun f => f.outs.any (fun u => u.1 == o)) = some f →
    Answers (.cameraOutputFinish t p o) s (fun c =>
      (∀ g ∈ (c.cam p).ended, g.n = f.n → ∀ u ∈ g.outs, u.1 ≠ o) ∧
      (c.cam p).ended.filter (fun g => g.n != f.n) = ((s.chip.cam p).ended.filter (fun g => g.n != f.n)).filter (fun g => !g.outs.isEmpty) ∧
      (c.cam p).frame = (s.chip.cam p).frame ∧ (∀ q, q < 8 → q ≠ p → c.cam q = s.chip.cam q))) ∧
  (∀ (s : State) (t : Stamp) (p o n i : Nat) (f : CamFrame), p < 8 → o < 3 → n < 256 → i < 32 →
    (s.chip.cam p).ended.find? (fun f => f.outs.any (fun u => u.1 == o)) = some f →
    f.outs.find? (fun u => u.1 == o) = some (o, n, some i) → (s.chip.frameRec n i).code = 1 →
    s.chip.isBeyond (s.chip.bufAddr n i) (frameBytes (s.chip.bufPic n i).fmt (s.chip.fld (R.camOutSize p o) 15 0)
      (s.chip.fld (R.camOutSize p o) 31 16)) = false →
    (s.chip.bufAddr n i + frameBytes (s.chip.bufPic n i).fmt (s.chip.fld (R.camOutSize p o) 15 0)
      (s.chip.fld (R.camOutSize p o) 31 16) ≤ s.chip.recAddr n i ∨ s.chip.recAddr n i + 48 ≤ s.chip.bufAddr n i) →
    Answers (.cameraOutputFinish t p o) s (fun c =>
      (c.slot n).done.length = (s.chip.slot n).done.length + 1 ∧
      (c.slot n).done.head?.map (fun d => (d.seq, d.complete)) = some ((s.chip.frameRec n i).seq, f.code == 2) ∧
      c.reg (R.srcCnt n 0) = (s.chip.bump (R.srcCnt n 0)).reg (R.srcCnt n 0) ∧ c.bit (R.srcStat n) 31 = true)) ∧
  (∀ (s : State) (t : Stamp) (p o : Nat), p < 8 → o < 3 → ((s.chip.cam p).ended.any (fun f => f.outs.any (fun u => u.1 == o))) = false →
    Gives (.cameraOutputFinish t p o) s (s.chip.at t)) ∧
  (∀ (s : State) (t : Stamp) (p : Nat), p < 8 → s.chip.bit (R.camCtl p) 31 = true → (s.chip.cam p).silent = false →
    elapsed t (s.chip.cam p).lastStart 1000000000 = true →
    Answers (.cameraSilenceTimeout t p) s (fun c => c.cam p = { s.chip.cam p with silent := true } ∧
      (∀ q, q < 8 → q ≠ p → c.cam q = s.chip.cam q) ∧
      s.chip.writesOnly c eventRegs ∧ s.chip.raises c [⟨0x5005, .room, t, [.val 1 p, .val 4 (Config.eventCode 0x5005 0)]⟩])) ∧
  (∀ (s : State) (t : Stamp) (p : Nat), p < 8 → (s.chip.bit (R.camCtl p) 31 = false ∨ (s.chip.cam p).silent = true ∨
      elapsed t (s.chip.cam p).lastStart 1000000000 = false) →
    Gives (.cameraSilenceTimeout t p) s (s.chip.at t))

/-- R222 to R225, R387: on a trained link with video a capture frame begins at its vertical blanking, shows the stream's size,
and takes a buffer of the slot that is the port's; a stream that differs from its slot is counted. A line is added to a frame
that needs one, and its fill level drives the port's panic request. The end leaves COMPLETE only for a whole frame of the
right kind, else it is counted. A change of the link is shown, its training and loss raise 0x5801 and IRQ_HPD; the loss is
counted and ends the frame. The EDID, the advertised capabilities and other requests are answered. A disabled or unplugged
port does nothing. -/
def Obligations.CapturePortFollowsItsLinkAndFrames : Prop :=
  (∀ (s : State) (t : Stamp) (q w h enc : Nat) (d : Bool), q < 4 → w < 65536 → h < 65536 → enc < 3 → s.chip.bit (R.capPort q) 31 = true →
    s.chip.bit (R.capStat q) 30 = true → s.chip.bit (R.capStat q) 24 = true →
    Answers (.captureFrameBegin t q w h enc d) s (fun c =>
      (c.capPort q).frame.map (fun f => (f.slot, f.arrival, f.differs, f.rows)) =
        some (s.chip.fld (R.capPort q) 7 0, shortStamp t,
          w != s.chip.fld (R.srcGeom (s.chip.fld (R.capPort q) 7 0)) 15 0 ||
            h != s.chip.fld (R.srcGeom (s.chip.fld (R.capPort q) 7 0)) 31 16 ||
            enc != s.chip.fld (R.capPort q) 25 24 || d != s.chip.bit (R.capPort q) 23, []) ∧
      (c.capPort q).lastStart = some t ∧ c.reg (R.capMsa q) = BitVec.ofNat 32 (h * 65536 + w) ∧
      (∀ p, p < 4 → p ≠ q → c.capPort p = s.chip.capPort p) ∧
      c.reg (R.capCnt q 2) = (if w ≠ s.chip.fld (R.srcGeom (s.chip.fld (R.capPort q) 7 0)) 15 0 ∨
            h ≠ s.chip.fld (R.srcGeom (s.chip.fld (R.capPort q) 7 0)) 31 16 ∨
            enc ≠ s.chip.fld (R.capPort q) 25 24 ∨ d ≠ s.chip.bit (R.capPort q) 23 then
          (s.chip.bump (R.capCnt q 2)).reg (R.capCnt q 2) else s.chip.reg (R.capCnt q 2)))) ∧
  (∀ (s : State) (t : Stamp) (q w h enc : Nat) (d : Bool), q < 4 → w < 65536 → h < 65536 → enc < 3 → s.chip.bit (R.capPort q) 31 = true →
    s.chip.bit (R.capStat q) 30 = true → s.chip.bit (R.capStat q) 24 = true → (s.chip.capPort q).frame = none →
    s.chip.slotUnit (s.chip.fld (R.capPort q) 7 0) 4 q = true →
    Answers (.captureFrameBegin t q w h enc d) s (fun c =>
      (c.capPort q).frame.map (fun f => (f.buf, f.seq)) = some (s.chip.freeBuf (s.chip.fld (R.capPort q) 7 0),
          ((s.chip.slot (s.chip.fld (R.capPort q) 7 0)).seq + 1) % 2 ^ 32))) ∧
  (∀ (s : State) (t : Stamp) (q w h enc : Nat) (d : Bool), q < 4 → w < 65536 → h < 65536 → enc < 3 →
    (s.chip.bit (R.capPort q) 31 = false ∨ s.chip.bit (R.capStat q) 30 = false ∨ s.chip.bit (R.capStat q) 24 = false) →
    Gives (.captureFrameBegin t q w h enc d) s (s.chip.at t)) ∧
  (∀ (s : State) (t : Stamp) (q fill : Nat) (px : List (Nat × Nat × Nat)) (f : CapFrame), q < 4 → (s.chip.capPort q).frame = some f →
    f.differs = false → f.rows.length < s.chip.fld (R.srcGeom f.slot) 31 16 →
    Answers (.captureLineReceive t q px fill) s (fun c => c.capPort q = { s.chip.capPort q with frame := some { f with rows := f.rows ++
        [if s.chip.bit (R.capPort q) 23 = true then px else px.map (fun v => (expand8 v.1, expand8 v.2.1, expand8 v.2.2))] } } ∧
      (∀ p, p < 4 → p ≠ q → c.capPort p = s.chip.capPort p))) ∧
  (∀ (s : State) (t : Stamp) (q fill : Nat) (px : List (Nat × Nat × Nat)), q < 4 → ((s.chip.capPort q).frame.any (fun f =>
      !f.differs && decide (f.rows.length < s.chip.fld (R.srcGeom f.slot) 31 16))) = false →
    Answers (.captureLineReceive t q px fill) s (fun c => c.caps = s.chip.caps)) ∧
  (∀ (s : State) (t : Stamp) (q fill : Nat) (px : List (Nat × Nat × Nat)), q < 4 →
    Answers (.captureLineReceive t q px fill) s (fun c =>
      c.mem.panics (.cap q) = (if s.chip.fld R.dmcPanic 30 24 < fill then true else if fill + 16 ≤ s.chip.fld R.dmcPanic 30 24 then
        false else s.chip.mem.panics (.cap q)) ∧
      (s.chip.fld R.dmcPanic 30 24 < fill → c.bit R.dmcGstat 31 = true))) ∧
  (∀ (s : State) (t : Stamp) (q : Nat) (f : CapFrame), q < 4 → (s.chip.capPort q).frame = some f →
    Answers (.captureFrameEnd t q) s (fun c => (c.capPort q).frame = none ∧
      (∀ p, p < 4 → p ≠ q → c.capPort p = s.chip.capPort p) ∧
      c.reg (R.capCnt q 0) = (s.chip.bump (R.capCnt q 0)).reg (R.capCnt q 0) ∧
      c.reg (R.capCnt q 1) = (if f.differs = true ∨ f.rows.length < s.chip.fld (R.srcGeom f.slot) 31 16 then
        (s.chip.bump (R.capCnt q 1)).reg (R.capCnt q 1) else s.chip.reg (R.capCnt q 1)))) ∧
  (∀ (s : State) (t : Stamp) (q i : Nat) (f : CapFrame), q < 4 → (s.chip.capPort q).frame = some f →
    f.buf = some i → f.slot < 256 → i < 32 → (s.chip.frameRec f.slot i).code = 1 →
    s.chip.isBeyond (s.chip.bufPic f.slot i).base (frameBytes (s.chip.bufPic f.slot i).fmt (s.chip.bufPic f.slot i).w
      (s.chip.bufPic f.slot i).h) = false →
    Answers (.captureFrameEnd t q) s (fun c =>
      (c.frameRec f.slot i).code = (if f.differs = true ∨ f.rows.length < s.chip.fld (R.srcGeom f.slot) 31 16 then 6 else 2) ∧
      (c.frameRec f.slot i).derived = true ∧ (c.frameRec f.slot i).cap = stampSub f.arrival (s.chip.slotLatency f.slot))) ∧
  (∀ (s : State) (t : Stamp) (q : Nat), q < 4 → (s.chip.capPort q).frame = none → Gives (.captureFrameEnd t q) s (s.chip.at t)) ∧
  (∀ (s : State) (t : Stamp) (q rate lanes : Nat) (tr v : Bool), q < 4 → rate < 5 → lanes < 3 → s.chip.bit (R.capPort q) 31 = true →
    Answers (.captureLinkChange t q tr rate lanes v) s (fun c => c.bit (R.capStat q) 30 = tr ∧ c.fld (R.capStat q) 29 27 = rate ∧
      c.fld (R.capStat q) 26 25 = lanes ∧ c.bit (R.capStat q) 24 = (tr && v) ∧
      (c.capPort q).frame = (if tr = true ∧ v = true then (s.chip.capPort q).frame else none) ∧
      c.fld (R.capStat q) 23 16 = min 255 (s.chip.fld (R.capStat q) 23 16 +
        if s.chip.bit (R.capStat q) 30 = true ∧ tr = false then 1 else 0) ∧
      c.reg (R.capCnt q 3) = (if s.chip.bit (R.capStat q) 30 = true ∧ tr = false then (s.chip.bump (R.capCnt q 3)).reg (R.capCnt q 3)
        else s.chip.reg (R.capCnt q 3)) ∧
      (s.chip.bit (R.capStat q) 30 ≠ tr → c.tx.getLast? = some (.irqHpd q)))) ∧
  (∀ (s : State) (t : Stamp) (q rate lanes : Nat) (tr v : Bool), q < 4 → rate < 5 → lanes < 3 → s.chip.bit (R.capPort q) 31 = true →
    ((s.chip.capPort q).frame = none ∨ (tr = true ∧ v = true)) →
    Answers (.captureLinkChange t q tr rate lanes v) s (fun c =>
      s.chip.writesOnly c ([R.capStat q, R.capCnt q 3] ++ eventRegs) ∧
      s.chip.raises c (if s.chip.bit (R.capStat q) 30 = tr then [] else [⟨0x5801, .room, t, [.val 1 q, .val 1 rate, .val 1 lanes]⟩]))) ∧
  (∀ (s : State) (t : Stamp) (q rate lanes : Nat) (a v : Bool), q < 4 → rate < 5 → lanes < 3 → s.chip.bit (R.capPort q) 31 = false →
    Gives (.captureLinkChange t q a rate lanes v) s (s.chip.at t)) ∧
  (∀ (s : State) (t : Stamp) (q : Nat), q < 4 → s.chip.bit (R.capStat q) 31 = true →
    Gives (.captureAuxRequest t q .capabilities) s ((s.chip.at t).send
      (.aux q [BitVec.ofNat 8 (s.chip.fld (R.capPort q) 30 28), BitVec.ofNat 8 (s.chip.fld (R.capPort q) 27 26)]))) ∧
  (∀ (s : State) (t : Stamp) (q ofs n : Nat), q < 4 → s.chip.bit (R.capStat q) 31 = true →
    Gives (.captureAuxRequest t q (.edid ofs n)) s ((s.chip.at t).send
      (.aux q ((List.range n).map (fun i =>
        BitVec.ofNat 8 ((s.chip.reg (R.capEdid q ((ofs + i) % 256 / 4))).toNat / 2 ^ ((ofs + i) % 4 * 8))))))) ∧
  (∀ (s : State) (t : Stamp) (q : Nat) (l : List Byte), q < 4 → s.chip.bit (R.capStat q) 31 = true →
    Gives (.captureAuxRequest t q (.other l)) s ((s.chip.at t).send (.aux q l))) ∧
  (∀ (s : State) (t : Stamp) (q : Nat) (r : AuxRequest), q < 4 → s.chip.bit (R.capStat q) 31 = false →
    Gives (.captureAuxRequest t q r) s (s.chip.at t))

/-- R231, R233, R235, R236, R355: with the engine enabled the frame at the head of the queue leaves it; one of bad format is
counted in FORMAT, one whose check fails in CHECK, one of a foreign flow in FOREIGN, and none of them changes a feeder or a
record. A good frame of an unpaired part puts a feeder without SYNC in SYNC with LAST at its counter; of a feeder in SYNC a
newer counter is accepted and becomes LAST, a missed one in the window is accepted as LATE, a repeat is counted by its path,
an old one is counted. An accepted frame's entry is written as its point's record. On a pair the frame is sent to the twin
and waits for P, unless it has been applied. With the engine off, or nothing queued, nothing happens. -/
def Obligations.PointFrameIsCheckedThenJudged : Prop :=
  (∀ (s : State) (t : Stamp) (bad : List Nat) (q : PointFrame) (rest : List PointFrame), s.chip.pnt.queue = q :: rest →
    s.chip.bit R.pntCtl 31 = true → Answers (.pointFrameProcess t bad) s (fun c => c.pnt.queue = rest)) ∧
  (∀ (s : State) (t : Stamp) (bad : List Nat) (q : PointFrame) (rest : List PointFrame), s.chip.pnt.queue = q :: rest →
    s.chip.bit R.pntCtl 31 = true → pointFormatOk q.bytes = false →
    Answers (.pointFrameProcess t bad) s (fun c => c.pnt = { s.chip.pnt with queue := rest } ∧
      c.reg (R.pntCnt 1) = (s.chip.bump (R.pntCnt 1)).reg (R.pntCnt 1) ∧ s.chip.writesOnly c (R.pntCnt 1 :: eventRegs))) ∧
  (∀ (s : State) (t : Stamp) (bad : List Nat) (q : PointFrame) (rest : List PointFrame), s.chip.pnt.queue = q :: rest →
    s.chip.bit R.pntCtl 31 = true → pointFormatOk q.bytes = true → ((s.chip.at t).chkRun 0 q.bytes).2.ok = false →
    Answers (.pointFrameProcess t bad) s (fun c => c.pnt = { s.chip.pnt with queue := rest } ∧
      c.reg (R.pntCnt 2) = (s.chip.bump (R.pntCnt 2)).reg (R.pntCnt 2) ∧ c.dram = s.chip.dram)) ∧
  (∀ (s : State) (t : Stamp) (bad : List Nat) (q : PointFrame) (rest : List PointFrame), s.chip.pnt.queue = q :: rest →
    s.chip.bit R.pntCtl 31 = true → pointFormatOk q.bytes = true → ((s.chip.at t).chkRun 0 q.bytes).2.ok = true →
    s.chip.feederPath (leAt q.bytes 4 1) q.flow = none →
    Answers (.pointFrameProcess t bad) s (fun c => c.pnt = { s.chip.pnt with queue := rest } ∧
      c.reg (R.pntCnt 3) = (s.chip.bump (R.pntCnt 3)).reg (R.pntCnt 3) ∧ c.dram = s.chip.dram)) ∧
  (∀ (s : State) (t : Stamp) (bad : List Nat) (q : PointFrame) (rest : List PointFrame) (path : Nat), s.chip.pnt.queue = q :: rest →
    s.chip.bit R.pntCtl 31 = true → pointFormatOk q.bytes = true → ((s.chip.at t).chkRun 0 q.bytes).2.ok = true →
    s.chip.feederPath (leAt q.bytes 4 1) q.flow = some path → s.chip.paired = false →
    s.chip.feederSync (leAt q.bytes 4 1) = false →
    Answers (.pointFrameProcess t bad) s (fun c => c.pnt.queue = rest ∧ c.feederSync (leAt q.bytes 4 1) = true ∧
      c.fld (R.pntFeedStat (leAt q.bytes 4 1)) 15 0 = leAt q.bytes 6 2 ∧
      (c.feeder (leAt q.bytes 4 1)).syncStamp = q.arrival ∧
      c.wide (R.pntFeedLastaLo (leAt q.bytes 4 1)) (R.pntFeedLastaHi (leAt q.bytes 4 1)) = shortStamp q.arrival ∧
      c.reg (R.pntFcnt (leAt q.bytes 4 1) 0) = (s.chip.bump (R.pntFcnt (leAt q.bytes 4 1) 0)).reg (R.pntFcnt (leAt q.bytes 4 1) 0) ∧
      (∀ g, g < 256 → g ≠ leAt q.bytes 4 1 → c.feeder g = s.chip.feeder g))) ∧
  (∀ (s : State) (t : Stamp) (bad : List Nat) (q : PointFrame) (rest : List PointFrame) (path f : Nat) (v : AliveVerdict),
    s.chip.pnt.queue = q :: rest → s.chip.bit R.pntCtl 31 = true → pointFormatOk q.bytes = true →
    ((s.chip.at t).chkRun 0 q.bytes).2.ok = true → f = leAt q.bytes 4 1 → s.chip.feederPath f q.flow = some path →
    s.chip.paired = false → s.chip.feederSync f = true →
    v = aliveVerdict true (s.chip.fld (R.pntFeedStat f) 15 0) (leAt q.bytes 6 2) path (s.chip.feeder f) →
    Answers (.pointFrameProcess t bad) s (fun c => c.pnt.queue = rest ∧ c.feederSync f = true ∧
      c.fld (R.pntFeedStat f) 15 0 = (if v = .new then leAt q.bytes 6 2 else s.chip.fld (R.pntFeedStat f) 15 0) ∧
      (c.feeder f).syncStamp = (s.chip.feeder f).syncStamp ∧ (∀ g, g < 256 → g ≠ f → c.feeder g = s.chip.feeder g) ∧
      (v = .new ∨ v = .late → c.reg (R.pntFcnt f 0) = (s.chip.bump (R.pntFcnt f 0)).reg (R.pntFcnt f 0)) ∧
      (v = .late → c.reg (R.pntCnt 8) = (s.chip.bump (R.pntCnt 8)).reg (R.pntCnt 8)) ∧
      (v = .rep → c.reg (R.pntFcnt f 2) = (s.chip.bump (R.pntFcnt f 2)).reg (R.pntFcnt f 2)) ∧
      (v = .dup → c.reg (R.pntFcnt f 3) = (s.chip.bump (R.pntFcnt f 3)).reg (R.pntFcnt f 3)) ∧
      (v = .old → c.reg (R.pntCnt 6) = (s.chip.bump (R.pntCnt 6)).reg (R.pntCnt 6)) ∧
      (v = .rep ∨ v = .dup ∨ v = .old → c.dram = s.chip.dram))) ∧
  (∀ (s : State) (t : Stamp) (q : PointFrame) (rest : List PointFrame) (path f i : Nat), s.chip.pnt.queue = q :: rest →
    s.chip.bit R.pntCtl 31 = true → pointFormatOk q.bytes = true → ((s.chip.at t).chkRun 0 q.bytes).2.ok = true →
    f = leAt q.bytes 4 1 → s.chip.feederPath f q.flow = some path → s.chip.paired = false → leAt q.bytes 8 2 = 1 →
    (s.chip.feederSync f = false ∨
      aliveVerdict true (s.chip.fld (R.pntFeedStat f) 15 0) (leAt q.bytes 6 2) path (s.chip.feeder f) = .new) →
    i = (pointEntry q.bytes 0).index → s.chip.inDram (s.chip.pntTab + 32 * i) 32 = true →
    s.chip.entryCause f (leAt q.bytes 6 2) q.arrival false false (pointEntry q.bytes 0) = 0 →
    (s.chip.base40 R.pntJrnLo R.pntJrnHi + 32 * (s.chip.wide R.pntJcountLo R.pntJcountHi % 2 ^ s.chip.fld R.pntJrnSize 4 0) + 32 ≤
        s.chip.pntTab + 32 * i ∨ s.chip.pntTab + 32 * i + 32 ≤
      s.chip.base40 R.pntJrnLo R.pntJrnHi + 32 * (s.chip.wide R.pntJcountLo R.pntJcountHi % 2 ^ s.chip.fld R.pntJrnSize 4 0)) →
    Answers (.pointFrameProcess t []) s (fun c => c.pointRec i =
        s.chip.appliedRec f (leAt q.bytes 6 2) (leAt q.bytes 3 1 % 4) q.arrival false (pointEntry q.bytes 0) (s.chip.pointRec i) ∧
      c.reg R.pntApplied = BitVec.ofNat 32 ((s.chip.reg R.pntApplied).toNat + 1))) ∧
  (∀ (s : State) (t : Stamp) (bad : List Nat) (q : PointFrame) (rest : List PointFrame) (path f : Nat), s.chip.pnt.queue = q :: rest →
    s.chip.bit R.pntCtl 31 = true → pointFormatOk q.bytes = true → ((s.chip.at t).chkRun 0 q.bytes).2.ok = true →
    f = leAt q.bytes 4 1 → s.chip.feederPath f q.flow = some path → s.chip.paired = true →
    Answers (.pointFrameProcess t bad) s (fun c => c.pnt.queue = rest ∧ c.pnt.feeders = s.chip.pnt.feeders ∧ c.dram = s.chip.dram ∧
      c.reg (R.twnCnt 6) = (s.chip.bump (R.twnCnt 6)).reg (R.twnCnt 6) ∧
      (mirrorMatch s.chip.pnt.applied (mirrorOf true path q.arrival q.bytes) = none →
        c.pnt.mirror = mirrorAdd s.chip.pnt.mirror (mirrorOf true path q.arrival q.bytes) ∧ c.pnt.applied = s.chip.pnt.applied) ∧
      (mirrorMatch s.chip.pnt.applied (mirrorOf true path q.arrival q.bytes) ≠ none → c.pnt.mirror = s.chip.pnt.mirror))) ∧
  (∀ (s : State) (t : Stamp) (bad : List Nat), (s.chip.bit R.pntCtl 31 = false ∨ s.chip.pnt.queue = []) →
    Gives (.pointFrameProcess t bad) s (s.chip.at t))

/-- R233, R355: a feeder in SYNC with no accepted frame for RESYNC ms loses SYNC, which raises 0x6005; another stays as it is.
The twin's copy of a point frame is counted: before its P it waits, with the own copy where that has come; after its P it is
applied at once, unless the frame has been. At P the first frame in the order of application leaves those that wait and is
kept as applied; before P nothing is applied. A part without its twin takes no copy. R116, R241, R242, R253: a sweep starts
at a multiple of PERIOD ms while the engine is enabled and none runs, after the pegs of its boundary; its end publishes its
start stamp and the number of points it set SILENT, and a sweep that ran past the next start is counted as an overrun, and
the next starts at once where the engine is still enabled. At another time none starts, and with none running none ends. -/
def Obligations.FeedersMirrorsAndSweepsRun : Prop :=
  (∀ (s : State) (t : Stamp) (f : Nat), f < 256 → s.chip.feederSync f = true →
    elapsed t (s.chip.wide (R.pntFeedLastaLo f) (R.pntFeedLastaHi f)) (s.chip.fld (R.pntFeedResync f) 15 0 * nsPerMs) = true →
    Answers (.feederResyncTimeout t f) s (fun c => c.feederSync f = false ∧
      c.fld (R.pntFeedStat f) 15 0 = s.chip.fld (R.pntFeedStat f) 15 0 ∧ c.pnt = s.chip.pnt ∧
      s.chip.writesOnly c ([R.pntFeedStat f] ++ eventRegs) ∧
      s.chip.raises c [⟨0x6005, .room, t, [.val 1 f, .val 1 0, .val 2 (s.chip.fld (R.pntFeedStat f) 15 0)]⟩])) ∧
  (∀ (s : State) (t : Stamp) (f : Nat), f < 256 → (s.chip.feederSync f = false ∨
      elapsed t (s.chip.wide (R.pntFeedLastaLo f) (R.pntFeedLastaHi f)) (s.chip.fld (R.pntFeedResync f) 15 0 * nsPerMs) = false) →
    Gives (.feederResyncTimeout t f) s (s.chip.at t)) ∧
  (∀ (s : State) (t : Stamp) (l : List Byte) (bad : List Nat) (m : MirrorFrame), 44 ≤ l.length → s.chip.twinOn = true →
    m = mirrorOf false (leAt l 1 1 % 2) (leAt l 8 8) ((l.drop 16).take (leAt l 2 2)) → mirrorMatch s.chip.pnt.applied m = none →
    stampGap t ((match mirrorMatch s.chip.pnt.mirror m with | some x => (x.merge m).arrival | none => m.arrival) +
      s.chip.twinMargin) ≤ 0 →
    Answers (.mirrorReceive t l bad) s (fun c => c.pnt = { s.chip.pnt with mirror := mirrorAdd s.chip.pnt.mirror m } ∧
      c.reg (R.twnCnt 7) = (s.chip.bump (R.twnCnt 7)).reg (R.twnCnt 7) ∧ s.chip.writesOnly c [R.twnCnt 7] ∧ s.chip.raises c [])) ∧
  (∀ (s : State) (t : Stamp) (l : List Byte) (bad : List Nat) (m : MirrorFrame), 44 ≤ l.length → s.chip.twinOn = true →
    m = mirrorOf false (leAt l 1 1 % 2) (leAt l 8 8) ((l.drop 16).take (leAt l 2 2)) → mirrorMatch s.chip.pnt.applied m = none →
    0 < stampGap t ((match mirrorMatch s.chip.pnt.mirror m with | some x => (x.merge m).arrival | none => m.arrival) +
      s.chip.twinMargin) →
    Answers (.mirrorReceive t l bad) s (fun c =>
      c.pnt.mirror = (match mirrorMatch s.chip.pnt.mirror m with
        | some x => s.chip.pnt.mirror.filter (fun z => z != x)
        | none => s.chip.pnt.mirror) ∧
      c.pnt.applied = ({ (match mirrorMatch s.chip.pnt.mirror m with | some x => x.merge m | none => m) with bytes := [] } ::
        s.chip.pnt.applied).take 4096 ∧ c.pnt.queue = s.chip.pnt.queue ∧
      c.reg (R.twnCnt 7) = (s.chip.bump (R.twnCnt 7)).reg (R.twnCnt 7))) ∧
  (∀ (s : State) (t : Stamp) (l : List Byte) (bad : List Nat) (m x : MirrorFrame), 44 ≤ l.length → s.chip.twinOn = true →
    m = mirrorOf false (leAt l 1 1 % 2) (leAt l 8 8) ((l.drop 16).take (leAt l 2 2)) → mirrorMatch s.chip.pnt.applied m = some x →
    Answers (.mirrorReceive t l bad) s (fun c =>
      c.pnt = { s.chip.pnt with applied := swapFrame s.chip.pnt.applied x { x with twin := true } } ∧
      c.reg (R.twnCnt 7) = (s.chip.bump (R.twnCnt 7)).reg (R.twnCnt 7) ∧ s.chip.writesOnly c ([R.twnCnt 7] ++ eventRegs))) ∧
  (∀ (s : State) (t : Stamp) (l : List Byte) (bad : List Nat), 44 ≤ l.length → s.chip.twinOn = false →
    Gives (.mirrorReceive t l bad) s (s.chip.at t)) ∧
  (∀ (s : State) (t : Stamp) (bad : List Nat) (m : MirrorFrame) (rest : List MirrorFrame),
    mirrorFirst s.chip.pnt.mirror = some (m, rest) → 0 ≤ stampGap t (m.arrival + s.chip.twinMargin) →
    Answers (.mirrorApply t bad) s (fun c => c.pnt.mirror = rest ∧
      c.pnt.applied = ({ m with bytes := [] } :: s.chip.pnt.applied).take 4096 ∧ c.pnt.queue = s.chip.pnt.queue ∧
      (∀ g, g < 256 → g ≠ m.feeder → c.feeder g = s.chip.feeder g))) ∧
  (∀ (s : State) (t : Stamp) (bad : List Nat), (mirrorFirst s.chip.pnt.mirror).all (fun x =>
      decide (stampGap t (x.1.arrival + s.chip.twinMargin) < 0)) = true → Gives (.mirrorApply t bad) s (s.chip.at t)) ∧
  (∀ (s : State) (t : Stamp), s.chip.bit R.pntCtl 31 = true → s.chip.pnt.sweep = none →
    t % (s.chip.fld R.pntSweep 15 0 * nsPerMs) = 0 →
    Answers (.sweepStart t) s (fun c => c.pnt.sweep.map (fun w => w.start) = some t)) ∧
  (∀ (s : State) (t : Stamp), s.chip.bit R.pntCtl 31 = true → s.chip.pnt.sweep = none →
    t % (s.chip.fld R.pntSweep 15 0 * nsPerMs) = 0 → s.chip.duePegs (fun _ => true) 84 0 t = [] →
    Answers (.sweepStart t) s (fun c => c.pnt.sweep.map (fun w => w.start) = some t ∧ c.pnt.queue = s.chip.pnt.queue ∧
      c.pnt.feeders = s.chip.pnt.feeders ∧ s.chip.raises c [] ∧ s.chip.regsOnly c [R.pntJcountLo, R.pntJcountHi] ∧
      (s.chip.fld R.pntCtl 23 0 = 0 → c.pnt.sweep = some { start := t, silent := 0 } ∧ s.chip.writesOnly c []))) ∧
  (∀ (s : State) (t : Stamp), (s.chip.bit R.pntCtl 31 = false ∨ s.chip.pnt.sweep.isSome = true ∨
      t % (s.chip.fld R.pntSweep 15 0 * nsPerMs) ≠ 0) → Gives (.sweepStart t) s (s.chip.at t)) ∧
  (∀ (s : State) (t : Stamp) (w : Sweep), s.chip.pnt.sweep = some w → t < s.chip.nextSweep w.start →
    Answers (.sweepEnd t) s (fun c => c.pnt = { s.chip.pnt with sweep := none } ∧
      c.wide R.pntSwresStLo R.pntSwresStHi = shortStamp w.start % 2 ^ 64 ∧
      c.fld R.pntSwresSilent 23 0 = w.silent % 2 ^ 24 ∧ c.bit R.pntSwres 31 = true ∧
      c.fld R.pntSwres 15 0 = (s.chip.fld R.pntSwres 15 0 + 1) % 65536 ∧
      s.chip.writesOnly c [R.pntSwresStLo, R.pntSwresStHi, R.pntSwresSilent, R.pntSwres] ∧ s.chip.raises c [])) ∧
  (∀ (s : State) (t : Stamp) (w : Sweep), s.chip.pnt.sweep = some w → s.chip.nextSweep w.start ≤ t →
    s.chip.bit R.pntCtl 31 = false →
    Answers (.sweepEnd t) s (fun c => c.pnt.sweep = none ∧
      c.reg (R.pntCnt 14) = (s.chip.bump (R.pntCnt 14)).reg (R.pntCnt 14) ∧ c.bit R.pntSwres 31 = true ∧
      s.chip.writesOnly c ([R.pntSwresStLo, R.pntSwresStHi, R.pntSwresSilent, R.pntSwres, R.pntCnt 14] ++ eventRegs))) ∧
  (∀ (s : State) (t : Stamp) (w : Sweep), s.chip.pnt.sweep = some w → s.chip.nextSweep w.start ≤ t →
    s.chip.bit R.pntCtl 31 = true →
    Answers (.sweepEnd t) s (fun c => c.pnt.sweep.map (fun w => w.start) = some t ∧
      c.reg (R.pntCnt 14) = (s.chip.bump (R.pntCnt 14)).reg (R.pntCnt 14))) ∧
  (∀ (s : State) (t : Stamp), s.chip.pnt.sweep = none → Gives (.sweepEnd t) s (s.chip.at t))

/-- R244, R245, R254: on units 5 to 15 START opens a message under the configuration that stands, with the counter advanced in
append mode; a feed appends 1, 2 or 4 bytes, low byte first; FINISH closes it, counts it and publishes the result: in append
mode the check value over counter and payload, in check mode OK, REPEAT and GAP of the message fed, with the last accepted
counter; RESET_ALIVE clears the counter of a unit with no open message; a write of `CHK_CFG` sets its fields as their types
take it. Other units and all other registers stay. R17, R245, R254: on any of the 16 units START is refused while the unit is
not enabled and while a message is open, FINISH and a feed while none is open, FINISH in check mode on fewer bytes than
counter and check value, and RESET_ALIVE while a message is open, each with the cause of its place in R254's table. No check
unit changes. -/
def Obligations.CheckUnitRunsItsMessageInTurn : Prop :=
  (∀ (s : State) (t : Stamp) (src : Source) (u : Nat), 5 ≤ u → u < 16 → s.chip.bit (R.chkCfg u) 31 = true →
    (s.chip.chkUnit u).isOpen = false →
    Answers (.start t src u) s (fun c =>
      (c.chkUnit u).isOpen = true ∧ (c.chkUnit u).fed = [] ∧ (c.chkUnit u).lastGood = (s.chip.chkUnit u).lastGood ∧
      (c.chkUnit u).append = !(s.chip.bit (R.chkCfg u) 30) ∧ (c.chkUnit u).poly = s.chip.fld (R.chkCfg u) 2 0 ∧
      (c.chkUnit u).alive = s.chip.fld (R.chkCfg u) 29 28 ∧
      (c.chkUnit u).counter = (if s.chip.bit (R.chkCfg u) 30 = false ∧ s.chip.fld (R.chkCfg u) 29 28 ≠ 0
        then ((s.chip.chkUnit u).counter + 1) % 2 ^ (8 * aliveBytes (s.chip.fld (R.chkCfg u) 29 28))
        else (s.chip.chkUnit u).counter) ∧
      c.bit (R.chkRes u) 31 = false ∧ c.bit (R.chkRes u) 27 = true ∧ c.fld (R.chkRes u) 15 0 = s.chip.fld (R.chkRes u) 15 0 ∧
      (∀ v, v < 16 → v ≠ u → c.chkUnit v = s.chip.chkUnit v) ∧ s.chip.writesOnly c [R.chkRes u] ∧ s.chip.raises c [])) ∧
  (∀ (s : State) (t : Stamp) (src : Source) (u : Nat) (w : Word), 5 ≤ u → u < 16 → (s.chip.chkUnit u).isOpen = true →
    Answers (.feedByte t src u w) s (fun c => c.chkUnit u = { s.chip.chkUnit u with
        fed := (s.chip.chkUnit u).fed ++ leBytes 1 w.toNat } ∧
      (∀ v, v < 16 → v ≠ u → c.chkUnit v = s.chip.chkUnit v) ∧ s.chip.writesOnly c [] ∧ s.chip.raises c [])) ∧
  (∀ (s : State) (t : Stamp) (src : Source) (u : Nat) (w : Word), 5 ≤ u → u < 16 → (s.chip.chkUnit u).isOpen = true →
    Answers (.feedHalfWord t src u w) s (fun c => c.chkUnit u = { s.chip.chkUnit u with
        fed := (s.chip.chkUnit u).fed ++ leBytes 2 w.toNat } ∧
      (∀ v, v < 16 → v ≠ u → c.chkUnit v = s.chip.chkUnit v) ∧ s.chip.writesOnly c [] ∧ s.chip.raises c [])) ∧
  (∀ (s : State) (t : Stamp) (src : Source) (u : Nat) (w : Word), 5 ≤ u → u < 16 → (s.chip.chkUnit u).isOpen = true →
    Answers (.feedWord t src u w) s (fun c => c.chkUnit u = { s.chip.chkUnit u with
        fed := (s.chip.chkUnit u).fed ++ leBytes 4 w.toNat } ∧
      (∀ v, v < 16 → v ≠ u → c.chkUnit v = s.chip.chkUnit v) ∧ s.chip.writesOnly c [] ∧ s.chip.raises c [])) ∧
  (∀ (s : State) (t : Stamp) (src : Source) (u : Nat), 5 ≤ u → u < 16 → (s.chip.chkUnit u).isOpen = true →
    ((s.chip.chkUnit u).append = true ∨
      aliveBytes (s.chip.chkUnit u).alive + (crcPoly (s.chip.chkUnit u).poly).width / 8 ≤ (s.chip.chkUnit u).fed.length) →
    Answers (.finish t src u) s (fun c =>
      (c.chkUnit u).isOpen = false ∧ (c.chkUnit u).counter = (s.chip.chkUnit u).counter ∧
      c.bit (R.chkRes u) 31 = true ∧ c.bit (R.chkRes u) 27 = false ∧
      c.fld (R.chkRes u) 15 0 = (s.chip.fld (R.chkRes u) 15 0 + 1) % 65536 ∧
      c.reg (R.chkCnt u 0) = (s.chip.bump (R.chkCnt u 0)).reg (R.chkCnt u 0) ∧
      (∀ v, v < 16 → v ≠ u → c.chkUnit v = s.chip.chkUnit v) ∧
      s.chip.writesOnly c [R.chkRes u, R.chkResAlive u, R.chkResLength u, R.chkResCheckLo u, R.chkResCheckHi u, R.chkCnt u 0,
        R.chkCnt u 1, R.chkCnt u 2] ∧ s.chip.raises c [])) ∧
  (∀ (s : State) (t : Stamp) (src : Source) (u : Nat), 5 ≤ u → u < 16 → (s.chip.chkUnit u).isOpen = true →
    (s.chip.chkUnit u).append = true →
    Answers (.finish t src u) s (fun c =>
      c.bit (R.chkRes u) 30 = true ∧ c.bit (R.chkRes u) 29 = false ∧ c.bit (R.chkRes u) 28 = false ∧
      (c.chkUnit u).lastGood = (s.chip.chkUnit u).lastGood ∧
      c.fld (R.chkResAlive u) 15 0 = (s.chip.chkUnit u).counter % 65536 ∧
      c.reg (R.chkResLength u) = BitVec.ofNat 32 (s.chip.chkUnit u).fed.length ∧
      c.wide (R.chkResCheckLo u) (R.chkResCheckHi u) = crcOf (crcPoly (s.chip.chkUnit u).poly)
        (leBytes (aliveBytes (s.chip.chkUnit u).alive) (s.chip.chkUnit u).counter ++ (s.chip.chkUnit u).fed) % 2 ^ 64 ∧
      s.chip.writesOnly c [R.chkRes u, R.chkResAlive u, R.chkResLength u, R.chkResCheckLo u, R.chkResCheckHi u, R.chkCnt u 0])) ∧
  (∀ (s : State) (t : Stamp) (src : Source) (u m n : Nat) (body : List Byte), 5 ≤ u → u < 16 → (s.chip.chkUnit u).isOpen = true →
    (s.chip.chkUnit u).append = false → m = (crcPoly (s.chip.chkUnit u).poly).width / 8 →
    n = aliveBytes (s.chip.chkUnit u).alive → n + m ≤ (s.chip.chkUnit u).fed.length →
    body = (s.chip.chkUnit u).fed.take ((s.chip.chkUnit u).fed.length - m) →
    Answers (.finish t src u) s (fun c =>
      (c.bit (R.chkRes u) 30 = true ↔ (s.chip.chkUnit u).fed.drop body.length =
        crcBytes (s.chip.chkUnit u).poly (crcOf (crcPoly (s.chip.chkUnit u).poly) body)) ∧
      c.fld (R.chkResAlive u) 15 0 = leNat (body.take n) ∧
      c.reg (R.chkResLength u) = BitVec.ofNat 32 (body.length - n) ∧
      c.wide (R.chkResCheckLo u) (R.chkResCheckHi u) = crcOf (crcPoly (s.chip.chkUnit u).poly) body % 2 ^ 64 ∧
      (c.bit (R.chkRes u) 29 = true ↔ n ≠ 0 ∧ (s.chip.chkUnit u).lastGood = some (leNat (body.take n))) ∧
      (c.bit (R.chkRes u) 28 = true ↔ n ≠ 0 ∧ (s.chip.chkUnit u).lastGood.any (fun l =>
        leNat (body.take n) != l && leNat (body.take n) != (l + 1) % 2 ^ (8 * n)) = true) ∧
      (c.chkUnit u).lastGood = some (if c.bit (R.chkRes u) 30 = true ∧ c.bit (R.chkRes u) 29 = false then leNat (body.take n)
        else (s.chip.chkUnit u).lastGood.getD 0) ∧
      c.reg (R.chkCnt u 1) = (if c.bit (R.chkRes u) 30 = true then s.chip else s.chip.bump (R.chkCnt u 1)).reg (R.chkCnt u 1) ∧
      c.reg (R.chkCnt u 2) = (if c.bit (R.chkRes u) 29 = true then s.chip.bump (R.chkCnt u 2) else s.chip).reg (R.chkCnt u 2))) ∧
  (∀ (s : State) (t : Stamp) (src : Source) (u : Nat), 5 ≤ u → u < 16 → (s.chip.chkUnit u).isOpen = false →
    Answers (.resetAlive t src u) s (fun c =>
      c.chkUnit u = { s.chip.chkUnit u with counter := 0, lastGood := none } ∧
      (∀ v, v < 16 → v ≠ u → c.chkUnit v = s.chip.chkUnit v) ∧ s.chip.writesOnly c [] ∧ s.chip.raises c [])) ∧
  (∀ (s : State) (t : Stamp) (src : Source) (u : Nat) (w : Word), 5 ≤ u → u < 16 →
    Answers (.chkCfgWrite t src u w) s (fun c => c.chk = s.chip.chk ∧
      (descAt (R.chkCfg u)).map (fun d => d.1.after s.chip.isSealed (s.chip.dynBound (R.chkCfg u)) (s.chip.reg (R.chkCfg u)) w) =
        some (c.reg (R.chkCfg u)) ∧ s.chip.writesOnly c (R.chkCfg u :: dropRegs))) ∧
  (∀ (s : State) (t : Stamp) (src : Source) (u : Nat), u < 16 → s.chip.bit (R.chkCfg u) 31 = false →
    Answers (.start t src u) s (fun c => c.chk = s.chip.chk ∧ s.chip.refused c t src (R.chkCmd u) (cmdWord 1) 1)) ∧
  (∀ (s : State) (t : Stamp) (src : Source) (u : Nat), u < 16 → s.chip.bit (R.chkCfg u) 31 = true →
    (s.chip.chkUnit u).isOpen = true →
    Answers (.start t src u) s (fun c => c.chk = s.chip.chk ∧ s.chip.refused c t src (R.chkCmd u) (cmdWord 1) 2)) ∧
  (∀ (s : State) (t : Stamp) (src : Source) (u : Nat) (w : Word), u < 16 → (s.chip.chkUnit u).isOpen = false →
    Answers (.feedByte t src u w) s (fun c => c.chk = s.chip.chk ∧ s.chip.refused c t src (R.chkFeedB u) w 1) ∧
    Answers (.feedHalfWord t src u w) s (fun c => c.chk = s.chip.chk ∧ s.chip.refused c t src (R.chkFeedH u) w 1) ∧
    Answers (.feedWord t src u w) s (fun c => c.chk = s.chip.chk ∧ s.chip.refused c t src (R.chkFeedW u) w 1) ∧
    Answers (.finish t src u) s (fun c => c.chk = s.chip.chk ∧ s.chip.refused c t src (R.chkCmd u) (cmdWord 2) 1)) ∧
  (∀ (s : State) (t : Stamp) (src : Source) (u : Nat), u < 16 → (s.chip.chkUnit u).isOpen = true →
    (s.chip.chkUnit u).append = false →
    (s.chip.chkUnit u).fed.length < aliveBytes (s.chip.chkUnit u).alive + (crcPoly (s.chip.chkUnit u).poly).width / 8 →
    Answers (.finish t src u) s (fun c => c.chk = s.chip.chk ∧ s.chip.refused c t src (R.chkCmd u) (cmdWord 2) 2)) ∧
  (∀ (s : State) (t : Stamp) (src : Source) (u : Nat), u < 16 → (s.chip.chkUnit u).isOpen = true →
    Answers (.resetAlive t src u) s (fun c => c.chk = s.chip.chk ∧ s.chip.refused c t src (R.chkCmd u) (cmdWord 3) 1))

/-- R269, R274: COMMIT_REQUEST on an enabled head makes a commit pending and COMMIT_CANCEL withdraws it; each changes that bit of
`CMP_STAT` and the head's record of the request alone. A request on a disabled head (cause 1) or one with a commit pending
(cause 2) and a cancel with none pending (cause 1) are refused and change no state of the head. R290, R293, R307: a write of
`HED_CTL` sets EN as bit 31 of the word. EN written 1 while the head is stopped makes it STARTING, towards the first instant
of its grid at least 2 ms away, and its stream is carried where it fits; EN written 0 while it is STARTING stops it at once.
In every other state the head's run state stays, as a running head reads EN at its frame starts. -/
def Obligations.CommitsAndHeadEnablesAreTaken : Prop :=
  (∀ (s : State) (t : Stamp) (src : Source) (h : Nat), h < 32 → s.chip.bit (R.hedCtl h) 31 = true → s.chip.bit (R.cmpStat h) 31 = false →
    Answers (.commitRequest t src h) s (fun c => c.bit (R.cmpStat h) 31 = true ∧ c.head h = { s.chip.head h with reqAt := t } ∧
      c.fld (R.cmpStat h) 30 0 = s.chip.fld (R.cmpStat h) 30 0 ∧ c.curElem = s.chip.curElem ∧
      (∀ j, j < 32 → j ≠ h → c.head j = s.chip.head j) ∧ s.chip.writesOnly c [R.cmpStat h] ∧ s.chip.raises c [])) ∧
  (∀ (s : State) (t : Stamp) (src : Source) (h : Nat), h < 32 → s.chip.bit (R.cmpStat h) 31 = true →
    Answers (.commitCancel t src h) s (fun c => c.bit (R.cmpStat h) 31 = false ∧
      c.head h = { s.chip.head h with withdrawn := some ((s.chip.head h).reqAt, t) } ∧
      c.fld (R.cmpStat h) 30 0 = s.chip.fld (R.cmpStat h) 30 0 ∧ c.curElem = s.chip.curElem ∧
      (∀ j, j < 32 → j ≠ h → c.head j = s.chip.head j) ∧ s.chip.writesOnly c [R.cmpStat h] ∧ s.chip.raises c [])) ∧
  (∀ (s : State) (t : Stamp) (src : Source) (h : Nat), h < 32 → (s.chip.bit (R.hedCtl h) 31 = false ∨ s.chip.bit (R.cmpStat h) 31 = true) →
    Answers (.commitRequest t src h) s (fun c => c.heads = s.chip.heads ∧
      s.chip.refused c t src (R.cmpCmd h) (cmdWord 1) (if s.chip.bit (R.hedCtl h) 31 = false then 1 else 2))) ∧
  (∀ (s : State) (t : Stamp) (src : Source) (h : Nat), h < 32 → s.chip.bit (R.cmpStat h) 31 = false →
    Answers (.commitCancel t src h) s (fun c => c.heads = s.chip.heads ∧ s.chip.refused c t src (R.cmpCmd h) (cmdWord 2) 1)) ∧
  (∀ (s : State) (t : Stamp) (h : Nat) (w : Word), h < 32 → s.chip.fld (R.hedStat h) 31 30 = 0 → w.getLsbD 31 = true →
    Answers (.headEnableWrite t h w) s (fun c => c.bit (R.hedCtl h) 31 = true ∧ c.fld (R.hedStat h) 31 30 = 1 ∧
      (c.head h).k = ceilDiv ((t + 2 * nsPerMs - s.chip.fld (R.hedPhase h) 26 0) * 65536)
        (s.chip.fld (R.hedPeriod h) 26 0 * 65536 + s.chip.fld (R.hedPeriodFrac h) 15 0) ∧ (c.head h).firstK = (c.head h).k ∧
      (s.chip.fld (R.hedOut h) 31 30 = 1 → c.dpState (s.chip.fld (R.hedOut h) 29 27) = 3 →
        c.carriesWhatFits (s.chip.fld (R.hedOut h) 29 27)) ∧
      (∀ j, j < 32 → j ≠ h → (c.head j).k = (s.chip.head j).k ∧ c.headRun j = s.chip.headRun j) ∧
      s.chip.writesOnly c ([R.hedCtl h, R.dptStat (s.chip.fld (R.hedOut h) 29 27)] ++ (List.range 32).map R.hedStat ++ dropRegs))) ∧
  (∀ (s : State) (t : Stamp) (h : Nat) (w : Word), h < 32 → s.chip.fld (R.hedStat h) 31 30 = 0 → w.getLsbD 31 = true →
    s.chip.fld (R.hedOut h) 31 30 ≠ 1 →
    Answers (.headEnableWrite t h w) s (fun c => (∀ j, j < 32 → j ≠ h → c.head j = s.chip.head j) ∧
      s.chip.writesOnly c ([R.hedCtl h, R.hedStat h] ++ dropRegs))) ∧
  (∀ (s : State) (t : Stamp) (h : Nat) (w : Word), h < 32 → s.chip.fld (R.hedStat h) 31 30 = 1 → w.getLsbD 31 = false →
    Answers (.headEnableWrite t h w) s (fun c => c.bit (R.hedCtl h) 31 = false ∧ c.fld (R.hedStat h) 31 30 = 0 ∧
      (c.head h).k = (s.chip.head h).k ∧
      (∀ j, j < 32 → j ≠ h → (c.head j).k = (s.chip.head j).k ∧ c.headRun j = s.chip.headRun j) ∧
      s.chip.writesOnly c ([R.hedCtl h, R.dptStat (s.chip.fld (R.hedOut h) 29 27)] ++ (List.range 32).map R.hedStat ++ dropRegs))) ∧
  (∀ (s : State) (t : Stamp) (h : Nat) (w : Word), h < 32 →
    (2 ≤ s.chip.fld (R.hedStat h) 31 30 ∨ s.chip.fld (R.hedStat h) 31 30 = 1 ∧ w.getLsbD 31 = true ∨
      s.chip.fld (R.hedStat h) 31 30 = 0 ∧ w.getLsbD 31 = false) →
    Answers (.headEnableWrite t h w) s (fun c => (c.bit (R.hedCtl h) 31 = true ↔ w.getLsbD 31 = true) ∧
      c.reg (R.hedStat h) = s.chip.reg (R.hedStat h) ∧ c.heads = s.chip.heads ∧ s.chip.writesOnly c (R.hedCtl h :: dropRegs)))

/-- R305 to R307, R309, R310: a transmit port without a sink trains when HPD has been high for 100 ms, with the sink's EDIDs
stored; training ends in UP with the first setting of the fallback that works, counted, and the streams that fit carried, or
in WAIT where none works. A link lost by its status, by HPD low or by RETRAIN stops the port's streams and is counted; an MST
change carries again what fits. A port in WAIT trains again after RETRY ms with HPD high and at RETRAIN. RETRAIN is refused
on a port that is off (cause 1), one whose HPD is low (2) and one that trains (3). In every other state each of these
commands changes at most HPD and its count. -/
def Obligations.TransmitPortTrainsAndLosesItsLink : Prop :=
  (∀ (s : State) (t : Stamp) (p rate lanes : Nat) (edid : List (Nat × List Byte)), p < 8 → s.chip.dpState p = 1 →
    Answers (.hpdHighDebounce t p rate lanes edid) s (fun c => c.dpState p = 2 ∧ c.bit (R.dptStat p) 31 = true ∧
      c.port p = { s.chip.port p with sinkRate := rate, sinkLanes := lanes } ∧
      (∀ q, q < 8 → q ≠ p → c.port q = s.chip.port q) ∧ c.fld (R.dptStat p) 27 0 = s.chip.fld (R.dptStat p) 27 0 ∧
      TxMsg.dpAux p .capabilities ∈ c.tx ∧ (s.chip.bit (R.dptCtl p) 30 = false → TxMsg.dpAux p .edid ∈ c.tx) ∧
      s.chip.writesOnly c (R.dptStat p :: (List.range 128).map (fun k => R.dptEdid p (k / 32) (k % 32))) ∧ s.chip.raises c [])) ∧
  (∀ (s : State) (t : Stamp) (p rate lanes st i : Nat) (b : List Byte), p < 8 → s.chip.dpState p = 1 → st < 4 → i < 32 →
    Answers (.hpdHighDebounce t p rate lanes [(st, b)]) s (fun c =>
      c.reg (R.dptEdid p st i) = BitVec.ofNat 32 (leAt b (4 * i) 4))) ∧
  (∀ (s : State) (t : Stamp) (p rate lanes : Nat) (edid : List (Nat × List Byte)), p < 8 → s.chip.dpState p ≠ 1 →
    Answers (.hpdHighDebounce t p rate lanes edid) s (fun c => c.bit (R.dptStat p) 31 = true ∧
      c.fld (R.dptStat p) 30 0 = s.chip.fld (R.dptStat p) 30 0 ∧ c.ports = s.chip.ports ∧ s.chip.writesOnly c [R.dptStat p] ∧
      s.chip.raises c [])) ∧
  (∀ (s : State) (t : Stamp) (p rate lanes : Nat) (good : List (Nat × Nat)) (denied : List Nat), p < 8 → s.chip.dpState p = 2 →
    (fallback (min (s.chip.fld (R.dptCtl p) 29 27) (s.chip.port p).sinkRate) (min (s.chip.fld (R.dptCtl p) 26 25)
      (s.chip.port p).sinkLanes)).find? (fun x => good.contains x) = some (rate, lanes) →
    Answers (.dpTrainingDone t p good denied) s (fun c => c.dpState p = 3 ∧ c.fld (R.dptStat p) 27 25 = rate ∧
      c.fld (R.dptStat p) 24 23 = lanes ∧ (c.bit (R.dptStat p) 22 = true ↔ s.chip.fecOn p rate = true) ∧
      c.port p = { s.chip.port p with denied := denied } ∧ c.carriesWhatFits p ∧
      c.reg (R.dptCnt p 0) = (s.chip.bump (R.dptCnt p 0)).reg (R.dptCnt p 0) ∧ TxMsg.dpAux p (.train rate lanes) ∈ c.tx ∧
      (∀ h, h < 32 → c.headRun h = s.chip.headRun h ∧ c.fld (R.hedStat h) 25 0 = s.chip.fld (R.hedStat h) 25 0) ∧
      s.chip.writesOnly c ([R.dptStat p, R.dptCnt p 0] ++ (List.range 32).map R.hedStat ++ eventRegs))) ∧
  (∀ (s : State) (t : Stamp) (p : Nat) (good : List (Nat × Nat)) (denied : List Nat), p < 8 → s.chip.dpState p = 2 →
    (fallback (min (s.chip.fld (R.dptCtl p) 29 27) (s.chip.port p).sinkRate) (min (s.chip.fld (R.dptCtl p) 26 25)
      (s.chip.port p).sinkLanes)).find? (fun x => good.contains x) = none →
    Answers (.dpTrainingDone t p good denied) s (fun c => c.dpState p = 4 ∧ c.port p = { s.chip.port p with waitSince := t } ∧
      c.fld (R.dptStat p) 27 0 = s.chip.fld (R.dptStat p) 27 0 ∧
      c.reg (R.dptCnt p 1) = (s.chip.bump (R.dptCnt p 1)).reg (R.dptCnt p 1) ∧
      s.chip.writesOnly c ([R.dptStat p, R.dptCnt p 1] ++ eventRegs))) ∧
  (∀ (s : State) (t : Stamp) (p : Nat) (good : List (Nat × Nat)) (denied : List Nat), p < 8 → s.chip.dpState p ≠ 2 →
    Gives (.dpTrainingDone t p good denied) s (s.chip.at t)) ∧
  (∀ (s : State) (t : Stamp) (p : Nat) (mst : Option Topology), p < 8 → s.chip.dpState p = 3 →
    Answers (.irqHpd t p true mst) s (fun c => c.dpState p = 2 ∧ c.fld (R.dptStat p) 19 16 = 0 ∧
      c.fld (R.dptStat p) 15 8 = min 255 (s.chip.fld (R.dptStat p) 15 8 + 1) ∧
      c.reg (R.dptCnt p 2) = (s.chip.bump (R.dptCnt p 2)).reg (R.dptCnt p 2) ∧
      c.reg (R.dptCnt p 3) = (s.chip.bump (R.dptCnt p 3)).reg (R.dptCnt p 3) ∧
      (∀ st, st < 4 → ∀ h, h < 32 → s.chip.streamHead p st = some h → s.chip.bit (R.dptStat p) (16 + st) = true →
        c.bit (R.hedStat h) 26 = false ∧ (c.head h).videoOn = false) ∧
      (∀ h, h < 32 → c.headRun h = s.chip.headRun h ∧ c.fld (R.hedStat h) 25 0 = s.chip.fld (R.hedStat h) 25 0) ∧
      s.chip.writesOnly c ([R.dptStat p, R.dptCnt p 2, R.dptCnt p 3] ++ (List.range 32).map R.hedStat ++ eventRegs) ∧
      (s.chip.fld (R.dptStat p) 19 16 = 0 →
        s.chip.raises c [⟨0xB002, .room, t, [.val 1 p, .val 4 (Config.eventCode 0xB002 1)]⟩]))) ∧
  (∀ (s : State) (t : Stamp) (p : Nat) (top : Topology), p < 8 → s.chip.dpState p = 3 →
    Answers (.irqHpd t p false (some top)) s (fun c => c.dpState p = 3 ∧ c.port p = { s.chip.port p with denied := top.denied } ∧
      c.carriesWhatFits p ∧ c.reg (R.dptCnt p 3) = (s.chip.bump (R.dptCnt p 3)).reg (R.dptCnt p 3) ∧
      s.chip.writesOnly c ([R.dptStat p, R.dptCnt p 3] ++ (List.range 128).map (fun k => R.dptEdid p (k / 32) (k % 32)) ++
        (List.range 32).map R.hedStat ++ eventRegs))) ∧
  (∀ (s : State) (t : Stamp) (p : Nat) (lost : Bool) (mst : Option Topology), p < 8 →
    (s.chip.dpState p ≠ 3 ∨ lost = false ∧ mst = none) →
    Answers (.irqHpd t p lost mst) s (fun c => c.reg (R.dptCnt p 3) = (s.chip.bump (R.dptCnt p 3)).reg (R.dptCnt p 3) ∧
      c.ports = s.chip.ports ∧ c.heads = s.chip.heads ∧ s.chip.writesOnly c [R.dptCnt p 3] ∧ s.chip.raises c [])) ∧
  (∀ (s : State) (t : Stamp) (p : Nat), p < 8 → 2 ≤ s.chip.dpState p →
    Answers (.hpdLowTimeout t p) s (fun c => c.dpState p = 1 ∧ c.bit (R.dptStat p) 31 = false ∧ c.fld (R.dptStat p) 19 16 = 0 ∧
      c.reg (R.dptCnt p 2) = (s.chip.bump (R.dptCnt p 2)).reg (R.dptCnt p 2) ∧
      (∀ st, st < 4 → ∀ h, h < 32 → s.chip.streamHead p st = some h → s.chip.bit (R.dptStat p) (16 + st) = true →
        c.bit (R.hedStat h) 26 = false ∧ (c.head h).videoOn = false) ∧
      s.chip.writesOnly c ([R.dptStat p, R.dptCnt p 2] ++ (List.range 32).map R.hedStat ++ eventRegs) ∧
      (s.chip.fld (R.dptStat p) 19 16 = 0 →
        s.chip.raises c [⟨0xB002, .room, t, [.val 1 p, .val 4 (Config.eventCode 0xB002 0)]⟩]))) ∧
  (∀ (s : State) (t : Stamp) (p : Nat), p < 8 → s.chip.dpState p ≤ 1 →
    Answers (.hpdLowTimeout t p) s (fun c => c.bit (R.dptStat p) 31 = false ∧
      c.fld (R.dptStat p) 30 0 = s.chip.fld (R.dptStat p) 30 0 ∧ c.heads = s.chip.heads ∧ s.chip.writesOnly c [R.dptStat p] ∧
      s.chip.raises c [])) ∧
  (∀ (s : State) (t : Stamp) (p : Nat), p < 8 → s.chip.dpState p = 4 → s.chip.bit (R.dptStat p) 31 = true →
    elapsed t (s.chip.port p).waitSince (s.chip.fld (R.dptCtl p) 15 0 * nsPerMs) = true →
    Answers (.dpRetryTimeout t p) s (fun c => c.dpState p = 2 ∧ c.bit (R.dptStat p) 31 = true ∧
      c.fld (R.dptStat p) 27 0 = s.chip.fld (R.dptStat p) 27 0 ∧ s.chip.writesOnly c [R.dptStat p] ∧ s.chip.raises c [])) ∧
  (∀ (s : State) (t : Stamp) (p : Nat), p < 8 → (s.chip.dpState p ≠ 4 ∨ s.chip.bit (R.dptStat p) 31 = false ∨
      elapsed t (s.chip.port p).waitSince (s.chip.fld (R.dptCtl p) 15 0 * nsPerMs) = false) →
    Gives (.dpRetryTimeout t p) s (s.chip.at t)) ∧
  (∀ (s : State) (t : Stamp) (src : Source) (p : Nat), p < 8 → s.chip.bit (R.dptCtl p) 31 = true → s.chip.bit (R.dptStat p) 31 = true →
    s.chip.dpState p = 4 →
    Answers (.retrain t src p) s (fun c => c.dpState p = 2 ∧ s.chip.writesOnly c [R.dptStat p] ∧ s.chip.raises c [])) ∧
  (∀ (s : State) (t : Stamp) (src : Source) (p : Nat), p < 8 → s.chip.bit (R.dptCtl p) 31 = true → s.chip.bit (R.dptStat p) 31 = true →
    s.chip.dpState p = 3 →
    Answers (.retrain t src p) s (fun c => c.dpState p = 2 ∧ c.fld (R.dptStat p) 19 16 = 0 ∧
      c.reg (R.dptCnt p 2) = (s.chip.bump (R.dptCnt p 2)).reg (R.dptCnt p 2) ∧
      (∀ st, st < 4 → ∀ h, h < 32 → s.chip.streamHead p st = some h → s.chip.bit (R.dptStat p) (16 + st) = true →
        c.bit (R.hedStat h) 26 = false ∧ (c.head h).videoOn = false) ∧
      s.chip.writesOnly c ([R.dptStat p, R.dptCnt p 2] ++ (List.range 32).map R.hedStat ++ eventRegs))) ∧
  (∀ (s : State) (t : Stamp) (src : Source) (p : Nat), p < 8 → s.chip.bit (R.dptCtl p) 31 = true → s.chip.bit (R.dptStat p) 31 = true →
    (s.chip.dpState p < 2 ∨ 4 < s.chip.dpState p) → Gives (.retrain t src p) s (s.chip.at t)) ∧
  (∀ (s : State) (t : Stamp) (src : Source) (p : Nat), p < 8 →
    (s.chip.bit (R.dptCtl p) 31 = false ∨ s.chip.bit (R.dptStat p) 31 = false ∨ s.chip.dpState p = 2) →
    Answers (.retrain t src p) s (fun c => c.ports = s.chip.ports ∧ c.heads = s.chip.heads ∧
      s.chip.refused c t src (R.dptCmd p) (cmdWord 1)
        (if s.chip.bit (R.dptCtl p) 31 = false then 1 else if s.chip.bit (R.dptStat p) 31 = false then 2 else 3)))

/-- R316, R325, R330, R331: a scan frame starts at a multiple of NS of Muith time on a channel that runs, and is counted by k; at
its end `SCAN_FRAMES` advances and exactly one report for it leaves, which begins with the frame's start stamp, k and the
channel: over the trained die-to-die link to base firmware, else into the link's queue, where one that finds 256 messages is
discarded and counted. While the channel calibrates the report carries no touches, and CALIB. Other instants start no frame,
and none ends where none runs. R23 to R25, R330, R331, R333: base firmware takes the oldest report that has come over the
die-to-die link, stores its bytes in the channel's ring, counts the frames missing before it and publishes the frame number;
the first touch of it that is not UP sets the pointer, and without one the pointer shows nothing once HOLD has passed. The
link leaving its trained state is shown, counted and raised; at retraining the messages that waited pass in their order and
those discarded are reported. A replayed flit is counted as CRC error and as replay. -/
def Obligations.ScanFramesReportAcrossTheLink : Prop :=
  (∀ (s : State) (t : Stamp) (h : Nat), h < 4 → s.chip.fld (R.tchStat h) 31 30 ≠ 0 → 0 < s.chip.fld (R.tchPeriod h) 26 0 →
    t % s.chip.fld (R.tchPeriod h) 26 0 = 0 →
    Answers (.scanFrameStart t h) s (fun c =>
      c.tchan h = { s.chip.tchan h with scan := some (t / s.chip.fld (R.tchPeriod h) 26 0, t) } ∧
      (∀ j, j < 4 → j ≠ h → c.tchan j = s.chip.tchan j) ∧ s.chip.writesOnly c [] ∧ s.chip.raises c [])) ∧
  (∀ (s : State) (t : Stamp) (h : Nat), h < 4 → (s.chip.fld (R.tchStat h) 31 30 = 0 ∨ s.chip.fld (R.tchPeriod h) 26 0 = 0 ∨
    t % s.chip.fld (R.tchPeriod h) 26 0 ≠ 0) → Gives (.scanFrameStart t h) s (s.chip.at t)) ∧
  (∀ (s : State) (t start : Stamp) (h k : Nat) (d : ScanData), h < 4 → (s.chip.tchan h).scan = some (k, start) →
    s.chip.bit R.sysD2dStat 31 = true →
    Answers (.scanFrameEnd t h d) s (fun c =>
      (c.tchan h).scan = none ∧ c.reg (R.tchCnt h 0) = (s.chip.bump (R.tchCnt h 0)).reg (R.tchCnt h 0) ∧
      c.touchIn.take s.chip.touchIn.length = s.chip.touchIn ∧ c.d2dQueue = s.chip.d2dQueue ∧
      (c.touchIn.drop s.chip.touchIn.length).map (fun r => (r.channel, r.k, r.start, r.bytes.take 13)) =
        [(h, k % 2 ^ 32, shortStamp start, leBytes 8 start ++ leBytes 4 k ++ leBytes 1 h)] ∧
      (∀ j, j < 4 → j ≠ h → c.tchan j = s.chip.tchan j) ∧
      s.chip.writesOnly c (R.tchStat h :: (List.range 7).map (R.tchCnt h) ++ (List.range 8).map (R.tchNoise h) ++ eventRegs))) ∧
  (∀ (s : State) (t start : Stamp) (h k : Nat) (d : ScanData), h < 4 → (s.chip.tchan h).scan = some (k, start) →
    s.chip.bit R.sysD2dStat 31 = true → s.chip.fld (R.tchStat h) 31 30 = 1 →
    Answers (.scanFrameEnd t h d) s (fun c =>
      (c.touchIn.drop s.chip.touchIn.length).map (fun r => (r.bytes.drop 13).take 3) = [[0, 0, 0]] ∧
      ((c.touchIn.drop s.chip.touchIn.length).all (fun r => leAt r.bytes 16 1 / 32 % 2 == 1)) = true ∧
      (c.tchan h).touches = (s.chip.tchan h).touches ∧
      (c.tchan h).calFrames = (s.chip.tchan h).calFrames + (if (s.chip.tchan h).skip then 0 else 1))) ∧
  (∀ (s : State) (t start : Stamp) (h k : Nat) (d : ScanData), h < 4 → (s.chip.tchan h).scan = some (k, start) →
    s.chip.bit R.sysD2dStat 31 = false →
    Answers (.scanFrameEnd t h d) s (fun c =>
      (c.tchan h).scan = none ∧ c.reg (R.tchCnt h 0) = (s.chip.bump (R.tchCnt h 0)).reg (R.tchCnt h 0) ∧
      c.touchIn = s.chip.touchIn ∧ c.d2dDown = s.chip.d2dDown ∧
      c.d2dQueue.take s.chip.d2dQueue.length = s.chip.d2dQueue ∧
      (s.chip.d2dQueue.length < 256 → c.reg R.sysD2dStat = s.chip.reg R.sysD2dStat ∧ c.d2dLost = s.chip.d2dLost ∧
        ((c.d2dQueue.drop s.chip.d2dQueue.length).flatMap D2dMsg.reports).map
          (fun r => (r.channel, r.k, r.start, r.bytes.take 13)) =
            [(h, k % 2 ^ 32, shortStamp start, leBytes 8 start ++ leBytes 4 k ++ leBytes 1 h)]) ∧
      (256 ≤ s.chip.d2dQueue.length → c.d2dQueue = s.chip.d2dQueue ∧ c.d2dLost = s.chip.d2dLost + 1 ∧
        c.fld R.sysD2dStat 15 0 = min 65535 (s.chip.fld R.sysD2dStat 15 0 + 1)) ∧
      (∀ j, j < 4 → j ≠ h → c.tchan j = s.chip.tchan j) ∧
      s.chip.writesOnly c ([R.tchStat h, R.sysD2dStat] ++ (List.range 7).map (R.tchCnt h) ++ (List.range 8).map (R.tchNoise h) ++
        eventRegs))) ∧
  (∀ (s : State) (t : Stamp) (h : Nat) (d : ScanData), h < 4 → (s.chip.tchan h).scan = none →
    Gives (.scanFrameEnd t h d) s (s.chip.at t)) ∧
  (∀ (s : State) (t : Stamp) (r : TouchReport) (rest : List TouchReport), s.chip.touchIn = r :: rest → r.channel < 4 →
    Answers (.touchReportWrite t) s (fun c =>
      c.touchIn = rest ∧ (c.tchan r.channel).lastK = some r.k ∧ c.reg (R.tchResFrame r.channel) = BitVec.ofNat 32 r.k ∧
      c.bit (R.tchRes r.channel) 31 = true ∧
      c.fld (R.tchRes r.channel) 15 0 = (s.chip.fld (R.tchRes r.channel) 15 0 + 1) % 65536)) ∧
  (∀ (s : State) (t : Stamp) (r : TouchReport) (rest : List TouchReport) (ring : Nat), s.chip.touchIn = r :: rest → r.channel < 4 →
    s.chip.bit (R.tchPtr r.channel) 31 = false → leAt r.bytes 13 1 = 0 → s.chip.pruCtlNow 0 / 2 ^ 31 % 2 = 0 →
    ring = s.chip.base40 (R.tchRingLo r.channel) (R.tchRingHi r.channel) +
      r.k % 2 ^ s.chip.fld (R.tchRingSize r.channel) 4 0 * 512 → r.bytes.length = 320 → s.chip.inDram ring 320 = true →
    Answers (.touchReportWrite t) s (fun c => c.dramBytes ring 320 = r.bytes ∧
      s.chip.storesOnly c ([R.tchRes r.channel, R.tchResFrame r.channel, R.tchCnt r.channel 5] ++ eventRegs) ring 320)) ∧
  (∀ (s : State) (t : Stamp) (r : TouchReport) (rest : List TouchReport) (k : Nat), s.chip.touchIn = r :: rest → r.channel < 4 →
    s.chip.bit (R.tchPtr r.channel) 31 = false → leAt r.bytes 13 1 = 0 → (s.chip.tchan r.channel).lastK = some k →
    Answers (.touchReportWrite t) s (fun c => (c.reg (R.tchCnt r.channel 5)).toNat =
      min ((s.chip.reg (R.tchCnt r.channel 5)).toNat + (r.k + 2 ^ 32 - 1 - k) % 2 ^ 32) (2 ^ 32 - 1))) ∧
  (∀ (s : State) (t : Stamp) (r : TouchReport) (rest : List TouchReport) (e : List Byte), s.chip.touchIn = r :: rest →
    r.channel < 4 → s.chip.bit (R.tchPtr r.channel) 31 = true → s.chip.sectionBytes 7 = [] →
    ((pieces 12 ((r.bytes.drop 32).take 240)).take (leAt r.bytes 13 1)).find? (fun e => leAt e 1 1 / 2 % 2 == 0) = some e →
    Answers (.touchReportWrite t) s (fun c =>
      c.bit (R.cmpPtr (s.chip.fld (R.tchPtr r.channel) 28 24)) 31 = true ∧
      c.fld (R.cmpPtr (s.chip.fld (R.tchPtr r.channel) 28 24)) 13 0 = s.chip.fld (R.tchPtr r.channel) 13 0 ∧
      c.fld (R.cmpPtrXy (s.chip.fld (R.tchPtr r.channel) 28 24)) 15 0 = (s.chip.fld (R.tchPtrOrg r.channel) 15 0 +
        leAt e 2 2 * s.chip.fld (R.tchPtrSize r.channel) 15 0 / s.chip.fld (R.tchXy r.channel) 15 0) % 65536 ∧
      c.fld (R.cmpPtrXy (s.chip.fld (R.tchPtr r.channel) 28 24)) 31 16 = (s.chip.fld (R.tchPtrOrg r.channel) 31 16 +
        leAt e 4 2 * s.chip.fld (R.tchPtrSize r.channel) 31 16 / s.chip.fld (R.tchXy r.channel) 31 16) % 65536 ∧
      (c.tchan r.channel).lastTouch = t)) ∧
  (∀ (s : State) (t : Stamp), s.chip.touchIn = [] → Gives (.touchReportWrite t) s (s.chip.at t)) ∧
  (∀ (s : State) (t : Stamp) (h : Nat), h < 4 → s.chip.bit (R.tchPtr h) 31 = true →
    elapsed t (s.chip.tchan h).lastTouch (s.chip.fld (R.tchPtrHold h) 15 0 * nsPerMs) = true →
    Answers (.pointerHoldExpire t h) s (fun c =>
      c.bit (R.cmpPtr (s.chip.fld (R.tchPtr h) 28 24)) 31 = false ∧
      s.chip.writesOnly c [R.cmpPtr (s.chip.fld (R.tchPtr h) 28 24)] ∧ s.chip.raises c [])) ∧
  (∀ (s : State) (t : Stamp) (h : Nat), h < 4 → (s.chip.bit (R.tchPtr h) 31 = false ∨
    elapsed t (s.chip.tchan h).lastTouch (s.chip.fld (R.tchPtrHold h) 15 0 * nsPerMs) = false) →
    Gives (.pointerHoldExpire t h) s (s.chip.at t)) ∧
  (∀ (s : State) (t : Stamp), s.chip.bit R.sysD2dStat 31 = true →
    Answers (.d2dLinkDown t) s (fun c =>
      c.bit R.sysD2dStat 31 = false ∧ c.fld R.sysD2dStat 23 16 = min 255 (s.chip.fld R.sysD2dStat 23 16 + 1) ∧
      c.fld R.sysD2dStat 15 0 = s.chip.fld R.sysD2dStat 15 0 ∧
      c.d2dQueue = s.chip.d2dQueue ∧ c.d2dDown = s.chip.d2dDown ∧ s.chip.writesOnly c ([R.sysD2dStat] ++ eventRegs) ∧
      s.chip.raises c [⟨0x0001, .room, t, [.val 1 0, .val 4 0]⟩])) ∧
  (∀ (s : State) (t : Stamp), s.chip.bit R.sysD2dStat 31 = false → Gives (.d2dLinkDown t) s (s.chip.at t)) ∧
  (∀ (s : State) (t : Stamp), s.chip.bit R.sysD2dStat 31 = false →
    Gives (.d2dLinkRetrained t) s (((s.chip.d2dDown ++ s.chip.d2dQueue).foldl Chip.d2dDeliver
      { (s.chip.at t).setFld R.sysD2dStat 31 31 1 with d2dDown := [], d2dQueue := [], d2dLost := 0 }).event 0x0001 .room
      [.val 1 1, .val 4 s.chip.d2dLost])) ∧
  (∀ (s : State) (t : Stamp) (l : List TouchReport), s.chip.bit R.sysD2dStat 31 = false → s.chip.d2dDown = [] →
    s.chip.d2dQueue = l.map .report →
    Answers (.d2dLinkRetrained t) s (fun c =>
      c.bit R.sysD2dStat 31 = true ∧ c.touchIn = s.chip.touchIn ++ l ∧ c.d2dQueue = [] ∧ c.d2dLost = 0 ∧
      s.chip.writesOnly c ([R.sysD2dStat] ++ eventRegs) ∧
      s.chip.raises c [⟨0x0001, .room, t, [.val 1 1, .val 4 s.chip.d2dLost]⟩])) ∧
  (∀ (s : State) (t : Stamp) (src : Source) (h : Nat), h < 4 → s.chip.bit R.sysD2dStat 31 = false →
    s.chip.d2dDown = [.write src false (R.tchCmd h) (cmdWord 1)] → s.chip.d2dQueue = [] → s.chip.touchCause h 1 = 0 →
    Answers (.d2dLinkRetrained t) s (fun c => c.bit R.sysD2dStat 31 = true ∧ c.d2dDown = [] ∧ (c.tchan h).test = some [] ∧
      c.bit (R.tchStat h) 29 = true)) ∧
  (∀ (s : State) (t : Stamp), s.chip.bit R.sysD2dStat 31 = true → Gives (.d2dLinkRetrained t) s (s.chip.at t)) ∧
  (∀ (s : State) (t : Stamp), Answers (.d2dFlitReplay t) s (fun c =>
      c.fld R.sysD2dErr 15 0 = min 65535 (s.chip.fld R.sysD2dErr 15 0 + 1) ∧
      c.fld R.sysD2dErr 31 16 = min 65535 (s.chip.fld R.sysD2dErr 31 16 + 1) ∧
      s.chip.writesOnly c [R.sysD2dErr] ∧ s.chip.raises c []))

/-- R320, R321, R329, R332: a due frequency hop makes the quieter frequency active, carries every baseline over to it by the
calibration counts, is counted and raises 0xC003 with both noise values, except while a self-test runs or the channel does
not scan; noise on every enabled frequency for 1 s raises 0xC006 once; a touch that lasts the long-touch time is counted and
raises 0xC002 once; a change of the drive rail is shown in `TCH_STAT.DRVLOW` and raises 0xC007. Where none of these is due,
nothing changes. R19, R24, R322, R325, R334: RECAL starts a calibration, and SELFTEST a self-test with its result no longer
valid, on an enabled channel that R334's table does not refuse it; a refused command has the cause of its place in that table
and changes nothing of the channel. Either command waits while the die-to-die link is down. A calibration of which every
frequency has its eight frames sets each baseline to its calibration count and ends in scanning on the quietest frequency; at
pitch a self-test follows it. A self-test whose measurements are all in publishes its opens and shorts and raises 0xC004. -/
def Obligations.TouchConditionsAndCalibrationEnd : Prop :=
  (∀ (s : State) (t : Stamp) (h j : Nat), h < 4 → (s.chip.tchan h).hopTo = some j → (s.chip.tchan h).test = none →
    s.chip.fld (R.tchStat h) 31 30 = 2 →
    Answers (.frequencyHop t h) s (fun c =>
      (c.tchan h).active = j ∧ (c.tchan h).hopTo = none ∧ (c.tchan h).hopped = true ∧ (c.tchan h).negRun = [] ∧
      (∀ k, k ∈ s.chip.nodeKeys h → (c.tchan h).baseline j k = (s.chip.tchan h).baseline (s.chip.tchan h).active k +
        (((mapGet (fun _ => 0) (s.chip.tchan h).cal (j * 4096 + k) : Nat) : Int) -
          (mapGet (fun _ => 0) (s.chip.tchan h).cal ((s.chip.tchan h).active * 4096 + k) : Nat)) * 256) ∧
      c.fld (R.tchStat h) 2 0 = j % 8 ∧ c.reg (R.tchCnt h 1) = (s.chip.bump (R.tchCnt h 1)).reg (R.tchCnt h 1) ∧
      (c.tchan h).touches = (s.chip.tchan h).touches ∧ (∀ i, i < 4 → i ≠ h → c.tchan i = s.chip.tchan i) ∧
      s.chip.writesOnly c ([R.tchStat h, R.tchCnt h 1] ++ eventRegs) ∧
      s.chip.raises c [⟨0xC003, .room, t, [.val 1 h, .val 1 (s.chip.tchan h).active, .val 1 j,
        .val 2 (s.chip.noiseF h (s.chip.tchan h).active), .val 2 (s.chip.noiseF h j)]⟩])) ∧
  (∀ (s : State) (t : Stamp) (h : Nat), h < 4 → ((s.chip.tchan h).hopTo = none ∨ (s.chip.tchan h).test ≠ none ∨
    s.chip.fld (R.tchStat h) 31 30 ≠ 2) → Gives (.frequencyHop t h) s (s.chip.at t)) ∧
  (∀ (s : State) (t since : Stamp) (h : Nat), h < 4 → (s.chip.tchan h).noisySince = some since →
    elapsed t since nsPerS = true → (s.chip.tchan h).noisyTold = false →
    Answers (.noiseTimeout t h) s (fun c => c.tchan h = { s.chip.tchan h with noisyTold := true } ∧
      (∀ i, i < 4 → i ≠ h → c.tchan i = s.chip.tchan i) ∧ s.chip.writesOnly c eventRegs ∧
      s.chip.raises c [⟨0xC006, .room, t, .val 1 h :: (s.chip.hopFreqs h).map (fun i => .val 2 (s.chip.noiseF h i))⟩])) ∧
  (∀ (s : State) (t : Stamp) (h : Nat), h < 4 → ((s.chip.tchan h).noisyTold = true ∨
    (s.chip.tchan h).noisySince.all (fun since => !elapsed t since nsPerS) = true) →
    Gives (.noiseTimeout t h) s (s.chip.at t)) ∧
  (∀ (s : State) (t : Stamp) (h : Nat) (x : TouchPt), h < 4 →
    (s.chip.tchan h).touches.find? (fun y => y.id == x.id) = some x → x.long = false →
    elapsed t x.down (s.chip.fld (R.tchLong h) 15 0 * nsPerS) = true →
    Answers (.longTouch t h x.id) s (fun c =>
      (c.tchan h).touches.find? (fun y => y.id == x.id) = some { x with long := true } ∧
      (c.tchan h).touches.filter (fun y => y.id != x.id) = (s.chip.tchan h).touches.filter (fun y => y.id != x.id) ∧
      (∀ i, i < 4 → i ≠ h → c.tchan i = s.chip.tchan i) ∧
      c.reg (R.tchCnt h 3) = (s.chip.bump (R.tchCnt h 3)).reg (R.tchCnt h 3) ∧ s.chip.writesOnly c ([R.tchCnt h 3] ++ eventRegs) ∧
      s.chip.raises c [⟨0xC002, .room, t, [.val 1 h, .val 1 x.id, .val 2 x.x, .val 2 x.y]⟩])) ∧
  (∀ (s : State) (t : Stamp) (h id : Nat), h < 4 → ((s.chip.tchan h).touches.find? (fun y => y.id == id)).all (fun x =>
    x.long || !elapsed t x.down (s.chip.fld (R.tchLong h) 15 0 * nsPerS)) = true → Gives (.longTouch t h id) s (s.chip.at t)) ∧
  (∀ (s : State) (t : Stamp) (h : Nat) (low : Bool), h < 4 → s.chip.bit (R.tchStat h) 28 ≠ low →
    Answers (.driveRailChange t h low) s (fun c =>
      c.bit (R.tchStat h) 28 = low ∧ c.fld (R.tchStat h) 31 29 = s.chip.fld (R.tchStat h) 31 29 ∧
      c.fld (R.tchStat h) 27 0 = s.chip.fld (R.tchStat h) 27 0 ∧ c.tch = s.chip.tch ∧
      s.chip.writesOnly c ([R.tchStat h] ++ eventRegs) ∧
      s.chip.raises c [⟨0xC007, .room, t, [.val 1 h, .val 1 (if low then 1 else 0)]⟩])) ∧
  (∀ (s : State) (t : Stamp) (h : Nat), h < 4 →
    Gives (.driveRailChange t h (s.chip.bit (R.tchStat h) 28)) s (s.chip.at t)) ∧
  (∀ (s : State) (t : Stamp) (src : Source) (h : Nat), h < 4 → s.chip.bit R.sysD2dStat 31 = true →
    s.chip.bit (R.tchCtl h) 31 = true →
    s.chip.fld (R.tchStat h) 31 30 ≠ 1 → (s.chip.tchan h).touches = [] → (s.chip.tchan h).objects = 0 →
    Answers (.recal t src h) s (fun c =>
      c.fld (R.tchStat h) 31 30 = 1 ∧ (c.tchan h).calSum = [] ∧ (c.tchan h).calFrames = 0 ∧ (c.tchan h).initial = false ∧
      (c.tchan h).skip = (s.chip.tchan h).scan.isSome ∧ (c.tchan h).base = (s.chip.tchan h).base ∧
      (∀ i, i < 4 → i ≠ h → c.tchan i = s.chip.tchan i) ∧ s.chip.writesOnly c [R.tchStat h] ∧ s.chip.raises c [])) ∧
  (∀ (s : State) (t : Stamp) (src : Source) (h : Nat), h < 4 → s.chip.bit R.sysD2dStat 31 = true →
    s.chip.bit (R.tchCtl h) 31 = true → s.chip.fld (R.tchStat h) 31 30 ≠ 1 → (s.chip.tchan h).test = none →
    Answers (.selftest t src h) s (fun c =>
      c.bit (R.tchStat h) 29 = true ∧ c.tchan h = { s.chip.tchan h with test := some [] } ∧ c.bit (R.tchTres h) 31 = false ∧
      c.fld (R.tchTres h) 30 0 = s.chip.fld (R.tchTres h) 30 0 ∧ (∀ i, i < 4 → i ≠ h → c.tchan i = s.chip.tchan i) ∧
      s.chip.writesOnly c [R.tchStat h, R.tchTres h] ∧ s.chip.raises c [])) ∧
  (∀ (s : State) (t : Stamp) (src : Source) (h : Nat), h < 4 → s.chip.bit R.sysD2dStat 31 = true →
    (s.chip.bit (R.tchCtl h) 31 = false ∨ s.chip.fld (R.tchStat h) 31 30 = 1 ∨ (s.chip.tchan h).touches ≠ [] ∨
      (s.chip.tchan h).objects ≠ 0) →
    Answers (.recal t src h) s (fun c => c.tch = s.chip.tch ∧ s.chip.refused c t src (R.tchCmd h) (cmdWord 2)
      (if s.chip.bit (R.tchCtl h) 31 = false then 1 else if s.chip.fld (R.tchStat h) 31 30 = 1 then 2 else 3))) ∧
  (∀ (s : State) (t : Stamp) (src : Source) (h : Nat), h < 4 → s.chip.bit R.sysD2dStat 31 = true →
    (s.chip.bit (R.tchCtl h) 31 = false ∨ s.chip.fld (R.tchStat h) 31 30 = 1 ∨ (s.chip.tchan h).test ≠ none) →
    Answers (.selftest t src h) s (fun c => c.tch = s.chip.tch ∧ s.chip.refused c t src (R.tchCmd h) (cmdWord 1)
      (if s.chip.bit (R.tchCtl h) 31 = false then 1 else if s.chip.fld (R.tchStat h) 31 30 = 1 then 2 else 3))) ∧
  (∀ (s : State) (t : Stamp) (src : Source) (h : Nat), h < 4 → s.chip.bit R.sysD2dStat 31 = false →
    Answers (.recal t src h) s (fun c => c.tch = s.chip.tch ∧
      s.chip.queued c s.chip.d2dDown c.d2dDown (.write src false (R.tchCmd h) (cmdWord 2)) ∧
      s.chip.writesOnly c [R.sysD2dStat] ∧ s.chip.raises c []) ∧
    Answers (.selftest t src h) s (fun c => c.tch = s.chip.tch ∧
      s.chip.queued c s.chip.d2dDown c.d2dDown (.write src false (R.tchCmd h) (cmdWord 1)) ∧
      s.chip.writesOnly c [R.sysD2dStat] ∧ s.chip.raises c [])) ∧
  (∀ (s : State) (t : Stamp) (h : Nat), h < 4 → s.chip.fld (R.tchStat h) 31 30 = 1 →
    8 * (s.chip.hopFreqs h).length ≤ (s.chip.tchan h).calFrames →
    Answers (.calibrationDone t h) s (fun c =>
      c.fld (R.tchStat h) 31 30 = 2 ∧ (c.tchan h).calSum = [] ∧ (c.tchan h).initial = false ∧
      (∀ f, f ∈ s.chip.hopFreqs h → ∀ k, k ∈ s.chip.nodeKeys h → (c.tchan h).baseline f k =
        ((mapGet (fun _ => 0) (s.chip.tchan h).calSum (f * 4096 + k) / 4 : Nat) : Int) * 256) ∧
      (c.tchan h).test = (if (s.chip.tchan h).initial = true then some [] else (s.chip.tchan h).test) ∧
      (c.tchan h).active = (s.chip.quietest h).getD 0 ∧ c.fld (R.tchStat h) 2 0 = (c.tchan h).active % 8 ∧
      (c.tchan h).touches = (s.chip.tchan h).touches ∧ (∀ i, i < 4 → i ≠ h → c.tchan i = s.chip.tchan i) ∧
      s.chip.writesOnly c ([R.tchStat h, R.tchTres h] ++ eventRegs))) ∧
  (∀ (s : State) (t : Stamp) (h : Nat), h < 4 → (s.chip.fld (R.tchStat h) 31 30 ≠ 1 ∨
    (s.chip.tchan h).calFrames < 8 * (s.chip.hopFreqs h).length) → Gives (.calibrationDone t h) s (s.chip.at t)) ∧
  (∀ (s : State) (t : Stamp) (h : Nat) (l : List Nat), h < 4 → (s.chip.tchan h).test = some l →
    (s.chip.testPlan h).length ≤ l.length →
    Answers (.selftestDone t h) s (fun c =>
      c.tchan h = { s.chip.tchan h with test := none } ∧ c.bit (R.tchStat h) 29 = false ∧ c.bit (R.tchTres h) 31 = true ∧
      c.fld (R.tchTres h) 15 0 = (s.chip.fld (R.tchTres h) 15 0 + 1) % 65536 ∧
      (∀ e, e < 64 → e < s.chip.ndrv h →
        (c.bit (R.tchTresOpen h (e / 32)) (e % 32) = true ↔ s.chip.fld (R.tchRef h e) 15 0 ≠ 0 ∧
          l.getD e 0 * 100 < s.chip.fld (R.tchRef h e) 15 0 * s.chip.fld (R.tchTest h) 7 0) ∧
        (l.getD e 0 = 0 ∨ l.getD e 0 = 65535 → c.bit (R.tchTresShort h (e / 32)) (e % 32) = true)) ∧
      (∀ e, e < 48 → e < s.chip.nsns h → s.chip.ndrv h ≤ 64 →
        (c.bit (R.tchTresOpen h (2 + e / 32)) (e % 32) = true ↔ s.chip.fld (R.tchRef h (64 + e)) 15 0 ≠ 0 ∧
          l.getD (s.chip.ndrv h + e) 0 * 100 < s.chip.fld (R.tchRef h (64 + e)) 15 0 * s.chip.fld (R.tchTest h) 7 0) ∧
        (l.getD (s.chip.ndrv h + e) 0 = 0 ∨ l.getD (s.chip.ndrv h + e) 0 = 65535 →
          c.bit (R.tchTresShort h (2 + e / 32)) (e % 32) = true)) ∧
      (∀ e, e < 63 → e + 1 < s.chip.ndrv h → s.chip.ndrv h ≤ 64 →
        s.chip.fld (R.tchTest h) 31 16 ≤ l.getD (s.chip.ndrv h + s.chip.nsns h + e) 0 →
        c.bit (R.tchTresShort h (e / 32)) (e % 32) = true ∧ c.bit (R.tchTresShort h ((e + 1) / 32)) ((e + 1) % 32) = true) ∧
      s.chip.writesOnly c ([R.tchStat h, R.tchTres h, R.pitTimes 6] ++ (List.range 4).map (R.tchTresOpen h) ++
        (List.range 4).map (R.tchTresShort h) ++ eventRegs))) ∧
  (∀ (s : State) (t : Stamp) (h : Nat), h < 4 →
    (s.chip.tchan h).test.all (fun l => decide (l.length < (s.chip.testPlan h).length)) = true →
    Gives (.selftestDone t h) s (s.chip.at t))

/-- R338, R339, R341, R343: four locked lanes bring an enabled link of a twin up and any other lock takes it down, each with
event 0x1101; down, the link is counted and the BOLRAL input fails with cause TWIN. On a link that is up a good flit is
delivered: an idle one carries nothing, a LAST one completes its message, which is kept or, of an unknown type, counted; the
next counter is expected. A bad flit, or one after a gap, is discarded and answered with a NAK; until the flit named arrives
every further one is discarded, a bad one with a NAK again. A NAK for a held flit sends it and those after it again; for one
no longer held the link is lost with event 0x1102. On a link that is down nothing happens. -/
def Obligations.BolralLinkCarriesFlits : Prop :=
  (∀ (s : State) (t : Stamp), s.chip.bit R.bolCtl 31 = true → s.chip.twinOn = true → s.chip.bolUp = false →
    Answers (.bolLinkChange t 15) s (fun c => c.bolUp = true ∧ c.fld R.bolStat 27 24 = 15 ∧ c.bit R.twnStat 8 = true ∧
      c.fld R.twnStat 7 0 = s.chip.fld R.twnStat 7 0 ∧ s.chip.writesOnly c ([R.bolStat, R.twnStat] ++ eventRegs) ∧
      s.chip.raises c [⟨0x1101, .room, t, [.val 1 1, .val 1 15]⟩])) ∧
  (∀ (s : State) (t : Stamp) (lock : Nat), lock < 16 → s.chip.bolUp = true →
    (lock < 15 ∨ s.chip.bit R.bolCtl 31 = false ∨ s.chip.twinOn = false) →
    Answers (.bolLinkChange t lock) s (fun c => c.bolUp = false ∧ c.fld R.bolStat 27 24 = lock ∧ c.bit R.twnStat 8 = false ∧
      c.fld R.bolStat 15 8 = min 255 (s.chip.fld R.bolStat 15 8 + 1) ∧ 8 ∈ (c.refIn 2).failing ∧ c.bol = s.chip.bol ∧
      (∀ k, k < 8 → k ≠ 2 → c.refIn k = s.chip.refIn k) ∧ s.chip.writesOnly c ([R.bolStat, R.twnStat] ++ eventRegs) ∧
      s.chip.raises c [⟨0x1101, .room, t, [.val 1 0, .val 1 lock]⟩])) ∧
  (∀ (s : State) (t : Stamp) (lock : Nat), lock < 16 →
    s.chip.bolUp = (decide (lock = 15) && s.chip.bit R.bolCtl 31 && s.chip.twinOn) →
    Answers (.bolLinkChange t lock) s (fun c => c.bolUp = s.chip.bolUp ∧ c.fld R.bolStat 27 24 = lock ∧ c.bol = s.chip.bol ∧
      c.mui = s.chip.mui ∧ s.chip.writesOnly c [R.bolStat] ∧ s.chip.raises c [])) ∧
  (∀ (s : State) (t : Stamp) (flit whole : List Byte) (v : ChkVerdict) (type : Nat), flit.length = 64 → s.chip.bolUp = true →
    v = ((s.chip.at t).chkRun 3 flit).2 → v.ok = true →
    (s.chip.bol.nakWait = none ∧ v.gap = false ∧ v.rep = false ∨ s.chip.bol.nakWait = some v.alive) →
    type = leAt flit 2 1 →
    whole = (if leAt flit 3 1 % 2 = 1 then [] else s.chip.bol.rxPart) ++ (flit.drop 4).take (leAt flit 3 1 / 4 + 1) →
    Answers (.flitReceive t flit) s (fun c =>
      c.bol.delivered = s.chip.bol.delivered ++
        (if type ≤ 7 ∧ leAt flit 3 1 / 2 % 2 = 1 then [(type, whole)] else []) ∧
      c.bol.rxPart = (if type = 0x7F then s.chip.bol.rxPart else if leAt flit 3 1 / 2 % 2 = 1 then [] else whole) ∧
      c.bol.rxNext = some ((v.alive + 1) % 65536) ∧ c.bol.nakWait = none ∧ c.tx = s.chip.tx ∧
      c.reg (R.bolCnt 1) = (s.chip.bump (R.bolCnt 1)).reg (R.bolCnt 1) ∧
      c.reg (R.bolCnt 5) = (if 7 < type ∧ type ≠ 0x7F ∧ leAt flit 3 1 / 2 % 2 = 1 then s.chip.bump (R.bolCnt 5)
        else s.chip).reg (R.bolCnt 5) ∧
      s.chip.writesOnly c ([R.bolCnt 1, R.bolCnt 5] ++ checkRegs 3) ∧ s.chip.raises c [])) ∧
  (∀ (s : State) (t : Stamp) (flit : List Byte) (v : ChkVerdict) (e : Nat), flit.length = 64 → s.chip.bolUp = true →
    v = ((s.chip.at t).chkRun 3 flit).2 →
    (s.chip.bol.nakWait = none ∧ (v.ok = false ∨ v.gap = true) ∧ e = s.chip.bol.rxNext.getD 1 ∨
      s.chip.bol.nakWait = some e ∧ v.ok = false) →
    Answers (.flitReceive t flit) s (fun c => c.bol.delivered = s.chip.bol.delivered ∧ c.bol.rxPart = s.chip.bol.rxPart ∧
      c.bol.nakWait = some e ∧ c.bol.rxNext = s.chip.bol.rxNext ∧
      c.tx = s.chip.tx ++ (flitBodies 0 (leBytes 2 e ++ [0, 0])).map (fun b => .flit (s.chip.flitOf b)) ∧
      c.reg (R.bolCnt 1) = (s.chip.bump (R.bolCnt 1)).reg (R.bolCnt 1) ∧
      c.reg (R.bolCnt 2) = (if v.ok = true then s.chip else s.chip.bump (R.bolCnt 2)).reg (R.bolCnt 2) ∧
      c.reg (R.bolCnt 4) = (s.chip.bump (R.bolCnt 4)).reg (R.bolCnt 4) ∧
      s.chip.writesOnly c ([R.bolCnt 0, R.bolCnt 1, R.bolCnt 2, R.bolCnt 4] ++ checkRegs 2 ++ checkRegs 3) ∧ s.chip.raises c [])) ∧
  (∀ (s : State) (t : Stamp) (flit : List Byte) (v : ChkVerdict), flit.length = 64 → s.chip.bolUp = true →
    v = ((s.chip.at t).chkRun 3 flit).2 → v.ok = true →
    (s.chip.bol.nakWait = none ∧ v.gap = false ∧ v.rep = true ∨ s.chip.bol.nakWait.any (fun e => e != v.alive) = true) →
    Answers (.flitReceive t flit) s (fun c => c.bol = s.chip.bol ∧ c.tx = s.chip.tx ∧
      c.reg (R.bolCnt 1) = (s.chip.bump (R.bolCnt 1)).reg (R.bolCnt 1) ∧
      s.chip.writesOnly c (R.bolCnt 1 :: checkRegs 3) ∧ s.chip.raises c [])) ∧
  (∀ (s : State) (t : Stamp) (flit : List Byte), flit.length = 64 → s.chip.bolUp = false →
    Gives (.flitReceive t flit) s (s.chip.at t)) ∧
  (∀ (s : State) (t : Stamp) (k : Nat) (pre post : List (Nat × List Byte)) (f : List Byte), k < 65536 → s.chip.bolUp = true →
    s.chip.bol.held = pre ++ (k, f) :: post → pre.any (fun e => e.1 == k) = false →
    Answers (.nakReceive t k) s (fun c => c.tx = s.chip.tx ++ (.flit f :: post.map (fun e => .flit e.2)) ∧ c.bol = s.chip.bol ∧
      c.reg (R.bolCnt 3) = (s.chip.bump (R.bolCnt 3)).reg (R.bolCnt 3) ∧
      c.reg (R.bolCnt 0) = (s.chip.bumpBy (R.bolCnt 0) (post.length + 1)).reg (R.bolCnt 0) ∧
      s.chip.writesOnly c [R.bolCnt 3, R.bolCnt 0] ∧ s.chip.raises c [])) ∧
  (∀ (s : State) (t : Stamp) (k : Nat), k < 65536 → s.chip.bolUp = true → s.chip.bol.held.any (fun e => e.1 == k) = false →
    Answers (.nakReceive t k) s (fun c => c.bolUp = false ∧ c.tx = s.chip.tx ∧ 8 ∈ (c.refIn 2).failing ∧
      s.chip.writesOnly c ([R.bolStat, R.twnStat] ++ eventRegs) ∧
      s.chip.raises c [⟨0x1102, .room, t, [.val 2 k]⟩, ⟨0x1101, .room, t, [.val 1 0, .val 1 (s.chip.fld R.bolStat 27 24)]⟩])) ∧
  (∀ (s : State) (t : Stamp) (k : Nat), k < 65536 → s.chip.bolUp = false → Gives (.nakReceive t k) s (s.chip.at t))

/-- R359, R360: at a whole millisecond a link that is up sends a TIME request with the next sequence number and its departure
stamp; a request is answered with its arrival stamp; the reply to the open exchange ends it, and gives its round trip as a
new `BOL_RES` and one sample of the BOLRAL input, or is discarded and counted when the round trip stands more than 40 ns
above the smallest of the last 64. At any other instant no request leaves, on a link that is down no message does, and any
other reply changes nothing. -/
def Obligations.TimeExchangeYieldsTheRoundTrip : Prop :=
  (∀ (s : State) (t depart : Stamp), s.chip.bolUp = true → t % nsPerMs = 0 →
    Answers (.timeExchangeStart t depart) s (fun c => c.bol.timeOpen = some (s.chip.bol.timeSeq, depart) ∧
      c.bol.timeSeq = (s.chip.bol.timeSeq + 1) % 65536 ∧ c.bol.rts = s.chip.bol.rts ∧
      c.tx = s.chip.tx ++ (flitBodies 2 (leBytes 2 s.chip.bol.timeSeq ++ List.replicate 6 0 ++ leBytes 8 depart ++
        List.replicate 16 0)).map (fun b => .flit (s.chip.flitOf b)) ∧
      s.chip.writesOnly c (R.bolCnt 0 :: checkRegs 2) ∧ s.chip.raises c [])) ∧
  (∀ (s : State) (t depart : Stamp), (s.chip.bolUp = false ∨ t % nsPerMs ≠ 0) →
    Gives (.timeExchangeStart t depart) s (s.chip.at t)) ∧
  (∀ (s : State) (t depart : Stamp) (l : List Byte), l.length = 32 → s.chip.bolUp = true →
    Answers (.timeRequestReceive t l depart) s (fun c =>
      c.tx = s.chip.tx ++ (flitBodies 2 (l.take 2 ++ [1, 0, 0, 0, 0, 0] ++ leBytes 8 depart ++ leBytes 8 t ++
        List.replicate 8 0)).map (fun b => .flit (s.chip.flitOf b)) ∧
      c.bol.timeOpen = s.chip.bol.timeOpen ∧ c.bol.timeSeq = s.chip.bol.timeSeq ∧ c.mui = s.chip.mui ∧
      s.chip.writesOnly c (R.bolCnt 0 :: checkRegs 2) ∧ s.chip.raises c [])) ∧
  (∀ (s : State) (t depart : Stamp) (l : List Byte), l.length = 32 → s.chip.bolUp = false →
    Gives (.timeRequestReceive t l depart) s (s.chip.at t)) ∧
  (∀ (s : State) (t a : Stamp) (l : List Byte) (x : Int × Int), l.length = 32 → s.chip.bol.timeOpen = some (leNat (l.take 2), a) →
    x = timeExchange a (leAt l 16 8) (leAt l 8 8) t (s.chip.sfld R.bolCal 31 0) → rtDiscard s.chip.bol.rts x.1 = false →
    Answers (.timeReplyReceive t l) s (fun c => c.bol.timeOpen = none ∧
      c.bol.rts = (s.chip.bol.rts ++ [x.1]).drop (s.chip.bol.rts.length + 1 - 64) ∧
      c.reg R.bolResRt = BitVec.ofInt 32 x.1 ∧ c.bit R.bolRes 31 = true ∧
      c.fld R.bolRes 15 0 = (s.chip.fld R.bolRes 15 0 + 1) % 65536 ∧ (c.refIn 2).seen = true ∧
      ((s.chip.refIn 2).predicted = false → (c.refIn 2).phi = some (x.2 * 256)) ∧
      (∀ k, k < 8 → k ≠ 2 → c.refIn k = s.chip.refIn k) ∧ s.chip.writesOnly c ([R.bolResRt, R.bolRes] ++ eventRegs))) ∧
  (∀ (s : State) (t a : Stamp) (l : List Byte) (x : Int × Int), l.length = 32 → s.chip.bol.timeOpen = some (leNat (l.take 2), a) →
    x = timeExchange a (leAt l 16 8) (leAt l 8 8) t (s.chip.sfld R.bolCal 31 0) → rtDiscard s.chip.bol.rts x.1 = true →
    Answers (.timeReplyReceive t l) s (fun c => c.bol.timeOpen = none ∧ c.mui = s.chip.mui ∧
      c.bol.rts = (s.chip.bol.rts ++ [x.1]).drop (s.chip.bol.rts.length + 1 - 64) ∧
      c.reg (R.bolCnt 6) = (s.chip.bump (R.bolCnt 6)).reg (R.bolCnt 6) ∧
      s.chip.writesOnly c [R.bolCnt 6] ∧ s.chip.raises c [])) ∧
  (∀ (s : State) (t : Stamp) (l : List Byte), l.length = 32 →
    s.chip.bol.timeOpen.all (fun o => o.1 != leNat (l.take 2)) = true → Gives (.timeReplyReceive t l) s (s.chip.at t))

/-- R338, R342, R344 to R346, R348: at a tick a part with a pair state evaluates it: a sealed part in WAIT with a current sealed
heartbeat becomes PAIRED, a PAIRED part without one SOLO, and a SOLO part after ten ticks with sealed heartbeats PAIRED
again, each with a result and event 0x1001; a raised claim takes effect; and the part's HEARTBEAT leaves. A HEARTBEAT
received leaves its arrival, its claim and the highest claim seen, and tests the BOLRAL input. In SOLO, a twin that the
network has shown for SPLIT ms raises SPLIT. Nothing of this happens between ticks, in ALONE, or with twin operation off.
R338, R350, R356: YIELD on a PAIRED LEADER stands as pending in `TWN_STAT`; on a FOLLOWER (cause 1), on a LEADER that is not
PAIRED (2) and with a YIELD pending (3) it is refused. A resync record that is newer than the part's own, or of equal stamp
and greater, replaces it, is counted and journalled; any other, and one beyond the point table, changes nothing; DONE is kept
until the part's own DONE has left, then event 0x100A gives the number replaced. With twin operation off nothing happens. -/
def Obligations.PairStateClaimsAndRecordsFollow : Prop :=
  (∀ (s : State) (t : Stamp) (cur : Bool) (run : Nat), t % (100 * nsPerUs) = 0 → s.chip.pairState ≠ 0 →
    cur = ((s.chip.at t).hbCurrent && s.chip.hbSealed) → run = (if s.chip.twn.hbSince then s.chip.twn.hbRun + 1 else 0) →
    Answers (.tick t) s (fun c =>
      c.pairState = (if s.chip.pairState = 1 then (if s.chip.isSealed && cur then 2 else 1)
        else if s.chip.pairState = 2 then (if cur then 2 else 3)
        else if s.chip.pairState = 3 ∧ 10 ≤ run then 2 else s.chip.pairState) ∧
      c.ownClaim = (s.chip.twn.nextClaim.map (fun n => n % 2 ^ 32)).getD s.chip.ownClaim ∧ c.twn.nextClaim = none ∧
      c.twn.hbSince = false ∧ c.twn.hbRun = (if s.chip.pairState = 2 ∧ cur = false then 0 else run) ∧
      c.twn.lastHb = s.chip.twn.lastHb ∧ c.leader = s.chip.leader ∧ c.bol.waiting = [])) ∧
  (∀ (s : State) (t : Stamp), t % (100 * nsPerUs) = 0 → s.chip.pairState = 1 → s.chip.isSealed = true →
    (s.chip.at t).hbCurrent = true → s.chip.hbSealed = true →
    Answers (.tick t) s (fun c => c.pairState = 2 ∧ c.bit R.twnRes 31 = true ∧
      (s.chip.twn.doneRx = false → c.twn.doneTx = true) ∧
      (c.evq.length < evqCap → (⟨0x1001, .room, t, [.val 1 1, .val 1 2, .val 4 c.ownClaim,
        .val 4 (s.chip.reg R.twnClaimTwin).toNat]⟩ : Ev) ∈ c.evq))) ∧
  (∀ (s : State) (t : Stamp), t % (100 * nsPerUs) = 0 → s.chip.pairState = 2 →
    ((s.chip.at t).hbCurrent = false ∨ s.chip.hbSealed = false) →
    Answers (.tick t) s (fun c => c.pairState = 3 ∧ c.bit R.twnRes 31 = true ∧
      c.wide R.twnResSoloLo R.twnResSoloHi = shortStamp t ∧ c.twn.leftPaired = some t ∧
      (c.evq.length < evqCap → (⟨0x1001, .room, t, [.val 1 2, .val 1 3, .val 4 c.ownClaim,
        .val 4 (s.chip.reg R.twnClaimTwin).toNat]⟩ : Ev) ∈ c.evq))) ∧
  (∀ (s : State) (t : Stamp) (claim : Nat), t % (100 * nsPerUs) = 0 → s.chip.pairState ≠ 0 →
    s.chip.twn.nextClaim = some claim →
    Answers (.tick t) s (fun c => c.ownClaim = claim % 2 ^ 32 ∧ c.twn.nextClaim = none ∧ c.bit R.twnRes 31 = true ∧
      c.wide R.twnResClaimLo R.twnResClaimHi = shortStamp t ∧
      (c.evq.length < evqCap → (⟨0x1006, .room, t, [.val 4 s.chip.ownClaim, .val 4 claim,
        .val 1 (if s.chip.leader then 1 else 0), .val 1 2]⟩ : Ev) ∈ c.evq))) ∧
  (∀ (s : State) (t : Stamp), t % (100 * nsPerUs) = 0 → (s.chip.pairState = 1 ∨ 3 < s.chip.pairState) →
    (s.chip.isSealed = false ∨ 3 < s.chip.pairState) → s.chip.bolUp = true → s.chip.bol.waiting = [] →
    Answers (.tick t) s (fun c =>
      c.tx = s.chip.tx ++ (flitBodies 1 c.heartbeatBytes).map (fun b => .flit (s.chip.flitOf b)))) ∧
  (∀ (c : Chip), c.heartbeatBytes.length = 24 ∧ leAt c.heartbeatBytes 0 4 = c.ownClaim ∧
    leAt c.heartbeatBytes 4 4 = (c.reg R.twnClaimHigh).toNat ∧ leAt c.heartbeatBytes 8 8 = c.clk % 2 ^ 64 ∧
    leAt c.heartbeatBytes 16 1 = c.partIndex % 256 ∧ leAt c.heartbeatBytes 17 1 = c.fld R.twnCfg 16 16 +
      (if c.leader then 2 else 0) + (if c.bit R.twnStat 7 then 4 else 0) + (if c.isSealed then 8 else 0) +
      (if c.pairState = 2 then 16 else 0)) ∧
  (∀ (s : State) (t : Stamp), (t % (100 * nsPerUs) ≠ 0 ∨ s.chip.pairState = 0) → Gives (.tick t) s (s.chip.at t)) ∧
  (∀ (s : State) (t since : Stamp), s.chip.pairState = 3 → s.chip.twn.seenSince = some since → s.chip.bit R.twnStat 6 = false →
    s.chip.twinTrackers.any (fun x => x.current t) = true →
    elapsed t since (s.chip.fld R.twnNet 15 0 * nsPerMs) = true →
    Answers (.splitTimeout t) s (fun c => c.bit R.twnStat 6 = true ∧ c.twn = s.chip.twn ∧ c.pairState = 3 ∧ c.leader = s.chip.leader ∧
      s.chip.writesOnly c ([R.twnStat] ++ eventRegs) ∧
      s.chip.raises c [⟨0x1002, .room, t, [.val 1 1, .val 4 s.chip.netTwinClaim]⟩])) ∧
  (∀ (s : State) (t : Stamp), (s.chip.pairState ≠ 3 ∨ s.chip.bit R.twnStat 6 = true ∨
      s.chip.twinTrackers.any (fun x => x.current t) = false ∨
      s.chip.twn.seenSince.all (fun since => !elapsed t since (s.chip.fld R.twnNet 15 0 * nsPerMs)) = true) →
    Gives (.splitTimeout t) s (s.chip.at t)) ∧
  (∀ (s : State) (t : Stamp) (l : List Byte), l.length = 24 → s.chip.twinOn = true →
    Answers (.heartbeatReceive t l) s (fun c => c.twn.lastHb = some t ∧ c.twn.hbFlags = leAt l 17 1 ∧
      c.twn.hbSince = (s.chip.twn.hbSince || leAt l 17 1 / 8 % 2 == 1) ∧
      c.reg R.twnClaimTwin = BitVec.ofNat 32 (leAt l 0 4) ∧
      c.reg R.twnClaimHigh = BitVec.ofNat 32 (max (max (s.chip.reg R.twnClaimHigh).toNat (leAt l 0 4)) (leAt l 4 4)) ∧
      c.reg R.twnClaimOwn = s.chip.reg R.twnClaimOwn ∧ c.pairState = s.chip.pairState ∧ c.leader = s.chip.leader ∧
      (9 ∈ (c.refIn 2).failing ↔ leAt l 18 1 / 8 % 2 = 1 ∧ leAt l 18 1 % 8 = 2) ∧
      (8 ∈ (c.refIn 2).failing ↔ leAt l 18 1 / 16 % 8 ≠ tbTethered ∨ s.chip.bolUp = false) ∧
      (∀ k, k < 8 → k ≠ 2 → c.refIn k = s.chip.refIn k) ∧
      s.chip.writesOnly c ([R.twnClaimTwin, R.twnClaimHigh, R.twnStat] ++ eventRegs))) ∧
  (∀ (s : State) (t : Stamp) (l : List Byte), l.length = 24 → s.chip.twinOn = false →
    Gives (.heartbeatReceive t l) s (s.chip.at t)) ∧
  (∀ (s : State) (t : Stamp) (src : Source), s.chip.leader = true → s.chip.paired = true → s.chip.bit R.twnStat 7 = false →
    Answers (.yield t src) s (fun c => c.bit R.twnStat 7 = true ∧ c.leader = true ∧ c.pairState = s.chip.pairState ∧
      c.twn = s.chip.twn ∧ s.chip.writesOnly c [R.twnStat] ∧ s.chip.raises c [])) ∧
  (∀ (s : State) (t : Stamp) (src : Source), (s.chip.leader = false ∨ s.chip.paired = false ∨ s.chip.bit R.twnStat 7 = true) →
    Answers (.yield t src) s (fun c => c.twn = s.chip.twn ∧ s.chip.refused c t src R.twnCmd (cmdWord 1)
      (if s.chip.leader = false then 1 else if s.chip.paired = false then 2 else 3))) ∧
  (∀ (s : State) (t : Stamp) (i : Nat) (b : List Byte), b.length = 32 → i < s.chip.fld R.pntCtl 23 0 → s.chip.twinOn = true →
    (0 < stampGap (leAt b 16 8) (s.chip.pointRec i).arrival ∨ stampGap (leAt b 16 8) (s.chip.pointRec i).arrival = 0 ∧
      leNat (s.chip.dramBytes (s.chip.pntTab + 32 * i) 32) < leNat b) →
    Answers (.recordReceive t ([1, 0, 0, 0] ++ leBytes 4 i ++ b)) s (fun c =>
      c.twn = { s.chip.twn with replaced := s.chip.twn.replaced + 1 } ∧
      c.reg (R.twnCnt 8) = (s.chip.bump (R.twnCnt 8)).reg (R.twnCnt 8) ∧
      c.wide R.pntJcountLo R.pntJcountHi = (s.chip.wide R.pntJcountLo R.pntJcountHi + 1) % 2 ^ 64 ∧
      s.chip.regsOnly c [R.twnCnt 8, R.pntJcountLo, R.pntJcountHi] ∧ s.chip.raises c [])) ∧
  (∀ (s : State) (t : Stamp) (i jrn : Nat) (b : List Byte), b.length = 32 → i < s.chip.fld R.pntCtl 23 0 → s.chip.twinOn = true →
    0 < stampGap (leAt b 16 8) (s.chip.pointRec i).arrival → s.chip.inDram (s.chip.pntTab + 32 * i) 32 = true →
    jrn = s.chip.base40 R.pntJrnLo R.pntJrnHi + 32 * (s.chip.wide R.pntJcountLo R.pntJcountHi % 2 ^ s.chip.fld R.pntJrnSize 4 0) →
    (jrn + 32 ≤ s.chip.pntTab + 32 * i ∨ s.chip.pntTab + 32 * i + 32 ≤ jrn) →
    Answers (.recordReceive t ([1, 0, 0, 0] ++ leBytes 4 i ++ b)) s (fun c => c.dramBytes (s.chip.pntTab + 32 * i) 32 = b)) ∧
  (∀ (s : State) (t : Stamp) (i : Nat) (b : List Byte), b.length = 32 → i < 2 ^ 32 →
    (s.chip.fld R.pntCtl 23 0 ≤ i ∨ stampGap (leAt b 16 8) (s.chip.pointRec i).arrival < 0 ∨
      stampGap (leAt b 16 8) (s.chip.pointRec i).arrival = 0 ∧ leNat b ≤ leNat (s.chip.dramBytes (s.chip.pntTab + 32 * i) 32)) →
    Gives (.recordReceive t ([1, 0, 0, 0] ++ leBytes 4 i ++ b)) s (s.chip.at t)) ∧
  (∀ (s : State) (t : Stamp) (m : List Byte), m.length = 4 + 36 * leAt m 0 2 → leAt m 0 2 ≤ 32 → s.chip.twinOn = true →
    leAt m 2 2 % 2 = 0 →
    Answers (.recordReceive t m) s (fun c => s.chip.twn.replaced ≤ c.twn.replaced ∧
      c.twn = { s.chip.twn with replaced := c.twn.replaced } ∧ c.twn.replaced ≤ s.chip.twn.replaced + leAt m 0 2 ∧
      s.chip.regsOnly c [R.twnCnt 8, R.pntJcountLo, R.pntJcountHi] ∧ s.chip.raises c [])) ∧
  (∀ (s : State) (t : Stamp), s.chip.twinOn = true → s.chip.twn.doneTx = false →
    Answers (.recordReceive t [0, 0, 1, 0]) s (fun c => c.twn = { s.chip.twn with doneRx := true } ∧ s.chip.writesOnly c [] ∧
      s.chip.raises c [])) ∧
  (∀ (s : State) (t : Stamp), s.chip.twinOn = true → s.chip.twn.doneTx = true →
    Answers (.recordReceive t [0, 0, 1, 0]) s (fun c =>
      c.twn = { s.chip.twn with doneTx := false, doneRx := false, replaced := 0 } ∧ s.chip.writesOnly c eventRegs ∧
      s.chip.raises c [⟨0x100A, .room, t, [.val 4 s.chip.twn.replaced]⟩])) ∧
  (∀ (s : State) (t : Stamp) (m : List Byte), m.length = 4 + 36 * leAt m 0 2 → leAt m 0 2 ≤ 32 → s.chip.twinOn = false →
    Gives (.recordReceive t m) s (s.chip.at t))

/-- R371, R373, R376 to R379, R386, R388, R403: a write of bytes to usable DRAM that its protection unit lets pass, that is not
held and that finds a place in its channel: afterwards the bytes stored to read as the write's data, and every other byte as
before. Of the registers the group's request counts, the channel's status and, with inline ECC, its counts of what the read
of a narrow write does and finds may change; a write that overwrites part of an uncorrectable burst leaves it uncorrectable,
any other a good one. An access of any kind that finds no place waits for one; one of ranks 6 to 8 waits while a port panics;
one beyond the usable DRAM is answered with the error flag and raises 0xD007; one that its unit does not let pass is answered
with the error flag. None of these changes a byte. R371, R373: a read of usable DRAM under the conditions of a write changes
no byte, and waits in its channel with the bytes that the DRAM holds: those of the last write accepted before it. R372, R373,
R378: a channel that serves a read answers the ready read that the order of R372 chooses with the bytes it carries, or, where
the burst is flagged uncorrectable, with free values and the error flag; a single-bit error is counted, and the burst
repaired where no write to it is queued; an uncorrectable one is counted. No byte of DRAM changes where no transaction waits
for a place. A channel with no ready read serves none. -/
def Obligations.MemoryAccessesStoreReadAndComplete : Prop :=
  (∀ (s : State) (t : Stamp) (a g : Access) (n o : Nat), accessShape a = true → a.kind = 1 → g = (s.chip.at t).groupOf a →
    placeOf s.chip.dramCap a.addr = .dram → a.addr - dramBase < s.chip.dramUsable → s.chip.passes g →
    (rankOf g.group < 6 ∨ s.chip.mem.anyPanic = false) → s.chip.mem.waiting = [] →
    n = s.chip.channelOf (a.addr - dramBase) → s.chip.hasPlace n ((s.chip.at t).newTxn g) = true →
    Answers (.memoryRequest t a) s (fun c =>
      mapGet dramDefault c.dram o = (if a.addr - dramBase ≤ o ∧ o < a.addr - dramBase + a.len
        then a.data.getD (o - (a.addr - dramBase)) 0 else mapGet dramDefault s.chip.dram o) ∧
      mapGet tbwDefault c.tbw o = mapGet tbwDefault s.chip.tbw o ∧ c.tx = s.chip.tx ∧ c.mem.waiting = [] ∧
      s.chip.regsOnly c ([R.dmcGcnt g.group 0, R.dmcGcnt g.group 1, R.dmcChStat n, R.dmcEccAddrLo n, R.dmcEccAddrHi n] ++
        (List.range 4).map (R.dmcChCnt n) ++ eventRegs))) ∧
  (∀ (s : State) (t : Stamp) (a g : Access) (n : Nat), accessShape a = true → a.kind = 1 → g = (s.chip.at t).groupOf a →
    placeOf s.chip.dramCap a.addr = .dram → a.addr - dramBase < s.chip.dramUsable → s.chip.passes g →
    (rankOf g.group < 6 ∨ s.chip.mem.anyPanic = false) → s.chip.mem.waiting = [] →
    n = s.chip.channelOf (a.addr - dramBase) → s.chip.hasPlace n ((s.chip.at t).newTxn g) = true →
    (s.chip.bit R.dmcCfg 30 = false ∨ a.len = 64 ∨ a.rmw = 0 ∧ s.chip.mem.poison.contains ((a.addr - dramBase) / 64) = false) →
    Answers (.memoryRequest t a) s (fun c => c.mem.poison.contains ((a.addr - dramBase) / 64) = false ∧ s.chip.raises c [] ∧
      c.reg (R.dmcChCnt n 2) = (if s.chip.bit R.dmcCfg 30 = true ∧ a.len < 64 then s.chip.bump (R.dmcChCnt n 2)
        else s.chip).reg (R.dmcChCnt n 2) ∧
      s.chip.regsOnly c [R.dmcGcnt g.group 0, R.dmcGcnt g.group 1, R.dmcChStat n, R.dmcChCnt n 2])) ∧
  (∀ (s : State) (t : Stamp) (a g : Access) (n : Nat), accessShape a = true → a.kind = 1 → g = (s.chip.at t).groupOf a →
    placeOf s.chip.dramCap a.addr = .dram → a.addr - dramBase < s.chip.dramUsable → s.chip.passes g →
    (rankOf g.group < 6 ∨ s.chip.mem.anyPanic = false) → s.chip.mem.waiting = [] →
    n = s.chip.channelOf (a.addr - dramBase) → s.chip.hasPlace n ((s.chip.at t).newTxn g) = true →
    s.chip.bit R.dmcCfg 30 = true → a.len < 64 →
    (a.rmw = 2 ∨ s.chip.mem.poison.contains ((a.addr - dramBase) / 64) = true) →
    Answers (.memoryRequest t a) s (fun c => c.mem.poison.contains ((a.addr - dramBase) / 64) = true ∧
      c.reg (R.dmcChCnt n 1) = (s.chip.bump (R.dmcChCnt n 1)).reg (R.dmcChCnt n 1) ∧
      c.reg (R.dmcChCnt n 2) = (s.chip.bump (R.dmcChCnt n 2)).reg (R.dmcChCnt n 2))) ∧
  (∀ (s : State) (t : Stamp) (a g : Access), accessShape a = true → g = (s.chip.at t).groupOf a →
    placeOf s.chip.dramCap a.addr = .dram → a.addr - dramBase < s.chip.dramUsable → s.chip.passes g →
    (rankOf g.group < 6 ∨ s.chip.mem.anyPanic = false) →
    s.chip.mem.waiting.any (fun x => s.chip.hasPlace (s.chip.channelOf x.ofs) x) = false →
    s.chip.hasPlace (s.chip.channelOf (a.addr - dramBase)) ((s.chip.at t).newTxn g) = false →
    Answers (.memoryRequest t a) s (fun c =>
      c.mem.waiting.map (fun x => x.access) = s.chip.mem.waiting.map (fun x => x.access) ++ [g] ∧
      c.mem.chans = s.chip.mem.chans ∧ c.tx = s.chip.tx ∧ s.chip.raises c [] ∧
      s.chip.writesOnly c [R.dmcGcnt g.group 0, R.dmcGcnt g.group 1])) ∧
  (∀ (s : State) (t : Stamp) (a g : Access), accessShape a = true → g = (s.chip.at t).groupOf a →
    placeOf s.chip.dramCap a.addr = .dram → 6 ≤ rankOf g.group → s.chip.mem.anyPanic = true →
    (coreAccess g = true → s.chip.passes g) →
    Answers (.memoryRequest t a) s (fun c => c.mem = { s.chip.mem with
        heldReqs := s.chip.mem.heldReqs ++ [(s.chip.at t).newTxn g] } ∧ c.tx = s.chip.tx ∧ s.chip.raises c [] ∧
      s.chip.writesOnly c [])) ∧
  (∀ (s : State) (t : Stamp) (a g : Access), accessShape a = true → g = (s.chip.at t).groupOf a →
    placeOf s.chip.dramCap a.addr = .dram → s.chip.dramUsable ≤ a.addr - dramBase → s.chip.passes g →
    (rankOf g.group < 6 ∨ s.chip.mem.anyPanic = false) →
    Answers (.memoryRequest t a) s (fun c => c.mem = s.chip.mem ∧
      c.tx = s.chip.tx ++ [.reply a.unit a.source (if a.kind = 1 then [] else List.replicate a.len 0) true] ∧
      s.chip.writesOnly c eventRegs ∧
      s.chip.raises c [⟨0xD007, .room, t, [.val 1 g.group, .val 8 (a.addr - dramBase)]⟩])) ∧
  (∀ (s : State) (t : Stamp) (a g : Access), accessShape a = true → g = (s.chip.at t).groupOf a →
    placeOf s.chip.dramCap a.addr = .dram → s.chip.pruCtlNow a.unit / 2 ^ 31 % 2 = 1 → s.chip.checkCause g ≠ 0 →
    (coreAccess g = true ∨ rankOf g.group < 6 ∨ s.chip.mem.anyPanic = false) →
    Answers (.memoryRequest t a) s (fun c => c.mem = s.chip.mem ∧
      c.tx = s.chip.tx ++ [.reply a.unit a.source (if a.kind = 1 then [] else List.replicate a.len 0) true] ∧
      (c.reg (R.pruFcnt a.unit)).toNat = min ((s.chip.reg (R.pruFcnt a.unit)).toNat + 1) (2 ^ 32 - 1) ∧
      s.chip.writesOnly c ([R.pruFcnt a.unit, R.pruFrec a.unit, R.pruFrecAddrLo a.unit, R.pruFrecAddrHi a.unit,
        R.pruFrecStampLo a.unit, R.pruFrecStampHi a.unit] ++ eventRegs))) ∧
  (∀ (s : State) (t : Stamp) (a g : Access) (n : Nat), accessShape a = true → a.kind ≠ 1 → g = (s.chip.at t).groupOf a →
    placeOf s.chip.dramCap a.addr = .dram → a.addr - dramBase < s.chip.dramUsable → s.chip.passes g →
    (rankOf g.group < 6 ∨ s.chip.mem.anyPanic = false) → s.chip.mem.waiting = [] →
    n = s.chip.channelOf (a.addr - dramBase) → s.chip.hasPlace n ((s.chip.at t).newTxn g) = true →
    Answers (.memoryRequest t a) s (fun c =>
      ((c.chan n).queue.map (fun x => x.access)) = ((s.chip.chan n).queue.map (fun x => x.access)) ++
        [{ g with data := memRead dramDefault s.chip.dram (a.addr - dramBase) a.len }] ∧
      (∀ k, k < 16 → k ≠ n → c.chan k = s.chip.chan k) ∧ c.mem.waiting = [] ∧ c.mem.poison = s.chip.mem.poison ∧
      s.chip.writesOnly c [R.dmcGcnt g.group 0, R.dmcGcnt g.group 1, R.dmcChStat n] ∧ s.chip.raises c [] ∧ c.tx = s.chip.tx)) ∧
  (∀ (s : State) (t : Stamp) (n ecc : Nat) (x : Txn), n < 16 → ecc < 3 → (s.chip.at t).choose n (s.chip.readyOf n false) = some x →
    Answers (.memoryReadComplete t n ecc) s (fun c =>
      c.tx = s.chip.tx ++ [.reply x.access.unit x.access.source
        (if s.chip.flagged x.ofs ecc = true then (List.range x.access.len).map (fun i => Config.ueByte (x.ofs + i))
          else x.access.data) (s.chip.flagged x.ofs ecc)])) ∧
  (∀ (s : State) (t : Stamp) (n ecc : Nat) (x : Txn), n < 16 → ecc < 3 → s.chip.mem.waiting = [] →
    (s.chip.at t).choose n (s.chip.readyOf n false) = some x →
    Answers (.memoryReadComplete t n ecc) s (fun c =>
      ((c.chan n).queue.filter (fun y => y.access.kind != 1)).map (fun y => y.access) =
        (((s.chip.chan n).queue.erase x).filter (fun y => y.access.kind != 1)).map (fun y => y.access) ∧
      (∀ k, k < 16 → k ≠ n → c.chan k = s.chip.chan k) ∧ c.mem.poison = s.chip.mem.poison ∧
      c.reg (R.dmcChCnt n 0) = (if s.chip.bit R.dmcCfg 30 = true ∧ ecc = 1 ∧ s.chip.flagged x.ofs ecc = false
        then s.chip.bump (R.dmcChCnt n 0) else s.chip).reg (R.dmcChCnt n 0) ∧
      c.reg (R.dmcChCnt n 1) = (if s.chip.flagged x.ofs ecc = true then s.chip.bump (R.dmcChCnt n 1)
        else s.chip).reg (R.dmcChCnt n 1) ∧
      c.reg (R.dmcChCnt n 3) = (if s.chip.bit R.dmcCfg 30 = true ∧ ecc = 1 ∧ s.chip.flagged x.ofs ecc = false ∧
          (s.chip.chan n).queue.any (fun y => y.access.kind == 1 && y.burst == x.burst) = false
        then s.chip.bump (R.dmcChCnt n 3) else s.chip).reg (R.dmcChCnt n 3) ∧
      s.chip.writesOnly c ([R.dmcChStat n, R.dmcChCnt n 0, R.dmcChCnt n 1, R.dmcChCnt n 3, R.dmcEccAddrLo n, R.dmcEccAddrHi n] ++
        eventRegs))) ∧
  (∀ (s : State) (t : Stamp) (n ecc : Nat), n < 16 → ecc < 3 → s.chip.readyOf n false = [] →
    Gives (.memoryReadComplete t n ecc) s (s.chip.at t))

/-- R375, R383: a refresh that no urgent transaction of its bank holds back, or that has been postponed 8 times, closes the
bank's row and clears its postponements; any other is postponed. A changed refresh rate code is shown in `DMC_CH_STAT` and
told by 0xD005, the same code tells nothing. The oscillator correction is held within ±32, and 0xD006 tells that it was
limited. R378, R380: with inline ECC and a scrub interval, a scrub read of a burst of its channel inside the usable size
counts one read, moves the pass on by one burst, and counts what its check word shows; a pass beyond twice its period raises
0xD008 once. Without ECC or interval, or outside, it does nothing. R386, R388: a hold that has lasted more than 1 ms raises
0xD004, with its length and `DMC_GSTAT`, at most once per second: within a second of the last one it is counted. A group out
of budget in each of 1,000 milliseconds raises 0xD003 with its requests, once per second. Any other hold or group raises
nothing. -/
def Obligations.ChannelsScrubsAndHoldsAreKept : Prop :=
  (∀ (s : State) (t : Stamp) (n bank : Nat), n < 16 → bank < 16 →
    ((s.chip.chan n).queue.any (fun x => s.chip.pressed x && s.chip.bankOf x.ofs == bank) = false ∨
      8 ≤ mapGet (fun _ => 0) (s.chip.chan n).postponed bank) →
    Answers (.refreshDue t n bank) s (fun c =>
      mapGet (fun _ => 0) (c.chan n).rows bank = 0 ∧ mapGet (fun _ => 0) (c.chan n).postponed bank = 0 ∧
      (∀ b, b < 16 → b ≠ bank → mapGet (fun _ => 0) (c.chan n).rows b = mapGet (fun _ => 0) (s.chip.chan n).rows b ∧
        mapGet (fun _ => 0) (c.chan n).postponed b = mapGet (fun _ => 0) (s.chip.chan n).postponed b) ∧
      (c.chan n).queue = (s.chip.chan n).queue ∧ (∀ k, k < 16 → k ≠ n → c.chan k = s.chip.chan k) ∧
      s.chip.writesOnly c [R.dmcChStat n] ∧ s.chip.raises c [])) ∧
  (∀ (s : State) (t : Stamp) (n bank : Nat), n < 16 → bank < 16 →
    (s.chip.chan n).queue.any (fun x => s.chip.pressed x && s.chip.bankOf x.ofs == bank) = true →
    mapGet (fun _ => 0) (s.chip.chan n).postponed bank < 8 →
    Answers (.refreshDue t n bank) s (fun c =>
      mapGet (fun _ => 0) (c.chan n).postponed bank = mapGet (fun _ => 0) (s.chip.chan n).postponed bank + 1 ∧
      (c.chan n).rows = (s.chip.chan n).rows ∧ (c.chan n).queue = (s.chip.chan n).queue ∧
      (∀ k, k < 16 → k ≠ n → c.chan k = s.chip.chan k) ∧ s.chip.writesOnly c [R.dmcChStat n] ∧ s.chip.raises c [])) ∧
  (∀ (s : State) (t : Stamp) (n code : Nat), n < 16 → code < 32 → s.chip.fld (R.dmcChStat n) 28 24 ≠ code →
    Answers (.mr4Poll t n code) s (fun c => c.fld (R.dmcChStat n) 28 24 = code ∧ c.mem = s.chip.mem ∧
      c.fld (R.dmcChStat n) 31 29 = s.chip.fld (R.dmcChStat n) 31 29 ∧
      c.fld (R.dmcChStat n) 23 0 = s.chip.fld (R.dmcChStat n) 23 0 ∧ s.chip.writesOnly c ([R.dmcChStat n] ++ eventRegs) ∧
      s.chip.raises c [⟨0xD005, .room, t, [.val 1 n, .val 1 code]⟩])) ∧
  (∀ (s : State) (t : Stamp) (n : Nat), n < 16 → Gives (.mr4Poll t n (s.chip.fld (R.dmcChStat n) 28 24)) s (s.chip.at t)) ∧
  (∀ (s : State) (t : Stamp) (n : Nat) (want : Int), n < 16 → -32 ≤ want → want ≤ 32 →
    Answers (.oscTrackRead t n want) s (fun c => c.sfld (R.dmcOsc n) 8 0 = want ∧ c.mem = s.chip.mem ∧
      c.fld (R.dmcOsc n) 31 9 = s.chip.fld (R.dmcOsc n) 31 9 ∧ s.chip.writesOnly c [R.dmcOsc n] ∧ s.chip.raises c [])) ∧
  (∀ (s : State) (t : Stamp) (n : Nat) (want : Int), n < 16 → 32 < want →
    Answers (.oscTrackRead t n want) s (fun c => c.sfld (R.dmcOsc n) 8 0 = 32 ∧ s.chip.writesOnly c ([R.dmcOsc n] ++ eventRegs) ∧
      s.chip.raises c [⟨0xD006, .room, t, [.val 1 n, .val 2 32]⟩])) ∧
  (∀ (s : State) (t : Stamp) (n : Nat) (want : Int), n < 16 → want < -32 →
    Answers (.oscTrackRead t n want) s (fun c => c.sfld (R.dmcOsc n) 8 0 = -32 ∧ s.chip.writesOnly c ([R.dmcOsc n] ++ eventRegs) ∧
      s.chip.raises c [⟨0xD006, .room, t, [.val 1 n, .val 2 0xFFE0]⟩])) ∧
  (∀ (s : State) (t : Stamp) (n ofs ecc : Nat), n < 16 → ecc < 3 → s.chip.bit R.dmcCfg 30 = true → 0 < s.chip.fld R.dmcScrub 15 0 →
    s.chip.channelOf ofs = n → ofs < s.chip.dramUsable →
    Answers (.scrubRead t n ofs ecc) s (fun c => c.reg (R.dmcChCnt n 4) = s.chip.reg (R.dmcChCnt n 4) + 1 ∧
      (c.chan n).scrubbed = (if s.chip.channelBursts ≤ (s.chip.chan n).scrubbed + 1 then 0 else (s.chip.chan n).scrubbed + 1) ∧
      (c.chan n).queue = (s.chip.chan n).queue ∧ (∀ k, k < 16 → k ≠ n → c.chan k = s.chip.chan k) ∧
      c.reg (R.dmcChCnt n 0) = (if ecc = 1 ∧ s.chip.flagged ofs ecc = false then s.chip.bump (R.dmcChCnt n 0)
        else s.chip).reg (R.dmcChCnt n 0) ∧
      c.reg (R.dmcChCnt n 1) = (if s.chip.flagged ofs ecc = true then s.chip.bump (R.dmcChCnt n 1)
        else s.chip).reg (R.dmcChCnt n 1) ∧
      s.chip.writesOnly c ([R.dmcChStat n, R.dmcEccAddrLo n, R.dmcEccAddrHi n, R.dmcChCnt n 0, R.dmcChCnt n 1, R.dmcChCnt n 3,
        R.dmcChCnt n 4] ++ eventRegs))) ∧
  (∀ (s : State) (t start : Stamp) (n ofs : Nat), n < 16 → s.chip.bit R.dmcCfg 30 = true → 0 < s.chip.fld R.dmcScrub 15 0 →
    s.chip.channelOf ofs = n → ofs < s.chip.dramUsable → s.chip.mem.poison.contains (ofs / 64) = false →
    start = (if (s.chip.chan n).scrubbed = 0 then t else (s.chip.chan n).scrubStart) →
    Answers (.scrubRead t n ofs 0) s (fun c =>
      s.chip.raises c (if (s.chip.chan n).scrubTold = false ∧
          2 * s.chip.fld R.dmcScrub 15 0 * 3600 * nsPerS < (stampGap t start).toNat
        then [⟨0xD008, .room, t, [.val 1 n, .val 4 ((stampGap t start).toNat / (3600 * nsPerS))]⟩] else []) ∧
      s.chip.writesOnly c ([R.dmcChCnt n 4, R.dmcChStat n] ++ eventRegs))) ∧
  (∀ (s : State) (t : Stamp) (n ofs ecc : Nat), n < 16 → ecc < 3 → (s.chip.bit R.dmcCfg 30 = false ∨
      s.chip.fld R.dmcScrub 15 0 = 0 ∨ s.chip.channelOf ofs ≠ n ∨ s.chip.dramUsable ≤ ofs) →
    Gives (.scrubRead t n ofs ecc) s (s.chip.at t)) ∧
  (∀ (s : State) (t since : Stamp), s.chip.mem.holdSince = some since → (1000000 : Int) < stampGap t since →
    (mapGet rateDefault s.chip.rate (rateKey 0xD004 0)).last = none →
    Answers (.holdTimeout t) s (fun c => s.chip.writesOnly c eventRegs ∧ c.mem = s.chip.mem ∧
      s.chip.raises c [⟨0xD004, .room, t,
        [.val 4 ((stampGap t since).toNat / 1000), .val 4 (s.chip.reg R.dmcGstat).toNat]⟩])) ∧
  (∀ (s : State) (t since last : Stamp), s.chip.mem.holdSince = some since → (1000000 : Int) < stampGap t since →
    (mapGet rateDefault s.chip.rate (rateKey 0xD004 0)).last = some last →
    Answers (.holdTimeout t) s (fun c => s.chip.writesOnly c eventRegs ∧ c.mem = s.chip.mem ∧
      (elapsed t last nsPerS = true → (mapGet rateDefault s.chip.rate (rateKey 0xD004 0)).count = 0 →
        s.chip.raises c [⟨0xD004, .room, t,
          [.val 4 ((stampGap t since).toNat / 1000), .val 4 (s.chip.reg R.dmcGstat).toNat]⟩]) ∧
      (elapsed t last nsPerS = false → (mapGet rateDefault c.rate (rateKey 0xD004 0)).count =
        (mapGet rateDefault s.chip.rate (rateKey 0xD004 0)).count + 1 ∧ s.chip.raises c []))) ∧
  (∀ (s : State) (t : Stamp), s.chip.mem.holdSince.all (fun since => decide (stampGap t since ≤ 1000000)) = true →
    Gives (.holdTimeout t) s (s.chip.at t)) ∧
  (∀ (s : State) (t : Stamp) (g : Nat) (r : Regulator), g < 10 → r = mapGet regDefault s.chip.mem.regs g → 1000 ≤ r.run →
    t / 1000000 ≤ r.lastMs + 1 → r.told.all (fun l => elapsed t l nsPerS) = true →
    Answers (.budgetOverrun t g) s (fun c => s.chip.writesOnly c eventRegs ∧
      mapGet regDefault c.mem.regs g = { r with told := some t } ∧
      (∀ k, k < 10 → k ≠ g → mapGet regDefault c.mem.regs k = mapGet regDefault s.chip.mem.regs k) ∧
      s.chip.raises c [⟨0xD003, .room, t, [.val 1 g, .val 4 r.excess]⟩])) ∧
  (∀ (s : State) (t : Stamp) (g : Nat) (r : Regulator), g < 10 → r = mapGet regDefault s.chip.mem.regs g →
    (r.run < 1000 ∨ r.lastMs + 1 < t / 1000000 ∨ r.told.all (fun l => elapsed t l nsPerS) = false) →
    Gives (.budgetOverrun t g) s (s.chip.at t))

/-- R19, R382, R384, R466: RUN on an idle helper starts it, in a sealed part only on the row of `DMC_SWEEP`, with its result no
longer valid; it writes within its row alone. STOP and the end of a run publish the 18 error counts and clear it; a command
that the helper's state does not allow is refused with the cause of its place in the table and starts and stops nothing; in a
sealed part one that no peg carries is a dropped write. The trims take effect together. -/
def Obligations.TrainingHelperRunsAndReports : Prop :=
  (∀ (s : State) (t : Stamp) (src : Source) (n : Nat), n < 16 → (s.chip.chan n).running = false →
    (s.chip.isSealed = false ∨ src = .peg ∧ s.chip.fld (R.dmcTrnRow n) 16 0 = s.chip.fld R.dmcSweep 16 0) →
    Answers (.trainingRun t src n) s (fun c => (c.chan n).running = true ∧ (c.chan n).queue = (s.chip.chan n).queue ∧
      c.bit (R.dmcTrnRes n) 31 = false ∧ c.fld (R.dmcTrnRes n) 30 0 = s.chip.fld (R.dmcTrnRes n) 30 0 ∧
      (∀ k, k < 16 → k ≠ n → c.chan k = s.chip.chan k) ∧
      s.chip.storesOnly c [R.dmcChStat n, R.dmcTrnRes n] (dramBase + s.chip.fld (R.dmcTrnRow n) 16 0 * 2 ^ 19)
        (if s.chip.fld (R.dmcTrnCtl n) 25 24 = 1 then 0 else 2 ^ 19) ∧ s.chip.raises c [])) ∧
  (∀ (s : State) (t : Stamp) (src : Source) (n : Nat), n < 16 →
    (s.chip.isSealed = false ∧ (s.chip.chan n).running = true ∨ src = .peg ∧ s.chip.isSealed = true ∧
      ((s.chip.chan n).running = true ∨ s.chip.fld (R.dmcTrnRow n) 16 0 ≠ s.chip.fld R.dmcSweep 16 0)) →
    Answers (.trainingRun t src n) s (fun c => c.mem = s.chip.mem ∧
      s.chip.refused c t src (R.dmcTrnCtl n) (cmdWord 1) (if (s.chip.chan n).running = true then 1 else 2))) ∧
  (∀ (s : State) (t : Stamp) (src : Source) (n : Nat) (errors : List Nat), n < 16 → (s.chip.chan n).running = true →
    (s.chip.isSealed = false ∨ src = .peg) →
    Answers (.trainingStop t src n errors) s (fun c => (c.chan n).running = false ∧ (c.chan n).queue = (s.chip.chan n).queue ∧
      c.bit (R.dmcTrnRes n) 31 = true ∧ c.fld (R.dmcTrnRes n) 15 0 = (s.chip.fld (R.dmcTrnRes n) 15 0 + 1) % 65536 ∧
      (∀ k, k < 18 → (c.reg (R.dmcTrnErr n k)).toNat = min (errors.getD k 0) 0xFFFFFFFF) ∧
      s.chip.writesOnly c ([R.dmcChStat n, R.dmcTrnRes n] ++ (List.range 18).map (fun k => R.dmcTrnErr n k)) ∧
      s.chip.raises c [])) ∧
  (∀ (s : State) (t : Stamp) (src : Source) (n : Nat) (errors : List Nat), n < 16 → (s.chip.chan n).running = false →
    (s.chip.isSealed = false ∨ src = .peg) →
    Answers (.trainingStop t src n errors) s (fun c => c.mem = s.chip.mem ∧
      s.chip.refused c t src (R.dmcTrnCtl n) (cmdWord 2) 1)) ∧
  (∀ (s : State) (t : Stamp) (src : Source) (n : Nat), n < 16 → s.chip.isSealed = true → src ≠ .peg →
    Answers (.trainingRun t src n) s (fun c => c.mem = s.chip.mem ∧
      c.reg R.pitSwrCount = (s.chip.bump R.pitSwrCount).reg R.pitSwrCount ∧ s.chip.writesOnly c dropRegs)) ∧
  (∀ (s : State) (t : Stamp) (src : Source) (n : Nat) (errors : List Nat), n < 16 → s.chip.isSealed = true → src ≠ .peg →
    Answers (.trainingStop t src n errors) s (fun c => c.mem = s.chip.mem ∧
      c.reg R.pitSwrCount = (s.chip.bump R.pitSwrCount).reg R.pitSwrCount ∧ s.chip.writesOnly c dropRegs)) ∧
  (∀ (s : State) (t : Stamp) (n : Nat) (errors : List Nat), n < 16 → (s.chip.chan n).running = true →
    Answers (.trainingRunDone t n errors) s (fun c => (c.chan n).running = false ∧ (c.chan n).queue = (s.chip.chan n).queue ∧
      c.bit (R.dmcTrnRes n) 31 = true ∧ c.fld (R.dmcTrnRes n) 15 0 = (s.chip.fld (R.dmcTrnRes n) 15 0 + 1) % 65536 ∧
      (∀ k, k < 18 → (c.reg (R.dmcTrnErr n k)).toNat = min (errors.getD k 0) 0xFFFFFFFF) ∧
      s.chip.writesOnly c ([R.dmcChStat n, R.dmcTrnRes n] ++ (List.range 18).map (fun k => R.dmcTrnErr n k)) ∧
      s.chip.raises c [])) ∧
  (∀ (s : State) (t : Stamp) (n : Nat) (errors : List Nat), n < 16 → (s.chip.chan n).running = false →
    Gives (.trainingRunDone t n errors) s (s.chip.at t)) ∧
  (∀ (s : State) (t : Stamp) (n : Nat), n < 16 →
    Answers (.trimWriteApply t n) s (fun c =>
      (∀ b, b < 18 → mapGet resetWord c.trims (R.dmcTrim n b) = s.chip.reg (R.dmcTrim n b)) ∧
      mapGet resetWord c.trims (R.dmcTrimVref n) = s.chip.reg (R.dmcTrimVref n) ∧
      mapGet resetWord c.trims (R.dmcTrimCa n) = s.chip.reg (R.dmcTrimCa n) ∧ s.chip.writesOnly c [] ∧ s.chip.raises c []))

/-- R399, R406 to R408: APPLY on a drained unit makes the shadow rules current: each region's current base, size and attribute
are the shadow's, EN stays 1 once it was applied as 1, the apply count advances, and DRAINED reads 1 exactly where no access
that the unit has checked is under way; the rules of no other unit change. On a unit that still drains the command is refused
and changes no rule. R398, R408, R409: APPLY_TAGS with no drain and no copy under way makes the tag shadow current byte by
byte, starts the copy and marks the accesses under way; while the table drains (cause 1) or the copy runs (2) it is refused.
When the copy ends, the shadow writes that waited land in their order, without tags of granules beyond the capacity. -/
def Obligations.AppliesMakeShadowsCurrent : Prop :=
  (∀ (s : State) (t : Stamp) (src : Source) (u : Nat), u < 24 → s.chip.bit (R.pruStat u) 31 = true →
    Answers (.apply t src u) s (fun c =>
      (∀ r, r < 64 → c.reg (R.pruRgnBaseCur u r) = s.chip.reg (R.pruRgnBase u r) ∧
        c.reg (R.pruRgnSizeCur u r) = s.chip.reg (R.pruRgnSize u r) ∧
        c.reg (R.pruRgnAttrCur u r) = s.chip.reg (R.pruRgnAttr u r)) ∧
      c.pruCtlNow u = (if 2 ^ 31 ≤ s.chip.pruCtlNow u ∨ s.chip.bit (R.pruCtl u) 31 = true then 2 ^ 31 else 0) +
        s.chip.fld (R.pruCtl u) 3 0 ∧
      (∀ v, v < 24 → v ≠ u → c.pruCtlNow v = s.chip.pruCtlNow v) ∧
      c.fld (R.pruStat u) 15 8 = (s.chip.fld (R.pruStat u) 15 8 + 1) % 256 ∧
      (c.bit (R.pruStat u) 31 = true ↔ s.chip.mem.waiting.any (fun x => x.access.unit == u) = false ∧
        s.chip.mem.heldReqs.any (fun x => x.access.unit == u && (x.oldRules || coreAccess x.access)) = false ∧
        s.chip.mem.chans.any (fun e => e.2.queue.any (fun x => x.access.kind != 1 && x.access.unit == u)) = false) ∧
      s.chip.writesOnly c (R.pruStat u :: (List.range 64).flatMap (fun r =>
        [R.pruRgnBaseCur u r, R.pruRgnSizeCur u r, R.pruRgnAttrCur u r])) ∧ s.chip.raises c [])) ∧
  (∀ (s : State) (t : Stamp) (src : Source) (u : Nat), u < 24 → s.chip.bit (R.pruStat u) 31 = false →
    Answers (.apply t src u) s (fun c => c.pruCur = s.chip.pruCur ∧ c.mem = s.chip.mem ∧
      s.chip.refused c t src (R.pruCmd u) (cmdWord 1) 1)) ∧
  (∀ (s : State) (t : Stamp) (src : Source) (o : Nat), s.chip.bit R.pruGstat 31 = true → s.chip.bit R.pruGstat 30 = false →
    s.chip.canonical →
    Answers (.applyTags t src) s (fun c =>
      mapGet tbwDefault c.tbw o = (if 0x1DA0000 ≤ o ∧ o < 0x1E20000 then mapGet tbwDefault s.chip.tbw (o - 0x80000)
        else mapGet tbwDefault s.chip.tbw o) ∧
      c.bit R.pruGstat 30 = true ∧ (c.bit R.pruGstat 31 = true ↔ s.chip.mem.waiting = [] ∧
        s.chip.mem.heldReqs.any (fun x => x.oldTags || coreAccess x.access) = false ∧
        s.chip.mem.chans.any (fun e => e.2.queue.any (fun x => x.access.kind != 1)) = false) ∧
      c.fld R.pruGstat 15 8 = (s.chip.fld R.pruGstat 15 8 + 1) % 256 ∧ s.chip.regsOnly c [R.pruGstat] ∧ c.dram = s.chip.dram ∧
      s.chip.raises c [])) ∧
  (∀ (s : State) (t : Stamp) (src : Source), (s.chip.bit R.pruGstat 31 = false ∨ s.chip.bit R.pruGstat 30 = true) →
    Answers (.applyTags t src) s (fun c => c.mem = s.chip.mem ∧
      s.chip.refused c t src R.pruGcmd (cmdWord 1) (if s.chip.bit R.pruGstat 31 = false then 1 else 2))) ∧
  (∀ (s : State) (t : Stamp), s.chip.bit R.pruGstat 30 = true →
    Gives (.tagCopyDone t) s (s.chip.tagHeld.foldl (fun (c : Chip) e => c.writeTags e.1 e.2)
      { (s.chip.at t).setFld R.pruGstat 30 30 0 with tagHeld := [] })) ∧
  (∀ (s : State) (t : Stamp) (o1 o2 : Nat) (b1 b2 : Byte), s.chip.bit R.pruGstat 30 = true →
    s.chip.tagHeld = [(o1, [b1]), (o2, [b2])] →
    Answers (.tagCopyDone t) s (fun c => c.bit R.pruGstat 30 = false ∧ c.tagHeld = [] ∧
      mapGet tbwDefault c.tbw o2 = (if o2 < 0x1D20000 + s.chip.dramCap / 131072 then b2
        else mapGet tbwDefault s.chip.tbw o2) ∧
      (o1 ≠ o2 → o1 < 0x1D20000 + s.chip.dramCap / 131072 → mapGet tbwDefault c.tbw o1 = b1) ∧
      s.chip.regsOnly c [R.pruGstat] ∧ c.dram = s.chip.dram ∧ s.chip.raises c [])) ∧
  (∀ (s : State) (t : Stamp), s.chip.bit R.pruGstat 30 = false → Gives (.tagCopyDone t) s (s.chip.at t))

/-- R407, R409: DRAINED reads 1 again once no access is left that was checked by the unit's old rules, or by the old tags; while
one is left nothing changes. -/
def Obligations.DrainCompletesWhenNoOldAccessIsLeft : Prop :=
  (∀ (s : State) (t : Stamp) (u : Nat), u < 24 → s.chip.anyTxn (fun x => x.access.unit == u && x.oldRules) = false →
    Answers (.accessDrainComplete t (some u)) s (fun c => c.bit (R.pruStat u) 31 = true ∧
      c.fld (R.pruStat u) 30 0 = s.chip.fld (R.pruStat u) 30 0 ∧ c.mem = s.chip.mem ∧ s.chip.writesOnly c [R.pruStat u] ∧
      s.chip.raises c [])) ∧
  (∀ (s : State) (t : Stamp) (u : Nat), u < 24 → s.chip.anyTxn (fun x => x.access.unit == u && x.oldRules) = true →
    Gives (.accessDrainComplete t (some u)) s (s.chip.at t)) ∧
  (∀ (s : State) (t : Stamp), s.chip.anyTxn (fun x => x.oldTags) = false →
    Answers (.accessDrainComplete t none) s (fun c => c.bit R.pruGstat 31 = true ∧
      c.fld R.pruGstat 30 0 = s.chip.fld R.pruGstat 30 0 ∧ c.mem = s.chip.mem ∧ s.chip.writesOnly c [R.pruGstat] ∧
      s.chip.raises c [])) ∧
  (∀ (s : State) (t : Stamp), s.chip.anyTxn (fun x => x.oldTags) = true →
    Gives (.accessDrainComplete t none) s (s.chip.at t))

/-- R437, R438: RECALL of a layout of the image, with no pegs of an earlier RECALL pending and T not too soon, writes the layout
into the shadows and submits one group that holds a commit peg at T on the queue of each head of the mask; PRESET of a preset
of the image, with T not too soon, submits its writes as one group. Into a free stager the group goes at once. A group with
no peg is refused, which `PIT_RES` shows. A command that R438's table refuses has the cause of its place in that table and
changes nothing else. R388, R439, R348: base firmware takes the policy action that has waited longest. AUDIT sets
`CMP_CTL.AUDIT` of the head that its argument or, at 0xFF, the event's address names; TAKEOVER of a paired FOLLOWER makes it
LEADER with a raised epoch from the next tick, DEMOTE a LEADER FOLLOWER with event 0x1006; RECALL and PRESET act with T = 0,
or are refused for a policy; any other changes nothing. While a hold lasts, or where none waits, nothing changes. R453, R454:
a hart's signal is its last; an active hart that has been silent for the image's period raises 0x0103 once with the stamp of
its last signal. After seal each crossing of a monitor's limit, out of the limits or back, raises 0x0106 with reading and
limit, and the first window whose writable registers differ from what they were at seal raises 0x0105 once per difference
found; where nothing crosses or differs anew nothing happens, and before seal the check does nothing. -/
def Obligations.LayoutsPresetsAndWatchCoresAct : Prop :=
  (∀ (s : State) (t : Stamp) (src : Source) (n k : Nat) (b : List Byte), n < 4096 → s.chip.layoutBody n = some b →
    s.chip.recallPending = false → s.chip.tooSoon t s.chip.pitT = false →
    ((layoutOf b).elems ++ (layoutOf b).descs ++ (layoutOf b).regions).all (fun r => r.2.length == 32) = true → s.chip.canonical →
    Answers (.recallLayout t src n) s (fun c => s.chip.layoutTaken c (layoutOf b) k ∧ c.dram = s.chip.dram ∧
      ((s.chip.recallGroup t b s.chip.pitT).pegs ≠ [] → s.chip.submitted c (s.chip.recallGroup t b s.chip.pitT)))) ∧
  (∀ (s : State) (t : Stamp) (src : Source) (n : Nat) (b : List Byte) (g : FwGroup), n < 4096 → s.chip.layoutBody n = some b →
    s.chip.recallPending = false → s.chip.tooSoon t s.chip.pitT = false → s.chip.stagerIdle → (layoutOf b).regs = [] →
    g = s.chip.recallGroup t b s.chip.pitT → g.pegs ≠ [] →
    Answers (.recallLayout t src n) s (fun c =>
      g.pegs.map (fun p => (p.queue, p.commit, p.launch, p.writes)) = ((List.range 32).filter (inMask (layoutOf b).mask)).map
        (fun h => (h, true, (if s.chip.pitT = 0 then t + s.chip.fld R.pegCtl 23 0 * 1000 + 1000000 else s.chip.pitT), [])) ∧
      g.group = (s.chip.fld R.pitRes 15 0 + 1) % 65536 ∧ c.peg.fwNow = some g ∧ c.peg.fwNext = [] ∧
      c.peg.pegs = s.chip.peg.pegs ∧ c.peg.checks = s.chip.peg.checks ++ [0] ∧ c.bit (R.pegStgCount 0) 31 = true ∧
      c.fld (R.pegStgCount 0) 6 0 = g.pegs.length ∧
      (∀ i, i < 32 → i < g.pegs.length → g.pegs[i]?.any (fun p =>
        (c.reg (R.pegBufW0 0 i)).toNat == p.queue * 2 ^ 25 + p.kind * 2 ^ 22 + 2 ^ 21 + p.arg && c.fld (R.pegBufW1 0 i) 31 16 == g.group &&
        c.wide (R.pegBufW2 0 i) (R.pegBufW3 0 i) == shortStamp p.launch) = true) ∧
      s.chip.regsOnly c fwRegs ∧ s.chip.raises c [])) ∧
  (∀ (s : State) (t : Stamp) (src : Source) (n : Nat) (b : List Byte), n < 4096 → s.chip.layoutBody n = some b →
    s.chip.recallPending = false → s.chip.tooSoon t s.chip.pitT = false → s.chip.stagerIdle →
    (s.chip.recallGroup t b s.chip.pitT).pegs = [] →
    Answers (.recallLayout t src n) s (fun c => c.fld R.pitRes 31 30 = 2 ∧ c.peg.pegs = s.chip.peg.pegs ∧ c.peg.fwNow = none)) ∧
  (∀ (s : State) (t : Stamp) (src : Source) (n : Nat) (b : List Byte), n < 4096 → s.chip.presetBody n = some b →
    s.chip.tooSoon t s.chip.pitT = false →
    Answers (.preset t src n) s (fun c => c.dram = s.chip.dram ∧ (presetPegs b 0 ≠ [] →
      s.chip.submitted c (s.chip.presetGroup t b s.chip.pitT)))) ∧
  (∀ (s : State) (t : Stamp) (src : Source) (n : Nat) (b : List Byte) (g : FwGroup), n < 4096 → s.chip.presetBody n = some b →
    s.chip.tooSoon t s.chip.pitT = false → s.chip.stagerIdle → g = s.chip.presetGroup t b s.chip.pitT → g.pegs ≠ [] →
    Answers (.preset t src n) s (fun c =>
      g.group = (s.chip.fld R.pitRes 15 0 + 1) % 65536 ∧ g.pegs.all (fun p => !p.commit && decide (p.writes.length ≤ 32) &&
        p.launch == (if s.chip.pitT = 0 then t + s.chip.fld R.pegCtl 23 0 * 1000 + 1000000 else s.chip.pitT)) = true ∧
      c.peg.fwNow = some g ∧ c.peg.fwNext = [] ∧ c.peg.pegs = s.chip.peg.pegs ∧ c.peg.checks = s.chip.peg.checks ++ [0] ∧
      c.bit (R.pegStgCount 0) 31 = true ∧ c.fld (R.pegStgCount 0) 6 0 = min g.pegs.length 64 ∧
      s.chip.writesOnly c fwRegs ∧ s.chip.raises c [])) ∧
  (∀ (s : State) (t : Stamp) (src : Source) (n : Nat) (b : List Byte), n < 4096 → s.chip.presetBody n = some b →
    s.chip.tooSoon t s.chip.pitT = false → s.chip.stagerIdle → presetPegs b 0 = [] →
    Answers (.preset t src n) s (fun c => c.fld R.pitRes 31 30 = 2 ∧ c.peg.pegs = s.chip.peg.pegs ∧ c.peg.fwNow = none)) ∧
  (∀ (s : State) (t : Stamp) (src : Source) (n : Nat), n < 4096 → (s.chip.layoutBody n = none ∨ s.chip.recallPending = true ∨
      s.chip.tooSoon t s.chip.pitT = true) →
    Answers (.recallLayout t src n) s (fun c => c.peg = s.chip.peg ∧
      s.chip.refused c t src R.pitCmd (BitVec.ofNat 32 (2 ^ 28 + n))
        (if s.chip.layoutBody n = none then 1 else if s.chip.recallPending = true then 2 else 3))) ∧
  (∀ (s : State) (t : Stamp) (src : Source) (n : Nat), n < 4096 →
    (s.chip.presetBody n = none ∨ s.chip.tooSoon t s.chip.pitT = true) →
    Answers (.preset t src n) s (fun c => c.peg = s.chip.peg ∧
      s.chip.refused c t src R.pitCmd (BitVec.ofNat 32 (2 * 2 ^ 28 + n)) (if s.chip.presetBody n = none then 1 else 2))) ∧
  (∀ (s : State) (t : Stamp) (a : PolicyAct) (rest : List PolicyAct) (h : Nat), s.chip.jrn.acts = a :: rest →
    s.chip.bit R.dmcGstat 31 = false → a.action = 4 → h < 32 →
    (if a.arg = 0xFF then s.chip.placeHead a.place else some a.arg) = some h →
    Answers (.policyAction t) s (fun c => c.bit (R.cmpCtl h) 31 = true ∧ c.fld (R.cmpCtl h) 30 0 = s.chip.fld (R.cmpCtl h) 30 0 ∧
      c.jrn = { s.chip.jrn with acts := rest } ∧ s.chip.writesOnly c [R.cmpCtl h, R.cmpStat h] ∧ s.chip.raises c [])) ∧
  (∀ (s : State) (t : Stamp) (a : PolicyAct) (rest : List PolicyAct), s.chip.jrn.acts = a :: rest →
    s.chip.bit R.dmcGstat 31 = false → a.action = 2 → s.chip.leader = false → s.chip.twinOn = true →
    Answers (.policyAction t) s (fun c => c.leader = true ∧ c.jrn = { s.chip.jrn with acts := rest } ∧
      c.twn.nextClaim = some (min (bitsNat (s.chip.reg R.twnClaimHigh).toNat 31 8 + 1) 0xFFFFFF * 256 + s.chip.ownClaim % 256) ∧
      s.chip.writesOnly c [R.twnStat] ∧ s.chip.raises c [])) ∧
  (∀ (s : State) (t : Stamp) (a : PolicyAct) (rest : List PolicyAct), s.chip.jrn.acts = a :: rest →
    s.chip.bit R.dmcGstat 31 = false → a.action = 3 → s.chip.leader = true →
    Answers (.policyAction t) s (fun c => c.leader = false ∧ c.jrn = { s.chip.jrn with acts := rest } ∧ c.ownClaim = s.chip.ownClaim ∧
      s.chip.writesOnly c (R.twnStat :: eventRegs) ∧
      s.chip.raises c [⟨0x1006, .room, t, [.val 4 s.chip.ownClaim, .val 4 s.chip.ownClaim, .val 1 0, .val 1 3]⟩])) ∧
  (∀ (s : State) (t : Stamp) (a : PolicyAct) (rest : List PolicyAct) (k : Nat) (b : List Byte), s.chip.jrn.acts = a :: rest →
    s.chip.bit R.dmcGstat 31 = false → a.action = 5 → s.chip.layoutBody a.arg = some b → s.chip.recallPending = false →
    ((layoutOf b).elems ++ (layoutOf b).descs ++ (layoutOf b).regions).all (fun r => r.2.length == 32) = true → s.chip.canonical →
    Answers (.policyAction t) s (fun c => s.chip.layoutTaken c (layoutOf b) k ∧ c.dram = s.chip.dram ∧ c.jrn.acts = rest ∧
      ((s.chip.recallGroup t b 0).pegs ≠ [] → s.chip.submitted c (s.chip.recallGroup t b 0)))) ∧
  (∀ (s : State) (t : Stamp) (a : PolicyAct) (rest : List PolicyAct) (b : List Byte), s.chip.jrn.acts = a :: rest →
    s.chip.bit R.dmcGstat 31 = false → a.action = 6 → s.chip.presetBody a.arg = some b →
    Answers (.policyAction t) s (fun c => c.dram = s.chip.dram ∧ c.jrn.acts = rest ∧
      (presetPegs b 0 ≠ [] → s.chip.submitted c (s.chip.presetGroup t b 0)))) ∧
  (∀ (s : State) (t : Stamp) (a : PolicyAct) (rest : List PolicyAct), s.chip.jrn.acts = a :: rest →
    s.chip.bit R.dmcGstat 31 = false → (a.action = 5 ∧ (s.chip.layoutBody a.arg = none ∨ s.chip.recallPending = true) ∨
      a.action = 6 ∧ s.chip.presetBody a.arg = none) →
    Answers (.policyAction t) s (fun c => c.peg = s.chip.peg ∧ c.jrn.acts = rest ∧
      s.chip.refused c t .policy R.pitCmd (BitVec.ofNat 32 ((a.action - 4) * 2 ^ 28 + a.arg % 4096))
        (if a.action = 5 ∧ s.chip.layoutBody a.arg ≠ none then 2 else 1))) ∧
  (∀ (s : State) (t : Stamp) (a : PolicyAct) (rest : List PolicyAct), s.chip.jrn.acts = a :: rest →
    s.chip.bit R.dmcGstat 31 = false → (a.action < 2 ∨ 6 < a.action ∨ a.action = 2 ∧ (s.chip.leader = true ∨ s.chip.twinOn = false) ∨
      a.action = 3 ∧ s.chip.leader = false ∨
      a.action = 4 ∧ (if a.arg = 0xFF then s.chip.placeHead a.place else some a.arg).all (fun h => decide (32 ≤ h)) = true) →
    Gives (.policyAction t) s { s.chip.at t with jrn := { s.chip.jrn with acts := rest } }) ∧
  (∀ (s : State) (t : Stamp), (s.chip.jrn.acts = [] ∨ s.chip.bit R.dmcGstat 31 = true) → Gives (.policyAction t) s (s.chip.at t)) ∧
  (∀ (s : State) (t : Stamp) (h : Nat), h < 8 →
    Answers (.watchdogSignal t h) s (fun c => c.mgt.harts.find? (fun e => e.1 == h) = some (h, t, false) ∧
      (∀ j, j < 8 → j ≠ h → c.mgt.harts.find? (fun e => e.1 == j) = s.chip.mgt.harts.find? (fun e => e.1 == j)) ∧
      s.chip.writesOnly c [] ∧ s.chip.raises c [])) ∧
  (∀ (s : State) (t last : Stamp) (h : Nat), h < 8 → s.chip.mgt.harts.find? (fun e => e.1 == h) = some (h, last, false) →
    elapsed t last (s.chip.hdr 36 4 * nsPerMs) = true →
    Answers (.watchdogExpire t h) s (fun c => c.mgt.harts.find? (fun e => e.1 == h) = some (h, last, true) ∧
      (∀ j, j < 8 → j ≠ h → c.mgt.harts.find? (fun e => e.1 == j) = s.chip.mgt.harts.find? (fun e => e.1 == j)) ∧
      s.chip.writesOnly c eventRegs ∧
      s.chip.raises c [⟨0x0103, .room, t, [.val 1 h, .val 8 (shortStamp last)]⟩])) ∧
  (∀ (s : State) (t : Stamp) (h : Nat), h < 8 → (s.chip.mgt.harts.find? (fun e => e.1 == h)).all (fun e =>
      e.2.2 || !elapsed t e.2.1 (s.chip.hdr 36 4 * nsPerMs)) = true →
    Gives (.watchdogExpire t h) s (s.chip.at t)) ∧
  (∀ (s : State) (t : Stamp) (l : List (Nat × Int × Int)), l.all (fun x => decide (60 ≤ x.1) && decide (x.1 < 96)) = true →
    Answers (.healthCheck t l) s (fun c => s.chip.writesOnly c eventRegs ∧ c.mgt.harts = s.chip.mgt.harts ∧ c.tx = s.chip.tx)) ∧
  (∀ (s : State) (t : Stamp) (m : Nat) (lo hi v lim : Int), 60 ≤ m → m < 96 → s.chip.isSealed = true →
    s.chip.mgt.sealCrc.all (fun e => e.2 == s.chip.windowCrc e.1) = true →
    m ∉ s.chip.mgt.beyond → s.chip.overLimit m lo hi = some (v, lim) →
    Answers (.healthCheck t [(m, lo, hi)]) s (fun c => c.mgt.beyond = m :: s.chip.mgt.beyond ∧ s.chip.writesOnly c eventRegs ∧
      s.chip.raises c [⟨0x0106, .room, t, [.val 1 m, .val 4 (twosOf 32 v), .val 4 (twosOf 32 lim)]⟩])) ∧
  (∀ (s : State) (t : Stamp) (m : Nat) (lo hi v : Int), 60 ≤ m → m < 96 → s.chip.isSealed = true →
    s.chip.mgt.sealCrc.all (fun e => e.2 == s.chip.windowCrc e.1) = true →
    m ∈ s.chip.mgt.beyond → s.chip.overLimit m lo hi = none →
    v = (if m < 84 then s.chip.sfld (R.ageMon m) 31 0 else (s.chip.fld (R.ageMon m) 15 0 : Nat)) →
    Answers (.healthCheck t [(m, lo, hi)]) s (fun c => c.mgt.beyond = s.chip.mgt.beyond.filter (fun k => k != m) ∧
      s.chip.writesOnly c eventRegs ∧
      s.chip.raises c [⟨0x0106, .room, t, [.val 1 m, .val 4 (twosOf 32 v),
        .val 4 (twosOf 32 (if v - lo < hi - v then lo else hi))]⟩])) ∧
  (∀ (s : State) (t : Stamp) (w want : Nat) (rest : List (Nat × Nat)), s.chip.isSealed = true →
    s.chip.mgt.sealCrc = (w, want) :: rest → want ≠ s.chip.windowCrc w → (w, s.chip.windowCrc w) ∉ s.chip.mgt.crcTold →
    Answers (.healthCheck t []) s (fun c => c.mgt.crcTold = (w, s.chip.windowCrc w) :: s.chip.mgt.crcTold ∧
      s.chip.writesOnly c eventRegs ∧
      s.chip.raises c [⟨0x0105, .room, t, [.val 2 w, .val 4 want, .val 4 (s.chip.windowCrc w)]⟩])) ∧
  (∀ (s : State) (t : Stamp) (l : List (Nat × Int × Int)), l.all (fun x => decide (60 ≤ x.1) && decide (x.1 < 96)) = true →
    s.chip.mgt.sealCrc.all (fun e => e.2 == s.chip.windowCrc e.1 || s.chip.mgt.crcTold.contains (e.1, s.chip.windowCrc e.1)) = true →
    l.all (fun x => s.chip.mgt.beyond.contains x.1 == (s.chip.overLimit x.1 x.2.1 x.2.2).isSome) = true →
    Gives (.healthCheck t l) s (s.chip.at t)) ∧
  (∀ (s : State) (t : Stamp) (l : List (Nat × Int × Int)), s.chip.isSealed = false →
    l.all (fun x => decide (60 ≤ x.1) && decide (x.1 < 96)) = true → Gives (.healthCheck t l) s (s.chip.at t))

/-- R441 to R444: with the port on, a management message of the command's operation that passes every test of R443 — in a part
that is not sealed a READ alone — is counted and answered: READ with each register's value, WRITE of a plain register with
the write done (status 0) or dropped (1), an unmapped or protected address with status 3 and no effect, RECALL and PRESET
acting as `PIT_CMD` does (status 0) or refused (2). A READ changes no register but the accept count and those that report a
violation. R441, R443: with the port on, a message of the command's operation, or of none of the four, that fails a test is
counted by the first test it fails, in the order BADLEN, BADKEY, BADTAG, REPLAY, STALE, and has no other effect than event
0x0201; one that passes them in a part that is not sealed has no effect unless it is a READ; with the port off, or where the
message's operation is another command's, nothing happens. R427, R445: at the target's address an SMBus pointer write sets
the read pointer and nothing else; a block read answers the value at the pointer with status 0, or with status 3 where
nothing readable lies there; a block write to a plain register writes it field by field, and one to an unmapped address does
nothing. A transfer with a wrong PEC is counted and has no other effect; one to another address has none. -/
def Obligations.ManagementAndSmbusAreServed : Prop :=
  (∀ (s : State) (t : Stamp) (m : List Byte) (a p : Nat), s.chip.bit R.mgtCtl 31 = true → leAt m 20 1 = 1 →
    (s.chip.at t).mgtTest m = 0 → (List.range (leAt m 21 1)).all (fun i => s.chip.pruCtlNow 0 / 2 ^ 31 % 2 == 0 ||
      !s.chip.itemMapped (itemAddr (leAt m (24 + 4 * i) 4)) ||
      s.chip.checkCause (itemAccess 0 (itemAddr (leAt m (24 + 4 * i) 4)) 0) == 0) = true →
    Answers (.mgtRead t m a p) s (fun c =>
      s.chip.mgtServed c t m a p ((List.range (leAt m 21 1)).map (fun i =>
        if s.chip.itemMapped (itemAddr (leAt m (24 + 4 * i) 4)) = true then
          (0, if placeOf s.chip.dramCap (itemAddr (leAt m (24 + 4 * i) 4)) = .register then
              (c.readReg (itemAddr (leAt m (24 + 4 * i) 4))).toNat
            else leNat (c.tableRead (itemAddr (leAt m (24 + 4 * i) 4) - tableBase) 4)) else (3, 0))) ∧
      s.chip.writesOnly c [R.mgtCnt 0] ∧ s.chip.raises c [])) ∧
  (∀ (s : State) (t : Stamp) (m : List Byte) (a p : Nat), s.chip.bit R.mgtCtl 31 = true → leAt m 20 1 = 1 →
    (s.chip.at t).mgtTest m = 0 →
    Answers (.mgtRead t m a p) s (fun c => c.tx.length = s.chip.tx.length + 1 ∧ c.tx.take s.chip.tx.length = s.chip.tx ∧
      c.mgt.seqs = (leAt m 3 1, leAt m 4 8) :: s.chip.mgt.seqs.filter (fun e => e.1 != leAt m 3 1) ∧
      s.chip.writesOnly c ([R.mgtCnt 0, R.pruFcnt 0, R.pruFrec 0, R.pruFrecAddrLo 0, R.pruFrecAddrHi 0, R.pruFrecStampLo 0,
        R.pruFrecStampHi 0] ++ eventRegs))) ∧
  (∀ (s : State) (t : Stamp) (m : List Byte) (a p x : Nat) (w : Word), s.chip.bit R.mgtCtl 31 = true → s.chip.isSealed = true →
    leAt m 20 1 = 2 → leAt m 21 1 = 1 → (s.chip.at t).mgtTest m = 0 → x = itemAddr (leAt m 24 4) → w = BitVec.ofNat 32 (leAt m 28 4) →
    placeOf s.chip.dramCap x = .register → s.chip.passes (itemAccess 1 x w) → roleOf x = .plain →
    (onAnalogue x = false ∨ s.chip.d2dUp = true) →
    Answers (.mgtWrite t m a p) s (fun c =>
      s.chip.mgtServed c t m a p [(if s.chip.dropsWrite x w = true then 1 else 0, 0)] ∧
      (x ≠ R.mgtCnt 0 → s.chip.itemWritten c t x w) ∧ s.chip.writesOnly c (x :: R.mgtCnt 0 :: dropRegs))) ∧
  (∀ (s : State) (t : Stamp) (m : List Byte) (a p : Nat), s.chip.bit R.mgtCtl 31 = true → s.chip.isSealed = true →
    leAt m 20 1 = 2 → (s.chip.at t).mgtTest m = 0 → (List.range (leAt m 21 1)).all (fun i =>
      !s.chip.itemMapped (itemAddr (leAt m (24 + 8 * i) 4))) = true →
    Answers (.mgtWrite t m a p) s (fun c => s.chip.mgtServed c t m a p (List.replicate (leAt m 21 1) (3, 0)) ∧
      s.chip.writesOnly c [R.mgtCnt 0] ∧ s.chip.raises c [])) ∧
  (∀ (s : State) (t : Stamp) (m : List Byte) (a p : Nat), s.chip.bit R.mgtCtl 31 = true → s.chip.isSealed = true →
    leAt m 20 1 = 2 → (s.chip.at t).mgtTest m = 0 →
    Answers (.mgtWrite t m a p) s (fun c => c.mgt.seqs = (leAt m 3 1, leAt m 4 8) :: s.chip.mgt.seqs.filter (fun e => e.1 != leAt m 3 1) ∧
      c.tx.getLast?.any (fun x => x.mgtHead == some (s.chip.bit R.mgtCtl 30, a, p, m.take 12, 0x82, leAt m 21 1)) = true)) ∧
  (∀ (s : State) (t : Stamp) (m : List Byte) (a p k : Nat) (b : List Byte), s.chip.bit R.mgtCtl 31 = true → s.chip.isSealed = true →
    leAt m 20 1 = 3 → (s.chip.at t).mgtTest m = 0 → s.chip.layoutBody (leAt m 24 4) = some b → s.chip.recallPending = false →
    s.chip.tooSoon t (leAt m 28 8) = false → s.chip.canonical → (layoutOf b).regs = [] →
    ((layoutOf b).elems ++ (layoutOf b).descs ++ (layoutOf b).regions).all (fun r => r.2.length == 32) = true →
    (s.chip.recallGroup t b (leAt m 28 8)).pegs ≠ [] →
    Answers (.mgtRecall t m a p) s (fun c => s.chip.mgtServed c t m a p [(0, 0)] ∧ s.chip.layoutTaken c (layoutOf b) k ∧
      s.chip.submitted c (s.chip.recallGroup t b (leAt m 28 8)))) ∧
  (∀ (s : State) (t : Stamp) (m : List Byte) (a p : Nat) (b : List Byte), s.chip.bit R.mgtCtl 31 = true → s.chip.isSealed = true →
    leAt m 20 1 = 4 → (s.chip.at t).mgtTest m = 0 → s.chip.presetBody (leAt m 24 4) = some b →
    s.chip.tooSoon t (leAt m 28 8) = false → presetPegs b 0 ≠ [] →
    Answers (.mgtPreset t m a p) s (fun c => s.chip.mgtServed c t m a p [(0, 0)] ∧
      s.chip.submitted c (s.chip.presetGroup t b (leAt m 28 8)))) ∧
  (∀ (s : State) (t : Stamp) (m : List Byte) (a p : Nat), s.chip.bit R.mgtCtl 31 = true → s.chip.isSealed = true →
    leAt m 20 1 = 3 → (s.chip.at t).mgtTest m = 0 → (s.chip.layoutBody (leAt m 24 4) = none ∨ s.chip.recallPending = true ∨
      s.chip.tooSoon t (leAt m 28 8) = true) →
    Answers (.mgtRecall t m a p) s (fun c => s.chip.mgtServed c t m a p [(2, 0)] ∧ c.peg = s.chip.peg ∧
      s.chip.writesOnly c (R.mgtCnt 0 :: refusalRegs R.pitCmd))) ∧
  (∀ (s : State) (t : Stamp) (m : List Byte) (a p : Nat), s.chip.bit R.mgtCtl 31 = true → s.chip.isSealed = true →
    leAt m 20 1 = 4 → (s.chip.at t).mgtTest m = 0 → (s.chip.presetBody (leAt m 24 4) = none ∨ s.chip.tooSoon t (leAt m 28 8) = true) →
    Answers (.mgtPreset t m a p) s (fun c => s.chip.mgtServed c t m a p [(2, 0)] ∧ c.peg = s.chip.peg ∧
      s.chip.writesOnly c (R.mgtCnt 0 :: refusalRegs R.pitCmd))) ∧
  (∀ (s : State) (t : Stamp) (m : List Byte) (a p : Nat), s.chip.bit R.mgtCtl 31 = true → (s.chip.at t).mgtTest m ≠ 0 →
    (leAt m 20 1 = 1 ∨ leAt m 20 1 = 0 ∨ 4 < leAt m 20 1) →
    Answers (.mgtRead t m a p) s (fun c => s.chip.mgtFailed c t m ((s.chip.at t).mgtTest m))) ∧
  (∀ (s : State) (t : Stamp) (m : List Byte) (a p : Nat), s.chip.bit R.mgtCtl 31 = true → (s.chip.at t).mgtTest m ≠ 0 →
    (leAt m 20 1 = 2 ∨ leAt m 20 1 = 0 ∨ 4 < leAt m 20 1) →
    Answers (.mgtWrite t m a p) s (fun c => s.chip.mgtFailed c t m ((s.chip.at t).mgtTest m))) ∧
  (∀ (s : State) (t : Stamp) (m : List Byte) (a p : Nat), s.chip.bit R.mgtCtl 31 = true → (s.chip.at t).mgtTest m ≠ 0 →
    (leAt m 20 1 = 3 ∨ leAt m 20 1 = 0 ∨ 4 < leAt m 20 1) →
    Answers (.mgtRecall t m a p) s (fun c => s.chip.mgtFailed c t m ((s.chip.at t).mgtTest m))) ∧
  (∀ (s : State) (t : Stamp) (m : List Byte) (a p : Nat), s.chip.bit R.mgtCtl 31 = true → (s.chip.at t).mgtTest m ≠ 0 →
    (leAt m 20 1 = 4 ∨ leAt m 20 1 = 0 ∨ 4 < leAt m 20 1) →
    Answers (.mgtPreset t m a p) s (fun c => s.chip.mgtFailed c t m ((s.chip.at t).mgtTest m))) ∧
  (∀ (s : State) (t : Stamp) (m : List Byte), ((s.chip.at t).mgtTest m = 2 → s.chip.mgt.keys.all (fun e => e.1 != leAt m 3 1) = true) ∧
    ((s.chip.at t).mgtTest m = 4 → s.chip.mgt.seqs.any (fun e => e.1 == leAt m 3 1 && decide (leAt m 4 8 ≤ e.2)) = true) ∧
    ((s.chip.at t).mgtTest m = 5 → s.chip.tbState ≠ 5 ∧ 2 * nsPerS < (stampGap (leAt m 12 8) t).natAbs) ∧
    ((s.chip.at t).mgtTest m = 0 → (s.chip.mgt.keys.find? (fun e => e.1 == leAt m 3 1)).any (fun e =>
      hmac e.2 (m.take (m.length - 32)) == m.drop (m.length - 32)) = true)) ∧
  (∀ (s : State) (t : Stamp) (m : List Byte) (a p : Nat), s.chip.isSealed = false → (s.chip.at t).mgtTest m = 0 →
    Gives (.mgtWrite t m a p) s (s.chip.at t) ∧ Gives (.mgtRecall t m a p) s (s.chip.at t) ∧
    Gives (.mgtPreset t m a p) s (s.chip.at t)) ∧
  (∀ (s : State) (t : Stamp) (m : List Byte) (a p : Nat), s.chip.bit R.mgtCtl 31 = false →
    Gives (.mgtRead t m a p) s (s.chip.at t) ∧ Gives (.mgtWrite t m a p) s (s.chip.at t) ∧
    Gives (.mgtRecall t m a p) s (s.chip.at t) ∧ Gives (.mgtPreset t m a p) s (s.chip.at t)) ∧
  (∀ (s : State) (t : Stamp) (m : List Byte) (a p : Nat), 1 ≤ leAt m 20 1 → leAt m 20 1 ≤ 4 → leAt m 20 1 ≠ 1 →
    Gives (.mgtRead t m a p) s (s.chip.at t)) ∧
  (∀ (s : State) (t : Stamp) (m : List Byte) (a p : Nat), 1 ≤ leAt m 20 1 → leAt m 20 1 ≤ 4 → leAt m 20 1 ≠ 2 →
    Gives (.mgtWrite t m a p) s (s.chip.at t)) ∧
  (∀ (s : State) (t : Stamp) (m : List Byte) (a p : Nat), 1 ≤ leAt m 20 1 → leAt m 20 1 ≤ 4 → leAt m 20 1 ≠ 3 →
    Gives (.mgtRecall t m a p) s (s.chip.at t)) ∧
  (∀ (s : State) (t : Stamp) (m : List Byte) (a p : Nat), 1 ≤ leAt m 20 1 → leAt m 20 1 ≤ 4 → leAt m 20 1 ≠ 4 →
    Gives (.mgtPreset t m a p) s (s.chip.at t)) ∧
  (∀ (s : State) (t : Stamp) (d o : Nat), d = s.chip.fld R.mgtSmb 6 0 → o < 2 ^ 32 →
    Answers (.smbSetPointer t d o true) s (fun c => c.mgt = { s.chip.mgt with pointer := o } ∧ c.tx = s.chip.tx ∧
      s.chip.writesOnly c [] ∧ s.chip.raises c [])) ∧
  (∀ (s : State) (t : Stamp) (d : Nat), d = s.chip.fld R.mgtSmb 6 0 →
    placeOf s.chip.dramCap (itemAddr s.chip.mgt.pointer) = .register → s.chip.passes (itemAccess 0 (itemAddr s.chip.mgt.pointer) 0) →
    Answers (.smbBlockRead t d true) s (fun c =>
      c.tx = s.chip.tx ++ [.smb (leBytes 4 ((s.chip.at t).readReg (itemAddr s.chip.mgt.pointer)).toNat ++ [0])] ∧
      c.mgt = s.chip.mgt ∧ s.chip.writesOnly c [] ∧ s.chip.raises c [])) ∧
  (∀ (s : State) (t : Stamp) (d : Nat), d = s.chip.fld R.mgtSmb 6 0 →
    placeOf s.chip.dramCap (itemAddr s.chip.mgt.pointer) = .table → s.chip.passes (itemAccess 0 (itemAddr s.chip.mgt.pointer) 0) →
    Answers (.smbBlockRead t d true) s (fun c =>
      c.tx = s.chip.tx ++ [.smb (leBytes 4 (leNat ((s.chip.at t).tableRead (itemAddr s.chip.mgt.pointer - tableBase) 4)) ++ [0])] ∧
      c.mgt = s.chip.mgt ∧ s.chip.writesOnly c [] ∧ s.chip.raises c [])) ∧
  (∀ (s : State) (t : Stamp) (d : Nat), d = s.chip.fld R.mgtSmb 6 0 →
    (s.chip.itemMapped (itemAddr s.chip.mgt.pointer) = false ∨ ¬ s.chip.passes (itemAccess 0 (itemAddr s.chip.mgt.pointer) 0)) →
    Answers (.smbBlockRead t d true) s (fun c => c.tx = s.chip.tx ++ [.smb [0, 0, 0, 0, 3]] ∧ c.mgt = s.chip.mgt ∧
      (s.chip.itemMapped (itemAddr s.chip.mgt.pointer) = false → s.chip.writesOnly c [] ∧ s.chip.raises c []))) ∧
  (∀ (s : State) (t : Stamp) (d o : Nat) (w : Word), d = s.chip.fld R.mgtSmb 6 0 → o < 2 ^ 32 →
    placeOf s.chip.dramCap (itemAddr o) = .register → s.chip.passes (itemAccess 1 (itemAddr o) w) → roleOf (itemAddr o) = .plain →
    (onAnalogue (itemAddr o) = false ∨ s.chip.d2dUp = true) →
    Answers (.smbBlockWrite t d o w true) s (fun c => s.chip.itemWritten c t (itemAddr o) w ∧
      c.mgt = s.chip.mgt ∧ c.tx = s.chip.tx ∧ s.chip.writesOnly c (itemAddr o :: dropRegs))) ∧
  (∀ (s : State) (t : Stamp) (d o : Nat) (w : Word), d = s.chip.fld R.mgtSmb 6 0 → o < 2 ^ 32 →
    s.chip.itemMapped (itemAddr o) = false → Gives (.smbBlockWrite t d o w true) s (s.chip.at t)) ∧
  (∀ (s : State) (t : Stamp) (d o : Nat) (w : Word), d = s.chip.fld R.mgtSmb 6 0 → o < 2 ^ 32 →
    ¬ s.chip.passes (itemAccess 1 (itemAddr o) w) →
    Answers (.smbBlockWrite t d o w true) s (fun c => c.mgt = s.chip.mgt ∧ s.chip.writesOnly c ([R.pruFcnt 0, R.pruFrec 0,
      R.pruFrecAddrLo 0, R.pruFrecAddrHi 0, R.pruFrecStampLo 0, R.pruFrecStampHi 0] ++ eventRegs))) ∧
  (∀ (s : State) (t : Stamp) (d o : Nat) (w : Word), d = s.chip.fld R.mgtSmb 6 0 → o < 2 ^ 32 →
    Gives (.smbBlockWrite t d o w false) s ((s.chip.at t).bump (R.mgtCnt 6)) ∧
    Gives (.smbSetPointer t d o false) s ((s.chip.at t).bump (R.mgtCnt 6)) ∧
    Gives (.smbBlockRead t d false) s ((s.chip.at t).bump (R.mgtCnt 6))) ∧
  (∀ (s : State) (t : Stamp) (d o : Nat) (w : Word) (pec : Bool), d ≠ s.chip.fld R.mgtSmb 6 0 → o < 2 ^ 32 →
    Gives (.smbBlockWrite t d o w pec) s (s.chip.at t) ∧ Gives (.smbSetPointer t d o pec) s (s.chip.at t) ∧
    Gives (.smbBlockRead t d pec) s (s.chip.at t))

/-- R19, R23, R24, R459, R460, R478: a refresh writes the replicas' slacks (255 at most) and the core die's temperatures into
their monitors and the loop's droop and slack into `AGE_AVS_STAT`; over the trained die-to-die link the analogue die's
temperatures and each rail's lowest and present reading go into theirs, and while it is down they wait in its queue. A
measurement of the ring pairs writes each pair's degradation in ppm, and the pairs whose degradation exceeds the limit for
the first time each raise 0x0407. R461, R462: the voltage loop raises VSET by 2.5 mV up to 850 mV where the slack is below
the target and lowers it above target + 2 down to its bound, and sends every new set-point; it keeps the lowest slack and the
largest fall between two readings, and since when the slack has been below FLOOR at 850 mV, or at FLOOR and above. Below
FLOOR at 850 mV for 1 s raises 0x0406 once; it is raised again only once the slack has been at FLOOR or above for 60 s. -/
def Obligations.MonitorsAndCoreVoltageFollowReadings : Prop :=
  (∀ (s : State) (t : Stamp) (slacks : List Nat) (temps : List Int) (rails : List (Nat × Nat)), slacks.length = 16 →
    temps.length = 24 → rails.length = 12 →
    Answers (.monitorRefresh t slacks temps rails) s (fun c =>
      (∀ i, i < 16 → c.reg (R.ageMon (44 + i)) = BitVec.ofNat 32 (min 255 (slacks.getD i 0))) ∧
      (∀ i, i < 20 → c.reg (R.ageMon (60 + i)) = BitVec.ofInt 32 (temps.getD i 0)) ∧
      c.fld R.ageAvsStat 31 16 = s.chip.fld R.ageAvsStat 31 16 ∧ c.fld R.ageAvsStat 15 8 = min 255 s.chip.age.droop ∧
      c.fld R.ageAvsStat 7 0 = s.chip.age.lowSlack % 256 ∧ c.age = { s.chip.age with lowSlack := 255, droop := 0 } ∧
      s.chip.writesOnly c ([R.ageAvsStat, R.sysD2dStat] ++ (List.range 52).map (fun i => R.ageMon (44 + i))) ∧ s.chip.raises c [])) ∧
  (∀ (s : State) (t : Stamp) (slacks : List Nat) (temps : List Int) (rails : List (Nat × Nat)), slacks.length = 16 →
    temps.length = 24 → rails.length = 12 → s.chip.d2dUp = true →
    Answers (.monitorRefresh t slacks temps rails) s (fun c =>
      (∀ i, i < 24 → c.reg (R.ageMon (60 + i)) = BitVec.ofInt 32 (temps.getD i 0)) ∧
      (∀ i, i < 12 → c.fld (R.ageMon (84 + i)) 31 16 = (rails.getD i (0, 0)).1 % 65536 ∧
        c.fld (R.ageMon (84 + i)) 15 0 = (rails.getD i (0, 0)).2 % 65536) ∧
      c.d2dQueue = s.chip.d2dQueue ∧ c.reg R.sysD2dStat = s.chip.reg R.sysD2dStat)) ∧
  (∀ (s : State) (t : Stamp) (slacks : List Nat) (temps : List Int) (rails : List (Nat × Nat)), slacks.length = 16 →
    temps.length = 24 → rails.length = 12 → s.chip.d2dUp = false →
    Answers (.monitorRefresh t slacks temps rails) s (fun c =>
      (∀ i, i < 16 → c.reg (R.ageMon (80 + i)) = s.chip.reg (R.ageMon (80 + i))) ∧
      s.chip.queued c s.chip.d2dQueue c.d2dQueue (.sensors
        ((List.range 4).map (fun i => (R.ageMon (80 + i), BitVec.ofInt 32 (temps.getD (20 + i) 0))) ++
          (List.range 12).map (fun i => (R.ageMon (84 + i), BitVec.ofNat 32 ((rails.getD i (0, 0)).1 % 65536 * 65536 +
            (rails.getD i (0, 0)).2 % 65536))))))) ∧
  (∀ (s : State) (t : Stamp) (l : List (Nat × Nat)) (i ns nu : Nat), l.length = 44 → i < 44 → l.getD i (0, 0) = (ns, nu) → nu ≠ 0 →
    (s.chip.reg (R.ageRoref i)).toNat ≠ 0 →
    Answers (.roMeasure t l) s (fun c =>
      c.reg (R.ageMon i) = BitVec.ofInt 32 (Int.fdiv ((((s.chip.reg (R.ageRoref i)).toNat : Int) - (ns * 2 ^ 24 / nu : Nat)) * 1000000)
        (s.chip.reg (R.ageRoref i)).toNat))) ∧
  (∀ (s : State) (t : Stamp) (l : List (Nat × Nat)) (past : List Nat), l.length = 44 →
    past = (List.range 44).filter (fun i =>
      decide ((s.chip.fld R.ageRolim 19 0 : Int) < s.chip.degradation i (l.getD i (0, 0)).1 (l.getD i (0, 0)).2) && !s.chip.age.dlimTold.contains i) →
    Answers (.roMeasure t l) s (fun c => c.age = { s.chip.age with dlimTold := past.reverse ++ s.chip.age.dlimTold } ∧
      (∀ i, i < 44 → c.reg (R.ageMon i) = BitVec.ofInt 32 (s.chip.degradation i (l.getD i (0, 0)).1 (l.getD i (0, 0)).2)) ∧
      c.tx = s.chip.tx ∧
      s.chip.writesOnly c ((List.range 44).map R.ageMon ++ eventRegs) ∧
      s.chip.raises c (past.map (fun i => ⟨0x0407, .room, t, [.val 1 i,
        .val 4 (twosOf 32 (s.chip.degradation i (l.getD i (0, 0)).1 (l.getD i (0, 0)).2))]⟩)))) ∧
  (∀ (s : State) (t : Stamp) (k v : Nat), k < 256 →
    v = (if k < s.chip.fld R.ageAvsTgt 7 0 ∧ s.chip.fld R.ageAvsStat 31 16 < 8500 then min 8500 (s.chip.fld R.ageAvsStat 31 16 + 25)
      else if s.chip.fld R.ageAvsTgt 7 0 + 2 < k ∧ s.chip.fld R.ageAvs 25 16 * 10 < s.chip.fld R.ageAvsStat 31 16
        then max (s.chip.fld R.ageAvs 25 16 * 10) (s.chip.fld R.ageAvsStat 31 16 - 25) else s.chip.fld R.ageAvsStat 31 16) →
    Answers (.avsStep t k) s (fun c => c.fld R.ageAvsStat 31 16 = v ∧ c.fld R.ageAvsStat 15 0 = s.chip.fld R.ageAvsStat 15 0 ∧
      c.tx = s.chip.tx ++ (if v = s.chip.fld R.ageAvsStat 31 16 then [] else [.avs v]) ∧
      c.age.prev = some k ∧ c.age.lowSlack = min s.chip.age.lowSlack k ∧
      c.age.droop = max s.chip.age.droop ((s.chip.age.prev.getD k) - k) ∧
      c.age.belowSince = (if v = 8500 ∧ k < s.chip.fld R.ageAvs 7 0 then some (s.chip.age.belowSince.getD t) else none) ∧
      c.age.aboveSince = (if s.chip.fld R.ageAvs 7 0 ≤ k then some (s.chip.age.aboveSince.getD t) else none) ∧
      (c.age.floorTold = true ↔ s.chip.age.floorTold = true ∧
        (k < s.chip.fld R.ageAvs 7 0 ∨ elapsed t (s.chip.age.aboveSince.getD t) (60 * nsPerS) = false)) ∧
      c.age.seconds.head?.any (fun e => e.1 == t / nsPerS && decide (c.voltTerm ≤ e.2.1) &&
        decide ((s.chip.age.prev.getD k) - k ≤ e.2.2)) = true ∧
      c.age.sweeps = s.chip.age.sweeps ∧ c.age.plans = s.chip.age.plans ∧ c.age.changes = s.chip.age.changes ∧
      s.chip.writesOnly c [R.ageAvsStat] ∧ s.chip.raises c [])) ∧
  (∀ (s : State) (t : Stamp) (k : Nat), k < s.chip.fld R.ageAvsTgt 7 0 → s.chip.fld R.ageAvsStat 31 16 < 8500 →
    Answers (.avsStep t k) s (fun c => c.fld R.ageAvsStat 31 16 = min 8500 (s.chip.fld R.ageAvsStat 31 16 + 25) ∧
      c.tx = s.chip.tx ++ [.avs (min 8500 (s.chip.fld R.ageAvsStat 31 16 + 25))] ∧
      s.chip.writesOnly c [R.ageAvsStat] ∧ s.chip.raises c [])) ∧
  (∀ (s : State) (t : Stamp) (k : Nat), k < 256 → s.chip.fld R.ageAvsTgt 7 0 + 2 < k →
    s.chip.fld R.ageAvs 25 16 * 10 < s.chip.fld R.ageAvsStat 31 16 →
    Answers (.avsStep t k) s (fun c =>
      c.fld R.ageAvsStat 31 16 = max (s.chip.fld R.ageAvs 25 16 * 10) (s.chip.fld R.ageAvsStat 31 16 - 25) ∧
      c.tx = s.chip.tx ++ [.avs (max (s.chip.fld R.ageAvs 25 16 * 10) (s.chip.fld R.ageAvsStat 31 16 - 25))] ∧
      s.chip.writesOnly c [R.ageAvsStat] ∧ s.chip.raises c [])) ∧
  (∀ (s : State) (t : Stamp) (k : Nat), k < 256 → s.chip.fld R.ageAvsTgt 7 0 ≤ k → k ≤ s.chip.fld R.ageAvsTgt 7 0 + 2 →
    Answers (.avsStep t k) s (fun c => c.tx = s.chip.tx ∧ c.age.prev = some k ∧ c.age.lowSlack = min s.chip.age.lowSlack k ∧
      s.chip.writesOnly c [] ∧ s.chip.raises c [])) ∧
  (∀ (s : State) (t b : Stamp), s.chip.age.belowSince = some b → s.chip.age.floorTold = false →
    elapsed t b nsPerS = true →
    Answers (.avsFloorTimeout t) s (fun c => c.age = { s.chip.age with floorTold := true } ∧ s.chip.writesOnly c eventRegs ∧
      s.chip.raises c [⟨0x0406, .room, t, [.val 1 0, .val 1 0, .val 1 0, .val 4 (s.chip.age.prev.getD 0 % 2 ^ 32)]⟩])) ∧
  (∀ (s : State) (t : Stamp), (s.chip.age.floorTold = true ∨
      s.chip.age.belowSince.all (fun b => !elapsed t b nsPerS) = true) →
    Gives (.avsFloorTimeout t) s (s.chip.at t))

/-- R463 to R465: a channel's sweep is kept as its latest, with its end, its eyes and windows, each the run of offsets around 0
without errors, and the channel's `TRACK`; it leaves the helper set as its last run has it, and writes within the row of
`DMC_SWEEP` alone. A lane's first eye since the last plan is kept, and of the later ones the lowest height and width; in the
hour before plan time the heights at the neighbouring settings are kept likewise, at other times they are not. R463, R467 to
R473, R476: the plan comes at PLAN_SEC of the day, at most once in it, at least 24 h after seal: it is counted and published
with its stamp, kept for the forecasts with the ballasts, shows each domain's ballast and forecast, and raises 0x0404; each
channel without a sweep of the last 6 hours raises 0x0408. Every change that it schedules lies at least the announcement
ahead, inside an enabled window that permits its domain, names a trim register, moves TGT by at most 2 steps or a lane's CTLE
by one, and is in a group with WINDOW 500 µs; the plan itself writes no trim register. At any other time, with the planner
off or before seal nothing happens. R474, R478: a re-measured change leaves the list with 0x0402, margin before and after,
and is counted. One that lost more than one step and is no reversal is counted as reversed, and its reversal scheduled: the
bits that it moved go back to what they were; where no window of the next 7 days permits it, it is dropped with 0x0403. Where
no executed change of that number waits, or the 60 s of a core or SerDes change have not passed, nothing happens. -/
def Obligations.SweepsEyesPlansAndRemeasures : Prop :=
  (∀ (s : State) (t : Stamp) (n : Nat) (rd wr rv wv : List (List Nat)), n < 16 →
    rd.length = 18 → wr.length = 18 → rv.length = 18 → wv.length = 18 → (rd ++ wr).all (fun e => e.length == 128) = true →
    (rv ++ wv).all (fun e => e.length == 32) = true →
    Answers (.dramMarginSweep t n rd wr rv wv) s (fun c =>
      (c.age.sweeps.find? (fun e => e.1 == n)).any (fun e => e.2.done == t && e.2.track == s.chip.fld (R.dmcOsc n) 8 0 &&
        e.2.rd.length == 18 && e.2.wr.length == 18 && e.2.rv.length == 18 && e.2.wv.length == 18 &&
        (List.range 18).all (fun b => isEye 64 (rd.getD b []) (e.2.rd.getD b none) && isEye 64 (wr.getD b []) (e.2.wr.getD b none) &&
          isEye 16 (rv.getD b []) (e.2.rv.getD b none) && isEye 16 (wv.getD b []) (e.2.wv.getD b none))) = true ∧
      (∀ m, m < 16 → m ≠ n → c.age.sweeps.find? (fun e => e.1 == m) = s.chip.age.sweeps.find? (fun e => e.1 == m)) ∧
      c.age.plans = s.chip.age.plans ∧ c.age.changes = s.chip.age.changes ∧ c.age.eyes = s.chip.age.eyes ∧
      c.fld (R.dmcTrnRow n) 16 0 = s.chip.fld R.dmcSweep 16 0 ∧ c.fld (R.dmcTrnCtl n) 25 24 = 0 ∧ c.fld (R.dmcTrnCtl n) 18 16 = 2 ∧
      c.reg (R.dmcTrnCnt n) = 32 ∧ c.bit (R.dmcTrnRes n) 31 = true ∧ (c.chan n).running = false ∧
      (c.chan n).queue = (s.chip.chan n).queue ∧
      s.chip.storesOnly c ([R.dmcTrnCtl n, R.dmcTrnRow n, R.dmcTrnCnt n, R.dmcTrnOfs n, R.dmcTrnRes n, R.dmcChStat n] ++
        (List.range 18).map (R.dmcTrnErr n)) (dramBase + s.chip.fld R.dmcSweep 16 0 * 2 ^ 19) (2 ^ 19) ∧ s.chip.raises c [])) ∧
  (∀ (s : State) (t : Stamp) (l h w : Nat) (near : Option (Nat × Nat)), l < 12 → h < 1024 → w < 128 →
    Answers (.eyeMeasure t l h w near) s (fun c =>
      c.fld (R.ageEye l) 9 0 = (if l ∈ s.chip.age.eyes then min h (s.chip.fld (R.ageEye l) 9 0) else h) ∧
      c.fld (R.ageEye l) 22 16 = (if l ∈ s.chip.age.eyes then min w (s.chip.fld (R.ageEye l) 22 16) else w) ∧
      l ∈ c.age.eyes ∧ (∀ m, m < 12 → m ≠ l → (m ∈ c.age.eyes ↔ m ∈ s.chip.age.eyes) ∧
        c.age.near.find? (fun e => e.1 == m) = s.chip.age.near.find? (fun e => e.1 == m)) ∧
      (((s.chip.fld R.ageCtl 16 0 + 86400 - t / nsPerS % 86400) % 86400 = 0 ∨
        3600 < (s.chip.fld R.ageCtl 16 0 + 86400 - t / nsPerS % 86400) % 86400) → c.age.near = s.chip.age.near) ∧
      s.chip.writesOnly c [R.ageEye l] ∧ s.chip.raises c [])) ∧
  (∀ (s : State) (t : Stamp) (l h w p q left : Nat), l < 12 → h < 1024 → w < 128 →
    left = (s.chip.fld R.ageCtl 16 0 + 86400 - t / nsPerS % 86400) % 86400 → 1 ≤ left → left ≤ 3600 →
    Answers (.eyeMeasure t l h w (some (p, q))) s (fun c => c.age.near.find? (fun e => e.1 == l) =
      some (((s.chip.age.near.find? (fun e => e.1 == l)).map (fun e => (l, min p e.2.1, min q e.2.2))).getD (l, p, q)))) ∧
  (∀ (s : State) (t x : Stamp), s.chip.bit R.ageCtl 31 = true → t / nsPerS % 86400 = s.chip.fld R.ageCtl 16 0 →
    s.chip.pitch.sealAt = some x → elapsed t x (86400 * nsPerS) = true →
    s.chip.age.plans.any (fun p => p.1 / nsPerS == t / nsPerS) = false →
    Answers (.plan t) s (fun c => c.age.plans = (s.chip.age.plans ++ [(t, [some (s.chip.at t).coreBallast.value,
        (s.chip.at t).dramBallast.map (fun b => b.value), s.chip.serBallast.map (fun b => b.value)])]).drop
          (s.chip.age.plans.length - 89) ∧
      c.age.eyes = [] ∧ c.age.near = [] ∧ c.age.sweeps = s.chip.age.sweeps ∧
      c.bit R.ageRes 31 = true ∧ c.fld R.ageRes 15 0 = (s.chip.fld R.ageRes 15 0 + 1) % 65536 ∧
      c.wide R.ageResPlanLo R.ageResPlanHi = shortStamp t ∧
      c.reg (R.ageCnt 0) = (s.chip.bump (R.ageCnt 0)).reg (R.ageCnt 0) ∧
      c.fld (R.ageResDom 0) 15 0 = twosOf 16 (s.chip.at t).coreBallast.value ∧
      c.fld (R.ageResDom 0) 31 16 = ((forecast (s.chip.fld R.ageResv 31 16) (fitPoints 0 c.age.plans)).map (fun d => min d 65534)).getD 0xFFFF ∧
      c.fld (R.ageResDom 1) 31 16 = ((forecast (s.chip.fld R.ageResv 15 8) (fitPoints 1 c.age.plans)).map (fun d => min d 65534)).getD 0xFFFF ∧
      c.fld (R.ageResDom 2) 31 16 = ((forecast (s.chip.fld R.ageResv 7 0) (fitPoints 2 c.age.plans)).map (fun d => min d 65534)).getD 0xFFFF ∧
      c.tx = s.chip.tx ∧ c.dram = s.chip.dram ∧ c.evq.take s.chip.evq.length = s.chip.evq ∧
      (c.evq.length < evqCap → c.evq.getLast?.any (fun e => e.code == 0x0404 && e.stamp == t) = true) ∧
      (c.evq.length < evqCap → (List.range 16).all (fun n => !((s.chip.at t).freshSweeps.any (fun e => e.1 == n)) ==
        (c.evq.drop s.chip.evq.length).contains ⟨0x0408, .room, t, [.val 1 1, .val 1 n]⟩) = true))) ∧
  (∀ (s : State) (t x : Stamp), s.chip.bit R.ageCtl 31 = true → t / nsPerS % 86400 = s.chip.fld R.ageCtl 16 0 →
    s.chip.pitch.sealAt = some x → elapsed t x (86400 * nsPerS) = true →
    s.chip.age.plans.any (fun p => p.1 / nsPerS == t / nsPerS) = false → s.chip.stagerIdle →
    (List.range 4).all (fun i => decide (0 < s.chip.fld (R.ageWin i) 15 0) && decide (s.chip.fld (R.ageWinStart i) 16 0 < 86400)) = true →
    s.chip.age.changes.all (fun y => decide (y.id < s.chip.age.nextId)) = true →
    Answers (.plan t) s (fun c => c.age.changes.take s.chip.age.changes.length = s.chip.age.changes ∧
      (c.age.changes.drop s.chip.age.changes.length).all (fun y =>
        decide (t + s.chip.fld R.ageAnn 15 0 * nsPerS ≤ y.launch) && s.chip.inWindow y.domain y.launch &&
        (y.reg == R.ageAvsTgt || (List.range 12).any (fun l => y.reg == R.ageEq l) ||
          (List.range 16).any (fun n => y.reg == R.dmcTrimVref n || (List.range 18).any (fun b => y.reg == R.dmcTrim n b))) &&
        (y.domain != 0 || y.reg == R.ageAvsTgt && decide (bitsOf y.new 7 0 ≤ bitsOf y.old 7 0 + 2) &&
          decide (bitsOf y.old 7 0 ≤ bitsOf y.new 7 0 + 2)) &&
        (y.domain != 2 || decide (bitsOf y.new 3 0 ≤ bitsOf y.old 3 0 + 1) && decide (bitsOf y.old 3 0 ≤ bitsOf y.new 3 0 + 1)) &&
        (c.peg.fwNow.toList ++ c.peg.fwNext).any (fun g => g.use == .change y.id && g.group == y.group &&
          g.pegs.all (fun p => p.launch == y.launch && p.window == 500) &&
          g.pegs.getLast?.any (fun p => p.writes == [(y.reg, y.new)]))) = true ∧
      c.peg.pegs = s.chip.peg.pegs ∧
      s.chip.writesOnly c (fwRegs ++ [R.ageRes, R.ageResPlanLo, R.ageResPlanHi, R.ageResDmax] ++ (List.range 3).map R.ageResDom ++
        (List.range 5).map R.ageCnt ++ eventRegs))) ∧
  (∀ (s : State) (t x T : Stamp) (g room new : Nat), s.chip.bit R.ageCtl 31 = true → t / nsPerS % 86400 = s.chip.fld R.ageCtl 16 0 →
    s.chip.pitch.sealAt = some x → elapsed t x (86400 * nsPerS) = true →
    s.chip.age.plans.any (fun p => p.1 / nsPerS == t / nsPerS) = false →
    s.chip.age.changes.any (fun y => y.domain == 0 && !y.done) = false → s.chip.stagerIdle →
    g = min 128 (s.chip.fld R.ageAvs 7 0 + max 2 ((s.chip.at t).lastDay.foldl (fun m e => max m e.2.2) 0 + 1)) →
    room = (Int.fdiv ((s.chip.at t).coreBallast.value - s.chip.fld R.ageResv 31 16) 50).toNat →
    new = (if s.chip.fld R.ageAvsTgt 7 0 < g then s.chip.fld R.ageAvsTgt 7 0 + min (min 2 (g - s.chip.fld R.ageAvsTgt 7 0)) room
      else s.chip.fld R.ageAvsTgt 7 0 - min 2 (s.chip.fld R.ageAvsTgt 7 0 - g)) → new ≠ s.chip.fld R.ageAvsTgt 7 0 →
    (s.chip.at t).changeTime 0 = some T →
    Answers (.plan t) s (fun c => c.age.changes.any (fun y => y.domain == 0 && y.reg == R.ageAvsTgt && !y.done && y.launch == T &&
      y.new == putBits (s.chip.reg R.ageAvsTgt) 7 0 new) = true)) ∧
  (∀ (s : State) (t : Stamp), (s.chip.bit R.ageCtl 31 = false ∨ t / nsPerS % 86400 ≠ s.chip.fld R.ageCtl 16 0 ∨
      s.chip.pitch.sealAt.all (fun x => !elapsed t x (86400 * nsPerS)) = true ∨
      s.chip.age.plans.any (fun p => p.1 / nsPerS == t / nsPerS) = true) → Gives (.plan t) s (s.chip.at t)) ∧
  (∀ (s : State) (t : Stamp) (x : Change) (margin : Int), s.chip.age.changes.find? (fun y => y.id == x.id && y.done) = some x →
    (x.domain = 1 ∨ elapsed t x.launch (60 * nsPerS) = true) → (x.margin ≤ margin + 1 ∨ x.reversal = true) →
    Answers (.remeasureDone t x.id margin) s (fun c =>
      c.age = { s.chip.age with changes := s.chip.age.changes.filter (fun y => y.id != x.id) } ∧
      c.reg (R.ageCnt 1) = (s.chip.bump (R.ageCnt 1)).reg (R.ageCnt 1) ∧ s.chip.writesOnly c ([R.ageCnt 1] ++ eventRegs) ∧
      s.chip.raises c [⟨0x0402, .room, t, [.val 1 x.domain, .val 4 (wordOfs x.reg), .val 4 (twosOf 32 x.margin),
        .val 4 (twosOf 32 margin)]⟩])) ∧
  (∀ (s : State) (t : Stamp) (x : Change) (margin : Int), s.chip.age.changes.find? (fun y => y.id == x.id && y.done) = some x →
    (x.domain = 1 ∨ elapsed t x.launch (60 * nsPerS) = true) → margin + 1 < x.margin → x.reversal = false →
    Answers (.remeasureDone t x.id margin) s (fun c =>
      c.reg (R.ageCnt 1) = (s.chip.bump (R.ageCnt 1)).reg (R.ageCnt 1) ∧
      c.reg (R.ageCnt 2) = (s.chip.bump (R.ageCnt 2)).reg (R.ageCnt 2) ∧
      c.age.changes.any (fun y => y.id == x.id && y.done) = false)) ∧
  (∀ (s : State) (t T : Stamp) (x : Change) (margin : Int), s.chip.age.changes.find? (fun y => y.id == x.id && y.done) = some x →
    (x.domain = 1 ∨ elapsed t x.launch (60 * nsPerS) = true) → margin + 1 < x.margin → x.reversal = false →
    s.chip.stagerIdle → (s.chip.at t).changeTime x.domain = some T →
    Answers (.remeasureDone t x.id margin) s (fun c =>
      c.age.changes = s.chip.age.changes.filter (fun y => y.id != x.id) ++
        [x.reverse (s.chip.reg x.reg) s.chip.age.nextId T margin] ∧
      c.peg.fwNow.any (fun g => g.use == .change s.chip.age.nextId && g.pegs.all (fun p => p.launch == T && p.window == 500)) = true ∧
      c.peg.pegs = s.chip.peg.pegs ∧ s.chip.writesOnly c (fwRegs ++ [R.ageCnt 1, R.ageCnt 2] ++ eventRegs) ∧
      s.chip.raises c [⟨0x0402, .room, t, [.val 1 x.domain, .val 4 (wordOfs x.reg), .val 4 (twosOf 32 x.margin),
        .val 4 (twosOf 32 margin)]⟩])) ∧
  (∀ (s : State) (t : Stamp) (x : Change) (margin : Int), s.chip.age.changes.find? (fun y => y.id == x.id && y.done) = some x →
    (x.domain = 1 ∨ elapsed t x.launch (60 * nsPerS) = true) → margin + 1 < x.margin → x.reversal = false →
    (s.chip.at t).changeTime x.domain = none →
    Answers (.remeasureDone t x.id margin) s (fun c =>
      c.age = { s.chip.age with changes := s.chip.age.changes.filter (fun y => y.id != x.id) } ∧
      s.chip.writesOnly c ([R.ageCnt 1, R.ageCnt 2, R.ageCnt 3] ++ eventRegs) ∧
      s.chip.raises c [⟨0x0402, .room, t, [.val 1 x.domain, .val 4 (wordOfs x.reg), .val 4 (twosOf 32 x.margin),
        .val 4 (twosOf 32 margin)]⟩, ⟨0x0403, .room, t, [.val 1 x.domain, .val 4 (wordOfs x.reg), .val 4 (Config.eventCode 0x0403 3)]⟩])) ∧
  (∀ (s : State) (t : Stamp) (id : Nat) (margin : Int), (s.chip.age.changes.find? (fun y => y.id == id && y.done)).all (fun x =>
      x.domain != 1 && !elapsed t x.launch (60 * nsPerS)) = true →
    Gives (.remeasureDone t id margin) s (s.chip.at t))
end

