-- ==== Sys2Proof/Laws/Exec.lean ====
section
/-! SUPPORT. The frame of every meaning: a well-formed command answers a next state that differs in the part alone, and any other
stops with the fault `noSuchUnit`. -/

namespace Sys2Proof.Machine

theorem runIf_of (ok : Bool) (f : Chip → Chip) (s : State) (h : ok = true) : runIf ok f s = .next { s with chip := f s.chip } := by
  simp [runIf, h]

theorem runIf_not (ok : Bool) (f : Chip → Chip) (s : State) (h : ok = false) : runIf ok f s = .fault .noSuchUnit := by
  simp [runIf, h]

/-- Each command runs a function of the part, under its well-formedness. -/
theorem exec_form (i : Instr) : ∃ f : Chip → Chip, ∀ s : State, exec i s = runIf i.wellFormed f s := by
  cases i
  case writeRegister => exact ⟨_, fun s => by unfold exec execWriteRegister; rfl⟩
  case snap => exact ⟨_, fun s => by unfold exec execSnap; rfl⟩
  case clearRefusalRecord => exact ⟨_, fun s => by unfold exec execClearRefusalRecord; rfl⟩
  case clearDroppedWriteRecord => exact ⟨_, fun s => by unfold exec execClearDroppedWriteRecord; rfl⟩
  case clearViolationRecord => exact ⟨_, fun s => by unfold exec execClearViolationRecord; rfl⟩
  case acknowledge => exact ⟨_, fun s => by unfold exec execAcknowledge; rfl⟩
  case powerOnHoldEnd => exact ⟨_, fun s => by unfold exec execPowerOnHoldEnd; rfl⟩
  case resetNLow => exact ⟨_, fun s => by unfold exec execResetNLow; rfl⟩
  case resetNRelease => exact ⟨_, fun s => by unfold exec execResetNRelease; rfl⟩
  case bootRomStart => exact ⟨_, fun s => by unfold exec execBootRomStart; rfl⟩
  case baseFirmwareStart => exact ⟨_, fun s => by unfold exec execBaseFirmwareStart; rfl⟩
  case trainDone => exact ⟨_, fun s => by unfold exec execTrainDone; rfl⟩
  case timeSet => exact ⟨_, fun s => by unfold exec execTimeSet; rfl⟩
  case masterCounterReload => exact ⟨_, fun s => by unfold exec execMasterCounterReload; rfl⟩
  case headsStart => exact ⟨_, fun s => by unfold exec execHeadsStart; rfl⟩
  case caminitDone => exact ⟨_, fun s => by unfold exec execCaminitDone; rfl⟩
  case sealPart => exact ⟨_, fun s => by unfold exec execSealPart; rfl⟩
  case d2dLinkDown => exact ⟨_, fun s => by unfold exec execD2dLinkDown; rfl⟩
  case d2dLinkRetrained => exact ⟨_, fun s => by unfold exec execD2dLinkRetrained; rfl⟩
  case d2dFlitReplay => exact ⟨_, fun s => by unfold exec execD2dFlitReplay; rfl⟩
  case timeBusFullStamp => exact ⟨_, fun s => by unfold exec execTimeBusFullStamp; rfl⟩
  case watchTapTimeout => exact ⟨_, fun s => by unfold exec execWatchTapTimeout; rfl⟩
  case headFrameStart => exact ⟨_, fun s => by unfold exec execHeadFrameStart; rfl⟩
  case elementStateMiss => exact ⟨_, fun s => by unfold exec execElementStateMiss; rfl⟩
  case headLineStart => exact ⟨_, fun s => by unfold exec execHeadLineStart; rfl⟩
  case tileFetchComplete => exact ⟨_, fun s => by unfold exec execTileFetchComplete; rfl⟩
  case headFrameDone => exact ⟨_, fun s => by unfold exec execHeadFrameDone; rfl⟩
  case headEnableWrite => exact ⟨_, fun s => by unfold exec execHeadEnableWrite; rfl⟩
  case frameBegin => exact ⟨_, fun s => by unfold exec execFrameBegin; rfl⟩
  case frameFinish => exact ⟨_, fun s => by unfold exec execFrameFinish; rfl⟩
  case refEvaluation => exact ⟨_, fun s => by unfold exec execRefEvaluation; rfl⟩
  case qualificationComplete => exact ⟨_, fun s => by unfold exec execQualificationComplete; rfl⟩
  case wtrExpire => exact ⟨_, fun s => by unfold exec execWtrExpire; rfl⟩
  case lockTimeElapsed => exact ⟨_, fun s => by unfold exec execLockTimeElapsed; rfl⟩
  case dwellEnd => exact ⟨_, fun s => by unfold exec execDwellEnd; rfl⟩
  case holdoverSecond => exact ⟨_, fun s => by unfold exec execHoldoverSecond; rfl⟩
  case serdesLoopLockLoss => exact ⟨_, fun s => by unfold exec execSerdesLoopLockLoss; rfl⟩
  case force => exact ⟨_, fun s => by unfold exec execForce; rfl⟩
  case release => exact ⟨_, fun s => by unfold exec execRelease; rfl⟩
  case skipWtr => exact ⟨_, fun s => by unfold exec execSkipWtr; rfl⟩
  case ppsEdge => exact ⟨_, fun s => by unfold exec execPpsEdge; rfl⟩
  case ppsTimeout => exact ⟨_, fun s => by unfold exec execPpsTimeout; rfl⟩
  case activityGap => exact ⟨_, fun s => by unfold exec execActivityGap; rfl⟩
  case gnssSentence => exact ⟨_, fun s => by unfold exec execGnssSentence; rfl⟩
  case ptpMessageReceive => exact ⟨_, fun s => by unfold exec execPtpMessageReceive; rfl⟩
  case announceTimeout => exact ⟨_, fun s => by unfold exec execAnnounceTimeout; rfl⟩
  case submit => exact ⟨_, fun s => by unfold exec execSubmit; rfl⟩
  case groupCheckDone => exact ⟨_, fun s => by unfold exec execGroupCheckDone; rfl⟩
  case pegCancel => exact ⟨_, fun s => by unfold exec execPegCancel; rfl⟩
  case pegArm => exact ⟨_, fun s => by unfold exec execPegArm; rfl⟩
  case pegImmediateFire => exact ⟨_, fun s => by unfold exec execPegImmediateFire; rfl⟩
  case pegExpire => exact ⟨_, fun s => by unfold exec execPegExpire; rfl⟩
  case ethFrameReceive => exact ⟨_, fun s => by unfold exec execEthFrameReceive; rfl⟩
  case heldPacketExpire => exact ⟨_, fun s => by unfold exec execHeldPacketExpire; rfl⟩
  case senderAgeOut => exact ⟨_, fun s => by unfold exec execSenderAgeOut; rfl⟩
  case frameSkewTimeout => exact ⟨_, fun s => by unfold exec execFrameSkewTimeout; rfl⟩
  case framePacketTimeout => exact ⟨_, fun s => by unfold exec execFramePacketTimeout; rfl⟩
  case legSilenceTimeout => exact ⟨_, fun s => by unfold exec execLegSilenceTimeout; rfl⟩
  case senderReportLapse => exact ⟨_, fun s => by unfold exec execSenderReportLapse; rfl⟩
  case subportLinkChange => exact ⟨_, fun s => by unfold exec execSubportLinkChange; rfl⟩
  case packetRelease => exact ⟨_, fun s => by unfold exec execPacketRelease; rfl⟩
  case claimHeartbeatSend => exact ⟨_, fun s => by unfold exec execClaimHeartbeatSend; rfl⟩
  case senderReportSend => exact ⟨_, fun s => by unfold exec execSenderReportSend; rfl⟩
  case pictureJobBuild => exact ⟨_, fun s => by unfold exec execPictureJobBuild; rfl⟩
  case engineJobStart => exact ⟨_, fun s => by unfold exec execEngineJobStart; rfl⟩
  case engineJobEnd => exact ⟨_, fun s => by unfold exec execEngineJobEnd; rfl⟩
  case bucketTake => exact ⟨_, fun s => by unfold exec execBucketTake; rfl⟩
  case arm => exact ⟨_, fun s => by unfold exec execArm; rfl⟩
  case cameraFrameStart => exact ⟨_, fun s => by unfold exec execCameraFrameStart; rfl⟩
  case cciWritesDone => exact ⟨_, fun s => by unfold exec execCciWritesDone; rfl⟩
  case cciWindowExpire => exact ⟨_, fun s => by unfold exec execCciWindowExpire; rfl⟩
  case embeddedDataReceive => exact ⟨_, fun s => by unfold exec execEmbeddedDataReceive; rfl⟩
  case csiLineReceive => exact ⟨_, fun s => by unfold exec execCsiLineReceive; rfl⟩
  case cameraFrameEnd => exact ⟨_, fun s => by unfold exec execCameraFrameEnd; rfl⟩
  case cameraFrameTimeout => exact ⟨_, fun s => by unfold exec execCameraFrameTimeout; rfl⟩
  case cameraOutputFinish => exact ⟨_, fun s => by unfold exec execCameraOutputFinish; rfl⟩
  case cameraSilenceTimeout => exact ⟨_, fun s => by unfold exec execCameraSilenceTimeout; rfl⟩
  case fsyncPulse => exact ⟨_, fun s => by unfold exec execFsyncPulse; rfl⟩
  case captureFrameBegin => exact ⟨_, fun s => by unfold exec execCaptureFrameBegin; rfl⟩
  case captureFrameEnd => exact ⟨_, fun s => by unfold exec execCaptureFrameEnd; rfl⟩
  case captureLinkChange => exact ⟨_, fun s => by unfold exec execCaptureLinkChange; rfl⟩
  case captureAuxRequest => exact ⟨_, fun s => by unfold exec execCaptureAuxRequest; rfl⟩
  case pointFrameProcess => exact ⟨_, fun s => by unfold exec execPointFrameProcess; rfl⟩
  case feederResyncTimeout => exact ⟨_, fun s => by unfold exec execFeederResyncTimeout; rfl⟩
  case sweepStart => exact ⟨_, fun s => by unfold exec execSweepStart; rfl⟩
  case sweepEnd => exact ⟨_, fun s => by unfold exec execSweepEnd; rfl⟩
  case start => exact ⟨_, fun s => by unfold exec execStart; rfl⟩
  case finish => exact ⟨_, fun s => by unfold exec execFinish; rfl⟩
  case resetAlive => exact ⟨_, fun s => by unfold exec execResetAlive; rfl⟩
  case feedByte => exact ⟨_, fun s => by unfold exec execFeedByte; rfl⟩
  case feedHalfWord => exact ⟨_, fun s => by unfold exec execFeedHalfWord; rfl⟩
  case feedWord => exact ⟨_, fun s => by unfold exec execFeedWord; rfl⟩
  case chkCfgWrite => exact ⟨_, fun s => by unfold exec execChkCfgWrite; rfl⟩
  case glyphMiss => exact ⟨_, fun s => by unfold exec execGlyphMiss; rfl⟩
  case commitRequest => exact ⟨_, fun s => by unfold exec execCommitRequest; rfl⟩
  case commitCancel => exact ⟨_, fun s => by unfold exec execCommitCancel; rfl⟩
  case hpdHighDebounce => exact ⟨_, fun s => by unfold exec execHpdHighDebounce; rfl⟩
  case dpTrainingDone => exact ⟨_, fun s => by unfold exec execDpTrainingDone; rfl⟩
  case irqHpd => exact ⟨_, fun s => by unfold exec execIrqHpd; rfl⟩
  case hpdLowTimeout => exact ⟨_, fun s => by unfold exec execHpdLowTimeout; rfl⟩
  case dpRetryTimeout => exact ⟨_, fun s => by unfold exec execDpRetryTimeout; rfl⟩
  case retrain => exact ⟨_, fun s => by unfold exec execRetrain; rfl⟩
  case scanFrameStart => exact ⟨_, fun s => by unfold exec execScanFrameStart; rfl⟩
  case scanFrameEnd => exact ⟨_, fun s => by unfold exec execScanFrameEnd; rfl⟩
  case frequencyHop => exact ⟨_, fun s => by unfold exec execFrequencyHop; rfl⟩
  case noiseTimeout => exact ⟨_, fun s => by unfold exec execNoiseTimeout; rfl⟩
  case longTouch => exact ⟨_, fun s => by unfold exec execLongTouch; rfl⟩
  case calibrationDone => exact ⟨_, fun s => by unfold exec execCalibrationDone; rfl⟩
  case selftest => exact ⟨_, fun s => by unfold exec execSelftest; rfl⟩
  case selftestDone => exact ⟨_, fun s => by unfold exec execSelftestDone; rfl⟩
  case recal => exact ⟨_, fun s => by unfold exec execRecal; rfl⟩
  case driveRailChange => exact ⟨_, fun s => by unfold exec execDriveRailChange; rfl⟩
  case touchReportWrite => exact ⟨_, fun s => by unfold exec execTouchReportWrite; rfl⟩
  case pointerHoldExpire => exact ⟨_, fun s => by unfold exec execPointerHoldExpire; rfl⟩
  case bolLinkChange => exact ⟨_, fun s => by unfold exec execBolLinkChange; rfl⟩
  case flitReceive => exact ⟨_, fun s => by unfold exec execFlitReceive; rfl⟩
  case nakReceive => exact ⟨_, fun s => by unfold exec execNakReceive; rfl⟩
  case tick => exact ⟨_, fun s => by unfold exec execTick; rfl⟩
  case splitTimeout => exact ⟨_, fun s => by unfold exec execSplitTimeout; rfl⟩
  case heartbeatReceive => exact ⟨_, fun s => by unfold exec execHeartbeatReceive; rfl⟩
  case noticeReceive => exact ⟨_, fun s => by unfold exec execNoticeReceive; rfl⟩
  case noticeLostwaitExpire => exact ⟨_, fun s => by unfold exec execNoticeLostwaitExpire; rfl⟩
  case frameEligible => exact ⟨_, fun s => by unfold exec execFrameEligible; rfl⟩
  case mirrorReceive => exact ⟨_, fun s => by unfold exec execMirrorReceive; rfl⟩
  case mirrorApply => exact ⟨_, fun s => by unfold exec execMirrorApply; rfl⟩
  case recordReceive => exact ⟨_, fun s => by unfold exec execRecordReceive; rfl⟩
  case sigxReceive => exact ⟨_, fun s => by unfold exec execSigxReceive; rfl⟩
  case seqReceive => exact ⟨_, fun s => by unfold exec execSeqReceive; rfl⟩
  case timeExchangeStart => exact ⟨_, fun s => by unfold exec execTimeExchangeStart; rfl⟩
  case timeRequestReceive => exact ⟨_, fun s => by unfold exec execTimeRequestReceive; rfl⟩
  case timeReplyReceive => exact ⟨_, fun s => by unfold exec execTimeReplyReceive; rfl⟩
  case yield => exact ⟨_, fun s => by unfold exec execYield; rfl⟩
  case memoryRequest => exact ⟨_, fun s => by unfold exec execMemoryRequest; rfl⟩
  case memoryReadComplete => exact ⟨_, fun s => by unfold exec execMemoryReadComplete; rfl⟩
  case refreshDue => exact ⟨_, fun s => by unfold exec execRefreshDue; rfl⟩
  case mr4Poll => exact ⟨_, fun s => by unfold exec execMr4Poll; rfl⟩
  case scrubRead => exact ⟨_, fun s => by unfold exec execScrubRead; rfl⟩
  case holdTimeout => exact ⟨_, fun s => by unfold exec execHoldTimeout; rfl⟩
  case budgetOverrun => exact ⟨_, fun s => by unfold exec execBudgetOverrun; rfl⟩
  case oscTrackRead => exact ⟨_, fun s => by unfold exec execOscTrackRead; rfl⟩
  case trainingRun => exact ⟨_, fun s => by unfold exec execTrainingRun; rfl⟩
  case trainingStop => exact ⟨_, fun s => by unfold exec execTrainingStop; rfl⟩
  case trainingRunDone => exact ⟨_, fun s => by unfold exec execTrainingRunDone; rfl⟩
  case trimWriteApply => exact ⟨_, fun s => by unfold exec execTrimWriteApply; rfl⟩
  case apply => exact ⟨_, fun s => by unfold exec execApply; rfl⟩
  case applyTags => exact ⟨_, fun s => by unfold exec execApplyTags; rfl⟩
  case accessDrainComplete => exact ⟨_, fun s => by unfold exec execAccessDrainComplete; rfl⟩
  case tagCopyDone => exact ⟨_, fun s => by unfold exec execTagCopyDone; rfl⟩
  case recallLayout => exact ⟨_, fun s => by unfold exec execRecallLayout; rfl⟩
  case preset => exact ⟨_, fun s => by unfold exec execPreset; rfl⟩
  case policyAction => exact ⟨_, fun s => by unfold exec execPolicyAction; rfl⟩
  case eventRecordWrite => exact ⟨_, fun s => by unfold exec execEventRecordWrite; rfl⟩
  case rateLimitWindowEnd => exact ⟨_, fun s => by unfold exec execRateLimitWindowEnd; rfl⟩
  case mgtRead => exact ⟨_, fun s => by unfold exec execMgtRead; rfl⟩
  case mgtWrite => exact ⟨_, fun s => by unfold exec execMgtWrite; rfl⟩
  case mgtRecall => exact ⟨_, fun s => by unfold exec execMgtRecall; rfl⟩
  case mgtPreset => exact ⟨_, fun s => by unfold exec execMgtPreset; rfl⟩
  case smbBlockWrite => exact ⟨_, fun s => by unfold exec execSmbBlockWrite; rfl⟩
  case smbSetPointer => exact ⟨_, fun s => by unfold exec execSmbSetPointer; rfl⟩
  case smbBlockRead => exact ⟨_, fun s => by unfold exec execSmbBlockRead; rfl⟩
  case watchdogSignal => exact ⟨_, fun s => by unfold exec execWatchdogSignal; rfl⟩
  case watchdogExpire => exact ⟨_, fun s => by unfold exec execWatchdogExpire; rfl⟩
  case healthCheck => exact ⟨_, fun s => by unfold exec execHealthCheck; rfl⟩
  case monitorRefresh => exact ⟨_, fun s => by unfold exec execMonitorRefresh; rfl⟩
  case roMeasure => exact ⟨_, fun s => by unfold exec execRoMeasure; rfl⟩
  case avsStep => exact ⟨_, fun s => by unfold exec execAvsStep; rfl⟩
  case avsFloorTimeout => exact ⟨_, fun s => by unfold exec execAvsFloorTimeout; rfl⟩
  case dramMarginSweep => exact ⟨_, fun s => by unfold exec execDramMarginSweep; rfl⟩
  case eyeMeasure => exact ⟨_, fun s => by unfold exec execEyeMeasure; rfl⟩
  case plan => exact ⟨_, fun s => by unfold exec execPlan; rfl⟩
  case remeasureDone => exact ⟨_, fun s => by unfold exec execRemeasureDone; rfl⟩
  case flySheetPanic => exact ⟨_, fun s => by unfold exec execFlySheetPanic; rfl⟩
  case captureLineReceive => exact ⟨_, fun s => by unfold exec execCaptureLineReceive; rfl⟩
theorem exec_wellFormed (i : Instr) (s : State) (h : i.wellFormed = true) : ∃ c : Chip, exec i s = .next { s with chip := c } := by
  obtain ⟨f, hf⟩ := exec_form i
  exact ⟨f s.chip, by rw [hf, runIf_of _ _ _ h]⟩

theorem exec_illFormed (i : Instr) (s : State) (h : i.wellFormed = false) : exec i s = .fault .noSuchUnit := by
  obtain ⟨f, hf⟩ := exec_form i
  rw [hf, runIf_not _ _ _ h]

end Sys2Proof.Machine
end

