-- ==== Sys2Proof/Laws/Maps.lean ====
section
/-! SUPPORT. The laws of the sparse maps and of the byte memories: a read after a write, and the canonical form. -/

namespace Sys2Proof.Machine

/-! ### Reading after writing -/

theorem mapGet_drop_same {α : Type} (d : Nat → α) (m : List (Nat × α)) (k : Nat) : mapGet d (mapDrop m k) k = d k := by
  induction m with
  | nil => rfl
  | cons e rest ih =>
    by_cases h : e.1 = k
    · simpa [mapDrop, h] using ih
    · simpa [mapDrop, h, mapGet, Ne.symm h] using ih

theorem mapGet_drop_other {α : Type} (d : Nat → α) (m : List (Nat × α)) {k j : Nat} (h : j ≠ k) :
    mapGet d (mapDrop m k) j = mapGet d m j := by
  induction m with
  | nil => rfl
  | cons e rest ih =>
    by_cases hk : e.1 = k
    · have : ¬ j = e.1 := by omega
      simpa [mapDrop, hk, mapGet, h] using ih
    · by_cases hj : j = e.1
      · simp [mapDrop, hk, mapGet, hj]
      · simpa [mapDrop, hk, mapGet, hj] using ih

theorem mapGet_insert {α : Type} (d : Nat → α) (m : List (Nat × α)) (k j : Nat) (v : α) (hm : ∀ e ∈ m, e.1 ≠ k) :
    mapGet d (mapInsert k v m) j = if j = k then v else mapGet d m j := by
  induction m with
  | nil => simp [mapInsert, mapGet]
  | cons e rest ih =>
    have hr : ∀ e ∈ rest, e.1 ≠ k := fun x hx => hm x (List.mem_cons_of_mem _ hx)
    have he : e.1 ≠ k := hm e List.mem_cons_self
    unfold mapInsert
    split
    · simp [mapGet]
    · by_cases hj : j = e.1
      · simp [mapGet, hj, he]
      · simp [mapGet, hj, ih hr]

theorem mem_mapDrop_key {α : Type} {m : List (Nat × α)} {k : Nat} : ∀ e ∈ mapDrop m k, e.1 ≠ k := by
  intro e he
  simpa [mapDrop] using (List.mem_filter.mp he).2

/-- What a map reads after a write: the value written at its key, as before elsewhere. -/
theorem mapGet_mapPut {α : Type} [DecidableEq α] (d : Nat → α) (m : List (Nat × α)) (k j : Nat) (v : α) :
    mapGet d (mapPut d m k v) j = if j = k then v else mapGet d m j := by
  unfold mapPut
  split
  · rename_i h
    by_cases hj : j = k
    · subst hj; simp [mapGet_drop_same, h]
    · simp [hj, mapGet_drop_other d m hj]
  · rw [mapGet_insert d _ k j v mem_mapDrop_key]
    by_cases hj : j = k
    · simp [hj]
    · simp [hj, mapGet_drop_other d m hj]

@[simp] theorem mapGet_put_same {α : Type} [DecidableEq α] (d : Nat → α) (m : List (Nat × α)) (k : Nat) (v : α) :
    mapGet d (mapPut d m k v) k = v := by simp [mapGet_mapPut]

theorem mapGet_put_other {α : Type} [DecidableEq α] (d : Nat → α) (m : List (Nat × α)) {k j : Nat} (v : α) (h : j ≠ k) :
    mapGet d (mapPut d m k v) j = mapGet d m j := by simp [mapGet_mapPut, h]

@[simp] theorem mapGet_mod_same {α : Type} [DecidableEq α] (d : Nat → α) (m : List (Nat × α)) (k : Nat) (f : α → α) :
    mapGet d (mapMod d m k f) k = f (mapGet d m k) := by simp [mapMod]

theorem mapGet_mod_other {α : Type} [DecidableEq α] (d : Nat → α) (m : List (Nat × α)) {k j : Nat} (f : α → α) (h : j ≠ k) :
    mapGet d (mapMod d m k f) j = mapGet d m j := by simp [mapMod, mapGet_mapPut, h]

/-! ### The canonical form -/

theorem mapRises_cons {α : Type} [DecidableEq α] {d : Nat → α} {lo : Nat} {e : Nat × α} {rest : List (Nat × α)} :
    mapRises d lo (e :: rest) = true ↔ lo ≤ e.1 ∧ e.2 ≠ d e.1 ∧ mapRises d (e.1 + 1) rest = true := by
  simp [mapRises, and_assoc]

theorem mapRises_le {α : Type} [DecidableEq α] {d : Nat → α} {m : List (Nat × α)} {a b : Nat} (h : mapRises d b m = true)
    (hab : a ≤ b) : mapRises d a m = true := by
  cases m with
  | nil => rfl
  | cons e rest =>
    have h := mapRises_cons.mp h
    exact mapRises_cons.mpr ⟨Nat.le_trans hab h.1, h.2⟩

theorem mapRises_key {α : Type} [DecidableEq α] {d : Nat → α} {m : List (Nat × α)} {a : Nat} (h : mapRises d a m = true) :
    ∀ e ∈ m, a ≤ e.1 := by
  induction m generalizing a with
  | nil => simp
  | cons e rest ih =>
    have h := mapRises_cons.mp h
    intro x hx
    rcases List.mem_cons.mp hx with rfl | hx
    · exact h.1
    · exact Nat.le_trans (Nat.le_succ_of_le h.1) (ih h.2.2 x hx)

/-- Leaving entries out keeps the canonical form. -/
theorem mapRises_filter {α : Type} [DecidableEq α] {d : Nat → α} {m : List (Nat × α)} {a : Nat} (p : Nat × α → Bool)
    (h : mapRises d a m = true) : mapRises d a (m.filter p) = true := by
  induction m generalizing a with
  | nil => rfl
  | cons e rest ih =>
    have h := mapRises_cons.mp h
    have hr := ih h.2.2
    by_cases hp : p e
    · rw [List.filter_cons_of_pos hp]
      exact mapRises_cons.mpr ⟨h.1, h.2.1, hr⟩
    · rw [List.filter_cons_of_neg hp]
      exact mapRises_le hr (Nat.le_succ_of_le h.1)

theorem mapRises_insert {α : Type} [DecidableEq α] {d : Nat → α} {m : List (Nat × α)} {a k : Nat} {v : α}
    (h : mapRises d a m = true) (hk : ∀ e ∈ m, e.1 ≠ k) (ha : a ≤ k) (hv : v ≠ d k) : mapRises d a (mapInsert k v m) = true := by
  induction m generalizing a with
  | nil => exact mapRises_cons.mpr ⟨ha, hv, rfl⟩
  | cons e rest ih =>
    have h := mapRises_cons.mp h
    have he : e.1 ≠ k := hk e List.mem_cons_self
    unfold mapInsert
    split
    · rename_i hlt
      exact mapRises_cons.mpr ⟨ha, hv, mapRises_cons.mpr ⟨hlt, h.2⟩⟩
    · rename_i hge
      exact mapRises_cons.mpr ⟨h.1, h.2.1, ih h.2.2 (fun x hx => hk x (List.mem_cons_of_mem _ hx)) (by omega)⟩

/-- A write keeps the canonical form. -/
theorem mapWf_mapPut {α : Type} [DecidableEq α] {d : Nat → α} {m : List (Nat × α)} (k : Nat) (v : α) (h : mapWf d m) :
    mapWf d (mapPut d m k v) := by
  unfold mapPut
  split
  · exact mapRises_filter _ h
  · rename_i hv
    exact mapRises_insert (mapRises_filter _ h) mem_mapDrop_key (Nat.zero_le _) hv

theorem mapWf_mapMod {α : Type} [DecidableEq α] {d : Nat → α} {m : List (Nat × α)} (k : Nat) (f : α → α) (h : mapWf d m) :
    mapWf d (mapMod d m k f) := mapWf_mapPut k _ h

theorem mapWf_mapErase {α : Type} [DecidableEq α] {d : Nat → α} {m : List (Nat × α)} (p : Nat → Bool) (h : mapWf d m) :
    mapWf d (mapErase m p) := mapRises_filter _ h

/-- Several writes keep the canonical form. -/
theorem mapWf_foldl {α β : Type} [DecidableEq α] {d : Nat → α} (l : List β) (key : β → Nat) (val : β → α) {m : List (Nat × α)}
    (h : mapWf d m) : mapWf d (l.foldl (fun m e => mapPut d m (key e) (val e)) m) := by
  induction l generalizing m with
  | nil => exact h
  | cons e rest ih => exact ih (mapWf_mapPut _ _ h)

/-! ### Memories -/

/-- What a byte reads after a write of bytes: the byte written there, as before elsewhere. -/
theorem mapGet_memWrite (d : Nat → Byte) (l : List Byte) (m : List (Nat × Byte)) (a k : Nat) :
    mapGet d (memWrite d m a l) k = if a ≤ k ∧ k < a + l.length then l.getD (k - a) 0 else mapGet d m k := by
  induction l generalizing m a with
  | nil =>
    have : ¬ (a ≤ k ∧ k < a + 0) := by omega
    simp only [memWrite, List.length_nil, this, if_false]
  | cons b rest ih =>
    simp only [memWrite, ih, mapGet_mapPut, List.length_cons]
    by_cases h1 : k = a
    · subst h1
      have h2 : ¬ (k + 1 ≤ k ∧ k < k + 1 + rest.length) := by omega
      have h3 : k ≤ k ∧ k < k + (rest.length + 1) := by omega
      simp only [h2, h3, if_false, if_true, and_self, Nat.sub_self, List.getD_cons_zero]
    · by_cases h2 : a + 1 ≤ k ∧ k < a + 1 + rest.length
      · have h3 : a ≤ k ∧ k < a + (rest.length + 1) := by omega
        have h4 : k - a = (k - (a + 1)) + 1 := by omega
        simp only [h2, h3, if_true, and_self, h4, List.getD_cons_succ]
      · have h3 : ¬ (a ≤ k ∧ k < a + (rest.length + 1)) := by omega
        simp only [h1, h2, h3, if_false]

/-- A write keeps the canonical form of a memory. -/
theorem mapWf_memWrite (d : Nat → Byte) (l : List Byte) {m : List (Nat × Byte)} (a : Nat) (h : mapWf d m) :
    mapWf d (memWrite d m a l) := by
  induction l generalizing m a with
  | nil => exact h
  | cons b rest ih => exact ih (a + 1) (mapWf_mapPut _ _ h)

/-- Reading back what was written. -/
theorem memRead_memWrite (d : Nat → Byte) (l : List Byte) (m : List (Nat × Byte)) (a : Nat) :
    memRead d (memWrite d m a l) a l.length = l := by
  apply List.ext_getElem
  · simp [memRead]
  · intro i h1 h2
    simp only [memRead, List.getElem_map, List.getElem_range, mapGet_memWrite]
    have h3 : a ≤ a + i ∧ a + i < a + l.length := by omega
    simp only [h3, and_self, if_true, Nat.add_sub_cancel_left, List.getD_eq_getElem?_getD]
    simp [List.getElem?_eq_getElem h2]

theorem leBytes_length (n v : Nat) : (leBytes n v).length = n := by
  induction n generalizing v with
  | zero => rfl
  | succ n ih => simp [leBytes, ih]

/-- Little-endian bytes spell the number they were made from. -/
theorem leNat_leBytes (n v : Nat) : leNat (leBytes n v) = v % 256 ^ n := by
  induction n generalizing v with
  | zero => simp [leBytes, leNat, Nat.mod_one]
  | succ n ih =>
    simp only [leBytes, leNat, ih, BitVec.toNat_ofNat]
    rw [show (256 : Nat) ^ (n + 1) = 256 * 256 ^ n from by rw [Nat.pow_succ, Nat.mul_comm], Nat.mod_mul]

end Sys2Proof.Machine
end

