-- ==== Sys2Proof/Laws/State.lean ====
section
/-! SUPPORT. What each shared update of the part leaves alone: one lemma per update and field. -/

namespace Sys2Proof.Machine

/-! ### `Chip.at` -/

@[simp] theorem Chip.at_regs (c : Chip) (t : Stamp) : (c.at t).regs = c.regs := rfl
@[simp] theorem Chip.at_latch (c : Chip) (t : Stamp) : (c.at t).latch = c.latch := rfl
@[simp] theorem Chip.at_tbw (c : Chip) (t : Stamp) : (c.at t).tbw = c.tbw := rfl
@[simp] theorem Chip.at_dram (c : Chip) (t : Stamp) : (c.at t).dram = c.dram := rfl
@[simp] theorem Chip.at_evq (c : Chip) (t : Stamp) : (c.at t).evq = c.evq := rfl
@[simp] theorem Chip.at_evDrop (c : Chip) (t : Stamp) : (c.at t).evDrop = c.evDrop := rfl
@[simp] theorem Chip.at_rate (c : Chip) (t : Stamp) : (c.at t).rate = c.rate := rfl
@[simp] theorem Chip.at_tx (c : Chip) (t : Stamp) : (c.at t).tx = c.tx := rfl
@[simp] theorem Chip.at_mui (c : Chip) (t : Stamp) : (c.at t).mui = c.mui := rfl
@[simp] theorem Chip.at_taps (c : Chip) (t : Stamp) : (c.at t).taps = c.taps := rfl
@[simp] theorem Chip.at_watch (c : Chip) (t : Stamp) : (c.at t).watch = c.watch := rfl
@[simp] theorem Chip.at_chk (c : Chip) (t : Stamp) : (c.at t).chk = c.chk := rfl
@[simp] theorem Chip.at_pnt (c : Chip) (t : Stamp) : (c.at t).pnt = c.pnt := rfl
@[simp] theorem Chip.at_bol (c : Chip) (t : Stamp) : (c.at t).bol = c.bol := rfl
@[simp] theorem Chip.at_twn (c : Chip) (t : Stamp) : (c.at t).twn = c.twn := rfl
@[simp] theorem Chip.at_slots (c : Chip) (t : Stamp) : (c.at t).slots = c.slots := rfl
@[simp] theorem Chip.at_net (c : Chip) (t : Stamp) : (c.at t).net = c.net := rfl
@[simp] theorem Chip.at_held (c : Chip) (t : Stamp) : (c.at t).held = c.held := rfl
@[simp] theorem Chip.at_aus (c : Chip) (t : Stamp) : (c.at t).aus = c.aus := rfl
@[simp] theorem Chip.at_shown (c : Chip) (t : Stamp) : (c.at t).shown = c.shown := rfl
@[simp] theorem Chip.at_partIndex (c : Chip) (t : Stamp) : (c.at t).partIndex = c.partIndex := rfl
@[simp] theorem Chip.at_curElem (c : Chip) (t : Stamp) : (c.at t).curElem = c.curElem := rfl
@[simp] theorem Chip.at_curDesc (c : Chip) (t : Stamp) : (c.at t).curDesc = c.curDesc := rfl
@[simp] theorem Chip.at_curRegion (c : Chip) (t : Stamp) : (c.at t).curRegion = c.curRegion := rfl
@[simp] theorem Chip.at_prov (c : Chip) (t : Stamp) : (c.at t).prov = c.prov := rfl
@[simp] theorem Chip.at_elems (c : Chip) (t : Stamp) : (c.at t).elems = c.elems := rfl
@[simp] theorem Chip.at_heads (c : Chip) (t : Stamp) : (c.at t).heads = c.heads := rfl
@[simp] theorem Chip.at_roomNumber (c : Chip) (t : Stamp) : (c.at t).roomNumber = c.roomNumber := rfl
@[simp] theorem Chip.at_dec (c : Chip) (t : Stamp) : (c.at t).dec = c.dec := rfl
@[simp] theorem Chip.at_enc (c : Chip) (t : Stamp) : (c.at t).enc = c.enc := rfl
@[simp] theorem Chip.at_txs (c : Chip) (t : Stamp) : (c.at t).txs = c.txs := rfl
@[simp] theorem Chip.at_saving (c : Chip) (t : Stamp) : (c.at t).saving = c.saving := rfl
@[simp] theorem Chip.at_mem (c : Chip) (t : Stamp) : (c.at t).mem = c.mem := rfl
@[simp] theorem Chip.at_pruCur (c : Chip) (t : Stamp) : (c.at t).pruCur = c.pruCur := rfl
@[simp] theorem Chip.at_violations (c : Chip) (t : Stamp) : (c.at t).violations = c.violations := rfl
@[simp] theorem Chip.at_tagHeld (c : Chip) (t : Stamp) : (c.at t).tagHeld = c.tagHeld := rfl
@[simp] theorem Chip.at_trims (c : Chip) (t : Stamp) : (c.at t).trims = c.trims := rfl
@[simp] theorem Chip.at_cams (c : Chip) (t : Stamp) : (c.at t).cams = c.cams := rfl
@[simp] theorem Chip.at_caps (c : Chip) (t : Stamp) : (c.at t).caps = c.caps := rfl
@[simp] theorem Chip.at_tch (c : Chip) (t : Stamp) : (c.at t).tch = c.tch := rfl
@[simp] theorem Chip.at_d2dQueue (c : Chip) (t : Stamp) : (c.at t).d2dQueue = c.d2dQueue := rfl
@[simp] theorem Chip.at_d2dDown (c : Chip) (t : Stamp) : (c.at t).d2dDown = c.d2dDown := rfl
@[simp] theorem Chip.at_d2dLost (c : Chip) (t : Stamp) : (c.at t).d2dLost = c.d2dLost := rfl
@[simp] theorem Chip.at_touchIn (c : Chip) (t : Stamp) : (c.at t).touchIn = c.touchIn := rfl
@[simp] theorem Chip.at_ports (c : Chip) (t : Stamp) : (c.at t).ports = c.ports := rfl
@[simp] theorem Chip.at_gpo (c : Chip) (t : Stamp) : (c.at t).gpo = c.gpo := rfl
@[simp] theorem Chip.at_peg (c : Chip) (t : Stamp) : (c.at t).peg = c.peg := rfl
@[simp] theorem Chip.at_jrn (c : Chip) (t : Stamp) : (c.at t).jrn = c.jrn := rfl
@[simp] theorem Chip.at_age (c : Chip) (t : Stamp) : (c.at t).age = c.age := rfl
@[simp] theorem Chip.at_pitch (c : Chip) (t : Stamp) : (c.at t).pitch = c.pitch := rfl
@[simp] theorem Chip.at_mgt (c : Chip) (t : Stamp) : (c.at t).mgt = c.mgt := rfl

/-! ### `Chip.send` -/

@[simp] theorem Chip.send_clk (c : Chip) (m : TxMsg) : (c.send m).clk = c.clk := rfl
@[simp] theorem Chip.send_regs (c : Chip) (m : TxMsg) : (c.send m).regs = c.regs := rfl
@[simp] theorem Chip.send_latch (c : Chip) (m : TxMsg) : (c.send m).latch = c.latch := rfl
@[simp] theorem Chip.send_tbw (c : Chip) (m : TxMsg) : (c.send m).tbw = c.tbw := rfl
@[simp] theorem Chip.send_dram (c : Chip) (m : TxMsg) : (c.send m).dram = c.dram := rfl
@[simp] theorem Chip.send_evq (c : Chip) (m : TxMsg) : (c.send m).evq = c.evq := rfl
@[simp] theorem Chip.send_evDrop (c : Chip) (m : TxMsg) : (c.send m).evDrop = c.evDrop := rfl
@[simp] theorem Chip.send_rate (c : Chip) (m : TxMsg) : (c.send m).rate = c.rate := rfl
@[simp] theorem Chip.send_mui (c : Chip) (m : TxMsg) : (c.send m).mui = c.mui := rfl
@[simp] theorem Chip.send_taps (c : Chip) (m : TxMsg) : (c.send m).taps = c.taps := rfl
@[simp] theorem Chip.send_watch (c : Chip) (m : TxMsg) : (c.send m).watch = c.watch := rfl
@[simp] theorem Chip.send_chk (c : Chip) (m : TxMsg) : (c.send m).chk = c.chk := rfl
@[simp] theorem Chip.send_pnt (c : Chip) (m : TxMsg) : (c.send m).pnt = c.pnt := rfl
@[simp] theorem Chip.send_bol (c : Chip) (m : TxMsg) : (c.send m).bol = c.bol := rfl
@[simp] theorem Chip.send_twn (c : Chip) (m : TxMsg) : (c.send m).twn = c.twn := rfl
@[simp] theorem Chip.send_slots (c : Chip) (m : TxMsg) : (c.send m).slots = c.slots := rfl
@[simp] theorem Chip.send_net (c : Chip) (m : TxMsg) : (c.send m).net = c.net := rfl
@[simp] theorem Chip.send_held (c : Chip) (m : TxMsg) : (c.send m).held = c.held := rfl
@[simp] theorem Chip.send_aus (c : Chip) (m : TxMsg) : (c.send m).aus = c.aus := rfl
@[simp] theorem Chip.send_shown (c : Chip) (m : TxMsg) : (c.send m).shown = c.shown := rfl
@[simp] theorem Chip.send_partIndex (c : Chip) (m : TxMsg) : (c.send m).partIndex = c.partIndex := rfl
@[simp] theorem Chip.send_curElem (c : Chip) (m : TxMsg) : (c.send m).curElem = c.curElem := rfl
@[simp] theorem Chip.send_curDesc (c : Chip) (m : TxMsg) : (c.send m).curDesc = c.curDesc := rfl
@[simp] theorem Chip.send_curRegion (c : Chip) (m : TxMsg) : (c.send m).curRegion = c.curRegion := rfl
@[simp] theorem Chip.send_prov (c : Chip) (m : TxMsg) : (c.send m).prov = c.prov := rfl
@[simp] theorem Chip.send_elems (c : Chip) (m : TxMsg) : (c.send m).elems = c.elems := rfl
@[simp] theorem Chip.send_heads (c : Chip) (m : TxMsg) : (c.send m).heads = c.heads := rfl
@[simp] theorem Chip.send_roomNumber (c : Chip) (m : TxMsg) : (c.send m).roomNumber = c.roomNumber := rfl
@[simp] theorem Chip.send_dec (c : Chip) (m : TxMsg) : (c.send m).dec = c.dec := rfl
@[simp] theorem Chip.send_enc (c : Chip) (m : TxMsg) : (c.send m).enc = c.enc := rfl
@[simp] theorem Chip.send_txs (c : Chip) (m : TxMsg) : (c.send m).txs = c.txs := rfl
@[simp] theorem Chip.send_saving (c : Chip) (m : TxMsg) : (c.send m).saving = c.saving := rfl
@[simp] theorem Chip.send_mem (c : Chip) (m : TxMsg) : (c.send m).mem = c.mem := rfl
@[simp] theorem Chip.send_pruCur (c : Chip) (m : TxMsg) : (c.send m).pruCur = c.pruCur := rfl
@[simp] theorem Chip.send_violations (c : Chip) (m : TxMsg) : (c.send m).violations = c.violations := rfl
@[simp] theorem Chip.send_tagHeld (c : Chip) (m : TxMsg) : (c.send m).tagHeld = c.tagHeld := rfl
@[simp] theorem Chip.send_trims (c : Chip) (m : TxMsg) : (c.send m).trims = c.trims := rfl
@[simp] theorem Chip.send_cams (c : Chip) (m : TxMsg) : (c.send m).cams = c.cams := rfl
@[simp] theorem Chip.send_caps (c : Chip) (m : TxMsg) : (c.send m).caps = c.caps := rfl
@[simp] theorem Chip.send_tch (c : Chip) (m : TxMsg) : (c.send m).tch = c.tch := rfl
@[simp] theorem Chip.send_d2dQueue (c : Chip) (m : TxMsg) : (c.send m).d2dQueue = c.d2dQueue := rfl
@[simp] theorem Chip.send_d2dDown (c : Chip) (m : TxMsg) : (c.send m).d2dDown = c.d2dDown := rfl
@[simp] theorem Chip.send_d2dLost (c : Chip) (m : TxMsg) : (c.send m).d2dLost = c.d2dLost := rfl
@[simp] theorem Chip.send_touchIn (c : Chip) (m : TxMsg) : (c.send m).touchIn = c.touchIn := rfl
@[simp] theorem Chip.send_ports (c : Chip) (m : TxMsg) : (c.send m).ports = c.ports := rfl
@[simp] theorem Chip.send_gpo (c : Chip) (m : TxMsg) : (c.send m).gpo = c.gpo := rfl
@[simp] theorem Chip.send_peg (c : Chip) (m : TxMsg) : (c.send m).peg = c.peg := rfl
@[simp] theorem Chip.send_jrn (c : Chip) (m : TxMsg) : (c.send m).jrn = c.jrn := rfl
@[simp] theorem Chip.send_age (c : Chip) (m : TxMsg) : (c.send m).age = c.age := rfl
@[simp] theorem Chip.send_pitch (c : Chip) (m : TxMsg) : (c.send m).pitch = c.pitch := rfl
@[simp] theorem Chip.send_mgt (c : Chip) (m : TxMsg) : (c.send m).mgt = c.mgt := rfl

/-! ### `Chip.sendAll` -/

@[simp] theorem Chip.sendAll_clk (c : Chip) (l : List TxMsg) : (c.sendAll l).clk = c.clk := rfl
@[simp] theorem Chip.sendAll_regs (c : Chip) (l : List TxMsg) : (c.sendAll l).regs = c.regs := rfl
@[simp] theorem Chip.sendAll_latch (c : Chip) (l : List TxMsg) : (c.sendAll l).latch = c.latch := rfl
@[simp] theorem Chip.sendAll_tbw (c : Chip) (l : List TxMsg) : (c.sendAll l).tbw = c.tbw := rfl
@[simp] theorem Chip.sendAll_dram (c : Chip) (l : List TxMsg) : (c.sendAll l).dram = c.dram := rfl
@[simp] theorem Chip.sendAll_evq (c : Chip) (l : List TxMsg) : (c.sendAll l).evq = c.evq := rfl
@[simp] theorem Chip.sendAll_evDrop (c : Chip) (l : List TxMsg) : (c.sendAll l).evDrop = c.evDrop := rfl
@[simp] theorem Chip.sendAll_rate (c : Chip) (l : List TxMsg) : (c.sendAll l).rate = c.rate := rfl
@[simp] theorem Chip.sendAll_mui (c : Chip) (l : List TxMsg) : (c.sendAll l).mui = c.mui := rfl
@[simp] theorem Chip.sendAll_taps (c : Chip) (l : List TxMsg) : (c.sendAll l).taps = c.taps := rfl
@[simp] theorem Chip.sendAll_watch (c : Chip) (l : List TxMsg) : (c.sendAll l).watch = c.watch := rfl
@[simp] theorem Chip.sendAll_chk (c : Chip) (l : List TxMsg) : (c.sendAll l).chk = c.chk := rfl
@[simp] theorem Chip.sendAll_pnt (c : Chip) (l : List TxMsg) : (c.sendAll l).pnt = c.pnt := rfl
@[simp] theorem Chip.sendAll_bol (c : Chip) (l : List TxMsg) : (c.sendAll l).bol = c.bol := rfl
@[simp] theorem Chip.sendAll_twn (c : Chip) (l : List TxMsg) : (c.sendAll l).twn = c.twn := rfl
@[simp] theorem Chip.sendAll_slots (c : Chip) (l : List TxMsg) : (c.sendAll l).slots = c.slots := rfl
@[simp] theorem Chip.sendAll_net (c : Chip) (l : List TxMsg) : (c.sendAll l).net = c.net := rfl
@[simp] theorem Chip.sendAll_held (c : Chip) (l : List TxMsg) : (c.sendAll l).held = c.held := rfl
@[simp] theorem Chip.sendAll_aus (c : Chip) (l : List TxMsg) : (c.sendAll l).aus = c.aus := rfl
@[simp] theorem Chip.sendAll_shown (c : Chip) (l : List TxMsg) : (c.sendAll l).shown = c.shown := rfl
@[simp] theorem Chip.sendAll_partIndex (c : Chip) (l : List TxMsg) : (c.sendAll l).partIndex = c.partIndex := rfl
@[simp] theorem Chip.sendAll_curElem (c : Chip) (l : List TxMsg) : (c.sendAll l).curElem = c.curElem := rfl
@[simp] theorem Chip.sendAll_curDesc (c : Chip) (l : List TxMsg) : (c.sendAll l).curDesc = c.curDesc := rfl
@[simp] theorem Chip.sendAll_curRegion (c : Chip) (l : List TxMsg) : (c.sendAll l).curRegion = c.curRegion := rfl
@[simp] theorem Chip.sendAll_prov (c : Chip) (l : List TxMsg) : (c.sendAll l).prov = c.prov := rfl
@[simp] theorem Chip.sendAll_elems (c : Chip) (l : List TxMsg) : (c.sendAll l).elems = c.elems := rfl
@[simp] theorem Chip.sendAll_heads (c : Chip) (l : List TxMsg) : (c.sendAll l).heads = c.heads := rfl
@[simp] theorem Chip.sendAll_roomNumber (c : Chip) (l : List TxMsg) : (c.sendAll l).roomNumber = c.roomNumber := rfl
@[simp] theorem Chip.sendAll_dec (c : Chip) (l : List TxMsg) : (c.sendAll l).dec = c.dec := rfl
@[simp] theorem Chip.sendAll_enc (c : Chip) (l : List TxMsg) : (c.sendAll l).enc = c.enc := rfl
@[simp] theorem Chip.sendAll_txs (c : Chip) (l : List TxMsg) : (c.sendAll l).txs = c.txs := rfl
@[simp] theorem Chip.sendAll_saving (c : Chip) (l : List TxMsg) : (c.sendAll l).saving = c.saving := rfl
@[simp] theorem Chip.sendAll_mem (c : Chip) (l : List TxMsg) : (c.sendAll l).mem = c.mem := rfl
@[simp] theorem Chip.sendAll_pruCur (c : Chip) (l : List TxMsg) : (c.sendAll l).pruCur = c.pruCur := rfl
@[simp] theorem Chip.sendAll_violations (c : Chip) (l : List TxMsg) : (c.sendAll l).violations = c.violations := rfl
@[simp] theorem Chip.sendAll_tagHeld (c : Chip) (l : List TxMsg) : (c.sendAll l).tagHeld = c.tagHeld := rfl
@[simp] theorem Chip.sendAll_trims (c : Chip) (l : List TxMsg) : (c.sendAll l).trims = c.trims := rfl
@[simp] theorem Chip.sendAll_cams (c : Chip) (l : List TxMsg) : (c.sendAll l).cams = c.cams := rfl
@[simp] theorem Chip.sendAll_caps (c : Chip) (l : List TxMsg) : (c.sendAll l).caps = c.caps := rfl
@[simp] theorem Chip.sendAll_tch (c : Chip) (l : List TxMsg) : (c.sendAll l).tch = c.tch := rfl
@[simp] theorem Chip.sendAll_d2dQueue (c : Chip) (l : List TxMsg) : (c.sendAll l).d2dQueue = c.d2dQueue := rfl
@[simp] theorem Chip.sendAll_d2dDown (c : Chip) (l : List TxMsg) : (c.sendAll l).d2dDown = c.d2dDown := rfl
@[simp] theorem Chip.sendAll_d2dLost (c : Chip) (l : List TxMsg) : (c.sendAll l).d2dLost = c.d2dLost := rfl
@[simp] theorem Chip.sendAll_touchIn (c : Chip) (l : List TxMsg) : (c.sendAll l).touchIn = c.touchIn := rfl
@[simp] theorem Chip.sendAll_ports (c : Chip) (l : List TxMsg) : (c.sendAll l).ports = c.ports := rfl
@[simp] theorem Chip.sendAll_gpo (c : Chip) (l : List TxMsg) : (c.sendAll l).gpo = c.gpo := rfl
@[simp] theorem Chip.sendAll_peg (c : Chip) (l : List TxMsg) : (c.sendAll l).peg = c.peg := rfl
@[simp] theorem Chip.sendAll_jrn (c : Chip) (l : List TxMsg) : (c.sendAll l).jrn = c.jrn := rfl
@[simp] theorem Chip.sendAll_age (c : Chip) (l : List TxMsg) : (c.sendAll l).age = c.age := rfl
@[simp] theorem Chip.sendAll_pitch (c : Chip) (l : List TxMsg) : (c.sendAll l).pitch = c.pitch := rfl
@[simp] theorem Chip.sendAll_mgt (c : Chip) (l : List TxMsg) : (c.sendAll l).mgt = c.mgt := rfl

/-! ### `Chip.setReg` -/

@[simp] theorem Chip.setReg_clk (c : Chip) (a : Nat) (w : Word) : (c.setReg a w).clk = c.clk := rfl
@[simp] theorem Chip.setReg_latch (c : Chip) (a : Nat) (w : Word) : (c.setReg a w).latch = c.latch := rfl
@[simp] theorem Chip.setReg_tbw (c : Chip) (a : Nat) (w : Word) : (c.setReg a w).tbw = c.tbw := rfl
@[simp] theorem Chip.setReg_dram (c : Chip) (a : Nat) (w : Word) : (c.setReg a w).dram = c.dram := rfl
@[simp] theorem Chip.setReg_evq (c : Chip) (a : Nat) (w : Word) : (c.setReg a w).evq = c.evq := rfl
@[simp] theorem Chip.setReg_evDrop (c : Chip) (a : Nat) (w : Word) : (c.setReg a w).evDrop = c.evDrop := rfl
@[simp] theorem Chip.setReg_rate (c : Chip) (a : Nat) (w : Word) : (c.setReg a w).rate = c.rate := rfl
@[simp] theorem Chip.setReg_tx (c : Chip) (a : Nat) (w : Word) : (c.setReg a w).tx = c.tx := rfl
@[simp] theorem Chip.setReg_mui (c : Chip) (a : Nat) (w : Word) : (c.setReg a w).mui = c.mui := rfl
@[simp] theorem Chip.setReg_taps (c : Chip) (a : Nat) (w : Word) : (c.setReg a w).taps = c.taps := rfl
@[simp] theorem Chip.setReg_watch (c : Chip) (a : Nat) (w : Word) : (c.setReg a w).watch = c.watch := rfl
@[simp] theorem Chip.setReg_chk (c : Chip) (a : Nat) (w : Word) : (c.setReg a w).chk = c.chk := rfl
@[simp] theorem Chip.setReg_pnt (c : Chip) (a : Nat) (w : Word) : (c.setReg a w).pnt = c.pnt := rfl
@[simp] theorem Chip.setReg_bol (c : Chip) (a : Nat) (w : Word) : (c.setReg a w).bol = c.bol := rfl
@[simp] theorem Chip.setReg_twn (c : Chip) (a : Nat) (w : Word) : (c.setReg a w).twn = c.twn := rfl
@[simp] theorem Chip.setReg_slots (c : Chip) (a : Nat) (w : Word) : (c.setReg a w).slots = c.slots := rfl
@[simp] theorem Chip.setReg_net (c : Chip) (a : Nat) (w : Word) : (c.setReg a w).net = c.net := rfl
@[simp] theorem Chip.setReg_held (c : Chip) (a : Nat) (w : Word) : (c.setReg a w).held = c.held := rfl
@[simp] theorem Chip.setReg_aus (c : Chip) (a : Nat) (w : Word) : (c.setReg a w).aus = c.aus := rfl
@[simp] theorem Chip.setReg_shown (c : Chip) (a : Nat) (w : Word) : (c.setReg a w).shown = c.shown := rfl
@[simp] theorem Chip.setReg_partIndex (c : Chip) (a : Nat) (w : Word) : (c.setReg a w).partIndex = c.partIndex := rfl
@[simp] theorem Chip.setReg_curElem (c : Chip) (a : Nat) (w : Word) : (c.setReg a w).curElem = c.curElem := rfl
@[simp] theorem Chip.setReg_curDesc (c : Chip) (a : Nat) (w : Word) : (c.setReg a w).curDesc = c.curDesc := rfl
@[simp] theorem Chip.setReg_curRegion (c : Chip) (a : Nat) (w : Word) : (c.setReg a w).curRegion = c.curRegion := rfl
@[simp] theorem Chip.setReg_prov (c : Chip) (a : Nat) (w : Word) : (c.setReg a w).prov = c.prov := rfl
@[simp] theorem Chip.setReg_elems (c : Chip) (a : Nat) (w : Word) : (c.setReg a w).elems = c.elems := rfl
@[simp] theorem Chip.setReg_heads (c : Chip) (a : Nat) (w : Word) : (c.setReg a w).heads = c.heads := rfl
@[simp] theorem Chip.setReg_roomNumber (c : Chip) (a : Nat) (w : Word) : (c.setReg a w).roomNumber = c.roomNumber := rfl
@[simp] theorem Chip.setReg_dec (c : Chip) (a : Nat) (w : Word) : (c.setReg a w).dec = c.dec := rfl
@[simp] theorem Chip.setReg_enc (c : Chip) (a : Nat) (w : Word) : (c.setReg a w).enc = c.enc := rfl
@[simp] theorem Chip.setReg_txs (c : Chip) (a : Nat) (w : Word) : (c.setReg a w).txs = c.txs := rfl
@[simp] theorem Chip.setReg_saving (c : Chip) (a : Nat) (w : Word) : (c.setReg a w).saving = c.saving := rfl
@[simp] theorem Chip.setReg_mem (c : Chip) (a : Nat) (w : Word) : (c.setReg a w).mem = c.mem := rfl
@[simp] theorem Chip.setReg_pruCur (c : Chip) (a : Nat) (w : Word) : (c.setReg a w).pruCur = c.pruCur := rfl
@[simp] theorem Chip.setReg_violations (c : Chip) (a : Nat) (w : Word) : (c.setReg a w).violations = c.violations := rfl
@[simp] theorem Chip.setReg_tagHeld (c : Chip) (a : Nat) (w : Word) : (c.setReg a w).tagHeld = c.tagHeld := rfl
@[simp] theorem Chip.setReg_trims (c : Chip) (a : Nat) (w : Word) : (c.setReg a w).trims = c.trims := rfl
@[simp] theorem Chip.setReg_cams (c : Chip) (a : Nat) (w : Word) : (c.setReg a w).cams = c.cams := rfl
@[simp] theorem Chip.setReg_caps (c : Chip) (a : Nat) (w : Word) : (c.setReg a w).caps = c.caps := rfl
@[simp] theorem Chip.setReg_tch (c : Chip) (a : Nat) (w : Word) : (c.setReg a w).tch = c.tch := rfl
@[simp] theorem Chip.setReg_d2dQueue (c : Chip) (a : Nat) (w : Word) : (c.setReg a w).d2dQueue = c.d2dQueue := rfl
@[simp] theorem Chip.setReg_d2dDown (c : Chip) (a : Nat) (w : Word) : (c.setReg a w).d2dDown = c.d2dDown := rfl
@[simp] theorem Chip.setReg_d2dLost (c : Chip) (a : Nat) (w : Word) : (c.setReg a w).d2dLost = c.d2dLost := rfl
@[simp] theorem Chip.setReg_touchIn (c : Chip) (a : Nat) (w : Word) : (c.setReg a w).touchIn = c.touchIn := rfl
@[simp] theorem Chip.setReg_ports (c : Chip) (a : Nat) (w : Word) : (c.setReg a w).ports = c.ports := rfl
@[simp] theorem Chip.setReg_gpo (c : Chip) (a : Nat) (w : Word) : (c.setReg a w).gpo = c.gpo := rfl
@[simp] theorem Chip.setReg_peg (c : Chip) (a : Nat) (w : Word) : (c.setReg a w).peg = c.peg := rfl
@[simp] theorem Chip.setReg_jrn (c : Chip) (a : Nat) (w : Word) : (c.setReg a w).jrn = c.jrn := rfl
@[simp] theorem Chip.setReg_age (c : Chip) (a : Nat) (w : Word) : (c.setReg a w).age = c.age := rfl
@[simp] theorem Chip.setReg_pitch (c : Chip) (a : Nat) (w : Word) : (c.setReg a w).pitch = c.pitch := rfl
@[simp] theorem Chip.setReg_mgt (c : Chip) (a : Nat) (w : Word) : (c.setReg a w).mgt = c.mgt := rfl

/-! ### `Chip.setFld` -/

@[simp] theorem Chip.setFld_clk (c : Chip) (a hi lo v : Nat) : (c.setFld a hi lo v).clk = c.clk := rfl
@[simp] theorem Chip.setFld_latch (c : Chip) (a hi lo v : Nat) : (c.setFld a hi lo v).latch = c.latch := rfl
@[simp] theorem Chip.setFld_tbw (c : Chip) (a hi lo v : Nat) : (c.setFld a hi lo v).tbw = c.tbw := rfl
@[simp] theorem Chip.setFld_dram (c : Chip) (a hi lo v : Nat) : (c.setFld a hi lo v).dram = c.dram := rfl
@[simp] theorem Chip.setFld_evq (c : Chip) (a hi lo v : Nat) : (c.setFld a hi lo v).evq = c.evq := rfl
@[simp] theorem Chip.setFld_evDrop (c : Chip) (a hi lo v : Nat) : (c.setFld a hi lo v).evDrop = c.evDrop := rfl
@[simp] theorem Chip.setFld_rate (c : Chip) (a hi lo v : Nat) : (c.setFld a hi lo v).rate = c.rate := rfl
@[simp] theorem Chip.setFld_tx (c : Chip) (a hi lo v : Nat) : (c.setFld a hi lo v).tx = c.tx := rfl
@[simp] theorem Chip.setFld_mui (c : Chip) (a hi lo v : Nat) : (c.setFld a hi lo v).mui = c.mui := rfl
@[simp] theorem Chip.setFld_taps (c : Chip) (a hi lo v : Nat) : (c.setFld a hi lo v).taps = c.taps := rfl
@[simp] theorem Chip.setFld_watch (c : Chip) (a hi lo v : Nat) : (c.setFld a hi lo v).watch = c.watch := rfl
@[simp] theorem Chip.setFld_chk (c : Chip) (a hi lo v : Nat) : (c.setFld a hi lo v).chk = c.chk := rfl
@[simp] theorem Chip.setFld_pnt (c : Chip) (a hi lo v : Nat) : (c.setFld a hi lo v).pnt = c.pnt := rfl
@[simp] theorem Chip.setFld_bol (c : Chip) (a hi lo v : Nat) : (c.setFld a hi lo v).bol = c.bol := rfl
@[simp] theorem Chip.setFld_twn (c : Chip) (a hi lo v : Nat) : (c.setFld a hi lo v).twn = c.twn := rfl
@[simp] theorem Chip.setFld_slots (c : Chip) (a hi lo v : Nat) : (c.setFld a hi lo v).slots = c.slots := rfl
@[simp] theorem Chip.setFld_net (c : Chip) (a hi lo v : Nat) : (c.setFld a hi lo v).net = c.net := rfl
@[simp] theorem Chip.setFld_held (c : Chip) (a hi lo v : Nat) : (c.setFld a hi lo v).held = c.held := rfl
@[simp] theorem Chip.setFld_aus (c : Chip) (a hi lo v : Nat) : (c.setFld a hi lo v).aus = c.aus := rfl
@[simp] theorem Chip.setFld_shown (c : Chip) (a hi lo v : Nat) : (c.setFld a hi lo v).shown = c.shown := rfl
@[simp] theorem Chip.setFld_partIndex (c : Chip) (a hi lo v : Nat) : (c.setFld a hi lo v).partIndex = c.partIndex := rfl
@[simp] theorem Chip.setFld_curElem (c : Chip) (a hi lo v : Nat) : (c.setFld a hi lo v).curElem = c.curElem := rfl
@[simp] theorem Chip.setFld_curDesc (c : Chip) (a hi lo v : Nat) : (c.setFld a hi lo v).curDesc = c.curDesc := rfl
@[simp] theorem Chip.setFld_curRegion (c : Chip) (a hi lo v : Nat) : (c.setFld a hi lo v).curRegion = c.curRegion := rfl
@[simp] theorem Chip.setFld_prov (c : Chip) (a hi lo v : Nat) : (c.setFld a hi lo v).prov = c.prov := rfl
@[simp] theorem Chip.setFld_elems (c : Chip) (a hi lo v : Nat) : (c.setFld a hi lo v).elems = c.elems := rfl
@[simp] theorem Chip.setFld_heads (c : Chip) (a hi lo v : Nat) : (c.setFld a hi lo v).heads = c.heads := rfl
@[simp] theorem Chip.setFld_roomNumber (c : Chip) (a hi lo v : Nat) : (c.setFld a hi lo v).roomNumber = c.roomNumber := rfl
@[simp] theorem Chip.setFld_dec (c : Chip) (a hi lo v : Nat) : (c.setFld a hi lo v).dec = c.dec := rfl
@[simp] theorem Chip.setFld_enc (c : Chip) (a hi lo v : Nat) : (c.setFld a hi lo v).enc = c.enc := rfl
@[simp] theorem Chip.setFld_txs (c : Chip) (a hi lo v : Nat) : (c.setFld a hi lo v).txs = c.txs := rfl
@[simp] theorem Chip.setFld_saving (c : Chip) (a hi lo v : Nat) : (c.setFld a hi lo v).saving = c.saving := rfl
@[simp] theorem Chip.setFld_mem (c : Chip) (a hi lo v : Nat) : (c.setFld a hi lo v).mem = c.mem := rfl
@[simp] theorem Chip.setFld_pruCur (c : Chip) (a hi lo v : Nat) : (c.setFld a hi lo v).pruCur = c.pruCur := rfl
@[simp] theorem Chip.setFld_violations (c : Chip) (a hi lo v : Nat) : (c.setFld a hi lo v).violations = c.violations := rfl
@[simp] theorem Chip.setFld_tagHeld (c : Chip) (a hi lo v : Nat) : (c.setFld a hi lo v).tagHeld = c.tagHeld := rfl
@[simp] theorem Chip.setFld_trims (c : Chip) (a hi lo v : Nat) : (c.setFld a hi lo v).trims = c.trims := rfl
@[simp] theorem Chip.setFld_cams (c : Chip) (a hi lo v : Nat) : (c.setFld a hi lo v).cams = c.cams := rfl
@[simp] theorem Chip.setFld_caps (c : Chip) (a hi lo v : Nat) : (c.setFld a hi lo v).caps = c.caps := rfl
@[simp] theorem Chip.setFld_tch (c : Chip) (a hi lo v : Nat) : (c.setFld a hi lo v).tch = c.tch := rfl
@[simp] theorem Chip.setFld_d2dQueue (c : Chip) (a hi lo v : Nat) : (c.setFld a hi lo v).d2dQueue = c.d2dQueue := rfl
@[simp] theorem Chip.setFld_d2dDown (c : Chip) (a hi lo v : Nat) : (c.setFld a hi lo v).d2dDown = c.d2dDown := rfl
@[simp] theorem Chip.setFld_d2dLost (c : Chip) (a hi lo v : Nat) : (c.setFld a hi lo v).d2dLost = c.d2dLost := rfl
@[simp] theorem Chip.setFld_touchIn (c : Chip) (a hi lo v : Nat) : (c.setFld a hi lo v).touchIn = c.touchIn := rfl
@[simp] theorem Chip.setFld_ports (c : Chip) (a hi lo v : Nat) : (c.setFld a hi lo v).ports = c.ports := rfl
@[simp] theorem Chip.setFld_gpo (c : Chip) (a hi lo v : Nat) : (c.setFld a hi lo v).gpo = c.gpo := rfl
@[simp] theorem Chip.setFld_peg (c : Chip) (a hi lo v : Nat) : (c.setFld a hi lo v).peg = c.peg := rfl
@[simp] theorem Chip.setFld_jrn (c : Chip) (a hi lo v : Nat) : (c.setFld a hi lo v).jrn = c.jrn := rfl
@[simp] theorem Chip.setFld_age (c : Chip) (a hi lo v : Nat) : (c.setFld a hi lo v).age = c.age := rfl
@[simp] theorem Chip.setFld_pitch (c : Chip) (a hi lo v : Nat) : (c.setFld a hi lo v).pitch = c.pitch := rfl
@[simp] theorem Chip.setFld_mgt (c : Chip) (a hi lo v : Nat) : (c.setFld a hi lo v).mgt = c.mgt := rfl

/-! ### `Chip.setNat` -/

@[simp] theorem Chip.setNat_clk (c : Chip) (a v : Nat) : (c.setNat a v).clk = c.clk := rfl
@[simp] theorem Chip.setNat_latch (c : Chip) (a v : Nat) : (c.setNat a v).latch = c.latch := rfl
@[simp] theorem Chip.setNat_tbw (c : Chip) (a v : Nat) : (c.setNat a v).tbw = c.tbw := rfl
@[simp] theorem Chip.setNat_dram (c : Chip) (a v : Nat) : (c.setNat a v).dram = c.dram := rfl
@[simp] theorem Chip.setNat_evq (c : Chip) (a v : Nat) : (c.setNat a v).evq = c.evq := rfl
@[simp] theorem Chip.setNat_evDrop (c : Chip) (a v : Nat) : (c.setNat a v).evDrop = c.evDrop := rfl
@[simp] theorem Chip.setNat_rate (c : Chip) (a v : Nat) : (c.setNat a v).rate = c.rate := rfl
@[simp] theorem Chip.setNat_tx (c : Chip) (a v : Nat) : (c.setNat a v).tx = c.tx := rfl
@[simp] theorem Chip.setNat_mui (c : Chip) (a v : Nat) : (c.setNat a v).mui = c.mui := rfl
@[simp] theorem Chip.setNat_taps (c : Chip) (a v : Nat) : (c.setNat a v).taps = c.taps := rfl
@[simp] theorem Chip.setNat_watch (c : Chip) (a v : Nat) : (c.setNat a v).watch = c.watch := rfl
@[simp] theorem Chip.setNat_chk (c : Chip) (a v : Nat) : (c.setNat a v).chk = c.chk := rfl
@[simp] theorem Chip.setNat_pnt (c : Chip) (a v : Nat) : (c.setNat a v).pnt = c.pnt := rfl
@[simp] theorem Chip.setNat_bol (c : Chip) (a v : Nat) : (c.setNat a v).bol = c.bol := rfl
@[simp] theorem Chip.setNat_twn (c : Chip) (a v : Nat) : (c.setNat a v).twn = c.twn := rfl
@[simp] theorem Chip.setNat_slots (c : Chip) (a v : Nat) : (c.setNat a v).slots = c.slots := rfl
@[simp] theorem Chip.setNat_net (c : Chip) (a v : Nat) : (c.setNat a v).net = c.net := rfl
@[simp] theorem Chip.setNat_held (c : Chip) (a v : Nat) : (c.setNat a v).held = c.held := rfl
@[simp] theorem Chip.setNat_aus (c : Chip) (a v : Nat) : (c.setNat a v).aus = c.aus := rfl
@[simp] theorem Chip.setNat_shown (c : Chip) (a v : Nat) : (c.setNat a v).shown = c.shown := rfl
@[simp] theorem Chip.setNat_partIndex (c : Chip) (a v : Nat) : (c.setNat a v).partIndex = c.partIndex := rfl
@[simp] theorem Chip.setNat_curElem (c : Chip) (a v : Nat) : (c.setNat a v).curElem = c.curElem := rfl
@[simp] theorem Chip.setNat_curDesc (c : Chip) (a v : Nat) : (c.setNat a v).curDesc = c.curDesc := rfl
@[simp] theorem Chip.setNat_curRegion (c : Chip) (a v : Nat) : (c.setNat a v).curRegion = c.curRegion := rfl
@[simp] theorem Chip.setNat_prov (c : Chip) (a v : Nat) : (c.setNat a v).prov = c.prov := rfl
@[simp] theorem Chip.setNat_elems (c : Chip) (a v : Nat) : (c.setNat a v).elems = c.elems := rfl
@[simp] theorem Chip.setNat_heads (c : Chip) (a v : Nat) : (c.setNat a v).heads = c.heads := rfl
@[simp] theorem Chip.setNat_roomNumber (c : Chip) (a v : Nat) : (c.setNat a v).roomNumber = c.roomNumber := rfl
@[simp] theorem Chip.setNat_dec (c : Chip) (a v : Nat) : (c.setNat a v).dec = c.dec := rfl
@[simp] theorem Chip.setNat_enc (c : Chip) (a v : Nat) : (c.setNat a v).enc = c.enc := rfl
@[simp] theorem Chip.setNat_txs (c : Chip) (a v : Nat) : (c.setNat a v).txs = c.txs := rfl
@[simp] theorem Chip.setNat_saving (c : Chip) (a v : Nat) : (c.setNat a v).saving = c.saving := rfl
@[simp] theorem Chip.setNat_mem (c : Chip) (a v : Nat) : (c.setNat a v).mem = c.mem := rfl
@[simp] theorem Chip.setNat_pruCur (c : Chip) (a v : Nat) : (c.setNat a v).pruCur = c.pruCur := rfl
@[simp] theorem Chip.setNat_violations (c : Chip) (a v : Nat) : (c.setNat a v).violations = c.violations := rfl
@[simp] theorem Chip.setNat_tagHeld (c : Chip) (a v : Nat) : (c.setNat a v).tagHeld = c.tagHeld := rfl
@[simp] theorem Chip.setNat_trims (c : Chip) (a v : Nat) : (c.setNat a v).trims = c.trims := rfl
@[simp] theorem Chip.setNat_cams (c : Chip) (a v : Nat) : (c.setNat a v).cams = c.cams := rfl
@[simp] theorem Chip.setNat_caps (c : Chip) (a v : Nat) : (c.setNat a v).caps = c.caps := rfl
@[simp] theorem Chip.setNat_tch (c : Chip) (a v : Nat) : (c.setNat a v).tch = c.tch := rfl
@[simp] theorem Chip.setNat_d2dQueue (c : Chip) (a v : Nat) : (c.setNat a v).d2dQueue = c.d2dQueue := rfl
@[simp] theorem Chip.setNat_d2dDown (c : Chip) (a v : Nat) : (c.setNat a v).d2dDown = c.d2dDown := rfl
@[simp] theorem Chip.setNat_d2dLost (c : Chip) (a v : Nat) : (c.setNat a v).d2dLost = c.d2dLost := rfl
@[simp] theorem Chip.setNat_touchIn (c : Chip) (a v : Nat) : (c.setNat a v).touchIn = c.touchIn := rfl
@[simp] theorem Chip.setNat_ports (c : Chip) (a v : Nat) : (c.setNat a v).ports = c.ports := rfl
@[simp] theorem Chip.setNat_gpo (c : Chip) (a v : Nat) : (c.setNat a v).gpo = c.gpo := rfl
@[simp] theorem Chip.setNat_peg (c : Chip) (a v : Nat) : (c.setNat a v).peg = c.peg := rfl
@[simp] theorem Chip.setNat_jrn (c : Chip) (a v : Nat) : (c.setNat a v).jrn = c.jrn := rfl
@[simp] theorem Chip.setNat_age (c : Chip) (a v : Nat) : (c.setNat a v).age = c.age := rfl
@[simp] theorem Chip.setNat_pitch (c : Chip) (a v : Nat) : (c.setNat a v).pitch = c.pitch := rfl
@[simp] theorem Chip.setNat_mgt (c : Chip) (a v : Nat) : (c.setNat a v).mgt = c.mgt := rfl

/-! ### `Chip.setWide` -/

@[simp] theorem Chip.setWide_clk (c : Chip) (lo hi v : Nat) : (c.setWide lo hi v).clk = c.clk := rfl
@[simp] theorem Chip.setWide_latch (c : Chip) (lo hi v : Nat) : (c.setWide lo hi v).latch = c.latch := rfl
@[simp] theorem Chip.setWide_tbw (c : Chip) (lo hi v : Nat) : (c.setWide lo hi v).tbw = c.tbw := rfl
@[simp] theorem Chip.setWide_dram (c : Chip) (lo hi v : Nat) : (c.setWide lo hi v).dram = c.dram := rfl
@[simp] theorem Chip.setWide_evq (c : Chip) (lo hi v : Nat) : (c.setWide lo hi v).evq = c.evq := rfl
@[simp] theorem Chip.setWide_evDrop (c : Chip) (lo hi v : Nat) : (c.setWide lo hi v).evDrop = c.evDrop := rfl
@[simp] theorem Chip.setWide_rate (c : Chip) (lo hi v : Nat) : (c.setWide lo hi v).rate = c.rate := rfl
@[simp] theorem Chip.setWide_tx (c : Chip) (lo hi v : Nat) : (c.setWide lo hi v).tx = c.tx := rfl
@[simp] theorem Chip.setWide_mui (c : Chip) (lo hi v : Nat) : (c.setWide lo hi v).mui = c.mui := rfl
@[simp] theorem Chip.setWide_taps (c : Chip) (lo hi v : Nat) : (c.setWide lo hi v).taps = c.taps := rfl
@[simp] theorem Chip.setWide_watch (c : Chip) (lo hi v : Nat) : (c.setWide lo hi v).watch = c.watch := rfl
@[simp] theorem Chip.setWide_chk (c : Chip) (lo hi v : Nat) : (c.setWide lo hi v).chk = c.chk := rfl
@[simp] theorem Chip.setWide_pnt (c : Chip) (lo hi v : Nat) : (c.setWide lo hi v).pnt = c.pnt := rfl
@[simp] theorem Chip.setWide_bol (c : Chip) (lo hi v : Nat) : (c.setWide lo hi v).bol = c.bol := rfl
@[simp] theorem Chip.setWide_twn (c : Chip) (lo hi v : Nat) : (c.setWide lo hi v).twn = c.twn := rfl
@[simp] theorem Chip.setWide_slots (c : Chip) (lo hi v : Nat) : (c.setWide lo hi v).slots = c.slots := rfl
@[simp] theorem Chip.setWide_net (c : Chip) (lo hi v : Nat) : (c.setWide lo hi v).net = c.net := rfl
@[simp] theorem Chip.setWide_held (c : Chip) (lo hi v : Nat) : (c.setWide lo hi v).held = c.held := rfl
@[simp] theorem Chip.setWide_aus (c : Chip) (lo hi v : Nat) : (c.setWide lo hi v).aus = c.aus := rfl
@[simp] theorem Chip.setWide_shown (c : Chip) (lo hi v : Nat) : (c.setWide lo hi v).shown = c.shown := rfl
@[simp] theorem Chip.setWide_partIndex (c : Chip) (lo hi v : Nat) : (c.setWide lo hi v).partIndex = c.partIndex := rfl
@[simp] theorem Chip.setWide_curElem (c : Chip) (lo hi v : Nat) : (c.setWide lo hi v).curElem = c.curElem := rfl
@[simp] theorem Chip.setWide_curDesc (c : Chip) (lo hi v : Nat) : (c.setWide lo hi v).curDesc = c.curDesc := rfl
@[simp] theorem Chip.setWide_curRegion (c : Chip) (lo hi v : Nat) : (c.setWide lo hi v).curRegion = c.curRegion := rfl
@[simp] theorem Chip.setWide_prov (c : Chip) (lo hi v : Nat) : (c.setWide lo hi v).prov = c.prov := rfl
@[simp] theorem Chip.setWide_elems (c : Chip) (lo hi v : Nat) : (c.setWide lo hi v).elems = c.elems := rfl
@[simp] theorem Chip.setWide_heads (c : Chip) (lo hi v : Nat) : (c.setWide lo hi v).heads = c.heads := rfl
@[simp] theorem Chip.setWide_roomNumber (c : Chip) (lo hi v : Nat) : (c.setWide lo hi v).roomNumber = c.roomNumber := rfl
@[simp] theorem Chip.setWide_dec (c : Chip) (lo hi v : Nat) : (c.setWide lo hi v).dec = c.dec := rfl
@[simp] theorem Chip.setWide_enc (c : Chip) (lo hi v : Nat) : (c.setWide lo hi v).enc = c.enc := rfl
@[simp] theorem Chip.setWide_txs (c : Chip) (lo hi v : Nat) : (c.setWide lo hi v).txs = c.txs := rfl
@[simp] theorem Chip.setWide_saving (c : Chip) (lo hi v : Nat) : (c.setWide lo hi v).saving = c.saving := rfl
@[simp] theorem Chip.setWide_mem (c : Chip) (lo hi v : Nat) : (c.setWide lo hi v).mem = c.mem := rfl
@[simp] theorem Chip.setWide_pruCur (c : Chip) (lo hi v : Nat) : (c.setWide lo hi v).pruCur = c.pruCur := rfl
@[simp] theorem Chip.setWide_violations (c : Chip) (lo hi v : Nat) : (c.setWide lo hi v).violations = c.violations := rfl
@[simp] theorem Chip.setWide_tagHeld (c : Chip) (lo hi v : Nat) : (c.setWide lo hi v).tagHeld = c.tagHeld := rfl
@[simp] theorem Chip.setWide_trims (c : Chip) (lo hi v : Nat) : (c.setWide lo hi v).trims = c.trims := rfl
@[simp] theorem Chip.setWide_cams (c : Chip) (lo hi v : Nat) : (c.setWide lo hi v).cams = c.cams := rfl
@[simp] theorem Chip.setWide_caps (c : Chip) (lo hi v : Nat) : (c.setWide lo hi v).caps = c.caps := rfl
@[simp] theorem Chip.setWide_tch (c : Chip) (lo hi v : Nat) : (c.setWide lo hi v).tch = c.tch := rfl
@[simp] theorem Chip.setWide_d2dQueue (c : Chip) (lo hi v : Nat) : (c.setWide lo hi v).d2dQueue = c.d2dQueue := rfl
@[simp] theorem Chip.setWide_d2dDown (c : Chip) (lo hi v : Nat) : (c.setWide lo hi v).d2dDown = c.d2dDown := rfl
@[simp] theorem Chip.setWide_d2dLost (c : Chip) (lo hi v : Nat) : (c.setWide lo hi v).d2dLost = c.d2dLost := rfl
@[simp] theorem Chip.setWide_touchIn (c : Chip) (lo hi v : Nat) : (c.setWide lo hi v).touchIn = c.touchIn := rfl
@[simp] theorem Chip.setWide_ports (c : Chip) (lo hi v : Nat) : (c.setWide lo hi v).ports = c.ports := rfl
@[simp] theorem Chip.setWide_gpo (c : Chip) (lo hi v : Nat) : (c.setWide lo hi v).gpo = c.gpo := rfl
@[simp] theorem Chip.setWide_peg (c : Chip) (lo hi v : Nat) : (c.setWide lo hi v).peg = c.peg := rfl
@[simp] theorem Chip.setWide_jrn (c : Chip) (lo hi v : Nat) : (c.setWide lo hi v).jrn = c.jrn := rfl
@[simp] theorem Chip.setWide_age (c : Chip) (lo hi v : Nat) : (c.setWide lo hi v).age = c.age := rfl
@[simp] theorem Chip.setWide_pitch (c : Chip) (lo hi v : Nat) : (c.setWide lo hi v).pitch = c.pitch := rfl
@[simp] theorem Chip.setWide_mgt (c : Chip) (lo hi v : Nat) : (c.setWide lo hi v).mgt = c.mgt := rfl

/-! ### `Chip.tbwWrite` -/

@[simp] theorem Chip.tbwWrite_clk (c : Chip) (o : Nat) (l : List Byte) : (c.tbwWrite o l).clk = c.clk := rfl
@[simp] theorem Chip.tbwWrite_regs (c : Chip) (o : Nat) (l : List Byte) : (c.tbwWrite o l).regs = c.regs := rfl
@[simp] theorem Chip.tbwWrite_latch (c : Chip) (o : Nat) (l : List Byte) : (c.tbwWrite o l).latch = c.latch := rfl
@[simp] theorem Chip.tbwWrite_dram (c : Chip) (o : Nat) (l : List Byte) : (c.tbwWrite o l).dram = c.dram := rfl
@[simp] theorem Chip.tbwWrite_evq (c : Chip) (o : Nat) (l : List Byte) : (c.tbwWrite o l).evq = c.evq := rfl
@[simp] theorem Chip.tbwWrite_evDrop (c : Chip) (o : Nat) (l : List Byte) : (c.tbwWrite o l).evDrop = c.evDrop := rfl
@[simp] theorem Chip.tbwWrite_rate (c : Chip) (o : Nat) (l : List Byte) : (c.tbwWrite o l).rate = c.rate := rfl
@[simp] theorem Chip.tbwWrite_tx (c : Chip) (o : Nat) (l : List Byte) : (c.tbwWrite o l).tx = c.tx := rfl
@[simp] theorem Chip.tbwWrite_mui (c : Chip) (o : Nat) (l : List Byte) : (c.tbwWrite o l).mui = c.mui := rfl
@[simp] theorem Chip.tbwWrite_taps (c : Chip) (o : Nat) (l : List Byte) : (c.tbwWrite o l).taps = c.taps := rfl
@[simp] theorem Chip.tbwWrite_watch (c : Chip) (o : Nat) (l : List Byte) : (c.tbwWrite o l).watch = c.watch := rfl
@[simp] theorem Chip.tbwWrite_chk (c : Chip) (o : Nat) (l : List Byte) : (c.tbwWrite o l).chk = c.chk := rfl
@[simp] theorem Chip.tbwWrite_pnt (c : Chip) (o : Nat) (l : List Byte) : (c.tbwWrite o l).pnt = c.pnt := rfl
@[simp] theorem Chip.tbwWrite_bol (c : Chip) (o : Nat) (l : List Byte) : (c.tbwWrite o l).bol = c.bol := rfl
@[simp] theorem Chip.tbwWrite_twn (c : Chip) (o : Nat) (l : List Byte) : (c.tbwWrite o l).twn = c.twn := rfl
@[simp] theorem Chip.tbwWrite_slots (c : Chip) (o : Nat) (l : List Byte) : (c.tbwWrite o l).slots = c.slots := rfl
@[simp] theorem Chip.tbwWrite_net (c : Chip) (o : Nat) (l : List Byte) : (c.tbwWrite o l).net = c.net := rfl
@[simp] theorem Chip.tbwWrite_held (c : Chip) (o : Nat) (l : List Byte) : (c.tbwWrite o l).held = c.held := rfl
@[simp] theorem Chip.tbwWrite_aus (c : Chip) (o : Nat) (l : List Byte) : (c.tbwWrite o l).aus = c.aus := rfl
@[simp] theorem Chip.tbwWrite_shown (c : Chip) (o : Nat) (l : List Byte) : (c.tbwWrite o l).shown = c.shown := rfl
@[simp] theorem Chip.tbwWrite_partIndex (c : Chip) (o : Nat) (l : List Byte) : (c.tbwWrite o l).partIndex = c.partIndex := rfl
@[simp] theorem Chip.tbwWrite_curElem (c : Chip) (o : Nat) (l : List Byte) : (c.tbwWrite o l).curElem = c.curElem := rfl
@[simp] theorem Chip.tbwWrite_curDesc (c : Chip) (o : Nat) (l : List Byte) : (c.tbwWrite o l).curDesc = c.curDesc := rfl
@[simp] theorem Chip.tbwWrite_curRegion (c : Chip) (o : Nat) (l : List Byte) : (c.tbwWrite o l).curRegion = c.curRegion := rfl
@[simp] theorem Chip.tbwWrite_prov (c : Chip) (o : Nat) (l : List Byte) : (c.tbwWrite o l).prov = c.prov := rfl
@[simp] theorem Chip.tbwWrite_elems (c : Chip) (o : Nat) (l : List Byte) : (c.tbwWrite o l).elems = c.elems := rfl
@[simp] theorem Chip.tbwWrite_heads (c : Chip) (o : Nat) (l : List Byte) : (c.tbwWrite o l).heads = c.heads := rfl
@[simp] theorem Chip.tbwWrite_roomNumber (c : Chip) (o : Nat) (l : List Byte) : (c.tbwWrite o l).roomNumber = c.roomNumber := rfl
@[simp] theorem Chip.tbwWrite_dec (c : Chip) (o : Nat) (l : List Byte) : (c.tbwWrite o l).dec = c.dec := rfl
@[simp] theorem Chip.tbwWrite_enc (c : Chip) (o : Nat) (l : List Byte) : (c.tbwWrite o l).enc = c.enc := rfl
@[simp] theorem Chip.tbwWrite_txs (c : Chip) (o : Nat) (l : List Byte) : (c.tbwWrite o l).txs = c.txs := rfl
@[simp] theorem Chip.tbwWrite_saving (c : Chip) (o : Nat) (l : List Byte) : (c.tbwWrite o l).saving = c.saving := rfl
@[simp] theorem Chip.tbwWrite_mem (c : Chip) (o : Nat) (l : List Byte) : (c.tbwWrite o l).mem = c.mem := rfl
@[simp] theorem Chip.tbwWrite_pruCur (c : Chip) (o : Nat) (l : List Byte) : (c.tbwWrite o l).pruCur = c.pruCur := rfl
@[simp] theorem Chip.tbwWrite_violations (c : Chip) (o : Nat) (l : List Byte) : (c.tbwWrite o l).violations = c.violations := rfl
@[simp] theorem Chip.tbwWrite_tagHeld (c : Chip) (o : Nat) (l : List Byte) : (c.tbwWrite o l).tagHeld = c.tagHeld := rfl
@[simp] theorem Chip.tbwWrite_trims (c : Chip) (o : Nat) (l : List Byte) : (c.tbwWrite o l).trims = c.trims := rfl
@[simp] theorem Chip.tbwWrite_cams (c : Chip) (o : Nat) (l : List Byte) : (c.tbwWrite o l).cams = c.cams := rfl
@[simp] theorem Chip.tbwWrite_caps (c : Chip) (o : Nat) (l : List Byte) : (c.tbwWrite o l).caps = c.caps := rfl
@[simp] theorem Chip.tbwWrite_tch (c : Chip) (o : Nat) (l : List Byte) : (c.tbwWrite o l).tch = c.tch := rfl
@[simp] theorem Chip.tbwWrite_d2dQueue (c : Chip) (o : Nat) (l : List Byte) : (c.tbwWrite o l).d2dQueue = c.d2dQueue := rfl
@[simp] theorem Chip.tbwWrite_d2dDown (c : Chip) (o : Nat) (l : List Byte) : (c.tbwWrite o l).d2dDown = c.d2dDown := rfl
@[simp] theorem Chip.tbwWrite_d2dLost (c : Chip) (o : Nat) (l : List Byte) : (c.tbwWrite o l).d2dLost = c.d2dLost := rfl
@[simp] theorem Chip.tbwWrite_touchIn (c : Chip) (o : Nat) (l : List Byte) : (c.tbwWrite o l).touchIn = c.touchIn := rfl
@[simp] theorem Chip.tbwWrite_ports (c : Chip) (o : Nat) (l : List Byte) : (c.tbwWrite o l).ports = c.ports := rfl
@[simp] theorem Chip.tbwWrite_gpo (c : Chip) (o : Nat) (l : List Byte) : (c.tbwWrite o l).gpo = c.gpo := rfl
@[simp] theorem Chip.tbwWrite_peg (c : Chip) (o : Nat) (l : List Byte) : (c.tbwWrite o l).peg = c.peg := rfl
@[simp] theorem Chip.tbwWrite_jrn (c : Chip) (o : Nat) (l : List Byte) : (c.tbwWrite o l).jrn = c.jrn := rfl
@[simp] theorem Chip.tbwWrite_age (c : Chip) (o : Nat) (l : List Byte) : (c.tbwWrite o l).age = c.age := rfl
@[simp] theorem Chip.tbwWrite_pitch (c : Chip) (o : Nat) (l : List Byte) : (c.tbwWrite o l).pitch = c.pitch := rfl
@[simp] theorem Chip.tbwWrite_mgt (c : Chip) (o : Nat) (l : List Byte) : (c.tbwWrite o l).mgt = c.mgt := rfl

/-! ### `Chip.tbwPut` -/

@[simp] theorem Chip.tbwPut_clk (c : Chip) (o n v : Nat) : (c.tbwPut o n v).clk = c.clk := rfl
@[simp] theorem Chip.tbwPut_regs (c : Chip) (o n v : Nat) : (c.tbwPut o n v).regs = c.regs := rfl
@[simp] theorem Chip.tbwPut_latch (c : Chip) (o n v : Nat) : (c.tbwPut o n v).latch = c.latch := rfl
@[simp] theorem Chip.tbwPut_dram (c : Chip) (o n v : Nat) : (c.tbwPut o n v).dram = c.dram := rfl
@[simp] theorem Chip.tbwPut_evq (c : Chip) (o n v : Nat) : (c.tbwPut o n v).evq = c.evq := rfl
@[simp] theorem Chip.tbwPut_evDrop (c : Chip) (o n v : Nat) : (c.tbwPut o n v).evDrop = c.evDrop := rfl
@[simp] theorem Chip.tbwPut_rate (c : Chip) (o n v : Nat) : (c.tbwPut o n v).rate = c.rate := rfl
@[simp] theorem Chip.tbwPut_tx (c : Chip) (o n v : Nat) : (c.tbwPut o n v).tx = c.tx := rfl
@[simp] theorem Chip.tbwPut_mui (c : Chip) (o n v : Nat) : (c.tbwPut o n v).mui = c.mui := rfl
@[simp] theorem Chip.tbwPut_taps (c : Chip) (o n v : Nat) : (c.tbwPut o n v).taps = c.taps := rfl
@[simp] theorem Chip.tbwPut_watch (c : Chip) (o n v : Nat) : (c.tbwPut o n v).watch = c.watch := rfl
@[simp] theorem Chip.tbwPut_chk (c : Chip) (o n v : Nat) : (c.tbwPut o n v).chk = c.chk := rfl
@[simp] theorem Chip.tbwPut_pnt (c : Chip) (o n v : Nat) : (c.tbwPut o n v).pnt = c.pnt := rfl
@[simp] theorem Chip.tbwPut_bol (c : Chip) (o n v : Nat) : (c.tbwPut o n v).bol = c.bol := rfl
@[simp] theorem Chip.tbwPut_twn (c : Chip) (o n v : Nat) : (c.tbwPut o n v).twn = c.twn := rfl
@[simp] theorem Chip.tbwPut_slots (c : Chip) (o n v : Nat) : (c.tbwPut o n v).slots = c.slots := rfl
@[simp] theorem Chip.tbwPut_net (c : Chip) (o n v : Nat) : (c.tbwPut o n v).net = c.net := rfl
@[simp] theorem Chip.tbwPut_held (c : Chip) (o n v : Nat) : (c.tbwPut o n v).held = c.held := rfl
@[simp] theorem Chip.tbwPut_aus (c : Chip) (o n v : Nat) : (c.tbwPut o n v).aus = c.aus := rfl
@[simp] theorem Chip.tbwPut_shown (c : Chip) (o n v : Nat) : (c.tbwPut o n v).shown = c.shown := rfl
@[simp] theorem Chip.tbwPut_partIndex (c : Chip) (o n v : Nat) : (c.tbwPut o n v).partIndex = c.partIndex := rfl
@[simp] theorem Chip.tbwPut_curElem (c : Chip) (o n v : Nat) : (c.tbwPut o n v).curElem = c.curElem := rfl
@[simp] theorem Chip.tbwPut_curDesc (c : Chip) (o n v : Nat) : (c.tbwPut o n v).curDesc = c.curDesc := rfl
@[simp] theorem Chip.tbwPut_curRegion (c : Chip) (o n v : Nat) : (c.tbwPut o n v).curRegion = c.curRegion := rfl
@[simp] theorem Chip.tbwPut_prov (c : Chip) (o n v : Nat) : (c.tbwPut o n v).prov = c.prov := rfl
@[simp] theorem Chip.tbwPut_elems (c : Chip) (o n v : Nat) : (c.tbwPut o n v).elems = c.elems := rfl
@[simp] theorem Chip.tbwPut_heads (c : Chip) (o n v : Nat) : (c.tbwPut o n v).heads = c.heads := rfl
@[simp] theorem Chip.tbwPut_roomNumber (c : Chip) (o n v : Nat) : (c.tbwPut o n v).roomNumber = c.roomNumber := rfl
@[simp] theorem Chip.tbwPut_dec (c : Chip) (o n v : Nat) : (c.tbwPut o n v).dec = c.dec := rfl
@[simp] theorem Chip.tbwPut_enc (c : Chip) (o n v : Nat) : (c.tbwPut o n v).enc = c.enc := rfl
@[simp] theorem Chip.tbwPut_txs (c : Chip) (o n v : Nat) : (c.tbwPut o n v).txs = c.txs := rfl
@[simp] theorem Chip.tbwPut_saving (c : Chip) (o n v : Nat) : (c.tbwPut o n v).saving = c.saving := rfl
@[simp] theorem Chip.tbwPut_mem (c : Chip) (o n v : Nat) : (c.tbwPut o n v).mem = c.mem := rfl
@[simp] theorem Chip.tbwPut_pruCur (c : Chip) (o n v : Nat) : (c.tbwPut o n v).pruCur = c.pruCur := rfl
@[simp] theorem Chip.tbwPut_violations (c : Chip) (o n v : Nat) : (c.tbwPut o n v).violations = c.violations := rfl
@[simp] theorem Chip.tbwPut_tagHeld (c : Chip) (o n v : Nat) : (c.tbwPut o n v).tagHeld = c.tagHeld := rfl
@[simp] theorem Chip.tbwPut_trims (c : Chip) (o n v : Nat) : (c.tbwPut o n v).trims = c.trims := rfl
@[simp] theorem Chip.tbwPut_cams (c : Chip) (o n v : Nat) : (c.tbwPut o n v).cams = c.cams := rfl
@[simp] theorem Chip.tbwPut_caps (c : Chip) (o n v : Nat) : (c.tbwPut o n v).caps = c.caps := rfl
@[simp] theorem Chip.tbwPut_tch (c : Chip) (o n v : Nat) : (c.tbwPut o n v).tch = c.tch := rfl
@[simp] theorem Chip.tbwPut_d2dQueue (c : Chip) (o n v : Nat) : (c.tbwPut o n v).d2dQueue = c.d2dQueue := rfl
@[simp] theorem Chip.tbwPut_d2dDown (c : Chip) (o n v : Nat) : (c.tbwPut o n v).d2dDown = c.d2dDown := rfl
@[simp] theorem Chip.tbwPut_d2dLost (c : Chip) (o n v : Nat) : (c.tbwPut o n v).d2dLost = c.d2dLost := rfl
@[simp] theorem Chip.tbwPut_touchIn (c : Chip) (o n v : Nat) : (c.tbwPut o n v).touchIn = c.touchIn := rfl
@[simp] theorem Chip.tbwPut_ports (c : Chip) (o n v : Nat) : (c.tbwPut o n v).ports = c.ports := rfl
@[simp] theorem Chip.tbwPut_gpo (c : Chip) (o n v : Nat) : (c.tbwPut o n v).gpo = c.gpo := rfl
@[simp] theorem Chip.tbwPut_peg (c : Chip) (o n v : Nat) : (c.tbwPut o n v).peg = c.peg := rfl
@[simp] theorem Chip.tbwPut_jrn (c : Chip) (o n v : Nat) : (c.tbwPut o n v).jrn = c.jrn := rfl
@[simp] theorem Chip.tbwPut_age (c : Chip) (o n v : Nat) : (c.tbwPut o n v).age = c.age := rfl
@[simp] theorem Chip.tbwPut_pitch (c : Chip) (o n v : Nat) : (c.tbwPut o n v).pitch = c.pitch := rfl
@[simp] theorem Chip.tbwPut_mgt (c : Chip) (o n v : Nat) : (c.tbwPut o n v).mgt = c.mgt := rfl

/-! ### `Chip.dramWrite` -/

@[simp] theorem Chip.dramWrite_clk (c : Chip) (a : Nat) (l : List Byte) : (c.dramWrite a l).clk = c.clk := by unfold Chip.dramWrite; split <;> rfl
@[simp] theorem Chip.dramWrite_regs (c : Chip) (a : Nat) (l : List Byte) : (c.dramWrite a l).regs = c.regs := by unfold Chip.dramWrite; split <;> rfl
@[simp] theorem Chip.dramWrite_latch (c : Chip) (a : Nat) (l : List Byte) : (c.dramWrite a l).latch = c.latch := by unfold Chip.dramWrite; split <;> rfl
@[simp] theorem Chip.dramWrite_tbw (c : Chip) (a : Nat) (l : List Byte) : (c.dramWrite a l).tbw = c.tbw := by unfold Chip.dramWrite; split <;> rfl
@[simp] theorem Chip.dramWrite_evq (c : Chip) (a : Nat) (l : List Byte) : (c.dramWrite a l).evq = c.evq := by unfold Chip.dramWrite; split <;> rfl
@[simp] theorem Chip.dramWrite_evDrop (c : Chip) (a : Nat) (l : List Byte) : (c.dramWrite a l).evDrop = c.evDrop := by unfold Chip.dramWrite; split <;> rfl
@[simp] theorem Chip.dramWrite_rate (c : Chip) (a : Nat) (l : List Byte) : (c.dramWrite a l).rate = c.rate := by unfold Chip.dramWrite; split <;> rfl
@[simp] theorem Chip.dramWrite_tx (c : Chip) (a : Nat) (l : List Byte) : (c.dramWrite a l).tx = c.tx := by unfold Chip.dramWrite; split <;> rfl
@[simp] theorem Chip.dramWrite_mui (c : Chip) (a : Nat) (l : List Byte) : (c.dramWrite a l).mui = c.mui := by unfold Chip.dramWrite; split <;> rfl
@[simp] theorem Chip.dramWrite_taps (c : Chip) (a : Nat) (l : List Byte) : (c.dramWrite a l).taps = c.taps := by unfold Chip.dramWrite; split <;> rfl
@[simp] theorem Chip.dramWrite_watch (c : Chip) (a : Nat) (l : List Byte) : (c.dramWrite a l).watch = c.watch := by unfold Chip.dramWrite; split <;> rfl
@[simp] theorem Chip.dramWrite_chk (c : Chip) (a : Nat) (l : List Byte) : (c.dramWrite a l).chk = c.chk := by unfold Chip.dramWrite; split <;> rfl
@[simp] theorem Chip.dramWrite_pnt (c : Chip) (a : Nat) (l : List Byte) : (c.dramWrite a l).pnt = c.pnt := by unfold Chip.dramWrite; split <;> rfl
@[simp] theorem Chip.dramWrite_bol (c : Chip) (a : Nat) (l : List Byte) : (c.dramWrite a l).bol = c.bol := by unfold Chip.dramWrite; split <;> rfl
@[simp] theorem Chip.dramWrite_twn (c : Chip) (a : Nat) (l : List Byte) : (c.dramWrite a l).twn = c.twn := by unfold Chip.dramWrite; split <;> rfl
@[simp] theorem Chip.dramWrite_slots (c : Chip) (a : Nat) (l : List Byte) : (c.dramWrite a l).slots = c.slots := by unfold Chip.dramWrite; split <;> rfl
@[simp] theorem Chip.dramWrite_net (c : Chip) (a : Nat) (l : List Byte) : (c.dramWrite a l).net = c.net := by unfold Chip.dramWrite; split <;> rfl
@[simp] theorem Chip.dramWrite_held (c : Chip) (a : Nat) (l : List Byte) : (c.dramWrite a l).held = c.held := by unfold Chip.dramWrite; split <;> rfl
@[simp] theorem Chip.dramWrite_aus (c : Chip) (a : Nat) (l : List Byte) : (c.dramWrite a l).aus = c.aus := by unfold Chip.dramWrite; split <;> rfl
@[simp] theorem Chip.dramWrite_shown (c : Chip) (a : Nat) (l : List Byte) : (c.dramWrite a l).shown = c.shown := by unfold Chip.dramWrite; split <;> rfl
@[simp] theorem Chip.dramWrite_partIndex (c : Chip) (a : Nat) (l : List Byte) : (c.dramWrite a l).partIndex = c.partIndex := by unfold Chip.dramWrite; split <;> rfl
@[simp] theorem Chip.dramWrite_curElem (c : Chip) (a : Nat) (l : List Byte) : (c.dramWrite a l).curElem = c.curElem := by unfold Chip.dramWrite; split <;> rfl
@[simp] theorem Chip.dramWrite_curDesc (c : Chip) (a : Nat) (l : List Byte) : (c.dramWrite a l).curDesc = c.curDesc := by unfold Chip.dramWrite; split <;> rfl
@[simp] theorem Chip.dramWrite_curRegion (c : Chip) (a : Nat) (l : List Byte) : (c.dramWrite a l).curRegion = c.curRegion := by unfold Chip.dramWrite; split <;> rfl
@[simp] theorem Chip.dramWrite_prov (c : Chip) (a : Nat) (l : List Byte) : (c.dramWrite a l).prov = c.prov := by unfold Chip.dramWrite; split <;> rfl
@[simp] theorem Chip.dramWrite_elems (c : Chip) (a : Nat) (l : List Byte) : (c.dramWrite a l).elems = c.elems := by unfold Chip.dramWrite; split <;> rfl
@[simp] theorem Chip.dramWrite_heads (c : Chip) (a : Nat) (l : List Byte) : (c.dramWrite a l).heads = c.heads := by unfold Chip.dramWrite; split <;> rfl
@[simp] theorem Chip.dramWrite_roomNumber (c : Chip) (a : Nat) (l : List Byte) : (c.dramWrite a l).roomNumber = c.roomNumber := by unfold Chip.dramWrite; split <;> rfl
@[simp] theorem Chip.dramWrite_dec (c : Chip) (a : Nat) (l : List Byte) : (c.dramWrite a l).dec = c.dec := by unfold Chip.dramWrite; split <;> rfl
@[simp] theorem Chip.dramWrite_enc (c : Chip) (a : Nat) (l : List Byte) : (c.dramWrite a l).enc = c.enc := by unfold Chip.dramWrite; split <;> rfl
@[simp] theorem Chip.dramWrite_txs (c : Chip) (a : Nat) (l : List Byte) : (c.dramWrite a l).txs = c.txs := by unfold Chip.dramWrite; split <;> rfl
@[simp] theorem Chip.dramWrite_saving (c : Chip) (a : Nat) (l : List Byte) : (c.dramWrite a l).saving = c.saving := by unfold Chip.dramWrite; split <;> rfl
@[simp] theorem Chip.dramWrite_mem (c : Chip) (a : Nat) (l : List Byte) : (c.dramWrite a l).mem = c.mem := by unfold Chip.dramWrite; split <;> rfl
@[simp] theorem Chip.dramWrite_pruCur (c : Chip) (a : Nat) (l : List Byte) : (c.dramWrite a l).pruCur = c.pruCur := by unfold Chip.dramWrite; split <;> rfl
@[simp] theorem Chip.dramWrite_violations (c : Chip) (a : Nat) (l : List Byte) : (c.dramWrite a l).violations = c.violations := by unfold Chip.dramWrite; split <;> rfl
@[simp] theorem Chip.dramWrite_tagHeld (c : Chip) (a : Nat) (l : List Byte) : (c.dramWrite a l).tagHeld = c.tagHeld := by unfold Chip.dramWrite; split <;> rfl
@[simp] theorem Chip.dramWrite_trims (c : Chip) (a : Nat) (l : List Byte) : (c.dramWrite a l).trims = c.trims := by unfold Chip.dramWrite; split <;> rfl
@[simp] theorem Chip.dramWrite_cams (c : Chip) (a : Nat) (l : List Byte) : (c.dramWrite a l).cams = c.cams := by unfold Chip.dramWrite; split <;> rfl
@[simp] theorem Chip.dramWrite_caps (c : Chip) (a : Nat) (l : List Byte) : (c.dramWrite a l).caps = c.caps := by unfold Chip.dramWrite; split <;> rfl
@[simp] theorem Chip.dramWrite_tch (c : Chip) (a : Nat) (l : List Byte) : (c.dramWrite a l).tch = c.tch := by unfold Chip.dramWrite; split <;> rfl
@[simp] theorem Chip.dramWrite_d2dQueue (c : Chip) (a : Nat) (l : List Byte) : (c.dramWrite a l).d2dQueue = c.d2dQueue := by unfold Chip.dramWrite; split <;> rfl
@[simp] theorem Chip.dramWrite_d2dDown (c : Chip) (a : Nat) (l : List Byte) : (c.dramWrite a l).d2dDown = c.d2dDown := by unfold Chip.dramWrite; split <;> rfl
@[simp] theorem Chip.dramWrite_d2dLost (c : Chip) (a : Nat) (l : List Byte) : (c.dramWrite a l).d2dLost = c.d2dLost := by unfold Chip.dramWrite; split <;> rfl
@[simp] theorem Chip.dramWrite_touchIn (c : Chip) (a : Nat) (l : List Byte) : (c.dramWrite a l).touchIn = c.touchIn := by unfold Chip.dramWrite; split <;> rfl
@[simp] theorem Chip.dramWrite_ports (c : Chip) (a : Nat) (l : List Byte) : (c.dramWrite a l).ports = c.ports := by unfold Chip.dramWrite; split <;> rfl
@[simp] theorem Chip.dramWrite_gpo (c : Chip) (a : Nat) (l : List Byte) : (c.dramWrite a l).gpo = c.gpo := by unfold Chip.dramWrite; split <;> rfl
@[simp] theorem Chip.dramWrite_peg (c : Chip) (a : Nat) (l : List Byte) : (c.dramWrite a l).peg = c.peg := by unfold Chip.dramWrite; split <;> rfl
@[simp] theorem Chip.dramWrite_jrn (c : Chip) (a : Nat) (l : List Byte) : (c.dramWrite a l).jrn = c.jrn := by unfold Chip.dramWrite; split <;> rfl
@[simp] theorem Chip.dramWrite_age (c : Chip) (a : Nat) (l : List Byte) : (c.dramWrite a l).age = c.age := by unfold Chip.dramWrite; split <;> rfl
@[simp] theorem Chip.dramWrite_pitch (c : Chip) (a : Nat) (l : List Byte) : (c.dramWrite a l).pitch = c.pitch := by unfold Chip.dramWrite; split <;> rfl
@[simp] theorem Chip.dramWrite_mgt (c : Chip) (a : Nat) (l : List Byte) : (c.dramWrite a l).mgt = c.mgt := by unfold Chip.dramWrite; split <;> rfl

/-! ### `Chip.dramPut` -/

@[simp] theorem Chip.dramPut_clk (c : Chip) (a n v : Nat) : (c.dramPut a n v).clk = c.clk := by simp [Chip.dramPut]
@[simp] theorem Chip.dramPut_regs (c : Chip) (a n v : Nat) : (c.dramPut a n v).regs = c.regs := by simp [Chip.dramPut]
@[simp] theorem Chip.dramPut_latch (c : Chip) (a n v : Nat) : (c.dramPut a n v).latch = c.latch := by simp [Chip.dramPut]
@[simp] theorem Chip.dramPut_tbw (c : Chip) (a n v : Nat) : (c.dramPut a n v).tbw = c.tbw := by simp [Chip.dramPut]
@[simp] theorem Chip.dramPut_evq (c : Chip) (a n v : Nat) : (c.dramPut a n v).evq = c.evq := by simp [Chip.dramPut]
@[simp] theorem Chip.dramPut_evDrop (c : Chip) (a n v : Nat) : (c.dramPut a n v).evDrop = c.evDrop := by simp [Chip.dramPut]
@[simp] theorem Chip.dramPut_rate (c : Chip) (a n v : Nat) : (c.dramPut a n v).rate = c.rate := by simp [Chip.dramPut]
@[simp] theorem Chip.dramPut_tx (c : Chip) (a n v : Nat) : (c.dramPut a n v).tx = c.tx := by simp [Chip.dramPut]
@[simp] theorem Chip.dramPut_mui (c : Chip) (a n v : Nat) : (c.dramPut a n v).mui = c.mui := by simp [Chip.dramPut]
@[simp] theorem Chip.dramPut_taps (c : Chip) (a n v : Nat) : (c.dramPut a n v).taps = c.taps := by simp [Chip.dramPut]
@[simp] theorem Chip.dramPut_watch (c : Chip) (a n v : Nat) : (c.dramPut a n v).watch = c.watch := by simp [Chip.dramPut]
@[simp] theorem Chip.dramPut_chk (c : Chip) (a n v : Nat) : (c.dramPut a n v).chk = c.chk := by simp [Chip.dramPut]
@[simp] theorem Chip.dramPut_pnt (c : Chip) (a n v : Nat) : (c.dramPut a n v).pnt = c.pnt := by simp [Chip.dramPut]
@[simp] theorem Chip.dramPut_bol (c : Chip) (a n v : Nat) : (c.dramPut a n v).bol = c.bol := by simp [Chip.dramPut]
@[simp] theorem Chip.dramPut_twn (c : Chip) (a n v : Nat) : (c.dramPut a n v).twn = c.twn := by simp [Chip.dramPut]
@[simp] theorem Chip.dramPut_slots (c : Chip) (a n v : Nat) : (c.dramPut a n v).slots = c.slots := by simp [Chip.dramPut]
@[simp] theorem Chip.dramPut_net (c : Chip) (a n v : Nat) : (c.dramPut a n v).net = c.net := by simp [Chip.dramPut]
@[simp] theorem Chip.dramPut_held (c : Chip) (a n v : Nat) : (c.dramPut a n v).held = c.held := by simp [Chip.dramPut]
@[simp] theorem Chip.dramPut_aus (c : Chip) (a n v : Nat) : (c.dramPut a n v).aus = c.aus := by simp [Chip.dramPut]
@[simp] theorem Chip.dramPut_shown (c : Chip) (a n v : Nat) : (c.dramPut a n v).shown = c.shown := by simp [Chip.dramPut]
@[simp] theorem Chip.dramPut_partIndex (c : Chip) (a n v : Nat) : (c.dramPut a n v).partIndex = c.partIndex := by simp [Chip.dramPut]
@[simp] theorem Chip.dramPut_curElem (c : Chip) (a n v : Nat) : (c.dramPut a n v).curElem = c.curElem := by simp [Chip.dramPut]
@[simp] theorem Chip.dramPut_curDesc (c : Chip) (a n v : Nat) : (c.dramPut a n v).curDesc = c.curDesc := by simp [Chip.dramPut]
@[simp] theorem Chip.dramPut_curRegion (c : Chip) (a n v : Nat) : (c.dramPut a n v).curRegion = c.curRegion := by simp [Chip.dramPut]
@[simp] theorem Chip.dramPut_prov (c : Chip) (a n v : Nat) : (c.dramPut a n v).prov = c.prov := by simp [Chip.dramPut]
@[simp] theorem Chip.dramPut_elems (c : Chip) (a n v : Nat) : (c.dramPut a n v).elems = c.elems := by simp [Chip.dramPut]
@[simp] theorem Chip.dramPut_heads (c : Chip) (a n v : Nat) : (c.dramPut a n v).heads = c.heads := by simp [Chip.dramPut]
@[simp] theorem Chip.dramPut_roomNumber (c : Chip) (a n v : Nat) : (c.dramPut a n v).roomNumber = c.roomNumber := by simp [Chip.dramPut]
@[simp] theorem Chip.dramPut_dec (c : Chip) (a n v : Nat) : (c.dramPut a n v).dec = c.dec := by simp [Chip.dramPut]
@[simp] theorem Chip.dramPut_enc (c : Chip) (a n v : Nat) : (c.dramPut a n v).enc = c.enc := by simp [Chip.dramPut]
@[simp] theorem Chip.dramPut_txs (c : Chip) (a n v : Nat) : (c.dramPut a n v).txs = c.txs := by simp [Chip.dramPut]
@[simp] theorem Chip.dramPut_saving (c : Chip) (a n v : Nat) : (c.dramPut a n v).saving = c.saving := by simp [Chip.dramPut]
@[simp] theorem Chip.dramPut_mem (c : Chip) (a n v : Nat) : (c.dramPut a n v).mem = c.mem := by simp [Chip.dramPut]
@[simp] theorem Chip.dramPut_pruCur (c : Chip) (a n v : Nat) : (c.dramPut a n v).pruCur = c.pruCur := by simp [Chip.dramPut]
@[simp] theorem Chip.dramPut_violations (c : Chip) (a n v : Nat) : (c.dramPut a n v).violations = c.violations := by simp [Chip.dramPut]
@[simp] theorem Chip.dramPut_tagHeld (c : Chip) (a n v : Nat) : (c.dramPut a n v).tagHeld = c.tagHeld := by simp [Chip.dramPut]
@[simp] theorem Chip.dramPut_trims (c : Chip) (a n v : Nat) : (c.dramPut a n v).trims = c.trims := by simp [Chip.dramPut]
@[simp] theorem Chip.dramPut_cams (c : Chip) (a n v : Nat) : (c.dramPut a n v).cams = c.cams := by simp [Chip.dramPut]
@[simp] theorem Chip.dramPut_caps (c : Chip) (a n v : Nat) : (c.dramPut a n v).caps = c.caps := by simp [Chip.dramPut]
@[simp] theorem Chip.dramPut_tch (c : Chip) (a n v : Nat) : (c.dramPut a n v).tch = c.tch := by simp [Chip.dramPut]
@[simp] theorem Chip.dramPut_d2dQueue (c : Chip) (a n v : Nat) : (c.dramPut a n v).d2dQueue = c.d2dQueue := by simp [Chip.dramPut]
@[simp] theorem Chip.dramPut_d2dDown (c : Chip) (a n v : Nat) : (c.dramPut a n v).d2dDown = c.d2dDown := by simp [Chip.dramPut]
@[simp] theorem Chip.dramPut_d2dLost (c : Chip) (a n v : Nat) : (c.dramPut a n v).d2dLost = c.d2dLost := by simp [Chip.dramPut]
@[simp] theorem Chip.dramPut_touchIn (c : Chip) (a n v : Nat) : (c.dramPut a n v).touchIn = c.touchIn := by simp [Chip.dramPut]
@[simp] theorem Chip.dramPut_ports (c : Chip) (a n v : Nat) : (c.dramPut a n v).ports = c.ports := by simp [Chip.dramPut]
@[simp] theorem Chip.dramPut_gpo (c : Chip) (a n v : Nat) : (c.dramPut a n v).gpo = c.gpo := by simp [Chip.dramPut]
@[simp] theorem Chip.dramPut_peg (c : Chip) (a n v : Nat) : (c.dramPut a n v).peg = c.peg := by simp [Chip.dramPut]
@[simp] theorem Chip.dramPut_jrn (c : Chip) (a n v : Nat) : (c.dramPut a n v).jrn = c.jrn := by simp [Chip.dramPut]
@[simp] theorem Chip.dramPut_age (c : Chip) (a n v : Nat) : (c.dramPut a n v).age = c.age := by simp [Chip.dramPut]
@[simp] theorem Chip.dramPut_pitch (c : Chip) (a n v : Nat) : (c.dramPut a n v).pitch = c.pitch := by simp [Chip.dramPut]
@[simp] theorem Chip.dramPut_mgt (c : Chip) (a n v : Nat) : (c.dramPut a n v).mgt = c.mgt := by simp [Chip.dramPut]

/-! ### `Chip.addFld` -/

@[simp] theorem Chip.addFld_clk (c : Chip) (a hi lo n : Nat) : (c.addFld a hi lo n).clk = c.clk := rfl
@[simp] theorem Chip.addFld_latch (c : Chip) (a hi lo n : Nat) : (c.addFld a hi lo n).latch = c.latch := rfl
@[simp] theorem Chip.addFld_tbw (c : Chip) (a hi lo n : Nat) : (c.addFld a hi lo n).tbw = c.tbw := rfl
@[simp] theorem Chip.addFld_dram (c : Chip) (a hi lo n : Nat) : (c.addFld a hi lo n).dram = c.dram := rfl
@[simp] theorem Chip.addFld_evq (c : Chip) (a hi lo n : Nat) : (c.addFld a hi lo n).evq = c.evq := rfl
@[simp] theorem Chip.addFld_evDrop (c : Chip) (a hi lo n : Nat) : (c.addFld a hi lo n).evDrop = c.evDrop := rfl
@[simp] theorem Chip.addFld_rate (c : Chip) (a hi lo n : Nat) : (c.addFld a hi lo n).rate = c.rate := rfl
@[simp] theorem Chip.addFld_tx (c : Chip) (a hi lo n : Nat) : (c.addFld a hi lo n).tx = c.tx := rfl
@[simp] theorem Chip.addFld_mui (c : Chip) (a hi lo n : Nat) : (c.addFld a hi lo n).mui = c.mui := rfl
@[simp] theorem Chip.addFld_taps (c : Chip) (a hi lo n : Nat) : (c.addFld a hi lo n).taps = c.taps := rfl
@[simp] theorem Chip.addFld_watch (c : Chip) (a hi lo n : Nat) : (c.addFld a hi lo n).watch = c.watch := rfl
@[simp] theorem Chip.addFld_chk (c : Chip) (a hi lo n : Nat) : (c.addFld a hi lo n).chk = c.chk := rfl
@[simp] theorem Chip.addFld_pnt (c : Chip) (a hi lo n : Nat) : (c.addFld a hi lo n).pnt = c.pnt := rfl
@[simp] theorem Chip.addFld_bol (c : Chip) (a hi lo n : Nat) : (c.addFld a hi lo n).bol = c.bol := rfl
@[simp] theorem Chip.addFld_twn (c : Chip) (a hi lo n : Nat) : (c.addFld a hi lo n).twn = c.twn := rfl
@[simp] theorem Chip.addFld_slots (c : Chip) (a hi lo n : Nat) : (c.addFld a hi lo n).slots = c.slots := rfl
@[simp] theorem Chip.addFld_net (c : Chip) (a hi lo n : Nat) : (c.addFld a hi lo n).net = c.net := rfl
@[simp] theorem Chip.addFld_held (c : Chip) (a hi lo n : Nat) : (c.addFld a hi lo n).held = c.held := rfl
@[simp] theorem Chip.addFld_aus (c : Chip) (a hi lo n : Nat) : (c.addFld a hi lo n).aus = c.aus := rfl
@[simp] theorem Chip.addFld_shown (c : Chip) (a hi lo n : Nat) : (c.addFld a hi lo n).shown = c.shown := rfl
@[simp] theorem Chip.addFld_partIndex (c : Chip) (a hi lo n : Nat) : (c.addFld a hi lo n).partIndex = c.partIndex := rfl
@[simp] theorem Chip.addFld_curElem (c : Chip) (a hi lo n : Nat) : (c.addFld a hi lo n).curElem = c.curElem := rfl
@[simp] theorem Chip.addFld_curDesc (c : Chip) (a hi lo n : Nat) : (c.addFld a hi lo n).curDesc = c.curDesc := rfl
@[simp] theorem Chip.addFld_curRegion (c : Chip) (a hi lo n : Nat) : (c.addFld a hi lo n).curRegion = c.curRegion := rfl
@[simp] theorem Chip.addFld_prov (c : Chip) (a hi lo n : Nat) : (c.addFld a hi lo n).prov = c.prov := rfl
@[simp] theorem Chip.addFld_elems (c : Chip) (a hi lo n : Nat) : (c.addFld a hi lo n).elems = c.elems := rfl
@[simp] theorem Chip.addFld_heads (c : Chip) (a hi lo n : Nat) : (c.addFld a hi lo n).heads = c.heads := rfl
@[simp] theorem Chip.addFld_roomNumber (c : Chip) (a hi lo n : Nat) : (c.addFld a hi lo n).roomNumber = c.roomNumber := rfl
@[simp] theorem Chip.addFld_dec (c : Chip) (a hi lo n : Nat) : (c.addFld a hi lo n).dec = c.dec := rfl
@[simp] theorem Chip.addFld_enc (c : Chip) (a hi lo n : Nat) : (c.addFld a hi lo n).enc = c.enc := rfl
@[simp] theorem Chip.addFld_txs (c : Chip) (a hi lo n : Nat) : (c.addFld a hi lo n).txs = c.txs := rfl
@[simp] theorem Chip.addFld_saving (c : Chip) (a hi lo n : Nat) : (c.addFld a hi lo n).saving = c.saving := rfl
@[simp] theorem Chip.addFld_mem (c : Chip) (a hi lo n : Nat) : (c.addFld a hi lo n).mem = c.mem := rfl
@[simp] theorem Chip.addFld_pruCur (c : Chip) (a hi lo n : Nat) : (c.addFld a hi lo n).pruCur = c.pruCur := rfl
@[simp] theorem Chip.addFld_violations (c : Chip) (a hi lo n : Nat) : (c.addFld a hi lo n).violations = c.violations := rfl
@[simp] theorem Chip.addFld_tagHeld (c : Chip) (a hi lo n : Nat) : (c.addFld a hi lo n).tagHeld = c.tagHeld := rfl
@[simp] theorem Chip.addFld_trims (c : Chip) (a hi lo n : Nat) : (c.addFld a hi lo n).trims = c.trims := rfl
@[simp] theorem Chip.addFld_cams (c : Chip) (a hi lo n : Nat) : (c.addFld a hi lo n).cams = c.cams := rfl
@[simp] theorem Chip.addFld_caps (c : Chip) (a hi lo n : Nat) : (c.addFld a hi lo n).caps = c.caps := rfl
@[simp] theorem Chip.addFld_tch (c : Chip) (a hi lo n : Nat) : (c.addFld a hi lo n).tch = c.tch := rfl
@[simp] theorem Chip.addFld_d2dQueue (c : Chip) (a hi lo n : Nat) : (c.addFld a hi lo n).d2dQueue = c.d2dQueue := rfl
@[simp] theorem Chip.addFld_d2dDown (c : Chip) (a hi lo n : Nat) : (c.addFld a hi lo n).d2dDown = c.d2dDown := rfl
@[simp] theorem Chip.addFld_d2dLost (c : Chip) (a hi lo n : Nat) : (c.addFld a hi lo n).d2dLost = c.d2dLost := rfl
@[simp] theorem Chip.addFld_touchIn (c : Chip) (a hi lo n : Nat) : (c.addFld a hi lo n).touchIn = c.touchIn := rfl
@[simp] theorem Chip.addFld_ports (c : Chip) (a hi lo n : Nat) : (c.addFld a hi lo n).ports = c.ports := rfl
@[simp] theorem Chip.addFld_gpo (c : Chip) (a hi lo n : Nat) : (c.addFld a hi lo n).gpo = c.gpo := rfl
@[simp] theorem Chip.addFld_peg (c : Chip) (a hi lo n : Nat) : (c.addFld a hi lo n).peg = c.peg := rfl
@[simp] theorem Chip.addFld_jrn (c : Chip) (a hi lo n : Nat) : (c.addFld a hi lo n).jrn = c.jrn := rfl
@[simp] theorem Chip.addFld_age (c : Chip) (a hi lo n : Nat) : (c.addFld a hi lo n).age = c.age := rfl
@[simp] theorem Chip.addFld_pitch (c : Chip) (a hi lo n : Nat) : (c.addFld a hi lo n).pitch = c.pitch := rfl
@[simp] theorem Chip.addFld_mgt (c : Chip) (a hi lo n : Nat) : (c.addFld a hi lo n).mgt = c.mgt := rfl

/-! ### `Chip.bump` -/

@[simp] theorem Chip.bump_clk (c : Chip) (a : Nat) : (c.bump a).clk = c.clk := rfl
@[simp] theorem Chip.bump_latch (c : Chip) (a : Nat) : (c.bump a).latch = c.latch := rfl
@[simp] theorem Chip.bump_tbw (c : Chip) (a : Nat) : (c.bump a).tbw = c.tbw := rfl
@[simp] theorem Chip.bump_dram (c : Chip) (a : Nat) : (c.bump a).dram = c.dram := rfl
@[simp] theorem Chip.bump_evq (c : Chip) (a : Nat) : (c.bump a).evq = c.evq := rfl
@[simp] theorem Chip.bump_evDrop (c : Chip) (a : Nat) : (c.bump a).evDrop = c.evDrop := rfl
@[simp] theorem Chip.bump_rate (c : Chip) (a : Nat) : (c.bump a).rate = c.rate := rfl
@[simp] theorem Chip.bump_tx (c : Chip) (a : Nat) : (c.bump a).tx = c.tx := rfl
@[simp] theorem Chip.bump_mui (c : Chip) (a : Nat) : (c.bump a).mui = c.mui := rfl
@[simp] theorem Chip.bump_taps (c : Chip) (a : Nat) : (c.bump a).taps = c.taps := rfl
@[simp] theorem Chip.bump_watch (c : Chip) (a : Nat) : (c.bump a).watch = c.watch := rfl
@[simp] theorem Chip.bump_chk (c : Chip) (a : Nat) : (c.bump a).chk = c.chk := rfl
@[simp] theorem Chip.bump_pnt (c : Chip) (a : Nat) : (c.bump a).pnt = c.pnt := rfl
@[simp] theorem Chip.bump_bol (c : Chip) (a : Nat) : (c.bump a).bol = c.bol := rfl
@[simp] theorem Chip.bump_twn (c : Chip) (a : Nat) : (c.bump a).twn = c.twn := rfl
@[simp] theorem Chip.bump_slots (c : Chip) (a : Nat) : (c.bump a).slots = c.slots := rfl
@[simp] theorem Chip.bump_net (c : Chip) (a : Nat) : (c.bump a).net = c.net := rfl
@[simp] theorem Chip.bump_held (c : Chip) (a : Nat) : (c.bump a).held = c.held := rfl
@[simp] theorem Chip.bump_aus (c : Chip) (a : Nat) : (c.bump a).aus = c.aus := rfl
@[simp] theorem Chip.bump_shown (c : Chip) (a : Nat) : (c.bump a).shown = c.shown := rfl
@[simp] theorem Chip.bump_partIndex (c : Chip) (a : Nat) : (c.bump a).partIndex = c.partIndex := rfl
@[simp] theorem Chip.bump_curElem (c : Chip) (a : Nat) : (c.bump a).curElem = c.curElem := rfl
@[simp] theorem Chip.bump_curDesc (c : Chip) (a : Nat) : (c.bump a).curDesc = c.curDesc := rfl
@[simp] theorem Chip.bump_curRegion (c : Chip) (a : Nat) : (c.bump a).curRegion = c.curRegion := rfl
@[simp] theorem Chip.bump_prov (c : Chip) (a : Nat) : (c.bump a).prov = c.prov := rfl
@[simp] theorem Chip.bump_elems (c : Chip) (a : Nat) : (c.bump a).elems = c.elems := rfl
@[simp] theorem Chip.bump_heads (c : Chip) (a : Nat) : (c.bump a).heads = c.heads := rfl
@[simp] theorem Chip.bump_roomNumber (c : Chip) (a : Nat) : (c.bump a).roomNumber = c.roomNumber := rfl
@[simp] theorem Chip.bump_dec (c : Chip) (a : Nat) : (c.bump a).dec = c.dec := rfl
@[simp] theorem Chip.bump_enc (c : Chip) (a : Nat) : (c.bump a).enc = c.enc := rfl
@[simp] theorem Chip.bump_txs (c : Chip) (a : Nat) : (c.bump a).txs = c.txs := rfl
@[simp] theorem Chip.bump_saving (c : Chip) (a : Nat) : (c.bump a).saving = c.saving := rfl
@[simp] theorem Chip.bump_mem (c : Chip) (a : Nat) : (c.bump a).mem = c.mem := rfl
@[simp] theorem Chip.bump_pruCur (c : Chip) (a : Nat) : (c.bump a).pruCur = c.pruCur := rfl
@[simp] theorem Chip.bump_violations (c : Chip) (a : Nat) : (c.bump a).violations = c.violations := rfl
@[simp] theorem Chip.bump_tagHeld (c : Chip) (a : Nat) : (c.bump a).tagHeld = c.tagHeld := rfl
@[simp] theorem Chip.bump_trims (c : Chip) (a : Nat) : (c.bump a).trims = c.trims := rfl
@[simp] theorem Chip.bump_cams (c : Chip) (a : Nat) : (c.bump a).cams = c.cams := rfl
@[simp] theorem Chip.bump_caps (c : Chip) (a : Nat) : (c.bump a).caps = c.caps := rfl
@[simp] theorem Chip.bump_tch (c : Chip) (a : Nat) : (c.bump a).tch = c.tch := rfl
@[simp] theorem Chip.bump_d2dQueue (c : Chip) (a : Nat) : (c.bump a).d2dQueue = c.d2dQueue := rfl
@[simp] theorem Chip.bump_d2dDown (c : Chip) (a : Nat) : (c.bump a).d2dDown = c.d2dDown := rfl
@[simp] theorem Chip.bump_d2dLost (c : Chip) (a : Nat) : (c.bump a).d2dLost = c.d2dLost := rfl
@[simp] theorem Chip.bump_touchIn (c : Chip) (a : Nat) : (c.bump a).touchIn = c.touchIn := rfl
@[simp] theorem Chip.bump_ports (c : Chip) (a : Nat) : (c.bump a).ports = c.ports := rfl
@[simp] theorem Chip.bump_gpo (c : Chip) (a : Nat) : (c.bump a).gpo = c.gpo := rfl
@[simp] theorem Chip.bump_peg (c : Chip) (a : Nat) : (c.bump a).peg = c.peg := rfl
@[simp] theorem Chip.bump_jrn (c : Chip) (a : Nat) : (c.bump a).jrn = c.jrn := rfl
@[simp] theorem Chip.bump_age (c : Chip) (a : Nat) : (c.bump a).age = c.age := rfl
@[simp] theorem Chip.bump_pitch (c : Chip) (a : Nat) : (c.bump a).pitch = c.pitch := rfl
@[simp] theorem Chip.bump_mgt (c : Chip) (a : Nat) : (c.bump a).mgt = c.mgt := rfl

/-! ### `Chip.bumpBy` -/

@[simp] theorem Chip.bumpBy_clk (c : Chip) (a n : Nat) : (c.bumpBy a n).clk = c.clk := rfl
@[simp] theorem Chip.bumpBy_latch (c : Chip) (a n : Nat) : (c.bumpBy a n).latch = c.latch := rfl
@[simp] theorem Chip.bumpBy_tbw (c : Chip) (a n : Nat) : (c.bumpBy a n).tbw = c.tbw := rfl
@[simp] theorem Chip.bumpBy_dram (c : Chip) (a n : Nat) : (c.bumpBy a n).dram = c.dram := rfl
@[simp] theorem Chip.bumpBy_evq (c : Chip) (a n : Nat) : (c.bumpBy a n).evq = c.evq := rfl
@[simp] theorem Chip.bumpBy_evDrop (c : Chip) (a n : Nat) : (c.bumpBy a n).evDrop = c.evDrop := rfl
@[simp] theorem Chip.bumpBy_rate (c : Chip) (a n : Nat) : (c.bumpBy a n).rate = c.rate := rfl
@[simp] theorem Chip.bumpBy_tx (c : Chip) (a n : Nat) : (c.bumpBy a n).tx = c.tx := rfl
@[simp] theorem Chip.bumpBy_mui (c : Chip) (a n : Nat) : (c.bumpBy a n).mui = c.mui := rfl
@[simp] theorem Chip.bumpBy_taps (c : Chip) (a n : Nat) : (c.bumpBy a n).taps = c.taps := rfl
@[simp] theorem Chip.bumpBy_watch (c : Chip) (a n : Nat) : (c.bumpBy a n).watch = c.watch := rfl
@[simp] theorem Chip.bumpBy_chk (c : Chip) (a n : Nat) : (c.bumpBy a n).chk = c.chk := rfl
@[simp] theorem Chip.bumpBy_pnt (c : Chip) (a n : Nat) : (c.bumpBy a n).pnt = c.pnt := rfl
@[simp] theorem Chip.bumpBy_bol (c : Chip) (a n : Nat) : (c.bumpBy a n).bol = c.bol := rfl
@[simp] theorem Chip.bumpBy_twn (c : Chip) (a n : Nat) : (c.bumpBy a n).twn = c.twn := rfl
@[simp] theorem Chip.bumpBy_slots (c : Chip) (a n : Nat) : (c.bumpBy a n).slots = c.slots := rfl
@[simp] theorem Chip.bumpBy_net (c : Chip) (a n : Nat) : (c.bumpBy a n).net = c.net := rfl
@[simp] theorem Chip.bumpBy_held (c : Chip) (a n : Nat) : (c.bumpBy a n).held = c.held := rfl
@[simp] theorem Chip.bumpBy_aus (c : Chip) (a n : Nat) : (c.bumpBy a n).aus = c.aus := rfl
@[simp] theorem Chip.bumpBy_shown (c : Chip) (a n : Nat) : (c.bumpBy a n).shown = c.shown := rfl
@[simp] theorem Chip.bumpBy_partIndex (c : Chip) (a n : Nat) : (c.bumpBy a n).partIndex = c.partIndex := rfl
@[simp] theorem Chip.bumpBy_curElem (c : Chip) (a n : Nat) : (c.bumpBy a n).curElem = c.curElem := rfl
@[simp] theorem Chip.bumpBy_curDesc (c : Chip) (a n : Nat) : (c.bumpBy a n).curDesc = c.curDesc := rfl
@[simp] theorem Chip.bumpBy_curRegion (c : Chip) (a n : Nat) : (c.bumpBy a n).curRegion = c.curRegion := rfl
@[simp] theorem Chip.bumpBy_prov (c : Chip) (a n : Nat) : (c.bumpBy a n).prov = c.prov := rfl
@[simp] theorem Chip.bumpBy_elems (c : Chip) (a n : Nat) : (c.bumpBy a n).elems = c.elems := rfl
@[simp] theorem Chip.bumpBy_heads (c : Chip) (a n : Nat) : (c.bumpBy a n).heads = c.heads := rfl
@[simp] theorem Chip.bumpBy_roomNumber (c : Chip) (a n : Nat) : (c.bumpBy a n).roomNumber = c.roomNumber := rfl
@[simp] theorem Chip.bumpBy_dec (c : Chip) (a n : Nat) : (c.bumpBy a n).dec = c.dec := rfl
@[simp] theorem Chip.bumpBy_enc (c : Chip) (a n : Nat) : (c.bumpBy a n).enc = c.enc := rfl
@[simp] theorem Chip.bumpBy_txs (c : Chip) (a n : Nat) : (c.bumpBy a n).txs = c.txs := rfl
@[simp] theorem Chip.bumpBy_saving (c : Chip) (a n : Nat) : (c.bumpBy a n).saving = c.saving := rfl
@[simp] theorem Chip.bumpBy_mem (c : Chip) (a n : Nat) : (c.bumpBy a n).mem = c.mem := rfl
@[simp] theorem Chip.bumpBy_pruCur (c : Chip) (a n : Nat) : (c.bumpBy a n).pruCur = c.pruCur := rfl
@[simp] theorem Chip.bumpBy_violations (c : Chip) (a n : Nat) : (c.bumpBy a n).violations = c.violations := rfl
@[simp] theorem Chip.bumpBy_tagHeld (c : Chip) (a n : Nat) : (c.bumpBy a n).tagHeld = c.tagHeld := rfl
@[simp] theorem Chip.bumpBy_trims (c : Chip) (a n : Nat) : (c.bumpBy a n).trims = c.trims := rfl
@[simp] theorem Chip.bumpBy_cams (c : Chip) (a n : Nat) : (c.bumpBy a n).cams = c.cams := rfl
@[simp] theorem Chip.bumpBy_caps (c : Chip) (a n : Nat) : (c.bumpBy a n).caps = c.caps := rfl
@[simp] theorem Chip.bumpBy_tch (c : Chip) (a n : Nat) : (c.bumpBy a n).tch = c.tch := rfl
@[simp] theorem Chip.bumpBy_d2dQueue (c : Chip) (a n : Nat) : (c.bumpBy a n).d2dQueue = c.d2dQueue := rfl
@[simp] theorem Chip.bumpBy_d2dDown (c : Chip) (a n : Nat) : (c.bumpBy a n).d2dDown = c.d2dDown := rfl
@[simp] theorem Chip.bumpBy_d2dLost (c : Chip) (a n : Nat) : (c.bumpBy a n).d2dLost = c.d2dLost := rfl
@[simp] theorem Chip.bumpBy_touchIn (c : Chip) (a n : Nat) : (c.bumpBy a n).touchIn = c.touchIn := rfl
@[simp] theorem Chip.bumpBy_ports (c : Chip) (a n : Nat) : (c.bumpBy a n).ports = c.ports := rfl
@[simp] theorem Chip.bumpBy_gpo (c : Chip) (a n : Nat) : (c.bumpBy a n).gpo = c.gpo := rfl
@[simp] theorem Chip.bumpBy_peg (c : Chip) (a n : Nat) : (c.bumpBy a n).peg = c.peg := rfl
@[simp] theorem Chip.bumpBy_jrn (c : Chip) (a n : Nat) : (c.bumpBy a n).jrn = c.jrn := rfl
@[simp] theorem Chip.bumpBy_age (c : Chip) (a n : Nat) : (c.bumpBy a n).age = c.age := rfl
@[simp] theorem Chip.bumpBy_pitch (c : Chip) (a n : Nat) : (c.bumpBy a n).pitch = c.pitch := rfl
@[simp] theorem Chip.bumpBy_mgt (c : Chip) (a n : Nat) : (c.bumpBy a n).mgt = c.mgt := rfl

/-! ### `Chip.publish` -/

@[simp] theorem Chip.publish_clk (c : Chip) (a : Nat) : (c.publish a).clk = c.clk := rfl
@[simp] theorem Chip.publish_latch (c : Chip) (a : Nat) : (c.publish a).latch = c.latch := rfl
@[simp] theorem Chip.publish_tbw (c : Chip) (a : Nat) : (c.publish a).tbw = c.tbw := rfl
@[simp] theorem Chip.publish_dram (c : Chip) (a : Nat) : (c.publish a).dram = c.dram := rfl
@[simp] theorem Chip.publish_evq (c : Chip) (a : Nat) : (c.publish a).evq = c.evq := rfl
@[simp] theorem Chip.publish_evDrop (c : Chip) (a : Nat) : (c.publish a).evDrop = c.evDrop := rfl
@[simp] theorem Chip.publish_rate (c : Chip) (a : Nat) : (c.publish a).rate = c.rate := rfl
@[simp] theorem Chip.publish_tx (c : Chip) (a : Nat) : (c.publish a).tx = c.tx := rfl
@[simp] theorem Chip.publish_mui (c : Chip) (a : Nat) : (c.publish a).mui = c.mui := rfl
@[simp] theorem Chip.publish_taps (c : Chip) (a : Nat) : (c.publish a).taps = c.taps := rfl
@[simp] theorem Chip.publish_watch (c : Chip) (a : Nat) : (c.publish a).watch = c.watch := rfl
@[simp] theorem Chip.publish_chk (c : Chip) (a : Nat) : (c.publish a).chk = c.chk := rfl
@[simp] theorem Chip.publish_pnt (c : Chip) (a : Nat) : (c.publish a).pnt = c.pnt := rfl
@[simp] theorem Chip.publish_bol (c : Chip) (a : Nat) : (c.publish a).bol = c.bol := rfl
@[simp] theorem Chip.publish_twn (c : Chip) (a : Nat) : (c.publish a).twn = c.twn := rfl
@[simp] theorem Chip.publish_slots (c : Chip) (a : Nat) : (c.publish a).slots = c.slots := rfl
@[simp] theorem Chip.publish_net (c : Chip) (a : Nat) : (c.publish a).net = c.net := rfl
@[simp] theorem Chip.publish_held (c : Chip) (a : Nat) : (c.publish a).held = c.held := rfl
@[simp] theorem Chip.publish_aus (c : Chip) (a : Nat) : (c.publish a).aus = c.aus := rfl
@[simp] theorem Chip.publish_shown (c : Chip) (a : Nat) : (c.publish a).shown = c.shown := rfl
@[simp] theorem Chip.publish_partIndex (c : Chip) (a : Nat) : (c.publish a).partIndex = c.partIndex := rfl
@[simp] theorem Chip.publish_curElem (c : Chip) (a : Nat) : (c.publish a).curElem = c.curElem := rfl
@[simp] theorem Chip.publish_curDesc (c : Chip) (a : Nat) : (c.publish a).curDesc = c.curDesc := rfl
@[simp] theorem Chip.publish_curRegion (c : Chip) (a : Nat) : (c.publish a).curRegion = c.curRegion := rfl
@[simp] theorem Chip.publish_prov (c : Chip) (a : Nat) : (c.publish a).prov = c.prov := rfl
@[simp] theorem Chip.publish_elems (c : Chip) (a : Nat) : (c.publish a).elems = c.elems := rfl
@[simp] theorem Chip.publish_heads (c : Chip) (a : Nat) : (c.publish a).heads = c.heads := rfl
@[simp] theorem Chip.publish_roomNumber (c : Chip) (a : Nat) : (c.publish a).roomNumber = c.roomNumber := rfl
@[simp] theorem Chip.publish_dec (c : Chip) (a : Nat) : (c.publish a).dec = c.dec := rfl
@[simp] theorem Chip.publish_enc (c : Chip) (a : Nat) : (c.publish a).enc = c.enc := rfl
@[simp] theorem Chip.publish_txs (c : Chip) (a : Nat) : (c.publish a).txs = c.txs := rfl
@[simp] theorem Chip.publish_saving (c : Chip) (a : Nat) : (c.publish a).saving = c.saving := rfl
@[simp] theorem Chip.publish_mem (c : Chip) (a : Nat) : (c.publish a).mem = c.mem := rfl
@[simp] theorem Chip.publish_pruCur (c : Chip) (a : Nat) : (c.publish a).pruCur = c.pruCur := rfl
@[simp] theorem Chip.publish_violations (c : Chip) (a : Nat) : (c.publish a).violations = c.violations := rfl
@[simp] theorem Chip.publish_tagHeld (c : Chip) (a : Nat) : (c.publish a).tagHeld = c.tagHeld := rfl
@[simp] theorem Chip.publish_trims (c : Chip) (a : Nat) : (c.publish a).trims = c.trims := rfl
@[simp] theorem Chip.publish_cams (c : Chip) (a : Nat) : (c.publish a).cams = c.cams := rfl
@[simp] theorem Chip.publish_caps (c : Chip) (a : Nat) : (c.publish a).caps = c.caps := rfl
@[simp] theorem Chip.publish_tch (c : Chip) (a : Nat) : (c.publish a).tch = c.tch := rfl
@[simp] theorem Chip.publish_d2dQueue (c : Chip) (a : Nat) : (c.publish a).d2dQueue = c.d2dQueue := rfl
@[simp] theorem Chip.publish_d2dDown (c : Chip) (a : Nat) : (c.publish a).d2dDown = c.d2dDown := rfl
@[simp] theorem Chip.publish_d2dLost (c : Chip) (a : Nat) : (c.publish a).d2dLost = c.d2dLost := rfl
@[simp] theorem Chip.publish_touchIn (c : Chip) (a : Nat) : (c.publish a).touchIn = c.touchIn := rfl
@[simp] theorem Chip.publish_ports (c : Chip) (a : Nat) : (c.publish a).ports = c.ports := rfl
@[simp] theorem Chip.publish_gpo (c : Chip) (a : Nat) : (c.publish a).gpo = c.gpo := rfl
@[simp] theorem Chip.publish_peg (c : Chip) (a : Nat) : (c.publish a).peg = c.peg := rfl
@[simp] theorem Chip.publish_jrn (c : Chip) (a : Nat) : (c.publish a).jrn = c.jrn := rfl
@[simp] theorem Chip.publish_age (c : Chip) (a : Nat) : (c.publish a).age = c.age := rfl
@[simp] theorem Chip.publish_pitch (c : Chip) (a : Nat) : (c.publish a).pitch = c.pitch := rfl
@[simp] theorem Chip.publish_mgt (c : Chip) (a : Nat) : (c.publish a).mgt = c.mgt := rfl

/-! ### `Chip.unpublish` -/

@[simp] theorem Chip.unpublish_clk (c : Chip) (a : Nat) : (c.unpublish a).clk = c.clk := rfl
@[simp] theorem Chip.unpublish_latch (c : Chip) (a : Nat) : (c.unpublish a).latch = c.latch := rfl
@[simp] theorem Chip.unpublish_tbw (c : Chip) (a : Nat) : (c.unpublish a).tbw = c.tbw := rfl
@[simp] theorem Chip.unpublish_dram (c : Chip) (a : Nat) : (c.unpublish a).dram = c.dram := rfl
@[simp] theorem Chip.unpublish_evq (c : Chip) (a : Nat) : (c.unpublish a).evq = c.evq := rfl
@[simp] theorem Chip.unpublish_evDrop (c : Chip) (a : Nat) : (c.unpublish a).evDrop = c.evDrop := rfl
@[simp] theorem Chip.unpublish_rate (c : Chip) (a : Nat) : (c.unpublish a).rate = c.rate := rfl
@[simp] theorem Chip.unpublish_tx (c : Chip) (a : Nat) : (c.unpublish a).tx = c.tx := rfl
@[simp] theorem Chip.unpublish_mui (c : Chip) (a : Nat) : (c.unpublish a).mui = c.mui := rfl
@[simp] theorem Chip.unpublish_taps (c : Chip) (a : Nat) : (c.unpublish a).taps = c.taps := rfl
@[simp] theorem Chip.unpublish_watch (c : Chip) (a : Nat) : (c.unpublish a).watch = c.watch := rfl
@[simp] theorem Chip.unpublish_chk (c : Chip) (a : Nat) : (c.unpublish a).chk = c.chk := rfl
@[simp] theorem Chip.unpublish_pnt (c : Chip) (a : Nat) : (c.unpublish a).pnt = c.pnt := rfl
@[simp] theorem Chip.unpublish_bol (c : Chip) (a : Nat) : (c.unpublish a).bol = c.bol := rfl
@[simp] theorem Chip.unpublish_twn (c : Chip) (a : Nat) : (c.unpublish a).twn = c.twn := rfl
@[simp] theorem Chip.unpublish_slots (c : Chip) (a : Nat) : (c.unpublish a).slots = c.slots := rfl
@[simp] theorem Chip.unpublish_net (c : Chip) (a : Nat) : (c.unpublish a).net = c.net := rfl
@[simp] theorem Chip.unpublish_held (c : Chip) (a : Nat) : (c.unpublish a).held = c.held := rfl
@[simp] theorem Chip.unpublish_aus (c : Chip) (a : Nat) : (c.unpublish a).aus = c.aus := rfl
@[simp] theorem Chip.unpublish_shown (c : Chip) (a : Nat) : (c.unpublish a).shown = c.shown := rfl
@[simp] theorem Chip.unpublish_partIndex (c : Chip) (a : Nat) : (c.unpublish a).partIndex = c.partIndex := rfl
@[simp] theorem Chip.unpublish_curElem (c : Chip) (a : Nat) : (c.unpublish a).curElem = c.curElem := rfl
@[simp] theorem Chip.unpublish_curDesc (c : Chip) (a : Nat) : (c.unpublish a).curDesc = c.curDesc := rfl
@[simp] theorem Chip.unpublish_curRegion (c : Chip) (a : Nat) : (c.unpublish a).curRegion = c.curRegion := rfl
@[simp] theorem Chip.unpublish_prov (c : Chip) (a : Nat) : (c.unpublish a).prov = c.prov := rfl
@[simp] theorem Chip.unpublish_elems (c : Chip) (a : Nat) : (c.unpublish a).elems = c.elems := rfl
@[simp] theorem Chip.unpublish_heads (c : Chip) (a : Nat) : (c.unpublish a).heads = c.heads := rfl
@[simp] theorem Chip.unpublish_roomNumber (c : Chip) (a : Nat) : (c.unpublish a).roomNumber = c.roomNumber := rfl
@[simp] theorem Chip.unpublish_dec (c : Chip) (a : Nat) : (c.unpublish a).dec = c.dec := rfl
@[simp] theorem Chip.unpublish_enc (c : Chip) (a : Nat) : (c.unpublish a).enc = c.enc := rfl
@[simp] theorem Chip.unpublish_txs (c : Chip) (a : Nat) : (c.unpublish a).txs = c.txs := rfl
@[simp] theorem Chip.unpublish_saving (c : Chip) (a : Nat) : (c.unpublish a).saving = c.saving := rfl
@[simp] theorem Chip.unpublish_mem (c : Chip) (a : Nat) : (c.unpublish a).mem = c.mem := rfl
@[simp] theorem Chip.unpublish_pruCur (c : Chip) (a : Nat) : (c.unpublish a).pruCur = c.pruCur := rfl
@[simp] theorem Chip.unpublish_violations (c : Chip) (a : Nat) : (c.unpublish a).violations = c.violations := rfl
@[simp] theorem Chip.unpublish_tagHeld (c : Chip) (a : Nat) : (c.unpublish a).tagHeld = c.tagHeld := rfl
@[simp] theorem Chip.unpublish_trims (c : Chip) (a : Nat) : (c.unpublish a).trims = c.trims := rfl
@[simp] theorem Chip.unpublish_cams (c : Chip) (a : Nat) : (c.unpublish a).cams = c.cams := rfl
@[simp] theorem Chip.unpublish_caps (c : Chip) (a : Nat) : (c.unpublish a).caps = c.caps := rfl
@[simp] theorem Chip.unpublish_tch (c : Chip) (a : Nat) : (c.unpublish a).tch = c.tch := rfl
@[simp] theorem Chip.unpublish_d2dQueue (c : Chip) (a : Nat) : (c.unpublish a).d2dQueue = c.d2dQueue := rfl
@[simp] theorem Chip.unpublish_d2dDown (c : Chip) (a : Nat) : (c.unpublish a).d2dDown = c.d2dDown := rfl
@[simp] theorem Chip.unpublish_d2dLost (c : Chip) (a : Nat) : (c.unpublish a).d2dLost = c.d2dLost := rfl
@[simp] theorem Chip.unpublish_touchIn (c : Chip) (a : Nat) : (c.unpublish a).touchIn = c.touchIn := rfl
@[simp] theorem Chip.unpublish_ports (c : Chip) (a : Nat) : (c.unpublish a).ports = c.ports := rfl
@[simp] theorem Chip.unpublish_gpo (c : Chip) (a : Nat) : (c.unpublish a).gpo = c.gpo := rfl
@[simp] theorem Chip.unpublish_peg (c : Chip) (a : Nat) : (c.unpublish a).peg = c.peg := rfl
@[simp] theorem Chip.unpublish_jrn (c : Chip) (a : Nat) : (c.unpublish a).jrn = c.jrn := rfl
@[simp] theorem Chip.unpublish_age (c : Chip) (a : Nat) : (c.unpublish a).age = c.age := rfl
@[simp] theorem Chip.unpublish_pitch (c : Chip) (a : Nat) : (c.unpublish a).pitch = c.pitch := rfl
@[simp] theorem Chip.unpublish_mgt (c : Chip) (a : Nat) : (c.unpublish a).mgt = c.mgt := rfl

/-! ### `Chip.syncBacklog` -/

@[simp] theorem Chip.syncBacklog_clk (c : Chip) : (c.syncBacklog).clk = c.clk := rfl
@[simp] theorem Chip.syncBacklog_latch (c : Chip) : (c.syncBacklog).latch = c.latch := rfl
@[simp] theorem Chip.syncBacklog_tbw (c : Chip) : (c.syncBacklog).tbw = c.tbw := rfl
@[simp] theorem Chip.syncBacklog_dram (c : Chip) : (c.syncBacklog).dram = c.dram := rfl
@[simp] theorem Chip.syncBacklog_evq (c : Chip) : (c.syncBacklog).evq = c.evq := rfl
@[simp] theorem Chip.syncBacklog_evDrop (c : Chip) : (c.syncBacklog).evDrop = c.evDrop := rfl
@[simp] theorem Chip.syncBacklog_rate (c : Chip) : (c.syncBacklog).rate = c.rate := rfl
@[simp] theorem Chip.syncBacklog_tx (c : Chip) : (c.syncBacklog).tx = c.tx := rfl
@[simp] theorem Chip.syncBacklog_mui (c : Chip) : (c.syncBacklog).mui = c.mui := rfl
@[simp] theorem Chip.syncBacklog_taps (c : Chip) : (c.syncBacklog).taps = c.taps := rfl
@[simp] theorem Chip.syncBacklog_watch (c : Chip) : (c.syncBacklog).watch = c.watch := rfl
@[simp] theorem Chip.syncBacklog_chk (c : Chip) : (c.syncBacklog).chk = c.chk := rfl
@[simp] theorem Chip.syncBacklog_pnt (c : Chip) : (c.syncBacklog).pnt = c.pnt := rfl
@[simp] theorem Chip.syncBacklog_bol (c : Chip) : (c.syncBacklog).bol = c.bol := rfl
@[simp] theorem Chip.syncBacklog_twn (c : Chip) : (c.syncBacklog).twn = c.twn := rfl
@[simp] theorem Chip.syncBacklog_slots (c : Chip) : (c.syncBacklog).slots = c.slots := rfl
@[simp] theorem Chip.syncBacklog_net (c : Chip) : (c.syncBacklog).net = c.net := rfl
@[simp] theorem Chip.syncBacklog_held (c : Chip) : (c.syncBacklog).held = c.held := rfl
@[simp] theorem Chip.syncBacklog_aus (c : Chip) : (c.syncBacklog).aus = c.aus := rfl
@[simp] theorem Chip.syncBacklog_shown (c : Chip) : (c.syncBacklog).shown = c.shown := rfl
@[simp] theorem Chip.syncBacklog_partIndex (c : Chip) : (c.syncBacklog).partIndex = c.partIndex := rfl
@[simp] theorem Chip.syncBacklog_curElem (c : Chip) : (c.syncBacklog).curElem = c.curElem := rfl
@[simp] theorem Chip.syncBacklog_curDesc (c : Chip) : (c.syncBacklog).curDesc = c.curDesc := rfl
@[simp] theorem Chip.syncBacklog_curRegion (c : Chip) : (c.syncBacklog).curRegion = c.curRegion := rfl
@[simp] theorem Chip.syncBacklog_prov (c : Chip) : (c.syncBacklog).prov = c.prov := rfl
@[simp] theorem Chip.syncBacklog_elems (c : Chip) : (c.syncBacklog).elems = c.elems := rfl
@[simp] theorem Chip.syncBacklog_heads (c : Chip) : (c.syncBacklog).heads = c.heads := rfl
@[simp] theorem Chip.syncBacklog_roomNumber (c : Chip) : (c.syncBacklog).roomNumber = c.roomNumber := rfl
@[simp] theorem Chip.syncBacklog_dec (c : Chip) : (c.syncBacklog).dec = c.dec := rfl
@[simp] theorem Chip.syncBacklog_enc (c : Chip) : (c.syncBacklog).enc = c.enc := rfl
@[simp] theorem Chip.syncBacklog_txs (c : Chip) : (c.syncBacklog).txs = c.txs := rfl
@[simp] theorem Chip.syncBacklog_saving (c : Chip) : (c.syncBacklog).saving = c.saving := rfl
@[simp] theorem Chip.syncBacklog_mem (c : Chip) : (c.syncBacklog).mem = c.mem := rfl
@[simp] theorem Chip.syncBacklog_pruCur (c : Chip) : (c.syncBacklog).pruCur = c.pruCur := rfl
@[simp] theorem Chip.syncBacklog_violations (c : Chip) : (c.syncBacklog).violations = c.violations := rfl
@[simp] theorem Chip.syncBacklog_tagHeld (c : Chip) : (c.syncBacklog).tagHeld = c.tagHeld := rfl
@[simp] theorem Chip.syncBacklog_trims (c : Chip) : (c.syncBacklog).trims = c.trims := rfl
@[simp] theorem Chip.syncBacklog_cams (c : Chip) : (c.syncBacklog).cams = c.cams := rfl
@[simp] theorem Chip.syncBacklog_caps (c : Chip) : (c.syncBacklog).caps = c.caps := rfl
@[simp] theorem Chip.syncBacklog_tch (c : Chip) : (c.syncBacklog).tch = c.tch := rfl
@[simp] theorem Chip.syncBacklog_d2dQueue (c : Chip) : (c.syncBacklog).d2dQueue = c.d2dQueue := rfl
@[simp] theorem Chip.syncBacklog_d2dDown (c : Chip) : (c.syncBacklog).d2dDown = c.d2dDown := rfl
@[simp] theorem Chip.syncBacklog_d2dLost (c : Chip) : (c.syncBacklog).d2dLost = c.d2dLost := rfl
@[simp] theorem Chip.syncBacklog_touchIn (c : Chip) : (c.syncBacklog).touchIn = c.touchIn := rfl
@[simp] theorem Chip.syncBacklog_ports (c : Chip) : (c.syncBacklog).ports = c.ports := rfl
@[simp] theorem Chip.syncBacklog_gpo (c : Chip) : (c.syncBacklog).gpo = c.gpo := rfl
@[simp] theorem Chip.syncBacklog_peg (c : Chip) : (c.syncBacklog).peg = c.peg := rfl
@[simp] theorem Chip.syncBacklog_jrn (c : Chip) : (c.syncBacklog).jrn = c.jrn := rfl
@[simp] theorem Chip.syncBacklog_age (c : Chip) : (c.syncBacklog).age = c.age := rfl
@[simp] theorem Chip.syncBacklog_pitch (c : Chip) : (c.syncBacklog).pitch = c.pitch := rfl
@[simp] theorem Chip.syncBacklog_mgt (c : Chip) : (c.syncBacklog).mgt = c.mgt := rfl

/-! ### `Chip.dropEvent` -/

@[simp] theorem Chip.dropEvent_clk (c : Chip) (code : Nat) : (c.dropEvent code).clk = c.clk := rfl
@[simp] theorem Chip.dropEvent_latch (c : Chip) (code : Nat) : (c.dropEvent code).latch = c.latch := rfl
@[simp] theorem Chip.dropEvent_tbw (c : Chip) (code : Nat) : (c.dropEvent code).tbw = c.tbw := rfl
@[simp] theorem Chip.dropEvent_dram (c : Chip) (code : Nat) : (c.dropEvent code).dram = c.dram := rfl
@[simp] theorem Chip.dropEvent_evq (c : Chip) (code : Nat) : (c.dropEvent code).evq = c.evq := rfl
@[simp] theorem Chip.dropEvent_rate (c : Chip) (code : Nat) : (c.dropEvent code).rate = c.rate := rfl
@[simp] theorem Chip.dropEvent_tx (c : Chip) (code : Nat) : (c.dropEvent code).tx = c.tx := rfl
@[simp] theorem Chip.dropEvent_mui (c : Chip) (code : Nat) : (c.dropEvent code).mui = c.mui := rfl
@[simp] theorem Chip.dropEvent_taps (c : Chip) (code : Nat) : (c.dropEvent code).taps = c.taps := rfl
@[simp] theorem Chip.dropEvent_watch (c : Chip) (code : Nat) : (c.dropEvent code).watch = c.watch := rfl
@[simp] theorem Chip.dropEvent_chk (c : Chip) (code : Nat) : (c.dropEvent code).chk = c.chk := rfl
@[simp] theorem Chip.dropEvent_pnt (c : Chip) (code : Nat) : (c.dropEvent code).pnt = c.pnt := rfl
@[simp] theorem Chip.dropEvent_bol (c : Chip) (code : Nat) : (c.dropEvent code).bol = c.bol := rfl
@[simp] theorem Chip.dropEvent_twn (c : Chip) (code : Nat) : (c.dropEvent code).twn = c.twn := rfl
@[simp] theorem Chip.dropEvent_slots (c : Chip) (code : Nat) : (c.dropEvent code).slots = c.slots := rfl
@[simp] theorem Chip.dropEvent_net (c : Chip) (code : Nat) : (c.dropEvent code).net = c.net := rfl
@[simp] theorem Chip.dropEvent_held (c : Chip) (code : Nat) : (c.dropEvent code).held = c.held := rfl
@[simp] theorem Chip.dropEvent_aus (c : Chip) (code : Nat) : (c.dropEvent code).aus = c.aus := rfl
@[simp] theorem Chip.dropEvent_shown (c : Chip) (code : Nat) : (c.dropEvent code).shown = c.shown := rfl
@[simp] theorem Chip.dropEvent_partIndex (c : Chip) (code : Nat) : (c.dropEvent code).partIndex = c.partIndex := rfl
@[simp] theorem Chip.dropEvent_curElem (c : Chip) (code : Nat) : (c.dropEvent code).curElem = c.curElem := rfl
@[simp] theorem Chip.dropEvent_curDesc (c : Chip) (code : Nat) : (c.dropEvent code).curDesc = c.curDesc := rfl
@[simp] theorem Chip.dropEvent_curRegion (c : Chip) (code : Nat) : (c.dropEvent code).curRegion = c.curRegion := rfl
@[simp] theorem Chip.dropEvent_prov (c : Chip) (code : Nat) : (c.dropEvent code).prov = c.prov := rfl
@[simp] theorem Chip.dropEvent_elems (c : Chip) (code : Nat) : (c.dropEvent code).elems = c.elems := rfl
@[simp] theorem Chip.dropEvent_heads (c : Chip) (code : Nat) : (c.dropEvent code).heads = c.heads := rfl
@[simp] theorem Chip.dropEvent_roomNumber (c : Chip) (code : Nat) : (c.dropEvent code).roomNumber = c.roomNumber := rfl
@[simp] theorem Chip.dropEvent_dec (c : Chip) (code : Nat) : (c.dropEvent code).dec = c.dec := rfl
@[simp] theorem Chip.dropEvent_enc (c : Chip) (code : Nat) : (c.dropEvent code).enc = c.enc := rfl
@[simp] theorem Chip.dropEvent_txs (c : Chip) (code : Nat) : (c.dropEvent code).txs = c.txs := rfl
@[simp] theorem Chip.dropEvent_saving (c : Chip) (code : Nat) : (c.dropEvent code).saving = c.saving := rfl
@[simp] theorem Chip.dropEvent_mem (c : Chip) (code : Nat) : (c.dropEvent code).mem = c.mem := rfl
@[simp] theorem Chip.dropEvent_pruCur (c : Chip) (code : Nat) : (c.dropEvent code).pruCur = c.pruCur := rfl
@[simp] theorem Chip.dropEvent_violations (c : Chip) (code : Nat) : (c.dropEvent code).violations = c.violations := rfl
@[simp] theorem Chip.dropEvent_tagHeld (c : Chip) (code : Nat) : (c.dropEvent code).tagHeld = c.tagHeld := rfl
@[simp] theorem Chip.dropEvent_trims (c : Chip) (code : Nat) : (c.dropEvent code).trims = c.trims := rfl
@[simp] theorem Chip.dropEvent_cams (c : Chip) (code : Nat) : (c.dropEvent code).cams = c.cams := rfl
@[simp] theorem Chip.dropEvent_caps (c : Chip) (code : Nat) : (c.dropEvent code).caps = c.caps := rfl
@[simp] theorem Chip.dropEvent_tch (c : Chip) (code : Nat) : (c.dropEvent code).tch = c.tch := rfl
@[simp] theorem Chip.dropEvent_d2dQueue (c : Chip) (code : Nat) : (c.dropEvent code).d2dQueue = c.d2dQueue := rfl
@[simp] theorem Chip.dropEvent_d2dDown (c : Chip) (code : Nat) : (c.dropEvent code).d2dDown = c.d2dDown := rfl
@[simp] theorem Chip.dropEvent_d2dLost (c : Chip) (code : Nat) : (c.dropEvent code).d2dLost = c.d2dLost := rfl
@[simp] theorem Chip.dropEvent_touchIn (c : Chip) (code : Nat) : (c.dropEvent code).touchIn = c.touchIn := rfl
@[simp] theorem Chip.dropEvent_ports (c : Chip) (code : Nat) : (c.dropEvent code).ports = c.ports := rfl
@[simp] theorem Chip.dropEvent_gpo (c : Chip) (code : Nat) : (c.dropEvent code).gpo = c.gpo := rfl
@[simp] theorem Chip.dropEvent_peg (c : Chip) (code : Nat) : (c.dropEvent code).peg = c.peg := rfl
@[simp] theorem Chip.dropEvent_jrn (c : Chip) (code : Nat) : (c.dropEvent code).jrn = c.jrn := rfl
@[simp] theorem Chip.dropEvent_age (c : Chip) (code : Nat) : (c.dropEvent code).age = c.age := rfl
@[simp] theorem Chip.dropEvent_pitch (c : Chip) (code : Nat) : (c.dropEvent code).pitch = c.pitch := rfl
@[simp] theorem Chip.dropEvent_mgt (c : Chip) (code : Nat) : (c.dropEvent code).mgt = c.mgt := rfl

/-! ### `Chip.raise` -/

@[simp] theorem Chip.raise_clk (c : Chip) (e : Ev) : (c.raise e).clk = c.clk := by unfold Chip.raise; split <;> rfl
@[simp] theorem Chip.raise_latch (c : Chip) (e : Ev) : (c.raise e).latch = c.latch := by unfold Chip.raise; split <;> rfl
@[simp] theorem Chip.raise_tbw (c : Chip) (e : Ev) : (c.raise e).tbw = c.tbw := by unfold Chip.raise; split <;> rfl
@[simp] theorem Chip.raise_dram (c : Chip) (e : Ev) : (c.raise e).dram = c.dram := by unfold Chip.raise; split <;> rfl
@[simp] theorem Chip.raise_rate (c : Chip) (e : Ev) : (c.raise e).rate = c.rate := by unfold Chip.raise; split <;> rfl
@[simp] theorem Chip.raise_tx (c : Chip) (e : Ev) : (c.raise e).tx = c.tx := by unfold Chip.raise; split <;> rfl
@[simp] theorem Chip.raise_mui (c : Chip) (e : Ev) : (c.raise e).mui = c.mui := by unfold Chip.raise; split <;> rfl
@[simp] theorem Chip.raise_taps (c : Chip) (e : Ev) : (c.raise e).taps = c.taps := by unfold Chip.raise; split <;> rfl
@[simp] theorem Chip.raise_watch (c : Chip) (e : Ev) : (c.raise e).watch = c.watch := by unfold Chip.raise; split <;> rfl
@[simp] theorem Chip.raise_chk (c : Chip) (e : Ev) : (c.raise e).chk = c.chk := by unfold Chip.raise; split <;> rfl
@[simp] theorem Chip.raise_pnt (c : Chip) (e : Ev) : (c.raise e).pnt = c.pnt := by unfold Chip.raise; split <;> rfl
@[simp] theorem Chip.raise_bol (c : Chip) (e : Ev) : (c.raise e).bol = c.bol := by unfold Chip.raise; split <;> rfl
@[simp] theorem Chip.raise_twn (c : Chip) (e : Ev) : (c.raise e).twn = c.twn := by unfold Chip.raise; split <;> rfl
@[simp] theorem Chip.raise_slots (c : Chip) (e : Ev) : (c.raise e).slots = c.slots := by unfold Chip.raise; split <;> rfl
@[simp] theorem Chip.raise_net (c : Chip) (e : Ev) : (c.raise e).net = c.net := by unfold Chip.raise; split <;> rfl
@[simp] theorem Chip.raise_held (c : Chip) (e : Ev) : (c.raise e).held = c.held := by unfold Chip.raise; split <;> rfl
@[simp] theorem Chip.raise_aus (c : Chip) (e : Ev) : (c.raise e).aus = c.aus := by unfold Chip.raise; split <;> rfl
@[simp] theorem Chip.raise_shown (c : Chip) (e : Ev) : (c.raise e).shown = c.shown := by unfold Chip.raise; split <;> rfl
@[simp] theorem Chip.raise_partIndex (c : Chip) (e : Ev) : (c.raise e).partIndex = c.partIndex := by unfold Chip.raise; split <;> rfl
@[simp] theorem Chip.raise_curElem (c : Chip) (e : Ev) : (c.raise e).curElem = c.curElem := by unfold Chip.raise; split <;> rfl
@[simp] theorem Chip.raise_curDesc (c : Chip) (e : Ev) : (c.raise e).curDesc = c.curDesc := by unfold Chip.raise; split <;> rfl
@[simp] theorem Chip.raise_curRegion (c : Chip) (e : Ev) : (c.raise e).curRegion = c.curRegion := by unfold Chip.raise; split <;> rfl
@[simp] theorem Chip.raise_prov (c : Chip) (e : Ev) : (c.raise e).prov = c.prov := by unfold Chip.raise; split <;> rfl
@[simp] theorem Chip.raise_elems (c : Chip) (e : Ev) : (c.raise e).elems = c.elems := by unfold Chip.raise; split <;> rfl
@[simp] theorem Chip.raise_heads (c : Chip) (e : Ev) : (c.raise e).heads = c.heads := by unfold Chip.raise; split <;> rfl
@[simp] theorem Chip.raise_roomNumber (c : Chip) (e : Ev) : (c.raise e).roomNumber = c.roomNumber := by unfold Chip.raise; split <;> rfl
@[simp] theorem Chip.raise_dec (c : Chip) (e : Ev) : (c.raise e).dec = c.dec := by unfold Chip.raise; split <;> rfl
@[simp] theorem Chip.raise_enc (c : Chip) (e : Ev) : (c.raise e).enc = c.enc := by unfold Chip.raise; split <;> rfl
@[simp] theorem Chip.raise_txs (c : Chip) (e : Ev) : (c.raise e).txs = c.txs := by unfold Chip.raise; split <;> rfl
@[simp] theorem Chip.raise_saving (c : Chip) (e : Ev) : (c.raise e).saving = c.saving := by unfold Chip.raise; split <;> rfl
@[simp] theorem Chip.raise_mem (c : Chip) (e : Ev) : (c.raise e).mem = c.mem := by unfold Chip.raise; split <;> rfl
@[simp] theorem Chip.raise_pruCur (c : Chip) (e : Ev) : (c.raise e).pruCur = c.pruCur := by unfold Chip.raise; split <;> rfl
@[simp] theorem Chip.raise_violations (c : Chip) (e : Ev) : (c.raise e).violations = c.violations := by unfold Chip.raise; split <;> rfl
@[simp] theorem Chip.raise_tagHeld (c : Chip) (e : Ev) : (c.raise e).tagHeld = c.tagHeld := by unfold Chip.raise; split <;> rfl
@[simp] theorem Chip.raise_trims (c : Chip) (e : Ev) : (c.raise e).trims = c.trims := by unfold Chip.raise; split <;> rfl
@[simp] theorem Chip.raise_cams (c : Chip) (e : Ev) : (c.raise e).cams = c.cams := by unfold Chip.raise; split <;> rfl
@[simp] theorem Chip.raise_caps (c : Chip) (e : Ev) : (c.raise e).caps = c.caps := by unfold Chip.raise; split <;> rfl
@[simp] theorem Chip.raise_tch (c : Chip) (e : Ev) : (c.raise e).tch = c.tch := by unfold Chip.raise; split <;> rfl
@[simp] theorem Chip.raise_d2dQueue (c : Chip) (e : Ev) : (c.raise e).d2dQueue = c.d2dQueue := by unfold Chip.raise; split <;> rfl
@[simp] theorem Chip.raise_d2dDown (c : Chip) (e : Ev) : (c.raise e).d2dDown = c.d2dDown := by unfold Chip.raise; split <;> rfl
@[simp] theorem Chip.raise_d2dLost (c : Chip) (e : Ev) : (c.raise e).d2dLost = c.d2dLost := by unfold Chip.raise; split <;> rfl
@[simp] theorem Chip.raise_touchIn (c : Chip) (e : Ev) : (c.raise e).touchIn = c.touchIn := by unfold Chip.raise; split <;> rfl
@[simp] theorem Chip.raise_ports (c : Chip) (e : Ev) : (c.raise e).ports = c.ports := by unfold Chip.raise; split <;> rfl
@[simp] theorem Chip.raise_gpo (c : Chip) (e : Ev) : (c.raise e).gpo = c.gpo := by unfold Chip.raise; split <;> rfl
@[simp] theorem Chip.raise_peg (c : Chip) (e : Ev) : (c.raise e).peg = c.peg := by unfold Chip.raise; split <;> rfl
@[simp] theorem Chip.raise_jrn (c : Chip) (e : Ev) : (c.raise e).jrn = c.jrn := by unfold Chip.raise; split <;> rfl
@[simp] theorem Chip.raise_age (c : Chip) (e : Ev) : (c.raise e).age = c.age := by unfold Chip.raise; split <;> rfl
@[simp] theorem Chip.raise_pitch (c : Chip) (e : Ev) : (c.raise e).pitch = c.pitch := by unfold Chip.raise; split <;> rfl
@[simp] theorem Chip.raise_mgt (c : Chip) (e : Ev) : (c.raise e).mgt = c.mgt := by unfold Chip.raise; split <;> rfl

/-! ### `Chip.event` -/

@[simp] theorem Chip.event_clk (c : Chip) (code : Nat) (p : FaultAddr) (l : List CField) : (c.event code p l).clk = c.clk := by simp [Chip.event]
@[simp] theorem Chip.event_latch (c : Chip) (code : Nat) (p : FaultAddr) (l : List CField) : (c.event code p l).latch = c.latch := by simp [Chip.event]
@[simp] theorem Chip.event_tbw (c : Chip) (code : Nat) (p : FaultAddr) (l : List CField) : (c.event code p l).tbw = c.tbw := by simp [Chip.event]
@[simp] theorem Chip.event_dram (c : Chip) (code : Nat) (p : FaultAddr) (l : List CField) : (c.event code p l).dram = c.dram := by simp [Chip.event]
@[simp] theorem Chip.event_rate (c : Chip) (code : Nat) (p : FaultAddr) (l : List CField) : (c.event code p l).rate = c.rate := by simp [Chip.event]
@[simp] theorem Chip.event_tx (c : Chip) (code : Nat) (p : FaultAddr) (l : List CField) : (c.event code p l).tx = c.tx := by simp [Chip.event]
@[simp] theorem Chip.event_mui (c : Chip) (code : Nat) (p : FaultAddr) (l : List CField) : (c.event code p l).mui = c.mui := by simp [Chip.event]
@[simp] theorem Chip.event_taps (c : Chip) (code : Nat) (p : FaultAddr) (l : List CField) : (c.event code p l).taps = c.taps := by simp [Chip.event]
@[simp] theorem Chip.event_watch (c : Chip) (code : Nat) (p : FaultAddr) (l : List CField) : (c.event code p l).watch = c.watch := by simp [Chip.event]
@[simp] theorem Chip.event_chk (c : Chip) (code : Nat) (p : FaultAddr) (l : List CField) : (c.event code p l).chk = c.chk := by simp [Chip.event]
@[simp] theorem Chip.event_pnt (c : Chip) (code : Nat) (p : FaultAddr) (l : List CField) : (c.event code p l).pnt = c.pnt := by simp [Chip.event]
@[simp] theorem Chip.event_bol (c : Chip) (code : Nat) (p : FaultAddr) (l : List CField) : (c.event code p l).bol = c.bol := by simp [Chip.event]
@[simp] theorem Chip.event_twn (c : Chip) (code : Nat) (p : FaultAddr) (l : List CField) : (c.event code p l).twn = c.twn := by simp [Chip.event]
@[simp] theorem Chip.event_slots (c : Chip) (code : Nat) (p : FaultAddr) (l : List CField) : (c.event code p l).slots = c.slots := by simp [Chip.event]
@[simp] theorem Chip.event_net (c : Chip) (code : Nat) (p : FaultAddr) (l : List CField) : (c.event code p l).net = c.net := by simp [Chip.event]
@[simp] theorem Chip.event_held (c : Chip) (code : Nat) (p : FaultAddr) (l : List CField) : (c.event code p l).held = c.held := by simp [Chip.event]
@[simp] theorem Chip.event_aus (c : Chip) (code : Nat) (p : FaultAddr) (l : List CField) : (c.event code p l).aus = c.aus := by simp [Chip.event]
@[simp] theorem Chip.event_shown (c : Chip) (code : Nat) (p : FaultAddr) (l : List CField) : (c.event code p l).shown = c.shown := by simp [Chip.event]
@[simp] theorem Chip.event_partIndex (c : Chip) (code : Nat) (p : FaultAddr) (l : List CField) : (c.event code p l).partIndex = c.partIndex := by simp [Chip.event]
@[simp] theorem Chip.event_curElem (c : Chip) (code : Nat) (p : FaultAddr) (l : List CField) : (c.event code p l).curElem = c.curElem := by simp [Chip.event]
@[simp] theorem Chip.event_curDesc (c : Chip) (code : Nat) (p : FaultAddr) (l : List CField) : (c.event code p l).curDesc = c.curDesc := by simp [Chip.event]
@[simp] theorem Chip.event_curRegion (c : Chip) (code : Nat) (p : FaultAddr) (l : List CField) : (c.event code p l).curRegion = c.curRegion := by simp [Chip.event]
@[simp] theorem Chip.event_prov (c : Chip) (code : Nat) (p : FaultAddr) (l : List CField) : (c.event code p l).prov = c.prov := by simp [Chip.event]
@[simp] theorem Chip.event_elems (c : Chip) (code : Nat) (p : FaultAddr) (l : List CField) : (c.event code p l).elems = c.elems := by simp [Chip.event]
@[simp] theorem Chip.event_heads (c : Chip) (code : Nat) (p : FaultAddr) (l : List CField) : (c.event code p l).heads = c.heads := by simp [Chip.event]
@[simp] theorem Chip.event_roomNumber (c : Chip) (code : Nat) (p : FaultAddr) (l : List CField) : (c.event code p l).roomNumber = c.roomNumber := by simp [Chip.event]
@[simp] theorem Chip.event_dec (c : Chip) (code : Nat) (p : FaultAddr) (l : List CField) : (c.event code p l).dec = c.dec := by simp [Chip.event]
@[simp] theorem Chip.event_enc (c : Chip) (code : Nat) (p : FaultAddr) (l : List CField) : (c.event code p l).enc = c.enc := by simp [Chip.event]
@[simp] theorem Chip.event_txs (c : Chip) (code : Nat) (p : FaultAddr) (l : List CField) : (c.event code p l).txs = c.txs := by simp [Chip.event]
@[simp] theorem Chip.event_saving (c : Chip) (code : Nat) (p : FaultAddr) (l : List CField) : (c.event code p l).saving = c.saving := by simp [Chip.event]
@[simp] theorem Chip.event_mem (c : Chip) (code : Nat) (p : FaultAddr) (l : List CField) : (c.event code p l).mem = c.mem := by simp [Chip.event]
@[simp] theorem Chip.event_pruCur (c : Chip) (code : Nat) (p : FaultAddr) (l : List CField) : (c.event code p l).pruCur = c.pruCur := by simp [Chip.event]
@[simp] theorem Chip.event_violations (c : Chip) (code : Nat) (p : FaultAddr) (l : List CField) : (c.event code p l).violations = c.violations := by simp [Chip.event]
@[simp] theorem Chip.event_tagHeld (c : Chip) (code : Nat) (p : FaultAddr) (l : List CField) : (c.event code p l).tagHeld = c.tagHeld := by simp [Chip.event]
@[simp] theorem Chip.event_trims (c : Chip) (code : Nat) (p : FaultAddr) (l : List CField) : (c.event code p l).trims = c.trims := by simp [Chip.event]
@[simp] theorem Chip.event_cams (c : Chip) (code : Nat) (p : FaultAddr) (l : List CField) : (c.event code p l).cams = c.cams := by simp [Chip.event]
@[simp] theorem Chip.event_caps (c : Chip) (code : Nat) (p : FaultAddr) (l : List CField) : (c.event code p l).caps = c.caps := by simp [Chip.event]
@[simp] theorem Chip.event_tch (c : Chip) (code : Nat) (p : FaultAddr) (l : List CField) : (c.event code p l).tch = c.tch := by simp [Chip.event]
@[simp] theorem Chip.event_d2dQueue (c : Chip) (code : Nat) (p : FaultAddr) (l : List CField) : (c.event code p l).d2dQueue = c.d2dQueue := by simp [Chip.event]
@[simp] theorem Chip.event_d2dDown (c : Chip) (code : Nat) (p : FaultAddr) (l : List CField) : (c.event code p l).d2dDown = c.d2dDown := by simp [Chip.event]
@[simp] theorem Chip.event_d2dLost (c : Chip) (code : Nat) (p : FaultAddr) (l : List CField) : (c.event code p l).d2dLost = c.d2dLost := by simp [Chip.event]
@[simp] theorem Chip.event_touchIn (c : Chip) (code : Nat) (p : FaultAddr) (l : List CField) : (c.event code p l).touchIn = c.touchIn := by simp [Chip.event]
@[simp] theorem Chip.event_ports (c : Chip) (code : Nat) (p : FaultAddr) (l : List CField) : (c.event code p l).ports = c.ports := by simp [Chip.event]
@[simp] theorem Chip.event_gpo (c : Chip) (code : Nat) (p : FaultAddr) (l : List CField) : (c.event code p l).gpo = c.gpo := by simp [Chip.event]
@[simp] theorem Chip.event_peg (c : Chip) (code : Nat) (p : FaultAddr) (l : List CField) : (c.event code p l).peg = c.peg := by simp [Chip.event]
@[simp] theorem Chip.event_jrn (c : Chip) (code : Nat) (p : FaultAddr) (l : List CField) : (c.event code p l).jrn = c.jrn := by simp [Chip.event]
@[simp] theorem Chip.event_age (c : Chip) (code : Nat) (p : FaultAddr) (l : List CField) : (c.event code p l).age = c.age := by simp [Chip.event]
@[simp] theorem Chip.event_pitch (c : Chip) (code : Nat) (p : FaultAddr) (l : List CField) : (c.event code p l).pitch = c.pitch := by simp [Chip.event]
@[simp] theorem Chip.event_mgt (c : Chip) (code : Nat) (p : FaultAddr) (l : List CField) : (c.event code p l).mgt = c.mgt := by simp [Chip.event]

/-! ### `Chip.raiseLimitedBy` -/

@[simp] theorem Chip.raiseLimitedBy_clk (c : Chip) (u : Nat) (e : Ev) (n : Nat) : (c.raiseLimitedBy u e n).clk = c.clk := by unfold Chip.raiseLimitedBy; simp only []; split <;> (try split) <;> simp
@[simp] theorem Chip.raiseLimitedBy_latch (c : Chip) (u : Nat) (e : Ev) (n : Nat) : (c.raiseLimitedBy u e n).latch = c.latch := by unfold Chip.raiseLimitedBy; simp only []; split <;> (try split) <;> simp
@[simp] theorem Chip.raiseLimitedBy_tbw (c : Chip) (u : Nat) (e : Ev) (n : Nat) : (c.raiseLimitedBy u e n).tbw = c.tbw := by unfold Chip.raiseLimitedBy; simp only []; split <;> (try split) <;> simp
@[simp] theorem Chip.raiseLimitedBy_dram (c : Chip) (u : Nat) (e : Ev) (n : Nat) : (c.raiseLimitedBy u e n).dram = c.dram := by unfold Chip.raiseLimitedBy; simp only []; split <;> (try split) <;> simp
@[simp] theorem Chip.raiseLimitedBy_tx (c : Chip) (u : Nat) (e : Ev) (n : Nat) : (c.raiseLimitedBy u e n).tx = c.tx := by unfold Chip.raiseLimitedBy; simp only []; split <;> (try split) <;> simp
@[simp] theorem Chip.raiseLimitedBy_mui (c : Chip) (u : Nat) (e : Ev) (n : Nat) : (c.raiseLimitedBy u e n).mui = c.mui := by unfold Chip.raiseLimitedBy; simp only []; split <;> (try split) <;> simp
@[simp] theorem Chip.raiseLimitedBy_taps (c : Chip) (u : Nat) (e : Ev) (n : Nat) : (c.raiseLimitedBy u e n).taps = c.taps := by unfold Chip.raiseLimitedBy; simp only []; split <;> (try split) <;> simp
@[simp] theorem Chip.raiseLimitedBy_watch (c : Chip) (u : Nat) (e : Ev) (n : Nat) : (c.raiseLimitedBy u e n).watch = c.watch := by unfold Chip.raiseLimitedBy; simp only []; split <;> (try split) <;> simp
@[simp] theorem Chip.raiseLimitedBy_chk (c : Chip) (u : Nat) (e : Ev) (n : Nat) : (c.raiseLimitedBy u e n).chk = c.chk := by unfold Chip.raiseLimitedBy; simp only []; split <;> (try split) <;> simp
@[simp] theorem Chip.raiseLimitedBy_pnt (c : Chip) (u : Nat) (e : Ev) (n : Nat) : (c.raiseLimitedBy u e n).pnt = c.pnt := by unfold Chip.raiseLimitedBy; simp only []; split <;> (try split) <;> simp
@[simp] theorem Chip.raiseLimitedBy_bol (c : Chip) (u : Nat) (e : Ev) (n : Nat) : (c.raiseLimitedBy u e n).bol = c.bol := by unfold Chip.raiseLimitedBy; simp only []; split <;> (try split) <;> simp
@[simp] theorem Chip.raiseLimitedBy_twn (c : Chip) (u : Nat) (e : Ev) (n : Nat) : (c.raiseLimitedBy u e n).twn = c.twn := by unfold Chip.raiseLimitedBy; simp only []; split <;> (try split) <;> simp
@[simp] theorem Chip.raiseLimitedBy_slots (c : Chip) (u : Nat) (e : Ev) (n : Nat) : (c.raiseLimitedBy u e n).slots = c.slots := by unfold Chip.raiseLimitedBy; simp only []; split <;> (try split) <;> simp
@[simp] theorem Chip.raiseLimitedBy_net (c : Chip) (u : Nat) (e : Ev) (n : Nat) : (c.raiseLimitedBy u e n).net = c.net := by unfold Chip.raiseLimitedBy; simp only []; split <;> (try split) <;> simp
@[simp] theorem Chip.raiseLimitedBy_held (c : Chip) (u : Nat) (e : Ev) (n : Nat) : (c.raiseLimitedBy u e n).held = c.held := by unfold Chip.raiseLimitedBy; simp only []; split <;> (try split) <;> simp
@[simp] theorem Chip.raiseLimitedBy_aus (c : Chip) (u : Nat) (e : Ev) (n : Nat) : (c.raiseLimitedBy u e n).aus = c.aus := by unfold Chip.raiseLimitedBy; simp only []; split <;> (try split) <;> simp
@[simp] theorem Chip.raiseLimitedBy_shown (c : Chip) (u : Nat) (e : Ev) (n : Nat) : (c.raiseLimitedBy u e n).shown = c.shown := by unfold Chip.raiseLimitedBy; simp only []; split <;> (try split) <;> simp
@[simp] theorem Chip.raiseLimitedBy_partIndex (c : Chip) (u : Nat) (e : Ev) (n : Nat) : (c.raiseLimitedBy u e n).partIndex = c.partIndex := by unfold Chip.raiseLimitedBy; simp only []; split <;> (try split) <;> simp
@[simp] theorem Chip.raiseLimitedBy_curElem (c : Chip) (u : Nat) (e : Ev) (n : Nat) : (c.raiseLimitedBy u e n).curElem = c.curElem := by unfold Chip.raiseLimitedBy; simp only []; split <;> (try split) <;> simp
@[simp] theorem Chip.raiseLimitedBy_curDesc (c : Chip) (u : Nat) (e : Ev) (n : Nat) : (c.raiseLimitedBy u e n).curDesc = c.curDesc := by unfold Chip.raiseLimitedBy; simp only []; split <;> (try split) <;> simp
@[simp] theorem Chip.raiseLimitedBy_curRegion (c : Chip) (u : Nat) (e : Ev) (n : Nat) : (c.raiseLimitedBy u e n).curRegion = c.curRegion := by unfold Chip.raiseLimitedBy; simp only []; split <;> (try split) <;> simp
@[simp] theorem Chip.raiseLimitedBy_prov (c : Chip) (u : Nat) (e : Ev) (n : Nat) : (c.raiseLimitedBy u e n).prov = c.prov := by unfold Chip.raiseLimitedBy; simp only []; split <;> (try split) <;> simp
@[simp] theorem Chip.raiseLimitedBy_elems (c : Chip) (u : Nat) (e : Ev) (n : Nat) : (c.raiseLimitedBy u e n).elems = c.elems := by unfold Chip.raiseLimitedBy; simp only []; split <;> (try split) <;> simp
@[simp] theorem Chip.raiseLimitedBy_heads (c : Chip) (u : Nat) (e : Ev) (n : Nat) : (c.raiseLimitedBy u e n).heads = c.heads := by unfold Chip.raiseLimitedBy; simp only []; split <;> (try split) <;> simp
@[simp] theorem Chip.raiseLimitedBy_roomNumber (c : Chip) (u : Nat) (e : Ev) (n : Nat) : (c.raiseLimitedBy u e n).roomNumber = c.roomNumber := by unfold Chip.raiseLimitedBy; simp only []; split <;> (try split) <;> simp
@[simp] theorem Chip.raiseLimitedBy_dec (c : Chip) (u : Nat) (e : Ev) (n : Nat) : (c.raiseLimitedBy u e n).dec = c.dec := by unfold Chip.raiseLimitedBy; simp only []; split <;> (try split) <;> simp
@[simp] theorem Chip.raiseLimitedBy_enc (c : Chip) (u : Nat) (e : Ev) (n : Nat) : (c.raiseLimitedBy u e n).enc = c.enc := by unfold Chip.raiseLimitedBy; simp only []; split <;> (try split) <;> simp
@[simp] theorem Chip.raiseLimitedBy_txs (c : Chip) (u : Nat) (e : Ev) (n : Nat) : (c.raiseLimitedBy u e n).txs = c.txs := by unfold Chip.raiseLimitedBy; simp only []; split <;> (try split) <;> simp
@[simp] theorem Chip.raiseLimitedBy_saving (c : Chip) (u : Nat) (e : Ev) (n : Nat) : (c.raiseLimitedBy u e n).saving = c.saving := by unfold Chip.raiseLimitedBy; simp only []; split <;> (try split) <;> simp
@[simp] theorem Chip.raiseLimitedBy_mem (c : Chip) (u : Nat) (e : Ev) (n : Nat) : (c.raiseLimitedBy u e n).mem = c.mem := by unfold Chip.raiseLimitedBy; simp only []; split <;> (try split) <;> simp
@[simp] theorem Chip.raiseLimitedBy_pruCur (c : Chip) (u : Nat) (e : Ev) (n : Nat) : (c.raiseLimitedBy u e n).pruCur = c.pruCur := by unfold Chip.raiseLimitedBy; simp only []; split <;> (try split) <;> simp
@[simp] theorem Chip.raiseLimitedBy_violations (c : Chip) (u : Nat) (e : Ev) (n : Nat) : (c.raiseLimitedBy u e n).violations = c.violations := by unfold Chip.raiseLimitedBy; simp only []; split <;> (try split) <;> simp
@[simp] theorem Chip.raiseLimitedBy_tagHeld (c : Chip) (u : Nat) (e : Ev) (n : Nat) : (c.raiseLimitedBy u e n).tagHeld = c.tagHeld := by unfold Chip.raiseLimitedBy; simp only []; split <;> (try split) <;> simp
@[simp] theorem Chip.raiseLimitedBy_trims (c : Chip) (u : Nat) (e : Ev) (n : Nat) : (c.raiseLimitedBy u e n).trims = c.trims := by unfold Chip.raiseLimitedBy; simp only []; split <;> (try split) <;> simp
@[simp] theorem Chip.raiseLimitedBy_cams (c : Chip) (u : Nat) (e : Ev) (n : Nat) : (c.raiseLimitedBy u e n).cams = c.cams := by unfold Chip.raiseLimitedBy; simp only []; split <;> (try split) <;> simp
@[simp] theorem Chip.raiseLimitedBy_caps (c : Chip) (u : Nat) (e : Ev) (n : Nat) : (c.raiseLimitedBy u e n).caps = c.caps := by unfold Chip.raiseLimitedBy; simp only []; split <;> (try split) <;> simp
@[simp] theorem Chip.raiseLimitedBy_tch (c : Chip) (u : Nat) (e : Ev) (n : Nat) : (c.raiseLimitedBy u e n).tch = c.tch := by unfold Chip.raiseLimitedBy; simp only []; split <;> (try split) <;> simp
@[simp] theorem Chip.raiseLimitedBy_d2dQueue (c : Chip) (u : Nat) (e : Ev) (n : Nat) : (c.raiseLimitedBy u e n).d2dQueue = c.d2dQueue := by unfold Chip.raiseLimitedBy; simp only []; split <;> (try split) <;> simp
@[simp] theorem Chip.raiseLimitedBy_d2dDown (c : Chip) (u : Nat) (e : Ev) (n : Nat) : (c.raiseLimitedBy u e n).d2dDown = c.d2dDown := by unfold Chip.raiseLimitedBy; simp only []; split <;> (try split) <;> simp
@[simp] theorem Chip.raiseLimitedBy_d2dLost (c : Chip) (u : Nat) (e : Ev) (n : Nat) : (c.raiseLimitedBy u e n).d2dLost = c.d2dLost := by unfold Chip.raiseLimitedBy; simp only []; split <;> (try split) <;> simp
@[simp] theorem Chip.raiseLimitedBy_touchIn (c : Chip) (u : Nat) (e : Ev) (n : Nat) : (c.raiseLimitedBy u e n).touchIn = c.touchIn := by unfold Chip.raiseLimitedBy; simp only []; split <;> (try split) <;> simp
@[simp] theorem Chip.raiseLimitedBy_ports (c : Chip) (u : Nat) (e : Ev) (n : Nat) : (c.raiseLimitedBy u e n).ports = c.ports := by unfold Chip.raiseLimitedBy; simp only []; split <;> (try split) <;> simp
@[simp] theorem Chip.raiseLimitedBy_gpo (c : Chip) (u : Nat) (e : Ev) (n : Nat) : (c.raiseLimitedBy u e n).gpo = c.gpo := by unfold Chip.raiseLimitedBy; simp only []; split <;> (try split) <;> simp
@[simp] theorem Chip.raiseLimitedBy_peg (c : Chip) (u : Nat) (e : Ev) (n : Nat) : (c.raiseLimitedBy u e n).peg = c.peg := by unfold Chip.raiseLimitedBy; simp only []; split <;> (try split) <;> simp
@[simp] theorem Chip.raiseLimitedBy_jrn (c : Chip) (u : Nat) (e : Ev) (n : Nat) : (c.raiseLimitedBy u e n).jrn = c.jrn := by unfold Chip.raiseLimitedBy; simp only []; split <;> (try split) <;> simp
@[simp] theorem Chip.raiseLimitedBy_age (c : Chip) (u : Nat) (e : Ev) (n : Nat) : (c.raiseLimitedBy u e n).age = c.age := by unfold Chip.raiseLimitedBy; simp only []; split <;> (try split) <;> simp
@[simp] theorem Chip.raiseLimitedBy_pitch (c : Chip) (u : Nat) (e : Ev) (n : Nat) : (c.raiseLimitedBy u e n).pitch = c.pitch := by unfold Chip.raiseLimitedBy; simp only []; split <;> (try split) <;> simp
@[simp] theorem Chip.raiseLimitedBy_mgt (c : Chip) (u : Nat) (e : Ev) (n : Nat) : (c.raiseLimitedBy u e n).mgt = c.mgt := by unfold Chip.raiseLimitedBy; simp only []; split <;> (try split) <;> simp

/-! ### `Chip.raiseLimited` -/

@[simp] theorem Chip.raiseLimited_clk (c : Chip) (u : Nat) (e : Ev) : (c.raiseLimited u e).clk = c.clk := by simp [Chip.raiseLimited]
@[simp] theorem Chip.raiseLimited_latch (c : Chip) (u : Nat) (e : Ev) : (c.raiseLimited u e).latch = c.latch := by simp [Chip.raiseLimited]
@[simp] theorem Chip.raiseLimited_tbw (c : Chip) (u : Nat) (e : Ev) : (c.raiseLimited u e).tbw = c.tbw := by simp [Chip.raiseLimited]
@[simp] theorem Chip.raiseLimited_dram (c : Chip) (u : Nat) (e : Ev) : (c.raiseLimited u e).dram = c.dram := by simp [Chip.raiseLimited]
@[simp] theorem Chip.raiseLimited_tx (c : Chip) (u : Nat) (e : Ev) : (c.raiseLimited u e).tx = c.tx := by simp [Chip.raiseLimited]
@[simp] theorem Chip.raiseLimited_mui (c : Chip) (u : Nat) (e : Ev) : (c.raiseLimited u e).mui = c.mui := by simp [Chip.raiseLimited]
@[simp] theorem Chip.raiseLimited_taps (c : Chip) (u : Nat) (e : Ev) : (c.raiseLimited u e).taps = c.taps := by simp [Chip.raiseLimited]
@[simp] theorem Chip.raiseLimited_watch (c : Chip) (u : Nat) (e : Ev) : (c.raiseLimited u e).watch = c.watch := by simp [Chip.raiseLimited]
@[simp] theorem Chip.raiseLimited_chk (c : Chip) (u : Nat) (e : Ev) : (c.raiseLimited u e).chk = c.chk := by simp [Chip.raiseLimited]
@[simp] theorem Chip.raiseLimited_pnt (c : Chip) (u : Nat) (e : Ev) : (c.raiseLimited u e).pnt = c.pnt := by simp [Chip.raiseLimited]
@[simp] theorem Chip.raiseLimited_bol (c : Chip) (u : Nat) (e : Ev) : (c.raiseLimited u e).bol = c.bol := by simp [Chip.raiseLimited]
@[simp] theorem Chip.raiseLimited_twn (c : Chip) (u : Nat) (e : Ev) : (c.raiseLimited u e).twn = c.twn := by simp [Chip.raiseLimited]
@[simp] theorem Chip.raiseLimited_slots (c : Chip) (u : Nat) (e : Ev) : (c.raiseLimited u e).slots = c.slots := by simp [Chip.raiseLimited]
@[simp] theorem Chip.raiseLimited_net (c : Chip) (u : Nat) (e : Ev) : (c.raiseLimited u e).net = c.net := by simp [Chip.raiseLimited]
@[simp] theorem Chip.raiseLimited_held (c : Chip) (u : Nat) (e : Ev) : (c.raiseLimited u e).held = c.held := by simp [Chip.raiseLimited]
@[simp] theorem Chip.raiseLimited_aus (c : Chip) (u : Nat) (e : Ev) : (c.raiseLimited u e).aus = c.aus := by simp [Chip.raiseLimited]
@[simp] theorem Chip.raiseLimited_shown (c : Chip) (u : Nat) (e : Ev) : (c.raiseLimited u e).shown = c.shown := by simp [Chip.raiseLimited]
@[simp] theorem Chip.raiseLimited_partIndex (c : Chip) (u : Nat) (e : Ev) : (c.raiseLimited u e).partIndex = c.partIndex := by simp [Chip.raiseLimited]
@[simp] theorem Chip.raiseLimited_curElem (c : Chip) (u : Nat) (e : Ev) : (c.raiseLimited u e).curElem = c.curElem := by simp [Chip.raiseLimited]
@[simp] theorem Chip.raiseLimited_curDesc (c : Chip) (u : Nat) (e : Ev) : (c.raiseLimited u e).curDesc = c.curDesc := by simp [Chip.raiseLimited]
@[simp] theorem Chip.raiseLimited_curRegion (c : Chip) (u : Nat) (e : Ev) : (c.raiseLimited u e).curRegion = c.curRegion := by simp [Chip.raiseLimited]
@[simp] theorem Chip.raiseLimited_prov (c : Chip) (u : Nat) (e : Ev) : (c.raiseLimited u e).prov = c.prov := by simp [Chip.raiseLimited]
@[simp] theorem Chip.raiseLimited_elems (c : Chip) (u : Nat) (e : Ev) : (c.raiseLimited u e).elems = c.elems := by simp [Chip.raiseLimited]
@[simp] theorem Chip.raiseLimited_heads (c : Chip) (u : Nat) (e : Ev) : (c.raiseLimited u e).heads = c.heads := by simp [Chip.raiseLimited]
@[simp] theorem Chip.raiseLimited_roomNumber (c : Chip) (u : Nat) (e : Ev) : (c.raiseLimited u e).roomNumber = c.roomNumber := by simp [Chip.raiseLimited]
@[simp] theorem Chip.raiseLimited_dec (c : Chip) (u : Nat) (e : Ev) : (c.raiseLimited u e).dec = c.dec := by simp [Chip.raiseLimited]
@[simp] theorem Chip.raiseLimited_enc (c : Chip) (u : Nat) (e : Ev) : (c.raiseLimited u e).enc = c.enc := by simp [Chip.raiseLimited]
@[simp] theorem Chip.raiseLimited_txs (c : Chip) (u : Nat) (e : Ev) : (c.raiseLimited u e).txs = c.txs := by simp [Chip.raiseLimited]
@[simp] theorem Chip.raiseLimited_saving (c : Chip) (u : Nat) (e : Ev) : (c.raiseLimited u e).saving = c.saving := by simp [Chip.raiseLimited]
@[simp] theorem Chip.raiseLimited_mem (c : Chip) (u : Nat) (e : Ev) : (c.raiseLimited u e).mem = c.mem := by simp [Chip.raiseLimited]
@[simp] theorem Chip.raiseLimited_pruCur (c : Chip) (u : Nat) (e : Ev) : (c.raiseLimited u e).pruCur = c.pruCur := by simp [Chip.raiseLimited]
@[simp] theorem Chip.raiseLimited_violations (c : Chip) (u : Nat) (e : Ev) : (c.raiseLimited u e).violations = c.violations := by simp [Chip.raiseLimited]
@[simp] theorem Chip.raiseLimited_tagHeld (c : Chip) (u : Nat) (e : Ev) : (c.raiseLimited u e).tagHeld = c.tagHeld := by simp [Chip.raiseLimited]
@[simp] theorem Chip.raiseLimited_trims (c : Chip) (u : Nat) (e : Ev) : (c.raiseLimited u e).trims = c.trims := by simp [Chip.raiseLimited]
@[simp] theorem Chip.raiseLimited_cams (c : Chip) (u : Nat) (e : Ev) : (c.raiseLimited u e).cams = c.cams := by simp [Chip.raiseLimited]
@[simp] theorem Chip.raiseLimited_caps (c : Chip) (u : Nat) (e : Ev) : (c.raiseLimited u e).caps = c.caps := by simp [Chip.raiseLimited]
@[simp] theorem Chip.raiseLimited_tch (c : Chip) (u : Nat) (e : Ev) : (c.raiseLimited u e).tch = c.tch := by simp [Chip.raiseLimited]
@[simp] theorem Chip.raiseLimited_d2dQueue (c : Chip) (u : Nat) (e : Ev) : (c.raiseLimited u e).d2dQueue = c.d2dQueue := by simp [Chip.raiseLimited]
@[simp] theorem Chip.raiseLimited_d2dDown (c : Chip) (u : Nat) (e : Ev) : (c.raiseLimited u e).d2dDown = c.d2dDown := by simp [Chip.raiseLimited]
@[simp] theorem Chip.raiseLimited_d2dLost (c : Chip) (u : Nat) (e : Ev) : (c.raiseLimited u e).d2dLost = c.d2dLost := by simp [Chip.raiseLimited]
@[simp] theorem Chip.raiseLimited_touchIn (c : Chip) (u : Nat) (e : Ev) : (c.raiseLimited u e).touchIn = c.touchIn := by simp [Chip.raiseLimited]
@[simp] theorem Chip.raiseLimited_ports (c : Chip) (u : Nat) (e : Ev) : (c.raiseLimited u e).ports = c.ports := by simp [Chip.raiseLimited]
@[simp] theorem Chip.raiseLimited_gpo (c : Chip) (u : Nat) (e : Ev) : (c.raiseLimited u e).gpo = c.gpo := by simp [Chip.raiseLimited]
@[simp] theorem Chip.raiseLimited_peg (c : Chip) (u : Nat) (e : Ev) : (c.raiseLimited u e).peg = c.peg := by simp [Chip.raiseLimited]
@[simp] theorem Chip.raiseLimited_jrn (c : Chip) (u : Nat) (e : Ev) : (c.raiseLimited u e).jrn = c.jrn := by simp [Chip.raiseLimited]
@[simp] theorem Chip.raiseLimited_age (c : Chip) (u : Nat) (e : Ev) : (c.raiseLimited u e).age = c.age := by simp [Chip.raiseLimited]
@[simp] theorem Chip.raiseLimited_pitch (c : Chip) (u : Nat) (e : Ev) : (c.raiseLimited u e).pitch = c.pitch := by simp [Chip.raiseLimited]
@[simp] theorem Chip.raiseLimited_mgt (c : Chip) (u : Nat) (e : Ev) : (c.raiseLimited u e).mgt = c.mgt := by simp [Chip.raiseLimited]

/-! ### `Chip.eventLimited` -/

@[simp] theorem Chip.eventLimited_clk (c : Chip) (u code : Nat) (p : FaultAddr) (l : List CField) : (c.eventLimited u code p l).clk = c.clk := by simp [Chip.eventLimited]
@[simp] theorem Chip.eventLimited_latch (c : Chip) (u code : Nat) (p : FaultAddr) (l : List CField) : (c.eventLimited u code p l).latch = c.latch := by simp [Chip.eventLimited]
@[simp] theorem Chip.eventLimited_tbw (c : Chip) (u code : Nat) (p : FaultAddr) (l : List CField) : (c.eventLimited u code p l).tbw = c.tbw := by simp [Chip.eventLimited]
@[simp] theorem Chip.eventLimited_dram (c : Chip) (u code : Nat) (p : FaultAddr) (l : List CField) : (c.eventLimited u code p l).dram = c.dram := by simp [Chip.eventLimited]
@[simp] theorem Chip.eventLimited_tx (c : Chip) (u code : Nat) (p : FaultAddr) (l : List CField) : (c.eventLimited u code p l).tx = c.tx := by simp [Chip.eventLimited]
@[simp] theorem Chip.eventLimited_mui (c : Chip) (u code : Nat) (p : FaultAddr) (l : List CField) : (c.eventLimited u code p l).mui = c.mui := by simp [Chip.eventLimited]
@[simp] theorem Chip.eventLimited_taps (c : Chip) (u code : Nat) (p : FaultAddr) (l : List CField) : (c.eventLimited u code p l).taps = c.taps := by simp [Chip.eventLimited]
@[simp] theorem Chip.eventLimited_watch (c : Chip) (u code : Nat) (p : FaultAddr) (l : List CField) : (c.eventLimited u code p l).watch = c.watch := by simp [Chip.eventLimited]
@[simp] theorem Chip.eventLimited_chk (c : Chip) (u code : Nat) (p : FaultAddr) (l : List CField) : (c.eventLimited u code p l).chk = c.chk := by simp [Chip.eventLimited]
@[simp] theorem Chip.eventLimited_pnt (c : Chip) (u code : Nat) (p : FaultAddr) (l : List CField) : (c.eventLimited u code p l).pnt = c.pnt := by simp [Chip.eventLimited]
@[simp] theorem Chip.eventLimited_bol (c : Chip) (u code : Nat) (p : FaultAddr) (l : List CField) : (c.eventLimited u code p l).bol = c.bol := by simp [Chip.eventLimited]
@[simp] theorem Chip.eventLimited_twn (c : Chip) (u code : Nat) (p : FaultAddr) (l : List CField) : (c.eventLimited u code p l).twn = c.twn := by simp [Chip.eventLimited]
@[simp] theorem Chip.eventLimited_slots (c : Chip) (u code : Nat) (p : FaultAddr) (l : List CField) : (c.eventLimited u code p l).slots = c.slots := by simp [Chip.eventLimited]
@[simp] theorem Chip.eventLimited_net (c : Chip) (u code : Nat) (p : FaultAddr) (l : List CField) : (c.eventLimited u code p l).net = c.net := by simp [Chip.eventLimited]
@[simp] theorem Chip.eventLimited_held (c : Chip) (u code : Nat) (p : FaultAddr) (l : List CField) : (c.eventLimited u code p l).held = c.held := by simp [Chip.eventLimited]
@[simp] theorem Chip.eventLimited_aus (c : Chip) (u code : Nat) (p : FaultAddr) (l : List CField) : (c.eventLimited u code p l).aus = c.aus := by simp [Chip.eventLimited]
@[simp] theorem Chip.eventLimited_shown (c : Chip) (u code : Nat) (p : FaultAddr) (l : List CField) : (c.eventLimited u code p l).shown = c.shown := by simp [Chip.eventLimited]
@[simp] theorem Chip.eventLimited_partIndex (c : Chip) (u code : Nat) (p : FaultAddr) (l : List CField) : (c.eventLimited u code p l).partIndex = c.partIndex := by simp [Chip.eventLimited]
@[simp] theorem Chip.eventLimited_curElem (c : Chip) (u code : Nat) (p : FaultAddr) (l : List CField) : (c.eventLimited u code p l).curElem = c.curElem := by simp [Chip.eventLimited]
@[simp] theorem Chip.eventLimited_curDesc (c : Chip) (u code : Nat) (p : FaultAddr) (l : List CField) : (c.eventLimited u code p l).curDesc = c.curDesc := by simp [Chip.eventLimited]
@[simp] theorem Chip.eventLimited_curRegion (c : Chip) (u code : Nat) (p : FaultAddr) (l : List CField) : (c.eventLimited u code p l).curRegion = c.curRegion := by simp [Chip.eventLimited]
@[simp] theorem Chip.eventLimited_prov (c : Chip) (u code : Nat) (p : FaultAddr) (l : List CField) : (c.eventLimited u code p l).prov = c.prov := by simp [Chip.eventLimited]
@[simp] theorem Chip.eventLimited_elems (c : Chip) (u code : Nat) (p : FaultAddr) (l : List CField) : (c.eventLimited u code p l).elems = c.elems := by simp [Chip.eventLimited]
@[simp] theorem Chip.eventLimited_heads (c : Chip) (u code : Nat) (p : FaultAddr) (l : List CField) : (c.eventLimited u code p l).heads = c.heads := by simp [Chip.eventLimited]
@[simp] theorem Chip.eventLimited_roomNumber (c : Chip) (u code : Nat) (p : FaultAddr) (l : List CField) : (c.eventLimited u code p l).roomNumber = c.roomNumber := by simp [Chip.eventLimited]
@[simp] theorem Chip.eventLimited_dec (c : Chip) (u code : Nat) (p : FaultAddr) (l : List CField) : (c.eventLimited u code p l).dec = c.dec := by simp [Chip.eventLimited]
@[simp] theorem Chip.eventLimited_enc (c : Chip) (u code : Nat) (p : FaultAddr) (l : List CField) : (c.eventLimited u code p l).enc = c.enc := by simp [Chip.eventLimited]
@[simp] theorem Chip.eventLimited_txs (c : Chip) (u code : Nat) (p : FaultAddr) (l : List CField) : (c.eventLimited u code p l).txs = c.txs := by simp [Chip.eventLimited]
@[simp] theorem Chip.eventLimited_saving (c : Chip) (u code : Nat) (p : FaultAddr) (l : List CField) : (c.eventLimited u code p l).saving = c.saving := by simp [Chip.eventLimited]
@[simp] theorem Chip.eventLimited_mem (c : Chip) (u code : Nat) (p : FaultAddr) (l : List CField) : (c.eventLimited u code p l).mem = c.mem := by simp [Chip.eventLimited]
@[simp] theorem Chip.eventLimited_pruCur (c : Chip) (u code : Nat) (p : FaultAddr) (l : List CField) : (c.eventLimited u code p l).pruCur = c.pruCur := by simp [Chip.eventLimited]
@[simp] theorem Chip.eventLimited_violations (c : Chip) (u code : Nat) (p : FaultAddr) (l : List CField) : (c.eventLimited u code p l).violations = c.violations := by simp [Chip.eventLimited]
@[simp] theorem Chip.eventLimited_tagHeld (c : Chip) (u code : Nat) (p : FaultAddr) (l : List CField) : (c.eventLimited u code p l).tagHeld = c.tagHeld := by simp [Chip.eventLimited]
@[simp] theorem Chip.eventLimited_trims (c : Chip) (u code : Nat) (p : FaultAddr) (l : List CField) : (c.eventLimited u code p l).trims = c.trims := by simp [Chip.eventLimited]
@[simp] theorem Chip.eventLimited_cams (c : Chip) (u code : Nat) (p : FaultAddr) (l : List CField) : (c.eventLimited u code p l).cams = c.cams := by simp [Chip.eventLimited]
@[simp] theorem Chip.eventLimited_caps (c : Chip) (u code : Nat) (p : FaultAddr) (l : List CField) : (c.eventLimited u code p l).caps = c.caps := by simp [Chip.eventLimited]
@[simp] theorem Chip.eventLimited_tch (c : Chip) (u code : Nat) (p : FaultAddr) (l : List CField) : (c.eventLimited u code p l).tch = c.tch := by simp [Chip.eventLimited]
@[simp] theorem Chip.eventLimited_d2dQueue (c : Chip) (u code : Nat) (p : FaultAddr) (l : List CField) : (c.eventLimited u code p l).d2dQueue = c.d2dQueue := by simp [Chip.eventLimited]
@[simp] theorem Chip.eventLimited_d2dDown (c : Chip) (u code : Nat) (p : FaultAddr) (l : List CField) : (c.eventLimited u code p l).d2dDown = c.d2dDown := by simp [Chip.eventLimited]
@[simp] theorem Chip.eventLimited_d2dLost (c : Chip) (u code : Nat) (p : FaultAddr) (l : List CField) : (c.eventLimited u code p l).d2dLost = c.d2dLost := by simp [Chip.eventLimited]
@[simp] theorem Chip.eventLimited_touchIn (c : Chip) (u code : Nat) (p : FaultAddr) (l : List CField) : (c.eventLimited u code p l).touchIn = c.touchIn := by simp [Chip.eventLimited]
@[simp] theorem Chip.eventLimited_ports (c : Chip) (u code : Nat) (p : FaultAddr) (l : List CField) : (c.eventLimited u code p l).ports = c.ports := by simp [Chip.eventLimited]
@[simp] theorem Chip.eventLimited_gpo (c : Chip) (u code : Nat) (p : FaultAddr) (l : List CField) : (c.eventLimited u code p l).gpo = c.gpo := by simp [Chip.eventLimited]
@[simp] theorem Chip.eventLimited_peg (c : Chip) (u code : Nat) (p : FaultAddr) (l : List CField) : (c.eventLimited u code p l).peg = c.peg := by simp [Chip.eventLimited]
@[simp] theorem Chip.eventLimited_jrn (c : Chip) (u code : Nat) (p : FaultAddr) (l : List CField) : (c.eventLimited u code p l).jrn = c.jrn := by simp [Chip.eventLimited]
@[simp] theorem Chip.eventLimited_age (c : Chip) (u code : Nat) (p : FaultAddr) (l : List CField) : (c.eventLimited u code p l).age = c.age := by simp [Chip.eventLimited]
@[simp] theorem Chip.eventLimited_pitch (c : Chip) (u code : Nat) (p : FaultAddr) (l : List CField) : (c.eventLimited u code p l).pitch = c.pitch := by simp [Chip.eventLimited]
@[simp] theorem Chip.eventLimited_mgt (c : Chip) (u code : Nat) (p : FaultAddr) (l : List CField) : (c.eventLimited u code p l).mgt = c.mgt := by simp [Chip.eventLimited]

/-! ### `Chip.eventLimitedLast` -/

@[simp] theorem Chip.eventLimitedLast_clk (c : Chip) (u code : Nat) (p : FaultAddr) (l : List CField) : (c.eventLimitedLast u code p l).clk = c.clk := by simp [Chip.eventLimitedLast]
@[simp] theorem Chip.eventLimitedLast_latch (c : Chip) (u code : Nat) (p : FaultAddr) (l : List CField) : (c.eventLimitedLast u code p l).latch = c.latch := by simp [Chip.eventLimitedLast]
@[simp] theorem Chip.eventLimitedLast_tbw (c : Chip) (u code : Nat) (p : FaultAddr) (l : List CField) : (c.eventLimitedLast u code p l).tbw = c.tbw := by simp [Chip.eventLimitedLast]
@[simp] theorem Chip.eventLimitedLast_dram (c : Chip) (u code : Nat) (p : FaultAddr) (l : List CField) : (c.eventLimitedLast u code p l).dram = c.dram := by simp [Chip.eventLimitedLast]
@[simp] theorem Chip.eventLimitedLast_tx (c : Chip) (u code : Nat) (p : FaultAddr) (l : List CField) : (c.eventLimitedLast u code p l).tx = c.tx := by simp [Chip.eventLimitedLast]
@[simp] theorem Chip.eventLimitedLast_mui (c : Chip) (u code : Nat) (p : FaultAddr) (l : List CField) : (c.eventLimitedLast u code p l).mui = c.mui := by simp [Chip.eventLimitedLast]
@[simp] theorem Chip.eventLimitedLast_taps (c : Chip) (u code : Nat) (p : FaultAddr) (l : List CField) : (c.eventLimitedLast u code p l).taps = c.taps := by simp [Chip.eventLimitedLast]
@[simp] theorem Chip.eventLimitedLast_watch (c : Chip) (u code : Nat) (p : FaultAddr) (l : List CField) : (c.eventLimitedLast u code p l).watch = c.watch := by simp [Chip.eventLimitedLast]
@[simp] theorem Chip.eventLimitedLast_chk (c : Chip) (u code : Nat) (p : FaultAddr) (l : List CField) : (c.eventLimitedLast u code p l).chk = c.chk := by simp [Chip.eventLimitedLast]
@[simp] theorem Chip.eventLimitedLast_pnt (c : Chip) (u code : Nat) (p : FaultAddr) (l : List CField) : (c.eventLimitedLast u code p l).pnt = c.pnt := by simp [Chip.eventLimitedLast]
@[simp] theorem Chip.eventLimitedLast_bol (c : Chip) (u code : Nat) (p : FaultAddr) (l : List CField) : (c.eventLimitedLast u code p l).bol = c.bol := by simp [Chip.eventLimitedLast]
@[simp] theorem Chip.eventLimitedLast_twn (c : Chip) (u code : Nat) (p : FaultAddr) (l : List CField) : (c.eventLimitedLast u code p l).twn = c.twn := by simp [Chip.eventLimitedLast]
@[simp] theorem Chip.eventLimitedLast_slots (c : Chip) (u code : Nat) (p : FaultAddr) (l : List CField) : (c.eventLimitedLast u code p l).slots = c.slots := by simp [Chip.eventLimitedLast]
@[simp] theorem Chip.eventLimitedLast_net (c : Chip) (u code : Nat) (p : FaultAddr) (l : List CField) : (c.eventLimitedLast u code p l).net = c.net := by simp [Chip.eventLimitedLast]
@[simp] theorem Chip.eventLimitedLast_held (c : Chip) (u code : Nat) (p : FaultAddr) (l : List CField) : (c.eventLimitedLast u code p l).held = c.held := by simp [Chip.eventLimitedLast]
@[simp] theorem Chip.eventLimitedLast_aus (c : Chip) (u code : Nat) (p : FaultAddr) (l : List CField) : (c.eventLimitedLast u code p l).aus = c.aus := by simp [Chip.eventLimitedLast]
@[simp] theorem Chip.eventLimitedLast_shown (c : Chip) (u code : Nat) (p : FaultAddr) (l : List CField) : (c.eventLimitedLast u code p l).shown = c.shown := by simp [Chip.eventLimitedLast]
@[simp] theorem Chip.eventLimitedLast_partIndex (c : Chip) (u code : Nat) (p : FaultAddr) (l : List CField) : (c.eventLimitedLast u code p l).partIndex = c.partIndex := by simp [Chip.eventLimitedLast]
@[simp] theorem Chip.eventLimitedLast_curElem (c : Chip) (u code : Nat) (p : FaultAddr) (l : List CField) : (c.eventLimitedLast u code p l).curElem = c.curElem := by simp [Chip.eventLimitedLast]
@[simp] theorem Chip.eventLimitedLast_curDesc (c : Chip) (u code : Nat) (p : FaultAddr) (l : List CField) : (c.eventLimitedLast u code p l).curDesc = c.curDesc := by simp [Chip.eventLimitedLast]
@[simp] theorem Chip.eventLimitedLast_curRegion (c : Chip) (u code : Nat) (p : FaultAddr) (l : List CField) : (c.eventLimitedLast u code p l).curRegion = c.curRegion := by simp [Chip.eventLimitedLast]
@[simp] theorem Chip.eventLimitedLast_prov (c : Chip) (u code : Nat) (p : FaultAddr) (l : List CField) : (c.eventLimitedLast u code p l).prov = c.prov := by simp [Chip.eventLimitedLast]
@[simp] theorem Chip.eventLimitedLast_elems (c : Chip) (u code : Nat) (p : FaultAddr) (l : List CField) : (c.eventLimitedLast u code p l).elems = c.elems := by simp [Chip.eventLimitedLast]
@[simp] theorem Chip.eventLimitedLast_heads (c : Chip) (u code : Nat) (p : FaultAddr) (l : List CField) : (c.eventLimitedLast u code p l).heads = c.heads := by simp [Chip.eventLimitedLast]
@[simp] theorem Chip.eventLimitedLast_roomNumber (c : Chip) (u code : Nat) (p : FaultAddr) (l : List CField) : (c.eventLimitedLast u code p l).roomNumber = c.roomNumber := by simp [Chip.eventLimitedLast]
@[simp] theorem Chip.eventLimitedLast_dec (c : Chip) (u code : Nat) (p : FaultAddr) (l : List CField) : (c.eventLimitedLast u code p l).dec = c.dec := by simp [Chip.eventLimitedLast]
@[simp] theorem Chip.eventLimitedLast_enc (c : Chip) (u code : Nat) (p : FaultAddr) (l : List CField) : (c.eventLimitedLast u code p l).enc = c.enc := by simp [Chip.eventLimitedLast]
@[simp] theorem Chip.eventLimitedLast_txs (c : Chip) (u code : Nat) (p : FaultAddr) (l : List CField) : (c.eventLimitedLast u code p l).txs = c.txs := by simp [Chip.eventLimitedLast]
@[simp] theorem Chip.eventLimitedLast_saving (c : Chip) (u code : Nat) (p : FaultAddr) (l : List CField) : (c.eventLimitedLast u code p l).saving = c.saving := by simp [Chip.eventLimitedLast]
@[simp] theorem Chip.eventLimitedLast_mem (c : Chip) (u code : Nat) (p : FaultAddr) (l : List CField) : (c.eventLimitedLast u code p l).mem = c.mem := by simp [Chip.eventLimitedLast]
@[simp] theorem Chip.eventLimitedLast_pruCur (c : Chip) (u code : Nat) (p : FaultAddr) (l : List CField) : (c.eventLimitedLast u code p l).pruCur = c.pruCur := by simp [Chip.eventLimitedLast]
@[simp] theorem Chip.eventLimitedLast_violations (c : Chip) (u code : Nat) (p : FaultAddr) (l : List CField) : (c.eventLimitedLast u code p l).violations = c.violations := by simp [Chip.eventLimitedLast]
@[simp] theorem Chip.eventLimitedLast_tagHeld (c : Chip) (u code : Nat) (p : FaultAddr) (l : List CField) : (c.eventLimitedLast u code p l).tagHeld = c.tagHeld := by simp [Chip.eventLimitedLast]
@[simp] theorem Chip.eventLimitedLast_trims (c : Chip) (u code : Nat) (p : FaultAddr) (l : List CField) : (c.eventLimitedLast u code p l).trims = c.trims := by simp [Chip.eventLimitedLast]
@[simp] theorem Chip.eventLimitedLast_cams (c : Chip) (u code : Nat) (p : FaultAddr) (l : List CField) : (c.eventLimitedLast u code p l).cams = c.cams := by simp [Chip.eventLimitedLast]
@[simp] theorem Chip.eventLimitedLast_caps (c : Chip) (u code : Nat) (p : FaultAddr) (l : List CField) : (c.eventLimitedLast u code p l).caps = c.caps := by simp [Chip.eventLimitedLast]
@[simp] theorem Chip.eventLimitedLast_tch (c : Chip) (u code : Nat) (p : FaultAddr) (l : List CField) : (c.eventLimitedLast u code p l).tch = c.tch := by simp [Chip.eventLimitedLast]
@[simp] theorem Chip.eventLimitedLast_d2dQueue (c : Chip) (u code : Nat) (p : FaultAddr) (l : List CField) : (c.eventLimitedLast u code p l).d2dQueue = c.d2dQueue := by simp [Chip.eventLimitedLast]
@[simp] theorem Chip.eventLimitedLast_d2dDown (c : Chip) (u code : Nat) (p : FaultAddr) (l : List CField) : (c.eventLimitedLast u code p l).d2dDown = c.d2dDown := by simp [Chip.eventLimitedLast]
@[simp] theorem Chip.eventLimitedLast_d2dLost (c : Chip) (u code : Nat) (p : FaultAddr) (l : List CField) : (c.eventLimitedLast u code p l).d2dLost = c.d2dLost := by simp [Chip.eventLimitedLast]
@[simp] theorem Chip.eventLimitedLast_touchIn (c : Chip) (u code : Nat) (p : FaultAddr) (l : List CField) : (c.eventLimitedLast u code p l).touchIn = c.touchIn := by simp [Chip.eventLimitedLast]
@[simp] theorem Chip.eventLimitedLast_ports (c : Chip) (u code : Nat) (p : FaultAddr) (l : List CField) : (c.eventLimitedLast u code p l).ports = c.ports := by simp [Chip.eventLimitedLast]
@[simp] theorem Chip.eventLimitedLast_gpo (c : Chip) (u code : Nat) (p : FaultAddr) (l : List CField) : (c.eventLimitedLast u code p l).gpo = c.gpo := by simp [Chip.eventLimitedLast]
@[simp] theorem Chip.eventLimitedLast_peg (c : Chip) (u code : Nat) (p : FaultAddr) (l : List CField) : (c.eventLimitedLast u code p l).peg = c.peg := by simp [Chip.eventLimitedLast]
@[simp] theorem Chip.eventLimitedLast_jrn (c : Chip) (u code : Nat) (p : FaultAddr) (l : List CField) : (c.eventLimitedLast u code p l).jrn = c.jrn := by simp [Chip.eventLimitedLast]
@[simp] theorem Chip.eventLimitedLast_age (c : Chip) (u code : Nat) (p : FaultAddr) (l : List CField) : (c.eventLimitedLast u code p l).age = c.age := by simp [Chip.eventLimitedLast]
@[simp] theorem Chip.eventLimitedLast_pitch (c : Chip) (u code : Nat) (p : FaultAddr) (l : List CField) : (c.eventLimitedLast u code p l).pitch = c.pitch := by simp [Chip.eventLimitedLast]
@[simp] theorem Chip.eventLimitedLast_mgt (c : Chip) (u code : Nat) (p : FaultAddr) (l : List CField) : (c.eventLimitedLast u code p l).mgt = c.mgt := by simp [Chip.eventLimitedLast]

/-! ### `Chip.refuse` -/

@[simp] theorem Chip.refuse_clk (c : Chip) (src : Source) (a : Nat) (w : Word) (cause : Nat) : (c.refuse src a w cause).clk = c.clk := by unfold Chip.refuse; simp only []; split <;> split <;> simp
@[simp] theorem Chip.refuse_latch (c : Chip) (src : Source) (a : Nat) (w : Word) (cause : Nat) : (c.refuse src a w cause).latch = c.latch := by unfold Chip.refuse; simp only []; split <;> split <;> simp
@[simp] theorem Chip.refuse_tbw (c : Chip) (src : Source) (a : Nat) (w : Word) (cause : Nat) : (c.refuse src a w cause).tbw = c.tbw := by unfold Chip.refuse; simp only []; split <;> split <;> simp
@[simp] theorem Chip.refuse_dram (c : Chip) (src : Source) (a : Nat) (w : Word) (cause : Nat) : (c.refuse src a w cause).dram = c.dram := by unfold Chip.refuse; simp only []; split <;> split <;> simp
@[simp] theorem Chip.refuse_rate (c : Chip) (src : Source) (a : Nat) (w : Word) (cause : Nat) : (c.refuse src a w cause).rate = c.rate := by unfold Chip.refuse; simp only []; split <;> split <;> simp
@[simp] theorem Chip.refuse_tx (c : Chip) (src : Source) (a : Nat) (w : Word) (cause : Nat) : (c.refuse src a w cause).tx = c.tx := by unfold Chip.refuse; simp only []; split <;> split <;> simp
@[simp] theorem Chip.refuse_mui (c : Chip) (src : Source) (a : Nat) (w : Word) (cause : Nat) : (c.refuse src a w cause).mui = c.mui := by unfold Chip.refuse; simp only []; split <;> split <;> simp
@[simp] theorem Chip.refuse_taps (c : Chip) (src : Source) (a : Nat) (w : Word) (cause : Nat) : (c.refuse src a w cause).taps = c.taps := by unfold Chip.refuse; simp only []; split <;> split <;> simp
@[simp] theorem Chip.refuse_watch (c : Chip) (src : Source) (a : Nat) (w : Word) (cause : Nat) : (c.refuse src a w cause).watch = c.watch := by unfold Chip.refuse; simp only []; split <;> split <;> simp
@[simp] theorem Chip.refuse_chk (c : Chip) (src : Source) (a : Nat) (w : Word) (cause : Nat) : (c.refuse src a w cause).chk = c.chk := by unfold Chip.refuse; simp only []; split <;> split <;> simp
@[simp] theorem Chip.refuse_pnt (c : Chip) (src : Source) (a : Nat) (w : Word) (cause : Nat) : (c.refuse src a w cause).pnt = c.pnt := by unfold Chip.refuse; simp only []; split <;> split <;> simp
@[simp] theorem Chip.refuse_bol (c : Chip) (src : Source) (a : Nat) (w : Word) (cause : Nat) : (c.refuse src a w cause).bol = c.bol := by unfold Chip.refuse; simp only []; split <;> split <;> simp
@[simp] theorem Chip.refuse_twn (c : Chip) (src : Source) (a : Nat) (w : Word) (cause : Nat) : (c.refuse src a w cause).twn = c.twn := by unfold Chip.refuse; simp only []; split <;> split <;> simp
@[simp] theorem Chip.refuse_slots (c : Chip) (src : Source) (a : Nat) (w : Word) (cause : Nat) : (c.refuse src a w cause).slots = c.slots := by unfold Chip.refuse; simp only []; split <;> split <;> simp
@[simp] theorem Chip.refuse_net (c : Chip) (src : Source) (a : Nat) (w : Word) (cause : Nat) : (c.refuse src a w cause).net = c.net := by unfold Chip.refuse; simp only []; split <;> split <;> simp
@[simp] theorem Chip.refuse_held (c : Chip) (src : Source) (a : Nat) (w : Word) (cause : Nat) : (c.refuse src a w cause).held = c.held := by unfold Chip.refuse; simp only []; split <;> split <;> simp
@[simp] theorem Chip.refuse_aus (c : Chip) (src : Source) (a : Nat) (w : Word) (cause : Nat) : (c.refuse src a w cause).aus = c.aus := by unfold Chip.refuse; simp only []; split <;> split <;> simp
@[simp] theorem Chip.refuse_shown (c : Chip) (src : Source) (a : Nat) (w : Word) (cause : Nat) : (c.refuse src a w cause).shown = c.shown := by unfold Chip.refuse; simp only []; split <;> split <;> simp
@[simp] theorem Chip.refuse_partIndex (c : Chip) (src : Source) (a : Nat) (w : Word) (cause : Nat) : (c.refuse src a w cause).partIndex = c.partIndex := by unfold Chip.refuse; simp only []; split <;> split <;> simp
@[simp] theorem Chip.refuse_curElem (c : Chip) (src : Source) (a : Nat) (w : Word) (cause : Nat) : (c.refuse src a w cause).curElem = c.curElem := by unfold Chip.refuse; simp only []; split <;> split <;> simp
@[simp] theorem Chip.refuse_curDesc (c : Chip) (src : Source) (a : Nat) (w : Word) (cause : Nat) : (c.refuse src a w cause).curDesc = c.curDesc := by unfold Chip.refuse; simp only []; split <;> split <;> simp
@[simp] theorem Chip.refuse_curRegion (c : Chip) (src : Source) (a : Nat) (w : Word) (cause : Nat) : (c.refuse src a w cause).curRegion = c.curRegion := by unfold Chip.refuse; simp only []; split <;> split <;> simp
@[simp] theorem Chip.refuse_prov (c : Chip) (src : Source) (a : Nat) (w : Word) (cause : Nat) : (c.refuse src a w cause).prov = c.prov := by unfold Chip.refuse; simp only []; split <;> split <;> simp
@[simp] theorem Chip.refuse_elems (c : Chip) (src : Source) (a : Nat) (w : Word) (cause : Nat) : (c.refuse src a w cause).elems = c.elems := by unfold Chip.refuse; simp only []; split <;> split <;> simp
@[simp] theorem Chip.refuse_heads (c : Chip) (src : Source) (a : Nat) (w : Word) (cause : Nat) : (c.refuse src a w cause).heads = c.heads := by unfold Chip.refuse; simp only []; split <;> split <;> simp
@[simp] theorem Chip.refuse_roomNumber (c : Chip) (src : Source) (a : Nat) (w : Word) (cause : Nat) : (c.refuse src a w cause).roomNumber = c.roomNumber := by unfold Chip.refuse; simp only []; split <;> split <;> simp
@[simp] theorem Chip.refuse_dec (c : Chip) (src : Source) (a : Nat) (w : Word) (cause : Nat) : (c.refuse src a w cause).dec = c.dec := by unfold Chip.refuse; simp only []; split <;> split <;> simp
@[simp] theorem Chip.refuse_enc (c : Chip) (src : Source) (a : Nat) (w : Word) (cause : Nat) : (c.refuse src a w cause).enc = c.enc := by unfold Chip.refuse; simp only []; split <;> split <;> simp
@[simp] theorem Chip.refuse_txs (c : Chip) (src : Source) (a : Nat) (w : Word) (cause : Nat) : (c.refuse src a w cause).txs = c.txs := by unfold Chip.refuse; simp only []; split <;> split <;> simp
@[simp] theorem Chip.refuse_saving (c : Chip) (src : Source) (a : Nat) (w : Word) (cause : Nat) : (c.refuse src a w cause).saving = c.saving := by unfold Chip.refuse; simp only []; split <;> split <;> simp
@[simp] theorem Chip.refuse_mem (c : Chip) (src : Source) (a : Nat) (w : Word) (cause : Nat) : (c.refuse src a w cause).mem = c.mem := by unfold Chip.refuse; simp only []; split <;> split <;> simp
@[simp] theorem Chip.refuse_pruCur (c : Chip) (src : Source) (a : Nat) (w : Word) (cause : Nat) : (c.refuse src a w cause).pruCur = c.pruCur := by unfold Chip.refuse; simp only []; split <;> split <;> simp
@[simp] theorem Chip.refuse_violations (c : Chip) (src : Source) (a : Nat) (w : Word) (cause : Nat) : (c.refuse src a w cause).violations = c.violations := by unfold Chip.refuse; simp only []; split <;> split <;> simp
@[simp] theorem Chip.refuse_tagHeld (c : Chip) (src : Source) (a : Nat) (w : Word) (cause : Nat) : (c.refuse src a w cause).tagHeld = c.tagHeld := by unfold Chip.refuse; simp only []; split <;> split <;> simp
@[simp] theorem Chip.refuse_trims (c : Chip) (src : Source) (a : Nat) (w : Word) (cause : Nat) : (c.refuse src a w cause).trims = c.trims := by unfold Chip.refuse; simp only []; split <;> split <;> simp
@[simp] theorem Chip.refuse_cams (c : Chip) (src : Source) (a : Nat) (w : Word) (cause : Nat) : (c.refuse src a w cause).cams = c.cams := by unfold Chip.refuse; simp only []; split <;> split <;> simp
@[simp] theorem Chip.refuse_caps (c : Chip) (src : Source) (a : Nat) (w : Word) (cause : Nat) : (c.refuse src a w cause).caps = c.caps := by unfold Chip.refuse; simp only []; split <;> split <;> simp
@[simp] theorem Chip.refuse_tch (c : Chip) (src : Source) (a : Nat) (w : Word) (cause : Nat) : (c.refuse src a w cause).tch = c.tch := by unfold Chip.refuse; simp only []; split <;> split <;> simp
@[simp] theorem Chip.refuse_d2dQueue (c : Chip) (src : Source) (a : Nat) (w : Word) (cause : Nat) : (c.refuse src a w cause).d2dQueue = c.d2dQueue := by unfold Chip.refuse; simp only []; split <;> split <;> simp
@[simp] theorem Chip.refuse_d2dDown (c : Chip) (src : Source) (a : Nat) (w : Word) (cause : Nat) : (c.refuse src a w cause).d2dDown = c.d2dDown := by unfold Chip.refuse; simp only []; split <;> split <;> simp
@[simp] theorem Chip.refuse_d2dLost (c : Chip) (src : Source) (a : Nat) (w : Word) (cause : Nat) : (c.refuse src a w cause).d2dLost = c.d2dLost := by unfold Chip.refuse; simp only []; split <;> split <;> simp
@[simp] theorem Chip.refuse_touchIn (c : Chip) (src : Source) (a : Nat) (w : Word) (cause : Nat) : (c.refuse src a w cause).touchIn = c.touchIn := by unfold Chip.refuse; simp only []; split <;> split <;> simp
@[simp] theorem Chip.refuse_ports (c : Chip) (src : Source) (a : Nat) (w : Word) (cause : Nat) : (c.refuse src a w cause).ports = c.ports := by unfold Chip.refuse; simp only []; split <;> split <;> simp
@[simp] theorem Chip.refuse_gpo (c : Chip) (src : Source) (a : Nat) (w : Word) (cause : Nat) : (c.refuse src a w cause).gpo = c.gpo := by unfold Chip.refuse; simp only []; split <;> split <;> simp
@[simp] theorem Chip.refuse_peg (c : Chip) (src : Source) (a : Nat) (w : Word) (cause : Nat) : (c.refuse src a w cause).peg = c.peg := by unfold Chip.refuse; simp only []; split <;> split <;> simp
@[simp] theorem Chip.refuse_jrn (c : Chip) (src : Source) (a : Nat) (w : Word) (cause : Nat) : (c.refuse src a w cause).jrn = c.jrn := by unfold Chip.refuse; simp only []; split <;> split <;> simp
@[simp] theorem Chip.refuse_age (c : Chip) (src : Source) (a : Nat) (w : Word) (cause : Nat) : (c.refuse src a w cause).age = c.age := by unfold Chip.refuse; simp only []; split <;> split <;> simp
@[simp] theorem Chip.refuse_pitch (c : Chip) (src : Source) (a : Nat) (w : Word) (cause : Nat) : (c.refuse src a w cause).pitch = c.pitch := by unfold Chip.refuse; simp only []; split <;> split <;> simp
@[simp] theorem Chip.refuse_mgt (c : Chip) (src : Source) (a : Nat) (w : Word) (cause : Nat) : (c.refuse src a w cause).mgt = c.mgt := by unfold Chip.refuse; simp only []; split <;> split <;> simp

/-! ### `Chip.dropWrite` -/

@[simp] theorem Chip.dropWrite_clk (c : Chip) (a : Nat) : (c.dropWrite a).clk = c.clk := by unfold Chip.dropWrite; simp only []; split <;> simp
@[simp] theorem Chip.dropWrite_latch (c : Chip) (a : Nat) : (c.dropWrite a).latch = c.latch := by unfold Chip.dropWrite; simp only []; split <;> simp
@[simp] theorem Chip.dropWrite_tbw (c : Chip) (a : Nat) : (c.dropWrite a).tbw = c.tbw := by unfold Chip.dropWrite; simp only []; split <;> simp
@[simp] theorem Chip.dropWrite_dram (c : Chip) (a : Nat) : (c.dropWrite a).dram = c.dram := by unfold Chip.dropWrite; simp only []; split <;> simp
@[simp] theorem Chip.dropWrite_tx (c : Chip) (a : Nat) : (c.dropWrite a).tx = c.tx := by unfold Chip.dropWrite; simp only []; split <;> simp
@[simp] theorem Chip.dropWrite_mui (c : Chip) (a : Nat) : (c.dropWrite a).mui = c.mui := by unfold Chip.dropWrite; simp only []; split <;> simp
@[simp] theorem Chip.dropWrite_taps (c : Chip) (a : Nat) : (c.dropWrite a).taps = c.taps := by unfold Chip.dropWrite; simp only []; split <;> simp
@[simp] theorem Chip.dropWrite_watch (c : Chip) (a : Nat) : (c.dropWrite a).watch = c.watch := by unfold Chip.dropWrite; simp only []; split <;> simp
@[simp] theorem Chip.dropWrite_chk (c : Chip) (a : Nat) : (c.dropWrite a).chk = c.chk := by unfold Chip.dropWrite; simp only []; split <;> simp
@[simp] theorem Chip.dropWrite_pnt (c : Chip) (a : Nat) : (c.dropWrite a).pnt = c.pnt := by unfold Chip.dropWrite; simp only []; split <;> simp
@[simp] theorem Chip.dropWrite_bol (c : Chip) (a : Nat) : (c.dropWrite a).bol = c.bol := by unfold Chip.dropWrite; simp only []; split <;> simp
@[simp] theorem Chip.dropWrite_twn (c : Chip) (a : Nat) : (c.dropWrite a).twn = c.twn := by unfold Chip.dropWrite; simp only []; split <;> simp
@[simp] theorem Chip.dropWrite_slots (c : Chip) (a : Nat) : (c.dropWrite a).slots = c.slots := by unfold Chip.dropWrite; simp only []; split <;> simp
@[simp] theorem Chip.dropWrite_net (c : Chip) (a : Nat) : (c.dropWrite a).net = c.net := by unfold Chip.dropWrite; simp only []; split <;> simp
@[simp] theorem Chip.dropWrite_held (c : Chip) (a : Nat) : (c.dropWrite a).held = c.held := by unfold Chip.dropWrite; simp only []; split <;> simp
@[simp] theorem Chip.dropWrite_aus (c : Chip) (a : Nat) : (c.dropWrite a).aus = c.aus := by unfold Chip.dropWrite; simp only []; split <;> simp
@[simp] theorem Chip.dropWrite_shown (c : Chip) (a : Nat) : (c.dropWrite a).shown = c.shown := by unfold Chip.dropWrite; simp only []; split <;> simp
@[simp] theorem Chip.dropWrite_partIndex (c : Chip) (a : Nat) : (c.dropWrite a).partIndex = c.partIndex := by unfold Chip.dropWrite; simp only []; split <;> simp
@[simp] theorem Chip.dropWrite_curElem (c : Chip) (a : Nat) : (c.dropWrite a).curElem = c.curElem := by unfold Chip.dropWrite; simp only []; split <;> simp
@[simp] theorem Chip.dropWrite_curDesc (c : Chip) (a : Nat) : (c.dropWrite a).curDesc = c.curDesc := by unfold Chip.dropWrite; simp only []; split <;> simp
@[simp] theorem Chip.dropWrite_curRegion (c : Chip) (a : Nat) : (c.dropWrite a).curRegion = c.curRegion := by unfold Chip.dropWrite; simp only []; split <;> simp
@[simp] theorem Chip.dropWrite_prov (c : Chip) (a : Nat) : (c.dropWrite a).prov = c.prov := by unfold Chip.dropWrite; simp only []; split <;> simp
@[simp] theorem Chip.dropWrite_elems (c : Chip) (a : Nat) : (c.dropWrite a).elems = c.elems := by unfold Chip.dropWrite; simp only []; split <;> simp
@[simp] theorem Chip.dropWrite_heads (c : Chip) (a : Nat) : (c.dropWrite a).heads = c.heads := by unfold Chip.dropWrite; simp only []; split <;> simp
@[simp] theorem Chip.dropWrite_roomNumber (c : Chip) (a : Nat) : (c.dropWrite a).roomNumber = c.roomNumber := by unfold Chip.dropWrite; simp only []; split <;> simp
@[simp] theorem Chip.dropWrite_dec (c : Chip) (a : Nat) : (c.dropWrite a).dec = c.dec := by unfold Chip.dropWrite; simp only []; split <;> simp
@[simp] theorem Chip.dropWrite_enc (c : Chip) (a : Nat) : (c.dropWrite a).enc = c.enc := by unfold Chip.dropWrite; simp only []; split <;> simp
@[simp] theorem Chip.dropWrite_txs (c : Chip) (a : Nat) : (c.dropWrite a).txs = c.txs := by unfold Chip.dropWrite; simp only []; split <;> simp
@[simp] theorem Chip.dropWrite_saving (c : Chip) (a : Nat) : (c.dropWrite a).saving = c.saving := by unfold Chip.dropWrite; simp only []; split <;> simp
@[simp] theorem Chip.dropWrite_mem (c : Chip) (a : Nat) : (c.dropWrite a).mem = c.mem := by unfold Chip.dropWrite; simp only []; split <;> simp
@[simp] theorem Chip.dropWrite_pruCur (c : Chip) (a : Nat) : (c.dropWrite a).pruCur = c.pruCur := by unfold Chip.dropWrite; simp only []; split <;> simp
@[simp] theorem Chip.dropWrite_violations (c : Chip) (a : Nat) : (c.dropWrite a).violations = c.violations := by unfold Chip.dropWrite; simp only []; split <;> simp
@[simp] theorem Chip.dropWrite_tagHeld (c : Chip) (a : Nat) : (c.dropWrite a).tagHeld = c.tagHeld := by unfold Chip.dropWrite; simp only []; split <;> simp
@[simp] theorem Chip.dropWrite_trims (c : Chip) (a : Nat) : (c.dropWrite a).trims = c.trims := by unfold Chip.dropWrite; simp only []; split <;> simp
@[simp] theorem Chip.dropWrite_cams (c : Chip) (a : Nat) : (c.dropWrite a).cams = c.cams := by unfold Chip.dropWrite; simp only []; split <;> simp
@[simp] theorem Chip.dropWrite_caps (c : Chip) (a : Nat) : (c.dropWrite a).caps = c.caps := by unfold Chip.dropWrite; simp only []; split <;> simp
@[simp] theorem Chip.dropWrite_tch (c : Chip) (a : Nat) : (c.dropWrite a).tch = c.tch := by unfold Chip.dropWrite; simp only []; split <;> simp
@[simp] theorem Chip.dropWrite_d2dQueue (c : Chip) (a : Nat) : (c.dropWrite a).d2dQueue = c.d2dQueue := by unfold Chip.dropWrite; simp only []; split <;> simp
@[simp] theorem Chip.dropWrite_d2dDown (c : Chip) (a : Nat) : (c.dropWrite a).d2dDown = c.d2dDown := by unfold Chip.dropWrite; simp only []; split <;> simp
@[simp] theorem Chip.dropWrite_d2dLost (c : Chip) (a : Nat) : (c.dropWrite a).d2dLost = c.d2dLost := by unfold Chip.dropWrite; simp only []; split <;> simp
@[simp] theorem Chip.dropWrite_touchIn (c : Chip) (a : Nat) : (c.dropWrite a).touchIn = c.touchIn := by unfold Chip.dropWrite; simp only []; split <;> simp
@[simp] theorem Chip.dropWrite_ports (c : Chip) (a : Nat) : (c.dropWrite a).ports = c.ports := by unfold Chip.dropWrite; simp only []; split <;> simp
@[simp] theorem Chip.dropWrite_gpo (c : Chip) (a : Nat) : (c.dropWrite a).gpo = c.gpo := by unfold Chip.dropWrite; simp only []; split <;> simp
@[simp] theorem Chip.dropWrite_peg (c : Chip) (a : Nat) : (c.dropWrite a).peg = c.peg := by unfold Chip.dropWrite; simp only []; split <;> simp
@[simp] theorem Chip.dropWrite_jrn (c : Chip) (a : Nat) : (c.dropWrite a).jrn = c.jrn := by unfold Chip.dropWrite; simp only []; split <;> simp
@[simp] theorem Chip.dropWrite_age (c : Chip) (a : Nat) : (c.dropWrite a).age = c.age := by unfold Chip.dropWrite; simp only []; split <;> simp
@[simp] theorem Chip.dropWrite_pitch (c : Chip) (a : Nat) : (c.dropWrite a).pitch = c.pitch := by unfold Chip.dropWrite; simp only []; split <;> simp
@[simp] theorem Chip.dropWrite_mgt (c : Chip) (a : Nat) : (c.dropWrite a).mgt = c.mgt := by unfold Chip.dropWrite; simp only []; split <;> simp

/-! ### `Chip.writeFields` -/

@[simp] theorem Chip.writeFields_clk (c : Chip) (a : Nat) (w : Word) : (c.writeFields a w).clk = c.clk := by unfold Chip.writeFields; split <;> simp only [] <;> (try split) <;> simp
@[simp] theorem Chip.writeFields_latch (c : Chip) (a : Nat) (w : Word) : (c.writeFields a w).latch = c.latch := by unfold Chip.writeFields; split <;> simp only [] <;> (try split) <;> simp
@[simp] theorem Chip.writeFields_tbw (c : Chip) (a : Nat) (w : Word) : (c.writeFields a w).tbw = c.tbw := by unfold Chip.writeFields; split <;> simp only [] <;> (try split) <;> simp
@[simp] theorem Chip.writeFields_dram (c : Chip) (a : Nat) (w : Word) : (c.writeFields a w).dram = c.dram := by unfold Chip.writeFields; split <;> simp only [] <;> (try split) <;> simp
@[simp] theorem Chip.writeFields_tx (c : Chip) (a : Nat) (w : Word) : (c.writeFields a w).tx = c.tx := by unfold Chip.writeFields; split <;> simp only [] <;> (try split) <;> simp
@[simp] theorem Chip.writeFields_mui (c : Chip) (a : Nat) (w : Word) : (c.writeFields a w).mui = c.mui := by unfold Chip.writeFields; split <;> simp only [] <;> (try split) <;> simp
@[simp] theorem Chip.writeFields_taps (c : Chip) (a : Nat) (w : Word) : (c.writeFields a w).taps = c.taps := by unfold Chip.writeFields; split <;> simp only [] <;> (try split) <;> simp
@[simp] theorem Chip.writeFields_watch (c : Chip) (a : Nat) (w : Word) : (c.writeFields a w).watch = c.watch := by unfold Chip.writeFields; split <;> simp only [] <;> (try split) <;> simp
@[simp] theorem Chip.writeFields_chk (c : Chip) (a : Nat) (w : Word) : (c.writeFields a w).chk = c.chk := by unfold Chip.writeFields; split <;> simp only [] <;> (try split) <;> simp
@[simp] theorem Chip.writeFields_pnt (c : Chip) (a : Nat) (w : Word) : (c.writeFields a w).pnt = c.pnt := by unfold Chip.writeFields; split <;> simp only [] <;> (try split) <;> simp
@[simp] theorem Chip.writeFields_bol (c : Chip) (a : Nat) (w : Word) : (c.writeFields a w).bol = c.bol := by unfold Chip.writeFields; split <;> simp only [] <;> (try split) <;> simp
@[simp] theorem Chip.writeFields_twn (c : Chip) (a : Nat) (w : Word) : (c.writeFields a w).twn = c.twn := by unfold Chip.writeFields; split <;> simp only [] <;> (try split) <;> simp
@[simp] theorem Chip.writeFields_slots (c : Chip) (a : Nat) (w : Word) : (c.writeFields a w).slots = c.slots := by unfold Chip.writeFields; split <;> simp only [] <;> (try split) <;> simp
@[simp] theorem Chip.writeFields_net (c : Chip) (a : Nat) (w : Word) : (c.writeFields a w).net = c.net := by unfold Chip.writeFields; split <;> simp only [] <;> (try split) <;> simp
@[simp] theorem Chip.writeFields_held (c : Chip) (a : Nat) (w : Word) : (c.writeFields a w).held = c.held := by unfold Chip.writeFields; split <;> simp only [] <;> (try split) <;> simp
@[simp] theorem Chip.writeFields_aus (c : Chip) (a : Nat) (w : Word) : (c.writeFields a w).aus = c.aus := by unfold Chip.writeFields; split <;> simp only [] <;> (try split) <;> simp
@[simp] theorem Chip.writeFields_shown (c : Chip) (a : Nat) (w : Word) : (c.writeFields a w).shown = c.shown := by unfold Chip.writeFields; split <;> simp only [] <;> (try split) <;> simp
@[simp] theorem Chip.writeFields_partIndex (c : Chip) (a : Nat) (w : Word) : (c.writeFields a w).partIndex = c.partIndex := by unfold Chip.writeFields; split <;> simp only [] <;> (try split) <;> simp
@[simp] theorem Chip.writeFields_curElem (c : Chip) (a : Nat) (w : Word) : (c.writeFields a w).curElem = c.curElem := by unfold Chip.writeFields; split <;> simp only [] <;> (try split) <;> simp
@[simp] theorem Chip.writeFields_curDesc (c : Chip) (a : Nat) (w : Word) : (c.writeFields a w).curDesc = c.curDesc := by unfold Chip.writeFields; split <;> simp only [] <;> (try split) <;> simp
@[simp] theorem Chip.writeFields_curRegion (c : Chip) (a : Nat) (w : Word) : (c.writeFields a w).curRegion = c.curRegion := by unfold Chip.writeFields; split <;> simp only [] <;> (try split) <;> simp
@[simp] theorem Chip.writeFields_prov (c : Chip) (a : Nat) (w : Word) : (c.writeFields a w).prov = c.prov := by unfold Chip.writeFields; split <;> simp only [] <;> (try split) <;> simp
@[simp] theorem Chip.writeFields_elems (c : Chip) (a : Nat) (w : Word) : (c.writeFields a w).elems = c.elems := by unfold Chip.writeFields; split <;> simp only [] <;> (try split) <;> simp
@[simp] theorem Chip.writeFields_heads (c : Chip) (a : Nat) (w : Word) : (c.writeFields a w).heads = c.heads := by unfold Chip.writeFields; split <;> simp only [] <;> (try split) <;> simp
@[simp] theorem Chip.writeFields_roomNumber (c : Chip) (a : Nat) (w : Word) : (c.writeFields a w).roomNumber = c.roomNumber := by unfold Chip.writeFields; split <;> simp only [] <;> (try split) <;> simp
@[simp] theorem Chip.writeFields_dec (c : Chip) (a : Nat) (w : Word) : (c.writeFields a w).dec = c.dec := by unfold Chip.writeFields; split <;> simp only [] <;> (try split) <;> simp
@[simp] theorem Chip.writeFields_enc (c : Chip) (a : Nat) (w : Word) : (c.writeFields a w).enc = c.enc := by unfold Chip.writeFields; split <;> simp only [] <;> (try split) <;> simp
@[simp] theorem Chip.writeFields_txs (c : Chip) (a : Nat) (w : Word) : (c.writeFields a w).txs = c.txs := by unfold Chip.writeFields; split <;> simp only [] <;> (try split) <;> simp
@[simp] theorem Chip.writeFields_saving (c : Chip) (a : Nat) (w : Word) : (c.writeFields a w).saving = c.saving := by unfold Chip.writeFields; split <;> simp only [] <;> (try split) <;> simp
@[simp] theorem Chip.writeFields_mem (c : Chip) (a : Nat) (w : Word) : (c.writeFields a w).mem = c.mem := by unfold Chip.writeFields; split <;> simp only [] <;> (try split) <;> simp
@[simp] theorem Chip.writeFields_pruCur (c : Chip) (a : Nat) (w : Word) : (c.writeFields a w).pruCur = c.pruCur := by unfold Chip.writeFields; split <;> simp only [] <;> (try split) <;> simp
@[simp] theorem Chip.writeFields_violations (c : Chip) (a : Nat) (w : Word) : (c.writeFields a w).violations = c.violations := by unfold Chip.writeFields; split <;> simp only [] <;> (try split) <;> simp
@[simp] theorem Chip.writeFields_tagHeld (c : Chip) (a : Nat) (w : Word) : (c.writeFields a w).tagHeld = c.tagHeld := by unfold Chip.writeFields; split <;> simp only [] <;> (try split) <;> simp
@[simp] theorem Chip.writeFields_trims (c : Chip) (a : Nat) (w : Word) : (c.writeFields a w).trims = c.trims := by unfold Chip.writeFields; split <;> simp only [] <;> (try split) <;> simp
@[simp] theorem Chip.writeFields_cams (c : Chip) (a : Nat) (w : Word) : (c.writeFields a w).cams = c.cams := by unfold Chip.writeFields; split <;> simp only [] <;> (try split) <;> simp
@[simp] theorem Chip.writeFields_caps (c : Chip) (a : Nat) (w : Word) : (c.writeFields a w).caps = c.caps := by unfold Chip.writeFields; split <;> simp only [] <;> (try split) <;> simp
@[simp] theorem Chip.writeFields_tch (c : Chip) (a : Nat) (w : Word) : (c.writeFields a w).tch = c.tch := by unfold Chip.writeFields; split <;> simp only [] <;> (try split) <;> simp
@[simp] theorem Chip.writeFields_d2dQueue (c : Chip) (a : Nat) (w : Word) : (c.writeFields a w).d2dQueue = c.d2dQueue := by unfold Chip.writeFields; split <;> simp only [] <;> (try split) <;> simp
@[simp] theorem Chip.writeFields_d2dDown (c : Chip) (a : Nat) (w : Word) : (c.writeFields a w).d2dDown = c.d2dDown := by unfold Chip.writeFields; split <;> simp only [] <;> (try split) <;> simp
@[simp] theorem Chip.writeFields_d2dLost (c : Chip) (a : Nat) (w : Word) : (c.writeFields a w).d2dLost = c.d2dLost := by unfold Chip.writeFields; split <;> simp only [] <;> (try split) <;> simp
@[simp] theorem Chip.writeFields_touchIn (c : Chip) (a : Nat) (w : Word) : (c.writeFields a w).touchIn = c.touchIn := by unfold Chip.writeFields; split <;> simp only [] <;> (try split) <;> simp
@[simp] theorem Chip.writeFields_ports (c : Chip) (a : Nat) (w : Word) : (c.writeFields a w).ports = c.ports := by unfold Chip.writeFields; split <;> simp only [] <;> (try split) <;> simp
@[simp] theorem Chip.writeFields_gpo (c : Chip) (a : Nat) (w : Word) : (c.writeFields a w).gpo = c.gpo := by unfold Chip.writeFields; split <;> simp only [] <;> (try split) <;> simp
@[simp] theorem Chip.writeFields_peg (c : Chip) (a : Nat) (w : Word) : (c.writeFields a w).peg = c.peg := by unfold Chip.writeFields; split <;> simp only [] <;> (try split) <;> simp
@[simp] theorem Chip.writeFields_jrn (c : Chip) (a : Nat) (w : Word) : (c.writeFields a w).jrn = c.jrn := by unfold Chip.writeFields; split <;> simp only [] <;> (try split) <;> simp
@[simp] theorem Chip.writeFields_age (c : Chip) (a : Nat) (w : Word) : (c.writeFields a w).age = c.age := by unfold Chip.writeFields; split <;> simp only [] <;> (try split) <;> simp
@[simp] theorem Chip.writeFields_pitch (c : Chip) (a : Nat) (w : Word) : (c.writeFields a w).pitch = c.pitch := by unfold Chip.writeFields; split <;> simp only [] <;> (try split) <;> simp
@[simp] theorem Chip.writeFields_mgt (c : Chip) (a : Nat) (w : Word) : (c.writeFields a w).mgt = c.mgt := by unfold Chip.writeFields; split <;> simp only [] <;> (try split) <;> simp

end Sys2Proof.Machine
end

