-- ==== Sys2Proof/Laws/Words.lean ====
section
/-! SUPPORT. The fields of a word: a read of a field after a write of it and of others (R16), and stamps (R14). -/

namespace Sys2Proof.Machine

theorem bitsNat_testBit (v hi lo i : Nat) :
    (bitsNat v hi lo).testBit i = (decide (i < hi + 1 - lo) && v.testBit (lo + i)) := by
  simp [bitsNat, Nat.testBit_mod_two_pow, Nat.testBit_div_two_pow, Nat.add_comm]

theorem bitsOf_testBit (w : Word) (hi lo i : Nat) :
    (bitsOf w hi lo).testBit i = (decide (i < hi + 1 - lo) && w.getLsbD (lo + i)) := by
  rw [bitsOf, bitsNat_testBit, BitVec.testBit_toNat]

theorem bitsOf_lt (w : Word) (hi lo : Nat) : bitsOf w hi lo < 2 ^ (hi + 1 - lo) := Nat.mod_lt _ (Nat.two_pow_pos _)

theorem fieldMask_getLsbD (hi lo i : Nat) :
    (fieldMask hi lo).getLsbD i = (decide (i < 32) && decide (lo ≤ i) && decide (i < hi + 1 - lo + lo)) := by
  simp only [fieldMask, BitVec.getLsbD_ofNat, Nat.testBit_mul_two_pow, Nat.testBit_two_pow_sub_one]
  by_cases h1 : i < 32 <;> by_cases h2 : lo ≤ i <;> simp [h1, h2]
  omega

theorem putBits_getLsbD (w : Word) (hi lo v i : Nat) (h : i < 32) :
    (putBits w hi lo v).getLsbD i = if lo ≤ i ∧ i < hi + 1 - lo + lo then v.testBit (i - lo) else w.getLsbD i := by
  simp only [putBits, BitVec.getLsbD_or, BitVec.getLsbD_and, BitVec.getLsbD_not, fieldMask_getLsbD, BitVec.getLsbD_ofNat,
    Nat.testBit_mul_two_pow, h, decide_true, Bool.true_and]
  by_cases h2 : lo ≤ i <;> by_cases h3 : i < hi + 1 - lo + lo <;> simp [h2, h3]

/-- A field reads back what was written to it. -/
theorem bitsOf_putBits_same (w : Word) (hi lo v : Nat) (h : hi < 32) : bitsOf (putBits w hi lo v) hi lo = v % 2 ^ (hi + 1 - lo) := by
  apply Nat.eq_of_testBit_eq
  intro i
  rw [bitsOf_testBit, Nat.testBit_mod_two_pow]
  by_cases hi' : i < hi + 1 - lo
  · have : lo + i < 32 := by omega
    rw [putBits_getLsbD _ _ _ _ _ this]
    have h2 : lo ≤ lo + i ∧ lo + i < hi + 1 - lo + lo := by omega
    simp [h2, hi']
  · simp [hi']

/-- A field that a write does not meet stays as it was. -/
theorem bitsOf_putBits_other (w : Word) (hi lo v hi' lo' : Nat) (h' : hi' < 32) (hd : hi' < lo ∨ hi < lo') :
    bitsOf (putBits w hi lo v) hi' lo' = bitsOf w hi' lo' := by
  apply Nat.eq_of_testBit_eq
  intro i
  rw [bitsOf_testBit, bitsOf_testBit]
  by_cases hi2 : i < hi' + 1 - lo'
  · have : lo' + i < 32 := by omega
    rw [putBits_getLsbD _ _ _ _ _ this]
    have h2 : ¬ (lo ≤ lo' + i ∧ lo' + i < hi + 1 - lo + lo) := by omega
    simp [h2]
  · simp [hi2]

/-- A word is its bits 31 to 0. -/
theorem bitsOf_full (w : Word) : bitsOf w 31 0 = w.toNat := by
  have := w.isLt
  simp only [bitsOf, bitsNat, Nat.pow_zero, Nat.div_one]
  exact Nat.mod_eq_of_lt (by simpa using this)

theorem putBits_full (w : Word) (v : Nat) : putBits w 31 0 v = BitVec.ofNat 32 v := by
  apply BitVec.eq_of_getLsbD_eq
  intro i hi
  rw [putBits_getLsbD _ _ _ _ _ hi]
  have h : 0 ≤ i ∧ i < 31 + 1 - 0 + 0 := by omega
  simp only [h, and_self, if_true, Nat.sub_zero, BitVec.getLsbD_ofNat, hi, decide_true, Bool.true_and]

/-- Elapsed time when the later stamp lies `n` ns after the earlier one within half the range (R14). -/
theorem stampGap_add (e n : Nat) (h : n < 2 ^ 63) : stampGap (e + n) e = n := by
  unfold stampGap signedOf
  have h1 : ((e + n) % 2 ^ 64 + 2 ^ 64 - e % 2 ^ 64) % 2 ^ 64 = n := by omega
  simp only [h1]
  have h2 : n < 2 ^ (64 - 1) := h
  have h3 : n % 2 ^ 64 = n := by omega
  simp only [h3, h2, if_true]

end Sys2Proof.Machine
end

