-- ==== Sys2Proof/Laws/Registers.lean ====
section
/-! SUPPORT. What the shared updates do to the register file: every register they write, and that they write no other; and what
raising an event, refusing a command and dropping a write do. -/

namespace Sys2Proof.Machine

/-! ### One register -/

/-- What a register holds after a write of a whole word. -/
theorem Chip.setReg_reg (c : Chip) (a b : Nat) (w : Word) : (c.setReg a w).reg b = if b = a then w else c.reg b :=
  mapGet_mapPut resetWord c.regs a b w

@[simp] theorem Chip.setReg_reg_same (c : Chip) (a : Nat) (w : Word) : (c.setReg a w).reg a = w := by simp [Chip.setReg_reg]

theorem Chip.setReg_reg_other (c : Chip) {a b : Nat} (w : Word) (h : b ≠ a) : (c.setReg a w).reg b = c.reg b := by
  simp [Chip.setReg_reg, h]

/-- What a register holds after a write of a field of `a`. -/
theorem Chip.setFld_reg (c : Chip) (a hi lo v b : Nat) :
    (c.setFld a hi lo v).reg b = if b = a then putBits (c.reg a) hi lo v else c.reg b := Chip.setReg_reg c a b _

@[simp] theorem Chip.setFld_reg_same (c : Chip) (a hi lo v : Nat) : (c.setFld a hi lo v).reg a = putBits (c.reg a) hi lo v := by
  simp [Chip.setFld_reg]

theorem Chip.setFld_reg_other (c : Chip) {a b : Nat} (hi lo v : Nat) (h : b ≠ a) : (c.setFld a hi lo v).reg b = c.reg b := by
  simp [Chip.setFld_reg, h]

theorem Chip.setNat_reg (c : Chip) (a v b : Nat) :
    (c.setNat a v).reg b = if b = a then BitVec.ofNat 32 v else c.reg b := Chip.setReg_reg c a b _

@[simp] theorem Chip.setNat_reg_same (c : Chip) (a v : Nat) : (c.setNat a v).reg a = BitVec.ofNat 32 v := by simp [Chip.setNat_reg]

theorem Chip.setNat_reg_other (c : Chip) {a b : Nat} (v : Nat) (h : b ≠ a) : (c.setNat a v).reg b = c.reg b := by
  simp [Chip.setNat_reg, h]

theorem Chip.setWide_reg_other (c : Chip) {lo hi b : Nat} (v : Nat) (h1 : b ≠ lo) (h2 : b ≠ hi) :
    (c.setWide lo hi v).reg b = c.reg b := by simp [Chip.setWide, Chip.setNat_reg, h1, h2]

/-- A 64-bit value reads back. -/
theorem Chip.setWide_wide (c : Chip) {lo hi : Nat} (v : Nat) (h : lo ≠ hi) (hv : v < 2 ^ 64) :
    (c.setWide lo hi v).wide lo hi = v := by
  have h1 : (c.setWide lo hi v).reg lo = BitVec.ofNat 32 (v % 2 ^ 32) := by simp [Chip.setWide, Chip.setNat_reg, h]
  have h2 : (c.setWide lo hi v).reg hi = BitVec.ofNat 32 (v / 2 ^ 32) := by simp [Chip.setWide]
  simp only [Chip.wide, h1, h2, BitVec.toNat_ofNat]
  omega

/-! ### Fields -/

/-- A field reads back what was written to it. -/
theorem Chip.setFld_fld_same (c : Chip) (a hi lo v : Nat) (h : hi < 32) :
    (c.setFld a hi lo v).fld a hi lo = v % 2 ^ (hi + 1 - lo) := by
  rw [Chip.fld, Chip.setFld_reg_same, bitsOf_putBits_same _ _ _ _ h]

/-- Another field of the same register stays. -/
theorem Chip.setFld_fld_disjoint (c : Chip) (a hi lo v hi' lo' : Nat) (h' : hi' < 32) (hd : hi' < lo ∨ hi < lo') :
    (c.setFld a hi lo v).fld a hi' lo' = c.fld a hi' lo' := by
  rw [Chip.fld, Chip.setFld_reg_same, bitsOf_putBits_other _ _ _ _ _ _ h' hd, Chip.fld]

/-- A field of another register stays. -/
theorem Chip.setFld_fld_other (c : Chip) {a b : Nat} (hi lo v hi' lo' : Nat) (h : b ≠ a) :
    (c.setFld a hi lo v).fld b hi' lo' = c.fld b hi' lo' := by rw [Chip.fld, Chip.setFld_reg_other c hi lo v h, Chip.fld]

/-! ### Registers that other updates leave alone -/

@[simp] theorem Chip.at_reg (c : Chip) (t : Stamp) (b : Nat) : (c.at t).reg b = c.reg b := rfl
@[simp] theorem Chip.send_reg (c : Chip) (m : TxMsg) (b : Nat) : (c.send m).reg b = c.reg b := rfl
@[simp] theorem Chip.sendAll_reg (c : Chip) (l : List TxMsg) (b : Nat) : (c.sendAll l).reg b = c.reg b := rfl
@[simp] theorem Chip.tbwWrite_reg (c : Chip) (o : Nat) (l : List Byte) (b : Nat) : (c.tbwWrite o l).reg b = c.reg b := rfl
@[simp] theorem Chip.tbwPut_reg (c : Chip) (o n v b : Nat) : (c.tbwPut o n v).reg b = c.reg b := rfl
@[simp] theorem Chip.dramWrite_reg (c : Chip) (a : Nat) (l : List Byte) (b : Nat) : (c.dramWrite a l).reg b = c.reg b := by
  simp [Chip.reg]
@[simp] theorem Chip.dramPut_reg (c : Chip) (a n v b : Nat) : (c.dramPut a n v).reg b = c.reg b := by simp [Chip.dramPut]

@[simp] theorem Chip.at_fld (c : Chip) (t : Stamp) (b hi lo : Nat) : (c.at t).fld b hi lo = c.fld b hi lo := rfl
@[simp] theorem Chip.at_bit (c : Chip) (t : Stamp) (b i : Nat) : (c.at t).bit b i = c.bit b i := rfl
@[simp] theorem Chip.send_fld (c : Chip) (m : TxMsg) (b hi lo : Nat) : (c.send m).fld b hi lo = c.fld b hi lo := rfl
@[simp] theorem Chip.send_bit (c : Chip) (m : TxMsg) (b i : Nat) : (c.send m).bit b i = c.bit b i := rfl
@[simp] theorem Chip.at_isSealed (c : Chip) (t : Stamp) : (c.at t).isSealed = c.isSealed := rfl

/-- The master counter stands at the command's stamp, unless it has counted past it. -/
@[simp] theorem Chip.at_clk (c : Chip) (t : Stamp) : (c.at t).clk = t := rfl

/-! ### Counters -/

theorem Chip.addFld_reg_other (c : Chip) {a b : Nat} (hi lo n : Nat) (h : b ≠ a) : (c.addFld a hi lo n).reg b = c.reg b :=
  Chip.setFld_reg_other c hi lo _ h

theorem Chip.bump_reg_other (c : Chip) {a b : Nat} (h : b ≠ a) : (c.bump a).reg b = c.reg b := Chip.setFld_reg_other c 31 0 _ h

theorem Chip.bumpBy_reg_other (c : Chip) {a b : Nat} (n : Nat) (h : b ≠ a) : (c.bumpBy a n).reg b = c.reg b :=
  Chip.setFld_reg_other c 31 0 _ h

/-- A 32-bit counter advances by `n` and saturates. -/
theorem Chip.bumpBy_reg_same (c : Chip) (a n : Nat) :
    ((c.bumpBy a n).reg a).toNat = min ((c.reg a).toNat + n) (2 ^ 32 - 1) := by
  have h : (c.bumpBy a n).reg a = BitVec.ofNat 32 (satAdd 32 (c.reg a).toNat n) := by
    simp [Chip.bumpBy, Chip.addFld, Chip.fld, putBits_full, bitsOf_full]
  rw [h, BitVec.toNat_ofNat, satAdd]
  omega

/-- A 32-bit counter advances by 1 and saturates. -/
theorem Chip.bump_reg_same (c : Chip) (a : Nat) : ((c.bump a).reg a).toNat = min ((c.reg a).toNat + 1) (2 ^ 32 - 1) :=
  Chip.bumpBy_reg_same c a 1

theorem Chip.publish_reg_other (c : Chip) {a b : Nat} (h : b ≠ a) : (c.publish a).reg b = c.reg b := by
  simp [Chip.publish, Chip.setFld_reg, h]

/-- R19: VALID is set. -/
theorem Chip.publish_valid (c : Chip) (a : Nat) : (c.publish a).bit a 31 = true := by
  rw [Chip.bit, Chip.publish, Chip.setFld_fld_disjoint _ _ _ _ _ _ _ (by omega) (by omega),
    Chip.setFld_fld_same _ _ _ _ _ (by omega)]
  rfl

/-- R19: SEQ advances modulo 2^16. -/
theorem Chip.publish_seq (c : Chip) (a : Nat) : (c.publish a).fld a 15 0 = (c.fld a 15 0 + 1) % 2 ^ 16 := by
  rw [Chip.publish, Chip.setFld_fld_same _ _ _ _ _ (by omega)]

/-! ### Events -/

/-- Raising an event writes no register but `EVJ_STAT` and the count of dropped events. -/
theorem Chip.raise_reg (c : Chip) (e : Ev) {b : Nat} (h1 : b ≠ R.evjStat) (h2 : b ≠ R.evjCnt 1) : (c.raise e).reg b = c.reg b := by
  unfold Chip.raise
  split
  · exact Chip.setFld_reg_other _ 10 0 _ h1
  · exact Chip.bump_reg_other _ h2

theorem Chip.event_reg (c : Chip) (code : Nat) (p : FaultAddr) (l : List CField) {b : Nat} (h1 : b ≠ R.evjStat)
    (h2 : b ≠ R.evjCnt 1) : (c.event code p l).reg b = c.reg b := Chip.raise_reg c _ h1 h2

/-- An event waits for the watch cores, where the queue has room (R448). -/
theorem Chip.raise_evq (c : Chip) (e : Ev) (h : c.evq.length < evqCap) : (c.raise e).evq = c.evq ++ [e] := by
  simp [Chip.raise, h]

theorem Chip.event_evq (c : Chip) (code : Nat) (p : FaultAddr) (l : List CField) (h : c.evq.length < evqCap) :
    (c.event code p l).evq = c.evq ++ [⟨code, p, c.clk, l⟩] := Chip.raise_evq c _ h

/-- A full queue takes no event. -/
theorem Chip.event_evq_full (c : Chip) (code : Nat) (p : FaultAddr) (l : List CField) (h : ¬ c.evq.length < evqCap) :
    (c.event code p l).evq = c.evq := by
  rw [Chip.event, Chip.raise, if_neg h]; rfl

theorem Chip.raiseLimitedBy_reg (c : Chip) (u : Nat) (e : Ev) (n : Nat) {b : Nat} (h1 : b ≠ R.evjStat) (h2 : b ≠ R.evjCnt 1) :
    (c.raiseLimitedBy u e n).reg b = c.reg b := by
  unfold Chip.raiseLimitedBy
  simp only []
  split <;> split
  all_goals first
    | exact Chip.raise_reg _ _ h1 h2
    | rfl

theorem Chip.eventLimited_reg (c : Chip) (u code : Nat) (p : FaultAddr) (l : List CField) {b : Nat} (h1 : b ≠ R.evjStat)
    (h2 : b ≠ R.evjCnt 1) : (c.eventLimited u code p l).reg b = c.reg b := Chip.raiseLimitedBy_reg c u _ 1 h1 h2

/-! ### Refused commands and dropped writes (R17, R433, R434) -/

/-- The registers that a refusal of a command at `a` may write. -/
def refuseReg (a b : Nat) : Prop :=
  b = R.pitRefcnt (windowOf a) ∨ b = R.pegRefuse ∨ b = R.pitRef ∨ b = R.pitRefAddr ∨ b = R.pitRefData ∨ b = R.pitRefStampLo ∨
    b = R.pitRefStampHi ∨ b = R.evjStat ∨ b = R.evjCnt 1

/-- A refused command changes no register but those that report it. -/
theorem Chip.refuse_reg (c : Chip) (src : Source) (a : Nat) (w : Word) (cause : Nat) {b : Nat} (h : ¬ refuseReg a b) :
    (c.refuse src a w cause).reg b = c.reg b := by
  simp only [refuseReg, not_or] at h
  obtain ⟨h1, h2, h3, h4, h5, h6, h7, h8, h9⟩ := h
  unfold Chip.refuse
  simp only []
  split <;> split
  all_goals simp [Chip.event_reg, Chip.setWide_reg_other, Chip.setReg_reg_other, Chip.setFld_reg_other, Chip.bump_reg_other, *]

/-- The registers that a dropped write may write. -/
def dropReg (b : Nat) : Prop := b = R.pitSwrCount ∨ b = R.pitSwr ∨ b = R.evjStat ∨ b = R.evjCnt 1

/-- A dropped write changes no register but those that report it. -/
theorem Chip.dropWrite_reg (c : Chip) (a : Nat) {b : Nat} (h : ¬ dropReg b) : (c.dropWrite a).reg b = c.reg b := by
  simp only [dropReg, not_or] at h
  obtain ⟨h1, h2, h3, h4⟩ := h
  unfold Chip.dropWrite
  simp only []
  split
  all_goals simp [Chip.eventLimited_reg, Chip.setFld_reg_other, Chip.bump_reg_other, *]

/-! ### DRAM and the table windows -/

/-- What a byte of DRAM reads after a write of bytes: the byte written there, as before elsewhere. -/
theorem Chip.dramWrite_byte (c : Chip) (a : Nat) (l : List Byte) (o : Nat) (h : c.inDram a l.length = true) :
    mapGet dramDefault (c.dramWrite a l).dram o =
      if a - dramBase ≤ o ∧ o < a - dramBase + l.length then l.getD (o - (a - dramBase)) 0 else mapGet dramDefault c.dram o := by
  simp [Chip.dramWrite, h, mapGet_memWrite]

/-- A write outside the usable DRAM changes nothing (R403). -/
theorem Chip.dramWrite_outside (c : Chip) (a : Nat) (l : List Byte) (h : c.inDram a l.length = false) : c.dramWrite a l = c := by
  simp [Chip.dramWrite, h]

/-- Every write to DRAM keeps the canonical form. -/
theorem Chip.dramWrite_wf (c : Chip) (a : Nat) (l : List Byte) (h : mapWf dramDefault c.dram) :
    mapWf dramDefault (c.dramWrite a l).dram := by
  unfold Chip.dramWrite
  split
  · exact mapWf_memWrite _ _ _ h
  · exact h

/-- Every write to the table windows keeps the canonical form. -/
theorem Chip.tbwWrite_wf (c : Chip) (o : Nat) (l : List Byte) (h : mapWf tbwDefault c.tbw) :
    mapWf tbwDefault (c.tbwWrite o l).tbw := mapWf_memWrite _ _ _ h

/-- Every write to a register keeps the canonical form. -/
theorem Chip.setReg_wf (c : Chip) (a : Nat) (w : Word) (h : mapWf resetWord c.regs) : mapWf resetWord (c.setReg a w).regs :=
  mapWf_mapPut _ _ h

/-- The memories of the reset state are in canonical form. -/
theorem reset_maps_wf : mapWf dramDefault State.reset.chip.dram ∧ mapWf tbwDefault State.reset.chip.tbw ∧
    mapWf resetWord State.reset.chip.regs := ⟨rfl, rfl, rfl⟩

end Sys2Proof.Machine
end

