-- ==== Sys2Proof/Laws/Frames.lean ====
section
/-! SUPPORT. How an answer is shown, and what each shared update writes: the calculus of `Chip.writesOnly` and `Chip.raises`. -/

namespace Sys2Proof.Machine

variable {c c1 : Chip} {l : List Nat}

/-- A well-formed command answers what its function of the part gives. -/
theorem answers_of {i : Instr} {s : State} {P : Chip → Prop} {ok : Bool} {f : Chip → Chip} (hi : exec i s = runIf ok f s)
    (hok : ok = true) (hP : P (f s.chip)) : Answers i s P :=
  ⟨{ s with chip := f s.chip }, by rw [hi, runIf_of _ _ _ hok], rfl, hP⟩

theorem gives_of {i : Instr} {s : State} {c : Chip} {ok : Bool} {f : Chip → Chip} (hi : exec i s = runIf ok f s)
    (hok : ok = true) (hc : f s.chip = c) : Gives i s c := by
  rw [Gives, hi, runIf_of _ _ _ hok, hc]

/-! ### Bits -/

/-- A bit reads back what was written to it. -/
theorem Chip.setFld_bit_same (c : Chip) (a b v : Nat) (h : b < 32) : (c.setFld a b b v).bit a b = (v % 2 == 1) := by
  rw [Chip.bit, Chip.setFld_fld_same _ _ _ _ _ h, show b + 1 - b = 1 by omega, Nat.pow_one]

/-- A bit outside the field written stays. -/
theorem Chip.setFld_bit_disjoint (c : Chip) (a hi lo v b : Nat) (h : b < 32) (hd : b < lo ∨ hi < b) :
    (c.setFld a hi lo v).bit a b = c.bit a b := by rw [Chip.bit, Chip.setFld_fld_disjoint _ _ _ _ _ _ _ h hd, Chip.bit]

/-- A bit of another register stays. -/
theorem Chip.setFld_bit_other (c : Chip) {a r : Nat} (hi lo v b : Nat) (h : r ≠ a) : (c.setFld a hi lo v).bit r b = c.bit r b := by
  rw [Chip.bit, Chip.setFld_fld_other _ _ _ _ _ _ h, Chip.bit]

theorem Chip.fld_of_reg {c c2 : Chip} {a : Nat} (h : c2.reg a = c.reg a) (hi lo : Nat) : c2.fld a hi lo = c.fld a hi lo := by
  rw [Chip.fld, h, Chip.fld]

theorem Chip.bit_of_reg {c c2 : Chip} {a : Nat} (h : c2.reg a = c.reg a) (b : Nat) : c2.bit a b = c.bit a b := by
  rw [Chip.bit, Chip.fld_of_reg h, Chip.bit]

/-! ### Which registers and bytes an update writes -/

theorem Chip.writesOnly.refl : c.writesOnly c l := ⟨fun _ _ => rfl, fun _ => rfl, fun _ => rfl⟩

theorem Chip.writesOnly.trans {c2 : Chip} (h1 : c.writesOnly c1 l) (h2 : c1.writesOnly c2 l) : c.writesOnly c2 l :=
  ⟨fun a ha => (h2.1 a ha).trans (h1.1 a ha), fun o => (h2.2.1 o).trans (h1.2.1 o), fun o => (h2.2.2 o).trans (h1.2.2 o)⟩

theorem Chip.writesOnly.mono {l2 : List Nat} (h : c.writesOnly c1 l) (hl : ∀ a ∈ l, a ∈ l2) : c.writesOnly c1 l2 :=
  ⟨fun a ha => h.1 a (fun hm => ha (hl a hm)), h.2⟩

/-- An update of hidden state alone. -/
theorem Chip.writesOnly.hidden {c2 : Chip} (h : c.writesOnly c1 l) (hr : c2.regs = c1.regs) (hd : c2.dram = c1.dram)
    (ht : c2.tbw = c1.tbw) : c.writesOnly c2 l :=
  h.trans ⟨fun a _ => by simp [Chip.reg, hr], fun _ => by rw [hd], fun _ => by rw [ht]⟩

/-- An update of hidden state alone, as a record. -/
theorem Chip.writesOnly.literal (h : c.writesOnly c1 l) {x_clk : Stamp} {x_latch : List (Nat × Word)} {x_evq : List
    Ev} {x_evDrop : Option (Nat × Nat × Nat)} {x_rate : List (Nat × RateWin)} {x_tx : List TxMsg} {x_mui : Muith}
    {x_taps : List (Nat × Tap)} {x_watch : Watch} {x_chk : List (Nat × ChkUnit)} {x_pnt : Points} {x_bol : Bolral}
    {x_twn : Twin} {x_slots : List (Nat × Slot)} {x_net : List (Nat × NetSlot)} {x_held : List HeldPacket} {x_aus :
    List AccessUnit} {x_shown : List (Nat × Option (Nat × Nat × Bool))} {x_partIndex : Nat} {x_curElem : List (Nat ×
    List Byte)} {x_curDesc : List (Nat × List Byte)} {x_curRegion : List (Nat × List Byte)} {x_prov : List (Nat × List
    (Nat × List Byte))} {x_elems : List (Nat × ElemState)} {x_heads : List (Nat × Head)} {x_roomNumber : Nat} {x_dec :
    List (Nat × DecCtx)} {x_enc : List (Nat × EncCtx)} {x_txs : List (Nat × TxStream)} {x_saving : List (Nat × Stamp)}
    {x_mem : Mem} {x_pruCur : List (Nat × Nat)} {x_violations : List Violation} {x_tagHeld : List (Nat × List Byte)}
    {x_trims : List (Nat × Word)} {x_cams : List (Nat × Cam)} {x_caps : List (Nat × Cap)} {x_tch : List (Nat ×
    TouchCh)} {x_d2dQueue : List D2dMsg} {x_d2dDown : List D2dMsg} {x_d2dLost : Nat} {x_touchIn : List TouchReport}
    {x_ports : List (Nat × DpPort)} {x_gpo : List (Nat × Nat)} {x_peg : PegEngine} {x_jrn : Journal} {x_age : Ageing}
    {x_pitch : Pitch} {x_mgt : Manage} :
    c.writesOnly ⟨x_clk, c1.regs, x_latch, c1.tbw, c1.dram, x_evq, x_evDrop, x_rate, x_tx, x_mui, x_taps, x_watch,
    x_chk, x_pnt, x_bol, x_twn, x_slots, x_net, x_held, x_aus, x_shown, x_partIndex, x_curElem, x_curDesc,
    x_curRegion, x_prov, x_elems, x_heads, x_roomNumber, x_dec, x_enc, x_txs, x_saving, x_mem, x_pruCur, x_violations,
    x_tagHeld, x_trims, x_cams, x_caps, x_tch, x_d2dQueue, x_d2dDown, x_d2dLost, x_touchIn, x_ports, x_gpo, x_peg,
    x_jrn, x_age, x_pitch, x_mgt⟩ l := h.hidden rfl rfl rfl

theorem Chip.writesOnly.at (h : c.writesOnly c1 l) (t : Stamp) : c.writesOnly (c1.at t) l := h.hidden rfl rfl rfl

theorem Chip.writesOnly.send (h : c.writesOnly c1 l) (m : TxMsg) : c.writesOnly (c1.send m) l := h.hidden rfl rfl rfl

theorem Chip.writesOnly.sendAll (h : c.writesOnly c1 l) (m : List TxMsg) : c.writesOnly (c1.sendAll m) l := h.hidden rfl rfl rfl

theorem Chip.writesOnly.setReg (h : c.writesOnly c1 l) {a : Nat} (ha : a ∈ l) (w : Word) : c.writesOnly (c1.setReg a w) l :=
  h.trans ⟨fun _ hb => Chip.setReg_reg_other _ _ (fun e => hb (e ▸ ha)), fun _ => rfl, fun _ => rfl⟩

theorem Chip.writesOnly.setFld (h : c.writesOnly c1 l) {a : Nat} (ha : a ∈ l) (hi lo v : Nat) :
    c.writesOnly (c1.setFld a hi lo v) l := h.setReg ha _

theorem Chip.writesOnly.setNat (h : c.writesOnly c1 l) {a : Nat} (ha : a ∈ l) (v : Nat) : c.writesOnly (c1.setNat a v) l :=
  h.setReg ha _

theorem Chip.writesOnly.setWide (h : c.writesOnly c1 l) {lo hi : Nat} (h1 : lo ∈ l) (h2 : hi ∈ l) (v : Nat) :
    c.writesOnly (c1.setWide lo hi v) l := (h.setNat h1 _).setNat h2 _

theorem Chip.writesOnly.addFld (h : c.writesOnly c1 l) {a : Nat} (ha : a ∈ l) (hi lo n : Nat) :
    c.writesOnly (c1.addFld a hi lo n) l := h.setReg ha _

theorem Chip.writesOnly.bump (h : c.writesOnly c1 l) {a : Nat} (ha : a ∈ l) : c.writesOnly (c1.bump a) l := h.setReg ha _

theorem Chip.writesOnly.bumpBy (h : c.writesOnly c1 l) {a : Nat} (ha : a ∈ l) (n : Nat) : c.writesOnly (c1.bumpBy a n) l :=
  h.setReg ha _

theorem Chip.writesOnly.publish (h : c.writesOnly c1 l) {a : Nat} (ha : a ∈ l) : c.writesOnly (c1.publish a) l :=
  (h.setFld ha 31 31 1).setFld ha 15 0 _

theorem Chip.writesOnly.syncBacklog (h : c.writesOnly c1 l) (ha : R.evjStat ∈ l) : c.writesOnly c1.syncBacklog l := h.setReg ha _

theorem Chip.writesOnly.dropEvent (h : c.writesOnly c1 l) (ha : R.evjCnt 1 ∈ l) (code : Nat) : c.writesOnly (c1.dropEvent code) l :=
  (h.bump ha).hidden rfl rfl rfl

theorem Chip.writesOnly.raise (h : c.writesOnly c1 l) (he : ∀ a ∈ eventRegs, a ∈ l) (e : Ev) : c.writesOnly (c1.raise e) l := by
  unfold Chip.raise
  split
  · exact (h.hidden rfl rfl rfl).setFld (he _ (by simp [eventRegs])) _ _ _
  · exact (h.bump (he _ (by simp [eventRegs]))).hidden rfl rfl rfl

theorem Chip.writesOnly.event (h : c.writesOnly c1 l) (he : ∀ a ∈ eventRegs, a ∈ l) (code : Nat) (p : FaultAddr) (f : List CField) :
    c.writesOnly (c1.event code p f) l := h.raise he _

theorem Chip.writesOnly.raiseLimitedBy (h : c.writesOnly c1 l) (he : ∀ a ∈ eventRegs, a ∈ l) (u n : Nat) (e : Ev) :
    c.writesOnly (c1.raiseLimitedBy u e n) l := by
  unfold Chip.raiseLimitedBy
  simp only []
  split <;> split
  all_goals first
    | (refine Chip.writesOnly.raise ?_ he _; exact h.hidden rfl rfl rfl)
    | exact h.hidden rfl rfl rfl

theorem Chip.writesOnly.eventLimited (h : c.writesOnly c1 l) (he : ∀ a ∈ eventRegs, a ∈ l) (u code : Nat) (p : FaultAddr)
    (f : List CField) : c.writesOnly (c1.eventLimited u code p f) l := h.raiseLimitedBy he _ _ _

theorem Chip.writesOnly.eventLimitedLast (h : c.writesOnly c1 l) (he : ∀ a ∈ eventRegs, a ∈ l) (u code : Nat) (p : FaultAddr)
    (f : List CField) : c.writesOnly (c1.eventLimitedLast u code p f) l := (h.eventLimited he u code p f).hidden rfl rfl rfl

theorem Chip.writesOnly.dropWrite (h : c.writesOnly c1 l) (hd : ∀ a ∈ dropRegs, a ∈ l) (b : Nat) :
    c.writesOnly (c1.dropWrite b) l := by
  have h1 : R.pitSwr ∈ l := hd _ (by simp [dropRegs])
  have h2 : R.pitSwrCount ∈ l := hd _ (by simp [dropRegs])
  have h3 : ∀ a ∈ eventRegs, a ∈ l := fun a ha => hd a (by simp [dropRegs, ha])
  unfold Chip.dropWrite
  simp only []
  split
  · exact (h.bump h2).eventLimited h3 _ _ _ _
  · exact (((h.bump h2).setFld h1 _ _ _).setFld h1 _ _ _).eventLimited h3 _ _ _ _

theorem Chip.writesOnly.refuse (h : c.writesOnly c1 l) {a : Nat} (hr : ∀ b ∈ refusalRegs a, b ∈ l) (src : Source) (w : Word)
    (cause : Nat) : c.writesOnly (c1.refuse src a w cause) l := by
  have m : ∀ b, b ∈ refusalRegs a → b ∈ l := hr
  have h1 : R.pitRefcnt (windowOf a) ∈ l := m _ (by simp [refusalRegs])
  have h2 : R.pegRefuse ∈ l := m _ (by simp [refusalRegs])
  have h3 : R.pitRef ∈ l := m _ (by simp [refusalRegs])
  have h4 : R.pitRefAddr ∈ l := m _ (by simp [refusalRegs])
  have h5 : R.pitRefData ∈ l := m _ (by simp [refusalRegs])
  have h6 : R.pitRefStampLo ∈ l := m _ (by simp [refusalRegs])
  have h7 : R.pitRefStampHi ∈ l := m _ (by simp [refusalRegs])
  have h8 : ∀ a ∈ eventRegs, a ∈ l := fun b hb => m b (by simp [refusalRegs, hb])
  unfold Chip.refuse
  simp only []
  split <;> split
  · exact (h.bump h1).bump h2
  · exact ((((((((h.bump h1).bump h2).setFld h3 _ _ _).setFld h3 _ _ _).setFld h3 _ _ _).setFld h4 _ _ _).setReg h5 _).setWide h6 h7 _).event h8 _ _ _
  · exact h.bump h1
  · exact (((((((h.bump h1).setFld h3 _ _ _).setFld h3 _ _ _).setFld h3 _ _ _).setFld h4 _ _ _).setReg h5 _).setWide h6 h7 _).event h8 _ _ _

/-- A fold over 0, 1, …, `n` − 1 whose every step writes registers of the list alone. -/
theorem Chip.writesOnly.forN (h : c.writesOnly c1 l) (n : Nat) (f : Nat → Chip → Chip)
    (hf : ∀ i c2, i < n → c.writesOnly c2 l → c.writesOnly (f i c2) l) : c.writesOnly (forN n f c1) l := by
  unfold Machine.forN
  have : ∀ (r : List Nat) (c2 : Chip), (∀ i ∈ r, i < n) → c.writesOnly c2 l → c.writesOnly (r.foldl (fun a i => f i a) c2) l := by
    intro r
    induction r with
    | nil => intro _ _ h2; exact h2
    | cons x r ih =>
      intro c2 hr h2
      exact ih _ (fun i hi => hr i (List.mem_cons_of_mem _ hi)) (hf x c2 (hr x List.mem_cons_self) h2)
  exact this _ _ (fun i hi => List.mem_range.mp hi) h

/-- A fold over a list whose every step writes registers of the list alone. -/
theorem Chip.writesOnly.forL {β : Type} (h : c.writesOnly c1 l) (r : List β) (f : β → Chip → Chip)
    (hf : ∀ i ∈ r, ∀ c2, c.writesOnly c2 l → c.writesOnly (f i c2) l) : c.writesOnly (forL r f c1) l := by
  unfold Machine.forL
  induction r generalizing c1 with
  | nil => exact h
  | cons x r ih =>
    exact ih (hf x List.mem_cons_self c1 h) (fun i hi => hf i (List.mem_cons_of_mem _ hi))

/-! ### Which events an update raises -/

theorem Chip.raises.refl : c.raises c [] := by simp [Chip.raises]

theorem Chip.raises.same {c2 : Chip} {r : List Ev} (h : c.raises c1 r) (hq : c2.evq = c1.evq) : c.raises c2 r := by
  rw [Chip.raises, hq]; exact h

/-- An event enters the queue where there is room. -/
theorem Chip.raises.event {r : List Ev} (h : c.raises c1 r) (code : Nat) (p : FaultAddr) (f : List CField) :
    c.raises (c1.event code p f) (r ++ [⟨code, p, c1.clk, f⟩]) := by
  rw [Chip.raises] at h ⊢
  have hl : c1.evq.length = c.evq.length + min (evqCap - c.evq.length) r.length := by rw [h]; simp
  by_cases hr : c1.evq.length < evqCap
  · rw [Chip.event_evq _ _ _ _ hr, h, List.append_assoc, List.take_append (l₁ := r)]
    rw [List.take_of_length_le (l := [_]) (by simp; omega)]
  · rw [Chip.event_evq_full _ _ _ _ hr, h, List.take_append, show evqCap - c.evq.length - r.length = 0 by omega]
    simp

end Sys2Proof.Machine
end

