-- ==== Sys2Proof/Laws/PerInstr.lean ====
section
/-! SUPPORT. What holds of every command as syntax, one lemma per constructor. -/

/-- A command at another stamp has that stamp and is as well formed as before: which parts of the hardware a command names
does not depend on when it happens. -/
def Sys2Proof.Laws.WellTimed.Statement (i : Sys2Proof.Instr) : Prop :=
  ∀ u : Sys2Proof.Stamp, (i.withTime u).time = u ∧ (i.withTime u).wellFormed = i.wellFormed

open Sys2Proof

theorem Sys2Proof.Laws.WellTimed.writeRegister (t : Stamp) (src : Source) (hart : Nat) (addr : Nat) (data : List Byte) : Laws.WellTimed.Statement (.writeRegister t src hart addr data) := fun _ => ⟨rfl, rfl⟩
theorem Sys2Proof.Laws.WellTimed.snap (t : Stamp) (src : Source) (addr : Nat) : Laws.WellTimed.Statement (.snap t src addr) := fun _ => ⟨rfl, rfl⟩
theorem Sys2Proof.Laws.WellTimed.clearRefusalRecord (t : Stamp) : Laws.WellTimed.Statement (.clearRefusalRecord t) := fun _ => ⟨rfl, rfl⟩
theorem Sys2Proof.Laws.WellTimed.clearDroppedWriteRecord (t : Stamp) : Laws.WellTimed.Statement (.clearDroppedWriteRecord t) := fun _ => ⟨rfl, rfl⟩
theorem Sys2Proof.Laws.WellTimed.clearViolationRecord (t : Stamp) (u : Nat) : Laws.WellTimed.Statement (.clearViolationRecord t u) := fun _ => ⟨rfl, rfl⟩
theorem Sys2Proof.Laws.WellTimed.acknowledge (t : Stamp) (seq : Nat) : Laws.WellTimed.Statement (.acknowledge t seq) := fun _ => ⟨rfl, rfl⟩
theorem Sys2Proof.Laws.WellTimed.powerOnHoldEnd (t : Stamp) (side : Nat) (rails : List (Nat × Nat)) : Laws.WellTimed.Statement (.powerOnHoldEnd t side rails) := fun _ => ⟨rfl, rfl⟩
theorem Sys2Proof.Laws.WellTimed.resetNLow (t : Stamp) : Laws.WellTimed.Statement (.resetNLow t) := fun _ => ⟨rfl, rfl⟩
theorem Sys2Proof.Laws.WellTimed.resetNRelease (t : Stamp) (side : Nat) : Laws.WellTimed.Statement (.resetNRelease t side) := fun _ => ⟨rfl, rfl⟩
theorem Sys2Proof.Laws.WellTimed.bootRomStart (t : Stamp) (link : Bool) (fuses : Fuses) (slotA : FlashImage) (slotB : FlashImage) : Laws.WellTimed.Statement (.bootRomStart t link fuses slotA slotB) := fun _ => ⟨rfl, rfl⟩
theorem Sys2Proof.Laws.WellTimed.baseFirmwareStart (t : Stamp) (checked : Stamp) (slotB : FlashImage) : Laws.WellTimed.Statement (.baseFirmwareStart t checked slotB) := fun _ => ⟨rfl, rfl⟩
theorem Sys2Proof.Laws.WellTimed.trainDone (t : Stamp) (bad : List (Nat × Nat)) (trims : List (Nat × Nat × Word)) (loaded : Stamp) : Laws.WellTimed.Statement (.trainDone t bad trims loaded) := fun _ => ⟨rfl, rfl⟩
theorem Sys2Proof.Laws.WellTimed.timeSet (t : Stamp) : Laws.WellTimed.Statement (.timeSet t) := fun _ => ⟨rfl, rfl⟩
theorem Sys2Proof.Laws.WellTimed.masterCounterReload (t : Stamp) : Laws.WellTimed.Statement (.masterCounterReload t) := fun _ => ⟨rfl, rfl⟩
theorem Sys2Proof.Laws.WellTimed.headsStart (t : Stamp) (harts : List Nat) : Laws.WellTimed.Statement (.headsStart t harts) := fun _ => ⟨rfl, rfl⟩
theorem Sys2Proof.Laws.WellTimed.caminitDone (t : Stamp) (p : Nat) (done : Nat) (refused : Bool) : Laws.WellTimed.Statement (.caminitDone t p done refused) := fun _ => ⟨rfl, rfl⟩
theorem Sys2Proof.Laws.WellTimed.sealPart (t : Stamp) : Laws.WellTimed.Statement (.sealPart t) := fun _ => ⟨rfl, rfl⟩
theorem Sys2Proof.Laws.WellTimed.d2dLinkDown (t : Stamp) : Laws.WellTimed.Statement (.d2dLinkDown t) := fun _ => ⟨rfl, rfl⟩
theorem Sys2Proof.Laws.WellTimed.d2dLinkRetrained (t : Stamp) : Laws.WellTimed.Statement (.d2dLinkRetrained t) := fun _ => ⟨rfl, rfl⟩
theorem Sys2Proof.Laws.WellTimed.d2dFlitReplay (t : Stamp) : Laws.WellTimed.Statement (.d2dFlitReplay t) := fun _ => ⟨rfl, rfl⟩
theorem Sys2Proof.Laws.WellTimed.timeBusFullStamp (t : Stamp) (taps : List (Nat × Int × Nat)) : Laws.WellTimed.Statement (.timeBusFullStamp t taps) := fun _ => ⟨rfl, rfl⟩
theorem Sys2Proof.Laws.WellTimed.watchTapTimeout (t : Stamp) (diff : Int) : Laws.WellTimed.Statement (.watchTapTimeout t diff) := fun _ => ⟨rfl, rfl⟩
theorem Sys2Proof.Laws.WellTimed.headFrameStart (t : Stamp) (h : Nat) (drift : Int) (bad : List Nat) : Laws.WellTimed.Statement (.headFrameStart t h drift bad) := fun _ => ⟨rfl, rfl⟩
theorem Sys2Proof.Laws.WellTimed.elementStateMiss (t : Stamp) (h : Nat) (e : Nat) : Laws.WellTimed.Statement (.elementStateMiss t h e) := fun _ => ⟨rfl, rfl⟩
theorem Sys2Proof.Laws.WellTimed.headLineStart (t : Stamp) (h : Nat) (n : Nat) : Laws.WellTimed.Statement (.headLineStart t h n) := fun _ => ⟨rfl, rfl⟩
theorem Sys2Proof.Laws.WellTimed.tileFetchComplete (t : Stamp) (h : Nat) (tx : Nat) (ty : Nat) (e : Option Nat) (fault : Bool) : Laws.WellTimed.Statement (.tileFetchComplete t h tx ty e fault) := fun _ => ⟨rfl, rfl⟩
theorem Sys2Proof.Laws.WellTimed.headFrameDone (t : Stamp) (h : Nat) (dsc : List Byte) (wb : Nat) : Laws.WellTimed.Statement (.headFrameDone t h dsc wb) := fun _ => ⟨rfl, rfl⟩
theorem Sys2Proof.Laws.WellTimed.headEnableWrite (t : Stamp) (h : Nat) (data : Word) : Laws.WellTimed.Statement (.headEnableWrite t h data) := fun _ => ⟨rfl, rfl⟩
theorem Sys2Proof.Laws.WellTimed.frameBegin (t : Stamp) (n : Nat) (key : Nat) : Laws.WellTimed.Statement (.frameBegin t n key) := fun _ => ⟨rfl, rfl⟩
theorem Sys2Proof.Laws.WellTimed.frameFinish (t : Stamp) (n : Nat) (i : Nat) (code : Nat) (cause : Nat) (arrival : Stamp) (sup : Option Stamp) (missing : Nat) (content : List (Nat × List Byte)) : Laws.WellTimed.Statement (.frameFinish t n i code cause arrival sup missing content) := fun _ => ⟨rfl, rfl⟩
theorem Sys2Proof.Laws.WellTimed.refEvaluation (t : Stamp) (obs : List RefObs) : Laws.WellTimed.Statement (.refEvaluation t obs) := fun _ => ⟨rfl, rfl⟩
theorem Sys2Proof.Laws.WellTimed.qualificationComplete (t : Stamp) (k : Nat) : Laws.WellTimed.Statement (.qualificationComplete t k) := fun _ => ⟨rfl, rfl⟩
theorem Sys2Proof.Laws.WellTimed.wtrExpire (t : Stamp) (k : Nat) : Laws.WellTimed.Statement (.wtrExpire t k) := fun _ => ⟨rfl, rfl⟩
theorem Sys2Proof.Laws.WellTimed.lockTimeElapsed (t : Stamp) : Laws.WellTimed.Statement (.lockTimeElapsed t) := fun _ => ⟨rfl, rfl⟩
theorem Sys2Proof.Laws.WellTimed.dwellEnd (t : Stamp) : Laws.WellTimed.Statement (.dwellEnd t) := fun _ => ⟨rfl, rfl⟩
theorem Sys2Proof.Laws.WellTimed.holdoverSecond (t : Stamp) : Laws.WellTimed.Statement (.holdoverSecond t) := fun _ => ⟨rfl, rfl⟩
theorem Sys2Proof.Laws.WellTimed.serdesLoopLockLoss (t : Stamp) (err : Int) : Laws.WellTimed.Statement (.serdesLoopLockLoss t err) := fun _ => ⟨rfl, rfl⟩
theorem Sys2Proof.Laws.WellTimed.force (t : Stamp) (src : Source) (entry : Nat) : Laws.WellTimed.Statement (.force t src entry) := fun _ => ⟨rfl, rfl⟩
theorem Sys2Proof.Laws.WellTimed.release (t : Stamp) (src : Source) (entry : Nat) : Laws.WellTimed.Statement (.release t src entry) := fun _ => ⟨rfl, rfl⟩
theorem Sys2Proof.Laws.WellTimed.skipWtr (t : Stamp) (src : Source) (entry : Nat) : Laws.WellTimed.Statement (.skipWtr t src entry) := fun _ => ⟨rfl, rfl⟩
theorem Sys2Proof.Laws.WellTimed.ppsEdge (t : Stamp) (k : Nat) (edge : Nat) : Laws.WellTimed.Statement (.ppsEdge t k edge) := fun _ => ⟨rfl, rfl⟩
theorem Sys2Proof.Laws.WellTimed.ppsTimeout (t : Stamp) (k : Nat) : Laws.WellTimed.Statement (.ppsTimeout t k) := fun _ => ⟨rfl, rfl⟩
theorem Sys2Proof.Laws.WellTimed.activityGap (t : Stamp) (k : Nat) : Laws.WellTimed.Statement (.activityGap t k) := fun _ => ⟨rfl, rfl⟩
theorem Sys2Proof.Laws.WellTimed.gnssSentence (t : Stamp) (utcSeconds : Nat) (valid : Bool) : Laws.WellTimed.Statement (.gnssSentence t utcSeconds valid) := fun _ => ⟨rfl, rfl⟩
theorem Sys2Proof.Laws.WellTimed.ptpMessageReceive (t : Stamp) (p : Nat) (m : PtpFrame) : Laws.WellTimed.Statement (.ptpMessageReceive t p m) := fun _ => ⟨rfl, rfl⟩
theorem Sys2Proof.Laws.WellTimed.announceTimeout (t : Stamp) (p : Nat) : Laws.WellTimed.Statement (.announceTimeout t p) := fun _ => ⟨rfl, rfl⟩
theorem Sys2Proof.Laws.WellTimed.submit (t : Stamp) (src : Source) (sg : Nat) : Laws.WellTimed.Statement (.submit t src sg) := fun _ => ⟨rfl, rfl⟩
theorem Sys2Proof.Laws.WellTimed.groupCheckDone (t : Stamp) : Laws.WellTimed.Statement (.groupCheckDone t) := fun _ => ⟨rfl, rfl⟩
theorem Sys2Proof.Laws.WellTimed.pegCancel (t : Stamp) (src : Source) (sg : Nat) (group : Nat) : Laws.WellTimed.Statement (.pegCancel t src sg group) := fun _ => ⟨rfl, rfl⟩
theorem Sys2Proof.Laws.WellTimed.pegArm (t : Stamp) (i : Nat) : Laws.WellTimed.Statement (.pegArm t i) := fun _ => ⟨rfl, rfl⟩
theorem Sys2Proof.Laws.WellTimed.pegImmediateFire (t : Stamp) (q : Nat) (block : Nat) : Laws.WellTimed.Statement (.pegImmediateFire t q block) := fun _ => ⟨rfl, rfl⟩
theorem Sys2Proof.Laws.WellTimed.pegExpire (t : Stamp) (i : Nat) : Laws.WellTimed.Statement (.pegExpire t i) := fun _ => ⟨rfl, rfl⟩
theorem Sys2Proof.Laws.WellTimed.ethFrameReceive (t : Stamp) (fr : EthFrame) : Laws.WellTimed.Statement (.ethFrameReceive t fr) := fun _ => ⟨rfl, rfl⟩
theorem Sys2Proof.Laws.WellTimed.heldPacketExpire (t : Stamp) : Laws.WellTimed.Statement (.heldPacketExpire t) := fun _ => ⟨rfl, rfl⟩
theorem Sys2Proof.Laws.WellTimed.senderAgeOut (t : Stamp) (n : Nat) : Laws.WellTimed.Statement (.senderAgeOut t n) := fun _ => ⟨rfl, rfl⟩
theorem Sys2Proof.Laws.WellTimed.frameSkewTimeout (t : Stamp) (n : Nat) (ts : Nat) : Laws.WellTimed.Statement (.frameSkewTimeout t n ts) := fun _ => ⟨rfl, rfl⟩
theorem Sys2Proof.Laws.WellTimed.framePacketTimeout (t : Stamp) (n : Nat) (ts : Nat) : Laws.WellTimed.Statement (.framePacketTimeout t n ts) := fun _ => ⟨rfl, rfl⟩
theorem Sys2Proof.Laws.WellTimed.legSilenceTimeout (t : Stamp) (n : Nat) (leg : Nat) : Laws.WellTimed.Statement (.legSilenceTimeout t n leg) := fun _ => ⟨rfl, rfl⟩
theorem Sys2Proof.Laws.WellTimed.senderReportLapse (t : Stamp) (n : Nat) : Laws.WellTimed.Statement (.senderReportLapse t n) := fun _ => ⟨rfl, rfl⟩
theorem Sys2Proof.Laws.WellTimed.subportLinkChange (t : Stamp) (p : Nat) (sub : Nat) (up : Bool) : Laws.WellTimed.Statement (.subportLinkChange t p sub up) := fun _ => ⟨rfl, rfl⟩
theorem Sys2Proof.Laws.WellTimed.packetRelease (t : Stamp) (st : Nat) : Laws.WellTimed.Statement (.packetRelease t st) := fun _ => ⟨rfl, rfl⟩
theorem Sys2Proof.Laws.WellTimed.claimHeartbeatSend (t : Stamp) : Laws.WellTimed.Statement (.claimHeartbeatSend t) := fun _ => ⟨rfl, rfl⟩
theorem Sys2Proof.Laws.WellTimed.senderReportSend (t : Stamp) : Laws.WellTimed.Statement (.senderReportSend t) := fun _ => ⟨rfl, rfl⟩
theorem Sys2Proof.Laws.WellTimed.pictureJobBuild (t : Stamp) (ctx : Nat) (p : ParsedPicture) : Laws.WellTimed.Statement (.pictureJobBuild t ctx p) := fun _ => ⟨rfl, rfl⟩
theorem Sys2Proof.Laws.WellTimed.engineJobStart (t : Stamp) (encode : Bool) (e : Nat) : Laws.WellTimed.Statement (.engineJobStart t encode e) := fun _ => ⟨rfl, rfl⟩
theorem Sys2Proof.Laws.WellTimed.engineJobEnd (t : Stamp) (encode : Bool) (e : Nat) (r : JobResult) : Laws.WellTimed.Statement (.engineJobEnd t encode e r) := fun _ => ⟨rfl, rfl⟩
theorem Sys2Proof.Laws.WellTimed.bucketTake (t : Stamp) (ctx : Nat) (twinRuns : Bool) : Laws.WellTimed.Statement (.bucketTake t ctx twinRuns) := fun _ => ⟨rfl, rfl⟩
theorem Sys2Proof.Laws.WellTimed.arm (t : Stamp) (src : Source) (ctx : Nat) : Laws.WellTimed.Statement (.arm t src ctx) := fun _ => ⟨rfl, rfl⟩
theorem Sys2Proof.Laws.WellTimed.cameraFrameStart (t : Stamp) (p : Nat) (vc : Nat) : Laws.WellTimed.Statement (.cameraFrameStart t p vc) := fun _ => ⟨rfl, rfl⟩
theorem Sys2Proof.Laws.WellTimed.cciWritesDone (t : Stamp) (p : Nat) (done : Nat) (refused : Bool) : Laws.WellTimed.Statement (.cciWritesDone t p done refused) := fun _ => ⟨rfl, rfl⟩
theorem Sys2Proof.Laws.WellTimed.cciWindowExpire (t : Stamp) (p : Nat) (done : Nat) : Laws.WellTimed.Statement (.cciWindowExpire t p done) := fun _ => ⟨rfl, rfl⟩
theorem Sys2Proof.Laws.WellTimed.embeddedDataReceive (t : Stamp) (p : Nat) (vc : Nat) (data : List Byte) (headerOk : Bool) (crcOk : Bool) : Laws.WellTimed.Statement (.embeddedDataReceive t p vc data headerOk crcOk) := fun _ => ⟨rfl, rfl⟩
theorem Sys2Proof.Laws.WellTimed.csiLineReceive (t : Stamp) (p : Nat) (l : CsiLine) : Laws.WellTimed.Statement (.csiLineReceive t p l) := fun _ => ⟨rfl, rfl⟩
theorem Sys2Proof.Laws.WellTimed.cameraFrameEnd (t : Stamp) (p : Nat) (vc : Nat) : Laws.WellTimed.Statement (.cameraFrameEnd t p vc) := fun _ => ⟨rfl, rfl⟩
theorem Sys2Proof.Laws.WellTimed.cameraFrameTimeout (t : Stamp) (p : Nat) : Laws.WellTimed.Statement (.cameraFrameTimeout t p) := fun _ => ⟨rfl, rfl⟩
theorem Sys2Proof.Laws.WellTimed.cameraOutputFinish (t : Stamp) (p : Nat) (o : Nat) : Laws.WellTimed.Statement (.cameraOutputFinish t p o) := fun _ => ⟨rfl, rfl⟩
theorem Sys2Proof.Laws.WellTimed.cameraSilenceTimeout (t : Stamp) (p : Nat) : Laws.WellTimed.Statement (.cameraSilenceTimeout t p) := fun _ => ⟨rfl, rfl⟩
theorem Sys2Proof.Laws.WellTimed.fsyncPulse (t : Stamp) (p : Nat) : Laws.WellTimed.Statement (.fsyncPulse t p) := fun _ => ⟨rfl, rfl⟩
theorem Sys2Proof.Laws.WellTimed.captureFrameBegin (t : Stamp) (q : Nat) (w : Nat) (h : Nat) (enc : Nat) (bpc10 : Bool) : Laws.WellTimed.Statement (.captureFrameBegin t q w h enc bpc10) := fun _ => ⟨rfl, rfl⟩
theorem Sys2Proof.Laws.WellTimed.captureFrameEnd (t : Stamp) (q : Nat) : Laws.WellTimed.Statement (.captureFrameEnd t q) := fun _ => ⟨rfl, rfl⟩
theorem Sys2Proof.Laws.WellTimed.captureLinkChange (t : Stamp) (q : Nat) (trained : Bool) (rate : Nat) (lanes : Nat) (video : Bool) : Laws.WellTimed.Statement (.captureLinkChange t q trained rate lanes video) := fun _ => ⟨rfl, rfl⟩
theorem Sys2Proof.Laws.WellTimed.captureAuxRequest (t : Stamp) (q : Nat) (r : AuxRequest) : Laws.WellTimed.Statement (.captureAuxRequest t q r) := fun _ => ⟨rfl, rfl⟩
theorem Sys2Proof.Laws.WellTimed.pointFrameProcess (t : Stamp) (bad : List Nat) : Laws.WellTimed.Statement (.pointFrameProcess t bad) := fun _ => ⟨rfl, rfl⟩
theorem Sys2Proof.Laws.WellTimed.feederResyncTimeout (t : Stamp) (f : Nat) : Laws.WellTimed.Statement (.feederResyncTimeout t f) := fun _ => ⟨rfl, rfl⟩
theorem Sys2Proof.Laws.WellTimed.sweepStart (t : Stamp) : Laws.WellTimed.Statement (.sweepStart t) := fun _ => ⟨rfl, rfl⟩
theorem Sys2Proof.Laws.WellTimed.sweepEnd (t : Stamp) : Laws.WellTimed.Statement (.sweepEnd t) := fun _ => ⟨rfl, rfl⟩
theorem Sys2Proof.Laws.WellTimed.start (t : Stamp) (src : Source) (u : Nat) : Laws.WellTimed.Statement (.start t src u) := fun _ => ⟨rfl, rfl⟩
theorem Sys2Proof.Laws.WellTimed.finish (t : Stamp) (src : Source) (u : Nat) : Laws.WellTimed.Statement (.finish t src u) := fun _ => ⟨rfl, rfl⟩
theorem Sys2Proof.Laws.WellTimed.resetAlive (t : Stamp) (src : Source) (u : Nat) : Laws.WellTimed.Statement (.resetAlive t src u) := fun _ => ⟨rfl, rfl⟩
theorem Sys2Proof.Laws.WellTimed.feedByte (t : Stamp) (src : Source) (u : Nat) (data : Word) : Laws.WellTimed.Statement (.feedByte t src u data) := fun _ => ⟨rfl, rfl⟩
theorem Sys2Proof.Laws.WellTimed.feedHalfWord (t : Stamp) (src : Source) (u : Nat) (data : Word) : Laws.WellTimed.Statement (.feedHalfWord t src u data) := fun _ => ⟨rfl, rfl⟩
theorem Sys2Proof.Laws.WellTimed.feedWord (t : Stamp) (src : Source) (u : Nat) (data : Word) : Laws.WellTimed.Statement (.feedWord t src u data) := fun _ => ⟨rfl, rfl⟩
theorem Sys2Proof.Laws.WellTimed.chkCfgWrite (t : Stamp) (src : Source) (u : Nat) (data : Word) : Laws.WellTimed.Statement (.chkCfgWrite t src u data) := fun _ => ⟨rfl, rfl⟩
theorem Sys2Proof.Laws.WellTimed.glyphMiss (t : Stamp) (h : Nat) (e : Nat) : Laws.WellTimed.Statement (.glyphMiss t h e) := fun _ => ⟨rfl, rfl⟩
theorem Sys2Proof.Laws.WellTimed.commitRequest (t : Stamp) (src : Source) (h : Nat) : Laws.WellTimed.Statement (.commitRequest t src h) := fun _ => ⟨rfl, rfl⟩
theorem Sys2Proof.Laws.WellTimed.commitCancel (t : Stamp) (src : Source) (h : Nat) : Laws.WellTimed.Statement (.commitCancel t src h) := fun _ => ⟨rfl, rfl⟩
theorem Sys2Proof.Laws.WellTimed.hpdHighDebounce (t : Stamp) (p : Nat) (rate : Nat) (lanes : Nat) (edid : List (Nat × List Byte)) : Laws.WellTimed.Statement (.hpdHighDebounce t p rate lanes edid) := fun _ => ⟨rfl, rfl⟩
theorem Sys2Proof.Laws.WellTimed.dpTrainingDone (t : Stamp) (p : Nat) (good : List (Nat × Nat)) (denied : List Nat) : Laws.WellTimed.Statement (.dpTrainingDone t p good denied) := fun _ => ⟨rfl, rfl⟩
theorem Sys2Proof.Laws.WellTimed.irqHpd (t : Stamp) (p : Nat) (lost : Bool) (mst : Option Topology) : Laws.WellTimed.Statement (.irqHpd t p lost mst) := fun _ => ⟨rfl, rfl⟩
theorem Sys2Proof.Laws.WellTimed.hpdLowTimeout (t : Stamp) (p : Nat) : Laws.WellTimed.Statement (.hpdLowTimeout t p) := fun _ => ⟨rfl, rfl⟩
theorem Sys2Proof.Laws.WellTimed.dpRetryTimeout (t : Stamp) (p : Nat) : Laws.WellTimed.Statement (.dpRetryTimeout t p) := fun _ => ⟨rfl, rfl⟩
theorem Sys2Proof.Laws.WellTimed.retrain (t : Stamp) (src : Source) (p : Nat) : Laws.WellTimed.Statement (.retrain t src p) := fun _ => ⟨rfl, rfl⟩
theorem Sys2Proof.Laws.WellTimed.scanFrameStart (t : Stamp) (h : Nat) : Laws.WellTimed.Statement (.scanFrameStart t h) := fun _ => ⟨rfl, rfl⟩
theorem Sys2Proof.Laws.WellTimed.scanFrameEnd (t : Stamp) (h : Nat) (d : ScanData) : Laws.WellTimed.Statement (.scanFrameEnd t h d) := fun _ => ⟨rfl, rfl⟩
theorem Sys2Proof.Laws.WellTimed.frequencyHop (t : Stamp) (h : Nat) : Laws.WellTimed.Statement (.frequencyHop t h) := fun _ => ⟨rfl, rfl⟩
theorem Sys2Proof.Laws.WellTimed.noiseTimeout (t : Stamp) (h : Nat) : Laws.WellTimed.Statement (.noiseTimeout t h) := fun _ => ⟨rfl, rfl⟩
theorem Sys2Proof.Laws.WellTimed.longTouch (t : Stamp) (h : Nat) (id : Nat) : Laws.WellTimed.Statement (.longTouch t h id) := fun _ => ⟨rfl, rfl⟩
theorem Sys2Proof.Laws.WellTimed.calibrationDone (t : Stamp) (h : Nat) : Laws.WellTimed.Statement (.calibrationDone t h) := fun _ => ⟨rfl, rfl⟩
theorem Sys2Proof.Laws.WellTimed.selftest (t : Stamp) (src : Source) (h : Nat) : Laws.WellTimed.Statement (.selftest t src h) := fun _ => ⟨rfl, rfl⟩
theorem Sys2Proof.Laws.WellTimed.selftestDone (t : Stamp) (h : Nat) : Laws.WellTimed.Statement (.selftestDone t h) := fun _ => ⟨rfl, rfl⟩
theorem Sys2Proof.Laws.WellTimed.recal (t : Stamp) (src : Source) (h : Nat) : Laws.WellTimed.Statement (.recal t src h) := fun _ => ⟨rfl, rfl⟩
theorem Sys2Proof.Laws.WellTimed.driveRailChange (t : Stamp) (h : Nat) (low : Bool) : Laws.WellTimed.Statement (.driveRailChange t h low) := fun _ => ⟨rfl, rfl⟩
theorem Sys2Proof.Laws.WellTimed.touchReportWrite (t : Stamp) : Laws.WellTimed.Statement (.touchReportWrite t) := fun _ => ⟨rfl, rfl⟩
theorem Sys2Proof.Laws.WellTimed.pointerHoldExpire (t : Stamp) (h : Nat) : Laws.WellTimed.Statement (.pointerHoldExpire t h) := fun _ => ⟨rfl, rfl⟩
theorem Sys2Proof.Laws.WellTimed.bolLinkChange (t : Stamp) (lock : Nat) : Laws.WellTimed.Statement (.bolLinkChange t lock) := fun _ => ⟨rfl, rfl⟩
theorem Sys2Proof.Laws.WellTimed.flitReceive (t : Stamp) (flit : List Byte) : Laws.WellTimed.Statement (.flitReceive t flit) := fun _ => ⟨rfl, rfl⟩
theorem Sys2Proof.Laws.WellTimed.nakReceive (t : Stamp) (counter : Nat) : Laws.WellTimed.Statement (.nakReceive t counter) := fun _ => ⟨rfl, rfl⟩
theorem Sys2Proof.Laws.WellTimed.tick (t : Stamp) : Laws.WellTimed.Statement (.tick t) := fun _ => ⟨rfl, rfl⟩
theorem Sys2Proof.Laws.WellTimed.splitTimeout (t : Stamp) : Laws.WellTimed.Statement (.splitTimeout t) := fun _ => ⟨rfl, rfl⟩
theorem Sys2Proof.Laws.WellTimed.heartbeatReceive (t : Stamp) (msg : List Byte) : Laws.WellTimed.Statement (.heartbeatReceive t msg) := fun _ => ⟨rfl, rfl⟩
theorem Sys2Proof.Laws.WellTimed.noticeReceive (t : Stamp) (msg : List Byte) : Laws.WellTimed.Statement (.noticeReceive t msg) := fun _ => ⟨rfl, rfl⟩
theorem Sys2Proof.Laws.WellTimed.noticeLostwaitExpire (t : Stamp) (n : Nat) (key : Nat) : Laws.WellTimed.Statement (.noticeLostwaitExpire t n key) := fun _ => ⟨rfl, rfl⟩
theorem Sys2Proof.Laws.WellTimed.frameEligible (t : Stamp) (n : Nat) (i : Nat) : Laws.WellTimed.Statement (.frameEligible t n i) := fun _ => ⟨rfl, rfl⟩
theorem Sys2Proof.Laws.WellTimed.mirrorReceive (t : Stamp) (msg : List Byte) (bad : List Nat) : Laws.WellTimed.Statement (.mirrorReceive t msg bad) := fun _ => ⟨rfl, rfl⟩
theorem Sys2Proof.Laws.WellTimed.mirrorApply (t : Stamp) (bad : List Nat) : Laws.WellTimed.Statement (.mirrorApply t bad) := fun _ => ⟨rfl, rfl⟩
theorem Sys2Proof.Laws.WellTimed.recordReceive (t : Stamp) (msg : List Byte) : Laws.WellTimed.Statement (.recordReceive t msg) := fun _ => ⟨rfl, rfl⟩
theorem Sys2Proof.Laws.WellTimed.sigxReceive (t : Stamp) (msg : List Byte) : Laws.WellTimed.Statement (.sigxReceive t msg) := fun _ => ⟨rfl, rfl⟩
theorem Sys2Proof.Laws.WellTimed.seqReceive (t : Stamp) (msg : List Byte) : Laws.WellTimed.Statement (.seqReceive t msg) := fun _ => ⟨rfl, rfl⟩
theorem Sys2Proof.Laws.WellTimed.timeExchangeStart (t : Stamp) (depart : Stamp) : Laws.WellTimed.Statement (.timeExchangeStart t depart) := fun _ => ⟨rfl, rfl⟩
theorem Sys2Proof.Laws.WellTimed.timeRequestReceive (t : Stamp) (msg : List Byte) (depart : Stamp) : Laws.WellTimed.Statement (.timeRequestReceive t msg depart) := fun _ => ⟨rfl, rfl⟩
theorem Sys2Proof.Laws.WellTimed.timeReplyReceive (t : Stamp) (msg : List Byte) : Laws.WellTimed.Statement (.timeReplyReceive t msg) := fun _ => ⟨rfl, rfl⟩
theorem Sys2Proof.Laws.WellTimed.yield (t : Stamp) (src : Source) : Laws.WellTimed.Statement (.yield t src) := fun _ => ⟨rfl, rfl⟩
theorem Sys2Proof.Laws.WellTimed.memoryRequest (t : Stamp) (a : Access) : Laws.WellTimed.Statement (.memoryRequest t a) := fun _ => ⟨rfl, rfl⟩
theorem Sys2Proof.Laws.WellTimed.memoryReadComplete (t : Stamp) (n : Nat) (ecc : Nat) : Laws.WellTimed.Statement (.memoryReadComplete t n ecc) := fun _ => ⟨rfl, rfl⟩
theorem Sys2Proof.Laws.WellTimed.refreshDue (t : Stamp) (n : Nat) (bank : Nat) : Laws.WellTimed.Statement (.refreshDue t n bank) := fun _ => ⟨rfl, rfl⟩
theorem Sys2Proof.Laws.WellTimed.mr4Poll (t : Stamp) (n : Nat) (code : Nat) : Laws.WellTimed.Statement (.mr4Poll t n code) := fun _ => ⟨rfl, rfl⟩
theorem Sys2Proof.Laws.WellTimed.scrubRead (t : Stamp) (n : Nat) (ofs : Nat) (ecc : Nat) : Laws.WellTimed.Statement (.scrubRead t n ofs ecc) := fun _ => ⟨rfl, rfl⟩
theorem Sys2Proof.Laws.WellTimed.holdTimeout (t : Stamp) : Laws.WellTimed.Statement (.holdTimeout t) := fun _ => ⟨rfl, rfl⟩
theorem Sys2Proof.Laws.WellTimed.budgetOverrun (t : Stamp) (g : Nat) : Laws.WellTimed.Statement (.budgetOverrun t g) := fun _ => ⟨rfl, rfl⟩
theorem Sys2Proof.Laws.WellTimed.oscTrackRead (t : Stamp) (n : Nat) (want : Int) : Laws.WellTimed.Statement (.oscTrackRead t n want) := fun _ => ⟨rfl, rfl⟩
theorem Sys2Proof.Laws.WellTimed.trainingRun (t : Stamp) (src : Source) (n : Nat) : Laws.WellTimed.Statement (.trainingRun t src n) := fun _ => ⟨rfl, rfl⟩
theorem Sys2Proof.Laws.WellTimed.trainingStop (t : Stamp) (src : Source) (n : Nat) (errors : List Nat) : Laws.WellTimed.Statement (.trainingStop t src n errors) := fun _ => ⟨rfl, rfl⟩
theorem Sys2Proof.Laws.WellTimed.trainingRunDone (t : Stamp) (n : Nat) (errors : List Nat) : Laws.WellTimed.Statement (.trainingRunDone t n errors) := fun _ => ⟨rfl, rfl⟩
theorem Sys2Proof.Laws.WellTimed.trimWriteApply (t : Stamp) (n : Nat) : Laws.WellTimed.Statement (.trimWriteApply t n) := fun _ => ⟨rfl, rfl⟩
theorem Sys2Proof.Laws.WellTimed.apply (t : Stamp) (src : Source) (u : Nat) : Laws.WellTimed.Statement (.apply t src u) := fun _ => ⟨rfl, rfl⟩
theorem Sys2Proof.Laws.WellTimed.applyTags (t : Stamp) (src : Source) : Laws.WellTimed.Statement (.applyTags t src) := fun _ => ⟨rfl, rfl⟩
theorem Sys2Proof.Laws.WellTimed.accessDrainComplete (t : Stamp) (u : Option Nat) : Laws.WellTimed.Statement (.accessDrainComplete t u) := fun _ => ⟨rfl, rfl⟩
theorem Sys2Proof.Laws.WellTimed.tagCopyDone (t : Stamp) : Laws.WellTimed.Statement (.tagCopyDone t) := fun _ => ⟨rfl, rfl⟩
theorem Sys2Proof.Laws.WellTimed.recallLayout (t : Stamp) (src : Source) (n : Nat) : Laws.WellTimed.Statement (.recallLayout t src n) := fun _ => ⟨rfl, rfl⟩
theorem Sys2Proof.Laws.WellTimed.preset (t : Stamp) (src : Source) (n : Nat) : Laws.WellTimed.Statement (.preset t src n) := fun _ => ⟨rfl, rfl⟩
theorem Sys2Proof.Laws.WellTimed.policyAction (t : Stamp) : Laws.WellTimed.Statement (.policyAction t) := fun _ => ⟨rfl, rfl⟩
theorem Sys2Proof.Laws.WellTimed.eventRecordWrite (t : Stamp) : Laws.WellTimed.Statement (.eventRecordWrite t) := fun _ => ⟨rfl, rfl⟩
theorem Sys2Proof.Laws.WellTimed.rateLimitWindowEnd (t : Stamp) (code : Nat) (unit : Nat) : Laws.WellTimed.Statement (.rateLimitWindowEnd t code unit) := fun _ => ⟨rfl, rfl⟩
theorem Sys2Proof.Laws.WellTimed.mgtRead (t : Stamp) (msg : List Byte) (saddr : Nat) (sport : Nat) : Laws.WellTimed.Statement (.mgtRead t msg saddr sport) := fun _ => ⟨rfl, rfl⟩
theorem Sys2Proof.Laws.WellTimed.mgtWrite (t : Stamp) (msg : List Byte) (saddr : Nat) (sport : Nat) : Laws.WellTimed.Statement (.mgtWrite t msg saddr sport) := fun _ => ⟨rfl, rfl⟩
theorem Sys2Proof.Laws.WellTimed.mgtRecall (t : Stamp) (msg : List Byte) (saddr : Nat) (sport : Nat) : Laws.WellTimed.Statement (.mgtRecall t msg saddr sport) := fun _ => ⟨rfl, rfl⟩
theorem Sys2Proof.Laws.WellTimed.mgtPreset (t : Stamp) (msg : List Byte) (saddr : Nat) (sport : Nat) : Laws.WellTimed.Statement (.mgtPreset t msg saddr sport) := fun _ => ⟨rfl, rfl⟩
theorem Sys2Proof.Laws.WellTimed.smbBlockWrite (t : Stamp) (adr : Nat) (ofs : Nat) (data : Word) (pec : Bool) : Laws.WellTimed.Statement (.smbBlockWrite t adr ofs data pec) := fun _ => ⟨rfl, rfl⟩
theorem Sys2Proof.Laws.WellTimed.smbSetPointer (t : Stamp) (adr : Nat) (ofs : Nat) (pec : Bool) : Laws.WellTimed.Statement (.smbSetPointer t adr ofs pec) := fun _ => ⟨rfl, rfl⟩
theorem Sys2Proof.Laws.WellTimed.smbBlockRead (t : Stamp) (adr : Nat) (pec : Bool) : Laws.WellTimed.Statement (.smbBlockRead t adr pec) := fun _ => ⟨rfl, rfl⟩
theorem Sys2Proof.Laws.WellTimed.watchdogSignal (t : Stamp) (hart : Nat) : Laws.WellTimed.Statement (.watchdogSignal t hart) := fun _ => ⟨rfl, rfl⟩
theorem Sys2Proof.Laws.WellTimed.watchdogExpire (t : Stamp) (hart : Nat) : Laws.WellTimed.Statement (.watchdogExpire t hart) := fun _ => ⟨rfl, rfl⟩
theorem Sys2Proof.Laws.WellTimed.healthCheck (t : Stamp) (limits : List (Nat × Int × Int)) : Laws.WellTimed.Statement (.healthCheck t limits) := fun _ => ⟨rfl, rfl⟩
theorem Sys2Proof.Laws.WellTimed.monitorRefresh (t : Stamp) (slacks : List Nat) (temps : List Int) (rails : List (Nat × Nat)) : Laws.WellTimed.Statement (.monitorRefresh t slacks temps rails) := fun _ => ⟨rfl, rfl⟩
theorem Sys2Proof.Laws.WellTimed.roMeasure (t : Stamp) (counts : List (Nat × Nat)) : Laws.WellTimed.Statement (.roMeasure t counts) := fun _ => ⟨rfl, rfl⟩
theorem Sys2Proof.Laws.WellTimed.avsStep (t : Stamp) (slack : Nat) : Laws.WellTimed.Statement (.avsStep t slack) := fun _ => ⟨rfl, rfl⟩
theorem Sys2Proof.Laws.WellTimed.avsFloorTimeout (t : Stamp) : Laws.WellTimed.Statement (.avsFloorTimeout t) := fun _ => ⟨rfl, rfl⟩
theorem Sys2Proof.Laws.WellTimed.dramMarginSweep (t : Stamp) (n : Nat) (rd : List (List Nat)) (wr : List (List Nat)) (rv : List (List Nat)) (wv : List (List Nat)) : Laws.WellTimed.Statement (.dramMarginSweep t n rd wr rv wv) := fun _ => ⟨rfl, rfl⟩
theorem Sys2Proof.Laws.WellTimed.eyeMeasure (t : Stamp) (l : Nat) (height : Nat) (width : Nat) (near : Option (Nat × Nat)) : Laws.WellTimed.Statement (.eyeMeasure t l height width near) := fun _ => ⟨rfl, rfl⟩
theorem Sys2Proof.Laws.WellTimed.plan (t : Stamp) : Laws.WellTimed.Statement (.plan t) := fun _ => ⟨rfl, rfl⟩
theorem Sys2Proof.Laws.WellTimed.remeasureDone (t : Stamp) (id : Nat) (margin : Int) : Laws.WellTimed.Statement (.remeasureDone t id margin) := fun _ => ⟨rfl, rfl⟩
theorem Sys2Proof.Laws.WellTimed.flySheetPanic (t : Stamp) (h : Nat) : Laws.WellTimed.Statement (.flySheetPanic t h) := fun _ => ⟨rfl, rfl⟩
theorem Sys2Proof.Laws.WellTimed.captureLineReceive (t : Stamp) (q : Nat) (px : List (Nat × Nat × Nat)) (fill : Nat) : Laws.WellTimed.Statement (.captureLineReceive t q px fill) := fun _ => ⟨rfl, rfl⟩
end

