-- ==== Sys2Proof/Tests/Slice0.lean ====
section
/-! SUPPORT. Tests of the model's author: well-formedness, and states and operands that meet the hypotheses of each
statement. -/

open Sys2Proof Sys2Proof.Machine

namespace Sys2Proof.Tests

set_option Elab.async false


/-- A state with this part and no command waiting. -/
def st (c : Chip) : State := ⟨c, []⟩
/-- The part right after reset, with words in some registers. -/
def part (l : List (Nat × Nat)) : Chip := l.foldl (fun c e => c.setNat e.1 e.2) State.reset.chip
/-- The word with a value at bit `b`. -/
def b (i : Nat) (v : Nat := 1) : Nat := v * 2 ^ i

namespace Smoke

def pic0 : ParsedPicture := ⟨0, none, true, 0, false, none, 0, [], [], [], 0, 0, true⟩
def res0 : JobResult := ⟨0, [], [], [], []⟩
def line0 : CsiLine := ⟨0, 0, 0, true, true, false, false, [], 0⟩
def top0 : Topology := ⟨[], []⟩
def scan0 : ScanData := ⟨[], [], [], [], []⟩
def p18 : List (List Nat) := List.replicate 18 (List.replicate 128 0)
/-- See `p18`. -/
def q18 : List (List Nat) := List.replicate 18 (List.replicate 32 0)


/-- Commands whose operands stand at the ends of their ranges are well formed. -/
theorem test_wellFormed_1 : ([.clearViolationRecord 5 0,
    .resetNRelease 5 0,
    .caminitDone 5 0 0 false,
    .headFrameStart 5 0 0 [],
    .elementStateMiss 5 0 0,
    .headLineStart 5 0 0,
    .tileFetchComplete 5 0 0 0 none false,
    .headFrameDone 5 0 [] 0,
    .headEnableWrite 5 0 0,
    .frameBegin 5 0 0,
    .frameFinish 5 0 0 2 0 5 none 0 [],
    .qualificationComplete 5 0,
    .wtrExpire 5 0,
    .force 5 .user 0,
    .release 5 .user 0,
    .skipWtr 5 .user 0,
    .ppsEdge 5 3 0,
    .ppsTimeout 5 3,
    .ptpMessageReceive 5 0 ⟨false, 0, .other⟩,
    .announceTimeout 5 0,
    .submit 5 .user 0,
    .pegCancel 5 .user 0 0,
    .pegArm 5 0,
    .pegImmediateFire 5 85 0,
    .pegExpire 5 0,
    .senderAgeOut 5 0,
    .frameSkewTimeout 5 0 0,
    .framePacketTimeout 5 0 0,
    .legSilenceTimeout 5 0 0,
    .senderReportLapse 5 0] : List Instr).all (fun i => i.wellFormed) = true := by decide +kernel

/-- Commands whose operands stand at the ends of their ranges are well formed. -/
theorem test_wellFormed_2 : ([.subportLinkChange 5 0 0 false,
    .packetRelease 5 0,
    .pictureJobBuild 5 0 pic0,
    .bucketTake 5 0 false,
    .arm 5 .user 0,
    .cameraFrameStart 5 0 0,
    .cciWritesDone 5 0 0 false,
    .cciWindowExpire 5 0 0,
    .embeddedDataReceive 5 0 0 [] false false,
    .csiLineReceive 5 0 line0,
    .cameraFrameEnd 5 0 0,
    .cameraFrameTimeout 5 0,
    .cameraOutputFinish 5 0 0,
    .cameraSilenceTimeout 5 0,
    .fsyncPulse 5 0,
    .captureFrameBegin 5 0 0 0 0 false,
    .captureFrameEnd 5 0,
    .captureLinkChange 5 0 false 0 0 false,
    .captureAuxRequest 5 0 .capabilities,
    .feederResyncTimeout 5 0,
    .start 5 .user 0,
    .finish 5 .user 0,
    .resetAlive 5 .user 0,
    .feedByte 5 .user 0 0,
    .feedHalfWord 5 .user 0 0,
    .feedWord 5 .user 0 0,
    .chkCfgWrite 5 .user 0 0,
    .glyphMiss 5 0 0,
    .commitRequest 5 .user 0,
    .commitCancel 5 .user 0] : List Instr).all (fun i => i.wellFormed) = true := by decide +kernel

/-- Commands whose operands stand at the ends of their ranges are well formed. -/
theorem test_wellFormed_3 : ([.hpdHighDebounce 5 0 0 0 [],
    .dpTrainingDone 5 0 [] [],
    .irqHpd 5 0 false none,
    .hpdLowTimeout 5 0,
    .dpRetryTimeout 5 0,
    .retrain 5 .user 0,
    .scanFrameStart 5 0,
    .scanFrameEnd 5 0 scan0,
    .frequencyHop 5 0,
    .noiseTimeout 5 0,
    .longTouch 5 0 0,
    .calibrationDone 5 0,
    .selftest 5 .user 0,
    .selftestDone 5 0,
    .recal 5 .user 0,
    .driveRailChange 5 0 false,
    .pointerHoldExpire 5 0,
    .bolLinkChange 5 0,
    .nakReceive 5 0,
    .noticeLostwaitExpire 5 0 0,
    .frameEligible 5 0 0,
    .memoryReadComplete 5 0 0,
    .refreshDue 5 0 0,
    .mr4Poll 5 0 0,
    .scrubRead 5 0 0 0,
    .budgetOverrun 5 0,
    .oscTrackRead 5 0 0,
    .trainingRun 5 .user 0,
    .trainingStop 5 .user 0 [],
    .trainingRunDone 5 0 []] : List Instr).all (fun i => i.wellFormed) = true := by decide +kernel

/-- Commands whose operands stand at the ends of their ranges are well formed. -/
theorem test_wellFormed_4 : ([.trimWriteApply 5 0,
    .apply 5 .user 0,
    .recallLayout 5 .user 0,
    .preset 5 .user 0,
    .smbBlockWrite 5 0 0 0 false,
    .smbSetPointer 5 0 0 false,
    .watchdogSignal 5 0,
    .watchdogExpire 5 0,
    .avsStep 5 0,
    .eyeMeasure 5 0 0 0 none,
    .flySheetPanic 5 0,
    .captureLineReceive 5 0 [] 0,
    .writeRegister 5 .user 7 0x40000004 [1, 2, 3, 4],
    .memoryRequest 5 ⟨23, 31, true, 1, 9, 0, 0xFFFFFFFFC4, 4, [1, 2, 3, 4], 2⟩,
    .snap 5 .user R.muiSnap,
    .trainDone 5 [(15, 6)] [(15, 19, 0)] 5,
    .headsStart 5 [7],
    .timeBusFullStamp 5 [(70, 0, 0)],
    .activityGap 5 6,
    .ethFrameReceive 5 ⟨2, 3, 0, true, .other⟩,
    .powerOnHoldEnd 5 1 (List.replicate 12 (0, 0)),
    .engineJobStart 5 true 3,
    .engineJobStart 5 false 7,
    .engineJobEnd 5 true 3 { res0 with cause := 13 },
    .recordReceive 5 ([1, 0, 0, 0] ++ List.replicate 36 0),
    .sigxReceive 5 ([31, 0, 1, 0] ++ List.replicate 28 0),
    .seqReceive 5 (31 :: List.replicate 15 0),
    .mirrorReceive 5 (List.replicate 44 0) [],
    .flitReceive 5 (List.replicate 64 0),
    .heartbeatReceive 5 (List.replicate 24 0)] : List Instr).all (fun i => i.wellFormed) = true := by decide +kernel

/-- Commands whose operands stand at the ends of their ranges are well formed. -/
theorem test_wellFormed_5 : ([.noticeReceive 5 (List.replicate 32 0),
    .timeRequestReceive 5 (List.replicate 32 0) 5,
    .timeReplyReceive 5 (List.replicate 32 0),
    .healthCheck 5 [(60, 0, 0), (95, 0, 0)],
    .monitorRefresh 5 (List.replicate 16 0) (List.replicate 24 0) (List.replicate 12 (0, 0)),
    .roMeasure 5 (List.replicate 44 (0, 0)),
    .dramMarginSweep 5 15 p18 p18 q18 q18,
    .accessDrainComplete 5 (some 23),
    .accessDrainComplete 5 none] : List Instr).all (fun i => i.wellFormed) = true := by decide +kernel

/-- A command that fails one check alone is ill formed, one for each check. -/
theorem test_illFormed_1 : ([.clearViolationRecord 5 24,
    .resetNRelease 5 2,
    .caminitDone 5 8 0 false,
    .headFrameStart 5 32 0 [],
    .elementStateMiss 5 32 0,
    .elementStateMiss 5 0 524288,
    .headLineStart 5 32 0,
    .tileFetchComplete 5 32 0 0 none false,
    .headFrameDone 5 32 [] 0,
    .headFrameDone 5 0 [] 3,
    .headEnableWrite 5 32 0,
    .frameBegin 5 256 0,
    .frameFinish 5 256 0 2 0 5 none 0 [],
    .frameFinish 5 0 32 2 0 5 none 0 [],
    .frameFinish 5 0 0 1 0 5 none 0 [],
    .frameFinish 5 0 0 7 0 5 none 0 [],
    .frameFinish 5 0 0 2 16 5 none 0 [],
    .qualificationComplete 5 7,
    .wtrExpire 5 7,
    .force 5 .user 8,
    .release 5 .user 8,
    .skipWtr 5 .user 8,
    .ppsEdge 5 2 0,
    .ppsEdge 5 6 0,
    .ppsTimeout 5 2,
    .ppsTimeout 5 6,
    .ptpMessageReceive 5 2 ⟨false, 0, .other⟩,
    .announceTimeout 5 2,
    .submit 5 .user 3,
    .pegCancel 5 .user 3 0] : List Instr).any (fun i => i.wellFormed) = false := by decide +kernel

/-- A command that fails one check alone is ill formed, one for each check. -/
theorem test_illFormed_2 : ([.pegCancel 5 .user 0 65536,
    .pegArm 5 4096,
    .pegImmediateFire 5 84 0,
    .pegImmediateFire 5 96 0,
    .pegExpire 5 4096,
    .senderAgeOut 5 256,
    .frameSkewTimeout 5 256 0,
    .framePacketTimeout 5 256 0,
    .legSilenceTimeout 5 256 0,
    .legSilenceTimeout 5 0 2,
    .senderReportLapse 5 256,
    .subportLinkChange 5 2 0 false,
    .subportLinkChange 5 0 4 false,
    .packetRelease 5 32,
    .pictureJobBuild 5 256 pic0,
    .bucketTake 5 32 false,
    .arm 5 .user 32,
    .cameraFrameStart 5 8 0,
    .cciWritesDone 5 8 0 false,
    .cciWindowExpire 5 8 0,
    .embeddedDataReceive 5 8 0 [] false false,
    .csiLineReceive 5 8 line0,
    .cameraFrameEnd 5 8 0,
    .cameraFrameTimeout 5 8,
    .cameraOutputFinish 5 8 0,
    .cameraOutputFinish 5 0 3,
    .cameraSilenceTimeout 5 8,
    .fsyncPulse 5 8,
    .captureFrameBegin 5 4 0 0 0 false,
    .captureFrameBegin 5 0 65536 0 0 false] : List Instr).any (fun i => i.wellFormed) = false := by decide +kernel

/-- A command that fails one check alone is ill formed, one for each check. -/
theorem test_illFormed_3 : ([.captureFrameBegin 5 0 0 65536 0 false,
    .captureFrameBegin 5 0 0 0 3 false,
    .captureFrameEnd 5 4,
    .captureLinkChange 5 4 false 0 0 false,
    .captureLinkChange 5 0 false 5 0 false,
    .captureLinkChange 5 0 false 0 3 false,
    .captureAuxRequest 5 4 .capabilities,
    .feederResyncTimeout 5 256,
    .start 5 .user 16,
    .finish 5 .user 16,
    .resetAlive 5 .user 16,
    .feedByte 5 .user 16 0,
    .feedHalfWord 5 .user 16 0,
    .feedWord 5 .user 16 0,
    .chkCfgWrite 5 .user 16 0,
    .glyphMiss 5 32 0,
    .glyphMiss 5 0 524288,
    .commitRequest 5 .user 32,
    .commitCancel 5 .user 32,
    .hpdHighDebounce 5 8 0 0 [],
    .dpTrainingDone 5 8 [] [],
    .irqHpd 5 8 false none,
    .hpdLowTimeout 5 8,
    .dpRetryTimeout 5 8,
    .retrain 5 .user 8,
    .scanFrameStart 5 4,
    .scanFrameEnd 5 4 scan0,
    .frequencyHop 5 4,
    .noiseTimeout 5 4,
    .longTouch 5 4 0] : List Instr).any (fun i => i.wellFormed) = false := by decide +kernel

/-- A command that fails one check alone is ill formed, one for each check. -/
theorem test_illFormed_4 : ([.calibrationDone 5 4,
    .selftest 5 .user 4,
    .selftestDone 5 4,
    .recal 5 .user 4,
    .driveRailChange 5 4 false,
    .pointerHoldExpire 5 4,
    .bolLinkChange 5 16,
    .nakReceive 5 65536,
    .noticeLostwaitExpire 5 256 0,
    .frameEligible 5 256 0,
    .frameEligible 5 0 32,
    .memoryReadComplete 5 16 0,
    .memoryReadComplete 5 0 3,
    .refreshDue 5 16 0,
    .refreshDue 5 0 16,
    .mr4Poll 5 16 0,
    .mr4Poll 5 0 32,
    .scrubRead 5 16 0 0,
    .scrubRead 5 0 0 3,
    .budgetOverrun 5 10,
    .oscTrackRead 5 16 0,
    .trainingRun 5 .user 16,
    .trainingStop 5 .user 16 [],
    .trainingRunDone 5 16 [],
    .trimWriteApply 5 16,
    .apply 5 .user 24,
    .recallLayout 5 .user 4096,
    .preset 5 .user 4096,
    .smbBlockWrite 5 0 4294967296 0 false,
    .smbSetPointer 5 0 4294967296 false] : List Instr).any (fun i => i.wellFormed) = false := by decide +kernel

/-- A command that fails one check alone is ill formed, one for each check. -/
theorem test_illFormed_5 : ([.watchdogSignal 5 8,
    .watchdogExpire 5 8,
    .avsStep 5 256,
    .eyeMeasure 5 12 0 0 none,
    .eyeMeasure 5 0 1024 0 none,
    .eyeMeasure 5 0 0 128 none,
    .flySheetPanic 5 32,
    .captureLineReceive 5 4 [] 0,
    .writeRegister 5 .user 8 0x40000004 [1, 2, 3, 4],
    .writeRegister 5 .user 7 0x40000004 [],
    .writeRegister 5 .user 7 0x4000003D [1, 2, 3, 4],
    .writeRegister 5 .user 7 0x10000000000 [1, 2, 3, 4],
    .memoryRequest 5 ⟨24, 31, true, 1, 9, 0, 0xFFFFFFFFC4, 4, [1, 2, 3, 4], 2⟩,
    .memoryRequest 5 ⟨23, 32, true, 1, 9, 0, 0xFFFFFFFFC4, 4, [1, 2, 3, 4], 2⟩,
    .memoryRequest 5 ⟨0, 8, true, 1, 9, 0, 0xFFFFFFFFC4, 4, [1, 2, 3, 4], 2⟩,
    .memoryRequest 5 ⟨23, 31, true, 3, 9, 0, 0xFFFFFFFFC4, 4, [1, 2, 3, 4], 2⟩,
    .memoryRequest 5 ⟨23, 31, true, 1, 10, 0, 0xFFFFFFFFC4, 4, [1, 2, 3, 4], 2⟩,
    .memoryRequest 5 ⟨23, 31, true, 1, 9, 0, 0x10000000000, 4, [1, 2, 3, 4], 2⟩,
    .memoryRequest 5 ⟨23, 31, true, 1, 9, 0, 0x4000003D, 4, [1, 2, 3, 4], 2⟩,
    .memoryRequest 5 ⟨23, 31, true, 1, 9, 0, 0xFFFFFFFFC4, 0, [], 2⟩,
    .memoryRequest 5 ⟨23, 31, true, 1, 9, 0, 0xFFFFFFFFC4, 3, [1, 2, 3, 4], 2⟩,
    .memoryRequest 5 ⟨23, 31, true, 1, 9, 0, 0xFFFFFFFFC4, 4, [1, 2, 3, 4], 3⟩,
    .accessDrainComplete 5 (some 24),
    .snap 5 .user R.sysId,
    .trainDone 5 [(16, 6)] [] 5,
    .trainDone 5 [(15, 0)] [] 5,
    .trainDone 5 [(15, 7)] [] 5,
    .trainDone 5 [] [(16, 19, 0)] 5,
    .trainDone 5 [] [(15, 20, 0)] 5,
    .headsStart 5 [0, 8]] : List Instr).any (fun i => i.wellFormed) = false := by decide +kernel

/-- A command that fails one check alone is ill formed, one for each check. -/
theorem test_illFormed_6 : ([.timeBusFullStamp 5 [(71, 0, 0)],
    .activityGap 5 2,
    .activityGap 5 5,
    .activityGap 5 7,
    .powerOnHoldEnd 5 2 (List.replicate 12 (0, 0)),
    .powerOnHoldEnd 5 1 (List.replicate 11 (0, 0)),
    .ethFrameReceive 5 ⟨3, 3, 0, true, .other⟩,
    .ethFrameReceive 5 ⟨1, 4, 0, true, .other⟩,
    .engineJobStart 5 true 4,
    .engineJobStart 5 false 8,
    .engineJobEnd 5 true 4 res0,
    .engineJobEnd 5 false 8 res0,
    .engineJobEnd 5 true 3 { res0 with cause := 16 },
    .engineJobEnd 5 true 3 { res0 with cause := 2 },
    .recordReceive 5 ([2, 0, 0, 0] ++ List.replicate 36 0),
    .recordReceive 5 ([33, 0, 0, 0] ++ List.replicate 1188 0),
    .sigxReceive 5 ([32, 0, 1, 0] ++ List.replicate 28 0),
    .sigxReceive 5 ([31, 0, 2, 0] ++ List.replicate 28 0),
    .seqReceive 5 (32 :: List.replicate 15 0),
    .seqReceive 5 (31 :: List.replicate 16 0),
    .mirrorReceive 5 (List.replicate 43 0) [],
    .flitReceive 5 (List.replicate 63 0),
    .heartbeatReceive 5 (List.replicate 25 0),
    .noticeReceive 5 (List.replicate 31 0),
    .timeRequestReceive 5 (List.replicate 31 0) 5,
    .timeReplyReceive 5 (List.replicate 33 0),
    .healthCheck 5 [(59, 0, 0)],
    .healthCheck 5 [(96, 0, 0)],
    .monitorRefresh 5 (List.replicate 17 0) (List.replicate 24 0) (List.replicate 12 (0, 0)),
    .monitorRefresh 5 (List.replicate 16 0) (List.replicate 23 0) (List.replicate 12 (0, 0))] : List Instr).any (fun i => i.wellFormed) = false := by decide +kernel

/-- A command that fails one check alone is ill formed, one for each check. -/
theorem test_illFormed_7 : ([.monitorRefresh 5 (List.replicate 16 0) (List.replicate 24 0) (List.replicate 13 (0, 0)),
    .roMeasure 5 (List.replicate 43 (0, 0)),
    .dramMarginSweep 5 16 p18 p18 q18 q18,
    .dramMarginSweep 5 15 [] p18 q18 q18,
    .dramMarginSweep 5 15 p18 [] q18 q18,
    .dramMarginSweep 5 15 p18 p18 [] q18,
    .dramMarginSweep 5 15 p18 p18 q18 []] : List Instr).any (fun i => i.wellFormed) = false := by decide +kernel

end Smoke

namespace F01

/-- The descriptor of the register at an address. -/
def desc (a : Nat) : RegDesc := match descAt a with | some (d, _) => d | none => ⟨"", 0, [], false, []⟩
/-- The indices of the register at an address. -/
def descIdx (a : Nat) : List Nat := match descAt a with | some (_, i) => i | none => []
/-- A field of the register at an address. -/
def field (a k : Nat) : FieldDesc := (desc a).fields.getD k ⟨"", 0, 0, .ro, .const 0, .any⟩

/-- States and operands that meet the hypotheses of `Obligations.ReadsSnapsAndRecordClearsKeepTheRest`. -/
theorem wit_RecordClearsWriteValidAlone :
    (∃ (s : State) (t : Stamp) (u : Nat), (u < 24) ∧ ((∀ v ∈ s.chip.violations, v.unit = u → v.stamp ≠ t)) ∧ ((s.chip.bit (R.pruFrec u) 31 = true → s.chip.wide (R.pruFrecStampLo u) (R.pruFrecStampHi u) ≠ shortStamp t))) ∧
    (∃ (s : State) (t : Stamp) (u : Nat), (u < 24) ∧ (s.chip.bit (R.pruFrec u) 31 = true) ∧ (s.chip.wide (R.pruFrecStampLo u) (R.pruFrecStampHi u) = shortStamp t)) ∧
    (∃ (s : State) (t : Stamp) (u : Nat) (v : Violation), (u < 24) ∧ ((s.chip.bit (R.pruFrec u) 31 = true → s.chip.wide (R.pruFrecStampLo u) (R.pruFrecStampHi u) ≠ shortStamp t)) ∧ (v ∈ s.chip.violations) ∧ (v.unit = u) ∧ (v.stamp = t) ∧ ((∀ x ∈ s.chip.violations, x.unit = u → x.stamp = t → x = v ∨ v.source < x.source))) :=
  ⟨⟨st (part [(R.pruFrec 23, b 31 + 77)]), 5, 23, by decide +kernel⟩,
   ⟨st (part [(R.pruFrec 5, b 31 + 77), (R.pruFrecStampLo 5, 5)]), 5, 5, by decide +kernel⟩,
   ⟨st { part [(R.pruFrec 5, b 31 + 77)] with violations := [⟨5, 9, 6, 1, false, 3, 12, 0x100000000⟩, ⟨5, 9, 4, 1, false, 3, 2, 0x100000040⟩] }, 9, 5, ⟨5, 9, 4, 1, false, 3, 2, 0x100000040⟩, by decide +kernel⟩⟩

/-- A state and operands that meet the hypotheses of `Obligations.RegisterWriteFollowsFieldTypes`. -/
theorem wit_RegisterWriteFollowsFieldTypes :
    (∃ (s : State) (t : Stamp) (src : Source) (hart : Nat) (addr : Nat) (data : List Byte) (d : RegDesc) (idx : List Nat) (f : FieldDesc), ((Instr.writeRegister t src hart addr data).wellFormed = true) ∧ (placeOf s.chip.dramCap addr = .register) ∧ (addr % 4 = 0) ∧ (data.length = 4) ∧ (roleOf addr = .plain) ∧ (descAt addr = some (d, idx)) ∧ ((src ≠ .peg → ∀ w ∈ s.chip.peg.wrote, w.1 = addr → w.2.1 ≠ shortStamp t)) ∧ ((src ≠ .peg → s.chip.passes (coreWrite src hart addr data))) ∧ (d.drops s.chip.isSealed (s.chip.reg addr) (BitVec.ofNat 32 (leNat data)) = false) ∧ (f ∈ d.fields)) :=
  ⟨st (part []), 5, .user, 7, 1073741824, [255, 255, 255, 255], desc 1073741824, descIdx 1073741824, field 1073741824 0, by unfold Chip.passes; decide +kernel⟩

/-- A state and operands that meet the hypotheses of `Obligations.DroppedWriteIsCountedAndChangesNoSealedField`. -/
theorem wit_DroppedWriteIsCountedAndChangesNoSealedField :
    (∃ (s : State) (t : Stamp) (src : Source) (hart : Nat) (addr : Nat) (data : List Byte) (d : RegDesc) (idx : List Nat) (f : FieldDesc), ((Instr.writeRegister t src hart addr data).wellFormed = true) ∧ (placeOf s.chip.dramCap addr = .register) ∧ (addr % 4 = 0) ∧ (data.length = 4) ∧ (roleOf addr = .plain) ∧ (descAt addr = some (d, idx)) ∧ ((src ≠ .peg → ∀ w ∈ s.chip.peg.wrote, w.1 = addr → w.2.1 ≠ shortStamp t)) ∧ ((src ≠ .peg → s.chip.passes (coreWrite src hart addr data))) ∧ (d.drops s.chip.isSealed (s.chip.reg addr) (BitVec.ofNat 32 (leNat data)) = true) ∧ (f ∈ d.fields) ∧ (f.ty = .rw) ∧ (addr ∉ dropRegs)) :=
  ⟨st (part [(R.pitStat, b 31)]), 5, .user, 2, R.muiLock, [1, 2, 3, 4], desc R.muiLock, descIdx R.muiLock, field R.muiLock 0, by unfold Chip.passes; decide +kernel⟩

/-- States and operands that meet the hypotheses of `Obligations.ReadsSnapsAndRecordClearsKeepTheRest`. -/
theorem wit_SnapLatchesTheWordsOfItsScope :
    (∃ (s : State) (addr : Nat) (lo : Nat) (hi : Nat) (a : Nat), (snapScope addr = some (lo, hi)) ∧ (addr ≠ R.muiSnap) ∧ ((roleOf addr = .snapshot ∨ s.chip.isSealed = false)) ∧ (s.chip.canonical) ∧ (lo ≤ a) ∧ (a < hi) ∧ (isSnapWord a = true)) ∧
    (∃ (s : State) (addr : Nat) (lo : Nat) (hi : Nat) (a : Nat), (snapScope addr = some (lo, hi)) ∧ (addr ≠ R.muiSnap) ∧ ((roleOf addr = .snapshot ∨ s.chip.isSealed = false)) ∧ ((a < lo ∨ hi ≤ a))) ∧
    (∃ (s : State), (s.chip.canonical)) :=
  ⟨⟨st { part [(R.pntFeedLastaLo 3, 77)] with latch := [(R.pntFeedLastaLo 3, 5)] }, R.pntSnap, R.pntCtl, R.pntCtl + 0x10000, R.pntFeedLastaLo 3, by unfold Chip.canonical; decide +kernel⟩,
   ⟨st { part [(R.pntFeedLastaLo 3, 77)] with latch := [(R.muiNowNs, 5)] }, R.pntSnap, R.pntCtl, R.pntCtl + 0x10000, R.muiNowNs, by decide +kernel⟩,
   ⟨st (part []), by unfold Chip.canonical; decide +kernel⟩⟩

/-- States and operands that meet the hypotheses of `Obligations.ReadsSnapsAndRecordClearsKeepTheRest`. -/
theorem wit_RegisterReadAnswersAndChangesNothing :
    (∃ (s : State) (a : Access), (accessShape a = true) ∧ (placeOf s.chip.dramCap a.addr = .register) ∧ (a.addr % 4 = 0) ∧ (a.len = 4) ∧ (a.kind ≠ 1) ∧ (s.chip.passes a)) ∧
    (∃ (s : State) (a : Access), (accessShape a = true) ∧ (placeOf s.chip.dramCap a.addr ≠ .dram) ∧ (¬ s.chip.passes a)) :=
  ⟨⟨st (part [(R.muiLock, 77)]), ⟨0, 1, false, 0, 6, 0, R.muiLock, 4, [], 0⟩, by unfold Chip.passes; decide +kernel⟩,
   ⟨st { part [(R.pruHkey, 0x20)] with pruCur := [(0, 2 ^ 31)] }, ⟨0, 2, true, 0, 6, 0, R.muiLock, 4, [], 0⟩, by unfold Chip.passes; decide +kernel⟩⟩

end F01

namespace F02

def evs (l : List Ev) (c : Chip) : Chip := { c with evq := l }
def ev1 : Ev := ⟨0x3010, .tile 3 4 5, 77, [.val 1 9, .val 8 4, .occ]⟩
def sev (l : List (Nat × Nat)) (c : Chip) : Chip := { c with jrn := { c.jrn with sevLast := l } }
def kept (n : Nat) (c : Chip) : Chip := { c with jrn := { c.jrn with kept := List.replicate n [1] } }
def win (code unit : Nat) (w : RateWin) (c : Chip) : Chip := { c with rate := [(rateKey code unit, w)] }

/-- A state and operands that meet the hypotheses of `Obligations.AcknowledgementClampsAndSetsAlert`. -/
theorem wit_AcknowledgementClampsAndSetsAlert :
    (∃ (s : State) (last : Nat), (last = ((s.chip.reg R.evjNext).toNat + 2 ^ 32 - 1) % 2 ^ 32)) :=
  ⟨st (sev [(2, 4), (5, 9)] (part [(R.evjNext, 10), (R.evjAlert, 2), (R.evjStat, b 31)])), 9, by decide +kernel⟩

/-- States and operands that meet the hypotheses of `Obligations.QueuedEventsBecomeRecords`. -/
theorem wit_RateLimitWindowRaisesCountedEvents :
    (∃ (s : State) (t : Stamp) (code : Nat) (unit : Nat) (l : Stamp) (e : Ev) (n : Nat), (mapGet rateDefault s.chip.rate (rateKey code unit) = { last := some l, count := n, first := some e }) ∧ (elapsed t l nsPerS = true) ∧ (0 < n)) ∧
    (∃ (s : State) (t : Stamp) (code : Nat) (unit : Nat) (l : Stamp), ((mapGet rateDefault s.chip.rate (rateKey code unit)).last = some l) ∧ ((elapsed t l nsPerS = false ∨ (mapGet rateDefault s.chip.rate (rateKey code unit)).count = 0))) :=
  ⟨⟨st (win 0x3012 9 { last := some 5, count := 7, first := some ev1 } (part [])), 1000000005, 0x3012, 9, 5, ev1, 7, by decide +kernel⟩,
   ⟨st (win 0x3012 9 { last := some 5, count := 7, first := some ev1 } (part [])), 1000000004, 0x3012, 9, 5, by decide +kernel⟩⟩

/-- States and operands that meet the hypotheses of `Obligations.QueuedEventsBecomeRecords`. -/
theorem wit_OldestEventBecomesRecord :
    (∃ (s : State) (e : Ev) (rest : List Ev), (s.chip.evq = e :: rest) ∧ ((s.chip.bit R.evjStat 29 = true ∨ s.chip.jrn.kept.length < keptCap))) ∧
    (∃ (s : State) (e : Ev) (rest : List Ev) (sev : Nat) (acted : Bool), (s.chip.evq = e :: rest) ∧ (s.chip.bit R.evjStat 29 = false) ∧ (s.chip.jrn.kept.length < keptCap) ∧ ((contentBytes e.content).length ≤ 28) ∧ (sev = (match s.chip.policies e.code e.place.level with | p :: _ => p.severity | [] => 5)) ∧ (acted = (s.chip.policies e.code e.place.level).any (fun p => p.action != 0))) ∧
    (∃ (s : State) (e : Ev) (rest : List Ev) (sev : Nat) (acted : Bool) (a : Nat) (o : Nat), (s.chip.evq = e :: rest) ∧ (s.chip.bit R.evjStat 29 = true) ∧ ((contentBytes e.content).length ≤ 28) ∧ (sev = (match s.chip.policies e.code e.place.level with | p :: _ => p.severity | [] => 5)) ∧ (acted = (s.chip.policies e.code e.place.level).any (fun p => p.action != 0)) ∧ (a = s.chip.base40 R.evjRingLo R.evjRingHi + (s.chip.reg R.evjNext).toNat % 2 ^ s.chip.fld R.evjSize 4 0 * 64) ∧ (s.chip.passes ⟨22, 0, false, 1, 8, 0, a, 64, [], 0⟩) ∧ (s.chip.inDram a 64 = true) ∧ ((o + dramBase < a ∨ a + 64 ≤ o + dramBase))) ∧
    (∃ (s : State) (e : Ev) (rest : List Ev), (s.chip.evq = e :: rest) ∧ (s.chip.bit R.evjStat 29 = false) ∧ (keptCap ≤ s.chip.jrn.kept.length)) ∧
    (∃ (s : State), (s.chip.evq = [])) :=
  ⟨⟨st (evs [ev1, ev1] (kept 63 (part [(R.evjNext, 4294967295), (R.evjStat, 2)]))), ev1, [ev1], by decide +kernel⟩,
   ⟨st (evs [ev1, ev1] (kept 63 (part [(R.evjNext, 4294967295), (R.evjStat, 2)]))), ev1, [ev1], 5, false, by decide +kernel⟩,
   ⟨st (evs [ev1] (part [(R.evjNext, 17), (R.evjSize, 4), (R.evjStat, b 29 + 1), (R.evjRingHi, 0x10)])), ev1, [], 5, false, 0x1000000040, 128, by unfold Chip.passes; decide +kernel⟩,
   ⟨st (evs [ev1] (kept 64 (part [(R.evjStat, 1)]))), ev1, [], by decide +kernel⟩,
   ⟨st (part []), by decide +kernel⟩⟩

end F02

namespace F03

/-- The public key that signs the image of the tests. -/
def imgPub : List Byte := beBytes 96 0xc345f6efcf4004575285a73acb4bc4ce67b6a2ea453331f8198ac96be462e4d30cd400bba63bd50ea85cf6459f85ab0f0faab8cb347dec3c79c3901ed618748e05637b41c431b12934c121a4839d910fe8ec65389272f6b3389bf117e76f092e
/-- The fuses of a part that accepts that key. -/
def fz : Fuses := ⟨[sha384 imgPub, [], [], []], 0, 0, [], false, false⟩
/-- The fuses of a part with an alternative slot. -/
def fz2 : Fuses := Fuses.join ⟨[], 0, 0, [], false, false⟩ { fz with svn := 2, altEn := true }
/-- The table entry of an empty section of base firmware. -/
def fwEntry : List Byte := [1] ++ List.replicate 63 0 ++ sha384 [] ++ List.replicate 16 0
/-- A signed image with base firmware alone. -/
def img : FlashImage :=
  { header := [0x4E, 0x45, 0x55, 0x4E] ++ leBytes 2 1 ++ leBytes 2 1 ++ leBytes 4 4096 ++ [1, 3, 0, 0] ++ leBytes 16 0 ++ leBytes 4 0x09602000 ++ leBytes 28 0 ++ imgPub ++ leBytes 96 0,
    sections := [⟨fwEntry, [], true⟩],
    sig := beBytes 96 0xbfd152465458e5b9f1a903eafef03095ebfd52c5f9ea97be74de9194355fcfb40ec097315adf6afdefba21f44b625b48e727253d2f6d122eaf15f29a35fe4152bb7bfcb49d21bf323753d0da1f1f2bea660dd03e2aec1f7682d793c47d4a420a,
    readOk := true, fwOk := true }
def pit (f : Pitch → Pitch) (c : Chip) : Chip := { c with pitch := f c.pitch }
def valid : Chip := forL (((List.range 4).map R.dmcChmask ++ (List.range 2).map R.dmcBgmask ++ (List.range 2).map R.dmcBamask).zip homeBits) (fun m c => c.setNat m.1 (2 ^ m.2)) (part [(R.sysId, 0x09602000), (R.refPrio 0, b 31)])
def mu (l : List (Nat × RefInput)) (c : Chip) : Chip := { c with mui := { c.mui with inputs := l } }
def atStep (n : Nat) (c : Chip) : Chip := c.setFld R.pitStat 23 20 n
def fuse (f : Fuses) (c : Chip) : Chip := pit (fun p => { p with fuses := f }) c
/-- The rails in their tolerances. -/
def railsOk : List (Nat × Nat) := [(8000, 8000), (8000, 8000), (8000, 8000), (7500, 7500), (7500, 7500), (12000, 12000), (7500, 7500), (18000, 18000), (33000, 33000), (18000, 18000), (7500, 7500), (5000, 5000)]
def slotA (i : FlashImage) (c : Chip) : Chip := pit (fun p => { p with image := some i }) c
/-- A part at step 2 whose own image checks pass. -/
def cleared : Chip := fuse fz2 (atStep 2 valid)
/-- An image whose only section has a wrong digest. -/
def badImg : FlashImage := { img with sections := [⟨List.replicate 128 0, [], true⟩] }

/-- The checks read the image they are given, not the one the part holds. -/
theorem checkFail_slot (c : Chip) (j i : FlashImage) (t : Stamp) : ((slotA j c).at t).checkFail i = (c.at t).checkFail i := rfl

theorem img_boots : bootFail fz2 img = none := by decide +kernel

theorem img_passes : (cleared.at 4000000).checkFail img = none := by decide +kernel

/-- States and operands that meet the hypotheses of `Obligations.ResetLeavesResetValuesAndFuses`. -/
theorem wit_ResetLeavesResetValuesAndFuses :
    (∃ (s : State) (side : Nat) (rails : List (Nat × Nat)), (side < 2) ∧ (rails.length = 12) ∧ (railsWithin rails = true) ∧ (s.chip.pitch.held = true) ∧ (s.chip.pitch.resetLow = false)) ∧
    (∃ (s : State) (side : Nat) (rails : List (Nat × Nat)), (side < 2) ∧ (rails.length = 12) ∧ (railsWithin rails = true) ∧ (s.chip.pitch.held = true) ∧ (s.chip.pitch.resetLow = true)) ∧
    (∃ (s : State) (side : Nat) (rails : List (Nat × Nat)), (side < 2) ∧ (rails.length = 12) ∧ ((railsWithin rails = false ∨ s.chip.pitch.held = false))) ∧
    (∃ (s : State) (side : Nat), (side < 2) ∧ (s.chip.pitch.resetLow = true) ∧ (s.chip.pitch.held = false)) ∧
    (∃ (s : State) (side : Nat), (side < 2) ∧ (s.chip.pitch.resetLow = true) ∧ (s.chip.pitch.held = true)) ∧
    (∃ (s : State) (side : Nat), (side < 2) ∧ (s.chip.pitch.resetLow = false)) :=
  ⟨⟨st (part [(R.pitStat, 0x40000000), (R.muiStat, 3)]), 1, railsOk, by decide +kernel⟩,
   ⟨st (pit (fun p => { p with resetLow := true }) (part [])), 1, railsOk, by decide +kernel⟩,
   ⟨st (part []), 1, (8000, 8251) :: railsOk.drop 1, by decide +kernel⟩,
   ⟨st (pit (fun p => { p with resetLow := true, held := false, fromPower := false }) (part [(R.pitStat, 5)])), 0, by decide +kernel⟩,
   ⟨st (pit (fun p => { p with resetLow := true }) (part [(R.pitStat, 5)])), 0, by decide +kernel⟩,
   ⟨st (part [(R.pitStat, 5)]), 0, by decide +kernel⟩⟩

/-- States and operands that meet the hypotheses of `Obligations.PitchBootsChecksAppliesAndTrains`. -/
theorem wit_BootRomStartsAnImageOrHalts :
    (∃ (s : State) (f : Fuses) (a : FlashImage), (s.chip.atStep 1 = true) ∧ (s.chip.pitch.image = none) ∧ (bootFail (Fuses.join s.chip.pitch.fuses f) a = none)) ∧
    (∃ (s : State) (f : Fuses) (a : FlashImage) (b : FlashImage) (k : Nat) (cause : Nat), (s.chip.atStep 1 = true) ∧ (s.chip.pitch.image = none) ∧ (bootFail (Fuses.join s.chip.pitch.fuses f) a = some (k, cause)) ∧ ((s.chip.pitch.fuses.altEn || f.altEn) = true) ∧ (bootFail (Fuses.join s.chip.pitch.fuses f) b = none)) ∧
    (∃ (s : State) (f : Fuses) (a : FlashImage) (b : FlashImage) (k : Nat) (cause : Nat) (j : Nat) (other : Nat) (halt : Nat), (s.chip.atStep 1 = true) ∧ (s.chip.pitch.image = none) ∧ (bootFail (Fuses.join s.chip.pitch.fuses f) a = some (k, cause)) ∧ ((s.chip.pitch.fuses.altEn || f.altEn) = true) ∧ (bootFail (Fuses.join s.chip.pitch.fuses f) b = some (j, other)) ∧ (halt = (if other = 1 then cause else other))) ∧
    (∃ (s : State) (f : Fuses) (a : FlashImage) (k : Nat) (cause : Nat), (s.chip.atStep 1 = true) ∧ (s.chip.pitch.image = none) ∧ (bootFail (Fuses.join s.chip.pitch.fuses f) a = some (k, cause)) ∧ ((s.chip.pitch.fuses.altEn || f.altEn) = false)) ∧
    (∃ (s : State), ((s.chip.atStep 1 = false ∨ s.chip.pitch.image ≠ none))) :=
  ⟨⟨st (atStep 1 (part [])), { fz with svn := 2, altEn := true }, img, ⟨by decide +kernel, by decide +kernel, img_boots⟩⟩,
   ⟨st (atStep 1 (part [])), { fz with svn := 2, altEn := true }, { img with readOk := false }, img, 1, 10, ⟨by decide +kernel, by decide +kernel, by decide +kernel, by decide +kernel, img_boots⟩⟩,
   ⟨st (atStep 1 (part [])), { fz with svn := 2, altEn := true }, { img with header := [] }, { img with readOk := false }, 1, 1, 1, 10, 10, by decide +kernel⟩,
   ⟨st (atStep 1 (part [])), fz, { img with readOk := false }, 1, 10, by decide +kernel⟩,
   ⟨st (atStep 2 (part [])), by decide +kernel⟩⟩

/-- States and operands that meet the hypotheses of `Obligations.PitchBootsChecksAppliesAndTrains`. -/
theorem wit_PitchStepsEndOrHalt :
    (∃ (s : State) (checked : Stamp) (i : FlashImage) (cause : Nat) (p : Nat × Nat), (s.chip.atStep 2 = true) ∧ (s.chip.pitch.image = some i) ∧ ((s.chip.at checked).checkFail i = some (cause, p)) ∧ ((cause ≠ 6 ∨ s.chip.pitch.fuses.altEn = false ∨ s.chip.bit R.pitStat 28 = true))) ∧
    (∃ (s : State) (checked : Stamp) (i : FlashImage), (s.chip.atStep 2 = true) ∧ (s.chip.pitch.image = some i) ∧ ((s.chip.at checked).checkFail i = none)) ∧
    (∃ (s : State) (checked : Stamp) (i : FlashImage), (s.chip.atStep 2 = true) ∧ (s.chip.pitch.image = some i) ∧ ((s.chip.at checked).checkFail i = none)) ∧
    (∃ (s : State) (checked : Stamp) (b : FlashImage) (i : FlashImage) (p : Nat × Nat), (s.chip.atStep 2 = true) ∧ (s.chip.pitch.image = some i) ∧ ((s.chip.at checked).checkFail i = some (6, p)) ∧ (s.chip.pitch.fuses.altEn = true) ∧ (s.chip.bit R.pitStat 28 = false) ∧ (bootFail s.chip.pitch.fuses b = none) ∧ ((s.chip.at checked).checkFail b = none)) ∧
    (∃ (s : State), (s.chip.atStep 2 = false)) ∧
    (∃ (s : State) (t : Stamp) (loaded : Stamp) (trims : List (Nat × Nat × Word)), ((Instr.trainDone t [] trims loaded).wellFormed = true) ∧ (s.chip.pitch.applyAt ≠ none) ∧ (s.chip.pitch.trainDone = false) ∧ (s.chip.bit R.pitStat 30 = false)) ∧
    (∃ (s : State) (t : Stamp) (loaded : Stamp) (trims : List (Nat × Nat × Word)), ((Instr.trainDone t [] trims loaded).wellFormed = true) ∧ (s.chip.pitch.applyAt ≠ none) ∧ (s.chip.pitch.trainDone = false) ∧ (s.chip.bit R.pitStat 30 = false) ∧ (s.chip.rereadFail = none) ∧ (((s.chip.at loaded).runLoad).2 = true)) ∧
    (∃ (s : State) (t : Stamp) (loaded : Stamp) (n : Nat) (i : Nat) (k : Nat) (v : Word), ((Instr.trainDone t [] [(n, i, v)] loaded).wellFormed = true) ∧ (s.chip.pitch.applyAt ≠ none) ∧ (s.chip.pitch.trainDone = false) ∧ (s.chip.bit R.pitStat 30 = false) ∧ (s.chip.isSealed = false) ∧ (s.chip.rereadFail = some k)) ∧
    (∃ (s : State) (t : Stamp) (loaded : Stamp) (trims : List (Nat × Nat × Word)), ((Instr.trainDone t [] trims loaded).wellFormed = true) ∧ (s.chip.pitch.applyAt ≠ none) ∧ (s.chip.pitch.trainDone = false) ∧ (s.chip.bit R.pitStat 30 = false) ∧ (s.chip.rereadFail = none) ∧ (((s.chip.at loaded).runLoad).2 = false)) ∧
    (∃ (s : State) (t : Stamp) (loaded : Stamp) (bad : List (Nat × Nat)) (trims : List (Nat × Nat × Word)), ((Instr.trainDone t bad trims loaded).wellFormed = true) ∧ (bad ≠ []) ∧ (s.chip.isSealed = false) ∧ (s.chip.pitch.applyAt ≠ none) ∧ (s.chip.pitch.trainDone = false) ∧ (s.chip.bit R.pitStat 30 = false)) ∧
    (∃ (s : State) (t : Stamp) (loaded : Stamp) (bad : List (Nat × Nat)) (trims : List (Nat × Nat × Word)), ((Instr.trainDone t bad trims loaded).wellFormed = true) ∧ ((s.chip.pitch.applyAt = none ∨ s.chip.pitch.trainDone = true ∨ s.chip.bit R.pitStat 30 = true))) :=
  ⟨⟨st (pit (fun p => { p with image := some img }) (atStep 2 (part [(R.sysId, 5)]))), 4000000, img, 7, (0, 0), by decide +kernel⟩,
   ⟨st (slotA img cleared), 4000000, img, ⟨by decide +kernel, rfl, (checkFail_slot _ _ _ _).trans img_passes⟩⟩,
   ⟨st (slotA img cleared), 4000000, img, ⟨by decide +kernel, rfl, (checkFail_slot _ _ _ _).trans img_passes⟩⟩,
   ⟨st (slotA badImg cleared), 4000000, img, badImg, (0, 64), ⟨by decide +kernel, rfl, by decide +kernel, by decide +kernel, by decide +kernel, img_boots, (checkFail_slot _ _ _ _).trans img_passes⟩⟩,
   ⟨st (part []), by decide +kernel⟩,
   ⟨st (pit (fun p => { p with applyAt := some 3, trainDone := false, image := some img }) (part [])), 5000000, 9000000, [(15, 18, 7)], by decide +kernel⟩,
   ⟨st (pit (fun p => { p with applyAt := some 3, trainDone := false, image := some img }) (part [])), 5000000, 9000000, [(15, 18, 7)], by decide +kernel⟩,
   ⟨st (pit (fun p => { p with applyAt := some 3, trainDone := false, image := some { img with sections := [⟨[5] ++ List.replicate 127 0, [], false⟩] } }) (part [])), 5000000, 9000000, 15, 18, 0, 0x12345678, by decide +kernel⟩,
   ⟨st (pit (fun p => { p with applyAt := some 3, trainDone := false, image := some { img with sections := [⟨[5] ++ List.replicate 127 0, [1, 2, 3], true⟩] } }) ({ part [] with pruCur := [(23, 2 ^ 31)] })), 5000000, 9000000, [], by decide +kernel⟩,
   ⟨st (pit (fun p => { p with applyAt := some 3, trainDone := false }) (part [])), 5000000, 9000000, [(15, 6), (0, 1)], [(0, 19, 0x12345678)], by decide +kernel⟩,
   ⟨st (part []), 5000000, 9000000, [(15, 6)], [], by decide +kernel⟩⟩

/-- States and operands that meet the hypotheses of `Obligations.TimeIsSetHeadsRunAndPartSeals`. -/
theorem wit_TimeStepLoadsTheCounter :
    (∃ (s : State) (t : Stamp), (s.chip.pitch.timeDone = false) ∧ (s.chip.bit R.pitStat 30 = false) ∧ ((s.chip.at t).timeReady = true) ∧ ((s.chip.at t).bestAvailable = none)) ∧
    (∃ (s : State) (t : Stamp) (e : Nat) (k : Nat), (s.chip.pitch.timeDone = false) ∧ (s.chip.bit R.pitStat 30 = false) ∧ ((s.chip.at t).timeReady = true) ∧ ((s.chip.at t).bestAvailable = some e) ∧ ((s.chip.at t).entryInput e = some k)) ∧
    (∃ (s : State) (t : Stamp) (e : Nat) (k : Nat), (s.chip.pitch.timeDone = true) ∧ (s.chip.isSealed = false) ∧ (s.chip.bit R.pitStat 30 = false) ∧ ((s.chip.at t).reloadEntry = some e) ∧ ((s.chip.at t).entryInput e = some k)) ∧
    (∃ (s : State) (t : Stamp) (e : Nat), (s.chip.pitch.timeDone = true) ∧ (s.chip.isSealed = false) ∧ (s.chip.bit R.pitStat 30 = false) ∧ ((s.chip.at t).reloadEntry = some e)) ∧
    (∃ (s : State) (t : Stamp), (((s.chip.at t).reloadEntry = none ∨ s.chip.pitch.timeDone = false ∨ s.chip.isSealed = true ∨ s.chip.bit R.pitStat 30 = true))) ∧
    (∃ (s : State) (t : Stamp), ((s.chip.pitch.timeDone = true ∨ s.chip.bit R.pitStat 30 = true ∨ (s.chip.at t).timeReady = false))) :=
  ⟨⟨st (pit (fun p => { p with applyAt := some 3 }) (part [(R.pntFeedStat 255, b 31)])), 100000000000, by decide +kernel⟩,
   ⟨st (mu [(0, { seen := true })] (pit (fun p => { p with applyAt := some 3 }) (part [(R.refPrio 0, b 31), (R.refStat 0, 4)]))), 100000000000, 0, 0, by decide +kernel⟩,
   ⟨st { mu [(0, { seen := true })] (pit (fun p => { p with applyAt := some 3, timeDone := true }) (part [(R.muiStat, 5), (R.refPrio 0, b 31), (R.refStat 0, 4)])) with mui := { (mu [(0, { seen := true })] (part [])).mui with reload := some 0 } }, 100000000000, 0, 0, by decide +kernel⟩,
   ⟨st { mu [(0, { seen := true })] (pit (fun p => { p with applyAt := some 3, timeDone := true }) (part [(R.muiStat, 5), (R.refPrio 0, b 31), (R.refStat 0, 4)])) with mui := { (mu [(0, { seen := true })] (part [])).mui with reload := some 0 } }, 100000000000, 0, by decide +kernel⟩,
   ⟨st (part []), 5, by decide +kernel⟩,
   ⟨st (part []), 5, by decide +kernel⟩⟩

/-- States and operands that meet the hypotheses of `Obligations.TimeIsSetHeadsRunAndPartSeals`. -/
theorem wit_HeadsRunAndPartSeals :
    (∃ (s : State) (harts : List Nat), (s.chip.atStep 7 = true) ∧ (s.chip.pitch.headsBegun = false) ∧ (harts.all (fun h => decide (h < 8)) = true)) ∧
    (∃ (s : State) (harts : List Nat), ((s.chip.atStep 7 = false ∨ s.chip.pitch.headsBegun = true)) ∧ (harts.all (fun h => decide (h < 8)) = true)) ∧
    (∃ (s : State) (p : Nat), (p < 8) ∧ (p ∈ s.chip.pitch.initRun)) ∧
    (∃ (s : State) (p : Nat), (p < 8) ∧ (p ∈ s.chip.pitch.initRun)) ∧
    (∃ (s : State) (p : Nat), (p < 8) ∧ (p ∉ s.chip.pitch.initRun)) ∧
    (∃ (s : State) (t : Stamp) (x : Stamp), (s.chip.pitch.headsEnd = some x) ∧ (s.chip.fld R.muiStat 2 0 ≠ 2) ∧ (elapsed t x (s.chip.hdr 22 2 * nsPerS) = false)) ∧
    (∃ (s : State) (t : Stamp) (x : Stamp), (s.chip.pitch.headsEnd = some x) ∧ ((s.chip.fld R.muiStat 2 0 = 2 ∨ elapsed t x (s.chip.hdr 22 2 * nsPerS) = true)) ∧ (s.chip.atStep 7 = true) ∧ (s.chip.isSealed = false)) :=
  ⟨⟨st (pit (fun p => { p with image := some { img with sections := [⟨[5] ++ List.replicate 127 0, [], true⟩, ⟨[2] ++ List.replicate 127 0, leBytes 4 (R.hedCtl 31) ++ leBytes 4 (2 ^ 31), true⟩] } }) (atStep 7 (part [(R.hedCtl 31, b 31)]))), [0, 7], by decide +kernel⟩,
   ⟨st (part []), [0, 7], by decide +kernel⟩,
   ⟨st (pit (fun p => { p with initRun := [0, 7] }) (part [])), 7, by decide +kernel⟩,
   ⟨st (pit (fun p => { p with initRun := [0, 7] }) (part [])), 7, by decide +kernel⟩,
   ⟨st (pit (fun p => { p with initRun := [0] }) (part [])), 7, by decide +kernel⟩,
   ⟨st (pit (fun p => { p with headsEnd := some 0, image := some { img with header := leBytes 22 0 ++ [1, 0] } }) (part [])), 5, 0, by decide +kernel⟩,
   ⟨st (pit (fun p => { p with headsEnd := some 0, image := some img }) (atStep 7 (part [(R.muiStat, 2), (R.twnCfg, b 31 + 5)]))), 5, 0, by decide +kernel⟩⟩

end F03

namespace F05

def inp (k : Nat) (i : RefInput) (c : Chip) : Chip := c.modRefIn k (fun _ => i)
def ann : Announce := { sender := 77, gm := 5, rank := [1], clockClass := 6, utc := none }

/-- States and operands that meet the hypotheses of `Obligations.ReferenceInputsFailAndKeepTheirEdges`. -/
theorem wit_FailedInputTestIsKeptUntilEvaluation :
    (∃ (k : Nat), (k = 3 ∨ k = 4 ∨ k = 6)) ∧
    (∃ (s : State) (t : Stamp) (k : Nat) (edge : Nat), (3 ≤ k) ∧ (k ≤ 5) ∧ ((s.chip.refIn k).lastEdge = some edge) ∧ (elapsed t (edge / 256) 1000001000 = true)) ∧
    (∃ (p : Nat), (p < 2)) :=
  ⟨⟨3, by decide +kernel⟩,
   ⟨st (inp 5 { lastEdge := some 512, predicted := true, qualCount := 7 } (part [])), 1000001002, 5, 512, by decide +kernel⟩,
   ⟨1, by decide +kernel⟩⟩

/-- States and operands that meet the hypotheses of `Obligations.ReferenceInputsFailAndKeepTheirEdges`. -/
theorem wit_EdgesAndSentencesAreKeptByTheirInput :
    (∃ (k : Nat), (3 ≤ k) ∧ (k ≤ 5)) ∧
    (∃ (s : State) (k : Nat) (edge : Nat) (last : Nat) (phi : Int), (k = 3 ∨ k = 4) ∧ ((s.chip.refIn k).lastEdge = some last) ∧ (((edge : Int) - last - 256000000000).natAbs ≤ 256000) ∧ ((s.chip.refIn k).failing = []) ∧ ((s.chip.refIn k).predicted = false) ∧ (s.chip.refState k = 2) ∧ (phi = (edge : Int) - 256 * s.chip.sfld (R.refDly (k - 3)) 31 0 - ((edge : Int) - 256 * s.chip.sfld (R.refDly (k - 3)) 31 0 + 128000000000) / 256000000000 * 256000000000) ∧ ((s.chip.bit R.muiStat 8 = false ∨ (phi.natAbs : Int) ≤ s.chip.fld R.refQualPhase 31 16 * 1000 * 256))) :=
  ⟨⟨5, by decide +kernel⟩,
   ⟨st (inp 4 { lastEdge := some 256, firstFail := 0, failing := [], predicted := false, qualCount := 2 } (part [(R.refStat 4, 2)])), 4, 256000000256, 256, 256, by decide +kernel⟩⟩

/-- States and operands that meet the hypotheses of `Obligations.PtpSyncFromMasterIsAnswered`. -/
theorem wit_PtpSyncFromMasterIsAnswered :
    (∃ (s : State) (p : Nat) (sender : Nat) (v6 : Bool) (a : Announce), (p < 2) ∧ (v6 = s.chip.bit (R.refPtp p) 30) ∧ ((s.chip.ptp p).master = some a) ∧ (a.sender = sender) ∧ (s.chip.subportOn p 0 = true)) ∧
    (∃ (s : State) (p : Nat) (sender : Nat) (v6 : Bool) (a : Announce), (p < 2) ∧ (v6 = s.chip.bit (R.refPtp p) 30) ∧ ((s.chip.ptp p).master = some a) ∧ (a.sender = sender)) ∧
    (∃ (s : State) (p : Nat) (sender : Nat) (seq : Nat) (t2 : Nat) (v6 : Bool) (corr0 : Int) (a : Announce), (p < 2) ∧ (v6 = s.chip.bit (R.refPtp p) 30) ∧ ((s.chip.ptp p).master = some a) ∧ (a.sender = sender) ∧ (s.chip.subportOn p 0 = true) ∧ ((s.chip.ptp p).sync = some (sender, seq, none, t2, corr0))) ∧
    (∃ (s : State) (p : Nat) (sender : Nat) (seq : Nat) (t1 : Nat) (t2 : Nat) (v6 : Bool) (corr0 : Int) (a : Announce), (p < 2) ∧ (v6 = s.chip.bit (R.refPtp p) 30) ∧ ((s.chip.ptp p).master = some a) ∧ (a.sender = sender) ∧ ((s.chip.ptp p).sync = some (sender, seq, some t1, t2, corr0))) ∧
    (∃ (s : State) (p : Nat) (v6 : Bool), (p < 2) ∧ (v6 = s.chip.bit (R.refPtp p) 30)) ∧
    (∃ (s : State) (p : Nat) (domain : Nat) (sender : Nat) (v6 : Bool), (p < 2) ∧ ((v6 ≠ s.chip.bit (R.refPtp p) 30 ∨ domain ≠ s.chip.fld (R.refPtp p) 23 16 ∨ (s.chip.ptp p).master.map (·.sender) ≠ some sender))) ∧
    (∃ (p : Nat), (p < 2)) :=
  ⟨⟨st ((part [(R.netPort 1, b 31), (R.refPtp 1, b 29)]).modPtp 1 (fun q => { q with master := some ann })), 1, 77, false, ann, by decide +kernel⟩,
   ⟨st ((part []).modPtp 1 (fun q => { q with master := some ann })), 1, 77, false, ann, by decide +kernel⟩,
   ⟨st ((part [(R.netPort 1, b 31), (R.refPtp 1, b 30 + b 16 9)]).modPtp 1 (fun q => { q with master := some ann, sync := some (77, 9, none, 2, 5) })), 1, 77, 9, 2, true, 5, ann, by decide +kernel⟩,
   ⟨st ((part [(R.refPtpWin 1, 2)]).modPtp 1 (fun q => { q with master := some ann, window := [(5, 6)], sync := some (77, 9, some 1, 2, 5) })), 1, 77, 9, 1, 2, false, 5, ann, by decide +kernel⟩,
   ⟨st ((part []).modPtp 1 (fun q => { q with heard := [{ ann with rank := [0], sender := 78 }], qualGm := some 9 })), 1, false, by decide +kernel⟩,
   ⟨st ((part []).modPtp 1 (fun q => { q with master := some ann })), 1, 0, 78, false, by decide +kernel⟩,
   ⟨0, by decide +kernel⟩⟩

/-- States and operands that meet the hypotheses of `Obligations.QualifiedInputBecomesAvailable`. -/
theorem wit_QualifiedInputBecomesAvailable :
    (∃ (s : State) (t : Stamp) (k : Nat), (k < 7) ∧ ((s.chip.at t).qualified k = true) ∧ (((s.chip.refIn k).everAvail = false ∨ s.chip.entryOf k = none ∨ (∀ e, s.chip.entryOf k = some e → s.chip.fld (R.refPrio e) 11 0 = 0)))) ∧
    (∃ (s : State) (t : Stamp) (k : Nat) (e : Nat), (k < 7) ∧ ((s.chip.at t).qualified k = true) ∧ ((s.chip.refIn k).everAvail = true) ∧ (s.chip.entryOf k = some e) ∧ (0 < s.chip.fld (R.refPrio e) 11 0)) ∧
    (∃ (s : State) (t : Stamp) (k : Nat), (k < 7) ∧ ((s.chip.at t).qualified k = false)) ∧
    (∃ (s : State) (t : Stamp) (k : Nat), (k < 7) ∧ (s.chip.refState k = 3) ∧ (elapsed t (s.chip.refIn k).wtrEnd 0 = true) ∧ ((s.chip.refIn k).failing = []) ∧ ((s.chip.refIn k).firstFail = 0)) ∧
    (∃ (s : State) (t : Stamp) (k : Nat), (k < 7) ∧ ((s.chip.refState k ≠ 3 ∨ elapsed t (s.chip.refIn k).wtrEnd 0 = false ∨ (s.chip.refIn k).failing ≠ [] ∨ (s.chip.refIn k).firstFail ≠ 0))) :=
  ⟨⟨st (inp 3 { qualCount := 4 } (part [(R.refStat 3, b 28 9 + 2)])), 5, 3, by decide +kernel⟩,
   ⟨st (inp 3 { qualCount := 4, everAvail := true } (part [(R.refStat 3, b 28 9 + 2), (R.refPrio 0, 0), (R.refPrio 1, 0), (R.refPrio 2, b 31 + b 12 3 + 300)])), 5, 3, 2, by decide +kernel⟩,
   ⟨st (inp 3 { qualCount := 3 } (part [(R.refStat 3, b 28 9 + 2)])), 5, 3, by decide +kernel⟩,
   ⟨st (inp 3 { wtrEnd := 4 } (part [(R.refStat 3, b 28 9 + b 12 7 + 3)])), 5, 3, by decide +kernel⟩,
   ⟨st (inp 3 { wtrEnd := 4, failing := [2] } (part [(R.refStat 3, b 28 9 + b 12 7 + 3)])), 5, 3, by decide +kernel⟩⟩

/-- States and operands that meet the hypotheses of `Obligations.ReferenceCommandsWaitAndEvaluationsPublish`. -/
theorem wit_ReferenceCommandsWaitOrAreRefused :
    (∃ (s : State) (e : Nat), (e < 8) ∧ (s.chip.d2dUp = true) ∧ (s.chip.refCmdCause 1 e = 0)) ∧
    (∃ (s : State) (e : Nat), (e < 8) ∧ (s.chip.d2dUp = true) ∧ (s.chip.refCmdCause 2 e = 0)) ∧
    (∃ (s : State) (e : Nat), (e < 8) ∧ (s.chip.d2dUp = true) ∧ (s.chip.refCmdCause 3 e = 0)) ∧
    (∃ (s : State) (t : Stamp) (src : Source) (e : Nat) (n : Nat) (i : Instr), (e < 8) ∧ (s.chip.d2dUp = true) ∧ (((i = .force t src e ∧ n = 1) ∨ (i = .release t src e ∧ n = 2) ∨ (i = .skipWtr t src e ∧ n = 3))) ∧ (s.chip.refCmdCause n e ≠ 0)) ∧
    (∃ (s : State) (t : Stamp) (src : Source) (e : Nat) (n : Nat) (i : Instr), (e < 8) ∧ (s.chip.d2dUp = false) ∧ (s.chip.d2dDown.length < 256) ∧ (((i = .force t src e ∧ n = 1) ∨ (i = .release t src e ∧ n = 2) ∨ (i = .skipWtr t src e ∧ n = 3)))) :=
  ⟨⟨st (part [(R.sysD2dStat, b 31), (R.refPrio 2, b 31 + b 12 3), (R.refStat 3, 4)]), 2, by decide +kernel⟩,
   ⟨st { part [(R.sysD2dStat, b 31)] with mui := { (part []).mui with forced := some 4 } }, 2, by decide +kernel⟩,
   ⟨st (part [(R.sysD2dStat, b 31), (R.refPrio 2, b 31 + b 12 3), (R.refStat 3, 3)]), 2, by decide +kernel⟩,
   ⟨st (part [(R.sysD2dStat, b 31)]), 5, .mgt, 7, 3, .skipWtr 5 .mgt 7, by decide +kernel⟩,
   ⟨st (part []), 5, .mgt, 7, 3, .skipWtr 5 .mgt 7, by decide +kernel⟩⟩

/-- States and operands that meet the hypotheses of `Obligations.ReferenceCommandsWaitAndEvaluationsPublish`. -/
theorem wit_EvaluationPublishesMeasurements :
    (∃ (s : State), (s.chip.d2dUp = true)) ∧
    (∃ (s : State), (s.chip.d2dUp = false) ∧ (s.chip.d2dQueue.length < 256)) ∧
    (∃ (s : State) (k : Nat), (k < 7) ∧ (s.chip.entryOf k ≠ none) ∧ (2 ≤ s.chip.refState k) ∧ ((s.chip.refIn k).firstFail ≠ 0)) :=
  ⟨⟨st (part [(R.sysD2dStat, b 31), (R.muiStat, 2), (R.muiHold2, 5)]), by decide +kernel⟩,
   ⟨st (part [(R.muiStat, 2), (R.muiHold2, 5)]), by decide +kernel⟩,
   ⟨st (inp 3 { firstFail := 9, failing := [9] } (part [(R.sysD2dStat, b 31), (R.refPrio 2, b 31 + b 12 3), (R.refStat 3, 5), (R.muiStat, 2 + b 12 3 + b 15)])), 3, by decide +kernel⟩⟩

/-- States and operands that meet the hypotheses of `Obligations.LockAndHoldoverAreShownAndTold`. -/
theorem wit_LockTakesTheTimebaseToTethered :
    (∃ (s : State) (t : Stamp) (l : Stamp), (s.chip.mui.lockSince = some l) ∧ (elapsed t l (s.chip.fld R.muiLock 7 0 * 100000000) = true) ∧ (((s.chip.tbState = tbAcquiring ∧ s.chip.mui.schedDone = true) ∨ s.chip.tbState = tbPulling))) ∧
    (∃ (s : State) (t : Stamp) (l : Stamp), (s.chip.mui.lockSince = some l) ∧ (elapsed t l (s.chip.fld R.muiLock 7 0 * 100000000) = false)) ∧
    (∃ (s : State) (t : Stamp) (k : Nat), (s.chip.tbState = tbAcquiring) ∧ (s.chip.mui.schedDone = false) ∧ (elapsed t s.chip.mui.dwellEnd 0 = true) ∧ (s.chip.activeInput = some k) ∧ (s.chip.lockHolds k = true) ∧ (s.chip.mui.schedIndex < 7) ∧ (0 < s.chip.fld (R.muiBw (s.chip.mui.schedIndex + 1)) 31 16)) ∧
    (∃ (s : State) (t : Stamp) (k : Nat), (s.chip.tbState = tbAcquiring) ∧ (s.chip.mui.schedDone = false) ∧ (elapsed t s.chip.mui.dwellEnd 0 = true) ∧ (s.chip.activeInput = some k) ∧ (s.chip.lockHolds k = true) ∧ ((7 ≤ s.chip.mui.schedIndex ∨ s.chip.fld (R.muiBw (s.chip.mui.schedIndex + 1)) 31 16 = 0))) ∧
    (∃ (s : State) (t : Stamp), (s.chip.tbState = tbAcquiring) ∧ (s.chip.mui.schedDone = false) ∧ (elapsed t s.chip.mui.dwellEnd 0 = true) ∧ ((∀ k, s.chip.activeInput = some k → s.chip.lockHolds k = false)) ∧ (s.chip.mui.schedIndex < 8) ∧ (0 < s.chip.fld (R.muiBw s.chip.mui.schedIndex) 31 16)) ∧
    (∃ (s : State) (t : Stamp), ((s.chip.tbState ≠ tbAcquiring ∨ s.chip.mui.schedDone = true ∨ elapsed t s.chip.mui.dwellEnd 0 = false))) :=
  ⟨⟨st { part [(R.muiStat, 3 + b 12 5 + b 4 2 + b 15), (R.muiLock, 3)] with mui := { (part []).mui with lockSince := some 2 } }, 300000002, 2, by decide +kernel⟩,
   ⟨st { part [(R.muiStat, 3 + b 12 5 + b 4 2 + b 15), (R.muiLock, 3)] with mui := { (part []).mui with lockSince := some 2 } }, 300000001, 2, by decide +kernel⟩,
   ⟨st (inp 3 { phi := some 5 } { part [(R.muiStat, 1 + b 12 3 + b 15), (R.muiLock, b 16 3), (R.muiBw 1, b 16 5)] with mui := { (part []).mui with schedIndex := 0, dwellEnd := 4 } }), 5, 3, by decide +kernel⟩,
   ⟨st (inp 3 { phi := some 5 } { part [(R.muiStat, 1 + b 12 3 + b 15), (R.muiLock, b 16 3)] with mui := { (part []).mui with schedIndex := 7, dwellEnd := 4, lockSince := some 1 } }), 5, 3, by decide +kernel⟩,
   ⟨st (inp 3 { phi := some 50000 } { part [(R.muiStat, 1 + b 12 3 + b 15), (R.muiLock, b 16 3), (R.muiBw 0, b 16 5)] with mui := { (part []).mui with schedIndex := 0, dwellEnd := 4 } }), 5, by decide +kernel⟩,
   ⟨st { part [(R.muiStat, 1)] with mui := { (part []).mui with dwellEnd := 6 } }, 5, by decide +kernel⟩⟩

/-- States and operands that meet the hypotheses of `Obligations.LockAndHoldoverAreShownAndTold`. -/
theorem wit_HoldoverErrorIsShownAndTold :
    (∃ (s : State) (t : Stamp) (te : Nat), (s.chip.tbState = tbFreeFlight ∨ s.chip.tbState = tbFreeRun) ∧ (te = (s.chip.at t).teAfter (s.chip.at t).holdSeconds) ∧ (s.chip.mui.tePassed = false) ∧ (s.chip.fld R.muiHold2 15 0 * 1000 < te)) ∧
    (∃ (s : State) (t : Stamp) (te : Nat), (s.chip.tbState = tbFreeFlight ∨ s.chip.tbState = tbFreeRun) ∧ (te = (s.chip.at t).teAfter (s.chip.at t).holdSeconds) ∧ ((s.chip.mui.tePassed = true ∨ te ≤ s.chip.fld R.muiHold2 15 0 * 1000))) ∧
    (∃ (s : State), (s.chip.tbState ≠ tbFreeFlight) ∧ (s.chip.tbState ≠ tbFreeRun)) :=
  ⟨⟨st { part [(R.muiStat, 4 + b 12 3), (R.muiHold2, 0)] with mui := { (part []).mui with te0 := 1000, holdEntry := 0 } }, 5000000000, (({ part [(R.muiStat, 4 + b 12 3), (R.muiHold2, 0)] with mui := { (part []).mui with te0 := 1000, holdEntry := 0 } } : Chip).at 5000000000).teAfter 5, by decide +kernel⟩,
   ⟨st { part [(R.muiStat, 4 + b 12 3), (R.muiHold2, 0)] with mui := { (part []).mui with te0 := 1000, holdEntry := 0, tePassed := true } }, 5000000000, (({ part [(R.muiStat, 4 + b 12 3), (R.muiHold2, 0)] with mui := { (part []).mui with te0 := 1000, holdEntry := 0, tePassed := true } } : Chip).at 5000000000).teAfter 5, by decide +kernel⟩,
   ⟨st (part [(R.muiMeasTe, 7), (R.muiStat, 2)]), by decide +kernel⟩⟩

/-- States and operands that meet the hypotheses of `Obligations.TapsAndSerdesLoopReportTheirLoss`. -/
theorem wit_TapsAndSerdesLoopReportTheirLoss :
    (∃ (s : State) (err : Int), (10 < err.natAbs) ∧ (s.chip.bit R.muiStat 10 = true)) ∧
    (∃ (s : State) (err : Int), (10 < err.natAbs) ∧ (s.chip.bit R.muiStat 10 = false)) ∧
    (∃ (err : Int), (err.natAbs ≤ 10)) ∧
    (∃ (s : State) (taps : List (Nat × Int × Nat)), (taps.all (fun e => decide (e.1 < 71)) = true) ∧ (s.chip.mui.loadMark = true)) ∧
    (∃ (s : State) (taps : List (Nat × Int × Nat)), (taps.all (fun e => decide (e.1 < 71)) = true) ∧ (s.chip.mui.loadMark = false) ∧ ((taps.map (fun e => e.1)).Nodup) ∧ (mapWf tapDefault s.chip.taps)) :=
  ⟨⟨st (part [(R.muiStat, 0xFFFFFFFF)]), -11, by decide +kernel⟩,
   ⟨st (part []), -11, by decide +kernel⟩,
   ⟨-10, by decide +kernel⟩,
   ⟨st { part [] with mui := { (part []).mui with loadMark := true }, taps := [(4, { offset := 5, trim := 0 })] }, [(4, 9, 8)], by decide +kernel⟩,
   ⟨st { part [] with taps := [(4, { offset := 5, trim := 0 })] }, [(70, 2008, 8), (1, -2626, 8), (0, 1, 8), (3, 4500, 8), (4, 0, 5)], by decide +kernel⟩⟩

end F05

namespace F06

def hdst (h : Nat) (m : Head) (c : Chip) : Chip := { c with heads := [(h, m)] }
def hregs : List (Nat × Nat) := [(R.hedPeriod 31, 1000), (R.hedCtl 31, b 31), (R.hedVtim 31, b 16 70 + 64), (R.hedHtim 31, b 16 40 + 32), (R.pitStat, b 31), (R.cmpBgCur 31, 0x12345)]
def hel (e : Nat) (k : Nat) (c : Chip) : Chip := { c with curElem := [(e, leBytes 4 (b 31 + b 28 k + b 23 31 + b 19 (if k = 2 then 8 else 1)) ++ leBytes 4 0 ++ leBytes 4 (b 16 8 + 8) ++ List.replicate 20 0)] }
def sige (sig : Nat) (l : List (Nat × Bool × Nat)) : SigEntry := ⟨31, 77, false, sig, l⟩
def own (l : List SigEntry) (c : Chip) : Chip := { c with twn := { c.twn with sigOwn := l } }

/-- States and operands that meet the hypotheses of `Obligations.HeadFrameBeginsAndMeetsItsCommit`. -/
theorem wit_HeadFrameBeginsAndMeetsItsCommit :
    (∃ (s : State) (t : Stamp) (h : Nat) (k : Nat), (h < 32) ∧ ((s.chip.headRun h = 1 ∨ (s.chip.headRun h = 2 ∧ (s.chip.head h).restart = false))) ∧ (s.chip.bit (R.hedCtl h) 31 = true) ∧ (k = max (s.chip.nextFrame h) (s.chip.gridLast h t)) ∧ ((s.chip.frameStart h k).1 ≤ t)) ∧
    (∃ (s : State) (t : Stamp) (h : Nat) (k : Nat), (h < 32) ∧ ((s.chip.headRun h = 1 ∨ (s.chip.headRun h = 2 ∧ (s.chip.head h).restart = false))) ∧ (s.chip.bit (R.hedCtl h) 31 = true) ∧ (k = max (s.chip.nextFrame h) (s.chip.gridLast h t)) ∧ ((s.chip.frameStart h k).1 ≤ t) ∧ (s.chip.bit (R.cmpStat h) 31 = false) ∧ ((s.chip.head h).withdrawn = none) ∧ ((∀ p ∈ s.chip.peg.pegs, p.queue ≠ h)) ∧ (s.chip.bit (R.cmpWb h) 31 = false) ∧ (s.chip.headElems h = [])) ∧
    (∃ (s : State) (t : Stamp) (h : Nat) (k : Nat), (h < 32) ∧ ((s.chip.headRun h = 1 ∨ (s.chip.headRun h = 2 ∧ (s.chip.head h).restart = false))) ∧ (s.chip.bit (R.hedCtl h) 31 = true) ∧ (k = max (s.chip.nextFrame h) (s.chip.gridLast h t)) ∧ ((s.chip.frameStart h k).1 ≤ t) ∧ ((∀ p ∈ s.chip.peg.pegs, p.queue ≠ h)) ∧ (s.chip.bit (R.cmpStat h) 31 = true) ∧ ((s.chip.head h).reqAt < (s.chip.frameStart h k).1) ∧ (s.chip.commitFail h = none)) ∧
    (∃ (s : State) (t : Stamp) (h : Nat) (k : Nat) (cause : Nat) (index : Nat) (n : Nat), (h < 32) ∧ ((s.chip.headRun h = 1 ∨ (s.chip.headRun h = 2 ∧ (s.chip.head h).restart = false))) ∧ (s.chip.bit (R.hedCtl h) 31 = true) ∧ (k = max (s.chip.nextFrame h) (s.chip.gridLast h t)) ∧ ((s.chip.frameStart h k).1 ≤ t) ∧ ((∀ p ∈ s.chip.peg.pegs, p.queue ≠ h)) ∧ (s.chip.bit (R.cmpStat h) 31 = true) ∧ ((s.chip.head h).reqAt < (s.chip.frameStart h k).1) ∧ (s.chip.commitFail h = some (cause, index, n))) ∧
    (∃ (s : State) (t : Stamp) (h : Nat), (h < 32) ∧ (s.chip.headRun h = 2) ∧ ((s.chip.head h).restart = false) ∧ (s.chip.bit (R.hedCtl h) 31 = true) ∧ ((s.chip.frameStart h (max ((s.chip.head h).k + 1) (s.chip.gridLast h t))).1 ≤ t)) ∧
    (∃ (s : State) (t : Stamp) (h : Nat), (h < 32) ∧ ((s.chip.headRun h = 1 ∨ (s.chip.headRun h = 2 ∧ (s.chip.head h).restart = false))) ∧ (s.chip.bit (R.hedCtl h) 31 = false) ∧ ((s.chip.frameStart h (max (s.chip.nextFrame h) (s.chip.gridLast h t))).1 ≤ t)) ∧
    (∃ (s : State) (h : Nat), (h < 32) ∧ (s.chip.headRun h = 2) ∧ ((s.chip.head h).restart = true)) ∧
    (∃ (s : State) (t : Stamp) (h : Nat), (h < 32) ∧ ((s.chip.headRun h = 0 ∨ ((s.chip.head h).restart = false ∧ t < (s.chip.frameStart h (max (s.chip.nextFrame h) (s.chip.gridLast h t))).1)))) :=
  ⟨⟨st (hdst 31 { k := 4, fills := [(0, 0, none)] } (part (hregs ++ [(R.hedStat 31, b 30 2)]))), 9000, 31, 9, by decide +kernel⟩,
   ⟨st (hdst 31 { k := 4, fills := [(0, 0, none)] } (part (hregs ++ [(R.hedStat 31, b 30 2)]))), 9000, 31, 9, by decide +kernel⟩,
   ⟨st ((hdst 31 { k := 4 } (part (hregs ++ [(R.hedStat 31, b 30 2), (R.cmpStat 31, b 31), (R.cmpBg 31, 77)]))).tbwWrite (twElem 5) (leBytes 4 (b 23 31))), 9000, 31, 9, by decide +kernel⟩,
   ⟨st ((hdst 31 { k := 4 } (part (hregs ++ [(R.hedStat 31, b 30 2), (R.cmpStat 31, b 31), (R.cmpBg 31, 77)]))).tbwWrite (twElem 5) (leBytes 4 (b 31 + b 23 31))), 9000, 31, 9, 1, 5, 0, by decide +kernel⟩,
   ⟨st (hdst 31 { k := 4, raster := 7 } (part (hregs ++ [(R.hedStat 31, b 30 2)]))), 9000, 31, by decide +kernel⟩,
   ⟨st (hdst 31 { k := 4 } (part (hregs ++ [(R.hedStat 31, b 30 2), (R.hedCtl 31, 0)]))), 9000, 31, by decide +kernel⟩,
   ⟨st (hdst 31 { k := 4, restart := true } (part (hregs ++ [(R.hedStat 31, b 30 2), (R.hedCtl 31, 0)]))), 31, by decide +kernel⟩,
   ⟨st (part hregs), 9000, 31, by decide +kernel⟩⟩

/-- States and operands that meet the hypotheses of `Obligations.LinesFetchesAndFrameEndAreKept`. -/
theorem wit_LinesFetchesAndFrameEndAreKept :
    (∃ (s : State) (h : Nat) (n : Nat), (h < 32) ∧ ((s.chip.head h).inFrame = true) ∧ ((s.chip.head h).nextLine ≤ n) ∧ (n < s.chip.vTotal h)) ∧
    (∃ (s : State) (h : Nat) (n : Nat) (i : Nat), (h < 32) ∧ (i < 2) ∧ ((s.chip.head h).inFrame = true) ∧ ((s.chip.head h).nextLine = n) ∧ (n < s.chip.vStart h) ∧ (n < s.chip.vTotal h) ∧ ((∀ p ∈ s.chip.peg.pegs, p.queue ≠ 32 + h)) ∧ (s.chip.bit (R.hedLcmp h i) 31 = true) ∧ (s.chip.fld (R.hedLcmp h i) 15 0 = n)) ∧
    (∃ (s : State) (h : Nat) (n : Nat) (row : List Composed), (h < 32) ∧ ((s.chip.head h).inFrame = true) ∧ ((s.chip.head h).nextLine = n) ∧ (s.chip.vStart h ≤ n) ∧ (n < s.chip.vTotal h) ∧ ((∀ p ∈ s.chip.peg.pegs, p.queue ≠ 32 + h)) ∧ ((s.chip.head h).rows.find? (fun r => r.1 == n - s.chip.vStart h) = some (n - s.chip.vStart h, row))) ∧
    (∃ (s : State) (h : Nat) (n : Nat), (h < 32) ∧ (((s.chip.head h).inFrame = false ∨ n < (s.chip.head h).nextLine ∨ s.chip.vTotal h ≤ n))) ∧
    (∃ (s : State) (h : Nat) (tx : Nat) (ty : Nat) (e : Option Nat), (h < 32) ∧ ((s.chip.head h).inFrame = true) ∧ (tx < s.chip.tileCols h) ∧ (ty < s.chip.tileRows h) ∧ (ty ∉ (s.chip.head h).checked) ∧ ((s.chip.head h).issued ty = true) ∧ (e ∈ s.chip.needed h (s.chip.mapElems h) tx ty) ∧ ((s.chip.head h).has tx ty e = false)) ∧
    (∃ (s : State) (h : Nat) (tx : Nat) (ty : Nat) (e : Nat), (h < 32) ∧ ((s.chip.head h).inFrame = true) ∧ (tx < s.chip.tileCols h) ∧ (ty < s.chip.tileRows h) ∧ (ty ∉ (s.chip.head h).checked) ∧ ((s.chip.head h).issued ty = true) ∧ (some e ∈ s.chip.needed h (s.chip.mapElems h) tx ty) ∧ ((s.chip.head h).has tx ty (some e) = false)) ∧
    (∃ (s : State) (h : Nat) (tx : Nat) (ty : Nat) (e : Option Nat) (f : Bool), (h < 32) ∧ (((s.chip.head h).inFrame = false ∨ ty ∈ (s.chip.head h).checked ∨ (s.chip.head h).issued ty = false ∨ e ∉ s.chip.needed h (s.chip.mapElems h) tx ty ∨ (s.chip.head h).has tx ty e = true ∨ (e = none ∧ f = true)))) ∧
    (∃ (s : State) (h : Nat) (wb : Nat), (h < 32) ∧ (wb < 3) ∧ ((s.chip.head h).inFrame = true)) ∧
    (∃ (s : State) (h : Nat) (wb : Nat), (h < 32) ∧ (wb < 3) ∧ ((s.chip.head h).inFrame = true) ∧ ((s.chip.head h).nextLine = s.chip.vTotal h)) ∧
    (∃ (s : State) (h : Nat) (wb : Nat), (h < 32) ∧ (wb < 3) ∧ ((s.chip.head h).inFrame = false)) :=
  ⟨⟨st (hdst 31 { inFrame := true, nextLine := 4 } (part (hregs ++ [(R.hedLcmp 31 1, b 31 + 4)]))), 31, 9, by decide +kernel⟩,
   ⟨st (hdst 31 { inFrame := true, nextLine := 4 } (part (hregs ++ [(R.hedLcmp 31 1, b 31 + 4)]))), 31, 4, 1, by decide +kernel⟩,
   ⟨st (hdst 31 { inFrame := true, live := true, nextLine := 69, nextRow := 64, rows := [(63, [⟨⟨1, 2, 3, 255⟩, ⟨1, 2, 3, 255⟩, ⟨4, 5, 6, 255⟩, ⟨4, 5, 6, 255⟩⟩])] } (part hregs)), 31, 69, [⟨⟨1, 2, 3, 255⟩, ⟨1, 2, 3, 255⟩, ⟨4, 5, 6, 255⟩, ⟨4, 5, 6, 255⟩⟩], by decide +kernel⟩,
   ⟨st (hdst 31 { inFrame := true, nextLine := 69 } (part hregs)), 31, 68, by decide +kernel⟩,
   ⟨st (hdst 31 { inFrame := true, checked := [0] } (part hregs)), 31, 0, 1, none, by decide +kernel⟩,
   ⟨st ((hel 9 2 (hdst 31 { inFrame := true } (part hregs))).buildMap 31), 31, 0, 0, 9, by decide +kernel⟩,
   ⟨st (hdst 31 { inFrame := true, checked := [0] } (part hregs)), 31, 0, 0, none, false, by decide +kernel⟩,
   ⟨st (hdst 31 { inFrame := true, nextLine := 68, nextRow := 63, k := 6, sig := 99 } (part hregs)), 31, 1, by decide +kernel⟩,
   ⟨st (hdst 31 { inFrame := true, nextLine := 70, k := 6, sig := 99 } (part hregs)), 31, 0, by decide +kernel⟩,
   ⟨st (part hregs), 31, 2, by decide +kernel⟩⟩

/-- States and operands that meet the hypotheses of `Obligations.MissesAndTwinSignaturesAreCounted`. -/
theorem wit_MissesAreCountedOnceInAFrame :
    (∃ (s : State) (h : Nat) (e : Nat), (h < 32) ∧ (e < 524288) ∧ ((s.chip.elem e).en = true) ∧ ((s.chip.elem e).head = h) ∧ (e ∉ (s.chip.head h).missed)) ∧
    (∃ (s : State) (h : Nat) (e : Nat), (h < 32) ∧ (e < 524288) ∧ (((s.chip.elem e).en = false ∨ (s.chip.elem e).head ≠ h ∨ e ∈ (s.chip.head h).missed))) ∧
    (∃ (s : State) (h : Nat) (e : Nat), (h < 32) ∧ (e < 524288) ∧ ((s.chip.elem e).en = true) ∧ ((s.chip.elem e).head = h) ∧ ((s.chip.elem e).kind = 2) ∧ (e ∉ (s.chip.head h).glyphMissed)) ∧
    (∃ (s : State) (h : Nat) (e : Nat) (a : Nat) (l : List Byte), (h < 32) ∧ (e < 524288) ∧ ((s.chip.elem e).en = true) ∧ ((s.chip.elem e).head = h) ∧ ((s.chip.elem e).kind = 2) ∧ (e ∉ (s.chip.head h).glyphMissed) ∧ ((s.chip.head h).undo = [(e, a, l)]) ∧ (s.chip.inDram a l.length = true)) ∧
    (∃ (s : State) (h : Nat) (e : Nat), (h < 32) ∧ (e < 524288) ∧ (((s.chip.elem e).en = false ∨ (s.chip.elem e).head ≠ h ∨ (s.chip.elem e).kind ≠ 2 ∨ e ∈ (s.chip.head h).glyphMissed))) ∧
    (∃ (s : State) (t : Stamp) (h : Nat), (h < 32) ∧ ((s.chip.head h).inFrame = true) ∧ (elapsed t (s.chip.frameStart h (s.chip.head h).k).1 (s.chip.fld R.dmcPanic 7 0 * 1000) = true)) ∧
    (∃ (s : State) (t : Stamp) (h : Nat), (h < 32) ∧ ((s.chip.head h).inFrame = true) ∧ (elapsed t (s.chip.frameStart h (s.chip.head h).k).1 (s.chip.fld R.dmcPanic 7 0 * 1000) = true) ∧ (s.chip.mem.chans = []) ∧ (s.chip.mem.waiting = [])) ∧
    (∃ (s : State) (t : Stamp) (h : Nat), (h < 32) ∧ (((s.chip.head h).inFrame = false ∨ elapsed t (s.chip.frameStart h (s.chip.head h).k).1 (s.chip.fld R.dmcPanic 7 0 * 1000) = false))) :=
  ⟨⟨st (hel 524287 1 (part hregs)), 31, 524287, by decide +kernel⟩,
   ⟨st (part hregs), 31, 524287, by decide +kernel⟩,
   ⟨st (hel 4 2 (part hregs)), 31, 4, by decide +kernel⟩,
   ⟨st (hel 4 2 (hdst 31 { undo := [(4, 0x1000000040, [5, 6])] } (part hregs))), 31, 4, 0x1000000040, [5, 6], by decide +kernel⟩,
   ⟨st (hel 4 1 (part hregs)), 31, 4, by decide +kernel⟩,
   ⟨st (hdst 31 { inFrame := true, k := 2 } (part hregs)), 202000, 31, by decide +kernel⟩,
   ⟨st (hdst 31 { inFrame := true, k := 2 } (part hregs)), 202000, 31, by decide +kernel⟩,
   ⟨st (part hregs), 202000, 31, by decide +kernel⟩⟩

/-- States and operands that meet the hypotheses of `Obligations.MissesAndTwinSignaturesAreCounted`. -/
theorem wit_TwinSignaturesAreCompared :
    (∃ (s : State) (t : Stamp) (msg : List Byte) (h : Nat) (start : Stamp), ((Instr.sigxReceive t msg).wellFormed = true) ∧ (s.chip.twinOn = true) ∧ (h = leAt msg 0 1) ∧ (start = leAt msg 8 8) ∧ ((∃ x ∈ s.chip.twn.sigOwn, x.head = h ∧ x.start = start))) ∧
    (∃ (s : State) (t : Stamp) (msg : List Byte) (h : Nat) (start : Stamp), ((Instr.sigxReceive t msg).wellFormed = true) ∧ (s.chip.twinOn = true) ∧ (h = leAt msg 0 1) ∧ (start = leAt msg 8 8) ∧ (s.chip.headRun h = 2) ∧ ((∀ x ∈ s.chip.twn.sigOwn, x.head = h → x.start ≠ start))) ∧
    (∃ (s : State) (h : Nat) (sig : Nat) (start : Stamp) (e : SigEntry), (h < 32) ∧ (start < 2 ^ 64) ∧ (sig < 2 ^ 32) ∧ (s.chip.twinOn = true) ∧ (s.chip.twn.sigOwn = [e]) ∧ (e.head = h) ∧ (e.start = start) ∧ (e.lostSel = false) ∧ (e.sig = sig) ∧ (e.regions = [])) ∧
    (∃ (s : State) (h : Nat) (sig : Nat) (start : Stamp) (e : SigEntry), (h < 32) ∧ (start < 2 ^ 64) ∧ (sig < 2 ^ 32) ∧ (s.chip.twinOn = true) ∧ (s.chip.twn.sigOwn = [e]) ∧ (e.head = h) ∧ (e.start = start) ∧ (e.lostSel = false) ∧ (e.sig ≠ sig) ∧ (e.regions = [])) ∧
    (∃ (s : State) (h : Nat) (sig : Nat) (r : Nat) (own : Nat) (crc : Nat) (start : Stamp) (e : SigEntry), (h < 32) ∧ (start < 2 ^ 64) ∧ (sig < 2 ^ 32) ∧ (r < 1024) ∧ (crc < 2 ^ 32) ∧ (own ≠ crc) ∧ (s.chip.twinOn = true) ∧ (s.chip.twn.sigOwn = [e]) ∧ (e.head = h) ∧ (e.start = start) ∧ (e.lostSel = false) ∧ (e.sig = sig) ∧ (e.regions = [(r, true, own)])) ∧
    (∃ (s : State) (t : Stamp) (msg : List Byte), ((Instr.sigxReceive t msg).wellFormed = true) ∧ ((s.chip.twinOn = false ∨ (s.chip.headRun (leAt msg 0 1) ≠ 2 ∧ ∀ x ∈ s.chip.twn.sigOwn, x.head = leAt msg 0 1 → x.start ≠ leAt msg 8 8)))) :=
  ⟨⟨st (own [sige 4294967295 []] (part (hregs ++ [(R.twnCfg, b 31)]))), 9, [31, 0, 0, 0] ++ leBytes 4 0 ++ leBytes 8 77 ++ leBytes 8 5, 31, 77, by decide +kernel⟩,
   ⟨st (part (hregs ++ [(R.hedStat 31, b 30 2), (R.twnCfg, b 31)])), 9, [31, 1, 0, 0] ++ leBytes 4 0 ++ leBytes 8 77 ++ leBytes 8 5, 31, 77, by decide +kernel⟩,
   ⟨st (own [sige 4294967295 []] (part (hregs ++ [(R.twnCfg, b 31)]))), 31, 4294967295, 77, sige 4294967295 [], by decide +kernel⟩,
   ⟨st (own [sige 4 []] (part (hregs ++ [(R.twnCfg, b 31)]))), 31, 4294967295, 77, sige 4 [], by decide +kernel⟩,
   ⟨st (own [sige 4 [(1023, true, 8)]] (part (hregs ++ [(R.twnCfg, b 31)]))), 31, 4, 1023, 8, 9, 77, sige 4 [(1023, true, 8)], by decide +kernel⟩,
   ⟨st (part (hregs ++ [(R.twnCfg, b 31)])), 9, [31, 0, 0, 0] ++ leBytes 4 0 ++ leBytes 8 77 ++ leBytes 8 5, by decide +kernel⟩⟩

end F06

namespace F07

/-- Slot 9 of kind 2 with four buffers and its records at the start of DRAM. -/
def slot9 : Chip := part [(R.srcCfg 9, b 31 + b 28 2 + b 8 4), (R.srcRecHi 9, 0x10), (R.srcPoolHi 9, 0x10), (R.srcPoolLo 9, 0x100000), (R.srcGeom 9, b 16 1 + 1)]
def recWith (n i : Nat) (r : FrameRec) (c : Chip) : Chip := c.putFrameRec n i r
def frec (code : Nat) : FrameRec := ⟨5, 6, 7, 0, 9, 12, code, false, false, false, 0⟩
def agr (n : Nat) (l : List Agree) (c : Chip) : Chip := c.modSlot n (fun s => { s with agree := l })

/-- States and operands that meet the hypotheses of `Obligations.FramesBeginFinishAndBecomeEligible`. -/
theorem wit_FrameBeginTakesAFreeBuffer :
    (∃ (s : State) (n : Nat) (i : Nat), (n < 256) ∧ (s.chip.slotKind n ≠ 0) ∧ (s.chip.slotKind n ≠ 7) ∧ (s.chip.freeBuf n = some i)) ∧
    (∃ (s : State) (n : Nat), (n < 256) ∧ (s.chip.slotKind n ≠ 0) ∧ (s.chip.slotKind n ≠ 7) ∧ (s.chip.freeBuf n = none)) ∧
    (∃ (s : State) (n : Nat), (n < 256) ∧ ((s.chip.slotKind n = 0 ∨ s.chip.slotKind n = 7))) :=
  ⟨⟨st slot9, 9, 0, by decide +kernel⟩,
   ⟨st (part [(R.srcCfg 9, b 31 + b 28 2)]), 9, by decide +kernel⟩,
   ⟨st (part [(R.srcCfg 9, b 31 + b 28 7)]), 9, by decide +kernel⟩⟩

/-- States and operands that meet the hypotheses of `Obligations.FramesBeginFinishAndBecomeEligible`. -/
theorem wit_FrameFinishAndEligibilityAreRecorded :
    (∃ (s : State) (n : Nat) (i : Nat) (code : Nat) (cause : Nat) (l : List (Nat × List Byte)), (n < 256) ∧ (i < 32) ∧ (2 ≤ code) ∧ (code ≤ 6) ∧ (cause < 16) ∧ ((s.chip.frameRec n i).code = 1) ∧ (s.chip.isBeyond (s.chip.bufPic n i).base (frameBytes (s.chip.bufPic n i).fmt (s.chip.bufPic n i).w (s.chip.bufPic n i).h) = false) ∧ ((∀ e ∈ l, s.chip.bufAddr n i + e.1 + e.2.length ≤ s.chip.recAddr n i ∨ s.chip.recAddr n i + 48 ≤ s.chip.bufAddr n i + e.1))) ∧
    (∃ (s : State) (n : Nat) (i : Nat) (code : Nat) (cause : Nat), (n < 256) ∧ (i < 32) ∧ (2 ≤ code) ∧ (code ≤ 6) ∧ (cause < 16) ∧ ((s.chip.frameRec n i).code = 1) ∧ (s.chip.isBeyond (s.chip.bufPic n i).base (frameBytes (s.chip.bufPic n i).fmt (s.chip.bufPic n i).w (s.chip.bufPic n i).h) = true)) ∧
    (∃ (s : State) (n : Nat) (i : Nat) (code : Nat) (cause : Nat), (n < 256) ∧ (i < 32) ∧ (2 ≤ code) ∧ (code ≤ 6) ∧ (cause < 16) ∧ ((s.chip.frameRec n i).code ≠ 1)) ∧
    (∃ (s : State) (t : Stamp) (n : Nat) (i : Nat), (n < 256) ∧ (i < 32) ∧ ((s.chip.frameRec n i).code = 2) ∧ ((s.chip.frameRec n i).elig ≠ 0) ∧ (0 ≤ stampGap t (s.chip.frameRec n i).elig)) ∧
    (∃ (s : State) (t : Stamp) (n : Nat) (i : Nat), (n < 256) ∧ (i < 32) ∧ (((s.chip.frameRec n i).code ≠ 2 ∨ (s.chip.frameRec n i).elig = 0 ∨ stampGap t (s.chip.frameRec n i).elig < 0))) :=
  ⟨⟨st (recWith 9 3 (frec 1) slot9), 9, 3, 2, 0, [(0, [1, 2, 3])], by decide +kernel⟩,
   ⟨st ((recWith 9 0 (frec 1) slot9).setReg (R.srcPoolHi 9) 0x13 |>.setReg (R.srcPoolLo 9) 0xFFFFFF00 |>.setReg R.dmcCfg (BitVec.ofNat 32 (b 30)) |>.setReg (R.srcGeom 9) (BitVec.ofNat 32 (b 16 640 + 480))), 9, 0, 2, 0, by decide +kernel⟩,
   ⟨st (recWith 9 3 (frec 2) slot9), 9, 3, 6, 15, by decide +kernel⟩,
   ⟨st (recWith 9 3 { frec 2 with elig := 30 } slot9), 50, 9, 3, by decide +kernel⟩,
   ⟨st (recWith 9 3 { frec 2 with elig := 0 } slot9), 50, 9, 3, by decide +kernel⟩⟩

/-- States and operands that meet the hypotheses of `Obligations.NoticesWaitForBothVerdicts`. -/
theorem wit_NoticesWaitForBothVerdicts :
    (∃ (s : State) (l : List Byte), (l.length = 32) ∧ (s.chip.twinOn = true) ∧ ((s.chip.agreed (leAt l 0 1) && s.chip.paired) = false)) ∧
    (∃ (s : State) (l : List Byte), (l.length = 32) ∧ (s.chip.twinOn = false) ∧ ((s.chip.agreed (leAt l 0 1) && s.chip.paired) = false)) ∧
    (∃ (s : State) (l : List Byte), (l.length = 32) ∧ (s.chip.twinOn = true) ∧ ((s.chip.agreed (leAt l 0 1) && s.chip.paired) = true) ∧ ((∀ a ∈ (s.chip.slot (leAt l 0 1)).agree, a.key ≠ leAt l 4 4)) ∧ ((∀ a ∈ (s.chip.slot (leAt l 0 1)).agree, a.own = none ∨ a.twin = none))) ∧
    (∃ (s : State) (n : Nat) (i : Nat) (seq : Nat) (key : Nat) (sig : Nat) (cap : Stamp) (stamp : Stamp) (own : Verdict), (n < 256) ∧ (i < 32) ∧ (key < 2 ^ 32) ∧ (cap < 2 ^ 64) ∧ (stamp < 2 ^ 64) ∧ (sig < 2 ^ 32) ∧ (s.chip.twinOn = true) ∧ ((s.chip.agreed n && s.chip.paired) = true) ∧ ((s.chip.slot n).agree = [{ key := key, frame := some (i, seq), own := some own }]) ∧ (own.hold = true) ∧ ((s.chip.frameRec n i).code = 2) ∧ ((s.chip.frameRec n i).seq = seq)) ∧
    (∃ (s : State) (t : Stamp) (n : Nat) (key : Nat) (v : Verdict), (n < 256) ∧ (s.chip.paired = true) ∧ ((s.chip.slot n).agree = [{ key := key, twin := some v }]) ∧ (v.hold = true) ∧ (elapsed t v.stamp (s.chip.fld R.twnTiming 31 16 * nsPerMs) = true)) ∧
    (∃ (s : State) (t : Stamp) (n : Nat) (key : Nat), (n < 256) ∧ ((s.chip.paired = false ∨ ∀ a ∈ (s.chip.slot n).agree, a.key = key → a.own = none → ∀ v, a.twin = some v → v.hold = true → elapsed t v.stamp (s.chip.fld R.twnTiming 31 16 * nsPerMs) = false))) :=
  ⟨⟨st (slot9.setFld R.twnCfg 31 31 1), [9, 1, 0, 0] ++ leBytes 4 77 ++ leBytes 24 0, by decide +kernel⟩,
   ⟨st slot9, [9, 1, 0, 0] ++ leBytes 4 77 ++ leBytes 24 0, by decide +kernel⟩,
   ⟨st (agr 9 [{ key := 76, own := some ⟨true, false, 3, 4, 5⟩ }] (part [(R.twnCfg, b 31), (R.twnStat, 2), (R.twnAgree 0, 512)])), [9, 5, 0, 0] ++ leBytes 4 77 ++ leBytes 8 3 ++ leBytes 8 4 ++ leBytes 8 5, by decide +kernel⟩,
   ⟨st (((agr 9 [{ key := 76, frame := some (3, 12), own := some ⟨true, false, 3, 4, 5⟩ }] (recWith 9 3 (frec 2) slot9)).setReg (R.twnAgree 0) 512 |>.setReg R.twnStat 2).setFld R.twnCfg 31 31 1), 9, 3, 12, 76, 5, 2, 7, ⟨true, false, 3, 4, 5⟩, by decide +kernel⟩,
   ⟨st (agr 9 [{ key := 77, twin := some ⟨true, false, 3, 4, 5⟩ }] (part [(R.twnStat, 2), (R.twnTiming, b 16 1)])), 2000000, 9, 77, ⟨true, false, 3, 4, 5⟩, by decide +kernel⟩,
   ⟨st slot9, 50, 9, 77, by decide +kernel⟩⟩

end F07

namespace F08

def pgs (l : List Peg) (c : Chip) : Chip := { c with peg := { c.peg with pegs := l } }
def pg0 : Peg := { slot := 5, stager := 1, group := 77, tag := 9, queue := 89, arg := 0, commit := false, rpt := false, armed := false, launch := 2000000, deadline := 3000000, writes := [(R.netPort 0, 0x1)] }
/-- Stager 1 with a group of one peg on queue 89. -/
def stg (n launch : Nat) : Chip := { part [(R.pegStgCount 1, b 31 + n), (R.pegBufW0 1 0, b 25 89 + b 22 5 + b 14 1), (R.pegBufW1 1 0, b 16 77 + 9), (R.pegBufW2 1 0, launch), (R.pegBufW4 1 0, 1000), (R.pegBufAddr 1 0 0, R.netPort 0 - 0x40000000), (R.pegBufData 1 0 0, 3)] with peg := { checks := [1, 2] } }
def fw (g : FwGroup) (c : Chip) : Chip := { c with peg := { c.peg with checks := [0, 2], fwNow := some g } }
def stg0 (n launch : Nat) : Chip := part [(R.pegStgCount 0, b 31 + n), (R.pegBufW0 0 0, b 25 89 + b 22 5 + b 14 1), (R.pegBufW1 0 0, b 16 77 + 9), (R.pegBufW2 0 0, launch), (R.pegBufW4 0 0, 1000), (R.pegBufAddr 0 0 0, R.netPort 0 - 0x40000000), (R.pegBufData 0 0 0, 3)]

/-- States and operands that meet the hypotheses of `Obligations.GroupIsCheckedThenAcceptedWhole`. -/
theorem wit_GroupIsCheckedThenAcceptedWhole :
    (∃ (s : State) (sg : Nat), (sg < 3) ∧ (s.chip.bit (R.pegStgCount sg) 31 = false) ∧ (s.chip.fld (R.pegStgCount sg) 6 0 ≠ 0)) ∧
    (∃ (s : State) (sg : Nat), (sg < 3) ∧ ((s.chip.bit (R.pegStgCount sg) 31 = true ∨ s.chip.fld (R.pegStgCount sg) 6 0 = 0))) ∧
    (∃ (s : State) (t : Stamp) (sg : Nat) (rest : List Nat), (sg < 3) ∧ (s.chip.peg.checks = sg :: rest) ∧ ((sg = 0 → s.chip.peg.fwNow = none ∧ s.chip.peg.fwNext = [] ∧ s.chip.peg.fwCancel = [])) ∧ ((s.chip.at t).groupFail sg ((List.range (min (s.chip.fld (R.pegStgCount sg) 6 0) 64)).map (fun i => s.chip.stagerEntry sg i)) = none)) ∧
    (∃ (s : State) (t : Stamp) (sg : Nat) (cause : Nat) (i : Nat) (rest : List Nat), (sg < 3) ∧ (s.chip.peg.checks = sg :: rest) ∧ ((sg = 0 → s.chip.peg.fwNow = none ∧ s.chip.peg.fwNext = [] ∧ s.chip.peg.fwCancel = [])) ∧ ((s.chip.at t).groupFail sg ((List.range (min (s.chip.fld (R.pegStgCount sg) 6 0) 64)).map (fun j => s.chip.stagerEntry sg j)) = some (cause, i))) ∧
    (∃ (s : State) (g : FwGroup) (rest : List Nat), (s.chip.peg.checks = 0 :: rest) ∧ (s.chip.peg.fwNow = some g) ∧ (s.chip.peg.fwNext = []) ∧ (s.chip.peg.fwCancel = []) ∧ (g.use = .recall)) ∧
    (∃ (s : State), (s.chip.peg.checks = [])) :=
  ⟨⟨st (part [(R.pegStgCount 2, 64), (R.pegStgRes 2, b 31 + 7)]), 2, by decide +kernel⟩,
   ⟨st (part [(R.pegStgCount 2, b 31 + 1)]), 2, by decide +kernel⟩,
   ⟨st (stg 1 20000000), 1000, 1, [2], by decide +kernel⟩,
   ⟨st (stg 1 2000), 1000, 1, 5, 0, [2], by decide +kernel⟩,
   ⟨st (fw { use := .recall, group := 77, pegs := [] } (stg0 1 20000000)), { use := .recall, group := 77, pegs := [] }, [2], by decide +kernel⟩,
   ⟨st (part []), by decide +kernel⟩⟩

/-- States and operands that meet the hypotheses of `Obligations.PegArmsExecutesExpiresOrIsCancelled`. -/
theorem wit_PegArmsExecutesExpiresOrIsCancelled :
    (∃ (s : State) (t : Stamp) (p : Peg), (p.slot < 4096) ∧ (s.chip.peg.pegs.find? (fun x => x.slot == p.slot) = some p) ∧ (p.armed = false) ∧ (0 ≤ stampGap t (stampSub p.launch 500000))) ∧
    (∃ (s : State) (t : Stamp) (i : Nat), (i < 4096) ∧ ((∀ p, s.chip.peg.pegs.find? (fun x => x.slot == i) = some p → p.armed = true ∨ stampGap t (stampSub p.launch 500000) < 0))) ∧
    (∃ (q : Nat), (85 ≤ q) ∧ (q < 96)) ∧
    (∃ (s : State) (t : Stamp) (q : Nat) (block : Nat) (a : Nat) (p : Peg) (w : Word), (85 ≤ q) ∧ (q < 96) ∧ ((q = 93 → block = 0x40600000 → s.chip.sweepDue t = false)) ∧ (s.chip.duePegs (fun p => p.writesTo block) q 0 t = [p]) ∧ (0 ≤ stampGap p.deadline t) ∧ (p.writes = [(a, w)]) ∧ (pegSpan q 0 a ≠ none) ∧ (roleOf a = .plain) ∧ (p.stager ≠ 0) ∧ ((s.chip.d2dUp = true ∨ onAnalogue a = false))) ∧
    (∃ (s : State) (t : Stamp) (q : Nat) (block : Nat) (p : Peg), (85 ≤ q) ∧ (q < 96) ∧ ((q = 93 → block = 0x40600000 → s.chip.sweepDue t = false)) ∧ (s.chip.duePegs (fun p => p.writesTo block) q 0 t = [p]) ∧ (stampGap p.deadline t < 0) ∧ (p.stager ≠ 0)) ∧
    (∃ (s : State) (t : Stamp) (q : Nat) (block : Nat), (85 ≤ q) ∧ (q < 96) ∧ ((q = 93 → block = 0x40600000 → s.chip.sweepDue t = false)) ∧ (s.chip.duePegs (fun p => p.writesTo block) q 0 t = [])) ∧
    (∃ (s : State) (t : Stamp) (p : Peg), (p.slot < 4096) ∧ (s.chip.peg.pegs.find? (fun x => x.slot == p.slot) = some p) ∧ (0 < stampGap t p.deadline)) ∧
    (∃ (s : State) (t : Stamp) (i : Nat), (i < 4096) ∧ ((∀ p, s.chip.peg.pegs.find? (fun x => x.slot == i) = some p → stampGap t p.deadline ≤ 0))) ∧
    (∃ (s : State) (sg : Nat) (g : Nat), (sg < 3) ∧ (g < 65536) ∧ (s.chip.bit (R.pegStgCount sg) 31 = false) ∧ (s.chip.peg.pegs.any (fun p => p.stager == sg && p.group == g && !p.armed) = true)) ∧
    (∃ (s : State) (sg : Nat) (g : Nat), (sg < 3) ∧ (g < 65536) ∧ ((s.chip.bit (R.pegStgCount sg) 31 = true ∨ s.chip.peg.pegs.any (fun p => p.stager == sg && p.group == g && !p.armed) = false))) :=
  ⟨⟨st (pgs [{ pg0 with slot := 4 }, pg0] (part [])), 1500000, pg0, by decide +kernel⟩,
   ⟨st (pgs [{ pg0 with slot := 4 }, pg0] (part [])), 1499999, 5, by decide +kernel⟩,
   ⟨89, by decide +kernel⟩,
   ⟨st (pgs [{ pg0 with slot := 4 }, { pg0 with armed := true, rpt := true }] (part [])), 2000000, 89, 0x40200000, R.netPort 0, { pg0 with armed := true, rpt := true }, 1, by decide +kernel⟩,
   ⟨st (pgs [{ pg0 with slot := 4 }, { pg0 with armed := true }] (part [])), 3000001, 89, 0x40200000, { pg0 with armed := true }, by decide +kernel⟩,
   ⟨st (pgs [pg0] (part [])), 2000000, 89, 0x40200000, by decide +kernel⟩,
   ⟨st (pgs [{ pg0 with armed := true }] (part [])), 3000001, { pg0 with armed := true }, by decide +kernel⟩,
   ⟨st (pgs [{ pg0 with armed := true }] (part [])), 3000000, 5, by decide +kernel⟩,
   ⟨st (pgs [{ pg0 with armed := true }, { pg0 with slot := 6 }] (part [])), 1, 77, by decide +kernel⟩,
   ⟨st (pgs [{ pg0 with armed := true }] (part [])), 1, 77, by decide +kernel⟩⟩

end F08

namespace F09

def eth (good : Bool) (b : EthBody) : EthFrame := { port := 1, sub := 3, good := good, ipBytes := 1000, body := b }
def dgram (p : Nat) : Datagram := { vid := none, ipv6 := false, saddr := 5, daddr := 0xEA000001, dport := p, payload := [1, 2, 3], ptp := none }
def net1 : Chip := part [(R.netPort 1, b 31 + b 30 + 1500), (R.netFlow 7, b 31 + b 28 + b 26 3 + b 24 2 + 5000), (R.netFlowDaddr 7 0, 0xEA000001), (R.netIfIpv4 1 3, 0x0A000001), (R.mgtCtl, b 31), (R.pntCtl, b 31)]
def dptp : Datagram := { vid := none, ipv6 := false, saddr := 5, daddr := 0xE0000181, dport := 320, payload := [1, 2, 3], ptp := some (.announce 0 { sender := 5, gm := 6, rank := [1], clockClass := 6, utc := none }) }
def drtp : Datagram := { vid := none, ipv6 := false, saddr := 5, daddr := 0xEA000001, dport := 6000, payload := [0x80, 0x60, 0, 9, 0, 0, 0, 8, 1, 2, 3, 4, 0x41, 7], ptp := none }
def net2 : Chip := part [(R.netPort 1, b 31 + b 30 + 1500), (R.netFlow 7, b 31 + b 28 + b 26 3 + b 24 1 + b 16 200 + 6000), (R.netFlowDaddr 7 0, 0xEA000001), (R.srcCfg 200, b 31 + b 28 1), (R.srcNet 200, b 16 96)]
def pk (seq : Nat) : Packet := { seq := seq, ts := 9, marker := false, arrival := 3, payload := [] }
def hp (due seq : Nat) : HeldPacket := { slot := 200, claim := 0x103, due := due, pkt := pk seq }
def ns (n : Nat) (x : NetSlot) (c : Chip) : Chip := { c with net := [(n, x)] }
def nf (ts : Nat) : NetFrame := { ts := ts, arrival := 3, last := 4, marker := some (70000, 5), later := none, buf := none, payloads := [] }

/-- States and operands that meet the hypotheses of `Obligations.ReceivedFrameIsCountedAndClassified`. -/
theorem wit_ReceivedFrameIsCountedAndClassified :
    (∃ (s : State) (fr : EthFrame), (fr.port < 2) ∧ (fr.sub < 4) ∧ (s.chip.subportOn fr.port fr.sub = true) ∧ (fr.good = true) ∧ (fr.ipBytes ≤ s.chip.fld (R.netPort fr.port) 13 0)) ∧
    (∃ (s : State) (fr : EthFrame), (fr.port < 2) ∧ (fr.sub < 4) ∧ (s.chip.subportOn fr.port fr.sub = true) ∧ (fr.good = true) ∧ (fr.ipBytes ≤ s.chip.fld (R.netPort fr.port) 13 0) ∧ ((match fr.body with | .other => true | .udp d => (s.chip.ptpOf fr.port fr.sub d).isNone && (s.chip.flowOf fr.port fr.sub d).isNone | _ => false) = true)) ∧
    (∃ (s : State) (fr : EthFrame) (r : BaseReq) (a : BaseAnswer), (fr.port < 2) ∧ (fr.sub < 4) ∧ (s.chip.subportOn fr.port fr.sub = true) ∧ (fr.good = true) ∧ (fr.ipBytes ≤ s.chip.fld (R.netPort fr.port) 13 0) ∧ (fr.body = .base r) ∧ ((s.chip.netIf fr.port fr.sub).answer r = some a)) ∧
    (∃ (s : State) (fr : EthFrame) (r : BaseReq), (fr.port < 2) ∧ (fr.sub < 4) ∧ (s.chip.subportOn fr.port fr.sub = true) ∧ (fr.good = true) ∧ (fr.ipBytes ≤ s.chip.fld (R.netPort fr.port) 13 0) ∧ (fr.body = .base r) ∧ ((s.chip.netIf fr.port fr.sub).answer r = none) ∧ ((match r with | .query _ _ => false | _ => true) = true)) ∧
    (∃ (s : State) (fr : EthFrame) (v6 : Bool) (g : Option Nat) (f : Nat), (fr.port < 2) ∧ (fr.sub < 4) ∧ (s.chip.subportOn fr.port fr.sub = true) ∧ (fr.good = true) ∧ (fr.ipBytes ≤ s.chip.fld (R.netPort fr.port) 13 0) ∧ (fr.body = .base (.query v6 g)) ∧ (f < 1024) ∧ (s.chip.bit (R.netFlow f) 31 = true) ∧ (s.chip.fld (R.netFlow f) 28 28 = fr.port) ∧ (s.chip.subOf fr.port (s.chip.fld (R.netFlow f) 27 26) = fr.sub) ∧ (s.chip.bit (R.netFlow f) 30 = v6) ∧ (isMulticast v6 (s.chip.addrOf v6 (R.netFlowDaddr f)) = true) ∧ ((g = none ∨ g = some (s.chip.addrOf v6 (R.netFlowDaddr f))))) ∧
    (∃ (s : State) (fr : EthFrame), (fr.port < 2) ∧ (fr.sub < 4) ∧ (s.chip.subportOn fr.port fr.sub = true) ∧ ((fr.good = false ∨ s.chip.fld (R.netPort fr.port) 13 0 < fr.ipBytes))) ∧
    (∃ (s : State) (fr : EthFrame) (d : Datagram) (m : PtpFrame), (fr.port < 2) ∧ (fr.sub < 4) ∧ (s.chip.subportOn fr.port fr.sub = true) ∧ (fr.good = true) ∧ (fr.ipBytes ≤ s.chip.fld (R.netPort fr.port) 13 0) ∧ (fr.body = .udp d) ∧ (s.chip.ptpOf fr.port fr.sub d = some m)) ∧
    (∃ (s : State) (fr : EthFrame) (d : Datagram) (f : Nat), (fr.port < 2) ∧ (fr.sub < 4) ∧ (s.chip.subportOn fr.port fr.sub = true) ∧ (fr.good = true) ∧ (fr.ipBytes ≤ s.chip.fld (R.netPort fr.port) 13 0) ∧ (fr.body = .udp d) ∧ (s.chip.ptpOf fr.port fr.sub d = none) ∧ (s.chip.flowOf fr.port fr.sub d = some f) ∧ (s.chip.fld (R.netFlow f) 25 24 = 2) ∧ (s.chip.bit R.pntCtl 31 = true) ∧ (s.chip.pnt.queue.length < 2048)) ∧
    (∃ (s : State) (fr : EthFrame), (fr.port < 2) ∧ (fr.sub < 4) ∧ (s.chip.subportOn fr.port fr.sub = false)) ∧
    (∃ (s : State) (fr : EthFrame) (r : BaseReq) (a : BaseAnswer), (fr.port = 2) ∧ (fr.sub < 4) ∧ (fr.good = true) ∧ (s.chip.bit R.mgtCtl 31 = true) ∧ (fr.body = .base r) ∧ ((s.chip.netIf 2 0).answer r = some a)) ∧
    (∃ (s : State) (fr : EthFrame), (fr.port = 2) ∧ (fr.sub < 4) ∧ ((fr.good = false ∨ s.chip.bit R.mgtCtl 31 = false ∨ (match fr.body with | .base r => ((s.chip.netIf 2 0).answer r).isNone | _ => true) = true))) :=
  ⟨⟨st net1, eth true (.udp (dgram 5000)), by decide +kernel⟩,
   ⟨st net1, eth true .other, by decide +kernel⟩,
   ⟨st net1, eth true (.base (.arp 1 2 0x0A000001)), .arp 1 2 0x0A000001, .arp 0 0x0A000001 2 1, by decide +kernel⟩,
   ⟨st net1, eth true (.base (.echo false 1 2 3 4 [5])), .echo false 1 2 3 4 [5], by decide +kernel⟩,
   ⟨st net1, eth true (.base (.query false none)), false, none, 7, by decide +kernel⟩,
   ⟨st net1, eth false .other, by decide +kernel⟩,
   ⟨st net1, { eth true (.udp dptp) with sub := 0 }, dptp, ⟨false, 5, .announce 0 { sender := 5, gm := 6, rank := [1], clockClass := 6, utc := none }⟩, by decide +kernel⟩,
   ⟨st net1, eth true (.udp (dgram 5000)), dgram 5000, 7, by decide +kernel⟩,
   ⟨st (part [(R.netPort 1, b 31 + 1500)]), eth true .other, by decide +kernel⟩,
   ⟨st net1, { eth true (.base (.arp 1 2 0)) with port := 2 }, .arp 1 2 0, .arp 0 0 2 1, by decide +kernel⟩,
   ⟨st net1, { eth true (.base (.arp 1 2 9)) with port := 2 }, by decide +kernel⟩⟩

/-- States and operands that meet the hypotheses of `Obligations.MergeStageReleasesAtItsWindows`. -/
theorem wit_MergeStageReleasesAtItsWindows :
    (∃ (s : State) (fr : EthFrame) (d : Datagram) (f : Nat) (n : Nat), (fr.port < 2) ∧ (fr.sub < 4) ∧ (s.chip.subportOn fr.port fr.sub = true) ∧ (fr.good = true) ∧ (fr.ipBytes ≤ s.chip.fld (R.netPort fr.port) 13 0) ∧ (fr.body = .udp d) ∧ (s.chip.ptpOf fr.port fr.sub d = none) ∧ (s.chip.flowOf fr.port fr.sub d = some f) ∧ (s.chip.fld (R.netFlow f) 25 24 ≠ 2) ∧ (s.chip.fld (R.netFlow f) 23 16 = n) ∧ ((s.chip.slotKind n = 1 ∨ s.chip.slotKind n = 2)) ∧ (d.dport = s.chip.fld (R.netFlow f) 15 0) ∧ (12 ≤ d.payload.length) ∧ (leAt d.payload 0 1 / 64 = 2) ∧ (leAt d.payload 1 1 % 128 = s.chip.fld (R.srcNet n) 22 16) ∧ ((∀ x ∈ (s.chip.netSlot n).trackers, x.claim ≤ rtpClaim (s.chip.fld R.netClaim 3 0) d.payload)) ∧ (((s.chip.netSlot n).trackers.length < 4 ∨ (s.chip.netSlot n).trackers.any (fun x => x.rank == rtpClaim (s.chip.fld R.netClaim 3 0) d.payload % 256) = true)) ∧ ((∀ h ∈ s.chip.held, h.slot ≠ n)) ∧ ((s.chip.netSlot n).highest.getD 0 ≤ extendSeq (s.chip.netSlot n).highest (beAt d.payload 2 2) + 16384)) ∧
    (∃ (s : State) (t : Stamp) (h : HeldPacket) (g : HeldPacket) (rest : List HeldPacket), (s.chip.held = h :: rest) ∧ (g = rest.foldl (fun b x => if stampGap x.due b.due < 0 then x else b) h) ∧ (0 ≤ stampGap t g.due) ∧ ((s.chip.netSlot g.slot).delivered.contains g.pkt.seq = true)) ∧
    (∃ (s : State) (t : Stamp) (h : HeldPacket) (g : HeldPacket) (rest : List HeldPacket), (s.chip.held = h :: rest) ∧ (g = rest.foldl (fun b x => if stampGap x.due b.due < 0 then x else b) h) ∧ (0 ≤ stampGap t g.due) ∧ (g.slot < 256) ∧ ((s.chip.netSlot g.slot).delivered.contains g.pkt.seq = false)) ∧
    (∃ (s : State) (t : Stamp), ((∀ h ∈ s.chip.held, stampGap t h.due < 0))) ∧
    (∃ (n : Nat), (n < 256)) ∧
    (∃ (s : State) (t : Stamp) (n : Nat), (n < 256) ∧ ((∀ h ∈ s.chip.held, h.slot = n → h.claim < (s.chip.at t).leadNow n)) ∧ ((s.chip.reg (R.srcLead n)).toNat ≠ (s.chip.at t).leadNow n) ∧ (s.chip.watchSlot n = false)) ∧
    (∃ (s : State) (t : Stamp) (n : Nat), (n < 256) ∧ ((s.chip.reg (R.srcLead n)).toNat = (s.chip.at t).leadNow n) ∧ (s.chip.watchSlot n = false)) ∧
    (∃ (s : State) (t : Stamp) (n : Nat) (ts : Nat) (f : NetFrame), (n < 256) ∧ ((s.chip.netSlot n).openFrames.find? (fun g => g.ts == ts) = some f) ∧ ((f.marker.any (fun m => elapsed t m.2 (s.chip.fld (R.srcMerge n) 21 16 * nsPerMs)) = true ∨ f.later.any (fun l => elapsed t l (s.chip.fld (R.srcMerge n) 21 16 * nsPerMs)) = true))) ∧
    (∃ (s : State) (t : Stamp) (n : Nat) (ts : Nat), (n < 256) ∧ ((∀ f, (s.chip.netSlot n).openFrames.find? (fun g => g.ts == ts) = some f → f.marker.any (fun m => elapsed t m.2 (s.chip.fld (R.srcMerge n) 21 16 * nsPerMs)) = false ∧ f.later.any (fun l => elapsed t l (s.chip.fld (R.srcMerge n) 21 16 * nsPerMs)) = false))) ∧
    (∃ (s : State) (t : Stamp) (n : Nat) (ts : Nat) (f : NetFrame), (n < 256) ∧ ((s.chip.netSlot n).openFrames.find? (fun g => g.ts == ts) = some f) ∧ (elapsed t f.last 100000000 = true)) ∧
    (∃ (s : State) (t : Stamp) (n : Nat) (ts : Nat), (n < 256) ∧ ((∀ f, (s.chip.netSlot n).openFrames.find? (fun g => g.ts == ts) = some f → elapsed t f.last 100000000 = false))) :=
  ⟨⟨st net2, eth true (.udp drtp), drtp, 7, 200, by decide +kernel⟩,
   ⟨st { ns 200 { delivered := [66000] } (part []) with held := [hp 501 7, hp 500 66000] }, 500, hp 501 7, hp 500 66000, [hp 500 66000], by decide +kernel⟩,
   ⟨st { ns 200 { delivered := [66001] } (part []) with held := [hp 500 66000, hp 500 7] }, 500, hp 500 66000, hp 500 66000, [hp 500 7], by decide +kernel⟩,
   ⟨st { part [] with held := [hp 500 66000] }, 499, by decide +kernel⟩,
   ⟨200, by decide +kernel⟩,
   ⟨st (ns 200 { trackers := [⟨7, 0x107, 0⟩, ⟨8, 0x108, 90000000000⟩] } (part [(R.srcLead 200, 0x209)])), 90000000000, 200, by decide +kernel⟩,
   ⟨st (ns 200 { trackers := [⟨7, 0x107, 0⟩, ⟨8, 0x108, 90000000000⟩] } (part [(R.srcLead 200, 0x108)])), 90000000000, 200, by decide +kernel⟩,
   ⟨st (ns 200 { openFrames := [nf 8, nf 9], delivered := [70000] } (part [(R.srcMerge 200, b 16 1), (R.srcCfg 200, b 31 + b 28 1)])), 1000005, 200, 9, nf 9, by decide +kernel⟩,
   ⟨st (ns 200 { openFrames := [nf 8, nf 9], delivered := [70000] } (part [(R.srcMerge 200, b 16 1), (R.srcCfg 200, b 31 + b 28 1)])), 1000003, 200, 9, by decide +kernel⟩,
   ⟨st (ns 200 { openFrames := [nf 8, nf 9], delivered := [70000] } (part [(R.srcMerge 200, b 16 1), (R.srcCfg 200, b 31 + b 28 1)])), 100000004, 200, 9, nf 9, by decide +kernel⟩,
   ⟨st (ns 200 { openFrames := [nf 8, nf 9], delivered := [70000] } (part [])), 100000002, 200, 9, by decide +kernel⟩⟩

/-- States and operands that meet the hypotheses of `Obligations.LegsReportsAndLinksLapse`. -/
theorem wit_LegsReportsAndLinksLapse :
    (∃ (s : State) (t : Stamp) (l : Stamp) (n : Nat), (n < 256) ∧ ((s.chip.netSlot n).leg0.or (s.chip.netSlot n).first = some l) ∧ ((s.chip.netSlot n).silent0 = false) ∧ (elapsed t l nsPerS = true)) ∧
    (∃ (s : State) (t : Stamp) (l : Stamp) (n : Nat), (n < 256) ∧ ((s.chip.netSlot n).leg1.or (s.chip.netSlot n).first = some l) ∧ ((s.chip.netSlot n).silent1 = false) ∧ (elapsed t l nsPerS = true)) ∧
    (∃ (s : State) (t : Stamp) (n : Nat) (leg : Nat), (n < 256) ∧ (leg < 2) ∧ (((if leg = 0 then (s.chip.netSlot n).silent0 else (s.chip.netSlot n).silent1) = true ∨ ((if leg = 0 then (s.chip.netSlot n).leg0 else (s.chip.netSlot n).leg1).or (s.chip.netSlot n).first).any (fun l => elapsed t l nsPerS) = false))) ∧
    (∃ (s : State) (t : Stamp) (seen : Stamp) (n : Nat) (r : Nat) (i : Int), (n < 256) ∧ ((s.chip.netSlot n).report = some (r, i, seen)) ∧ (s.chip.bit (R.srcStat n) 30 = true) ∧ (10000000000 < stampGap t seen)) ∧
    (∃ (s : State) (t : Stamp) (n : Nat), (n < 256) ∧ ((s.chip.bit (R.srcStat n) 30 = false ∨ (s.chip.netSlot n).report.any (fun r => decide (10000000000 < stampGap t r.2.2)) = false))) ∧
    (∃ (s : State) (p : Nat) (sub : Nat), (p < 2) ∧ (sub < 4) ∧ (s.chip.bit (R.netLink p) sub = true)) ∧
    (∃ (s : State) (p : Nat) (sub : Nat), (p < 2) ∧ (sub < 4) ∧ (s.chip.bit (R.netLink p) sub = false) ∧ (s.chip.subportOn p sub = true)) ∧
    (∃ (s : State) (p : Nat) (sub : Nat) (up : Bool), (p < 2) ∧ (sub < 4) ∧ ((s.chip.bit (R.netLink p) sub = up ∨ (up = true ∧ s.chip.subportOn p sub = false)))) :=
  ⟨⟨st (ns 255 { leg0 := some 4 } (part [(R.srcNet 255, b 29), (R.srcStat 255, b 28 3)])), 1000000004, 4, 255, by decide +kernel⟩,
   ⟨st (ns 255 { first := some 4 } (part [(R.srcStat 255, b 28 3)])), 1000000004, 4, 255, by decide +kernel⟩,
   ⟨st (part []), 5, 255, 1, by decide +kernel⟩,
   ⟨st (ns 255 { report := some (1, 2, 3) } (part [(R.srcStat 255, b 30)])), 10000000004, 3, 255, 1, 2, by decide +kernel⟩,
   ⟨st (part []), 5, 255, by decide +kernel⟩,
   ⟨st (part [(R.netLink 1, 8 + b 16 255)]), 1, 3, by decide +kernel⟩,
   ⟨st (net1.setNat (R.netLink 1) 7), 1, 3, by decide +kernel⟩,
   ⟨st (part [(R.netLink 1, 7)]), 1, 2, true, by decide +kernel⟩⟩

end F09

namespace F10

def pp : ParsedPicture := { badParams := 0, params := none, parses := true, nalType := 1, intra := false, recovery := none, poc := 8, mark := 0, ltIndex := 0, keep := [], rps := [], lists := [], display := true }
def sp : StreamParams := { profile := 100, level := 40, width := 640, height := 480, buffering := 3, chroma := 1, depth := 8, progressive := true, tools := true }
def au1 : AccessUnit := { slot := 9, ts := 90, arrival := 40, whole := true, missing := 0, nals := [], addr := 4096, len := 77 }
def decc (l : List (Nat × DecCtx)) (c : Chip) : Chip := { c with dec := l }
def encc (l : List (Nat × EncCtx)) (c : Chip) : Chip := { c with enc := l }
def job1 : PicJob := { slot := 9, key := 90, codec := false, incomplete := false, lost := 0, rap := false, cls := 0, poc := 8, order := 1, refs := [], outRef := none, display := false, deadline := 500, supplied := none, arrival := 40, cause := 0, seq := 0, outBuf := none, bsAddr := 4096, bsLen := 77, depth := 8, running := none }
def ej : EncJob := { bucket := 3, slot := 9, buf := 0, cap := 5, idr := false, periodic := false, qpBase := 30, rate := 1000, gv := (0, 0), qp := 30, running := none }
def res0 : JobResult := { cause := 0, recon := [], disp := [], fillDisp := [], fillRecon := [] }
def tau (n : Nat) : TxAu := { bucket := 3, idr := false, cap := 1000, ready := 2000, payloads := [[1], [2]], first := some 65535, sent := n }
def txs1 (st : Nat) (x : TxStream) (c : Chip) : Chip := { c with txs := [(st, x)] }
def dctx : Chip := part [(R.vdcCtx 200, b 31 + b 16 9), (R.vdcCtxRef 200, 17), (R.srcCfg 9, b 31 + b 28 1), (R.vdcCtxStat 200, 2)]
def pctx : Chip := (part [(R.vdcCtx 200, b 31 + b 16 9), (R.vdcCtxRef 200, 17), (R.srcCfg 9, b 31 + b 28 6), (R.vdcCtxStat 200, 2), (R.srcBsHi 9, 0x10), (R.srcBsSize 9, 1)]).dramPut (dramBase + 8) 4 20
def ectx : Chip := part [(R.pitStat, b 31), (R.vecCtx 31, b 31 + b 8 9), (R.vecCtxPeriod 31, 1000), (R.vecCtxInwait 31, 5)]
def efr : Chip := ((ectx.setNat (R.srcCfg 9) (b 31 + b 28 2 + b 8 2)).setNat (R.srcRecHi 9) 0x10 |>.putFrameRec 9 1 { cap := 3000500, arrival := 0, change := 0, elig := 3001000, sig := 0, seq := 4, code := 2, eligible := true, twinLost := false, derived := false, cause := 0 })
def eset : EncSet := { idr := true, qp := some 20, rate := none, gv := none, apply := 3, armedAt := 7 }
def ports : List (Nat × Nat) := [(R.netPort 0, b 31 + 1500), (R.netPort 1, b 31 + b 30 + 1500), (R.netTxLeg 31 1, b 31 + b 29 2)]

/-- States and operands that meet the hypotheses of `Obligations.JobsAreBuiltTakenAndEnded`. -/
theorem wit_AccessUnitBecomesOneJobOrIsSkipped :
    (∃ (s : State) (x : Nat) (a : AccessUnit) (p : ParsedPicture), (x < 256) ∧ (s.chip.bit (R.vdcCtx x) 31 = true) ∧ (s.chip.slotKind (s.chip.decSlot x) = 1) ∧ (s.chip.aus.find? (fun u => u.slot == s.chip.decSlot x) = some a) ∧ ((s.chip.decState x = 2 ∨ ((s.chip.decState x = 1 ∨ s.chip.decState x = 3) ∧ isRap (s.chip.bit (R.vdcCtx x) 30) p = true ∧ (p.params.or (s.chip.decCtx x).params).isSome = true))) ∧ ((∀ q, p.params.or (s.chip.decCtx x).params = some q → s.chip.paramsOk x q = true))) ∧
    (∃ (s : State) (t : Stamp) (x : Nat) (u : UnitInfo) (p : ParsedPicture), (x < 256) ∧ (s.chip.bit (R.vdcCtx x) 31 = true) ∧ (s.chip.slotKind (s.chip.decSlot x) = 6) ∧ ((s.chip.at t).playbackUnit (s.chip.decSlot x) = some u) ∧ ((s.chip.decState x = 2 ∨ ((s.chip.decState x = 1 ∨ s.chip.decState x = 3) ∧ isRap (s.chip.bit (R.vdcCtx x) 30) p = true ∧ (p.params.or (s.chip.decCtx x).params).isSome = true))) ∧ ((∀ q, p.params.or (s.chip.decCtx x).params = some q → s.chip.paramsOk x q = true))) ∧
    (∃ (s : State) (x : Nat) (a : AccessUnit) (p : ParsedPicture), (x < 256) ∧ (s.chip.bit (R.vdcCtx x) 31 = true) ∧ (s.chip.slotKind (s.chip.decSlot x) = 1) ∧ (s.chip.aus.find? (fun u => u.slot == s.chip.decSlot x) = some a) ∧ ((s.chip.decState x = 3 ∨ (s.chip.decState x = 1 ∧ ∀ q, p.params = some q → s.chip.paramsOk x q = true))) ∧ (isRap (s.chip.bit (R.vdcCtx x) 30) p = false)) ∧
    (∃ (s : State) (x : Nat) (a : AccessUnit) (p : ParsedPicture) (q : StreamParams), (x < 256) ∧ (s.chip.bit (R.vdcCtx x) 31 = true) ∧ (s.chip.slotKind (s.chip.decSlot x) = 1) ∧ (s.chip.aus.find? (fun u => u.slot == s.chip.decSlot x) = some a) ∧ ((s.chip.decState x = 1 ∨ s.chip.decState x = 2)) ∧ (p.params = some q) ∧ (s.chip.paramsOk x q = false)) ∧
    (∃ (s : State) (t : Stamp) (x : Nat), (x < 256) ∧ ((s.chip.bit (R.vdcCtx x) 31 = false ∨ (s.chip.slotKind (s.chip.decSlot x) = 1 ∧ s.chip.aus.find? (fun u => u.slot == s.chip.decSlot x) = none) ∨ (s.chip.slotKind (s.chip.decSlot x) = 6 ∧ (s.chip.at t).playbackUnit (s.chip.decSlot x) = none) ∨ (s.chip.slotKind (s.chip.decSlot x) ≠ 1 ∧ s.chip.slotKind (s.chip.decSlot x) ≠ 6)))) :=
  ⟨⟨st { decc [(200, { jobs := [job1] })] dctx with aus := [{ au1 with slot := 8 }, au1] }, 200, au1, pp, by decide +kernel⟩,
   ⟨st pctx, 5, 200, ⟨9, 0, 5, some 0, false, 0, dramBase + 16, 20⟩, pp, by decide +kernel⟩,
   ⟨st { dctx.setNat (R.vdcCtxStat 200) 1 with aus := [au1] }, 200, au1, pp, by decide +kernel⟩,
   ⟨st { dctx with aus := [au1] }, 200, au1, { pp with params := some { sp with profile := 7 } }, { sp with profile := 7 }, by decide +kernel⟩,
   ⟨st (part []), 5, 200, by decide +kernel⟩⟩

/-- States and operands that meet the hypotheses of `Obligations.JobsAreBuiltTakenAndEnded`. -/
theorem wit_EngineTakesAndEndsJobs :
    (∃ (s : State) (t : Stamp) (e : Nat) (r : Ready) (j : PicJob) (rest : List PicJob), (e < 8) ∧ (firstReady s.chip.readyDec = some r) ∧ ((s.chip.at t).decFree e = true) ∧ (r.ctx < 256) ∧ ((s.chip.decCtx r.ctx).jobs = j :: rest)) ∧
    (∃ (s : State) (e : Nat) (r : Ready) (j : EncJob) (rest : List EncJob), (e < 4) ∧ (firstReady s.chip.readyEnc = some r) ∧ (s.chip.encOn e = none) ∧ (r.ctx < 32) ∧ ((s.chip.encCtx r.ctx).jobs = j :: rest)) ∧
    (∃ (s : State) (t : Stamp) (e : Nat) (r : Ready) (j : EncJob) (rest : List EncJob), (e < 4) ∧ (firstReady s.chip.readyEnc = some r) ∧ (s.chip.encOn e = none) ∧ (s.chip.duePegs (fun _ => true) (72 + r.ctx / 8) r.ctx t = []) ∧ (r.ctx < 32) ∧ ((s.chip.encCtx r.ctx).jobs = j :: rest)) ∧
    (∃ (s : State) (t : Stamp) (enc : Bool) (e : Nat), (e < (if enc = true then 4 else 8)) ∧ ((if enc = true then (firstReady s.chip.readyEnc).isNone || (s.chip.encOn e).isSome else (firstReady s.chip.readyDec).isNone || !(s.chip.at t).decFree e) = true)) ∧
    (∃ (s : State) (e : Nat) (x : Nat) (r : JobResult) (j : PicJob) (rest : List PicJob), (e < 8) ∧ (r.cause < 16) ∧ (r.cause &&& 2 = 0) ∧ (s.chip.decOn e = some x) ∧ (x < 256) ∧ ((s.chip.decCtx x).jobs = j :: rest)) ∧
    (∃ (s : State) (e : Nat) (x : Nat) (r : JobResult) (j : EncJob) (rest : List EncJob), (e < 4) ∧ (r.cause < 16) ∧ (r.cause &&& 2 = 0) ∧ (s.chip.encOn e = some x) ∧ (x < 32) ∧ ((s.chip.encCtx x).jobs = j :: rest)) ∧
    (∃ (s : State) (enc : Bool) (e : Nat) (r : JobResult), (e < (if enc = true then 4 else 8)) ∧ (r.cause < 16) ∧ (r.cause &&& 2 = 0) ∧ ((if enc = true then (s.chip.encOn e).isNone else (s.chip.decOn e).isNone) = true)) :=
  ⟨⟨st (decc [(200, { jobs := [job1, job1] })] (part [])), 50, 7, ⟨true, 0, 500, 200⟩, job1, [job1], by decide +kernel⟩,
   ⟨st (encc [(31, { jobs := [ej] })] (part [(R.vecCtx 31, 0)])), 3, ⟨false, 0, 5, 31⟩, ej, [], by decide +kernel⟩,
   ⟨st (encc [(31, { jobs := [ej] })] (part [(R.vecCtx 31, 0)])), 50, 3, ⟨false, 0, 5, 31⟩, ej, [], by decide +kernel⟩,
   ⟨st (part []), 50, true, 3, by decide +kernel⟩,
   ⟨st (decc [(200, { jobs := [{ job1 with running := some (7, 3) }, job1] })] (part [(R.vdcEng 7, b 31 + 200)])), 7, 200, res0, { job1 with running := some (7, 3) }, [job1], by decide +kernel⟩,
   ⟨st (encc [(31, { jobs := [{ ej with running := some (3, 3) }] })] (part [(R.vecEng 3, b 31 + 31)])), 3, 31, res0, { ej with running := some (3, 3) }, [], by decide +kernel⟩,
   ⟨st (part []), false, 7, res0, by decide +kernel⟩⟩

/-- States and operands that meet the hypotheses of `Obligations.BucketsAndStreamsRunAtTheirTimes`. -/
theorem wit_BucketTakesAFrameAndArmASet :
    (∃ (s : State) (t : Stamp) (k : Stamp) (x : Nat), (x < 32) ∧ (s.chip.isSealed = true) ∧ (s.chip.bit (R.vecCtx x) 31 = true) ∧ (0 < s.chip.encPer x) ∧ (t = k * s.chip.encPer x + s.chip.fld (R.vecCtxInwait x) 18 0 * nsPerUs) ∧ (((s.chip.encCtx x).started = true ∨ k % s.chip.fld (R.vecCtxGop x) 15 0 = 0)) ∧ ((s.chip.at t).bucketFrame (s.chip.fld (R.vecCtx x) 15 8) (k * s.chip.encPer x) ((k + 1) * s.chip.encPer x) = none)) ∧
    (∃ (s : State) (t : Stamp) (k : Stamp) (x : Nat) (i : Nat), (x < 32) ∧ (s.chip.isSealed = true) ∧ (s.chip.bit (R.vecCtx x) 31 = true) ∧ (0 < s.chip.encPer x) ∧ (t = k * s.chip.encPer x + s.chip.fld (R.vecCtxInwait x) 18 0 * nsPerUs) ∧ (((s.chip.encCtx x).started = true ∨ k % s.chip.fld (R.vecCtxGop x) 15 0 = 0)) ∧ ((s.chip.at t).bucketFrame (s.chip.fld (R.vecCtx x) 15 8) (k * s.chip.encPer x) ((k + 1) * s.chip.encPer x) = some i)) ∧
    (∃ (s : State) (t : Stamp) (x : Nat), (x < 32) ∧ ((s.chip.isSealed = false ∨ s.chip.bit (R.vecCtx x) 31 = false ∨ s.chip.encPer x = 0 ∨ (t - s.chip.fld (R.vecCtxInwait x) 18 0 * nsPerUs) / s.chip.encPer x * s.chip.encPer x + s.chip.fld (R.vecCtxInwait x) 18 0 * nsPerUs ≠ t ∨ ((s.chip.encCtx x).started = false ∧ (t - s.chip.fld (R.vecCtxInwait x) 18 0 * nsPerUs) / s.chip.encPer x % s.chip.fld (R.vecCtxGop x) 15 0 ≠ 0)))) ∧
    (∃ (s : State) (x : Nat), (x < 32) ∧ (s.chip.bit (R.vecCtx x) 31 = true) ∧ ((s.chip.encCtx x).armed = none)) ∧
    (∃ (s : State) (x : Nat), (x < 32) ∧ ((s.chip.bit (R.vecCtx x) 31 = false ∨ (s.chip.encCtx x).armed ≠ none))) :=
  ⟨⟨st (encc [(31, { started := true })] ectx), 3005000, 3, 31, by decide +kernel⟩,
   ⟨st (encc [(31, { started := true })] efr), 3005000, 3, 31, 1, by decide +kernel⟩,
   ⟨st (encc [(31, { started := true })] (part [(R.vecCtx 31, b 31)])), 3005000, 31, by decide +kernel⟩,
   ⟨st (part [(R.vecCtx 31, b 31), (R.vecCtxPend 31, b 31 + b 30 + 40), (R.vecCtxApplyLo 31, 77)]), 31, by decide +kernel⟩,
   ⟨st (part []), 31, by decide +kernel⟩⟩

/-- States and operands that meet the hypotheses of `Obligations.BucketsAndStreamsRunAtTheirTimes`. -/
theorem wit_StreamsSendAtTheirTimes :
    (∃ (s : State) (t : Stamp) (st : Nat) (n : Nat) (a : TxAu) (rest : List TxAu), (st < 32) ∧ ((s.chip.txStream st).queue = a :: rest) ∧ (s.chip.bit (R.netTx st) 31 = true) ∧ (0 ≤ stampGap t (s.chip.releaseAt st a a.sent)) ∧ (a.first = some n)) ∧
    (∃ (s : State) (t : Stamp) (st : Nat) (a : TxAu) (rest : List TxAu), (st < 32) ∧ ((s.chip.txStream st).queue = a :: rest) ∧ (s.chip.bit (R.netTx st) 31 = true) ∧ (0 ≤ stampGap t (s.chip.releaseAt st a a.sent)) ∧ (a.first = none)) ∧
    (∃ (s : State) (t : Stamp) (st : Nat), (st < 32) ∧ ((s.chip.bit (R.netTx st) 31 = false ∨ (s.chip.txStream st).queue.head?.all (fun a => decide (stampGap t (s.chip.releaseAt st a a.sent) < 0)) = true))) ∧
    (∃ (s : State) (t : Stamp), (s.chip.isSealed = true) ∧ (t % nsPerMs = 0)) ∧
    (∃ (s : State) (t : Stamp), (s.chip.isSealed = true) ∧ (t % nsPerS = 0)) ∧
    (∃ (s : State) (t : Stamp), ((s.chip.isSealed = false ∨ t % nsPerMs ≠ 0))) ∧
    (∃ (s : State) (t : Stamp), ((s.chip.isSealed = false ∨ t % nsPerS ≠ 0))) ∧
    (∃ (s : State) (l : List Byte), (l.length = 16) ∧ (leAt l 0 1 < 32) ∧ (s.chip.twinOn = true) ∧ ((s.chip.txStream (leAt l 0 1)).own.find? (fun o => o.1 == leAt l 4 8) = none) ∧ ((∀ a ∈ (s.chip.txStream (leAt l 0 1)).queue, a.idr = false))) ∧
    (∃ (s : State) (l : List Byte) (n : Nat), (l.length = 16) ∧ (leAt l 0 1 < 32) ∧ (s.chip.twinOn = true) ∧ ((s.chip.txStream (leAt l 0 1)).own.find? (fun o => o.1 == leAt l 4 8) = some (leAt l 4 8, n)) ∧ (n ≠ leAt l 12 2) ∧ ((∀ e ∈ s.chip.twn.seqs, e.stream = leAt l 0 1 → e.bucket ≠ leAt l 4 8)) ∧ ((∀ a ∈ (s.chip.txStream (leAt l 0 1)).queue, a.idr = false))) ∧
    (∃ (s : State) (l : List Byte), (l.length = 16) ∧ (leAt l 0 1 < 32) ∧ (s.chip.twinOn = false)) :=
  ⟨⟨st (txs1 31 { queue := [tau 1, tau 0] } (part (ports ++ [(R.netTx 31, b 31 + b 30), (R.netTxDelay 31, 0), (R.netTxSpacing 31, 100)]))), 5000, 31, 65535, tau 1, [tau 0], by decide +kernel⟩,
   ⟨st (txs1 31 { queue := [{ tau 0 with first := none }] } (part [(R.netTxDelay 31, 0), (R.netTx 31, b 31)])), 5000, 31, { tau 0 with first := none }, [], by decide +kernel⟩,
   ⟨st (txs1 31 { queue := [tau 0] } (part [(R.netTx 31, b 31), (R.netTxDelay 31, 10)])), 10999, 31, by decide +kernel⟩,
   ⟨st (part (ports ++ [(R.pitStat, b 31), (R.netTx 31, b 31 + b 30), (R.netTx 0, b 31), (R.twnClaimOwn, 0x107)])), 5000000, by decide +kernel⟩,
   ⟨st (part (ports ++ [(R.pitStat, b 31), (R.netTx 31, b 31 + b 30), (R.netTx 0, b 31), (R.twnClaimOwn, 0x107)])), 5000000000, by decide +kernel⟩,
   ⟨st (part []), 5000000000, by decide +kernel⟩,
   ⟨st (part [(R.pitStat, b 31)]), 5000000, by decide +kernel⟩,
   ⟨st (txs1 31 { next := some 5, queue := [tau 1] } (part [(R.twnCfg, b 31)])), [31, 0, 0, 0] ++ leBytes 8 77 ++ leBytes 2 9 ++ [0, 0], by decide +kernel⟩,
   ⟨st (txs1 31 { next := some 5, queue := [tau 1], own := [(77, 8)] } (part [(R.twnCfg, b 31)])), [31, 0, 0, 0] ++ leBytes 8 77 ++ leBytes 2 9 ++ [0, 0], 8, by decide +kernel⟩,
   ⟨st (part []), [31, 0, 0, 0] ++ leBytes 8 77 ++ leBytes 2 9 ++ [0, 0], by decide +kernel⟩⟩

end F10

namespace F11

def camst (p : Nat) (m : Cam) (c : Chip) : Chip := { c with cams := [(p, m)] }
def capst (q : Nat) (m : Cap) (c : Chip) : Chip := { c with caps := [(q, m)] }
def bun (num eff : Nat) : Bundle := { num := num, exp := 5, again := 6, dgain := 7, wb := [1, 2, 3, 4], eff := eff, fate := 0 }
def cfr (n : Nat) (k : Nat) : CamFrame := { n := n, arrival := 40, last := 50, rows := List.replicate k [9, 9], decided := true, num := 3 }
def lin (vc : Nat) : CsiLine := { vc := vc, dt := 0x2C, words := 3, headerOk := true, crcOk := true, lost := false, fault := false, samples := [8, 7], fill := 50 }
def camc : List (Nat × Nat) := [(R.camCtl 7, b 31 + b 27 1 + b 23 2), (R.camSize 7, b 16 2 + 2), (R.camProf0 7, b 30 2 + b 29 + 20)]
def capc : List (Nat × Nat) := [(R.capPort 3, b 31 + b 24 1 + b 23 + 9), (R.capStat 3, b 30 + b 24), (R.srcCfg 9, b 31 + b 28 4 + b 16 3 + b 8 4), (R.srcRecHi 9, 0x10), (R.srcPoolHi 9, 0x10), (R.srcPoolLo 9, 0x100000), (R.srcGeom 9, b 16 1 + 1), (R.srcLat 9, 3)]
def cpf (d : Bool) (buf : Option Nat) (rows : List (List (Nat × Nat × Nat))) : CapFrame := { slot := 9, buf := buf, seq := 5, arrival := 5000, differs := d, rows := rows }
def frec11 (code : Nat) : FrameRec := ⟨5, 6, 7, 0, 9, 12, code, false, false, false, 0⟩
def camo : List (Nat × Nat) := [(R.camOut 7 2, b 31 + 9), (R.camOut 7 0, b 31 + 8), (R.srcCfg 9, b 31 + b 28 3 + b 16 23 + b 8 4), (R.srcRecHi 9, 0x10), (R.srcPoolHi 9, 0x10), (R.srcPoolLo 9, 0x100000), (R.srcGeom 9, b 16 1 + 1), (R.camOutSize 7 2, b 16 1 + 1)]
def edp : List (Nat × Nat) := [(R.camProf3 7 0, 2), (R.camProf3 7 1, 1), (R.camProf6 7, b 16 2 + 1), (R.camProf7 7, 0xFFF)]

/-- States and operands that meet the hypotheses of `Obligations.CameraFrameStartsAndSensorWrites`. -/
theorem wit_CameraFrameStartCountsAndTakesABundle :
    (∃ (s : State) (p : Nat) (vc : Nat), (p < 8) ∧ (s.chip.bit (R.camCtl p) 31 = true) ∧ (vc = s.chip.fld (R.camCtl p) 24 23)) ∧
    (∃ (s : State) (t : Stamp) (p : Nat) (vc : Nat) (x : Bundle) (l : List Bundle), (p < 8) ∧ (s.chip.bit (R.camCtl p) 31 = true) ∧ (vc = s.chip.fld (R.camCtl p) 24 23) ∧ (s.chip.duePegs (fun _ => true) (76 + p) 0 t = []) ∧ ((s.chip.cam p).bundles = x :: l)) ∧
    (∃ (s : State) (t : Stamp) (p : Nat) (vc : Nat), (p < 8) ∧ (s.chip.bit (R.camCtl p) 31 = true) ∧ (vc = s.chip.fld (R.camCtl p) 24 23) ∧ (s.chip.duePegs (fun _ => true) (76 + p) 0 t = []) ∧ ((s.chip.cam p).bundles = [])) ∧
    (∃ (s : State) (p : Nat) (vc : Nat), (p < 8) ∧ ((s.chip.bit (R.camCtl p) 31 = false ∨ vc ≠ s.chip.fld (R.camCtl p) 24 23))) :=
  ⟨⟨st (camst 7 { count := 4294967295, bundles := [bun 5 1], frame := some (cfr 4 1), silent := true } (part (camc ++ [(R.camBndNum 7, 6)]))), 7, 2, by decide +kernel⟩,
   ⟨st (camst 7 { count := 4294967295, bundles := [bun 5 1] } (part (camc ++ [(R.camBndNum 7, 5)]))), 70, 7, 2, bun 5 1, [], by decide +kernel⟩,
   ⟨st (part (camc ++ [(R.camBndNum 7, 6)])), 70, 7, 2, by decide +kernel⟩,
   ⟨st (part camc), 7, 1, by decide +kernel⟩⟩

/-- States and operands that meet the hypotheses of `Obligations.CameraLinesAndEmbeddedDataFillTheFrame`. -/
theorem wit_CameraLinesAndEmbeddedDataFillTheFrame :
    (∃ (s : State) (p : Nat) (l : CsiLine) (f : CamFrame), (p < 8) ∧ (s.chip.bit (R.camCtl p) 31 = true) ∧ ((s.chip.cam p).frame = some f) ∧ (l.headerOk = true) ∧ (l.vc = s.chip.fld (R.camCtl p) 24 23) ∧ (l.dt = 0x2B + (s.chip.camDepth p - 10) / 2)) ∧
    (∃ (s : State) (p : Nat) (l : CsiLine) (f : CamFrame), (p < 8) ∧ (s.chip.bit (R.camCtl p) 31 = true) ∧ ((s.chip.cam p).frame = some f) ∧ (f.rows = []) ∧ (l.headerOk = true) ∧ (l.vc = s.chip.fld (R.camCtl p) 24 23) ∧ (l.dt = 0x2B + (s.chip.camDepth p - 10) / 2)) ∧
    (∃ (s : State) (p : Nat) (l : CsiLine) (f : CamFrame), (p < 8) ∧ (s.chip.bit (R.camCtl p) 31 = true) ∧ ((s.chip.cam p).frame = some f) ∧ ((l.headerOk = false ∨ (l.vc = s.chip.fld (R.camCtl p) 24 23 ∧ l.dt = 0x12 ∧ l.crcOk = false)))) ∧
    (∃ (s : State) (p : Nat) (l : CsiLine), (p < 8) ∧ ((s.chip.bit (R.camCtl p) 31 = false ∨ (s.chip.cam p).frame = none ∨ (l.headerOk = true ∧ (l.vc ≠ s.chip.fld (R.camCtl p) 24 23 ∨ (l.dt ≠ 0x2B + (s.chip.camDepth p - 10) / 2 ∧ (l.dt ≠ 0x12 ∨ l.crcOk = true))))))) ∧
    (∃ (p : Nat), (p < 8)) ∧
    (∃ (s : State) (p : Nat) (vc : Nat) (l : List Byte) (f : CamFrame) (x : Bundle) (r : List Bundle), (p < 8) ∧ (s.chip.bit (R.camProf0 p) 29 = true) ∧ (vc = s.chip.fld (R.camCtl p) 24 23) ∧ ((s.chip.cam p).frame = some f) ∧ (f.rows = []) ∧ (f.decided = false) ∧ (s.chip.predicted p f.n = x :: r) ∧ (s.chip.edMatches p l x = true)) ∧
    (∃ (s : State) (p : Nat) (vc : Nat) (l : List Byte) (f : CamFrame) (x : Bundle) (r : List Bundle), (p < 8) ∧ (s.chip.bit (R.camProf0 p) 29 = true) ∧ (vc = s.chip.fld (R.camCtl p) 24 23) ∧ ((s.chip.cam p).frame = some f) ∧ (f.rows = []) ∧ (f.decided = false) ∧ (s.chip.predicted p f.n = x :: r) ∧ (s.chip.edMatches p l x = false)) ∧
    (∃ (s : State) (p : Nat) (vc : Nat) (f : CamFrame), (p < 8) ∧ ((s.chip.bit (R.camProf0 p) 29 = false ∨ f.rows ≠ [] ∨ f.decided = true)) ∧ (vc = s.chip.fld (R.camCtl p) 24 23) ∧ ((s.chip.cam p).frame = some f)) ∧
    (∃ (s : State) (p : Nat) (f : CamFrame), (p < 8) ∧ ((s.chip.cam p).frame = some f)) ∧
    (∃ (s : State) (p : Nat) (vc : Nat) (hd : Bool), (p < 8) ∧ (((s.chip.cam p).frame = none ∨ (hd = true ∧ vc ≠ s.chip.fld (R.camCtl p) 24 23)))) :=
  ⟨⟨st (camst 7 { frame := some (cfr 4 1) } (part camc)), 7, lin 2, cfr 4 1, by decide +kernel⟩,
   ⟨st (camst 7 { frame := some (cfr 4 0) } (part (camc ++ camo))), 7, lin 2, cfr 4 0, by decide +kernel⟩,
   ⟨st (camst 7 { frame := some (cfr 4 1) } (part camc)), 7, { lin 0 with headerOk := false }, cfr 4 1, by decide +kernel⟩,
   ⟨st (camst 7 { frame := some (cfr 4 1) } (part camc)), 7, { lin 0 with fill := 100 }, by decide +kernel⟩,
   ⟨7, by decide +kernel⟩,
   ⟨st (camst 7 { frame := some { cfr 4 0 with decided := false }, bundles := [bun 9 6, bun 3 2] } (part (camc ++ edp))), 7, 2, [0, 6, 0, 5], { cfr 4 0 with decided := false }, bun 3 2, [], by decide +kernel⟩,
   ⟨st (camst 7 { frame := some { cfr 4 0 with decided := false }, bundles := [{ bun 9 4 with exp := 9 }, bun 3 2] } (part (camc ++ edp))), 7, 2, [0, 6, 0, 5], { cfr 4 0 with decided := false }, { bun 9 4 with exp := 9 }, [bun 3 2], by decide +kernel⟩,
   ⟨st (camst 6 { frame := some (cfr 4 0) } (part [(R.camCtl 6, b 31)])), 6, 0, cfr 4 0, by decide +kernel⟩,
   ⟨st (camst 6 { frame := some (cfr 4 0) } (part [(R.camCtl 6, b 31)])), 6, cfr 4 0, by decide +kernel⟩,
   ⟨st (part camc), 7, 2, false, by decide +kernel⟩⟩

/-- States and operands that meet the hypotheses of `Obligations.CameraFramesEndAndSilenceIsTold`. -/
theorem wit_CameraFramesEndAndSilenceIsTold :
    (∃ (s : State) (p : Nat) (vc : Nat) (f : CamFrame), (p < 8) ∧ (vc = s.chip.fld (R.camCtl p) 24 23) ∧ ((s.chip.cam p).frame = some f)) ∧
    (∃ (s : State) (p : Nat) (vc : Nat) (f : CamFrame), (p < 8) ∧ (vc = s.chip.fld (R.camCtl p) 24 23) ∧ ((s.chip.cam p).frame = some f) ∧ (f.decided = true) ∧ (f.linkBad = false) ∧ (f.fault = false) ∧ (f.lost = false) ∧ (f.rows.length = s.chip.camH p)) ∧
    (∃ (s : State) (t : Stamp) (p : Nat) (f : CamFrame), (p < 8) ∧ ((s.chip.cam p).frame = some f) ∧ (elapsed t f.last 100000000 = true)) ∧
    (∃ (s : State) (t : Stamp) (p : Nat), (p < 8) ∧ (((s.chip.cam p).frame.any (fun f => elapsed t f.last 100000000)) = false)) ∧
    (∃ (s : State) (p : Nat) (vc : Nat), (p < 8) ∧ ((vc ≠ s.chip.fld (R.camCtl p) 24 23 ∨ (s.chip.cam p).frame = none))) ∧
    (∃ (s : State) (p : Nat) (o : Nat) (f : CamFrame), (p < 8) ∧ (o < 3) ∧ ((s.chip.cam p).ended.find? (fun f => f.outs.any (fun u => u.1 == o)) = some f)) ∧
    (∃ (s : State) (p : Nat) (o : Nat) (n : Nat) (i : Nat) (f : CamFrame), (p < 8) ∧ (o < 3) ∧ (n < 256) ∧ (i < 32) ∧ ((s.chip.cam p).ended.find? (fun f => f.outs.any (fun u => u.1 == o)) = some f) ∧ (f.outs.find? (fun u => u.1 == o) = some (o, n, some i)) ∧ ((s.chip.frameRec n i).code = 1) ∧ (s.chip.isBeyond (s.chip.bufAddr n i) (frameBytes (s.chip.bufPic n i).fmt (s.chip.fld (R.camOutSize p o) 15 0) (s.chip.fld (R.camOutSize p o) 31 16)) = false) ∧ ((s.chip.bufAddr n i + frameBytes (s.chip.bufPic n i).fmt (s.chip.fld (R.camOutSize p o) 15 0) (s.chip.fld (R.camOutSize p o) 31 16) ≤ s.chip.recAddr n i ∨ s.chip.recAddr n i + 48 ≤ s.chip.bufAddr n i))) ∧
    (∃ (s : State) (p : Nat) (o : Nat), (p < 8) ∧ (o < 3) ∧ (((s.chip.cam p).ended.any (fun f => f.outs.any (fun u => u.1 == o))) = false)) ∧
    (∃ (s : State) (t : Stamp) (p : Nat), (p < 8) ∧ (s.chip.bit (R.camCtl p) 31 = true) ∧ ((s.chip.cam p).silent = false) ∧ (elapsed t (s.chip.cam p).lastStart 1000000000 = true)) ∧
    (∃ (s : State) (t : Stamp) (p : Nat), (p < 8) ∧ ((s.chip.bit (R.camCtl p) 31 = false ∨ (s.chip.cam p).silent = true ∨ elapsed t (s.chip.cam p).lastStart 1000000000 = false))) :=
  ⟨⟨st (camst 7 { frame := some { cfr 4 3 with decided := false, flags := 9 }, bundles := [bun 3 2] } (part camc)), 7, 2, { cfr 4 3 with decided := false, flags := 9 }, by decide +kernel⟩,
   ⟨st (camst 7 { frame := some (cfr 4 2) } (part camc)), 7, 2, cfr 4 2, by decide +kernel⟩,
   ⟨st (camst 7 { frame := some (cfr 4 1) } (part camc)), 100000050, 7, cfr 4 1, by decide +kernel⟩,
   ⟨st (camst 7 { frame := some (cfr 4 1) } (part camc)), 100000049, 7, by decide +kernel⟩,
   ⟨st (part camc), 7, 2, by decide +kernel⟩,
   ⟨st (camst 7 { ended := [{ cfr 3 2 with outs := [(1, 9, none)] }, { cfr 4 2 with outs := [(2, 9, none), (1, 9, none)] }] } (part camc)), 7, 2, { cfr 4 2 with outs := [(2, 9, none), (1, 9, none)] }, by decide +kernel⟩,
   ⟨st ((camst 7 { ended := [{ cfr 4 2 with outs := [(2, 9, some 1)], code := 2 }] } (part (camc ++ camo))).putFrameRec 9 1 (frec11 1)), 7, 2, 9, 1, { cfr 4 2 with outs := [(2, 9, some 1)], code := 2 }, by decide +kernel⟩,
   ⟨st (camst 7 { ended := [{ cfr 4 2 with outs := [(1, 9, some 1)] }] } (part camc)), 7, 2, by decide +kernel⟩,
   ⟨st (camst 7 { lastStart := 5 } (part camc)), 1000000005, 7, by decide +kernel⟩,
   ⟨st (camst 7 { silent := true } (part camc)), 1000000005, 7, by decide +kernel⟩⟩

/-- States and operands that meet the hypotheses of `Obligations.CameraFrameStartsAndSensorWrites`. -/
theorem wit_SensorWritesEndOrStop :
    (∃ (s : State) (st : Stamp) (p : Nat) (num : Nat) (rest : List (Nat × Stamp)), (p < 8) ∧ ((s.chip.cam p).writes = (num, st) :: rest)) ∧
    (∃ (s : State) (st : Stamp) (p : Nat) (num : Nat) (rest : List (Nat × Stamp)) (x : Bundle), (p < 8) ∧ ((s.chip.cam p).writes = (num, st) :: rest) ∧ ((s.chip.cam p).bundles.find? (fun u => u.num == num) = some x)) ∧
    (∃ (s : State) (t : Stamp) (st : Stamp) (p : Nat) (num : Nat) (rest : List (Nat × Stamp)) (x : Bundle), (p < 8) ∧ ((s.chip.cam p).writes = (num, st) :: rest) ∧ ((s.chip.cam p).bundles.find? (fun u => u.num == num) = some x) ∧ (elapsed t st (s.chip.fld (R.camProf0 p) 15 0 * 1000) = true)) ∧
    (∃ (s : State) (p : Nat), (p < 8) ∧ ((s.chip.cam p).writes = [])) ∧
    (∃ (s : State) (t : Stamp) (p : Nat), (p < 8) ∧ (((s.chip.cam p).writes.head?.any (fun w => elapsed t w.2 (s.chip.fld (R.camProf0 p) 15 0 * 1000))) = false)) ∧
    (∃ (s : State) (t : Stamp) (p : Nat), (p < 8) ∧ (s.chip.bit (R.camFsync p) 31 = true) ∧ (0 < s.chip.fld (R.camFsync p) 23 0) ∧ (t % (s.chip.fld (R.camFsync p) 23 0 * 1000) = s.chip.fld (R.camFsyncPh p) 23 0 * 1000 % (s.chip.fld (R.camFsync p) 23 0 * 1000))) ∧
    (∃ (s : State) (t : Stamp) (p : Nat), (p < 8) ∧ ((s.chip.bit (R.camFsync p) 31 = false ∨ s.chip.fld (R.camFsync p) 23 0 = 0 ∨ t % (s.chip.fld (R.camFsync p) 23 0 * 1000) ≠ s.chip.fld (R.camFsyncPh p) 23 0 * 1000 % (s.chip.fld (R.camFsync p) 23 0 * 1000)))) :=
  ⟨⟨st (camst 7 { writes := [(3, 40), (4, 50)], bundles := [bun 3 2] } (part (camc ++ [(R.camProf3 7 1, b 16 77 + 2), (R.camProf3 7 0, b 16 76 + 2)]))), 40, 7, 3, [(4, 50)], by decide +kernel⟩,
   ⟨st (camst 7 { writes := [(3, 40)], bundles := [bun 4 3, bun 3 2] } (part (camc ++ [(R.camProf3 7 1, b 16 77 + 2), (R.camProf3 7 0, b 16 76 + 2)]))), 40, 7, 3, [], bun 3 2, by decide +kernel⟩,
   ⟨st (camst 7 { writes := [(3, 40)], bundles := [bun 3 2] } (part camc)), 20040, 40, 7, 3, [], bun 3 2, by decide +kernel⟩,
   ⟨st (part camc), 7, by decide +kernel⟩,
   ⟨st (camst 7 { writes := [(3, 40)], bundles := [bun 3 2] } (part camc)), 20039, 7, by decide +kernel⟩,
   ⟨st (part [(R.camFsync 7, b 31 + 10), (R.camFsyncPh 7, 3)]), 53000, 7, by decide +kernel⟩,
   ⟨st (part []), 53000, 7, by decide +kernel⟩⟩

/-- States and operands that meet the hypotheses of `Obligations.CapturePortFollowsItsLinkAndFrames`. -/
theorem wit_CapturePortFollowsItsLinkAndFrames :
    (∃ (s : State) (q : Nat) (w : Nat) (h : Nat) (enc : Nat), (q < 4) ∧ (w < 65536) ∧ (h < 65536) ∧ (enc < 3) ∧ (s.chip.bit (R.capPort q) 31 = true) ∧ (s.chip.bit (R.capStat q) 30 = true) ∧ (s.chip.bit (R.capStat q) 24 = true)) ∧
    (∃ (s : State) (q : Nat) (w : Nat) (h : Nat) (enc : Nat), (q < 4) ∧ (w < 65536) ∧ (h < 65536) ∧ (enc < 3) ∧ (s.chip.bit (R.capPort q) 31 = true) ∧ (s.chip.bit (R.capStat q) 30 = true) ∧ (s.chip.bit (R.capStat q) 24 = true) ∧ ((s.chip.capPort q).frame = none) ∧ (s.chip.slotUnit (s.chip.fld (R.capPort q) 7 0) 4 q = true)) ∧
    (∃ (s : State) (q : Nat) (w : Nat) (h : Nat) (enc : Nat), (q < 4) ∧ (w < 65536) ∧ (h < 65536) ∧ (enc < 3) ∧ ((s.chip.bit (R.capPort q) 31 = false ∨ s.chip.bit (R.capStat q) 30 = false ∨ s.chip.bit (R.capStat q) 24 = false))) ∧
    (∃ (s : State) (q : Nat) (f : CapFrame), (q < 4) ∧ ((s.chip.capPort q).frame = some f) ∧ (f.differs = false) ∧ (f.rows.length < s.chip.fld (R.srcGeom f.slot) 31 16)) ∧
    (∃ (s : State) (q : Nat), (q < 4) ∧ (((s.chip.capPort q).frame.any (fun f => !f.differs && decide (f.rows.length < s.chip.fld (R.srcGeom f.slot) 31 16))) = false)) ∧
    (∃ (q : Nat), (q < 4)) ∧
    (∃ (s : State) (q : Nat) (f : CapFrame), (q < 4) ∧ ((s.chip.capPort q).frame = some f)) ∧
    (∃ (s : State) (q : Nat) (i : Nat) (f : CapFrame), (q < 4) ∧ ((s.chip.capPort q).frame = some f) ∧ (f.buf = some i) ∧ (f.slot < 256) ∧ (i < 32) ∧ ((s.chip.frameRec f.slot i).code = 1) ∧ (s.chip.isBeyond (s.chip.bufPic f.slot i).base (frameBytes (s.chip.bufPic f.slot i).fmt (s.chip.bufPic f.slot i).w (s.chip.bufPic f.slot i).h) = false)) ∧
    (∃ (s : State) (q : Nat), (q < 4) ∧ ((s.chip.capPort q).frame = none)) ∧
    (∃ (s : State) (q : Nat) (rate : Nat) (lanes : Nat), (q < 4) ∧ (rate < 5) ∧ (lanes < 3) ∧ (s.chip.bit (R.capPort q) 31 = true)) ∧
    (∃ (s : State) (q : Nat) (rate : Nat) (lanes : Nat) (tr : Bool) (v : Bool), (q < 4) ∧ (rate < 5) ∧ (lanes < 3) ∧ (s.chip.bit (R.capPort q) 31 = true) ∧ (((s.chip.capPort q).frame = none ∨ (tr = true ∧ v = true)))) ∧
    (∃ (s : State) (q : Nat) (rate : Nat) (lanes : Nat), (q < 4) ∧ (rate < 5) ∧ (lanes < 3) ∧ (s.chip.bit (R.capPort q) 31 = false)) ∧
    (∃ (s : State) (q : Nat), (q < 4) ∧ (s.chip.bit (R.capStat q) 31 = true)) ∧
    (∃ (s : State) (q : Nat), (q < 4) ∧ (s.chip.bit (R.capStat q) 31 = true)) ∧
    (∃ (s : State) (q : Nat), (q < 4) ∧ (s.chip.bit (R.capStat q) 31 = true)) ∧
    (∃ (s : State) (q : Nat), (q < 4) ∧ (s.chip.bit (R.capStat q) 31 = false)) :=
  ⟨⟨st (part capc), 3, 1, 1, 1, by decide +kernel⟩,
   ⟨st (part capc), 3, 1, 1, 1, by decide +kernel⟩,
   ⟨st (part capc), 2, 1, 1, 1, by decide +kernel⟩,
   ⟨st (capst 3 { frame := some (cpf false none []) } (part capc)), 3, cpf false none [], by decide +kernel⟩,
   ⟨st (part capc), 3, by decide +kernel⟩,
   ⟨3, by decide +kernel⟩,
   ⟨st (capst 3 { frame := some (cpf true none []) } (part capc)), 3, cpf true none [], by decide +kernel⟩,
   ⟨st ((capst 3 { frame := some (cpf false (some 1) [[(1, 2, 3)]]) } (part capc)).putFrameRec 9 1 (frec11 1)), 3, 1, cpf false (some 1) [[(1, 2, 3)]], by decide +kernel⟩,
   ⟨st (part capc), 3, by decide +kernel⟩,
   ⟨st (part [(R.capPort 3, b 31)]), 3, 4, 2, by decide +kernel⟩,
   ⟨st (part capc), 3, 4, 2, false, true, by decide +kernel⟩,
   ⟨st (part capc), 2, 4, 2, by decide +kernel⟩,
   ⟨st (part [(R.capStat 3, b 31), (R.capPort 3, b 28 4 + b 26 2)]), 3, by decide +kernel⟩,
   ⟨st (part [(R.capStat 3, b 31), (R.capEdid 3 63, b 24 171)]), 3, by decide +kernel⟩,
   ⟨st (part [(R.capStat 3, b 31)]), 3, by decide +kernel⟩,
   ⟨st (part []), 3, by decide +kernel⟩⟩

end F11

namespace F12

def pq (q : List PointFrame) (c : Chip) : Chip := { c with pnt := { c.pnt with queue := q } }
/-- A frame of one entry from feeder 9, counter 77, mode 0, with its check value. -/
def frameBody (idx : Nat) : List Byte := [0x50, 0x46, 0x01, 0, 9, 0] ++ leBytes 2 77 ++ leBytes 2 1 ++ leBytes 2 0 ++ leBytes 8 123 ++ leBytes 4 0 ++ leBytes 4 (idx + 2 ^ 23) ++ leBytes 4 0 ++ leBytes 8 4242
def frame (c : Chip) (idx : Nat) : List Byte := frameBody idx ++ leBytes 4 (crcOf (crcPoly (c.fld (R.chkCfg 0) 2 0)) (frameBody idx))
def eng : Chip := part [(R.pntCtl, b 31 + 4), (R.pntFeed 9, b 31 + 5), (R.pntFeedCount 9, 4), (R.pntTabHi, 0x10), (R.pntJrnHi, 0x10), (R.pntJrnLo, 4096)]
def syn (last : Nat) (f : Feeder) (c : Chip) : Chip := (c.setNat (R.pntFeedStat 9) (b 31 + last)).modFeeder 9 (fun _ => f)
def typed (c : Chip) : Chip := c.dramPut (dramBase + 32 + 26) 1 1
def mf (a : Nat) : MirrorFrame := { feeder := 9, counter := 77, check := 5, path := 0, arrival := a, bytes := frameBody 1, own := true, twin := false }
def mmsg (a : Nat) : List Byte := [1, 1, 28, 0, 0, 0, 0, 0] ++ leBytes 8 a ++ frameBody 1
def mof (a : Nat) : MirrorFrame := mirrorOf false 1 a ((frameBody 1).take 28)
def tw : List (Nat × Nat) := [(R.twnTiming, 500), (R.twnCfg, b 31)]

/-- States and operands that meet the hypotheses of `Obligations.PointFrameIsCheckedThenJudged`. -/
theorem wit_PointFrameIsCheckedThenJudged :
    (∃ (s : State) (q : PointFrame) (rest : List PointFrame), (s.chip.pnt.queue = q :: rest) ∧ (s.chip.bit R.pntCtl 31 = true)) ∧
    (∃ (s : State) (q : PointFrame) (rest : List PointFrame), (s.chip.pnt.queue = q :: rest) ∧ (s.chip.bit R.pntCtl 31 = true) ∧ (pointFormatOk q.bytes = false)) ∧
    (∃ (s : State) (t : Stamp) (q : PointFrame) (rest : List PointFrame), (s.chip.pnt.queue = q :: rest) ∧ (s.chip.bit R.pntCtl 31 = true) ∧ (pointFormatOk q.bytes = true) ∧ (((s.chip.at t).chkRun 0 q.bytes).2.ok = false)) ∧
    (∃ (s : State) (t : Stamp) (q : PointFrame) (rest : List PointFrame), (s.chip.pnt.queue = q :: rest) ∧ (s.chip.bit R.pntCtl 31 = true) ∧ (pointFormatOk q.bytes = true) ∧ (((s.chip.at t).chkRun 0 q.bytes).2.ok = true) ∧ (s.chip.feederPath (leAt q.bytes 4 1) q.flow = none)) ∧
    (∃ (s : State) (t : Stamp) (q : PointFrame) (rest : List PointFrame) (path : Nat), (s.chip.pnt.queue = q :: rest) ∧ (s.chip.bit R.pntCtl 31 = true) ∧ (pointFormatOk q.bytes = true) ∧ (((s.chip.at t).chkRun 0 q.bytes).2.ok = true) ∧ (s.chip.feederPath (leAt q.bytes 4 1) q.flow = some path) ∧ (s.chip.paired = false) ∧ (s.chip.feederSync (leAt q.bytes 4 1) = false)) ∧
    (∃ (s : State) (t : Stamp) (q : PointFrame) (rest : List PointFrame) (path : Nat) (f : Nat) (v : AliveVerdict), (s.chip.pnt.queue = q :: rest) ∧ (s.chip.bit R.pntCtl 31 = true) ∧ (pointFormatOk q.bytes = true) ∧ (((s.chip.at t).chkRun 0 q.bytes).2.ok = true) ∧ (f = leAt q.bytes 4 1) ∧ (s.chip.feederPath f q.flow = some path) ∧ (s.chip.paired = false) ∧ (s.chip.feederSync f = true) ∧ (v = aliveVerdict true (s.chip.fld (R.pntFeedStat f) 15 0) (leAt q.bytes 6 2) path (s.chip.feeder f))) ∧
    (∃ (s : State) (t : Stamp) (q : PointFrame) (rest : List PointFrame) (path : Nat) (f : Nat) (i : Nat), (s.chip.pnt.queue = q :: rest) ∧ (s.chip.bit R.pntCtl 31 = true) ∧ (pointFormatOk q.bytes = true) ∧ (((s.chip.at t).chkRun 0 q.bytes).2.ok = true) ∧ (f = leAt q.bytes 4 1) ∧ (s.chip.feederPath f q.flow = some path) ∧ (s.chip.paired = false) ∧ (leAt q.bytes 8 2 = 1) ∧ ((s.chip.feederSync f = false ∨ aliveVerdict true (s.chip.fld (R.pntFeedStat f) 15 0) (leAt q.bytes 6 2) path (s.chip.feeder f) = .new)) ∧ (i = (pointEntry q.bytes 0).index) ∧ (s.chip.inDram (s.chip.pntTab + 32 * i) 32 = true) ∧ (s.chip.entryCause f (leAt q.bytes 6 2) q.arrival false false (pointEntry q.bytes 0) = 0) ∧ ((s.chip.base40 R.pntJrnLo R.pntJrnHi + 32 * (s.chip.wide R.pntJcountLo R.pntJcountHi % 2 ^ s.chip.fld R.pntJrnSize 4 0) + 32 ≤ s.chip.pntTab + 32 * i ∨ s.chip.pntTab + 32 * i + 32 ≤ s.chip.base40 R.pntJrnLo R.pntJrnHi + 32 * (s.chip.wide R.pntJcountLo R.pntJcountHi % 2 ^ s.chip.fld R.pntJrnSize 4 0)))) ∧
    (∃ (s : State) (t : Stamp) (q : PointFrame) (rest : List PointFrame) (path : Nat) (f : Nat), (s.chip.pnt.queue = q :: rest) ∧ (s.chip.bit R.pntCtl 31 = true) ∧ (pointFormatOk q.bytes = true) ∧ (((s.chip.at t).chkRun 0 q.bytes).2.ok = true) ∧ (f = leAt q.bytes 4 1) ∧ (s.chip.feederPath f q.flow = some path) ∧ (s.chip.paired = true)) ∧
    (∃ (s : State), ((s.chip.bit R.pntCtl 31 = false ∨ s.chip.pnt.queue = []))) :=
  ⟨⟨st (pq [⟨5, 100, [1]⟩, ⟨5, 200, [2]⟩] eng), ⟨5, 100, [1]⟩, [⟨5, 200, [2]⟩], by decide +kernel⟩,
   ⟨st (pq [⟨5, 100, [1]⟩, ⟨5, 200, [2]⟩] eng), ⟨5, 100, [1]⟩, [⟨5, 200, [2]⟩], by decide +kernel⟩,
   ⟨st (pq [⟨5, 100, frameBody 1 ++ [1, 2, 3, 4]⟩] eng), 500, ⟨5, 100, frameBody 1 ++ [1, 2, 3, 4]⟩, [], by decide +kernel⟩,
   ⟨st (pq [⟨6, 100, frame eng 1⟩] eng), 500, ⟨6, 100, frame eng 1⟩, [], by decide +kernel⟩,
   ⟨st (pq [⟨5, 100, frame eng 1⟩] eng), 500, ⟨5, 100, frame eng 1⟩, [], 0, by decide +kernel⟩,
   ⟨st (pq [⟨5, 100, frame eng 1⟩] (syn 70 {} eng)), 500, ⟨5, 100, frame eng 1⟩, [], 0, 9, .new, by decide +kernel⟩,
   ⟨st (pq [⟨5, 100, frame eng 1⟩] (syn 70 {} (typed eng))), 500, ⟨5, 100, frame eng 1⟩, [], 0, 9, 1, by decide +kernel⟩,
   ⟨st (pq [⟨5, 100, frame eng 1⟩] (eng.setNat R.twnStat 2)), 500, ⟨5, 100, frame eng 1⟩, [], 0, 9, by decide +kernel⟩,
   ⟨st (pq [⟨5, 100, [1]⟩] (part [])), by decide +kernel⟩⟩

/-- States and operands that meet the hypotheses of `Obligations.FeedersMirrorsAndSweepsRun`. -/
theorem wit_FeedersResyncAndMirroredFramesWait :
    (∃ (s : State) (t : Stamp) (f : Nat), (f < 256) ∧ (s.chip.feederSync f = true) ∧ (elapsed t (s.chip.wide (R.pntFeedLastaLo f) (R.pntFeedLastaHi f)) (s.chip.fld (R.pntFeedResync f) 15 0 * nsPerMs) = true)) ∧
    (∃ (s : State) (t : Stamp) (f : Nat), (f < 256) ∧ ((s.chip.feederSync f = false ∨ elapsed t (s.chip.wide (R.pntFeedLastaLo f) (R.pntFeedLastaHi f)) (s.chip.fld (R.pntFeedResync f) 15 0 * nsPerMs) = false))) ∧
    (∃ (s : State) (t : Stamp) (l : List Byte) (m : MirrorFrame), (44 ≤ l.length) ∧ (s.chip.twinOn = true) ∧ (m = mirrorOf false (leAt l 1 1 % 2) (leAt l 8 8) ((l.drop 16).take (leAt l 2 2))) ∧ (mirrorMatch s.chip.pnt.applied m = none) ∧ (stampGap t ((match mirrorMatch s.chip.pnt.mirror m with | some x => (x.merge m).arrival | none => m.arrival) + s.chip.twinMargin) ≤ 0)) ∧
    (∃ (s : State) (t : Stamp) (l : List Byte) (m : MirrorFrame), (44 ≤ l.length) ∧ (s.chip.twinOn = true) ∧ (m = mirrorOf false (leAt l 1 1 % 2) (leAt l 8 8) ((l.drop 16).take (leAt l 2 2))) ∧ (mirrorMatch s.chip.pnt.applied m = none) ∧ (0 < stampGap t ((match mirrorMatch s.chip.pnt.mirror m with | some x => (x.merge m).arrival | none => m.arrival) + s.chip.twinMargin))) ∧
    (∃ (s : State) (l : List Byte) (m : MirrorFrame) (x : MirrorFrame), (44 ≤ l.length) ∧ (s.chip.twinOn = true) ∧ (m = mirrorOf false (leAt l 1 1 % 2) (leAt l 8 8) ((l.drop 16).take (leAt l 2 2))) ∧ (mirrorMatch s.chip.pnt.applied m = some x)) ∧
    (∃ (s : State) (l : List Byte), (44 ≤ l.length) ∧ (s.chip.twinOn = false)) ∧
    (∃ (s : State) (t : Stamp) (m : MirrorFrame) (rest : List MirrorFrame), (mirrorFirst s.chip.pnt.mirror = some (m, rest)) ∧ (0 ≤ stampGap t (m.arrival + s.chip.twinMargin))) ∧
    (∃ (s : State) (t : Stamp), ((mirrorFirst s.chip.pnt.mirror).all (fun x => decide (stampGap t (x.1.arrival + s.chip.twinMargin) < 0)) = true)) :=
  ⟨⟨st (part [(R.pntFeedStat 255, b 31 + 7), (R.pntFeedResync 255, 1)]), 1000000, 255, by decide +kernel⟩,
   ⟨st (part [(R.pntFeedStat 255, 7)]), 1000000, 255, by decide +kernel⟩,
   ⟨st (part tw), 1000000, mmsg 900000, mof 900000, by decide +kernel⟩,
   ⟨st (part tw), 1000000, mmsg 400000, mof 400000, by decide +kernel⟩,
   ⟨st { part tw with pnt := { applied := [{ mof 300000 with own := true, twin := false, bytes := [] }] } }, mmsg 900000, mof 900000, { mof 300000 with own := true, twin := false, bytes := [] }, by decide +kernel⟩,
   ⟨st (part []), mmsg 900000, by decide +kernel⟩,
   ⟨st { part tw with pnt := { mirror := [mf 700000, mf 400000] } }, 1000000, mf 400000, [mf 700000], by decide +kernel⟩,
   ⟨st { part tw with pnt := { mirror := [mf 700000] } }, 1000000, by decide +kernel⟩⟩

/-- States and operands that meet the hypotheses of `Obligations.FeedersMirrorsAndSweepsRun`. -/
theorem wit_SweepRunsAtItsPeriodAndPublishes :
    (∃ (s : State) (t : Stamp), (s.chip.bit R.pntCtl 31 = true) ∧ (s.chip.pnt.sweep = none) ∧ (t % (s.chip.fld R.pntSweep 15 0 * nsPerMs) = 0)) ∧
    (∃ (s : State) (t : Stamp), (s.chip.bit R.pntCtl 31 = true) ∧ (s.chip.pnt.sweep = none) ∧ (t % (s.chip.fld R.pntSweep 15 0 * nsPerMs) = 0) ∧ (s.chip.duePegs (fun _ => true) 84 0 t = [])) ∧
    (∃ (s : State) (t : Stamp), ((s.chip.bit R.pntCtl 31 = false ∨ s.chip.pnt.sweep.isSome = true ∨ t % (s.chip.fld R.pntSweep 15 0 * nsPerMs) ≠ 0))) ∧
    (∃ (s : State) (t : Stamp) (w : Sweep), (s.chip.pnt.sweep = some w) ∧ (t < s.chip.nextSweep w.start)) ∧
    (∃ (s : State) (t : Stamp) (w : Sweep), (s.chip.pnt.sweep = some w) ∧ (s.chip.nextSweep w.start ≤ t) ∧ (s.chip.bit R.pntCtl 31 = false)) ∧
    (∃ (s : State) (t : Stamp) (w : Sweep), (s.chip.pnt.sweep = some w) ∧ (s.chip.nextSweep w.start ≤ t) ∧ (s.chip.bit R.pntCtl 31 = true)) ∧
    (∃ (s : State), (s.chip.pnt.sweep = none)) :=
  ⟨⟨st (part [(R.pntCtl, b 31 + 4), (R.pntSweep, 10)]), 20000000, by decide +kernel⟩,
   ⟨st (part [(R.pntCtl, b 31 + 4), (R.pntSweep, 10)]), 20000000, by decide +kernel⟩,
   ⟨st (part [(R.pntSweep, 10)]), 20000000, by decide +kernel⟩,
   ⟨st { part [(R.pntSweep, 10), (R.pntSwres, 65535)] with pnt := { sweep := some ⟨20000000, 5⟩ } }, 29999999, ⟨20000000, 5⟩, by decide +kernel⟩,
   ⟨st { part [(R.pntSweep, 10), (R.pntSwres, 65535)] with pnt := { sweep := some ⟨20000000, 5⟩ } }, 30000000, ⟨20000000, 5⟩, by decide +kernel⟩,
   ⟨st { part [(R.pntCtl, b 31 + 4), (R.pntSweep, 10), (R.pntSwres, 65535)] with pnt := { sweep := some ⟨20000000, 5⟩ } }, 30000000, ⟨20000000, 5⟩, by decide +kernel⟩,
   ⟨st (part []), by decide +kernel⟩⟩

end F12

namespace F13

def ck (u : Nat) (x : ChkUnit) (c : Chip) : Chip := { c with chk := [(u, x)] }

/-- States and operands that meet the hypotheses of `Obligations.CheckUnitRunsItsMessageInTurn`. -/
theorem wit_CheckUnitRunsItsMessage :
    (∃ (s : State) (u : Nat), (5 ≤ u) ∧ (u < 16) ∧ (s.chip.bit (R.chkCfg u) 31 = true) ∧ ((s.chip.chkUnit u).isOpen = false)) ∧
    (∃ (s : State) (u : Nat), (5 ≤ u) ∧ (u < 16) ∧ ((s.chip.chkUnit u).isOpen = true)) ∧
    (∃ (s : State) (u : Nat), (5 ≤ u) ∧ (u < 16) ∧ ((s.chip.chkUnit u).isOpen = true)) ∧
    (∃ (s : State) (u : Nat), (5 ≤ u) ∧ (u < 16) ∧ ((s.chip.chkUnit u).isOpen = true)) ∧
    (∃ (s : State) (u : Nat), (5 ≤ u) ∧ (u < 16) ∧ ((s.chip.chkUnit u).isOpen = true) ∧ (((s.chip.chkUnit u).append = true ∨ aliveBytes (s.chip.chkUnit u).alive + (crcPoly (s.chip.chkUnit u).poly).width / 8 ≤ (s.chip.chkUnit u).fed.length))) ∧
    (∃ (s : State) (u : Nat), (5 ≤ u) ∧ (u < 16) ∧ ((s.chip.chkUnit u).isOpen = true) ∧ ((s.chip.chkUnit u).append = true)) ∧
    (∃ (s : State) (u : Nat) (m : Nat) (n : Nat) (body : List Byte), (5 ≤ u) ∧ (u < 16) ∧ ((s.chip.chkUnit u).isOpen = true) ∧ ((s.chip.chkUnit u).append = false) ∧ (m = (crcPoly (s.chip.chkUnit u).poly).width / 8) ∧ (n = aliveBytes (s.chip.chkUnit u).alive) ∧ (n + m ≤ (s.chip.chkUnit u).fed.length) ∧ (body = (s.chip.chkUnit u).fed.take ((s.chip.chkUnit u).fed.length - m))) ∧
    (∃ (s : State) (u : Nat), (5 ≤ u) ∧ (u < 16) ∧ ((s.chip.chkUnit u).isOpen = false)) ∧
    (∃ (u : Nat), (5 ≤ u) ∧ (u < 16)) :=
  ⟨⟨st (ck 15 { counter := 255 } (part [(R.chkCfg 15, b 31 + b 28 1 + 2), (R.chkRes 15, b 31 + 9)])), 15, by decide +kernel⟩,
   ⟨st (ck 5 { isOpen := true, fed := [1] } (part [])), 5, by decide +kernel⟩,
   ⟨st (ck 5 { isOpen := true, fed := [1] } (part [])), 5, by decide +kernel⟩,
   ⟨st (ck 15 { isOpen := true, fed := [1] } (part [])), 15, by decide +kernel⟩,
   ⟨st (ck 5 { isOpen := true, fed := [1, 2], append := true, alive := 1, counter := 5, poly := 3 } (part [(R.chkRes 5, b 27 + 65535)])), 5, by decide +kernel⟩,
   ⟨st (ck 5 { isOpen := true, fed := [1, 2], append := true, alive := 2, counter := 5, poly := 4 } (part [(R.chkRes 5, b 27 + 65535)])), 5, by decide +kernel⟩,
   ⟨st (ck 15 { isOpen := true, fed := [1, 2, 3, 4, 5, 6, 7, 8, 9, 10, 11, 12], append := false, poly := 1 } (part [(R.chkRes 15, b 27 + 65535)])), 15, 2, 0, [1, 2, 3, 4, 5, 6, 7, 8, 9, 10], by decide +kernel⟩,
   ⟨st (ck 15 { counter := 5, lastGood := some 4, fed := [4] } (part [])), 15, by decide +kernel⟩,
   ⟨15, by decide +kernel⟩⟩

/-- States and operands that meet the hypotheses of `Obligations.ServiceCheckUnitsCannotBeReconfigured`. -/
theorem wit_ServiceCheckUnitsCannotBeReconfigured :
    (∃ (u : Nat), (u ≤ 4)) ∧
    (∃ (s : State) (u : Nat), (u ≤ 4) ∧ (s.chip.bit (R.chkCfg u) 31 = true) ∧ ((s.chip.chkUnit u).isOpen = false)) ∧
    (∃ (s : State) (u : Nat), (u ≤ 4) ∧ ((s.chip.chkUnit u).isOpen = true) ∧ (((s.chip.chkUnit u).append = true ∨ aliveBytes (s.chip.chkUnit u).alive + (crcPoly (s.chip.chkUnit u).poly).width / 8 ≤ (s.chip.chkUnit u).fed.length))) ∧
    (∃ (s : State) (u : Nat), (u ≤ 4) ∧ ((s.chip.chkUnit u).isOpen = false)) ∧
    (∃ (s : State) (u : Nat), (u ≤ 4) ∧ ((s.chip.chkUnit u).isOpen = true)) ∧
    (∃ (u : Nat), (u < 16)) ∧
    (∃ (u : Nat), (u < 5)) :=
  ⟨⟨4, by decide +kernel⟩,
   ⟨st (part [(R.chkCfg 4, b 31)]), 4, by decide +kernel⟩,
   ⟨st (ck 0 { isOpen := true, append := true, fed := [1] } (part [(R.chkCfg 0, b 31), (R.pitRef, b 31)])), 0, by decide +kernel⟩,
   ⟨st (part [(R.chkCfg 4, b 31)]), 4, by decide +kernel⟩,
   ⟨st (ck 0 { isOpen := true, fed := [1] } (part [(R.chkCfg 0, b 31), (R.pitRef, b 31)])), 0, by decide +kernel⟩,
   ⟨15, by decide +kernel⟩,
   ⟨4, by decide +kernel⟩⟩

/-- States and operands that meet the hypotheses of `Obligations.CheckUnitRunsItsMessageInTurn`. -/
theorem wit_CheckUnitRefusesOutOfTurn :
    (∃ (s : State) (u : Nat), (u < 16) ∧ (s.chip.bit (R.chkCfg u) 31 = false)) ∧
    (∃ (s : State) (u : Nat), (u < 16) ∧ (s.chip.bit (R.chkCfg u) 31 = true) ∧ ((s.chip.chkUnit u).isOpen = true)) ∧
    (∃ (s : State) (u : Nat), (u < 16) ∧ ((s.chip.chkUnit u).isOpen = false)) ∧
    (∃ (s : State) (u : Nat), (u < 16) ∧ ((s.chip.chkUnit u).isOpen = true) ∧ ((s.chip.chkUnit u).append = false) ∧ ((s.chip.chkUnit u).fed.length < aliveBytes (s.chip.chkUnit u).alive + (crcPoly (s.chip.chkUnit u).poly).width / 8)) ∧
    (∃ (s : State) (u : Nat), (u < 16) ∧ ((s.chip.chkUnit u).isOpen = true)) :=
  ⟨⟨st (ck 9 { isOpen := true } (part [(R.chkCfg 9, b 30)])), 9, by decide +kernel⟩,
   ⟨st (ck 9 { isOpen := true } (part [(R.chkCfg 9, b 31)])), 9, by decide +kernel⟩,
   ⟨st (part [(R.chkCfg 4, b 31)]), 15, by decide +kernel⟩,
   ⟨st (ck 9 { isOpen := true, append := false, poly := 3, fed := [1] } (part [(R.chkCfg 9, b 31)])), 9, by decide +kernel⟩,
   ⟨st (ck 9 { isOpen := true } (part [(R.chkCfg 9, b 31)])), 9, by decide +kernel⟩⟩

end F13

namespace F15

def dp (p : Nat) (x : DpPort) (c : Chip) : Chip := { c with ports := [(p, x)] }
def top0 : Topology := { denied := [1], edid := [(2, [1, 2, 3, 4, 5])] }
/-- Heads 3 and 4 run on streams 0 and 1 of MST port 7. -/
def mst7 : List (Nat × Nat) := [(R.hedOut 3, b 30 1 + b 27 7), (R.hedStat 3, b 30 2 + b 26), (R.hedHtim 3, b 16 1920), (R.hedVtim 3, b 16 1080), (R.hedPeriod 3, 16666666), (R.hedOut 4, b 30 1 + b 27 7 + b 25 1), (R.hedStat 4, b 30 2 + b 26), (R.hedHtim 4, b 16 1920), (R.hedVtim 4, b 16 1080), (R.hedPeriod 4, 16666666), (R.dptCtl 7, b 31 + b 30 + b 27 4 + b 25 1 + 100)]
def sst7 : List (Nat × Nat) := [(R.hedOut 3, b 30 1 + b 27 7), (R.hedStat 3, b 30 2), (R.hedHtim 3, b 16 1920), (R.hedVtim 3, b 16 1080), (R.hedPeriod 3, 16666666), (R.dptCtl 7, b 31 + b 27 4 + b 25 1 + 100)]

/-- States and operands that meet the hypotheses of `Obligations.CommitsAndHeadEnablesAreTaken`. -/
theorem wit_CommitIsRequestedAndCancelled :
    (∃ (s : State) (h : Nat), (h < 32) ∧ (s.chip.bit (R.hedCtl h) 31 = true) ∧ (s.chip.bit (R.cmpStat h) 31 = false)) ∧
    (∃ (s : State) (h : Nat), (h < 32) ∧ (s.chip.bit (R.cmpStat h) 31 = true)) ∧
    (∃ (s : State) (h : Nat), (h < 32) ∧ ((s.chip.bit (R.hedCtl h) 31 = false ∨ s.chip.bit (R.cmpStat h) 31 = true))) ∧
    (∃ (s : State) (h : Nat), (h < 32) ∧ (s.chip.bit (R.cmpStat h) 31 = false)) :=
  ⟨⟨st (part [(R.hedCtl 31, b 31), (R.cmpStat 31, 5)]), 31, by decide +kernel⟩,
   ⟨st (part [(R.cmpStat 31, b 31 + b 30)]), 31, by decide +kernel⟩,
   ⟨st (part [(R.cmpStat 31, b 31)]), 31, by decide +kernel⟩,
   ⟨st (part [(R.cmpStat 31, 3)]), 31, by decide +kernel⟩⟩

/-- States and operands that meet the hypotheses of `Obligations.TransmitPortTrainsAndLosesItsLink`. -/
theorem wit_TransmitPortTrainsAndLosesItsLink :
    (∃ (s : State) (p : Nat), (p < 8) ∧ (s.chip.dpState p = 1)) ∧
    (∃ (s : State) (p : Nat) (st : Nat) (i : Nat), (p < 8) ∧ (s.chip.dpState p = 1) ∧ (st < 4) ∧ (i < 32)) ∧
    (∃ (s : State) (p : Nat), (p < 8) ∧ (s.chip.dpState p ≠ 1)) ∧
    (∃ (s : State) (p : Nat) (rate : Nat) (lanes : Nat) (good : List (Nat × Nat)), (p < 8) ∧ (s.chip.dpState p = 2) ∧ ((fallback (min (s.chip.fld (R.dptCtl p) 29 27) (s.chip.port p).sinkRate) (min (s.chip.fld (R.dptCtl p) 26 25) (s.chip.port p).sinkLanes)).find? (fun x => good.contains x) = some (rate, lanes))) ∧
    (∃ (s : State) (p : Nat) (good : List (Nat × Nat)), (p < 8) ∧ (s.chip.dpState p = 2) ∧ ((fallback (min (s.chip.fld (R.dptCtl p) 29 27) (s.chip.port p).sinkRate) (min (s.chip.fld (R.dptCtl p) 26 25) (s.chip.port p).sinkLanes)).find? (fun x => good.contains x) = none)) ∧
    (∃ (s : State) (p : Nat), (p < 8) ∧ (s.chip.dpState p ≠ 2)) ∧
    (∃ (s : State) (p : Nat), (p < 8) ∧ (s.chip.dpState p = 3)) ∧
    (∃ (s : State) (p : Nat), (p < 8) ∧ (s.chip.dpState p = 3)) ∧
    (∃ (s : State) (p : Nat) (lost : Bool) (mst : Option Topology), (p < 8) ∧ ((s.chip.dpState p ≠ 3 ∨ lost = false ∧ mst = none))) ∧
    (∃ (s : State) (p : Nat), (p < 8) ∧ (2 ≤ s.chip.dpState p)) ∧
    (∃ (s : State) (p : Nat), (p < 8) ∧ (s.chip.dpState p ≤ 1)) ∧
    (∃ (s : State) (t : Stamp) (p : Nat), (p < 8) ∧ (s.chip.dpState p = 4) ∧ (s.chip.bit (R.dptStat p) 31 = true) ∧ (elapsed t (s.chip.port p).waitSince (s.chip.fld (R.dptCtl p) 15 0 * nsPerMs) = true)) ∧
    (∃ (s : State) (t : Stamp) (p : Nat), (p < 8) ∧ ((s.chip.dpState p ≠ 4 ∨ s.chip.bit (R.dptStat p) 31 = false ∨ elapsed t (s.chip.port p).waitSince (s.chip.fld (R.dptCtl p) 15 0 * nsPerMs) = false))) ∧
    (∃ (s : State) (p : Nat), (p < 8) ∧ (s.chip.bit (R.dptCtl p) 31 = true) ∧ (s.chip.bit (R.dptStat p) 31 = true) ∧ (s.chip.dpState p = 4)) ∧
    (∃ (s : State) (p : Nat), (p < 8) ∧ (s.chip.bit (R.dptCtl p) 31 = true) ∧ (s.chip.bit (R.dptStat p) 31 = true) ∧ (s.chip.dpState p = 3)) ∧
    (∃ (s : State) (p : Nat), (p < 8) ∧ (s.chip.bit (R.dptCtl p) 31 = true) ∧ (s.chip.bit (R.dptStat p) 31 = true) ∧ ((s.chip.dpState p < 2 ∨ 4 < s.chip.dpState p))) ∧
    (∃ (s : State) (p : Nat), (p < 8) ∧ ((s.chip.bit (R.dptCtl p) 31 = false ∨ s.chip.bit (R.dptStat p) 31 = false ∨ s.chip.dpState p = 2))) :=
  ⟨⟨st (part [(R.dptStat 7, b 28 1 + 255)]), 7, by decide +kernel⟩,
   ⟨st (part [(R.dptStat 7, b 28 1 + 255)]), 7, 3, 1, by decide +kernel⟩,
   ⟨st (part [(R.dptStat 7, b 28 4 + 255)]), 7, by decide +kernel⟩,
   ⟨st (dp 7 { sinkRate := 3, sinkLanes := 2 } (part ((R.dptStat 7, b 28 2) :: mst7))), 7, 2, 1, [(2, 1), (1, 0)], by decide +kernel⟩,
   ⟨st (dp 7 { sinkRate := 3, sinkLanes := 2 } (part [(R.dptStat 7, b 28 2), (R.dptCtl 7, b 31 + b 27 4 + b 25 1)])), 7, [(6, 2)], by decide +kernel⟩,
   ⟨st (part [(R.dptStat 7, b 28 3)]), 7, by decide +kernel⟩,
   ⟨st (part [(R.dptStat 7, b 28 3 + b 8 255)]), 7, by decide +kernel⟩,
   ⟨st (part ((R.dptStat 7, b 28 3 + b 8 25 + b 16 15 + b 25 2) :: mst7)), 7, by decide +kernel⟩,
   ⟨st (part [(R.dptStat 7, b 28 4)]), 7, true, none, by decide +kernel⟩,
   ⟨st (part ((R.dptStat 7, b 31 + b 28 3 + b 16 3) :: mst7)), 7, by decide +kernel⟩,
   ⟨st (part [(R.dptStat 7, b 31 + b 28 1)]), 7, by decide +kernel⟩,
   ⟨st (part [(R.dptStat 7, b 31 + b 28 4), (R.dptCtl 7, 100)]), 100000000, 7, by decide +kernel⟩,
   ⟨st (part [(R.dptStat 7, b 31 + b 28 3)]), 5, 7, by decide +kernel⟩,
   ⟨st (part [(R.dptStat 7, b 31 + b 28 4), (R.dptCtl 7, b 31)]), 7, by decide +kernel⟩,
   ⟨st (part ((R.dptStat 7, b 31 + b 28 3 + b 16 3) :: mst7)), 7, by decide +kernel⟩,
   ⟨st (part [(R.dptStat 7, b 31 + b 28 1), (R.dptCtl 7, b 31)]), 7, by decide +kernel⟩,
   ⟨st (part [(R.dptStat 7, b 31 + b 28 2), (R.dptCtl 7, b 31)]), 7, by decide +kernel⟩⟩

/-- States and operands that meet the hypotheses of `Obligations.CommitsAndHeadEnablesAreTaken`. -/
theorem wit_HeadEnableStartsOnTheGrid :
    (∃ (s : State) (h : Nat) (w : Word), (h < 32) ∧ (s.chip.fld (R.hedStat h) 31 30 = 0) ∧ (w.getLsbD 31 = true)) ∧
    (∃ (s : State) (h : Nat) (w : Word), (h < 32) ∧ (s.chip.fld (R.hedStat h) 31 30 = 0) ∧ (w.getLsbD 31 = true) ∧ (s.chip.fld (R.hedOut h) 31 30 ≠ 1)) ∧
    (∃ (s : State) (h : Nat) (w : Word), (h < 32) ∧ (s.chip.fld (R.hedStat h) 31 30 = 1) ∧ (w.getLsbD 31 = false)) ∧
    (∃ (s : State) (h : Nat) (w : Word), (h < 32) ∧ ((2 ≤ s.chip.fld (R.hedStat h) 31 30 ∨ s.chip.fld (R.hedStat h) 31 30 = 1 ∧ w.getLsbD 31 = true ∨ s.chip.fld (R.hedStat h) 31 30 = 0 ∧ w.getLsbD 31 = false))) :=
  ⟨⟨st (part [(R.hedPeriod 31, 16666666), (R.hedPhase 31, 5)]), 31, 0x80000000, by decide +kernel⟩,
   ⟨st (part [(R.hedPeriod 31, 16666666), (R.hedPhase 31, 5)]), 31, 0x80000001, by decide +kernel⟩,
   ⟨st (part [(R.hedStat 31, b 30 1), (R.hedCtl 31, b 31)]), 31, 0, by decide +kernel⟩,
   ⟨st (part [(R.hedStat 31, b 30 2), (R.hedCtl 31, b 31)]), 31, 0, by decide +kernel⟩⟩

end F15

namespace F16

def tc (h : Nat) (x : TouchCh) (c : Chip) : Chip := { c with tch := [(h, x)] }
def pt (id : Nat) : TouchPt := { id := id, xc := 100, yc := 100, x := 5, y := 6, s := 100, area := 3, down := 0, long := false }
def rep (h k : Nat) : TouchReport := { channel := h, k := k, start := 77, bytes := List.replicate 320 0 }
/-- A report with one touch at (40, 50), in state `fl`. -/
def rep1 (h k fl : Nat) : TouchReport := { channel := h, k := k, start := 77, bytes := List.replicate 13 0 ++ [1] ++ List.replicate 18 0 ++ [3, BitVec.ofNat 8 fl, 40, 0, 50, 0] ++ List.replicate 282 0 }
def sd : ScanData := { slotsRead := [[100, 200, 3]], selfDrive := [4], selfSense := [5], idle := [[1, 2]], test := [3] }
/-- Channel `h` scans with 4 × 3 electrodes. -/
def tcr (h : Nat) : List (Nat × Nat) := [(R.tchStat h, b 30 2), (R.tchCtl h, b 31 + b 16 4 + b 8 3), (R.tchFreq h 1, b 31), (R.tchXy h, b 16 100 + 100)]

/-- States and operands that meet the hypotheses of `Obligations.ScanFramesReportAcrossTheLink`. -/
theorem wit_ScanFrameLeavesOneReport :
    (∃ (s : State) (t : Stamp) (h : Nat), (h < 4) ∧ (s.chip.fld (R.tchStat h) 31 30 ≠ 0) ∧ (0 < s.chip.fld (R.tchPeriod h) 26 0) ∧ (t % s.chip.fld (R.tchPeriod h) 26 0 = 0)) ∧
    (∃ (s : State) (t : Stamp) (h : Nat), (h < 4) ∧ ((s.chip.fld (R.tchStat h) 31 30 = 0 ∨ s.chip.fld (R.tchPeriod h) 26 0 = 0 ∨ t % s.chip.fld (R.tchPeriod h) 26 0 ≠ 0))) ∧
    (∃ (s : State) (start : Stamp) (h : Nat) (k : Nat), (h < 4) ∧ ((s.chip.tchan h).scan = some (k, start)) ∧ (s.chip.bit R.sysD2dStat 31 = true)) ∧
    (∃ (s : State) (start : Stamp) (h : Nat) (k : Nat), (h < 4) ∧ ((s.chip.tchan h).scan = some (k, start)) ∧ (s.chip.bit R.sysD2dStat 31 = true) ∧ (s.chip.fld (R.tchStat h) 31 30 = 1)) ∧
    (∃ (s : State) (start : Stamp) (h : Nat) (k : Nat), (h < 4) ∧ ((s.chip.tchan h).scan = some (k, start)) ∧ (s.chip.bit R.sysD2dStat 31 = false)) ∧
    (∃ (s : State) (h : Nat), (h < 4) ∧ ((s.chip.tchan h).scan = none)) :=
  ⟨⟨st (part [(R.tchStat 3, b 30 2), (R.tchPeriod 3, 5000000)]), 10000000, 3, by decide +kernel⟩,
   ⟨st (part [(R.tchStat 3, b 30 2), (R.tchPeriod 3, 5000000)]), 10000001, 3, by decide +kernel⟩,
   ⟨st (tc 3 { scan := some (7, 10000000), touches := [pt 4] } (part ((R.sysD2dStat, b 31) :: tcr 3))), 10000000, 3, 7, by decide +kernel⟩,
   ⟨st (tc 0 { scan := some (7, 10000000), test := some [], calFrames := 3 } (part ((R.sysD2dStat, b 31) :: tcr 0 ++ [(R.tchStat 0, b 30 1)]))), 10000000, 0, 7, by decide +kernel⟩,
   ⟨st (tc 3 { scan := some (7, 10000000), touches := [pt 4] } (part (tcr 3))), 10000000, 3, 7, by decide +kernel⟩,
   ⟨st (part (tcr 3)), 3, by decide +kernel⟩⟩

/-- States and operands that meet the hypotheses of `Obligations.TouchConditionsAndCalibrationEnd`. -/
theorem wit_TouchConditionsAreShownAndTold :
    (∃ (s : State) (h : Nat) (j : Nat), (h < 4) ∧ ((s.chip.tchan h).hopTo = some j) ∧ ((s.chip.tchan h).test = none) ∧ (s.chip.fld (R.tchStat h) 31 30 = 2)) ∧
    (∃ (s : State) (h : Nat), (h < 4) ∧ (((s.chip.tchan h).hopTo = none ∨ (s.chip.tchan h).test ≠ none ∨ s.chip.fld (R.tchStat h) 31 30 ≠ 2))) ∧
    (∃ (s : State) (t : Stamp) (since : Stamp) (h : Nat), (h < 4) ∧ ((s.chip.tchan h).noisySince = some since) ∧ (elapsed t since nsPerS = true) ∧ ((s.chip.tchan h).noisyTold = false)) ∧
    (∃ (s : State) (t : Stamp) (h : Nat), (h < 4) ∧ (((s.chip.tchan h).noisyTold = true ∨ (s.chip.tchan h).noisySince.all (fun since => !elapsed t since nsPerS) = true))) ∧
    (∃ (s : State) (t : Stamp) (h : Nat) (x : TouchPt), (h < 4) ∧ ((s.chip.tchan h).touches.find? (fun y => y.id == x.id) = some x) ∧ (x.long = false) ∧ (elapsed t x.down (s.chip.fld (R.tchLong h) 15 0 * nsPerS) = true)) ∧
    (∃ (s : State) (t : Stamp) (h : Nat) (id : Nat), (h < 4) ∧ (((s.chip.tchan h).touches.find? (fun y => y.id == id)).all (fun x => x.long || !elapsed t x.down (s.chip.fld (R.tchLong h) 15 0 * nsPerS)) = true)) ∧
    (∃ (s : State) (h : Nat) (low : Bool), (h < 4) ∧ (s.chip.bit (R.tchStat h) 28 ≠ low)) ∧
    (∃ (h : Nat), (h < 4)) :=
  ⟨⟨st (tc 2 { hopTo := some 5, active := 1, base := [(4096, 500), (4097, -7)], cal := [(4097, 3), (20481, 9)] } (part [(R.tchStat 2, b 30 2 + 1), (R.tchCtl 2, b 31 + b 16 2 + b 8 2)])), 2, 5, by decide +kernel⟩,
   ⟨st (tc 2 { hopTo := some 5, test := some [] } (part [(R.tchStat 2, b 30 2 + 1)])), 2, by decide +kernel⟩,
   ⟨st (tc 2 { noisySince := some 5 } (part [(R.tchFreq 2 7, b 31)])), 1000000005, 5, 2, by decide +kernel⟩,
   ⟨st (tc 2 { noisySince := some 5, noisyTold := true } (part [(R.tchFreq 2 7, b 31)])), 1000000005, 2, by decide +kernel⟩,
   ⟨st (tc 2 { touches := [pt 3, pt 19] } (part [(R.tchLong 2, 2)])), 2000000000, 2, pt 19, by decide +kernel⟩,
   ⟨st (tc 2 { touches := [pt 3, pt 19] } (part [(R.tchLong 2, 2)])), 1999999999, 2, 19, by decide +kernel⟩,
   ⟨st (part [(R.tchStat 1, b 30 2)]), 1, true, by decide +kernel⟩,
   ⟨1, by decide +kernel⟩⟩

/-- States and operands that meet the hypotheses of `Obligations.TouchConditionsAndCalibrationEnd`. -/
theorem wit_CalibrationAndSelfTestRunAndEnd :
    (∃ (s : State) (h : Nat), (h < 4) ∧ (s.chip.bit R.sysD2dStat 31 = true) ∧ (s.chip.bit (R.tchCtl h) 31 = true) ∧ (s.chip.fld (R.tchStat h) 31 30 ≠ 1) ∧ ((s.chip.tchan h).touches = []) ∧ ((s.chip.tchan h).objects = 0)) ∧
    (∃ (s : State) (h : Nat), (h < 4) ∧ (s.chip.bit R.sysD2dStat 31 = true) ∧ (s.chip.bit (R.tchCtl h) 31 = true) ∧ (s.chip.fld (R.tchStat h) 31 30 ≠ 1) ∧ ((s.chip.tchan h).test = none)) ∧
    (∃ (s : State) (h : Nat), (h < 4) ∧ (s.chip.bit R.sysD2dStat 31 = true) ∧ ((s.chip.bit (R.tchCtl h) 31 = false ∨ s.chip.fld (R.tchStat h) 31 30 = 1 ∨ (s.chip.tchan h).touches ≠ [] ∨ (s.chip.tchan h).objects ≠ 0))) ∧
    (∃ (s : State) (h : Nat), (h < 4) ∧ (s.chip.bit R.sysD2dStat 31 = true) ∧ ((s.chip.bit (R.tchCtl h) 31 = false ∨ s.chip.fld (R.tchStat h) 31 30 = 1 ∨ (s.chip.tchan h).test ≠ none))) ∧
    (∃ (s : State) (h : Nat), (h < 4) ∧ (s.chip.bit R.sysD2dStat 31 = false)) ∧
    (∃ (s : State) (h : Nat), (h < 4) ∧ (s.chip.fld (R.tchStat h) 31 30 = 1) ∧ (8 * (s.chip.hopFreqs h).length ≤ (s.chip.tchan h).calFrames)) ∧
    (∃ (s : State) (h : Nat), (h < 4) ∧ ((s.chip.fld (R.tchStat h) 31 30 ≠ 1 ∨ (s.chip.tchan h).calFrames < 8 * (s.chip.hopFreqs h).length))) ∧
    (∃ (s : State) (h : Nat) (l : List Nat), (h < 4) ∧ ((s.chip.tchan h).test = some l) ∧ ((s.chip.testPlan h).length ≤ l.length)) ∧
    (∃ (s : State) (h : Nat), (h < 4) ∧ ((s.chip.tchan h).test.all (fun l => decide (l.length < (s.chip.testPlan h).length)) = true)) :=
  ⟨⟨st (tc 3 { base := [(5, 6)], calFrames := 9, scan := some (3, 4) } (part ((R.sysD2dStat, b 31) :: tcr 3))), 3, by decide +kernel⟩,
   ⟨st (tc 3 { touches := [pt 1] } (part ((R.sysD2dStat, b 31) :: (R.tchTres 3, b 31 + 9) :: tcr 3))), 3, by decide +kernel⟩,
   ⟨st (tc 3 { touches := [pt 1] } (part ((R.sysD2dStat, b 31) :: tcr 3))), 3, by decide +kernel⟩,
   ⟨st (tc 3 { test := some [1] } (part ((R.sysD2dStat, b 31) :: tcr 3))), 3, by decide +kernel⟩,
   ⟨st (tc 3 { touches := [pt 1] } (part (tcr 3))), 3, by decide +kernel⟩,
   ⟨st (tc 3 { calFrames := 64, calSum := [(4096, 400), (8192, 40)] } (part [(R.tchStat 3, b 30 1), (R.tchFreq 3 1, b 31), (R.tchFreq 3 2, b 31), (R.tchCtl 3, b 16 2 + b 8 2), (R.tchTres 3, b 31)])), 3, by decide +kernel⟩,
   ⟨st (tc 3 { calFrames := 7 } (part [(R.tchStat 3, b 30 1), (R.tchFreq 3 1, b 31)])), 3, by decide +kernel⟩,
   ⟨st (tc 3 { test := some [1, 2, 65535, 40, 500, 6] } (part [(R.tchStat 3, b 29), (R.tchCtl 3, b 16 2 + b 8 2), (R.tchTres 3, 65535), (R.tchRef 3 1, 5), (R.tchRef 3 65, 50), (R.tchTest 3, b 16 300 + 90)])), 3, [1, 2, 65535, 40, 500, 6], by decide +kernel⟩,
   ⟨st (tc 3 { test := some [1, 2, 65535, 40, 500] } (part [(R.tchStat 3, b 29), (R.tchCtl 3, b 16 2 + b 8 2)])), 3, by decide +kernel⟩⟩

/-- States and operands that meet the hypotheses of `Obligations.ScanFramesReportAcrossTheLink`. -/
theorem wit_TouchReportsCrossTheLink :
    (∃ (s : State) (r : TouchReport) (rest : List TouchReport), (s.chip.touchIn = r :: rest) ∧ (r.channel < 4)) ∧
    (∃ (s : State) (r : TouchReport) (rest : List TouchReport) (ring : Nat), (s.chip.touchIn = r :: rest) ∧ (r.channel < 4) ∧ (s.chip.bit (R.tchPtr r.channel) 31 = false) ∧ (leAt r.bytes 13 1 = 0) ∧ (s.chip.pruCtlNow 0 / 2 ^ 31 % 2 = 0) ∧ (ring = s.chip.base40 (R.tchRingLo r.channel) (R.tchRingHi r.channel) + r.k % 2 ^ s.chip.fld (R.tchRingSize r.channel) 4 0 * 512) ∧ (r.bytes.length = 320) ∧ (s.chip.inDram ring 320 = true)) ∧
    (∃ (s : State) (r : TouchReport) (rest : List TouchReport) (k : Nat), (s.chip.touchIn = r :: rest) ∧ (r.channel < 4) ∧ (s.chip.bit (R.tchPtr r.channel) 31 = false) ∧ (leAt r.bytes 13 1 = 0) ∧ ((s.chip.tchan r.channel).lastK = some k)) ∧
    (∃ (s : State) (r : TouchReport) (rest : List TouchReport) (e : List Byte), (s.chip.touchIn = r :: rest) ∧ (r.channel < 4) ∧ (s.chip.bit (R.tchPtr r.channel) 31 = true) ∧ (s.chip.sectionBytes 7 = []) ∧ (((pieces 12 ((r.bytes.drop 32).take 240)).take (leAt r.bytes 13 1)).find? (fun e => leAt e 1 1 / 2 % 2 == 0) = some e)) ∧
    (∃ (s : State), (s.chip.touchIn = [])) ∧
    (∃ (s : State) (t : Stamp) (h : Nat), (h < 4) ∧ (s.chip.bit (R.tchPtr h) 31 = true) ∧ (elapsed t (s.chip.tchan h).lastTouch (s.chip.fld (R.tchPtrHold h) 15 0 * nsPerMs) = true)) ∧
    (∃ (s : State) (t : Stamp) (h : Nat), (h < 4) ∧ ((s.chip.bit (R.tchPtr h) 31 = false ∨ elapsed t (s.chip.tchan h).lastTouch (s.chip.fld (R.tchPtrHold h) 15 0 * nsPerMs) = false))) ∧
    (∃ (s : State), (s.chip.bit R.sysD2dStat 31 = true)) ∧
    (∃ (s : State), (s.chip.bit R.sysD2dStat 31 = false)) ∧
    (∃ (s : State), (s.chip.bit R.sysD2dStat 31 = false)) ∧
    (∃ (s : State) (l : List TouchReport), (s.chip.bit R.sysD2dStat 31 = false) ∧ (s.chip.d2dDown = []) ∧ (s.chip.d2dQueue = l.map .report)) ∧
    (∃ (s : State) (src : Source) (h : Nat), (h < 4) ∧ (s.chip.bit R.sysD2dStat 31 = false) ∧ (s.chip.d2dDown = [.write src false (R.tchCmd h) (cmdWord 1)]) ∧ (s.chip.d2dQueue = []) ∧ (s.chip.touchCause h 1 = 0)) ∧
    (∃ (s : State), (s.chip.bit R.sysD2dStat 31 = true)) :=
  ⟨⟨st { tc 3 { lastK := some 4 } (part [(R.tchRes 3, 65535)]) with touchIn := [rep 3 9, rep 2 1] }, rep 3 9, [rep 2 1], by decide +kernel⟩,
   ⟨st { tc 3 { lastK := some 4 } (part [(R.tchRingLo 3, 1024), (R.tchRingHi 3, 16), (R.tchRingSize 3, 4)]) with touchIn := [{ rep 3 9 with bytes := leBytes 32 77 ++ leBytes 288 5 }, rep 2 1] }, { rep 3 9 with bytes := leBytes 32 77 ++ leBytes 288 5 }, [rep 2 1], 1024 + 16 * 2 ^ 32 + 9 * 512, by decide +kernel⟩,
   ⟨st { tc 3 { lastK := some 4 } (part [(R.tchCnt 3 5, 4294967294)]) with touchIn := [rep 3 9] }, rep 3 9, [], 4, by decide +kernel⟩,
   ⟨st { tc 3 { lastK := some 8 } (part ((R.tchPtr 3, b 31 + b 24 3 + 9) :: (R.tchPtrOrg 3, b 16 7 + 65530) :: (R.tchPtrSize 3, b 16 200 + 100) :: tcr 3)) with touchIn := [rep1 3 9 1] }, rep1 3 9 1, [], [3, 1, 40, 0, 50, 0, 0, 0, 0, 0, 0, 0], by decide +kernel⟩,
   ⟨st (part []), by decide +kernel⟩,
   ⟨st (part [(R.tchPtr 3, b 31 + b 24 31), (R.tchPtrHold 3, 1), (R.cmpPtr 31, b 31 + 4)]), 1000000, 3, by decide +kernel⟩,
   ⟨st (part [(R.tchPtr 3, b 31 + b 24 31), (R.tchPtrHold 3, 1), (R.cmpPtr 31, b 31 + 4)]), 999999, 3, by decide +kernel⟩,
   ⟨st (part [(R.sysD2dStat, b 31 + b 16 255)]), by decide +kernel⟩,
   ⟨st (part [(R.sysD2dStat, b 16 255)]), by decide +kernel⟩,
   ⟨st { part [] with d2dQueue := [.report (rep 3 9), .loop [(R.muiMeas, 4)]], d2dDown := [.write .user false (R.tchPeriod 1) 77], d2dLost := 3 }, by decide +kernel⟩,
   ⟨st { part [] with d2dQueue := [.report (rep 3 9)], d2dLost := 3 }, [rep 3 9], by decide +kernel⟩,
   ⟨st { part (tcr 2) with d2dDown := [.write .user false (R.tchCmd 2) (cmdWord 1)], d2dLost := 3 }, .user, 2, by decide +kernel⟩,
   ⟨st (part [(R.sysD2dStat, b 31)]), by decide +kernel⟩⟩

end F16

namespace F17

def bl (x : Bolral) (c : Chip) : Chip := { c with bol := x }
def tw (x : Twin) (c : Chip) : Chip := { c with twn := x }
def up : Chip := part [(R.bolStat, b 31 + b 24 15), (R.bolCtl, b 31), (R.twnCfg, b 31)]
def flitW (n ty fl : Nat) (c : Chip) : List Byte := let l := leBytes 2 n ++ [BitVec.ofNat 8 ty, BitVec.ofNat 8 fl, 9, 8, 7, 6] ++ List.replicate 52 0; l ++ leBytes 4 (crcOf (crcPoly (c.fld (R.chkCfg 3) 2 0)) l)
def flit (n : Nat) (c : Chip) : List Byte := flitW n 5 15 c
/-- Check unit 3 has last accepted counter `n`. -/
def last3 (n : Nat) (c : Chip) : Chip := { c with chk := [(3, { lastGood := some n })] }
def vd (c : Chip) (l : List Byte) : ChkVerdict := ((c.at 5).chkRun 3 l).2
def msg32 (q : Nat) (b3 b2 : Nat) : List Byte := leBytes 2 q ++ [1, 0, 0, 0, 0, 0] ++ leBytes 8 b3 ++ leBytes 8 b2 ++ leBytes 8 0
def resy : List (Nat × Nat) := [(R.twnCfg, b 31), (R.pntCtl, 4), (R.pntTabHi, 0x10), (R.pntJrnHi, 0x10), (R.pntJrnLo, 0x100000)]
def rec32 : List Byte := leBytes 8 1 ++ leBytes 8 2 ++ leBytes 8 300 ++ leBytes 8 0

/-- States and operands that meet the hypotheses of `Obligations.BolralLinkCarriesFlits`. -/
theorem wit_BolralLinkCarriesFlits :
    (∃ (s : State), (s.chip.bit R.bolCtl 31 = true) ∧ (s.chip.twinOn = true) ∧ (s.chip.bolUp = false)) ∧
    (∃ (s : State) (lock : Nat), (lock < 16) ∧ (s.chip.bolUp = true) ∧ ((lock < 15 ∨ s.chip.bit R.bolCtl 31 = false ∨ s.chip.twinOn = false))) ∧
    (∃ (s : State) (lock : Nat), (lock < 16) ∧ (s.chip.bolUp = (decide (lock = 15) && s.chip.bit R.bolCtl 31 && s.chip.twinOn))) ∧
    (∃ (s : State) (t : Stamp) (flit : List Byte) (whole : List Byte) (v : ChkVerdict) (type : Nat), (flit.length = 64) ∧ (s.chip.bolUp = true) ∧ (v = ((s.chip.at t).chkRun 3 flit).2) ∧ (v.ok = true) ∧ ((s.chip.bol.nakWait = none ∧ v.gap = false ∧ v.rep = false ∨ s.chip.bol.nakWait = some v.alive)) ∧ (type = leAt flit 2 1) ∧ (whole = (if leAt flit 3 1 % 2 = 1 then [] else s.chip.bol.rxPart) ++ (flit.drop 4).take (leAt flit 3 1 / 4 + 1))) ∧
    (∃ (s : State) (t : Stamp) (flit : List Byte) (v : ChkVerdict) (e : Nat), (flit.length = 64) ∧ (s.chip.bolUp = true) ∧ (v = ((s.chip.at t).chkRun 3 flit).2) ∧ ((s.chip.bol.nakWait = none ∧ (v.ok = false ∨ v.gap = true) ∧ e = s.chip.bol.rxNext.getD 1 ∨ s.chip.bol.nakWait = some e ∧ v.ok = false))) ∧
    (∃ (s : State) (t : Stamp) (flit : List Byte) (v : ChkVerdict), (flit.length = 64) ∧ (s.chip.bolUp = true) ∧ (v = ((s.chip.at t).chkRun 3 flit).2) ∧ (v.ok = true) ∧ ((s.chip.bol.nakWait = none ∧ v.gap = false ∧ v.rep = true ∨ s.chip.bol.nakWait.any (fun e => e != v.alive) = true))) ∧
    (∃ (s : State) (flit : List Byte), (flit.length = 64) ∧ (s.chip.bolUp = false)) ∧
    (∃ (s : State) (k : Nat) (pre : List (Nat × List Byte)) (post : List (Nat × List Byte)) (f : List Byte), (k < 65536) ∧ (s.chip.bolUp = true) ∧ (s.chip.bol.held = pre ++ (k, f) :: post) ∧ (pre.any (fun e => e.1 == k) = false)) ∧
    (∃ (s : State) (k : Nat), (k < 65536) ∧ (s.chip.bolUp = true) ∧ (s.chip.bol.held.any (fun e => e.1 == k) = false)) ∧
    (∃ (s : State) (k : Nat), (k < 65536) ∧ (s.chip.bolUp = false)) :=
  ⟨⟨st (part [(R.bolCtl, b 31), (R.twnCfg, b 31)]), by decide +kernel⟩,
   ⟨st up, 7, by decide +kernel⟩,
   ⟨st up, 15, by decide +kernel⟩,
   ⟨st up, 5, flit 1 up, [9, 8, 7, 6], vd up (flit 1 up), 5, by decide +kernel⟩,
   ⟨st up, 5, List.replicate 64 1, vd up (List.replicate 64 1), 1, by decide +kernel⟩,
   ⟨st (bl { nakWait := some 7 } up), 5, flit 9 up, vd up (flit 9 up), by decide +kernel⟩,
   ⟨st (part []), flit 9 up, by decide +kernel⟩,
   ⟨st (bl { held := [(1, [1]), (2, [2]), (3, [3])] } up), 2, [(1, [1])], [(3, [3])], [2], by decide +kernel⟩,
   ⟨st (bl { held := [(1, [1])] } up), 2, by decide +kernel⟩,
   ⟨st (part []), 2, by decide +kernel⟩⟩

/-- States and operands that meet the hypotheses of `Obligations.TimeExchangeYieldsTheRoundTrip`. -/
theorem wit_TimeExchangeYieldsTheRoundTrip :
    (∃ (s : State) (t : Stamp), (s.chip.bolUp = true) ∧ (t % nsPerMs = 0)) ∧
    (∃ (s : State) (t : Stamp), ((s.chip.bolUp = false ∨ t % nsPerMs ≠ 0))) ∧
    (∃ (s : State) (l : List Byte), (l.length = 32) ∧ (s.chip.bolUp = true)) ∧
    (∃ (s : State) (l : List Byte), (l.length = 32) ∧ (s.chip.bolUp = false)) ∧
    (∃ (s : State) (t : Stamp) (a : Stamp) (l : List Byte) (x : Int × Int), (l.length = 32) ∧ (s.chip.bol.timeOpen = some (leNat (l.take 2), a)) ∧ (x = timeExchange a (leAt l 16 8) (leAt l 8 8) t (s.chip.sfld R.bolCal 31 0)) ∧ (rtDiscard s.chip.bol.rts x.1 = false)) ∧
    (∃ (s : State) (t : Stamp) (a : Stamp) (l : List Byte) (x : Int × Int), (l.length = 32) ∧ (s.chip.bol.timeOpen = some (leNat (l.take 2), a)) ∧ (x = timeExchange a (leAt l 16 8) (leAt l 8 8) t (s.chip.sfld R.bolCal 31 0)) ∧ (rtDiscard s.chip.bol.rts x.1 = true)) ∧
    (∃ (s : State) (l : List Byte), (l.length = 32) ∧ (s.chip.bol.timeOpen.all (fun o => o.1 != leNat (l.take 2)) = true)) :=
  ⟨⟨st (bl { timeSeq := 65535 } up), 7000000, by decide +kernel⟩,
   ⟨st (part []), 7000000, by decide +kernel⟩,
   ⟨st up, msg32 4 0 0, by decide +kernel⟩,
   ⟨st (part []), msg32 4 0 0, by decide +kernel⟩,
   ⟨st (bl { timeOpen := some (9, 1000), rts := [700, 800] } up), 1700, 1000, msg32 9 1320 1300, timeExchange 1000 1300 1320 1700 (up.sfld R.bolCal 31 0), by decide +kernel⟩,
   ⟨st (bl { timeOpen := some (9, 1000), rts := [600, 800] } up), 1700, 1000, msg32 9 1320 1300, timeExchange 1000 1300 1320 1700 (up.sfld R.bolCal 31 0), by decide +kernel⟩,
   ⟨st up, msg32 9 1320 1300, by decide +kernel⟩⟩

/-- States and operands that meet the hypotheses of `Obligations.PairStateClaimsAndRecordsFollow`. -/
theorem wit_PairStateFollowsHeartbeats :
    (∃ (s : State) (t : Stamp) (cur : Bool) (run : Nat), (t % (100 * nsPerUs) = 0) ∧ (s.chip.pairState ≠ 0) ∧ (cur = ((s.chip.at t).hbCurrent && s.chip.hbSealed)) ∧ (run = (if s.chip.twn.hbSince then s.chip.twn.hbRun + 1 else 0))) ∧
    (∃ (s : State) (t : Stamp), (t % (100 * nsPerUs) = 0) ∧ (s.chip.pairState = 1) ∧ (s.chip.isSealed = true) ∧ ((s.chip.at t).hbCurrent = true) ∧ (s.chip.hbSealed = true)) ∧
    (∃ (s : State) (t : Stamp), (t % (100 * nsPerUs) = 0) ∧ (s.chip.pairState = 2) ∧ (((s.chip.at t).hbCurrent = false ∨ s.chip.hbSealed = false))) ∧
    (∃ (s : State) (t : Stamp) (claim : Nat), (t % (100 * nsPerUs) = 0) ∧ (s.chip.pairState ≠ 0) ∧ (s.chip.twn.nextClaim = some claim)) ∧
    (∃ (s : State) (t : Stamp), (t % (100 * nsPerUs) = 0) ∧ ((s.chip.pairState = 1 ∨ 3 < s.chip.pairState)) ∧ ((s.chip.isSealed = false ∨ 3 < s.chip.pairState)) ∧ (s.chip.bolUp = true) ∧ (s.chip.bol.waiting = [])) ∧
    (∃ (s : State) (t : Stamp), ((t % (100 * nsPerUs) ≠ 0 ∨ s.chip.pairState = 0))) ∧
    (∃ (s : State) (t : Stamp) (since : Stamp), (s.chip.pairState = 3) ∧ (s.chip.twn.seenSince = some since) ∧ (s.chip.bit R.twnStat 6 = false) ∧ (s.chip.twinTrackers.any (fun x => x.current t) = true) ∧ (elapsed t since (s.chip.fld R.twnNet 15 0 * nsPerMs) = true)) ∧
    (∃ (s : State) (t : Stamp), ((s.chip.pairState ≠ 3 ∨ s.chip.bit R.twnStat 6 = true ∨ s.chip.twinTrackers.any (fun x => x.current t) = false ∨ s.chip.twn.seenSince.all (fun since => !elapsed t since (s.chip.fld R.twnNet 15 0 * nsPerMs)) = true))) ∧
    (∃ (s : State) (l : List Byte), (l.length = 24) ∧ (s.chip.twinOn = true)) ∧
    (∃ (s : State) (l : List Byte), (l.length = 24) ∧ (s.chip.twinOn = false)) :=
  ⟨⟨st (tw { lastHb := some 900000, hbFlags := 8, hbSince := true, hbRun := 3 } (part [(R.twnStat, 1), (R.pitStat, b 31)])), 1000000, true, 4, by decide +kernel⟩,
   ⟨st (tw { lastHb := some 900000, hbFlags := 8 } (part [(R.twnStat, 1), (R.pitStat, b 31)])), 1000000, by decide +kernel⟩,
   ⟨st (tw { lastHb := some 100000, hbFlags := 8 } (part [(R.twnStat, 2), (R.pitStat, b 31)])), 1000000, by decide +kernel⟩,
   ⟨st (tw { nextClaim := some 0x201 } (part [(R.twnStat, 3)])), 1000000, 0x201, by decide +kernel⟩,
   ⟨st (tw { nextClaim := some 0x201 } ((up.setNat R.twnStat (1 + b 4)).setNat R.twnCfg (b 31 + b 16))), 1000000, by decide +kernel⟩,
   ⟨st (tw { nextClaim := some 0x201 } (part [(R.twnStat, 3)])), 1000001, by decide +kernel⟩,
   ⟨st { tw { seenSince := some 0 } (part [(R.twnStat, 3), (R.twnWatch 1, b 31 + 200), (R.twnCfg, b 8 7), (R.twnNet, 2)]) with net := [(200, { trackers := [⟨7, 0x107, 1900000⟩] })] }, 2000000, 0, by decide +kernel⟩,
   ⟨st (part [(R.twnStat, 2)]), 5, by decide +kernel⟩,
   ⟨st up, leBytes 4 0x305 ++ leBytes 4 0x405 ++ leBytes 8 5 ++ [1, 12, 0x2A] ++ leBytes 5 0, by decide +kernel⟩,
   ⟨st (part []), leBytes 4 0x305 ++ leBytes 4 0x405 ++ leBytes 8 5 ++ [1, 12, 0x2A] ++ leBytes 5 0, by decide +kernel⟩⟩

/-- States and operands that meet the hypotheses of `Obligations.PairStateClaimsAndRecordsFollow`. -/
theorem wit_YieldAndResyncRecords :
    (∃ (s : State), (s.chip.leader = true) ∧ (s.chip.paired = true) ∧ (s.chip.bit R.twnStat 7 = false)) ∧
    (∃ (s : State), ((s.chip.leader = false ∨ s.chip.paired = false ∨ s.chip.bit R.twnStat 7 = true))) ∧
    (∃ (s : State) (i : Nat) (b : List Byte), (b.length = 32) ∧ (i < s.chip.fld R.pntCtl 23 0) ∧ (s.chip.twinOn = true) ∧ ((0 < stampGap (leAt b 16 8) (s.chip.pointRec i).arrival ∨ stampGap (leAt b 16 8) (s.chip.pointRec i).arrival = 0 ∧ leNat (s.chip.dramBytes (s.chip.pntTab + 32 * i) 32) < leNat b))) ∧
    (∃ (s : State) (i : Nat) (jrn : Nat) (b : List Byte), (b.length = 32) ∧ (i < s.chip.fld R.pntCtl 23 0) ∧ (s.chip.twinOn = true) ∧ (0 < stampGap (leAt b 16 8) (s.chip.pointRec i).arrival) ∧ (s.chip.inDram (s.chip.pntTab + 32 * i) 32 = true) ∧ (jrn = s.chip.base40 R.pntJrnLo R.pntJrnHi + 32 * (s.chip.wide R.pntJcountLo R.pntJcountHi % 2 ^ s.chip.fld R.pntJrnSize 4 0)) ∧ ((jrn + 32 ≤ s.chip.pntTab + 32 * i ∨ s.chip.pntTab + 32 * i + 32 ≤ jrn))) ∧
    (∃ (s : State) (i : Nat) (b : List Byte), (b.length = 32) ∧ (i < 2 ^ 32) ∧ ((s.chip.fld R.pntCtl 23 0 ≤ i ∨ stampGap (leAt b 16 8) (s.chip.pointRec i).arrival < 0 ∨ stampGap (leAt b 16 8) (s.chip.pointRec i).arrival = 0 ∧ leNat b ≤ leNat (s.chip.dramBytes (s.chip.pntTab + 32 * i) 32)))) ∧
    (∃ (s : State) (m : List Byte), (m.length = 4 + 36 * leAt m 0 2) ∧ (leAt m 0 2 ≤ 32) ∧ (s.chip.twinOn = true) ∧ (leAt m 2 2 % 2 = 0)) ∧
    (∃ (s : State), (s.chip.twinOn = true) ∧ (s.chip.twn.doneTx = false)) ∧
    (∃ (s : State), (s.chip.twinOn = true) ∧ (s.chip.twn.doneTx = true)) ∧
    (∃ (s : State) (m : List Byte), (m.length = 4 + 36 * leAt m 0 2) ∧ (leAt m 0 2 ≤ 32) ∧ (s.chip.twinOn = false)) :=
  ⟨⟨st (part [(R.twnStat, 2 + b 4), (R.twnCfg, b 31)]), by decide +kernel⟩,
   ⟨st (part [(R.twnStat, 1 + b 4)]), by decide +kernel⟩,
   ⟨st (part resy), 3, rec32, by decide +kernel⟩,
   ⟨st (part resy), 3, 0x1000100000, rec32, by decide +kernel⟩,
   ⟨st (part resy), 4, List.replicate 32 7, by decide +kernel⟩,
   ⟨st (part resy), [2, 0, 0, 0] ++ leBytes 4 3 ++ rec32 ++ leBytes 4 9 ++ rec32, by decide +kernel⟩,
   ⟨st (part resy), by decide +kernel⟩,
   ⟨st (tw { doneTx := true, replaced := 7 } (part resy)), by decide +kernel⟩,
   ⟨st (part []), [1, 0, 0, 0] ++ leBytes 4 3 ++ rec32, by decide +kernel⟩⟩

end F17

namespace F19

def rd (u g a : Nat) : Access := ⟨u, 1, false, 0, g, 0, a, 8, [], 0⟩
def wr (u g a : Nat) : Access := ⟨u, 1, false, 1, g, 0, a, 8, [1, 2, 3, 4, 5, 6, 7, 8], 0⟩
def wr2 (u g a : Nat) : Access := ⟨u, 1, false, 1, g, 0, a, 8, [1, 2, 3, 4, 5, 6, 7, 8], 2⟩
def tx1 (x : Access) : Txn := { access := x, inBudget := true, arrival := 0, oldRules := false, oldTags := false }
def chan (n : Nat) (h : Chan) (c : Chip) : Chip := { c with mem := { c.mem with chans := [(n, h)] } }
def chOf (a : Nat) : Nat := State.reset.chip.channelOf (a - dramBase)
/-- Channel of burst 0 with 12 reads. -/
def full : Chip := chan (chOf 0x1000000010) { queue := (List.range 12).map (fun i => tx1 (rd 2 5 (0x1000100000 + 64 * i))) } (part [])

/-- States and operands that meet the hypotheses of `Obligations.MemoryAccessesStoreReadAndComplete`. -/
theorem wit_DramWriteStoresItsBytesAlone :
    (∃ (s : State) (t : Stamp) (a : Access) (g : Access) (n : Nat), (accessShape a = true) ∧ (a.kind = 1) ∧ (g = (s.chip.at t).groupOf a) ∧ (placeOf s.chip.dramCap a.addr = .dram) ∧ (a.addr - dramBase < s.chip.dramUsable) ∧ (s.chip.passes g) ∧ ((rankOf g.group < 6 ∨ s.chip.mem.anyPanic = false)) ∧ (s.chip.mem.waiting = []) ∧ (n = s.chip.channelOf (a.addr - dramBase)) ∧ (s.chip.hasPlace n ((s.chip.at t).newTxn g) = true)) ∧
    (∃ (s : State) (t : Stamp) (a : Access) (g : Access) (n : Nat), (accessShape a = true) ∧ (a.kind = 1) ∧ (g = (s.chip.at t).groupOf a) ∧ (placeOf s.chip.dramCap a.addr = .dram) ∧ (a.addr - dramBase < s.chip.dramUsable) ∧ (s.chip.passes g) ∧ ((rankOf g.group < 6 ∨ s.chip.mem.anyPanic = false)) ∧ (s.chip.mem.waiting = []) ∧ (n = s.chip.channelOf (a.addr - dramBase)) ∧ (s.chip.hasPlace n ((s.chip.at t).newTxn g) = true) ∧ ((s.chip.bit R.dmcCfg 30 = false ∨ a.len = 64 ∨ a.rmw = 0 ∧ s.chip.mem.poison.contains ((a.addr - dramBase) / 64) = false))) ∧
    (∃ (s : State) (t : Stamp) (a : Access) (g : Access) (n : Nat), (accessShape a = true) ∧ (a.kind = 1) ∧ (g = (s.chip.at t).groupOf a) ∧ (placeOf s.chip.dramCap a.addr = .dram) ∧ (a.addr - dramBase < s.chip.dramUsable) ∧ (s.chip.passes g) ∧ ((rankOf g.group < 6 ∨ s.chip.mem.anyPanic = false)) ∧ (s.chip.mem.waiting = []) ∧ (n = s.chip.channelOf (a.addr - dramBase)) ∧ (s.chip.hasPlace n ((s.chip.at t).newTxn g) = true) ∧ (s.chip.bit R.dmcCfg 30 = true) ∧ (a.len < 64) ∧ ((a.rmw = 2 ∨ s.chip.mem.poison.contains ((a.addr - dramBase) / 64) = true))) ∧
    (∃ (s : State) (t : Stamp) (a : Access) (g : Access), (accessShape a = true) ∧ (g = (s.chip.at t).groupOf a) ∧ (placeOf s.chip.dramCap a.addr = .dram) ∧ (a.addr - dramBase < s.chip.dramUsable) ∧ (s.chip.passes g) ∧ ((rankOf g.group < 6 ∨ s.chip.mem.anyPanic = false)) ∧ (s.chip.mem.waiting.any (fun x => s.chip.hasPlace (s.chip.channelOf x.ofs) x) = false) ∧ (s.chip.hasPlace (s.chip.channelOf (a.addr - dramBase)) ((s.chip.at t).newTxn g) = false)) ∧
    (∃ (s : State) (t : Stamp) (a : Access) (g : Access), (accessShape a = true) ∧ (g = (s.chip.at t).groupOf a) ∧ (placeOf s.chip.dramCap a.addr = .dram) ∧ (6 ≤ rankOf g.group) ∧ (s.chip.mem.anyPanic = true) ∧ ((coreAccess g = true → s.chip.passes g))) ∧
    (∃ (s : State) (t : Stamp) (a : Access) (g : Access), (accessShape a = true) ∧ (g = (s.chip.at t).groupOf a) ∧ (placeOf s.chip.dramCap a.addr = .dram) ∧ (s.chip.dramUsable ≤ a.addr - dramBase) ∧ (s.chip.passes g) ∧ ((rankOf g.group < 6 ∨ s.chip.mem.anyPanic = false))) ∧
    (∃ (s : State) (t : Stamp) (a : Access) (g : Access), (accessShape a = true) ∧ (g = (s.chip.at t).groupOf a) ∧ (placeOf s.chip.dramCap a.addr = .dram) ∧ (s.chip.pruCtlNow a.unit / 2 ^ 31 % 2 = 1) ∧ (s.chip.checkCause g ≠ 0) ∧ ((coreAccess g = true ∨ rankOf g.group < 6 ∨ s.chip.mem.anyPanic = false))) :=
  ⟨⟨st (part []), 5, wr 2 0 0x1000000010, wr 2 0 0x1000000010, chOf 0x1000000010, by unfold Chip.passes; decide +kernel⟩,
   ⟨st (chan 1 { queue := [tx1 (rd 3 4 0x1000000100)] } (part [(R.dmcCfg, b 30)])), 5, wr 20 4 0x1000000110, wr 20 3 0x1000000110, 1, by unfold Chip.passes; decide +kernel⟩,
   ⟨st (chan 1 { queue := [tx1 (rd 3 4 0x1000000100)] } (part [(R.dmcCfg, b 30)])), 5, wr2 20 4 0x1000000110, wr2 20 3 0x1000000110, 1, by unfold Chip.passes; decide +kernel⟩,
   ⟨st full, 5, wr 0 8 0x1000000010, wr 0 8 0x1000000010, by unfold Chip.passes; decide +kernel⟩,
   ⟨st { part [] with mem := { (part []).mem with headPanic := 4 } }, 5, rd 0 8 0x1000000010, rd 0 8 0x1000000010, by unfold Chip.passes; decide +kernel⟩,
   ⟨st (part [(R.dmcCfg, b 30)]), 5, rd 2 0 (dramBase + (part [(R.dmcCfg, b 30)]).dramUsable), rd 2 0 (dramBase + (part [(R.dmcCfg, b 30)]).dramUsable), by unfold Chip.passes; decide +kernel⟩,
   ⟨st { part [] with pruCur := [(2, b 31)] }, 5, rd 2 0 0x1000000010, rd 2 0 0x1000000010, by decide +kernel⟩⟩

/-- A state and operands that meet the hypotheses of `Obligations.MemoryAccessesStoreReadAndComplete`. -/
theorem wit_DramReadWaitsWithTheBytesHeld :
    (∃ (s : State) (t : Stamp) (a : Access) (g : Access) (n : Nat), (accessShape a = true) ∧ (a.kind ≠ 1) ∧ (g = (s.chip.at t).groupOf a) ∧ (placeOf s.chip.dramCap a.addr = .dram) ∧ (a.addr - dramBase < s.chip.dramUsable) ∧ (s.chip.passes g) ∧ ((rankOf g.group < 6 ∨ s.chip.mem.anyPanic = false)) ∧ (s.chip.mem.waiting = []) ∧ (n = s.chip.channelOf (a.addr - dramBase)) ∧ (s.chip.hasPlace n ((s.chip.at t).newTxn g) = true)) :=
  ⟨st { part [] with dram := [(19, 7)] }, 5, rd 2 0 0x1000000010, rd 2 0 0x1000000010, chOf 0x1000000010, by unfold Chip.passes; decide +kernel⟩

/-- States and operands that meet the hypotheses of `Obligations.MemoryAccessesStoreReadAndComplete`. -/
theorem wit_ReadCompletesWithItsData :
    (∃ (s : State) (t : Stamp) (n : Nat) (ecc : Nat) (x : Txn), (n < 16) ∧ (ecc < 3) ∧ ((s.chip.at t).choose n (s.chip.readyOf n false) = some x)) ∧
    (∃ (s : State) (t : Stamp) (n : Nat) (ecc : Nat) (x : Txn), (n < 16) ∧ (ecc < 3) ∧ (s.chip.mem.waiting = []) ∧ ((s.chip.at t).choose n (s.chip.readyOf n false) = some x)) ∧
    (∃ (s : State) (n : Nat) (ecc : Nat), (n < 16) ∧ (ecc < 3) ∧ (s.chip.readyOf n false = [])) :=
  ⟨⟨st (chan 3 { queue := [tx1 (rd 20 3 0x1000000040), tx1 (rd 2 0 0x1000000080), tx1 (wr 2 0 0x1000000030)] } (part [])), 5, 3, 2, tx1 (rd 2 0 0x1000000080), by decide +kernel⟩,
   ⟨st (chan 3 { queue := [tx1 (rd 20 3 0x1000000040), tx1 (rd 2 0 0x1000000080), tx1 (wr 2 0 0x1000000030)] } (part [(R.dmcCfg, b 30)])), 5, 3, 2, tx1 (rd 2 0 0x1000000080), by decide +kernel⟩,
   ⟨st (chan 3 { queue := [tx1 (wr 2 0 0x1000000030)] } (part [(R.dmcCfg, b 30)])), 3, 2, by decide +kernel⟩⟩

/-- States and operands that meet the hypotheses of `Obligations.ChannelsScrubsAndHoldsAreKept`. -/
theorem wit_ChannelUpkeepIsShownAndTold :
    (∃ (s : State) (n : Nat) (bank : Nat), (n < 16) ∧ (bank < 16) ∧ (((s.chip.chan n).queue.any (fun x => s.chip.pressed x && s.chip.bankOf x.ofs == bank) = false ∨ 8 ≤ mapGet (fun _ => 0) (s.chip.chan n).postponed bank))) ∧
    (∃ (s : State) (n : Nat) (bank : Nat), (n < 16) ∧ (bank < 16) ∧ ((s.chip.chan n).queue.any (fun x => s.chip.pressed x && s.chip.bankOf x.ofs == bank) = true) ∧ (mapGet (fun _ => 0) (s.chip.chan n).postponed bank < 8)) ∧
    (∃ (s : State) (n : Nat) (code : Nat), (n < 16) ∧ (code < 32) ∧ (s.chip.fld (R.dmcChStat n) 28 24 ≠ code)) ∧
    (∃ (n : Nat), (n < 16)) ∧
    (∃ (n : Nat) (want : Int), (n < 16) ∧ (-32 ≤ want) ∧ (want ≤ 32)) ∧
    (∃ (n : Nat) (want : Int), (n < 16) ∧ (32 < want)) ∧
    (∃ (n : Nat) (want : Int), (n < 16) ∧ (want < -32)) :=
  ⟨⟨st (chan 3 { queue := [tx1 (wr 2 0 0x1000000030)], rows := [(4, 7), (5, 3)], postponed := [(5, 2)] } (part [])), 3, 5, by decide +kernel⟩,
   ⟨st (chan 3 { queue := [{ tx1 (rd 2 0 0x1000000030) with carried := true }], rows := [(0, 7)], postponed := [(0, 7)] } (part [])), 3, 0, by decide +kernel⟩,
   ⟨st (part [(R.dmcChStat 3, 0xFFFFFFFF)]), 3, 5, by decide +kernel⟩,
   ⟨3, by decide +kernel⟩,
   ⟨3, -32, by decide +kernel⟩,
   ⟨3, 33, by decide +kernel⟩,
   ⟨3, -33, by decide +kernel⟩⟩

/-- States and operands that meet the hypotheses of `Obligations.ChannelsScrubsAndHoldsAreKept`. -/
theorem wit_ScrubReadMovesThePassOn :
    (∃ (s : State) (n : Nat) (ofs : Nat) (ecc : Nat), (n < 16) ∧ (ecc < 3) ∧ (s.chip.bit R.dmcCfg 30 = true) ∧ (0 < s.chip.fld R.dmcScrub 15 0) ∧ (s.chip.channelOf ofs = n) ∧ (ofs < s.chip.dramUsable)) ∧
    (∃ (s : State) (t : Stamp) (start : Stamp) (n : Nat) (ofs : Nat), (n < 16) ∧ (s.chip.bit R.dmcCfg 30 = true) ∧ (0 < s.chip.fld R.dmcScrub 15 0) ∧ (s.chip.channelOf ofs = n) ∧ (ofs < s.chip.dramUsable) ∧ (s.chip.mem.poison.contains (ofs / 64) = false) ∧ (start = (if (s.chip.chan n).scrubbed = 0 then t else (s.chip.chan n).scrubStart))) ∧
    (∃ (s : State) (n : Nat) (ofs : Nat) (ecc : Nat), (n < 16) ∧ (ecc < 3) ∧ ((s.chip.bit R.dmcCfg 30 = false ∨ s.chip.fld R.dmcScrub 15 0 = 0 ∨ s.chip.channelOf ofs ≠ n ∨ s.chip.dramUsable ≤ ofs))) :=
  ⟨⟨st (chan 3 { scrubTold := true } (part [(R.dmcCfg, b 30), (R.dmcScrub, 24)])), 3, 768, 1, by decide +kernel⟩,
   ⟨st (chan 3 { scrubbed := 5, scrubStart := 7 } (part [(R.dmcCfg, b 30), (R.dmcScrub, 1)])), 7200000000008, 7, 3, 768, by decide +kernel⟩,
   ⟨st (part [(R.dmcCfg, 0), (R.dmcScrub, 1)]), 3, 768, 2, by decide +kernel⟩⟩

/-- States and operands that meet the hypotheses of `Obligations.ChannelsScrubsAndHoldsAreKept`. -/
theorem wit_HoldsAndOverrunsAreTold :
    (∃ (s : State) (t : Stamp) (since : Stamp), (s.chip.mem.holdSince = some since) ∧ ((1000000 : Int) < stampGap t since) ∧ ((mapGet rateDefault s.chip.rate (rateKey 0xD004 0)).last = none)) ∧
    (∃ (s : State) (t : Stamp) (since : Stamp) (last : Stamp), (s.chip.mem.holdSince = some since) ∧ ((1000000 : Int) < stampGap t since) ∧ ((mapGet rateDefault s.chip.rate (rateKey 0xD004 0)).last = some last)) ∧
    (∃ (s : State) (t : Stamp), (s.chip.mem.holdSince.all (fun since => decide (stampGap t since ≤ 1000000)) = true)) ∧
    (∃ (s : State) (t : Stamp) (g : Nat) (r : Regulator), (g < 10) ∧ (r = mapGet regDefault s.chip.mem.regs g) ∧ (1000 ≤ r.run) ∧ (t / 1000000 ≤ r.lastMs + 1) ∧ (r.told.all (fun l => elapsed t l nsPerS) = true)) ∧
    (∃ (s : State) (t : Stamp) (g : Nat) (r : Regulator), (g < 10) ∧ (r = mapGet regDefault s.chip.mem.regs g) ∧ ((r.run < 1000 ∨ r.lastMs + 1 < t / 1000000 ∨ r.told.all (fun l => elapsed t l nsPerS) = false))) :=
  ⟨⟨st { part [(R.dmcGstat, b 31)] with mem := { (part []).mem with holdSince := some 5 } }, 1000006, 5, by decide +kernel⟩,
   ⟨st { part [(R.dmcGstat, b 31)] with mem := { (part []).mem with holdSince := some 5 }, rate := [(rateKey 0xD004 0, { last := some 7, count := 0, first := none })] }, 1000000007, 5, 7, by decide +kernel⟩,
   ⟨st { part [(R.dmcGstat, b 31)] with mem := { (part []).mem with holdSince := some 5 } }, 1000005, by decide +kernel⟩,
   ⟨st { part [] with mem := { (part []).mem with regs := [(3, { run := 1000, lastMs := 7, excess := 4 })] } }, 8999999, 3, { run := 1000, lastMs := 7, excess := 4 }, by decide +kernel⟩,
   ⟨st { part [] with mem := { (part []).mem with regs := [(3, { run := 999, lastMs := 7, excess := 4 })] } }, 8999999, 3, { run := 999, lastMs := 7, excess := 4 }, by decide +kernel⟩⟩

/-- States and operands that meet the hypotheses of `Obligations.TrainingHelperRunsAndReports`. -/
theorem wit_TrainingHelperRunsAndReports :
    (∃ (s : State) (src : Source) (n : Nat), (n < 16) ∧ ((s.chip.chan n).running = false) ∧ ((s.chip.isSealed = false ∨ src = .peg ∧ s.chip.fld (R.dmcTrnRow n) 16 0 = s.chip.fld R.dmcSweep 16 0))) ∧
    (∃ (s : State) (src : Source) (n : Nat), (n < 16) ∧ ((s.chip.isSealed = false ∧ (s.chip.chan n).running = true ∨ src = .peg ∧ s.chip.isSealed = true ∧ ((s.chip.chan n).running = true ∨ s.chip.fld (R.dmcTrnRow n) 16 0 ≠ s.chip.fld R.dmcSweep 16 0)))) ∧
    (∃ (s : State) (src : Source) (n : Nat), (n < 16) ∧ ((s.chip.chan n).running = true) ∧ ((s.chip.isSealed = false ∨ src = .peg))) ∧
    (∃ (s : State) (src : Source) (n : Nat), (n < 16) ∧ ((s.chip.chan n).running = false) ∧ ((s.chip.isSealed = false ∨ src = .peg))) ∧
    (∃ (s : State) (src : Source) (n : Nat), (n < 16) ∧ (s.chip.isSealed = true) ∧ (src ≠ .peg)) ∧
    (∃ (s : State) (src : Source) (n : Nat), (n < 16) ∧ (s.chip.isSealed = true) ∧ (src ≠ .peg)) ∧
    (∃ (s : State) (n : Nat), (n < 16) ∧ ((s.chip.chan n).running = true)) ∧
    (∃ (s : State) (n : Nat), (n < 16) ∧ ((s.chip.chan n).running = false)) ∧
    (∃ (n : Nat), (n < 16)) :=
  ⟨⟨st (part [(R.dmcTrnCtl 3, b 24 1), (R.dmcTrnRes 3, b 31 + 9)]), .user, 3, by decide +kernel⟩,
   ⟨st (chan 3 { running := true } (part [])), .user, 3, by decide +kernel⟩,
   ⟨st (chan 3 { running := true } (part [(R.dmcTrnRes 3, 65535)])), .user, 3, by decide +kernel⟩,
   ⟨st (part []), .user, 3, by decide +kernel⟩,
   ⟨st (part [(R.pitStat, b 31), (R.pitSwrCount, 4)]), .user, 3, by decide +kernel⟩,
   ⟨st (chan 3 { running := true } (part [(R.pitStat, b 31), (R.pitSwr, b 31)])), .mgt, 3, by decide +kernel⟩,
   ⟨st (chan 3 { running := true } (part [])), 3, by decide +kernel⟩,
   ⟨st (part []), 3, by decide +kernel⟩,
   ⟨3, by decide +kernel⟩⟩

end F19

namespace F20

def acc (u a : Nat) : Access := ⟨u, 1, false, 0, 3, 0, a, 8, [], 0⟩
def txn (u a : Nat) (o : Bool) : Txn := { access := acc u a, inBudget := true, arrival := 0, oldRules := o, oldTags := o }
def inFlight (l : List Txn) (c : Chip) : Chip := { c with mem := { c.mem with chans := [(3, { queue := l })] } }
def heldT (l : List Txn) (c : Chip) : Chip := { c with mem := { c.mem with heldReqs := l } }

/-- States and operands that meet the hypotheses of `Obligations.AppliesMakeShadowsCurrent`. -/
theorem wit_ApplyMakesShadowRulesCurrent :
    (∃ (s : State) (u : Nat), (u < 24) ∧ (s.chip.bit (R.pruStat u) 31 = true)) ∧
    (∃ (s : State) (u : Nat), (u < 24) ∧ (s.chip.bit (R.pruStat u) 31 = false)) :=
  ⟨⟨st (part [(R.pruStat 7, b 31 + b 8 255), (R.pruCtl 7, b 31 + 5), (R.pruRgnBase 7 63, 0x12345000), (R.pruRgnSize 7 63, b 16 20), (R.pruRgnAttr 7 63, b 31)]), 7, by decide +kernel⟩,
   ⟨st (part [(R.pruStat 7, 3)]), 7, by decide +kernel⟩⟩

/-- States and operands that meet the hypotheses of `Obligations.AppliesMakeShadowsCurrent`. -/
theorem wit_ApplyTagsMakesShadowTagsCurrent :
    (∃ (s : State), (s.chip.bit R.pruGstat 31 = true) ∧ (s.chip.bit R.pruGstat 30 = false) ∧ (s.chip.canonical)) ∧
    (∃ (s : State), ((s.chip.bit R.pruGstat 31 = false ∨ s.chip.bit R.pruGstat 30 = true))) ∧
    (∃ (s : State), (s.chip.bit R.pruGstat 30 = true)) ∧
    (∃ (s : State) (o1 : Nat) (o2 : Nat) (b1 : Byte) (b2 : Byte), (s.chip.bit R.pruGstat 30 = true) ∧ (s.chip.tagHeld = [(o1, [b1]), (o2, [b2])])) ∧
    (∃ (s : State), (s.chip.bit R.pruGstat 30 = false)) :=
  ⟨⟨st { part [(R.pruGstat, b 31 + b 8 255)] with tbw := [(0x1D20005, 7), (0x1DA0004, 9)] }, by unfold Chip.canonical; decide +kernel⟩,
   ⟨st (part [(R.pruGstat, b 31 + b 30)]), by decide +kernel⟩,
   ⟨st { part [(R.pruGstat, b 30)] with tagHeld := [(0x1D20000, [3, 5]), (0x1D20000, [4])] }, by decide +kernel⟩,
   ⟨st { part [(R.pruGstat, b 30)] with tagHeld := [(0x1D20000, [3]), (0x1D20000, [4])] }, 0x1D20000, 0x1D20000, 3, 4, by decide +kernel⟩,
   ⟨st (part [(R.pruGstat, b 31)]), by decide +kernel⟩⟩

/-- States and operands that meet the hypotheses of `Obligations.DrainCompletesWhenNoOldAccessIsLeft`. -/
theorem wit_DrainCompletesWhenNoOldAccessIsLeft :
    (∃ (s : State) (u : Nat), (u < 24) ∧ (s.chip.anyTxn (fun x => x.access.unit == u && x.oldRules) = false)) ∧
    (∃ (s : State) (u : Nat), (u < 24) ∧ (s.chip.anyTxn (fun x => x.access.unit == u && x.oldRules) = true)) ∧
    (∃ (s : State), (s.chip.anyTxn (fun x => x.oldTags) = false)) ∧
    (∃ (s : State), (s.chip.anyTxn (fun x => x.oldTags) = true)) :=
  ⟨⟨st (inFlight [txn 7 0 false, txn 8 0 true] (part [(R.pruStat 7, 5)])), 7, by decide +kernel⟩,
   ⟨st (inFlight [txn 7 0 true] (part [])), 7, by decide +kernel⟩,
   ⟨st (inFlight [txn 7 0 false] (part [(R.pruGstat, 7)])), by decide +kernel⟩,
   ⟨st (inFlight [txn 7 0 true] (part [])), by decide +kernel⟩⟩

end F20

namespace F22

def key0 : List Byte := List.replicate 32 0x0B
def msgBody (op n : Nat) (rest : List Byte) : List Byte := leBytes 2 0x4D4E ++ [1, 3] ++ leBytes 8 9 ++ leBytes 8 1000 ++ [BitVec.ofNat 8 op, BitVec.ofNat 8 n, 0, 0] ++ rest
def msg (op n : Nat) (rest : List Byte) : List Byte := msgBody op n rest ++ hmac key0 (msgBody op n rest)
def woff (a : Nat) : List Byte := leBytes 4 ((a - 0x40000000) / 4)
def m1 : List Byte := msgBody 1 1 (woff R.pitStat) ++ beBytes 32 0xc90d0e09bd0484f819ccba83a01fe5e2fb0c1a5d25340b90ea753b0c13040a2d
def m2 : List Byte := msgBody 2 1 (woff (R.netPort 0) ++ leBytes 4 5) ++ beBytes 32 0x1ae787eda08570054055e13d2ecae14a02fd29602b4ff85f70c4f7fb5f46956f
def m3 : List Byte := msgBody 2 1 (leBytes 4 0xFFFFFFF ++ leBytes 4 5) ++ beBytes 32 0x565056f25c8f1c6497cc51b1426173bb5da23f5b8e48571d5b368253a5dc739f
def m4 : List Byte := msgBody 3 0 (leBytes 12 0) ++ beBytes 32 0x3d807aef022e6aa9f5ff4b11254448831ffd92e968efe3df0dcf6950aa5112a4
def m5 : List Byte := msgBody 4 0 (leBytes 4 2 ++ leBytes 8 0xFFFFFFFF) ++ beBytes 32 0xc4d9d67755bfb9a7283164c1d9eaf2ee2bc7e11ae1ee49ef8c579808f9d48bb9
def mg (c : Chip) : Chip := { c with mgt := { c.mgt with keys := [(3, key0)], seqs := [(3, 8), (4, 100)] } }
def rec36 (n v : Nat) : List Byte := leBytes 4 n ++ leBytes 4 v ++ List.replicate 24 1 ++ leBytes 4 7
def body0 (mask : Nat) : List Byte := leBytes 4 mask ++ leBytes 4 2 ++ leBytes 4 1 ++ leBytes 2 1 ++ leBytes 2 0 ++ List.replicate 16 0 ++ rec36 5 0x8000001F ++ rec36 9 0x80000000 ++ rec36 4095 3 ++ rec36 1023 0x80000001
def body1 (a : Nat) : List Byte := leBytes 4 1 ++ leBytes 8 0 ++ leBytes 2 0 ++ leBytes 2 1 ++ List.replicate 16 0 ++ leBytes 4 ((a - 0x40000000) / 4) ++ leBytes 4 5
def pres (l : List (Nat × Nat)) : List Byte := leBytes 2 l.length ++ List.replicate 6 0 ++ l.flatMap (fun e => leBytes 4 ((e.1 - 0x40000000) / 4) ++ leBytes 4 e.2)
def lay4 (l p : List (List Byte)) : List Byte :=
  let all := l ++ p
  let ofs (i : Nat) : Nat := 16 + 8 * all.length + ((all.take i).map (fun x => x.length)).sum
  leBytes 2 l.length ++ leBytes 2 p.length ++ List.replicate 12 0 ++ ((List.range all.length).flatMap (fun i => leBytes 4 (ofs i) ++ leBytes 4 (all.getD i []).length)) ++ all.flatten
def lay : List Byte := lay4 [body0 0x80000001, body1 (R.netPort 0), body1 (R.pegCtl), body0 0] [pres [(R.netPort 0, 5), (R.netPort 1, 6), (R.cmpCtl 3, 7)], pres [(R.pegStgCmd 3, 5)], pres ((List.range 40).map (fun i => (R.netPort 0, i)))]
def withLay (c : Chip) : Chip := { c with pitch := { c.pitch with image := some { header := [], sections := [{ entry := leBytes 8 8 ++ leBytes 16 0, data := lay, rereadOk := true }], sig := [], readOk := true, fwOk := true } } }
def shad (c : Chip) : Chip := { c with tbw := memWrite tbwDefault (memWrite tbwDefault c.tbw (twElem 6) (leBytes 4 0x80000000 ++ leBytes 4 77)) (twRegion 4) (leBytes 4 0x80000000 ++ leBytes 4 78) }
def act (l : List PolicyAct) (c : Chip) : Chip := { c with jrn := { c.jrn with acts := l } }
def hrt (l : List (Nat × Stamp × Bool)) (c : Chip) : Chip := { c with mgt := { c.mgt with harts := l } }
def pend (c : Chip) : Chip := { c with peg := { c.peg with fwNow := some ⟨3, .recall, []⟩ } }
def grp : FwGroup := ⟨7, .preset, [⟨85, 0, 0, false, 9, 5, [(R.netPort 0, 4)]⟩]⟩
def emp : FwGroup := ⟨8, .preset, []⟩
def busy (c : Chip) : Chip := { c.setFld (R.pegStgCount 0) 31 31 1 with peg := { c.peg with fwNow := some grp, fwNext := [emp] } }
def crcs (w v : Nat) (told : List (Nat × Nat)) (c : Chip) : Chip := { c with mgt := { c.mgt with sealCrc := [(w, v)], crcTold := told } }
def bey (l : List Nat) (c : Chip) : Chip := { c with mgt := { c.mgt with beyond := l } }

/-- The test of a message reads only the keys, the last sequence numbers and the time. -/
theorem mgtTest_of (c d : Chip) (m : List Byte) (hk : c.mgt.keys = d.mgt.keys) (hs : c.mgt.seqs = d.mgt.seqs)
    (hc : c.clk = d.clk) (ht : c.tbState = d.tbState) : c.mgtTest m = d.mgtTest m := by
  simp only [Chip.mgtTest, hk, hs, hc, ht]

/-- The part that receives the messages. -/
def keyed : Chip := (mg (part [])).at 2000

theorem m1_holds : keyed.mgtTest m1 = 0 := by decide +kernel

theorem m2_holds : keyed.mgtTest m2 = 0 := by decide +kernel

theorem m3_holds : keyed.mgtTest m3 = 0 := by decide +kernel

theorem m4_holds : keyed.mgtTest m4 = 0 := by decide +kernel

theorem m5_holds : keyed.mgtTest m5 = 0 := by decide +kernel

/-- A check value that is not the window's. -/
theorem crc_other (w : Nat) (c : Chip) :
    c.windowCrc w + 1 ≠ (st (crcs w (c.windowCrc w + 1) [] c)).chip.windowCrc w := by
  rw [show (st (crcs w (c.windowCrc w + 1) [] c)).chip.windowCrc w = c.windowCrc w from rfl]; omega

/-- States and operands that meet the hypotheses of `Obligations.LayoutsPresetsAndWatchCoresAct`. -/
theorem wit_RecallAndPresetSubmitTheirGroups :
    (∃ (s : State) (t : Stamp) (n : Nat) (b : List Byte), (n < 4096) ∧ (s.chip.layoutBody n = some b) ∧ (s.chip.recallPending = false) ∧ (s.chip.tooSoon t s.chip.pitT = false) ∧ (((layoutOf b).elems ++ (layoutOf b).descs ++ (layoutOf b).regions).all (fun r => r.2.length == 32) = true) ∧ (s.chip.canonical)) ∧
    (∃ (s : State) (t : Stamp) (n : Nat) (b : List Byte) (g : FwGroup), (n < 4096) ∧ (s.chip.layoutBody n = some b) ∧ (s.chip.recallPending = false) ∧ (s.chip.tooSoon t s.chip.pitT = false) ∧ (s.chip.stagerIdle) ∧ ((layoutOf b).regs = []) ∧ (g = s.chip.recallGroup t b s.chip.pitT) ∧ (g.pegs ≠ [])) ∧
    (∃ (s : State) (t : Stamp) (n : Nat) (b : List Byte), (n < 4096) ∧ (s.chip.layoutBody n = some b) ∧ (s.chip.recallPending = false) ∧ (s.chip.tooSoon t s.chip.pitT = false) ∧ (s.chip.stagerIdle) ∧ ((s.chip.recallGroup t b s.chip.pitT).pegs = [])) ∧
    (∃ (s : State) (t : Stamp) (n : Nat) (b : List Byte), (n < 4096) ∧ (s.chip.presetBody n = some b) ∧ (s.chip.tooSoon t s.chip.pitT = false)) ∧
    (∃ (s : State) (t : Stamp) (n : Nat) (b : List Byte) (g : FwGroup), (n < 4096) ∧ (s.chip.presetBody n = some b) ∧ (s.chip.tooSoon t s.chip.pitT = false) ∧ (s.chip.stagerIdle) ∧ (g = s.chip.presetGroup t b s.chip.pitT) ∧ (g.pegs ≠ [])) ∧
    (∃ (s : State) (t : Stamp) (n : Nat) (b : List Byte), (n < 4096) ∧ (s.chip.presetBody n = some b) ∧ (s.chip.tooSoon t s.chip.pitT = false) ∧ (s.chip.stagerIdle) ∧ (presetPegs b 0 = [])) ∧
    (∃ (s : State) (t : Stamp) (n : Nat), (n < 4096) ∧ ((s.chip.layoutBody n = none ∨ s.chip.recallPending = true ∨ s.chip.tooSoon t s.chip.pitT = true))) ∧
    (∃ (s : State) (t : Stamp) (n : Nat), (n < 4096) ∧ ((s.chip.presetBody n = none ∨ s.chip.tooSoon t s.chip.pitT = true))) :=
  ⟨⟨st (shad (withLay (part [(R.pitRes, 65535)]))), 5, 0, dirBody lay 0, by unfold Chip.canonical; decide +kernel⟩,
   ⟨st (withLay (part [(R.pitRes, b 31 + 65535), (R.pegCtl, 50)])), 5, 0, dirBody lay 0, (withLay (part [(R.pitRes, b 31 + 65535), (R.pegCtl, 50)])).recallGroup 5 (dirBody lay 0) 0, by unfold Chip.stagerIdle; decide +kernel⟩,
   ⟨st (shad (withLay (part [(R.pitRes, 65535)]))), 5, 3, dirBody lay 3, by unfold Chip.stagerIdle; decide +kernel⟩,
   ⟨st (withLay (part [(R.pitRes, 65535)])), 5, 0, dirBody lay 4, by decide +kernel⟩,
   ⟨st (withLay (part [(R.pitRes, 5)])), 5, 0, dirBody lay 4, (withLay (part [(R.pitRes, 5)])).presetGroup 5 (dirBody lay 4) ((withLay (part [(R.pitRes, 5)])).pitT), ⟨by decide +kernel, by decide +kernel, by decide +kernel, by unfold Chip.stagerIdle; decide +kernel, rfl, by decide +kernel⟩⟩,
   ⟨st (withLay (part [(R.pitRes, 65535)])), 5, 1, dirBody lay 5, by unfold Chip.stagerIdle; decide +kernel⟩,
   ⟨st (withLay (part [])), 5, 4, by decide +kernel⟩,
   ⟨st (withLay (part [])), 5, 3, by decide +kernel⟩⟩

/-- States and operands that meet the hypotheses of `Obligations.LayoutsPresetsAndWatchCoresAct`. -/
theorem wit_PolicyActionIsTakenByBaseFirmware :
    (∃ (s : State) (a : PolicyAct) (rest : List PolicyAct) (h : Nat), (s.chip.jrn.acts = a :: rest) ∧ (s.chip.bit R.dmcGstat 31 = false) ∧ (a.action = 4) ∧ (h < 32) ∧ ((if a.arg = 0xFF then s.chip.placeHead a.place else some a.arg) = some h)) ∧
    (∃ (s : State) (a : PolicyAct) (rest : List PolicyAct), (s.chip.jrn.acts = a :: rest) ∧ (s.chip.bit R.dmcGstat 31 = false) ∧ (a.action = 2) ∧ (s.chip.leader = false) ∧ (s.chip.twinOn = true)) ∧
    (∃ (s : State) (a : PolicyAct) (rest : List PolicyAct), (s.chip.jrn.acts = a :: rest) ∧ (s.chip.bit R.dmcGstat 31 = false) ∧ (a.action = 3) ∧ (s.chip.leader = true)) ∧
    (∃ (s : State) (a : PolicyAct) (rest : List PolicyAct) (b : List Byte), (s.chip.jrn.acts = a :: rest) ∧ (s.chip.bit R.dmcGstat 31 = false) ∧ (a.action = 5) ∧ (s.chip.layoutBody a.arg = some b) ∧ (s.chip.recallPending = false) ∧ (((layoutOf b).elems ++ (layoutOf b).descs ++ (layoutOf b).regions).all (fun r => r.2.length == 32) = true) ∧ (s.chip.canonical)) ∧
    (∃ (s : State) (a : PolicyAct) (rest : List PolicyAct) (b : List Byte), (s.chip.jrn.acts = a :: rest) ∧ (s.chip.bit R.dmcGstat 31 = false) ∧ (a.action = 6) ∧ (s.chip.presetBody a.arg = some b)) ∧
    (∃ (s : State) (a : PolicyAct) (rest : List PolicyAct), (s.chip.jrn.acts = a :: rest) ∧ (s.chip.bit R.dmcGstat 31 = false) ∧ ((a.action = 5 ∧ (s.chip.layoutBody a.arg = none ∨ s.chip.recallPending = true) ∨ a.action = 6 ∧ s.chip.presetBody a.arg = none))) ∧
    (∃ (s : State) (a : PolicyAct) (rest : List PolicyAct), (s.chip.jrn.acts = a :: rest) ∧ (s.chip.bit R.dmcGstat 31 = false) ∧ ((a.action < 2 ∨ 6 < a.action ∨ a.action = 2 ∧ (s.chip.leader = true ∨ s.chip.twinOn = false) ∨ a.action = 3 ∧ s.chip.leader = false ∨ a.action = 4 ∧ (if a.arg = 0xFF then s.chip.placeHead a.place else some a.arg).all (fun h => decide (32 ≤ h)) = true))) ∧
    (∃ (s : State), ((s.chip.jrn.acts = [] ∨ s.chip.bit R.dmcGstat 31 = true))) :=
  ⟨⟨st (act [⟨4, 31, .room⟩, ⟨2, 0, .room⟩] (part [])), ⟨4, 31, .room⟩, [⟨2, 0, .room⟩], 31, by decide +kernel⟩,
   ⟨st (act [⟨2, 0, .room⟩] (part [(R.twnClaimHigh, 0x305), (R.twnClaimOwn, 0x107), (R.twnCfg, b 31)])), ⟨2, 0, .room⟩, [], by decide +kernel⟩,
   ⟨st (act [⟨3, 0, .room⟩] (part [(R.twnClaimHigh, 0x305), (R.twnClaimOwn, 0x107), (R.twnStat, b 4)])), ⟨3, 0, .room⟩, [], by decide +kernel⟩,
   ⟨st (act [⟨5, 0, .room⟩] (shad (withLay (part [(R.pitTLo, 1000)])))), ⟨5, 0, .room⟩, [], dirBody lay 0, by unfold Chip.canonical; decide +kernel⟩,
   ⟨st (act [⟨6, 0, .room⟩] (shad (withLay (part [(R.pitTLo, 1000)])))), ⟨6, 0, .room⟩, [], dirBody lay 4, by decide +kernel⟩,
   ⟨st (act [⟨6, 5000, .room⟩] (shad (withLay (part [(R.pitTLo, 1000)])))), ⟨6, 5000, .room⟩, [], by decide +kernel⟩,
   ⟨st (act [⟨7, 0, .room⟩] (part [(R.pitTLo, 1000)])), ⟨7, 0, .room⟩, [], by decide +kernel⟩,
   ⟨st (act [⟨2, 0, .room⟩] (part [(R.dmcGstat, b 31)])), by decide +kernel⟩⟩

/-- States and operands that meet the hypotheses of `Obligations.ManagementAndSmbusAreServed`. -/
theorem wit_ManagementMessageIsServed :
    (∃ (s : State) (t : Stamp) (m : List Byte), (s.chip.bit R.mgtCtl 31 = true) ∧ (leAt m 20 1 = 1) ∧ ((s.chip.at t).mgtTest m = 0) ∧ ((List.range (leAt m 21 1)).all (fun i => s.chip.pruCtlNow 0 / 2 ^ 31 % 2 == 0 || !s.chip.itemMapped (itemAddr (leAt m (24 + 4 * i) 4)) || s.chip.checkCause (itemAccess 0 (itemAddr (leAt m (24 + 4 * i) 4)) 0) == 0) = true)) ∧
    (∃ (s : State) (t : Stamp) (m : List Byte), (s.chip.bit R.mgtCtl 31 = true) ∧ (leAt m 20 1 = 1) ∧ ((s.chip.at t).mgtTest m = 0)) ∧
    (∃ (s : State) (t : Stamp) (m : List Byte) (x : Nat) (w : Word), (s.chip.bit R.mgtCtl 31 = true) ∧ (s.chip.isSealed = true) ∧ (leAt m 20 1 = 2) ∧ (leAt m 21 1 = 1) ∧ ((s.chip.at t).mgtTest m = 0) ∧ (x = itemAddr (leAt m 24 4)) ∧ (w = BitVec.ofNat 32 (leAt m 28 4)) ∧ (placeOf s.chip.dramCap x = .register) ∧ (s.chip.passes (itemAccess 1 x w)) ∧ (roleOf x = .plain) ∧ ((onAnalogue x = false ∨ s.chip.d2dUp = true))) ∧
    (∃ (s : State) (t : Stamp) (m : List Byte), (s.chip.bit R.mgtCtl 31 = true) ∧ (s.chip.isSealed = true) ∧ (leAt m 20 1 = 2) ∧ ((s.chip.at t).mgtTest m = 0) ∧ ((List.range (leAt m 21 1)).all (fun i => !s.chip.itemMapped (itemAddr (leAt m (24 + 8 * i) 4))) = true)) ∧
    (∃ (s : State) (t : Stamp) (m : List Byte), (s.chip.bit R.mgtCtl 31 = true) ∧ (s.chip.isSealed = true) ∧ (leAt m 20 1 = 2) ∧ ((s.chip.at t).mgtTest m = 0)) ∧
    (∃ (s : State) (t : Stamp) (m : List Byte) (b : List Byte), (s.chip.bit R.mgtCtl 31 = true) ∧ (s.chip.isSealed = true) ∧ (leAt m 20 1 = 3) ∧ ((s.chip.at t).mgtTest m = 0) ∧ (s.chip.layoutBody (leAt m 24 4) = some b) ∧ (s.chip.recallPending = false) ∧ (s.chip.tooSoon t (leAt m 28 8) = false) ∧ (s.chip.canonical) ∧ ((layoutOf b).regs = []) ∧ (((layoutOf b).elems ++ (layoutOf b).descs ++ (layoutOf b).regions).all (fun r => r.2.length == 32) = true) ∧ ((s.chip.recallGroup t b (leAt m 28 8)).pegs ≠ [])) ∧
    (∃ (s : State) (t : Stamp) (m : List Byte) (b : List Byte), (s.chip.bit R.mgtCtl 31 = true) ∧ (s.chip.isSealed = true) ∧ (leAt m 20 1 = 4) ∧ ((s.chip.at t).mgtTest m = 0) ∧ (s.chip.presetBody (leAt m 24 4) = some b) ∧ (s.chip.tooSoon t (leAt m 28 8) = false) ∧ (presetPegs b 0 ≠ [])) ∧
    (∃ (s : State) (t : Stamp) (m : List Byte), (s.chip.bit R.mgtCtl 31 = true) ∧ (s.chip.isSealed = true) ∧ (leAt m 20 1 = 3) ∧ ((s.chip.at t).mgtTest m = 0) ∧ ((s.chip.layoutBody (leAt m 24 4) = none ∨ s.chip.recallPending = true ∨ s.chip.tooSoon t (leAt m 28 8) = true))) ∧
    (∃ (s : State) (t : Stamp) (m : List Byte), (s.chip.bit R.mgtCtl 31 = true) ∧ (s.chip.isSealed = true) ∧ (leAt m 20 1 = 4) ∧ ((s.chip.at t).mgtTest m = 0) ∧ ((s.chip.presetBody (leAt m 24 4) = none ∨ s.chip.tooSoon t (leAt m 28 8) = true))) :=
  ⟨⟨st (mg (part [(R.mgtCtl, b 31), (R.pitStat, b 31)])), 2000, m1, ⟨by decide +kernel, by decide +kernel, (mgtTest_of _ keyed _ (by decide +kernel) (by decide +kernel) (by decide +kernel) (by decide +kernel)).trans m1_holds, by decide +kernel⟩⟩,
   ⟨st (mg (part [(R.mgtCtl, b 31), (R.pitStat, b 31)])), 2000, m1, ⟨by decide +kernel, by decide +kernel, (mgtTest_of _ keyed _ (by decide +kernel) (by decide +kernel) (by decide +kernel) (by decide +kernel)).trans m1_holds⟩⟩,
   ⟨st (mg (part [(R.mgtCtl, b 31), (R.pitStat, b 31)])), 2000, m2, R.netPort 0, 5, ⟨by decide +kernel, by decide +kernel, by decide +kernel, by decide +kernel, (mgtTest_of _ keyed _ (by decide +kernel) (by decide +kernel) (by decide +kernel) (by decide +kernel)).trans m2_holds, by decide +kernel, by decide +kernel, by decide +kernel, by unfold Chip.passes; decide +kernel, by decide +kernel, by decide +kernel⟩⟩,
   ⟨st (mg (part [(R.mgtCtl, b 31), (R.pitStat, b 31)])), 2000, m3, ⟨by decide +kernel, by decide +kernel, by decide +kernel, (mgtTest_of _ keyed _ (by decide +kernel) (by decide +kernel) (by decide +kernel) (by decide +kernel)).trans m3_holds, by decide +kernel⟩⟩,
   ⟨st (mg (part [(R.mgtCtl, b 31), (R.pitStat, b 31)])), 2000, m3, ⟨by decide +kernel, by decide +kernel, by decide +kernel, (mgtTest_of _ keyed _ (by decide +kernel) (by decide +kernel) (by decide +kernel) (by decide +kernel)).trans m3_holds⟩⟩,
   ⟨st (mg (shad (withLay (part [(R.mgtCtl, b 31), (R.pitStat, b 31)])))), 2000, m4, dirBody lay 0, ⟨by decide +kernel, by decide +kernel, by decide +kernel, (mgtTest_of _ keyed _ (by decide +kernel) (by decide +kernel) (by decide +kernel) (by decide +kernel)).trans m4_holds, by decide +kernel, by decide +kernel, by decide +kernel, by unfold Chip.canonical; decide +kernel, by decide +kernel, by decide +kernel, by decide +kernel⟩⟩,
   ⟨st (mg (shad (withLay (part [(R.mgtCtl, b 31), (R.pitStat, b 31)])))), 2000, m5, dirBody lay 6, ⟨by decide +kernel, by decide +kernel, by decide +kernel, (mgtTest_of _ keyed _ (by decide +kernel) (by decide +kernel) (by decide +kernel) (by decide +kernel)).trans m5_holds, by decide +kernel, by decide +kernel, by decide +kernel⟩⟩,
   ⟨st (mg (part [(R.mgtCtl, b 31), (R.pitStat, b 31)])), 2000, m4, ⟨by decide +kernel, by decide +kernel, by decide +kernel, (mgtTest_of _ keyed _ (by decide +kernel) (by decide +kernel) (by decide +kernel) (by decide +kernel)).trans m4_holds, by decide +kernel⟩⟩,
   ⟨st (mg (part [(R.mgtCtl, b 31), (R.pitStat, b 31)])), 2000, m5, ⟨by decide +kernel, by decide +kernel, by decide +kernel, (mgtTest_of _ keyed _ (by decide +kernel) (by decide +kernel) (by decide +kernel) (by decide +kernel)).trans m5_holds, by decide +kernel⟩⟩⟩

/-- States and operands that meet the hypotheses of `Obligations.ManagementAndSmbusAreServed`. -/
theorem wit_ManagementMessageIsDropped :
    (∃ (s : State) (t : Stamp) (m : List Byte), (s.chip.bit R.mgtCtl 31 = true) ∧ ((s.chip.at t).mgtTest m ≠ 0) ∧ ((leAt m 20 1 = 1 ∨ leAt m 20 1 = 0 ∨ 4 < leAt m 20 1))) ∧
    (∃ (s : State) (t : Stamp) (m : List Byte), (s.chip.bit R.mgtCtl 31 = true) ∧ ((s.chip.at t).mgtTest m ≠ 0) ∧ ((leAt m 20 1 = 2 ∨ leAt m 20 1 = 0 ∨ 4 < leAt m 20 1))) ∧
    (∃ (s : State) (t : Stamp) (m : List Byte), (s.chip.bit R.mgtCtl 31 = true) ∧ ((s.chip.at t).mgtTest m ≠ 0) ∧ ((leAt m 20 1 = 3 ∨ leAt m 20 1 = 0 ∨ 4 < leAt m 20 1))) ∧
    (∃ (s : State) (t : Stamp) (m : List Byte), (s.chip.bit R.mgtCtl 31 = true) ∧ ((s.chip.at t).mgtTest m ≠ 0) ∧ ((leAt m 20 1 = 4 ∨ leAt m 20 1 = 0 ∨ 4 < leAt m 20 1))) ∧
    (∃ (s : State) (t : Stamp) (m : List Byte), (s.chip.isSealed = false) ∧ ((s.chip.at t).mgtTest m = 0)) ∧
    (∃ (s : State), (s.chip.bit R.mgtCtl 31 = false)) ∧
    (∃ (m : List Byte), (1 ≤ leAt m 20 1) ∧ (leAt m 20 1 ≤ 4) ∧ (leAt m 20 1 ≠ 1)) ∧
    (∃ (m : List Byte), (1 ≤ leAt m 20 1) ∧ (leAt m 20 1 ≤ 4) ∧ (leAt m 20 1 ≠ 2)) ∧
    (∃ (m : List Byte), (1 ≤ leAt m 20 1) ∧ (leAt m 20 1 ≤ 4) ∧ (leAt m 20 1 ≠ 3)) ∧
    (∃ (m : List Byte), (1 ≤ leAt m 20 1) ∧ (leAt m 20 1 ≤ 4) ∧ (leAt m 20 1 ≠ 4)) :=
  ⟨⟨st (part [(R.mgtCtl, b 31), (R.pitStat, b 31)]), 2000, m1, by decide +kernel⟩,
   ⟨st (part [(R.mgtCtl, b 31), (R.pitStat, b 31)]), 2000, m2, by decide +kernel⟩,
   ⟨st (part [(R.mgtCtl, b 31), (R.pitStat, b 31)]), 2000, m4, by decide +kernel⟩,
   ⟨st (part [(R.mgtCtl, b 31), (R.pitStat, b 31)]), 2000, m5, by decide +kernel⟩,
   ⟨st (mg (part [(R.mgtCtl, b 31)])), 2000, m2, ⟨by decide +kernel, (mgtTest_of _ keyed _ (by decide +kernel) (by decide +kernel) (by decide +kernel) (by decide +kernel)).trans m2_holds⟩⟩,
   ⟨st (mg (part [])), by decide +kernel⟩,
   ⟨m2, by decide +kernel⟩,
   ⟨m1, by decide +kernel⟩,
   ⟨m2, by decide +kernel⟩,
   ⟨m2, by decide +kernel⟩⟩

/-- States and operands that meet the hypotheses of `Obligations.ManagementAndSmbusAreServed`. -/
theorem wit_SmbusTargetReadsAndWrites :
    (∃ (s : State) (d : Nat) (o : Nat), (d = s.chip.fld R.mgtSmb 6 0) ∧ (o < 2 ^ 32)) ∧
    (∃ (s : State) (d : Nat), (d = s.chip.fld R.mgtSmb 6 0) ∧ (placeOf s.chip.dramCap (itemAddr s.chip.mgt.pointer) = .register) ∧ (s.chip.passes (itemAccess 0 (itemAddr s.chip.mgt.pointer) 0))) ∧
    (∃ (s : State) (d : Nat), (d = s.chip.fld R.mgtSmb 6 0) ∧ (placeOf s.chip.dramCap (itemAddr s.chip.mgt.pointer) = .table) ∧ (s.chip.passes (itemAccess 0 (itemAddr s.chip.mgt.pointer) 0))) ∧
    (∃ (s : State) (d : Nat), (d = s.chip.fld R.mgtSmb 6 0) ∧ ((s.chip.itemMapped (itemAddr s.chip.mgt.pointer) = false ∨ ¬ s.chip.passes (itemAccess 0 (itemAddr s.chip.mgt.pointer) 0)))) ∧
    (∃ (s : State) (d : Nat) (o : Nat) (w : Word), (d = s.chip.fld R.mgtSmb 6 0) ∧ (o < 2 ^ 32) ∧ (placeOf s.chip.dramCap (itemAddr o) = .register) ∧ (s.chip.passes (itemAccess 1 (itemAddr o) w)) ∧ (roleOf (itemAddr o) = .plain) ∧ ((onAnalogue (itemAddr o) = false ∨ s.chip.d2dUp = true))) ∧
    (∃ (s : State) (d : Nat) (o : Nat), (d = s.chip.fld R.mgtSmb 6 0) ∧ (o < 2 ^ 32) ∧ (s.chip.itemMapped (itemAddr o) = false)) ∧
    (∃ (s : State) (d : Nat) (o : Nat) (w : Word), (d = s.chip.fld R.mgtSmb 6 0) ∧ (o < 2 ^ 32) ∧ (¬ s.chip.passes (itemAccess 1 (itemAddr o) w))) ∧
    (∃ (s : State) (d : Nat) (o : Nat), (d = s.chip.fld R.mgtSmb 6 0) ∧ (o < 2 ^ 32)) ∧
    (∃ (s : State) (d : Nat) (o : Nat), (d ≠ s.chip.fld R.mgtSmb 6 0) ∧ (o < 2 ^ 32)) :=
  ⟨⟨st (part []), 0x5A, 4294967295, by decide +kernel⟩,
   ⟨st { part [(R.pitStat, 0x1234)] with mgt := { pointer := (R.pitStat - 0x40000000) / 4 } }, 0x5A, by unfold Chip.passes; decide +kernel⟩,
   ⟨st { shad (part [(R.pitStat, 0x1234)]) with mgt := { pointer := (tableBase + 192 - 0x40000000) / 4 } }, 0x5A, by unfold Chip.passes; decide +kernel⟩,
   ⟨st { part [(R.pitStat, 0x1234)] with mgt := { pointer := 0xFFFFFFF } }, 0x5A, by unfold Chip.passes; decide +kernel⟩,
   ⟨st (part []), 0x5A, (R.netPort 0 - 0x40000000) / 4, 3, by unfold Chip.passes; decide +kernel⟩,
   ⟨st (part []), 0x5A, 0xFFFFFFF, by decide +kernel⟩,
   ⟨st { part [(R.pruRgnAttrCur 0 3, b 31), (R.pruRgnSizeCur 0 3, b 16 40)] with pruCur := [(0, 2 ^ 31)] }, 0x5A, (R.netPort 0 - 0x40000000) / 4, 3, by unfold Chip.passes; decide +kernel⟩,
   ⟨st (part []), 0x5A, 7, by decide +kernel⟩,
   ⟨st (part []), 0x5B, 7, by decide +kernel⟩⟩

/-- States and operands that meet the hypotheses of `Obligations.LayoutsPresetsAndWatchCoresAct`. -/
theorem wit_WatchCoresTellSilenceAndLimits :
    (∃ (h : Nat), (h < 8)) ∧
    (∃ (s : State) (t : Stamp) (last : Stamp) (h : Nat), (h < 8) ∧ (s.chip.mgt.harts.find? (fun e => e.1 == h) = some (h, last, false)) ∧ (elapsed t last (s.chip.hdr 36 4 * nsPerMs) = true)) ∧
    (∃ (s : State) (t : Stamp) (h : Nat), (h < 8) ∧ ((s.chip.mgt.harts.find? (fun e => e.1 == h)).all (fun e => e.2.2 || !elapsed t e.2.1 (s.chip.hdr 36 4 * nsPerMs)) = true)) ∧
    (∃ (l : List (Nat × Int × Int)), (l.all (fun x => decide (60 ≤ x.1) && decide (x.1 < 96)) = true)) ∧
    (∃ (s : State) (m : Nat) (lo : Int) (hi : Int) (v : Int) (lim : Int), (60 ≤ m) ∧ (m < 96) ∧ (s.chip.isSealed = true) ∧ (s.chip.mgt.sealCrc.all (fun e => e.2 == s.chip.windowCrc e.1) = true) ∧ (m ∉ s.chip.mgt.beyond) ∧ (s.chip.overLimit m lo hi = some (v, lim))) ∧
    (∃ (s : State) (m : Nat) (lo : Int) (hi : Int) (v : Int), (60 ≤ m) ∧ (m < 96) ∧ (s.chip.isSealed = true) ∧ (s.chip.mgt.sealCrc.all (fun e => e.2 == s.chip.windowCrc e.1) = true) ∧ (m ∈ s.chip.mgt.beyond) ∧ (s.chip.overLimit m lo hi = none) ∧ (v = (if m < 84 then s.chip.sfld (R.ageMon m) 31 0 else (s.chip.fld (R.ageMon m) 15 0 : Nat)))) ∧
    (∃ (s : State) (w : Nat) (want : Nat) (rest : List (Nat × Nat)), (s.chip.isSealed = true) ∧ (s.chip.mgt.sealCrc = (w, want) :: rest) ∧ (want ≠ s.chip.windowCrc w) ∧ ((w, s.chip.windowCrc w) ∉ s.chip.mgt.crcTold)) ∧
    (∃ (s : State) (l : List (Nat × Int × Int)), (l.all (fun x => decide (60 ≤ x.1) && decide (x.1 < 96)) = true) ∧ (s.chip.mgt.sealCrc.all (fun e => e.2 == s.chip.windowCrc e.1 || s.chip.mgt.crcTold.contains (e.1, s.chip.windowCrc e.1)) = true) ∧ (l.all (fun x => s.chip.mgt.beyond.contains x.1 == (s.chip.overLimit x.1 x.2.1 x.2.2).isSome) = true)) ∧
    (∃ (s : State) (l : List (Nat × Int × Int)), (s.chip.isSealed = false) ∧ (l.all (fun x => decide (60 ≤ x.1) && decide (x.1 < 96)) = true)) :=
  ⟨⟨7, by decide +kernel⟩,
   ⟨st (hrt [(2, 4, false), (7, 3, false)] (part [])), 500, 3, 7, by decide +kernel⟩,
   ⟨st (hrt [(2, 4, false), (7, 3, true)] (part [])), 500, 7, by decide +kernel⟩,
   ⟨[(60, -10, 10), (61, 3, 4)], by decide +kernel⟩,
   ⟨st (part [(R.pitStat, b 31), (R.ageMon 95, b 16 50 + 60)]), 95, 10, 55, 60, 55, by decide +kernel⟩,
   ⟨st (bey [95] (part [(R.pitStat, b 31), (R.ageMon 95, b 16 50 + 50)])), 95, 10, 55, 50, by decide +kernel⟩,
   ⟨st (crcs 0 ((part [(R.pitStat, b 31)]).windowCrc 0 + 1) [] (part [(R.pitStat, b 31)])), 0, (part [(R.pitStat, b 31)]).windowCrc 0 + 1, [], ⟨by decide +kernel, rfl, crc_other _ _, List.not_mem_nil⟩⟩,
   ⟨st (bey [95] (part [(R.pitStat, b 31), (R.ageMon 95, b 16 5 + 50)])), [(95, 10, 55), (94, 0, 5)], by decide +kernel⟩,
   ⟨st (part [(R.ageMon 95, b 16 50 + 60)]), [(95, 10, 55)], by decide +kernel⟩⟩

end F22

namespace F23

def ag (a : Ageing) (c : Chip) : Chip := { c with age := a }
def chg (dom : Nat) (m : Int) : Change := { proposal dom 3 (R.dmcTrim 3 0) 5 6 m with id := 7, done := true }
def row128 : List Nat := List.replicate 60 2 ++ List.replicate 10 0 ++ List.replicate 58 1
def row32 : List Nat := List.replicate 32 0
def eyes18 : List (List Nat) := row128 :: (List.replicate 17 (List.replicate 128 0))
def vref18 : List (List Nat) := (List.replicate 17 row32) ++ [List.replicate 32 3]
def refs (l : List (Nat × Nat)) : Chip := { State.reset.chip with regs := l.map (fun e => (R.ageRoref e.1, BitVec.ofNat 32 e.2)) }
def refs44 : Chip := refs ((List.range 44).map (fun i => (i, if i = 4 ∨ i = 43 then 10000000 else if i = 7 then 20000000 else 1000000)))
def allWin (l : List (Nat × Nat)) : List (Nat × Nat) := l ++ (List.range 4).flatMap (fun i => [(R.ageWin i, b 31 + b 16 7 + 60), (R.ageWinStart i, 10800)])
def pl (l : List (Nat × Nat)) : Chip := { part (allWin ([(R.ageCtl, b 31 + 60), (R.ageRes, 65535), (R.ageAvs, 8), (R.ageAvsTgt, 20), (R.ageAvsStat, b 16 8000)] ++ l)) with pitch := { sealAt := some 5 } }
def t0 : Nat := 86460000000000
def msw : MarginSweep := { done := t0 - 1000, rd := List.replicate 18 (some (-10, 20)), wr := List.replicate 18 (some (-10, 10)), rv := List.replicate 18 (some (-1, 1)), wv := List.replicate 18 (some (-8, 1)), track := 0 }
def aged : Ageing := { eyes := [3], near := [(3, 50, 60)], sweeps := (List.range 16).map (fun n => (n, msw)), plans := [(3, [some 4, some 5, none])], seconds := [(86459, 8100, 3)] }
def rd (f : Nat → Int) : Nat → Int := f

/-- States and operands that meet the hypotheses of `Obligations.MonitorsAndCoreVoltageFollowReadings`. -/
theorem wit_MonitorsFollowReadings :
    (∃ (slacks : List Nat) (temps : List Int) (rails : List (Nat × Nat)), (slacks.length = 16) ∧ (temps.length = 24) ∧ (rails.length = 12)) ∧
    (∃ (s : State) (slacks : List Nat) (temps : List Int) (rails : List (Nat × Nat)), (slacks.length = 16) ∧ (temps.length = 24) ∧ (rails.length = 12) ∧ (s.chip.d2dUp = true)) ∧
    (∃ (s : State) (slacks : List Nat) (temps : List Int) (rails : List (Nat × Nat)), (slacks.length = 16) ∧ (temps.length = 24) ∧ (rails.length = 12) ∧ (s.chip.d2dUp = false)) ∧
    (∃ (s : State) (l : List (Nat × Nat)) (i : Nat) (ns : Nat) (nu : Nat), (l.length = 44) ∧ (i < 44) ∧ (l.getD i (0, 0) = (ns, nu)) ∧ (nu ≠ 0) ∧ ((s.chip.reg (R.ageRoref i)).toNat ≠ 0)) ∧
    (∃ (s : State) (l : List (Nat × Nat)) (past : List Nat), (l.length = 44) ∧ (past = (List.range 44).filter (fun i => decide ((s.chip.fld R.ageRolim 19 0 : Int) < s.chip.degradation i (l.getD i (0, 0)).1 (l.getD i (0, 0)).2) && !s.chip.age.dlimTold.contains i))) :=
  ⟨⟨List.replicate 16 300, List.replicate 24 (-5), List.replicate 12 (70000, 5), by decide +kernel⟩,
   ⟨st (part [(R.sysD2dStat, b 31)]), List.replicate 16 300, List.replicate 24 (-5), List.replicate 12 (70000, 5), by decide +kernel⟩,
   ⟨st (part [(R.sysD2dStat, 0)]), List.replicate 16 300, List.replicate 24 (-5), List.replicate 12 (70000, 5), by decide +kernel⟩,
   ⟨st (refs [(43, 1000000)]), List.replicate 44 (3, 50), 43, 3, 50, by decide +kernel⟩,
   ⟨st (ag { dlimTold := [4] } refs44), List.replicate 44 (3, 50), [7, 43], by decide +kernel⟩⟩

/-- States and operands that meet the hypotheses of `Obligations.MonitorsAndCoreVoltageFollowReadings`. -/
theorem wit_CoreVoltageFollowsSlack :
    (∃ (s : State) (k : Nat) (v : Nat), (k < 256) ∧ (v = (if k < s.chip.fld R.ageAvsTgt 7 0 ∧ s.chip.fld R.ageAvsStat 31 16 < 8500 then min 8500 (s.chip.fld R.ageAvsStat 31 16 + 25) else if s.chip.fld R.ageAvsTgt 7 0 + 2 < k ∧ s.chip.fld R.ageAvs 25 16 * 10 < s.chip.fld R.ageAvsStat 31 16 then max (s.chip.fld R.ageAvs 25 16 * 10) (s.chip.fld R.ageAvsStat 31 16 - 25) else s.chip.fld R.ageAvsStat 31 16))) ∧
    (∃ (s : State) (k : Nat), (k < s.chip.fld R.ageAvsTgt 7 0) ∧ (s.chip.fld R.ageAvsStat 31 16 < 8500)) ∧
    (∃ (s : State) (k : Nat), (k < 256) ∧ (s.chip.fld R.ageAvsTgt 7 0 + 2 < k) ∧ (s.chip.fld R.ageAvs 25 16 * 10 < s.chip.fld R.ageAvsStat 31 16)) ∧
    (∃ (s : State) (k : Nat), (k < 256) ∧ (s.chip.fld R.ageAvsTgt 7 0 ≤ k) ∧ (k ≤ s.chip.fld R.ageAvsTgt 7 0 + 2)) ∧
    (∃ (s : State) (t : Stamp) (b : Stamp), (s.chip.age.belowSince = some b) ∧ (s.chip.age.floorTold = false) ∧ (elapsed t b nsPerS = true)) ∧
    (∃ (s : State) (t : Stamp), ((s.chip.age.floorTold = true ∨ s.chip.age.belowSince.all (fun b => !elapsed t b nsPerS) = true))) :=
  ⟨⟨st (ag { prev := some 30, droop := 4, aboveSince := some 3, floorTold := true } (part [(R.ageAvsTgt, 20), (R.ageAvsStat, b 16 8490), (R.ageAvs, 8)])), 19, 8500, by decide +kernel⟩,
   ⟨st (part [(R.ageAvsTgt, 20), (R.ageAvsStat, b 16 8490)]), 19, by decide +kernel⟩,
   ⟨st (part [(R.ageAvsTgt, 20), (R.ageAvsStat, b 16 8010), (R.ageAvs, b 16 800)]), 23, by decide +kernel⟩,
   ⟨st (part [(R.ageAvsTgt, 20), (R.ageAvsStat, b 16 8010), (R.ageAvs, b 16 800)]), 22, by decide +kernel⟩,
   ⟨st (ag { belowSince := some 0, prev := some 3 } (part [])), 1000000000, 0, by decide +kernel⟩,
   ⟨st (ag { belowSince := some 0, floorTold := true } (part [])), 1000000000, by decide +kernel⟩⟩

/-- States and operands that meet the hypotheses of `Obligations.SweepsEyesPlansAndRemeasures`. -/
theorem wit_SweepsAndEyesAreKept :
    (∃ (n : Nat) (rd : List (List Nat)) (wr : List (List Nat)) (rv : List (List Nat)) (wv : List (List Nat)), (n < 16) ∧ (rd.length = 18) ∧ (wr.length = 18) ∧ (rv.length = 18) ∧ (wv.length = 18) ∧ ((rd ++ wr).all (fun e => e.length == 128) = true) ∧ ((rv ++ wv).all (fun e => e.length == 32) = true)) ∧
    (∃ (l : Nat) (h : Nat) (w : Nat), (l < 12) ∧ (h < 1024) ∧ (w < 128)) ∧
    (∃ (s : State) (t : Stamp) (l : Nat) (h : Nat) (w : Nat) (left : Nat), (l < 12) ∧ (h < 1024) ∧ (w < 128) ∧ (left = (s.chip.fld R.ageCtl 16 0 + 86400 - t / nsPerS % 86400) % 86400) ∧ (1 ≤ left) ∧ (left ≤ 3600)) :=
  ⟨⟨15, eyes18, eyes18, vref18, vref18, by decide +kernel⟩,
   ⟨11, 1023, 127, by decide +kernel⟩,
   ⟨st (ag { eyes := [11], near := [(11, 4, 9)] } (part [(R.ageCtl, 3600)])), 5, 11, 1023, 3, 3600, by decide +kernel⟩⟩

/-- States and operands that meet the hypotheses of `Obligations.SweepsEyesPlansAndRemeasures`. -/
theorem wit_PlanProposesWithinItsRules :
    (∃ (s : State) (t : Stamp) (x : Stamp), (s.chip.bit R.ageCtl 31 = true) ∧ (t / nsPerS % 86400 = s.chip.fld R.ageCtl 16 0) ∧ (s.chip.pitch.sealAt = some x) ∧ (elapsed t x (86400 * nsPerS) = true) ∧ (s.chip.age.plans.any (fun p => p.1 / nsPerS == t / nsPerS) = false)) ∧
    (∃ (s : State) (t : Stamp) (x : Stamp), (s.chip.bit R.ageCtl 31 = true) ∧ (t / nsPerS % 86400 = s.chip.fld R.ageCtl 16 0) ∧ (s.chip.pitch.sealAt = some x) ∧ (elapsed t x (86400 * nsPerS) = true) ∧ (s.chip.age.plans.any (fun p => p.1 / nsPerS == t / nsPerS) = false) ∧ (s.chip.stagerIdle) ∧ ((List.range 4).all (fun i => decide (0 < s.chip.fld (R.ageWin i) 15 0) && decide (s.chip.fld (R.ageWinStart i) 16 0 < 86400)) = true) ∧ (s.chip.age.changes.all (fun y => decide (y.id < s.chip.age.nextId)) = true)) ∧
    (∃ (s : State) (t : Stamp) (x : Stamp) (T : Stamp) (g : Nat) (room : Nat) (new : Nat), (s.chip.bit R.ageCtl 31 = true) ∧ (t / nsPerS % 86400 = s.chip.fld R.ageCtl 16 0) ∧ (s.chip.pitch.sealAt = some x) ∧ (elapsed t x (86400 * nsPerS) = true) ∧ (s.chip.age.plans.any (fun p => p.1 / nsPerS == t / nsPerS) = false) ∧ (s.chip.age.changes.any (fun y => y.domain == 0 && !y.done) = false) ∧ (s.chip.stagerIdle) ∧ (g = min 128 (s.chip.fld R.ageAvs 7 0 + max 2 ((s.chip.at t).lastDay.foldl (fun m e => max m e.2.2) 0 + 1))) ∧ (room = (Int.fdiv ((s.chip.at t).coreBallast.value - s.chip.fld R.ageResv 31 16) 50).toNat) ∧ (new = (if s.chip.fld R.ageAvsTgt 7 0 < g then s.chip.fld R.ageAvsTgt 7 0 + min (min 2 (g - s.chip.fld R.ageAvsTgt 7 0)) room else s.chip.fld R.ageAvsTgt 7 0 - min 2 (s.chip.fld R.ageAvsTgt 7 0 - g))) ∧ (new ≠ s.chip.fld R.ageAvsTgt 7 0) ∧ ((s.chip.at t).changeTime 0 = some T)) ∧
    (∃ (s : State) (t : Stamp), ((s.chip.bit R.ageCtl 31 = false ∨ t / nsPerS % 86400 ≠ s.chip.fld R.ageCtl 16 0 ∨ s.chip.pitch.sealAt.all (fun x => !elapsed t x (86400 * nsPerS)) = true ∨ s.chip.age.plans.any (fun p => p.1 / nsPerS == t / nsPerS) = true))) :=
  ⟨⟨st (pl []), t0, 5, by decide +kernel⟩,
   ⟨st (pl []), t0, 5, by unfold Chip.stagerIdle; decide +kernel⟩,
   ⟨st (ag aged (pl [(R.ageEye 3, 40)])), t0, 5, 97200000000000, 12, 3, 18, by unfold Chip.stagerIdle; decide +kernel⟩,
   ⟨st (part [(R.ageCtl, b 31 + 60)]), 86460000000000, by decide +kernel⟩⟩

/-- States and operands that meet the hypotheses of `Obligations.SweepsEyesPlansAndRemeasures`. -/
theorem wit_RemeasuredChangeIsToldOrReversed :
    (∃ (s : State) (t : Stamp) (x : Change) (margin : Int), (s.chip.age.changes.find? (fun y => y.id == x.id && y.done) = some x) ∧ ((x.domain = 1 ∨ elapsed t x.launch (60 * nsPerS) = true)) ∧ ((x.margin ≤ margin + 1 ∨ x.reversal = true))) ∧
    (∃ (s : State) (t : Stamp) (x : Change) (margin : Int), (s.chip.age.changes.find? (fun y => y.id == x.id && y.done) = some x) ∧ ((x.domain = 1 ∨ elapsed t x.launch (60 * nsPerS) = true)) ∧ (margin + 1 < x.margin) ∧ (x.reversal = false)) ∧
    (∃ (s : State) (t : Stamp) (T : Stamp) (x : Change) (margin : Int), (s.chip.age.changes.find? (fun y => y.id == x.id && y.done) = some x) ∧ ((x.domain = 1 ∨ elapsed t x.launch (60 * nsPerS) = true)) ∧ (margin + 1 < x.margin) ∧ (x.reversal = false) ∧ (s.chip.stagerIdle) ∧ ((s.chip.at t).changeTime x.domain = some T)) ∧
    (∃ (s : State) (t : Stamp) (x : Change) (margin : Int), (s.chip.age.changes.find? (fun y => y.id == x.id && y.done) = some x) ∧ ((x.domain = 1 ∨ elapsed t x.launch (60 * nsPerS) = true)) ∧ (margin + 1 < x.margin) ∧ (x.reversal = false) ∧ ((s.chip.at t).changeTime x.domain = none)) ∧
    (∃ (s : State) (t : Stamp) (id : Nat), ((s.chip.age.changes.find? (fun y => y.id == id && y.done)).all (fun x => x.domain != 1 && !elapsed t x.launch (60 * nsPerS)) = true)) :=
  ⟨⟨st (ag { changes := [chg 1 5] } (part [])), 5, chg 1 5, 4, by decide +kernel⟩,
   ⟨st (ag { changes := [chg 1 5] } (part [])), 5, chg 1 5, 3, by decide +kernel⟩,
   ⟨st (ag { changes := [chg 1 5], nextId := 9 } (part (allWin [(R.dmcTrim 3 0, 0xF06)]))), 5, 10800000000000, chg 1 5, 3, by unfold Chip.stagerIdle; decide +kernel⟩,
   ⟨st (ag { changes := [chg 1 5] } (part ((List.range 4).map (fun i => (R.ageWin i, 60))))), 5, chg 1 5, 3, by decide +kernel⟩,
   ⟨st (ag { changes := [chg 1 5] } (part [])), 5, 8, by decide +kernel⟩⟩

end F23

namespace F30

def slot30 (l : List (Nat × Nat)) : Chip := (part ([(R.srcCfg 9, b 31 + b 28 2 + b 8 4), (R.srcRecHi 9, 0x10), (R.srcPoolHi 9, 0x10), (R.srcPoolLo 9, 0x100000), (R.srcGeom 9, b 16 1 + 1), (R.srcLat 9, 4294967295)] ++ l)).putFrameRec 9 3 ⟨0, 0, 0, 0, 0, 12, 1, false, false, false, 0⟩
def acc30 (u kind addr len : Nat) : Access := ⟨u, 0, false, kind, 6, 0, addr, len, if kind = 1 then List.replicate len 7 else [], 0⟩

/-- States and operands that meet the hypotheses of `Obligations.IntervalsAreSignedDifferences`. -/
theorem wit_IntervalsAreSignedDifferences :
    (∃ (d : Nat), (0 < d) ∧ (d ≤ 2 ^ 63)) ∧
    (∃ (d : Nat), (d < 2 ^ 63)) :=
  ⟨⟨9223372036854775808, by decide +kernel⟩,
   ⟨9223372036854775807, by decide +kernel⟩⟩

/-- States and operands that meet the hypotheses of `Obligations.CaptureStampsAreDerivedWhereTheyMustBe`. -/
theorem wit_CaptureStampsAreDerivedWhereTheyMustBe :
    (∃ (s : State) (n : Nat) (i : Nat) (code : Nat) (cause : Nat) (l : List (Nat × List Byte)), (n < 256) ∧ (i < 32) ∧ (2 ≤ code) ∧ (code ≤ 6) ∧ (cause < 16) ∧ ((s.chip.frameRec n i).code = 1) ∧ (s.chip.inDram (s.chip.recAddr n i) 48 = true) ∧ (((s.chip.agreed n && s.chip.paired) = false ∨ (s.chip.slot n).agree.all (fun e => e.twin.isNone) = true)) ∧ ((∀ e ∈ l, s.chip.bufAddr n i + e.1 + e.2.length ≤ s.chip.recAddr n i ∨ s.chip.recAddr n i + 48 ≤ s.chip.bufAddr n i + e.1)) ∧ (s.chip.bit (R.srcFresh n) 31 = true)) ∧
    (∃ (s : State) (n : Nat) (i : Nat) (code : Nat) (cause : Nat) (a : Stamp) (x : Stamp) (l : List (Nat × List Byte)), (n < 256) ∧ (i < 32) ∧ (2 ≤ code) ∧ (code ≤ 6) ∧ (cause < 16) ∧ ((s.chip.frameRec n i).code = 1) ∧ (s.chip.inDram (s.chip.recAddr n i) 48 = true) ∧ (((s.chip.agreed n && s.chip.paired) = false ∨ (s.chip.slot n).agree.all (fun e => e.twin.isNone) = true)) ∧ ((∀ e ∈ l, s.chip.bufAddr n i + e.1 + e.2.length ≤ s.chip.recAddr n i ∨ s.chip.recAddr n i + 48 ≤ s.chip.bufAddr n i + e.1)) ∧ (s.chip.bit (R.srcFresh n) 31 = false) ∧ (0 < stampGap x a)) ∧
    (∃ (s : State) (n : Nat) (i : Nat) (code : Nat) (cause : Nat) (a : Stamp) (x : Stamp) (l : List (Nat × List Byte)), (n < 256) ∧ (i < 32) ∧ (2 ≤ code) ∧ (code ≤ 6) ∧ (cause < 16) ∧ ((s.chip.frameRec n i).code = 1) ∧ (s.chip.inDram (s.chip.recAddr n i) 48 = true) ∧ (((s.chip.agreed n && s.chip.paired) = false ∨ (s.chip.slot n).agree.all (fun e => e.twin.isNone) = true)) ∧ ((∀ e ∈ l, s.chip.bufAddr n i + e.1 + e.2.length ≤ s.chip.recAddr n i ∨ s.chip.recAddr n i + 48 ≤ s.chip.bufAddr n i + e.1)) ∧ (s.chip.bit (R.srcFresh n) 31 = false) ∧ (stampGap x a ≤ 0)) :=
  ⟨⟨st (slot30 [(R.srcFresh 9, b 31)]), 9, 3, 6, 15, [], by decide +kernel⟩,
   ⟨st (slot30 [(R.srcFresh 9, 0)]), 9, 3, 6, 15, 40, 41, [], by decide +kernel⟩,
   ⟨st (slot30 [(R.srcFresh 9, 0)]), 9, 3, 2, 0, 40, 40, [], by decide +kernel⟩⟩

/-- A state and operands that meet the hypotheses of `Obligations.HigherElementsLieAbove`. -/
theorem wit_HigherElementsLieAbove :
    (∃ (s : State), (s.chip.canonical)) :=
  ⟨st { part [] with curElem := [(3, leBytes 4 (b 31 + b 19 2) ++ List.replicate 28 0), (4, leBytes 4 (b 31 + b 19 1) ++ List.replicate 28 0), (9, leBytes 4 (b 31 + b 19 1) ++ List.replicate 28 0)] }, by unfold Chip.canonical; decide +kernel⟩

/-- States and operands that meet the hypotheses of `Obligations.TellTaleRectangleIsClipped`. -/
theorem wit_TellTaleRectangleIsClipped :
    (∃ (c : Chip) (n : Nat), ((c.fld (R.srcTtSize n) 31 16 = 0 ∨ c.fld (R.srcTtSize n) 15 0 = 0))) ∧
    (∃ (c : Chip) (n : Nat), (c.fld (R.srcTtSize n) 31 16 ≠ 0) ∧ (c.fld (R.srcTtSize n) 15 0 ≠ 0)) :=
  ⟨⟨part [(R.srcTtSize 255, b 16 5)], 255, by decide +kernel⟩,
   ⟨part [(R.srcTtSize 255, b 16 5 + 6), (R.srcTtPos 255, b 16 38 + 28)], 255, by decide +kernel⟩⟩

/-- States and operands that meet the hypotheses of `Obligations.BlockWindowsTakeAlignedWordsAlone`. -/
theorem wit_BlockWindowsTakeAlignedWordsAlone :
    (∃ (s : State) (a : Access), (accessShape a = true) ∧ (placeOf s.chip.dramCap a.addr = .register) ∧ ((a.addr % 4 ≠ 0 ∨ a.len ≠ 4))) ∧
    (∃ (s : State) (a : Access), (accessShape a = true) ∧ (placeOf s.chip.dramCap a.addr = .register) ∧ (a.addr % 4 = 0) ∧ (a.len = 4) ∧ (a.kind ≠ 1) ∧ (s.chip.passes a)) ∧
    (∃ (s : State) (a : Access), (accessShape a = true) ∧ (placeOf s.chip.dramCap a.addr = .register) ∧ (a.addr % 4 = 0) ∧ (a.len = 4) ∧ (a.kind = 1) ∧ (s.chip.passes a) ∧ (roleOf a.addr = .plain) ∧ ((onAnalogue a.addr = false ∨ s.chip.d2dUp = true))) ∧
    (∃ (s : State) (a : Access), (accessShape a = true) ∧ (placeOf s.chip.dramCap a.addr = .table) ∧ (a.kind ≠ 1) ∧ (s.chip.passes a)) ∧
    (∃ (s : State) (a : Access), (accessShape a = true) ∧ (placeOf s.chip.dramCap a.addr = .table) ∧ (a.kind = 1) ∧ (s.chip.passes a) ∧ (s.chip.canonical) ∧ ((s.chip.isSealed = false ∧ tableKind (a.addr - tableBase) ≠ 0 ∧ tableKind (a.addr - tableBase) ≠ 3 ∨ tableKind (a.addr - tableBase) = 2 ∧ accessSource a = .base))) ∧
    (∃ (s : State) (a : Access), (accessShape a = true) ∧ (placeOf s.chip.dramCap a.addr = .table) ∧ (a.kind = 1) ∧ (s.chip.passes a) ∧ (tableKind (a.addr - tableBase) = 0)) ∧
    (∃ (s : State) (a : Access), (accessShape a = true) ∧ (placeOf s.chip.dramCap a.addr = .table) ∧ (a.kind = 1) ∧ (s.chip.passes a) ∧ (s.chip.isSealed = true) ∧ (tableKind (a.addr - tableBase) ≠ 0) ∧ ((tableKind (a.addr - tableBase) ≠ 2 ∨ accessSource a ≠ .base))) ∧
    (∃ (s : State) (a : Access), (accessShape a = true) ∧ (placeOf s.chip.dramCap a.addr = .table) ∧ (a.kind = 1) ∧ (s.chip.passes a) ∧ (s.chip.isSealed = false) ∧ (tableKind (a.addr - tableBase) = 3) ∧ (s.chip.bit R.pruGstat 30 = true)) ∧
    (∃ (s : State) (a : Access), (accessShape a = true) ∧ (placeOf s.chip.dramCap a.addr = .table) ∧ (a.kind = 1) ∧ (s.chip.passes a) ∧ (s.chip.isSealed = false) ∧ (tableKind (a.addr - tableBase) = 3) ∧ (s.chip.bit R.pruGstat 30 = false)) ∧
    (∃ (s : State) (a : Access), (accessShape a = true) ∧ (placeOf s.chip.dramCap a.addr ≠ .dram) ∧ ((placeOf s.chip.dramCap a.addr = .unmapped ∨ ¬ s.chip.passes a))) :=
  ⟨⟨st { part [] with pruCur := [(2, 2147483648)] }, acc30 2 0 0x40000002 2, by decide +kernel⟩,
   ⟨st (part []), acc30 2 2 R.sysId 4, by unfold Chip.passes; decide +kernel⟩,
   ⟨st (part []), acc30 1 1 R.muiLock 4, by unfold Chip.passes; decide +kernel⟩,
   ⟨st ((part []).tbwWrite 0x20 [9]), acc30 1 0 0x42000020 1, by unfold Chip.passes; decide +kernel⟩,
   ⟨st (part []), acc30 1 1 0x42000021 31, by unfold Chip.passes; unfold Chip.canonical; decide +kernel⟩,
   ⟨st (part []), acc30 1 1 (0x42000000 + twState 5) 8, by unfold Chip.passes; decide +kernel⟩,
   ⟨st (part [(R.pitStat, b 31)]), acc30 1 1 (0x42000000 + twField 5) 8, by unfold Chip.passes; decide +kernel⟩,
   ⟨st { part [(R.pruGstat, b 30)] with tagHeld := [(3, [4])] }, acc30 1 1 (0x42000000 + 0x1D20001) 8, by unfold Chip.passes; decide +kernel⟩,
   ⟨st { part [] with tagHeld := [(3, [4])] }, acc30 1 1 (0x42000000 + 0x1D20001) 8, by unfold Chip.passes; decide +kernel⟩,
   ⟨st (part []), acc30 1 1 0x30000000 8, by unfold Chip.passes; decide +kernel⟩⟩

end F30

namespace Machine

/-- A queue of two well-formed commands. -/
def queue2 : State := ⟨part [], [.acknowledge 7 3, .powerOnHoldEnd 9 1 (List.replicate 12 (800, 810))]⟩

/-- A state and a command that meet the hypotheses of `Obligations.WellFormedCommandsComplete`, for each of its clauses. -/
theorem wit_WellFormedCommandsComplete :
    (∃ i : Instr, i.wellFormed = true) ∧ (∃ i : Instr, i.wellFormed = false) :=
  ⟨⟨.acknowledge 7 3, by decide +kernel⟩, ⟨.powerOnHoldEnd 9 2 [], by decide +kernel⟩⟩

/-- A queue that meets the hypothesis of `Obligations.QueueOfWellFormedCommandsRunsToItsEnd`. -/
theorem wit_QueueOfWellFormedCommandsRunsToItsEnd : ∃ s : State, s.pending ≠ [] ∧ ∀ i ∈ s.pending, i.wellFormed = true :=
  ⟨queue2, by decide +kernel, by decide +kernel⟩

/-- States that meet the hypotheses of `Obligations.EveryStepKeepsTheCanonicalForm`. -/
theorem wit_EveryStepKeepsTheCanonicalForm : ∃ s t : State, s.chip.canonical ∧ step s = .next t :=
  ⟨queue2, ⟨((part []).at 7).ackWrite 3, [.powerOnHoldEnd 9 1 (List.replicate 12 (800, 810))]⟩, by unfold Chip.canonical; decide +kernel, rfl⟩

/-- States that meet the hypotheses of `Obligations.StepRunsTheFrontCommand`, for each of its clauses. -/
theorem wit_StepRunsTheFrontCommand :
    (∃ s : State, s.pending = [] ∧ s.chip.bolUp = false) ∧ (∃ s : State, s.pending = [] ∧ s.chip.bolUp = true) :=
  ⟨⟨State.reset, rfl, by decide +kernel⟩, ⟨⟨(part []).setFld R.bolStat 31 31 1, []⟩, rfl, by decide +kernel⟩⟩

/-- The front command of a queue leaves it when it runs. -/
theorem test_step_takes_front :
    (match step queue2 with | .next t => t.pending == [.powerOnHoldEnd 9 1 (List.replicate 12 (800, 810))] && t.chip.clk == 7 | _ => false) = true := by
  decide +kernel

/-- A word spells no command: the table gives its rows no bits. -/
theorem test_no_word_spells_a_command : decodeTableWord 32 0 = none := rfl

end Machine

end Sys2Proof.Tests
end

/-! Short stamps and the interval between two of them (R14). -/

namespace Sys2Proof.Machine

/-- A number of `w` bits read as two's complement is its balanced remainder modulo `2 ^ w`. -/
theorem signedOf_eq_bmod (w v : Nat) : signedOf w v = (v : Int).bmod (2 ^ w) := by
  have half : (2 ^ w + 1) / 2 = 2 ^ (w - 1) := by
    cases w with
    | zero => rfl
    | succ n => rw [Nat.add_sub_cancel, Nat.pow_succ]; omega
  simp only [signedOf, Int.bmod_def]
  norm_cast
  simp [half]

/-- R14 as one equation: the interval is the balanced remainder modulo 2^64 of the difference of the stamps. -/
theorem stampGap_eq_bmod (later earlier : Nat) :
    stampGap later earlier = ((later : Int) - earlier).bmod (2 ^ 64) := by
  rw [stampGap, signedOf_eq_bmod]
  have same : (((later % 2 ^ 64 + 2 ^ 64 - earlier % 2 ^ 64 : Nat) : Int)) % (2 ^ 64 : Nat) =
      ((later : Int) - earlier) % (2 ^ 64 : Nat) := by omega
  rw [← Int.emod_bmod, same, Int.emod_bmod]

/-- An interval depends on the short stamps alone (R12). -/
theorem stampGap_mod_mod (later earlier : Nat) :
    stampGap (later % 2 ^ 64) (earlier % 2 ^ 64) = stampGap later earlier := by
  simp only [stampGap, Nat.mod_mod]

/-- Settles O6: each clause reads a property of the balanced remainder (its range, its congruence, and that it is the number
itself between -2^63 and 2^63 - 1) off `stampGap_eq_bmod`. -/
theorem intervalsAreSignedDifferences : Obligations.IntervalsAreSignedDifferences := by
  unfold Obligations.IntervalsAreSignedDifferences
  refine ⟨fun later earlier => ?range, fun a d _ hd => ?precedes, fun a d hd => ?follows⟩
  case range =>
    rw [stampGap_eq_bmod]
    refine ⟨Int.le_bmod (by decide), Int.bmod_lt (by decide), ?_⟩
    exact Int.emod_eq_zero_of_dvd Int.dvd_bmod_sub_self
  case precedes =>
    rw [stampGap_mod_mod, stampGap_eq_bmod]
    have diff : (a : Int) - (a + d : Nat) = -d := by omega
    rw [diff]
    exact Int.bmod_eq_of_le (by omega) (by omega)
  case follows =>
    rw [stampGap_mod_mod, stampGap_add a d hd]

end Sys2Proof.Machine

/-! The order in which the elements of a head are blended (R48), and the clipped tell-tale rectangle (R56). -/

namespace Sys2Proof.Machine

/-- The entries of a map in canonical form stand in the order of their keys. -/
theorem mapRises_pairwise {α : Type} [DecidableEq α] {d : Nat → α} {m : List (Nat × α)} {lo : Nat} (h : mapRises d lo m = true) :
    m.Pairwise (fun x y => x.1 < y.1) := by
  induction m generalizing lo with
  | nil => exact List.Pairwise.nil
  | cons e rest ih =>
    obtain ⟨-, -, hrest⟩ := mapRises_cons.mp h
    exact List.pairwise_cons.mpr ⟨fun x hx => mapRises_key hrest x hx, ih hrest⟩

/-- The enabled elements of head `h` in the order of the element table. -/
def Chip.enabledElems (c : Chip) (h : Nat) : List (Nat × Elem) :=
  (c.curElem.map (fun e => (e.1, elemOf e.2))).filter (fun e => e.2.en && e.2.head == h)

theorem Chip.headElems_eq (c : Chip) (h : Nat) :
    c.headElems h = (List.range 16).flatMap (fun p => (c.enabledElems h).filter (fun e => e.2.plane == p)) := rfl

theorem Chip.enabledElems_pairwise {c : Chip} (hc : c.canonical) (h : Nat) :
    (c.enabledElems h).Pairwise (fun x y => x.1 < y.1) := by
  obtain ⟨-, -, -, hcur⟩ := hc
  unfold Chip.enabledElems
  exact List.Pairwise.filter _ (List.pairwise_map.mpr (mapRises_pairwise hcur))

/-- Sorting a list into buckets by a number, the buckets in rising order, keeps the list's own order within a bucket. -/
theorem pairwise_flatMap_buckets {α : Type} {r : α → α → Prop} {l : List α} (hl : l.Pairwise r) (key : α → Nat) (n : Nat) :
    ((List.range n).flatMap (fun p => l.filter (fun x => key x == p))).Pairwise
      (fun x y => key x < key y ∨ (key x = key y ∧ r x y)) := by
  have key_of_mem {p : Nat} {x : α} (hx : x ∈ l.filter (fun x => key x == p)) : key x = p := by
    simpa using (List.mem_filter.mp hx).2
  refine List.pairwise_flatMap.mpr ⟨fun p _ => ?same, List.pairwise_lt_range.imp fun hpq x hx y hy => ?later⟩
  case same =>
    refine (hl.filter _).imp_of_mem fun hx hy hr => Or.inr ⟨?_, hr⟩
    rw [key_of_mem hx, key_of_mem hy]
  case later =>
    rw [key_of_mem hx, key_of_mem hy]
    exact Or.inl hpq

/-- Settles O8: `headElems` sorts the enabled elements into buckets by plane, and the element table of a canonical part lists
them by element number. -/
theorem higherElementsLieAbove : Obligations.HigherElementsLieAbove := by
  unfold Obligations.HigherElementsLieAbove
  intro s h hc
  rw [Chip.headElems_eq]
  exact pairwise_flatMap_buckets (Chip.enabledElems_pairwise hc h) (fun e => e.2.plane) 16

/-- A zero in either size field selects the whole frame (R56). -/
theorem Chip.ttRect_of_zero {c : Chip} {n w h : Nat} (hz : c.fld (R.srcTtSize n) 31 16 = 0 ∨ c.fld (R.srcTtSize n) 15 0 = 0) :
    c.ttRect n w h = (0, 0, w, h) := by
  rcases hz with hz | hz <;> simp [Chip.ttRect, hz]

/-- A rectangle keeps its corner, and its size ends at the frame's edge (R56). -/
theorem Chip.ttRect_of_ne_zero {c : Chip} {n w h : Nat} (hh : c.fld (R.srcTtSize n) 31 16 ≠ 0) (hw : c.fld (R.srcTtSize n) 15 0 ≠ 0) :
    c.ttRect n w h = (c.fld (R.srcTtPos n) 15 0, c.fld (R.srcTtPos n) 31 16,
      min (c.fld (R.srcTtSize n) 15 0) (w - c.fld (R.srcTtPos n) 15 0),
      min (c.fld (R.srcTtSize n) 31 16) (h - c.fld (R.srcTtPos n) 31 16)) := by
  simp [Chip.ttRect, hh, hw]

/-- An interval whose length is cut at the bound `m` holds exactly its numbers below `m`. -/
theorem mem_clipped_iff (a len m x : Nat) : (a ≤ x ∧ x < a + min len (m - a)) ↔ (a ≤ x ∧ x < a + len ∧ x < m) := by omega

/-- Settles O9: the rectangle's two sides are clipped independently, each by `mem_clipped_iff`. -/
theorem tellTaleRectangleIsClipped : Obligations.TellTaleRectangleIsClipped := by
  unfold Obligations.TellTaleRectangleIsClipped
  refine ⟨fun c n w h hz => Chip.ttRect_of_zero hz, fun c n w h x y hh hw => ?_⟩
  rw [Chip.ttRect_of_ne_zero hh hw]
  have column := mem_clipped_iff (c.fld (R.srcTtPos n) 15 0) (c.fld (R.srcTtSize n) 15 0) w x
  have row := mem_clipped_iff (c.fld (R.srcTtPos n) 31 16) (c.fld (R.srcTtSize n) 31 16) h y
  tauto

end Sys2Proof.Machine

/-! Refused commands (R17, R433), and the check units that refuse every program (R246, R254). -/

namespace Sys2Proof.Machine

/-! ### What a refused command leaves -/

/-- The counting half of a refusal: the window's count, and with a command of the peg engine `PEG_REFUSE` (R17, R132). -/
def Chip.countRefusal (c : Chip) (a : Nat) : Chip :=
  if decide (0x400A0000 ≤ a) && decide (a < 0x400E0000) then (c.bump (R.pitRefcnt (windowOf a))).bump R.pegRefuse
  else c.bump (R.pitRefcnt (windowOf a))

/-- `PIT_REF` as a refusal fills it (R433). -/
def Chip.fillPitRef (c : Chip) (src : Source) (cause : Nat) : Chip :=
  ((c.setFld R.pitRef 31 31 1).setFld R.pitRef 26 24 (srcCode src)).setFld R.pitRef 19 16 cause

/-- The whole refusal record as a refusal at the present time fills it (R433). -/
def Chip.fillRefusal (c : Chip) (src : Source) (a : Nat) (data : Word) (cause : Nat) : Chip :=
  (((c.fillPitRef src cause).setFld R.pitRefAddr 25 0 (wordOfs a)).setReg R.pitRefData data).setWide R.pitRefStampLo
    R.pitRefStampHi (shortStamp c.clk)

/-- The content of the event of a refusal at stamp `t` (R433). -/
def refusalContent (t : Stamp) (src : Source) (a : Nat) (data : Word) (cause : Nat) : List CField :=
  [.val 4 (wordOfs a), .val 4 data.toNat, .val 1 (srcCode src), .val 1 cause, .val 8 (shortStamp t)]

/-- The recording half of a refusal: the record and its event. -/
def Chip.recordRefusal (c : Chip) (src : Source) (a : Nat) (data : Word) (cause : Nat) : Chip :=
  (c.fillRefusal src a data cause).event 0x0108 .room (refusalContent c.clk src a data cause)

/-- The registers of the refusal record and of its event. -/
def recordRegs : List Nat :=
  [R.pitRef, R.pitRefAddr, R.pitRefData, R.pitRefStampLo, R.pitRefStampHi] ++ eventRegs

/-- A refusal counts, and fills the record where it is empty. -/
theorem Chip.refuse_eq (c : Chip) (src : Source) (a : Nat) (data : Word) (cause : Nat) :
    c.refuse src a data cause =
      if (c.countRefusal a).bit R.pitRef 31 then c.countRefusal a else (c.countRefusal a).recordRefusal src a data cause := by
  unfold Chip.refuse Chip.countRefusal
  split <;> rfl

/-- A refusal count lies in an array of its own, apart from the registers of the record (R455). -/
theorem pitRefcnt_windowOf_bounds (a : Nat) :
    0x40011000 ≤ R.pitRefcnt (windowOf a) ∧ R.pitRefcnt (windowOf a) < 0x40012000 := by
  simp only [R.pitRefcnt, windowOf, bitsNat]
  omega

theorem pitRefcnt_windowOf_notMem_recordRegs (a : Nat) : R.pitRefcnt (windowOf a) ∉ recordRegs := by
  have range := pitRefcnt_windowOf_bounds a
  have outside : ∀ b ∈ recordRegs, ¬ (0x40011000 ≤ b ∧ b < 0x40012000) := by decide
  exact fun h => outside _ h range

theorem pitRefcnt_windowOf_ne_pegRefuse (a : Nat) : R.pitRefcnt (windowOf a) ≠ R.pegRefuse := by
  have range := pitRefcnt_windowOf_bounds a
  simp only [R.pegRefuse]
  omega

@[simp] theorem Chip.countRefusal_clk (c : Chip) (a : Nat) : (c.countRefusal a).clk = c.clk := by
  unfold Chip.countRefusal; split <;> rfl

@[simp] theorem Chip.countRefusal_evq (c : Chip) (a : Nat) : (c.countRefusal a).evq = c.evq := by
  unfold Chip.countRefusal; split <;> rfl

/-- A window's refusal count advances by 1 and saturates. -/
theorem Chip.countRefusal_count (c : Chip) (a : Nat) :
    ((c.countRefusal a).reg (R.pitRefcnt (windowOf a))).toNat = min ((c.reg (R.pitRefcnt (windowOf a))).toNat + 1) (2 ^ 32 - 1) := by
  unfold Chip.countRefusal
  split
  · rw [Chip.bump_reg_other _ (pitRefcnt_windowOf_ne_pegRefuse a), Chip.bump_reg_same]
  · exact Chip.bump_reg_same _ _

/-- Counting a refusal leaves the refusal record. -/
theorem Chip.countRefusal_pitRef (c : Chip) (a : Nat) : (c.countRefusal a).reg R.pitRef = c.reg R.pitRef := by
  have count : R.pitRef ≠ R.pitRefcnt (windowOf a) :=
    fun h => pitRefcnt_windowOf_notMem_recordRegs a (h ▸ by decide)
  have peg : R.pitRef ≠ R.pegRefuse := by decide
  unfold Chip.countRefusal
  split
  · rw [Chip.bump_reg_other _ peg, Chip.bump_reg_other _ count]
  · exact Chip.bump_reg_other _ count

theorem Chip.fillPitRef_valid (c : Chip) (src : Source) (cause : Nat) : (c.fillPitRef src cause).bit R.pitRef 31 = true := by
  rw [Chip.fillPitRef, Chip.setFld_bit_disjoint _ _ _ _ _ _ (by decide) (by decide),
    Chip.setFld_bit_disjoint _ _ _ _ _ _ (by decide) (by decide), Chip.setFld_bit_same _ _ _ _ (by decide)]
  rfl

theorem Chip.fillPitRef_source (c : Chip) (src : Source) (cause : Nat) :
    (c.fillPitRef src cause).fld R.pitRef 26 24 = srcCode src := by
  rw [Chip.fillPitRef, Chip.setFld_fld_disjoint _ _ _ _ _ _ _ (by decide) (by decide), Chip.setFld_fld_same _ _ _ _ _ (by decide)]
  cases src <;> rfl

theorem Chip.fillPitRef_cause (c : Chip) (src : Source) (cause : Nat) :
    (c.fillPitRef src cause).fld R.pitRef 19 16 = cause % 16 :=
  Chip.setFld_fld_same _ _ _ _ _ (by decide)

/-- The rest of the record and the event leave `PIT_REF` as it was filled. -/
theorem Chip.recordRefusal_pitRef (c : Chip) (src : Source) (a : Nat) (data : Word) (cause : Nat) :
    (c.recordRefusal src a data cause).reg R.pitRef = (c.fillPitRef src cause).reg R.pitRef := by
  rw [Chip.recordRefusal, Chip.event_reg _ _ _ _ (by decide) (by decide), Chip.fillRefusal,
    Chip.setWide_reg_other _ _ (by decide) (by decide), Chip.setReg_reg_other _ _ (by decide),
    Chip.setFld_reg_other _ _ _ _ (by decide)]

theorem Chip.recordRefusal_pitRefData (c : Chip) (src : Source) (a : Nat) (data : Word) (cause : Nat) :
    (c.recordRefusal src a data cause).reg R.pitRefData = data := by
  rw [Chip.recordRefusal, Chip.event_reg _ _ _ _ (by decide) (by decide), Chip.fillRefusal,
    Chip.setWide_reg_other _ _ (by decide) (by decide), Chip.setReg_reg_same]

@[simp] theorem Chip.fillRefusal_clk (c : Chip) (src : Source) (a : Nat) (data : Word) (cause : Nat) :
    (c.fillRefusal src a data cause).clk = c.clk := rfl

@[simp] theorem Chip.fillRefusal_evq (c : Chip) (src : Source) (a : Nat) (data : Word) (cause : Nat) :
    (c.fillRefusal src a data cause).evq = c.evq := rfl

theorem Chip.recordRefusal_raises (c : Chip) (src : Source) (a : Nat) (data : Word) (cause : Nat) :
    c.raises (c.recordRefusal src a data cause) [⟨0x0108, .room, c.clk, refusalContent c.clk src a data cause⟩] := by
  have quiet : c.raises (c.fillRefusal src a data cause) [] := Chip.raises.refl.same (Chip.fillRefusal_evq c src a data cause)
  have raised := quiet.event 0x0108 .room (refusalContent c.clk src a data cause)
  rwa [Chip.fillRefusal_clk] at raised

theorem Chip.recordRefusal_writesOnly (c : Chip) (src : Source) (a : Nat) (data : Word) (cause : Nat) :
    c.writesOnly (c.recordRefusal src a data cause) recordRegs := by
  have pitRef : R.pitRef ∈ recordRegs := by decide
  have filled : c.writesOnly (c.fillPitRef src cause) recordRegs :=
    ((Chip.writesOnly.refl.setFld pitRef _ _ _).setFld pitRef _ _ _).setFld pitRef _ _ _
  refine (((filled.setFld ?_ _ _ _).setReg ?_ _).setWide ?_ ?_ _).event ?_ _ _ _ <;> decide

/-- `Chip.refuse` leaves what `Chip.refused` says, for a command at any register. -/
theorem Chip.refused_refuse (c : Chip) (src : Source) (a : Nat) (data : Word) (cause : Nat) :
    c.refused (c.refuse src a data cause) c.clk src a data cause := by
  have frame : c.writesOnly (c.refuse src a data cause) (refusalRegs a) := Chip.writesOnly.refl.refuse (fun _ h => h) src data cause
  have count := c.countRefusal_count a
  have held : (c.countRefusal a).bit R.pitRef 31 = c.bit R.pitRef 31 := Chip.bit_of_reg (c.countRefusal_pitRef a) 31
  rw [Chip.refuse_eq, held] at frame ⊢
  cases full : c.bit R.pitRef 31 with
  | true =>
    simp only [full, if_true] at frame ⊢
    refine ⟨count, held.trans full, fun h => absurd (full.symm.trans h) (by decide), fun _ => ⟨?_, ?_⟩, frame⟩
    · exact Chip.fld_of_reg (c.countRefusal_pitRef a) 30 0
    · exact Chip.raises.refl.same (c.countRefusal_evq a)
  | false =>
    simp only [full, Bool.false_eq_true, if_false] at frame ⊢
    have record := (c.countRefusal a).recordRefusal_pitRef src a data cause
    refine ⟨?_, ?_, fun _ => ⟨?_, ?_, ?_, ?_⟩, fun h => absurd (full.symm.trans h) (by decide), frame⟩
    · rw [((c.countRefusal a).recordRefusal_writesOnly src a data cause).1 _ (pitRefcnt_windowOf_notMem_recordRegs a), count]
    · exact (Chip.bit_of_reg record 31).trans (Chip.fillPitRef_valid _ _ _)
    · exact (Chip.fld_of_reg record 26 24).trans (Chip.fillPitRef_source _ _ _)
    · exact (Chip.fld_of_reg record 19 16).trans (Chip.fillPitRef_cause _ _ _)
    · exact Chip.recordRefusal_pitRefData _ _ _ _ _
    · have raised := (c.countRefusal a).recordRefusal_raises src a data cause
      rwa [Chip.raises, Chip.countRefusal_evq, Chip.countRefusal_clk] at raised

/-- A command that is refused at its stamp answers a part that shows the refusal, and no check unit has changed. -/
theorem answers_refusal {i : Instr} {s : State} {ok : Bool} {f : Chip → Chip} {t : Stamp} {src : Source} {a : Nat} {data : Word}
    {cause : Nat} (hi : exec i s = runIf ok f s) (hok : ok = true) (hf : f s.chip = (s.chip.at t).refuse src a data cause) :
    Answers i s (fun c => c.chk = s.chip.chk ∧ s.chip.refused c t src a data cause) := by
  refine answers_of hi hok ?_
  rw [hf]
  exact ⟨Chip.refuse_chk _ _ _ _ _, (s.chip.at t).refused_refuse src a data cause⟩

/-! ### Writes of programs to the check units (R254) -/

theorem exec_chkCfgWrite (t : Stamp) (src : Source) (u : Nat) (w : Word) (s : State) :
    exec (.chkCfgWrite t src u w) s = runIf (decide (u < 16)) (fun c => (c.at t).chkConfig src u w) s := rfl

theorem exec_start (t : Stamp) (src : Source) (u : Nat) (s : State) :
    exec (.start t src u) s = runIf (decide (u < 16)) (fun c => (c.at t).chkCommand src u 1) s := rfl

theorem exec_finish (t : Stamp) (src : Source) (u : Nat) (s : State) :
    exec (.finish t src u) s = runIf (decide (u < 16)) (fun c => (c.at t).chkCommand src u 2) s := rfl

theorem exec_resetAlive (t : Stamp) (src : Source) (u : Nat) (s : State) :
    exec (.resetAlive t src u) s = runIf (decide (u < 16)) (fun c => (c.at t).chkCommand src u 3) s := rfl

theorem exec_feedByte (t : Stamp) (src : Source) (u : Nat) (w : Word) (s : State) :
    exec (.feedByte t src u w) s = runIf (decide (u < 16)) (fun c => (c.at t).chkFeedWrite src u (R.chkFeedB u) 1 w) s := rfl

theorem exec_feedHalfWord (t : Stamp) (src : Source) (u : Nat) (w : Word) (s : State) :
    exec (.feedHalfWord t src u w) s = runIf (decide (u < 16)) (fun c => (c.at t).chkFeedWrite src u (R.chkFeedH u) 2 w) s := rfl

theorem exec_feedWord (t : Stamp) (src : Source) (u : Nat) (w : Word) (s : State) :
    exec (.feedWord t src u w) s = runIf (decide (u < 16)) (fun c => (c.at t).chkFeedWrite src u (R.chkFeedW u) 4 w) s := rfl

/-- A command with a cause in R254's list is refused with that cause. -/
theorem Chip.chkCommand_of_cause {c : Chip} {u cmd cause : Nat} (h : c.chkCause cmd u = cause) (h0 : cause ≠ 0) (src : Source) :
    c.chkCommand src u cmd = c.refuse src (R.chkCmd u) (cmdWord cmd) cause := by
  simp [Chip.chkCommand, h, h0]

/-- A START, FINISH or RESET_ALIVE with a cause in R254's list answers the refusal. -/
theorem answers_chkCommand_refused {i : Instr} {s : State} {t : Stamp} {src : Source} {u cmd cause : Nat}
    (hi : exec i s = runIf (decide (u < 16)) (fun c => (c.at t).chkCommand src u cmd) s) (hu : u < 16)
    (h : s.chip.chkCause cmd u = cause) (h0 : cause ≠ 0) :
    Answers i s (fun c => c.chk = s.chip.chk ∧ s.chip.refused c t src (R.chkCmd u) (cmdWord cmd) cause) :=
  answers_refusal hi (decide_eq_true hu) (Chip.chkCommand_of_cause (c := s.chip.at t) h h0 src)

theorem Chip.chkCause_start_service {c : Chip} {u : Nat} (hu : u ≤ 4) (en : c.bit (R.chkCfg u) 31 = true)
    (closed : (c.chkUnit u).isOpen = false) : c.chkCause 1 u = 3 := by
  simp [Chip.chkCause, hu, en, closed]

theorem Chip.chkCause_finish_service {c : Chip} {u : Nat} (hu : u ≤ 4) (isOpen : (c.chkUnit u).isOpen = true)
    (enough : (c.chkUnit u).append = true ∨
      aliveBytes (c.chkUnit u).alive + (crcPoly (c.chkUnit u).poly).width / 8 ≤ (c.chkUnit u).fed.length) :
    c.chkCause 2 u = 3 := by
  rcases enough with append | fed
  · simp [Chip.chkCause, hu, isOpen, append]
  · simp [Chip.chkCause, hu, isOpen, Nat.not_lt.mpr fed]

theorem Chip.chkCause_resetAlive_service {c : Chip} {u : Nat} (hu : u ≤ 4) (closed : (c.chkUnit u).isOpen = false) :
    c.chkCause 3 u = 2 := by
  simp [Chip.chkCause, hu, closed]

theorem Chip.chkFeedWrite_service {c : Chip} {u : Nat} (hu : u ≤ 4) (isOpen : (c.chkUnit u).isOpen = true) (src : Source)
    (a n : Nat) (data : Word) : c.chkFeedWrite src u a n data = c.refuse src a data 2 := by
  simp [Chip.chkFeedWrite, hu, isOpen]

/-- A feed of an open unit below 5 answers the refusal, whatever its width. -/
theorem answers_feed_refused {i : Instr} {s : State} {t : Stamp} {src : Source} {u a n : Nat} {data : Word}
    (hi : exec i s = runIf (decide (u < 16)) (fun c => (c.at t).chkFeedWrite src u a n data) s) (hu : u ≤ 4)
    (isOpen : (s.chip.chkUnit u).isOpen = true) :
    Answers i s (fun c => c.chk = s.chip.chk ∧ s.chip.refused c t src a data 2) :=
  answers_refusal hi (decide_eq_true (by omega)) (Chip.chkFeedWrite_service (c := s.chip.at t) hu isOpen src a n data)

theorem Chip.chkConfig_service {u : Nat} (hu : u ≤ 4) (c : Chip) (src : Source) (data : Word) :
    c.chkConfig src u data = c.refuse src (R.chkCfg u) data 1 := if_pos hu

/-! ### The configuration that a unit's messages open under (R245, R254) -/

/-- `CHK_CFG` is the first row of the table of R254, and its index is the unit. -/
theorem descAt_chkCfg {u : Nat} (hu : u < 16) : descAt (R.chkCfg u) = some (regsChk[0]'(by decide), [u]) := by
  interval_cases u <;> rfl

/-- `CHK_CFG` reads as it stands: it is no SNAP word and has no WO field (R15, R20). -/
theorem Chip.readReg_chkCfg (c : Chip) {u : Nat} (hu : u < 16) : c.readReg (R.chkCfg u) = c.reg (R.chkCfg u) := by
  rw [Chip.readReg, descAt_chkCfg hu]
  rfl

/-- After reset every unit's `CHK_CFG` holds the reset values of its row. -/
theorem State.reset_chkCfg {u : Nat} (hu : u < 16) :
    State.reset.chip.reg (R.chkCfg u) = (regsChk[0]'(by decide)).resetWord u := by
  have initial : State.reset.chip.reg (R.chkCfg u) = resetWord (R.chkCfg u) := rfl
  rw [initial, resetWord, descAt_chkCfg hu]
  rfl

/-- START takes the configuration from `CHK_CFG` and, in append mode, advances the counter (R245). -/
theorem Chip.chkUnit_chkStart (c : Chip) (u : Nat) :
    (c.chkStart u).chkUnit u = { c.chkUnit u with
      isOpen := true, fed := [], append := !c.bit (R.chkCfg u) 30, alive := c.fld (R.chkCfg u) 29 28,
      poly := c.fld (R.chkCfg u) 2 0,
      counter := if !c.bit (R.chkCfg u) 30 && c.fld (R.chkCfg u) 29 28 != 0
        then ((c.chkUnit u).counter + 1) % 2 ^ (8 * aliveBytes (c.fld (R.chkCfg u) 29 28)) else (c.chkUnit u).counter } := by
  simp [Chip.chkStart, Chip.chkUnit, Chip.modChk]

/-- A bit is clear when its field is 0. -/
theorem Chip.not_bit_eq (c : Chip) (a b : Nat) : (!c.bit a b) = (c.fld a b b == 0) := by
  have small : c.fld a b b < 2 := by
    simpa [Chip.fld, Nat.add_sub_cancel_left] using bitsOf_lt (c.reg a) b b
  have cases01 : c.fld a b b = 0 ∨ c.fld a b b = 1 := by omega
  rcases cases01 with h | h <;> simp [Chip.bit, h]

/-- Settles O11: R254's list gives each command to a unit below 5 its cause, and a command with a cause is refused with it; the
configuration is read off `Chip.chkUnit_chkStart`, and its reset values off the row of `CHK_CFG`. -/
theorem serviceCheckUnitsCannotBeReconfigured : Obligations.ServiceCheckUnitsCannotBeReconfigured := by
  unfold Obligations.ServiceCheckUnitsCannotBeReconfigured
  refine ⟨fun s t src u w hu => ?config, fun s t src u hu en closed => ?start, fun s t src u hu isOpen enough => ?finish,
    fun s t src u hu closed => ?resetAlive, fun s t src u w hu isOpen => ⟨?feedByte, ?feedHalfWord, ?feedWord⟩,
    fun c u hu => ?opens, fun u hu => ?reset⟩
  case config =>
    exact answers_refusal (exec_chkCfgWrite t src u w s) (decide_eq_true (by omega)) (Chip.chkConfig_service hu _ src w)
  case start =>
    exact answers_chkCommand_refused (exec_start t src u s) (by omega) (Chip.chkCause_start_service hu en closed) (by decide)
  case finish =>
    exact answers_chkCommand_refused (exec_finish t src u s) (by omega) (Chip.chkCause_finish_service hu isOpen enough) (by decide)
  case resetAlive =>
    exact answers_chkCommand_refused (exec_resetAlive t src u s) (by omega) (Chip.chkCause_resetAlive_service hu closed) (by decide)
  case feedByte => exact answers_feed_refused (exec_feedByte t src u w s) hu isOpen
  case feedHalfWord => exact answers_feed_refused (exec_feedHalfWord t src u w s) hu isOpen
  case feedWord => exact answers_feed_refused (exec_feedWord t src u w s) hu isOpen
  case opens =>
    rw [Chip.chkUnit_chkStart, Chip.readReg_chkCfg c hu]
    exact ⟨rfl, rfl, c.not_bit_eq (R.chkCfg u) 30⟩
  case reset =>
    simp only [Chip.bit, Chip.fld, State.reset_chkCfg (show u < 16 by omega)]
    interval_cases u <;> decide

end Sys2Proof.Machine

/-! What every command answers, and how a queue runs (R86, R340). -/

namespace Sys2Proof.Machine

/-! ### Well-formed commands and queues of them -/

/-- Settles O2: each command runs a function of the part under its well-formedness (`exec_form`). -/
theorem wellFormedCommandsComplete : Obligations.WellFormedCommandsComplete := by
  unfold Obligations.WellFormedCommandsComplete
  refine ⟨fun i s h => ?_, exec_illFormed⟩
  obtain ⟨c, hc⟩ := exec_wellFormed i s h
  exact ⟨_, hc, rfl, trivial⟩

/-- With a command waiting, a step runs it on the state with the rest of the queue. -/
theorem step_cons {s : State} {i : Instr} {rest : List Instr} (h : s.pending = i :: rest) :
    step s = exec i { s with pending := rest } := by
  rw [step, h]

/-- With no command waiting, a step idles. -/
theorem step_nil {s : State} (h : s.pending = []) : step s = .next { s with chip := s.chip.idle } := by
  rw [step, h]

/-- Settles O3: by induction on the queue, of which each step completes one command (O2). -/
theorem queueOfWellFormedCommandsRunsToItsEnd : Obligations.QueueOfWellFormedCommandsRunsToItsEnd := by
  unfold Obligations.QueueOfWellFormedCommandsRunsToItsEnd
  intro s wf
  induction hq : s.pending generalizing s with
  | nil => exact ⟨s, rfl, hq⟩
  | cons i rest ih =>
    obtain ⟨c, hc⟩ := exec_wellFormed i { s with pending := rest } (wf i (by simp [hq]))
    obtain ⟨t, ht, done⟩ := ih ⟨c, rest⟩ (fun j hj => wf j (by rw [hq]; exact List.mem_cons_of_mem i hj)) rfl
    exact ⟨t, by simpa [runs, step_cons hq, hc] using ht, done⟩

end Sys2Proof.Machine

/-! The canonical form of registers, memories and the current element table, which every operation keeps. -/

namespace Sys2Proof.Machine

variable {c : Chip}

/-! ### The maps of the part -/

/-- The canonical form of a part speaks of four of its fields. -/
@[simp] theorem Chip.canonical_mk
    {clk regs latch tbw dram evq evDrop rate tx mui taps watch chk pnt bol twn slots net held aus shown partIndex curElem
    curDesc curRegion prov elems heads roomNumber dec enc txs saving mem pruCur violations tagHeld trims cams caps tch d2dQueue
    d2dDown d2dLost touchIn ports gpo peg jrn age pitch mgt} :
    Chip.canonical ⟨clk, regs, latch, tbw, dram, evq, evDrop, rate, tx, mui, taps, watch, chk, pnt, bol, twn, slots, net, held,
    aus, shown, partIndex, curElem, curDesc, curRegion, prov, elems, heads, roomNumber, dec, enc, txs, saving, mem, pruCur,
    violations, tagHeld, trims, cams, caps, tch, d2dQueue, d2dDown, d2dLost, touchIn, ports, gpo, peg, jrn, age, pitch, mgt⟩ ↔
      mapRises resetWord 0 regs = true ∧ mapRises dramDefault 0 dram = true ∧ mapRises tbwDefault 0 tbw = true ∧
        mapRises zeroEntry 0 curElem = true := Iff.rfl

@[simp] theorem Chip.canonical.regs (hc : c.canonical) : mapWf resetWord c.regs := hc.1
@[simp] theorem Chip.canonical.dram (hc : c.canonical) : mapWf dramDefault c.dram := hc.2.1
@[simp] theorem Chip.canonical.tbw (hc : c.canonical) : mapWf tbwDefault c.tbw := hc.2.2.1
@[simp] theorem Chip.canonical.curElem (hc : c.canonical) : mapWf zeroEntry c.curElem := hc.2.2.2

@[simp] theorem Chip.canonical_ite {a b : Chip} {p : Prop} [Decidable p] (ha : a.canonical) (hb : b.canonical) :
    (if p then a else b).canonical := by split <;> assumption

@[simp] theorem mapWf_put {α : Type} [DecidableEq α] {d : Nat → α} {m : List (Nat × α)} (h : mapRises d 0 m = true)
    (k : Nat) (v : α) : mapRises d 0 (mapPut d m k v) = true := mapWf_mapPut k v h

@[simp] theorem mapWf_write {d : Nat → Byte} {m : List (Nat × Byte)} (h : mapRises d 0 m = true) (a : Nat) (l : List Byte) :
    mapRises d 0 (memWrite d m a l) = true := mapWf_memWrite d l a h

@[simp] theorem Chip.canonical.foldl {β : Type} {f : Chip → β → Chip} (hc : c.canonical)
    (hf : ∀ c x, c.canonical → (f c x).canonical) (l : List β) : (l.foldl f c).canonical := by
  induction l generalizing c with
  | nil => exact hc
  | cons x rest ih => exact ih (hf c x hc)

@[simp] theorem Chip.canonical.forN {f : Nat → Chip → Chip} (hc : c.canonical)
    (hf : ∀ c i, c.canonical → (f i c).canonical) (n : Nat) : (forN n f c).canonical := hc.foldl hf _

@[simp] theorem Chip.canonical.forL {β : Type} {f : β → Chip → Chip} (hc : c.canonical)
    (hf : ∀ c x, c.canonical → (f x c).canonical) (l : List β) : (forL l f c).canonical := hc.foldl hf _

@[simp] theorem Chip.canonical.foldl_fst {β γ : Type} {f : Chip × γ → β → Chip × γ} {x : Chip × γ} (hc : x.1.canonical)
    (hf : ∀ x i, x.1.canonical → (f x i).1.canonical) (l : List β) : (l.foldl f x).1.canonical := by
  induction l generalizing x with
  | nil => exact hc
  | cons y rest ih => exact ih (hf x y hc)

@[simp] theorem Chip.canonical.forN_fst {γ : Type} {f : Nat → Chip × γ → Chip × γ} {x : Chip × γ} (hc : x.1.canonical)
    (hf : ∀ x i, x.1.canonical → (f i x).1.canonical) (n : Nat) : (Machine.forN n f x).1.canonical := hc.foldl_fst hf _

@[simp] theorem Chip.canonical.forL_fst {β γ : Type} {f : β → Chip × γ → Chip × γ} {x : Chip × γ} (hc : x.1.canonical)
    (hf : ∀ x i, x.1.canonical → (f i x).1.canonical) (l : List β) : (Machine.forL l f x).1.canonical := hc.foldl_fst hf _

/-- An update of the timebase's hidden state. -/
theorem Chip.canonical.withMui (hc : c.canonical) (x : Muith) : Chip.canonical { c with mui := x } := hc

/-- An update of the twin's hidden state. -/
theorem Chip.canonical.withTwn (hc : c.canonical) (x : Twin) : Chip.canonical { c with twn := x } := hc

/-- An update of the management state. -/
theorem Chip.canonical.withMgt (hc : c.canonical) (x : Manage) : Chip.canonical { c with mgt := x } := hc

/-- An update of the pitch's hidden state. -/
theorem Chip.canonical.withPitch (hc : c.canonical) (x : Pitch) : Chip.canonical { c with pitch := x } := hc

/-- An update of the memory controller's hidden state. -/
theorem Chip.canonical.withMem (hc : c.canonical) (x : Mem) : Chip.canonical { c with mem := x } := hc

/-- An update of the ends of state saves. -/
theorem Chip.canonical.withSaving (hc : c.canonical) (x : List (Nat × Stamp)) : Chip.canonical { c with saving := x } := hc

/-- The first component of a pair that a keeping operation answers. -/
theorem Chip.canonical.of_fst_eq {c' : Chip} {γ : Type} {x : Chip × γ} {y : γ} (hx : x.1.canonical) (h : x = (c', y)) :
    c'.canonical := by
  subst h
  exact hx

/-! ### The named operations -/

@[simp] theorem Chip.canonical.at (hc : c.canonical) (t : Stamp) : (c.at t).canonical := by simp [Chip.at, hc]

@[simp] theorem Chip.canonical.idleCycle (hc : c.canonical) : (Machine.idleCycle c).canonical := by simp [Machine.idleCycle, hc]

@[simp] theorem Chip.canonical.send (hc : c.canonical) (m : TxMsg) : (c.send m).canonical := by simp [Chip.send, hc]

@[simp] theorem Chip.canonical.sendAll (hc : c.canonical) (l : List TxMsg) : (c.sendAll l).canonical := by simp [Chip.sendAll, hc]

@[simp] theorem Chip.canonical.setReg (hc : c.canonical) (a : Nat) (w : Word) : (c.setReg a w).canonical := by
  simp [Chip.setReg, hc]

@[simp] theorem Chip.canonical.setFld (hc : c.canonical) (a hi lo v : Nat) : (c.setFld a hi lo v).canonical := by
  simp [Chip.setFld, hc]

@[simp] theorem Chip.canonical.setNat (hc : c.canonical) (a v : Nat) : (c.setNat a v).canonical := by simp [Chip.setNat, hc]

@[simp] theorem Chip.canonical.setWide (hc : c.canonical) (lo hi v : Nat) : (c.setWide lo hi v).canonical := by
  simp [Chip.setWide, hc]

@[simp] theorem Chip.canonical.dramWrite (hc : c.canonical) (a : Nat) (l : List Byte) : (c.dramWrite a l).canonical := by
  simp (maxDischargeDepth := 60) [Chip.dramWrite, hc]

@[simp] theorem Chip.canonical.dramPut (hc : c.canonical) (a n v : Nat) : (c.dramPut a n v).canonical := by simp [Chip.dramPut, hc]

@[simp] theorem Chip.canonical.tbwWrite (hc : c.canonical) (o : Nat) (l : List Byte) : (c.tbwWrite o l).canonical := by
  simp [Chip.tbwWrite, hc]

@[simp] theorem Chip.canonical.tbwPut (hc : c.canonical) (o n v : Nat) : (c.tbwPut o n v).canonical := by simp [Chip.tbwPut, hc]

/-! ### Counters, results, events, refusals and dropped writes -/

@[simp] theorem Chip.canonical.addFld (hc : c.canonical) (a hi lo n : Nat) : (c.addFld a hi lo n).canonical := by
  simp [Chip.addFld, hc]

@[simp] theorem Chip.canonical.bump (hc : c.canonical) (a : Nat) : (c.bump a).canonical := by simp [Chip.bump, hc]

@[simp] theorem Chip.canonical.bumpBy (hc : c.canonical) (a n : Nat) : (c.bumpBy a n).canonical := by simp [Chip.bumpBy, hc]

@[simp] theorem Chip.canonical.publish (hc : c.canonical) (a : Nat) : (c.publish a).canonical := by simp [Chip.publish, hc]

@[simp] theorem Chip.canonical.unpublish (hc : c.canonical) (a : Nat) : (c.unpublish a).canonical := by simp [Chip.unpublish, hc]

@[simp] theorem Chip.canonical.netSend (hc : c.canonical) (p sub : Nat) (m : TxMsg) : (c.netSend p sub m).canonical := by
  simp (maxDischargeDepth := 60) [Chip.netSend, hc]

@[simp] theorem Chip.canonical.syncBacklog (hc : c.canonical) : c.syncBacklog.canonical := by simp [Chip.syncBacklog, hc]

@[simp] theorem Chip.canonical.dropEvent (hc : c.canonical) (code : Nat) : (c.dropEvent code).canonical := by
  simp [Chip.dropEvent, hc]

@[simp] theorem Chip.canonical.raise (hc : c.canonical) (e : Ev) : (c.raise e).canonical := by
  simp (maxDischargeDepth := 60) [Chip.raise, hc]

@[simp] theorem Chip.canonical.event (hc : c.canonical) (code : Nat) (place : FaultAddr) (content : List CField) :
    (c.event code place content).canonical := by
  simp [Chip.event, hc]

@[simp] theorem Chip.canonical.refuseBeyond (hc : c.canonical) (group a n : Nat) : (c.refuseBeyond group a n).canonical := by
  simp [Chip.refuseBeyond, hc]

@[simp] theorem Chip.canonical.raiseLimitedBy (hc : c.canonical) (unit : Nat) (e : Ev) (n : Nat) :
    (c.raiseLimitedBy unit e n).canonical := by
  simp (maxDischargeDepth := 60) [Chip.raiseLimitedBy, hc]

@[simp] theorem Chip.canonical.raiseLimited (hc : c.canonical) (unit : Nat) (e : Ev) : (c.raiseLimited unit e).canonical := by
  simp [Chip.raiseLimited, hc]

@[simp] theorem Chip.canonical.eventLimited (hc : c.canonical) (unit code : Nat) (place : FaultAddr) (content : List CField) :
    (c.eventLimited unit code place content).canonical := by
  simp [Chip.eventLimited, hc]

@[simp] theorem Chip.canonical.eventLimitedLast (hc : c.canonical) (unit code : Nat) (place : FaultAddr) (content : List CField) :
    (c.eventLimitedLast unit code place content).canonical := by
  simp [Chip.eventLimitedLast, hc]

@[simp] theorem Chip.canonical.rateWindowEnd (hc : c.canonical) (code unit : Nat) : (c.rateWindowEnd code unit).canonical := by
  simp only [Chip.rateWindowEnd]
  (repeat' split) <;> simp +contextual (maxDischargeDepth := 60) [hc]

@[simp] theorem Chip.canonical.refuse (hc : c.canonical) (src : Source) (a : Nat) (data : Word) (cause : Nat) :
    (c.refuse src a data cause).canonical := by
  simp (maxDischargeDepth := 60) [Chip.refuse, hc]

@[simp] theorem Chip.canonical.dropWrite (hc : c.canonical) (a : Nat) : (c.dropWrite a).canonical := by
  simp (maxDischargeDepth := 60) [Chip.dropWrite, hc]

@[simp] theorem Chip.canonical.writeFields (hc : c.canonical) (a : Nat) (w : Word) : (c.writeFields a w).canonical := by
  unfold Chip.writeFields
  split <;> simp +contextual (maxDischargeDepth := 60) [hc]

@[simp] theorem Chip.canonical.d2dDrop (hc : c.canonical) : c.d2dDrop.canonical := by simp [Chip.d2dDrop, hc]

@[simp] theorem Chip.canonical.queueUp (hc : c.canonical) (m : D2dMsg) : (c.queueUp m).canonical := by simp [Chip.queueUp, hc]

@[simp] theorem Chip.canonical.queueDown (hc : c.canonical) (m : D2dMsg) : (c.queueDown m).canonical := by simp [Chip.queueDown, hc]

@[simp] theorem Chip.canonical.overLink {f : Chip → Chip} (hc : c.canonical)
    (hf : ∀ c : Chip, c.canonical → (f c).canonical) (src : Source) (a : Nat) (w : Word) :
    (c.overLink src a w f).canonical := by
  simp [Chip.overLink, hc, hf]

@[simp] theorem Chip.canonical.noteHeads (hc : c.canonical) : c.noteHeads.canonical := by
  simp (maxDischargeDepth := 60) [Chip.noteHeads, hc]

/-! ### The check units -/

@[simp] theorem Chip.canonical.modChk (hc : c.canonical) (u : Nat) (f : ChkUnit → ChkUnit) : (c.modChk u f).canonical := by
  simp [Chip.modChk, hc]

@[simp] theorem Chip.canonical.chkStart (hc : c.canonical) (u : Nat) : (c.chkStart u).canonical := by
  simp (maxDischargeDepth := 60) [Chip.chkStart, hc]

@[simp] theorem Chip.canonical.chkFeed (hc : c.canonical) (u : Nat) (l : List Byte) : (c.chkFeed u l).canonical := by
  simp [Chip.chkFeed, hc]

@[simp] theorem Chip.canonical.chkFinish (hc : c.canonical) (u : Nat) : (c.chkFinish u).canonical := by
  simp (maxDischargeDepth := 60) [Chip.chkFinish, hc]

@[simp] theorem Chip.canonical.chkRun (hc : c.canonical) (u : Nat) (l : List Byte) : (c.chkRun u l).1.canonical := by
  simp (maxDischargeDepth := 60) [Chip.chkRun, hc]

@[simp] theorem Chip.canonical.chkCommand (hc : c.canonical) (src : Source) (u cmd : Nat) : (c.chkCommand src u cmd).canonical := by
  simp (maxDischargeDepth := 60) [Chip.chkCommand, hc]

@[simp] theorem Chip.canonical.chkFeedWrite (hc : c.canonical) (src : Source) (u a n : Nat) (data : Word) :
    (c.chkFeedWrite src u a n data).canonical := by
  simp (maxDischargeDepth := 60) [Chip.chkFeedWrite, hc]

@[simp] theorem Chip.canonical.chkConfig (hc : c.canonical) (src : Source) (u : Nat) (data : Word) :
    (c.chkConfig src u data).canonical := by
  simp [Chip.chkConfig, hc]

/-! ### Muith time -/

@[simp] theorem Chip.canonical.muiEvent (hc : c.canonical) (code : Nat) (content : List CField) :
    (c.muiEvent code content).canonical := by
  simp [Chip.muiEvent, hc]

@[simp] theorem Chip.canonical.setTb (hc : c.canonical) (new : Nat) : (c.setTb new).canonical := by
  simp (maxDischargeDepth := 60) [Chip.setTb, hc]

@[simp] theorem Chip.canonical.modRefIn (hc : c.canonical) (k : Nat) (f : RefInput → RefInput) : (c.modRefIn k f).canonical := by
  simp [Chip.modRefIn, hc]

@[simp] theorem Chip.canonical.failInput (hc : c.canonical) (k cause : Nat) : (c.failInput k cause).canonical := by
  simp [Chip.failInput, hc]

@[simp] theorem Chip.canonical.passInput (hc : c.canonical) (k cause : Nat) : (c.passInput k cause).canonical := by
  simp [Chip.passInput, hc]

@[simp] theorem Chip.canonical.farTest (hc : c.canonical) (k : Nat) (phi : Int) : (c.farTest k phi).canonical := by
  simp (maxDischargeDepth := 60) [Chip.farTest, hc]

@[simp] theorem Chip.canonical.phiSample (hc : c.canonical) (k : Nat) (phi : Int) (credit : Nat) :
    (c.phiSample k phi credit).canonical := by
  simp (maxDischargeDepth := 60) [Chip.phiSample, hc]

@[simp] theorem Chip.canonical.ppsEdge (hc : c.canonical) (k edge : Nat) : (c.ppsEdge k edge).canonical := by
  simp only [Chip.ppsEdge]
  (repeat' split) <;> simp +contextual (maxDischargeDepth := 60) [hc]

@[simp] theorem Chip.canonical.modPtp (hc : c.canonical) (p : Nat) (f : PtpPort → PtpPort) : (c.modPtp p f).canonical := by
  simp [Chip.modPtp, hc]

@[simp] theorem Chip.canonical.ptpAnnounce (hc : c.canonical) (p : Nat) (a : Announce) : (c.ptpAnnounce p a).canonical := by
  simp only [Chip.ptpAnnounce]
  (repeat' split) <;> simp +contextual (maxDischargeDepth := 60) [hc]

@[simp] theorem Chip.canonical.ptpComplete (hc : c.canonical) (p : Nat) (x : Int × Int) : (c.ptpComplete p x).canonical := by
  simp only [Chip.ptpComplete]
  (repeat' split) <;> simp +contextual (maxDischargeDepth := 60) [hc]

@[simp] theorem Chip.canonical.delayReq (hc : c.canonical) (p saddr seq : Nat) : (c.delayReq p saddr seq).canonical := by
  simp [Chip.delayReq, hc]

@[simp] theorem Chip.canonical.ptpMessage (hc : c.canonical) (p saddr : Nat) (m : PtpMsg) : (c.ptpMessage p saddr m).canonical := by
  cases m with
  | announce domain a => simp (maxDischargeDepth := 60) [Chip.ptpMessage, hc]
  | sync domain sender seq twoStep t1 t2 corr => simp (maxDischargeDepth := 60) [Chip.ptpMessage, hc]
  | followUp domain sender seq t1 corr =>
    simp only [Chip.ptpMessage]
    split <;> simp (maxDischargeDepth := 60) [hc]
  | delayResp domain sender seq t3 t4 corr =>
    simp only [Chip.ptpMessage]
    split <;> simp (maxDischargeDepth := 60) [hc]
  | other => exact hc

@[simp] theorem Chip.canonical.ptpReceive (hc : c.canonical) (p : Nat) (m : PtpFrame) : (c.ptpReceive p m).canonical := by
  simp [Chip.ptpReceive, hc]

@[simp] theorem Chip.canonical.noteReload (hc : c.canonical) (k : Nat) : (c.noteReload k).canonical := by
  unfold Chip.noteReload
  split <;> simp +contextual (maxDischargeDepth := 60) [hc]

@[simp] theorem Chip.canonical.setRefState (hc : c.canonical) (k new cause : Nat) : (c.setRefState k new cause).canonical := by
  simp (maxDischargeDepth := 60) [Chip.setRefState, hc]

@[simp] theorem Chip.canonical.evalInput (hc : c.canonical) (k : Nat) : (c.evalInput k).canonical := by
  simp (maxDischargeDepth := 60) [Chip.evalInput, hc]

@[simp] theorem Chip.canonical.observe (hc : c.canonical) (o : RefObs) : (c.observe o).canonical := by
  simp only [Chip.observe]
  (repeat' split) <;> simp +contextual (maxDischargeDepth := 60) [hc]

@[simp] theorem Chip.canonical.makeActive (hc : c.canonical) (e k : Nat) : (c.makeActive e k).canonical := by
  simp only [Chip.makeActive]
  (repeat' split) <;> simp +contextual (maxDischargeDepth := 60) [hc]

@[simp] theorem Chip.canonical.selectTo (hc : c.canonical) (e k : Nat) : (c.selectTo e k).canonical := by
  simp (maxDischargeDepth := 60) [Chip.selectTo, hc]

@[simp] theorem Chip.canonical.enterHoldover (hc : c.canonical) : c.enterHoldover.canonical := by
  simp (maxDischargeDepth := 60) [Chip.enterHoldover, hc]

@[simp] theorem Chip.canonical.select (hc : c.canonical) : c.select.canonical := by
  unfold Chip.select
  (repeat' split) <;> simp +contextual (maxDischargeDepth := 60) [hc]

@[simp] theorem Chip.canonical.actRefCmd (hc : c.canonical) (q : RefCmd) : (c.actRefCmd q).canonical := by
  unfold Chip.actRefCmd
  (repeat' split) <;> simp +contextual (maxDischargeDepth := 60) [hc]

@[simp] theorem Chip.canonical.refCommand (hc : c.canonical) (src : Source) (cmd entry : Nat) :
    (c.refCommand src cmd entry).canonical := by
  simp (maxDischargeDepth := 60) [Chip.refCommand, hc]

@[simp] theorem Chip.canonical.loopSample (hc : c.canonical) : c.loopSample.canonical := by
  unfold Chip.loopSample
  split <;> simp +contextual (maxDischargeDepth := 60) [hc]

@[simp] theorem Chip.canonical.lockWatch (hc : c.canonical) : c.lockWatch.canonical := by
  unfold Chip.lockWatch
  split <;> simp +contextual (maxDischargeDepth := 60) [hc]

@[simp] theorem Chip.canonical.logFreq (hc : c.canonical) : c.logFreq.canonical := by simp [Chip.logFreq, hc]

@[simp] theorem Chip.canonical.updateTe (hc : c.canonical) : c.updateTe.canonical := by
  simp only [Chip.updateTe]
  refine Chip.canonical_ite (Chip.canonical_ite ?_ (hc.setNat _ _)) (hc.setNat _ _)
  exact ((hc.setNat _ _).withMui _).muiEvent _ _

@[simp] theorem Chip.canonical.refreshMeas (hc : c.canonical) : c.refreshMeas.canonical := by
  simp (maxDischargeDepth := 60) [Chip.refreshMeas, hc]

@[simp] theorem Chip.canonical.refreshRefMeas (hc : c.canonical) : c.refreshRefMeas.canonical := by
  simp +contextual (maxDischargeDepth := 60) [Chip.refreshRefMeas, hc]

@[simp] theorem Chip.canonical.refreshUtc (hc : c.canonical) : c.refreshUtc.canonical := by
  simp only [Chip.refreshUtc]
  (repeat' split) <;> simp +contextual (maxDischargeDepth := 60) [hc]

@[simp] theorem Chip.canonical.dropForce (hc : c.canonical) : c.dropForce.canonical := by
  unfold Chip.dropForce
  split <;> simp +contextual (maxDischargeDepth := 60) [hc]

@[simp] theorem Chip.canonical.serdesLock (hc : c.canonical) : c.serdesLock.canonical := by
  simp (maxDischargeDepth := 60) [Chip.serdesLock, hc]

@[simp] theorem Chip.canonical.serdesStep (hc : c.canonical) : c.serdesStep.canonical := by simp [Chip.serdesStep, hc]

@[simp] theorem Chip.canonical.crossMeas {new : Chip} (hnew : new.canonical) : (c.crossMeas new).canonical := by
  simp +contextual (maxDischargeDepth := 60) [Chip.crossMeas, hnew]

@[simp] theorem Chip.canonical.startDwell (hc : c.canonical) (i : Nat) : (c.startDwell i).canonical := by simp [Chip.startDwell, hc]

@[simp] theorem Chip.canonical.loadCounter (hc : c.canonical) (new : Stamp) : (c.loadCounter new).canonical := by
  simp [Chip.loadCounter, hc]

@[simp] theorem Chip.canonical.loadSelected (hc : c.canonical) (creation : Stamp) (e k : Nat) :
    (c.loadSelected creation e k).canonical := by
  simp (maxDischargeDepth := 60) [Chip.loadSelected, hc]

@[simp] theorem Chip.canonical.loadCreation (hc : c.canonical) (creation : Stamp) : (c.loadCreation creation).canonical := by
  simp (maxDischargeDepth := 60) [Chip.loadCreation, hc]

/-! ### The Bolral link -/

@[simp] theorem Chip.canonical.sendFlit (hc : c.canonical) (body : List Byte) : (c.sendFlit body).canonical := by
  simp (maxDischargeDepth := 60) [Chip.sendFlit, hc]

@[simp] theorem Chip.canonical.sendMessage (hc : c.canonical) (type : Nat) (payload : List Byte) :
    (c.sendMessage type payload).canonical := by
  simp +contextual (maxDischargeDepth := 60) [Chip.sendMessage, hc]

@[simp] theorem Chip.canonical.bolSend (hc : c.canonical) (type : Nat) (payload : List Byte) :
    (c.bolSend type payload).canonical := by
  simp [Chip.bolSend, hc]

@[simp] theorem Chip.canonical.bolQueue (hc : c.canonical) (type : Nat) (payload : List Byte) :
    (c.bolQueue type payload).canonical := by
  simp [Chip.bolQueue, hc]

@[simp] theorem Chip.canonical.sendWaiting (hc : c.canonical) : c.sendWaiting.canonical := by
  simp +contextual (maxDischargeDepth := 60) [Chip.sendWaiting, hc]

@[simp] theorem Chip.canonical.idleFlit (hc : c.canonical) : c.idleFlit.canonical := by simp [Chip.idleFlit, hc]

@[simp] theorem Chip.canonical.idle (hc : c.canonical) : c.idle.canonical := by simp [Chip.idle, hc]

@[simp] theorem Chip.canonical.bolDown (hc : c.canonical) : c.bolDown.canonical := by
  simp (maxDischargeDepth := 60) [Chip.bolDown, hc]

@[simp] theorem Chip.canonical.deliverFlit (hc : c.canonical) (flit : List Byte) : (c.deliverFlit flit).canonical := by
  simp (maxDischargeDepth := 60) [Chip.deliverFlit, hc]

@[simp] theorem Chip.canonical.sendNak (hc : c.canonical) (e : Nat) : (c.sendNak e).canonical := by simp [Chip.sendNak, hc]

/-! ### The point engine -/

@[simp] theorem Chip.canonical.putPointRec (hc : c.canonical) (i : Nat) (r : PointRec) : (c.putPointRec i r).canonical := by
  simp [Chip.putPointRec, hc]

@[simp] theorem Chip.canonical.journal (hc : c.canonical) (index cause : Nat) (r : PointRec) (arrival : Stamp) :
    (c.journal index cause r arrival).canonical := by
  simp [Chip.journal, hc]

@[simp] theorem Chip.canonical.modFeeder (hc : c.canonical) (f : Nat) (g : Feeder → Feeder) : (c.modFeeder f g).canonical := by
  simp [Chip.modFeeder, hc]

@[simp] theorem Chip.canonical.feederSyncEvent (hc : c.canonical) (f state counter : Nat) :
    (c.feederSyncEvent f state counter).canonical := by
  simp [Chip.feederSyncEvent, hc]

@[simp] theorem Chip.canonical.loseSync (hc : c.canonical) (f : Nat) : (c.loseSync f).canonical := by simp [Chip.loseSync, hc]

@[simp] theorem Chip.canonical.resyncFeeders (hc : c.canonical) : c.resyncFeeders.canonical := by
  simp +contextual (maxDischargeDepth := 60) [Chip.resyncFeeders, hc]

@[simp] theorem Chip.canonical.pntBump (hc : c.canonical) (i : Nat) : (c.pntBump i).canonical := by simp [Chip.pntBump, hc]

@[simp] theorem Chip.canonical.applyEntry (hc : c.canonical) (f ctr mode : Nat) (arrival : Stamp) (late bad : Bool)
    (e : PointEntry) :
    (c.applyEntry f ctr mode arrival late bad e).canonical := by
  simp (maxDischargeDepth := 60) [Chip.applyEntry, hc]

@[simp] theorem Chip.canonical.applyEntries (hc : c.canonical) (f ctr : Nat) (arrival : Stamp) (late : Bool)
    (bad : List Nat) (l : List Byte) :
    (c.applyEntries f ctr arrival late bad l).canonical := by
  simp +contextual (maxDischargeDepth := 60) [Chip.applyEntries, hc]

@[simp] theorem Chip.canonical.feederAccepted (hc : c.canonical) (f : Nat) (arrival : Stamp) :
    (c.feederAccepted f arrival).canonical := by
  simp [Chip.feederAccepted, hc]

@[simp] theorem Chip.canonical.judgeFrame (hc : c.canonical) (f path : Nat) (arrival : Stamp) (bad : List Nat) (l : List Byte) :
    (c.judgeFrame f path arrival bad l).canonical := by
  simp only [Chip.judgeFrame]
  (repeat' split) <;> simp +contextual (maxDischargeDepth := 60) [hc]

@[simp] theorem Chip.canonical.pointArrive (hc : c.canonical) (flow : Nat) (arrival : Stamp) (l : List Byte) :
    (c.pointArrive flow arrival l).canonical := by
  simp (maxDischargeDepth := 60) [Chip.pointArrive, hc]

@[simp] theorem Chip.canonical.applyMirror (hc : c.canonical) (m : MirrorFrame) (bad : List Nat) :
    (c.applyMirror m bad).canonical := by
  simp [Chip.applyMirror, hc]

@[simp] theorem Chip.canonical.mirrorLate (hc : c.canonical) (x : MirrorFrame) : (c.mirrorLate x).canonical := by
  simp [Chip.mirrorLate, hc]

@[simp] theorem Chip.canonical.sweepRecord {x : Chip × Nat} (hc : x.1.canonical) (start : Stamp) (i : Nat) :
    (Chip.sweepRecord start i x).1.canonical := by
  simp only [Chip.sweepRecord]
  (repeat' split) <;> simp +contextual (maxDischargeDepth := 60) [hc]

@[simp] theorem Chip.canonical.runSweep (hc : c.canonical) (start : Stamp) : (c.runSweep start).canonical := by
  have swept : (Machine.forN (c.fld R.pntCtl 23 0) (Chip.sweepRecord start) (c, 0)).1.canonical :=
    Chip.canonical.forN_fst hc (fun _ i h => h.sweepRecord start i) _
  exact swept

@[simp] theorem Chip.canonical.sweepResult (hc : c.canonical) (w : Sweep) : (c.sweepResult w).canonical := by
  simp (maxDischargeDepth := 60) [Chip.sweepResult, hc]

/-! ### Formats -/

@[simp] theorem Chip.canonical.putRow (hc : c.canonical) (p : Pic) (ycc : Px → Nat × Nat × Nat) (y : Nat) (px : Nat → Nat → Px) :
    (c.putRow p ycc y px).canonical := by
  simp (maxDischargeDepth := 60) [Chip.putRow, hc]

@[simp] theorem Chip.canonical.putPic (hc : c.canonical) (p : Pic) (ycc : Px → Nat × Nat × Nat) (px : Nat → Nat → Px) :
    (c.putPic p ycc px).canonical := by
  simp +contextual (maxDischargeDepth := 60) [Chip.putPic, hc]

/-! ### Slots and frames -/

@[simp] theorem Chip.canonical.modSlot (hc : c.canonical) (n : Nat) (f : Slot → Slot) : (c.modSlot n f).canonical := by
  simp [Chip.modSlot, hc]

@[simp] theorem Chip.canonical.modBuf (hc : c.canonical) (n i : Nat) (f : SlotBuf → SlotBuf) : (c.modBuf n i f).canonical := by
  simp [Chip.modBuf, hc]

@[simp] theorem Chip.canonical.putFrameRec (hc : c.canonical) (n i : Nat) (r : FrameRec) : (c.putFrameRec n i r).canonical := by
  simp [Chip.putFrameRec, hc]

@[simp] theorem Chip.canonical.modDone (hc : c.canonical) (n seq : Nat) (f : Finished → Finished) :
    (c.modDone n seq f).canonical := by
  simp [Chip.modDone, hc]

@[simp] theorem Chip.canonical.sendNotice (hc : c.canonical) (n key : Nat) (v : Verdict) : (c.sendNotice n key v).canonical := by
  simp [Chip.sendNotice, hc]

@[simp] theorem Chip.canonical.agreeFrame (hc : c.canonical) (n i seq : Nat) (e cap : Stamp) (derived lost : Bool) :
    (c.agreeFrame n i seq e cap derived lost).canonical := by
  simp (maxDischargeDepth := 60) [Chip.agreeFrame, hc]

@[simp] theorem Chip.canonical.decideFrame (hc : c.canonical) (n : Nat) (g : Agree) (own twin : Verdict) (late : Bool) :
    (c.decideFrame n g own twin late).canonical := by
  unfold Chip.decideFrame
  split <;> simp +contextual (maxDischargeDepth := 60) [hc]

@[simp] theorem Chip.canonical.settle (hc : c.canonical) (n : Nat) (late : Bool) : (c.settle n late).canonical := by
  refine Chip.canonical.forL (hc.modSlot n _) (fun c a hc => ?_) _
  split
  · exact hc.decideFrame _ _ _ _ _
  · exact hc

@[simp] theorem Chip.canonical.ownVerdict (hc : c.canonical) (n key : Nat) (frame : Option (Nat × Nat)) (v : Verdict) :
    (c.ownVerdict n key frame v).canonical := by
  simp (maxDischargeDepth := 60) [Chip.ownVerdict, hc]

@[simp] theorem Chip.canonical.firstVerdict (hc : c.canonical) (n key : Nat) (frame : Option (Nat × Nat)) (v : Verdict) :
    (c.firstVerdict n key frame v).canonical := by
  simp [Chip.firstVerdict, hc]

@[simp] theorem Chip.canonical.releaseWaiting (hc : c.canonical) : c.releaseWaiting.canonical := by
  refine hc.forN (fun c n hc => ?_) _
  extract_lets l
  split
  · exact hc
  · refine Chip.canonical.forL (hc.modSlot n _) (fun c a hc => ?_) _
    split
    · split
      · exact hc.agreeFrame _ _ _ _ _ _ _
      · exact hc
    · exact hc

@[simp] theorem Chip.canonical.frameBegin (hc : c.canonical) (n key : Nat) : (c.frameBegin n key).1.canonical := by
  simp only [Chip.frameBegin]
  (repeat' split) <;> simp +contextual (maxDischargeDepth := 60) [hc]

@[simp] theorem Chip.canonical.captureStamp (hc : c.canonical) (n : Nat) (arrival : Stamp) (sup : Option Stamp) :
    (c.captureStamp n arrival sup).1.canonical := by
  unfold Chip.captureStamp
  (repeat' split) <;> simp +contextual (maxDischargeDepth := 60) [hc]

@[simp] theorem Chip.canonical.picFinish (hc : c.canonical) (n i : Nat) (p : Pic) (code cause : Nat) (arrival : Stamp)
    (sup : Option Stamp) (missing : Nat) :
    (c.picFinish n i p code cause arrival sup missing).canonical := by
  simp (maxDischargeDepth := 60) [Chip.picFinish, hc]

@[simp] theorem Chip.canonical.frameFinish (hc : c.canonical) (n i code cause : Nat) (arrival : Stamp) (sup : Option Stamp)
    (missing : Nat) :
    (c.frameFinish n i code cause arrival sup missing).canonical := by
  simp [Chip.frameFinish, hc]

@[simp] theorem Chip.canonical.newConfig (hc : c.canonical) (n : Nat) (enabled : Bool) : (c.newConfig n enabled).canonical := by
  simp (maxDischargeDepth := 60) [Chip.newConfig, hc]

/-! ### Network sources -/

@[simp] theorem Chip.canonical.modNet (hc : c.canonical) (n : Nat) (f : NetSlot → NetSlot) : (c.modNet n f).canonical := by
  simp [Chip.modNet, hc]

@[simp] theorem Chip.canonical.syncHold (hc : c.canonical) : c.syncHold.canonical := by simp [Chip.syncHold, hc]

@[simp] theorem Chip.canonical.checkHigher (hc : c.canonical) : c.checkHigher.canonical := by
  simp (maxDischargeDepth := 60) [Chip.checkHigher, hc]

@[simp] theorem Chip.canonical.noteClaim (hc : c.canonical) (claim : Nat) : (c.noteClaim claim).canonical := by
  simp [Chip.noteClaim, hc]

@[simp] theorem Chip.canonical.setSplit (hc : c.canonical) (on : Bool) : (c.setSplit on).canonical := by
  simp (maxDischargeDepth := 60) [Chip.setSplit, hc]

@[simp] theorem Chip.canonical.syncNetSeen (hc : c.canonical) : c.syncNetSeen.canonical := by
  simp (maxDischargeDepth := 60) [Chip.syncNetSeen, hc]

@[simp] theorem Chip.canonical.storeUnit (hc : c.canonical) (n : Nat) (nals : List (List Byte)) :
    (c.storeUnit n nals).1.canonical := by
  simp only [Chip.storeUnit]
  (repeat' split) <;> simp +contextual (maxDischargeDepth := 60) [hc]

@[simp] theorem Chip.canonical.finishNet (hc : c.canonical) (n ts : Nat) (whole : Bool) : (c.finishNet n ts whole).canonical := by
  simp only [Chip.finishNet]
  (repeat' split) <;> simp +contextual (maxDischargeDepth := 60) [hc]

@[simp] theorem Chip.canonical.joinFrame (hc : c.canonical) (n : Nat) (p : Packet) : (c.joinFrame n p).canonical := by
  simp only [Chip.joinFrame]
  (repeat' split) <;> simp +contextual (maxDischargeDepth := 60) [hc]

@[simp] theorem Chip.canonical.deliver (hc : c.canonical) (n : Nat) (p : Packet) : (c.deliver n p).canonical := by
  unfold Chip.deliver
  extract_lets now c1 finished
  have h1 : c1.canonical := hc.modNet _ _
  clear_value c1
  split
  · exact h1.bump _
  refine Chip.canonical.forL ?_ (fun c f hc => ?_) _
  · dsimp +zetaDelta only
    split
    · exact ((h1.joinFrame n p).modNet n _).forL (fun _ _ hc => hc.dramWrite _ _) _
    · exact (h1.joinFrame n p).modNet n _
  · dsimp only
    split
    · split
      · exact hc.finishNet _ _ _
      · exact hc
    · exact hc

@[simp] theorem Chip.canonical.handleExpired (hc : c.canonical) (h : HeldPacket) : (c.handleExpired h).canonical := by
  simp (maxDischargeDepth := 60) [Chip.handleExpired, hc]

@[simp] theorem Chip.canonical.holdPacket (hc : c.canonical) (n claim : Nat) (p : Packet) : (c.holdPacket n claim p).canonical := by
  unfold Chip.holdPacket
  split <;> simp +contextual (maxDischargeDepth := 60) [hc]

@[simp] theorem Chip.canonical.refreshLead (hc : c.canonical) (n : Nat) : (c.refreshLead n).canonical := by
  simp +contextual (maxDischargeDepth := 60) [Chip.refreshLead, hc]

/-- The part after a sender has been seen, where it has been. -/
theorem Chip.canonical.seeSender (hc : c.canonical) {n claim : Nat} {c' : Chip} (h : c.seeSender n claim = some c') :
    c'.canonical := by
  unfold Chip.seeSender at h
  split at h
  · exact absurd h (by simp)
  · rw [← Option.some.inj h]
    simp (maxDischargeDepth := 60) [hc]

@[simp] theorem Chip.canonical.legSeen (hc : c.canonical) (n leg : Nat) : (c.legSeen n leg).canonical := by
  simp (maxDischargeDepth := 60) [Chip.legSeen, hc]

@[simp] theorem Chip.canonical.rtpReceive (hc : c.canonical) (n leg : Nat) (d : Datagram) : (c.rtpReceive n leg d).canonical := by
  unfold Chip.rtpReceive
  extract_lets l
  split
  · exact hc
  split
  · exact hc.bump _
  split
  · exact ((hc.legSeen n leg).bump _).event _ _ _
  · rename_i c2 h
    have h2 : c2.canonical := (hc.legSeen n leg).seeSender h
    simp (maxDischargeDepth := 60) [h2]

@[simp] theorem Chip.canonical.heartbeatReceive (hc : c.canonical) (n : Nat) (l : List Byte) : (c.heartbeatReceive n l).canonical := by
  unfold Chip.heartbeatReceive
  cases h : c.seeSender n (beAt l 12 4) with
  | none => exact hc
  | some c' => exact hc.seeSender h

@[simp] theorem Chip.canonical.senderReport (hc : c.canonical) (n : Nat) (l : List Byte) : (c.senderReport n l).canonical := by
  simp (maxDischargeDepth := 60) [Chip.senderReport, hc]

@[simp] theorem Chip.canonical.rtcpReceive (hc : c.canonical) (n fuel : Nat) (l : List Byte) :
    (Chip.rtcpReceive n fuel l c).canonical := by
  induction fuel generalizing c l with
  | zero => exact hc
  | succ fuel ih =>
    unfold Chip.rtcpReceive
    split
    · exact hc
    · exact ih (by simp (maxDischargeDepth := 60) [hc]) _

@[simp] theorem Chip.canonical.flowReceive (hc : c.canonical) (f : Nat) (d : Datagram) : (c.flowReceive f d).canonical := by
  simp (maxDischargeDepth := 60) [Chip.flowReceive, hc]

@[simp] theorem Chip.canonical.joinGroups (hc : c.canonical) (p sub : Nat) (only : Option (Bool × Option Nat)) :
    (c.joinGroups p sub only).canonical := by
  simp +contextual (maxDischargeDepth := 60) [Chip.joinGroups, hc]

@[simp] theorem Chip.canonical.baseReceive (hc : c.canonical) (p sub : Nat) (r : BaseReq) : (c.baseReceive p sub r).canonical := by
  unfold Chip.baseReceive
  (repeat' split) <;> simp +contextual (maxDischargeDepth := 60) [hc]

@[simp] theorem Chip.canonical.mgtFrame (hc : c.canonical) (fr : EthFrame) : (c.mgtFrame fr).canonical := by
  unfold Chip.mgtFrame
  (repeat' split) <;> simp +contextual (maxDischargeDepth := 60) [hc]

/-! ### The twin -/

@[simp] theorem Chip.canonical.takeover (hc : c.canonical) : c.takeover.canonical := by
  simp (maxDischargeDepth := 60) [Chip.takeover, hc]

@[simp] theorem Chip.canonical.demote (hc : c.canonical) : c.demote.canonical := by simp (maxDischargeDepth := 60) [Chip.demote, hc]

@[simp] theorem Chip.canonical.applyClaim (hc : c.canonical) : c.applyClaim.canonical := by
  unfold Chip.applyClaim
  split <;> simp +contextual (maxDischargeDepth := 60) [hc]

@[simp] theorem Chip.canonical.sendResync (hc : c.canonical) (since : Option Stamp) : (c.sendResync since).canonical := by
  simp +contextual (maxDischargeDepth := 60) [Chip.sendResync, hc]

@[simp] theorem Chip.canonical.resyncDone (hc : c.canonical) : c.resyncDone.canonical := by
  simp (maxDischargeDepth := 60) [Chip.resyncDone, hc]

@[simp] theorem Chip.canonical.setPair (hc : c.canonical) (new : Nat) : (c.setPair new).canonical := by
  simp (maxDischargeDepth := 60) [Chip.setPair, hc]

@[simp] theorem Chip.canonical.evalPair (hc : c.canonical) : c.evalPair.canonical := by
  simp (maxDischargeDepth := 60) [Chip.evalPair, hc]

@[simp] theorem Chip.canonical.checkYield (hc : c.canonical) : c.checkYield.canonical := by
  simp (maxDischargeDepth := 60) [Chip.checkYield, hc]

@[simp] theorem Chip.canonical.recordEntry (hc : c.canonical) (e : List Byte) : (c.recordEntry e).canonical := by
  simp only [Chip.recordEntry]
  refine Chip.canonical_ite hc (Chip.canonical_ite ?_ hc)
  exact (((hc.dramWrite _ _).bump _).withTwn _).journal _ _ _ _

@[simp] theorem Chip.canonical.twinCommand (hc : c.canonical) (src : Source) (cmd : Nat) : (c.twinCommand src cmd).canonical := by
  simp (maxDischargeDepth := 60) [Chip.twinCommand, hc]

/-! ### Composition -/

@[simp] theorem Chip.canonical.modElemState (hc : c.canonical) (e : Nat) (f : ElemState → ElemState) :
    (c.modElemState e f).canonical := by
  simp [Chip.modElemState, hc]

@[simp] theorem Chip.canonical.modHead (hc : c.canonical) (h : Nat) (f : Head → Head) : (c.modHead h f).canonical := by
  simp [Chip.modHead, hc]

@[simp] theorem Chip.canonical.buildMap (hc : c.canonical) (h : Nat) : (c.buildMap h).canonical := by simp [Chip.buildMap, hc]

@[simp] theorem Chip.canonical.putShown (hc : c.canonical) (h e : Nat) (x : Option (Nat × Nat × Bool)) :
    (c.putShown h e x).canonical := by
  simp [Chip.putShown, hc]

@[simp] theorem Chip.canonical.syncAudit (hc : c.canonical) (h : Nat) : (c.syncAudit h).canonical := by simp [Chip.syncAudit, hc]

@[simp] theorem Chip.canonical.composeRows (hc : c.canonical) (h n : Nat) : (c.composeRows h n).canonical := by
  simp [Chip.composeRows, hc]

@[simp] theorem Chip.canonical.recompose (hc : c.canonical) (h : Nat) : (c.recompose h).canonical := by simp [Chip.recompose, hc]

/-! ### Commits -/

@[simp] theorem Chip.canonical.takeElem (hc : c.canonical) (h e : Nat) : (c.takeElem h e).canonical := by
  simp (maxDischargeDepth := 60) [Chip.takeElem, hc]

@[simp] theorem Chip.canonical.takeShadow (hc : c.canonical) (h : Nat) : (c.takeShadow h).canonical := by
  simp +contextual (maxDischargeDepth := 60) [Chip.takeShadow, hc]

@[simp] theorem Chip.canonical.commit (hc : c.canonical) (h : Nat) (f : Stamp) : (c.commit h f).canonical := by
  simp only [Chip.commit]
  (repeat' split) <;> simp +contextual (maxDischargeDepth := 60) [hc]

@[simp] theorem Chip.canonical.pendCommit (hc : c.canonical) (h : Nat) : (c.pendCommit h).canonical := by simp [Chip.pendCommit, hc]

@[simp] theorem Chip.canonical.withdrawCommit (hc : c.canonical) (h : Nat) : (c.withdrawCommit h).canonical := by
  simp [Chip.withdrawCommit, hc]

@[simp] theorem Chip.canonical.takeRequest (hc : c.canonical) (h : Nat) (f : Stamp) : (c.takeRequest h f).canonical := by
  simp (maxDischargeDepth := 60) [Chip.takeRequest, hc]

@[simp] theorem Chip.canonical.commitCommand (hc : c.canonical) (src : Source) (h cmd : Nat) :
    (c.commitCommand src h cmd).canonical := by
  simp (maxDischargeDepth := 60) [Chip.commitCommand, hc]

/-! ### The element states -/

@[simp] theorem Chip.canonical.evalWindow (hc : c.canonical) (h e : Nat) (el : Elem) (f sc : Stamp) :
    (c.evalWindow h e el f sc).1.canonical := by
  unfold Chip.evalWindow
  extract_lets n d es
  split
  · have shown : (c.putShown h e none).canonical := hc.putShown h e none
    split
    · exact shown
    · exact shown.modElemState _ _
  · have shown (x) : (c.putShown h e x).canonical := hc.putShown h e x
    dsimp +zetaDelta only
    split <;> exact (shown _).modElemState _ _

@[simp] theorem Chip.canonical.evalField (hc : c.canonical) (e : Nat) (el : Elem) (sc : Stamp) (bad : Bool) :
    (c.evalField e el sc bad).1.canonical := by
  unfold Chip.evalField
  extract_lets es rec_
  split
  · simp (maxDischargeDepth := 60) [hc]
  split
  · exact hc.modElemState _ _
  · exact hc.modElemState _ _

@[simp] theorem Chip.canonical.evalElem {x : Chip × EvalSum} (hc : x.1.canonical) (h k : Nat) (prev : Option Nat) (f : Stamp)
    (frac : Nat) (bad : List Nat) (e : Nat × Elem) : (Chip.evalElem h k prev f frac bad e x).1.canonical := by
  obtain ⟨c, sum⟩ := x
  obtain ⟨e, el⟩ := e
  unfold Chip.evalElem
  dsimp -zeta only at hc ⊢
  extract_lets es renewed c1 c2 sc cond st age wasOn old c3 c4 c5 sum'
  have h2 : c2.canonical := by simp (maxDischargeDepth := 60) [c2, c1, hc]
  have h3 : c3.canonical := by
    refine Chip.canonical.tbwPut ?_ _ _ _
    split
    · exact h2.evalWindow _ _ _ _ _
    · exact h2.evalField _ _ _ _
    · exact h2
  have h5 : c5.canonical := (h3.tbwPut _ _ _).modElemState _ _
  split
  · exact h5
  · split
    · exact h5.event _ _ _
    · exact h5

@[simp] theorem Chip.canonical.dropDisabled (hc : c.canonical) (h : Nat) : (c.dropDisabled h).canonical := by
  simp [Chip.dropDisabled, hc]

@[simp] theorem Chip.canonical.turnFaults (hc : c.canonical) (h : Nat) (l : List (Nat × Elem)) : (c.turnFaults h l).canonical := by
  simp +contextual (maxDischargeDepth := 60) [Chip.turnFaults, hc]

@[simp] theorem Chip.canonical.recordFaults (hc : c.canonical) (h : Nat) (bad : List Nat) : (c.recordFaults h bad).canonical := by
  simp +contextual (maxDischargeDepth := 60) [Chip.recordFaults, hc]

@[simp] theorem Chip.canonical.evalHead (hc : c.canonical) (h k : Nat) (f : Stamp) (frac : Nat) (bad : List Nat) :
    (c.evalHead h k f frac bad).canonical := by
  have evaluated (l) : (Machine.forL l (Chip.evalElem h k (c.head h).evalK f frac bad) (c, ({} : EvalSum))).1.canonical :=
    Chip.canonical.forL_fst hc (fun _ i hx => hx.evalElem h k _ f frac bad i) l
  unfold Chip.evalHead
  dsimp -zeta only
  extract_lets l c1 c2 c3 c4
  have h3 : c3.canonical := (((evaluated _).modHead _ _).setNat _ _).forN (fun _ _ hc => hc.setNat _ _) _
  have h4 : c4.canonical := (h3.setNat _ _).publish _
  split
  · exact h4
  · exact h4.event _ _ _

@[simp] theorem Chip.canonical.renderField (hc : c.canonical) (h e : Nat) (el : Elem) : (c.renderField h e el).canonical := by
  simp +contextual (maxDischargeDepth := 60) [Chip.renderField, hc]

@[simp] theorem Chip.canonical.renderHead (hc : c.canonical) (h : Nat) (bad : List Nat) : (c.renderHead h bad).canonical := by
  simp +contextual (maxDischargeDepth := 60) [Chip.renderHead, hc]

/-! ### Decoding and encoding -/

@[simp] theorem Chip.canonical.modDec (hc : c.canonical) (x : Nat) (f : DecCtx → DecCtx) : (c.modDec x f).canonical := by
  simp [Chip.modDec, hc]

@[simp] theorem Chip.canonical.putMark (hc : c.canonical) (i : Nat) (m : MarkRec) : (c.putMark i m).canonical := by
  simp [Chip.putMark, hc]

@[simp] theorem Chip.canonical.unmarkAll (hc : c.canonical) (x : Nat) : (c.unmarkAll x).canonical := by
  simp +contextual (maxDischargeDepth := 60) [Chip.unmarkAll, hc]

@[simp] theorem Chip.canonical.followTaint (hc : c.canonical) (x : Nat) : (c.followTaint x).canonical := by
  simp (maxDischargeDepth := 60) [Chip.followTaint, hc]

@[simp] theorem Chip.canonical.takeRef (hc : c.canonical) (x seq : Nat) (refs : List JobRef) :
    (c.takeRef x seq refs).1.canonical := by
  simp only [Chip.takeRef]
  (repeat' split) <;> simp +contextual (maxDischargeDepth := 60) [hc]

@[simp] theorem Chip.canonical.applyMarking (hc : c.canonical) (x : Nat) (keep : List (Int × Nat × Nat)) :
    (c.applyMarking x keep).canonical := by
  refine hc.forL (fun c i hc => ?_) _
  split
  · split <;> exact hc.putMark _ _
  · exact hc

@[simp] theorem Chip.canonical.putRing (hc : c.canonical) (x n : Nat) (w : List Nat) : (c.putRing x n w).canonical := by
  simp [Chip.putRing, hc]

@[simp] theorem Chip.canonical.writeJob (hc : c.canonical) (x : Nat) (u : UnitInfo) (p : ParsedPicture) :
    (c.writeJob x u p).canonical := by
  simp only [Chip.writeJob]
  (repeat' split) <;> simp +contextual (maxDischargeDepth := 60) [hc]

@[simp] theorem Chip.canonical.skipUnit (hc : c.canonical) (x : Nat) : (c.skipUnit x).canonical := by simp [Chip.skipUnit, hc]

@[simp] theorem Chip.canonical.beyond (hc : c.canonical) (x : Nat) (p : StreamParams) : (c.beyond x p).canonical := by
  simp [Chip.beyond, hc]

@[simp] theorem Chip.canonical.takeUnit (hc : c.canonical) (x : Nat) (u : UnitInfo) (p : ParsedPicture) :
    (c.takeUnit x u p).canonical := by
  simp only [Chip.takeUnit]
  (repeat' split) <;> simp +contextual (maxDischargeDepth := 60) [hc]

@[simp] theorem Chip.canonical.modEnc (hc : c.canonical) (x : Nat) (f : EncCtx → EncCtx) : (c.modEnc x f).canonical := by
  simp [Chip.modEnc, hc]

@[simp] theorem Chip.canonical.startDec (hc : c.canonical) (e x : Nat) : (c.startDec e x).canonical := by
  unfold Chip.startDec
  (repeat' split) <;> simp +contextual (maxDischargeDepth := 60) [hc]

@[simp] theorem Chip.canonical.startEnc (hc : c.canonical) (e x : Nat) : (c.startEnc e x).canonical := by
  simp (maxDischargeDepth := 60) [Chip.startEnc, hc]

@[simp] theorem Chip.canonical.modTx (hc : c.canonical) (st : Nat) (f : TxStream → TxStream) : (c.modTx st f).canonical := by
  simp [Chip.modTx, hc]

@[simp] theorem Chip.canonical.checkSeq (hc : c.canonical) (st bucket : Nat) : (c.checkSeq st bucket).canonical := by
  simp only [Chip.checkSeq]
  (repeat' split) <;> simp +contextual (maxDischargeDepth := 60) [hc]

@[simp] theorem Chip.canonical.renumber (hc : c.canonical) (st : Nat) : (c.renumber st).canonical := by
  simp +contextual (maxDischargeDepth := 60) [Chip.renumber, hc]

@[simp] theorem Chip.canonical.sendSeq (hc : c.canonical) (st x : Nat) : (c.sendSeq st x).canonical := by
  simp only [Chip.sendSeq]
  (repeat' split) <;> simp +contextual (maxDischargeDepth := 60) [hc]

@[simp] theorem Chip.canonical.unitReady (hc : c.canonical) (x : Nat) (j : EncJob) (nals : List (List Byte)) :
    (c.unitReady x j nals).canonical := by
  unfold Chip.unitReady
  split <;> simp +contextual (maxDischargeDepth := 60) [hc]

@[simp] theorem Chip.canonical.sendLegs (hc : c.canonical) (st : Nat) (rtcp : Bool) (payload : Nat → List Byte) :
    (c.sendLegs st rtcp payload).canonical := by
  simp +contextual (maxDischargeDepth := 60) [Chip.sendLegs, hc]

@[simp] theorem Chip.canonical.releasePacket (hc : c.canonical) (st : Nat) (a : TxAu) (first : Nat) :
    (c.releasePacket st a first).canonical := by
  simp (maxDischargeDepth := 60) [Chip.releasePacket, hc]

@[simp] theorem Chip.canonical.applySet (hc : c.canonical) (x k : Nat) (s : EncSet) : (c.applySet x k s).canonical := by
  simp (maxDischargeDepth := 60) [Chip.applySet, hc]

@[simp] theorem Chip.canonical.codeBucket (hc : c.canonical) (x k n i : Nat) (twinRuns : Bool) :
    (c.codeBucket x k n i twinRuns).canonical := by
  simp only [Chip.codeBucket]
  (repeat' split) <;> simp +contextual (maxDischargeDepth := 60) [hc]

@[simp] theorem Chip.canonical.encCommand (hc : c.canonical) (src : Source) (x cmd : Nat) : (c.encCommand src x cmd).canonical := by
  simp (maxDischargeDepth := 60) [Chip.encCommand, hc]

@[simp] theorem Chip.canonical.fillRuns (hc : c.canonical) (base n depth : Nat) (l : List (Nat × Nat)) :
    (c.fillRuns base n depth l).canonical := by
  simp +contextual (maxDischargeDepth := 60) [Chip.fillRuns, hc]

@[simp] theorem Chip.canonical.endDec (hc : c.canonical) (e x : Nat) (j : PicJob) (r : JobResult) : (c.endDec e x j r).canonical := by
  unfold Chip.endDec
  extract_lets bad own cause code c1 c2 cap tainted c3 told c4 c5 c6 c7 c8 c9 late c10 start c11 c12
  have h1 : c1.canonical := by
    dsimp only [c1]
    split
    · exact (hc.forL (fun _ _ hc => hc.dramWrite _ _) _).fillRuns _ _ _ _
    · exact hc
  clear_value c1
  have h2 : c2.canonical := by
    dsimp only [c2]
    split
    · exact ((h1.forL (fun _ _ hc => hc.dramWrite _ _) _).fillRuns _ _ _ _).frameFinish _ _ _ _ _ _ _
    · exact h1
  clear_value c2
  have h3 : c3.canonical := by
    dsimp only [c3]
    split
    · exact Chip.canonical_ite (h2.putMark _ _) h2
    · exact h2
  clear_value c3
  have h6 : c6.canonical := ((h3.modDec _ _).bump _).followTaint _
  clear_value c6
  have h7 : c7.canonical := Chip.canonical_ite h6 ((h6.bump _).modDec _ _)
  clear_value c7
  have h8 : c8.canonical := Chip.canonical_ite h7 ((h7.bump _).eventLimited _ _ _ _)
  clear_value c8
  have h9 : c9.canonical := ((h8.setFld _ _ _ _).setWide _ _ _).publish _
  clear_value c9
  have h10 : c10.canonical := Chip.canonical_ite (((h9.bump _).bump _).eventLimited _ _ _ _) h9
  clear_value c10
  have h12 : c12.canonical := ((h10.putRing _ _ _).setFld _ _ _ _).setFld _ _ _ _
  clear_value c12
  exact Chip.canonical_ite (h12.withSaving _) h12

@[simp] theorem Chip.canonical.endEnc (hc : c.canonical) (e x : Nat) (j : EncJob) : (c.endEnc e x j).canonical := by
  simp (maxDischargeDepth := 60) [Chip.endEnc, hc]

/-! ### The protection units -/

@[simp] theorem Chip.canonical.fillRecord (hc : c.canonical) (v : Violation) : (c.fillRecord v).canonical := by
  simp (maxDischargeDepth := 60) [Chip.fillRecord, hc]

@[simp] theorem Chip.canonical.violation (hc : c.canonical) (a : Access) (cause : Nat) : (c.violation a cause).canonical := by
  simp (maxDischargeDepth := 60) [Chip.violation, hc]

@[simp] theorem Chip.canonical.clearRecord (hc : c.canonical) (u : Nat) : (c.clearRecord u).canonical := by
  simp only [Chip.clearRecord]
  (repeat' split) <;> simp +contextual (maxDischargeDepth := 60) [hc]

@[simp] theorem Chip.canonical.check (hc : c.canonical) (a : Access) : (c.check a).1.canonical := by
  simp only [Chip.check]
  (repeat' split) <;> simp +contextual (maxDischargeDepth := 60) [hc]

@[simp] theorem Chip.canonical.checkDram (hc : c.canonical) (a : Access) : (c.checkDram a).1.canonical := by
  simp (maxDischargeDepth := 60) [Chip.checkDram, hc]

@[simp] theorem Chip.canonical.modTxns (hc : c.canonical) (f : Txn → Txn) : (c.modTxns f).canonical := by simp [Chip.modTxns, hc]

@[simp] theorem Chip.canonical.applyRules (hc : c.canonical) (u : Nat) : (c.applyRules u).canonical := by
  simp +contextual (maxDischargeDepth := 60) [Chip.applyRules, hc]

@[simp] theorem Chip.canonical.pruCommand (hc : c.canonical) (src : Source) (u cmd : Nat) : (c.pruCommand src u cmd).canonical := by
  simp (maxDischargeDepth := 60) [Chip.pruCommand, hc]

@[simp] theorem Chip.canonical.applyTagTable (hc : c.canonical) : c.applyTagTable.canonical := by
  have copied (c' : Chip) (l : List (Nat × Byte)) (p : Nat × Byte → Bool) (h : c'.canonical) :
      Chip.canonical { c' with tbw := l.foldl (fun m (e : Nat × Byte) => mapPut tbwDefault m e.1 e.2) (c'.tbw.filter p) } :=
    ⟨h.regs, h.dram, mapWf_foldl l Prod.fst Prod.snd (mapRises_filter p h.tbw), h.curElem⟩
  exact ((((copied c _ _ hc).setFld _ _ _ _).setFld _ _ _ _).modTxns _).setFld _ _ _ _

@[simp] theorem Chip.canonical.tagCommand (hc : c.canonical) (src : Source) (cmd : Nat) : (c.tagCommand src cmd).canonical := by
  simp (maxDischargeDepth := 60) [Chip.tagCommand, hc]

@[simp] theorem Chip.canonical.writeTags (hc : c.canonical) (o : Nat) (l : List Byte) : (c.writeTags o l).canonical := by
  simp [Chip.writeTags, hc]

/-! ### The memory -/

@[simp] theorem Chip.canonical.regulate (hc : c.canonical) (g : Nat) : (c.regulate g).1.canonical := by
  simp only [Chip.regulate]
  (repeat' split) <;> simp +contextual (maxDischargeDepth := 60) [hc]

@[simp] theorem Chip.canonical.modChan (hc : c.canonical) (n : Nat) (f : Chan → Chan) : (c.modChan n f).canonical := by
  simp (maxDischargeDepth := 60) [Chip.modChan, hc]

@[simp] theorem Chip.canonical.openRow (hc : c.canonical) (n : Nat) (x : Txn) : (c.openRow n x).canonical := by
  simp [Chip.openRow, hc]

@[simp] theorem Chip.canonical.serveWrite (hc : c.canonical) (n : Nat) : (c.serveWrite n).canonical := by
  unfold Chip.serveWrite
  split <;> simp +contextual (maxDischargeDepth := 60) [hc]

@[simp] theorem Chip.canonical.turnBus (hc : c.canonical) (n : Nat) : (c.turnBus n).canonical := by
  simp +contextual (maxDischargeDepth := 60) [Chip.turnBus, hc]

@[simp] theorem Chip.canonical.eccRead (hc : c.canonical) (n ofs ecc : Nat) : (c.eccRead n ofs ecc).canonical := by
  simp (maxDischargeDepth := 60) [Chip.eccRead, hc]

@[simp] theorem Chip.canonical.accept (hc : c.canonical) (n : Nat) (x : Txn) : (c.accept n x).canonical := by
  simp (maxDischargeDepth := 60) [Chip.accept, hc]

@[simp] theorem Chip.canonical.admitOne (hc : c.canonical) : c.admitOne.canonical := by
  unfold Chip.admitOne
  split <;> simp +contextual (maxDischargeDepth := 60) [hc]

@[simp] theorem Chip.canonical.admitWaiting (hc : c.canonical) : c.admitWaiting.canonical := by
  simp +contextual (maxDischargeDepth := 60) [Chip.admitWaiting, hc]

@[simp] theorem Chip.canonical.reconsider (hc : c.canonical) : c.reconsider.canonical := by
  simp +contextual (maxDischargeDepth := 60) [Chip.reconsider, hc]

@[simp] theorem Chip.canonical.enterDram (hc : c.canonical) (x : Txn) : (c.enterDram x).canonical := by
  unfold Chip.enterDram
  extract_lets a ofs
  split
  · exact (hc.event _ _ _).send _
  · split
    rename_i regulated
    exact (((hc.regulate _).of_fst_eq regulated).withMem _).admitWaiting

@[simp] theorem Chip.canonical.faulted (hc : c.canonical) (a : Access) : (c.faulted a).canonical := by simp [Chip.faulted, hc]

@[simp] theorem Chip.canonical.enterEngine (hc : c.canonical) (a : Access) : (c.enterEngine a).canonical := by
  simp (maxDischargeDepth := 60) [Chip.enterEngine, hc]

@[simp] theorem Chip.canonical.endHold (hc : c.canonical) : c.endHold.canonical := by
  simp only [Chip.endHold]
  refine Chip.canonical.forL (Chip.canonical.forN (hc.withMem _) (fun c g hc => ?_) _) (fun c e hc => ?_) _
  · split
    · exact hc.bumpBy _ _
    · exact hc
  · exact Chip.canonical_ite (hc.enterDram _) (hc.enterEngine _)

@[simp] theorem Chip.canonical.setPanic (hc : c.canonical) (p : PanicPort) (on : Bool) : (c.setPanic p on).canonical := by
  simp (maxDischargeDepth := 60) [Chip.setPanic, hc]

@[simp] theorem Chip.canonical.fillPanic (hc : c.canonical) (p : PanicPort) (fill pct : Nat) :
    (c.fillPanic p fill pct).canonical := by
  simp (maxDischargeDepth := 60) [Chip.fillPanic, hc]

@[simp] theorem Chip.canonical.requestDram (hc : c.canonical) (a : Access) : (c.requestDram a).canonical := by
  simp (maxDischargeDepth := 60) [Chip.requestDram, hc]

@[simp] theorem Chip.canonical.helperWrites (hc : c.canonical) (n : Nat) : (c.helperWrites n).canonical := by
  simp +contextual (maxDischargeDepth := 60) [Chip.helperWrites, hc]

@[simp] theorem Chip.canonical.helperResult (hc : c.canonical) (n : Nat) (errors : List Nat) :
    (c.helperResult n errors).canonical := by
  simp +contextual (maxDischargeDepth := 60) [Chip.helperResult, hc]

@[simp] theorem Chip.canonical.trainCommand (hc : c.canonical) (src : Source) (n cmd : Nat) (data : Word) (errors : List Nat) :
    (c.trainCommand src n cmd data errors).canonical := by
  simp (maxDischargeDepth := 60) [Chip.trainCommand, hc]

@[simp] theorem Chip.canonical.trainByRow (hc : c.canonical) (src : Source) (n cmd : Nat) (errors : List Nat) :
    (c.trainByRow src n cmd errors).canonical := by
  simp [Chip.trainByRow, hc]

/-! ### Cameras and capture -/

@[simp] theorem Chip.canonical.modCam (hc : c.canonical) (p : Nat) (f : Cam → Cam) : (c.modCam p f).canonical := by
  simp [Chip.modCam, hc]

@[simp] theorem Chip.canonical.modFrame (hc : c.canonical) (p : Nat) (f : CamFrame → CamFrame) : (c.modFrame p f).canonical := by
  simp [Chip.modFrame, hc]

@[simp] theorem Chip.canonical.firstBundle (hc : c.canonical) (p : Nat) : (c.firstBundle p).canonical := by
  simp [Chip.firstBundle, hc]

@[simp] theorem Chip.canonical.takeBundle (hc : c.canonical) (p : Nat) : (c.takeBundle p).canonical := by
  simp only [Chip.takeBundle]
  (repeat' split) <;> simp +contextual (maxDischargeDepth := 60) [hc]

@[simp] theorem Chip.canonical.decideBundle (hc : c.canonical) (p : Nat) (data : Option (List Byte)) :
    (c.decideBundle p data).canonical := by
  unfold Chip.decideBundle
  (repeat' split) <;> simp +contextual (maxDischargeDepth := 60) [hc]

@[simp] theorem Chip.canonical.endCamFrame (hc : c.canonical) (p : Nat) (fe : Bool) : (c.endCamFrame p fe).canonical := by
  have counted (c : Chip) (hc : c.canonical) (code a b d e f : Nat) : (match code with
      | 3 => c.bump a | 4 => c.bump b | 5 => c.bump d | 6 => c.bump e | _ => if fe then c else c.bump f).canonical := by
    split <;> simp [hc]
  unfold Chip.endCamFrame
  cases (c.cam p).frame with
  | none => exact hc
  | some f =>
    dsimp -zeta only
    extract_lets c1 f' lines height cause code flag g cap c2 c3 c4 c5 c6 c7
    have h1 : c1.canonical := Chip.canonical_ite hc (hc.decideBundle _ _)
    clear_value c1
    have h4 : c4.canonical := ((h1.dramWrite _ _).modCam _ _).bump _
    clear_value c4
    have h5 : c5.canonical := counted _ h4 _ _ _ _ _ _
    clear_value c5
    have h7 : c7.canonical := (((h5.setNat _ _).setNat _ _).setWide _ _ _).publish _
    clear_value c7
    exact Chip.canonical_ite (h7.eventLimited _ _ _ _) (Chip.canonical_ite (h7.eventLimited _ _ _ _) h7)

@[simp] theorem Chip.canonical.beginCamFrame (hc : c.canonical) (p : Nat) : (c.beginCamFrame p).canonical := by
  simp (maxDischargeDepth := 60) [Chip.beginCamFrame, hc]

@[simp] theorem Chip.canonical.beginOutputs (hc : c.canonical) (p : Nat) : (c.beginOutputs p).canonical := by
  refine hc.forN (fun c o hc => ?_) _
  dsimp only
  split
  · refine Chip.canonical.modFrame ?_ _ _
    split
    · exact hc.frameBegin _ _
    · exact hc
  · exact hc

@[simp] theorem Chip.canonical.finishOutput (hc : c.canonical) (p o n i : Nat) (f : CamFrame) :
    (c.finishOutput p o n i f).canonical := by
  simp [Chip.finishOutput, hc]

@[simp] theorem Chip.canonical.lateFlag (hc : c.canonical) (p n fate : Nat) : (c.lateFlag p n fate).canonical := by
  simp [Chip.lateFlag, hc]

@[simp] theorem Chip.canonical.stopWrites (hc : c.canonical) (p num done fate : Nat) :
    (c.stopWrites p num done fate).canonical := by
  simp only [Chip.stopWrites]
  (repeat' split) <;> simp +contextual (maxDischargeDepth := 60) [hc]

@[simp] theorem Chip.canonical.sendWrites (hc : c.canonical) (p num done : Nat) : (c.sendWrites p num done).canonical := by
  unfold Chip.sendWrites
  split <;> simp +contextual (maxDischargeDepth := 60) [hc]

@[simp] theorem Chip.canonical.modCap (hc : c.canonical) (q : Nat) (f : Cap → Cap) : (c.modCap q f).canonical := by
  simp [Chip.modCap, hc]

@[simp] theorem Chip.canonical.endCapture (hc : c.canonical) (q : Nat) : (c.endCapture q).canonical := by
  unfold Chip.endCapture
  (repeat' split) <;> simp +contextual (maxDischargeDepth := 60) [hc]

/-! ### Touch -/

@[simp] theorem Chip.canonical.modTch (hc : c.canonical) (h : Nat) (f : TouchCh → TouchCh) : (c.modTch h f).canonical := by
  simp [Chip.modTch, hc]

@[simp] theorem Chip.canonical.filterNoise (hc : c.canonical) (h : Nat) (d : ScanData) : (c.filterNoise h d).canonical := by
  simp +contextual (maxDischargeDepth := 60) [Chip.filterNoise, hc]

@[simp] theorem Chip.canonical.judgeHop (hc : c.canonical) (h : Nat) : (c.judgeHop h).canonical := by
  unfold Chip.judgeHop
  split <;> simp +contextual (maxDischargeDepth := 60) [hc]

@[simp] theorem Chip.canonical.judgeNoise (hc : c.canonical) (h : Nat) : (c.judgeNoise h).canonical := by simp [Chip.judgeNoise, hc]

@[simp] theorem Chip.canonical.sendReport (hc : c.canonical) (r : TouchReport) : (c.sendReport r).canonical := by
  simp [Chip.sendReport, hc]

@[simp] theorem Chip.canonical.report (hc : c.canonical) (h k : Nat) (start : Stamp) (flags : Nat)
    (entries : List (List Byte)) (objects : List (List Byte)) (further : Nat) :
    (c.report h k start flags entries objects further).canonical := by
  simp [Chip.report, hc]

@[simp] theorem Chip.canonical.calibrateFrame (hc : c.canonical) (h : Nat) (raw : List (Nat × Nat)) :
    (c.calibrateFrame h raw).canonical := by
  simp [Chip.calibrateFrame, hc]

@[simp] theorem Chip.canonical.trackBases (hc : c.canonical) (h : Nat) (raw : List (Nat × Nat)) :
    (c.trackBases h raw).canonical := by
  simp [Chip.trackBases, hc]

@[simp] theorem Chip.canonical.fastRecal (hc : c.canonical) (h : Nat) (start : Stamp) (raw : List (Nat × Nat))
    (sig : List (Nat × Int)) :
    (c.fastRecal h start raw sig).1.canonical := by
  simp only [Chip.fastRecal]
  (repeat' split) <;> simp +contextual (maxDischargeDepth := 60) [hc]

@[simp] theorem Chip.canonical.scanFrame (hc : c.canonical) (h k : Nat) (start : Stamp) (raw : List (Nat × Nat)) :
    (c.scanFrame h k start raw).canonical := by
  simp (maxDischargeDepth := 60) [Chip.scanFrame, hc]

@[simp] theorem Chip.canonical.startCalibration (hc : c.canonical) (h : Nat) (initial : Bool) :
    (c.startCalibration h initial).canonical := by
  simp [Chip.startCalibration, hc]

@[simp] theorem Chip.canonical.startTest (hc : c.canonical) (h : Nat) : (c.startTest h).canonical := by
  simp (maxDischargeDepth := 60) [Chip.startTest, hc]

@[simp] theorem Chip.canonical.touchCommand (hc : c.canonical) (src : Source) (h cmd : Nat) :
    (c.touchCommand src h cmd).canonical := by
  simp (maxDischargeDepth := 60) [Chip.touchCommand, hc]

/-! ### The event journal -/

@[simp] theorem Chip.canonical.syncAlert (hc : c.canonical) : c.syncAlert.canonical := by
  simp (maxDischargeDepth := 60) [Chip.syncAlert, hc]

@[simp] theorem Chip.canonical.assertFault (hc : c.canonical) : c.assertFault.canonical := by
  simp (maxDischargeDepth := 60) [Chip.assertFault, hc]

@[simp] theorem Chip.canonical.ackWrite (hc : c.canonical) (seq : Nat) : (c.ackWrite seq).canonical := (hc.setNat _ _).syncAlert

@[simp] theorem Chip.canonical.syslog (hc : c.canonical) (rec_ : List Byte) : (c.syslog rec_).canonical := by
  simp +contextual (maxDischargeDepth := 60) [Chip.syslog, hc]

@[simp] theorem Chip.canonical.storeRecord (hc : c.canonical) (seq : Nat) (rec_ : List Byte) :
    (c.storeRecord seq rec_).canonical := by
  simp (maxDischargeDepth := 60) [Chip.storeRecord, hc]

@[simp] theorem Chip.canonical.clearNoTime (hc : c.canonical) (tap : Stamp) : (c.clearNoTime tap).canonical := by
  unfold Chip.clearNoTime
  split <;> simp +contextual (maxDischargeDepth := 60) [hc]

@[simp] theorem Chip.canonical.writeRecord (hc : c.canonical) (tap : Stamp) (e : Ev) (code sev : Nat) (acted : Bool)
    (content : List Byte) :
    (c.writeRecord tap e code sev acted content).canonical := by
  simp (maxDischargeDepth := 60) [Chip.writeRecord, hc]

@[simp] theorem Chip.canonical.writeRest (hc : c.canonical) (tap : Stamp) (e : Ev) (sev n : Nat) (l : List Byte) :
    (Chip.writeRest tap e sev n l c).canonical := by
  induction n generalizing c l with
  | zero => exact hc
  | succ n ih =>
    unfold Chip.writeRest
    split
    · exact hc
    · exact ih (hc.writeRecord _ _ _ _ _ _) _

@[simp] theorem Chip.canonical.recordEvent (hc : c.canonical) (tap : Stamp) (e : Ev) : (c.recordEvent tap e).canonical := by
  simp (maxDischargeDepth := 60) [Chip.recordEvent, hc]

@[simp] theorem Chip.canonical.tellDropped (hc : c.canonical) : c.tellDropped.canonical := by
  unfold Chip.tellDropped
  split <;> simp +contextual (maxDischargeDepth := 60) [hc]

@[simp] theorem Chip.canonical.openRing (hc : c.canonical) : c.openRing.canonical := by
  simp +contextual (maxDischargeDepth := 60) [Chip.openRing, hc]

/-! ### Transmit ports -/

@[simp] theorem Chip.canonical.modPort (hc : c.canonical) (p : Nat) (f : DpPort → DpPort) : (c.modPort p f).canonical := by
  simp [Chip.modPort, hc]

@[simp] theorem Chip.canonical.setDp (hc : c.canonical) (p st : Nat) : (c.setDp p st).canonical := by simp [Chip.setDp, hc]

@[simp] theorem Chip.canonical.setCarried (hc : c.canonical) (p st h new cause : Nat) :
    (c.setCarried p st h new cause).canonical := by
  simp (maxDischargeDepth := 60) [Chip.setCarried, hc]

@[simp] theorem Chip.canonical.sideband (hc : c.canonical) (p st : Nat) (req : Sideband) : (c.sideband p st req).canonical := by
  simp [Chip.sideband, hc]

@[simp] theorem Chip.canonical.payload (hc : c.canonical) (p st : Nat) : (c.payload p st).canonical := by
  simp (maxDischargeDepth := 60) [Chip.payload, hc]

@[simp] theorem Chip.canonical.enumerate (hc : c.canonical) (p : Nat) : (c.enumerate p).canonical := by
  simp only [Chip.enumerate]
  (repeat' split) <;> simp +contextual (maxDischargeDepth := 60) [hc]

@[simp] theorem Chip.canonical.allocate (hc : c.canonical) (p : Nat) : (c.allocate p).canonical := by
  unfold Chip.allocate
  dsimp only
  refine Chip.canonical_ite (Chip.canonical.forN_fst (x := (c, c.portRoom p)) hc (fun a st ha => ?_) _) hc
  split
  · exact ha.setFld _ _ _ _
  · split
    · exact ha.setCarried _ _ _ _ _
    · split
      · exact ha.setCarried _ _ _ _ _
      · exact Chip.canonical_ite ha ((ha.setCarried _ _ _ _ _).payload _ _)

@[simp] theorem Chip.canonical.stopStreams (hc : c.canonical) (p : Nat) : (c.stopStreams p).canonical := by
  refine hc.forN (fun c st hc => ?_) _
  split
  · exact hc
  · split
    · exact hc.setCarried _ _ _ _ _
    · exact hc.setFld _ _ _ _

@[simp] theorem Chip.canonical.startHead (hc : c.canonical) (h : Nat) : (c.startHead h).canonical := by
  simp (maxDischargeDepth := 60) [Chip.startHead, hc]

@[simp] theorem Chip.canonical.dropStream (hc : c.canonical) (h : Nat) : (c.dropStream h).canonical := by
  simp (maxDischargeDepth := 60) [Chip.dropStream, hc]

@[simp] theorem Chip.canonical.headEnable (hc : c.canonical) (h : Nat) (data : Word) : (c.headEnable h data).canonical := by
  simp (maxDischargeDepth := 60) [Chip.headEnable, hc]

@[simp] theorem Chip.canonical.storeEdid (hc : c.canonical) (p : Nat) (edid : List (Nat × List Byte)) :
    (c.storeEdid p edid).canonical := by
  simp +contextual (maxDischargeDepth := 60) [Chip.storeEdid, hc]

@[simp] theorem Chip.canonical.dpLost (hc : c.canonical) (p st cause : Nat) : (c.dpLost p st cause).canonical := by
  simp (maxDischargeDepth := 60) [Chip.dpLost, hc]

@[simp] theorem Chip.canonical.portCommand (hc : c.canonical) (src : Source) (p cmd : Nat) :
    (c.portCommand src p cmd).canonical := by
  simp (maxDischargeDepth := 60) [Chip.portCommand, hc]

/-! ### Pegs -/

@[simp] theorem Chip.canonical.modPeg (hc : c.canonical) (f : PegEngine → PegEngine) : (c.modPeg f).canonical := by
  simp [Chip.modPeg, hc]

@[simp] theorem Chip.canonical.syncPegs (hc : c.canonical) (q : Nat) : (c.syncPegs q).canonical := by
  simp (maxDischargeDepth := 60) [Chip.syncPegs, hc]

@[simp] theorem Chip.canonical.viewPeg (hc : c.canonical) (p : Peg) (st b : Nat) : (c.viewPeg p st b).canonical := by
  simp [Chip.viewPeg, hc]

@[simp] theorem Chip.canonical.freePeg (hc : c.canonical) (p : Peg) (st b : Nat) : (c.freePeg p st b).canonical := by
  simp (maxDischargeDepth := 60) [Chip.freePeg, hc]

@[simp] theorem Chip.canonical.changeLost (hc : c.canonical) (x : Change) (cause : Nat) : (c.changeLost x cause).canonical := by
  simp (maxDischargeDepth := 60) [Chip.changeLost, hc]

@[simp] theorem Chip.canonical.changeFate (hc : c.canonical) (p : Peg) (cause : Nat) : (c.changeFate p cause).canonical := by
  unfold Chip.changeFate
  split <;> simp +contextual (maxDischargeDepth := 60) [hc]

@[simp] theorem Chip.canonical.changeExecuted (hc : c.canonical) (p : Peg) : (c.changeExecuted p).canonical := by
  simp [Chip.changeExecuted, hc]

@[simp] theorem Chip.canonical.expirePeg (hc : c.canonical) (p : Peg) : (c.expirePeg p).canonical := by
  simp (maxDischargeDepth := 60) [Chip.expirePeg, hc]

@[simp] theorem Chip.canonical.addPeg (hc : c.canonical) (p : Peg) : (c.addPeg p).canonical := by
  simp (maxDischargeDepth := 60) [Chip.addPeg, hc]

@[simp] theorem Chip.canonical.stagerResult (hc : c.canonical) (sg op ok cause group count index : Nat) :
    (c.stagerResult sg op ok cause group count index).canonical := by
  simp (maxDischargeDepth := 60) [Chip.stagerResult, hc]

@[simp] theorem Chip.canonical.cancelGroup (hc : c.canonical) (sg group : Nat) : (c.cancelGroup sg group).canonical := by
  simp +contextual (maxDischargeDepth := 60) [Chip.cancelGroup, hc]

@[simp] theorem Chip.canonical.fwCancels (hc : c.canonical) : c.fwCancels.canonical := by
  simp +contextual (maxDischargeDepth := 60) [Chip.fwCancels, hc]

@[simp] theorem Chip.canonical.checkChanges (hc : c.canonical) : c.checkChanges.canonical := by simp [Chip.checkChanges, hc]

@[simp] theorem Chip.canonical.fwResult (hc : c.canonical) (g : FwGroup) (ok cause : Nat) : (c.fwResult g ok cause).canonical := by
  unfold Chip.fwResult
  (repeat' split) <;> simp +contextual (maxDischargeDepth := 60) [hc]

@[simp] theorem Chip.canonical.beginCheck (hc : c.canonical) (sg : Nat) : (c.beginCheck sg).canonical := by
  simp (maxDischargeDepth := 60) [Chip.beginCheck, hc]

@[simp] theorem Chip.canonical.stageEntry (hc : c.canonical) (group i : Nat) (p : PegSpec) :
    (c.stageEntry group i p).canonical := by
  simp +contextual (maxDischargeDepth := 60) [Chip.stageEntry, hc]

@[simp] theorem Chip.canonical.stageGroup (hc : c.canonical) (g : FwGroup) : (c.stageGroup g).canonical := by
  simp +contextual (maxDischargeDepth := 60) [Chip.stageGroup, hc]

@[simp] theorem Chip.canonical.startGroups (hc : c.canonical) (n : Nat) : (Chip.startGroups n c).canonical := by
  induction n generalizing c with
  | zero => exact hc
  | succ n ih =>
    unfold Chip.startGroups
    split
    · split
      · exact hc
      · exact ih ((hc.modPeg _).stageGroup _)
    · exact hc

@[simp] theorem Chip.canonical.fwStart (hc : c.canonical) : c.fwStart.canonical := by
  simp (maxDischargeDepth := 60) [Chip.fwStart, hc]

@[simp] theorem Chip.canonical.fwSubmit (hc : c.canonical) (g : FwGroup) : (c.fwSubmit g).canonical := by simp [Chip.fwSubmit, hc]

@[simp] theorem Chip.canonical.stagerCommand (hc : c.canonical) (src : Source) (sg cmd group : Nat) :
    (c.stagerCommand src sg cmd group).canonical := by
  simp (maxDischargeDepth := 60) [Chip.stagerCommand, hc]

@[simp] theorem Chip.canonical.cancelAll (hc : c.canonical) : c.cancelAll.canonical := by
  simp +contextual (maxDischargeDepth := 60) [Chip.cancelAll, hc]

/-! ### Layouts, presets and gestures -/

@[simp] theorem Chip.canonical.writeLayout (hc : c.canonical) (y : LayoutData) : (c.writeLayout y).canonical := by
  simp +contextual (maxDischargeDepth := 60) [Chip.writeLayout, hc]

@[simp] theorem Chip.canonical.pitAccept (hc : c.canonical) : c.pitAccept.canonical := by simp [Chip.pitAccept, hc]

@[simp] theorem Chip.canonical.doRecall (hc : c.canonical) (b : List Byte) (t : Stamp) : (c.doRecall b t).canonical := by
  simp (maxDischargeDepth := 60) [Chip.doRecall, hc]

@[simp] theorem Chip.canonical.doPreset (hc : c.canonical) (b : List Byte) (t : Stamp) : (c.doPreset b t).canonical := by
  simp [Chip.doPreset, hc]

@[simp] theorem Chip.canonical.pitCommand (hc : c.canonical) (src : Source) (cmd n : Nat) (t : Stamp) :
    (c.pitCommand src cmd n t).canonical := by
  simp only [Chip.pitCommand]
  (repeat' split) <;> simp +contextual (maxDischargeDepth := 60) [hc]

@[simp] theorem Chip.canonical.doPolicy (hc : c.canonical) (a : PolicyAct) : (c.doPolicy a).canonical := by
  unfold Chip.doPolicy
  (repeat' split) <;> simp +contextual (maxDischargeDepth := 60) [hc]

@[simp] theorem Chip.canonical.fwStore (hc : c.canonical) (a : Nat) (l : List Byte) : (c.fwStore a l).canonical := by
  simp +contextual (maxDischargeDepth := 60) [Chip.fwStore, hc]

@[simp] theorem Chip.canonical.gestureAct (hc : c.canonical) (h gesture x y : Nat) : (c.gestureAct h gesture x y).canonical := by
  unfold Chip.gestureAct
  split <;> simp +contextual (maxDischargeDepth := 60) [hc]

@[simp] theorem Chip.canonical.gestureEntry (hc : c.canonical) (h : Nat) (start : Stamp) (e : List Byte) :
    (c.gestureEntry h start e).canonical := by
  simp only [Chip.gestureEntry]
  (repeat' split) <;> simp +contextual (maxDischargeDepth := 60) [hc]

@[simp] theorem Chip.canonical.pointerIdle (hc : c.canonical) (h : Nat) : (c.pointerIdle h).canonical := by
  simp (maxDischargeDepth := 60) [Chip.pointerIdle, hc]

@[simp] theorem Chip.canonical.pointerHandler (hc : c.canonical) (h : Nat) (entries : List (List Byte)) :
    (c.pointerHandler h entries).canonical := by
  unfold Chip.pointerHandler
  (repeat' split) <;> simp +contextual (maxDischargeDepth := 60) [hc]

/-! ### Register writes -/

@[simp] theorem Chip.canonical.latchSpan (hc : c.canonical) (lo hi : Nat) : (c.latchSpan lo hi).canonical := by
  simp [Chip.latchSpan, hc]

@[simp] theorem Chip.canonical.refreshNow (hc : c.canonical) : c.refreshNow.canonical := by
  simp (maxDischargeDepth := 60) [Chip.refreshNow, hc]

@[simp] theorem Chip.canonical.snapAt (hc : c.canonical) (a : Nat) : (c.snapAt a).canonical := by
  unfold Chip.snapAt
  split <;> simp +contextual (maxDischargeDepth := 60) [hc]

@[simp] theorem Chip.canonical.writeTrim (hc : c.canonical) (trim : Bool) (a : Nat) (w : Word) :
    (c.writeTrim trim a w).canonical := by
  unfold Chip.writeTrim
  split <;> simp +contextual (maxDischargeDepth := 60) [hc]

@[simp] theorem Chip.canonical.onRise {f : Chip → Chip} {g : Chip → Chip} (hc : c.canonical)
    (hf : ∀ c : Chip, c.canonical → (f c).canonical) (hg : ∀ c : Chip, c.canonical → (g c).canonical) (a b : Nat) (w : Word) :
    (c.onRise a b w f g).canonical := by
  simp (maxDischargeDepth := 60) [Chip.onRise, hc, hf, hg]

@[simp] theorem Chip.canonical.delayWrite (hc : c.canonical) (k a : Nat) (w : Word) : (c.delayWrite k a w).canonical := by
  simp (maxDischargeDepth := 60) [Chip.delayWrite, hc]

@[simp] theorem Chip.canonical.clockWrite (hc : c.canonical) (p : Nat) (w : Word) : (c.clockWrite p w).canonical := by
  simp (maxDischargeDepth := 60) [Chip.clockWrite, hc]

@[simp] theorem Chip.canonical.slotWrite (hc : c.canonical) (n a : Nat) (w : Word) : (c.slotWrite n a w).canonical := by
  simp (maxDischargeDepth := 60) [Chip.slotWrite, hc]

@[simp] theorem Chip.canonical.driveGpo (hc : c.canonical) (h : Nat) : (c.driveGpo h).canonical := by simp [Chip.driveGpo, hc]

@[simp] theorem Chip.canonical.trainWrite (hc : c.canonical) (src : Source) (trim : Bool) (n a : Nat) (w : Word) :
    (c.trainWrite src trim n a w).canonical := by
  simp (maxDischargeDepth := 60) [Chip.trainWrite, hc]

@[simp] theorem Chip.canonical.pruCtlWrite (hc : c.canonical) (u a : Nat) (w : Word) : (c.pruCtlWrite u a w).canonical := by
  simp (maxDischargeDepth := 60) [Chip.pruCtlWrite, hc]

@[simp] theorem Chip.canonical.regWriteNow (hc : c.canonical) (src : Source) (trim : Bool) (a : Nat) (w : Word) :
    (c.regWriteNow src trim a w).canonical := by
  unfold Chip.regWriteNow
  split <;> simp +contextual (maxDischargeDepth := 60) [hc]

@[simp] theorem Chip.canonical.regWrite (hc : c.canonical) (src : Source) (trim : Bool) (a : Nat) (w : Word) :
    (c.regWrite src trim a w).canonical := by
  simp [Chip.regWrite, hc]

@[simp] theorem Chip.canonical.d2dDeliver (hc : c.canonical) (m : D2dMsg) : (c.d2dDeliver m).canonical := by
  unfold Chip.d2dDeliver
  split <;> simp +contextual (maxDischargeDepth := 60) [hc]

@[simp] theorem Chip.canonical.tagWrite (hc : c.canonical) (o : Nat) (l : List Byte) : (c.tagWrite o l).canonical := by
  simp [Chip.tagWrite, hc]

@[simp] theorem Chip.canonical.tableWrite (hc : c.canonical) (src : Source) (o : Nat) (l : List Byte) :
    (c.tableWrite src o l).canonical := by
  simp (maxDischargeDepth := 60) [Chip.tableWrite, hc]

/-! ### Boundaries -/

@[simp] theorem Chip.canonical.executePeg (hc : c.canonical) (p : Peg) (b : Stamp) : (c.executePeg p b).canonical := by
  simp +contextual (maxDischargeDepth := 60) [Chip.executePeg, hc]

@[simp] theorem Chip.canonical.meetBoundary {x : Chip × Bool} (hc : x.1.canonical) (b : Stamp) (p : Peg) :
    (Chip.meetBoundary b p x).1.canonical := by
  unfold Chip.meetBoundary
  (repeat' split) <;> simp +contextual (maxDischargeDepth := 60) [hc]

@[simp] theorem Chip.canonical.boundaryOf (hc : c.canonical) (sel : Peg → Bool) (q arg : Nat) (b : Stamp) :
    (c.boundaryOf sel q arg b).1.canonical := by
  have met : (Machine.forL (c.duePegs sel q arg b) (Chip.meetBoundary b) (c, false)).1.canonical :=
    Chip.canonical.forL_fst hc (fun _ p h => h.meetBoundary b p) _
  unfold Chip.boundaryOf
  dsimp only
  split
  · exact met.modPeg _
  · exact met

@[simp] theorem Chip.canonical.boundary (hc : c.canonical) (q arg : Nat) (b : Stamp) : (c.boundary q arg b).1.canonical := by
  simp [Chip.boundary, hc]

/-! ### Heads and their scan -/

@[simp] theorem Chip.canonical.headSignal (hc : c.canonical) (h i : Nat) : (c.headSignal h i).canonical := by
  simp (maxDischargeDepth := 60) [Chip.headSignal, hc]

@[simp] theorem Chip.canonical.headCount (hc : c.canonical) (h i n : Nat) : (c.headCount h i n).canonical := by
  simp [Chip.headCount, hc]

@[simp] theorem Chip.canonical.openFrame (hc : c.canonical) (h k : Nat) : (c.openFrame h k).canonical := by
  simp [Chip.openFrame, hc]

@[simp] theorem Chip.canonical.openVideo (hc : c.canonical) (h : Nat) (resumed : Bool) : (c.openVideo h resumed).canonical := by
  simp (maxDischargeDepth := 60) [Chip.openVideo, hc]

@[simp] theorem Chip.canonical.dropSigs (hc : c.canonical) (h k : Nat) : (c.dropSigs h k).canonical := by
  simp +contextual (maxDischargeDepth := 60) [Chip.dropSigs, hc]

@[simp] theorem Chip.canonical.headFrame (hc : c.canonical) (h k : Nat) (bad : List Nat) : (c.headFrame h k bad).canonical := by
  simp only [Chip.headFrame]
  (repeat' split) <;> simp +contextual (maxDischargeDepth := 60) [hc]

@[simp] theorem Chip.canonical.stopHead (hc : c.canonical) (h : Nat) : (c.stopHead h).canonical := by
  simp (maxDischargeDepth := 60) [Chip.stopHead, hc]

@[simp] theorem Chip.canonical.restartHead (hc : c.canonical) (h : Nat) : (c.restartHead h).canonical := by
  simp (maxDischargeDepth := 60) [Chip.restartHead, hc]

@[simp] theorem Chip.canonical.trimRaster (hc : c.canonical) (h : Nat) (drift : Int) : (c.trimRaster h drift).canonical := by
  simp (maxDischargeDepth := 60) [Chip.trimRaster, hc]

@[simp] theorem Chip.canonical.headLead (hc : c.canonical) (h lead : Nat) : (c.headLead h lead).canonical := by
  simp (maxDischargeDepth := 60) [Chip.headLead, hc]

@[simp] theorem Chip.canonical.checkRow (hc : c.canonical) (h : Nat) (l : List (Nat × Elem)) (r : Nat) :
    (c.checkRow h l r).canonical := by
  simp [Chip.checkRow, hc]

@[simp] theorem Chip.canonical.joinUnderrun (hc : c.canonical) (h : Nat) : (c.joinUnderrun h).canonical := by
  simp only [Chip.joinUnderrun]
  (repeat' split) <;> simp +contextual (maxDischargeDepth := 60) [hc]

@[simp] theorem Chip.canonical.underrunEvent (hc : c.canonical) (h : Nat) : (c.underrunEvent h).canonical := by
  simp only [Chip.underrunEvent]
  (repeat' split) <;> simp +contextual (maxDischargeDepth := 60) [hc]

@[simp] theorem Chip.canonical.writeBack (hc : c.canonical) (h y : Nat) (row : List Px) : (c.writeBack h y row).canonical := by
  simp only [Chip.writeBack]
  (repeat' split) <;> simp +contextual (maxDischargeDepth := 60) [hc]

@[simp] theorem Chip.canonical.sendLine (hc : c.canonical) (h n : Nat) (px : List (Nat × Nat × Nat)) :
    (c.sendLine h n px).canonical := by
  simp [Chip.sendLine, hc]

@[simp] theorem Chip.canonical.sendRow (hc : c.canonical) (h y : Nat) : (c.sendRow h y).canonical := by
  simp (maxDischargeDepth := 60) [Chip.sendRow, hc]

@[simp] theorem Chip.canonical.compareLine (hc : c.canonical) (h n i : Nat) : (c.compareLine h n i).canonical := by
  simp [Chip.compareLine, hc]

@[simp] theorem Chip.canonical.endFlyPanic (hc : c.canonical) (h : Nat) : (c.endFlyPanic h).canonical := by
  simp [Chip.endFlyPanic, hc]

@[simp] theorem Chip.canonical.headLine (hc : c.canonical) (h n : Nat) : (Chip.headLine h n c).canonical := by
  simp (maxDischargeDepth := 60) [Chip.headLine, hc]

@[simp] theorem Chip.canonical.headLines (hc : c.canonical) (h n : Nat) : (c.headLines h n).canonical := by
  simp +contextual (maxDischargeDepth := 60) [Chip.headLines, hc]

@[simp] theorem Chip.canonical.regionCompare (hc : c.canonical) (h r which : Nat) (want got : Nat) :
    (c.regionCompare h r which want got).canonical := by
  simp (maxDischargeDepth := 60) [Chip.regionCompare, hc]

@[simp] theorem Chip.canonical.putResult (hc : c.canonical) (h r k crc : Nat) : (c.putResult h r k crc).canonical := by
  simp [Chip.putResult, hc]

@[simp] theorem Chip.canonical.putTwinResult (hc : c.canonical) (h r crc twin : Nat) :
    (c.putTwinResult h r crc twin).canonical := by
  simp (maxDischargeDepth := 60) [Chip.putTwinResult, hc]

@[simp] theorem Chip.canonical.regionResults (hc : c.canonical) (h : Nat) : (c.regionResults h).canonical := by
  unfold Chip.regionResults
  dsimp only
  have compared : ∀ x : Chip × Bool, x.1.canonical → ∀ (r : Nat × Region) (crc : Nat) (k : Nat),
      ((if r.2.exp = true then x.1.regionCompare h r.1 0 r.2.expect crc else x.1).putResult h r.1 k crc).canonical :=
    fun x hx r crc k => (Chip.canonical_ite (hx.regionCompare _ _ _ _ _) hx).putResult _ _ _ _
  split
  · exact Chip.canonical.bump (Chip.canonical.forL_fst (x := (c, false)) hc (fun x r hx => compared x hx r _ _) _) _
  · exact Chip.canonical.forL_fst (x := (c, false)) hc (fun x r hx => compared x hx r _ _) _

@[simp] theorem Chip.canonical.compareSigs (hc : c.canonical) (h : Nat) (own twin : SigEntry) :
    (c.compareSigs h own twin).canonical := by
  unfold Chip.compareSigs
  dsimp -zeta only
  split
  · split
    · exact hc
    · exact hc.bump _
  extract_lets c1 now c2
  have h1 : c1.canonical := Chip.canonical_ite hc ((hc.bump _).eventLimited _ _ _ _)
  have h2 : c2.canonical := by
    have compared : ∀ f : Nat × Bool × Nat → Chip × Bool × Bool → Chip × Bool × Bool,
        (∀ e x, x.1.canonical → (f e x).1.canonical) → (Machine.forL own.regions f (c1, false, false)).1.canonical :=
      fun f hf => Chip.canonical.forL_fst h1 (fun x e hx => hf e x hx) _
    refine Chip.canonical_ite ((compared _ ?_).bump _) (compared _ ?_) <;>
    · intro e x hx
      split
      · split
        · exact hx
        · exact Chip.canonical_ite ((hx.regionCompare _ _ _ _ _).putTwinResult _ _ _ _) (hx.regionCompare _ _ _ _ _)
      · exact hx
  exact Chip.canonical_ite (h2.bump _) h2

@[simp] theorem Chip.canonical.ownSig (hc : c.canonical) (e : SigEntry) : (c.ownSig e).canonical := by
  unfold Chip.ownSig
  split <;> simp +contextual (maxDischargeDepth := 60) [hc]

@[simp] theorem Chip.canonical.twinSig (hc : c.canonical) (e : SigEntry) : (c.twinSig e).canonical := by
  unfold Chip.twinSig
  split <;> simp +contextual (maxDischargeDepth := 60) [hc]

@[simp] theorem Chip.canonical.freeze (hc : c.canonical) (h which : Nat) (last : Option Nat) (run v : Nat) :
    (c.freeze h which last run v).1.canonical := by
  simp only [Chip.freeze]
  (repeat' split) <;> simp +contextual (maxDischargeDepth := 60) [hc]

@[simp] theorem Chip.canonical.finishWriteback (hc : c.canonical) (h wb : Nat) : (c.finishWriteback h wb).canonical := by
  unfold Chip.finishWriteback
  split <;> simp +contextual (maxDischargeDepth := 60) [hc]

@[simp] theorem Chip.canonical.pitchDone (hc : c.canonical) (h : Nat) : (c.pitchDone h).canonical := by
  simp +contextual (maxDischargeDepth := 60) [Chip.pitchDone, hc]

@[simp] theorem Chip.canonical.sendSigx (hc : c.canonical) (h : Nat) (start : Stamp) (sig lsig : Nat) :
    (c.sendSigx h start sig lsig).canonical := by
  simp [Chip.sendSigx, hc]

@[simp] theorem Chip.canonical.headResult (hc : c.canonical) (h : Nat) (f : Stamp) (frac sig lsig : Nat) :
    (c.headResult h f frac sig lsig).canonical := by
  simp (maxDischargeDepth := 60) [Chip.headResult, hc]

/-! ### Accesses -/

@[simp] theorem Chip.canonical.performAccess (hc : c.canonical) (src : Source) (a : Access) :
    (c.performAccess src a).canonical := by
  unfold Chip.performAccess
  split <;> simp +contextual (maxDischargeDepth := 60) [hc]

@[simp] theorem Chip.canonical.doAccess (hc : c.canonical) (src : Source) (a : Access) : (c.doAccess src a).canonical := by
  simp (maxDischargeDepth := 60) [Chip.doAccess, hc]

@[simp] theorem Chip.canonical.pegStands (hc : c.canonical) (t : Stamp) (a : Nat) : (c.pegStands t a).canonical := by
  unfold Chip.pegStands
  split <;> simp +contextual (maxDischargeDepth := 60) [hc]

/-! ### Management -/

@[simp] theorem Chip.canonical.itemWrite (hc : c.canonical) (src : Source) (ofs : Nat) (w : Word) :
    (c.itemWrite src ofs w).1.canonical := by
  have checked (a : Access) : (c.check a).1.canonical := hc.check a
  simp only [Chip.itemWrite]
  split
  · exact hc
  · split
    · exact (checked _).performAccess _ _
    · exact checked _

@[simp] theorem Chip.canonical.itemRead (hc : c.canonical) (ofs : Nat) : (c.itemRead ofs).1.canonical := by
  have checked (a : Access) : (c.check a).1.canonical := hc.check a
  simp only [Chip.itemRead]
  split
  · exact hc
  · split
    · exact checked _
    · split <;> exact checked _

@[simp] theorem Chip.canonical.mgtItems (hc : c.canonical) (m : List Byte) : (c.mgtItems m).1.canonical := by
  unfold Chip.mgtItems
  dsimp only
  split
  · exact Chip.canonical.forN_fst (x := (c, [])) hc (fun x i hx => hx.itemRead (leAt m (24 + 4 * i) 4)) _
  · exact Chip.canonical.forN_fst (x := (c, [])) hc (fun x i hx => hx.itemWrite .mgt (leAt m (24 + 8 * i) 4) _) _
  · exact hc.pitCommand _ _ _ _

@[simp] theorem Chip.canonical.mgtMessage (hc : c.canonical) (op : Nat) (m : List Byte) (saddr sport : Nat) :
    (c.mgtMessage op m saddr sport).canonical := by
  simp (maxDischargeDepth := 60) [Chip.mgtMessage, hc]

@[simp] theorem Chip.canonical.smbus {f : Chip → Chip} (hc : c.canonical) (hf : ∀ c : Chip, c.canonical → (f c).canonical)
    (adr : Nat) (pec : Bool) :
    (c.smbus adr pec f).canonical := by
  simp (maxDischargeDepth := 60) [Chip.smbus, hc, hf]

@[simp] theorem Chip.canonical.crcCheck (hc : c.canonical) : c.crcCheck.canonical := by
  unfold Chip.crcCheck
  split <;> simp +contextual (maxDischargeDepth := 60) [hc]

@[simp] theorem Chip.canonical.limitCheck (hc : c.canonical) (l : Nat × Int × Int) : (Chip.limitCheck l c).canonical := by
  obtain ⟨m, lo, hi⟩ := l
  simp only [Chip.limitCheck]
  split
  · exact (hc.withMgt _).event _ _ _
  · exact (hc.withMgt _).event _ _ _
  · exact hc

/-! ### Ageing -/

@[simp] theorem Chip.canonical.modAge (hc : c.canonical) (f : Ageing → Ageing) : (c.modAge f).canonical := by simp [Chip.modAge, hc]

@[simp] theorem Chip.canonical.noteSecond (hc : c.canonical) (droop : Nat) : (c.noteSecond droop).canonical := by
  simp [Chip.noteSecond, hc]

@[simp] theorem Chip.canonical.belowFloor (hc : c.canonical) (dom unit bit : Nat) (v : Int) :
    (c.belowFloor dom unit bit v).canonical := by
  simp [Chip.belowFloor, hc]

@[simp] theorem Chip.canonical.sweepRuns (hc : c.canonical) (n : Nat) (errors : List Nat) : (c.sweepRuns n errors).canonical := by
  simp (maxDischargeDepth := 60) [Chip.sweepRuns, hc]

@[simp] theorem Chip.canonical.schedule (hc : c.canonical) (x : Change) : (c.schedule x).canonical := by
  unfold Chip.schedule
  split <;> simp +contextual (maxDischargeDepth := 60) [hc]

@[simp] theorem Chip.canonical.incomplete (hc : c.canonical) (dom unit : Nat) : (c.incomplete dom unit).canonical := by
  simp [Chip.incomplete, hc]

@[simp] theorem Chip.canonical.reportDomain (hc : c.canonical) (dom reserve : Nat) (b : Option Ballast) :
    (c.reportDomain dom reserve b).canonical := by
  unfold Chip.reportDomain
  split <;> simp +contextual (maxDischargeDepth := 60) [hc]

@[simp] theorem Chip.canonical.planEvent (hc : c.canonical) (scheduled : Nat) : (c.planEvent scheduled).canonical := by
  simp [Chip.planEvent, hc]

@[simp] theorem Chip.canonical.planNow (hc : c.canonical) : c.planNow.canonical := by
  simp +contextual (maxDischargeDepth := 60) [Chip.planNow, hc]

/-! ### The image -/

@[simp] theorem Chip.canonical.planned (hc : c.canonical) : c.planned.canonical := by
  simp +contextual (maxDischargeDepth := 60) [Chip.planned, hc]

/-! ### Pitch -/

@[simp] theorem Chip.canonical.fresh (_ : c.canonical) (t : Stamp) (p : Pitch) : (c.fresh t p).canonical := by
  unfold Chip.fresh
  extract_lets x y
  have hx : x.canonical := ⟨rfl, rfl, rfl, rfl⟩
  have hy : y.canonical := Chip.canonical_ite (hx.send _) hx
  exact Chip.canonical_ite (hy.send _) hy

@[simp] theorem Chip.canonical.release (hc : c.canonical) (t : Stamp) (cause side : Nat) : (c.release t cause side).canonical := by
  simp (maxDischargeDepth := 60) [Chip.release, hc]

@[simp] theorem Chip.canonical.stepEnd (hc : c.canonical) (i : Nat) : (c.stepEnd i).canonical := by simp [Chip.stepEnd, hc]

@[simp] theorem Chip.canonical.halt (hc : c.canonical) (step fail : Nat) (p : ImgPlace) : (c.halt step fail p).canonical := by
  simp (maxDischargeDepth := 60) [Chip.halt, hc]

@[simp] theorem Chip.canonical.showStep (hc : c.canonical) : c.showStep.canonical := by simp [Chip.showStep, hc]

@[simp] theorem Chip.canonical.useImage (hc : c.canonical) (i : FlashImage) : (c.useImage i).canonical := by
  simp (maxDischargeDepth := 60) [Chip.useImage, hc]

@[simp] theorem Chip.canonical.leaveSlotA (hc : c.canonical) (k : Nat) : (c.leaveSlotA k).canonical := by simp [Chip.leaveSlotA, hc]

@[simp] theorem Chip.canonical.bootB (hc : c.canonical) (b : FlashImage) (cause : Nat) : (c.bootB b cause).canonical := by
  unfold Chip.bootB
  split <;> simp +contextual (maxDischargeDepth := 60) [hc]

@[simp] theorem Chip.canonical.runCheck (hc : c.canonical) (slotB : FlashImage) : (c.runCheck slotB).canonical := by
  unfold Chip.runCheck
  split
  · exact hc
  split
  · exact hc
  split
  · have left : ((c.leaveSlotA (Config.eventCode 0x0107 0)).bootB slotB 6).canonical := (hc.leaveSlotA _).bootB _ _
    dsimp only
    split
    · split
      · exact left.halt _ _ _
      · exact left
    · exact left
  · exact hc.halt _ _ _

@[simp] theorem Chip.canonical.writeHeld (hc : c.canonical) (g : Nat) : (c.writeHeld g).canonical := by
  simp +contextual (maxDischargeDepth := 60) [Chip.writeHeld, hc]

@[simp] theorem Chip.canonical.loadKeys (hc : c.canonical) : c.loadKeys.canonical := by simp [Chip.loadKeys, hc]

@[simp] theorem Chip.canonical.joinAll (hc : c.canonical) : c.joinAll.canonical := by
  simp +contextual (maxDischargeDepth := 60) [Chip.joinAll, hc]

@[simp] theorem Chip.canonical.runApply (hc : c.canonical) : c.runApply.canonical := by
  simp +contextual (maxDischargeDepth := 60) [Chip.runApply, hc]

@[simp] theorem Chip.canonical.trained (hc : c.canonical) (bad : List (Nat × Nat)) (trims : List (Nat × Nat × Word)) :
    (c.trained bad trims).canonical := by
  simp +contextual (maxDischargeDepth := 60) [Chip.trained, hc]

@[simp] theorem Chip.canonical.readerStore {x : Chip × Bool} (hc : x.1.canonical) (a : Nat) (l : List Byte) :
    (Chip.readerStore a l x).1.canonical := by
  refine Chip.canonical.forN_fst hc (fun x i hx => ?_) _
  have checked (a : Access) : (x.1.checkDram a).1.canonical := hx.checkDram a
  dsimp only
  split
  · exact hx
  · split
    · exact (checked _).dramWrite _ _
    · exact checked _

/-- Storing sections of the image through unit 23 (R426). -/
theorem Chip.canonical.readerStores {x : Chip × Bool} (hc : x.1.canonical) {β : Type} (l : List β) (a : β → Nat) (d : β → List Byte) :
    (Machine.forL l (fun s x => Chip.readerStore (a s) (d s) x) x).1.canonical := hc.forL_fst (fun _ _ hx => hx.readerStore _ _) l

@[simp] theorem Chip.canonical.runLoad (hc : c.canonical) : c.runLoad.1.canonical := by
  unfold Chip.runLoad
  dsimp only
  have stored (f : Chip × Bool) (hf : f.1.canonical) :
      (if (f.1.sections 12).isEmpty = true then (f.1, f.2)
        else Chip.readerStore f.1.pntTab f.1.pointRecords (f.1, f.2)).1.canonical := by
    split
    · exact hf
    · exact Chip.canonical.readerStore (x := (f.1, f.2)) hf _ _
  have tables {c : Chip} (hc : c.canonical) {β : Type} (l : List β) (a : β → Nat) (d : β → List Byte) :
      (Machine.forL l (fun s c => c.tableWrite .base (a s) (d s)) c).canonical := hc.forL (fun _ _ hc => hc.tableWrite _ _ _) l
  split
  · exact (tables (stored _ (Chip.canonical.readerStores (x := (c, true)) hc _ _ _)) _ _ _).writeLayout _
  · exact tables (stored _ (Chip.canonical.readerStores (x := (c, true)) hc _ _ _)) _ _ _

@[simp] theorem Chip.canonical.shiftPitch (hc : c.canonical) (old : Stamp) : (c.shiftPitch old).canonical := by
  simp [Chip.shiftPitch, hc]

@[simp] theorem Chip.canonical.loadTime (hc : c.canonical) (e : Option Nat) : (c.loadTime e).canonical := by
  unfold Chip.loadTime
  (repeat' split) <;> simp +contextual (maxDischargeDepth := 60) [hc]

@[simp] theorem Chip.canonical.restartHeads (hc : c.canonical) : c.restartHeads.canonical := by
  simp +contextual (maxDischargeDepth := 60) [Chip.restartHeads, hc]

@[simp] theorem Chip.canonical.firstClaim (hc : c.canonical) : c.firstClaim.canonical := by
  simp (maxDischargeDepth := 60) [Chip.firstClaim, hc]

@[simp] theorem Chip.canonical.doSeal (hc : c.canonical) : c.doSeal.canonical := by
  have fused (c : Chip) (hc : c.canonical) (p : Prop) [Decidable p] (x : Pitch) (v : Nat) :
      (if p then ({ c with pitch := x } : Chip).setFld R.pitStat 13 8 v else c).canonical :=
    Chip.canonical_ite ((hc.withPitch x).setFld _ _ _ _) hc
  have claimed (c : Chip) (hc : c.canonical) : (if c.twinOn = true then c.firstClaim else c).canonical :=
    Chip.canonical_ite hc.firstClaim hc
  unfold Chip.doSeal
  refine Chip.canonical.withPitch (Chip.canonical.stepEnd (Chip.canonical.forN (Chip.canonical.event
    (fused _ (claimed _ ?_) _ _ _) _ _ _) (fun _ _ hc => hc.syncAudit _) _) 8) _
  exact (Chip.canonical.withMgt ((hc.cancelAll.setFld _ _ _ _).setFld _ _ _ _) _).setFld _ _ _ _

/-! ### The commands -/

/-- A command keeps the canonical form where its effect on the part does. -/
theorem runIf_canonical {ok : Bool} {f : Chip → Chip} {s s' : State} (h : runIf ok f s = .next s') (hc : s.chip.canonical)
    (hf : ∀ c : Chip, c.canonical → (f c).canonical) : s'.chip.canonical := by
  cases ok with
  | false => exact absurd h (by simp [runIf])
  | true =>
    have answered : { s with chip := f s.chip } = s' := by simpa [runIf] using h
    exact answered ▸ hf _ hc

/-- An update of the touch reports that have come over the link. -/
theorem Chip.canonical.withTouchIn {c : Chip} (hc : c.canonical) (x : List TouchReport) :
    Chip.canonical { c with touchIn := x } := hc

theorem execStart_canonical {s s' : State} (hc : s.chip.canonical) (t : Stamp) (src : Source) (u : Nat)
    (h : execStart t src u s = .next s') :
    s'.chip.canonical :=
  runIf_canonical h hc fun c hc => by simp (maxDischargeDepth := 60) [hc]

theorem execFinish_canonical {s s' : State} (hc : s.chip.canonical) (t : Stamp) (src : Source) (u : Nat)
    (h : execFinish t src u s = .next s') :
    s'.chip.canonical :=
  runIf_canonical h hc fun c hc => by simp (maxDischargeDepth := 60) [hc]

theorem execResetAlive_canonical {s s' : State} (hc : s.chip.canonical) (t : Stamp) (src : Source) (u : Nat)
    (h : execResetAlive t src u s = .next s') :
    s'.chip.canonical :=
  runIf_canonical h hc fun c hc => by simp (maxDischargeDepth := 60) [hc]

theorem execFeedByte_canonical {s s' : State} (hc : s.chip.canonical) (t : Stamp) (src : Source) (u : Nat) (data : Word)
    (h : execFeedByte t src u data s = .next s') :
    s'.chip.canonical :=
  runIf_canonical h hc fun c hc => by simp (maxDischargeDepth := 60) [hc]

theorem execFeedHalfWord_canonical {s s' : State} (hc : s.chip.canonical) (t : Stamp) (src : Source) (u : Nat) (data : Word)
    (h : execFeedHalfWord t src u data s = .next s') :
    s'.chip.canonical :=
  runIf_canonical h hc fun c hc => by simp (maxDischargeDepth := 60) [hc]

theorem execFeedWord_canonical {s s' : State} (hc : s.chip.canonical) (t : Stamp) (src : Source) (u : Nat) (data : Word)
    (h : execFeedWord t src u data s = .next s') :
    s'.chip.canonical :=
  runIf_canonical h hc fun c hc => by simp (maxDischargeDepth := 60) [hc]

theorem execChkCfgWrite_canonical {s s' : State} (hc : s.chip.canonical) (t : Stamp) (src : Source) (u : Nat) (data : Word)
    (h : execChkCfgWrite t src u data s = .next s') :
    s'.chip.canonical :=
  runIf_canonical h hc fun c hc => by simp (maxDischargeDepth := 60) [hc]

theorem execPpsEdge_canonical {s s' : State} (hc : s.chip.canonical) (t : Stamp) (k edge : Nat)
    (h : execPpsEdge t k edge s = .next s') :
    s'.chip.canonical :=
  runIf_canonical h hc fun c hc => by simp (maxDischargeDepth := 60) [hc]

theorem execPpsTimeout_canonical {s s' : State} (hc : s.chip.canonical) (t : Stamp) (k : Nat)
    (h : execPpsTimeout t k s = .next s') :
    s'.chip.canonical :=
  runIf_canonical h hc fun c hc => by
    dsimp only
    (repeat' split) <;> simp (maxDischargeDepth := 60) [hc]

theorem execActivityGap_canonical {s s' : State} (hc : s.chip.canonical) (t : Stamp) (k : Nat)
    (h : execActivityGap t k s = .next s') :
    s'.chip.canonical :=
  runIf_canonical h hc fun c hc => by simp (maxDischargeDepth := 60) [hc]

theorem execGnssSentence_canonical {s s' : State} (hc : s.chip.canonical) (t : Stamp) (utcSeconds : Nat) (valid : Bool)
    (h : execGnssSentence t utcSeconds valid s = .next s') :
    s'.chip.canonical :=
  runIf_canonical h hc fun c hc => by simp (maxDischargeDepth := 60) [hc]

theorem execPtpMessageReceive_canonical {s s' : State} (hc : s.chip.canonical) (t : Stamp) (p : Nat) (m : PtpFrame)
    (h : execPtpMessageReceive t p m s = .next s') :
    s'.chip.canonical :=
  runIf_canonical h hc fun c hc => by simp (maxDischargeDepth := 60) [hc]

theorem execAnnounceTimeout_canonical {s s' : State} (hc : s.chip.canonical) (t : Stamp) (p : Nat)
    (h : execAnnounceTimeout t p s = .next s') :
    s'.chip.canonical :=
  runIf_canonical h hc fun c hc => by simp (maxDischargeDepth := 60) [hc]

theorem execQualificationComplete_canonical {s s' : State} (hc : s.chip.canonical) (t : Stamp) (k : Nat)
    (h : execQualificationComplete t k s = .next s') :
    s'.chip.canonical :=
  runIf_canonical h hc fun c hc => by simp (maxDischargeDepth := 60) [hc]

theorem execWtrExpire_canonical {s s' : State} (hc : s.chip.canonical) (t : Stamp) (k : Nat) (h : execWtrExpire t k s = .next s') :
    s'.chip.canonical :=
  runIf_canonical h hc fun c hc => by simp (maxDischargeDepth := 60) [hc]

theorem execForce_canonical {s s' : State} (hc : s.chip.canonical) (t : Stamp) (src : Source) (entry : Nat)
    (h : execForce t src entry s = .next s') :
    s'.chip.canonical :=
  runIf_canonical h hc fun c hc => by simp +contextual (maxDischargeDepth := 60) [hc]

theorem execRelease_canonical {s s' : State} (hc : s.chip.canonical) (t : Stamp) (src : Source) (entry : Nat)
    (h : execRelease t src entry s = .next s') :
    s'.chip.canonical :=
  runIf_canonical h hc fun c hc => by simp +contextual (maxDischargeDepth := 60) [hc]

theorem execSkipWtr_canonical {s s' : State} (hc : s.chip.canonical) (t : Stamp) (src : Source) (entry : Nat)
    (h : execSkipWtr t src entry s = .next s') :
    s'.chip.canonical :=
  runIf_canonical h hc fun c hc => by simp +contextual (maxDischargeDepth := 60) [hc]

theorem execRefEvaluation_canonical {s s' : State} (hc : s.chip.canonical) (t : Stamp) (obs : List RefObs)
    (h : execRefEvaluation t obs s = .next s') :
    s'.chip.canonical :=
  runIf_canonical h hc fun c hc => by simp +contextual (maxDischargeDepth := 60) [hc]

theorem execLockTimeElapsed_canonical {s s' : State} (hc : s.chip.canonical) (t : Stamp) (h : execLockTimeElapsed t s = .next s') :
    s'.chip.canonical :=
  runIf_canonical h hc fun c hc => by
    dsimp only
    split <;> simp (maxDischargeDepth := 60) [hc]

theorem execDwellEnd_canonical {s s' : State} (hc : s.chip.canonical) (t : Stamp) (h : execDwellEnd t s = .next s') :
    s'.chip.canonical :=
  runIf_canonical h hc fun c hc => by
    dsimp only
    (repeat' split) <;> simp (maxDischargeDepth := 60) [hc]

theorem execHoldoverSecond_canonical {s s' : State} (hc : s.chip.canonical) (t : Stamp) (h : execHoldoverSecond t s = .next s') :
    s'.chip.canonical :=
  runIf_canonical h hc fun c hc => by simp (maxDischargeDepth := 60) [hc]

theorem execSerdesLoopLockLoss_canonical {s s' : State} (hc : s.chip.canonical) (t : Stamp) (err : Int)
    (h : execSerdesLoopLockLoss t err s = .next s') :
    s'.chip.canonical :=
  runIf_canonical h hc fun c hc => by simp (maxDischargeDepth := 60) [hc]

theorem execTimeBusFullStamp_canonical {s s' : State} (hc : s.chip.canonical) (t : Stamp) (taps : List (Nat × Int × Nat))
    (h : execTimeBusFullStamp t taps s = .next s') :
    s'.chip.canonical :=
  runIf_canonical h hc fun c hc => by simp +contextual (maxDischargeDepth := 60) [hc]

theorem execWatchTapTimeout_canonical {s s' : State} (hc : s.chip.canonical) (t : Stamp) (diff : Int)
    (h : execWatchTapTimeout t diff s = .next s') :
    s'.chip.canonical :=
  runIf_canonical h hc fun c hc => by simp (maxDischargeDepth := 60) [hc]

theorem execBolLinkChange_canonical {s s' : State} (hc : s.chip.canonical) (t : Stamp) (lock : Nat)
    (h : execBolLinkChange t lock s = .next s') :
    s'.chip.canonical :=
  runIf_canonical h hc fun c hc => by simp (maxDischargeDepth := 60) [hc]

theorem execFlitReceive_canonical {s s' : State} (hc : s.chip.canonical) (t : Stamp) (flit : List Byte)
    (h : execFlitReceive t flit s = .next s') :
    s'.chip.canonical :=
  runIf_canonical h hc fun c hc => by
    dsimp only
    (repeat' split) <;> simp (maxDischargeDepth := 60) [hc]

theorem execNakReceive_canonical {s s' : State} (hc : s.chip.canonical) (t : Stamp) (counter : Nat)
    (h : execNakReceive t counter s = .next s') :
    s'.chip.canonical :=
  runIf_canonical h hc fun c hc => by
    dsimp only
    (repeat' split) <;> simp (maxDischargeDepth := 60) [hc]

theorem execTimeExchangeStart_canonical {s s' : State} (hc : s.chip.canonical) (t : Stamp) (depart : Stamp)
    (h : execTimeExchangeStart t depart s = .next s') :
    s'.chip.canonical :=
  runIf_canonical h hc fun c hc => by simp (maxDischargeDepth := 60) [hc]

theorem execTimeRequestReceive_canonical {s s' : State} (hc : s.chip.canonical) (t : Stamp) (msg : List Byte)
    (depart : Stamp) (h : execTimeRequestReceive t msg depart s = .next s') :
    s'.chip.canonical :=
  runIf_canonical h hc fun c hc => by simp (maxDischargeDepth := 60) [hc]

theorem execTimeReplyReceive_canonical {s s' : State} (hc : s.chip.canonical) (t : Stamp) (msg : List Byte)
    (h : execTimeReplyReceive t msg s = .next s') :
    s'.chip.canonical :=
  runIf_canonical h hc fun c hc => by
    dsimp only
    split <;> simp (maxDischargeDepth := 60) [hc]

theorem execPointFrameProcess_canonical {s s' : State} (hc : s.chip.canonical) (t : Stamp) (bad : List Nat)
    (h : execPointFrameProcess t bad s = .next s') :
    s'.chip.canonical :=
  runIf_canonical h hc fun c hc => by
    dsimp only
    (repeat' split) <;> simp (maxDischargeDepth := 60) [hc]

theorem execFeederResyncTimeout_canonical {s s' : State} (hc : s.chip.canonical) (t : Stamp) (f : Nat)
    (h : execFeederResyncTimeout t f s = .next s') :
    s'.chip.canonical :=
  runIf_canonical h hc fun c hc => by simp (maxDischargeDepth := 60) [hc]

theorem execMirrorReceive_canonical {s s' : State} (hc : s.chip.canonical) (t : Stamp) (msg : List Byte) (bad : List Nat)
    (h : execMirrorReceive t msg bad s = .next s') :
    s'.chip.canonical :=
  runIf_canonical h hc fun c hc => by
    dsimp only
    (repeat' split) <;> simp (maxDischargeDepth := 60) [hc]

theorem execMirrorApply_canonical {s s' : State} (hc : s.chip.canonical) (t : Stamp) (bad : List Nat)
    (h : execMirrorApply t bad s = .next s') :
    s'.chip.canonical :=
  runIf_canonical h hc fun c hc => by
    dsimp only
    (repeat' split) <;> simp (maxDischargeDepth := 60) [hc]

theorem execFrameBegin_canonical {s s' : State} (hc : s.chip.canonical) (t : Stamp) (n key : Nat)
    (h : execFrameBegin t n key s = .next s') :
    s'.chip.canonical :=
  runIf_canonical h hc fun c hc => by simp (maxDischargeDepth := 60) [hc]

theorem execFrameFinish_canonical {s s' : State} (hc : s.chip.canonical) (t : Stamp) (n i code cause : Nat)
    (arrival : Stamp) (sup : Option Stamp) (missing : Nat) (content : List (Nat × List Byte))
    (h : execFrameFinish t n i code cause arrival sup missing content s = .next s') :
    s'.chip.canonical :=
  runIf_canonical h hc fun c hc => by simp +contextual (maxDischargeDepth := 60) [hc]

theorem execFrameEligible_canonical {s s' : State} (hc : s.chip.canonical) (t : Stamp) (n i : Nat)
    (h : execFrameEligible t n i s = .next s') :
    s'.chip.canonical :=
  runIf_canonical h hc fun c hc => by simp (maxDischargeDepth := 60) [hc]

theorem execNoticeReceive_canonical {s s' : State} (hc : s.chip.canonical) (t : Stamp) (msg : List Byte)
    (h : execNoticeReceive t msg s = .next s') :
    s'.chip.canonical :=
  runIf_canonical h hc fun c hc => by simp (maxDischargeDepth := 60) [hc]

theorem execNoticeLostwaitExpire_canonical {s s' : State} (hc : s.chip.canonical) (t : Stamp) (n key : Nat)
    (h : execNoticeLostwaitExpire t n key s = .next s') :
    s'.chip.canonical :=
  runIf_canonical h hc fun c hc => by simp (maxDischargeDepth := 60) [hc]

theorem execEthFrameReceive_canonical {s s' : State} (hc : s.chip.canonical) (t : Stamp) (fr : EthFrame)
    (h : execEthFrameReceive t fr s = .next s') :
    s'.chip.canonical :=
  runIf_canonical h hc fun c hc => by
    dsimp only
    (repeat' split) <;> simp (maxDischargeDepth := 60) [hc]

theorem execHeldPacketExpire_canonical {s s' : State} (hc : s.chip.canonical) (t : Stamp)
    (h : execHeldPacketExpire t s = .next s') :
    s'.chip.canonical :=
  runIf_canonical h hc fun c hc => by
    dsimp only
    split <;> simp (maxDischargeDepth := 60) [hc]

theorem execSenderAgeOut_canonical {s s' : State} (hc : s.chip.canonical) (t : Stamp) (n : Nat)
    (h : execSenderAgeOut t n s = .next s') :
    s'.chip.canonical :=
  runIf_canonical h hc fun c hc => by simp (maxDischargeDepth := 60) [hc]

theorem execFrameSkewTimeout_canonical {s s' : State} (hc : s.chip.canonical) (t : Stamp) (n ts : Nat)
    (h : execFrameSkewTimeout t n ts s = .next s') :
    s'.chip.canonical :=
  runIf_canonical h hc fun c hc => by
    dsimp only
    split <;> simp (maxDischargeDepth := 60) [hc]

theorem execFramePacketTimeout_canonical {s s' : State} (hc : s.chip.canonical) (t : Stamp) (n ts : Nat)
    (h : execFramePacketTimeout t n ts s = .next s') :
    s'.chip.canonical :=
  runIf_canonical h hc fun c hc => by
    dsimp only
    (repeat' split) <;> simp (maxDischargeDepth := 60) [hc]

theorem execLegSilenceTimeout_canonical {s s' : State} (hc : s.chip.canonical) (t : Stamp) (n leg : Nat)
    (h : execLegSilenceTimeout t n leg s = .next s') :
    s'.chip.canonical :=
  runIf_canonical h hc fun c hc => by
    dsimp only
    split <;> simp (maxDischargeDepth := 60) [hc]

theorem execSenderReportLapse_canonical {s s' : State} (hc : s.chip.canonical) (t : Stamp) (n : Nat)
    (h : execSenderReportLapse t n s = .next s') :
    s'.chip.canonical :=
  runIf_canonical h hc fun c hc => by
    dsimp only
    split <;> simp (maxDischargeDepth := 60) [hc]

theorem execSubportLinkChange_canonical {s s' : State} (hc : s.chip.canonical) (t : Stamp) (p sub : Nat) (up : Bool)
    (h : execSubportLinkChange t p sub up s = .next s') :
    s'.chip.canonical :=
  runIf_canonical h hc fun c hc => by simp (maxDischargeDepth := 60) [hc]

theorem execTick_canonical {s s' : State} (hc : s.chip.canonical) (t : Stamp) (h : execTick t s = .next s') :
    s'.chip.canonical :=
  runIf_canonical h hc fun c hc => by simp (maxDischargeDepth := 60) [hc]

theorem execSplitTimeout_canonical {s s' : State} (hc : s.chip.canonical) (t : Stamp) (h : execSplitTimeout t s = .next s') :
    s'.chip.canonical :=
  runIf_canonical h hc fun c hc => by
    dsimp only
    split <;> simp (maxDischargeDepth := 60) [hc]

theorem execHeartbeatReceive_canonical {s s' : State} (hc : s.chip.canonical) (t : Stamp) (msg : List Byte)
    (h : execHeartbeatReceive t msg s = .next s') :
    s'.chip.canonical :=
  runIf_canonical h hc fun c hc => by simp (maxDischargeDepth := 60) [hc]

theorem execRecordReceive_canonical {s s' : State} (hc : s.chip.canonical) (t : Stamp) (msg : List Byte)
    (h : execRecordReceive t msg s = .next s') :
    s'.chip.canonical :=
  runIf_canonical h hc fun c hc => by simp +contextual (maxDischargeDepth := 60) [hc]

theorem execYield_canonical {s s' : State} (hc : s.chip.canonical) (t : Stamp) (src : Source) (h : execYield t src s = .next s') :
    s'.chip.canonical :=
  runIf_canonical h hc fun c hc => by simp (maxDischargeDepth := 60) [hc]

theorem execCommitRequest_canonical {s s' : State} (hc : s.chip.canonical) (t : Stamp) (src : Source) (h : Nat)
    (h : execCommitRequest t src h s = .next s') :
    s'.chip.canonical :=
  runIf_canonical h hc fun c hc => by simp (maxDischargeDepth := 60) [hc]

theorem execCommitCancel_canonical {s s' : State} (hc : s.chip.canonical) (t : Stamp) (src : Source) (h : Nat)
    (h : execCommitCancel t src h s = .next s') :
    s'.chip.canonical :=
  runIf_canonical h hc fun c hc => by simp (maxDischargeDepth := 60) [hc]

theorem execElementStateMiss_canonical {s s' : State} (hc : s.chip.canonical) (t : Stamp) (h e : Nat)
    (h : execElementStateMiss t h e s = .next s') :
    s'.chip.canonical :=
  runIf_canonical h hc fun c hc => by simp (maxDischargeDepth := 60) [hc]

theorem execGlyphMiss_canonical {s s' : State} (hc : s.chip.canonical) (t : Stamp) (h e : Nat)
    (h : execGlyphMiss t h e s = .next s') :
    s'.chip.canonical :=
  runIf_canonical h hc fun c hc => by simp +contextual (maxDischargeDepth := 60) [hc]

theorem execPictureJobBuild_canonical {s s' : State} (hc : s.chip.canonical) (t : Stamp) (ctx : Nat) (p : ParsedPicture)
    (h : execPictureJobBuild t ctx p s = .next s') :
    s'.chip.canonical :=
  runIf_canonical h hc fun c hc => by
    dsimp only
    (repeat' split) <;> simp (maxDischargeDepth := 60) [hc]

theorem execPacketRelease_canonical {s s' : State} (hc : s.chip.canonical) (t : Stamp) (st : Nat)
    (h : execPacketRelease t st s = .next s') :
    s'.chip.canonical :=
  runIf_canonical h hc fun c hc => by
    dsimp only
    (repeat' split) <;> simp (maxDischargeDepth := 60) [hc]

theorem execClaimHeartbeatSend_canonical {s s' : State} (hc : s.chip.canonical) (t : Stamp)
    (h : execClaimHeartbeatSend t s = .next s') :
    s'.chip.canonical :=
  runIf_canonical h hc fun c hc => by simp +contextual (maxDischargeDepth := 60) [hc]

theorem execSenderReportSend_canonical {s s' : State} (hc : s.chip.canonical) (t : Stamp)
    (h : execSenderReportSend t s = .next s') :
    s'.chip.canonical :=
  runIf_canonical h hc fun c hc => by simp +contextual (maxDischargeDepth := 60) [hc]

theorem execSeqReceive_canonical {s s' : State} (hc : s.chip.canonical) (t : Stamp) (msg : List Byte)
    (h : execSeqReceive t msg s = .next s') :
    s'.chip.canonical :=
  runIf_canonical h hc fun c hc => by simp (maxDischargeDepth := 60) [hc]

theorem execBucketTake_canonical {s s' : State} (hc : s.chip.canonical) (t : Stamp) (ctx : Nat) (twinRuns : Bool)
    (h : execBucketTake t ctx twinRuns s = .next s') :
    s'.chip.canonical :=
  runIf_canonical h hc fun c hc => by
    dsimp only
    (repeat' split) <;> simp (maxDischargeDepth := 60) [hc]

theorem execArm_canonical {s s' : State} (hc : s.chip.canonical) (t : Stamp) (src : Source) (ctx : Nat)
    (h : execArm t src ctx s = .next s') :
    s'.chip.canonical :=
  runIf_canonical h hc fun c hc => by simp (maxDischargeDepth := 60) [hc]

theorem execEngineJobEnd_canonical {s s' : State} (hc : s.chip.canonical) (t : Stamp) (encode : Bool) (e : Nat)
    (r : JobResult) (h : execEngineJobEnd t encode e r s = .next s') :
    s'.chip.canonical :=
  runIf_canonical h hc fun c hc => by
    dsimp only
    (repeat' split) <;> simp (maxDischargeDepth := 60) [hc]

theorem execClearViolationRecord_canonical {s s' : State} (hc : s.chip.canonical) (t : Stamp) (u : Nat)
    (h : execClearViolationRecord t u s = .next s') :
    s'.chip.canonical :=
  runIf_canonical h hc fun c hc => by simp (maxDischargeDepth := 60) [hc]

theorem execApply_canonical {s s' : State} (hc : s.chip.canonical) (t : Stamp) (src : Source) (u : Nat)
    (h : execApply t src u s = .next s') :
    s'.chip.canonical :=
  runIf_canonical h hc fun c hc => by simp (maxDischargeDepth := 60) [hc]

theorem execApplyTags_canonical {s s' : State} (hc : s.chip.canonical) (t : Stamp) (src : Source)
    (h : execApplyTags t src s = .next s') :
    s'.chip.canonical :=
  runIf_canonical h hc fun c hc => by simp (maxDischargeDepth := 60) [hc]

theorem execAccessDrainComplete_canonical {s s' : State} (hc : s.chip.canonical) (t : Stamp) (u : Option Nat)
    (h : execAccessDrainComplete t u s = .next s') :
    s'.chip.canonical :=
  runIf_canonical h hc fun c hc => by
    dsimp only
    split <;> simp (maxDischargeDepth := 60) [hc]

theorem execTagCopyDone_canonical {s s' : State} (hc : s.chip.canonical) (t : Stamp) (h : execTagCopyDone t s = .next s') :
    s'.chip.canonical :=
  runIf_canonical h hc fun c hc => by simp +contextual (maxDischargeDepth := 60) [hc]

theorem execMemoryReadComplete_canonical {s s' : State} (hc : s.chip.canonical) (t : Stamp) (n ecc : Nat)
    (h : execMemoryReadComplete t n ecc s = .next s') :
    s'.chip.canonical :=
  runIf_canonical h hc fun c hc => by
    dsimp only
    split <;> simp (maxDischargeDepth := 60) [hc]

theorem execRefreshDue_canonical {s s' : State} (hc : s.chip.canonical) (t : Stamp) (n bank : Nat)
    (h : execRefreshDue t n bank s = .next s') :
    s'.chip.canonical :=
  runIf_canonical h hc fun c hc => by simp (maxDischargeDepth := 60) [hc]

theorem execMr4Poll_canonical {s s' : State} (hc : s.chip.canonical) (t : Stamp) (n code : Nat)
    (h : execMr4Poll t n code s = .next s') :
    s'.chip.canonical :=
  runIf_canonical h hc fun c hc => by simp (maxDischargeDepth := 60) [hc]

theorem execScrubRead_canonical {s s' : State} (hc : s.chip.canonical) (t : Stamp) (n ofs ecc : Nat)
    (h : execScrubRead t n ofs ecc s = .next s') :
    s'.chip.canonical :=
  runIf_canonical h hc fun c hc => by simp (maxDischargeDepth := 60) [hc]

theorem execHoldTimeout_canonical {s s' : State} (hc : s.chip.canonical) (t : Stamp) (h : execHoldTimeout t s = .next s') :
    s'.chip.canonical :=
  runIf_canonical h hc fun c hc => by
    dsimp only
    (repeat' split) <;> simp (maxDischargeDepth := 60) [hc]

theorem execBudgetOverrun_canonical {s s' : State} (hc : s.chip.canonical) (t : Stamp) (g : Nat)
    (h : execBudgetOverrun t g s = .next s') :
    s'.chip.canonical :=
  runIf_canonical h hc fun c hc => by simp (maxDischargeDepth := 60) [hc]

theorem execOscTrackRead_canonical {s s' : State} (hc : s.chip.canonical) (t : Stamp) (n : Nat) (want : Int)
    (h : execOscTrackRead t n want s = .next s') :
    s'.chip.canonical :=
  runIf_canonical h hc fun c hc => by simp (maxDischargeDepth := 60) [hc]

theorem execTrainingRun_canonical {s s' : State} (hc : s.chip.canonical) (t : Stamp) (src : Source) (n : Nat)
    (h : execTrainingRun t src n s = .next s') :
    s'.chip.canonical :=
  runIf_canonical h hc fun c hc => by simp (maxDischargeDepth := 60) [hc]

theorem execTrainingStop_canonical {s s' : State} (hc : s.chip.canonical) (t : Stamp) (src : Source) (n : Nat)
    (errors : List Nat) (h : execTrainingStop t src n errors s = .next s') :
    s'.chip.canonical :=
  runIf_canonical h hc fun c hc => by simp (maxDischargeDepth := 60) [hc]

theorem execTrainingRunDone_canonical {s s' : State} (hc : s.chip.canonical) (t : Stamp) (n : Nat) (errors : List Nat)
    (h : execTrainingRunDone t n errors s = .next s') :
    s'.chip.canonical :=
  runIf_canonical h hc fun c hc => by simp (maxDischargeDepth := 60) [hc]

theorem execTrimWriteApply_canonical {s s' : State} (hc : s.chip.canonical) (t : Stamp) (n : Nat)
    (h : execTrimWriteApply t n s = .next s') :
    s'.chip.canonical :=
  runIf_canonical h hc fun c hc => by simp +contextual (maxDischargeDepth := 60) [hc]

theorem execCsiLineReceive_canonical {s s' : State} (hc : s.chip.canonical) (t : Stamp) (p : Nat) (l : CsiLine)
    (h : execCsiLineReceive t p l s = .next s') :
    s'.chip.canonical :=
  runIf_canonical h hc fun c hc => by
    dsimp only
    split <;> simp (maxDischargeDepth := 60) [hc]

theorem execEmbeddedDataReceive_canonical {s s' : State} (hc : s.chip.canonical) (t : Stamp) (p vc : Nat) (data : List Byte)
    (headerOk crcOk : Bool) (h : execEmbeddedDataReceive t p vc data headerOk crcOk s = .next s') :
    s'.chip.canonical :=
  runIf_canonical h hc fun c hc => by
    dsimp only
    split <;> simp (maxDischargeDepth := 60) [hc]

theorem execCameraFrameEnd_canonical {s s' : State} (hc : s.chip.canonical) (t : Stamp) (p vc : Nat)
    (h : execCameraFrameEnd t p vc s = .next s') :
    s'.chip.canonical :=
  runIf_canonical h hc fun c hc => by simp (maxDischargeDepth := 60) [hc]

theorem execCameraFrameTimeout_canonical {s s' : State} (hc : s.chip.canonical) (t : Stamp) (p : Nat)
    (h : execCameraFrameTimeout t p s = .next s') :
    s'.chip.canonical :=
  runIf_canonical h hc fun c hc => by
    dsimp only
    (repeat' split) <;> simp (maxDischargeDepth := 60) [hc]

theorem execCameraOutputFinish_canonical {s s' : State} (hc : s.chip.canonical) (t : Stamp) (p o : Nat)
    (h : execCameraOutputFinish t p o s = .next s') :
    s'.chip.canonical :=
  runIf_canonical h hc fun c hc => by
    dsimp only
    (repeat' split) <;> simp (maxDischargeDepth := 60) [hc]

theorem execCameraSilenceTimeout_canonical {s s' : State} (hc : s.chip.canonical) (t : Stamp) (p : Nat)
    (h : execCameraSilenceTimeout t p s = .next s') :
    s'.chip.canonical :=
  runIf_canonical h hc fun c hc => by simp (maxDischargeDepth := 60) [hc]

theorem execCciWritesDone_canonical {s s' : State} (hc : s.chip.canonical) (t : Stamp) (p done : Nat) (refused : Bool)
    (h : execCciWritesDone t p done refused s = .next s') :
    s'.chip.canonical :=
  runIf_canonical h hc fun c hc => by
    dsimp only
    split <;> simp (maxDischargeDepth := 60) [hc]

theorem execCciWindowExpire_canonical {s s' : State} (hc : s.chip.canonical) (t : Stamp) (p done : Nat)
    (h : execCciWindowExpire t p done s = .next s') :
    s'.chip.canonical :=
  runIf_canonical h hc fun c hc => by
    dsimp only
    (repeat' split) <;> simp (maxDischargeDepth := 60) [hc]

theorem execFsyncPulse_canonical {s s' : State} (hc : s.chip.canonical) (t : Stamp) (p : Nat)
    (h : execFsyncPulse t p s = .next s') :
    s'.chip.canonical :=
  runIf_canonical h hc fun c hc => by simp (maxDischargeDepth := 60) [hc]

theorem execCaptureFrameBegin_canonical {s s' : State} (hc : s.chip.canonical) (t : Stamp) (q w h enc : Nat) (bpc10 : Bool)
    (h : execCaptureFrameBegin t q w h enc bpc10 s = .next s') :
    s'.chip.canonical :=
  runIf_canonical h hc fun c hc => by
    dsimp only
    (repeat' split) <;> simp (maxDischargeDepth := 60) [hc]

theorem execCaptureLineReceive_canonical {s s' : State} (hc : s.chip.canonical) (t : Stamp) (q : Nat)
    (px : List (Nat × Nat × Nat)) (fill : Nat) (h : execCaptureLineReceive t q px fill s = .next s') :
    s'.chip.canonical :=
  runIf_canonical h hc fun c hc => by
    dsimp only
    (repeat' split) <;> simp (maxDischargeDepth := 60) [hc]

theorem execCaptureFrameEnd_canonical {s s' : State} (hc : s.chip.canonical) (t : Stamp) (q : Nat)
    (h : execCaptureFrameEnd t q s = .next s') :
    s'.chip.canonical :=
  runIf_canonical h hc fun c hc => by simp (maxDischargeDepth := 60) [hc]

theorem execCaptureLinkChange_canonical {s s' : State} (hc : s.chip.canonical) (t : Stamp) (q : Nat) (trained : Bool)
    (rate lanes : Nat) (video : Bool) (h : execCaptureLinkChange t q trained rate lanes video s = .next s') :
    s'.chip.canonical :=
  runIf_canonical h hc fun c hc => by simp (maxDischargeDepth := 60) [hc]

theorem execCaptureAuxRequest_canonical {s s' : State} (hc : s.chip.canonical) (t : Stamp) (q : Nat) (r : AuxRequest)
    (h : execCaptureAuxRequest t q r s = .next s') :
    s'.chip.canonical :=
  runIf_canonical h hc fun c hc => by
    dsimp only
    (repeat' split) <;> simp (maxDischargeDepth := 60) [hc]

theorem execScanFrameStart_canonical {s s' : State} (hc : s.chip.canonical) (t : Stamp) (h : Nat)
    (h : execScanFrameStart t h s = .next s') :
    s'.chip.canonical :=
  runIf_canonical h hc fun c hc => by simp (maxDischargeDepth := 60) [hc]

theorem execScanFrameEnd_canonical {s s' : State} (hc : s.chip.canonical) (t : Stamp) (h : Nat) (d : ScanData)
    (h : execScanFrameEnd t h d s = .next s') :
    s'.chip.canonical :=
  runIf_canonical h hc fun c hc => by
    dsimp only
    split <;> simp (maxDischargeDepth := 60) [hc]

theorem execFrequencyHop_canonical {s s' : State} (hc : s.chip.canonical) (t : Stamp) (h : Nat)
    (h : execFrequencyHop t h s = .next s') :
    s'.chip.canonical :=
  runIf_canonical h hc fun c hc => by
    dsimp only
    split <;> simp (maxDischargeDepth := 60) [hc]

theorem execNoiseTimeout_canonical {s s' : State} (hc : s.chip.canonical) (t : Stamp) (h : Nat)
    (h : execNoiseTimeout t h s = .next s') :
    s'.chip.canonical :=
  runIf_canonical h hc fun c hc => by
    dsimp only
    split <;> simp (maxDischargeDepth := 60) [hc]

theorem execLongTouch_canonical {s s' : State} (hc : s.chip.canonical) (t : Stamp) (h id : Nat)
    (h : execLongTouch t h id s = .next s') :
    s'.chip.canonical :=
  runIf_canonical h hc fun c hc => by
    dsimp only
    split <;> simp (maxDischargeDepth := 60) [hc]

theorem execCalibrationDone_canonical {s s' : State} (hc : s.chip.canonical) (t : Stamp) (h : Nat)
    (h : execCalibrationDone t h s = .next s') :
    s'.chip.canonical :=
  runIf_canonical h hc fun c hc => by simp +contextual (maxDischargeDepth := 60) [hc]

theorem execSelftest_canonical {s s' : State} (hc : s.chip.canonical) (t : Stamp) (src : Source) (h : Nat)
    (h : execSelftest t src h s = .next s') :
    s'.chip.canonical :=
  runIf_canonical h hc fun c hc => by simp +contextual (maxDischargeDepth := 60) [hc]

theorem execRecal_canonical {s s' : State} (hc : s.chip.canonical) (t : Stamp) (src : Source) (h : Nat)
    (h : execRecal t src h s = .next s') :
    s'.chip.canonical :=
  runIf_canonical h hc fun c hc => by simp +contextual (maxDischargeDepth := 60) [hc]

theorem execSelftestDone_canonical {s s' : State} (hc : s.chip.canonical) (t : Stamp) (h : Nat)
    (h : execSelftestDone t h s = .next s') :
    s'.chip.canonical :=
  runIf_canonical h hc fun c hc => by
    simp only []
    (repeat' split) <;> simp +contextual (maxDischargeDepth := 60) [hc]

theorem execDriveRailChange_canonical {s s' : State} (hc : s.chip.canonical) (t : Stamp) (h : Nat) (low : Bool)
    (h : execDriveRailChange t h low s = .next s') :
    s'.chip.canonical :=
  runIf_canonical h hc fun c hc => by simp (maxDischargeDepth := 60) [hc]

theorem execEventRecordWrite_canonical {s s' : State} (hc : s.chip.canonical) (t : Stamp)
    (h : execEventRecordWrite t s = .next s') :
    s'.chip.canonical :=
  runIf_canonical h hc fun c hc => by
    dsimp only
    split <;> simp (maxDischargeDepth := 60) [hc]

theorem execRateLimitWindowEnd_canonical {s s' : State} (hc : s.chip.canonical) (t : Stamp) (code unit : Nat)
    (h : execRateLimitWindowEnd t code unit s = .next s') :
    s'.chip.canonical :=
  runIf_canonical h hc fun c hc => by simp (maxDischargeDepth := 60) [hc]

theorem execAcknowledge_canonical {s s' : State} (hc : s.chip.canonical) (t : Stamp) (seq : Nat)
    (h : execAcknowledge t seq s = .next s') :
    s'.chip.canonical :=
  runIf_canonical h hc fun c hc => by simp (maxDischargeDepth := 60) [hc]

theorem execHeadEnableWrite_canonical {s s' : State} (hc : s.chip.canonical) (t : Stamp) (h : Nat) (data : Word)
    (h : execHeadEnableWrite t h data s = .next s') :
    s'.chip.canonical :=
  runIf_canonical h hc fun c hc => by simp (maxDischargeDepth := 60) [hc]

theorem execHpdHighDebounce_canonical {s s' : State} (hc : s.chip.canonical) (t : Stamp) (p rate lanes : Nat)
    (edid : List (Nat × List Byte)) (h : execHpdHighDebounce t p rate lanes edid s = .next s') :
    s'.chip.canonical :=
  runIf_canonical h hc fun c hc => by simp (maxDischargeDepth := 60) [hc]

theorem execDpTrainingDone_canonical {s s' : State} (hc : s.chip.canonical) (t : Stamp) (p : Nat) (good : List (Nat × Nat))
    (denied : List Nat) (h : execDpTrainingDone t p good denied s = .next s') :
    s'.chip.canonical :=
  runIf_canonical h hc fun c hc => by
    simp only []
    (repeat' split) <;> simp +contextual (maxDischargeDepth := 60) [hc]

theorem execIrqHpd_canonical {s s' : State} (hc : s.chip.canonical) (t : Stamp) (p : Nat) (lost : Bool)
    (mst : Option Topology) (h : execIrqHpd t p lost mst s = .next s') :
    s'.chip.canonical :=
  runIf_canonical h hc fun c hc => by
    dsimp only
    (repeat' split) <;> simp (maxDischargeDepth := 60) [hc]

theorem execHpdLowTimeout_canonical {s s' : State} (hc : s.chip.canonical) (t : Stamp) (p : Nat)
    (h : execHpdLowTimeout t p s = .next s') :
    s'.chip.canonical :=
  runIf_canonical h hc fun c hc => by simp (maxDischargeDepth := 60) [hc]

theorem execDpRetryTimeout_canonical {s s' : State} (hc : s.chip.canonical) (t : Stamp) (p : Nat)
    (h : execDpRetryTimeout t p s = .next s') :
    s'.chip.canonical :=
  runIf_canonical h hc fun c hc => by simp (maxDischargeDepth := 60) [hc]

theorem execRetrain_canonical {s s' : State} (hc : s.chip.canonical) (t : Stamp) (src : Source) (p : Nat)
    (h : execRetrain t src p s = .next s') :
    s'.chip.canonical :=
  runIf_canonical h hc fun c hc => by simp (maxDischargeDepth := 60) [hc]

theorem execPegExpire_canonical {s s' : State} (hc : s.chip.canonical) (t : Stamp) (i : Nat) (h : execPegExpire t i s = .next s') :
    s'.chip.canonical :=
  runIf_canonical h hc fun c hc => by
    dsimp only
    (repeat' split) <;> simp (maxDischargeDepth := 60) [hc]

theorem execPegArm_canonical {s s' : State} (hc : s.chip.canonical) (t : Stamp) (i : Nat) (h : execPegArm t i s = .next s') :
    s'.chip.canonical :=
  runIf_canonical h hc fun c hc => by
    dsimp only
    split <;> simp (maxDischargeDepth := 60) [hc]

theorem execGroupCheckDone_canonical {s s' : State} (hc : s.chip.canonical) (t : Stamp) (h : execGroupCheckDone t s = .next s') :
    s'.chip.canonical :=
  runIf_canonical h hc fun c hc => by
    simp only []
    (repeat' split) <;> simp +contextual (maxDischargeDepth := 60) [hc]

theorem execSubmit_canonical {s s' : State} (hc : s.chip.canonical) (t : Stamp) (src : Source) (sg : Nat)
    (h : execSubmit t src sg s = .next s') :
    s'.chip.canonical :=
  runIf_canonical h hc fun c hc => by simp (maxDischargeDepth := 60) [hc]

theorem execPegCancel_canonical {s s' : State} (hc : s.chip.canonical) (t : Stamp) (src : Source) (sg group : Nat)
    (h : execPegCancel t src sg group s = .next s') :
    s'.chip.canonical :=
  runIf_canonical h hc fun c hc => by simp (maxDischargeDepth := 60) [hc]

theorem execRecallLayout_canonical {s s' : State} (hc : s.chip.canonical) (t : Stamp) (src : Source) (n : Nat)
    (h : execRecallLayout t src n s = .next s') :
    s'.chip.canonical :=
  runIf_canonical h hc fun c hc => by simp (maxDischargeDepth := 60) [hc]

theorem execPreset_canonical {s s' : State} (hc : s.chip.canonical) (t : Stamp) (src : Source) (n : Nat)
    (h : execPreset t src n s = .next s') :
    s'.chip.canonical :=
  runIf_canonical h hc fun c hc => by simp (maxDischargeDepth := 60) [hc]

theorem execPolicyAction_canonical {s s' : State} (hc : s.chip.canonical) (t : Stamp) (h : execPolicyAction t s = .next s') :
    s'.chip.canonical :=
  runIf_canonical h hc fun c hc => by
    dsimp only
    (repeat' split) <;> simp (maxDischargeDepth := 60) [hc]

theorem execTouchReportWrite_canonical {s s' : State} (hc : s.chip.canonical) (t : Stamp)
    (h : execTouchReportWrite t s = .next s') : s'.chip.canonical := by
  have counted (c : Chip) (hc : c.canonical) (p : Prop) [Decidable p] (a n k : Nat) (e : Ev) :
      (if p then c else (c.bumpBy a n).raiseLimitedBy k e n).canonical :=
    Chip.canonical_ite hc ((hc.bumpBy _ _).raiseLimitedBy _ _ _)
  refine runIf_canonical h hc fun c hc => ?_
  extract_lets c1
  have h1 : c1.canonical := hc.at t
  clear_value c1
  split
  · exact h1
  · refine Chip.canonical.forL ?_ (fun c e hc => hc.gestureEntry _ _ _) _
    refine Chip.canonical.pointerHandler (Chip.canonical.publish (Chip.canonical.setNat (Chip.canonical.fwStore
      (counted _ ?_ _ _ _ _ _) _ _) _ _) _) _ _
    exact Chip.canonical.modTch (Chip.canonical.withTouchIn h1 _) _ _

theorem execPointerHoldExpire_canonical {s s' : State} (hc : s.chip.canonical) (t : Stamp) (h : Nat)
    (h : execPointerHoldExpire t h s = .next s') :
    s'.chip.canonical :=
  runIf_canonical h hc fun c hc => by simp (maxDischargeDepth := 60) [hc]

theorem execD2dLinkDown_canonical {s s' : State} (hc : s.chip.canonical) (t : Stamp) (h : execD2dLinkDown t s = .next s') :
    s'.chip.canonical :=
  runIf_canonical h hc fun c hc => by simp (maxDischargeDepth := 60) [hc]

theorem execD2dLinkRetrained_canonical {s s' : State} (hc : s.chip.canonical) (t : Stamp)
    (h : execD2dLinkRetrained t s = .next s') :
    s'.chip.canonical :=
  runIf_canonical h hc fun c hc => by simp +contextual (maxDischargeDepth := 60) [hc]

theorem execD2dFlitReplay_canonical {s s' : State} (hc : s.chip.canonical) (t : Stamp) (h : execD2dFlitReplay t s = .next s') :
    s'.chip.canonical :=
  runIf_canonical h hc fun c hc => by simp (maxDischargeDepth := 60) [hc]

theorem execPegImmediateFire_canonical {s s' : State} (hc : s.chip.canonical) (t : Stamp) (q block : Nat)
    (h : execPegImmediateFire t q block s = .next s') :
    s'.chip.canonical :=
  runIf_canonical h hc fun c hc => by simp (maxDischargeDepth := 60) [hc]

theorem execEngineJobStart_canonical {s s' : State} (hc : s.chip.canonical) (t : Stamp) (encode : Bool) (e : Nat)
    (h : execEngineJobStart t encode e s = .next s') :
    s'.chip.canonical :=
  runIf_canonical h hc fun c hc => by
    dsimp only
    (repeat' split) <;> simp (maxDischargeDepth := 60) [hc]

theorem execCameraFrameStart_canonical {s s' : State} (hc : s.chip.canonical) (t : Stamp) (p vc : Nat)
    (h : execCameraFrameStart t p vc s = .next s') :
    s'.chip.canonical :=
  runIf_canonical h hc fun c hc => by simp (maxDischargeDepth := 60) [hc]

theorem execSweepStart_canonical {s s' : State} (hc : s.chip.canonical) (t : Stamp) (h : execSweepStart t s = .next s') :
    s'.chip.canonical :=
  runIf_canonical h hc fun c hc => by simp (maxDischargeDepth := 60) [hc]

theorem execSweepEnd_canonical {s s' : State} (hc : s.chip.canonical) (t : Stamp) (h : execSweepEnd t s = .next s') :
    s'.chip.canonical :=
  runIf_canonical h hc fun c hc => by
    dsimp only
    split <;> simp (maxDischargeDepth := 60) [hc]

theorem execHeadFrameStart_canonical {s s' : State} (hc : s.chip.canonical) (t : Stamp) (h : Nat) (drift : Int)
    (bad : List Nat) (h : execHeadFrameStart t h drift bad s = .next s') :
    s'.chip.canonical :=
  runIf_canonical h hc fun c hc => by simp (maxDischargeDepth := 60) [hc]

theorem execTileFetchComplete_canonical {s s' : State} (hc : s.chip.canonical) (t : Stamp) (h tx ty : Nat) (e : Option Nat)
    (fault : Bool) (h : execTileFetchComplete t h tx ty e fault s = .next s') :
    s'.chip.canonical :=
  runIf_canonical h hc fun c hc => by
    dsimp only
    (repeat' split) <;> simp (maxDischargeDepth := 60) [hc]

theorem execHeadLineStart_canonical {s s' : State} (hc : s.chip.canonical) (t : Stamp) (h n : Nat)
    (h : execHeadLineStart t h n s = .next s') :
    s'.chip.canonical :=
  runIf_canonical h hc fun c hc => by simp (maxDischargeDepth := 60) [hc]

theorem execFlySheetPanic_canonical {s s' : State} (hc : s.chip.canonical) (t : Stamp) (h : Nat)
    (h : execFlySheetPanic t h s = .next s') :
    s'.chip.canonical :=
  runIf_canonical h hc fun c hc => by simp (maxDischargeDepth := 60) [hc]

theorem execSigxReceive_canonical {s s' : State} (hc : s.chip.canonical) (t : Stamp) (msg : List Byte)
    (h : execSigxReceive t msg s = .next s') :
    s'.chip.canonical :=
  runIf_canonical h hc fun c hc => by simp (maxDischargeDepth := 60) [hc]

theorem execHeadFrameDone_canonical {s s' : State} (hc : s.chip.canonical) (t : Stamp) (h : Nat) (dsc : List Byte)
    (wb : Nat) (h : execHeadFrameDone t h dsc wb s = .next s') :
    s'.chip.canonical :=
  runIf_canonical h hc fun c hc => by
    dsimp only
    (repeat' split) <;> simp (maxDischargeDepth := 60) [hc]

theorem execWriteRegister_canonical {s s' : State} (hc : s.chip.canonical) (t : Stamp) (src : Source) (hart addr : Nat)
    (data : List Byte) (h : execWriteRegister t src hart addr data s = .next s') : s'.chip.canonical := by
  unfold execWriteRegister at h
  exact runIf_canonical h hc fun c hc => by simp (maxDischargeDepth := 60) [hc]

theorem execSnap_canonical {s s' : State} (hc : s.chip.canonical) (t : Stamp) (src : Source) (addr : Nat)
    (h : execSnap t src addr s = .next s') :
    s'.chip.canonical :=
  runIf_canonical h hc fun c hc => by simp (maxDischargeDepth := 60) [hc]

theorem execClearRefusalRecord_canonical {s s' : State} (hc : s.chip.canonical) (t : Stamp)
    (h : execClearRefusalRecord t s = .next s') :
    s'.chip.canonical :=
  runIf_canonical h hc fun c hc => by simp (maxDischargeDepth := 60) [hc]

theorem execClearDroppedWriteRecord_canonical {s s' : State} (hc : s.chip.canonical) (t : Stamp)
    (h : execClearDroppedWriteRecord t s = .next s') :
    s'.chip.canonical :=
  runIf_canonical h hc fun c hc => by simp (maxDischargeDepth := 60) [hc]

theorem execMemoryRequest_canonical {s s' : State} (hc : s.chip.canonical) (t : Stamp) (a : Access)
    (h : execMemoryRequest t a s = .next s') :
    s'.chip.canonical :=
  runIf_canonical h hc fun c hc => by simp (maxDischargeDepth := 60) [hc]

theorem execMgtRead_canonical {s s' : State} (hc : s.chip.canonical) (t : Stamp) (msg : List Byte) (saddr sport : Nat)
    (h : execMgtRead t msg saddr sport s = .next s') :
    s'.chip.canonical :=
  runIf_canonical h hc fun c hc => by simp (maxDischargeDepth := 60) [hc]

theorem execMgtWrite_canonical {s s' : State} (hc : s.chip.canonical) (t : Stamp) (msg : List Byte) (saddr sport : Nat)
    (h : execMgtWrite t msg saddr sport s = .next s') :
    s'.chip.canonical :=
  runIf_canonical h hc fun c hc => by simp (maxDischargeDepth := 60) [hc]

theorem execMgtRecall_canonical {s s' : State} (hc : s.chip.canonical) (t : Stamp) (msg : List Byte) (saddr sport : Nat)
    (h : execMgtRecall t msg saddr sport s = .next s') :
    s'.chip.canonical :=
  runIf_canonical h hc fun c hc => by simp (maxDischargeDepth := 60) [hc]

theorem execMgtPreset_canonical {s s' : State} (hc : s.chip.canonical) (t : Stamp) (msg : List Byte) (saddr sport : Nat)
    (h : execMgtPreset t msg saddr sport s = .next s') :
    s'.chip.canonical :=
  runIf_canonical h hc fun c hc => by simp (maxDischargeDepth := 60) [hc]

theorem execSmbBlockWrite_canonical {s s' : State} (hc : s.chip.canonical) (t : Stamp) (adr ofs : Nat) (data : Word)
    (pec : Bool) (h : execSmbBlockWrite t adr ofs data pec s = .next s') :
    s'.chip.canonical :=
  runIf_canonical h hc fun c hc => by simp +contextual (maxDischargeDepth := 60) [hc]

theorem execSmbSetPointer_canonical {s s' : State} (hc : s.chip.canonical) (t : Stamp) (adr ofs : Nat) (pec : Bool)
    (h : execSmbSetPointer t adr ofs pec s = .next s') :
    s'.chip.canonical :=
  runIf_canonical h hc fun c hc => by simp +contextual (maxDischargeDepth := 60) [hc]

theorem execSmbBlockRead_canonical {s s' : State} (hc : s.chip.canonical) (t : Stamp) (adr : Nat) (pec : Bool)
    (h : execSmbBlockRead t adr pec s = .next s') :
    s'.chip.canonical :=
  runIf_canonical h hc fun c hc => by simp +contextual (maxDischargeDepth := 60) [hc]

theorem execWatchdogSignal_canonical {s s' : State} (hc : s.chip.canonical) (t : Stamp) (hart : Nat)
    (h : execWatchdogSignal t hart s = .next s') :
    s'.chip.canonical :=
  runIf_canonical h hc fun c hc => by simp (maxDischargeDepth := 60) [hc]

theorem execWatchdogExpire_canonical {s s' : State} (hc : s.chip.canonical) (t : Stamp) (hart : Nat)
    (h : execWatchdogExpire t hart s = .next s') :
    s'.chip.canonical :=
  runIf_canonical h hc fun c hc => by
    dsimp only
    (repeat' split) <;> simp (maxDischargeDepth := 60) [hc]

theorem execHealthCheck_canonical {s s' : State} (hc : s.chip.canonical) (t : Stamp) (limits : List (Nat × Int × Int))
    (h : execHealthCheck t limits s = .next s') :
    s'.chip.canonical :=
  runIf_canonical h hc fun c hc => by
    simp only []
    (repeat' split) <;> simp +contextual (maxDischargeDepth := 60) [hc]

theorem execMonitorRefresh_canonical {s s' : State} (hc : s.chip.canonical) (t : Stamp) (slacks : List Nat)
    (temps : List Int) (rails : List (Nat × Nat)) (h : execMonitorRefresh t slacks temps rails s = .next s') :
    s'.chip.canonical :=
  runIf_canonical h hc fun c hc => by simp +contextual (maxDischargeDepth := 60) [hc]

theorem execRoMeasure_canonical {s s' : State} (hc : s.chip.canonical) (t : Stamp) (counts : List (Nat × Nat))
    (h : execRoMeasure t counts s = .next s') :
    s'.chip.canonical :=
  runIf_canonical h hc fun c hc => by simp +contextual (maxDischargeDepth := 60) [hc]

theorem execAvsStep_canonical {s s' : State} (hc : s.chip.canonical) (t : Stamp) (slack : Nat)
    (h : execAvsStep t slack s = .next s') :
    s'.chip.canonical :=
  runIf_canonical h hc fun c hc => by simp (maxDischargeDepth := 60) [hc]

theorem execAvsFloorTimeout_canonical {s s' : State} (hc : s.chip.canonical) (t : Stamp) (h : execAvsFloorTimeout t s = .next s') :
    s'.chip.canonical :=
  runIf_canonical h hc fun c hc => by
    dsimp only
    split <;> simp (maxDischargeDepth := 60) [hc]

theorem execDramMarginSweep_canonical {s s' : State} (hc : s.chip.canonical) (t : Stamp) (n : Nat)
    (rd wr rv wv : List (List Nat)) (h : execDramMarginSweep t n rd wr rv wv s = .next s') :
    s'.chip.canonical :=
  runIf_canonical h hc fun c hc => by simp (maxDischargeDepth := 60) [hc]

theorem execEyeMeasure_canonical {s s' : State} (hc : s.chip.canonical) (t : Stamp) (l height width : Nat)
    (near : Option (Nat × Nat)) (h : execEyeMeasure t l height width near s = .next s') :
    s'.chip.canonical :=
  runIf_canonical h hc fun c hc => by simp (maxDischargeDepth := 60) [hc]

theorem execPlan_canonical {s s' : State} (hc : s.chip.canonical) (t : Stamp) (h : execPlan t s = .next s') :
    s'.chip.canonical :=
  runIf_canonical h hc fun c hc => by
    dsimp only
    (repeat' split) <;> simp (maxDischargeDepth := 60) [hc]

theorem execRemeasureDone_canonical {s s' : State} (hc : s.chip.canonical) (t : Stamp) (id : Nat) (margin : Int)
    (h : execRemeasureDone t id margin s = .next s') :
    s'.chip.canonical :=
  runIf_canonical h hc fun c hc => by
    dsimp only
    split <;> simp (maxDischargeDepth := 60) [hc]

theorem execPowerOnHoldEnd_canonical {s s' : State} (hc : s.chip.canonical) (t : Stamp) (side : Nat)
    (rails : List (Nat × Nat)) (h : execPowerOnHoldEnd t side rails s = .next s') :
    s'.chip.canonical :=
  runIf_canonical h hc fun c hc => by simp (maxDischargeDepth := 60) [hc]

theorem execResetNLow_canonical {s s' : State} (hc : s.chip.canonical) (t : Stamp) (h : execResetNLow t s = .next s') :
    s'.chip.canonical :=
  runIf_canonical h hc fun c hc => by simp (maxDischargeDepth := 60) [hc]

theorem execResetNRelease_canonical {s s' : State} (hc : s.chip.canonical) (t : Stamp) (side : Nat)
    (h : execResetNRelease t side s = .next s') :
    s'.chip.canonical :=
  runIf_canonical h hc fun c hc => by simp (maxDischargeDepth := 60) [hc]

theorem execBootRomStart_canonical {s s' : State} (hc : s.chip.canonical) (t : Stamp) (link : Bool) (fuses : Fuses)
    (slotA slotB : FlashImage) (h : execBootRomStart t link fuses slotA slotB s = .next s') :
    s'.chip.canonical :=
  runIf_canonical h hc fun c hc => by
    dsimp only
    (repeat' split) <;> simp (maxDischargeDepth := 60) [hc]

theorem execBaseFirmwareStart_canonical {s s' : State} (hc : s.chip.canonical) (t checked : Stamp) (slotB : FlashImage)
    (h : execBaseFirmwareStart t checked slotB s = .next s') : s'.chip.canonical :=
  runIf_canonical h hc fun _ hc => Chip.canonical_ite (hc.at t) <|
    Chip.canonical_ite (((hc.at checked).runCheck slotB).at t) <|
    Chip.canonical.showStep <| Chip.canonical.withPitch
      ((((((hc.at checked).runCheck slotB).stepEnd 2).setFld _ _ _ _).at t).runApply.stepEnd 3) _

theorem execTrainDone_canonical {s s' : State} (hc : s.chip.canonical) (t : Stamp) (bad : List (Nat × Nat))
    (trims : List (Nat × Nat × Word)) (loaded : Stamp) (h : execTrainDone t bad trims loaded s = .next s') :
    s'.chip.canonical :=
  runIf_canonical h hc fun c hc => by
    dsimp only
    (repeat' split) <;> simp (maxDischargeDepth := 60) [hc]

theorem execTimeSet_canonical {s s' : State} (hc : s.chip.canonical) (t : Stamp) (h : execTimeSet t s = .next s') :
    s'.chip.canonical :=
  runIf_canonical h hc fun c hc => by simp (maxDischargeDepth := 60) [hc]

theorem execMasterCounterReload_canonical {s s' : State} (hc : s.chip.canonical) (t : Stamp)
    (h : execMasterCounterReload t s = .next s') :
    s'.chip.canonical :=
  runIf_canonical h hc fun c hc => by
    dsimp only
    (repeat' split) <;> simp (maxDischargeDepth := 60) [hc]

theorem execHeadsStart_canonical {s s' : State} (hc : s.chip.canonical) (t : Stamp) (harts : List Nat)
    (h : execHeadsStart t harts s = .next s') :
    s'.chip.canonical :=
  runIf_canonical h hc fun c hc => by simp +contextual (maxDischargeDepth := 60) [hc]

theorem execCaminitDone_canonical {s s' : State} (hc : s.chip.canonical) (t : Stamp) (p done : Nat) (refused : Bool)
    (h : execCaminitDone t p done refused s = .next s') :
    s'.chip.canonical :=
  runIf_canonical h hc fun c hc => by simp (maxDischargeDepth := 60) [hc]

theorem execSealPart_canonical {s s' : State} (hc : s.chip.canonical) (t : Stamp) (h : execSealPart t s = .next s') :
    s'.chip.canonical :=
  runIf_canonical h hc fun c hc => by simp (maxDischargeDepth := 60) [hc]

/-- Every command keeps the canonical form. -/
theorem exec_canonical {i : Instr} {s s' : State} (hc : s.chip.canonical) (h : exec i s = .next s') : s'.chip.canonical := by
  cases i
  case writeRegister => exact execWriteRegister_canonical hc _ _ _ _ _ h
  case snap => exact execSnap_canonical hc _ _ _ h
  case clearRefusalRecord => exact execClearRefusalRecord_canonical hc _ h
  case clearDroppedWriteRecord => exact execClearDroppedWriteRecord_canonical hc _ h
  case clearViolationRecord => exact execClearViolationRecord_canonical hc _ _ h
  case acknowledge => exact execAcknowledge_canonical hc _ _ h
  case powerOnHoldEnd => exact execPowerOnHoldEnd_canonical hc _ _ _ h
  case resetNLow => exact execResetNLow_canonical hc _ h
  case resetNRelease => exact execResetNRelease_canonical hc _ _ h
  case bootRomStart => exact execBootRomStart_canonical hc _ _ _ _ _ h
  case baseFirmwareStart => exact execBaseFirmwareStart_canonical hc _ _ _ h
  case trainDone => exact execTrainDone_canonical hc _ _ _ _ h
  case timeSet => exact execTimeSet_canonical hc _ h
  case masterCounterReload => exact execMasterCounterReload_canonical hc _ h
  case headsStart => exact execHeadsStart_canonical hc _ _ h
  case caminitDone => exact execCaminitDone_canonical hc _ _ _ _ h
  case sealPart => exact execSealPart_canonical hc _ h
  case d2dLinkDown => exact execD2dLinkDown_canonical hc _ h
  case d2dLinkRetrained => exact execD2dLinkRetrained_canonical hc _ h
  case d2dFlitReplay => exact execD2dFlitReplay_canonical hc _ h
  case timeBusFullStamp => exact execTimeBusFullStamp_canonical hc _ _ h
  case watchTapTimeout => exact execWatchTapTimeout_canonical hc _ _ h
  case headFrameStart => exact execHeadFrameStart_canonical hc _ _ _ _ h
  case elementStateMiss => exact execElementStateMiss_canonical hc _ _ _ h
  case headLineStart => exact execHeadLineStart_canonical hc _ _ _ h
  case tileFetchComplete => exact execTileFetchComplete_canonical hc _ _ _ _ _ _ h
  case headFrameDone => exact execHeadFrameDone_canonical hc _ _ _ _ h
  case headEnableWrite => exact execHeadEnableWrite_canonical hc _ _ _ h
  case frameBegin => exact execFrameBegin_canonical hc _ _ _ h
  case frameFinish => exact execFrameFinish_canonical hc _ _ _ _ _ _ _ _ _ h
  case refEvaluation => exact execRefEvaluation_canonical hc _ _ h
  case qualificationComplete => exact execQualificationComplete_canonical hc _ _ h
  case wtrExpire => exact execWtrExpire_canonical hc _ _ h
  case lockTimeElapsed => exact execLockTimeElapsed_canonical hc _ h
  case dwellEnd => exact execDwellEnd_canonical hc _ h
  case holdoverSecond => exact execHoldoverSecond_canonical hc _ h
  case serdesLoopLockLoss => exact execSerdesLoopLockLoss_canonical hc _ _ h
  case force => exact execForce_canonical hc _ _ _ h
  case release => exact execRelease_canonical hc _ _ _ h
  case skipWtr => exact execSkipWtr_canonical hc _ _ _ h
  case ppsEdge => exact execPpsEdge_canonical hc _ _ _ h
  case ppsTimeout => exact execPpsTimeout_canonical hc _ _ h
  case activityGap => exact execActivityGap_canonical hc _ _ h
  case gnssSentence => exact execGnssSentence_canonical hc _ _ _ h
  case ptpMessageReceive => exact execPtpMessageReceive_canonical hc _ _ _ h
  case announceTimeout => exact execAnnounceTimeout_canonical hc _ _ h
  case submit => exact execSubmit_canonical hc _ _ _ h
  case groupCheckDone => exact execGroupCheckDone_canonical hc _ h
  case pegCancel => exact execPegCancel_canonical hc _ _ _ _ h
  case pegArm => exact execPegArm_canonical hc _ _ h
  case pegImmediateFire => exact execPegImmediateFire_canonical hc _ _ _ h
  case pegExpire => exact execPegExpire_canonical hc _ _ h
  case ethFrameReceive => exact execEthFrameReceive_canonical hc _ _ h
  case heldPacketExpire => exact execHeldPacketExpire_canonical hc _ h
  case senderAgeOut => exact execSenderAgeOut_canonical hc _ _ h
  case frameSkewTimeout => exact execFrameSkewTimeout_canonical hc _ _ _ h
  case framePacketTimeout => exact execFramePacketTimeout_canonical hc _ _ _ h
  case legSilenceTimeout => exact execLegSilenceTimeout_canonical hc _ _ _ h
  case senderReportLapse => exact execSenderReportLapse_canonical hc _ _ h
  case subportLinkChange => exact execSubportLinkChange_canonical hc _ _ _ _ h
  case packetRelease => exact execPacketRelease_canonical hc _ _ h
  case claimHeartbeatSend => exact execClaimHeartbeatSend_canonical hc _ h
  case senderReportSend => exact execSenderReportSend_canonical hc _ h
  case pictureJobBuild => exact execPictureJobBuild_canonical hc _ _ _ h
  case engineJobStart => exact execEngineJobStart_canonical hc _ _ _ h
  case engineJobEnd => exact execEngineJobEnd_canonical hc _ _ _ _ h
  case bucketTake => exact execBucketTake_canonical hc _ _ _ h
  case arm => exact execArm_canonical hc _ _ _ h
  case cameraFrameStart => exact execCameraFrameStart_canonical hc _ _ _ h
  case cciWritesDone => exact execCciWritesDone_canonical hc _ _ _ _ h
  case cciWindowExpire => exact execCciWindowExpire_canonical hc _ _ _ h
  case embeddedDataReceive => exact execEmbeddedDataReceive_canonical hc _ _ _ _ _ _ h
  case csiLineReceive => exact execCsiLineReceive_canonical hc _ _ _ h
  case cameraFrameEnd => exact execCameraFrameEnd_canonical hc _ _ _ h
  case cameraFrameTimeout => exact execCameraFrameTimeout_canonical hc _ _ h
  case cameraOutputFinish => exact execCameraOutputFinish_canonical hc _ _ _ h
  case cameraSilenceTimeout => exact execCameraSilenceTimeout_canonical hc _ _ h
  case fsyncPulse => exact execFsyncPulse_canonical hc _ _ h
  case captureFrameBegin => exact execCaptureFrameBegin_canonical hc _ _ _ _ _ _ h
  case captureFrameEnd => exact execCaptureFrameEnd_canonical hc _ _ h
  case captureLinkChange => exact execCaptureLinkChange_canonical hc _ _ _ _ _ _ h
  case captureAuxRequest => exact execCaptureAuxRequest_canonical hc _ _ _ h
  case pointFrameProcess => exact execPointFrameProcess_canonical hc _ _ h
  case feederResyncTimeout => exact execFeederResyncTimeout_canonical hc _ _ h
  case sweepStart => exact execSweepStart_canonical hc _ h
  case sweepEnd => exact execSweepEnd_canonical hc _ h
  case start => exact execStart_canonical hc _ _ _ h
  case finish => exact execFinish_canonical hc _ _ _ h
  case resetAlive => exact execResetAlive_canonical hc _ _ _ h
  case feedByte => exact execFeedByte_canonical hc _ _ _ _ h
  case feedHalfWord => exact execFeedHalfWord_canonical hc _ _ _ _ h
  case feedWord => exact execFeedWord_canonical hc _ _ _ _ h
  case chkCfgWrite => exact execChkCfgWrite_canonical hc _ _ _ _ h
  case glyphMiss => exact execGlyphMiss_canonical hc _ _ _ h
  case commitRequest => exact execCommitRequest_canonical hc _ _ _ h
  case commitCancel => exact execCommitCancel_canonical hc _ _ _ h
  case hpdHighDebounce => exact execHpdHighDebounce_canonical hc _ _ _ _ _ h
  case dpTrainingDone => exact execDpTrainingDone_canonical hc _ _ _ _ h
  case irqHpd => exact execIrqHpd_canonical hc _ _ _ _ h
  case hpdLowTimeout => exact execHpdLowTimeout_canonical hc _ _ h
  case dpRetryTimeout => exact execDpRetryTimeout_canonical hc _ _ h
  case retrain => exact execRetrain_canonical hc _ _ _ h
  case scanFrameStart => exact execScanFrameStart_canonical hc _ _ h
  case scanFrameEnd => exact execScanFrameEnd_canonical hc _ _ _ h
  case frequencyHop => exact execFrequencyHop_canonical hc _ _ h
  case noiseTimeout => exact execNoiseTimeout_canonical hc _ _ h
  case longTouch => exact execLongTouch_canonical hc _ _ _ h
  case calibrationDone => exact execCalibrationDone_canonical hc _ _ h
  case selftest => exact execSelftest_canonical hc _ _ _ h
  case selftestDone => exact execSelftestDone_canonical hc _ _ h
  case recal => exact execRecal_canonical hc _ _ _ h
  case driveRailChange => exact execDriveRailChange_canonical hc _ _ _ h
  case touchReportWrite => exact execTouchReportWrite_canonical hc _ h
  case pointerHoldExpire => exact execPointerHoldExpire_canonical hc _ _ h
  case bolLinkChange => exact execBolLinkChange_canonical hc _ _ h
  case flitReceive => exact execFlitReceive_canonical hc _ _ h
  case nakReceive => exact execNakReceive_canonical hc _ _ h
  case tick => exact execTick_canonical hc _ h
  case splitTimeout => exact execSplitTimeout_canonical hc _ h
  case heartbeatReceive => exact execHeartbeatReceive_canonical hc _ _ h
  case noticeReceive => exact execNoticeReceive_canonical hc _ _ h
  case noticeLostwaitExpire => exact execNoticeLostwaitExpire_canonical hc _ _ _ h
  case frameEligible => exact execFrameEligible_canonical hc _ _ _ h
  case mirrorReceive => exact execMirrorReceive_canonical hc _ _ _ h
  case mirrorApply => exact execMirrorApply_canonical hc _ _ h
  case recordReceive => exact execRecordReceive_canonical hc _ _ h
  case sigxReceive => exact execSigxReceive_canonical hc _ _ h
  case seqReceive => exact execSeqReceive_canonical hc _ _ h
  case timeExchangeStart => exact execTimeExchangeStart_canonical hc _ _ h
  case timeRequestReceive => exact execTimeRequestReceive_canonical hc _ _ _ h
  case timeReplyReceive => exact execTimeReplyReceive_canonical hc _ _ h
  case yield => exact execYield_canonical hc _ _ h
  case memoryRequest => exact execMemoryRequest_canonical hc _ _ h
  case memoryReadComplete => exact execMemoryReadComplete_canonical hc _ _ _ h
  case refreshDue => exact execRefreshDue_canonical hc _ _ _ h
  case mr4Poll => exact execMr4Poll_canonical hc _ _ _ h
  case scrubRead => exact execScrubRead_canonical hc _ _ _ _ h
  case holdTimeout => exact execHoldTimeout_canonical hc _ h
  case budgetOverrun => exact execBudgetOverrun_canonical hc _ _ h
  case oscTrackRead => exact execOscTrackRead_canonical hc _ _ _ h
  case trainingRun => exact execTrainingRun_canonical hc _ _ _ h
  case trainingStop => exact execTrainingStop_canonical hc _ _ _ _ h
  case trainingRunDone => exact execTrainingRunDone_canonical hc _ _ _ h
  case trimWriteApply => exact execTrimWriteApply_canonical hc _ _ h
  case apply => exact execApply_canonical hc _ _ _ h
  case applyTags => exact execApplyTags_canonical hc _ _ h
  case accessDrainComplete => exact execAccessDrainComplete_canonical hc _ _ h
  case tagCopyDone => exact execTagCopyDone_canonical hc _ h
  case recallLayout => exact execRecallLayout_canonical hc _ _ _ h
  case preset => exact execPreset_canonical hc _ _ _ h
  case policyAction => exact execPolicyAction_canonical hc _ h
  case eventRecordWrite => exact execEventRecordWrite_canonical hc _ h
  case rateLimitWindowEnd => exact execRateLimitWindowEnd_canonical hc _ _ _ h
  case mgtRead => exact execMgtRead_canonical hc _ _ _ _ h
  case mgtWrite => exact execMgtWrite_canonical hc _ _ _ _ h
  case mgtRecall => exact execMgtRecall_canonical hc _ _ _ _ h
  case mgtPreset => exact execMgtPreset_canonical hc _ _ _ _ h
  case smbBlockWrite => exact execSmbBlockWrite_canonical hc _ _ _ _ _ h
  case smbSetPointer => exact execSmbSetPointer_canonical hc _ _ _ _ h
  case smbBlockRead => exact execSmbBlockRead_canonical hc _ _ _ h
  case watchdogSignal => exact execWatchdogSignal_canonical hc _ _ h
  case watchdogExpire => exact execWatchdogExpire_canonical hc _ _ h
  case healthCheck => exact execHealthCheck_canonical hc _ _ h
  case monitorRefresh => exact execMonitorRefresh_canonical hc _ _ _ _ h
  case roMeasure => exact execRoMeasure_canonical hc _ _ h
  case avsStep => exact execAvsStep_canonical hc _ _ h
  case avsFloorTimeout => exact execAvsFloorTimeout_canonical hc _ h
  case dramMarginSweep => exact execDramMarginSweep_canonical hc _ _ _ _ _ _ h
  case eyeMeasure => exact execEyeMeasure_canonical hc _ _ _ _ _ h
  case plan => exact execPlan_canonical hc _ h
  case remeasureDone => exact execRemeasureDone_canonical hc _ _ _ h
  case flySheetPanic => exact execFlySheetPanic_canonical hc _ _ h
  case captureLineReceive => exact execCaptureLineReceive_canonical hc _ _ _ _ h

/-- Settles O4: every operation of the part writes its maps through `mapPut` and `memWrite`, which keep the canonical form; so does
every command, and the idle cycle. -/
theorem everyStepKeepsTheCanonicalForm : Obligations.EveryStepKeepsTheCanonicalForm := by
  unfold Obligations.EveryStepKeepsTheCanonicalForm
  intro s t hc h
  cases queue : s.pending with
  | nil =>
    rw [step_nil queue] at h
    have idled : { s with chip := s.chip.idle } = t := by simpa using h
    exact idled ▸ hc.idle
  | cons i rest =>
    rw [step_cons queue] at h
    exact exec_canonical (s := { s with pending := rest }) hc h

end Sys2Proof.Machine

/-! # The layer on which the remaining statements rest

Which registers an update writes is asked of the register file alone: `regsSame l r r'` says that two register files agree on every
register outside the list `l`, and every shared update of the part leaves that relation as it is when what it writes is in `l`. -/

namespace Sys2Proof.Machine

/-- A command whose answer is known, and what holds of that. -/
theorem answers_exec {i : Instr} {s : State} {P : Chip → Prop} {c : Chip} (h : exec i s = .next { s with chip := c }) (hP : P c) :
    Answers i s P := ⟨_, h, rfl, hP⟩

theorem gives_exec {i : Instr} {s : State} {c c1 : Chip} (h : exec i s = .next { s with chip := c1 }) (hc : c1 = c) : Gives i s c := by
  rw [Gives, h, hc]

/-- Two register files agree on every register outside a list. -/
def regsSame (l : List Nat) (r r' : List (Nat × Word)) : Prop := ∀ a : Nat, a ∉ l → mapGet resetWord r' a = mapGet resetWord r a

section
variable {l : List Nat} {r r1 r2 : List (Nat × Word)}

@[simp] theorem regsSame.refl : regsSame l r r := fun _ _ => rfl

theorem regsSame.symm (h : regsSame l r r1) : regsSame l r1 r := fun a ha => (h a ha).symm

theorem regsSame.trans (h1 : regsSame l r r1) (h2 : regsSame l r1 r2) : regsSame l r r2 := fun a ha => (h2 a ha).trans (h1 a ha)

/-- A step that writes registers of the list alone can be left out of a comparison. -/
theorem regsSame.peel (h : regsSame l r1 r2) : regsSame l r r2 ↔ regsSame l r r1 := ⟨fun h2 => h2.trans h.symm, fun h1 => h1.trans h⟩

theorem regsSame.mono {l2 : List Nat} (h : regsSame l r r1) (hl : ∀ a ∈ l, a ∈ l2) : regsSame l2 r r1 :=
  fun a ha => h a (fun hm => ha (hl a hm))

/-- Every register outside the list reads as before. -/
theorem regsSame.reg {c c1 : Chip} (h : regsSame l c.regs c1.regs) {a : Nat} (ha : a ∉ l) : c1.reg a = c.reg a := h a ha

theorem regsSame.fld {c c1 : Chip} (h : regsSame l c.regs c1.regs) {a : Nat} (ha : a ∉ l) (hi lo : Nat) : c1.fld a hi lo = c.fld a hi lo :=
  Chip.fld_of_reg (h.reg ha) hi lo

theorem regsSame.bit {c c1 : Chip} (h : regsSame l c.regs c1.regs) {a : Nat} (ha : a ∉ l) (i : Nat) : c1.bit a i = c.bit a i :=
  Chip.bit_of_reg (h.reg ha) i

end

/-- What is written, said of the register file and of the two memories apart. -/
theorem Chip.writesOnly_iff {c c1 : Chip} {l : List Nat} : c.writesOnly c1 l ↔ regsSame l c.regs c1.regs ∧
    (∀ o, mapGet dramDefault c1.dram o = mapGet dramDefault c.dram o) ∧ (∀ o, mapGet tbwDefault c1.tbw o = mapGet tbwDefault c.tbw o) :=
  Iff.rfl

theorem Chip.regsOnly_iff {c c1 : Chip} {l : List Nat} : c.regsOnly c1 l ↔ regsSame l c.regs c1.regs := Iff.rfl

theorem Chip.writesOnly_of {c c1 : Chip} {l : List Nat} (hr : regsSame l c.regs c1.regs) (hd : c1.dram = c.dram) (ht : c1.tbw = c.tbw) :
    c.writesOnly c1 l := ⟨hr, fun _ => by rw [hd], fun _ => by rw [ht]⟩

/-! ### The shared updates leave the comparison as it is -/

section
variable {l : List Nat} {r : List (Nat × Word)} {c : Chip}

theorem regsSame_setReg {a : Nat} (ha : a ∈ l) (w : Word) : regsSame l c.regs (c.setReg a w).regs :=
  fun _ hb => mapGet_put_other _ _ _ (fun e => hb (e ▸ ha))

@[simp] theorem regsSame_setReg_iff {a : Nat} (ha : a ∈ l) (w : Word) : regsSame l r (c.setReg a w).regs ↔ regsSame l r c.regs :=
  (regsSame_setReg ha w).peel

@[simp] theorem regsSame_setFld_iff {a : Nat} (ha : a ∈ l) (hi lo v : Nat) :
    regsSame l r (c.setFld a hi lo v).regs ↔ regsSame l r c.regs := regsSame_setReg_iff ha _

@[simp] theorem regsSame_setNat_iff {a : Nat} (ha : a ∈ l) (v : Nat) : regsSame l r (c.setNat a v).regs ↔ regsSame l r c.regs :=
  regsSame_setReg_iff ha _

@[simp] theorem regsSame_setWide_iff {lo hi : Nat} (h1 : lo ∈ l) (h2 : hi ∈ l) (v : Nat) :
    regsSame l r (c.setWide lo hi v).regs ↔ regsSame l r c.regs := by simp only [Chip.setWide, regsSame_setNat_iff h1, regsSame_setNat_iff h2]

@[simp] theorem regsSame_addFld_iff {a : Nat} (ha : a ∈ l) (hi lo n : Nat) :
    regsSame l r (c.addFld a hi lo n).regs ↔ regsSame l r c.regs := regsSame_setReg_iff ha _

@[simp] theorem regsSame_bump_iff {a : Nat} (ha : a ∈ l) : regsSame l r (c.bump a).regs ↔ regsSame l r c.regs := regsSame_setReg_iff ha _

@[simp] theorem regsSame_bumpBy_iff {a : Nat} (ha : a ∈ l) (n : Nat) : regsSame l r (c.bumpBy a n).regs ↔ regsSame l r c.regs :=
  regsSame_setReg_iff ha _

@[simp] theorem regsSame_publish_iff {a : Nat} (ha : a ∈ l) : regsSame l r (c.publish a).regs ↔ regsSame l r c.regs := by
  simp only [Chip.publish, regsSame_setFld_iff ha]

@[simp] theorem regsSame_unpublish_iff {a : Nat} (ha : a ∈ l) : regsSame l r (c.unpublish a).regs ↔ regsSame l r c.regs :=
  regsSame_setReg_iff ha _

@[simp] theorem regsSame_syncBacklog_iff (ha : R.evjStat ∈ l) : regsSame l r c.syncBacklog.regs ↔ regsSame l r c.regs :=
  regsSame_setReg_iff ha _

@[simp] theorem regsSame_dropEvent_iff (ha : R.evjCnt 1 ∈ l) (code : Nat) : regsSame l r (c.dropEvent code).regs ↔ regsSame l r c.regs :=
  regsSame_bump_iff ha

@[simp] theorem regsSame_raise_iff (h1 : R.evjStat ∈ l) (h2 : R.evjCnt 1 ∈ l) (e : Ev) :
    regsSame l r (c.raise e).regs ↔ regsSame l r c.regs := by
  unfold Chip.raise
  split
  · simp [h1]
  · simp [h2]

@[simp] theorem regsSame_event_iff (h1 : R.evjStat ∈ l) (h2 : R.evjCnt 1 ∈ l) (code : Nat) (p : FaultAddr) (f : List CField) :
    regsSame l r (c.event code p f).regs ↔ regsSame l r c.regs := regsSame_raise_iff h1 h2 _

@[simp] theorem regsSame_raiseLimitedBy_iff (h1 : R.evjStat ∈ l) (h2 : R.evjCnt 1 ∈ l) (u n : Nat) (e : Ev) :
    regsSame l r (c.raiseLimitedBy u e n).regs ↔ regsSame l r c.regs := by
  unfold Chip.raiseLimitedBy
  simp only []
  split <;> split <;> simp [h1, h2]

@[simp] theorem regsSame_raiseLimited_iff (h1 : R.evjStat ∈ l) (h2 : R.evjCnt 1 ∈ l) (u : Nat) (e : Ev) :
    regsSame l r (c.raiseLimited u e).regs ↔ regsSame l r c.regs := regsSame_raiseLimitedBy_iff h1 h2 u 1 e

@[simp] theorem regsSame_eventLimited_iff (h1 : R.evjStat ∈ l) (h2 : R.evjCnt 1 ∈ l) (u code : Nat) (p : FaultAddr) (f : List CField) :
    regsSame l r (c.eventLimited u code p f).regs ↔ regsSame l r c.regs := regsSame_raiseLimitedBy_iff h1 h2 _ _ _

@[simp] theorem regsSame_eventLimitedLast_iff (h1 : R.evjStat ∈ l) (h2 : R.evjCnt 1 ∈ l) (u code : Nat) (p : FaultAddr) (f : List CField) :
    regsSame l r (c.eventLimitedLast u code p f).regs ↔ regsSame l r c.regs := regsSame_eventLimited_iff h1 h2 u code p f

@[simp] theorem regsSame_refuseBeyond_iff (h1 : R.evjStat ∈ l) (h2 : R.evjCnt 1 ∈ l) (g a n : Nat) :
    regsSame l r (c.refuseBeyond g a n).regs ↔ regsSame l r c.regs := by
  unfold Chip.refuseBeyond
  split <;> simp [h1, h2]

@[simp] theorem regsSame_rateWindowEnd_iff (h1 : R.evjStat ∈ l) (h2 : R.evjCnt 1 ∈ l) (code u : Nat) :
    regsSame l r (c.rateWindowEnd code u).regs ↔ regsSame l r c.regs := by
  unfold Chip.rateWindowEnd
  simp only []
  split
  · split <;> simp [h1, h2]
  · rfl

theorem regsSame_refuse (src : Source) (a : Nat) (w : Word) (cause : Nat) : regsSame (refusalRegs a) c.regs (c.refuse src a w cause).regs :=
  (Chip.writesOnly.refl.refuse (fun _ hb => hb) src w cause).1

@[simp] theorem regsSame_refuse_iff {a : Nat} (h : ∀ b ∈ refusalRegs a, b ∈ l) (src : Source) (w : Word) (cause : Nat) :
    regsSame l r (c.refuse src a w cause).regs ↔ regsSame l r c.regs := ((regsSame_refuse src a w cause).mono h).peel

@[simp] theorem regsSame_dropWrite_iff (h : ∀ b ∈ dropRegs, b ∈ l) (a : Nat) : regsSame l r (c.dropWrite a).regs ↔ regsSame l r c.regs :=
  regsSame.peel (Chip.writesOnly.refl.dropWrite h a).1

@[simp] theorem regsSame_writeFields_iff {a : Nat} (ha : a ∈ l) (h : ∀ b ∈ dropRegs, b ∈ l) (w : Word) :
    regsSame l r (c.writeFields a w).regs ↔ regsSame l r c.regs := by
  unfold Chip.writeFields
  split
  · rfl
  · simp only []
    split
    · rw [regsSame_dropWrite_iff h, regsSame_setReg_iff ha]
    · rw [regsSame_setReg_iff ha]

@[simp] theorem regsSame_netSend_iff {p sub : Nat} (ha : R.netCnt p sub 3 ∈ l) (m : TxMsg) :
    regsSame l r (c.netSend p sub m).regs ↔ regsSame l r c.regs := by
  unfold Chip.netSend
  split <;> simp [ha]

@[simp] theorem regsSame_noteHeads_iff (ha : R.pitTimes 6 ∈ l) : regsSame l r c.noteHeads.regs ↔ regsSame l r c.regs := by
  unfold Chip.noteHeads
  split <;> simp [ha]

/-- A fold over 0, 1, …, `n` − 1 whose every step writes registers of the list alone. -/
theorem regsSame_forN {n : Nat} {f : Nat → Chip → Chip} (hf : ∀ i c1, i < n → regsSame l c1.regs (f i c1).regs) :
    regsSame l c.regs (forN n f c).regs := by
  unfold Machine.forN
  suffices h : ∀ (q : List Nat) (c1 : Chip), (∀ i ∈ q, i < n) → regsSame l c1.regs (q.foldl (fun a i => f i a) c1).regs from
    h _ _ (fun i hi => List.mem_range.mp hi)
  intro q
  induction q with
  | nil => intro _ _; exact regsSame.refl
  | cons x q ih =>
    intro c1 hq
    exact (hf x c1 (hq x List.mem_cons_self)).trans (ih _ (fun i hi => hq i (List.mem_cons_of_mem _ hi)))

/-- A fold over a list whose every step writes registers of the list alone. -/
theorem regsSame_forL {β : Type} {q : List β} {f : β → Chip → Chip} (hf : ∀ x ∈ q, ∀ c1, regsSame l c1.regs (f x c1).regs) :
    regsSame l c.regs (forL q f c).regs := by
  unfold Machine.forL
  induction q generalizing c with
  | nil => exact regsSame.refl
  | cons x q ih => exact (hf x List.mem_cons_self c).trans (ih (fun i hi => hf i (List.mem_cons_of_mem _ hi)))

end

/-- What each step of a fold leaves as it is, the fold does. -/
theorem forN_keeps {α β : Type} (g : α → β) {n : Nat} {f : Nat → α → α} {a : α} (hf : ∀ i x, i < n → g (f i x) = g x) :
    g (forN n f a) = g a := by
  unfold Machine.forN
  suffices h : ∀ (q : List Nat) (x : α), (∀ i ∈ q, i < n) → g (q.foldl (fun a i => f i a) x) = g x from
    h _ _ (fun i hi => List.mem_range.mp hi)
  intro q
  induction q with
  | nil => intro _ _; rfl
  | cons y q ih =>
    intro x hq
    exact (ih _ (fun i hi => hq i (List.mem_cons_of_mem _ hi))).trans (hf y x (hq y List.mem_cons_self))

theorem forL_keeps {α β γ : Type} (g : α → β) {q : List γ} {f : γ → α → α} {a : α} (hf : ∀ y ∈ q, ∀ x, g (f y x) = g x) :
    g (forL q f a) = g a := by
  unfold Machine.forL
  induction q generalizing a with
  | nil => rfl
  | cons y q ih => exact (ih (fun i hi => hf i (List.mem_cons_of_mem _ hi))).trans (hf y List.mem_cons_self a)

/-! ### The lists of registers that reports write -/

@[simp] theorem mem_eventRegs {a : Nat} : a ∈ eventRegs ↔ a = R.evjStat ∨ a = R.evjCnt 1 := by simp [eventRegs]

@[simp] theorem mem_dropRegs {a : Nat} : a ∈ dropRegs ↔ a = R.pitSwrCount ∨ a = R.pitSwr ∨ a = R.evjStat ∨ a = R.evjCnt 1 := by
  simp [dropRegs, eventRegs]

@[simp] theorem mem_refusalRegs {a b : Nat} : b ∈ refusalRegs a ↔ b = R.pitRefcnt (windowOf a) ∨ b = R.pegRefuse ∨ b = R.pitRef ∨
    b = R.pitRefAddr ∨ b = R.pitRefData ∨ b = R.pitRefStampLo ∨ b = R.pitRefStampHi ∨ b = R.evjStat ∨ b = R.evjCnt 1 := by
  simp [refusalRegs, eventRegs]

/-! ### What registers, fields and bits read after an update -/

section
variable (c : Chip)

theorem Chip.setWide_reg (lo hi v b : Nat) : (c.setWide lo hi v).reg b =
    if b = hi then BitVec.ofNat 32 (v / 2 ^ 32) else if b = lo then BitVec.ofNat 32 (v % 2 ^ 32) else c.reg b := by
  simp only [Chip.setWide, Chip.setNat_reg]

theorem Chip.addFld_reg (a hi lo n b : Nat) : (c.addFld a hi lo n).reg b =
    if b = a then putBits (c.reg a) hi lo (satAdd (hi + 1 - lo) (c.fld a hi lo) n) else c.reg b := Chip.setFld_reg c a hi lo _ b

/-- What a 32-bit counter reads after it has advanced. -/
theorem Chip.bumpBy_reg (a n b : Nat) : (c.bumpBy a n).reg b =
    if b = a then BitVec.ofNat 32 (min ((c.reg a).toNat + n) (2 ^ 32 - 1)) else c.reg b := by
  by_cases hb : b = a
  · subst hb
    rw [if_pos rfl, ← BitVec.toNat_inj, Chip.bumpBy_reg_same, BitVec.toNat_ofNat]
    omega
  · rw [if_neg hb, Chip.bumpBy_reg_other _ _ hb]

theorem Chip.bump_reg (a b : Nat) : (c.bump a).reg b =
    if b = a then BitVec.ofNat 32 (min ((c.reg a).toNat + 1) (2 ^ 32 - 1)) else c.reg b := Chip.bumpBy_reg c a 1 b

theorem Chip.fld_zero_one (a hi : Nat) : c.fld a hi hi = if c.bit a hi = true then 1 else 0 := by
  have h := bitsOf_lt (c.reg a) hi hi
  rw [show hi + 1 - hi = 1 by omega] at h
  simp only [Chip.bit, Chip.fld, beq_iff_eq]
  split <;> omega

/-- A field of a register after a write of a field of a register. -/
theorem Chip.setFld_fld_ne {a b : Nat} {hi lo v hi' lo' : Nat} (h' : hi' < 32) (hd : b ≠ a ∨ hi' < lo ∨ hi < lo') :
    (c.setFld a hi lo v).fld b hi' lo' = c.fld b hi' lo' := by
  by_cases hb : b = a
  · subst hb
    exact Chip.setFld_fld_disjoint c b hi lo v hi' lo' h' (by omega)
  · exact Chip.setFld_fld_other c hi lo v hi' lo' hb

theorem Chip.setFld_bit_ne {a b : Nat} {hi lo v i : Nat} (h' : i < 32) (hd : b ≠ a ∨ i < lo ∨ hi < i) :
    (c.setFld a hi lo v).bit b i = c.bit b i := by rw [Chip.bit, Chip.setFld_fld_ne c h' hd, Chip.bit]

theorem Chip.setReg_fld_other {a b : Nat} (w : Word) (h : b ≠ a) (hi lo : Nat) : (c.setReg a w).fld b hi lo = c.fld b hi lo :=
  Chip.fld_of_reg (Chip.setReg_reg_other c w h) hi lo

theorem Chip.setReg_bit_other {a b : Nat} (w : Word) (h : b ≠ a) (i : Nat) : (c.setReg a w).bit b i = c.bit b i :=
  Chip.bit_of_reg (Chip.setReg_reg_other c w h) i

theorem Chip.setNat_fld_other {a b : Nat} (v : Nat) (h : b ≠ a) (hi lo : Nat) : (c.setNat a v).fld b hi lo = c.fld b hi lo :=
  Chip.setReg_fld_other c _ h hi lo

theorem Chip.setNat_bit_other {a b : Nat} (v : Nat) (h : b ≠ a) (i : Nat) : (c.setNat a v).bit b i = c.bit b i :=
  Chip.setReg_bit_other c _ h i

theorem Chip.setWide_fld_other {a b d : Nat} (v : Nat) (h1 : b ≠ a) (h2 : b ≠ d) (hi lo : Nat) :
    (c.setWide a d v).fld b hi lo = c.fld b hi lo := Chip.fld_of_reg (Chip.setWide_reg_other c v h1 h2) hi lo

theorem Chip.setWide_bit_other {a b d : Nat} (v : Nat) (h1 : b ≠ a) (h2 : b ≠ d) (i : Nat) : (c.setWide a d v).bit b i = c.bit b i :=
  Chip.bit_of_reg (Chip.setWide_reg_other c v h1 h2) i

theorem Chip.bump_fld_other {a b : Nat} (h : b ≠ a) (hi lo : Nat) : (c.bump a).fld b hi lo = c.fld b hi lo :=
  Chip.fld_of_reg (Chip.bump_reg_other c h) hi lo

theorem Chip.bump_bit_other {a b : Nat} (h : b ≠ a) (i : Nat) : (c.bump a).bit b i = c.bit b i :=
  Chip.bit_of_reg (Chip.bump_reg_other c h) i

theorem Chip.event_fld_other {b : Nat} (h1 : b ≠ R.evjStat) (h2 : b ≠ R.evjCnt 1) (code : Nat) (p : FaultAddr) (f : List CField)
    (hi lo : Nat) : (c.event code p f).fld b hi lo = c.fld b hi lo := Chip.fld_of_reg (Chip.event_reg c code p f h1 h2) hi lo

theorem Chip.event_bit_other {b : Nat} (h1 : b ≠ R.evjStat) (h2 : b ≠ R.evjCnt 1) (code : Nat) (p : FaultAddr) (f : List CField)
    (i : Nat) : (c.event code p f).bit b i = c.bit b i := Chip.bit_of_reg (Chip.event_reg c code p f h1 h2) i

theorem Chip.raise_fld_ne (e : Ev) {b : Nat} (h1 : b ≠ R.evjStat) (h2 : b ≠ R.evjCnt 1) (hi lo : Nat) :
    (c.raise e).fld b hi lo = c.fld b hi lo := Chip.fld_of_reg (Chip.raise_reg c e h1 h2) hi lo

end

/-! ### Events -/

/-- An event joins the watch cores' queue where that has room. -/
theorem Chip.raise_evq_take (c : Chip) (e : Ev) : (c.raise e).evq = c.evq ++ [e].take (evqCap - c.evq.length) := by
  unfold Chip.raise
  split
  · rw [List.take_of_length_le (l := [e]) (by simp only [List.length_singleton]; omega)]; rfl
  · rw [show evqCap - c.evq.length = 0 by omega]; simp

theorem Chip.raises_raise (c : Chip) (e : Ev) : c.raises (c.raise e) [e] := Chip.raise_evq_take c e

theorem Chip.raises_of_evq {c c1 : Chip} (h : c1.evq = c.evq) : c.raises c1 [] := by simp [Chip.raises, h]

/-- Raising counts on from a part with the same queue. -/
theorem Chip.raises_raise_of_evq {c c1 : Chip} (h : c1.evq = c.evq) (e : Ev) : c.raises (c1.raise e) [e] := by
  rw [Chip.raises, Chip.raise_evq_take, h]

theorem Chip.raises_event_of_evq {c c1 : Chip} {t : Stamp} (h : c1.evq = c.evq) (ht : c1.clk = t) (code : Nat) (p : FaultAddr) (f : List CField) :
    c.raises (c1.event code p f) [⟨code, p, t, f⟩] := by
  subst ht
  exact Chip.raises_raise_of_evq h _

theorem Chip.raises.trans_evq {c c1 c2 : Chip} {q : List Ev} (h : c.raises c1 q) (hq : c2.evq = c1.evq) : c.raises c2 q := h.same hq

end Sys2Proof.Machine

/-! ## Check units and the idle flit -/

namespace Sys2Proof.Machine

section
variable (c : Chip) (u : Nat)

/-! A check unit's steps change its own state and registers alone. -/

@[simp] theorem Chip.chkFinish_clk : (c.chkFinish u).clk = c.clk := by
  simp [Chip.chkFinish, Chip.modChk, apply_ite Chip.clk]
@[simp] theorem Chip.chkFinish_tx : (c.chkFinish u).tx = c.tx := by
  simp [Chip.chkFinish, Chip.modChk, apply_ite Chip.tx]
@[simp] theorem Chip.chkFinish_evq : (c.chkFinish u).evq = c.evq := by
  simp [Chip.chkFinish, Chip.modChk, apply_ite Chip.evq]
@[simp] theorem Chip.chkFinish_dram : (c.chkFinish u).dram = c.dram := by
  simp [Chip.chkFinish, Chip.modChk, apply_ite Chip.dram]
@[simp] theorem Chip.chkFinish_tbw : (c.chkFinish u).tbw = c.tbw := by
  simp [Chip.chkFinish, Chip.modChk, apply_ite Chip.tbw]
@[simp] theorem Chip.chkFinish_bol : (c.chkFinish u).bol = c.bol := by
  simp [Chip.chkFinish, Chip.modChk, apply_ite Chip.bol]
@[simp] theorem Chip.chkFinish_mui : (c.chkFinish u).mui = c.mui := by
  simp [Chip.chkFinish, Chip.modChk, apply_ite Chip.mui]
@[simp] theorem Chip.chkFinish_twn : (c.chkFinish u).twn = c.twn := by
  simp [Chip.chkFinish, Chip.modChk, apply_ite Chip.twn]
@[simp] theorem Chip.chkFinish_pnt : (c.chkFinish u).pnt = c.pnt := by
  simp [Chip.chkFinish, Chip.modChk, apply_ite Chip.pnt]
@[simp] theorem Chip.chkFinish_rate : (c.chkFinish u).rate = c.rate := by
  simp [Chip.chkFinish, Chip.modChk, apply_ite Chip.rate]
@[simp] theorem Chip.chkFinish_jrn : (c.chkFinish u).jrn = c.jrn := by
  simp [Chip.chkFinish, Chip.modChk, apply_ite Chip.jrn]
@[simp] theorem Chip.chkFinish_slots : (c.chkFinish u).slots = c.slots := by
  simp [Chip.chkFinish, Chip.modChk, apply_ite Chip.slots]
@[simp] theorem Chip.chkFinish_peg : (c.chkFinish u).peg = c.peg := by
  simp [Chip.chkFinish, Chip.modChk, apply_ite Chip.peg]

@[simp] theorem Chip.chkRun_clk (m : List Byte) : (c.chkRun u m).1.clk = c.clk := by
  rw [Chip.chkRun, Chip.chkFinish_clk]; rfl
@[simp] theorem Chip.chkRun_tx (m : List Byte) : (c.chkRun u m).1.tx = c.tx := by
  rw [Chip.chkRun, Chip.chkFinish_tx]; rfl
@[simp] theorem Chip.chkRun_evq (m : List Byte) : (c.chkRun u m).1.evq = c.evq := by
  rw [Chip.chkRun, Chip.chkFinish_evq]; rfl
@[simp] theorem Chip.chkRun_dram (m : List Byte) : (c.chkRun u m).1.dram = c.dram := by
  rw [Chip.chkRun, Chip.chkFinish_dram]; rfl
@[simp] theorem Chip.chkRun_tbw (m : List Byte) : (c.chkRun u m).1.tbw = c.tbw := by
  rw [Chip.chkRun, Chip.chkFinish_tbw]; rfl
@[simp] theorem Chip.chkRun_bol (m : List Byte) : (c.chkRun u m).1.bol = c.bol := by
  rw [Chip.chkRun, Chip.chkFinish_bol]; rfl
@[simp] theorem Chip.chkRun_mui (m : List Byte) : (c.chkRun u m).1.mui = c.mui := by
  rw [Chip.chkRun, Chip.chkFinish_mui]; rfl
@[simp] theorem Chip.chkRun_twn (m : List Byte) : (c.chkRun u m).1.twn = c.twn := by
  rw [Chip.chkRun, Chip.chkFinish_twn]; rfl
@[simp] theorem Chip.chkRun_pnt (m : List Byte) : (c.chkRun u m).1.pnt = c.pnt := by
  rw [Chip.chkRun, Chip.chkFinish_pnt]; rfl
@[simp] theorem Chip.chkRun_rate (m : List Byte) : (c.chkRun u m).1.rate = c.rate := by
  rw [Chip.chkRun, Chip.chkFinish_rate]; rfl
@[simp] theorem Chip.chkRun_jrn (m : List Byte) : (c.chkRun u m).1.jrn = c.jrn := by
  rw [Chip.chkRun, Chip.chkFinish_jrn]; rfl
@[simp] theorem Chip.chkRun_slots (m : List Byte) : (c.chkRun u m).1.slots = c.slots := by
  rw [Chip.chkRun, Chip.chkFinish_slots]; rfl
@[simp] theorem Chip.chkRun_peg (m : List Byte) : (c.chkRun u m).1.peg = c.peg := by
  rw [Chip.chkRun, Chip.chkFinish_peg]; rfl

end

section
variable {l : List Nat} {r : List (Nat × Word)} {c : Chip} {u : Nat}

theorem regsSame_chkStart (c : Chip) (u : Nat) : regsSame [R.chkRes u] c.regs (c.chkStart u).regs := by
  simp [Chip.chkStart, Chip.modChk]

theorem regsSame_chkFinish (c : Chip) (u : Nat) : regsSame (checkRegs u) c.regs (c.chkFinish u).regs := by
  unfold Chip.chkFinish
  simp only []
  split <;> split <;> simp [checkRegs, Chip.modChk]

theorem regsSame_chkRun (c : Chip) (u : Nat) (m : List Byte) : regsSame (checkRegs u) c.regs (c.chkRun u m).1.regs :=
  ((regsSame_chkStart c u).mono (by simp [checkRegs])).trans (regsSame_chkFinish _ u)

@[simp] theorem regsSame_chkRun_iff (h : ∀ a ∈ checkRegs u, a ∈ l) (m : List Byte) :
    regsSame l r (c.chkRun u m).1.regs ↔ regsSame l r c.regs := ((regsSame_chkRun c u m).mono h).peel

end

/-- What a flit is depends on check unit 2 alone, which does not read the clock. -/
theorem Chip.chkRun_verdict_idleCycle (c : Chip) (u : Nat) (m : List Byte) : ((idleCycle c).chkRun u m).2 = (c.chkRun u m).2 := rfl

/-- R341: a flit that leaves is the last message sent. -/
theorem Chip.sendFlit_tx (c : Chip) (body : List Byte) : (c.sendFlit body).tx = c.tx ++ [.flit (c.flitOf body)] := by
  simp [Chip.sendFlit, Chip.send, Chip.flitOf]

@[simp] theorem Chip.sendFlit_clk (c : Chip) (body : List Byte) : (c.sendFlit body).clk = c.clk := by simp [Chip.sendFlit]

@[simp] theorem Chip.sendFlit_evq (c : Chip) (body : List Byte) : (c.sendFlit body).evq = c.evq := by simp [Chip.sendFlit]

@[simp] theorem Chip.sendFlit_dram (c : Chip) (body : List Byte) : (c.sendFlit body).dram = c.dram := by simp [Chip.sendFlit]

@[simp] theorem Chip.sendFlit_tbw (c : Chip) (body : List Byte) : (c.sendFlit body).tbw = c.tbw := by simp [Chip.sendFlit]

/-- The registers that a flit's departure writes. -/
theorem regsSame_sendFlit (c : Chip) (body : List Byte) : regsSame (R.bolCnt 0 :: checkRegs 2) c.regs (c.sendFlit body).regs := by
  have other : regsSame (R.bolCnt 0 :: checkRegs 2) c.regs (c.chkRun 2 body).1.regs :=
    (regsSame_chkRun c 2 body).mono (fun _ => List.mem_cons_of_mem _)
  simpa [Chip.sendFlit] using other

/-- Settles O1: the equations of `step`, and the idle flit as a run of check unit 2. -/
theorem stepRunsTheFrontCommand : Obligations.StepRunsTheFrontCommand := by
  unfold Obligations.StepRunsTheFrontCommand
  refine ⟨fun i s => step_cons rfl, fun s hs => step_nil hs, fun s hs down => ?_, fun s up => ?_⟩
  · have idle : s.chip.idle = idleCycle s.chip := if_neg (by rw [show (idleCycle s.chip).bolUp = s.chip.bolUp from rfl, down]; decide)
    rw [step_nil hs, idle, idleCycle]
  · have idle : s.chip.idle = (idleCycle s.chip).sendFlit (0x7F :: 3 :: List.replicate 56 0) := if_pos up
    rw [idle]
    refine ⟨by rw [Chip.sendFlit_clk, idleCycle], ?_, Chip.writesOnly_of (regsSame_sendFlit (idleCycle s.chip) _) ?_ ?_,
      Chip.raises_of_evq ?_⟩
    · rw [Chip.sendFlit_tx]; rfl
    · rw [Chip.sendFlit_dram, idleCycle]
    · rw [Chip.sendFlit_tbw, idleCycle]
    · rw [Chip.sendFlit_evq, idleCycle]

end Sys2Proof.Machine

/-! ## Protection units: the change of rules and tags (R406 to R409) -/

namespace Sys2Proof.Machine

/-! ### Drains -/

/-- A bit of a status register is set and nothing else changes. -/
theorem Chip.setTop_says (c : Chip) (a : Nat) : (c.setFld a 31 31 1).bit a 31 = true ∧ (c.setFld a 31 31 1).fld a 30 0 = c.fld a 30 0 ∧
    (c.setFld a 31 31 1).mem = c.mem ∧ c.writesOnly (c.setFld a 31 31 1) [a] ∧ c.raises (c.setFld a 31 31 1) [] :=
  ⟨Chip.setFld_bit_same c a 31 1 (by decide), Chip.setFld_fld_disjoint c a 31 31 1 30 0 (by decide) (by decide), rfl,
    Chip.writesOnly.refl.setFld (by simp) 31 31 1, Chip.raises_of_evq rfl⟩

/-- Settles O56: the command sets DRAINED exactly where no old access is left. -/
theorem drainCompletesWhenNoOldAccessIsLeft : Obligations.DrainCompletesWhenNoOldAccessIsLeft := by
  unfold Obligations.DrainCompletesWhenNoOldAccessIsLeft
  refine ⟨fun s t u hu none => answers_exec (if_pos (decide_eq_true hu)) ?_, fun s t u hu left =>
    gives_exec (if_pos (decide_eq_true hu)) (if_pos left), fun s t none => answers_exec rfl ?_,
    fun s t left => gives_exec rfl (if_pos left)⟩
  · simp only [show (s.chip.at t).anyTxn (fun x => x.access.unit == u && x.oldRules) = false from none, Bool.false_eq_true, if_false]
    exact Chip.setTop_says (s.chip.at t) (R.pruStat u)
  · simp only [show (s.chip.at t).anyTxn (fun x => x.oldTags) = false from none, Bool.false_eq_true, if_false]
    exact Chip.setTop_says (s.chip.at t) R.pruGstat

end Sys2Proof.Machine

namespace Sys2Proof.Machine

theorem forN_zero {α : Type} (f : Nat → α → α) (a : α) : forN 0 f a = a := rfl

theorem forN_succ {α : Type} (n : Nat) (f : Nat → α → α) (a : α) : forN (n + 1) f a = f n (forN n f a) := by
  simp [forN, List.range_succ]

/-! ### APPLY -/

/-- The current words of region `r` of unit `u`. -/
def regionNow (u r : Nat) : List Nat := [R.pruRgnBaseCur u r, R.pruRgnSizeCur u r, R.pruRgnAttrCur u r]

/-- R406: region `r` of unit `u` becomes what its shadow says. -/
def Chip.copyRegion (u r : Nat) (c : Chip) : Chip :=
  ((c.setReg (R.pruRgnBaseCur u r) (c.reg (R.pruRgnBase u r))).setReg (R.pruRgnSizeCur u r) (c.reg (R.pruRgnSize u r))).setReg
    (R.pruRgnAttrCur u r) (c.reg (R.pruRgnAttr u r))

theorem regsSame_copyRegion (u r : Nat) (c : Chip) : regsSame (regionNow u r) c.regs (c.copyRegion u r).regs := by
  simp [Chip.copyRegion, regionNow]

theorem Chip.copyRegion_now (u r : Nat) (c : Chip) : (c.copyRegion u r).reg (R.pruRgnBaseCur u r) = c.reg (R.pruRgnBase u r) ∧
    (c.copyRegion u r).reg (R.pruRgnSizeCur u r) = c.reg (R.pruRgnSize u r) ∧
    (c.copyRegion u r).reg (R.pruRgnAttrCur u r) = c.reg (R.pruRgnAttr u r) := by
  refine ⟨?_, ?_, ?_⟩ <;> simp [Chip.copyRegion, Chip.setReg_reg, R.pruRgnBaseCur, R.pruRgnSizeCur, R.pruRgnAttrCur]

/-- No current word of one region is a shadow word of a region, or a current word of another. -/
theorem notMem_regionNow {u r q : Nat} (hr : r < 64) (hq : q < 64) :
    (R.pruRgnBase u r ∉ regionNow u q ∧ R.pruRgnSize u r ∉ regionNow u q ∧ R.pruRgnAttr u r ∉ regionNow u q) ∧
    (r ≠ q → R.pruRgnBaseCur u r ∉ regionNow u q ∧ R.pruRgnSizeCur u r ∉ regionNow u q ∧ R.pruRgnAttrCur u r ∉ regionNow u q) := by
  simp only [regionNow, R.pruRgnBase, R.pruRgnSize, R.pruRgnAttr, R.pruRgnBaseCur, R.pruRgnSizeCur, R.pruRgnAttrCur, List.mem_cons,
    List.not_mem_nil, or_false]
  omega

theorem regsSame_copyRegions (u n : Nat) (c : Chip) : regsSame ((List.range n).flatMap (regionNow u)) c.regs
    (forN n (fun r c => c.copyRegion u r) c).regs :=
  regsSame_forN (fun r c1 hr => (regsSame_copyRegion u r c1).mono (fun _ ha => List.mem_flatMap.mpr ⟨r, List.mem_range.mpr hr, ha⟩))

/-- R406: the regions below `n`, copied in turn, hold their shadows. -/
theorem Chip.copyRegions_now (u : Nat) (c : Chip) {n : Nat} (hn : n ≤ 64) {r : Nat} (hr : r < n) :
    (forN n (fun r c => c.copyRegion u r) c).reg (R.pruRgnBaseCur u r) = c.reg (R.pruRgnBase u r) ∧
    (forN n (fun r c => c.copyRegion u r) c).reg (R.pruRgnSizeCur u r) = c.reg (R.pruRgnSize u r) ∧
    (forN n (fun r c => c.copyRegion u r) c).reg (R.pruRgnAttrCur u r) = c.reg (R.pruRgnAttr u r) := by
  induction n with
  | zero => omega
  | succ n ih =>
    have before := regsSame_copyRegions u n c
    have shadow : ∀ a, (∀ r < 64, a ∉ regionNow u r) → (forN n (fun r c => c.copyRegion u r) c).reg a = c.reg a :=
      fun a ha => before.reg (by
        simp only [List.mem_flatMap, List.mem_range, not_exists, not_and]
        exact fun r hr => ha r (by omega))
    rw [forN_succ]
    by_cases h : r = n
    · subst h
      rw [(Chip.copyRegion_now u r _).1, (Chip.copyRegion_now u r _).2.1, (Chip.copyRegion_now u r _).2.2]
      exact ⟨shadow _ (fun q hq => (notMem_regionNow (by omega) hq).1.1),
        shadow _ (fun q hq => (notMem_regionNow (by omega) hq).1.2.1),
        shadow _ (fun q hq => (notMem_regionNow (by omega) hq).1.2.2)⟩
    · obtain ⟨hb, hs, ha⟩ := (notMem_regionNow (u := u) (r := r) (q := n) (by omega) (by omega)).2 h
      have one := regsSame_copyRegion u n (forN n (fun r c => c.copyRegion u r) c)
      rw [one.reg hb, one.reg hs, one.reg ha]
      exact ih (by omega) (by omega)

/-- What copying regions leaves: every field of the part but the registers. -/
theorem Chip.copyRegions_keeps {β : Type} (g : Chip → β) (hg : ∀ (c : Chip) a w, g (c.setReg a w) = g c) (u n : Nat) (c : Chip) :
    g (forN n (fun r c => c.copyRegion u r) c) = g c :=
  forN_keeps g (fun r c1 _ => by rw [Chip.copyRegion, hg, hg, hg])

/-- The transactions under way, of the unit whose rules change, were checked by the old ones. -/
def Txn.underOld (u : Nat) (x : Txn) : Txn := if x.access.unit == u then { x with oldRules := true } else x

section
variable (c : Chip) (f : Txn → Txn)
@[simp] theorem Chip.modTxns_regs : (c.modTxns f).regs = c.regs := rfl
@[simp] theorem Chip.modTxns_dram : (c.modTxns f).dram = c.dram := rfl
@[simp] theorem Chip.modTxns_tbw : (c.modTxns f).tbw = c.tbw := rfl
@[simp] theorem Chip.modTxns_evq : (c.modTxns f).evq = c.evq := rfl
@[simp] theorem Chip.modTxns_pruCur : (c.modTxns f).pruCur = c.pruCur := rfl
@[simp] theorem Chip.modTxns_reg (a : Nat) : (c.modTxns f).reg a = c.reg a := rfl
@[simp] theorem Chip.modTxns_fld (a hi lo : Nat) : (c.modTxns f).fld a hi lo = c.fld a hi lo := rfl
end

/-- R407: after an APPLY some transaction of the unit is old exactly where one is under way. -/
theorem Chip.anyTxn_underOld (c : Chip) (u : Nat) :
    (c.modTxns (Txn.underOld u)).anyTxn (fun x => x.access.unit == u && x.oldRules) =
      (c.mem.waiting.any (fun x => x.access.unit == u) ||
        c.mem.heldReqs.any (fun x => x.access.unit == u && (x.oldRules || coreAccess x.access)) ||
        c.mem.chans.any (fun e => e.2.queue.any (fun x => x.access.kind != 1 && x.access.unit == u))) := by
  have old : ∀ x : Txn, (x.access.unit == u && (x.underOld u).oldRules) = (x.access.unit == u) := by
    intro x
    by_cases h : x.access.unit == u <;> simp [Txn.underOld, h]
  have kind : ∀ x : Txn, (x.underOld u).access = x.access := by
    intro x
    by_cases h : x.access.unit == u <;> simp [Txn.underOld, h]
  have held : ∀ x : Txn, ((if coreAccess x.access then x.underOld u else x).access.unit == u &&
      (if coreAccess x.access then x.underOld u else x).oldRules) = (x.access.unit == u && (x.oldRules || coreAccess x.access)) := by
    intro x
    by_cases h : coreAccess x.access = true
    · simp only [h, if_true, kind, old, Bool.or_true, Bool.and_true]
    · simp [h]
  simp only [Chip.anyTxn, Chip.modTxns, List.any_map, Function.comp_def, old, kind, held]

/-- R399, R406: what the unit's current `PRU_CTL` becomes. -/
def Chip.ctlApplied (c : Chip) (u : Nat) : Nat :=
  (if decide (2 ^ 31 ≤ c.pruCtlNow u) || c.bit (R.pruCtl u) 31 then 2 ^ 31 else 0) + c.fld (R.pruCtl u) 3 0

/-- R406: the part with the current copies taken and the apply count advanced, before the accesses under way are marked. -/
def Chip.rulesCopied (c : Chip) (u n : Nat) : Chip :=
  let d := forN n (fun r c => c.copyRegion u r) { c with pruCur := mapPut (fun _ => 0) c.pruCur u (c.ctlApplied u) }
  d.setFld (R.pruStat u) 15 8 (d.fld (R.pruStat u) 15 8 + 1)

theorem Chip.applyRules_eq (c : Chip) (u : Nat) : c.applyRules u = ((c.rulesCopied u 64).modTxns (Txn.underOld u)).setFld (R.pruStat u) 31 31
    (if ((c.rulesCopied u 64).modTxns (Txn.underOld u)).anyTxn (fun x => x.access.unit == u && x.oldRules) then 0 else 1) := rfl

/-- The registers that an APPLY of unit `u` writes. -/
def applyRegs (u : Nat) : List Nat := R.pruStat u :: (List.range 64).flatMap (regionNow u)

theorem pruStat_notMem_regionNow {u r : Nat} (hr : r < 64) : R.pruStat u ∉ regionNow u r ∧
    (R.pruRgnBaseCur u r ≠ R.pruStat u ∧ R.pruRgnSizeCur u r ≠ R.pruStat u ∧ R.pruRgnAttrCur u r ≠ R.pruStat u) := by
  simp only [regionNow, R.pruStat, R.pruRgnBaseCur, R.pruRgnSizeCur, R.pruRgnAttrCur, List.mem_cons, List.not_mem_nil, or_false]
  omega

theorem regsSame_rulesCopied (c : Chip) (u : Nat) {n : Nat} (hn : n ≤ 64) : regsSame (applyRegs u) c.regs (c.rulesCopied u n).regs := by
  have copied := (regsSame_copyRegions u n { c with pruCur := mapPut (fun _ => 0) c.pruCur u (c.ctlApplied u) }).mono
    (l2 := applyRegs u) (fun a ha => by
      obtain ⟨r, hr, har⟩ := List.mem_flatMap.mp ha
      exact List.mem_cons_of_mem _ (List.mem_flatMap.mpr ⟨r, List.mem_range.mpr (by have := List.mem_range.mp hr; omega), har⟩))
  simpa [Chip.rulesCopied, applyRegs] using copied

theorem Chip.rulesCopied_stat (c : Chip) (u : Nat) {n : Nat} (hn : n ≤ 64) : (c.rulesCopied u n).fld (R.pruStat u) 15 8 = (c.fld (R.pruStat u) 15 8 + 1) % 256 := by
  have stays := (regsSame_copyRegions u n { c with pruCur := mapPut (fun _ => 0) c.pruCur u (c.ctlApplied u) }).fld (a := R.pruStat u)
    (by simpa using fun r hr => (pruStat_notMem_regionNow (Nat.lt_of_lt_of_le hr hn)).1) 15 8
  rw [Chip.rulesCopied, Chip.setFld_fld_same _ _ _ _ _ (by decide), stays]
  rfl

theorem Chip.rulesCopied_now (c : Chip) (u : Nat) {n : Nat} (hn : n ≤ 64) {r : Nat} (hr : r < n) :
    (c.rulesCopied u n).reg (R.pruRgnBaseCur u r) = c.reg (R.pruRgnBase u r) ∧
    (c.rulesCopied u n).reg (R.pruRgnSizeCur u r) = c.reg (R.pruRgnSize u r) ∧
    (c.rulesCopied u n).reg (R.pruRgnAttrCur u r) = c.reg (R.pruRgnAttr u r) := by
  obtain ⟨hb, hs, ha⟩ := (pruStat_notMem_regionNow (u := u) (Nat.lt_of_lt_of_le hr hn)).2
  rw [Chip.rulesCopied, Chip.setFld_reg_other _ _ _ _ hb, Chip.setFld_reg_other _ _ _ _ hs, Chip.setFld_reg_other _ _ _ _ ha]
  exact Chip.copyRegions_now u _ hn hr

theorem Chip.rulesCopied_keeps {β : Type} (g : Chip → β) (hg : ∀ (c : Chip) a w, g (c.setReg a w) = g c) (c : Chip) (u n : Nat) :
    g (c.rulesCopied u n) = g { c with pruCur := mapPut (fun _ => 0) c.pruCur u (c.ctlApplied u) } := by
  rw [Chip.rulesCopied, Chip.setFld, hg, Chip.copyRegions_keeps g hg]

/-- R406, R407: APPLY on a drained unit. -/
theorem Chip.applyRules_says (c : Chip) (u : Nat) :
    (∀ r, r < 64 → (c.applyRules u).reg (R.pruRgnBaseCur u r) = c.reg (R.pruRgnBase u r) ∧
      (c.applyRules u).reg (R.pruRgnSizeCur u r) = c.reg (R.pruRgnSize u r) ∧
      (c.applyRules u).reg (R.pruRgnAttrCur u r) = c.reg (R.pruRgnAttr u r)) ∧
    (c.applyRules u).pruCtlNow u = (if 2 ^ 31 ≤ c.pruCtlNow u ∨ c.bit (R.pruCtl u) 31 = true then 2 ^ 31 else 0) + c.fld (R.pruCtl u) 3 0 ∧
    (∀ v, v < 24 → v ≠ u → (c.applyRules u).pruCtlNow v = c.pruCtlNow v) ∧
    (c.applyRules u).fld (R.pruStat u) 15 8 = (c.fld (R.pruStat u) 15 8 + 1) % 256 ∧
    ((c.applyRules u).bit (R.pruStat u) 31 = true ↔ c.mem.waiting.any (fun x => x.access.unit == u) = false ∧
      c.mem.heldReqs.any (fun x => x.access.unit == u && (x.oldRules || coreAccess x.access)) = false ∧
      c.mem.chans.any (fun e => e.2.queue.any (fun x => x.access.kind != 1 && x.access.unit == u)) = false) ∧
    c.writesOnly (c.applyRules u) (applyRegs u) ∧ c.raises (c.applyRules u) [] := by
  rw [Chip.applyRules_eq]
  have ctl : (c.rulesCopied u 64).pruCur = mapPut (fun _ => 0) c.pruCur u (c.ctlApplied u) :=
    Chip.rulesCopied_keeps Chip.pruCur (fun _ _ _ => rfl) c u 64
  have mem : (c.rulesCopied u 64).mem = c.mem := Chip.rulesCopied_keeps Chip.mem (fun _ _ _ => rfl) c u 64
  refine ⟨fun r hr => ?_, ?_, fun v _ hv => ?_, ?_, ?_, Chip.writesOnly_of ?_ ?_ ?_, Chip.raises_of_evq ?_⟩
  · obtain ⟨hb, hs, ha⟩ := (pruStat_notMem_regionNow (u := u) hr).2
    rw [Chip.setFld_reg_other _ _ _ _ hb, Chip.setFld_reg_other _ _ _ _ hs, Chip.setFld_reg_other _ _ _ _ ha, Chip.modTxns_reg,
      Chip.modTxns_reg, Chip.modTxns_reg]
    exact Chip.rulesCopied_now c u (Nat.le_refl 64) hr
  · rw [Chip.pruCtlNow, Chip.setFld_pruCur, Chip.modTxns_pruCur, ctl, mapGet_put_same, Chip.ctlApplied]
    by_cases high : 2 ^ 31 ≤ c.pruCtlNow u <;> simp only [high, decide_true, decide_false, Bool.true_or, Bool.false_or, true_or, false_or]
  · rw [Chip.pruCtlNow, Chip.setFld_pruCur, Chip.modTxns_pruCur, ctl, mapGet_put_other _ _ _ hv, Chip.pruCtlNow]
  · rw [Chip.setFld_fld_disjoint _ _ _ _ _ _ _ (by decide) (by decide), Chip.modTxns_fld]
    exact Chip.rulesCopied_stat c u (Nat.le_refl 64)
  · rw [Chip.setFld_bit_same _ _ _ _ (by decide), Chip.anyTxn_underOld, mem, ← and_assoc, ← Bool.or_eq_false_iff, ← Bool.or_eq_false_iff]
    cases c.mem.waiting.any (fun x => x.access.unit == u) ||
        c.mem.heldReqs.any (fun x => x.access.unit == u && (x.oldRules || coreAccess x.access)) ||
        c.mem.chans.any (fun e => e.2.queue.any (fun x => x.access.kind != 1 && x.access.unit == u)) <;> decide
  · simpa [applyRegs] using regsSame_rulesCopied c u (Nat.le_refl 64)
  · rw [Chip.setFld_dram, Chip.modTxns_dram, Chip.rulesCopied_keeps Chip.dram (fun _ _ _ => rfl) c u 64]
  · rw [Chip.setFld_tbw, Chip.modTxns_tbw, Chip.rulesCopied_keeps Chip.tbw (fun _ _ _ => rfl) c u 64]
  · rw [Chip.setFld_evq, Chip.modTxns_evq, Chip.rulesCopied_keeps Chip.evq (fun _ _ _ => rfl) c u 64]

/-! ### APPLY_TAGS -/

/-- The entries of the tag shadow, at the places of the current table. -/
def tagsMoved (m : List (Nat × Byte)) : List (Nat × Byte) :=
  (m.filter (fun e => decide (twTagShadow ≤ e.1) && decide (e.1 < twTagShadow + twTagSize))).map (fun e => (e.1 - twTagShadow + twTagNow, e.2))

/-- The table windows without the current tag table. -/
def tagsDropped (m : List (Nat × Byte)) : List (Nat × Byte) :=
  m.filter (fun e => !(decide (twTagNow ≤ e.1) && decide (e.1 < twTagNow + twTagSize)))

theorem mapGet_filter {α : Type} (d : Nat → α) (m : List (Nat × α)) (p : Nat → Bool) (k : Nat) :
    mapGet d (m.filter (fun e => p e.1)) k = if p k then mapGet d m k else d k := by
  induction m with
  | nil => simp [mapGet]
  | cons e rest ih =>
    by_cases hp : p e.1 = true <;> by_cases hk : k = e.1
    · subst hk; simp [mapGet, hp]
    · simp [mapGet, hp, hk, ih]
    · subst hk; simp [hp, ih]
    · simp [mapGet, hp, hk, ih]

/-- Entries moved to other places read there what they read before. -/
theorem mapGet_move {α : Type} (d : α) (m : List (Nat × α)) {a b k : Nat} (hm : ∀ e ∈ m, a ≤ e.1) (hk : b ≤ k) :
    mapGet (fun _ => d) (m.map (fun e => (e.1 - a + b, e.2))) k = mapGet (fun _ => d) m (k - b + a) := by
  induction m with
  | nil => rfl
  | cons e rest ih =>
    have he := hm e List.mem_cons_self
    have same : k = e.1 - a + b ↔ k - b + a = e.1 := by omega
    simp only [List.map_cons, mapGet, same, ih (fun x hx => hm x (List.mem_cons_of_mem _ hx))]

theorem mapGet_of_notMem {α : Type} (d : Nat → α) {m : List (Nat × α)} {k : Nat} (h : ∀ e ∈ m, e.1 ≠ k) : mapGet d m k = d k := by
  induction m with
  | nil => rfl
  | cons e rest ih =>
    rw [mapGet, if_neg (fun hk => h e List.mem_cons_self hk.symm), ih (fun x hx => h x (List.mem_cons_of_mem _ hx))]

/-- Entries of rising keys written one after the other: each key of theirs reads its value, any other as before. -/
theorem mapGet_foldl_put {α : Type} [DecidableEq α] (d : Nat → α) {l : List (Nat × α)} (hl : l.Pairwise (fun x y => x.1 < y.1))
    (m : List (Nat × α)) (k : Nat) : mapGet d (l.foldl (fun m (e : Nat × α) => mapPut d m e.1 e.2) m) k =
      if l.any (fun e => e.1 == k) then mapGet d l k else mapGet d m k := by
  induction l generalizing m with
  | nil => rfl
  | cons e rest ih =>
    obtain ⟨first, later⟩ := List.pairwise_cons.mp hl
    rw [List.foldl_cons, ih later, mapGet_mapPut, List.any_cons]
    by_cases hk : k = e.1
    · subst hk
      have none : rest.any (fun x => x.1 == e.1) = false := by
        simpa using fun a b hab => Nat.ne_of_gt (first (a, b) hab)
      simp [none, mapGet]
    · have other : (e.1 == k) = false := by simpa using Ne.symm hk
      rw [if_neg hk, other, Bool.false_or, mapGet, if_neg hk]

theorem inTagTable (o : Nat) : (decide (twTagNow ≤ o) && decide (o < twTagNow + twTagSize)) = decide (0x1DA0000 ≤ o ∧ o < 0x1E20000) := by
  rw [Bool.decide_and]; rfl

theorem inTagShadow (o : Nat) :
    (decide (twTagShadow ≤ o) && decide (o < twTagShadow + twTagSize)) = decide (0x1D20000 ≤ o ∧ o < 0x1DA0000) := by
  rw [Bool.decide_and]; rfl

/-- R409: after the copy the current table reads as the shadow, and every other byte as before. -/
theorem mapGet_applyTagTable {m : List (Nat × Byte)} (hm : mapWf tbwDefault m) (o : Nat) :
    mapGet tbwDefault ((tagsMoved m).foldl (fun m (e : Nat × Byte) => mapPut tbwDefault m e.1 e.2) (tagsDropped m)) o =
      if 0x1DA0000 ≤ o ∧ o < 0x1E20000 then mapGet tbwDefault m (o - 0x80000) else mapGet tbwDefault m o := by
  have shadow : ∀ e ∈ m.filter (fun e => decide (twTagShadow ≤ e.1) && decide (e.1 < twTagShadow + twTagSize)),
      twTagShadow ≤ e.1 ∧ e.1 < twTagShadow + twTagSize := by
    intro e he
    simpa using (List.mem_filter.mp he).2
  have rising : (tagsMoved m).Pairwise (fun x y => x.1 < y.1) := by
    refine List.pairwise_map.mpr (((mapRises_pairwise hm).filter _).imp_of_mem ?_)
    intro a b ha hb hab
    have := shadow a ha
    have := shadow b hb
    simp only []
    omega
  have place : ∀ e ∈ tagsMoved m, 0x1DA0000 ≤ e.1 ∧ e.1 < 0x1E20000 := by
    intro e he
    obtain ⟨x, hx, rfl⟩ := List.mem_map.mp he
    have := shadow x hx
    simp only [twTagShadow, twTagNow, twTagSize] at this ⊢
    omega
  have dropped : mapGet tbwDefault (tagsDropped m) o = if 0x1DA0000 ≤ o ∧ o < 0x1E20000 then 0 else mapGet tbwDefault m o := by
    rw [tagsDropped, mapGet_filter tbwDefault m (fun k => !(decide (twTagNow ≤ k) && decide (k < twTagNow + twTagSize))), inTagTable]
    by_cases h : 0x1DA0000 ≤ o ∧ o < 0x1E20000
    · rw [decide_eq_true h, if_pos h]; rfl
    · rw [decide_eq_false h, if_neg h]; rfl
  rw [mapGet_foldl_put _ rising, dropped]
  by_cases inside : 0x1DA0000 ≤ o ∧ o < 0x1E20000
  · have moved : mapGet tbwDefault (tagsMoved m) o = mapGet tbwDefault m (o - 0x80000) := by
      have same : o - 0x1DA0000 + twTagShadow = o - 0x80000 := by simp only [twTagShadow]; omega
      have within : 0x1D20000 ≤ o - 0x80000 ∧ o - 0x80000 < 0x1DA0000 := by omega
      rw [tagsMoved]
      refine (mapGet_move 0 _ (fun e he => (shadow e he).1) inside.1).trans ?_
      rw [same]
      refine (mapGet_filter _ m (fun k => decide (twTagShadow ≤ k) && decide (k < twTagShadow + twTagSize)) _).trans ?_
      simp only [inTagShadow, decide_eq_true within, if_true]
      rfl
    rw [if_pos inside, if_pos inside, ← moved]
    split
    · rfl
    · rename_i none
      rw [mapGet_of_notMem _ (fun e he same => none (List.any_eq_true.mpr ⟨e, he, beq_iff_eq.mpr same⟩))]; rfl
  · have none : (tagsMoved m).any (fun e => e.1 == o) = false := by
      rw [List.any_eq_false]
      intro e he
      have := place e he
      rw [beq_iff_eq]
      omega
    rw [none, if_neg inside, if_neg inside]; rfl

/-- R409: the part with the tag shadow copied, before the accesses under way are marked. -/
def Chip.tagsCopied (c : Chip) : Chip :=
  let d := { c with tbw := (tagsMoved c.tbw).foldl (fun m (e : Nat × Byte) => mapPut tbwDefault m e.1 e.2) (tagsDropped c.tbw) }
  (d.setFld R.pruGstat 15 8 (d.fld R.pruGstat 15 8 + 1)).setFld R.pruGstat 30 30 1

theorem Chip.applyTagTable_eq (c : Chip) : c.applyTagTable = (c.tagsCopied.modTxns (fun x => { x with oldTags := true })).setFld R.pruGstat 31 31
    (if (c.tagsCopied.modTxns (fun x => { x with oldTags := true })).anyTxn (fun x => x.oldTags) then 0 else 1) := rfl

/-- R407, R409: after an APPLY_TAGS some transaction is old exactly where one is under way. -/
theorem Chip.anyTxn_oldTags (c : Chip) : (c.modTxns (fun x => { x with oldTags := true })).anyTxn (fun x => x.oldTags) =
    (!c.mem.waiting.isEmpty || c.mem.heldReqs.any (fun x => x.oldTags || coreAccess x.access) ||
      c.mem.chans.any (fun e => e.2.queue.any (fun x => x.access.kind != 1))) := by
  have held : ∀ x : Txn, (if coreAccess x.access then { x with oldTags := true } else x).oldTags = (x.oldTags || coreAccess x.access) := by
    intro x
    by_cases h : coreAccess x.access = true <;> simp [h]
  have all : ∀ l : List Txn, l.any (fun _ => true) = !l.isEmpty := by
    intro l
    cases l <;> simp
  simp only [Chip.anyTxn, Chip.modTxns, List.any_map, Function.comp_def, held, all, Bool.and_true]

theorem Chip.applyTagTable_says {c : Chip} (hc : c.canonical) (o : Nat) :
    mapGet tbwDefault c.applyTagTable.tbw o = (if 0x1DA0000 ≤ o ∧ o < 0x1E20000 then mapGet tbwDefault c.tbw (o - 0x80000)
      else mapGet tbwDefault c.tbw o) ∧
    c.applyTagTable.bit R.pruGstat 30 = true ∧ (c.applyTagTable.bit R.pruGstat 31 = true ↔ c.mem.waiting = [] ∧
      c.mem.heldReqs.any (fun x => x.oldTags || coreAccess x.access) = false ∧
      c.mem.chans.any (fun e => e.2.queue.any (fun x => x.access.kind != 1)) = false) ∧
    c.applyTagTable.fld R.pruGstat 15 8 = (c.fld R.pruGstat 15 8 + 1) % 256 ∧ c.regsOnly c.applyTagTable [R.pruGstat] ∧
    c.applyTagTable.dram = c.dram ∧ c.raises c.applyTagTable [] := by
  rw [Chip.applyTagTable_eq]
  refine ⟨mapGet_applyTagTable hc.2.2.1 o, ?_, ?_, ?_, ?_, rfl, Chip.raises_of_evq rfl⟩
  · rw [Chip.setFld_bit_disjoint _ _ _ _ _ _ (by decide) (by decide), Chip.bit, Chip.modTxns_fld, Chip.tagsCopied,
      Chip.setFld_fld_same _ _ _ _ _ (by decide)]
    rfl
  · rw [Chip.setFld_bit_same _ _ _ _ (by decide), Chip.anyTxn_oldTags, show c.tagsCopied.mem = c.mem from rfl, ← List.isEmpty_iff]
    cases c.mem.waiting.isEmpty <;> cases c.mem.heldReqs.any (fun x => x.oldTags || coreAccess x.access) <;>
      cases c.mem.chans.any (fun e => e.2.queue.any (fun x => x.access.kind != 1)) <;> decide
  · rw [Chip.setFld_fld_disjoint _ _ _ _ _ _ _ (by decide) (by decide), Chip.modTxns_fld, Chip.tagsCopied,
      Chip.setFld_fld_disjoint _ _ _ _ _ _ _ (by decide) (by decide), Chip.setFld_fld_same _ _ _ _ _ (by decide)]
    rfl
  · simp [Chip.regsOnly_iff, Chip.tagsCopied]

/-! ### The writes that waited for the copy -/

/-- R398, R510: one byte of the tag shadow, which a granule beyond the capacity does not have. -/
theorem Chip.writeTags_byte (c : Chip) (o k : Nat) (b : Byte) : mapGet tbwDefault (c.writeTags o [b]).tbw k =
    if k = o ∧ o < 0x1D20000 + c.dramCap / 131072 then b else mapGet tbwDefault c.tbw k := by
  by_cases h : o < 0x1D20000 + c.dramCap / 131072
  · obtain ⟨n, hn⟩ : ∃ n, twTagShadow + c.dramCap / 131072 - o = n + 1 := ⟨0x1D20000 + c.dramCap / 131072 - o - 1, by
      simp only [twTagShadow]; omega⟩
    simp [Chip.writeTags, hn, Chip.tbwWrite, memWrite, mapGet_mapPut, h]
  · have hn : twTagShadow + c.dramCap / 131072 - o = 0 := by simp only [twTagShadow]; omega
    simp [Chip.writeTags, hn, Chip.tbwWrite, memWrite, h]

/-- R409: two writes that waited land in their order. -/
theorem Chip.writeTags_two (c : Chip) (o1 o2 : Nat) (b1 b2 : Byte) :
    mapGet tbwDefault ((c.writeTags o1 [b1]).writeTags o2 [b2]).tbw o2 =
      (if o2 < 0x1D20000 + c.dramCap / 131072 then b2 else mapGet tbwDefault c.tbw o2) ∧
    (o1 ≠ o2 → o1 < 0x1D20000 + c.dramCap / 131072 → mapGet tbwDefault ((c.writeTags o1 [b1]).writeTags o2 [b2]).tbw o1 = b1) := by
  have cap : (c.writeTags o1 [b1]).dramCap = c.dramCap := rfl
  refine ⟨?_, fun hne h1 => ?_⟩
  · rw [Chip.writeTags_byte, Chip.writeTags_byte, cap]
    by_cases h2 : o2 < 0x1D20000 + c.dramCap / 131072
    · simp [h2]
    · by_cases ho : o2 = o1
      · subst ho; simp [h2]
      · simp [h2, ho]
  · rw [Chip.writeTags_byte, Chip.writeTags_byte, cap]
    simp [hne, h1]

/-- R409: the part as the copy into the shadow ends, before what waited lands. -/
def Chip.copyEnded (c : Chip) : Chip := { c.setFld R.pruGstat 30 30 0 with tagHeld := [] }

theorem Chip.copyEnded_dramCap (c : Chip) : c.copyEnded.dramCap = c.dramCap := by
  have same : c.copyEnded.reg R.dmcCfg = c.reg R.dmcCfg := Chip.setFld_reg_other c 30 30 0 (show R.dmcCfg ≠ R.pruGstat by decide)
  rw [Chip.dramCap, Chip.fld_of_reg same, Chip.dramCap]

theorem Chip.tagCopyEnd_says (c : Chip) (o1 o2 : Nat) (b1 b2 : Byte) {d : Chip}
    (hd : d = (c.copyEnded.writeTags o1 [b1]).writeTags o2 [b2]) :
    d.bit R.pruGstat 30 = false ∧ d.tagHeld = [] ∧
      mapGet tbwDefault d.tbw o2 = (if o2 < 0x1D20000 + c.dramCap / 131072 then b2 else mapGet tbwDefault c.tbw o2) ∧
      (o1 ≠ o2 → o1 < 0x1D20000 + c.dramCap / 131072 → mapGet tbwDefault d.tbw o1 = b1) ∧
      c.regsOnly d [R.pruGstat] ∧ d.dram = c.dram ∧ c.raises d [] := by
  subst hd
  obtain ⟨second, first⟩ := c.copyEnded.writeTags_two o1 o2 b1 b2
  rw [Chip.copyEnded_dramCap] at second first
  exact ⟨Chip.setFld_bit_same c R.pruGstat 30 0 (by decide), rfl, second, first, (regsSame_setReg_iff (by simp) _).mpr regsSame.refl, rfl,
    Chip.raises_of_evq rfl⟩

/-- A refusal at `t` of a command that the part takes at `t`. -/
theorem Chip.at_refused (c : Chip) (t : Stamp) (src : Source) (a : Nat) (data : Word) (cause : Nat) :
    c.refused ((c.at t).refuse src a data cause) t src a data cause := (c.at t).refused_refuse src a data cause

/-- Settles O55: by what each command does in each of the states that its unit can be in. -/
theorem appliesMakeShadowsCurrent : Obligations.AppliesMakeShadowsCurrent := by
  unfold Obligations.AppliesMakeShadowsCurrent
  refine ⟨fun s t src u hu drained => answers_exec (if_pos (decide_eq_true hu)) ?_, fun s t src u hu drains =>
    answers_exec (if_pos (decide_eq_true hu)) ?_, fun s t src o drained idle hc => answers_exec rfl ?_, fun s t src busy =>
    answers_exec rfl ?_, fun s t copies => gives_exec rfl ?_, fun s t o1 o2 b1 b2 copies held => answers_exec rfl ?_,
    fun s t idle => gives_exec rfl ?_⟩
  · have taken : (s.chip.at t).pruCommand src u 1 = (s.chip.at t).applyRules u := by
      simp [Chip.pruCommand, drained]
    simp only [taken]
    exact (s.chip.at t).applyRules_says u
  · have refused : (s.chip.at t).pruCommand src u 1 = (s.chip.at t).refuse src (R.pruCmd u) (cmdWord 1) 1 := by
      simp [Chip.pruCommand, drains]
    simp only [refused]
    exact ⟨Chip.refuse_pruCur _ _ _ _ _, Chip.refuse_mem _ _ _ _ _, s.chip.at_refused t src _ _ _⟩
  · have taken : (s.chip.at t).tagCommand src 1 = (s.chip.at t).applyTagTable := by
      simp [Chip.tagCommand, drained, idle]
    simp only [taken]
    exact Chip.applyTagTable_says (c := s.chip.at t) hc o
  · have refused : (s.chip.at t).tagCommand src 1 =
        (s.chip.at t).refuse src R.pruGcmd (cmdWord 1) (if s.chip.bit R.pruGstat 31 = false then 1 else 2) := by
      cases drained : s.chip.bit R.pruGstat 31
      · simp [Chip.tagCommand, drained]
      · have copies : s.chip.bit R.pruGstat 30 = true := by simpa [drained] using busy
        simp [Chip.tagCommand, drained, copies]
    simp only [refused]
    exact ⟨Chip.refuse_mem _ _ _ _ _, s.chip.at_refused t src _ _ _⟩
  · simp only [Chip.at_bit, copies, Bool.not_true, Bool.false_eq_true, if_false]
    rfl
  · simp only [Chip.at_bit, copies, Bool.not_true, Bool.false_eq_true, if_false, Chip.at_tagHeld, held]
    exact (s.chip.at t).tagCopyEnd_says o1 o2 b1 b2 rfl
  · simp only [Chip.at_bit, idle, Bool.not_false, if_true]

end Sys2Proof.Machine

/-! ## Register writes (R15, R16, R434)

A write to the analogue die waits for the die-to-die link while that is down (R24), and then neither acts nor is counted as dropped. -/

namespace Sys2Proof.Machine

/-- What a command answers holds of the part that its evaluation gives. -/
theorem of_answers {i : Instr} {s : State} {P : Chip → Prop} {c : Chip} (h : Answers i s P) (hc : exec i s = .next { s with chip := c }) :
    P c := by
  obtain ⟨u, hu, -, hP⟩ := h
  rw [hc, Host.Outcome.next.injEq] at hu
  rw [← hu] at hP
  exact hP

/-- A peg's write to `REF_QUAL_FREQ`, on the analogue die, with the die-to-die link down as after reset. -/
def writeOverDownLink : Instr := .writeRegister 5 .peg 0 R.refQualFreq [1, 0, 0, 0]

/-- The part after reset, sealed. -/
def sealedReset : State := { State.reset with chip := State.reset.chip.setNat R.pitStat (2 ^ 31) }

/-- The part at stamp 5 with the write of `writeOverDownLink` waiting for the link. -/
def Chip.withWriteWaiting (c : Chip) : Chip := (c.at 5).queueDown (.write .peg false R.refQualFreq 1)

theorem exec_writeOverDownLink {s : State} (down : (s.chip.at 5).d2dUp = false) (hs : (s.chip.at 5).shapeOk R.refQualFreq 4 = true)
    (hp : placeOf (s.chip.at 5).dramCap R.refQualFreq = .register) :
    exec writeOverDownLink s = .next { s with chip := s.chip.withWriteWaiting } := by
  have ok : accessOk ⟨0, 0, false, 1, 8, 0, R.refQualFreq, 4, [1, 0, 0, 0], 0⟩ = true := by decide +kernel
  have remote : onAnalogue R.refQualFreq = true := by decide +kernel
  rw [show exec writeOverDownLink s = execWriteRegister 5 .peg 0 R.refQualFreq [1, 0, 0, 0] s from rfl, execWriteRegister]
  refine (runIf_of _ _ _ ok).trans ?_
  have run : (s.chip.at 5).performAccess .peg ⟨0, 0, false, 1, 8, 0, R.refQualFreq, 4, [1, 0, 0, 0], 0⟩ = s.chip.withWriteWaiting := by
    simp [Chip.performAccess, hp, Chip.regWrite, remote, down, Chip.withWriteWaiting, leNat]
  simp only [bne_self_eq_false, Bool.false_eq_true, if_false, List.length_cons, List.length_nil, hs, if_true]
  exact congrArg (fun c => Host.Outcome.next { s with chip := c }) run

/-- Refutes O13: a write to the analogue die does not act while the die-to-die link is down. -/
theorem not_registerWriteFollowsFieldTypes : ¬ Obligations.RegisterWriteFollowsFieldTypes := by
  unfold Obligations.RegisterWriteFollowsFieldTypes
  intro h
  have written := of_answers (h State.reset 5 .peg 0 R.refQualFreq [1, 0, 0, 0] _ _ (fd "WIN" 19 0 .rw (.const 4600) .any)
    (by decide +kernel) (by decide +kernel) (by decide +kernel) rfl (by decide +kernel) (by rfl) (by simp) (by simp) (by decide +kernel)
    (by decide +kernel)) (exec_writeOverDownLink (by decide +kernel) (by decide +kernel) (by decide +kernel))
  exact absurd (written.2.1 rfl (by decide +kernel)) (by decide +kernel)

/-- Refutes O12: a write to the analogue die that waits for the die-to-die link is not counted. -/
theorem not_droppedWriteIsCountedAndChangesNoSealedField : ¬ Obligations.DroppedWriteIsCountedAndChangesNoSealedField := by
  unfold Obligations.DroppedWriteIsCountedAndChangesNoSealedField
  intro h
  have counted := of_answers (h sealedReset 5 .peg 0 R.refQualFreq [1, 0, 0, 0] _ _ (fd "WIN" 19 0 .rw (.const 4600) .any)
    (by decide +kernel) (by decide +kernel) (by decide +kernel) rfl (by decide +kernel) (by rfl) (by simp) (by simp) (by decide +kernel)
    (by decide +kernel) rfl (by decide +kernel)) (exec_writeOverDownLink (by decide +kernel) (by decide +kernel) (by decide +kernel))
  exact absurd counted.2.1 (by decide +kernel)

/-! ### SNAP over a link that is down (R20, R24) -/

/-- The part after reset with a word of touch channel 0's self-test result, which is read after SNAP. -/
def openResult : State := { State.reset with chip := State.reset.chip.setNat (R.tchTresOpen 0 0) 77 }

theorem exec_snap_openResult : exec (.snap 5 .peg (R.tchSnap 0)) openResult =
    .next { openResult with chip := (openResult.chip.at 5).queueDown (.write .peg false (R.tchSnap 0) 1) } := by
  have ok : (snapScope (R.tchSnap 0)).isSome = true := by decide +kernel
  have waits : (onAnalogue (R.tchSnap 0) && !(openResult.chip.at 5).d2dUp) = true := by decide +kernel
  rw [show exec (.snap 5 .peg (R.tchSnap 0)) openResult = execSnap 5 .peg (R.tchSnap 0) openResult from rfl, execSnap, runIf_of _ _ _ ok,
    Chip.regWrite, if_pos waits]

/-- Refutes O14: a SNAP of a touch channel latches nothing while the die-to-die link is down, as the write waits. -/
theorem not_readsSnapsAndRecordClearsKeepTheRest : ¬ Obligations.ReadsSnapsAndRecordClearsKeepTheRest := by
  unfold Obligations.ReadsSnapsAndRecordClearsKeepTheRest
  intro h
  have latched := of_answers (h.2.2.1 openResult 5 .peg (R.tchSnap 0) 0x40C00000 0x40C01000 (R.tchTresOpen 0 0) (by decide +kernel)
    (by decide) (by decide +kernel) (by unfold Chip.canonical; decide +kernel) (by decide) (by decide) (by decide +kernel))
    exec_snap_openResult
  exact absurd latched.1 (by decide +kernel)

end Sys2Proof.Machine

/-! ## The event journal (R446 to R451, R514) -/

namespace Sys2Proof.Machine

/-! ### Acknowledgement -/

/-- R450: the level of ALERT_N. -/
def Chip.alerting (c : Chip) : Bool :=
  c.bit R.pitStat 30 || c.jrn.sevLast.any (fun e => decide (e.1 ≤ c.fld R.evjAlert 2 0) && seqAbove e.2 (c.reg R.evjAck).toNat)

/-- R450: the pin and its copy in `EVJ_STAT` follow the level. -/
theorem Chip.syncAlert_eq (c : Chip) : c.syncAlert = if c.alerting == c.bit R.evjStat 31 then c else
    (c.setFld R.evjStat 31 31 (if c.alerting then 1 else 0)).send (.alertN (if c.alerting then 1 else 0)) := rfl

theorem Chip.syncAlert_bit (c : Chip) : c.syncAlert.bit R.evjStat 31 = c.alerting := by
  rw [Chip.syncAlert_eq]
  split
  · rename_i h; exact (beq_iff_eq.mp h).symm
  · rw [Chip.send_bit, Chip.setFld_bit_same _ _ _ _ (by decide)]
    cases c.alerting <;> rfl

theorem Chip.syncAlert_fld (c : Chip) {a : Nat} {hi lo : Nat} (h : hi < 31) : c.syncAlert.fld a hi lo = c.fld a hi lo := by
  rw [Chip.syncAlert_eq]
  split
  · rfl
  · rw [Chip.send_fld, Chip.setFld_fld_ne _ (by omega) (by omega)]

theorem Chip.syncAlert_reg (c : Chip) {a : Nat} (h : a ≠ R.evjStat) : c.syncAlert.reg a = c.reg a := by
  rw [Chip.syncAlert_eq]
  split
  · rfl
  · rw [Chip.send_reg, Chip.setFld_reg_other _ _ _ _ h]

@[simp] theorem Chip.syncAlert_evq (c : Chip) : c.syncAlert.evq = c.evq := by rw [Chip.syncAlert_eq]; split <;> rfl
@[simp] theorem Chip.syncAlert_dram (c : Chip) : c.syncAlert.dram = c.dram := by rw [Chip.syncAlert_eq]; split <;> rfl
@[simp] theorem Chip.syncAlert_tbw (c : Chip) : c.syncAlert.tbw = c.tbw := by rw [Chip.syncAlert_eq]; split <;> rfl
@[simp] theorem Chip.syncAlert_jrn (c : Chip) : c.syncAlert.jrn = c.jrn := by rw [Chip.syncAlert_eq]; split <;> rfl

@[simp] theorem regsSame_syncAlert_iff {l : List Nat} {r : List (Nat × Word)} {c : Chip} (h : R.evjStat ∈ l) :
    regsSame l r c.syncAlert.regs ↔ regsSame l r c.regs := by
  rw [Chip.syncAlert_eq]
  split
  · rfl
  · simp [h]

/-- Settles O15. -/
theorem acknowledgementClampsAndSetsAlert : Obligations.AcknowledgementClampsAndSetsAlert := by
  unfold Obligations.AcknowledgementClampsAndSetsAlert
  rintro s t seq last hlast
  have hl : last < 2 ^ 32 := by omega
  refine answers_of (show exec _ s = execAcknowledge t seq s from rfl) rfl ?_
  have written : (s.chip.at t).ackWrite (seq % 2 ^ 32) =
      ((s.chip.at t).setNat R.evjAck (if seqAbove (seq % 2 ^ 32) last then last else seq % 2 ^ 32)).syncAlert := by
    rw [hlast]; rfl
  rw [written]
  generalize hv : (if seqAbove (seq % 2 ^ 32) last then last else seq % 2 ^ 32) = v
  have ack : (((s.chip.at t).setNat R.evjAck v).syncAlert.reg R.evjAck).toNat = v := by
    rw [Chip.syncAlert_reg _ (by decide), Chip.setNat_reg_same, BitVec.toNat_ofNat, Nat.mod_eq_of_lt]
    rw [← hv]
    split <;> omega
  refine ⟨fun above => ?_, fun below => ?_, ?_, ?_, Chip.writesOnly_of ?_ ?_ ?_, Chip.raises_of_evq ?_⟩
  · rw [ack, ← hv, if_pos above]
  · rw [ack, ← hv, if_neg (by rw [below]; decide)]
  · rw [Chip.syncAlert_bit, ack, Chip.alerting]
    rw [Chip.syncAlert_reg _ (by decide)] at ack
    rw [ack, Chip.setNat_bit_other _ _ (by decide), Chip.setNat_fld_other _ _ (by decide)]
    rfl
  · rw [Chip.syncAlert_fld _ (by decide), Chip.setNat_fld_other _ _ (by decide), Chip.at_fld]
  · simp
  · simp
  · simp
  · simp

/-! ### A record that the ring does not take

A ring write that the journal's protection unit faults is a violation. One of the same edge as the violation that the unit's record holds,
with a lower SOURCE, replaces that violation's event in the queue (R405), which so loses an event that waited behind the oldest. -/

/-- The event of a violation that unit 22 has recorded at stamp 5. -/
def violationTold : Ev := ⟨0xE001, .room, 5, [.val 1 22]⟩

/-- A part whose ring is open, with unit 22 enabled and the violation of source 9 at stamp 5 in its record. -/
def ringFaults : State :=
  let c := ((State.reset.chip.setFld R.evjStat 29 29 1).setNat (R.pruFrec 22) (2 ^ 31 + 9)).setWide (R.pruFrecStampLo 22) (R.pruFrecStampHi 22) 5
  { State.reset with chip := { c with pruCur := [(22, 2 ^ 31)], evq := [⟨1, .room, 0, []⟩, violationTold] } }

/-- Refutes O16: the violation that the record's write is takes the place of the queued event of one of the same edge. -/
theorem not_queuedEventsBecomeRecords : ¬ Obligations.QueuedEventsBecomeRecords := by
  unfold Obligations.QueuedEventsBecomeRecords
  intro h
  have taken := of_answers (h.1 ringFaults 5 ⟨1, .room, 0, []⟩ [violationTold] rfl (.inl (by decide +kernel)))
    (show exec _ ringFaults = execEventRecordWrite 5 ringFaults from rfl)
  exact absurd taken.1 (by decide +kernel)

end Sys2Proof.Machine

/-! ## Accesses to registers and table windows (R394 to R405, R502 to R505) -/

namespace Sys2Proof.Machine

/-! ### The check of an access -/

theorem Chip.check_of_passes {c : Chip} {a : Access} (h : c.passes a) : c.check a = (c, true) := by
  unfold Chip.check
  rcases h with off | none
  · rw [if_pos (beq_iff_eq.mpr off)]
  · simp only [none, beq_self_eq_true, if_true, ite_self]

theorem Chip.check_of_not_passes {c : Chip} {a : Access} (h : ¬ c.passes a) : c.check a = (c.violation a (c.checkCause a), false) := by
  obtain ⟨on, cause⟩ := not_or.mp h
  unfold Chip.check
  rw [if_neg (by rwa [beq_iff_eq])]
  simp only [beq_iff_eq, cause, if_false]

/-- The registers in which unit `u` reports a violation (R404, R405). -/
def violationRegs (u : Nat) : List Nat :=
  [R.pruFcnt u, R.pruFrec u, R.pruFrecAddrLo u, R.pruFrecAddrHi u, R.pruFrecStampLo u, R.pruFrecStampHi u] ++ eventRegs

/-- R404: the part with the record of a violation's unit filled, before its event is raised. -/
def Chip.recorded (c : Chip) (v : Violation) : Chip :=
  ((c.setNat (R.pruFrec v.unit) (2 ^ 31 + v.cause * 2 ^ 24 + v.kind * 2 ^ 20 + (if v.user then 1 else 0) * 2 ^ 19 + v.key * 2 ^ 12 +
    v.source)).setWide (R.pruFrecAddrLo v.unit) (R.pruFrecAddrHi v.unit) v.addr).setWide (R.pruFrecStampLo v.unit)
    (R.pruFrecStampHi v.unit) (shortStamp v.stamp)

theorem Chip.fillRecord_eq (c : Chip) (v : Violation) : c.fillRecord v = (c.recorded v).event 0xE001 .room
    [.val 1 v.unit, .val 1 v.cause, .val 1 v.kind, .val 1 (if v.user then 1 else 0), .val 1 v.key, .val 1 v.source, .val 8 v.addr] := rfl

/-- The registers of a unit's record lie apart from each other and from those of the event journal. -/
theorem pruFrec_apart {u : Nat} (hu : u < 24) : R.pruFrec u ≠ R.pruFrecAddrLo u ∧ R.pruFrec u ≠ R.pruFrecAddrHi u ∧
    R.pruFrec u ≠ R.pruFrecStampLo u ∧ R.pruFrec u ≠ R.pruFrecStampHi u ∧ R.pruFrec u ≠ R.evjStat ∧ R.pruFrec u ≠ R.evjCnt 1 ∧
    R.pruFrec u ≠ R.pruFcnt u := by
  simp only [R.pruFrec, R.pruFrecAddrLo, R.pruFrecAddrHi, R.pruFrecStampLo, R.pruFrecStampHi, R.evjStat, R.evjCnt, R.pruFcnt]
  omega

theorem pruFcnt_apart {u : Nat} (hu : u < 24) : R.pruFcnt u ≠ R.pruFrecAddrLo u ∧ R.pruFcnt u ≠ R.pruFrecAddrHi u ∧
    R.pruFcnt u ≠ R.pruFrecStampLo u ∧ R.pruFcnt u ≠ R.pruFrecStampHi u ∧ R.pruFcnt u ≠ R.evjStat ∧ R.pruFcnt u ≠ R.evjCnt 1 ∧
    R.pruFcnt u ≠ R.pruFrec u := by
  simp only [R.pruFrec, R.pruFrecAddrLo, R.pruFrecAddrHi, R.pruFrecStampLo, R.pruFrecStampHi, R.evjStat, R.evjCnt, R.pruFcnt]
  omega

/-- R404: what a filled record's first word holds. -/
theorem Chip.fillRecord_frec (c : Chip) (v : Violation) (hu : v.unit < 24) : (c.fillRecord v).reg (R.pruFrec v.unit) =
    BitVec.ofNat 32 (2 ^ 31 + v.cause * 2 ^ 24 + v.kind * 2 ^ 20 + (if v.user then 1 else 0) * 2 ^ 19 + v.key * 2 ^ 12 + v.source) := by
  obtain ⟨h1, h2, h3, h4, h5, h6, -⟩ := pruFrec_apart hu
  rw [Chip.fillRecord_eq, Chip.event_reg _ _ _ _ h5 h6, Chip.recorded, Chip.setWide_reg_other _ _ h3 h4, Chip.setWide_reg_other _ _ h1 h2,
    Chip.setNat_reg_same]

section
variable {l : List Nat} {r : List (Nat × Word)} {c : Chip}

theorem regsSame_fillRecord (c : Chip) (v : Violation) : regsSame ([R.pruFrec v.unit, R.pruFrecAddrLo v.unit, R.pruFrecAddrHi v.unit,
    R.pruFrecStampLo v.unit, R.pruFrecStampHi v.unit] ++ eventRegs) c.regs (c.fillRecord v).regs := by
  rw [Chip.fillRecord_eq, Chip.recorded]
  simp

@[simp] theorem Chip.fillRecord_dram (c : Chip) (v : Violation) : (c.fillRecord v).dram = c.dram := by
  rw [Chip.fillRecord_eq, Chip.event_dram, Chip.recorded, Chip.setWide_dram, Chip.setWide_dram, Chip.setNat_dram]
@[simp] theorem Chip.fillRecord_tbw (c : Chip) (v : Violation) : (c.fillRecord v).tbw = c.tbw := by
  rw [Chip.fillRecord_eq, Chip.event_tbw, Chip.recorded, Chip.setWide_tbw, Chip.setWide_tbw, Chip.setNat_tbw]
@[simp] theorem Chip.fillRecord_tx (c : Chip) (v : Violation) : (c.fillRecord v).tx = c.tx := by
  rw [Chip.fillRecord_eq, Chip.event_tx, Chip.recorded, Chip.setWide_tx, Chip.setWide_tx, Chip.setNat_tx]
@[simp] theorem Chip.fillRecord_clk (c : Chip) (v : Violation) : (c.fillRecord v).clk = c.clk := by
  rw [Chip.fillRecord_eq, Chip.event_clk, Chip.recorded, Chip.setWide_clk, Chip.setWide_clk, Chip.setNat_clk]

end

/-- The violation that an access faulted for a cause is (R404). -/
def Chip.violationOf (c : Chip) (a : Access) (cause : Nat) : Violation :=
  { unit := a.unit, stamp := c.clk, cause := cause, kind := a.kind, user := a.unit == 0 && a.user, key := c.accessKey a,
    source := a.source, addr := a.addr }

/-- R404: the violation is remembered and counted. -/
def Chip.countViolation (c : Chip) (a : Access) (cause : Nat) : Chip :=
  ({ c with violations := c.violations.filter (fun x => x.unit != a.unit || x.stamp == c.clk) ++ [c.violationOf a cause] } : Chip).bump
    (R.pruFcnt a.unit)

/-- R405: the event of a violation of the same edge leaves the queue. -/
def Chip.untellViolation (c : Chip) (u : Nat) : Chip :=
  ({ c with evq := c.evq.filter (fun e => !(e.code == 0xE001 && e.stamp == c.clk && e.content.head? == some (.val 1 u))) } : Chip).syncBacklog

theorem Chip.violation_eq (c : Chip) (a : Access) (cause : Nat) : c.violation a cause =
    if !(c.countViolation a cause).bit (R.pruFrec a.unit) 31 then (c.countViolation a cause).fillRecord (c.violationOf a cause)
    else if (c.countViolation a cause).filledNow a.unit && decide (a.source < (c.countViolation a cause).fld (R.pruFrec a.unit) 7 0) then
      (((c.countViolation a cause).untellViolation a.unit).fillRecord (c.violationOf a cause)).eventLimited a.unit 0xE002 .room
        [.val 1 a.unit, .occ]
    else (c.countViolation a cause).eventLimited a.unit 0xE002 .room [.val 1 a.unit, .occ] := rfl

/-- R404, R405: a counted violation fills an empty record, takes the place of one of the same edge with a higher SOURCE, or is told
with the next of its unit. -/
theorem Chip.violation_cases (c : Chip) (a : Access) (cause : Nat) :
    ((c.countViolation a cause).bit (R.pruFrec a.unit) 31 = false ∧
      c.violation a cause = (c.countViolation a cause).fillRecord (c.violationOf a cause)) ∨
    ((c.countViolation a cause).bit (R.pruFrec a.unit) 31 = true ∧ c.violation a cause =
      (((c.countViolation a cause).untellViolation a.unit).fillRecord (c.violationOf a cause)).eventLimited a.unit 0xE002 .room
        [.val 1 a.unit, .occ]) ∨
    ((c.countViolation a cause).bit (R.pruFrec a.unit) 31 = true ∧
      c.violation a cause = (c.countViolation a cause).eventLimited a.unit 0xE002 .room [.val 1 a.unit, .occ]) := by
  rw [Chip.violation_eq]
  cases full : (c.countViolation a cause).bit (R.pruFrec a.unit) 31
  · exact .inl ⟨rfl, if_pos rfl⟩
  · refine .inr ?_
    rw [if_neg (by decide)]
    split
    · exact .inl ⟨rfl, rfl⟩
    · exact .inr ⟨rfl, rfl⟩

theorem regsSame_violation (c : Chip) (a : Access) (cause : Nat) : regsSame (violationRegs a.unit) c.regs (c.violation a cause).regs := by
  have counted : regsSame (violationRegs a.unit) c.regs (c.countViolation a cause).regs := by
    simp [Chip.countViolation, violationRegs]
  have filled : ∀ d : Chip, regsSame (violationRegs a.unit) d.regs (d.fillRecord (c.violationOf a cause)).regs := fun d =>
    (regsSame_fillRecord d _).mono (by simp [violationRegs, Chip.violationOf])
  have untold : regsSame (violationRegs a.unit) (c.countViolation a cause).regs ((c.countViolation a cause).untellViolation a.unit).regs := by
    simp [Chip.untellViolation, violationRegs]
  have told : ∀ d : Chip, regsSame (violationRegs a.unit) d.regs (d.eventLimited a.unit 0xE002 .room [.val 1 a.unit, .occ]).regs := fun d => by
    simp [violationRegs]
  rcases c.violation_cases a cause with ⟨-, h⟩ | ⟨-, h⟩ | ⟨-, h⟩ <;> rw [h]
  · exact counted.trans (filled _)
  · exact (counted.trans untold).trans ((filled _).trans (told _))
  · exact counted.trans (told _)

section
variable (c : Chip) (a : Access) (cause : Nat)

@[simp] theorem Chip.violation_dram : (c.violation a cause).dram = c.dram := by
  rcases c.violation_cases a cause with ⟨-, h⟩ | ⟨-, h⟩ | ⟨-, h⟩ <;> rw [h] <;> simp [Chip.countViolation, Chip.untellViolation]
@[simp] theorem Chip.violation_tbw : (c.violation a cause).tbw = c.tbw := by
  rcases c.violation_cases a cause with ⟨-, h⟩ | ⟨-, h⟩ | ⟨-, h⟩ <;> rw [h] <;> simp [Chip.countViolation, Chip.untellViolation]
@[simp] theorem Chip.violation_tx : (c.violation a cause).tx = c.tx := by
  rcases c.violation_cases a cause with ⟨-, h⟩ | ⟨-, h⟩ | ⟨-, h⟩ <;> rw [h] <;> simp [Chip.countViolation, Chip.untellViolation]
@[simp] theorem Chip.violation_clk : (c.violation a cause).clk = c.clk := by
  rcases c.violation_cases a cause with ⟨-, h⟩ | ⟨-, h⟩ | ⟨-, h⟩ <;> rw [h] <;> simp [Chip.countViolation, Chip.untellViolation]

/-- R404: a violation advances its unit's count. -/
theorem Chip.violation_count (hu : a.unit < 24) : ((c.violation a cause).reg (R.pruFcnt a.unit)).toNat =
    min ((c.reg (R.pruFcnt a.unit)).toNat + 1) (2 ^ 32 - 1) := by
  obtain ⟨h1, h2, h3, h4, h5, h6, h7⟩ := pruFcnt_apart hu
  have counted : (((c.countViolation a cause).reg (R.pruFcnt a.unit))).toNat = min ((c.reg (R.pruFcnt a.unit)).toNat + 1) (2 ^ 32 - 1) :=
    Chip.bump_reg_same _ _
  have filled : ∀ d : Chip, (d.fillRecord (c.violationOf a cause)).reg (R.pruFcnt a.unit) = d.reg (R.pruFcnt a.unit) := fun d =>
    (regsSame_fillRecord d _).reg (by simp [Chip.violationOf, h1, h2, h3, h4, h5, h6, h7])
  rcases c.violation_cases a cause with ⟨-, h⟩ | ⟨-, h⟩ | ⟨-, h⟩ <;> rw [h]
  · rw [filled, counted]
  · rw [Chip.eventLimited_reg _ _ _ _ _ h5 h6, filled, Chip.untellViolation, Chip.syncBacklog, Chip.setFld_reg_other _ _ _ _ h5]
    exact counted
  · rw [Chip.eventLimited_reg _ _ _ _ _ h5 h6, counted]

theorem Chip.accessKey_lt : c.accessKey a < 16 := by
  unfold Chip.accessKey
  split
  · exact Nat.lt_of_lt_of_le (bitsOf_lt _ _ _) (Nat.pow_le_pow_right (n := 2) (by decide) (by omega : 4 * a.source + 3 + 1 - 4 * a.source ≤ 4))
  · exact Nat.mod_lt _ (by decide)

/-- R404: the fields of a record's first word. -/
theorem frec_bits {cause kind w key source : Nat} (hc : cause < 8) (hk : kind < 3) (hy : key < 16) (hs : source < 32) (hw : w ≤ 1) :
    bitsOf (BitVec.ofNat 32 (2 ^ 31 + cause * 2 ^ 24 + kind * 2 ^ 20 + w * 2 ^ 19 + key * 2 ^ 12 + source)) 31 31 = 1 ∧
    bitsOf (BitVec.ofNat 32 (2 ^ 31 + cause * 2 ^ 24 + kind * 2 ^ 20 + w * 2 ^ 19 + key * 2 ^ 12 + source)) 26 24 = cause := by
  simp only [bitsOf, bitsNat, BitVec.toNat_ofNat, show 31 + 1 - 31 = 1 from rfl, show 26 + 1 - 24 = 3 from rfl]
  omega

/-- R404: after a violation that found the record empty the record holds its cause. -/
theorem Chip.violation_frec (hu : a.unit < 24) (hk : a.kind < 3) (hs : a.source < 32) (hc : cause < 8)
    (empty : c.bit (R.pruFrec a.unit) 31 = false) :
    (c.violation a cause).bit (R.pruFrec a.unit) 31 = true ∧ (c.violation a cause).fld (R.pruFrec a.unit) 26 24 = cause := by
  have same : (c.countViolation a cause).bit (R.pruFrec a.unit) 31 = c.bit (R.pruFrec a.unit) 31 :=
    Chip.bump_bit_other _ (pruFrec_apart hu).2.2.2.2.2.2 31
  have key := c.accessKey_lt a
  have filled : c.violation a cause = (c.countViolation a cause).fillRecord (c.violationOf a cause) := by
    rcases c.violation_cases a cause with ⟨-, h⟩ | ⟨full, -⟩ | ⟨full, -⟩
    · exact h
    · rw [same, empty] at full; exact absurd full (by decide)
    · rw [same, empty] at full; exact absurd full (by decide)
  have word := (c.countViolation a cause).fillRecord_frec (c.violationOf a cause) hu
  rw [filled, Chip.bit, Chip.fld, Chip.fld, show (R.pruFrec a.unit) = R.pruFrec (c.violationOf a cause).unit from rfl, word]
  have bits := frec_bits hc hk key hs (w := if (c.violationOf a cause).user then 1 else 0) (by split <;> decide)
  exact ⟨beq_iff_eq.mpr bits.1, bits.2⟩

end

/-! ### The commands -/

/-- An initiator's group and class decide nothing outside the memory system (R385). -/
theorem Chip.groupOf_eq (c : Chip) (a : Access) : ∃ g k, c.groupOf a = { a with group := g, cls := k } := by
  unfold Chip.groupOf
  simp only []
  repeat' split
  all_goals exact ⟨_, _, rfl⟩

theorem Chip.doAccess_group {c : Chip} {a : Access} (h : placeOf c.dramCap a.addr ≠ .dram) (src : Source) (g k : Nat) :
    c.doAccess src { a with group := g, cls := k } = c.doAccess src a := by
  have no : ¬ (placeOf c.dramCap a.addr == .dram) = true := by rwa [beq_iff_eq]
  rw [Chip.doAccess, if_neg no, Chip.doAccess, if_neg no]
  rfl

/-- An access to a register or a table window that its unit lets pass and whose shape the window takes. -/
theorem Chip.doAccess_of_passes {c : Chip} {a : Access} (h : placeOf c.dramCap a.addr ≠ .dram) (hp : c.passes a)
    (hs : c.shapeOk a.addr a.len = true) (src : Source) : c.doAccess src a = c.performAccess src a := by
  rw [Chip.doAccess, if_neg (by rwa [beq_iff_eq]), Chip.check_of_passes hp]
  simp only [hs, Bool.and_self, if_true]

/-- Any other access outside DRAM is answered with the error flag. -/
theorem Chip.doAccess_faulted {c : Chip} {a : Access} (h : placeOf c.dramCap a.addr ≠ .dram)
    (hf : ¬ c.passes a ∨ c.shapeOk a.addr a.len = false) (src : Source) : c.doAccess src a = (c.check a).1.faulted a := by
  rw [Chip.doAccess, if_neg (by rwa [beq_iff_eq])]
  by_cases hp : c.passes a
  · rw [Chip.check_of_passes hp]
    simp only [hf.resolve_left (fun h => h hp), Bool.and_false, Bool.false_eq_true, if_false]
  · rw [Chip.check_of_not_passes hp]; rfl

/-- MEMORY_REQUEST outside DRAM. -/
theorem exec_memoryRequest {s : State} {a : Access} (ha : accessShape a = true) (h : placeOf s.chip.dramCap a.addr ≠ .dram) (t : Stamp) :
    exec (.memoryRequest t a) s = .next { s with chip := (s.chip.at t).doAccess (accessSource a) a } := by
  obtain ⟨g, k, hg⟩ := (s.chip.at t).groupOf_eq a
  rw [show exec (.memoryRequest t a) s = execMemoryRequest t a s from rfl, execMemoryRequest,
    runIf_of _ _ _ (show accessOk a = true from ha), hg,
    Chip.doAccess_group (c := s.chip.at t) h]

/-- What a faulted access leaves: the answer with the error flag, and the report of its unit. -/
theorem Chip.faulted_says (c : Chip) (a : Access) :
    ((c.check a).1.faulted a).tx = c.tx ++ [.reply a.unit a.source (if a.kind = 1 then [] else List.replicate a.len 0) true] ∧
      c.writesOnly ((c.check a).1.faulted a) (violationRegs a.unit) := by
  by_cases h : c.passes a
  · rw [Chip.check_of_passes h]
    exact ⟨by simp [Chip.faulted, Chip.send], Chip.writesOnly.refl.send _⟩
  · rw [Chip.check_of_not_passes h]
    refine ⟨by simp [Chip.faulted, Chip.send], Chip.writesOnly_of ?_ ?_ ?_⟩
    · simpa [Chip.faulted] using regsSame_violation c a _
    · simp [Chip.faulted]
    · simp [Chip.faulted]

/-- R400, R502: a block window's word that is none is a violation of cause 1. -/
theorem Chip.checkCause_of_shape {c : Chip} {a : Access} (h : c.shapeOk a.addr a.len = false) : c.checkCause a = 1 := by
  unfold Chip.checkCause
  simp only [h, Bool.not_false, if_true]

theorem Chip.shapeOk_register {c : Chip} {a n : Nat} (h : placeOf c.dramCap a = .register) : c.shapeOk a n = (a % 4 == 0 && n == 4) := by
  rw [Chip.shapeOk, h]

theorem Chip.shapeOk_table {c : Chip} {a n : Nat} (h : placeOf c.dramCap a = .table) : c.shapeOk a n = true := by
  rw [Chip.shapeOk, h]

theorem Chip.shapeOk_unmapped {c : Chip} {a n : Nat} (h : placeOf c.dramCap a = .unmapped) : c.shapeOk a n = false := by
  rw [Chip.shapeOk, h]

/-- The bounds that an access's shape sets (R401). -/
theorem accessShape_bounds {a : Access} (h : accessShape a = true) : a.unit < 24 ∧ a.kind < 3 ∧ a.source < 32 ∧
    (a.kind = 1 → a.data.length = a.len) := by
  simp only [accessShape, Bool.and_eq_true, decide_eq_true_eq, Bool.or_eq_true, bne_iff_ne, ne_eq, beq_iff_eq] at h
  obtain ⟨⟨⟨⟨⟨⟨⟨⟨⟨hu, hk⟩, -⟩, -⟩, -⟩, hs⟩, -⟩, -⟩, hd⟩, -⟩ := h
  exact ⟨hu, hk, hs, fun h1 => hd.resolve_left (fun hn => hn h1)⟩

/-- A register read by an access is answered with what the register reads as. -/
theorem Chip.performAccess_read {c : Chip} {a : Access} (h : placeOf c.dramCap a.addr = .register) (hk : a.kind ≠ 1) (src : Source) :
    c.performAccess src a = c.send (.reply a.unit a.source (leBytes 4 (c.readReg a.addr).toNat) false) := by
  rw [Chip.performAccess, h]
  exact if_neg (by rwa [beq_iff_eq])

theorem Chip.performAccess_write {c : Chip} {a : Access} (h : placeOf c.dramCap a.addr = .register) (hk : a.kind = 1) (src : Source) :
    c.performAccess src a = c.regWrite src false a.addr (BitVec.ofNat 32 (leNat a.data)) := by
  rw [Chip.performAccess, h]
  exact if_pos (by rwa [beq_iff_eq])

theorem Chip.performAccess_tableRead {c : Chip} {a : Access} (h : placeOf c.dramCap a.addr = .table) (hk : a.kind ≠ 1) (src : Source) :
    c.performAccess src a = c.send (.reply a.unit a.source (c.tableRead (a.addr - tableBase) a.len) false) := by
  rw [Chip.performAccess, h]
  exact if_neg (by rwa [beq_iff_eq])

theorem Chip.performAccess_tableWrite {c : Chip} {a : Access} (h : placeOf c.dramCap a.addr = .table) (hk : a.kind = 1) (src : Source) :
    c.performAccess src a = c.tableWrite src (a.addr - tableBase) a.data := by
  rw [Chip.performAccess, h]
  exact if_pos (by rwa [beq_iff_eq])

/-- R15, R24: a write to a register with no effect of its own that does not wait for the die-to-die link. -/
theorem Chip.regWrite_plain {c : Chip} {a : Nat} (hr : roleOf a = .plain) (hl : onAnalogue a = false ∨ c.d2dUp = true) (src : Source)
    (w : Word) : c.regWrite src false a w = c.writeFields a w := by
  have here : ¬ (onAnalogue a && !c.d2dUp) = true := by rcases hl with h | h <;> simp [h]
  rw [Chip.regWrite, if_neg here, Chip.regWriteNow, hr]

/-- A write to a table window region: ignored, dropped, held back or done. -/
theorem tableKind_le (o : Nat) : tableKind o ≤ 3 := by
  unfold tableKind
  repeat' split
  all_goals decide

/-- R505: a command that accesses a table window which its unit lets pass. -/
theorem exec_tableAccess {s : State} {a : Access} (ha : accessShape a = true) (h : placeOf s.chip.dramCap a.addr = .table)
    (hp : s.chip.passes a) (t : Stamp) :
    exec (.memoryRequest t a) s = .next { s with chip := (s.chip.at t).performAccess (accessSource a) a } := by
  have out : placeOf s.chip.dramCap a.addr ≠ .dram := by rw [h]; decide
  rw [exec_memoryRequest ha out t, Chip.doAccess_of_passes (c := s.chip.at t) out hp (Chip.shapeOk_table (c := s.chip.at t) h)]

theorem exec_tableWrite {s : State} {a : Access} (ha : accessShape a = true) (h : placeOf s.chip.dramCap a.addr = .table)
    (hp : s.chip.passes a) (hk : a.kind = 1) (t : Stamp) :
    exec (.memoryRequest t a) s = .next { s with chip := (s.chip.at t).tableWrite (accessSource a) (a.addr - tableBase) a.data } := by
  rw [exec_tableAccess ha h hp t, Chip.performAccess_tableWrite (c := s.chip.at t) h hk]

theorem exec_registerAccess {s : State} {a : Access} (ha : accessShape a = true) (h : placeOf s.chip.dramCap a.addr = .register)
    (h4 : a.addr % 4 = 0) (hl : a.len = 4) (hp : s.chip.passes a) (t : Stamp) :
    exec (.memoryRequest t a) s = .next { s with chip := (s.chip.at t).performAccess (accessSource a) a } := by
  have out : placeOf s.chip.dramCap a.addr ≠ .dram := by rw [h]; decide
  rw [exec_memoryRequest ha out t, Chip.doAccess_of_passes (c := s.chip.at t) out hp]
  rw [Chip.shapeOk_register (c := s.chip.at t) h, h4, hl]
  rfl

theorem exec_faultedAccess {s : State} {a : Access} (ha : accessShape a = true) (h : placeOf s.chip.dramCap a.addr ≠ .dram)
    (hf : ¬ s.chip.passes a ∨ s.chip.shapeOk a.addr a.len = false) (t : Stamp) :
    exec (.memoryRequest t a) s = .next { s with chip := ((s.chip.at t).check a).1.faulted a } := by
  rw [exec_memoryRequest ha h t, Chip.doAccess_faulted (c := s.chip.at t) h hf]

/-- A table window write that its region takes. -/
theorem Chip.tableWrite_done {c : Chip} {src : Source} {o : Nat} (h : c.isSealed = false ∧ tableKind o ≠ 0 ∧ tableKind o ≠ 3 ∨
    tableKind o = 2 ∧ src = .base) (l : List Byte) : c.tableWrite src o l = c.tbwWrite o l := by
  unfold Chip.tableWrite
  rcases h with ⟨open_, h0, h3⟩ | ⟨h2, rfl⟩
  · simp [open_, h0, h3]
  · simp [h2]

/-- R434: the register that counts dropped writes is none of those that tell of one. -/
theorem Chip.dropWrite_count (c : Chip) (a : Nat) : (c.dropWrite a).reg R.pitSwrCount = (c.bump R.pitSwrCount).reg R.pitSwrCount := by
  unfold Chip.dropWrite
  simp only []
  rw [Chip.eventLimited_reg _ _ _ _ _ (by decide) (by decide)]
  split
  · rfl
  · rw [Chip.setFld_reg_other _ _ _ _ (by decide), Chip.setFld_reg_other _ _ _ _ (by decide)]

/-- Settles O10: by the place of the access, its shape, and whether its unit lets it pass. -/
theorem blockWindowsTakeAlignedWordsAlone : Obligations.BlockWindowsTakeAlignedWordsAlone := by
  unfold Obligations.BlockWindowsTakeAlignedWordsAlone
  refine ⟨fun s t a ha hreg hshape => ?_, fun s t a ha hreg h4 hl hk hp => ?_, fun s t a ha hreg h4 hl hk hp hrole hlink => ?_,
    fun s t a ha htab hk hp => ?_, fun s t a j ha htab hk hp _ hopen => ?_, fun s t a ha htab hk hp h0 => ?_,
    fun s t a ha htab hk hp hseal h0 h2 => ?_, fun s t a ha htab hk hp hopen h3 hcopy => ?_,
    fun s t a ha htab hk hp hopen h3 hidle => ?_, fun s t a ha hout hf => ?_⟩
  · have bad : s.chip.shapeOk a.addr a.len = false := by
      rw [Chip.shapeOk_register hreg]
      rcases hshape with h | h <;> simp [h]
    refine answers_exec (exec_faultedAccess ha (by rw [hreg]; decide) (.inr bad) t) ?_
    obtain ⟨hu, hk, hs, -⟩ := accessShape_bounds ha
    obtain ⟨answer, writes⟩ := (s.chip.at t).faulted_says a
    refine ⟨answer, fun on => ?_, writes⟩
    have cause : (s.chip.at t).checkCause a = 1 := Chip.checkCause_of_shape (c := s.chip.at t) bad
    have violates : ¬ (s.chip.at t).passes a := by
      rintro (off | none)
      · rw [show (s.chip.at t).pruCtlNow a.unit = s.chip.pruCtlNow a.unit from rfl] at off; omega
      · rw [cause] at none; exact absurd none (by decide)
    rw [Chip.check_of_not_passes violates, cause]
    exact ⟨(s.chip.at t).violation_count a 1 hu, fun empty => (s.chip.at t).violation_frec a 1 hu hk hs (by decide) empty⟩
  · refine answers_exec (exec_registerAccess ha hreg h4 hl hp t) ?_
    rw [Chip.performAccess_read (c := s.chip.at t) hreg hk]
    exact ⟨rfl, Chip.writesOnly.refl.send _, Chip.raises_of_evq rfl⟩
  · rw [Gives, exec_registerAccess ha hreg h4 hl hp t, Chip.performAccess_write (c := s.chip.at t) hreg hk,
      Chip.regWrite_plain (c := s.chip.at t) hrole hlink]
  · refine answers_exec (exec_tableAccess ha htab hp t) ?_
    rw [Chip.performAccess_tableRead (c := s.chip.at t) htab hk]
    exact ⟨rfl, Chip.writesOnly.refl.send _, Chip.raises_of_evq rfl⟩
  · refine answers_exec (exec_tableWrite ha htab hp hk t) ?_
    rw [Chip.tableWrite_done (c := s.chip.at t) hopen]
    refine ⟨rfl, ?_, rfl, rfl, Chip.raises_of_evq rfl⟩
    rw [Chip.tbwWrite, mapGet_memWrite, (accessShape_bounds ha).2.2.2 hk]
    rfl
  · rw [Gives, exec_tableWrite ha htab hp hk t, Chip.tableWrite]
    simp only [h0, beq_self_eq_true, if_true]
  · refine answers_exec (exec_tableWrite ha htab hp hk t) ?_
    have dropped : (s.chip.at t).tableWrite (accessSource a) (a.addr - tableBase) a.data =
        (s.chip.at t).dropWrite (tableBase + (a.addr - tableBase)) := by
      have kind := tableKind_le (a.addr - tableBase)
      have forbids : (tableKind (a.addr - tableBase) == 1 || tableKind (a.addr - tableBase) == 3 || accessSource a != .base) = true := by
        rcases h2 with h2 | h2
        · simp only [Bool.or_eq_true, beq_iff_eq]; omega
        · simp [h2]
      simp only [Chip.tableWrite, beq_iff_eq, h0, if_false, Chip.at_isSealed, hseal, Bool.true_and, forbids, if_true]
    rw [dropped]
    exact ⟨Chip.dropWrite_tx _ _, Chip.dropWrite_count _ _, Chip.writesOnly.refl.dropWrite (fun _ h => h) _⟩
  · rw [Gives, exec_tableWrite ha htab hp hk t, Chip.tableWrite]
    simp [h3, hopen, Chip.tagWrite, hcopy]
  · rw [Gives, exec_tableWrite ha htab hp hk t, Chip.tableWrite]
    simp [h3, hopen, Chip.tagWrite, hidle]
  · have bad : ¬ s.chip.passes a ∨ s.chip.shapeOk a.addr a.len = false := by
      rcases hf with h | h
      · exact .inr (Chip.shapeOk_unmapped h)
      · exact .inl h
    exact answers_exec (exec_faultedAccess ha hout bad t) ((s.chip.at t).faulted_says a)

end Sys2Proof.Machine

/-! ## Reset (R414, R415) -/

namespace Sys2Proof.Machine

section
variable (c : Chip) (t : Stamp) (p : Pitch)

/-- R415: what a reset leaves before the pins are released. -/
def Chip.cleared (c : Chip) (t : Stamp) (p : Pitch) : Chip := { clk := t, tx := c.tx, pitch := { p with fuses := c.pitch.fuses } }

/-- R415: nothing survives a reset but the fuses and what has been sent. -/
theorem Chip.fresh_eq : c.fresh t p = { c.cleared t p with
    tx := c.tx ++ (if c.bit R.evjStat 31 = true then [.alertN 0] else []) ++ (if c.bit R.evjStat 30 = true then [.faultN 0] else []) } := by
  cases h31 : c.bit R.evjStat 31 <;> cases h30 : c.bit R.evjStat 30 <;>
    simp only [Chip.fresh, h31, h30, Chip.cleared, Chip.send, Bool.false_eq_true, if_true, if_false, List.append_nil]

theorem Chip.fresh_reg (a : Nat) : (c.fresh t p).reg a = resetWord a := by rw [Chip.fresh_eq]; rfl
theorem Chip.fresh_evq : (c.fresh t p).evq = [] := by rw [Chip.fresh_eq]; rfl
theorem Chip.fresh_peg : (c.fresh t p).peg = {} := by rw [Chip.fresh_eq]; rfl
theorem Chip.fresh_jrn : (c.fresh t p).jrn = {} := by rw [Chip.fresh_eq]; rfl
theorem Chip.fresh_slots : (c.fresh t p).slots = [] := by rw [Chip.fresh_eq]; rfl
theorem Chip.fresh_pitch : (c.fresh t p).pitch = { p with fuses := c.pitch.fuses } := by rw [Chip.fresh_eq]; rfl

/-- T_R: the cause, the first step and the side are shown, and every other register reads its reset value. -/
theorem Chip.release_says {cause side : Nat} (hc : cause < 2) (hs : side < 2) {d : Chip} (hd : d = c.release t cause side) :
    (d.bit R.pitStat 29 = true ↔ cause = 1) ∧ d.fld R.pitStat 23 20 = 1 ∧ d.fld R.twnCfg 16 16 = side ∧
      (∀ a, a ≠ R.pitStat → a ≠ R.twnCfg → d.reg a = resetWord a) ∧ d.evq = [] ∧ d.peg = {} ∧ d.jrn = {} ∧ d.slots = [] ∧
      d.pitch.fuses = c.pitch.fuses ∧ d.pitch.tr = t := by
  subst hd
  unfold Chip.release
  refine ⟨?_, ?_, ?_, fun a h1 h2 => ?_, Chip.fresh_evq c t _, Chip.fresh_peg c t _, Chip.fresh_jrn c t _, Chip.fresh_slots c t _, ?_, ?_⟩
  · rw [Chip.setFld_bit_other _ _ _ _ _ (by decide), Chip.setFld_bit_disjoint _ _ _ _ _ _ (by decide) (by decide),
      Chip.setFld_bit_same _ _ _ _ (by decide), beq_iff_eq]
    omega
  · rw [Chip.setFld_fld_other _ _ _ _ _ _ (by decide), Chip.setFld_fld_same _ _ _ _ _ (by decide)]
    rfl
  · rw [Chip.setFld_fld_same _ _ _ _ _ (by decide)]
    exact Nat.mod_eq_of_lt hs
  · rw [Chip.setFld_reg_other _ _ _ _ h2, Chip.setFld_reg_other _ _ _ _ h1, Chip.setFld_reg_other _ _ _ _ h1, Chip.fresh_reg]
  · rw [Chip.setFld_pitch, Chip.setFld_pitch, Chip.setFld_pitch, Chip.fresh_pitch]
  · rw [Chip.setFld_pitch, Chip.setFld_pitch, Chip.setFld_pitch, Chip.fresh_pitch]

end

/-- Settles O17: the part is cleared (`Chip.fresh`), and released where hold and RESET_N have ended. -/
theorem resetLeavesResetValuesAndFuses : Obligations.ResetLeavesResetValuesAndFuses := by
  unfold Obligations.ResetLeavesResetValuesAndFuses
  refine ⟨fun s t side a rails hs hl within held high => ?_, fun s t side rails hs hl within held low => ?_,
    fun s t side rails hs hl on => ?_, fun s t a => ?_, fun s t side a hs low ended => ?_, fun s t side hs low held => ?_,
    fun s t side hs high => ?_⟩
  · refine answers_of (show exec _ s = execPowerOnHoldEnd t side rails s from rfl) (by simp [hs, hl]) ?_
    simp only [held, within, high, Bool.not_true, Bool.or_self, Bool.false_eq_true, if_false]
    obtain ⟨h1, h2, h3, h4, h5, h6, h7, h8, h9, h10⟩ := s.chip.release_says t (cause := 0) (by decide) hs rfl
    refine ⟨?_, h2, h3, h4 a, h5, h6, h7, h8, h9, h10⟩
    rw [← Bool.not_eq_true, h1]
    decide
  · refine answers_of (show exec _ s = execPowerOnHoldEnd t side rails s from rfl) (by simp [hs, hl]) ?_
    simp only [held, within, low, Bool.not_true, Bool.or_self, Bool.false_eq_true, if_false, if_true]
    exact ⟨trivial, trivial, rfl, Chip.writesOnly.refl.hidden rfl rfl rfl⟩
  · refine gives_of (show exec _ s = execPowerOnHoldEnd t side rails s from rfl) (by simp [hs, hl]) ?_
    refine if_pos ?_
    rcases on with h | h <;> simp [h]
  · refine answers_of (show exec _ s = execResetNLow t s from rfl) rfl ?_
    refine ⟨?_, ?_, Chip.fresh_reg _ _ _ a, Chip.fresh_evq _ _ _, Chip.fresh_peg _ _ _, Chip.fresh_jrn _ _ _, ?_, ?_⟩
    · rw [Chip.fresh_pitch]
    · rw [Chip.fresh_pitch]
    · rw [Chip.fresh_pitch]
    · rw [Chip.fresh_eq]
  · refine answers_of (show exec _ s = execResetNRelease t side s from rfl) (decide_eq_true hs) ?_
    simp only [low, ended, Bool.not_true, Bool.false_eq_true, if_false]
    obtain ⟨h1, h2, h3, h4, h5, h6, h7, -, h9, h10⟩ := s.chip.release_says t
      (cause := if s.chip.pitch.fromPower = true then 0 else 1) (by split <;> decide) hs rfl
    refine ⟨?_, h2, h3, h4 a, h5, h6, h7, h9, h10⟩
    rw [h1]
    cases s.chip.pitch.fromPower <;> decide
  · refine answers_of (show exec _ s = execResetNRelease t side s from rfl) (decide_eq_true hs) ?_
    simp only [low, held, Bool.not_true, Bool.false_eq_true, if_false, if_true]
    exact ⟨trivial, trivial, Chip.writesOnly.refl.hidden rfl rfl rfl⟩
  · refine gives_of (show exec _ s = execResetNRelease t side s from rfl) (decide_eq_true hs) ?_
    simp only [high, Bool.not_false, if_true]

end Sys2Proof.Machine

/-! ## Frame records and the agreement of twins (R50 to R54, R157, R351 to R354) -/

namespace Sys2Proof.Machine

/-! ### Reading back what was laid out -/

theorem leAt_skip {l m : List Byte} {o n : Nat} (h : l.length ≤ o) : leAt (l ++ m) o n = leAt m (o - l.length) n := by
  rw [leAt, List.drop_append, List.drop_of_length_le h, List.nil_append, leAt]

theorem leAt_skip_leBytes {k v o n : Nat} {m : List Byte} (h : k ≤ o) : leAt (leBytes k v ++ m) o n = leAt m (o - k) n := by
  rw [leAt_skip (by rwa [leBytes_length]), leBytes_length]

theorem leAt_leBytes (n v : Nat) (m : List Byte) : leAt (leBytes n v ++ m) 0 n = v % 256 ^ n := by
  rw [leAt, List.drop_zero, List.take_append_of_le_length (by rw [leBytes_length]), List.take_of_length_le (by rw [leBytes_length]),
    leNat_leBytes]

theorem leNat_lt (l : List Byte) : leNat l < 256 ^ l.length := by
  induction l with
  | nil => exact Nat.one_pos
  | cons b l ih =>
    have := b.isLt
    rw [leNat, List.length_cons, Nat.pow_succ]
    omega

theorem leAt_lt (l : List Byte) (o n : Nat) : leAt l o n < 256 ^ n :=
  Nat.lt_of_lt_of_le (leNat_lt _) (Nat.pow_le_pow_right (by decide) (List.length_take_le _ _))

/-! ### Frame records -/

/-- Byte 40 of a frame record (R50). -/
def FrameRec.flags (r : FrameRec) : Nat :=
  r.code + (if r.eligible then 16 else 0) + (if r.twinLost then 32 else 0) + (if r.derived then 64 else 0)

theorem FrameRec.bytes_length (r : FrameRec) : r.bytes.length = 48 := by simp [FrameRec.bytes, leBytes_length]

theorem FrameRec.flags_says (r : FrameRec) (h : r.code < 16) : r.flags % 256 % 16 = r.code ∧ (r.flags % 256 / 16 % 2 == 1) = r.eligible ∧
    (r.flags % 256 / 32 % 2 == 1) = r.twinLost ∧ (r.flags % 256 / 64 % 2 == 1) = r.derived := by
  obtain ⟨cap, arrival, change, elig, sig, seq, code, eligible, twinLost, derived, cause⟩ := r
  have hc : code < 16 := h
  refine ⟨?_, ?_, ?_, ?_⟩ <;> cases eligible <;> cases twinLost <;> cases derived <;>
    simp only [FrameRec.flags, Bool.false_eq_true, if_true, if_false, beq_iff_eq, beq_eq_false_iff_ne] <;> omega

/-- What a frame record's fields keep of the numbers written (R50). -/
def FrameRec.stored (r : FrameRec) : FrameRec := { r with
  cap := r.cap % 2 ^ 64, arrival := r.arrival % 2 ^ 64, change := r.change % 2 ^ 64, elig := r.elig % 2 ^ 64, sig := r.sig % 2 ^ 32,
  seq := r.seq % 2 ^ 32, cause := r.cause % 2 ^ 8 }

/-- A record reads back. -/
theorem frameRecOf_bytes (r : FrameRec) (h : r.code < 16) : frameRecOf r.bytes = r.stored := by
  obtain ⟨code, eligible, twinLost, derived⟩ := r.flags_says h
  have bytes : r.bytes = leBytes 8 r.cap ++ (leBytes 8 r.arrival ++ (leBytes 8 r.change ++ (leBytes 8 r.elig ++ (leBytes 4 r.sig ++
      (leBytes 4 r.seq ++ (leBytes 1 r.flags ++ (leBytes 1 r.cause ++ leBytes 6 0))))))) := by
    simp only [FrameRec.bytes, FrameRec.flags, List.append_assoc]
  have flags : leAt r.bytes 40 1 = r.flags % 256 := by
    rw [bytes]; simp [leAt_skip_leBytes, leAt_leBytes]
  simp only [frameRecOf, flags, code, eligible, twinLost, derived, FrameRec.stored]
  rw [bytes]
  simp [leAt_skip_leBytes, leAt_leBytes]

/-- A record as it stands in memory holds numbers that fit. -/
theorem frameRecOf_fits (l : List Byte) : (frameRecOf l).code < 16 ∧ (frameRecOf l).stored = frameRecOf l := by
  refine ⟨Nat.mod_lt _ (by decide), ?_⟩
  have h8 : ∀ o, leAt l o 8 % 2 ^ 64 = leAt l o 8 := fun o => Nat.mod_eq_of_lt (leAt_lt l o 8)
  have h4 : ∀ o, leAt l o 4 % 2 ^ 32 = leAt l o 4 := fun o => Nat.mod_eq_of_lt (leAt_lt l o 4)
  have h1 : ∀ o, leAt l o 1 % 2 ^ 8 = leAt l o 1 := fun o => Nat.mod_eq_of_lt (leAt_lt l o 1)
  simp only [FrameRec.stored, frameRecOf, h8, h4, h1]

theorem Chip.frameRec_code_lt (c : Chip) (n i : Nat) : (c.frameRec n i).code < 16 := (frameRecOf_fits _).1

/-- Outside the usable DRAM a record reads as zeros. -/
theorem Chip.inDram_of_code {c : Chip} {n i : Nat} (h : (c.frameRec n i).code ≠ 0) : c.inDram (c.recAddr n i) 48 = true := by
  by_contra out
  refine h ?_
  rw [Chip.frameRec, Chip.dramBytes, if_neg out]
  decide

/-- The registers that say where the slot's records lie. -/
def recordPlace (n : Nat) : List Nat := [R.srcRecLo n, R.srcRecHi n, R.dmcCfg]

theorem Chip.recAddr_congr {c c1 : Chip} {n : Nat} (h : ∀ a ∈ recordPlace n, c1.reg a = c.reg a) (i : Nat) : c1.recAddr n i = c.recAddr n i := by
  rw [Chip.recAddr, Chip.base40, h _ (by simp [recordPlace]), h _ (by simp [recordPlace]), Chip.recAddr, Chip.base40]

theorem Chip.inDram_congr {c c1 : Chip} (h : c1.reg R.dmcCfg = c.reg R.dmcCfg) (a n : Nat) : c1.inDram a n = c.inDram a n := by
  have usable : c1.dramUsable = c.dramUsable := by simp only [Chip.dramUsable, Chip.dramCap, Chip.bit_of_reg h, Chip.fld_of_reg h]
  rw [Chip.inDram, usable, Chip.inDram]

theorem Chip.base_le_of_inDram {c : Chip} {a n : Nat} (h : c.inDram a n = true) : dramBase ≤ a := by
  simp only [Chip.inDram, Bool.and_eq_true, decide_eq_true_eq] at h
  exact h.1

/-- A record stays where nothing writes its place or its bytes. -/
theorem Chip.frameRec_congr {c c1 : Chip} {n i : Nat} (h : ∀ a ∈ recordPlace n, c1.reg a = c.reg a)
    (hd : dramBase ≤ c.recAddr n i → ∀ o, c.recAddr n i - dramBase ≤ o → o < c.recAddr n i - dramBase + 48 →
      mapGet dramDefault c1.dram o = mapGet dramDefault c.dram o) :
    c1.frameRec n i = c.frameRec n i := by
  have cfg : c1.reg R.dmcCfg = c.reg R.dmcCfg := h _ (by simp [recordPlace])
  rw [Chip.frameRec, Chip.frameRec, Chip.recAddr_congr h, Chip.dramBytes, Chip.dramBytes, Chip.inDram_congr cfg]
  by_cases inside : c.inDram (c.recAddr n i) 48 = true
  · rw [if_pos inside, if_pos inside]
    refine congrArg frameRecOf (List.map_congr_left (fun k hk => hd (Chip.base_le_of_inDram inside) _ (by omega) ?_))
    have := List.mem_range.mp hk
    omega
  · rw [if_neg inside, if_neg inside]

theorem Chip.frameRec_of_dram {c c1 : Chip} {n : Nat} (h : ∀ a ∈ recordPlace n, c1.reg a = c.reg a) (hd : c1.dram = c.dram) (i : Nat) :
    c1.frameRec n i = c.frameRec n i := Chip.frameRec_congr h (fun _ _ _ _ => by rw [hd])

/-- A write of DRAM beside a record leaves it. -/
theorem Chip.frameRec_dramWrite {c : Chip} {n i a : Nat} {l : List Byte}
    (h : a + l.length ≤ c.recAddr n i ∨ c.recAddr n i + 48 ≤ a) : (c.dramWrite a l).frameRec n i = c.frameRec n i := by
  refine Chip.frameRec_congr (fun _ _ => by simp) (fun h0 o h1 h2 => ?_)
  by_cases inside : c.inDram a l.length = true
  · have ha := Chip.base_le_of_inDram inside
    rw [Chip.dramWrite_byte _ _ _ _ inside, if_neg (by omega)]
  · rw [Chip.dramWrite_outside _ _ _ (by simpa using inside)]

/-- A record that is written reads back. -/
theorem Chip.frameRec_putFrameRec {c : Chip} {n i : Nat} {r : FrameRec} (h : c.inDram (c.recAddr n i) 48 = true) (hr : r.code < 16) :
    (c.putFrameRec n i r).frameRec n i = r.stored := by
  have place : (c.putFrameRec n i r).recAddr n i = c.recAddr n i := Chip.recAddr_congr (fun _ _ => by simp [Chip.putFrameRec]) i
  have written : (c.putFrameRec n i r).dram = memWrite dramDefault c.dram (c.recAddr n i - dramBase) r.bytes := by
    rw [Chip.putFrameRec, Chip.dramWrite, r.bytes_length, if_pos h]
  have back := memRead_memWrite dramDefault r.bytes c.dram (c.recAddr n i - dramBase)
  rw [r.bytes_length] at back
  have same : (c.putFrameRec n i r).reg R.dmcCfg = c.reg R.dmcCfg := by rw [Chip.putFrameRec, Chip.dramWrite_reg]
  rw [Chip.frameRec, place, Chip.dramBytes, Chip.inDram_congr same, if_pos h, written, back, frameRecOf_bytes r hr]

/-- The records of a slot's buffers lie apart. -/
theorem Chip.frameRec_putFrameRec_other {c : Chip} {n i j : Nat} (r : FrameRec) (h : i ≠ j) :
    (c.putFrameRec n j r).frameRec n i = c.frameRec n i := by
  refine Chip.frameRec_dramWrite ?_
  rw [r.bytes_length, Chip.recAddr, Chip.recAddr]
  omega

/-- A record written where there is no DRAM reads as before. -/
theorem Chip.putFrameRec_outside {c : Chip} {n i : Nat} (r : FrameRec) (h : c.inDram (c.recAddr n i) 48 = false) : c.putFrameRec n i r = c :=
  Chip.dramWrite_outside _ _ _ (by rw [r.bytes_length, h])

/-- Whatever is made of a record's agreed fields, what is written over it keeps what the frame is (R353). -/
theorem Chip.frameRec_putFrameRec_keeps (c : Chip) (n i j : Nat) {r : FrameRec} {β : Type} (g : FrameRec → β)
    (hc : r.code = (c.frameRec n j).code) (hg : g r.stored = g (c.frameRec n j)) :
    g ((c.putFrameRec n j r).frameRec n i) = g (c.frameRec n i) := by
  by_cases hij : i = j
  · subst hij
    by_cases inside : c.inDram (c.recAddr n i) 48 = true
    · rw [Chip.frameRec_putFrameRec inside (by rw [hc]; exact c.frameRec_code_lt n i), hg]
    · rw [Chip.putFrameRec_outside _ (by simpa using inside)]
  · rw [Chip.frameRec_putFrameRec_other _ hij]

end Sys2Proof.Machine

namespace Sys2Proof.Machine

/-! ### Messages to the twin -/

/-- The registers that a message over the twin link writes (R341). -/
def bolRegs : List Nat := R.bolCnt 0 :: checkRegs 2

theorem mem_bolRegs {a : Nat} : a ∈ bolRegs ↔ a = R.bolCnt 0 ∨ a = R.chkRes 2 ∨ a = R.chkResAlive 2 ∨ a = R.chkResLength 2 ∨
    a = R.chkResCheckLo 2 ∨ a = R.chkResCheckHi 2 ∨ a = R.chkCnt 2 0 ∨ a = R.chkCnt 2 1 ∨ a = R.chkCnt 2 2 := by
  simp [bolRegs, checkRegs]

@[simp] theorem Chip.sendFlit_slots (c : Chip) (body : List Byte) : (c.sendFlit body).slots = c.slots := by simp [Chip.sendFlit]

section
variable (c : Chip) (type : Nat) (payload : List Byte)

@[simp] theorem Chip.sendMessage_clk : (c.sendMessage type payload).clk = c.clk := forL_keeps Chip.clk (fun _ _ _ => by simp)
@[simp] theorem Chip.sendMessage_evq : (c.sendMessage type payload).evq = c.evq := forL_keeps Chip.evq (fun _ _ _ => by simp)
@[simp] theorem Chip.sendMessage_dram : (c.sendMessage type payload).dram = c.dram := forL_keeps Chip.dram (fun _ _ _ => by simp)
@[simp] theorem Chip.sendMessage_tbw : (c.sendMessage type payload).tbw = c.tbw := forL_keeps Chip.tbw (fun _ _ _ => by simp)
@[simp] theorem Chip.sendMessage_slots : (c.sendMessage type payload).slots = c.slots := forL_keeps Chip.slots (fun _ _ _ => by simp)

theorem regsSame_sendMessage : regsSame bolRegs c.regs (c.sendMessage type payload).regs := regsSame_forL (fun _ _ c1 => regsSame_sendFlit c1 _)

@[simp] theorem Chip.bolSend_clk : (c.bolSend type payload).clk = c.clk := by unfold Chip.bolSend; split <;> simp
@[simp] theorem Chip.bolSend_evq : (c.bolSend type payload).evq = c.evq := by unfold Chip.bolSend; split <;> simp
@[simp] theorem Chip.bolSend_dram : (c.bolSend type payload).dram = c.dram := by unfold Chip.bolSend; split <;> simp
@[simp] theorem Chip.bolSend_tbw : (c.bolSend type payload).tbw = c.tbw := by unfold Chip.bolSend; split <;> simp
@[simp] theorem Chip.bolSend_slots : (c.bolSend type payload).slots = c.slots := by unfold Chip.bolSend; split <;> simp

theorem regsSame_bolSend : regsSame bolRegs c.regs (c.bolSend type payload).regs := by
  unfold Chip.bolSend
  split
  · exact regsSame_sendMessage c type payload
  · exact regsSame.refl

end

section
variable (c : Chip) (n key : Nat) (v : Verdict)

@[simp] theorem Chip.sendNotice_clk : (c.sendNotice n key v).clk = c.clk := by simp [Chip.sendNotice]
@[simp] theorem Chip.sendNotice_evq : (c.sendNotice n key v).evq = c.evq := by simp [Chip.sendNotice]
@[simp] theorem Chip.sendNotice_dram : (c.sendNotice n key v).dram = c.dram := by simp [Chip.sendNotice]
@[simp] theorem Chip.sendNotice_tbw : (c.sendNotice n key v).tbw = c.tbw := by simp [Chip.sendNotice]
@[simp] theorem Chip.sendNotice_slots : (c.sendNotice n key v).slots = c.slots := by simp [Chip.sendNotice]

theorem regsSame_sendNotice : regsSame (R.twnCnt 0 :: bolRegs) c.regs (c.sendNotice n key v).regs := by
  have bumped : regsSame (R.twnCnt 0 :: bolRegs) c.regs (c.bump (R.twnCnt 0)).regs := by simp
  exact bumped.trans ((regsSame_bolSend _ _ _).mono (fun _ => List.mem_cons_of_mem _))

end

/-! ### Slots -/

@[simp] theorem Chip.modSlot_regs (c : Chip) (n : Nat) (f : Slot → Slot) : (c.modSlot n f).regs = c.regs := rfl
@[simp] theorem Chip.modSlot_dram (c : Chip) (n : Nat) (f : Slot → Slot) : (c.modSlot n f).dram = c.dram := rfl
@[simp] theorem Chip.modSlot_tbw (c : Chip) (n : Nat) (f : Slot → Slot) : (c.modSlot n f).tbw = c.tbw := rfl
@[simp] theorem Chip.modSlot_evq (c : Chip) (n : Nat) (f : Slot → Slot) : (c.modSlot n f).evq = c.evq := rfl
@[simp] theorem Chip.modSlot_clk (c : Chip) (n : Nat) (f : Slot → Slot) : (c.modSlot n f).clk = c.clk := rfl
@[simp] theorem Chip.modSlot_reg (c : Chip) (n : Nat) (f : Slot → Slot) (a : Nat) : (c.modSlot n f).reg a = c.reg a := rfl
@[simp] theorem Chip.modSlot_fld (c : Chip) (n : Nat) (f : Slot → Slot) (a hi lo : Nat) : (c.modSlot n f).fld a hi lo = c.fld a hi lo := rfl
@[simp] theorem Chip.modSlot_bit (c : Chip) (n : Nat) (f : Slot → Slot) (a i : Nat) : (c.modSlot n f).bit a i = c.bit a i := rfl

theorem Chip.slot_modSlot (c : Chip) (n m : Nat) (f : Slot → Slot) : (c.modSlot n f).slot m = if m = n then f (c.slot n) else c.slot m :=
  mapGet_mapPut _ _ _ _ _

@[simp] theorem Chip.slot_modSlot_same (c : Chip) (n : Nat) (f : Slot → Slot) : (c.modSlot n f).slot n = f (c.slot n) := by
  simp [Chip.slot_modSlot]

theorem Chip.slot_modSlot_other (c : Chip) {n m : Nat} (f : Slot → Slot) (h : m ≠ n) : (c.modSlot n f).slot m = c.slot m := by
  simp [Chip.slot_modSlot, h]

theorem Chip.slot_of_slots {c c1 : Chip} (h : c1.slots = c.slots) (n : Nat) : c1.slot n = c.slot n := by rw [Chip.slot, h, Chip.slot]

/-! ### Agreement -/

/-- The registers that deciding frames writes (R353, R354). -/
def decisionRegs : List Nat := [R.twnCnt 2, R.twnCnt 3, R.twnCnt 4] ++ eventRegs

/-- The registers that a verdict of the part writes (R352). -/
def verdictRegs : List Nat := decisionRegs ++ R.twnCnt 0 :: bolRegs

theorem recordPlace_notMem {n : Nat} (hn : n < 256) : ∀ a ∈ recordPlace n, a ∉ verdictRegs ++ [R.srcCnt n 0, R.srcCnt n 1, R.srcCnt n 2,
    R.srcStat n, R.twnCnt 1] := by
  intro a ha
  simp only [recordPlace, List.mem_cons, List.not_mem_nil, or_false] at ha
  simp only [verdictRegs, decisionRegs, List.mem_append, List.mem_cons, mem_eventRegs, mem_bolRegs, List.not_mem_nil, or_false]
  simp only [R.srcRecLo, R.srcRecHi, R.dmcCfg, R.srcCnt, R.srcStat, R.twnCnt, R.evjStat, R.evjCnt, R.bolCnt, R.chkRes, R.chkResAlive,
    R.chkResLength, R.chkResCheckLo, R.chkResCheckHi, R.chkCnt] at ha ⊢
  omega

/-- What an agreed frame's record keeps. -/
def FrameRec.kept (r : FrameRec) : Nat × Nat × Nat × Nat := (r.code, r.cause, r.seq, r.arrival)

theorem FrameRec.kept_stored (l : List Byte) (r : FrameRec) (h : r.kept = (frameRecOf l).kept) : r.stored.kept = (frameRecOf l).kept := by
  have fits := (frameRecOf_fits l).2
  simp only [FrameRec.kept, Prod.mk.injEq] at h ⊢
  obtain ⟨hc, hx, hs, ha⟩ := h
  have hx' := congrArg FrameRec.cause fits
  have hs' := congrArg FrameRec.seq fits
  have ha' := congrArg FrameRec.arrival fits
  simp only [FrameRec.stored] at hx' hs' ha' ⊢
  exact ⟨hc, by rw [hx, hx'], by rw [hs, hs'], by rw [ha, ha']⟩

section
variable (c : Chip) (n : Nat)

@[simp] theorem Chip.modDone_regs (seq : Nat) (f : Finished → Finished) : (c.modDone n seq f).regs = c.regs := rfl
@[simp] theorem Chip.modDone_dram (seq : Nat) (f : Finished → Finished) : (c.modDone n seq f).dram = c.dram := rfl
@[simp] theorem Chip.modDone_tbw (seq : Nat) (f : Finished → Finished) : (c.modDone n seq f).tbw = c.tbw := rfl
@[simp] theorem Chip.modDone_evq (seq : Nat) (f : Finished → Finished) : (c.modDone n seq f).evq = c.evq := rfl
@[simp] theorem Chip.modDone_clk (seq : Nat) (f : Finished → Finished) : (c.modDone n seq f).clk = c.clk := rfl

@[simp] theorem Chip.putFrameRec_regs (i : Nat) (r : FrameRec) : (c.putFrameRec n i r).regs = c.regs := by simp [Chip.putFrameRec]
@[simp] theorem Chip.putFrameRec_tbw (i : Nat) (r : FrameRec) : (c.putFrameRec n i r).tbw = c.tbw := by simp [Chip.putFrameRec]
@[simp] theorem Chip.putFrameRec_evq (i : Nat) (r : FrameRec) : (c.putFrameRec n i r).evq = c.evq := by simp [Chip.putFrameRec]
@[simp] theorem Chip.putFrameRec_clk (i : Nat) (r : FrameRec) : (c.putFrameRec n i r).clk = c.clk := by simp [Chip.putFrameRec]
@[simp] theorem Chip.putFrameRec_slots (i : Nat) (r : FrameRec) : (c.putFrameRec n i r).slots = c.slots := by simp [Chip.putFrameRec]

/-- R353: the record of a frame that becomes eligible. -/
def FrameRec.agreed (r : FrameRec) (e cap k : Stamp) (derived lost due : Bool) : FrameRec :=
  { r with cap := cap, change := k, elig := e, derived := derived, twinLost := lost, eligible := r.eligible || due }

theorem FrameRec.agreed_kept (r : FrameRec) (e cap k : Stamp) (derived lost due : Bool) :
    (r.agreed e cap k derived lost due).kept = r.kept := rfl

theorem Chip.agreeFrame_eq (i seq : Nat) (e cap : Stamp) (derived lost : Bool) : ∃ k f, c.agreeFrame n i seq e cap derived lost =
    if (c.frameRec n i).seq == seq && (c.frameRec n i).code == 2 then
      if lost then (((c.putFrameRec n i ((c.frameRec n i).agreed e cap k derived lost (decide (0 ≤ stampGap c.clk e)))).modDone n seq f).bump (R.twnCnt 3))
      else (c.putFrameRec n i ((c.frameRec n i).agreed e cap k derived lost (decide (0 ≤ stampGap c.clk e)))).modDone n seq f
    else c := ⟨_, _, rfl⟩

end

/-- An event joins the end of the queue, or none does. -/
theorem Chip.raise_evq_prefix (c : Chip) (e : Ev) : c.evq <+: (c.raise e).evq := by
  rw [Chip.raise_evq_take]; exact List.prefix_append _ _

theorem Chip.raiseLimitedBy_evq_prefix (c : Chip) (u n : Nat) (e : Ev) : c.evq <+: (c.raiseLimitedBy u e n).evq := by
  unfold Chip.raiseLimitedBy
  simp only []
  split <;> split
  · rw [Chip.raise_evq_take]; exact List.prefix_append _ _
  · exact List.prefix_refl _
  · rw [Chip.raise_evq_take]; exact List.prefix_append _ _
  · exact List.prefix_refl _

theorem Chip.eventLimited_evq_prefix (c : Chip) (u code : Nat) (p : FaultAddr) (l : List CField) :
    c.evq <+: (c.eventLimited u code p l).evq := Chip.raiseLimitedBy_evq_prefix c u 1 _

/-- What deciding frames of slot `n` leaves as it is: every register but those of `decisionRegs`, the events queued before, every other
slot, and of the slot and its records what the decision does not say. -/
structure Chip.Decided (n : Nat) (c c1 : Chip) : Prop where
  regs : regsSame decisionRegs c.regs c1.regs
  tbw : c1.tbw = c.tbw
  clk : c1.clk = c.clk
  evq : c.evq <+: c1.evq
  others : ∀ m, m ≠ n → c1.slot m = c.slot m
  slot : { c1.slot n with done := [] } = { c.slot n with done := [] }
  done : (c1.slot n).done.length = (c.slot n).done.length
  kept : n < 256 → ∀ i, (c1.frameRec n i).kept = (c.frameRec n i).kept

section
variable {n : Nat} {c c1 c2 : Chip}

theorem Chip.Decided.refl : Chip.Decided n c c :=
  ⟨regsSame.refl, rfl, rfl, List.prefix_refl _, fun _ _ => rfl, rfl, rfl, fun _ _ => rfl⟩

theorem Chip.Decided.trans (h1 : Chip.Decided n c c1) (h2 : Chip.Decided n c1 c2) : Chip.Decided n c c2 :=
  ⟨h1.regs.trans h2.regs, h2.tbw.trans h1.tbw, h2.clk.trans h1.clk, h1.evq.trans h2.evq,
    fun m hm => (h2.others m hm).trans (h1.others m hm), h2.slot.trans h1.slot, h2.done.trans h1.done,
    fun hn i => (h2.kept hn i).trans (h1.kept hn i)⟩

theorem Chip.Decided.forL {β : Type} {q : List β} {f : β → Chip → Chip} (hf : ∀ x ∈ q, ∀ c, Chip.Decided n c (f x c)) (c : Chip) :
    Chip.Decided n c (forL q f c) := by
  unfold Machine.forL
  induction q generalizing c with
  | nil => exact .refl
  | cons x q ih => exact (hf x List.mem_cons_self c).trans (ih (fun y hy => hf y (List.mem_cons_of_mem _ hy)) _)

/-- An update of registers and events alone decides nothing. -/
theorem Chip.Decided.ofRegs (hr : regsSame decisionRegs c.regs c1.regs) (ht : c1.tbw = c.tbw) (hc : c1.clk = c.clk) (he : c.evq <+: c1.evq)
    (hs : c1.slots = c.slots) (hd : c1.dram = c.dram) : Chip.Decided n c c1 := by
  refine ⟨hr, ht, hc, he, fun m _ => Chip.slot_of_slots hs m, by rw [Chip.slot_of_slots hs], by rw [Chip.slot_of_slots hs], fun hn i => ?_⟩
  rw [Chip.frameRec_of_dram (fun a ha => hr.reg (fun hm => recordPlace_notMem hn a ha (by simp [verdictRegs, hm]))) hd]

theorem Chip.Decided.bump {j : Nat} (hj : R.twnCnt j ∈ decisionRegs) (c : Chip) : Chip.Decided n c (c.bump (R.twnCnt j)) :=
  .ofRegs (by simp [hj]) rfl rfl (List.prefix_refl _) rfl rfl

theorem Chip.Decided.eventLimited (c : Chip) (u code : Nat) (p : FaultAddr) (l : List CField) :
    Chip.Decided n c (c.eventLimited u code p l) :=
  .ofRegs (by simp [decisionRegs]) (by simp) (by simp) (c.eventLimited_evq_prefix u code p l) (by simp) (by simp)

/-- A record that keeps what the frame is. -/
theorem Chip.Decided.putFrameRec (c : Chip) {i : Nat} {r : FrameRec} (hr : r.kept = (c.frameRec n i).kept) :
    Chip.Decided n c (c.putFrameRec n i r) := by
  have same := Chip.slot_of_slots (c.putFrameRec_slots n i r)
  refine ⟨by simp, by simp, by simp, by simp, fun m _ => same m, by rw [same], by rw [same], fun _ j => ?_⟩
  refine c.frameRec_putFrameRec_keeps n j i FrameRec.kept ?_ (FrameRec.kept_stored _ r hr)
  simp only [FrameRec.kept, Prod.mk.injEq] at hr
  exact hr.1

theorem Chip.Decided.modDone (c : Chip) (seq : Nat) (f : Finished → Finished) : Chip.Decided n c (c.modDone n seq f) := by
  refine ⟨regsSame.refl, rfl, rfl, List.prefix_refl _, fun m hm => Chip.slot_modSlot_other _ _ hm, ?_, ?_, fun _ i => ?_⟩
  · rw [Chip.modDone, Chip.slot_modSlot_same]
  · rw [Chip.modDone, Chip.slot_modSlot_same, List.length_map]
  · exact congrArg FrameRec.kept (Chip.frameRec_of_dram (c := c) (c1 := c.modDone n seq f) (fun _ _ => rfl) rfl i)

theorem Chip.Decided.agreeFrame (c : Chip) (i seq : Nat) (e cap : Stamp) (derived lost : Bool) :
    Chip.Decided n c (c.agreeFrame n i seq e cap derived lost) := by
  obtain ⟨k, f, h⟩ := c.agreeFrame_eq n i seq e cap derived lost
  rw [h]
  split
  · have put := Chip.Decided.putFrameRec c (n := n) (i := i) (r := (c.frameRec n i).agreed e cap k derived lost
      (decide (0 ≤ stampGap c.clk e))) (FrameRec.agreed_kept _ _ _ _ _ _ _)
    split
    · exact (put.trans (.modDone _ seq f)).trans (.bump (by simp [decisionRegs]) _)
    · exact put.trans (.modDone _ seq f)
  · exact .refl

theorem Chip.Decided.decideFrame (c : Chip) (g : Agree) (own twin : Verdict) (late : Bool) :
    Chip.Decided n c (c.decideFrame n g own twin late) := by
  have told : ∀ (d : Chip) (j code : Nat) (l : List CField), R.twnCnt j ∈ decisionRegs →
      Chip.Decided n d ((d.bump (R.twnCnt j)).eventLimited n code .room l) := fun d j code l hj =>
    (Chip.Decided.bump hj d).trans (.eventLimited _ n code .room l)
  unfold Chip.decideFrame
  split
  · split
    · extract_lets e d
      have agreed : Chip.Decided n c d := by
        unfold d
        split
        · exact .agreeFrame c _ _ _ _ _ _
        · split
          · exact (Chip.Decided.agreeFrame c _ _ _ _ _ _).trans (told _ 4 _ _ (by simp [decisionRegs]))
          · exact .agreeFrame c _ _ _ _ _ _
      clear_value d
      split
      · exact agreed.trans (told _ 2 _ _ (by simp [decisionRegs]))
      · exact agreed
    · exact .refl
  · exact .refl

end

/-- R353: one waiting frame is decided where both verdicts are known. -/
def Chip.settleOne (n : Nat) (late : Bool) (a : Agree) (c : Chip) : Chip :=
  match a.own, a.twin with
  | some o, some t => c.decideFrame n a o t late
  | _, _ => c

/-- R353: the frames of slot `n` that wait for a verdict go on waiting. -/
def Chip.keepWaiting (c : Chip) (n : Nat) : Chip :=
  c.modSlot n (fun s => { s with agree := s.agree.filter (fun a => a.own.isNone || a.twin.isNone) })

theorem Chip.settle_eq (c : Chip) (n : Nat) (late : Bool) :
    c.settle n late = forL (c.slot n).agree (Chip.settleOne n late) (c.keepWaiting n) := rfl

theorem Chip.Decided.settleOne (c : Chip) (n : Nat) (late : Bool) (a : Agree) : Chip.Decided n c (Chip.settleOne n late a c) := by
  unfold Chip.settleOne
  split
  · exact .decideFrame c _ _ _ _
  · exact .refl

theorem Chip.Decided.settle (c : Chip) (n : Nat) (late : Bool) : Chip.Decided n (c.keepWaiting n) (c.settle n late) :=
  .forL (fun a _ c1 => .settleOne c1 n late a) _

/-- Where no frame has both verdicts, settling decides none. -/
theorem Chip.settle_none {c : Chip} {n : Nat} (h : ∀ a ∈ (c.slot n).agree, a.own = none ∨ a.twin = none) (late : Bool) :
    c.settle n late = c.keepWaiting n := by
  rw [Chip.settle_eq]
  generalize c.keepWaiting n = d
  refine forL_keeps id (fun a ha x => ?_)
  rcases h a ha with none | none
  · simp only [Chip.settleOne, none, id]
  · simp only [Chip.settleOne, none, id]
    split <;> simp_all

end Sys2Proof.Machine

namespace Sys2Proof.Machine

/-! ### The part's own verdict -/

/-- What a verdict of the part on a frame of slot `n` leaves as it is. -/
structure Chip.Judged (n : Nat) (c c1 : Chip) : Prop where
  regs : regsSame verdictRegs c.regs c1.regs
  tbw : c1.tbw = c.tbw
  evq : c.evq <+: c1.evq
  seq : (c1.slot n).seq = (c.slot n).seq
  done : (c1.slot n).done.length = (c.slot n).done.length
  kept : n < 256 → ∀ i, (c1.frameRec n i).kept = (c.frameRec n i).kept

theorem Chip.Judged.refl {n : Nat} {c : Chip} : Chip.Judged n c c := ⟨regsSame.refl, rfl, List.prefix_refl _, rfl, rfl, fun _ _ => rfl⟩

theorem Chip.Judged.trans {n : Nat} {c c1 c2 : Chip} (h1 : Chip.Judged n c c1) (h2 : Chip.Judged n c1 c2) : Chip.Judged n c c2 :=
  ⟨h1.regs.trans h2.regs, h2.tbw.trans h1.tbw, h1.evq.trans h2.evq, h2.seq.trans h1.seq, h2.done.trans h1.done,
    fun hn i => (h2.kept hn i).trans (h1.kept hn i)⟩

theorem Chip.Decided.judged {n : Nat} {c c1 : Chip} (h : Chip.Decided n c c1) : Chip.Judged n c c1 :=
  ⟨h.regs.mono (by simp +contextual [verdictRegs]), h.tbw, h.evq, (congrArg Slot.seq h.slot : _), h.done, h.kept⟩

/-- A change of the frames that wait judges nothing. -/
theorem Chip.Judged.modAgree (c : Chip) (n : Nat) (f : List Agree → List Agree) :
    Chip.Judged n c (c.modSlot n (fun s => { s with agree := f s.agree })) := by
  refine ⟨regsSame.refl, rfl, List.prefix_refl _, ?_, ?_, fun _ i => ?_⟩
  · rw [Chip.slot_modSlot_same]
  · rw [Chip.slot_modSlot_same]
  · exact congrArg FrameRec.kept (Chip.frameRec_of_dram (fun _ _ => rfl) rfl i)

theorem Chip.Judged.sendNotice (c : Chip) (n key : Nat) (v : Verdict) : Chip.Judged n c (c.sendNotice n key v) := by
  have regs : regsSame verdictRegs c.regs (c.sendNotice n key v).regs :=
    (regsSame_sendNotice c n key v).mono (fun a ha => List.mem_append_right _ ha)
  have slots := Chip.slot_of_slots (c.sendNotice_slots n key v)
  refine ⟨regs, by simp, by simp, by rw [slots], by rw [slots], fun hn i => ?_⟩
  rw [Chip.frameRec_of_dram (fun a ha => regs.reg (fun hm => recordPlace_notMem hn a ha (by simp [hm]))) (by simp)]

/-- R352: the frames that wait, with the part's own verdict on one more. -/
def Chip.withOwn (c : Chip) (n key : Nat) (frame : Option (Nat × Nat)) (v : Verdict) : Chip :=
  c.modSlot n (fun s => { s with agree := agreePut key true (fun a => { a with frame := frame, own := some v }) s.agree })

theorem Chip.ownVerdict_eq (c : Chip) (n key : Nat) (frame : Option (Nat × Nat)) (v : Verdict) :
    c.ownVerdict n key frame v = ((c.withOwn n key frame v).sendNotice n key v).settle n false := rfl

theorem Chip.Judged.ownVerdict (c : Chip) (n key : Nat) (frame : Option (Nat × Nat)) (v : Verdict) :
    Chip.Judged n c (c.ownVerdict n key frame v) := by
  rw [Chip.ownVerdict_eq]
  exact (((Chip.Judged.modAgree c n _).trans (.sendNotice _ n key v)).trans (.modAgree _ n _)).trans (Chip.Decided.settle _ n false).judged

theorem Chip.Judged.firstVerdict (c : Chip) (n key : Nat) (frame : Option (Nat × Nat)) (v : Verdict) :
    Chip.Judged n c (c.firstVerdict n key frame v) := by
  unfold Chip.firstVerdict
  split
  · exact .refl
  · exact .ownVerdict c n key frame v

/-- A verdict of the part leaves the frames without a twin's verdict without one. -/
theorem agreePut_twin_none {l : List Agree} (h : ∀ a ∈ l, a.twin = none) (key : Nat) (frame : Option (Nat × Nat)) (v : Verdict) :
    ∀ a ∈ agreePut key true (fun a => { a with frame := frame, own := some v }) l, a.twin = none := by
  induction l with
  | nil =>
    intro a ha
    rw [agreePut, List.mem_singleton] at ha
    subst ha; rfl
  | cons x l ih =>
    have hx : x.twin = none := h x List.mem_cons_self
    have hl : ∀ a ∈ l, a.twin = none := fun a ha => h a (List.mem_cons_of_mem _ ha)
    intro a ha
    rw [agreePut] at ha
    simp only [if_true] at ha
    split at ha
    · rcases List.mem_cons.mp ha with rfl | ha
      · exact hx
      · exact hl a ha
    · rcases List.mem_cons.mp ha with rfl | ha
      · exact hx
      · exact ih hl a ha

/-- Where the twin's verdict on no frame is known, the part's own decides none. -/
theorem Chip.ownVerdict_of_twin_none {c : Chip} {n : Nat} (h : ∀ a ∈ (c.slot n).agree, a.twin = none) (key : Nat)
    (frame : Option (Nat × Nat)) (v : Verdict) :
    c.ownVerdict n key frame v = ((c.withOwn n key frame v).sendNotice n key v).keepWaiting n := by
  rw [Chip.ownVerdict_eq, Chip.settle_none (fun a ha => .inr ?_)]
  rw [Chip.slot_of_slots (Chip.sendNotice_slots _ _ _ _), Chip.withOwn, Chip.slot_modSlot_same] at ha
  exact agreePut_twin_none h key frame v a ha

theorem Chip.firstVerdict_of_twin_none {c : Chip} {n : Nat} (h : ∀ a ∈ (c.slot n).agree, a.twin = none) (key : Nat)
    (frame : Option (Nat × Nat)) (v : Verdict) : (c.firstVerdict n key frame v).dram = c.dram ∧ (c.firstVerdict n key frame v).evq = c.evq := by
  unfold Chip.firstVerdict
  split
  · exact ⟨rfl, rfl⟩
  · rw [Chip.ownVerdict_of_twin_none h]
    exact ⟨by simp [Chip.keepWaiting, Chip.withOwn], by simp [Chip.keepWaiting, Chip.withOwn]⟩

/-! ### The end of a frame -/

/-- R52, R53: the capture stamp of a frame and whether it is derived. -/
def Chip.stampOf (c : Chip) (n : Nat) (arrival : Stamp) (sup : Option Stamp) : Stamp × Bool :=
  if c.bit (R.srcFresh n) 31 then (stampSub arrival (c.slotLatency n), true)
  else match sup with
    | none => (stampSub arrival (c.slotLatency n), true)
    | some s => if decide (0 < stampGap s arrival) then (stampSub arrival (c.slotLatency n), true) else (shortStamp s, false)

/-- R53: the supplied stamp is later than the arrival of a frame whose stamp is not derived. -/
def Chip.stampTold (c : Chip) (n : Nat) (arrival : Stamp) (sup : Option Stamp) : Option Stamp :=
  if c.bit (R.srcFresh n) 31 then none else sup.filter (fun s => decide (0 < stampGap s arrival))

/-- R53: the event of a supplied stamp later than the arrival. -/
def Chip.tellStamp (c : Chip) (n : Nat) (arrival : Stamp) (sup : Option Stamp) : Chip :=
  match c.stampTold n arrival sup with
  | some s => c.event 0x3010 .room [.val 1 n, .val 8 (shortStamp s), .val 8 (shortStamp arrival)]
  | none => c

theorem Chip.captureStamp_eq (c : Chip) (n : Nat) (arrival : Stamp) (sup : Option Stamp) :
    c.captureStamp n arrival sup = (c.tellStamp n arrival sup, c.stampOf n arrival sup) := by
  unfold Chip.captureStamp Chip.tellStamp Chip.stampTold Chip.stampOf
  cases sup with
  | none => split <;> rfl
  | some s =>
    by_cases fresh : c.bit (R.srcFresh n) 31 = true
    · simp only [fresh, if_true]
    · by_cases late : 0 < stampGap s arrival
      · simp [fresh, late, Option.filter]
      · simp [fresh, late, Option.filter]

/-- R377: the picture's last byte lies beyond the usable DRAM. -/
def Chip.picBeyond (c : Chip) (p : Pic) : Bool := c.isBeyond p.base (frameBytes p.fmt p.w p.h)

/-- The part with a frame's stamps decided and told. -/
def Chip.stamped (c : Chip) (n : Nat) (p : Pic) (arrival : Stamp) (sup : Option Stamp) : Chip :=
  (c.refuseBeyond (c.slotGroup n) p.base (frameBytes p.fmt p.w p.h)).tellStamp n arrival sup

/-- R50: the counts of a finished frame. -/
def Chip.countFinish (c : Chip) (n seq missing code : Nat) : Chip :=
  let c := (c.bump (R.srcCnt n 0)).setFld (R.srcStat n) 31 31 1
  let c := if code == 2 then c else c.bump (R.srcCnt n 2)
  if code == 6 then c.eventLimited n 0x3012 .room [.val 1 n, .val 4 seq, .val 4 missing, .occ] else c

/-- R50: the record of a finished frame; `now` is the stamp at which it becomes eligible, if it does. -/
def finishRec (seq code cause : Nat) (arrival now : Stamp) (cap : Stamp × Bool) (elig : Bool) (k sig : Nat) : FrameRec :=
  { cap := cap.1, arrival := shortStamp arrival, change := k, elig := if elig then now else 0, sig := sig, seq := seq, code := code,
    eligible := elig, twinLost := false, derived := cap.2, cause := cause }

/-- The part with a finished frame's record, history and counts. -/
def Chip.finished (c : Chip) (n i missing : Nat) (r : FrameRec) (d : Finished) : Chip :=
  ((c.putFrameRec n i r).modSlot n (fun s => { s with done := d :: s.done })).countFinish n r.seq missing r.code

theorem Chip.picFinish_eq (c : Chip) (n i : Nat) (p : Pic) (code cause : Nat) (arrival : Stamp) (sup : Option Stamp) (missing : Nat)
    (h : (c.frameRec n i).code = 1) : ∃ k sig d key v, c.picFinish n i p code cause arrival sup missing =
      let e := c.stamped n p arrival sup
      let code := if c.picBeyond p then 5 else code
      let f := e.finished n i missing (finishRec (c.frameRec n i).seq code (if c.picBeyond p then cause ||| 4 else cause) arrival
        (shortStamp e.clk) ((c.refuseBeyond (c.slotGroup n) p.base (frameBytes p.fmt p.w p.h)).stampOf n arrival sup)
        (code == 2 && !(e.agreed n && e.paired)) k sig) d
      if e.agreed n && e.paired then f.firstVerdict n key (some (i, (c.frameRec n i).seq)) v else f := by
  unfold Chip.picFinish Chip.picBeyond Chip.stamped Chip.finished Chip.countFinish finishRec
  dsimp only
  rw [Chip.captureStamp_eq]
  generalize c.isBeyond p.base (frameBytes p.fmt p.w p.h) = fault
  generalize c.refuseBeyond (c.slotGroup n) p.base (frameBytes p.fmt p.w p.h) = c1
  generalize c1.tellStamp n arrival sup = e
  generalize c1.stampOf n arrival sup = st
  obtain ⟨cap, derived⟩ := st
  generalize c.frameRec n i = r at h
  simp only [h, bne_self_eq_false, Bool.false_eq_true, if_false]
  exact ⟨_, _, _, _, _, rfl⟩

end Sys2Proof.Machine

namespace Sys2Proof.Machine

/-! ### What the end of a frame leaves -/

/-- The registers that counting a finished frame writes. -/
def finishRegs (n : Nat) : List Nat := [R.srcCnt n 0, R.srcCnt n 2, R.srcStat n] ++ eventRegs

theorem recordPlace_notMem_finish {n : Nat} (hn : n < 256) : ∀ a ∈ recordPlace n, a ∉ finishRegs n := by
  intro a ha hm
  refine recordPlace_notMem hn a ha ?_
  simp only [finishRegs, List.mem_append, List.mem_cons, List.not_mem_nil, or_false, mem_eventRegs] at hm
  simp only [verdictRegs, decisionRegs, List.mem_append, List.mem_cons, List.not_mem_nil, or_false, mem_eventRegs]
  tauto

section
variable (c : Chip) (n seq missing code : Nat)

theorem regsSame_countFinish : regsSame (finishRegs n) c.regs (c.countFinish n seq missing code).regs := by
  unfold Chip.countFinish
  extract_lets d1 d2
  have counted : regsSame (finishRegs n) c.regs d2.regs := by
    unfold d2 d1
    split <;> simp [finishRegs]
  split
  · exact counted.trans (by simp [finishRegs])
  · exact counted

@[simp] theorem Chip.countFinish_dram : (c.countFinish n seq missing code).dram = c.dram := by
  unfold Chip.countFinish; split <;> split <;> simp
@[simp] theorem Chip.countFinish_tbw : (c.countFinish n seq missing code).tbw = c.tbw := by
  unfold Chip.countFinish; split <;> split <;> simp
@[simp] theorem Chip.countFinish_slots : (c.countFinish n seq missing code).slots = c.slots := by
  unfold Chip.countFinish; split <;> split <;> simp

theorem Chip.countFinish_evq_prefix : c.evq <+: (c.countFinish n seq missing code).evq := by
  unfold Chip.countFinish
  extract_lets d1 d2
  have counted : d2.evq = c.evq := by
    unfold d2 d1
    split <;> simp
  split
  · exact counted ▸ Chip.eventLimited_evq_prefix d2 n _ _ _
  · rw [counted]

variable (i : Nat) (r : FrameRec) (d : Finished)

theorem regsSame_finished : regsSame (finishRegs n) c.regs (c.finished n i missing r d).regs := by
  have put : regsSame (finishRegs n) c.regs ((c.putFrameRec n i r).modSlot n (fun s => { s with done := d :: s.done })).regs := by
    rw [Chip.modSlot_regs, Chip.putFrameRec_regs]
    exact regsSame.refl
  rw [Chip.finished]
  exact put.trans (regsSame_countFinish _ n r.seq missing r.code)

theorem Chip.finished_evq_prefix : c.evq <+: (c.finished n i missing r d).evq := by
  have same : ((c.putFrameRec n i r).modSlot n (fun s => { s with done := d :: s.done })).evq = c.evq := by
    rw [Chip.modSlot_evq, Chip.putFrameRec_evq]
  rw [Chip.finished, ← same]
  exact Chip.countFinish_evq_prefix _ n r.seq missing r.code

/-- A finished frame joins the slot's history. -/
theorem Chip.finished_slot : (c.finished n i missing r d).slot n = { c.slot n with done := d :: (c.slot n).done } := by
  rw [Chip.finished, Chip.slot_of_slots (Chip.countFinish_slots _ _ _ _ _), Chip.slot_modSlot_same,
    Chip.slot_of_slots (Chip.putFrameRec_slots _ _ _ _)]

/-- A finished frame's record reads back. -/
theorem Chip.finished_frameRec {r : FrameRec} (hn : n < 256) (h : c.inDram (c.recAddr n i) 48 = true) (hr : r.code < 16) :
    (c.finished n i missing r d).frameRec n i = r.stored := by
  rw [← Chip.frameRec_putFrameRec h hr]
  refine Chip.frameRec_of_dram (fun a ha => ?_) ?_ i
  · rw [(regsSame_finished c n missing i r d).reg (recordPlace_notMem_finish hn a ha)]
    rw [Chip.reg, Chip.reg, Chip.putFrameRec_regs]
  · rw [Chip.finished, Chip.countFinish_dram, Chip.modSlot_dram]

end

section
variable (c : Chip) (n : Nat) (p : Pic) (arrival : Stamp) (sup : Option Stamp)

theorem regsSame_tellStamp : regsSame eventRegs c.regs (c.tellStamp n arrival sup).regs := by
  unfold Chip.tellStamp
  split <;> simp

@[simp] theorem Chip.tellStamp_dram : (c.tellStamp n arrival sup).dram = c.dram := by unfold Chip.tellStamp; split <;> simp
@[simp] theorem Chip.tellStamp_clk : (c.tellStamp n arrival sup).clk = c.clk := by unfold Chip.tellStamp; split <;> simp
@[simp] theorem Chip.tellStamp_slots : (c.tellStamp n arrival sup).slots = c.slots := by unfold Chip.tellStamp; split <;> simp

theorem Chip.tellStamp_evq_prefix : c.evq <+: (c.tellStamp n arrival sup).evq := by
  unfold Chip.tellStamp
  split
  · exact Chip.raise_evq_prefix c _
  · exact List.prefix_refl _

@[simp] theorem Chip.refuseBeyond_dram (g a k : Nat) : (c.refuseBeyond g a k).dram = c.dram := by unfold Chip.refuseBeyond; split <;> simp
@[simp] theorem Chip.refuseBeyond_clk (g a k : Nat) : (c.refuseBeyond g a k).clk = c.clk := by unfold Chip.refuseBeyond; split <;> simp
@[simp] theorem Chip.refuseBeyond_slots (g a k : Nat) : (c.refuseBeyond g a k).slots = c.slots := by unfold Chip.refuseBeyond; split <;> simp

theorem regsSame_stamped : regsSame eventRegs c.regs (c.stamped n p arrival sup).regs := by
  have refused : regsSame eventRegs c.regs (c.refuseBeyond (c.slotGroup n) p.base (frameBytes p.fmt p.w p.h)).regs := by simp
  exact refused.trans (regsSame_tellStamp _ _ _ _)

theorem Chip.stamped_dram : (c.stamped n p arrival sup).dram = c.dram := by simp [Chip.stamped]
theorem Chip.stamped_clk : (c.stamped n p arrival sup).clk = c.clk := by simp [Chip.stamped]
theorem Chip.stamped_slots : (c.stamped n p arrival sup).slots = c.slots := by simp [Chip.stamped]

theorem Chip.refuseBeyond_evq_prefix (g a k : Nat) : c.evq <+: (c.refuseBeyond g a k).evq := by
  unfold Chip.refuseBeyond
  split
  · exact Chip.raise_evq_prefix c _
  · exact List.prefix_refl _

end

/-- What decides a frame's stamps lies in registers that no event writes. -/
theorem Chip.stampOf_congr {c c1 : Chip} {n : Nat} (hf : c1.reg (R.srcFresh n) = c.reg (R.srcFresh n))
    (hl : c1.reg (R.srcLat n) = c.reg (R.srcLat n)) (arrival : Stamp) (sup : Option Stamp) :
    c1.stampOf n arrival sup = c.stampOf n arrival sup := by
  simp only [Chip.stampOf, Chip.slotLatency, Chip.bit_of_reg hf, Chip.fld_of_reg hl]

theorem Chip.waits_congr {c c1 : Chip} {n : Nat} (ha : c1.reg (R.twnAgree (n / 32)) = c.reg (R.twnAgree (n / 32)))
    (hs : c1.reg R.twnStat = c.reg R.twnStat) : (c1.agreed n && c1.paired) = (c.agreed n && c.paired) := by
  simp only [Chip.agreed, Chip.paired, Chip.bit_of_reg ha, Chip.fld_of_reg hs]

theorem slotRegs_notMem_event {n : Nat} : R.srcFresh n ∉ eventRegs ∧ R.srcLat n ∉ eventRegs ∧
    R.twnAgree (n / 32) ∉ eventRegs ∧ R.twnStat ∉ eventRegs := by
  simp only [mem_eventRegs, R.srcFresh, R.srcLat, R.twnAgree, R.twnStat, R.evjStat, R.evjCnt]
  omega

end Sys2Proof.Machine

namespace Sys2Proof.Machine

/-! ### The end of a frame, in one statement -/

/-- R377: the completeness of a frame whose picture may reach beyond the usable DRAM. -/
def Chip.endCode (c : Chip) (p : Pic) (code : Nat) : Nat := if c.picBeyond p then 5 else code

/-- R377: its impairment cause. -/
def Chip.endCause (c : Chip) (p : Pic) (cause : Nat) : Nat := if c.picBeyond p then cause ||| 4 else cause

/-- R50 to R55: the record that the end of a frame leaves, of which the change stamp and the signature are left open. -/
def Chip.endRec (c : Chip) (n i : Nat) (p : Pic) (code cause : Nat) (arrival : Stamp) (sup : Option Stamp) (k sig : Nat) : FrameRec :=
  finishRec (c.frameRec n i).seq (c.endCode p code) (c.endCause p cause) arrival (shortStamp c.clk) (c.stampOf n arrival sup)
    (c.endCode p code == 2 && !(c.agreed n && c.paired)) k sig

section
variable {c : Chip} {n i : Nat}

/-- The end of a frame is a finished frame on which, with the pair on, the part's verdict follows. -/
theorem Chip.picFinish_says (h : (c.frameRec n i).code = 1) (p : Pic) (code cause : Nat) (arrival : Stamp) (sup : Option Stamp)
    (missing : Nat) : ∃ k sig d f, f = (c.stamped n p arrival sup).finished n i missing (c.endRec n i p code cause arrival sup k sig) d ∧
      Chip.Judged n f (c.picFinish n i p code cause arrival sup missing) ∧
      ((c.agreed n && c.paired) = false → c.picFinish n i p code cause arrival sup missing = f) ∧
      ((∀ a ∈ (c.slot n).agree, a.twin = none) → (c.picFinish n i p code cause arrival sup missing).dram = f.dram ∧
        (c.picFinish n i p code cause arrival sup missing).evq = f.evq) := by
  obtain ⟨fresh, lat, agree, stat⟩ := slotRegs_notMem_event (n := n)
  have refused : regsSame eventRegs c.regs (c.refuseBeyond (c.slotGroup n) p.base (frameBytes p.fmt p.w p.h)).regs := by simp
  have said := regsSame_stamped c n p arrival sup
  have stamp := Chip.stampOf_congr (refused.reg fresh) (refused.reg lat) arrival sup
  have waits := Chip.waits_congr (said.reg agree) (said.reg stat)
  obtain ⟨k, sig, d, key, v, eq⟩ := Chip.picFinish_eq c n i p code cause arrival sup missing h
  have slot : ((c.stamped n p arrival sup).slot n).agree = (c.slot n).agree := by rw [Chip.slot_of_slots (Chip.stamped_slots _ _ _ _ _)]
  simp only [stamp, waits, Chip.stamped_clk] at eq
  change _ = if (c.agreed n && c.paired) = true then ((c.stamped n p arrival sup).finished n i missing
    (c.endRec n i p code cause arrival sup k sig) d).firstVerdict n key (some (i, (c.frameRec n i).seq)) v else
    (c.stamped n p arrival sup).finished n i missing (c.endRec n i p code cause arrival sup k sig) d at eq
  have finished := (c.stamped n p arrival sup).finished_slot n missing i (c.endRec n i p code cause arrival sup k sig) d
  refine ⟨k, sig, d, _, rfl, ?_, fun off => ?_, fun none => ?_⟩
  · rw [eq]
    split
    · exact .firstVerdict _ _ _ _ _
    · exact .refl
  · rw [eq, if_neg (by simp [off])]
  · rw [eq]
    split
    · refine Chip.firstVerdict_of_twin_none (fun a ha => none a ?_) _ _ _
      rw [finished] at ha
      exact slot ▸ ha
    · exact ⟨rfl, rfl⟩

theorem Chip.endCode_lt (p : Pic) {code : Nat} (h : code < 16) : c.endCode p code < 16 := by
  unfold Chip.endCode
  split <;> omega

/-- The record reads back, as long as the twin's verdict decides no frame. -/
theorem Chip.picFinish_frameRec (hn : n < 256) (h : (c.frameRec n i).code = 1) (p : Pic) {code : Nat} (hc : code < 16) (cause : Nat)
    (arrival : Stamp) (sup : Option Stamp) (missing : Nat) :
    ∃ k sig, ((c.picFinish n i p code cause arrival sup missing).frameRec n i).kept =
        (c.endRec n i p code cause arrival sup k sig).stored.kept ∧
      ((c.agreed n && c.paired) = false ∨ (∀ a ∈ (c.slot n).agree, a.twin = none) →
        (c.picFinish n i p code cause arrival sup missing).frameRec n i = (c.endRec n i p code cause arrival sup k sig).stored) := by
  obtain ⟨k, sig, d, f, hf, judged, off, none⟩ := Chip.picFinish_says h p code cause arrival sup missing
  have said := regsSame_stamped c n p arrival sup
  have apart : ∀ a ∈ recordPlace n, a ∉ eventRegs := fun a ha hm => recordPlace_notMem_finish hn a ha (List.mem_append_right _ hm)
  have place : (c.stamped n p arrival sup).recAddr n i = c.recAddr n i := Chip.recAddr_congr (fun a ha => said.reg (apart a ha)) i
  have inside : (c.stamped n p arrival sup).inDram ((c.stamped n p arrival sup).recAddr n i) 48 = true := by
    rw [place, Chip.inDram_congr (said.reg (apart _ (by simp [recordPlace])))]
    exact Chip.inDram_of_code (by omega)
  have back : f.frameRec n i = (c.endRec n i p code cause arrival sup k sig).stored := by
    rw [hf]
    exact Chip.finished_frameRec _ n missing i d hn inside (Chip.endCode_lt p hc)
  refine ⟨k, sig, by rw [judged.kept hn, back], fun hw => ?_⟩
  rcases hw with hw | hw
  · rw [off hw, back]
  · rw [Chip.frameRec_of_dram (fun a ha => judged.regs.reg (fun hm => recordPlace_notMem hn a ha (List.mem_append_left _ hm)))
      (none hw).1, back]

/-- What a frame's end has told before it counts stands at the front of what is queued. -/
theorem Chip.picFinish_evq (h : (c.frameRec n i).code = 1) (p : Pic) (code cause : Nat) (arrival : Stamp) (sup : Option Stamp)
    (missing : Nat) : (c.stamped n p arrival sup).evq <+: (c.picFinish n i p code cause arrival sup missing).evq := by
  obtain ⟨k, sig, d, f, hf, judged, _, _⟩ := Chip.picFinish_says h p code cause arrival sup missing
  rw [hf] at judged
  exact (Chip.finished_evq_prefix _ n missing i _ d).trans judged.evq

end

/-! ### FRAME_FINISH -/

/-- The bytes that the finishing unit wrote. -/
def Chip.contentIn (c : Chip) (base : Nat) (l : List (Nat × List Byte)) : Chip := forL l (fun e c => c.dramWrite (base + e.1) e.2) c

section
variable (c : Chip) (base : Nat) (l : List (Nat × List Byte))

@[simp] theorem Chip.contentIn_regs : (c.contentIn base l).regs = c.regs := forL_keeps Chip.regs (fun _ _ _ => by simp)
@[simp] theorem Chip.contentIn_evq : (c.contentIn base l).evq = c.evq := forL_keeps Chip.evq (fun _ _ _ => by simp)
@[simp] theorem Chip.contentIn_clk : (c.contentIn base l).clk = c.clk := forL_keeps Chip.clk (fun _ _ _ => by simp)
@[simp] theorem Chip.contentIn_slots : (c.contentIn base l).slots = c.slots := forL_keeps Chip.slots (fun _ _ _ => by simp)

end

/-- Content beside a frame's record leaves the record. -/
theorem Chip.contentIn_frameRec {base n i : Nat} {l : List (Nat × List Byte)} {c : Chip}
    (h : ∀ e ∈ l, base + e.1 + e.2.length ≤ c.recAddr n i ∨ c.recAddr n i + 48 ≤ base + e.1) :
    (c.contentIn base l).frameRec n i = c.frameRec n i := by
  unfold Chip.contentIn Machine.forL
  induction l generalizing c with
  | nil => rfl
  | cons x l ih =>
    have place : (c.dramWrite (base + x.1) x.2).recAddr n i = c.recAddr n i := Chip.recAddr_congr (fun _ _ => Chip.dramWrite_reg _ _ _ _) i
    rw [List.foldl_cons, ih (fun e he => by rw [place]; exact h e (List.mem_cons_of_mem _ he)),
      Chip.frameRec_dramWrite (h x List.mem_cons_self)]

/-- The part in which a frame's content stands at the time of its end. -/
def Chip.written (c : Chip) (t : Stamp) (n i : Nat) (l : List (Nat × List Byte)) : Chip := (c.at t).contentIn (c.bufAddr n i) l

theorem exec_frameFinish {s : State} {n i code cause : Nat} (hn : n < 256) (hi : i < 32) (h2 : 2 ≤ code) (h6 : code ≤ 6) (hx : cause < 16)
    (h : (s.chip.frameRec n i).code = 1) (t : Stamp) (missing : Nat) (a : Stamp) (sup : Option Stamp) (l : List (Nat × List Byte)) :
    exec (.frameFinish t n i code cause a sup missing l) s =
      .next { s with chip := ((s.chip.written t n i l).picFinish n i ((s.chip.written t n i l).bufPic n i) code cause a sup missing) } := by
  have hok : (decide (n < 256) && decide (i < 32) && decide (2 ≤ code) && decide (code ≤ 6) && decide (cause < 16)) = true := by
    simp [hn, hi, h2, h6, hx]
  rw [show exec (.frameFinish t n i code cause a sup missing l) s = execFrameFinish t n i code cause a sup missing l s from rfl,
    execFrameFinish, runIf_of _ _ _ hok]
  have same : ((s.chip.at t).frameRec n i).code = 1 := h
  simp only [same, bne_self_eq_false, Bool.false_eq_true, if_false]
  rfl

/-- A FILLING frame finishes: what the part holds when the finishing unit's content stands in its buffer. -/
theorem Chip.written_says {c : Chip} {n i : Nat} {l : List (Nat × List Byte)}
    (hl : ∀ e ∈ l, c.bufAddr n i + e.1 + e.2.length ≤ c.recAddr n i ∨ c.recAddr n i + 48 ≤ c.bufAddr n i + e.1) (t : Stamp) :
    (c.written t n i l).regs = c.regs ∧ (c.written t n i l).evq = c.evq ∧ (c.written t n i l).clk = t ∧
      (c.written t n i l).slots = c.slots ∧ (c.written t n i l).frameRec n i = c.frameRec n i :=
  ⟨Chip.contentIn_regs _ _ _, Chip.contentIn_evq _ _ _, Chip.contentIn_clk _ _ _, Chip.contentIn_slots _ _ _,
    Chip.contentIn_frameRec (c := c.at t) hl⟩

end Sys2Proof.Machine

/-! ## Capture stamps (R52, R53) -/

namespace Sys2Proof.Machine

/-- L of a slot fits beside a stamp. -/
theorem Chip.slotLatency_lt (c : Chip) (n : Nat) : c.slotLatency n < 2 ^ 64 := by
  have h : c.fld (R.srcLat n) 31 0 < 2 ^ 32 := bitsOf_lt _ 31 0
  rw [Chip.slotLatency, nsPerUs]
  omega

theorem Chip.derived_stored (c : Chip) (n : Nat) (a : Stamp) :
    stampSub a (c.slotLatency n) % 2 ^ 64 = (a + 2 ^ 64 - c.fld (R.srcLat n) 31 0 * 1000) % 2 ^ 64 := by
  have h := c.slotLatency_lt n
  rw [Chip.slotLatency, nsPerUs] at h
  rw [stampSub, Chip.slotLatency, nsPerUs]
  generalize c.fld (R.srcLat n) 31 0 * 1000 = m at h
  omega

section
variable {s : State} {t : Stamp} {n i code cause missing : Nat} {a : Stamp} {sup : Option Stamp} {l : List (Nat × List Byte)}

/-- The stamps of a frame that finishes while the twin's verdict on no frame of the slot is known. -/
theorem answers_frameFinish_stamps {P : Chip → Prop} (hn : n < 256) (hi : i < 32) (h2 : 2 ≤ code) (h6 : code ≤ 6) (hx : cause < 16)
    (h : (s.chip.frameRec n i).code = 1)
    (hw : (s.chip.agreed n && s.chip.paired) = false ∨ (s.chip.slot n).agree.all (fun e => e.twin.isNone) = true)
    (hl : ∀ e ∈ l, s.chip.bufAddr n i + e.1 + e.2.length ≤ s.chip.recAddr n i ∨ s.chip.recAddr n i + 48 ≤ s.chip.bufAddr n i + e.1)
    (hP : ∀ c d : Chip, (c.frameRec n i).cap = (s.chip.stampOf n a sup).1 % 2 ^ 64 → (c.frameRec n i).derived = (s.chip.stampOf n a sup).2 →
      s.chip.evq <+: d.evq → d.clk = t → d.stampTold n a sup = s.chip.stampTold n a sup → (d.tellStamp n a sup).evq <+: c.evq → P c) :
    Answers (.frameFinish t n i code cause a sup missing l) s P := by
  obtain ⟨regs, evq, clk, slots, kept⟩ := Chip.written_says (c := s.chip) hl t
  refine answers_exec (exec_frameFinish hn hi h2 h6 hx h t missing a sup l) ?_
  generalize s.chip.written t n i l = d at regs evq clk slots kept
  have reg : ∀ b, d.reg b = s.chip.reg b := fun b => by rw [Chip.reg, regs, Chip.reg]
  have open1 : (d.frameRec n i).code = 1 := by rw [kept, h]
  have quiet : (d.agreed n && d.paired) = false ∨ ∀ e ∈ (d.slot n).agree, e.twin = none := by
    rw [Chip.waits_congr (reg _) (reg _), Chip.slot_of_slots slots]
    refine hw.imp_right (fun hw e he => ?_)
    exact Option.isNone_iff_eq_none.mp (List.all_eq_true.mp hw e he)
  obtain ⟨k, sig, -, back⟩ := Chip.picFinish_frameRec hn open1 (d.bufPic n i) (by omega : code < 16) cause a sup missing
  have told := Chip.picFinish_evq open1 (d.bufPic n i) code cause a sup missing
  have stamp : d.stampOf n a sup = s.chip.stampOf n a sup := Chip.stampOf_congr (reg _) (reg _) a sup
  obtain ⟨fresh, -, -, -⟩ := slotRegs_notMem_event (n := n)
  refine hP _ (d.refuseBeyond (d.slotGroup n) (d.bufPic n i).base (frameBytes (d.bufPic n i).fmt (d.bufPic n i).w (d.bufPic n i).h))
    ?_ ?_ ?_ ?_ ?_ told
  · rw [back quiet, ← stamp]; rfl
  · rw [back quiet, ← stamp]; rfl
  · exact evq ▸ Chip.refuseBeyond_evq_prefix d _ _ _
  · rw [Chip.refuseBeyond_clk, clk]
  · have same : regsSame eventRegs d.regs (d.refuseBeyond (d.slotGroup n) (d.bufPic n i).base
        (frameBytes (d.bufPic n i).fmt (d.bufPic n i).w (d.bufPic n i).h)).regs := by simp
    simp only [Chip.stampTold, same.bit fresh, Chip.bit_of_reg (reg (R.srcFresh n))]

end

/-- An event that joins a queue stands behind what was there before. -/
theorem Chip.event_mem_drop {c d e : Chip} {code : Nat} {p : FaultAddr} {f : List CField} (hd : c.evq <+: d.evq)
    (he : (d.event code p f).evq <+: e.evq) (room : e.evq.length < evqCap) : (⟨code, p, d.clk, f⟩ : Ev) ∈ e.evq.drop c.evq.length := by
  obtain ⟨q, hq⟩ := hd
  obtain ⟨r, hr⟩ := he
  have short : d.evq.length < evqCap := by
    rw [Chip.event, Chip.raise_evq_take] at hr
    have := congrArg List.length hr
    simp only [List.length_append] at this
    omega
  rw [Chip.event, Chip.raise_evq_take, List.take_of_length_le (by simp only [List.length_singleton]; omega)] at hr
  rw [← hr, ← hq, List.append_assoc, List.append_assoc, List.drop_left]
  simp

/-- Settles O7: the record of the finished frame reads back the stamp that `captureStamp` decides, and nothing after the event of a
late stamp takes it from the queue. -/
theorem captureStampsAreDerivedWhereTheyMustBe : Obligations.CaptureStampsAreDerivedWhereTheyMustBe := by
  unfold Obligations.CaptureStampsAreDerivedWhereTheyMustBe
  refine ⟨?_, ?_, ?_⟩
  · intro s t n i code cause missing a sup l hn hi h2 h6 hx h _ hw hl fresh
    refine answers_frameFinish_stamps hn hi h2 h6 hx h hw hl (fun c d cap der _ _ _ _ => ?_)
    simp only [Chip.stampOf, fresh, if_true] at cap der
    exact ⟨cap.trans (Chip.derived_stored _ _ _), der⟩
  · intro s t n i code cause missing a x l hn hi h2 h6 hx h _ hw hl fresh late
    refine answers_frameFinish_stamps hn hi h2 h6 hx h hw hl (fun c d cap der hd ht told he => ?_)
    simp only [Chip.stampOf, fresh, Bool.false_eq_true, if_false] at cap der
    simp only [late, decide_true, if_true] at cap der
    have tell : d.stampTold n a (some x) = some x := by
      rw [told, Chip.stampTold, if_neg (by simp [fresh])]
      simp [Option.filter, late]
    rw [Chip.tellStamp, tell] at he
    refine ⟨cap.trans (Chip.derived_stored _ _ _), der, fun room => ?_⟩
    have mem := Chip.event_mem_drop hd he room
    rw [ht] at mem
    exact mem
  · intro s t n i code cause missing a x l hn hi h2 h6 hx h _ hw hl fresh early
    refine answers_frameFinish_stamps hn hi h2 h6 hx h hw hl (fun c d cap der _ _ _ _ => ?_)
    simp only [Chip.stampOf, fresh, Bool.false_eq_true, if_false] at cap der
    have late : ¬ 0 < stampGap x a := by omega
    simp only [late, decide_false, Bool.false_eq_true, if_false] at cap der
    refine ⟨cap.trans ?_, der⟩
    rw [shortStamp, Nat.mod_mod]

end Sys2Proof.Machine

/-! ## Frames begin, finish and become eligible (R50 to R55, R157) -/

namespace Sys2Proof.Machine

/-! ### The free buffer -/

section
variable {c c1 : Chip} {n : Nat}

/-- What the choice of a buffer reads. -/
structure Chip.SameBuffers (n : Nat) (c c1 : Chip) : Prop where
  regs : c1.regs = c.regs
  dram : c1.dram = c.dram
  shown : c1.shown = c.shown
  gen : (c1.slot n).gen = (c.slot n).gen
  bufs : (c1.slot n).bufs = (c.slot n).bufs

theorem Chip.SameBuffers.frameRec (h : Chip.SameBuffers n c c1) (i : Nat) : c1.frameRec n i = c.frameRec n i :=
  Chip.frameRec_of_dram (fun a _ => by rw [Chip.reg, h.regs, Chip.reg]) h.dram i

theorem Chip.SameBuffers.newestBuf (h : Chip.SameBuffers n c c1) (l : List Nat) : c1.newestBuf n l = c.newestBuf n l := by
  induction l with
  | nil => rfl
  | cons i l ih => simp only [Chip.newestBuf, ih, h.frameRec]

theorem Chip.SameBuffers.oldestBuf (h : Chip.SameBuffers n c c1) (l : List Nat) : c1.oldestBuf n l = c.oldestBuf n l := by
  induction l with
  | nil => rfl
  | cons i l ih => simp only [Chip.oldestBuf, ih, h.frameRec]

theorem Chip.SameBuffers.freeBuf (h : Chip.SameBuffers n c c1) : c1.freeBuf n = c.freeBuf n := by
  have nbuf : c1.slotNbuf n = c.slotNbuf n := Chip.fld_of_reg (by rw [Chip.reg, h.regs, Chip.reg]) _ _
  have present : ∀ i, c1.present n i = c.present n i := fun i => by simp only [Chip.present, Chip.buf, h.bufs, h.gen]
  have newest : c1.newestEligible n = c.newestEligible n := by
    simp only [Chip.newestEligible, nbuf, h.frameRec, present, h.newestBuf]
  have held : ∀ i, c1.bufHeld n i = c.bufHeld n i := fun i => by
    simp only [Chip.bufHeld, h.frameRec, newest, Chip.buf, h.bufs, h.shown]
    rfl
  simp only [Chip.freeBuf, nbuf, held, h.frameRec, present, h.oldestBuf]

end

/-! ### FRAME_BEGIN -/

/-- R50: the frame sequence number advances. -/
def Chip.countFrame (c : Chip) (n : Nat) : Chip := c.modSlot n (fun s => { s with seq := (s.seq + 1) % 2 ^ 32 })

section
variable (c : Chip) (n key : Nat)

theorem Chip.countFrame_slot : (c.countFrame n).slot n = { c.slot n with seq := (c.slot n).seq.succ % 2 ^ 32 } := Chip.slot_modSlot_same c n _

theorem Chip.countFrame_other {m : Nat} (h : m ≠ n) : (c.countFrame n).slot m = c.slot m := Chip.slot_modSlot_other c _ h

theorem Chip.countFrame_buffers : Chip.SameBuffers n c (c.countFrame n) :=
  ⟨rfl, rfl, rfl, by rw [Chip.countFrame_slot], by rw [Chip.countFrame_slot]⟩

/-- R50, R157: the record of a frame that begins. -/
def FrameRec.begun (r : FrameRec) (seq : Nat) : FrameRec :=
  { r with elig := 0, seq := seq, code := 1, eligible := false, twinLost := false, derived := false, cause := 0 }

/-- R157: the buffer that a frame takes. -/
def Chip.takeBuf (c : Chip) (n i key : Nat) : Chip := c.modBuf n i (fun b => { b with gen := (c.slot n).gen, key := key })

theorem Chip.frameBegin_free {i : Nat} (h : c.freeBuf n = some i) : c.frameBegin n key =
    (((c.countFrame n).takeBuf n i key).putFrameRec n i (((c.countFrame n).frameRec n i).begun (((c.countFrame n).slot n).seq)), some i) := by
  have free : (c.countFrame n).freeBuf n = some i := (c.countFrame_buffers n).freeBuf.trans h
  unfold Chip.frameBegin
  extract_lets d seq
  rw [show d.freeBuf n = some i from free]
  rfl

/-- R157: a frame for which no buffer is free is counted and told. -/
def Chip.noBuffer (c : Chip) (n : Nat) : Chip :=
  ((c.countFrame n).bump (R.srcCnt n 1)).event 0x3011 .room [.val 1 n, .val 4 ((c.countFrame n).slot n).seq]

theorem Chip.frameBegin_none (h : c.freeBuf n = none) : ∃ v, c.frameBegin n key =
    (if (c.noBuffer n).agreed n && (c.noBuffer n).paired then (c.noBuffer n).firstVerdict n key none v else c.noBuffer n, none) := by
  have free : (c.countFrame n).freeBuf n = none := (c.countFrame_buffers n).freeBuf.trans h
  unfold Chip.frameBegin
  extract_lets d seq
  rw [show d.freeBuf n = none from free]
  exact ⟨_, rfl⟩

end

section
variable {s : State} {n : Nat}

theorem exec_frameBegin (hn : n < 256) (t : Stamp) (key : Nat) : exec (.frameBegin t n key) s =
    .next { s with chip := (if s.chip.slotKind n == 0 || s.chip.slotKind n == 7 then s.chip.at t else ((s.chip.at t).frameBegin n key).1) } := by
  rw [show exec (.frameBegin t n key) s = execFrameBegin t n key s from rfl, execFrameBegin, runIf_of _ _ _ (decide_eq_true hn)]
  rfl

theorem exec_frameBegin_enabled (hn : n < 256) (h0 : s.chip.slotKind n ≠ 0) (h7 : s.chip.slotKind n ≠ 7) (t : Stamp) (key : Nat) :
    exec (.frameBegin t n key) s = .next { s with chip := ((s.chip.at t).frameBegin n key).1 } := by
  rw [exec_frameBegin hn, if_neg (by simp [h0, h7])]

end

/-- A frame begins in the buffer that is free. -/
theorem Chip.frameBegin_says (c : Chip) {n i : Nat} (key : Nat) (h : c.freeBuf n = some i) {d : Chip} (hd : d = (c.frameBegin n key).1) :
    (d.slot n).seq = (c.slot n).seq.succ % 2 ^ 32 ∧ (d.buf n i).key = key ∧ (d.buf n i).gen = (c.slot n).gen ∧ d.regs = c.regs ∧
      d.evq = c.evq ∧ d.tbw = c.tbw ∧
      (c.inDram (c.recAddr n i) 48 = true → d.frameRec n i = (c.frameRec n i).begun ((c.slot n).seq.succ % 2 ^ 32)) ∧
      (∀ m, m ≠ n → d.slot m = c.slot m) := by
  rw [Chip.frameBegin_free c n key h] at hd
  have slot : d.slot n = ((c.countFrame n).takeBuf n i key).slot n := by rw [hd, Chip.slot_of_slots (Chip.putFrameRec_slots _ _ _ _)]
  have taken : ((c.countFrame n).takeBuf n i key).slot n = { (c.countFrame n).slot n with
      bufs := mapMod bufDefault ((c.countFrame n).slot n).bufs i (fun b => { b with gen := (c.slot n).gen, key := key }) } := by
    rw [Chip.takeBuf, Chip.modBuf, Chip.slot_modSlot_same, Chip.countFrame_slot]
  have buf : d.buf n i = { c.buf n i with gen := (c.slot n).gen, key := key } := by
    rw [Chip.buf, slot, taken, Chip.countFrame_slot]
    dsimp only
    rw [mapGet_mod_same]
    rfl
  refine ⟨by rw [slot, taken, Chip.countFrame_slot], by rw [buf], by rw [buf], ?_, ?_, ?_, fun inside => ?_, fun m hm => ?_⟩
  · rw [hd, Chip.putFrameRec_regs]; rfl
  · rw [hd, Chip.putFrameRec_evq]; rfl
  · rw [hd, Chip.putFrameRec_tbw]; rfl
  · have fits := (frameRecOf_fits (c.dramBytes (c.recAddr n i) 48)).2
    change (c.frameRec n i).stored = c.frameRec n i at fits
    have seq : (c.slot n).seq.succ % 2 ^ 32 % 2 ^ 32 = (c.slot n).seq.succ % 2 ^ 32 := Nat.mod_mod _ _
    rw [hd, Chip.frameRec_putFrameRec (by exact inside) (by simp [FrameRec.begun]), Chip.countFrame_slot, (c.countFrame_buffers n).frameRec]
    generalize c.frameRec n i = r at fits
    have h1 := congrArg FrameRec.cap fits
    have h2 := congrArg FrameRec.arrival fits
    have h3 := congrArg FrameRec.change fits
    have h4 := congrArg FrameRec.sig fits
    simp only [FrameRec.stored] at h1 h2 h3 h4
    simp only [FrameRec.stored, FrameRec.begun, h1, h2, h3, h4, seq, Nat.zero_mod]
  · rw [hd, Chip.slot_of_slots (Chip.putFrameRec_slots _ _ _ _), Chip.takeBuf, Chip.modBuf, Chip.slot_modSlot_other _ _ hm,
      Chip.countFrame_other c n hm]

end Sys2Proof.Machine

namespace Sys2Proof.Machine

theorem FrameRec.stored_eligible (l : List Byte) : ({ frameRecOf l with eligible := true } : FrameRec).stored = { frameRecOf l with eligible := true } := by
  have fits := (frameRecOf_fits l).2
  have h1 := congrArg FrameRec.cap fits
  have h2 := congrArg FrameRec.arrival fits
  have h3 := congrArg FrameRec.change fits
  have h4 := congrArg FrameRec.sig fits
  have h5 := congrArg FrameRec.elig fits
  have h6 := congrArg FrameRec.seq fits
  have h7 := congrArg FrameRec.cause fits
  generalize frameRecOf l = r at *
  simp only [FrameRec.stored] at h1 h2 h3 h4 h5 h6 h7
  simp only [FrameRec.stored, h1, h2, h3, h4, h5, h6, h7]

/-- The counters of a slot lie apart, and none is written with a verdict or an event. -/
theorem srcCnt_apart {n : Nat} (hn : n < 256) : R.srcCnt n 0 ∉ verdictRegs ∧ R.srcCnt n 1 ∉ verdictRegs ∧ R.srcCnt n 2 ∉ verdictRegs ∧
    R.srcStat n ∉ verdictRegs ∧ R.srcCnt n 0 ≠ R.srcStat n ∧ R.srcCnt n 2 ≠ R.srcStat n ∧ R.srcCnt n 0 ≠ R.srcCnt n 2 := by
  simp only [verdictRegs, decisionRegs, List.mem_append, List.mem_cons, mem_eventRegs, mem_bolRegs, List.not_mem_nil, or_false]
  simp only [R.srcCnt, R.srcStat, R.twnCnt, R.evjStat, R.evjCnt, R.bolCnt, R.chkRes, R.chkResAlive,
    R.chkResLength, R.chkResCheckLo, R.chkResCheckHi, R.chkCnt]
  omega

theorem notMem_eventRegs_of_verdict {a : Nat} (h : a ∉ verdictRegs) : a ∉ eventRegs := fun hm =>
  h (by simp only [verdictRegs, decisionRegs, List.mem_append]; exact .inl (.inr hm))

section
variable (c : Chip) {n : Nat} (hn : n < 256)
include hn

/-- R50: what the counts of a finished frame read. -/
theorem Chip.countFinish_says (seq missing code : Nat) :
    (c.countFinish n seq missing code).reg (R.srcCnt n 0) = (c.bump (R.srcCnt n 0)).reg (R.srcCnt n 0) ∧
      (c.countFinish n seq missing code).bit (R.srcStat n) 31 = true ∧
      (code ≠ 2 → (c.countFinish n seq missing code).reg (R.srcCnt n 2) = (c.bump (R.srcCnt n 2)).reg (R.srcCnt n 2)) := by
  obtain ⟨h0, -, h2, hs, a0, a2, a02⟩ := srcCnt_apart hn
  have told : ∀ (d : Chip) (l : List CField), ∀ a ∉ eventRegs, (if code == 6 then d.eventLimited n 0x3012 .room l else d).reg a = d.reg a := by
    intro d l a ha
    split
    · have same : regsSame eventRegs d.regs (d.eventLimited n 0x3012 .room l).regs := by simp
      exact same.reg ha
    · rfl
  have first : (c.countFinish n seq missing code).reg (R.srcCnt n 0) = (c.bump (R.srcCnt n 0)).reg (R.srcCnt n 0) := by
    rw [Chip.countFinish, told _ _ _ (notMem_eventRegs_of_verdict h0)]
    split
    · rw [Chip.setFld_reg_other _ _ _ _ a0]
    · rw [Chip.bump_reg_other _ a02, Chip.setFld_reg_other _ _ _ _ a0]
  refine ⟨first, ?_, fun hc => ?_⟩
  · rw [Chip.countFinish, Chip.bit_of_reg (told _ _ _ (notMem_eventRegs_of_verdict hs))]
    split
    · exact Chip.setFld_bit_same _ _ _ _ (by decide)
    · rw [Chip.bump_bit_other _ a2.symm]; exact Chip.setFld_bit_same _ _ _ _ (by decide)
  · rw [Chip.countFinish, told _ _ _ (notMem_eventRegs_of_verdict h2), if_neg (by simpa using hc)]
    rw [Chip.bump_reg, Chip.setFld_reg_other _ _ _ _ a2, Chip.bump_reg_other _ a02.symm, ← Chip.bump_reg]

end

theorem Chip.freeBuf_at (c : Chip) (t : Stamp) (n : Nat) : (c.at t).freeBuf n = c.freeBuf n :=
  Chip.SameBuffers.freeBuf ⟨rfl, rfl, rfl, rfl, rfl⟩

theorem Chip.frameRec_at (c : Chip) (t : Stamp) (n i : Nat) : (c.at t).frameRec n i = c.frameRec n i :=
  Chip.frameRec_of_dram (fun _ _ => rfl) rfl i

theorem Chip.isBeyond_congr {c c1 : Chip} (h : c1.reg R.dmcCfg = c.reg R.dmcCfg) (a n : Nat) : c1.isBeyond a n = c.isBeyond a n := by
  have cap : c1.dramCap = c.dramCap := by simp only [Chip.dramCap, Chip.fld_of_reg h]
  have usable : c1.dramUsable = c.dramUsable := by simp only [Chip.dramUsable, cap, Chip.bit_of_reg h]
  rw [Chip.isBeyond, cap, usable, Chip.isBeyond]

/-- A FILLING frame that finishes: its record, the counts and the slot's history. -/
theorem answers_frameFinish {s : State} {t : Stamp} {n i code cause missing : Nat} {a : Stamp} {sup : Option Stamp}
    {l : List (Nat × List Byte)} {P : Chip → Prop} (hn : n < 256) (hi : i < 32) (h2 : 2 ≤ code) (h6 : code ≤ 6) (hx : cause < 16)
    (h : (s.chip.frameRec n i).code = 1)
    (hl : ∀ e ∈ l, s.chip.bufAddr n i + e.1 + e.2.length ≤ s.chip.recAddr n i ∨ s.chip.recAddr n i + 48 ≤ s.chip.bufAddr n i + e.1)
    (hP : ∀ c d : Chip, d.regs = s.chip.regs → d.evq = s.chip.evq → d.clk = t →
      (d.stamped n (d.bufPic n i) a sup).evq <+: c.evq →
      (c.frameRec n i).kept = (s.chip.endCode (s.chip.bufPic n i) code, s.chip.endCause (s.chip.bufPic n i) cause % 2 ^ 8,
        (s.chip.frameRec n i).seq, shortStamp a) →
      c.reg (R.srcCnt n 0) = (s.chip.bump (R.srcCnt n 0)).reg (R.srcCnt n 0) → c.bit (R.srcStat n) 31 = true →
      (s.chip.endCode (s.chip.bufPic n i) code ≠ 2 → c.reg (R.srcCnt n 2) = (s.chip.bump (R.srcCnt n 2)).reg (R.srcCnt n 2)) →
      (c.slot n).done.length = (s.chip.slot n).done.length + 1 →
      ((s.chip.agreed n && s.chip.paired) = false → (c.frameRec n i).eligible = (s.chip.endCode (s.chip.bufPic n i) code == 2) ∧
        (c.frameRec n i).elig = if s.chip.endCode (s.chip.bufPic n i) code == 2 then shortStamp t else 0) → P c) :
    Answers (.frameFinish t n i code cause a sup missing l) s P := by
  obtain ⟨regs, evq, clk, slots, kept⟩ := Chip.written_says (c := s.chip) hl t
  refine answers_exec (exec_frameFinish hn hi h2 h6 hx h t missing a sup l) ?_
  generalize s.chip.written t n i l = d at regs evq clk slots kept
  have reg : ∀ b, d.reg b = s.chip.reg b := fun b => by rw [Chip.reg, regs, Chip.reg]
  have fld : ∀ b hi lo, d.fld b hi lo = s.chip.fld b hi lo := fun b => Chip.fld_of_reg (reg b)
  have bit : ∀ b k, d.bit b k = s.chip.bit b k := fun b => Chip.bit_of_reg (reg b)
  have open1 : (d.frameRec n i).code = 1 := by rw [kept, h]
  have pic : d.bufPic n i = s.chip.bufPic n i := by simp only [Chip.bufPic, Chip.bufAddr, Chip.base40, reg, fld]
  have beyond : d.picBeyond (d.bufPic n i) = s.chip.picBeyond (s.chip.bufPic n i) := by
    rw [pic, Chip.picBeyond, Chip.isBeyond_congr (reg _), Chip.picBeyond]
  have endCode : d.endCode (d.bufPic n i) code = s.chip.endCode (s.chip.bufPic n i) code := by rw [Chip.endCode, beyond, Chip.endCode]
  have endCause : d.endCause (d.bufPic n i) cause = s.chip.endCause (s.chip.bufPic n i) cause := by rw [Chip.endCause, beyond, Chip.endCause]
  have waits : (d.agreed n && d.paired) = (s.chip.agreed n && s.chip.paired) := Chip.waits_congr (reg _) (reg _)
  obtain ⟨k, sig, recKept, back⟩ := Chip.picFinish_frameRec hn open1 (d.bufPic n i) (by omega : code < 16) cause a sup missing
  have told := Chip.picFinish_evq open1 (d.bufPic n i) code cause a sup missing
  obtain ⟨k', sig', x, f, hf, judged, -, -⟩ := Chip.picFinish_says open1 (d.bufPic n i) code cause a sup missing
  generalize d.picFinish n i (d.bufPic n i) code cause a sup missing = c at recKept back told judged
  obtain ⟨h0, -, hc2, hs, -⟩ := srcCnt_apart hn
  -- what counted the frame stands behind what told its stamps
  have counted := Chip.countFinish_says (((d.stamped n (d.bufPic n i) a sup).putFrameRec n i (d.endRec n i (d.bufPic n i) code cause a sup k' sig')).modSlot n
    (fun s => { s with done := x :: s.done })) hn (d.endRec n i (d.bufPic n i) code cause a sup k' sig').seq missing
    (d.endRec n i (d.bufPic n i) code cause a sup k' sig').code
  rw [← Chip.finished, ← hf] at counted
  have said := regsSame_stamped d n (d.bufPic n i) a sup
  have before : ∀ b, b ∉ verdictRegs → (((d.stamped n (d.bufPic n i) a sup).putFrameRec n i (d.endRec n i (d.bufPic n i) code cause a sup k' sig')).modSlot n
      (fun s => { s with done := x :: s.done })).reg b = s.chip.reg b := by
    intro b hb
    rw [Chip.modSlot_reg, Chip.reg, Chip.putFrameRec_regs, ← Chip.reg, said.reg (notMem_eventRegs_of_verdict hb), reg]
  obtain ⟨c0, cs, c2⟩ := counted
  rw [Chip.bump_reg, if_pos rfl, before _ h0] at c0
  refine hP c d regs evq clk told ?_ ?_ ?_ (fun hne => ?_) ?_ (fun off => ?_)
  · rw [recKept]
    have seq : (s.chip.frameRec n i).seq % 2 ^ 32 = (s.chip.frameRec n i).seq := Nat.mod_eq_of_lt (leAt_lt _ 36 4)
    simp only [FrameRec.kept, FrameRec.stored, Chip.endRec, finishRec, endCode, endCause, kept, seq, shortStamp, Nat.mod_mod]
  · rw [judged.regs.reg h0, c0, Chip.bump_reg, if_pos rfl]
  · rw [judged.regs.bit hs, cs]
  · rw [judged.regs.reg hc2, c2 (by change d.endCode _ _ ≠ 2; rwa [endCode]), Chip.bump_reg, if_pos rfl, before _ hc2, Chip.bump_reg, if_pos rfl]
  · rw [judged.done, hf, Chip.finished_slot, Chip.slot_of_slots (Chip.stamped_slots _ _ _ _ _), Chip.slot_of_slots slots, List.length_cons]
  · rw [back (.inl (by rw [waits, off]))]
    simp only [FrameRec.stored, Chip.endRec, finishRec, endCode, waits, off, Bool.not_false, Bool.and_true, clk, true_and]
    split
    · rw [shortStamp, Nat.mod_mod]
    · rfl

/-- Settles O29: the choice of a buffer does not see the sequence number, and the record, the counts and the history of a finished frame
outlast the verdict that may follow. -/
theorem framesBeginFinishAndBecomeEligible : Obligations.FramesBeginFinishAndBecomeEligible := by
  unfold Obligations.FramesBeginFinishAndBecomeEligible
  refine ⟨?_, ?_, ?_, ?_, ?_, ?_, ?_, ?_⟩
  · intro s t n key i hn h0 h7 free
    obtain ⟨seq, hkey, gen, regs, evq, tbw, rec, others⟩ := Chip.frameBegin_says (s.chip.at t) key ((Chip.freeBuf_at _ _ _).trans free) rfl
    exact answers_exec (exec_frameBegin_enabled hn h0 h7 t key)
      ⟨seq, hkey, gen, regs, Chip.raises_of_evq evq, tbw, rec, fun m _ hm => others m hm⟩
  · intro s t n key hn h0 h7 free
    obtain ⟨v, eq⟩ := Chip.frameBegin_none (s.chip.at t) n key ((Chip.freeBuf_at _ _ _).trans free)
    obtain ⟨-, h1, -⟩ := srcCnt_apart hn
    obtain ⟨-, -, agree, stat⟩ := slotRegs_notMem_event (n := n)
    refine answers_exec (exec_frameBegin_enabled hn h0 h7 t key) ?_
    rw [eq]
    have count : R.srcCnt n 1 ∉ eventRegs := notMem_eventRegs_of_verdict h1
    simp only [mem_eventRegs, not_or] at count
    have told : regsSame eventRegs ((s.chip.at t).bump (R.srcCnt n 1)).regs ((s.chip.at t).noBuffer n).regs := by
      rw [Chip.noBuffer, regsSame_event_iff (by simp) (by simp)]
      exact regsSame.refl
    have apart : R.twnAgree (n / 32) ≠ R.srcCnt n 1 ∧ R.twnStat ≠ R.srcCnt n 1 := by simp only [R.twnAgree, R.twnStat, R.srcCnt]; omega
    have seq : (((s.chip.at t).noBuffer n).slot n).seq = (s.chip.slot n).seq.succ % 2 ^ 32 := by
      rw [Chip.noBuffer, Chip.slot_of_slots (Chip.event_slots _ _ _ _), Chip.slot_of_slots (Chip.bump_slots _ _), Chip.countFrame_slot]
      rfl
    have cnt : ((s.chip.at t).noBuffer n).reg (R.srcCnt n 1) = (s.chip.bump (R.srcCnt n 1)).reg (R.srcCnt n 1) :=
      told.reg (by simp [count])
    have waits : (((s.chip.at t).noBuffer n).agreed n && ((s.chip.at t).noBuffer n).paired) = (s.chip.agreed n && s.chip.paired) := by
      refine Chip.waits_congr ?_ ?_
      · rw [told.reg agree, Chip.bump_reg_other _ apart.1]; rfl
      · rw [told.reg stat, Chip.bump_reg_other _ apart.2]; rfl
    have judged : Chip.Judged n ((s.chip.at t).noBuffer n) (if ((s.chip.at t).noBuffer n).agreed n && ((s.chip.at t).noBuffer n).paired then
        ((s.chip.at t).noBuffer n).firstVerdict n key none v else (s.chip.at t).noBuffer n) := by
      split
      · exact .firstVerdict _ _ _ _ _
      · exact .refl
    refine ⟨by rw [judged.seq, seq], by rw [judged.regs.reg h1, cnt], fun off => ?_⟩
    rw [if_neg (by rw [waits, off]; decide)]
    refine ⟨Chip.writesOnly_of ?_ ?_ ?_, ?_⟩
    · have counted : regsSame ([R.srcCnt n 1] ++ eventRegs) s.chip.regs ((s.chip.at t).bump (R.srcCnt n 1)).regs := by simp
      exact counted.trans (told.mono (fun _ => List.mem_append_right _))
    · rw [Chip.noBuffer, Chip.event_dram]; rfl
    · rw [Chip.noBuffer, Chip.event_tbw]; rfl
    · rw [Chip.noBuffer, Chip.countFrame_slot]
      exact Chip.raises_event_of_evq rfl rfl _ _ _
  · intro s t n key hn h
    refine gives_exec (exec_frameBegin hn t key) (if_pos ?_)
    rcases h with h | h <;> simp [h]
  · intro s t n i code cause missing a sup l hn hi h2 h6 hx h inside hl
    refine answers_frameFinish hn hi h2 h6 hx h hl (fun c d _ _ _ _ kept c0 cs c2 done elig => ?_)
    have code' : s.chip.endCode (s.chip.bufPic n i) code = code := if_neg (by rw [Chip.picBeyond, inside]; decide)
    have cause' : s.chip.endCause (s.chip.bufPic n i) cause = cause := if_neg (by rw [Chip.picBeyond, inside]; decide)
    rw [code', cause', Nat.mod_eq_of_lt (by omega : cause < 2 ^ 8)] at kept
    rw [code'] at c2 elig
    simp only [FrameRec.kept, Prod.mk.injEq] at kept
    obtain ⟨kc, kx, ks, ka⟩ := kept
    refine ⟨kc, kx, ks, ka, c0, cs, c2, done, fun off => ?_⟩
    obtain ⟨el, st⟩ := elig off
    exact ⟨by rw [el, beq_iff_eq], by rw [st]; simp only [beq_iff_eq]⟩
  · intro s t n i code cause missing a sup hn hi h2 h6 hx h beyond
    refine answers_frameFinish hn hi h2 h6 hx h (fun _ he => absurd he (List.not_mem_nil)) (fun c d regs evq clk told kept _ _ _ _ _ => ?_)
    have reg : ∀ b, d.reg b = s.chip.reg b := fun b => by rw [Chip.reg, regs, Chip.reg]
    have fld : ∀ b hi lo, d.fld b hi lo = s.chip.fld b hi lo := fun b => Chip.fld_of_reg (reg b)
    have pic : d.bufPic n i = s.chip.bufPic n i := by simp only [Chip.bufPic, Chip.bufAddr, Chip.base40, reg, fld]
    have group : d.slotGroup n = s.chip.slotGroup n := by simp only [Chip.slotGroup, Chip.slotKind, fld, Chip.bit_of_reg (reg _)]
    have code' : s.chip.endCode (s.chip.bufPic n i) code = 5 := if_pos (by rw [Chip.picBeyond, beyond])
    have cause' : s.chip.endCause (s.chip.bufPic n i) cause = cause ||| 4 := if_pos (by rw [Chip.picBeyond, beyond])
    have small : cause ||| 4 < 2 ^ 8 := Nat.or_lt_two_pow (by omega) (by decide)
    rw [code', cause', Nat.mod_eq_of_lt small] at kept
    simp only [FrameRec.kept, Prod.mk.injEq] at kept
    obtain ⟨kc, kx, -, -⟩ := kept
    refine ⟨kc, kx, fun room => ?_⟩
    have first : (d.refuseBeyond (d.slotGroup n) (d.bufPic n i).base (frameBytes (d.bufPic n i).fmt (d.bufPic n i).w (d.bufPic n i).h)).evq =
        s.chip.evq ++ [⟨0xD007, .room, t, [.val 1 (s.chip.slotGroup n), .val 8 ((s.chip.bufPic n i).base - dramBase)]⟩] := by
      rw [Chip.refuseBeyond, pic, Chip.isBeyond_congr (reg _), if_pos beyond, Chip.event, Chip.raise_evq_take, evq, clk, group,
        List.take_of_length_le (by simp only [List.length_singleton]; omega)]
    obtain ⟨q, hq⟩ := (Chip.tellStamp_evq_prefix _ n a sup).trans told
    rw [← hq, first, List.append_assoc, List.drop_left]
    rfl
  · intro s t n i code cause missing a sup l hn hi h2 h6 hx h
    refine gives_of (show exec _ s = execFrameFinish t n i code cause a sup missing l s from rfl) (by simp [hn, hi, h2, h6, hx]) ?_
    exact if_pos (by rw [Chip.frameRec_at]; simpa using h)
  · intro s t n i hn hi hc he hd
    refine answers_of (show exec _ s = execFrameEligible t n i s from rfl) (by simp [hn, hi]) ?_
    have due : ((s.chip.at t).frameRec n i).code == 2 && ((s.chip.at t).frameRec n i).elig != 0 &&
        decide (0 ≤ stampGap (s.chip.at t).clk ((s.chip.at t).frameRec n i).elig) := by
      rw [Chip.frameRec_at, Chip.at_clk]
      simp [hc, he, hd]
    rw [if_pos due]
    have inside : s.chip.inDram (s.chip.recAddr n i) 48 = true := Chip.inDram_of_code (by omega)
    refine ⟨?_, Chip.putFrameRec_regs _ _ _ _, Chip.putFrameRec_slots _ _ _ _, Chip.raises_of_evq (Chip.putFrameRec_evq _ _ _ _)⟩
    rw [Chip.frameRec_putFrameRec (by exact inside) (by exact s.chip.frameRec_code_lt n i)]
    exact FrameRec.stored_eligible _
  · intro s t n i hn hi h
    refine gives_of (show exec _ s = execFrameEligible t n i s from rfl) (by simp [hn, hi]) ?_
    refine if_neg ?_
    rw [Chip.frameRec_at, Chip.at_clk]
    simp only [Bool.and_eq_true, beq_iff_eq, bne_iff_ne, decide_eq_true_eq]
    rintro ⟨⟨hc, he⟩, hd⟩
    rcases h with h | h | h
    · exact h hc
    · exact he h
    · omega

end Sys2Proof.Machine

/-! ## NOTICEs (R338, R352, R353) -/

namespace Sys2Proof.Machine

/-- R338: the twin's verdict that a NOTICE carries. -/
def noticeVerdict (l : List Byte) : Verdict :=
  { hold := leAt l 1 1 % 4 == 1, derived := leAt l 1 1 / 4 % 2 == 1, cap := leAt l 8 8, stamp := leAt l 16 8, sig := leAt l 24 4 }

/-- R352: the frames that wait, with the twin's verdict on one more. -/
def Chip.withTwin (c : Chip) (n key : Nat) (v : Verdict) : Chip :=
  c.modSlot n (fun s => { s with agree := agreePut key false (fun a => { a with twin := some v }) s.agree })

/-- The twin's NOTICE is counted. -/
def Chip.countNotice (c : Chip) : Chip := if c.twinOn then c.bump (R.twnCnt 1) else c

theorem regsSame_countNotice (c : Chip) : regsSame [R.twnCnt 1] c.regs c.countNotice.regs := by
  unfold Chip.countNotice
  split <;> simp

theorem twnCnt_apart (j n : Nat) (hn : n < 256) (hj : j < 8) : R.twnAgree (n / 32) ≠ R.twnCnt j ∧ R.twnStat ≠ R.twnCnt j ∧
    R.twnTiming ≠ R.twnCnt j := by
  simp only [R.twnAgree, R.twnStat, R.twnTiming, R.twnCnt]
  omega

section
variable {s : State} {l : List Byte}

theorem exec_noticeReceive (h : l.length = 32) (t : Stamp) : exec (.noticeReceive t l) s = .next { s with chip :=
    (if s.chip.agreed (leAt l 0 1) && s.chip.paired then
      ((s.chip.at t).countNotice.withTwin (leAt l 0 1) (leAt l 4 4) (noticeVerdict l)).settle (leAt l 0 1) true
    else (s.chip.at t).countNotice) } := by
  have hn : leAt l 0 1 < 256 := leAt_lt l 0 1
  obtain ⟨agree, stat, -⟩ := twnCnt_apart 1 _ hn (by decide)
  have counted := regsSame_countNotice (s.chip.at t)
  have waits : ((s.chip.at t).countNotice.agreed (leAt l 0 1) && (s.chip.at t).countNotice.paired) =
      (s.chip.agreed (leAt l 0 1) && s.chip.paired) :=
    Chip.waits_congr (counted.reg (by simpa using agree)) (counted.reg (by simpa using stat))
  rw [show exec (.noticeReceive t l) s = execNoticeReceive t l s from rfl, execNoticeReceive, runIf_of _ _ _ (decide_eq_true h), ← waits]
  rfl

end

/-- A verdict on a key of which nothing waits joins the end. -/
theorem agreePut_of_notMem {l : List Agree} {key : Nat} (h : ∀ a ∈ l, a.key ≠ key) (side : Bool) (f : Agree → Agree) :
    agreePut key side f l = l ++ [f { key := key }] := by
  induction l with
  | nil => rfl
  | cons x l ih =>
    have hx : (x.key == key) = false := by simpa using h x List.mem_cons_self
    rw [agreePut, hx, Bool.false_and, if_neg Bool.false_ne_true, ih (fun a ha => h a (List.mem_cons_of_mem _ ha)), List.cons_append]

theorem Chip.keepWaiting_slot (c : Chip) (n : Nat) : (c.keepWaiting n).slot n =
    { c.slot n with agree := (c.slot n).agree.filter (fun a => a.own.isNone || a.twin.isNone) } := Chip.slot_modSlot_same c n _

/-- A change of a slot to what it is changes nothing. -/
theorem filter_waiting {l : List Agree} (h : ∀ a ∈ l, a.own = none ∨ a.twin = none) :
    l.filter (fun a => a.own.isNone || a.twin.isNone) = l := by
  refine List.filter_eq_self.mpr (fun a ha => ?_)
  rcases h a ha with h | h <;> simp [h]

/-! ### The message -/

section
variable (n key cap stamp sig : Nat)

/-- R338: a NOTICE that says HOLD with a stamp that is not derived. -/
def holdNotice : List Byte :=
  [BitVec.ofNat 8 n, 1, 0, 0] ++ leBytes 4 key ++ leBytes 8 cap ++ leBytes 8 stamp ++ leBytes 4 sig ++ leBytes 4 0

theorem holdNotice_length : (holdNotice n key cap stamp sig).length = 32 := by simp [holdNotice, leBytes_length]

variable {n key cap stamp sig}

theorem holdNotice_says (hn : n < 256) (hk : key < 2 ^ 32) (hc : cap < 2 ^ 64) (hs : stamp < 2 ^ 64) (hg : sig < 2 ^ 32) :
    leAt (holdNotice n key cap stamp sig) 0 1 = n ∧ leAt (holdNotice n key cap stamp sig) 4 4 = key ∧
      noticeVerdict (holdNotice n key cap stamp sig) = ⟨true, false, cap, stamp, sig⟩ := by
  have four : ([BitVec.ofNat 8 n, 1, 0, 0] : List Byte).length = 4 := rfl
  have bytes : holdNotice n key cap stamp sig = [BitVec.ofNat 8 n, 1, 0, 0] ++ (leBytes 4 key ++ (leBytes 8 cap ++ (leBytes 8 stamp ++
      (leBytes 4 sig ++ leBytes 4 0)))) := by simp only [holdNotice, List.append_assoc]
  have at0 : leAt (holdNotice n key cap stamp sig) 0 1 = n := by
    rw [bytes]
    simp only [leAt, List.drop_zero, List.cons_append, List.take_succ_cons, List.take_zero, leNat, BitVec.toNat_ofNat]
    omega
  have at1 : leAt (holdNotice n key cap stamp sig) 1 1 = 1 := by rw [bytes]; rfl
  have far : ∀ o k, 4 ≤ o → leAt (holdNotice n key cap stamp sig) o k = leAt (leBytes 4 key ++ (leBytes 8 cap ++ (leBytes 8 stamp ++
      (leBytes 4 sig ++ leBytes 4 0)))) (o - 4) k := fun o k ho => by rw [bytes, leAt_skip (by rw [four]; exact ho), four]
  refine ⟨at0, ?_, ?_⟩
  · rw [far 4 4 (by decide), Nat.sub_self, leAt_leBytes]; exact Nat.mod_eq_of_lt hk
  · have c8 : leAt (holdNotice n key cap stamp sig) 8 8 = cap := by
      rw [far 8 8 (by decide), leAt_skip_leBytes (by decide), leAt_leBytes]; exact Nat.mod_eq_of_lt hc
    have c16 : leAt (holdNotice n key cap stamp sig) 16 8 = stamp := by
      rw [far 16 8 (by decide), leAt_skip_leBytes (by decide), leAt_skip_leBytes (by decide), leAt_leBytes]; exact Nat.mod_eq_of_lt hs
    have c24 : leAt (holdNotice n key cap stamp sig) 24 4 = sig := by
      rw [far 24 4 (by decide), leAt_skip_leBytes (by decide), leAt_skip_leBytes (by decide), leAt_skip_leBytes (by decide), leAt_leBytes]
      exact Nat.mod_eq_of_lt hg
    rw [noticeVerdict, at1, c8, c16, c24]
    rfl

end

/-! ### Both verdicts -/

theorem Chip.modDone_frameRec (c : Chip) (n seq i : Nat) (f : Finished → Finished) : (c.modDone n seq f).frameRec n i = c.frameRec n i :=
  Chip.frameRec_of_dram (fun _ _ => rfl) rfl i

theorem Chip.bump_frameRec (c : Chip) {n a : Nat} (ha : a ∉ recordPlace n) (i : Nat) : (c.bump a).frameRec n i = c.frameRec n i :=
  Chip.frameRec_of_dram (fun b hb => Chip.bump_reg_other c (fun e : b = a => ha (e ▸ hb))) rfl i

/-- R353: what an agreed frame's record holds. -/
theorem Chip.agreeFrame_frameRec {c : Chip} {n i : Nat} (hn : n < 256) (h : (c.frameRec n i).code = 2) (e cap : Stamp) (derived lost : Bool) :
    ((c.agreeFrame n i (c.frameRec n i).seq e cap derived lost).frameRec n i).elig = e % 2 ^ 64 ∧
      ((c.agreeFrame n i (c.frameRec n i).seq e cap derived lost).frameRec n i).cap = cap % 2 ^ 64 ∧
      ((c.agreeFrame n i (c.frameRec n i).seq e cap derived lost).frameRec n i).twinLost = lost := by
  obtain ⟨k, f, eq⟩ := c.agreeFrame_eq n i (c.frameRec n i).seq e cap derived lost
  have inside : c.inDram (c.recAddr n i) 48 = true := Chip.inDram_of_code (by omega)
  have put := Chip.frameRec_putFrameRec (r := (c.frameRec n i).agreed e cap k derived lost (decide (0 ≤ stampGap c.clk e))) inside
    (by exact c.frameRec_code_lt n i)
  rw [if_pos (by simp [h])] at eq
  rw [eq]
  generalize hd : c.putFrameRec n i ((c.frameRec n i).agreed e cap k derived lost (decide (0 ≤ stampGap c.clk e))) = d at put ⊢
  have same : (if lost = true then (d.modDone n (c.frameRec n i).seq f).bump (R.twnCnt 3) else d.modDone n (c.frameRec n i).seq f).frameRec n i =
      d.frameRec n i := by
    have cnt : R.twnCnt 3 ∉ recordPlace n := fun hm => recordPlace_notMem hn _ hm (by simp [verdictRegs, decisionRegs])
    split
    · rw [Chip.bump_frameRec _ cnt, Chip.modDone_frameRec]
    · rw [Chip.modDone_frameRec]
  rw [same, put]
  simp only [FrameRec.stored, FrameRec.agreed, and_self]

/-- An update that writes no record and none of the registers that place it. -/
theorem Chip.told_frameRec {c : Chip} {n : Nat} (hn : n < 256) {j : Nat} (hj : R.twnCnt j ∈ decisionRegs) (code : Nat) (l : List CField)
    (i : Nat) : ((c.bump (R.twnCnt j)).eventLimited n code .room l).frameRec n i = c.frameRec n i := by
  have regs : regsSame decisionRegs c.regs ((c.bump (R.twnCnt j)).eventLimited n code .room l).regs := by simp [decisionRegs] at hj ⊢; simp [hj]
  exact Chip.frameRec_of_dram (fun a ha => regs.reg (fun hm => recordPlace_notMem hn a ha (by simp [verdictRegs, hm]))) (by simp) i

/-- R354: what an agreed frame of which the last verdict comes late is told. -/
def Chip.tellLate (c : Chip) (n : Nat) (g : Agree) (late : Bool) (e : Stamp) : Chip :=
  if late && decide (0 < stampGap c.clk e) then
    (c.bump (R.twnCnt 2)).eventLimited n 0x1007 .room [.val 1 n, .val 4 g.key, .val 4 ((stampGap c.clk e).toNat / nsPerUs), .occ]
  else c

theorem Chip.tellLate_frameRec {c : Chip} {n : Nat} (hn : n < 256) (g : Agree) (late : Bool) (e : Stamp) (i : Nat) :
    (c.tellLate n g late e).frameRec n i = c.frameRec n i := by
  unfold Chip.tellLate
  split
  · exact Chip.told_frameRec hn (by simp [decisionRegs]) _ _ i
  · rfl

/-- R353: the E of a frame of which both verdicts are known. -/
def Chip.agreedAt (c : Chip) (own twin : Verdict) : Stamp := (stampMax own.stamp twin.stamp + c.twinMargin) % 2 ^ 64

section
variable {c : Chip} {n : Nat} {g : Agree} {own twin : Verdict} {i seq : Nat}

theorem Chip.decideFrame_same (hg : g.frame = some (i, seq)) (ho : own.hold = true) (ht : twin.hold = true) (hs : own.sig = twin.sig)
    (late : Bool) : c.decideFrame n g own twin late = (c.agreeFrame n i seq (c.agreedAt own twin) (stampMin own.cap twin.cap)
      (own.derived || twin.derived) false).tellLate n g late (c.agreedAt own twin) := by
  simp only [Chip.decideFrame, hg, ho, ht, hs, if_true, beq_self_eq_true, Bool.and_self]
  rfl

theorem Chip.decideFrame_differ (hg : g.frame = some (i, seq)) (ho : own.hold = true) (ht : twin.hold = true) (hs : own.sig ≠ twin.sig)
    (late : Bool) : c.decideFrame n g own twin late = (((c.agreeFrame n i seq (c.agreedAt own twin) own.cap own.derived true).bump
      (R.twnCnt 4)).eventLimited n 0x1008 .room [.val 1 n, .val 4 g.key, .val 4 own.sig, .val 4 twin.sig, .occ]).tellLate n g late
      (c.agreedAt own twin) := by
  have hs' : (own.sig == twin.sig) = false := by simpa using hs
  simp only [Chip.decideFrame, hg, ho, ht, hs', if_true, Bool.and_false, Bool.false_eq_true, if_false]
  rfl

end

theorem regsSame_agreeFrame (c : Chip) (n i seq : Nat) (e cap : Stamp) (derived lost : Bool) :
    regsSame [R.twnCnt 3] c.regs (c.agreeFrame n i seq e cap derived lost).regs := by
  obtain ⟨k, f, eq⟩ := c.agreeFrame_eq n i seq e cap derived lost
  rw [eq]
  have put : regsSame [R.twnCnt 3] c.regs ((c.putFrameRec n i ((c.frameRec n i).agreed e cap k derived lost
      (decide (0 ≤ stampGap c.clk e)))).modDone n seq f).regs := by
    rw [Chip.modDone_regs, Chip.putFrameRec_regs]
    exact regsSame.refl
  generalize (c.putFrameRec n i ((c.frameRec n i).agreed e cap k derived lost (decide (0 ≤ stampGap c.clk e)))).modDone n seq f = d at put
  split
  · split
    · exact (regsSame_bump_iff (by simp)).mpr put
    · exact put
  · exact regsSame.refl

theorem regsSame_tellLate (c : Chip) (n : Nat) (g : Agree) (late : Bool) (e : Stamp) :
    regsSame (R.twnCnt 2 :: eventRegs) c.regs (c.tellLate n g late e).regs := by
  unfold Chip.tellLate
  split <;> simp

theorem twnCnt_four_apart : R.twnCnt 4 ∉ R.twnCnt 2 :: eventRegs ∧ R.twnCnt 4 ∉ [R.twnCnt 3] ∧ R.twnCnt 4 ∉ [R.twnCnt 1] := by decide

/-- R353: two verdicts HOLD decide the part's frame. -/
theorem Chip.decideFrame_says {c : Chip} {n i : Nat} (hn : n < 256) (h : (c.frameRec n i).code = 2) {g : Agree} {own twin : Verdict}
    (hg : g.frame = some (i, (c.frameRec n i).seq)) (ho : own.hold = true) (ht : twin.hold = true) (late : Bool) {d : Chip}
    (hd : d = c.decideFrame n g own twin late) :
    (d.frameRec n i).elig = c.agreedAt own twin ∧
      (own.sig = twin.sig → (d.frameRec n i).cap = stampMin own.cap twin.cap % 2 ^ 64 ∧ (d.frameRec n i).twinLost = false) ∧
      (own.sig ≠ twin.sig → (d.frameRec n i).cap = own.cap % 2 ^ 64 ∧ (d.frameRec n i).twinLost = true ∧
        d.reg (R.twnCnt 4) = (c.bump (R.twnCnt 4)).reg (R.twnCnt 4)) := by
  have fits : c.agreedAt own twin % 2 ^ 64 = c.agreedAt own twin := by rw [Chip.agreedAt, Nat.mod_mod]
  by_cases same : own.sig = twin.sig
  · rw [Chip.decideFrame_same hg ho ht same] at hd
    obtain ⟨elig, cap, lost⟩ := Chip.agreeFrame_frameRec hn h (c.agreedAt own twin) (stampMin own.cap twin.cap)
      (own.derived || twin.derived) false
    rw [hd, Chip.tellLate_frameRec hn]
    exact ⟨elig.trans fits, fun _ => ⟨cap, lost⟩, fun differ => absurd same differ⟩
  · rename' same => differ
    rw [Chip.decideFrame_differ hg ho ht differ] at hd
    obtain ⟨elig, cap, lost⟩ := Chip.agreeFrame_frameRec hn h (c.agreedAt own twin) own.cap own.derived true
    have cnt : d.reg (R.twnCnt 4) = (c.bump (R.twnCnt 4)).reg (R.twnCnt 4) := by
      obtain ⟨late4, frame4, -⟩ := twnCnt_four_apart
      have told : ∀ (e : Chip) (l : List CField), (e.eventLimited n 0x1008 .room l).reg (R.twnCnt 4) = e.reg (R.twnCnt 4) := fun e l =>
        regsSame.reg (l := eventRegs) (by simp) (fun hm => late4 (List.mem_cons_of_mem _ hm))
      rw [hd, (regsSame_tellLate _ _ _ _ _).reg late4, told, Chip.bump_reg, if_pos rfl, (regsSame_agreeFrame _ _ _ _ _ _ _ _).reg frame4,
        Chip.bump_reg, if_pos rfl]
    have same : d.frameRec n i = (c.agreeFrame n i (c.frameRec n i).seq (c.agreedAt own twin) own.cap own.derived true).frameRec n i := by
      rw [hd, Chip.tellLate_frameRec hn, Chip.told_frameRec hn (by simp [decisionRegs])]
    rw [same]
    exact ⟨elig.trans fits, fun equal => absurd equal differ, fun _ => ⟨cap, lost, cnt⟩⟩

/-- LOST, established by the part itself (R352). -/
def lostVerdict (t : Stamp) : Verdict := { hold := false, derived := false, cap := 0, stamp := shortStamp t, sig := 0 }

/-- R352: the part remembers a key whose frame it has given up. -/
def Chip.giveUp (c : Chip) (n key : Nat) : Chip := c.modSlot n (fun s => { s with lostKeys := (key :: s.lostKeys).take 256 })

/-- LOSTWAIT has passed since the twin's HOLD on a frame of which the part has none (R352). -/
def Chip.lostDue (c : Chip) (n key : Nat) (t : Stamp) : Bool :=
  (c.slot n).agree.any (fun a => a.key == key && a.own.isNone && (match a.twin with
    | some v => v.hold && elapsed t v.stamp (c.fld R.twnTiming 31 16 * nsPerMs)
    | none => false))

theorem exec_noticeLostwaitExpire {s : State} {n : Nat} (hn : n < 256) (t : Stamp) (key : Nat) :
    exec (.noticeLostwaitExpire t n key) s = .next { s with chip := (if s.chip.lostDue n key t && s.chip.paired then
      ((s.chip.at t).giveUp n key).ownVerdict n key none (lostVerdict t) else s.chip.at t) } := by
  rw [show exec (.noticeLostwaitExpire t n key) s = execNoticeLostwaitExpire t n key s from rfl, execNoticeLostwaitExpire,
    runIf_of _ _ _ (decide_eq_true hn)]
  rfl

/-- Settles O30: with no own frame a key only waits; with the part's HOLD known the two verdicts decide its record, which the queues and
counts that follow leave. -/
theorem noticesWaitForBothVerdicts : Obligations.NoticesWaitForBothVerdicts := by
  unfold Obligations.NoticesWaitForBothVerdicts
  refine ⟨?_, ?_, ?_, ?_, ?_, ?_⟩
  · intro s t l h on off
    refine answers_exec (exec_noticeReceive h t) ?_
    have eq : (s.chip.at t).countNotice = (s.chip.at t).bump (R.twnCnt 1) := if_pos on
    rw [if_neg (by rw [off]; decide), eq]
    exact ⟨rfl, rfl, Chip.writesOnly_of (by simp) rfl rfl, Chip.raises_of_evq rfl⟩
  · intro s t l h on off
    refine gives_exec (exec_noticeReceive h t) ?_
    rw [if_neg (by rw [off]; decide)]
    exact if_neg (by rw [show (s.chip.at t).twinOn = s.chip.twinOn from rfl, on]; decide)
  · intro s t l h on pair new waiting
    refine answers_exec (exec_noticeReceive h t) ?_
    have eq : (s.chip.at t).countNotice = (s.chip.at t).bump (R.twnCnt 1) := if_pos on
    rw [if_pos pair, eq]
    have put := agreePut_of_notMem new false (fun a => { a with twin := some (noticeVerdict l) })
    have slot : ((((s.chip.at t).bump (R.twnCnt 1)).withTwin (leAt l 0 1) (leAt l 4 4) (noticeVerdict l)).slot (leAt l 0 1)).agree =
        (s.chip.slot (leAt l 0 1)).agree ++ [{ key := leAt l 4 4, twin := some (noticeVerdict l) }] := by
      rw [Chip.withTwin, Chip.slot_modSlot_same]
      exact put
    have none : ∀ a ∈ ((((s.chip.at t).bump (R.twnCnt 1)).withTwin (leAt l 0 1) (leAt l 4 4) (noticeVerdict l)).slot (leAt l 0 1)).agree,
        a.own = none ∨ a.twin = none := by
      intro a ha
      rw [slot] at ha
      rcases List.mem_append.mp ha with ha | ha
      · exact waiting a ha
      · rw [List.mem_singleton.mp ha]
        exact .inl rfl
    rw [Chip.settle_none none]
    refine ⟨?_, rfl, Chip.writesOnly_of (by simp [Chip.keepWaiting, Chip.withTwin]) rfl rfl, Chip.raises_of_evq rfl⟩
    rw [Chip.keepWaiting_slot]
    exact (filter_waiting none).trans slot
  · intro s t n i seq key sig cap stamp own hn hi hk hc hs hg on pair waits hold code hseq
    obtain ⟨at0, at4, verdict⟩ := holdNotice_says hn hk hc hs hg
    change Answers (.noticeReceive t (holdNotice n key cap stamp sig)) s _
    refine answers_exec (exec_noticeReceive (holdNotice_length n key cap stamp sig) t) ?_
    rw [at0, at4, verdict, if_pos pair, show (s.chip.at t).countNotice = (s.chip.at t).bump (R.twnCnt 1) from if_pos on]
    obtain ⟨-, -, timing⟩ := twnCnt_apart 1 n hn (by decide)
    -- the frame with both verdicts waits no longer
    have slot : (((s.chip.at t).bump (R.twnCnt 1)).withTwin n key ⟨true, false, cap, stamp, sig⟩).slot n = { s.chip.slot n with
        agree := [{ key := key, frame := some (i, seq), own := some own, twin := some ⟨true, false, cap, stamp, sig⟩ }] } := by
      rw [Chip.withTwin, Chip.slot_modSlot_same, show ((s.chip.at t).bump (R.twnCnt 1)).slot n = s.chip.slot n from rfl, waits]
      simp only [agreePut, beq_self_eq_true, Bool.false_eq_true, if_false, Option.isNone_none, Bool.and_self, if_true]
    have decided := Chip.Decided.settle (((s.chip.at t).bump (R.twnCnt 1)).withTwin n key ⟨true, false, cap, stamp, sig⟩) n true
    rw [Chip.settle_eq, slot] at decided ⊢
    have kept : ∀ j, ((((s.chip.at t).bump (R.twnCnt 1)).withTwin n key ⟨true, false, cap, stamp, sig⟩).keepWaiting n).frameRec n j =
        s.chip.frameRec n j := fun j => Chip.frameRec_of_dram (fun a ha =>
          Chip.bump_reg_other (s.chip.at t) (fun e : a = R.twnCnt 1 => recordPlace_notMem hn a ha (by simp [e]))) rfl j
    have gone : (((((s.chip.at t).bump (R.twnCnt 1)).withTwin n key ⟨true, false, cap, stamp, sig⟩).keepWaiting n).slot n).agree = [] := by
      rw [Chip.keepWaiting_slot, slot]
      rfl
    have margin : ((((s.chip.at t).bump (R.twnCnt 1)).withTwin n key ⟨true, false, cap, stamp, sig⟩).keepWaiting n).twinMargin =
        s.chip.twinMargin := congrArg (· * nsPerUs) (Chip.bump_fld_other (s.chip.at t) timing 15 0)
    have cnt4 : ((((s.chip.at t).bump (R.twnCnt 1)).withTwin n key ⟨true, false, cap, stamp, sig⟩).keepWaiting n).reg (R.twnCnt 4) =
        s.chip.reg (R.twnCnt 4) := Chip.bump_reg_other (s.chip.at t) (by decide : R.twnCnt 4 ≠ R.twnCnt 1)
    generalize ((((s.chip.at t).bump (R.twnCnt 1)).withTwin n key ⟨true, false, cap, stamp, sig⟩).keepWaiting n) = c at decided kept gone margin cnt4 ⊢
    obtain ⟨elig, equal, differ⟩ := Chip.decideFrame_says (c := c) hn (by rw [kept, code]) 
      (g := ⟨key, some (i, seq), some own, some ⟨true, false, cap, stamp, sig⟩⟩) (by rw [kept, hseq]) hold (twin := ⟨true, false, cap, stamp, sig⟩) rfl true rfl
    refine ⟨(congrArg Slot.agree decided.slot : _).trans gone, elig.trans ?_, equal, fun hne => ?_⟩
    · rw [Chip.agreedAt, margin]
    · obtain ⟨c4, l4, r4⟩ := differ hne
      exact ⟨c4, l4, r4.trans (by rw [Chip.bump_reg, if_pos rfl, cnt4, Chip.bump_reg, if_pos rfl])⟩
  · intro s t n key v hn pair waits hold due
    refine answers_exec (exec_noticeLostwaitExpire hn t key) ?_
    have lost : s.chip.lostDue n key t = true := by
      rw [Chip.lostDue, waits]
      simp [hold, due]
    rw [if_pos (by rw [lost, pair]; rfl), Chip.ownVerdict_eq]
    -- LOST on no own frame decides nothing, and the key waits no longer
    have slot : ((((s.chip.at t).giveUp n key).withOwn n key none (lostVerdict t)).sendNotice n key (lostVerdict t)).slot n =
        { s.chip.slot n with
          agree := [{ key := key, own := some (lostVerdict t), twin := some v }]
          lostKeys := (key :: (s.chip.slot n).lostKeys).take 256 } := by
      rw [Chip.slot_of_slots (Chip.sendNotice_slots _ _ _ _), Chip.withOwn, Chip.slot_modSlot_same, Chip.giveUp, Chip.slot_modSlot_same,
        show (s.chip.at t).slot n = s.chip.slot n from rfl, waits]
      simp only [agreePut, beq_self_eq_true, Option.isNone_none, Bool.and_self, if_true]
    have cnt : (((s.chip.at t).giveUp n key).withOwn n key none (lostVerdict t)).sendNotice n key (lostVerdict t) =
        ((((s.chip.at t).giveUp n key).withOwn n key none (lostVerdict t)).bump (R.twnCnt 0)).bolSend 3 _ := rfl
    have sent : ((((s.chip.at t).giveUp n key).withOwn n key none (lostVerdict t)).sendNotice n key (lostVerdict t)).reg (R.twnCnt 0) =
        (s.chip.bump (R.twnCnt 0)).reg (R.twnCnt 0) := by
      rw [cnt, (regsSame_bolSend _ _ _).reg (by decide)]
      rfl
    rw [Chip.settle_eq, slot]
    have gone : ∀ c : Chip, forL [({ key := key, own := some (lostVerdict t), twin := some v } : Agree)] (Chip.settleOne n false) c = c := fun _ => rfl
    rw [gone, Chip.keepWaiting_slot, slot]
    refine ⟨rfl, by simp, sent, ?_, Chip.raises_of_evq ?_⟩
    · rw [Chip.keepWaiting, Chip.modSlot_dram, Chip.sendNotice_dram]; rfl
    · rw [Chip.keepWaiting, Chip.modSlot_evq, Chip.sendNotice_evq]; rfl
  · intro s t n key hn h
    refine gives_exec (exec_noticeLostwaitExpire hn t key) (if_neg ?_)
    rw [Bool.and_eq_true]
    rintro ⟨due, pair⟩
    rcases h with h | h
    · rw [h] at pair; exact Bool.false_ne_true pair
    · obtain ⟨a, ha, hd⟩ := List.any_eq_true.mp due
      simp only [Bool.and_eq_true, beq_iff_eq, Option.isNone_iff_eq_none] at hd
      obtain ⟨⟨hk, ho⟩, hv⟩ := hd
      cases tw : a.twin with
      | none => rw [tw] at hv; exact Bool.false_ne_true hv
      | some v =>
        rw [tw] at hv
        obtain ⟨hh, he⟩ := Bool.and_eq_true_iff.mp hv
        rw [h a ha hk ho v tw hh] at he
        exact Bool.false_ne_true he

end Sys2Proof.Machine

/-! ## The time transfer over the twin link (R359, R360) -/

namespace Sys2Proof.Machine

/-! ### A message of one flit -/

/-- R340: a message that fits in one flit. -/
theorem flitBodies_short {payload : List Byte} (h : payload.length ≤ 56) (type : Nat) : ∃ b, flitBodies type payload = [b] := by
  have one : max 1 (ceilDiv payload.length 56) = 1 := by
    rw [ceilDiv]
    omega
  rw [flitBodies, one]
  exact ⟨_, rfl⟩

/-- What the sender keeps of the flits sent is all that a flit changes of the link's state. -/
def Bolral.sent (b : Bolral) : Bolral := { b with held := [] }

section
variable (c : Chip) (type : Nat) (payload : List Byte)

theorem Chip.sendFlit_bol (body : List Byte) : (c.sendFlit body).bol.sent = c.bol.sent := by simp [Chip.sendFlit, Bolral.sent]
@[simp] theorem Chip.sendFlit_mui (body : List Byte) : (c.sendFlit body).mui = c.mui := by simp [Chip.sendFlit]
@[simp] theorem Chip.sendFlit_twn (body : List Byte) : (c.sendFlit body).twn = c.twn := by simp [Chip.sendFlit]

theorem Chip.sendMessage_bol : (c.sendMessage type payload).bol.sent = c.bol.sent :=
  forL_keeps (fun x : Chip => x.bol.sent) (fun _ _ x => x.sendFlit_bol _)
@[simp] theorem Chip.sendMessage_mui : (c.sendMessage type payload).mui = c.mui := forL_keeps Chip.mui (fun _ _ _ => by simp)
@[simp] theorem Chip.sendMessage_twn : (c.sendMessage type payload).twn = c.twn := forL_keeps Chip.twn (fun _ _ _ => by simp)

theorem Chip.sendMessage_tx {type : Nat} {payload : List Byte} (h : payload.length ≤ 56) :
    (c.sendMessage type payload).tx = c.tx ++ (flitBodies type payload).map (fun b => .flit (c.flitOf b)) := by
  obtain ⟨b, hb⟩ := flitBodies_short h type
  rw [Chip.sendMessage, hb]
  exact Chip.sendFlit_tx c b

theorem Chip.bolSend_bol : (c.bolSend type payload).bol.sent = c.bol.sent := by
  unfold Chip.bolSend; split
  · exact Chip.sendMessage_bol c type payload
  · rfl
@[simp] theorem Chip.bolSend_mui : (c.bolSend type payload).mui = c.mui := by unfold Chip.bolSend; split <;> simp
@[simp] theorem Chip.bolSend_twn : (c.bolSend type payload).twn = c.twn := by unfold Chip.bolSend; split <;> simp

theorem Chip.bolSend_of_up {c : Chip} (h : c.bolUp = true) (type : Nat) (payload : List Byte) :
    c.bolSend type payload = c.sendMessage type payload := if_pos h

theorem Chip.bolSend_of_down {c : Chip} (h : c.bolUp = false) (type : Nat) (payload : List Byte) : c.bolSend type payload = c :=
  if_neg (by simp [h])

end

/-! ### Reference inputs -/

section
variable (c : Chip) (k : Nat) (f : RefInput → RefInput)

@[simp] theorem Chip.modRefIn_regs : (c.modRefIn k f).regs = c.regs := rfl
@[simp] theorem Chip.modRefIn_dram : (c.modRefIn k f).dram = c.dram := rfl
@[simp] theorem Chip.modRefIn_tbw : (c.modRefIn k f).tbw = c.tbw := rfl
@[simp] theorem Chip.modRefIn_evq : (c.modRefIn k f).evq = c.evq := rfl
@[simp] theorem Chip.modRefIn_clk : (c.modRefIn k f).clk = c.clk := rfl
@[simp] theorem Chip.modRefIn_bol : (c.modRefIn k f).bol = c.bol := rfl
@[simp] theorem Chip.modRefIn_twn : (c.modRefIn k f).twn = c.twn := rfl

@[simp] theorem Chip.modRefIn_fld (a hi lo : Nat) : (c.modRefIn k f).fld a hi lo = c.fld a hi lo := rfl
@[simp] theorem Chip.modRefIn_bit (a i : Nat) : (c.modRefIn k f).bit a i = c.bit a i := rfl

theorem Chip.refIn_modRefIn (j : Nat) : (c.modRefIn k f).refIn j = if j = k then f (c.refIn k) else c.refIn j := mapGet_mapPut _ _ _ _ _

@[simp] theorem Chip.refIn_modRefIn_same : (c.modRefIn k f).refIn k = f (c.refIn k) := by rw [Chip.refIn_modRefIn, if_pos rfl]

theorem Chip.refIn_modRefIn_other {j : Nat} (h : j ≠ k) : (c.modRefIn k f).refIn j = c.refIn j := by rw [Chip.refIn_modRefIn, if_neg h]

theorem Chip.refIn_of_mui {c c1 : Chip} (h : c1.mui = c.mui) (j : Nat) : c1.refIn j = c.refIn j := by rw [Chip.refIn, h, Chip.refIn]

end

/-- What a test or a sample of reference input `k` leaves: every other input, the link and the twin, the memories, and every register
but the event journal's. -/
structure Chip.OneInput (k : Nat) (c c1 : Chip) : Prop where
  regs : regsSame eventRegs c.regs c1.regs
  dram : c1.dram = c.dram
  tbw : c1.tbw = c.tbw
  clk : c1.clk = c.clk
  bol : c1.bol = c.bol
  twn : c1.twn = c.twn
  others : ∀ j, j ≠ k → c1.refIn j = c.refIn j
  seen : (c1.refIn k).seen = (c.refIn k).seen

section
variable {k : Nat} {c c1 c2 : Chip}

theorem Chip.OneInput.refl : Chip.OneInput k c c := ⟨regsSame.refl, rfl, rfl, rfl, rfl, rfl, fun _ _ => rfl, rfl⟩

theorem Chip.OneInput.trans (h1 : Chip.OneInput k c c1) (h2 : Chip.OneInput k c1 c2) : Chip.OneInput k c c2 :=
  ⟨h1.regs.trans h2.regs, h2.dram.trans h1.dram, h2.tbw.trans h1.tbw, h2.clk.trans h1.clk, h2.bol.trans h1.bol, h2.twn.trans h1.twn,
    fun j hj => (h2.others j hj).trans (h1.others j hj), h2.seen.trans h1.seen⟩

theorem Chip.OneInput.modRefIn (c : Chip) {f : RefInput → RefInput} (h : ∀ i, (f i).seen = i.seen) : Chip.OneInput k c (c.modRefIn k f) :=
  ⟨regsSame.refl, rfl, rfl, rfl, rfl, rfl, fun _ hj => Chip.refIn_modRefIn_other c k f hj, by rw [Chip.refIn_modRefIn_same, h]⟩

theorem Chip.OneInput.failInput (c : Chip) (k cause : Nat) : Chip.OneInput k c (c.failInput k cause) := .modRefIn c (fun _ => rfl)

theorem Chip.OneInput.passInput (c : Chip) (k cause : Nat) : Chip.OneInput k c (c.passInput k cause) := .modRefIn c (fun _ => rfl)

theorem Chip.OneInput.muiEvent (c : Chip) (k code : Nat) (l : List CField) : Chip.OneInput k c (c.muiEvent code l) := by
  have inputs : ∀ j, (c.muiEvent code l).refIn j = c.refIn j := fun j => Chip.refIn_of_mui (Chip.event_mui _ _ _ _) j
  exact ⟨by simp [Chip.muiEvent], by simp [Chip.muiEvent], by simp [Chip.muiEvent], by simp [Chip.muiEvent], by simp [Chip.muiEvent],
    by simp [Chip.muiEvent], fun j _ => inputs j, by rw [inputs]⟩

theorem Chip.OneInput.farTest (c : Chip) (k : Nat) (phi : Int) : Chip.OneInput k c (c.farTest k phi) := by
  unfold Chip.farTest
  extract_lets limit
  split
  · exact .refl
  · split
    · split
      · exact .refl
      · exact (Chip.OneInput.failInput c k 10).trans (.muiEvent _ k _ _)
    · exact .passInput c k 10

end

/-- R93: an accepted φ of an input. -/
def Chip.acceptPhi (c : Chip) (k : Nat) (phi : Int) (credit : Nat) (others : List Nat) : Chip :=
  let c := c.modRefIn k (fun i => { i with
    phi := some phi, phiAt := c.clk, predicted := i.predicted || others.isEmpty,
    failing := if others.isEmpty then i.failing.filter (fun x => x != 4) else i.failing })
  let c := c.farTest k phi
  if c.refState k == 2 && (c.refIn k).failing.isEmpty then
    c.modRefIn k (fun i => { i with qualCount := i.qualCount + credit })
  else c

/-- R93: the tests, but the jump test and the far limit, that an input fails. -/
def RefInput.others (i : RefInput) : List Nat := i.failing.filter (fun x => x != 4 && x != 10)

/-- R93: a φ too far from the prediction. -/
def Chip.jumps (c : Chip) (k : Nat) (phi : Int) : Bool :=
  (c.refIn k).predicted && decide ((c.fld R.refQualPhase 15 0 * 256 : Int) < (phi - c.predictedPhi k c.clk).natAbs)

theorem Chip.phiSample_eq (c : Chip) (k : Nat) (phi : Int) (credit : Nat) : c.phiSample k phi credit =
    if c.jumps k phi then c.failInput k 4 else c.acceptPhi k phi credit (c.refIn k).others := rfl

theorem Chip.OneInput.acceptPhi (c : Chip) (k : Nat) (phi : Int) (credit : Nat) (others : List Nat) :
    Chip.OneInput k c (c.acceptPhi k phi credit others) := by
  unfold Chip.acceptPhi
  extract_lets d e
  have sampled : Chip.OneInput k c d := .modRefIn c (fun _ => rfl)
  have tested : Chip.OneInput k c e := sampled.trans (.farTest d k phi)
  split
  · exact tested.trans (.modRefIn e (fun _ => rfl))
  · exact tested

theorem Chip.OneInput.phiSample (c : Chip) (k : Nat) (phi : Int) (credit : Nat) : Chip.OneInput k c (c.phiSample k phi credit) := by
  rw [Chip.phiSample_eq]
  split
  · exact .failInput c k 4
  · exact .acceptPhi c k phi credit _

/-- Tests leave the φ of the last sample. -/
theorem Chip.farTest_phi (c : Chip) (k : Nat) (phi : Int) : ((c.farTest k phi).refIn k).phi = (c.refIn k).phi := by
  have failed : ∀ x, ((c.failInput k x).refIn k).phi = (c.refIn k).phi := fun x => by rw [Chip.failInput, Chip.refIn_modRefIn_same]
  unfold Chip.farTest
  extract_lets limit
  split
  · rfl
  · split
    · split
      · rfl
      · rw [Chip.muiEvent, Chip.refIn_of_mui (Chip.event_mui _ _ _ _), failed]
    · rw [Chip.passInput, Chip.refIn_modRefIn_same]

theorem Chip.acceptPhi_phi (c : Chip) (k : Nat) (phi : Int) (credit : Nat) (others : List Nat) :
    ((c.acceptPhi k phi credit others).refIn k).phi = some phi := by
  unfold Chip.acceptPhi
  extract_lets d e
  have tested : (e.refIn k).phi = some phi := by
    unfold e
    rw [Chip.farTest_phi]
    unfold d
    rw [Chip.refIn_modRefIn_same]
  split
  · rw [Chip.refIn_modRefIn_same]; exact tested
  · exact tested

/-! ### TIME exchanges -/

theorem twosOf_word (i : Int) : BitVec.ofNat 32 (twosOf 32 i) = BitVec.ofInt 32 i := by
  apply BitVec.eq_of_toNat_eq
  rw [BitVec.toNat_ofNat, BitVec.toNat_ofInt, twosOf]
  omega

/-- What a check unit finds depends on the unit and its configuration alone. -/
theorem Chip.chkRun_verdict_congr {c c1 : Chip} (hr : c1.regs = c.regs) (hk : c1.chk = c.chk) (u : Nat) (m : List Byte) :
    (c1.chkRun u m).2 = (c.chkRun u m).2 := by
  have reg : ∀ a, c1.reg a = c.reg a := fun a => by rw [Chip.reg, hr, Chip.reg]
  simp only [Chip.chkRun, Chip.chkStart, Chip.chkFeed, Chip.modChk, Chip.chkUnit, Chip.unpublish, Chip.setFld_chk, hk,
    Chip.fld_of_reg (reg _), Chip.bit_of_reg (reg _)]

/-- R360: the part of the link's state that a completed exchange changes. -/
def Chip.exchanged (c : Chip) (rt : Int) : Chip :=
  { c with bol := { c.bol with timeOpen := none, rts := (c.bol.rts ++ [rt]).drop ((c.bol.rts.length + 1) - 64) } }

/-- R360: an accepted transfer is one result and one sample of the BOLRAL input. -/
def Chip.transferred (c : Chip) (x : Int × Int) : Chip :=
  (((c.setNat R.bolResRt (twosOf 32 x.1)).publish R.bolRes).modRefIn 2 (fun i => { i with seen := true })).phiSample 2 (x.2 * 256) 1

theorem exec_timeReplyReceive {s : State} {l : List Byte} (h : l.length = 32) {a : Stamp} (ho : s.chip.bol.timeOpen = some (leNat (l.take 2), a))
    (t : Stamp) {x : Int × Int} (hx : x = timeExchange a (leAt l 16 8) (leAt l 8 8) t (s.chip.sfld R.bolCal 31 0)) :
    exec (.timeReplyReceive t l) s = .next { s with chip := (if rtDiscard s.chip.bol.rts x.1 then
      ((s.chip.at t).exchanged x.1).bump (R.bolCnt 6) else ((s.chip.at t).exchanged x.1).transferred x) } := by
  rw [show exec (.timeReplyReceive t l) s = execTimeReplyReceive t l s from rfl, execTimeReplyReceive, runIf_of _ _ _ (decide_eq_true h)]
  dsimp only
  rw [show (s.chip.at t).bol.timeOpen = _ from ho, hx]
  simp only [beq_self_eq_true, if_true]
  rfl

/-- The result of a transfer, and the sample that the BOLRAL input takes. -/
theorem Chip.transferred_says (c : Chip) (x : Int × Int) :
    (c.transferred x).bol = c.bol ∧ (c.transferred x).reg R.bolResRt = BitVec.ofInt 32 x.1 ∧ (c.transferred x).bit R.bolRes 31 = true ∧
      (c.transferred x).fld R.bolRes 15 0 = (c.fld R.bolRes 15 0 + 1) % 65536 ∧ ((c.transferred x).refIn 2).seen = true ∧
      ((c.refIn 2).predicted = false → ((c.transferred x).refIn 2).phi = some (x.2 * 256)) ∧
      (∀ k, k ≠ 2 → (c.transferred x).refIn k = c.refIn k) ∧ c.writesOnly (c.transferred x) ([R.bolResRt, R.bolRes] ++ eventRegs) := by
  have apart : R.bolRes ∉ eventRegs ∧ R.bolResRt ∉ eventRegs ∧ R.bolResRt ≠ R.bolRes := by
    simp only [mem_eventRegs, R.bolRes, R.bolResRt, R.evjStat, R.evjCnt]; omega
  obtain ⟨res, rt, ne⟩ := apart
  have published : ((c.setNat R.bolResRt (twosOf 32 x.1)).publish R.bolRes).reg R.bolResRt = BitVec.ofInt 32 x.1 := by
    rw [Chip.publish, Chip.setFld_reg_other _ _ _ _ ne, Chip.setFld_reg_other _ _ _ _ ne, Chip.setNat_reg, if_pos rfl, twosOf_word]
  have wrote : regsSame ([R.bolResRt, R.bolRes] ++ eventRegs) c.regs ((c.setNat R.bolResRt (twosOf 32 x.1)).publish R.bolRes).regs := by simp
  generalize hd : (c.setNat R.bolResRt (twosOf 32 x.1)).publish R.bolRes = d at published wrote
  have one := Chip.OneInput.phiSample (d.modRefIn 2 (fun i => { i with seen := true })) 2 (x.2 * 256) 1
  have eq : c.transferred x = (d.modRefIn 2 (fun i => { i with seen := true })).phiSample 2 (x.2 * 256) 1 := by rw [Chip.transferred, hd]
  have dm : d.mui = c.mui := by rw [← hd]; rfl
  rw [← eq] at one
  refine ⟨?_, ?_, ?_, ?_, ?_, fun hp => ?_, fun k hk => ?_, Chip.writesOnly_of ?_ ?_ ?_⟩
  · rw [one.bol, ← hd]; rfl
  · rw [one.regs.reg rt]; exact published
  · rw [one.regs.bit res, Chip.modRefIn_bit, ← hd, Chip.publish_valid]
  · rw [one.regs.fld res, Chip.modRefIn_fld, ← hd, Chip.publish_seq, Chip.setNat_fld_other _ _ ne.symm]; rfl
  · rw [one.seen, Chip.refIn_modRefIn_same]
  · rw [eq, Chip.phiSample_eq, Chip.jumps, Chip.refIn_modRefIn_same, Chip.refIn_of_mui dm, hp]
    exact Chip.acceptPhi_phi _ 2 _ 1 _
  · rw [one.others k hk, Chip.refIn_modRefIn_other _ _ _ hk, Chip.refIn_of_mui dm]
  · exact wrote.trans (one.regs.mono (fun _ => List.mem_append_right _))
  · rw [one.dram, ← hd]; rfl
  · rw [one.tbw, ← hd]; rfl

/-- A message of one flit over a link that is up, from a part that differs in its clock and its exchanges alone. -/
theorem Chip.oneFlit {c c1 : Chip} (hu : c.bolUp = true) (hr : c1.regs = c.regs) (hk : c1.chk = c.chk) (ht : c1.tx = c.tx) (hm : c1.mui = c.mui)
    (hd : c1.dram = c.dram) (hw : c1.tbw = c.tbw) (he : c1.evq = c.evq) (type : Nat) {payload : List Byte} (h : payload.length ≤ 56) :
    (c1.bolSend type payload).tx = c.tx ++ (flitBodies type payload).map (fun b => .flit (c.flitOf b)) ∧
      (c1.bolSend type payload).bol.sent = c1.bol.sent ∧ (c1.bolSend type payload).mui = c.mui ∧
      c.writesOnly (c1.bolSend type payload) (R.bolCnt 0 :: checkRegs 2) ∧ c.raises (c1.bolSend type payload) [] := by
  have up : c1.bolUp = true := by rw [← hu, Chip.bolUp, Chip.bit_of_reg (c := c) (by rw [Chip.reg, hr, Chip.reg]), Chip.bolUp]
  have flit : ∀ b, c1.flitOf b = c.flitOf b := fun b => by
    rw [Chip.flitOf, Chip.chkRun_verdict_congr hr hk, Chip.flitOf]
  refine ⟨?_, Chip.bolSend_bol _ _ _, by rw [Chip.bolSend_mui, hm], Chip.writesOnly_of ?_ ?_ ?_, Chip.raises_of_evq ?_⟩
  · rw [Chip.bolSend_of_up up, Chip.sendMessage_tx _ h, ht]
    simp only [flit]
  · rw [← hr]; exact regsSame_bolSend c1 type payload
  · rw [Chip.bolSend_dram, hd]
  · rw [Chip.bolSend_tbw, hw]
  · rw [Chip.bolSend_evq, he]

/-- Settles O50: each TIME message is one flit, and an accepted transfer is one result and one sample. -/
theorem timeExchangeYieldsTheRoundTrip : Obligations.TimeExchangeYieldsTheRoundTrip := by
  unfold Obligations.TimeExchangeYieldsTheRoundTrip
  refine ⟨?_, ?_, ?_, ?_, ?_, ?_, ?_⟩
  · intro s t depart up due
    refine answers_of (show exec _ s = execTimeExchangeStart t depart s from rfl) rfl ?_
    rw [if_pos (by rw [show (s.chip.at t).bolUp = s.chip.bolUp from rfl, up]; simpa using due)]
    obtain ⟨tx, bol, -, wrote, quiet⟩ := Chip.oneFlit (c := s.chip) (c1 := { s.chip.at t with bol := { s.chip.bol with
      timeSeq := (s.chip.bol.timeSeq + 1) % 65536, timeOpen := some (s.chip.bol.timeSeq, depart) } }) up rfl rfl rfl rfl rfl rfl rfl 2
      (payload := leBytes 2 s.chip.bol.timeSeq ++ List.replicate 6 0 ++ leBytes 8 depart ++ List.replicate 16 0) (by simp [leBytes_length])
    exact ⟨(congrArg Bolral.timeOpen bol : _), (congrArg Bolral.timeSeq bol : _), (congrArg Bolral.rts bol : _), tx, wrote, quiet⟩
  · intro s t depart h
    refine gives_of (show exec _ s = execTimeExchangeStart t depart s from rfl) rfl (if_neg ?_)
    rw [show (s.chip.at t).bolUp = s.chip.bolUp from rfl, Chip.at_clk]
    rcases h with h | h <;> simp [h]
  · intro s t depart l hl up
    refine answers_of (show exec _ s = execTimeRequestReceive t l depart s from rfl) (decide_eq_true hl) ?_
    obtain ⟨tx, bol, mui, wrote, quiet⟩ := Chip.oneFlit (c := s.chip) (c1 := s.chip.at t) up rfl rfl rfl rfl rfl rfl rfl 2
      (payload := l.take 2 ++ [1] ++ List.replicate 5 0 ++ leBytes 8 depart ++ leBytes 8 t ++ List.replicate 8 0) (by simp [leBytes_length, hl])
    refine ⟨?_, (congrArg Bolral.timeOpen bol : _), (congrArg Bolral.timeSeq bol : _), mui, wrote, quiet⟩
    have same : l.take 2 ++ [1, 0, 0, 0, 0, 0] ++ leBytes 8 depart ++ leBytes 8 t ++ List.replicate 8 0 =
        l.take 2 ++ [1] ++ List.replicate 5 0 ++ leBytes 8 depart ++ leBytes 8 t ++ List.replicate 8 0 := by
      simp only [List.append_assoc]; rfl
    rw [same]
    exact tx
  · intro s t depart l hl down
    refine gives_of (show exec _ s = execTimeRequestReceive t l depart s from rfl) (decide_eq_true hl) ?_
    exact Chip.bolSend_of_down (c := s.chip.at t) down _ _
  · intro s t a l x hl ho hx keep
    refine answers_exec (exec_timeReplyReceive hl ho t hx) ?_
    rw [if_neg (by rw [keep]; decide)]
    obtain ⟨bol, rt, valid, seq, seen, phi, others, wrote⟩ := ((s.chip.at t).exchanged x.1).transferred_says x
    exact ⟨by rw [bol]; rfl, by rw [bol]; rfl, rt, valid, seq, seen, phi, fun k _ hk => others k hk, wrote⟩
  · intro s t a l x hl ho hx drop
    refine answers_exec (exec_timeReplyReceive hl ho t hx) ?_
    rw [if_pos drop]
    exact ⟨rfl, rfl, rfl, rfl, Chip.writesOnly_of (by simp [Chip.exchanged]) rfl rfl, Chip.raises_of_evq rfl⟩
  · intro s t l hl h
    refine gives_of (show exec _ s = execTimeReplyReceive t l s from rfl) (decide_eq_true hl) ?_
    dsimp only
    rw [show (s.chip.at t).bol.timeOpen = s.chip.bol.timeOpen from rfl]
    cases ho : s.chip.bol.timeOpen with
    | none => rfl
    | some o =>
      rw [ho] at h
      have other : (leNat (l.take 2) == o.1) = false := by
        have ne : o.1 ≠ leNat (l.take 2) := by simpa using h
        simpa using ne.symm
      simp only [other, Bool.false_eq_true, if_false]

end Sys2Proof.Machine

/-! ## The twin link's flits (R338 to R343) -/

namespace Sys2Proof.Machine

/-! ### Check units side by side -/

theorem Chip.chkUnit_modChk (c : Chip) (u w : Nat) (f : ChkUnit → ChkUnit) :
    mapGet chkDefault (c.modChk u f).chk w = if w = u then f (c.chkUnit u) else c.chkUnit w := mapGet_mapPut _ _ _ _ _

theorem Chip.chkFinish_chkUnit_other (c : Chip) {u w : Nat} (h : w ≠ u) : (c.chkFinish u).chkUnit w = c.chkUnit w := by
  unfold Chip.chkFinish
  rw [Chip.chkUnit]
  extract_lets x v d1 d2 d3 d4 d5 d6
  have chk : d5.chk = d1.chk := rfl
  have counted : d6.chk = d1.chk := by
    unfold d6
    split
    · exact chk
    · exact chk
  have same : (if v.rep = true then d6.bump (R.chkCnt u 2) else d6).chk = d1.chk := by
    split
    · exact counted
    · exact counted
  rw [same]
  exact (Chip.chkUnit_modChk c u w _).trans (if_neg h)

theorem Chip.chkRun_chkUnit_other (c : Chip) {u w : Nat} (h : w ≠ u) (m : List Byte) : (c.chkRun u m).1.chkUnit w = c.chkUnit w := by
  have feed : ((c.chkStart u).chkFeed u m).chkUnit w = (c.chkStart u).chkUnit w := (Chip.chkUnit_modChk (c.chkStart u) u w _).trans (if_neg h)
  have start : (c.chkStart u).chkUnit w = c.chkUnit w := by
    unfold Chip.chkStart
    extract_lets _ _ _ d
    change mapGet chkDefault d.chk w = _
    exact (Chip.chkUnit_modChk c u w _).trans (if_neg h)
  exact (Chip.chkFinish_chkUnit_other _ h).trans (feed.trans start)

/-- What a check unit finds, from the unit and its configuration. -/
theorem Chip.chkRun_verdict_of_unit {c c1 : Chip} {u : Nat} (hr : c1.reg (R.chkCfg u) = c.reg (R.chkCfg u))
    (hk : c1.chkUnit u = c.chkUnit u) (m : List Byte) : (c1.chkRun u m).2 = (c.chkRun u m).2 := by
  have started : ∀ (x : Chip) (f : ChkUnit → ChkUnit), (((x.modChk u f).setFld (R.chkRes u) 27 27 1).unpublish (R.chkRes u)).chkUnit u =
      f (x.chkUnit u) := fun x f => mapGet_mod_same _ _ _ _
  have fed : ∀ (x : Chip), (x.chkFeed u m).chkUnit u = { x.chkUnit u with fed := (x.chkUnit u).fed ++ m } := fun x =>
    (Chip.chkUnit_modChk x u u _).trans (if_pos rfl)
  simp only [Chip.chkRun, fed, Chip.chkStart, started, hk, Chip.fld_of_reg hr, Chip.bit_of_reg hr]

theorem Chip.flitOf_of_unit {c c1 : Chip} (hr : c1.reg (R.chkCfg 2) = c.reg (R.chkCfg 2)) (hk : c1.chkUnit 2 = c.chkUnit 2) (b : List Byte) :
    c1.flitOf b = c.flitOf b := by rw [Chip.flitOf, Chip.chkRun_verdict_of_unit hr hk, Chip.flitOf]

/-! ### A counter in a field -/

theorem Chip.addFld_fld_same (c : Chip) (a hi lo n : Nat) (h : hi < 32) : (c.addFld a hi lo n).fld a hi lo =
    min (c.fld a hi lo + n) (2 ^ (hi + 1 - lo) - 1) := by
  rw [Chip.addFld, Chip.setFld_fld_same _ _ _ _ _ h, satAdd]
  exact Nat.mod_eq_of_lt (by have := Nat.two_pow_pos (hi + 1 - lo); omega)

theorem Chip.addFld_fld_ne (c : Chip) {a b hi lo n hi' lo' : Nat} (h' : hi' < 32) (hd : b ≠ a ∨ hi' < lo ∨ hi < lo') :
    (c.addFld a hi lo n).fld b hi' lo' = c.fld b hi' lo' := Chip.setFld_fld_ne c h' hd

theorem Chip.addFld_bit_ne (c : Chip) {a b hi lo n i : Nat} (h' : i < 32) (hd : b ≠ a ∨ i < lo ∨ hi < i) :
    (c.addFld a hi lo n).bit b i = c.bit b i := Chip.setFld_bit_ne c h' hd

/-! ### The link's state -/

section
variable (c : Chip)

theorem bolStat_apart : R.bolStat ∉ eventRegs ∧ R.twnStat ∉ eventRegs ∧ R.bolStat ≠ R.twnStat ∧ R.bolCtl ≠ R.bolStat ∧ R.twnCfg ≠ R.bolStat := by
  simp only [mem_eventRegs, R.bolStat, R.twnStat, R.bolCtl, R.twnCfg, R.evjStat, R.evjCnt]
  omega

/-- R339: what the loss of the link leaves. -/
theorem Chip.bolDown_says {d : Chip} (hd : d = c.bolDown) : d.bolUp = false ∧ d.fld R.bolStat 27 24 = c.fld R.bolStat 27 24 ∧
    d.bit R.twnStat 8 = false ∧ d.fld R.bolStat 15 8 = min 255 (c.fld R.bolStat 15 8 + 1) ∧ 8 ∈ (d.refIn 2).failing ∧ d.bol = c.bol ∧
    (∀ k, k ≠ 2 → d.refIn k = c.refIn k) ∧ c.writesOnly d ([R.bolStat, R.twnStat] ++ eventRegs) ∧ d.tx = c.tx ∧
    c.raises d [⟨0x1101, .room, c.clk, [.val 1 0, .val 1 (c.fld R.bolStat 27 24)]⟩] := by
  obtain ⟨stat, twn, ne, -, -⟩ := bolStat_apart
  -- the registers before the event
  generalize he : ((c.setFld R.bolStat 31 31 0).addFld R.bolStat 15 8 1).setFld R.twnStat 8 8 0 = e
  have lanes : e.fld R.bolStat 27 24 = c.fld R.bolStat 27 24 := by
    rw [← he, Chip.setFld_fld_other _ _ _ _ _ _ ne, Chip.addFld_fld_ne _ (by decide) (by decide), Chip.setFld_fld_ne _ (by decide) (by decide)]
  have eq : d = (e.event 0x1101 .room [.val 1 0, .val 1 (c.fld R.bolStat 27 24)]).failInput 2 8 := by rw [hd, Chip.bolDown, he, lanes]
  have regs : regsSame eventRegs e.regs d.regs := by rw [eq]; simp [Chip.failInput]
  have mui : e.mui = c.mui := by rw [← he]; rfl
  refine ⟨?_, ?_, ?_, ?_, ?_, ?_, fun k hk => ?_, Chip.writesOnly_of ?_ ?_ ?_, ?_, ?_⟩
  · rw [Chip.bolUp, regs.bit stat, ← he, Chip.setFld_bit_other _ _ _ _ _ ne, Chip.addFld_bit_ne _ (by decide) (by decide),
      Chip.setFld_bit_same _ _ _ _ (by decide)]
    rfl
  · rw [regs.fld stat, lanes]
  · rw [regs.bit twn, ← he, Chip.setFld_bit_same _ _ _ _ (by decide)]; rfl
  · rw [regs.fld stat, ← he, Chip.setFld_fld_other _ _ _ _ _ _ ne, Chip.addFld_fld_same _ _ _ _ _ (by decide),
      Chip.setFld_fld_ne _ (by decide) (by decide), Nat.min_comm]
    rfl
  · rw [eq, Chip.failInput, Chip.refIn_modRefIn_same]
    dsimp only
    split
    · exact List.contains_iff_mem.mp ‹_›
    · exact List.mem_append_right _ (List.mem_singleton.mpr rfl)
  · rw [eq, Chip.failInput, Chip.modRefIn_bol, Chip.event_bol, ← he]; rfl
  · rw [eq, Chip.failInput, Chip.refIn_modRefIn_other _ _ _ hk, Chip.refIn_of_mui (Chip.event_mui _ _ _ _), Chip.refIn_of_mui mui]
  · have before : regsSame ([R.bolStat, R.twnStat] ++ eventRegs) c.regs e.regs := by rw [← he]; simp
    exact before.trans (regs.mono (fun _ => List.mem_append_right _))
  · rw [eq, Chip.failInput, Chip.modRefIn_dram, Chip.event_dram, ← he]; rfl
  · rw [eq, Chip.failInput, Chip.modRefIn_tbw, Chip.event_tbw, ← he]; rfl
  · rw [eq]
    exact (Chip.event_tx _ _ _ _).trans (by rw [← he]; rfl)
  · rw [eq]
    exact Chip.raises_event_of_evq (by rw [← he]; rfl) (by rw [← he]; rfl) _ _ _

end

/-! ### Flits that arrive -/

/-- The bytes of a message that a flit completes or goes on with (R340). -/
def Chip.joined (c : Chip) (flit : List Byte) : List Byte :=
  (if leAt flit 3 1 % 2 = 1 then [] else c.bol.rxPart) ++ (flit.drop 4).take (leAt flit 3 1 / 4 + 1)

/-- R340, R343: what the delivery of a flit leaves. -/
theorem Chip.deliverFlit_says (c : Chip) (flit : List Byte) {d : Chip} (hd : d = c.deliverFlit flit) :
    d.bol.delivered = c.bol.delivered ++ (if leAt flit 2 1 ≤ 7 ∧ leAt flit 3 1 / 2 % 2 = 1 then [(leAt flit 2 1, c.joined flit)] else []) ∧
      d.bol.rxPart = (if leAt flit 2 1 = 0x7F then c.bol.rxPart else if leAt flit 3 1 / 2 % 2 = 1 then [] else c.joined flit) ∧
      d.bol.rxNext = c.bol.rxNext ∧ d.bol.nakWait = c.bol.nakWait ∧ d.tx = c.tx ∧ d.evq = c.evq ∧ d.dram = c.dram ∧ d.tbw = c.tbw ∧
      d.regs = (if 7 < leAt flit 2 1 ∧ leAt flit 2 1 ≠ 0x7F ∧ leAt flit 3 1 / 2 % 2 = 1 then c.bump (R.bolCnt 5) else c).regs := by
  have eq : d = if leAt flit 2 1 == 0x7F then c else if leAt flit 3 1 / 2 % 2 == 1 then
      (if bolTypeKnown (leAt flit 2 1) then { c with bol := { c.bol with rxPart := [], delivered := c.bol.delivered ++ [(leAt flit 2 1, c.joined flit)] } }
      else { c with bol := { c.bol with rxPart := [] } }.bump (R.bolCnt 5)) else { c with bol := { c.bol with rxPart := c.joined flit } } := by
    rw [hd, Chip.deliverFlit]
    have whole : (if (leNat ((flit.drop 3).take 1) % 2 == 1) = true then [] else c.bol.rxPart) ++
        (flit.drop 4).take (leNat ((flit.drop 3).take 1) / 4 + 1) = c.joined flit := by
      rw [Chip.joined]
      simp only [beq_iff_eq]
      rfl
    simp only [whole]
    rfl
  by_cases idle : leAt flit 2 1 = 0x7F
  · rw [if_pos (by simpa using idle)] at eq
    rw [eq, if_neg (by omega), if_pos idle, if_neg (by omega), List.append_nil]
    simp only [and_self]
  · rw [if_neg (by simpa using idle)] at eq
    rw [if_neg idle]
    by_cases last : leAt flit 3 1 / 2 % 2 = 1
    · rw [if_pos (by simpa using last)] at eq
      rw [if_pos last]
      by_cases known : leAt flit 2 1 ≤ 7
      · rw [if_pos (by simpa [bolTypeKnown] using known)] at eq
        rw [eq, if_pos ⟨known, last⟩, if_neg (by omega)]
        simp only [and_self]
      · rw [if_neg (by simpa [bolTypeKnown] using known)] at eq
        rw [eq, if_neg (by omega), if_pos ⟨by omega, idle, last⟩, List.append_nil]
        exact ⟨rfl, rfl, rfl, rfl, rfl, rfl, rfl, rfl, rfl⟩
    · rw [if_neg (by simpa using last)] at eq
      rw [eq, if_neg (by omega), if_neg (by omega), if_neg (by omega), List.append_nil]
      simp only [and_self]

/-- A flit that check unit 3 has judged (R341). -/
def Chip.judgeFlit (c : Chip) (flit : List Byte) : Chip :=
  if ((c.bump (R.bolCnt 1)).chkRun 3 flit).2.ok then ((c.bump (R.bolCnt 1)).chkRun 3 flit).1
  else ((c.bump (R.bolCnt 1)).chkRun 3 flit).1.bump (R.bolCnt 2)

/-- R341: the part that awaits the flit after the one of counter `a`. -/
def Chip.expect (c : Chip) (a : Nat) : Chip := { c with bol := { c.bol with rxNext := some ((a + 1) % 65536) } }

theorem exec_flitReceive {s : State} {flit : List Byte} (h : flit.length = 64) (hu : s.chip.bolUp = true) (t : Stamp) {v : ChkVerdict}
    (hv : v = ((s.chip.at t).chkRun 3 flit).2) : exec (.flitReceive t flit) s = .next { s with chip :=
      (match s.chip.bol.nakWait with
      | some e =>
        if v.ok && v.alive == e then
          ({ (s.chip.at t).judgeFlit flit with bol := { s.chip.bol with nakWait := none, rxNext := some ((e + 1) % 65536) } } : Chip).deliverFlit flit
        else if v.ok then (s.chip.at t).judgeFlit flit
        else ((s.chip.at t).judgeFlit flit).sendNak e
      | none =>
        if !v.ok || v.gap then
          ({ (s.chip.at t).judgeFlit flit with bol := { s.chip.bol with nakWait := some (s.chip.bol.rxNext.getD 1) } } : Chip).sendNak
            (s.chip.bol.rxNext.getD 1)
        else if v.rep then (s.chip.at t).judgeFlit flit
        else ({ (s.chip.at t).judgeFlit flit with bol := { s.chip.bol with rxNext := some ((v.alive + 1) % 65536) } } : Chip).deliverFlit flit) } := by
  have verdict : (((s.chip.at t).bump (R.bolCnt 1)).chkRun 3 flit).2 = v := by
    rw [hv]
    exact Chip.chkRun_verdict_of_unit (Chip.bump_reg_other _ (by decide)) rfl flit
  have bol : ((s.chip.at t).judgeFlit flit).bol = s.chip.bol := by
    unfold Chip.judgeFlit
    split <;> simp
  rw [show exec (.flitReceive t flit) s = execFlitReceive t flit s from rfl, execFlitReceive, runIf_of _ _ _ (decide_eq_true h)]
  have judged : (s.chip.at t).judgeFlit flit = if v.ok then (((s.chip.at t).bump (R.bolCnt 1)).chkRun 3 flit).1 else
      (((s.chip.at t).bump (R.bolCnt 1)).chkRun 3 flit).1.bump (R.bolCnt 2) := by rw [Chip.judgeFlit, verdict]
  dsimp only
  rw [if_neg (by rw [show (s.chip.at t).bolUp = s.chip.bolUp from rfl, hu]; decide)]
  rw [judged] at bol ⊢
  generalize ((s.chip.at t).bump (R.bolCnt 1)).chkRun 3 flit = x at verdict bol
  obtain ⟨d, w⟩ := x
  dsimp only at verdict bol ⊢
  subst verdict
  rw [bol] <;> rfl

end Sys2Proof.Machine

namespace Sys2Proof.Machine

/-- What judging a flit leaves. -/
theorem Chip.judgeFlit_says (c : Chip) (flit : List Byte) {v : ChkVerdict} (hv : v = (c.chkRun 3 flit).2) {d : Chip} (hd : d = c.judgeFlit flit) :
    d.bol = c.bol ∧ d.tx = c.tx ∧ d.evq = c.evq ∧ d.dram = c.dram ∧ d.tbw = c.tbw ∧ d.mui = c.mui ∧ d.chkUnit 2 = c.chkUnit 2 ∧
      d.reg (R.bolCnt 1) = (c.bump (R.bolCnt 1)).reg (R.bolCnt 1) ∧
      d.reg (R.bolCnt 2) = (if v.ok = true then c else c.bump (R.bolCnt 2)).reg (R.bolCnt 2) ∧
      regsSame ((if v.ok = true then [] else [R.bolCnt 2]) ++ R.bolCnt 1 :: checkRegs 3) c.regs d.regs := by
  have verdict : ((c.bump (R.bolCnt 1)).chkRun 3 flit).2 = v := by
    rw [hv]
    exact Chip.chkRun_verdict_of_unit (Chip.bump_reg_other _ (by decide)) rfl flit
  have ran := regsSame_chkRun (c.bump (R.bolCnt 1)) 3 flit
  have unit : (((c.bump (R.bolCnt 1)).chkRun 3 flit).1).chkUnit 2 = c.chkUnit 2 := Chip.chkRun_chkUnit_other _ (by decide) flit
  have apart : R.bolCnt 1 ∉ checkRegs 3 ∧ R.bolCnt 2 ∉ checkRegs 3 ∧ R.bolCnt 1 ≠ R.bolCnt 2 := by decide
  obtain ⟨n1, n2, n12⟩ := apart
  have c2 : (((c.bump (R.bolCnt 1)).chkRun 3 flit).1).reg (R.bolCnt 2) = c.reg (R.bolCnt 2) := by
    rw [ran.reg n2, Chip.bump_reg_other _ n12.symm]
  rw [Chip.judgeFlit, verdict] at hd
  have before : regsSame (R.bolCnt 1 :: checkRegs 3) c.regs (((c.bump (R.bolCnt 1)).chkRun 3 flit).1).regs := by
    rw [regsSame_chkRun_iff (by simp +contextual)]
    simp
  by_cases ok : v.ok = true
  · rw [if_pos ok] at hd
    rw [hd, if_pos ok, if_pos ok]
    exact ⟨by simp, by simp, by simp, by simp, by simp, by simp, unit, ran.reg n1, c2, before⟩
  · rw [if_neg ok] at hd
    rw [hd, if_neg ok, if_neg ok]
    refine ⟨by simp, by simp, by simp, by simp, by simp, by simp, unit, ?_, ?_, ?_⟩
    · rw [Chip.bump_reg_other _ n12, ran.reg n1]
    · rw [Chip.bump_reg, if_pos rfl, c2, Chip.bump_reg, if_pos rfl]
    · rw [regsSame_bump_iff (by simp)]
      exact before.mono (fun _ => List.mem_append_right _)

/-- R341: a NAK. -/
theorem Chip.sendNak_says {c : Chip} (hu : c.bolUp = true) (e : Nat) {d : Chip} (hd : d = c.sendNak e) :
    d.bol.sent = c.bol.sent ∧ d.tx = c.tx ++ (flitBodies 0 (leBytes 2 e ++ [0, 0])).map (fun b => .flit (c.flitOf b)) ∧ d.evq = c.evq ∧
      d.dram = c.dram ∧ d.tbw = c.tbw ∧ d.reg (R.bolCnt 4) = (c.bump (R.bolCnt 4)).reg (R.bolCnt 4) ∧
      regsSame (R.bolCnt 4 :: bolRegs) c.regs d.regs := by
  have up : (c.bump (R.bolCnt 4)).bolUp = true := (Chip.bump_bit_other c (by decide) 31).trans hu
  have flit : ∀ b, (c.bump (R.bolCnt 4)).flitOf b = c.flitOf b := Chip.flitOf_of_unit (Chip.bump_reg_other c (by decide)) rfl
  have sent := regsSame_bolSend (c.bump (R.bolCnt 4)) 0 (leBytes 2 e ++ [0, 0])
  rw [Chip.sendNak] at hd
  refine ⟨?_, ?_, ?_, ?_, ?_, ?_, ?_⟩
  · rw [hd, Chip.bolSend_bol]; rfl
  · rw [hd, Chip.bolSend_of_up up, Chip.sendMessage_tx _ (by simp [leBytes_length])]
    simp only [flit]
    rfl
  · rw [hd, Chip.bolSend_evq]; rfl
  · rw [hd, Chip.bolSend_dram]; rfl
  · rw [hd, Chip.bolSend_tbw]; rfl
  · rw [hd, sent.reg (by decide)]
  · have counted : regsSame (R.bolCnt 4 :: bolRegs) c.regs (c.bump (R.bolCnt 4)).regs := by simp
    rw [hd]
    exact counted.trans (sent.mono (fun _ => List.mem_cons_of_mem _))

/-- The part with the lock of its four lanes noted (R338). -/
def Chip.noteLock (c : Chip) (lock : Nat) : Chip := c.setFld R.bolStat 27 24 lock

/-- R339: a link that has trained. -/
def Chip.linkUp (c : Chip) (lock : Nat) : Chip :=
  ((c.setFld R.bolStat 31 31 1).setFld R.twnStat 8 8 1).event 0x1101 .room [.val 1 1, .val 1 lock]

theorem exec_bolLinkChange {s : State} {lock : Nat} (h : lock < 16) (t : Stamp) : exec (.bolLinkChange t lock) s = .next { s with chip :=
    (if lock == 15 && s.chip.bit R.bolCtl 31 && s.chip.twinOn then
      (if s.chip.bolUp then (s.chip.at t).noteLock lock else ((s.chip.at t).noteLock lock).linkUp lock)
    else if s.chip.bolUp then ((s.chip.at t).noteLock lock).bolDown else (s.chip.at t).noteLock lock) } := by
  obtain ⟨-, -, -, ctl, cfg⟩ := bolStat_apart
  have on : ((s.chip.at t).noteLock lock).bit R.bolCtl 31 = s.chip.bit R.bolCtl 31 := Chip.setFld_bit_other (s.chip.at t) _ _ _ _ ctl
  have twin : ((s.chip.at t).noteLock lock).twinOn = s.chip.twinOn := Chip.setFld_bit_other (s.chip.at t) _ _ _ _ cfg
  have up : ((s.chip.at t).noteLock lock).bolUp = s.chip.bolUp := Chip.setFld_bit_ne (s.chip.at t) (by decide) (by decide)
  rw [show exec (.bolLinkChange t lock) s = execBolLinkChange t lock s from rfl, execBolLinkChange, runIf_of _ _ _ (decide_eq_true h),
    ← on, ← twin, ← up]
  rfl

theorem exec_nakReceive {s : State} {k : Nat} (h : k < 65536) (hu : s.chip.bolUp = true) (t : Stamp) : exec (.nakReceive t k) s =
    .next { s with chip := (
      if (s.chip.bol.held.dropWhile (fun e => e.1 != k)).isEmpty then ((s.chip.at t).event 0x1102 .room [.val 2 k]).bolDown
      else (((s.chip.at t).bump (R.bolCnt 3)).bumpBy (R.bolCnt 0) (s.chip.bol.held.dropWhile (fun e => e.1 != k)).length).sendAll
        ((s.chip.bol.held.dropWhile (fun e => e.1 != k)).map (fun e => .flit e.2))) } := by
  rw [show exec (.nakReceive t k) s = execNakReceive t k s from rfl, execNakReceive, runIf_of _ _ _ (decide_eq_true h)]
  dsimp only
  rw [if_neg (by rw [show (s.chip.at t).bolUp = s.chip.bolUp from rfl, hu]; decide)]
  rfl

theorem Chip.raises.trans {c c1 c2 : Chip} {l1 l2 : List Ev} (h1 : c.raises c1 l1) (h2 : c1.raises c2 l2) : c.raises c2 (l1 ++ l2) := by
  unfold Chip.raises at *
  have room : evqCap - c1.evq.length = evqCap - c.evq.length - l1.length := by
    rw [h1, List.length_append, List.length_take]
    omega
  rw [h2, room, h1, List.take_append, List.append_assoc]

/-- The held flits from the one that a NAK names. -/
theorem dropWhile_named {pre post : List (Nat × List Byte)} {k : Nat} {f : List Byte} (h : pre.any (fun e => e.1 == k) = false) :
    (pre ++ (k, f) :: post).dropWhile (fun e => e.1 != k) = (k, f) :: post := by
  have skip : ∀ e ∈ pre, (e.1 != k) = true := fun e he => by
    have := List.any_eq_false.mp h e he
    simpa using this
  rw [List.dropWhile_append_of_pos skip]
  simp

theorem dropWhile_none {l : List (Nat × List Byte)} {k : Nat} (h : l.any (fun e => e.1 == k) = false) :
    l.dropWhile (fun e => e.1 != k) = [] := by
  refine List.dropWhile_eq_nil_iff.mpr (fun e he => ?_)
  have := List.any_eq_false.mp h e he
  simpa using this

/-- Settles O49: each branch of the receiver is a judged flit, delivered, answered with a NAK or left. -/
theorem bolralLinkCarriesFlits : Obligations.BolralLinkCarriesFlits := by
  unfold Obligations.BolralLinkCarriesFlits
  obtain ⟨stat, twn, ne, ctl, cfg⟩ := bolStat_apart
  refine ⟨?_, ?_, ?_, ?_, ?_, ?_, ?_, ?_, ?_, ?_⟩
  · intro s t on twin down
    refine answers_exec (exec_bolLinkChange (by decide) t) ?_
    rw [if_pos (by rw [on, twin]; rfl), if_neg (by simp [down])]
    -- the registers before the event
    generalize hd : (((s.chip.at t).noteLock 15).setFld R.bolStat 31 31 1).setFld R.twnStat 8 8 1 = d
    have eq : ((s.chip.at t).noteLock 15).linkUp 15 = d.event 0x1101 .room [.val 1 1, .val 1 15] := by rw [Chip.linkUp, hd]
    have regs : regsSame eventRegs d.regs (d.event 0x1101 .room [.val 1 1, .val 1 15]).regs := by simp
    have before : regsSame ([R.bolStat, R.twnStat] ++ eventRegs) s.chip.regs d.regs := by rw [← hd]; simp [Chip.noteLock]
    rw [eq]
    refine ⟨?_, ?_, ?_, ?_, Chip.writesOnly_of (before.trans (regs.mono (fun _ => List.mem_append_right _))) ?_ ?_, ?_⟩
    · rw [Chip.bolUp, regs.bit stat, ← hd, Chip.setFld_bit_other _ _ _ _ _ ne, Chip.setFld_bit_same _ _ _ _ (by decide)]; rfl
    · rw [regs.fld stat, ← hd, Chip.setFld_fld_other _ _ _ _ _ _ ne, Chip.setFld_fld_ne _ (by decide) (by decide), Chip.noteLock,
        Chip.setFld_fld_same _ _ _ _ _ (by decide)]
      rfl
    · rw [regs.bit twn, ← hd, Chip.setFld_bit_same _ _ _ _ (by decide)]; rfl
    · rw [regs.fld twn, ← hd, Chip.setFld_fld_ne _ (by decide) (by decide), Chip.setFld_fld_other _ _ _ _ _ _ ne.symm, Chip.noteLock,
        Chip.setFld_fld_other _ _ _ _ _ _ ne.symm]
      rfl
    · rw [Chip.event_dram, ← hd]; rfl
    · rw [Chip.event_tbw, ← hd]; rfl
    · exact Chip.raises_event_of_evq (by rw [← hd]; rfl) (by rw [← hd]; rfl) _ _ _
  · intro s t lock hl up h
    refine answers_exec (exec_bolLinkChange hl t) ?_
    have off : (lock == 15 && s.chip.bit R.bolCtl 31 && s.chip.twinOn) = false := by
      rcases h with h | h | h
      · rw [show (lock == 15) = false by rw [beq_eq_false_iff_ne]; omega]; rfl
      · rw [h, Bool.and_false]; rfl
      · rw [h, Bool.and_false]
    rw [if_neg (by rw [off]; decide), if_pos up]
    obtain ⟨dn, lanes, link, downs, fails, bol, others, wrote, -, told⟩ := Chip.bolDown_says ((s.chip.at t).noteLock lock) rfl
    have lock' : ((s.chip.at t).noteLock lock).fld R.bolStat 27 24 = lock := by
      rw [Chip.noteLock, Chip.setFld_fld_same _ _ _ _ _ (by decide)]
      exact Nat.mod_eq_of_lt hl
    have count : ((s.chip.at t).noteLock lock).fld R.bolStat 15 8 = s.chip.fld R.bolStat 15 8 :=
      Chip.setFld_fld_ne (s.chip.at t) (by decide) (by decide)
    rw [lock'] at lanes told
    rw [count] at downs
    have noted : regsSame ([R.bolStat, R.twnStat] ++ eventRegs) s.chip.regs ((s.chip.at t).noteLock lock).regs := by simp [Chip.noteLock]
    rw [Chip.writesOnly_iff] at wrote
    obtain ⟨wr, wd, wt⟩ := wrote
    exact ⟨dn, lanes, link, downs, fails, bol, fun k _ hk => others k hk, Chip.writesOnly_iff.mpr ⟨noted.trans wr, wd, wt⟩, told⟩
  · intro s t lock hl h
    refine answers_exec (exec_bolLinkChange hl t) ?_
    have eq : (if (lock == 15 && s.chip.bit R.bolCtl 31 && s.chip.twinOn) = true then
        (if s.chip.bolUp = true then (s.chip.at t).noteLock lock else ((s.chip.at t).noteLock lock).linkUp lock)
        else if s.chip.bolUp = true then ((s.chip.at t).noteLock lock).bolDown else (s.chip.at t).noteLock lock) = (s.chip.at t).noteLock lock := by
      by_cases wanted : (lock == 15 && s.chip.bit R.bolCtl 31 && s.chip.twinOn) = true
      · rw [if_pos wanted, if_pos (by rw [h]; simpa using wanted)]
      · rw [if_neg wanted, if_neg (by rw [h]; simpa using wanted)]
    rw [eq]
    refine ⟨Chip.setFld_bit_ne (s.chip.at t) (by decide) (by decide), ?_, rfl, rfl, Chip.writesOnly_of (by simp [Chip.noteLock]) rfl rfl,
      Chip.raises_of_evq rfl⟩
    rw [Chip.noteLock, Chip.setFld_fld_same _ _ _ _ _ (by decide)]
    exact Nat.mod_eq_of_lt hl
  · intro s t flit whole v type hf up hv ok h htype hwhole
    refine answers_exec (exec_flitReceive hf up t hv) ?_
    obtain ⟨bol, tx, evq, dram, tbw, -, -, c1, -, wrote⟩ := Chip.judgeFlit_says (s.chip.at t) flit hv rfl
    rw [if_pos ok, List.nil_append] at wrote
    -- what is delivered, whichever flit was awaited
    have taken : ∀ b : Bolral, b.rxPart = s.chip.bol.rxPart → b.delivered = s.chip.bol.delivered → b.rxNext = some ((v.alive + 1) % 65536) →
        b.nakWait = none → ∀ d : Chip, d = ({ (s.chip.at t).judgeFlit flit with bol := b } : Chip).deliverFlit flit →
        d.bol.delivered = s.chip.bol.delivered ++ (if type ≤ 7 ∧ leAt flit 3 1 / 2 % 2 = 1 then [(type, whole)] else []) ∧
        d.bol.rxPart = (if type = 0x7F then s.chip.bol.rxPart else if leAt flit 3 1 / 2 % 2 = 1 then [] else whole) ∧
        d.bol.rxNext = some ((v.alive + 1) % 65536) ∧ d.bol.nakWait = none ∧ d.tx = s.chip.tx ∧
        d.reg (R.bolCnt 1) = (s.chip.bump (R.bolCnt 1)).reg (R.bolCnt 1) ∧
        d.reg (R.bolCnt 5) = (if 7 < type ∧ type ≠ 0x7F ∧ leAt flit 3 1 / 2 % 2 = 1 then s.chip.bump (R.bolCnt 5)
          else s.chip).reg (R.bolCnt 5) ∧
        s.chip.writesOnly d ([R.bolCnt 1, R.bolCnt 5] ++ checkRegs 3) ∧ s.chip.raises d [] := by
      intro b hpart hdel hnext hwait d hd
      obtain ⟨del, part, next, nak, dtx, devq, ddram, dtbw, dregs⟩ := Chip.deliverFlit_says _ flit hd
      have joined : Chip.joined ({ (s.chip.at t).judgeFlit flit with bol := b } : Chip) flit = whole := by rw [hwhole, Chip.joined, hpart]
      rw [joined, ← htype] at del part
      rw [← htype] at dregs
      have reg : ∀ a, a ≠ R.bolCnt 5 → d.reg a = ((s.chip.at t).judgeFlit flit).reg a := fun a ha => by
        rw [Chip.reg, dregs]
        split
        · exact Chip.bump_reg_other ({ (s.chip.at t).judgeFlit flit with bol := b } : Chip) ha
        · rfl
      have five : ((s.chip.at t).judgeFlit flit).reg (R.bolCnt 5) = s.chip.reg (R.bolCnt 5) := wrote.reg (by decide)
      have regs : regsSame ([R.bolCnt 1, R.bolCnt 5] ++ checkRegs 3) s.chip.regs d.regs := by
        refine (wrote.mono ?_).trans (fun a ha => reg a (fun e => ha (by simp [e])))
        simp +contextual
      refine ⟨by rw [del, hdel], by rw [part, hpart], next.trans hnext, nak.trans hwait, dtx.trans tx, (reg _ (by decide)).trans c1, ?_,
        Chip.writesOnly_of regs (ddram.trans dram) (dtbw.trans tbw), Chip.raises_of_evq (devq.trans evq)⟩
      rw [Chip.reg, dregs]
      split
      · change (Chip.bump ({ (s.chip.at t).judgeFlit flit with bol := b } : Chip) (R.bolCnt 5)).reg (R.bolCnt 5) = (s.chip.bump (R.bolCnt 5)).reg (R.bolCnt 5)
        rw [Chip.bump_reg, if_pos rfl, Chip.bump_reg, if_pos rfl, ← five]
        rfl
      · exact five
    rcases h with ⟨wait, gap, rep⟩ | wait
    · rw [wait]
      simp only [ok, gap, rep, Bool.not_true, Bool.or_false, Bool.false_eq_true, if_false]
      exact taken { s.chip.bol with rxNext := some ((v.alive + 1) % 65536) } rfl rfl rfl wait _ rfl
    · rw [wait]
      simp only [ok, beq_self_eq_true, Bool.and_self, if_true]
      exact taken { s.chip.bol with nakWait := none, rxNext := some ((v.alive + 1) % 65536) } rfl rfl rfl rfl _ rfl
  · intro s t flit v e hf up hv h
    refine answers_exec (exec_flitReceive hf up t hv) ?_
    obtain ⟨bol, tx, evq, dram, tbw, -, unit, c1, c2, wrote⟩ := Chip.judgeFlit_says (s.chip.at t) flit hv rfl
    -- a discarded flit is answered with a NAK for the counter awaited
    have nak : ∀ b : Bolral, b.delivered = s.chip.bol.delivered → b.rxPart = s.chip.bol.rxPart → b.nakWait = some e → b.rxNext = s.chip.bol.rxNext →
        ∀ d : Chip, d = ({ (s.chip.at t).judgeFlit flit with bol := b } : Chip).sendNak e →
        d.bol.delivered = s.chip.bol.delivered ∧ d.bol.rxPart = s.chip.bol.rxPart ∧
        d.bol.nakWait = some e ∧ d.bol.rxNext = s.chip.bol.rxNext ∧
        d.tx = s.chip.tx ++ (flitBodies 0 (leBytes 2 e ++ [0, 0])).map (fun b => .flit (s.chip.flitOf b)) ∧
        d.reg (R.bolCnt 1) = (s.chip.bump (R.bolCnt 1)).reg (R.bolCnt 1) ∧
        d.reg (R.bolCnt 2) = (if v.ok = true then s.chip else s.chip.bump (R.bolCnt 2)).reg (R.bolCnt 2) ∧
        d.reg (R.bolCnt 4) = (s.chip.bump (R.bolCnt 4)).reg (R.bolCnt 4) ∧
        s.chip.writesOnly d ([R.bolCnt 0, R.bolCnt 1, R.bolCnt 2, R.bolCnt 4] ++ checkRegs 2 ++ checkRegs 3) ∧ s.chip.raises d [] := by
      intro b hdel hpart hwait hnext d hd
      have link : ({ (s.chip.at t).judgeFlit flit with bol := b } : Chip).bolUp = true := by
        rw [← up]
        refine wrote.bit ?_ 31
        split <;> decide
      obtain ⟨sent, stx, sevq, sdram, stbw, s4, swrote⟩ := Chip.sendNak_says link e hd
      have flits : ∀ x, ({ (s.chip.at t).judgeFlit flit with bol := b } : Chip).flitOf x = s.chip.flitOf x :=
        Chip.flitOf_of_unit (wrote.reg (by split <;> decide)) unit
      have two : ((s.chip.at t).judgeFlit flit).reg (R.bolCnt 2) =
          (if v.ok = true then s.chip else s.chip.bump (R.bolCnt 2)).reg (R.bolCnt 2) := by
        rw [c2]
        split <;> rfl
      have four : ((s.chip.at t).judgeFlit flit).reg (R.bolCnt 4) = s.chip.reg (R.bolCnt 4) := wrote.reg (by split <;> decide)
      refine ⟨(congrArg Bolral.delivered sent : _).trans hdel, (congrArg Bolral.rxPart sent : _).trans hpart,
        (congrArg Bolral.nakWait sent : _).trans hwait, (congrArg Bolral.rxNext sent : _).trans hnext, ?_, (swrote.reg (by decide)).trans c1,
        (swrote.reg (by decide)).trans two, s4.trans ?_, Chip.writesOnly_of ?_ (sdram.trans dram) (stbw.trans tbw),
        Chip.raises_of_evq (sevq.trans evq)⟩
      · rw [stx]
        simp only [flits]
        rw [show ({ (s.chip.at t).judgeFlit flit with bol := b } : Chip).tx = s.chip.tx from tx]
      · rw [Chip.bump_reg, if_pos rfl, Chip.bump_reg, if_pos rfl, ← four]
        rfl
      · refine (wrote.mono ?_).trans (swrote.mono ?_)
        · intro a ha
          rcases List.mem_append.mp ha with ha | ha
          · split at ha
            · exact absurd ha List.not_mem_nil
            · simp_all
          · rcases List.mem_cons.mp ha with ha | ha <;> simp [ha]
        · intro a ha
          simp only [bolRegs, List.mem_cons] at ha
          rcases ha with ha | ha | ha <;> simp [ha]
    rcases h with ⟨wait, bad, he⟩ | ⟨wait, bad⟩
    · rw [wait, ← he]
      simp only []
      rw [if_pos (by rcases bad with bad | bad <;> simp [bad])]
      exact nak { s.chip.bol with nakWait := some e } rfl rfl rfl rfl _ rfl
    · rw [wait]
      dsimp only
      have notOk : ¬ v.ok = true := by rw [bad]; decide
      rw [if_neg (by rw [bad, Bool.false_and]; decide), (if_neg notOk : (if v.ok = true then (s.chip.at t).judgeFlit flit else _) = _)]
      refine nak s.chip.bol rfl rfl wait rfl (((s.chip.at t).judgeFlit flit).sendNak e) ?_
      have same : ((s.chip.at t).judgeFlit flit).bol = s.chip.bol := bol
      rw [← same]
  · intro s t flit v hf up hv ok h
    refine answers_exec (exec_flitReceive hf up t hv) ?_
    obtain ⟨bol, tx, evq, dram, tbw, -, -, c1, -, wrote⟩ := Chip.judgeFlit_says (s.chip.at t) flit hv rfl
    rw [if_pos ok, List.nil_append] at wrote
    have left : s.chip.writesOnly ((s.chip.at t).judgeFlit flit) (R.bolCnt 1 :: checkRegs 3) := Chip.writesOnly_of wrote dram tbw
    rcases h with ⟨wait, gap, rep⟩ | wait
    · rw [wait]
      simp only [ok, gap, rep, Bool.not_true, Bool.or_false, Bool.false_eq_true, if_false, if_true]
      exact ⟨bol, tx, c1, left, Chip.raises_of_evq evq⟩
    · cases hw : s.chip.bol.nakWait with
      | none => rw [hw] at wait; exact absurd wait (by simp)
      | some e =>
        rw [hw] at wait
        have other : (v.alive == e) = false := by
          have : e ≠ v.alive := by simpa using wait
          simpa using this.symm
        simp only [ok, other, Bool.and_false, Bool.false_eq_true, if_false, if_true]
        exact ⟨bol, tx, c1, left, Chip.raises_of_evq evq⟩
  · intro s t flit hf down
    refine gives_of (show exec _ s = execFlitReceive t flit s from rfl) (decide_eq_true hf) (if_pos ?_)
    rw [show (s.chip.at t).bolUp = s.chip.bolUp from rfl, down]
    rfl
  · intro s t k pre post f hk up held free
    refine answers_exec (exec_nakReceive hk up t) ?_
    rw [held, dropWhile_named free, if_neg (by simp)]
    have apart : R.bolCnt 0 ≠ R.bolCnt 3 := by decide
    refine ⟨rfl, rfl, ?_, ?_, Chip.writesOnly_of (by simp) rfl rfl, Chip.raises_of_evq rfl⟩
    · rw [Chip.sendAll_reg, Chip.bumpBy_reg, if_neg apart.symm]; rfl
    · rw [Chip.sendAll_reg, Chip.bumpBy_reg, if_pos rfl, Chip.bump_reg_other _ apart, Chip.bumpBy_reg, if_pos rfl]; rfl
  · intro s t k hk up none
    refine answers_exec (exec_nakReceive hk up t) ?_
    rw [dropWhile_none none, if_pos (by rfl)]
    obtain ⟨dn, -, -, -, fails, -, -, wrote, tx, told⟩ := Chip.bolDown_says ((s.chip.at t).event 0x1102 .room [.val 2 k]) rfl
    have lanes : ((s.chip.at t).event 0x1102 .room [.val 2 k]).fld R.bolStat 27 24 = s.chip.fld R.bolStat 27 24 :=
      Chip.event_fld_other (s.chip.at t) (by decide) (by decide) _ _ _ _ _
    have noted : regsSame ([R.bolStat, R.twnStat] ++ eventRegs) s.chip.regs ((s.chip.at t).event 0x1102 .room [.val 2 k]).regs := by simp
    rw [Chip.writesOnly_iff] at wrote
    obtain ⟨wr, wd, wt⟩ := wrote
    refine ⟨dn, tx.trans (Chip.event_tx _ _ _ _), fails, Chip.writesOnly_iff.mpr ⟨noted.trans wr, ?_, ?_⟩, ?_⟩
    · intro o; rw [wd, Chip.event_dram]; rfl
    · intro o; rw [wt, Chip.event_tbw]; rfl
    · have first : s.chip.raises ((s.chip.at t).event 0x1102 .room [.val 2 k]) [⟨0x1102, .room, t, [.val 2 k]⟩] :=
        Chip.raises_event_of_evq rfl rfl _ _ _
      rw [lanes, Chip.event_clk] at told
      exact first.trans told
  · intro s t k hk down
    refine gives_of (show exec _ s = execNakReceive t k s from rfl) (decide_eq_true hk) (if_pos ?_)
    rw [show (s.chip.at t).bolUp = s.chip.bolUp from rfl, down]
    rfl

end Sys2Proof.Machine

/-! ## The pair: ticks, heartbeats, claims and resync records (R338, R342 to R350, R356) -/

namespace Sys2Proof.Machine

/-! ### What a part of a tick leaves -/

/-- What the tests of a tick note beside the pair's state. -/
def Twin.core (x : Twin) : Twin := { x with highTold := false, yieldTold := false, lostTold := false, lastSight := 0, seenSince := none }

/-- The registers that a tick's tests write. -/
def quietRegs : List Nat := [R.twnStat, R.twnClaimHigh] ++ eventRegs

/-- What a test of a tick leaves as it is: the pair state, the role, the claims, the clock, the link, and the events raised before. -/
structure Chip.Quiet (c c1 : Chip) : Prop where
  regs : regsSame quietRegs c.regs c1.regs
  pair : c1.pairState = c.pairState
  lead : c1.leader = c.leader
  core : c1.twn.core = c.twn.core
  evq : c.evq <+: c1.evq
  clk : c1.clk = c.clk
  bol : c1.bol = c.bol
  chk : c1.chk = c.chk
  tx : c1.tx = c.tx
  mui : c1.mui = c.mui
  dram : c1.dram = c.dram
  tbw : c1.tbw = c.tbw

section
variable {c c1 c2 : Chip}

theorem Chip.Quiet.refl : Chip.Quiet c c := ⟨regsSame.refl, rfl, rfl, rfl, List.prefix_refl _, rfl, rfl, rfl, rfl, rfl, rfl, rfl⟩

theorem Chip.Quiet.trans (h1 : Chip.Quiet c c1) (h2 : Chip.Quiet c1 c2) : Chip.Quiet c c2 :=
  ⟨h1.regs.trans h2.regs, h2.pair.trans h1.pair, h2.lead.trans h1.lead, h2.core.trans h1.core, h1.evq.trans h2.evq, h2.clk.trans h1.clk,
    h2.bol.trans h1.bol, h2.chk.trans h1.chk, h2.tx.trans h1.tx, h2.mui.trans h1.mui, h2.dram.trans h1.dram, h2.tbw.trans h1.tbw⟩

theorem Chip.Quiet.event (c : Chip) (code : Nat) (p : FaultAddr) (l : List CField) : Chip.Quiet c (c.event code p l) := by
  have stat : R.twnStat ≠ R.evjStat ∧ R.twnStat ≠ R.evjCnt 1 := by decide
  obtain ⟨n1, n2⟩ := stat
  exact ⟨by simp [quietRegs], Chip.event_fld_other c n1 n2 _ _ _ _ _, Chip.event_bit_other c n1 n2 _ _ _ _, by simp, Chip.raise_evq_prefix c _,
    by simp, by simp, by simp, by simp, by simp, by simp, by simp⟩

theorem Chip.Quiet.twn (c : Chip) {x : Twin} (h : x.core = c.twn.core) : Chip.Quiet c { c with twn := x } :=
  ⟨regsSame.refl, rfl, rfl, h, List.prefix_refl _, rfl, rfl, rfl, rfl, rfl, rfl, rfl⟩

/-- A bit of `TWN_STAT` beside the pair state and the role. -/
theorem Chip.Quiet.stat (c : Chip) {i : Nat} (v : Nat) (hi : 4 < i) (hi' : i < 32) : Chip.Quiet c (c.setFld R.twnStat i i v) :=
  ⟨by simp [quietRegs], Chip.setFld_fld_ne c (by decide) (by omega), Chip.setFld_bit_ne c (by decide) (by omega), rfl, List.prefix_refl _, rfl,
    rfl, rfl, rfl, rfl, rfl, rfl⟩

theorem Chip.Quiet.setSplit (c : Chip) (on : Bool) : Chip.Quiet c (c.setSplit on) := by
  unfold Chip.setSplit
  split
  · exact .refl
  · exact (Chip.Quiet.stat c _ (by decide) (by decide)).trans (.event _ _ _ _)

/-- R345: the twin's last sighting is noted. -/
def Chip.noteSeen (c : Chip) (sight : Stamp) (since : Option Stamp) (now : Bool) : Chip :=
  ({ c with twn := { c.twn with lastSight := sight, seenSince := since } } : Chip).setFld R.twnStat 5 5 (if now then 1 else 0)

theorem Chip.syncNetSeen_eq (c : Chip) : ∃ sight since, ∃ now : Bool, c.syncNetSeen =
    if now then c.noteSeen sight since now else (c.noteSeen sight since now).setSplit false := ⟨_, _, _, rfl⟩

theorem Chip.Quiet.syncNetSeen (c : Chip) : Chip.Quiet c c.syncNetSeen := by
  obtain ⟨sight, since, now, eq⟩ := c.syncNetSeen_eq
  have noted : Chip.Quiet c (c.noteSeen sight since now) :=
    (Chip.Quiet.twn c (x := { c.twn with lastSight := sight, seenSince := since }) rfl).trans (.stat _ (i := 5) _ (by decide) (by decide))
  rw [eq]
  split
  · exact noted
  · exact noted.trans (.setSplit _ _)

theorem Chip.Quiet.checkHigher (c : Chip) : Chip.Quiet c c.checkHigher := by
  unfold Chip.checkHigher
  extract_lets own high d
  have ended : Chip.Quiet c d := .stat c _ (by decide) (by decide)
  split
  · split
    · exact (ended.trans (.twn d (x := { d.twn with highTold := true }) rfl)).trans (.event _ _ _ _)
    · exact ended
  · exact .twn c rfl

theorem Chip.Quiet.checkYield (c : Chip) : Chip.Quiet c c.checkYield := by
  unfold Chip.checkYield
  split
  · split
    · exact .refl
    · exact (Chip.Quiet.twn c (x := { c.twn with yieldTold := true }) rfl).trans (.event _ _ _ _)
  · exact .twn c rfl

theorem Chip.Quiet.noteClaim (c : Chip) (claim : Nat) : Chip.Quiet c (c.noteClaim claim) := by
  have noted : Chip.Quiet c (c.setNat R.twnClaimHigh (max claim (c.reg R.twnClaimHigh).toNat)) :=
    ⟨by simp [quietRegs], Chip.setNat_fld_other c _ (by decide) _ _, Chip.setNat_bit_other c _ (by decide) _, rfl, List.prefix_refl _, rfl,
      rfl, rfl, rfl, rfl, rfl, rfl⟩
  exact noted.trans (.checkHigher _)

/-- A register that no test of a tick writes. -/
theorem notMem_quietRegs {a : Nat} (h : a ≠ R.twnStat ∧ a ≠ R.twnClaimHigh ∧ a ≠ R.evjStat ∧ a ≠ R.evjCnt 1) : a ∉ quietRegs := by
  simp [quietRegs, h]

theorem tickRegs_notMem_quietRegs : ∀ a ∈ [R.twnClaimOwn, R.twnClaimTwin, R.twnRes, R.twnResSoloLo, R.twnResSoloHi, R.twnResClaimLo, R.twnResClaimHi,
    R.pitStat, R.bolStat, R.chkCfg 2], a ∉ quietRegs := by decide +kernel

theorem Chip.Quiet.claim (h : Chip.Quiet c c1) : c1.ownClaim = c.ownClaim :=
  congrArg BitVec.toNat (h.regs.reg (tickRegs_notMem_quietRegs _ (by simp)))

theorem Chip.Quiet.sealed (h : Chip.Quiet c c1) : c1.isSealed = c.isSealed := h.regs.bit (tickRegs_notMem_quietRegs _ (by simp)) 31

theorem Chip.Quiet.link (h : Chip.Quiet c c1) : c1.bolUp = c.bolUp := h.regs.bit (tickRegs_notMem_quietRegs _ (by simp)) 31

theorem Chip.Quiet.flit (h : Chip.Quiet c c1) (b : List Byte) : c1.flitOf b = c.flitOf b :=
  Chip.flitOf_of_unit (h.regs.reg (tickRegs_notMem_quietRegs _ (by simp))) (by rw [Chip.chkUnit, h.chk, Chip.chkUnit]) b

end

/-! ### The resync set and the frames released -/

/-- Queued messages change the queue alone. -/
def Chip.sameButQueue (c c1 : Chip) : Prop := ∃ q, c1 = { c with bol := { c.bol with waiting := q } }

theorem Chip.sameButQueue.refl (c : Chip) : Chip.sameButQueue c c := ⟨c.bol.waiting, rfl⟩

theorem Chip.sameButQueue.trans {c c1 c2 : Chip} (h1 : Chip.sameButQueue c c1) (h2 : Chip.sameButQueue c1 c2) : Chip.sameButQueue c c2 := by
  obtain ⟨q1, rfl⟩ := h1
  obtain ⟨q2, rfl⟩ := h2
  exact ⟨q2, rfl⟩

theorem Chip.sameButQueue.bolQueue (c : Chip) (type : Nat) (payload : List Byte) : Chip.sameButQueue c (c.bolQueue type payload) := by
  unfold Chip.bolQueue
  split
  · exact ⟨_, rfl⟩
  · exact .refl c

theorem Chip.sameButQueue.foldl {β : Type} {f : Chip → β → Chip} (hf : ∀ c x, Chip.sameButQueue c (f c x)) (l : List β) (c : Chip) :
    Chip.sameButQueue c (l.foldl f c) := by
  induction l generalizing c with
  | nil => exact .refl c
  | cons x l ih => exact (hf c x).trans (ih _)

/-- R356: the last record of the set has been queued. -/
def Chip.doneSent (c : Chip) : Chip := { c with twn := { c.twn with doneTx := true } }

/-- R356: what sending the resync set leaves. -/
theorem Chip.sendResync_says (c : Chip) (since : Option Stamp) : ∃ d, Chip.sameButQueue c d ∧ c.sendResync since = d.doneSent :=
  ⟨_, .foldl (fun c _ => .bolQueue c _ _) _ c, rfl⟩

/-- What a release of waiting frames leaves: all but the frame records and the slots. -/
structure Chip.Released (c c1 : Chip) : Prop where
  regs : c1.regs = c.regs
  twn : c1.twn = c.twn
  evq : c1.evq = c.evq
  clk : c1.clk = c.clk
  bol : c1.bol = c.bol
  tx : c1.tx = c.tx

theorem Chip.Released.refl (c : Chip) : Chip.Released c c := ⟨rfl, rfl, rfl, rfl, rfl, rfl⟩

theorem Chip.Released.trans {c c1 c2 : Chip} (h1 : Chip.Released c c1) (h2 : Chip.Released c1 c2) : Chip.Released c c2 :=
  ⟨h2.regs.trans h1.regs, h2.twn.trans h1.twn, h2.evq.trans h1.evq, h2.clk.trans h1.clk, h2.bol.trans h1.bol, h2.tx.trans h1.tx⟩

theorem Chip.Released.forL {β : Type} {l : List β} {f : β → Chip → Chip} (hf : ∀ x c, Chip.Released c (f x c)) (c : Chip) :
    Chip.Released c (forL l f c) := by
  unfold Machine.forL
  induction l generalizing c with
  | nil => exact .refl c
  | cons x l ih => exact (hf x c).trans (ih _)

theorem Chip.Released.forN {n : Nat} {f : Nat → Chip → Chip} (hf : ∀ x c, Chip.Released c (f x c)) (c : Chip) :
    Chip.Released c (forN n f c) := Chip.Released.forL hf c

theorem Chip.Released.putFrameRec (c : Chip) (n i : Nat) (r : FrameRec) : Chip.Released c (c.putFrameRec n i r) :=
  ⟨by rw [Chip.putFrameRec_regs], by rw [Chip.putFrameRec, Chip.dramWrite_twn], by rw [Chip.putFrameRec_evq], by rw [Chip.putFrameRec_clk],
    by rw [Chip.putFrameRec, Chip.dramWrite_bol], by rw [Chip.putFrameRec, Chip.dramWrite_tx]⟩

theorem Chip.Released.modDone (c : Chip) (n seq : Nat) (f : Finished → Finished) : Chip.Released c (c.modDone n seq f) :=
  ⟨rfl, rfl, rfl, rfl, rfl, rfl⟩

theorem Chip.Released.agreeFrame (c : Chip) (n i seq : Nat) (e cap : Stamp) (derived : Bool) :
    Chip.Released c (c.agreeFrame n i seq e cap derived false) := by
  obtain ⟨k, f, eq⟩ := c.agreeFrame_eq n i seq e cap derived false
  rw [eq, if_neg Bool.false_ne_true]
  by_cases due : ((c.frameRec n i).seq == seq && (c.frameRec n i).code == 2) = true
  · rw [if_pos due]
    have put := Chip.Released.putFrameRec c n i ((c.frameRec n i).agreed e cap k derived false (decide (0 ≤ stampGap c.clk e)))
    generalize c.putFrameRec n i ((c.frameRec n i).agreed e cap k derived false (decide (0 ≤ stampGap c.clk e))) = d at put ⊢
    exact put.trans (.modDone d n seq f)
  · rw [if_neg due]; exact .refl c

/-- One waiting frame that the part holds is released (R354). -/
def Chip.releaseOne (n : Nat) (a : Agree) (c : Chip) : Chip :=
  match a.own, a.frame with
  | some o, some (i, seq) => if o.hold then c.agreeFrame n i seq (shortStamp c.clk) o.cap o.derived false else c
  | _, _ => c

theorem Chip.Released.releaseWaiting (c : Chip) : Chip.Released c c.releaseWaiting := by
  refine .forN (fun n c => ?_) c
  dsimp only
  split
  · exact .refl c
  · refine Chip.Released.trans (c1 := c.modSlot n (fun s => { s with agree := [] })) ⟨rfl, rfl, rfl, rfl, rfl, rfl⟩ (.forL (fun a c => ?_) _)
    split
    · split
      · exact .agreeFrame _ _ _ _ _ _ _
      · exact .refl _
    · exact .refl _

end Sys2Proof.Machine

namespace Sys2Proof.Machine

/-! ### A change of the pair state (R346) -/

/-- The registers that a change of the pair state writes. -/
def pairRegs : List Nat := [R.twnRes, R.twnResSoloLo, R.twnResSoloHi] ++ quietRegs

theorem mem_quietRegs {a : Nat} : a ∈ quietRegs ↔ a = R.twnStat ∨ a = R.twnClaimHigh ∨ a = R.evjStat ∨ a = R.evjCnt 1 := by simp [quietRegs]

theorem pairRegs_apart : R.twnRes ∉ quietRegs ∧ R.twnResSoloLo ∉ quietRegs ∧ R.twnResSoloHi ∉ quietRegs ∧ R.twnResSoloLo ≠ R.twnRes ∧
    R.twnResSoloHi ≠ R.twnRes ∧ R.twnResSoloLo ≠ R.twnResSoloHi ∧ R.twnClaimOwn ∉ pairRegs ∧ R.twnClaimTwin ∉ pairRegs ∧ R.pitStat ∉ pairRegs ∧
    R.twnResClaimLo ∉ pairRegs ∧ R.twnResClaimHi ∉ pairRegs ∧ R.twnStat ≠ R.twnRes ∧ R.twnStat ≠ R.twnResSoloLo ∧ R.twnStat ≠ R.twnResSoloHi ∧
    R.bolStat ∉ pairRegs ∧ R.chkCfg 2 ∉ pairRegs := by decide +kernel

/-- What a change of the pair state leaves, and what it tells. -/
structure Chip.Moved (new : Nat) (c c1 : Chip) : Prop where
  regs : regsSame pairRegs c.regs c1.regs
  pair : c1.pairState = new
  lead : c1.leader = c.leader
  clk : c1.clk = c.clk
  evq : c.evq <+: c1.evq
  valid : c1.bit R.twnRes 31 = true
  told : c1.evq.length < evqCap → (⟨0x1001, .room, c.clk, [.val 1 c.pairState, .val 1 new, .val 4 c.ownClaim,
    .val 4 (c.reg R.twnClaimTwin).toNat]⟩ : Ev) ∈ c1.evq

/-- An event that joined a queue with room is in it. -/
theorem Chip.event_in_queue {d e : Chip} {code : Nat} {p : FaultAddr} {f : List CField}
    (he : (d.event code p f).evq <+: e.evq) (room : e.evq.length < evqCap) : (⟨code, p, d.clk, f⟩ : Ev) ∈ e.evq :=
  List.mem_of_mem_drop (Chip.event_mem_drop (List.prefix_refl d.evq) he room)

/-- R346: the entry to SOLO. -/
def Chip.enterSolo (c : Chip) (now : Stamp) : Chip :=
  { c.setWide R.twnResSoloLo R.twnResSoloHi (shortStamp now) with
    twn := { c.twn with
      leftPaired := some now, lostTold := false, seenSince := none, hbRun := 0, doneTx := false, doneRx := false, replaced := 0 } }

/-- R346: a new pair state is a result and an event. -/
def Chip.tellPair (c : Chip) (old new : Nat) : Chip :=
  (c.publish R.twnRes).event 0x1001 .room [.val 1 old, .val 1 new, .val 4 c.ownClaim, .val 4 (c.reg R.twnClaimTwin).toNat]

theorem Chip.setPair_paired (c : Chip) : c.setPair 2 =
    (if c.pairState == 3 then ((c.setFld R.twnStat 2 0 2).tellPair c.pairState 2).setSplit false else (c.setFld R.twnStat 2 0 2).tellPair c.pairState 2).sendResync
      (if c.pairState == 1 then none else (if c.pairState == 3 then ((c.setFld R.twnStat 2 0 2).tellPair c.pairState 2).setSplit false
        else (c.setFld R.twnStat 2 0 2).tellPair c.pairState 2).twn.leftPaired) := rfl

theorem Chip.setPair_solo (c : Chip) : c.setPair 3 =
    (if c.pairState == 3 then (((c.setFld R.twnStat 2 0 3).enterSolo c.clk).tellPair c.pairState 3).setSplit false
      else ((c.setFld R.twnStat 2 0 3).enterSolo c.clk).tellPair c.pairState 3).releaseWaiting := rfl

section
variable (c : Chip)

/-- A part whose pair state has just been written tells it. -/
theorem Chip.Moved.tellPair {c d : Chip} {new : Nat} (hr : regsSame pairRegs c.regs d.regs) (hp : d.pairState = new) (hl : d.leader = c.leader)
    (hk : d.clk = c.clk) (he : d.evq = c.evq) : Chip.Moved new c (d.tellPair c.pairState new) := by
  obtain ⟨res, -, -, -, -, -, own, twin, -, -, -, stat, -⟩ := pairRegs_apart
  simp only [mem_quietRegs, not_or] at res
  obtain ⟨-, -, r1, r2⟩ := res
  have claim : d.ownClaim = c.ownClaim := congrArg BitVec.toNat (hr.reg own)
  have said : regsSame pairRegs d.regs (d.tellPair c.pairState new).regs := by simp [Chip.tellPair, pairRegs, quietRegs]
  have clk : (d.tellPair c.pairState new).clk = d.clk := Chip.event_clk _ _ _ _
  have first : d.evq <+: (d.tellPair c.pairState new).evq := Chip.raise_evq_prefix (d.publish R.twnRes) _
  refine ⟨hr.trans said, ?_, ?_, clk.trans hk, he ▸ first, ?_, fun room => ?_⟩
  · rw [← hp]
    exact (Chip.event_fld_other _ (by decide) (by decide) _ _ _ _ _).trans (Chip.fld_of_reg (Chip.publish_reg_other d stat) 2 0)
  · rw [← hl]
    exact (Chip.event_bit_other _ (by decide) (by decide) _ _ _ _).trans (Chip.bit_of_reg (Chip.publish_reg_other d stat) 4)
  · exact (Chip.event_bit_other _ r1 r2 _ _ _ _).trans (Chip.publish_valid d R.twnRes)
  · have mem := Chip.event_in_queue (List.prefix_refl (d.tellPair c.pairState new).evq) room
    rw [claim, hr.reg twin, Chip.publish_clk, hk] at mem
    exact mem

/-- What a test that tells nothing of the pair leaves of a move. -/
theorem Chip.Moved.quiet {c d e : Chip} {new : Nat} (h : Chip.Moved new c d) (q : Chip.Quiet d e) : Chip.Moved new c e := by
  obtain ⟨res, -, -⟩ := pairRegs_apart
  refine ⟨h.regs.trans (q.regs.mono (fun _ => List.mem_append_right _)), q.pair.trans h.pair, q.lead.trans h.lead, q.clk.trans h.clk,
    h.evq.trans q.evq, ?_, fun room => ?_⟩
  · rw [q.regs.bit res, h.valid]
  · obtain ⟨r, hr⟩ := q.evq
    have short : d.evq.length < evqCap := by
      have := congrArg List.length hr
      simp only [List.length_append] at this
      omega
    rw [← hr]
    exact List.mem_append_left _ (h.told short)

/-- What leaves the registers and the events leaves a move. -/
theorem Chip.Moved.same {c d e : Chip} {new : Nat} (h : Chip.Moved new c d) (hr : e.regs = d.regs) (he : e.evq = d.evq) (hk : e.clk = d.clk) :
    Chip.Moved new c e := by
  have reg : ∀ a, e.reg a = d.reg a := fun a => by rw [Chip.reg, hr, Chip.reg]
  exact ⟨hr ▸ h.regs, (Chip.fld_of_reg (reg _) 2 0).trans h.pair, (Chip.bit_of_reg (reg _) 4).trans h.lead, hk.trans h.clk, he ▸ h.evq,
    (Chip.bit_of_reg (reg _) 31).trans h.valid, fun room => he ▸ h.told (he ▸ room)⟩

/-- The entry to PAIRED. -/
theorem Chip.setPair_paired_says : Chip.Moved 2 c (c.setPair 2) ∧ (c.setPair 2).twn.core = { c.twn with doneTx := true }.core := by
  have written : regsSame pairRegs c.regs (c.setFld R.twnStat 2 0 2).regs := by simp [pairRegs, quietRegs]
  have told : Chip.Moved 2 c ((c.setFld R.twnStat 2 0 2).tellPair c.pairState 2) :=
    .tellPair written (Chip.setFld_fld_same c _ _ _ _ (by decide)) (Chip.setFld_bit_ne c (by decide) (by decide)) rfl rfl
  have twn : ((c.setFld R.twnStat 2 0 2).tellPair c.pairState 2).twn = c.twn := Chip.event_twn _ _ _ _
  rw [Chip.setPair_paired]
  generalize (c.setFld R.twnStat 2 0 2).tellPair c.pairState 2 = d at told twn ⊢
  have split : Chip.Quiet d (if c.pairState == 3 then d.setSplit false else d) := by
    by_cases solo : (c.pairState == 3) = true
    · rw [if_pos solo]; exact .setSplit d false
    · rw [if_neg solo]; exact .refl
  generalize (if c.pairState == 3 then d.setSplit false else d) = e at split ⊢
  obtain ⟨x, ⟨q, hq⟩, eq⟩ := e.sendResync_says (if c.pairState == 1 then none else e.twn.leftPaired)
  rw [eq, hq]
  refine ⟨(told.quiet split).same rfl rfl rfl, ?_⟩
  have core := split.core
  rw [twn] at core
  exact (congrArg (fun y : Twin => { y with doneTx := true }) core : _)

/-- The entry to SOLO. -/
theorem Chip.setPair_solo_says : Chip.Moved 3 c (c.setPair 3) ∧
    (c.setPair 3).twn.core = { c.twn with leftPaired := some c.clk, hbRun := 0, doneTx := false, doneRx := false, replaced := 0 }.core ∧
    (c.setPair 3).wide R.twnResSoloLo R.twnResSoloHi = shortStamp c.clk := by
  obtain ⟨-, lo, hi, nlo, nhi, ne, -, -, -, -, -, -, slo, shi, -⟩ := pairRegs_apart
  have written : regsSame pairRegs c.regs ((c.setFld R.twnStat 2 0 3).enterSolo c.clk).regs := by
    simp [Chip.enterSolo, pairRegs, quietRegs]
  have told : Chip.Moved 3 c (((c.setFld R.twnStat 2 0 3).enterSolo c.clk).tellPair c.pairState 3) :=
    .tellPair written ((Chip.setWide_fld_other (c.setFld R.twnStat 2 0 3) _ slo shi 2 0).trans (Chip.setFld_fld_same c _ _ _ _ (by decide)))
      ((Chip.setWide_bit_other (c.setFld R.twnStat 2 0 3) _ slo shi 4).trans (Chip.setFld_bit_ne c (by decide) (by decide))) rfl rfl
  have twn : (((c.setFld R.twnStat 2 0 3).enterSolo c.clk).tellPair c.pairState 3).twn.core =
      { c.twn with leftPaired := some c.clk, hbRun := 0, doneTx := false, doneRx := false, replaced := 0 }.core :=
    by rw [Chip.tellPair, Chip.event_twn]; rfl
  have wide : (((c.setFld R.twnStat 2 0 3).enterSolo c.clk).tellPair c.pairState 3).wide R.twnResSoloLo R.twnResSoloHi = shortStamp c.clk := by
    simp only [mem_quietRegs, not_or] at lo hi
    have at_ : ∀ a, a ≠ R.evjStat → a ≠ R.evjCnt 1 → a ≠ R.twnRes →
        (((c.setFld R.twnStat 2 0 3).enterSolo c.clk).tellPair c.pairState 3).reg a = ((c.setFld R.twnStat 2 0 3).setWide R.twnResSoloLo R.twnResSoloHi
          (shortStamp c.clk)).reg a := fun a h1 h2 h3 =>
      (Chip.event_reg _ _ _ _ h1 h2).trans (Chip.publish_reg_other _ h3)
    rw [Chip.wide, at_ _ lo.2.2.1 lo.2.2.2 nlo, at_ _ hi.2.2.1 hi.2.2.2 nhi]
    exact Chip.setWide_wide _ _ ne (Nat.mod_lt _ (by decide))
  rw [Chip.setPair_solo]
  generalize ((c.setFld R.twnStat 2 0 3).enterSolo c.clk).tellPair c.pairState 3 = d at told twn wide ⊢
  have split : Chip.Quiet d (if c.pairState == 3 then d.setSplit false else d) := by
    by_cases solo : (c.pairState == 3) = true
    · rw [if_pos solo]; exact .setSplit d false
    · rw [if_neg solo]; exact .refl
  generalize (if c.pairState == 3 then d.setSplit false else d) = e at split ⊢
  obtain ⟨regs, rtwn, revq, rclk, -, -⟩ := Chip.Released.releaseWaiting e
  refine ⟨(told.quiet split).same regs revq rclk, by rw [rtwn, split.core, twn], ?_⟩
  rw [Chip.wide, Chip.reg, Chip.reg, regs, ← Chip.reg, ← Chip.reg, split.regs.reg lo, split.regs.reg hi]
  exact wide

end

end Sys2Proof.Machine

namespace Sys2Proof.Machine

/-! ### The stages of a tick -/

/-- The registers that a new claim writes. -/
def claimRegs : List Nat := [R.twnClaimOwn, R.twnResClaimLo, R.twnResClaimHi, R.twnRes] ++ quietRegs

/-- What a tick's new claim, if there is one, leaves (R348). -/
structure Chip.Claimed (c c1 : Chip) : Prop where
  regs : regsSame claimRegs c.regs c1.regs
  pair : c1.pairState = c.pairState
  lead : c1.leader = c.leader
  clk : c1.clk = c.clk
  evq : c.evq <+: c1.evq
  bol : c1.bol = c.bol
  chk : c1.chk = c.chk
  tx : c1.tx = c.tx
  core : c1.twn.core = { c.twn with nextClaim := none }.core
  own : c1.ownClaim = (c.twn.nextClaim.map (fun n => n % 2 ^ 32)).getD c.ownClaim

/-- R348: a raised claim is noted. -/
def Chip.raisedClaim (c : Chip) (claim : Nat) : Chip :=
  (({ c with twn := { c.twn with nextClaim := none } } : Chip).setNat R.twnClaimOwn claim).noteClaim claim

/-- R348: a raised claim is a result. -/
def Chip.claimResult (c : Chip) : Chip := (c.setWide R.twnResClaimLo R.twnResClaimHi (shortStamp c.clk)).publish R.twnRes

/-- R348: the event of a raised claim. -/
def Chip.tellClaim (c : Chip) (own claim : Nat) : Chip :=
  c.claimResult.event 0x1006 .room [.val 4 own, .val 4 claim, .val 1 (if c.claimResult.leader then 1 else 0), .val 1 2]

theorem claimRegs_apart : R.twnClaimOwn ∉ quietRegs ∧ R.twnResClaimLo ∉ quietRegs ∧ R.twnResClaimHi ∉ quietRegs ∧ R.twnRes ∉ quietRegs ∧
    R.twnClaimOwn ≠ R.twnResClaimLo ∧ R.twnClaimOwn ≠ R.twnResClaimHi ∧ R.twnClaimOwn ≠ R.twnRes ∧ R.twnResClaimLo ≠ R.twnRes ∧
    R.twnResClaimHi ≠ R.twnRes ∧ R.twnResClaimLo ≠ R.twnResClaimHi ∧ R.twnStat ≠ R.twnResClaimLo ∧ R.twnStat ≠ R.twnResClaimHi ∧
    R.twnStat ≠ R.twnClaimOwn ∧ R.twnStat ≠ R.twnRes ∧ R.twnClaimTwin ∉ claimRegs ∧ R.pitStat ∉ claimRegs ∧ R.bolStat ∉ claimRegs ∧
    R.chkCfg 2 ∉ claimRegs := by decide +kernel

theorem Chip.applyClaim_none {c : Chip} (h : c.twn.nextClaim = none) : c.applyClaim = c := by rw [Chip.applyClaim, h]

theorem Chip.applyClaim_some {c : Chip} {claim : Nat} (h : c.twn.nextClaim = some claim) :
    c.applyClaim = (c.raisedClaim claim).tellClaim c.ownClaim claim := by
  unfold Chip.applyClaim
  split
  · next none => rw [h] at none; exact absurd none (by simp)
  · next x some =>
    obtain rfl : claim = x := Option.some.inj (h.symm.trans some)
    rfl

/-- The registers of a claim's result and event. -/
def claimResultRegs : List Nat := [R.twnResClaimLo, R.twnResClaimHi, R.twnRes] ++ eventRegs

theorem claimResultRegs_apart : R.twnClaimOwn ∉ claimResultRegs ∧ R.twnStat ∉ claimResultRegs := by decide +kernel

theorem Chip.tellClaim_same (c : Chip) (own claim : Nat) {d : Chip} (hd : d = c.tellClaim own claim) :
    regsSame claimResultRegs c.regs d.regs ∧ d.clk = c.clk ∧ c.evq <+: d.evq ∧ d.bol = c.bol ∧ d.chk = c.chk ∧ d.tx = c.tx ∧ d.twn = c.twn := by
  have result : regsSame claimResultRegs c.regs c.claimResult.regs := by simp [Chip.claimResult, claimResultRegs]
  subst hd
  exact ⟨result.trans (by simp [Chip.tellClaim, claimResultRegs]), Chip.event_clk _ _ _ _, Chip.raise_evq_prefix c.claimResult _,
    Chip.event_bol _ _ _ _, Chip.event_chk _ _ _ _, Chip.event_tx _ _ _ _, Chip.event_twn _ _ _ _⟩

/-- The result and the event of a claim. -/
theorem Chip.tellClaim_says (c : Chip) (own claim : Nat) {d : Chip} (hd : d = c.tellClaim own claim) :
    d.bit R.twnRes 31 = true ∧ d.wide R.twnResClaimLo R.twnResClaimHi = shortStamp c.clk ∧
      (d.evq.length < evqCap → (⟨0x1006, .room, c.clk, [.val 4 own, .val 4 claim, .val 1 (if c.leader then 1 else 0), .val 1 2]⟩ : Ev) ∈ d.evq) := by
  obtain ⟨-, lo, hi, res, -, -, -, nlr, nhr, ne, slo, shi, -, sres, -⟩ := claimRegs_apart
  simp only [mem_quietRegs, not_or] at lo hi res
  have at_ : ∀ a, a ≠ R.evjStat → a ≠ R.evjCnt 1 → a ≠ R.twnRes → d.reg a =
      (c.setWide R.twnResClaimLo R.twnResClaimHi (shortStamp c.clk)).reg a := fun a h1 h2 h3 => by
    rw [hd]
    exact (Chip.event_reg _ _ _ _ h1 h2).trans (Chip.publish_reg_other _ h3)
  have same : c.claimResult.leader = c.leader := Chip.bit_of_reg ((Chip.publish_reg_other _ sres).trans (Chip.setWide_reg_other _ _ slo shi)) 4
  refine ⟨?_, ?_, fun room => ?_⟩
  · rw [hd]
    exact (Chip.event_bit_other _ res.2.2.1 res.2.2.2 _ _ _ _).trans (Chip.publish_valid _ _)
  · rw [Chip.wide, at_ _ lo.2.2.1 lo.2.2.2 nlr, at_ _ hi.2.2.1 hi.2.2.2 nhr]
    exact Chip.setWide_wide _ _ ne (Nat.mod_lt _ (by decide))
  · subst hd
    have mem := Chip.event_in_queue (List.prefix_refl (c.tellClaim own claim).evq) room
    rw [same] at mem
    exact mem

/-- A raised claim is noted, with the tests that it brings. -/
theorem Chip.raisedClaim_says (c : Chip) (claim : Nat) {d : Chip} (hd : d = c.raisedClaim claim) :
    regsSame claimRegs c.regs d.regs ∧ d.pairState = c.pairState ∧ d.leader = c.leader ∧ d.ownClaim = claim % 2 ^ 32 ∧
      d.twn.core = { c.twn with nextClaim := none }.core ∧ c.evq <+: d.evq ∧ d.clk = c.clk ∧ d.bol = c.bol ∧ d.chk = c.chk ∧ d.tx = c.tx := by
  obtain ⟨own, -, -, -, -, -, -, -, -, -, -, -, sown, -⟩ := claimRegs_apart
  have quiet := Chip.Quiet.noteClaim (({ c with twn := { c.twn with nextClaim := none } } : Chip).setNat R.twnClaimOwn claim) claim
  rw [show Chip.noteClaim _ claim = d from hd.symm] at quiet
  refine ⟨regsSame.trans ?_ (quiet.regs.mono (fun _ => List.mem_append_right _)),
    quiet.pair.trans (Chip.setNat_fld_other ({ c with twn := { c.twn with nextClaim := none } } : Chip) _ sown 2 0),
    quiet.lead.trans (Chip.setNat_bit_other ({ c with twn := { c.twn with nextClaim := none } } : Chip) _ sown 4), ?_, quiet.core, quiet.evq,
    quiet.clk, quiet.bol, quiet.chk, quiet.tx⟩
  · simp [claimRegs]
  · rw [Chip.ownClaim, quiet.regs.reg own, Chip.setNat_reg, if_pos rfl, BitVec.toNat_ofNat]

theorem claimResultRegs_sub : ∀ a ∈ claimResultRegs, a ∈ claimRegs := by
  intro a ha
  simp only [claimResultRegs, List.mem_append, List.mem_cons, List.not_mem_nil, or_false, mem_eventRegs] at ha
  simp only [claimRegs, quietRegs, List.mem_append, List.mem_cons, List.not_mem_nil, or_false, mem_eventRegs]
  tauto

/-- A claim that takes effect: its result and its event. -/
theorem Chip.applyClaim_some_says {c : Chip} {claim : Nat} (h : c.twn.nextClaim = some claim) : Chip.Claimed c c.applyClaim ∧
    c.applyClaim.bit R.twnRes 31 = true ∧ c.applyClaim.wide R.twnResClaimLo R.twnResClaimHi = shortStamp c.clk ∧
    (c.applyClaim.evq.length < evqCap → (⟨0x1006, .room, c.clk, [.val 4 c.ownClaim, .val 4 claim,
      .val 1 (if c.leader then 1 else 0), .val 1 2]⟩ : Ev) ∈ c.applyClaim.evq) := by
  obtain ⟨aown, astat⟩ := claimResultRegs_apart
  rw [Chip.applyClaim_some h]
  obtain ⟨regs, pair, lead, own, core, evq, clk, bol, chk, tx⟩ := c.raisedClaim_says claim rfl
  generalize c.raisedClaim claim = d at *
  obtain ⟨valid, wide, mem⟩ := d.tellClaim_says c.ownClaim claim rfl
  obtain ⟨tregs, tclk, tevq, tbol, tchk, ttx, ttwn⟩ := d.tellClaim_same c.ownClaim claim rfl
  generalize d.tellClaim c.ownClaim claim = e at *
  rw [clk, lead] at mem
  rw [clk] at wide
  refine ⟨⟨regs.trans (tregs.mono claimResultRegs_sub), (tregs.fld astat 2 0).trans pair, (tregs.bit astat 4).trans lead, tclk.trans clk,
    evq.trans tevq, tbol.trans bol, tchk.trans chk, ttx.trans tx, by rw [ttwn, core], ?_⟩, valid, wide, mem⟩
  rw [Chip.ownClaim, tregs.reg aown, h]
  exact own

theorem Chip.Claimed.applyClaim (c : Chip) : Chip.Claimed c c.applyClaim := by
  cases h : c.twn.nextClaim with
  | none =>
    rw [Chip.applyClaim_none h]
    refine ⟨regsSame.refl, rfl, rfl, rfl, List.prefix_refl _, rfl, rfl, rfl, ?_, by rw [h]; rfl⟩
    cases ht : c.twn
    rw [ht] at h
    simp only at h
    rw [h]
  | some claim => exact (Chip.applyClaim_some_says h).1

/-! ### The evaluation -/

/-- R346: the intervals with a sealed heartbeat are counted. -/
def Chip.countBeat (c : Chip) : Chip :=
  { c with twn := { c.twn with hbRun := if c.twn.hbSince then c.twn.hbRun + 1 else 0, hbSince := false } }

/-- R346: the change of pair state that an evaluation finds. -/
def Chip.movePair (c : Chip) : Chip :=
  if c.pairState == 1 then (if c.isSealed && (c.hbCurrent && c.hbSealed) then c.setPair 2 else c)
  else if c.pairState == 2 then (if c.hbCurrent && c.hbSealed then c else c.setPair 3)
  else if c.pairState == 3 && decide (10 ≤ c.twn.hbRun) then c.setPair 2
  else c

/-- R346: the loss of a twin that the network does not show is told. -/
def Chip.tellLost (c : Chip) : Chip :=
  if c.pairState == 3 && !c.bit R.twnStat 5 && !c.twn.lostTold then
    ({ c with twn := { c.twn with lostTold := true } } : Chip).event 0x1003 .room
      [.val 8 (shortStamp (c.twn.lastHb.getD 0)), .val 8 (shortStamp c.twn.lastSight)]
  else c

theorem Chip.evalPair_eq (c : Chip) : c.evalPair = c.countBeat.movePair.syncNetSeen.tellLost := rfl

theorem Chip.Quiet.tellLost (c : Chip) : Chip.Quiet c c.tellLost := by
  unfold Chip.tellLost
  split
  · exact (Chip.Quiet.twn c (x := { c.twn with lostTold := true }) rfl).trans (.event _ _ _ _)
  · exact .refl

/-- The part of a tick between the pair state and the HEARTBEAT. -/
theorem Chip.Quiet.tick (c : Chip) : Chip.Quiet c c.syncNetSeen.tellLost.checkHigher.checkYield :=
  (((Chip.Quiet.syncNetSeen c).trans (.tellLost _)).trans (.checkHigher _)).trans (.checkYield _)

/-! ### The HEARTBEAT of a tick -/

/-- R342, R344, R356: what leaves at a tick. -/
def Chip.tickOut (c : Chip) : Chip := (c.bolQueue 1 c.heartbeatBytes).sendWaiting.resyncDone

theorem Chip.tick_eq (c : Chip) : (c.applyClaim.evalPair.checkHigher.checkYield.bolQueue 1
    c.applyClaim.evalPair.checkHigher.checkYield.heartbeatBytes).sendWaiting.resyncDone =
    (c.applyClaim.countBeat.movePair.syncNetSeen.tellLost.checkHigher.checkYield).tickOut := rfl

/-- The order in which waiting messages leave (R342). -/
def inOrder (l : List (Nat × List Byte)) : List (Nat × List Byte) :=
  [0, 1, 2, 3, 7, 4, 5, 6].flatMap (fun type => l.filter (fun m => m.1 == type))

theorem Chip.sendWaiting_eq (c : Chip) : c.sendWaiting =
    forL (inOrder c.bol.waiting) (fun m c => c.sendMessage m.1 m.2) { c with bol := { c.bol with waiting := [] } } := rfl

/-- What the messages of a tick leave. -/
structure Chip.SentOut (c c1 : Chip) : Prop where
  regs : regsSame (bolRegs ++ eventRegs) c.regs c1.regs
  clk : c1.clk = c.clk
  evq : c.evq <+: c1.evq
  twn : { c1.twn with doneTx := false, doneRx := false, replaced := 0 } = { c.twn with doneTx := false, doneRx := false, replaced := 0 }
  dones : c.twn.doneRx = false → c1.twn = c.twn
  waiting : c1.bol.waiting = []

theorem Chip.sendWaiting_says (c : Chip) : regsSame bolRegs c.regs c.sendWaiting.regs ∧ c.sendWaiting.clk = c.clk ∧ c.sendWaiting.evq = c.evq ∧
    c.sendWaiting.twn = c.twn ∧ c.sendWaiting.bol.waiting = [] := by
  rw [Chip.sendWaiting_eq]
  refine ⟨regsSame_forL (c := ({ c with bol := { c.bol with waiting := [] } } : Chip)) (fun m _ c1 => regsSame_sendMessage c1 m.1 m.2), ?_, ?_, ?_, ?_⟩
  · exact forL_keeps Chip.clk (fun m _ c1 => c1.sendMessage_clk m.1 m.2)
  · exact forL_keeps Chip.evq (fun m _ c1 => c1.sendMessage_evq m.1 m.2)
  · exact forL_keeps Chip.twn (fun m _ c1 => c1.sendMessage_twn m.1 m.2)
  · exact forL_keeps (fun x : Chip => x.bol.waiting) (fun m _ c1 => (congrArg Bolral.waiting (c1.sendMessage_bol m.1 m.2) : _))

theorem Chip.resyncDone_says (c : Chip) : regsSame eventRegs c.regs c.resyncDone.regs ∧ c.resyncDone.clk = c.clk ∧ c.evq <+: c.resyncDone.evq ∧
    { c.resyncDone.twn with doneTx := false, doneRx := false, replaced := 0 } = { c.twn with doneTx := false, doneRx := false, replaced := 0 } ∧
    (c.twn.doneRx = false → c.resyncDone = c) ∧ c.resyncDone.bol = c.bol ∧ c.resyncDone.tx = c.tx := by
  unfold Chip.resyncDone
  split
  · next both =>
    refine ⟨by simp, by simp, Chip.raise_evq_prefix ({ c with twn := { c.twn with doneTx := false, doneRx := false, replaced := 0 } } : Chip) _, by simp,
      fun h => ?_, by simp, by simp⟩
    rw [h] at both
    simp at both
  · exact ⟨regsSame.refl, rfl, List.prefix_refl _, rfl, fun _ => rfl, rfl, rfl⟩

theorem Chip.bolQueue_eq (c : Chip) (type : Nat) (payload : List Byte) : c.bolQueue type payload =
    { c with bol := { c.bol with waiting := if c.bolUp then c.bol.waiting ++ [(type, payload)] else c.bol.waiting } } := by
  unfold Chip.bolQueue
  split <;> rfl

theorem Chip.SentOut.tickOut (c : Chip) : Chip.SentOut c c.tickOut := by
  rw [Chip.tickOut, Chip.bolQueue_eq]
  generalize hq : ({ c with bol := { c.bol with waiting := if c.bolUp then c.bol.waiting ++ [(1, c.heartbeatBytes)] else c.bol.waiting } } : Chip) = q
  have regs : q.regs = c.regs := by rw [← hq]
  have clk : q.clk = c.clk := by rw [← hq]
  have evq : q.evq = c.evq := by rw [← hq]
  have twn : q.twn = c.twn := by rw [← hq]
  obtain ⟨sregs, sclk, sevq, stwn, swait⟩ := q.sendWaiting_says
  obtain ⟨dregs, dclk, devq, dtwn, ddone, dbol, -⟩ := q.sendWaiting.resyncDone_says
  rw [regs] at sregs
  refine ⟨(sregs.mono (fun _ => List.mem_append_left _)).trans (dregs.mono (fun _ => List.mem_append_right _)), ?_, ?_, ?_, fun h => ?_, ?_⟩
  · rw [dclk, sclk, clk]
  · rw [← evq, ← sevq]; exact devq
  · rw [dtwn, stwn, twn]
  · rw [ddone (by rw [stwn, twn, h]), stwn, twn]
  · rw [dbol, swait]

end Sys2Proof.Machine

namespace Sys2Proof.Machine

/-! ### The tick as a whole -/

theorem exec_tick {s : State} {t : Stamp} (due : t % (100 * nsPerUs) = 0) (hp : s.chip.pairState ≠ 0) : exec (.tick t) s = .next { s with chip :=
    (s.chip.at t).applyClaim.countBeat.movePair.syncNetSeen.tellLost.checkHigher.checkYield.tickOut } := by
  rw [show exec (.tick t) s = execTick t s from rfl, execTick, runIf_of _ _ _ rfl]
  dsimp only
  rw [if_pos (by rw [Chip.at_clk, due, show (s.chip.at t).pairState = s.chip.pairState from rfl]; simpa using hp), Chip.tick_eq]

/-- R346: the pair state after a tick, from the state, whether a sealed heartbeat is current, and the count of intervals. -/
def pairNext (state run : Nat) (ready cur : Bool) : Nat :=
  if state = 1 then (if ready && cur then 2 else 1) else if state = 2 then (if cur then 2 else 3) else if state = 3 ∧ 10 ≤ run then 2 else state

/-- What the evaluation of the pair state leaves: whatever it moves, or nothing. -/
theorem Chip.movePair_cases (c : Chip) : c.movePair = c ∧ c.pairState = pairNext c.pairState c.twn.hbRun c.isSealed (c.hbCurrent && c.hbSealed) ∧
      ¬ (c.pairState = 2 ∧ (c.hbCurrent && c.hbSealed) = false) ∨
    c.movePair = c.setPair 2 ∧ pairNext c.pairState c.twn.hbRun c.isSealed (c.hbCurrent && c.hbSealed) = 2 ∧ c.pairState ≠ 2 ∨
    c.movePair = c.setPair 3 ∧ c.pairState = 2 ∧ (c.hbCurrent && c.hbSealed) = false := by
  unfold Chip.movePair pairNext
  simp only [beq_iff_eq, Bool.and_eq_true (c.pairState == 3), decide_eq_true_eq]
  by_cases h1 : c.pairState = 1
  · rw [if_pos h1, if_pos h1]
    by_cases go : (c.isSealed && (c.hbCurrent && c.hbSealed)) = true
    · rw [if_pos go, if_pos go]
      exact .inr (.inl ⟨rfl, rfl, by omega⟩)
    · rw [if_neg go, if_neg go]
      exact .inl ⟨rfl, h1, by omega⟩
  · rw [if_neg h1, if_neg h1]
    by_cases h2 : c.pairState = 2
    · rw [if_pos h2, if_pos h2]
      by_cases cur : (c.hbCurrent && c.hbSealed) = true
      · rw [if_pos cur, if_pos cur]
        exact .inl ⟨rfl, h2, fun h => by rw [cur] at h; exact absurd h.2 (by decide)⟩
      · rw [if_neg cur]
        exact .inr (.inr ⟨rfl, h2, by simpa using cur⟩)
    · rw [if_neg h2, if_neg h2]
      by_cases back : c.pairState = 3 ∧ 10 ≤ c.twn.hbRun
      · rw [if_pos back, if_pos back]
        exact .inr (.inl ⟨rfl, rfl, h2⟩)
      · rw [if_neg back, if_neg back]
        exact .inl ⟨rfl, rfl, fun h => h2 h.1⟩

/-- The registers that a tick may write, beside those of the messages. -/
theorem sentRegs_apart : R.twnStat ∉ bolRegs ++ eventRegs ∧ R.twnClaimOwn ∉ bolRegs ++ eventRegs ∧ R.twnRes ∉ bolRegs ++ eventRegs ∧
    R.twnResSoloLo ∉ bolRegs ++ eventRegs ∧ R.twnResSoloHi ∉ bolRegs ++ eventRegs ∧ R.twnResClaimLo ∉ bolRegs ++ eventRegs ∧
    R.twnResClaimHi ∉ bolRegs ++ eventRegs ∧ R.twnClaimHigh ∉ bolRegs ++ eventRegs ∧ R.twnCfg ∉ bolRegs ++ eventRegs ∧
    R.muiStat ∉ bolRegs ++ eventRegs ∧ R.pitStat ∉ bolRegs ++ eventRegs := by decide +kernel

section
variable {s : State} {t : Stamp}

/-- The part before the pair state is evaluated. -/
theorem Chip.beforeMove (c : Chip) {d : Chip} (hd : d = c.applyClaim.countBeat) : d.pairState = c.pairState ∧ d.leader = c.leader ∧ d.clk = c.clk ∧
    d.isSealed = c.isSealed ∧ d.hbCurrent = c.hbCurrent ∧ d.hbSealed = c.hbSealed ∧
    d.ownClaim = (c.twn.nextClaim.map (fun n => n % 2 ^ 32)).getD c.ownClaim ∧ d.reg R.twnClaimTwin = c.reg R.twnClaimTwin ∧
    d.twn.core = { c.twn with nextClaim := none, hbRun := if c.twn.hbSince then c.twn.hbRun + 1 else 0, hbSince := false }.core ∧
    c.evq <+: d.evq ∧ d.bol = c.bol ∧ d.tx = c.tx ∧ d.chk = c.chk ∧ regsSame claimRegs c.regs d.regs := by
  have claimed := Chip.Claimed.applyClaim c
  obtain ⟨-, -, -, -, -, -, -, -, -, -, -, -, -, -, twin, pit, -⟩ := claimRegs_apart
  have since : c.applyClaim.twn.hbSince = c.twn.hbSince := (congrArg Twin.hbSince claimed.core : _)
  have run : c.applyClaim.twn.hbRun = c.twn.hbRun := (congrArg Twin.hbRun claimed.core : _)
  have last : c.applyClaim.twn.lastHb = c.twn.lastHb := (congrArg Twin.lastHb claimed.core : _)
  have flags : c.applyClaim.twn.hbFlags = c.twn.hbFlags := (congrArg Twin.hbFlags claimed.core : _)
  subst hd
  refine ⟨claimed.pair, claimed.lead, claimed.clk, claimed.regs.bit pit 31, ?_, ?_, claimed.own, claimed.regs.reg twin, ?_, claimed.evq, claimed.bol,
    claimed.tx, claimed.chk, claimed.regs⟩
  · simp only [Chip.hbCurrent, Chip.countBeat, last, claimed.clk]
  · simp only [Chip.hbSealed, Chip.countBeat, flags]
  · have core := congrArg (fun x : Twin => { x with hbRun := if c.twn.hbSince then c.twn.hbRun + 1 else 0, hbSince := false }) claimed.core
    simp only [Chip.countBeat, since, run]
    exact core

/-- What stands after a tick, from what stands when the pair state has been evaluated. -/
theorem Chip.afterMove {m e f : Chip} (hq : Chip.Quiet m e) (hs : Chip.SentOut e f) : f.pairState = m.pairState ∧ f.leader = m.leader ∧
    f.ownClaim = m.ownClaim ∧ f.clk = m.clk ∧ m.evq <+: f.evq ∧ f.twn.nextClaim = m.twn.nextClaim ∧ f.twn.hbSince = m.twn.hbSince ∧
    f.twn.hbRun = m.twn.hbRun ∧ f.twn.lastHb = m.twn.lastHb ∧ f.twn.leftPaired = m.twn.leftPaired ∧
    (m.twn.doneRx = false → f.twn.doneTx = m.twn.doneTx) ∧ f.bol.waiting = [] ∧
    (∀ a, a ∉ quietRegs → a ∉ bolRegs ++ eventRegs → f.reg a = m.reg a) := by
  obtain ⟨stat, own, -⟩ := sentRegs_apart
  refine ⟨(hs.regs.fld stat 2 0).trans hq.pair, (hs.regs.bit stat 4).trans hq.lead, (congrArg BitVec.toNat (hs.regs.reg own)).trans hq.claim,
    hs.clk.trans hq.clk, hq.evq.trans hs.evq, (congrArg Twin.nextClaim hs.twn : _).trans (congrArg Twin.nextClaim hq.core : _),
    (congrArg Twin.hbSince hs.twn : _).trans (congrArg Twin.hbSince hq.core : _), (congrArg Twin.hbRun hs.twn : _).trans (congrArg Twin.hbRun hq.core : _),
    (congrArg Twin.lastHb hs.twn : _).trans (congrArg Twin.lastHb hq.core : _),
    (congrArg Twin.leftPaired hs.twn : _).trans (congrArg Twin.leftPaired hq.core : _), fun h => ?_, hs.waiting,
    fun a h1 h2 => (hs.regs.reg h2).trans (hq.regs.reg h1)⟩
  have rx : e.twn.doneRx = false := (congrArg Twin.doneRx hq.core : _).trans h
  rw [hs.dones rx]
  exact (congrArg Twin.doneTx hq.core : _)

/-- The three things that the evaluation of a tick can find, each with what the tick leaves. -/
theorem Chip.tick_cases (c : Chip) {cur : Bool} {run : Nat} (hcur : cur = (c.hbCurrent && c.hbSealed))
    (hrun : run = if c.twn.hbSince then c.twn.hbRun + 1 else 0) {d m f : Chip} (hd : d = c.applyClaim.countBeat) (hm : m = d.movePair)
    (hf : f = m.syncNetSeen.tellLost.checkHigher.checkYield.tickOut) :
    (f.pairState = pairNext c.pairState run c.isSealed cur ∧ f.ownClaim = (c.twn.nextClaim.map (fun n => n % 2 ^ 32)).getD c.ownClaim ∧
      f.twn.nextClaim = none ∧ f.twn.hbSince = false ∧ f.twn.hbRun = (if c.pairState = 2 ∧ cur = false then 0 else run) ∧
      f.twn.lastHb = c.twn.lastHb ∧ f.leader = c.leader ∧ f.bol.waiting = []) ∧
    d.evq <+: m.evq ∧ m.evq <+: f.evq ∧ m.ownClaim = d.ownClaim ∧
    (m = d ∨ m = d.setPair 2 ∧ pairNext c.pairState run c.isSealed cur = 2 ∨ m = d.setPair 3 ∧ c.pairState = 2 ∧ cur = false) := by
  have sent := Chip.SentOut.tickOut m.syncNetSeen.tellLost.checkHigher.checkYield
  rw [← hf] at sent
  obtain ⟨pair, lead, own, clk, evq, next, since, hrun', last, left, done, wait, reg⟩ := Chip.afterMove (Chip.Quiet.tick m) sent
  obtain ⟨dpair, dlead, dclk, dsealed, dcur, dseal, down, dtwin, dcore, devq, -⟩ := Chip.beforeMove c hd
  have drun : d.twn.hbRun = run := ((congrArg Twin.hbRun dcore : _) : _).trans hrun.symm
  have dsince : d.twn.hbSince = false := (congrArg Twin.hbSince dcore : _)
  have dnext : d.twn.nextClaim = none := (congrArg Twin.nextClaim dcore : _)
  have dlast : d.twn.lastHb = c.twn.lastHb := (congrArg Twin.lastHb dcore : _)
  obtain ⟨-, -, -, -, -, -, ownPair, -⟩ := pairRegs_apart
  have cases := d.movePair_cases
  rw [dpair, drun, dsealed, dcur, dseal, ← hcur, ← hm] at cases
  rw [pair, lead, own, next, since, hrun', last]
  rcases cases with ⟨same, st, stay⟩ | ⟨moved, st, ne⟩ | ⟨moved, st, lost⟩
  · rw [same, dpair, dlead, down, drun, dsince, dnext, dlast, if_neg stay]
    exact ⟨⟨st, rfl, rfl, rfl, rfl, rfl, rfl, wait⟩, List.prefix_refl _, by rw [same] at evq; exact evq, rfl, .inl rfl⟩
  · obtain ⟨mv, core⟩ := d.setPair_paired_says
    rw [← moved] at mv core
    have mrun : m.twn.hbRun = d.twn.hbRun := (congrArg Twin.hbRun core : _)
    have msince : m.twn.hbSince = d.twn.hbSince := (congrArg Twin.hbSince core : _)
    have mnext : m.twn.nextClaim = d.twn.nextClaim := (congrArg Twin.nextClaim core : _)
    have mlast : m.twn.lastHb = d.twn.lastHb := (congrArg Twin.lastHb core : _)
    have mown : m.ownClaim = d.ownClaim := congrArg BitVec.toNat (mv.regs.reg ownPair)
    rw [mv.pair, mv.lead, mown, mrun, msince, mnext, mlast, dlead, down, drun, dsince, dnext, dlast, if_neg (fun h => ne h.1)]
    exact ⟨⟨st.symm, rfl, rfl, rfl, rfl, rfl, rfl, wait⟩, mv.evq, evq, rfl, .inr (.inl ⟨moved, st⟩)⟩
  · obtain ⟨mv, core, -⟩ := d.setPair_solo_says
    rw [← moved] at mv core
    have mrun : m.twn.hbRun = 0 := (congrArg Twin.hbRun core : _)
    have msince : m.twn.hbSince = d.twn.hbSince := (congrArg Twin.hbSince core : _)
    have mnext : m.twn.nextClaim = d.twn.nextClaim := (congrArg Twin.nextClaim core : _)
    have mlast : m.twn.lastHb = d.twn.lastHb := (congrArg Twin.lastHb core : _)
    have mown : m.ownClaim = d.ownClaim := congrArg BitVec.toNat (mv.regs.reg ownPair)
    rw [mv.pair, mv.lead, mown, mrun, msince, mnext, mlast, dlead, down, dsince, dnext, dlast, if_pos ⟨st, lost⟩]
    refine ⟨⟨?_, rfl, rfl, rfl, rfl, rfl, rfl, wait⟩, mv.evq, evq, rfl, .inr (.inr ⟨moved, st, lost⟩)⟩
    rw [pairNext, st, lost]
    rfl

end

end Sys2Proof.Machine

namespace Sys2Proof.Machine

/-! ### The HEARTBEAT -/

section
variable (c : Chip)

theorem Chip.chkFinish_partIndex (u : Nat) : (c.chkFinish u).partIndex = c.partIndex := by
  simp [Chip.chkFinish, Chip.modChk, apply_ite Chip.partIndex]

theorem Chip.sendFlit_partIndex (body : List Byte) : (c.sendFlit body).partIndex = c.partIndex :=
  (Chip.chkFinish_partIndex ((c.chkStart 2).chkFeed 2 body) 2).trans rfl

theorem Chip.sendMessage_partIndex (type : Nat) (payload : List Byte) : (c.sendMessage type payload).partIndex = c.partIndex :=
  forL_keeps Chip.partIndex (fun b _ c1 => c1.sendFlit_partIndex b)

/-- R344: byte 17 of a HEARTBEAT. -/
def Chip.heartbeatFlags : Nat := c.fld R.twnCfg 16 16 + (if c.leader then 2 else 0) + (if c.bit R.twnStat 7 then 4 else 0) +
  (if c.isSealed then 8 else 0) + (if c.pairState == 2 then 16 else 0)

/-- R344: byte 18 of a HEARTBEAT. -/
def Chip.heartbeatRef : Nat := c.fld R.muiStat 14 12 + (if c.bit R.muiStat 15 then 8 else 0) + c.tbState * 16

theorem Chip.heartbeatBytes_eq : c.heartbeatBytes = leBytes 4 c.ownClaim ++ (leBytes 4 (c.reg R.twnClaimHigh).toNat ++ (leBytes 8 c.clk ++
    (leBytes 1 c.partIndex ++ (leBytes 1 c.heartbeatFlags ++ (leBytes 1 c.heartbeatRef ++ leBytes 5 0))))) := by
  rw [Chip.heartbeatBytes]
  simp only [List.append_assoc]
  rfl

theorem Chip.heartbeatFlags_lt : c.heartbeatFlags < 256 := by
  have h : c.fld R.twnCfg 16 16 < 2 := bitsOf_lt _ 16 16
  unfold Chip.heartbeatFlags
  split <;> split <;> split <;> split <;> omega

/-- R344: what a HEARTBEAT carries. -/
theorem Chip.heartbeatBytes_says : c.heartbeatBytes.length = 24 ∧ leAt c.heartbeatBytes 0 4 = c.ownClaim ∧
    leAt c.heartbeatBytes 4 4 = (c.reg R.twnClaimHigh).toNat ∧ leAt c.heartbeatBytes 8 8 = c.clk % 2 ^ 64 ∧
    leAt c.heartbeatBytes 16 1 = c.partIndex % 256 ∧ leAt c.heartbeatBytes 17 1 = c.heartbeatFlags := by
  have w4 : ∀ w : Word, w.toNat % 256 ^ 4 = w.toNat := fun w => Nat.mod_eq_of_lt w.isLt
  rw [Chip.heartbeatBytes_eq]
  refine ⟨by simp [leBytes_length], ?_, ?_, ?_, ?_, ?_⟩
  · rw [leAt_leBytes]; exact w4 _
  · rw [leAt_skip_leBytes (by decide), leAt_leBytes]; exact w4 _
  · rw [leAt_skip_leBytes (by decide), leAt_skip_leBytes (by decide), leAt_leBytes]; rfl
  · rw [leAt_skip_leBytes (by decide), leAt_skip_leBytes (by decide), leAt_skip_leBytes (by decide), leAt_leBytes]; rfl
  · rw [leAt_skip_leBytes (by decide), leAt_skip_leBytes (by decide), leAt_skip_leBytes (by decide), leAt_skip_leBytes (by decide), leAt_leBytes]
    exact Nat.mod_eq_of_lt c.heartbeatFlags_lt

end

/-- A HEARTBEAT reads registers that no message and no event writes. -/
theorem Chip.heartbeatBytes_congr {c c1 : Chip} (hr : regsSame (bolRegs ++ eventRegs) c.regs c1.regs) (hk : c1.clk = c.clk)
    (hp : c1.partIndex = c.partIndex) : c1.heartbeatBytes = c.heartbeatBytes := by
  obtain ⟨stat, own, -, -, -, -, -, high, cfg, mui, pit⟩ := sentRegs_apart
  have flags : c1.heartbeatFlags = c.heartbeatFlags := by
    unfold Chip.heartbeatFlags Chip.leader Chip.isSealed Chip.pairState
    rw [hr.fld cfg, hr.bit stat, hr.bit stat, hr.fld stat, hr.bit pit]
  have ref : c1.heartbeatRef = c.heartbeatRef := by
    unfold Chip.heartbeatRef Chip.tbState
    rw [hr.fld mui, hr.bit mui, hr.fld mui]
  rw [c1.heartbeatBytes_eq, c.heartbeatBytes_eq, flags, ref, hr.reg high, Chip.ownClaim, Chip.ownClaim, hr.reg own, hk, hp]

/-- R342, R344: where nothing else waits, the HEARTBEAT alone leaves. -/
theorem Chip.tickOut_alone {c : Chip} (up : c.bolUp = true) (none : c.bol.waiting = []) : c.tickOut =
    (({ c with bol := { c.bol with waiting := [] } } : Chip).sendMessage 1 c.heartbeatBytes).resyncDone := by
  have queued : c.bolQueue 1 c.heartbeatBytes = { c with bol := { c.bol with waiting := [(1, c.heartbeatBytes)] } } := by
    rw [Chip.bolQueue_eq, if_pos up, none]
    rfl
  have order : inOrder [(1, c.heartbeatBytes)] = [(1, c.heartbeatBytes)] := by simp [inOrder]
  rw [Chip.tickOut, queued, Chip.sendWaiting_eq, order]
  rfl

theorem Chip.tickOut_alone_says {c : Chip} (up : c.bolUp = true) (none : c.bol.waiting = []) {d : Chip} (hd : d = c.tickOut) :
    d.tx = c.tx ++ (flitBodies 1 d.heartbeatBytes).map (fun b => .flit (c.flitOf b)) := by
  have sent := Chip.SentOut.tickOut c
  rw [← hd] at sent
  have part : d.partIndex = c.partIndex := by
    rw [hd, Chip.tickOut_alone up none]
    unfold Chip.resyncDone
    split
    · rw [Chip.event_partIndex]
      exact Chip.sendMessage_partIndex _ _ _
    · exact Chip.sendMessage_partIndex _ _ _
  have len : c.heartbeatBytes.length ≤ 56 := by rw [c.heartbeatBytes_says.1]; decide
  have tx : d.tx = (({ c with bol := { c.bol with waiting := [] } } : Chip).sendMessage 1 c.heartbeatBytes).tx := by
    rw [hd, Chip.tickOut_alone up none]
    exact (Chip.resyncDone_says _).2.2.2.2.2.2
  rw [tx, Chip.sendMessage_tx _ len, Chip.heartbeatBytes_congr sent.regs sent.clk part]
  rfl

end Sys2Proof.Machine

namespace Sys2Proof.Machine

/-! ### What a tick does in each pair state -/

section
variable {s : State} {t : Stamp}

/-- The part of clause 1: what every tick of a part with a pair state leaves. -/
theorem tick_leaves {cur : Bool} {run : Nat} (due : t % (100 * nsPerUs) = 0) (hp : s.chip.pairState ≠ 0)
    (hcur : cur = ((s.chip.at t).hbCurrent && s.chip.hbSealed)) (hrun : run = (if s.chip.twn.hbSince then s.chip.twn.hbRun + 1 else 0)) :
    Answers (.tick t) s (fun c => c.pairState = pairNext s.chip.pairState run s.chip.isSealed cur ∧
      c.ownClaim = (s.chip.twn.nextClaim.map (fun n => n % 2 ^ 32)).getD s.chip.ownClaim ∧ c.twn.nextClaim = none ∧
      c.twn.hbSince = false ∧ c.twn.hbRun = (if s.chip.pairState = 2 ∧ cur = false then 0 else run) ∧
      c.twn.lastHb = s.chip.twn.lastHb ∧ c.leader = s.chip.leader ∧ c.bol.waiting = []) :=
  answers_exec (exec_tick due hp) ((s.chip.at t).tick_cases (cur := cur) hcur hrun rfl rfl rfl).1

/-- An event stays in a queue that has only grown, with room at the end. -/
theorem mem_of_prefix_room {l m : List Ev} {e : Ev} (h : l <+: m) (hl : l.length < evqCap → e ∈ l) (room : m.length < evqCap) : e ∈ m :=
  h.subset (hl (Nat.lt_of_le_of_lt h.length_le room))

/-- R346: an entry to PAIRED is told. -/
theorem tick_pairs (due : t % (100 * nsPerUs) = 0) (hp : s.chip.pairState = 1) (hs : s.chip.isSealed = true)
    (hc : (s.chip.at t).hbCurrent = true) (hb : s.chip.hbSealed = true) : Answers (.tick t) s (fun c => c.pairState = 2 ∧ c.bit R.twnRes 31 = true ∧
      (s.chip.twn.doneRx = false → c.twn.doneTx = true) ∧
      (c.evq.length < evqCap → (⟨0x1001, .room, t, [.val 1 1, .val 1 2, .val 4 c.ownClaim,
        .val 4 (s.chip.reg R.twnClaimTwin).toNat]⟩ : Ev) ∈ c.evq)) := by
  refine answers_exec (exec_tick due (by omega)) ?_
  generalize hd : (s.chip.at t).applyClaim.countBeat = d
  generalize hm : d.movePair = m
  generalize hf : m.syncNetSeen.tellLost.checkHigher.checkYield.tickOut = f
  obtain ⟨⟨pair, own, -⟩, -, evq, mown, cases⟩ := (s.chip.at t).tick_cases (cur := true) (by rw [hc, show (s.chip.at t).hbSealed = _ from hb]; rfl) rfl
    hd.symm hm.symm hf.symm
  have next : ∀ run, pairNext (s.chip.at t).pairState run (s.chip.at t).isSealed true = 2 := fun run => by
    rw [show (s.chip.at t).pairState = _ from hp, show (s.chip.at t).isSealed = _ from hs]
    rfl
  obtain ⟨dpair, -, dclk, -, -, -, -, dtwin, dcore, -⟩ := Chip.beforeMove (s.chip.at t) hd.symm
  rw [show (s.chip.at t).pairState = 1 from hp] at dpair
  have sent := Chip.SentOut.tickOut m.syncNetSeen.tellLost.checkHigher.checkYield
  rw [hf] at sent
  obtain ⟨fpair, -, fown, -, fevq, -, -, -, -, -, fdone, -, freg⟩ := Chip.afterMove (Chip.Quiet.tick m) sent
  obtain ⟨res, -⟩ := pairRegs_apart
  obtain ⟨-, -, res', -⟩ := sentRegs_apart
  have moved : m = d.setPair 2 := by
    rcases cases with same | ⟨moved, -⟩ | ⟨-, two, -⟩
    · rw [next, fpair, same, dpair] at pair
      exact absurd pair (by decide)
    · exact moved
    · rw [show (s.chip.at t).pairState = 1 from hp] at two
      exact absurd two (by decide)
  obtain ⟨mv, core⟩ := d.setPair_paired_says
  rw [← moved] at mv core
  refine ⟨pair.trans (next _), (Chip.bit_of_reg (freg _ res res') 31).trans mv.valid, fun rx => ?_, mem_of_prefix_room fevq fun room => ?_⟩
  · have drx : d.twn.doneRx = s.chip.twn.doneRx := (congrArg Twin.doneRx dcore : _)
    have mrx : m.twn.doneRx = d.twn.doneRx := (congrArg Twin.doneRx core : _)
    exact (fdone (by rw [mrx, drx, rx])).trans (congrArg Twin.doneTx core : _)
  · have told := mv.told room
    rw [dpair, dclk, dtwin, ← mown, ← fown] at told
    exact told

/-- R346: an entry to SOLO is told. -/
theorem tick_parts (due : t % (100 * nsPerUs) = 0) (hp : s.chip.pairState = 2)
    (lost : (s.chip.at t).hbCurrent = false ∨ s.chip.hbSealed = false) :
    Answers (.tick t) s (fun c => c.pairState = 3 ∧ c.bit R.twnRes 31 = true ∧
      c.wide R.twnResSoloLo R.twnResSoloHi = shortStamp t ∧ c.twn.leftPaired = some t ∧
      (c.evq.length < evqCap → (⟨0x1001, .room, t, [.val 1 2, .val 1 3, .val 4 c.ownClaim,
        .val 4 (s.chip.reg R.twnClaimTwin).toNat]⟩ : Ev) ∈ c.evq)) := by
  refine answers_exec (exec_tick due (by omega)) ?_
  generalize hd : (s.chip.at t).applyClaim.countBeat = d
  generalize hm : d.movePair = m
  generalize hf : m.syncNetSeen.tellLost.checkHigher.checkYield.tickOut = f
  have gone : false = ((s.chip.at t).hbCurrent && (s.chip.at t).hbSealed) := by
    rw [show (s.chip.at t).hbSealed = s.chip.hbSealed from rfl]
    rcases lost with h | h <;> rw [h]
    · rfl
    · rw [Bool.and_false]
  obtain ⟨⟨pair, -⟩, -, -, mown, cases⟩ := (s.chip.at t).tick_cases (cur := false) gone rfl hd.symm hm.symm hf.symm
  have next : ∀ run r, pairNext (s.chip.at t).pairState run r false = 3 := fun run r => by
    rw [show (s.chip.at t).pairState = _ from hp]
    rfl
  obtain ⟨dpair, -, dclk, -, -, -, -, dtwin, -⟩ := Chip.beforeMove (s.chip.at t) hd.symm
  rw [show (s.chip.at t).pairState = 2 from hp] at dpair
  have sent := Chip.SentOut.tickOut m.syncNetSeen.tellLost.checkHigher.checkYield
  rw [hf] at sent
  obtain ⟨fpair, -, fown, -, fevq, -, -, -, -, fleft, -, -, freg⟩ := Chip.afterMove (Chip.Quiet.tick m) sent
  obtain ⟨res, lo, hi, -⟩ := pairRegs_apart
  obtain ⟨-, -, res', lo', hi', -⟩ := sentRegs_apart
  have moved : m = d.setPair 3 := by
    rcases cases with same | ⟨-, two⟩ | ⟨moved, -⟩
    · rw [next, fpair, same, dpair] at pair
      exact absurd pair (by decide)
    · rw [next] at two
      exact absurd two (by decide)
    · exact moved
  obtain ⟨mv, core, wide⟩ := d.setPair_solo_says
  rw [← moved] at mv core wide
  rw [dclk] at core wide
  refine ⟨pair.trans (next _ _), (Chip.bit_of_reg (freg _ res res') 31).trans mv.valid, ?_, fleft.trans (congrArg Twin.leftPaired core : _),
    mem_of_prefix_room fevq fun room => ?_⟩
  · rw [Chip.wide, freg _ lo lo', freg _ hi hi']
    exact wide
  · have told := mv.told room
    rw [dpair, dclk, dtwin, ← mown, ← fown] at told
    exact told

/-- R348: a raised claim takes effect at the tick, and is told. -/
theorem tick_claims {claim : Nat} (due : t % (100 * nsPerUs) = 0) (hp : s.chip.pairState ≠ 0) (hn : s.chip.twn.nextClaim = some claim) :
    Answers (.tick t) s (fun c => c.ownClaim = claim % 2 ^ 32 ∧ c.twn.nextClaim = none ∧ c.bit R.twnRes 31 = true ∧
      c.wide R.twnResClaimLo R.twnResClaimHi = shortStamp t ∧
      (c.evq.length < evqCap → (⟨0x1006, .room, t, [.val 4 s.chip.ownClaim, .val 4 claim,
        .val 1 (if s.chip.leader then 1 else 0), .val 1 2]⟩ : Ev) ∈ c.evq)) := by
  refine answers_exec (exec_tick due hp) ?_
  obtain ⟨-, valid, wide, told⟩ := Chip.applyClaim_some_says (c := s.chip.at t) hn
  generalize hd : (s.chip.at t).applyClaim.countBeat = d
  have dregs : d.regs = (s.chip.at t).applyClaim.regs := by rw [← hd]; rfl
  have devq : d.evq = (s.chip.at t).applyClaim.evq := by rw [← hd]; rfl
  generalize hm : d.movePair = m
  generalize hf : m.syncNetSeen.tellLost.checkHigher.checkYield.tickOut = f
  obtain ⟨⟨-, own, next, -⟩, mevq, fevq, -, cases⟩ := (s.chip.at t).tick_cases rfl rfl hd.symm hm.symm hf.symm
  have sent := Chip.SentOut.tickOut m.syncNetSeen.tellLost.checkHigher.checkYield
  rw [hf] at sent
  obtain ⟨-, -, -, -, -, -, -, -, -, -, -, -, freg⟩ := Chip.afterMove (Chip.Quiet.tick m) sent
  obtain ⟨res, -, -, -, -, -, -, -, -, plo, phi, -⟩ := pairRegs_apart
  obtain ⟨-, clo, chi, -⟩ := claimRegs_apart
  obtain ⟨-, -, res', -, -, lo', hi', -⟩ := sentRegs_apart
  have moved : regsSame pairRegs d.regs m.regs ∧ (d.bit R.twnRes 31 = true → m.bit R.twnRes 31 = true) := by
    rcases cases with same | ⟨moved, -⟩ | ⟨moved, -⟩
    · rw [same]; exact ⟨regsSame.refl, id⟩
    · rw [moved]; exact ⟨d.setPair_paired_says.1.regs, fun _ => d.setPair_paired_says.1.valid⟩
    · rw [moved]; exact ⟨d.setPair_solo_says.1.regs, fun _ => d.setPair_solo_says.1.valid⟩
  have dreg : ∀ a, d.reg a = (s.chip.at t).applyClaim.reg a := fun a => by rw [Chip.reg, dregs, Chip.reg]
  refine ⟨?_, next, ?_, ?_, mem_of_prefix_room (mevq.trans fevq) fun room => ?_⟩
  · rw [own, show (s.chip.at t).twn.nextClaim = _ from hn]
    rfl
  · rw [Chip.bit_of_reg (freg _ res res') 31]
    exact moved.2 ((Chip.bit_of_reg (dreg _) 31).trans valid)
  · rw [Chip.wide, freg _ clo lo', freg _ chi hi', moved.1.reg plo, moved.1.reg phi, dreg, dreg]
    exact wide
  · rw [devq] at room ⊢
    exact told room

/-- R342, R344: a tick that changes no pair state and finds nothing waiting sends the HEARTBEAT alone. -/
theorem tick_sends (due : t % (100 * nsPerUs) = 0) (hp : s.chip.pairState = 1 ∨ 3 < s.chip.pairState)
    (hs : s.chip.isSealed = false ∨ 3 < s.chip.pairState) (up : s.chip.bolUp = true) (none : s.chip.bol.waiting = []) :
    Answers (.tick t) s (fun c => c.tx = s.chip.tx ++ (flitBodies 1 c.heartbeatBytes).map (fun b => .flit (s.chip.flitOf b))) := by
  refine answers_exec (exec_tick due (by omega)) ?_
  generalize hd : (s.chip.at t).applyClaim.countBeat = d
  generalize hm : d.movePair = m
  obtain ⟨-, -, -, -, cases⟩ := (s.chip.at t).tick_cases rfl rfl hd.symm hm.symm rfl
  obtain ⟨-, -, -, -, -, -, -, -, -, -, dbol, dtx, dchk, dregs⟩ := Chip.beforeMove (s.chip.at t) hd.symm
  have stay : ∀ run cur, pairNext s.chip.pairState run s.chip.isSealed cur ≠ 2 := fun run cur => by
    unfold pairNext
    rcases hs with h | h
    · rw [h, Bool.false_and, if_neg Bool.false_ne_true]
      split_ifs <;> omega
    · rw [if_neg (by omega), if_neg (by omega), if_neg (by omega)]
      omega
  have same : m = d := by
    rcases cases with same | ⟨-, two⟩ | ⟨-, two, -⟩
    · exact same
    · exact absurd two (stay _ _)
    · rw [show (s.chip.at t).pairState = s.chip.pairState from rfl] at two
      omega
  rw [same]
  have quiet := Chip.Quiet.tick d
  generalize d.syncNetSeen.tellLost.checkHigher.checkYield = e at quiet ⊢
  obtain ⟨-, -, -, -, -, -, -, -, -, -, -, -, -, -, -, -, stat, cfg⟩ := claimRegs_apart
  have up' : e.bolUp = true := by rw [quiet.link, ← up]; exact dregs.bit stat 31
  have flit : ∀ b, e.flitOf b = s.chip.flitOf b := fun b =>
    (quiet.flit b).trans (Chip.flitOf_of_unit (dregs.reg cfg) (by rw [Chip.chkUnit, dchk]; rfl) b)
  have said := Chip.tickOut_alone_says up' (by rw [quiet.bol, dbol]; exact none) (d := e.tickOut) rfl
  rw [said, quiet.tx, dtx]
  simp only [flit]
  rfl

end

end Sys2Proof.Machine

namespace Sys2Proof.Machine

/-! ### Heartbeats received -/

section
variable (c : Chip)

theorem Chip.failInput_failing (k j : Nat) (cause x : Nat) : x ∈ ((c.failInput k cause).refIn j).failing ↔
    x ∈ (c.refIn j).failing ∨ j = k ∧ x = cause := by
  by_cases h : j = k
  · subst h
    rw [Chip.failInput, Chip.refIn_modRefIn_same]
    by_cases had : (c.refIn j).failing.contains cause = true
    · simp only [if_pos had, true_and]
      exact ⟨.inl, fun h => h.elim id (fun e => e ▸ by simpa using had)⟩
    · simp only [if_neg had]
      simp
  · rw [Chip.failInput, Chip.refIn_modRefIn_other _ _ _ h]
    simp [h]

theorem Chip.passInput_failing (k j : Nat) (cause x : Nat) : x ∈ ((c.passInput k cause).refIn j).failing ↔
    x ∈ (c.refIn j).failing ∧ ¬ (j = k ∧ x = cause) := by
  by_cases h : j = k
  · subst h
    rw [Chip.passInput, Chip.refIn_modRefIn_same]
    simp
  · rw [Chip.passInput, Chip.refIn_modRefIn_other _ _ _ h]
    simp [h]

/-- A test that passes or fails. -/
def Chip.testInput (k cause : Nat) (pass : Bool) : Chip := if pass then c.passInput k cause else c.failInput k cause

theorem Chip.testInput_failing {k cause : Nat} {pass : Bool} (x : Nat) : x ∈ ((c.testInput k cause pass).refIn k).failing ↔
    if x = cause then pass = false else x ∈ (c.refIn k).failing := by
  cases pass
  · rw [Chip.testInput, if_neg Bool.false_ne_true, Chip.failInput_failing]
    by_cases h : x = cause <;> simp [h]
  · rw [Chip.testInput, if_pos rfl, Chip.passInput_failing]
    by_cases h : x = cause <;> simp [h]

theorem Chip.OneInput.testInput (k cause : Nat) (pass : Bool) : Chip.OneInput k c (c.testInput k cause pass) := by
  unfold Chip.testInput
  split
  · exact .passInput c k cause
  · exact .failInput c k cause

/-- R345: what a HEARTBEAT leaves of the twin's presence. -/
def Twin.beat (x : Twin) (now : Stamp) (flags : Nat) : Twin :=
  { x with lastHb := some now, hbFlags := flags, hbSince := x.hbSince || flags / 8 % 2 == 1 }

/-- R345: the twin's claims in a HEARTBEAT. -/
def Chip.noteBeat (l : List Byte) : Chip :=
  ((({ c with twn := c.twn.beat c.clk (leAt l 17 1) } : Chip).setNat R.twnClaimTwin (leAt l 0 4)).noteClaim (leAt l 0 4)).noteClaim (leAt l 4 4)

end

theorem exec_heartbeatReceive {s : State} {t : Stamp} {l : List Byte} (hl : l.length = 24) (on : s.chip.twinOn = true) :
    exec (.heartbeatReceive t l) s = .next { s with chip := ((((s.chip.at t).noteBeat l).testInput 2 9
      (!(leAt l 18 1 / 8 % 2 == 1 && leAt l 18 1 % 8 == 2))).testInput 2 8 (leAt l 18 1 / 16 % 8 == tbTethered &&
        (((s.chip.at t).noteBeat l).testInput 2 9 (!(leAt l 18 1 / 8 % 2 == 1 && leAt l 18 1 % 8 == 2))).bolUp)).checkYield } := by
  rw [show exec (.heartbeatReceive t l) s = execHeartbeatReceive t l s from rfl, execHeartbeatReceive, runIf_of _ _ _ (decide_eq_true hl)]
  dsimp only
  rw [if_neg (by rw [show (s.chip.at t).twinOn = _ from on]; decide)]
  unfold Chip.testInput
  cases (leAt l 18 1 / 8 % 2 == 1 && leAt l 18 1 % 8 == 2) <;> rfl

theorem beatRegs_apart : R.twnClaimTwin ∉ quietRegs ∧ R.twnClaimOwn ∉ quietRegs ∧ R.twnClaimOwn ≠ R.twnClaimTwin ∧ R.twnStat ≠ R.twnClaimTwin ∧
    R.bolStat ∉ quietRegs ∧ R.bolStat ≠ R.twnClaimTwin ∧ R.twnClaimHigh ≠ R.twnClaimTwin ∧ R.twnClaimHigh ∉ R.twnStat :: eventRegs ∧
    R.bolStat ∉ eventRegs := by decide +kernel

/-- A HEARTBEAT's claims are noted. -/
theorem Chip.checkHigher_regs (c : Chip) : regsSame (R.twnStat :: eventRegs) c.regs c.checkHigher.regs := by
  unfold Chip.checkHigher
  extract_lets own high d
  split
  · have dr : regsSame (R.twnStat :: eventRegs) c.regs d.regs := by simp [d]
    split
    · exact dr.trans (by simp)
    · exact dr
  · exact regsSame.refl

theorem Chip.noteClaim_high (c : Chip) (claim : Nat) (h : claim < 2 ^ 32) :
    (c.noteClaim claim).reg R.twnClaimHigh = BitVec.ofNat 32 (max (c.reg R.twnClaimHigh).toNat claim) ∧
      ((c.noteClaim claim).reg R.twnClaimHigh).toNat = max (c.reg R.twnClaimHigh).toNat claim := by
  obtain ⟨-, -, -, -, -, -, -, high, -⟩ := beatRegs_apart
  have eq : (c.noteClaim claim).reg R.twnClaimHigh = BitVec.ofNat 32 (max (c.reg R.twnClaimHigh).toNat claim) := by
    rw [Chip.noteClaim, (Chip.checkHigher_regs _).reg high, Chip.setNat_reg, if_pos rfl, Nat.max_comm]
  have lt := (c.reg R.twnClaimHigh).isLt
  exact ⟨eq, by rw [eq, BitVec.toNat_ofNat, Nat.mod_eq_of_lt (by omega)]⟩

/-- What the notes of a HEARTBEAT leave. -/
theorem Chip.noteBeat_says (c : Chip) (l : List Byte) {d : Chip} (hd : d = c.noteBeat l) :
    regsSame ([R.twnClaimTwin, R.twnClaimHigh, R.twnStat] ++ eventRegs) c.regs d.regs ∧ d.twn.core = (c.twn.beat c.clk (leAt l 17 1)).core ∧
      d.pairState = c.pairState ∧ d.leader = c.leader ∧ d.reg R.twnClaimTwin = BitVec.ofNat 32 (leAt l 0 4) ∧
      d.reg R.twnClaimHigh = BitVec.ofNat 32 (max (max (c.reg R.twnClaimHigh).toNat (leAt l 0 4)) (leAt l 4 4)) ∧ d.mui = c.mui ∧
      d.dram = c.dram ∧ d.tbw = c.tbw ∧ d.bolUp = c.bolUp := by
  obtain ⟨twin, own, ownTwin, statTwin, bol, bolTwin, highTwin, -, -⟩ := beatRegs_apart
  rw [Chip.noteBeat] at hd
  generalize ha : ({ c with twn := c.twn.beat c.clk (leAt l 17 1) } : Chip) = a at hd
  have aregs : a.regs = c.regs := by rw [← ha]
  have areg : ∀ x, a.reg x = c.reg x := fun x => by rw [Chip.reg, aregs, Chip.reg]
  have first := Chip.Quiet.noteClaim (a.setNat R.twnClaimTwin (leAt l 0 4)) (leAt l 0 4)
  obtain ⟨-, high1⟩ := Chip.noteClaim_high (a.setNat R.twnClaimTwin (leAt l 0 4)) (leAt l 0 4) (leAt_lt l 0 4)
  have second := Chip.Quiet.noteClaim ((a.setNat R.twnClaimTwin (leAt l 0 4)).noteClaim (leAt l 0 4)) (leAt l 4 4)
  obtain ⟨high2, -⟩ := Chip.noteClaim_high ((a.setNat R.twnClaimTwin (leAt l 0 4)).noteClaim (leAt l 0 4)) (leAt l 4 4) (leAt_lt l 4 4)
  have both := first.trans second
  rw [← hd] at both high2
  rw [high1, Chip.setNat_reg, if_neg highTwin, areg] at high2
  refine ⟨?_, both.core.trans ?_, both.pair.trans ?_, both.lead.trans ?_, ?_, high2, both.mui.trans ?_, both.dram.trans ?_, both.tbw.trans ?_,
    both.link.trans ?_⟩
  · rw [← aregs]
    refine regsSame.trans (by simp) (both.regs.mono (fun x hx => ?_))
    rw [mem_quietRegs] at hx
    simp only [List.mem_append, List.mem_cons, List.not_mem_nil, or_false, mem_eventRegs]
    tauto
  · rw [← ha]; rfl
  · exact (Chip.setNat_fld_other a _ statTwin 2 0).trans (Chip.fld_of_reg (areg _) 2 0)
  · exact (Chip.setNat_bit_other a _ statTwin 4).trans (Chip.bit_of_reg (areg _) 4)
  · rw [both.regs.reg twin, Chip.setNat_reg, if_pos rfl]
  · rw [← ha]; rfl
  · rw [← ha]; rfl
  · rw [← ha]; rfl
  · exact (Chip.setNat_bit_other a _ bolTwin 31).trans (Chip.bit_of_reg (areg _) 31)

/-- What a test of input 2 leaves of the rest. -/
theorem Chip.OneInput.twin {k : Nat} {c d : Chip} (h : Chip.OneInput k c d) : d.pairState = c.pairState ∧ d.leader = c.leader ∧ d.bolUp = c.bolUp := by
  obtain ⟨stat, -⟩ := sentRegs_apart
  obtain ⟨-, -, -, -, -, -, -, -, bol⟩ := beatRegs_apart
  rw [List.mem_append, not_or] at stat
  exact ⟨h.regs.fld stat.2 2 0, h.regs.bit stat.2 4, h.regs.bit bol 31⟩

theorem Chip.checkYield_mui (c : Chip) (k : Nat) : c.checkYield.refIn k = c.refIn k := Chip.refIn_of_mui (Chip.Quiet.checkYield c).mui k

theorem Chip.checkYield_regs (c : Chip) : regsSame eventRegs c.regs c.checkYield.regs := by
  unfold Chip.checkYield
  split
  · split
    · exact regsSame.refl
    · simp
  · exact regsSame.refl

/-- R338, R344, R345, R94: what a HEARTBEAT leaves. -/
theorem heartbeat_leaves {s : State} {t : Stamp} {l : List Byte} (hl : l.length = 24) (on : s.chip.twinOn = true) :
    Answers (.heartbeatReceive t l) s (fun c => c.twn.lastHb = some t ∧ c.twn.hbFlags = leAt l 17 1 ∧
      c.twn.hbSince = (s.chip.twn.hbSince || leAt l 17 1 / 8 % 2 == 1) ∧
      c.reg R.twnClaimTwin = BitVec.ofNat 32 (leAt l 0 4) ∧
      c.reg R.twnClaimHigh = BitVec.ofNat 32 (max (max (s.chip.reg R.twnClaimHigh).toNat (leAt l 0 4)) (leAt l 4 4)) ∧
      c.reg R.twnClaimOwn = s.chip.reg R.twnClaimOwn ∧ c.pairState = s.chip.pairState ∧ c.leader = s.chip.leader ∧
      (9 ∈ (c.refIn 2).failing ↔ leAt l 18 1 / 8 % 2 = 1 ∧ leAt l 18 1 % 8 = 2) ∧
      (8 ∈ (c.refIn 2).failing ↔ leAt l 18 1 / 16 % 8 ≠ tbTethered ∨ s.chip.bolUp = false) ∧
      (∀ k, k < 8 → k ≠ 2 → c.refIn k = s.chip.refIn k) ∧
      s.chip.writesOnly c ([R.twnClaimTwin, R.twnClaimHigh, R.twnStat] ++ eventRegs)) := by
  refine answers_exec (exec_heartbeatReceive hl on) ?_
  generalize hd : (s.chip.at t).noteBeat l = d
  obtain ⟨dregs, dcore, dpair, dlead, dtwin, dhigh, dmui, ddram, dtbw, dup⟩ := (s.chip.at t).noteBeat_says l hd.symm
  have one := Chip.OneInput.testInput d 2 9 (!(leAt l 18 1 / 8 % 2 == 1 && leAt l 18 1 % 8 == 2))
  have nine : 9 ∈ ((d.testInput 2 9 (!(leAt l 18 1 / 8 % 2 == 1 && leAt l 18 1 % 8 == 2))).refIn 2).failing ↔
      leAt l 18 1 / 8 % 2 = 1 ∧ leAt l 18 1 % 8 = 2 := by
    rw [Chip.testInput_failing, if_pos rfl]
    simp
  generalize d.testInput 2 9 (!(leAt l 18 1 / 8 % 2 == 1 && leAt l 18 1 % 8 == 2)) = e at one nine ⊢
  have two := Chip.OneInput.testInput e 2 8 (leAt l 18 1 / 16 % 8 == tbTethered && e.bolUp)
  have eight := fun x => e.testInput_failing (k := 2) (cause := 8) (pass := leAt l 18 1 / 16 % 8 == tbTethered && e.bolUp) x
  generalize e.testInput 2 8 (leAt l 18 1 / 16 % 8 == tbTethered && e.bolUp) = f at two eight ⊢
  have both := one.trans two
  obtain ⟨bpair, blead, -⟩ := both.twin
  have up : e.bolUp = s.chip.bolUp := one.twin.2.2.trans dup
  have end_ := Chip.Quiet.checkYield f
  have regs : regsSame eventRegs d.regs f.checkYield.regs := both.regs.trans f.checkYield_regs
  obtain ⟨-, own, -, -, -, -, -, high, -⟩ := beatRegs_apart
  obtain ⟨-, -, -, -, -, -, -, -, -, -, -, -, -, -, ctwin, -⟩ := claimRegs_apart
  have apart : R.twnClaimTwin ∉ eventRegs ∧ R.twnClaimOwn ∉ [R.twnClaimTwin, R.twnClaimHigh, R.twnStat] ++ eventRegs ∧ R.twnClaimHigh ∉ eventRegs ∧
      R.twnClaimOwn ∉ eventRegs := by decide +kernel
  have core : f.checkYield.twn.core = ((s.chip.at t).twn.beat t (leAt l 17 1)).core := by rw [end_.core, both.twn, dcore]; rfl
  refine ⟨(congrArg Twin.lastHb core : _), (congrArg Twin.hbFlags core : _), (congrArg Twin.hbSince core : _), ?_, ?_, ?_, ?_, ?_, ?_, ?_, fun k _ hk => ?_, ?_⟩
  · rw [regs.reg apart.1, dtwin]
  · rw [regs.reg apart.2.2.1, dhigh]; rfl
  · rw [regs.reg apart.2.2.2, dregs.reg apart.2.1]; rfl
  · rw [end_.pair, bpair, dpair]; rfl
  · rw [end_.lead, blead, dlead]; rfl
  · rw [Chip.checkYield_mui, eight 9, if_neg (by decide)]; exact nine
  · rw [Chip.checkYield_mui, eight 8, if_pos rfl, up, Bool.and_eq_false_iff, beq_eq_false_iff_ne]
  · rw [Chip.checkYield_mui, both.others k hk, Chip.refIn_of_mui dmui]; rfl
  · refine Chip.writesOnly_of (dregs.trans (regs.mono (fun _ => List.mem_append_right _))) ?_ ?_
    · rw [end_.dram, both.dram, ddram]; rfl
    · rw [end_.tbw, both.tbw, dtbw]; rfl

end Sys2Proof.Machine

namespace Sys2Proof.Machine

/-! ### Resync records received (R356) -/

/-- A list of `n` bytes of DRAM reads the same where those bytes are the same. -/
theorem Chip.dramBytes_congr {c c1 : Chip} (hr : c1.reg R.dmcCfg = c.reg R.dmcCfg) {a n : Nat}
    (hd : dramBase ≤ a → ∀ o, a - dramBase ≤ o → o < a - dramBase + n → mapGet dramDefault c1.dram o = mapGet dramDefault c.dram o) :
    c1.dramBytes a n = c.dramBytes a n := by
  rw [Chip.dramBytes, Chip.dramBytes, Chip.inDram_congr hr]
  by_cases inside : c.inDram a n = true
  · rw [if_pos inside, if_pos inside]
    refine List.map_congr_left (fun k hk => hd (Chip.base_le_of_inDram inside) _ (by omega) ?_)
    have := List.mem_range.mp hk
    omega
  · rw [if_neg inside, if_neg inside]

/-- A write of DRAM beside bytes leaves them. -/
theorem Chip.dramBytes_dramWrite_apart {c : Chip} {a b n : Nat} {l : List Byte} (h : a + l.length ≤ b ∨ b + n ≤ a) :
    (c.dramWrite a l).dramBytes b n = c.dramBytes b n := by
  refine Chip.dramBytes_congr (Chip.dramWrite_reg _ _ _ _) (fun h0 o h1 h2 => ?_)
  by_cases inside : c.inDram a l.length = true
  · have ha := Chip.base_le_of_inDram inside
    rw [Chip.dramWrite_byte _ _ _ _ inside, if_neg (by omega)]
  · rw [Chip.dramWrite_outside _ _ _ (by simpa using inside)]

/-- Bytes written to DRAM read back. -/
theorem Chip.dramBytes_dramWrite_same {c : Chip} {a : Nat} {l : List Byte} (h : c.inDram a l.length = true) :
    (c.dramWrite a l).dramBytes a l.length = l := by
  rw [Chip.dramBytes, Chip.inDram_congr (Chip.dramWrite_reg _ _ _ _), if_pos h, Chip.dramWrite, if_pos h]
  exact memRead_memWrite dramDefault l c.dram (a - dramBase)

/-- The place of the next journal record (R240). -/
def Chip.journalPlace (c : Chip) : Nat :=
  c.base40 R.pntJrnLo R.pntJrnHi + 32 * (c.wide R.pntJcountLo R.pntJcountHi % 2 ^ c.fld R.pntJrnSize 4 0)

/-- The bytes of a journal record (R240). -/
def PointRec.journalBytes (r : PointRec) (index cause : Nat) (arrival : Stamp) : List Byte :=
  leBytes 4 (index + cause) ++ leBytes 2 r.quality ++ leBytes 1 r.feeder ++ [0] ++ leBytes 8 r.value ++ leBytes 8 r.source ++ leBytes 8 arrival

theorem PointRec.journalBytes_length (r : PointRec) (index cause : Nat) (arrival : Stamp) : (r.journalBytes index cause arrival).length = 32 := by
  simp [PointRec.journalBytes, leBytes_length]

theorem Chip.journal_eq (c : Chip) (index cause : Nat) (r : PointRec) (arrival : Stamp) : c.journal index cause r arrival =
    (c.dramWrite c.journalPlace (r.journalBytes index cause arrival)).setWide R.pntJcountLo R.pntJcountHi
      ((c.wide R.pntJcountLo R.pntJcountHi + 1) % 2 ^ 64) := rfl

/-- R356: a record of the set is newer than the part's own. -/
def Chip.recordNewer (c : Chip) (i : Nat) (b : List Byte) : Prop :=
  0 < stampGap (leAt b 16 8) (c.pointRec i).arrival ∨ stampGap (leAt b 16 8) (c.pointRec i).arrival = 0 ∧
    leNat (c.dramBytes (c.pntTab + 32 * i) 32) < leNat b

/-- R356: a record replaced is counted for event 0x100A. -/
def Chip.countReplaced (c : Chip) : Chip := { c with twn := { c.twn with replaced := c.twn.replaced + 1 } }

section
variable (c : Chip)

@[simp] theorem Chip.countReplaced_regs : c.countReplaced.regs = c.regs := rfl
@[simp] theorem Chip.countReplaced_reg (a : Nat) : c.countReplaced.reg a = c.reg a := rfl
@[simp] theorem Chip.countReplaced_evq : c.countReplaced.evq = c.evq := rfl
@[simp] theorem Chip.countReplaced_dram : c.countReplaced.dram = c.dram := rfl
@[simp] theorem Chip.countReplaced_twn : c.countReplaced.twn = { c.twn with replaced := c.twn.replaced + 1 } := rfl

end

/-- R356: a record replaced. -/
def Chip.replaceRecord (c : Chip) (i : Nat) (b : List Byte) : Chip :=
  ((c.dramWrite (c.pntTab + 32 * i) b).bump (R.twnCnt 8)).countReplaced

section
variable {c : Chip}

theorem Chip.recordEntry_eq (e : List Byte) : c.recordEntry e =
    if c.fld R.pntCtl 23 0 ≤ leAt e 0 4 then c
    else if (decide (0 < stampGap (leAt ((e.drop 4).take 32) 16 8) (c.pointRec (leAt e 0 4)).arrival) ||
        (stampGap (leAt ((e.drop 4).take 32) 16 8) (c.pointRec (leAt e 0 4)).arrival == 0 &&
          decide (leNat (c.dramBytes (c.pntTab + 32 * leAt e 0 4) 32) < leNat ((e.drop 4).take 32)))) = true then
      (c.replaceRecord (leAt e 0 4) ((e.drop 4).take 32)).journal (leAt e 0 4)
        (changeCause (c.pointRec (leAt e 0 4)) (pointRecOf ((e.drop 4).take 32))) (pointRecOf ((e.drop 4).take 32)) (leAt ((e.drop 4).take 32) 16 8)
    else c := by
  rfl

theorem recordNewer_iff (i : Nat) (b : List Byte) : (decide (0 < stampGap (leAt b 16 8) (c.pointRec i).arrival) ||
    (stampGap (leAt b 16 8) (c.pointRec i).arrival == 0 && decide (leNat (c.dramBytes (c.pntTab + 32 * i) 32) < leNat b))) = true ↔
    c.recordNewer i b := by
  simp [Chip.recordNewer]

/-- A record that is not newer, or beyond the table, is discarded. -/
theorem Chip.recordEntry_old {e : List Byte} (h : c.fld R.pntCtl 23 0 ≤ leAt e 0 4 ∨ ¬ c.recordNewer (leAt e 0 4) ((e.drop 4).take 32)) :
    c.recordEntry e = c := by
  rw [Chip.recordEntry_eq]
  by_cases beyond : c.fld R.pntCtl 23 0 ≤ leAt e 0 4
  · rw [if_pos beyond]
  · rw [if_neg beyond, if_neg (fun new => (h.resolve_left beyond) ((recordNewer_iff _ _).mp new))]

/-- A newer record replaces the part's own, is counted and journalled. -/
theorem Chip.recordEntry_new {e : List Byte} (hi : leAt e 0 4 < c.fld R.pntCtl 23 0) (new : c.recordNewer (leAt e 0 4) ((e.drop 4).take 32)) :
    ∃ cause r arrival, c.recordEntry e = (c.replaceRecord (leAt e 0 4) ((e.drop 4).take 32)).journal (leAt e 0 4) cause r arrival := by
  rw [Chip.recordEntry_eq, if_neg (by omega), if_pos ((recordNewer_iff _ _).mpr new)]
  exact ⟨_, _, _, rfl⟩

theorem journalRegs_apart : R.twnCnt 8 ≠ R.pntJcountLo ∧ R.twnCnt 8 ≠ R.pntJcountHi ∧ R.pntJcountLo ≠ R.pntJcountHi ∧
    R.pntJrnLo ≠ R.twnCnt 8 ∧ R.pntJrnHi ≠ R.twnCnt 8 ∧ R.pntJrnSize ≠ R.twnCnt 8 ∧
    R.dmcCfg ∉ [R.twnCnt 8, R.pntJcountLo, R.pntJcountHi] := by decide +kernel

theorem Chip.replaceRecord_reg (c : Chip) (i : Nat) (b : List Byte) {a : Nat} (h : a ≠ R.twnCnt 8) : (c.replaceRecord i b).reg a = c.reg a := by
  rw [Chip.replaceRecord, Chip.countReplaced_reg, Chip.bump_reg_other _ h, Chip.dramWrite_reg]

theorem Chip.replaceRecord_count (c : Chip) (i : Nat) (b : List Byte) : (c.replaceRecord i b).reg (R.twnCnt 8) = (c.bump (R.twnCnt 8)).reg (R.twnCnt 8) := by
  rw [Chip.replaceRecord, Chip.countReplaced_reg, Chip.bump_reg, Chip.bump_reg, Chip.dramWrite_reg]

/-- What replacing a record leaves. -/
theorem Chip.replaced_says (c : Chip) (i : Nat) (b : List Byte) (cause : Nat) (r : PointRec) (arrival : Stamp) {d : Chip}
    (hd : d = (c.replaceRecord i b).journal i cause r arrival) : d.twn = { c.twn with replaced := c.twn.replaced + 1 } ∧
      d.reg (R.twnCnt 8) = (c.bump (R.twnCnt 8)).reg (R.twnCnt 8) ∧
      d.wide R.pntJcountLo R.pntJcountHi = (c.wide R.pntJcountLo R.pntJcountHi + 1) % 2 ^ 64 ∧
      c.regsOnly d [R.twnCnt 8, R.pntJcountLo, R.pntJcountHi] ∧ d.evq = c.evq := by
  obtain ⟨nlo, nhi, ne, -⟩ := journalRegs_apart
  have wide : (c.replaceRecord i b).wide R.pntJcountLo R.pntJcountHi = c.wide R.pntJcountLo R.pntJcountHi := by
    rw [Chip.wide, Chip.replaceRecord_reg c i b nlo.symm, Chip.replaceRecord_reg c i b nhi.symm, Chip.wide]
  rw [Chip.journal_eq, wide] at hd
  refine ⟨?_, ?_, ?_, Chip.regsOnly_iff.mpr ?_, ?_⟩
  · rw [hd, Chip.setWide_twn, Chip.dramWrite_twn, Chip.replaceRecord, Chip.countReplaced_twn, Chip.bump_twn, Chip.dramWrite_twn]
  · rw [hd, Chip.setWide_reg_other _ _ nlo nhi, Chip.dramWrite_reg, Chip.replaceRecord_count]
  · rw [hd]
    exact Chip.setWide_wide _ _ ne (Nat.mod_lt _ (by decide))
  · rw [hd]
    simp [Chip.replaceRecord]
  · rw [hd, Chip.setWide_evq, Chip.dramWrite_evq, Chip.replaceRecord, Chip.countReplaced_evq, Chip.bump_evq, Chip.dramWrite_evq]

end

end Sys2Proof.Machine

namespace Sys2Proof.Machine

/-- R338: a RECORD message with one record. -/
def recordMessage (i : Nat) (b : List Byte) : List Byte := [1, 0, 0, 0] ++ leBytes 4 i ++ b

section
variable {i : Nat} {b : List Byte}

theorem recordMessage_eq : recordMessage i b = 1 :: 0 :: 0 :: 0 :: (leBytes 4 i ++ b) := rfl

theorem recordMessage_head : leAt (recordMessage i b) 0 2 = 1 ∧ leAt (recordMessage i b) 2 2 = 0 := ⟨rfl, rfl⟩

theorem recordMessage_length (hb : b.length = 32) : (recordMessage i b).length = 4 + 36 * leAt (recordMessage i b) 0 2 := by
  rw [recordMessage_head.1, recordMessage_eq]
  simp [leBytes_length, hb]

theorem recordMessage_entry (hb : b.length = 32) : ((recordMessage i b).drop (4 + 36 * 0)).take 36 = leBytes 4 i ++ b := by
  rw [recordMessage_eq, show 4 + 36 * 0 = 4 from rfl]
  simp only [List.drop_succ_cons, List.drop_zero]
  exact List.take_of_length_le (by simp [leBytes_length, hb])

theorem entry_bytes (hb : b.length = 32) : ((leBytes 4 i ++ b).drop 4).take 32 = b := by
  have len := leBytes_length 4 i
  rw [List.drop_append_of_le_length (by omega), List.drop_of_length_le (by omega), List.nil_append]
  exact List.take_of_length_le (by omega)

theorem entry_index (hi : i < 2 ^ 32) : leAt (leBytes 4 i ++ b) 0 4 = i := by
  rw [leAt_leBytes]
  exact Nat.mod_eq_of_lt hi

end

section
variable {s : State} {t : Stamp}

/-- R356: the records of a message. -/
def Chip.takeRecords (c : Chip) (m : List Byte) : Chip := forN (leAt m 0 2) (fun k c => c.recordEntry ((m.drop (4 + 36 * k)).take 36)) c

/-- R356: the twin's last record has come. -/
def Chip.takeDone (c : Chip) : Chip := ({ c with twn := { c.twn with doneRx := true } } : Chip).resyncDone

theorem exec_recordReceive {m : List Byte} (hl : m.length = 4 + 36 * leAt m 0 2) (hn : leAt m 0 2 ≤ 32) : exec (.recordReceive t m) s =
    .next { s with chip := (if !s.chip.twinOn then s.chip.at t else
      if leAt m 2 2 % 2 == 1 then ((s.chip.at t).takeRecords m).takeDone else (s.chip.at t).takeRecords m) } := by
  rw [show exec (.recordReceive t m) s = execRecordReceive t m s from rfl, execRecordReceive,
    runIf_of _ _ _ (by rw [Bool.and_eq_true]; exact ⟨decide_eq_true hl, decide_eq_true hn⟩)]
  rfl

theorem exec_recordReceive_off {m : List Byte} (hl : m.length = 4 + 36 * leAt m 0 2) (hn : leAt m 0 2 ≤ 32) (off : s.chip.twinOn = false) :
    exec (.recordReceive t m) s = .next { s with chip := s.chip.at t } := by
  rw [exec_recordReceive hl hn, off]
  rfl

theorem exec_recordReceive_one {i : Nat} {b : List Byte} (hb : b.length = 32) (on : s.chip.twinOn = true) :
    exec (.recordReceive t (recordMessage i b)) s = .next { s with chip := (s.chip.at t).recordEntry (leBytes 4 i ++ b) } := by
  rw [exec_recordReceive (recordMessage_length hb) (by rw [recordMessage_head.1]; decide), on, recordMessage_head.2]
  rw [if_neg (by decide), if_neg (by decide), Chip.takeRecords, recordMessage_head.1, forN_succ, forN_zero, recordMessage_entry hb]

theorem pntCount_lt (c : Chip) {i : Nat} (hi : i < c.fld R.pntCtl 23 0) : i < 2 ^ 32 := by
  have h : c.fld R.pntCtl 23 0 < 2 ^ (23 + 1 - 0) := bitsOf_lt _ 23 0
  omega

/-- R356: a newer record replaces the part's own. -/
theorem exec_recordReceive_new {i : Nat} {b : List Byte} (hb : b.length = 32) (hi : i < s.chip.fld R.pntCtl 23 0) (on : s.chip.twinOn = true)
    (new : s.chip.recordNewer i b) : ∃ cause r arrival, exec (.recordReceive t (recordMessage i b)) s =
      .next { s with chip := ((s.chip.at t).replaceRecord i b).journal i cause r arrival } := by
  have index : leAt (leBytes 4 i ++ b) 0 4 = i := entry_index (pntCount_lt s.chip hi)
  obtain ⟨cause, r, arrival, eq⟩ := Chip.recordEntry_new (c := s.chip.at t) (e := leBytes 4 i ++ b) (by rw [index]; exact hi)
    (by rw [index, entry_bytes hb]; exact new)
  rw [index, entry_bytes hb] at eq
  exact ⟨cause, r, arrival, by rw [exec_recordReceive_one hb on, eq]⟩

theorem record_replaced {i : Nat} {b : List Byte} (hb : b.length = 32) (hi : i < s.chip.fld R.pntCtl 23 0) (on : s.chip.twinOn = true)
    (new : s.chip.recordNewer i b) : Answers (.recordReceive t (recordMessage i b)) s (fun c =>
      c.twn = { s.chip.twn with replaced := s.chip.twn.replaced + 1 } ∧
      c.reg (R.twnCnt 8) = (s.chip.bump (R.twnCnt 8)).reg (R.twnCnt 8) ∧
      c.wide R.pntJcountLo R.pntJcountHi = (s.chip.wide R.pntJcountLo R.pntJcountHi + 1) % 2 ^ 64 ∧
      s.chip.regsOnly c [R.twnCnt 8, R.pntJcountLo, R.pntJcountHi] ∧ s.chip.raises c []) := by
  obtain ⟨cause, r, arrival, run⟩ := exec_recordReceive_new (t := t) hb hi on new
  refine answers_exec run ?_
  obtain ⟨twn, count, wide, regs, evq⟩ := (s.chip.at t).replaced_says i b cause r arrival rfl
  exact ⟨twn, count, wide, regs, Chip.raises_of_evq evq⟩

theorem record_stored {i jrn : Nat} {b : List Byte} (hb : b.length = 32) (hi : i < s.chip.fld R.pntCtl 23 0) (on : s.chip.twinOn = true)
    (new : s.chip.recordNewer i b) (inside : s.chip.inDram (s.chip.pntTab + 32 * i) 32 = true) (hj : jrn = s.chip.journalPlace)
    (apart : jrn + 32 ≤ s.chip.pntTab + 32 * i ∨ s.chip.pntTab + 32 * i + 32 ≤ jrn) :
    Answers (.recordReceive t (recordMessage i b)) s (fun c => c.dramBytes (s.chip.pntTab + 32 * i) 32 = b) := by
  obtain ⟨cause, r, arrival, run⟩ := exec_recordReceive_new (t := t) hb hi on new
  refine answers_exec run ?_
  obtain ⟨nlo, nhi, -, jlo, jhi, jsize, cfg⟩ := journalRegs_apart
  have at_ : ∀ a, a ≠ R.twnCnt 8 → ((s.chip.at t).replaceRecord i b).reg a = s.chip.reg a := fun a h => Chip.replaceRecord_reg _ i b h
  have place : ((s.chip.at t).replaceRecord i b).journalPlace = jrn := by
    rw [hj, Chip.journalPlace, Chip.journalPlace, Chip.base40, Chip.base40, Chip.wide, Chip.wide, at_ _ jlo, at_ _ jhi, at_ _ nlo.symm, at_ _ nhi.symm,
      Chip.fld_of_reg (at_ _ jsize)]
  have dram : ((s.chip.at t).replaceRecord i b).dram = ((s.chip.at t).dramWrite (s.chip.pntTab + 32 * i) b).dram := by
    rw [Chip.replaceRecord, Chip.countReplaced_dram, Chip.bump_dram]
    rfl
  simp only [List.mem_cons, List.not_mem_nil, or_false, not_or] at cfg
  have written := Chip.dramBytes_dramWrite_same (c := s.chip.at t) (a := s.chip.pntTab + 32 * i) (l := b) (by rw [hb]; exact inside)
  rw [hb] at written
  rw [Chip.journal_eq, place]
  calc _ = ((((s.chip.at t).replaceRecord i b).dramWrite jrn (r.journalBytes i cause arrival))).dramBytes (s.chip.pntTab + 32 * i) 32 :=
        Chip.dramBytes_congr (Chip.setWide_reg_other _ _ cfg.2.1 cfg.2.2) (fun _ _ _ _ => by rw [Chip.setWide_dram])
    _ = ((s.chip.at t).replaceRecord i b).dramBytes (s.chip.pntTab + 32 * i) 32 :=
        Chip.dramBytes_dramWrite_apart (by rw [PointRec.journalBytes_length]; exact apart)
    _ = ((s.chip.at t).dramWrite (s.chip.pntTab + 32 * i) b).dramBytes (s.chip.pntTab + 32 * i) 32 :=
        Chip.dramBytes_congr ((at_ _ cfg.1).trans (Chip.dramWrite_reg (s.chip.at t) _ _ _).symm) (fun _ _ _ _ => by rw [dram])
    _ = b := written

theorem record_kept {i : Nat} {b : List Byte} (hb : b.length = 32) (hi : i < 2 ^ 32)
    (old : s.chip.fld R.pntCtl 23 0 ≤ i ∨ ¬ s.chip.recordNewer i b) : Gives (.recordReceive t (recordMessage i b)) s (s.chip.at t) := by
  by_cases on : s.chip.twinOn = true
  · refine gives_exec (exec_recordReceive_one hb on) (Chip.recordEntry_old ?_)
    rw [entry_index hi, entry_bytes hb]
    exact old
  · exact gives_exec (exec_recordReceive_off (recordMessage_length hb) (by rw [recordMessage_head.1]; decide) (by simpa using on)) rfl

/-- What a set of records leaves. -/
structure Chip.Replaced (n : Nat) (c d : Chip) : Prop where
  twn : d.twn = { c.twn with replaced := d.twn.replaced }
  le : c.twn.replaced ≤ d.twn.replaced
  most : d.twn.replaced ≤ c.twn.replaced + n
  regs : regsSame [R.twnCnt 8, R.pntJcountLo, R.pntJcountHi] c.regs d.regs
  evq : d.evq = c.evq

theorem Chip.Replaced.entry (c : Chip) (e : List Byte) : Chip.Replaced 1 c (c.recordEntry e) := by
  by_cases h : c.fld R.pntCtl 23 0 ≤ leAt e 0 4 ∨ ¬ c.recordNewer (leAt e 0 4) ((e.drop 4).take 32)
  · rw [Chip.recordEntry_old h]
    exact ⟨rfl, Nat.le_refl _, Nat.le_succ _, regsSame.refl, rfl⟩
  · rw [not_or, not_not, Nat.not_le] at h
    obtain ⟨cause, r, arrival, eq⟩ := Chip.recordEntry_new h.1 h.2
    obtain ⟨twn, -, -, regs, evq⟩ := c.replaced_says (leAt e 0 4) ((e.drop 4).take 32) cause r arrival eq
    generalize c.recordEntry e = d at twn regs evq
    exact ⟨by rw [twn], by rw [twn]; exact Nat.le_succ _, by rw [twn], regs, evq⟩

theorem Chip.Replaced.trans {n m : Nat} {c c1 c2 : Chip} (h1 : Chip.Replaced n c c1) (h2 : Chip.Replaced m c1 c2) : Chip.Replaced (n + m) c c2 := by
  refine ⟨h2.twn.trans ?_, h1.le.trans h2.le, ?_, h1.regs.trans h2.regs, h2.evq.trans h1.evq⟩
  · exact (congrArg (fun x : Twin => { x with replaced := c2.twn.replaced }) h1.twn : _)
  · have a := h1.most
    have b := h2.most
    omega

theorem Chip.Replaced.entries (m : List Byte) (n : Nat) (c : Chip) :
    Chip.Replaced n c (forN n (fun k c => c.recordEntry ((m.drop (4 + 36 * k)).take 36)) c) := by
  induction n with
  | zero => rw [forN_zero]; exact ⟨rfl, Nat.le_refl _, Nat.le_refl _, regsSame.refl, rfl⟩
  | succ n ih => rw [forN_succ]; exact ih.trans (.entry _ _)

theorem records_replaced {m : List Byte} (hl : m.length = 4 + 36 * leAt m 0 2) (hn : leAt m 0 2 ≤ 32) (on : s.chip.twinOn = true)
    (more : leAt m 2 2 % 2 = 0) : Answers (.recordReceive t m) s (fun c => s.chip.twn.replaced ≤ c.twn.replaced ∧
      c.twn = { s.chip.twn with replaced := c.twn.replaced } ∧ c.twn.replaced ≤ s.chip.twn.replaced + leAt m 0 2 ∧
      s.chip.regsOnly c [R.twnCnt 8, R.pntJcountLo, R.pntJcountHi] ∧ s.chip.raises c []) := by
  refine answers_exec (exec_recordReceive hl hn) ?_
  rw [on, more, if_neg (by decide), if_neg (by decide)]
  obtain ⟨twn, le, most, regs, evq⟩ := Chip.Replaced.entries m (leAt m 0 2) (s.chip.at t)
  exact ⟨le, twn, most, regs, Chip.raises_of_evq evq⟩

/-- R356: the twin's DONE. -/
theorem exec_done (on : s.chip.twinOn = true) : exec (.recordReceive t [0, 0, 1, 0]) s =
    .next { s with chip := (s.chip.at t).takeDone } := by
  rw [exec_recordReceive rfl (by decide), on]
  rfl

theorem done_kept (on : s.chip.twinOn = true) (own : s.chip.twn.doneTx = false) :
    Answers (.recordReceive t [0, 0, 1, 0]) s (fun c => c.twn = { s.chip.twn with doneRx := true } ∧ s.chip.writesOnly c [] ∧ s.chip.raises c []) := by
  refine answers_exec (exec_done on) ?_
  rw [Chip.takeDone, Chip.resyncDone, if_neg (by simp [own])]
  exact ⟨rfl, Chip.writesOnly_of regsSame.refl rfl rfl, Chip.raises_of_evq rfl⟩

theorem done_told (on : s.chip.twinOn = true) (own : s.chip.twn.doneTx = true) :
    Answers (.recordReceive t [0, 0, 1, 0]) s (fun c => c.twn = { s.chip.twn with doneTx := false, doneRx := false, replaced := 0 } ∧
      s.chip.writesOnly c eventRegs ∧ s.chip.raises c [⟨0x100A, .room, t, [.val 4 s.chip.twn.replaced]⟩]) := by
  refine answers_exec (exec_done on) ?_
  rw [Chip.takeDone, Chip.resyncDone, if_pos (by simp [own])]
  dsimp only
  refine ⟨(Chip.event_twn _ _ _ _).trans rfl, Chip.writesOnly_of ?_ ?_ ?_, Chip.raises_event_of_evq rfl rfl _ _ _⟩
  · simp
  · rw [Chip.event_dram]; rfl
  · rw [Chip.event_tbw]; rfl

/-! ### SPLIT and YIELD -/

theorem exec_splitTimeout : exec (.splitTimeout t) s = .next { s with chip := match s.chip.twn.seenSince with
    | some since =>
      if s.chip.pairState == pairSolo && s.chip.twinTrackers.any (fun x => x.current t) && elapsed t since (s.chip.fld R.twnNet 15 0 * nsPerMs)
      then (s.chip.at t).setSplit true else s.chip.at t
    | none => s.chip.at t } := by
  rw [show exec (.splitTimeout t) s = execSplitTimeout t s from rfl, execSplitTimeout, runIf_of _ _ _ rfl]
  cases h : s.chip.twn.seenSince <;> simp only [Chip.at_twn, h] <;> rfl

/-- R346: the network has shown the twin for SPLIT ms. -/
theorem split_raised {since : Stamp} (solo : s.chip.pairState = 3) (seen : s.chip.twn.seenSince = some since) (fresh : s.chip.bit R.twnStat 6 = false)
    (current : s.chip.twinTrackers.any (fun x => x.current t) = true) (long : elapsed t since (s.chip.fld R.twnNet 15 0 * nsPerMs) = true) :
    Answers (.splitTimeout t) s (fun c => c.bit R.twnStat 6 = true ∧ c.twn = s.chip.twn ∧ c.pairState = 3 ∧ c.leader = s.chip.leader ∧
      s.chip.writesOnly c ([R.twnStat] ++ eventRegs) ∧ s.chip.raises c [⟨0x1002, .room, t, [.val 1 1, .val 4 s.chip.netTwinClaim]⟩]) := by
  refine answers_exec exec_splitTimeout ?_
  rw [seen]
  dsimp only
  rw [solo, current, long, if_pos (by decide), Chip.setSplit, if_neg (by rw [show (s.chip.at t).bit R.twnStat 6 = _ from fresh]; decide)]
  obtain ⟨n1, n2⟩ : R.twnStat ≠ R.evjStat ∧ R.twnStat ≠ R.evjCnt 1 := by decide
  refine ⟨?_, ?_, ?_, ?_, Chip.writesOnly_of ?_ ?_ ?_, Chip.raises_event_of_evq rfl rfl _ _ _⟩
  · rw [Chip.event_bit_other _ n1 n2, Chip.setFld_bit_same]
    · rfl
    · decide
  · rw [Chip.event_twn, Chip.setFld_twn]; rfl
  · exact ((Chip.event_fld_other _ n1 n2 _ _ _ _ _).trans (Chip.setFld_fld_ne _ (by decide) (by decide))).trans solo
  · exact (Chip.event_bit_other _ n1 n2 _ _ _ _).trans (Chip.setFld_bit_ne _ (by decide) (by decide))
  · simp
  · rw [Chip.event_dram, Chip.setFld_dram]; rfl
  · rw [Chip.event_tbw, Chip.setFld_tbw]; rfl

theorem split_waits (h : s.chip.pairState ≠ 3 ∨ s.chip.bit R.twnStat 6 = true ∨ s.chip.twinTrackers.any (fun x => x.current t) = false ∨
    s.chip.twn.seenSince.all (fun since => !elapsed t since (s.chip.fld R.twnNet 15 0 * nsPerMs)) = true) :
    Gives (.splitTimeout t) s (s.chip.at t) := by
  refine gives_exec exec_splitTimeout ?_
  cases seen : s.chip.twn.seenSince with
  | none => rfl
  | some since =>
    dsimp only
    split
    · next due =>
      simp only [Bool.and_eq_true, beq_iff_eq] at due
      obtain ⟨⟨solo, current⟩, long⟩ := due
      rw [seen, Option.all_some, long] at h
      have set : (s.chip.at t).bit R.twnStat 6 = true := by
        rcases h with h | h | h | h
        · exact absurd solo h
        · exact h
        · rw [current] at h; exact absurd h (by decide)
        · exact absurd h (by decide)
      rw [Chip.setSplit, if_pos (by rw [set]; rfl)]
    · rfl

theorem yield_pends {src : Source} (lead : s.chip.leader = true) (pair : s.chip.paired = true) (fresh : s.chip.bit R.twnStat 7 = false) :
    Answers (.yield t src) s (fun c => c.bit R.twnStat 7 = true ∧ c.leader = true ∧ c.pairState = s.chip.pairState ∧
      c.twn = s.chip.twn ∧ s.chip.writesOnly c [R.twnStat] ∧ s.chip.raises c []) := by
  have cause : (s.chip.at t).yieldCause = 0 := by
    rw [Chip.yieldCause, show (s.chip.at t).leader = _ from lead, show (s.chip.at t).paired = _ from pair,
      show (s.chip.at t).bit R.twnStat 7 = _ from fresh]
    rfl
  have run : exec (.yield t src) s = .next { s with chip := (s.chip.at t).setFld R.twnStat 7 7 1 } := by
    rw [show exec (.yield t src) s = execYield t src s from rfl, execYield, runIf_of _ _ _ rfl, Chip.twinCommand, if_pos (by decide)]
    dsimp only
    rw [cause, if_neg (by decide)]
  refine answers_exec run ⟨?_, ?_, ?_, rfl, Chip.writesOnly_of (by simp) rfl rfl, Chip.raises_of_evq rfl⟩
  · rw [Chip.setFld_bit_same]
    · rfl
    · decide
  · exact (Chip.setFld_bit_ne _ (by decide) (by decide)).trans lead
  · exact Chip.setFld_fld_ne _ (by decide) (by decide)

theorem yield_refused {src : Source} (h : s.chip.leader = false ∨ s.chip.paired = false ∨ s.chip.bit R.twnStat 7 = true) :
    Answers (.yield t src) s (fun c => c.twn = s.chip.twn ∧ s.chip.refused c t src R.twnCmd (cmdWord 1)
      (if s.chip.leader = false then 1 else if s.chip.paired = false then 2 else 3)) := by
  have cause : (s.chip.at t).yieldCause = if s.chip.leader = false then 1 else if s.chip.paired = false then 2 else 3 := by
    rw [Chip.yieldCause, show (s.chip.at t).leader = s.chip.leader from rfl, show (s.chip.at t).paired = s.chip.paired from rfl,
      show (s.chip.at t).bit R.twnStat 7 = s.chip.bit R.twnStat 7 from rfl]
    cases hl : s.chip.leader
    · rfl
    · cases hp : s.chip.paired
      · rfl
      · rw [hl, hp] at h
        rw [(h.resolve_left (by decide)).resolve_left (by decide)]
        rfl
  have ne : ((s.chip.at t).yieldCause != 0) = true := by
    rw [cause]
    split_ifs <;> rfl
  have run : exec (.yield t src) s = .next { s with chip := (s.chip.at t).refuse src R.twnCmd (cmdWord 1) (if s.chip.leader = false then 1 else
      if s.chip.paired = false then 2 else 3) } := by
    rw [show exec (.yield t src) s = execYield t src s from rfl, execYield, runIf_of _ _ _ rfl, Chip.twinCommand, if_pos (by decide)]
    dsimp only
    rw [if_pos ne, cause]
  exact answers_exec run ⟨Chip.refuse_twn _ _ _ _ _, s.chip.at_refused t _ _ _ _⟩

end

/-- Settles O51: a tick by what the evaluation of the pair state can find, and the rest by what each message or command does. -/
theorem pairStateClaimsAndRecordsFollow : Obligations.PairStateClaimsAndRecordsFollow := by
  unfold Obligations.PairStateClaimsAndRecordsFollow
  refine ⟨fun s t cur run due hp hcur hrun => tick_leaves due hp hcur hrun, fun s t due hp hs hc hb => tick_pairs due hp hs hc hb,
    fun s t due hp lost => tick_parts due hp lost, fun s t claim due hp hn => tick_claims due hp hn,
    fun s t due hp hs up none => tick_sends due hp hs up none, fun c => ?_, fun s t idle => ?_,
    fun s t since solo seen fresh current long => split_raised solo seen fresh current long, fun s t h => split_waits h,
    fun s t l hl on => heartbeat_leaves hl on, fun s t l hl off => ?_, fun s t src lead pair fresh => yield_pends lead pair fresh,
    fun s t src h => yield_refused h, fun s t i b hb hi on new => record_replaced hb hi on new,
    fun s t i jrn b hb hi on new inside hj apart => record_stored hb hi on (.inl new) inside hj apart,
    fun s t i b hb hi old => record_kept hb hi ?_, fun s t m hl hn on more => records_replaced hl hn on more,
    fun s t on own => done_kept on own, fun s t on own => done_told on own,
    fun s t m hl hn off => gives_exec (exec_recordReceive_off hl hn off) rfl⟩
  · obtain ⟨len, claim, high, clk, part, flags⟩ := c.heartbeatBytes_says
    refine ⟨len, claim, high, clk, part, flags.trans ?_⟩
    simp only [Chip.heartbeatFlags, beq_iff_eq]
  · refine gives_of (show exec (.tick t) s = execTick t s from rfl) rfl ?_
    dsimp only
    rw [if_neg]
    rw [Chip.at_clk, show (s.chip.at t).pairState = s.chip.pairState from rfl]
    rcases idle with h | h <;> simp [h]
  · refine gives_of (show exec (.heartbeatReceive t l) s = execHeartbeatReceive t l s from rfl) (decide_eq_true hl) ?_
    dsimp only
    rw [if_pos (by rw [show (s.chip.at t).twinOn = _ from off]; rfl)]
  · refine old.imp_right (fun h new => ?_)
    obtain new | ⟨new, lt⟩ := new
    · omega
    · omega

end Sys2Proof.Machine

/-! ## Messages through a check unit (R244, R245, R254) -/

namespace Sys2Proof.Machine

section
variable (c : Chip) (u : Nat)

/-- R245: the message is closed. -/
def ChkUnit.closed (x : ChkUnit) (v : ChkVerdict) : ChkUnit :=
  { x with isOpen := false, lastGood := if x.append then x.lastGood else some (if v.ok && !v.rep then v.alive else x.lastGood.getD 0) }

/-- R245: the result bits of a closed message. -/
def Chip.chkFlags (v : ChkVerdict) : Chip :=
  ((((c.setFld (R.chkRes u) 30 30 (if v.ok then 1 else 0)).setFld (R.chkRes u) 29 29 (if v.rep then 1 else 0)).setFld
    (R.chkRes u) 28 28 (if v.gap then 1 else 0)).setFld (R.chkRes u) 27 27 0).publish (R.chkRes u)

/-- R245: the numbers of a closed message. -/
def Chip.chkNumbers (v : ChkVerdict) : Chip :=
  ((c.setFld (R.chkResAlive u) 15 0 v.alive).setNat (R.chkResLength u) v.length).setWide (R.chkResCheckLo u) (R.chkResCheckHi u) v.check

/-- R245: the counts of a closed message. -/
def Chip.chkCounts (v : ChkVerdict) : Chip :=
  if v.rep then (if v.ok then c.bump (R.chkCnt u 0) else (c.bump (R.chkCnt u 0)).bump (R.chkCnt u 1)).bump (R.chkCnt u 2)
  else if v.ok then c.bump (R.chkCnt u 0) else (c.bump (R.chkCnt u 0)).bump (R.chkCnt u 1)

theorem Chip.chkFinish_eq : c.chkFinish u = (((c.modChk u (fun x => x.closed (c.chkUnit u).verdict)).chkFlags u (c.chkUnit u).verdict).chkNumbers u
    (c.chkUnit u).verdict).chkCounts u (c.chkUnit u).verdict := rfl

/-! ### The stages of FINISH -/

variable (v : ChkVerdict)

theorem Chip.chkFlags_res : (c.chkFlags u v).bit (R.chkRes u) 31 = true ∧ (c.chkFlags u v).bit (R.chkRes u) 30 = v.ok ∧
    (c.chkFlags u v).bit (R.chkRes u) 29 = v.rep ∧ (c.chkFlags u v).bit (R.chkRes u) 28 = v.gap ∧ (c.chkFlags u v).bit (R.chkRes u) 27 = false ∧
    (c.chkFlags u v).fld (R.chkRes u) 15 0 = (c.fld (R.chkRes u) 15 0 + 1) % 65536 := by
  have flag : ∀ b : Bool, ((if b then 1 else 0) % 2 == 1) = b := fun b => by cases b <;> rfl
  have kept : ∀ (c : Chip) (i : Nat), 15 < i → i < 31 → (c.publish (R.chkRes u)).bit (R.chkRes u) i = c.bit (R.chkRes u) i := fun c i h h' => by
    rw [Chip.publish, Chip.setFld_bit_disjoint _ _ _ _ _ _ (by omega) (by omega), Chip.setFld_bit_disjoint _ _ _ _ _ _ (by omega) (by omega)]
  have beside : ∀ (c : Chip) (i j w : Nat), i < 32 → i ≠ j → (c.setFld (R.chkRes u) j j w).bit (R.chkRes u) i = c.bit (R.chkRes u) i :=
    fun c i j w h h' => Chip.setFld_bit_disjoint _ _ _ _ _ _ h (by omega)
  unfold Chip.chkFlags
  refine ⟨Chip.publish_valid _ _, ?_, ?_, ?_, ?_, ?_⟩
  · rw [kept _ _ (by decide) (by decide), beside _ _ _ _ (by decide) (by decide), beside _ _ _ _ (by decide) (by decide),
      beside _ _ _ _ (by decide) (by decide), Chip.setFld_bit_same _ _ _ _ (by decide), flag]
  · rw [kept _ _ (by decide) (by decide), beside _ _ _ _ (by decide) (by decide), beside _ _ _ _ (by decide) (by decide),
      Chip.setFld_bit_same _ _ _ _ (by decide), flag]
  · rw [kept _ _ (by decide) (by decide), beside _ _ _ _ (by decide) (by decide), Chip.setFld_bit_same _ _ _ _ (by decide), flag]
  · rw [kept _ _ (by decide) (by decide), Chip.setFld_bit_same _ _ _ _ (by decide)]
    rfl
  · rw [Chip.publish_seq, Chip.setFld_fld_disjoint _ _ _ _ _ _ _ (by decide) (by decide),
      Chip.setFld_fld_disjoint _ _ _ _ _ _ _ (by decide) (by decide), Chip.setFld_fld_disjoint _ _ _ _ _ _ _ (by decide) (by decide),
      Chip.setFld_fld_disjoint _ _ _ _ _ _ _ (by decide) (by decide)]
    rfl

theorem regsSame_chkFlags : regsSame [R.chkRes u] c.regs (c.chkFlags u v).regs := by simp [Chip.chkFlags]

theorem regsSame_chkNumbers :
    regsSame [R.chkResAlive u, R.chkResLength u, R.chkResCheckLo u, R.chkResCheckHi u] c.regs (c.chkNumbers u v).regs := by simp [Chip.chkNumbers]

theorem regsSame_chkCounts : regsSame [R.chkCnt u 0, R.chkCnt u 1, R.chkCnt u 2] c.regs (c.chkCounts u v).regs := by
  unfold Chip.chkCounts
  cases v.rep <;> cases v.ok <;> simp

theorem regsSame_chkCounts_good (ok : v.ok = true) (rep : v.rep = false) : regsSame [R.chkCnt u 0] c.regs (c.chkCounts u v).regs := by
  simp [Chip.chkCounts, ok, rep]

theorem chkResult_apart : R.chkResAlive u ∉ [R.chkResLength u, R.chkResCheckLo u, R.chkResCheckHi u] ∧
    R.chkResLength u ∉ [R.chkResCheckLo u, R.chkResCheckHi u] ∧ R.chkResCheckLo u ≠ R.chkResCheckHi u := by
  simp [R.chkResAlive, R.chkResLength, R.chkResCheckLo, R.chkResCheckHi]

theorem Chip.chkNumbers_says : (c.chkNumbers u v).fld (R.chkResAlive u) 15 0 = v.alive % 65536 ∧
    (c.chkNumbers u v).reg (R.chkResLength u) = BitVec.ofNat 32 v.length ∧
    (c.chkNumbers u v).wide (R.chkResCheckLo u) (R.chkResCheckHi u) = v.check % 2 ^ 64 := by
  obtain ⟨alive, length, ne⟩ := chkResult_apart u
  simp only [List.mem_cons, List.not_mem_nil, or_false, not_or] at alive length
  unfold Chip.chkNumbers
  refine ⟨?_, ?_, ?_⟩
  · rw [Chip.setWide_fld_other _ _ alive.2.1 alive.2.2, Chip.setNat_fld_other _ _ alive.1, Chip.setFld_fld_same _ _ _ _ _ (by decide)]
    rfl
  · rw [Chip.setWide_reg_other _ _ length.1 length.2, Chip.setNat_reg, if_pos rfl]
  · rw [Chip.wide, Chip.setWide_reg, Chip.setWide_reg, if_neg ne, if_pos rfl, if_pos rfl, BitVec.toNat_ofNat, BitVec.toNat_ofNat]
    omega

theorem chkCnt_apart : R.chkCnt u 0 ≠ R.chkCnt u 1 ∧ R.chkCnt u 0 ≠ R.chkCnt u 2 ∧ R.chkCnt u 1 ≠ R.chkCnt u 2 := by
  simp [R.chkCnt]

theorem Chip.chkCounts_says : (c.chkCounts u v).reg (R.chkCnt u 0) = (c.bump (R.chkCnt u 0)).reg (R.chkCnt u 0) ∧
    (c.chkCounts u v).reg (R.chkCnt u 1) = (if v.ok = true then c else c.bump (R.chkCnt u 1)).reg (R.chkCnt u 1) ∧
    (c.chkCounts u v).reg (R.chkCnt u 2) = (if v.rep = true then c.bump (R.chkCnt u 2) else c).reg (R.chkCnt u 2) := by
  obtain ⟨n01, n02, n12⟩ := chkCnt_apart u
  unfold Chip.chkCounts
  cases v.rep <;> cases v.ok <;> simp [Chip.bump_reg, n01, n02, n12, n01.symm, n02.symm, n12.symm]

/-! ### FINISH as a whole -/

theorem checkRegs_apart : R.chkRes u ∉ [R.chkResAlive u, R.chkResLength u, R.chkResCheckLo u, R.chkResCheckHi u] ∧
    R.chkRes u ∉ [R.chkCnt u 0, R.chkCnt u 1, R.chkCnt u 2] ∧
    (∀ a ∈ [R.chkResAlive u, R.chkResLength u, R.chkResCheckLo u, R.chkResCheckHi u], a ∉ [R.chkCnt u 0, R.chkCnt u 1, R.chkCnt u 2]) ∧
    (∀ i, R.chkCnt u i ≠ R.chkRes u) ∧ (∀ i, R.chkCnt u i ∉ [R.chkResAlive u, R.chkResLength u, R.chkResCheckLo u, R.chkResCheckHi u]) := by
  simp only [R.chkRes, R.chkResAlive, R.chkResLength, R.chkResCheckLo, R.chkResCheckHi, R.chkCnt, List.mem_cons, List.not_mem_nil, or_false,
    forall_eq_or_imp, forall_eq]
  exact ⟨by omega, by omega, by omega, fun i => by omega, fun i => by omega⟩

/-- R245, R254: what FINISH publishes, from the verdict over the message. -/
theorem Chip.chkFinish_says (hv : v = (c.chkUnit u).verdict) {d : Chip} (hd : d = c.chkFinish u) :
    (d.bit (R.chkRes u) 31 = true ∧ d.bit (R.chkRes u) 30 = v.ok ∧ d.bit (R.chkRes u) 29 = v.rep ∧ d.bit (R.chkRes u) 28 = v.gap ∧
      d.bit (R.chkRes u) 27 = false ∧ d.fld (R.chkRes u) 15 0 = (c.fld (R.chkRes u) 15 0 + 1) % 65536) ∧
    (d.fld (R.chkResAlive u) 15 0 = v.alive % 65536 ∧ d.reg (R.chkResLength u) = BitVec.ofNat 32 v.length ∧
      d.wide (R.chkResCheckLo u) (R.chkResCheckHi u) = v.check % 2 ^ 64) ∧
    d.reg (R.chkCnt u 0) = (c.bump (R.chkCnt u 0)).reg (R.chkCnt u 0) ∧
    d.reg (R.chkCnt u 1) = (if v.ok = true then c else c.bump (R.chkCnt u 1)).reg (R.chkCnt u 1) ∧
    d.reg (R.chkCnt u 2) = (if v.rep = true then c.bump (R.chkCnt u 2) else c).reg (R.chkCnt u 2) := by
  obtain ⟨res1, res2, nums, cnt1, cnt2⟩ := checkRegs_apart u
  rw [Chip.chkFinish_eq, ← hv] at hd
  generalize ha : c.modChk u (fun x => x.closed v) = a at hd
  have areg : ∀ x, a.reg x = c.reg x := fun x => by rw [← ha]; rfl
  have flags := a.chkFlags_res u v
  have fsame := regsSame_chkFlags a u v
  generalize a.chkFlags u v = b at hd flags fsame
  have numbers := b.chkNumbers_says u v
  have nsame := regsSame_chkNumbers b u v
  generalize b.chkNumbers u v = e at hd numbers nsame
  have counts := e.chkCounts_says u v
  have csame := regsSame_chkCounts e u v
  rw [← hd] at counts csame
  have dres : d.reg (R.chkRes u) = b.reg (R.chkRes u) := (csame.reg res2).trans (nsame.reg res1)
  have ecnt : ∀ i, e.reg (R.chkCnt u i) = c.reg (R.chkCnt u i) := fun i =>
    ((nsame.reg (cnt2 i)).trans (fsame.reg (by simpa using cnt1 i))).trans (areg _)
  have bumped : ∀ i, (e.bump (R.chkCnt u i)).reg (R.chkCnt u i) = (c.bump (R.chkCnt u i)).reg (R.chkCnt u i) := fun i => by
    rw [Chip.bump_reg, Chip.bump_reg, ecnt]
  refine ⟨?_, ?_, ?_⟩
  · rw [Chip.bit_of_reg dres, Chip.bit_of_reg dres, Chip.bit_of_reg dres, Chip.bit_of_reg dres, Chip.bit_of_reg dres, Chip.fld_of_reg dres,
      ← Chip.fld_of_reg (areg (R.chkRes u))]
    exact flags
  · rw [Chip.fld_of_reg (csame.reg (nums _ (by simp))), csame.reg (nums _ (by simp)), Chip.wide, csame.reg (nums _ (by simp)),
      csame.reg (nums _ (by simp)), ← Chip.wide]
    exact numbers
  · obtain ⟨c0, c1, c2⟩ := counts
    refine ⟨c0.trans (bumped 0), c1.trans ?_, c2.trans ?_⟩
    · by_cases h : v.ok = true
      · rw [if_pos h, if_pos h, ecnt]
      · rw [if_neg h, if_neg h, bumped]
    · by_cases h : v.rep = true
      · rw [if_pos h, if_pos h, bumped]
      · rw [if_neg h, if_neg h, ecnt]

/-- R245: a message whose verdict is good advances the one count. -/
theorem regsSame_chkFinish_good (ok : (c.chkUnit u).verdict.ok = true) (rep : (c.chkUnit u).verdict.rep = false) :
    regsSame [R.chkRes u, R.chkResAlive u, R.chkResLength u, R.chkResCheckLo u, R.chkResCheckHi u, R.chkCnt u 0] c.regs (c.chkFinish u).regs := by
  rw [Chip.chkFinish_eq]
  generalize (c.chkUnit u).verdict = v at ok rep ⊢
  generalize ha : c.modChk u (fun x => x.closed v) = a
  rw [show c.regs = a.regs by rw [← ha]; rfl]
  exact (((regsSame_chkFlags a u v).mono (by simp)).trans ((regsSame_chkNumbers _ u v).mono (by simp))).trans
    ((regsSame_chkCounts_good _ u v ok rep).mono (by simp))

theorem Chip.chkFinish_chkUnit : (c.chkFinish u).chkUnit u = (c.chkUnit u).closed (c.chkUnit u).verdict := by
  have chk : (c.chkFinish u).chk = (c.modChk u (fun x => x.closed (c.chkUnit u).verdict)).chk := by
    rw [Chip.chkFinish_eq]
    generalize c.modChk u (fun x => x.closed (c.chkUnit u).verdict) = a
    unfold Chip.chkCounts
    split <;> split <;> simp [Chip.chkNumbers, Chip.chkFlags]
  rw [Chip.chkUnit, chk, Chip.chkUnit_modChk, if_pos rfl]

end

end Sys2Proof.Machine

namespace Sys2Proof.Machine

/-! ### The commands in turn -/

section
variable {s : State} {t : Stamp} {src : Source} {u : Nat}

/-- The three commands of a unit, each with its number in `CHK_CMD`. -/
theorem exec_chkCommands (hu : u < 16) : exec (.start t src u) s = .next { s with chip := (s.chip.at t).chkCommand src u 1 } ∧
    exec (.finish t src u) s = .next { s with chip := (s.chip.at t).chkCommand src u 2 } ∧
    exec (.resetAlive t src u) s = .next { s with chip := (s.chip.at t).chkCommand src u 3 } :=
  ⟨if_pos (decide_eq_true hu), if_pos (decide_eq_true hu), if_pos (decide_eq_true hu)⟩

/-- The three feeds of a unit, each with its register and its width. -/
theorem exec_chkFeeds (hu : u < 16) (w : Word) :
    exec (.feedByte t src u w) s = .next { s with chip := (s.chip.at t).chkFeedWrite src u (R.chkFeedB u) 1 w } ∧
    exec (.feedHalfWord t src u w) s = .next { s with chip := (s.chip.at t).chkFeedWrite src u (R.chkFeedH u) 2 w } ∧
    exec (.feedWord t src u w) s = .next { s with chip := (s.chip.at t).chkFeedWrite src u (R.chkFeedW u) 4 w } :=
  ⟨if_pos (decide_eq_true hu), if_pos (decide_eq_true hu), if_pos (decide_eq_true hu)⟩

variable {c : Chip}

theorem Chip.chkCommand_refused {cmd cause : Nat} (h : c.chkCause cmd u = cause) (ne : cause ≠ 0) :
    c.chkCommand src u cmd = c.refuse src (R.chkCmd u) (cmdWord cmd) cause := by
  rw [Chip.chkCommand, h, if_pos (by simpa using ne)]

theorem Chip.chkCommand_start (h : c.chkCause 1 u = 0) : c.chkCommand src u 1 = c.chkStart u := by
  rw [Chip.chkCommand, h, if_neg (by decide), if_pos (by decide)]

theorem Chip.chkCommand_finish (h : c.chkCause 2 u = 0) : c.chkCommand src u 2 = c.chkFinish u := by
  rw [Chip.chkCommand, h, if_neg (by decide), if_neg (by decide), if_pos (by decide)]

theorem Chip.chkCommand_resetAlive (h : c.chkCause 3 u = 0) :
    c.chkCommand src u 3 = c.modChk u (fun x => { x with counter := 0, lastGood := none }) := by
  rw [Chip.chkCommand, h, if_neg (by decide), if_neg (by decide), if_neg (by decide), if_pos (by decide)]

theorem Chip.chkCause_start : c.chkCause 1 u =
    if !c.bit (R.chkCfg u) 31 then 1 else if (c.chkUnit u).isOpen then 2 else if u ≤ 4 then 3 else 0 := rfl

/-- R245: what a check-mode message must hold at least. -/
def ChkUnit.need (x : ChkUnit) : Nat := aliveBytes x.alive + (crcPoly x.poly).width / 8

theorem Chip.chkCause_finish : c.chkCause 2 u = if !(c.chkUnit u).isOpen then 1
    else if !(c.chkUnit u).append && decide ((c.chkUnit u).fed.length < (c.chkUnit u).need) then 2 else if u ≤ 4 then 3 else 0 := rfl

theorem Chip.chkCause_resetAlive : c.chkCause 3 u = if (c.chkUnit u).isOpen then 1 else if u ≤ 4 then 2 else 0 := rfl

/-- A unit's change touches no register, no event and no other unit. -/
theorem Chip.modChk_says (c : Chip) (u : Nat) (f : ChkUnit → ChkUnit) : (c.modChk u f).chkUnit u = f (c.chkUnit u) ∧
    (∀ w, w < 16 → w ≠ u → (c.modChk u f).chkUnit w = c.chkUnit w) ∧ c.writesOnly (c.modChk u f) [] ∧ c.raises (c.modChk u f) [] :=
  ⟨(Chip.chkUnit_modChk c u u f).trans (if_pos rfl), fun w _ hw => (Chip.chkUnit_modChk c u w f).trans (if_neg hw),
    Chip.writesOnly_of regsSame.refl rfl rfl, Chip.raises_of_evq rfl⟩

theorem Chip.chkFeedWrite_open {a n : Nat} {w : Word} (hu : 5 ≤ u) (isOpen : (c.chkUnit u).isOpen = true) :
    c.chkFeedWrite src u a n w = c.modChk u (fun x => { x with fed := x.fed ++ leBytes n w.toNat }) := by
  rw [Chip.chkFeedWrite, isOpen, if_neg (by decide), if_neg (by omega), Chip.chkFeed]

theorem Chip.chkFeedWrite_closed {a n : Nat} {w : Word} (shut : (c.chkUnit u).isOpen = false) :
    c.chkFeedWrite src u a n w = c.refuse src a w 1 := by rw [Chip.chkFeedWrite, shut, if_pos (by decide)]

/-! ### START -/

/-- R245: what START leaves of its unit. -/
def ChkUnit.started (x : ChkUnit) (append : Bool) (alive poly : Nat) : ChkUnit :=
  { x with
    isOpen := true
    fed := []
    append := append
    alive := alive
    poly := poly
    counter := if append && alive != 0 then (x.counter + 1) % 2 ^ (8 * aliveBytes alive) else x.counter }

theorem Chip.chkStart_eq : c.chkStart u = ((c.modChk u (fun x => x.started (!c.bit (R.chkCfg u) 30) (c.fld (R.chkCfg u) 29 28)
    (c.fld (R.chkCfg u) 2 0))).setFld (R.chkRes u) 27 27 1).unpublish (R.chkRes u) := rfl

/-- R245: what START leaves. -/
theorem start_says (hu : 5 ≤ u) (lt : u < 16) (en : s.chip.bit (R.chkCfg u) 31 = true) (shut : (s.chip.chkUnit u).isOpen = false) :
    Answers (.start t src u) s (fun c =>
      (c.chkUnit u).isOpen = true ∧ (c.chkUnit u).fed = [] ∧ (c.chkUnit u).lastGood = (s.chip.chkUnit u).lastGood ∧
      (c.chkUnit u).append = !(s.chip.bit (R.chkCfg u) 30) ∧ (c.chkUnit u).poly = s.chip.fld (R.chkCfg u) 2 0 ∧
      (c.chkUnit u).alive = s.chip.fld (R.chkCfg u) 29 28 ∧
      (c.chkUnit u).counter = (if s.chip.bit (R.chkCfg u) 30 = false ∧ s.chip.fld (R.chkCfg u) 29 28 ≠ 0
        then ((s.chip.chkUnit u).counter + 1) % 2 ^ (8 * aliveBytes (s.chip.fld (R.chkCfg u) 29 28))
        else (s.chip.chkUnit u).counter) ∧
      c.bit (R.chkRes u) 31 = false ∧ c.bit (R.chkRes u) 27 = true ∧ c.fld (R.chkRes u) 15 0 = s.chip.fld (R.chkRes u) 15 0 ∧
      (∀ v, v < 16 → v ≠ u → c.chkUnit v = s.chip.chkUnit v) ∧ s.chip.writesOnly c [R.chkRes u] ∧ s.chip.raises c []) := by
  have cause : (s.chip.at t).chkCause 1 u = 0 := by
    rw [Chip.chkCause_start, show (s.chip.at t).bit (R.chkCfg u) 31 = _ from en, show ((s.chip.at t).chkUnit u).isOpen = _ from shut,
      if_neg (by decide), if_neg (by decide), if_neg (by omega)]
  refine answers_exec (exec_chkCommands lt).1 ?_
  rw [Chip.chkCommand_start cause]
  have regs := regsSame_chkStart (s.chip.at t) u
  rw [Chip.chkStart_eq] at regs ⊢
  obtain ⟨unit, others, -⟩ := (s.chip.at t).modChk_says u (fun x => x.started (!(s.chip.at t).bit (R.chkCfg u) 30) ((s.chip.at t).fld (R.chkCfg u) 29 28)
    ((s.chip.at t).fld (R.chkCfg u) 2 0))
  generalize hd : (s.chip.at t).modChk u (fun x => x.started (!(s.chip.at t).bit (R.chkCfg u) 30) ((s.chip.at t).fld (R.chkCfg u) 29 28)
    ((s.chip.at t).fld (R.chkCfg u) 2 0)) = d at regs unit others ⊢
  have dreg : ∀ a, d.reg a = s.chip.reg a := fun a => by rw [← hd]; rfl
  have chk : ∀ w, ((d.setFld (R.chkRes u) 27 27 1).unpublish (R.chkRes u)).chkUnit w = d.chkUnit w := fun _ => rfl
  simp only [chk, unit]
  refine ⟨rfl, rfl, rfl, rfl, rfl, rfl, ?_, ?_, ?_, ?_, others, Chip.writesOnly_of regs ?_ ?_, Chip.raises_of_evq ?_⟩
  · simp only [ChkUnit.started, Bool.and_eq_true, bne_iff_ne, Bool.not_eq_true']
    rfl
  · exact Chip.setFld_bit_same _ _ _ _ (by decide)
  · exact (Chip.setFld_bit_ne _ (by decide) (by omega)).trans (Chip.setFld_bit_same _ _ _ _ (by decide))
  · exact ((Chip.setFld_fld_ne _ (by decide) (by omega)).trans (Chip.setFld_fld_ne _ (by decide) (by omega))).trans (Chip.fld_of_reg (dreg _) 15 0)
  · rw [← hd]; rfl
  · rw [← hd]; rfl
  · rw [← hd]; rfl

/-! ### FINISH -/

theorem exec_finish_open (hu : 5 ≤ u) (lt : u < 16) (isOpen : (s.chip.chkUnit u).isOpen = true)
    (full : (s.chip.chkUnit u).append = true ∨ (s.chip.chkUnit u).need ≤ (s.chip.chkUnit u).fed.length) :
    exec (.finish t src u) s = .next { s with chip := (s.chip.at t).chkFinish u } := by
  rw [(exec_chkCommands lt).2.1, Chip.chkCommand_finish]
  rw [Chip.chkCause_finish, show (s.chip.at t).chkUnit u = s.chip.chkUnit u from rfl, isOpen, if_neg (by decide), if_neg, if_neg (by omega)]
  rcases full with h | h
  · simp [h]
  · simp [h]

/-- The verdict over a message in append mode. -/
theorem ChkUnit.verdict_append {x : ChkUnit} (h : x.append = true) : x.verdict =
    ⟨true, false, false, x.counter, x.fed.length, crcOf (crcPoly x.poly) (leBytes (aliveBytes x.alive) x.counter ++ x.fed)⟩ := by
  rw [ChkUnit.verdict]
  dsimp only
  rw [if_pos h]

/-- The verdict over a message in check mode, from its body and its counter. -/
theorem ChkUnit.verdict_check {x : ChkUnit} {m n : Nat} {body : List Byte} (h : x.append = false) (hm : m = (crcPoly x.poly).width / 8)
    (hn : n = aliveBytes x.alive) (le : n + m ≤ x.fed.length) (hb : body = x.fed.take (x.fed.length - m)) :
    x.verdict.ok = decide (x.fed.drop body.length = crcBytes x.poly (crcOf (crcPoly x.poly) body)) ∧
      x.verdict.alive = leNat (body.take n) ∧ x.verdict.length = body.length - n ∧ x.verdict.check = crcOf (crcPoly x.poly) body ∧
      (x.verdict.rep = true ↔ n ≠ 0 ∧ x.lastGood = some (leNat (body.take n))) ∧
      (x.verdict.gap = true ↔ n ≠ 0 ∧ x.lastGood.any (fun l => leNat (body.take n) != l &&
        leNat (body.take n) != (l + 1) % 2 ^ (8 * n)) = true) := by
  have len : body.length = x.fed.length - m := by rw [hb, List.length_take]; omega
  have head : body.take n = x.fed.take n := by rw [hb, List.take_take, Nat.min_eq_left (by omega)]
  rw [head, len]
  rw [ChkUnit.verdict]
  dsimp only
  rw [if_neg (by rw [h]; decide), ← hm, ← hn, ← hb]
  generalize leNat (x.fed.take n) = ctr
  refine ⟨rfl, rfl, rfl, rfl, ?_, ?_⟩
  · cases x.lastGood with
    | none => simp
    | some l =>
      by_cases hz : n = 0
      · simp [hz]
      · simpa [hz] using eq_comm
  · cases x.lastGood with
    | none => simp
    | some l =>
      by_cases hz : n = 0
      · simp [hz]
      · simp [hz]

theorem aliveBytes_le (a : Nat) : aliveBytes a ≤ 2 := by
  unfold aliveBytes
  split_ifs <;> omega

/-- The sections of FINISH that hold in both modes. -/
theorem finish_says (hu : 5 ≤ u) (lt : u < 16) (isOpen : (s.chip.chkUnit u).isOpen = true)
    (full : (s.chip.chkUnit u).append = true ∨ (s.chip.chkUnit u).need ≤ (s.chip.chkUnit u).fed.length) :
    Answers (.finish t src u) s (fun c =>
      (c.chkUnit u).isOpen = false ∧ (c.chkUnit u).counter = (s.chip.chkUnit u).counter ∧
      c.bit (R.chkRes u) 31 = true ∧ c.bit (R.chkRes u) 27 = false ∧
      c.fld (R.chkRes u) 15 0 = (s.chip.fld (R.chkRes u) 15 0 + 1) % 65536 ∧
      c.reg (R.chkCnt u 0) = (s.chip.bump (R.chkCnt u 0)).reg (R.chkCnt u 0) ∧
      (∀ v, v < 16 → v ≠ u → c.chkUnit v = s.chip.chkUnit v) ∧
      s.chip.writesOnly c [R.chkRes u, R.chkResAlive u, R.chkResLength u, R.chkResCheckLo u, R.chkResCheckHi u, R.chkCnt u 0,
        R.chkCnt u 1, R.chkCnt u 2] ∧ s.chip.raises c []) := by
  refine answers_exec (exec_finish_open hu lt isOpen full) ?_
  obtain ⟨⟨valid, -, -, -, idle, seq⟩, -, count, -⟩ := (s.chip.at t).chkFinish_says u _ rfl rfl
  refine ⟨by rw [Chip.chkFinish_chkUnit]; rfl, by rw [Chip.chkFinish_chkUnit]; rfl, valid, idle, seq, count,
    fun v _ hv => Chip.chkFinish_chkUnit_other _ hv, Chip.writesOnly_of ((regsSame_chkFinish (s.chip.at t) u).mono ?_) ?_ ?_,
    Chip.raises_of_evq ?_⟩
  · simp [checkRegs]
  · rw [Chip.chkFinish_dram]; rfl
  · rw [Chip.chkFinish_tbw]; rfl
  · rw [Chip.chkFinish_evq]; rfl

theorem finish_append (hu : 5 ≤ u) (lt : u < 16) (isOpen : (s.chip.chkUnit u).isOpen = true) (app : (s.chip.chkUnit u).append = true) :
    Answers (.finish t src u) s (fun c =>
      c.bit (R.chkRes u) 30 = true ∧ c.bit (R.chkRes u) 29 = false ∧ c.bit (R.chkRes u) 28 = false ∧
      (c.chkUnit u).lastGood = (s.chip.chkUnit u).lastGood ∧
      c.fld (R.chkResAlive u) 15 0 = (s.chip.chkUnit u).counter % 65536 ∧
      c.reg (R.chkResLength u) = BitVec.ofNat 32 (s.chip.chkUnit u).fed.length ∧
      c.wide (R.chkResCheckLo u) (R.chkResCheckHi u) = crcOf (crcPoly (s.chip.chkUnit u).poly)
        (leBytes (aliveBytes (s.chip.chkUnit u).alive) (s.chip.chkUnit u).counter ++ (s.chip.chkUnit u).fed) % 2 ^ 64 ∧
      s.chip.writesOnly c [R.chkRes u, R.chkResAlive u, R.chkResLength u, R.chkResCheckLo u, R.chkResCheckHi u, R.chkCnt u 0]) := by
  refine answers_exec (exec_finish_open hu lt isOpen (.inl app)) ?_
  have verdict : ((s.chip.at t).chkUnit u).verdict = _ := ChkUnit.verdict_append (x := s.chip.chkUnit u) app
  obtain ⟨⟨-, ok, rep, gap, -⟩, ⟨alive, length, check⟩, -⟩ := (s.chip.at t).chkFinish_says u _ verdict.symm rfl
  refine ⟨ok, rep, gap, ?_, alive, length, check, Chip.writesOnly_of (regsSame_chkFinish_good (s.chip.at t) u ?_ ?_) ?_ ?_⟩
  · rw [Chip.chkFinish_chkUnit]
    exact if_pos app
  · rw [verdict]
  · rw [verdict]
  · rw [Chip.chkFinish_dram]; rfl
  · rw [Chip.chkFinish_tbw]; rfl

theorem finish_check {m n : Nat} {body : List Byte} (hu : 5 ≤ u) (lt : u < 16) (isOpen : (s.chip.chkUnit u).isOpen = true)
    (chk : (s.chip.chkUnit u).append = false) (hm : m = (crcPoly (s.chip.chkUnit u).poly).width / 8)
    (hn : n = aliveBytes (s.chip.chkUnit u).alive) (le : n + m ≤ (s.chip.chkUnit u).fed.length)
    (hb : body = (s.chip.chkUnit u).fed.take ((s.chip.chkUnit u).fed.length - m)) :
    Answers (.finish t src u) s (fun c =>
      (c.bit (R.chkRes u) 30 = true ↔ (s.chip.chkUnit u).fed.drop body.length =
        crcBytes (s.chip.chkUnit u).poly (crcOf (crcPoly (s.chip.chkUnit u).poly) body)) ∧
      c.fld (R.chkResAlive u) 15 0 = leNat (body.take n) ∧
      c.reg (R.chkResLength u) = BitVec.ofNat 32 (body.length - n) ∧
      c.wide (R.chkResCheckLo u) (R.chkResCheckHi u) = crcOf (crcPoly (s.chip.chkUnit u).poly) body % 2 ^ 64 ∧
      (c.bit (R.chkRes u) 29 = true ↔ n ≠ 0 ∧ (s.chip.chkUnit u).lastGood = some (leNat (body.take n))) ∧
      (c.bit (R.chkRes u) 28 = true ↔ n ≠ 0 ∧ (s.chip.chkUnit u).lastGood.any (fun l =>
        leNat (body.take n) != l && leNat (body.take n) != (l + 1) % 2 ^ (8 * n)) = true) ∧
      (c.chkUnit u).lastGood = some (if c.bit (R.chkRes u) 30 = true ∧ c.bit (R.chkRes u) 29 = false then leNat (body.take n)
        else (s.chip.chkUnit u).lastGood.getD 0) ∧
      c.reg (R.chkCnt u 1) = (if c.bit (R.chkRes u) 30 = true then s.chip else s.chip.bump (R.chkCnt u 1)).reg (R.chkCnt u 1) ∧
      c.reg (R.chkCnt u 2) = (if c.bit (R.chkRes u) 29 = true then s.chip.bump (R.chkCnt u 2) else s.chip).reg (R.chkCnt u 2)) := by
  refine answers_exec (exec_finish_open hu lt isOpen (.inr (by rw [ChkUnit.need, ← hm, ← hn]; exact le))) ?_
  obtain ⟨vok, valive, vlength, vcheck, vrep, vgap⟩ := ChkUnit.verdict_check chk hm hn le hb
  obtain ⟨⟨-, ok, rep, gap, -⟩, ⟨alive, length, check⟩, -, bad, again⟩ := (s.chip.at t).chkFinish_says u (s.chip.chkUnit u).verdict rfl rfl
  have small : leNat (body.take n) < 65536 := Nat.lt_of_lt_of_le (leNat_lt _) (Nat.pow_le_pow_right (by decide)
    (show (body.take n).length ≤ 2 from (List.length_take_le _ _).trans (hn ▸ aliveBytes_le _)))
  rw [ok, rep, gap]
  refine ⟨by rw [vok, decide_eq_true_eq], alive.trans (by rw [valive, Nat.mod_eq_of_lt small]), length.trans (by rw [vlength]),
    check.trans (by rw [vcheck]), vrep, vgap, ?_, bad.trans (by split_ifs <;> rfl), again.trans (by split_ifs <;> rfl)⟩
  rw [Chip.chkFinish_chkUnit, ChkUnit.closed]
  dsimp only
  rw [show (s.chip.at t).chkUnit u = s.chip.chkUnit u from rfl, if_neg (by rw [chk]; decide), ← valive]
  simp only [Bool.and_eq_true, Bool.not_eq_true']

/-! ### Refusals -/

theorem start_refused {cause : Nat} (lt : u < 16) (h : (s.chip.at t).chkCause 1 u = cause) (ne : cause ≠ 0) :
    Answers (.start t src u) s (fun c => c.chk = s.chip.chk ∧ s.chip.refused c t src (R.chkCmd u) (cmdWord 1) cause) := by
  refine answers_exec (exec_chkCommands lt).1 ?_
  rw [Chip.chkCommand_refused h ne]
  exact ⟨Chip.refuse_chk _ _ _ _ _, s.chip.at_refused t _ _ _ _⟩

theorem finish_refused {cause : Nat} (lt : u < 16) (h : (s.chip.at t).chkCause 2 u = cause) (ne : cause ≠ 0) :
    Answers (.finish t src u) s (fun c => c.chk = s.chip.chk ∧ s.chip.refused c t src (R.chkCmd u) (cmdWord 2) cause) := by
  refine answers_exec (exec_chkCommands lt).2.1 ?_
  rw [Chip.chkCommand_refused h ne]
  exact ⟨Chip.refuse_chk _ _ _ _ _, s.chip.at_refused t _ _ _ _⟩

theorem resetAlive_refused {cause : Nat} (lt : u < 16) (h : (s.chip.at t).chkCause 3 u = cause) (ne : cause ≠ 0) :
    Answers (.resetAlive t src u) s (fun c => c.chk = s.chip.chk ∧ s.chip.refused c t src (R.chkCmd u) (cmdWord 3) cause) := by
  refine answers_exec (exec_chkCommands lt).2.2 ?_
  rw [Chip.chkCommand_refused h ne]
  exact ⟨Chip.refuse_chk _ _ _ _ _, s.chip.at_refused t _ _ _ _⟩

end

/-- A write of a register whose fields act by their types alone. -/
theorem Chip.writeFields_says (c : Chip) {a : Nat} {d : RegDesc × List Nat} (hd : descAt a = some d) (ha : a ∉ dropRegs) (w : Word) :
    (c.writeFields a w).reg a = d.1.after c.isSealed (c.dynBound a) (c.reg a) w ∧ regsSame (a :: dropRegs) c.regs (c.writeFields a w).regs := by
  have set : ∀ v, (c.setReg a v).reg a = v := fun v => by rw [Chip.setReg_reg, if_pos rfl]
  refine ⟨?_, by simp +contextual [regsSame_writeFields_iff]⟩
  unfold Chip.writeFields
  split
  · next none => rw [hd] at none; exact absurd none (by simp)
  · next d' n some =>
    obtain rfl : d = (d', n) := Option.some.inj (hd.symm.trans some)
    dsimp only
    split
    · have drop := (regsSame_dropWrite_iff (l := dropRegs) (c := c.setReg a (d'.after c.isSealed (c.dynBound a) (c.reg a) w)) (fun _ h => h) a).mpr
        regsSame.refl
      rw [drop.reg ha, set]
    · exact set _

theorem chkCfg_desc : ∀ u, u < 16 → (descAt (R.chkCfg u)).isSome = true ∧ R.chkCfg u ∉ dropRegs := by decide +kernel

/-- Settles O44: each command by its cause, and what it does where none refuses it. -/
theorem checkUnitRunsItsMessageInTurn : Obligations.CheckUnitRunsItsMessageInTurn := by
  unfold Obligations.CheckUnitRunsItsMessageInTurn
  refine ⟨fun s t src u hu lt en shut => start_says hu lt en shut, fun s t src u w hu lt isOpen => ?_, fun s t src u w hu lt isOpen => ?_,
    fun s t src u w hu lt isOpen => ?_, fun s t src u hu lt isOpen full => finish_says hu lt isOpen full,
    fun s t src u hu lt isOpen app => finish_append hu lt isOpen app,
    fun s t src u m n body hu lt isOpen chk hm hn le hb => finish_check hu lt isOpen chk hm hn le hb, fun s t src u hu lt shut => ?_,
    fun s t src u w hu lt => ?_, fun s t src u lt en => start_refused lt ?_ (by decide), fun s t src u lt en isOpen => start_refused lt ?_ (by decide),
    fun s t src u w lt shut => ⟨?_, ?_, ?_, finish_refused lt ?_ (by decide)⟩,
    fun s t src u lt isOpen chk short => finish_refused lt ?_ (by decide), fun s t src u lt isOpen => resetAlive_refused lt ?_ (by decide)⟩
  · refine answers_exec (exec_chkFeeds lt w).1 ?_
    rw [Chip.chkFeedWrite_open (c := s.chip.at t) hu isOpen]
    exact (s.chip.at t).modChk_says u _
  · refine answers_exec (exec_chkFeeds lt w).2.1 ?_
    rw [Chip.chkFeedWrite_open (c := s.chip.at t) hu isOpen]
    exact (s.chip.at t).modChk_says u _
  · refine answers_exec (exec_chkFeeds lt w).2.2 ?_
    rw [Chip.chkFeedWrite_open (c := s.chip.at t) hu isOpen]
    exact (s.chip.at t).modChk_says u _
  · refine answers_exec (exec_chkCommands lt).2.2 ?_
    rw [Chip.chkCommand_resetAlive (by rw [Chip.chkCause_resetAlive, show ((s.chip.at t).chkUnit u).isOpen = _ from shut, if_neg (by decide),
      if_neg (by omega)])]
    exact (s.chip.at t).modChk_says u _
  · refine answers_of (show exec (.chkCfgWrite t src u w) s = execChkCfgWrite t src u w s from rfl) (decide_eq_true lt) ?_
    obtain ⟨some, apart⟩ := chkCfg_desc u lt
    obtain ⟨d, hd⟩ := Option.isSome_iff_exists.mp some
    rw [Chip.chkConfig, if_neg (by omega)]
    obtain ⟨read, regs⟩ := (s.chip.at t).writeFields_says hd apart w
    refine ⟨Chip.writeFields_chk _ _ _, ?_, Chip.writesOnly_of regs (Chip.writeFields_dram _ _ _) (Chip.writeFields_tbw _ _ _)⟩
    rw [hd, read]
    rfl
  · rw [Chip.chkCause_start, show (s.chip.at t).bit (R.chkCfg u) 31 = _ from en]
    rfl
  · rw [Chip.chkCause_start, show (s.chip.at t).bit (R.chkCfg u) 31 = _ from en, show ((s.chip.at t).chkUnit u).isOpen = _ from isOpen]
    rfl
  · refine answers_exec (exec_chkFeeds lt w).1 ?_
    rw [Chip.chkFeedWrite_closed (c := s.chip.at t) shut]
    exact ⟨Chip.refuse_chk _ _ _ _ _, s.chip.at_refused t _ _ _ _⟩
  · refine answers_exec (exec_chkFeeds lt w).2.1 ?_
    rw [Chip.chkFeedWrite_closed (c := s.chip.at t) shut]
    exact ⟨Chip.refuse_chk _ _ _ _ _, s.chip.at_refused t _ _ _ _⟩
  · refine answers_exec (exec_chkFeeds lt w).2.2 ?_
    rw [Chip.chkFeedWrite_closed (c := s.chip.at t) shut]
    exact ⟨Chip.refuse_chk _ _ _ _ _, s.chip.at_refused t _ _ _ _⟩
  · rw [Chip.chkCause_finish, show ((s.chip.at t).chkUnit u).isOpen = _ from shut]
    rfl
  · rw [Chip.chkCause_finish, show (s.chip.at t).chkUnit u = s.chip.chkUnit u from rfl, isOpen, if_neg (by decide), if_pos]
    rw [chk, Bool.not_false, Bool.true_and]
    exact decide_eq_true short
  · rw [Chip.chkCause_resetAlive, show ((s.chip.at t).chkUnit u).isOpen = _ from isOpen]
    rfl

end Sys2Proof.Machine

/-! ## Heads, commits and transmit ports (R269, R274, R290, R293, R305 to R310) -/

namespace Sys2Proof.Machine

/-! ### Heads -/

theorem Chip.head_modHead (c : Chip) (h j : Nat) (f : Head → Head) : (c.modHead h f).head j = if j = h then f (c.head h) else c.head j :=
  mapGet_mapPut _ _ _ _ _

theorem Chip.head_of_heads {c c1 : Chip} (h : c1.heads = c.heads) (j : Nat) : c1.head j = c.head j := by rw [Chip.head, h, Chip.head]

theorem Chip.port_modPort (c : Chip) (p q : Nat) (f : DpPort → DpPort) : (c.modPort p f).port q = if q = p then f (c.port p) else c.port q :=
  mapGet_mapPut _ _ _ _ _

theorem Chip.port_of_ports {c c1 : Chip} (h : c1.ports = c.ports) (q : Nat) : c1.port q = c.port q := by rw [Chip.port, h, Chip.port]

section
variable (c : Chip) (h : Nat) (f : Head → Head)

@[simp] theorem Chip.modHead_regs : (c.modHead h f).regs = c.regs := rfl
@[simp] theorem Chip.modHead_dram : (c.modHead h f).dram = c.dram := rfl
@[simp] theorem Chip.modHead_tbw : (c.modHead h f).tbw = c.tbw := rfl
@[simp] theorem Chip.modHead_evq : (c.modHead h f).evq = c.evq := rfl
@[simp] theorem Chip.modHead_ports : (c.modHead h f).ports = c.ports := rfl
@[simp] theorem Chip.modHead_clk : (c.modHead h f).clk = c.clk := rfl
@[simp] theorem Chip.modHead_tx : (c.modHead h f).tx = c.tx := rfl
@[simp] theorem Chip.modHead_curElem : (c.modHead h f).curElem = c.curElem := rfl

end

/-! ### What a change of carried streams leaves (R307) -/

/-- The registers that a change of port `p`'s carried streams writes. -/
def streamRegs (p : Nat) : List Nat := R.dptStat p :: (List.range 32).map R.hedStat ++ eventRegs

/-- What a change of port `p`'s carried streams leaves: all but the streams' bits and the video of their heads. -/
structure Chip.Streamed (p : Nat) (c c1 : Chip) : Prop where
  regs : regsSame (streamRegs p) c.regs c1.regs
  stat : ∀ hi lo, hi < 32 → (hi < 16 ∨ 19 < lo) → c1.fld (R.dptStat p) hi lo = c.fld (R.dptStat p) hi lo
  head : ∀ h hi lo, h < 32 → hi < 32 → (hi < 26 ∨ 26 < lo) → c1.fld (R.hedStat h) hi lo = c.fld (R.hedStat h) hi lo
  ports : c1.ports = c.ports
  heads : ∀ h, { c1.head h with videoOn := false } = { c.head h with videoOn := false }
  tx : c.tx <+: c1.tx
  dram : c1.dram = c.dram
  tbw : c1.tbw = c.tbw
  clk : c1.clk = c.clk

theorem streamRegs_apart : ∀ p, p < 8 → R.dptStat p ∉ eventRegs ∧ (∀ h, h < 32 → R.hedStat h ≠ R.dptStat p ∧ R.hedStat h ∉ eventRegs ∧
    (∀ j, j < 32 → j ≠ h → R.hedStat j ≠ R.hedStat h) ∧ R.hedOut h ∉ streamRegs p ∧ R.hedHtim h ∉ streamRegs p ∧ R.hedVtim h ∉ streamRegs p ∧
    R.hedPeriod h ∉ streamRegs p ∧ R.hedPeriodFrac h ∉ streamRegs p ∧ R.hedCtl h ∉ streamRegs p) ∧ R.dptCtl p ∉ streamRegs p := by
  have stat : ∀ p, p < 8 → R.dptStat p ∉ eventRegs ∧ R.dptCtl p ∉ streamRegs p := by decide +kernel
  have heads : ∀ h, h < 32 → R.hedStat h ∉ eventRegs ∧ ∀ j, j < 32 → j ≠ h → R.hedStat j ≠ R.hedStat h := by decide +kernel
  have apart : ∀ p, p < 8 → ∀ h, h < 32 → R.hedStat h ≠ R.dptStat p := by decide +kernel
  have read : ∀ p, p < 8 → ∀ h, h < 32 → ∀ a ∈ [R.hedOut h, R.hedHtim h, R.hedVtim h, R.hedPeriod h, R.hedPeriodFrac h, R.hedCtl h],
      a ∉ streamRegs p := by decide +kernel
  exact fun p hp => ⟨(stat p hp).1, fun h hh => ⟨apart p hp h hh, (heads h hh).1, (heads h hh).2, read p hp h hh _ (by simp),
    read p hp h hh _ (by simp), read p hp h hh _ (by simp), read p hp h hh _ (by simp), read p hp h hh _ (by simp), read p hp h hh _ (by simp)⟩,
    (stat p hp).2⟩

theorem dscPps_notMem : ∀ p, p < 8 → ∀ k, k < 16 → R.dptDscPps k 1 ∉ streamRegs p := by decide +kernel

section
variable {p : Nat} {c c1 c2 : Chip}

theorem Chip.Streamed.refl : Chip.Streamed p c c :=
  ⟨regsSame.refl, fun _ _ _ _ => rfl, fun _ _ _ _ _ _ => rfl, rfl, fun _ => rfl, List.prefix_refl _, rfl, rfl, rfl⟩

theorem Chip.Streamed.trans (h1 : Chip.Streamed p c c1) (h2 : Chip.Streamed p c1 c2) : Chip.Streamed p c c2 :=
  ⟨h1.regs.trans h2.regs, fun hi lo h h' => (h2.stat hi lo h h').trans (h1.stat hi lo h h'),
    fun h hi lo a b d => (h2.head h hi lo a b d).trans (h1.head h hi lo a b d), h2.ports.trans h1.ports,
    fun h => (h2.heads h).trans (h1.heads h), h1.tx.trans h2.tx, h2.dram.trans h1.dram, h2.tbw.trans h1.tbw, h2.clk.trans h1.clk⟩

/-- What touches no register, head or port of the streams. -/
theorem Chip.Streamed.of (hr : c1.regs = c.regs) (hp : c1.ports = c.ports) (hh : c1.heads = c.heads) (ht : c.tx <+: c1.tx) (hd : c1.dram = c.dram)
    (hb : c1.tbw = c.tbw) (hk : c1.clk = c.clk) : Chip.Streamed p c c1 := by
  have reg : ∀ a, c1.reg a = c.reg a := fun a => by rw [Chip.reg, hr, Chip.reg]
  exact ⟨hr ▸ regsSame.refl, fun hi lo _ _ => Chip.fld_of_reg (reg _) hi lo, fun h hi lo _ _ _ => Chip.fld_of_reg (reg _) hi lo, hp,
    fun h => by rw [Chip.head_of_heads hh], ht, hd, hb, hk⟩

/-- A stream's bit in `DPT_STAT`. -/
theorem Chip.Streamed.statBit (hp : p < 8) (c : Chip) {st : Nat} (hst : st < 4) (v : Nat) :
    Chip.Streamed p c (c.setFld (R.dptStat p) (16 + st) (16 + st) v) := by
  obtain ⟨-, apart, -⟩ := streamRegs_apart p hp
  exact ⟨by simp [streamRegs], fun hi lo h h' => Chip.setFld_fld_ne c h (by omega),
    fun h hi lo a b _ => Chip.setFld_fld_ne c b (.inl (apart h a).1), rfl, fun _ => rfl, List.prefix_refl _, rfl, rfl, rfl⟩

/-- A head's bit in `HED_STAT`. -/
theorem Chip.Streamed.headBit (hp : p < 8) (c : Chip) {h : Nat} (hh : h < 32) (v : Nat) :
    Chip.Streamed p c (c.setFld (R.hedStat h) 26 26 v) := by
  obtain ⟨-, apart, -⟩ := streamRegs_apart p hp
  refine ⟨?_, fun hi lo h' _ => Chip.setFld_fld_ne c h' (.inl (apart h hh).1.symm), fun j hi lo a b d => ?_, rfl, fun _ => rfl,
    List.prefix_refl _, rfl, rfl, rfl⟩
  · have mem : R.hedStat h ∈ streamRegs p := by
      simp only [streamRegs, List.cons_append, List.mem_cons, List.mem_append, List.mem_map, List.mem_range]
      exact .inr (.inl ⟨h, hh, rfl⟩)
    simp [mem]
  · by_cases same : j = h
    · rw [same]
      exact Chip.setFld_fld_ne c b (.inr d)
    · exact Chip.setFld_fld_ne c b (.inl ((apart h hh).2.2.1 j a same))

theorem Chip.Streamed.event (hp : p < 8) (c : Chip) (code : Nat) (place : FaultAddr) (l : List CField) :
    Chip.Streamed p c (c.event code place l) := by
  obtain ⟨stat, apart, -⟩ := streamRegs_apart p hp
  have other : ∀ a, a ∉ eventRegs → (c.event code place l).reg a = c.reg a := fun a ha => by
    simp only [mem_eventRegs, not_or] at ha
    exact Chip.event_reg _ _ _ _ ha.1 ha.2
  exact ⟨by simp [streamRegs], fun hi lo _ _ => Chip.fld_of_reg (other _ stat) hi lo, fun h hi lo a _ _ => Chip.fld_of_reg (other _ (apart h a).2.1) hi lo,
    by simp, fun h => by rw [Chip.head_of_heads (Chip.event_heads _ _ _ _)], by simp, by simp, by simp, by simp⟩

theorem Chip.Streamed.video (c : Chip) (h : Nat) : Chip.Streamed p c (c.modHead h (fun x => { x with videoOn := false })) := by
  refine ⟨regsSame.refl, fun _ _ _ _ => rfl, fun _ _ _ _ _ _ => rfl, rfl, fun j => ?_, List.prefix_refl _, rfl, rfl, rfl⟩
  rw [Chip.head_modHead]
  by_cases same : j = h
  · rw [if_pos same, same]
  · rw [if_neg same]

theorem Chip.setCarried_eq (c : Chip) (p st h new cause : Nat) : c.setCarried p st h new cause =
    ((((if new == 0 then c.modHead h (fun x => { x with videoOn := false }) else c).setFld (R.dptStat p) (16 + st) (16 + st) new).setFld
      (R.hedStat h) 26 26 new).event 0xB004 (.surface h) [.val 1 p, .val 1 st, .val 1 new, .val 4 (Config.eventCode 0xB004 cause)]) := rfl

theorem Chip.Streamed.setCarried (hp : p < 8) (c : Chip) {st h : Nat} (hst : st < 4) (hh : h < 32) (new cause : Nat) :
    Chip.Streamed p c (c.setCarried p st h new cause) := by
  rw [Chip.setCarried_eq]
  refine (((Chip.Streamed.trans ?_ (.statBit hp _ hst new)).trans (.headBit hp _ hh new)).trans (.event hp _ _ _ _))
  split
  · exact .video c h
  · exact .refl

/-- The stream's bit after it becomes carried or not; the other streams' bits stay. -/
theorem Chip.setCarried_bit (hp : p < 8) (c : Chip) {st h j : Nat} (hh : h < 32) (hj : j < 4) (new cause : Nat) :
    (c.setCarried p st h new cause).bit (R.dptStat p) (16 + j) = if j = st then new % 2 == 1 else c.bit (R.dptStat p) (16 + j) := by
  obtain ⟨stat, apart, -⟩ := streamRegs_apart p hp
  have same : (if new == 0 then c.modHead h (fun x => { x with videoOn := false }) else c).bit (R.dptStat p) (16 + j) =
      c.bit (R.dptStat p) (16 + j) := by split <;> rfl
  simp only [mem_eventRegs, not_or] at stat
  rw [Chip.setCarried_eq, Chip.event_bit_other _ stat.1 stat.2, Chip.setFld_bit_ne _ (by omega) (.inl (apart h hh).1.symm)]
  by_cases hjs : j = st
  · rw [if_pos hjs, hjs, Chip.setFld_bit_same _ _ _ _ (by omega)]
  · rw [if_neg hjs, Chip.setFld_bit_ne _ (by omega) (by omega), same]

/-- A stream that is no longer carried: its head shows it, and sends no video. -/
theorem Chip.setCarried_stops (c : Chip) (p st : Nat) {h : Nat} (hh : h < 32) (hp : p < 8) (cause : Nat) :
    (c.setCarried p st h 0 cause).bit (R.hedStat h) 26 = false ∧ ((c.setCarried p st h 0 cause).head h).videoOn = false := by
  obtain ⟨-, apart, -⟩ := streamRegs_apart p hp
  have stat := (apart h hh).2.1
  simp only [mem_eventRegs, not_or] at stat
  rw [Chip.setCarried_eq]
  constructor
  · rw [Chip.event_bit_other _ stat.1 stat.2, Chip.setFld_bit_same _ _ _ _ (by decide)]
    rfl
  · have eq := (Chip.head_modHead c h h (fun x => { x with videoOn := false })).trans (if_pos rfl)
    rw [Chip.head_of_heads (Chip.event_heads _ _ _ _), if_pos (by decide)]
    exact (congrArg Head.videoOn eq : _)

theorem Chip.Streamed.payload (c : Chip) (st : Nat) : Chip.Streamed p c (c.payload p st) := by
  unfold Chip.payload
  split
  · exact .of rfl rfl rfl ⟨_, (List.append_assoc _ _ _).symm⟩ rfl rfl rfl
  · exact .refl

theorem Chip.payload_reg (c : Chip) (p st a : Nat) : (c.payload p st).reg a = c.reg a := by
  unfold Chip.payload
  split <;> rfl

/-! ### What the streams' room reads (R307) -/

theorem Chip.Streamed.reg (hs : Chip.Streamed p c c1) {a : Nat} (h : a ∉ streamRegs p) : c1.reg a = c.reg a := hs.regs.reg h

theorem Chip.Streamed.run (hs : Chip.Streamed p c c1) {h : Nat} (hh : h < 32) : c1.headRun h = c.headRun h :=
  hs.head h 31 30 hh (by decide) (by decide)

theorem Chip.streamHead_lt {st h : Nat} (hs : c.streamHead p st = some h) : h < 32 := List.mem_range.mp (List.mem_of_find?_eq_some hs)

theorem find?_congr_mem {α : Type} {l : List α} {f g : α → Bool} (h : ∀ x ∈ l, f x = g x) : l.find? f = l.find? g := by
  induction l with
  | nil => rfl
  | cons x l ih =>
    rw [List.find?_cons, List.find?_cons, h x (by simp), ih (fun y hy => h y (by simp [hy]))]

theorem Chip.Streamed.streamHead (hp : p < 8) (hs : Chip.Streamed p c c1) (st : Nat) : c1.streamHead p st = c.streamHead p st := by
  obtain ⟨-, apart, ctl⟩ := streamRegs_apart p hp
  refine find?_congr_mem (fun h hh => ?_)
  have hh := List.mem_range.mp hh
  have out := hs.reg (apart h hh).2.2.2.1
  rw [Chip.fld_of_reg out, Chip.fld_of_reg out, Chip.fld_of_reg out, Chip.bit_of_reg (hs.reg ctl), hs.run hh]

theorem Chip.Streamed.mst (hp : p < 8) (hs : Chip.Streamed p c c1) : c1.bit (R.dptCtl p) 30 = c.bit (R.dptCtl p) 30 :=
  Chip.bit_of_reg (hs.reg (streamRegs_apart p hp).2.2) 30

theorem Chip.Streamed.capacity (hs : Chip.Streamed p c c1) : c1.linkCapacity p = c.linkCapacity p := by
  have fec : c1.bit (R.dptStat p) 22 = c.bit (R.dptStat p) 22 := congrArg (· == 1) (hs.stat 22 22 (by decide) (by decide))
  rw [Chip.linkCapacity, hs.stat 27 25 (by decide) (by decide), hs.stat 24 23 (by decide) (by decide), fec, Chip.linkCapacity]

theorem Chip.Streamed.room (hp : p < 8) (hs : Chip.Streamed p c c1) : c1.portRoom p = c.portRoom p := by
  rw [Chip.portRoom, hs.mst hp, hs.capacity, hs.stat 27 25 (by decide) (by decide), Chip.portRoom]

theorem Chip.Streamed.pixelBits (hp : p < 8) (hs : Chip.Streamed p c c1) {h : Nat} (hh : h < 32) : c1.pixelBits h = c.pixelBits h := by
  have out := hs.reg ((streamRegs_apart p hp).2.1 h hh).2.2.2.1
  have unit : c.fld (R.hedOut h) 23 20 < 16 := bitsOf_lt _ 23 20
  unfold Chip.pixelBits
  rw [Chip.bit_of_reg out, Chip.fld_of_reg out, Chip.fld_of_reg out, Chip.fld_of_reg (hs.reg (dscPps_notMem p hp _ unit))]

theorem Chip.Streamed.cost (hp : p < 8) (hs : Chip.Streamed p c c1) {h : Nat} (hh : h < 32) : c1.streamCost p h = c.streamCost p h := by
  obtain ⟨-, -, -, -, htim, vtim, period, frac, -⟩ := (streamRegs_apart p hp).2.1 h hh
  have need : c1.streamNeed h = c.streamNeed h := by
    rw [Chip.streamNeed, Chip.headQ, hs.pixelBits hp hh, Chip.fld_of_reg (hs.reg htim), Chip.fld_of_reg (hs.reg vtim), Chip.fld_of_reg (hs.reg period),
      Chip.fld_of_reg (hs.reg frac), Chip.streamNeed, Chip.headQ]
  rw [Chip.streamCost, hs.mst hp, need, hs.capacity, Chip.streamCost]

end

end Sys2Proof.Machine

namespace Sys2Proof.Machine

/-! ### The streams that fit (R307) -/

/-- R307: one stream in the order of `Chip.allocate`. -/
def Chip.allocStep (x : DpPort) (p st : Nat) (a : Chip × Nat) : Chip × Nat :=
  match a.1.streamHead p st with
  | none => (a.1.setFld (R.dptStat p) (16 + st) (16 + st) 0, a.2)
  | some h =>
    if x.denied.contains st then (a.1.setCarried p st h 0 1, a.2)
    else if a.2 < a.1.streamCost p h then (a.1.setCarried p st h 0 0, a.2)
    else (if a.1.bit (R.dptStat p) (16 + st) then a.1 else (a.1.setCarried p st h 1 2).payload p st, a.2 - a.1.streamCost p h)

/-- R307: the streams of port `p`. -/
def Chip.streamCount (c : Chip) (p : Nat) : Nat := if c.bit (R.dptCtl p) 30 then 4 else 1

theorem Chip.allocate_eq (c : Chip) (p : Nat) : c.allocate p =
    if c.dpState p == dpUp then (forN (c.streamCount p) (Chip.allocStep (c.port p) p) (c, c.portRoom p)).1 else c := rfl

section
variable {p : Nat} {c : Chip}

/-- What the carried streams before `st` take, by the bits of `d` and the costs of `c`. -/
def Chip.taken (c : Chip) (p : Nat) (d : Chip) (st : Nat) : Nat :=
  (((List.range st).filter (fun j => d.bit (R.dptStat p) (16 + j))).map (fun j => ((c.streamHead p j).map (c.streamCost p)).getD 0)).sum

/-- Stream `st` fits beside those before it. -/
def Chip.fits (c : Chip) (p : Nat) (d : Chip) (st : Nat) : Bool :=
  (c.streamHead p st).any (fun h => !(c.port p).denied.contains st && decide (c.taken p d st + c.streamCost p h ≤ c.portRoom p))

theorem Chip.taken_succ (d : Chip) (st : Nat) : c.taken p d (st + 1) =
    c.taken p d st + (if d.bit (R.dptStat p) (16 + st) then ((c.streamHead p st).map (c.streamCost p)).getD 0 else 0) := by
  unfold Chip.taken
  rw [List.range_succ, List.filter_append, List.map_append, List.sum_append]
  by_cases h : d.bit (R.dptStat p) (16 + st) = true
  · simp [h]
  · simp [h]

theorem Chip.taken_congr {d e : Chip} {st : Nat} (h : ∀ j, j < st → e.bit (R.dptStat p) (16 + j) = d.bit (R.dptStat p) (16 + j)) :
    c.taken p e st = c.taken p d st := by
  unfold Chip.taken
  rw [List.filter_congr (fun j hj => h j (List.mem_range.mp hj))]

/-- What holds when the streams before `st` have been seen to. -/
structure Chip.Allotted (c : Chip) (p st : Nat) (a : Chip × Nat) : Prop where
  streamed : Chip.Streamed p c a.1
  left : a.2 + c.taken p a.1 st = c.portRoom p
  bits : ∀ j, j < st → a.1.bit (R.dptStat p) (16 + j) = c.fits p a.1 j

/-- One more stream, from what its step leaves. -/
theorem Chip.Allotted.next {st : Nat} {a b : Chip × Nat} (ha : Chip.Allotted c p st a) (hs : Chip.Streamed p a.1 b.1)
    (hk : ∀ j, j < st → b.1.bit (R.dptStat p) (16 + j) = a.1.bit (R.dptStat p) (16 + j)) (hb : b.1.bit (R.dptStat p) (16 + st) = c.fits p a.1 st)
    (hl : b.2 + (if c.fits p a.1 st then ((c.streamHead p st).map (c.streamCost p)).getD 0 else 0) = a.2) : Chip.Allotted c p (st + 1) b := by
  have left := ha.left
  refine ⟨ha.streamed.trans hs, ?_, fun j hj => ?_⟩
  · rw [Chip.taken_succ, Chip.taken_congr hk, hb]
    omega
  · have fits : c.fits p b.1 j = c.fits p a.1 j := by
      unfold Chip.fits
      rw [Chip.taken_congr (fun i hi => hk i (by omega))]
    rw [fits]
    by_cases last : j = st
    · rw [last, hb]
    · rw [hk j (by omega), ha.bits j (by omega)]

theorem Chip.fits_none {d : Chip} {st : Nat} (h : c.streamHead p st = none) : c.fits p d st = false := by rw [Chip.fits, h]; rfl

theorem Chip.fits_some {d : Chip} {st h : Nat} (hs : c.streamHead p st = some h) : c.fits p d st =
    (!(c.port p).denied.contains st && decide (c.taken p d st + c.streamCost p h ≤ c.portRoom p)) := by rw [Chip.fits, hs]; rfl

theorem Chip.payload_bit (c : Chip) (p st a i : Nat) : (c.payload p st).bit a i = c.bit a i := Chip.bit_of_reg (Chip.payload_reg c p st a) i

/-- R307: a stream's step keeps the allotment. -/
theorem Chip.Allotted.step (hp : p < 8) {st : Nat} (hst : st < 4) {a : Chip × Nat} (ha : Chip.Allotted c p st a) :
    Chip.Allotted c p (st + 1) (Chip.allocStep (c.port p) p st a) := by
  have left := ha.left
  have head := ha.streamed.streamHead hp st
  unfold Chip.allocStep
  split
  · next none =>
    rw [head] at none
    refine ha.next (.statBit hp _ hst 0) (fun j hj => Chip.setFld_bit_ne _ (by omega) (by omega)) ?_ ?_
    · rw [Chip.fits_none none]
      exact Chip.setFld_bit_same _ _ _ _ (by omega)
    · rw [Chip.fits_none none]
      rfl
  · next h some =>
    rw [head] at some
    have hh := Chip.streamHead_lt some
    have cost := ha.streamed.cost hp hh
    have kept : ∀ new cause j, j < st → (a.1.setCarried p st h new cause).bit (R.dptStat p) (16 + j) = a.1.bit (R.dptStat p) (16 + j) :=
      fun new cause j hj => (Chip.setCarried_bit hp _ hh (by omega) _ _).trans (if_neg (by omega))
    have own : ∀ new cause, (a.1.setCarried p st h new cause).bit (R.dptStat p) (16 + st) = (new % 2 == 1) :=
      fun new cause => (Chip.setCarried_bit hp _ hh (by omega) _ _).trans (if_pos rfl)
    have fits := Chip.fits_some (d := a.1) some
    by_cases denied : (c.port p).denied.contains st = true
    · rw [denied, Bool.not_true, Bool.false_and] at fits
      rw [if_pos denied]
      refine ha.next (.setCarried hp _ hst hh 0 1) (kept 0 1) ?_ ?_
      · rw [fits, own]; rfl
      · rw [fits]; rfl
    · rw [Bool.not_eq_true] at denied
      rw [denied, Bool.not_false, Bool.true_and] at fits
      rw [if_neg (by rw [denied]; decide), cost]
      by_cases short : a.2 < c.streamCost p h
      · have nofit : c.fits p a.1 st = false := fits.trans (decide_eq_false (by omega))
        rw [if_pos short]
        refine ha.next (.setCarried hp _ hst hh 0 0) (kept 0 0) ?_ ?_
        · rw [nofit, own]; rfl
        · rw [nofit]; rfl
      · have fit : c.fits p a.1 st = true := fits.trans (decide_eq_true (by omega))
        have rest : a.2 - c.streamCost p h + (if c.fits p a.1 st = true then ((c.streamHead p st).map (c.streamCost p)).getD 0 else 0) = a.2 := by
          rw [fit, some, if_pos rfl]
          exact Nat.sub_add_cancel (Nat.le_of_not_lt short)
        rw [if_neg short]
        by_cases carried : a.1.bit (R.dptStat p) (16 + st) = true
        · rw [if_pos carried]
          exact ha.next .refl (fun _ _ => rfl) (by rw [fit]; exact carried) rest
        · rw [if_neg carried]
          refine ha.next ((Chip.Streamed.setCarried hp _ hst hh 1 2).trans (.payload _ st)) (fun j hj => ?_) ?_ rest
          · exact (Chip.payload_bit _ _ _ _ _).trans (kept 1 2 j hj)
          · rw [fit]
            exact (Chip.payload_bit _ _ _ _ _).trans (own 1 2)

theorem Chip.streamCount_le : c.streamCount p ≤ 4 := by
  unfold Chip.streamCount
  split <;> decide

theorem Chip.Allotted.all (hp : p < 8) {n : Nat} (hn : n ≤ 4) :
    Chip.Allotted c p n (forN n (Chip.allocStep (c.port p) p) (c, c.portRoom p)) := by
  induction n with
  | zero => exact ⟨.refl, rfl, fun j hj => absurd hj (by omega)⟩
  | succ n ih =>
    rw [forN_succ]
    exact (ih (by omega)).step hp (by omega)

theorem Chip.Streamed.allocate (hp : p < 8) : Chip.Streamed p c (c.allocate p) := by
  rw [Chip.allocate_eq]
  split
  · exact (Chip.Allotted.all hp Chip.streamCount_le).streamed
  · exact .refl

/-- R307: on a port that is up the streams that fit are carried. -/
theorem Chip.allocate_carries (hp : p < 8) (up : c.dpState p = 3) : (c.allocate p).carriesWhatFits p := by
  obtain ⟨streamed, -, bits⟩ := Chip.Allotted.all (c := c) hp Chip.streamCount_le
  rw [Chip.allocate_eq, if_pos (by rw [up]; rfl)]
  generalize forN (c.streamCount p) (Chip.allocStep (c.port p) p) (c, c.portRoom p) = a at streamed bits ⊢
  intro st hst
  rw [streamed.mst hp] at hst
  rw [bits st hst, streamed.streamHead hp, Chip.port_of_ports streamed.ports, streamed.room hp]
  have taken : c.taken p a.1 st = (((List.range st).filter (fun j => a.1.bit (R.dptStat p) (16 + j))).map
      (fun j => ((a.1.streamHead p j).map (a.1.streamCost p)).getD 0)).sum := by
    refine congrArg List.sum (List.map_congr_left (fun j _ => ?_))
    rw [streamed.streamHead hp]
    cases hs : c.streamHead p j with
    | none => rfl
    | some h => simp only [Option.map_some, streamed.cost hp (Chip.streamHead_lt hs)]
  cases hs : c.streamHead p st with
  | none => rw [Chip.fits_none hs]; rfl
  | some h =>
    rw [Chip.fits_some hs, taken, Option.any_some, streamed.cost hp (Chip.streamHead_lt hs)]

/-! ### Streams that stop (R306) -/

/-- R306: one stream stops. -/
def Chip.stopStep (p st : Nat) (c : Chip) : Chip :=
  if !c.bit (R.dptStat p) (16 + st) then c
  else match c.streamHead p st with
    | some h => c.setCarried p st h 0 2
    | none => c.setFld (R.dptStat p) (16 + st) (16 + st) 0

theorem Chip.stopStreams_eq : c.stopStreams p = forN 4 (fun st c => c.stopStep p st) c := rfl

theorem Chip.Streamed.stopStep (hp : p < 8) (c : Chip) {st : Nat} (hst : st < 4) : Chip.Streamed p c (Chip.stopStep p st c) := by
  unfold Chip.stopStep
  split
  · exact .refl
  · split
    · next h some => exact .setCarried hp c hst (Chip.streamHead_lt some) 0 2
    · exact .statBit hp c hst 0

theorem Chip.stopStep_bit (hp : p < 8) (c : Chip) {st j : Nat} (hj : j < 4) :
    (Chip.stopStep p st c).bit (R.dptStat p) (16 + j) = (if j = st then false else c.bit (R.dptStat p) (16 + j)) := by
  unfold Chip.stopStep
  split
  · next clear =>
    by_cases h : j = st
    · rw [if_pos h, h]; simpa using clear
    · rw [if_neg h]
  · split
    · next h some => exact Chip.setCarried_bit hp c (Chip.streamHead_lt some) hj 0 2
    · by_cases h : j = st
      · rw [if_pos h, h]; exact Chip.setFld_bit_same _ _ _ _ (by omega)
      · rw [if_neg h]; exact Chip.setFld_bit_ne _ (by omega) (by omega)

/-- A head whose stream has stopped. -/
def Chip.silent (c : Chip) (h : Nat) : Prop := c.bit (R.hedStat h) 26 = false ∧ (c.head h).videoOn = false

/-- A silent head stays so. -/
theorem Chip.silent_setCarried (hp : p < 8) {st h j : Nat} (hh : h < 32) (hj : j < 32) (hs : c.silent j) (cause : Nat) :
    (c.setCarried p st h 0 cause).silent j := by
  by_cases same : j = h
  · rw [same]
    exact Chip.setCarried_stops c p st hh hp cause
  · obtain ⟨-, apart, -⟩ := streamRegs_apart p hp
    have stat := (apart j hj).2.1
    simp only [mem_eventRegs, not_or] at stat
    rw [Chip.silent, Chip.setCarried_eq, Chip.event_bit_other _ stat.1 stat.2, Chip.setFld_bit_ne _ (by decide) (.inl ((apart h hh).2.2.1 j hj same)),
      Chip.setFld_bit_ne _ (by decide) (.inl (apart j hj).1), Chip.head_of_heads (Chip.event_heads _ _ _ _), if_pos (by decide)]
    refine ⟨hs.1, ?_⟩
    have eq := (Chip.head_modHead c h j (fun x => { x with videoOn := false })).trans (if_neg same)
    exact ((congrArg Head.videoOn eq : _) : _).trans hs.2

theorem Chip.silent_stopStep (hp : p < 8) {st j : Nat} (hj : j < 32) (hs : c.silent j) : (Chip.stopStep p st c).silent j := by
  unfold Chip.stopStep
  split
  · exact hs
  · split
    · next h some => exact Chip.silent_setCarried hp (Chip.streamHead_lt some) hj hs 2
    · obtain ⟨-, apart, -⟩ := streamRegs_apart p hp
      exact ⟨(Chip.setFld_bit_ne _ (by decide) (.inl (apart j hj).1)).trans hs.1, hs.2⟩

theorem Chip.stopStep_stops (hp : p < 8) {st h : Nat} (on : c.bit (R.dptStat p) (16 + st) = true) (hs : c.streamHead p st = some h) :
    (Chip.stopStep p st c).silent h := by
  have eq : Chip.stopStep p st c = c.setCarried p st h 0 2 := by
    rw [Chip.stopStep, if_neg (by rw [on]; decide), hs]
  rw [eq]
  exact Chip.setCarried_stops c p st (Chip.streamHead_lt hs) hp 2

/-- What stands when the streams before `n` have stopped. -/
structure Chip.Stopped (c : Chip) (p n : Nat) (d : Chip) : Prop where
  streamed : Chip.Streamed p c d
  bits : ∀ j, j < 4 → d.bit (R.dptStat p) (16 + j) = (if j < n then false else c.bit (R.dptStat p) (16 + j))
  heads : ∀ j h, j < n → c.streamHead p j = some h → c.bit (R.dptStat p) (16 + j) = true → d.silent h

theorem Chip.Stopped.all (hp : p < 8) {n : Nat} (hn : n ≤ 4) : Chip.Stopped c p n (forN n (fun st c => c.stopStep p st) c) := by
  induction n with
  | zero => exact ⟨.refl, fun _ _ => rfl, fun j _ hj => absurd hj (by omega)⟩
  | succ n ih =>
    rw [forN_succ]
    obtain ⟨streamed, bits, heads⟩ := ih (by omega)
    refine ⟨streamed.trans (.stopStep hp _ (by omega)), fun j hj => ?_, fun j h hj hs on => ?_⟩
    · rw [Chip.stopStep_bit hp _ hj, bits j hj]
      by_cases last : j = n
      · rw [if_pos last, if_pos (by omega)]
      · rw [if_neg last]
        by_cases lt : j < n
        · rw [if_pos lt, if_pos (by omega)]
        · rw [if_neg lt, if_neg (by omega)]
    · by_cases last : j = n
      · refine Chip.stopStep_stops hp ?_ ?_
        · rw [bits n (by omega), if_neg (by omega), ← last]
          exact on
        · rw [streamed.streamHead hp, ← last]
          exact hs
      · exact Chip.silent_stopStep hp (Chip.streamHead_lt hs) (heads j h (by omega) hs on)

end

end Sys2Proof.Machine

namespace Sys2Proof.Machine

/-! ### Commits (R274) -/

section
variable {s : State} {t : Stamp} {src : Source} {h : Nat}

theorem exec_commits (hh : h < 32) : exec (.commitRequest t src h) s = .next { s with chip := (s.chip.at t).commitCommand src h 1 } ∧
    exec (.commitCancel t src h) s = .next { s with chip := (s.chip.at t).commitCommand src h 2 } :=
  ⟨if_pos (decide_eq_true hh), if_pos (decide_eq_true hh)⟩

variable {c : Chip}

theorem Chip.commitCommand_refused {cmd cause : Nat} (eq : c.commitCause h cmd = cause) (ne : cause ≠ 0) :
    c.commitCommand src h cmd = c.refuse src (R.cmpCmd h) (cmdWord cmd) cause := by
  rw [Chip.commitCommand, eq, if_pos (by simpa using ne)]

theorem Chip.commitCommand_request (eq : c.commitCause h 1 = 0) : c.commitCommand src h 1 = c.pendCommit h := by
  rw [Chip.commitCommand, eq, if_neg (by decide), if_pos (by decide)]

theorem Chip.commitCommand_cancel (eq : c.commitCause h 2 = 0) : c.commitCommand src h 2 = c.withdrawCommit h := by
  rw [Chip.commitCommand, eq, if_neg (by decide), if_neg (by decide), if_pos (by decide)]

theorem Chip.commitCause_request : c.commitCause h 1 = if !c.bit (R.hedCtl h) 31 then 1 else if c.bit (R.cmpStat h) 31 then 2 else 0 := rfl

theorem Chip.commitCause_cancel : c.commitCause h 2 = if c.bit (R.cmpStat h) 31 then 0 else 1 := rfl

/-- A command that sets the commit's bit and notes it in the head's record. -/
theorem Chip.commit_says (c : Chip) (h v : Nat) (f : Head → Head) {d : Chip} (hd : d = (c.setFld (R.cmpStat h) 31 31 v).modHead h f) :
    d.bit (R.cmpStat h) 31 = (v % 2 == 1) ∧ d.head h = f (c.head h) ∧ d.fld (R.cmpStat h) 30 0 = c.fld (R.cmpStat h) 30 0 ∧
      d.curElem = c.curElem ∧ (∀ j, j < 32 → j ≠ h → d.head j = c.head j) ∧ c.writesOnly d [R.cmpStat h] ∧ c.raises d [] := by
  subst hd
  refine ⟨Chip.setFld_bit_same c _ _ _ (by decide), (Chip.head_modHead _ h h f).trans (if_pos rfl), Chip.setFld_fld_ne c (by decide) (by omega), rfl,
    fun j _ hj => (Chip.head_modHead _ h j f).trans (if_neg hj), Chip.writesOnly_of (by simp) rfl rfl, Chip.raises_of_evq rfl⟩

end

/-! ### Head enables (R293) -/

/-- R290: `HED_CTL` holds EN alone. -/
theorem hedCtl_desc : ∀ h, h < 32 → (descAt (R.hedCtl h)).map (fun d => d.1.fields) = some [⟨"EN", 31, 31, .lv, .const 0, .any⟩] ∧
    R.hedCtl h ∉ dropRegs := by decide +kernel

theorem bitsOf_bit (w : Word) {i : Nat} : (bitsOf w i i == 1) = w.getLsbD i := by
  rw [BitVec.getLsbD, Nat.testBit_eq_decide_div_mod_eq, bitsOf, bitsNat, show i + 1 - i = 1 by omega, Nat.pow_one]
  rfl

/-- R293: a write of `HED_CTL` sets EN. -/
theorem Chip.writeHedCtl_bit (c : Chip) {h : Nat} (hh : h < 32) (w : Word) : (c.writeFields (R.hedCtl h) w).bit (R.hedCtl h) 31 = w.getLsbD 31 := by
  obtain ⟨fields, apart⟩ := hedCtl_desc h hh
  obtain ⟨d, hd, hf⟩ := Option.map_eq_some_iff.mp fields
  have read := (c.writeFields_says hd apart w).1
  have after : d.1.after c.isSealed (c.dynBound (R.hedCtl h)) (c.reg (R.hedCtl h)) w = putBits 0 31 31 (bitsOf w 31 31) := by
    rw [RegDesc.after, hf]
    rfl
  have bit : bitsOf (putBits 0 31 31 (bitsOf w 31 31)) 31 31 = bitsOf w 31 31 := by
    rw [bitsOf_putBits_same _ _ _ _ (by decide)]
    exact Nat.mod_eq_of_lt (bitsOf_lt w 31 31)
  rw [Chip.bit, Chip.fld, read, after, bit, bitsOf_bit]

section
variable {s : State} {t : Stamp} {h : Nat} {w : Word}

theorem exec_headEnableWrite (hh : h < 32) : exec (.headEnableWrite t h w) s = .next { s with chip := (s.chip.at t).headEnable h w } :=
  if_pos (decide_eq_true hh)

/-- The registers that a write of `HED_CTL` leaves. -/
theorem dropRegs_apart : ∀ h, h < 32 → ∀ a ∈ [R.hedStat h, R.hedOut h, R.hedPhase h, R.hedPeriod h, R.hedPeriodFrac h],
    a ∉ R.hedCtl h :: dropRegs := by decide +kernel

theorem hedCtl_ne_stat : ∀ h, h < 32 → ∀ j, j < 32 → R.hedCtl h ≠ R.hedStat j ∧ R.hedStat j ∉ R.hedCtl h :: dropRegs := by decide +kernel

/-- What a write of `HED_CTL` leaves. -/
theorem Chip.writeHedCtl_says (c : Chip) (hh : h < 32) (w : Word) {d : Chip} (hd : d = c.writeFields (R.hedCtl h) w) :
    d.bit (R.hedCtl h) 31 = w.getLsbD 31 ∧ regsSame (R.hedCtl h :: dropRegs) c.regs d.regs ∧ d.heads = c.heads ∧ d.dram = c.dram ∧ d.tbw = c.tbw ∧
      d.clk = c.clk ∧ (∀ a ∈ [R.hedStat h, R.hedOut h, R.hedPhase h, R.hedPeriod h, R.hedPeriodFrac h], d.reg a = c.reg a) := by
  have regs : regsSame (R.hedCtl h :: dropRegs) c.regs d.regs := by rw [hd]; simp +contextual [regsSame_writeFields_iff]
  refine ⟨by rw [hd, Chip.writeHedCtl_bit c hh], regs, ?_, ?_, ?_, ?_, fun a ha => ?_⟩
  · rw [hd, Chip.writeFields_heads]
  · rw [hd, Chip.writeFields_dram]
  · rw [hd, Chip.writeFields_tbw]
  · rw [hd, Chip.writeFields_clk]
  · exact regs.reg (dropRegs_apart h hh a ha)

/-- R293: a started head. -/
def Chip.toldToStart (c : Chip) (h k : Nat) : Chip :=
  (c.setFld (R.hedStat h) 31 30 1).modHead h (fun x => { x with k := k, firstK := k, raster := 0, trim := 0 })

theorem Chip.startHead_eq (c : Chip) (h : Nat) : c.startHead h =
    if (c.toldToStart h (c.gridAfter h (c.clk + 2 * nsPerMs))).fld (R.hedOut h) 31 30 == 1 then
      (c.toldToStart h (c.gridAfter h (c.clk + 2 * nsPerMs))).allocate
        ((c.toldToStart h (c.gridAfter h (c.clk + 2 * nsPerMs))).fld (R.hedOut h) 29 27)
    else c.toldToStart h (c.gridAfter h (c.clk + 2 * nsPerMs)) := rfl

theorem Chip.headEnable_start {c : Chip} (hh : h < 32) (on : w.getLsbD 31 = true) (run : (c.writeFields (R.hedCtl h) w).headRun h = 0) :
    c.headEnable h w = (c.writeFields (R.hedCtl h) w).startHead h := by
  rw [Chip.headEnable, Chip.writeHedCtl_bit c hh, on, run, if_pos (by decide)]

theorem Chip.headEnable_stop {c : Chip} (hh : h < 32) (off : w.getLsbD 31 = false) (run : (c.writeFields (R.hedCtl h) w).headRun h = 1) :
    c.headEnable h w = ((c.writeFields (R.hedCtl h) w).setFld (R.hedStat h) 31 30 0).dropStream h := by
  rw [Chip.headEnable, Chip.writeHedCtl_bit c hh, off, run, if_neg (by decide), if_pos (by decide)]

theorem Chip.headEnable_stays {c : Chip} (hh : h < 32) (stays : 2 ≤ (c.writeFields (R.hedCtl h) w).headRun h ∨
    (c.writeFields (R.hedCtl h) w).headRun h = 1 ∧ w.getLsbD 31 = true ∨ (c.writeFields (R.hedCtl h) w).headRun h = 0 ∧ w.getLsbD 31 = false) :
    c.headEnable h w = c.writeFields (R.hedCtl h) w := by
  rw [Chip.headEnable, Chip.writeHedCtl_bit c hh]
  rcases stays with run | ⟨run, en⟩ | ⟨run, en⟩
  · rw [if_neg (by simp; omega), if_neg (by simp; omega)]
  · rw [run, en, if_neg (by decide), if_neg (by decide)]
  · rw [run, en, if_neg (by decide), if_neg (by decide)]

/-- The registers a head's start or stop writes. -/
theorem headRegs_mem {p : Nat} (hh : h < 32) : R.hedStat h ∈ [R.hedCtl h, R.dptStat p] ++ (List.range 32).map R.hedStat ++ dropRegs := by
  simp only [List.mem_append, List.mem_map, List.mem_range]
  exact .inl (.inr ⟨h, hh, rfl⟩)

theorem streamRegs_sub {p : Nat} : ∀ a ∈ streamRegs p, a ∈ [R.hedCtl h, R.dptStat p] ++ (List.range 32).map R.hedStat ++ dropRegs := by
  intro a ha
  simp only [streamRegs, List.cons_append, List.mem_cons, List.mem_append, dropRegs] at ha ⊢
  tauto

theorem writeRegs_sub {p : Nat} : ∀ a ∈ R.hedCtl h :: dropRegs, a ∈ [R.hedCtl h, R.dptStat p] ++ (List.range 32).map R.hedStat ++ dropRegs := by
  intro a ha
  simp only [List.cons_append, List.mem_cons, List.mem_append] at ha ⊢
  tauto

/-- The stream of a head is seen to, or nothing more happens, after the head's run state has changed in `c`. -/
theorem Chip.Streamed.head_k {p : Nat} {c c1 : Chip} (hs : Chip.Streamed p c c1) (j : Nat) :
    (c1.head j).k = (c.head j).k ∧ (c1.head j).firstK = (c.head j).firstK :=
  ⟨(congrArg Head.k (hs.heads j) : _), (congrArg Head.firstK (hs.heads j) : _)⟩

end

end Sys2Proof.Machine

namespace Sys2Proof.Machine

section
variable {s : State} {t : Stamp} {h : Nat} {w : Word}

/-- What the run state of a head and its grid read, which no other head's do. -/
theorem hedStat_apart : ∀ h, h < 32 → R.hedCtl h ≠ R.hedStat h ∧ (∀ p, p < 8 → R.hedCtl h ∉ streamRegs p) ∧ R.hedOut h ≠ R.hedStat h := by
  decide +kernel

theorem hedOut_port (c : Chip) (h : Nat) : c.fld (R.hedOut h) 29 27 < 8 := bitsOf_lt _ 29 27

/-- What a head's own start leaves, before its stream. -/
theorem Chip.toldToStart_says (c : Chip) (hh : h < 32) (k : Nat) {d : Chip} (hd : d = c.toldToStart h k) :
    d.headRun h = 1 ∧ (d.head h).k = k ∧ (d.head h).firstK = k ∧ (∀ j, j ≠ h → d.head j = c.head j) ∧
      (∀ j, j < 32 → j ≠ h → d.headRun j = c.headRun j) ∧ regsSame [R.hedStat h] c.regs d.regs ∧ d.dram = c.dram ∧ d.tbw = c.tbw := by
  obtain ⟨-, apart, -⟩ := streamRegs_apart 0 (by decide)
  have own : d.head h = { c.head h with k := k, firstK := k, raster := 0, trim := 0 } := by
    rw [hd]
    exact (Chip.head_modHead _ h h _).trans (if_pos rfl)
  subst hd
  refine ⟨Chip.setFld_fld_same c _ _ _ _ (by decide), by rw [own], by rw [own], fun j hj => (Chip.head_modHead _ h j _).trans (if_neg hj),
    fun j hj' hj => Chip.setFld_fld_ne c (by decide) (.inl ((apart h hh).2.2.1 j hj' hj)), ?_, rfl, rfl⟩
  rw [Chip.toldToStart]
  simp

/-- R290, R293: EN written 1 starts a stopped head. -/
theorem head_starts (hh : h < 32) (run : s.chip.fld (R.hedStat h) 31 30 = 0) (on : w.getLsbD 31 = true) :
    ∃ d, (d.bit (R.hedCtl h) 31 = true ∧ d.headRun h = 1 ∧
      (d.head h).k = ceilDiv ((t + 2 * nsPerMs - s.chip.fld (R.hedPhase h) 26 0) * 65536)
        (s.chip.fld (R.hedPeriod h) 26 0 * 65536 + s.chip.fld (R.hedPeriodFrac h) 15 0) ∧ (d.head h).firstK = (d.head h).k ∧
      (∀ j, j ≠ h → d.head j = s.chip.head j) ∧ (∀ j, j < 32 → j ≠ h → d.headRun j = s.chip.headRun j) ∧
      regsSame (R.hedCtl h :: R.hedStat h :: dropRegs) s.chip.regs d.regs ∧ d.dram = s.chip.dram ∧ d.tbw = s.chip.tbw ∧
      d.reg (R.hedOut h) = s.chip.reg (R.hedOut h)) ∧
      exec (.headEnableWrite t h w) s = .next { s with chip := if d.fld (R.hedOut h) 31 30 == 1 then d.allocate (d.fld (R.hedOut h) 29 27) else d } := by
  obtain ⟨bit, regs, heads, dram, tbw, clk, reads⟩ := (s.chip.at t).writeHedCtl_says hh w rfl
  have start := Chip.headEnable_start (c := s.chip.at t) hh on (by
    rw [Chip.headRun, Chip.fld_of_reg (reads _ (by simp))]
    exact run)
  have grid : ∀ n, ((s.chip.at t).writeFields (R.hedCtl h) w).gridAfter h n =
      ceilDiv ((n - s.chip.fld (R.hedPhase h) 26 0) * 65536) (s.chip.fld (R.hedPeriod h) 26 0 * 65536 + s.chip.fld (R.hedPeriodFrac h) 15 0) := fun n => by
    rw [Chip.gridAfter, Chip.headQ, Chip.fld_of_reg (reads _ (by simp)), Chip.fld_of_reg (reads (R.hedPeriod h) (by simp)),
      Chip.fld_of_reg (reads (R.hedPeriodFrac h) (by simp))]
    rfl
  rw [Chip.startHead_eq, grid, clk] at start
  obtain ⟨ctlStat, -, outStat⟩ := hedStat_apart h hh
  generalize (s.chip.at t).writeFields (R.hedCtl h) w = e at *
  obtain ⟨drun, dk, dfirst, dothers, druns, dregs, ddram, dtbw⟩ := e.toldToStart_says hh
    (ceilDiv (((s.chip.at t).clk + 2 * nsPerMs - s.chip.fld (R.hedPhase h) 26 0) * 65536)
      (s.chip.fld (R.hedPeriod h) 26 0 * 65536 + s.chip.fld (R.hedPeriodFrac h) 15 0)) rfl
  refine ⟨_, ⟨?_, drun, dk, dfirst.trans dk.symm, fun j hj => (dothers j hj).trans (Chip.head_of_heads heads j),
    fun j hj hne => (druns j hj hne).trans ?_, ?_, ddram.trans dram, dtbw.trans tbw, ?_⟩, by rw [exec_headEnableWrite hh, start]⟩
  · rw [dregs.bit (by simpa using ctlStat), bit, on]
  · exact regs.fld (hedCtl_ne_stat h hh j hj).2 31 30
  · exact (regs.mono (by simp +contextual)).trans (dregs.mono (by simp))
  · rw [dregs.reg (by simpa using outStat), reads _ (by simp)]
    rfl

/-- R293: what stands after a start with the head's stream seen to. -/
theorem start_streams (hh : h < 32) (run : s.chip.fld (R.hedStat h) 31 30 = 0) (on : w.getLsbD 31 = true) :
    Answers (.headEnableWrite t h w) s (fun c => c.bit (R.hedCtl h) 31 = true ∧ c.fld (R.hedStat h) 31 30 = 1 ∧
      (c.head h).k = ceilDiv ((t + 2 * nsPerMs - s.chip.fld (R.hedPhase h) 26 0) * 65536)
        (s.chip.fld (R.hedPeriod h) 26 0 * 65536 + s.chip.fld (R.hedPeriodFrac h) 15 0) ∧ (c.head h).firstK = (c.head h).k ∧
      (s.chip.fld (R.hedOut h) 31 30 = 1 → c.dpState (s.chip.fld (R.hedOut h) 29 27) = 3 →
        c.carriesWhatFits (s.chip.fld (R.hedOut h) 29 27)) ∧
      (∀ j, j < 32 → j ≠ h → (c.head j).k = (s.chip.head j).k ∧ c.headRun j = s.chip.headRun j) ∧
      s.chip.writesOnly c ([R.hedCtl h, R.dptStat (s.chip.fld (R.hedOut h) 29 27)] ++ (List.range 32).map R.hedStat ++ dropRegs)) := by
  obtain ⟨d, ⟨en, drun, dk, dfirst, others, runs, regs, dram, tbw, out⟩, ex⟩ := head_starts (t := t) hh run on
  rw [Chip.fld_of_reg out, Chip.fld_of_reg out] at ex
  have hp := hedOut_port s.chip h
  generalize s.chip.fld (R.hedOut h) 29 27 = p at ex hp ⊢
  refine answers_exec ex ?_
  have dregs : regsSame ([R.hedCtl h, R.dptStat p] ++ (List.range 32).map R.hedStat ++ dropRegs) s.chip.regs d.regs :=
    regs.mono (fun a ha => by
      rw [List.mem_cons, List.mem_cons] at ha
      rcases ha with rfl | rfl | ha
      · simp
      · exact headRegs_mem hh
      · exact List.mem_append_right _ ha)
  by_cases dp : (s.chip.fld (R.hedOut h) 31 30 == 1) = true
  · rw [if_pos dp]
    have str := Chip.Streamed.allocate (c := d) hp
    have carries := fun up => Chip.allocate_carries (c := d) hp up
    generalize d.allocate p = f at str carries ⊢
    refine ⟨?_, (str.run hh).trans drun, (str.head_k h).1.trans dk, ?_, fun _ up => carries ?_, fun j hj hne => ⟨?_, ?_⟩,
      Chip.writesOnly_of (dregs.trans (str.regs.mono streamRegs_sub)) (str.dram.trans dram) (str.tbw.trans tbw)⟩
    · rw [str.regs.bit ((hedStat_apart h hh).2.1 p hp), en]
    · rw [(str.head_k h).2, (str.head_k h).1, dfirst]
    · exact (str.stat 30 28 (by decide) (by decide)).symm.trans up
    · rw [(str.head_k j).1, others j hne]
    · rw [str.run hj, runs j hj hne]
  · rw [if_neg dp]
    exact ⟨en, drun, dk, dfirst, fun one => absurd (by rw [one]; rfl) dp, fun j hj hne => ⟨by rw [others j hne], runs j hj hne⟩,
      Chip.writesOnly_of dregs dram tbw⟩

/-- R293: a start of a head that feeds no transmit port. -/
theorem start_alone (hh : h < 32) (run : s.chip.fld (R.hedStat h) 31 30 = 0) (on : w.getLsbD 31 = true)
    (out : s.chip.fld (R.hedOut h) 31 30 ≠ 1) :
    Answers (.headEnableWrite t h w) s (fun c => (∀ j, j < 32 → j ≠ h → c.head j = s.chip.head j) ∧
      s.chip.writesOnly c ([R.hedCtl h, R.hedStat h] ++ dropRegs)) := by
  obtain ⟨d, ⟨-, -, -, -, others, -, regs, dram, tbw, same⟩, ex⟩ := head_starts (t := t) hh run on
  rw [Chip.fld_of_reg same, if_neg (by simpa using out)] at ex
  exact answers_exec ex ⟨fun j _ hj => others j hj, Chip.writesOnly_of regs dram tbw⟩

/-- R293: EN written 0 stops a head that has not begun. -/
theorem head_stops (hh : h < 32) (run : s.chip.fld (R.hedStat h) 31 30 = 1) (off : w.getLsbD 31 = false) :
    Answers (.headEnableWrite t h w) s (fun c => c.bit (R.hedCtl h) 31 = false ∧ c.fld (R.hedStat h) 31 30 = 0 ∧
      (c.head h).k = (s.chip.head h).k ∧
      (∀ j, j < 32 → j ≠ h → (c.head j).k = (s.chip.head j).k ∧ c.headRun j = s.chip.headRun j) ∧
      s.chip.writesOnly c ([R.hedCtl h, R.dptStat (s.chip.fld (R.hedOut h) 29 27)] ++ (List.range 32).map R.hedStat ++ dropRegs)) := by
  obtain ⟨bit, regs, heads, dram, tbw, -, reads⟩ := (s.chip.at t).writeHedCtl_says hh w rfl
  have stop := Chip.headEnable_stop (c := s.chip.at t) hh off (by
    rw [Chip.headRun, Chip.fld_of_reg (reads _ (by simp))]
    exact run)
  refine answers_exec (exec_headEnableWrite hh) ?_
  rw [stop]
  generalize (s.chip.at t).writeFields (R.hedCtl h) w = e at *
  obtain ⟨ctlStat, ctlStream, outStat⟩ := hedStat_apart h hh
  obtain ⟨-, apart, -⟩ := streamRegs_apart 0 (by decide)
  have hp := hedOut_port s.chip h
  have out : (e.setFld (R.hedStat h) 31 30 0).reg (R.hedOut h) = s.chip.reg (R.hedOut h) :=
    (Chip.setFld_reg_other e _ _ _ outStat).trans (reads _ (by simp))
  have first : regsSame ([R.hedCtl h, R.dptStat (s.chip.fld (R.hedOut h) 29 27)] ++ (List.range 32).map R.hedStat ++ dropRegs) s.chip.regs
      (e.setFld (R.hedStat h) 31 30 0).regs := (regs.mono writeRegs_sub).trans (by rw [regsSame_setFld_iff (headRegs_mem hh)]; exact regsSame.refl)
  have frun : (e.setFld (R.hedStat h) 31 30 0).fld (R.hedStat h) 31 30 = 0 := Chip.setFld_fld_same e _ _ _ _ (by decide)
  have fen : (e.setFld (R.hedStat h) 31 30 0).bit (R.hedCtl h) 31 = false := by rw [Chip.setFld_bit_other e _ _ _ _ ctlStat, bit, off]
  have fruns : ∀ j, j < 32 → j ≠ h → (e.setFld (R.hedStat h) 31 30 0).headRun j = s.chip.headRun j := fun j hj hne =>
    (Chip.setFld_fld_ne e (by decide) (.inl ((apart h hh).2.2.1 j hj hne))).trans (regs.fld (hedCtl_ne_stat h hh j hj).2 31 30)
  have fheads : ∀ j, (e.setFld (R.hedStat h) 31 30 0).head j = s.chip.head j := fun j => Chip.head_of_heads ((Chip.setFld_heads _ _ _ _ _).trans heads) j
  have fdram : (e.setFld (R.hedStat h) 31 30 0).dram = s.chip.dram := (Chip.setFld_dram _ _ _ _ _).trans dram
  have ftbw : (e.setFld (R.hedStat h) 31 30 0).tbw = s.chip.tbw := (Chip.setFld_tbw _ _ _ _ _).trans tbw
  generalize e.setFld (R.hedStat h) 31 30 0 = f at *
  rw [Chip.dropStream, Chip.fld_of_reg out, Chip.fld_of_reg out]
  generalize s.chip.fld (R.hedOut h) 29 27 = p at hp first ⊢
  by_cases dp : (s.chip.fld (R.hedOut h) 31 30 == 1) = true
  · rw [if_pos dp]
    have str := (Chip.Streamed.headBit hp f hh 0).trans (.allocate hp)
    generalize (f.setFld (R.hedStat h) 26 26 0).allocate p = g at str ⊢
    refine ⟨?_, (str.run hh).trans frun, ?_, fun j hj hne => ⟨?_, ?_⟩,
      Chip.writesOnly_of (first.trans (str.regs.mono streamRegs_sub)) (str.dram.trans fdram) (str.tbw.trans ftbw)⟩
    · rw [str.regs.bit (ctlStream p hp), fen]
    · rw [(str.head_k h).1, fheads]
    · rw [(str.head_k j).1, fheads]
    · rw [str.run hj, fruns j hj hne]
  · rw [if_neg dp]
    exact ⟨fen, frun, by rw [fheads], fun j hj hne => ⟨by rw [fheads], fruns j hj hne⟩, Chip.writesOnly_of first fdram ftbw⟩

/-- R293: a head that reads EN at its frame starts. -/
theorem head_stays (hh : h < 32) (stays : 2 ≤ s.chip.fld (R.hedStat h) 31 30 ∨ s.chip.fld (R.hedStat h) 31 30 = 1 ∧ w.getLsbD 31 = true ∨
    s.chip.fld (R.hedStat h) 31 30 = 0 ∧ w.getLsbD 31 = false) :
    Answers (.headEnableWrite t h w) s (fun c => (c.bit (R.hedCtl h) 31 = true ↔ w.getLsbD 31 = true) ∧
      c.reg (R.hedStat h) = s.chip.reg (R.hedStat h) ∧ c.heads = s.chip.heads ∧ s.chip.writesOnly c (R.hedCtl h :: dropRegs)) := by
  obtain ⟨bit, regs, heads, dram, tbw, -, reads⟩ := (s.chip.at t).writeHedCtl_says hh w rfl
  have stat := reads (R.hedStat h) (by simp)
  refine answers_exec (exec_headEnableWrite hh) ?_
  rw [Chip.headEnable_stays hh (by rw [Chip.headRun, Chip.fld_of_reg stat]; exact stays)]
  exact ⟨by rw [bit], stat, heads, Chip.writesOnly_of regs dram tbw⟩

end

/-- Settles O45: each command by its cause and what it does, and a write of EN by the head's run state. -/
theorem commitsAndHeadEnablesAreTaken : Obligations.CommitsAndHeadEnablesAreTaken := by
  unfold Obligations.CommitsAndHeadEnablesAreTaken
  refine ⟨fun s t src h hh en fresh => ?_, fun s t src h hh pending => ?_, fun s t src h hh bad => ?_, fun s t src h hh none => ?_,
    fun s t h w hh run on => start_streams hh run on, fun s t h w hh run on out => start_alone hh run on out,
    fun s t h w hh run off => head_stops hh run off, fun s t h w hh stays => head_stays hh stays⟩
  · refine answers_exec (exec_commits hh).1 ?_
    rw [Chip.commitCommand_request (by rw [Chip.commitCause_request, show (s.chip.at t).bit (R.hedCtl h) 31 = _ from en,
      show (s.chip.at t).bit (R.cmpStat h) 31 = _ from fresh]; rfl)]
    exact (s.chip.at t).commit_says h 1 _ rfl
  · refine answers_exec (exec_commits hh).2 ?_
    rw [Chip.commitCommand_cancel (by rw [Chip.commitCause_cancel, show (s.chip.at t).bit (R.cmpStat h) 31 = _ from pending]; rfl)]
    exact (s.chip.at t).commit_says h 0 _ rfl
  · refine answers_exec (exec_commits hh).1 ?_
    have cause : (s.chip.at t).commitCause h 1 = if s.chip.bit (R.hedCtl h) 31 = false then 1 else 2 := by
      rw [Chip.commitCause_request, show (s.chip.at t).bit (R.hedCtl h) 31 = s.chip.bit (R.hedCtl h) 31 from rfl,
        show (s.chip.at t).bit (R.cmpStat h) 31 = s.chip.bit (R.cmpStat h) 31 from rfl]
      cases en : s.chip.bit (R.hedCtl h) 31
      · rfl
      · rw [en] at bad
        rw [bad.resolve_left (by decide)]
        rfl
    rw [Chip.commitCommand_refused cause (by split_ifs <;> decide)]
    exact ⟨Chip.refuse_heads _ _ _ _ _, s.chip.at_refused t _ _ _ _⟩
  · refine answers_exec (exec_commits hh).2 ?_
    rw [Chip.commitCommand_refused (cause := 1) (by rw [Chip.commitCause_cancel, show (s.chip.at t).bit (R.cmpStat h) 31 = _ from none]; rfl) (by decide)]
    exact ⟨Chip.refuse_heads _ _ _ _ _, s.chip.at_refused t _ _ _ _⟩

end Sys2Proof.Machine

namespace Sys2Proof.Machine

/-! ### What a transmit port's link does to the part (R305, R306) -/

/-- The registers of port `p`'s stored EDIDs. -/
def edidRegs (p : Nat) : List Nat := (List.range 128).map (fun k => R.dptEdid p (k / 32) (k % 32))

section
variable (c : Chip) (p : Nat) (f : DpPort → DpPort)

@[simp] theorem Chip.modPort_regs : (c.modPort p f).regs = c.regs := rfl
@[simp] theorem Chip.modPort_reg (a : Nat) : (c.modPort p f).reg a = c.reg a := rfl
@[simp] theorem Chip.modPort_dram : (c.modPort p f).dram = c.dram := rfl
@[simp] theorem Chip.modPort_tbw : (c.modPort p f).tbw = c.tbw := rfl
@[simp] theorem Chip.modPort_tx : (c.modPort p f).tx = c.tx := rfl
@[simp] theorem Chip.modPort_evq : (c.modPort p f).evq = c.evq := rfl
@[simp] theorem Chip.modPort_heads : (c.modPort p f).heads = c.heads := rfl

end

/-- What the link of a port leaves: what only sends, or stores the EDIDs. -/
structure Chip.Linked (p : Nat) (c c1 : Chip) : Prop where
  regs : regsSame (edidRegs p) c.regs c1.regs
  ports : c1.ports = c.ports
  heads : c1.heads = c.heads
  tx : c.tx <+: c1.tx
  evq : c1.evq = c.evq
  dram : c1.dram = c.dram
  tbw : c1.tbw = c.tbw
  clk : c1.clk = c.clk

section
variable {p : Nat} {c c1 c2 : Chip}

theorem Chip.Linked.refl : Chip.Linked p c c := ⟨regsSame.refl, rfl, rfl, List.prefix_refl _, rfl, rfl, rfl, rfl⟩

theorem Chip.Linked.trans (h1 : Chip.Linked p c c1) (h2 : Chip.Linked p c1 c2) : Chip.Linked p c c2 :=
  ⟨h1.regs.trans h2.regs, h2.ports.trans h1.ports, h2.heads.trans h1.heads, h1.tx.trans h2.tx, h2.evq.trans h1.evq, h2.dram.trans h1.dram,
    h2.tbw.trans h1.tbw, h2.clk.trans h1.clk⟩

theorem Chip.Linked.send (c : Chip) (m : TxMsg) : Chip.Linked p c (c.send m) :=
  ⟨regsSame.refl, rfl, rfl, List.prefix_append _ _, rfl, rfl, rfl, rfl⟩

theorem Chip.Linked.forL {β : Type} {l : List β} {f : β → Chip → Chip} (hf : ∀ x c, Chip.Linked p c (f x c)) (c : Chip) :
    Chip.Linked p c (forL l f c) := by
  unfold Machine.forL
  induction l generalizing c with
  | nil => exact .refl
  | cons x l ih => exact (hf x c).trans (ih _)

theorem Chip.Linked.forN {n : Nat} {f : Nat → Chip → Chip} (hf : ∀ i c, i < n → Chip.Linked p c (f i c)) (c : Chip) :
    Chip.Linked p c (forN n f c) := by
  induction n with
  | zero => rw [forN_zero]; exact .refl
  | succ n ih => rw [forN_succ]; exact (ih (fun i c hi => hf i c (by omega))).trans (hf n _ (by omega))

theorem Chip.Linked.enumerate (c : Chip) (p : Nat) : Chip.Linked p c (c.enumerate p) := by
  have asked : Chip.Linked p c ((c.send (.dpAux p .capabilities)).send (.dpAux p .repeaters)) := (Chip.Linked.send c _).trans (.send _ _)
  unfold Chip.enumerate
  generalize (c.send (.dpAux p .capabilities)).send (.dpAux p .repeaters) = d at asked ⊢
  dsimp only
  split
  · refine asked.trans (((Chip.Linked.send d _).trans (.send _ _)).trans (.forN (fun st e _ => ?_) _))
    exact ((((Chip.Linked.send e _).trans (.send _ _)).trans (.send _ _)).trans (.send _ _)).trans (.send _ _)
  · exact asked.trans (.send _ _)

/-- R305: the sink's capabilities are read, and the one EDID of a single stream. -/
theorem Chip.enumerate_asks (c : Chip) (p : Nat) : TxMsg.dpAux p .capabilities ∈ (c.enumerate p).tx ∧
    (c.bit (R.dptCtl p) 30 = false → TxMsg.dpAux p .edid ∈ (c.enumerate p).tx) := by
  have asked : TxMsg.dpAux p .capabilities ∈ ((c.send (.dpAux p .capabilities)).send (.dpAux p .repeaters)).tx := by simp [Chip.send]
  have bit : ((c.send (.dpAux p .capabilities)).send (.dpAux p .repeaters)).bit (R.dptCtl p) 30 = c.bit (R.dptCtl p) 30 := rfl
  have more : Chip.Linked p ((c.send (.dpAux p .capabilities)).send (.dpAux p .repeaters)) (c.enumerate p) := by
    unfold Chip.enumerate
    generalize (c.send (.dpAux p .capabilities)).send (.dpAux p .repeaters) = d
    dsimp only
    split
    · refine ((Chip.Linked.send d _).trans (.send _ _)).trans (.forN (fun st e _ => ?_) _)
      exact ((((Chip.Linked.send e _).trans (.send _ _)).trans (.send _ _)).trans (.send _ _)).trans (.send _ _)
    · exact .send _ _
  refine ⟨more.tx.subset asked, fun single => ?_⟩
  unfold Chip.enumerate
  generalize (c.send (.dpAux p .capabilities)).send (.dpAux p .repeaters) = d at bit ⊢
  dsimp only
  rw [if_neg (by rw [bit, single]; decide)]
  exact List.mem_append_right _ (List.mem_singleton.mpr rfl)

theorem edidRegs_mem {st i : Nat} (hst : st < 4) (hi : i < 32) : R.dptEdid p st i ∈ edidRegs p := by
  refine List.mem_map.mpr ⟨32 * st + i, List.mem_range.mpr (by omega), ?_⟩
  rw [show (32 * st + i) / 32 = st by omega, show (32 * st + i) % 32 = i by omega]

/-- R306: one EDID stored. -/
def Chip.storeBlock (p st : Nat) (b : List Byte) (c : Chip) : Chip := forN 32 (fun i c => c.setNat (R.dptEdid p st i) (leAt b (4 * i) 4)) c

theorem Chip.storeEdid_eq (c : Chip) (p : Nat) (edid : List (Nat × List Byte)) :
    c.storeEdid p edid = forL edid (fun e c => c.storeBlock p (e.1 % 4) e.2) c := rfl

theorem Chip.Linked.word (c : Chip) {st i : Nat} (hst : st < 4) (hi : i < 32) (v : Nat) : Chip.Linked p c (c.setNat (R.dptEdid p st i) v) :=
  ⟨by rw [regsSame_setNat_iff (edidRegs_mem hst hi)]; exact regsSame.refl, rfl, rfl, List.prefix_refl _, rfl, rfl, rfl, rfl⟩

theorem Chip.Linked.storeBlock (c : Chip) {st : Nat} (hst : st < 4) (b : List Byte) : Chip.Linked p c (Chip.storeBlock p st b c) := by
  unfold Chip.storeBlock
  exact .forN (fun i c hi => .word c hst hi _) c

theorem Chip.Linked.storeEdid (c : Chip) (edid : List (Nat × List Byte)) : Chip.Linked p c (c.storeEdid p edid) := by
  rw [Chip.storeEdid_eq]
  refine Chip.Linked.forL (fun e d => ?_) c
  exact Chip.Linked.storeBlock d (Nat.mod_lt e.1 (by decide)) e.2

theorem dptEdid_inj {st i j : Nat} (h : R.dptEdid p st i = R.dptEdid p st j) : i = j := by
  simp only [R.dptEdid] at h
  omega

/-- The words of a stored EDID read back. -/
theorem Chip.storeBlock_reg (c : Chip) (st : Nat) (b : List Byte) {i : Nat} (hi : i < 32) :
    (Chip.storeBlock p st b c).reg (R.dptEdid p st i) = BitVec.ofNat 32 (leAt b (4 * i) 4) := by
  suffices h : ∀ n, i < n → (forN n (fun i c => c.setNat (R.dptEdid p st i) (leAt b (4 * i) 4)) c).reg (R.dptEdid p st i) =
      BitVec.ofNat 32 (leAt b (4 * i) 4) by
    unfold Chip.storeBlock
    exact h 32 hi
  intro n
  induction n with
  | zero => exact fun h => absurd h (by omega)
  | succ n ih =>
    intro hn
    rw [forN_succ, Chip.setNat_reg]
    by_cases last : i = n
    · rw [last, if_pos rfl]
    · rw [if_neg (fun eq => last (dptEdid_inj eq)), ih (by omega)]

/-! ### The port's registers apart -/

theorem portRegs_apart : ∀ p, p < 8 → R.dptStat p ∉ edidRegs p ∧ R.dptStat p ∉ eventRegs ∧ R.dptCtl p ≠ R.dptStat p ∧ R.dptCtl p ∉ edidRegs p := by
  decide +kernel

theorem portCounts_apart : ∀ p, p < 8 → ∀ k, k < 4 → R.dptCnt p k ≠ R.dptStat p ∧ R.dptCnt p k ∉ eventRegs ∧ R.dptCnt p k ∉ edidRegs p ∧
    R.dptCnt p k ∉ streamRegs p := by decide +kernel

theorem portCounts_ne : ∀ p, p < 8 → R.dptCnt p 2 ≠ R.dptCnt p 3 := by decide +kernel

theorem headOut_apart : ∀ p, p < 8 → ∀ h, h < 32 → R.hedOut h ≠ R.dptStat p ∧ R.hedStat h ≠ R.dptStat p ∧ R.hedOut h ∉ edidRegs p := by decide +kernel

theorem headCounts_apart : ∀ p, p < 8 → ∀ k, k < 4 → ∀ h, h < 32 → R.hedStat h ≠ R.dptCnt p k ∧ R.hedOut h ≠ R.dptCnt p k := by decide +kernel

end

end Sys2Proof.Machine

namespace Sys2Proof.Machine

/-! ### A lost link (R306) -/

section
variable {p : Nat} {c : Chip}

theorem bitsOf_zero_iff (w : Word) : bitsOf w 19 16 = 0 ↔ ∀ j, j < 4 → (bitsOf w (16 + j) (16 + j) == 1) = false := by
  simp only [bitsOf, bitsNat, beq_eq_false_iff_ne, ne_eq]
  constructor
  · intro h j hj
    have : j = 0 ∨ j = 1 ∨ j = 2 ∨ j = 3 := by omega
    rcases this with rfl | rfl | rfl | rfl <;> norm_num at h ⊢ <;> omega
  · intro h
    have h0 := h 0 (by decide)
    have h1 := h 1 (by decide)
    have h2 := h 2 (by decide)
    have h3 := h 3 (by decide)
    norm_num at h0 h1 h2 h3 ⊢
    omega

/-- No stream of the port is carried. -/
theorem Chip.streams_zero_iff : c.fld (R.dptStat p) 19 16 = 0 ↔ ∀ j, j < 4 → c.bit (R.dptStat p) (16 + j) = false :=
  bitsOf_zero_iff (c.reg (R.dptStat p))

theorem Chip.stopStreams_none (h : c.fld (R.dptStat p) 19 16 = 0) : c.stopStreams p = c := by
  have clear := Chip.streams_zero_iff.mp h
  rw [Chip.stopStreams_eq]
  suffices all : ∀ n, n ≤ 4 → forN n (fun st c => Chip.stopStep p st c) c = c from all 4 (by decide)
  intro n hn
  induction n with
  | zero => rw [forN_zero]
  | succ n ih => rw [forN_succ, ih (by omega), Chip.stopStep, if_pos (by rw [clear n (by omega)]; rfl)]

theorem Chip.stopStreams_clear (hp : p < 8) : (c.stopStreams p).fld (R.dptStat p) 19 16 = 0 := by
  refine Chip.streams_zero_iff.mpr (fun j hj => ?_)
  rw [Chip.stopStreams_eq, (Chip.Stopped.all hp (Nat.le_refl 4)).bits j hj, if_pos hj]

/-- R306: a link lost, after its streams have stopped. -/
def Chip.linkGone (c : Chip) (p st : Nat) : Chip := ((c.setDp p st).addFld (R.dptStat p) 15 8 1).bump (R.dptCnt p 2)

theorem Chip.dpLost_eq (st cause : Nat) : c.dpLost p st cause =
    ((c.stopStreams p).linkGone p st).event 0xB002 .room [.val 1 p, .val 4 (Config.eventCode 0xB002 cause)] := rfl

/-- The counts and the state of a port whose link is lost. -/
theorem Chip.linkGone_says (c : Chip) (hp : p < 8) {st : Nat} (hst : st < 8) {d : Chip} (hd : d = c.linkGone p st) :
    d.dpState p = st ∧ d.fld (R.dptStat p) 19 16 = c.fld (R.dptStat p) 19 16 ∧ d.fld (R.dptStat p) 15 8 = min 255 (c.fld (R.dptStat p) 15 8 + 1) ∧
      d.bit (R.dptStat p) 31 = c.bit (R.dptStat p) 31 ∧ d.reg (R.dptCnt p 2) = (c.bump (R.dptCnt p 2)).reg (R.dptCnt p 2) ∧
      regsSame [R.dptStat p, R.dptCnt p 2] c.regs d.regs ∧ d.heads = c.heads ∧ d.evq = c.evq ∧ d.dram = c.dram ∧ d.tbw = c.tbw ∧ d.clk = c.clk := by
  have ne := (portCounts_apart p hp 2 (by decide)).1
  have stat : ∀ hi lo, hi < 32 → d.fld (R.dptStat p) hi lo = ((c.setDp p st).addFld (R.dptStat p) 15 8 1).fld (R.dptStat p) hi lo := fun hi lo _ => by
    rw [hd, Chip.linkGone]
    exact Chip.fld_of_reg (Chip.bump_reg_other _ ne.symm) hi lo
  refine ⟨?_, ?_, ?_, ?_, ?_, ?_, ?_, ?_, ?_, ?_, ?_⟩
  · rw [Chip.dpState, stat 30 28 (by decide), Chip.addFld_fld_ne _ (by decide) (by omega), Chip.setDp, Chip.setFld_fld_same _ _ _ _ _ (by decide)]
    exact Nat.mod_eq_of_lt hst
  · rw [stat 19 16 (by decide), Chip.addFld_fld_ne _ (by decide) (by omega), Chip.setDp, Chip.setFld_fld_ne _ (by decide) (by omega)]
  · rw [stat 15 8 (by decide), Chip.addFld_fld_same _ _ _ _ _ (by decide), Chip.setDp, Chip.setFld_fld_ne _ (by decide) (by omega)]
    exact Nat.min_comm _ _
  · rw [Chip.bit, stat 31 31 (by decide), Chip.addFld_fld_ne _ (by decide) (by omega), Chip.setDp, Chip.setFld_fld_ne _ (by decide) (by omega), Chip.bit]
  · rw [hd, Chip.linkGone, Chip.bump_reg, Chip.bump_reg, if_pos rfl, if_pos rfl, Chip.addFld, Chip.setFld_reg_other _ _ _ _ ne, Chip.setDp,
      Chip.setFld_reg_other _ _ _ _ ne]
  · rw [hd, Chip.linkGone, Chip.setDp]
    simp
  · rw [hd, Chip.linkGone, Chip.setDp, Chip.bump_heads, Chip.addFld_heads, Chip.setFld_heads]
  · rw [hd, Chip.linkGone, Chip.setDp, Chip.bump_evq, Chip.addFld_evq, Chip.setFld_evq]
  · rw [hd, Chip.linkGone, Chip.setDp, Chip.bump_dram, Chip.addFld_dram, Chip.setFld_dram]
  · rw [hd, Chip.linkGone, Chip.setDp, Chip.bump_tbw, Chip.addFld_tbw, Chip.setFld_tbw]
  · rw [hd, Chip.linkGone, Chip.setDp, Chip.bump_clk, Chip.addFld_clk, Chip.setFld_clk]

/-- The registers of a lost link. -/
def lostRegs (p : Nat) : List Nat := [R.dptStat p, R.dptCnt p 2] ++ (List.range 32).map R.hedStat ++ eventRegs

theorem streamRegs_lost : ∀ a ∈ streamRegs p, a ∈ lostRegs p := by
  intro a ha
  simp only [streamRegs, lostRegs, List.cons_append, List.mem_cons, List.mem_append] at ha ⊢
  tauto

/-- R306, R310: what a lost link leaves. -/
structure Chip.Lost (p st cause : Nat) (c d : Chip) : Prop where
  state : d.dpState p = st
  streams : d.fld (R.dptStat p) 19 16 = 0
  count : d.fld (R.dptStat p) 15 8 = min 255 (c.fld (R.dptStat p) 15 8 + 1)
  hpd : d.bit (R.dptStat p) 31 = c.bit (R.dptStat p) 31
  losses : d.reg (R.dptCnt p 2) = (c.bump (R.dptCnt p 2)).reg (R.dptCnt p 2)
  silent : ∀ j, j < 4 → ∀ h, h < 32 → c.streamHead p j = some h → c.bit (R.dptStat p) (16 + j) = true → d.silent h
  head : ∀ h, h < 32 → d.headRun h = c.headRun h ∧ d.fld (R.hedStat h) 25 0 = c.fld (R.hedStat h) 25 0
  regs : regsSame (lostRegs p) c.regs d.regs
  dram : d.dram = c.dram
  tbw : d.tbw = c.tbw
  told : c.fld (R.dptStat p) 19 16 = 0 → c.raises d [⟨0xB002, .room, c.clk, [.val 1 p, .val 4 (Config.eventCode 0xB002 cause)]⟩]

theorem Chip.Lost.dpLost (c : Chip) (hp : p < 8) {st : Nat} (hst : st < 8) (cause : Nat) : Chip.Lost p st cause c (c.dpLost p st cause) := by
  obtain ⟨streamed, -, heads⟩ := Chip.Stopped.all (c := c) hp (Nat.le_refl 4)
  rw [← Chip.stopStreams_eq] at streamed heads
  have clear := Chip.stopStreams_clear (c := c) hp
  have none := Chip.stopStreams_none (c := c) (p := p)
  rw [Chip.dpLost_eq]
  generalize c.stopStreams p = a at streamed heads clear none ⊢
  obtain ⟨state, streams, count, hpd, losses, regs, sameHeads, evq, dram, tbw, clk⟩ := a.linkGone_says hp hst rfl
  generalize a.linkGone p st = b at state streams count hpd losses regs sameHeads evq dram tbw clk ⊢
  obtain ⟨-, statEv, -⟩ := portRegs_apart p hp
  obtain ⟨cntStat, cntEv, -, cntStr⟩ := portCounts_apart p hp 2 (by decide)
  have ev : regsSame eventRegs b.regs (b.event 0xB002 .room [.val 1 p, .val 4 (Config.eventCode 0xB002 cause)]).regs := by simp
  have told : ∀ x : Chip, x.evq = b.evq → x.clk = b.clk → x.raises (b.event 0xB002 .room [.val 1 p, .val 4 (Config.eventCode 0xB002 cause)])
      [⟨0xB002, .room, x.clk, [.val 1 p, .val 4 (Config.eventCode 0xB002 cause)]⟩] := fun x he hk => Chip.raises_event_of_evq he.symm hk.symm _ _ _
  have eheads := Chip.event_heads b 0xB002 .room [.val 1 p, .val 4 (Config.eventCode 0xB002 cause)]
  have edram := Chip.event_dram b 0xB002 .room [.val 1 p, .val 4 (Config.eventCode 0xB002 cause)]
  have etbw := Chip.event_tbw b 0xB002 .room [.val 1 p, .val 4 (Config.eventCode 0xB002 cause)]
  generalize b.event 0xB002 .room [.val 1 p, .val 4 (Config.eventCode 0xB002 cause)] = d at ev told eheads edram etbw ⊢
  have ne : ∀ h, h < 32 → R.hedStat h ∉ [R.dptStat p, R.dptCnt p 2] ∧ R.hedStat h ∉ eventRegs := fun h hh => by
    have apart := (streamRegs_apart p hp).2.1 h hh
    refine ⟨?_, apart.2.1⟩
    simp only [List.mem_cons, List.not_mem_nil, or_false, not_or]
    exact ⟨apart.1, (headCounts_apart p hp 2 (by decide) h hh).1⟩
  refine ⟨(ev.fld statEv 30 28).trans state, (ev.fld statEv 19 16).trans (streams.trans clear), ?_, ?_, ?_, fun j hj h hh hs on => ?_,
    fun h hh => ⟨?_, ?_⟩, ?_, edram.trans (dram.trans streamed.dram), etbw.trans (tbw.trans streamed.tbw), fun zero => ?_⟩
  · rw [ev.fld statEv, count, streamed.stat 15 8 (by decide) (by decide)]
  · rw [ev.bit statEv, hpd, Chip.bit, streamed.stat 31 31 (by decide) (by decide), Chip.bit]
  · rw [ev.reg cntEv, losses, Chip.bump_reg, Chip.bump_reg, streamed.regs.reg cntStr]
  · obtain ⟨off, still⟩ := heads j h hj hs on
    exact ⟨by rw [ev.bit (ne h hh).2, regs.bit (ne h hh).1, off], by rw [Chip.head_of_heads (eheads.trans sameHeads), still]⟩
  · rw [Chip.headRun, ev.fld (ne h hh).2, regs.fld (ne h hh).1, ← Chip.headRun, streamed.run hh]
  · rw [ev.fld (ne h hh).2, regs.fld (ne h hh).1, streamed.head h 25 0 hh (by decide) (by decide)]
  · refine ((streamed.regs.mono streamRegs_lost).trans (regs.mono ?_)).trans (ev.mono ?_)
    · intro x hx
      simp only [lostRegs, List.mem_append]
      exact .inl (.inl hx)
    · exact fun _ => List.mem_append_right _
  · have same := none zero
    exact told c (same ▸ evq.symm) (same ▸ clk.symm)

end

end Sys2Proof.Machine

namespace Sys2Proof.Machine

section
variable {s : State} {t : Stamp} {p : Nat}

/-! ### HPD high (R306) -/

/-- R305, R306: the port reads its sink and trains. -/
def Chip.beginTraining (c : Chip) (p rate lanes : Nat) (edid : List (Nat × List Byte)) : Chip :=
  (((c.enumerate p).modPort p (fun x => { x with sinkRate := rate, sinkLanes := lanes })).storeEdid p edid).setDp p dpTraining

theorem exec_hpdHigh {rate lanes : Nat} {edid : List (Nat × List Byte)} (hp : p < 8) : exec (.hpdHighDebounce t p rate lanes edid) s =
    .next { s with chip := (if s.chip.dpState p == 1 then ((s.chip.at t).setFld (R.dptStat p) 31 31 1).beginTraining p rate lanes edid
      else (s.chip.at t).setFld (R.dptStat p) 31 31 1) } := by
  have state : ((s.chip.at t).setFld (R.dptStat p) 31 31 1).dpState p = s.chip.dpState p := Chip.setFld_fld_ne _ (by decide) (by omega)
  rw [← state]
  exact if_pos (decide_eq_true hp)

/-- What a port's reading of its sink leaves. -/
theorem Chip.beginTraining_says (c : Chip) (hp : p < 8) (rate lanes : Nat) (edid : List (Nat × List Byte)) {d : Chip}
    (hd : d = c.beginTraining p rate lanes edid) : d.dpState p = 2 ∧ d.bit (R.dptStat p) 31 = c.bit (R.dptStat p) 31 ∧
      d.port p = { c.port p with sinkRate := rate, sinkLanes := lanes } ∧ (∀ q, q ≠ p → d.port q = c.port q) ∧
      d.fld (R.dptStat p) 27 0 = c.fld (R.dptStat p) 27 0 ∧ TxMsg.dpAux p .capabilities ∈ d.tx ∧
      (c.bit (R.dptCtl p) 30 = false → TxMsg.dpAux p .edid ∈ d.tx) ∧ regsSame (R.dptStat p :: edidRegs p) c.regs d.regs ∧
      d.dram = c.dram ∧ d.tbw = c.tbw ∧ d.evq = c.evq := by
  have read := Chip.Linked.enumerate c p
  obtain ⟨caps, edids⟩ := c.enumerate_asks p
  rw [Chip.beginTraining] at hd
  generalize c.enumerate p = a at hd read caps edids
  have stored := Chip.Linked.storeEdid (p := p) (a.modPort p (fun x => { x with sinkRate := rate, sinkLanes := lanes })) edid
  have port := Chip.port_modPort a p p (fun x => { x with sinkRate := rate, sinkLanes := lanes })
  have others := fun q hq => (Chip.port_modPort a p q (fun x => { x with sinkRate := rate, sinkLanes := lanes })).trans (if_neg hq)
  rw [if_pos rfl] at port
  generalize hm : a.modPort p (fun x => { x with sinkRate := rate, sinkLanes := lanes }) = m at hd stored port others
  have mregs : m.regs = a.regs := by rw [← hm]; rfl
  have mtx : m.tx = a.tx := by rw [← hm]; rfl
  have mdram : m.dram = a.dram := by rw [← hm]; rfl
  have mtbw : m.tbw = a.tbw := by rw [← hm]; rfl
  have mevq : m.evq = a.evq := by rw [← hm]; rfl
  generalize m.storeEdid p edid = e at hd stored
  have both : regsSame (edidRegs p) c.regs e.regs := read.regs.trans (mregs ▸ stored.regs)
  obtain ⟨stat, -⟩ := portRegs_apart p hp
  have tx : d.tx = e.tx := by rw [hd]; rfl
  subst hd
  refine ⟨Chip.setFld_fld_same e _ _ _ _ (by decide), ?_, ?_, fun q hq => ?_, ?_, ?_, fun single => ?_, ?_, ?_, ?_, ?_⟩
  · exact (Chip.setFld_bit_ne e (by decide) (by omega)).trans (both.bit stat 31)
  · exact ((Chip.port_of_ports stored.ports p).trans port).trans (by rw [Chip.port_of_ports read.ports])
  · exact ((Chip.port_of_ports stored.ports q).trans (others q hq)).trans (Chip.port_of_ports read.ports q)
  · exact (Chip.setFld_fld_ne e (by decide) (by omega)).trans (both.fld stat 27 0)
  · rw [tx]; exact stored.tx.subset (mtx ▸ caps)
  · rw [tx]; exact stored.tx.subset (mtx ▸ edids single)
  · refine (both.mono (fun _ => List.mem_cons_of_mem _)).trans ?_
    rw [Chip.setDp]
    simp
  · exact stored.dram.trans (mdram.trans read.dram)
  · exact stored.tbw.trans (mtbw.trans read.tbw)
  · exact stored.evq.trans (mevq.trans read.evq)

theorem hpd_trains {rate lanes : Nat} {edid : List (Nat × List Byte)} (hp : p < 8) (none : s.chip.dpState p = 1) :
    Answers (.hpdHighDebounce t p rate lanes edid) s (fun c => c.dpState p = 2 ∧ c.bit (R.dptStat p) 31 = true ∧
      c.port p = { s.chip.port p with sinkRate := rate, sinkLanes := lanes } ∧
      (∀ q, q < 8 → q ≠ p → c.port q = s.chip.port q) ∧ c.fld (R.dptStat p) 27 0 = s.chip.fld (R.dptStat p) 27 0 ∧
      TxMsg.dpAux p .capabilities ∈ c.tx ∧ (s.chip.bit (R.dptCtl p) 30 = false → TxMsg.dpAux p .edid ∈ c.tx) ∧
      s.chip.writesOnly c (R.dptStat p :: edidRegs p) ∧ s.chip.raises c []) := by
  refine answers_exec (exec_hpdHigh hp) ?_
  rw [none, if_pos (by decide)]
  obtain ⟨state, hpd, port, others, low, caps, single, regs, dram, tbw, evq⟩ :=
    ((s.chip.at t).setFld (R.dptStat p) 31 31 1).beginTraining_says hp rate lanes edid rfl
  have ctl := (portRegs_apart p hp).2.2.1
  refine ⟨state, hpd.trans (Chip.setFld_bit_same _ _ _ _ (by decide)), port, fun q _ hq => others q hq,
    low.trans (Chip.setFld_fld_ne _ (by decide) (by omega)), caps, fun h => single ((Chip.setFld_bit_ne _ (by decide) (.inl ctl)).trans h),
    Chip.writesOnly_of (regsSame.trans ?_ regs) dram tbw, Chip.raises_of_evq evq⟩
  simp

/-- R306: the EDID of a stream's sink reads back. -/
theorem hpd_stores {rate lanes st i : Nat} {b : List Byte} (hp : p < 8) (none : s.chip.dpState p = 1) (hst : st < 4) (hi : i < 32) :
    Answers (.hpdHighDebounce t p rate lanes [(st, b)]) s (fun c => c.reg (R.dptEdid p st i) = BitVec.ofNat 32 (leAt b (4 * i) 4)) := by
  refine answers_exec (exec_hpdHigh hp) ?_
  rw [none, if_pos (by decide), Chip.beginTraining]
  generalize (((s.chip.at t).setFld (R.dptStat p) 31 31 1).enumerate p).modPort p _ = m
  have ne : R.dptEdid p st i ≠ R.dptStat p := fun eq => (portRegs_apart p hp).1 (eq ▸ edidRegs_mem hst hi)
  rw [Chip.setDp, Chip.setFld_reg_other _ _ _ _ ne, Chip.storeEdid_eq, forL, List.foldl_cons, List.foldl_nil, Nat.mod_eq_of_lt hst]
  exact Chip.storeBlock_reg m st b hi

theorem hpd_shown {rate lanes : Nat} {edid : List (Nat × List Byte)} (hp : p < 8) (other : s.chip.dpState p ≠ 1) :
    Answers (.hpdHighDebounce t p rate lanes edid) s (fun c => c.bit (R.dptStat p) 31 = true ∧
      c.fld (R.dptStat p) 30 0 = s.chip.fld (R.dptStat p) 30 0 ∧ c.ports = s.chip.ports ∧ s.chip.writesOnly c [R.dptStat p] ∧
      s.chip.raises c []) := by
  refine answers_exec (exec_hpdHigh hp) ?_
  rw [if_neg (by simpa using other)]
  exact ⟨Chip.setFld_bit_same _ _ _ _ (by decide), Chip.setFld_fld_ne _ (by decide) (by omega), rfl, Chip.writesOnly_of (by simp) rfl rfl,
    Chip.raises_of_evq rfl⟩

/-! ### The end of training (R306, R307) -/

/-- The settings that training tries, in their order (R305). -/
def Chip.settings (c : Chip) (p : Nat) : List (Nat × Nat) :=
  fallback (min (c.fld (R.dptCtl p) 29 27) (c.port p).sinkRate) (min (c.fld (R.dptCtl p) 26 25) (c.port p).sinkLanes)

/-- R306: the settings that do not work are tried. -/
def Chip.tryAll (c : Chip) (p : Nat) (l : List (Nat × Nat)) : Chip := forL l (fun st c => c.send (.dpAux p (.train st.1 st.2))) c

/-- R306: the port is up. -/
def Chip.portUp (c : Chip) (p rate lanes fec : Nat) : Chip :=
  (((c.setDp p dpUp).setFld (R.dptStat p) 27 25 rate).setFld (R.dptStat p) 24 23 lanes).setFld (R.dptStat p) 22 22 fec

/-- R306: the port is up, with what training told. -/
def Chip.portTrained (c : Chip) (p rate lanes fec : Nat) (denied : List Nat) : Chip :=
  ((((c.portUp p rate lanes fec).send (.dpAux p (.train rate lanes))).modPort p (fun x => { x with denied := denied })).bump (R.dptCnt p 0)).event
    0xB001 .room [.val 1 p, .val 1 rate, .val 1 lanes, .val 1 fec]

/-- R306: no setting works. -/
def Chip.portUntrained (c : Chip) (p : Nat) : Chip :=
  (((c.setDp p dpWait).modPort p (fun x => { x with waitSince := c.clk })).bump (R.dptCnt p 1)).eventLimited p 0xB003 .room [.val 1 p, .occ]

theorem exec_trainingDone {good : List (Nat × Nat)} {denied : List Nat} (hp : p < 8) (training : s.chip.dpState p = 2) :
    (∀ rate lanes, (s.chip.settings p).find? (fun x => good.contains x) = some (rate, lanes) → exec (.dpTrainingDone t p good denied) s =
      .next { s with chip := ((((s.chip.at t).tryAll p ((s.chip.settings p).takeWhile (fun x => !good.contains x))).portTrained p rate lanes
        (if ((s.chip.at t).tryAll p ((s.chip.settings p).takeWhile (fun x => !good.contains x))).fecOn p rate then 1 else 0) denied).allocate p) }) ∧
    ((s.chip.settings p).find? (fun x => good.contains x) = none → exec (.dpTrainingDone t p good denied) s =
      .next { s with chip := ((s.chip.at t).tryAll p ((s.chip.settings p).takeWhile (fun x => !good.contains x))).portUntrained p }) := by
  have run : exec (.dpTrainingDone t p good denied) s = execDpTrainingDone t p good denied s := rfl
  rw [run, execDpTrainingDone, runIf_of _ _ _ (decide_eq_true hp)]
  dsimp only
  rw [if_neg (by rw [show (s.chip.at t).dpState p = s.chip.dpState p from rfl, training]; decide)]
  rw [show fallback (min ((s.chip.at t).fld (R.dptCtl p) 29 27) ((s.chip.at t).port p).sinkRate)
    (min ((s.chip.at t).fld (R.dptCtl p) 26 25) ((s.chip.at t).port p).sinkLanes) = s.chip.settings p from rfl]
  constructor
  · intro rate lanes found
    rw [found]
    rfl
  · intro found
    rw [found]
    rfl

theorem Chip.Linked.tryAll (c : Chip) (l : List (Nat × Nat)) : Chip.Linked p c (c.tryAll p l) := .forL (fun _ c => .send c _) c

theorem fallback_mem {rate lanes r l : Nat} (h : (r, l) ∈ fallback rate lanes) : r ≤ rate ∧ l ≤ lanes := by
  simp only [fallback, List.mem_flatMap, List.mem_reverse, List.mem_range, List.mem_map, Prod.mk.injEq] at h
  obtain ⟨l', hl, r', hr, rfl, rfl⟩ := h
  omega

/-- A setting fits the fields of `DPT_STAT`. -/
theorem settings_lt {good : List (Nat × Nat)} {rate lanes : Nat} {c : Chip} (h : (c.settings p).find? (fun x => good.contains x) = some (rate, lanes)) :
    rate < 8 ∧ lanes < 4 := by
  obtain ⟨hr, hl⟩ := fallback_mem (List.mem_of_find?_eq_some h)
  have a : c.fld (R.dptCtl p) 29 27 < 8 := bitsOf_lt _ 29 27
  have b : c.fld (R.dptCtl p) 26 25 < 4 := bitsOf_lt _ 26 25
  omega

theorem any_congr_mem {α : Type} {l : List α} {f g : α → Bool} (h : ∀ x ∈ l, f x = g x) : l.any f = l.any g := by
  induction l with
  | nil => rfl
  | cons x l ih => rw [List.any_cons, List.any_cons, h x (by simp), ih (fun y hy => h y (by simp [hy]))]

theorem Chip.fecOn_congr {c d : Chip} (h : ∀ j, j < 32 → d.reg (R.hedOut j) = c.reg (R.hedOut j)) (rate : Nat) : d.fecOn p rate = c.fecOn p rate := by
  unfold Chip.fecOn
  congr 1
  refine any_congr_mem (fun j hj => ?_)
  have same := h j (List.mem_range.mp hj)
  rw [Chip.fld_of_reg same, Chip.fld_of_reg same, Chip.bit_of_reg same]

/-- The settings of a port that is up. -/
theorem Chip.portUp_says (c : Chip) {rate lanes : Nat} (hr : rate < 8) (hl : lanes < 4) (fec : Bool) {d : Chip}
    (hd : d = c.portUp p rate lanes (if fec then 1 else 0)) : d.dpState p = 3 ∧ d.fld (R.dptStat p) 27 25 = rate ∧
      d.fld (R.dptStat p) 24 23 = lanes ∧ d.bit (R.dptStat p) 22 = fec ∧ regsSame [R.dptStat p] c.regs d.regs ∧ d.ports = c.ports ∧
      d.heads = c.heads ∧ d.tx = c.tx ∧ d.dram = c.dram ∧ d.tbw = c.tbw ∧ d.clk = c.clk := by
  subst hd
  unfold Chip.portUp Chip.setDp
  refine ⟨?_, ?_, ?_, ?_, by simp, rfl, rfl, rfl, rfl, rfl, rfl⟩
  · rw [Chip.dpState, Chip.setFld_fld_ne _ (by decide) (by omega), Chip.setFld_fld_ne _ (by decide) (by omega),
      Chip.setFld_fld_ne _ (by decide) (by omega), Chip.setFld_fld_same _ _ _ _ _ (by decide)]
    rfl
  · rw [Chip.setFld_fld_ne _ (by decide) (by omega), Chip.setFld_fld_ne _ (by decide) (by omega), Chip.setFld_fld_same _ _ _ _ _ (by decide)]
    exact Nat.mod_eq_of_lt hr
  · rw [Chip.setFld_fld_ne _ (by decide) (by omega), Chip.setFld_fld_same _ _ _ _ _ (by decide)]
    exact Nat.mod_eq_of_lt hl
  · rw [Chip.setFld_bit_same _ _ _ _ (by decide)]
    cases fec <;> rfl

/-- What a port whose training ends up leaves, before its streams. -/
theorem Chip.portTrained_says (c : Chip) (hp : p < 8) {rate lanes : Nat} (hr : rate < 8) (hl : lanes < 4) (fec : Bool) (denied : List Nat) {d : Chip}
    (hd : d = c.portTrained p rate lanes (if fec then 1 else 0) denied) : d.dpState p = 3 ∧ d.fld (R.dptStat p) 27 25 = rate ∧
      d.fld (R.dptStat p) 24 23 = lanes ∧ d.bit (R.dptStat p) 22 = fec ∧ d.port p = { c.port p with denied := denied } ∧
      d.reg (R.dptCnt p 0) = (c.bump (R.dptCnt p 0)).reg (R.dptCnt p 0) ∧ TxMsg.dpAux p (.train rate lanes) ∈ d.tx ∧
      regsSame ([R.dptStat p, R.dptCnt p 0] ++ eventRegs) c.regs d.regs ∧ d.dram = c.dram ∧ d.tbw = c.tbw := by
  obtain ⟨state, fr, fl, ff, regs, ports, -, -, dram, tbw, -⟩ := c.portUp_says hr hl fec rfl
  rw [Chip.portTrained] at hd
  generalize c.portUp p rate lanes (if fec then 1 else 0) = a at *
  have port := Chip.port_modPort (a.send (.dpAux p (.train rate lanes))) p p (fun x => { x with denied := denied })
  rw [if_pos rfl, Chip.port_of_ports ((Chip.send_ports a _).trans ports)] at port
  generalize hm : (a.send (.dpAux p (.train rate lanes))).modPort p (fun x => { x with denied := denied }) = m at hd port
  have mregs : m.regs = a.regs := by rw [← hm, Chip.modPort_regs, Chip.send_regs]
  have mtx : TxMsg.dpAux p (.train rate lanes) ∈ m.tx := by
    rw [← hm, Chip.modPort_tx]
    exact List.mem_append_right _ (List.mem_singleton.mpr rfl)
  have mdram : m.dram = a.dram := by rw [← hm, Chip.modPort_dram, Chip.send_dram]
  have mtbw : m.tbw = a.tbw := by rw [← hm, Chip.modPort_tbw, Chip.send_tbw]
  have mreg : ∀ x, m.reg x = a.reg x := fun x => by rw [Chip.reg, mregs, Chip.reg]
  obtain ⟨-, statEv, -⟩ := portRegs_apart p hp
  obtain ⟨cntStat, cntEv, -⟩ := portCounts_apart p hp 0 (by decide)
  have own : ∀ x, x ∉ eventRegs → x ≠ R.dptCnt p 0 → d.reg x = a.reg x := fun x h h' => by
    simp only [mem_eventRegs, not_or] at h
    rw [hd, Chip.event_reg _ _ _ _ h.1 h.2, Chip.bump_reg_other _ h', mreg]
  have stat := own _ statEv cntStat.symm
  refine ⟨(Chip.fld_of_reg stat 30 28).trans state, (Chip.fld_of_reg stat _ _).trans fr, (Chip.fld_of_reg stat _ _).trans fl,
    (Chip.bit_of_reg stat _).trans ff, ?_, ?_, ?_, ?_, ?_, ?_⟩
  · rw [hd, Chip.port_of_ports (Chip.event_ports _ _ _ _), Chip.port_of_ports (Chip.bump_ports _ _), port]
  · simp only [mem_eventRegs, not_or] at cntEv
    rw [hd, Chip.event_reg _ _ _ _ cntEv.1 cntEv.2, Chip.bump_reg, if_pos rfl, mreg, regs.reg (by simpa using cntStat), Chip.bump_reg, if_pos rfl]
  · rw [hd, Chip.event_tx, Chip.bump_tx]
    exact mtx
  · rw [← mregs] at regs
    refine (regs.mono (by simp)).trans ?_
    rw [hd]
    simp
  · rw [hd, Chip.event_dram, Chip.bump_dram, mdram, dram]
  · rw [hd, Chip.event_tbw, Chip.bump_tbw, mtbw, tbw]

/-- R306: training ends with the first setting that works. -/
theorem training_up {rate lanes : Nat} {good : List (Nat × Nat)} {denied : List Nat} (hp : p < 8) (training : s.chip.dpState p = 2)
    (found : (s.chip.settings p).find? (fun x => good.contains x) = some (rate, lanes)) :
    Answers (.dpTrainingDone t p good denied) s (fun c => c.dpState p = 3 ∧ c.fld (R.dptStat p) 27 25 = rate ∧
      c.fld (R.dptStat p) 24 23 = lanes ∧ (c.bit (R.dptStat p) 22 = true ↔ s.chip.fecOn p rate = true) ∧
      c.port p = { s.chip.port p with denied := denied } ∧ c.carriesWhatFits p ∧
      c.reg (R.dptCnt p 0) = (s.chip.bump (R.dptCnt p 0)).reg (R.dptCnt p 0) ∧ TxMsg.dpAux p (.train rate lanes) ∈ c.tx ∧
      (∀ h, h < 32 → c.headRun h = s.chip.headRun h ∧ c.fld (R.hedStat h) 25 0 = s.chip.fld (R.hedStat h) 25 0) ∧
      s.chip.writesOnly c ([R.dptStat p, R.dptCnt p 0] ++ (List.range 32).map R.hedStat ++ eventRegs)) := by
  refine answers_exec ((exec_trainingDone (t := t) (denied := denied) hp training).1 rate lanes found) ?_
  obtain ⟨hr, hl⟩ := settings_lt found
  have tried := Chip.Linked.tryAll (p := p) (s.chip.at t) ((s.chip.settings p).takeWhile (fun x => !good.contains x))
  have same : ∀ x, ((s.chip.at t).tryAll p ((s.chip.settings p).takeWhile (fun x => !good.contains x))).reg x = s.chip.reg x := fun x => by
    unfold Chip.tryAll
    exact forL_keeps (fun d : Chip => d.reg x) (fun _ _ _ => rfl)
  generalize (s.chip.at t).tryAll p ((s.chip.settings p).takeWhile (fun x => !good.contains x)) = a at tried same ⊢
  rw [Chip.fecOn_congr (fun j _ => same _)]
  obtain ⟨state, fr, fl, ff, port, count, tx, regs, dram, tbw⟩ := a.portTrained_says hp hr hl (s.chip.fecOn p rate) denied rfl
  generalize a.portTrained p rate lanes (if s.chip.fecOn p rate then 1 else 0) denied = b at *
  have str := Chip.Streamed.allocate (c := b) hp
  have carries := Chip.allocate_carries hp state
  generalize b.allocate p = c at *
  have cnt := portCounts_apart p hp 0 (by decide)
  have first : regsSame ([R.dptStat p, R.dptCnt p 0] ++ eventRegs) s.chip.regs b.regs := fun x hx => (regs x hx).trans (same x)
  have head : ∀ h, h < 32 → R.hedStat h ∉ [R.dptStat p, R.dptCnt p 0] ++ eventRegs := fun h hh => by
    have apart := (streamRegs_apart p hp).2.1 h hh
    simp only [List.mem_append, List.mem_cons, List.not_mem_nil, or_false, not_or]
    exact ⟨⟨apart.1, (headCounts_apart p hp 0 (by decide) h hh).1⟩, apart.2.1⟩
  refine ⟨(str.stat 30 28 (by decide) (by decide)).trans state, (str.stat 27 25 (by decide) (by decide)).trans fr,
    (str.stat 24 23 (by decide) (by decide)).trans fl, ?_, ?_, carries, ?_, str.tx.subset tx, fun h hh => ⟨?_, ?_⟩, Chip.writesOnly_of ?_ ?_ ?_⟩
  · rw [Chip.bit, str.stat 22 22 (by decide) (by decide), ← Chip.bit, ff]
  · rw [Chip.port_of_ports str.ports, port, Chip.port_of_ports tried.ports]
    rfl
  · rw [str.regs.reg cnt.2.2.2, count, Chip.bump_reg, Chip.bump_reg, if_pos rfl, if_pos rfl, same]
  · rw [str.run hh]
    exact first.fld (head h hh) 31 30
  · rw [str.head h 25 0 hh (by decide) (by decide)]
    exact first.fld (head h hh) 25 0
  · refine (first.mono ?_).trans (str.regs.mono ?_)
    · intro x hx
      simp only [List.mem_append] at hx ⊢
      tauto
    · intro x hx
      simp only [streamRegs, List.cons_append, List.mem_cons, List.mem_append] at hx ⊢
      tauto
  · rw [str.dram, dram, tried.dram]; rfl
  · rw [str.tbw, tbw, tried.tbw]; rfl

/-- R306: no setting works. -/
theorem training_waits {good : List (Nat × Nat)} {denied : List Nat} (hp : p < 8) (training : s.chip.dpState p = 2)
    (missed : (s.chip.settings p).find? (fun x => good.contains x) = none) :
    Answers (.dpTrainingDone t p good denied) s (fun c => c.dpState p = 4 ∧ c.port p = { s.chip.port p with waitSince := t } ∧
      c.fld (R.dptStat p) 27 0 = s.chip.fld (R.dptStat p) 27 0 ∧
      c.reg (R.dptCnt p 1) = (s.chip.bump (R.dptCnt p 1)).reg (R.dptCnt p 1) ∧
      s.chip.writesOnly c ([R.dptStat p, R.dptCnt p 1] ++ eventRegs)) := by
  refine answers_exec ((exec_trainingDone (t := t) (denied := denied) hp training).2 missed) ?_
  have tried := Chip.Linked.tryAll (p := p) (s.chip.at t) ((s.chip.settings p).takeWhile (fun x => !good.contains x))
  have same : ∀ x, ((s.chip.at t).tryAll p ((s.chip.settings p).takeWhile (fun x => !good.contains x))).reg x = s.chip.reg x := fun x => by
    unfold Chip.tryAll
    exact forL_keeps (fun d : Chip => d.reg x) (fun _ _ _ => rfl)
  generalize (s.chip.at t).tryAll p ((s.chip.settings p).takeWhile (fun x => !good.contains x)) = a at tried same ⊢
  obtain ⟨-, statEv, -⟩ := portRegs_apart p hp
  obtain ⟨cntStat, cntEv, -⟩ := portCounts_apart p hp 1 (by decide)
  rw [Chip.portUntrained]
  have port := Chip.port_modPort (a.setDp p dpWait) p p (fun x => { x with waitSince := a.clk })
  rw [if_pos rfl, Chip.port_of_ports (c1 := a.setDp p dpWait) ((Chip.setFld_ports a _ _ _ _).trans tried.ports)] at port
  generalize hm : (a.setDp p dpWait).modPort p (fun x => { x with waitSince := a.clk }) = m at port
  have mreg : ∀ x, m.reg x = (a.setFld (R.dptStat p) 30 28 dpWait).reg x := fun x => by rw [← hm, Chip.modPort_reg, Chip.setDp]
  have mdram : m.dram = a.dram := by rw [← hm, Chip.modPort_dram, Chip.setDp, Chip.setFld_dram]
  have mtbw : m.tbw = a.tbw := by rw [← hm, Chip.modPort_tbw, Chip.setDp, Chip.setFld_tbw]
  simp only [mem_eventRegs, not_or] at statEv cntEv
  have stat : ((m.bump (R.dptCnt p 1)).eventLimited p 0xB003 .room [.val 1 p, .occ]).reg (R.dptStat p) =
      (a.setFld (R.dptStat p) 30 28 dpWait).reg (R.dptStat p) := by
    rw [Chip.eventLimited_reg _ _ _ _ _ statEv.1 statEv.2, Chip.bump_reg_other _ cntStat.symm, mreg]
  refine ⟨?_, ?_, ?_, ?_, Chip.writesOnly_of ?_ ?_ ?_⟩
  · rw [Chip.dpState, Chip.fld_of_reg stat, Chip.setFld_fld_same _ _ _ _ _ (by decide)]
    rfl
  · rw [Chip.port_of_ports (Chip.eventLimited_ports _ _ _ _ _), Chip.port_of_ports (Chip.bump_ports _ _), port, tried.clk]
    rfl
  · rw [Chip.fld_of_reg stat, Chip.setFld_fld_ne _ (by decide) (by omega), Chip.fld_of_reg (same _)]
  · rw [Chip.eventLimited_reg _ _ _ _ _ cntEv.1 cntEv.2, Chip.bump_reg, Chip.bump_reg, if_pos rfl, if_pos rfl, mreg,
      Chip.setFld_reg_other _ _ _ _ cntStat, same]
  · have first : regsSame [R.dptStat p] s.chip.regs m.regs := fun x hx => (mreg x).trans
      ((Chip.setFld_reg_other _ _ _ _ (by simpa using hx)).trans (same x))
    refine (first.mono (by simp)).trans ?_
    simp
  · rw [Chip.eventLimited_dram, Chip.bump_dram, mdram, tried.dram]; rfl
  · rw [Chip.eventLimited_tbw, Chip.bump_tbw, mtbw, tried.tbw]; rfl

end

end Sys2Proof.Machine

namespace Sys2Proof.Machine

section
variable {s : State} {t : Stamp} {p : Nat}

theorem training_idle {good : List (Nat × Nat)} {denied : List Nat} (hp : p < 8) (other : s.chip.dpState p ≠ 2) :
    Gives (.dpTrainingDone t p good denied) s (s.chip.at t) := by
  refine gives_of (show exec (.dpTrainingDone t p good denied) s = execDpTrainingDone t p good denied s from rfl) (decide_eq_true hp) ?_
  dsimp only
  exact if_pos (bne_iff_ne.mpr other)

/-! ### IRQ_HPD (R306) -/

/-- R306: the new topology is read. -/
def Chip.readTopology (c : Chip) (p : Nat) (top : Topology) : Chip :=
  ((c.enumerate p).modPort p (fun x => { x with denied := top.denied })).storeEdid p top.edid

theorem exec_irqHpd {lost : Bool} {mst : Option Topology} (hp : p < 8) : exec (.irqHpd t p lost mst) s = .next { s with chip :=
    (if s.chip.dpState p != dpUp then (s.chip.at t).bump (R.dptCnt p 3)
    else if lost then ((s.chip.at t).bump (R.dptCnt p 3)).dpLost p dpTraining 1
    else match mst with
      | some top => (((s.chip.at t).bump (R.dptCnt p 3)).readTopology p top).allocate p
      | none => (s.chip.at t).bump (R.dptCnt p 3)) } := by
  have ne := (portCounts_apart p hp 3 (by decide)).1
  have state : ((s.chip.at t).bump (R.dptCnt p 3)).dpState p = s.chip.dpState p := Chip.bump_fld_other (c := s.chip.at t) ne.symm 30 28
  rw [← state]
  exact if_pos (decide_eq_true hp)

theorem irq_loses {mst : Option Topology} (hp : p < 8) (up : s.chip.dpState p = 3) :
    Answers (.irqHpd t p true mst) s (fun c => c.dpState p = 2 ∧ c.fld (R.dptStat p) 19 16 = 0 ∧
      c.fld (R.dptStat p) 15 8 = min 255 (s.chip.fld (R.dptStat p) 15 8 + 1) ∧
      c.reg (R.dptCnt p 2) = (s.chip.bump (R.dptCnt p 2)).reg (R.dptCnt p 2) ∧
      c.reg (R.dptCnt p 3) = (s.chip.bump (R.dptCnt p 3)).reg (R.dptCnt p 3) ∧
      (∀ st, st < 4 → ∀ h, h < 32 → s.chip.streamHead p st = some h → s.chip.bit (R.dptStat p) (16 + st) = true →
        c.bit (R.hedStat h) 26 = false ∧ (c.head h).videoOn = false) ∧
      (∀ h, h < 32 → c.headRun h = s.chip.headRun h ∧ c.fld (R.hedStat h) 25 0 = s.chip.fld (R.hedStat h) 25 0) ∧
      s.chip.writesOnly c ([R.dptStat p, R.dptCnt p 2, R.dptCnt p 3] ++ (List.range 32).map R.hedStat ++ eventRegs) ∧
      (s.chip.fld (R.dptStat p) 19 16 = 0 →
        s.chip.raises c [⟨0xB002, .room, t, [.val 1 p, .val 4 (Config.eventCode 0xB002 1)]⟩])) := by
  refine answers_exec (exec_irqHpd hp) ?_
  rw [up, if_neg (by decide), if_pos rfl]
  obtain ⟨ne, -, -, str⟩ := portCounts_apart p hp 3 (by decide)
  have ne23 := portCounts_ne p hp
  have lost := Chip.Lost.dpLost ((s.chip.at t).bump (R.dptCnt p 3)) hp (show dpTraining < 8 by decide) 1
  have same : ∀ a, a ≠ R.dptCnt p 3 → ((s.chip.at t).bump (R.dptCnt p 3)).reg a = s.chip.reg a := fun a h => Chip.bump_reg_other _ h
  have cnt3 : ((s.chip.at t).bump (R.dptCnt p 3)).reg (R.dptCnt p 3) = (s.chip.bump (R.dptCnt p 3)).reg (R.dptCnt p 3) := rfl
  have bdram : ((s.chip.at t).bump (R.dptCnt p 3)).dram = s.chip.dram := Chip.bump_dram _ _
  have btbw : ((s.chip.at t).bump (R.dptCnt p 3)).tbw = s.chip.tbw := Chip.bump_tbw _ _
  have bevq : ((s.chip.at t).bump (R.dptCnt p 3)).evq = s.chip.evq := Chip.bump_evq _ _
  have bclk : ((s.chip.at t).bump (R.dptCnt p 3)).clk = t := Chip.bump_clk _ _
  have bregs : regsSame [R.dptCnt p 3] s.chip.regs ((s.chip.at t).bump (R.dptCnt p 3)).regs := by simp
  generalize (s.chip.at t).bump (R.dptCnt p 3) = b at *
  have heads : ∀ st, b.streamHead p st = s.chip.streamHead p st := fun st => by
    refine find?_congr_mem (fun h hh => ?_)
    have hh := List.mem_range.mp hh
    have out := same _ (headCounts_apart p hp 3 (by decide) h hh).2
    have ctl : b.reg (R.dptCtl p) = s.chip.reg (R.dptCtl p) := same _ (fun eq => by simp only [R.dptCtl, R.dptCnt] at eq; omega)
    rw [Chip.fld_of_reg out, Chip.fld_of_reg out, Chip.fld_of_reg out, Chip.bit_of_reg ctl, Chip.headRun,
      Chip.fld_of_reg (same _ (headCounts_apart p hp 3 (by decide) h hh).1), Chip.headRun]
  have stat := same _ ne.symm
  have cntLost : R.dptCnt p 3 ∉ lostRegs p := by
    simp only [lostRegs, List.mem_append, List.mem_cons, List.not_mem_nil, or_false, not_or]
    rw [streamRegs, List.cons_append, List.mem_cons, List.mem_append, not_or, not_or] at str
    exact ⟨⟨⟨ne, ne23.symm⟩, str.2.1⟩, str.2.2⟩
  refine ⟨lost.state, lost.streams, by rw [lost.count, Chip.fld_of_reg stat], ?_, ?_, fun st hst h hh hs on => lost.silent st hst h hh
      ((heads st).trans hs) ((Chip.bit_of_reg stat _).trans on), fun h hh => ?_, Chip.writesOnly_of ?_ (lost.dram.trans bdram) (lost.tbw.trans btbw),
    fun zero => ?_⟩
  · rw [lost.losses, Chip.bump_reg, Chip.bump_reg, if_pos rfl, if_pos rfl, same _ ne23]
  · rw [lost.regs.reg cntLost, cnt3]
  · have hst := same _ (headCounts_apart p hp 3 (by decide) h hh).1
    rw [(lost.head h hh).1, (lost.head h hh).2, Chip.headRun, Chip.fld_of_reg hst, Chip.fld_of_reg hst]
    exact ⟨rfl, rfl⟩
  · refine (bregs.mono (by simp)).trans (lost.regs.mono (fun x hx => ?_))
    simp only [lostRegs, List.mem_append, List.mem_cons, List.not_mem_nil, or_false] at hx ⊢
    tauto
  · have told := lost.told ((Chip.fld_of_reg stat 19 16).trans zero)
    rw [bclk] at told
    rw [Chip.raises, ← bevq]
    exact told

/-- What reading a new topology leaves. -/
theorem Chip.readTopology_says (c : Chip) (hp : p < 8) (top : Topology) {d : Chip} (hd : d = c.readTopology p top) :
    d.port p = { c.port p with denied := top.denied } ∧ regsSame (edidRegs p) c.regs d.regs ∧ d.dram = c.dram ∧ d.tbw = c.tbw ∧
      d.dpState p = c.dpState p := by
  have read := Chip.Linked.enumerate c p
  rw [Chip.readTopology] at hd
  generalize c.enumerate p = a at hd read
  have stored := Chip.Linked.storeEdid (p := p) (a.modPort p (fun x => { x with denied := top.denied })) top.edid
  have port := Chip.port_modPort a p p (fun x => { x with denied := top.denied })
  rw [if_pos rfl, Chip.port_of_ports read.ports] at port
  rw [← hd] at stored
  have both : regsSame (edidRegs p) c.regs d.regs := read.regs.trans stored.regs
  exact ⟨(Chip.port_of_ports stored.ports p).trans port, both, (stored.dram.trans (Chip.modPort_dram _ _ _)).trans read.dram,
    (stored.tbw.trans (Chip.modPort_tbw _ _ _)).trans read.tbw, both.fld (portRegs_apart p hp).1 30 28⟩

/-- R307: an MST change carries again what fits. -/
theorem irq_carries {top : Topology} (hp : p < 8) (up : s.chip.dpState p = 3) :
    Answers (.irqHpd t p false (some top)) s (fun c => c.dpState p = 3 ∧ c.port p = { s.chip.port p with denied := top.denied } ∧
      c.carriesWhatFits p ∧ c.reg (R.dptCnt p 3) = (s.chip.bump (R.dptCnt p 3)).reg (R.dptCnt p 3) ∧
      s.chip.writesOnly c ([R.dptStat p, R.dptCnt p 3] ++ edidRegs p ++ (List.range 32).map R.hedStat ++ eventRegs)) := by
  refine answers_exec (exec_irqHpd hp) ?_
  rw [up, if_neg (by decide), if_neg (by decide)]
  obtain ⟨ne, -, edid, str⟩ := portCounts_apart p hp 3 (by decide)
  have bport : ((s.chip.at t).bump (R.dptCnt p 3)).port p = s.chip.port p := Chip.port_of_ports (Chip.bump_ports _ _) p
  have bstate : ((s.chip.at t).bump (R.dptCnt p 3)).dpState p = 3 := (Chip.bump_fld_other (c := s.chip.at t) ne.symm 30 28).trans up
  have cnt3 : ((s.chip.at t).bump (R.dptCnt p 3)).reg (R.dptCnt p 3) = (s.chip.bump (R.dptCnt p 3)).reg (R.dptCnt p 3) := rfl
  have bdram : ((s.chip.at t).bump (R.dptCnt p 3)).dram = s.chip.dram := Chip.bump_dram _ _
  have btbw : ((s.chip.at t).bump (R.dptCnt p 3)).tbw = s.chip.tbw := Chip.bump_tbw _ _
  have bregs : regsSame [R.dptCnt p 3] s.chip.regs ((s.chip.at t).bump (R.dptCnt p 3)).regs := by simp
  dsimp only
  generalize (s.chip.at t).bump (R.dptCnt p 3) = b at *
  obtain ⟨port, regs, dram, tbw, state⟩ := b.readTopology_says hp top rfl
  generalize b.readTopology p top = d at *
  have streamed := Chip.Streamed.allocate (c := d) hp
  refine ⟨(streamed.stat 30 28 (by decide) (by decide)).trans (state.trans bstate), ?_, Chip.allocate_carries hp (state.trans bstate), ?_,
    Chip.writesOnly_of ?_ (streamed.dram.trans (dram.trans bdram)) (streamed.tbw.trans (tbw.trans btbw))⟩
  · rw [Chip.port_of_ports streamed.ports, port, bport]
  · rw [streamed.regs.reg str, regs.reg edid, cnt3]
  · refine ((bregs.mono (by simp)).trans (regs.mono (fun x hx => ?_))).trans (streamed.regs.mono (fun x hx => ?_))
    · simp only [List.mem_append]
      tauto
    · simp only [streamRegs, List.cons_append, List.mem_cons, List.mem_append] at hx ⊢
      tauto

theorem irq_counts {lost : Bool} {mst : Option Topology} (hp : p < 8) (idle : s.chip.dpState p ≠ 3 ∨ lost = false ∧ mst = none) :
    Answers (.irqHpd t p lost mst) s (fun c => c.reg (R.dptCnt p 3) = (s.chip.bump (R.dptCnt p 3)).reg (R.dptCnt p 3) ∧
      c.ports = s.chip.ports ∧ c.heads = s.chip.heads ∧ s.chip.writesOnly c [R.dptCnt p 3] ∧ s.chip.raises c []) := by
  have run : exec (.irqHpd t p lost mst) s = .next { s with chip := (s.chip.at t).bump (R.dptCnt p 3) } := by
    rw [exec_irqHpd hp]
    by_cases up : s.chip.dpState p = 3
    · obtain ⟨rfl, rfl⟩ := idle.resolve_left (fun h => h up)
      rw [if_neg (by rw [up]; decide), if_neg (by decide)]
    · rw [if_pos (show (s.chip.dpState p != dpUp) = true from bne_iff_ne.mpr up)]
  exact answers_exec run ⟨rfl, Chip.bump_ports _ _, Chip.bump_heads _ _, Chip.writesOnly_of (by simp) (Chip.bump_dram _ _) (Chip.bump_tbw _ _),
    Chip.raises_of_evq (Chip.bump_evq _ _)⟩

/-! ### HPD low, retries and RETRAIN (R306, R310) -/

theorem exec_hpdLow (hp : p < 8) : exec (.hpdLowTimeout t p) s = .next { s with chip :=
    (if s.chip.dpState p == dpOff || s.chip.dpState p == dpNoSink then (s.chip.at t).setFld (R.dptStat p) 31 31 0
      else ((s.chip.at t).setFld (R.dptStat p) 31 31 0).dpLost p dpNoSink 0) } := by
  have state : ((s.chip.at t).setFld (R.dptStat p) 31 31 0).dpState p = s.chip.dpState p := Chip.setFld_fld_ne _ (by decide) (by omega)
  rw [← state]
  exact if_pos (decide_eq_true hp)

theorem hpdLow_loses (hp : p < 8) (on : 2 ≤ s.chip.dpState p) :
    Answers (.hpdLowTimeout t p) s (fun c => c.dpState p = 1 ∧ c.bit (R.dptStat p) 31 = false ∧ c.fld (R.dptStat p) 19 16 = 0 ∧
      c.reg (R.dptCnt p 2) = (s.chip.bump (R.dptCnt p 2)).reg (R.dptCnt p 2) ∧
      (∀ st, st < 4 → ∀ h, h < 32 → s.chip.streamHead p st = some h → s.chip.bit (R.dptStat p) (16 + st) = true →
        c.bit (R.hedStat h) 26 = false ∧ (c.head h).videoOn = false) ∧
      s.chip.writesOnly c ([R.dptStat p, R.dptCnt p 2] ++ (List.range 32).map R.hedStat ++ eventRegs) ∧
      (s.chip.fld (R.dptStat p) 19 16 = 0 →
        s.chip.raises c [⟨0xB002, .room, t, [.val 1 p, .val 4 (Config.eventCode 0xB002 0)]⟩])) := by
  refine answers_exec (exec_hpdLow hp) ?_
  rw [if_neg (by simp [dpOff, dpNoSink]; omega)]
  have ne := (portCounts_apart p hp 2 (by decide)).1
  have low : ((s.chip.at t).setFld (R.dptStat p) 31 31 0).bit (R.dptStat p) 31 = false := Chip.setFld_bit_same _ _ _ _ (by decide)
  have same : ∀ a, a ≠ R.dptStat p → ((s.chip.at t).setFld (R.dptStat p) 31 31 0).reg a = s.chip.reg a := fun a h => Chip.setFld_reg_other _ _ _ _ h
  have fld : ∀ hi lo, hi < 31 → ((s.chip.at t).setFld (R.dptStat p) 31 31 0).fld (R.dptStat p) hi lo = s.chip.fld (R.dptStat p) hi lo :=
    fun hi lo h => Chip.setFld_fld_ne _ (by omega) (by omega)
  have bregs : regsSame [R.dptStat p] s.chip.regs ((s.chip.at t).setFld (R.dptStat p) 31 31 0).regs := by simp
  have lost := Chip.Lost.dpLost ((s.chip.at t).setFld (R.dptStat p) 31 31 0) hp (show dpNoSink < 8 by decide) 0
  have bdram : ((s.chip.at t).setFld (R.dptStat p) 31 31 0).dram = s.chip.dram := rfl
  have btbw : ((s.chip.at t).setFld (R.dptStat p) 31 31 0).tbw = s.chip.tbw := rfl
  have bevq : ((s.chip.at t).setFld (R.dptStat p) 31 31 0).evq = s.chip.evq := rfl
  have bclk : ((s.chip.at t).setFld (R.dptStat p) 31 31 0).clk = t := rfl
  generalize (s.chip.at t).setFld (R.dptStat p) 31 31 0 = b at *
  have heads : ∀ st, b.streamHead p st = s.chip.streamHead p st := fun st => by
    refine find?_congr_mem (fun h hh => ?_)
    have hh := List.mem_range.mp hh
    obtain ⟨outNe, statNe, -⟩ := headOut_apart p hp h hh
    have out := same _ outNe
    have ctl := same _ (portRegs_apart p hp).2.2.1
    rw [Chip.fld_of_reg out, Chip.fld_of_reg out, Chip.fld_of_reg out, Chip.bit_of_reg ctl, Chip.headRun, Chip.fld_of_reg (same _ statNe), Chip.headRun]
  have told := lost.told
  rw [bclk, Chip.raises, bevq] at told
  refine ⟨lost.state, lost.hpd.trans low, lost.streams, ?_, fun st hst h hh hs on => lost.silent st hst h hh ((heads st).trans hs) ?_,
    Chip.writesOnly_of ?_ (lost.dram.trans bdram) (lost.tbw.trans btbw), fun zero => told ((fld 19 16 (by decide)).trans zero)⟩
  · rw [lost.losses, Chip.bump_reg, Chip.bump_reg, if_pos rfl, if_pos rfl, same _ ne]
  · rw [Chip.bit, fld _ _ (by omega)]
    exact on
  · exact (bregs.mono (by simp)).trans lost.regs

theorem hpdLow_shown (hp : p < 8) (off : s.chip.dpState p ≤ 1) :
    Answers (.hpdLowTimeout t p) s (fun c => c.bit (R.dptStat p) 31 = false ∧
      c.fld (R.dptStat p) 30 0 = s.chip.fld (R.dptStat p) 30 0 ∧ c.heads = s.chip.heads ∧ s.chip.writesOnly c [R.dptStat p] ∧
      s.chip.raises c []) := by
  refine answers_exec (exec_hpdLow hp) ?_
  rw [if_pos (by simp [dpOff, dpNoSink]; omega)]
  exact ⟨Chip.setFld_bit_same _ _ _ _ (by decide), Chip.setFld_fld_ne _ (by decide) (by omega), rfl, Chip.writesOnly_of (by simp) rfl rfl,
    Chip.raises_of_evq rfl⟩

/-- A port that trains again. -/
theorem Chip.setDp_says (c : Chip) : (c.setDp p dpTraining).dpState p = 2 ∧ (c.setDp p dpTraining).bit (R.dptStat p) 31 = c.bit (R.dptStat p) 31 ∧
    (c.setDp p dpTraining).fld (R.dptStat p) 27 0 = c.fld (R.dptStat p) 27 0 ∧ c.writesOnly (c.setDp p dpTraining) [R.dptStat p] ∧
    c.raises (c.setDp p dpTraining) [] :=
  ⟨Chip.setFld_fld_same _ _ _ _ _ (by decide), Chip.setFld_bit_ne _ (by decide) (by omega), Chip.setFld_fld_ne _ (by decide) (by omega),
    Chip.writesOnly_of (by simp [Chip.setDp]) rfl rfl, Chip.raises_of_evq rfl⟩

theorem exec_dpRetry (hp : p < 8) : exec (.dpRetryTimeout t p) s = .next { s with chip :=
    (if s.chip.dpState p == dpWait && s.chip.bit (R.dptStat p) 31 &&
      elapsed t (s.chip.port p).waitSince (s.chip.fld (R.dptCtl p) 15 0 * nsPerMs) then (s.chip.at t).setDp p dpTraining else s.chip.at t) } :=
  if_pos (decide_eq_true hp)

theorem exec_retrain {src : Source} (hp : p < 8) : exec (.retrain t src p) s = .next { s with chip := (s.chip.at t).portCommand src p 1 } :=
  if_pos (decide_eq_true hp)

theorem Chip.portCommand_refused {c : Chip} {src : Source} {cause : Nat} (h : c.retrainCause p = cause) (ne : cause ≠ 0) :
    c.portCommand src p 1 = c.refuse src (R.dptCmd p) (cmdWord 1) cause := by
  rw [Chip.portCommand, if_pos (by decide), h, if_pos (by simpa using ne)]

theorem Chip.portCommand_taken {c : Chip} {src : Source} (h : c.retrainCause p = 0) : c.portCommand src p 1 =
    if c.dpState p == dpUp then c.dpLost p dpTraining 1 else if c.dpState p == dpWait then c.setDp p dpTraining else c := by
  rw [Chip.portCommand, if_pos (by decide), h, if_neg (by decide)]

theorem Chip.retrainCause_eq (c : Chip) : c.retrainCause p =
    if !c.bit (R.dptCtl p) 31 then 1 else if !c.bit (R.dptStat p) 31 then 2 else if c.dpState p == dpTraining then 3 else 0 := rfl

theorem retrainCause_none (on : s.chip.bit (R.dptCtl p) 31 = true) (hpd : s.chip.bit (R.dptStat p) 31 = true) (ready : s.chip.dpState p ≠ 2) :
    (s.chip.at t).retrainCause p = 0 := by
  rw [Chip.retrainCause_eq, show (s.chip.at t).bit (R.dptCtl p) 31 = _ from on, show (s.chip.at t).bit (R.dptStat p) 31 = _ from hpd,
    if_neg (by decide), if_neg (by decide), if_neg (show ¬ ((s.chip.at t).dpState p == dpTraining) = true from fun h => ready (beq_iff_eq.mp h))]

end

/-- Settles O46: each message or command by the state of its port. -/
theorem transmitPortTrainsAndLosesItsLink : Obligations.TransmitPortTrainsAndLosesItsLink := by
  unfold Obligations.TransmitPortTrainsAndLosesItsLink
  refine ⟨fun s t p rate lanes edid hp none => hpd_trains hp none, fun s t p rate lanes st i b hp none hst hi => hpd_stores hp none hst hi,
    fun s t p rate lanes edid hp other => hpd_shown hp other, fun s t p rate lanes good denied hp training found => training_up hp training found,
    fun s t p good denied hp training missed => training_waits hp training missed, fun s t p good denied hp other => training_idle hp other,
    fun s t p mst hp up => irq_loses hp up, fun s t p top hp up => irq_carries hp up, fun s t p lost mst hp idle => irq_counts hp idle,
    fun s t p hp on => hpdLow_loses hp on, fun s t p hp off => hpdLow_shown hp off, fun s t p hp wait hpd due => ?_, fun s t p hp early => ?_,
    fun s t src p hp on hpd wait => ?_, fun s t src p hp on hpd up => ?_, fun s t src p hp on hpd other => ?_, fun s t src p hp bad => ?_⟩
  · refine answers_exec (exec_dpRetry hp) ?_
    rw [wait, hpd, due, if_pos (by decide)]
    obtain ⟨state, bit, low, writes, raises⟩ := (s.chip.at t).setDp_says (p := p)
    exact ⟨state, bit.trans hpd, low, writes, raises⟩
  · refine gives_exec (exec_dpRetry hp) (if_neg ?_)
    simp only [Bool.and_eq_true, beq_iff_eq]
    rintro ⟨⟨wait, hpd⟩, due⟩
    rcases early with h | h | h
    · exact h wait
    · rw [hpd] at h; exact absurd h (by decide)
    · rw [due] at h; exact absurd h (by decide)
  · refine answers_exec (exec_retrain hp) ?_
    rw [Chip.portCommand_taken (retrainCause_none on hpd (by omega)), show (s.chip.at t).dpState p = 4 from wait, if_neg (by decide), if_pos (by decide)]
    obtain ⟨state, -, -, writes, raises⟩ := (s.chip.at t).setDp_says (p := p)
    exact ⟨state, writes, raises⟩
  · refine answers_exec (exec_retrain hp) ?_
    rw [Chip.portCommand_taken (retrainCause_none on hpd (by omega)), show (s.chip.at t).dpState p = 3 from up, if_pos (by decide)]
    have lost := Chip.Lost.dpLost (s.chip.at t) hp (show dpTraining < 8 by decide) 1
    exact ⟨lost.state, lost.streams, lost.losses, lost.silent, Chip.writesOnly_of lost.regs lost.dram lost.tbw⟩
  · refine gives_exec (exec_retrain hp) ?_
    rw [Chip.portCommand_taken (retrainCause_none on hpd (by omega)), show (s.chip.at t).dpState p = s.chip.dpState p from rfl,
      if_neg (by simp [dpUp]; omega), if_neg (by simp [dpWait]; omega)]
  · refine answers_exec (exec_retrain hp) ?_
    have cause : (s.chip.at t).retrainCause p =
        if s.chip.bit (R.dptCtl p) 31 = false then 1 else if s.chip.bit (R.dptStat p) 31 = false then 2 else 3 := by
      rw [Chip.retrainCause_eq, show (s.chip.at t).bit (R.dptCtl p) 31 = s.chip.bit (R.dptCtl p) 31 from rfl,
        show (s.chip.at t).bit (R.dptStat p) 31 = s.chip.bit (R.dptStat p) 31 from rfl, show (s.chip.at t).dpState p = s.chip.dpState p from rfl]
      cases on : s.chip.bit (R.dptCtl p) 31
      · rfl
      · cases hpd : s.chip.bit (R.dptStat p) 31
        · rfl
        · rw [on, hpd] at bad
          rw [(bad.resolve_left (by decide)).resolve_left (by decide)]
          rfl
    rw [Chip.portCommand_refused cause (by split_ifs <;> decide)]
    exact ⟨Chip.refuse_ports _ _ _ _ _, Chip.refuse_heads _ _ _ _ _, s.chip.at_refused t _ _ _ _⟩

end Sys2Proof.Machine

/-! ## Muith time: the lock, holdover, the SerDes loop and the taps (R30, R33, R36, R89, R103, R108, R111, R112) -/

namespace Sys2Proof.Machine

/-! ### Events of the timebase -/

section
variable (c : Chip) (code : Nat) (l : List CField)

@[simp] theorem Chip.muiEvent_mui : (c.muiEvent code l).mui = c.mui := Chip.event_mui _ _ _ _
@[simp] theorem Chip.muiEvent_clk : (c.muiEvent code l).clk = c.clk := Chip.event_clk _ _ _ _
@[simp] theorem Chip.muiEvent_dram : (c.muiEvent code l).dram = c.dram := Chip.event_dram _ _ _ _
@[simp] theorem Chip.muiEvent_tbw : (c.muiEvent code l).tbw = c.tbw := Chip.event_tbw _ _ _ _
@[simp] theorem Chip.muiEvent_watch : (c.muiEvent code l).watch = c.watch := Chip.event_watch _ _ _ _
@[simp] theorem Chip.muiEvent_taps : (c.muiEvent code l).taps = c.taps := Chip.event_taps _ _ _ _
@[simp] theorem Chip.muiEvent_pitch : (c.muiEvent code l).pitch = c.pitch := Chip.event_pitch _ _ _ _
@[simp] theorem Chip.muiEvent_d2dQueue : (c.muiEvent code l).d2dQueue = c.d2dQueue := Chip.event_d2dQueue _ _ _ _
@[simp] theorem Chip.muiEvent_d2dDown : (c.muiEvent code l).d2dDown = c.d2dDown := Chip.event_d2dDown _ _ _ _

@[simp] theorem regsSame_muiEvent_iff {q : List Nat} {r : List (Nat × Word)} (h : ∀ a ∈ eventRegs, a ∈ q) :
    regsSame q r (c.muiEvent code l).regs ↔ regsSame q r c.regs := by
  rw [Chip.muiEvent]; exact regsSame_event_iff (h _ (by decide)) (h _ (by decide)) _ _ _

theorem muiStat_notMem : R.muiStat ∉ eventRegs := by decide

theorem regsSame_muiEvent : regsSame eventRegs c.regs (c.muiEvent code l).regs := by simp

theorem Chip.muiEvent_reg {a : Nat} (h : a ∉ eventRegs) : (c.muiEvent code l).reg a = c.reg a := (regsSame_muiEvent c code l).reg h

/-- R113: an event of the timebase carries the state and the active input after its own fields. -/
theorem Chip.muiEvent_raises {c d : Chip} {t : Stamp} {tb act : Nat} (he : d.evq = c.evq) (hk : d.clk = t) (hs : d.fld R.muiStat 2 0 = tb)
    (ha : d.fld R.muiStat 14 12 = act) (code : Nat) (l : List CField) :
    c.raises (d.muiEvent code l) [⟨code, .room, t, l ++ [.val 1 tb, .val 1 act]⟩] := by
  subst hs ha
  exact Chip.raises_event_of_evq he hk _ _ _

end

/-! ### The SerDes loop (R112) -/

section
variable {s : State} {t : Stamp}

/-- R112: the loop stands `err` ppb off. -/
def Chip.serdesOff (c : Chip) (err : Int) : Chip := { c with mui := { c.mui with serdesFreq := c.mui.muiFreq + err * 65536 } }

theorem Chip.serdesOff_err (c : Chip) (err : Int) : (c.serdesOff err).serdesErr = err := by
  rw [Chip.serdesErr, show (c.serdesOff err).mui.serdesFreq = c.mui.muiFreq + err * 65536 from rfl,
    show (c.serdesOff err).mui.muiFreq = c.mui.muiFreq from rfl]
  omega

theorem exec_serdesLoss {err : Int} : exec (.serdesLoopLockLoss t err) s = .next { s with chip := ((s.chip.at t).serdesOff err).serdesLock } := rfl

theorem serdes_loses {err : Int} (far : 10 < err.natAbs) (locked : s.chip.bit R.muiStat 10 = true) :
    Answers (.serdesLoopLockLoss t err) s (fun c =>
      c.bit R.muiStat 10 = false ∧ c.fld R.muiStat 9 0 = s.chip.fld R.muiStat 9 0 ∧
      c.fld R.muiStat 31 11 = s.chip.fld R.muiStat 31 11 ∧ s.chip.writesOnly c ([R.muiStat] ++ eventRegs) ∧
      s.chip.raises c [⟨0x0805, .room, t, [.val 4 (twosOf 32 err), .val 1 (s.chip.fld R.muiStat 2 0),
        .val 1 (s.chip.fld R.muiStat 14 12)]⟩]) := by
  refine answers_exec exec_serdesLoss ?_
  rw [Chip.serdesLock, Chip.serdesOff_err, if_neg (by omega),
    if_pos (show ((s.chip.at t).serdesOff err).bit R.muiStat 10 = true from locked)]
  have reg := Chip.muiEvent_reg (((s.chip.at t).serdesOff err).setFld R.muiStat 10 10 0) 0x0805 [.val 4 (twosOf 32 err)] muiStat_notMem
  refine ⟨?_, ?_, ?_, Chip.writesOnly_of ?_ ?_ ?_, Chip.muiEvent_raises rfl rfl ?_ ?_ _ _⟩
  · rw [Chip.bit_of_reg reg, Chip.setFld_bit_same _ _ _ _ (by decide)]
    rfl
  · rw [Chip.fld_of_reg reg, Chip.setFld_fld_ne _ (by decide) (by decide)]
    rfl
  · rw [Chip.fld_of_reg reg, Chip.setFld_fld_ne _ (by decide) (by decide)]
    rfl
  · simp [Chip.serdesOff]
  · rw [Chip.muiEvent_dram, Chip.setFld_dram]; rfl
  · rw [Chip.muiEvent_tbw, Chip.setFld_tbw]; rfl
  · exact Chip.setFld_fld_ne _ (by decide) (by decide)
  · exact Chip.setFld_fld_ne _ (by decide) (by decide)

theorem serdes_still_off {err : Int} (far : 10 < err.natAbs) (off : s.chip.bit R.muiStat 10 = false) :
    Answers (.serdesLoopLockLoss t err) s (fun c => s.chip.writesOnly c [] ∧ s.chip.raises c []) := by
  refine answers_exec exec_serdesLoss ?_
  rw [Chip.serdesLock, Chip.serdesOff_err, if_neg (by omega),
    if_neg (by rw [show ((s.chip.at t).serdesOff err).bit R.muiStat 10 = _ from off]; decide)]
  exact ⟨Chip.writesOnly_of regsSame.refl rfl rfl, Chip.raises_of_evq rfl⟩

theorem serdes_locks {err : Int} (near : err.natAbs ≤ 10) :
    Answers (.serdesLoopLockLoss t err) s (fun c => c.bit R.muiStat 10 = true ∧ s.chip.writesOnly c [R.muiStat] ∧ s.chip.raises c []) := by
  refine answers_exec exec_serdesLoss ?_
  rw [Chip.serdesLock, Chip.serdesOff_err, if_pos near]
  exact ⟨Chip.setFld_bit_same _ _ _ _ (by decide), Chip.writesOnly_of (by simp [Chip.serdesOff]) rfl rfl, Chip.raises_of_evq rfl⟩

/-! ### The taps (R30, R33, R36, R89) -/

/-- R89: the tap of a domain takes its difference back. -/
def Chip.tapTaken (c : Chip) (e : Nat × Int × Nat) : Chip :=
  { c with taps := mapPut tapDefault c.taps e.1 { offset := e.2.1, trim := -e.2.1 } }

/-- R36: since when the watch domain's tap has been within its bound. -/
def Chip.tapWatch (c : Chip) (e : Nat × Int × Nat) : Chip :=
  if e.1 == watchDomain then
    { c with watch := { c.watch with backSince := if decide (tapBound e.1 e.2.2 < e.2.1.natAbs) then none else some (c.watch.backSince.getD c.clk) } }
  else c

/-- R89: one domain's tap at a full stamp. -/
def Chip.tapStep (e : Nat × Int × Nat) (c : Chip) : Chip :=
  if decide (tapBound e.1 e.2.2 < e.2.1.natAbs) then
    ((c.tapTaken e).tapWatch e).muiEvent 0x0804 [.val 4 (Config.eventCode 0x0804 e.1), .val 4 (twosOf 32 (e.2.1 / 1000))]
  else (c.tapTaken e).tapWatch e

theorem exec_fullStamp {taps : List (Nat × Int × Nat)} (ok : taps.all (fun e => decide (e.1 < 71)) = true) :
    (s.chip.mui.loadMark = true → exec (.timeBusFullStamp t taps) s =
      .next { s with chip := { s.chip.at t with mui := { s.chip.mui with loadMark := false }, taps := [] } }) ∧
    (s.chip.mui.loadMark = false → exec (.timeBusFullStamp t taps) s = .next { s with chip := forL taps Chip.tapStep (s.chip.at t) }) := by
  have run : exec (.timeBusFullStamp t taps) s = execTimeBusFullStamp t taps s := rfl
  constructor
  · intro mark
    rw [run, execTimeBusFullStamp, runIf_of _ _ _ ok]
    dsimp only
    rw [if_pos (show (s.chip.at t).mui.loadMark = true from mark)]
    rfl
  · intro mark
    rw [run, execTimeBusFullStamp, runIf_of _ _ _ ok]
    dsimp only
    rw [if_neg (by rw [show (s.chip.at t).mui.loadMark = _ from mark]; decide)]
    rfl

/-- The event of a tap beyond its bound (R113). -/
def tapEvent (t : Stamp) (tb act : Nat) (e : Nat × Int × Nat) : Ev :=
  ⟨0x0804, .room, t, [.val 4 (Config.eventCode 0x0804 e.1), .val 4 (twosOf 32 (e.2.1 / 1000)), .val 1 tb, .val 1 act]⟩

theorem Chip.tapWatch_says (c : Chip) (e : Nat × Int × Nat) : (c.tapWatch e).taps = c.taps ∧ (c.tapWatch e).regs = c.regs ∧
    (c.tapWatch e).clk = c.clk ∧ (c.tapWatch e).dram = c.dram ∧ (c.tapWatch e).tbw = c.tbw ∧ (c.tapWatch e).evq = c.evq := by
  unfold Chip.tapWatch
  split <;> exact ⟨rfl, rfl, rfl, rfl, rfl, rfl⟩

/-- What a tap's step leaves. -/
theorem Chip.tapStep_says (e : Nat × Int × Nat) (c : Chip) : (c.tapStep e).taps = mapPut tapDefault c.taps e.1 { offset := e.2.1, trim := -e.2.1 } ∧
    regsSame eventRegs c.regs (c.tapStep e).regs ∧ (c.tapStep e).clk = c.clk ∧ (c.tapStep e).dram = c.dram ∧ (c.tapStep e).tbw = c.tbw ∧
    c.raises (c.tapStep e) (if tapBound e.1 e.2.2 < e.2.1.natAbs then [tapEvent c.clk (c.fld R.muiStat 2 0) (c.fld R.muiStat 14 12) e] else []) := by
  obtain ⟨taps, regs, clk, dram, tbw, evq⟩ := Chip.tapWatch_says (c.tapTaken e) e
  rw [Chip.tapStep]
  generalize (c.tapTaken e).tapWatch e = b at *
  replace taps : b.taps = mapPut tapDefault c.taps e.1 { offset := e.2.1, trim := -e.2.1 } := taps
  replace regs : b.regs = c.regs := regs
  have reg : ∀ x, b.reg x = c.reg x := fun x => by rw [Chip.reg, regs, Chip.reg]
  by_cases far : tapBound e.1 e.2.2 < e.2.1.natAbs
  · rw [if_pos (decide_eq_true far), if_pos far]
    exact ⟨by rw [Chip.muiEvent_taps, taps], by rw [← regs]; exact regsSame_muiEvent _ _ _, by rw [Chip.muiEvent_clk]; exact clk,
      by rw [Chip.muiEvent_dram]; exact dram, by rw [Chip.muiEvent_tbw]; exact tbw,
      Chip.muiEvent_raises evq clk (Chip.fld_of_reg (reg _) 2 0) (Chip.fld_of_reg (reg _) 14 12) _ _⟩
  · rw [if_neg (by simpa using far), if_neg far]
    exact ⟨taps, regs ▸ regsSame.refl, clk, dram, tbw, Chip.raises_of_evq evq⟩

/-- R89: what all taps leave, in their order. -/
theorem Chip.taps_says (l : List (Nat × Int × Nat)) (c : Chip) {d : Chip} (hd : d = forL l Chip.tapStep c) :
    regsSame eventRegs c.regs d.regs ∧ d.clk = c.clk ∧ d.dram = c.dram ∧ d.tbw = c.tbw ∧
    c.raises d ((l.filter (fun e => decide (tapBound e.1 e.2.2 < e.2.1.natAbs))).map (tapEvent c.clk (c.fld R.muiStat 2 0) (c.fld R.muiStat 14 12))) ∧
    (∀ k, k ∉ l.map (fun e => e.1) → mapGet tapDefault d.taps k = mapGet tapDefault c.taps k) ∧
    ((l.map (fun e => e.1)).Nodup → ∀ e ∈ l, mapGet tapDefault d.taps e.1 = { offset := e.2.1, trim := -e.2.1 }) := by
  induction l generalizing c with
  | nil =>
    subst hd
    exact ⟨regsSame.refl, rfl, rfl, rfl, Chip.raises_of_evq rfl, fun _ _ => rfl, fun _ e he => absurd he (by simp)⟩
  | cons x l ih =>
    obtain ⟨taps, regs, clk, dram, tbw, raises⟩ := Chip.tapStep_says x c
    have hd : d = forL l Chip.tapStep (c.tapStep x) := hd
    generalize c.tapStep x = a at taps regs clk dram tbw raises hd
    obtain ⟨regs', clk', dram', tbw', raises', others, all⟩ := ih a hd
    have first : ∀ k, k ∉ l.map (fun e => e.1) → mapGet tapDefault d.taps k = if k = x.1 then { offset := x.2.1, trim := -x.2.1 }
        else mapGet tapDefault c.taps k := fun k hk => by rw [others k hk, taps, mapGet_mapPut]
    refine ⟨regs.trans regs', clk'.trans clk, dram'.trans dram, tbw'.trans tbw, ?_, fun k hk => ?_, fun nodup e he => ?_⟩
    · rw [clk, regs.fld muiStat_notMem, regs.fld muiStat_notMem] at raises'
      have both := raises.trans raises'
      rw [List.filter_cons]
      by_cases far : tapBound x.1 x.2.2 < x.2.1.natAbs
      · rw [if_pos far] at both
        rw [if_pos (decide_eq_true far)]
        exact both
      · rw [if_neg far] at both
        rw [if_neg (by simpa using far)]
        exact both
    · rw [List.map_cons, List.mem_cons, not_or] at hk
      rw [first k hk.2, if_neg hk.1]
    · rw [List.map_cons, List.nodup_cons] at nodup
      rcases List.mem_cons.mp he with rfl | he
      · rw [first _ nodup.1, if_pos rfl]
      · exact all nodup.2 e he

end

/-- Settles O25: the SerDes loop by its error and lock, and the taps one after another. -/
theorem tapsAndSerdesLoopReportTheirLoss : Obligations.TapsAndSerdesLoopReportTheirLoss := by
  unfold Obligations.TapsAndSerdesLoopReportTheirLoss
  refine ⟨fun s t err far locked => serdes_loses far locked, fun s t err far off => serdes_still_off far off, fun s t err near => serdes_locks near,
    fun s t diff => ?_, fun s t taps ok mark => ?_, fun s t taps ok mark nodup _ => ?_⟩
  · refine answers_of (show exec (.watchTapTimeout t diff) s = execWatchTapTimeout t diff s from rfl) rfl ?_
    dsimp only
    refine ⟨?_, ?_, Chip.writesOnly_of ?_ ?_ ?_, Chip.muiEvent_raises rfl rfl rfl rfl _ _⟩
    · rw [Chip.muiEvent_watch]
    · rw [Chip.muiEvent_watch]
    · exact regsSame_muiEvent _ _ _
    · rw [Chip.muiEvent_dram]; rfl
    · rw [Chip.muiEvent_tbw]; rfl
  · exact answers_exec ((exec_fullStamp ok).1 mark) ⟨rfl, rfl, Chip.writesOnly_of regsSame.refl rfl rfl, Chip.raises_of_evq rfl⟩
  · refine answers_exec ((exec_fullStamp ok).2 mark) ?_
    obtain ⟨regs, -, dram, tbw, raises, -, all⟩ := Chip.taps_says taps (s.chip.at t) rfl
    exact ⟨all nodup, Chip.writesOnly_of regs dram tbw, raises⟩

end Sys2Proof.Machine

/-! ## Muith time: lock, dwell and holdover (R103, R108, R111) -/

namespace Sys2Proof.Machine

section
variable {c : Chip} {s : State} {t : Stamp}

/-- R103: the account of tethered time touches its own two fields alone. -/
theorem Muith.accountState_frame (m : Muith) (now : Stamp) (new : Nat) :
    ∃ n f, m.accountState now new = { m with tetherNs := n, tetherSince := f } := by
  unfold Muith.accountState
  rcases m.tetherSince with _ | f <;> by_cases flies : (new == tbFreeFlight || new == tbFreeRun) = true <;>
    by_cases tethers : (new == tbTethered) = true <;> simp only [flies, tethers, if_true] <;> exact ⟨_, _, rfl⟩

/-- The timebase with its account kept for state `new`. -/
def Chip.accounted (c : Chip) (new : Nat) : Chip := { c with mui := c.mui.accountState c.clk new }

theorem Chip.accounted_frame (c : Chip) (new : Nat) : ∃ n f, (c.accounted new).mui = { c.mui with tetherNs := n, tetherSince := f } :=
  Muith.accountState_frame _ _ _

theorem Chip.setTb_eq {new : Nat} (h : c.tbState ≠ new) : c.setTb new = ((c.setFld R.muiStat 2 0 new).accounted new).muiEvent 0x0801
    [.val 1 c.tbState, .val 1 new, phiField ((c.setFld R.muiStat 2 0 new).accounted new).mui.loopPhi,
      .val 1 (((c.setFld R.muiStat 2 0 new).accounted new).fld R.muiStat 5 4)] := by
  rw [Chip.setTb]
  dsimp only
  rw [if_neg (by simpa using Ne.symm h)]
  rfl

/-- R103, R113: what a change of the timebase's state leaves. -/
theorem Chip.setTb_says {new : Nat} (h : c.tbState ≠ new) (small : new < 8) {d : Chip} (hd : d = c.setTb new) :
    d.tbState = new ∧ regsSame ([R.muiStat] ++ eventRegs) c.regs d.regs ∧ d.dram = c.dram ∧ d.tbw = c.tbw ∧
    d.fld R.muiStat 31 3 = c.fld R.muiStat 31 3 ∧ (∃ n f, d.mui = { c.mui with tetherNs := n, tetherSince := f }) ∧ d.clk = c.clk ∧
    c.raises d [⟨0x0801, .room, c.clk, [.val 1 c.tbState, .val 1 new, phiField c.mui.loopPhi, .val 1 (c.fld R.muiStat 5 4), .val 1 new,
      .val 1 (c.fld R.muiStat 14 12)]⟩] := by
  rw [Chip.setTb_eq h] at hd
  obtain ⟨n, f, mui⟩ := Chip.accounted_frame (c.setFld R.muiStat 2 0 new) new
  replace mui : ((c.setFld R.muiStat 2 0 new).accounted new).mui = { c.mui with tetherNs := n, tetherSince := f } := mui
  have regs : ((c.setFld R.muiStat 2 0 new).accounted new).regs = (c.setFld R.muiStat 2 0 new).regs := rfl
  have clk : ((c.setFld R.muiStat 2 0 new).accounted new).clk = c.clk := rfl
  have dram : ((c.setFld R.muiStat 2 0 new).accounted new).dram = c.dram := rfl
  have tbw : ((c.setFld R.muiStat 2 0 new).accounted new).tbw = c.tbw := rfl
  have evq : ((c.setFld R.muiStat 2 0 new).accounted new).evq = c.evq := rfl
  generalize (c.setFld R.muiStat 2 0 new).accounted new = b at *
  have reg : ∀ x, b.reg x = (c.setFld R.muiStat 2 0 new).reg x := fun x => by rw [Chip.reg, regs, Chip.reg]
  have state : b.fld R.muiStat 2 0 = new := by
    rw [Chip.fld_of_reg (reg _), Chip.setFld_fld_same _ _ _ _ _ (by decide)]
    exact Nat.mod_eq_of_lt small
  have rest : ∀ hi lo, hi < 32 → 2 < lo → b.fld R.muiStat hi lo = c.fld R.muiStat hi lo := fun hi lo hh hl => by
    rw [Chip.fld_of_reg (reg _), Chip.setFld_fld_ne _ hh (.inr (.inr hl))]
  have stat : d.reg R.muiStat = b.reg R.muiStat := by rw [hd, Chip.muiEvent_reg _ _ _ muiStat_notMem]
  refine ⟨(Chip.fld_of_reg stat 2 0).trans state, ?_, ?_, ?_, (Chip.fld_of_reg stat 31 3).trans (rest _ _ (by decide) (by decide)),
    ⟨n, f, ?_⟩, ?_, ?_⟩
  · rw [hd, regsSame_muiEvent_iff _ _ _ (fun a ha => List.mem_append_right _ ha), regs, regsSame_setFld_iff (by decide)]
    exact regsSame.refl
  · rw [hd, Chip.muiEvent_dram, dram]
  · rw [hd, Chip.muiEvent_tbw, tbw]
  · rw [hd, Chip.muiEvent_mui, mui]
  · rw [hd, Chip.muiEvent_clk, clk]
  · rw [hd, mui, rest 5 4 (by decide) (by decide)]
    exact Chip.muiEvent_raises evq clk state (rest 14 12 (by decide) (by decide)) _ _

theorem tbState_at : (s.chip.at t).tbState = s.chip.tbState := rfl

/-! ### LOCK_TIME_ELAPSED (R103) -/

/-- R103: a lock that has stood for LOCK.TIME since `l` tethers the timebase. -/
def Chip.lockStood (c : Chip) (l : Stamp) : Chip :=
  if elapsed c.clk l (c.fld R.muiLock 7 0 * 100000000) && ((c.tbState == tbAcquiring && c.mui.schedDone) || c.tbState == tbPulling) then
    c.setTb tbTethered
  else c

theorem exec_lockTime {l : Stamp} (h : s.chip.mui.lockSince = some l) :
    exec (.lockTimeElapsed t) s = .next { s with chip := (s.chip.at t).lockStood l } := by
  rw [show exec (.lockTimeElapsed t) s = execLockTimeElapsed t s from rfl, execLockTimeElapsed, runIf_of _ _ _ rfl]
  dsimp only
  rw [show (s.chip.at t).mui.lockSince = some l from h]
  dsimp only
  rw [show (s.chip.at t).fld R.muiLock 7 0 * 100 * nsPerMs = s.chip.fld R.muiLock 7 0 * 100000000 from Nat.mul_assoc _ _ _]
  rfl

theorem lockTime_tethers {l : Stamp} (h : s.chip.mui.lockSince = some l) (due : elapsed t l (s.chip.fld R.muiLock 7 0 * 100000000) = true)
    (hs : (s.chip.tbState = tbAcquiring ∧ s.chip.mui.schedDone = true) ∨ s.chip.tbState = tbPulling) :
    Answers (.lockTimeElapsed t) s (fun c =>
      c.tbState = tbTethered ∧ s.chip.writesOnly c ([R.muiStat] ++ eventRegs) ∧ c.fld R.muiStat 31 3 = s.chip.fld R.muiStat 31 3 ∧
      c.mui.inputs = s.chip.mui.inputs ∧
      s.chip.raises c [⟨0x0801, .room, t, [.val 1 s.chip.tbState, .val 1 2, phiField s.chip.mui.loopPhi,
        .val 1 (s.chip.fld R.muiStat 5 4), .val 1 2, .val 1 (s.chip.fld R.muiStat 14 12)]⟩]) := by
  refine answers_exec (exec_lockTime h) ?_
  have cond : (elapsed t l (s.chip.fld R.muiLock 7 0 * 100000000) &&
      ((s.chip.tbState == tbAcquiring && s.chip.mui.schedDone) || s.chip.tbState == tbPulling)) = true := by
    rcases hs with ⟨h1, h2⟩ | h1 <;> rw [due, h1]
    · rw [h2]; rfl
    · rfl
  rw [show (s.chip.at t).lockStood l = (s.chip.at t).setTb tbTethered from if_pos cond]
  have differs : (s.chip.at t).tbState ≠ tbTethered := by
    rw [tbState_at]
    rcases hs with ⟨h1, -⟩ | h1 <;> rw [h1] <;> decide
  obtain ⟨state, regs, dram, tbw, rest, ⟨n, f, mui⟩, -, raises⟩ := Chip.setTb_says differs (by decide) rfl
  exact ⟨state, Chip.writesOnly_of regs dram tbw, rest, by rw [mui]; rfl, raises⟩

theorem lockTime_early {l : Stamp} (h : s.chip.mui.lockSince = some l) (early : elapsed t l (s.chip.fld R.muiLock 7 0 * 100000000) = false) :
    Gives (.lockTimeElapsed t) s (s.chip.at t) :=
  gives_exec (exec_lockTime h) (if_neg (by rw [show elapsed (s.chip.at t).clk l ((s.chip.at t).fld R.muiLock 7 0 * 100000000) = false from early]; simp))

/-! ### DWELL_END (R108) -/

/-- R108: the schedule goes on with entry `i`. -/
theorem Chip.startDwell_goes {i : Nat} (small : i < 8) (dwells : 0 < c.fld (R.muiBw i) 31 16) : c.startDwell i =
    { c with mui := { c.mui with schedIndex := i, schedDone := false, dwellEnd := c.clk + c.fld (R.muiBw i) 31 16 * 1000000000 } } := by
  rw [Chip.startDwell]
  dsimp only
  rw [if_pos small, if_neg (by simp; omega)]
  rfl

/-- R108: the schedule ends. -/
def Chip.scheduleEnded (c : Chip) (i : Nat) : Chip := { c with mui := { c.mui with schedIndex := i, schedDone := true } }

theorem Chip.startDwell_ends {i : Nat} (last : i < 8 → c.fld (R.muiBw i) 31 16 = 0) : c.startDwell i = c.scheduleEnded i := by
  rw [Chip.startDwell]
  dsimp only
  by_cases small : i < 8
  · rw [if_pos small, last small]; rfl
  · rw [if_neg small]; rfl

/-- The lock condition holds for the active input. -/
def Chip.lockedNow (c : Chip) : Bool :=
  match c.activeInput with
  | some k => c.lockHolds k
  | none => false

theorem Chip.lockedNow_of {k : Nat} (ha : c.activeInput = some k) (hl : c.lockHolds k = true) : c.lockedNow = true := by
  rw [Chip.lockedNow, ha]; exact hl

theorem Chip.lockedNow_not (h : ∀ k, c.activeInput = some k → c.lockHolds k = false) : c.lockedNow = false := by
  rw [Chip.lockedNow]
  rcases ha : c.activeInput with _ | k
  · rfl
  · exact h k ha

/-- R103: a schedule that ends with the lock held long enough tethers the timebase. -/
def Chip.tetherIfHeld (c : Chip) : Chip :=
  match c.mui.lockSince with
  | some l => if c.mui.schedDone && elapsed c.clk l (c.fld R.muiLock 7 0 * 100 * nsPerMs) then c.setTb tbTethered else c
  | none => c

theorem Chip.tetherIfHeld_running (h : c.mui.schedDone = false) : c.tetherIfHeld = c := by
  rw [Chip.tetherIfHeld, h]
  rcases c.mui.lockSince with _ | l <;> rfl

theorem Chip.tetherIfHeld_done (h : c.mui.schedDone = true) : c.tetherIfHeld =
    if c.mui.lockSince.any (fun l => elapsed c.clk l (c.fld R.muiLock 7 0 * 100000000)) then c.setTb tbTethered else c := by
  rw [Chip.tetherIfHeld, h, show c.fld R.muiLock 7 0 * 100 * nsPerMs = c.fld R.muiLock 7 0 * 100000000 from Nat.mul_assoc _ _ _]
  rcases c.mui.lockSince with _ | l <;> rfl

/-- R108: what follows a dwell that ends at the time of the state. -/
def Chip.dwellEnds (c : Chip) : Chip :=
  if c.tbState == tbAcquiring && !c.mui.schedDone && elapsed c.clk c.mui.dwellEnd 0 then
    (c.startDwell (if c.lockedNow then c.mui.schedIndex + 1 else c.mui.schedIndex)).tetherIfHeld
  else c

theorem exec_dwellEnd : exec (.dwellEnd t) s = .next { s with chip := (s.chip.at t).dwellEnds } := by
  rw [show exec (.dwellEnd t) s = execDwellEnd t s from rfl, execDwellEnd, runIf_of _ _ _ rfl]
  rfl

theorem exec_dwellEnd_due (h1 : s.chip.tbState = tbAcquiring) (h2 : s.chip.mui.schedDone = false)
    (h3 : elapsed t s.chip.mui.dwellEnd 0 = true) : exec (.dwellEnd t) s = .next { s with chip := (
      (s.chip.at t).startDwell (if s.chip.lockedNow then s.chip.mui.schedIndex + 1 else s.chip.mui.schedIndex)).tetherIfHeld } := by
  rw [exec_dwellEnd, Chip.dwellEnds, tbState_at, h1, show (s.chip.at t).mui.schedDone = false from h2,
    show elapsed (s.chip.at t).clk (s.chip.at t).mui.dwellEnd 0 = true from h3]
  rfl

/-- R108: a dwell that goes on with entry `i`. -/
theorem dwell_goes_on {i : Nat} (h1 : s.chip.tbState = tbAcquiring) (h2 : s.chip.mui.schedDone = false)
    (h3 : elapsed t s.chip.mui.dwellEnd 0 = true) (next : (if s.chip.lockedNow then s.chip.mui.schedIndex + 1 else s.chip.mui.schedIndex) = i)
    (small : i < 8) (dwells : 0 < s.chip.fld (R.muiBw i) 31 16) :
    Answers (.dwellEnd t) s (fun c => c.mui.schedIndex = i ∧ c.mui.schedDone = false ∧
      c.mui.dwellEnd = t + s.chip.fld (R.muiBw i) 31 16 * 1000000000 ∧ s.chip.writesOnly c [] ∧ s.chip.raises c []) := by
  refine answers_exec (exec_dwellEnd_due h1 h2 h3) ?_
  rw [next, Chip.startDwell_goes small (show 0 < (s.chip.at t).fld (R.muiBw i) 31 16 from dwells), Chip.tetherIfHeld_running rfl]
  exact ⟨rfl, rfl, rfl, Chip.writesOnly_of regsSame.refl rfl rfl, Chip.raises_of_evq rfl⟩

theorem schedule_ends {k : Nat} (h1 : s.chip.tbState = tbAcquiring) (h2 : s.chip.mui.schedDone = false)
    (h3 : elapsed t s.chip.mui.dwellEnd 0 = true) (ha : s.chip.activeInput = some k) (hl : s.chip.lockHolds k = true)
    (last : 7 ≤ s.chip.mui.schedIndex ∨ s.chip.fld (R.muiBw (s.chip.mui.schedIndex + 1)) 31 16 = 0) :
    Answers (.dwellEnd t) s (fun c => c.mui.schedIndex = s.chip.mui.schedIndex + 1 ∧ c.mui.schedDone = true ∧
      (c.tbState = tbTethered ↔ s.chip.mui.lockSince.any (fun l => elapsed t l (s.chip.fld R.muiLock 7 0 * 100000000)) = true) ∧
      s.chip.writesOnly c ([R.muiStat] ++ eventRegs)) := by
  refine answers_exec (exec_dwellEnd_due h1 h2 h3) ?_
  rw [Chip.lockedNow_of ha hl, if_pos rfl, Chip.startDwell_ends (show _ → (s.chip.at t).fld (R.muiBw _) 31 16 = 0 by
    intro small; exact last.resolve_left (by omega)), Chip.tetherIfHeld_done rfl,
    show ((s.chip.at t).scheduleEnded (s.chip.mui.schedIndex + 1)).mui.lockSince.any
      (fun l => elapsed ((s.chip.at t).scheduleEnded (s.chip.mui.schedIndex + 1)).clk l
        (((s.chip.at t).scheduleEnded (s.chip.mui.schedIndex + 1)).fld R.muiLock 7 0 * 100000000)) =
      s.chip.mui.lockSince.any (fun l => elapsed t l (s.chip.fld R.muiLock 7 0 * 100000000)) from rfl]
  by_cases held : s.chip.mui.lockSince.any (fun l => elapsed t l (s.chip.fld R.muiLock 7 0 * 100000000)) = true
  · rw [if_pos held]
    obtain ⟨state, regs, dram, tbw, -, ⟨n, f, mui⟩, -, -⟩ := Chip.setTb_says (new := tbTethered)
      (c := (s.chip.at t).scheduleEnded (s.chip.mui.schedIndex + 1))
      (by rw [show ((s.chip.at t).scheduleEnded (s.chip.mui.schedIndex + 1)).tbState = s.chip.tbState from rfl, h1]; decide) (by decide) rfl
    exact ⟨by rw [mui]; rfl, by rw [mui]; rfl, by simp only [state, held], Chip.writesOnly_of regs dram tbw⟩
  · rw [if_neg held]
    refine ⟨rfl, rfl, ?_, Chip.writesOnly_of regsSame.refl rfl rfl⟩
    rw [show ((s.chip.at t).scheduleEnded (s.chip.mui.schedIndex + 1)).tbState = s.chip.tbState from rfl, h1]
    exact ⟨fun h => absurd h (by decide), fun h => absurd h held⟩

theorem dwell_not_due (h : s.chip.tbState ≠ tbAcquiring ∨ s.chip.mui.schedDone = true ∨ elapsed t s.chip.mui.dwellEnd 0 = false) :
    Gives (.dwellEnd t) s (s.chip.at t) := by
  refine gives_exec exec_dwellEnd (if_neg ?_)
  rw [tbState_at, show (s.chip.at t).mui.schedDone = s.chip.mui.schedDone from rfl,
    show elapsed (s.chip.at t).clk (s.chip.at t).mui.dwellEnd 0 = elapsed t s.chip.mui.dwellEnd 0 from rfl]
  rcases h with h | h | h <;> simp [h]

/-! ### HOLDOVER_SECOND (R111) -/

theorem exec_holdoverSecond : exec (.holdoverSecond t) s = .next { s with chip := (s.chip.at t).updateTe } := rfl

/-- R111: the time error is shown. -/
def Chip.showTe (c : Chip) (te : Nat) : Chip := c.setNat R.muiMeasTe (min te (2 ^ 32 - 1))

theorem Chip.showTe_mui (c : Chip) (te : Nat) : (c.showTe te).mui = c.mui := Chip.setNat_mui _ _ _

theorem Chip.showTe_holdSeconds (c : Chip) (te : Nat) : (c.showTe te).holdSeconds = c.holdSeconds := by
  rw [Chip.holdSeconds, Chip.showTe_mui, show (c.showTe te).clk = c.clk from Chip.setNat_clk _ _ _, Chip.holdSeconds]

/-- R111: the limit has been passed. -/
def Chip.passTe (c : Chip) : Chip := { c with mui := { c.mui with tePassed := true } }

theorem Chip.updateTe_holdover (h : c.tbState = tbFreeFlight ∨ c.tbState = tbFreeRun) {te : Nat} (hte : te = c.teAfter c.holdSeconds) :
    c.updateTe = if !c.mui.tePassed && decide (c.fld R.muiHold2 15 0 * 1000 < te) then
      (c.showTe te).passTe.muiEvent 0x0803 [.val 4 (min te (2 ^ 32 - 1)), .val 4 c.holdSeconds] else c.showTe te := by
  subst hte
  have cond : (c.tbState == tbFreeFlight || c.tbState == tbFreeRun) = true := by
    rcases h with h | h <;> rw [h] <;> rfl
  have limit : (c.showTe (c.teAfter c.holdSeconds)).fld R.muiHold2 15 0 = c.fld R.muiHold2 15 0 := Chip.setNat_fld_other _ _ (by decide) _ _
  have since : (c.showTe (c.teAfter c.holdSeconds)).holdSeconds = c.holdSeconds := Chip.showTe_holdSeconds _ _
  have mui : (c.showTe (c.teAfter c.holdSeconds)).mui = c.mui := Chip.showTe_mui _ _
  rw [Chip.updateTe, if_pos cond]
  dsimp only
  change (if !(c.showTe (c.teAfter c.holdSeconds)).mui.tePassed &&
      decide ((c.showTe (c.teAfter c.holdSeconds)).fld R.muiHold2 15 0 * 1000 < c.teAfter c.holdSeconds) then
    (c.showTe (c.teAfter c.holdSeconds)).passTe.muiEvent 0x0803
      [.val 4 (min (c.teAfter c.holdSeconds) (2 ^ 32 - 1)), .val 4 (c.showTe (c.teAfter c.holdSeconds)).holdSeconds]
    else c.showTe (c.teAfter c.holdSeconds)) = _
  rw [mui, limit, since]

theorem Chip.updateTe_tied (h1 : c.tbState ≠ tbFreeFlight) (h2 : c.tbState ≠ tbFreeRun) : c.updateTe = c.setNat R.muiMeasTe 0 :=
  if_neg (by simp [h1, h2])

theorem holdover_passes {te : Nat} (hs : s.chip.tbState = tbFreeFlight ∨ s.chip.tbState = tbFreeRun)
    (hte : te = (s.chip.at t).teAfter (s.chip.at t).holdSeconds) (fresh : s.chip.mui.tePassed = false)
    (above : s.chip.fld R.muiHold2 15 0 * 1000 < te) :
    Answers (.holdoverSecond t) s (fun c =>
      (c.reg R.muiMeasTe).toNat = min te (2 ^ 32 - 1) ∧ c.mui = { s.chip.mui with tePassed := true } ∧
      s.chip.writesOnly c ([R.muiMeasTe] ++ eventRegs) ∧
      s.chip.raises c [⟨0x0803, .room, t, [.val 4 (min te (2 ^ 32 - 1)), .val 4 (s.chip.at t).holdSeconds,
        .val 1 (s.chip.fld R.muiStat 2 0), .val 1 (s.chip.fld R.muiStat 14 12)]⟩]) := by
  refine answers_exec exec_holdoverSecond ?_
  rw [Chip.updateTe_holdover (c := s.chip.at t) hs hte, if_pos (by
    rw [show (s.chip.at t).mui.tePassed = false from fresh]
    exact decide_eq_true above)]
  refine ⟨?_, ?_, Chip.writesOnly_of ?_ ?_ ?_, Chip.muiEvent_raises rfl rfl ?_ ?_ _ _⟩
  · rw [Chip.muiEvent_reg _ _ _ (by decide), show ((s.chip.at t).showTe te).passTe.reg R.muiMeasTe = ((s.chip.at t).showTe te).reg R.muiMeasTe from rfl,
      Chip.showTe, Chip.setNat_reg_same, BitVec.toNat_ofNat]
    omega
  · rw [Chip.muiEvent_mui]; rfl
  · rw [regsSame_muiEvent_iff _ _ _ (fun a ha => List.mem_append_right _ ha),
      show ((s.chip.at t).showTe te).passTe.regs = ((s.chip.at t).showTe te).regs from rfl, Chip.showTe, regsSame_setNat_iff (by decide)]
    exact regsSame.refl
  · rw [Chip.muiEvent_dram]; rfl
  · rw [Chip.muiEvent_tbw]; rfl
  · exact Chip.setNat_fld_other _ _ (by decide) _ _
  · exact Chip.setNat_fld_other _ _ (by decide) _ _

theorem holdover_shows {te : Nat} (hs : s.chip.tbState = tbFreeFlight ∨ s.chip.tbState = tbFreeRun)
    (hte : te = (s.chip.at t).teAfter (s.chip.at t).holdSeconds)
    (quiet : s.chip.mui.tePassed = true ∨ te ≤ s.chip.fld R.muiHold2 15 0 * 1000) :
    Answers (.holdoverSecond t) s (fun c => (c.reg R.muiMeasTe).toNat = min te (2 ^ 32 - 1) ∧ c.mui = s.chip.mui ∧
      s.chip.writesOnly c [R.muiMeasTe] ∧ s.chip.raises c []) := by
  refine answers_exec exec_holdoverSecond ?_
  rw [Chip.updateTe_holdover (c := s.chip.at t) hs hte, if_neg (by
    rcases quiet with h | h
    · rw [show (s.chip.at t).mui.tePassed = true from h]; simp
    · simp only [Bool.and_eq_true, decide_eq_true_eq, not_and]
      exact fun _ => Nat.not_lt.mpr h)]
  refine ⟨?_, rfl, Chip.writesOnly_of ?_ rfl rfl, Chip.raises_of_evq rfl⟩
  · rw [Chip.showTe, Chip.setNat_reg_same, BitVec.toNat_ofNat]
    omega
  · rw [Chip.showTe, regsSame_setNat_iff (by decide)]
    exact regsSame.refl

theorem holdover_tied (h1 : s.chip.tbState ≠ tbFreeFlight) (h2 : s.chip.tbState ≠ tbFreeRun) :
    Answers (.holdoverSecond t) s (fun c => c.reg R.muiMeasTe = 0 ∧ c.mui = s.chip.mui ∧
      s.chip.writesOnly c [R.muiMeasTe] ∧ s.chip.raises c []) := by
  refine answers_exec exec_holdoverSecond ?_
  rw [Chip.updateTe_tied (c := s.chip.at t) h1 h2]
  refine ⟨Chip.setNat_reg_same _ _ _, rfl, Chip.writesOnly_of ?_ rfl rfl, Chip.raises_of_evq rfl⟩
  rw [regsSame_setNat_iff (by decide)]
  exact regsSame.refl

end

/-- Settles O24: the lock's standing time, the schedule's dwells and the holdover error. -/
theorem lockAndHoldoverAreShownAndTold : Obligations.LockAndHoldoverAreShownAndTold := by
  unfold Obligations.LockAndHoldoverAreShownAndTold
  refine ⟨fun s t l h due hs => lockTime_tethers h due hs, fun s t l h early => lockTime_early h early,
    fun s t k h1 h2 h3 ha hl small dwells => dwell_goes_on h1 h2 h3 ?_ (by omega) dwells,
    fun s t k h1 h2 h3 ha hl last => schedule_ends h1 h2 h3 ha hl last,
    fun s t h1 h2 h3 lost small dwells => dwell_goes_on h1 h2 h3 ?_ small dwells,
    fun s t h => dwell_not_due h, fun s t te hs hte fresh above => holdover_passes hs hte fresh above,
    fun s t te hs hte quiet => holdover_shows hs hte quiet, fun s t h1 h2 => holdover_tied h1 h2⟩
  · rw [Chip.lockedNow_of ha hl, if_pos rfl]
  · rw [Chip.lockedNow_not lost, if_neg (by decide)]

end Sys2Proof.Machine

/-! ## Muith time: an input's state (R98) -/

namespace Sys2Proof.Machine

section
variable {c : Chip} {s : State} {t : Stamp} {k : Nat}

theorem refStat_notMem (k : Nat) : R.refStat k ∉ eventRegs := by
  simp only [mem_eventRegs, R.refStat, R.evjStat, R.evjCnt]; omega

theorem refStat_ne_muiStat (k : Nat) : R.refStat k ≠ R.muiStat := by simp only [R.refStat, R.muiStat]; omega

theorem refStat_inj {j k : Nat} : R.refStat j = R.refStat k ↔ j = k := by simp only [R.refStat]; omega

/-- R98: `REF_STAT` takes the new state and, where there is one, the cause. -/
def Chip.showRefState (c : Chip) (k new cause : Nat) : Chip :=
  let c := c.setFld (R.refStat k) 2 0 new
  let c := if cause == 0 then c else c.setFld (R.refStat k) 31 28 cause
  if new == 3 then c else c.setFld (R.refStat k) 23 12 0

/-- R98: an input that becomes AVAILABLE or ACTIVE has been so from then on. -/
def Chip.noteAvail (c : Chip) (k new : Nat) : Chip :=
  if new == 4 || new == 5 then c.modRefIn k (fun i => { i with everAvail := true }) else c

/-- R106: an input that becomes AVAILABLE other than from ACTIVE may load the counter again. -/
def Chip.noteLoad (c : Chip) (k old new : Nat) : Chip := if new == 4 && old != 5 then c.noteReload k else c

theorem Chip.setRefState_eq (c : Chip) (k new cause : Nat) (h : c.refState k ≠ new) : c.setRefState k new cause =
    (((c.showRefState k new cause).noteAvail k new).noteLoad k (c.refState k) new).muiEvent 0x0901 [.val 1 k, .val 1 (c.refState k), .val 1 new,
      .val 1 ((((c.showRefState k new cause).noteAvail k new).noteLoad k (c.refState k) new).fld (R.refStat k) 31 28)] := by
  rw [Chip.setRefState, if_neg (by simpa using h)]
  rfl

theorem Chip.showRefState_says (small : new < 8) {d : Chip} (hd : d = c.showRefState k new cause) :
    d.refState k = new ∧ regsSame [R.refStat k] c.regs d.regs ∧
    d.fld (R.refStat k) 31 28 = (if cause = 0 then c.fld (R.refStat k) 31 28 else cause % 16) ∧
    (new ≠ 3 → d.fld (R.refStat k) 23 12 = 0) ∧ d.mui = c.mui ∧ d.dram = c.dram ∧ d.tbw = c.tbw ∧ d.clk = c.clk ∧ d.evq = c.evq ∧
    d.d2dQueue = c.d2dQueue := by
  have first : (c.setFld (R.refStat k) 2 0 new).refState k = new := by
    rw [Chip.refState, Chip.setFld_fld_same _ _ _ _ _ (by decide)]
    exact Nat.mod_eq_of_lt small
  subst hd
  unfold Chip.showRefState
  dsimp only
  have second : ∀ e : Chip, e = (if (cause == 0) = true then c.setFld (R.refStat k) 2 0 new else
      (c.setFld (R.refStat k) 2 0 new).setFld (R.refStat k) 31 28 cause) →
      e.refState k = new ∧ regsSame [R.refStat k] c.regs e.regs ∧
      e.fld (R.refStat k) 31 28 = (if cause = 0 then c.fld (R.refStat k) 31 28 else cause % 16) ∧ e.mui = c.mui ∧ e.dram = c.dram ∧
      e.tbw = c.tbw ∧ e.clk = c.clk ∧ e.evq = c.evq ∧ e.d2dQueue = c.d2dQueue := by
    intro e he
    by_cases none : cause = 0
    · rw [if_pos (by simpa using none)] at he
      subst he
      refine ⟨first, by simp, ?_, rfl, rfl, rfl, rfl, rfl, rfl⟩
      rw [if_pos none, Chip.setFld_fld_ne _ (by decide) (.inr (.inr (by decide)))]
    · rw [if_neg (by simpa using none)] at he
      subst he
      refine ⟨?_, by simp, ?_, rfl, rfl, rfl, rfl, rfl, rfl⟩
      · rw [Chip.refState, Chip.setFld_fld_ne _ (by decide) (.inr (.inl (by decide)))]
        exact first
      · rw [if_neg none, Chip.setFld_fld_same _ _ _ _ _ (by decide)]; rfl
  generalize (if (cause == 0) = true then c.setFld (R.refStat k) 2 0 new else
      (c.setFld (R.refStat k) 2 0 new).setFld (R.refStat k) 31 28 cause) = e at second
  obtain ⟨state, regs, shown, mui, dram, tbw, clk, evq, queue⟩ := second e rfl
  by_cases waits : new = 3
  · rw [if_pos (by simpa using waits)]
    exact ⟨state, regs, shown, fun h => absurd waits h, mui, dram, tbw, clk, evq, queue⟩
  · rw [if_neg (by simpa using waits)]
    refine ⟨?_, (regsSame_setFld_iff (by simp) _ _ _).mpr regs, ?_, fun _ => ?_, mui, dram, tbw, clk, evq, queue⟩
    · rw [Chip.refState, Chip.setFld_fld_ne _ (by decide) (.inr (.inl (by decide)))]
      exact state
    · rw [Chip.setFld_fld_ne _ (by decide) (.inr (.inr (by decide)))]
      exact shown
    · rw [Chip.setFld_fld_same _ _ _ _ _ (by decide)]; rfl

/-- Of the timebase a note of a load changes `reload` alone. -/
def Muith.reloaded (m : Muith) (e : Option Nat) : Muith := { m with reload := e }

theorem Chip.noteReload_frame (c : Chip) (k : Nat) : ∃ e, c.noteReload k = { c with mui := c.mui.reloaded e } := by
  unfold Chip.noteReload
  dsimp only
  rcases c.entryOf k with _ | e
  · exact ⟨c.mui.reload, rfl⟩
  · dsimp only
    split
    · exact ⟨some e, rfl⟩
    · exact ⟨c.mui.reload, rfl⟩

/-- The notes on an input that becomes AVAILABLE or ACTIVE. -/
theorem Chip.noted_says (c : Chip) (k old new : Nat) {d : Chip} (hd : d = (c.noteAvail k new).noteLoad k old new) :
    d.regs = c.regs ∧ d.dram = c.dram ∧ d.tbw = c.tbw ∧ d.clk = c.clk ∧ d.evq = c.evq ∧ d.d2dQueue = c.d2dQueue ∧ d.mui.cmds = c.mui.cmds ∧
    (∀ j, j ≠ k → d.refIn j = c.refIn j) ∧
    d.refIn k = (if new = 4 ∨ new = 5 then { c.refIn k with everAvail := true } else c.refIn k) := by
  have avail : ∀ e, e = c.noteAvail k new → e.regs = c.regs ∧ e.dram = c.dram ∧ e.tbw = c.tbw ∧ e.clk = c.clk ∧ e.evq = c.evq ∧
      e.d2dQueue = c.d2dQueue ∧ e.mui.cmds = c.mui.cmds ∧ (∀ j, j ≠ k → e.refIn j = c.refIn j) ∧
      e.refIn k = (if new = 4 ∨ new = 5 then { c.refIn k with everAvail := true } else c.refIn k) := by
    intro e he
    rw [Chip.noteAvail] at he
    by_cases h : new = 4 ∨ new = 5
    · rw [if_pos (by simpa using h)] at he
      subst he
      exact ⟨rfl, rfl, rfl, rfl, rfl, rfl, rfl, fun j hj => Chip.refIn_modRefIn_other _ _ _ hj, by rw [if_pos h, Chip.refIn_modRefIn_same]⟩
    · rw [if_neg (by simpa using h)] at he
      subst he
      exact ⟨rfl, rfl, rfl, rfl, rfl, rfl, rfl, fun _ _ => rfl, by rw [if_neg h]⟩
  generalize c.noteAvail k new = e at avail hd
  obtain ⟨regs, dram, tbw, clk, evq, queue, cmds, others, own⟩ := avail e rfl
  rw [Chip.noteLoad] at hd
  by_cases h : (new == 4 && old != 5) = true
  · rw [if_pos h] at hd
    obtain ⟨r, hr⟩ := Chip.noteReload_frame e k
    rw [hr] at hd
    subst hd
    exact ⟨regs, dram, tbw, clk, evq, queue, cmds, others, own⟩
  · rw [if_neg h] at hd
    subst hd
    exact ⟨regs, dram, tbw, clk, evq, queue, cmds, others, own⟩

/-- R98, R113: what a change of an input's state leaves. -/
structure Chip.RefMoved (c d : Chip) (k new cause : Nat) : Prop where
  state : d.refState k = new
  shown : d.fld (R.refStat k) 31 28 = (if cause = 0 then c.fld (R.refStat k) 31 28 else cause % 16)
  wait : new ≠ 3 → d.fld (R.refStat k) 23 12 = 0
  regs : regsSame ([R.refStat k] ++ eventRegs) c.regs d.regs
  dram : d.dram = c.dram
  tbw : d.tbw = c.tbw
  clk : d.clk = c.clk
  queue : d.d2dQueue = c.d2dQueue
  cmds : d.mui.cmds = c.mui.cmds
  others : ∀ j, j ≠ k → d.refIn j = c.refIn j
  own : d.refIn k = (if new = 4 ∨ new = 5 then { c.refIn k with everAvail := true } else c.refIn k)
  raises : c.raises d [⟨0x0901, .room, c.clk, [.val 1 k, .val 1 (c.refState k), .val 1 new,
    .val 1 (if cause = 0 then c.fld (R.refStat k) 31 28 else cause % 16), .val 1 (c.fld R.muiStat 2 0), .val 1 (c.fld R.muiStat 14 12)]⟩]

theorem Chip.setRefState_moves {new cause : Nat} (h : c.refState k ≠ new) (small : new < 8) {d : Chip} (hd : d = c.setRefState k new cause) :
    c.RefMoved d k new cause := by
  rw [Chip.setRefState_eq c k new cause h] at hd
  obtain ⟨state, regs, shown, wait, mui, dram, tbw, clk, evq, queue⟩ := Chip.showRefState_says (c := c) (k := k) (cause := cause) small rfl
  generalize c.showRefState k new cause = a at state regs shown wait mui dram tbw clk evq queue hd
  obtain ⟨regs', dram', tbw', clk', evq', queue', cmds', others', own'⟩ := Chip.noted_says a k (c.refState k) new rfl
  generalize (a.noteAvail k new).noteLoad k (c.refState k) new = b at regs' dram' tbw' clk' evq' queue' cmds' others' own' hd
  have reg : ∀ x, b.reg x = a.reg x := fun x => by rw [Chip.reg, regs', Chip.reg]
  have stat : ∀ hi lo, d.fld (R.refStat k) hi lo = a.fld (R.refStat k) hi lo := fun hi lo => by
    rw [hd, Chip.fld_of_reg (Chip.muiEvent_reg _ _ _ (refStat_notMem k)), Chip.fld_of_reg (reg _)]
  have inputs : ∀ j, d.refIn j = b.refIn j := fun j => Chip.refIn_of_mui (by rw [hd, Chip.muiEvent_mui]) j
  have before : ∀ j, a.refIn j = c.refIn j := Chip.refIn_of_mui mui
  have tb : ∀ hi lo, b.fld R.muiStat hi lo = c.fld R.muiStat hi lo := fun hi lo => by
    rw [Chip.fld_of_reg (reg _), regs.fld (by simpa using (refStat_ne_muiStat k).symm)]
  rw [Chip.fld_of_reg (reg _), shown] at hd
  refine ⟨(stat 2 0).trans state, (stat 31 28).trans shown, fun h => (stat 23 12).trans (wait h), ?_, ?_, ?_, ?_, ?_, ?_, fun j hj => ?_, ?_, ?_⟩
  · rw [hd, regsSame_muiEvent_iff _ _ _ (fun a ha => List.mem_append_right _ ha), regs']
    exact regs.mono (fun _ => List.mem_append_left _)
  · rw [hd, Chip.muiEvent_dram, dram', dram]
  · rw [hd, Chip.muiEvent_tbw, tbw', tbw]
  · rw [hd, Chip.muiEvent_clk, clk', clk]
  · rw [hd, Chip.muiEvent_d2dQueue, queue', queue]
  · rw [hd, Chip.muiEvent_mui, cmds', mui]
  · rw [inputs, others' j hj, before]
  · rw [inputs, own', before]
  · rw [hd]
    exact Chip.muiEvent_raises (evq'.trans evq) (clk'.trans clk) (tb 2 0) (tb 14 12) _ _

theorem Chip.RefMoved.writesOnly {c d : Chip} {new cause : Nat} (h : c.RefMoved d k new cause) : c.writesOnly d ([R.refStat k] ++ eventRegs) :=
  Chip.writesOnly_of h.regs h.dram h.tbw

/-- R98: the entry's time to restore, in seconds. -/
def Chip.wtrOf (c : Chip) (k : Nat) : Nat :=
  match c.entryOf k with
  | some e => c.fld (R.refPrio e) 11 0
  | none => 0

theorem Chip.wtrOf_entry {e : Nat} (h : c.entryOf k = some e) : c.wtrOf k = c.fld (R.refPrio e) 11 0 := by rw [Chip.wtrOf, h]

theorem Chip.wtrOf_small (c : Chip) (k : Nat) : c.wtrOf k < 4096 := by
  rw [Chip.wtrOf]
  split
  · exact bitsOf_lt _ _ _
  · decide

/-- R98: the wait to restore begins. -/
def Chip.startWait (c : Chip) (k : Nat) : Chip := c.modRefIn k (fun i => { i with wtrEnd := c.clk + c.wtrOf k * nsPerS })

theorem exec_qualification (hk : k < 7) (q : (s.chip.at t).qualified k = true) : exec (.qualificationComplete t k) s = .next { s with chip := (
    if !((s.chip.at t).refIn k).everAvail || (s.chip.at t).wtrOf k == 0 then (s.chip.at t).setRefState k 4 0
    else (((s.chip.at t).startWait k).setRefState k 3 0).setFld (R.refStat k) 23 12 ((s.chip.at t).wtrOf k)) } := by
  rw [show exec (.qualificationComplete t k) s = execQualificationComplete t k s from rfl, execQualificationComplete,
    runIf_of _ _ _ (decide_eq_true hk)]
  dsimp only
  rw [if_pos q]
  rfl

theorem Chip.qualified_state (h : c.qualified k = true) : c.refState k = 2 := by
  rw [Chip.qualified] at h
  simp only [Bool.and_eq_true, beq_iff_eq] at h
  exact h.1.1.1

theorem Chip.refState_at : (s.chip.at t).refState k = s.chip.refState k := rfl

theorem qualifies (hk : k < 7) (q : (s.chip.at t).qualified k = true) (first : (s.chip.refIn k).everAvail = false ∨ s.chip.entryOf k = none ∨
      (∀ e, s.chip.entryOf k = some e → s.chip.fld (R.refPrio e) 11 0 = 0)) :
    Answers (.qualificationComplete t k) s (fun c =>
      c.refState k = 4 ∧ (c.refIn k).everAvail = true ∧ (∀ j, j < 7 → j ≠ k → c.refIn j = s.chip.refIn j) ∧
      s.chip.writesOnly c ([R.refStat k] ++ eventRegs) ∧
      s.chip.raises c [⟨0x0901, .room, t, [.val 1 k, .val 1 2, .val 1 4, .val 1 (s.chip.fld (R.refStat k) 31 28),
        .val 1 (s.chip.fld R.muiStat 2 0), .val 1 (s.chip.fld R.muiStat 14 12)]⟩]) := by
  refine answers_exec (exec_qualification hk q) ?_
  have cond : (!((s.chip.at t).refIn k).everAvail || (s.chip.at t).wtrOf k == 0) = true := by
    rcases first with h | h
    · rw [show ((s.chip.at t).refIn k).everAvail = false from h]; rfl
    · have none : (s.chip.at t).wtrOf k = 0 := by
        rw [show (s.chip.at t).wtrOf k = s.chip.wtrOf k from rfl]
        rcases he : s.chip.entryOf k with _ | e
        · rw [Chip.wtrOf, he]
        · rw [Chip.wtrOf_entry he]
          exact h.resolve_left (by rw [he]; simp) e he
      rw [none]; simp
  rw [if_pos cond]
  have state : s.chip.refState k = 2 := Chip.qualified_state (c := s.chip.at t) q
  have moved := Chip.setRefState_moves (c := s.chip.at t) (k := k) (new := 4) (cause := 0) (by rw [Chip.refState_at, state]; decide) (by decide) rfl
  refine ⟨moved.state, by rw [moved.own, if_pos (.inl rfl)], fun j _ hj => moved.others j hj, moved.writesOnly, ?_⟩
  have raises := moved.raises
  rw [Chip.refState_at, state] at raises
  exact raises

theorem waits_to_restore {e : Nat} (hk : k < 7) (q : (s.chip.at t).qualified k = true) (again : (s.chip.refIn k).everAvail = true)
    (he : s.chip.entryOf k = some e) (wtr : 0 < s.chip.fld (R.refPrio e) 11 0) :
    Answers (.qualificationComplete t k) s (fun c =>
      c.refState k = 3 ∧ c.fld (R.refStat k) 23 12 = s.chip.fld (R.refPrio e) 11 0 ∧
      (c.refIn k).wtrEnd = t + s.chip.fld (R.refPrio e) 11 0 * 1000000000 ∧
      s.chip.writesOnly c ([R.refStat k] ++ eventRegs) ∧
      s.chip.raises c [⟨0x0901, .room, t, [.val 1 k, .val 1 2, .val 1 3, .val 1 (s.chip.fld (R.refStat k) 31 28),
        .val 1 (s.chip.fld R.muiStat 2 0), .val 1 (s.chip.fld R.muiStat 14 12)]⟩]) := by
  refine answers_exec (exec_qualification hk q) ?_
  have entry : (s.chip.at t).wtrOf k = s.chip.fld (R.refPrio e) 11 0 := Chip.wtrOf_entry (c := s.chip) he
  rw [if_neg (by rw [show ((s.chip.at t).refIn k).everAvail = true from again, entry]; simp; omega)]
  have state : s.chip.refState k = 2 := Chip.qualified_state (c := s.chip.at t) q
  have moved := Chip.setRefState_moves (c := (s.chip.at t).startWait k) (k := k) (new := 3) (cause := 0)
    (by rw [show ((s.chip.at t).startWait k).refState k = s.chip.refState k from rfl, state]; decide) (by decide) rfl
  generalize ((s.chip.at t).startWait k).setRefState k 3 0 = d at moved ⊢
  refine ⟨?_, ?_, ?_, Chip.writesOnly_of ?_ moved.dram moved.tbw, ?_⟩
  · rw [Chip.refState, Chip.setFld_fld_ne _ (by decide) (.inr (.inl (by decide)))]
    exact moved.state
  · rw [Chip.setFld_fld_same _ _ _ _ _ (by decide), ← entry]
    exact Nat.mod_eq_of_lt (Chip.wtrOf_small _ k)
  · rw [Chip.refIn_of_mui (Chip.setFld_mui _ _ _ _ _), moved.own, if_neg (by decide), Chip.startWait, Chip.refIn_modRefIn_same, entry]
    rfl
  · rw [regsSame_setFld_iff (by simp)]
    exact moved.regs
  · have raises := moved.raises
    rw [show ((s.chip.at t).startWait k).refState k = s.chip.refState k from rfl, state] at raises
    exact raises

theorem exec_wtrExpire (hk : k < 7) : exec (.wtrExpire t k) s = .next { s with chip := (
    if s.chip.refState k == 3 && elapsed t (s.chip.refIn k).wtrEnd 0 && (s.chip.refIn k).failing.isEmpty && (s.chip.refIn k).firstFail == 0 then
      (s.chip.at t).setRefState k 4 0 else s.chip.at t) } := by
  rw [show exec (.wtrExpire t k) s = execWtrExpire t k s from rfl, execWtrExpire, runIf_of _ _ _ (decide_eq_true hk)]
  rfl

theorem wait_ends (hk : k < 7) (waits : s.chip.refState k = 3) (due : elapsed t (s.chip.refIn k).wtrEnd 0 = true)
    (pass : (s.chip.refIn k).failing = []) (kept : (s.chip.refIn k).firstFail = 0) :
    Answers (.wtrExpire t k) s (fun c =>
      c.refState k = 4 ∧ c.fld (R.refStat k) 23 12 = 0 ∧ s.chip.writesOnly c ([R.refStat k] ++ eventRegs) ∧
      s.chip.raises c [⟨0x0901, .room, t, [.val 1 k, .val 1 3, .val 1 4, .val 1 (s.chip.fld (R.refStat k) 31 28),
        .val 1 (s.chip.fld R.muiStat 2 0), .val 1 (s.chip.fld R.muiStat 14 12)]⟩]) := by
  refine answers_exec (exec_wtrExpire hk) ?_
  rw [if_pos (by rw [waits, due, pass, kept]; rfl)]
  have moved := Chip.setRefState_moves (c := s.chip.at t) (k := k) (new := 4) (cause := 0) (by rw [Chip.refState_at, waits]; decide) (by decide) rfl
  refine ⟨moved.state, moved.wait (by decide), moved.writesOnly, ?_⟩
  have raises := moved.raises
  rw [Chip.refState_at, waits] at raises
  exact raises

end

/-- Settles O22: a change of an input's state, and the two conditions under which it comes. -/
theorem qualifiedInputBecomesAvailable : Obligations.QualifiedInputBecomesAvailable := by
  unfold Obligations.QualifiedInputBecomesAvailable
  refine ⟨fun s t k hk q first => qualifies hk q first, fun s t k e hk q again he wtr => waits_to_restore hk q again he wtr,
    fun s t k hk q => ?_, fun s t k hk waits due pass kept => wait_ends hk waits due pass kept, fun s t k hk h => ?_⟩
  · exact gives_of (show exec _ s = execQualificationComplete t k s from rfl) (decide_eq_true hk) (if_neg (by rw [q]; decide))
  · refine gives_exec (exec_wtrExpire hk) (if_neg ?_)
    rcases h with h | h | h | h <;> simp [h]

end Sys2Proof.Machine

/-! ## Muith time: the tests of the reference inputs, and their edges (R92, R93, R97) -/

namespace Sys2Proof.Machine

section
variable {c : Chip} {s : State} {t : Stamp} {k : Nat}

/-! ### A test that fails -/

/-- R93: a failed test, and nothing else of the part. -/
structure Chip.Fails (c d : Chip) (k cause : Nat) : Prop where
  failing : cause ∈ (d.refIn k).failing
  first : (d.refIn k).firstFail = (if (c.refIn k).firstFail = 0 then cause else (c.refIn k).firstFail)
  predicted : (d.refIn k).predicted = false
  qual : (d.refIn k).qualCount = 0
  others : ∀ j, j ≠ k → d.refIn j = c.refIn j
  writes : c.writesOnly d []
  raises : c.raises d []

theorem Chip.failInput_fails (c : Chip) (k cause : Nat) : c.Fails (c.failInput k cause) k cause := by
  refine ⟨(Chip.failInput_failing c k k cause cause).mpr (.inr ⟨rfl, rfl⟩), ?_, ?_, ?_, fun j hj => Chip.refIn_modRefIn_other _ _ _ hj,
    Chip.writesOnly_of regsSame.refl rfl rfl, Chip.raises_of_evq rfl⟩ <;> rw [Chip.failInput, Chip.refIn_modRefIn_same]
  by_cases h : (c.refIn k).firstFail = 0 <;> simp [h]

/-! ### The ports -/

theorem Chip.ptp_modPtp (c : Chip) (p q : Nat) (f : PtpPort → PtpPort) : (c.modPtp p f).ptp q = if q = p then f (c.ptp p) else c.ptp q :=
  mapGet_mapPut _ _ _ _ _

/-- R93: a port whose announces time out forgets its masters. -/
def PtpPort.silent (q : PtpPort) : PtpPort := { q with heard := [], master := none, sync := none, window := [] }

theorem announces_time_out {p : Nat} (hp : p < 2) : Answers (.announceTimeout t p) s (fun c =>
    5 ∈ (c.refIn p).failing ∧ (c.refIn p).firstFail = (if (s.chip.refIn p).firstFail = 0 then 5 else (s.chip.refIn p).firstFail) ∧
      (c.refIn p).predicted = false ∧ (c.refIn p).qualCount = 0 ∧ (∀ j, j < 7 → j ≠ p → c.refIn j = s.chip.refIn j) ∧
      (c.ptp p).master = none ∧ (c.ptp p).heard = [] ∧ (∀ q, q < 2 → q ≠ p → c.ptp q = s.chip.ptp q) ∧
      s.chip.writesOnly c [] ∧ s.chip.raises c []) := by
  refine answers_of (show exec _ s = execAnnounceTimeout t p s from rfl) (decide_eq_true hp) ?_
  dsimp only
  have fails := Chip.failInput_fails (s.chip.at t) p 5
  have ports : ∀ q, ((s.chip.at t).failInput p 5).ptp q = s.chip.ptp q := fun _ => rfl
  generalize (s.chip.at t).failInput p 5 = d at fails ports
  have inputs : ∀ j, (d.modPtp p PtpPort.silent).refIn j = d.refIn j := fun _ => rfl
  have mine : (d.modPtp p PtpPort.silent).ptp p = (d.ptp p).silent := by rw [Chip.ptp_modPtp, if_pos rfl]
  refine ⟨fails.failing, fails.first, fails.predicted, fails.qual, fun j _ hj => fails.others j hj, ?_, ?_, fun q _ hq => ?_, fails.writes, fails.raises⟩
  · exact congrArg PtpPort.master mine
  · exact congrArg PtpPort.heard mine
  · exact (Chip.ptp_modPtp _ _ _ _).trans ((if_neg hq).trans (ports q))

/-! ### What a sample keeps of an input's edges -/

/-- An input's last edge and its label. -/
def RefInput.marks (i : RefInput) : Option Nat × Option (Nat × Stamp) := (i.lastEdge, i.label)

theorem Chip.modRefIn_marks (c : Chip) {f : RefInput → RefInput} (h : ∀ i, (f i).marks = i.marks) :
    ((c.modRefIn k f).refIn k).marks = (c.refIn k).marks := by rw [Chip.refIn_modRefIn_same, h]

theorem Chip.failInput_marks (c : Chip) (cause : Nat) : ((c.failInput k cause).refIn k).marks = (c.refIn k).marks :=
  c.modRefIn_marks fun _ => rfl

theorem Chip.passInput_marks (c : Chip) (cause : Nat) : ((c.passInput k cause).refIn k).marks = (c.refIn k).marks :=
  c.modRefIn_marks fun _ => rfl

theorem Chip.farTest_marks (c : Chip) (phi : Int) : ((c.farTest k phi).refIn k).marks = (c.refIn k).marks := by
  unfold Chip.farTest
  extract_lets limit
  split
  · rfl
  · split
    · split
      · rfl
      · rw [Chip.refIn_of_mui (Chip.muiEvent_mui _ _ _), Chip.failInput_marks]
    · exact Chip.passInput_marks _ _

theorem Chip.phiSample_marks (c : Chip) (phi : Int) (credit : Nat) : ((c.phiSample k phi credit).refIn k).marks = (c.refIn k).marks := by
  rw [Chip.phiSample_eq]
  split
  · exact c.failInput_marks _
  · unfold Chip.acceptPhi
    extract_lets d e
    have sampled : (d.refIn k).marks = (c.refIn k).marks := c.modRefIn_marks fun _ => rfl
    have tested : (e.refIn k).marks = (c.refIn k).marks := (d.farTest_marks phi).trans sampled
    split
    · exact (e.modRefIn_marks fun i => (rfl : RefInput.marks { i with qualCount := i.qualCount + credit } = i.marks)).trans tested
    · exact tested

/-! ### A PPS edge -/

/-- R93: an edge one second, to within 1 µs, after the last one. -/
def Chip.edgeInTime (c : Chip) (k edge : Nat) : Bool :=
  match (c.refIn k).lastEdge with
  | none => false
  | some e => decide (((edge : Int) - e - 256 * 1000000000).natAbs ≤ 256 * 1000)

/-- R93: the test of the interval between edges. -/
def Chip.edgeTested (c : Chip) (k edge : Nat) : Chip :=
  if c.edgeInTime k edge then c.passInput k 2 else if (c.refIn k).lastEdge.isSome then c.failInput k 2 else c

/-- R92: the edge is kept. -/
def Chip.edgeKept (c : Chip) (k edge : Nat) : Chip := c.modRefIn k (fun i => { i with lastEdge := some edge, seen := true })

/-- R97: the label that an edge of input 5 takes. -/
def RefInput.labelFor (i : RefInput) (edge : Nat) : Option Nat :=
  match i.label with
  | none => none
  | some (s, at_) =>
    let d : Int := (edge : Int) / 256 - at_
    if decide (100000000 ≤ d) && decide (d ≤ 900000000) then some s else none

/-- R97: the label is used up. -/
def Chip.labelUsed (c : Chip) (k : Nat) : Chip := c.modRefIn k (fun i => { i with label := none })

/-- R92: the edge less the input's delay. -/
def Chip.edgeTime (c : Chip) (k edge : Nat) : Int := (edge : Int) - 256 * c.sfld (R.refDly (k - 3)) 31 0

/-- R92: the φ of an edge by the nearest whole second. -/
def nearestPhi (e : Int) : Int := e - (e + 256 * 1000000000 / 2) / (256 * 1000000000) * (256 * 1000000000)

/-- R92, R97: what an edge measures. -/
def Chip.edgeSample (c : Chip) (k edge : Nat) (label : Option Nat) (credit : Nat) : Chip :=
  if k == 5 then
    match label with
    | none => (c.failInput k 7).labelUsed k
    | some s => ((c.passInput k 7).labelUsed k).phiSample k (c.edgeTime k edge - s * (256 * 1000000000)) credit
  else c.phiSample k (nearestPhi (c.edgeTime k edge)) credit

theorem Chip.edgeSample_phase (h : (k == 5) = false) (c : Chip) (edge : Nat) (label : Option Nat) (credit : Nat) :
    c.edgeSample k edge label credit = c.phiSample k (nearestPhi (c.edgeTime k edge)) credit := if_neg (by rw [h]; decide)

theorem Chip.ppsEdge_eq (c : Chip) (k edge : Nat) : c.ppsEdge k edge = ((c.edgeTested k edge).edgeKept k edge).edgeSample k edge
    ((c.refIn k).labelFor edge) (if c.edgeInTime k edge then 1 else 0) := rfl

theorem Chip.OneInput.edgeTested (c : Chip) (k edge : Nat) : Chip.OneInput k c (c.edgeTested k edge) := by
  unfold Chip.edgeTested
  split
  · exact .passInput c k 2
  · split
    · exact .failInput c k 2
    · exact .refl

theorem Chip.OneInput.labelUsed (c : Chip) (k : Nat) : Chip.OneInput k c (c.labelUsed k) := .modRefIn c fun _ => rfl

theorem Chip.labelUsed_marks (c : Chip) : ((c.labelUsed k).refIn k).marks = ((c.refIn k).lastEdge, none) := by
  rw [Chip.labelUsed, Chip.refIn_modRefIn_same]; rfl

theorem Chip.edgeSample_says (c : Chip) (edge : Nat) (label : Option Nat) (credit : Nat) :
    Chip.OneInput k c (c.edgeSample k edge label credit) ∧
      ((c.edgeSample k edge label credit).refIn k).marks = ((c.refIn k).lastEdge, if k = 5 then none else (c.refIn k).label) := by
  unfold Chip.edgeSample
  by_cases five : k = 5
  · rw [if_pos (by simpa using five), if_pos five]
    rcases label with _ | second
    · refine ⟨(Chip.OneInput.failInput c k 7).trans (.labelUsed _ k), ?_⟩
      have kept := congrArg Prod.fst (c.failInput_marks (k := k) 7)
      exact (Chip.labelUsed_marks _).trans (congrArg (·, none) kept)
    · refine ⟨((Chip.OneInput.passInput c k 7).trans (.labelUsed _ k)).trans (.phiSample _ k _ _), ?_⟩
      have kept := congrArg Prod.fst (c.passInput_marks (k := k) 7)
      exact (Chip.phiSample_marks _ _ _).trans ((Chip.labelUsed_marks _).trans (congrArg (·, none) kept))
  · rw [if_neg (by simpa using five), if_neg five]
    exact ⟨.phiSample c k _ _, c.phiSample_marks _ _⟩

/-- R92, R93, R97: what an edge leaves. -/
theorem Chip.ppsEdge_says (c : Chip) (k edge : Nat) {d : Chip} (hd : d = c.ppsEdge k edge) :
    (d.refIn k).lastEdge = some edge ∧ (d.refIn k).seen = true ∧ (k = 5 → (d.refIn k).label = none) ∧ (∀ j, j ≠ k → d.refIn j = c.refIn j) ∧
      regsSame eventRegs c.regs d.regs ∧ d.dram = c.dram ∧ d.tbw = c.tbw := by
  rw [Chip.ppsEdge_eq] at hd
  have tested := Chip.OneInput.edgeTested c k edge
  generalize c.edgeTested k edge = a at tested hd
  have own : (a.edgeKept k edge).refIn k = { a.refIn k with lastEdge := some edge, seen := true } := Chip.refIn_modRefIn_same _ _ _
  have apart : ∀ j, j ≠ k → (a.edgeKept k edge).refIn j = a.refIn j := fun j hj => Chip.refIn_modRefIn_other _ _ _ hj
  have regs : (a.edgeKept k edge).regs = a.regs := rfl
  have dram : (a.edgeKept k edge).dram = a.dram := rfl
  have tbw : (a.edgeKept k edge).tbw = a.tbw := rfl
  generalize a.edgeKept k edge = b at own apart regs dram tbw hd
  obtain ⟨one, marks⟩ := b.edgeSample_says (k := k) edge ((c.refIn k).labelFor edge) (if c.edgeInTime k edge then 1 else 0)
  rw [← hd] at one marks
  refine ⟨?_, ?_, fun five => ?_, fun j hj => ?_, ?_, ?_, ?_⟩
  · have kept := congrArg Prod.fst marks
    rw [own] at kept
    exact kept
  · rw [one.seen, own]
  · have label := congrArg Prod.snd marks
    rw [if_pos five] at label
    exact label
  · rw [one.others j hj, apart j hj, tested.others j hj]
  · exact tested.regs.trans (regs ▸ one.regs)
  · rw [one.dram, dram, tested.dram]
  · rw [one.tbw, tbw, tested.tbw]

/-- R23, R24: an edge's measurement crosses to the core die, or waits for the link. -/
def Chip.edgeCrosses (c : Chip) (k : Nat) : Chip := if c.d2dUp then c else c.queueUp (.edge k ((c.refIn k).phi.getD 0))

theorem exec_ppsEdge {edge : Nat} (h3 : 3 ≤ k) (h5 : k ≤ 5) :
    exec (.ppsEdge t k edge) s = .next { s with chip := ((s.chip.at t).ppsEdge k edge).edgeCrosses k } := by
  rw [show exec (.ppsEdge t k edge) s = execPpsEdge t k edge s from rfl, execPpsEdge, runIf_of _ _ _ (by simp [h3, h5])]
  rfl

theorem Chip.queueUp_says (c : Chip) (m : D2dMsg) : (c.queueUp m).mui = c.mui ∧ regsSame [R.sysD2dStat] c.regs (c.queueUp m).regs ∧
    (c.queueUp m).dram = c.dram ∧ (c.queueUp m).tbw = c.tbw ∧ (c.queueUp m).evq = c.evq := by
  unfold Chip.queueUp
  split
  · exact ⟨rfl, regsSame.refl, rfl, rfl, rfl⟩
  · exact ⟨rfl, (regsSame_addFld_iff (by simp) _ _ _).mpr regsSame.refl, rfl, rfl, rfl⟩

theorem Chip.edgeCrosses_says (c : Chip) (k : Nat) : (c.edgeCrosses k).mui = c.mui ∧
    regsSame (if c.d2dUp = true then [] else [R.sysD2dStat]) c.regs (c.edgeCrosses k).regs ∧
    (c.edgeCrosses k).dram = c.dram ∧ (c.edgeCrosses k).tbw = c.tbw ∧ (c.edgeCrosses k).evq = c.evq := by
  unfold Chip.edgeCrosses
  by_cases up : c.d2dUp = true
  · rw [if_pos up, if_pos up]
    exact ⟨rfl, regsSame.refl, rfl, rfl, rfl⟩
  · rw [if_neg up, if_neg up]
    exact c.queueUp_says _

theorem edge_is_kept {edge : Nat} (h3 : 3 ≤ k) (h5 : k ≤ 5) : Answers (.ppsEdge t k edge) s (fun c =>
    (c.refIn k).lastEdge = some edge ∧ (c.refIn k).seen = true ∧ (k = 5 → (c.refIn k).label = none) ∧
      (∀ j, j < 7 → j ≠ k → c.refIn j = s.chip.refIn j) ∧
      s.chip.writesOnly c ((if s.chip.d2dUp = true then [] else [R.sysD2dStat]) ++ eventRegs)) := by
  refine answers_exec (exec_ppsEdge h3 h5) ?_
  obtain ⟨last, seen, label, others, regs, dram, tbw⟩ := (s.chip.at t).ppsEdge_says k edge rfl
  generalize (s.chip.at t).ppsEdge k edge = d at last seen label others regs dram tbw
  obtain ⟨mui, regs', dram', tbw', -⟩ := d.edgeCrosses_says k
  have up : d.d2dUp = s.chip.d2dUp := regs.bit (c := s.chip) (c1 := d) (by decide) 31
  rw [up] at regs'
  have inputs := Chip.refIn_of_mui mui
  refine ⟨by rw [inputs, last], by rw [inputs, seen], fun h => by rw [inputs, label h], fun j _ hj => by rw [inputs, others j hj]; rfl,
    Chip.writesOnly_of ?_ (dram'.trans dram) (tbw'.trans tbw)⟩
  exact (regs.mono fun _ => List.mem_append_right _).trans (regs'.mono fun _ => List.mem_append_left _)

/-! ### An edge in time, of an input that qualifies -/

/-- R93: an accepted φ of an input with no failing test that qualifies, within the far limit, counts for the qualification. -/
theorem Chip.phiSample_accepts {phi : Int} {credit : Nat} (fresh : (c.refIn k).predicted = false) (pass : (c.refIn k).failing = [])
    (qualifies : c.refState k = 2) (bears : phaseBearing k = true)
    (near : c.bit R.muiStat 8 = false ∨ (phi.natAbs : Int) ≤ c.fld R.refQualPhase 31 16 * 1000 * 256) {d : Chip} (hd : d = c.phiSample k phi credit) :
    (d.refIn k).phi = some phi ∧ (d.refIn k).phiAt = c.clk ∧ (d.refIn k).predicted = true ∧ (d.refIn k).failing = [] ∧
      (d.refIn k).qualCount = (c.refIn k).qualCount + credit ∧ d.evq = c.evq := by
  rw [Chip.phiSample_eq, Chip.jumps, fresh, Bool.false_and, if_neg (by decide), RefInput.others, pass, List.filter_nil] at hd
  unfold Chip.acceptPhi at hd
  dsimp only at hd
  have sampled : ∀ e, e = c.modRefIn k (fun i => { i with
      phi := some phi, phiAt := c.clk, predicted := i.predicted || ([] : List Nat).isEmpty,
      failing := if ([] : List Nat).isEmpty then i.failing.filter (fun x => x != 4) else i.failing }) →
      e.regs = c.regs ∧ e.evq = c.evq ∧
      e.refIn k = { c.refIn k with phi := some phi, phiAt := c.clk, predicted := true, failing := [] } := by
    rintro e rfl
    refine ⟨rfl, rfl, ?_⟩
    rw [Chip.refIn_modRefIn_same, fresh, pass]; rfl
  generalize c.modRefIn k _ = e at sampled hd
  obtain ⟨regs, evq, own⟩ := sampled e rfl
  have reg : ∀ x, e.reg x = c.reg x := fun x => by rw [Chip.reg, regs, Chip.reg]
  have state : e.refState k = 2 := (Chip.fld_of_reg (reg _) 2 0).trans qualifies
  have tested : ∀ f, f = e.farTest k phi → f.regs = e.regs ∧ f.evq = e.evq ∧ f.refIn k = e.refIn k := by
    intro f hf
    rw [Chip.farTest] at hf
    by_cases live : c.bit R.muiStat 8 = true
    · rw [if_neg (by rw [Chip.bit_of_reg (reg _), live, state, bears]; simp), if_neg (by
        rw [Chip.fld_of_reg (reg _)]
        exact not_lt.mpr (near.resolve_left (by rw [live]; decide)))] at hf
      subst hf
      refine ⟨rfl, rfl, ?_⟩
      rw [Chip.passInput, Chip.refIn_modRefIn_same, own]; rfl
    · rw [if_pos (by rw [Chip.bit_of_reg (reg _)]; simp [live])] at hf
      subst hf
      exact ⟨rfl, rfl, rfl⟩
  generalize e.farTest k phi = f at tested hd
  obtain ⟨regs', evq', own'⟩ := tested f rfl
  have state' : f.refState k = 2 := (Chip.fld_of_reg (by rw [Chip.reg, regs', Chip.reg]) 2 0).trans state
  rw [if_pos (by rw [state', own', own]; rfl)] at hd
  subst hd
  rw [Chip.refIn_modRefIn_same, own', own]
  exact ⟨rfl, rfl, rfl, rfl, rfl, by rw [Chip.modRefIn_evq, evq', evq]⟩

theorem edge_counts {edge last : Nat} {phi : Int} (hk : k = 3 ∨ k = 4) (hl : (s.chip.refIn k).lastEdge = some last)
    (second : ((edge : Int) - last - 256000000000).natAbs ≤ 256000) (pass : (s.chip.refIn k).failing = [])
    (fresh : (s.chip.refIn k).predicted = false) (qualifies : s.chip.refState k = 2)
    (hphi : phi = (edge : Int) - 256 * s.chip.sfld (R.refDly (k - 3)) 31 0 -
      ((edge : Int) - 256 * s.chip.sfld (R.refDly (k - 3)) 31 0 + 128000000000) / 256000000000 * 256000000000)
    (near : s.chip.bit R.muiStat 8 = false ∨ (phi.natAbs : Int) ≤ s.chip.fld R.refQualPhase 31 16 * 1000 * 256) :
    Answers (.ppsEdge t k edge) s (fun c =>
      (c.refIn k).phi = some phi ∧ (c.refIn k).phiAt = t ∧ (c.refIn k).predicted = true ∧ (c.refIn k).failing = [] ∧
      (c.refIn k).qualCount = (s.chip.refIn k).qualCount + 1 ∧ s.chip.raises c []) := by
  refine answers_exec (exec_ppsEdge (by omega) (by omega)) ?_
  have inTime : (s.chip.at t).edgeInTime k edge = true := by
    rw [Chip.edgeInTime, show ((s.chip.at t).refIn k).lastEdge = some last from hl]
    exact decide_eq_true second
  have bears : phaseBearing k = true := by rcases hk with rfl | rfl <;> rfl
  rw [Chip.ppsEdge_eq, Chip.edgeTested, inTime, if_pos rfl, if_pos rfl,
    Chip.edgeSample_phase (by rcases hk with rfl | rfl <;> decide)]
  have own : (((s.chip.at t).passInput k 2).edgeKept k edge).refIn k = { s.chip.refIn k with lastEdge := some edge, seen := true } := by
    rw [Chip.edgeKept, Chip.refIn_modRefIn_same, Chip.passInput, Chip.refIn_modRefIn_same, show (s.chip.at t).refIn k = s.chip.refIn k from rfl]
    conv_rhs => rw [show s.chip.refIn k = { s.chip.refIn k with failing := [] } by rw [← pass]]
    rw [pass]; rfl
  have state : (((s.chip.at t).passInput k 2).edgeKept k edge).refState k = 2 := qualifies
  have near' : (((s.chip.at t).passInput k 2).edgeKept k edge).bit R.muiStat 8 = false ∨
      (phi.natAbs : Int) ≤ (((s.chip.at t).passInput k 2).edgeKept k edge).fld R.refQualPhase 31 16 * 1000 * 256 := near
  have same : nearestPhi ((((s.chip.at t).passInput k 2).edgeKept k edge).edgeTime k edge) = phi := hphi.symm
  have clk : (((s.chip.at t).passInput k 2).edgeKept k edge).clk = t := rfl
  have evq : (((s.chip.at t).passInput k 2).edgeKept k edge).evq = s.chip.evq := rfl
  rw [same]
  generalize ((s.chip.at t).passInput k 2).edgeKept k edge = b at own state near' clk evq
  obtain ⟨hp, hat, hpred, hfail, hqual, hevq⟩ := Chip.phiSample_accepts (credit := 1) (by rw [own]; exact fresh) (by rw [own]; exact pass) state bears
    near' rfl
  generalize b.phiSample k phi 1 = d at hp hat hpred hfail hqual hevq
  obtain ⟨mui, -, -, -, evq'⟩ := d.edgeCrosses_says k
  have inputs := Chip.refIn_of_mui mui
  exact ⟨by rw [inputs, hp], by rw [inputs, hat, clk], by rw [inputs, hpred], by rw [inputs, hfail], by rw [inputs, hqual, own],
    Chip.raises_of_evq (by rw [evq', hevq, evq])⟩

end

/-- Settles O20: what a failed test leaves, the label of a sentence, and an edge by its stages. -/
theorem referenceInputsFailAndKeepTheirEdges : Obligations.ReferenceInputsFailAndKeepTheirEdges := by
  unfold Obligations.ReferenceInputsFailAndKeepTheirEdges
  refine ⟨fun s t k hk => ?_, fun s t k edge h3 h5 he due => ?_, fun s t p hp => announces_time_out hp, fun s t utc => ?_, fun s t utc => rfl,
    fun s t k edge h3 h5 => edge_is_kept h3 h5,
    fun s t k edge last phi hk hl second pass fresh qualifies hphi near => edge_counts hk hl second pass fresh qualifies hphi near⟩
  · refine answers_of (show exec _ s = execActivityGap t k s from rfl) (by rcases hk with rfl | rfl | rfl <;> rfl) ?_
    have fails := (s.chip.at t).failInput_fails k 1
    exact ⟨fails.failing, fails.first, fails.predicted, fails.qual, fun j _ hj => fails.others j hj, fails.writes, fails.raises⟩
  · refine answers_of (show exec _ s = execPpsTimeout t k s from rfl) (by simp [h3, h5]) ?_
    have fails := (s.chip.at t).failInput_fails k 2
    dsimp only
    rw [show ((s.chip.at t).refIn k).lastEdge = some edge from he]
    dsimp only
    rw [if_pos (show elapsed (s.chip.at t).clk (edge / 256) (nsPerS + nsPerUs) = true from due)]
    exact ⟨fails.failing, fails.first, fails.predicted, fails.qual, fun j _ hj => fails.others j hj, fails.writes, fails.raises⟩
  · refine answers_of (show exec _ s = execGnssSentence t utc true s from rfl) rfl ?_
    rw [if_pos rfl]
    exact ⟨congrArg RefInput.label (Chip.refIn_modRefIn_same _ _ _), fun j _ hj => Chip.refIn_modRefIn_other _ _ _ hj,
      Chip.writesOnly_of regsSame.refl rfl rfl, Chip.raises_of_evq rfl⟩

end Sys2Proof.Machine

/-! ## Muith time: commands to the reference selection, and the evaluation (R98 to R105, R23, R24) -/

namespace Sys2Proof.Machine

section
variable {c c1 c2 d : Chip} {s : State} {t : Stamp} {k : Nat}

/-! ### FORCE, RELEASE and SKIP_WTR -/

/-- R102: a command that waits for the evaluation. -/
def Chip.cmdWaits (c : Chip) (src : Source) (cmd entry : Nat) : Chip :=
  { c with mui := { c.mui with cmds := c.mui.cmds ++ [{ cmd := cmd, entry := entry, src := src }] } }

theorem Chip.refCommand_eq {n : Nat} (hn : n = 1 ∨ n = 2 ∨ n = 3) (c : Chip) (src : Source) (e : Nat) : c.refCommand src n e =
    if c.refCmdCause n e ≠ 0 then c.refuse src R.refCmd (refCmdWord n e) (c.refCmdCause n e) else c.cmdWaits src n e := by
  rw [Chip.refCommand, if_pos (by rcases hn with rfl | rfl | rfl <;> rfl)]
  by_cases h : c.refCmdCause n e = 0
  · rw [if_neg (not_not.mpr h), h]
    rfl
  · rw [if_pos h]
    exact if_pos (by simpa using h)

/-- The command of R102's table. -/
def isRefCmd (i : Instr) (t : Stamp) (src : Source) (e n : Nat) : Prop :=
  (i = .force t src e ∧ n = 1) ∨ (i = .release t src e ∧ n = 2) ∨ (i = .skipWtr t src e ∧ n = 3)

theorem isRefCmd_num {i : Instr} {src : Source} {e n : Nat} (h : isRefCmd i t src e n) : n = 1 ∨ n = 2 ∨ n = 3 :=
  h.imp And.right (Or.imp And.right And.right)

theorem exec_refCmd {i : Instr} {src : Source} {e n : Nat} (h : isRefCmd i t src e n) (he : e < 8) :
    exec i s = .next { s with chip := (s.chip.at t).overLink src R.refCmd (refCmdWord n e) (fun c => c.refCommand src n e) } := by
  rcases h with ⟨rfl, rfl⟩ | ⟨rfl, rfl⟩ | ⟨rfl, rfl⟩
  · exact if_pos (decide_eq_true he)
  · exact if_pos (decide_eq_true he)
  · exact if_pos (decide_eq_true he)

theorem exec_refCmd_up {i : Instr} {src : Source} {e n : Nat} (h : isRefCmd i t src e n) (he : e < 8) (up : s.chip.d2dUp = true) :
    exec i s = .next { s with chip := (s.chip.at t).refCommand src n e } := by
  rw [exec_refCmd h he, Chip.overLink, if_pos (show (s.chip.at t).d2dUp = true from up)]

theorem refCmd_waits {i : Instr} {src : Source} {e n : Nat} (h : isRefCmd i t src e n) (he : e < 8) (up : s.chip.d2dUp = true)
    (allowed : s.chip.refCmdCause n e = 0) : Answers i s (fun c =>
      c.mui = { s.chip.mui with cmds := s.chip.mui.cmds ++ [{ cmd := n, entry := e, src := src }] } ∧
        s.chip.writesOnly c [] ∧ s.chip.raises c []) := by
  refine answers_exec (exec_refCmd_up h he up) ?_
  rw [Chip.refCommand_eq (isRefCmd_num h), if_neg (by rw [show (s.chip.at t).refCmdCause n e = 0 from allowed]; decide)]
  exact ⟨rfl, Chip.writesOnly_of regsSame.refl rfl rfl, Chip.raises_of_evq rfl⟩

theorem refCmd_refused {i : Instr} {src : Source} {e n : Nat} (h : isRefCmd i t src e n) (he : e < 8) (up : s.chip.d2dUp = true)
    (cause : s.chip.refCmdCause n e ≠ 0) : Answers i s (fun c =>
      c.mui = s.chip.mui ∧ s.chip.refused c t src R.refCmd (BitVec.ofNat 32 (n * 2 ^ 28 + e)) (s.chip.refCmdCause n e)) := by
  refine answers_exec (exec_refCmd_up h he up) ?_
  rw [Chip.refCommand_eq (isRefCmd_num h), if_pos (show (s.chip.at t).refCmdCause n e ≠ 0 from cause)]
  exact ⟨Chip.refuse_mui _ _ _ _ _, s.chip.at_refused t _ _ _ _⟩

theorem refCmd_queued {i : Instr} {src : Source} {e n : Nat} (h : isRefCmd i t src e n) (he : e < 8) (down : s.chip.d2dUp = false)
    (room : s.chip.d2dDown.length < 256) : Answers i s (fun c => c.mui = s.chip.mui ∧
      c.d2dDown = s.chip.d2dDown ++ [.write src false R.refCmd (BitVec.ofNat 32 (n * 2 ^ 28 + e))] ∧
      s.chip.writesOnly c [] ∧ s.chip.raises c []) := by
  refine answers_exec (exec_refCmd h he) ?_
  rw [Chip.overLink, if_neg (by rw [show (s.chip.at t).d2dUp = false from down]; decide), Chip.queueDown,
    if_pos (show (s.chip.at t).d2dDown.length < 256 from room)]
  exact ⟨rfl, rfl, Chip.writesOnly_of regsSame.refl rfl rfl, Chip.raises_of_evq rfl⟩

/-! ### What the stages of an evaluation keep -/

/-- The registers that an evaluation's stages write, but for `REF_STAT`, `MUI_MEAS` and `REF_MEAS`. -/
def loopRegs : List Nat := [R.muiStat, R.muiUtc] ++ refusalRegs R.refCmd

/-- The registers that an evaluation's stages write before its results. -/
def evalRegs : List Nat := (List.range 8).map R.refStat ++ loopRegs

theorem refStat_mem {k : Nat} (h : k < 8) : R.refStat k ∈ evalRegs :=
  List.mem_append_left _ (List.mem_map_of_mem (List.mem_range.mpr h))

theorem mem_evalRegs_of_loop {a : Nat} (h : a ∈ loopRegs) : a ∈ evalRegs := List.mem_append_right _ h

theorem eventRegs_loop : ∀ a ∈ eventRegs, a ∈ loopRegs := by decide +kernel

theorem refStat_not_loop : ∀ k < 8, ∀ a ∈ loopRegs, a ≠ R.refStat k := by decide +kernel

theorem Chip.entryInput_lt {e : Nat} (h : c.entryInput e = some k) : k < 8 := by
  rw [Chip.entryInput] at h
  split at h
  · rw [← Option.some.inj h]; exact bitsOf_lt _ _ _
  · cases h

/-- A stage of an evaluation leaves what waits for the link, the commands, the causes kept, and every input that is OFF or FAILED. -/
structure Chip.Evaluates (c d : Chip) : Prop where
  regs : regsSame evalRegs c.regs d.regs
  queue : d.d2dQueue = c.d2dQueue
  cmds : d.mui.cmds = c.mui.cmds
  fails : ∀ j, (d.refIn j).firstFail = (c.refIn j).firstFail
  idle : ∀ j < 8, c.refState j < 2 → d.reg (R.refStat j) = c.reg (R.refStat j)

theorem Chip.Evaluates.refl : c.Evaluates c := ⟨regsSame.refl, rfl, rfl, fun _ => rfl, fun _ _ _ => rfl⟩

theorem Chip.Evaluates.trans (h1 : c.Evaluates c1) (h2 : c1.Evaluates c2) : c.Evaluates c2 :=
  ⟨h1.regs.trans h2.regs, h2.queue.trans h1.queue, h2.cmds.trans h1.cmds, fun j => (h2.fails j).trans (h1.fails j), fun j hj hs =>
    (h2.idle j hj (by rw [Chip.refState, Chip.fld_of_reg (h1.idle j hj hs)]; exact hs)).trans (h1.idle j hj hs)⟩

/-- A stage that writes no `REF_STAT` and leaves every input as it is. -/
theorem Chip.Evaluates.of_loop (regs : regsSame loopRegs c.regs d.regs) (queue : d.d2dQueue = c.d2dQueue) (cmds : d.mui.cmds = c.mui.cmds)
    (inputs : d.mui.inputs = c.mui.inputs) : c.Evaluates d :=
  ⟨regs.mono fun _ => mem_evalRegs_of_loop, queue, cmds, fun j => by rw [Chip.refIn, inputs, Chip.refIn],
    fun j hj _ => regs.reg fun h => refStat_not_loop j hj _ h rfl⟩

/-- A stage that changes the timebase alone. -/
theorem Chip.Evaluates.of_mui {m : Muith} (cmds : m.cmds = c.mui.cmds) (inputs : m.inputs = c.mui.inputs) : c.Evaluates { c with mui := m } :=
  .of_loop regsSame.refl rfl cmds inputs

theorem Chip.Evaluates.muiEvent (c : Chip) (code : Nat) (l : List CField) : c.Evaluates (c.muiEvent code l) :=
  .of_loop ((regsSame_muiEvent c code l).mono eventRegs_loop) (Chip.muiEvent_d2dQueue c code l) (by rw [Chip.muiEvent_mui]) (by rw [Chip.muiEvent_mui])

theorem Chip.Evaluates.setFld (c : Chip) {a : Nat} (h : a ∈ loopRegs) (hi lo v : Nat) : c.Evaluates (c.setFld a hi lo v) :=
  .of_loop ((regsSame_setFld_iff h _ _ _).mpr regsSame.refl) rfl rfl rfl

/-- An input that is neither OFF nor FAILED changes its state. -/
theorem Chip.Evaluates.setState (c : Chip) {k : Nat} (hk : k < 8) (active : 2 ≤ c.refState k) (hi lo v : Nat) :
    c.Evaluates (c.setFld (R.refStat k) hi lo v) :=
  ⟨(regsSame_setFld_iff (refStat_mem hk) _ _ _).mpr regsSame.refl, rfl, rfl, fun _ => rfl, fun j _ idle =>
    Chip.setFld_reg_other _ _ _ _ (fun e => by rw [refStat_inj.mp e] at idle; omega)⟩

theorem Chip.Evaluates.modRefIn (c : Chip) (k : Nat) {f : RefInput → RefInput} (h : ∀ i, (f i).firstFail = i.firstFail) :
    c.Evaluates (c.modRefIn k f) := by
  refine ⟨regsSame.refl, rfl, rfl, fun j => ?_, fun _ _ _ => rfl⟩
  rw [Chip.refIn_modRefIn]
  split
  · rename_i e
    rw [h, e]
  · rfl

theorem muiStat_loop : R.muiStat ∈ loopRegs := by decide

theorem Chip.Evaluates.setTb (c : Chip) (new : Nat) : c.Evaluates (c.setTb new) := by
  have first := Chip.Evaluates.setFld c muiStat_loop 2 0 new
  have second : (c.setFld R.muiStat 2 0 new).Evaluates ((c.setFld R.muiStat 2 0 new).accounted new) := by
    obtain ⟨n, f, mui⟩ := Chip.accounted_frame (c.setFld R.muiStat 2 0 new) new
    exact .of_loop regsSame.refl rfl (by rw [mui]) (by rw [mui])
  by_cases h : c.tbState = new
  · have same : c.setTb new = (c.setFld R.muiStat 2 0 new).accounted new := if_pos (by simpa using h.symm)
    rw [same]
    exact first.trans second
  · rw [Chip.setTb_eq h]
    exact (first.trans second).trans (.muiEvent _ _ _)

/-! ### The commands of an evaluation -/

theorem Chip.Evaluates.dropForce (c : Chip) : c.Evaluates c.dropForce := by
  unfold Chip.dropForce
  split
  · split
    · exact .refl
    · exact .of_mui rfl rfl
  · exact .refl

theorem Chip.refCmdCause_skip {e : Nat} (h : c.refCmdCause 3 e = 0) (hk : c.entryInput e = some k) : c.refState k = 3 := by
  by_contra hs
  rw [Chip.refCmdCause, hk] at h
  simp [hs] at h

theorem Chip.Evaluates.refuse (c : Chip) (src : Source) (w : Word) (cause : Nat) : c.Evaluates (c.refuse src R.refCmd w cause) :=
  .of_loop ((regsSame_refuse src _ w cause).mono fun _ => List.mem_append_right _) (Chip.refuse_d2dQueue _ _ _ _ _)
    (by rw [Chip.refuse_mui]) (by rw [Chip.refuse_mui])

theorem Chip.Evaluates.actRefCmd (c : Chip) (q : RefCmd) : c.Evaluates (c.actRefCmd q) := by
  unfold Chip.actRefCmd
  dsimp only
  by_cases cause : c.refCmdCause q.cmd q.entry = 0
  · rw [if_neg (by simpa using cause)]
    by_cases one : q.cmd = 1
    · rw [if_pos (by simpa using one)]; exact .of_mui rfl rfl
    · rw [if_neg (by simpa using one)]
      by_cases two : q.cmd = 2
      · rw [if_pos (by simpa using two)]; exact .of_mui rfl rfl
      · rw [if_neg (by simpa using two)]
        by_cases three : q.cmd = 3
        · rw [if_pos (by simpa using three)]
          rw [three] at cause
          rcases hk : c.entryInput q.entry with _ | k
          · exact .refl
          · have state := Chip.refCmdCause_skip cause hk
            have moved := Chip.setRefState_moves (c := c) (k := k) (new := 4) (cause := 0) (by rw [state]; decide) (by decide) rfl
            have lt := Chip.entryInput_lt hk
            refine ⟨moved.regs.mono fun a ha => ?_, moved.queue, moved.cmds, fun j => ?_, fun j _ idle => moved.regs.reg ?_⟩
            · rcases List.mem_append.mp ha with h | h
              · rw [List.mem_singleton.mp h]; exact refStat_mem lt
              · exact mem_evalRegs_of_loop (eventRegs_loop a h)
            · by_cases e : j = k
              · rw [e, moved.own, if_pos (.inl rfl)]
              · rw [moved.others j e]
            · rw [List.mem_append, List.mem_singleton, refStat_inj, not_or]
              exact ⟨fun e => by rw [e, state] at idle; omega, refStat_notMem j⟩
        · rw [if_neg (by simpa using three)]; exact .refl
  · rw [if_pos (by simpa using cause)]; exact .refuse c _ _ _

theorem Chip.Evaluates.each {α : Type} {f : α → Chip → Chip} (h : ∀ (x : α) (a : Chip), a.Evaluates (f x a)) (l : List α) (c : Chip) : c.Evaluates (forL l f c) := by
  induction l generalizing c with
  | nil => exact .refl
  | cons x l ih => exact (h x c).trans (ih (f x c))

/-! ### The selection -/

theorem Chip.bestAvailable_usable {e : Nat} (h : c.bestAvailable = some e) : c.entryUsable e = true := by
  have := List.find?_some h
  rw [Chip.entryUsable]
  rcases hk : c.entryInput e with _ | k
  · rw [hk] at this; cases this
  · rw [hk] at this
    dsimp only at this ⊢
    rw [this]; rfl

theorem Chip.activeEntry_usable {a : Nat} (h : ((c.entryInput a).map (fun k => c.refState k) == some 5) = true) : c.entryUsable a = true := by
  rw [Chip.entryUsable]
  rcases hk : c.entryInput a with _ | k
  · rw [hk] at h; cases h
  · rw [hk] at h
    have five : c.refState k = 5 := by simpa using h
    dsimp only
    rw [five]; rfl

/-- R101: the entry that is selected where none is forced. -/
def Chip.unforcedEntry (c : Chip) : Option Nat :=
  match c.mui.activeEntry with
  | some a =>
    if (c.entryInput a).map (fun k => c.refState k) == some 5 then
      match c.bestAvailable with
      | some b => if b < a && c.bit (R.refPrio b) 30 then some b else some a
      | none => some a
    else c.bestAvailable
  | none => c.bestAvailable

theorem Chip.unforcedEntry_usable {e : Nat} (h : c.unforcedEntry = some e) : c.entryUsable e = true := by
  rw [Chip.unforcedEntry] at h
  rcases ha : c.mui.activeEntry with _ | a <;> rw [ha] at h
  · exact Chip.bestAvailable_usable h
  · dsimp only at h
    by_cases five : ((c.entryInput a).map (fun k => c.refState k) == some 5) = true
    · rw [if_pos five] at h
      rcases hb : c.bestAvailable with _ | b <;> rw [hb] at h
      · rw [← Option.some.inj h]; exact Chip.activeEntry_usable five
      · dsimp only at h
        split at h
        · rw [← Option.some.inj h]; exact Chip.bestAvailable_usable hb
        · rw [← Option.some.inj h]; exact Chip.activeEntry_usable five
    · rw [if_neg five] at h
      exact Chip.bestAvailable_usable h

/-- R101: the entry that is forced, where one is. -/
def Chip.forcedEntry (c : Chip) (pick : Option Nat) : Option Nat :=
  match c.mui.forced with
  | some f => if c.entryUsable f then some f else pick
  | none => pick

theorem Chip.selectEntry_usable {e : Nat} (h : c.selectEntry = some e) : c.entryUsable e = true := by
  rw [show c.selectEntry = c.forcedEntry c.unforcedEntry from rfl, Chip.forcedEntry] at h
  rcases hf : c.mui.forced with _ | f <;> rw [hf] at h
  · exact Chip.unforcedEntry_usable h
  · dsimp only at h
    by_cases usable : c.entryUsable f = true
    · rw [if_pos usable] at h
      rw [← Option.some.inj h]; exact usable
    · rw [if_neg usable] at h
      exact Chip.unforcedEntry_usable h

/-- R98: the input that was ACTIVE goes back to AVAILABLE. -/
def Chip.stepDown (c : Chip) (k : Nat) : Chip :=
  match c.activeInput with
  | some o => if c.refState o == 5 && o != k then c.setFld (R.refStat o) 2 0 4 else c
  | none => c

/-- R103: the timebase follows entry `e` with input `k`. -/
def Chip.follow (c : Chip) (e k : Nat) : Chip :=
  { c with mui := { c.mui with activeEntry := some e, loopPhi := c.phiOf k, steer := 0, lockSince := none } }

/-- R104: `MUI_STAT` shows the active input and its trace. -/
def Chip.showActive (c : Chip) (k : Nat) : Chip := ((c.setFld R.muiStat 15 15 1).setFld R.muiStat 14 12 k).setFld R.muiStat 5 4 (traceOf k)

theorem Chip.makeActive_eq (c : Chip) (e k : Nat) : c.makeActive e k =
    (((((c.stepDown k).setFld (R.refStat k) 2 0 5).modRefIn k (fun i => { i with everAvail := true })).showActive k).follow e k).muiEvent 0x0902
      [.val 1 (c.activeInput.getD (Config.eventCode 0x0902 0)), .val 1 k,
        phiField (Chip.phiOf (((((c.stepDown k).setFld (R.refStat k) 2 0 5).modRefIn k (fun i => { i with everAvail := true })).showActive k).follow e k) k)] := rfl

theorem Chip.Evaluates.showActive (c : Chip) (k : Nat) : c.Evaluates (c.showActive k) :=
  ((Chip.Evaluates.setFld c muiStat_loop 15 15 1).trans (.setFld _ muiStat_loop _ _ _)).trans (.setFld _ muiStat_loop _ _ _)

theorem Chip.activeInput_lt {o : Nat} (h : c.activeInput = some o) : o < 8 := by
  rw [Chip.activeInput] at h
  split at h
  · rw [← Option.some.inj h]; exact bitsOf_lt _ _ _
  · cases h

theorem Chip.stepDown_says (c : Chip) (k : Nat) : c.Evaluates (c.stepDown k) ∧ (c.stepDown k).refState k = c.refState k := by
  unfold Chip.stepDown
  rcases ho : c.activeInput with _ | o
  · exact ⟨.refl, rfl⟩
  · dsimp only
    by_cases down : (c.refState o == 5 && o != k) = true
    · rw [if_pos down]
      rw [Bool.and_eq_true, beq_iff_eq, bne_iff_ne] at down
      refine ⟨.setState c (Chip.activeInput_lt ho) (by rw [down.1]; decide) _ _ _, Chip.fld_of_reg (Chip.setFld_reg_other _ _ _ _ ?_) _ _⟩
      exact fun e => down.2 (refStat_inj.mp e).symm
    · rw [if_neg down]
      exact ⟨.refl, rfl⟩

theorem Chip.Evaluates.makeActive (c : Chip) (e : Nat) (hk : k < 8) (usable : 2 ≤ c.refState k) : c.Evaluates (c.makeActive e k) := by
  rw [Chip.makeActive_eq]
  obtain ⟨down, same⟩ := c.stepDown_says k
  generalize c.stepDown k = a at down same ⊢
  have active := Chip.Evaluates.setState a hk (by rw [same]; exact usable) 2 0 5
  generalize a.setFld (R.refStat k) 2 0 5 = b at active ⊢
  have noted := Chip.Evaluates.modRefIn b k (f := fun i => { i with everAvail := true }) (fun _ => rfl)
  generalize b.modRefIn k (fun i => { i with everAvail := true }) = x at noted ⊢
  have shown := Chip.Evaluates.showActive x k
  generalize x.showActive k = y at shown ⊢
  have follows : y.Evaluates (y.follow e k) := .of_mui rfl rfl
  exact ((((down.trans active).trans noted).trans shown).trans follows).trans (.muiEvent _ _ _)

theorem Chip.Evaluates.selectTo (c : Chip) (e : Nat) (hk : k < 8) (usable : 2 ≤ c.refState k) : c.Evaluates (c.selectTo e k) := by
  have active := Chip.Evaluates.makeActive c e hk usable
  unfold Chip.selectTo
  generalize c.makeActive e k = a at active ⊢
  dsimp only
  split
  · exact .refl
  · split
    · split
      · exact active
      · exact active.trans (.setTb a _)
    · split
      · exact active.trans (.setTb a _)
      · exact active

/-- R101: no entry is selected. -/
def Chip.unselected (c : Chip) : Chip :=
  let c := ((c.setFld R.muiStat 15 15 0).setFld R.muiStat 14 12 0).setFld R.muiStat 5 4 0
  { c with mui := { c.mui with activeEntry := none, steer := 0, lockSince := none } }

theorem Chip.Evaluates.unselected (c : Chip) : c.Evaluates c.unselected :=
  (((Chip.Evaluates.setFld c muiStat_loop 15 15 0).trans (.setFld _ muiStat_loop _ _ _)).trans (.setFld _ muiStat_loop _ _ _)).trans (.of_mui rfl rfl)

/-- R111: what holdover starts from. -/
def Chip.heldFrom (c : Chip) (held : Int) (te0 : Nat) : Chip :=
  { c with mui := { c.mui with muiFreq := held, holdEntry := c.clk, te0 := te0, tePassed := false } }

theorem Chip.enterHoldover_frame (c : Chip) : c.enterHoldover = c.unselected ∨
    ∃ held te0 new, c.enterHoldover = (c.unselected.heldFrom held te0).setTb new := by
  unfold Chip.enterHoldover
  dsimp only
  split
  · exact .inr ⟨_, _, _, rfl⟩
  · exact .inl rfl

theorem Chip.Evaluates.enterHoldover (c : Chip) : c.Evaluates c.enterHoldover := by
  rcases c.enterHoldover_frame with h | ⟨held, te0, new, h⟩ <;> rw [h]
  · exact .unselected c
  · have held : c.unselected.Evaluates (c.unselected.heldFrom held te0) := .of_mui rfl rfl
    exact ((Chip.Evaluates.unselected c).trans held).trans (.setTb _ _)

theorem Chip.Evaluates.select (c : Chip) : c.Evaluates c.select := by
  unfold Chip.select
  split
  · exact .refl
  · rcases he : c.selectEntry with _ | e
    · exact .enterHoldover c
    · dsimp only
      have usable := Chip.selectEntry_usable he
      rw [Chip.entryUsable] at usable
      rcases hk : c.entryInput e with _ | k
      · exact .refl
      · rw [hk] at usable
        dsimp only at usable ⊢
        refine .selectTo c e (Chip.entryInput_lt hk) ?_
        rw [Bool.or_eq_true, beq_iff_eq, beq_iff_eq] at usable
        omega

/-! ### The loop -/

theorem Chip.Evaluates.loopSample (c : Chip) : c.Evaluates c.loopSample := by
  unfold Chip.loopSample
  rcases c.activeInput with _ | k
  · exact .refl
  · dsimp only
    split
    · exact .refl
    · split
      · exact .of_mui rfl rfl
      · exact .of_mui rfl rfl

theorem Chip.Evaluates.lockWatch (c : Chip) : c.Evaluates c.lockWatch := by
  unfold Chip.lockWatch
  rcases c.activeInput with _ | k
  · exact .of_mui rfl rfl
  · dsimp only
    have lost : c.Evaluates { c with mui := { c.mui with lockSince := none } } := .of_mui rfl rfl
    split
    · exact .of_mui rfl rfl
    · split
      · exact lost.trans (.setTb _ _)
      · exact lost

theorem Muith.logFreq_frame (m : Muith) (tethered : Bool) (now : Stamp) :
    (m.logFreq tethered now).cmds = m.cmds ∧ (m.logFreq tethered now).inputs = m.inputs := by
  unfold Muith.logFreq
  dsimp only
  split
  · exact ⟨rfl, rfl⟩
  · split
    · exact ⟨rfl, rfl⟩
    · split <;> exact ⟨rfl, rfl⟩

theorem Chip.Evaluates.logFreq (c : Chip) : c.Evaluates c.logFreq := .of_mui (Muith.logFreq_frame _ _ _).1 (Muith.logFreq_frame _ _ _).2

theorem Chip.Evaluates.serdesLock (c : Chip) : c.Evaluates c.serdesLock := by
  unfold Chip.serdesLock
  split
  · exact .setFld c muiStat_loop _ _ _
  · split
    · exact (Chip.Evaluates.setFld c muiStat_loop _ _ _).trans (.muiEvent _ _ _)
    · exact .refl

theorem muiUtc_loop : R.muiUtc ∈ loopRegs := by decide

theorem Chip.Evaluates.refreshUtc (c : Chip) : c.Evaluates c.refreshUtc := by
  unfold Chip.refreshUtc
  dsimp only
  split
  · exact (((Chip.Evaluates.setFld c muiUtc_loop _ _ _).trans (.setFld _ muiUtc_loop _ _ _)).trans (.setFld _ muiUtc_loop _ _ _)).trans
      (.setFld _ muiUtc_loop _ _ _)
  · exact (Chip.Evaluates.setFld c muiUtc_loop _ _ _).trans (.setFld _ muiUtc_loop _ _ _)

end

end Sys2Proof.Machine

/-! ## Muith time: what an evaluation publishes (R98, R99, R105) -/

namespace Sys2Proof.Machine

section
variable {c c1 d : Chip} {s : State} {t : Stamp} {k : Nat}

/-! ### The observations -/

/-- The tests on what a millisecond measured write the event journal alone. -/
structure Chip.Observes (c d : Chip) : Prop where
  regs : regsSame eventRegs c.regs d.regs
  queue : d.d2dQueue = c.d2dQueue

theorem Chip.Observes.refl : c.Observes c := ⟨regsSame.refl, rfl⟩

theorem Chip.Observes.trans (h1 : c.Observes c1) (h2 : c1.Observes d) : c.Observes d := ⟨h1.regs.trans h2.regs, h2.queue.trans h1.queue⟩

theorem Chip.Observes.modRefIn (c : Chip) (k : Nat) (f : RefInput → RefInput) : c.Observes (c.modRefIn k f) := ⟨regsSame.refl, rfl⟩

theorem Chip.Observes.farTest (c : Chip) (k : Nat) (phi : Int) : c.Observes (c.farTest k phi) := by
  unfold Chip.farTest
  extract_lets limit
  split
  · exact .refl
  · split
    · split
      · exact .refl
      · exact (Chip.Observes.modRefIn c k _).trans ⟨regsSame_muiEvent _ _ _, Chip.muiEvent_d2dQueue _ _ _⟩
    · exact .modRefIn c k _

theorem Chip.Observes.passes (c : Chip) (k cause : Nat) (pass : Bool) : c.Observes (if pass then c.passInput k cause else c) := by
  split
  · exact .modRefIn c k _
  · exact .refl

theorem Chip.Observes.fails (c : Chip) (k cause : Nat) (fail : Bool) : c.Observes (if fail then c.failInput k cause else c.passInput k cause) := by
  split <;> exact .modRefIn c k _

/-- R92: the input's frequency as measured. -/
def Chip.freqSeen (c : Chip) (o : RefObs) : Chip := c.modRefIn o.input (fun i => { i with freq := o.freq, seen := true })

/-- R107: the far test on the last φ. -/
def Chip.farAgain (c : Chip) (k : Nat) : Chip :=
  match (c.refIn k).phi with
  | some p => c.farTest k p
  | none => c

theorem Chip.Observes.farAgain (c : Chip) (k : Nat) : c.Observes (c.farAgain k) := by
  unfold Chip.farAgain
  split
  · exact .farTest c k _
  · exact .refl

theorem Chip.Observes.observe (c : Chip) (o : RefObs) : c.Observes (c.observe o) := by
  have first : c.Observes (c.freqSeen o) := .modRefIn c _ _
  have second := Chip.Observes.passes (c.freqSeen o) o.input 1 ((o.input == 3 || o.input == 4 || o.input == 6) && o.present)
  have eq : c.observe o = if 7 ≤ o.input then c else
      (let a := if ((o.input == 3 || o.input == 4 || o.input == 6) && o.present) = true then (c.freqSeen o).passInput o.input 1 else c.freqSeen o
       (if decide ((a.fld R.refQualFreq 19 0 * 65536 : Int) < o.freq.natAbs) = true then a.failInput o.input 3 else a.passInput o.input 3).farAgain o.input) := rfl
  rw [eq]
  split
  · exact .refl
  · dsimp only
    generalize (if ((o.input == 3 || o.input == 4 || o.input == 6) && o.present) = true then (c.freqSeen o).passInput o.input 1
      else c.freqSeen o) = a at second ⊢
    have third := Chip.Observes.fails a o.input 3 (decide ((a.fld R.refQualFreq 19 0 * 65536 : Int) < o.freq.natAbs))
    exact ((first.trans second).trans third).trans (.farAgain _ _)

theorem Chip.Observes.each (l : List RefObs) (c : Chip) : c.Observes (forL l (fun o c => c.observe o) c) := by
  induction l generalizing c with
  | nil => exact .refl
  | cons x l ih => exact (Chip.Observes.observe c x).trans (ih (c.observe x))

theorem Chip.entryInput_congr (h : ∀ e < 8, d.reg (R.refPrio e) = c.reg (R.refPrio e)) {e : Nat} (he : e < 8) :
    d.entryInput e = c.entryInput e := by
  rw [Chip.entryInput, Chip.bit_of_reg (h e he), Chip.fld_of_reg (h e he), Chip.entryInput]

theorem Chip.entryOf_congr (h : ∀ e < 8, d.reg (R.refPrio e) = c.reg (R.refPrio e)) (k : Nat) : d.entryOf k = c.entryOf k := by
  rw [Chip.entryOf, Chip.entryOf]
  refine find?_congr_mem fun e he => ?_
  rw [Chip.entryInput_congr h (List.mem_range.mp he)]

/-! ### One input's part of an evaluation -/

/-- The registers that one input's part writes. -/
def inputRegs (k : Nat) : List Nat := [R.refStat k] ++ eventRegs

/-- What one input's part of an evaluation leaves. -/
structure Chip.EvalsInput (c d : Chip) (k : Nat) : Prop where
  regs : regsSame (inputRegs k) c.regs d.regs
  queue : d.d2dQueue = c.d2dQueue
  others : ∀ j, j ≠ k → d.refIn j = c.refIn j
  off : c.entryOf k = none → d.refState k = 0
  failed : c.entryOf k ≠ none → 2 ≤ c.refState k → (c.refIn k).firstFail ≠ 0 →
    d.refState k = 1 ∧ d.fld (R.refStat k) 31 28 = (c.refIn k).firstFail % 16
  clear : (d.refIn k).firstFail = 0

/-- R98: the state that the tests give. -/
def Chip.stateFromTests (c : Chip) (k : Nat) : Chip :=
  if (c.entryOf k).isNone then c.setFld (R.refStat k) 2 0 0
  else if c.refState k == 0 then c.setFld (R.refStat k) 2 0 1
  else if !(c.refIn k).failing.isEmpty || (c.refIn k).firstFail != 0 then
    if c.refState k == 1 then c
    else c.setRefState k 1 (if (c.refIn k).firstFail != 0 then (c.refIn k).firstFail else (c.refIn k).failing.headD 0)
  else if c.refState k == 1 then
    (c.modRefIn k (fun i => { i with qualStart := c.clk, qualCount := 0 })).setFld (R.refStat k) 2 0 2
  else c

/-- R93: the first cause is told once. -/
def Chip.causeTaken (c : Chip) (k : Nat) : Chip := c.modRefIn k (fun i => { i with firstFail := 0 })

/-- R98: the wait's seconds left. -/
def Chip.showWait (c : Chip) (k : Nat) : Chip :=
  if c.refState k == 3 then c.setFld (R.refStat k) 23 12 (((c.refIn k).wtrEnd - c.clk) / nsPerS) else c

theorem Chip.evalInput_eq (c : Chip) (k : Nat) : c.evalInput k = ((c.stateFromTests k).causeTaken k).showWait k := rfl

theorem Chip.stateFromTests_says (c : Chip) (k : Nat) {d : Chip} (hd : d = c.stateFromTests k) :
    regsSame (inputRegs k) c.regs d.regs ∧ d.d2dQueue = c.d2dQueue ∧ (∀ j, j ≠ k → d.refIn j = c.refIn j) ∧
    (c.entryOf k = none → d.refState k = 0) ∧
    (c.entryOf k ≠ none → 2 ≤ c.refState k → (c.refIn k).firstFail ≠ 0 →
      d.refState k = 1 ∧ d.fld (R.refStat k) 31 28 = (c.refIn k).firstFail % 16) := by
  have shown : ∀ v, regsSame (inputRegs k) c.regs (c.setFld (R.refStat k) 2 0 v).regs := fun v =>
    (regsSame_setFld_iff (List.mem_append_left _ (List.mem_singleton.mpr rfl)) _ _ _).mpr regsSame.refl
  rw [Chip.stateFromTests] at hd
  by_cases off : c.entryOf k = none
  · rw [if_pos (by rw [off]; rfl)] at hd
    subst hd
    refine ⟨shown 0, rfl, fun _ _ => rfl, fun _ => ?_, fun h => absurd off h⟩
    rw [Chip.refState, Chip.setFld_fld_same _ _ _ _ _ (by decide)]; rfl
  · rw [if_neg (by simpa using off)] at hd
    by_cases zero : c.refState k = 0
    · rw [if_pos (by simpa using zero)] at hd
      subst hd
      exact ⟨shown 1, rfl, fun _ _ => rfl, fun h => absurd h off, fun _ two => by omega⟩
    · rw [if_neg (by simpa using zero)] at hd
      by_cases fails : (!(c.refIn k).failing.isEmpty || (c.refIn k).firstFail != 0) = true
      · rw [if_pos fails] at hd
        by_cases one : c.refState k = 1
        · rw [if_pos (by simpa using one)] at hd
          subst hd
          exact ⟨regsSame.refl, rfl, fun _ _ => rfl, fun h => absurd h off, fun _ two => by omega⟩
        · rw [if_neg (by simpa using one)] at hd
          have moved := Chip.setRefState_moves one (by decide) hd
          refine ⟨moved.regs, moved.queue, moved.others, fun h => absurd h off, fun _ _ first => ⟨moved.state, ?_⟩⟩
          rw [moved.shown, if_pos (show ((c.refIn k).firstFail != 0) = true from bne_iff_ne.mpr first), if_neg first]
      · rw [if_neg fails] at hd
        have none : (c.refIn k).firstFail = 0 := by
          by_contra h
          exact fails (by simp [h])
        by_cases one : c.refState k = 1
        · rw [if_pos (by simpa using one)] at hd
          subst hd
          exact ⟨shown 2, rfl, fun j hj => Chip.refIn_modRefIn_other _ _ _ hj, fun h => absurd h off, fun _ _ h => absurd none h⟩
        · rw [if_neg (by simpa using one)] at hd
          subst hd
          exact ⟨regsSame.refl, rfl, fun _ _ => rfl, fun h => absurd h off, fun _ _ h => absurd none h⟩

theorem Chip.evalInput_says (c : Chip) (k : Nat) : c.EvalsInput (c.evalInput k) k := by
  rw [Chip.evalInput_eq]
  obtain ⟨regs, queue, others, off, failed⟩ := c.stateFromTests_says k rfl
  generalize c.stateFromTests k = a at regs queue others off failed
  have regs1 : (a.causeTaken k).regs = a.regs := rfl
  have queue1 : (a.causeTaken k).d2dQueue = a.d2dQueue := rfl
  have own : ((a.causeTaken k).refIn k).firstFail = 0 := congrArg RefInput.firstFail (Chip.refIn_modRefIn_same _ _ _)
  have others1 : ∀ j, j ≠ k → (a.causeTaken k).refIn j = a.refIn j := fun j hj => Chip.refIn_modRefIn_other _ _ _ hj
  generalize a.causeTaken k = b at regs1 queue1 own others1 ⊢
  have reg : ∀ x, b.reg x = a.reg x := fun x => by rw [Chip.reg, regs1, Chip.reg]
  have shown : regsSame (inputRegs k) b.regs (b.showWait k).regs ∧ (b.showWait k).d2dQueue = b.d2dQueue ∧ (b.showWait k).mui = b.mui ∧
      (b.showWait k).refState k = b.refState k ∧ (b.showWait k).fld (R.refStat k) 31 28 = b.fld (R.refStat k) 31 28 := by
    unfold Chip.showWait
    split
    · refine ⟨(regsSame_setFld_iff (List.mem_append_left _ (List.mem_singleton.mpr rfl)) _ _ _).mpr regsSame.refl, rfl, rfl,
        Chip.setFld_fld_ne _ (by decide) (.inr (.inl (by decide))), Chip.setFld_fld_ne _ (by decide) (.inr (.inr (by decide)))⟩
    · exact ⟨regsSame.refl, rfl, rfl, rfl, rfl⟩
  obtain ⟨regs2, queue2, mui2, state2, cause2⟩ := shown
  have inputs := Chip.refIn_of_mui mui2
  refine ⟨(regs1 ▸ regs).trans regs2, by rw [queue2, queue1, queue], fun j hj => by rw [inputs, others1 j hj, others j hj], fun h => ?_,
    fun h1 h2 h3 => ⟨?_, ?_⟩, by rw [inputs, own]⟩
  · rw [state2, Chip.refState, Chip.fld_of_reg (reg _)]; exact off h
  · rw [state2, Chip.refState, Chip.fld_of_reg (reg _)]; exact (failed h1 h2 h3).1
  · rw [cause2, Chip.fld_of_reg (reg _)]; exact (failed h1 h2 h3).2

/-- What the inputs' parts of an evaluation leave, the first `n` done. -/
structure Chip.EvalsInputs (c d : Chip) (n : Nat) : Prop where
  regs : regsSame evalRegs c.regs d.regs
  queue : d.d2dQueue = c.d2dQueue
  later : ∀ k, n ≤ k → d.reg (R.refStat k) = c.reg (R.refStat k) ∧ d.refIn k = c.refIn k
  off : ∀ k < n, c.entryOf k = none → d.refState k = 0
  failed : ∀ k < n, c.entryOf k ≠ none → 2 ≤ c.refState k → (c.refIn k).firstFail ≠ 0 →
    d.refState k = 1 ∧ d.fld (R.refStat k) 31 28 = (c.refIn k).firstFail % 16 ∧ (d.refIn k).firstFail = 0

theorem refPrio_not_eval : ∀ e < 8, R.refPrio e ∉ evalRegs := by decide +kernel

theorem inputRegs_eval (hk : k < 8) : ∀ a ∈ inputRegs k, a ∈ evalRegs := fun a ha => by
  rcases List.mem_append.mp ha with h | h
  · rw [List.mem_singleton.mp h]; exact refStat_mem hk
  · exact mem_evalRegs_of_loop (eventRegs_loop a h)

theorem refStat_not_input {j : Nat} (h : j ≠ k) : R.refStat j ∉ inputRegs k := by
  rw [inputRegs, List.mem_append, List.mem_singleton, refStat_inj, not_or]
  exact ⟨h, refStat_notMem j⟩

theorem Chip.evalInputs_says (c : Chip) {n : Nat} (hn : n ≤ 8) : c.EvalsInputs (forN n (fun k c => c.evalInput k) c) n := by
  induction n with
  | zero => exact ⟨regsSame.refl, rfl, fun _ _ => ⟨rfl, rfl⟩, fun _ h => absurd h (by omega), fun _ h => absurd h (by omega)⟩
  | succ n ih =>
    rw [forN_succ]
    have done := ih (by omega)
    generalize forN n (fun k c => c.evalInput k) c = a at done
    have now := a.evalInput_says n
    generalize a.evalInput n = d at now ⊢
    have entry : a.entryOf n = c.entryOf n := Chip.entryOf_congr (fun e he => done.regs.reg (refPrio_not_eval e he)) n
    obtain ⟨stat, input⟩ := done.later n le_rfl
    have state : a.refState n = c.refState n := Chip.fld_of_reg stat 2 0
    have kept : ∀ k, k ≠ n → d.reg (R.refStat k) = a.reg (R.refStat k) := fun k hk => now.regs.reg (refStat_not_input hk)
    refine ⟨done.regs.trans (now.regs.mono (inputRegs_eval (by omega))), now.queue.trans done.queue, fun k hk => ⟨?_, ?_⟩, fun k hk off => ?_,
      fun k hk on two first => ?_⟩
    · rw [kept k (by omega), (done.later k (by omega)).1]
    · rw [now.others k (by omega), (done.later k (by omega)).2]
    · by_cases e : k = n
      · subst e
        exact now.off (entry.trans off)
      · rw [Chip.refState, Chip.fld_of_reg (kept k e)]
        exact done.off k (by omega) off
    · by_cases e : k = n
      · subst e
        have := now.failed (by rw [entry]; exact on) (by rw [state]; exact two) (by rw [input]; exact first)
        rw [input] at this
        exact ⟨this.1, this.2, now.clear⟩
      · obtain ⟨h1, h2, h3⟩ := done.failed k (by omega) on two first
        rw [Chip.refState, Chip.fld_of_reg (kept k e), Chip.fld_of_reg (kept k e), now.others k e]
        exact ⟨h1, h2, h3⟩

/-! ### The results -/

/-- R99, R105: the results are refreshed. -/
def resultRegs : List Nat := measRegs ++ eventRegs

theorem Chip.updateTe_frame (c : Chip) : regsSame ([R.muiMeasTe] ++ eventRegs) c.regs c.updateTe.regs ∧ c.updateTe.d2dQueue = c.d2dQueue ∧
    c.updateTe.mui.inputs = c.mui.inputs ∧ c.updateTe.mui.cmds = c.mui.cmds ∧ c.updateTe.mui.muiFreq = c.mui.muiFreq := by
  by_cases h : c.tbState = tbFreeFlight ∨ c.tbState = tbFreeRun
  · obtain ⟨te, hte⟩ : ∃ te, te = c.teAfter c.holdSeconds := ⟨_, rfl⟩
    rw [Chip.updateTe_holdover h hte]
    have shown : regsSame ([R.muiMeasTe] ++ eventRegs) c.regs (c.showTe te).regs := by
      rw [Chip.showTe, regsSame_setNat_iff (by decide)]
      exact regsSame.refl
    have queue : (c.showTe te).d2dQueue = c.d2dQueue := Chip.setNat_d2dQueue _ _ _
    have mui : (c.showTe te).mui = c.mui := Chip.showTe_mui _ _
    generalize c.showTe te = a at shown queue mui ⊢
    have inputs : a.passTe.mui.inputs = a.mui.inputs := rfl
    have cmds : a.passTe.mui.cmds = a.mui.cmds := rfl
    have freq : a.passTe.mui.muiFreq = a.mui.muiFreq := rfl
    have regs : a.passTe.regs = a.regs := rfl
    have waits : a.passTe.d2dQueue = a.d2dQueue := rfl
    by_cases passes : (!c.mui.tePassed && decide (c.fld R.muiHold2 15 0 * 1000 < te)) = true
    · rw [if_pos passes, regsSame_muiEvent_iff _ _ _ (fun a ha => List.mem_append_right _ ha), Chip.muiEvent_d2dQueue, Chip.muiEvent_mui,
        inputs, cmds, freq, regs, waits, mui]
      exact ⟨shown, queue, rfl, rfl, rfl⟩
    · rw [if_neg passes, mui]
      exact ⟨shown, queue, rfl, rfl, rfl⟩
  · rw [not_or] at h
    rw [Chip.updateTe_tied h.1 h.2]
    refine ⟨(regsSame_setNat_iff (by decide) _).mpr regsSame.refl, Chip.setNat_d2dQueue _ _ _, ?_, ?_, ?_⟩ <;> rw [Chip.setNat_mui]

/-- The results of an evaluation, before they cross. -/
structure Chip.Results (c d : Chip) : Prop where
  regs : regsSame resultRegs c.regs d.regs
  queue : d.d2dQueue = c.d2dQueue
  inputs : d.mui.inputs = c.mui.inputs
  cmds : d.mui.cmds = c.mui.cmds

theorem refMeasPhi_mem : ∀ k < 8, R.refMeasPhi k ∈ resultRegs := by decide +kernel

theorem teRegs_result : ∀ a ∈ [R.muiMeasTe] ++ eventRegs, a ∈ resultRegs := by decide +kernel

theorem Chip.refreshRefMeas_frame (c : Chip) : regsSame resultRegs c.regs c.refreshRefMeas.regs ∧ c.refreshRefMeas.d2dQueue = c.d2dQueue ∧
    c.refreshRefMeas.mui = c.mui := by
  have each : ∀ n ≤ 8, ∀ d, d = forN n (fun k c => c.setNat (R.refMeasPhi k)
      (twosOf 32 (clampInt (-0x7FFFFFFF) 0x7FFFFFFF (if k == 6 || k == 7 then 0 else c.phiOf k)))) c →
      regsSame resultRegs c.regs d.regs ∧ d.d2dQueue = c.d2dQueue ∧ d.mui = c.mui := by
    intro n hn
    induction n with
    | zero => rintro d rfl; exact ⟨regsSame.refl, rfl, rfl⟩
    | succ n ih =>
      rintro d rfl
      rw [forN_succ]
      obtain ⟨regs, queue, mui⟩ := ih (by omega) _ rfl
      exact ⟨(regsSame_setNat_iff (refMeasPhi_mem n (by omega)) _).mpr regs, queue, mui⟩
  exact each 8 le_rfl _ rfl

/-- R105: the phase and the frequency of `MUI_MEAS`. -/
def Chip.showLoop (c : Chip) (phase : Int) : Chip :=
  (c.setNat R.muiMeasPhase (twosOf 32 (clampInt (-0x7FFFFFFF) 0x7FFFFFFF phase))).setNat R.muiMeasFreq (twosOf 32 c.mui.muiFreq)

/-- R105: the phase that `MUI_MEAS` shows. -/
def Chip.shownPhase (c : Chip) : Int :=
  match c.activeInput with
  | some k => if k == 6 then 0 else c.phiOf k
  | none => 0

theorem Chip.refreshMeas_eq (c : Chip) : c.refreshMeas = (c.showLoop c.shownPhase).updateTe := rfl

theorem Chip.results (c : Chip) {d : Chip} (hd : d = c.refreshRefMeas.refreshMeas) :
    c.Results d ∧ d.reg R.muiMeasFreq = BitVec.ofNat 32 (twosOf 32 d.mui.muiFreq) := by
  rw [Chip.refreshMeas_eq] at hd
  obtain ⟨regs, queue, mui⟩ := c.refreshRefMeas_frame
  generalize c.refreshRefMeas = a at regs queue mui hd
  have regs1 : regsSame resultRegs a.regs (a.showLoop a.shownPhase).regs := by
    rw [Chip.showLoop, regsSame_setNat_iff (by decide), regsSame_setNat_iff (by decide)]
    exact regsSame.refl
  have freq1 : (a.showLoop a.shownPhase).reg R.muiMeasFreq = BitVec.ofNat 32 (twosOf 32 a.mui.muiFreq) := Chip.setNat_reg_same _ _ _
  have queue1 : (a.showLoop a.shownPhase).d2dQueue = a.d2dQueue := rfl
  have mui1 : (a.showLoop a.shownPhase).mui = a.mui := rfl
  generalize a.showLoop a.shownPhase = b at regs1 freq1 queue1 mui1 hd
  obtain ⟨regs2, queue2, inputs2, cmds2, freq2⟩ := b.updateTe_frame
  rw [← hd] at regs2 queue2 inputs2 cmds2 freq2
  refine ⟨⟨(regs.trans regs1).trans (regs2.mono teRegs_result), by rw [queue2, queue1, queue], by rw [inputs2, mui1, mui],
    by rw [cmds2, mui1, mui]⟩, ?_⟩
  rw [regs2.reg (by decide), freq1, freq2, mui1]

theorem crossRegs_apart : R.muiMeas ∉ resultRegs ∧ R.refMeas ∉ resultRegs ∧ R.sysD2dStat ∉ evalRegs ∧ R.muiMeas ∉ evalRegs ∧ R.refMeas ∉ evalRegs ∧
    R.muiMeasFreq ∉ evalRegs ∧ R.muiMeasPhase ∉ evalRegs ∧ R.muiMeasFreq ≠ R.muiMeas ∧ R.muiMeasFreq ≠ R.refMeas ∧ R.refMeas ≠ R.muiMeas ∧
    R.sysD2dStat ∉ eventRegs ∧ R.muiMeas ∉ eventRegs ∧ R.refMeas ∉ eventRegs ∧ R.muiMeasFreq ∉ eventRegs ∧ R.muiMeasPhase ∉ eventRegs := by
  decide +kernel

theorem refStat_not_result : ∀ k < 8, R.refStat k ∉ R.muiMeas :: R.refMeas :: resultRegs := by decide +kernel

/-- Registers taken back from another state of the part. -/
theorem Chip.restored (c : Chip) (l : List Nat) (e : Chip) {d : Chip} (hd : d = forL l (fun a x => x.setReg a (c.reg a)) e) :
    (∀ a ∈ l, d.reg a = c.reg a) ∧ regsSame l e.regs d.regs ∧ d.d2dQueue = e.d2dQueue ∧ d.mui = e.mui := by
  induction l generalizing e with
  | nil => subst hd; exact ⟨fun _ h => absurd h (by simp), regsSame.refl, rfl, rfl⟩
  | cons x l ih =>
    obtain ⟨all, regs, queue, mui⟩ := ih (e.setReg x (c.reg x)) hd
    refine ⟨fun a ha => ?_, ?_, queue, mui⟩
    · by_cases hl : a ∈ l
      · exact all a hl
      · have ax : a = x := (List.mem_cons.mp ha).resolve_right hl
        rw [regs.reg hl, ax, Chip.setReg_reg, if_pos rfl]
    · exact ((regsSame_setReg_iff (List.mem_cons_self) _).mpr regsSame.refl).trans (regs.mono fun _ => List.mem_cons_of_mem _)

theorem Chip.crossMeas_up (up : c.bit R.sysD2dStat 31 = true) (e : Chip) : c.crossMeas e = (e.publish R.refMeas).publish R.muiMeas := if_pos up

/-- R24: the results of an evaluation wait for the link. -/
theorem Chip.crossMeas_down (down : c.bit R.sysD2dStat 31 = false) (e : Chip) : ∃ m, c.crossMeas e =
    (forL measRegs (fun a x => x.setReg a (c.reg a)) e).queueUp m := ⟨_, if_neg (by rw [down]; decide)⟩

theorem Chip.queueUp_room (room : c.d2dQueue.length < 256) (m : D2dMsg) : c.queueUp m = { c with d2dQueue := c.d2dQueue ++ [m] } := if_pos room

/-! ### REF_EVALUATION -/

/-- R98: the waiting commands are taken. -/
def Chip.cmdsTaken (c : Chip) : Chip := { c with mui := { c.mui with cmds := [] } }

/-- R98 to R112: from the inputs' states to the loop. -/
def Chip.evalLoop (c : Chip) (cmds : List RefCmd) : Chip :=
  (forL cmds (fun q c => c.actRefCmd q) c.dropForce).select.loopSample.lockWatch.logFreq.serdesStep.serdesLock.refreshUtc

theorem Chip.Evaluates.evalLoop (c : Chip) (cmds : List RefCmd) : c.Evaluates (c.evalLoop cmds) := by
  unfold Chip.evalLoop
  have first := Chip.Evaluates.dropForce c
  generalize c.dropForce = a at first ⊢
  have second := first.trans (Chip.Evaluates.each (fun q a => Chip.Evaluates.actRefCmd a q) cmds a)
  generalize forL cmds (fun q c => c.actRefCmd q) a = b at second ⊢
  have third := second.trans (Chip.Evaluates.select b)
  generalize b.select = x at third ⊢
  have fourth := third.trans (Chip.Evaluates.loopSample x)
  generalize x.loopSample = y at fourth ⊢
  have fifth := (fourth.trans (Chip.Evaluates.lockWatch y)).trans (.logFreq _)
  generalize y.lockWatch.logFreq = z at fifth ⊢
  have follows : z.Evaluates z.serdesStep := .of_mui rfl rfl
  exact ((fifth.trans follows).trans (.serdesLock _)).trans (.refreshUtc _)

theorem exec_evaluation {obs : List RefObs} : exec (.refEvaluation t obs) s = .next { s with chip := (
    Chip.crossMeas
      ((forN 7 (fun k c => c.evalInput k) (forL obs (fun o c => c.observe o) (s.chip.at t))).cmdsTaken.evalLoop
        (forN 7 (fun k c => c.evalInput k) (forL obs (fun o c => c.observe o) (s.chip.at t))).mui.cmds)
      ((forN 7 (fun k c => c.evalInput k) (forL obs (fun o c => c.observe o) (s.chip.at t))).cmdsTaken.evalLoop
        (forN 7 (fun k c => c.evalInput k) (forL obs (fun o c => c.observe o) (s.chip.at t))).mui.cmds).refreshRefMeas.refreshMeas) } := rfl

/-- What an evaluation has come to before its results cross: `c` with the states, `e` with the results too. -/
structure EvalEnd (s : State) (t : Stamp) (obs : List RefObs) (c e : Chip) : Prop where
  exec : exec (.refEvaluation t obs) s = .next { s with chip := c.crossMeas e }
  regs : ∀ a, a ∉ evalRegs → a ∉ eventRegs → c.reg a = s.chip.reg a
  queue : c.d2dQueue = s.chip.d2dQueue
  cmds : c.mui.cmds = []
  off : ∀ k < 7, s.chip.entryOf k = none → c.refState k = 0
  failed : obs = [] → ∀ k < 7, s.chip.entryOf k ≠ none → 2 ≤ s.chip.refState k → (s.chip.refIn k).firstFail ≠ 0 →
    c.refState k = 1 ∧ c.fld (R.refStat k) 31 28 = (s.chip.refIn k).firstFail % 16 ∧ (c.refIn k).firstFail = 0
  results : c.Results e
  freq : e.reg R.muiMeasFreq = BitVec.ofNat 32 (twosOf 32 e.mui.muiFreq)

theorem refPrio_not_event : ∀ e < 8, R.refPrio e ∉ eventRegs := by decide +kernel

theorem evaluated (s : State) (t : Stamp) (obs : List RefObs) : ∃ c e, EvalEnd s t obs c e := by
  have run := exec_evaluation (s := s) (t := t) (obs := obs)
  have seen := Chip.Observes.each obs (s.chip.at t)
  have nothing : obs = [] → forL obs (fun o c => c.observe o) (s.chip.at t) = s.chip.at t := fun h => by rw [h]; rfl
  generalize forL obs (fun o c => c.observe o) (s.chip.at t) = a at run seen nothing
  have inputs := a.evalInputs_says (n := 7) (by decide)
  generalize forN 7 (fun k c => c.evalInput k) a = b at run inputs
  have loop := Chip.Evaluates.evalLoop b.cmdsTaken b.mui.cmds
  generalize b.cmdsTaken.evalLoop b.mui.cmds = c at run loop
  obtain ⟨results, freq⟩ := c.results rfl
  generalize c.refreshRefMeas.refreshMeas = e at run results freq
  have idle : ∀ k < 8, b.refState k < 2 → c.reg (R.refStat k) = b.reg (R.refStat k) := fun k hk h => loop.idle k hk h
  have entry : ∀ k, a.entryOf k = s.chip.entryOf k := Chip.entryOf_congr fun e he => seen.regs.reg (refPrio_not_event e he)
  refine ⟨c, e, run, fun x hx hev => ?_, (loop.queue.trans inputs.queue).trans seen.queue, loop.cmds, fun k hk off => ?_, fun hobs k hk on two first => ?_,
    results, freq⟩
  · exact (loop.regs.reg (c := b) hx).trans ((inputs.regs.reg hx).trans (seen.regs.reg hev))
  · have zero := inputs.off k hk ((entry k).trans off)
    rw [Chip.refState, Chip.fld_of_reg (idle k (by omega) (by rw [zero]; decide))]
    exact zero
  · have same := nothing hobs
    subst same
    obtain ⟨state, cause, clear⟩ := inputs.failed k hk on two first
    have stat := idle k (by omega) (by rw [state]; decide)
    refine ⟨(Chip.fld_of_reg stat 2 0).trans state, (Chip.fld_of_reg stat 31 28).trans cause, (loop.fails k).trans clear⟩

theorem EvalEnd.up_says {obs : List RefObs} {c e : Chip} (h : EvalEnd s t obs c e) (up : s.chip.d2dUp = true) :
    c.crossMeas e = (e.publish R.refMeas).publish R.muiMeas := by
  obtain ⟨-, -, d2d, -, -, -, -, -, -, -, d2d', -⟩ := crossRegs_apart
  exact Chip.crossMeas_up ((Chip.bit_of_reg (h.regs _ d2d d2d') 31).trans up) e

theorem regsSame_publish (c : Chip) (a : Nat) : regsSame [a] c.regs (c.publish a).regs :=
  (regsSame_publish_iff (List.mem_singleton.mpr rfl)).mpr regsSame.refl

/-- Where the results cross or wait, the inputs' states stay as the evaluation has them. -/
theorem Chip.crossMeas_keeps {e : Chip} (results : c.Results e) : (∀ k < 8, (c.crossMeas e).reg (R.refStat k) = c.reg (R.refStat k)) ∧
    (c.crossMeas e).mui = e.mui := by
  rcases up : c.bit R.sysD2dStat 31 with _ | _
  · obtain ⟨m, hm⟩ := Chip.crossMeas_down up e
    rw [hm]
    obtain ⟨-, regs, -, mui⟩ := c.restored measRegs e rfl
    generalize forL measRegs (fun a x => x.setReg a (c.reg a)) e = d at regs mui
    obtain ⟨mui', regs', -, -, -⟩ := d.queueUp_says m
    refine ⟨fun k hk => ?_, mui'.trans mui⟩
    have out := refStat_not_result k hk
    simp only [List.mem_cons, not_or] at out
    rw [regs'.reg (by simp only [List.mem_singleton, R.refStat, R.sysD2dStat]; omega),
      regs.reg (fun h => out.2.2 (List.mem_append_left _ h)), results.regs.reg out.2.2]
  · rw [Chip.crossMeas_up up]
    refine ⟨fun k hk => ?_, rfl⟩
    have out := refStat_not_result k hk
    simp only [List.mem_cons, not_or] at out
    rw [(regsSame_publish (e.publish R.refMeas) R.muiMeas).reg (by simpa using out.1), (regsSame_publish e R.refMeas).reg (by simpa using out.2.1),
      results.regs.reg out.2.2]

theorem evaluation_publishes {obs : List RefObs} (up : s.chip.d2dUp = true) :
    Answers (.refEvaluation t obs) s (fun c => c.bit R.muiMeas 31 = true ∧ c.bit R.refMeas 31 = true ∧
      c.reg R.muiMeasFreq = BitVec.ofNat 32 (twosOf 32 c.mui.muiFreq) ∧ c.mui.cmds = [] ∧
      (∀ k, k < 7 → s.chip.entryOf k = none → c.refState k = 0)) := by
  obtain ⟨c, e, h⟩ := evaluated s t obs
  obtain ⟨-, -, -, -, -, -, -, freqM, freqR, apart, -⟩ := crossRegs_apart
  obtain ⟨stats, mui⟩ := Chip.crossMeas_keeps h.results
  refine answers_exec h.exec ⟨?_, ?_, ?_, ?_, fun k hk off => ?_⟩
  · rw [h.up_says up, Chip.publish_valid]
  · rw [h.up_says up, (regsSame_publish _ R.muiMeas).bit (by simpa using apart), Chip.publish_valid]
  · rw [mui, h.up_says up, (regsSame_publish _ R.muiMeas).reg (by simpa using freqM), (regsSame_publish e R.refMeas).reg (by simpa using freqR), h.freq]
  · rw [mui, h.results.cmds, h.cmds]
  · rw [Chip.refState, Chip.fld_of_reg (stats k (by omega))]
    exact h.off k hk off

theorem evaluation_waits {obs : List RefObs} (down : s.chip.d2dUp = false) (room : s.chip.d2dQueue.length < 256) :
    Answers (.refEvaluation t obs) s (fun c => c.d2dQueue.length = s.chip.d2dQueue.length + 1 ∧ c.mui.cmds = [] ∧
      c.reg R.muiMeas = s.chip.reg R.muiMeas ∧ c.reg R.refMeas = s.chip.reg R.refMeas ∧
      c.reg R.muiMeasFreq = s.chip.reg R.muiMeasFreq ∧ c.reg R.muiMeasPhase = s.chip.reg R.muiMeasPhase) := by
  obtain ⟨c, e, h⟩ := evaluated s t obs
  obtain ⟨mR, rR, d2d, mE, rE, fE, pE, -, -, -, d2d', mV, rV, fV, pV⟩ := crossRegs_apart
  refine answers_exec h.exec ?_
  obtain ⟨m, hm⟩ := Chip.crossMeas_down ((Chip.bit_of_reg (h.regs _ d2d d2d') 31).trans down) e
  rw [hm]
  obtain ⟨back, regs, queue, mui⟩ := c.restored measRegs e rfl
  generalize forL measRegs (fun a x => x.setReg a (c.reg a)) e = d at back regs queue mui
  have q : d.d2dQueue = s.chip.d2dQueue := by rw [queue, h.results.queue, h.queue]
  rw [Chip.queueUp_room (by rw [q]; exact room)]
  have out : ∀ a, a ∉ resultRegs → a ∉ evalRegs → a ∉ eventRegs → d.reg a = s.chip.reg a := fun a h1 h2 h3 => by
    rw [regs.reg (fun hm => h1 (List.mem_append_left _ hm)), h.results.regs.reg h1, h.regs a h2 h3]
  refine ⟨?_, (congrArg Muith.cmds mui).trans (h.results.cmds.trans h.cmds), out _ mR mE mV, out _ rR rE rV, ?_, ?_⟩
  · show (d.d2dQueue ++ [m]).length = _
    rw [q, List.length_append]; rfl
  · exact (back _ (by decide)).trans (h.regs _ fE fV)
  · exact (back _ (by decide)).trans (h.regs _ pE pV)

theorem evaluation_fails (hk : k < 7) (on : s.chip.entryOf k ≠ none) (two : 2 ≤ s.chip.refState k) (first : (s.chip.refIn k).firstFail ≠ 0) :
    Answers (.refEvaluation t []) s (fun c => c.refState k = 1 ∧
      c.fld (R.refStat k) 31 28 = (s.chip.refIn k).firstFail % 16 ∧ (c.refIn k).firstFail = 0) := by
  obtain ⟨c, e, h⟩ := evaluated s t []
  obtain ⟨stats, mui⟩ := Chip.crossMeas_keeps h.results
  obtain ⟨state, cause, clear⟩ := h.failed rfl k hk on two first
  have stat := stats k (by omega)
  refine answers_exec h.exec ⟨(Chip.fld_of_reg stat 2 0).trans state, (Chip.fld_of_reg stat 31 28).trans cause, ?_⟩
  have inputs : (c.crossMeas e).mui.inputs = c.mui.inputs := by rw [mui, h.results.inputs]
  rw [Chip.refIn, inputs]
  exact clear

end

/-- Settles O23: the three commands, and an evaluation by its stages. -/
theorem referenceCommandsWaitAndEvaluationsPublish : Obligations.ReferenceCommandsWaitAndEvaluationsPublish := by
  unfold Obligations.ReferenceCommandsWaitAndEvaluationsPublish
  exact ⟨fun s t src e he up ok => refCmd_waits (.inl ⟨rfl, rfl⟩) he up ok, fun s t src e he up ok => refCmd_waits (.inr (.inl ⟨rfl, rfl⟩)) he up ok,
    fun s t src e he up ok => refCmd_waits (.inr (.inr ⟨rfl, rfl⟩)) he up ok, fun s t src e n i he up hi cause => refCmd_refused hi he up cause,
    fun s t src e n i he down room hi => refCmd_queued hi he down room, fun s t obs up => evaluation_publishes up,
    fun s t obs down room => evaluation_waits down room, fun s t k hk on two first => evaluation_fails hk on two first⟩

end Sys2Proof.Machine

/-! ## Pegs: a reported peg that writes the journal's status (R116, R117, R129) -/

namespace Sys2Proof.Machine

/-- A reported peg that writes `EVJ_STAT`, whose BACKLOG its own report 0x0A05 advances. -/
def statPeg : Peg :=
  { slot := 0, stager := 1, group := 0, tag := 0, queue := 85, arg := 0, commit := false, rpt := true, armed := true, launch := 0, deadline := 0,
    writes := [(R.evjStat, 0)] }

/-- The part after reset with `statPeg` armed. -/
def statArmed : State := { State.reset with chip := { State.reset.chip with peg := { State.reset.chip.peg with pegs := [statPeg] } } }

/-- Refutes O32: a reported peg's write to `EVJ_STAT` does not leave the register as the write alone has it, for the report counts in BACKLOG. -/
theorem not_pegArmsExecutesExpiresOrIsCancelled : ¬ Obligations.PegArmsExecutesExpiresOrIsCancelled := by
  unfold Obligations.PegArmsExecutesExpiresOrIsCancelled
  rintro ⟨-, -, -, executes, -⟩
  have done := of_answers (executes statArmed 0 85 0x40030000 R.evjStat statPeg 0 (by decide) (by decide) (fun h => absurd h (by decide))
    (by decide +kernel) (by decide) rfl (by decide +kernel) (by decide +kernel) (by decide) (.inr (by decide +kernel)))
    (show exec _ statArmed = execPegImmediateFire 0 85 0x40030000 statArmed from rfl)
  exact absurd done.2.1 (by decide +kernel)

end Sys2Proof.Machine

/-! ## Pegs: SUBMIT, and the check of a group (R123 to R129, R437, R513) -/

namespace Sys2Proof.Machine

section
variable {c d : Chip} {s : State} {t : Stamp} {sg : Nat}

/-! ### The registers of the stagers and of the pool -/

/-- The registers that the pool's counts stand in (R132). -/
def poolRegs : List Nat := R.pegStat :: (List.range 96).map R.pegQ

/-- The registers of a stager's result (R129). -/
def resultOf (sg : Nat) : List Nat := [R.pegStgRes sg, R.pegStgRes1 sg]

/-- The registers that say where a stager's check ended. -/
def endOf (sg : Nat) : List Nat := [R.pegStgCount sg, R.pegStgResAtLo sg, R.pegStgResAtHi sg]

theorem stager_apart : ∀ sg < 3, ∀ a ∈ resultOf sg ++ endOf sg ++ [R.pitRes, R.pitResGroup, R.pegCnt 2], a ∉ poolRegs ∧ a ∉ eventRegs := by decide +kernel

theorem pegQ_mem {q : Nat} (h : q < 96) : R.pegQ q ∈ poolRegs := List.mem_cons_of_mem _ (List.mem_map_of_mem (List.mem_range.mpr h))

/-- The inequalities between the registers that a check's end writes. -/
theorem stager_ne (h : sg < 3) : R.pegStgRes sg ∉ endOf sg ∧ R.pegStgRes1 sg ∉ endOf sg ∧ R.pegStgRes sg ≠ R.pegStgRes1 sg ∧
    R.pegStgCount sg ∉ resultOf sg ∧ R.pegStgResAtLo sg ∉ resultOf sg ∧ R.pegStgResAtHi sg ∉ resultOf sg ∧ R.pegCnt 2 ∉ resultOf sg ++ endOf sg ∧
    R.pitRes ∉ resultOf sg ++ endOf sg ∧ R.pegStgCount sg ≠ R.pegStgResAtLo sg ∧ R.pegStgCount sg ≠ R.pegStgResAtHi sg ∧
    R.pegStgResAtLo sg ≠ R.pegStgResAtHi sg := by
  simp only [resultOf, endOf, List.mem_append, List.mem_cons, List.not_mem_nil, or_false, R.pegStgRes, R.pegStgRes1, R.pegStgCount, R.pegStgResAtLo,
    R.pegStgResAtHi, R.pegCnt, R.pitRes]
  omega

/-! ### SUBMIT (R123, R127) -/

theorem Chip.beginCheck_says (c : Chip) (sg : Nat) : (c.beginCheck sg).bit (R.pegStgCount sg) 31 = true ∧
    (c.beginCheck sg).fld (R.pegStgCount sg) 6 0 = c.fld (R.pegStgCount sg) 6 0 ∧ (c.beginCheck sg).bit (R.pegStgRes sg) 31 = false ∧
    regsSame [R.pegStgCount sg, R.pegStgRes sg] c.regs (c.beginCheck sg).regs := by
  have ne : R.pegStgCount sg ≠ R.pegStgRes sg := by simp only [R.pegStgCount, R.pegStgRes]; omega
  have regs : (c.beginCheck sg).regs = ((c.setFld (R.pegStgCount sg) 31 31 1).setFld (R.pegStgRes sg) 31 31 0).regs := rfl
  have reg : ∀ x, (c.beginCheck sg).reg x = ((c.setFld (R.pegStgCount sg) 31 31 1).setFld (R.pegStgRes sg) 31 31 0).reg x := fun x => by
    rw [Chip.reg, regs, Chip.reg]
  refine ⟨?_, ?_, ?_, ?_⟩
  · rw [Chip.bit_of_reg (reg _), Chip.setFld_bit_ne _ (by decide) (.inl ne), Chip.setFld_bit_same _ _ _ _ (by decide)]; rfl
  · rw [Chip.fld_of_reg (reg _), Chip.setFld_fld_ne _ (by decide) (.inl ne), Chip.setFld_fld_ne _ (by decide) (.inr (.inl (by decide)))]
  · rw [Chip.bit_of_reg (reg _), Chip.setFld_bit_same _ _ _ _ (by decide)]; rfl
  · rw [regs, regsSame_setFld_iff (by simp), regsSame_setFld_iff (by simp)]
    exact regsSame.refl

theorem Chip.stagerCommand_refused {src : Source} {cmd g cause : Nat} (hc : cmd = 1 ∨ cmd = 2) (h : c.stagerCause sg cmd g = cause) (ne : cause ≠ 0) :
    c.stagerCommand src sg cmd g = c.refuse src (R.pegStgCmd sg) (stagerWord cmd g) cause := by
  subst h
  rw [Chip.stagerCommand, if_neg (by rcases hc with rfl | rfl <;> decide)]
  dsimp only
  rw [if_pos (by simpa using ne)]

theorem exec_submit {src : Source} (h : sg < 3) : exec (.submit t src sg) s = .next { s with chip := (s.chip.at t).stagerCommand src sg 1 0 } :=
  if_pos (decide_eq_true h)

theorem submit_begins {src : Source} (h : sg < 3) (idle : s.chip.bit (R.pegStgCount sg) 31 = false) (holds : s.chip.fld (R.pegStgCount sg) 6 0 ≠ 0) :
    Answers (.submit t src sg) s (fun c => c.bit (R.pegStgCount sg) 31 = true ∧
      c.fld (R.pegStgCount sg) 6 0 = s.chip.fld (R.pegStgCount sg) 6 0 ∧ c.bit (R.pegStgRes sg) 31 = false ∧
      c.peg = { s.chip.peg with checks := s.chip.peg.checks ++ [sg] } ∧
      s.chip.writesOnly c [R.pegStgCount sg, R.pegStgRes sg] ∧ s.chip.raises c []) := by
  refine answers_exec (exec_submit h) ?_
  have allowed : (s.chip.at t).stagerCause sg 1 0 = 0 := by
    rw [Chip.stagerCause, if_neg (by rw [show (s.chip.at t).bit (R.pegStgCount sg) 31 = false from idle]; decide)]
    exact (if_neg fun e => holds (beq_iff_eq.mp e) : (if ((s.chip.at t).fld (R.pegStgCount sg) 6 0 == 0) = true then 2 else 0) = 0)
  have begins : (s.chip.at t).stagerCommand src sg 1 0 = (s.chip.at t).beginCheck sg := by
    rw [Chip.stagerCommand, if_neg (by decide)]
    dsimp only
    rw [if_neg (by rw [allowed]; decide)]
    rfl
  rw [begins]
  obtain ⟨busy, count, res, regs⟩ := Chip.beginCheck_says (s.chip.at t) sg
  exact ⟨busy, count, res, rfl, Chip.writesOnly_of regs rfl rfl, Chip.raises_of_evq rfl⟩

/-- R132: a refusal of a command of the peg engine counts in `PEG_REFUSE`. -/
theorem Chip.refuse_pegRefuse (c : Chip) (src : Source) (w : Word) (cause : Nat) (h : sg < 3) :
    (c.refuse src (R.pegStgCmd sg) w cause).reg R.pegRefuse = (c.bump R.pegRefuse).reg R.pegRefuse := by
  have span : (decide (0x400A0000 ≤ R.pegStgCmd sg) && decide (R.pegStgCmd sg < 0x400E0000)) = true := by
    rw [Bool.and_eq_true, decide_eq_true_eq, decide_eq_true_eq, R.pegStgCmd]; omega
  have counted : (c.countRefusal (R.pegStgCmd sg)).reg R.pegRefuse = (c.bump R.pegRefuse).reg R.pegRefuse := by
    rw [Chip.countRefusal, if_pos span, Chip.bump_reg, Chip.bump_reg, Chip.bump_reg, if_pos rfl, if_pos rfl,
      if_neg (pitRefcnt_windowOf_ne_pegRefuse _).symm]
  rw [Chip.refuse_eq]
  by_cases full : (c.countRefusal (R.pegStgCmd sg)).bit R.pitRef 31 = true
  · rw [if_pos full, counted]
  · rw [if_neg full, ← counted]
    exact (Chip.recordRefusal_writesOnly _ _ _ _ _).1 _ (by decide)

theorem submit_refused {src : Source} (h : sg < 3) (cause : s.chip.bit (R.pegStgCount sg) 31 = true ∨ s.chip.fld (R.pegStgCount sg) 6 0 = 0) :
    Answers (.submit t src sg) s (fun c => c.peg = s.chip.peg ∧
      c.reg R.pegRefuse = (s.chip.bump R.pegRefuse).reg R.pegRefuse ∧
      s.chip.refused c t src (R.pegStgCmd sg) (stagerWord 1 0) (if s.chip.bit (R.pegStgCount sg) 31 = true then 1 else 2)) := by
  refine answers_exec (exec_submit h) ?_
  have why : (s.chip.at t).stagerCause sg 1 0 = (if s.chip.bit (R.pegStgCount sg) 31 = true then 1 else 2) := by
    rw [Chip.stagerCause]
    by_cases busy : s.chip.bit (R.pegStgCount sg) 31 = true
    · rw [if_pos busy]
      exact if_pos busy
    · rw [if_neg busy]
      refine (if_neg busy).trans ?_
      exact if_pos (beq_iff_eq.mpr (cause.resolve_left busy))
  rw [Chip.stagerCommand_refused (.inl rfl) why (by split <;> decide)]
  exact ⟨Chip.refuse_peg _ _ _ _ _, Chip.refuse_pegRefuse _ _ _ _ h, s.chip.at_refused t _ _ _ _⟩

/-! ### The check (R125) -/

theorem firstIdx_none {α : Type} {f : α → Bool} {l : List α} {i : Nat} (h : firstIdx f i l = none) : ∀ x ∈ l, f x = false := by
  induction l generalizing i with
  | nil => intro x hx; cases hx
  | cons y l ih =>
    rw [firstIdx] at h
    by_cases hy : f y = true
    · rw [if_pos hy] at h; cases h
    · rw [if_neg hy] at h
      intro x hx
      rcases List.mem_cons.mp hx with rfl | hx
      · exact Bool.eq_false_iff.mpr hy
      · exact ih h x hx

/-- R114: no peg of a queue beyond the last one may write anything. -/
theorem pegSpan_queue {q arg a : Nat} (h : pegSpan q arg a ≠ none) : q < 96 := by
  by_contra big
  apply h
  rw [pegSpan]
  dsimp only
  have ne : ∀ n < 96, ¬ (q == n) = true := fun n hn => by rw [beq_iff_eq]; omega
  by_cases unmapped : (descAt a).isNone = true
  · rw [if_pos unmapped]
  · rw [if_neg unmapped, if_neg (by omega), if_neg (by omega), if_neg (by omega), if_neg (by omega), if_neg (by omega), if_neg (ne 84 (by decide)),
      if_neg (ne 85 (by decide)), if_neg (ne 86 (by decide)), if_neg (ne 87 (by decide)), if_neg (ne 88 (by decide)), if_neg (ne 89 (by decide)),
      if_neg (ne 90 (by decide)), if_neg (ne 91 (by decide)), if_neg (ne 92 (by decide)), if_neg (ne 93 (by decide)), if_neg (ne 94 (by decide)),
      if_neg (ne 95 (by decide))]

theorem targetsOk_queue {p : Peg} (h : targetsOk p = true) (ne : p.writes ≠ []) : p.queue < 96 := by
  rw [targetsOk] at h
  rcases hw : p.writes with _ | ⟨⟨a, w⟩, rest⟩
  · exact absurd hw ne
  · rw [hw] at h
    refine pegSpan_queue (arg := p.arg) (a := a) fun none => ?_
    dsimp only at h
    rw [none] at h
    cases h

/-- R125: an entry that passes the check is of one of the queues. -/
theorem Chip.entryCause_queue {now : Stamp} {group : Nat} {e : Peg × Nat} (h : c.entryCause125 now group e = 0) : e.1.queue < 96 := by
  obtain ⟨p, kind⟩ := e
  rw [Chip.entryCause125] at h
  dsimp only at h ⊢
  by_cases one : (kind != queueKind p.queue) = true
  · rw [if_pos one] at h; cases h
  · rw [if_neg one] at h
    by_cases two : (!c.argOk p.queue p.arg) = true
    · rw [if_pos two] at h; cases h
    · rw [if_neg two] at h
      by_cases three : (!targetsOk p || (p.commit && (decide (32 ≤ p.queue) || !p.writes.isEmpty)) || (!p.commit && p.writes.isEmpty)) = true
      · rw [if_pos three] at h; cases h
      · simp only [Bool.or_eq_true, Bool.not_eq_true', Bool.and_eq_true, decide_eq_true_eq, not_or, not_and] at three
        obtain ⟨⟨targets, commit⟩, plain⟩ := three
        rcases hc : p.commit with _ | _
        · refine targetsOk_queue (by simpa using targets) fun empty => ?_
          exact plain hc (by rw [empty]; rfl)
        · have := (commit hc).1
          omega

/-- The group that the first entry names. -/
def firstGroup (l : List (Peg × Nat)) : Nat :=
  match l with
  | e :: _ => e.1.group
  | [] => 0

theorem Chip.groupFail_queue {l : List (Peg × Nat)} (h : c.groupFail sg l = none) : ∀ e ∈ l, e.1.queue < 96 := by
  rcases l with _ | ⟨x, rest⟩
  · intro e he; cases he
  · unfold Chip.groupFail at h
    dsimp only at h
    rcases hf : firstIdx (fun e => c.entryCause125 c.clk x.1.group e != 0) 0 (x :: rest) with _ | i
    · intro e he
      have passes := firstIdx_none hf e he
      exact Chip.entryCause_queue (by simpa using passes)
    · rw [hf] at h
      cases h

/-! ### Pegs that join the pool (R124) -/

/-- A peg without its place in the pool. -/
def Peg.unplaced (p : Peg) : Peg := { p with slot := 0 }

/-- A peg that takes slot `i` of the pool. -/
def Chip.pooled (c : Chip) (p : Peg) (i : Nat) : Chip :=
  (c.modPeg (fun e => { e with pegs := e.pegs ++ [{ p with slot := i }] })).viewPeg { p with slot := i } 1 0

theorem Chip.addPeg_eq (c : Chip) (p : Peg) : c.addPeg p = (c.pooled p c.freeSlot).syncPegs p.queue := rfl

theorem Chip.pooled_says (c : Chip) (p : Peg) (i : Nat) : (c.pooled p i).regs = c.regs ∧ (c.pooled p i).evq = c.evq ∧ (c.pooled p i).clk = c.clk ∧
    (c.pooled p i).peg = { c.peg with pegs := c.peg.pegs ++ [{ p with slot := i }] } := ⟨rfl, rfl, rfl, rfl⟩

theorem Chip.syncPegs_says (c : Chip) {q : Nat} (h : q < 96) : regsSame poolRegs c.regs (c.syncPegs q).regs ∧ (c.syncPegs q).peg = c.peg ∧
    (c.syncPegs q).evq = c.evq ∧ (c.syncPegs q).clk = c.clk := by
  have first : R.pegStat ∈ poolRegs := List.mem_cons_self
  refine ⟨?_, rfl, rfl, rfl⟩
  rw [Chip.syncPegs, regsSame_setFld_iff (pegQ_mem h), regsSame_setFld_iff (pegQ_mem h), regsSame_setFld_iff first,
    regsSame_setFld_iff first]
  exact regsSame.refl

/-- What pegs that join the pool leave. -/
structure Chip.Joined (c d : Chip) (l : List Peg) : Prop where
  regs : regsSame poolRegs c.regs d.regs
  evq : d.evq = c.evq
  clk : d.clk = c.clk
  peg : ∃ P, d.peg = { c.peg with pegs := P } ∧ P.map Peg.unplaced = c.peg.pegs.map Peg.unplaced ++ l.map Peg.unplaced

theorem Chip.addPeg_joins (c : Chip) (p : Peg) (h : p.queue < 96) : c.Joined (c.addPeg p) [p] := by
  rw [Chip.addPeg_eq]
  generalize c.freeSlot = i
  obtain ⟨regs, evq, clk, peg⟩ := c.pooled_says p i
  generalize c.pooled p i = a at regs evq clk peg
  obtain ⟨regs', peg', evq', clk'⟩ := a.syncPegs_says h
  exact ⟨regs ▸ regs', evq'.trans evq, clk'.trans clk, _, peg'.trans peg, List.map_append⟩

theorem Chip.addPegs_join (l : List (Peg × Nat)) (c : Chip) (h : ∀ e ∈ l, e.1.queue < 96) :
    c.Joined (forL l (fun (e : Peg × Nat) (c : Chip) => c.addPeg e.1) c) (l.map (fun e => e.1)) := by
  induction l generalizing c with
  | nil => exact ⟨regsSame.refl, rfl, rfl, c.peg.pegs, rfl, by simp⟩
  | cons x l ih =>
    have first := c.addPeg_joins x.1 (h x List.mem_cons_self)
    have rest := ih (c.addPeg x.1) (fun e he => h e (List.mem_cons_of_mem _ he))
    have run : forL (x :: l) (fun (e : Peg × Nat) (c : Chip) => c.addPeg e.1) c = forL l (fun (e : Peg × Nat) (c : Chip) => c.addPeg e.1) (c.addPeg x.1) := rfl
    rw [run]
    generalize c.addPeg x.1 = a at first rest
    generalize forL l (fun (e : Peg × Nat) (c : Chip) => c.addPeg e.1) a = b at rest
    obtain ⟨P, peg, pegs⟩ := first.peg
    obtain ⟨Q, peg', pegs'⟩ := rest.peg
    refine ⟨first.regs.trans rest.regs, rest.evq.trans first.evq, rest.clk.trans first.clk, Q, by rw [peg', peg], ?_⟩
    rw [pegs', show a.peg.pegs = P by rw [peg], pegs]
    simp

/-! ### The result (R129) -/

/-- R129: the outcome in the result block. -/
def Chip.outcomeShown (c : Chip) (sg op ok cause : Nat) : Chip :=
  ((c.setFld (R.pegStgRes sg) 30 30 ok).setFld (R.pegStgRes sg) 29 28 op).setFld (R.pegStgRes sg) 27 24 cause

/-- R129: the group in the result block. -/
def Chip.groupShown (c : Chip) (sg group count index : Nat) : Chip :=
  ((c.setFld (R.pegStgRes1 sg) 31 16 group).setFld (R.pegStgRes1 sg) 12 6 count).setFld (R.pegStgRes1 sg) 5 0 index

theorem Chip.stagerResult_eq (c : Chip) (sg op ok cause group count index : Nat) : c.stagerResult sg op ok cause group count index =
    ((c.outcomeShown sg op ok cause).groupShown sg group count index).publish (R.pegStgRes sg) := rfl

theorem Chip.outcomeShown_says (c : Chip) (sg op ok cause : Nat) :
    (c.outcomeShown sg op ok cause).bit (R.pegStgRes sg) 30 = (ok % 2 == 1) ∧ (c.outcomeShown sg op ok cause).fld (R.pegStgRes sg) 29 28 = op % 4 ∧
    (c.outcomeShown sg op ok cause).fld (R.pegStgRes sg) 27 24 = cause % 16 ∧
    regsSame [R.pegStgRes sg] c.regs (c.outcomeShown sg op ok cause).regs := by
  unfold Chip.outcomeShown
  refine ⟨?_, ?_, ?_, by simp⟩
  · rw [Chip.setFld_bit_ne _ (by decide) (by omega), Chip.setFld_bit_ne _ (by decide) (by omega), Chip.setFld_bit_same _ _ _ _ (by decide)]
  · rw [Chip.setFld_fld_ne _ (by decide) (by omega), Chip.setFld_fld_same _ _ _ _ _ (by decide)]; rfl
  · rw [Chip.setFld_fld_same _ _ _ _ _ (by decide)]; rfl

theorem Chip.groupShown_says (c : Chip) (sg group count index : Nat) :
    (c.groupShown sg group count index).fld (R.pegStgRes1 sg) 31 16 = group % 65536 ∧
    (c.groupShown sg group count index).fld (R.pegStgRes1 sg) 5 0 = index % 64 ∧
    regsSame [R.pegStgRes1 sg] c.regs (c.groupShown sg group count index).regs := by
  unfold Chip.groupShown
  refine ⟨?_, ?_, by simp⟩
  · rw [Chip.setFld_fld_ne _ (by decide) (by omega), Chip.setFld_fld_ne _ (by decide) (by omega), Chip.setFld_fld_same _ _ _ _ _ (by decide)]; rfl
  · rw [Chip.setFld_fld_same _ _ _ _ _ (by decide)]; rfl

/-- A publication leaves the fields between the sequence number and VALID. -/
theorem Chip.publish_fld_between (c : Chip) (a : Nat) {hi lo : Nat} (h1 : hi < 31) (h2 : 15 < lo) : (c.publish a).fld a hi lo = c.fld a hi lo := by
  rw [Chip.publish, Chip.setFld_fld_ne _ (by omega) (by omega), Chip.setFld_fld_ne _ (by omega) (by omega)]

theorem Chip.publish_bit_between (c : Chip) (a : Nat) {i : Nat} (h1 : i < 31) (h2 : 15 < i) : (c.publish a).bit a i = c.bit a i := by
  rw [Chip.publish, Chip.setFld_bit_ne _ (by omega) (by omega), Chip.setFld_bit_ne _ (by omega) (by omega)]

theorem Chip.stagerResult_says (c : Chip) {op ok cause group count i : Nat} {d : Chip} (hd : d = c.stagerResult sg op ok cause group count i) :
    d.bit (R.pegStgRes sg) 31 = true ∧ d.bit (R.pegStgRes sg) 30 = (ok % 2 == 1) ∧ d.fld (R.pegStgRes sg) 29 28 = op % 4 ∧
    d.fld (R.pegStgRes sg) 27 24 = cause % 16 ∧ d.fld (R.pegStgRes1 sg) 31 16 = group % 65536 ∧ d.fld (R.pegStgRes1 sg) 5 0 = i % 64 ∧
    regsSame (resultOf sg) c.regs d.regs := by
  have ne : R.pegStgRes sg ≠ R.pegStgRes1 sg := by simp only [R.pegStgRes, R.pegStgRes1]; omega
  rw [Chip.stagerResult_eq] at hd
  obtain ⟨hok, hop, hcause, regs⟩ := c.outcomeShown_says sg op ok cause
  generalize c.outcomeShown sg op ok cause = a at hok hop hcause regs hd
  obtain ⟨hgroup, hindex, regs'⟩ := a.groupShown_says sg group count i
  generalize a.groupShown sg group count i = b at hgroup hindex regs' hd
  have res : b.reg (R.pegStgRes sg) = a.reg (R.pegStgRes sg) := regs'.reg (by simpa using ne)
  have res1 : d.reg (R.pegStgRes1 sg) = b.reg (R.pegStgRes1 sg) := by rw [hd, Chip.publish_reg_other _ ne.symm]
  refine ⟨by rw [hd, Chip.publish_valid], ?_, ?_, ?_, (Chip.fld_of_reg res1 _ _).trans hgroup, (Chip.fld_of_reg res1 _ _).trans hindex, ?_⟩
  · rw [hd, Chip.publish_bit_between _ _ (by decide) (by decide), Chip.bit_of_reg res, hok]
  · rw [hd, Chip.publish_fld_between _ _ (by decide) (by decide), Chip.fld_of_reg res, hop]
  · rw [hd, Chip.publish_fld_between _ _ (by decide) (by decide), Chip.fld_of_reg res, hcause]
  · rw [hd, regsSame_publish_iff (show R.pegStgRes sg ∈ resultOf sg from List.mem_cons_self)]
    exact (regs.mono (by simp [resultOf])).trans (regs'.mono (by simp [resultOf]))

theorem Chip.stagerResult_frame (c : Chip) (sg op ok cause group count index : Nat) :
    (c.stagerResult sg op ok cause group count index).peg = c.peg ∧ (c.stagerResult sg op ok cause group count index).evq = c.evq ∧
    (c.stagerResult sg op ok cause group count index).clk = c.clk ∧ (c.stagerResult sg op ok cause group count index).dram = c.dram ∧
    (c.stagerResult sg op ok cause group count index).tbw = c.tbw := ⟨rfl, rfl, rfl, rfl, rfl⟩

/-! ### GROUP_CHECK_DONE (R124 to R126) -/

/-- The entries of a stager. -/
def Chip.staged (c : Chip) (sg : Nat) : List (Peg × Nat) := (List.range (min (c.fld (R.pegStgCount sg) 6 0) 64)).map (fun i => c.stagerEntry sg i)

/-- R125: a stager's check is over. -/
def Chip.checkOver (c : Chip) (sg : Nat) (rest : List Nat) : Chip :=
  ((c.setFld (R.pegStgCount sg) 31 31 0).modPeg (fun e => { e with checks := rest })).setWide (R.pegStgResAtLo sg) (R.pegStgResAtHi sg) (shortStamp c.clk)

/-- R124, R126: what a check makes of a group. -/
def Chip.groupJudged (c : Chip) (sg : Nat) (l : List (Peg × Nat)) (n : Nat) (fail : Option (Nat × Nat)) : Chip :=
  match fail with
  | none => (forL l (fun (e : Peg × Nat) (c : Chip) => c.addPeg e.1) c).stagerResult sg 1 1 0 (firstGroup l) n 0
  | some (cause, i) =>
    ((c.stagerResult sg 1 0 cause (firstGroup l) 0 i).bump (R.pegCnt 2)).event 0x0A01 .room
      [.val 1 sg, .val 2 (firstGroup l), .val 1 cause, .val 1 i, .val 8 (shortStamp c.clk)]

/-- R437: the cause of a refusal; 0 for none. -/
def failCause (fail : Option (Nat × Nat)) : Nat :=
  match fail with
  | some (cause, _) => cause
  | none => 0

/-- R513: base firmware's part once its stager is free. -/
def Chip.firmwareGoesOn (c : Chip) (sg : Nat) (fail : Option (Nat × Nat)) : Chip :=
  match sg, c.peg.fwNow with
  | 0, some g => ((c.modPeg (fun e => { e with fwNow := none })).fwResult g (if fail.isNone then 1 else 0) (failCause fail)).fwStart
  | 0, none => c.fwStart
  | _, _ => c

theorem exec_groupCheckDone {rest : List Nat} (h : s.chip.peg.checks = sg :: rest) : exec (.groupCheckDone t) s = .next { s with chip := (
    Chip.firmwareGoesOn (((s.chip.at t).checkOver sg rest).groupJudged sg ((s.chip.at t).staged sg) (min (s.chip.fld (R.pegStgCount sg) 6 0) 64)
      ((s.chip.at t).groupFail sg ((s.chip.at t).staged sg))) sg ((s.chip.at t).groupFail sg ((s.chip.at t).staged sg))) } := by
  rw [show exec (.groupCheckDone t) s = execGroupCheckDone t s from rfl, execGroupCheckDone, runIf_of _ _ _ rfl]
  dsimp only
  rw [show (s.chip.at t).peg.checks = sg :: rest from h]
  rfl

theorem shortStamp_lt (t : Stamp) : shortStamp t < 2 ^ 64 := Nat.mod_lt _ (Nat.two_pow_pos 64)

theorem Chip.checkOver_frame (c : Chip) (sg : Nat) (rest : List Nat) : (c.checkOver sg rest).peg = { c.peg with checks := rest } ∧
    (c.checkOver sg rest).evq = c.evq ∧ (c.checkOver sg rest).clk = c.clk ∧ (c.checkOver sg rest).dram = c.dram ∧
    (c.checkOver sg rest).tbw = c.tbw := ⟨rfl, rfl, rfl, rfl, rfl⟩

theorem Chip.checkOver_says (c : Chip) (h : sg < 3) (rest : List Nat) :
    (c.checkOver sg rest).bit (R.pegStgCount sg) 31 = false ∧
    (c.checkOver sg rest).wide (R.pegStgResAtLo sg) (R.pegStgResAtHi sg) = shortStamp c.clk ∧
    regsSame (endOf sg) c.regs (c.checkOver sg rest).regs := by
  obtain ⟨-, -, -, -, -, -, -, -, lo, hi, lohi⟩ := stager_ne h
  unfold Chip.checkOver
  have idle : ((c.setFld (R.pegStgCount sg) 31 31 0).modPeg (fun e => { e with checks := rest })).bit (R.pegStgCount sg) 31 = false := by
    rw [show ((c.setFld (R.pegStgCount sg) 31 31 0).modPeg (fun e => { e with checks := rest })).bit (R.pegStgCount sg) 31 =
      (c.setFld (R.pegStgCount sg) 31 31 0).bit (R.pegStgCount sg) 31 from rfl, Chip.setFld_bit_same _ _ _ _ (by decide)]
    rfl
  have regs : regsSame (endOf sg) c.regs ((c.setFld (R.pegStgCount sg) 31 31 0).modPeg (fun e => { e with checks := rest })).regs :=
    (regsSame_setFld_iff (c := c) (show R.pegStgCount sg ∈ endOf sg from List.mem_cons_self) 31 31 0).mpr regsSame.refl
  generalize (c.setFld (R.pegStgCount sg) 31 31 0).modPeg (fun e => { e with checks := rest }) = a at idle regs
  generalize hv : shortStamp c.clk = v
  refine ⟨?_, Chip.setWide_wide a v lohi (hv ▸ shortStamp_lt _), ?_⟩
  · rw [Chip.bit_of_reg (Chip.setWide_reg_other _ _ lo hi)]
    exact idle
  · exact (regsSame_setWide_iff (by simp [endOf]) (by simp [endOf]) _).mpr regs

/-- R513: with no group and no cancel that waits, base firmware does nothing. -/
theorem Chip.fwStart_idle (next : c.peg.fwNext = []) (cancel : c.peg.fwCancel = []) : c.fwStart = c := by
  have none : c.age.changes.filter (fun x => c.peg.fwCancel.contains x.id && c.changeWaits x) = [] := by
    rw [cancel]; simp
  have same : c.modPeg (fun e => { e with fwCancel := [] }) = c := by
    have peg : ({ c.peg with fwCancel := [] } : PegEngine) = c.peg := by rw [← cancel]
    rw [Chip.modPeg, peg]
  have cancels : c.fwCancels = c := by
    rw [Chip.fwCancels]
    dsimp only
    rw [none, same]
    split <;> rfl
  rw [Chip.fwStart, next, cancels]
  rfl

end

end Sys2Proof.Machine

/-! ## Pegs: the end of a check (R124 to R126, R437, R513) -/

namespace Sys2Proof.Machine

section
variable {c d : Chip} {s : State} {t : Stamp} {sg : Nat}

/-- The registers of a stager's end lie apart from those of its result, of the pool and of the event journal. -/
theorem endOf_apart (h : sg < 3) {a : Nat} (ha : a ∈ endOf sg) : a ∉ resultOf sg ∧ a ∉ poolRegs ∧ a ∉ eventRegs ∧ a ≠ R.pegCnt 2 := by
  obtain ⟨-, -, -, h1, h2, h3, h4, -⟩ := stager_ne h
  have apart := stager_apart sg h a (List.mem_append_left _ (List.mem_append_right _ ha))
  refine ⟨?_, apart.1, apart.2, fun e => h4 (e ▸ List.mem_append_right _ ha)⟩
  simp only [endOf, List.mem_cons, List.not_mem_nil, or_false] at ha
  rcases ha with rfl | rfl | rfl
  · exact h1
  · exact h2
  · exact h3

/-- R124, R129: an accepted group. -/
theorem Chip.groupJudged_accepts (h : sg < 3) {l : List (Peg × Nat)} {n : Nat} (queues : ∀ e ∈ l, e.1.queue < 96)
    (hd : d = c.groupJudged sg l n none) :
    d.bit (R.pegStgRes sg) 31 = true ∧ d.bit (R.pegStgRes sg) 30 = true ∧ d.fld (R.pegStgRes sg) 27 24 = 0 ∧
    (∀ a ∈ endOf sg, d.reg a = c.reg a) ∧ d.evq = c.evq ∧
    (∃ P, d.peg = { c.peg with pegs := P } ∧ P.map Peg.unplaced = c.peg.pegs.map Peg.unplaced ++ (l.map (fun e => e.1)).map Peg.unplaced) := by
  rw [Chip.groupJudged] at hd
  have joined := Chip.addPegs_join l c queues
  generalize forL l (fun (e : Peg × Nat) (c : Chip) => c.addPeg e.1) c = a at joined hd
  obtain ⟨valid, ok, -, cause, -, -, regs⟩ := Chip.stagerResult_says a hd
  obtain ⟨peg, evq, -, -, -⟩ := a.stagerResult_frame sg 1 1 0 (firstGroup l) n 0
  rw [← hd] at peg evq
  obtain ⟨P, hP, pegs⟩ := joined.peg
  refine ⟨valid, ok, cause, fun x hx => ?_, evq.trans joined.evq, P, peg.trans hP, pegs⟩
  obtain ⟨h1, h2, -, -⟩ := endOf_apart h hx
  exact (regs.reg h1).trans (joined.regs.reg h2)

/-- R126, R129: a refused group. -/
theorem Chip.groupJudged_refuses (h : sg < 3) {l : List (Peg × Nat)} {n cause i : Nat} (hd : d = c.groupJudged sg l n (some (cause, i))) :
    d.bit (R.pegStgRes sg) 31 = true ∧ d.bit (R.pegStgRes sg) 30 = false ∧ d.fld (R.pegStgRes sg) 27 24 = cause % 16 ∧
    d.fld (R.pegStgRes1 sg) 5 0 = i % 64 ∧ d.reg (R.pegCnt 2) = (c.bump (R.pegCnt 2)).reg (R.pegCnt 2) ∧
    (∀ a ∈ endOf sg, d.reg a = c.reg a) ∧ d.peg = c.peg ∧ d.dram = c.dram ∧ d.tbw = c.tbw ∧
    regsSame (resultOf sg ++ [R.pegCnt 2] ++ eventRegs) c.regs d.regs ∧
    c.raises d [⟨0x0A01, .room, c.clk, [.val 1 sg, .val 2 (firstGroup l), .val 1 cause, .val 1 i, .val 8 (shortStamp c.clk)]⟩] := by
  rw [Chip.groupJudged] at hd
  obtain ⟨valid, ok, -, why, -, index, regs⟩ := Chip.stagerResult_says (sg := sg) c (op := 1) (ok := 0) (cause := cause) (group := firstGroup l)
    (count := 0) (i := i) rfl
  obtain ⟨peg, evq, clk, dram, tbw⟩ := c.stagerResult_frame sg 1 0 cause (firstGroup l) 0 i
  generalize c.stagerResult sg 1 0 cause (firstGroup l) 0 i = a at valid ok why index regs peg evq clk dram tbw hd
  obtain ⟨-, -, -, -, -, -, cnt, -⟩ := stager_ne h
  have cntRes : R.pegCnt 2 ∉ resultOf sg := fun hm => cnt (List.mem_append_left _ hm)
  have counted : (a.bump (R.pegCnt 2)).reg (R.pegCnt 2) = (c.bump (R.pegCnt 2)).reg (R.pegCnt 2) := by
    rw [Chip.bump_reg, Chip.bump_reg, if_pos rfl, if_pos rfl, regs.reg cntRes]
  have bumped : regsSame [R.pegCnt 2] a.regs (a.bump (R.pegCnt 2)).regs := (regsSame_bump_iff (by simp)).mpr regsSame.refl
  replace peg : (a.bump (R.pegCnt 2)).peg = c.peg := (Chip.bump_peg _ _).trans peg
  replace evq : (a.bump (R.pegCnt 2)).evq = c.evq := (Chip.bump_evq _ _).trans evq
  replace clk : (a.bump (R.pegCnt 2)).clk = c.clk := (Chip.bump_clk _ _).trans clk
  replace dram : (a.bump (R.pegCnt 2)).dram = c.dram := (Chip.bump_dram _ _).trans dram
  replace tbw : (a.bump (R.pegCnt 2)).tbw = c.tbw := (Chip.bump_tbw _ _).trans tbw
  generalize a.bump (R.pegCnt 2) = b at counted bumped peg evq clk dram tbw hd
  have after : regsSame ([R.pegCnt 2] ++ eventRegs) a.regs d.regs := by
    rw [hd, regsSame_event_iff (by decide) (by decide)]
    exact bumped.mono fun _ => List.mem_append_left _
  have kept : ∀ x ∈ resultOf sg, d.reg x = a.reg x := fun x hx => after.reg fun hm => by
    rcases List.mem_append.mp hm with h1 | h1
    · rw [List.mem_singleton.mp h1] at hx; exact cntRes hx
    · exact (stager_apart sg h x (List.mem_append_left _ (List.mem_append_left _ hx))).2 h1
  have res := kept (R.pegStgRes sg) List.mem_cons_self
  have res1 := kept (R.pegStgRes1 sg) (List.mem_cons_of_mem _ List.mem_cons_self)
  refine ⟨(Chip.bit_of_reg res 31).trans valid, (Chip.bit_of_reg res 30).trans ok, (Chip.fld_of_reg res _ _).trans why,
    (Chip.fld_of_reg res1 _ _).trans index, ?_, fun x hx => ?_, ?_, ?_, ?_, ?_, ?_⟩
  · rw [hd, Chip.event_reg _ _ _ _ (by decide) (by decide), counted]
  · obtain ⟨h1, -, h3, h4⟩ := endOf_apart h hx
    rw [after.reg (by simpa using ⟨h4, by simpa using h3⟩), regs.reg h1]
  · rw [hd, Chip.event_peg, peg]
  · rw [hd, Chip.event_dram, dram]
  · rw [hd, Chip.event_tbw, tbw]
  · refine (regs.mono fun _ hm => List.mem_append_left _ (List.mem_append_left _ hm)).trans (after.mono fun x hx => ?_)
    rcases List.mem_append.mp hx with h1 | h1
    · exact List.mem_append_left _ (List.mem_append_right _ h1)
    · exact List.mem_append_right _ h1
  · rw [hd]
    exact Chip.raises_event_of_evq evq clk _ _ _

/-- R513: a stager other than base firmware's leaves base firmware alone. -/
theorem Chip.firmwareGoesOn_other (ne : sg ≠ 0) (fail : Option (Nat × Nat)) : c.firmwareGoesOn sg fail = c := by
  rcases sg with _ | n
  · exact absurd rfl ne
  · rfl

theorem Chip.firmwareGoesOn_idle (now : c.peg.fwNow = none) (fail : Option (Nat × Nat)) : c.firmwareGoesOn 0 fail = c.fwStart := by
  unfold Chip.firmwareGoesOn
  rw [now] <;> rfl

/-- Base firmware has no group in the stager, none that waits, and no cancel that waits, or the stager is not its own. -/
theorem Chip.firmwareGoesOn_quiet (idle : sg = 0 → c.peg.fwNow = none ∧ c.peg.fwNext = [] ∧ c.peg.fwCancel = []) (fail : Option (Nat × Nat)) :
    c.firmwareGoesOn sg fail = c := by
  by_cases zero : sg = 0
  · obtain ⟨now, next, cancel⟩ := idle zero
    subst zero
    rw [Chip.firmwareGoesOn_idle now, Chip.fwStart_idle next cancel]
  · exact Chip.firmwareGoesOn_other zero fail

theorem Chip.staged_unplaced (c : Chip) (sg : Nat) : ((c.staged sg).map (fun e => e.1)).map Peg.unplaced =
    (List.range (min (c.fld (R.pegStgCount sg) 6 0) 64)).map (fun i => (c.stagerEntry sg i).1) := by
  rw [Chip.staged, List.map_map, List.map_map]
  rfl

theorem firstGroup_staged (c : Chip) (sg : Nat) : firstGroup (c.staged sg) =
    if c.fld (R.pegStgCount sg) 6 0 = 0 then 0 else c.fld (R.pegBufW1 sg 0) 31 16 := by
  rw [Chip.staged]
  generalize c.fld (R.pegStgCount sg) 6 0 = n
  rcases n with _ | n
  · rfl
  · rw [if_neg (by omega), show min (n + 1) 64 = min n 63 + 1 by omega, List.range_succ_eq_map]
    rfl

theorem check_accepts {rest : List Nat} (h : sg < 3) (hc : s.chip.peg.checks = sg :: rest)
    (idle : sg = 0 → s.chip.peg.fwNow = none ∧ s.chip.peg.fwNext = [] ∧ s.chip.peg.fwCancel = [])
    (pass : (s.chip.at t).groupFail sg ((s.chip.at t).staged sg) = none) :
    Answers (.groupCheckDone t) s (fun c => c.peg.checks = rest ∧ c.bit (R.pegStgCount sg) 31 = false ∧
      c.peg.pegs.map (fun p => { p with slot := 0 }) = s.chip.peg.pegs.map (fun p => { p with slot := 0 }) ++
        (List.range (min (s.chip.fld (R.pegStgCount sg) 6 0) 64)).map (fun i => (s.chip.stagerEntry sg i).1) ∧
      c.bit (R.pegStgRes sg) 31 = true ∧ c.bit (R.pegStgRes sg) 30 = true ∧ c.fld (R.pegStgRes sg) 27 24 = 0 ∧
      c.wide (R.pegStgResAtLo sg) (R.pegStgResAtHi sg) = shortStamp t ∧ s.chip.raises c []) := by
  refine answers_exec (exec_groupCheckDone hc) ?_
  have queues := Chip.groupFail_queue pass
  have entries := (s.chip.at t).staged_unplaced sg
  rw [pass]
  obtain ⟨peg0, evq0, -, -, -⟩ := (s.chip.at t).checkOver_frame sg rest
  obtain ⟨busy0, at0, -⟩ := (s.chip.at t).checkOver_says h rest
  generalize (s.chip.at t).checkOver sg rest = a at peg0 evq0 busy0 at0
  obtain ⟨valid, ok, cause, ends, evq, P, peg, pegs⟩ := Chip.groupJudged_accepts (c := a) h (n := min (s.chip.fld (R.pegStgCount sg) 6 0) 64) queues rfl
  generalize a.groupJudged sg ((s.chip.at t).staged sg) (min (s.chip.fld (R.pegStgCount sg) 6 0) 64) none = d at valid ok cause ends evq peg
  rw [Chip.firmwareGoesOn_quiet (by rw [peg, peg0]; exact idle)]
  rw [entries, peg0] at pegs
  refine ⟨by rw [peg, peg0], ?_, ?_, valid, ok, cause, ?_, Chip.raises_of_evq (evq.trans evq0)⟩
  · rw [Chip.bit_of_reg (ends _ (by simp [endOf])), busy0]
  · rw [peg]; exact pegs
  · rw [Chip.wide, ends _ (by simp [endOf]), ends _ (by simp [endOf])]
    exact at0

theorem check_refuses {rest : List Nat} {cause i : Nat} (h : sg < 3) (hc : s.chip.peg.checks = sg :: rest)
    (idle : sg = 0 → s.chip.peg.fwNow = none ∧ s.chip.peg.fwNext = [] ∧ s.chip.peg.fwCancel = [])
    (fail : (s.chip.at t).groupFail sg ((s.chip.at t).staged sg) = some (cause, i)) :
    Answers (.groupCheckDone t) s (fun c => c.peg = { s.chip.peg with checks := rest } ∧ c.bit (R.pegStgCount sg) 31 = false ∧
      c.bit (R.pegStgRes sg) 31 = true ∧ c.bit (R.pegStgRes sg) 30 = false ∧ c.fld (R.pegStgRes sg) 27 24 = cause % 16 ∧
      c.fld (R.pegStgRes1 sg) 5 0 = i % 64 ∧ c.reg (R.pegCnt 2) = (s.chip.bump (R.pegCnt 2)).reg (R.pegCnt 2) ∧
      s.chip.raises c [⟨0x0A01, .room, t, [.val 1 sg, .val 2 (if s.chip.fld (R.pegStgCount sg) 6 0 = 0 then 0 else
        s.chip.fld (R.pegBufW1 sg 0) 31 16), .val 1 cause, .val 1 i, .val 8 (shortStamp t)]⟩] ∧
      s.chip.writesOnly c ([R.pegStgCount sg, R.pegStgRes sg, R.pegStgRes1 sg, R.pegStgResAtLo sg, R.pegStgResAtHi sg, R.pegCnt 2] ++
        eventRegs)) := by
  refine answers_exec (exec_groupCheckDone hc) ?_
  have group : firstGroup ((s.chip.at t).staged sg) = _ := firstGroup_staged (s.chip.at t) sg
  rw [fail]
  obtain ⟨peg0, evq0, clk0, dram0, tbw0⟩ := (s.chip.at t).checkOver_frame sg rest
  obtain ⟨busy0, -, regs0⟩ := (s.chip.at t).checkOver_says h rest
  generalize (s.chip.at t).checkOver sg rest = a at peg0 evq0 clk0 dram0 tbw0 busy0 regs0
  obtain ⟨valid, ok, why, index, cnt, ends, peg, dram, tbw, regs, raises⟩ := Chip.groupJudged_refuses (c := a) h
    (l := (s.chip.at t).staged sg) (n := min (s.chip.fld (R.pegStgCount sg) 6 0) 64) (cause := cause) (i := i) rfl
  generalize a.groupJudged sg ((s.chip.at t).staged sg) (min (s.chip.fld (R.pegStgCount sg) 6 0) 64) (some (cause, i)) = d at *
  rw [Chip.firmwareGoesOn_quiet (by rw [peg, peg0]; exact idle)]
  obtain ⟨-, -, -, -, -, -, cntOut, -⟩ := stager_ne h
  have apart : R.pegCnt 2 ∉ endOf sg := fun hm => cntOut (List.mem_append_right _ hm)
  refine ⟨peg.trans peg0, ?_, valid, ok, why, index, ?_, ?_, Chip.writesOnly_of ?_ (dram.trans dram0) (tbw.trans tbw0)⟩
  · rw [Chip.bit_of_reg (ends _ (by simp [endOf])), busy0]
  · rw [cnt, Chip.bump_reg, Chip.bump_reg, if_pos rfl, if_pos rfl, regs0.reg apart]; rfl
  · rw [clk0, group] at raises
    rw [Chip.raises, evq0] at raises
    exact raises
  · refine (regs0.mono fun x hx => ?_).trans (regs.mono fun x hx => ?_)
    · simp only [endOf, List.mem_cons, List.not_mem_nil, or_false, List.mem_append] at hx ⊢
      tauto
    · simp only [resultOf, List.mem_cons, List.not_mem_nil, or_false, List.mem_append] at hx ⊢
      tauto

/-- The two bits at the top of a register, from the field that they make. -/
theorem bits_of_pair {a v : Nat} (h : c.fld a 31 30 = v % 2 ^ (31 + 1 - 30)) : c.bit a 31 = (v / 2 % 2 == 1) ∧ c.bit a 30 = (v % 2 == 1) := by
  rw [Chip.fld, bitsOf, bitsNat] at h
  rw [Chip.bit, Chip.bit, Chip.fld, Chip.fld, bitsOf, bitsOf, bitsNat, bitsNat]
  constructor <;> congr 1 <;> omega

/-- R437: a recall's result, and nothing else of the part's pegs. -/
theorem Chip.fwResult_recall {g : FwGroup} (use : g.use = .recall) {ok cause : Nat} (small : ok < 2) (hd : d = c.fwResult g ok cause) :
    d.bit R.pitRes 31 = true ∧ d.bit R.pitRes 30 = (ok == 1) ∧ d.fld R.pitRes 15 0 = g.group % 65536 ∧ d.peg = c.peg ∧
    regsSame [R.pitRes, R.pitResGroup] c.regs d.regs := by
  have eq : c.fwResult g ok cause =
      (((c.setFld R.pitRes 31 30 (2 + ok)).setFld R.pitRes 27 24 cause).setFld R.pitRes 15 0 g.group).setFld R.pitResGroup 15 0 g.group := by
    rw [Chip.fwResult, use] <;> rfl
  rw [eq] at hd
  have ne : R.pitRes ≠ R.pitResGroup := by decide
  have top : ∀ j, j = 31 ∨ j = 30 → d.bit R.pitRes j = (c.setFld R.pitRes 31 30 (2 + ok)).bit R.pitRes j := fun j hj => by
    rw [hd, Chip.setFld_bit_ne _ (by omega) (.inl ne), Chip.setFld_bit_ne _ (by omega) (by omega), Chip.setFld_bit_ne _ (by omega) (by omega)]
  obtain ⟨b31, b30⟩ := bits_of_pair (Chip.setFld_fld_same c R.pitRes 31 30 (2 + ok) (by decide))
  refine ⟨?_, ?_, ?_, by rw [hd]; rfl, ?_⟩
  · rw [top 31 (.inl rfl), b31]
    rcases (by omega : ok = 0 ∨ ok = 1) with rfl | rfl <;> rfl
  · rw [top 30 (.inr rfl), b30]
    rcases (by omega : ok = 0 ∨ ok = 1) with rfl | rfl <;> rfl
  · rw [hd, Chip.setFld_fld_ne _ (by decide) (.inl ne), Chip.setFld_fld_same _ _ _ _ _ (by decide)]; rfl
  · rw [hd]; simp

theorem recall_result {g : FwGroup} {rest : List Nat} (hc : s.chip.peg.checks = 0 :: rest) (now : s.chip.peg.fwNow = some g)
    (next : s.chip.peg.fwNext = []) (cancel : s.chip.peg.fwCancel = []) (use : g.use = .recall) :
    Answers (.groupCheckDone t) s (fun c => c.peg.checks = rest ∧ c.peg.fwNow = none ∧ c.bit (R.pegStgCount 0) 31 = false ∧
      c.bit (R.pegStgRes 0) 31 = true ∧ c.bit R.pitRes 31 = true ∧
      c.bit R.pitRes 30 = (((s.chip.at t).groupFail 0 ((s.chip.at t).staged 0)).isNone) ∧ c.fld R.pitRes 15 0 = g.group % 65536) := by
  refine answers_exec (exec_groupCheckDone hc) ?_
  have queues : (s.chip.at t).groupFail 0 ((s.chip.at t).staged 0) = none → ∀ e ∈ (s.chip.at t).staged 0, e.1.queue < 96 := Chip.groupFail_queue
  generalize (s.chip.at t).groupFail 0 ((s.chip.at t).staged 0) = fail at queues
  obtain ⟨peg0, -, -, -, -⟩ := (s.chip.at t).checkOver_frame 0 rest
  obtain ⟨busy0, -, -⟩ := (s.chip.at t).checkOver_says (sg := 0) (by decide) rest
  generalize (s.chip.at t).checkOver 0 rest = a at peg0 busy0
  have judged : ∀ d, d = a.groupJudged 0 ((s.chip.at t).staged 0) (min (s.chip.fld (R.pegStgCount 0) 6 0) 64) fail →
      d.bit (R.pegStgRes 0) 31 = true ∧ d.bit (R.pegStgCount 0) 31 = false ∧ ∃ P, d.peg = { a.peg with pegs := P } := by
    intro d hd
    rcases fail with _ | ⟨cause, i⟩
    · obtain ⟨valid, -, -, ends, -, P, peg, -⟩ := Chip.groupJudged_accepts (by decide) (queues rfl) hd
      exact ⟨valid, by rw [Chip.bit_of_reg (ends _ (by simp [endOf])), busy0], P, peg⟩
    · obtain ⟨valid, -, -, -, -, ends, peg, -⟩ := Chip.groupJudged_refuses (by decide) hd
      exact ⟨valid, by rw [Chip.bit_of_reg (ends _ (by simp [endOf])), busy0], a.peg.pegs, by rw [peg]⟩
  obtain ⟨valid, busy, P, peg⟩ := judged _ rfl
  generalize a.groupJudged 0 ((s.chip.at t).staged 0) (min (s.chip.fld (R.pegStgCount 0) 6 0) 64) fail = b at valid busy peg ⊢
  have goesOn : b.firmwareGoesOn 0 fail =
      ((b.modPeg (fun e => { e with fwNow := none })).fwResult g (if fail.isNone then 1 else 0) (failCause fail)).fwStart := by
    unfold Chip.firmwareGoesOn
    rw [peg, peg0, show ({ ({ (s.chip.at t).peg with checks := rest } : PegEngine) with pegs := P } : PegEngine).fwNow = some g from now] <;> rfl
  rw [goesOn]
  have peg1 : (b.modPeg (fun e => { e with fwNow := none })).peg = { b.peg with fwNow := none } := rfl
  have regs1 : (b.modPeg (fun e => { e with fwNow := none })).regs = b.regs := rfl
  generalize b.modPeg (fun e => { e with fwNow := none }) = x at peg1 regs1
  have reg : ∀ y, x.reg y = b.reg y := fun y => by rw [Chip.reg, regs1, Chip.reg]
  obtain ⟨res31, res30, res15, peg2, regs2⟩ := Chip.fwResult_recall (c := x) use (ok := if fail.isNone then 1 else 0) (cause := failCause fail)
    (by split <;> decide) rfl
  generalize x.fwResult g (if fail.isNone then 1 else 0) (failCause fail) = y at res31 res30 res15 peg2 regs2
  have all : y.peg = { b.peg with fwNow := none } := peg2.trans peg1
  rw [Chip.fwStart_idle (by rw [all, peg, peg0]; exact next) (by rw [all, peg, peg0]; exact cancel)]
  refine ⟨by rw [all, peg, peg0], by rw [all], ?_, ?_, res31, ?_, res15⟩
  · rw [regs2.bit (by decide), Chip.bit_of_reg (reg _), busy]
  · rw [regs2.bit (by decide), Chip.bit_of_reg (reg _), valid]
  · rw [res30]
    cases fail <;> rfl

end

/-- Settles O31: SUBMIT, and the end of a check by its verdict. -/
theorem groupIsCheckedThenAcceptedWhole : Obligations.GroupIsCheckedThenAcceptedWhole := by
  unfold Obligations.GroupIsCheckedThenAcceptedWhole
  refine ⟨fun s t src sg h idle holds => submit_begins h idle holds, fun s t src sg h cause => submit_refused h cause,
    fun s t sg rest h hc idle pass => check_accepts h hc idle pass, fun s t sg cause i rest h hc idle fail => check_refuses h hc idle fail,
    fun s t g rest hc now next cancel use => recall_result hc now next cancel use, fun s t none => ?_⟩
  refine gives_of (show exec _ s = execGroupCheckDone t s from rfl) rfl ?_
  dsimp only
  rw [show (s.chip.at t).peg.checks = [] from none]

end Sys2Proof.Machine

/-! ## Legs, sender reports and sub-port links (R144, R156, R160, R165) -/

namespace Sys2Proof.Machine

/-! ### The joins of a sub-port's flows (R165) -/

/-- Whether flow `f` of sub-port (`p`, `sub`) wants the group that `only` asks for. -/
def Chip.flowAsks (c : Chip) (p sub : Nat) (only : Option (Bool × Option Nat)) (f : Nat) : Bool :=
  c.bit (R.netFlow f) 31 && c.fld (R.netFlow f) 28 28 == p && c.subOf p (c.fld (R.netFlow f) 27 26) == sub &&
    isMulticast (c.bit (R.netFlow f) 30) (c.addrOf (c.bit (R.netFlow f) 30) (R.netFlowDaddr f)) &&
    (match only with
      | some (v, q) => v == c.bit (R.netFlow f) 30 && (q == none || q == some (c.addrOf (c.bit (R.netFlow f) 30) (R.netFlowDaddr f)))
      | none => true)

/-- The join of flow `f`'s group. -/
def Chip.flowJoin (c : Chip) (p sub f : Nat) : TxMsg :=
  .join p sub (c.bit (R.netFlow f) 30) (c.addrOf (c.bit (R.netFlow f) 30) (R.netFlowDaddr f))
    (if c.bit (R.netFlow f) 29 then some (c.addrOf (c.bit (R.netFlow f) 30) (R.netFlowSaddr f)) else none)

/-- What one flow adds to the joins. -/
def joinStep (p sub : Nat) (only : Option (Bool × Option Nat)) (f : Nat) (c : Chip) : Chip :=
  if c.flowAsks p sub only f then c.netSend p sub (c.flowJoin p sub f) else c

theorem Chip.joinGroups_eq (c : Chip) (p sub : Nat) (only : Option (Bool × Option Nat)) :
    c.joinGroups p sub only = forN 1024 (joinStep p sub only) c := rfl

/-- A message of a sub-port counts there and nowhere else. -/
theorem regsSame_joinStep (p sub : Nat) (only : Option (Bool × Option Nat)) (f : Nat) (c : Chip) :
    regsSame [R.netCnt p sub 3] c.regs (joinStep p sub only f c).regs := by
  unfold joinStep
  split <;> simp

theorem regsSame_joinGroups (c : Chip) (p sub : Nat) (only : Option (Bool × Option Nat)) :
    regsSame [R.netCnt p sub 3] c.regs (c.joinGroups p sub only).regs :=
  regsSame_forN fun _ _ _ => regsSame_joinStep _ _ _ _ _

theorem Chip.netSend_keeps {α : Type} (g : Chip → α) (hb : ∀ c a, g (Chip.bump c a) = g c) (hs : ∀ c m, g (Chip.send c m) = g c) (c : Chip)
    (p sub : Nat) (m : TxMsg) : g (c.netSend p sub m) = g c := by
  unfold Chip.netSend
  split
  · rw [hs, hb]
  · rfl

theorem Chip.joinGroups_keeps {α : Type} (g : Chip → α) (hb : ∀ c a, g (Chip.bump c a) = g c) (hs : ∀ c m, g (Chip.send c m) = g c) (c : Chip)
    (p sub : Nat) (only : Option (Bool × Option Nat)) : g (c.joinGroups p sub only) = g c := by
  refine forN_keeps g fun f x _ => ?_
  show g (joinStep p sub only f x) = g x
  unfold joinStep
  split
  · exact Chip.netSend_keeps g hb hs _ _ _ _
  · rfl

section
variable (c : Chip) (p sub : Nat) (only : Option (Bool × Option Nat))

theorem Chip.joinGroups_dram : (c.joinGroups p sub only).dram = c.dram := Chip.joinGroups_keeps (·.dram) Chip.bump_dram (fun _ _ => rfl) _ _ _ _
theorem Chip.joinGroups_tbw : (c.joinGroups p sub only).tbw = c.tbw := Chip.joinGroups_keeps (·.tbw) Chip.bump_tbw (fun _ _ => rfl) _ _ _ _
theorem Chip.joinGroups_evq : (c.joinGroups p sub only).evq = c.evq := Chip.joinGroups_keeps (·.evq) Chip.bump_evq (fun _ _ => rfl) _ _ _ _
theorem Chip.joinGroups_net : (c.joinGroups p sub only).net = c.net := Chip.joinGroups_keeps (·.net) Chip.bump_net (fun _ _ => rfl) _ _ _ _

end

/-- The flow table and the sub-ports' settings lie apart from the sub-ports' counters. -/
theorem flow_regs_apart {p sub : Nat} (hp : p < 2) (hsub : sub < 4) (f j : Nat) :
    R.netFlow f ∉ [R.netCnt p sub 3] ∧ R.netFlowDaddr f j ∉ [R.netCnt p sub 3] ∧ R.netFlowSaddr f j ∉ [R.netCnt p sub 3] ∧
      R.netPort p ∉ [R.netCnt p sub 3] := by
  simp only [List.mem_singleton, R.netFlow, R.netFlowDaddr, R.netFlowSaddr, R.netPort, R.netCnt]
  omega

section
variable {l : List Nat} {c d : Chip} (h : regsSame l c.regs d.regs)
include h

theorem Chip.addrOf_of_same (v6 : Bool) {a : Nat → Nat} (ha : ∀ j, a j ∉ l) : d.addrOf v6 a = c.addrOf v6 a := by
  simp only [Chip.addrOf, h.reg (ha _)]

theorem Chip.subOf_of_same {p : Nat} (hp : R.netPort p ∉ l) (sub : Nat) : d.subOf p sub = c.subOf p sub := by
  rw [Chip.subOf, h.bit hp, Chip.subOf]

theorem Chip.subportOn_of_same {p : Nat} (hp : R.netPort p ∉ l) (sub : Nat) : d.subportOn p sub = c.subportOn p sub := by
  rw [Chip.subportOn, h.bit hp, h.bit hp, Chip.subportOn]

theorem Chip.flowAsks_of_same {p sub f : Nat} (hf : R.netFlow f ∉ l) (hd : ∀ j, R.netFlowDaddr f j ∉ l) (hp : R.netPort p ∉ l)
    (only : Option (Bool × Option Nat)) : d.flowAsks p sub only f = c.flowAsks p sub only f := by
  simp only [Chip.flowAsks, h.bit hf, h.fld hf, Chip.subOf_of_same h hp, Chip.addrOf_of_same h _ hd]

theorem Chip.flowJoin_of_same {p sub f : Nat} (hf : R.netFlow f ∉ l) (hd : ∀ j, R.netFlowDaddr f j ∉ l) (hs : ∀ j, R.netFlowSaddr f j ∉ l) :
    d.flowJoin p sub f = c.flowJoin p sub f := by
  simp only [Chip.flowJoin, h.bit hf, Chip.addrOf_of_same h _ hd, Chip.addrOf_of_same h _ hs]

end

theorem joinStep_tx_mono (p sub : Nat) (only : Option (Bool × Option Nat)) (f : Nat) (c : Chip) {m : TxMsg} (h : m ∈ c.tx) :
    m ∈ (joinStep p sub only f c).tx := by
  unfold joinStep Chip.netSend
  split
  · split
    · exact List.mem_append_left _ (by rw [Chip.bump_tx]; exact h)
    · exact h
  · exact h

/-- R165: every flow of the sub-port that asks joins its group again. -/
theorem Chip.joinGroups_joins {c : Chip} {p sub f : Nat} {only : Option (Bool × Option Nat)} (hp : p < 2) (hsub : sub < 4) (hf : f < 1024)
    (on : c.subportOn p sub = true) (asks : c.flowAsks p sub only f = true) : c.flowJoin p sub f ∈ (c.joinGroups p sub only).tx := by
  have apart := flow_regs_apart hp hsub
  have joined : ∀ n, f < n → c.flowJoin p sub f ∈ (forN n (joinStep p sub only) c).tx := by
    intro n
    induction n with
    | zero => intro h; exact absurd h (by omega)
    | succ n ih =>
      intro h
      rw [forN_succ]
      rcases Nat.lt_succ_iff_lt_or_eq.mp h with h | rfl
      · exact joinStep_tx_mono _ _ _ _ _ (ih h)
      · have same : regsSame [R.netCnt p sub 3] c.regs (forN f (joinStep p sub only) c).regs :=
          regsSame_forN fun _ _ _ => regsSame_joinStep _ _ _ _ _
        rw [joinStep, if_pos ((Chip.flowAsks_of_same same (apart f 0).1 (fun j => (apart f j).2.1) (apart f 0).2.2.2 only).trans asks),
          Chip.netSend, if_pos ((Chip.subportOn_of_same same (apart f 0).2.2.2 sub).trans on),
          Chip.flowJoin_of_same same (apart f 0).1 (fun j => (apart f j).2.1) (fun j => (apart f j).2.2.1)]
        exact List.mem_append_right _ (List.mem_singleton.mpr rfl)
  exact joined 1024 hf

theorem regsSame_event {c : Chip} (code : Nat) (p : FaultAddr) (f : List CField) : regsSame eventRegs c.regs (c.event code p f).regs := by
  simp

/-! ### Legs (R156) -/

/-- R156: leg `leg` of a network slot reads silent. -/
def NetSlot.silence (x : NetSlot) (leg : Nat) : NetSlot :=
  { x with silent0 := if leg == 0 then true else x.silent0, silent1 := if leg == 0 then x.silent1 else true }

/-- Since when leg `leg` has delivered nothing. -/
def NetSlot.since (x : NetSlot) (leg : Nat) : Option Stamp := (if leg = 0 then x.leg0 else x.leg1).or x.first

/-- Whether leg `leg` reads silent. -/
def NetSlot.silent (x : NetSlot) (leg : Nat) : Bool := if leg = 0 then x.silent0 else x.silent1

/-- R156: the part after leg `leg` of slot `n` went silent. -/
def Chip.legSilent (c : Chip) (n leg : Nat) : Chip :=
  if c.bit (R.srcNet n) 29 then
    ((c.modNet n (·.silence leg)).setFld (R.srcStat n) (28 + leg) (28 + leg) 0).event 0x2005 .room [.val 1 n, .val 1 leg, .val 1 0]
  else (c.modNet n (·.silence leg)).setFld (R.srcStat n) (28 + leg) (28 + leg) 0

theorem srcNet_ne_srcStat (n m : Nat) : R.srcNet n ≠ R.srcStat m := by
  unfold R.srcNet R.srcStat
  omega

theorem srcStat_notMem (n : Nat) : R.srcStat n ∉ eventRegs := by
  rw [mem_eventRegs]
  simp only [R.srcStat, R.evjStat, R.evjCnt]
  omega

section
variable {s : State} {t l : Stamp} {n leg : Nat}

theorem exec_legSilence (hn : n < 256) (hleg : leg < 2) :
    exec (.legSilenceTimeout t n leg) s = .next { s with chip := match (s.chip.netSlot n).since leg with
      | none => s.chip.at t
      | some l => if elapsed t l nsPerS && !(s.chip.netSlot n).silent leg then (s.chip.at t).legSilent n leg else s.chip.at t } := by
  rw [show exec (.legSilenceTimeout t n leg) s = execLegSilenceTimeout t n leg s from rfl, execLegSilenceTimeout,
    runIf_of _ _ _ (by simp [hn, hleg])]
  have other : (((s.chip.at t).modNet n (·.silence leg)).setFld (R.srcStat n) (28 + leg) (28 + leg) 0).bit (R.srcNet n) 29 =
      (s.chip.at t).bit (R.srcNet n) 29 := Chip.setFld_bit_ne _ (by decide) (.inl (srcNet_ne_srcStat n n))
  have since : (s.chip.netSlot n).since leg =
      (if leg == 0 then (s.chip.netSlot n).leg0 else (s.chip.netSlot n).leg1).or (s.chip.netSlot n).first := by
    simp only [NetSlot.since, beq_iff_eq]
  have silent : (if leg == 0 then (s.chip.netSlot n).silent0 else (s.chip.netSlot n).silent1) = (s.chip.netSlot n).silent leg := by
    simp only [NetSlot.silent, beq_iff_eq]
  have moved : (if (((s.chip.at t).modNet n (·.silence leg)).setFld (R.srcStat n) (28 + leg) (28 + leg) 0).bit (R.srcNet n) 29 = true then
      (((s.chip.at t).modNet n (·.silence leg)).setFld (R.srcStat n) (28 + leg) (28 + leg) 0).event 0x2005 .room
        [.val 1 n, .val 1 leg, .val 1 0]
      else ((s.chip.at t).modNet n (·.silence leg)).setFld (R.srcStat n) (28 + leg) (28 + leg) 0) = (s.chip.at t).legSilent n leg := by
    rw [other]
    rfl
  have after := fun (l : Stamp) => congrArg (fun c => (Host.Outcome.next
    { s with chip := if elapsed t l nsPerS && !(s.chip.netSlot n).silent leg then c else s.chip.at t } : Host.Outcome State Fault Refusal)) moved
  dsimp only
  rw [show ∀ k, (s.chip.at t).netSlot k = s.chip.netSlot k from fun _ => rfl, since, silent]
  cases (if leg == 0 then (s.chip.netSlot n).leg0 else (s.chip.netSlot n).leg1) with
  | some l => exact after l
  | none =>
    cases (s.chip.netSlot n).first with
    | none => rfl
    | some l => exact after l

theorem Chip.netSlot_modNet_same (c : Chip) (n : Nat) (f : NetSlot → NetSlot) : (c.modNet n f).netSlot n = f (c.netSlot n) :=
  mapGet_mod_same _ _ _ _

/-- R156: what the silence of a leg does. -/
theorem Chip.legSilent_says (c : Chip) (n leg : Nat) (hleg : leg < 2) :
    ((c.at t).legSilent n leg).netSlot n = (c.netSlot n).silence leg ∧
    (∀ i, i < 32 → ((c.at t).legSilent n leg).bit (R.srcStat n) i = if i = 28 + leg then false else c.bit (R.srcStat n) i) ∧
    c.writesOnly ((c.at t).legSilent n leg) ([R.srcStat n] ++ eventRegs) ∧
    c.raises ((c.at t).legSilent n leg)
      (if c.bit (R.srcNet n) 29 = true then [⟨0x2005, .room, t, [.val 1 n, .val 1 leg, .val 1 0]⟩] else []) := by
  have bits : ∀ i, i < 32 → (((c.at t).modNet n (·.silence leg)).setFld (R.srcStat n) (28 + leg) (28 + leg) 0).bit (R.srcStat n) i =
      if i = 28 + leg then false else c.bit (R.srcStat n) i := by
    intro i hi
    split
    next h => rw [h]; exact Chip.setFld_bit_same _ _ _ _ (by omega)
    next h => exact Chip.setFld_bit_ne _ hi (by omega)
  unfold Chip.legSilent
  by_cases two : c.bit (R.srcNet n) 29 = true
  · rw [if_pos (show (c.at t).bit (R.srcNet n) 29 = true from two), if_pos two]
    refine ⟨?_, fun i hi => ?_, Chip.writesOnly_of ?_ ?_ ?_, Chip.raises_event_of_evq rfl rfl _ _ _⟩
    · rw [Chip.netSlot, Chip.event_net, Chip.setFld_net]
      exact Chip.netSlot_modNet_same _ _ _
    · rw [Chip.bit_of_reg ((regsSame_event _ _ _).reg (srcStat_notMem n))]
      exact bits i hi
    · simp [Chip.modNet]
    · simp [Chip.modNet]
    · simp [Chip.modNet]
  · rw [if_neg (show ¬ (c.at t).bit (R.srcNet n) 29 = true from two), if_neg two]
    exact ⟨by rw [Chip.netSlot, Chip.setFld_net]; exact Chip.netSlot_modNet_same _ _ _, bits,
      Chip.writesOnly_of (by simp [Chip.modNet]) rfl rfl, Chip.raises_of_evq rfl⟩

theorem leg_falls_silent (hn : n < 256) (hleg : leg < 2) (since : (s.chip.netSlot n).since leg = some l)
    (open_ : (s.chip.netSlot n).silent leg = false) (due : elapsed t l nsPerS = true) {P : Chip → Prop} (hP : P ((s.chip.at t).legSilent n leg)) :
    Answers (.legSilenceTimeout t n leg) s P := by
  refine answers_exec (exec_legSilence hn hleg) ?_
  rw [since]
  dsimp only
  rw [if_pos (by rw [open_, due]; rfl)]
  exact hP

theorem leg_stays (hn : n < 256) (hleg : leg < 2)
    (h : (s.chip.netSlot n).silent leg = true ∨ ((s.chip.netSlot n).since leg).any (fun l => elapsed t l nsPerS) = false) :
    Gives (.legSilenceTimeout t n leg) s (s.chip.at t) := by
  refine gives_exec (exec_legSilence hn hleg) ?_
  cases since : (s.chip.netSlot n).since leg with
  | none => rfl
  | some l =>
    dsimp only
    rw [since, Option.any_some] at h
    refine if_neg ?_
    rw [Bool.and_eq_true, Bool.not_eq_true']
    rintro ⟨h1, h2⟩
    rcases h with h | h
    · exact absurd (h.symm.trans h2) (by decide)
    · exact absurd (h.symm.trans h1) (by decide)

end

/-! ### Sender reports (R160) -/

/-- R160: the part at `t` after slot `n`'s sender report lapsed, where it is `due` to. -/
def Chip.reportLapsed (c : Chip) (n : Nat) (due : Bool) : Chip :=
  if due then (c.setFld (R.srcStat n) 30 30 0).event 0x3013 .room [.val 1 n, .val 1 0] else c

section
variable {s : State} {t : Stamp} {n : Nat}

theorem exec_reportLapse (hn : n < 256) :
    exec (.senderReportLapse t n) s = .next { s with
      chip := (s.chip.at t).reportLapsed n
        (s.chip.bit (R.srcStat n) 30 && (s.chip.netSlot n).report.any (fun r => decide (10000000000 < stampGap t r.2.2))) } := by
  rw [show exec (.senderReportLapse t n) s = execSenderReportLapse t n s from rfl, execSenderReportLapse, runIf_of _ _ _ (by simp [hn])]
  dsimp only
  rw [show (s.chip.at t).netSlot n = s.chip.netSlot n from rfl, show (s.chip.at t).clk = t from rfl,
    show (10 * nsPerS : Int) = 10000000000 from by decide]
  cases (s.chip.netSlot n).report with
  | none => rw [Option.any_none, Bool.and_false]; rfl
  | some r => rw [Option.any_some]; rfl

theorem report_lapses (hn : n < 256) {seen : Stamp} {r : Nat} {i : Int} (has : (s.chip.netSlot n).report = some (r, i, seen))
    (shown : s.chip.bit (R.srcStat n) 30 = true) (old : 10000000000 < stampGap t seen) :
    Answers (.senderReportLapse t n) s (fun c => c.bit (R.srcStat n) 30 = false ∧ c.net = s.chip.net ∧
      s.chip.writesOnly c ([R.srcStat n] ++ eventRegs) ∧ s.chip.raises c [⟨0x3013, .room, t, [.val 1 n, .val 1 0]⟩]) := by
  refine answers_exec (exec_reportLapse hn) ?_
  rw [has, shown, Option.any_some, decide_eq_true old, Chip.reportLapsed, if_pos (by decide)]
  refine ⟨?_, (Chip.event_net _ _ _ _).trans (Chip.setFld_net _ _ _ _ _), Chip.writesOnly_of ?_ ?_ ?_, Chip.raises_event_of_evq rfl rfl _ _ _⟩
  · rw [Chip.bit_of_reg ((regsSame_event _ _ _).reg (srcStat_notMem n))]
    exact Chip.setFld_bit_same _ _ _ _ (by decide)
  · simp
  · simp
  · simp

end

/-! ### Sub-port links (R144, R165) -/

/-- R144: the part after a sub-port lost or gained its link, before the joins. -/
def Chip.linkMoved (c : Chip) (p sub : Nat) (up : Bool) : Chip :=
  (if up then c.setFld (R.netLink p) sub sub 1 else (c.setFld (R.netLink p) sub sub 0).addFld (R.netLink p) 23 16 1).event 0x2001 .room
    [.val 1 p, .val 1 sub, .val 1 (if up then 1 else 0)]

/-- R144, R165: the part after a report of a sub-port's link, which `moves` or not. -/
def Chip.linkReported (c : Chip) (p sub : Nat) (up moves : Bool) : Chip :=
  if moves then (if up then (c.linkMoved p sub up).joinGroups p sub none else c.linkMoved p sub up) else c

theorem netLink_notMem {p : Nat} (hp : p < 2) : R.netLink p ∉ eventRegs := by
  rw [mem_eventRegs]
  simp only [R.netLink, R.evjStat, R.evjCnt]
  omega

section
variable {s : State} {t : Stamp} {p sub : Nat}

theorem exec_subportLink (hp : p < 2) (hsub : sub < 4) (up : Bool) :
    exec (.subportLinkChange t p sub up) s = .next { s with
      chip := (s.chip.at t).linkReported p sub up (!(s.chip.bit (R.netLink p) sub == up || (up && !s.chip.subportOn p sub))) } := by
  rw [show exec (.subportLinkChange t p sub up) s = execSubportLinkChange t p sub up s from rfl, execSubportLinkChange,
    runIf_of _ _ _ (by simp [hp, hsub])]
  dsimp only
  rw [show (s.chip.at t).bit (R.netLink p) sub = s.chip.bit (R.netLink p) sub from rfl,
    show (s.chip.at t).subportOn p sub = s.chip.subportOn p sub from rfl, Chip.linkReported]
  cases still : s.chip.bit (R.netLink p) sub == up || (up && !s.chip.subportOn p sub) with
  | true => simp only [if_true, Bool.not_true, Bool.false_eq_true, if_false]
  | false => cases up <;> simp only [if_true, Bool.not_false, Bool.false_eq_true, if_false, Chip.linkMoved]

section
variable (c : Chip)

theorem regsSame_linkMoved (up : Bool) : regsSame ([R.netLink p] ++ eventRegs) c.regs ((c.at t).linkMoved p sub up).regs := by
  cases up <;> simp [Chip.linkMoved]

theorem Chip.linkMoved_bit (hp : p < 2) (hsub : sub < 4) (up : Bool) : ((c.at t).linkMoved p sub up).bit (R.netLink p) sub = up := by
  rw [Chip.linkMoved, Chip.bit_of_reg ((regsSame_event _ _ _).reg (netLink_notMem hp))]
  cases up with
  | true => exact Chip.setFld_bit_same _ _ _ _ (by omega)
  | false => exact (Chip.addFld_bit_ne _ (by omega) (by omega)).trans (Chip.setFld_bit_same _ _ _ _ (by omega))

theorem Chip.linkMoved_losses (hp : p < 2) (hsub : sub < 4) (up : Bool) :
    ((c.at t).linkMoved p sub up).fld (R.netLink p) 23 16 = if up then c.fld (R.netLink p) 23 16 else min 255 (c.fld (R.netLink p) 23 16 + 1) := by
  have kept : ∀ v, ((c.at t).setFld (R.netLink p) sub sub v).fld (R.netLink p) 23 16 = c.fld (R.netLink p) 23 16 := fun v =>
    Chip.setFld_fld_ne _ (by decide) (by omega)
  rw [Chip.linkMoved, Chip.fld_of_reg ((regsSame_event _ _ _).reg (netLink_notMem hp))]
  cases up with
  | true => exact kept 1
  | false =>
    rw [if_neg (by decide), Chip.addFld_fld_same _ _ _ _ _ (by decide), kept, if_neg (by decide),
      show (2 ^ (23 + 1 - 16) - 1 : Nat) = 255 from rfl, Nat.min_comm]


end

theorem link_lost (hp : p < 2) (hsub : sub < 4) (was : s.chip.bit (R.netLink p) sub = true) :
    Answers (.subportLinkChange t p sub false) s (fun c => c.bit (R.netLink p) sub = false ∧
      c.fld (R.netLink p) 23 16 = min 255 (s.chip.fld (R.netLink p) 23 16 + 1) ∧ c.tx = s.chip.tx ∧
      s.chip.writesOnly c ([R.netLink p] ++ eventRegs) ∧ s.chip.raises c [⟨0x2001, .room, t, [.val 1 p, .val 1 sub, .val 1 0]⟩]) := by
  refine answers_exec (exec_subportLink hp hsub false) ?_
  rw [was, Chip.linkReported, if_pos (by rfl), if_neg (by decide)]
  exact ⟨Chip.linkMoved_bit _ hp hsub _, Chip.linkMoved_losses _ hp hsub _, (Chip.event_tx _ _ _ _).trans (Chip.setFld_tx _ _ _ _ _),
    Chip.writesOnly_of (regsSame_linkMoved _ _) ((Chip.event_dram _ _ _ _).trans (Chip.setFld_dram _ _ _ _ _))
      ((Chip.event_tbw _ _ _ _).trans (Chip.setFld_tbw _ _ _ _ _)), Chip.raises_event_of_evq rfl rfl _ _ _⟩

/-- The flow table and the sub-ports' settings lie apart from what a change of link writes. -/
theorem flow_regs_notMem {q : Nat} (hp : p < 2) (hq : q < 2) (f j : Nat) : R.netFlow f ∉ [R.netLink p] ++ eventRegs ∧
    R.netFlowDaddr f j ∉ [R.netLink p] ++ eventRegs ∧ R.netFlowSaddr f j ∉ [R.netLink p] ++ eventRegs ∧
    R.netPort q ∉ [R.netLink p] ++ eventRegs := by
  simp only [List.mem_append, mem_eventRegs, List.mem_singleton, R.netFlow, R.netFlowDaddr, R.netFlowSaddr, R.netPort, R.netLink,
    R.evjStat, R.evjCnt]
  omega

theorem link_gained (hp : p < 2) (hsub : sub < 4) (was : s.chip.bit (R.netLink p) sub = false) (on : s.chip.subportOn p sub = true) :
    Answers (.subportLinkChange t p sub true) s (fun c => c.bit (R.netLink p) sub = true ∧
      c.fld (R.netLink p) 23 16 = s.chip.fld (R.netLink p) 23 16 ∧ s.chip.writesOnly c ([R.netLink p, R.netCnt p sub 3] ++ eventRegs) ∧
      s.chip.raises c [⟨0x2001, .room, t, [.val 1 p, .val 1 sub, .val 1 1]⟩] ∧
      (∀ f, f < 1024 → s.chip.flowAsks p sub none f = true → s.chip.flowJoin p sub f ∈ c.tx)) := by
  refine answers_exec (exec_subportLink hp hsub true) ?_
  rw [was, on, Chip.linkReported, if_pos (by rfl), if_pos rfl]
  have apart : R.netLink p ∉ [R.netCnt p sub 3] := by
    simp only [List.mem_singleton, R.netLink, R.netCnt]
    omega
  have joined := regsSame_joinGroups ((s.chip.at t).linkMoved p sub true) p sub none
  have moved := regsSame_linkMoved (t := t) (p := p) (sub := sub) s.chip true
  have off := flow_regs_notMem hp hp
  refine ⟨(joined.bit apart _).trans (Chip.linkMoved_bit _ hp hsub _), (joined.fld apart _ _).trans (Chip.linkMoved_losses _ hp hsub _),
    Chip.writesOnly_of ((moved.mono ?_).trans (joined.mono ?_)) ?_ ?_, ?_, fun f hf asks => ?_⟩
  · intro a ha
    simp only [List.mem_append, List.mem_cons] at ha ⊢
    tauto
  · intro a ha
    simp only [List.mem_append, List.mem_cons] at ha ⊢
    tauto
  · rw [Chip.joinGroups_dram]
    exact (Chip.event_dram _ _ _ _).trans (Chip.setFld_dram _ _ _ _ _)
  · rw [Chip.joinGroups_tbw]
    exact (Chip.event_tbw _ _ _ _).trans (Chip.setFld_tbw _ _ _ _ _)
  · have raised : s.chip.raises ((s.chip.at t).linkMoved p sub true) [⟨0x2001, .room, t, [.val 1 p, .val 1 sub, .val 1 1]⟩] :=
      Chip.raises_event_of_evq rfl rfl _ _ _
    exact raised.trans_evq (Chip.joinGroups_evq _ _ _ _)
  · rw [← Chip.flowJoin_of_same moved (off f 0).1 (fun j => (off f j).2.1) (fun j => (off f j).2.2.1)]
    exact Chip.joinGroups_joins hp hsub hf ((Chip.subportOn_of_same moved (off f 0).2.2.2 sub).trans on)
      ((Chip.flowAsks_of_same moved (off f 0).1 (fun j => (off f j).2.1) (off f 0).2.2.2 none).trans asks)

end

/-- Settles O35: a leg, a report and a link lapse at their times, and a sub-port that gains its link joins its flows' groups again. -/
theorem legsReportsAndLinksLapse : Obligations.LegsReportsAndLinksLapse := by
  unfold Obligations.LegsReportsAndLinksLapse
  refine ⟨?_, ?_, ?_, ?_, ?_, ?_, ?_, ?_⟩
  · intro s t l n hn since open_ due
    obtain ⟨slot, bits, only, raised⟩ := Chip.legSilent_says (t := t) s.chip n 0 (by decide)
    exact leg_falls_silent hn (by decide) (show (s.chip.netSlot n).since 0 = some l from since) open_ due
      ⟨(congrArg NetSlot.silent0 slot).trans rfl, (congrArg NetSlot.silent1 slot).trans rfl, bits 28 (by decide), bits 29 (by decide),
        only, raised⟩
  · intro s t l n hn since open_ due
    obtain ⟨slot, bits, only, raised⟩ := Chip.legSilent_says (t := t) s.chip n 1 (by decide)
    exact leg_falls_silent hn (by decide) (show (s.chip.netSlot n).since 1 = some l from since) open_ due
      ⟨(congrArg NetSlot.silent1 slot).trans rfl, (congrArg NetSlot.silent0 slot).trans rfl, bits 29 (by decide), bits 28 (by decide),
        only, raised⟩
  · intro s t n leg hn hleg h
    exact leg_stays hn hleg h
  · intro s t seen n r i hn has shown old
    exact report_lapses hn has shown old
  · intro s t n hn h
    refine gives_exec (exec_reportLapse hn) ((if_neg ?_ : Chip.reportLapsed _ _ _ = _))
    rw [Bool.and_eq_true]
    rintro ⟨h1, h2⟩
    rcases h with h | h
    · exact absurd (h.symm.trans h1) (by decide)
    · exact absurd (h.symm.trans h2) (by decide)
  · intro s t p sub hp hsub was
    exact link_lost hp hsub was
  · intro s t p sub hp hsub was on
    obtain ⟨s', hs', hq, bit, losses, only, raised, joins⟩ := link_gained (t := t) hp hsub was on
    refine ⟨s', hs', hq, bit, losses, only, raised, fun f hf en port sb mc => joins f hf ?_⟩
    simp only [Chip.flowAsks, en, port, sb, mc, beq_self_eq_true, Bool.and_self]
  · intro s t p sub up hp hsub h
    refine gives_exec (exec_subportLink hp hsub up) ((if_neg ?_ : Chip.linkReported _ _ _ _ _ = _))
    rcases h with h | ⟨rfl, h⟩
    · rw [h, beq_self_eq_true, Bool.true_or, Bool.not_true]
      decide
    · rw [h, Bool.not_false, Bool.and_true, Bool.or_true, Bool.not_true]
      decide

end Sys2Proof.Machine

/-! ## What frames leave as it is: the rest of the part beside registers, bytes, events, slots and the twin link -/

namespace Sys2Proof.Machine

/-- The part without what beginning and finishing a frame may change. -/
def Chip.rest (c : Chip) : Chip :=
  { c with regs := [], dram := [], evq := [], evDrop := none, rate := [], tx := [], chk := [], bol := {}, slots := [] }

/-- What does not look at those parts reads the same. -/
theorem Chip.of_rest {α : Type} {c d : Chip} (g : Chip → α) (hg : ∀ x, g x.rest = g x) (h : d.rest = c.rest) : g d = g c := by
  rw [← hg d, h, hg]

section
variable (c : Chip)

@[simp] theorem rest_setReg (a : Nat) (w : Word) : (c.setReg a w).rest = c.rest := rfl
@[simp] theorem rest_setNat (a v : Nat) : (c.setNat a v).rest = c.rest := rfl
@[simp] theorem rest_setFld (a hi lo v : Nat) : (c.setFld a hi lo v).rest = c.rest := rfl
@[simp] theorem rest_setWide (a b v : Nat) : (c.setWide a b v).rest = c.rest := rfl
@[simp] theorem rest_addFld (a hi lo v : Nat) : (c.addFld a hi lo v).rest = c.rest := rfl
@[simp] theorem rest_bumpBy (a k : Nat) : (c.bumpBy a k).rest = c.rest := rfl
@[simp] theorem rest_bump (a : Nat) : (c.bump a).rest = c.rest := rest_bumpBy c a 1
@[simp] theorem rest_publish (a : Nat) : (c.publish a).rest = c.rest := rfl
@[simp] theorem rest_modSlot (n : Nat) (f : Slot → Slot) : (c.modSlot n f).rest = c.rest := rfl
@[simp] theorem rest_modChk (n : Nat) (f : ChkUnit → ChkUnit) : (c.modChk n f).rest = c.rest := rfl
@[simp] theorem rest_modBuf (n i : Nat) (f : SlotBuf → SlotBuf) : (c.modBuf n i f).rest = c.rest := rfl
@[simp] theorem rest_modDone (n seq : Nat) (f : Finished → Finished) : (c.modDone n seq f).rest = c.rest := rfl
@[simp] theorem rest_send (m : TxMsg) : (c.send m).rest = c.rest := rfl

@[simp] theorem rest_bol (b : Bolral) : ({ c with bol := b } : Chip).rest = c.rest := rfl

@[simp] theorem rest_raise (e : Ev) : (c.raise e).rest = c.rest := by
  unfold Chip.raise
  split
  · rfl
  · exact rest_bump c (R.evjCnt 1)

@[simp] theorem rest_event (code : Nat) (p : FaultAddr) (f : List CField) : (c.event code p f).rest = c.rest := rest_raise c _

@[simp] theorem rest_raiseLimitedBy (u k : Nat) (e : Ev) : (c.raiseLimitedBy u e k).rest = c.rest := by
  unfold Chip.raiseLimitedBy
  extract_lets key w free w'
  split
  · exact rest_raise _ _
  · rfl

@[simp] theorem rest_eventLimited (u code : Nat) (p : FaultAddr) (f : List CField) : (c.eventLimited u code p f).rest = c.rest :=
  rest_raiseLimitedBy c u 1 _

@[simp] theorem rest_dramWrite (a : Nat) (l : List Byte) : (c.dramWrite a l).rest = c.rest := by
  unfold Chip.dramWrite
  split <;> rfl

@[simp] theorem rest_contentIn (base : Nat) (l : List (Nat × List Byte)) : (c.contentIn base l).rest = c.rest :=
  forL_keeps Chip.rest (fun _ _ x => rest_dramWrite x _ _)

@[simp] theorem rest_refuseBeyond (g a k : Nat) : (c.refuseBeyond g a k).rest = c.rest := by
  unfold Chip.refuseBeyond
  split
  · exact rest_event _ _ _ _
  · rfl

/-! ### The twin link -/

@[simp] theorem rest_chkFinish (u : Nat) : (c.chkFinish u).rest = c.rest := by
  simp [Chip.chkFinish, apply_ite Chip.rest]

@[simp] theorem rest_chkRun (u : Nat) (l : List Byte) : (c.chkRun u l).1.rest = c.rest := by
  rw [Chip.chkRun, rest_chkFinish]
  rfl

theorem rest_sendFlit (body : List Byte) : (c.sendFlit body).rest = c.rest := by
  unfold Chip.sendFlit
  dsimp only
  rw [rest_send, rest_bump, rest_bol, rest_chkRun]

@[simp] theorem rest_bolSend (type : Nat) (payload : List Byte) : (c.bolSend type payload).rest = c.rest := by
  unfold Chip.bolSend
  split
  · exact forL_keeps Chip.rest (fun _ _ x => rest_sendFlit x _)
  · rfl

@[simp] theorem rest_sendNotice (n key : Nat) (v : Verdict) : (c.sendNotice n key v).rest = c.rest := by
  rw [Chip.sendNotice, rest_bolSend, rest_bump]

/-! ### Frames -/

@[simp] theorem rest_putFrameRec (n i : Nat) (r : FrameRec) : (c.putFrameRec n i r).rest = c.rest := rest_dramWrite c _ _

@[simp] theorem rest_agreeFrame (n i seq : Nat) (e cap : Stamp) (derived lost : Bool) : (c.agreeFrame n i seq e cap derived lost).rest = c.rest := by
  obtain ⟨k, f, h⟩ := c.agreeFrame_eq n i seq e cap derived lost
  rw [h]
  split
  · split
    · rw [rest_bump, rest_modDone, rest_putFrameRec]
    · rw [rest_modDone, rest_putFrameRec]
  · rfl

@[simp] theorem rest_decideFrame (n : Nat) (g : Agree) (own twin : Verdict) (late : Bool) : (c.decideFrame n g own twin late).rest = c.rest := by
  unfold Chip.decideFrame
  split
  · split
    · extract_lets e d
      have agreed : d.rest = c.rest := by
        unfold d
        split
        · simp
        · split <;> simp
      clear_value d
      split
      · rw [rest_eventLimited, rest_bump, agreed]
      · exact agreed
    · rfl
  · rfl

theorem rest_settleOne (n : Nat) (late : Bool) (a : Agree) : (Chip.settleOne n late a c).rest = c.rest := by
  unfold Chip.settleOne
  split
  · exact rest_decideFrame _ _ _ _ _ _
  · rfl

@[simp] theorem rest_settle (n : Nat) (late : Bool) : (c.settle n late).rest = c.rest := by
  rw [Chip.settle_eq]
  exact (forL_keeps Chip.rest (fun a _ x => rest_settleOne x n late a)).trans rfl

@[simp] theorem rest_firstVerdict (n key : Nat) (frame : Option (Nat × Nat)) (v : Verdict) : (c.firstVerdict n key frame v).rest = c.rest := by
  unfold Chip.firstVerdict
  split
  · rfl
  · rw [Chip.ownVerdict_eq, rest_settle, rest_sendNotice]
    rfl

@[simp] theorem rest_frameBegin (n key : Nat) : (c.frameBegin n key).1.rest = c.rest := by
  cases h : c.freeBuf n with
  | some i => rw [Chip.frameBegin_free c n key h, rest_putFrameRec]; rfl
  | none =>
    obtain ⟨v, eq⟩ := Chip.frameBegin_none c n key h
    have counted : (c.noBuffer n).rest = c.rest := by
      rw [Chip.noBuffer, rest_event, rest_bump]
      rfl
    rw [eq]
    dsimp only
    split
    · rw [rest_firstVerdict, counted]
    · exact counted

@[simp] theorem rest_tellStamp (n : Nat) (arrival : Stamp) (sup : Option Stamp) : (c.tellStamp n arrival sup).rest = c.rest := by
  unfold Chip.tellStamp
  split
  · exact rest_event _ _ _ _
  · rfl

@[simp] theorem rest_countFinish (n seq missing code : Nat) : (c.countFinish n seq missing code).rest = c.rest := by
  unfold Chip.countFinish
  dsimp only
  split <;> split <;> simp

@[simp] theorem rest_picFinish (n i : Nat) (p : Pic) (code cause : Nat) (arrival : Stamp) (sup : Option Stamp) (missing : Nat) :
    (c.picFinish n i p code cause arrival sup missing).rest = c.rest := by
  by_cases h : (c.frameRec n i).code = 1
  · obtain ⟨k, sig, d, key, v, eq⟩ := Chip.picFinish_eq c n i p code cause arrival sup missing h
    have stamped : (c.stamped n p arrival sup).rest = c.rest := by rw [Chip.stamped, rest_tellStamp, rest_refuseBeyond]
    have finished : ∀ r, ((c.stamped n p arrival sup).finished n i missing r d).rest = c.rest := fun r => by
      rw [Chip.finished, rest_countFinish, rest_modSlot, rest_putFrameRec, stamped]
    rw [eq]
    dsimp only
    generalize ((c.stamped n p arrival sup).agreed n && (c.stamped n p arrival sup).paired) = waits
    generalize Machine.finishRec _ _ _ _ _ _ _ _ _ = r
    cases waits with
    | true => rw [if_pos rfl, rest_firstVerdict, finished]
    | false => rw [if_neg (by decide), finished]
  · unfold Chip.picFinish
    extract_lets r
    rw [if_pos (show (r.code != 1) = true from bne_iff_ne.mpr h)]

@[simp] theorem rest_frameFinish (n i code cause : Nat) (arrival : Stamp) (sup : Option Stamp) (missing : Nat) :
    (c.frameFinish n i code cause arrival sup missing).rest = c.rest := rest_picFinish c _ _ _ _ _ _ _ _

end

/-! ### The registers of frames -/

/-- The registers that beginning and finishing a frame of slot `n` may write. -/
def frameRegs (n : Nat) : List Nat := [R.srcCnt n 0, R.srcCnt n 1, R.srcCnt n 2, R.srcStat n] ++ verdictRegs

theorem frameRegs_of_verdict {n a : Nat} (h : a ∈ verdictRegs) : a ∈ frameRegs n := List.mem_append_right _ h

theorem frameRegs_of_event {n a : Nat} (h : a ∈ eventRegs) : a ∈ frameRegs n :=
  frameRegs_of_verdict (List.mem_append_left _ (List.mem_append_right _ h))

theorem frameRegs_of_finish {n a : Nat} (h : a ∈ finishRegs n) : a ∈ frameRegs n := by
  simp only [finishRegs, List.mem_append, List.mem_cons, List.not_mem_nil, or_false] at h
  rcases h with (rfl | rfl | rfl) | h
  · simp [frameRegs]
  · simp [frameRegs]
  · simp [frameRegs]
  · exact frameRegs_of_event h

section
variable (c : Chip)

theorem regsSame_frameBegin (n key : Nat) : regsSame (frameRegs n) c.regs (c.frameBegin n key).1.regs := by
  cases h : c.freeBuf n with
  | some i =>
    rw [Chip.frameBegin_free c n key h, Chip.putFrameRec_regs]
    exact regsSame.refl
  | none =>
    obtain ⟨v, eq⟩ := Chip.frameBegin_none c n key h
    have counted : regsSame (frameRegs n) c.regs (c.noBuffer n).regs := by
      rw [Chip.noBuffer, regsSame_event_iff (frameRegs_of_event (by simp)) (frameRegs_of_event (by simp)),
        regsSame_bump_iff (by simp [frameRegs])]
      exact regsSame.refl
    rw [eq]
    dsimp only
    split
    · exact counted.trans ((Chip.Judged.firstVerdict _ n key none v).regs.mono fun a => frameRegs_of_verdict)
    · exact counted

theorem regsSame_picFinish (n i : Nat) (p : Pic) (code cause : Nat) (arrival : Stamp) (sup : Option Stamp) (missing : Nat) :
    regsSame (frameRegs n) c.regs (c.picFinish n i p code cause arrival sup missing).regs := by
  by_cases h : (c.frameRec n i).code = 1
  · obtain ⟨k, sig, d, f, rfl, judged, -⟩ := Chip.picFinish_says h p code cause arrival sup missing
    exact (((regsSame_stamped c n p arrival sup).mono fun a => frameRegs_of_event).trans
      ((regsSame_finished _ _ _ _ _ _).mono fun a => frameRegs_of_finish)).trans (judged.regs.mono fun a => frameRegs_of_verdict)
  · unfold Chip.picFinish
    extract_lets r
    rw [if_pos (show (r.code != 1) = true from bne_iff_ne.mpr h)]
    exact regsSame.refl

theorem Chip.putFrameRec_bit (n i : Nat) (r : FrameRec) (a j : Nat) : (c.putFrameRec n i r).bit a j = c.bit a j :=
  (regsSame.bit (l := []) (by rw [Chip.putFrameRec_regs]; exact regsSame.refl) (List.not_mem_nil) j)

theorem srcStat_notMem_verdict {n : Nat} (hn : n < 256) : R.srcStat n ∉ verdictRegs := by
  simp only [verdictRegs, decisionRegs, List.mem_append, List.mem_cons, List.not_mem_nil, or_false, mem_eventRegs, mem_bolRegs]
  simp only [R.srcStat, R.twnCnt, R.evjStat, R.evjCnt, R.bolCnt, R.chkRes, R.chkResAlive, R.chkResLength, R.chkResCheckLo, R.chkResCheckHi, R.chkCnt]
  omega

/-- A frame that ends sets bit 31 of `SRC_STAT` and no other. -/
theorem Chip.picFinish_srcStat {n : Nat} (hn : n < 256) (i : Nat) (p : Pic) (code cause : Nat) (arrival : Stamp) (sup : Option Stamp)
    (missing : Nat) {j : Nat} (hj : j < 31) : (c.picFinish n i p code cause arrival sup missing).bit (R.srcStat n) j = c.bit (R.srcStat n) j := by
  by_cases h : (c.frameRec n i).code = 1
  · obtain ⟨k, sig, d, f, rfl, judged, -⟩ := Chip.picFinish_says h p code cause arrival sup missing
    have counted : ∀ (x : Chip) (seq missing code : Nat), (x.countFinish n seq missing code).bit (R.srcStat n) j = x.bit (R.srcStat n) j := by
      intro x seq missing code
      have apart : ∀ m, R.srcStat n ≠ R.srcCnt n m ∨ 31 < m := fun m => by
        simp only [R.srcStat, R.srcCnt]
        omega
      have two := (apart 2).resolve_right (by decide)
      have zero := (apart 0).resolve_right (by decide)
      unfold Chip.countFinish
      extract_lets d1 d2
      have bits : d2.bit (R.srcStat n) j = x.bit (R.srcStat n) j := by
        have first : d1.bit (R.srcStat n) j = x.bit (R.srcStat n) j :=
          (Chip.setFld_bit_ne _ (by omega) (by omega)).trans (Chip.bump_bit_other _ zero _)
        unfold d2
        split
        · exact first
        · rw [Chip.bump_bit_other _ two, first]
      split
      · exact (regsSame.bit (l := eventRegs) (by simp) (srcStat_notMem n) j).trans bits
      · exact bits
    rw [judged.regs.bit (srcStat_notMem_verdict hn), Chip.finished, counted, Chip.modSlot_bit,
      Chip.putFrameRec_bit, (regsSame_stamped c n p arrival sup).bit (srcStat_notMem n)]
  · unfold Chip.picFinish
    extract_lets r
    rw [if_pos (show (r.code != 1) = true from bne_iff_ne.mpr h)]

theorem Chip.frameBegin_srcStat {n : Nat} (hn : n < 256) (key j : Nat) : (c.frameBegin n key).1.bit (R.srcStat n) j = c.bit (R.srcStat n) j := by
  cases h : c.freeBuf n with
  | some i =>
    rw [Chip.frameBegin_free c n key h]
    exact Chip.putFrameRec_bit _ _ _ _ _ _
  | none =>
    obtain ⟨v, eq⟩ := Chip.frameBegin_none c n key h
    have counted : (c.noBuffer n).bit (R.srcStat n) j = c.bit (R.srcStat n) j := by
      rw [Chip.noBuffer, Chip.bit_of_reg ((regsSame_event _ _ _).reg (srcStat_notMem n)), Chip.bump_bit_other]
      · rfl
      · simp only [R.srcStat, R.srcCnt]
        omega
    rw [eq]
    dsimp only
    split
    · rw [(Chip.Judged.firstVerdict _ n key none v).regs.bit (srcStat_notMem_verdict hn), counted]
    · exact counted

end

end Sys2Proof.Machine

/-! ## The merge stage (R152, R158): what delivering a packet leaves as it is -/

namespace Sys2Proof.Machine

/-- The registers that delivering a packet of slot `n` may write. -/
def netRegs (n : Nat) : List Nat := [R.srcCnt n 3, R.srcCnt n 6] ++ frameRegs n

theorem netRegs_of_frame {n a : Nat} (h : a ∈ frameRegs n) : a ∈ netRegs n := List.mem_append_right _ h

theorem netRegs_of_event {n a : Nat} (h : a ∈ eventRegs) : a ∈ netRegs n := netRegs_of_frame (frameRegs_of_event h)

/-- What delivering packets of slot `n` leaves as it is: the held packets, the senders, and every number delivered before. -/
structure Chip.Delivers (n : Nat) (c d : Chip) : Prop where
  regs : regsSame (netRegs n) c.regs d.regs
  legs : n < 256 → ∀ j, j < 31 → d.bit (R.srcStat n) j = c.bit (R.srcStat n) j
  held : d.held = c.held
  clk : d.clk = c.clk
  trackers : ∀ m, (d.netSlot m).trackers = (c.netSlot m).trackers
  delivered : ∀ m k, k ∈ (c.netSlot m).delivered → k ∈ (d.netSlot m).delivered

theorem Chip.netSlot_modNet (c : Chip) (n m : Nat) (f : NetSlot → NetSlot) :
    (c.modNet n f).netSlot m = if m = n then f (c.netSlot n) else c.netSlot m := mapGet_mapPut _ _ _ _ _

section
variable {n : Nat} {c d e : Chip}

theorem Chip.Delivers.refl : Chip.Delivers n c c := ⟨regsSame.refl, fun _ _ _ => rfl, rfl, rfl, fun _ => rfl, fun _ _ h => h⟩

theorem Chip.Delivers.trans (h1 : Chip.Delivers n c d) (h2 : Chip.Delivers n d e) : Chip.Delivers n c e :=
  ⟨h1.regs.trans h2.regs, fun hn j hj => (h2.legs hn j hj).trans (h1.legs hn j hj), h2.held.trans h1.held, h2.clk.trans h1.clk,
    fun m => (h2.trackers m).trans (h1.trackers m), fun m k h => h2.delivered m k (h1.delivered m k h)⟩

/-- An update that leaves the rest of the part as it is. -/
theorem Chip.Delivers.ofRest (hr : d.rest = c.rest) (regs : regsSame (netRegs n) c.regs d.regs)
    (legs : n < 256 → ∀ j, j < 31 → d.bit (R.srcStat n) j = c.bit (R.srcStat n) j) : Chip.Delivers n c d := by
  have net : ∀ m, d.netSlot m = c.netSlot m := fun m => Chip.of_rest (·.netSlot m) (fun _ => rfl) hr
  exact ⟨regs, legs, Chip.of_rest Chip.held (fun _ => rfl) hr, Chip.of_rest Chip.clk (fun _ => rfl) hr, fun m => by rw [net],
    fun m k h => by rw [net]; exact h⟩

theorem Chip.Delivers.modNet (c : Chip) (f : NetSlot → NetSlot) (ht : (f (c.netSlot n)).trackers = (c.netSlot n).trackers)
    (hd : ∀ k ∈ (c.netSlot n).delivered, k ∈ (f (c.netSlot n)).delivered) : Chip.Delivers n c (c.modNet n f) := by
  refine ⟨regsSame.refl, fun _ _ _ => rfl, rfl, rfl, fun m => ?_, fun m k h => ?_⟩
  · rw [Chip.netSlot_modNet]
    split
    next eq => rw [eq, ht]
    next => rfl
  · rw [Chip.netSlot_modNet]
    split
    next eq => exact hd k (eq ▸ h)
    next => exact h

theorem srcStat_ne_srcCnt (n m j : Nat) : R.srcStat n ≠ R.srcCnt m j ∨ 31 < j := by
  simp only [R.srcStat, R.srcCnt]
  omega

theorem Chip.Delivers.bumpBy (c : Chip) (k : Nat) {j : Nat} (hj : j = 3 ∨ j = 6) : Chip.Delivers n c (c.bumpBy (R.srcCnt n j) k) := by
  refine .ofRest (rest_bumpBy c _ k) ?_ fun _ i hi => Chip.setFld_bit_ne _ (by omega) (.inl ((srcStat_ne_srcCnt n n j).resolve_right (by omega)))
  rcases hj with rfl | rfl <;> simp [netRegs]

theorem Chip.Delivers.each {β : Type} {q : List β} {f : β → Chip → Chip} (hf : ∀ x ∈ q, ∀ c, Chip.Delivers n c (f x c)) (c : Chip) :
    Chip.Delivers n c (forL q f c) := by
  unfold Machine.forL
  induction q generalizing c with
  | nil => exact .refl
  | cons x q ih => exact (hf x List.mem_cons_self c).trans (ih (fun y hy => hf y (List.mem_cons_of_mem _ hy)) _)

/-! ### The end of a network frame (R158, R161) -/

/-- R158: the frame with timestamp `ts` is open no longer. -/
def NetSlot.close (x : NetSlot) (ts : Nat) : NetSlot :=
  { x with openFrames := x.openFrames.filter (fun g => g.ts != ts),
           stamps := x.stamps.map (fun e => if e.ts == ts then { e with finished := true } else e) }

/-- R158: the part with that frame closed and its missing packets counted. -/
def Chip.netClosed (c : Chip) (n ts missing : Nat) : Chip := (c.modNet n (·.close ts)).bumpBy (R.srcCnt n 3) missing

@[simp] theorem rest_storeUnit (c : Chip) (n : Nat) (nals : List (List Byte)) : (c.storeUnit n nals).1.rest = c.rest := by
  unfold Chip.storeUnit
  dsimp only
  split
  · rfl
  · rw [rest_modSlot, rest_dramWrite]

theorem Chip.storeUnit_regs (c : Chip) (n : Nat) (nals : List (List Byte)) : (c.storeUnit n nals).1.regs = c.regs := by
  unfold Chip.storeUnit
  dsimp only
  split
  · rfl
  · rw [Chip.modSlot_regs, Chip.dramWrite_regs]

/-- R161: the access unit of a frame goes to decoding. -/
def Chip.handOver (c : Chip) (n : Nat) (f : NetFrame) (whole : Bool) (missing : Nat) (nals : List (List Byte)) : Chip :=
  { (c.storeUnit n nals).1 with
    aus := (c.storeUnit n nals).1.aus ++ [{ slot := n, ts := f.ts, arrival := f.arrival, whole := whole, missing := missing, nals := nals,
                                            addr := (c.storeUnit n nals).2.1, len := (c.storeUnit n nals).2.2 }] }

theorem Chip.finishNet_none {ts : Nat} (h : (c.netSlot n).openFrames.find? (fun f => f.ts == ts) = none) (whole : Bool) :
    c.finishNet n ts whole = c := by
  unfold Chip.finishNet
  dsimp only
  rw [h]

theorem Chip.finishNet_some {ts : Nat} {f : NetFrame} (h : (c.netSlot n).openFrames.find? (fun f => f.ts == ts) = some f) (whole : Bool) :
    ∃ missing, ∃ nals sup, c.finishNet n ts whole =
      if (c.netClosed n ts missing).slotKind n == 2 then
        match f.buf with
        | some i => (c.netClosed n ts missing).frameFinish n i (if whole then 2 else 6) 0 f.arrival sup missing
        | none => c.netClosed n ts missing
      else (c.netClosed n ts missing).handOver n f whole missing nals := by
  have stamp : f.ts = ts := by simpa using List.find?_some h
  unfold Chip.finishNet
  dsimp only
  rw [h]
  dsimp only
  simp only [← stamp]
  exact ⟨_, _, _, rfl⟩

/-- R158, R161: what the end of a network frame does. -/
theorem Chip.finishNet_says {ts : Nat} {f : NetFrame} (h : (c.netSlot n).openFrames.find? (fun f => f.ts == ts) = some f) (whole : Bool) :
    (c.finishNet n ts whole).netSlot n = (c.netSlot n).close ts ∧ Chip.Delivers n c (c.finishNet n ts whole) ∧
      (c.slotKind n ≠ 2 → (c.finishNet n ts whole).aus.length = c.aus.length + 1) := by
  obtain ⟨missing, nals, sup, eq⟩ := Chip.finishNet_some h whole
  have closed : Chip.Delivers n c (c.netClosed n ts missing) :=
    (Chip.Delivers.modNet c (·.close ts) rfl fun _ h => h).trans (.bumpBy _ _ (.inl rfl))
  have slot : (c.netClosed n ts missing).netSlot n = (c.netSlot n).close ts := by
    show (c.modNet n (·.close ts)).netSlot n = _
    exact Chip.netSlot_modNet_same _ _ _
  have aus : (c.netClosed n ts missing).aus = c.aus := rfl
  have kind : (c.netClosed n ts missing).slotKind n = c.slotKind n := by
    have apart : R.srcCfg n ≠ R.srcCnt n 3 := by
      unfold R.srcCfg R.srcCnt
      omega
    have reg : (c.netClosed n ts missing).reg (R.srcCfg n) = c.reg (R.srcCfg n) := by
      rw [Chip.netClosed, Chip.bumpBy_reg, if_neg apart]
      rfl
    rw [Chip.slotKind, Chip.bit_of_reg reg, Chip.fld_of_reg reg, Chip.slotKind]
  rw [eq, kind]
  generalize c.netClosed n ts missing = d at closed slot aus
  by_cases two : c.slotKind n = 2
  · rw [if_pos (by rw [two]; rfl)]
    cases f.buf with
    | none => exact ⟨slot, closed, fun h => absurd two h⟩
    | some i =>
      have rest := rest_frameFinish d n i (if whole then 2 else 6) 0 f.arrival sup missing
      refine ⟨(Chip.of_rest (·.netSlot n) (fun _ => rfl) rest).trans slot, closed.trans (.ofRest rest ?_ fun hn j hj => ?_),
        fun h => absurd two h⟩
      · exact (regsSame_picFinish _ _ _ _ _ _ _ _ _).mono fun a => netRegs_of_frame
      · exact Chip.picFinish_srcStat _ hn _ _ _ _ _ _ _ hj
  · rw [if_neg (by simpa using two)]
    have rest := rest_storeUnit d n nals
    have regs := Chip.storeUnit_regs d n nals
    refine ⟨(Chip.of_rest (·.netSlot n) (fun _ => rfl) rest).trans slot, closed.trans ?_, fun _ => ?_⟩
    · have stored : Chip.Delivers n d (d.storeUnit n nals).1 :=
        .ofRest rest (by rw [regs]; exact regsSame.refl) fun _ j _ => by
          rw [Chip.bit, Chip.fld, Chip.reg, regs, ← Chip.reg, ← Chip.fld, ← Chip.bit]
      exact ⟨stored.regs, stored.legs, stored.held, stored.clk, stored.trackers, stored.delivered⟩
    · have same : (d.storeUnit n nals).1.aus = d.aus := Chip.of_rest Chip.aus (fun _ => rfl) rest
      rw [← aus, ← same]
      exact List.length_append

theorem Chip.Delivers.finishNet (c : Chip) (ts : Nat) (whole : Bool) : Chip.Delivers n c (c.finishNet n ts whole) := by
  cases h : (c.netSlot n).openFrames.find? (fun f => f.ts == ts) with
  | none => rw [Chip.finishNet_none h]; exact .refl
  | some f => exact (Chip.finishNet_says h whole).2.1

/-! ### A delivered packet (R152, R158) -/

theorem Chip.Delivers.frameBegin (c : Chip) (key : Nat) : Chip.Delivers n c (c.frameBegin n key).1 :=
  .ofRest (rest_frameBegin c n key) ((regsSame_frameBegin c n key).mono fun _ => netRegs_of_frame) fun hn j _ =>
    Chip.frameBegin_srcStat c hn key j

theorem Chip.Delivers.joinFrame (c : Chip) (p : Packet) : Chip.Delivers n c (c.joinFrame n p) := by
  unfold Chip.joinFrame
  extract_lets x
  split
  · exact .refl
  · have begun : Chip.Delivers n c (if c.slotKind n == 2 then c.frameBegin n p.ts else (c, none)).1 := by
      split
      · exact .frameBegin c p.ts
      · exact .refl
    generalize (if c.slotKind n == 2 then c.frameBegin n p.ts else (c, none)) = r at begun
    obtain ⟨d, b⟩ := r
    exact begun.trans (.modNet _ _ rfl fun _ h => h)

theorem Chip.Delivers.dramWrite (c : Chip) (a : Nat) (l : List Byte) : Chip.Delivers n c (c.dramWrite a l) :=
  .ofRest (rest_dramWrite c a l) (by rw [Chip.dramWrite_regs]; exact regsSame.refl) fun _ j _ => by
    rw [Chip.bit, Chip.fld, Chip.reg, Chip.dramWrite_regs, ← Chip.reg, ← Chip.fld, ← Chip.bit]

/-- R152: the number of a packet joins those delivered. -/
def NetSlot.push (x : NetSlot) (p : Packet) (now : Stamp) : NetSlot :=
  { x with highest := some (max p.seq (x.highest.getD p.seq)), delivered := p.seq :: x.delivered,
           stamps := stampLog (max p.seq (x.highest.getD p.seq)) p.ts p.seq now x.stamps }

/-- R152, R158: what delivering a packet does. -/
theorem Chip.deliver_says (c : Chip) (n : Nat) (p : Packet) :
    Chip.Delivers n c (c.deliver n p) ∧ p.seq ∈ ((c.deliver n p).netSlot n).delivered := by
  have pushed : Chip.Delivers n c (c.modNet n (·.push p c.clk)) := .modNet _ _ rfl fun k h => List.mem_cons_of_mem _ h
  have has : p.seq ∈ ((c.modNet n (·.push p c.clk)).netSlot n).delivered := by
    rw [Chip.netSlot_modNet_same]
    exact List.mem_cons_self
  suffices later : Chip.Delivers n (c.modNet n (·.push p c.clk)) (c.deliver n p) from ⟨pushed.trans later, later.delivered n _ has⟩
  unfold Chip.deliver
  extract_lets now d fin d1 d2 d3
  show Chip.Delivers n d _
  split
  · exact .bumpBy _ _ (.inr rfl)
  · have joined : Chip.Delivers n d d2 := (Chip.Delivers.joinFrame d p).trans (.modNet _ _ rfl fun _ h => h)
    have stored : Chip.Delivers n d d3 := by
      refine joined.trans ?_
      unfold d3
      split
      · exact .each (fun _ _ c => .dramWrite c _ _) _
      · exact .refl
    refine stored.trans (.each (fun f _ x => ?_) _)
    dsimp only
    split
    · split
      · exact .finishNet _ _ _
      · exact .refl
    · exact .refl

end

end Sys2Proof.Machine

/-! ## The merge stage (R151 to R155, R345): senders, the lead claim and the windows of held packets -/

namespace Sys2Proof.Machine

/-! ### The store of held packets (R154) -/

theorem regsSame_syncHold (c : Chip) : regsSame [R.netHold] c.regs c.syncHold.regs := by
  unfold Chip.syncHold
  simp

@[simp] theorem rest_syncHold (c : Chip) : c.syncHold.rest = c.rest := rfl

/-- R154: `NET_HOLD` shows the number of held packets. -/
theorem Chip.syncHold_count (c : Chip) : c.syncHold.fld R.netHold 12 0 = c.held.length % 8192 := by
  unfold Chip.syncHold
  rw [Chip.setFld_fld_ne _ (by decide) (.inr (.inl (by decide))), Chip.setFld_fld_same _ _ _ _ _ (by decide)]
  rfl

/-! ### The lead claim (R152, R155) -/

/-- R155: the lead claim of slot `n` is `new` from now on. -/
def Chip.newLead (c : Chip) (n new : Nat) : Chip :=
  (c.setNat (R.srcLead n) new).event 0x2002 .room [.val 1 n, .val 4 (c.reg (R.srcLead n)).toNat, .val 4 new]

/-- R152: a held packet that reaches the lead claim is delivered. -/
def releaseHeld (n new : Nat) (h : HeldPacket) (c : Chip) : Chip :=
  if h.slot == n && decide (new ≤ h.claim) && !(c.netSlot n).delivered.contains h.pkt.seq then
    ({ c with held := c.held.erase h } : Chip).deliver n h.pkt
  else c

theorem Chip.refreshLead_eq (c : Chip) (n : Nat) : c.refreshLead n =
    if (c.reg (R.srcLead n)).toNat == c.leadNow n then c
    else (forL c.held (releaseHeld n (c.leadNow n)) (c.newLead n (c.leadNow n))).syncHold := by
  have held : (c.newLead n (c.leadNow n)).held = c.held := (Chip.event_held _ _ _ _).trans (Chip.setNat_held _ _ _)
  unfold Chip.refreshLead
  dsimp only
  split
  · rfl
  · exact congrArg (fun l => (forL l (releaseHeld n (c.leadNow n)) (c.newLead n (c.leadNow n))).syncHold) held

theorem srcLead_notMem {n : Nat} (hn : n < 256) : R.srcLead n ∉ netRegs n ∧ R.srcLead n ∉ eventRegs ∧ R.srcLead n ∉ [R.netHold] := by
  simp only [netRegs, frameRegs, verdictRegs, decisionRegs, List.mem_append, List.mem_cons, List.not_mem_nil, or_false, mem_eventRegs,
    mem_bolRegs]
  simp only [R.srcLead, R.srcStat, R.srcCnt, R.netHold, R.twnCnt, R.evjStat, R.evjCnt, R.bolCnt, R.chkRes, R.chkResAlive, R.chkResLength,
    R.chkResCheckLo, R.chkResCheckHi, R.chkCnt]
  omega

section
variable (c : Chip) (n new : Nat)

theorem regsSame_newLead : regsSame (R.srcLead n :: eventRegs) c.regs (c.newLead n new).regs := by
  rw [Chip.newLead]
  simp

@[simp] theorem rest_newLead : (c.newLead n new).rest = c.rest := by rw [Chip.newLead, rest_event, rest_setNat]

theorem Chip.newLead_lead {n : Nat} (hn : n < 256) : (c.newLead n new).reg (R.srcLead n) = BitVec.ofNat 32 new := by
  rw [Chip.newLead, (regsSame_event _ _ _).reg (srcLead_notMem hn).2.1]
  exact Chip.setReg_reg_same _ _ _

/-- What releasing held packets of slot `n` leaves as it is. -/
theorem releaseHeld_says (h : HeldPacket) : regsSame (netRegs n) c.regs (releaseHeld n new h c).regs ∧
    ∀ m, ((releaseHeld n new h c).netSlot m).trackers = (c.netSlot m).trackers := by
  unfold releaseHeld
  split
  · obtain ⟨delivers, -⟩ := Chip.deliver_says ({ c with held := c.held.erase h } : Chip) n h.pkt
    exact ⟨delivers.regs, delivers.trackers⟩
  · exact ⟨regsSame.refl, fun _ => rfl⟩

/-- R155: the lead claim taken anew is the highest of the current senders. -/
theorem Chip.refreshLead_lead {n : Nat} (hn : n < 256) : (c.refreshLead n).reg (R.srcLead n) = BitVec.ofNat 32 (c.leadNow n) ∧
    ∀ m, ((c.refreshLead n).netSlot m).trackers = (c.netSlot m).trackers := by
  rw [Chip.refreshLead_eq]
  by_cases same : (c.reg (R.srcLead n)).toNat = c.leadNow n
  · rw [if_pos (by rw [same]; exact beq_self_eq_true _), ← same]
    exact ⟨(BitVec.ofNat_toNat _ _).symm ▸ (BitVec.setWidth_eq _).symm, fun _ => rfl⟩
  · rw [if_neg (by simpa using same)]
    obtain ⟨off, -, hold⟩ := srcLead_notMem hn
    have loop : regsSame (netRegs n) (c.newLead n (c.leadNow n)).regs
        (forL c.held (releaseHeld n (c.leadNow n)) (c.newLead n (c.leadNow n))).regs :=
      regsSame_forL fun h _ x => (releaseHeld_says x n _ h).1
    refine ⟨?_, fun m => ?_⟩
    · rw [(regsSame_syncHold _).reg hold, loop.reg off, Chip.newLead_lead _ _ hn]
    · rw [Chip.of_rest (·.netSlot m) (fun _ => rfl) (rest_syncHold _)]
      refine (forL_keeps (fun x : Chip => (x.netSlot m).trackers) fun h _ x => (releaseHeld_says x n _ h).2 m).trans ?_
      rw [Chip.of_rest (·.netSlot m) (fun _ => rfl) (rest_newLead c n _)]

theorem regsSame_refreshLead : regsSame (R.srcLead n :: R.netHold :: netRegs n) c.regs (c.refreshLead n).regs := by
  rw [Chip.refreshLead_eq]
  split
  · exact regsSame.refl
  · have event : ∀ a ∈ R.srcLead n :: eventRegs, a ∈ R.srcLead n :: R.netHold :: netRegs n := fun a ha => by
      rcases List.mem_cons.mp ha with rfl | h
      · exact List.mem_cons_self
      · exact List.mem_cons_of_mem _ (List.mem_cons_of_mem _ (netRegs_of_event h))
    refine (((regsSame_newLead c n _).mono event).trans (regsSame_forL (l := R.srcLead n :: R.netHold :: netRegs n) fun h _ x => ?_)).trans
      ((regsSame_syncHold _).mono fun a ha => ?_)
    · exact (releaseHeld_says x n _ h).1.mono fun a ha => List.mem_cons_of_mem _ (List.mem_cons_of_mem _ ha)
    · rw [List.mem_singleton.mp ha]
      exact List.mem_cons_of_mem _ List.mem_cons_self

/-- Where no held packet of the slot reaches the new lead claim, none is released. -/
theorem Chip.refreshLead_quiet (quiet : ∀ h ∈ c.held, h.slot = n → h.claim < c.leadNow n) : c.refreshLead n =
    if (c.reg (R.srcLead n)).toNat == c.leadNow n then c else (c.newLead n (c.leadNow n)).syncHold := by
  rw [Chip.refreshLead_eq]
  refine congrArg (fun x => if (c.reg (R.srcLead n)).toNat == c.leadNow n then c else Chip.syncHold x) ?_
  refine forL_keeps id fun h hh x => ?_
  unfold releaseHeld
  refine if_neg ?_
  simp only [Bool.and_eq_true, beq_iff_eq, decide_eq_true_eq]
  rintro ⟨⟨slot, reach⟩, -⟩
  exact absurd (quiet h hh slot) (by omega)

end

/-! ### The twin's sight on the network (R345, R346) -/

/-- What showing the twin's sight leaves as it is. -/
theorem Chip.syncNetSeen_frame (c : Chip) : regsSame (R.twnStat :: eventRegs) c.regs c.syncNetSeen.regs ∧ c.syncNetSeen.net = c.net ∧
    c.syncNetSeen.held = c.held ∧ c.syncNetSeen.clk = c.clk := by
  unfold Chip.syncNetSeen
  extract_lets l now sight since w d e
  have shown : regsSame (R.twnStat :: eventRegs) c.regs e.regs ∧ e.net = c.net ∧ e.held = c.held ∧ e.clk = c.clk :=
    ⟨by unfold e; rw [regsSame_setFld_iff List.mem_cons_self]; exact (regsSame.refl : regsSame _ c.regs c.regs), rfl, rfl, rfl⟩
  clear_value e
  obtain ⟨regs, net, held, clk⟩ := shown
  split
  · exact ⟨regs, net, held, clk⟩
  · unfold Chip.setSplit
    split
    · exact ⟨regs, net, held, clk⟩
    · refine ⟨regs.trans ?_, ?_, ?_, ?_⟩
      · rw [regsSame_event_iff (by simp) (by simp), regsSame_setFld_iff List.mem_cons_self]
        exact regsSame.refl
      · rw [Chip.event_net, Chip.setFld_net, net]
      · rw [Chip.event_held, Chip.setFld_held, held]
      · rw [Chip.event_clk, Chip.setFld_clk, clk]

/-- What noting a claim leaves as it is. -/
theorem Chip.noteClaim_frame (c : Chip) (claim : Nat) :
    regsSame (R.twnClaimHigh :: R.twnStat :: eventRegs) c.regs (c.noteClaim claim).regs ∧ (c.noteClaim claim).net = c.net ∧
      (c.noteClaim claim).held = c.held ∧ (c.noteClaim claim).clk = c.clk := by
  unfold Chip.noteClaim
  generalize hd : c.setNat R.twnClaimHigh (max claim (c.reg R.twnClaimHigh).toNat) = d
  have noted : regsSame (R.twnClaimHigh :: R.twnStat :: eventRegs) c.regs d.regs ∧ d.net = c.net ∧ d.held = c.held ∧ d.clk = c.clk := by
    rw [← hd]
    exact ⟨by simp, rfl, rfl, rfl⟩
  obtain ⟨regs, net, held, clk⟩ := noted
  unfold Chip.checkHigher
  extract_lets own high e
  have ended : regsSame (R.twnClaimHigh :: R.twnStat :: eventRegs) c.regs e.regs ∧ e.net = c.net ∧ e.held = c.held ∧ e.clk = c.clk :=
    ⟨by unfold e; rw [regsSame_setFld_iff (by simp)]; exact regs, net, held, clk⟩
  clear_value e
  obtain ⟨regs', net', held', clk'⟩ := ended
  split
  · split
    · refine ⟨?_, ?_, ?_, ?_⟩
      · rw [regsSame_event_iff (by simp) (by simp)]
        exact regs'
      · rw [Chip.event_net]; exact net'
      · rw [Chip.event_held]; exact held'
      · rw [Chip.event_clk]; exact clk'
    · exact ⟨regs', net', held', clk'⟩
  · exact ⟨regs, net, held, clk⟩

end Sys2Proof.Machine

/-! ## Reception of a packet and the windows of the merge stage (R140, R143, R151 to R158) -/

namespace Sys2Proof.Machine

/-! ### A received frame (R140) -/

/-- R140: where the body of a good frame goes. -/
def Chip.classify (c : Chip) (fr : EthFrame) : Chip :=
  match fr.body with
  | .udp d =>
    match c.ptpOf fr.port fr.sub d with
    | some m => c.ptpReceive fr.port m
    | none =>
      match c.flowOf fr.port fr.sub d with
      | some f => c.flowReceive f d
      | none => c.bump (R.netCnt fr.port fr.sub 2)
  | .base r => c.baseReceive fr.port fr.sub r
  | .other => c.bump (R.netCnt fr.port fr.sub 2)

/-- R140: the part at `t` after a good frame, which is counted. -/
def Chip.counted (c : Chip) (t : Stamp) (fr : EthFrame) : Chip := (c.at t).bump (R.netCnt fr.port fr.sub 0)

section
variable {s : State} {t : Stamp} {fr : EthFrame}

/-- R140: the part after a frame on port A or B. -/
def Chip.received (c : Chip) (fr : EthFrame) : Chip :=
  if !c.subportOn fr.port fr.sub then c
  else if !fr.good || decide (c.fld (R.netPort fr.port) 13 0 < fr.ipBytes) then c.bump (R.netCnt fr.port fr.sub 1)
  else (c.bump (R.netCnt fr.port fr.sub 0)).classify fr

theorem exec_ethFrame (hp : fr.port < 2) (hsub : fr.sub < 4) :
    exec (.ethFrameReceive t fr) s = .next { s with chip := (s.chip.at t).received fr } := by
  have mgt : ¬ (fr.port == 2) = true := by
    rw [beq_iff_eq]
    omega
  rw [show exec (.ethFrameReceive t fr) s = execEthFrameReceive t fr s from rfl, execEthFrameReceive,
    runIf_of _ _ _ (by simp [hsub]; omega)]
  dsimp only
  rw [if_neg mgt]
  refine congrArg (fun c => Host.Outcome.next { s with chip := c }) ?_
  unfold Chip.received
  split
  · rfl
  · split
    · rfl
    · unfold Chip.classify
      generalize (s.chip.at t).bump (R.netCnt fr.port fr.sub 0) = d
      cases fr.body with
      | udp g =>
        cases hm : d.ptpOf fr.port fr.sub g with
        | some m => simp only [hm]
        | none =>
          cases hf : d.flowOf fr.port fr.sub g with
          | some f => simp only [hm, hf]
          | none => simp only [hm, hf]
      | base r => rfl
      | other => rfl

/-- A good frame that is not too long, on a sub-port that exists. -/
structure GoodFrame (c : Chip) (fr : EthFrame) : Prop where
  port : fr.port < 2
  sub : fr.sub < 4
  on : c.subportOn fr.port fr.sub = true
  good : fr.good = true
  short : fr.ipBytes ≤ c.fld (R.netPort fr.port) 13 0

theorem exec_goodFrame (h : GoodFrame s.chip fr) :
    exec (.ethFrameReceive t fr) s = .next { s with chip := (s.chip.counted t fr).classify fr } := by
  have on : ¬ (!(s.chip.at t).subportOn fr.port fr.sub) = true := by
    rw [show (s.chip.at t).subportOn fr.port fr.sub = s.chip.subportOn fr.port fr.sub from rfl, h.on]
    decide
  have ok : ¬ (!fr.good || decide ((s.chip.at t).fld (R.netPort fr.port) 13 0 < fr.ipBytes)) = true := by
    rw [h.good, show (s.chip.at t).fld (R.netPort fr.port) 13 0 = s.chip.fld (R.netPort fr.port) 13 0 from rfl]
    simpa using h.short
  rw [exec_ethFrame h.port h.sub, Chip.received, if_neg on, if_neg ok]
  rfl

end

/-! ### What classification reads -/

/-- The registers of the port counters' block lie apart from the settings of ports, flows and PTP instances. -/
theorem netCnt_apart {p sub : Nat} (hp : p < 2) (hsub : sub < 4) (k : Nat) (hk : k < 4) (f j q : Nat) (hq : q < 2) :
    R.netFlow f ∉ [R.netCnt p sub k] ∧ R.netFlowVid f ∉ [R.netCnt p sub k] ∧ R.netFlowDaddr f j ∉ [R.netCnt p sub k] ∧
    R.netFlowSaddr f j ∉ [R.netCnt p sub k] ∧ R.netPort q ∉ [R.netCnt p sub k] ∧ R.refPtp q ∉ [R.netCnt p sub k] := by
  simp only [List.mem_singleton, R.netFlow, R.netFlowVid, R.netFlowDaddr, R.netFlowSaddr, R.netPort, R.refPtp, R.netCnt]
  omega

section
variable {c d : Chip} {p sub : Nat} (hp : p < 2) (hsub : sub < 4) {k : Nat} (hk : k < 4) (h : regsSame [R.netCnt p sub k] c.regs d.regs)
include hp hsub hk h

theorem Chip.ptpOf_of_same (g : Datagram) : d.ptpOf p sub g = c.ptpOf p sub g := by
  obtain ⟨-, -, -, -, -, ptp⟩ := netCnt_apart hp hsub k hk 0 0 p hp
  have own : ∀ m, d.ptpOwn p m = c.ptpOwn p m := fun m => by rw [Chip.ptpOwn, h.bit ptp, h.fld ptp, Chip.ptpOwn]
  unfold Chip.ptpOf
  cases g.ptp with
  | none => rfl
  | some m => simp only [own]

theorem Chip.flowOf_of_same (g : Datagram) : d.flowOf p sub g = c.flowOf p sub g := by
  have flow : d.flowMatches p sub g = c.flowMatches p sub g := by
    funext f
    have apart := netCnt_apart hp hsub k hk f
    obtain ⟨hf, hv, -, -, port, -⟩ := apart 0 p hp
    simp only [Chip.flowMatches, h.bit hf, h.fld hf, h.fld hv, Chip.subOf_of_same h port, Chip.addrOf_of_same h _ fun j => (apart j p hp).2.2.1,
      Chip.addrOf_of_same h _ fun j => (apart j p hp).2.2.2.1]
  rw [Chip.flowOf, flow, Chip.flowOf]

end

theorem regsSame_counted (c : Chip) (t : Stamp) (fr : EthFrame) : regsSame [R.netCnt fr.port fr.sub 0] c.regs (c.counted t fr).regs := by
  rw [Chip.counted, regsSame_bump_iff (by simp)]
  exact regsSame.refl

/-! ### A leg and a sender (R148, R151, R153) -/

/-- R156: leg `leg` has delivered a packet at `now`. -/
def NetSlot.heard (x : NetSlot) (leg : Nat) (now : Stamp) : NetSlot :=
  { x with
    first := some (x.first.getD now),
    leg0 := if leg == 0 then some now else x.leg0, leg1 := if leg == 0 then x.leg1 else some now,
    silent0 := if leg == 0 then false else x.silent0, silent1 := if leg == 0 then x.silent1 else false }

/-- What a packet's leg shows. -/
theorem Chip.legSeen_says (c : Chip) (n leg : Nat) (hleg : leg < 2) :
    regsSame (R.srcStat n :: eventRegs) c.regs (c.legSeen n leg).regs ∧ (c.legSeen n leg).bit (R.srcStat n) (28 + leg) = true ∧
    (c.legSeen n leg).held = c.held ∧ (c.legSeen n leg).clk = c.clk ∧ ((c.legSeen n leg).netSlot n).trackers = (c.netSlot n).trackers ∧
    ((c.legSeen n leg).netSlot n).highest = (c.netSlot n).highest ∧ ((c.legSeen n leg).netSlot n).delivered = (c.netSlot n).delivered := by
  unfold Chip.legSeen
  extract_lets x was now d e
  have slot : d.netSlot n = (c.netSlot n).heard leg c.clk := Chip.netSlot_modNet_same c n (·.heard leg c.clk)
  have shown : regsSame (R.srcStat n :: eventRegs) c.regs e.regs ∧ e.bit (R.srcStat n) (28 + leg) = true ∧ e.held = c.held ∧ e.clk = c.clk ∧
      e.netSlot n = (c.netSlot n).heard leg c.clk :=
    ⟨by unfold e; rw [regsSame_setFld_iff List.mem_cons_self]; exact (regsSame.refl : regsSame _ c.regs c.regs),
      Chip.setFld_bit_same _ _ _ _ (by omega), rfl, rfl, slot⟩
  clear_value e
  obtain ⟨regs, bit, held, clk, net⟩ := shown
  split
  · refine ⟨?_, ?_, ?_, ?_, ?_⟩
    · rw [regsSame_event_iff (by simp) (by simp)]; exact regs
    · rw [Chip.bit_of_reg ((regsSame_event _ _ _).reg (srcStat_notMem n)), bit]
    · rw [Chip.event_held, held]
    · rw [Chip.event_clk, clk]
    · rw [show ∀ code p l, (e.event code p l).netSlot n = e.netSlot n from fun code p l => by rw [Chip.netSlot, Chip.event_net, Chip.netSlot], net]
      exact ⟨rfl, rfl, rfl⟩
  · rw [net]
    exact ⟨regs, bit, held, clk, rfl, rfl, rfl⟩

/-- A sender of a claim that no tracker exceeds: none exceeds it once it has one of its own. -/
theorem takeTracker_some {l : List Tracker} {claim : Nat} (now : Stamp) (below : ∀ x ∈ l, x.claim ≤ claim)
    (room : l.length < 4 ∨ l.any (fun x => x.rank == claim % 256) = true) :
    ∃ q, takeTracker now (claim % 256) claim l = some q ∧ ∀ x ∈ q, x.claim ≤ claim := by
  unfold takeTracker
  dsimp only
  by_cases own : l.any (fun x => x.rank == claim % 256) = true
  · rw [if_pos own]
    refine ⟨_, rfl, fun x hx => ?_⟩
    obtain ⟨y, hy, rfl⟩ := List.mem_map.mp hx
    split
    · exact Nat.le_refl _
    · exact below y hy
  · rw [if_neg own, if_pos (room.resolve_right own)]
    refine ⟨_, rfl, fun x hx => ?_⟩
    rcases List.mem_append.mp hx with hx | hx
    · exact below x hx
    · rw [List.mem_singleton.mp hx]

theorem foldl_max_claim_le {l : List Tracker} {m claim : Nat} (hm : m ≤ claim) (hl : ∀ x ∈ l, x.claim ≤ claim) :
    l.foldl (fun m t => max m t.claim) m ≤ claim := by
  induction l generalizing m with
  | nil => exact hm
  | cons x l ih =>
    exact ih (Nat.max_le.mpr ⟨hm, hl x List.mem_cons_self⟩) fun y hy => hl y (List.mem_cons_of_mem _ hy)

theorem Chip.leadNow_le {c : Chip} {n claim : Nat} (h : ∀ x ∈ (c.netSlot n).trackers, x.claim ≤ claim) : c.leadNow n ≤ claim :=
  foldl_max_claim_le (Nat.zero_le _) fun x hx => h x (List.mem_of_mem_filter hx)

/-- The registers that seeing a sender of slot `n` may write while no packet of it is held. -/
def senderRegs (n : Nat) : List Nat := R.srcLead n :: R.netHold :: R.twnClaimHigh :: R.twnStat :: eventRegs

/-- R153, R345: the part with slot `n`'s senders taken anew, as a watch slot shows them. -/
def Chip.sendersNow (c : Chip) (n claim : Nat) (l : List Tracker) : Chip :=
  let c := c.modNet n (fun x => { x with trackers := l })
  if c.watchSlot n && claim % 256 == c.fld R.twnCfg 15 8 then (c.noteClaim claim).syncNetSeen else c

theorem Chip.seeSender_some {c : Chip} {n claim : Nat} {l : List Tracker}
    (h : takeTracker c.clk (claim % 256) claim (c.netSlot n).trackers = some l) :
    c.seeSender n claim = some ((c.sendersNow n claim l).refreshLead n) := by
  unfold Chip.seeSender
  rw [h]
  rfl

theorem Chip.sendersNow_says (c : Chip) (n claim : Nat) (l : List Tracker) :
    regsSame (senderRegs n) c.regs (c.sendersNow n claim l).regs ∧ (c.sendersNow n claim l).held = c.held ∧
    (c.sendersNow n claim l).clk = c.clk ∧ (c.sendersNow n claim l).netSlot n = { c.netSlot n with trackers := l } := by
  have slot := Chip.netSlot_modNet_same c n fun x => { x with trackers := l }
  have regs : regsSame (senderRegs n) c.regs (c.modNet n fun x => { x with trackers := l }).regs := regsSame.refl
  unfold Chip.sendersNow
  generalize hd : c.modNet n (fun x => { x with trackers := l }) = d at slot regs
  have held : d.held = c.held := by rw [← hd]; rfl
  have clk : d.clk = c.clk := by rw [← hd]; rfl
  dsimp only
  split
  · obtain ⟨r1, n1, h1, k1⟩ := d.noteClaim_frame claim
    obtain ⟨r2, n2, h2, k2⟩ := (d.noteClaim claim).syncNetSeen_frame
    refine ⟨(regs.trans (r1.mono fun a ha => ?_)).trans (r2.mono fun a ha => ?_), by rw [h2, h1, held], by rw [k2, k1, clk], ?_⟩
    · exact List.mem_cons_of_mem _ (List.mem_cons_of_mem _ ha)
    · exact List.mem_cons_of_mem _ (List.mem_cons_of_mem _ (List.mem_cons_of_mem _ ha))
    · rw [Chip.netSlot, n2, n1, ← Chip.netSlot, slot]
  · exact ⟨regs, held, clk, slot⟩

/-- R151, R152: a sender whose claim none exceeds, seen while no packet of its slot is held, leads. -/
theorem Chip.seeSender_leads {c : Chip} {n claim : Nat} (hn : n < 256) (below : ∀ x ∈ (c.netSlot n).trackers, x.claim ≤ claim)
    (room : (c.netSlot n).trackers.length < 4 ∨ (c.netSlot n).trackers.any (fun x => x.rank == claim % 256) = true)
    (none_ : ∀ h ∈ c.held, h.slot ≠ n) : ∃ d, c.seeSender n claim = some d ∧ (d.reg (R.srcLead n)).toNat ≤ claim ∧
      regsSame (senderRegs n) c.regs d.regs ∧ d.held = c.held ∧ d.clk = c.clk ∧ (d.netSlot n).highest = (c.netSlot n).highest ∧
      (d.netSlot n).delivered = (c.netSlot n).delivered := by
  obtain ⟨l, taken, le⟩ := takeTracker_some c.clk below room
  obtain ⟨regs, held, clk, slot⟩ := c.sendersNow_says n claim l
  refine ⟨_, Chip.seeSender_some taken, ?_⟩
  generalize c.sendersNow n claim l = e at regs held clk slot
  have lead : e.leadNow n ≤ claim := Chip.leadNow_le (by rw [slot]; exact le)
  refine ⟨?_, ?_⟩
  · rw [(Chip.refreshLead_lead e hn).1, BitVec.toNat_ofNat]
    exact (Nat.mod_le _ _).trans lead
  · rw [Chip.refreshLead_quiet e n fun h hh slot => absurd slot (none_ h (held ▸ hh))]
    split
    · rw [slot]
      exact ⟨regs, held, clk, rfl, rfl⟩
    · have rest : (e.newLead n (e.leadNow n)).syncHold.rest = e.rest := by rw [rest_syncHold, rest_newLead]
      have same := Chip.of_rest (·.netSlot n) (fun _ => rfl) rest
      refine ⟨(regs.trans ((regsSame_newLead e n _).mono ?_)).trans ((regsSame_syncHold _).mono ?_),
        (Chip.of_rest Chip.held (fun _ => rfl) rest).trans held, (Chip.of_rest Chip.clk (fun _ => rfl) rest).trans clk, ?_⟩
      · intro a ha
        simp only [senderRegs, List.mem_cons] at ha ⊢
        tauto
      · intro a ha
        simp only [senderRegs, List.mem_cons, List.not_mem_nil, or_false] at ha ⊢
        tauto
      · rw [same, slot]
        exact ⟨rfl, rfl⟩

/-! ### An RTP packet of a leading sender (R152) -/

/-- The registers of a reception lie below those of source slots, and apart from those of events and the twin. -/
theorem netCnt_notMem {p sub k : Nat} (hp : p < 2) (hsub : sub < 4) (hk : k < 4) {n : Nat} :
    R.netCnt p sub k ∉ netRegs n ∧ R.netCnt p sub k ∉ senderRegs n ∧ R.netCnt p sub k ∉ R.srcStat n :: eventRegs ∧
      (∀ j, R.netCnt p sub k ≠ R.srcCnt n j) ∧ R.netCnt p sub k ∉ eventRegs := by
  simp only [netRegs, frameRegs, verdictRegs, decisionRegs, senderRegs, List.mem_append, List.mem_cons, List.not_mem_nil, or_false,
    mem_eventRegs, mem_bolRegs]
  simp only [R.netCnt, R.srcLead, R.srcStat, R.srcCnt, R.netHold, R.twnClaimHigh, R.twnStat, R.twnCnt, R.evjStat, R.evjCnt, R.bolCnt,
    R.chkRes, R.chkResAlive, R.chkResLength, R.chkResCheckLo, R.chkResCheckHi, R.chkCnt]
  refine ⟨?_, ?_, ?_, fun j => ?_, ?_⟩ <;> omega

theorem srcStat_notMem_sender {n : Nat} (hn : n < 256) : R.srcStat n ∉ senderRegs n := by
  simp only [senderRegs, List.mem_cons, mem_eventRegs]
  simp only [R.srcLead, R.srcStat, R.netHold, R.twnClaimHigh, R.twnStat, R.evjStat, R.evjCnt]
  omega

/-- R152: an RTP packet whose claim no sender of its slot exceeds is delivered where no packet of the slot is held. -/
theorem Chip.rtpReceive_delivers {c : Chip} {n leg : Nat} (hn : n < 256) (hleg : leg < 2) {g : Datagram} (long : 12 ≤ g.payload.length)
    (version : leAt g.payload 0 1 / 64 = 2) (type : leAt g.payload 1 1 % 128 = c.fld (R.srcNet n) 22 16)
    (below : ∀ x ∈ (c.netSlot n).trackers, x.claim ≤ rtpClaim (c.fld R.netClaim 3 0) g.payload)
    (room : (c.netSlot n).trackers.length < 4 ∨
      (c.netSlot n).trackers.any (fun x => x.rank == rtpClaim (c.fld R.netClaim 3 0) g.payload % 256) = true)
    (none_ : ∀ h ∈ c.held, h.slot ≠ n)
    (near : (c.netSlot n).highest.getD 0 ≤ extendSeq (c.netSlot n).highest (beAt g.payload 2 2) + 16384) :
    extendSeq (c.netSlot n).highest (beAt g.payload 2 2) ∈ ((c.rtpReceive n leg g).netSlot n).delivered ∧
    (∀ p sub, p < 2 → sub < 4 → (c.rtpReceive n leg g).reg (R.netCnt p sub 0) = c.reg (R.netCnt p sub 0)) ∧
    (c.rtpReceive n leg g).bit (R.srcStat n) (28 + leg) = true ∧ (c.rtpReceive n leg g).held = c.held := by
  obtain ⟨regs1, bit1, held1, clk1, trackers1, highest1, delivered1⟩ := c.legSeen_says n leg hleg
  have claimReg : R.netClaim ∉ R.srcStat n :: eventRegs := by
    simp only [List.mem_cons, mem_eventRegs, R.netClaim, R.srcStat, R.evjStat, R.evjCnt]
    omega
  have claim : (c.legSeen n leg).fld R.netClaim 3 0 = c.fld R.netClaim 3 0 := regs1.fld claimReg 3 0
  unfold Chip.rtpReceive
  dsimp only
  rw [if_neg (by simp; omega), if_neg (by rw [type]; simp), claim]
  generalize rtpClaim (c.fld R.netClaim 3 0) g.payload = k at below room
  obtain ⟨d, seen, lead, regs2, held2, clk2, highest2, delivered2⟩ := Chip.seeSender_leads (c := c.legSeen n leg) (claim := k) hn
    (by rw [trackers1]; exact below) (by rw [trackers1]; exact room) (by rw [held1]; exact none_)
  have highest : (d.netSlot n).highest = (c.netSlot n).highest := highest2.trans highest1
  have cnt : ∀ p sub, p < 2 → sub < 4 → d.reg (R.netCnt p sub 0) = c.reg (R.netCnt p sub 0) := fun p sub hp hsub => by
    obtain ⟨-, h2, h3, -⟩ := netCnt_notMem hp hsub (k := 0) (by decide) (n := n)
    rw [regs2.reg h2, regs1.reg h3]
  have bit : d.bit (R.srcStat n) (28 + leg) = true := (regs2.bit (srcStat_notMem_sender hn) _).trans bit1
  have held := held2.trans held1
  rw [seen]
  dsimp only
  rw [highest]
  generalize extendSeq (c.netSlot n).highest (beAt g.payload 2 2) = seq at near
  by_cases dup : (d.netSlot n).delivered.contains seq = true
  · rw [if_pos dup]
    refine ⟨List.contains_iff_mem.mp dup, fun p sub hp hsub => ?_, ?_, held⟩
    · rw [Chip.bump_reg, if_neg ((netCnt_notMem hp hsub (k := 0) (by decide)).2.2.2.1 5), cnt p sub hp hsub]
    · rw [Chip.bump_bit_other _ ((srcStat_ne_srcCnt n n 5).resolve_right (by decide)), bit]
  · rw [if_neg dup, if_neg (by simp; omega), if_pos (decide_eq_true lead)]
    obtain ⟨delivers, has⟩ := Chip.deliver_says d n
      { seq := seq, ts := beAt g.payload 4 4, marker := leAt g.payload 1 1 / 128 == 1, arrival := d.clk, payload := rtpPayload g.payload }
    refine ⟨has, fun p sub hp hsub => ?_, ?_, delivers.held.trans held⟩
    · rw [delivers.regs.reg (netCnt_notMem hp hsub (by decide)).1, cnt p sub hp hsub]
    · rw [delivers.legs hn _ (by omega), bit]

end Sys2Proof.Machine

/-! ## The windows of the merge stage (R151 to R158) -/

namespace Sys2Proof.Machine

section
variable {s : State} {t : Stamp}

/-! ### A packet of a leading sender -/

theorem packet_delivered {fr : EthFrame} {d : Datagram} {f n : Nat} (good : GoodFrame s.chip fr) (body : fr.body = .udp d)
    (ptp : s.chip.ptpOf fr.port fr.sub d = none) (flow : s.chip.flowOf fr.port fr.sub d = some f) (media : s.chip.fld (R.netFlow f) 25 24 ≠ 2)
    (hn : s.chip.fld (R.netFlow f) 23 16 = n) (kind : s.chip.slotKind n = 1 ∨ s.chip.slotKind n = 2)
    (port : d.dport = s.chip.fld (R.netFlow f) 15 0) (long : 12 ≤ d.payload.length) (version : leAt d.payload 0 1 / 64 = 2)
    (type : leAt d.payload 1 1 % 128 = s.chip.fld (R.srcNet n) 22 16)
    (below : ∀ x ∈ (s.chip.netSlot n).trackers, x.claim ≤ rtpClaim (s.chip.fld R.netClaim 3 0) d.payload)
    (room : (s.chip.netSlot n).trackers.length < 4 ∨
      (s.chip.netSlot n).trackers.any (fun x => x.rank == rtpClaim (s.chip.fld R.netClaim 3 0) d.payload % 256) = true)
    (none_ : ∀ h ∈ s.chip.held, h.slot ≠ n)
    (near : (s.chip.netSlot n).highest.getD 0 ≤ extendSeq (s.chip.netSlot n).highest (beAt d.payload 2 2) + 16384) :
    Answers (.ethFrameReceive t fr) s (fun c =>
      extendSeq (s.chip.netSlot n).highest (beAt d.payload 2 2) ∈ (c.netSlot n).delivered ∧
      c.reg (R.netCnt fr.port fr.sub 0) = (s.chip.bump (R.netCnt fr.port fr.sub 0)).reg (R.netCnt fr.port fr.sub 0) ∧
      c.bit (R.srcStat n) (28 + s.chip.fld (R.netFlow f) 25 24) = true ∧ c.held = s.chip.held) := by
  have same := regsSame_counted s.chip t fr
  have hn256 : n < 256 := by
    have : s.chip.fld (R.netFlow f) 23 16 < 2 ^ 8 := bitsOf_lt (s.chip.reg (R.netFlow f)) 23 16
    omega
  have leg : s.chip.fld (R.netFlow f) 25 24 < 2 := by
    have found := List.find?_some flow
    simp only [Chip.flowMatches, Bool.and_eq_true, bne_iff_ne] at found
    have := found.1.1.1.1.1.1.1.2
    have : s.chip.fld (R.netFlow f) 25 24 < 2 ^ 2 := bitsOf_lt (s.chip.reg (R.netFlow f)) 25 24
    omega
  obtain ⟨hflow, -⟩ := netCnt_apart good.port good.sub 0 (by decide) f 0 0 (by decide)
  have off : R.srcCfg n ∉ [R.netCnt fr.port fr.sub 0] ∧ R.srcNet n ∉ [R.netCnt fr.port fr.sub 0] ∧
      R.netClaim ∉ [R.netCnt fr.port fr.sub 0] := by
    have := good.port
    have := good.sub
    simp only [List.mem_singleton, R.srcCfg, R.srcNet, R.netClaim, R.netCnt]
    omega
  obtain ⟨cfg, net, claim⟩ := off
  refine answers_exec (exec_goodFrame good) ?_
  have slotKind : (s.chip.counted t fr).slotKind n = s.chip.slotKind n := by
    rw [Chip.slotKind, same.bit cfg, same.fld cfg, Chip.slotKind]
  have runs : (s.chip.counted t fr).classify fr = (s.chip.counted t fr).rtpReceive n (s.chip.fld (R.netFlow f) 25 24) d := by
    have nokind : ¬ (s.chip.slotKind n != 1 && s.chip.slotKind n != 2) = true := by
      rcases kind with h | h <;> rw [h] <;> decide
    unfold Chip.classify
    rw [body]
    dsimp only
    rw [Chip.ptpOf_of_same good.port good.sub (by decide) same, ptp, Chip.flowOf_of_same good.port good.sub (by decide) same, flow]
    dsimp only
    unfold Chip.flowReceive
    dsimp only
    rw [same.fld hflow, same.fld hflow, same.fld hflow, hn, slotKind]
    rw [if_neg (by simpa using media), if_neg nokind, if_pos (by simpa using port)]
  rw [runs]
  have kept : ∀ c : Chip, c.netSlot n = s.chip.netSlot n → c.fld R.netClaim 3 0 = s.chip.fld R.netClaim 3 0 →
      (∀ x ∈ (c.netSlot n).trackers, x.claim ≤ rtpClaim (c.fld R.netClaim 3 0) d.payload) ∧
      ((c.netSlot n).trackers.length < 4 ∨
        (c.netSlot n).trackers.any (fun x => x.rank == rtpClaim (c.fld R.netClaim 3 0) d.payload % 256) = true) ∧
      (c.netSlot n).highest.getD 0 ≤ extendSeq (c.netSlot n).highest (beAt d.payload 2 2) + 16384 := by
    intro c hs hf
    rw [hs, hf]
    exact ⟨below, room, near⟩
  have slot : (s.chip.counted t fr).netSlot n = s.chip.netSlot n := rfl
  obtain ⟨h1, h2, h3⟩ := kept _ slot (same.fld claim 3 0)
  obtain ⟨has, cnt, bit, held⟩ := Chip.rtpReceive_delivers (c := s.chip.counted t fr) hn256 leg long version
    (type.trans (same.fld net 22 16).symm) h1 h2 none_ h3
  rw [slot] at has
  refine ⟨has, (cnt _ _ good.port good.sub).trans ?_, bit, held⟩
  rw [Chip.counted, Chip.bump_reg, Chip.bump_reg]
  rfl

/-! ### Held packets (R152) -/

/-- R152: the held packet whose window ends first. -/
def earliestHeld (h : HeldPacket) (rest : List HeldPacket) : HeldPacket :=
  rest.foldl (fun b x => if stampGap x.due b.due < 0 then x else b) h

theorem earliestHeld_mem (h : HeldPacket) (rest : List HeldPacket) : earliestHeld h rest ∈ h :: rest := by
  unfold earliestHeld
  induction rest generalizing h with
  | nil => exact List.mem_singleton.mpr rfl
  | cons x rest ih =>
    rw [List.foldl_cons]
    by_cases first : stampGap x.due h.due < 0
    · rw [if_pos first]
      exact List.mem_cons_of_mem _ (ih x)
    · rw [if_neg first]
      rcases List.mem_cons.mp (ih h) with eq | mem
      · rw [eq]
        exact List.mem_cons_self
      · exact List.mem_cons_of_mem _ (List.mem_cons_of_mem _ mem)

/-- R152: the part after the window of held packet `g` ended. -/
def Chip.windowEnd (c : Chip) (g : HeldPacket) : Chip := (({ c with held := c.held.erase g } : Chip).handleExpired g).syncHold

theorem exec_heldExpire {h : HeldPacket} {rest : List HeldPacket} (held : s.chip.held = h :: rest) :
    exec (.heldPacketExpire t) s = .next { s with
      chip :=   if 0 ≤ stampGap t (earliestHeld h rest).due then (s.chip.at t).windowEnd (earliestHeld h rest) else s.chip.at t } := by
  have pick : (fun (b x : HeldPacket) => if decide (stampGap x.due b.due < 0) then x else b) =
      fun b x => if stampGap x.due b.due < 0 then x else b := by
    funext b x
    simp only [decide_eq_true_eq]
  rw [show exec (.heldPacketExpire t) s = execHeldPacketExpire t s from rfl, execHeldPacketExpire, runIf_of _ _ _ rfl]
  dsimp only
  rw [show (s.chip.at t).held = h :: rest from held]
  dsimp only
  rw [pick, ← earliestHeld]
  generalize earliestHeld h rest = g
  simp only [decide_eq_true_eq]
  rw [← held]
  rfl

/-- R152: the number of held packets shown after one left. -/
theorem held_count {h g : HeldPacket} {rest l : List HeldPacket} (held : l = h :: rest) (hg : g = earliestHeld h rest) :
    (l.erase g).length = l.length - 1 := List.length_erase_of_mem (by rw [hg, held]; exact earliestHeld_mem h rest)

theorem netHold_ne_srcCnt (n j : Nat) : R.netHold ≠ R.srcCnt n j ∧ R.srcCnt n j ∉ [R.netHold] := by
  simp only [List.mem_singleton, R.netHold, R.srcCnt]
  omega

theorem expired_duplicate {h g : HeldPacket} {rest : List HeldPacket} (held : s.chip.held = h :: rest) (hg : g = earliestHeld h rest)
    (due : 0 ≤ stampGap t g.due) (dup : (s.chip.netSlot g.slot).delivered.contains g.pkt.seq = true) :
    Answers (.heldPacketExpire t) s (fun c => c.held = s.chip.held.erase g ∧
      c.fld R.netHold 12 0 = (s.chip.held.length - 1) % 8192 ∧ c.net = s.chip.net ∧
      c.reg (R.srcCnt g.slot 5) = (s.chip.bump (R.srcCnt g.slot 5)).reg (R.srcCnt g.slot 5) ∧
      s.chip.writesOnly c [R.srcCnt g.slot 5, R.netHold] ∧ s.chip.raises c []) := by
  refine answers_exec (exec_heldExpire held) ?_
  rw [← hg, if_pos due]
  have ends : (s.chip.at t).windowEnd g = (({ s.chip.at t with held := s.chip.held.erase g } : Chip).bump (R.srcCnt g.slot 5)).syncHold := by
    unfold Chip.windowEnd Chip.handleExpired
    rw [if_pos (show (({ s.chip.at t with held := (s.chip.at t).held.erase g } : Chip).netSlot g.slot).delivered.contains g.pkt.seq = true from dup)]
    rfl
  rw [ends]
  refine ⟨rfl, (Chip.syncHold_count _).trans (congrArg (· % 8192) (held_count held hg)), rfl, ?_, Chip.writesOnly_of ?_ rfl rfl,
    Chip.raises_of_evq rfl⟩
  · rw [(regsSame_syncHold _).reg (netHold_ne_srcCnt g.slot 5).2, Chip.bump_reg, Chip.bump_reg]
    rfl
  · refine regsSame.trans ?_ ((regsSame_syncHold _).mono fun a ha => List.mem_cons_of_mem _ ha)
    rw [regsSame_bump_iff List.mem_cons_self]
    exact (regsSame.refl : regsSame _ s.chip.regs s.chip.regs)

theorem srcCnt_filled_notMem {n : Nat} (hn : n < 256) : R.srcCnt n 4 ∉ netRegs n := by
  simp only [netRegs, frameRegs, verdictRegs, decisionRegs, List.mem_append, List.mem_cons, List.not_mem_nil, or_false, mem_eventRegs,
    mem_bolRegs]
  simp only [R.srcStat, R.srcCnt, R.twnCnt, R.evjStat, R.evjCnt, R.bolCnt, R.chkRes, R.chkResAlive, R.chkResLength, R.chkResCheckLo,
    R.chkResCheckHi, R.chkCnt]
  omega

theorem expired_filled {h g : HeldPacket} {rest : List HeldPacket} (held : s.chip.held = h :: rest) (hg : g = earliestHeld h rest)
    (due : 0 ≤ stampGap t g.due) (hn : g.slot < 256) (fresh : (s.chip.netSlot g.slot).delivered.contains g.pkt.seq = false) :
    Answers (.heldPacketExpire t) s (fun c => c.held = s.chip.held.erase g ∧
      c.fld R.netHold 12 0 = (s.chip.held.length - 1) % 8192 ∧
      c.reg (R.srcCnt g.slot 4) = (s.chip.bump (R.srcCnt g.slot 4)).reg (R.srcCnt g.slot 4) ∧
      g.pkt.seq ∈ (c.netSlot g.slot).delivered) := by
  refine answers_exec (exec_heldExpire held) ?_
  rw [← hg, if_pos due]
  have ends : (s.chip.at t).windowEnd g =
      ((({ s.chip.at t with held := s.chip.held.erase g } : Chip).bump (R.srcCnt g.slot 4)).deliver g.slot g.pkt).syncHold := by
    unfold Chip.windowEnd Chip.handleExpired
    rw [if_neg (show ¬ (({ s.chip.at t with held := (s.chip.at t).held.erase g } : Chip).netSlot g.slot).delivered.contains g.pkt.seq = true from
      fun h => absurd (fresh.symm.trans h) (by decide))]
    rfl
  rw [ends]
  obtain ⟨delivers, has⟩ := Chip.deliver_says (({ s.chip.at t with held := s.chip.held.erase g } : Chip).bump (R.srcCnt g.slot 4)) g.slot g.pkt
  generalize Chip.deliver _ g.slot g.pkt = d at delivers has
  have left : d.held = s.chip.held.erase g := delivers.held
  refine ⟨left, (Chip.syncHold_count _).trans (congrArg (· % 8192) ((congrArg List.length left).trans (held_count held hg))), ?_, has⟩
  rw [(regsSame_syncHold _).reg (netHold_ne_srcCnt g.slot 4).2, delivers.regs.reg (srcCnt_filled_notMem hn), Chip.bump_reg, Chip.bump_reg]
  rfl

theorem none_expires (early : ∀ h ∈ s.chip.held, stampGap t h.due < 0) : Gives (.heldPacketExpire t) s (s.chip.at t) := by
  cases held : s.chip.held with
  | nil =>
    refine gives_of (show exec _ s = execHeldPacketExpire t s from rfl) rfl ?_
    dsimp only
    rw [show (s.chip.at t).held = [] from held]
  | cons h rest =>
    have := early _ (by rw [held]; exact earliestHeld_mem h rest)
    exact gives_exec (exec_heldExpire held) (if_neg (by omega))

/-! ### Senders that are no longer current (R155) -/

theorem exec_senderAgeOut {n : Nat} (hn : n < 256) : exec (.senderAgeOut t n) s = .next { s with
      chip := if ((s.chip.at t).refreshLead n).watchSlot n then ((s.chip.at t).refreshLead n).syncNetSeen else (s.chip.at t).refreshLead n } := by
  rw [show exec (.senderAgeOut t n) s = execSenderAgeOut t n s from rfl, execSenderAgeOut, runIf_of _ _ _ (decide_eq_true hn)]

theorem srcLead_notMem_sight {n : Nat} (hn : n < 256) : R.srcLead n ∉ R.twnStat :: eventRegs := by
  have := (srcLead_notMem hn).2.1
  simp only [List.mem_cons, not_or]
  refine ⟨?_, this⟩
  simp only [R.srcLead, R.twnStat]
  omega

theorem lead_taken_anew {n : Nat} (hn : n < 256) :
    Answers (.senderAgeOut t n) s (fun c => c.reg (R.srcLead n) = BitVec.ofNat 32 ((s.chip.at t).leadNow n) ∧
      (c.netSlot n).trackers = (s.chip.netSlot n).trackers) := by
  refine answers_exec (exec_senderAgeOut hn) ?_
  obtain ⟨lead, trackers⟩ := Chip.refreshLead_lead (s.chip.at t) hn
  generalize (s.chip.at t).refreshLead n = d at lead trackers
  split
  · obtain ⟨regs, net, -⟩ := d.syncNetSeen_frame
    rw [regs.reg (srcLead_notMem_sight hn), Chip.netSlot, net, ← Chip.netSlot]
    exact ⟨lead, trackers n⟩
  · exact ⟨lead, trackers n⟩

/-- The registers by which a slot is a watch slot. -/
theorem watchRegs_notMem {n i : Nat} (hn : n < 256) (hi : i < 4) : R.twnCfg ∉ R.srcLead n :: R.netHold :: netRegs n ∧
    R.twnWatch i ∉ R.srcLead n :: R.netHold :: netRegs n := by
  simp only [netRegs, frameRegs, verdictRegs, decisionRegs, List.mem_append, List.mem_cons, List.not_mem_nil, or_false, mem_eventRegs,
    mem_bolRegs]
  simp only [R.twnCfg, R.twnWatch, R.srcLead, R.netHold, R.srcStat, R.srcCnt, R.twnCnt, R.evjStat, R.evjCnt, R.bolCnt, R.chkRes,
    R.chkResAlive, R.chkResLength, R.chkResCheckLo, R.chkResCheckHi, R.chkCnt]
  omega

theorem Chip.watchSlot_refreshLead (c : Chip) {n : Nat} (hn : n < 256) (m : Nat) : (c.refreshLead n).watchSlot m = c.watchSlot m := by
  have regs := regsSame_refreshLead c n
  have on : (c.refreshLead n).twinOn = c.twinOn := by
    rw [Chip.twinOn, regs.bit (watchRegs_notMem hn (i := 0) (by decide)).1, Chip.twinOn]
  have watch : ∀ i ∈ List.range 4, ((c.refreshLead n).bit (R.twnWatch i) 31 && (c.refreshLead n).fld (R.twnWatch i) 7 0 == m) =
      (c.bit (R.twnWatch i) 31 && c.fld (R.twnWatch i) 7 0 == m) := fun i hi => by
    have off := (watchRegs_notMem hn (List.mem_range.mp hi)).2
    rw [regs.bit off, regs.fld off]
  rw [Chip.watchSlot, Chip.watchSlot, on]
  refine congrArg _ (Bool.eq_iff_iff.mpr ?_)
  simp only [List.any_eq_true]
  exact exists_congr fun i => and_congr_right fun hi => by rw [watch i hi]

theorem exec_senderAgeOut_unwatched {n : Nat} (hn : n < 256) (unwatched : s.chip.watchSlot n = false) :
    exec (.senderAgeOut t n) s = .next { s with chip := (s.chip.at t).refreshLead n } := by
  rw [exec_senderAgeOut hn, if_neg]
  rw [Chip.watchSlot_refreshLead _ hn, show (s.chip.at t).watchSlot n = s.chip.watchSlot n from rfl, unwatched]
  decide

theorem lead_changes {n : Nat} (hn : n < 256) (quiet : ∀ h ∈ s.chip.held, h.slot = n → h.claim < (s.chip.at t).leadNow n)
    (differ : (s.chip.reg (R.srcLead n)).toNat ≠ (s.chip.at t).leadNow n) (unwatched : s.chip.watchSlot n = false) :
    Answers (.senderAgeOut t n) s (fun c => c.reg (R.srcLead n) = BitVec.ofNat 32 ((s.chip.at t).leadNow n) ∧ c.net = s.chip.net ∧
      c.held = s.chip.held ∧ s.chip.writesOnly c ([R.srcLead n, R.netHold] ++ eventRegs) ∧
      s.chip.raises c [⟨0x2002, .room, t, [.val 1 n, .val 4 (s.chip.reg (R.srcLead n)).toNat, .val 4 ((s.chip.at t).leadNow n)]⟩]) := by
  refine answers_exec (exec_senderAgeOut_unwatched hn unwatched) ?_
  have eq : (s.chip.at t).refreshLead n = ((s.chip.at t).newLead n ((s.chip.at t).leadNow n)).syncHold := by
    rw [Chip.refreshLead_quiet (s.chip.at t) n quiet, if_neg]
    rw [beq_iff_eq]
    exact differ
  have lead := (Chip.refreshLead_lead (s.chip.at t) hn).1
  rw [eq] at lead ⊢
  generalize (s.chip.at t).leadNow n = new at lead
  have rest : ((s.chip.at t).newLead n new).syncHold.rest = (s.chip.at t).rest := by rw [rest_syncHold, rest_newLead]
  have only : regsSame ([R.srcLead n, R.netHold] ++ eventRegs) s.chip.regs ((s.chip.at t).newLead n new).syncHold.regs := by
    refine ((regsSame_newLead (s.chip.at t) n new).mono fun a ha => ?_).trans ((regsSame_syncHold _).mono fun a ha => ?_)
    · simp only [List.mem_append, List.mem_cons] at ha ⊢
      tauto
    · rw [List.mem_singleton.mp ha]
      simp
  refine ⟨lead, (Chip.of_rest Chip.net (fun _ => rfl) rest).trans rfl, (Chip.of_rest Chip.held (fun _ => rfl) rest).trans rfl,
    Chip.writesOnly_of only ?_ ?_, ?_⟩
  · exact (Chip.event_dram _ _ _ _).trans (Chip.setNat_dram _ _ _)
  · exact (Chip.of_rest Chip.tbw (fun _ => rfl) rest).trans rfl
  · have raised : s.chip.raises ((s.chip.at t).newLead n new)
        [⟨0x2002, .room, t, [.val 1 n, .val 4 (s.chip.reg (R.srcLead n)).toNat, .val 4 new]⟩] :=
      Chip.raises_event_of_evq (Chip.setNat_evq _ _ _) rfl _ _ _
    exact raised.trans_evq rfl

theorem lead_stays {n : Nat} (hn : n < 256) (same : (s.chip.reg (R.srcLead n)).toNat = (s.chip.at t).leadNow n)
    (unwatched : s.chip.watchSlot n = false) : Gives (.senderAgeOut t n) s (s.chip.at t) := by
  refine gives_exec (exec_senderAgeOut_unwatched hn unwatched) ?_
  rw [Chip.refreshLead_eq, if_pos]
  rw [beq_iff_eq]
  exact same

/-! ### The end of a network frame (R158) -/

/-- R158: SKEW after its marker has passed. -/
def NetFrame.markerDue (f : NetFrame) (t : Stamp) (skew : Nat) : Bool :=
  match f.marker with | some (_, m) => elapsed t m skew | none => false

/-- R158: SKEW after a later frame's first packet has passed. -/
def NetFrame.laterDue (f : NetFrame) (t : Stamp) (skew : Nat) : Bool :=
  match f.later with | some l => elapsed t l skew | none => false

/-- R158: a frame's SKEW has passed. -/
def NetFrame.skewDue (f : NetFrame) (t : Stamp) (skew : Nat) : Bool := f.markerDue t skew || f.laterDue t skew

theorem NetFrame.markerDue_eq (f : NetFrame) (t : Stamp) (skew : Nat) : f.markerDue t skew = f.marker.any (fun m => elapsed t m.2 skew) := by
  unfold NetFrame.markerDue
  cases f.marker with
  | none => rfl
  | some m => rw [Option.any_some]

theorem NetFrame.laterDue_eq (f : NetFrame) (t : Stamp) (skew : Nat) : f.laterDue t skew = f.later.any (fun l => elapsed t l skew) := by
  unfold NetFrame.laterDue
  cases f.later with
  | none => rfl
  | some l => rw [Option.any_some]

theorem NetFrame.skewDue_eq (f : NetFrame) (t : Stamp) (skew : Nat) :
    f.skewDue t skew = (f.marker.any (fun m => elapsed t m.2 skew) || f.later.any (fun l => elapsed t l skew)) := by
  rw [NetFrame.skewDue, NetFrame.markerDue_eq, NetFrame.laterDue_eq]

/-- R158: the open frame of timestamp `ts` finishes where it is `due`. -/
def Chip.finishDue (c : Chip) (n ts : Nat) (due : NetFrame → Bool) : Chip :=
  match (c.netSlot n).openFrames.find? (fun f => f.ts == ts) with
  | none => c
  | some f => if due f then c.finishNet n ts false else c

theorem Chip.finishDue_some {c : Chip} {n ts : Nat} {f : NetFrame} (h : (c.netSlot n).openFrames.find? (fun f => f.ts == ts) = some f)
    {due : NetFrame → Bool} (hd : due f = true) : c.finishDue n ts due = c.finishNet n ts false := by
  unfold Chip.finishDue
  rw [h]
  exact if_pos hd

theorem Chip.finishDue_none {c : Chip} {n ts : Nat} {due : NetFrame → Bool}
    (h : ∀ f, (c.netSlot n).openFrames.find? (fun f => f.ts == ts) = some f → due f = false) : c.finishDue n ts due = c := by
  unfold Chip.finishDue
  cases hf : (c.netSlot n).openFrames.find? (fun f => f.ts == ts) with
  | none => rfl
  | some f =>
    dsimp only
    rw [h f hf, if_neg (by decide)]

theorem exec_skewTimeout {n ts : Nat} (hn : n < 256) : exec (.frameSkewTimeout t n ts) s = .next { s with
      chip := (s.chip.at t).finishDue n ts fun f => f.skewDue t (s.chip.fld (R.srcMerge n) 21 16 * nsPerMs) } := by
  rw [show exec (.frameSkewTimeout t n ts) s = execFrameSkewTimeout t n ts s from rfl, execFrameSkewTimeout]
  generalize nsPerMs = ms
  rw [runIf_of _ _ _ (decide_eq_true hn)]
  rfl

theorem exec_packetTimeout {n ts : Nat} (hn : n < 256) : exec (.framePacketTimeout t n ts) s = .next { s with
      chip := (s.chip.at t).finishDue n ts fun f => elapsed t f.last (100 * nsPerMs) } := by
  rw [show exec (.framePacketTimeout t n ts) s = execFramePacketTimeout t n ts s from rfl, execFramePacketTimeout]
  generalize nsPerMs = ms
  rw [runIf_of _ _ _ (decide_eq_true hn)]
  rfl

theorem packetTimeout_ns : 100 * nsPerMs = 100000000 := by decide

theorem frame_closes {n ts : Nat} {f : NetFrame} (open_ : (s.chip.netSlot n).openFrames.find? (fun g => g.ts == ts) = some f) :
    (((s.chip.at t).finishNet n ts false).netSlot n).openFrames = (s.chip.netSlot n).openFrames.filter (fun g => g.ts != ts) ∧
      (((s.chip.at t).finishNet n ts false).netSlot n).delivered = (s.chip.netSlot n).delivered ∧
      (s.chip.slotKind n ≠ 2 → ((s.chip.at t).finishNet n ts false).aus.length = s.chip.aus.length + 1) := by
  obtain ⟨slot, -, aus⟩ := Chip.finishNet_says (c := s.chip.at t) open_ false
  rw [slot]
  exact ⟨rfl, rfl, aus⟩

end

/-- Settles O34: packets of a leading sender are delivered, held packets leave at the end of their windows, the lead claim follows the
current senders, and a frame closes at its times. -/
theorem mergeStageReleasesAtItsWindows : Obligations.MergeStageReleasesAtItsWindows := by
  unfold Obligations.MergeStageReleasesAtItsWindows
  refine ⟨?_, ?_, ?_, ?_, ?_, ?_, ?_, ?_, ?_, ?_, ?_⟩
  · intro s t fr d f n hp hsub on good short body ptp flow media hn kind port long version type below room none_ near
    exact packet_delivered ⟨hp, hsub, on, good, short⟩ body ptp flow media hn kind port long version type below room none_ near
  · intro s t h g rest held hg due dup
    exact expired_duplicate held hg due dup
  · intro s t h g rest held hg due hn fresh
    exact expired_filled held hg due hn fresh
  · intro s t early
    exact none_expires early
  · intro s t n hn
    exact lead_taken_anew hn
  · intro s t n hn quiet differ unwatched
    exact lead_changes hn quiet differ unwatched
  · intro s t n hn same unwatched
    exact lead_stays hn same unwatched
  · intro s t n ts f hn open_ due
    refine answers_exec (exec_skewTimeout hn) ?_
    have is_due : (fun g : NetFrame => g.skewDue t (s.chip.fld (R.srcMerge n) 21 16 * nsPerMs)) f = true := by
      dsimp only
      rw [NetFrame.skewDue_eq, Bool.or_eq_true]
      exact due
    rw [Chip.finishDue_some (c := s.chip.at t) open_ is_due]
    exact frame_closes open_
  · intro s t n ts hn early
    refine gives_exec (exec_skewTimeout hn) (Chip.finishDue_none fun f hf => ?_)
    obtain ⟨h1, h2⟩ := early f hf
    rw [NetFrame.skewDue_eq, h1, h2]
    rfl
  · intro s t n ts f hn open_ due
    refine answers_exec (exec_packetTimeout hn) ?_
    have is_due : (fun g : NetFrame => elapsed t g.last (100 * nsPerMs)) f = true := by
      rw [packetTimeout_ns]
      exact due
    rw [Chip.finishDue_some (c := s.chip.at t) open_ is_due]
    exact frame_closes open_
  · intro s t n ts hn early
    refine gives_exec (exec_packetTimeout hn) (Chip.finishDue_none fun f hf => ?_)
    rw [packetTimeout_ns]
    exact early f hf

end Sys2Proof.Machine

/-! ## Received frames (R138 to R141, R144): counting and classification -/

namespace Sys2Proof.Machine

/-! ### The count of good frames is written at reception alone -/

/-- No count of good frames changes. -/
def Chip.SameGood (c d : Chip) : Prop := ∀ p sub, p < 2 → sub < 4 → d.reg (R.netCnt p sub 0) = c.reg (R.netCnt p sub 0)

section
variable {c d e : Chip}

theorem Chip.SameGood.refl : c.SameGood c := fun _ _ _ _ => rfl

theorem Chip.SameGood.trans (h1 : c.SameGood d) (h2 : d.SameGood e) : c.SameGood e := fun p sub hp hsub =>
  (h2 p sub hp hsub).trans (h1 p sub hp hsub)

theorem Chip.SameGood.ofRegs {l : List Nat} (h : regsSame l c.regs d.regs) (hl : ∀ p sub, p < 2 → sub < 4 → R.netCnt p sub 0 ∉ l) :
    c.SameGood d := fun p sub hp hsub => h.reg (hl p sub hp hsub)

theorem Chip.SameGood.event (c : Chip) (code : Nat) (p : FaultAddr) (l : List CField) : c.SameGood (c.event code p l) :=
  .ofRegs (regsSame_event code p l) fun _ _ hp hsub => (netCnt_notMem hp hsub (by decide) (n := 0)).2.2.2.2

theorem Chip.SameGood.eventLimited (c : Chip) (u code : Nat) (p : FaultAddr) (l : List CField) : c.SameGood (c.eventLimited u code p l) :=
  .ofRegs (l := eventRegs) (by simp) fun _ _ hp hsub => (netCnt_notMem hp hsub (by decide) (n := 0)).2.2.2.2

theorem Chip.SameGood.bump (c : Chip) {a : Nat} (ha : ∀ p sub, p < 2 → sub < 4 → R.netCnt p sub 0 ≠ a) : c.SameGood (c.bump a) :=
  fun p sub hp hsub => by rw [Chip.bump_reg, if_neg (ha p sub hp hsub)]

theorem Chip.SameGood.bumpSlot (c : Chip) (n j : Nat) : c.SameGood (c.bump (R.srcCnt n j)) :=
  .bump c fun p sub hp hsub => by
    simp only [R.netCnt, R.srcCnt]
    omega

/-! ### RTP and RTCP -/

theorem Chip.SameGood.deliver (c : Chip) (n : Nat) (p : Packet) : c.SameGood (c.deliver n p) :=
  .ofRegs (c.deliver_says n p).1.regs fun _ _ hp hsub => (netCnt_notMem hp hsub (by decide)).1

theorem Chip.SameGood.handleExpired (c : Chip) (h : HeldPacket) : c.SameGood (c.handleExpired h) := by
  unfold Chip.handleExpired
  split
  · exact .bumpSlot c _ _
  · exact (Chip.SameGood.bumpSlot c _ _).trans (.deliver _ _ _)

theorem Chip.SameGood.syncHold (c : Chip) : c.SameGood c.syncHold :=
  .ofRegs (regsSame_syncHold c) fun _ _ hp hsub => by
    simp only [List.mem_singleton, R.netCnt, R.netHold]
    omega

/-- R154: a full store first handles its oldest packet. -/
def Chip.makeRoom (c : Chip) : Chip :=
  match c.held with
  | [] => c
  | h :: rest =>
    if 4096 ≤ c.held.length then
      ((({ c with held := rest } : Chip).handleExpired h).bump (R.srcCnt h.slot 7)).eventLimited h.slot 0x2003 .room [.val 1 h.slot, .occ]
    else c

/-- R154: a packet joins the store. -/
def Chip.keepHeld (c : Chip) (h : HeldPacket) : Chip := { c with held := c.held ++ [h] }

theorem Chip.holdPacket_eq (c : Chip) (n claim : Nat) (p : Packet) : ∃ h, c.holdPacket n claim p = (c.makeRoom.keepHeld h).syncHold :=
  ⟨_, rfl⟩

theorem Chip.SameGood.makeRoom (c : Chip) : c.SameGood c.makeRoom := by
  unfold Chip.makeRoom
  cases c.held with
  | nil => exact .refl
  | cons h rest =>
    dsimp only
    generalize hd : ({ c with held := rest } : Chip) = d
    have same : c.SameGood d := by
      rw [← hd]
      exact (.refl : c.SameGood c)
    split
    · exact ((same.trans (.handleExpired d h)).trans (.bumpSlot _ _ _)).trans (.eventLimited _ _ _ _ _)
    · exact .refl

theorem Chip.SameGood.holdPacket (c : Chip) (n claim : Nat) (p : Packet) : c.SameGood (c.holdPacket n claim p) := by
  obtain ⟨h, eq⟩ := c.holdPacket_eq n claim p
  rw [eq]
  have kept : c.makeRoom.SameGood (c.makeRoom.keepHeld h) := fun _ _ _ _ => rfl
  exact ((Chip.SameGood.makeRoom c).trans kept).trans (.syncHold _)

theorem Chip.SameGood.seeSender {n claim : Nat} (h : c.seeSender n claim = some d) : c.SameGood d := by
  unfold Chip.seeSender at h
  cases taken : takeTracker c.clk (claim % 256) claim (c.netSlot n).trackers with
  | none => rw [taken] at h; exact absurd h (by simp)
  | some l =>
    have seen := Chip.seeSender_some taken
    unfold Chip.seeSender at seen
    obtain rfl : d = (c.sendersNow n claim l).refreshLead n := Option.some.inj (h.symm.trans seen)
    refine (Chip.SameGood.ofRegs (c.sendersNow_says n claim l).1 fun p sub hp hsub => (netCnt_notMem hp hsub (by decide)).2.1).trans
      (.ofRegs (regsSame_refreshLead _ n) fun p sub hp hsub => ?_)
    have off := netCnt_notMem hp hsub (k := 0) (by decide) (n := n)
    simp only [senderRegs, List.mem_cons, not_or] at off
    simp only [List.mem_cons, not_or]
    exact ⟨off.2.1.1, off.2.1.2.1, off.1⟩

theorem Chip.SameGood.rtpReceive (c : Chip) (n : Nat) {leg : Nat} (hleg : leg < 2) (g : Datagram) : c.SameGood (c.rtpReceive n leg g) := by
  have leg := Chip.SameGood.ofRegs (c.legSeen_says n leg hleg).1 fun p sub hp hsub => (netCnt_notMem hp hsub (by decide)).2.2.1
  unfold Chip.rtpReceive
  extract_lets l d claim
  split
  · exact .refl
  · split
    · exact .bumpSlot c _ _
    · refine Chip.SameGood.trans leg ?_
      split
      · exact (Chip.SameGood.bumpSlot _ _ _).trans (.event _ _ _ _)
      · next e seen =>
        refine Chip.SameGood.trans (.seeSender seen) ?_
        extract_lets x p
        split
        · exact .bumpSlot _ _ _
        · split
          · exact .bumpSlot _ _ _
          · split
            · exact .deliver _ _ _
            · exact .holdPacket _ _ _ _

theorem Chip.SameGood.senderReport (c : Chip) (n : Nat) (l : List Byte) : c.SameGood (c.senderReport n l) := by
  unfold Chip.senderReport
  extract_lets sec tsr now d
  split
  · refine Chip.SameGood.trans (d := d.setFld (R.srcStat n) 30 30 1) ?_ (.event _ _ _ _)
    refine .ofRegs (l := [R.srcStat n]) ?_ fun p sub hp hsub => ?_
    · rw [regsSame_setFld_iff List.mem_cons_self]
      exact (regsSame.refl : regsSame _ c.regs c.regs)
    · simp only [List.mem_singleton, R.netCnt, R.srcStat]
      omega
  · exact .refl

theorem Chip.SameGood.heartbeatReceive (c : Chip) (n : Nat) (l : List Byte) : c.SameGood (c.heartbeatReceive n l) := by
  unfold Chip.heartbeatReceive
  cases h : c.seeSender n (beAt l 12 4) with
  | none => exact .refl
  | some d => exact .seeSender h

theorem Chip.SameGood.rtcpReceive (n fuel : Nat) (l : List Byte) (c : Chip) : c.SameGood (Chip.rtcpReceive n fuel l c) := by
  induction fuel generalizing l c with
  | zero => exact .refl
  | succ fuel ih =>
    unfold Chip.rtcpReceive
    extract_lets size type d
    split
    · exact .refl
    · have one : c.SameGood d := by
        unfold d
        split
        · exact .senderReport _ _ _
        · split
          · exact .heartbeatReceive _ _ _
          · exact .refl
      exact one.trans (ih _ _)

/-! ### Points, PTP and base protocols -/

theorem pnt_apart (p sub i : Nat) (hp : p < 2) (hsub : sub < 4) : R.netCnt p sub 0 ≠ R.pntCnt i ∧ R.netCnt p sub 0 ≠ R.pntOff := by
  simp only [R.netCnt, R.pntCnt, R.pntOff]
  omega

theorem Chip.SameGood.pointArrive (c : Chip) (flow : Nat) (arrival : Stamp) (l : List Byte) : c.SameGood (c.pointArrive flow arrival l) := by
  have counts : ∀ (x : Chip) (i : Nat), x.SameGood (x.pntBump i) := fun x i => .bump x fun p sub hp hsub => (pnt_apart p sub i hp hsub).1
  unfold Chip.pointArrive
  extract_lets d
  refine (counts c 0).trans ?_
  split
  · exact .bump _ fun p sub hp hsub => (pnt_apart p sub 0 hp hsub).2
  · split
    · exact (counts _ 13).trans (.eventLimited _ _ _ _ _)
    · exact .refl

theorem Chip.SameGood.flowReceive (c : Chip) {f : Nat} (leg : c.fld (R.netFlow f) 25 24 ≠ 3) (g : Datagram) : c.SameGood (c.flowReceive f g) := by
  have := bitsOf_lt (c.reg (R.netFlow f)) 25 24
  have four : c.fld (R.netFlow f) 25 24 < 4 := this
  unfold Chip.flowReceive
  extract_lets r target n
  split
  · exact .pointArrive _ _ _ _
  · next two =>
    split
    · exact .refl
    · split
      · refine .rtpReceive _ _ ?_ _
        rw [beq_iff_eq] at two
        show c.fld (R.netFlow f) 25 24 < 2
        have : c.fld (R.netFlow f) 25 24 ≠ 2 := two
        omega
      · exact .rtcpReceive _ _ _ _

theorem Chip.SameGood.netSend (c : Chip) (p sub : Nat) (m : TxMsg) : c.SameGood (c.netSend p sub m) := by
  unfold Chip.netSend
  split
  · refine Chip.SameGood.bump c fun p' sub' hp' hsub' => ?_
    simp only [R.netCnt]
    omega
  · exact .refl

theorem Chip.SameGood.muiEvent (c : Chip) (code : Nat) (l : List CField) : c.SameGood (c.muiEvent code l) := .event _ _ _ _

theorem Chip.SameGood.ptpAnnounce (c : Chip) (p : Nat) (a : Announce) : c.SameGood (c.ptpAnnounce p a) := by
  have same : ∀ (f : PtpPort → PtpPort), c.SameGood (c.modPtp p f) := fun _ _ _ _ _ => rfl
  unfold Chip.ptpAnnounce
  dsimp only
  cases bestMaster ((c.ptp p).heard.filter (fun x => x.sender != a.sender) ++ [a]) with
  | none => exact same _
  | some m =>
    dsimp only
    generalize hd : (if decide (_ < m.clockClass) then Chip.failInput _ p 5 else _) = d
    have tested : c.SameGood d := by
      rw [← hd]
      split <;> exact same fun q => q
    cases (c.ptp p).qualGm with
    | none => exact tested
    | some old =>
      dsimp only
      split
      · exact tested
      · exact tested.trans (.muiEvent (((d.failInput p 6).passInput p 6).modPtp p _) _ _)

theorem Chip.SameGood.phiSample (c : Chip) (k : Nat) (phi : Int) (credit : Nat) : c.SameGood (c.phiSample k phi credit) :=
  .ofRegs (Chip.OneInput.phiSample c k phi credit).regs fun _ _ hp hsub => (netCnt_notMem hp hsub (by decide) (n := 0)).2.2.2.2

theorem Chip.SameGood.ptpComplete (c : Chip) (p : Nat) (x : Int × Int) : c.SameGood (c.ptpComplete p x) := by
  unfold Chip.ptpComplete
  extract_lets port classOk d e window f
  have tested : c.SameGood e := by
    unfold e
    split
    · show c.SameGood (d.modRefIn _ _)
      unfold d
      split <;> exact (.refl : c.SameGood c)
    · unfold d
      split <;> exact (.refl : c.SameGood c)
  clear_value e
  split
  · split
    · exact tested.trans (.phiSample (e.modPtp p _) _ _ _)
    · exact tested
  · exact tested

theorem Chip.SameGood.ptpReceive (c : Chip) (p : Nat) (m : PtpFrame) : c.SameGood (c.ptpReceive p m) := by
  have asks : ∀ (x : Chip) (saddr seq : Nat), x.SameGood (x.delayReq p saddr seq) := fun x saddr seq => .netSend x p 0 _
  unfold Chip.ptpReceive
  split
  · cases m.msg with
    | announce domain a =>
      simp only [Chip.ptpMessage]
      split
      · exact .ptpAnnounce _ _ _
      · exact .refl
    | sync domain sender seq twoStep t1 t2 corr =>
      simp only [Chip.ptpMessage]
      split
      · split
        · exact (.refl : c.SameGood c)
        · exact asks (c.modPtp p _) _ _
      · exact .refl
    | followUp domain sender seq t1 corr =>
      simp only [Chip.ptpMessage]
      split
      · split
        · exact asks (c.modPtp p _) _ _
        · exact .refl
      · exact .refl
    | delayResp domain sender seq t3 t4 corr =>
      simp only [Chip.ptpMessage]
      split
      · split
        · exact .ptpComplete (c.modPtp p _) _ _
        · exact .refl
      · exact .refl
    | other => exact .refl
  · exact .refl

theorem Chip.SameGood.baseReceive (c : Chip) (p sub : Nat) (r : BaseReq) : c.SameGood (c.baseReceive p sub r) := by
  unfold Chip.baseReceive
  split
  · refine .ofRegs (regsSame_joinGroups c p sub _) fun p' sub' hp' hsub' => ?_
    simp only [List.mem_singleton, R.netCnt]
    omega
  · split
    · exact .netSend c p sub _
    · exact .refl

/-- R140: where a good frame goes leaves the count of good frames. -/
theorem Chip.SameGood.classify (c : Chip) (fr : EthFrame) : c.SameGood (c.classify fr) := by
  have discards : c.SameGood (c.bump (R.netCnt fr.port fr.sub 2)) := .bump c fun p sub hp' hsub' => by
    simp only [R.netCnt]
    omega
  unfold Chip.classify
  split
  · split
    · exact .ptpReceive _ _ _
    · split
      · next f found =>
        have matched := List.find?_some found
        simp only [Chip.flowMatches, Bool.and_eq_true, bne_iff_ne] at matched
        exact .flowReceive _ matched.1.1.1.1.1.1.1.2 _
      · exact discards
  · exact .baseReceive _ _ _ _
  · exact discards

end

/-! ### What classification does -/

section
variable {s : State} {t : Stamp} {fr : EthFrame}

/-- R138: a good frame is counted, wherever it goes. -/
theorem good_counted (good : GoodFrame s.chip fr) : Answers (.ethFrameReceive t fr) s (fun c =>
    c.reg (R.netCnt fr.port fr.sub 0) = (s.chip.bump (R.netCnt fr.port fr.sub 0)).reg (R.netCnt fr.port fr.sub 0)) := by
  refine answers_exec (exec_goodFrame good) ((Chip.SameGood.classify _ fr _ _ good.port good.sub).trans ?_)
  rw [Chip.counted, Chip.bump_reg, Chip.bump_reg]
  rfl

/-- A second count leaves the first. -/
theorem Chip.counted_bump (c : Chip) {a : Nat} (h : a ≠ R.netCnt fr.port fr.sub 0) :
    ((c.counted t fr).bump a).reg (R.netCnt fr.port fr.sub 0) = (c.bump (R.netCnt fr.port fr.sub 0)).reg (R.netCnt fr.port fr.sub 0) ∧
      ((c.counted t fr).bump a).reg a = (c.bump a).reg a ∧ regsSame [R.netCnt fr.port fr.sub 0, a] c.regs ((c.counted t fr).bump a).regs := by
  refine ⟨?_, ?_, ?_⟩
  · rw [Chip.bump_reg, if_neg h.symm, Chip.counted, Chip.bump_reg, Chip.bump_reg]
    rfl
  · rw [Chip.bump_reg, Chip.bump_reg, if_pos rfl, if_pos rfl, Chip.counted, Chip.bump_reg, if_neg h]
    rfl
  · rw [regsSame_bump_iff (by simp)]
    exact (regsSame_counted c t fr).mono fun b hb => by simp [List.mem_singleton.mp hb]

theorem frame_discarded (good : GoodFrame s.chip fr) (nowhere : fr.body = .other ∨
      ∃ d, fr.body = .udp d ∧ s.chip.ptpOf fr.port fr.sub d = none ∧ s.chip.flowOf fr.port fr.sub d = none) :
    Answers (.ethFrameReceive t fr) s (fun c =>
      c.reg (R.netCnt fr.port fr.sub 0) = (s.chip.bump (R.netCnt fr.port fr.sub 0)).reg (R.netCnt fr.port fr.sub 0) ∧
      c.reg (R.netCnt fr.port fr.sub 2) = (s.chip.bump (R.netCnt fr.port fr.sub 2)).reg (R.netCnt fr.port fr.sub 2) ∧
      c.tx = s.chip.tx ∧ c.net = s.chip.net ∧ s.chip.writesOnly c [R.netCnt fr.port fr.sub 0, R.netCnt fr.port fr.sub 2] ∧
      s.chip.raises c []) := by
  refine answers_exec (exec_goodFrame good) ?_
  have same := regsSame_counted s.chip t fr
  have goes : (s.chip.counted t fr).classify fr = (s.chip.counted t fr).bump (R.netCnt fr.port fr.sub 2) := by
    unfold Chip.classify
    rcases nowhere with body | ⟨d, body, ptp, flow⟩
    · rw [body]
    · rw [body]
      dsimp only
      rw [Chip.ptpOf_of_same good.port good.sub (by decide) same, ptp, Chip.flowOf_of_same good.port good.sub (by decide) same, flow]
  obtain ⟨first, second, only⟩ := s.chip.counted_bump (t := t) (fr := fr) (a := R.netCnt fr.port fr.sub 2) (by unfold R.netCnt; omega)
  rw [goes]
  exact ⟨first, second, rfl, rfl, Chip.writesOnly_of only rfl rfl, Chip.raises_of_evq rfl⟩

/-- The addresses of an interface lie apart from the sub-ports' counters. -/
theorem Chip.netIf_counted (c : Chip) (hp : fr.port < 2) (hsub : fr.sub < 4) : (c.counted t fr).netIf fr.port fr.sub = c.netIf fr.port fr.sub := by
  have same := regsSame_counted c t fr
  have off : R.netIfMacHi fr.port fr.sub ∉ [R.netCnt fr.port fr.sub 0] ∧ R.netIfMacLo fr.port fr.sub ∉ [R.netCnt fr.port fr.sub 0] ∧
      R.netIfIpv4 fr.port fr.sub ∉ [R.netCnt fr.port fr.sub 0] ∧ R.netIfIpv6 fr.port fr.sub 0 ∉ [R.netCnt fr.port fr.sub 0] ∧
      R.netIfIpv6 fr.port fr.sub 1 ∉ [R.netCnt fr.port fr.sub 0] ∧ R.netIfIpv6 fr.port fr.sub 2 ∉ [R.netCnt fr.port fr.sub 0] ∧
      R.netIfIpv6 fr.port fr.sub 3 ∉ [R.netCnt fr.port fr.sub 0] := by
    simp only [List.mem_singleton, R.netIfMacHi, R.netIfMacLo, R.netIfIpv4, R.netIfIpv6, R.netCnt]
    omega
  obtain ⟨hi, lo, v4, v60, v61, v62, v63⟩ := off
  have port : ¬ (fr.port == 2) = true := by
    rw [beq_iff_eq]
    omega
  simp only [Chip.netIf, if_neg port, Chip.addrOf, same.reg hi, same.reg lo, same.reg v4, same.reg v60, same.reg v61, same.reg v62, same.reg v63]

theorem base_request (good : GoodFrame s.chip fr) {r : BaseReq} (body : fr.body = .base r) {P : Chip → Prop}
    (hP : P ((s.chip.counted t fr).baseReceive fr.port fr.sub r)) : Answers (.ethFrameReceive t fr) s P := by
  refine answers_exec (exec_goodFrame good) ?_
  unfold Chip.classify
  rw [body]
  exact hP

theorem request_answered (good : GoodFrame s.chip fr) {r : BaseReq} {a : BaseAnswer} (body : fr.body = .base r)
    (answer : (s.chip.netIf fr.port fr.sub).answer r = some a) :
    Answers (.ethFrameReceive t fr) s (fun c => c.tx = s.chip.tx ++ [.answer fr.port fr.sub a] ∧
      c.reg (R.netCnt fr.port fr.sub 3) = (s.chip.bump (R.netCnt fr.port fr.sub 3)).reg (R.netCnt fr.port fr.sub 3) ∧
      s.chip.writesOnly c [R.netCnt fr.port fr.sub 0, R.netCnt fr.port fr.sub 3] ∧ s.chip.raises c []) := by
  refine base_request good body ?_
  have on : (s.chip.counted t fr).subportOn fr.port fr.sub = true :=
    (Chip.subportOn_of_same (regsSame_counted s.chip t fr) (netCnt_apart good.port good.sub 0 (by decide) 0 0 fr.port good.port).2.2.2.2.1 _).trans
      good.on
  have sends : (s.chip.counted t fr).baseReceive fr.port fr.sub r =
      ((s.chip.counted t fr).bump (R.netCnt fr.port fr.sub 3)).send (.answer fr.port fr.sub a) := by
    have query : ∀ v6 g, r ≠ .query v6 g := fun v6 g h => by
      rw [h] at answer
      exact absurd answer (by simp [NetIf.answer])
    unfold Chip.baseReceive
    split
    · exact absurd rfl (query _ _)
    · rw [Chip.netIf_counted _ good.port good.sub, answer]
      exact if_pos on
  obtain ⟨-, second, only⟩ := s.chip.counted_bump (t := t) (fr := fr) (a := R.netCnt fr.port fr.sub 3) (by unfold R.netCnt; omega)
  rw [sends]
  exact ⟨rfl, second, Chip.writesOnly_of only rfl rfl, Chip.raises_of_evq rfl⟩

theorem request_ignored (good : GoodFrame s.chip fr) {r : BaseReq} (body : fr.body = .base r)
    (answer : (s.chip.netIf fr.port fr.sub).answer r = none) (notQuery : ∀ v6 g, r ≠ .query v6 g) :
    Answers (.ethFrameReceive t fr) s (fun c => c.tx = s.chip.tx ∧ s.chip.writesOnly c [R.netCnt fr.port fr.sub 0] ∧ s.chip.raises c []) := by
  refine base_request good body ?_
  have ignores : (s.chip.counted t fr).baseReceive fr.port fr.sub r = s.chip.counted t fr := by
    unfold Chip.baseReceive
    split
    · exact absurd rfl (notQuery _ _)
    · rw [Chip.netIf_counted _ good.port good.sub, answer]
  rw [ignores]
  exact ⟨rfl, Chip.writesOnly_of (regsSame_counted _ _ _) rfl rfl, Chip.raises_of_evq rfl⟩

theorem query_joins (good : GoodFrame s.chip fr) {v6 : Bool} {g : Option Nat} {f : Nat} (body : fr.body = .base (.query v6 g)) (hf : f < 1024)
    (asks : s.chip.flowAsks fr.port fr.sub (some (v6, g)) f = true) :
    Answers (.ethFrameReceive t fr) s (fun c => s.chip.flowJoin fr.port fr.sub f ∈ c.tx ∧
      s.chip.writesOnly c [R.netCnt fr.port fr.sub 0, R.netCnt fr.port fr.sub 3] ∧ s.chip.raises c []) := by
  have run : (s.chip.counted t fr).baseReceive fr.port fr.sub (.query v6 g) =
      (s.chip.counted t fr).joinGroups fr.port fr.sub (some (v6, g)) := rfl
  refine base_request good body ?_
  rw [run]
  have same := regsSame_counted s.chip t fr
  have off := netCnt_apart good.port good.sub 0 (by decide) f
  obtain ⟨flow, -, -, -, port, -⟩ := off 0 fr.port good.port
  have daddr := fun j => (off j fr.port good.port).2.2.1
  have saddr := fun j => (off j fr.port good.port).2.2.2.1
  have joined := regsSame_joinGroups (s.chip.counted t fr) fr.port fr.sub (some (v6, g))
  refine ⟨?_, Chip.writesOnly_of ?_ ?_ ?_, Chip.raises_of_evq ?_⟩
  · rw [← Chip.flowJoin_of_same same flow daddr saddr]
    exact Chip.joinGroups_joins good.port good.sub hf ((Chip.subportOn_of_same same port _).trans good.on)
      ((Chip.flowAsks_of_same same flow daddr port _).trans asks)
  · exact (same.mono fun a ha => by simp [List.mem_singleton.mp ha]).trans (joined.mono fun a ha => by simp [List.mem_singleton.mp ha])
  · rw [Chip.joinGroups_dram]
    rfl
  · rw [Chip.joinGroups_tbw]
    rfl
  · rw [Chip.joinGroups_evq]
    rfl

theorem bad_counted (hp : fr.port < 2) (hsub : fr.sub < 4) (on : s.chip.subportOn fr.port fr.sub = true)
    (bad : fr.good = false ∨ s.chip.fld (R.netPort fr.port) 13 0 < fr.ipBytes) :
    Answers (.ethFrameReceive t fr) s (fun c =>
      c.reg (R.netCnt fr.port fr.sub 1) = (s.chip.bump (R.netCnt fr.port fr.sub 1)).reg (R.netCnt fr.port fr.sub 1) ∧
      c.net = s.chip.net ∧ c.tx = s.chip.tx ∧ s.chip.writesOnly c [R.netCnt fr.port fr.sub 1] ∧ s.chip.raises c []) := by
  refine answers_exec (exec_ethFrame hp hsub) ?_
  have there : ¬ (!(s.chip.at t).subportOn fr.port fr.sub) = true := by
    rw [show (s.chip.at t).subportOn fr.port fr.sub = s.chip.subportOn fr.port fr.sub from rfl, on]
    decide
  have refused : (!fr.good || decide ((s.chip.at t).fld (R.netPort fr.port) 13 0 < fr.ipBytes)) = true := by
    rw [show (s.chip.at t).fld (R.netPort fr.port) 13 0 = s.chip.fld (R.netPort fr.port) 13 0 from rfl]
    rcases bad with h | h
    · rw [h]; rfl
    · rw [decide_eq_true h, Bool.or_true]
  rw [Chip.received, if_neg there, if_pos refused]
  refine ⟨?_, rfl, rfl, Chip.writesOnly_of ?_ rfl rfl, Chip.raises_of_evq rfl⟩
  · rw [Chip.bump_reg, Chip.bump_reg]
    rfl
  · rw [regsSame_bump_iff List.mem_cons_self]
    exact (regsSame.refl : regsSame _ s.chip.regs s.chip.regs)

theorem ptp_received (good : GoodFrame s.chip fr) {d : Datagram} {m : PtpFrame} (body : fr.body = .udp d)
    (ptp : s.chip.ptpOf fr.port fr.sub d = some m) : Gives (.ethFrameReceive t fr) s ((s.chip.counted t fr).ptpReceive fr.port m) := by
  refine gives_exec (exec_goodFrame good) ?_
  unfold Chip.classify
  rw [body]
  dsimp only
  rw [Chip.ptpOf_of_same good.port good.sub (by decide) (regsSame_counted s.chip t fr), ptp]

theorem point_queued (good : GoodFrame s.chip fr) {d : Datagram} {f : Nat} (body : fr.body = .udp d)
    (ptp : s.chip.ptpOf fr.port fr.sub d = none) (flow : s.chip.flowOf fr.port fr.sub d = some f) (target : s.chip.fld (R.netFlow f) 25 24 = 2)
    (on : s.chip.bit R.pntCtl 31 = true) (room : s.chip.pnt.queue.length < 2048) :
    Answers (.ethFrameReceive t fr) s (fun c => c.pnt.queue = s.chip.pnt.queue ++ [⟨f, t, d.payload⟩] ∧
      c.reg (R.pntCnt 0) = (s.chip.bump (R.pntCnt 0)).reg (R.pntCnt 0) ∧
      s.chip.writesOnly c [R.netCnt fr.port fr.sub 0, R.pntCnt 0] ∧ s.chip.raises c []) := by
  have same := regsSame_counted s.chip t fr
  obtain ⟨hflow, -⟩ := netCnt_apart good.port good.sub 0 (by decide) f 0 0 (by decide)
  have apart : R.pntCnt 0 ≠ R.netCnt fr.port fr.sub 0 := by
    have := good.port
    have := good.sub
    simp only [R.pntCnt, R.netCnt]
    omega
  obtain ⟨-, second, only⟩ := s.chip.counted_bump (t := t) (fr := fr) apart
  have ctl : ((s.chip.counted t fr).bump (R.pntCnt 0)).bit R.pntCtl 31 = true := by
    have off : R.pntCtl ∉ [R.netCnt fr.port fr.sub 0, R.pntCnt 0] := by
      have := good.port
      have := good.sub
      simp only [List.mem_cons, List.not_mem_nil, or_false, R.pntCtl, R.pntCnt, R.netCnt]
      omega
    exact (only.bit off 31).trans on
  refine answers_exec (exec_goodFrame good) ?_
  unfold Chip.classify
  rw [body]
  dsimp only
  rw [Chip.ptpOf_of_same good.port good.sub (by decide) same, ptp, Chip.flowOf_of_same good.port good.sub (by decide) same, flow]
  dsimp only
  unfold Chip.flowReceive
  dsimp only
  rw [same.fld hflow, target, if_pos (by decide)]
  unfold Chip.pointArrive Chip.pntBump
  dsimp only
  have clk : (s.chip.counted t fr).clk = t := rfl
  have queue : ((s.chip.counted t fr).bump (R.pntCnt 0)).pnt = s.chip.pnt := rfl
  have evq : ((s.chip.counted t fr).bump (R.pntCnt 0)).evq = s.chip.evq := rfl
  have dram : ((s.chip.counted t fr).bump (R.pntCnt 0)).dram = s.chip.dram := rfl
  have tbw : ((s.chip.counted t fr).bump (R.pntCnt 0)).tbw = s.chip.tbw := rfl
  rw [ctl, if_neg (by decide), queue, if_neg (by omega), clk]
  exact ⟨rfl, second, Chip.writesOnly_of only dram tbw, Chip.raises_of_evq evq⟩

/-! ### The MGT port (R141) -/

theorem exec_mgtFrame (hp : fr.port = 2) (hsub : fr.sub < 4) :
    exec (.ethFrameReceive t fr) s = .next { s with chip := (s.chip.at t).mgtFrame fr } := by
  rw [show exec (.ethFrameReceive t fr) s = execEthFrameReceive t fr s from rfl, execEthFrameReceive,
    runIf_of _ _ _ (by simp [hsub, hp])]
  dsimp only
  rw [if_pos (by rw [hp]; rfl)]

end

/-- Settles O33: a good frame is counted and goes to its protocol, its flow or nowhere, a bad one is counted as an error, and the MGT port
answers requests alone. -/
theorem receivedFrameIsCountedAndClassified : Obligations.ReceivedFrameIsCountedAndClassified := by
  unfold Obligations.ReceivedFrameIsCountedAndClassified
  refine ⟨?_, ?_, ?_, ?_, ?_, ?_, ?_, ?_, ?_, ?_, ?_⟩
  · intro s t fr hp hsub on good short
    exact good_counted ⟨hp, hsub, on, good, short⟩
  · intro s t fr hp hsub on good short nowhere
    refine frame_discarded ⟨hp, hsub, on, good, short⟩ ?_
    cases body : fr.body with
    | other => exact .inl rfl
    | base r =>
      rw [body] at nowhere
      exact absurd nowhere (by simp)
    | udp d =>
      rw [body] at nowhere
      simp only [Bool.and_eq_true, Option.isNone_iff_eq_none] at nowhere
      exact .inr ⟨d, rfl, nowhere⟩
  · intro s t fr r a hp hsub on good short body answer
    exact request_answered ⟨hp, hsub, on, good, short⟩ body answer
  · intro s t fr r hp hsub on good short body answer notQuery
    exact request_ignored ⟨hp, hsub, on, good, short⟩ body answer fun v6 g h => by
      rw [h] at notQuery
      exact absurd notQuery (by simp)
  · intro s t fr v6 g f hp hsub on good short body hf en port sb ver mc which
    have asks : s.chip.flowAsks fr.port fr.sub (some (v6, g)) f = true := by
      simp only [Chip.flowAsks, en, port, sb, ver, mc, beq_self_eq_true, Bool.and_self, Bool.true_and, Bool.or_eq_true, beq_iff_eq]
      exact which
    obtain ⟨s', hs', hq, join, only, raised⟩ := query_joins (t := t) ⟨hp, hsub, on, good, short⟩ body hf asks
    rw [Chip.flowJoin, ver] at join
    exact ⟨s', hs', hq, join, only, raised⟩
  · intro s t fr hp hsub on bad
    exact bad_counted hp hsub on bad
  · intro s t fr d m hp hsub on good short body ptp
    exact ptp_received ⟨hp, hsub, on, good, short⟩ body ptp
  · intro s t fr d f hp hsub on good short body ptp flow target ctl room
    exact point_queued ⟨hp, hsub, on, good, short⟩ body ptp flow target ctl room
  · intro s t fr hp hsub off
    refine gives_exec (exec_ethFrame hp hsub) (if_pos ?_)
    rw [show (s.chip.at t).subportOn fr.port fr.sub = s.chip.subportOn fr.port fr.sub from rfl, off]
    rfl
  · intro s t fr r a hp hsub good on body answer
    refine gives_exec (exec_mgtFrame hp hsub) ?_
    unfold Chip.mgtFrame
    rw [body]
    dsimp only
    rw [show (s.chip.at t).netIf 2 0 = s.chip.netIf 2 0 from rfl, answer]
    dsimp only
    rw [if_pos (by rw [good, show (s.chip.at t).bit R.mgtCtl 31 = s.chip.bit R.mgtCtl 31 from rfl, on]; rfl)]
  · intro s t fr hp hsub h
    refine gives_exec (exec_mgtFrame hp hsub) ?_
    unfold Chip.mgtFrame
    cases body : fr.body with
    | base r =>
      rw [body] at h
      dsimp only
      rw [show (s.chip.at t).netIf 2 0 = s.chip.netIf 2 0 from rfl, show (s.chip.at t).bit R.mgtCtl 31 = s.chip.bit R.mgtCtl 31 from rfl]
      cases answer : (s.chip.netIf 2 0).answer r with
      | none => rfl
      | some a =>
        dsimp only at h
        rw [answer] at h
        refine if_neg ?_
        rw [Bool.and_eq_true]
        rintro ⟨h1, h2⟩
        rcases h with h | h | h
        · exact absurd (h.symm.trans h2) (by decide)
        · exact absurd (h.symm.trans h1) (by decide)
        · exact absurd h (by simp)
    | udp d => rfl
    | other => rfl

end Sys2Proof.Machine

/-! ## Capture ports: a frame that the twin has announced (R224, R353) -/

namespace Sys2Proof.Machine

/-- The registers of capture port 3 and slot 9, whose frames the two parts of a pair agree on. -/
def agreedCaptureRegs : List (Nat × Nat) :=
  [(R.srcCfg 9, 2 ^ 31 + 4 * 2 ^ 28 + 3 * 2 ^ 16 + 4 * 2 ^ 8), (R.srcRecHi 9, 0x10), (R.srcPoolHi 9, 0x10), (R.srcPoolLo 9, 0x100000),
    (R.twnStat, 2), (R.twnAgree 0, 2 ^ 9)]

/-- A capture frame that fills buffer 2 of slot 9 from stamp 5000 on. -/
def agreedCapture : CapFrame := { slot := 9, buf := some 2, seq := 5, arrival := 5000, differs := false, rows := [] }

/-- A part of a pair whose capture port 3 receives `agreedCapture`, while the twin's HOLD with the capture stamp 1 waits for it. -/
def announcedCapture : State :=
  { State.reset with
    chip :=
      Chip.putFrameRec ({ agreedCaptureRegs.foldl (fun c e => c.setNat e.1 e.2) State.reset.chip with
      caps := [(3, { frame := some agreedCapture })],
      slots := [(9, { agree := [{ key := 0, twin := some (Verdict.mk true false 1 1 0) }] })] }) 9 2
        (FrameRec.mk 5 6 7 0 9 12 1 false false false 0) }

theorem exec_captureFrameEnd (s : State) (t : Stamp) {q : Nat} (hq : q < 4) :
    exec (.captureFrameEnd t q) s = .next { s with
      chip := (s.chip.at t).endCapture q } :=
  if_pos (decide_eq_true hq)

/-- Refutes O41: a capture frame of an agreed slot takes the earlier capture stamp of the twin's verdict that waits for it (R353), not its arrival
less the slot's latency. -/
theorem not_capturePortFollowsItsLinkAndFrames : ¬ Obligations.CapturePortFollowsItsLinkAndFrames := by
  unfold Obligations.CapturePortFollowsItsLinkAndFrames
  rintro ⟨-, -, -, -, -, -, -, stamped, -⟩
  have ended := of_answers (stamped announcedCapture 5 3 2 agreedCapture (by decide) (by decide +kernel) rfl (by decide) (by decide)
    (by decide +kernel) (by decide +kernel)) (exec_captureFrameEnd _ 5 (by decide))
  exact absurd ended.2.2 (by decide +kernel)

end Sys2Proof.Machine

/-! ## Camera outputs: a slot whose format code means nothing (R157, R205, R258) -/

namespace Sys2Proof.Machine

/-! ### A tone curve of zeros makes every pixel black (R213) -/

/-- A black pixel. -/
def black : Px := { r := 0, g := 0, b := 0, a := 255 }

theorem clampInt_toNat_le (v : Int) : (clampInt 0 16383 v).toNat ≤ 16383 := by
  unfold clampInt
  split
  · simp
  · split <;> omega

theorem Chip.ispPx_of_noTone {c : Chip} {p : Nat} (h : ∀ i ≤ 128, c.fld (R.camTone p i) 9 0 = 0) (f : CamFrame) (x y : Nat) :
    c.ispPx p f false x y = black := by
  have tone (v : Int) : (c.fld (R.camTone p ((clampInt 0 16383 v).toNat / 128)) 9 0 * (128 - (clampInt 0 16383 v).toNat % 128) +
      c.fld (R.camTone p ((clampInt 0 16383 v).toNat / 128 + 1)) 9 0 * ((clampInt 0 16383 v).toNat % 128) + 64) / 128 = 0 := by
    have hv := clampInt_toNat_le v
    rw [h _ (by omega), h _ (by omega)]
    simp
  simp only [Chip.ispPx, Bool.false_eq_true, if_false]
  rw [tone, tone, tone]
  rfl

theorem Chip.ispOut_of_noTone {c : Chip} {p o cw ch ow oh : Nat} (h : ∀ i ≤ 128, c.fld (R.camTone p i) 9 0 = 0)
    (hy : c.bit (R.camOut p o) 30 = false) (hcw : c.fld (R.camOutCrop p o) 15 0 = cw) (hch : c.fld (R.camOutCrop p o) 31 16 = ch)
    (how : c.fld (R.camOutSize p o) 15 0 = ow) (hoh : c.fld (R.camOutSize p o) 31 16 = oh) (f : CamFrame) :
    c.ispOut p o f = scalePx cw ch ow oh (fun _ _ => black) := by
  funext x y
  simp only [Chip.ispOut, hy, Chip.ispPx_of_noTone h, hcw, hch, how, hoh]

theorem Chip.putPic_one (c : Chip) {p : Pic} (h : p.h = 1) (ycc : Px → Nat × Nat × Nat) (px : Nat → Nat → Px) :
    c.putPic p ycc px = c.putRow p ycc 0 px := by
  rw [Chip.putPic, h]
  rfl

/-! ### The output writes over the frame record -/

/-- The registers of camera 7's output 0 and slot 9, whose format code is 8 and whose buffer 0 lies where its frame record lies. -/
def overlaidOutputRegs : List (Nat × Nat) :=
  [(R.srcCfg 9, 2 ^ 31 + 3 * 2 ^ 28 + 21 * 2 ^ 16 + 4 * 2 ^ 8 + 8), (R.srcRecHi 9, 0x10), (R.srcPoolHi 9, 0x10), (R.camOutSize 7 0, 2 ^ 16 + 21)] ++
    (List.range 129).map (fun i => (R.camTone 7 i, 0))

/-- A frame of camera 7 that has ended and whose output 0 fills buffer 0 of slot 9. -/
def endedFrame : CamFrame := { n := 4, arrival := 40, last := 50, rows := [], code := 2, outs := [(0, 9, some 0)] }

/-- The part with `endedFrame` and the registers of `overlaidOutputRegs`, where the frame record says FILLING. -/
def overlaidOutput : State :=
  { State.reset with
    chip := Chip.putFrameRec ({ overlaidOutputRegs.foldl (fun c e => c.setNat e.1 e.2) State.reset.chip with
      cams := [(7, { ended := [endedFrame] })] }) 9 0 (FrameRec.mk 5 6 7 0 9 12 1 false false false 0) }

/-- Output `o` of camera `p` finishes its frame of `f` in buffer `i` of slot `n`, and the frame keeps no output `o`. -/
def Chip.outputDone (c : Chip) (p o n i : Nat) (f : CamFrame) : Chip :=
  (c.finishOutput p o n i f).modCam p (fun m => { m with
    ended := (m.ended.map (fun g => if g.n == f.n then { g with outs := g.outs.filter (fun u => u.1 != o) } else g)).filter
      (fun g => !g.outs.isEmpty) })

theorem exec_cameraOutputFinish {s : State} (t : Stamp) {p o n i : Nat} {f : CamFrame} (ok : (decide (p < 8) && decide (o < 3)) = true)
    (hf : (s.chip.cam p).ended.find? (fun f => f.outs.any (fun u => u.1 == o)) = some f)
    (hu : f.outs.find? (fun u => u.1 == o) = some (o, n, some i)) :
    exec (.cameraOutputFinish t p o) s = .next { s with
      chip := (s.chip.at t).outputDone p o n i f } := by
  rw [show exec (.cameraOutputFinish t p o) s = execCameraOutputFinish t p o s from rfl, execCameraOutputFinish, runIf_of _ _ _ ok]
  simp only [show ((s.chip.at t).cam p).ended.find? (fun f => f.outs.any (fun u => u.1 == o)) = some f from hf, hu]
  rfl

/-- The picture that the output writes. -/
def overlaidPic : Pic := ⟨0x1000000000, 8, 21, 1⟩

theorem overlaidOutput_pic : ({ (overlaidOutput.chip.at 5).bufPic 9 0 with
      w := (overlaidOutput.chip.at 5).fld (R.camOutSize 7 0) 15 0, h := (overlaidOutput.chip.at 5).fld (R.camOutSize 7 0) 31 16 } : Pic) =
    overlaidPic := by decide +kernel

theorem overlaidOutput_tone (i : Nat) (hi : i ≤ 128) : (overlaidOutput.chip.at 5).fld (R.camTone 7 i) 9 0 = 0 := by
  have all : (List.range 129).all (fun i => (overlaidOutput.chip.at 5).fld (R.camTone 7 i) 9 0 == 0) = true := by decide +kernel
  exact beq_iff_eq.mp (List.all_eq_true.mp all i (List.mem_range.mpr (by omega)))

theorem overlaidOutput_ycc : (overlaidOutput.chip.at 5).bit (R.camOut 7 0) 30 = false := by decide +kernel

theorem overlaidOutput_crop : (overlaidOutput.chip.at 5).fld (R.camOutCrop 7 0) 15 0 = 0 ∧
    (overlaidOutput.chip.at 5).fld (R.camOutCrop 7 0) 31 16 = 0 := by decide +kernel

theorem overlaidOutput_size : (overlaidOutput.chip.at 5).fld (R.camOutSize 7 0) 15 0 = 21 ∧
    (overlaidOutput.chip.at 5).fld (R.camOutSize 7 0) 31 16 = 1 := by decide +kernel

theorem overlaidOutput_px : (overlaidOutput.chip.at 5).ispOut 7 0 endedFrame = scalePx 0 0 21 1 (fun _ _ => black) :=
  Chip.ispOut_of_noTone (cw := 0) (ch := 0) (ow := 21) (oh := 1) overlaidOutput_tone overlaidOutput_ycc overlaidOutput_crop.1
    overlaidOutput_crop.2 overlaidOutput_size.1 overlaidOutput_size.2 endedFrame

/-- The part once the output's row of black samples is written. -/
def overlaidOutputRow : Chip := (overlaidOutput.chip.at 5).putRow overlaidPic rgbToYcc 0 (scalePx 0 0 21 1 (fun _ _ => black))

theorem overlaidOutput_written :
    (overlaidOutput.chip.at 5).putPic overlaidPic rgbToYcc ((overlaidOutput.chip.at 5).ispOut 7 0 endedFrame) = overlaidOutputRow := by
  rw [overlaidOutput_px]
  exact Chip.putPic_one _ rfl _ _

theorem overlaidOutput_kept : (overlaidOutput.chip.at 5).finishOutput 7 0 9 0 endedFrame = overlaidOutputRow := by
  have code : (overlaidOutputRow.frameRec 9 0).code ≠ 1 := by decide +kernel
  have written := overlaidOutput_written
  simp only [Chip.finishOutput, overlaidOutput_ycc, Bool.false_eq_true, if_false, overlaidOutput_pic]
  rw [show (fun x y => (overlaidOutput.chip.at 5).ispOut 7 0 endedFrame x y) = (overlaidOutput.chip.at 5).ispOut 7 0 endedFrame from rfl,
    written, Chip.picFinish]
  exact if_pos (bne_iff_ne.mpr code)

/-- Refutes O40: a format code that means nothing takes no bytes by R157, and the output writes its samples all the same, here over the frame
record, which says FILLING no longer when the frame is to finish. -/
theorem not_cameraFramesEndAndSilenceIsTold : ¬ Obligations.CameraFramesEndAndSilenceIsTold := by
  unfold Obligations.CameraFramesEndAndSilenceIsTold
  rintro ⟨-, -, -, -, -, -, finishes, -⟩
  have finished := of_answers (finishes overlaidOutput 5 7 0 9 0 endedFrame (by decide) (by decide) (by decide) (by decide) (by decide +kernel) (by decide +kernel)
    (by decide +kernel) (by decide +kernel) (.inl (by decide +kernel))) (exec_cameraOutputFinish (n := 9) (i := 0) (f := endedFrame) 5 (by decide) (by decide +kernel) (by decide +kernel))
  rw [Chip.outputDone, overlaidOutput_kept] at finished
  exact absurd finished.1 (by decide +kernel)

end Sys2Proof.Machine

/-! ## The management port: a waiting group without pegs (R127, R437, R444) -/

namespace Sys2Proof.Machine

/-- The key of the management messages. -/
def mgtKey : List Byte := List.replicate 32 0x0B

/-- RECALL 0 as soon as possible, sequence number 9 under key 3. -/
def recallBytes : List Byte :=
  leBytes 2 0x4D4E ++ [1, 3] ++ leBytes 8 9 ++ leBytes 8 1000 ++ [3, 0, 0, 0] ++ leBytes 12 0

/-- The management message of `recallBytes`. -/
def recallMsg : List Byte := recallBytes ++ hmac mgtKey recallBytes

/-- A layout of head 0 without entries. -/
def emptyLayout : List Byte := leBytes 4 1 ++ List.replicate 28 0

/-- The LAYOUT section with `emptyLayout` alone. -/
def layoutOfHead0 : FlashSection :=
  { entry := leBytes 8 8 ++ leBytes 16 0, rereadOk := true,
    data := leBytes 2 1 ++ List.replicate 14 0 ++ leBytes 4 24 ++ leBytes 4 32 ++ emptyLayout }

/-- A sealed part with the management port on, the key, the layout, and a group without pegs of base firmware that waits for the stager. -/
def emptyWaits : State :=
  { State.reset with
    chip := { (State.reset.chip.setNat R.mgtCtl (2 ^ 31)).setNat R.pitStat (2 ^ 31) with
      mgt := { State.reset.chip.mgt with keys := [(3, mgtKey)] }
      pitch := { State.reset.chip.pitch with
        image := some { header := [], sections := [layoutOfHead0], sig := [], readOk := true, fwOk := true } }
      peg := { State.reset.chip.peg with fwNext := [⟨8, .preset, []⟩] } } }

/-- The first 28 bytes of a management response. -/
def TxMsg.mgtHead28 : TxMsg → List Byte
  | .mgt _ _ _ l => l.take 28
  | _ => []

theorem recallMsg_passes : (emptyWaits.chip.at 2000).mgtTest recallMsg = 0 := by decide +kernel

theorem emptyWaits_canonical : emptyWaits.chip.canonical := by
  unfold Chip.canonical
  decide +kernel

/-- Refutes O58: RECALL also refuses the group without pegs that waits for the stager before its own, so `PEG_REFUSE` counts and the response to an
accepted RECALL carries status 2. -/
theorem not_managementAndSmbusAreServed : ¬ Obligations.ManagementAndSmbusAreServed := by
  unfold Obligations.ManagementAndSmbusAreServed
  rintro ⟨-, -, -, -, -, answers, -⟩
  have served := of_answers (answers emptyWaits 2000 recallMsg 1 2 0 emptyLayout (by decide +kernel) (by decide +kernel) (by decide +kernel)
    recallMsg_passes (by decide +kernel) (by decide +kernel) (by decide +kernel) emptyWaits_canonical (by decide +kernel) (by decide +kernel)
    (by decide +kernel)) (show exec _ emptyWaits = execMgtRecall 2000 recallMsg 1 2 emptyWaits from rfl)
  have reply := served.1.2.2
  have key : emptyWaits.chip.mgt.keys.find? (fun e => e.1 == leAt recallMsg 3 1) = some (3, mgtKey) := by decide +kernel
  rw [key, Option.any_some, beq_iff_eq] at reply
  exact absurd (congrArg (Option.map TxMsg.mgtHead28) reply) (by decide +kernel)

end Sys2Proof.Machine

/-! ## The plan: a proposal without a window drops the change of number 0 (R473, R475) -/

namespace Sys2Proof.Machine

/-- The registers of a part that plans at second 0 of the day, with no maintenance window enabled and the core's target too high. -/
def planRegs : List (Nat × Nat) :=
  [(R.ageCtl, 2 ^ 31), (R.ageAvsTgt, 100), (R.ageWin 0, 1), (R.ageWin 1, 1), (R.ageWin 2, 1), (R.ageWin 3, 1)]

/-- A change of a SerDes lane that waits, the first that the planner has scheduled. -/
def firstChange : Change := ⟨0, 2, 0, R.ageEq 0, 0, 1, 0xE000, 0, 0, false, false⟩

/-- A part sealed at stamp 0 whose planner waits for `firstChange`. -/
def plansWithoutWindow : State :=
  { State.reset with
    chip := { planRegs.foldl (fun c e => c.setNat e.1 e.2) State.reset.chip with
      age := { State.reset.chip.age with changes := [firstChange], nextId := 1 }
      pitch := { State.reset.chip.pitch with sealAt := some 0 } } }

/-- Refutes O60: a proposal carries the number 0 until it is scheduled, so one that no window permits also takes the waiting change of number 0
off the list. -/
theorem not_sweepsEyesPlansAndRemeasures : ¬ Obligations.SweepsEyesPlansAndRemeasures := by
  unfold Obligations.SweepsEyesPlansAndRemeasures
  rintro ⟨-, -, -, -, plans, -⟩
  have planned := of_answers (plans plansWithoutWindow (86400 * nsPerS) 0 (by decide +kernel) (by decide +kernel) rfl (by decide +kernel)
    (by decide +kernel) (by unfold Chip.stagerIdle; decide +kernel) (by decide +kernel) (by decide +kernel))
    (show exec _ plansWithoutWindow = execPlan (86400 * nsPerS) plansWithoutWindow from rfl)
  exact absurd planned.1 (by decide +kernel)

end Sys2Proof.Machine

/-! ## Decode jobs: a slot number whose counters are a context's result block (R162, R181, R198) -/

namespace Sys2Proof.Machine

/-- A slot number beyond the 256 slots: its `SRC_CNT` would be the `VDC_CTX_RES` of context 2. -/
def aliasSlot : Nat := 0x1100

theorem srcCnt_aliasSlot : R.srcCnt aliasSlot 0 = R.vdcCtxRes 2 := rfl

/-- A job of `aliasSlot` that runs on engine 0 and fills buffer 0. -/
def aliasJob : PicJob :=
  { slot := aliasSlot, key := 0, codec := false, incomplete := false, lost := 0, rap := true, cls := 0, poc := 0, order := 1, refs := [],
    outRef := none, display := true, deadline := 100, supplied := none, arrival := 40, cause := 0, seq := 0, outBuf := some 0,
    bsAddr := 0, bsLen := 0, depth := 8, running := some (0, 3) }

/-- A part on which `aliasJob` runs for context 2 and the record of its frame says FILLING. -/
def aliasDecode : State :=
  { State.reset with
    chip := Chip.putFrameRec ({ State.reset.chip.setNat (R.srcRecHi aliasSlot) 0x10 with
      dec := [(2, { jobs := [aliasJob] })] }) aliasSlot 0 (FrameRec.mk 5 6 7 0 9 12 1 false false false 0) }

/-- What the engine made of the job: nothing went wrong, and no sample is to be written. -/
def cleanResult : JobResult := ⟨0, [], [], [], []⟩

theorem exec_decodeJobEnd {s : State} (t : Stamp) {e x : Nat} {r : JobResult} {j : PicJob} {rest : List PicJob}
    (ok : (decide (e < 8) && decide (r.cause < 16) && r.cause &&& 2 == 0) = true) (hx : s.chip.decOn e = some x)
    (hj : (s.chip.decCtx x).jobs = j :: rest) :
    exec (.engineJobEnd t false e r) s = .next { s with
      chip := (s.chip.at t).endDec e x j r } := by
  rw [show exec (.engineJobEnd t false e r) s = execEngineJobEnd t false e r s from rfl, execEngineJobEnd, runIf_of _ _ _ (by simpa using ok)]
  simp only [Bool.false_eq_true, if_false, show (s.chip.at t).decOn e = some x from hx,
    show ((s.chip.at t).decCtx x).jobs = j :: rest from hj]

/-- Refutes O36: a job may carry a slot number beyond the 256 slots, and the count of its finished frame is then the context's result block,
whose number advances twice. -/
theorem not_jobsAreBuiltTakenAndEnded : ¬ Obligations.JobsAreBuiltTakenAndEnded := by
  unfold Obligations.JobsAreBuiltTakenAndEnded
  rintro ⟨-, -, -, -, -, -, -, -, -, ends, -⟩
  have ended := of_answers (ends aliasDecode 5 0 2 cleanResult aliasJob [] (by decide) (by decide) (by decide) (by decide +kernel) (by decide)
    (by decide +kernel)) (exec_decodeJobEnd (x := 2) (j := aliasJob) (rest := []) 5 (by decide) (by decide +kernel) (by decide +kernel))
  obtain ⟨-, -, -, -, -, -, number⟩ := ended
  exact absurd number (by decide +kernel)

end Sys2Proof.Machine

/-! ## Scan lines: a peg that enables a stopped head within a frame (R116, R293, R304) -/

namespace Sys2Proof.Machine

/-- A peg at line 0 of head 0 that writes EN = 1 to `HED_CTL[0]`. -/
def enablePeg : Peg :=
  { slot := 0, stager := 1, group := 0, tag := 0, queue := 32, arg := 0, commit := false, rpt := false, armed := true, launch := 0,
    deadline := 1000, writes := [(R.hedCtl 0, BitVec.ofNat 32 (2 ^ 31))] }

/-- A part in which head 0 is stopped and its frame 0 runs, with `enablePeg` armed. -/
def stoppedInFrame : State :=
  { State.reset with
    chip := { (State.reset.chip.setNat (R.hedVtim 0) (8 * 2 ^ 16)).setNat (R.hedPeriod 0) 1000 with
      heads := [(0, { inFrame := true })]
      peg := { State.reset.chip.peg with pegs := [enablePeg] } } }

/-- Refutes O27: a peg at a line's boundary may enable the head, which is stopped here although its frame runs, and starting takes the head's
frame number away. -/
theorem not_linesFetchesAndFrameEndAreKept : ¬ Obligations.LinesFetchesAndFrameEndAreKept := by
  unfold Obligations.LinesFetchesAndFrameEndAreKept
  rintro ⟨starts, -⟩
  have started := of_answers (starts stoppedInFrame 5 0 0 (by decide) (by decide +kernel) (by decide +kernel) (by decide +kernel))
    (show exec _ stoppedInFrame = execHeadLineStart 5 0 0 stoppedInFrame from rfl)
  obtain ⟨-, -, number⟩ := started
  exact absurd number (by decide +kernel)

end Sys2Proof.Machine

/-! ## Tables of registers written in a loop -/

namespace Sys2Proof.Machine

/-- `c1` differs from `c` in its register file alone. -/
def Chip.OnlyRegs (c c1 : Chip) : Prop := c1 = { c with regs := c1.regs }

theorem Chip.OnlyRegs.refl (c : Chip) : c.OnlyRegs c := rfl

theorem Chip.OnlyRegs.trans {c c1 c2 : Chip} (h1 : c.OnlyRegs c1) (h2 : c1.OnlyRegs c2) : c.OnlyRegs c2 := by
  unfold Chip.OnlyRegs at *
  rw [h2, h1]

/-- A part of the state beyond the registers stays. -/
theorem Chip.OnlyRegs.keeps {α : Type} {c c1 : Chip} (h : c.OnlyRegs c1) (g : Chip → α) (hg : ∀ r, g { c with regs := r } = g c) :
    g c1 = g c := (congrArg g h).trans (hg c1.regs)

theorem Chip.onlyRegs_setReg (c : Chip) (a : Nat) (w : Word) : c.OnlyRegs (c.setReg a w) := rfl

theorem Chip.onlyRegs_forN {n : Nat} {f : Nat → Chip → Chip} (h : ∀ i (c : Chip), i < n → c.OnlyRegs (f i c)) (c : Chip) :
    c.OnlyRegs (forN n f c) := by
  induction n with
  | zero => exact .refl c
  | succ n ih =>
    rw [forN_succ]
    exact (ih (fun i c hi => h i c (by omega))).trans (h n _ (by omega))

/-- The words `v 0`, …, `v (n − 1)` are written to the registers `f 0`, …, `f (n − 1)`. -/
def Chip.setTable (c : Chip) (n : Nat) (f : Nat → Nat) (v : Nat → Word) : Chip := forN n (fun i c => c.setReg (f i) (v i)) c

theorem Chip.onlyRegs_setTable (c : Chip) (n : Nat) (f : Nat → Nat) (v : Nat → Word) : c.OnlyRegs (c.setTable n f v) :=
  Chip.onlyRegs_forN (fun i c _ => c.onlyRegs_setReg (f i) (v i)) c

theorem Chip.setTable_succ (c : Chip) (n : Nat) (f : Nat → Nat) (v : Nat → Word) :
    c.setTable (n + 1) f v = (c.setTable n f v).setReg (f n) (v n) := forN_succ _ _ _

theorem Chip.setTable_reg_other (c : Chip) {n : Nat} {f : Nat → Nat} {a : Nat} (v : Nat → Word) (h : ∀ i, i < n → a ≠ f i) :
    (c.setTable n f v).reg a = c.reg a := by
  induction n with
  | zero => rfl
  | succ n ih => rw [Chip.setTable_succ, Chip.setReg_reg_other _ _ (h n (by omega)), ih (fun i hi => h i (by omega))]

theorem Chip.setTable_reg_same (c : Chip) {n i : Nat} {f : Nat → Nat} (v : Nat → Word) (hi : i < n)
    (inj : ∀ i j, f i = f j → i = j) : (c.setTable n f v).reg (f i) = v i := by
  induction n with
  | zero => omega
  | succ n ih =>
    rw [Chip.setTable_succ, Chip.setReg_reg]
    by_cases e : i = n
    · rw [e, if_pos rfl]
    · rw [if_neg (fun h => e (inj i n h)), ih (by omega)]

theorem regsSame_setTable {l : List Nat} (c : Chip) {n : Nat} {f : Nat → Nat} (v : Nat → Word) (h : ∀ i, i < n → f i ∈ l) :
    regsSame l c.regs (c.setTable n f v).regs :=
  fun _ ha => Chip.setTable_reg_other c v (fun i hi e => ha (e ▸ h i hi))

end Sys2Proof.Machine

/-! ## Monitors and the core voltage (R459 to R462) -/

namespace Sys2Proof.Machine

/-! ### A refresh of the monitors -/

theorem ageMon_inj (k i j : Nat) (h : R.ageMon (k + i) = R.ageMon (k + j)) : i = j := by
  unfold R.ageMon at h
  omega

theorem avsStat_ne_ageMon (i : Nat) : R.ageAvsStat ≠ R.ageMon i := by
  unfold R.ageAvsStat R.ageMon
  omega

theorem d2dStat_ne_ageMon (i : Nat) : R.sysD2dStat ≠ R.ageMon i := by
  unfold R.sysD2dStat R.ageMon
  omega

/-- The analogue die's readings: its temperatures and the rails, by register. -/
def farTemp (temps : List Int) (i : Nat) : Word := BitVec.ofInt 32 (temps.getD (20 + i) 0)

/-- See `farTemp`. -/
def farRail (rails : List (Nat × Nat)) (i : Nat) : Word :=
  BitVec.ofNat 32 ((rails.getD i (0, 0)).1 % 65536 * 65536 + (rails.getD i (0, 0)).2 % 65536)

/-- The message that carries the analogue die's readings. -/
def farWords (temps : List Int) (rails : List (Nat × Nat)) : List (Nat × Word) :=
  (List.range 4).map (fun i => (R.ageMon (80 + i), farTemp temps i)) ++
    (List.range 12).map (fun i => (R.ageMon (84 + i), farRail rails i))

/-- The core die's readings are shown. -/
def Chip.showCore (c : Chip) (slacks : List Nat) (temps : List Int) : Chip :=
  (c.setTable 16 (fun i => R.ageMon (44 + i)) (fun i => BitVec.ofNat 32 (min 255 (slacks.getD i 0)))).setTable 20
    (fun i => R.ageMon (60 + i)) (fun i => BitVec.ofInt 32 (temps.getD i 0))

/-- The analogue die's readings are shown, or wait for the link. -/
def Chip.showFar (c : Chip) (temps : List Int) (rails : List (Nat × Nat)) : Chip :=
  if c.d2dUp then (c.setTable 4 (fun i => R.ageMon (80 + i)) (farTemp temps)).setTable 12 (fun i => R.ageMon (84 + i)) (farRail rails)
  else c.queueUp (.sensors (farWords temps rails))

/-- The loop's droop and slack are shown, and their measurement begins anew. -/
def Chip.showMargin (c : Chip) : Chip :=
  ((c.setFld R.ageAvsStat 15 8 (min 255 c.age.droop)).setFld R.ageAvsStat 7 0 c.age.lowSlack).modAge
    (fun a => { a with lowSlack := 255, droop := 0 })

theorem putWords_farWords (c : Chip) (temps : List Int) (rails : List (Nat × Nat)) :
    forL (farWords temps rails) (fun w c => c.setReg w.1 w.2) c =
      (c.setTable 4 (fun i => R.ageMon (80 + i)) (farTemp temps)).setTable 12 (fun i => R.ageMon (84 + i)) (farRail rails) := by
  simp only [farWords, forL, Chip.setTable, forN, List.foldl_append, List.foldl_map]

theorem exec_monitorRefresh {s : State} (t : Stamp) {slacks : List Nat} {temps : List Int} {rails : List (Nat × Nat)}
    (h1 : slacks.length = 16) (h2 : temps.length = 24) (h3 : rails.length = 12) :
    exec (.monitorRefresh t slacks temps rails) s = .next { s with
      chip := (((s.chip.at t).showCore slacks temps).showFar temps rails).showMargin } := by
  rw [show exec (.monitorRefresh t slacks temps rails) s = execMonitorRefresh t slacks temps rails s from rfl, execMonitorRefresh,
    runIf_of _ _ _ (by simp [h1, h2, h3])]
  congr 2
  have core : (s.chip.at t).showCore slacks temps = forN 20 (fun i c => c.setNat (R.ageMon (60 + i)) (twosOf 32 (temps.getD i 0)))
      (forN 16 (fun i c => c.setNat (R.ageMon (44 + i)) (min 255 (slacks.getD i 0))) (s.chip.at t)) := by
    simp only [Chip.showCore, Chip.setTable, Chip.setNat, twosOf_word]
  have far : (List.range 4).map (fun i => (R.ageMon (80 + i), BitVec.ofNat 32 (twosOf 32 (temps.getD (20 + i) 0)))) ++
      (List.range 12).map (fun i => (R.ageMon (84 + i),
        BitVec.ofNat 32 ((rails.getD i (0, 0)).1 % 65536 * 65536 + (rails.getD i (0, 0)).2 % 65536))) = farWords temps rails := by
    simp only [farWords, farTemp, farRail, twosOf_word]
  dsimp only
  rw [← core, far, Chip.showFar]
  simp only [Chip.d2dDeliver, putWords_farWords]
  rfl

section
variable (c : Chip) (slacks : List Nat) (temps : List Int) (rails : List (Nat × Nat))

theorem Chip.showCore_slack {i : Nat} (hi : i < 16) : (c.showCore slacks temps).reg (R.ageMon (44 + i)) =
    BitVec.ofNat 32 (min 255 (slacks.getD i 0)) := by
  rw [Chip.showCore, Chip.setTable_reg_other _ _ (fun j _ h => by unfold R.ageMon at h; omega),
    Chip.setTable_reg_same (f := fun i => R.ageMon (44 + i)) _ _ hi (ageMon_inj 44)]

theorem Chip.showCore_temp {i : Nat} (hi : i < 20) : (c.showCore slacks temps).reg (R.ageMon (60 + i)) = BitVec.ofInt 32 (temps.getD i 0) := by
  rw [Chip.showCore, Chip.setTable_reg_same (f := fun i => R.ageMon (60 + i)) _ _ hi (ageMon_inj 60)]

theorem Chip.showCore_other {a : Nat} (h : ∀ i, i < 36 → a ≠ R.ageMon (44 + i)) : (c.showCore slacks temps).reg a = c.reg a := by
  rw [Chip.showCore, Chip.setTable_reg_other _ _ (fun i hi => by have := h (16 + i) (by omega); rwa [← Nat.add_assoc] at this),
    Chip.setTable_reg_other _ _ (fun i hi => h i (by omega))]

theorem Chip.onlyRegs_showCore : c.OnlyRegs (c.showCore slacks temps) :=
  (c.onlyRegs_setTable _ _ _).trans (Chip.onlyRegs_setTable _ _ _ _)

theorem Chip.showCore_d2dUp : (c.showCore slacks temps).d2dUp = c.d2dUp :=
  Chip.bit_of_reg (c.showCore_other slacks temps (fun _ _ => d2dStat_ne_ageMon _)) 31

/-- The registers that the analogue die's readings may write. -/
def farRegs : List Nat := R.sysD2dStat :: (List.range 16).map (fun i => R.ageMon (80 + i))

theorem regsSame_showFar : regsSame farRegs c.regs (c.showFar temps rails).regs := by
  have mem : ∀ i, i < 16 → R.ageMon (80 + i) ∈ farRegs := fun i hi => List.mem_cons_of_mem _ (List.mem_map.mpr ⟨i, List.mem_range.mpr hi, rfl⟩)
  unfold Chip.showFar
  split
  · exact (regsSame_setTable c _ (fun i hi => mem i (by omega))).trans
      (regsSame_setTable _ _ (fun i hi => by have := mem (4 + i) (by omega); rwa [← Nat.add_assoc] at this))
  · unfold Chip.queueUp
    split
    · exact regsSame.refl
    · exact (regsSame_addFld_iff List.mem_cons_self 15 0 1).mpr regsSame.refl

/-- What the analogue die's readings leave as it is: all but the registers, the queue to the core die and the count of lost messages. -/
theorem Chip.showFar_eq : ∃ q n, c.showFar temps rails = { c with regs := (c.showFar temps rails).regs, d2dQueue := q, d2dLost := n } := by
  unfold Chip.showFar
  split
  · exact ⟨c.d2dQueue, c.d2dLost, (c.onlyRegs_setTable _ _ _).trans (Chip.onlyRegs_setTable _ _ _ _)⟩
  · unfold Chip.queueUp
    split
    · exact ⟨_, c.d2dLost, rfl⟩
    · exact ⟨c.d2dQueue, _, rfl⟩

theorem Chip.showMargin_other {a : Nat} (h : a ≠ R.ageAvsStat) : c.showMargin.reg a = c.reg a := by
  change ((c.setFld R.ageAvsStat 15 8 (min 255 c.age.droop)).setFld R.ageAvsStat 7 0 c.age.lowSlack).reg a = _
  rw [Chip.setFld_reg_other _ _ _ _ h, Chip.setFld_reg_other _ _ _ _ h]

end

end Sys2Proof.Machine

/-! ## The ring pairs and the voltage loop (R460 to R462) -/

namespace Sys2Proof.Machine

theorem Chip.showMargin_says (c : Chip) : c.showMargin.fld R.ageAvsStat 31 16 = c.fld R.ageAvsStat 31 16 ∧
    c.showMargin.fld R.ageAvsStat 15 8 = min 255 c.age.droop ∧ c.showMargin.fld R.ageAvsStat 7 0 = c.age.lowSlack % 256 := by
  refine ⟨?_, ?_, ?_⟩
  · change ((c.setFld R.ageAvsStat 15 8 (min 255 c.age.droop)).setFld R.ageAvsStat 7 0 c.age.lowSlack).fld R.ageAvsStat 31 16 = _
    rw [Chip.setFld_fld_ne _ (by decide) (by decide), Chip.setFld_fld_ne _ (by decide) (by decide)]
  · change ((c.setFld R.ageAvsStat 15 8 (min 255 c.age.droop)).setFld R.ageAvsStat 7 0 c.age.lowSlack).fld R.ageAvsStat 15 8 = _
    rw [Chip.setFld_fld_ne _ (by decide) (by decide), Chip.setFld_fld_same _ _ _ _ _ (by decide)]
    omega
  · change ((c.setFld R.ageAvsStat 15 8 (min 255 c.age.droop)).setFld R.ageAvsStat 7 0 c.age.lowSlack).fld R.ageAvsStat 7 0 = _
    rw [Chip.setFld_fld_same _ _ _ _ _ (by decide)]
    norm_num

/-! ### A measurement of the ring pairs -/

/-- The degradation of pair `i` that the counts `l` give. -/
def Chip.ringOf (c : Chip) (l : List (Nat × Nat)) (i : Nat) : Int := c.degradation i (l.getD i (0, 0)).1 (l.getD i (0, 0)).2

/-- The limit of degradation is exceeded by pair `i`, and nothing has told it. -/
def Chip.ringPast (c : Chip) (l : List (Nat × Nat)) (i : Nat) : Bool :=
  decide ((c.fld R.ageRolim 19 0 : Int) < c.ringOf l i) && !c.age.dlimTold.contains i

/-- Pair `i` is measured. -/
def Chip.measureRing (l : List (Nat × Nat)) (i : Nat) (c : Chip) : Chip :=
  let d := c.ringOf l i
  let c := c.setNat (R.ageMon i) (twosOf 32 d)
  if decide ((c.fld R.ageRolim 19 0 : Int) < d) && !c.age.dlimTold.contains i then
    (c.modAge (fun a => { a with dlimTold := i :: a.dlimTold })).event 0x0407 .room [.val 1 i, .val 4 (twosOf 32 d)]
  else c

theorem exec_roMeasure {s : State} (t : Stamp) {l : List (Nat × Nat)} (h : l.length = 44) :
    exec (.roMeasure t l) s = .next { s with
      chip := forN 44 (Chip.measureRing l) (s.chip.at t) } := if_pos (decide_eq_true h)

/-- The event that tells of pair `i`. -/
def Chip.ringEvent (c : Chip) (l : List (Nat × Nat)) (i : Nat) : Ev :=
  ⟨0x0407, .room, c.clk, [.val 1 i, .val 4 (twosOf 32 (c.ringOf l i))]⟩

/-- From `c` to `c1` the first `k` pairs have been measured. -/
structure Chip.RingsMeasured (c c1 : Chip) (l : List (Nat × Nat)) (k : Nat) : Prop where
  regs : regsSame ((List.range k).map R.ageMon ++ eventRegs) c.regs c1.regs
  shown : ∀ i, i < k → c1.reg (R.ageMon i) = BitVec.ofInt 32 (c.ringOf l i)
  age : c1.age = { c.age with dlimTold := ((List.range k).filter (c.ringPast l)).reverse ++ c.age.dlimTold }
  raised : c.raises c1 (((List.range k).filter (c.ringPast l)).map (c.ringEvent l))
  tx : c1.tx = c.tx
  clk : c1.clk = c.clk
  dram : c1.dram = c.dram
  tbw : c1.tbw = c.tbw

theorem mem_rings {a k : Nat} : a ∈ (List.range k).map R.ageMon ++ eventRegs ↔ (∃ i < k, R.ageMon i = a) ∨ a = R.evjStat ∨ a = R.evjCnt 1 := by
  simp

theorem Chip.RingsMeasured.ringOf {c c1 : Chip} {l : List (Nat × Nat)} {k : Nat} (h : c.RingsMeasured c1 l k) (hk : k ≤ 44) (i : Nat) :
    c1.ringOf l i = c.ringOf l i := by
  have ref : c1.reg (R.ageRoref i) = c.reg (R.ageRoref i) := h.regs.reg (fun hm => by
    rw [mem_rings] at hm
    simp only [R.ageMon, R.ageRoref, R.evjStat, R.evjCnt] at hm
    omega)
  simp only [Chip.ringOf, Chip.degradation, ref]

theorem Chip.RingsMeasured.limit {c c1 : Chip} {l : List (Nat × Nat)} {k : Nat} (h : c.RingsMeasured c1 l k) :
    c1.fld R.ageRolim 19 0 = c.fld R.ageRolim 19 0 := h.regs.fld (fun hm => by
  rw [mem_rings] at hm
  simp only [R.ageMon, R.ageRolim, R.evjStat, R.evjCnt] at hm
  omega) 19 0

/-- A pair that none of the first `k` is has been told of by then if it had been before. -/
theorem Chip.RingsMeasured.told {c c1 : Chip} {l : List (Nat × Nat)} {k : Nat} (h : c.RingsMeasured c1 l k) :
    c1.age.dlimTold.contains k = c.age.dlimTold.contains k := by
  have fresh : ((List.range k).filter (c.ringPast l)).reverse.contains k = false := by simp
  rw [h.age, List.contains_append, fresh, Bool.false_or]

theorem Chip.RingsMeasured.step {c c1 : Chip} {l : List (Nat × Nat)} {k : Nat} (h : c.RingsMeasured c1 l k) (hk : k < 44) :
    c.RingsMeasured (Chip.measureRing l k c1) l (k + 1) := by
  have ring := h.ringOf (by omega) k
  have more : ∀ a ∈ (List.range k).map R.ageMon ++ eventRegs, a ∈ (List.range (k + 1)).map R.ageMon ++ eventRegs := fun a ha => by
    rw [mem_rings] at ha ⊢
    exact ha.imp_left (fun ⟨i, hi, e⟩ => ⟨i, by omega, e⟩)
  have here : R.ageMon k ∈ (List.range (k + 1)).map R.ageMon ++ eventRegs := mem_rings.mpr (.inl ⟨k, by omega, rfl⟩)
  have stat : R.evjStat ∈ (List.range (k + 1)).map R.ageMon ++ eventRegs := mem_rings.mpr (.inr (.inl rfl))
  have lost : R.evjCnt 1 ∈ (List.range (k + 1)).map R.ageMon ++ eventRegs := mem_rings.mpr (.inr (.inr rfl))
  have shown : ∀ i, i < k + 1 → (c1.setNat (R.ageMon k) (twosOf 32 (c1.ringOf l k))).reg (R.ageMon i) = BitVec.ofInt 32 (c.ringOf l i) := by
    intro i hi
    by_cases e : i = k
    · rw [e, Chip.setNat_reg_same, twosOf_word, ring]
    · rw [Chip.setNat_reg_other _ _ (by unfold R.ageMon; omega), h.shown i (by omega)]
  have past : (decide (((c1.setNat (R.ageMon k) (twosOf 32 (c1.ringOf l k))).fld R.ageRolim 19 0 : Int) < c1.ringOf l k) &&
      !(c1.setNat (R.ageMon k) (twosOf 32 (c1.ringOf l k))).age.dlimTold.contains k) = c.ringPast l k := by
    rw [Chip.setNat_fld_other _ _ (by unfold R.ageRolim R.ageMon; omega), h.limit, ring,
      show (c1.setNat (R.ageMon k) _).age = c1.age from rfl, h.told]
    rfl
  have whole : (List.range (k + 1)).filter (c.ringPast l) = (List.range k).filter (c.ringPast l) ++ [k].filter (c.ringPast l) := by
    rw [List.range_succ, List.filter_append]
  unfold Chip.measureRing
  dsimp only
  rw [past]
  by_cases hp : c.ringPast l k = true
  · rw [if_pos hp]
    have one : [k].filter (c.ringPast l) = [k] := by simp [hp]
    refine ⟨?_, fun i hi => ?_, ?_, ?_, ?_, ?_, ?_, ?_⟩
    · refine (regsSame_event_iff stat lost _ _ _).mpr ?_
      exact (regsSame_setNat_iff here _).mpr (h.regs.mono more)
    · rw [Chip.event_reg _ _ _ _ (by unfold R.ageMon R.evjStat; omega) (by unfold R.ageMon R.evjCnt; omega)]
      exact shown i hi
    · rw [Chip.event_age, whole, one, List.reverse_append]
      change { c1.age with dlimTold := k :: c1.age.dlimTold } = _
      rw [h.age]
      rfl
    · rw [whole, one, List.map_append]
      refine h.raised.trans ?_
      rw [show [k].map (c.ringEvent l) = [⟨0x0407, .room, c.clk, [.val 1 k, .val 4 (twosOf 32 (c1.ringOf l k))]⟩] by
        rw [ring]; rfl]
      exact Chip.raises_event_of_evq (c1 := (c1.setNat _ _).modAge _) rfl h.clk _ _ _
    · rw [Chip.event_tx]
      exact h.tx
    · rw [Chip.event_clk]
      exact h.clk
    · rw [Chip.event_dram]
      exact h.dram
    · rw [Chip.event_tbw]
      exact h.tbw
  · rw [if_neg hp]
    have none : [k].filter (c.ringPast l) = [] := by simp [hp]
    exact ⟨(regsSame_setNat_iff here _).mpr (h.regs.mono more), shown, by rw [whole, none, List.append_nil]; exact h.age,
      by rw [whole, none, List.append_nil]; exact h.raised, h.tx, h.clk, h.dram, h.tbw⟩

theorem Chip.ringsMeasured (c : Chip) (l : List (Nat × Nat)) {k : Nat} (hk : k ≤ 44) :
    c.RingsMeasured (forN k (Chip.measureRing l) c) l k := by
  induction k with
  | zero => exact ⟨regsSame.refl, fun _ hi => absurd hi (by omega), rfl, Chip.raises_of_evq rfl, rfl, rfl, rfl, rfl⟩
  | succ k ih =>
    rw [forN_succ]
    exact (ih (by omega)).step (by omega)

/-! ### A step of the voltage loop -/

/-- The set-point that the loop goes to from slack `k`. -/
def Chip.nextVset (c : Chip) (k : Nat) : Nat :=
  if k < c.fld R.ageAvsTgt 7 0 && decide (c.fld R.ageAvsStat 31 16 < 8500) then min 8500 (c.fld R.ageAvsStat 31 16 + 25)
  else if c.fld R.ageAvsTgt 7 0 + 2 < k && decide (c.fld R.ageAvs 25 16 * 10 < c.fld R.ageAvsStat 31 16) then
    max (c.fld R.ageAvs 25 16 * 10) (c.fld R.ageAvsStat 31 16 - 25)
  else c.fld R.ageAvsStat 31 16

/-- The set-point becomes `v` and is sent, where it is a new one. -/
def Chip.setVset (c : Chip) (v : Nat) : Chip :=
  if v == c.fld R.ageAvsStat 31 16 then c else (c.setFld R.ageAvsStat 31 16 v).send (.avs v)

/-- The loop's memory after slack `k`, a fall of `droop`, at `now` with set-point `v`. -/
def Ageing.noteSlack (a : Ageing) (now : Stamp) (k v floor droop : Nat) : Ageing :=
  let above := if decide (floor ≤ k) then some (a.aboveSince.getD now) else none
  { a with
    prev := some k, lowSlack := min a.lowSlack k, droop := max a.droop droop,
    belowSince := if v == 8500 && decide (k < floor) then some (a.belowSince.getD now) else none, aboveSince := above,
    floorTold := a.floorTold && !(match above with | some x => elapsed now x (60 * nsPerS) | none => false) }

/-- What a step leaves, from the chip `c` with its new set-point `v`. -/
def Chip.noteStep (c : Chip) (k v : Nat) : Chip :=
  (c.modAge (fun a => a.noteSlack c.clk k v (c.fld R.ageAvs 7 0) ((c.age.prev.getD k) - k))).noteSecond ((c.age.prev.getD k) - k)

theorem exec_avsStep {s : State} (t : Stamp) {k : Nat} (h : k < 256) :
    exec (.avsStep t k) s = .next { s with
      chip := ((s.chip.at t).setVset ((s.chip.at t).nextVset k)).noteStep k ((s.chip.at t).nextVset k) } := by
  rw [show exec (.avsStep t k) s = execAvsStep t k s from rfl, execAvsStep, runIf_of _ _ _ (decide_eq_true h)]
  rfl

end Sys2Proof.Machine

namespace Sys2Proof.Machine

section
variable (c : Chip) (v : Nat)

theorem Chip.setVset_eq : c.setVset v = c ∨ c.setVset v = (c.setFld R.ageAvsStat 31 16 v).send (.avs v) := by
  unfold Chip.setVset
  split
  · exact .inl rfl
  · exact .inr rfl

theorem Chip.setVset_age : (c.setVset v).age = c.age := by
  unfold Chip.setVset
  split <;> rfl

theorem Chip.setVset_clk : (c.setVset v).clk = c.clk := by
  unfold Chip.setVset
  split <;> rfl

theorem Chip.setVset_evq : (c.setVset v).evq = c.evq := by
  unfold Chip.setVset
  split <;> rfl

theorem Chip.setVset_writesOnly : c.writesOnly (c.setVset v) [R.ageAvsStat] := by
  rcases c.setVset_eq v with e | e <;> rw [e]
  · exact Chip.writesOnly_of regsSame.refl rfl rfl
  · exact Chip.writesOnly_of ((regsSame_setFld_iff (by simp) 31 16 v).mpr regsSame.refl) rfl rfl

theorem Chip.setVset_tx : (c.setVset v).tx = c.tx ++ (if v = c.fld R.ageAvsStat 31 16 then [] else [.avs v]) := by
  unfold Chip.setVset
  by_cases e : v = c.fld R.ageAvsStat 31 16
  · rw [if_pos (beq_iff_eq.mpr e), if_pos e, List.append_nil]
  · rw [if_neg (by simpa using e), if_neg e]
    rfl

theorem Chip.setVset_fld (h : v < 65536) : (c.setVset v).fld R.ageAvsStat 31 16 = v := by
  unfold Chip.setVset
  by_cases e : v = c.fld R.ageAvsStat 31 16
  · rw [if_pos (beq_iff_eq.mpr e), e]
  · rw [if_neg (by simpa using e)]
    change (c.setFld R.ageAvsStat 31 16 v).fld R.ageAvsStat 31 16 = v
    rw [Chip.setFld_fld_same _ _ _ _ _ (by decide)]
    omega

theorem Chip.setVset_low : (c.setVset v).fld R.ageAvsStat 15 0 = c.fld R.ageAvsStat 15 0 := by
  rcases c.setVset_eq v with e | e <;> rw [e]
  exact Chip.setFld_fld_ne _ (by decide) (by decide)

theorem Chip.setVset_floor : (c.setVset v).fld R.ageAvs 7 0 = c.fld R.ageAvs 7 0 :=
  regsSame.fld (l := [R.ageAvsStat]) (c.setVset_writesOnly v).1 (by decide) 7 0

end

theorem Chip.nextVset_lt (c : Chip) (k : Nat) : c.nextVset k < 65536 := by
  have now : c.fld R.ageAvsStat 31 16 < 65536 := bitsOf_lt _ 31 16
  have low : c.fld R.ageAvs 25 16 < 1024 := bitsOf_lt _ 25 16
  unfold Chip.nextVset
  split
  · omega
  · split <;> omega

theorem Chip.nextVset_eq (c : Chip) (k : Nat) : c.nextVset k =
    (if k < c.fld R.ageAvsTgt 7 0 ∧ c.fld R.ageAvsStat 31 16 < 8500 then min 8500 (c.fld R.ageAvsStat 31 16 + 25)
      else if c.fld R.ageAvsTgt 7 0 + 2 < k ∧ c.fld R.ageAvs 25 16 * 10 < c.fld R.ageAvsStat 31 16
        then max (c.fld R.ageAvs 25 16 * 10) (c.fld R.ageAvsStat 31 16 - 25) else c.fld R.ageAvsStat 31 16) := by
  simp only [Chip.nextVset, Bool.and_eq_true, decide_eq_true_eq]

/-- What a step notes does not depend on the set-point's register beyond the voltage term. -/
theorem Chip.noteStep_age (c : Chip) (k v : Nat) : ∃ l, (c.noteStep k v).age =
      { c.age.noteSlack c.clk k v (c.fld R.ageAvs 7 0) ((c.age.prev.getD k) - k) with seconds := l } ∧
    l.head?.any (fun e => e.1 == c.clk / nsPerS && decide ((c.noteStep k v).voltTerm ≤ e.2.1) &&
      decide ((c.age.prev.getD k) - k ≤ e.2.2)) = true := by
  refine ⟨_, rfl, ?_⟩
  generalize hd : (c.age.prev.getD k) - k = d
  have same : (c.noteStep k v).voltTerm = c.voltTerm := rfl
  rw [same]
  change (match c.age.seconds with
    | (s, w, e) :: rest => if s == c.clk / nsPerS then (s, max w c.voltTerm, max e d) :: rest else (c.clk / nsPerS, c.voltTerm, d) :: c.age.seconds
    | [] => [(c.clk / nsPerS, c.voltTerm, d)]).head?.any _ = true
  rcases c.age.seconds with - | ⟨⟨s, w, e⟩, rest⟩
  · simp
  · by_cases hs : s = c.clk / nsPerS
    · simp [hs]
    · simp [hs]

/-! ### The statement -/

section
variable (s : State) (t : Stamp) (slacks : List Nat) (temps : List Int) (rails : List (Nat × Nat))

/-- The part after a refresh of the monitors. -/
def State.refreshed : Chip := (((s.chip.at t).showCore slacks temps).showFar temps rails).showMargin

theorem State.refreshed_reg {a : Nat} (h1 : a ≠ R.ageAvsStat) (h2 : a ∉ farRegs) :
    (s.refreshed t slacks temps rails).reg a = ((s.chip.at t).showCore slacks temps).reg a := by
  rw [State.refreshed, Chip.showMargin_other _ h1, (regsSame_showFar _ temps rails).reg h2]

theorem mem_farRegs {a : Nat} : a ∈ farRegs ↔ a = R.sysD2dStat ∨ ∃ i < 16, R.ageMon (80 + i) = a := by
  simp [farRegs]

/-- A monitor below the analogue die's is none of its registers. -/
theorem ageMon_notMem_far {i : Nat} (h : i < 80) : R.ageMon i ∉ farRegs := by
  rw [mem_farRegs]
  rintro (e | ⟨j, -, e⟩)
  · exact d2dStat_ne_ageMon i e.symm
  · unfold R.ageMon at e
    omega

theorem State.refreshed_fields : ∃ q n, s.refreshed t slacks temps rails = { s.chip.at t with
    regs := (s.refreshed t slacks temps rails).regs, age := { s.chip.age with lowSlack := 255, droop := 0 }, d2dQueue := q, d2dLost := n } := by
  obtain ⟨q, n, far⟩ := ((s.chip.at t).showCore slacks temps).showFar_eq temps rails
  have core := (s.chip.at t).onlyRegs_showCore slacks temps
  refine ⟨q, n, ?_⟩
  change ({ (((s.chip.at t).showCore slacks temps).showFar temps rails) with
    regs := (s.refreshed t slacks temps rails).regs
    age := { (((s.chip.at t).showCore slacks temps).showFar temps rails).age with lowSlack := 255, droop := 0 } } : Chip) = _
  rw [far, core]
  rfl

theorem State.refreshed_regs : regsSame ([R.ageAvsStat, R.sysD2dStat] ++ (List.range 52).map (fun i => R.ageMon (44 + i))) s.chip.regs
    (s.refreshed t slacks temps rails).regs := by
  intro a ha
  have stat : a ≠ R.ageAvsStat := fun e => ha (by simp [e])
  have far : a ∉ farRegs := fun h => ha (by
    rcases mem_farRegs.mp h with e | ⟨i, hi, e⟩
    · simp [e]
    · exact List.mem_append_right _ (List.mem_map.mpr ⟨36 + i, List.mem_range.mpr (by omega), by rw [← e, ← Nat.add_assoc]⟩))
  refine (s.refreshed_reg t slacks temps rails stat far).trans ((s.chip.at t).showCore_other slacks temps (fun i hi e => ha ?_))
  exact List.mem_append_right _ (List.mem_map.mpr ⟨i, List.mem_range.mpr (by omega), e.symm⟩)

theorem State.refreshed_avs : (s.refreshed t slacks temps rails).fld R.ageAvsStat 31 16 = s.chip.fld R.ageAvsStat 31 16 ∧
    (s.refreshed t slacks temps rails).fld R.ageAvsStat 15 8 = min 255 s.chip.age.droop ∧
    (s.refreshed t slacks temps rails).fld R.ageAvsStat 7 0 = s.chip.age.lowSlack % 256 := by
  obtain ⟨vset, droop, slack⟩ := (((s.chip.at t).showCore slacks temps).showFar temps rails).showMargin_says
  obtain ⟨q, n, far⟩ := ((s.chip.at t).showCore slacks temps).showFar_eq temps rails
  have age : (((s.chip.at t).showCore slacks temps).showFar temps rails).age = s.chip.age := by
    rw [far, (s.chip.at t).onlyRegs_showCore slacks temps]
    rfl
  rw [age] at droop slack
  refine ⟨vset.trans ?_, droop, slack⟩
  rw [(regsSame_showFar _ temps rails).fld (by decide)]
  exact Chip.fld_of_reg ((s.chip.at t).showCore_other slacks temps (fun _ _ => avsStat_ne_ageMon _)) 31 16

end

theorem farRail_fld (rails : List (Nat × Nat)) (i : Nat) : bitsOf (farRail rails i) 31 16 = (rails.getD i (0, 0)).1 % 65536 ∧
    bitsOf (farRail rails i) 15 0 = (rails.getD i (0, 0)).2 % 65536 := by
  simp only [farRail, bitsOf, bitsNat, BitVec.toNat_ofNat]
  omega

theorem Chip.showMargin_d2dQueue (c : Chip) : c.showMargin.d2dQueue = c.d2dQueue := rfl

theorem Chip.showMargin_d2dLost (c : Chip) : c.showMargin.d2dLost = c.d2dLost := rfl

section
variable (s : State) (t : Stamp) (slacks : List Nat) (temps : List Int) (rails : List (Nat × Nat))

theorem State.refreshed_up (h : s.chip.d2dUp = true) : s.refreshed t slacks temps rails =
    ((((s.chip.at t).showCore slacks temps).setTable 4 (fun i => R.ageMon (80 + i)) (farTemp temps)).setTable 12
      (fun i => R.ageMon (84 + i)) (farRail rails)).showMargin := by
  rw [State.refreshed, Chip.showFar, if_pos (by rw [Chip.showCore_d2dUp]; exact h)]

theorem State.refreshed_up_temp (h : s.chip.d2dUp = true) {i : Nat} (hi : i < 24) :
    (s.refreshed t slacks temps rails).reg (R.ageMon (60 + i)) = BitVec.ofInt 32 (temps.getD i 0) := by
  by_cases near : i < 20
  · exact (s.refreshed_reg t slacks temps rails (avsStat_ne_ageMon _).symm (ageMon_notMem_far (by omega))).trans
      ((s.chip.at t).showCore_temp slacks temps near)
  · obtain ⟨j, rfl⟩ : ∃ j, i = 20 + j := ⟨i - 20, by omega⟩
    rw [s.refreshed_up t slacks temps rails h, Chip.showMargin_other _ (avsStat_ne_ageMon _).symm, ← Nat.add_assoc,
      Chip.setTable_reg_other _ _ (fun k _ e => by unfold R.ageMon at e; omega)]
    exact Chip.setTable_reg_same (f := fun i => R.ageMon (80 + i)) _ _ (by omega) (ageMon_inj 80)

theorem State.refreshed_up_rail (h : s.chip.d2dUp = true) {i : Nat} (hi : i < 12) :
    (s.refreshed t slacks temps rails).reg (R.ageMon (84 + i)) = farRail rails i := by
  rw [s.refreshed_up t slacks temps rails h, Chip.showMargin_other _ (avsStat_ne_ageMon _).symm]
  exact Chip.setTable_reg_same (f := fun i => R.ageMon (84 + i)) _ _ hi (ageMon_inj 84)

theorem State.refreshed_up_link (h : s.chip.d2dUp = true) : (s.refreshed t slacks temps rails).d2dQueue = s.chip.d2dQueue ∧
    (s.refreshed t slacks temps rails).reg R.sysD2dStat = s.chip.reg R.sysD2dStat := by
  rw [s.refreshed_up t slacks temps rails h]
  constructor
  · rw [Chip.showMargin_d2dQueue]
    exact (((((s.chip.at t).onlyRegs_showCore slacks temps).trans (Chip.onlyRegs_setTable _ 4 _ _)).trans
      (Chip.onlyRegs_setTable _ 12 _ _)).keeps (·.d2dQueue) (fun _ => rfl)).trans rfl
  · rw [Chip.showMargin_other _ (by decide), Chip.setTable_reg_other _ _ (fun _ _ => d2dStat_ne_ageMon _),
      Chip.setTable_reg_other _ _ (fun _ _ => d2dStat_ne_ageMon _)]
    exact (s.chip.at t).showCore_other slacks temps (fun _ _ => d2dStat_ne_ageMon _)

theorem State.refreshed_down (h : s.chip.d2dUp = false) : s.refreshed t slacks temps rails =
    (((s.chip.at t).showCore slacks temps).queueUp (.sensors (farWords temps rails))).showMargin := by
  rw [State.refreshed, Chip.showFar, if_neg (by rw [Chip.showCore_d2dUp, show (s.chip.at t).d2dUp = s.chip.d2dUp from rfl, h]; simp)]

theorem Chip.queueUp_reg (c : Chip) (m : D2dMsg) {a : Nat} (h : a ≠ R.sysD2dStat) : (c.queueUp m).reg a = c.reg a := by
  unfold Chip.queueUp
  split
  · rfl
  · exact Chip.setFld_reg_other c _ _ _ h

theorem Chip.queueUp_queued (c : Chip) (m : D2dMsg) : c.queued (c.queueUp m) c.d2dQueue (c.queueUp m).d2dQueue m := by
  unfold Chip.queued Chip.queueUp
  by_cases room : c.d2dQueue.length < 256
  · rw [if_pos room, if_pos room]
    exact ⟨rfl, rfl, rfl⟩
  · rw [if_neg room, if_neg room]
    refine ⟨rfl, ?_, rfl⟩
    refine (Chip.addFld_fld_same c R.sysD2dStat 15 0 1 (by decide)).trans ?_
    norm_num [Nat.min_comm]

/-- A step that leaves the link's registers and queues as they are keeps what a queued message says. -/
theorem Chip.queued.congr {c c1 d d1 : Chip} {q q1 : List D2dMsg} {m : D2dMsg} (h : c.queued c1 q q1 m)
    (hr : d.reg R.sysD2dStat = c.reg R.sysD2dStat) (hn : d.d2dLost = c.d2dLost) (hr1 : d1.reg R.sysD2dStat = c1.reg R.sysD2dStat)
    (hn1 : d1.d2dLost = c1.d2dLost) : d.queued d1 q q1 m := by
  unfold Chip.queued at *
  rw [hr, hr1, hn, hn1, Chip.fld_of_reg hr1, Chip.fld_of_reg hr]
  exact h

theorem State.refreshed_down_far (h : s.chip.d2dUp = false) {i : Nat} (hi : i < 16) :
    (s.refreshed t slacks temps rails).reg (R.ageMon (80 + i)) = s.chip.reg (R.ageMon (80 + i)) := by
  rw [s.refreshed_down t slacks temps rails h, Chip.showMargin_other _ (avsStat_ne_ageMon _).symm]
  rw [Chip.queueUp_reg _ _ (d2dStat_ne_ageMon _).symm]
  exact (s.chip.at t).showCore_other slacks temps (fun j hj e => by unfold R.ageMon at e; omega)

theorem State.refreshed_down_queued (h : s.chip.d2dUp = false) :
    s.chip.queued (s.refreshed t slacks temps rails) s.chip.d2dQueue (s.refreshed t slacks temps rails).d2dQueue
      (.sensors (farWords temps rails)) := by
  have core := (s.chip.at t).onlyRegs_showCore slacks temps
  have queue : ((s.chip.at t).showCore slacks temps).d2dQueue = s.chip.d2dQueue := core.keeps (·.d2dQueue) (fun _ => rfl)
  have lost : ((s.chip.at t).showCore slacks temps).d2dLost = s.chip.d2dLost := core.keeps (·.d2dLost) (fun _ => rfl)
  have queued := ((s.chip.at t).showCore slacks temps).queueUp_queued (.sensors (farWords temps rails))
  rw [queue] at queued
  rw [s.refreshed_down t slacks temps rails h, Chip.showMargin_d2dQueue]
  have link : s.chip.reg R.sysD2dStat = ((s.chip.at t).showCore slacks temps).reg R.sysD2dStat :=
    ((s.chip.at t).showCore_other slacks temps (fun _ _ => d2dStat_ne_ageMon _)).symm
  generalize (s.chip.at t).showCore slacks temps = d at *
  exact queued.congr link lost.symm (Chip.showMargin_other _ (by decide)) (Chip.showMargin_d2dLost _)

end

/-- What a step of the voltage loop leaves. -/
theorem Chip.avsStep_says (c : Chip) (k v : Nat) (hv : v = c.nextVset k) :
    ((c.setVset v).noteStep k v).fld R.ageAvsStat 31 16 = v ∧
    ((c.setVset v).noteStep k v).fld R.ageAvsStat 15 0 = c.fld R.ageAvsStat 15 0 ∧
    ((c.setVset v).noteStep k v).tx = c.tx ++ (if v = c.fld R.ageAvsStat 31 16 then [] else [.avs v]) ∧
    c.writesOnly ((c.setVset v).noteStep k v) [R.ageAvsStat] ∧ c.raises ((c.setVset v).noteStep k v) [] :=
  ⟨c.setVset_fld v (hv ▸ c.nextVset_lt k), c.setVset_low v, c.setVset_tx v, c.setVset_writesOnly v, Chip.raises_of_evq (c.setVset_evq v)⟩

/-- The loop's memory after a step. -/
theorem Chip.avsStep_age (c : Chip) (k v : Nat) : ∃ l, ((c.setVset v).noteStep k v).age =
      { c.age.noteSlack c.clk k v (c.fld R.ageAvs 7 0) ((c.age.prev.getD k) - k) with seconds := l } ∧
    l.head?.any (fun e => e.1 == c.clk / nsPerS && decide (((c.setVset v).noteStep k v).voltTerm ≤ e.2.1) &&
      decide ((c.age.prev.getD k) - k ≤ e.2.2)) = true := by
  have h := (c.setVset v).noteStep_age k v
  rwa [Chip.setVset_age, Chip.setVset_clk, Chip.setVset_floor] at h

theorem Ageing.noteSlack_told (a : Ageing) (now : Stamp) (k v floor droop : Nat) :
    (a.noteSlack now k v floor droop).floorTold = true ↔ a.floorTold = true ∧
      (k < floor ∨ elapsed now (a.aboveSince.getD now) (60 * nsPerS) = false) := by
  unfold Ageing.noteSlack
  by_cases h : floor ≤ k
  · simp [h, Nat.not_lt.mpr h]
  · simp [h, Nat.lt_of_not_le h]

theorem twosOf_natCast (w v : Nat) : twosOf w (v : Int) = v % 2 ^ w := by
  have cast : (v : Int) % (2 : Int) ^ w = ((v % 2 ^ w : Nat) : Int) := by norm_cast
  rw [twosOf, cast, Int.toNat_natCast]

/-- The slack has been below FLOOR for `n` ns, which is told once. -/
def Chip.floorTimeout (c : Chip) (n : Nat) : Chip :=
  match c.age.belowSince with
  | some b =>
    if !c.age.floorTold && elapsed c.clk b n then
      (c.modAge (fun a => { a with floorTold := true })).belowFloor 0 0 0 (c.age.prev.getD 0)
    else c
  | none => c

theorem exec_avsFloorTimeout (s : State) (t : Stamp) : exec (.avsFloorTimeout t) s = .next { s with
      chip := (s.chip.at t).floorTimeout nsPerS } := by
  rw [show exec (.avsFloorTimeout t) s = execAvsFloorTimeout t s from rfl, execAvsFloorTimeout]
  generalize nsPerS = n
  rw [runIf_of _ _ _ rfl]
  rfl

theorem Chip.floorTimeout_due {c : Chip} {b : Stamp} {n : Nat} (below : c.age.belowSince = some b) (told : c.age.floorTold = false)
    (late : elapsed c.clk b n = true) :
    c.floorTimeout n = (c.modAge (fun a => { a with floorTold := true })).belowFloor 0 0 0 (c.age.prev.getD 0) := by
  simp only [Chip.floorTimeout, below, told, late, Bool.not_false, Bool.and_self, if_true]

theorem Chip.floorTimeout_not {c : Chip} {n : Nat}
    (h : c.age.floorTold = true ∨ c.age.belowSince.all (fun b => !elapsed c.clk b n) = true) : c.floorTimeout n = c := by
  cases hb : c.age.belowSince with
  | none => simp only [Chip.floorTimeout, hb]
  | some b =>
    have off : (!c.age.floorTold && elapsed c.clk b n) = false := by
      rcases h with told | early
      · rw [told]
        rfl
      · rw [hb, Option.all_some] at early
        rw [show elapsed c.clk b n = false by simpa using early, Bool.and_false]
    simp only [Chip.floorTimeout, hb, off, Bool.false_eq_true, if_false]

/-- Settles O59: a refresh and a measurement are tables of registers written in a loop; the voltage loop's step is a case split on its next
set-point. -/
theorem monitorsAndCoreVoltageFollowReadings : Obligations.MonitorsAndCoreVoltageFollowReadings := by
  unfold Obligations.MonitorsAndCoreVoltageFollowReadings
  refine ⟨?_, ?_, ?_, ?_, ?_, ?_, ?_, ?_, ?_, ?_, ?_⟩
  · intro s t slacks temps rails h1 h2 h3
    refine answers_exec (exec_monitorRefresh t h1 h2 h3) ?_
    change _ ∧ _
    obtain ⟨q, n, eq⟩ := s.refreshed_fields t slacks temps rails
    obtain ⟨vset, droop, slack⟩ := s.refreshed_avs t slacks temps rails
    refine ⟨fun i hi => ?_, fun i hi => ?_, vset, droop, slack, ?_, Chip.writesOnly_of (s.refreshed_regs t slacks temps rails) ?_ ?_, ?_⟩
    · exact (s.refreshed_reg t slacks temps rails (avsStat_ne_ageMon _).symm (ageMon_notMem_far (by omega))).trans
        ((s.chip.at t).showCore_slack slacks temps hi)
    · exact (s.refreshed_reg t slacks temps rails (avsStat_ne_ageMon _).symm (ageMon_notMem_far (by omega))).trans
        ((s.chip.at t).showCore_temp slacks temps hi)
    · change (s.refreshed t slacks temps rails).age = _
      rw [eq]
    · change (s.refreshed t slacks temps rails).dram = _
      rw [eq]
      rfl
    · change (s.refreshed t slacks temps rails).tbw = _
      rw [eq]
      rfl
    · refine Chip.raises_of_evq ?_
      change (s.refreshed t slacks temps rails).evq = _
      rw [eq]
      rfl
  · intro s t slacks temps rails h1 h2 h3 up
    refine answers_exec (exec_monitorRefresh t h1 h2 h3) ?_
    change _ ∧ _
    refine ⟨fun i hi => s.refreshed_up_temp t slacks temps rails up hi, fun i hi => ?_, s.refreshed_up_link t slacks temps rails up⟩
    have rail : (s.refreshed t slacks temps rails).reg (R.ageMon (84 + i)) = farRail rails i := s.refreshed_up_rail t slacks temps rails up hi
    obtain ⟨low, now⟩ := farRail_fld rails i
    exact ⟨(congrArg (bitsOf · 31 16) rail).trans low, (congrArg (bitsOf · 15 0) rail).trans now⟩
  · intro s t slacks temps rails h1 h2 h3 down
    exact answers_exec (exec_monitorRefresh t h1 h2 h3)
      ⟨fun i hi => s.refreshed_down_far t slacks temps rails down hi, s.refreshed_down_queued t slacks temps rails down⟩
  · intro s t l i ns nu hl hi hn hnu hr
    refine answers_exec (exec_roMeasure t hl) ?_
    rw [((s.chip.at t).ringsMeasured l (Nat.le_refl 44)).shown i hi]
    congr 1
    simp only [Chip.ringOf, Chip.degradation, hn]
    exact if_neg (by simpa using ⟨hnu, hr⟩)
  · intro s t l past hl hpast
    have rings := (s.chip.at t).ringsMeasured l (Nat.le_refl 44)
    have same : past = (List.range 44).filter ((s.chip.at t).ringPast l) := hpast
    refine answers_exec (exec_roMeasure t hl) ⟨?_, rings.shown, rings.tx, Chip.writesOnly_of rings.regs rings.dram rings.tbw, ?_⟩
    · rw [same]
      exact rings.age
    · rw [same]
      exact rings.raised
  · intro s t k v hk hv
    rw [show v = (s.chip.at t).nextVset k from hv.trans ((s.chip.at t).nextVset_eq k).symm]
    obtain ⟨vset, low, tx, writes, raised⟩ := (s.chip.at t).avsStep_says k _ rfl
    obtain ⟨l, age, second⟩ := (s.chip.at t).avsStep_age k ((s.chip.at t).nextVset k)
    refine answers_exec (exec_avsStep t hk) ⟨vset, low, tx, ?_⟩
    rw [age]
    refine ⟨rfl, rfl, rfl, ?_, ?_, (s.chip.age.noteSlack_told t k ((s.chip.at t).nextVset k) (s.chip.fld R.ageAvs 7 0) ((s.chip.age.prev.getD k) - k)), second, rfl, rfl, rfl, writes, raised⟩
    · simp only [Ageing.noteSlack, Bool.and_eq_true, beq_iff_eq, decide_eq_true_eq]
      rfl
    · simp only [Ageing.noteSlack, decide_eq_true_eq]
      rfl
  · intro s t k low room
    have tgt : s.chip.fld R.ageAvsTgt 7 0 < 256 := bitsOf_lt _ 7 0
    have next : (s.chip.at t).nextVset k = min 8500 (s.chip.fld R.ageAvsStat 31 16 + 25) :=
      ((s.chip.at t).nextVset_eq k).trans (if_pos ⟨low, room⟩)
    obtain ⟨vset, -, tx, writes, raised⟩ := (s.chip.at t).avsStep_says k _ rfl
    refine answers_exec (exec_avsStep t (by omega)) ⟨vset.trans next, tx.trans ?_, writes, raised⟩
    rw [if_neg (by rw [next]; change ¬ _ = s.chip.fld R.ageAvsStat 31 16; omega), next]
    rfl
  · intro s t k hk high room
    have next : (s.chip.at t).nextVset k = max (s.chip.fld R.ageAvs 25 16 * 10) (s.chip.fld R.ageAvsStat 31 16 - 25) :=
      ((s.chip.at t).nextVset_eq k).trans ((if_neg (fun h => absurd (show k < s.chip.fld R.ageAvsTgt 7 0 from h.1) (by omega))).trans
        (if_pos ⟨high, room⟩))
    obtain ⟨vset, -, tx, writes, raised⟩ := (s.chip.at t).avsStep_says k _ rfl
    refine answers_exec (exec_avsStep t hk) ⟨vset.trans next, tx.trans ?_, writes, raised⟩
    rw [if_neg (by rw [next]; change ¬ _ = s.chip.fld R.ageAvsStat 31 16; omega), next]
    rfl
  · intro s t k hk low high
    have next : (s.chip.at t).nextVset k = (s.chip.at t).fld R.ageAvsStat 31 16 :=
      ((s.chip.at t).nextVset_eq k).trans ((if_neg (fun h => absurd (show k < s.chip.fld R.ageAvsTgt 7 0 from h.1) (by omega))).trans
        (if_neg (fun h => absurd (show s.chip.fld R.ageAvsTgt 7 0 + 2 < k from h.1) (by omega))))
    have same : (s.chip.at t).setVset ((s.chip.at t).nextVset k) = s.chip.at t := if_pos (by rw [next]; exact beq_self_eq_true _)
    refine answers_exec (exec_avsStep t hk) ?_
    rw [same]
    exact ⟨rfl, rfl, rfl, Chip.writesOnly_of regsSame.refl rfl rfl, Chip.raises_of_evq rfl⟩
  · intro s t b below told late
    refine answers_exec (exec_avsFloorTimeout s t) ?_
    rw [Chip.floorTimeout_due (c := s.chip.at t) below told late]
    refine ⟨?_, ?_, ?_⟩
    · exact Chip.event_age _ _ _ _
    · exact Chip.writesOnly_of ((regsSame_event_iff (by simp) (by simp) _ _ _).mpr regsSame.refl) (Chip.event_dram _ _ _ _) (Chip.event_tbw _ _ _ _)
    · rw [← twosOf_natCast]
      exact Chip.raises_event_of_evq (c1 := (s.chip.at t).modAge _) rfl rfl _ _ _
  · intro s t h
    exact gives_exec (exec_avsFloorTimeout s t) (Chip.floorTimeout_not (c := s.chip.at t) h)

end Sys2Proof.Machine

/-! ## Channel controllers (R371) -/

namespace Sys2Proof.Machine

/-! ### What changes in registers and memory state alone -/

/-- `c1` differs from `c` in its register file and in the memory system's state alone. -/
def Chip.OnlyMem (c c1 : Chip) : Prop := c1 = { c with regs := c1.regs, mem := c1.mem }

theorem Chip.OnlyMem.refl (c : Chip) : c.OnlyMem c := rfl

theorem Chip.OnlyMem.trans {c c1 c2 : Chip} (h1 : c.OnlyMem c1) (h2 : c1.OnlyMem c2) : c.OnlyMem c2 := by
  unfold Chip.OnlyMem at *
  rw [h2, h1]

theorem Chip.OnlyRegs.onlyMem {c c1 : Chip} (h : c.OnlyRegs c1) : c.OnlyMem c1 := by
  unfold Chip.OnlyMem Chip.OnlyRegs at *
  rw [h]

/-- A part of the state beyond registers and memory system stays. -/
theorem Chip.OnlyMem.keeps {α : Type} {c c1 : Chip} (h : c.OnlyMem c1) (g : Chip → α)
    (hg : ∀ r m, g { c with regs := r, mem := m } = g c) : g c1 = g c := (congrArg g h).trans (hg c1.regs c1.mem)

/-- What such a change says where it leaves both memories and the event queue. -/
theorem Chip.OnlyMem.writesOnly {c c1 : Chip} (h : c.OnlyMem c1) {l : List Nat} (hr : regsSame l c.regs c1.regs) : c.writesOnly c1 l :=
  Chip.writesOnly_of hr (h.keeps (·.dram) (fun _ _ => rfl)) (h.keeps (·.tbw) (fun _ _ => rfl))

theorem Chip.OnlyMem.raises {c c1 : Chip} (h : c.OnlyMem c1) : c.raises c1 [] :=
  Chip.raises_of_evq (h.keeps (·.evq) (fun _ _ => rfl))

theorem Chip.onlyMem_forN {n : Nat} {f : Nat → Chip → Chip} (h : ∀ i (c : Chip), i < n → c.OnlyMem (f i c)) (c : Chip) :
    c.OnlyMem (forN n f c) := by
  induction n with
  | zero => exact .refl c
  | succ n ih =>
    rw [forN_succ]
    exact (ih (fun i c hi => h i c (by omega))).trans (h n _ (by omega))

theorem Chip.onlyRegs_publish (c : Chip) (a : Nat) : c.OnlyRegs (c.publish a) := rfl

/-! ### One channel -/

section
variable (c : Chip) (n : Nat) (f : Chan → Chan)

theorem Chip.onlyMem_modChan : c.OnlyMem (c.modChan n f) := rfl

theorem Chip.modChan_mem : (c.modChan n f).mem = { c.mem with chans := mapMod chanDefault c.mem.chans n f } := rfl

theorem Chip.chan_of_chans {c c1 : Chip} (h : c1.mem.chans = c.mem.chans) (k : Nat) : c1.chan k = c.chan k := by
  rw [Chip.chan, h, Chip.chan]

theorem Chip.chan_modChan_same : (c.modChan n f).chan n = f (c.chan n) := mapGet_mod_same chanDefault c.mem.chans n f

theorem Chip.chan_modChan_other {k : Nat} (h : k ≠ n) : (c.modChan n f).chan k = c.chan k :=
  mapGet_mod_other chanDefault c.mem.chans f h

theorem regsSame_modChan : regsSame [R.dmcChStat n] c.regs (c.modChan n f).regs := by
  have here : R.dmcChStat n ∈ [R.dmcChStat n] := List.mem_singleton.mpr rfl
  unfold Chip.modChan
  exact (regsSame_setFld_iff here 20 16 _).mpr ((regsSame_setFld_iff here 4 0 _).mpr regsSame.refl)

@[simp] theorem regsSame_modChan_iff {l : List Nat} {r : List (Nat × Word)} (h : R.dmcChStat n ∈ l) :
    regsSame l r (c.modChan n f).regs ↔ regsSame l r c.regs :=
  regsSame.peel ((regsSame_modChan c n f).mono (by simpa using h))

theorem Chip.modChan_reg {a : Nat} (h : a ≠ R.dmcChStat n) : (c.modChan n f).reg a = c.reg a :=
  (regsSame_modChan c n f).reg (by simpa using h)

end

end Sys2Proof.Machine

/-! ## Training helpers (R382, R384) -/

namespace Sys2Proof.Machine

/-! ### The bursts of a row -/

theorem foldl_bits_four {g : Nat → Nat} (h : ∀ i, g i ≤ 2 ^ (8 + i)) : (List.range 4).foldl (fun s i => s + g i) 0 ≤ 3840 := by
  have h0 := h 0
  have h1 := h 1
  have h2 := h 2
  have h3 := h 3
  change 0 + g 0 + g 1 + g 2 + g 3 ≤ 3840
  norm_num at h0 h1 h2 h3
  omega

theorem foldl_bits_two {g : Nat → Nat} {p m : Nat} (h : ∀ i, g i ≤ 2 ^ (p + i)) (hm : 2 ^ p = m) :
    (List.range 2).foldl (fun s i => s + g i) 0 ≤ 3 * m := by
  have h0 := h 0
  have h1 := h 1
  change 0 + g 0 + g 1 ≤ 3 * m
  rw [Nat.add_zero, hm] at h0
  rw [Nat.pow_succ, hm] at h1
  omega

theorem bit_times_le (a p : Nat) : a % 2 * 2 ^ p ≤ 2 ^ p :=
  (Nat.mul_le_mul_right _ (by omega : a % 2 ≤ 1)).trans (by rw [Nat.one_mul])

/-- A burst of row `row` and column `col` lies within the row. -/
theorem Chip.burstOf_within (c : Chip) (n bank row : Nat) {col : Nat} (h : col < 32) :
    row * 2 ^ 19 ≤ c.burstOf n bank row col ∧ c.burstOf n bank row col + 64 ≤ row * 2 ^ 19 + 2 ^ 19 := by
  have big : (2 : Nat) ^ 19 = 524288 := by norm_num
  have mid : (2 : Nat) ^ 12 = 4096 := by norm_num
  have low : (2 : Nat) ^ 6 = 64 := by norm_num
  unfold Chip.burstOf
  generalize (2 : Nat) ^ 19 = x19 at *
  generalize (2 : Nat) ^ 12 = x12 at *
  generalize (2 : Nat) ^ 6 = x6 at *
  generalize row * x19 = r
  subst mid low
  generalize hb : r + col / 4 * 4096 + col % 4 * 64 = base
  dsimp only
  have chan := foldl_bits_four (g := fun i => (n / 2 ^ i % 2 + hashBit (c.fld (R.dmcChmask i) 29 0) base) % 2 * 2 ^ (8 + i))
    (fun i => bit_times_le _ _)
  have group := foldl_bits_two (g := fun i => (bank / 4 / 2 ^ i % 2 + hashBit (c.fld (R.dmcBgmask i) 29 0) base) % 2 * 2 ^ (15 + i))
    (m := 32768) (fun i => bit_times_le _ _) (by norm_num)
  have bankBits := foldl_bits_two (g := fun i => (bank % 4 / 2 ^ i % 2 + hashBit (c.fld (R.dmcBamask i) 29 0) base) % 2 * 2 ^ (17 + i))
    (m := 131072) (fun i => bit_times_le _ _) (by norm_num)
  generalize (List.range 4).foldl _ 0 = x at *
  generalize List.foldl (fun s i => s + (bank / 4 / 2 ^ i % 2 + hashBit (c.fld (R.dmcBgmask i) 29 0) base) % 2 * 2 ^ (15 + i)) 0 (List.range 2) = y at *
  generalize List.foldl (fun s i => s + (bank % 4 / 2 ^ i % 2 + hashBit (c.fld (R.dmcBamask i) 29 0) base) % 2 * 2 ^ (17 + i)) 0 (List.range 2) = z at *
  omega

/-- A burst of a helper is 64 bytes. -/
theorem Chip.helperBurst_length (c : Chip) (n j : Nat) : (c.helperBurst n j).length = 64 := by
  unfold Chip.helperBurst
  extract_lets pat
  split
  · simp [leBytes_length]
  · rw [List.length_map, List.length_range]

/-- The store of a helper's run in column `col`, of `count` bursts in all. -/
def Chip.helperStore (n count col : Nat) (c : Chip) : Chip :=
  let ofs := c.burstOf n (c.fld (R.dmcTrnCtl n) 3 0) (c.fld (R.dmcTrnRow n) 16 0) col
  { c with dram := memWrite dramDefault c.dram ofs (c.helperBurst n (col + (count - 1 - col) / 32 * 32)),
           mem := { c.mem with poison := c.mem.poison.filter (fun b => b != ofs / 64) } }

theorem Chip.helperWrites_eq (c : Chip) (n : Nat) : c.helperWrites n = if c.fld (R.dmcTrnCtl n) 25 24 == 1 then c
    else forN (min 32 (c.reg (R.dmcTrnCnt n)).toNat) (Chip.helperStore n (c.reg (R.dmcTrnCnt n)).toNat) c := rfl

/-- From `c` to `c1` the bytes of row `row` alone have changed, with the marks of bursts. -/
structure Chip.InRow (c c1 : Chip) (row : Nat) : Prop where
  eq : c1 = { c with dram := c1.dram, mem := { c.mem with poison := c1.mem.poison } }
  bytes : ∀ o, (o < row * 2 ^ 19 ∨ row * 2 ^ 19 + 2 ^ 19 ≤ o) → mapGet dramDefault c1.dram o = mapGet dramDefault c.dram o

theorem Chip.InRow.keeps {α : Type} {c c1 : Chip} {row : Nat} (h : c.InRow c1 row) (g : Chip → α)
    (hg : ∀ d m, g { c with dram := d, mem := { c.mem with poison := m } } = g c) : g c1 = g c :=
  (congrArg g h.eq).trans (hg c1.dram c1.mem.poison)

theorem Chip.InRow.trans {c c1 c2 : Chip} {row : Nat} (h1 : c.InRow c1 row) (h2 : c1.InRow c2 row) : c.InRow c2 row :=
  ⟨by rw [h2.eq, h1.eq], fun o ho => (h2.bytes o ho).trans (h1.bytes o ho)⟩

theorem Chip.inRow_helperStore (c : Chip) (n count : Nat) {col : Nat} (h : col < 32) :
    c.InRow (Chip.helperStore n count col c) (c.fld (R.dmcTrnRow n) 16 0) := by
  refine ⟨rfl, fun o ho => ?_⟩
  obtain ⟨low, high⟩ := c.burstOf_within n (c.fld (R.dmcTrnCtl n) 3 0) (c.fld (R.dmcTrnRow n) 16 0) h
  change mapGet dramDefault (memWrite dramDefault c.dram _ _) o = _
  rw [mapGet_memWrite, Chip.helperBurst_length]
  exact if_neg (fun inside => by omega)

theorem Chip.inRow_helperWrites (c : Chip) (n : Nat) : c.InRow (c.helperWrites n) (c.fld (R.dmcTrnRow n) 16 0) := by
  rw [Chip.helperWrites_eq]
  split
  · exact ⟨rfl, fun _ _ => rfl⟩
  · suffices h : ∀ k ≤ 32, c.InRow (forN k (Chip.helperStore n (c.reg (R.dmcTrnCnt n)).toNat) c) (c.fld (R.dmcTrnRow n) 16 0) from
      h _ (by omega)
    intro k
    induction k with
    | zero => exact fun _ => ⟨rfl, fun _ _ => rfl⟩
    | succ k ih =>
      intro hk
      have before := ih (by omega)
      have step := Chip.inRow_helperStore (forN k (Chip.helperStore n (c.reg (R.dmcTrnCnt n)).toNat) c) n (c.reg (R.dmcTrnCnt n)).toNat
        (by omega : k < 32)
      rw [before.keeps (fun x => x.fld (R.dmcTrnRow n) 16 0) (fun _ _ => rfl)] at step
      rw [forN_succ]
      exact before.trans step

theorem Chip.helperWrites_reads (c : Chip) (n : Nat) (h : c.fld (R.dmcTrnCtl n) 25 24 = 1) : c.helperWrites n = c := by
  rw [Chip.helperWrites_eq]
  exact if_pos (by simp [h])

/-! ### What the commands leave -/

/-- RUN's effect. -/
def Chip.startRun (c : Chip) (n : Nat) : Chip := ((c.modChan n (fun h => { h with running := true })).helperWrites n).unpublish (R.dmcTrnRes n)

section
variable (c : Chip) (n : Nat)

theorem Chip.startRun_row : (c.modChan n (fun h => { h with running := true })).fld (R.dmcTrnRow n) 16 0 = c.fld (R.dmcTrnRow n) 16 0 :=
  Chip.fld_of_reg (Chip.modChan_reg _ _ _ (by unfold R.dmcTrnRow R.dmcChStat; omega)) 16 0

theorem Chip.startRun_chan_same : (c.startRun n).chan n = { c.chan n with running := true } := by
  have row := Chip.inRow_helperWrites (c.modChan n (fun h => { h with running := true })) n
  have writes := row.keeps (fun x => x.chan n) (fun _ _ => rfl)
  exact writes.trans (c.chan_modChan_same n _)

theorem Chip.startRun_chan_other {k : Nat} (h : k ≠ n) : (c.startRun n).chan k = c.chan k := by
  have row := Chip.inRow_helperWrites (c.modChan n (fun h => { h with running := true })) n
  have writes := row.keeps (fun x => x.chan k) (fun _ _ => rfl)
  exact writes.trans (c.chan_modChan_other n _ h)

theorem Chip.startRun_reg {a : Nat} (h1 : a ≠ R.dmcChStat n) (h2 : a ≠ R.dmcTrnRes n) : (c.startRun n).reg a = c.reg a := by
  have row := Chip.inRow_helperWrites (c.modChan n (fun h => { h with running := true })) n
  have writes := row.keeps (fun x => x.reg a) (fun _ _ => rfl)
  rw [Chip.startRun, Chip.unpublish, Chip.setFld_reg_other _ _ _ _ h2, writes, Chip.modChan_reg _ _ _ h1]

theorem Chip.startRun_result : (c.startRun n).bit (R.dmcTrnRes n) 31 = false ∧
    (c.startRun n).fld (R.dmcTrnRes n) 30 0 = c.fld (R.dmcTrnRes n) 30 0 := by
  have row := Chip.inRow_helperWrites (c.modChan n (fun h => { h with running := true })) n
  have writes := row.keeps (fun x => x.reg (R.dmcTrnRes n)) (fun _ _ => rfl)
  have reg : ((c.modChan n (fun h => { h with running := true })).helperWrites n).reg (R.dmcTrnRes n) = c.reg (R.dmcTrnRes n) :=
    writes.trans (Chip.modChan_reg _ _ _ (by unfold R.dmcTrnRes R.dmcChStat; omega))
  constructor
  · rw [Chip.startRun, Chip.bit, Chip.unpublish, Chip.setFld_fld_same _ _ _ _ _ (by decide)]
    rfl
  · rw [Chip.startRun, Chip.unpublish, Chip.setFld_fld_ne _ (by decide) (.inr (.inl (by decide)))]
    exact Chip.fld_of_reg reg 30 0

theorem Chip.startRun_storesOnly : c.storesOnly (c.startRun n) [R.dmcChStat n, R.dmcTrnRes n]
    (dramBase + c.fld (R.dmcTrnRow n) 16 0 * 2 ^ 19) (if c.fld (R.dmcTrnCtl n) 25 24 = 1 then 0 else 2 ^ 19) := by
  have ctl : (c.modChan n (fun h => { h with running := true })).fld (R.dmcTrnCtl n) 25 24 = c.fld (R.dmcTrnCtl n) 25 24 :=
    Chip.fld_of_reg (Chip.modChan_reg _ _ _ (by unfold R.dmcTrnCtl R.dmcChStat; omega)) 25 24
  have row := Chip.inRow_helperWrites (c.modChan n (fun h => { h with running := true })) n
  rw [c.startRun_row n] at row
  refine ⟨fun a ha => c.startRun_reg n (fun e => ha (by simp [e])) (fun e => ha (by simp [e])), fun o ho => ?_, fun o => ?_⟩
  · by_cases reads : c.fld (R.dmcTrnCtl n) 25 24 = 1
    · change mapGet dramDefault ((c.modChan n (fun h => { h with running := true })).helperWrites n).dram o = _
      rw [Chip.helperWrites_reads _ _ (ctl.trans reads)]
      rfl
    · rw [if_neg reads] at ho
      exact row.bytes o (by omega)
  · exact congrArg (mapGet tbwDefault · o) (row.keeps (·.tbw) (fun _ _ => rfl))

theorem Chip.startRun_raises : c.raises (c.startRun n) [] := by
  have row := Chip.inRow_helperWrites (c.modChan n (fun h => { h with running := true })) n
  exact Chip.raises_of_evq (row.keeps (·.evq) (fun _ _ => rfl))

end

end Sys2Proof.Machine

namespace Sys2Proof.Machine

/-! ### The end of a run -/

/-- The error counts of a run are shown, as far as the registers hold them. -/
theorem Chip.helperResult_eq (c : Chip) (n : Nat) (errors : List Nat) : c.helperResult n errors =
    ((c.modChan n (fun h => { h with running := false })).setTable 18 (R.dmcTrnErr n)
      (fun b => BitVec.ofNat 32 (min (errors.getD b 0) 0xFFFFFFFF))).publish (R.dmcTrnRes n) := rfl

section
variable (c : Chip) (n : Nat) (errors : List Nat)

theorem dmcTrnErr_inj (i j : Nat) (h : R.dmcTrnErr n i = R.dmcTrnErr n j) : i = j := by
  unfold R.dmcTrnErr at h
  omega

theorem Chip.onlyMem_helperResult : c.OnlyMem (c.helperResult n errors) := by
  rw [Chip.helperResult_eq]
  exact ((c.onlyMem_modChan n _).trans (Chip.onlyRegs_setTable _ _ _ _).onlyMem).trans (Chip.onlyRegs_publish _ _).onlyMem

theorem Chip.helperResult_mem : (c.helperResult n errors).mem.chans =
    mapMod chanDefault c.mem.chans n (fun h => { h with running := false }) := by
  rw [Chip.helperResult_eq]
  exact ((Chip.onlyRegs_setTable (c.modChan n (fun h => { h with running := false })) 18 _ _).trans (Chip.onlyRegs_publish _ _)).keeps
    (·.mem.chans) (fun _ => rfl)

theorem Chip.helperResult_chan : (c.helperResult n errors).chan n = { c.chan n with running := false } := by
  rw [Chip.chan, Chip.helperResult_mem]
  exact mapGet_mod_same _ _ _ _

theorem Chip.helperResult_error {k : Nat} (hk : k < 18) : ((c.helperResult n errors).reg (R.dmcTrnErr n k)).toNat = min (errors.getD k 0) 0xFFFFFFFF := by
  rw [Chip.helperResult_eq, Chip.publish_reg_other _ (by unfold R.dmcTrnErr R.dmcTrnRes; omega),
    Chip.setTable_reg_same _ _ hk (dmcTrnErr_inj n), BitVec.toNat_ofNat]
  omega

theorem Chip.helperResult_published : (c.helperResult n errors).bit (R.dmcTrnRes n) 31 = true ∧
    (c.helperResult n errors).fld (R.dmcTrnRes n) 15 0 = (c.fld (R.dmcTrnRes n) 15 0 + 1) % 65536 := by
  rw [Chip.helperResult_eq]
  refine ⟨Chip.publish_valid _ _, (Chip.publish_seq _ _).trans ?_⟩
  have same : ((c.modChan n (fun h => { h with running := false })).setTable 18 (R.dmcTrnErr n)
      (fun b => BitVec.ofNat 32 (min (errors.getD b 0) 0xFFFFFFFF))).reg (R.dmcTrnRes n) = c.reg (R.dmcTrnRes n) := by
    rw [Chip.setTable_reg_other _ _ (fun k _ => by unfold R.dmcTrnErr R.dmcTrnRes; omega),
      Chip.modChan_reg _ _ _ (by unfold R.dmcChStat R.dmcTrnRes; omega)]
  rw [Chip.fld_of_reg same]
  norm_num

theorem Chip.helperResult_writesOnly : c.writesOnly (c.helperResult n errors)
    ([R.dmcChStat n, R.dmcTrnRes n] ++ (List.range 18).map (fun k => R.dmcTrnErr n k)) := by
  refine (c.onlyMem_helperResult n errors).writesOnly ?_
  rw [Chip.helperResult_eq]
  refine (regsSame_publish_iff (by simp)).mpr ((regsSame.trans ?_ (regsSame_setTable _ _ (fun i hi => ?_))))
  · exact (regsSame_modChan_iff c n _ (by simp)).mpr regsSame.refl
  · exact List.mem_append_right _ (List.mem_map.mpr ⟨i, List.mem_range.mpr hi, rfl⟩)

end

theorem helperResult_says (c : Chip) (n : Nat) (errors : List Nat) : ((c.helperResult n errors).chan n).running = false ∧
    ((c.helperResult n errors).chan n).queue = (c.chan n).queue ∧ (c.helperResult n errors).bit (R.dmcTrnRes n) 31 = true ∧
    (c.helperResult n errors).fld (R.dmcTrnRes n) 15 0 = (c.fld (R.dmcTrnRes n) 15 0 + 1) % 65536 ∧
    (∀ k, k < 18 → ((c.helperResult n errors).reg (R.dmcTrnErr n k)).toNat = min (errors.getD k 0) 0xFFFFFFFF) ∧
    c.writesOnly (c.helperResult n errors) ([R.dmcChStat n, R.dmcTrnRes n] ++ (List.range 18).map (fun k => R.dmcTrnErr n k)) ∧
    c.raises (c.helperResult n errors) [] := by
  have chan := c.helperResult_chan n errors
  obtain ⟨valid, seq⟩ := c.helperResult_published n errors
  exact ⟨congrArg (·.running) chan, congrArg (·.queue) chan, valid, seq, fun _ hk => c.helperResult_error n errors hk,
    c.helperResult_writesOnly n errors, (c.onlyMem_helperResult n errors).raises⟩

/-! ### The commands -/

section
variable {s : State} (t : Stamp) (src : Source) {n : Nat} (errors : List Nat)

theorem exec_trainingRun (hn : n < 16) : exec (.trainingRun t src n) s = .next { s with
      chip := (s.chip.at t).trainByRow src n 1 [] } := if_pos (decide_eq_true hn)

theorem exec_trainingStop (hn : n < 16) : exec (.trainingStop t src n errors) s = .next { s with
      chip := (s.chip.at t).trainByRow src n 2 errors } := if_pos (decide_eq_true hn)

end

section
variable {c : Chip} {src : Source} {n cmd : Nat} {errors : List Nat}

theorem Chip.trainByRow_dropped (hs : c.isSealed = true) (hp : src ≠ .peg) :
    c.trainByRow src n cmd errors = c.dropWrite (R.dmcTrnCtl n) := if_pos (by simp [hs, hp])

theorem Chip.trainByRow_acts (h : c.isSealed = false ∨ src = .peg) :
    c.trainByRow src n cmd errors = c.trainCommand src n cmd (cmdWord cmd) errors := by
  refine if_neg ?_
  rcases h with h | h <;> simp [h]

theorem Chip.trainCommand_refused (data : Word) (h : c.trainCause n cmd ≠ 0) :
    c.trainCommand src n cmd data errors = c.refuse src (R.dmcTrnCtl n) data (c.trainCause n cmd) := if_pos (by simpa using h)

theorem Chip.trainCommand_run (data : Word) (h : c.trainCause n 1 = 0) : c.trainCommand src n 1 data errors = c.startRun n := by
  simp [Chip.trainCommand, h, Chip.startRun]

theorem Chip.trainCommand_stop (data : Word) (h : c.trainCause n 2 = 0) : c.trainCommand src n 2 data errors = c.helperResult n errors := by
  simp [Chip.trainCommand, h]

end

/-! ### Trims -/

/-- The trim register `a` takes effect. -/
def Chip.takeTrim (c : Chip) (a : Nat) : Chip := { c with trims := mapPut resetWord c.trims a (c.reg a) }

/-- The trims of channel `n` take effect. -/
def Chip.takeTrims (c : Chip) (n : Nat) : Chip :=
  ((forN 18 (fun b c => c.takeTrim (R.dmcTrim n b)) c).takeTrim (R.dmcTrimVref n)).takeTrim (R.dmcTrimCa n)

theorem exec_trimWriteApply {s : State} (t : Stamp) {n : Nat} (hn : n < 16) : exec (.trimWriteApply t n) s = .next { s with
      chip := (s.chip.at t).takeTrims n } := if_pos (decide_eq_true hn)

/-- From `c` to `c1` nothing but trims in effect has changed. -/
def Chip.OnlyTrims (c c1 : Chip) : Prop := c1 = { c with trims := c1.trims }

theorem Chip.onlyTrims_takeTrims (c : Chip) (n : Nat) : c.OnlyTrims (c.takeTrims n) := by
  have loop : ∀ k, c.OnlyTrims (forN k (fun b c => c.takeTrim (R.dmcTrim n b)) c) := by
    intro k
    induction k with
    | zero => exact rfl
    | succ k ih =>
      rw [forN_succ]
      unfold Chip.OnlyTrims at *
      rw [Chip.takeTrim, ih]
  have h := loop 18
  unfold Chip.OnlyTrims at *
  rw [Chip.takeTrims, Chip.takeTrim, Chip.takeTrim, h]

theorem Chip.OnlyTrims.reg {c c1 : Chip} (h : c.OnlyTrims c1) (a : Nat) : c1.reg a = c.reg a := congrArg (·.reg a) h

theorem Chip.takeTrim_trim (c : Chip) (a b : Nat) : mapGet resetWord (c.takeTrim a).trims b = if b = a then c.reg a else mapGet resetWord c.trims b :=
  mapGet_mapPut _ _ _ _ _

theorem Chip.takeTrim_reg (c : Chip) (a b : Nat) : (c.takeTrim a).reg b = c.reg b := rfl

theorem Chip.takeTrims_lane (c : Chip) (n : Nat) {b : Nat} (hb : b < 18) : mapGet resetWord (c.takeTrims n).trims (R.dmcTrim n b) = c.reg (R.dmcTrim n b) := by
  rw [Chip.takeTrims, Chip.takeTrim_trim, if_neg (by unfold R.dmcTrim R.dmcTrimCa; omega), Chip.takeTrim_trim,
    if_neg (by unfold R.dmcTrim R.dmcTrimVref; omega)]
  suffices h : ∀ k, b < k → mapGet resetWord (forN k (fun b c => c.takeTrim (R.dmcTrim n b)) c).trims (R.dmcTrim n b) = c.reg (R.dmcTrim n b) from
    h 18 hb
  intro k
  induction k with
  | zero => exact fun h => absurd h (by omega)
  | succ k ih =>
    intro hk
    have kept : (forN k (fun b c => c.takeTrim (R.dmcTrim n b)) c).reg (R.dmcTrim n k) = c.reg (R.dmcTrim n k) :=
      forN_keeps (fun c : Chip => c.reg (R.dmcTrim n k)) (fun _ _ _ => rfl)
    rw [forN_succ, Chip.takeTrim_trim, kept]
    split
    · next e => rw [e]
    · next e => exact ih (by
        have : b ≠ k := fun h => e (by rw [h])
        omega)

theorem Chip.takeTrims_other (c : Chip) (n : Nat) : mapGet resetWord (c.takeTrims n).trims (R.dmcTrimVref n) = c.reg (R.dmcTrimVref n) ∧
    mapGet resetWord (c.takeTrims n).trims (R.dmcTrimCa n) = c.reg (R.dmcTrimCa n) := by
  have kept : ∀ a, (forN 18 (fun b c => c.takeTrim (R.dmcTrim n b)) c).reg a = c.reg a :=
    fun a => forN_keeps (fun c : Chip => c.reg a) (fun _ _ _ => rfl)
  constructor
  · rw [Chip.takeTrims, Chip.takeTrim_trim, if_neg (by unfold R.dmcTrimVref R.dmcTrimCa; omega), Chip.takeTrim_trim, if_pos rfl, kept]
  · rw [Chip.takeTrims, Chip.takeTrim_trim, if_pos rfl, Chip.takeTrim_reg, kept]

theorem Chip.dropWrite_says (c : Chip) (a : Nat) : (c.dropWrite a).mem = c.mem ∧
    (c.dropWrite a).reg R.pitSwrCount = (c.bump R.pitSwrCount).reg R.pitSwrCount ∧ c.writesOnly (c.dropWrite a) dropRegs := by
  refine ⟨Chip.dropWrite_mem c a, ?_, Chip.writesOnly_of ((regsSame_dropWrite_iff (fun _ h => h) a).mpr regsSame.refl)
    (Chip.dropWrite_dram c a) (Chip.dropWrite_tbw c a)⟩
  unfold Chip.dropWrite
  extract_lets counted shown
  have kept : shown.reg R.pitSwrCount = counted.reg R.pitSwrCount := by
    unfold shown
    split
    · rfl
    · rw [Chip.setFld_reg_other _ _ _ _ (show R.pitSwrCount ≠ R.pitSwr by decide),
        Chip.setFld_reg_other _ _ _ _ (show R.pitSwrCount ≠ R.pitSwr by decide)]
  exact (Chip.eventLimited_reg shown 0 0x0109 .room _ (show R.pitSwrCount ≠ R.evjStat by decide)
    (show R.pitSwrCount ≠ R.evjCnt 1 by decide)).trans kept

/-- Settles O54: what RUN, STOP and the end of a run leave of the helper, by the causes of the table. -/
theorem trainingHelperRunsAndReports : Obligations.TrainingHelperRunsAndReports := by
  unfold Obligations.TrainingHelperRunsAndReports
  refine ⟨?_, ?_, ?_, ?_, ?_, ?_, ?_, ?_, ?_⟩
  · intro s t src n hn idle allowed
    have cause : (s.chip.at t).trainCause n 1 = 0 := by
      rcases allowed with unsealed | ⟨-, row⟩
      · simp [Chip.trainCause, show ((s.chip.at t).chan n).running = false from idle, show (s.chip.at t).isSealed = false from unsealed]
      · simp [Chip.trainCause, show ((s.chip.at t).chan n).running = false from idle,
          show (s.chip.at t).fld (R.dmcTrnRow n) 16 0 = (s.chip.at t).fld R.dmcSweep 16 0 from row]
    refine answers_exec (exec_trainingRun t src hn) ?_
    rw [Chip.trainByRow_acts (c := s.chip.at t) (allowed.imp_right And.left), Chip.trainCommand_run _ cause]
    have chan := (s.chip.at t).startRun_chan_same n
    obtain ⟨invalid, rest⟩ := (s.chip.at t).startRun_result n
    exact ⟨congrArg (·.running) chan, congrArg (·.queue) chan, invalid, rest, fun k _ hk => (s.chip.at t).startRun_chan_other n hk,
      (s.chip.at t).startRun_storesOnly n, (s.chip.at t).startRun_raises n⟩
  · intro s t src n hn h
    have acts : (s.chip.at t).isSealed = false ∨ src = .peg := h.imp And.left And.left
    have cause : (s.chip.at t).trainCause n 1 = if (s.chip.chan n).running = true then 1 else 2 := by
      rcases h with ⟨-, run⟩ | ⟨-, sealed, run | row⟩
      · simp [Chip.trainCause, show ((s.chip.at t).chan n).running = true from run, run]
      · simp [Chip.trainCause, show ((s.chip.at t).chan n).running = true from run, run]
      · simp only [Chip.trainCause, show ((s.chip.at t).chan n).running = (s.chip.chan n).running from rfl,
          show (s.chip.at t).isSealed = true from sealed, Bool.true_and, beq_self_eq_true, if_true]
        rw [if_pos (show ((s.chip.at t).fld (R.dmcTrnRow n) 16 0 != (s.chip.at t).fld R.dmcSweep 16 0) = true from bne_iff_ne.mpr row)]
    have some_ : (s.chip.at t).trainCause n 1 ≠ 0 := by
      rw [cause]
      split <;> decide
    refine answers_exec (exec_trainingRun t src hn) ?_
    rw [Chip.trainByRow_acts (c := s.chip.at t) acts, Chip.trainCommand_refused _ some_, cause]
    exact ⟨Chip.refuse_mem _ _ _ _ _, s.chip.at_refused t src _ _ _⟩
  · intro s t src n errors hn run acts
    refine answers_exec (exec_trainingStop t src errors hn) ?_
    rw [Chip.trainByRow_acts (c := s.chip.at t) acts, Chip.trainCommand_stop _ (by simp [Chip.trainCause, show ((s.chip.at t).chan n).running = true from run])]
    exact helperResult_says (s.chip.at t) n errors
  · intro s t src n errors hn idle acts
    have cause : (s.chip.at t).trainCause n 2 = 1 := by simp [Chip.trainCause, show ((s.chip.at t).chan n).running = false from idle]
    refine answers_exec (exec_trainingStop t src errors hn) ?_
    rw [Chip.trainByRow_acts (c := s.chip.at t) acts, Chip.trainCommand_refused _ (by rw [cause]; decide), cause]
    exact ⟨Chip.refuse_mem _ _ _ _ _, s.chip.at_refused t src _ _ _⟩
  · intro s t src n hn sealed other
    refine answers_exec (exec_trainingRun t src hn) ?_
    rw [Chip.trainByRow_dropped (c := s.chip.at t) sealed other]
    exact (s.chip.at t).dropWrite_says _
  · intro s t src n errors hn sealed other
    refine answers_exec (exec_trainingStop t src errors hn) ?_
    rw [Chip.trainByRow_dropped (c := s.chip.at t) sealed other]
    exact (s.chip.at t).dropWrite_says _
  · intro s t n errors hn run
    refine answers_of (show exec _ s = execTrainingRunDone t n errors s from rfl) (decide_eq_true hn) ?_
    rw [if_pos (show ((s.chip.at t).chan n).running = true from run)]
    exact helperResult_says (s.chip.at t) n errors
  · intro s t n errors hn idle
    exact gives_of (show exec _ s = execTrainingRunDone t n errors s from rfl) (decide_eq_true hn)
      (if_neg (show ¬ ((s.chip.at t).chan n).running = true by rw [show (s.chip.at t).chan n = s.chip.chan n from rfl, idle]; simp))
  · intro s t n hn
    have eq := (s.chip.at t).onlyTrims_takeTrims n
    obtain ⟨vref, ca⟩ := (s.chip.at t).takeTrims_other n
    exact answers_exec (exec_trimWriteApply t hn) ⟨fun b hb => (s.chip.at t).takeTrims_lane n hb, vref, ca,
      Chip.writesOnly_of (fun a _ => eq.reg a) (congrArg (·.dram) eq) (congrArg (·.tbw) eq), Chip.raises_of_evq (congrArg (·.evq) eq)⟩

end Sys2Proof.Machine

/-! ## What a read of a burst finds (R378), and events told once a second -/

namespace Sys2Proof.Machine

/-! ### Events told at most once a second -/

/-- An event told at most once a second is told now: it has not been told, or the second is over and nothing waits to be told. -/
def Chip.tellsNow (c : Chip) (u code : Nat) : Bool :=
  match (mapGet rateDefault c.rate (rateKey code u)).last with
  | none => true
  | some l => elapsed c.clk l nsPerS && (mapGet rateDefault c.rate (rateKey code u)).count == 0

theorem Chip.eventLimited_told {c : Chip} {u code : Nat} (p : FaultAddr) (f : List CField) (h : c.tellsNow u code = true) :
    c.raises (c.eventLimited u code p f) [(⟨code, p, c.clk, f⟩ : Ev).withCount 1] := by
  unfold Chip.eventLimited Chip.raiseLimited Chip.raiseLimitedBy
  exact (if_pos h) ▸ Chip.raises_raise_of_evq rfl _

theorem Chip.eventLimited_counted {c : Chip} {u code : Nat} (p : FaultAddr) (f : List CField) (h : c.tellsNow u code = false) :
    c.eventLimited u code p f = { c with
      rate := mapPut rateDefault c.rate (rateKey code u) { mapGet rateDefault c.rate (rateKey code u) with
        count := (mapGet rateDefault c.rate (rateKey code u)).count + 1,
        first := some ((mapGet rateDefault c.rate (rateKey code u)).first.getD ⟨code, p, c.clk, f⟩) } } := by
  unfold Chip.eventLimited Chip.raiseLimited Chip.raiseLimitedBy
  exact if_neg (fun free => by rw [show c.tellsNow u code = true from free] at h; exact absurd h (by decide))

/-! ### What a read of a burst finds -/

/-- An uncorrectable error of channel `n` in the burst at `ofs` is counted; the first one is kept. -/
def Chip.countWorn (c : Chip) (n ofs : Nat) : Chip :=
  let c := c.bump (R.dmcChCnt n 1)
  if (c.chan n).ueSeen then c
  else (c.modChan n (fun h => { h with ueSeen := true })).setWide (R.dmcEccAddrLo n) (R.dmcEccAddrHi n) (ofs / 64 * 64)

/-- A write to the burst at `ofs` is queued in channel `n`. -/
def Chip.writeQueued (c : Chip) (n ofs : Nat) : Bool := (c.chan n).queue.any (fun x => x.access.kind == 1 && x.burst == ofs / 64)

/-- A single-bit error of channel `n` in the burst at `ofs` is counted, and repaired where no write to the burst is queued. -/
def Chip.countSingle (c : Chip) (n ofs : Nat) : Chip :=
  let c := c.bump (R.dmcChCnt n 0)
  if c.writeQueued n ofs then c else c.bump (R.dmcChCnt n 3)

/-- The registers in which channel `n` shows errors. -/
def errorRegs (n : Nat) : List Nat := [R.dmcChStat n, R.dmcEccAddrLo n, R.dmcEccAddrHi n, R.dmcChCnt n 0, R.dmcChCnt n 1, R.dmcChCnt n 3]

section
variable (c : Chip) (n ofs ecc : Nat)

theorem Chip.eccRead_worn (h : c.flagged ofs ecc = true) : c.eccRead n ofs ecc =
    (c.countWorn n ofs).eventLimited n 0xD002 .room [.val 1 n, .occ, .val 8 (ofs / 64 * 64)] := by
  simp only [Chip.flagged, Bool.and_eq_true] at h
  obtain ⟨on, bad⟩ := h
  unfold Chip.eccRead
  rw [if_neg (by simp [on]), if_pos bad]
  rfl

theorem Chip.eccRead_single (on : c.bit R.dmcCfg 30 = true) (good : c.flagged ofs ecc = false) (h : ecc = 1) : c.eccRead n ofs ecc =
    (c.countSingle n ofs).eventLimitedLast n 0xD001 .room [.val 1 n, .occ, .val 8 (ofs / 64 * 64)] := by
  simp only [Chip.flagged, on, Bool.true_and] at good
  unfold Chip.eccRead
  rw [if_neg (by simp [on]), if_neg (by rw [good]; decide), if_pos (by simp [h])]
  rfl

theorem Chip.eccRead_clean (h : c.bit R.dmcCfg 30 = false ∨ (c.flagged ofs ecc = false ∧ ecc ≠ 1)) : c.eccRead n ofs ecc = c := by
  unfold Chip.eccRead
  by_cases on : c.bit R.dmcCfg 30 = true
  · obtain ⟨good, one⟩ := h.resolve_left (by simp [on])
    simp only [Chip.flagged, on, Bool.true_and] at good
    rw [if_neg (by simp [on]), if_neg (by rw [good]; decide), if_neg (by simp [one])]
  · exact if_pos (by simp [on])

/-- The three things that a read may find. -/
theorem Chip.eccRead_cases {P : Chip → Prop}
    (worn : c.flagged ofs ecc = true → P ((c.countWorn n ofs).eventLimited n 0xD002 .room [.val 1 n, .occ, .val 8 (ofs / 64 * 64)]))
    (single : c.bit R.dmcCfg 30 = true → c.flagged ofs ecc = false → ecc = 1 →
      P ((c.countSingle n ofs).eventLimitedLast n 0xD001 .room [.val 1 n, .occ, .val 8 (ofs / 64 * 64)]))
    (clean : (c.bit R.dmcCfg 30 = false ∨ (c.flagged ofs ecc = false ∧ ecc ≠ 1)) → P c) : P (c.eccRead n ofs ecc) := by
  by_cases bad : c.flagged ofs ecc = true
  · rw [c.eccRead_worn n ofs ecc bad]
    exact worn bad
  · have good : c.flagged ofs ecc = false := by simpa using bad
    by_cases h : c.bit R.dmcCfg 30 = true ∧ ecc = 1
    · rw [c.eccRead_single n ofs ecc h.1 good h.2]
      exact single h.1 good h.2
    · have none : c.bit R.dmcCfg 30 = false ∨ (c.flagged ofs ecc = false ∧ ecc ≠ 1) := by
        by_cases on : c.bit R.dmcCfg 30 = true
        · exact .inr ⟨good, fun e => h ⟨on, e⟩⟩
        · exact .inl (by simpa using on)
      rw [c.eccRead_clean n ofs ecc none]
      exact clean none

theorem Chip.onlyMem_countWorn : c.OnlyMem (c.countWorn n ofs) := by
  unfold Chip.countWorn
  extract_lets d
  split
  · rfl
  · rfl

theorem Chip.onlyRegs_countSingle : c.OnlyRegs (c.countSingle n ofs) := by
  unfold Chip.countSingle
  extract_lets d
  split
  · rfl
  · rfl

theorem regsSame_countWorn : regsSame (errorRegs n) c.regs (c.countWorn n ofs).regs := by
  have counted : regsSame (errorRegs n) c.regs (c.bump (R.dmcChCnt n 1)).regs := (regsSame_bump_iff (by simp [errorRegs])).mpr regsSame.refl
  unfold Chip.countWorn
  extract_lets d
  split
  · exact counted
  · refine (regsSame_setWide_iff (by simp [errorRegs]) (by simp [errorRegs]) _).mpr ?_
    exact (regsSame_modChan_iff _ _ _ (by simp [errorRegs])).mpr counted

theorem regsSame_countSingle : regsSame (errorRegs n) c.regs (c.countSingle n ofs).regs := by
  have counted : regsSame (errorRegs n) c.regs (c.bump (R.dmcChCnt n 0)).regs := (regsSame_bump_iff (by simp [errorRegs])).mpr regsSame.refl
  unfold Chip.countSingle
  extract_lets d
  split
  · exact counted
  · exact (regsSame_bump_iff (by simp [errorRegs])).mpr counted

theorem regsSame_eccRead : regsSame (errorRegs n ++ eventRegs) c.regs (c.eccRead n ofs ecc).regs := by
  have more : ∀ a ∈ errorRegs n, a ∈ errorRegs n ++ eventRegs := fun _ h => List.mem_append_left _ h
  refine c.eccRead_cases (P := fun d => regsSame (errorRegs n ++ eventRegs) c.regs d.regs) n ofs ecc (fun _ => ?_) (fun _ _ _ => ?_)
    (fun _ => regsSame.refl)
  · exact (regsSame_eventLimited_iff (by simp) (by simp) _ _ _ _).mpr ((regsSame_countWorn c n ofs).mono more)
  · exact (regsSame_eventLimitedLast_iff (by simp) (by simp) _ _ _ _).mpr ((regsSame_countSingle c n ofs).mono more)

theorem Chip.eccRead_dram : (c.eccRead n ofs ecc).dram = c.dram := by
  refine c.eccRead_cases (P := fun d => d.dram = c.dram) n ofs ecc (fun _ => ?_) (fun _ _ _ => ?_) (fun _ => rfl)
  · exact (Chip.eventLimited_dram _ _ _ _ _).trans ((c.onlyMem_countWorn n ofs).keeps (·.dram) (fun _ _ => rfl))
  · exact (Chip.eventLimitedLast_dram _ _ _ _ _).trans ((c.onlyRegs_countSingle n ofs).keeps (·.dram) (fun _ => rfl))

theorem Chip.eccRead_tbw : (c.eccRead n ofs ecc).tbw = c.tbw := by
  refine c.eccRead_cases (P := fun d => d.tbw = c.tbw) n ofs ecc (fun _ => ?_) (fun _ _ _ => ?_) (fun _ => rfl)
  · exact (Chip.eventLimited_tbw _ _ _ _ _).trans ((c.onlyMem_countWorn n ofs).keeps (·.tbw) (fun _ _ => rfl))
  · exact (Chip.eventLimitedLast_tbw _ _ _ _ _).trans ((c.onlyRegs_countSingle n ofs).keeps (·.tbw) (fun _ => rfl))

theorem Chip.eccRead_clk : (c.eccRead n ofs ecc).clk = c.clk := by
  refine c.eccRead_cases (P := fun d => d.clk = c.clk) n ofs ecc (fun _ => ?_) (fun _ _ _ => ?_) (fun _ => rfl)
  · exact (Chip.eventLimited_clk _ _ _ _ _).trans ((c.onlyMem_countWorn n ofs).keeps (·.clk) (fun _ _ => rfl))
  · exact (Chip.eventLimitedLast_clk _ _ _ _ _).trans ((c.onlyRegs_countSingle n ofs).keeps (·.clk) (fun _ => rfl))

theorem Chip.eccRead_tx : (c.eccRead n ofs ecc).tx = c.tx := by
  refine c.eccRead_cases (P := fun d => d.tx = c.tx) n ofs ecc (fun _ => ?_) (fun _ _ _ => ?_) (fun _ => rfl)
  · exact (Chip.eventLimited_tx _ _ _ _ _).trans ((c.onlyMem_countWorn n ofs).keeps (·.tx) (fun _ _ => rfl))
  · exact (Chip.eventLimitedLast_tx _ _ _ _ _).trans ((c.onlyRegs_countSingle n ofs).keeps (·.tx) (fun _ => rfl))

/-- Of the memory system's state a read changes at most the mark of a channel that it has seen an uncorrectable error. -/
theorem Chip.countWorn_mem : ∃ b, (c.countWorn n ofs).mem = { c.mem with chans := mapMod chanDefault c.mem.chans n (fun h => { h with ueSeen := b }) } ∨
    (c.countWorn n ofs).mem = c.mem := by
  unfold Chip.countWorn
  extract_lets d
  split
  · exact ⟨true, .inr rfl⟩
  · exact ⟨true, .inl rfl⟩

theorem Chip.eccRead_mem : ∃ b, (c.eccRead n ofs ecc).mem = { c.mem with chans := mapMod chanDefault c.mem.chans n (fun h => { h with ueSeen := b }) } ∨
    (c.eccRead n ofs ecc).mem = c.mem := by
  refine c.eccRead_cases (P := fun d => ∃ b, d.mem = { c.mem with chans := mapMod chanDefault c.mem.chans n (fun h => { h with ueSeen := b }) } ∨
    d.mem = c.mem) n ofs ecc (fun _ => ?_) (fun _ _ _ => ?_) (fun _ => ⟨true, .inr rfl⟩)
  · rw [Chip.eventLimited_mem]
    exact c.countWorn_mem n ofs
  · rw [Chip.eventLimitedLast_mem]
    exact ⟨true, .inr ((c.onlyRegs_countSingle n ofs).keeps (·.mem) (fun _ => rfl))⟩

theorem Chip.eccRead_chan : ∃ b, (c.eccRead n ofs ecc).chan n = { c.chan n with ueSeen := b } := by
  obtain ⟨b, h | h⟩ := c.eccRead_mem n ofs ecc
  · refine ⟨b, ?_⟩
    rw [Chip.chan, h]
    exact mapGet_mod_same chanDefault c.mem.chans n (fun h => { h with ueSeen := b })
  · refine ⟨(c.chan n).ueSeen, ?_⟩
    rw [Chip.chan, h]
    rfl

theorem Chip.eccRead_chan_other {k : Nat} (hk : k ≠ n) : (c.eccRead n ofs ecc).chan k = c.chan k := by
  obtain ⟨b, h | h⟩ := c.eccRead_mem n ofs ecc
  · rw [Chip.chan, h]
    exact mapGet_mod_other chanDefault c.mem.chans (fun h => { h with ueSeen := b }) hk
  · rw [Chip.chan, h]
    rfl

/-! ### The counts -/

theorem Chip.bump_reg_congr {c c1 : Chip} {a : Nat} (h : c1.reg a = c.reg a) : (c1.bump a).reg a = (c.bump a).reg a := by
  rw [Chip.bump_reg, Chip.bump_reg, h]

theorem Chip.countWorn_cnt {i : Nat} (hi : i < 5) : (c.countWorn n ofs).reg (R.dmcChCnt n i) =
    (if i = 1 then c.bump (R.dmcChCnt n i) else c).reg (R.dmcChCnt n i) := by
  have counted : (c.bump (R.dmcChCnt n 1)).reg (R.dmcChCnt n i) = (if i = 1 then c.bump (R.dmcChCnt n i) else c).reg (R.dmcChCnt n i) := by
    split
    · next e => rw [e]
    · next e => exact Chip.bump_reg_other _ (by unfold R.dmcChCnt; omega)
  unfold Chip.countWorn
  extract_lets d
  split
  · exact counted
  · rw [Chip.setWide_reg_other _ _ (by unfold R.dmcChCnt R.dmcEccAddrLo; omega) (by unfold R.dmcChCnt R.dmcEccAddrHi; omega),
      Chip.modChan_reg _ _ _ (by unfold R.dmcChCnt R.dmcChStat; omega)]
    exact counted

theorem Chip.countSingle_cnt {i : Nat} : (c.countSingle n ofs).reg (R.dmcChCnt n i) =
    (if i = 0 ∨ (i = 3 ∧ c.writeQueued n ofs = false) then c.bump (R.dmcChCnt n i) else c).reg (R.dmcChCnt n i) := by
  have queued : (c.bump (R.dmcChCnt n 0)).writeQueued n ofs = c.writeQueued n ofs := rfl
  have ne : ∀ j k, j ≠ k → R.dmcChCnt n j ≠ R.dmcChCnt n k := fun j k h e => h (by unfold R.dmcChCnt at e; omega)
  unfold Chip.countSingle
  dsimp only
  rw [queued]
  by_cases q : c.writeQueued n ofs = true
  · rw [if_pos q]
    by_cases zero : i = 0
    · rw [if_pos (.inl zero), zero]
    · rw [if_neg (by simp [zero, q]), Chip.bump_reg_other _ (ne i 0 zero)]
  · rw [if_neg q]
    by_cases three : i = 3
    · rw [if_pos (.inr ⟨three, by simpa using q⟩), three]
      exact Chip.bump_reg_congr (Chip.bump_reg_other _ (ne 3 0 (by decide)))
    · rw [Chip.bump_reg_other _ (ne i 3 three)]
      by_cases zero : i = 0
      · rw [if_pos (.inl zero), zero]
      · rw [if_neg (by simp [zero, three]), Chip.bump_reg_other _ (ne i 0 zero)]

theorem Chip.eccRead_cnt {i : Nat} (hi : i < 5) : (c.eccRead n ofs ecc).reg (R.dmcChCnt n i) =
    (if (c.flagged ofs ecc = true ∧ i = 1) ∨ (c.bit R.dmcCfg 30 = true ∧ c.flagged ofs ecc = false ∧ ecc = 1 ∧
      (i = 0 ∨ (i = 3 ∧ c.writeQueued n ofs = false))) then c.bump (R.dmcChCnt n i) else c).reg (R.dmcChCnt n i) := by
  have stat : R.dmcChCnt n i ≠ R.evjStat := by unfold R.dmcChCnt R.evjStat; omega
  have lost : R.dmcChCnt n i ≠ R.evjCnt 1 := by unfold R.dmcChCnt R.evjCnt; omega
  refine c.eccRead_cases (P := fun d => d.reg (R.dmcChCnt n i) = _) n ofs ecc (fun bad => ?_) (fun on good one => ?_) (fun none => ?_)
  · rw [Chip.eventLimited_reg _ _ _ _ _ stat lost, c.countWorn_cnt n ofs hi]
    simp [bad]
  · rw [(regsSame_eventLimitedLast_iff (l := eventRegs) (by simp) (by simp) _ _ _ _).mpr regsSame.refl |>.reg (by simp [stat, lost]),
      c.countSingle_cnt n ofs]
    rw [one] at good ⊢
    simp [on, good]
  · rw [if_neg]
    rintro (⟨bad, -⟩ | ⟨on, good, one, -⟩)
    · rcases none with off | ⟨good, -⟩
      · simp [Chip.flagged, off] at bad
      · simp [good] at bad
    · rcases none with off | ⟨-, two⟩
      · simp [off] at on
      · exact two one

end

end Sys2Proof.Machine

/-! ## Refresh, temperature, oscillators, scrubs, holds and budgets (R375 to R388) -/

namespace Sys2Proof.Machine

/-! ### Refresh (R375) -/

/-- The refresh of a bank is postponed once more. -/
def Chan.postpone (bank : Nat) (h : Chan) : Chan :=
  { h with postponed := mapPut (fun _ => 0) h.postponed bank (mapGet (fun _ => 0) h.postponed bank + 1) }

/-- A bank is refreshed: its row is closed. -/
def Chan.refresh (bank : Nat) (h : Chan) : Chan :=
  { h with postponed := mapPut (fun _ => 0) h.postponed bank 0, rows := mapPut (fun _ => 0) h.rows bank 0 }

/-- An urgent transaction of channel `n` waits for the bank. -/
def Chip.bankUrgent (c : Chip) (n bank : Nat) : Bool := (c.chan n).queue.any (fun x => c.pressed x && c.bankOf x.ofs == bank)

section
variable {s : State} (t : Stamp) {n bank : Nat}

theorem exec_refreshDue (hn : n < 16) (hb : bank < 16) : exec (.refreshDue t n bank) s = .next { s with
      chip := if s.chip.bankUrgent n bank && decide (mapGet (fun _ => 0) (s.chip.chan n).postponed bank < 8)
        then (s.chip.at t).modChan n (Chan.postpone bank) else (s.chip.at t).modChan n (Chan.refresh bank) } :=
  if_pos (by simp [hn, hb])

theorem exec_refreshDue_now (hn : n < 16) (hb : bank < 16)
    (h : s.chip.bankUrgent n bank = false ∨ 8 ≤ mapGet (fun _ => 0) (s.chip.chan n).postponed bank) :
    exec (.refreshDue t n bank) s = .next { s with
      chip := (s.chip.at t).modChan n (Chan.refresh bank) } := by
  rw [exec_refreshDue t hn hb, if_neg]
  rcases h with h | h
  · simp [h]
  · simp [Nat.not_lt.mpr h]

theorem exec_refreshDue_late (hn : n < 16) (hb : bank < 16) (h : s.chip.bankUrgent n bank = true)
    (late : mapGet (fun _ => 0) (s.chip.chan n).postponed bank < 8) : exec (.refreshDue t n bank) s = .next { s with
      chip := (s.chip.at t).modChan n (Chan.postpone bank) } := by
  rw [exec_refreshDue t hn hb, if_pos (by simp [h, late])]

end

/-! ### The temperature and the oscillators (R375, R383) -/

section
variable {s : State} (t : Stamp) {n : Nat}

theorem exec_mr4Poll_changed {code : Nat} (hn : n < 16) (hc : code < 32) (h : s.chip.fld (R.dmcChStat n) 28 24 ≠ code) :
    exec (.mr4Poll t n code) s = .next { s with
      chip := ((s.chip.at t).setFld (R.dmcChStat n) 28 24 code).event 0xD005 .room [.val 1 n, .val 1 code] } := by
  rw [show exec (.mr4Poll t n code) s = execMr4Poll t n code s from rfl, execMr4Poll, runIf_of _ _ _ (by simp [hn, hc])]
  refine congrArg (fun c => Host.Outcome.next { s with chip := c }) (if_neg ?_)
  exact fun e => h (beq_iff_eq.mp e)

theorem exec_mr4Poll_same (hn : n < 16) : exec (.mr4Poll t n (s.chip.fld (R.dmcChStat n) 28 24)) s = .next { s with
      chip := s.chip.at t } := by
  rw [show exec (.mr4Poll t n (s.chip.fld (R.dmcChStat n) 28 24)) s = execMr4Poll t n (s.chip.fld (R.dmcChStat n) 28 24) s from rfl,
    execMr4Poll, runIf_of _ _ _ (by have := bitsOf_lt (s.chip.reg (R.dmcChStat n)) 28 24; simp [hn]; exact this)]
  exact congrArg (fun c => Host.Outcome.next { s with chip := c }) (if_pos (beq_self_eq_true (s.chip.fld (R.dmcChStat n) 28 24)))

/-- The oscillators of channel `n` are corrected by `v`. -/
def Chip.corrected (c : Chip) (n : Nat) (v : Int) : Chip := c.setFld (R.dmcOsc n) 8 0 (twosOf 9 v)

theorem exec_oscTrackRead (want : Int) (hn : n < 16) : exec (.oscTrackRead t n want) s = .next { s with
      chip := if clampInt (-32) 32 want == want then (s.chip.at t).corrected n (clampInt (-32) 32 want)
        else ((s.chip.at t).corrected n (clampInt (-32) 32 want)).event 0xD006 .room
          [.val 1 n, .val 2 (twosOf 16 (clampInt (-32) 32 want))] } := if_pos (decide_eq_true hn)

theorem exec_oscTrackRead_within {want : Int} (hn : n < 16) (h1 : -32 ≤ want) (h2 : want ≤ 32) :
    exec (.oscTrackRead t n want) s = .next { s with
      chip := (s.chip.at t).corrected n want } := by
  have same : clampInt (-32) 32 want = want := by unfold clampInt; split <;> omega
  rw [exec_oscTrackRead t want hn, same, if_pos (by simp)]

theorem exec_oscTrackRead_limited {want v : Int} (hn : n < 16) (hv : clampInt (-32) 32 want = v) (h : v ≠ want) :
    exec (.oscTrackRead t n want) s = .next { s with
      chip := ((s.chip.at t).corrected n v).event 0xD006 .room [.val 1 n, .val 2 (twosOf 16 v)] } := by
  rw [exec_oscTrackRead t want hn, hv, if_neg (by simpa using h)]

end

theorem Chip.corrected_sfld (c : Chip) (n : Nat) {v : Int} (h1 : -32 ≤ v) (h2 : v ≤ 32) : (c.corrected n v).sfld (R.dmcOsc n) 8 0 = v := by
  rw [Chip.sfld, Chip.corrected, Chip.setFld_fld_same _ _ _ _ _ (by omega)]
  unfold signedOf twosOf
  norm_num
  split <;> omega

/-! ### Scrubs (R378, R380) -/

/-- A scrub read of channel `n` is counted. -/
def Chip.countScrub (c : Chip) (n : Nat) : Chip := c.setNat (R.dmcChCnt n 4) ((c.reg (R.dmcChCnt n 4)).toNat + 1)

/-- The start of the pass that channel `n`'s scrubber is in. -/
def Chip.passStart (c : Chip) (n : Nat) : Stamp := if (c.chan n).scrubbed == 0 then c.clk else (c.chan n).scrubStart

/-- How long the pass has taken, in ns. -/
def Chip.passSpent (c : Chip) (n : Nat) : Nat := (stampGap c.clk (c.passStart n)).toNat

/-- The pass has taken more than the limit (twice its period), which has not been told. -/
def Chip.passLate (c : Chip) (n limit : Nat) : Bool := decide (limit < c.passSpent n) && !(c.chan n).scrubTold

/-- A late pass is told. -/
def Chip.tellPass (c : Chip) (n limit hour : Nat) : Chip :=
  if c.passLate n limit then c.event 0xD008 .room [.val 1 n, .val 4 (c.passSpent n / hour)] else c

/-- The pass moves on by one burst. -/
def Chan.moveOn (last : Bool) (start : Stamp) (late : Bool) (h : Chan) : Chan :=
  { h with scrubbed := if last then 0 else h.scrubbed + 1, scrubStart := start, scrubTold := !last && (h.scrubTold || late) }

/-- Channel `n`'s pass, of which `done` bursts were read, moves on; the last burst ends it. -/
def Chip.movePass (c : Chip) (n done : Nat) (start : Stamp) (late : Bool) : Chip :=
  let last := decide (c.channelBursts ≤ done + 1)
  c.modChan n (Chan.moveOn last start late)

/-- The scrubber's read has been answered. -/
def Chip.scrubOn (c : Chip) (n limit hour : Nat) : Chip :=
  let h := c.chan n
  let start := if h.scrubbed == 0 then c.clk else h.scrubStart
  let spent := (stampGap c.clk start).toNat
  let late := decide (limit < spent) && !h.scrubTold
  let c := if late then c.event 0xD008 .room [.val 1 n, .val 4 (spent / hour)] else c
  let last := decide (c.channelBursts ≤ h.scrubbed + 1)
  c.modChan n (fun h => { h with
    scrubbed := if last then 0 else h.scrubbed + 1, scrubStart := start, scrubTold := !last && (h.scrubTold || late) })

theorem Chip.scrubOn_eq (c : Chip) (n limit hour : Nat) : c.scrubOn n limit hour =
    (c.tellPass n limit hour).movePass n (c.chan n).scrubbed (c.passStart n) (c.passLate n limit) := rfl

section
variable {s : State} (t : Stamp) {n ofs ecc : Nat}

theorem exec_scrubRead (hn : n < 16) (he : ecc < 3) (on : s.chip.bit R.dmcCfg 30 = true) (hours : 0 < s.chip.fld R.dmcScrub 15 0)
    (here : s.chip.channelOf ofs = n) (inside : ofs < s.chip.dramUsable) : exec (.scrubRead t n ofs ecc) s = .next { s with
      chip := (((s.chip.at t).countScrub n).eccRead n ofs ecc).scrubOn n (2 * s.chip.fld R.dmcScrub 15 0 * 3600 * nsPerS) (3600 * nsPerS) } := by
  rw [show exec (.scrubRead t n ofs ecc) s = execScrubRead t n ofs ecc s from rfl, execScrubRead]
  generalize nsPerS = second
  generalize (3600 : Nat) = k
  rw [runIf_of _ _ _ (by simp [hn, he])]
  refine congrArg (fun c => Host.Outcome.next { s with chip := c }) ((if_neg ?_).trans ?_)
  · have there : (s.chip.at t).channelOf ofs = n := here
    have room : ofs < (s.chip.at t).dramUsable := inside
    simp [on, Nat.pos_iff_ne_zero.mp hours, there, room]
  · rfl

theorem exec_scrubRead_none (hn : n < 16) (he : ecc < 3) (h : s.chip.bit R.dmcCfg 30 = false ∨ s.chip.fld R.dmcScrub 15 0 = 0 ∨
    s.chip.channelOf ofs ≠ n ∨ s.chip.dramUsable ≤ ofs) : exec (.scrubRead t n ofs ecc) s = .next { s with
      chip := s.chip.at t } := by
  rw [show exec (.scrubRead t n ofs ecc) s = execScrubRead t n ofs ecc s from rfl, execScrubRead]
  generalize nsPerS = second
  rw [runIf_of _ _ _ (by simp [hn, he])]
  refine congrArg (fun c => Host.Outcome.next { s with chip := c }) (if_pos ?_)
  have there : (s.chip.at t).channelOf ofs = s.chip.channelOf ofs := rfl
  have room : (s.chip.at t).dramUsable = s.chip.dramUsable := rfl
  rw [there, room]
  rcases h with h | h | h | h <;> simp [h]

end

section
variable (c : Chip) (n limit hour : Nat)

theorem Chip.passStart_congr {c c1 : Chip} {b : Bool} (hc : c1.chan n = { c.chan n with ueSeen := b }) (ht : c1.clk = c.clk) :
    c1.passStart n = c.passStart n := by
  rw [Chip.passStart, hc, ht, Chip.passStart]

theorem Chip.tellPass_mem : (c.tellPass n limit hour).mem = c.mem := by
  unfold Chip.tellPass
  split
  · exact Chip.event_mem _ _ _ _
  · rfl

theorem Chip.tellPass_dram : (c.tellPass n limit hour).dram = c.dram := by
  unfold Chip.tellPass
  split
  · exact Chip.event_dram _ _ _ _
  · rfl

theorem Chip.tellPass_tbw : (c.tellPass n limit hour).tbw = c.tbw := by
  unfold Chip.tellPass
  split
  · exact Chip.event_tbw _ _ _ _
  · rfl

theorem regsSame_tellPass : regsSame eventRegs c.regs (c.tellPass n limit hour).regs := by
  unfold Chip.tellPass
  split
  · exact (regsSame_event_iff (by simp) (by simp) _ _ _).mpr regsSame.refl
  · exact regsSame.refl

theorem Chip.onlyMem_movePass (done : Nat) (start : Stamp) (late : Bool) : c.OnlyMem (c.movePass n done start late) :=
  c.onlyMem_modChan n _

theorem regsSame_movePass (done : Nat) (start : Stamp) (late : Bool) :
    regsSame [R.dmcChStat n] c.regs (c.movePass n done start late).regs := regsSame_modChan c n _

theorem regsSame_scrubOn : regsSame ([R.dmcChStat n] ++ eventRegs) c.regs (c.scrubOn n limit hour).regs := by
  rw [Chip.scrubOn_eq]
  exact ((regsSame_tellPass c n limit hour).mono (fun _ h => List.mem_append_right _ h)).trans
    ((regsSame_movePass _ _ _ _ _).mono (fun _ h => List.mem_append_left _ h))

section
variable (done : Nat) (start : Stamp) (late : Bool)

theorem Chip.movePass_dram : (c.movePass n done start late).dram = c.dram := rfl
theorem Chip.movePass_tbw : (c.movePass n done start late).tbw = c.tbw := rfl
theorem Chip.movePass_evq : (c.movePass n done start late).evq = c.evq := rfl

end

theorem Chip.scrubOn_dram : (c.scrubOn n limit hour).dram = c.dram := by
  rw [Chip.scrubOn_eq, Chip.movePass_dram, Chip.tellPass_dram]

theorem Chip.scrubOn_tbw : (c.scrubOn n limit hour).tbw = c.tbw := by
  rw [Chip.scrubOn_eq, Chip.movePass_tbw, Chip.tellPass_tbw]

theorem Chip.scrubOn_evq : (c.scrubOn n limit hour).evq = (c.tellPass n limit hour).evq := by
  rw [Chip.scrubOn_eq, Chip.movePass_evq]

theorem Chip.dramUsable_congr {c c1 : Chip} (h : c1.reg R.dmcCfg = c.reg R.dmcCfg) : c1.dramUsable = c.dramUsable := by
  unfold Chip.dramUsable Chip.dramCap Chip.bit
  rw [Chip.fld_of_reg h, Chip.fld_of_reg h]

theorem Chip.scrubOn_chan : (c.scrubOn n limit hour).chan n = Chan.moveOn (decide (c.channelBursts ≤ (c.chan n).scrubbed + 1))
    (c.passStart n) (c.passLate n limit) (c.chan n) := by
  have size : (c.tellPass n limit hour).channelBursts = c.channelBursts := by
    unfold Chip.channelBursts
    rw [Chip.dramUsable_congr ((regsSame_tellPass c n limit hour).reg (by simp [R.dmcCfg, R.evjStat, R.evjCnt]))]
  rw [Chip.scrubOn_eq, Chip.movePass, size, Chip.chan_modChan_same,
    Chip.chan_of_chans (c := c) (congrArg (·.chans) (c.tellPass_mem n limit hour))]

theorem Chip.scrubOn_chan_other {k : Nat} (hk : k ≠ n) : (c.scrubOn n limit hour).chan k = c.chan k := by
  rw [Chip.scrubOn_eq, Chip.movePass, Chip.chan_modChan_other _ _ _ hk,
    Chip.chan_of_chans (c := c) (congrArg (·.chans) (c.tellPass_mem n limit hour))]

end

end Sys2Proof.Machine

/-! ### Holds and budgets (R386, R388) -/

namespace Sys2Proof.Machine

section
variable {s : State} (t : Stamp)

/-- A hold since `since` is told, with its length in the unit `us` and what `DMC_GSTAT` shows. -/
def Chip.tellHold (c : Chip) (since : Stamp) (us : Nat) : Chip :=
  c.eventLimited 0 0xD004 .room [.val 4 ((stampGap c.clk since).toNat / us), .val 4 (c.reg R.dmcGstat).toNat]

theorem exec_holdTimeout_told {since : Stamp} (h : s.chip.mem.holdSince = some since) (long : (nsPerMs : Int) < stampGap t since) :
    exec (.holdTimeout t) s = .next { s with
      chip := (s.chip.at t).tellHold since nsPerUs } := by
  rw [show exec (.holdTimeout t) s = execHoldTimeout t s from rfl, execHoldTimeout]
  generalize nsPerUs = us
  generalize nsPerMs = ms at *
  rw [runIf_of _ _ _ rfl]
  have held : (s.chip.at t).mem.holdSince = some since := h
  simp only [held]
  rw [if_pos (decide_eq_true (show (ms : Int) < stampGap (s.chip.at t).clk since from long))]
  rfl

theorem exec_holdTimeout_none (h : s.chip.mem.holdSince.all (fun since => decide (stampGap t since ≤ nsPerMs)) = true) :
    exec (.holdTimeout t) s = .next { s with
      chip := s.chip.at t } := by
  rw [show exec (.holdTimeout t) s = execHoldTimeout t s from rfl, execHoldTimeout]
  generalize nsPerUs = us
  generalize nsPerMs = ms at *
  rw [runIf_of _ _ _ rfl]
  rcases held : (s.chip.at t).mem.holdSince with _ | since
  · simp only [held]
  · have early : ¬ (ms : Int) < stampGap (s.chip.at t).clk since := by
      rw [show s.chip.mem.holdSince = some since from held] at h
      rw [Option.all_some, decide_eq_true_iff] at h
      exact not_lt.mpr h
    simp only [held]
    rw [if_neg (fun late => early (of_decide_eq_true late))]

/-- Group `g`, whose regulator stands at `r`, has told that it is out of budget. -/
def Chip.tellBudget (c : Chip) (g : Nat) (r : Regulator) (now : Stamp) : Chip :=
  let c := c.event 0xD003 .room [.val 1 g, .val 4 r.excess]
  { c with mem := { c.mem with regs := mapPut regDefault c.mem.regs g { r with told := some now } } }

/-- A condition holds of a stamp, where there is one. -/
def holdsOfAny (p : Stamp → Bool) (told : Option Stamp) : Bool :=
  match told with
  | some l => p l
  | none => true

theorem holdsOfAny_eq (p : Stamp → Bool) (told : Option Stamp) : holdsOfAny p told = told.all p := by cases told <;> rfl

/-- It is time to tell group `g`'s regulator's lack of budget. -/
def Regulator.tells (r : Regulator) (t : Stamp) (ms second : Nat) : Bool :=
  decide (1000 ≤ r.run) && decide (t / ms ≤ r.lastMs + 1) && holdsOfAny (fun l => elapsed t l second) r.told

theorem Regulator.tells_iff (r : Regulator) (ms second : Nat) : r.tells t ms second = true ↔
    1000 ≤ r.run ∧ t / ms ≤ r.lastMs + 1 ∧ r.told.all (fun l => elapsed t l second) = true := by
  rw [Regulator.tells, Bool.and_eq_true, Bool.and_eq_true, decide_eq_true_iff, decide_eq_true_iff, and_assoc, holdsOfAny_eq]

variable {g : Nat}

theorem exec_budgetOverrun (hg : g < 10) : exec (.budgetOverrun t g) s = .next { s with
      chip := if (mapGet regDefault s.chip.mem.regs g).tells t nsPerMs nsPerS
        then (s.chip.at t).tellBudget g (mapGet regDefault s.chip.mem.regs g) t else s.chip.at t } := by
  rw [show exec (.budgetOverrun t g) s = execBudgetOverrun t g s from rfl, execBudgetOverrun]
  generalize nsPerS = second
  generalize nsPerMs = ms
  rw [runIf_of _ _ _ (decide_eq_true hg)]
  rfl

end

section
variable (c : Chip) (g : Nat) (r : Regulator) (now : Stamp)

theorem regsSame_tellBudget : regsSame eventRegs c.regs (c.tellBudget g r now).regs :=
  (regsSame_event_iff (c := c) (by simp) (by simp) _ _ _).mpr regsSame.refl

theorem Chip.tellBudget_dram : (c.tellBudget g r now).dram = c.dram := Chip.event_dram _ _ _ _

theorem Chip.tellBudget_tbw : (c.tellBudget g r now).tbw = c.tbw := Chip.event_tbw _ _ _ _

theorem Chip.tellBudget_regs : (c.tellBudget g r now).mem.regs = mapPut regDefault c.mem.regs g { r with told := some now } := by
  simp [Chip.tellBudget]

theorem Chip.tellBudget_raises : c.raises (c.tellBudget g r now) [⟨0xD003, .room, c.clk, [.val 1 g, .val 4 r.excess]⟩] :=
  Chip.raises_event_of_evq rfl rfl _ _ _

end

section
variable (c : Chip) (u code : Nat) (p : FaultAddr) (f : List CField)

theorem Chip.eventLimited_writesOnly : c.writesOnly (c.eventLimited u code p f) eventRegs :=
  Chip.writesOnly_of ((regsSame_eventLimited_iff (by simp) (by simp) _ _ _ _).mpr regsSame.refl) (Chip.eventLimited_dram _ _ _ _ _)
    (Chip.eventLimited_tbw _ _ _ _ _)

end

theorem Chip.eventLimited_waits {c : Chip} {u code : Nat} (p : FaultAddr) (f : List CField) (h : c.tellsNow u code = false) :
    (mapGet rateDefault (c.eventLimited u code p f).rate (rateKey code u)).count =
      (mapGet rateDefault c.rate (rateKey code u)).count + 1 ∧ c.raises (c.eventLimited u code p f) [] := by
  rw [Chip.eventLimited_counted p f h]
  exact ⟨congrArg RateWin.count (mapGet_put_same rateDefault c.rate (rateKey code u) _), Chip.raises_of_evq rfl⟩

/-! ### What a scrub read counts and finds -/

section
variable (c : Chip) (n ofs ecc limit hour : Nat)

/-- Channel `n`'s scrubber has read the burst at `ofs`. -/
def Chip.scrubbed (c : Chip) (n ofs ecc limit hour : Nat) : Chip := ((c.countScrub n).eccRead n ofs ecc).scrubOn n limit hour

/-- The registers that a scrub read of channel `n` writes. -/
def scrubRegs (n : Nat) : List Nat := R.dmcChCnt n 4 :: (errorRegs n ++ eventRegs)

theorem Chip.countScrub_reg {a : Nat} (h : a ≠ R.dmcChCnt n 4) : (c.countScrub n).reg a = c.reg a := Chip.setNat_reg_other _ _ h

theorem Chip.countScrub_flagged : (c.countScrub n).flagged ofs ecc = c.flagged ofs ecc := by
  have cfg : (c.countScrub n).bit R.dmcCfg 30 = c.bit R.dmcCfg 30 :=
    Chip.bit_of_reg (c.countScrub_reg n (by unfold R.dmcCfg R.dmcChCnt; omega)) 30
  rw [Chip.flagged, Chip.flagged, cfg]
  rfl

theorem regsSame_foundScrub : regsSame (scrubRegs n) c.regs ((c.countScrub n).eccRead n ofs ecc).regs :=
  ((regsSame_setNat_iff (by simp [scrubRegs]) _).mpr regsSame.refl).trans
    ((regsSame_eccRead _ n ofs ecc).mono (fun _ h => List.mem_cons_of_mem _ h))

theorem Chip.scrubbed_writesOnly : c.writesOnly (c.scrubbed n ofs ecc limit hour) (scrubRegs n) := by
  refine Chip.writesOnly_of ((regsSame_foundScrub c n ofs ecc).trans ((regsSame_scrubOn _ n limit hour).mono ?_)) ?_ ?_
  · intro a h
    simp only [List.mem_append, List.mem_singleton] at h
    rcases h with h | h
    · simp [scrubRegs, errorRegs, h]
    · exact List.mem_cons_of_mem _ (List.mem_append_right _ h)
  · rw [Chip.scrubbed, Chip.scrubOn_dram, Chip.eccRead_dram]
    rfl
  · rw [Chip.scrubbed, Chip.scrubOn_tbw, Chip.eccRead_tbw]
    rfl

/-- The pass of a channel, of which a burst has been read, has moved on. -/
theorem Chip.scrubbed_chan (hn : n < 16) : ∃ b, (c.scrubbed n ofs ecc limit hour).chan n =
    Chan.moveOn (decide (c.channelBursts ≤ (c.chan n).scrubbed + 1)) (((c.countScrub n).eccRead n ofs ecc).passStart n)
      (((c.countScrub n).eccRead n ofs ecc).passLate n limit) { c.chan n with ueSeen := b } := by
  obtain ⟨b, hb⟩ := (c.countScrub n).eccRead_chan n ofs ecc
  have size : ((c.countScrub n).eccRead n ofs ecc).channelBursts = c.channelBursts := by
    unfold Chip.channelBursts
    rw [Chip.dramUsable_congr ((regsSame_foundScrub c n ofs ecc).reg ?_)]
    simp only [scrubRegs, errorRegs, R.dmcCfg, R.dmcChCnt, R.dmcChStat, R.dmcEccAddrLo, R.dmcEccAddrHi, List.mem_cons, List.mem_append,
      mem_eventRegs, R.evjStat, R.evjCnt, List.not_mem_nil, or_false]
    omega
  refine ⟨b, ?_⟩
  rw [Chip.scrubbed, Chip.scrubOn_chan, hb, size]
  rfl

theorem Chip.scrubbed_chan_other {k : Nat} (hk : k ≠ n) : (c.scrubbed n ofs ecc limit hour).chan k = c.chan k := by
  rw [Chip.scrubbed, Chip.scrubOn_chan_other _ _ _ _ hk, Chip.eccRead_chan_other _ _ _ _ hk]
  rfl

theorem Chip.scrubbed_cnt {i : Nat} : (c.scrubbed n ofs ecc limit hour).reg (R.dmcChCnt n i) =
    ((c.countScrub n).eccRead n ofs ecc).reg (R.dmcChCnt n i) := by
  refine (regsSame_scrubOn _ n limit hour).reg ?_
  simp only [List.mem_append, List.mem_singleton, mem_eventRegs, R.dmcChCnt, R.dmcChStat, R.evjStat, R.evjCnt]
  omega

/-- The four counts of a scrub read. -/
theorem Chip.scrubbed_counts (on : c.bit R.dmcCfg 30 = true) :
    (c.scrubbed n ofs ecc limit hour).reg (R.dmcChCnt n 4) = c.reg (R.dmcChCnt n 4) + 1 ∧
    (c.scrubbed n ofs ecc limit hour).reg (R.dmcChCnt n 0) = (if ecc = 1 ∧ c.flagged ofs ecc = false then c.bump (R.dmcChCnt n 0)
      else c).reg (R.dmcChCnt n 0) ∧
    (c.scrubbed n ofs ecc limit hour).reg (R.dmcChCnt n 1) = (if c.flagged ofs ecc = true then c.bump (R.dmcChCnt n 1)
      else c).reg (R.dmcChCnt n 1) := by
  have cfg : (c.countScrub n).bit R.dmcCfg 30 = true :=
    (Chip.bit_of_reg (c.countScrub_reg n (by unfold R.dmcCfg R.dmcChCnt; omega)) 30).trans on
  have kept : ∀ i < 4, ((c.countScrub n).reg (R.dmcChCnt n i) = c.reg (R.dmcChCnt n i)) :=
    fun i hi => c.countScrub_reg n (by unfold R.dmcChCnt; omega)
  refine ⟨?_, ?_, ?_⟩
  · rw [Chip.scrubbed_cnt, Chip.eccRead_cnt _ _ _ _ (by omega), if_neg (by omega), Chip.countScrub, Chip.setNat_reg_same]
    exact BitVec.eq_of_toNat_eq (by simp)
  · rw [Chip.scrubbed_cnt, Chip.eccRead_cnt _ _ _ _ (by omega), Chip.countScrub_flagged, cfg]
    by_cases h : ecc = 1 ∧ c.flagged ofs ecc = false
    · rw [if_pos (.inr ⟨rfl, h.2, h.1, .inl rfl⟩), if_pos h]
      exact Chip.bump_reg_congr (kept 0 (by omega))
    · rw [if_neg (by rintro (⟨-, e⟩ | ⟨-, good, one, -⟩); exacts [absurd e (by decide), h ⟨one, good⟩]), if_neg h]
      exact kept 0 (by omega)
  · rw [Chip.scrubbed_cnt, Chip.eccRead_cnt _ _ _ _ (by omega), Chip.countScrub_flagged]
    by_cases h : c.flagged ofs ecc = true
    · rw [if_pos (.inl ⟨h, rfl⟩), if_pos h]
      exact Chip.bump_reg_congr (kept 1 (by omega))
    · rw [if_neg (by rintro (⟨e, -⟩ | ⟨-, -, -, e | ⟨e, -⟩⟩); exacts [h e, absurd e (by decide), absurd e (by decide)]), if_neg h]
      exact kept 1 (by omega)

/-- A scrub read that finds nothing tells a pass that is late. -/
theorem Chip.scrubbed_clean (good : c.mem.poison.contains (ofs / 64) = false) : c.scrubbed n ofs 0 limit hour = (c.countScrub n).scrubOn n limit hour := by
  rw [Chip.scrubbed, Chip.eccRead_clean]
  by_cases on : (c.countScrub n).bit R.dmcCfg 30 = true
  · refine .inr ⟨?_, by decide⟩
    rw [Chip.flagged, on]
    have same : (c.countScrub n).mem.poison = c.mem.poison := rfl
    rw [same, good]
    rfl
  · exact .inl (by simpa using on)

end

/-- A late pass is told. -/
theorem Chip.tellPass_raises (c : Chip) (n limit hour : Nat) : c.raises (c.tellPass n limit hour)
    (if (c.chan n).scrubTold = false ∧ limit < c.passSpent n then [⟨0xD008, .room, c.clk, [.val 1 n, .val 4 (c.passSpent n / hour)]⟩] else []) := by
  by_cases h : (c.chan n).scrubTold = false ∧ limit < c.passSpent n
  · have late : c.passLate n limit = true := by
      rw [Chip.passLate, h.1, decide_eq_true h.2]
      rfl
    rw [if_pos h, Chip.tellPass, if_pos late]
    exact Chip.raises_event_of_evq rfl rfl _ _ _
  · have early : ¬ c.passLate n limit = true := by
      rw [Chip.passLate, Bool.and_eq_true, decide_eq_true_iff, Bool.not_eq_true']
      exact fun e => h ⟨e.2, e.1⟩
    rw [if_neg h, Chip.tellPass, if_neg early]
    exact Chip.raises_of_evq rfl

/-! ### The obligation -/

theorem Chip.modChan_writesOnly (c : Chip) (t : Stamp) (n : Nat) (f : Chan → Chan) : c.writesOnly ((c.at t).modChan n f) [R.dmcChStat n] :=
  Chip.writesOnly_of (regsSame_modChan (c.at t) n f) rfl rfl

theorem at_ite_reg (c : Chip) (t : Stamp) (a : Nat) (P : Prop) [Decidable P] :
    (if P then (c.at t).bump a else c.at t).reg a = (if P then c.bump a else c).reg a := by split <;> rfl

/-- A limited correction of channel `n`'s oscillators is told. -/
theorem limited_says (c : Chip) (t : Stamp) (n : Nat) {v : Int} (w : Nat) (h1 : -32 ≤ v) (h2 : v ≤ 32) {c1 : Chip}
    (h : c1 = ((c.at t).corrected n v).event 0xD006 .room [.val 1 n, .val 2 w]) : c1.sfld (R.dmcOsc n) 8 0 = v ∧
    c.writesOnly c1 ([R.dmcOsc n] ++ eventRegs) ∧ c.raises c1 [⟨0xD006, .room, t, [.val 1 n, .val 2 w]⟩] := by
  subst h
  refine ⟨?_, Chip.writesOnly_of ?_ (Chip.event_dram _ _ _ _) (Chip.event_tbw _ _ _ _), Chip.raises_event_of_evq rfl rfl _ _ _⟩
  · have same := Chip.event_reg ((c.at t).corrected n v) 0xD006 .room [.val 1 n, .val 2 w] (b := R.dmcOsc n)
      (by unfold R.dmcOsc R.evjStat; omega) (by unfold R.dmcOsc R.evjCnt; omega)
    rw [Chip.sfld, Chip.fld_of_reg same, ← Chip.sfld]
    exact Chip.corrected_sfld _ n h1 h2
  · rw [regsSame_event_iff (by simp) (by simp), Chip.corrected, regsSame_setFld_iff (by simp)]
    exact regsSame.refl

section
variable (c : Chip) (t start : Stamp) (n ofs ecc limit hour : Nat)

theorem scrub_says (hn : n < 16) (on : c.bit R.dmcCfg 30 = true) {c1 : Chip} (h1 : c1 = (c.at t).scrubbed n ofs ecc limit hour) :
    c1.reg (R.dmcChCnt n 4) = c.reg (R.dmcChCnt n 4) + 1 ∧
    (c1.chan n).scrubbed = (if c.channelBursts ≤ (c.chan n).scrubbed + 1 then 0 else (c.chan n).scrubbed + 1) ∧
    (c1.chan n).queue = (c.chan n).queue ∧ (∀ k, k < 16 → k ≠ n → c1.chan k = c.chan k) ∧
    c1.reg (R.dmcChCnt n 0) = (if ecc = 1 ∧ c.flagged ofs ecc = false then c.bump (R.dmcChCnt n 0) else c).reg (R.dmcChCnt n 0) ∧
    c1.reg (R.dmcChCnt n 1) = (if c.flagged ofs ecc = true then c.bump (R.dmcChCnt n 1) else c).reg (R.dmcChCnt n 1) ∧
    c.writesOnly c1 ([R.dmcChStat n, R.dmcEccAddrLo n, R.dmcEccAddrHi n, R.dmcChCnt n 0, R.dmcChCnt n 1, R.dmcChCnt n 3,
      R.dmcChCnt n 4] ++ eventRegs) := by
  subst h1
  obtain ⟨four, zero, one⟩ := (c.at t).scrubbed_counts n ofs ecc limit hour on
  obtain ⟨b, chan⟩ := (c.at t).scrubbed_chan n ofs ecc limit hour hn
  refine ⟨four, ?_, (congrArg Chan.queue chan :), fun k _ hk => (c.at t).scrubbed_chan_other n ofs ecc limit hour hk,
    zero.trans (at_ite_reg _ _ _ _), one.trans (at_ite_reg _ _ _ _),
    ((c.at t).scrubbed_writesOnly n ofs ecc limit hour).mono (fun a h => ?_)⟩
  · rw [chan, Chan.moveOn]
    simp only [decide_eq_true_eq]
    rfl
  · simp only [scrubRegs, errorRegs, List.mem_cons, List.mem_append, List.not_mem_nil, or_false] at h ⊢
    rcases h with h | (h | h | h | h | h | h) | h <;> simp only [h, true_or, or_true]

theorem lateScrub_says (good : c.mem.poison.contains (ofs / 64) = false)
    (hstart : start = (if (c.chan n).scrubbed = 0 then t else (c.chan n).scrubStart)) :
    c.raises ((c.at t).scrubbed n ofs 0 limit hour) (if (c.chan n).scrubTold = false ∧ limit < (stampGap t start).toNat
      then [⟨0xD008, .room, t, [.val 1 n, .val 4 ((stampGap t start).toNat / hour)]⟩] else []) ∧
    c.writesOnly ((c.at t).scrubbed n ofs 0 limit hour) ([R.dmcChCnt n 4, R.dmcChStat n] ++ eventRegs) := by
  have spent : ((c.at t).countScrub n).passSpent n = (stampGap t start).toNat := by
    have pass : ((c.at t).countScrub n).passStart n = start := by
      simp only [hstart, Chip.passStart, beq_iff_eq]
      rfl
    rw [Chip.passSpent, pass]
    rfl
  rw [Chip.scrubbed_clean (c.at t) n ofs limit hour good]
  constructor
  · have told := ((c.at t).countScrub n).tellPass_raises n limit hour
    rw [spent] at told
    exact told.trans_evq (Chip.scrubOn_evq _ _ _ _)
  · refine Chip.writesOnly_of (((regsSame_setNat_iff (c := c.at t) (by simp) _).mpr regsSame.refl).trans
      ((regsSame_scrubOn _ n limit hour).mono (fun a h => ?_))) (Chip.scrubOn_dram _ _ _ _) (Chip.scrubOn_tbw _ _ _ _)
    exact List.mem_cons_of_mem _ h

end

section
variable (c : Chip) (t since : Stamp) (us : Nat)

/-- What a hold of that length tells. -/
def Chip.holdEvent (c : Chip) (t since : Stamp) (us : Nat) : Ev :=
  ⟨0xD004, .room, t, [.val 4 ((stampGap t since).toNat / us), .val 4 (c.reg R.dmcGstat).toNat]⟩

theorem Chip.tellHold_writesOnly : c.writesOnly ((c.at t).tellHold since us) eventRegs := Chip.eventLimited_writesOnly (c.at t) _ _ _ _

theorem Chip.tellHold_mem : ((c.at t).tellHold since us).mem = c.mem := Chip.eventLimited_mem _ _ _ _ _

theorem Chip.tellHold_told (h : (c.at t).tellsNow 0 0xD004 = true) : c.raises ((c.at t).tellHold since us) [c.holdEvent t since us] :=
  Chip.eventLimited_told (c := c.at t) _ _ h

theorem Chip.tellHold_waits (h : (c.at t).tellsNow 0 0xD004 = false) :
    (mapGet rateDefault ((c.at t).tellHold since us).rate (rateKey 0xD004 0)).count =
      (mapGet rateDefault c.rate (rateKey 0xD004 0)).count + 1 ∧ c.raises ((c.at t).tellHold since us) [] :=
  Chip.eventLimited_waits (c := c.at t) _ _ h

theorem heldFirst_says (none : (mapGet rateDefault c.rate (rateKey 0xD004 0)).last = none) :
    c.writesOnly ((c.at t).tellHold since us) eventRegs ∧ ((c.at t).tellHold since us).mem = c.mem ∧
    c.raises ((c.at t).tellHold since us) [⟨0xD004, .room, t, [.val 4 ((stampGap t since).toNat / us), .val 4 (c.reg R.dmcGstat).toNat]⟩] := by
  refine ⟨c.tellHold_writesOnly t since us, c.tellHold_mem t since us, c.tellHold_told t since us ?_⟩
  rw [Chip.tellsNow, show (c.at t).rate = c.rate from rfl, none]

theorem Chip.tellsNow_since {last : Stamp} (told : (mapGet rateDefault c.rate (rateKey 0xD004 0)).last = some last) :
    (c.at t).tellsNow 0 0xD004 = (elapsed t last nsPerS && (mapGet rateDefault c.rate (rateKey 0xD004 0)).count == 0) := by
  rw [Chip.tellsNow, show (c.at t).rate = c.rate from rfl, told]
  generalize nsPerS = second
  rfl

theorem heldAgain_says (last : Stamp) (told : (mapGet rateDefault c.rate (rateKey 0xD004 0)).last = some last) :
    c.writesOnly ((c.at t).tellHold since us) eventRegs ∧ ((c.at t).tellHold since us).mem = c.mem ∧
    (elapsed t last nsPerS = true → (mapGet rateDefault c.rate (rateKey 0xD004 0)).count = 0 →
      c.raises ((c.at t).tellHold since us) [⟨0xD004, .room, t, [.val 4 ((stampGap t since).toNat / us), .val 4 (c.reg R.dmcGstat).toNat]⟩]) ∧
    (elapsed t last nsPerS = false → (mapGet rateDefault ((c.at t).tellHold since us).rate (rateKey 0xD004 0)).count =
      (mapGet rateDefault c.rate (rateKey 0xD004 0)).count + 1 ∧ c.raises ((c.at t).tellHold since us) []) := by
  have rate := c.tellsNow_since t told
  refine ⟨c.tellHold_writesOnly t since us, c.tellHold_mem t since us, fun done zero => c.tellHold_told t since us ?_,
    fun within => c.tellHold_waits t since us ?_⟩
  · rw [rate, done, zero]
    rfl
  · rw [rate, within]
    rfl

end

theorem nsPerMs_int : ((nsPerMs : Nat) : Int) = 1000000 := rfl

/-- Settles O53: refresh, temperature, oscillators, scrubs, holds and budgets each by what their command does. -/
theorem channelsScrubsAndHoldsAreKept : Obligations.ChannelsScrubsAndHoldsAreKept := by
  unfold Obligations.ChannelsScrubsAndHoldsAreKept
  refine ⟨?_, ?_, ?_, ?_, ?_, ?_, ?_, ?_, ?_, ?_, ?_, ?_, ?_, ?_, ?_⟩
  · intro s t n bank hn hb h
    refine answers_exec (exec_refreshDue_now t hn hb h) ?_
    have chan := (s.chip.at t).chan_modChan_same n (Chan.refresh bank)
    refine ⟨?_, ?_, fun b _ other => ⟨?_, ?_⟩, ?_, fun k _ hk => Chip.chan_modChan_other _ _ _ hk, Chip.modChan_writesOnly _ _ _ _,
      Chip.raises_of_evq rfl⟩ <;> rw [chan]
    · exact mapGet_put_same _ (s.chip.chan n).rows bank 0
    · exact mapGet_put_same _ (s.chip.chan n).postponed bank 0
    · exact mapGet_put_other _ (s.chip.chan n).rows 0 other
    · exact mapGet_put_other _ (s.chip.chan n).postponed 0 other
    · rfl
  · intro s t n bank hn hb h late
    refine answers_exec (exec_refreshDue_late t hn hb h late) ?_
    have chan := (s.chip.at t).chan_modChan_same n (Chan.postpone bank)
    refine ⟨?_, ?_, ?_, fun k _ hk => Chip.chan_modChan_other _ _ _ hk, Chip.modChan_writesOnly _ _ _ _, Chip.raises_of_evq rfl⟩ <;> rw [chan]
    · exact mapGet_put_same _ (s.chip.chan n).postponed bank (mapGet (fun _ => 0) (s.chip.chan n).postponed bank + 1)
    · rfl
    · rfl
  · intro s t n code hn hc h
    refine answers_exec (exec_mr4Poll_changed t hn hc h) ?_
    have same := Chip.event_reg ((s.chip.at t).setFld (R.dmcChStat n) 28 24 code) 0xD005 .room [.val 1 n, .val 1 code] (b := R.dmcChStat n)
      (by unfold R.dmcChStat R.evjStat; omega) (by unfold R.dmcChStat R.evjCnt; omega)
    refine ⟨?_, Chip.event_mem _ _ _ _, ?_, ?_, Chip.writesOnly_of ?_ (Chip.event_dram _ _ _ _) (Chip.event_tbw _ _ _ _),
      Chip.raises_event_of_evq rfl rfl _ _ _⟩
    · rw [Chip.fld_of_reg same, Chip.setFld_fld_same _ _ _ _ _ (by omega)]
      exact Nat.mod_eq_of_lt hc
    · rw [Chip.fld_of_reg same]
      exact Chip.setFld_fld_ne _ (by omega) (by omega)
    · rw [Chip.fld_of_reg same]
      exact Chip.setFld_fld_ne _ (by omega) (by omega)
    · rw [regsSame_event_iff (by simp) (by simp), regsSame_setFld_iff (by simp)]
      exact regsSame.refl
  · intro s t n hn
    exact exec_mr4Poll_same t hn
  · intro s t n want hn h1 h2
    refine answers_exec (exec_oscTrackRead_within t hn h1 h2) ?_
    exact ⟨Chip.corrected_sfld _ n h1 h2, rfl, Chip.setFld_fld_ne _ (by omega) (by omega),
      Chip.writesOnly_of ((regsSame_setFld_iff (by simp) _ _ _).mpr regsSame.refl) rfl rfl, Chip.raises_of_evq rfl⟩
  · intro s t n want hn h
    have v : clampInt (-32) 32 want = 32 := by unfold clampInt; rw [if_neg (by omega), if_pos h]
    exact answers_exec (exec_oscTrackRead_limited t hn v (by omega)) (limited_says s.chip t n 32 (by omega) (by omega) rfl)
  · intro s t n want hn h
    have v : clampInt (-32) 32 want = -32 := by unfold clampInt; rw [if_pos h]
    exact answers_exec (exec_oscTrackRead_limited t hn v (by omega)) (limited_says s.chip t n 0xFFE0 (by omega) (by omega) rfl)
  · intro s t n ofs ecc hn he on hours here inside
    refine answers_exec (exec_scrubRead t hn he on hours here inside) ?_
    exact scrub_says s.chip t n ofs ecc _ _ hn on rfl
  · intro s t start n ofs hn on hours here inside good hstart
    refine answers_exec (exec_scrubRead t hn (by decide) on hours here inside) ?_
    exact lateScrub_says s.chip t start n ofs _ _ good hstart
  · intro s t n ofs ecc hn he h
    exact exec_scrubRead_none t hn he h
  · intro s t since held long none
    exact answers_exec (exec_holdTimeout_told t held (nsPerMs_int ▸ long)) (heldFirst_says s.chip t since 1000 none)
  · intro s t since last held long told
    exact answers_exec (exec_holdTimeout_told t held (nsPerMs_int ▸ long)) (heldAgain_says s.chip t since 1000 last told)
  · intro s t h
    exact exec_holdTimeout_none t (nsPerMs_int ▸ h)
  · intro s t g r hg hr run ms again
    have tells : r.tells t nsPerMs nsPerS = true := (r.tells_iff t nsPerMs nsPerS).mpr ⟨run, ms, again⟩
    refine answers_exec ((exec_budgetOverrun t hg).trans (by rw [← hr, if_pos tells])) ?_
    have regs := (s.chip.at t).tellBudget_regs g r t
    refine ⟨Chip.writesOnly_of (regsSame_tellBudget (s.chip.at t) g r t) ((s.chip.at t).tellBudget_dram g r t)
      ((s.chip.at t).tellBudget_tbw g r t), ?_, fun k _ hk => ?_, (s.chip.at t).tellBudget_raises g r t⟩
    · rw [regs]
      exact mapGet_put_same _ _ _ _
    · rw [regs]
      exact mapGet_put_other _ _ _ hk
  · intro s t g r hg hr h
    have silent : ¬ r.tells t nsPerMs nsPerS = true := by
      rw [r.tells_iff]
      rintro ⟨run, ms, again⟩
      rcases h with h | h | h
      · omega
      · exact absurd ms (Nat.not_le.mpr h)
      · rw [again] at h
        exact absurd h (by decide)
    exact (exec_budgetOverrun t hg).trans (by rw [← hr, if_neg silent])

end Sys2Proof.Machine

/-! ## Channel queues, places and buses (R371 to R374, R379) -/

namespace Sys2Proof.Machine

/-! ### Lists -/

theorem filter_erase_of_not {α : Type} [DecidableEq α] (p : α → Bool) {x : α} (hx : p x = false) (l : List α) :
    (l.erase x).filter p = l.filter p := by
  induction l with
  | nil => rfl
  | cons y l ih =>
    by_cases h : y = x
    · rw [h, List.erase_cons_head, List.filter_cons_of_neg (by simp [hx])]
    · rw [List.erase_cons_tail (by simpa using h), List.filter_cons, List.filter_cons, ih]

/-- What R372 chooses is one of the list. -/
theorem Chip.choose_mem {c : Chip} {n : Nat} {l : List Txn} {x : Txn} (h : c.choose n l = some x) : x ∈ l := by
  induction l generalizing x with
  | nil => exact absurd h (by simp [Chip.choose])
  | cons a rest ih =>
    rw [Chip.choose] at h
    rcases hb : c.choose n rest with _ | b
    · rw [hb] at h
      exact (Option.some.inj h) ▸ List.mem_cons_self
    · rw [hb] at h
      dsimp only at h
      split at h
      · exact (Option.some.inj h) ▸ List.mem_cons_of_mem _ (ih hb)
      · exact (Option.some.inj h) ▸ List.mem_cons_self

theorem Chip.readyOf_kind {c : Chip} {n : Nat} {w : Bool} {x : Txn} (h : x ∈ c.readyOf n w) : (x.access.kind == 1) = w :=
  beq_iff_eq.mp (List.mem_filter.mp h).2

/-! ### The reads of a queue -/

/-- A transaction that is no write. -/
def Txn.isRead (x : Txn) : Bool := x.access.kind != 1

/-- The accesses of a channel's queue that are no writes. -/
def Chan.reads (h : Chan) : List Access := (h.queue.filter Txn.isRead).map (fun x => x.access)

theorem carryReads_reads (x : Txn) (l : List Txn) : ((carryReads x l).filter Txn.isRead).map (fun y => y.access) =
    (l.filter Txn.isRead).map (fun y => y.access) := by
  induction l with
  | nil => rfl
  | cons y l ih =>
    rw [show carryReads x (y :: l) = (if y.access.kind != 1 && y.burst == x.burst then { y with carried := true } else y) :: carryReads x l
      from rfl]
    by_cases h : (y.access.kind != 1 && y.burst == x.burst) = true
    · rw [if_pos h]
      have read : y.isRead = true := (Bool.and_eq_true_iff.mp h).1
      have carried : Txn.isRead { y with carried := true } = true := read
      rw [List.filter_cons_of_pos carried, List.filter_cons_of_pos read, List.map_cons, List.map_cons, ih]
    · rw [if_neg h]
      by_cases read : y.isRead = true
      · rw [List.filter_cons_of_pos read, List.filter_cons_of_pos read, List.map_cons, List.map_cons, ih]
      · rw [List.filter_cons_of_neg read, List.filter_cons_of_neg read, ih]

/-! ### A bus serves writes (R372 to R374) -/

/-- The write leaves the queue; an urgent one carries the reads behind it. -/
def Chan.serve (x : Txn) (urgent : Bool) (h : Chan) : Chan :=
  { h with queue := if urgent then carryReads x (h.queue.erase x) else h.queue.erase x }

theorem Chip.serveWrite_some {c : Chip} {n : Nat} {x : Txn} (h : c.choose n (c.readyOf n true) = some x) :
    c.serveWrite n = (c.modChan n (Chan.serve x (c.pressed x))).openRow n x := by
  rw [Chip.serveWrite, h]
  rfl

theorem Chip.serveWrite_none {c : Chip} {n : Nat} (h : c.choose n (c.readyOf n true) = none) : c.serveWrite n = c := by
  rw [Chip.serveWrite, h]

/-- From `c` to `c1` nothing but channel `n`'s queue and rows, and its status, has changed; its reads stay. -/
structure Chip.OnlyBus (c c1 : Chip) (n : Nat) : Prop where
  only : c.OnlyMem c1
  regs : regsSame [R.dmcChStat n] c.regs c1.regs
  mem : { c1.mem with chans := [] } = { c.mem with chans := [] }
  other : ∀ k, k ≠ n → c1.chan k = c.chan k
  reads : (c1.chan n).reads = (c.chan n).reads

theorem Chip.OnlyBus.refl (c : Chip) (n : Nat) : c.OnlyBus c n := ⟨.refl c, .refl, rfl, fun _ _ => rfl, rfl⟩

theorem Chip.OnlyBus.trans {c c1 c2 : Chip} {n : Nat} (h1 : c.OnlyBus c1 n) (h2 : c1.OnlyBus c2 n) : c.OnlyBus c2 n :=
  ⟨h1.only.trans h2.only, h1.regs.trans h2.regs, h2.mem.trans h1.mem, fun k hk => (h2.other k hk).trans (h1.other k hk),
    h2.reads.trans h1.reads⟩

theorem Chip.onlyBus_modChan (c : Chip) (n : Nat) (f : Chan → Chan) (h : (f (c.chan n)).reads = (c.chan n).reads) :
    c.OnlyBus (c.modChan n f) n :=
  ⟨c.onlyMem_modChan n f, regsSame_modChan c n f, rfl, fun _ hk => c.chan_modChan_other n f hk, by rw [Chip.chan_modChan_same, h]⟩

/-- A row of a bank is open. -/
def Chan.opened (bank row : Nat) (h : Chan) : Chan := { h with rows := mapPut (fun _ => 0) h.rows bank row }

theorem Chip.openRow_eq (c : Chip) (n : Nat) (x : Txn) : c.openRow n x = c.modChan n (Chan.opened (c.bankOf x.ofs) (rowOf x.ofs + 1)) := rfl

theorem Chan.opened_reads (bank row : Nat) (h : Chan) : (h.opened bank row).reads = h.reads := rfl

theorem Chip.onlyBus_openRow (c : Chip) (n : Nat) (x : Txn) : c.OnlyBus (c.openRow n x) n := by
  rw [Chip.openRow_eq]
  exact c.onlyBus_modChan n _ (Chan.opened_reads _ _ _)

theorem Chip.onlyBus_serveWrite (c : Chip) (n : Nat) : c.OnlyBus (c.serveWrite n) n := by
  rcases h : c.choose n (c.readyOf n true) with _ | x
  · rw [Chip.serveWrite_none h]
    exact .refl c n
  · rw [Chip.serveWrite_some h]
    refine (c.onlyBus_modChan n _ ?_).trans (Chip.onlyBus_openRow _ n x)
    have write : x.isRead = false := by
      have kind : x.access.kind == 1 := Chip.readyOf_kind (Chip.choose_mem h)
      unfold Txn.isRead
      simpa using kind
    unfold Chan.reads Chan.serve
    dsimp only
    split
    · rw [carryReads_reads, filter_erase_of_not _ write]
    · rw [filter_erase_of_not _ write]

theorem Chip.onlyBus_turnBus (c : Chip) (n : Nat) : c.OnlyBus (c.turnBus n) n := by
  unfold Chip.turnBus
  extract_lets writes
  split
  · generalize writes.length = k
    induction k with
    | zero => exact .refl c n
    | succ k ih =>
      rw [forN_succ]
      exact ih.trans (Chip.onlyBus_serveWrite _ n)
  · exact .refl c n

/-! ### A transaction takes its place (R371, R373, R379) -/

/-- A write of less than a burst under inline ECC, which reads its burst first. -/
def Chip.narrow (c : Chip) (x : Txn) : Bool := c.bit R.dmcCfg 30 && decide (x.access.len < 64)

/-- DRAM with a write's bytes. -/
def Chip.holding (c : Chip) (x : Txn) : Chip := { c with dram := memWrite dramDefault c.dram x.ofs x.access.data }

/-- Which bursts are uncorrectable. -/
def Chip.withPoison (c : Chip) (l : List Nat) : Chip := { c with mem := { c.mem with poison := l } }

/-- The bytes of a write are stored, after the read that a narrow one needs. -/
def Chip.storeWrite (c : Chip) (n : Nat) (x : Txn) : Chip :=
  let c := c.holding x
  let narrow := c.narrow x
  let c := if narrow then c.bump (R.dmcChCnt n 2) else c
  let worn := narrow && (x.access.rmw == 2 || c.mem.poison.contains x.burst)
  let c := if narrow then c.eccRead n x.ofs x.access.rmw else c
  c.withPoison (c.mem.poison.filter (fun b => b != x.burst) ++ (if worn then [x.burst] else []))

/-- A transaction joins the end of a queue. -/
def Chan.join (x : Txn) (h : Chan) : Chan := { h with queue := h.queue ++ [x] }

theorem Chip.accept_write {c : Chip} {n : Nat} {x : Txn} (h : x.access.kind = 1) :
    c.accept n x = ((c.storeWrite n x).modChan n (Chan.join x)).turnBus n := by
  unfold Chip.accept
  simp only [h, beq_self_eq_true, if_true]
  rfl

/-- A read with the bytes that DRAM holds. -/
def Txn.withData (x : Txn) (l : List Byte) : Txn := { x with access := { x.access with data := l } }

theorem Chip.accept_read {c : Chip} {n : Nat} {x : Txn} (h : x.access.kind ≠ 1) :
    c.accept n x = c.modChan n (Chan.join (x.withData (memRead dramDefault c.dram x.ofs x.access.len))) := by
  unfold Chip.accept
  simp only [beq_iff_eq, h, if_false]
  rfl

end Sys2Proof.Machine

/-! ### What the store of a write leaves (R378, R379) -/

namespace Sys2Proof.Machine

section
variable (c : Chip) (n : Nat) (x : Txn)

/-- The read that a narrow write needs. -/
def Chip.readFirst (c : Chip) (n : Nat) (x : Txn) : Chip :=
  if c.narrow x then (c.bump (R.dmcChCnt n 2)).eccRead n x.ofs x.access.rmw else c

/-- The bursts that stay uncorrectable once a write has been stored. -/
def Chip.wornAfter (c : Chip) (x : Txn) : List Nat :=
  c.mem.poison.filter (fun b => b != x.burst) ++
    (if c.narrow x && (x.access.rmw == 2 || c.mem.poison.contains x.burst) then [x.burst] else [])

theorem Chip.eccRead_poison (ofs ecc : Nat) : (c.eccRead n ofs ecc).mem.poison = c.mem.poison := by
  obtain ⟨b, h | h⟩ := c.eccRead_mem n ofs ecc <;> rw [h]

theorem Chip.eccRead_waiting (ofs ecc : Nat) : (c.eccRead n ofs ecc).mem.waiting = c.mem.waiting := by
  obtain ⟨b, h | h⟩ := c.eccRead_mem n ofs ecc <;> rw [h]

theorem Chip.readFirst_poison : (c.readFirst n x).mem.poison = c.mem.poison := by
  unfold Chip.readFirst
  split
  · exact Chip.eccRead_poison _ _ _ _
  · rfl

theorem Chip.storeWrite_eq : c.storeWrite n x = ((c.holding x).readFirst n x).withPoison (c.wornAfter x) := by
  have narrow : (c.holding x).narrow x = c.narrow x := rfl
  unfold Chip.storeWrite Chip.readFirst Chip.wornAfter
  dsimp only
  rw [narrow]
  by_cases h : c.narrow x = true
  · simp only [h, if_true, Bool.true_and, Chip.eccRead_poison]
    rfl
  · simp only [h, Bool.false_eq_true, if_false, Bool.false_and]
    rfl

/-- The registers that a narrow write of channel `n` may write. -/
def writeRegs (n : Nat) : List Nat := R.dmcChCnt n 2 :: (errorRegs n ++ eventRegs)

/-- What a part of the state that neither registers nor the event journal hold reads after the read that a write needs. -/
theorem Chip.readFirst_keeps {α : Type} (g : Chip → α) (hb : ∀ (c : Chip) a, g (c.bump a) = g c)
    (he : ∀ (c : Chip) n ofs ecc, g (c.eccRead n ofs ecc) = g c) : g (c.readFirst n x) = g c := by
  unfold Chip.readFirst
  split
  · exact (he _ _ _ _).trans (hb _ _)
  · rfl

theorem regsSame_readFirst : regsSame (writeRegs n) c.regs (c.readFirst n x).regs := by
  unfold Chip.readFirst
  split
  · exact ((regsSame_bump_iff (by simp [writeRegs])).mpr regsSame.refl).trans
      ((regsSame_eccRead _ _ _ _).mono (fun _ h => List.mem_cons_of_mem _ h))
  · exact .refl

theorem regsSame_storeWrite : regsSame (writeRegs n) c.regs (c.storeWrite n x).regs := by
  rw [Chip.storeWrite_eq]
  exact regsSame_readFirst (c.holding x) n x

theorem Chip.storeWrite_dram : (c.storeWrite n x).dram = memWrite dramDefault c.dram x.ofs x.access.data := by
  rw [Chip.storeWrite_eq]
  exact (c.holding x).readFirst_keeps n x (·.dram) (fun _ _ => rfl) Chip.eccRead_dram

theorem Chip.storeWrite_tbw : (c.storeWrite n x).tbw = c.tbw := by
  rw [Chip.storeWrite_eq]
  exact (c.holding x).readFirst_keeps n x (·.tbw) (fun _ _ => rfl) Chip.eccRead_tbw

theorem Chip.storeWrite_tx : (c.storeWrite n x).tx = c.tx := by
  rw [Chip.storeWrite_eq]
  exact (c.holding x).readFirst_keeps n x (·.tx) (fun _ _ => rfl) Chip.eccRead_tx

theorem Chip.storeWrite_waiting : (c.storeWrite n x).mem.waiting = c.mem.waiting := by
  rw [Chip.storeWrite_eq]
  exact (c.holding x).readFirst_keeps n x (·.mem.waiting) (fun _ _ => rfl) Chip.eccRead_waiting

theorem Chip.storeWrite_poison : (c.storeWrite n x).mem.poison = c.wornAfter x := by
  rw [Chip.storeWrite_eq]
  rfl

end

/-! ### A transaction that its channel takes -/

section
variable (c : Chip) (n : Nat) (x : Txn)

/-- After the bytes are stored, the write waits in its channel's queue until the bus turns. -/
theorem Chip.onlyBus_queued (d : Chip) (hw : x.access.kind = 1) : d.OnlyBus ((d.modChan n (Chan.join x)).turnBus n) n := by
  refine (d.onlyBus_modChan n _ ?_).trans (Chip.onlyBus_turnBus _ n)
  have write : ¬ x.isRead = true := by simp [Txn.isRead, hw]
  simp [Chan.reads, Chan.join, write]

variable (hw : x.access.kind = 1)
include hw

theorem Chip.acceptWrite_dram : (c.accept n x).dram = memWrite dramDefault c.dram x.ofs x.access.data := by
  rw [Chip.accept_write hw, (Chip.onlyBus_queued n x _ hw).only.keeps (·.dram) (fun _ _ => rfl), Chip.storeWrite_dram]

theorem Chip.acceptWrite_tbw : (c.accept n x).tbw = c.tbw := by
  rw [Chip.accept_write hw, (Chip.onlyBus_queued n x _ hw).only.keeps (·.tbw) (fun _ _ => rfl), Chip.storeWrite_tbw]

theorem Chip.acceptWrite_tx : (c.accept n x).tx = c.tx := by
  rw [Chip.accept_write hw, (Chip.onlyBus_queued n x _ hw).only.keeps (·.tx) (fun _ _ => rfl), Chip.storeWrite_tx]

theorem Chip.acceptWrite_waiting : (c.accept n x).mem.waiting = c.mem.waiting := by
  rw [Chip.accept_write hw]
  exact (congrArg Mem.waiting (Chip.onlyBus_queued n x _ hw).mem).trans (Chip.storeWrite_waiting _ _ _)

theorem Chip.acceptWrite_poison : (c.accept n x).mem.poison = c.wornAfter x := by
  rw [Chip.accept_write hw]
  exact (congrArg Mem.poison (Chip.onlyBus_queued n x _ hw).mem).trans (Chip.storeWrite_poison _ _ _)

theorem regsSame_acceptWrite : regsSame (writeRegs n) c.regs (c.accept n x).regs := by
  rw [Chip.accept_write hw]
  exact (regsSame_storeWrite c n x).trans ((Chip.onlyBus_queued n x _ hw).regs.mono (by simp [writeRegs, errorRegs]))

/-- A write that needs no read, or whose read finds nothing. -/
theorem Chip.acceptWrite_clean (h : c.narrow x = false ∨ x.access.rmw = 0 ∧ c.mem.poison.contains x.burst = false) :
    (c.accept n x).evq = c.evq ∧ regsSame [R.dmcChStat n, R.dmcChCnt n 2] c.regs (c.accept n x).regs ∧
    (c.accept n x).reg (R.dmcChCnt n 2) = (if c.narrow x = true then c.bump (R.dmcChCnt n 2) else c).reg (R.dmcChCnt n 2) ∧
    (c.accept n x).mem.poison.contains x.burst = false := by
  have bus := Chip.onlyBus_queued n x (c.storeWrite n x) hw
  have stored : (c.storeWrite n x).evq = c.evq ∧ (c.storeWrite n x).regs = (if c.narrow x = true then c.bump (R.dmcChCnt n 2) else c).regs := by
    rw [Chip.storeWrite_eq]
    have narrow : (c.holding x).narrow x = c.narrow x := rfl
    unfold Chip.readFirst
    rw [narrow]
    by_cases hn : c.narrow x = true
    · obtain ⟨rmw, good⟩ := h.resolve_left (by simp [hn])
      have fine : ((c.holding x).bump (R.dmcChCnt n 2)).flagged x.ofs 0 = false := by
        rw [Chip.flagged, show ((c.holding x).bump (R.dmcChCnt n 2)).mem.poison.contains (x.ofs / 64) = false from good]
        exact Bool.and_false _
      rw [if_pos hn, if_pos hn, rmw, Chip.eccRead_clean _ _ _ _ (.inr ⟨fine, by decide⟩)]
      exact ⟨rfl, rfl⟩
    · rw [if_neg hn, if_neg hn]
      exact ⟨rfl, rfl⟩
  refine ⟨?_, ?_, ?_, ?_⟩
  · rw [Chip.accept_write hw, bus.only.keeps (·.evq) (fun _ _ => rfl)]
    exact stored.1
  · rw [Chip.accept_write hw]
    refine regsSame.trans ?_ (bus.regs.mono (by simp))
    rw [stored.2]
    split
    · exact (regsSame_bump_iff (by simp)).mpr .refl
    · exact .refl
  · rw [Chip.accept_write hw, bus.regs.reg (by simp [R.dmcChStat, R.dmcChCnt]; omega)]
    exact congrArg (fun r => mapGet resetWord r (R.dmcChCnt n 2)) stored.2
  · rw [Chip.acceptWrite_poison _ _ _ hw, Chip.wornAfter]
    have fine : (c.narrow x && (x.access.rmw == 2 || c.mem.poison.contains x.burst)) = false := by
      rcases h with h | ⟨rmw, good⟩
      · simp [h]
      · rw [rmw, good]
        exact Bool.and_false _
    rw [fine]
    simp

/-- A narrow write over an uncorrectable burst leaves it uncorrectable. -/
theorem Chip.acceptWrite_worn (h : c.narrow x = true) (worn : x.access.rmw = 2 ∨ c.mem.poison.contains x.burst = true) :
    (c.accept n x).mem.poison.contains x.burst = true ∧
    (c.accept n x).reg (R.dmcChCnt n 1) = (c.bump (R.dmcChCnt n 1)).reg (R.dmcChCnt n 1) ∧
    (c.accept n x).reg (R.dmcChCnt n 2) = (c.bump (R.dmcChCnt n 2)).reg (R.dmcChCnt n 2) := by
  have bad : (x.access.rmw == 2 || c.mem.poison.contains x.burst) = true := by
    rcases worn with worn | worn <;> rw [worn]
    · rfl
    · exact Bool.or_true _
  have on : c.bit R.dmcCfg 30 = true := (Bool.and_eq_true_iff.mp h).1
  have bus := Chip.onlyBus_queued n x (c.storeWrite n x) hw
  have cnt : ∀ i, (c.accept n x).reg (R.dmcChCnt n i) = (((c.holding x).bump (R.dmcChCnt n 2)).eccRead n x.ofs x.access.rmw).reg (R.dmcChCnt n i) := by
    intro i
    rw [Chip.accept_write hw, bus.regs.reg (by simp [R.dmcChStat, R.dmcChCnt]; omega), Chip.storeWrite_eq]
    have narrow : (c.holding x).narrow x = true := h
    rw [Chip.readFirst, if_pos narrow]
    rfl
  have flagged : ((c.holding x).bump (R.dmcChCnt n 2)).flagged x.ofs x.access.rmw = true := by
    rw [Chip.flagged, Chip.bit_of_reg (Chip.bump_reg_other (c.holding x) (by unfold R.dmcCfg R.dmcChCnt; omega))]
    exact Bool.and_eq_true_iff.mpr ⟨on, bad⟩
  refine ⟨?_, ?_, ?_⟩
  · rw [Chip.acceptWrite_poison _ _ _ hw, Chip.wornAfter, h, bad]
    simp
  · rw [cnt, Chip.eccRead_cnt _ _ _ _ (by decide), if_pos (.inl ⟨flagged, rfl⟩)]
    exact Chip.bump_reg_congr (Chip.bump_reg_other _ (by unfold R.dmcChCnt; omega))
  · rw [cnt, Chip.eccRead_cnt _ _ _ _ (by decide), if_neg (by simp [flagged])]
    rfl

end

end Sys2Proof.Machine

/-! ### A request enters the fabric (R377, R385, R386, R388) -/

namespace Sys2Proof.Machine

/-- What the regulators know. -/
def Chip.withBuckets (c : Chip) (r : List (Nat × Regulator)) : Chip := { c with mem := { c.mem with regs := r } }

/-- What waits for a place. -/
def Chip.withWaiting (c : Chip) (l : List Txn) : Chip := { c with mem := { c.mem with waiting := l } }

/-- A regulator counts the request, in budget or out of it. -/
theorem Chip.regulate_eq (c : Chip) (g : Nat) : ∃ r i v b, i < 2 ∧ c.regulate g = ((c.withBuckets r).setNat (R.dmcGcnt g i) v, b) := by
  unfold Chip.regulate
  extract_lets
  split
  · exact ⟨_, 0, _, true, by decide, rfl⟩
  · exact ⟨_, 1, _, false, by decide, rfl⟩

/-- From `c` to `c1` nothing but the count and the regulator of a request of group `g` has changed. -/
structure Chip.Counted (c c1 : Chip) (g : Nat) : Prop where
  only : c.OnlyMem c1
  regs : regsSame [R.dmcGcnt g 0, R.dmcGcnt g 1] c.regs c1.regs
  mem : ∃ r, c1.mem = { c.mem with regs := r }

theorem Chip.counted_regulate (c : Chip) (g : Nat) : c.Counted (c.regulate g).1 g := by
  obtain ⟨r, i, v, b, hi, h⟩ := c.regulate_eq g
  rw [h]
  refine ⟨rfl, (regsSame_setNat_iff ?_ v).mpr .refl, r, rfl⟩
  rcases (show i = 0 ∨ i = 1 by omega) with rfl | rfl <;> simp

/-- The counts of requests lie apart from what tells where an access goes. -/
theorem Chip.Counted.reg {c c1 : Chip} {g a : Nat} (h : c.Counted c1 g) (ha : a < 0x41100200) : c1.reg a = c.reg a :=
  h.regs.reg (by simp [R.dmcGcnt]; omega)

theorem Chip.channelOf_congr {c c1 : Chip} (h : ∀ i < 4, c1.reg (R.dmcChmask i) = c.reg (R.dmcChmask i)) (ofs : Nat) :
    c1.channelOf ofs = c.channelOf ofs := by
  have fld : ∀ i < 4, c1.fld (R.dmcChmask i) 29 0 = c.fld (R.dmcChmask i) 29 0 := fun i hi => Chip.fld_of_reg (h i hi) 29 0
  unfold Chip.channelOf
  simp [List.range_succ, fld]

theorem Chip.Counted.channelOf {c c1 : Chip} {g : Nat} (h : c.Counted c1 g) (ofs : Nat) : c1.channelOf ofs = c.channelOf ofs :=
  Chip.channelOf_congr (fun i hi => h.reg (by unfold R.dmcChmask; omega)) ofs

/-- Which ports panic. -/
def Mem.alarms (m : Mem) : Nat × Nat × Nat × Nat := (m.headPanic, m.flyPanic, m.camPanic, m.capPanic)

theorem Mem.panics_congr {m m1 : Mem} (h : m1.alarms = m.alarms) (p : PanicPort) : m1.panics p = m.panics p := by
  simp only [Mem.alarms, Prod.mk.injEq] at h
  obtain ⟨head, fly, cam, cap⟩ := h
  cases p <;> simp only [Mem.panics, head, fly, cam, cap]

theorem Chip.pressed_congr {c c1 : Chip} {x x1 : Txn} (hm : c1.mem.alarms = c.mem.alarms) (hx : x1.carried = x.carried ∧ x1.access = x.access) :
    c1.pressed x1 = c.pressed x := by
  simp only [Chip.pressed, Chip.urgent, Mem.panics_congr hm, hx.1, hx.2]

/-- Where a transaction finds a place depends on the queues, the panics and the transaction's urgency and rank. -/
theorem Chip.hasPlace_congr {c c1 : Chip} {x x1 : Txn} {n : Nat} (hc : c1.chan n = c.chan n) (hm : c1.mem.alarms = c.mem.alarms)
    (hx : x1.carried = x.carried ∧ x1.access = x.access) : c1.hasPlace n x1 = c.hasPlace n x := by
  have any : c1.anyPlace = c.anyPlace := by
    funext y
    rw [Chip.anyPlace, Chip.anyPlace, Chip.pressed_congr hm ⟨rfl, rfl⟩]
  have here : c1.anyPlace x1 = c.anyPlace x := by rw [Chip.anyPlace, Chip.anyPlace, Chip.pressed_congr hm hx, hx.2]
  unfold Chip.hasPlace
  rw [hc, here, any]

/-- The transaction as it stands once the regulator has counted it. -/
def Txn.regulated (x : Txn) (inBudget : Bool) (now : Stamp) : Txn := { x with inBudget := inBudget, arrival := now }

/-- The regulator has counted the transaction, which waits for a place. -/
def Chip.countIn (c : Chip) (x : Txn) : Chip :=
  (c.regulate x.access.group).1.withWaiting ((c.regulate x.access.group).1.mem.waiting ++
    [x.regulated (c.regulate x.access.group).2 (c.regulate x.access.group).1.clk])

theorem Chip.enterDram_beyond {c : Chip} {x : Txn} (h : c.dramUsable ≤ x.access.addr - dramBase) : c.enterDram x =
    (c.event 0xD007 .room [.val 1 x.access.group, .val 8 (x.access.addr - dramBase)]).faulted x.access := by
  rw [Chip.enterDram]
  exact (if_pos h).trans rfl

theorem Chip.enterDram_inside {c : Chip} {x : Txn} (h : x.access.addr - dramBase < c.dramUsable) :
    c.enterDram x = (c.countIn x).admitWaiting := by
  rw [Chip.enterDram, Chip.countIn]
  rcases c.regulate x.access.group with ⟨d, inBudget⟩
  exact if_neg (Nat.not_le.mpr h)

/-- Where nothing else waits, a transaction whose channel has a place takes it. -/
theorem Chip.admitWaiting_one {c : Chip} {x : Txn} (h : c.hasPlace (c.channelOf x.ofs) x = true) :
    (c.withWaiting [x]).admitWaiting = (c.withWaiting []).accept (c.channelOf x.ofs) x := by
  have place : [x].find? (fun y => (c.withWaiting [x]).hasPlace ((c.withWaiting [x]).channelOf y.ofs) y) = some x :=
    List.find?_cons_of_pos (show (c.withWaiting [x]).hasPlace ((c.withWaiting [x]).channelOf x.ofs) x = true from h)
  have waits : (c.withWaiting [x]).mem.waiting = [x] := rfl
  rw [Chip.admitWaiting, waits, List.length_singleton, forN_succ, forN_zero, Chip.admitOne, waits, place]
  dsimp only
  rw [List.erase_cons_head]
  rfl

/-- Where no waiting transaction has a place, all wait on. -/
theorem Chip.admitWaiting_none {c : Chip} (h : ∀ x ∈ c.mem.waiting, c.hasPlace (c.channelOf x.ofs) x = false) : c.admitWaiting = c := by
  have one : c.admitOne = c := by
    rw [Chip.admitOne, List.find?_eq_none.mpr (fun x hx => by simp [h x hx])]
  rw [Chip.admitWaiting]
  generalize c.mem.waiting.length = k
  induction k with
  | zero => rfl
  | succ k ih => rw [forN_succ, ih, one]

/-! ### MEMORY_REQUEST for DRAM -/

section
variable {s : State} (t : Stamp) {a g : Access}

theorem Chip.groupOf_kept {c : Chip} {a g : Access} (h : g = c.groupOf a) : g.unit = a.unit ∧ g.kind = a.kind ∧ g.addr = a.addr ∧ g.len = a.len ∧
    g.data = a.data ∧ g.source = a.source ∧ g.rmw = a.rmw := by
  obtain ⟨k, cls, hg⟩ := c.groupOf_eq a
  rw [h, hg]
  exact ⟨rfl, rfl, rfl, rfl, rfl, rfl, rfl⟩

theorem exec_dramRequest (ha : accessShape a = true) (hg : g = (s.chip.at t).groupOf a) (hd : placeOf s.chip.dramCap a.addr = .dram) :
    exec (.memoryRequest t a) s = .next { s with
      chip := (s.chip.at t).requestDram g } := by
  have kept : g.addr = a.addr := (Chip.groupOf_kept hg).2.2.1
  rw [show exec (.memoryRequest t a) s = execMemoryRequest t a s from rfl, execMemoryRequest, runIf_of _ _ _ (show accessOk a = true from ha),
    ← hg, Chip.doAccess, kept, show (s.chip.at t).dramCap = s.chip.dramCap from rfl, hd]
  rfl

end

section
variable {c : Chip} {a : Access}

/-- A request that its unit lets pass and that is not held enters. -/
theorem Chip.requestDram_enters (hp : c.passes a) (hh : rankOf a.group < 6 ∨ c.mem.anyPanic = false) :
    c.requestDram a = c.enterDram (c.newTxn a) := by
  have free : (decide (6 ≤ rankOf a.group) && c.mem.anyPanic) = false := by
    rcases hh with h | h
    · simp [Nat.not_le.mpr h]
    · simp [h]
  unfold Chip.requestDram Chip.enterEngine
  rw [Chip.check_of_passes hp, free]
  by_cases core : coreAccess a = true
  · simp only [core, if_true, Bool.not_true, Bool.false_eq_true, if_false]
  · simp only [core, Bool.false_eq_true, if_false, if_true]

/-- A request of a low rank is held while a port panics. -/
theorem Chip.requestDram_held (h6 : 6 ≤ rankOf a.group) (hh : c.mem.anyPanic = true) (hp : coreAccess a = true → c.passes a) :
    c.requestDram a = { c with mem := { c.mem with heldReqs := c.mem.heldReqs ++ [c.newTxn a] } } := by
  have hold : (decide (6 ≤ rankOf a.group) && c.mem.anyPanic) = true := by simp [h6, hh]
  unfold Chip.requestDram
  rw [hold]
  by_cases core : coreAccess a = true
  · rw [Chip.check_of_passes (hp core)]
    simp only [core, if_true, Bool.not_true, Bool.false_eq_true, if_false]
  · simp only [core, Bool.false_eq_true, if_false, if_true]

/-- A request that its unit does not let pass is answered with the error flag. -/
theorem Chip.requestDram_faulted (hp : ¬ c.passes a) (hh : coreAccess a = true ∨ rankOf a.group < 6 ∨ c.mem.anyPanic = false) :
    c.requestDram a = (c.violation a (c.checkCause a)).faulted a := by
  unfold Chip.requestDram Chip.enterEngine
  rw [Chip.check_of_not_passes hp]
  by_cases core : coreAccess a = true
  · simp only [core, if_true, Bool.not_false]
  · have free : (decide (6 ≤ rankOf a.group) && c.mem.anyPanic) = false := by
      rcases hh.resolve_left core with h | h
      · simp [Nat.not_le.mpr h]
      · simp [h]
    simp only [core, free, Bool.false_eq_true, if_false]

end

end Sys2Proof.Machine

/-! ### Accesses to DRAM take their places (R371 to R379) -/

namespace Sys2Proof.Machine

/-! ### What waits takes places -/

theorem parity_lt (k v : Nat) : parity k v < 2 := by
  cases k with
  | zero => exact Nat.zero_lt_succ 1
  | succ k => exact Nat.mod_lt _ (by decide)

theorem hashBit_lt (mask ofs : Nat) : hashBit mask ofs < 2 := parity_lt 30 _

theorem Chip.channelOf_lt (c : Chip) (ofs : Nat) : c.channelOf ofs < 16 := by
  have h0 := hashBit_lt (c.fld (R.dmcChmask 0) 29 0) ofs
  have h1 := hashBit_lt (c.fld (R.dmcChmask 1) 29 0) ofs
  have h2 := hashBit_lt (c.fld (R.dmcChmask 2) 29 0) ofs
  have h3 := hashBit_lt (c.fld (R.dmcChmask 3) 29 0) ofs
  unfold Chip.channelOf
  simp only [List.range_succ, List.range_zero, List.nil_append, List.foldl_append, List.foldl_cons, List.foldl_nil]
  omega

section
variable {α : Type} (g : Chip → α)

theorem Chip.accept_keeps (hw : ∀ (c : Chip) n x, x.access.kind = 1 → g (c.accept n x) = g c)
    (hm : ∀ (c : Chip) n f, g (c.modChan n f) = g c) (c : Chip) (n : Nat) (x : Txn) : g (c.accept n x) = g c := by
  by_cases h : x.access.kind = 1
  · exact hw c n x h
  · rw [Chip.accept_read h]
    exact hm _ _ _

theorem Chip.admitWaiting_keeps (ha : ∀ (c : Chip) n x, n < 16 → g (c.accept n x) = g c) (hl : ∀ (c : Chip) l, g (c.withWaiting l) = g c) (c : Chip) :
    g c.admitWaiting = g c := by
  rw [Chip.admitWaiting]
  generalize c.mem.waiting.length = k
  induction k with
  | zero => rfl
  | succ k ih =>
    rw [forN_succ]
    refine Eq.trans ?_ ih
    unfold Chip.admitOne
    split
    · exact (ha _ _ _ (Chip.channelOf_lt _ _)).trans (hl _ _)
    · rfl

end

theorem Chip.admitWaiting_tx (c : Chip) : c.admitWaiting.tx = c.tx :=
  Chip.admitWaiting_keeps (·.tx) (fun c n x _ => Chip.accept_keeps (·.tx) (fun c n x h => c.acceptWrite_tx n x h) (fun _ _ _ => rfl) c n x) (fun _ _ => rfl) c

/-! ### A request that finds a place -/

theorem Chip.Counted.withWaiting {c c1 : Chip} {g : Nat} (h : c.Counted c1 g) (hw : c.mem.waiting = []) : c.Counted (c1.withWaiting []) g := by
  obtain ⟨only, regs, r, mem⟩ := h
  refine ⟨only.trans rfl, regs, r, ?_⟩
  show { c1.mem with waiting := [] } = _
  rw [mem]
  dsimp only
  rw [hw]

section
variable {c d : Chip} {g : Nat} (h : c.Counted d g)
include h

theorem Chip.Counted.chan (n : Nat) : d.chan n = c.chan n := by
  obtain ⟨r, mem⟩ := h.mem
  rw [Chip.chan, mem, Chip.chan]

theorem Chip.Counted.alarms : d.mem.alarms = c.mem.alarms := by
  obtain ⟨r, mem⟩ := h.mem
  rw [mem, Mem.alarms, Mem.alarms]

theorem Chip.Counted.waiting : d.mem.waiting = c.mem.waiting := by
  obtain ⟨r, mem⟩ := h.mem
  rw [mem]

theorem Chip.Counted.poison : d.mem.poison = c.mem.poison := by
  obtain ⟨r, mem⟩ := h.mem
  rw [mem]

theorem Chip.Counted.cnt (n i : Nat) (hn : n < 16) (hi : i < 4) : d.reg (R.dmcChCnt n i) = c.reg (R.dmcChCnt n i) :=
  h.reg (by unfold R.dmcChCnt; omega)

theorem Chip.Counted.narrow {x : Txn} {a : Access} (hx : x.access = a) : d.narrow x = (c.bit R.dmcCfg 30 && decide (a.len < 64)) := by
  rw [Chip.narrow, Chip.bit_of_reg (h.reg (by unfold R.dmcCfg; omega)), hx]

end

/-- A request that its unit lets pass, that is not held and finds a place goes to its channel. -/
theorem Chip.requestDram_placed {c : Chip} {a : Access} (hp : c.passes a) (hh : rankOf a.group < 6 ∨ c.mem.anyPanic = false)
    (hi : a.addr - dramBase < c.dramUsable) (hw : c.mem.waiting = []) {n : Nat} (hn : n = c.channelOf (a.addr - dramBase))
    (place : c.hasPlace n (c.newTxn a) = true) :
    ∃ d x, c.Counted d a.group ∧ x.access = a ∧ c.requestDram a = d.accept n x := by
  have counted := c.counted_regulate a.group
  rw [Chip.requestDram_enters hp hh, Chip.enterDram_inside (x := c.newTxn a) hi, Chip.countIn]
  have same : (c.newTxn a).access = a := rfl
  rw [same]
  have waits : (c.regulate a.group).1.mem.waiting = [] := counted.waiting.trans hw
  rw [waits, List.nil_append]
  generalize hx : (c.newTxn a).regulated (c.regulate a.group).2 (c.regulate a.group).1.clk = x
  have acc : x.access = a := by rw [← hx]; rfl
  have ofs : x.ofs = a.addr - dramBase := by rw [Txn.ofs, acc]
  have chan : (c.regulate a.group).1.channelOf x.ofs = n := by rw [counted.channelOf, ofs, hn]
  refine ⟨(c.regulate a.group).1.withWaiting [], x, counted.withWaiting hw, acc, ?_⟩
  rw [Chip.admitWaiting_one, chan]
  rw [chan, ← place]
  refine Chip.hasPlace_congr ?_ ?_ ⟨?_, ?_⟩
  · exact counted.chan n
  · exact counted.alarms
  · rw [← hx]
    rfl
  · rw [acc]
    rfl

section
variable {c d : Chip} {a : Access} {n : Nat} {x : Txn} (hd : c.Counted d a.group) (hx : x.access = a) (hk : a.kind = 1)
include hd hx hk

/-- What a write leaves. -/
theorem writePlaced_says (hl : a.data.length = a.len) (o : Nat) : mapGet dramDefault (d.accept n x).dram o =
      (if a.addr - dramBase ≤ o ∧ o < a.addr - dramBase + a.len then a.data.getD (o - (a.addr - dramBase)) 0 else mapGet dramDefault c.dram o) ∧
    mapGet tbwDefault (d.accept n x).tbw o = mapGet tbwDefault c.tbw o ∧ (d.accept n x).tx = c.tx ∧
    (d.accept n x).mem.waiting = c.mem.waiting ∧
    regsSame ([R.dmcGcnt a.group 0, R.dmcGcnt a.group 1] ++ writeRegs n) c.regs (d.accept n x).regs := by
  have kind : x.access.kind = 1 := by rw [hx, hk]
  refine ⟨?_, ?_, ?_, ?_, ?_⟩
  · rw [Chip.acceptWrite_dram _ _ _ kind, mapGet_memWrite, hd.only.keeps (·.dram) (fun _ _ => rfl), Txn.ofs, hx, hl]
  · rw [Chip.acceptWrite_tbw _ _ _ kind, hd.only.keeps (·.tbw) (fun _ _ => rfl)]
  · rw [Chip.acceptWrite_tx _ _ _ kind, hd.only.keeps (·.tx) (fun _ _ => rfl)]
  · rw [Chip.acceptWrite_waiting _ _ _ kind, hd.waiting]
  · exact (hd.regs.mono (fun _ h => List.mem_append_left _ h)).trans
      ((regsSame_acceptWrite d n x kind).mono (fun _ h => List.mem_append_right _ h))

/-- What a write leaves that needs no read, or whose read finds nothing. -/
theorem cleanPlaced_says (hn : n < 16) (h : c.bit R.dmcCfg 30 = false ∨ a.len = 64 ∨ a.rmw = 0 ∧
      c.mem.poison.contains ((a.addr - dramBase) / 64) = false) :
    (d.accept n x).mem.poison.contains ((a.addr - dramBase) / 64) = false ∧ c.raises (d.accept n x) [] ∧
    (d.accept n x).reg (R.dmcChCnt n 2) = (if c.bit R.dmcCfg 30 = true ∧ a.len < 64 then c.bump (R.dmcChCnt n 2) else c).reg (R.dmcChCnt n 2) ∧
    c.regsOnly (d.accept n x) [R.dmcGcnt a.group 0, R.dmcGcnt a.group 1, R.dmcChStat n, R.dmcChCnt n 2] := by
  have kind : x.access.kind = 1 := by rw [hx, hk]
  have narrow := hd.narrow hx
  have burst : x.burst = (a.addr - dramBase) / 64 := by rw [Txn.burst, Txn.ofs, hx]
  have fine : d.narrow x = false ∨ x.access.rmw = 0 ∧ d.mem.poison.contains x.burst = false := by
    rw [narrow, burst, hx, hd.poison]
    rcases h with h | h | h
    · exact .inl (by rw [h]; rfl)
    · exact .inl (by rw [h]; exact Bool.and_false _)
    · exact .inr h
  obtain ⟨evq, regs, cnt, poison⟩ := d.acceptWrite_clean n x kind fine
  refine ⟨burst ▸ poison, Chip.raises_of_evq (evq.trans (hd.only.keeps (·.evq) (fun _ _ => rfl))), ?_, ?_⟩
  · rw [cnt, narrow]
    simp only [Bool.and_eq_true, decide_eq_true_eq]
    split
    · exact Chip.bump_reg_congr (hd.cnt n 2 hn (by decide))
    · exact hd.cnt n 2 hn (by decide)
  · exact (hd.regs.mono (by simp)).trans (regs.mono (by simp))

/-- What a narrow write leaves over an uncorrectable burst. -/
theorem wornPlaced_says (hn : n < 16) (on : c.bit R.dmcCfg 30 = true) (hl : a.len < 64)
    (h : a.rmw = 2 ∨ c.mem.poison.contains ((a.addr - dramBase) / 64) = true) :
    (d.accept n x).mem.poison.contains ((a.addr - dramBase) / 64) = true ∧
    (d.accept n x).reg (R.dmcChCnt n 1) = (c.bump (R.dmcChCnt n 1)).reg (R.dmcChCnt n 1) ∧
    (d.accept n x).reg (R.dmcChCnt n 2) = (c.bump (R.dmcChCnt n 2)).reg (R.dmcChCnt n 2) := by
  have kind : x.access.kind = 1 := by rw [hx, hk]
  have narrow : d.narrow x = true := by rw [hd.narrow hx, on, decide_eq_true hl]; rfl
  have burst : x.burst = (a.addr - dramBase) / 64 := by rw [Txn.burst, Txn.ofs, hx]
  have worn : x.access.rmw = 2 ∨ d.mem.poison.contains x.burst = true := by
    rw [burst, hx, hd.poison]
    exact h
  obtain ⟨poison, one, two⟩ := d.acceptWrite_worn n x kind narrow worn
  exact ⟨burst ▸ poison, one.trans (Chip.bump_reg_congr (hd.cnt n 1 hn (by decide))),
    two.trans (Chip.bump_reg_congr (hd.cnt n 2 hn (by decide)))⟩

end

/-- What a read leaves. -/
theorem readPlaced_says {c d : Chip} {a : Access} {n : Nat} {x : Txn} (hd : c.Counted d a.group) (hx : x.access = a) (hk : a.kind ≠ 1) :
    (((d.accept n x).chan n).queue.map (fun x => x.access)) = ((c.chan n).queue.map (fun x => x.access)) ++
      [{ a with data := memRead dramDefault c.dram (a.addr - dramBase) a.len }] ∧
    (∀ k, k < 16 → k ≠ n → (d.accept n x).chan k = c.chan k) ∧ (d.accept n x).mem.waiting = c.mem.waiting ∧
    (d.accept n x).mem.poison = c.mem.poison ∧
    c.writesOnly (d.accept n x) [R.dmcGcnt a.group 0, R.dmcGcnt a.group 1, R.dmcChStat n] ∧ c.raises (d.accept n x) [] ∧
    (d.accept n x).tx = c.tx := by
  have kind : x.access.kind ≠ 1 := by rwa [hx]
  rw [Chip.accept_read kind]
  have only := hd.only.trans (d.onlyMem_modChan n (Chan.join (x.withData (memRead dramDefault d.dram x.ofs x.access.len))))
  refine ⟨?_, fun k _ hk => (d.chan_modChan_other n _ hk).trans (hd.chan k), ?_, ?_, only.writesOnly ?_, only.raises, only.keeps (·.tx) (fun _ _ => rfl)⟩
  · rw [Chip.chan_modChan_same, hd.chan, Chan.join, List.map_append, hd.only.keeps (·.dram) (fun _ _ => rfl), Txn.ofs, hx, Txn.withData, hx]
    rfl
  · exact hd.waiting
  · exact hd.poison
  · exact (hd.regs.mono (by simp)).trans ((regsSame_modChan d n _).mono (by simp))

end Sys2Proof.Machine

/-! ### A channel serves a read (R372, R378) -/

namespace Sys2Proof.Machine

/-- A served read leaves the queue. -/
def Chan.leave (x : Txn) (h : Chan) : Chan := { h with queue := h.queue.erase x }

/-- Channel `n` has taken the read `x` up: it leaves the queue, its row opens, and its burst is read. -/
def Chip.takeRead (c : Chip) (n ecc : Nat) (x : Txn) : Chip := ((c.modChan n (Chan.leave x)).openRow n x).eccRead n x.ofs ecc

/-- The answer to a read. -/
def readReply (x : Txn) (bad : Bool) : TxMsg :=
  .reply x.access.unit x.access.source (if bad then (List.range x.access.len).map (fun i => Config.ueByte (x.ofs + i)) else x.access.data) bad

section
variable {s : State} (t : Stamp) {n ecc : Nat}

theorem exec_readComplete {x : Txn} (hn : n < 16) (he : ecc < 3) (h : (s.chip.at t).choose n (s.chip.readyOf n false) = some x) :
    exec (.memoryReadComplete t n ecc) s = .next { s with
      chip := ((((s.chip.at t).takeRead n ecc x).send (readReply x (s.chip.flagged x.ofs ecc))).turnBus n).admitWaiting } := by
  rw [show exec (.memoryReadComplete t n ecc) s = execMemoryReadComplete t n ecc s from rfl, execMemoryReadComplete,
    runIf_of _ _ _ (by simp [hn, he])]
  have chosen : (s.chip.at t).choose n ((s.chip.at t).readyOf n false) = some x := h
  simp only [chosen]
  rfl

theorem exec_readComplete_none (hn : n < 16) (he : ecc < 3) (h : s.chip.readyOf n false = []) :
    exec (.memoryReadComplete t n ecc) s = .next { s with
      chip := s.chip.at t } := by
  rw [show exec (.memoryReadComplete t n ecc) s = execMemoryReadComplete t n ecc s from rfl, execMemoryReadComplete,
    runIf_of _ _ _ (by simp [hn, he])]
  have none : (s.chip.at t).choose n ((s.chip.at t).readyOf n false) = none := by
    rw [show (s.chip.at t).readyOf n false = [] from h, Chip.choose]
  simp only [none]

end

theorem Chip.turnBus_tx (c : Chip) (n : Nat) : (c.turnBus n).tx = c.tx := (c.onlyBus_turnBus n).only.keeps (·.tx) (fun _ _ => rfl)

theorem Chip.takeRead_tx (c : Chip) (n ecc : Nat) (x : Txn) : (c.takeRead n ecc x).tx = c.tx := Chip.eccRead_tx _ _ _ _

/-- What a served read answers. -/
theorem Chip.served_tx (c : Chip) (n ecc : Nat) (x : Txn) (m : TxMsg) :
    (((c.takeRead n ecc x).send m).turnBus n).admitWaiting.tx = c.tx ++ [m] := by
  rw [Chip.admitWaiting_tx, Chip.turnBus_tx]
  show (c.takeRead n ecc x).tx ++ [m] = c.tx ++ [m]
  rw [Chip.takeRead_tx]

section
variable (c : Chip) (n ecc : Nat) (x : Txn)

/-- Channel `n` before the burst is read. -/
def Chip.opened (c : Chip) (n : Nat) (x : Txn) : Chip := (c.modChan n (Chan.leave x)).openRow n x

theorem Chip.opened_chan : (c.opened n x).chan n = (Chan.leave x (c.chan n)).opened ((c.modChan n (Chan.leave x)).bankOf x.ofs) (rowOf x.ofs + 1) := by
  rw [Chip.opened, Chip.openRow_eq, Chip.chan_modChan_same, Chip.chan_modChan_same]

theorem Chip.opened_chan_other {k : Nat} (hk : k ≠ n) : (c.opened n x).chan k = c.chan k := by
  rw [Chip.opened, Chip.openRow_eq, Chip.chan_modChan_other _ _ _ hk, Chip.chan_modChan_other _ _ _ hk]

theorem regsSame_opened : regsSame [R.dmcChStat n] c.regs (c.opened n x).regs := by
  rw [Chip.opened, Chip.openRow_eq]
  exact (regsSame_modChan c n _).trans (regsSame_modChan _ n _)

theorem Chip.onlyMem_opened : c.OnlyMem (c.opened n x) := by
  rw [Chip.opened, Chip.openRow_eq]
  exact (c.onlyMem_modChan n _).trans (Chip.onlyMem_modChan _ n _)

theorem Chip.opened_poison : (c.opened n x).mem.poison = c.mem.poison := by
  rw [Chip.opened, Chip.openRow_eq]
  rfl

theorem Chip.opened_waiting : (c.opened n x).mem.waiting = c.mem.waiting := by
  rw [Chip.opened, Chip.openRow_eq]
  rfl

theorem Chip.opened_flagged (hn : n < 16) (ofs : Nat) : (c.opened n x).flagged ofs ecc = c.flagged ofs ecc := by
  rw [Chip.flagged, Chip.flagged, c.opened_poison n x, Chip.bit_of_reg ((regsSame_opened c n x).reg (by simp [R.dmcCfg, R.dmcChStat]; omega))]

/-- A read leaves the writes of its queue as they are. -/
theorem Chip.opened_writeQueued (hx : x.isRead = true) (ofs : Nat) : (c.opened n x).writeQueued n ofs = c.writeQueued n ofs := by
  rw [Chip.writeQueued, Chip.opened_chan]
  show (((c.chan n).queue.erase x).any _) = _
  have drop : ∀ l : List Txn, (l.erase x).any (fun y => y.access.kind == 1 && y.burst == ofs / 64) =
      l.any (fun y => y.access.kind == 1 && y.burst == ofs / 64) := by
    intro l
    induction l with
    | nil => rfl
    | cons y l ih =>
      by_cases h : y = x
      · have read : (y.access.kind == 1) = false := by
          rw [h]
          simpa [Txn.isRead] using hx
        rw [h, List.erase_cons_head, List.any_cons, ← h, read]
        rfl
      · rw [List.erase_cons_tail (by simpa using h), List.any_cons, List.any_cons, ih]
  exact drop _

/-- What a served read leaves where nothing waits for a place. -/
theorem served_says (hn : n < 16) (hx : x.isRead = true) (hw : c.mem.waiting = []) (m : TxMsg) {c1 : Chip}
    (h1 : c1 = (((c.takeRead n ecc x).send m).turnBus n).admitWaiting) :
    (c1.chan n).reads = (((c.chan n).queue.erase x).filter Txn.isRead).map (fun y => y.access) ∧
    (∀ k, k < 16 → k ≠ n → c1.chan k = c.chan k) ∧ c1.mem.poison = c.mem.poison ∧
    c1.reg (R.dmcChCnt n 0) = (if c.bit R.dmcCfg 30 = true ∧ ecc = 1 ∧ c.flagged x.ofs ecc = false
      then c.bump (R.dmcChCnt n 0) else c).reg (R.dmcChCnt n 0) ∧
    c1.reg (R.dmcChCnt n 1) = (if c.flagged x.ofs ecc = true then c.bump (R.dmcChCnt n 1) else c).reg (R.dmcChCnt n 1) ∧
    c1.reg (R.dmcChCnt n 3) = (if c.bit R.dmcCfg 30 = true ∧ ecc = 1 ∧ c.flagged x.ofs ecc = false ∧
        (c.chan n).queue.any (fun y => y.access.kind == 1 && y.burst == x.burst) = false
      then c.bump (R.dmcChCnt n 3) else c).reg (R.dmcChCnt n 3) ∧
    c.writesOnly c1 ([R.dmcChStat n, R.dmcChCnt n 0, R.dmcChCnt n 1, R.dmcChCnt n 3, R.dmcEccAddrLo n, R.dmcEccAddrHi n] ++ eventRegs) := by
  have bus := Chip.onlyBus_turnBus ((c.takeRead n ecc x).send m) n
  have ready : c1 = ((c.takeRead n ecc x).send m).turnBus n := by
    rw [h1]
    refine Chip.admitWaiting_none (fun y hy => absurd hy ?_)
    have wait : (((c.takeRead n ecc x).send m).turnBus n).mem.waiting = [] := by
      refine (congrArg Mem.waiting bus.mem).trans ?_
      refine (Chip.eccRead_waiting (c.opened n x) n x.ofs ecc).trans ?_
      exact (c.opened_waiting n x).trans hw
    rw [wait]
    exact List.not_mem_nil
  rw [ready]
  have cfg : (c.opened n x).bit R.dmcCfg 30 = c.bit R.dmcCfg 30 :=
    Chip.bit_of_reg ((regsSame_opened c n x).reg (by simp [R.dmcCfg, R.dmcChStat]; omega)) 30
  have kept : ∀ i < 4, (c.opened n x).reg (R.dmcChCnt n i) = c.reg (R.dmcChCnt n i) :=
    fun i _ => (regsSame_opened c n x).reg (by simp [R.dmcChCnt, R.dmcChStat]; omega)
  have cnt : ∀ i, (((c.takeRead n ecc x).send m).turnBus n).reg (R.dmcChCnt n i) = ((c.opened n x).eccRead n x.ofs ecc).reg (R.dmcChCnt n i) :=
    fun i => bus.regs.reg (by simp [R.dmcChCnt, R.dmcChStat]; omega)
  refine ⟨?_, fun k _ hk => ?_, ?_, ?_, ?_, ?_, ?_⟩
  · rw [bus.reads]
    obtain ⟨b, chan⟩ := (c.opened n x).eccRead_chan n x.ofs ecc
    have there : ((c.takeRead n ecc x).send m).chan n = { (c.opened n x).chan n with ueSeen := b } := chan
    rw [there, Chip.opened_chan]
    rfl
  · rw [bus.other k hk]
    exact (Chip.eccRead_chan_other (c.opened n x) n x.ofs ecc hk).trans (c.opened_chan_other n x hk)
  · refine (congrArg Mem.poison bus.mem).trans ?_
    exact (Chip.eccRead_poison (c.opened n x) n x.ofs ecc).trans (c.opened_poison n x)
  · rw [cnt, Chip.eccRead_cnt _ _ _ _ (by decide), c.opened_flagged n ecc x hn, cfg]
    by_cases h : c.bit R.dmcCfg 30 = true ∧ ecc = 1 ∧ c.flagged x.ofs ecc = false
    · rw [if_pos (.inr ⟨h.1, h.2.2, h.2.1, .inl rfl⟩), if_pos h]
      exact Chip.bump_reg_congr (kept 0 (by decide))
    · rw [if_neg (by rintro (⟨-, e⟩ | ⟨on, good, one, -⟩); exacts [absurd e (by decide), h ⟨on, one, good⟩]), if_neg h]
      exact kept 0 (by decide)
  · rw [cnt, Chip.eccRead_cnt _ _ _ _ (by decide), c.opened_flagged n ecc x hn]
    by_cases h : c.flagged x.ofs ecc = true
    · rw [if_pos (.inl ⟨h, rfl⟩), if_pos h]
      exact Chip.bump_reg_congr (kept 1 (by decide))
    · rw [if_neg (by rintro (⟨e, -⟩ | ⟨-, -, -, e | ⟨e, -⟩⟩); exacts [h e, absurd e (by decide), absurd e (by decide)]), if_neg h]
      exact kept 1 (by decide)
  · rw [cnt, Chip.eccRead_cnt _ _ _ _ (by decide), c.opened_flagged n ecc x hn, cfg, c.opened_writeQueued n x hx]
    by_cases h : c.bit R.dmcCfg 30 = true ∧ ecc = 1 ∧ c.flagged x.ofs ecc = false ∧ c.writeQueued n x.ofs = false
    · rw [if_pos (.inr ⟨h.1, h.2.2.1, h.2.1, .inr ⟨rfl, h.2.2.2⟩⟩)]
      exact (Chip.bump_reg_congr (kept 3 (by decide))).trans (congrArg (fun d : Chip => d.reg (R.dmcChCnt n 3)) (if_pos h).symm)
    · rw [if_neg (by
        rintro (⟨-, e⟩ | ⟨on, good, one, e | ⟨-, e⟩⟩)
        exacts [absurd e (by decide), absurd e (by decide), h ⟨on, one, good, e⟩])]
      exact (kept 3 (by decide)).trans (congrArg (fun d : Chip => d.reg (R.dmcChCnt n 3)) (if_neg h).symm)
  · have read : c.writesOnly ((c.takeRead n ecc x).send m) (errorRegs n ++ eventRegs) := by
      refine Chip.writesOnly_of (((regsSame_opened c n x).mono (by simp [errorRegs])).trans (regsSame_eccRead _ _ _ _)) ?_ ?_
      · exact (Chip.eccRead_dram _ _ _ _).trans ((c.onlyMem_opened n x).keeps (·.dram) (fun _ _ => rfl))
      · exact (Chip.eccRead_tbw _ _ _ _).trans ((c.onlyMem_opened n x).keeps (·.tbw) (fun _ _ => rfl))
    refine ((read.trans (bus.only.writesOnly (bus.regs.mono (by simp [errorRegs])))).mono (fun a h => ?_))
    simp only [errorRegs, List.mem_append, List.mem_cons, List.not_mem_nil, or_false] at h ⊢
    rcases h with (h | h | h | h | h | h) | h <;> simp only [h, true_or, or_true]

end

end Sys2Proof.Machine

/-! ### The obligation -/

namespace Sys2Proof.Machine

theorem accessShape_data {a : Access} (h : accessShape a = true) (hk : a.kind = 1) : a.data.length = a.len := by
  simp only [accessShape, Bool.and_eq_true, Bool.or_eq_true, bne_iff_ne, beq_iff_eq] at h
  exact h.1.2.resolve_left (fun e => e hk)

theorem Chip.faulted_tx (c : Chip) (a : Access) :
    (c.faulted a).tx = c.tx ++ [.reply a.unit a.source (if a.kind = 1 then [] else List.replicate a.len 0) true] := by
  simp [Chip.faulted, Chip.send]

theorem Chip.fillRecord_mem (c : Chip) (v : Violation) : (c.fillRecord v).mem = c.mem := by
  rw [Chip.fillRecord_eq, Chip.event_mem, Chip.recorded, Chip.setWide_mem, Chip.setWide_mem, Chip.setNat_mem]

theorem Chip.violation_mem (c : Chip) (a : Access) (cause : Nat) : (c.violation a cause).mem = c.mem := by
  rcases c.violation_cases a cause with ⟨-, h⟩ | ⟨-, h⟩ | ⟨-, h⟩ <;> rw [h]
  · rw [Chip.fillRecord_mem]
    rfl
  · rw [Chip.eventLimited_mem, Chip.fillRecord_mem]
    rfl
  · rw [Chip.eventLimited_mem]
    rfl

section
variable (c : Chip) (l : List Txn)

theorem Chip.onlyMem_withWaiting : c.OnlyMem (c.withWaiting l) := rfl
theorem Chip.withWaiting_chan (n : Nat) : (c.withWaiting l).chan n = c.chan n := rfl
theorem Chip.withWaiting_alarms : (c.withWaiting l).mem.alarms = c.mem.alarms := rfl
theorem Chip.withWaiting_channelOf (ofs : Nat) : (c.withWaiting l).channelOf ofs = c.channelOf ofs := rfl
theorem Chip.withWaiting_waiting : (c.withWaiting l).mem.waiting = l := rfl
theorem Chip.withWaiting_chans : (c.withWaiting l).mem.chans = c.mem.chans := rfl
theorem Chip.withWaiting_regs : (c.withWaiting l).regs = c.regs := rfl

end

section
variable (c : Chip) (x : Txn)

/-- The transaction as the regulator has counted it. -/
def Chip.tagged (c : Chip) (x : Txn) : Txn := x.regulated (c.regulate x.access.group).2 (c.regulate x.access.group).1.clk

theorem Txn.regulated_access (b : Bool) (now : Stamp) : (x.regulated b now).carried = x.carried ∧ (x.regulated b now).access = x.access :=
  ⟨rfl, rfl⟩

theorem Chip.tagged_access : (c.tagged x).carried = x.carried ∧ (c.tagged x).access = x.access := x.regulated_access _ _

theorem Chip.countIn_eq : c.countIn x = (c.regulate x.access.group).1.withWaiting ((c.regulate x.access.group).1.mem.waiting ++ [c.tagged x]) := rfl

theorem Chip.onlyMem_countIn : c.OnlyMem (c.countIn x) := by
  rw [Chip.countIn_eq]
  exact (c.counted_regulate _).only.trans (Chip.onlyMem_withWaiting _ _)

theorem Chip.countIn_waiting : (c.countIn x).mem.waiting = c.mem.waiting ++ [c.tagged x] := by
  rw [Chip.countIn_eq, Chip.withWaiting_waiting, (c.counted_regulate _).waiting]

theorem Chip.countIn_chans : (c.countIn x).mem.chans = c.mem.chans := by
  obtain ⟨r, mem⟩ := (c.counted_regulate x.access.group).mem
  rw [Chip.countIn_eq, Chip.withWaiting_chans, mem]

theorem Chip.countIn_place (y : Txn) (n : Nat) (z : Txn) (h : y.carried = z.carried ∧ y.access = z.access) :
    (c.countIn x).hasPlace n y = c.hasPlace n z := by
  refine Chip.hasPlace_congr ?_ ?_ h
  · rw [Chip.countIn_eq, Chip.withWaiting_chan, (c.counted_regulate _).chan]
  · rw [Chip.countIn_eq, Chip.withWaiting_alarms, (c.counted_regulate _).alarms]

theorem Chip.countIn_channelOf (ofs : Nat) : (c.countIn x).channelOf ofs = c.channelOf ofs := by
  rw [Chip.countIn_eq, Chip.withWaiting_channelOf, (c.counted_regulate _).channelOf]

theorem regsSame_countIn : regsSame [R.dmcGcnt x.access.group 0, R.dmcGcnt x.access.group 1] c.regs (c.countIn x).regs := by
  rw [Chip.countIn_eq, Chip.withWaiting_regs]
  exact (c.counted_regulate _).regs

/-- Where neither what waits nor the new transaction has a place, it waits with the others. -/
theorem Chip.countIn_stays (hw : c.mem.waiting.any (fun y => c.hasPlace (c.channelOf y.ofs) y) = false)
    (place : c.hasPlace (c.channelOf x.ofs) x = false) : (c.countIn x).admitWaiting = c.countIn x := by
  refine Chip.admitWaiting_none (fun y hy => ?_)
  rw [Chip.countIn_channelOf]
  rw [Chip.countIn_waiting] at hy
  rcases List.mem_append.mp hy with hy | hy
  · rw [c.countIn_place x y _ y ⟨rfl, rfl⟩]
    exact Bool.eq_false_iff.mpr (List.any_eq_false.mp hw y hy)
  · rw [List.mem_singleton.mp hy, c.countIn_place x _ _ x (c.tagged_access x), Txn.ofs, (c.tagged_access x).2]
    exact place

end

theorem countIn_says (c : Chip) (x : Txn) {a : Access} (hx : x.access = a) :
    (c.countIn x).mem.waiting.map (fun x => x.access) = c.mem.waiting.map (fun x => x.access) ++ [a] ∧
    (c.countIn x).mem.chans = c.mem.chans ∧ (c.countIn x).tx = c.tx ∧ c.raises (c.countIn x) [] ∧
    c.writesOnly (c.countIn x) [R.dmcGcnt a.group 0, R.dmcGcnt a.group 1] := by
  have only := c.onlyMem_countIn x
  refine ⟨?_, c.countIn_chans x, only.keeps (·.tx) (fun _ _ => rfl), only.raises, only.writesOnly (hx ▸ regsSame_countIn c x)⟩
  rw [c.countIn_waiting, List.map_append, List.map_singleton, (c.tagged_access x).2, hx]

/-- A request that finds no place waits for one behind those that wait. -/
theorem waits_says {c : Chip} {a : Access} (hp : c.passes a) (hh : rankOf a.group < 6 ∨ c.mem.anyPanic = false)
    (hi : a.addr - dramBase < c.dramUsable) (hw : c.mem.waiting.any (fun x => c.hasPlace (c.channelOf x.ofs) x) = false)
    (place : c.hasPlace (c.channelOf (a.addr - dramBase)) (c.newTxn a) = false) :
    (c.requestDram a).mem.waiting.map (fun x => x.access) = c.mem.waiting.map (fun x => x.access) ++ [a] ∧
    (c.requestDram a).mem.chans = c.mem.chans ∧ (c.requestDram a).tx = c.tx ∧ c.raises (c.requestDram a) [] ∧
    c.writesOnly (c.requestDram a) [R.dmcGcnt a.group 0, R.dmcGcnt a.group 1] := by
  have stays : c.requestDram a = c.countIn (c.newTxn a) := by
    rw [Chip.requestDram_enters hp hh, Chip.enterDram_inside (x := c.newTxn a) hi]
    exact c.countIn_stays (c.newTxn a) hw place
  rw [stays]
  exact countIn_says c (c.newTxn a) rfl

section
variable {s : State} {t : Stamp} {a g : Access}

/-- MEMORY_REQUEST of an access that finds its place. -/
theorem exec_placed (ha : accessShape a = true) (hg : g = (s.chip.at t).groupOf a) (hd : placeOf s.chip.dramCap a.addr = .dram)
    (hi : a.addr - dramBase < s.chip.dramUsable) (hp : s.chip.passes g) (hh : rankOf g.group < 6 ∨ s.chip.mem.anyPanic = false)
    (hw : s.chip.mem.waiting = []) {n : Nat} (hn : n = s.chip.channelOf (a.addr - dramBase))
    (place : s.chip.hasPlace n ((s.chip.at t).newTxn g) = true) :
    ∃ d x, (s.chip.at t).Counted d g.group ∧ x.access = g ∧ exec (.memoryRequest t a) s = .next { s with
      chip := d.accept n x } := by
  have kept : g.addr = a.addr := (Chip.groupOf_kept hg).2.2.1
  rw [← kept] at hi hn
  obtain ⟨d, x, hc, hx, h⟩ := Chip.requestDram_placed (c := s.chip.at t) hp hh hi hw hn place
  exact ⟨d, x, hc, hx, by rw [exec_dramRequest t ha hg hd, h]⟩

end

/-- Settles O52: what a request to DRAM leaves where it is stored, waits, is held, lies beyond or is faulted, and what a served read
answers. -/
theorem memoryAccessesStoreReadAndComplete : Obligations.MemoryAccessesStoreReadAndComplete := by
  unfold Obligations.MemoryAccessesStoreReadAndComplete
  refine ⟨?_, ?_, ?_, ?_, ?_, ?_, ?_, ?_, ?_, ?_, ?_⟩
  · intro s t a g n o ha hk hg hd hi hp hh hw hn place
    obtain ⟨-, kind, addr, len, data, -⟩ := Chip.groupOf_kept hg
    obtain ⟨d, x, hc, hx, h⟩ := exec_placed ha hg hd hi hp hh hw hn place
    refine answers_exec h ?_
    obtain ⟨byte, tbw, tx, waits, regs⟩ := writePlaced_says hc hx (kind.trans hk) (n := n) (by rw [data, len, accessShape_data ha hk]) o
    rw [addr, len, data] at byte
    refine ⟨byte, tbw, tx, waits.trans hw, (regs.mono (fun b hb => ?_))⟩
    simp only [writeRegs, errorRegs, List.mem_append, List.mem_cons, List.not_mem_nil, or_false, List.range_succ, List.range_zero,
      List.map_append, List.map_cons, List.map_nil, List.nil_append] at hb ⊢
    rcases hb with (hb | hb) | hb | (hb | hb | hb | hb | hb | hb) | hb <;> simp only [hb, true_or, or_true]
  · intro s t a g n ha hk hg hd hi hp hh hw hn place clean
    obtain ⟨-, kind, addr, len, -, -, rmw⟩ := Chip.groupOf_kept hg
    obtain ⟨d, x, hc, hx, h⟩ := exec_placed ha hg hd hi hp hh hw hn place
    have lt : n < 16 := hn ▸ s.chip.channelOf_lt _
    rw [← addr, ← len, ← rmw] at clean
    have left := cleanPlaced_says hc hx (kind.trans hk) lt clean
    rw [addr, len] at left
    exact answers_exec h ⟨left.1, left.2.1, left.2.2.1.trans (at_ite_reg _ _ _ _), left.2.2.2⟩
  · intro s t a g n ha hk hg hd hi hp hh hw hn place on short worn
    obtain ⟨-, kind, addr, len, -, -, rmw⟩ := Chip.groupOf_kept hg
    obtain ⟨d, x, hc, hx, h⟩ := exec_placed ha hg hd hi hp hh hw hn place
    have lt : n < 16 := hn ▸ s.chip.channelOf_lt _
    rw [← addr, ← rmw] at worn
    have left := wornPlaced_says hc hx (kind.trans hk) lt on (len ▸ short) worn
    rw [addr] at left
    exact answers_exec h left
  · intro s t a g ha hg hd hi hp hh hw place
    have addr : g.addr = a.addr := (Chip.groupOf_kept hg).2.2.1
    rw [← addr] at hi place
    exact answers_exec (exec_dramRequest t ha hg hd) (waits_says (c := s.chip.at t) hp hh hi hw place)
  · intro s t a g ha hg hd h6 hh hp
    have held := Chip.requestDram_held (c := s.chip.at t) h6 hh hp
    refine answers_exec (exec_dramRequest t ha hg hd) ?_
    rw [held]
    exact ⟨rfl, rfl, Chip.raises_of_evq rfl, Chip.writesOnly_of .refl rfl rfl⟩
  · intro s t a g ha hg hd hb hp hh
    obtain ⟨unit, kind, addr, len, -, source, -⟩ := Chip.groupOf_kept hg
    rw [← addr] at hb
    have beyond : (s.chip.at t).requestDram g = ((s.chip.at t).event 0xD007 .room [.val 1 g.group, .val 8 (g.addr - dramBase)]).faulted g := by
      rw [Chip.requestDram_enters (c := s.chip.at t) hp hh, Chip.enterDram_beyond (c := s.chip.at t) (x := (s.chip.at t).newTxn g) hb]
      rfl
    refine answers_exec (exec_dramRequest t ha hg hd) ?_
    rw [beyond]
    refine ⟨Chip.event_mem _ _ _ _, ?_, Chip.writesOnly_of ?_ (Chip.event_dram _ _ _ _) (Chip.event_tbw _ _ _ _), ?_⟩
    · rw [Chip.faulted_tx, Chip.event_tx, unit, source, kind, len]
      rfl
    · exact (regsSame_event_iff (c := s.chip.at t) (by simp) (by simp) _ _ _).mpr .refl
    · rw [addr]
      exact (Chip.raises_event_of_evq rfl rfl _ _ _).trans_evq rfl
  · intro s t a g ha hg hd on cause hh
    obtain ⟨unit, kind, addr, len, -, source, -⟩ := Chip.groupOf_kept hg
    have not : ¬ s.chip.passes g := by
      rintro (off | none)
      · rw [unit] at off
        omega
      · exact cause none
    have lt : g.unit < 24 := unit ▸ (accessShape_bounds ha).1
    have faulted := Chip.requestDram_faulted (c := s.chip.at t) not hh
    refine answers_exec (exec_dramRequest t ha hg hd) ?_
    rw [faulted]
    refine ⟨Chip.violation_mem _ _ _, ?_, ?_, Chip.writesOnly_of ?_ (Chip.violation_dram _ _ _) (Chip.violation_tbw _ _ _)⟩
    · rw [Chip.faulted_tx, Chip.violation_tx, unit, source, kind, len]
      rfl
    · rw [← unit]
      exact Chip.violation_count (s.chip.at t) g _ lt
    · rw [← unit]
      exact regsSame_violation (s.chip.at t) g _
  · intro s t a g n ha hk hg hd hi hp hh hw hn place
    obtain ⟨-, kind, addr, len, -⟩ := Chip.groupOf_kept hg
    obtain ⟨d, x, hc, hx, h⟩ := exec_placed ha hg hd hi hp hh hw hn place
    have left := readPlaced_says (n := n) hc hx (kind ▸ hk)
    obtain ⟨queue, other, waits, poison, writes, raises, tx⟩ := left
    refine answers_exec h ?_
    rw [← addr, ← len]
    exact ⟨queue, other, waits.trans hw, poison, writes, raises, tx⟩
  · intro s t n ecc x hn he h
    exact answers_exec (exec_readComplete t hn he h) (Chip.served_tx (s.chip.at t) n ecc x _)
  · intro s t n ecc x hn he hw h
    have read : x.isRead = true := by
      have kind : (x.access.kind == 1) = false := Chip.readyOf_kind (c := s.chip) (n := n) (Chip.choose_mem h)
      unfold Txn.isRead
      simpa using kind
    refine answers_exec (exec_readComplete t hn he h) ?_
    obtain ⟨reads, other, poison, zero, one, three, writes⟩ := served_says (s.chip.at t) n ecc x hn read hw _ rfl
    exact ⟨reads, other, poison, zero.trans (at_ite_reg _ _ _ _), one.trans (at_ite_reg _ _ _ _), three.trans (at_ite_reg _ _ _ _), writes⟩
  · intro s t n ecc hn he h
    exact exec_readComplete_none t hn he h

end Sys2Proof.Machine
